-- ==== Sys2Proof/Word.lean ====
section
/-! DEFINITION. The plainest value types: bytes, and sparse data by key. -/

namespace Sys2Proof

/-- A byte. -/
abbrev Byte := BitVec 8

/-- Sparse data by key: key and value pairs in ONE canonical form, keys strictly rising and no
entry equal to what an unlisted key reads as. `Sys2Proof.Machine.mget` and `mset` read and write it. -/
abbrev SMap (α : Type) := List (Nat × α)

end Sys2Proof
end

