-- ==== Sys2Proof/Syntax.lean ====
section
/-! DEFINITION. The commands of the block: one constructor per row of spec/opcode_table.json, with the
row's operands. Units are named by bounded numbers, so no command names a unit that the device lacks. -/

namespace Sys2Proof

/-- A coach, by its ordinal c * 24 + k (R40). -/
abbrev Coach := Fin 96

/-- A carriage (R38). -/
abbrev Car := Fin 4

/-- A context (R34). -/
abbrev Ctx := Fin 1024

/-- The units with a queue (Table 4.5). -/
inductive SeqUnit where
  | array | bank | vector
deriving DecidableEq, Repr

/-- What reaches an accumulator-bank entry (R168): the group sum of segment `grp` for row `row` and
column `col` of array `arr`, of the `pass`-th pass in flight, oldest first; or the `n`-th tally waiting at
the coach. -/
inductive ContribSrc where
  | group (pass : Nat) (arr : Fin 4) (row : Fin 256) (col : Fin 128) (grp : Fin 4)
  | tally (n : Nat)
deriving DecidableEq, Repr

/-- An engine with a translation cache: a coach's stream engine, or a carriage's DMA engine (R275, R282). -/
inductive Eng where
  | coach (k : Coach)
  | dma (c : Car)
deriving DecidableEq, Repr

/-- The content of a sync block (Table 11.1). -/
structure SyncBlk where
  lane : Nat
  trn : Bool := false
  done : Bool := false
  req : Nat := 0
  rseq : Nat := 0
  ackseq : Nat := 0
  ackst : Nat := 0
  mark : Nat := 0
  d : Nat := 0
  tstamp : Nat := 0
  echo : Nat := 0
  hold : Nat := 0
  echov : Bool := false
deriving DecidableEq, Repr

/-- A link block (Table 11.4): its control fields and its 628 payload bytes. -/
structure LinkBlk where
  seq : Nat
  ackseq : Nat
  nak : Bool := false
  idle : Bool := false
  fpo : Nat := 1023
  crvn0 : Nat := 0
  crcnt0 : Nat := 0
  crvn1 : Nat := 1
  crcnt1 : Nat := 0
  payload : List Nat := []
deriving DecidableEq, Repr


/-- A packet that a unit presents to its NI (Table 8.5): the fields that the unit itself gives. -/
structure PktIn where
  vn : Fin 6
  op : Nat := 0
  sclass : Nat := 3
  ctx : Nat := 0
  tag : Nat := 0
  status : Nat := 0
  addr : Nat := 0
  aux : Nat := 0
  len : Nat := 0
  data : List Byte := []
deriving DecidableEq, Repr

/-- Where a unit sends: a route-sheet entry that it names, or the fixed entry of the unit that holds a physical address (R346). -/
inductive SendTo where
  | entry (e : Fin 256)
  | hbm
  | tender (b : Fin 4)
  | host (p : Fin 4)
deriving DecidableEq, Repr

/-- A flit that the fabric presents to a network port (R491): a head with the fabric's header values, the entry it names and up to 96
bytes of payload, or a body with up to 128 bytes more. -/
inductive FabFlit where
  | head (p : PktIn) (rse : Fin 256)
  | body (data : List Byte)
deriving DecidableEq, Repr

/-- A part of the load stream as its source gives it: bytes from the host or a tender (R517), or CFG_DQ[3:0] at rising edges of CFG_SCK from serial flash (R519, R520). -/
inductive LoadIn where
  | bytes (l : List Byte)
  | edges (l : List (Fin 16))
deriving DecidableEq, Repr

/-- A module as it is seated in a bay (Tables 10.5 to 10.7): what its identity block says, the bytes written to its media, its spare pool in
0.001 % of capacity, and its seal record. -/
structure ModIn where
  serial : Nat
  make : Nat := 0
  capGib : Nat := 0
  rated : Nat := 0
  written : Nat := 0
  spare : Nat := 0
  idOk : Bool := true
  sealDev : Nat := 0
  sealCnt : Nat := 0
  sealOk : Bool := true
  media : List (Nat × Byte) := []
deriving DecidableEq, Repr

/-- Bytes of a doorbell page (R52). -/
def pageSize : Nat := 0x1000

/-- Where a doorbell write arrives (R52, R546, R556, R557): an offset in the 4 MiB of BAR2 of a port's PF, in the 64 KiB of BAR2 of a VF, or in the doorbell pages of a carriage's
host cores, laid out as BAR2 of the PF. -/
inductive Door where
  | pf (p : Fin 4) (off : Fin 0x400000)
  | vf (p : Fin 4) (v : Fin 256) (off : Fin 0x10000)
  | hart (c : Car) (off : Fin 0x400000)
deriving DecidableEq, Repr

/-- A unit bound to a context (R553). -/
inductive BrakeUnit where
  | coach (k : Coach)
  | chan (c : Car) (ch : Fin 64)
  | port (c : Car) (n : Fin 16)
deriving DecidableEq, Repr

/-- Where a fault report comes from (R597, Table 16.4): the reports that the device's units have made and that wait, with what the host returns for
the head of the context's event ring; or an uncorrectable error of a coach, of a carriage's unit, or of the security core, the scheduler core or the
configuration controller, with the unit's own code. -/
inductive FaultSrc where
  | queued (host : List Byte)
  | coachErr (k : Coach) (code : BitVec 8)
  | carErr (u : Fin 1024) (code : BitVec 8)
  | globalErr (u : Fin 1024) (code : BitVec 8)
deriving DecidableEq, Repr

/-- A PLL (CLK_STATUS): of a carriage (0 coach, 1 network, 2 host core, 3 fabric), or the control PLL of a die. -/
inductive Pll where
  | car (c : Car) (p : Fin 4)
  | ctl (die : Fin 2)
deriving DecidableEq, Repr

/-- The commands: one constructor per row of spec/opcode_table.json. -/
inductive Instr where
  /-- REGISTER_WRITE (R23): A write to a register field that has no row of its own stores, sets or clears per its access code. -/
  | registerWrite (off : BitVec 30) (v : BitVec 32)
  /-- READ_CLEAR (R26): A read of an RC field returns its value and clears it, keeping any same-cycle increment. -/
  | readClear (off : BitVec 30)
  /-- PAIR_LOW_READ (R19): A read of the low word of a 64-bit pair returns it and latches the high word. -/
  | pairLowRead (off : BitVec 30)
  /-- PAIR_HIGH_READ (R19): A read of the high word of a 64-bit pair returns the latched value, or the current value if never latched. -/
  | pairHighRead (off : BitVec 30)
  /-- PAIR_LOW_WRITE (R20): A write of the low word of a 64-bit pair is held without effect. -/
  | pairLowWrite (off : BitVec 30) (v : BitVec 32)
  /-- PAIR_HIGH_WRITE (R20): A write of the high word of a 64-bit pair makes both words take effect together. -/
  | pairHighWrite (off : BitVec 30) (v : BitVec 32)
  /-- MISALIGNED_ACCESS (R18): A BAR0 access that is not an aligned 32-bit access completes with Unsupported Request and is recorded as stray. -/
  | misalignedAccess (off : BitVec 30) (bytes : Nat) (write : Bool)
  /-- UNNAMED_OFFSET_ACCESS (R22): An access to an offset in a block that names no register reads zero or is ignored. -/
  | unnamedOffsetAccess (off : BitVec 30) (write : Bool)
  /-- RESERVED_RANGE_ACCESS (R53): An access to a reserved BAR0 range reads zero or is ignored and is recorded in DEV_STRAY. -/
  | reservedRangeAccess (off : BitVec 30) (write : Bool)
  /-- NOT_ANSWERING_ACCESS (R54): An access to a sleeping or resetting carriage, or a non-always-on register in S3, reads all ones and is recorded. -/
  | notAnsweringAccess (off : BitVec 30) (write : Bool)
  /-- CLEAR_SATTOT (R99): Writing NUM_CTRCLR.SATTOT clears the saturated running total, keeping same-cycle counts. -/
  | clearSattot (k : Coach)
  /-- CLEAR_FLUSHTOT (R99): Writing NUM_CTRCLR.FLUSHTOT clears the flushed running total, keeping same-cycle counts. -/
  | clearFlushtot (k : Coach)
  /-- CLEAR_NANBLKTOT (R99): Writing NUM_CTRCLR.NANBLKTOT clears the NaN-block running total, keeping same-cycle counts. -/
  | clearNanblktot (k : Coach)
  /-- NOP (R191): The sequencer issues a NOP, which does nothing. It is the instruction at COA_PC of coach `k`. -/
  | nop (k : Coach)
  /-- BADOP (R191): Issue of an opcode not in the opcode tables faults the sequencer with BADOP. It is the instruction at COA_PC of coach `k`. -/
  | badop (k : Coach)
  /-- LOADW (R192): The sequencer issues a LOADW that loads a weight tile into the shadow set. It is the instruction at COA_PC of coach `k`. -/
  | loadw (k : Coach)
  /-- SWAPW (R165): The sequencer issues SWAPW, exchanging active and shadow weight sets for later passes. It is the instruction at COA_PC of coach `k`. -/
  | swapw (k : Coach)
  /-- PASS (R195): The sequencer issues a PASS that streams activation rows through the selected arrays. It is the instruction at COA_PC of coach `k`. -/
  | pass (k : Coach)
  /-- DRAIN (R196): The sequencer issues a DRAIN that converts a bank region to a format or writes it as tallies. It is the instruction at COA_PC of coach `k`. -/
  | drain (k : Coach)
  /-- QUANT (R199): The sequencer issues a QUANT that quantises a bank region into block-scaled form. It is the instruction at COA_PC of coach `k`. -/
  | quant (k : Coach)
  /-- REDUCE (R201): The sequencer issues a REDUCE that adds tallies into a region of this or another coach. It is the instruction at COA_PC of coach `k`. -/
  | reduce (k : Coach)
  /-- SWAPB (R204): The sequencer issues SWAPB, which holds issue until the stream halves can be exchanged. It is the instruction at COA_PC of coach `k`. -/
  | swapb (k : Coach)
  /-- SYNC (R205): The sequencer issues SYNC, which holds issue until a sync counter reaches a value. It is the instruction at COA_PC of coach `k`. -/
  | sync (k : Coach)
  /-- SETNUM (R207): The sequencer issues SETNUM, writing NUMCTL bits for later operations. It is the instruction at COA_PC of coach `k`. -/
  | setnum (k : Coach)
  /-- SETSP (R203): The sequencer issues SETSP, setting a status pointer. It is the instruction at COA_PC of coach `k`. -/
  | setsp (k : Coach)
  /-- SETC (R203): The sequencer issues SETC, setting a loop counter. It is the instruction at COA_PC of coach `k`. -/
  | setc (k : Coach)
  /-- LOOP (R206): The sequencer issues LOOP, decrementing a loop counter and branching when it is not zero. It is the instruction at COA_PC of coach `k`. -/
  | loop (k : Coach)
  /-- END (R208): The sequencer issues END, closing any open operation and ending the work order once all earlier instructions complete. It is the instruction at COA_PC of coach `k`. -/
  | endWorkOrder (k : Coach)
  /-- INSTR_START (R180): A queued instruction starts once its start conditions and hazards clear. -/
  | instrStart (k : Coach) (unit : SeqUnit)
  /-- PASS_ROW_ENTER (R160): An activation row enters the array once all of its data is present. -/
  | passRowEnter (k : Coach)
  /-- LOADW_COMPLETE (R163): A LOADW completes when its last tile row is written into the weight set. -/
  | loadwComplete (k : Coach)
  /-- PASS_COMPLETE (R161): A pass completes when every group sum of its rows has reached the bank. -/
  | passComplete (k : Coach)
  /-- BANK_INSTR_COMPLETE (R178): A DRAIN, QUANT or REDUCE completes when its last element or tally is written or sent. -/
  | bankInstrComplete (k : Coach)
  /-- BANK_CONTRIBUTION (R168): A group sum or tally reaches an accumulator-bank entry and is added exactly. -/
  | bankContribution (k : Coach) (src : ContribSrc)
  /-- OPERATION_END (R186): An operation ends when its closing instruction and all its counting instructions finish, and its record is written. -/
  | operationEnd (k : Coach)
  /-- SYNC_COMPLETE (R205): A waiting SYNC finds its counter at least VALUE, subtracts it and completes. -/
  | syncComplete (k : Coach)
  /-- SWAPB_COMPLETE (R260): A waiting SWAPB finds its conditions met and exchanges the stream halves. -/
  | swapbComplete (k : Coach)
  /-- VLD (R230): The vector unit loads a register from the coach store, converting each element. It is the instruction at COA_PC of coach `k`. -/
  | vld (k : Coach)
  /-- VST (R231): The vector unit stores a register to the coach store in a format. It is the instruction at COA_PC of coach `k`. -/
  | vst (k : Coach)
  /-- VMOV (R223): VMOV copies a register bit for bit. It is the instruction at COA_PC of coach `k`. -/
  | vmov (k : Coach)
  /-- VBCAST (R223): VBCAST writes an immediate into every lane. It is the instruction at COA_PC of coach `k`. -/
  | vbcast (k : Coach)
  /-- VSETCB (R234): VSETCB sets circular-buffer descriptors of selected lane groups. It is the instruction at COA_PC of coach `k`. -/
  | vsetcb (k : Coach)
  /-- VADD (R225): VADD adds lanes with correct rounding. It is the instruction at COA_PC of coach `k`. -/
  | vadd (k : Coach)
  /-- VSUB (R225): VSUB subtracts lanes with correct rounding. It is the instruction at COA_PC of coach `k`. -/
  | vsub (k : Coach)
  /-- VMUL (R225): VMUL multiplies lanes with correct rounding. It is the instruction at COA_PC of coach `k`. -/
  | vmul (k : Coach)
  /-- VFMA (R225): VFMA computes a fused multiply-add rounded once. It is the instruction at COA_PC of coach `k`. -/
  | vfma (k : Coach)
  /-- VFMS (R225): VFMS computes a fused multiply-subtract rounded once. It is the instruction at COA_PC of coach `k`. -/
  | vfms (k : Coach)
  /-- VMIN (R226): VMIN gives the element-wise minimum. It is the instruction at COA_PC of coach `k`. -/
  | vmin (k : Coach)
  /-- VMAX (R226): VMAX gives the element-wise maximum. It is the instruction at COA_PC of coach `k`. -/
  | vmax (k : Coach)
  /-- VABS (R226): VABS gives the magnitude of each lane. It is the instruction at COA_PC of coach `k`. -/
  | vabs (k : Coach)
  /-- VRCP (R227): VRCP computes the F32 reciprocal of each lane within its bound. It is the instruction at COA_PC of coach `k`. -/
  | vrcp (k : Coach)
  /-- VRSQRT (R227): VRSQRT computes the F32 reciprocal square root of each lane. It is the instruction at COA_PC of coach `k`. -/
  | vrsqrt (k : Coach)
  /-- VEXP2 (R227): VEXP2 computes exp2 of each lane. It is the instruction at COA_PC of coach `k`. -/
  | vexp2 (k : Coach)
  /-- VLOG2 (R227): VLOG2 computes log2 of each lane. It is the instruction at COA_PC of coach `k`. -/
  | vlog2 (k : Coach)
  /-- VTANH (R227): VTANH computes tanh of each lane. It is the instruction at COA_PC of coach `k`. -/
  | vtanh (k : Coach)
  /-- VSIN (R227): VSIN computes the sine of each lane in the reduced domain. It is the instruction at COA_PC of coach `k`. -/
  | vsin (k : Coach)
  /-- VCOS (R227): VCOS computes the cosine of each lane in the reduced domain. It is the instruction at COA_PC of coach `k`. -/
  | vcos (k : Coach)
  /-- VCVT (R228): VCVT converts each lane between F32, F64 and X24 kinds. It is the instruction at COA_PC of coach `k`. -/
  | vcvt (k : Coach)
  /-- VQUANT (R236): VQUANT quantises each lane group into block-scaled form in the coach store. It is the instruction at COA_PC of coach `k`. -/
  | vquant (k : Coach)
  /-- SDSPLIT (R237): SDSPLIT decomposes an F64 pair into seven I8 slice planes. It is the instruction at COA_PC of coach `k`. -/
  | sdsplit (k : Coach)
  /-- VRSUM (R238): VRSUM forms the exact lane sum and rounds it once. It is the instruction at COA_PC of coach `k`. -/
  | vrsum (k : Coach)
  /-- VMAXI (R239): VMAXI finds the maximum value and its index under a total order. It is the instruction at COA_PC of coach `k`. -/
  | vmaxi (k : Coach)
  /-- VMINI (R239): VMINI finds the minimum value and its index under a total order. It is the instruction at COA_PC of coach `k`. -/
  | vmini (k : Coach)
  /-- SMAC (R244): SMAC adds exact X24 products into a signal accumulator. It is the instruction at COA_PC of coach `k`. -/
  | smac (k : Coach)
  /-- SMSU (R244): SMSU subtracts exact X24 products from a signal accumulator. It is the instruction at COA_PC of coach `k`. -/
  | smsu (k : Coach)
  /-- SWB (R246): SWB writes a shifted, rounded accumulator value to a register as X24. It is the instruction at COA_PC of coach `k`. -/
  | swb (k : Coach)
  /-- VLSET (R247): VLSET enters loop mode with a stage count and trip limit. It is the instruction at COA_PC of coach `k`. -/
  | vlset (k : Coach)
  /-- VROT (R248): VROT rotates the register base, advances the trip and may end loop mode. It is the instruction at COA_PC of coach `k`. -/
  | vrot (k : Coach)
  /-- VECTOR_COMPLETE (R220): A vector instruction completes when its last result is written. -/
  | vectorComplete (k : Coach) (n : Nat)
  /-- STREAM_START (R253): Writing STR_CTL.START checks the configuration and starts the stream. -/
  | streamStart (k : Coach) (n : Fin 8)
  /-- STREAM_STOP (R262): Writing STR_CTL.STOP stops request issue; the stream enters IDLE once outstanding requests finish. -/
  | streamStop (k : Coach) (n : Fin 8)
  /-- STREAM_RESUME (R270): Writing STR_RESUME.GO returns a faulted stream to RUN from STR_POS. -/
  | streamResume (k : Coach) (n : Fin 8)
  /-- STREAM_GRANT (R265): Each coach cycle the stream engine grants its request slot to the eligible stream with least fill over rate. -/
  | streamGrant (k : Coach)
  /-- WALK_ENTRY_RETURN (R274): A table entry read by the walker returns and the walk continues, faults or enters a translation. -/
  | walkEntryReturn (e : Eng)
  /-- STREAM_DATA_RETURN (R255): Inbound read data of a stream request lands in the buffer. -/
  | streamDataReturn (k : Coach)
  /-- STREAM_WRITE_ACK (R260): An outbound stream write is acknowledged by memory. -/
  | streamWriteAck (k : Coach)
  /-- STREAM_REQUEST_FAULT (R268): A stream request meets a translation fault or error data and the stream halts. -/
  | streamRequestFault (k : Coach)
  /-- TC_AGE_TICK (R276): Every 16 µs an age tick adds 1 to every valid translation-cache entry. -/
  | tcAgeTick
  /-- TC_ENTRY_LAPSE (R276): An entry whose age reaches 15 lapses and becomes invalid. -/
  | tcEntryLapse (e : Eng) (n : Fin 1024)
  /-- INVAL_ALL (R279): STR_INVAL KIND 0 invalidates every entry of the stream engine's cache. -/
  | invalAll (k : Coach)
  /-- INVAL_CONTEXT (R279): STR_INVAL KIND 1 invalidates every entry of one context. -/
  | invalContext (k : Coach) (ctx : Ctx)
  /-- INVAL_PAGE (R279): STR_INVAL KIND 2 invalidates the entries of one context mapping one page. -/
  | invalPage (k : Coach) (ctx : Ctx)
  /-- INVAL_DONE (R279): An invalidation ends when entries, walks and requests are clear, and BUSY clears. -/
  | invalDone (k : Coach)
  /-- DMA_HEAD_WRITE (R283): Writing DMA_HEAD posts descriptors to a channel's ring. -/
  | dmaHeadWrite (c : Car) (ch : Fin 64) (v : BitVec 16)
  /-- DMA_RUN (R294): Writing DMA_CTL.RUN lets a channel fetch descriptors or stops new fetches. -/
  | dmaRun (c : Car) (ch : Fin 64) (run : Bool)
  /-- DMA_ABORT (R291): Writing DMA_CTL.ABORT ends the descriptor in progress after its current burst and stops the channel. -/
  | dmaAbort (c : Car) (ch : Fin 64)
  /-- DMA_STOPPED_CLEAR (R294): Clearing DMA_STATUS.STOPPED lets the channel resume fetching when RUN is 1. -/
  | dmaStoppedClear (c : Car) (ch : Fin 64)
  /-- DMA_DESC_FETCH (R285): A channel fetches and checks its next posted descriptor. `host` is what the host returns when the ring lies in host memory. -/
  | dmaDescFetch (c : Car) (ch : Fin 64)
  /-- DMA_BURST (R287): A channel, in its turn, starts the next burst of a descriptor. -/
  | dmaBurst (c : Car)
  /-- DMA_READ_RETURN (R288): Source data of a burst returns and is funnelled to destination writes. -/
  | dmaReadReturn (c : Car)
  /-- DMA_WRITE_ACK (R290): A destination write of a descriptor is acknowledged. -/
  | dmaWriteAck (c : Car)
  /-- DMA_DESC_END (R290): Once all writes are acknowledged the channel writes status, advances TAIL and may raise its vector. -/
  | dmaDescEnd (c : Car) (ch : Fin 64)
  /-- DMA_INVAL_ALL (R282): DMA_INVAL KIND 0 invalidates every entry of the DMA engine's cache. -/
  | dmaInvalAll (c : Car)
  /-- DMA_INVAL_CONTEXT (R282): DMA_INVAL KIND 1 invalidates the DMA cache entries of one context. -/
  | dmaInvalContext (c : Car) (ctx : Ctx)
  /-- DMA_INVAL_PAGE (R282): DMA_INVAL KIND 2 invalidates the DMA cache entries of one context and page. -/
  | dmaInvalPage (c : Car) (ctx : Ctx)
  /-- DMA_INVAL_DONE (R282): A DMA engine invalidation ends and BUSY clears. -/
  | dmaInvalDone (c : Car)
  /-- LOCKSTEP_ENABLE (R317): Writing DEV_LSCTL.ENABLE = 1 checks the conditions and arms lockstep or refuses. -/
  | lockstepEnable
  /-- LOCKSTEP_DISABLE (R318): Writing DEV_LSCTL.ENABLE = 0 ends, disarms or clears lockstep per its state. -/
  | lockstepDisable
  /-- SLOT_BOUNDARY (R310): At each slot boundary waiting outside events and firmware actions are admitted in fixed order. `n` events are admitted; `late` says that a firmware action is not ready. -/
  | slotBoundary (late : Bool)
  /-- LOCKSTEP_LINK_DELIVERY (R312): At its sent cycle plus DEV_LSLINKDLY a Cotric packet is delivered, or lockstep aborts with LATE. `late` says that a packet due now has not arrived. -/
  | lockstepLinkDelivery (l : Fin 26) (late : Bool)
  /-- REIN_ARM (R321): DEV_REINCTL CMD ARM moves the rein from IDLE or FIRED to ARMED and pulls REIN low. -/
  | reinArm
  /-- REIN_READY (R321): DEV_REINCTL CMD READY moves an armed rein to READY. -/
  | reinReady
  /-- REIN_DISARM (R321): DEV_REINCTL CMD DISARM returns the rein to IDLE and cancels pending rein work orders. -/
  | reinDisarm
  /-- REIN_LINE_HIGH (R320): A READY device samples REIN high on two consecutive cycles and schedules the rein cycle. `level` is the sampled level. -/
  | reinLineHigh (level : Bool)
  /-- REIN_CYCLE (R320): 64 cycles after the second high sample, DEV_LSCYC zeroes and rein work orders are released. -/
  | reinCycle
  /-- REIN_TIMEOUT (R319): DEV_REINTMO elapses without firing and the rein enters TIMEDOUT. -/
  | reinTimeout
  /-- REIN_RELEASE (R324): A master or relay reaches its release cycle and stops driving REIN low. -/
  | reinRelease
  /-- SYNC_BLOCK_SEND (R450): A lane sends a sync block with comma, training fields, marks and timestamps. `req` and `done` are what the lane's own receiver asks and has decided. -/
  | syncBlockSend (lane : Fin 96) (req : BitVec 10) (done : Bool)
  /-- SYNC_BLOCK_RECEIVE (R450): A lane receives a sync block and acts on its intact fields. `levels` are the PAM4 symbols that stand where the block is expected, 0 to 3 for −3 to +3; `skew` is the skew between the link's lanes, in symbols. -/
  | syncBlockReceive (lane : Fin 96) (levels : List (Fin 4)) (skew : Nat)
  /-- LANE_SYNC_LOSS (R451): Four missed sync blocks lose sync and take the link DOWN with LOSTSYNC. -/
  | laneSyncLoss (lane : Fin 96)
  /-- LINK_TRAIN (R457): Writing LNK_CTL.TRAIN with ENABLE set loads taps and starts training. -/
  | linkTrain (l : Fin 26)
  /-- LINK_DISABLE (R473): Writing LNK_CTL.ENABLE = 0 takes the link DOWN with DISABLED. -/
  | linkDisable (l : Fin 26)
  /-- TRAIN_TIMEOUT (R457): A link not UP 200 ms after TRAINING goes DOWN with TRAIN_TIMEOUT. -/
  | trainTimeout (l : Fin 26)
  /-- LINK_BLOCK_SEND (R460): A link sends a link block with the next SEQ, credits and acknowledgement. It is the turn of lane `lane` of the link. -/
  | linkBlockSend (lane : Fin 96)
  /-- LINK_BLOCK_RECEIVE (R461): A receiver accepts or discards a link block and may set NAK. `levels` are the PAM4 symbols of a data block as they arrive on a lane, 0 to 3 for −3 to +3. -/
  | linkBlockReceive (lane : Fin 96) (levels : List (Fin 4))
  /-- LINK_RETRY_TIMEOUT (R462): No acknowledgement within RETRYTMO causes a resend, or DOWN with RETRYFAIL after 8. -/
  | linkRetryTimeout (l : Fin 26)
  /-- LANE_TEST_WRITE (R472): Writing LNK_LANECTL.TEST enters or leaves the TEST state of a link. -/
  | laneTestWrite (lane : Fin 96) (test : Bool)
  /-- PACKET_SEND (R350): A unit sends a packet on a route-sheet entry. -/
  | packetSend (u : Fin 1024) (dest : SendTo) (p : PktIn)
  /-- FLIT_RECEIVE (R353): A router receives a flit, checks parity and forwards it along the route. Input ports 8 to 12 are the links 0 to 4 of a bridge bundle. `flips` are the wires of Table 8.4 that an error on the link inverts, `upset` the bits of the flit (data, then end-to-end code) that an error in the router inverts. -/
  | flitReceive (c : Car) (r : Fin 40) (p : Fin 13) (flips : List (Fin 1096)) (upset : List (Fin 1064))
  /-- CREDIT_RETURN (R340): A receiver frees a queue slot and returns a credit to the sender. -/
  | creditReturn (c : Car) (r : Fin 40) (p : Fin 13) (vn : Fin 6) (vc : Fin 3)
  /-- PACKET_DELIVER (R357): A destination NI accepts a head, checks ECC and epoch, and delivers the packet. `upset` are bits that errors invert at the unit port, by flit. -/
  | packetDeliver (c : Car) (r : Fin 40) (upset : List (Nat × Fin 1064))
  /-- STALE_REPLY_RECEIVE (R358): A source NI receives a STALE reply. -/
  | staleReplyReceive (u : Fin 1024)
  /-- ROUTE_ENTRY_WRITE (R349): The scheduler core or configuration controller writes a route-sheet entry, checked by the NI. -/
  | routeEntryWrite (u : Fin 1024) (e : Fin 256) (w0 : BitVec 32) (w1 : BitVec 32) (w2 : BitVec 32) (w3 : BitVec 32)
  /-- HBM_REQUEST_ACCEPT (R370): An edge port accepts a request into a pseudo-channel queue when there is room. -/
  | hbmRequestAccept (c : Car) (e : Fin 8)
  /-- MIRROR_COPY_ACCEPT (R645): The coupler NI accepts the copy of a write to a mirror range, letting the write enter its queue. -/
  | mirrorCopyAccept (c : Car) (e : Fin 8)
  /-- HBM_SCHEDULE (R373): Each controller cycle each pseudo-channel chooses its next access. -/
  | hbmSchedule (n : Fin 8)
  /-- HBM_READ_DATA (R392): A burst read returns, correcting or marking errors. `flips` are the stored bits that errors have inverted, by burst of the request: 0 to 255 data, 256 to 271 the ECC lanes. -/
  | hbmReadData (n : Fin 8) (flips : List (Nat × Fin 272))
  /-- ROW_IDLE_CLOSE (R377): A bank with no access for 64 controller cycles closes its row. -/
  | rowIdleClose (n : Fin 8) (p : Fin 64) (b : Fin 64)
  /-- REFRESH_DUE (R378): A bank's per-bank refresh interval expires. -/
  | refreshDue (n : Fin 8) (p : Fin 64) (b : Fin 64)
  /-- REFRESH_SLOT (R379): In fixed-slot mode a slot cycle issues an all-bank refresh. -/
  | refreshSlot (n : Fin 8)
  /-- STACK_TEMP_CHANGE (R378): The stack reports entering or leaving its high temperature range. -/
  | stackTempChange (n : Fin 8) (hot : Bool)
  /-- ADJMAP_HI_WRITE (R382): Writing HBM_ADJMAP_HI checks the permutation and sets ADJOK. -/
  | adjmapHiWrite (n : Fin 8) (v : BitVec 32)
  /-- HBM_MODE_WRITE (R387): Firmware writes HBM_CTL.MODE, changing controller mode and active set. -/
  | hbmModeWrite (n : Fin 8) (mode : Fin 4)
  /-- HBM_FREQ_CHANGE (R388): Writing HBM_CTL.FCREQ starts a data-rate change or sets FCERR. -/
  | hbmFreqChange (n : Fin 8)
  /-- FC_QUEUES_EMPTY (R388): During a rate change the queues empty and the stack enters self-refresh. -/
  | fcQueuesEmpty (n : Fin 8)
  /-- HBM_FREQ_CHANGE_DONE (R388): The PLL relocks, self-refresh exits and FCDONE is set. -/
  | hbmFreqChangeDone (n : Fin 8)
  /-- TRAIN_WRITE_PATTERN (R387): HBM_TRCMD OP 1 writes a PRBS7 pattern to a pseudo-channel. -/
  | trainWritePattern (n : Fin 8) (p : Fin 64)
  /-- TRAIN_READ_COMPARE (R387): HBM_TRCMD OP 2 reads the pattern back and compares lanes. `flips` are the bits of the burst inverted on the way. -/
  | trainReadCompare (n : Fin 8) (p : Fin 64) (flips : List (Fin 272))
  /-- TRAIN_MRW (R387): HBM_TRCMD OP 3 issues a mode-register write. -/
  | trainMrw (n : Fin 8) (p : Fin 64)
  /-- TRAIN_CMD_DONE (R387): A training command completes and HBM_TRRES.DONE is set. -/
  | trainCmdDone (n : Fin 8)
  /-- TENDER_REQUEST (R405): The bay maps a network request to protocol packets for the module. -/
  | tenderRequest (b : Fin 4)
  /-- TENDER_DATA (R401): The bay receives a DATA answer to READ, IDENT or SUMMARY. `flips` are the bits of the packet inverted on the lanes. -/
  | tenderData (b : Fin 4) (flips : List Nat)
  /-- TENDER_ACK (R403): The bay receives an ACK answer to WRITE, SEAL or MAINT. `flips` are the bits of the packet inverted on the lanes. -/
  | tenderAck (b : Fin 4) (flips : List Nat)
  /-- TENDER_NOTICE (R411): The bay receives an unsolicited wear summary and updates wear registers. `flips` are the bits of the packet inverted on the lanes. -/
  | tenderNotice (b : Fin 4) (flips : List Nat)
  /-- TENDER_RESEND_TIMEOUT (R402): An unanswered request is resent after 1 ms, and after three resends the bay enters FAILED. -/
  | tenderResendTimeout (b : Fin 4) (tag : Fin 1024)
  /-- PRESENCE_SETTLED (R418): TND_PRSNT_N holds a new level for 10 ms and the bay reacts to insertion or removal. `m` is the module seated, none where the last one returns unchanged. -/
  | presenceSettled (b : Fin 4) (present : Bool) (m : Option ModIn)
  /-- TENDER_LOCK_LOST (R418): All inbound lanes lose lock while presence holds and a 20 ms wait starts. -/
  | tenderLockLost (b : Fin 4)
  /-- LOCK_LOSS_TIMEOUT (R418): No removal within 20 ms of lock loss puts the bay in FAILED. -/
  | lockLossTimeout (b : Fin 4)
  /-- TENDER_ATTACH (R409): Writing TND_CTL.ATTACH in NEW writes the seal and attaches the module. -/
  | tenderAttach (b : Fin 4)
  /-- TENDER_DETACH (R424): Writing TND_CTL.DETACH stops acceptance of accesses and drains them. -/
  | tenderDetach (b : Fin 4)
  /-- HOLD_RETRY_EXPIRY (R421): The retry timer expires in HOLD, failing held accesses with ABSENT. -/
  | holdRetryExpiry (b : Fin 4)
  /-- RECHECK_TIMEOUT (R422): RECHECK undecided within 1 s fails held accesses with LINK and enters FAILED. -/
  | recheckTimeout (b : Fin 4)
  /-- TENDER_MAINT_START (R415): TND_MAINT.START sends a MAINT packet for scrub or wear-levelling, or refuses. -/
  | tenderMaintStart (b : Fin 4)
  /-- TENDER_MAINT_STOP (R417): TND_MAINT.STOP sends a stop MAINT packet. -/
  | tenderMaintStop (b : Fin 4)
  /-- TENDER_MAINT_LIMIT (R417): An activity exceeding LIMIT seconds is stopped. -/
  | tenderMaintLimit (b : Fin 4)
  /-- MODULE_WRITE (R404): The module receives a WRITE and acknowledges it once durable. `media` says that the write meets an uncorrectable media error, `worn` how much spare pool goes with it, `torn` that power is lost before the ACK. `flips` are, here and for the module's other packets, the bits inverted on the lanes. -/
  | moduleWrite (b : Fin 4) (flips : List Nat) (media : Bool) (worn : Nat) (torn : Bool)
  /-- MODULE_READ (R403): The module receives a READ and answers with DATA. `media` says that the read meets an uncorrectable media error. -/
  | moduleRead (b : Fin 4) (flips : List Nat) (media : Bool)
  /-- MODULE_MAINT (R416): The module runs or stops a scrub or wear-levelling on a MAINT packet. With no MAINT packet at the module, a running activity goes on, and ends with `ended`: `media` says that a scrub found a block it could not correct, `moved` is the bytes that it wrote since the command before, `worn` the spare pool that it used, `torn` that power is lost while its tables are updated. -/
  | moduleMaint (b : Fin 4) (flips : List Nat) (media : Bool) (moved : Nat) (worn : Nat) (ended : Bool) (torn : Bool)
  /-- FABRIC_PORT_FLIT (R491): A fabric network port takes a flit from the fabric and fills its header. -/
  | fabricPortFlit (c : Car) (n : Fin 16) (f : FabFlit)
  /-- FABRIC_SCRUB_START (R495): FAB_SCRUB.START begins a configuration readback scrub. -/
  | fabricScrubStart (c : Car)
  /-- FABRIC_SCRUB_DONE (R494): A scrub finishes reading every frame of the carriage. `fixed` single-bit errors were corrected; `bad` are the frames with an uncorrectable error. -/
  | fabricScrubDone (c : Car) (fixed : Nat) (bad : List (Fin 40960))
  /-- FABRIC_CLOCK_RESTART (R486): A fabric clock stopped for a DIV change restarts at its new period. -/
  | fabricClockRestart (c : Car) (n : Fin 8)
  /-- IO_DELAY_TARGET (R498): Writing IOB_DLYn.TARGET sets the tap the delay line moves toward. -/
  | ioDelayTarget (c : Car) (n : Fin 24) (v : Fin 512)
  /-- IO_DELAY_STEP (R498): Each fabric cycle the delay line moves one tap toward its target. -/
  | ioDelayStep (c : Car) (n : Fin 24)
  /-- RELEASE_START (R502): The fabric release begins once every enabled fabric clock runs. -/
  | releaseStart (c : Car)
  /-- RELEASE_STAGE_ADVANCE (R502): After 16 slowest-clock cycles the release advances to its next stage. -/
  | releaseStageAdvance (c : Car)
  /-- LOAD_START (R523): CFG_CTL.START begins a load, clearing configuration under R524. -/
  | loadStart
  /-- LOAD_ABORT (R531): CFG_CTL.ABORT fails the load with ABORTED. -/
  | loadAbort
  /-- FLASH_MASTER_START (R522): 20 ms after POR_N a strap-master device lowers CFG_CS_N and begins the flash read. -/
  | flashMasterStart
  /-- CFG_CS_FALL (R522): CFG_CS_N falls and the device leaves WAIT for LOAD. -/
  | cfgCsFall
  /-- CFG_CS_RISE_EARLY (R531): CFG_CS_N rises before LENGTH bytes at a follower, failing with TRUNCATED. -/
  | cfgCsRiseEarly
  /-- FOLLOWER_TIMEOUT (R522): A follower sees no CFG_CS_N fall within CFG_TMO and fails with TRUNCATED. -/
  | followerTimeout
  /-- LOAD_HEADER (R525): The image header is received and checked. -/
  | loadHeader (hdr : LoadIn)
  /-- LOAD_SECTION (R526): A section is decrypted and applied if taken. `raw` is the whole section as it stands in the stream. -/
  | loadSection (raw : LoadIn)
  /-- LOAD_TRAILER (R527): The trailer and tag are checked, ILV and CPL applied and the release started. -/
  | loadTrailer (raw : LoadIn) (tag : LoadIn)
  /-- LOAD_STALL_TIMEOUT (R531): No byte for CFG_TMO fails the load with TRUNCATED. -/
  | loadStallTimeout
  /-- LOAD_SOURCE_ERROR (R531): An error answer from the source fails the load with SRCERR or TRUNCATED. `range` says that a tender answered RANGE. -/
  | loadSourceError (range : Bool)
  /-- KEY_RAM_LOCK (R515): KEY_CTL.RAMLOCK refuses key RAM writes until cold reset. -/
  | keyRamLock
  /-- KEY_RAM_COMMIT (R515): KEY_CTL.RAMCOMMIT copies KEY_RAMDATA into the key RAM and sets RAMVALID. -/
  | keyRamCommit
  /-- KEY_RAM_CLEAR (R515): KEY_CTL.RAMCLEAR clears the key RAM and RAMVALID. -/
  | keyRamClear
  /-- VBAT_LOW (R687): VBAT falls below its range and the key RAM is cleared. -/
  | vbatLow
  /-- HART_ACCESS_FAULT (R538): A hart access outside its windows faults and is recorded in HCL_ACCERR. -/
  | hartAccessFault (c : Car) (i : Fin 4) (addr : BitVec 64) (write : Bool)
  /-- ADMIN_TAIL_WRITE (R569): Writing QUE_ADMTAIL posts admin commands to the scheduler core. -/
  | adminTailWrite (p : Fin 4) (v : BitVec 12)
  /-- CTX_CREATE (R551): The admin command reads and checks a context descriptor and makes the context LIVE. `cmd` is the command as the host returns it, `desc` the descriptor (none where its read fails), `qtab` the queue table when it lies in host memory. -/
  | ctxCreate (p : Fin 4) (cmd : List Byte) (desc : Option (List Byte)) (qtab : List Byte)
  /-- CTX_DESTROY (R610): The admin command brakes, unbinds and frees a context. `cmd` is the command as the host returns it. -/
  | ctxDestroy (p : Fin 4) (cmd : List Byte)
  /-- CTX_BIND (R570): The admin command binds units to a context with fresh role epochs. `cmd` is the command as the host returns it. -/
  | ctxBind (p : Fin 4) (cmd : List Byte)
  /-- CTX_UNBIND (R570): The admin command resets and unbinds units with fresh epochs. `cmd` is the command as the host returns it. -/
  | ctxUnbind (p : Fin 4) (cmd : List Byte)
  /-- CTX_MOVE (R571): The admin command checks the destination and stops stream issue on the source coach. `cmd` is the command as the host returns it. -/
  | ctxMove (p : Fin 4) (cmd : List Byte)
  /-- CTX_MOVE_COPY (R571): With no source stream request outstanding, coach state is copied to the destination and the source unbound. -/
  | ctxMoveCopy
  /-- ROUTE_WRITE (R572): The admin command writes a route-sheet entry after the partition check. `cmd` is the command as the host returns it. -/
  | routeWrite (p : Fin 4) (cmd : List Byte)
  /-- VF_MAP (R546): The admin command maps or unmaps a context to a VF doorbell slot. `cmd` is the command as the host returns it. -/
  | vfMap (p : Fin 4) (cmd : List Byte)
  /-- HCL_START (R539): The admin command sets the reset vector and windows and releases harts. `cmd` is the command as the host returns it. -/
  | hclStart (p : Fin 4) (cmd : List Byte)
  /-- BRAKE (R607): A brake of a context resets its bound units and completes its work orders with BRAKED. `cmd` is the command as the host returns it. -/
  | brake (p : Fin 4) (cmd : List Byte)
  /-- BRAKE_DONE (R607): The brake ends, the context returns LIVE and an event record KIND 7 is written. `host` is what the host returns for the head of the event ring. -/
  | brakeDone (n : Ctx) (host : List Byte)
  /-- BRAKE_UNIT_TIMEOUT (R609): A unit not reset within 10 µs escalates the brake to coach or carriage recovery. -/
  | brakeUnitTimeout (n : Ctx) (u : BrakeUnit)
  /-- SQTAIL (R557): A doorbell write sets a submission ring's tail. -/
  | sqtail (d : Door) (r : Fin 64) (v : BitVec 12)
  /-- CQHEAD (R565): A doorbell write sets a completion ring's head, freeing entries. -/
  | cqhead (d : Door) (r : Fin 64) (v : BitVec 12)
  /-- QSYNC (R555): A doorbell write rereads a queue-table entry, enabling or disabling the queue. `host` is what the host returns for the queue-table entry when the table lies in host memory. -/
  | qsync (d : Door) (r : Fin 64) (host : List Byte)
  /-- QSYNC_DISABLE_EFFECT (R555): Once work in progress completes, a disabled queue's indices and phase reset. -/
  | qsyncDisableEffect (n : Ctx) (r : Fin 64)
  /-- RESUME (R556): A doorbell write resumes a faulted stream of a bound coach. -/
  | resume (d : Door) (v : BitVec 32)
  /-- CQREL (R565): A doorbell write releases the oldest held completion of a ring. -/
  | cqrel (d : Door) (r : Fin 64)
  /-- DMAHEAD (R556): A doorbell write sets DMA_HEAD of a bound channel. -/
  | dmahead (d : Door) (k : Fin 256) (v : BitVec 16)
  /-- WORK_ORDER_START (R560): A queue head whose conditions hold is checked and started on its coaches. `host` gives, by ring, what the host returns for the work orders at the heads of rings in host memory. -/
  | workOrderStart (n : Ctx) (host : List (Nat × List Byte))
  /-- WORK_ORDER_COMPLETE (R561): A work order completes when END has completed on every named coach. -/
  | workOrderComplete (n : Ctx)
  /-- COMPLETION_WRITE (R565): A completion entry is written once the ring has room, release and partner acknowledgement. `host` is what the host returns for the work order when it is read only now. -/
  | completionWrite (n : Ctx) (r : Fin 64) (host : List Byte)
  /-- PERST_ASSERT (R549): PERST_N of a port resets the port and brakes contexts owned by its functions. -/
  | perstAssert (p : Fin 4)
  /-- PERST_RELEASE (R694): PERST_N rises and the port begins answering configuration requests. `vfs` is how many VFs the host then enables, `ats` the functions on which it enables ATS (0 the PF, 1 + v a VF). -/
  | perstRelease (p : Fin 4) (vfs : Fin 257) (ats : List (Fin 257))
  /-- FLR (R549): A function level reset brakes the contexts the function owns. `v` is the VF, none for the PF. -/
  | flr (p : Fin 4) (v : Option (Fin 256))
  /-- ATS_RESPONSE (R547): The host answers an ATS translation request for a device access. `t` is the translated page, none where the host refuses. -/
  | atsResponse (p : Fin 4) (t : Option (BitVec 52))
  /-- HOST_COMPLETION (R547): The host completes a device request to a host page, successfully or with error. It completes the `i`-th read that waits at the port; `good` says that it is successful and not poisoned. -/
  | hostCompletion (p : Fin 4) (i : Nat) (good : Bool) (data : List Byte)
  /-- POWER_CMD_S0 (R584): PWR_CMD STATE S0 wakes named carriages or the device. -/
  | powerCmdS0 (mask : BitVec 4)
  /-- POWER_CMD_S1 (R580): PWR_CMD STATE S1 starts the first phase of entry for named carriages. -/
  | powerCmdS1 (mask : BitVec 4)
  /-- POWER_CMD_S2 (R580): PWR_CMD STATE S2 starts the first phase of entry for named carriages. -/
  | powerCmdS2 (mask : BitVec 4)
  /-- POWER_CMD_S3 (R580): PWR_CMD STATE S3 starts the first phase of entry for the device. -/
  | powerCmdS3
  /-- POWER_BLOCK_ANSWER (R580): A block asked in the first phase agrees and stops, or refuses. `wfi` says which harts of the carriage asked wait for an interrupt. -/
  | powerBlockAnswer (wfi : BitVec 4)
  /-- POWER_BLOCK_TIMEOUT (R580): A block not answering within 1 ms refuses with TIMEOUT. -/
  | powerBlockTimeout
  /-- WAKE_N_ASSERT (R584): WAKE_N low for 1 ms wakes every carriage not in S0. -/
  | wakeNAssert
  /-- WAKE_COMPLETE (R585): A wake from S2 finishes its steps and carriages show RUN. `down` are the links that are not UP in time. -/
  | wakeComplete (down : List (Fin 26))
  /-- PROFILE_WRITE (R593): Writing PWR_PROFILE.SEL starts or queues a profile change. -/
  | profileWrite (sel : Fin 4)
  /-- PROFILE_CHANGE_DONE (R593): The coach PLLs relock at the new profile and PROFBUSY clears. -/
  | profileChangeDone
  /-- PAD_RELEASE (R587): PWR_PADREL releases latched user pads of a running carriage. -/
  | padRelease (mask : BitVec 4)
  /-- MAINT_REQUEST (R633): Firmware or REC_MNTREQ requests a maintenance activity, granted, queued or refused. -/
  | maintRequest (kind : Fin 8) (unit : Nat) (host : Bool)
  /-- RESYNC (R662): CPL_CTL.RESYNC starts resynchronisation from ALONE. -/
  | resync
  /-- CTX_ROLE_WRITE (R638): Writing CPL_CTXROLE sets a context's pair role when allowed. The context is the one that CPL_CTXSEL selects. -/
  | ctxRoleWrite (role : Fin 4)
  /-- DEBUG_REQUEST (R674): DEV_DBG.REQ 1 or 2 asks to open a debug level and a nonce is issued. `level` false asks for level 1, true for level 2. -/
  | debugRequest (level : Bool)
  /-- DEBUG_CLOSE (R676): DEV_DBG.REQ 3 returns LEVEL to 0 and disables perturbation. -/
  | debugClose
  /-- DEBUG_RESPONSE_SUBMIT (R674): Writing DEV_DBGRESP7 submits the response, which opens the level or counts a failure. -/
  | debugResponseSubmit (v : BitVec 32)
  /-- PERT_WRITE (R678): A write to a perturbation register takes effect only at debug level 1 or more. `which` is 0 DEV_PERTSTR, 1 DEV_PERTNOC, 2 DEV_PERTMEM. -/
  | pertWrite (which : Fin 3) (v : BitVec 32)
  /-- FUSE_PROGRAM (R683): DEV_FUSE.PROG programs an unprogrammed eFuse target or sets ERR. -/
  | fuseProgram
  /-- FUSE_LOCK (R684): DEV_FUSE.LOCK permanently forbids further eFuse programming. -/
  | fuseLock
  /-- ATS_INVALIDATION (R544): The host sends an ATS invalidation request, and the port invalidates its ATS cache entries within 100 µs. -/
  | atsInvalidation (p : Fin 4) (fn : Fin 257) (page : BitVec 52) (pages : Nat)
  /-- FAULT_REPORT (R597): A unit reports a fault to the scheduler core, which records, logs and acts on it. -/
  | faultReport (src : FaultSrc)
  /-- COACH_RECOVERY_DONE (R611): Coach recovery finishes within its bound. -/
  | coachRecoveryDone (k : Coach)
  /-- COACH_RECOVERY_TIMEOUT (R611): Coach recovery beyond 50 µs escalates to carriage recovery with COACHSLOW. -/
  | coachRecoveryTimeout (k : Coach)
  /-- CARRIAGE_RECOVERY_DONE (R611): Carriage recovery finishes and the fabric is released again. -/
  | carriageRecoveryDone (c : Car)
  /-- CARRIAGE_RECOVERY_TIMEOUT (R611): Carriage recovery beyond 2 ms escalates to chip reset with CARRSLOW. -/
  | carriageRecoveryTimeout (c : Car)
  /-- CTX_RESUME (R601): REC_CTXCMD RESUME returns a trap-stopped context to LIVE or sets CMDERR. -/
  | ctxResume (n : Ctx)
  /-- REC_BRAKE (R602): REC_CTXCMD BRAKE brakes a context as the admin BRAKE does. -/
  | recBrake (n : Ctx)
  /-- HANG_EXPIRY (R603): A hang condition seen for its limit brakes the context with HANG or PEERTMO. -/
  | hangExpiry
  /-- CHIPRST_REQUEST (R610): Writing REC_CTL.CHIPRST requests a chip reset with HOSTREQ. -/
  | chiprstRequest
  /-- CHIP_RESET (R614): The PM core carries out a chip reset of the compute part. `host` gives, by queue and slot, what the host returns for work orders that complete without having been read. -/
  | chipReset (host : List (Nat × List Byte))
  /-- CHIP_RESET_DONE (R614): The carriages reach RUN, HEARTBEAT toggles and REC_STATUS.EVENT is set. -/
  | chipResetDone
  /-- CHIP_RESET_TIMEOUT (R619): A chip reset beyond 20 ms requests a power cycle with CHIPSLOW. -/
  | chipResetTimeout
  /-- SCHED_HEARTBEAT (R616): The scheduler core sends its heartbeat to the PM core. -/
  | schedHeartbeat
  /-- SCHED_HEARTBEAT_LOSS (R616): No heartbeat within REC_SCHEDTMO begins a chip reset with SCHED. -/
  | schedHeartbeatLoss
  /-- PM_WATCHDOG_EXPIRY (R617): An unserved PM watchdog marks PMFAIL and holds HEARTBEAT static. -/
  | pmWatchdogExpiry
  /-- HEARTBEAT_TOGGLE (R618): Every 1 µs HEARTBEAT changes level while the watchdog is served and no chip reset runs. -/
  | heartbeatToggle
  /-- PFW_ASSERT (R622): PFW_N low on two samples begins a power-fail warning. -/
  | pfwAssert
  /-- PFW_END (R625): PFW_N high for 1 ms ends the warning and work resumes. -/
  | pfwEnd
  /-- THROTTLE_STEP (R594): Every 100 µs soft throttling steps the coach clock down or up by 50 MHz. `watts` and `tmax` are what the device has measured. -/
  | throttleStep (watts : BitVec 16) (tmax : BitVec 8)
  /-- HARD_THROTTLE (R595): A junction at 105 °C sets the coach clock to 0.80 GHz at once. -/
  | hardThrottle (sensor : Nat) (temp : BitVec 8)
  /-- THERMTRIP (R596): A junction at 115 °C stops fast clocks and drives THERMTRIP_N low. -/
  | thermtrip (sensor : Nat) (temp : BitVec 8)
  /-- PMB_ALERT (R691): PMB_ALERT_N falls and faulted regulators turn rails off and request a power cycle. `faulty` are the addresses of the regulators whose STATUS_WORD reports an output fault. -/
  | pmbAlert (faulty : List (BitVec 8))
  /-- PLL_LOCK (R574): A fast PLL locks and its blocks may run. -/
  | pllLock (p : Pll)
  /-- AVS_ACK (R588): An AVSBus acknowledgement of a voltage change arrives and the clock may rise. -/
  | avsAck (c : Car)
  /-- AVS_TIMEOUT (R590): No AVSBus acknowledgement within 2 ms leads to a retry or failure with AVS. -/
  | avsTimeout (c : Car)
  /-- COACH_GATE (R575): A coach idle for PWR_GATE.IDLE cycles gates its clock. -/
  | coachGate (k : Coach)
  /-- COACH_UNGATE (R575): A gated coach restarts on a work order, admin command or packet. -/
  | coachUngate (k : Coach)
  /-- HANG_SAMPLE (R603): Every 10 µs the scheduler core samples coaches, streams and contexts for hang conditions. -/
  | hangSample
  /-- COACH_SELF_TEST_DONE (R671): A coach self-test ends, recording DEV_STRES and updating DEV_STFAIL. `part` are the failing parts (DEV_STRES.PART), zero for a pass. -/
  | coachSelfTestDone (k : Coach) (part : BitVec 6)
  /-- MAINT_END (R633): A maintenance activity ends and queued requests may be granted. -/
  | maintEnd (kind : Fin 8) (unit : Nat)
  /-- MAINT_DEFER_EXPIRY (R635): A request waiting REC_MNTDEFER in lockstep aborts lockstep with MAINT. -/
  | maintDeferExpiry
  /-- HEARTBEAT_RECORD_SEND (R649): Every 2 µs a HEARTBEAT record is sent on every UP coupler link. -/
  | heartbeatRecordSend
  /-- MIRROR_HEARTBEAT (R651): A HEARTBEAT record arrives, keeping the partner current. It is the first such record that coupler link 24 + `k` has received. -/
  | mirrorHeartbeat (k : Fin 2)
  /-- MIRROR_ACK (R646): An ACK record reports the partner's last applied MSEQ per link. It is the first such record that coupler link 24 + `k` has received. -/
  | mirrorAck (k : Fin 2)
  /-- MIRROR_CONTEXT (R646): A CONTEXT record is applied to the shadow context. It is the first such record that coupler link 24 + `k` has received. -/
  | mirrorContext (k : Fin 2)
  /-- MIRROR_QUEUE (R646): A QUEUE record is applied to the shadow queue state. `host` is what the host returns for the queue-table entry when the record is of a QSYNC. -/
  | mirrorQueue (k : Fin 2) (host : List Byte)
  /-- MIRROR_JOURNAL (R644): A JOURNAL record is written into the partner journal region. It is the first such record that coupler link 24 + `k` has received. -/
  | mirrorJournal (k : Fin 2)
  /-- MIRROR_HBM (R646): An HBM record is written into local HBM. It is the first such record that coupler link 24 + `k` has received. -/
  | mirrorHbm (k : Fin 2)
  /-- SWEEPSTART (R662): A SWEEPSTART record discards shadow queue state and starts resynchronisation. It is the first such record that coupler link 24 + `k` has received. -/
  | sweepstart (k : Fin 2)
  /-- SWEEPEND (R662): A SWEEPEND record applied puts the target in SYNCED. It is the first such record that coupler link 24 + `k` has received. -/
  | sweepend (k : Fin 2)
  /-- PARTNER_LOST (R651): No HEARTBEAT record for 17 µs marks the partner lost. -/
  | partnerLost
  /-- PARTNER_ALIVE_LOST (R652): No PARTNER_ALIVE edge for 4 µs marks the partner not alive. -/
  | partnerAliveLost
  /-- WIT_TOKEN_HELD (R653): WIT_TOKEN sampled high twice becomes held. -/
  | witTokenHeld
  /-- BYPASS (R666): The TAP BYPASS instruction selects the bypass register. `shift` are the bits shifted in through TDI. -/
  | bypass (shift : List Bool)
  /-- IDCODE (R668): The TAP IDCODE instruction returns the identification code. -/
  | idcode
  /-- SAMPLE_PRELOAD (R666): The TAP SAMPLE/PRELOAD instruction samples or preloads boundary cells. `pins` are the levels that the boundary cells capture, `shift` the bits shifted in through TDI. -/
  | samplePreload (pins : List Bool) (shift : List Bool)
  /-- EXTEST (R669): The TAP EXTEST instruction drives pins from boundary cells when allowed. `pins` are the levels that the boundary cells capture, `shift` the bits shifted in through TDI. -/
  | extest (pins : List Bool) (shift : List Bool)
  /-- CLAMP (R669): The TAP CLAMP instruction holds pins with bypass selected when allowed. `pins` are the levels that the boundary cells capture, `shift` the bits shifted in through TDI. -/
  | clamp (pins : List Bool) (shift : List Bool)
  /-- HIGHZ (R669): The TAP HIGHZ instruction floats outputs when allowed. `pins` are the levels that the boundary cells capture, `shift` the bits shifted in through TDI. -/
  | highz (pins : List Bool) (shift : List Bool)
  /-- EXTEST_PULSE (R667): The IEEE 1149.6 EXTEST_PULSE instruction tests AC-coupled lanes when allowed. `pins` are the levels that the boundary cells capture, `shift` the bits shifted in through TDI. -/
  | extestPulse (pins : List Bool) (shift : List Bool)
  /-- EXTEST_TRAIN (R667): The IEEE 1149.6 EXTEST_TRAIN instruction tests AC-coupled lanes when allowed. `pins` are the levels that the boundary cells capture, `shift` the bits shifted in through TDI. -/
  | extestTrain (pins : List Bool) (shift : List Bool)
  /-- TAP_RESET (R666): TRST_N low resets the TAP controller. -/
  | tapReset
  /-- POR_ASSERT (R693): POR_N sampled low twice stops clocks, turns rails off and releases outputs. -/
  | porAssert
  /-- POR_RELEASE (R689): POR_N rises, straps are sampled and the cold power-up sequence runs. `mode` and `addr` are the straps CFG_MODE and CFG_ADDR, `vsense` the banks that sense 1.8 V. -/
  | porRelease (mode : BitVec 2) (addr : BitVec 6) (vsense : BitVec 4)
  /-- RAIL_GOOD (R690): A raised rail reads within tolerance and the next rail is commanded. `fails` and `l2` are the coaches and the L2s that fail the self-test that follows the last rail. -/
  | railGood (fails : List Coach) (l2 : List Car)
  /-- RAIL_TIMEOUT (R690): A rail not within tolerance after a retry turns rails off and requests a power cycle. -/
  | railTimeout (c : Car)
  /-- FABRIC_CLOCK_EDGE (R479): An active edge of a fabric clock clocks the flip-flops, shift registers, distributed RAM, cart RAM and user I/O registers of the fabric. `pins` are the levels at the user I/O lands; `ready` says which network ports' flits the fabric takes. -/
  | fabricClockEdge (c : Car) (n : Fin 8) (rising : Bool) (pins : BitVec 24) (ready : BitVec 16)
  /-- POWER_REMOVAL (R631): The always-on supply falls, stopping the always-on clock and losing the event log, LOG_LASTGASP and LOGFAIL_N. -/
  | powerRemoval
  /-- PARTNER_ALIVE_EDGE (R652): An edge on PARTNER_ALIVE makes the partner alive again and sets CPL_STATE.PALIVE. -/
  | partnerAliveEdge
  /-- WIT_TOKEN_LOW (R653): WIT_TOKEN is sampled low and is no longer held, clearing CPL_STATE.WIT. -/
  | witTokenLow
  /-- MODULE_SEAL (R410): The module receives a SEAL packet, updates its seal record under the two-copy rule and acknowledges it. `torn` says that power is lost while the copy is written. -/
  | moduleSeal (b : Fin 4) (flips : List Nat) (torn : Bool)
deriving DecidableEq, Repr

end Sys2Proof
end

