-- ==== Sys2Proof/Config.lean ====
section
/-! DEFINITION. What one device fixes and what the spec leaves open. Every constant here is opaque: it has no
body, so no proof can see a value of it, and a theorem holds whatever it is. The types come first in which a loaded fabric
configuration is written down (chapter 12). -/

namespace Sys2Proof

/-- What a crossbar output, a wire or a control of a cart is connected to (R480, R484): an incoming wire from side `dir` (0 +x, 1 -x,
2 +y, 3 -y), an output of one of the cart's cells (0 O6, 1 O5, 2 FFA, 3 FFB), an output bit of the attached cart RAM block (port A then
port B), a bit of the attached network port, an input of user I/O `n` (the rising or the falling capture), or a constant. -/
inductive Net where
  | wire (dir i : Nat)
  | cell (k o : Nat)
  | ram (bit : Nat)
  | port (bit : Nat)
  | io (n : Nat) (falling : Bool)
  | const (b : Bool)
deriving DecidableEq, Repr, Inhabited

/-- How an outgoing wire is driven (R484): by the crossbar, or by the pass-through switch from the wire of the same number on side `dir`. -/
inductive Drive where
  | xbar (n : Net)
  | pass (dir : Nat)
deriving DecidableEq, Repr, Inhabited

/-- One flip-flop's settings (R476, R477): data source (0 O6, 1 O5, 2 sum, 3 a crossbar input), initial value, whether it uses the
cart's reset and whether asynchronously, and the GSR option. -/
structure FfCfg where
  src : Nat := 0
  direct : Net := .const false
  init : Bool := false
  useRst : Bool := false
  async : Bool := false
  gsr : Bool := false
deriving DecidableEq, Repr, Inhabited

/-- A logic cell's settings (R476 to R479): LUT bits T[63:0], the dual option, use (0 LUT, 1 shift register, 2 distributed RAM), its six
inputs, its clock enable, the data and write enable of a memory use, its two flip-flops. -/
structure CellCfg where
  t : Nat := 0
  dual : Bool := false
  use : Nat := 0
  a : List Net := []
  ce : Net := .const true
  di : Net := .const false
  we : Net := .const false
  ffA : FfCfg := {}
  ffB : FfCfg := {}
deriving DecidableEq, Repr, Inhabited

/-- A cart's settings (R477, R480, R484): its clock and reset, its cells, and its outgoing wires at key dir * 96 + i. -/
structure CartCfg where
  clk : Nat := 0
  rst : Net := .const false
  cells : List (Nat × CellCfg) := []
  wires : List (Nat × Drive) := []
deriving DecidableEq, Repr, Inhabited

/-- One port of a cart RAM block (R488): clock, shape (0 to 4 in the order of R488), address, data, write enable, byte enables. -/
structure RamPort where
  clk : Nat := 0
  shape : Nat := 4
  addr : List Net := []
  data : List Net := []
  we : Net := .const false
  be : List Net := []
deriving DecidableEq, Repr, Inhabited

/-- The nets that a user I/O's output registers take (R497): the value sent at the rising and at the falling edge, the output enable for each
half, the cart in whose crossbar they stand, and the initial values of the registers. -/
structure IoNets where
  cart : Nat := 0
  rise : Net := .const false
  fall : Net := .const false
  oe : Net := .const false
  oeFall : Net := .const false
  initOut : Bool := false
  initOe : Bool := false
deriving DecidableEq, Repr, Inhabited

/-- A carriage's fabric configuration: carts by position y * 256 + x, RAM ports by block * 2 + port, user I/O by number. -/
structure FabCfg where
  carts : List (Nat × CartCfg) := []
  rams : List (Nat × RamPort) := []
  ios : List (Nat × IoNets) := []
deriving DecidableEq, Repr, Inhabited

namespace Config
/-- Free values, drawn one after another with the counter `State.freeIx`: a value the spec leaves open. -/
opaque free : Nat → Nat

/-- The bits that special function `fn` gives for an F32 operand code (R141, R147): stepping-specific. The
function is 0 VRCP, 1 VRSQRT, 2 VEXP2, 3 VLOG2, 4 VTANH, 5 VSIN, 6 VCOS. -/
opaque special : Nat → Nat → Nat

/-- The device's 64-bit serial number, from eFuses (DEV_SERIAL). -/
opaque serial : Nat

/-- Jenvia's manufacturer code, from eFuses (R668). -/
opaque maker : Nat

/-- The 32-bit FW_VER word of image `n` as loaded (R542). -/
opaque fwVer : Nat → Nat

/-- Word `w` of the SHA-384 digest of image `n` as measured (R542). -/
opaque fwDigest : Nat → Nat → Nat

/-- Byte `i` of the AES-256-GCM keystream of a key and an IV, and the 128-bit tag of a header and a ciphertext (R512): a cipher that the
spec names and does not write out. -/
opaque gcmStream : Nat → Nat → Nat → Nat
opaque gcmTag : Nat → Nat → List Nat → List Nat → Nat

/-- Bits [383:128] of the HMAC-SHA-384 under a debug key over a nonce, DEV_SERIAL and a level (R674): a function that the spec names and does not
write out. -/
opaque debugResponse : Nat → Nat → Nat → Nat

/-- The ten bits of the SECDED code over one quarter of a flit (R354): the spec gives the code's size and not its matrix. -/
opaque quarterCode : Nat → Nat

/-- Bits [9:0] of what the ECC lanes store with a burst, the SECDED code over its 256 data bits (R391): the spec gives the code's size and not its matrix. -/
opaque burstCode : Nat → Nat

/-- One less than the responses for which an HBM edge port holds space (R343, R370): the spec gives no number. -/
opaque moreReadSpace : Nat

/-- The byte lane of its channel, 0 to 8, on which pseudo-channel `p` carries bit `i` of a burst and its check bits (R387). -/
opaque trainLane : Nat → Nat → Nat

/-- The mode-register write that sets a stack to a data rate, a read and a write latency (Table 9.3, step 5). -/
opaque modeWord : Nat → Nat → Nat → Nat

/-- What a crossbar input that a fabric network port drives carries (R480, R490), by the cart's place among the eight of the port and the number of the input:
0 to 1,023 a data bit of the flit that the port presents, 1,024 that it presents one, more a line that the spec does not spell. -/
opaque portLine : Nat → Nat → Nat

/-- Which codeword of every 2^EVERY of a lane LNK_INJ corrupts (R474). -/
opaque injectPhase : Nat → Nat

/-- State in which the pattern generator of a lane starts (R471): IEEE 802.3 has it start anywhere but at zero. -/
opaque prbsStart : Nat → Nat

/-- Byte of the PRBS7 training pattern of a channel (R387): the spec names the pattern and not its polynomial or bit order. -/
opaque trainByte : Nat → Nat → Nat

/-- The refresh intervals by which HBM4 allows a per-bank refresh to be postponed (R378). -/
opaque refreshPostpone : Nat

/-- The settings that a carriage's cart frames spell: the spec gives a frame's size and not its layout. -/
opaque fabric : List (Nat × List Nat) → FabCfg

/-- The value of a fabric net whose value the spec does not give: one that depends on itself with no flip-flop between, a carry into the
first cell of a chain, a wire from a side that has none, a carry where the carry logic is not in use, a block or port that a cart does not have, a port's data while it
presents no flit. -/
opaque openNet : Nat → Bool

end Config

end Sys2Proof
end

