-- ==== Sys2Proof/Machine/Maps.lean ====
section
/-! DEFINITION. Sparse maps and small bit helpers: the one read and the one write of every sparse map
of the state, and bit-field extraction over Nat. -/

namespace Sys2Proof.Machine

/-- The value at key `k`, `d` where `k` is not listed. -/
def mget {α : Type} (d : α) : SMap α → Nat → α
  | [], _ => d
  | (j, v) :: m, k => if j = k then v else mget d m k

/-- Put an entry before the first one with a larger key. -/
def mins {α : Type} : SMap α → Nat → α → SMap α
  | [], k, v => [(k, v)]
  | (j, w) :: m, k, v => if k < j then (k, v) :: (j, w) :: m else (j, w) :: mins m k v

/-- Put `v` at key `k`. The canonical form is kept: a value equal to `d`, what an unlisted key reads
as, removes the entry. -/
def mset {α : Type} [DecidableEq α] (d : α) (m : SMap α) (k : Nat) (v : α) : SMap α :=
  let r := m.filter (fun e => decide (e.1 ≠ k))
  if v = d then r else mins r k v

/-- Read, change and write one entry. -/
def mupd {α : Type} [DecidableEq α] (d : α) (m : SMap α) (k : Nat) (f : α → α) : SMap α :=
  mset d m k (f (mget d m k))

/-- Keys all above `b`, strictly rising, and no value equal to `d`. -/
def mwfFrom {α : Type} [DecidableEq α] (d : α) : Option Nat → SMap α → Bool
  | _, [] => true
  | b, (j, v) :: m =>
    (match b with | none => true | some x => decide (x < j)) && decide (v ≠ d) && mwfFrom d (some j) m

/-- The canonical form of a sparse map whose unlisted keys read as `d`. -/
def mwf {α : Type} [DecidableEq α] (d : α) (m : SMap α) : Bool := mwfFrom d none m

/-- Change every listed value; a value that becomes `d` is listed no more. -/
def mmap {α : Type} [DecidableEq α] (d : α) (f : α → α) (m : SMap α) : SMap α :=
  (m.map (fun e => (e.1, f e.2))).filter (fun e => decide (e.2 ≠ d))

/-- Drop every entry whose key meets `p` (they read as the default again). -/
def mdrop {α : Type} (p : Nat → Bool) (m : SMap α) : SMap α := m.filter (fun e => !p e.1)

/-- Write consecutive keys from `base` on: entries below stay, the block's entries that differ from `d` follow,
then entries above. -/
def mblock {α : Type} [DecidableEq α] (d : α) (m : SMap α) (base : Nat) (vs : List α) : SMap α :=
  m.filter (fun e => decide (e.1 < base)) ++
    ((vs.zipIdx base).filter (fun e => decide (e.1 ≠ d))).map (fun e => (e.2, e.1)) ++
    m.filter (fun e => decide (base + vs.length ≤ e.1))

/-- Values of `n` consecutive keys from `a`. -/
def mslice {α : Type} (d : α) (m : SMap α) (a n : Nat) : List α :=
  let r := m.filter (fun e => decide (a ≤ e.1) && decide (e.1 < a + n))
  (List.range n).map (fun i => mget d r (a + i))

/-- Bits [lo + w - 1 : lo] of `x`. -/
def bitsOf (x lo w : Nat) : Nat := (x >>> lo) % 2 ^ w

/-- `x` as a `w`-bit two's-complement number. -/
def toSigned (w x : Nat) : Int :=
  let y := x % 2 ^ w
  if 2 * y < 2 ^ w then (y : Int) else (y : Int) - ((2 ^ w : Nat) : Int)

/-- The low `w` bits of the two's-complement form of `x`. -/
def ofSigned (w : Nat) (x : Int) : Nat := (x % ((2 ^ w : Nat) : Int)).toNat

/-- One bit as a number. -/
def b2n (b : Bool) : Nat := if b then 1 else 0

/-- `⌈a / b⌉`. -/
def ceilDiv (a b : Nat) : Nat := (a + b - 1) / b

/-- A count that stops at `top`. -/
def satAdd (top a b : Nat) : Nat := min top (a + b)

/-- The largest `n` with `n * n ≤ x`, by 2 bits a step; `fuel` bounds the steps. -/
def isqrtAux : Nat → Nat → Nat
  | 0, _ => 0
  | fuel + 1, x =>
    let r := 2 * isqrtAux fuel (x / 4)
    if (r + 1) * (r + 1) ≤ x then r + 1 else r

/-- Integer square root. -/
def isqrt (x : Nat) : Nat := isqrtAux (x.log2 / 2 + 1) x

end Sys2Proof.Machine
end

