-- ==== Sys2Proof/Machine/Fields.lean ====
section
/-! DEFINITION. The register fields of BAR0: one constant per field of the spec's register tables
(R17 to R29, Tables 1.7 to 1.9 and the register sections of chapters 01 to 18), with its block, offset,
bits, access code, reset value and the lowest reset level that clears it. -/

namespace Sys2Proof.Machine

/-- The block a register lies in; with a unit number it names one block of Tables 1.7 to 1.9. `dev` is the
global ranges outside the tender bays, `hbm` the two controllers of a carriage, `lane` its 24 lanes. -/
inductive Blk where
  | dev | bay | car | coach | noc | hbm | lane | dma | fab | iob | hcl | que
deriving DecidableEq, Repr

/-- Access codes of Table 0.2 that the register tables use. -/
inductive Access where
  | ro | rw | wo | w1c | w1s | rc
deriving DecidableEq, Repr

/-- Reset levels of Table 0.3, with `none` for a field that no level clears. -/
inductive Level where
  | context | coach | carriage | chip | cold | none
deriving DecidableEq, Repr

/-- Order of the levels (R29). -/
def Level.rank : Level → Nat
  | .context => 1 | .coach => 2 | .carriage => 3 | .chip => 4 | .cold => 5 | .none => 6

/-- One register field. `off` is the offset in its block, `reps` the strides and counts of a repeated
register, `pair` says that it is the 64-bit quantity of a register pair (R17), whose high word follows. -/
structure Fld where
  idx : Nat
  blk : Blk
  off : Nat
  reps : List (Nat × Nat)
  lsb : Nat
  w : Nat
  acc : Access
  rst : Nat
  lvl : Level
  pair : Bool
deriving DecidableEq, Repr

/-- DEV_ID.DEVCODE. -/
def DEV_ID_DEVCODE : Fld := ⟨0, .dev, 0x0, [], 16, 16, .ro, 0x9C96, .none, false⟩
/-- DEV_ID.STEPL. -/
def DEV_ID_STEPL : Fld := ⟨1, .dev, 0x0, [], 12, 4, .ro, 1, .none, false⟩
/-- DEV_ID.STEPD. -/
def DEV_ID_STEPD : Fld := ⟨2, .dev, 0x0, [], 8, 4, .ro, 0, .none, false⟩
/-- DEV_ID.PKG. -/
def DEV_ID_PKG : Fld := ⟨3, .dev, 0x0, [], 4, 4, .ro, 1, .none, false⟩
/-- DEV_STRAY.REASON. -/
def DEV_STRAY_REASON : Fld := ⟨4, .dev, 0x10, [], 0, 2, .ro, 0, .chip, false⟩
/-- DEV_STRAY.OFFSET. -/
def DEV_STRAY_OFFSET : Fld := ⟨5, .dev, 0x10, [], 2, 28, .ro, 0, .chip, false⟩
/-- DEV_STRAY.WRITE. -/
def DEV_STRAY_WRITE : Fld := ⟨6, .dev, 0x10, [], 30, 1, .ro, 0, .chip, false⟩
/-- DEV_STRAY.VALID. -/
def DEV_STRAY_VALID : Fld := ⟨7, .dev, 0x10, [], 31, 1, .w1c, 0, .chip, false⟩
/-- DEV_STRAY_CNT.COUNT. -/
def DEV_STRAY_CNT_COUNT : Fld := ⟨8, .dev, 0x14, [], 0, 16, .rc, 0, .chip, false⟩
/-- NUMCTL.DNZ. -/
def NUMCTL_DNZ : Fld := ⟨9, .coach, 0xC000, [], 0, 1, .rw, 0, .context, false⟩
/-- NUMCTL.FORERUN. -/
def NUMCTL_FORERUN : Fld := ⟨10, .coach, 0xC000, [], 1, 1, .rw, 0, .context, false⟩
/-- NUMCTL.SATFINITE. -/
def NUMCTL_SATFINITE : Fld := ⟨11, .coach, 0xC000, [], 2, 1, .rw, 0, .context, false⟩
/-- NUMCTL.NANTRAP. -/
def NUMCTL_NANTRAP : Fld := ⟨12, .coach, 0xC000, [], 3, 1, .rw, 0, .context, false⟩
/-- NUMSTAT.FLUSHED. -/
def NUMSTAT_FLUSHED : Fld := ⟨13, .coach, 0xC004, [], 0, 1, .w1c, 0, .context, false⟩
/-- NUMSTAT.SATURATED. -/
def NUMSTAT_SATURATED : Fld := ⟨14, .coach, 0xC004, [], 1, 1, .w1c, 0, .context, false⟩
/-- NUMSTAT.NANINF. -/
def NUMSTAT_NANINF : Fld := ⟨15, .coach, 0xC004, [], 2, 1, .w1c, 0, .context, false⟩
/-- NUMSTAT.NANBLOCK. -/
def NUMSTAT_NANBLOCK : Fld := ⟨16, .coach, 0xC004, [], 3, 1, .w1c, 0, .context, false⟩
/-- NUM_SATTOT.SATTOT. -/
def NUM_SATTOT_SATTOT : Fld := ⟨17, .coach, 0xC008, [], 0, 64, .ro, 0, .coach, true⟩
/-- NUM_FLUSHTOT.FLUSHTOT. -/
def NUM_FLUSHTOT_FLUSHTOT : Fld := ⟨18, .coach, 0xC010, [], 0, 64, .ro, 0, .coach, true⟩
/-- NUM_NANBLKTOT.NANBLKTOT. -/
def NUM_NANBLKTOT_NANBLKTOT : Fld := ⟨19, .coach, 0xC018, [], 0, 32, .ro, 0, .coach, false⟩
/-- NUM_CTRCLR.SATTOT. -/
def NUM_CTRCLR_SATTOT : Fld := ⟨20, .coach, 0xC01C, [], 0, 1, .wo, 0, .none, false⟩
/-- NUM_CTRCLR.FLUSHTOT. -/
def NUM_CTRCLR_FLUSHTOT : Fld := ⟨21, .coach, 0xC01C, [], 1, 1, .wo, 0, .none, false⟩
/-- NUM_CTRCLR.NANBLKTOT. -/
def NUM_CTRCLR_NANBLKTOT : Fld := ⟨22, .coach, 0xC01C, [], 2, 1, .wo, 0, .none, false⟩
/-- NUM_TRAPINFO.CONTEXT. -/
def NUM_TRAPINFO_CONTEXT : Fld := ⟨23, .coach, 0xC020, [], 0, 10, .ro, 0, .coach, false⟩
/-- NUM_TRAPINFO.MORE. -/
def NUM_TRAPINFO_MORE : Fld := ⟨24, .coach, 0xC020, [], 16, 1, .ro, 0, .coach, false⟩
/-- NUM_TRAPINFO.VALID. -/
def NUM_TRAPINFO_VALID : Fld := ⟨25, .coach, 0xC020, [], 31, 1, .w1c, 0, .coach, false⟩
/-- NUM_TRAPSEQ.SEQ. -/
def NUM_TRAPSEQ_SEQ : Fld := ⟨26, .coach, 0xC024, [], 0, 32, .ro, 0, .coach, false⟩
/-- COA_STATE.STATE. -/
def COA_STATE_STATE : Fld := ⟨27, .coach, 0x0, [], 0, 3, .ro, 0, .coach, false⟩
/-- COA_ROLE.EPOCH. -/
def COA_ROLE_EPOCH : Fld := ⟨28, .coach, 0x4, [], 0, 8, .ro, 0, .chip, false⟩
/-- COA_ROLE.CONTEXT. -/
def COA_ROLE_CONTEXT : Fld := ⟨29, .coach, 0x4, [], 8, 10, .ro, 0, .coach, false⟩
/-- COA_ROLE.BOUND. -/
def COA_ROLE_BOUND : Fld := ⟨30, .coach, 0x4, [], 31, 1, .ro, 0, .coach, false⟩
/-- COA_PC.PC. -/
def COA_PC_PC : Fld := ⟨31, .coach, 0x8, [], 0, 10, .ro, 0, .context, false⟩
/-- COA_SEQ.SEQ. -/
def COA_SEQ_SEQ : Fld := ⟨32, .coach, 0xC, [], 0, 32, .ro, 0, .context, false⟩
/-- COA_FAULT.CODE. -/
def COA_FAULT_CODE : Fld := ⟨33, .coach, 0x10, [], 0, 8, .ro, 0, .coach, false⟩
/-- COA_FAULT.PC. -/
def COA_FAULT_PC : Fld := ⟨34, .coach, 0x10, [], 8, 10, .ro, 0, .coach, false⟩
/-- COA_FAULT.CONTEXT. -/
def COA_FAULT_CONTEXT : Fld := ⟨35, .coach, 0x10, [], 18, 10, .ro, 0, .coach, false⟩
/-- COA_FAULT.MORE. -/
def COA_FAULT_MORE : Fld := ⟨36, .coach, 0x10, [], 30, 1, .ro, 0, .coach, false⟩
/-- COA_FAULT.VALID. -/
def COA_FAULT_VALID : Fld := ⟨37, .coach, 0x10, [], 31, 1, .w1c, 0, .coach, false⟩
/-- COA_ISSUED.ISSUED. -/
def COA_ISSUED_ISSUED : Fld := ⟨38, .coach, 0x18, [], 0, 64, .ro, 0, .coach, true⟩
/-- COA_SYNCn.COUNT. -/
def COA_SYNC_COUNT : Fld := ⟨39, .coach, 0x100, [(4, 16)], 0, 32, .ro, 0, .context, false⟩
/-- COA_SPn.ADDR. -/
def COA_SP_ADDR : Fld := ⟨40, .coach, 0x140, [(4, 4)], 0, 23, .ro, 0, .context, false⟩
/-- COA_LOOPn.COUNT. -/
def COA_LOOP_COUNT : Fld := ⟨41, .coach, 0x150, [(4, 4)], 0, 32, .ro, 0, .context, false⟩
/-- ARR_WSTATE.ACTIVE. -/
def ARR_WSTATE_ACTIVE : Fld := ⟨42, .coach, 0x2000, [], 0, 1, .ro, 0, .context, false⟩
/-- ARR_WSTATE.SHREADY. -/
def ARR_WSTATE_SHREADY : Fld := ⟨43, .coach, 0x2000, [], 1, 1, .ro, 1, .context, false⟩
/-- ARR_WSTATE.LOADING. -/
def ARR_WSTATE_LOADING : Fld := ⟨44, .coach, 0x2000, [], 2, 1, .ro, 0, .context, false⟩
/-- ARR_WSTATE.AFMT. -/
def ARR_WSTATE_AFMT : Fld := ⟨45, .coach, 0x2000, [], 4, 5, .ro, 3, .context, false⟩
/-- ARR_WSTATE.SFMT. -/
def ARR_WSTATE_SFMT : Fld := ⟨46, .coach, 0x2000, [], 12, 5, .ro, 3, .context, false⟩
/-- ARR_INCYC.INCYC. -/
def ARR_INCYC_INCYC : Fld := ⟨47, .coach, 0x2008, [], 0, 64, .ro, 0, .coach, true⟩
/-- ARR_PASSES.PASSES. -/
def ARR_PASSES_PASSES : Fld := ⟨48, .coach, 0x2010, [], 0, 32, .ro, 0, .coach, false⟩
/-- ACC_SPILLBASE.BASE. -/
def ACC_SPILLBASE_BASE : Fld := ⟨49, .coach, 0x4000, [], 4, 19, .rw, 0, .carriage, false⟩
/-- ACC_SPILLSLOTS.SLOTS. -/
def ACC_SPILLSLOTS_SLOTS : Fld := ⟨50, .coach, 0x4004, [], 0, 17, .rw, 0, .carriage, false⟩
/-- ACC_SPILLUSED.USED. -/
def ACC_SPILLUSED_USED : Fld := ⟨51, .coach, 0x4008, [], 0, 17, .ro, 0, .context, false⟩
/-- ACC_SPILLS.SPILLS. -/
def ACC_SPILLS_SPILLS : Fld := ⟨52, .coach, 0x400C, [], 0, 32, .ro, 0, .coach, false⟩
/-- VEC_LOOP.RRB. -/
def VEC_LOOP_RRB : Fld := ⟨53, .coach, 0x6000, [], 0, 5, .ro, 0, .context, false⟩
/-- VEC_LOOP.ON. -/
def VEC_LOOP_ON : Fld := ⟨54, .coach, 0x6000, [], 8, 1, .ro, 0, .context, false⟩
/-- VEC_LOOP.SM1. -/
def VEC_LOOP_SM1 : Fld := ⟨55, .coach, 0x6000, [], 9, 3, .ro, 0, .context, false⟩
/-- VEC_TRIP.TRIP. -/
def VEC_TRIP_TRIP : Fld := ⟨56, .coach, 0x6004, [], 0, 32, .ro, 0, .context, false⟩
/-- VEC_TRIPN.N. -/
def VEC_TRIPN_N : Fld := ⟨57, .coach, 0x6008, [], 0, 32, .ro, 0, .context, false⟩
/-- VEC_SIGSTAT.AOVF. -/
def VEC_SIGSTAT_AOVF : Fld := ⟨58, .coach, 0x600C, [], 0, 16, .w1c, 0, .context, false⟩
/-- VEC_BUSY.BUSY. -/
def VEC_BUSY_BUSY : Fld := ⟨59, .coach, 0x6010, [], 0, 64, .ro, 0, .coach, true⟩
/-- VEC_CBBASE.BASE. -/
def VEC_CBBASE_BASE : Fld := ⟨60, .coach, 0x6400, [(16, 128)], 4, 19, .rw, 0, .context, false⟩
/-- VEC_CBLEN.LEN. -/
def VEC_CBLEN_LEN : Fld := ⟨61, .coach, 0x6404, [(16, 128)], 0, 21, .rw, 0, .context, false⟩
/-- VEC_CBPTR.PTR. -/
def VEC_CBPTR_PTR : Fld := ⟨62, .coach, 0x6408, [(16, 128)], 0, 20, .rw, 0, .context, false⟩
/-- STR_CFGn.DIR. -/
def STR_CFG_DIR : Fld := ⟨63, .coach, 0x8000, [(128, 8)], 0, 1, .rw, 0, .context, false⟩
/-- STR_CFGn.TRANS. -/
def STR_CFG_TRANS : Fld := ⟨64, .coach, 0x8000, [(128, 8)], 1, 1, .rw, 0, .context, false⟩
/-- STR_CFGn.TW. -/
def STR_CFG_TW : Fld := ⟨65, .coach, 0x8000, [(128, 8)], 2, 1, .rw, 0, .context, false⟩
/-- STR_CFGn.CLASS. -/
def STR_CFG_CLASS : Fld := ⟨66, .coach, 0x8000, [(128, 8)], 3, 2, .rw, 3, .context, false⟩
/-- STR_BUFn.BASE. -/
def STR_BUF_BASE : Fld := ⟨67, .coach, 0x8004, [(128, 8)], 12, 11, .rw, 0, .context, false⟩
/-- STR_HALFn.HALF. -/
def STR_HALF_HALF : Fld := ⟨68, .coach, 0x8008, [(128, 8)], 0, 10, .rw, 0, .context, false⟩
/-- STR_RATEn.RATE. -/
def STR_RATE_RATE : Fld := ⟨69, .coach, 0x800C, [(128, 8)], 0, 16, .rw, 0, .context, false⟩
/-- STR_SRCn.SRC. -/
def STR_SRC_SRC : Fld := ⟨70, .coach, 0x8010, [(128, 8)], 0, 64, .rw, 0, .context, true⟩
/-- STR_ROWLENn.ROWLEN. -/
def STR_ROWLEN_ROWLEN : Fld := ⟨71, .coach, 0x8018, [(128, 8)], 0, 21, .rw, 0, .context, false⟩
/-- STR_ROWSn.ROWS. -/
def STR_ROWS_ROWS : Fld := ⟨72, .coach, 0x801C, [(128, 8)], 0, 20, .rw, 0, .context, false⟩
/-- STR_STRIDE1n.STRIDE1. -/
def STR_STRIDE1_STRIDE1 : Fld := ⟨73, .coach, 0x8020, [(128, 8)], 0, 32, .rw, 0, .context, false⟩
/-- STR_PLANESn.PLANES. -/
def STR_PLANES_PLANES : Fld := ⟨74, .coach, 0x8024, [(128, 8)], 0, 16, .rw, 0, .context, false⟩
/-- STR_STRIDE2n.STRIDE2. -/
def STR_STRIDE2_STRIDE2 : Fld := ⟨75, .coach, 0x8028, [(128, 8)], 0, 32, .rw, 0, .context, false⟩
/-- STR_CTLn.START. -/
def STR_CTL_START : Fld := ⟨76, .coach, 0x802C, [(128, 8)], 0, 1, .wo, 0, .none, false⟩
/-- STR_CTLn.STOP. -/
def STR_CTL_STOP : Fld := ⟨77, .coach, 0x802C, [(128, 8)], 1, 1, .wo, 0, .none, false⟩
/-- STR_POSn.POS. -/
def STR_POS_POS : Fld := ⟨78, .coach, 0x8030, [(128, 8)], 0, 64, .ro, 0, .context, true⟩
/-- STR_STATEn.STATE. -/
def STR_STATE_STATE : Fld := ⟨79, .coach, 0x8038, [(128, 8)], 0, 3, .ro, 0, .context, false⟩
/-- STR_STATEn.CONS. -/
def STR_STATE_CONS : Fld := ⟨80, .coach, 0x8038, [(128, 8)], 3, 1, .ro, 0, .context, false⟩
/-- STR_STATEn.FCODE. -/
def STR_STATE_FCODE : Fld := ⟨81, .coach, 0x8038, [(128, 8)], 4, 4, .ro, 0, .context, false⟩
/-- STR_STATEn.WRITE. -/
def STR_STATE_WRITE : Fld := ⟨82, .coach, 0x8038, [(128, 8)], 8, 1, .ro, 0, .context, false⟩
/-- STR_RESUMEn.GO. -/
def STR_RESUME_GO : Fld := ⟨83, .coach, 0x803C, [(128, 8)], 0, 1, .wo, 0, .none, false⟩
/-- STR_FAULTVAn.FAULTVA. -/
def STR_FAULTVA_FAULTVA : Fld := ⟨84, .coach, 0x8040, [(128, 8)], 0, 64, .ro, 0, .context, true⟩
/-- STR_URGENT.THRESH. -/
def STR_URGENT_THRESH : Fld := ⟨85, .coach, 0x8400, [], 0, 24, .rw, 0x1000, .carriage, false⟩
/-- STR_INVAL.CONTEXT. -/
def STR_INVAL_CONTEXT : Fld := ⟨86, .coach, 0x8404, [], 0, 10, .wo, 0, .none, false⟩
/-- STR_INVAL.KIND. -/
def STR_INVAL_KIND : Fld := ⟨87, .coach, 0x8404, [], 10, 2, .wo, 0, .none, false⟩
/-- STR_INVAL.BUSY. -/
def STR_INVAL_BUSY : Fld := ⟨88, .coach, 0x8404, [], 31, 1, .ro, 0, .coach, false⟩
/-- STR_INVAL_VA.VA. -/
def STR_INVAL_VA_VA : Fld := ⟨89, .coach, 0x8408, [], 0, 64, .rw, 0, .coach, true⟩
/-- STR_TCMISS.MISSES. -/
def STR_TCMISS_MISSES : Fld := ⟨90, .coach, 0x8410, [], 0, 32, .ro, 0, .coach, false⟩
/-- DMA_RINGSIZE.LOG2. -/
def DMA_RINGSIZE_LOG2 : Fld := ⟨91, .dma, 0x8, [(64, 64)], 0, 5, .rw, 4, .context, false⟩
/-- DMA_HEAD.HEAD. -/
def DMA_HEAD_HEAD : Fld := ⟨92, .dma, 0xC, [(64, 64)], 0, 16, .rw, 0, .context, false⟩
/-- DMA_TAIL.TAIL. -/
def DMA_TAIL_TAIL : Fld := ⟨93, .dma, 0x10, [(64, 64)], 0, 16, .ro, 0, .context, false⟩
/-- DMA_CTL.RUN. -/
def DMA_CTL_RUN : Fld := ⟨94, .dma, 0x14, [(64, 64)], 0, 1, .rw, 0, .context, false⟩
/-- DMA_CTL.ABORT. -/
def DMA_CTL_ABORT : Fld := ⟨95, .dma, 0x14, [(64, 64)], 1, 1, .w1s, 0, .context, false⟩
/-- DMA_CTL.VEC. -/
def DMA_CTL_VEC : Fld := ⟨96, .dma, 0x14, [(64, 64)], 2, 11, .rw, 0, .context, false⟩
/-- DMA_CTX.CONTEXT. -/
def DMA_CTX_CONTEXT : Fld := ⟨97, .dma, 0x18, [(64, 64)], 0, 10, .ro, 0, .carriage, false⟩
/-- DMA_CTX.BOUND. -/
def DMA_CTX_BOUND : Fld := ⟨98, .dma, 0x18, [(64, 64)], 31, 1, .ro, 0, .carriage, false⟩
/-- DMA_STATUS.LAST. -/
def DMA_STATUS_LAST : Fld := ⟨99, .dma, 0x1C, [(64, 64)], 0, 8, .ro, 0, .context, false⟩
/-- DMA_STATUS.ACTIVE. -/
def DMA_STATUS_ACTIVE : Fld := ⟨100, .dma, 0x1C, [(64, 64)], 8, 1, .ro, 0, .context, false⟩
/-- DMA_STATUS.STOPPED. -/
def DMA_STATUS_STOPPED : Fld := ⟨101, .dma, 0x1C, [(64, 64)], 9, 1, .w1c, 0, .context, false⟩
/-- DMA_BYTES.BYTES. -/
def DMA_BYTES_BYTES : Fld := ⟨102, .dma, 0x20, [(64, 64)], 0, 64, .ro, 0, .carriage, true⟩
/-- DEV_LSCTL.ENABLE. -/
def DEV_LSCTL_ENABLE : Fld := ⟨103, .dev, 0x100, [], 0, 1, .rw, 0, .chip, false⟩
/-- DEV_LSCTL.SLOT. -/
def DEV_LSCTL_SLOT : Fld := ⟨104, .dev, 0x100, [], 1, 5, .rw, 0xC, .chip, false⟩
/-- DEV_LSCTL.VEC. -/
def DEV_LSCTL_VEC : Fld := ⟨105, .dev, 0x100, [], 6, 11, .rw, 0, .chip, false⟩
/-- DEV_LSCTL.PORT. -/
def DEV_LSCTL_PORT : Fld := ⟨106, .dev, 0x100, [], 17, 2, .rw, 0, .chip, false⟩
/-- DEV_LSSTAT.STATE. -/
def DEV_LSSTAT_STATE : Fld := ⟨107, .dev, 0x104, [], 0, 2, .ro, 0, .chip, false⟩
/-- DEV_LSSTAT.CODE. -/
def DEV_LSSTAT_CODE : Fld := ⟨108, .dev, 0x104, [], 4, 4, .ro, 0, .chip, false⟩
/-- DEV_LSSTAT.EVENT. -/
def DEV_LSSTAT_EVENT : Fld := ⟨109, .dev, 0x104, [], 31, 1, .w1c, 0, .chip, false⟩
/-- DEV_LSCYC.CYC. -/
def DEV_LSCYC_CYC : Fld := ⟨110, .dev, 0x108, [], 0, 64, .ro, 0, .chip, true⟩
/-- DEV_LSEND.CYC. -/
def DEV_LSEND_CYC : Fld := ⟨111, .dev, 0x110, [], 0, 64, .ro, 0, .chip, true⟩
/-- DEV_LSSEED.SEED. -/
def DEV_LSSEED_SEED : Fld := ⟨112, .dev, 0x118, [], 0, 32, .rw, 0, .chip, false⟩
/-- DEV_LSLINKDLY.DLY. -/
def DEV_LSLINKDLY_DLY : Fld := ⟨113, .dev, 0x11C, [], 0, 16, .rw, 0x1000, .chip, false⟩
/-- DEV_LSADMIT.COUNT. -/
def DEV_LSADMIT_COUNT : Fld := ⟨114, .dev, 0x120, [], 0, 32, .ro, 0, .chip, false⟩
/-- DEV_REINCTL.CMD. -/
def DEV_REINCTL_CMD : Fld := ⟨115, .dev, 0x140, [], 0, 2, .wo, 0, .none, false⟩
/-- DEV_REINCTL.ROLE. -/
def DEV_REINCTL_ROLE : Fld := ⟨116, .dev, 0x140, [], 2, 2, .rw, 0, .chip, false⟩
/-- DEV_REINCTL.LINK. -/
def DEV_REINCTL_LINK : Fld := ⟨117, .dev, 0x140, [], 4, 5, .rw, 0, .chip, false⟩
/-- DEV_REINSTAT.STATE. -/
def DEV_REINSTAT_STATE : Fld := ⟨118, .dev, 0x144, [], 0, 3, .ro, 0, .chip, false⟩
/-- DEV_REINSTAT.LINE. -/
def DEV_REINSTAT_LINE : Fld := ⟨119, .dev, 0x144, [], 3, 1, .ro, 0, .chip, false⟩
/-- DEV_REINSTAT.MARKS. -/
def DEV_REINSTAT_MARKS : Fld := ⟨120, .dev, 0x144, [], 4, 5, .ro, 0, .chip, false⟩
/-- DEV_REINSTAT.EVENT. -/
def DEV_REINSTAT_EVENT : Fld := ⟨121, .dev, 0x144, [], 31, 1, .w1c, 0, .chip, false⟩
/-- DEV_REINLINKS.MASK. -/
def DEV_REINLINKS_MASK : Fld := ⟨122, .dev, 0x148, [], 0, 24, .rw, 0, .chip, false⟩
/-- DEV_REINEXP.COUNT. -/
def DEV_REINEXP_COUNT : Fld := ⟨123, .dev, 0x14C, [], 0, 5, .rw, 0, .chip, false⟩
/-- DEV_REINLEAD.LEAD. -/
def DEV_REINLEAD_LEAD : Fld := ⟨124, .dev, 0x150, [], 0, 24, .rw, 0x1000, .chip, false⟩
/-- DEV_REINTMO.TMO. -/
def DEV_REINTMO_TMO : Fld := ⟨125, .dev, 0x154, [], 0, 24, .rw, 0xF4240, .chip, false⟩
/-- DEV_REINLATj.LAT. -/
def DEV_REINLAT_LAT : Fld := ⟨126, .dev, 0x180, [(4, 24)], 0, 16, .ro, 0, .chip, false⟩
/-- DEV_REINLATj.VALID. -/
def DEV_REINLAT_VALID : Fld := ⟨127, .dev, 0x180, [(4, 24)], 31, 1, .ro, 0, .chip, false⟩
/-- NOC_RSSEL.ENTRY. -/
def NOC_RSSEL_ENTRY : Fld := ⟨128, .noc, 0x0, [], 0, 8, .rw, 0, .chip, false⟩
/-- NOC_RSSEL.UNIT. -/
def NOC_RSSEL_UNIT : Fld := ⟨129, .noc, 0x0, [], 8, 8, .rw, 0, .chip, false⟩
/-- NOC_RSDATAn.WORD. -/
def NOC_RSDATA_WORD : Fld := ⟨130, .noc, 0x4, [(4, 4)], 0, 32, .ro, 0, .cold, false⟩
/-- NOC_RSSTAT.REASON. -/
def NOC_RSSTAT_REASON : Fld := ⟨131, .noc, 0x14, [], 0, 4, .ro, 0, .chip, false⟩
/-- NOC_RSSTAT.UNIT. -/
def NOC_RSSTAT_UNIT : Fld := ⟨132, .noc, 0x14, [], 8, 8, .ro, 0, .chip, false⟩
/-- NOC_RSSTAT.ENTRY. -/
def NOC_RSSTAT_ENTRY : Fld := ⟨133, .noc, 0x14, [], 16, 8, .ro, 0, .chip, false⟩
/-- NOC_RSSTAT.VALID. -/
def NOC_RSSTAT_VALID : Fld := ⟨134, .noc, 0x14, [], 31, 1, .w1c, 0, .chip, false⟩
/-- NOC_STALECNT.COUNT. -/
def NOC_STALECNT_COUNT : Fld := ⟨135, .noc, 0x18, [], 0, 32, .rc, 0, .chip, false⟩
/-- NOC_DISCARD.COUNT. -/
def NOC_DISCARD_COUNT : Fld := ⟨136, .noc, 0x1C, [], 0, 32, .rc, 0, .chip, false⟩
/-- NOC_HOPERR.COUNT. -/
def NOC_HOPERR_COUNT : Fld := ⟨137, .noc, 0x20, [], 0, 32, .rc, 0, .chip, false⟩
/-- NOC_ECCCE.COUNT. -/
def NOC_ECCCE_COUNT : Fld := ⟨138, .noc, 0x24, [], 0, 32, .rc, 0, .chip, false⟩
/-- NOC_ECCUE.COUNT. -/
def NOC_ECCUE_COUNT : Fld := ⟨139, .noc, 0x28, [], 0, 32, .rc, 0, .chip, false⟩
/-- NOC_FROZEN.COUNT. -/
def NOC_FROZEN_COUNT : Fld := ⟨140, .noc, 0x2C, [], 0, 16, .ro, 0, .cold, false⟩
/-- NOC_UEINFO.SRC. -/
def NOC_UEINFO_SRC : Fld := ⟨141, .noc, 0x30, [], 0, 10, .ro, 0, .chip, false⟩
/-- NOC_UEINFO.DST. -/
def NOC_UEINFO_DST : Fld := ⟨142, .noc, 0x30, [], 10, 10, .ro, 0, .chip, false⟩
/-- NOC_UEINFO.VN. -/
def NOC_UEINFO_VN : Fld := ⟨143, .noc, 0x30, [], 20, 3, .ro, 0, .chip, false⟩
/-- NOC_UEINFO.HEAD. -/
def NOC_UEINFO_HEAD : Fld := ⟨144, .noc, 0x30, [], 23, 1, .ro, 0, .chip, false⟩
/-- NOC_UEINFO.MORE. -/
def NOC_UEINFO_MORE : Fld := ⟨145, .noc, 0x30, [], 30, 1, .ro, 0, .chip, false⟩
/-- NOC_UEINFO.VALID. -/
def NOC_UEINFO_VALID : Fld := ⟨146, .noc, 0x30, [], 31, 1, .w1c, 0, .chip, false⟩
/-- NOC_DOWNINFO.ROUTER. -/
def NOC_DOWNINFO_ROUTER : Fld := ⟨147, .noc, 0x34, [], 0, 6, .ro, 0, .chip, false⟩
/-- NOC_DOWNINFO.PORT. -/
def NOC_DOWNINFO_PORT : Fld := ⟨148, .noc, 0x34, [], 6, 3, .ro, 0, .chip, false⟩
/-- NOC_DOWNINFO.MORE. -/
def NOC_DOWNINFO_MORE : Fld := ⟨149, .noc, 0x34, [], 30, 1, .ro, 0, .chip, false⟩
/-- NOC_DOWNINFO.VALID. -/
def NOC_DOWNINFO_VALID : Fld := ⟨150, .noc, 0x34, [], 31, 1, .w1c, 0, .chip, false⟩
/-- NOC_PRBn_SEL.ROUTER. -/
def NOC_PRB_SEL_ROUTER : Fld := ⟨151, .noc, 0x100, [(64, 4)], 0, 6, .rw, 0, .chip, false⟩
/-- NOC_PRBn_SEL.PORT. -/
def NOC_PRB_SEL_PORT : Fld := ⟨152, .noc, 0x100, [(64, 4)], 6, 3, .rw, 0, .chip, false⟩
/-- NOC_PRBn_SEL.VNMASK. -/
def NOC_PRB_SEL_VNMASK : Fld := ⟨153, .noc, 0x100, [(64, 4)], 9, 6, .rw, 0, .chip, false⟩
/-- NOC_PRBn_SEL.CTXEN. -/
def NOC_PRB_SEL_CTXEN : Fld := ⟨154, .noc, 0x100, [(64, 4)], 15, 1, .rw, 0, .chip, false⟩
/-- NOC_PRBn_SEL.CONTEXT. -/
def NOC_PRB_SEL_CONTEXT : Fld := ⟨155, .noc, 0x100, [(64, 4)], 16, 10, .rw, 0, .chip, false⟩
/-- NOC_PRBn_SEL.MODE. -/
def NOC_PRB_SEL_MODE : Fld := ⟨156, .noc, 0x100, [(64, 4)], 26, 2, .rw, 0, .chip, false⟩
/-- NOC_PRBn_SRC.VALUE. -/
def NOC_PRB_SRC_VALUE : Fld := ⟨157, .noc, 0x104, [(64, 4)], 0, 10, .rw, 0, .chip, false⟩
/-- NOC_PRBn_SRC.MASK. -/
def NOC_PRB_SRC_MASK : Fld := ⟨158, .noc, 0x104, [(64, 4)], 16, 10, .rw, 0, .chip, false⟩
/-- NOC_PRBn_DST.VALUE. -/
def NOC_PRB_DST_VALUE : Fld := ⟨159, .noc, 0x108, [(64, 4)], 0, 10, .rw, 0, .chip, false⟩
/-- NOC_PRBn_DST.MASK. -/
def NOC_PRB_DST_MASK : Fld := ⟨160, .noc, 0x108, [(64, 4)], 16, 10, .rw, 0, .chip, false⟩
/-- NOC_PRBn_PKT.COUNT. -/
def NOC_PRB_PKT_COUNT : Fld := ⟨161, .noc, 0x10C, [(64, 4)], 0, 32, .rc, 0, .chip, false⟩
/-- NOC_PRBn_FLT.COUNT. -/
def NOC_PRB_FLT_COUNT : Fld := ⟨162, .noc, 0x110, [(64, 4)], 0, 32, .rc, 0, .chip, false⟩
/-- NOC_PRBn_TRIDX.INDEX. -/
def NOC_PRB_TRIDX_INDEX : Fld := ⟨163, .noc, 0x114, [(64, 4)], 0, 8, .rw, 0, .chip, false⟩
/-- NOC_PRBn_TRIDX.FILL. -/
def NOC_PRB_TRIDX_FILL : Fld := ⟨164, .noc, 0x114, [(64, 4)], 8, 9, .ro, 0, .chip, false⟩
/-- NOC_PRBn_TRIDX.WRAPPED. -/
def NOC_PRB_TRIDX_WRAPPED : Fld := ⟨165, .noc, 0x114, [(64, 4)], 31, 1, .ro, 0, .chip, false⟩
/-- NOC_PRBn_TRDATAw.WORD. -/
def NOC_PRB_TRDATA_WORD : Fld := ⟨166, .noc, 0x118, [(64, 4), (4, 3)], 0, 32, .ro, 0, .chip, false⟩
/-- HBM_CTL.MODE. -/
def HBM_CTL_MODE : Fld := ⟨167, .hbm, 0x0, [(524288, 2)], 0, 2, .rw, 0, .cold, false⟩
/-- HBM_CTL.TRSET. -/
def HBM_CTL_TRSET : Fld := ⟨168, .hbm, 0x0, [(524288, 2)], 2, 1, .rw, 0, .cold, false⟩
/-- HBM_CTL.REFMODE. -/
def HBM_CTL_REFMODE : Fld := ⟨169, .hbm, 0x0, [(524288, 2)], 3, 1, .rw, 0, .cold, false⟩
/-- HBM_CTL.FCREQ. -/
def HBM_CTL_FCREQ : Fld := ⟨170, .hbm, 0x0, [(524288, 2)], 4, 1, .w1s, 0, .chip, false⟩
/-- HBM_CTL.ILV. -/
def HBM_CTL_ILV : Fld := ⟨171, .hbm, 0x0, [(524288, 2)], 5, 1, .ro, 0, .cold, false⟩
/-- HBM_STATUS.ACTSET. -/
def HBM_STATUS_ACTSET : Fld := ⟨172, .hbm, 0x4, [(524288, 2)], 0, 1, .ro, 0, .cold, false⟩
/-- HBM_STATUS.FCBUSY. -/
def HBM_STATUS_FCBUSY : Fld := ⟨173, .hbm, 0x4, [(524288, 2)], 1, 1, .ro, 0, .chip, false⟩
/-- HBM_STATUS.FCDONE. -/
def HBM_STATUS_FCDONE : Fld := ⟨174, .hbm, 0x4, [(524288, 2)], 2, 1, .w1c, 0, .chip, false⟩
/-- HBM_STATUS.FCERR. -/
def HBM_STATUS_FCERR : Fld := ⟨175, .hbm, 0x4, [(524288, 2)], 3, 1, .w1c, 0, .chip, false⟩
/-- HBM_STATUS.ADJOK. -/
def HBM_STATUS_ADJOK : Fld := ⟨176, .hbm, 0x4, [(524288, 2)], 4, 1, .ro, 1, .cold, false⟩
/-- HBM_STATUS.HOT. -/
def HBM_STATUS_HOT : Fld := ⟨177, .hbm, 0x4, [(524288, 2)], 5, 1, .ro, 0, .cold, false⟩
/-- HBM_AGELIM.LIMIT. -/
def HBM_AGELIM_LIMIT : Fld := ⟨178, .hbm, 0x8, [(524288, 2)], 0, 16, .rw, 0x1000, .cold, false⟩
/-- HBM_NRCTL.EN. -/
def HBM_NRCTL_EN : Fld := ⟨179, .hbm, 0xC, [(524288, 2)], 0, 1, .rw, 1, .cold, false⟩
/-- HBM_NRCTL.DIST. -/
def HBM_NRCTL_DIST : Fld := ⟨180, .hbm, 0xC, [(524288, 2)], 1, 1, .rw, 0, .cold, false⟩
/-- HBM_NRCTL.K. -/
def HBM_NRCTL_K : Fld := ⟨181, .hbm, 0xC, [(524288, 2)], 2, 4, .rw, 9, .cold, false⟩
/-- HBM_REFSLOT.SLOT. -/
def HBM_REFSLOT_SLOT : Fld := ⟨182, .hbm, 0x18, [(524288, 2)], 0, 16, .rw, 0xF00, .cold, false⟩
/-- HBM_CECNT.COUNT. -/
def HBM_CECNT_COUNT : Fld := ⟨183, .hbm, 0x20, [(524288, 2)], 0, 32, .rc, 0, .chip, false⟩
/-- HBM_UECNT.COUNT. -/
def HBM_UECNT_COUNT : Fld := ⟨184, .hbm, 0x24, [(524288, 2)], 0, 32, .rc, 0, .chip, false⟩
/-- HBM_RAWCNT.COUNT. -/
def HBM_RAWCNT_COUNT : Fld := ⟨185, .hbm, 0x28, [(524288, 2)], 0, 32, .rc, 0, .chip, false⟩
/-- HBM_NRCNT.COUNT. -/
def HBM_NRCNT_COUNT : Fld := ⟨186, .hbm, 0x2C, [(524288, 2)], 0, 32, .rc, 0, .chip, false⟩
/-- HBM_DLYSEL.CHAN. -/
def HBM_DLYSEL_CHAN : Fld := ⟨187, .hbm, 0x200, [(524288, 2)], 0, 5, .rw, 0, .cold, false⟩
/-- HBM_DLYSEL.LANE. -/
def HBM_DLYSEL_LANE : Fld := ⟨188, .hbm, 0x200, [(524288, 2)], 5, 4, .rw, 0, .cold, false⟩
/-- HBM_DLYDATAs.RDLY. -/
def HBM_DLYDATA_RDLY : Fld := ⟨189, .hbm, 0x204, [(524288, 2), (4, 2)], 0, 9, .rw, 0, .cold, false⟩
/-- HBM_DLYDATAs.WDLY. -/
def HBM_DLYDATA_WDLY : Fld := ⟨190, .hbm, 0x204, [(524288, 2), (4, 2)], 9, 9, .rw, 0, .cold, false⟩
/-- HBM_DLYDATAs.VREF. -/
def HBM_DLYDATA_VREF : Fld := ⟨191, .hbm, 0x204, [(524288, 2), (4, 2)], 18, 6, .rw, 0, .cold, false⟩
/-- HBM_TRCMD.PC. -/
def HBM_TRCMD_PC : Fld := ⟨192, .hbm, 0x210, [(524288, 2)], 0, 6, .wo, 0, .none, false⟩
/-- HBM_TRCMD.OP. -/
def HBM_TRCMD_OP : Fld := ⟨193, .hbm, 0x210, [(524288, 2)], 6, 2, .wo, 0, .none, false⟩
/-- HBM_TRRES.MRW. -/
def HBM_TRRES_MRW : Fld := ⟨194, .hbm, 0x214, [(524288, 2)], 0, 24, .rw, 0, .cold, false⟩
/-- HBM_TRRES.DONE. -/
def HBM_TRRES_DONE : Fld := ⟨195, .hbm, 0x214, [(524288, 2)], 31, 1, .w1c, 0, .cold, false⟩
/-- TND_STATE.STATE. -/
def TND_STATE_STATE : Fld := ⟨196, .bay, 0x0, [], 0, 3, .ro, 0, .cold, false⟩
/-- TND_STATE.PRSNT. -/
def TND_STATE_PRSNT : Fld := ⟨197, .bay, 0x0, [], 3, 1, .ro, 0, .cold, false⟩
/-- TND_CTL.ATTACH. -/
def TND_CTL_ATTACH : Fld := ⟨198, .bay, 0x4, [], 0, 1, .w1s, 0, .cold, false⟩
/-- TND_CTL.DETACH. -/
def TND_CTL_DETACH : Fld := ⟨199, .bay, 0x4, [], 1, 1, .w1s, 0, .cold, false⟩
/-- TND_CTL.VEC. -/
def TND_CTL_VEC : Fld := ⟨200, .bay, 0x4, [], 2, 11, .rw, 0, .cold, false⟩
/-- TND_ROLE.EPOCH. -/
def TND_ROLE_EPOCH : Fld := ⟨201, .bay, 0x8, [], 0, 8, .ro, 0, .chip, false⟩
/-- TND_EVENT.REMOVED. -/
def TND_EVENT_REMOVED : Fld := ⟨202, .bay, 0xC, [], 0, 1, .w1c, 0, .cold, false⟩
/-- TND_EVENT.RESUMED. -/
def TND_EVENT_RESUMED : Fld := ⟨203, .bay, 0xC, [], 1, 1, .w1c, 0, .cold, false⟩
/-- TND_EVENT.SWAPPED. -/
def TND_EVENT_SWAPPED : Fld := ⟨204, .bay, 0xC, [], 2, 1, .w1c, 0, .cold, false⟩
/-- TND_EVENT.EXPIRED. -/
def TND_EVENT_EXPIRED : Fld := ⟨205, .bay, 0xC, [], 3, 1, .w1c, 0, .cold, false⟩
/-- TND_EVENT.NEWMOD. -/
def TND_EVENT_NEWMOD : Fld := ⟨206, .bay, 0xC, [], 4, 1, .w1c, 0, .cold, false⟩
/-- TND_EVENT.WEARRATE. -/
def TND_EVENT_WEARRATE : Fld := ⟨207, .bay, 0xC, [], 5, 1, .w1c, 0, .cold, false⟩
/-- TND_EVENT.LIFE80. -/
def TND_EVENT_LIFE80 : Fld := ⟨208, .bay, 0xC, [], 6, 1, .w1c, 0, .cold, false⟩
/-- TND_EVENT.WORN. -/
def TND_EVENT_WORN : Fld := ⟨209, .bay, 0xC, [], 7, 1, .w1c, 0, .cold, false⟩
/-- TND_EVENT.FAILED. -/
def TND_EVENT_FAILED : Fld := ⟨210, .bay, 0xC, [], 8, 1, .w1c, 0, .cold, false⟩
/-- TND_EVENT.ERR. -/
def TND_EVENT_ERR : Fld := ⟨211, .bay, 0xC, [], 9, 1, .w1c, 0, .cold, false⟩
/-- TND_EVENT.MAINT. -/
def TND_EVENT_MAINT : Fld := ⟨212, .bay, 0xC, [], 10, 1, .w1c, 0, .cold, false⟩
/-- TND_ID.SERIAL. -/
def TND_ID_SERIAL : Fld := ⟨213, .bay, 0x10, [], 0, 64, .ro, 0, .cold, true⟩
/-- TND_MAKE.MAKE. -/
def TND_MAKE_MAKE : Fld := ⟨214, .bay, 0x18, [], 0, 16, .ro, 0, .cold, false⟩
/-- TND_MAKE.CAPGIB. -/
def TND_MAKE_CAPGIB : Fld := ⟨215, .bay, 0x18, [], 16, 16, .ro, 0, .cold, false⟩
/-- TND_SEAL.ATTACHCNT. -/
def TND_SEAL_ATTACHCNT : Fld := ⟨216, .bay, 0x1C, [], 0, 32, .ro, 0, .cold, false⟩
/-- TND_RETRY.MS. -/
def TND_RETRY_MS : Fld := ⟨217, .bay, 0x20, [], 0, 16, .rw, 0x7D0, .cold, false⟩
/-- TND_WEAR.USED. -/
def TND_WEAR_USED : Fld := ⟨218, .bay, 0x24, [], 0, 16, .ro, 0, .cold, false⟩
/-- TND_WEAR.RATE. -/
def TND_WEAR_RATE : Fld := ⟨219, .bay, 0x24, [], 16, 16, .ro, 0, .cold, false⟩
/-- TND_LIFE.RATED. -/
def TND_LIFE_RATED : Fld := ⟨220, .bay, 0x28, [], 0, 16, .ro, 0, .cold, false⟩
/-- TND_LIFE.SPARE. -/
def TND_LIFE_SPARE : Fld := ⟨221, .bay, 0x28, [], 16, 16, .ro, 0, .cold, false⟩
/-- TND_WEARWARN.THRESH. -/
def TND_WEARWARN_THRESH : Fld := ⟨222, .bay, 0x2C, [], 0, 16, .rw, 0x64, .cold, false⟩
/-- TND_ERRINFO.CONTEXT. -/
def TND_ERRINFO_CONTEXT : Fld := ⟨223, .bay, 0x30, [], 0, 10, .ro, 0, .chip, false⟩
/-- TND_ERRINFO.STATUS. -/
def TND_ERRINFO_STATUS : Fld := ⟨224, .bay, 0x30, [], 10, 4, .ro, 0, .chip, false⟩
/-- TND_ERRINFO.WRITE. -/
def TND_ERRINFO_WRITE : Fld := ⟨225, .bay, 0x30, [], 14, 1, .ro, 0, .chip, false⟩
/-- TND_ERRINFO.MORE. -/
def TND_ERRINFO_MORE : Fld := ⟨226, .bay, 0x30, [], 30, 1, .ro, 0, .chip, false⟩
/-- TND_ERRINFO.VALID. -/
def TND_ERRINFO_VALID : Fld := ⟨227, .bay, 0x30, [], 31, 1, .w1c, 0, .chip, false⟩
/-- TND_JRNLEN.LEN. -/
def TND_JRNLEN_LEN : Fld := ⟨228, .bay, 0x44, [], 0, 32, .rw, 0, .cold, false⟩
/-- TND_HELD.COUNT. -/
def TND_HELD_COUNT : Fld := ⟨229, .bay, 0x48, [], 0, 11, .ro, 0, .chip, false⟩
/-- TND_RDBYTES.BYTES. -/
def TND_RDBYTES_BYTES : Fld := ⟨230, .bay, 0x50, [], 0, 64, .ro, 0, .cold, true⟩
/-- TND_WRBYTES.BYTES. -/
def TND_WRBYTES_BYTES : Fld := ⟨231, .bay, 0x58, [], 0, 64, .ro, 0, .cold, true⟩
/-- TND_MAINT.KIND. -/
def TND_MAINT_KIND : Fld := ⟨232, .bay, 0x60, [], 0, 2, .rw, 0, .cold, false⟩
/-- TND_MAINT.START. -/
def TND_MAINT_START : Fld := ⟨233, .bay, 0x60, [], 2, 1, .w1s, 0, .cold, false⟩
/-- TND_MAINT.STOP. -/
def TND_MAINT_STOP : Fld := ⟨234, .bay, 0x60, [], 3, 1, .w1s, 0, .cold, false⟩
/-- TND_MAINT.BUSY. -/
def TND_MAINT_BUSY : Fld := ⟨235, .bay, 0x60, [], 4, 1, .ro, 0, .cold, false⟩
/-- TND_MAINT.MEDIAERR. -/
def TND_MAINT_MEDIAERR : Fld := ⟨236, .bay, 0x60, [], 5, 1, .w1c, 0, .cold, false⟩
/-- TND_MAINT.ERR. -/
def TND_MAINT_ERR : Fld := ⟨237, .bay, 0x60, [], 6, 1, .w1c, 0, .cold, false⟩
/-- TND_MAINT.LIMIT. -/
def TND_MAINT_LIMIT : Fld := ⟨238, .bay, 0x60, [], 16, 16, .rw, 0x258, .cold, false⟩
/-- LNK_LANESTAT.SIGDET. -/
def LNK_LANESTAT_SIGDET : Fld := ⟨239, .lane, 0x0, [(4096, 24)], 0, 1, .ro, 0, .cold, false⟩
/-- LNK_LANESTAT.SYNC. -/
def LNK_LANESTAT_SYNC : Fld := ⟨240, .lane, 0x0, [(4096, 24)], 1, 1, .ro, 0, .cold, false⟩
/-- LNK_LANESTAT.DONE. -/
def LNK_LANESTAT_DONE : Fld := ⟨241, .lane, 0x0, [(4096, 24)], 2, 1, .ro, 0, .cold, false⟩
/-- LNK_LANESTAT.PARTNER. -/
def LNK_LANESTAT_PARTNER : Fld := ⟨242, .lane, 0x0, [(4096, 24)], 3, 7, .ro, 0, .cold, false⟩
/-- LNK_FECCE.COUNT. -/
def LNK_FECCE_COUNT : Fld := ⟨243, .lane, 0xC, [(4096, 24)], 0, 32, .rc, 0, .chip, false⟩
/-- LNK_FECUE.COUNT. -/
def LNK_FECUE_COUNT : Fld := ⟨244, .lane, 0x10, [(4096, 24)], 0, 32, .rc, 0, .chip, false⟩
/-- LNK_PRBSERR.COUNT. -/
def LNK_PRBSERR_COUNT : Fld := ⟨245, .lane, 0x14, [(4096, 24)], 0, 32, .rc, 0, .chip, false⟩
/-- LNK_LANECTL.TEST. -/
def LNK_LANECTL_TEST : Fld := ⟨246, .lane, 0x18, [(4096, 24)], 0, 1, .rw, 0, .cold, false⟩
/-- LNK_LANECTL.PATTERN. -/
def LNK_LANECTL_PATTERN : Fld := ⟨247, .lane, 0x18, [(4096, 24)], 1, 1, .rw, 0, .cold, false⟩
/-- LNK_LANECTL.LOOP. -/
def LNK_LANECTL_LOOP : Fld := ⟨248, .lane, 0x18, [(4096, 24)], 2, 1, .rw, 0, .cold, false⟩
/-- LNK_INJ.EN. -/
def LNK_INJ_EN : Fld := ⟨249, .lane, 0x1C, [(4096, 24)], 0, 1, .rw, 0, .chip, false⟩
/-- LNK_INJ.ONCE. -/
def LNK_INJ_ONCE : Fld := ⟨250, .lane, 0x1C, [(4096, 24)], 1, 1, .rw, 0, .chip, false⟩
/-- LNK_INJ.COUNT. -/
def LNK_INJ_COUNT : Fld := ⟨251, .lane, 0x1C, [(4096, 24)], 2, 5, .rw, 1, .chip, false⟩
/-- LNK_INJ.EVERY. -/
def LNK_INJ_EVERY : Fld := ⟨252, .lane, 0x1C, [(4096, 24)], 7, 5, .rw, 0, .chip, false⟩
/-- LNK_CTL.ENABLE. -/
def LNK_CTL_ENABLE : Fld := ⟨253, .lane, 0x800, [(4096, 24)], 0, 1, .rw, 0, .cold, false⟩
/-- LNK_CTL.TRAIN. -/
def LNK_CTL_TRAIN : Fld := ⟨254, .lane, 0x800, [(4096, 24)], 1, 1, .w1s, 0, .cold, false⟩
/-- LNK_CTL.CPL. -/
def LNK_CTL_CPL : Fld := ⟨255, .lane, 0x800, [(4096, 24)], 2, 1, .ro, 0, .cold, false⟩
/-- LNK_CTL.RETRYTMO. -/
def LNK_CTL_RETRYTMO : Fld := ⟨256, .lane, 0x800, [(4096, 24)], 3, 12, .rw, 0x7D0, .cold, false⟩
/-- LNK_CTL.VEC. -/
def LNK_CTL_VEC : Fld := ⟨257, .lane, 0x800, [(4096, 24)], 15, 11, .rw, 0, .cold, false⟩
/-- LNK_STATE.STATE. -/
def LNK_STATE_STATE : Fld := ⟨258, .lane, 0x804, [(4096, 24)], 0, 3, .ro, 0, .cold, false⟩
/-- LNK_STATE.CODE. -/
def LNK_STATE_CODE : Fld := ⟨259, .lane, 0x804, [(4096, 24)], 3, 4, .ro, 0, .cold, false⟩
/-- LNK_STATE.TRAINED. -/
def LNK_STATE_TRAINED : Fld := ⟨260, .lane, 0x804, [(4096, 24)], 7, 4, .ro, 0, .cold, false⟩
/-- LNK_ROLE.EPOCH. -/
def LNK_ROLE_EPOCH : Fld := ⟨261, .lane, 0x808, [(4096, 24)], 0, 8, .ro, 0, .chip, false⟩
/-- LNK_RETRY.COUNT. -/
def LNK_RETRY_COUNT : Fld := ⟨262, .lane, 0x80C, [(4096, 24)], 0, 32, .rc, 0, .chip, false⟩
/-- LNK_LOST.COUNT. -/
def LNK_LOST_COUNT : Fld := ⟨263, .lane, 0x810, [(4096, 24)], 0, 32, .rc, 0, .chip, false⟩
/-- LNK_EVENT.UP. -/
def LNK_EVENT_UP : Fld := ⟨264, .lane, 0x814, [(4096, 24)], 0, 1, .w1c, 0, .cold, false⟩
/-- LNK_EVENT.DOWN. -/
def LNK_EVENT_DOWN : Fld := ⟨265, .lane, 0x814, [(4096, 24)], 1, 1, .w1c, 0, .cold, false⟩
/-- LNK_EVENT.FECUE. -/
def LNK_EVENT_FECUE : Fld := ⟨266, .lane, 0x814, [(4096, 24)], 2, 1, .w1c, 0, .cold, false⟩
/-- FAB_STATE.STAGE. -/
def FAB_STATE_STAGE : Fld := ⟨267, .fab, 0x0, [], 0, 2, .ro, 0, .carriage, false⟩
/-- FAB_STATE.LOADED. -/
def FAB_STATE_LOADED : Fld := ⟨268, .fab, 0x0, [], 2, 1, .ro, 0, .cold, false⟩
/-- FAB_CLKCFGn.DIV. -/
def FAB_CLKCFG_DIV : Fld := ⟨269, .fab, 0x10, [(4, 8)], 0, 8, .rw, 8, .cold, false⟩
/-- FAB_CLKCFGn.EN. -/
def FAB_CLKCFG_EN : Fld := ⟨270, .fab, 0x10, [(4, 8)], 8, 1, .rw, 0, .cold, false⟩
/-- FAB_CLKCFGn.RUNNING. -/
def FAB_CLKCFG_RUNNING : Fld := ⟨271, .fab, 0x10, [(4, 8)], 9, 1, .ro, 0, .cold, false⟩
/-- FAB_SCRUB.START. -/
def FAB_SCRUB_START : Fld := ⟨272, .fab, 0x40, [], 0, 1, .w1s, 0, .chip, false⟩
/-- FAB_SCRUB.BUSY. -/
def FAB_SCRUB_BUSY : Fld := ⟨273, .fab, 0x40, [], 1, 1, .ro, 0, .chip, false⟩
/-- FAB_SCRUBCE.COUNT. -/
def FAB_SCRUBCE_COUNT : Fld := ⟨274, .fab, 0x44, [], 0, 32, .rc, 0, .chip, false⟩
/-- FAB_SCRUBUE.COUNT. -/
def FAB_SCRUBUE_COUNT : Fld := ⟨275, .fab, 0x48, [], 0, 32, .rc, 0, .chip, false⟩
/-- FAB_PORTCTXn.CONTEXT. -/
def FAB_PORTCTX_CONTEXT : Fld := ⟨276, .fab, 0x100, [(16, 16)], 0, 10, .ro, 0, .carriage, false⟩
/-- FAB_PORTCTXn.BOUND. -/
def FAB_PORTCTX_BOUND : Fld := ⟨277, .fab, 0x100, [(16, 16)], 31, 1, .ro, 0, .carriage, false⟩
/-- FAB_ROLEn.EPOCH. -/
def FAB_ROLE_EPOCH : Fld := ⟨278, .fab, 0x104, [(16, 16)], 0, 8, .ro, 0, .chip, false⟩
/-- FAB_PORTCTLn.CLK. -/
def FAB_PORTCTL_CLK : Fld := ⟨279, .fab, 0x108, [(16, 16)], 0, 3, .ro, 0, .cold, false⟩
/-- FAB_PORTSTATn.FCODE. -/
def FAB_PORTSTAT_FCODE : Fld := ⟨280, .fab, 0x10C, [(16, 16)], 0, 4, .ro, 0, .context, false⟩
/-- FAB_PORTSTATn.MORE. -/
def FAB_PORTSTAT_MORE : Fld := ⟨281, .fab, 0x10C, [(16, 16)], 30, 1, .ro, 0, .context, false⟩
/-- FAB_PORTSTATn.VALID. -/
def FAB_PORTSTAT_VALID : Fld := ⟨282, .fab, 0x10C, [(16, 16)], 31, 1, .w1c, 0, .context, false⟩
/-- IOB_BANK.VSEL. -/
def IOB_BANK_VSEL : Fld := ⟨283, .iob, 0x0, [], 0, 1, .ro, 0, .cold, false⟩
/-- IOB_BANK.VSENSE. -/
def IOB_BANK_VSENSE : Fld := ⟨284, .iob, 0x0, [], 1, 1, .ro, 0, .cold, false⟩
/-- IOB_BANK.VERR. -/
def IOB_BANK_VERR : Fld := ⟨285, .iob, 0x0, [], 2, 1, .ro, 0, .cold, false⟩
/-- IOB_CFGn.OUT. -/
def IOB_CFG_OUT : Fld := ⟨286, .iob, 0x100, [(16, 24)], 0, 1, .ro, 0, .cold, false⟩
/-- IOB_CFGn.DDR. -/
def IOB_CFG_DDR : Fld := ⟨287, .iob, 0x100, [(16, 24)], 1, 1, .ro, 0, .cold, false⟩
/-- IOB_CFGn.DRIVE. -/
def IOB_CFG_DRIVE : Fld := ⟨288, .iob, 0x100, [(16, 24)], 2, 2, .ro, 0, .cold, false⟩
/-- IOB_CFGn.FAST. -/
def IOB_CFG_FAST : Fld := ⟨289, .iob, 0x100, [(16, 24)], 4, 1, .ro, 0, .cold, false⟩
/-- IOB_CFGn.PULL. -/
def IOB_CFG_PULL : Fld := ⟨290, .iob, 0x100, [(16, 24)], 5, 2, .ro, 0, .cold, false⟩
/-- IOB_CFGn.OD. -/
def IOB_CFG_OD : Fld := ⟨291, .iob, 0x100, [(16, 24)], 7, 1, .ro, 0, .cold, false⟩
/-- IOB_CFGn.DLYPATH. -/
def IOB_CFG_DLYPATH : Fld := ⟨292, .iob, 0x100, [(16, 24)], 8, 1, .ro, 0, .cold, false⟩
/-- IOB_CFGn.CLK. -/
def IOB_CFG_CLK : Fld := ⟨293, .iob, 0x100, [(16, 24)], 9, 3, .ro, 0, .cold, false⟩
/-- IOB_DLYn.TARGET. -/
def IOB_DLY_TARGET : Fld := ⟨294, .iob, 0x104, [(16, 24)], 0, 9, .rw, 0, .cold, false⟩
/-- IOB_DLYn.CURRENT. -/
def IOB_DLY_CURRENT : Fld := ⟨295, .iob, 0x104, [(16, 24)], 16, 9, .ro, 0, .cold, false⟩
/-- IOB_PINn.LEVEL. -/
def IOB_PIN_LEVEL : Fld := ⟨296, .iob, 0x108, [(16, 24)], 0, 1, .ro, 0, .cold, false⟩
/-- IOB_PINn.DRIVEN. -/
def IOB_PIN_DRIVEN : Fld := ⟨297, .iob, 0x108, [(16, 24)], 1, 1, .ro, 0, .cold, false⟩
/-- IOB_PINn.HELD. -/
def IOB_PIN_HELD : Fld := ⟨298, .iob, 0x108, [(16, 24)], 2, 1, .ro, 0, .cold, false⟩
/-- CFG_STATE.STATE. -/
def CFG_STATE_STATE : Fld := ⟨299, .dev, 0x200000, [], 0, 3, .ro, 0, .cold, false⟩
/-- CFG_STATE.CODE. -/
def CFG_STATE_CODE : Fld := ⟨300, .dev, 0x200000, [], 4, 4, .ro, 0, .cold, false⟩
/-- CFG_STATE.SRC. -/
def CFG_STATE_SRC : Fld := ⟨301, .dev, 0x200000, [], 8, 2, .ro, 0, .cold, false⟩
/-- CFG_STATE.EVENT. -/
def CFG_STATE_EVENT : Fld := ⟨302, .dev, 0x200000, [], 31, 1, .w1c, 0, .cold, false⟩
/-- CFG_CTL.START. -/
def CFG_CTL_START : Fld := ⟨303, .dev, 0x200004, [], 0, 1, .w1s, 0, .cold, false⟩
/-- CFG_CTL.ABORT. -/
def CFG_CTL_ABORT : Fld := ⟨304, .dev, 0x200004, [], 1, 1, .w1s, 0, .cold, false⟩
/-- CFG_CTL.SRC. -/
def CFG_CTL_SRC : Fld := ⟨305, .dev, 0x200004, [], 2, 2, .rw, 0, .cold, false⟩
/-- CFG_CTL.UNIT. -/
def CFG_CTL_UNIT : Fld := ⟨306, .dev, 0x200004, [], 4, 2, .rw, 0, .cold, false⟩
/-- CFG_CTL.VEC. -/
def CFG_CTL_VEC : Fld := ⟨307, .dev, 0x200004, [], 6, 11, .rw, 0, .cold, false⟩
/-- CFG_CTL.PORT. -/
def CFG_CTL_PORT : Fld := ⟨308, .dev, 0x200004, [], 17, 2, .rw, 0, .cold, false⟩
/-- CFG_TMO.MS. -/
def CFG_TMO_MS : Fld := ⟨309, .dev, 0x200010, [], 0, 16, .rw, 0x3E8, .cold, false⟩
/-- CFG_SLOT.SLOT. -/
def CFG_SLOT_SLOT : Fld := ⟨310, .dev, 0x200014, [], 0, 16, .rw, 0, .cold, false⟩
/-- CFG_STRAP.MODE. -/
def CFG_STRAP_MODE : Fld := ⟨311, .dev, 0x200018, [], 0, 2, .ro, 0, .cold, false⟩
/-- CFG_STRAP.ADDR. -/
def CFG_STRAP_ADDR : Fld := ⟨312, .dev, 0x200018, [], 2, 6, .ro, 0, .cold, false⟩
/-- CFG_BYTES.BYTES. -/
def CFG_BYTES_BYTES : Fld := ⟨313, .dev, 0x200020, [], 0, 64, .ro, 0, .cold, true⟩
/-- CFG_IMGID.IMGID. -/
def CFG_IMGID_IMGID : Fld := ⟨314, .dev, 0x200028, [], 0, 32, .ro, 0, .cold, false⟩
/-- CFG_PARTMAP.PARTMAP. -/
def CFG_PARTMAP_PARTMAP : Fld := ⟨315, .dev, 0x20002C, [], 0, 8, .ro, 0, .cold, false⟩
/-- CFG_FAILSECT.SECT. -/
def CFG_FAILSECT_SECT : Fld := ⟨316, .dev, 0x200030, [], 0, 16, .ro, 0, .cold, false⟩
/-- KEY_STATUS.FUSEKEY. -/
def KEY_STATUS_FUSEKEY : Fld := ⟨317, .dev, 0x201000, [], 0, 1, .ro, 0, .none, false⟩
/-- KEY_STATUS.RAMVALID. -/
def KEY_STATUS_RAMVALID : Fld := ⟨318, .dev, 0x201000, [], 1, 1, .ro, 0, .none, false⟩
/-- KEY_STATUS.VBATOK. -/
def KEY_STATUS_VBATOK : Fld := ⟨319, .dev, 0x201000, [], 2, 1, .ro, 1, .none, false⟩
/-- KEY_POLICY.ENCREQ. -/
def KEY_POLICY_ENCREQ : Fld := ⟨320, .dev, 0x201004, [], 0, 1, .ro, 0, .none, false⟩
/-- KEY_POLICY.FUSEONLY. -/
def KEY_POLICY_FUSEONLY : Fld := ⟨321, .dev, 0x201004, [], 1, 1, .ro, 0, .none, false⟩
/-- KEY_CTL.RAMLOCK. -/
def KEY_CTL_RAMLOCK : Fld := ⟨322, .dev, 0x201008, [], 0, 1, .w1s, 0, .cold, false⟩
/-- KEY_CTL.RAMCOMMIT. -/
def KEY_CTL_RAMCOMMIT : Fld := ⟨323, .dev, 0x201008, [], 1, 1, .w1s, 0, .cold, false⟩
/-- KEY_CTL.RAMCLEAR. -/
def KEY_CTL_RAMCLEAR : Fld := ⟨324, .dev, 0x201008, [], 2, 1, .w1s, 0, .cold, false⟩
/-- KEY_RAMDATAn.DATA. -/
def KEY_RAMDATA_DATA : Fld := ⟨325, .dev, 0x201010, [(4, 8)], 0, 32, .wo, 0, .cold, false⟩
/-- HCL_CTLi.RUN. -/
def HCL_CTL_RUN : Fld := ⟨326, .hcl, 0x0, [(4, 4)], 0, 1, .ro, 0, .carriage, false⟩
/-- HCL_CTLi.WFI. -/
def HCL_CTL_WFI : Fld := ⟨327, .hcl, 0x0, [(4, 4)], 1, 1, .ro, 0, .carriage, false⟩
/-- HCL_RESETVEC.VEC. -/
def HCL_RESETVEC_VEC : Fld := ⟨328, .hcl, 0x10, [], 0, 64, .ro, 0, .carriage, true⟩
/-- HCL_ROLE.EPOCH. -/
def HCL_ROLE_EPOCH : Fld := ⟨329, .hcl, 0x18, [], 0, 8, .ro, 0, .chip, false⟩
/-- HCL_ACCERR.HART. -/
def HCL_ACCERR_HART : Fld := ⟨330, .hcl, 0x40, [], 0, 2, .ro, 0, .carriage, false⟩
/-- HCL_ACCERR.WRITE. -/
def HCL_ACCERR_WRITE : Fld := ⟨331, .hcl, 0x40, [], 2, 1, .ro, 0, .carriage, false⟩
/-- HCL_ACCERR.MORE. -/
def HCL_ACCERR_MORE : Fld := ⟨332, .hcl, 0x40, [], 30, 1, .ro, 0, .carriage, false⟩
/-- HCL_ACCERR.VALID. -/
def HCL_ACCERR_VALID : Fld := ⟨333, .hcl, 0x40, [], 31, 1, .w1c, 0, .carriage, false⟩
/-- FW_VERn.BUILD. -/
def FW_VER_BUILD : Fld := ⟨334, .hcl, 0x8000, [(64, 4)], 0, 16, .ro, 0, .cold, false⟩
/-- FW_VERn.MINOR. -/
def FW_VER_MINOR : Fld := ⟨335, .hcl, 0x8000, [(64, 4)], 16, 8, .ro, 0, .cold, false⟩
/-- FW_VERn.IFACE. -/
def FW_VER_IFACE : Fld := ⟨336, .hcl, 0x8000, [(64, 4)], 24, 8, .ro, 0, .cold, false⟩
/-- FW_DIGESTn_w.DIGEST. -/
def FW_DIGEST_DIGEST : Fld := ⟨337, .hcl, 0x8004, [(64, 4), (4, 12)], 0, 32, .ro, 0, .cold, false⟩
/-- QUE_ADMSQ.ADDR. -/
def QUE_ADMSQ_ADDR : Fld := ⟨338, .que, 0x0, [], 0, 64, .rw, 0, .chip, true⟩
/-- QUE_ADMCQ.ADDR. -/
def QUE_ADMCQ_ADDR : Fld := ⟨339, .que, 0x8, [], 0, 64, .rw, 0, .chip, true⟩
/-- QUE_ADMCFG.LOG2. -/
def QUE_ADMCFG_LOG2 : Fld := ⟨340, .que, 0x10, [], 0, 4, .rw, 2, .chip, false⟩
/-- QUE_ADMCFG.VEC. -/
def QUE_ADMCFG_VEC : Fld := ⟨341, .que, 0x10, [], 4, 11, .rw, 0, .chip, false⟩
/-- QUE_ADMCFG.EN. -/
def QUE_ADMCFG_EN : Fld := ⟨342, .que, 0x10, [], 31, 1, .rw, 0, .chip, false⟩
/-- QUE_ADMTAIL.INDEX. -/
def QUE_ADMTAIL_INDEX : Fld := ⟨343, .que, 0x14, [], 0, 12, .rw, 0, .chip, false⟩
/-- QUE_ADMCQHEAD.INDEX. -/
def QUE_ADMCQHEAD_INDEX : Fld := ⟨344, .que, 0x18, [], 0, 12, .rw, 0, .chip, false⟩
/-- QUE_ROLE.PORT. -/
def QUE_ROLE_PORT : Fld := ⟨345, .que, 0x1C, [], 0, 8, .ro, 0, .chip, false⟩
/-- QUE_ROLE.DMA. -/
def QUE_ROLE_DMA : Fld := ⟨346, .que, 0x1C, [], 8, 8, .ro, 0, .chip, false⟩
/-- QUE_ROLE.CC. -/
def QUE_ROLE_CC : Fld := ⟨347, .que, 0x1C, [], 16, 8, .ro, 0, .chip, false⟩
/-- QUE_CTXSEL.CONTEXT. -/
def QUE_CTXSEL_CONTEXT : Fld := ⟨348, .que, 0x20, [], 0, 10, .rw, 0, .chip, false⟩
/-- QUE_CTXINFO.STATE. -/
def QUE_CTXINFO_STATE : Fld := ⟨349, .que, 0x24, [], 0, 2, .ro, 0, .chip, false⟩
/-- QUE_CTXINFO.PART. -/
def QUE_CTXINFO_PART : Fld := ⟨350, .que, 0x24, [], 2, 2, .ro, 0, .chip, false⟩
/-- QUE_CTXINFO.PORT. -/
def QUE_CTXINFO_PORT : Fld := ⟨351, .que, 0x24, [], 4, 2, .ro, 0, .chip, false⟩
/-- QUE_CTXINFO.ISVF. -/
def QUE_CTXINFO_ISVF : Fld := ⟨352, .que, 0x24, [], 6, 1, .ro, 0, .chip, false⟩
/-- QUE_CTXINFO.VF. -/
def QUE_CTXINFO_VF : Fld := ⟨353, .que, 0x24, [], 7, 8, .ro, 0, .chip, false⟩
/-- QUE_CTXINFO.COACHES. -/
def QUE_CTXINFO_COACHES : Fld := ⟨354, .que, 0x24, [], 15, 7, .ro, 0, .chip, false⟩
/-- QUE_DBDROP.COUNT. -/
def QUE_DBDROP_COUNT : Fld := ⟨355, .que, 0x28, [], 0, 32, .rc, 0, .chip, false⟩
/-- QUE_VECDROP.COUNT. -/
def QUE_VECDROP_COUNT : Fld := ⟨356, .que, 0x2C, [], 0, 32, .rc, 0, .chip, false⟩
/-- QUE_WODONE.COUNT. -/
def QUE_WODONE_COUNT : Fld := ⟨357, .que, 0x30, [], 0, 64, .ro, 0, .chip, true⟩
/-- PWR_CMD.STATE. -/
def PWR_CMD_STATE : Fld := ⟨358, .dev, 0x100000, [], 0, 2, .wo, 0, .none, false⟩
/-- PWR_CMD.CARMASK. -/
def PWR_CMD_CARMASK : Fld := ⟨359, .dev, 0x100000, [], 4, 4, .wo, 0, .none, false⟩
/-- PWR_STATUS.PHASE. -/
def PWR_STATUS_PHASE : Fld := ⟨360, .dev, 0x100004, [], 0, 2, .ro, 0, .cold, false⟩
/-- PWR_STATUS.REFUSER. -/
def PWR_STATUS_REFUSER : Fld := ⟨361, .dev, 0x100004, [], 2, 4, .ro, 0, .cold, false⟩
/-- PWR_STATUS.REASON. -/
def PWR_STATUS_REASON : Fld := ⟨362, .dev, 0x100004, [], 6, 4, .ro, 0, .cold, false⟩
/-- PWR_STATUS.CARRIAGE. -/
def PWR_STATUS_CARRIAGE : Fld := ⟨363, .dev, 0x100004, [], 10, 2, .ro, 0, .cold, false⟩
/-- PWR_STATUS.REFUSED. -/
def PWR_STATUS_REFUSED : Fld := ⟨364, .dev, 0x100004, [], 12, 1, .w1c, 0, .cold, false⟩
/-- PWR_STATUS.CMDIGN. -/
def PWR_STATUS_CMDIGN : Fld := ⟨365, .dev, 0x100004, [], 13, 1, .w1c, 0, .cold, false⟩
/-- PWR_STATUS.PROFBUSY. -/
def PWR_STATUS_PROFBUSY : Fld := ⟨366, .dev, 0x100004, [], 14, 1, .ro, 0, .cold, false⟩
/-- PWR_STATUS.EVENT. -/
def PWR_STATUS_EVENT : Fld := ⟨367, .dev, 0x100004, [], 31, 1, .w1c, 0, .cold, false⟩
/-- PWR_CFG.KEEPPORT. -/
def PWR_CFG_KEEPPORT : Fld := ⟨368, .dev, 0x100008, [], 0, 2, .rw, 0, .cold, false⟩
/-- PWR_CFG.VEC. -/
def PWR_CFG_VEC : Fld := ⟨369, .dev, 0x100008, [], 2, 11, .rw, 0, .cold, false⟩
/-- PWR_CFG.PORT. -/
def PWR_CFG_PORT : Fld := ⟨370, .dev, 0x100008, [], 13, 2, .rw, 0, .cold, false⟩
/-- PWR_PROFILE.SEL. -/
def PWR_PROFILE_SEL : Fld := ⟨371, .dev, 0x10000C, [], 0, 2, .rw, 0, .cold, false⟩
/-- PWR_PROFILE.STEPV. -/
def PWR_PROFILE_STEPV : Fld := ⟨372, .dev, 0x10000C, [], 8, 8, .rw, 0x46, .cold, false⟩
/-- PWR_GATE.IDLE. -/
def PWR_GATE_IDLE : Fld := ⟨373, .dev, 0x100010, [], 0, 20, .rw, 0x400, .cold, false⟩
/-- PWR_THRCTL.EN. -/
def PWR_THRCTL_EN : Fld := ⟨374, .dev, 0x100014, [], 0, 1, .rw, 1, .cold, false⟩
/-- PWR_THRCTL.ACTIVE. -/
def PWR_THRCTL_ACTIVE : Fld := ⟨375, .dev, 0x100014, [], 1, 1, .ro, 0, .cold, false⟩
/-- PWR_THRCTL.HARD. -/
def PWR_THRCTL_HARD : Fld := ⟨376, .dev, 0x100014, [], 2, 1, .w1c, 0, .cold, false⟩
/-- PWR_THRCTL.TSOFT. -/
def PWR_THRCTL_TSOFT : Fld := ⟨377, .dev, 0x100014, [], 8, 8, .rw, 0x5F, .cold, false⟩
/-- PWR_PLIM.WATTS. -/
def PWR_PLIM_WATTS : Fld := ⟨378, .dev, 0x100018, [], 0, 16, .rw, 0xAF0, .cold, false⟩
/-- PWR_MEAS.WATTS. -/
def PWR_MEAS_WATTS : Fld := ⟨379, .dev, 0x10001C, [], 0, 16, .ro, 0, .cold, false⟩
/-- PWR_MEAS.TMAX. -/
def PWR_MEAS_TMAX : Fld := ⟨380, .dev, 0x10001C, [], 16, 8, .ro, 0, .cold, false⟩
/-- PWR_PADREL.CAR. -/
def PWR_PADREL_CAR : Fld := ⟨381, .dev, 0x100020, [], 0, 4, .w1s, 0, .cold, false⟩
/-- CLK_COACHF.MHZ. -/
def CLK_COACHF_MHZ : Fld := ⟨382, .dev, 0x100804, [], 0, 11, .ro, 0, .cold, false⟩
/-- REC_FAULT.CONTEXT. -/
def REC_FAULT_CONTEXT : Fld := ⟨383, .dev, 0x300000, [], 0, 10, .ro, 0, .cold, false⟩
/-- REC_FAULT.CTXV. -/
def REC_FAULT_CTXV : Fld := ⟨384, .dev, 0x300000, [], 10, 1, .ro, 0, .cold, false⟩
/-- REC_FAULT.LEVEL. -/
def REC_FAULT_LEVEL : Fld := ⟨385, .dev, 0x300000, [], 11, 3, .ro, 0, .cold, false⟩
/-- REC_FAULT.CAUSE. -/
def REC_FAULT_CAUSE : Fld := ⟨386, .dev, 0x300000, [], 14, 8, .ro, 0, .cold, false⟩
/-- REC_FAULT.MORE. -/
def REC_FAULT_MORE : Fld := ⟨387, .dev, 0x300000, [], 30, 1, .ro, 0, .cold, false⟩
/-- REC_FAULT.VALID. -/
def REC_FAULT_VALID : Fld := ⟨388, .dev, 0x300000, [], 31, 1, .w1c, 0, .cold, false⟩
/-- REC_FAULTUNIT.UNIT. -/
def REC_FAULTUNIT_UNIT : Fld := ⟨389, .dev, 0x300004, [], 0, 10, .ro, 0, .cold, false⟩
/-- REC_FAULTUNIT.CODE. -/
def REC_FAULTUNIT_CODE : Fld := ⟨390, .dev, 0x300004, [], 16, 8, .ro, 0, .cold, false⟩
/-- REC_CTXCMD.CONTEXT. -/
def REC_CTXCMD_CONTEXT : Fld := ⟨391, .dev, 0x300008, [], 0, 10, .wo, 0, .none, false⟩
/-- REC_CTXCMD.OP. -/
def REC_CTXCMD_OP : Fld := ⟨392, .dev, 0x300008, [], 10, 2, .wo, 0, .none, false⟩
/-- REC_CTXSTAT.CMDERR. -/
def REC_CTXSTAT_CMDERR : Fld := ⟨393, .dev, 0x30000C, [], 0, 1, .w1c, 0, .cold, false⟩
/-- REC_SCHEDTMO.US. -/
def REC_SCHEDTMO_US : Fld := ⟨394, .dev, 0x300018, [], 0, 16, .rw, 0x3E8, .cold, false⟩
/-- REC_STATUS.PFW. -/
def REC_STATUS_PFW : Fld := ⟨395, .dev, 0x30001C, [], 0, 1, .ro, 0, .cold, false⟩
/-- REC_STATUS.PMFAIL. -/
def REC_STATUS_PMFAIL : Fld := ⟨396, .dev, 0x30001C, [], 1, 1, .ro, 0, .cold, false⟩
/-- REC_STATUS.PWRCYC. -/
def REC_STATUS_PWRCYC : Fld := ⟨397, .dev, 0x30001C, [], 2, 1, .ro, 0, .cold, false⟩
/-- REC_STATUS.LASTCHIP. -/
def REC_STATUS_LASTCHIP : Fld := ⟨398, .dev, 0x30001C, [], 3, 8, .ro, 0, .cold, false⟩
/-- REC_STATUS.EVENT. -/
def REC_STATUS_EVENT : Fld := ⟨399, .dev, 0x30001C, [], 31, 1, .w1c, 0, .cold, false⟩
/-- REC_CTL.CHIPRST. -/
def REC_CTL_CHIPRST : Fld := ⟨400, .dev, 0x300020, [], 0, 1, .w1s, 0, .chip, false⟩
/-- REC_CTL.VEC. -/
def REC_CTL_VEC : Fld := ⟨401, .dev, 0x300020, [], 1, 11, .rw, 0, .cold, false⟩
/-- REC_CTL.PORT. -/
def REC_CTL_PORT : Fld := ⟨402, .dev, 0x300020, [], 12, 2, .rw, 0, .cold, false⟩
/-- REC_CHIPCNT.COUNT. -/
def REC_CHIPCNT_COUNT : Fld := ⟨403, .dev, 0x300024, [], 0, 32, .ro, 0, .cold, false⟩
/-- REC_MNTREQ.KIND. -/
def REC_MNTREQ_KIND : Fld := ⟨404, .dev, 0x300040, [], 0, 3, .wo, 0, .none, false⟩
/-- REC_MNTREQ.UNIT. -/
def REC_MNTREQ_UNIT : Fld := ⟨405, .dev, 0x300040, [], 3, 10, .wo, 0, .none, false⟩
/-- REC_MNTSTAT.RESULT. -/
def REC_MNTSTAT_RESULT : Fld := ⟨406, .dev, 0x300044, [], 0, 2, .ro, 0, .chip, false⟩
/-- REC_MNTSTAT.QUEUED. -/
def REC_MNTSTAT_QUEUED : Fld := ⟨407, .dev, 0x300044, [], 2, 5, .ro, 0, .chip, false⟩
/-- REC_MNTSTAT.RUNNING. -/
def REC_MNTSTAT_RUNNING : Fld := ⟨408, .dev, 0x300044, [], 7, 6, .ro, 0, .chip, false⟩
/-- REC_MNTSTAT.EVENT. -/
def REC_MNTSTAT_EVENT : Fld := ⟨409, .dev, 0x300044, [], 31, 1, .w1c, 0, .chip, false⟩
/-- REC_MNTDEFER.MS. -/
def REC_MNTDEFER_MS : Fld := ⟨410, .dev, 0x300048, [], 0, 16, .rw, 0x3E8, .cold, false⟩
/-- LOG_STATUS.BANK0OK. -/
def LOG_STATUS_BANK0OK : Fld := ⟨411, .dev, 0x308000, [], 0, 1, .ro, 1, .none, false⟩
/-- LOG_STATUS.BANK1OK. -/
def LOG_STATUS_BANK1OK : Fld := ⟨412, .dev, 0x308000, [], 1, 1, .ro, 1, .none, false⟩
/-- LOG_STATUS.RDVALID. -/
def LOG_STATUS_RDVALID : Fld := ⟨413, .dev, 0x308000, [], 2, 1, .ro, 0, .none, false⟩
/-- LOG_SEQ.NEXT. -/
def LOG_SEQ_NEXT : Fld := ⟨414, .dev, 0x308004, [], 0, 32, .ro, 0, .none, false⟩
/-- LOG_RDSEQ.SEQ. -/
def LOG_RDSEQ_SEQ : Fld := ⟨415, .dev, 0x308008, [], 0, 32, .rw, 0, .none, false⟩
/-- LOG_RDDATAw.WORD. -/
def LOG_RDDATA_WORD : Fld := ⟨416, .dev, 0x308010, [(4, 8)], 0, 32, .ro, 0, .none, false⟩
/-- LOG_LASTGASP.CODE. -/
def LOG_LASTGASP_CODE : Fld := ⟨417, .dev, 0x308040, [], 0, 16, .ro, 0, .none, false⟩
/-- LOG_LASTGASP.SOURCE. -/
def LOG_LASTGASP_SOURCE : Fld := ⟨418, .dev, 0x308040, [], 16, 10, .ro, 0, .none, false⟩
/-- LOG_LASTGASP.VALID. -/
def LOG_LASTGASP_VALID : Fld := ⟨419, .dev, 0x308040, [], 31, 1, .ro, 0, .none, false⟩
/-- LOG_PFWN.COUNT. -/
def LOG_PFWN_COUNT : Fld := ⟨420, .dev, 0x308044, [], 0, 11, .rw, 0x7FF, .none, false⟩
/-- CAR_REC.CAUSE. -/
def CAR_REC_CAUSE : Fld := ⟨421, .car, 0x0, [], 0, 8, .ro, 0, .cold, false⟩
/-- CAR_REC.COUNT. -/
def CAR_REC_COUNT : Fld := ⟨422, .car, 0x0, [], 16, 16, .ro, 0, .cold, false⟩
/-- CAR_COACHREC.LAST. -/
def CAR_COACHREC_LAST : Fld := ⟨423, .car, 0x4, [], 0, 7, .ro, 0, .cold, false⟩
/-- CAR_COACHREC.COUNT. -/
def CAR_COACHREC_COUNT : Fld := ⟨424, .car, 0x4, [], 16, 16, .ro, 0, .cold, false⟩
/-- CPL_CTL.MODE. -/
def CPL_CTL_MODE : Fld := ⟨425, .dev, 0x400000, [], 0, 2, .rw, 0, .cold, false⟩
/-- CPL_CTL.RESYNC. -/
def CPL_CTL_RESYNC : Fld := ⟨426, .dev, 0x400000, [], 2, 1, .w1s, 0, .chip, false⟩
/-- CPL_CTL.VEC. -/
def CPL_CTL_VEC : Fld := ⟨427, .dev, 0x400000, [], 3, 11, .rw, 0, .cold, false⟩
/-- CPL_CTL.PORT. -/
def CPL_CTL_PORT : Fld := ⟨428, .dev, 0x400000, [], 14, 2, .rw, 0, .cold, false⟩
/-- CPL_STATE.STATE. -/
def CPL_STATE_STATE : Fld := ⟨429, .dev, 0x400004, [], 0, 3, .ro, 0, .chip, false⟩
/-- CPL_STATE.REASON. -/
def CPL_STATE_REASON : Fld := ⟨430, .dev, 0x400004, [], 3, 4, .ro, 0, .chip, false⟩
/-- CPL_STATE.PALIVE. -/
def CPL_STATE_PALIVE : Fld := ⟨431, .dev, 0x400004, [], 7, 1, .ro, 0, .chip, false⟩
/-- CPL_STATE.WIT. -/
def CPL_STATE_WIT : Fld := ⟨432, .dev, 0x400004, [], 8, 1, .ro, 0, .chip, false⟩
/-- CPL_STATE.HBCUR. -/
def CPL_STATE_HBCUR : Fld := ⟨433, .dev, 0x400004, [], 9, 1, .ro, 0, .chip, false⟩
/-- CPL_STATE.EVENT. -/
def CPL_STATE_EVENT : Fld := ⟨434, .dev, 0x400004, [], 31, 1, .w1c, 0, .chip, false⟩
/-- CPL_CTXSEL.CONTEXT. -/
def CPL_CTXSEL_CONTEXT : Fld := ⟨435, .dev, 0x400010, [], 0, 10, .rw, 0, .chip, false⟩
/-- CPL_CTXROLE.ROLE. -/
def CPL_CTXROLE_ROLE : Fld := ⟨436, .dev, 0x400014, [], 0, 2, .rw, 0, .chip, false⟩
/-- CPL_SENTk.MSEQ. -/
def CPL_SENT_MSEQ : Fld := ⟨437, .dev, 0x400020, [(8, 2)], 0, 32, .ro, 0, .chip, false⟩
/-- CPL_ACKEDk.MSEQ. -/
def CPL_ACKED_MSEQ : Fld := ⟨438, .dev, 0x400024, [(8, 2)], 0, 32, .ro, 0, .chip, false⟩
/-- DEV_DBG.REQ. -/
def DEV_DBG_REQ : Fld := ⟨439, .dev, 0x400, [], 0, 2, .wo, 0, .none, false⟩
/-- DEV_DBG.LEVEL. -/
def DEV_DBG_LEVEL : Fld := ⟨440, .dev, 0x400, [], 2, 2, .ro, 0, .chip, false⟩
/-- DEV_DBG.FAILS. -/
def DEV_DBG_FAILS : Fld := ⟨441, .dev, 0x400, [], 4, 2, .ro, 0, .cold, false⟩
/-- DEV_DBG.LOCKED. -/
def DEV_DBG_LOCKED : Fld := ⟨442, .dev, 0x400, [], 6, 1, .ro, 0, .cold, false⟩
/-- DEV_DBG.EVENT. -/
def DEV_DBG_EVENT : Fld := ⟨443, .dev, 0x400, [], 31, 1, .w1c, 0, .chip, false⟩
/-- DEV_PERTSTR.EN. -/
def DEV_PERTSTR_EN : Fld := ⟨444, .dev, 0x440, [], 0, 1, .rw, 0, .chip, false⟩
/-- DEV_PERTSTR.LOG2P. -/
def DEV_PERTSTR_LOG2P : Fld := ⟨445, .dev, 0x440, [], 1, 4, .rw, 4, .chip, false⟩
/-- DEV_PERTSTR.STALL. -/
def DEV_PERTSTR_STALL : Fld := ⟨446, .dev, 0x440, [], 5, 11, .rw, 0, .chip, false⟩
/-- DEV_PERTSTR.CARMASK. -/
def DEV_PERTSTR_CARMASK : Fld := ⟨447, .dev, 0x440, [], 16, 4, .rw, 0, .chip, false⟩
/-- DEV_PERTNOC.EN. -/
def DEV_PERTNOC_EN : Fld := ⟨448, .dev, 0x444, [], 0, 1, .rw, 0, .chip, false⟩
/-- DEV_PERTNOC.CARRIAGE. -/
def DEV_PERTNOC_CARRIAGE : Fld := ⟨449, .dev, 0x444, [], 1, 2, .rw, 0, .chip, false⟩
/-- DEV_PERTNOC.ROUTER. -/
def DEV_PERTNOC_ROUTER : Fld := ⟨450, .dev, 0x444, [], 3, 6, .rw, 0, .chip, false⟩
/-- DEV_PERTNOC.PORT. -/
def DEV_PERTNOC_PORT : Fld := ⟨451, .dev, 0x444, [], 9, 3, .rw, 0, .chip, false⟩
/-- DEV_PERTNOC.HOLD. -/
def DEV_PERTNOC_HOLD : Fld := ⟨452, .dev, 0x444, [], 12, 8, .rw, 0, .chip, false⟩
/-- DEV_PERTMEM.EN. -/
def DEV_PERTMEM_EN : Fld := ⟨453, .dev, 0x448, [], 0, 1, .rw, 0, .chip, false⟩
/-- DEV_PERTMEM.EXTRA. -/
def DEV_PERTMEM_EXTRA : Fld := ⟨454, .dev, 0x448, [], 1, 7, .rw, 0, .chip, false⟩
/-- DEV_PERTMEM.CARMASK. -/
def DEV_PERTMEM_CARMASK : Fld := ⟨455, .dev, 0x448, [], 8, 4, .rw, 0, .chip, false⟩
/-- DEV_STRES.COACH. -/
def DEV_STRES_COACH : Fld := ⟨456, .dev, 0x460, [], 0, 7, .ro, 0, .cold, false⟩
/-- DEV_STRES.RESULT. -/
def DEV_STRES_RESULT : Fld := ⟨457, .dev, 0x460, [], 7, 2, .ro, 0, .cold, false⟩
/-- DEV_STRES.PART. -/
def DEV_STRES_PART : Fld := ⟨458, .dev, 0x460, [], 9, 6, .ro, 0, .cold, false⟩
/-- DEV_STRES.EVENT. -/
def DEV_STRES_EVENT : Fld := ⟨459, .dev, 0x460, [], 31, 1, .w1c, 0, .cold, false⟩
/-- DEV_STFAILw.FAIL. -/
def DEV_STFAIL_FAIL : Fld := ⟨460, .dev, 0x464, [(4, 3)], 0, 32, .ro, 0, .cold, false⟩
/-- DEV_FUSE.TARGET. -/
def DEV_FUSE_TARGET : Fld := ⟨461, .dev, 0x480, [], 0, 2, .rw, 0, .cold, false⟩
/-- DEV_FUSE.PROG. -/
def DEV_FUSE_PROG : Fld := ⟨462, .dev, 0x480, [], 2, 1, .w1s, 0, .cold, false⟩
/-- DEV_FUSE.LOCK. -/
def DEV_FUSE_LOCK : Fld := ⟨463, .dev, 0x480, [], 3, 1, .w1s, 0, .cold, false⟩
/-- DEV_FUSE.LOCKED. -/
def DEV_FUSE_LOCKED : Fld := ⟨464, .dev, 0x480, [], 4, 1, .ro, 0, .none, false⟩
/-- DEV_FUSE.DBGKEY. -/
def DEV_FUSE_DBGKEY : Fld := ⟨465, .dev, 0x480, [], 5, 1, .ro, 0, .none, false⟩
/-- DEV_FUSE.ERR. -/
def DEV_FUSE_ERR : Fld := ⟨466, .dev, 0x480, [], 6, 1, .w1c, 0, .cold, false⟩
/-- DEV_FUSEDATAw.DATA. -/
def DEV_FUSEDATA_DATA : Fld := ⟨467, .dev, 0x490, [(4, 8)], 0, 32, .wo, 0, .cold, false⟩
/-- DEV_SERIAL.SERIAL. -/
def DEV_SERIAL_SERIAL : Fld := ⟨468, .dev, 0x4, [], 0, 64, .ro, 0, .none, true⟩
/-- DEV_CARSTATE.CAR0. -/
def DEV_CARSTATE_CAR0 : Fld := ⟨469, .dev, 0xC, [], 0, 4, .ro, 4, .cold, false⟩
/-- DEV_CARSTATE.CAR1. -/
def DEV_CARSTATE_CAR1 : Fld := ⟨470, .dev, 0xC, [], 4, 4, .ro, 4, .cold, false⟩
/-- DEV_CARSTATE.CAR2. -/
def DEV_CARSTATE_CAR2 : Fld := ⟨471, .dev, 0xC, [], 8, 4, .ro, 4, .cold, false⟩
/-- DEV_CARSTATE.CAR3. -/
def DEV_CARSTATE_CAR3 : Fld := ⟨472, .dev, 0xC, [], 12, 4, .ro, 4, .cold, false⟩
/-- CLK_STATUS.LOCK0. -/
def CLK_STATUS_LOCK0 : Fld := ⟨473, .dev, 0x100800, [], 0, 4, .ro, 0, .cold, false⟩
/-- CLK_STATUS.LOCK1. -/
def CLK_STATUS_LOCK1 : Fld := ⟨474, .dev, 0x100800, [], 4, 4, .ro, 0, .cold, false⟩
/-- CLK_STATUS.LOCK2. -/
def CLK_STATUS_LOCK2 : Fld := ⟨475, .dev, 0x100800, [], 8, 4, .ro, 0, .cold, false⟩
/-- CLK_STATUS.LOCK3. -/
def CLK_STATUS_LOCK3 : Fld := ⟨476, .dev, 0x100800, [], 12, 4, .ro, 0, .cold, false⟩
/-- CLK_STATUS.CTL. -/
def CLK_STATUS_CTL : Fld := ⟨477, .dev, 0x100800, [], 16, 2, .ro, 0, .cold, false⟩
/-- HBM_ROLE.EPOCH0. -/
def HBM_ROLE_EPOCH0 : Fld := ⟨478, .hbm, 0x1C, [(524288, 2)], 0, 8, .ro, 0, .chip, false⟩
/-- HBM_ROLE.EPOCH1. -/
def HBM_ROLE_EPOCH1 : Fld := ⟨479, .hbm, 0x1C, [(524288, 2)], 8, 8, .ro, 0, .chip, false⟩
/-- HBM_ROLE.EPOCH2. -/
def HBM_ROLE_EPOCH2 : Fld := ⟨480, .hbm, 0x1C, [(524288, 2)], 16, 8, .ro, 0, .chip, false⟩
/-- HBM_ROLE.EPOCH3. -/
def HBM_ROLE_EPOCH3 : Fld := ⟨481, .hbm, 0x1C, [(524288, 2)], 24, 8, .ro, 0, .chip, false⟩
/-- HBM_ADJMAP.PERM. -/
def HBM_ADJMAP_PERM : Fld := ⟨482, .hbm, 0x10, [(524288, 2)], 0, 64, .rw, 0xFEDCBA9876543210, .cold, true⟩
/-- HBM_UEADDR.PA. -/
def HBM_UEADDR_PA : Fld := ⟨483, .hbm, 0x30, [(524288, 2)], 0, 64, .ro, 0, .chip, true⟩
/-- DMA_RINGBASE.BASE. -/
def DMA_RINGBASE_BASE : Fld := ⟨484, .dma, 0x0, [(64, 64)], 6, 42, .rw, 0, .context, true⟩
/-- REC_HANGTMO.US. -/
def REC_HANGTMO_US : Fld := ⟨485, .dev, 0x300010, [], 0, 24, .rw, 0x186A0, .cold, false⟩
/-- REC_PEERTMO.US. -/
def REC_PEERTMO_US : Fld := ⟨486, .dev, 0x300014, [], 0, 24, .rw, 0x7D0, .cold, false⟩
/-- TND_ERRADDR.ADDR. -/
def TND_ERRADDR_ADDR : Fld := ⟨487, .bay, 0x34, [], 0, 42, .ro, 0, .chip, true⟩
/-- TND_JRNBASE.BASE. -/
def TND_JRNBASE_BASE : Fld := ⟨488, .bay, 0x3C, [], 6, 36, .rw, 0, .cold, true⟩
/-- CFG_SRCADDR.ADDR. -/
def CFG_SRCADDR_ADDR : Fld := ⟨489, .dev, 0x200008, [], 4, 60, .rw, 0, .cold, true⟩
/-- LNK_TAPS.PRE2. -/
def LNK_TAPS_PRE2 : Fld := ⟨490, .lane, 0x4, [(4096, 24)], 0, 3, .ro, 0, .cold, false⟩
/-- LNK_TAPS.PRE1. -/
def LNK_TAPS_PRE1 : Fld := ⟨491, .lane, 0x4, [(4096, 24)], 4, 4, .ro, 4, .cold, false⟩
/-- LNK_TAPS.MAIN. -/
def LNK_TAPS_MAIN : Fld := ⟨492, .lane, 0x4, [(4096, 24)], 8, 6, .ro, 0x34, .cold, false⟩
/-- LNK_TAPS.POST1. -/
def LNK_TAPS_POST1 : Fld := ⟨493, .lane, 0x4, [(4096, 24)], 16, 4, .ro, 8, .cold, false⟩
/-- LNK_TAPS.POST2. -/
def LNK_TAPS_POST2 : Fld := ⟨494, .lane, 0x4, [(4096, 24)], 20, 3, .ro, 0, .cold, false⟩
/-- LNK_TAPINIT.PRE2. -/
def LNK_TAPINIT_PRE2 : Fld := ⟨495, .lane, 0x8, [(4096, 24)], 0, 3, .rw, 0, .cold, false⟩
/-- LNK_TAPINIT.PRE1. -/
def LNK_TAPINIT_PRE1 : Fld := ⟨496, .lane, 0x8, [(4096, 24)], 4, 4, .rw, 4, .cold, false⟩
/-- LNK_TAPINIT.MAIN. -/
def LNK_TAPINIT_MAIN : Fld := ⟨497, .lane, 0x8, [(4096, 24)], 8, 6, .rw, 0x34, .cold, false⟩
/-- LNK_TAPINIT.POST1. -/
def LNK_TAPINIT_POST1 : Fld := ⟨498, .lane, 0x8, [(4096, 24)], 16, 4, .rw, 8, .cold, false⟩
/-- LNK_TAPINIT.POST2. -/
def LNK_TAPINIT_POST2 : Fld := ⟨499, .lane, 0x8, [(4096, 24)], 20, 3, .rw, 0, .cold, false⟩
/-- HBM_TSET.RATE. -/
def HBM_TSET_RATE : Fld := ⟨500, .hbm, 0x100, [(524288, 2), (32, 2)], 0, 2, .rw, 0, .cold, false⟩
/-- HBM_TSET.VALID. -/
def HBM_TSET_VALID : Fld := ⟨501, .hbm, 0x100, [(524288, 2), (32, 2)], 2, 1, .rw, 0, .cold, false⟩
/-- HBM_TSET.RL. -/
def HBM_TSET_RL : Fld := ⟨502, .hbm, 0x100, [(524288, 2), (32, 2)], 8, 8, .rw, 0, .cold, false⟩
/-- HBM_TSET.WL. -/
def HBM_TSET_WL : Fld := ⟨503, .hbm, 0x100, [(524288, 2), (32, 2)], 16, 8, .rw, 0, .cold, false⟩
/-- HBM_TSET.TRCD. -/
def HBM_TSET_TRCD : Fld := ⟨504, .hbm, 0x100, [(524288, 2), (32, 2)], 24, 8, .rw, 0, .cold, false⟩
/-- HBM_TSET.TRP. -/
def HBM_TSET_TRP : Fld := ⟨505, .hbm, 0x104, [(524288, 2), (32, 2)], 0, 8, .rw, 0, .cold, false⟩
/-- HBM_TSET.TRAS. -/
def HBM_TSET_TRAS : Fld := ⟨506, .hbm, 0x104, [(524288, 2), (32, 2)], 8, 8, .rw, 0, .cold, false⟩
/-- HBM_TSET.TRTP. -/
def HBM_TSET_TRTP : Fld := ⟨507, .hbm, 0x104, [(524288, 2), (32, 2)], 16, 8, .rw, 0, .cold, false⟩
/-- HBM_TSET.TWR. -/
def HBM_TSET_TWR : Fld := ⟨508, .hbm, 0x104, [(524288, 2), (32, 2)], 24, 8, .rw, 0, .cold, false⟩
/-- HBM_TSET.TRRD. -/
def HBM_TSET_TRRD : Fld := ⟨509, .hbm, 0x108, [(524288, 2), (32, 2)], 0, 8, .rw, 0, .cold, false⟩
/-- HBM_TSET.TFAW. -/
def HBM_TSET_TFAW : Fld := ⟨510, .hbm, 0x108, [(524288, 2), (32, 2)], 8, 8, .rw, 0, .cold, false⟩
/-- HBM_TSET.TRFCAB. -/
def HBM_TSET_TRFCAB : Fld := ⟨511, .hbm, 0x108, [(524288, 2), (32, 2)], 16, 12, .rw, 0, .cold, false⟩
/-- HBM_TSET.TRFCPB. -/
def HBM_TSET_TRFCPB : Fld := ⟨512, .hbm, 0x10C, [(524288, 2), (32, 2)], 0, 10, .rw, 0, .cold, false⟩
/-- HBM_TSET.TREFI. -/
def HBM_TSET_TREFI : Fld := ⟨513, .hbm, 0x10C, [(524288, 2), (32, 2)], 10, 16, .rw, 0, .cold, false⟩
/-- HCL_WIN.BASE. -/
def HCL_WIN_BASE : Fld := ⟨514, .hcl, 0x20, [(8, 4)], 0, 24, .ro, 0, .carriage, false⟩
/-- HCL_WIN.SIZE. -/
def HCL_WIN_SIZE : Fld := ⟨515, .hcl, 0x24, [(8, 4)], 0, 22, .ro, 0, .carriage, false⟩
/-- CPL_MRNG.LBASE. -/
def CPL_MRNG_LBASE : Fld := ⟨516, .dev, 0x400100, [(16, 16)], 0, 18, .rw, 0, .cold, false⟩
/-- CPL_MRNG.PBASE. -/
def CPL_MRNG_PBASE : Fld := ⟨517, .dev, 0x400104, [(16, 16)], 0, 18, .rw, 0, .cold, false⟩
/-- CPL_MRNG.SIZE. -/
def CPL_MRNG_SIZE : Fld := ⟨518, .dev, 0x400108, [(16, 16)], 0, 18, .rw, 0, .cold, false⟩
/-- CPL_MRNG.EN. -/
def CPL_MRNG_EN : Fld := ⟨519, .dev, 0x40010C, [(16, 16)], 0, 1, .rw, 0, .cold, false⟩
/-- CPL_PJRN.BAY. -/
def CPL_PJRN_BAY : Fld := ⟨520, .dev, 0x400200, [], 0, 2, .rw, 0, .cold, false⟩
/-- CPL_PJRN.EN. -/
def CPL_PJRN_EN : Fld := ⟨521, .dev, 0x400200, [], 2, 1, .rw, 0, .cold, false⟩
/-- CPL_PJRNBASE.BASE. -/
def CPL_PJRNBASE_BASE : Fld := ⟨522, .dev, 0x400204, [], 6, 36, .rw, 0, .cold, true⟩
/-- CPL_PJRNLEN.LEN. -/
def CPL_PJRNLEN_LEN : Fld := ⟨523, .dev, 0x40020C, [], 0, 32, .rw, 0, .cold, false⟩
/-- DEV_DBGNONCEw.NONCE. -/
def DEV_DBGNONCE_NONCE : Fld := ⟨524, .dev, 0x410, [(4, 4)], 0, 32, .ro, 0, .chip, false⟩
/-- DEV_DBGRESPw.RESP. -/
def DEV_DBGRESP_RESP : Fld := ⟨525, .dev, 0x420, [(4, 8)], 0, 32, .wo, 0, .none, false⟩
/-- DMA_INVAL.CONTEXT. -/
def DMA_INVAL_CONTEXT : Fld := ⟨526, .dma, 0x1000, [], 0, 10, .wo, 0, .none, false⟩
/-- DMA_INVAL.KIND. -/
def DMA_INVAL_KIND : Fld := ⟨527, .dma, 0x1000, [], 10, 2, .wo, 0, .none, false⟩
/-- DMA_INVAL.BUSY. -/
def DMA_INVAL_BUSY : Fld := ⟨528, .dma, 0x1000, [], 31, 1, .ro, 0, .carriage, false⟩
/-- DMA_INVALVA.VA. -/
def DMA_INVALVA_VA : Fld := ⟨529, .dma, 0x1004, [], 0, 64, .rw, 0, .carriage, true⟩

/-- Fields 0 on, in the order of their indices. -/
def fldTable0 : List Fld := [DEV_ID_DEVCODE, DEV_ID_STEPL, DEV_ID_STEPD, DEV_ID_PKG, DEV_STRAY_REASON, DEV_STRAY_OFFSET, DEV_STRAY_WRITE, DEV_STRAY_VALID, DEV_STRAY_CNT_COUNT, NUMCTL_DNZ, NUMCTL_FORERUN, NUMCTL_SATFINITE, NUMCTL_NANTRAP, NUMSTAT_FLUSHED, NUMSTAT_SATURATED, NUMSTAT_NANINF, NUMSTAT_NANBLOCK, NUM_SATTOT_SATTOT, NUM_FLUSHTOT_FLUSHTOT, NUM_NANBLKTOT_NANBLKTOT, NUM_CTRCLR_SATTOT, NUM_CTRCLR_FLUSHTOT, NUM_CTRCLR_NANBLKTOT, NUM_TRAPINFO_CONTEXT, NUM_TRAPINFO_MORE, NUM_TRAPINFO_VALID, NUM_TRAPSEQ_SEQ, COA_STATE_STATE, COA_ROLE_EPOCH, COA_ROLE_CONTEXT, COA_ROLE_BOUND, COA_PC_PC, COA_SEQ_SEQ, COA_FAULT_CODE, COA_FAULT_PC, COA_FAULT_CONTEXT, COA_FAULT_MORE, COA_FAULT_VALID, COA_ISSUED_ISSUED, COA_SYNC_COUNT, COA_SP_ADDR, COA_LOOP_COUNT, ARR_WSTATE_ACTIVE, ARR_WSTATE_SHREADY, ARR_WSTATE_LOADING, ARR_WSTATE_AFMT, ARR_WSTATE_SFMT, ARR_INCYC_INCYC, ARR_PASSES_PASSES, ACC_SPILLBASE_BASE]
/-- Fields 50 on, in the order of their indices. -/
def fldTable1 : List Fld := [ACC_SPILLSLOTS_SLOTS, ACC_SPILLUSED_USED, ACC_SPILLS_SPILLS, VEC_LOOP_RRB, VEC_LOOP_ON, VEC_LOOP_SM1, VEC_TRIP_TRIP, VEC_TRIPN_N, VEC_SIGSTAT_AOVF, VEC_BUSY_BUSY, VEC_CBBASE_BASE, VEC_CBLEN_LEN, VEC_CBPTR_PTR, STR_CFG_DIR, STR_CFG_TRANS, STR_CFG_TW, STR_CFG_CLASS, STR_BUF_BASE, STR_HALF_HALF, STR_RATE_RATE, STR_SRC_SRC, STR_ROWLEN_ROWLEN, STR_ROWS_ROWS, STR_STRIDE1_STRIDE1, STR_PLANES_PLANES, STR_STRIDE2_STRIDE2, STR_CTL_START, STR_CTL_STOP, STR_POS_POS, STR_STATE_STATE, STR_STATE_CONS, STR_STATE_FCODE, STR_STATE_WRITE, STR_RESUME_GO, STR_FAULTVA_FAULTVA, STR_URGENT_THRESH, STR_INVAL_CONTEXT, STR_INVAL_KIND, STR_INVAL_BUSY, STR_INVAL_VA_VA, STR_TCMISS_MISSES, DMA_RINGSIZE_LOG2, DMA_HEAD_HEAD, DMA_TAIL_TAIL, DMA_CTL_RUN, DMA_CTL_ABORT, DMA_CTL_VEC, DMA_CTX_CONTEXT, DMA_CTX_BOUND, DMA_STATUS_LAST]
/-- Fields 100 on, in the order of their indices. -/
def fldTable2 : List Fld := [DMA_STATUS_ACTIVE, DMA_STATUS_STOPPED, DMA_BYTES_BYTES, DEV_LSCTL_ENABLE, DEV_LSCTL_SLOT, DEV_LSCTL_VEC, DEV_LSCTL_PORT, DEV_LSSTAT_STATE, DEV_LSSTAT_CODE, DEV_LSSTAT_EVENT, DEV_LSCYC_CYC, DEV_LSEND_CYC, DEV_LSSEED_SEED, DEV_LSLINKDLY_DLY, DEV_LSADMIT_COUNT, DEV_REINCTL_CMD, DEV_REINCTL_ROLE, DEV_REINCTL_LINK, DEV_REINSTAT_STATE, DEV_REINSTAT_LINE, DEV_REINSTAT_MARKS, DEV_REINSTAT_EVENT, DEV_REINLINKS_MASK, DEV_REINEXP_COUNT, DEV_REINLEAD_LEAD, DEV_REINTMO_TMO, DEV_REINLAT_LAT, DEV_REINLAT_VALID, NOC_RSSEL_ENTRY, NOC_RSSEL_UNIT, NOC_RSDATA_WORD, NOC_RSSTAT_REASON, NOC_RSSTAT_UNIT, NOC_RSSTAT_ENTRY, NOC_RSSTAT_VALID, NOC_STALECNT_COUNT, NOC_DISCARD_COUNT, NOC_HOPERR_COUNT, NOC_ECCCE_COUNT, NOC_ECCUE_COUNT, NOC_FROZEN_COUNT, NOC_UEINFO_SRC, NOC_UEINFO_DST, NOC_UEINFO_VN, NOC_UEINFO_HEAD, NOC_UEINFO_MORE, NOC_UEINFO_VALID, NOC_DOWNINFO_ROUTER, NOC_DOWNINFO_PORT, NOC_DOWNINFO_MORE]
/-- Fields 150 on, in the order of their indices. -/
def fldTable3 : List Fld := [NOC_DOWNINFO_VALID, NOC_PRB_SEL_ROUTER, NOC_PRB_SEL_PORT, NOC_PRB_SEL_VNMASK, NOC_PRB_SEL_CTXEN, NOC_PRB_SEL_CONTEXT, NOC_PRB_SEL_MODE, NOC_PRB_SRC_VALUE, NOC_PRB_SRC_MASK, NOC_PRB_DST_VALUE, NOC_PRB_DST_MASK, NOC_PRB_PKT_COUNT, NOC_PRB_FLT_COUNT, NOC_PRB_TRIDX_INDEX, NOC_PRB_TRIDX_FILL, NOC_PRB_TRIDX_WRAPPED, NOC_PRB_TRDATA_WORD, HBM_CTL_MODE, HBM_CTL_TRSET, HBM_CTL_REFMODE, HBM_CTL_FCREQ, HBM_CTL_ILV, HBM_STATUS_ACTSET, HBM_STATUS_FCBUSY, HBM_STATUS_FCDONE, HBM_STATUS_FCERR, HBM_STATUS_ADJOK, HBM_STATUS_HOT, HBM_AGELIM_LIMIT, HBM_NRCTL_EN, HBM_NRCTL_DIST, HBM_NRCTL_K, HBM_REFSLOT_SLOT, HBM_CECNT_COUNT, HBM_UECNT_COUNT, HBM_RAWCNT_COUNT, HBM_NRCNT_COUNT, HBM_DLYSEL_CHAN, HBM_DLYSEL_LANE, HBM_DLYDATA_RDLY, HBM_DLYDATA_WDLY, HBM_DLYDATA_VREF, HBM_TRCMD_PC, HBM_TRCMD_OP, HBM_TRRES_MRW, HBM_TRRES_DONE, TND_STATE_STATE, TND_STATE_PRSNT, TND_CTL_ATTACH, TND_CTL_DETACH]
/-- Fields 200 on, in the order of their indices. -/
def fldTable4 : List Fld := [TND_CTL_VEC, TND_ROLE_EPOCH, TND_EVENT_REMOVED, TND_EVENT_RESUMED, TND_EVENT_SWAPPED, TND_EVENT_EXPIRED, TND_EVENT_NEWMOD, TND_EVENT_WEARRATE, TND_EVENT_LIFE80, TND_EVENT_WORN, TND_EVENT_FAILED, TND_EVENT_ERR, TND_EVENT_MAINT, TND_ID_SERIAL, TND_MAKE_MAKE, TND_MAKE_CAPGIB, TND_SEAL_ATTACHCNT, TND_RETRY_MS, TND_WEAR_USED, TND_WEAR_RATE, TND_LIFE_RATED, TND_LIFE_SPARE, TND_WEARWARN_THRESH, TND_ERRINFO_CONTEXT, TND_ERRINFO_STATUS, TND_ERRINFO_WRITE, TND_ERRINFO_MORE, TND_ERRINFO_VALID, TND_JRNLEN_LEN, TND_HELD_COUNT, TND_RDBYTES_BYTES, TND_WRBYTES_BYTES, TND_MAINT_KIND, TND_MAINT_START, TND_MAINT_STOP, TND_MAINT_BUSY, TND_MAINT_MEDIAERR, TND_MAINT_ERR, TND_MAINT_LIMIT, LNK_LANESTAT_SIGDET, LNK_LANESTAT_SYNC, LNK_LANESTAT_DONE, LNK_LANESTAT_PARTNER, LNK_FECCE_COUNT, LNK_FECUE_COUNT, LNK_PRBSERR_COUNT, LNK_LANECTL_TEST, LNK_LANECTL_PATTERN, LNK_LANECTL_LOOP, LNK_INJ_EN]
/-- Fields 250 on, in the order of their indices. -/
def fldTable5 : List Fld := [LNK_INJ_ONCE, LNK_INJ_COUNT, LNK_INJ_EVERY, LNK_CTL_ENABLE, LNK_CTL_TRAIN, LNK_CTL_CPL, LNK_CTL_RETRYTMO, LNK_CTL_VEC, LNK_STATE_STATE, LNK_STATE_CODE, LNK_STATE_TRAINED, LNK_ROLE_EPOCH, LNK_RETRY_COUNT, LNK_LOST_COUNT, LNK_EVENT_UP, LNK_EVENT_DOWN, LNK_EVENT_FECUE, FAB_STATE_STAGE, FAB_STATE_LOADED, FAB_CLKCFG_DIV, FAB_CLKCFG_EN, FAB_CLKCFG_RUNNING, FAB_SCRUB_START, FAB_SCRUB_BUSY, FAB_SCRUBCE_COUNT, FAB_SCRUBUE_COUNT, FAB_PORTCTX_CONTEXT, FAB_PORTCTX_BOUND, FAB_ROLE_EPOCH, FAB_PORTCTL_CLK, FAB_PORTSTAT_FCODE, FAB_PORTSTAT_MORE, FAB_PORTSTAT_VALID, IOB_BANK_VSEL, IOB_BANK_VSENSE, IOB_BANK_VERR, IOB_CFG_OUT, IOB_CFG_DDR, IOB_CFG_DRIVE, IOB_CFG_FAST, IOB_CFG_PULL, IOB_CFG_OD, IOB_CFG_DLYPATH, IOB_CFG_CLK, IOB_DLY_TARGET, IOB_DLY_CURRENT, IOB_PIN_LEVEL, IOB_PIN_DRIVEN, IOB_PIN_HELD, CFG_STATE_STATE]
/-- Fields 300 on, in the order of their indices. -/
def fldTable6 : List Fld := [CFG_STATE_CODE, CFG_STATE_SRC, CFG_STATE_EVENT, CFG_CTL_START, CFG_CTL_ABORT, CFG_CTL_SRC, CFG_CTL_UNIT, CFG_CTL_VEC, CFG_CTL_PORT, CFG_TMO_MS, CFG_SLOT_SLOT, CFG_STRAP_MODE, CFG_STRAP_ADDR, CFG_BYTES_BYTES, CFG_IMGID_IMGID, CFG_PARTMAP_PARTMAP, CFG_FAILSECT_SECT, KEY_STATUS_FUSEKEY, KEY_STATUS_RAMVALID, KEY_STATUS_VBATOK, KEY_POLICY_ENCREQ, KEY_POLICY_FUSEONLY, KEY_CTL_RAMLOCK, KEY_CTL_RAMCOMMIT, KEY_CTL_RAMCLEAR, KEY_RAMDATA_DATA, HCL_CTL_RUN, HCL_CTL_WFI, HCL_RESETVEC_VEC, HCL_ROLE_EPOCH, HCL_ACCERR_HART, HCL_ACCERR_WRITE, HCL_ACCERR_MORE, HCL_ACCERR_VALID, FW_VER_BUILD, FW_VER_MINOR, FW_VER_IFACE, FW_DIGEST_DIGEST, QUE_ADMSQ_ADDR, QUE_ADMCQ_ADDR, QUE_ADMCFG_LOG2, QUE_ADMCFG_VEC, QUE_ADMCFG_EN, QUE_ADMTAIL_INDEX, QUE_ADMCQHEAD_INDEX, QUE_ROLE_PORT, QUE_ROLE_DMA, QUE_ROLE_CC, QUE_CTXSEL_CONTEXT, QUE_CTXINFO_STATE]
/-- Fields 350 on, in the order of their indices. -/
def fldTable7 : List Fld := [QUE_CTXINFO_PART, QUE_CTXINFO_PORT, QUE_CTXINFO_ISVF, QUE_CTXINFO_VF, QUE_CTXINFO_COACHES, QUE_DBDROP_COUNT, QUE_VECDROP_COUNT, QUE_WODONE_COUNT, PWR_CMD_STATE, PWR_CMD_CARMASK, PWR_STATUS_PHASE, PWR_STATUS_REFUSER, PWR_STATUS_REASON, PWR_STATUS_CARRIAGE, PWR_STATUS_REFUSED, PWR_STATUS_CMDIGN, PWR_STATUS_PROFBUSY, PWR_STATUS_EVENT, PWR_CFG_KEEPPORT, PWR_CFG_VEC, PWR_CFG_PORT, PWR_PROFILE_SEL, PWR_PROFILE_STEPV, PWR_GATE_IDLE, PWR_THRCTL_EN, PWR_THRCTL_ACTIVE, PWR_THRCTL_HARD, PWR_THRCTL_TSOFT, PWR_PLIM_WATTS, PWR_MEAS_WATTS, PWR_MEAS_TMAX, PWR_PADREL_CAR, CLK_COACHF_MHZ, REC_FAULT_CONTEXT, REC_FAULT_CTXV, REC_FAULT_LEVEL, REC_FAULT_CAUSE, REC_FAULT_MORE, REC_FAULT_VALID, REC_FAULTUNIT_UNIT, REC_FAULTUNIT_CODE, REC_CTXCMD_CONTEXT, REC_CTXCMD_OP, REC_CTXSTAT_CMDERR, REC_SCHEDTMO_US, REC_STATUS_PFW, REC_STATUS_PMFAIL, REC_STATUS_PWRCYC, REC_STATUS_LASTCHIP, REC_STATUS_EVENT]
/-- Fields 400 on, in the order of their indices. -/
def fldTable8 : List Fld := [REC_CTL_CHIPRST, REC_CTL_VEC, REC_CTL_PORT, REC_CHIPCNT_COUNT, REC_MNTREQ_KIND, REC_MNTREQ_UNIT, REC_MNTSTAT_RESULT, REC_MNTSTAT_QUEUED, REC_MNTSTAT_RUNNING, REC_MNTSTAT_EVENT, REC_MNTDEFER_MS, LOG_STATUS_BANK0OK, LOG_STATUS_BANK1OK, LOG_STATUS_RDVALID, LOG_SEQ_NEXT, LOG_RDSEQ_SEQ, LOG_RDDATA_WORD, LOG_LASTGASP_CODE, LOG_LASTGASP_SOURCE, LOG_LASTGASP_VALID, LOG_PFWN_COUNT, CAR_REC_CAUSE, CAR_REC_COUNT, CAR_COACHREC_LAST, CAR_COACHREC_COUNT, CPL_CTL_MODE, CPL_CTL_RESYNC, CPL_CTL_VEC, CPL_CTL_PORT, CPL_STATE_STATE, CPL_STATE_REASON, CPL_STATE_PALIVE, CPL_STATE_WIT, CPL_STATE_HBCUR, CPL_STATE_EVENT, CPL_CTXSEL_CONTEXT, CPL_CTXROLE_ROLE, CPL_SENT_MSEQ, CPL_ACKED_MSEQ, DEV_DBG_REQ, DEV_DBG_LEVEL, DEV_DBG_FAILS, DEV_DBG_LOCKED, DEV_DBG_EVENT, DEV_PERTSTR_EN, DEV_PERTSTR_LOG2P, DEV_PERTSTR_STALL, DEV_PERTSTR_CARMASK, DEV_PERTNOC_EN, DEV_PERTNOC_CARRIAGE]
/-- Fields 450 on, in the order of their indices. -/
def fldTable9 : List Fld := [DEV_PERTNOC_ROUTER, DEV_PERTNOC_PORT, DEV_PERTNOC_HOLD, DEV_PERTMEM_EN, DEV_PERTMEM_EXTRA, DEV_PERTMEM_CARMASK, DEV_STRES_COACH, DEV_STRES_RESULT, DEV_STRES_PART, DEV_STRES_EVENT, DEV_STFAIL_FAIL, DEV_FUSE_TARGET, DEV_FUSE_PROG, DEV_FUSE_LOCK, DEV_FUSE_LOCKED, DEV_FUSE_DBGKEY, DEV_FUSE_ERR, DEV_FUSEDATA_DATA, DEV_SERIAL_SERIAL, DEV_CARSTATE_CAR0, DEV_CARSTATE_CAR1, DEV_CARSTATE_CAR2, DEV_CARSTATE_CAR3, CLK_STATUS_LOCK0, CLK_STATUS_LOCK1, CLK_STATUS_LOCK2, CLK_STATUS_LOCK3, CLK_STATUS_CTL, HBM_ROLE_EPOCH0, HBM_ROLE_EPOCH1, HBM_ROLE_EPOCH2, HBM_ROLE_EPOCH3, HBM_ADJMAP_PERM, HBM_UEADDR_PA, DMA_RINGBASE_BASE, REC_HANGTMO_US, REC_PEERTMO_US, TND_ERRADDR_ADDR, TND_JRNBASE_BASE, CFG_SRCADDR_ADDR, LNK_TAPS_PRE2, LNK_TAPS_PRE1, LNK_TAPS_MAIN, LNK_TAPS_POST1, LNK_TAPS_POST2, LNK_TAPINIT_PRE2, LNK_TAPINIT_PRE1, LNK_TAPINIT_MAIN, LNK_TAPINIT_POST1, LNK_TAPINIT_POST2]
/-- Fields 500 on, in the order of their indices. -/
def fldTable10 : List Fld := [HBM_TSET_RATE, HBM_TSET_VALID, HBM_TSET_RL, HBM_TSET_WL, HBM_TSET_TRCD, HBM_TSET_TRP, HBM_TSET_TRAS, HBM_TSET_TRTP, HBM_TSET_TWR, HBM_TSET_TRRD, HBM_TSET_TFAW, HBM_TSET_TRFCAB, HBM_TSET_TRFCPB, HBM_TSET_TREFI, HCL_WIN_BASE, HCL_WIN_SIZE, CPL_MRNG_LBASE, CPL_MRNG_PBASE, CPL_MRNG_SIZE, CPL_MRNG_EN, CPL_PJRN_BAY, CPL_PJRN_EN, CPL_PJRNBASE_BASE, CPL_PJRNLEN_LEN, DEV_DBGNONCE_NONCE, DEV_DBGRESP_RESP, DMA_INVAL_CONTEXT, DMA_INVAL_KIND, DMA_INVAL_BUSY, DMA_INVALVA_VA]

/-- Every register field, in the order of the indices. -/
def fldTable : List Fld :=
  fldTable0 ++ fldTable1 ++ fldTable2 ++ fldTable3 ++ fldTable4 ++ fldTable5 ++ fldTable6 ++ fldTable7 ++ fldTable8 ++ fldTable9 ++ fldTable10

/-- The key of a field in `State.fields`: field, unit and index within a repeated register. -/
def Fld.key (f : Fld) (u i : Nat) : Nat := f.idx + 1024 * (u + 2048 * i)

/-- The unit of a key. -/
def keyUnit (k : Nat) : Nat := k / 1024 % 2048

/-- The index of a key. -/
def keyIndex (k : Nat) : Nat := k / 1024 / 2048

/-- The field of a key. -/
def keyFld (k : Nat) : Option Fld := fldTable[k % 1024]?

end Sys2Proof.Machine
end

