-- ==== Sys2Proof/Machine/Formats.lean ====
section
/-! DEFINITION. Number formats, block scales and conversion (02_number_formats.md, R58 to R93). -/

namespace Sys2Proof.Machine

/-- The formats of Table 2.1. -/
inductive Fmt where
  | s4 | s8a | s8b | i8 | w16 | f16 | f32 | f64 | x24
deriving DecidableEq, Repr

/-- An exact value: NaN, an infinity, or (-1)^neg * m * 2^e. A zero keeps its sign. -/
inductive Val where
  | nan
  | inf (neg : Bool)
  | fin (neg : Bool) (m : Nat) (e : Int)
deriving DecidableEq, Repr

/-- The bits of NUMCTL (02_number_formats.md), latched at issue (R98). -/
structure NumMode where
  dnz : Bool := false
  forerun : Bool := false
  satFinite : Bool := false
  nanTrap : Bool := false
deriving DecidableEq, Repr

/-- A format selector (R59): the format and SCALED. -/
structure FSel where
  fmt : Fmt
  scaled : Bool
deriving DecidableEq, Repr

/-- Table 2.2: the format of a 4-bit code, none where reserved. -/
def fmtOfCode : Nat → Option Fmt
  | 0 => some .s4 | 1 => some .s8a | 2 => some .s8b | 3 => some .i8 | 4 => some .w16
  | 5 => some .f16 | 6 => some .f32 | 7 => some .f64 | 8 => some .x24 | _ => none

/-- R59 and R60: a selector's meaning; none for a reserved code, for S4 without SCALED and for SCALED
with a format that takes no scales (the host errors of R60). -/
def fselOf (sel : Nat) : Option FSel :=
  let sc := bitsOf sel 4 1 == 1
  match fmtOfCode (bitsOf sel 0 4) with
  | none => none
  | some .s4 => if sc then some ⟨.s4, true⟩ else none
  | some .s8a => some ⟨.s8a, sc⟩
  | some .i8 => some ⟨.i8, sc⟩
  | some f => if sc then none else some ⟨f, false⟩

/-- Width of a format in bits (Table 2.1). -/
def Fmt.width : Fmt → Nat
  | .s4 => 4 | .s8a => 8 | .s8b => 8 | .i8 => 8 | .w16 => 16 | .f16 => 16 | .f32 => 32 | .f64 => 64 | .x24 => 24

/-- Whether the format is one of the floating formats of R61. -/
def Fmt.isFloat : Fmt → Bool
  | .i8 => false | .x24 => false | _ => true

/-- Mantissa bits of a floating format (Table 2.1). -/
def Fmt.man : Fmt → Nat
  | .s4 => 1 | .s8a => 3 | .s8b => 2 | .w16 => 7 | .f16 => 10 | .f32 => 23 | .f64 => 52 | _ => 0

/-- Exponent bias of a floating format (Table 2.1). -/
def Fmt.bias : Fmt → Nat
  | .s4 => 1 | .s8a => 7 | .s8b => 15 | .w16 => 127 | .f16 => 15 | .f32 => 127 | .f64 => 1023 | _ => 0

/-- Exponent bits of a floating format. -/
def Fmt.expw (f : Fmt) : Nat := f.width - 1 - f.man

/-- Whether the format has infinities (Table 2.1). -/
def Fmt.hasInf : Fmt → Bool
  | .s8b => true | .w16 => true | .f16 => true | .f32 => true | .f64 => true | _ => false

/-- The code of the largest finite magnitude, sign bit clear (Tables 2.3, 2.4 and 2.5). -/
def Fmt.maxCode : Fmt → Nat
  | .s4 => 7 | .s8a => 0x7E | .s8b => 0x7B | .i8 => 0x7F | .w16 => 0x7F7F | .f16 => 0x7BFF
  | .f32 => 0x7F7FFFFF | .f64 => 0x7FEFFFFFFFFFFFFF | .x24 => 0x7FFFFF

/-- The code of +infinity in the formats that have one. -/
def Fmt.infCode : Fmt → Nat
  | .s8b => 0x7C | .w16 => 0x7F80 | .f16 => 0x7C00 | .f32 => 0x7F800000 | .f64 => 0x7FF0000000000000 | _ => 0

/-- R66: the NaN code the device writes. -/
def Fmt.nanCode : Fmt → Nat
  | .s8a => 0x7F | .s8b => 0x7E | .w16 => 0x7FC0 | .f16 => 0x7E00 | .f32 => 0x7FC00000
  | .f64 => 0x7FF8000000000000 | _ => 0

/-- Table 2.8: whether subnormals of the format are flushed. -/
def flushes (md : NumMode) (f : Fmt) : Bool :=
  match f with
  | .i8 | .x24 => false
  | .s4 | .s8a | .s8b => if md.forerun then false else md.dnz
  | .w16 | .f16 | .f32 | .f64 => if md.forerun then true else md.dnz

/-! ### Exact values -/

/-- The zero of a sign. -/
def Val.zero (neg : Bool) : Val := .fin neg 0 0

/-- Exact value of an integer times a power of two; zero is +0. -/
def valOfInt (x : Int) (e : Int) : Val := .fin (decide (x < 0)) x.natAbs e

/-- Whether a value is NaN. -/
def Val.isNan : Val → Bool
  | .nan => true | _ => false

/-- Whether a value is finite. -/
def Val.isFin : Val → Bool
  | .fin _ _ _ => true | _ => false

/-- Whether a value is not a zero (an infinity and NaN are not zeros). -/
def Val.nonzero : Val → Bool
  | .fin _ m _ => m != 0 | _ => true

/-- Sign of a value (false for NaN). -/
def Val.neg : Val → Bool
  | .nan => false | .inf n => n | .fin n _ _ => n

/-- The value with its sign changed. -/
def Val.negate : Val → Val
  | .nan => .nan | .inf n => .inf (!n) | .fin n m e => .fin (!n) m e

/-- A finite value times 2^k. -/
def Val.scale (v : Val) (k : Int) : Val :=
  match v with | .fin n m e => .fin n m (e + k) | w => w

/-- floor(log2(m * 2^e)) for m ≠ 0. -/
def lead (m : Nat) (e : Int) : Int := (m.log2 : Int) + e

/-- The integer m * 2^(e - q), exact when e ≥ q and floored otherwise; used with a common q. -/
def atScale (m : Nat) (e q : Int) : Nat :=
  if q ≤ e then m * 2 ^ (e - q).toNat else m / 2 ^ (q - e).toNat

/-- A signed mantissa at scale q ≤ e. -/
def signedAt (neg : Bool) (m : Nat) (e q : Int) : Int :=
  let a : Int := (atScale m e q : Nat)
  if neg then -a else a

/-- Exact sum of two values by the IEEE 754 rules: opposite infinities and NaN give NaN, an exact
zero sum of unlike signs is +0 (roundTiesToEven, Table 2.6). -/
def Val.add (a b : Val) : Val :=
  match a, b with
  | .nan, _ => .nan
  | _, .nan => .nan
  | .inf x, .inf y => if x == y then .inf x else .nan
  | .inf x, _ => .inf x
  | _, .inf y => .inf y
  | .fin n1 m1 e1, .fin n2 m2 e2 =>
    let q := min e1 e2
    let s := signedAt n1 m1 e1 q + signedAt n2 m2 e2 q
    if s == 0 then .fin (n1 && n2) 0 0 else valOfInt s q

/-- Table 3.2: the exact product; infinity times zero is NaN. -/
def Val.mul (a b : Val) : Val :=
  match a, b with
  | .nan, _ => .nan
  | _, .nan => .nan
  | .inf x, .inf y => .inf (xor x y)
  | .inf x, .fin n m _ => if m == 0 then .nan else .inf (xor x n)
  | .fin n m _, .inf y => if m == 0 then .nan else .inf (xor n y)
  | .fin n1 m1 e1, .fin n2 m2 e2 => .fin (xor n1 n2) (m1 * m2) (e1 + e2)

/-- Whether finite `a` is below finite `b` as real numbers (infinities in their places, NaN never). -/
def Val.lt (a b : Val) : Bool :=
  match a, b with
  | .nan, _ => false
  | _, .nan => false
  | .inf x, .inf y => x && !y
  | .inf x, _ => x
  | _, .inf y => !y
  | .fin n1 m1 e1, .fin n2 m2 e2 =>
    let q := min e1 e2
    decide (signedAt n1 m1 e1 q < signedAt n2 m2 e2 q)

/-! ### Reading codes -/

/-- R61 to R67: the exact value of a code. -/
def decodeVal (f : Fmt) (code : Nat) : Val :=
  match f with
  | .i8 => valOfInt (toSigned 8 code) 0
  | .x24 => valOfInt (toSigned 24 code) (-23)
  | f =>
    let m := bitsOf code 0 f.man
    let e := bitsOf code f.man f.expw
    let s := bitsOf code (f.width - 1) 1 == 1
    let top := 2 ^ f.expw - 1
    if e == top && f.hasInf then (if m == 0 then .inf s else .nan)
    else if f == .s8a && e == top && m == 7 then .nan
    else if e == 0 then .fin s m (1 - (f.bias : Int) - f.man)
    else .fin s (2 ^ f.man + m) ((e : Int) - f.bias - f.man)

/-- Whether a code is a zero code. -/
def isZeroCode (f : Fmt) (code : Nat) : Bool :=
  if f.isFloat then code % 2 ^ (f.width - 1) == 0 else code % 2 ^ f.width == 0

/-- Whether a code is subnormal. -/
def isSubnormal (f : Fmt) (code : Nat) : Bool :=
  f.isFloat && bitsOf code f.man f.expw == 0 && bitsOf code 0 f.man != 0

/-- R83 and R87: an input code as an operation reads it, with the flushed elements it counts. -/
def readCode (md : NumMode) (f : Fmt) (code : Nat) : Val × Nat :=
  if flushes md f && isSubnormal f code then (.zero (bitsOf code (f.width - 1) 1 == 1), 1)
  else (decodeVal f code, 0)

/-- R71 and R74: the elements of one block as an operation reads it. `scale` is none for an unscaled
operand. A code 0xFF marks the whole block NaN before its codes are read (DEDUCED, log 91: no subnormal is then
read as zero, so none is counted). -/
def readBlock (md : NumMode) (f : Fmt) (scale : Option Nat) (codes : List Nat) : List Val × Nat :=
  match scale with
  | none =>
    let rs := codes.map (readCode md f)
    (rs.map (·.1), (rs.map (·.2)).sum)
  | some sc =>
    if sc == 0xFF then (codes.map (fun _ => Val.nan), 0)
    else
      let rs := codes.map (readCode md f)
      (rs.map (fun r => r.1.scale ((sc : Int) - 127)), (rs.map (·.2)).sum)

/-! ### Rounding into a format -/

/-- The multiple of 2^q nearest to m * 2^e, ties to the even multiple, as the multiple's count (R77). -/
def roundAt (m : Nat) (e q : Int) : Nat :=
  if q ≤ e then m * 2 ^ (e - q).toNat
  else
    let k := (q - e).toNat
    let d := m / 2 ^ k
    let r := m % 2 ^ k
    let half := 2 ^ (k - 1)
    if r < half then d
    else if r == half then (if d % 2 == 0 then d else d + 1)
    else d + 1

/-- What one conversion gives: the code, the saturated and flushed elements counted, and whether the
conversion gave an infinity (R91). -/
structure Conv where
  code : Nat
  sat : Nat := 0
  flush : Nat := 0
  gaveInf : Bool := false
deriving DecidableEq, Repr

/-- Sign bit of a code. -/
def signBit (f : Fmt) (neg : Bool) : Nat := if neg then 2 ^ (f.width - 1) else 0

/-- Table 2.7: the result beyond the largest finite magnitude of a floating format. -/
def overflowFloat (md : NumMode) (f : Fmt) (neg : Bool) : Conv :=
  let mx := signBit f neg + f.maxCode
  let inf := signBit f neg + f.infCode
  match f with
  | .f64 => { code := inf, sat := 1, gaveInf := true }
  | .s4 | .s8a => { code := mx, sat := 1 }
  | _ => if md.satFinite then { code := mx, sat := 1 } else { code := inf, sat := 1, gaveInf := true }

/-- R78 to R84: a finite nonzero value into a floating format. -/
def convertFloat (md : NumMode) (f : Fmt) (neg : Bool) (m : Nat) (e : Int) : Conv :=
  let l := lead m e
  let q := l - f.man
  let r := roundAt m e q
  let emin : Int := 1 - (f.bias : Int)
  let mxm := bitsOf f.maxCode 0 f.man + 2 ^ f.man
  let mxe : Int := (bitsOf f.maxCode f.man f.expw : Int) - f.bias - f.man
  -- r * 2^q against mxm * 2^mxe: r < 2^(man+1) + 1, so the exponents decide but for one binade
  if q > mxe || (q == mxe && r > mxm) then overflowFloat md f neg
  else if l < emin && !(r == 2 ^ (f.man + 1) && l + 1 == emin) then
    if flushes md f then { code := signBit f neg, flush := 1 }
    else
      let r2 := roundAt m e (emin - f.man)
      { code := signBit f neg + r2, flush := if r2 == 0 then 1 else 0 }
  else
    { code := signBit f neg + ((l + f.bias).toNat * 2 ^ f.man + (r - 2 ^ f.man)) }

/-- A finite value into I8 or X24 (R77, R79): round to even, then the range. `satX` is the
signal-mode saturation enable, which acts on X24 alone. -/
def convertFixed (satX : Bool) (f : Fmt) (neg : Bool) (m : Nat) (e : Int) : Conv :=
  let w := f.width
  let q : Int := if f == .x24 then -23 else 0
  let r := roundAt m e q
  let x : Int := if neg then -(r : Int) else r
  let lo : Int := -((2 ^ (w - 1) : Nat) : Int)
  let hi : Int := ((2 ^ (w - 1) : Nat) : Int) - 1
  if x < lo || x > hi then
    let c := if f == .x24 && !satX then ofSigned w x else if neg then ofSigned w lo else ofSigned w hi
    { code := c, sat := 1 }
  else { code := ofSigned w x, flush := if r == 0 && m != 0 then 1 else 0 }

/-- Table 2.9 and R77 to R85: any value into a format, outside a block (a NaN into S4 or scaled I8 is
`quantBlock`'s matter; here it takes the zero code). -/
def convertVal (md : NumMode) (satX : Bool) (f : Fmt) (v : Val) : Conv :=
  match v with
  | .nan =>
    (match f with
     | .s4 => { code := 0 }
     | .i8 | .x24 => { code := 0, flush := 1 }
     | f => { code := f.nanCode })
  | .inf neg =>
    if f.hasInf then { code := signBit f neg + f.infCode, gaveInf := true }
    else if f.isFloat then { code := signBit f neg + f.maxCode, sat := 1 }
    else { code := if neg then 2 ^ (f.width - 1) else f.maxCode, sat := 1 }
  | .fin neg m e =>
    if m == 0 then { code := if f.isFloat then signBit f neg else 0 }
    else if f.isFloat then convertFloat md f neg m e
    else convertFixed satX f neg m e

/-! ### Quantising a block (R76) -/

/-- log2 of the binade that the largest finite magnitude of `f` lies in, for the given sign. -/
def topBinade (f : Fmt) (neg : Bool) : Int :=
  match f with
  | .s4 => 2
  | .s8a => 8
  | _ => if neg then 7 else 6

/-- Whether v * 2^-e, rounded with the exponent range taken as unbounded, lies in the range of `f`. -/
def inRangeAt (f : Fmt) (neg : Bool) (m : Nat) (e x : Int) : Bool :=
  match f with
  | .i8 => let r := roundAt m (e - x) 0; decide (r ≤ if neg then 128 else 127)
  | f =>
    let l := lead m (e - x)
    let q := l - f.man
    let r := roundAt m (e - x) q
    let mxm := bitsOf f.maxCode 0 f.man + 2 ^ f.man
    let mxe : Int := (bitsOf f.maxCode f.man f.expw : Int) - f.bias - f.man
    !(decide (q > mxe) || (q == mxe && decide (r > mxm)))

/-- The least e of R76 for one finite nonzero value. -/
def leastExp (f : Fmt) (neg : Bool) (m : Nat) (e : Int) : Int :=
  let x := lead m e - topBinade f neg
  if inRangeAt f neg m e x then x else x + 1

/-- The least e of R76 over the finite nonzero values of a block; none where there is none. -/
def blockExp (f : Fmt) : List Val → Option Int
  | [] => none
  | v :: vs =>
    match v, blockExp f vs with
    | .fin n m e, none => if m == 0 then none else some (leastExp f n m e)
    | .fin n m e, some x => if m == 0 then some x else some (max (leastExp f n m e) x)
    | _, r => r

/-- A quantised block: its scale code, its element codes and what was counted. -/
structure QBlock where
  scale : Nat
  codes : List Nat
  sat : Nat := 0
  flush : Nat := 0
  nanBlk : Nat := 0
deriving DecidableEq, Repr

/-- R75: the canonical zero block. -/
def zeroBlock (n : Nat) : QBlock := { scale := 0, codes := List.replicate n 0 }

/-- R76: quantise the values of one block into S4, S8a or I8. -/
def quantBlock (md : NumMode) (f : Fmt) (vs : List Val) : QBlock :=
  let n := vs.length
  if f != .s8a && vs.any Val.isNan then { scale := 0xFF, codes := List.replicate n 0, nanBlk := 1 }
  else if !(vs.any Val.nonzero) then zeroBlock n
  else
    let e0 := (blockExp f vs).getD 127
    let e := max (-127) (min 127 e0)
    let cs := vs.map (fun v => convertVal md false f (v.scale (-e)))
    let sat := (cs.map (·.sat)).sum
    let fl := (cs.map (·.flush)).sum
    let codes := cs.map (·.code)
    if codes.all (isZeroCode f) then { zeroBlock n with sat := sat, flush := fl }
    else { scale := (e + 127).toNat, codes := codes, sat := sat, flush := fl }

end Sys2Proof.Machine
end

