-- ==== Sys2Proof/Machine/Tallies.lean ====
section
/-! DEFINITION. The defined dot product, the long accumulator and tallies, and the split-double
decomposition (03_defined_dot_product.md, R100 to R139). -/

namespace Sys2Proof.Machine

/-- R108: the 576-bit long accumulator as its integer A = value * 2^272, with its side flags. -/
structure Acc where
  v : Int := 0
  nan : Bool := false
  pinf : Bool := false
  ninf : Bool := false
  ovf : Bool := false
deriving DecidableEq, Repr

/-- A fresh accumulation: zero, flags clear (R108). -/
def Acc.zero : Acc := {}

/-- R110: keep the low 576 bits, setting OVF when the exact sum left the range. -/
def Acc.wrap (a : Acc) : Acc :=
  let x := toSigned 576 (ofSigned 576 a.v)
  if x == a.v then a else { a with v := x, ovf := true }

/-- R109, R110 and R129: exact sum of values, flags by OR. -/
def Acc.add (a b : Acc) : Acc :=
  Acc.wrap { v := a.v + b.v, nan := a.nan || b.nan, pinf := a.pinf || b.pinf,
             ninf := a.ninf || b.ninf, ovf := a.ovf || b.ovf }

/-- A finite value as a multiple of 2^-272 (exact for every group sum, R111). -/
def accInt (neg : Bool) (m : Nat) (e : Int) : Int := signedAt neg m e (-272)

/-- The flags that one group's products set (R109), with no value. -/
def prodFlags (ps : List Val) : Acc :=
  { v := 0, nan := ps.any Val.isNan, pinf := ps.any (fun p => p == .inf false), ninf := ps.any (fun p => p == .inf true) }

/-- R106: the exact sum of the finite products, as a multiple of 2^-272. -/
def groupNarrow (ps : List Val) : Int :=
  ps.foldl (fun s p => match p with | .fin n m e => s + accInt n m e | _ => s) 0

/-- floor(log2 |x|) of an integer multiple of 2^-u, as an integer in units of the multiple. -/
def leadInt (x : Int) : Nat := x.natAbs.log2

/-- R107: one step of the windowed sum. Both the sum and the product are held as multiples of 2^-272,
so the window's lowest bit has weight 2^(l - 79) with l their larger lead in the same units; a window
whose lowest bit lies below 2^-272 drops nothing. -/
def windowStep (s : Int) (p : Int) : Int :=
  if p == 0 then s
  else
    let l := if s == 0 then leadInt p else max (leadInt s) (leadInt p)
    let q : Int := ((2 ^ (l - 79) : Nat) : Int)
    (s + p).fdiv q * q

/-- R107: the group sum of a pair of 16-bit formats, in increasing k. -/
def groupWide (ps : List Val) : Int :=
  ps.foldl (fun s p => match p with | .fin n m e => windowStep s (accInt n m e) | _ => s) 0

/-- Whether a format is one of the narrow formats of chapter 03. -/
def Fmt.narrow : Fmt → Bool
  | .s4 | .s8a | .s8b | .i8 => true | _ => false

/-- Whether a format is one of the 16-bit formats of chapter 03. -/
def Fmt.wide16 : Fmt → Bool
  | .w16 | .f16 => true | _ => false

/-- Stages 1 and 2 and the group's contribution to stage 3: one group of at most 32 products. -/
def groupAcc (narrow : Bool) (as bs : List Val) : Acc :=
  let ps := List.zipWith Val.mul as bs
  { prodFlags ps with v := if narrow then groupNarrow ps else groupWide ps }

/-- A dot product over a whole K range cut in groups of 32 (R105, R117); `fuel` bounds the groups. -/
def dotAux (narrow : Bool) : Nat → List Val → List Val → Acc → Acc
  | 0, _, _, acc => acc
  | fuel + 1, as, bs, acc =>
    if as.isEmpty then acc
    else dotAux narrow fuel (as.drop 32) (bs.drop 32) (acc.add (groupAcc narrow (as.take 32) (bs.take 32)))

/-- The defined dot product of two lists of element values added to `acc` (R103 stages 1 to 3). -/
def dotProduct (narrow : Bool) (as bs : List Val) (acc : Acc) : Acc := dotAux narrow (as.length / 32 + 1) as bs acc

/-- Table 3.3: the source of the final conversion, with exponent offset `z` (R112, R137). R114: an exact
zero is +0. -/
def Acc.source (a : Acc) (z : Int) : Val :=
  if a.nan then .nan
  else if a.pinf && a.ninf then .nan
  else if a.pinf then .inf false
  else if a.ninf then .inf true
  else if a.ovf then .nan
  else valOfInt a.v (z - 272)

/-! ### Tallies -/

/-- R124: h, the least integer with -2^h ≤ A < 2^h. -/
def tallyH (a : Int) : Nat :=
  if 0 ≤ a then (if a == 0 then 0 else a.natAbs.log2 + 1)
  else (let b := (-a - 1).natAbs; if b == 0 then 0 else b.log2 + 1)

/-- R124: the window position of a value's short tally. -/
def tallyW (a : Int) : Nat := tallyH a - 111

/-- R124: whether a value fits a short tally. -/
def fitsShort (a : Int) : Bool := a % ((2 ^ tallyW a : Nat) : Int) == 0

/-- Flag bits [115:112] of a tally (Table 3.4). -/
def Acc.flagBits (a : Acc) : Nat := b2n a.nan + 2 * b2n a.pinf + 4 * b2n a.ninf + 8 * b2n a.ovf

/-- The short tally word of a value that fits one (R122, R124). -/
def shortTally (a : Acc) : Nat :=
  let w := tallyW a.v
  w * 2 ^ 118 + a.flagBits * 2 ^ 112 + ofSigned 112 (a.v / ((2 ^ w : Nat) : Int))

/-- The five words of a long tally, word 0 first (R126). -/
def longTally (a : Acc) : List Nat :=
  let x := ofSigned 576 a.v
  [0x3FF * 2 ^ 118 + a.flagBits * 2 ^ 112 + bitsOf x 512 64, bitsOf x 0 128, bitsOf x 128 128,
   bitsOf x 256 128, bitsOf x 384 128]

/-- R125: a tally as the device sends, stores or returns it: short when it fits, else long. -/
def tallyWords (a : Acc) : List Nat := if fitsShort a.v then [shortTally a] else longTally a

/-- Flags of a tally's first word. -/
def accOfFlags (w v : Nat) (x : Int) : Acc :=
  { v := x, nan := bitsOf v (112 + w) 1 == 1, pinf := bitsOf v (113 + w) 1 == 1,
    ninf := bitsOf v (114 + w) 1 == 1, ovf := bitsOf v (115 + w) 1 == 1 }

/-- R123: value and flags of a short tally word with SPILLED = 0. -/
def readShort (w : Nat) : Acc :=
  accOfFlags 0 w (toSigned 112 (bitsOf w 0 112) * ((2 ^ bitsOf w 118 10 : Nat) : Int))

/-- R126: value and flags of a long tally. -/
def readLong (ws : List Nat) : Acc :=
  let g (i : Nat) := ws.getD i 0
  let x := g 1 + g 2 * 2 ^ 128 + g 3 * 2 ^ 256 + g 4 * 2 ^ 384 + bitsOf (g 0) 0 64 * 2 ^ 512
  accOfFlags 0 (g 0) (toSigned 576 x)

/-- R127: whether the first word of a tally marks a long one. -/
def isLongMark (w : Nat) : Bool := bitsOf w 118 10 == 0x3FF

/-- R128: whether a tally presented to the device is one it accepts. -/
def tallyAccepted (w0 : Nat) : Bool :=
  if isLongMark w0 then bitsOf w0 116 2 == 0 && bitsOf w0 64 48 == 0
  else bitsOf w0 116 2 == 0 && bitsOf w0 118 10 ≤ 464

/-- Read the tally at the head of a list of words: its value and the words left. -/
def readTally (ws : List Nat) : Option (Acc × List Nat) :=
  match ws with
  | [] => none
  | w :: rest => if isLongMark w then some (readLong ws, rest.drop 4) else some (readShort w, rest)

/-! ### Split-double decomposition (R133 to R135) -/

/-- The digits d of slices `n` onward of a magnitude r * 2^(-42): base 2^7, most significant first. -/
def slicesOf (r : Nat) : List Nat :=
  [bitsOf r 42 7, bitsOf r 35 7, bitsOf r 28 7, bitsOf r 21 7, bitsOf r 14 7, bitsOf r 7 7, bitsOf r 0 7]

/-- The block exponent: floor(log2) of the largest magnitude; none when every element is zero. -/
def maxLead : List Val → Option Int
  | [] => none
  | v :: vs =>
    match v, maxLead vs with
    | .fin _ m e, none => if m == 0 then none else some (lead m e)
    | .fin _ m e, some x => if m == 0 then some x else some (max (lead m e) x)
    | _, r => r

/-- R134 and R135: the seven I8 planes of one block of at most 32 F64 values with exponent offset `z`. -/
def splitBlock (vs : List Val) (z : Int) : List QBlock :=
  let n := vs.length
  let nanPlane : QBlock := { scale := 0xFF, codes := List.replicate n 0, nanBlk := 1 }
  if vs.any (fun v => !v.isFin) then List.replicate 7 nanPlane
  else match maxLead vs with
    | none => List.replicate 7 (zeroBlock n)
    | some e =>
      if e - z > 133 then List.replicate 7 nanPlane
      else
        -- r * 2^42 = |x| * 2^(48 - e), floored: the bits below slice 6 are dropped uncounted
        let digs : List (List Nat) := vs.map (fun v => match v with
          | .fin neg m ex => (slicesOf (atScale m (ex + 48 - e) 0)).map (fun d : Nat => if neg then ofSigned 8 (-(d : Int)) else d)
          | _ => List.replicate 7 0)
        (List.range 7).map (fun i : Nat =>
          let col := digs.map (fun d => d.getD i 0)
          let c := e - 6 - 7 * (i : Int) - z + 127
          if col.all (· == 0) then zeroBlock n
          else if c < 0 then { zeroBlock n with flush := (col.filter (· != 0)).length }
          else { scale := c.toNat, codes := col })

end Sys2Proof.Machine
end

