-- ==== Sys2Proof/Machine/State.lean ====
section
/-! DEFINITION. The state of the block as plain data, the ways a step can stop, and the state after reset. -/

namespace Sys2Proof.Machine

/-! ### Coaches (chapters 04 and 05) -/

/-- A weight tile as a weight set holds it (R151): format selector, codes at row * 128 + column, scale
codes at group * 128 + column; unlisted codes and scales are 0 (R193, R211). -/
structure Tile where
  sel : Nat := 3
  codes : SMap Nat := []
  scales : SMap Nat := []
deriving DecidableEq, Repr

/-- One activation row after it entered the array (R160): its selector's codes as read under R83, its
four scale codes, and whether a padding position of its last block holds a code other than +0 (R73). -/
structure ActRow where
  codes : List Nat := []
  scales : List Nat := []
  pad : Bool := false
deriving DecidableEq, Repr

/-- A tile flag (R91): what was seen, and the first flagged element. -/
structure TileFlag where
  nan : Bool := false
  pinf : Bool := false
  ninf : Bool := false
  first : Option (Nat × Bool) := none
deriving DecidableEq, Repr

/-- One output tile of an operation (R221): a memory tile is ordered by its address, a register tile by issue. -/
structure TileRec where
  mem : Bool
  key : Nat
  flag : TileFlag
deriving DecidableEq, Repr

/-- An operation (R184 to R189): its number, latched NUMCTL, counters, tiles, and its closing instruction. -/
structure Opn where
  seq : Nat
  mode : NumMode := {}
  sat : Nat := 0
  flush : Nat := 0
  nanBlk : Nat := 0
  tiles : List TileRec := []
  closed : Bool := false
  closerDone : Bool := false
  closerId : Nat := 0
  closerPc : Nat := 0
  statSel : Nat := 0
  sawNan : Bool := false
  failed : Bool := false
deriving DecidableEq, Repr

/-- An instruction issued and not yet complete (R177 to R180). `opn` is the operation that takes it in,
`wset` the weight set it uses (R148), `live` its stage test at issue (R249), `finished` its own work done
while it waits for the record it closes (R186). -/
structure Inf where
  id : Nat
  w : Nat
  pc : Nat
  opn : Option Nat := none
  wset : Nat := 0
  live : Bool := true
  started : Bool := false
  finished : Bool := false
  tile : Tile := {}
  rowsIn : Nat := 0
  rows : SMap ActRow := []
  added : SMap Nat := []
  nAdded : Nat := 0
  strBase : Nat := 0
  wregs : List Nat := []
  waccs : List Nat := []
deriving DecidableEq, Repr

/-- A tally waiting to enter the bank (R201): its entry, value, and the REDUCE it belongs to. -/
structure TallyIn where
  entry : Nat
  acc : Acc
  src : Nat
deriving DecidableEq, Repr

/-- One stream's buffer bookkeeping (R255 to R264); its registers are in `State.fields`. -/
structure Strm where
  len : Nat := 0
  recv : Nat := 0
  cons : Nat := 0
  resv : Nat := 0
  prod : Nat := 0
  share : Nat := 0
  shareOff : Nat := 0
  reqd : Nat := 0
  landed : Nat := 0
  stopping : Bool := false
  goHeld : Bool := false
  failed : Option Nat := none
deriving DecidableEq, Repr

/-- A piece of data that has returned for a request: its place in the request and its bytes. -/
structure Piece where
  at_ : Nat
  data : List Nat
deriving DecidableEq, Repr

/-- A translation that an outstanding request used (R279): its context, an address in its page, whether the page is of 2 MiB, and whether
the invalidation in progress waits for the request. -/
structure Used where
  ctx : Nat
  va : Nat
  big : Bool
  wait : Bool := false
deriving DecidableEq, Repr

/-- An outstanding stream request (R255). `left` packets are unanswered, `code` is its fault, `stale` marks
one from before a context reset (R271), `walking` one that waits for a translation, `used` the translation it went by. -/
structure SReq where
  id : Nat
  n : Nat
  off : Nat
  len : Nat
  va : Nat
  write : Bool
  cls : Nat
  left : Nat := 0
  got : List Piece := []
  code : Nat := 0
  stale : Bool := false
  walking : Bool := false
  used : List Used := []
deriving DecidableEq, Repr

/-- A walk in flight (R274): the page wanted, the level being read and the address of its entry. -/
structure Walk where
  id : Nat
  ctx : Nat
  va : Nat
  write : Bool
  level : Nat
  addr : Nat
deriving DecidableEq, Repr

/-- A translation-cache entry (R275). -/
structure TcEnt where
  ctx : Nat
  big : Bool
  vpn : Nat
  target : Nat
  unit : Nat
  ppn : Nat
  r : Bool
  w : Bool
  age : Nat
deriving DecidableEq, Repr

/-- A translation cache with its walks and the invalidation in progress (R275 to R279): `inval` holds the
kind, context and address of the invalidation. -/
structure Tcache where
  ents : SMap (Option TcEnt) := []
  walks : List Walk := []
  inval : Option (Nat × Nat × Nat) := none
  nextWalk : Nat := 0
deriving DecidableEq, Repr

/-- The parts of a coach that are not register fields. `idleFrom` is the coach cycle since which it has been IDLE or UNBOUND (R575). -/
structure CoachS where
  flight : List Inf := []
  nextId : Nat := 0
  ops : List Opn := []
  ctrl : Option Inf := none
  ending : Bool := false
  ended : Bool := false
  halted : Bool := false
  set0 : Tile := {}
  set1 : Tile := {}
  loaded0 : Bool := true
  loaded1 : Bool := true
  spill : List Nat := []
  tallyIn : List TallyIn := []
  syncDue : List (Nat × Nat) := []
  strm : SMap Strm := []
  reqs : List SReq := []
  moving : Option Nat := none
  idleFrom : Nat := 0
deriving DecidableEq, Repr

/-! ### DMA (chapter 06) -/

/-- A descriptor as a channel holds it (Table 6.5), with the virtual address it was fetched from. -/
structure Desc where
  va : Nat
  kind : Nat
  scirc : Bool
  dcirc : Bool
  irq : Bool
  cls : Nat
  slog2 : Nat
  dlog2 : Nat
  len : Nat
  src : Nat
  dst : Nat
  pattern : Nat
  bad : Bool
deriving DecidableEq, Repr

/-- A channel's work in hand: the descriptor, bytes of completed bursts, the length of the burst in flight (0 for none), its
unanswered packets, the source pieces returned, the bytes to write, `writing` once the writes are sent, `waiting` while a
translation is walked, the translations that outstanding requests used, the fault met (0 for none), and whether a context reset waits for
the descriptor to end (R295). `fetch` is the read of a descriptor from the ring: 1 while its address is walked, 2 while it is outstanding, 3
where what returns is dropped. `ending` is the write of the status: 1 while its address is walked, 2 while it is outstanding, 3 once it is
acknowledged; `status` is what it writes. `aborted` says that ABORT was written before the last burst completed (R291, R292). -/
structure Chan where
  desc : Option Desc := none
  done : Nat := 0
  burst : Nat := 0
  left : Nat := 0
  got : List Piece := []
  data : List Nat := []
  writing : Bool := false
  waiting : Bool := false
  used : List Used := []
  code : Nat := 0
  ctxReset : Bool := false
  fetch : Nat := 0
  ending : Nat := 0
  status : Nat := 0
  aborted : Bool := false
deriving DecidableEq, Repr

/-- A carriage's DMA engine: its channels and the last one served (R296). -/
structure DmaS where
  ch : SMap Chan := []
  last : Nat := 63
deriving DecidableEq, Repr

/-! ### Network (chapter 08) -/

/-- A packet: the header of Table 8.5 and its payload bytes. ROUTE takes the arrival ports that the
routers write into ROUTE (R337). `bad` marks data returned in error, `uid` is the model's own serial number of a packet. -/
structure Packet where
  vn : Nat
  sclass : Nat := 0
  ptr : Nat := 0
  hops : Nat := 0
  remote : Bool := false
  src : Nat := 0
  dst : Nat := 0
  epoch : Nat := 0
  ctx : Nat := 0
  rse : Nat := 0
  rrse : Nat := 0
  tag : Nat := 0
  op : Nat := 0
  status : Nat := 0
  route : Nat := 0
  link : Nat := 0
  addr : Nat := 0
  aux : Nat := 0
  len : Nat := 0
  data : List Nat := []
  bad : Bool := false
  uid : Nat := 0
deriving DecidableEq, Repr

/-- One flit of a packet: its index among the packet's flits, the virtual channel it travels on, and the bits that errors have inverted in it: data bits 0 to
1023, then the 40 bits of the end-to-end code (Table 8.4). -/
structure Flit where
  pkt : Packet
  i : Nat
  vc : Nat := 0
  errs : List Nat := []
deriving DecidableEq, Repr

/-- The network: route sheets (key unit * 1024 + entry * 4 + word), held packets per entry, wires and input
queues per input port, credits used per output queue, credits on their way back with the network cycle of each slot's freeing, replays in succession,
down links, the input last served by each output port plus 1 (R341), flits standing at unit ports, the heads at unit ports that their NI has accepted
(1 in time, 2 stale, by packet), responses delivered to units, counts of reduce
packets per source, probe buffers. -/
structure NetS where
  sheet : SMap Nat := []
  heldPk : SMap (List Packet) := []
  wires : SMap (List Flit) := []
  queues : SMap (List Flit) := []
  used : SMap Nat := []
  back : SMap (List Nat) := []
  fails : SMap Nat := []
  down : SMap Nat := []
  turn : SMap Nat := []
  heads : SMap Nat := []
  ports : SMap (List Flit) := []
  inbox : SMap (List Packet) := []
  msgs : SMap (List Packet) := []
  redCnt : SMap Nat := []
  probe : SMap (List Nat) := []
  savedEpoch : SMap Nat := []
  nextUid : Nat := 0
deriving DecidableEq, Repr

/-! ### HBM (chapter 09) -/

/-- A request in a pseudo-channel queue (R370): its packet, its PA and bytes, when it entered, whether its
wait under R374 has been counted, and how many of its bursts have been issued; of a read, what its bursts held (32 bytes each), the
numbers (PA / 32) of those that were poisoned, and the controller cycle of its last. -/
structure HReq where
  pkt : Packet
  pa : Nat
  n : Nat
  write : Bool
  cls : Nat
  entered : Nat
  order : Nat
  counted : Bool := false
  data : List Nat := []
  bad : List Nat := []
  served : Nat := 0
  issued : Nat := 0
deriving DecidableEq, Repr

/-- A pseudo-channel: queues, the firmware's own writes that wait for room in the write queue, and by bank the open row, the cycle of its last
access, the refresh debt, the cycle in which a refresh last fell due, and the neighbour rows to activate once the row is precharged (R383). -/
structure PcS where
  rq : List HReq := []
  wq : List HReq := []
  late : List HReq := []
  openRow : SMap (Option Nat) := []
  lastUse : SMap Nat := []
  refDue : SMap Nat := []
  refAt : SMap Nat := []
  nbr : SMap (List Nat) := []
deriving DecidableEq, Repr

/-- One controller (R365 to R396). `reads` are the bursts in hand: reads whose last burst has been issued, and read-modify-writes. Fixed slots count from
`slotBase` (R379), per-bank refresh intervals from `refFrom` (Table 9.3, step 5). `fcStep` is the step of Table 9.3 reached, 0 when no change runs. -/
structure HbmS where
  pcs : SMap PcS := []
  edgeIn : SMap (List Packet) := []
  reads : List HReq := []
  g : Nat := 1
  cyc : Nat := 0
  orderNo : Nat := 0
  slotBase : Nat := 0
  refFrom : Nat := 0
  fcStep : Nat := 0
  trCmd : Option (Nat × Nat) := none
  pattern : SMap Nat := []
  mrws : List (Nat × Nat) := []
  selfRef : Bool := false
  refreshes : Nat := 0
  allRefreshes : Nat := 0
deriving DecidableEq, Repr

/-- HBM contents shared by all controllers: bytes by PA and the poisoned bursts by PA / 32 (R391). -/
structure HbmMem where
  bytes : List Host.Cell := []
  poison : SMap Nat := []
deriving DecidableEq, Repr

/-! ### Contexts and queues (chapter 14) -/

/-- A window of a context descriptor (Table 14.5): target, unit, base and size in bytes. -/
structure Window where
  target : Nat := 0
  unit : Nat := 0
  base : Nat := 0
  size : Nat := 0
deriving DecidableEq, Repr

/-- A work order in progress (R561 to R563): its posting number in its queue, what its completion needs, and the coaches whose END is still
awaited. A shadow queue holds so the work orders that the partner has started and not completed (R656). -/
structure Running where
  no : Nat
  tag : Nat := 0
  irq : Bool := false
  hold : Bool := false
  coaches : List Nat := []
  sqhead : Nat := 0
deriving DecidableEq, Repr

/-- A completion waiting to be written (R564, R565): the posting number, the TAG (none while it still stands in the submission ring), `held` while a
HOLD waits for CQREL, `marks` the mirror records that the partner must have applied, by coupler link (R647). -/
structure Compl where
  no : Nat
  tag : Option Nat
  status : Nat
  detail : Nat := 0
  sqhead : Nat := 0
  irq : Bool := false
  held : Bool := false
  marks : Option (List (Nat × Nat)) := none
deriving DecidableEq, Repr

/-- A queue (R554, R555, R560 to R565): `posted` counts the work orders posted since it was enabled and `taken` those whose slots were
freed; a REIN work order numbered below `cancel` is cancelled (R563), one below `released` has had its rein cycle (R320); `used` counts
completion entries not yet released, `repost` lists work orders that a takeover posts again, `doneTop` is one more than the last work order
whose completion was mirrored. `disabling` waits for R555, `again` says that the queue is enabled anew then. -/
structure QueueS where
  en : Bool := false
  sqBase : Nat := 0
  cqBase : Nat := 0
  log2 : Nat := 2
  prio : Nat := 0
  vec : Nat := 0
  head : Nat := 0
  tail : Nat := 0
  posted : Nat := 0
  taken : Nat := 0
  cqTail : Nat := 0
  used : Nat := 0
  phase : Bool := true
  running : List Running := []
  compl : List Compl := []
  cancel : Nat := 0
  released : Nat := 0
  disabling : Bool := false
  again : Bool := false
  repost : List Nat := []
  doneTop : Nat := 0
deriving DecidableEq, Repr

/-- A context (R550, R551, R567): its state, descriptor, event ring, the causes recorded since it stopped (R601), the cause
of its brake, whether the brake ends in FREE (CTX_DESTROY), the ring last served at each PRIO (R560), the recoveries that its brake waits for
(a coach ordinal, or 100 plus a carriage), whether the brake ends an admin command, and its queues by ring. -/
structure CtxS where
  state : Nat := 0
  root : Nat := 0
  vf : Nat := 0
  isvf : Bool := false
  port : Nat := 0
  part : Nat := 0
  evtLog2 : Nat := 0
  evtVec : Nat := 0
  qtable : Nat := 0
  evtRing : Nat := 0
  w0 : Window := {}
  w1 : Window := {}
  evtTail : Nat := 0
  evtPhase : Bool := true
  lost : Nat := 0
  causes : List Nat := []
  cause : Nat := 0
  toFree : Bool := false
  lastRing : SMap Nat := []
  waitRec : List Nat := []
  admEnd : Bool := false
  queues : SMap QueueS := []
deriving DecidableEq, Repr

/-! ### Rein (chapter 07) -/

/-- The rein beside its registers (R319 to R325): the release cycle taken, whether the line was released, consecutive high
samples, and the rein cycle scheduled. -/
structure ReinS where
  releaseAt : Option Nat := none
  released : Bool := false
  highs : Nat := 0
  cycleAt : Option Nat := none
deriving DecidableEq, Repr

/-- An event from outside that waits for a slot boundary (R310, R311): the rank of its source in Table 7.2, the lockstep cycle before which it is not
admitted, and the command. -/
structure Waiting where
  rank : Nat
  due : Nat
  cmd : Instr
deriving DecidableEq, Repr

/-- Lockstep beside its registers (R309 to R316): events that wait for a slot boundary, `opened` while a boundary admits them, the lockstep cycle of the
last age tick plus 1, and the coach cycle, plus 1, of the last write of ENABLE = 0 that ended lockstep. -/
structure LockS where
  waiting : List Waiting := []
  opened : Bool := false
  ageAt : Nat := 0
  endedAt : Nat := 0
deriving DecidableEq, Repr

/-! ### Cotric links (chapter 11) -/

/-- A lane (R450 to R456, R470): its receiver's outstanding tap request, what it last acted on as a transmitter, the training
flags of both ends, missed sync blocks, the last intact sync block's TSTAMP with its arrival cycle, the transmitter's scrambler register, its run of
equal symbols (R444, R445), the codewords sent since injection was enabled (R474), the sync blocks that still carry an abort mark (R469), the
data blocks sent since the last sync block (R448), the receiver's scrambler register and run, the pattern generator's register (0 while it stands) and the
checker's register with the symbols that have filled it (R471, R472). -/
structure LaneS where
  req : Option (Nat × Nat) := none
  rseq : Nat := 0
  acted : Nat := 0
  ackst : Nat := 0
  pendReq : Option (Nat × Nat) := none
  mine : Bool := false
  theirs : Bool := false
  missed : Nat := 0
  echo : Option (Nat × Nat) := none
  scr : Nat := 0
  run : Nat × Nat := (0, 0)
  injected : Nat := 0
  abortMarks : Nat := 0
  dataSent : Nat := 64
  rscr : Nat := 0
  rrun : Nat × Nat := (0, 0)
  prbs : Nat := 0
  chkReg : Nat := 0
  chkSeen : Nat := 0
deriving DecidableEq, Repr

/-- A packet a link sends (R459): RESP and XTAG of its envelope. -/
structure LOut where
  pkt : Packet
  resp : Bool := false
  xtag : Nat := 0
deriving DecidableEq, Repr

/-- A link block kept for resending (R460, R462): SEQ, payload, FPO, the packets that start in it, the packet that goes on in it from the block before,
resends so far. -/
structure RBlk where
  seq : Nat
  payload : List Nat
  fpo : Nat
  pk : List LOut := []
  onward : Option LOut := none
  resends : Nat := 0
deriving DecidableEq, Repr

/-- A link NI (R458 to R469). `waiting` holds packets that lack credits, `tx` the bytes of admitted link packets not yet cut into
blocks with `starts`, the packets that start in them and where; `resend` is the retry-buffer place that is sent next, `lent` the
credits in use and `freed`, `lastCnt` the cumulative counts by virtual network, `rx` the bytes of a link packet not yet whole, `rxq`
packets that wait for a return-table entry, `ret` the return table, `owed` entries to answer with NETERR, with their index, `held` packets that wait
for their lockstep cycle, each with its RESP, `part` the packet that goes on in the next block, `alignAt` the coach cycle, plus 1, in which ALIGN was entered, and
`resentAt` the network cycle, plus 1, of the last resend. -/
structure LinkS where
  waiting : List LOut := []
  tx : List Nat := []
  starts : List (Nat × LOut) := []
  seqNext : Nat := 0
  retry : List RBlk := []
  resend : Option Nat := none
  expect : Nat := 0
  nakDue : Bool := false
  lastNak : Option Nat := none
  lent : SMap Nat := []
  freed : SMap Nat := []
  lastCnt : SMap Nat := []
  sent : Nat := 0
  rx : List Nat := []
  rxq : List Packet := []
  ret : SMap (Option Packet) := []
  owed : List (Nat × Packet) := []
  held : List (Nat × Bool × Packet) := []
  carried : Bool := false
  readySeen : Bool := false
  fireSeen : Bool := false
  part : Option LOut := none
  alignAt : Nat := 0
  resentAt : Nat := 0
deriving DecidableEq, Repr

/-! ### Tenders (chapter 10) -/

/-- A protocol packet (Tables 10.2 and 10.3). -/
structure TPkt where
  typ : Nat
  tag : Nat := 0
  status : Nat := 0
  len : Nat := 0
  addr : Nat := 0
  data : List Nat := []
deriving DecidableEq, Repr

/-- An access of a bay, as sent to the module (R401, R402, R405): the network request it belongs to, its part of it, resends. -/
structure BayAcc where
  req : TPkt
  group : Nat
  part : Nat := 0
  sent : Bool := true
  resends : Nat := 0
deriving DecidableEq, Repr

/-- A network request as a bay serves it (R405): unanswered parts, worst status, returned pieces, and the mirror records that the
partner must acknowledge first (R647). -/
structure BayReq where
  id : Nat
  pkt : Packet
  left : Nat
  status : Nat := 0
  got : List Piece := []
  awaits : List (Nat × Nat) := []
deriving DecidableEq, Repr

/-- One copy of a table of a module (R410): its generation number, whether its CRC-32C holds, its content. -/
structure Copy where
  gen : Nat := 0
  ok : Bool := true
  val : List Nat := []
deriving DecidableEq, Repr

/-- The two copies of a table of a module (R410). -/
structure Copies where
  a : Copy := {}
  b : Copy := { ok := false }
deriving DecidableEq, Repr

/-- A module (R399, R403 to R410): identity, the maintenance activity it runs, and its tables in two copies each: the wear table (bytes written to the
media, and SPARE), the remap table (units of SPARE that replace worn blocks), and the seal record (DEVSERIAL and ATTACHCNT). `acked` gives, for a tag,
one more than the address of the WRITE that was acknowledged last with it (R404). -/
structure ModS where
  present : Bool := false
  idOk : Bool := true
  serial : Nat := 0
  make : Nat := 0
  capGib : Nat := 0
  rated : Nat := 0
  wear : Copies := {}
  remap : Copies := {}
  sealed : Copies := {}
  maint : Nat := 0
  maintTag : Nat := 0
  acked : SMap Nat := []
deriving DecidableEq, Repr

/-- A bay beside its registers (R400 to R429): delivered requests, accesses in order of acceptance, requests in hand, packets on the
lanes both ways, the DETACH and the lock-loss wait in progress, the module's seal record as last
read, the wear summaries received, the notices raised since the module was attached, the packets of the bay's own that wait for a tag (type, address, data), and
the activity that runs. -/
structure BayS where
  inq : List Packet := []
  acc : List BayAcc := []
  reqList : List BayReq := []
  nextId : Nat := 0
  toMod : List TPkt := []
  toDev : List TPkt := []
  detaching : Bool := false
  lockWait : Bool := false
  sealRec : Option (Nat × Nat) := none
  attachPending : Bool := false
  history : List (Nat × Nat) := []
  noticed : List Nat := []
  own : List (Nat × Nat × List Nat) := []
  maintKind : Nat := 0
  modl : ModS := {}
deriving DecidableEq, Repr

/-! ### Coupled pairs (chapter 17) -/

/-- A mirror record (Table 17.2). -/
structure MRec where
  mseq : Nat
  kind : Nat
  ctx : Nat := 0
  addr : Nat := 0
  data : List Nat := []
deriving DecidableEq, Repr

/-- A pair as one device holds it: records received on each coupler link and not yet applied, the last MSEQ applied, links that
discard until the next SWEEPSTART, the SWEEPEND numbers whose acknowledgement ends a sweep, bytes swept, the partner's state as last
heard, the journal record whose write is in hand by link, whether the intake is closed (R656), and the links that are being swept. -/
structure PairS where
  intake : SMap (List MRec) := []
  applied : SMap Nat := []
  dropping : SMap Nat := []
  sweepEnd : List (Nat × Nat) := []
  swept : Nat := 0
  jrnBusy : SMap Nat := []
  partner : Nat := 0
  closed : Bool := false
  sweepIn : SMap Nat := []
deriving DecidableEq, Repr

/-! ### Event log (chapter 16) -/

/-- An entry of the event log (Table 16.8). -/
structure LogEnt where
  time : Nat
  seq : Nat
  code : Nat
  source : Nat
  ctx : Option Nat
  aux : Nat
  data : Nat
deriving DecidableEq, Repr


/-! ### Fabric (chapter 12) -/

/-- A packet that the fabric is presenting flit by flit (R491). -/
structure PortIn where
  pkt : Packet
  need : Nat
deriving DecidableEq, Repr

/-- A request of a fabric port that awaits its answer (R279, R492): its tag and the translation it used. -/
structure PortOwed where
  tag : Nat
  used : List Used := []
deriving DecidableEq, Repr

/-- A carriage's fabric beside its registers: cart frames as loaded (R507) and the settings they spell, flip-flops at key (cell * 2 + which)
(0, 1, or 2 for the initial value), LUT contents of memory uses (none for the configured bits), cart RAM in units of 9 bits at
key block * 4096 + unit, RAM output registers at block * 2 + port, the flits that a port is taking in, the ports that have taken a flit in the present cycle of their
clock, a port's packets that wait to be sent, its requests that are unanswered, the flits it holds for the fabric (the first sixteen in its asynchronous buffer), user I/O
captures, values captured whole and input registers at n * 2 + half, output registers and output enables at n * 2 + half, latched
pads, whether a release is wanted, whether the pads are wholly off (R532). A cell's
number is position * 16 + k. -/
structure FabS where
  frames : SMap (List Nat) := []
  cfg : FabCfg := {}
  ff : SMap Nat := []
  lut : SMap (Option Nat) := []
  ram : SMap Nat := []
  ramOut : SMap Nat := []
  taking : SMap (Option PortIn) := []
  took : SMap Nat := []
  sendQ : SMap (List Packet) := []
  owed : SMap (List PortOwed) := []
  toFab : SMap (List Flit) := []
  cap : SMap Nat := []
  due : SMap Nat := []
  inp : SMap Nat := []
  outR : SMap Nat := []
  oeR : SMap Nat := []
  latched : SMap Nat := []
  release : Bool := false
  dead : Bool := false
deriving DecidableEq, Repr

/-! ### Loading (chapter 13) -/

/-- A load in progress: whether the header has passed, its fields, sections received, bytes received, plaintext and ciphertext so far (the CRC and
the tag cover them), the DEVICE section taken (ILV, CPL, PARTMAP), the REGS writes taken (carriage, offset, value). -/
structure LoadS where
  headed : Bool := false
  enc : Bool := false
  keyRam : Bool := false
  nsect : Nat := 0
  imgid : Nat := 0
  length : Nat := 0
  iv : Nat := 0
  header : List Nat := []
  sect : Nat := 0
  pos : Nat := 0
  plain : List Nat := []
  cipher : List Nat := []
  device : Option (Bool × Bool × Nat) := none
  regs : List (Nat × Nat × Nat) := []
deriving DecidableEq, Repr

/-! ### Maintenance (chapter 16) -/

/-- A maintenance request (Table 16.10): activity, unit, whether the host made it. -/
structure MReq where
  kind : Nat
  unit : Nat
  host : Bool
deriving DecidableEq, Repr

/-- The maintenance arbiter (R632 to R636): activities running, requests queued, oldest first. -/
structure ArbS where
  running : List MReq := []
  queue : List MReq := []
deriving DecidableEq, Repr

/-! ### Admin rings and PCIe ports (chapter 14) -/

/-- A port's admin rings as the scheduler core holds them (R569): ring size in force, submission head and tail, completion tail, entries not yet
released, phase. -/
structure AdmS where
  log2 : Nat := 2
  tail : Nat := 0
  head : Nat := 0
  cqTail : Nat := 0
  used : Nat := 0
  phase : Bool := true
deriving DecidableEq, Repr

/-- An admin command that is not finished at once (CTX_DESTROY, BRAKE, CTX_MOVE): port, opcode, context, TAG, coaches. -/
structure AdmCmd where
  port : Nat
  opc : Nat
  ctx : Nat
  tag : Nat
  src : Nat := 0
  dst : Nat := 0
deriving DecidableEq, Repr

/-- A PCIe port (R544 to R549): whether PERST_N is high, the number of VFs that the host has enabled, the functions on which ATS is
enabled, the ATS cache
(key function * 2^52 + page, value translated page + 1; function 0 is the PF, 1 + v a VF), and the doorbell slots of its VFs (key v * 16 + i, value
context + 1). `ready` says that the port answers configuration requests. -/
structure PortS where
  up : Bool := false
  ready : Bool := false
  vfs : Nat := 0
  ats : List Nat := []
  cache : SMap Nat := []
  slots : SMap Nat := []
deriving DecidableEq, Repr

/-- A device request to a host page that waits at a port (R547): `asked` while an ATS translation is awaited, else a completion. -/
structure HostReq where
  port : Nat
  pkt : Packet
  asked : Bool
deriving DecidableEq, Repr

/-! ### Recovery and the PM core (chapter 16) -/

/-- Recoveries in progress, and the hang samples (R603): the always-on cycle plus 1 of the first sample that saw a condition, by condition, the COA_ISSUED
last sampled of each coach, and the cycle of the last sample. Conditions: k a coach in SYNC, 128 + k a coach in RUN, 256 + k * 8 + n a stream,
2048 + n a context. -/
structure RecS where
  coaches : List Nat := []
  cars : List Nat := []
  seen : SMap Nat := []
  issued : SMap Nat := []
  sampled : Nat := 0
deriving DecidableEq, Repr

/-- The PM core (R614 to R620): a chip reset requested, whether one runs, whether the compute part is held until a power cycle, the cycle at which the last chip
reset ended, whether the scheduler core's heartbeat is current, the level of HEARTBEAT, whether POR_N is low, the rails up
(R690: steps 1 to 6 in order), the tries of the step in hand, whether rails are being raised, and whether THERMTRIP_N is low. -/
structure PmS where
  wanted : Option Nat := none
  running : Bool := false
  dead : Bool := false
  lastEnd : Option Nat := none
  schedOk : Bool := true
  beat : Bool := false
  inPor : Bool := true
  rails : Nat := 0
  tries : Nat := 0
  raising : Bool := false
  tripped : Bool := false
deriving DecidableEq, Repr

/-! ### Power (chapter 15) -/

/-- A core-voltage change that awaits its acknowledgement (R588 to R590): carriage, new and former voltage in units of 10 mV, and whether the voltage
has been written twice. -/
structure AvsChg where
  car : Nat
  target : Nat
  former : Nat
  again : Bool := false
deriving DecidableEq, Repr

/-- Power sequencing: the entry in its first phase (state, carriages), the blocks that have stopped, in order (order of Table 15.2, carriage), the mask of
carriages that wake from S2, whether the device is in S3, the voltage changes that await acknowledgement, the profile being applied, the write of SEL that
is held, the profile and its core voltage (10 mV) in force, and whether the hard limit holds the clock down (R595). -/
structure PwrS where
  entry : Option (Nat × Nat) := none
  stopped : List (Nat × Nat) := []
  waking : Nat := 0
  s3 : Bool := false
  avs : List AvsChg := []
  goal : Option Nat := none
  held : Option Nat := none
  inForce : Nat := 0
  volt : Nat := 75
  hot : Bool := false
deriving DecidableEq, Repr

/-! ### Test (chapter 18) -/

/-- The test access port (R666 to R669): the instruction in force (0 IDCODE, 1 BYPASS, 2 SAMPLE/PRELOAD, 3 EXTEST, 4 CLAMP, 5 HIGHZ, 6 EXTEST_PULSE,
7 EXTEST_TRAIN) and the boundary cells. -/
structure TapS where
  ir : Nat := 0
  cells : List Bool := []
deriving DecidableEq, Repr

/-- EFuses as programmed (R683, R684): image key, debug key, policy. -/
structure FuseS where
  image : Nat := 0
  debug : Nat := 0
  policy : Nat := 0
  locked : Bool := false
deriving DecidableEq, Repr

/-! ### Reports and outputs -/

/-- A fault report on its way to the scheduler core (R597): the cause of Table 16.4, the context (R598), the
reporting unit, the unit's own code and record register, the event record of R567 that goes with it (KIND 0
for none), the coach or carriage that a recovery acts on, and the lockstep cycle of the fault (R311). -/
structure Report where
  cause : Nat
  ctx : Option Nat
  unit : Nat
  code : Nat
  data : Nat := 0
  kind : Nat := 0
  evUnit : Nat := 0
  sub : Nat := 0
  va : Nat := 0
  seq : Nat := 0
  target : Nat := 0
  cyc : Nat := 0
deriving DecidableEq, Repr

/-- How the last BAR0 or BAR2 access completed (R18, R53, R54). -/
inductive Completion where
  | none
  | data (v : Nat)
  | done
  | ur
deriving DecidableEq, Repr

/-- What leaves the device at its boundary. Function 0 of a port is its PF, 1 + v its VF v. A land's level is 0 low, 1 high or released, 2 high impedance. -/
inductive Output where
  | msix (port : Nat) (vf : Option Nat) (vec : Nat)
  | hostWrite (port fn addr : Nat) (data : List Nat)
  | hostRead (port fn addr n tag : Nat)
  | atsRequest (port fn addr : Nat)
  | linkBlock (link : Nat) (b : LinkBlk)
  | syncBlock (lane : Nat) (b : SyncBlk)
  | symbols (lane : Nat) (levels : List Nat)
  | serial (land : String) (bits : List Bool)
  | loadRead (src unit addr : Nat)
  | rail (step : Nat) (on : Bool)
  | avs (rail : Nat) (mv : Nat)
  | pin (name : String) (level : Nat)
  | uio (car n : Nat) (level : Option Bool)
  | tdo (bits : List Bool)
  | scan (mode : Nat) (cells : List Bool)
  | neighbour (stack pc bank row : Nat)
deriving DecidableEq, Repr

/-! ### The whole state -/

/-- The state of the block. Keys: `seqMem` coach * 1024 + index; `store` coach * 2^23 + address; `bank`
coach * 131072 + entry (R166); `vreg` (coach * 64 + physical register) * 512 + lane; `sacc`
(coach * 8 + accumulator) * 512 + lane; `coaches` coach ordinal; `hbmc` controller c * 2 + s. -/
structure State where
  pending : List Instr := []
  freeIx : Nat := 0
  resp : Completion := .none
  out : List Output := []
  fields : SMap Nat := []
  latches : SMap Nat := []
  held : SMap Nat := []
  seqMem : SMap Nat := []
  store : List Host.Cell := []
  bank : SMap Nat := []
  vreg : SMap Nat := []
  sacc : SMap Nat := []
  coaches : SMap CoachS := []
  dma : SMap DmaS := []
  net : NetS := {}
  hbmc : SMap HbmS := []
  hbm : HbmMem := {}
  reports : List Report := []
  aoCycles : Nat := 0
  netCycles : Nat := 0
  couplerAside : Bool := false
  tcs : SMap Tcache := []
  ctxs : SMap CtxS := []
  media : List Host.Cell := []
  rein : ReinS := {}
  lock : LockS := {}
  coachCycles : Nat := 0
  netFrac : Nat := 0
  aoFrac : Nat := 0
  laneSt : SMap LaneS := []
  links : SMap LinkS := []
  bays : SMap BayS := []
  pair : PairS := {}
  log : SMap (Option LogEnt) := []
  fab : SMap FabS := []
  load : LoadS := {}
  keptRegs : List (Nat × Nat × Nat) := []
  keyRam : Nat := 0
  fuseKey : Nat := 0
  vsense : Nat := 0
  arb : ArbS := {}
  adm : SMap AdmS := []
  admBusy : Option AdmCmd := none
  admLast : Nat := 3
  ports : SMap PortS := []
  hostReq : List HostReq := []
  recov : RecS := {}
  pm : PmS := {}
  pwr : PwrS := {}
  tap : TapS := {}
  fuses : FuseS := {}
  dbgKey : Nat := 0
  dbgLevel : Nat := 0
  dbgNonce : Bool := false
  pertFrom : Nat := 0
deriving DecidableEq, Repr

/-- Why a step can stop with a fault. -/
inductive Fault where
  /-- No command raises it: every outcome the spec names is a state of the block, so a fault is never
  answered. It is safe: a model that stops says nothing. -/
  | stuck
deriving DecidableEq, Repr

/-- Why a step can refuse. -/
inductive Refusal where
  /-- The command has no meaning yet; raised by its arm of `exec` alone. Safe. -/
  | notModelled (mnemonic : String)
deriving DecidableEq, Repr

/-- The state right after reset: every register field at its reset value (no entry listed), memories empty, and
everything else as the structures' defaults name it. -/
def State.reset : State := {}

end Sys2Proof.Machine
end

