-- ==== Sys2Proof/Machine/Ops.lean ====
section
/-! DEFINITION. The named operations over registers and memories. -/

namespace Sys2Proof.Machine

/-- The outcome type of every meaning. -/
abbrev Res := Host.Outcome State Fault Refusal

/-- A result that is always a next state. -/
def ok (s : State) : Res := .next s

/-! ### Register fields -/

/-- Value of a register field of unit `u`, index `i`. -/
def State.fld (s : State) (f : Fld) (u : Nat) (i : Nat := 0) : Nat := mget f.rst s.fields (f.key u i)

/-- Write a register field; the value is cut to the field's width. -/
def State.setFld (s : State) (f : Fld) (u i v : Nat) : State :=
  { s with fields := mset f.rst s.fields (f.key u i) (v % 2 ^ f.w) }

/-- A one-bit field as a Bool. -/
def State.flag (s : State) (f : Fld) (u : Nat) (i : Nat := 0) : Bool := s.fld f u i == 1

/-- Set a one-bit field. -/
def State.setFlag (s : State) (f : Fld) (u i : Nat) (b : Bool) : State := s.setFld f u i (b2n b)

/-- Add to a counter that stops at its largest value. -/
def State.bump (s : State) (f : Fld) (u i n : Nat) : State := s.setFld f u i (satAdd (2 ^ f.w - 1) (s.fld f u i) n)

/-- Add to a counter that wraps. -/
def State.wrapAdd (s : State) (f : Fld) (u i n : Nat) : State := s.setFld f u i (s.fld f u i + n)

/-- Set several fields of one unit and index. -/
def State.setFlds (s : State) (u i : Nat) : List (Fld × Nat) → State
  | [] => s
  | (f, v) :: r => (s.setFld f u i v).setFlds u i r

/-- Whether the field of a stored key is cleared at a level (R29) and lies in the given units. -/
def clearedBy (lv : Level) (inScope : Fld → Nat → Nat → Bool) (k : Nat) : Bool :=
  match keyFld k with
  | none => false
  | some f => decide (f.lvl.rank ≤ lv.rank) && inScope f (keyUnit k) (keyIndex k)

/-- Clear every field of a scope that a reset level clears: the field reads its reset value again (R28, R29). -/
def State.resetFields (s : State) (lv : Level) (inScope : Fld → Nat → Nat → Bool) : State :=
  { s with fields := mdrop (clearedBy lv inScope) s.fields }

/-! ### Register pairs (R19, R20) -/

/-- The low word that a pair's next high-word write takes effect with (R20): the one held, else the current one. `held` lists a held word plus 1. -/
def State.heldLow (s : State) (f : Fld) (u i cur : Nat) : Nat :=
  match mget 0 s.held (f.key u i) with
  | 0 => cur % 2 ^ 32
  | w + 1 => w

/-- Hold the low word of a pair (R20). -/
def State.holdLow (s : State) (f : Fld) (u i w : Nat) : State := { s with held := mset 0 s.held (f.key u i) (w % 2 ^ 32 + 1) }

/-- The held low word has taken effect. -/
def State.dropLow (s : State) (f : Fld) (u i : Nat) : State := { s with held := mset 0 s.held (f.key u i) 0 }

/-- Latch the high word of a pair (R19); `latches` lists a latched word plus 1. -/
def State.latchHigh (s : State) (f : Fld) (u i w : Nat) : State := { s with latches := mset 0 s.latches (f.key u i) (w % 2 ^ 32 + 1) }

/-- What a read of a pair's high word returns (R19). -/
def State.latchedHigh (s : State) (f : Fld) (u i cur : Nat) : Nat :=
  match mget 0 s.latches (f.key u i) with
  | 0 => cur
  | w + 1 => w

/-! ### Free values, outputs and reports -/

/-- Draw one free value below 2^w. -/
def State.draw (s : State) (w : Nat) : Nat × State := (Config.free s.freeIx % 2 ^ w, { s with freeIx := s.freeIx + 1 })

/-- Draw `n` free values below 2^w. -/
def State.draws (s : State) (w n : Nat) : List Nat × State :=
  ((List.range n).map (fun i => Config.free (s.freeIx + i) % 2 ^ w), { s with freeIx := s.freeIx + n })

/-- Something leaves the device. -/
def State.emit (s : State) (o : Output) : State := { s with out := o :: s.out }

/-- A unit reports to the scheduler core; the report waits for FAULT_REPORT. -/
def State.report (s : State) (r : Report) : State :=
  { s with reports := s.reports ++ [{ r with cyc := if s.fld DEV_LSSTAT_STATE 0 == 2 then s.fld DEV_LSCYC_CYC 0 else 0 }] }

/-! ### Byte memories -/

/-- One byte; a byte that nothing has written reads 0. -/
def memByte (m : List Host.Cell) (a : Nat) : Nat := (mget (0 : Byte) m a).toNat

/-- Write one byte. -/
def memPut (m : List Host.Cell) (a v : Nat) : List Host.Cell := mset (0 : Byte) m a (BitVec.ofNat 8 v)

/-- `n` bytes from `a`. -/
def memRead (m : List Host.Cell) (a n : Nat) : List Nat := (mslice (0 : Byte) m a n).map BitVec.toNat

/-- Write bytes from `a` on. -/
def memWrite (m : List Host.Cell) (a : Nat) (bs : List Nat) : List Host.Cell :=
  mblock (0 : Byte) m a (bs.map (BitVec.ofNat 8))

/-- Bytes to a number, little-endian (R17). -/
def leNat : List Nat → Nat
  | [] => 0
  | b :: bs => b % 256 + 256 * leNat bs

/-- A number as `n` little-endian bytes. -/
def leBytes : Nat → Nat → List Nat
  | 0, _ => []
  | n + 1, v => v % 256 :: leBytes n (v / 256)

/-- A list cut into runs of `n`; `fuel` bounds the runs. -/
def chunksAux {α : Type} (n : Nat) : Nat → List α → List (List α)
  | 0, _ => []
  | fuel + 1, l => if l.isEmpty then [] else l.take n :: chunksAux n fuel (l.drop n)

/-- A list cut into runs of `n`. -/
def chunks {α : Type} (n : Nat) (l : List α) : List (List α) := chunksAux n (l.length / n + 1) l

/-! ### Coaches -/

/-- The coach-store size (R173). -/
def storeSize : Nat := 0x800000

/-- A coach's state. -/
def State.coach (s : State) (k : Nat) : CoachS := mget {} s.coaches k

/-- Replace a coach's state. -/
def State.setCoach (s : State) (k : Nat) (c : CoachS) : State := { s with coaches := mset {} s.coaches k c }

/-- Change a coach's state. -/
def State.updCoach (s : State) (k : Nat) (f : CoachS → CoachS) : State := s.setCoach k (f (s.coach k))

/-- Read the coach store. -/
def State.storeRead (s : State) (k a n : Nat) : List Nat := memRead s.store (k * storeSize + a) n

/-- Write the coach store. -/
def State.storeWrite (s : State) (k a : Nat) (bs : List Nat) : State :=
  { s with store := memWrite s.store (k * storeSize + a) bs }

/-- The 128-bit instruction at an index of the sequencer memory. -/
def State.seqWord (s : State) (k i : Nat) : Nat := mget 0 s.seqMem (k * 1024 + i)

/-- Bits of word `w` of an instruction (R190). -/
def fieldOf (ins w lo n : Nat) : Nat := bitsOf ins (32 * w + lo) n

/-- The coach's carriage. -/
def carOf (k : Nat) : Nat := k / 24

/-- The coach's 10-bit unit number (R334). -/
def coachUnit (k : Nat) : Nat := (k / 24) * 256 + k % 24

/-- The 7-bit coach number (R40). -/
def coachNumber (k : Nat) : Nat := (k / 24) * 32 + k % 24

/-- The ordinal of a 7-bit coach number, none for index values 24 to 31 (R40). -/
def ordinalOf (n : Nat) : Option Nat := if n % 32 < 24 then some ((n / 32 % 4) * 24 + n % 32) else none

/-- The context bound to a coach, none while it is unbound. -/
def State.boundCtx (s : State) (k : Nat) : Option Nat :=
  if s.flag COA_ROLE_BOUND k then some (s.fld COA_ROLE_CONTEXT k) else none

/-- NUMCTL of a coach as a mode. -/
def State.numMode (s : State) (k : Nat) : NumMode :=
  { dnz := s.flag NUMCTL_DNZ k, forerun := s.flag NUMCTL_FORERUN k,
    satFinite := s.flag NUMCTL_SATFINITE k, nanTrap := s.flag NUMCTL_NANTRAP k }

/-- A lane of a physical vector register. -/
def State.lane (s : State) (k r i : Nat) : Nat := mget 0 s.vreg ((k * 64 + r) * 512 + i)

/-- Write a lane of a physical vector register. -/
def State.setLane (s : State) (k r i v : Nat) : State :=
  { s with vreg := mset 0 s.vreg ((k * 64 + r) * 512 + i) (v % 2 ^ 32) }

/-- Write consecutive lanes of a physical register from lane `i` on. -/
def State.setLanes (s : State) (k r i : Nat) (vs : List Nat) : State :=
  { s with vreg := mblock 0 s.vreg ((k * 64 + r) * 512 + i) (vs.map (· % 2 ^ 32)) }

/-- All 512 lanes of a physical register. -/
def State.lanes (s : State) (k r : Nat) : List Nat := mslice 0 s.vreg ((k * 64 + r) * 512) 512

/-- A 56-bit signal accumulator (R243), as its two's-complement bits. -/
def State.sigAcc (s : State) (k a i : Nat) : Nat := mget 0 s.sacc ((k * 8 + a) * 512 + i)

/-- All 512 lanes of a signal accumulator. -/
def State.sigAccs (s : State) (k a : Nat) : List Nat := mslice 0 s.sacc ((k * 8 + a) * 512) 512

/-- Write all lanes of a signal accumulator. -/
def State.setSigAccs (s : State) (k a : Nat) (vs : List Nat) : State :=
  { s with sacc := mblock 0 s.sacc ((k * 8 + a) * 512) (vs.map (· % 2 ^ 56)) }

/-- The bank word of an entry (R166). -/
def State.bankWord (s : State) (k e : Nat) : Nat := mget 0 s.bank (k * 131072 + e)

/-- Write the bank word of an entry. -/
def State.setBankWord (s : State) (k e w : Nat) : State := { s with bank := mset 0 s.bank (k * 131072 + e) w }

/-! ### Carriages -/

/-- The field of DEV_CARSTATE that shows a carriage. -/
def carFld (c : Nat) : Fld :=
  match c with
  | 0 => DEV_CARSTATE_CAR0
  | 1 => DEV_CARSTATE_CAR1
  | 2 => DEV_CARSTATE_CAR2
  | _ => DEV_CARSTATE_CAR3

/-- State of a carriage: 0 RUN, 1 GATED, 2 NAP, 3 RESET, 4 OFF (DEV_CARSTATE). -/
def State.carState (s : State) (c : Nat) : Nat := s.fld (carFld c) 0

/-- Set the state of a carriage. -/
def State.setCarState (s : State) (c v : Nat) : State := s.setFld (carFld c) 0 0 v

/-- Whether the coach clocks stand although their carriages run: their PLLs relock for a profile change (R593), or THERMTRIP has stopped every fast clock (R596). -/
def State.coachStill (s : State) : Bool := s.pm.tripped || (s.flag PWR_STATUS_PROFBUSY 0 && s.fld CLK_COACHF_MHZ 0 == 0)

/-- Whether the network clock of a carriage stands: in NAP and OFF (Table 1.5), and after THERMTRIP (R596). -/
def State.netStill (s : State) (c : Nat) : Bool := s.pm.tripped || s.carState c == 2 || s.carState c == 4

/-- Whether a context is ACTIVE in a fenced device, which has stopped its issue, its completions and its journal writes (R655, R600). -/
def State.fenced (s : State) (n : Nat) : Bool := s.fld CPL_STATE_STATE 0 == 7 && s.fld CPL_CTXROLE_ROLE 0 n == 1

/-- Whether a block of Table 15.2 has agreed to stop and stands (R580): its order and the carriage. -/
def State.stoppedAt (s : State) (order c : Nat) : Bool := s.pwr.stopped.contains (order, c)

/-- A carriage's fabric. -/
def State.fabS (s : State) (c : Nat) : FabS := mget {} s.fab c

/-- Change a carriage's fabric. -/
def State.updFab (s : State) (c : Nat) (f : FabS → FabS) : State := { s with fab := mupd {} s.fab c f }

/-! ### Contexts -/

/-- A context's state. -/
def State.ctx (s : State) (n : Nat) : CtxS := mget {} s.ctxs n

/-- Change a context. -/
def State.updCtx (s : State) (n : Nat) (f : CtxS → CtxS) : State := { s with ctxs := mupd {} s.ctxs n f }

/-! ### MSI-X (R548) -/

/-- Raise a vector of the function that owns a context, or of the PF of `port` for no context; a vector beyond the table (2,048 of
a PF, 8 of a VF) is not sent and counted. -/
def State.raise (s : State) (ctx : Option Nat) (port vec : Nat) : State :=
  let own := match ctx with
    | some n => ((s.ctx n).port, if (s.ctx n).isvf then some (s.ctx n).vf else none)
    | none => (port, none)
  let top := match own.2 with | some _ => 8 | none => 2048
  if top ≤ vec then s.bump QUE_VECDROP_COUNT own.1 0 1 else if !(mget {} s.ports own.1).up then s else s.emit (.msix own.1 own.2 vec)

/-- The function of its port that owns a context (R547): 0 the PF, 1 + v a VF. -/
def State.ctxFn (s : State) (n : Nat) : Nat := if (s.ctx n).isvf then 1 + (s.ctx n).vf else 0

/-! ### Bits inverted on the way -/

/-- Bits that errors have inverted: each that stands an odd number of times in `flips`. -/
def flipped (flips : List Nat) : List Nat := flips.dedup.filter (fun i => flips.count i % 2 == 1)

/-- Bytes with bits inverted. -/
def invertBits (bs : List Nat) (bits : List Nat) : List Nat :=
  bs.zipIdx.map (fun x => (bits.filter (fun i => i / 8 == x.2)).foldl (fun v i => v ^^^ 2 ^ (i % 8)) x.1)

end Sys2Proof.Machine
end

