-- ==== Sys2Proof/Machine/Crc.lean ====
section
/-! DEFINITION. CRC-32C, the check of images, records and module blocks (R505, R511, Table 10.11). The spec names it; its polynomial, bit order,
initial value and final inversion are those of the CRC known by that name (PRESUMED, log 30). -/

namespace Sys2Proof.Machine

/-- Eight steps of the reflected polynomial 0x1EDC6F41; `fuel` counts them. -/
def crcSteps : Nat → Nat → Nat
  | 0, r => r
  | n + 1, r => crcSteps n (if r % 2 == 1 then (r / 2) ^^^ 0x82F63B78 else r / 2)

/-- The register after one more byte. -/
def crcByte (r b : Nat) : Nat := crcSteps 8 (r ^^^ (b % 256))

/-- The register after more bytes. -/
def crcBytes (r : Nat) (bs : List Nat) : Nat := bs.foldl crcByte r

/-- CRC-32C of a list of bytes. -/
def crc32c (bs : List Nat) : Nat := crcBytes 0xFFFFFFFF bs ^^^ 0xFFFFFFFF

end Sys2Proof.Machine
end

