-- ==== Sys2Proof/Machine/Access.lean ====
section
/-! DEFINITION. How accesses reach BAR0 (R17 to R22, R49 to R57): the map of offsets, accesses that reach no register, and how events from outside enter
while lockstep runs (R310, R311). -/

namespace Sys2Proof.Machine

/-! ### The map of BAR0 (Tables 1.7 to 1.9) -/

/-- Where an offset leads: a block, with its unit and the offset in it, or a reserved range. -/
inductive Spot where
  | block (b : Blk) (u o : Nat)
  | reserved
deriving DecidableEq, Repr

/-- Tables 1.8 and 1.9: offset `o` of the range of carriage `c`. -/
def carSpot (c o : Nat) : Spot :=
  if o < 0x100000 then .block .car c o
  else if o < 0x280000 then
    if o % 0x10000 < 0xE000 then .block .coach (c * 24 + (o - 0x100000) / 0x10000) (o % 0x10000) else .reserved
  else if o < 0x400000 then .reserved
  else if o < 0x500000 then .block .noc c (o - 0x400000)
  else if o < 0x600000 then .block .hbm c (o - 0x500000)
  else if o < 0x618000 then .block .lane c (o - 0x600000)
  else if o < 0x700000 then .reserved
  else if o < 0x800000 then .block .dma c (o - 0x700000)
  else if o < 0x880000 then .block .fab c (o - 0x800000)
  else if o < 0x900000 then .block .iob c (o - 0x880000)
  else if o < 0xA00000 then .block .hcl c (o - 0x900000)
  else if o < 0xB00000 then .block .que c (o - 0xA00000)
  else .reserved

/-- The carriage whose range holds an offset (Table 1.7). -/
def spotCar (off : Nat) : Option Nat :=
  if 0x10000000 ≤ off ∧ off < 0x20000000 then some ((off - 0x10000000) / 0x4000000) else none

/-- Table 1.7. -/
def bar0Spot (off : Nat) : Spot :=
  match spotCar off with
  | some c => carSpot c (off % 0x4000000)
  | none =>
    if off < 0x500000 then .block .dev 0 off
    else if off < 0x510000 then .block .bay ((off - 0x500000) / 0x4000) (off % 0x4000)
    else .reserved

/-- Index of a repeated register at distance `d` from its first copy. -/
def repIndex : List (Nat × Nat) → Nat → Nat → Option Nat
  | [], d, i => if d = 0 then some i else none
  | (st, n) :: r, d, i => if d / st < n then repIndex r (d % st) (i * n + d / st) else none

/-- Number of copies that a list of strides and counts gives. -/
def repCount (l : List (Nat × Nat)) : Nat := l.foldl (fun m x => m * x.2) 1

/-- Distance of copy `i` of a repeated register from its first copy. -/
def repOffset : List (Nat × Nat) → Nat → Nat
  | [], _ => 0
  | (st, _) :: r, i => i / repCount r * st + repOffset r (i % repCount r)

/-- First offset in BAR0 of the registers of a block's unit (Tables 1.7 to 1.9). -/
def blkBase (b : Blk) (u : Nat) : Nat :=
  match b with
  | .dev => 0
  | .bay => 0x500000 + u * 0x4000
  | .car => 0x10000000 + u * 0x4000000
  | .coach => 0x10100000 + u / 24 * 0x4000000 + u % 24 * 0x10000
  | .noc => 0x10400000 + u * 0x4000000
  | .hbm => 0x10500000 + u * 0x4000000
  | .lane => 0x10600000 + u * 0x4000000
  | .dma => 0x10700000 + u * 0x4000000
  | .fab => 0x10800000 + u * 0x4000000
  | .iob => 0x10880000 + u * 0x4000000
  | .hcl => 0x10900000 + u * 0x4000000
  | .que => 0x10A00000 + u * 0x4000000

/-- Offset in BAR0 of the register that holds a field of unit `u` at index `i`. -/
def Fld.bar0 (f : Fld) (u i : Nat) : Nat := blkBase f.blk u + f.off + repOffset f.reps i

/-- A field as it lies in one word: its unit, its index, and whether the word is the high word of its pair. -/
structure Slot where
  f : Fld
  u : Nat
  i : Nat
  hi : Bool
deriving DecidableEq, Repr

/-- The slot of a field at offset `o` of its block. -/
def Fld.slotAt (f : Fld) (u o : Nat) : Option Slot :=
  match (if f.off ≤ o then repIndex f.reps (o - f.off) 0 else none) with
  | some i => some ⟨f, u, i, false⟩
  | none =>
    match (if f.pair && decide (f.off + 4 ≤ o) then repIndex f.reps (o - f.off - 4) 0 else none) with
    | some i => some ⟨f, u, i, true⟩
    | none => none

/-- Whether link registers lie in the block of a lane: the link's first lane, or lane 22 of carriages 0 and 2 while the coupler is set aside. -/
def State.homesLink (s : State) (c l : Nat) : Bool := l % 4 == 0 || (s.couplerAside && l == 22 && c % 2 == 0)

/-- The fields of the register at an offset; none where it names no register. -/
def State.slots (s : State) (off : Nat) : List Slot :=
  match bar0Spot off with
  | .reserved => []
  | .block b u o =>
    (fldTable.filterMap (fun f => if f.blk = b then f.slotAt u o else none)).filter (fun x =>
      !(b == .lane && decide (0x800 ≤ x.f.off)) || s.homesLink u x.i)

/-! ### Accesses that reach no register (R18, R22, R53 to R57) -/

/-- What an access meets. -/
inductive Reach where
  | misaligned | reserved | silent | unnamed | register
deriving DecidableEq, Repr

/-- R55: the registers that answer in S3. -/
def answersInS3 (off : Nat) : Bool := decide (off < 0x18) || (decide (0x100000 ≤ off) && decide (off < 0x200000)) || (decide (0x308000 ≤ off) && decide (off < 0x400000))

/-- R54: a carriage in NAP, RESET or OFF does not answer. -/
def State.carSilent (s : State) (c : Nat) : Bool := let st := s.carState c; st == 2 || st == 3 || st == 4

/-- What an access of `bytes` bytes at an offset meets. A carriage that does not answer hides its reserved ranges too (log 50). -/
def State.reach (s : State) (off bytes : Nat) : Reach :=
  if off % 4 != 0 || bytes != 4 then .misaligned
  else if (match spotCar off with | some c => s.carSilent c | none => false) then .silent
  else if bar0Spot off == .reserved then .reserved
  else if (s.slots off).isEmpty then .unnamed
  else if s.pwr.s3 && !answersInS3 off then .silent
  else .register

/-- R56: a stray access is counted, and recorded when no record is held. -/
def State.stray (s : State) (reason off : Nat) (write : Bool) : State :=
  let s1 := s.bump DEV_STRAY_CNT_COUNT 0 0 1
  if s1.flag DEV_STRAY_VALID 0 then s1
  else s1.setFlds 0 0 [(DEV_STRAY_REASON, reason), (DEV_STRAY_OFFSET, off / 4), (DEV_STRAY_WRITE, b2n write), (DEV_STRAY_VALID, 1)]

/-- The completion of an access: data for a read, none for a write. -/
def Completion.of (write : Bool) (v : Nat) : Completion := if write then .done else .data v

/-- An access that reaches no register is completed and, as the case asks, recorded. -/
def State.missed (s : State) (r : Reach) (off : Nat) (write : Bool) : State :=
  match r with
  | .misaligned => { s.stray 3 off write with resp := .ur }
  | .reserved => { s.stray 1 off write with resp := .of write 0 }
  | .silent => { s.stray 2 off write with resp := .of write 0xFFFFFFFF }
  | .unnamed => { s with resp := .of write 0 }
  | .register => s

/-! ### Events from outside the lockstep domains (R310, R311, Table 7.2) -/

/-- Whether lockstep runs. -/
def State.lockRun (s : State) : Bool := s.fld DEV_LSSTAT_STATE 0 == 2

/-- Whether an event from outside must wait for a slot boundary (R310): lockstep runs, and no slot boundary is admitting events now. -/
def State.withheld (s : State) : Bool := s.lockRun && !s.lock.opened

/-- Length of a slot in coach cycles. -/
def State.slotLen (s : State) : Nat := 2 ^ s.fld DEV_LSCTL_SLOT 0

/-- Ranks of Table 7.2: the firmware processors first, then the PCIe ports; a BAR0 write counts as of port 0, since no command says by which port
it came (log 14). -/
def rankSecurity : Nat := 0
def rankPm : Nat := 1
def rankSched : Nat := 2
def rankControl (c : Nat) : Nat := 3 + c
def rankPort (p : Nat) : Nat := 7 + p

/-- An event from outside: it has its effect now, or waits for a slot boundary no earlier than the lockstep cycle `due` (R310, R311). -/
def State.outsideAt (s : State) (rank due : Nat) (i : Instr) (eff : State → Res) : Res :=
  if s.withheld then ok { s with lock := { s.lock with waiting := s.lock.waiting ++ [⟨rank, due, i⟩] } } else eff s

/-- An event from outside that may be admitted at the next slot boundary. -/
def State.outside (s : State) (rank : Nat) (i : Instr) (eff : State → Res) : Res := s.outsideAt rank 0 i eff

/-- Whether the register at an offset answers (R54, R55). -/
def State.answersAt (s : State) (off : Nat) : Bool :=
  !(match spotCar off with | some c => s.carSilent c | none => false) && (!s.pwr.s3 || answersInS3 off)

/-- A write of a register field that is a command of its own (`hi`: of the high word of a pair): a register that does not answer is not reached, and the access is recorded (R54); a
write from the host is an event from outside (R310). -/
def State.regEvent (s : State) (f : Fld) (u idx : Nat) (i : Instr) (eff : State → Res) (hi : Bool := false) : Res :=
  let off := f.bar0 u idx + 4 * b2n hi
  if s.answersAt off then s.outside (rankPort 0) i eff else ok (s.missed .silent off true)

end Sys2Proof.Machine
end

