-- ==== Sys2Proof/Machine/Log.lean ====
section
/-! DEFINITION. The event log (R626 to R631). `State.log` holds bank b's entry at index i under key b * 2048 + i. -/

namespace Sys2Proof.Machine

/-- R626, R630: write one entry to every working bank; with no working bank its CODE and SOURCE go to LOG_LASTGASP and LOGFAIL_N is
driven low. -/
def State.logEntry (s : State) (code source : Nat) (ctx : Option Nat) (aux data : Nat) : State :=
  let n := s.fld LOG_SEQ_NEXT 0
  let e : LogEnt := { time := s.aoCycles, seq := n, code := code, source := source, ctx := ctx, aux := aux, data := data }
  let s1 := s.wrapAdd LOG_SEQ_NEXT 0 0 1
  if !s.flag LOG_STATUS_BANK0OK 0 && !s.flag LOG_STATUS_BANK1OK 0 then
    (s1.setFlds 0 0 [(LOG_LASTGASP_CODE, code), (LOG_LASTGASP_SOURCE, source), (LOG_LASTGASP_VALID, 1)]).emit (.pin "LOGFAIL_N" 0)
  else
    let put := fun (m : SMap (Option LogEnt)) b => mset none m (b * 2048 + n % 2048) (some e)
    let m1 := if s.flag LOG_STATUS_BANK0OK 0 then put s1.log 0 else s1.log
    { s1 with log := if s.flag LOG_STATUS_BANK1OK 0 then put m1 1 else m1 }

/-- R630: the readback of the entry just written finds an uncorrectable error in bank `b`: the bank is marked failed and code
0x0401 is logged, with the bank and the index. SOURCE is the PM core, which keeps the always-on domain (DESIGN CHOICE, log 20). -/
def State.logBankFails (s : State) (b : Nat) : State :=
  let f := if b == 0 then LOG_STATUS_BANK0OK else LOG_STATUS_BANK1OK
  if !s.flag f 0 then s
  else (s.setFlag f 0 0 false).logEntry 0x0401 0x61 none b ((s.fld LOG_SEQ_NEXT 0 + 2 ^ 32 - 1) % 2048)

/-- The entry that LOG_RDSEQ names, from a working bank, while it is held (LOG_STATUS.RDVALID). -/
def State.logRead (s : State) : Option LogEnt :=
  let q := s.fld LOG_RDSEQ_SEQ 0
  let b := if s.flag LOG_STATUS_BANK0OK 0 then 0 else 1
  match mget none s.log (b * 2048 + q % 2048) with
  | some e => if e.seq == q then some e else none
  | none => none

/-- The 32 bytes of an entry (Table 16.8). -/
def LogEnt.bytes (e : LogEnt) : List Nat :=
  leBytes 8 e.time ++ leBytes 4 e.seq ++ leBytes 2 e.code ++ leBytes 2 e.source ++
    leBytes 2 (match e.ctx with | some c => c + 2 ^ 15 | none => 0) ++ leBytes 2 0 ++ leBytes 4 e.aux ++ leBytes 8 e.data

/-- The scheduler core's unit number, carriage 2. -/
def schedUnit : Nat := 0x263

end Sys2Proof.Machine
end

