-- ==== Sys2Proof/Machine/Arbiter.lean ====
section
/-! DEFINITION. The maintenance arbiter's grants (R632, R633, R635). -/

namespace Sys2Proof.Machine

/-- Carriages that a request concerns (Table 16.10). -/
def MReq.cars (r : MReq) : List Nat :=
  match r.kind with
  | 1 => [r.unit / 2]
  | 2 => if r.unit < 24 then [r.unit / 6] else [2 * (r.unit - 24), 2 * (r.unit - 24) + 1]
  | 6 => [r.unit / 24]
  | _ => [r.unit]

/-- Table 16.10: whether two activities conflict. -/
def conflict (a b : MReq) : Bool :=
  let kinds := match a.kind with
    | 1 => [1, 6]
    | 2 => [2]
    | 3 => [3, 4]
    | 4 => [3, 4]
    | 5 => [5, 6]
    | 6 => [1, 5, 6]
    | _ => []
  kinds.contains b.kind && a.cars.any (fun c => b.cars.contains c)

/-- Whether the arbiter grants at all: not in lockstep (R635), not during a power-fail warning (Table 16.7). -/
def State.grants (s : State) : Bool := !s.lockRun && !s.flag REC_STATUS_PFW 0

/-- Show the counts of queued and running requests. -/
def State.showArb (s : State) : State :=
  s.setFlds 0 0 [(REC_MNTSTAT_QUEUED, s.arb.queue.length), (REC_MNTSTAT_RUNNING, s.arb.running.length)]

/-- Grant a request (R633): it runs, is logged, and sets EVENT when it is the host's. -/
def State.grant (s : State) (r : MReq) : State :=
  let s1 := { s with arb := { s.arb with running := s.arb.running ++ [r] } }.logEntry 0x0501 schedUnit none r.kind r.unit
  if r.host then s1.setFld REC_MNTSTAT_EVENT 0 0 1 else s1

/-- Whether a request may be granted beside the activities that run and the requests queued before it (R633), in carriages whose arbiter has not stopped
granting for a power-state entry (Table 15.2, order 7). -/
def State.mayGrant (s : State) (earlier : List MReq) (r : MReq) : Bool := !(s.arb.running ++ earlier).any (conflict r) && !r.cars.any (s.stoppedAt 7)

/-- Grant queued requests, in order, that conflict with nothing running and with no earlier queued one; `kept` are the earlier ones. -/
def State.grantQueue (s : State) (kept : List MReq) : List MReq → State
  | [] => { s with arb := { s.arb with queue := kept } }
  | r :: rest =>
    if s.mayGrant kept r then (s.grant r).grantQueue kept rest else s.grantQueue (kept ++ [r]) rest

/-- Grant what can be granted. -/
def State.arbStep (s : State) : State := if s.grants then (s.grantQueue [] s.arb.queue).showArb else s.showArb

end Sys2Proof.Machine
end

