-- ==== Sys2Proof/Machine/Wires.lean ====
section
/-! DEFINITION. Packets and flits as bits: the header (Table 8.5), the wires of a network link (R335, R336, Table 8.4), hop parity (R353) and the end-to-end
code (R354). -/

namespace Sys2Proof.Machine

/-! ### The header -/

/-- The 256-bit header of a packet. -/
def headerNat (p : Packet) : Nat :=
  p.vn % 8 + p.sclass % 4 * 2 ^ 3 + p.ptr % 32 * 2 ^ 5 + p.hops % 32 * 2 ^ 10 + b2n p.remote * 2 ^ 15 + p.src % 1024 * 2 ^ 16 +
    p.dst % 1024 * 2 ^ 26 + p.epoch % 256 * 2 ^ 36 + p.ctx % 1024 * 2 ^ 44 + p.rse % 256 * 2 ^ 54 + p.rrse % 256 * 2 ^ 62 +
    p.len % 64 * 2 ^ 70 + p.tag % 4096 * 2 ^ 76 + p.op % 16 * 2 ^ 88 + p.status % 16 * 2 ^ 92 + p.route % 2 ^ 60 * 2 ^ 96 +
    p.link % 32 * 2 ^ 156 + p.addr % 2 ^ 48 * 2 ^ 176 + p.aux % 2 ^ 32 * 2 ^ 224

/-- A packet from its header bits and payload bytes; a write keeps the bytes that AUX counts (Table 8.6). -/
def packetOf (h : Nat) (data : List Nat) : Packet :=
  let vn := bitsOf h 0 3
  let aux := bitsOf h 224 32
  { vn := vn, sclass := bitsOf h 3 2, ptr := bitsOf h 5 5, hops := bitsOf h 10 5, remote := bitsOf h 15 1 == 1, src := bitsOf h 16 10,
    dst := bitsOf h 26 10, epoch := bitsOf h 36 8, ctx := bitsOf h 44 10, rse := bitsOf h 54 8, rrse := bitsOf h 62 8, len := bitsOf h 70 6,
    tag := bitsOf h 76 12, op := bitsOf h 88 4, status := bitsOf h 92 4, route := bitsOf h 96 60, link := bitsOf h 156 5,
    addr := bitsOf h 176 48, aux := aux, data := if vn == 2 then data.take (aux % 1024) else data }

/-! ### Wires -/

/-- The 1,024 data bits of a flit (R336): the header and payload bytes 0 to 95, or the next 128 bytes. -/
def Flit.dataBits (f : Flit) : Nat :=
  if f.i == 0 then headerNat f.pkt + leNat (f.pkt.data.take 96) * 2 ^ 256 else leNat ((f.pkt.data.drop (128 * f.i - 32)).take 128)

/-- Bit `b` of the end-to-end code of a flit (R354): ten bits for each quarter. -/
def Flit.codeBit (f : Flit) (b : Nat) : Bool := (Config.quarterCode (bitsOf f.dataBits (256 * (b / 10)) 256)).testBit (b % 10)

/-- Bit of a flit that errors may have inverted: data bits, then the bits of the end-to-end code. -/
def Flit.bit (f : Flit) (b : Nat) : Bool := xor (if b < 1024 then f.dataBits.testBit b else f.codeBit (b - 1024)) (f.errs.contains b)

/-- Even parity of the bits that a function gives for `n` indices from `lo`. -/
def parityOf (v : Nat → Bool) (lo n : Nat) : Bool := (List.range n).foldl (fun p i => xor p (v (lo + i))) false

/-- The sideband of a flit, bits 0 to 6: virtual network, virtual channel, HEAD and TAIL. -/
def Flit.sideband (f : Flit) (n : Nat) : Nat := f.pkt.vn % 8 + f.vc % 4 * 2 ^ 3 + b2n (f.i == 0) * 2 ^ 5 + b2n (f.i + 1 == n) * 2 ^ 6

/-- The wires of a link for a flit of a packet of `n` flits (Table 8.4): data 0 to 1,023, check wires 1,024 to 1,087, sideband 1,088 to 1,095. Check wires 0
to 39 carry the end-to-end code, 40 to 55 hop parity over 64 data bits each, 56 to 63 hop parity over five code bits each; sideband 7 is parity. -/
def Flit.wire (f : Flit) (n w : Nat) : Bool :=
  if w < 1064 then f.bit w
  else if w < 1080 then parityOf f.bit (64 * (w - 1064)) 64
  else if w < 1088 then parityOf f.bit (1024 + 5 * (w - 1080)) 5
  else if w < 1095 then (f.sideband n).testBit (w - 1088)
  else parityOf (f.sideband n).testBit 0 7

/-- The credit wires for one returned credit (Table 8.4): virtual network, virtual channel, even parity. -/
def creditWires (vn vc : Nat) : Nat :=
  let x := vn % 8 + vc % 4 * 2 ^ 3
  x + b2n (parityOf x.testBit 0 5) * 2 ^ 5

/-- Whether the hop parity and the sideband parity of received wires hold (R353). -/
def parityHolds (v : Nat → Bool) : Bool :=
  (List.range 16).all (fun i => parityOf v (64 * i) 64 == v (1064 + i)) && (List.range 8).all (fun j => parityOf v (1024 + 5 * j) 5 == v (1080 + j)) &&
    parityOf v 1088 7 == v 1095

/-- Whether errors that invert the wires listed pass the parity checks: every group holds an even number of them. `received_parity` (Laws) shows that this is
what the checks of the received wires find. -/
def errorsPass (flips : List Nat) : Bool := parityHolds (fun w => flips.contains w)

/-! ### The end-to-end code (R354) -/

/-- Quarter of a flit that a bit belongs to. -/
def quarterOf (b : Nat) : Nat := if b < 1024 then b / 256 else (b - 1024) / 10

/-- One more bit inverted; a bit inverted twice is right again. -/
def invertBit (errs : List Nat) (b : Nat) : List Nat := if errs.contains b then errs.erase b else b :: errs

/-- A flit with further bits inverted. -/
def Flit.upset (f : Flit) (bs : List Nat) : Flit := { f with errs := bs.foldl invertBit f.errs }

/-- Inverted bits of a quarter of a flit. A SECDED code corrects one and detects two; the model takes more than two as detected too (DESIGN CHOICE,
log 88). -/
def Flit.errsIn (f : Flit) (q : Nat) : Nat := (f.errs.filter (fun b => quarterOf b == q)).length

/-- The flit with a quarter set right. -/
def Flit.mend (f : Flit) (q : Nat) : Flit := { f with errs := f.errs.filter (fun b => quarterOf b != q) }

/-- Quarters of a flit with one inverted bit, which the destination corrects. -/
def Flit.corrections (f : Flit) : Nat := ((List.range 4).filter (fun q => f.errsIn q == 1)).length

end Sys2Proof.Machine
end

