-- ==== Sys2Proof/Machine/Placement.lean ====
section
/-! DEFINITION. Where an HBM address lies (R366 to R368), the controllers' queues, and what an edge port takes from the network (R343, R370, R388). Controller
`n` = c * 2 + s serves stack `n`; its registers are those of unit c, index s. -/

namespace Sys2Proof.Machine

/-! ### HBM addresses (R366, R367) -/

/-- Where an HBM address lies: stack, pseudo-channel, bank field, row, and byte within the 1 KiB row. -/
structure Place where
  stack : Nat
  pc : Nat
  bank : Nat
  row : Nat
  byte : Nat
deriving DecidableEq, Repr

/-- Table 9.2: decode of a 39-bit address. -/
def hbmPlace (ilv : Bool) (pa : Nat) : Place :=
  let q := bitsOf pa 8 6
  if ilv then
    let b := bitsOf pa 17 6
    { stack := bitsOf pa 37 2 * 2 + bitsOf pa 14 1, pc := q ^^^ b, bank := b, row := bitsOf pa 23 14,
      byte := bitsOf pa 15 2 * 256 + bitsOf pa 0 8 }
  else
    let b := bitsOf pa 19 6
    { stack := bitsOf pa 14 3, pc := q ^^^ b, bank := b, row := bitsOf pa 25 14, byte := bitsOf pa 17 2 * 256 + bitsOf pa 0 8 }

/-- ILV as every NI's address decode holds it: the same value in all eight controllers (R366). -/
def State.ilv (s : State) : Bool := s.flag HBM_CTL_ILV 0

/-- Placement in this device. -/
def State.place (s : State) (pa : Nat) : Place := hbmPlace s.ilv pa

/-- Edge port of a placed address (R368). -/
def Place.edge (p : Place) : Nat := 4 * (p.stack % 2) + p.pc / 16

/-- Fixed route-sheet entry of a placed address: c * 8 + e (R368). -/
def Place.entry (p : Place) : Nat := p.stack / 2 * 8 + p.edge

/-- A controller's state. -/
def State.hbmCtl (s : State) (n : Nat) : HbmS := mget {} s.hbmc n

/-- Change a controller's state. -/
def State.updHbm (s : State) (n : Nat) (f : HbmS → HbmS) : State := { s with hbmc := mupd {} s.hbmc n f }

/-- A pseudo-channel's state. -/
def HbmS.pc (h : HbmS) (p : Nat) : PcS := mget {} h.pcs p

/-- Change a pseudo-channel. -/
def HbmS.updPc (h : HbmS) (p : Nat) (f : PcS → PcS) : HbmS := { h with pcs := mupd {} h.pcs p f }

/-- A field of controller `n`. -/
def State.hfld (s : State) (f : Fld) (n : Nat) : Nat := s.fld f (n / 2) (n % 2)

/-- Set a field of controller `n`. -/
def State.setHfld (s : State) (f : Fld) (n v : Nat) : State := s.setFld f (n / 2) (n % 2) v

/-- Add to a saturating counter of controller `n`. -/
def State.bumpH (s : State) (f : Fld) (n k : Nat) : State := s.bump f (n / 2) (n % 2) k

/-! ### Acceptance (R343, R370) -/

/-- Whether a packet is a memory request. -/
def Packet.isMemory (p : Packet) : Bool := (p.vn == 0 && p.op == 0) || p.vn == 2

/-- The request that a packet makes: its address, bytes, and whether it writes. -/
def reqOfPacket (p : Packet) : Nat × Nat × Bool :=
  if p.vn == 2 then (p.addr % 2 ^ 39, p.data.length, true) else (p.addr % 2 ^ 39, p.len * 16, false)

/-- Whether a controller takes requests: mode RUN, no change of data rate, not in self-refresh (R387 to R389). -/
def State.hbmOpen (s : State) (n : Nat) : Bool :=
  s.hfld HBM_CTL_MODE n == 2 && s.hfld HBM_STATUS_FCBUSY n == 0 && !(s.hbmCtl n).selfRef

/-- Reads that edge port `e` of a carriage has accepted and that have not returned: each holds space for its response (R343). -/
def State.readsHeld (s : State) (c e : Nat) : Nat :=
  let h := s.hbmCtl (c * 2 + e / 4)
  ((h.pcs.filter (fun x => x.1 / 16 == e % 4)).foldl (fun m x => m + x.2.rq.length) 0) +
    (h.reads.filter (fun r => !r.write && (s.place r.pa).edge == e)).length

/-- Whether an edge port can take a request (R370): its queue has room, and for a read the space for its response is free. -/
def State.edgeTakes (s : State) (c e : Nat) (p : Packet) : Bool :=
  let r := reqOfPacket p
  let q := (s.hbmCtl (c * 2 + e / 4)).pc (s.place r.1).pc
  s.hbmOpen (c * 2 + e / 4) && (if r.2.2 then decide (q.wq.length < 32) else decide (q.rq.length < 32) && decide (s.readsHeld c e < 1 + Config.moreReadSpace))

/-- Whether a unit port takes a flit: that of an HBM edge port takes the head of a memory request only when no other waits there and the request can be
accepted; else it withholds the credit (R370). -/
def State.portTakes (s : State) (c r : Nat) (f : Flit) : Bool :=
  let e := r - 24
  if 24 ≤ r && decide (r < 32) && f.i == 0 && f.pkt.isMemory && !f.pkt.remote && f.pkt.dst % 256 == 0x20 + e then
    (mget [] s.net.ports (c * 64 + r)).all (fun g => !g.pkt.isMemory) && (mget [] (s.hbmCtl (c * 2 + e / 4)).edgeIn e).isEmpty && s.edgeTakes c e f.pkt
  else true

end Sys2Proof.Machine
end

