-- ==== Sys2Proof/Machine/Network.lean ====
section
/-! DEFINITION. The on-chip network: topology (Tables 8.1 to 8.3), route sheets and their checks (R345 to R351), sending
at a source NI, flits, credits and replays (R335 to R344, R353). -/

namespace Sys2Proof.Machine

/-! ### Topology -/

/-- Router of a local unit number (Tables 8.2 and 8.3); none where the number names no unit. -/
def unitRouter (l : Nat) : Option Nat :=
  if l < 0x18 then some l
  else if 0x20 ≤ l && l < 0x28 then some (24 + (l - 0x20))
  else if 0x30 ≤ l && l < 0x40 then some (32 + (l - 0x30) / 4)
  else if 0x40 ≤ l && l < 0x43 then some 36
  else if 0x43 ≤ l && l < 0x46 then some 37
  else if l == 0x46 then some 36
  else if l == 0x47 then some 37
  else if l == 0x50 || l == 0x51 then some 32
  else if l == 0x52 || l == 0x53 then some 33
  else if 0x60 ≤ l && l < 0x64 then some 34
  else none

/-- Whether a unit of the device has an NI (R349, reason 8): `aside` says that the coupler is set aside. -/
def hasNi (aside : Bool) (u : Nat) : Bool :=
  let c := u / 256
  let l := u % 256
  decide (c < 4) && (unitRouter l).isSome && (l != 0x47 || (aside && (c == 0 || c == 2))) &&
    (!(0x60 ≤ l && l ≤ 0x62) || c == 0) && (l != 0x63 || c == 2)

/-- The facing carriage across the bridge (R331). -/
def facing (c : Nat) : Nat := 3 - c

/-- The other carriage of the die (R330). -/
def sibling (c : Nat) : Nat := if c % 2 == 0 then c + 1 else c - 1

/-- Bridge router and its port for a coach router of column 4 or 5 (Table 8.2). -/
def bridgePort (k : Nat) : Nat × Nat := (38 + k / 12, (k / 6 % 2) * 2 + (k % 6 - 4))

/-- The router and input port that output port `p` of router `r` of carriage `c` joins; none where the router lacks the port
or the port is a unit port. Bridge links arrive at input port 4. -/
def neighbour (c r p : Nat) : Option (Nat × Nat × Nat) :=
  if r < 24 then
    let col := r % 6
    let row := r / 6
    match p with
    | 1 => if col < 5 then some (c, r + 1, 2) else none
    | 2 => if 0 < col then some (c, r - 1, 1) else none
    | 3 => if row < 3 then some (c, r + 6, 4) else none
    | 4 => if 0 < row then some (c, r - 6, 3) else none
    | 5 => some (c, 24 + r % 8, 3 + r / 8)
    | 6 =>
      if col == 0 then some (c, 36 + r / 12, 1 + r / 6 % 2)
      else if col ≤ 3 then some (c, 32 + row, col)
      else some (c, (bridgePort r).1, (bridgePort r).2)
    | 7 => if row == 3 then some (sibling c, r, 7) else none
    | _ => none
  else if r < 32 then
    let e := r - 24
    match p with
    | 1 => if e < 7 then some (c, r + 1, 2) else none
    | 2 => if 0 < e then some (c, r - 1, 1) else none
    | 3 => some (c, e, 5)
    | 4 => some (c, e + 8, 5)
    | 5 => some (c, e + 16, 5)
    | _ => none
  else if r < 36 then (if 1 ≤ p && p ≤ 3 then some (c, 6 * (r - 32) + p, 6) else none)
  else if r < 38 then (if p == 1 || p == 2 then some (c, 12 * (r - 36) + 6 * (p - 1), 6) else none)
  else if r < 40 then
    if p < 4 then some (c, 12 * (r - 38) + 6 * (p / 2) + 4 + p % 2, 6)
    else if p == 4 then some (facing c, r, 4) else none
  else none

/-- Whether an output port is the unit port that ends a route (R328). -/
def isUnitPort (r p : Nat) : Bool := p == 0 && decide (r < 38)

/-- Whether crossing an output port ends a leg: a sibling link or the bridge (Table 8.10). -/
def endsLeg (r p : Nat) : Bool := (decide (r < 24) && p == 7) || (decide (38 ≤ r) && p == 4)

/-- Rank of an output port of a grid router within a leg (Table 8.10). -/
def gridRank (r p : Nat) : Nat :=
  match p with
  | 1 => 20 + r % 6
  | 2 => 25 - r % 6
  | 3 => 26 + r / 6
  | 4 => 29 - r / 6
  | _ => 30

/-- Rank of an output port of an edge router within a leg (Table 8.10). -/
def edgeRank (r p : Nat) : Nat :=
  match p with
  | 1 => 31 + (r - 24)
  | 2 => 38 - (r - 24)
  | _ => 18

/-- Rank of an output port within a leg (Table 8.10). -/
def portRank (r p : Nat) : Nat := if r < 24 then gridRank r p else if r < 32 then edgeRank r p else 18

/-! ### Route sheets -/

/-- Word `w` of an entry of a unit's route sheet. -/
def State.sheetWord (s : State) (u e w : Nat) : Nat := mget 0 s.net.sheet (u * 1024 + e * 4 + w)

/-- Write one word of an entry. -/
def State.setSheetWord (s : State) (u e w v : Nat) : State :=
  { s with net := { s.net with sheet := mset 0 s.net.sheet (u * 1024 + e * 4 + w) (v % 2 ^ 32) } }

/-- VALID and FROZEN of an entry (Table 8.8). -/
def State.entryValid (s : State) (u e : Nat) : Bool := bitsOf (s.sheetWord u e 3) 31 1 == 1
def State.entryFrozen (s : State) (u e : Nat) : Bool := bitsOf (s.sheetWord u e 3) 30 1 == 1

/-- HOPS of an entry given as its four words. -/
def swHops (w2 : Nat) : Nat := bitsOf w2 0 5
/-- REMOTE. -/
def swRemote (w2 : Nat) : Bool := bitsOf w2 5 1 == 1
/-- LINK. -/
def swLink (w2 : Nat) : Nat := bitsOf w2 6 5
/-- Port of hop `h`. -/
def swPort (w0 w1 h : Nat) : Nat := if h < 10 then bitsOf w0 (3 * h) 3 else bitsOf w1 (3 * (h - 10)) 3

/-- The local unit that a link number names (Table 8.5): the link's NI, or the coupler's. -/
def linkUnit (link : Nat) : Nat :=
  if link < 24 then (link / 6) * 256 + 0x40 + link % 6
  else if link == 24 then 0x47 else 2 * 256 + 0x47

/-- Routers a route visits, hop by hop, from a router on: (carriage, router, port); none where a hop names a port that its
router lacks. A hop onto a unit port stays at its router. -/
def walkRoute : List Nat → Nat → Nat → Option (List (Nat × Nat × Nat))
  | [], _, _ => some []
  | p :: ps, c, r =>
    if isUnitPort r p then
      match walkRoute ps c r with
      | some l => some ((c, r, p) :: l)
      | none => none
    else match neighbour c r p with
      | none => none
      | some (c2, r2, _) =>
        match walkRoute ps c2 r2 with
        | some l => some ((c, r, p) :: l)
        | none => none

/-- Whether the ranks within each leg strictly increase (R348, R349 check 4). -/
def ranksRise : Option Nat → List (Nat × Nat × Nat) → Bool
  | _, [] => true
  | prev, (_, r, p) :: ps =>
    if endsLeg r p then ranksRise none ps
    else if isUnitPort r p then ranksRise none ps
    else (match prev with | none => true | some q => decide (q < portRank r p)) && ranksRise (some (portRank r p)) ps

/-- R349: the reason of the first check that a write of an entry fails, 0 when it passes. `u` is the NI's unit. -/
def routeReason (aside : Bool) (u w0 w1 w2 w3 : Nat) : Nat :=
  if !hasNi aside u then 8
  else if bitsOf w3 31 1 == 0 then 0
  else
    let hops := swHops w2
    if hops == 0 || decide (20 < hops) then 6
    else
      let ps := (List.range hops).map (swPort w0 w1)
      match walkRoute ps (u / 256) ((unitRouter (u % 256)).getD 0) with
      | none => 1
      | some path =>
        let lastHop := path.getLast?
        let inner := path.dropLast
        let isPort0 : Nat × Nat × Nat → Bool := fun h => isUnitPort h.2.1 h.2.2
        if inner.any isPort0 || !(match lastHop with | some h => isPort0 h | none => false) then 4
        else if !ranksRise none path then 2
        else if decide (2 < (path.filter (fun h => endsLeg h.2.1 h.2.2)).length) then 3
        else
          let dst := if swRemote w2 then linkUnit (swLink w2) else bitsOf w3 0 10
          let holds := match lastHop with
            | some (c, r, _) => hasNi aside dst && dst / 256 == c && unitRouter (dst % 256) == some r &&
                (!swRemote w2 || decide (swLink w2 ≤ 25))
            | none => false
          if !holds then 5
          else if bitsOf w0 30 2 != 0 || bitsOf w1 30 2 != 0 || bitsOf w2 27 5 != 0 || bitsOf w3 10 19 != 0 then 7
          else 0

/-! ### Flits, wires and queues -/

/-- Key of a wire or of the unit port side of a router: carriage, router, input port (bridge link l is 8 + l). -/
def wireKey (c r p : Nat) : Nat := (c * 64 + r) * 16 + p

/-- Key of an input queue: wire, virtual network and channel. -/
def queueKey (c r p vn vc : Nat) : Nat := wireKey c r p * 32 + vn * 4 + vc

/-- Flits of a packet with `n` payload bytes (R336). -/
def flitCount (n : Nat) : Nat := 1 + ceilDiv (n - 96) 128

/-- The flits of a packet, as a sender lays them out (R336). -/
def Packet.flits (p : Packet) : List Flit := (List.range (flitCount p.data.length)).map (fun i => { pkt := p, i := i : Flit })

/-- Put flits on a wire. -/
def State.pushWire (s : State) (key : Nat) (fs : List Flit) : State :=
  if (mget 0 s.net.down key) == 1 then s
  else { s with net := { s.net with wires := mupd [] s.net.wires key (fun l => l ++ fs) } }

/-- A packet leaves its NI for the unit port of its router (Table 8.7, step 1). -/
def State.inject (s : State) (u : Nat) (p : Packet) : State :=
  let q := { p with uid := s.net.nextUid }
  ({ s with net := { s.net with nextUid := s.net.nextUid + 1 } }).pushWire
    (wireKey (u / 256) ((unitRouter (u % 256)).getD 0) 0) q.flits

/-- Unit number of a fabric network port (R490). -/
def portUnit (c n : Nat) : Nat := c * 256 + 0x30 + n

/-- Flits that a port's asynchronous buffer holds each way (R491). -/
def portBuffer : Nat := 16

/-- Hand a packet to the fabric side of a port, flit by flit; a response answers one of its requests. -/
def State.toFabric (s : State) (c n : Nat) (p : Packet) : State :=
  s.updFab c (fun f => { f with toFab := mupd [] f.toFab n (fun l => l ++ p.flits), owed := if p.vn == 1 then mupd [] f.owed n (fun l => l.eraseP (fun o => o.tag == p.tag)) else f.owed })

/-- A packet waits at a unit's NI. -/
def State.toInbox (s : State) (u : Nat) (p : Packet) : State := { s with net := { s.net with inbox := mupd [] s.net.inbox u (fun l => l ++ [p]) } }

/-- A response or status for a unit, delivered to its inbox; a fabric port hands it to the fabric. -/
def State.answer (s : State) (u : Nat) (p : Packet) : State :=
  let l := u % 256
  if 0x30 ≤ l && l < 0x40 then s.toFabric (u / 256) (l - 0x30) p else s.toInbox u p

/-- The fault code of a response to a stream or DMA request (Table 6.3): MEMERR for an error status or bad data (R268, R707), NOTPRESENT where a PCIe
port says that no translation is present (R547); 0 for none. -/
def Packet.errCode (p : Packet) : Nat :=
  if p.status != 0 then 4 else if !p.bad then 0 else if p.src % 256 == 0x53 && p.aux % 16 == 1 then 1 else 4

/-- Fill a header from a route-sheet entry (Tables 8.5 and 8.8). -/
def State.headerFrom (s : State) (u e : Nat) (p : Packet) : Packet :=
  let w2 := s.sheetWord u e 2
  let w3 := s.sheetWord u e 3
  { p with src := u, rse := e, ptr := 0, hops := swHops w2, remote := swRemote w2, link := swLink w2,
           rrse := bitsOf w2 11 8, epoch := bitsOf w2 19 8, dst := bitsOf w3 0 10,
           route := s.sheetWord u e 0 % 2 ^ 30 + 2 ^ 30 * (s.sheetWord u e 1 % 2 ^ 30) }

/-- A unit sends a packet on entry `e` (R350, R359): on an invalid entry nothing is sent, a request or write is answered
NOROUTE and the use is reported; on a frozen entry the packet is held. -/
def State.niSend (s : State) (u e : Nat) (p : Packet) : State :=
  if !s.entryValid u e then
    let s1 := s.report { cause := 0x13, ctx := some p.ctx, unit := u, code := 3, kind := 6, evUnit := u % 256, sub := e }
    if p.vn == 0 || p.vn == 2 then s1.answer u { p with vn := 1, status := 3 } else s1
  else if s.entryFrozen u e then
    { s with net := { s.net with heldPk := mupd [] s.net.heldPk (u * 256 + e) (fun l => l ++ [p]) } }
  else s.inject u (s.headerFrom u e p)

/-- The response to a packet, from its destination: reversed route, same tag, entry and context (R337). -/
def responseTo (p : Packet) (op status : Nat) (data : List Nat) : Packet :=
  let ports := (List.range p.hops).map (fun h => bitsOf p.route (3 * h) 3)
  let back := ports.reverse.zipIdx.foldl (fun r (x, i) => r + x * 2 ^ (3 * i)) 0
  { vn := 1, sclass := p.sclass, ptr := 0, hops := p.hops, src := p.dst, dst := p.src, epoch := 0, ctx := p.ctx, rse := p.rse,
    tag := p.tag, op := op, status := status, route := back, data := data, len := ceilDiv data.length 16 }

/-- Send a response from unit `u`. -/
def State.respond (s : State) (u : Nat) (p : Packet) (op status : Nat) (data : List Nat) (bad : Bool := false) : State :=
  s.inject u { responseTo p op status data with bad := bad, src := u }

/-- Output port wanted by a flit at its router (R337). -/
def Flit.outPort (f : Flit) : Nat := bitsOf f.pkt.route (3 * f.pkt.ptr) 3

/-- The flit after a hop: the arrival port replaces the port of the hop, and PTR moves on (R337). -/
def Flit.hop (f : Flit) (inPort : Nat) : Flit :=
  let sh := 3 * f.pkt.ptr
  let r := f.pkt.route - bitsOf f.pkt.route sh 3 * 2 ^ sh + (if inPort ≥ 8 then 4 else inPort) * 2 ^ sh
  { f with pkt := { f.pkt with route := r, ptr := f.pkt.ptr + 1 } }

/-- Flits that an input queue holds per virtual channel (R340). -/
def queueCap (r p : Nat) : Nat := if 38 ≤ r && 4 ≤ p then 12 else 6

/-- Try to forward the first flit of an input queue (R339 to R341): onto the unit port, or onto the next wire when a credit
for the receiving queue is held. The freed slot is a credit to return. -/
def State.tryForward (s : State) (c r p vn vc : Nat) : State :=
  let key := queueKey c r p vn vc
  match mget [] s.net.queues key with
  | [] => s
  | f :: rest =>
    let o := f.outPort
    let taken := fun (t : State) => { t with net := { t.net with queues := mset [] t.net.queues key rest, back := mupd [] t.net.back key (fun l => l ++ [t.netCycles]) } }
    if isUnitPort r o && !s.portTakes c r f then s
    else if isUnitPort r o then
      taken { s with net := { s.net with ports := mupd [] s.net.ports (c * 64 + r) (fun l => l ++ [f.hop p]) } }
    else match neighbour c r o with
      | none => taken s
      | some (c2, r2, p2) =>
        let p3 := if p2 == 4 && decide (38 ≤ r2) then 8 + (f.pkt.src + f.pkt.rse) % 5 else p2
        let vc2 := if endsLeg r o then vc + 1 else vc
        let rk := queueKey c2 r2 p3 vn vc2
        if mget 0 s.net.down (wireKey c2 r2 p3) == 1 then taken s
        else if mget 0 s.net.used rk < queueCap r2 p3 then
          (taken { s with net := { s.net with used := mupd 0 s.net.used rk (· + 1) } }).pushWire (wireKey c2 r2 p3) [{ f.hop p with vc := vc2 }]
        else s

/-- The output port that the first flit of an input queue wants, where that flit can go now (R340): onto a unit port that takes it (R370), onto a port that its router lacks or
whose link is down (where it is discarded), or onward with a credit. -/
def State.wants (s : State) (c r p vn vc : Nat) : Option Nat :=
  match mget [] s.net.queues (queueKey c r p vn vc) with
  | [] => none
  | f :: _ =>
    let o := f.outPort
    if isUnitPort r o then (if s.portTakes c r f then some o else none)
    else match neighbour c r o with
      | none => some o
      | some (c2, r2, p2) =>
        let p3 := if p2 == 4 && decide (38 ≤ r2) then 8 + (f.pkt.src + f.pkt.rse) % 5 else p2
        let vc2 := if endsLeg r o then vc + 1 else vc
        if mget 0 s.net.down (wireKey c2 r2 p3) == 1 || decide (mget 0 s.net.used (queueKey c2 r2 p3 f.pkt.vn vc2) < queueCap r2 p3) then some o else none

/-- Place of an input queue in the fixed rotation of an output port (R341): virtual network, channel, input port. -/
def rotIndex (p vn vc : Nat) : Nat := (vn * 3 + vc) * 13 + p

/-- The input queues of a router that hold a flit which can go out by port `o`, as places in the rotation. -/
def State.contenders (s : State) (c r o : Nat) : List Nat :=
  s.net.queues.filterMap (fun e =>
    let k := e.1
    let vn := k % 32 / 4
    let vc := k % 4
    let p := k / 32 % 16
    if k / 512 == c * 64 + r && s.wants c r p vn vc == some o then some (rotIndex p vn vc) else none)

/-- The place that comes next in the rotation after `last` (one more than the place last served, 0 for none). -/
def nextInTurn (last : Nat) (l : List Nat) : Option Nat :=
  l.foldl (fun best x =>
    match best with
    | none => some x
    | some b => if (x + 234 - last) % 234 < (b + 234 - last) % 234 then some x else some b) none

/-- One network cycle of an output port (R341): one flit goes out, of the control network first, else of the queue whose turn it is among those that hold
a flit and a credit. The rotation runs over virtual networks, channels and input ports in that order (DESIGN CHOICE, log 114). -/
def State.outputCycle (s : State) (c r o : Nat) : State :=
  let l := s.contenders c r o
  let key := (c * 64 + r) * 16 + o
  let ctl := l.filter (fun x => x / 39 == 4)
  match nextInTurn (mget 0 s.net.turn key) (if ctl.isEmpty then l else ctl) with
  | none => s
  | some x =>
    let s1 := s.tryForward c r (x % 13) (x / 39) (x / 13 % 3)
    if ctl.isEmpty then { s1 with net := { s1.net with turn := mset 0 s1.net.turn key (x + 1) } } else s1

/-- Network cycles of a router until no flit of it can go out; `fuel` bounds them. -/
def State.routerCycles (s : State) (c r : Nat) : Nat → State
  | 0 => s
  | fuel + 1 =>
    if (List.range 8).all (fun o => (s.contenders c r o).isEmpty) then s
    else ((List.range 8).foldl (fun t o => t.outputCycle c r o) s).routerCycles c r fuel

/-- Every output port of a router sends what it can. -/
def State.forwardAll (s : State) (c r : Nat) : State :=
  s.routerCycles c r ((s.net.queues.filter (fun e => e.1 / 512 == c * 64 + r)).foldl (fun n e => n + e.2.length) 0)

/-- The router whose output feeds an input port, with that output port. -/
def upstream (c r p : Nat) : Option (Nat × Nat × Nat) :=
  if p == 0 && decide (r < 38) then none
  else if 8 ≤ p then (if 38 ≤ r then some (facing c, r, 4) else none)
  else neighbour c r p

/-- Credits for the slots that removed flits free, queue by queue. -/
def State.giveBack (s : State) (key n : Nat) : State :=
  if n == 0 then s else { s with net := { s.net with back := mupd [] s.net.back key (fun l => l ++ List.replicate n s.netCycles) } }

/-- Remove every flit of a packet from the network (a discarded packet, R354); the slots that held them, or that were promised to
them, are free. -/
def State.dropPacket (s : State) (uid : Nat) : State :=
  let mine := fun (f : Flit) => f.pkt.uid == uid
  let keep := fun (l : List Flit) => l.filter (fun f => !mine f)
  let s1 := s.net.queues.foldl (fun t q => t.giveBack q.1 (q.2.filter mine).length) s
  let s2 := s.net.wires.foldl (fun t q =>
    if q.1 % 16 == 0 && decide (q.1 / 16 % 64 < 38) then t
    else (q.2.filter mine).foldl (fun t f => t.giveBack (q.1 * 32 + f.pkt.vn * 4 + f.vc) 1) t) s1
  { s2 with net := { s2.net with wires := mmap [] keep s2.net.wires, queues := mmap [] keep s2.net.queues, ports := mmap [] keep s2.net.ports } }

/-- Record an uncorrectable error in NOC_UEINFO of a carriage and count it (R354). -/
def State.recordUe (s : State) (c : Nat) (p : Packet) (atUnit : Nat) (head : Bool) : State :=
  let s1 := s.bump NOC_ECCUE_COUNT c 0 1
  if s1.flag NOC_UEINFO_VALID c then s1.setFlag NOC_UEINFO_MORE c 0 true
  else s1.setFlds c 0 [(NOC_UEINFO_SRC, if head then 0 else p.src), (NOC_UEINFO_DST, atUnit), (NOC_UEINFO_VN, p.vn),
    (NOC_UEINFO_HEAD, b2n head), (NOC_UEINFO_MORE, 0), (NOC_UEINFO_VALID, 1)]

/-- NOC_UEINFO as a word, for the log (Table 16.9). -/
def State.ueinfoWord (s : State) (c : Nat) : Nat :=
  s.fld NOC_UEINFO_SRC c + s.fld NOC_UEINFO_DST c * 2 ^ 10 + s.fld NOC_UEINFO_VN c * 2 ^ 20 + s.fld NOC_UEINFO_HEAD c * 2 ^ 23 +
    s.fld NOC_UEINFO_MORE c * 2 ^ 30 + s.fld NOC_UEINFO_VALID c * 2 ^ 31

end Sys2Proof.Machine
end

