-- ==== Sys2Proof/Machine/Lockstep.lean ====
section
/-! DEFINITION. Lockstep mode and the rein (R306 to R327). -/

namespace Sys2Proof.Machine

/-- Change a link. -/
def State.updLink (s : State) (l : Nat) (f : LinkS → LinkS) : State := { s with links := mupd {} s.links l f }

/-- A link's state. -/
def State.link (s : State) (l : Nat) : LinkS := mget {} s.links l

/-- The global lanes of a link, in order of link lane. -/
def linkLanes (aside : Bool) (l : Nat) : List Nat :=
  if l < 24 then
    let base := l / 6 * 24 + 4 * (l % 6)
    if aside && l % 6 == 5 then [base, base + 1] else [base, base + 1, base + 2, base + 3]
  else
    let b := 2 * (l - 24) * 24
    [b + 22, b + 23, b + 46, b + 47]

/-- A lane's state. -/
def State.laneS (s : State) (g : Nat) : LaneS := mget {} s.laneSt g

/-- Change a lane. -/
def State.updLane (s : State) (g : Nat) (f : LaneS → LaneS) : State := { s with laneSt := mupd {} s.laneSt g f }

/-- Set DEV_LSSTAT.EVENT and raise its vector (R315). -/
def State.lockEvent (s : State) : State :=
  (s.setFlag DEV_LSSTAT_EVENT 0 0 true).raise none (s.fld DEV_LSCTL_PORT 0) (s.fld DEV_LSCTL_VEC 0)

/-- R315, step 3: abort marks go out in the next four sync blocks of every lane of every link that carried lockstep traffic (R469). -/
def State.abortMarksOut (s : State) : State :=
  let lanes := ((List.range 26).filter (fun l => (s.link l).carried)).flatMap (linkLanes s.couplerAside)
  lanes.foldl (fun t g => t.updLane g (fun x => { x with abortMarks := 4 })) s

/-- R315: lockstep aborts with a code, when it runs; a profile change aborts an armed lockstep too (R593). The mark is not sent for code PEER. A cause in the
cycle in which a write of ENABLE = 0 has ended or disarmed lockstep takes the place of END (R316). The maintenance requests that lockstep held up are
granted (R314). -/
def State.lockAbort (s : State) (code : Nat) : State :=
  if s.fld DEV_LSSTAT_STATE 0 == 0 && s.fld DEV_LSSTAT_CODE 0 == 1 && s.lock.endedAt == s.coachCycles + 1 then s.setFld DEV_LSSTAT_CODE 0 0 code
  else if !s.lockRun && !(code == 2 && s.fld DEV_LSSTAT_STATE 0 == 1) then s
  else
    let s1 := (s.setFlds 0 0 [(DEV_LSSTAT_CODE, code), (DEV_LSEND_CYC, s.fld DEV_LSCYC_CYC 0), (DEV_LSSTAT_STATE, 3)]).lockEvent
    (if code == 0xC then s1 else s1.abortMarksOut).arbStep

/-- Whether a packet is an access to a tender of this device, or its answer: its destination or its source is a bay (Table 8.3). -/
def Packet.ofTender (p : Packet) : Bool := (p.dst % 256 == 0x46 && !p.remote) || (p.src % 256 == 0x46 && p.vn == 1)

/-- Packets that travel in the network or are held at an NI. -/
def NetS.travelling (n : NetS) : List Packet :=
  let flits := (n.wires.map (·.2)).flatten ++ (n.queues.map (·.2)).flatten ++ (n.ports.map (·.2)).flatten
  flits.map (·.pkt) ++ (n.heldPk.map (·.2)).flatten

/-- Whether a tender access is outstanding: a bay has been given one that it has not answered, or one travels in the network. -/
def State.tenderBusy (s : State) : Bool :=
  s.bays.any (fun b => !b.2.inq.isEmpty || !b.2.reqList.isEmpty) || s.net.travelling.any Packet.ofTender

/-- R317: code of the first condition checked at enable that fails, in the order of Table 7.1 (R307); 0 when all hold. The profile is the one in force,
which after a failed change is not the one that SEL shows. -/
def State.enableCode (s : State) : Nat :=
  if s.pwr.inForce != 3 || s.flag PWR_STATUS_PROFBUSY 0 then 2
  else if s.flag PWR_THRCTL_EN 0 then 3
  else if !(List.range 8).all (fun n => s.flag HBM_CTL_REFMODE (n / 2) (n % 2) &&
      s.fld HBM_TSET_RATE (n / 2) (n % 2 * 2 + s.fld HBM_STATUS_ACTSET (n / 2) (n % 2)) ==
        s.fld HBM_TSET_RATE 0 (s.fld HBM_STATUS_ACTSET 0 0)) then 4
  else if s.tenderBusy then 5
  else 0

/-- LOCKSTEP_ENABLE (R317): from OFF it arms or refuses; in any other state it has no effect. -/
def execLockstepEnable (s : State) : Res := s.regEvent DEV_LSCTL_ENABLE 0 0 .lockstepEnable fun s =>
  if s.fld DEV_LSSTAT_STATE 0 != 0 then ok s
  else
    let code := s.enableCode
    if code != 0 then ok ((s.setFld DEV_LSSTAT_CODE 0 0 code).lockEvent)
    else ok (s.setFlds 0 0 [(DEV_LSCTL_ENABLE, 1), (DEV_LSSTAT_STATE, 1)])

/-- LOCKSTEP_DISABLE (R318); the maintenance requests that a running lockstep held up are granted (R314). -/
def execLockstepDisable (s : State) : Res := s.regEvent DEV_LSCTL_ENABLE 0 0 .lockstepDisable fun s =>
  let st := s.fld DEV_LSSTAT_STATE 0
  let s1 := s.setFlag DEV_LSCTL_ENABLE 0 0 false
  let s2 := { s1 with lock := { s1.lock with endedAt := s.coachCycles + 1 } }
  if st == 2 then
    ok ((s2.setFlds 0 0 [(DEV_LSSTAT_CODE, 1), (DEV_LSEND_CYC, s.fld DEV_LSCYC_CYC 0), (DEV_LSSTAT_STATE, 0)]).lockEvent.arbStep)
  else if st == 1 then ok ((s2.setFlds 0 0 [(DEV_LSSTAT_CODE, 1), (DEV_LSSTAT_STATE, 0)]).lockEvent)
  else if st == 3 then ok (s1.setFld DEV_LSSTAT_STATE 0 0 0)
  else ok s1

/-! ### The rein -/

/-- Role of the device: 0 member, 1 relay, 2 master. -/
def State.reinRole (s : State) : Nat := let r := s.fld DEV_REINCTL_ROLE 0; if r == 3 then 0 else r

/-- Table 7.4: whether the device drives REIN low (R319). -/
def State.reinLow (s : State) : Bool :=
  let st := s.fld DEV_REINSTAT_STATE 0
  st == 1 || st == 4 || st == 5 || (st == 2 && s.reinRole != 0 && !s.rein.released)

/-- Drive the REIN land as the state requires. -/
def State.driveRein (s : State) : State := s.emit (.pin "REIN" (if s.reinLow then 0 else 1))

/-- R324, step 3: a master in READY that has all its ready marks chooses its release cycle. -/
def State.masterDecide (s : State) : State :=
  if s.fld DEV_REINSTAT_STATE 0 == 2 && s.reinRole == 2 && s.rein.releaseAt.isNone && !s.rein.released &&
      decide (s.fld DEV_REINEXP_COUNT 0 ≤ s.fld DEV_REINSTAT_MARKS 0) then
    { s with rein := { s.rein with releaseAt := some (s.coachCycles + s.fld DEV_REINLEAD_LEAD 0) } }
  else s

/-- REIN_ARM (R321): in IDLE or FIRED. A rein cycle already due stays due (R320). -/
def execReinArm (s : State) : Res := s.regEvent DEV_REINCTL_CMD 0 0 .reinArm fun s =>
  let st := s.fld DEV_REINSTAT_STATE 0
  if st == 0 || st == 3 then
    let s1 := { s.setFlds 0 0 [(DEV_REINSTAT_STATE, 1), (DEV_REINSTAT_MARKS, 0)] with rein := { cycleAt := s.rein.cycleAt } }
    ok { s1 with links := mmap {} (fun l => { l with readySeen := false, fireSeen := false }) s1.links }.driveRein
  else ok s

/-- REIN_READY (R321, R324): in ARMED. -/
def execReinReady (s : State) : Res := s.regEvent DEV_REINCTL_CMD 0 0 .reinReady fun s =>
  if s.fld DEV_REINSTAT_STATE 0 == 1 then
    ok ({ s.setFld DEV_REINSTAT_STATE 0 0 2 with rein := { cycleAt := s.rein.cycleAt } }.masterDecide.driveRein)
  else ok s

/-- REIN_DISARM (R321, R563): to IDLE from every state; every unstarted work order with REIN = 1 posted so far is cancelled. A device that has fired keeps its
rein cycle (R321). -/
def execReinDisarm (s : State) : Res := s.regEvent DEV_REINCTL_CMD 0 0 .reinDisarm fun s =>
  let s1 := { s.setFld DEV_REINSTAT_STATE 0 0 0 with rein := { cycleAt := s.rein.cycleAt } }
  ok { s1 with ctxs := mmap {} (fun c => { c with queues := mmap {} (fun q => { q with cancel := q.posted }) c.queues }) s1.ctxs }.driveRein

/-- REIN_LINE_HIGH (R320): a device in READY samples REIN; on the second high sample in succession it fires, and the rein
cycle is 64 coach cycles later. -/
def execReinLineHigh (level : Bool) (s : State) : Res :=
  let s1 := s.setFlag DEV_REINSTAT_LINE 0 0 level
  if s.fld DEV_REINSTAT_STATE 0 != 2 then ok s1
  else
    let n := if level then s.rein.highs + 1 else 0
    if 2 ≤ n then
      ok { s1.setFld DEV_REINSTAT_STATE 0 0 3 with rein := { s.rein with highs := n, cycleAt := some (s.coachCycles + 64) } }
    else ok { s1 with rein := { s.rein with highs := n } }

/-- A gated coach restarts (R575): it is IDLE when bound, else UNBOUND. -/
def State.ungate (s : State) (k : Nat) : State :=
  if s.fld COA_STATE_STATE k == 6 then
    (s.setFld COA_STATE_STATE k 0 (if s.flag COA_ROLE_BOUND k then 1 else 0)).updCoach k (fun c => { c with idleFrom := s.coachCycles })
  else s

/-- Every gated coach of a carriage restarts. -/
def State.ungateCar (s : State) (c : Nat) : State := (List.range 24).foldl (fun t k => t.ungate (c * 24 + k)) s

/-- R381: the generator's value at a rein cycle of an armed lockstep, for stack `n`. -/
def reinSeed (seed n : Nat) : Nat :=
  let v := (seed ^^^ (0x01010101 * n)) % 2 ^ 32
  if v == 0 then 1 else v

/-- REIN_CYCLE (R320): DEV_LSCYC becomes zero, waiting rein work orders may start, and an armed lockstep runs: gating is off from here (R309), so every
gated coach of a running carriage restarts, and no link has carried lockstep traffic yet (R315). -/
def execReinCycle (s : State) : Res :=
  match s.rein.cycleAt with
  | none => ok s
  | some _ =>
    let armed := s.fld DEV_LSSTAT_STATE 0 == 1
    let s1 := s.setFlds 0 0 [(DEV_LSCYC_CYC, 0), (DEV_LSADMIT_COUNT, 0), (DEV_REINSTAT_STATE, if s.fld DEV_REINSTAT_STATE 0 == 3 then 0 else s.fld DEV_REINSTAT_STATE 0),
      (DEV_LSSTAT_STATE, if armed then 2 else s.fld DEV_LSSTAT_STATE 0)]
    let run := { s1 with rein := { s1.rein with cycleAt := none },
                         ctxs := mmap {} (fun c => { c with queues := mmap {} (fun q => { q with released := q.posted }) c.queues }) s1.ctxs }
    let s2 := if armed then
        ((List.range 4).filter (fun c => s.carState c == 0)).foldl (fun t c => t.ungateCar c)
          { run with lock := { waiting := run.lock.waiting }, links := mmap {} (fun l => { l with carried := false }) run.links }
      else run
    ok ((List.range 8).foldl (fun t n => t.updHbm n (fun h =>
      { h with slotBase := h.cyc, g := if armed then reinSeed (s.fld DEV_LSSEED_SEED 0) n else h.g })) s2)

/-- Enter TIMEDOUT or LATE (R327). -/
def State.reinFail (s : State) (st : Nat) : State :=
  ((s.setFlds 0 0 [(DEV_REINSTAT_STATE, st), (DEV_REINSTAT_EVENT, 1)]).raise none (s.fld DEV_LSCTL_PORT 0) (s.fld DEV_LSCTL_VEC 0)).driveRein

/-- REIN_TIMEOUT (R319): DEV_REINTMO has elapsed since ARM without firing. -/
def execReinTimeout (s : State) : Res :=
  let st := s.fld DEV_REINSTAT_STATE 0
  if (st == 1 || st == 2) && s.fld DEV_REINTMO_TMO 0 != 0 then ok (s.reinFail 4) else ok s

/-- REIN_RELEASE (R324, step 6): a master or relay reaches its release cycle. -/
def execReinRelease (s : State) : Res :=
  if s.fld DEV_REINSTAT_STATE 0 == 2 && s.rein.releaseAt.isSome && !s.rein.released then
    ok ({ s with rein := { s.rein with released := true } }.driveRein)
  else ok s

/-- R324, step 5 and R325: a relay takes its release cycle from the first fire mark on its link, or is LATE. -/
def State.fireMark (s : State) (link d : Nat) : State :=
  if s.fld DEV_REINSTAT_STATE 0 == 2 && s.reinRole == 1 && s.fld DEV_REINCTL_LINK 0 == link && !(s.link link).fireSeen then
    let lat := s.fld DEV_REINLAT_LAT 0 link
    let s1 := s.updLink link (fun l => { l with fireSeen := true })
    if d ≤ lat then s1.reinFail 5
    else { s1 with rein := { s1.rein with releaseAt := some (s.coachCycles + d - lat) } }
  else s

/-- R469: a master counts each link's first ready mark. -/
def State.readyMark (s : State) (link : Nat) : State :=
  if s.reinRole == 2 && (s.fld DEV_REINSTAT_STATE 0 == 1 || s.fld DEV_REINSTAT_STATE 0 == 2) && !(s.link link).readySeen then
    ((s.updLink link (fun l => { l with readySeen := true })).bump DEV_REINSTAT_MARKS 0 0 1).masterDecide
  else s

end Sys2Proof.Machine
end

