-- ==== Sys2Proof/Machine/Module.lean ====
section
/-! DEFINITION. The modules in the tender bays: packets on the lanes (R400), tables in two copies (R407 to R411), wear, and what a bay records (R406). -/

namespace Sys2Proof.Machine

/-- Key of a tender media byte: bay and module address. -/
def mediaKey (bay a : Nat) : Nat := bay * 2 ^ 43 + a

/-- A bay's state. -/
def State.bay (s : State) (b : Nat) : BayS := mget {} s.bays b

/-- Change a bay. -/
def State.updBay (s : State) (b : Nat) (f : BayS → BayS) : State := { s with bays := mupd {} s.bays b f }

/-- Change the module in a bay. -/
def State.updMod (s : State) (b : Nat) (f : ModS → ModS) : State := s.updBay b (fun y => { y with modl := f y.modl })

/-- The bay unit (local unit 0x46 of its carriage). -/
def bayUnit (b : Nat) : Nat := b * 256 + 0x46

/-- State of a bay (Table 10.9). -/
def State.bayState (s : State) (b : Nat) : Nat := s.fld TND_STATE_STATE b

/-- Set a TND_EVENT bit and raise its vector. -/
def State.bayEvent (s : State) (f : Fld) (b : Nat) : State := (s.setFlag f b 0 true).raise none b (s.fld TND_CTL_VEC b)

/-! ### Packets on the lanes (R400, R402) -/

/-- The 16 bytes of a header (Table 10.2) with a CRC field. -/
def TPkt.header (p : TPkt) (crc : Nat) : List Nat :=
  leBytes 16 (p.typ % 16 + p.tag % 2 ^ 10 * 2 ^ 4 + p.status % 16 * 2 ^ 14 + p.len % 2 ^ 10 * 2 ^ 18 + p.addr % 2 ^ 42 * 2 ^ 32 + crc % 2 ^ 32 * 2 ^ 96)

/-- A packet as it travels (R400): the header, whose CRC covers the header with that field zero and the data, then the data padded with zeros to whole
16-byte units. -/
def TPkt.wire (p : TPkt) : List Nat :=
  p.header (crc32c (p.header 0 ++ p.data)) ++ p.data ++ List.replicate (ceilDiv p.data.length 16 * 16 - p.data.length) 0

/-- The packet that bytes on the lanes spell; none where the CRC fails, so that the receiver discards it (R402). LEN of a READ
tells what it asks for: it carries no data (Table 10.3). -/
def packetOfWire (bs : List Nat) : Option TPkt :=
  let h := leNat (bs.take 16)
  let n := if bitsOf h 0 4 == 1 then 0 else bitsOf h 18 10
  let p : TPkt := { typ := bitsOf h 0 4, tag := bitsOf h 4 10, status := bitsOf h 14 4, len := bitsOf h 18 10, addr := bitsOf h 32 42, data := (bs.drop 16).take n }
  if p.data.length == n && bitsOf h 96 32 == crc32c (leBytes 16 (h % 2 ^ 96) ++ p.data) then some p else none

/-- A packet as its receiver takes it, with some bits inverted on the lanes. -/
def TPkt.received (p : TPkt) (flips : List Nat) : Option TPkt := packetOfWire (invertBits p.wire (flipped flips))

/-! ### Module tables (R407 to R411) -/

/-- The copy in use: the valid one of higher generation (R410). -/
def Copies.now (t : Copies) : Copy :=
  if t.a.ok && (!t.b.ok || decide (t.b.gen ≤ t.a.gen)) then t.a else if t.b.ok then t.b else { ok := false }

/-- Update a table (R410): the copy that is not in use takes the next generation; an update that is torn leaves that copy without a valid CRC. -/
def Copies.put (t : Copies) (val : List Nat) (torn : Bool) : Copies :=
  let x : Copy := { gen := t.now.gen + 1, ok := !torn, val := val }
  if t.a.ok && t.now == t.a then { t with b := x } else { t with a := x }

/-- Bytes written to the media. -/
def ModS.written (m : ModS) : Nat := m.wear.now.val.getD 0 0
/-- The spare pool left, in units of 0.001 % of capacity. -/
def ModS.spare (m : ModS) : Nat := m.wear.now.val.getD 1 0

/-- A record with its CRC-32C; a record that does not pass carries another. -/
def withCrc (bs : List Nat) (good : Bool) : List Nat := bs ++ leBytes 4 (if good then crc32c bs else crc32c bs ^^^ 1)

/-- The 16-byte seal record (Table 10.6). -/
def ModS.sealBytes (m : ModS) : List Nat := withCrc (leBytes 8 (m.sealed.now.val.getD 0 0) ++ leBytes 4 (m.sealed.now.val.getD 1 0)) m.sealed.now.ok

/-- USED in units of 1/100 FMWE (Table 10.7). -/
def ModS.used (m : ModS) : Nat := m.written * 100 / (m.capGib * 2 ^ 30)

/-- The 16-byte wear summary (Table 10.7). -/
def ModS.summaryBytes (m : ModS) : List Nat := withCrc (leBytes 4 m.used ++ leBytes 4 m.spare ++ leBytes 4 0) true

/-- The 64-byte identity block (Table 10.5). -/
def ModS.identBytes (m : ModS) : List Nat :=
  withCrc (leBytes 8 m.serial ++ leBytes 2 m.make ++ leBytes 2 m.capGib ++ leBytes 2 m.rated ++ leBytes 2 1 ++ m.sealBytes ++ m.summaryBytes ++
    leBytes 12 0) m.idOk

/-- Whether a record ends in the CRC-32C of what stands before. -/
def crcGood (bs : List Nat) : Bool := leNat (bs.drop (bs.length - 4)) == crc32c (bs.take (bs.length - 4))

/-! ### Wear -/

/-- The module's wear grows by bytes written and by spare pool used: its wear table, and for spare pool used its remap table, take an update (R410), and a
change of USED or SPARE sends a NOTICE (Table 10.3). A module that loses its power in the update keeps the former tables. -/
def State.modWear (s : State) (b written worn : Nat) (torn : Bool := false) : State :=
  let m := (s.bay b).modl
  let m2 := { m with wear := m.wear.put [m.written + written, m.spare - worn] torn, present := m.present && !torn,
                     remap := if worn == 0 then m.remap else m.remap.put [m.remap.now.val.getD 0 0 + worn] torn }
  let s1 := s.updMod b (fun _ => m2)
  if !torn && (m2.used != m.used || m2.spare != m.spare) then
    s1.updBay b (fun y => { y with toDev := y.toDev ++ [{ typ := 10, len := 16, data := m2.summaryBytes }] })
  else s1

/-- Whether a range lies beyond the module's capacity. -/
def ModS.beyond (m : ModS) (a n : Nat) : Bool := decide (m.capGib * 2 ^ 30 < a + n)

/-! ### Errors (R406) -/

/-- Record an access that ends with a status other than OK, and report it (R406). -/
def State.bayError (s : State) (b ctx addr : Nat) (write : Bool) (st : Nat) : State :=
  let s1 := if s.flag TND_ERRINFO_VALID b then s.setFld TND_ERRINFO_MORE b 0 1
    else s.setFlds b 0 [(TND_ERRINFO_CONTEXT, ctx), (TND_ERRINFO_STATUS, st), (TND_ERRINFO_WRITE, b2n write), (TND_ERRINFO_MORE, 0),
      (TND_ERRINFO_VALID, 1), (TND_ERRADDR_ADDR, addr)]
  (s1.bayEvent TND_EVENT_ERR b).report { cause := 0, ctx := some ctx, unit := bayUnit b, code := st, data := addr }

/-- Tender status with which a bay ends an access of the firmware's own (Tables 10.4 and 10.9), 0 for one it serves. A bay that would hold it answers ABSENT
(log 16). -/
def State.bayRefuses (s : State) (b a n : Nat) (write : Bool) : Nat :=
  let m := (s.bay b).modl
  match s.bayState b with
  | 1 | 2 => 7
  | 6 => 6
  | 3 | 5 => if write && decide (m.spare < 2000) then 1 else if m.beyond a n then 5 else 0
  | _ => 3

end Sys2Proof.Machine
end

