-- ==== Sys2Proof/Machine/Memory.lean ====
section
/-! DEFINITION. Physical memory as the device addresses it: the order between queued writes and later reads (R375), tender media, and page-table walks
over it (R272 to R274, R552). -/

namespace Sys2Proof.Machine

/-! ### HBM as the firmware reads and writes it (R375) -/

/-- Bytes from `a`, changed where a later write of `data` at `b` covers them. -/
def overlayFrom (b : Nat) (data : List Nat) : Nat → List Nat → List Nat
  | _, [] => []
  | a, x :: xs => (if b ≤ a ∧ a < b + data.length then data.getD (a - b) 0 else x) :: overlayFrom b data (a + 1) xs

/-- The writes of the pseudo-channel that holds an address that are not all in the stack yet, oldest first. -/
def State.queuedAt (s : State) (pa : Nat) : List HReq :=
  let p := s.place pa
  let q := (s.hbmCtl p.stack).pc p.pc
  q.wq ++ q.late

/-- The queued writes that may touch a range within 4 KiB. -/
def State.queuedOver (s : State) (pa n : Nat) : List HReq :=
  ((List.range (ceilDiv (pa % 256 + n) 256)).map (fun g => s.queuedAt ((pa / 256 + g) * 256))).flatten

/-- Bytes of HBM as a read accepted now returns them: stack contents under every accepted write (R375). -/
def State.hbmPeek (s : State) (pa n : Nat) : List Nat :=
  (s.queuedOver pa n).foldl (fun bs r => overlayFrom r.pa r.pkt.data pa bs) (memRead s.hbm.bytes pa n)

/-- Whether a read of a range meets a poisoned burst that no queued write covers whole (R391, R393). -/
def State.hbmPoisoned (s : State) (pa n : Nat) : Bool :=
  (List.range (ceilDiv (pa % 32 + n) 32)).any (fun i =>
    let b := pa / 32 + i
    mget 0 s.hbm.poison b == 1 && !(s.queuedAt (b * 32)).any (fun r => decide (r.pa ≤ b * 32 ∧ b * 32 + 32 ≤ r.pa + r.n)))

/-- An access of the firmware's own (a ring, a record): a write that lies within one granule enters its queue (R375), or waits for room there (R370). -/
def State.hbmPutGranule (s : State) (pa : Nat) (bs : List Nat) : State :=
  let p := s.place pa
  s.updHbm p.stack (fun h =>
    let r : HReq := ⟨{ vn := 2, addr := pa, data := bs, src := 0x263 }, pa, bs.length, true, 0, h.cyc, h.orderNo, false, [], [], 0, 0⟩
    { h.updPc p.pc (fun c => if c.wq.length < 32 && c.late.isEmpty then { c with wq := c.wq ++ [r] } else { c with late := c.late ++ [r] }) with orderNo := h.orderNo + 1 })

/-- A range cut at granule boundaries (R369): pieces of (address, length). `fuel` bounds the pieces. -/
def granules : Nat → Nat → Nat → List (Nat × Nat)
  | 0, _, _ => []
  | fuel + 1, a, n => if n == 0 then [] else
      let m := min n (256 - a % 256)
      (a, m) :: granules fuel (a + m) (n - m)

/-- A write of the firmware's own to HBM. -/
def State.hbmPut (s : State) (pa : Nat) (bs : List Nat) : State :=
  (granules (bs.length + 1) pa bs.length).foldl (fun t (a, n) => t.hbmPutGranule a ((bs.drop (a - pa)).take n)) s

/-! ### Translation results and walks -/

/-- Where a virtual address leads: target 0 HBM, 1 tender bay, 2 host, with the unit and the physical address, and whether the page that
leads there is of 2 MiB. -/
structure Loc where
  target : Nat
  unit : Nat
  addr : Nat
  big : Bool := false
deriving DecidableEq, Repr

/-- What one table entry decides (R274). -/
inductive WalkStep where
  | fault (code : Nat)
  | next (addr : Nat)
  | leaf (e : TcEnt)
deriving DecidableEq, Repr

/-- Whether `n` bytes lie in a window. -/
def Window.holds (w : Window) (target unit a n : Nat) : Bool :=
  w.target == target && (target == 0 || w.unit == unit) && decide (w.base ≤ a) && decide (a + n ≤ w.base + w.size)

/-- R552: a range of HBM or of a tender lies in a window of the context; host pages are not windowed. -/
def CtxS.inWindow (c : CtxS) (target unit a n : Nat) : Bool :=
  target == 2 || c.w0.holds target unit a n || c.w1.holds target unit a n

/-- Index of a virtual address at a level (Table 6.1). -/
def levelIndex (level va : Nat) : Nat :=
  match level with
  | 0 => bitsOf va 39 9
  | 1 => bitsOf va 30 9
  | 2 => bitsOf va 21 9
  | _ => bitsOf va 16 5

/-- Bytes of a table of a level (Table 6.1). -/
def tableSize (level : Nat) : Nat := if level == 3 then 256 else 4096

/-- R274, steps 1 to 3, with R552: what the entry `e` read at a level decides for an access. -/
def judgeEntry (c : CtxS) (ctx va : Nat) (write : Bool) (level e : Nat) : WalkStep :=
  let leaf := bitsOf e 1 1 == 1
  let target := bitsOf e 4 2
  let unit := bitsOf e 6 2
  let lo := bitsOf e 8 4
  let addr := bitsOf e 12 40 * 4096
  let nextAddr := addr + (if level == 2 then lo * 256 else 0)
  let pageLog := if level == 2 then 21 else 16
  if bitsOf e 0 1 == 0 then .fault 1
  else if bitsOf e 52 12 != 0 || target == 3 || (leaf && decide (level < 2)) || (!leaf && level == 3) ||
      (!leaf && target != 0) || (lo != 0 && (leaf || level != 2)) || (leaf && addr % 2 ^ pageLog != 0) ||
      (!leaf && decide (2 ^ 39 ≤ nextAddr)) || (leaf && target == 0 && decide (2 ^ 39 ≤ addr)) then .fault 3
  else if leaf then
    let r := bitsOf e 2 1 == 1
    let w := bitsOf e 3 1 == 1
    if (if write then !w else !r) || !c.inWindow target unit addr (2 ^ pageLog) then .fault 2
    else .leaf { ctx := ctx, big := level == 2, vpn := va / 2 ^ pageLog, target := target, unit := unit, ppn := addr / 2 ^ pageLog,
                 r := r, w := w, age := 0 }
  else if !c.inWindow 0 0 nextAddr (tableSize (level + 1)) then .fault 2
  else .next (nextAddr + 8 * levelIndex (level + 1) va)

/-- The first step of a walk: bits [63:48] are zero (R272) and the root table lies in a window (R552). -/
def beginWalk (c : CtxS) (va : Nat) : WalkStep :=
  if va / 2 ^ 48 != 0 then .fault 2
  else if !c.inWindow 0 0 c.root 4096 then .fault 2
  else .next (c.root + 8 * levelIndex 0 va)

/-- Physical place of a virtual address under a translation. -/
def TcEnt.loc (e : TcEnt) (va : Nat) : Loc :=
  let k := if e.big then 21 else 16
  { target := e.target, unit := e.unit, addr := e.ppn * 2 ^ k + va % 2 ^ k, big := e.big }

/-- A walk of the firmware's own, read entry by entry from memory. -/
def State.walkFrom (s : State) (c : CtxS) (ctx va : Nat) (write : Bool) : Nat → Nat → Nat → Except Nat Loc
  | 0, _, _ => .error 3
  | fuel + 1, level, addr =>
    if s.hbmPoisoned addr 8 then .error 4
    else match judgeEntry c ctx va write level (leNat (s.hbmPeek addr 8)) with
      | .fault k => .error k
      | .leaf e => .ok (e.loc va)
      | .next a => s.walkFrom c ctx va write fuel (level + 1) a

/-- Translate one virtual address of a context. -/
def State.translate (s : State) (ctx va : Nat) (write : Bool) : Except Nat Loc :=
  match beginWalk (s.ctx ctx) va with
  | .fault k => .error k
  | .leaf e => .ok (e.loc va)
  | .next a => s.walkFrom (s.ctx ctx) ctx va write 4 0 a

/-- Count an uncorrectable or poisoned burst and record its PA (R392, R393). -/
def State.countUe (s : State) (n b : Nat) : State := (s.bumpH HBM_UECNT_COUNT n 1).setHfld HBM_UEADDR_PA n (b * 32)

/-- Count the poisoned bursts that a read of the firmware's own meets (R392). -/
def State.countPoison (s : State) (pa n : Nat) : State :=
  (List.range (ceilDiv (pa % 32 + n) 32)).foldl (fun t i =>
    let b := pa / 32 + i
    if s.hbmPoisoned (b * 32) 32 then t.countUe (s.place (b * 32)).stack b else t) s

/-- Count the poisoned burst at which a walk of the firmware's own ends. -/
def State.walkCount (s : State) (c : CtxS) (ctx va : Nat) (write : Bool) : Nat → Nat → Nat → State
  | 0, _, _ => s
  | fuel + 1, level, addr =>
    if s.hbmPoisoned addr 8 then s.countPoison addr 8
    else match judgeEntry c ctx va write level (leNat (s.hbmPeek addr 8)) with
      | .next a => s.walkCount c ctx va write fuel (level + 1) a
      | _ => s

/-! ### The firmware's own accesses to context memory -/

/-- Read `n` bytes (within one page) at a virtual address of a context. `host` gives the bytes that the host returns when the
page is the host's; none where the access faults, the host returns fewer, or the page's port is in reset (R549). -/
def State.vread (s : State) (ctx va n : Nat) (host : List Nat) : Option (List Nat) :=
  match s.translate ctx va false with
  | .error _ => none
  | .ok l =>
    if l.target == 0 then (if s.hbmPoisoned l.addr n then none else some (s.hbmPeek l.addr n))
    else if l.target == 1 then (if s.bayRefuses l.unit l.addr n false == 0 then some (memRead s.media (mediaKey l.unit l.addr) n) else none)
    else if host.length < n || !(mget {} s.ports l.unit).up then none else some ((host.take n).map (· % 256))

/-- What a read, or a write's translation, of the firmware's own that fails leaves: a poisoned table entry or the poisoned bursts read are counted (R392), the
status with which a bay ends it is recorded (R406). -/
def State.countAccess (s : State) (ctx va n : Nat) (write : Bool) : State :=
  match s.translate ctx va write with
  | .ok l =>
    if write then s
    else if l.target == 0 then s.countPoison l.addr n
    else if l.target == 1 then (s.lockAbort 5).bayError l.unit ctx l.addr false (s.bayRefuses l.unit l.addr n false)
    else s
  | .error _ => match beginWalk (s.ctx ctx) va with
    | .next a => s.walkCount (s.ctx ctx) ctx va write 4 0 a
    | _ => s

/-- Write bytes at a virtual address of a context; a write that faults writes nothing. -/
def State.vwrite (s : State) (ctx va : Nat) (bs : List Nat) : State :=
  match s.translate ctx va true with
  | .error _ => s.countAccess ctx va bs.length true
  | .ok l =>
    if l.target == 0 then s.hbmPut l.addr bs
    else if l.target == 1 then
      let s1 := s.lockAbort 5
      match s1.bayRefuses l.unit l.addr bs.length true with
      | 0 => ({ s1 with media := memWrite s1.media (mediaKey l.unit l.addr) bs }.wrapAdd TND_WRBYTES_BYTES l.unit 0 bs.length).modWear l.unit bs.length 0
      | st => s1.bayError l.unit ctx l.addr true st
    else if (mget {} s.ports l.unit).up then s.emit (.hostWrite l.unit (s.ctxFn ctx) l.addr bs) else s

/-- The bytes that a read of the firmware's own takes from a module count in TND_RDBYTES; a tender access ends a running lockstep (Table 7.1). -/
def State.tallyRead (s : State) (ctx va n : Nat) : State :=
  match s.translate ctx va false with
  | .ok l => if l.target == 1 then (s.lockAbort 5).wrapAdd TND_RDBYTES_BYTES l.unit 0 n else s
  | .error _ => s

/-- Read through `vread`; bytes that cannot be read are free values (R566), and a poisoned burst is counted (R392). -/
def State.vreadFree (s : State) (ctx va n : Nat) (host : List Nat) : List Nat × State :=
  match s.vread ctx va n host with
  | some bs => (bs, s.tallyRead ctx va n)
  | none => (s.countAccess ctx va n false).draws 8 n

end Sys2Proof.Machine
end

