-- ==== Sys2Proof/Machine/Translation.lean ====
section
/-! DEFINITION. Translation caches and their walkers (R275 to R281): each stream engine's, and each carriage's DMA engine's, which
its fabric ports share (R492). -/

namespace Sys2Proof.Machine

/-- The translation cache of unit `u`. -/
def State.tc (s : State) (u : Nat) : Tcache := mget {} s.tcs u

/-- Change a translation cache. -/
def State.updTc (s : State) (u : Nat) (f : Tcache → Tcache) : State := { s with tcs := mupd {} s.tcs u f }

/-- The DMA engine's unit number. -/
def dmaUnit (c : Nat) : Nat := c * 256 + 0x52

/-- Whether an entry maps an address of a context; a lookup checks both page sizes (R275). -/
def TcEnt.hits (e : TcEnt) (ctx va : Nat) : Bool :=
  e.ctx == ctx && e.vpn == va / 2 ^ (if e.big then 21 else 16)

/-- The index and contents of the entry that maps an address. -/
def Tcache.lookup (t : Tcache) (ctx va : Nat) : Option (Nat × TcEnt) :=
  t.ents.findSome? (fun e => match e.2 with
    | some x => if x.hits ctx va then some (e.1, x) else none
    | none => none)

/-- Change every valid entry; `none` makes it invalid. -/
def Tcache.mapEnts (t : Tcache) (f : TcEnt → Option TcEnt) : Tcache :=
  { t with ents := mmap none (fun e => e.bind f) t.ents }

/-- The lowest index from `i` on that is not listed. -/
def firstFree {α : Type} : Nat → SMap α → Nat
  | i, [] => i
  | i, (j, _) :: m => if j == i then firstFree (i + 1) m else i

/-- The listed index of greatest age, the lowest among equals. -/
def oldestIdx : SMap (Option TcEnt) → Option (Nat × Nat)
  | [] => none
  | (j, e) :: m =>
    let a := match e with | some x => x.age | none => 0
    match oldestIdx m with
    | none => some (j, a)
    | some (i, b) => if b ≤ a then some (j, a) else some (i, b)

/-- R278: the index that a new entry takes. -/
def Tcache.victim (t : Tcache) : Nat :=
  let i := firstFree 0 t.ents
  if i < 1024 then i else match oldestIdx t.ents with | some (j, _) => j | none => 0

/-- Enter a translation at age 0 (R276, R278). -/
def Tcache.enter (t : Tcache) (e : TcEnt) : Tcache := { t with ents := mset none t.ents t.victim (some { e with age := 0 }) }

/-- A hit sets the age to 0 (R276). -/
def Tcache.touch (t : Tcache) (i : Nat) (e : TcEnt) : Tcache := { t with ents := mset none t.ents i (some { e with age := 0 }) }

/-- The read of a walker (R274): one entry, with service class 0. -/
def State.walkRead (s : State) (u ctx id addr : Nat) : State :=
  s.niSend u (s.place addr).entry
    { vn := 0, op := 0, sclass := 0, ctx := ctx, tag := 2048 + id % 2048, addr := addr / 16 * 16, len := 1 }

/-- Outcome of asking for a translation. -/
inductive Ask where
  | fault (code : Nat)
  | walking
  | here (l : Loc)
deriving DecidableEq, Repr

/-- Ask unit `u`'s cache for a translation: a hit is served and its age cleared, a miss walks (R274 to R277). A walk of the
same page for the same kind of access that is in flight serves every asker. -/
def State.ask (s : State) (u ctx va : Nat) (write : Bool) : Ask × State :=
  match (s.tc u).lookup ctx va with
  | some (i, e) =>
    let s1 := s.updTc u (fun t => t.touch i e)
    if (if write then e.w else e.r) then (.here (e.loc va), s1) else (.fault 2, s1)
  | none =>
    if (s.tc u).walks.any (fun w => w.ctx == ctx && w.va / 65536 == va / 65536 && w.write == write) then (.walking, s)
    else match beginWalk (s.ctx ctx) va with
      | .fault k => (.fault k, s)
      | .leaf e => (.here (e.loc va), s)
      | .next a =>
        let id := (s.tc u).nextWalk
        (.walking, (s.updTc u (fun t => { t with nextWalk := id + 1, walks := t.walks ++ [⟨id, ctx, va, write, 0, a⟩] })).walkRead u ctx id a)

/-- Begin a walk again from its root under a new number (R279). -/
def State.restartWalk (s : State) (u : Nat) (w : Walk) : State :=
  match beginWalk (s.ctx w.ctx) w.va with
  | .next a =>
    let id := (s.tc u).nextWalk
    (s.updTc u (fun t => { t with nextWalk := id + 1, walks := t.walks ++ [⟨id, w.ctx, w.va, w.write, 0, a⟩] })).walkRead u w.ctx id a
  | _ => s

/-- Whether an invalidation of a kind covers the translation that a request used (R279). -/
def Used.covered (u : Used) (kind ctx va : Nat) : Bool :=
  kind == 0 || (u.ctx == ctx && (kind == 1 || u.va / 2 ^ (if u.big then 21 else 16) == va / 2 ^ (if u.big then 21 else 16)))

/-- The translations of outstanding requests, those that an invalidation covers marked to be waited for. -/
def markUsed (kind ctx va : Nat) (l : List Used) : List Used := l.map (fun u => { u with wait := u.wait || u.covered kind ctx va })

/-- The translation that a request to `va` of a context used. -/
def Loc.used (l : Loc) (ctx va : Nat) : Used := { ctx := ctx, va := va, big := l.big }

/-- The entries that an invalidation covers become invalid, and walks of a matching context in flight are discarded and
started again (R279). -/
def State.invalidate (s : State) (u kind ctx va : Nat) : State :=
  let s1 := s.updTc u (fun t => t.mapEnts (fun e =>
    if kind == 0 || (e.ctx == ctx && (kind == 1 || e.hits ctx va)) then none else some e))
  let again := (s1.tc u).walks.filter (fun w => kind == 0 || w.ctx == ctx)
  again.foldl (fun t w => t.restartWalk u w)
    (s1.updTc u (fun t => { t with walks := t.walks.filter (fun w => !(kind == 0 || w.ctx == ctx)), inval := some (kind, ctx, va) }))

/-- Drop every entry and walk of a context (R281). -/
def State.dropCtxEntries (s : State) (u ctx : Nat) : State :=
  s.updTc u (fun t => { t.mapEnts (fun e => if e.ctx == ctx then none else some e) with walks := t.walks.filter (fun w => w.ctx != ctx) })

/-- The oldest response at a unit that meets `p`, and the state without it. -/
def State.takeInbox (s : State) (u : Nat) (p : Packet → Bool) : Option (Packet × State) :=
  let l := mget [] s.net.inbox u
  match l.find? p with
  | none => none
  | some x => some (x, { s with net := { s.net with inbox := mset [] s.net.inbox u (l.erase x) } })

/-- How a walk that a returned entry ends has ended. -/
inductive WalkEnd where
  | nothing
  | failed (w : Walk) (code : Nat)
  | entered (w : Walk)
deriving DecidableEq, Repr

/-- A table entry returns to its walker: the walk continues, faults, or enters a translation (R274, R278). -/
def State.walkReturn (s : State) (u : Nat) : WalkEnd × State :=
  match s.takeInbox u (fun p => decide (2048 ≤ p.tag) && p.op != 3) with
  | none => (.nothing, s)
  | some (p, s1) =>
    match (s1.tc u).walks.find? (fun w => 2048 + w.id % 2048 == p.tag) with
    | none => (.nothing, s1)
    | some w =>
      let done := s1.updTc u (fun t => { t with walks := t.walks.filter (fun x => x.id != w.id) })
      if p.status != 0 || p.bad then (.failed w 4, done)
      else
        let e := leNat ((p.data.drop (w.addr % 16)).take 8)
        match judgeEntry (s1.ctx w.ctx) w.ctx w.va w.write w.level e with
        | .fault k => (.failed w k, done)
        | .leaf x => (.entered w, done.updTc u (fun t => t.enter x))
        | .next a => (.nothing, (s1.updTc u (fun t => { t with walks := t.walks.map (fun x =>
            if x.id == w.id then { x with level := x.level + 1, addr := a } else x) })).walkRead u w.ctx w.id a)

/-- Every unit with a translation cache: 96 stream engines and 4 DMA engines. -/
def cacheUnits : List Nat := (List.range 96).map coachUnit ++ (List.range 4).map dmaUnit

/-- Every valid entry's age grows by 1; one that stood at 15 has lapsed. -/
def State.ageCaches (s : State) : State :=
  cacheUnits.foldl (fun t u =>
    if (t.tc u).ents.isEmpty then t
    else t.updTc u (fun c => c.mapEnts (fun e => if 15 ≤ e.age then none else some { e with age := e.age + 1 }))) s

/-- TC_AGE_TICK (R276); while lockstep runs it comes once in every 16,000 coach cycles, counted from the rein cycle (R309). -/
def execTcAgeTick (s : State) : Res :=
  let now := s.fld DEV_LSCYC_CYC 0
  if !s.lockRun then ok s.ageCaches
  else if now == 0 || now % 16000 != 0 || s.lock.ageAt == now + 1 then ok s
  else ok { s.ageCaches with lock := { s.lock with ageAt := now + 1 } }

/-- Unit number of a translation engine. -/
def engUnit : Eng → Nat
  | .coach k => coachUnit k
  | .dma c => dmaUnit c

/-- TC_ENTRY_LAPSE (R276): an entry whose age has reached 15 becomes invalid. -/
def execTcEntryLapse (e : Eng) (i : Fin 1024) (s : State) : Res :=
  match mget none (s.tc (engUnit e)).ents i with
  | none => ok s
  | some x => if x.age == 15 then ok (s.updTc (engUnit e) (fun t => { t with ents := mset none t.ents i none })) else ok s

end Sys2Proof.Machine
end

