-- ==== Sys2Proof/Machine/Dma.lean ====
section
/-! DEFINITION. DMA channels (R282 to R296) and the DMA engine's translation cache. -/

namespace Sys2Proof.Machine

/-- A channel's state. -/
def State.chan (s : State) (c ch : Nat) : Chan := mget {} (mget {} s.dma c).ch ch

/-- Change a channel. -/
def State.updChan (s : State) (c ch : Nat) (f : Chan → Chan) : State :=
  { s with dma := mupd {} s.dma c (fun d => { d with ch := mupd {} d.ch ch f }) }

/-- The register index of a channel of carriage `c` is the channel; its unit is the carriage. -/
def State.chanCtx (s : State) (c ch : Nat) : Nat := s.fld DMA_CTX_CONTEXT c ch

/-! ### Descriptors (R283 to R286) -/

/-- Read a descriptor (Table 6.5) from its 64 bytes, with the checks of R285. -/
def readDesc (va : Nat) (bs : List Nat) : Desc :=
  let w0 := leNat (bs.take 4)
  let at8 := fun o => leNat ((bs.drop o).take 8)
  let kind := bitsOf w0 0 2
  let scirc := bitsOf w0 2 1 == 1
  let dcirc := bitsOf w0 3 1 == 1
  let sl := bitsOf w0 8 5
  let dl := bitsOf w0 16 5
  let len := at8 0x08
  let src := at8 0x10
  let dst := at8 0x18
  { va := va, kind := kind, scirc := scirc, dcirc := dcirc, irq := bitsOf w0 4 1 == 1, cls := bitsOf w0 5 2, slog2 := sl, dlog2 := dl,
    len := len, src := src, dst := dst, pattern := at8 0x20,
    bad := decide (2 ≤ kind) || bitsOf w0 7 1 != 0 || bitsOf w0 13 3 != 0 || bitsOf w0 21 11 != 0 || leNat ((bs.drop 4).take 4) != 0 ||
      decide (2 ^ 40 ≤ len) || (kind == 0 && src / 2 ^ 48 != 0) || dst / 2 ^ 48 != 0 ||
      (scirc && kind == 0 && !(decide (12 ≤ sl) && decide (sl ≤ 30))) || (dcirc && !(decide (12 ≤ dl) && decide (dl ≤ 30))) }

/-- Address of byte `i` of a possibly circular buffer (R286). -/
def circAddr (circ : Bool) (log2 a i : Nat) : Nat :=
  if circ then a / 2 ^ log2 * 2 ^ log2 + (a + i) % 2 ^ log2 else a + i

/-- R287: length of the burst that starts at byte `i`. -/
def burstLen (d : Desc) (i : Nat) : Nat :=
  let da := circAddr d.dcirc d.dlog2 d.dst i
  let l1 := min (d.len - i) (4096 - da % 4096)
  let l2 := if d.dcirc then min l1 (2 ^ d.dlog2 - da % 2 ^ d.dlog2) else l1
  if d.scirc && d.kind == 0 then min l2 (2 ^ d.slog2 - circAddr true d.slog2 d.src i % 2 ^ d.slog2) else l2

/-- Whether a channel is active: it holds a descriptor that is not finished. -/
def Chan.active (h : Chan) : Bool := match h.desc with | some d => h.code == 0 && decide (h.done < d.len) | none => false

/-! ### Bursts -/

/-- Pieces of a source range as read (R288): aligned to 64 bytes, cut at the 4 KiB pages. -/
def readSpan (a n : Nat) : List (Nat × Nat) :=
  let lo := a / 64 * 64
  let hi := (a + n + 63) / 64 * 64
  if lo / 4096 == (hi - 1) / 4096 then [(lo, hi - lo)]
  else [(lo, 4096 - lo % 4096), ((lo / 4096 + 1) * 4096, hi - (lo / 4096 + 1) * 4096)]

/-- Pieces of a destination range as written: a partial write up to the first 64-byte boundary, whole aligned 64-byte writes, and
a partial write after the last (R288). `fuel` bounds the pieces. -/
def writeSpan : Nat → Nat → Nat → List (Nat × Nat)
  | 0, _, _ => []
  | fuel + 1, a, n => if n == 0 then [] else
      let m := min n (64 - a % 64)
      (a, m) :: writeSpan fuel (a + m) (n - m)

/-- Route-sheet entry for a physical place (R346). -/
def State.locEntry (s : State) (l : Loc) : Nat :=
  if l.target == 0 then (s.place l.addr).entry else if l.target == 1 then 0x20 + l.unit else 0x24 + l.unit

/-- Ask for the translations of a list of virtual pieces; stops at the first that is not ready. -/
def State.askAll (s : State) (u ctx : Nat) (write : Bool) : List (Nat × Nat) → (Ask × List (Loc × Nat)) × State
  | [] => ((.here ⟨0, 0, 0, false⟩, []), s)
  | (va, n) :: r =>
    match s.ask u ctx va write with
    | (.here l, s1) =>
      match s1.askAll u ctx write r with
      | ((a, ls), s2) => ((a, (l, n) :: ls), s2)
    | (other, s1) => ((other, []), s1)

/-- A channel's burst ends its descriptor with a code (R293), once nothing of it is outstanding (R290). -/
def State.chanFail (s : State) (c ch code : Nat) : State :=
  s.updChan c ch (fun h => { h with code := code, left := 0, burst := 0, got := [], data := [], waiting := false, writing := false, used := [] })

/-- Issue the writes of the burst in hand (R288), or wait for the destination's translation. -/
def State.chanWrite (s : State) (c ch : Nat) (d : Desc) (h : Chan) : State :=
  let u := dmaUnit c
  let ctx := s.chanCtx c ch
  let da := circAddr d.dcirc d.dlog2 d.dst h.done
  match s.ask u ctx da true with
  | (.fault code, s1) => s1.chanFail c ch code
  | (.walking, s1) => s1.updChan c ch (fun h => { h with waiting := true })
  | (.here l, s0) =>
    let parts := writeSpan 66 da h.burst
    let s1 := if l.target == 2 then s0.lockAbort 6 else s0
    let s2 := s1.updChan c ch (fun h => { h with writing := true, waiting := false, left := parts.length, used := [Loc.used l ctx da] })
    parts.foldl (fun t p =>
      let q : Loc := { l with addr := l.addr + (p.1 - da) }
      t.niSend u (t.locEntry q)
        { vn := 2, op := 0, sclass := d.cls, ctx := ctx, tag := ch * 32 + 31, addr := q.addr, aux := p.2, len := ceilDiv p.2 16,
          data := (h.data.drop (p.1 - da)).take p.2 }) s2

/-- Bytes of a fill (Table 6.5): destination byte `a` takes pattern byte `a mod 8`. -/
def fillBytes (pattern a n : Nat) : List Nat := (List.range n).map (fun i => bitsOf pattern (8 * ((a + i) % 8)) 8)

/-- Start, or go on with, the burst in hand: read the source, or write at once for a fill (R287, R288). -/
def State.chanGo (s : State) (c ch : Nat) : State :=
  let h := s.chan c ch
  match h.desc with
  | none => s
  | some d =>
    let u := dmaUnit c
    let ctx := s.chanCtx c ch
    if h.writing then s
    else if d.kind == 1 then
      let da := circAddr d.dcirc d.dlog2 d.dst h.done
      s.chanWrite c ch d { h with data := fillBytes d.pattern da h.burst }
    else if decide (h.data.length = h.burst) && decide (0 < h.burst) then s.chanWrite c ch d h
    else if 0 < h.left then s
    else
      let span := readSpan (circAddr d.scirc d.slog2 d.src h.done) h.burst
      match s.askAll u ctx false span with
      | ((.fault code, _), s1) => s1.chanFail c ch code
      | ((.walking, _), s1) => s1.updChan c ch (fun h => { h with waiting := true })
      | ((.here _, ls), s0) =>
        let s1 := if ls.any (fun l => l.1.target == 2) then s0.lockAbort 6 else s0
        let parts := (ls.map (fun (l, n) =>
          (granules 64 l.addr n).map (fun p => ({ l with addr := p.1 : Loc }, p.2)))).flatten
        let s2 := s1.updChan c ch (fun h => { h with waiting := false, left := parts.length, got := [], used := (List.zip ls span).map (fun x => x.1.1.used ctx x.2.1) })
        parts.zipIdx.foldl (fun t (p, i) =>
          t.niSend u (t.locEntry p.1)
            { vn := 0, op := 0, sclass := d.cls, ctx := ctx, tag := ch * 32 + i, addr := p.1.addr, len := p.2 / 16 }) s2

/-- Channels from the one after the last served, in ascending order and round again (R296). -/
def turnOrder (last : Nat) : List Nat := (List.range 64).map (fun i => (last + 1 + i) % 64)

/-- DMA_BURST (R287, R296): the next active channel in turn, with no burst in hand and no abort asked, starts its next burst. -/
def execDmaBurst (c : Car) (s : State) : Res :=
  let ready := fun ch => let h := s.chan c ch; h.active && h.burst == 0 && !s.flag DMA_CTL_ABORT c ch
  match (turnOrder (mget {} s.dma c).last).find? ready with
  | none => ok s
  | some ch =>
    match (s.chan c ch).desc with
    | none => ok s
    | some d =>
      let s1 := s.updChan c ch (fun h => { h with burst := burstLen d h.done, data := [], got := [], writing := false })
      ok ({ s1 with dma := mupd {} s1.dma c (fun x => { x with last := ch }) }.chanGo c ch)

/-! ### The ring (R282 to R285) -/

/-- Tags of the engine's packets, below the channel's number: a read of a burst has its piece's number, 29 is the status write, 30 the read
of a descriptor, 31 a write of a burst. -/
def isAckTag (t : Nat) : Bool := t % 32 == 31 || t % 32 == 29

/-- Virtual address of the next descriptor. -/
def State.ringVa (s : State) (c ch : Nat) : Nat := s.fld DMA_RINGBASE_BASE c ch * 64 + s.fld DMA_TAIL_TAIL c ch * 64

/-- A channel's registers after a context reset (R295, R607): reset values, but STOPPED is 1. -/
def State.chanCleared (s : State) (c ch : Nat) : State :=
  (s.resetFields .context (fun f u i => f.blk == .dma && u == c && f.reps.length == 1 && i == ch)).setFld DMA_STATUS_STOPPED c ch 1

/-- A channel stops with a code outside a descriptor's end (R293): its ring cannot be read, or its status cannot be written. -/
def State.ringFails (s : State) (c ch code va : Nat) : State :=
  let ctx := s.chanCtx c ch
  let s1 := ((((s.updChan c ch (fun _ => {})).setFlds c ch [(DMA_STATUS_LAST, code), (DMA_STATUS_STOPPED, 1), (DMA_STATUS_ACTIVE, 0),
    (DMA_CTL_ABORT, 0)]).raise (some ctx) 0 (s.fld DMA_CTL_VEC c ch))).report
    { cause := 0, ctx := some ctx, unit := dmaUnit c, code := code, kind := 4, evUnit := ch, va := va }
  if (s.chan c ch).ctxReset then s1.chanCleared c ch else s1

/-- Read the next descriptor from the ring, or wait for its translation (R282, R707). -/
def State.chanFetch (s : State) (c ch : Nat) : State :=
  let ctx := s.chanCtx c ch
  let va := s.ringVa c ch
  match s.ask (dmaUnit c) ctx va false with
  | (.fault code, s1) => s1.ringFails c ch code va
  | (.walking, s1) => s1.updChan c ch (fun h => { h with fetch := 1 })
  | (.here l, s0) =>
    let s1 := if l.target == 2 then s0.lockAbort 6 else s0
    (s1.updChan c ch (fun h => { h with fetch := 2, used := [l.used ctx va] })).niSend (dmaUnit c) (s1.locEntry l)
      { vn := 0, op := 0, ctx := ctx, tag := ch * 32 + 30, addr := l.addr, len := 4 }

/-- A descriptor has returned from the ring: it is checked and taken (R285). -/
def State.descReturn (s : State) (c ch : Nat) (p : Packet) : State :=
  if (s.chan c ch).fetch != 2 then s.updChan c ch (fun h => { h with fetch := 0, used := [] })
  else if p.errCode != 0 then s.ringFails c ch p.errCode (s.ringVa c ch)
  else
    let d := readDesc (s.ringVa c ch) p.data
    (s.updChan c ch (fun _ => { desc := some d, code := if d.bad then 6 else 0 })).setFlag DMA_STATUS_ACTIVE c ch true

/-- The status of a descriptor that ends (R290 to R293): its fault, else ABORTED where ABORT was written before its last burst completed, else
DONE. -/
def Chan.endStatus (h : Chan) (d : Desc) : Nat :=
  if h.code != 0 then h.code else if h.aborted || h.done != d.len then 9 else 8

/-- RESIDUE: the bytes of LEN not moved (R285, R291, R293). -/
def Chan.residue (h : Chan) (d : Desc) : Nat := if h.code == 6 then d.len else d.len - h.done

/-- Write bytes 0x30 to 0x3F of the descriptor as one write of the descriptor's class (R290, R296), or wait for its translation. Where they cannot
be written the channel stops with the fault, and TAIL stays (DEDUCED, log 111). -/
def State.chanStatus (s : State) (c ch : Nat) (d : Desc) (h : Chan) : State :=
  let ctx := s.chanCtx c ch
  match s.ask (dmaUnit c) ctx (d.va + 0x30) true with
  | (.fault code, s1) => s1.ringFails c ch code (d.va + 0x30)
  | (.walking, s1) => s1.updChan c ch (fun h => { h with ending := 1 })
  | (.here l, s0) =>
    let s1 := if l.target == 2 then s0.lockAbort 6 else s0
    (s1.updChan c ch (fun x => { x with ending := 2, status := h.endStatus d, used := [l.used ctx (d.va + 0x30)] })).niSend (dmaUnit c) (s1.locEntry l)
      { vn := 2, op := 0, sclass := d.cls, ctx := ctx, tag := ch * 32 + 29, addr := l.addr, aux := 16, len := 1,
        data := leBytes 8 (h.endStatus d) ++ leBytes 8 (h.residue d) }

/-- The status write is acknowledged, or has failed (R707). -/
def State.statusAck (s : State) (c ch : Nat) (p : Packet) : State :=
  match (s.chan c ch).desc with
  | none => s
  | some d =>
    if (s.chan c ch).ending != 2 then s
    else if p.errCode != 0 then s.ringFails c ch p.errCode (d.va + 0x30)
    else s.updChan c ch (fun h => { h with ending := 3, used := [] })

/-- Whatever of a channel waits for a translation tries again. -/
def State.chanRetry (s : State) (c ch : Nat) : State :=
  let h := s.chan c ch
  if h.fetch == 1 then s.chanFetch c ch
  else match h.desc with
    | none => s
    | some d => if h.ending == 1 then s.chanStatus c ch d h else if h.waiting then s.chanGo c ch else s

/-! ### Returns -/

/-- DMA_READ_RETURN (R285, R288): the oldest response to a read of the engine. A descriptor is checked; of a burst, with the last the bytes
wanted are funnelled to the destination. An error ends the descriptor with MEMERR (R293, R707). -/
def execDmaReadReturn (c : Car) (s : State) : Res :=
  match s.takeInbox (dmaUnit c) (fun p => decide (p.tag < 2048) && !isAckTag p.tag && p.op != 3) with
  | none => ok s
  | some (p, s1) =>
    let ch := p.tag / 32
    let h := s1.chan c ch
    if p.tag % 32 == 30 then ok (s1.descReturn c ch p)
    else match h.desc with
    | none => ok s1
    | some d =>
      if h.left == 0 then ok s1
      else
        let got := (h.got.filter (fun g => decide (g.at_ < p.tag % 32))) ++ [⟨p.tag % 32, p.data⟩] ++
          h.got.filter (fun g => decide (p.tag % 32 < g.at_))
        let code := if p.errCode != 0 then p.errCode else h.code
        let s2 := s1.updChan c ch (fun h => { h with left := h.left - 1, got := got, code := code })
        if h.left != 1 then ok s2
        else if code != 0 then ok (s2.chanFail c ch code)
        else
          let sa := circAddr d.scirc d.slog2 d.src h.done
          let bytes := (((got.map (·.data)).flatten).drop (sa % 64)).take h.burst
          let s3 := s2.updChan c ch (fun h => { h with data := bytes, got := [], used := [] })
          ok (s3.chanGo c ch)

/-- DMA_WRITE_ACK (R290): the oldest acknowledgement; with the last of a burst, its bytes are done, or the fault of one of its writes ends the
descriptor. -/
def execDmaWriteAck (c : Car) (s : State) : Res :=
  match s.takeInbox (dmaUnit c) (fun p => decide (p.tag < 2048) && isAckTag p.tag && p.op != 3) with
  | none => ok s
  | some (p, s1) =>
    let ch := p.tag / 32
    let h := s1.chan c ch
    if p.tag % 32 == 29 then ok (s1.statusAck c ch p)
    else if h.left == 0 || !h.writing then ok s1
    else
      let code := if p.errCode != 0 then p.errCode else h.code
      let s2 := s1.updChan c ch (fun h => { h with left := h.left - 1, code := code })
      if h.left != 1 then ok s2
      else if code != 0 then ok (s2.chanFail c ch code)
      else
        ok ((s2.updChan c ch (fun h => { h with done := h.done + h.burst, burst := 0, data := [], writing := false, used := [] })).wrapAdd
          DMA_BYTES_BYTES c ch h.burst)

/-! ### Descriptors begin and end -/

/-- Whether a channel may fetch (R283, R294, R600): it runs, is not stopped, holds no descriptor, one is posted, and its
context is not STOPPED, nor one that a fenced device has stopped (R655). -/
def State.mayFetch (s : State) (c ch : Nat) : Bool :=
  s.flag DMA_CTL_RUN c ch && !s.flag DMA_STATUS_STOPPED c ch && !s.flag DMA_CTL_ABORT c ch && (s.chan c ch).desc.isNone &&
    (s.chan c ch).fetch == 0 && s.fld DMA_HEAD_HEAD c ch != s.fld DMA_TAIL_TAIL c ch && s.flag DMA_CTX_BOUND c ch && (s.ctx (s.chanCtx c ch)).state == 1 && !s.fenced (s.chanCtx c ch) && !s.stoppedAt 4 c

/-- DMA_DESC_FETCH (R283, R285): the channel reads the descriptor at TAIL. A ring that cannot be read stops the channel as under R293, with no
descriptor to write. -/
def execDmaDescFetch (c : Car) (ch : Fin 64) (s : State) : Res :=
  ok (if s.mayFetch c ch then s.chanFetch c ch else s)

/-- The last steps of a descriptor's end, its status written (R290 to R293): TAIL and the vector; a status other than DONE and
BADDESC, and every abort, stops the channel and is an event (R567). -/
def State.endDesc (s : State) (c ch : Nat) (d : Desc) (h : Chan) : State :=
  let ctx := s.chanCtx c ch
  let abort := s.flag DMA_CTL_ABORT c ch
  let status := h.status
  let s2 := (s.setFlds c ch [(DMA_TAIL_TAIL, (s.fld DMA_TAIL_TAIL c ch + 1) % 2 ^ s.fld DMA_RINGSIZE_LOG2 c ch), (DMA_STATUS_LAST, status),
    (DMA_STATUS_ACTIVE, 0)]).updChan c ch (fun _ => {})
  let s3 := if status != 8 || d.irq then s2.raise (some ctx) 0 (s2.fld DMA_CTL_VEC c ch) else s2
  let stops := abort || (status != 8 && status != 6)
  if h.ctxReset then
    (s3.report { cause := 0, ctx := some ctx, unit := dmaUnit c, code := status, kind := 4, evUnit := ch, va := d.va }).chanCleared c ch
  else if stops then
    (s3.setFlds c ch [(DMA_STATUS_STOPPED, 1), (DMA_CTL_ABORT, 0)]).report
      { cause := 0, ctx := some ctx, unit := dmaUnit c, code := status, kind := 4, evUnit := ch, va := d.va }
  else s3

/-- DMA_DESC_END (R290): the descriptor in hand has moved its last byte, or met a fault, or an abort is asked between bursts, and every write is
acknowledged: its status is written; once that write is acknowledged, the descriptor ends. -/
def execDmaDescEnd (c : Car) (ch : Fin 64) (s : State) : Res :=
  let h := s.chan c ch
  match h.desc with
  | none => ok s
  | some d =>
    if h.ending == 3 then ok (s.endDesc c ch d h)
    else if decide (0 < h.burst) || h.ending != 0 then ok s
    else if h.code != 0 || h.done == d.len || s.flag DMA_CTL_ABORT c ch then ok (s.chanStatus c ch d h)
    else ok s

/-! ### Register commands -/

/-- DMA_HEAD is written (R283); a HEAD beyond the ring has an unpredictable result: HEAD takes a free value (log 4). -/
def State.dmaHead (s : State) (c ch v : Nat) : State :=
  if v % 2 ^ 16 < 2 ^ s.fld DMA_RINGSIZE_LOG2 c ch then s.setFld DMA_HEAD_HEAD c ch v
  else let r := s.draw 16; r.2.setFld DMA_HEAD_HEAD c ch r.1

/-- DMA_HEAD_WRITE (R283). -/
def execDmaHeadWrite (c : Car) (ch : Fin 64) (v : BitVec 16) (s : State) : Res :=
  s.regEvent DMA_HEAD_HEAD c ch (.dmaHeadWrite c ch v) fun s => ok (s.dmaHead c ch v.toNat)

/-- DMA_RUN (R294). -/
def execDmaRun (c : Car) (ch : Fin 64) (run : Bool) (s : State) : Res :=
  s.regEvent DMA_CTL_RUN c ch (.dmaRun c ch run) fun s => ok (s.setFlag DMA_CTL_RUN c ch run)

/-- ABORT of a channel (R291): with no descriptor it only stops, and a descriptor on its way from the ring is dropped; with one, the descriptor ends
after the burst in hand. The cycle of R292 is that of DMA_WRITE_ACK for the last burst: an ABORT after it finds the descriptor done (log 112). -/
def State.dmaAbort (s : State) (c ch : Nat) : State :=
  match (s.chan c ch).desc with
  | none => ((s.updChan c ch (fun h => { h with fetch := if 2 ≤ h.fetch then 3 else 0 })).setFlds c ch [(DMA_STATUS_STOPPED, 1), (DMA_CTL_ABORT, 0)]).report
      { cause := 0, ctx := if s.flag DMA_CTX_BOUND c ch then some (s.chanCtx c ch) else none, unit := dmaUnit c, code := s.fld DMA_STATUS_LAST c ch,
        kind := if s.flag DMA_CTX_BOUND c ch then 4 else 0, evUnit := ch }
  | some d => (s.updChan c ch (fun h => { h with aborted := h.aborted || (h.done != d.len && h.ending == 0) })).setFlag DMA_CTL_ABORT c ch true

/-- DMA_ABORT (R291). -/
def execDmaAbort (c : Car) (ch : Fin 64) (s : State) : Res :=
  s.regEvent DMA_CTL_ABORT c ch (.dmaAbort c ch) fun s => ok (s.dmaAbort c ch)

/-- DMA_STOPPED_CLEAR (R294). -/
def execDmaStoppedClear (c : Car) (ch : Fin 64) (s : State) : Res :=
  s.regEvent DMA_STATUS_STOPPED c ch (.dmaStoppedClear c ch) fun s => ok (s.setFlag DMA_STATUS_STOPPED c ch false)

/-! ### The engine's cache -/

/-- Start an invalidation of a DMA engine's cache (R282, R279), which the carriage's fabric ports share (R492), with no effect while one runs. -/
def State.dmaInval (s : State) (c kind ctx : Nat) : State :=
  if s.flag DMA_INVAL_BUSY c then s
  else
    let va := s.fld DMA_INVALVA_VA c
    let s1 := (s.invalidate (dmaUnit c) kind ctx va).setFlag DMA_INVAL_BUSY c 0 true
    let s2 := { s1 with dma := mupd {} s1.dma c (fun d => { d with ch := mmap {} (fun h => { h with used := markUsed kind ctx va h.used }) d.ch }) }
    s2.updFab c (fun f => { f with owed := mmap [] (List.map (fun o => { o with used := markUsed kind ctx va o.used })) f.owed })

/-- Whether a channel or a fabric port of a carriage has an outstanding request that an invalidation waits for (R279, R282, R492). -/
def State.invalWaits (s : State) (c : Nat) : Bool :=
  (mget {} s.dma c).ch.any (fun h => h.2.used.any (·.wait)) || (s.fabS c).owed.any (fun l => l.2.any (fun o => o.used.any (·.wait)))

/-- DMA_INVAL_ALL (R282). -/
def execDmaInvalAll (c : Car) (s : State) : Res := s.regEvent DMA_INVAL_KIND c 0 (.dmaInvalAll c) fun s => ok (s.dmaInval c 0 0)
/-- DMA_INVAL_CONTEXT (R282). -/
def execDmaInvalContext (c : Car) (ctx : Ctx) (s : State) : Res :=
  s.regEvent DMA_INVAL_KIND c 0 (.dmaInvalContext c ctx) fun s => ok (s.dmaInval c 1 ctx)
/-- DMA_INVAL_PAGE (R282). -/
def execDmaInvalPage (c : Car) (ctx : Ctx) (s : State) : Res :=
  s.regEvent DMA_INVAL_KIND c 0 (.dmaInvalPage c ctx) fun s => ok (s.dmaInval c 2 ctx)

/-- DMA_INVAL_DONE (R282). -/
def execDmaInvalDone (c : Car) (s : State) : Res :=
  if s.flag DMA_INVAL_BUSY c && !s.invalWaits c then
    ok ((s.updTc (dmaUnit c) (fun t => { t with inval := none })).setFlag DMA_INVAL_BUSY c 0 false)
  else ok s

end Sys2Proof.Machine
end

