-- ==== Sys2Proof/Machine/ReedSolomon.lean ====
section
/-! DEFINITION. The RS(544,514) code of R447 over GF(2^10), with the field polynomial, generator polynomial and bit order of IEEE 802.3, which the spec names
and does not write out (PRESUMED, log 53): field polynomial x^10 + x^3 + 1, generator the product of (x − α^j) for j = 0 to 29, the first symbol sent the
coefficient of x^543, bit 0 of each symbol first. A decoder that corrects up to 15 symbols. -/

namespace Sys2Proof.Machine

/-! ### The field -/

/-- Twice an element: multiplication by α. -/
def gfDouble (a : Nat) : Nat := if a < 512 then 2 * a else (2 * a) ^^^ 0x409

/-- Product of two elements, bit by bit of `b`; `n` counts bits. -/
def gfMulAux : Nat → Nat → Nat → Nat
  | 0, _, _ => 0
  | n + 1, a, b => (if b % 2 == 1 then a else 0) ^^^ gfMulAux n (gfDouble a) (b / 2)

/-- Product of two elements. -/
def gfMul (a b : Nat) : Nat := gfMulAux 10 a b

/-- Power of an element; `n` counts the bits of the exponent. -/
def gfPowAux : Nat → Nat → Nat → Nat
  | 0, _, _ => 1
  | n + 1, a, e =>
    let r := gfPowAux n (gfMul a a) (e / 2)
    if e % 2 == 1 then gfMul a r else r

/-- Power of an element. -/
def gfPow (a e : Nat) : Nat := gfPowAux 10 a e

/-- Inverse of an element other than zero. -/
def gfInv (a : Nat) : Nat := gfPow a 1022

/-- α to a power. -/
def alpha (i : Nat) : Nat := gfPow 2 (i % 1023)

/-! ### Polynomials, lowest coefficient first -/

/-- Sum of two polynomials. -/
def polyAdd : List Nat → List Nat → List Nat
  | [], q => q
  | p, [] => p
  | a :: p, b :: q => (a ^^^ b) :: polyAdd p q

/-- A polynomial times an element. -/
def polyScale (c : Nat) (p : List Nat) : List Nat := p.map (gfMul c)

/-- Product of two polynomials. -/
def polyMul : List Nat → List Nat → List Nat
  | [], _ => []
  | a :: p, q => polyAdd (polyScale a q) (0 :: polyMul p q)

/-- Value of a polynomial. -/
def polyEval (x : Nat) : List Nat → Nat
  | [] => 0
  | a :: p => a ^^^ gfMul x (polyEval x p)

/-- Formal derivative in characteristic 2: the odd coefficients, each one place lower. -/
def polyDeriv (p : List Nat) : List Nat := ((p.drop 1).zipIdx).map (fun e => if e.2 % 2 == 0 then e.1 else 0)

/-- The generator polynomial (R447). -/
def rsGenerator : List Nat := (List.range 30).foldl (fun g j => polyMul g [alpha j, 1]) [1]

/-! ### Encoding -/

/-- One step of the division of message symbols by the generator; `r` is the remainder, highest coefficient first, `g` the generator's coefficients
below the highest in the same order. -/
def rsStep (g r : List Nat) (m : Nat) : List Nat :=
  let f := m ^^^ r.headD 0
  List.zipWith (fun a b => a ^^^ b) (r.drop 1 ++ [0]) (polyScale f g)

/-- The 30 parity symbols of 514 message symbols, in the order of transmission. -/
def rsParity (m : List Nat) : List Nat :=
  let g := (rsGenerator.reverse).drop 1
  m.foldl (rsStep g) (List.replicate 30 0)

/-! ### Decoding -/

/-- Syndrome `j` of 544 received symbols in the order of transmission. -/
def syndrome (c : List Nat) (j : Nat) : Nat := let a := alpha j; c.foldl (fun s x => gfMul a s ^^^ x) 0

/-- State of the search for the error locator. -/
structure BmState where
  loc : List Nat := [1]
  prev : List Nat := [1]
  len : Nat := 0
  gap : Nat := 1
  disc : Nat := 1
deriving DecidableEq, Repr

/-- One step of the search (Berlekamp and Massey) at syndrome `n`. -/
def bmStep (syn : List Nat) (b : BmState) (n : Nat) : BmState :=
  let d := (List.range (b.len + 1)).foldl (fun a i => a ^^^ gfMul (b.loc.getD i 0) (syn.getD (n - i) 0)) 0
  if d == 0 then { b with gap := b.gap + 1 }
  else
    let t := polyAdd b.loc (List.replicate b.gap 0 ++ polyScale (gfMul d (gfInv b.disc)) b.prev)
    if 2 * b.len ≤ n then { loc := t, prev := b.loc, len := n + 1 - b.len, gap := 1, disc := d }
    else { b with loc := t, gap := b.gap + 1 }

/-- The error locator of 30 syndromes. -/
def errorLocator (syn : List Nat) : BmState := (List.range 30).foldl (bmStep syn) {}

/-- The powers of x at which the locator names an error. -/
def errorPlaces (loc : List Nat) : List Nat := (List.range 544).filter (fun i => polyEval (gfInv (alpha i)) loc == 0)

/-- The error at place `i` (Forney). -/
def errorValue (syn loc : List Nat) (i : Nat) : Nat :=
  let x := alpha i
  let y := gfInv x
  let omega := (polyMul syn loc).take 30
  gfMul x (gfMul (polyEval y omega) (gfInv (polyEval y (polyDeriv loc))))

/-- R447: the 514 message symbols of 544 received ones, with the number of symbols corrected; none where more than 15 are wrong. -/
def rsDecode (c : List Nat) : Option (List Nat × Nat) :=
  let syn := (List.range 30).map (syndrome c)
  if c.length != 544 then none
  else if syn.all (· == 0) then some (c.take 514, 0)
  else
    let b := errorLocator syn
    let at_ := errorPlaces b.loc
    if decide (15 < b.len) || at_.length != b.len then none
    else
      let fixed := at_.foldl (fun l i => l.set (543 - i) (l.getD (543 - i) 0 ^^^ errorValue syn b.loc i)) c
      some (fixed.take 514, b.len)

end Sys2Proof.Machine
end

