-- ==== Sys2Proof/Machine/LineCode.lean ====
section
/-! DEFINITION. The line coding of a lane (R442 to R450, R474): link blocks and sync blocks as bits, the RS code, the scrambler, PAM4 levels,
transition stuffing, the comma and injected errors, the receiver's stages that undo them, and the test patterns (R471, R472). A symbol is written as its level 0 to 3, which stands for −3, −1, +1 and +3. -/

namespace Sys2Proof.Machine

/-- The low `n` bits of a number, lowest first. -/
def bitList : Nat → Nat → List Bool
  | 0, _ => []
  | n + 1, x => (x % 2 == 1) :: bitList n (x / 2)

/-- CRC-32C register after a list of bits, in the bit order of `crc32c`. -/
def crcBitsFrom : Nat → List Bool → Nat
  | r, [] => r
  | r, b :: bs => crcBitsFrom (crcSteps 1 (r ^^^ b2n b)) bs

/-- CRC-32C of a list of bits. -/
def crcBits (bs : List Bool) : Nat := crcBitsFrom 0xFFFFFFFF bs ^^^ 0xFFFFFFFF

/-- The 456 bits of a sync block (Table 11.1). -/
def syncBits (b : SyncBlk) : List Bool :=
  let x := b.lane % 2 ^ 7 + b2n b.trn * 2 ^ 7 + b2n b.done * 2 ^ 8 + b.req % 2 ^ 10 * 2 ^ 9 + b.rseq % 16 * 2 ^ 19 + b.ackseq % 16 * 2 ^ 23 +
    b.ackst % 2 ^ 10 * 2 ^ 27 + b.mark % 8 * 2 ^ 37 + b.d % 2 ^ 24 * 2 ^ 40 + b.tstamp % 2 ^ 32 * 2 ^ 64 + b.echo % 2 ^ 32 * 2 ^ 96 +
    b.hold % 2 ^ 24 * 2 ^ 128 + b2n b.echov * 2 ^ 152
  let bs := bitList 424 x
  bs ++ bitList 32 (crcBits bs)

/-- The 5,140 bits of a link block (R458, Table 11.4): 628 payload bytes and 116 control bits, the CRC over the payload and control bits 0 to 83. -/
def linkBits (b : LinkBlk) : List Bool :=
  let c := b.seq % 4096 + b.ackseq % 4096 * 2 ^ 12 + b2n b.nak * 2 ^ 24 + b2n b.idle * 2 ^ 25 + b.fpo % 1024 * 2 ^ 26 + b.crvn0 % 8 * 2 ^ 36 +
    b.crcnt0 % 1024 * 2 ^ 39 + b.crvn1 % 8 * 2 ^ 49 + b.crcnt1 % 1024 * 2 ^ 52
  let bs := ((List.range 628).map (fun i => bitList 8 (b.payload.getD i 0))).flatten ++ bitList 84 c
  bs ++ bitList 32 (crcBits bs)

/-- A number whose bits are listed, lowest first. -/
def natOfBits : List Bool → Nat
  | [] => 0
  | b :: bs => b2n b + 2 * natOfBits bs

/-- Bits cut into the ten-bit symbols of a codeword, bit 0 of each first; `n` symbols. -/
def symbolsOf : Nat → List Bool → List Nat
  | 0, _ => []
  | n + 1, bs => natOfBits (bs.take 10) :: symbolsOf n (bs.drop 10)

/-- A data block (R447, R448): a link block and the 30 parity symbols of its RS(544,514) codeword. -/
def codeword (b : LinkBlk) : List Bool :=
  let m := linkBits b
  m ++ (rsParity (symbolsOf 514 m)).flatMap (bitList 10)

/-- One bit of the scrambler (R444): s(n) = s(n − 28) XOR s(n − 31); bit i of the register is s(n − 1 − i) (log 53). -/
def scramBit (r : Nat) : Bool × Nat :=
  let b := xor (r.testBit 27) (r.testBit 30)
  (b, (2 * r + b2n b) % 2 ^ 31)

/-- The scrambler's register after a comma of a lane (R444). -/
def scramInit (lane : Nat) : Nat := 0x2AAAAAAA ^^^ lane

/-- A pair of bits, the first in transmission order first, as a PAM4 level by Gray code (R443). -/
def grayLevel (first second : Bool) : Nat :=
  match first, second with
  | false, false => 0
  | false, true => 1
  | true, true => 2
  | true, false => 3

/-- Scramble pairs of bits and map them to levels (R443, R444); the levels and the register after them. -/
def scramLevels : Nat → List (Bool × Bool) → List Nat × Nat
  | r, [] => ([], r)
  | r, (a, b) :: ps =>
    let x := scramBit r
    let y := scramBit x.2
    let z := scramLevels y.2 ps
    (grayLevel (xor a x.1) (xor b y.1) :: z.1, z.2)

/-- Transition stuffing (R445): after 12 equal symbols one stuffed symbol of the other side. `run` is the level of the run and its length;
the symbols and the run after them. -/
def stuffLevels : Nat × Nat → List Nat → List Nat × (Nat × Nat)
  | run, [] => ([], run)
  | run, x :: xs =>
    let n := if run.1 == x && run.2 != 0 then run.2 + 1 else 1
    if n == 12 then
      let y := if 2 ≤ x then 0 else 3
      let z := stuffLevels (y, 1) xs
      (x :: y :: z.1, z.2)
    else
      let z := stuffLevels (x, n) xs
      (x :: z.1, z.2)

/-- The comma (R446): 14 symbols at +3, then 14 at −3. -/
def comma : List Nat := List.replicate 14 3 ++ List.replicate 14 0

/-- Pairs of a list in which the first bit is sent first. -/
def bitPairs : List Bool → List (Bool × Bool)
  | a :: b :: r => (a, b) :: bitPairs r
  | _ => []

/-- The symbols of a sync block (R444 to R446, R450) and the lane's register and run after it. Symbol i of the content carries bits 2i + 1
and 2i, bit 2i + 1 sent first. -/
def syncSymbols (lane : Nat) (b : SyncBlk) : List Nat × Nat × (Nat × Nat) :=
  let x := scramLevels (scramInit lane) ((bitPairs (syncBits b)).map (fun p => (p.2, p.1)))
  let y := stuffLevels (0, 0) x.1
  (comma ++ y.1, x.2, y.2)

/-- R474: the levels of `count` symbols, spread evenly over a codeword of 2,720, inverted. -/
def injectLevels (count : Nat) (xs : List Nat) : List Nat :=
  let at_ := (List.range count).map (fun j => j * 2720 / count)
  xs.zipIdx.map (fun e => if at_.contains e.2 then 3 - e.1 else e.1)

/-- The symbols of a data block (R443 to R445, R447, R448), with `count` symbols corrupted (R474), and the register and run after it. -/
def blockSymbols (r : Nat) (run : Nat × Nat) (b : LinkBlk) (count : Nat) : List Nat × Nat × (Nat × Nat) :=
  let x := scramLevels r (bitPairs (codeword b))
  let y := stuffLevels run (if count == 0 then x.1 else injectLevels count x.1)
  (y.1, x.2, y.2)

/-! ### The receiver (R442): the stages undone in the reverse order -/

/-- R445: delete the symbol that follows every run of 12 equal symbols, counting as the transmitter counts. `run` is the level of the run and its length;
the symbols left and the run after them. -/
def unstuffLevels : Nat × Nat → List Nat → List Nat × (Nat × Nat)
  | run, [] => ([], run)
  | run, x :: xs =>
    if run.2 == 12 then unstuffLevels (x, 1) xs
    else
      let z := unstuffLevels (x, if run.1 == x && run.2 != 0 then run.2 + 1 else 1) xs
      (x :: z.1, z.2)

/-- The pair of bits of a level (R443). -/
def levelBits (x : Nat) : Bool × Bool :=
  match x with
  | 0 => (false, false)
  | 1 => (false, true)
  | 2 => (true, true)
  | _ => (true, false)

/-- Undo the scrambling of pairs of bits (R444); the pairs and the register after them. -/
def descramble : Nat → List (Bool × Bool) → List (Bool × Bool) × Nat
  | r, [] => ([], r)
  | r, (a, b) :: ps =>
    let x := scramBit r
    let y := scramBit x.2
    let z := descramble y.2 ps
    ((xor a x.1, xor b y.1) :: z.1, z.2)

/-- A sync block from its 456 bits (Table 11.1). -/
def syncOf (bs : List Bool) : SyncBlk :=
  let x := natOfBits bs
  { lane := bitsOf x 0 7, trn := bitsOf x 7 1 == 1, done := bitsOf x 8 1 == 1, req := bitsOf x 9 10, rseq := bitsOf x 19 4, ackseq := bitsOf x 23 4,
    ackst := bitsOf x 27 10, mark := bitsOf x 37 3, d := bitsOf x 40 24, tstamp := bitsOf x 64 32, echo := bitsOf x 96 32, hold := bitsOf x 128 24,
    echov := bitsOf x 152 1 == 1 }

/-- What a receiver makes of a sync block: the block, where its CRC holds, and the scrambler register and run with which the data blocks go on. -/
structure SyncIn where
  blk : Option SyncBlk
  scr : Nat
  run : Nat × Nat
deriving DecidableEq, Repr

/-- Receive a sync block (R444 to R446, R450, R451). The first seven bits of the content, LANE, are scrambled by register bits that the lane number does
not touch, so they name the transmitter's lane, with which the register was loaded. A block that is not intact leaves the register as the last lane heard,
`heard`, makes it (DEDUCED, log 53). -/
def receiveSync (heard : Nat) (levels : List Nat) : SyncIn :=
  let u := unstuffLevels (0, 0) (levels.drop 28)
  let raw := u.1.map levelBits
  let plain := fun (seed : Nat) => let d := descramble seed raw; (d.1.flatMap (fun p => [p.2, p.1]), d.2)
  let lane := natOfBits ((plain (scramInit 0)).1.take 7)
  let x := plain (scramInit lane)
  if levels.take 28 == comma && u.1.length == 228 && crcBits (x.1.take 424) == natOfBits (x.1.drop 424) then
    { blk := some (syncOf x.1), scr := x.2, run := u.2 }
  else { blk := none, scr := (descramble (scramInit heard) (List.replicate 228 (false, false))).2, run := u.2 }

/-- A link block from its 5,140 bits (R458, Table 11.4). -/
def linkBlkOf (bs : List Bool) : LinkBlk :=
  let c := natOfBits ((bs.drop 5024).take 84)
  { seq := bitsOf c 0 12, ackseq := bitsOf c 12 12, nak := bitsOf c 24 1 == 1, idle := bitsOf c 25 1 == 1, fpo := bitsOf c 26 10, crvn0 := bitsOf c 36 3,
    crcnt0 := bitsOf c 39 10, crvn1 := bitsOf c 49 3, crcnt1 := bitsOf c 52 10, payload := leBytes 628 (natOfBits (bs.take 5024)) }

/-- How a received data block fares (R447, R461): not decoded, failing its CRC, or good, with the number of ten-bit symbols corrected. -/
inductive DataIn where
  | badCode
  | badCrc (fixed : Nat)
  | good (b : LinkBlk) (fixed : Nat)
deriving DecidableEq, Repr

/-- Judge a received codeword. -/
def judgeCode (bs : List Bool) : DataIn :=
  match rsDecode (symbolsOf 544 bs) with
  | none => .badCode
  | some (m, fixed) =>
    let x := m.flatMap (bitList 10)
    if crcBits (x.take 5108) == natOfBits (x.drop 5108) then .good (linkBlkOf x) fixed else .badCrc fixed

/-- Receive a data block (R443 to R445, R447), with the register and the run after it; symbols lost or gained leave no codeword. -/
def receiveData (r : Nat) (run : Nat × Nat) (levels : List Nat) : DataIn × Nat × (Nat × Nat) :=
  let u := unstuffLevels run levels
  let d := descramble r (u.1.map levelBits)
  (if u.1.length == 2720 then judgeCode (d.1.flatMap (fun p => [p.1, p.2])) else .badCode, d.2, u.2)

/-! ### Test patterns (R471, R472) -/

/-- One bit of a pattern generator, `long` for PRBS31, else PRBS13, with its register after it (IEEE 802.3; PRESUMED, log 26): 1 + x^28 + x^31 with the bits
inverted on the lane, or 1 + x + x^2 + x^12 + x^13. Bit 0 of the register is the newest. -/
def prbsBit (long : Bool) (r : Nat) : Bool × Nat :=
  if long then
    let b := xor (r.testBit 27) (r.testBit 30)
    (!b, (2 * r + b2n b) % 2 ^ 31)
  else
    let b := xor (xor (r.testBit 0) (r.testBit 1)) (xor (r.testBit 11) (r.testBit 12))
    (b, (2 * r + b2n b) % 2 ^ 13)

/-- `n` symbols of a pattern: pairs of bits in Gray code, the first bit on the left. -/
def prbsSymbols (long : Bool) : Nat → Nat → List Nat × Nat
  | 0, r => ([], r)
  | n + 1, r =>
    let x := prbsBit long r
    let y := prbsBit long x.2
    let z := prbsSymbols long n y.2
    (grayLevel x.1 y.1 :: z.1, z.2)

/-- A generator's register that is not zero. -/
def prbsSeed (long : Bool) (v : Nat) : Nat := let m := if long then 2 ^ 31 else 2 ^ 13; if v % m == 0 then 1 else v % m

/-- The register that a checker locks with: the bits just received fill it. -/
def prbsFill (long : Bool) (r : Nat) (x : Nat) : Nat :=
  let p := levelBits x
  let m := if long then 2 ^ 31 else 2 ^ 13
  (2 * ((2 * r + b2n (xor p.1 long)) % m) + b2n (xor p.2 long)) % m

/-- The checker of a pattern (R472): it fills its register with received symbols until it is locked, then counts the symbols that differ from the pattern. -/
structure PrbsIn where
  reg : Nat := 0
  seen : Nat := 0
  errors : Nat := 0
deriving DecidableEq, Repr

/-- Symbols that fill a checker's register. -/
def prbsFillLen (long : Bool) : Nat := if long then 16 else 7

/-- One received symbol at a checker. -/
def PrbsIn.take (long : Bool) (c : PrbsIn) (x : Nat) : PrbsIn :=
  if c.seen < prbsFillLen long then { c with reg := prbsFill long c.reg x, seen := c.seen + 1 }
  else
    let y := prbsSymbols long 1 c.reg
    { c with reg := y.2, errors := c.errors + (if y.1 == [x] then 0 else 1) }

end Sys2Proof.Machine
end

