-- ==== Sys2Proof/Machine/Links.lean ====
section
/-! DEFINITION. Cotric links and the coupler lanes (chapter 11): grouping of lanes, sync blocks and training, link blocks and
retry, forwarding and replies. Links are numbered 0 to 25 (R334, R440). -/

namespace Sys2Proof.Machine

/-! ### Lanes and links (R42, R436 to R441) -/

/-- Carriage and local lane that hold a link's registers. -/
def linkHome (l : Nat) : Nat × Nat := if l < 24 then (l / 6, 4 * (l % 6)) else (2 * (l - 24), 22)

/-- Whether a link's carriage is in S2, where its links are in low power (R581), or in S3, where the lanes have no clock (Table 1.5). -/
def State.linkSleeps (s : State) (l : Nat) : Bool := s.carState (linkHome l).1 == 2 || s.carState (linkHome l).1 == 4

/-- A register field of a link. -/
def State.lkFld (s : State) (f : Fld) (l : Nat) : Nat := s.fld f (linkHome l).1 (linkHome l).2

/-- Set a register field of a link. -/
def State.setLk (s : State) (f : Fld) (l v : Nat) : State := s.setFld f (linkHome l).1 (linkHome l).2 v

/-- Add to a saturating counter of a link. -/
def State.bumpLk (s : State) (f : Fld) (l n : Nat) : State := s.bump f (linkHome l).1 (linkHome l).2 n

/-- The link that a lane belongs to. -/
def laneLink (aside : Bool) (lane : Nat) : Nat :=
  if aside && 22 ≤ lane % 24 then 24 + lane / 48 else lane / 24 * 6 + lane % 24 / 4

/-- Whether a link exists: 24 and 25 only while the coupler is set aside. -/
def State.linkExists (s : State) (l : Nat) : Bool := decide (l < 24) || s.couplerAside

/-- The NI's unit number. -/
def linkNi (l : Nat) : Nat := linkUnit l

/-- Whether a link is UP. -/
def State.linkUp (s : State) (l : Nat) : Bool := s.lkFld LNK_STATE_STATE l == 3

/-- Raise LNK_CTL.VEC on the carriage's port. -/
def State.linkEvent (s : State) (f : Fld) (l : Nat) : State :=
  (s.setLk f l 1).raise none (linkHome l).1 (s.lkFld LNK_CTL_VEC l)

/-! ### The pair's state (R648, R660) -/

/-- Record an event of the pair: REASON, EVENT and its vector. -/
def State.pairReason (s : State) (reason : Nat) : State :=
  (s.setFlds 0 0 [(CPL_STATE_REASON, reason), (CPL_STATE_EVENT, 1)]).raise none (s.fld CPL_CTL_PORT 0) (s.fld CPL_CTL_VEC 0)

/-- R648: a gap in the mirror: DESYNC with reason GAP and log code 0x0705. -/
def State.pairGap (s : State) (link mseq : Nat) : State :=
  let st := s.fld CPL_STATE_STATE 0
  if st == 2 || st == 3 || st == 6 then
    ((s.setFld CPL_STATE_STATE 0 0 5).pairReason 5).logEntry 0x0705 schedUnit none link mseq
  else s

/-! ### Serial form of packets (Tables 8.5 and 11.5) -/

/-- A link packet as bytes (R459). -/
def linkPacketBytes (o : LOut) (lsv : Bool) (lsc : Nat) : List Nat :=
  leBytes 16 (o.pkt.vn % 8 + b2n o.resp * 8 + o.xtag % 1024 * 2 ^ 4 + b2n lsv * 2 ^ 14 + (if lsv then lsc % 2 ^ 32 else 0) * 2 ^ 32) ++
    leBytes 32 (headerNat o.pkt) ++ (List.range (o.pkt.len * 16)).map (fun i => o.pkt.data.getD i 0)

/-- Credits of 64 bytes that a packet needs (R463). -/
def creditsOf (p : Packet) : Nat := ceilDiv (48 + p.len * 16) 64

/-! ### Sending (R459 to R463, R467) -/

/-- Admit waiting packets for which the link holds the credits, in order within each virtual network (R463). -/
def State.letThroughAux (s : State) (l : Nat) : List LOut → List Nat → State
  | [], _ => s
  | o :: r, blocked =>
    let k := s.link l
    let vn := o.pkt.vn
    if blocked.contains vn || decide (256 < mget 0 k.lent vn + creditsOf o.pkt) then
      (s.updLink l (fun k => { k with waiting := k.waiting ++ [o] })).letThroughAux l r (vn :: blocked)
    else
      let lsv := s.lockRun
      let bs := linkPacketBytes o lsv (s.fld DEV_LSCYC_CYC 0)
      (s.updLink l (fun k =>
        { k with tx := k.tx ++ bs, starts := k.starts ++ [(k.tx.length, o)], lent := mupd 0 k.lent vn (· + creditsOf o.pkt),
                 carried := k.carried || lsv })).letThroughAux l r blocked

/-- Admit what the credits allow. -/
def State.letThrough (s : State) (l : Nat) : State :=
  let w := (s.link l).waiting
  (s.updLink l (fun k => { k with waiting := [] })).letThroughAux l w []

/-- R467: a packet offered while the link is not UP: a request or write is answered NETERR, any other is discarded; it is counted.
A lost mirror packet is a gap (R648). -/
def State.linkLose (s : State) (l : Nat) (o : LOut) : State :=
  let s1 := s.bumpLk LNK_LOST_COUNT l 1
  if o.resp then s1
  else if o.pkt.vn == 0 || o.pkt.vn == 2 then s1.respond (linkNi l) o.pkt (if o.pkt.vn == 0 then 0 else 1) 2 []
  else if o.pkt.vn == 5 then s1.pairGap l 0
  else s1

/-- Offer a packet to a link. -/
def State.linkOffer (s : State) (l : Nat) (o : LOut) : State :=
  if s.linkUp l then (s.updLink l (fun k => { k with waiting := k.waiting ++ [o] })).letThrough l
  else s.linkLose l o

/-- The link block that is cut next from the byte stream: 628 bytes, padded by an envelope of VN 7 (R458, R459). -/
def cutBlock (k : LinkS) : RBlk :=
  let bs := k.tx.take 628
  let here := k.starts.filter (fun x => decide (x.1 < 628))
  let pad := if bs.length < 628 then 7 :: List.replicate (627 - bs.length) 0 else []
  { seq := k.seqNext, payload := bs ++ pad, fpo := match here.head? with | some x => x.1 | none => 1023, pk := here.map (·.2), onward := k.part }

/-- The packet that goes on after the block that is cut next: the last one that starts in it or that it carries on, unless a packet starts right after it or
nothing follows. -/
def partAfter (k : LinkS) : Option LOut :=
  if k.tx.length ≤ 628 || k.starts.any (fun x => x.1 == 628) then none
  else match (k.starts.filter (fun x => decide (x.1 < 628))).getLast? with
    | some x => some x.2
    | none => k.part

/-- A data block goes out on a lane (R442 to R448): its symbols, of which LNK_INJ corrupts some when its turn falls due (R474). Which codeword
of every 2^EVERY it is, the spec leaves open. -/
def State.sendSymbols (s : State) (lane : Nat) (b : LinkBlk) : State :=
  let c := lane / 24
  let i := lane % 24
  let x := s.laneS lane
  let en := s.flag LNK_INJ_EN c i
  let every := 2 ^ s.fld LNK_INJ_EVERY c i
  let due := en && x.injected % every == Config.injectPhase lane % every
  let y := blockSymbols x.scr x.run b (if due then max 1 (s.fld LNK_INJ_COUNT c i) else 0)
  let s1 := (s.updLane lane (fun z => { z with scr := y.2.1, run := y.2.2, injected := if en then z.injected + 1 else 0 })).emit (.symbols lane y.1)
  if due && s.flag LNK_INJ_ONCE c i then s1.setFld LNK_INJ_EN c i 0 else s1

/-- A link sends a block on a lane, in the frame that the lane's last sync block opened (R448). -/
def State.sendBlock (s : State) (l lane : Nat) (b : LinkBlk) : State :=
  ((s.updLane lane (fun x => { x with dataSent := x.dataSent + 1 })).emit (.linkBlock l b)).sendSymbols lane b

/-- Place of a lane among its link's lanes. -/
def State.laneIndex (s : State) (l lane : Nat) : Nat := ((linkLanes s.couplerAside l).takeWhile (fun g => g != lane)).length

/-- Whether the block numbered `q` goes to a lane (R438). -/
def State.laneTurn (s : State) (l lane q : Nat) : Bool := q % (linkLanes s.couplerAside l).length == s.laneIndex l lane

/-- Pattern symbols that a receiving lane of a link in TEST takes in: the checker locks and counts those that differ (R472). -/
def State.checkPattern (s : State) (lane : Nat) (levels : List Nat) : State :=
  let c := lane / 24
  let i := lane % 24
  let x := s.laneS lane
  let k := levels.foldl (PrbsIn.take (s.flag LNK_LANECTL_PATTERN c i)) { reg := x.chkReg, seen := x.chkSeen }
  (s.updLane lane (fun z => { z with chkReg := k.reg, chkSeen := k.seen })).bump LNK_PRBSERR_COUNT c i k.errors

/-- A lane in TEST sends the next 2,720 symbols of its pattern, some of them corrupted when LNK_INJ's turn falls due (R471, R472, R474); with LOOP they come
to its own receiver. -/
def State.sendPattern (s : State) (lane : Nat) : State :=
  let c := lane / 24
  let i := lane % 24
  let x := s.laneS lane
  let long := s.flag LNK_LANECTL_PATTERN c i
  let y := prbsSymbols long 2720 (prbsSeed long (if x.prbs == 0 then Config.prbsStart lane else x.prbs))
  let en := s.flag LNK_INJ_EN c i
  let every := 2 ^ s.fld LNK_INJ_EVERY c i
  let due := en && x.injected % every == Config.injectPhase lane % every
  let levels := if due then injectLevels (max 1 (s.fld LNK_INJ_COUNT c i)) y.1 else y.1
  let s1 := (s.updLane lane (fun z => { z with prbs := y.2, injected := if en then z.injected + 1 else 0 })).emit (.symbols lane levels)
  let s2 := if due && s.flag LNK_INJ_ONCE c i then s1.setFld LNK_INJ_EN c i 0 else s1
  if s.flag LNK_LANECTL_LOOP c i then s2.checkPattern lane levels else s2

/-- The block that a lane sends next: a resent one, the next one, or none (an idle block) where neither is this lane's (R438, R460, R462). -/
def State.nextLinkBlock (s : State) (l lane : Nat) : Option RBlk × LinkS :=
  let k := s.link l
  match k.resend.bind (fun i => k.retry[i]?) with
  | some b =>
    let i := (k.resend.getD 0) + 1
    if s.laneTurn l lane b.seq then
      (some b, { k with resend := if i < k.retry.length then some i else none,
                        retry := k.retry.map (fun x => if x.seq == b.seq then { x with resends := x.resends + 1 } else x) })
    else (none, k)
  | none =>
    if k.tx.isEmpty || decide (512 ≤ k.retry.length) || s.stoppedAt 9 (linkHome l).1 || !s.laneTurn l lane k.seqNext then (none, k)
    else
      let b := cutBlock k
      (some b, { k with tx := k.tx.drop 628, starts := (k.starts.filter (fun x => decide (628 ≤ x.1))).map (fun x => (x.1 - 628, x.2)), part := partAfter k,
                        seqNext := (k.seqNext + 1) % 4096, retry := k.retry ++ [b], resend := none })

/-- The control fields that every block carries: an idle block's SEQ is that of the next block, and the counts are those of R463. -/
def LinkS.idleBlock (k : LinkS) : LinkBlk :=
  let v0 := 2 * (k.sent % 3)
  { seq := k.seqNext, ackseq := k.expect, nak := k.nakDue, idle := true, crvn0 := v0, crcnt0 := mget 0 k.freed v0 % 1024,
    crvn1 := v0 + 1, crcnt1 := mget 0 k.freed (v0 + 1) % 1024 }

/-- LINK_BLOCK_SEND (R438, R448, R460): a lane of a link sends its next data block: in UP a resent block, the next block, or an idle block, with ACKSEQ, NAK
and two credit counts; in TRAINING and ALIGN an idle block (Table 11.3); in TEST the lane's pattern (R472). A frame of 64 data blocks ends with a sync block. -/
def execLinkBlockSend (lane : Fin 96) (s : State) : Res :=
  let l := laneLink s.couplerAside lane
  let st := s.lkFld LNK_STATE_STATE l
  if s.linkSleeps l then ok s
  else if st == 4 then (if s.flag LNK_LANECTL_TEST (lane / 24) (lane % 24) then ok (s.sendPattern lane) else ok s)
  else if st == 0 || decide (64 ≤ (s.laneS lane).dataSent) then ok s
  else
    let k := s.link l
    if st != 3 then ok (s.sendBlock l lane k.idleBlock)
    else
      let n := s.nextLinkBlock l lane
      let s1 := s.updLink l (fun k => { n.2 with sent := k.sent + 1, nakDue := false, lastNak := if k.nakDue then some s.netCycles else k.lastNak })
      match n.1 with
      | some b => ok (s1.sendBlock l lane { k.idleBlock with seq := b.seq, idle := false, fpo := b.fpo, payload := b.payload })
      | none => ok (s1.sendBlock l lane k.idleBlock)

/-! ### Link states (R453, R456, R457, R467, R473) -/

/-- R467: what happens when a link leaves UP: every packet of an unacknowledged block is lost, one that only goes on there included. -/
def State.leaveUp (s : State) (l : Nat) : State :=
  if !s.linkUp l then s
  else
    let k := s.link l
    let cont := match k.retry.head? with | some b => b.onward.toList | none => k.part.toList
    let lost := cont ++ (k.retry.map (·.pk)).flatten
    let s1 := s.bumpLk LNK_LOST_COUNT l lost.length
    let s2 := s1.updLink l (fun k =>
      { k with waiting := [], tx := [], starts := [], seqNext := 0, retry := [], resend := none, expect := 0, nakDue := false, lastNak := none,
               lent := [], freed := [], lastCnt := [], sent := 0, rx := [], rxq := [], ret := [], held := [], part := none,
               owed := k.owed ++ k.ret.filterMap (fun e => e.2.map (fun p => (e.1, p))) })
    let s3 := ((linkLanes s.couplerAside l).foldl (fun t g => t.updLane g (fun x => { x with abortMarks := 0 })) s2).setLk LNK_STATE_STATE l 0
    let s4 := ((k.starts.map (·.2)) ++ k.waiting).foldl (fun t o => t.linkLose l o) s3
    let s5 := if lost.any (fun o => o.pkt.vn == 5) then s4.pairGap l 0 else s4
    if l < 24 then s5.setFld DEV_REINLAT_VALID 0 l 0 else s5

/-- A link goes DOWN with a code; a code other than DISABLED is an event. -/
def State.linkDown (s : State) (l code : Nat) : State :=
  let s1 := ((s.leaveUp l).setLk LNK_STATE_STATE l 0).setLk LNK_STATE_CODE l code
  if code == 5 || code == 0 then s1 else s1.linkEvent LNK_EVENT_DOWN l

/-- The pattern generators and checkers of a link's lanes stop (R473). -/
def State.stopPatterns (s : State) (l : Nat) : State :=
  (linkLanes s.couplerAside l).foldl (fun t g => t.updLane g (fun x => { x with prbs := 0, chkReg := 0, chkSeen := 0 })) s

/-- Enter UP (R456, R463): sequence numbers and credits at their initial values; owed NETERR answers go out (R467). -/
def State.enterUp (s : State) (l : Nat) : State :=
  let owed := (s.link l).owed
  let s1 := ((s.setLk LNK_STATE_STATE l 3).updLink l (fun k =>
    { k with waiting := [], tx := [], starts := [], seqNext := 0, retry := [], resend := none, expect := 0, lent := [], freed := [], lastCnt := [],
             sent := 0, rx := [], rxq := [], ret := [], part := none, owed := [] })).linkEvent LNK_EVENT_UP l
  owed.foldl (fun t p => t.linkOffer l { pkt := { p.2 with vn := 1, op := if p.2.vn == 0 then 0 else 1, status := 2, len := 0, data := [] }, resp := true, xtag := p.1 }) s1

/-- LINK_TRAIN (R453, R457): with ENABLE set and the link not in TEST, the taps are loaded from TAPINIT and training starts. -/
def execLinkTrain (l : Fin 26) (s : State) : Res := s.regEvent LNK_CTL_TRAIN (linkHome l).1 (linkHome l).2 (.linkTrain l) fun s =>
  if !s.linkExists l || s.lkFld LNK_CTL_ENABLE l == 0 || s.lkFld LNK_STATE_STATE l == 4 then ok s
  else
    let s1 := (s.leaveUp l).setLk LNK_CTL_TRAIN l 0
    let s2 := (s1.setLk LNK_STATE_STATE l 1).setLk LNK_STATE_TRAINED l 0
    ok ((linkLanes s.couplerAside l).foldl (fun t g =>
      let c := g / 24
      let i := g % 24
      { t.setFlds c i [(LNK_TAPS_PRE2, t.fld LNK_TAPINIT_PRE2 c i), (LNK_TAPS_PRE1, t.fld LNK_TAPINIT_PRE1 c i), (LNK_TAPS_MAIN, t.fld LNK_TAPINIT_MAIN c i),
        (LNK_TAPS_POST1, t.fld LNK_TAPINIT_POST1 c i), (LNK_TAPS_POST2, t.fld LNK_TAPINIT_POST2 c i), (LNK_LANESTAT_DONE, 0)] with
          laneSt := mset {} t.laneSt g {} }) s2)

/-- LINK_DISABLE (R473): ENABLE = 0 takes the link DOWN with DISABLED, from TEST too. -/
def execLinkDisable (l : Fin 26) (s : State) : Res := s.regEvent LNK_CTL_ENABLE (linkHome l).1 (linkHome l).2 (.linkDisable l) fun s =>
  if !s.linkExists l then ok s else ok (((s.setLk LNK_CTL_ENABLE l 0).stopPatterns l).linkDown l 5)

/-- TRAIN_TIMEOUT (R457): 200 ms after TRAINING the link is not UP. A link whose last lane became trained in this very cycle goes on. -/
def execTrainTimeout (l : Fin 26) (s : State) : Res :=
  let st := s.lkFld LNK_STATE_STATE l
  if st == 1 || (st == 2 && (s.link l).alignAt != s.coachCycles + 1) then ok (s.linkDown l 1) else ok s

/-- LANE_SYNC_LOSS (R451): four sync blocks missed in succession take the link DOWN with LOSTSYNC. -/
def execLaneSyncLoss (lane : Fin 96) (s : State) : Res :=
  let l := laneLink s.couplerAside lane
  let st := s.lkFld LNK_STATE_STATE l
  let s1 := s.setFld LNK_LANESTAT_SYNC (lane / 24) (lane % 24) 0
  if s.linkSleeps l || decide ((s.laneS lane).missed < 4) then ok s
  else if st == 1 || st == 2 || st == 3 then ok (s1.linkDown l 3) else ok s1

/-- LANE_TEST_WRITE (R472, R473): a lane with TEST = 1 sends its pattern from then on (LINK_BLOCK_SEND), and checks what it receives. -/
def execLaneTestWrite (lane : Fin 96) (test : Bool) (s : State) : Res := s.regEvent LNK_LANECTL_TEST (lane / 24) (lane % 24) (.laneTestWrite lane test) fun s =>
  let l := laneLink s.couplerAside lane
  let st := s.lkFld LNK_STATE_STATE l
  if st != 0 && st != 4 then ok s
  else
    let s0 := s.setFlag LNK_LANECTL_TEST (lane / 24) (lane % 24) test
    let s1 := if test then s0 else s0.updLane lane (fun x => { x with prbs := 0, chkReg := 0, chkSeen := 0 })
    if (linkLanes s.couplerAside l).any (fun g => s1.flag LNK_LANECTL_TEST (g / 24) (g % 24)) then ok (s1.setLk LNK_STATE_STATE l 4)
    else ok (if st == 4 then (s1.setLk LNK_STATE_STATE l 0).setLk LNK_STATE_CODE l 0 else s1)

/-! ### Sync blocks (R450 to R456, R468 to R470) -/

/-- Taps of a lane in the order PRE2 to POST2, each with its range (Table 11.2). -/
def tapFields : List (Fld × Nat × Nat) :=
  [(LNK_TAPS_PRE2, 0, 7), (LNK_TAPS_PRE1, 0, 15), (LNK_TAPS_MAIN, 24, 63), (LNK_TAPS_POST1, 0, 15), (LNK_TAPS_POST2, 0, 7)]

/-- R452: whether five tap weights form an allowed setting. -/
def tapsAllowed (ws : List Nat) : Bool :=
  let main := ws.getD 2 0
  let sum := ws.foldl (· + ·) 0
  decide (sum ≤ 64) && decide (16 + (sum - main) ≤ main)

/-- R455: act on the requests of one sync block, tap by tap; returns the state and the outcome field ACKST. -/
def State.applyTaps (s : State) (c i req : Nat) : State × Nat :=
  tapFields.zipIdx.foldl (fun (a : State × Nat) (x, n) =>
    let r := bitsOf req (2 * n) 2
    let cur := a.1.fld x.1 c i
    if r != 1 && r != 2 then (a.1, a.2 + 2 * 4 ^ n)
    else
      let lim := if r == 1 then decide (x.2.2 ≤ cur) else decide (cur ≤ x.2.1)
      let t := a.1.setFld x.1 c i (if r == 1 then cur + 1 else cur - 1)
      if lim || !tapsAllowed (tapFields.map (fun y => t.fld y.1 c i)) then (a.1, a.2 + 4 ^ n) else (t, a.2)) (s, 0)

/-- The mark that a sync block of a link's lane carries now, with D (R324, R468, R469). -/
def State.markNow (s : State) (l lane : Nat) : Nat × Nat :=
  if !s.linkUp l then (0, 0)
  else if 0 < (s.laneS lane).abortMarks then (3, 0)
  else if 24 ≤ l || s.fld DEV_REINSTAT_STATE 0 != 2 then (0, 0)
  else if s.reinRole == 1 && s.fld DEV_REINCTL_LINK 0 == l then (1, 0)
  else if s.reinRole == 2 && bitsOf (s.fld DEV_REINLINKS_MASK 0) l 1 == 1 && !s.rein.released then
    (match s.rein.releaseAt with | some r => (2, (r - s.coachCycles) % 2 ^ 24) | none => (0, 0))
  else (0, 0)

/-- SYNC_BLOCK_SEND (R448, R450, R454, R455): at the end of a frame, pending tap requests are acted on at the comma; the lane's own receiver asks `req` when it
has no request outstanding, and `done` when it has declared training done. -/
def execSyncBlockSend (lane : Fin 96) (req : BitVec 10) (done : Bool) (s : State) : Res :=
  let l := laneLink s.couplerAside lane
  let st := s.lkFld LNK_STATE_STATE l
  if st == 0 || st == 4 || s.linkSleeps l || decide ((s.laneS lane).dataSent < 64) then ok s
  else
    let ls := s.laneS lane
    let r := match ls.pendReq with
      | some (q, bits) =>
        let a := s.applyTaps (lane / 24) (lane % 24) bits
        a.1.updLane lane (fun x => { x with pendReq := none, acted := q, ackst := a.2 })
      | none => s
    let s1 := r.updLane lane (fun x =>
      { x with mine := x.mine || done, req := match x.req with
                                              | some y => some y
                                              | none => if req.toNat == 0 then none else some ((x.rseq + 1) % 16, req.toNat) })
    let x := s1.laneS lane
    let m := s1.markNow l lane
    let b : SyncBlk := { lane := lane, trn := st == 1 || st == 2, done := x.mine, req := match x.req with | some y => y.2 | none => 0,
                         rseq := match x.req with | some y => y.1 | none => x.rseq, ackseq := x.acted, ackst := x.ackst, mark := m.1, d := m.2,
                         tstamp := s.coachCycles % 2 ^ 32, echo := match x.echo with | some e => e.1 | none => 0,
                         hold := match x.echo with | some e => (s.coachCycles - e.2) % 2 ^ 24 | none => 0, echov := x.echo.isSome }
    let y := syncSymbols lane b
    ok ((s1.updLane lane (fun x => { x with scr := y.2.1, run := y.2.2, dataSent := 0, abortMarks := x.abortMarks - 1 })).emit (.syncBlock lane b) |>.emit (.symbols lane y.1))

/-- R456: the lane order heard on a link is that of the partner's link: link lane i of one link of the partner. -/
def orderOk (heard : List Nat) (coupler : Bool) : Bool :=
  if coupler then
    match heard with
    | [a, b, c, d] => decide (a % 48 = 22 ∧ b = a + 1 ∧ c = a + 24 ∧ d = a + 25)
    | _ => false
  else
    match heard with
    | a :: _ => a % 4 == 0 && heard == (List.range heard.length).map (a + ·)
    | [] => false

/-- Training progress of a link (R456): all lanes trained lead to ALIGN, and ALIGN to UP or to DOWN with ALIGNFAIL. -/
def State.trainStep (s : State) (l : Nat) (skew : Bool) : State :=
  let lanes := linkLanes s.couplerAside l
  let st := s.lkFld LNK_STATE_STATE l
  if st == 1 && lanes.all (fun g => (s.laneS g).mine && (s.laneS g).theirs) then
    (s.setLk LNK_STATE_STATE l 2).updLink l (fun k => { k with alignAt := s.coachCycles + 1 })
  else if st == 2 then
    if orderOk (lanes.map (fun g => s.fld LNK_LANESTAT_PARTNER (g / 24) (g % 24))) (decide (24 ≤ l)) && skew then s.enterUp l
    else s.linkDown l 2
  else s

/-- Training progress of a link (R456) after a sync block; `skew` is the skew of its lanes in symbols (R449). -/
def State.syncTaken (s : State) (l : Nat) (skew : Nat) : State := s.trainStep l (decide (skew ≤ 1200))

/-- SYNC_BLOCK_RECEIVE (R442, R450, R451, R454 to R456, R468 to R470): the symbols that stand where a lane's sync block is expected. -/
def execSyncBlockReceive (lane : Fin 96) (levels : List (Fin 4)) (skew : Nat) (s : State) : Res :=
  let l := laneLink s.couplerAside lane
  let c := lane.val / 24
  let i := lane.val % 24
  let st := s.lkFld LNK_STATE_STATE l
  if st == 0 || st == 4 || s.linkSleeps l then ok s
  else
  let y := receiveSync (s.fld LNK_LANESTAT_PARTNER c i) (levels.map Fin.val)
  let s0 := s.updLane lane (fun x => { x with rscr := y.scr, rrun := y.run })
  match y.blk with
  | none => ok (s0.updLane lane (fun x => { x with missed := x.missed + 1 }))
  | some b =>
    let s1 := (s0.setFlds c i [(LNK_LANESTAT_SIGDET, 1), (LNK_LANESTAT_SYNC, 1), (LNK_LANESTAT_PARTNER, b.lane)]).updLane lane (fun x =>
      let clears := match x.req with | some y => y.1 == b.ackseq % 16 | none => false
      { x with missed := 0, theirs := x.theirs || b.done, rseq := if clears then b.ackseq % 16 else x.rseq, req := if clears then none else x.req,
               pendReq := if b.rseq % 16 != x.acted then some (b.rseq % 16, b.req % 1024) else x.pendReq,
               echo := some (b.tstamp % 2 ^ 32, s.coachCycles) })
    let x := s1.laneS lane
    let idx := s.laneIndex l lane
    let s2 := if x.mine && x.theirs && (st == 1 || st == 2) then
        (s1.setFld LNK_LANESTAT_DONE c i 1).setLk LNK_STATE_TRAINED l (s1.lkFld LNK_STATE_TRAINED l ||| 2 ^ idx)
      else s1
    let s3 := s2.syncTaken l skew
    if st != 3 then ok s3
    else
      let s4 := if b.mark == 3 then s3.lockAbort 0xC else if 24 ≤ l then s3
        else if b.mark == 1 then s3.readyMark l else if b.mark == 2 then s3.fireMark l b.d else s3
      let lead := (linkLanes s.couplerAside l).find? (fun g => (s4.laneS g).missed == 0)
      if b.echov && lead == some lane.val && decide (l < 24) then
        let rt := (s.coachCycles + 2 ^ 32 - b.echo % 2 ^ 32) % 2 ^ 32
        ok ((s4.setFld DEV_REINLAT_LAT 0 l ((rt - b.hold) / 2)).setFld DEV_REINLAT_VALID 0 l 1)
      else ok s4

/-! ### Receiving packets (R464 to R467) -/

/-- The header that goes back to the side a request came from (R465): the stored header with the response's fields; data in error
go back with NETERR, since no link field carries the mark. -/
def backHeader (stored resp : Packet) : Packet :=
  { stored with vn := 1, op := resp.op, status := if resp.bad then 2 else resp.status, len := resp.len, aux := resp.aux, data := resp.data, bad := resp.bad }

/-- R466: a STALE reply that goes back carries the DST and EPOCH that the original source placed in its header. -/
def staleBack (stored : Packet) : Packet :=
  { stored with vn := 1, op := 3, status := 1, len := 0, data := [], aux := stored.epoch + stored.dst * 2 ^ 8 }

/-- Take in waiting packets of the partner (R464), in order within each class, sending each on under RRSE (R352); while the return table is full, requests
and writes wait and hold back their own credits alone. On an entry with VALID = 0 nothing is sent, the use is reported, and a request or write is answered
NOROUTE (R350) over the link. A packet for a frozen entry is dropped, counted and answered STALE (R361). Credits are freed as packets leave the NI's buffer. -/
def State.forwardIn (s : State) (l : Nat) : Nat → State
  | 0 => s
  | fuel + 1 =>
    let idx := firstFree1024 (s.link l).ret
    match (s.link l).rxq.find? (fun p => !(p.vn == 0 || p.vn == 2) || decide (idx < 1024)) with
    | none => s
    | some p =>
      let needs := p.vn == 0 || p.vn == 2
      let u := linkNi l
      let s1 := s.updLink l (fun k => { k with rxq := k.rxq.erase p, freed := mupd 0 k.freed p.vn (· + creditsOf p) })
      let s2 := if !s.entryValid u p.rrse then
          let t := s1.niSend u p.rrse { vn := 3, op := p.op, ctx := p.ctx, tag := p.tag }
          if needs then t.linkOffer l { pkt := { p with vn := 1, op := if p.vn == 0 then 0 else 1, status := 3, len := 0, data := [] }, resp := true } else t
        else if s.entryFrozen u p.rrse then
          (s1.bump NOC_STALECNT_COUNT (u / 256) 0 1).linkOffer l { pkt := staleBack p, resp := true }
        else
          let t := if needs then s1.updLink l (fun k => { k with ret := mset none k.ret idx (some p) }) else s1
          t.niSend u p.rrse { vn := p.vn, op := p.op, sclass := p.sclass, ctx := p.ctx, tag := if needs then idx else max 1024 p.tag, addr := p.addr,
                              aux := p.aux, len := p.len, data := p.data }
      s2.forwardIn l fuel
where
  /-- The lowest free index of a return table, 1024 when it is full. -/
  firstFree1024 (m : SMap (Option Packet)) : Nat :=
    let rec go : Nat → SMap (Option Packet) → Nat
      | i, [] => i
      | i, (j, _) :: r => if j == i then go (i + 1) r else i
    min 1024 (go 0 m)

/-- A response of the partner goes to its original source by the reversed route (R465). -/
def State.linkRespond (s : State) (l : Nat) (p : Packet) : State :=
  s.inject (linkNi l) { responseTo p p.op p.status p.data with src := linkNi l, aux := p.aux, bad := p.bad }

/-- A packet of the partner enters the network now. -/
def State.linkPass (s : State) (l : Nat) (resp : Bool) (p : Packet) : State :=
  if resp then s.linkRespond l p else (s.updLink l (fun k => { k with rxq := k.rxq ++ [p] })).forwardIn l 2000

/-- The lockstep cycle that a packet's LSC names: the one nearest to the present cycle whose low 32 bits LSC gives. -/
def sentCycle (now lsc : Nat) : Nat :=
  let ahead := (lsc + 2 ^ 32 - now % 2 ^ 32) % 2 ^ 32
  if ahead < 2 ^ 31 then now + ahead else now + ahead - 2 ^ 32

/-- A packet of the partner enters the network: at once, or in lockstep at its sent cycle plus DEV_LSLINKDLY (R312); one that is not ready by then aborts
lockstep with LATE. A packet without a lockstep cycle waits for a slot boundary, as an event from outside (R310, R313; DEDUCED, log 14). -/
def State.linkEnter (s : State) (l : Nat) (resp : Bool) (p : Packet) (lsv : Bool) (lsc : Nat) : State :=
  if !s.lockRun then s.linkPass l resp p
  else
    let now := s.fld DEV_LSCYC_CYC 0
    let due := if lsv then sentCycle now lsc + s.fld DEV_LSLINKDLY_DLY 0 else (now / s.slotLen + 1) * s.slotLen
    let s1 := s.updLink l (fun k => { k with carried := true })
    if due < now then (s1.lockAbort 7).linkPass l resp p else s1.updLink l (fun k => { k with held := k.held ++ [(due, resp, p)] })

/-- LOCKSTEP_LINK_DELIVERY (R312): the packets whose delivery cycle has come enter the network, in order of arrival; one whose cycle has passed, or that is not
ready (`late`), aborts lockstep with LATE. -/
def execLockstepLinkDelivery (l : Fin 26) (late : Bool) (s : State) : Res :=
  let now := s.fld DEV_LSCYC_CYC 0
  let out := fun (x : Nat × Bool × Packet) => decide (x.1 ≤ now) || !s.lockRun
  let due := (s.link l).held.filter out
  let s1 := if late || (s.lockRun && due.any (fun x => decide (x.1 < now))) then s.lockAbort 7 else s
  ok (due.foldl (fun t x => t.linkPass l x.2.1 x.2.2) (s1.updLink l (fun k => { k with held := k.held.filter (fun x => !out x) })))

/-- Parse a mirror record from a mirror packet's payload (Table 17.2). -/
def recordOf (bs : List Nat) : MRec :=
  { mseq := leNat (bs.take 4), kind := bs.getD 4 0, ctx := leNat ((bs.drop 6).take 2) % 1024, addr := leNat ((bs.drop 8).take 8),
    data := (bs.drop 16).take (bs.getD 5 0 * 16) }

/-- A whole link packet has arrived: a response goes to its original source (R465), a mirror packet of a coupler link to the pair's
intake (once it is closed, numbered records are discarded until a SWEEPSTART, R656, R662), any other packet on into the network. -/
def State.linkArrive (s : State) (l : Nat) (env : Nat) (p : Packet) : State :=
  let resp := bitsOf env 3 1 == 1
  if resp then (s.updLink l (fun k => { k with freed := mupd 0 k.freed p.vn (· + creditsOf p) })).linkEnter l true p (bitsOf env 14 1 == 1) (bitsOf env 32 32)
  else if 24 ≤ l && p.vn == 5 then
    let s1 := s.updLink l (fun k => { k with freed := mupd 0 k.freed p.vn (· + creditsOf p) })
    let r := recordOf p.data
    if s.pair.closed && !(r.kind == 1 || r.kind == 2 || r.kind == 7) then s1
    else { s1 with pair := { s1.pair with intake := mupd [] s1.pair.intake (l - 24) (fun q => q ++ [r]), closed := s.pair.closed && r.kind != 7 } }
  else s.linkEnter l false p (bitsOf env 14 1 == 1) (bitsOf env 32 32)

/-- Take whole link packets from the byte stream; an envelope of VN 7 makes the rest padding (R459). `fuel` bounds the packets. -/
def State.linkParse (s : State) (l : Nat) : Nat → List Nat → State
  | 0, bs => s.updLink l (fun k => { k with rx := bs })
  | fuel + 1, bs =>
    match bs with
    | [] => s.updLink l (fun k => { k with rx := [] })
    | b :: _ =>
      if b % 8 == 7 then s.updLink l (fun k => { k with rx := [] })
      else if bs.length < 48 then s.updLink l (fun k => { k with rx := bs })
      else
        let h := leNat ((bs.drop 16).take 32)
        let n := 48 + bitsOf h 70 6 * 16
        if bs.length < n then s.updLink l (fun k => { k with rx := bs })
        else (s.linkArrive l (leNat (bs.take 16)) (packetOf h ((bs.drop 48).take (n - 48)))).linkParse l fuel (bs.drop n)

/-- Distance from `a` forward to `b` among sequence numbers. -/
def seqAhead (a b : Nat) : Nat := (b + 4096 - a) % 4096

/-- R462: resend every unacknowledged block in order; a block resent 8 times takes the link DOWN with RETRYFAIL. A NAK and the timer's expiry in one cycle cause
one resend. -/
def State.linkResend (s : State) (l : Nat) : State :=
  let k := s.link l
  match k.retry with
  | [] => s
  | b :: _ =>
    if k.resentAt == s.netCycles + 1 then s
    else if 8 ≤ b.resends then s.linkDown l 4
    else (s.updLink l (fun k => { k with resend := some 0, resentAt := s.netCycles + 1 })).bumpLk LNK_RETRY_COUNT l 1

/-- Regain credits by the change of a cumulative count (R463). -/
def LinkS.regain (k : LinkS) (vn cnt : Nat) : LinkS :=
  let d := (cnt % 1024 + 1024 - mget 0 k.lastCnt vn % 1024) % 1024
  { k with lent := mupd 0 k.lent vn (· - d), lastCnt := mset 0 k.lastCnt vn (cnt % 1024) }

/-- Set NAK for the next block, no more than once in each RETRYTMO (R461). -/
def State.wantNak (s : State) (l : Nat) : State :=
  let k := s.link l
  let recent := match k.lastNak with | some t => decide (s.netCycles < t + s.lkFld LNK_CTL_RETRYTMO l) | none => false
  if recent then s else s.updLink l (fun k => { k with nakDue := true })

/-- An acknowledgement and credits that a good block brings (R462, R463): acknowledged blocks leave the retry buffer. -/
def LinkS.acked (k : LinkS) (b : LinkBlk) : LinkS :=
  let n := match k.retry with
    | [] => 0
    | x :: _ => min (seqAhead x.seq (b.ackseq % 4096)) k.retry.length
  let k2 : LinkS :=
    { k with retry := k.retry.drop n,
             resend := k.resend.bind (fun i => if i < n then (if n < k.retry.length then some 0 else none) else some (i - n)) }
  (k2.regain b.crvn0 b.crcnt0).regain b.crvn1 b.crcnt1

/-- A good link block of an UP link (R461 to R463). An idle block is read no further than its control bits; a block whose SEQ lies ahead of the expected one sets
NAK. -/
def State.blockIn (s : State) (l : Nat) (b : LinkBlk) : State :=
  let s2 := (s.updLink l (fun k => k.acked b)).letThrough l
  let s3 := if b.nak then s2.linkResend l else s2
  if !s3.linkUp l then s3
  else
    let e := (s3.link l).expect
    let d := seqAhead e (b.seq % 4096)
    if d == 0 then
      (if b.idle then s3 else (s3.updLink l (fun k => { k with expect := (e + 1) % 4096 })).linkParse l 64 ((s3.link l).rx ++ b.payload))
    else if d < 2048 then s3.wantNak l
    else s3

/-- LINK_BLOCK_RECEIVE (R442, R447, R461 to R463): the symbols of a data block arrive on a lane. Its FEC counts are the lane's; the blocks of a link that trains
carry nothing; in TEST the symbols go to the lane's checker (R472), unless it is looped back. -/
def execLinkBlockReceive (lane : Fin 96) (levels : List (Fin 4)) (s : State) : Res :=
  let l := laneLink s.couplerAside lane
  let c := lane.val / 24
  let i := lane.val % 24
  let st := s.lkFld LNK_STATE_STATE l
  if s.linkSleeps l || st == 0 then ok s
  else if st == 4 then
    (if s.flag LNK_LANECTL_TEST c i && !s.flag LNK_LANECTL_LOOP c i then ok (s.checkPattern lane (levels.map Fin.val)) else ok s)
  else
    let x := s.laneS lane
    let y := receiveData x.rscr x.rrun (levels.map Fin.val)
    let s0 := s.updLane lane (fun z => { z with rscr := y.2.1, rrun := y.2.2 })
    match y.1 with
    | .badCode =>
      let s1 := (s0.bump LNK_FECUE_COUNT c i 1).linkEvent LNK_EVENT_FECUE l
      ok (if st == 3 then s1.wantNak l else s1)
    | .badCrc n =>
      let s1 := s0.bump LNK_FECCE_COUNT c i n
      ok (if st == 3 then s1.wantNak l else s1)
    | .good b n =>
      let s1 := s0.bump LNK_FECCE_COUNT c i n
      ok (if st == 3 then s1.blockIn l b else s1)

/-- LINK_RETRY_TIMEOUT (R462). -/
def execLinkRetryTimeout (l : Fin 26) (s : State) : Res := if s.linkUp l && !s.linkSleeps l then ok (s.linkResend l) else ok s

/-- A response has come back to a forwarding NI (R465, R466): it goes over the link with the stored header, and the entry is free. While the
link is not UP it is discarded and counted (R467). -/
def State.linkReturn (s : State) (l : Nat) (p : Packet) : State :=
  match mget none (s.link l).ret p.tag with
  | none => if s.linkUp l then s else s.bumpLk LNK_LOST_COUNT l 1
  | some stored =>
    let s1 := s.updLink l (fun k => { k with ret := mset none k.ret p.tag none })
    (s1.linkOffer l { pkt := backHeader stored p, resp := true, xtag := p.tag }).forwardIn l 2000

end Sys2Proof.Machine
end

