-- ==== Sys2Proof/Machine/Routes.lean ====
section
/-! DEFINITION. Network commands that need no destination unit: route-sheet writes, sends, flits and credits, stale replies, probes
(R335 to R363). -/

namespace Sys2Proof.Machine

/-! ### Route sheets (R347, R349, R358 to R360) -/

/-- Device link number of a link NI's unit, none for any other unit. -/
def niLink (u : Nat) : Option Nat := (List.range 26).find? (fun l => linkUnit l == u)

/-- Release the held packets of an entry (R360): sent under the new contents, or discarded and counted; a discarded request or write is
answered STALE to its own unit. -/
def State.releaseHeld (s : State) (u e : Nat) (keep : Bool) : State :=
  let held := mget [] s.net.heldPk (u * 256 + e)
  let s1 := { s with net := { s.net with heldPk := mset [] s.net.heldPk (u * 256 + e) [] } }
  held.foldl (fun t p =>
    if keep then t.niSend u e p
    else
      let t1 := t.bump NOC_DISCARD_COUNT (u / 256) 0 1
      if p.vn == 0 || p.vn == 2 then
        let a := { p with vn := 1, op := if p.vn == 0 then 0 else 1, status := 1, data := [] }
        match niLink u with
        | some l => t1.linkReturn l a
        | none => t1.answer u a
      else t1) s1

/-- Write a route-sheet entry (R345, R349, R360); returns the reason of a refusal, 0 when the entry is written. Its RSVD bits hold zero (Table 8.8), and KEEP
is not held. `aside` says that the coupler is set aside. -/
def State.routeWriteAs (s : State) (aside : Bool) (u e w0 w1 w2 w3 : Nat) : Nat × State :=
  let reason := routeReason aside u w0 w1 w2 w3
  let c := u / 256
  if reason != 0 then
    (reason, if s.flag NOC_RSSTAT_VALID c then s
      else s.setFlds c 0 [(NOC_RSSTAT_REASON, reason), (NOC_RSSTAT_UNIT, u % 256), (NOC_RSSTAT_ENTRY, e), (NOC_RSSTAT_VALID, 1)])
  else
    let frozen := s.entryFrozen u e
    let kept := w3 % 2 ^ 10 + bitsOf w3 31 1 * 2 ^ 31
    let s1 := (((s.setSheetWord u e 0 (w0 % 2 ^ 30)).setSheetWord u e 1 (w1 % 2 ^ 30)).setSheetWord u e 2 (w2 % 2 ^ 27)).setSheetWord u e 3 kept
    (0, if frozen then s1.releaseHeld u e (bitsOf w3 29 1 == 1) else s1)

/-- Write a route-sheet entry in this device. -/
def State.routeWrite (s : State) (u e w0 w1 w2 w3 : Nat) : Nat × State := s.routeWriteAs s.couplerAside u e w0 w1 w2 w3

/-- ROUTE_ENTRY_WRITE (R349). -/
def execRouteEntryWrite (u : Fin 1024) (e : Fin 256) (w0 w1 w2 w3 : BitVec 32) (s : State) : Res :=
  ok (s.routeWrite u e w0.toNat w1.toNat w2.toNat w3.toNat).2

/-- Freeze an entry whose DST and EPOCH a STALE reply carries (R358); the freeze is an event of the context (R567). -/
def State.freezeEntry (s : State) (u e ctx aux : Nat) : State :=
  if bitsOf (s.sheetWord u e 3) 0 10 == bitsOf aux 8 10 && bitsOf (s.sheetWord u e 2) 19 8 == bitsOf aux 0 8 &&
      !s.entryFrozen u e then
    (s.setSheetWord u e 3 (s.sheetWord u e 3 + 2 ^ 30)).report
      { cause := 0, ctx := some ctx, unit := u, code := 1, kind := 5, evUnit := u % 256, sub := e }
  else s

/-- STALE_REPLY_RECEIVE (R358, R361): the oldest STALE reply at a unit freezes the entry it names when DST and EPOCH match; the request it
answers ends with status STALE (R707), and a link NI passes the answer on to its other side (R465). -/
def execStaleReplyReceive (u : Fin 1024) (s : State) : Res :=
  match s.takeInbox u (fun p => p.vn == 1 && p.op == 3) with
  | none => ok s
  | some (p, s1) =>
    let s2 := s1.freezeEntry u p.rse p.ctx p.aux
    match niLink u with
    | some l => ok (s2.linkReturn l p)
    | none => if u % 256 < 0x18 && 1024 ≤ p.tag && p.tag < 2048 then ok s2 else ok (s2.answer u { p with op := 0, status := 1, data := [] })

/-- PACKET_SEND (R45, R346, R350, R359, R369): a memory access goes to the unit that its physical address selects, cut at granules. -/
def execPacketSend (u : Fin 1024) (dest : SendTo) (p : PktIn) (s : State) : Res :=
  if !hasNi s.couplerAside u || s.netStill (u / 256) then ok s
  else
    let data := p.data.map BitVec.toNat
    let q : Packet := { vn := p.vn, op := p.op, sclass := p.sclass, ctx := p.ctx, tag := p.tag, status := p.status, addr := p.addr,
                        aux := if p.vn == 2 then data.length else p.aux, len := if data.isEmpty then p.len else ceilDiv data.length 16, data := data }
    match dest with
    | .entry e => ok (s.niSend u e q)
    | .tender b => ok (s.niSend u (0x20 + b) q)
    | .host b => ok (s.niSend u (0x24 + b) q)
    | .hbm =>
      let n := if p.vn == 2 then data.length else q.len * 16
      ok ((granules 64 q.addr n).zipIdx.foldl (fun t (g, i) =>
        let d := (data.drop (g.1 - q.addr)).take g.2
        t.niSend u (t.place g.1).entry
          { q with addr := g.1, tag := q.tag + i, data := d, aux := if p.vn == 2 then d.length else q.aux, len := ceilDiv g.2 16 }) s)

/-! ### Flits and credits (R337 to R341, R353, R354) -/

/-- Whether a probe's settings match a head that arrives (R362). -/
def State.probeMatches (s : State) (c n r p : Nat) (k : Packet) : Bool :=
  let port := if 8 ≤ p then 4 else p
  s.fld NOC_PRB_SEL_MODE c n != 0 && s.fld NOC_PRB_SEL_ROUTER c n == r && s.fld NOC_PRB_SEL_PORT c n == port &&
    bitsOf (s.fld NOC_PRB_SEL_VNMASK c n) k.vn 1 == 1 &&
    (k.src ^^^ s.fld NOC_PRB_SRC_VALUE c n) &&& s.fld NOC_PRB_SRC_MASK c n == 0 &&
    (k.dst ^^^ s.fld NOC_PRB_DST_VALUE c n) &&& s.fld NOC_PRB_DST_MASK c n == 0 &&
    (!s.flag NOC_PRB_SEL_CTXEN c n || s.fld NOC_PRB_SEL_CONTEXT c n == k.ctx)

/-- The record of a head in a probe's buffer, word 0 lowest. -/
def probeRecord (cyc : Nat) (k : Packet) : Nat :=
  let h := headerNat k
  bitsOf h 0 32 + bitsOf h 32 30 * 2 ^ 32 + (cyc % 2 ^ 28) * 2 ^ 64 + (flitCount k.data.length - 1) * 2 ^ 92

/-- R362: probe `n` of a carriage sees a head. -/
def State.probeSee (s : State) (c r p : Nat) (k : Packet) (n : Nat) : State :=
  if !s.probeMatches c n r p k then s
  else
    let s1 := (s.bump NOC_PRB_PKT_COUNT c n 1).bump NOC_PRB_FLT_COUNT c n (flitCount k.data.length)
    let mode := s.fld NOC_PRB_SEL_MODE c n
    let buf := mget [] s1.net.probe (c * 4 + n)
    let put := fun (t : State) (b : List Nat) =>
      ({ t with net := { t.net with probe := mset [] t.net.probe (c * 4 + n) b } }).setFld NOC_PRB_TRIDX_FILL c n b.length
    if mode < 2 then s1
    else if buf.length < 256 then put s1 (buf ++ [probeRecord s.netCycles k])
    else if mode == 3 then (put s1 (buf.drop 1 ++ [probeRecord s.netCycles k])).setFld NOC_PRB_TRIDX_WRAPPED c n 1
    else s1

/-- R353: a link direction goes down: it is recorded where its router lies, flits on it are discarded, and it is reported; a bridge
link's loss is a fault of the device (Table 16.4). -/
def State.linkDirDown (s : State) (c r p : Nat) : State :=
  let key := wireKey c r p
  let up := (upstream c r p).getD (c, r, p)
  let s1 := { s with net := { s.net with down := mset 0 s.net.down key 1, wires := mset [] s.net.wires key [] } }
  let s2 := if s1.flag NOC_DOWNINFO_VALID up.1 then s1.setFld NOC_DOWNINFO_MORE up.1 0 1
    else s1.setFlds up.1 0 [(NOC_DOWNINFO_ROUTER, up.2.1), (NOC_DOWNINFO_PORT, up.2.2), (NOC_DOWNINFO_MORE, 0), (NOC_DOWNINFO_VALID, 1)]
  s2.report { cause := if 8 ≤ p then 0x41 else 0x31, ctx := none, unit := up.1 * 256 + 0x51, code := 0, target := up.1,
              data := up.2.1 + up.2.2 * 2 ^ 6 + s2.fld NOC_DOWNINFO_MORE up.1 * 2 ^ 30 + 2 ^ 31 }

/-- FLIT_RECEIVE (R45, R335, R353): the flit at the front of an input's wire, `flips` the wires that an error on the link has inverted. A parity failure asks for
a replay, and the ninth failure of one flit takes the direction down. Once the flit is in, `upset` bits of it are inverted in the router; a head's quarter 0 is
checked and a single error corrected (R354); the flit enters its queue, and every output port of the router sends what it can. A flit from an NI waits while
its queue is full (R340). -/
def execFlitReceive (c : Car) (r : Fin 40) (p : Fin 13) (flips : List (Fin 1096)) (upset : List (Fin 1064)) (s : State) : Res :=
  let key := wireKey c r p
  if s.netStill c then ok s else
  match mget [] s.net.wires key with
  | [] => ok s
  | f :: rest =>
    let qk := queueKey c r p f.pkt.vn f.vc
    let q := mget [] s.net.queues qk
    if queueCap r p ≤ q.length then ok s
    else if !errorsPass (flips.map Fin.val) then
      if 8 ≤ mget 0 s.net.fails key then ok (s.linkDirDown c r p)
      else ok (({ s with net := { s.net with fails := mupd 0 s.net.fails key (· + 1) } }).bump NOC_HOPERR_COUNT c 0 1)
    else
      let s1 := { s with net := { s.net with fails := mset 0 s.net.fails key 0 } }
      let g := f.upset ((flips.map Fin.val).filter (· < 1064) ++ upset.map Fin.val)
      if f.i == 0 && decide (2 ≤ g.errsIn 0) then
        let d := s1.draw 10
        ok (((d.2.recordUe c f.pkt d.1 true).dropPacket f.pkt.uid).report
          { cause := 0, ctx := none, unit := c * 256 + 0x51, code := 0, data := (d.2.recordUe c f.pkt d.1 true).ueinfoWord c })
      else
        let s2 := if f.i == 0 && g.errsIn 0 == 1 then s1.bump NOC_ECCCE_COUNT c 0 1 else s1
        let g1 := if f.i == 0 then g.mend 0 else g
        let s3 := { s2 with net := { s2.net with wires := mset [] s2.net.wires key rest, queues := mset [] s2.net.queues qk (q ++ [g1]) } }
        let s4 := if f.i == 0 then (List.range 4).foldl (fun t n => t.probeSee c r p f.pkt n) s3 else s3
        ok (s4.forwardAll c r)

/-- CREDIT_RETURN (R340): the oldest freed slot's credit reaches the sender, which may forward again. Input port PORT of the router that
DEV_PERTNOC names returns each credit HOLD network cycles late (R681). -/
def execCreditReturn (c : Car) (r : Fin 40) (p : Fin 13) (vn : Fin 6) (vc : Fin 3) (s : State) : Res :=
  let key := queueKey c r p vn vc
  let port := if 8 ≤ p.val then 4 else p.val
  let slow := s.flag DEV_PERTNOC_EN 0 && s.fld DEV_PERTNOC_CARRIAGE 0 == c.val && s.fld DEV_PERTNOC_ROUTER 0 == r.val &&
    s.fld DEV_PERTNOC_PORT 0 == port
  if s.netStill c then ok s else
  match mget [] s.net.back key with
  | [] => ok s
  | t :: rest =>
    if slow && decide (s.netCycles < t + s.fld DEV_PERTNOC_HOLD 0) then ok s
    else
      let s1 := { s with net := { s.net with back := mset [] s.net.back key rest, used := mupd 0 s.net.used key (· - 1) } }
      match upstream c r p with
      | none => ok s1
      | some (c2, r2, _) => ok (s1.forwardAll c2 r2)

end Sys2Proof.Machine
end

