-- ==== Sys2Proof/Machine/Fabric.lean ====
section
/-! DEFINITION. The fabric of a carriage (chapter 12): cells, carts and cart RAM at a clock edge, network ports, scrub, user I/O and the
global release. Cart (x, y) has position y * 256 + x. -/

namespace Sys2Proof.Machine

/-! ### Geometry (R481 to R483, R488) -/

/-- Whether a site holds a cart (R481). -/
def hasCart (x y : Nat) : Bool := decide (x < 256) && decide (y < 256) && !(decide (32 ≤ x) && decide (x < 224) && decide (64 ≤ y) && decide (y < 192))

/-- The carts of one row that lie before x (R481). -/
def cartsBefore (x y : Nat) : Nat :=
  if y < 64 ∨ 192 ≤ y then x else if x < 32 then x else x - 192

/-- The carts of all rows below y. -/
def cartsBelow (y : Nat) : Nat :=
  if y ≤ 64 then 256 * y else if y ≤ 192 then 16384 + 64 * (y - 64) else 16384 + 8192 + 256 * (y - 192)

/-- Ring index of a cart (R482). -/
def ringIndex (x y : Nat) : Nat := cartsBelow y + cartsBefore x y

/-- The neighbour of a cart on a side (0 +x, 1 -x, 2 +y, 3 -y), none beside the hole and the edge (R483). -/
def cartBeside (pos dir : Nat) : Option Nat :=
  let x := pos % 256
  let y := pos / 256
  let at_ := fun (a b : Nat) => if hasCart a b then some (b * 256 + a) else none
  match dir with
  | 0 => at_ (x + 1) y
  | 1 => if x == 0 then none else at_ (x - 1) y
  | 2 => at_ x (y + 1)
  | _ => if y == 0 then none else at_ x (y - 1)

/-- The opposite side. -/
def opposite (dir : Nat) : Nat := match dir with | 0 => 1 | 1 => 0 | 2 => 3 | _ => 2

/-- A settings list's entry, the default where it lists none. -/
def cfgAt {α : Type} [Inhabited α] (l : List (Nat × α)) (k : Nat) : α :=
  match l.find? (fun e => e.1 == k) with | some e => e.2 | none => default

/-! ### Values of nets (R476, R478 to R480, R484) -/

/-- A flip-flop's value. -/
def FabS.ffVal (f : FabS) (cell which : Nat) (c : FfCfg) : Bool :=
  match mget 2 f.ff (cell * 2 + which) with | 0 => false | 1 => true | _ => c.init

/-- The 64 bits a cell's LUT holds now. -/
def FabS.lutBits (f : FabS) (cell : Nat) (c : CellCfg) : Nat :=
  if c.use == 0 then c.t else (mget none f.lut cell).getD c.t

/-- A number from its bits, lowest first. -/
def bitsNat : List Bool → Nat
  | [] => 0
  | b :: r => b2n b + 2 * bitsNat r

/-- What can be evaluated: a net as a cart's crossbar sees it, a cell's output, its carry out, its sum bit, an outgoing wire. -/
inductive Node where
  | net (pos : Nat) (n : Net)
  | out (pos k o : Nat)
  | carry (pos k : Nat)
  | sum (pos k : Nat)
  | wire (pos dir i : Nat)
deriving DecidableEq, Repr

/-- R478: at least two of three. -/
def majority (a b c : Bool) : Bool := (a && b) || (a && c) || (b && c)

/-- The line of a port's flit interface that a crossbar input of one of its eight carts carries (R480, R490): the port presents the first flit that it holds for
the fabric, with the header of Table 8.5. -/
def FabS.portNet (f : FabS) (n k bit : Nat) : Bool :=
  let j := Config.portLine k bit
  match mget [] f.toFab n with
  | [] => if j == 1024 then false else Config.openNet 2
  | x :: _ => if j < 1024 then x.dataBits.testBit j else if j == 1024 then true else Config.openNet 2

/-- Whether a cart's crossbar takes in a fabric port (R490): the carts with x = 31 beside the coach rows, eight to a port. -/
def atPort (pos : Nat) : Bool := pos % 256 == 31 && decide (64 ≤ pos / 256) && decide (pos / 256 < 192)

/-- Whether a cart's crossbar takes in a cart RAM block (R488). -/
def atBlock (r : Nat) : Bool := r % 40 == 20

/-- The combinational value of a node. An asynchronous reset acts while its net is high (R477). A carry and a sum exist where the carry logic is in use, in
the dual use of the LUT (R478). `fuel` bounds the depth; a value that needs more depends on itself. -/
def FabS.eval (f : FabS) : Nat → Node → Bool
  | 0, _ => Config.openNet 0
  | fuel + 1, nd =>
    match nd with
    | .net pos n =>
      match n with
      | .wire d i => match cartBeside pos d with
        | none => Config.openNet 1
        | some q => f.eval fuel (.wire q (opposite d) i)
      | .cell k o => f.eval fuel (.out pos k o)
      | .ram bit =>
        let r := ringIndex (pos % 256) (pos / 256)
        if atBlock r then bitsOf (mget 0 f.ramOut (r / 40 * 2 + bit / 72)) (bit % 72) 1 == 1 else Config.openNet 2
      | .port bit => if atPort pos then f.portNet ((pos / 256 - 64) / 8) (pos / 256 % 8) bit else Config.openNet 2
      | .io n fall => mget 0 f.inp (n * 2 + b2n fall) == 1
      | .const b => b
    | .wire pos d i =>
      match cfgAt (cfgAt f.cfg.carts pos).wires (d * 96 + i) with
      | .xbar n => f.eval fuel (.net pos n)
      | .pass d2 => f.eval fuel (.net pos (.wire d2 i))
    | .out pos k o =>
      let cell := pos * 16 + k
      let cart := cfgAt f.cfg.carts pos
      let c := cfgAt cart.cells k
      if o == 2 || o == 3 then
        let g := if o == 2 then c.ffA else c.ffB
        if g.useRst && g.async && f.eval fuel (.net pos cart.rst) then g.init else f.ffVal cell (o - 2) g
      else if o == 4 then f.eval fuel (.sum pos k)
      else
        let low := bitsNat ((c.a.take 5).map (fun n => f.eval fuel (.net pos n)))
        let hi := c.dual || f.eval fuel (.net pos (c.a.getD 5 (.const false)))
        bitsOf (f.lutBits cell c) (if o == 0 then low + 32 * b2n hi else low) 1 == 1
    | .carry pos k =>
      let c := cfgAt (cfgAt f.cfg.carts pos).cells k
      if !c.dual then Config.openNet 3
      else majority (f.eval fuel (.out pos k 0)) (f.eval fuel (.net pos (c.a.getD 5 (.const false))))
        (if 0 < k then f.eval fuel (.carry pos (k - 1))
         else match cartBeside pos 3 with | some q => f.eval fuel (.carry q 15) | none => Config.openNet 3)
    | .sum pos k =>
      let c := cfgAt (cfgAt f.cfg.carts pos).cells k
      let cin := if 0 < k then f.eval fuel (.carry pos (k - 1))
        else match cartBeside pos 3 with | some q => f.eval fuel (.carry q 15) | none => Config.openNet 3
      if !c.dual then Config.openNet 3
      else (f.eval fuel (.out pos k 0)).xor ((f.eval fuel (.net pos (c.a.getD 5 (.const false)))).xor cin)

/-- A bound on the depth of any acyclic evaluation: every wire, cell output and carry of a carriage once. -/
def netDepth : Nat := 16777216

/-- A net's value in a cart. -/
def FabS.net (f : FabS) (pos : Nat) (n : Net) : Bool := f.eval netDepth (.net pos n)

/-! ### A clock edge (R477, R479, R489, R497) -/

/-- A flip-flop's value after an edge; `active` says that its cart's clock has its active edge. An asynchronous reset has acted before the edge (R477). Writes need
stage WRITES; a flip-flop with GSR stays at its initial value until stage RUN. -/
def FabS.ffNext (f : FabS) (stage pos k which : Nat) (cart : CartCfg) (c : CellCfg) (active : Bool) : Bool :=
  let g := if which == 0 then c.ffA else c.ffB
  let old := f.eval netDepth (.out pos k (2 + which))
  let rst := g.useRst && f.net pos cart.rst
  if g.gsr && decide (stage < 3) then g.init
  else if stage < 2 then old
  else if rst && (g.async || active) then g.init
  else if active && f.net pos c.ce then
    match g.src with
    | 0 => f.eval netDepth (.out pos k 0)
    | 1 => f.eval netDepth (.out pos k 1)
    | 2 => f.eval netDepth (.sum pos k)
    | _ => f.net pos g.direct
  else old

/-- LUT contents after an active edge of a cell in a memory use (R479). -/
def FabS.lutNext (f : FabS) (stage pos k : Nat) (c : CellCfg) : Nat :=
  let cell := pos * 16 + k
  let now := f.lutBits cell c
  if stage < 2 then now
  else if c.use == 1 then (if f.net pos c.ce then (now * 2 + b2n (f.net pos c.di)) % 2 ^ 64 else now)
  else if f.net pos c.we then
    let i := bitsNat ((c.a.take 6).map (f.net pos))
    now - bitsOf now i 1 * 2 ^ i + b2n (f.net pos c.di) * 2 ^ i
  else now

/-- Flip-flops and LUT memories after an edge, from the values before it. -/
def FabS.clockCarts (f : FabS) (stage n : Nat) (rising : Bool) : FabS :=
  f.cfg.carts.foldl (fun g (pos, cart) =>
    let active := rising && cart.clk == n
    cart.cells.foldl (fun g (k, c) =>
      let cell := pos * 16 + k
      let a := b2n (f.ffNext stage pos k 0 cart c active)
      let b := b2n (f.ffNext stage pos k 1 cart c active)
      { g with ff := mset 2 (mset 2 g.ff (cell * 2) a) (cell * 2 + 1) b,
               lut := if active && c.use != 0 then mset none g.lut cell (some (f.lutNext stage pos k c)) else g.lut }) g) f

/-- Data bits of one access of a shape, and the units of 9 bits it takes (R488): the shape 32,768 × 1 takes one bit of a unit. -/
def shapeUnits (shape : Nat) : Nat := match shape with | 0 => 1 | 1 => 1 | 2 => 2 | 3 => 4 | _ => 8

/-- The position of the cart a block attaches to (R488): the cart of ring index 40n + 20. -/
def blockCart (n : Nat) : Nat :=
  let r := 40 * n + 20
  if r < 16384 then r
  else if r < 24576 then
    let q := r - 16384
    (64 + q / 64) * 256 + (if q % 64 < 32 then q % 64 else q % 64 + 192)
  else (192 + (r - 24576) / 256) * 256 + (r - 24576) % 256

/-- Addresses of a port in its shape (R488). -/
def shapeDepth (shape : Nat) : Nat := match shape with | 0 => 32768 | 1 => 4096 | 2 => 2048 | 3 => 1024 | _ => 512

/-- What a port reads at its address. -/
def FabS.ramRead (f : FabS) (block : Nat) (p : RamPort) (a : Nat) : Nat :=
  if p.shape == 0 then bitsOf (mget 0 f.ram (block * 4096 + a / 8)) (a % 8) 1
  else
    let u := shapeUnits p.shape
    ((List.range u).map (fun j => mget 0 f.ram (block * 4096 + a * u + j) * 2 ^ (9 * j))).foldl (· + ·) 0

/-- Write at a port's address, unit by unit under its byte enables. -/
def FabS.ramWrite (f : FabS) (block : Nat) (p : RamPort) (a v be : Nat) : FabS :=
  if p.shape == 0 then
    { f with ram := mupd 0 f.ram (block * 4096 + a / 8) (fun w => w - bitsOf w (a % 8) 1 * 2 ^ (a % 8) + v % 2 * 2 ^ (a % 8)) }
  else
    let u := shapeUnits p.shape
    (List.range u).foldl (fun g j =>
      if bitsOf be j 1 == 1 then { g with ram := mset 0 g.ram (block * 4096 + a * u + j) (bitsOf v (9 * j) 9) } else g) f

/-- Cart RAM at the active edge of clock `n` (R489), from the nets of `f`: port B writes first, so that port A's data stands where both write one
address; a port that reads what it writes sees the new data, and the other port's old data otherwise. -/
def FabS.clockRams (f : FabS) (stage n : Nat) : FabS :=
  let ports := f.cfg.rams.filter (fun p => p.2.clk == n)
  let val := fun (b : Nat) (l : List Net) => bitsNat (l.map (f.net (blockCart b)))
  let addr := fun (q : Nat × RamPort) => val (q.1 / 2) q.2.addr % shapeDepth q.2.shape
  let writes := fun (q : Nat × RamPort) => decide (2 ≤ stage) && f.net (blockCart (q.1 / 2)) q.2.we && !(q.2.shape == 4 && q.1 % 2 == 1)
  let ordered := (ports.filter (fun q => q.1 % 2 == 1)) ++ ports.filter (fun q => q.1 % 2 == 0)
  let after := ordered.foldl (fun g q =>
    if writes q then g.ramWrite (q.1 / 2) q.2 (addr q) (val (q.1 / 2) q.2.data) (val (q.1 / 2) q.2.be) else g) f
  ports.foldl (fun g q =>
    if q.2.shape == 4 && q.1 % 2 == 0 then g
    else
      let b := q.1 / 2
      let a := addr q
      let own := if writes q then f.ramWrite b q.2 a (val b q.2.data) (val b q.2.be) else f
      { g with ramOut := mset 0 g.ramOut q.1 (own.ramRead b q.2 a) }) after

/-! ### User I/O (R496 to R501) -/

/-- An output register's value: 2 is its initial value. -/
def regBit (v : Nat) (init : Bool) : Bool := match v with | 0 => false | 1 => true | _ => init

/-- Drive user I/O `n`: from its output registers, unless it is held off (before stage OUTPUTS, R496, R532) or latched (R501, R503). -/
def State.driveIo (s : State) (c n : Nat) (falling : Bool) : State :=
  let f := s.fabS c
  if mget 0 f.latched n != 0 then s
  else
    let io := cfgAt f.cfg.ios n
    let half := n * 2 + b2n (falling && s.flag IOB_CFG_DDR c n)
    let oe := regBit (mget 2 f.oeR half) io.initOe
    let lv := regBit (mget 2 f.outR half) io.initOut
    let on := s.flag IOB_CFG_OUT c n && oe && decide (1 ≤ s.fld FAB_STATE_STAGE c) && !s.flag IOB_BANK_VERR c && !f.dead &&
      !(s.flag IOB_CFG_OD c n && lv)
    (s.setFlag IOB_PIN_DRIVEN c n on).emit (.uio c n (if on then some lv else none))

/-- Drive every user I/O of a carriage. -/
def State.driveAll (s : State) (c : Nat) : State := (List.range 24).foldl (fun t n => t.driveIo c n false) s

/-- Input, output and output-enable registers of one user I/O at an edge of its clock (R497). `f` holds the nets before the edge; `deaf` says that the input is
ignored (R501, R532). While lockstep runs, what the input register has captured reaches the fabric at slot boundaries only (R500). -/
def State.clockIo (s : State) (f : FabS) (c n : Nat) (rising level deaf : Bool) : State :=
  let ddr := s.flag IOB_CFG_DDR c n
  let io := cfgAt f.cfg.ios n
  let pair := fun (m : SMap Nat) (a b : Nat) => mset 0 (mset 0 m (n * 2) a) (n * 2 + 1) b
  let s1 := s.updFab c (fun g =>
    if deaf then g
    else if rising then
      let due := if ddr then pair g.due (mget 0 g.cap (n * 2)) (mget 0 g.cap (n * 2 + 1)) else mset 0 g.due (n * 2) (b2n level)
      let g1 := { g with due := due, cap := mset 0 g.cap (n * 2) (b2n level) }
      if s.lockRun then g1 else { g1 with inp := pair g.inp (mget 0 due (n * 2)) (mget 0 due (n * 2 + 1)) }
    else { g with cap := mset 0 g.cap (n * 2 + 1) (b2n level) })
  let s2 := if rising && decide (2 ≤ s.fld FAB_STATE_STAGE c) then
      s1.updFab c (fun g => { g with outR := mset 2 (mset 2 g.outR (n * 2) (b2n (f.net io.cart io.rise))) (n * 2 + 1) (b2n (f.net io.cart io.fall)),
                                     oeR := mset 2 (mset 2 g.oeR (n * 2) (b2n (f.net io.cart io.oe))) (n * 2 + 1) (b2n (f.net io.cart io.oeFall)) })
    else s1
  s2.driveIo c n (!rising)

/-- Flip-flops whose asynchronous reset is high keep their initial value when it ends (R477). -/
def FabS.settle (f : FabS) : FabS :=
  f.cfg.carts.foldl (fun g (pos, cart) =>
    cart.cells.foldl (fun g (k, _) =>
      { g with ff := mset 2 (mset 2 g.ff ((pos * 16 + k) * 2) (b2n (f.eval netDepth (.out pos k 2)))) ((pos * 16 + k) * 2 + 1) (b2n (f.eval netDepth (.out pos k 3))) }) g) f

/-- R500: at a slot boundary the input registers of a carriage present what they have captured. -/
def State.presentIo (s : State) (c : Nat) : State := s.updFab c (fun g => { g.settle with inp := g.due })

/-- Whether fabric clock `n` of a carriage runs (R486, R487): enabled, at its period, in a carriage whose fabric clocks are not stopped as its network clock is (Table 1.5). -/
def State.fclkRuns (s : State) (c n : Nat) : Bool :=
  s.flag FAB_CLKCFG_EN c n && s.flag FAB_CLKCFG_RUNNING c n && !s.netStill c

/-- A rising edge of fabric clock `n` at the network ports that it clocks (R491): the fabric takes the flit that a port presents where `ready` says so, and a new cycle begins for
the flits the other way. -/
def State.clockPorts (s : State) (c n : Nat) (ready : BitVec 16) : State :=
  (List.range 16).foldl (fun t p =>
    if t.fld FAB_PORTCTL_CLK c p != n then t
    else t.updFab c (fun g => { g with took := mset 0 g.took p 0, toFab := if ready.getLsbD p then mupd [] g.toFab p (·.drop 1) else g.toFab })) s

/-- FABRIC_CLOCK_EDGE (R476 to R479, R489, R491, R497): flip-flops, shift registers, distributed RAM, cart RAM, user I/O registers and the fabric sides of the network
ports take an edge of fabric clock `n`, from the values before it. -/
def execFabricClockEdge (c : Car) (n : Fin 8) (rising : Bool) (pins : BitVec 24) (ready : BitVec 16) (s : State) : Res :=
  if !s.fclkRuns c n then ok s
  else
    let f := s.fabS c
    let stage := s.fld FAB_STATE_STAGE c
    let carts := f.clockCarts stage n rising
    let rams := if rising then f.clockRams stage n else f
    let s1 := s.updFab c (fun g => { g with ff := carts.ff, lut := carts.lut, ram := rams.ram, ramOut := rams.ramOut })
    let s2 := (List.range 24).foldl (fun t i => t.setFlag IOB_PIN_LEVEL c i (pins.getLsbD i)) s1
    let s3 := (List.range 24).foldl (fun t i =>
      if s.fld IOB_CFG_CLK c i == n.val then t.clockIo f c i rising (pins.getLsbD i) (f.dead || mget 0 f.latched i / 2 != 0) else t) s2
    ok (if rising then s3.clockPorts c n ready else s3)

/-- FABRIC_CLOCK_RESTART (R486, R487): a clock stopped for a change of DIV, or enabled by an image, runs at its period. -/
def execFabricClockRestart (c : Car) (n : Fin 8) (s : State) : Res :=
  if s.flag FAB_CLKCFG_EN c n && !s.netStill c then ok (s.setFlag FAB_CLKCFG_RUNNING c n true) else ok s

/-- A write of FAB_CLKCFG (R486): DIV below 8 is ignored; a change of DIV while the clock runs stops it until FABRIC_CLOCK_RESTART. -/
def State.clkCfgWrite (s : State) (c n v : Nat) : State :=
  let old := s.fld FAB_CLKCFG_DIV c n
  let en := bitsOf v 8 1 == 1
  let div := if v % 256 < 8 then old else v % 256
  let was := s.flag FAB_CLKCFG_EN c n
  s.setFlds c n [(FAB_CLKCFG_DIV, div), (FAB_CLKCFG_EN, b2n en),
    (FAB_CLKCFG_RUNNING, b2n (en && !(was && div != old) && (!was || s.flag FAB_CLKCFG_RUNNING c n)))]

/-- IO_DELAY_TARGET (R498). -/
def execIoDelayTarget (c : Car) (n : Fin 24) (v : Fin 512) (s : State) : Res :=
  s.regEvent IOB_DLY_TARGET c n (.ioDelayTarget c n v) fun s => ok (s.setFld IOB_DLY_TARGET c n v)

/-- IO_DELAY_STEP (R487, R498): one tap toward the target, in a carriage whose fabric clocks are not stopped. -/
def execIoDelayStep (c : Car) (n : Fin 24) (s : State) : Res :=
  let t := s.fld IOB_DLY_TARGET c n
  let k := s.fld IOB_DLY_CURRENT c n
  if s.netStill c then ok s else ok (s.setFld IOB_DLY_CURRENT c n (if k < t then k + 1 else if t < k then k - 1 else k))

/-! ### Network ports (R491 to R493) -/

/-- A port's translation faults (R492): the fabric gets a response with the code, the fault is recorded and reported. -/
def State.portFault (s : State) (c n : Nat) (p : Packet) (code : Nat) : State :=
  let s1 := s.toFabric c n { p with vn := 1, op := if p.vn == 0 then 0 else 1, aux := code, data := [], len := 0, src := portUnit c n }
  let s2 := if s1.flag FAB_PORTSTAT_VALID c n then s1.setFlds c n [(FAB_PORTSTAT_FCODE, code), (FAB_PORTSTAT_MORE, 1)]
    else s1.setFlds c n [(FAB_PORTSTAT_FCODE, code), (FAB_PORTSTAT_VALID, 1)]
  s2.report { cause := 0, ctx := some p.ctx, unit := portUnit c n, code := code,
              data := code + s2.fld FAB_PORTSTAT_MORE c n * 2 ^ 30 + s2.fld FAB_PORTSTAT_VALID c n * 2 ^ 31, va := p.addr }

/-- Send a memory request to the unit that a translated address selects, cut at granules (R346, R369). -/
def State.sendMemory (s : State) (u : Nat) (p : Packet) (l : Loc) : State :=
  let n := if p.vn == 2 then p.data.length else p.len * 16
  let parts := if l.target == 0 then granules 64 l.addr n else [(l.addr, n)]
  parts.foldl (fun t g =>
    let d := (p.data.drop (g.1 - l.addr)).take g.2
    (t.updFab (u / 256) (fun f => { f with owed := mupd [] f.owed (u % 256 - 0x30) (fun x => x ++ [{ tag := p.tag, used := [l.used p.ctx p.addr] }]) })).niSend u (t.locEntry { l with addr := g.1 })
      { p with addr := g.1, data := d, aux := if p.vn == 2 then p.aux / 1024 * 1024 + d.length else p.aux, len := ceilDiv g.2 16 }) s

/-- Send a port's waiting packets in order, as far as translations are at hand (R492). `fuel` bounds the packets. -/
def State.portGo (s : State) (c n : Nat) : Nat → State
  | 0 => s
  | fuel + 1 =>
    match mget [] (s.fabS c).sendQ n with
    | [] => s
    | p :: rest =>
      let pop := fun (t : State) => t.updFab c (fun f => { f with sendQ := mset [] f.sendQ n rest })
      if !p.isMemory then
        let s1 := if p.vn == 0 then s.updFab c (fun f => { f with owed := mupd [] f.owed n (fun l => l ++ [{ tag := p.tag }]) }) else s
        ((pop s1).niSend (portUnit c n) p.rse p).portGo c n fuel
      else match s.ask (dmaUnit c) p.ctx p.addr (p.vn == 2) with
        | (.walking, s1) => s1
        | (.fault code, s1) => ((pop s1).portFault c n p code).portGo c n fuel
        | (.here l, s1) => ((pop s1).sendMemory (portUnit c n) p l).portGo c n fuel

/-- Every port of a carriage whose packets wait for the DMA engine's cache. -/
def State.portsGo (s : State) (c : Nat) : State := (List.range 16).foldl (fun t n => t.portGo c n 64) s

/-- A walk of the DMA engine's cache for a context has failed: a port whose first packet waited for that page takes the fault (R492). -/
def State.portsFail (s : State) (c ctx va : Nat) (write : Bool) (code : Nat) : State :=
  (List.range 16).foldl (fun t n =>
    match mget [] (t.fabS c).sendQ n with
    | [] => t
    | p :: rest =>
      if p.isMemory && p.ctx == ctx && p.addr / 65536 == va / 65536 && (p.vn == 2) == write then
        ((t.updFab c (fun f => { f with sendQ := mset [] f.sendQ n rest })).portFault c n p code).portGo c n 64
      else t) s

/-- Flits from the fabric that a port holds in its asynchronous buffer (R491). -/
def FabS.heldFlits (f : FabS) (n : Nat) : Nat :=
  ((mget [] f.sendQ n).map (fun p => flitCount p.data.length)).foldl (· + ·) 0 + (match mget none f.taking n with | none => 0 | some x => flitCount x.pkt.data.length)

/-- Whether a port takes a flit from the fabric now (R491, R493): it is bound, the release has ended, its clock runs, it has taken none in this cycle and its buffer has room. -/
def State.portOpen (s : State) (c n : Nat) : Bool :=
  s.flag FAB_PORTCTX_BOUND c n && s.fld FAB_STATE_STAGE c == 3 && !s.stoppedAt 5 c && s.fclkRuns c (s.fld FAB_PORTCTL_CLK c n) &&
    mget 0 (s.fabS c).took n == 0 && decide ((s.fabS c).heldFlits n < portBuffer)

/-- FABRIC_PORT_FLIT (R491, R493): an open port takes a flit; with a packet's last flit its header is filled and it
is sent. -/
def execFabricPortFlit (c : Car) (n : Fin 16) (f : FabFlit) (s : State) : Res :=
  if !s.portOpen c n then ok s
  else
    let taking := match f with
      | .head p rse =>
        let d := (p.data.take 96).map BitVec.toNat
        let k : Packet := { vn := p.vn, op := p.op, sclass := p.sclass, ctx := s.fld FAB_PORTCTX_CONTEXT c n, tag := p.tag, rse := rse, data := d }
        let k : Packet := { k with status := p.status, addr := p.addr, aux := p.aux, len := p.len, src := portUnit c n }
        some (PortIn.mk k (if p.vn.val == 0 && p.op != 2 then 0 else if p.vn.val == 2 then p.aux % 1024 else p.len * 16))
      | .body data =>
        (mget none (s.fabS c).taking n).map (fun (x : PortIn) => { x with pkt := { x.pkt with data := x.pkt.data ++ (data.take 128).map BitVec.toNat } })
    match taking with
    | none => ok s
    | some x =>
      let s := s.updFab c (fun g => { g with took := mset 0 g.took n 1 })
      if x.pkt.data.length < x.need then ok (s.updFab c (fun g => { g with taking := mset none g.taking n (some x) }))
      else
        let p := { x.pkt with data := x.pkt.data.take x.need }
        ok ((s.updFab c (fun g => { g with taking := mset none g.taking n none, sendQ := mupd [] g.sendQ n (fun l => l ++ [p]) })).portGo c n 64)

/-! ### Scrub (R494, R495) -/

/-- FABRIC_SCRUB_START (R495): START is cleared as the scrub begins; it has no effect while BUSY. -/
def execFabricScrubStart (c : Car) (s : State) : Res :=
  s.regEvent FAB_SCRUB_START c 0 (.fabricScrubStart c) fun s =>
  if s.flag FAB_SCRUB_BUSY c then ok s else ok (s.setFlds c 0 [(FAB_SCRUB_START, 0), (FAB_SCRUB_BUSY, 1)])

/-- FABRIC_SCRUB_DONE (R494): corrected errors and uncorrectable frames are counted, and each bad frame is reported (Table 16.4, CARRERR). -/
def execFabricScrubDone (c : Car) (fixed : Nat) (bad : List (Fin 40960)) (s : State) : Res :=
  if !s.flag FAB_SCRUB_BUSY c then ok s
  else
    let s1 := ((s.setFld FAB_SCRUB_BUSY c 0 0).bump FAB_SCRUBCE_COUNT c 0 fixed).bump FAB_SCRUBUE_COUNT c 0 bad.length
    ok (bad.foldl (fun t f => t.report { cause := 0x31, ctx := none, unit := c * 256 + 0x51, code := 0, data := f.val, target := c }) s1)

/-! ### The global release (R502, R503) -/

/-- Return a carriage's fabric to HELD: before a load every output is off (R524), at a recovery outputs keep their last level (R503).
Pads latched for a power state stay latched (R587). -/
def State.fabricHeld (s : State) (c : Nat) (keepPads : Bool) : State :=
  let on := fun n => s.flag IOB_PIN_DRIVEN c n
  let s1 := (s.setFld FAB_STATE_STAGE c 0 0).updFab c (fun f =>
    { f with ff := [], outR := [], oeR := [], taking := [], took := [], sendQ := [], toFab := [], release := false, dead := false,
             latched := if keepPads then (List.range 24).foldl (fun m n => if on n then mupd 0 m n (fun v => v / 2 * 2 + 1) else m) f.latched
                        else mmap 0 (fun v => v / 2 * 2) f.latched })
  if keepPads then (List.range 24).foldl (fun t n => if on n then t.setFld IOB_PIN_HELD c n 1 else t) s1
  else (List.range 24).foldl (fun t n =>
    if mget 0 (s1.fabS c).latched n != 0 then t else (t.setFlds c n [(IOB_PIN_HELD, 0), (IOB_PIN_DRIVEN, 0)]).emit (.uio c n none)) s1

/-- RELEASE_START (R502): the release of a carriage whose release is wanted begins once every enabled fabric clock runs; its outputs are
driven from registers that hold initial values. -/
def execReleaseStart (c : Car) (s : State) : Res :=
  let f := s.fabS c
  if !f.release || s.fld FAB_STATE_STAGE c != 0 || !s.flag FAB_STATE_LOADED c ||
      (List.range 8).any (fun n => s.flag FAB_CLKCFG_EN c n && !s.flag FAB_CLKCFG_RUNNING c n) then ok s
  else
    let s1 := (s.setFld FAB_STATE_STAGE c 0 1).updFab c (fun f => { f with release := false, latched := mmap 0 (fun v => v / 2 * 2) f.latched })
    let s2 := (List.range 24).foldl (fun t n => if mget 0 f.latched n == 1 then t.setFld IOB_PIN_HELD c n 0 else t) s1
    ok (s2.driveAll c)

/-- R529: the release has reached RUN in all four carriages of a loading device: CFG_DONE is released, STATE is DONE, EVENT is set. -/
def State.loadDone (s : State) : State :=
  if s.fld CFG_STATE_STATE 0 == 4 && (List.range 4).all (fun c => s.fld FAB_STATE_STAGE c == 3) then
    ((s.setFlds 0 0 [(CFG_STATE_STATE, 5), (CFG_STATE_CODE, 0), (CFG_STATE_EVENT, 1)]).emit (.pin "CFG_DONE" 1)).raise none
      (s.fld CFG_CTL_PORT 0) (s.fld CFG_CTL_VEC 0)
  else s

/-- RELEASE_STAGE_ADVANCE (R502, R529): 16 cycles of the slowest enabled fabric clock have passed in a stage. -/
def execReleaseStageAdvance (c : Car) (s : State) : Res :=
  let st := s.fld FAB_STATE_STAGE c
  if st == 1 || st == 2 then ok ((s.setFld FAB_STATE_STAGE c 0 (st + 1)).loadDone) else ok s

end Sys2Proof.Machine
end

