-- ==== Sys2Proof/Machine/Loading.lean ====
section
/-! DEFINITION. Loading the consist image and the key RAM (chapter 13). -/

namespace Sys2Proof.Machine

/-! ### Registers that an image may write (Table 13.4) -/

/-- Offsets of Table 13.4 within a carriage range, each with the fields there: (offset, fields, unit, index), for carriage `c`. -/
def imageFields (c off : Nat) : Option (List (Fld × Nat × Nat)) :=
  let k := off / 0x10000 - 16
  if 0x100000 ≤ off && k < 24 && off % 0x10000 == 0x4000 then some [(ACC_SPILLBASE_BASE, c * 24 + k, 0)]
  else if 0x100000 ≤ off && k < 24 && off % 0x10000 == 0x4004 then some [(ACC_SPILLSLOTS_SLOTS, c * 24 + k, 0)]
  else if 0x800010 ≤ off && off < 0x800030 && off % 4 == 0 then
    let n := (off - 0x800010) / 4
    some [(FAB_CLKCFG_DIV, c, n), (FAB_CLKCFG_EN, c, n), (FAB_CLKCFG_RUNNING, c, n)]
  else if 0x800108 ≤ off && off < 0x800208 && off % 16 == 8 then some [(FAB_PORTCTL_CLK, c, (off - 0x800108) / 16)]
  else if off == 0x880000 then some [(IOB_BANK_VSEL, c, 0), (IOB_BANK_VSENSE, c, 0), (IOB_BANK_VERR, c, 0)]
  else if 0x880100 ≤ off && off < 0x880280 && off % 16 == 0 then
    let n := (off - 0x880100) / 16
    some [(IOB_CFG_OUT, c, n), (IOB_CFG_DDR, c, n), (IOB_CFG_DRIVE, c, n), (IOB_CFG_FAST, c, n), (IOB_CFG_PULL, c, n), (IOB_CFG_OD, c, n),
      (IOB_CFG_DLYPATH, c, n), (IOB_CFG_CLK, c, n)]
  else if 0x880104 ≤ off && off < 0x880284 && off % 16 == 4 then
    let n := (off - 0x880104) / 16
    some [(IOB_DLY_TARGET, c, n), (IOB_DLY_CURRENT, c, n)]
  else none

/-- Write a whole 32-bit value of Table 13.4 (R508): RO bits too, so that RUNNING takes bit 9. A DIV below 8 is ignored, and a clock whose DIV changes while it is enabled stops until
FABRIC_CLOCK_RESTART (R486). -/
def State.imageReg (s : State) (c off v : Nat) : State :=
  match imageFields c off with
  | none => s
  | some fs => fs.foldl (fun t (f, u, i) =>
      if f == FAB_CLKCFG_DIV && decide (v % 256 < 8) then t
      else if f == FAB_CLKCFG_RUNNING && s.flag FAB_CLKCFG_EN u i && s.fld FAB_CLKCFG_DIV u i != t.fld FAB_CLKCFG_DIV u i then t.setFld f u i 0
      else t.setFld f u i (bitsOf v f.lsb f.w)) s

/-- The fields of Table 13.4 with the range of their units' indices, for resetting. -/
def imageFieldList : List Fld :=
  [ACC_SPILLBASE_BASE, ACC_SPILLSLOTS_SLOTS, FAB_CLKCFG_DIV, FAB_CLKCFG_EN, FAB_CLKCFG_RUNNING, FAB_PORTCTL_CLK, IOB_BANK_VSEL, IOB_BANK_VSENSE,
    IOB_BANK_VERR, IOB_CFG_OUT, IOB_CFG_DDR, IOB_CFG_DRIVE, IOB_CFG_FAST, IOB_CFG_PULL, IOB_CFG_OD, IOB_CFG_DLYPATH, IOB_CFG_CLK, IOB_DLY_TARGET,
    IOB_DLY_CURRENT]

/-- Set every register of Table 13.4 to its reset value; the sensed bank voltage goes on being shown (R496). -/
def State.clearImageRegs (s : State) : State :=
  let s1 := { s with fields := mdrop (fun k => match keyFld k with | some f => imageFieldList.contains f | none => false) s.fields }
  (List.range 4).foldl (fun t c => t.setFld IOB_BANK_VSENSE c 0 (bitsOf t.vsense c 1)) s1

/-- R613: write the registers of Table 13.4 again, with the values of the last load, in carriage `c`. The sensed bank voltage goes on being shown, and a bank whose outputs
are held off stays so until the next load (R496). -/
def State.rewriteImageRegs (s : State) (c : Nat) : State :=
  let t := s.keptRegs.foldl (fun t (d, off, v) => if d == c then t.imageReg d off v else t) s
  t.setFlds c 0 [(IOB_BANK_VSENSE, bitsOf s.vsense c 1), (IOB_BANK_VERR, s.fld IOB_BANK_VERR c)]

/-! ### Start and failure (R523, R524, R531, R532) -/

/-- Set CFG_STATE.EVENT and raise its vector. -/
def State.cfgEvent (s : State) : State := (s.setFld CFG_STATE_EVENT 0 0 1).raise none (s.fld CFG_CTL_PORT 0) (s.fld CFG_CTL_VEC 0)

/-- Whether any unit of the device is bound to a context. -/
def State.anyBound (s : State) : Bool :=
  (List.range 96).any (fun k => s.flag COA_ROLE_BOUND k) ||
    (List.range 4).any (fun c => (List.range 64).any (fun h => s.flag DMA_CTX_BOUND c h) || (List.range 16).any (fun n => s.flag FAB_PORTCTX_BOUND c n))

/-- R524: what happens before any byte is read; `dead` says that the user I/O stay wholly off (R532, step 4). -/
def State.clearConfig (s : State) (dead : Bool) : State :=
  let s1 := (s.emit (.pin "CFG_DONE" 0)).clearImageRegs
  let s2 := { s1 with seqMem := [], load := {}, keptRegs := [],
                      net := { s1.net with sheet := [], heldPk := [] } }
  (List.range 4).foldl (fun t c =>
    let t1 := (t.fabricHeld c false).setFld FAB_STATE_LOADED c 0 0
    t1.updFab c (fun f => { f with frames := [], cfg := {}, ram := [], lut := [], ramOut := [], cap := [], due := [], inp := [], dead := dead })) (s2.setFld CFG_IMGID_IMGID 0 0 0)

/-- What a flash master sends on CFG_DQ[0] (R519): the command 0x6C, the flash address, 8 dummy clocks, most significant bit first. -/
def flashPrefix (addr : Nat) : List Bool := (bitList 48 (0x6C * 2 ^ 40 + addr % 2 ^ 32 * 2 ^ 8)).reverse

/-- A flash master lowers CFG_CS_N and sends the read command (R519). -/
def State.flashRead (s : State) (addr : Nat) : State := (s.emit (.pin "CFG_CS_N" 0)).emit (.serial "CFG_DQ0" (flashPrefix addr))

/-- A load begins from a source (R517, R522, R524): flash loads wait for CFG_CS_N, and a master lowers it at once after a START. -/
def State.beginLoad (s : State) (src : Nat) (cold : Bool) : State :=
  let s1 := ((s.clearConfig false).emit (.pin "CFG_ERR_N" 1)).setFlds 0 0 [(CFG_STATE_SRC, src), (CFG_BYTES_BYTES, 0)]
  if src < 2 then (s1.emit (.loadRead src (s.fld CFG_CTL_UNIT 0) (s.fld CFG_SRCADDR_ADDR 0 * 16))).setFld CFG_STATE_STATE 0 0 2
  else if src == 2 && !cold then (s1.flashRead (s.fld CFG_SRCADDR_ADDR 0 * 16)).setFld CFG_STATE_STATE 0 0 2
  else s1.setFld CFG_STATE_STATE 0 0 1

/-- R532: a load fails with a code, in a section (0xFFFF for the header, trailer, tag or source). -/
def State.loadFail (s : State) (code sect : Nat) : State :=
  let s1 := if s.fld CFG_STATE_SRC 0 == 2 then s.emit (.pin "CFG_CS_N" 1) else s
  (((s1.clearConfig true).emit (.pin "CFG_ERR_N" 0)).setFlds 0 0
    [(CFG_STATE_CODE, code), (CFG_FAILSECT_SECT, sect), (CFG_STATE_STATE, 6)]).cfgEvent

/-- LOAD_START (R517, R523): a tender is read only in a bay that is NEW, ATTACHED or READONLY; else the source fails at once (log 121). -/
def execLoadStart (s : State) : Res := s.regEvent CFG_CTL_START 0 0 .loadStart fun s =>
  let st := s.fld CFG_STATE_STATE 0
  let s1 := s.setFld CFG_CTL_START 0 0 0
  if (st == 0 || st == 5 || st == 6) && !s.anyBound then
    let src := s.fld CFG_CTL_SRC 0
    let s2 := s1.beginLoad src false
    ok (if src == 1 && !([2, 3, 5].contains (s.bayState (s.fld CFG_CTL_UNIT 0))) then s2.loadFail 8 0xFFFF else s2)
  else ok ((s1.setFld CFG_STATE_CODE 0 0 0xA).cfgEvent)

/-- The section being received, for CFG_FAILSECT. -/
def State.loadSect (s : State) : Nat := if s.load.headed && decide (s.load.sect < s.load.nsect) then s.load.sect else 0xFFFF

/-- LOAD_ABORT (R531, R533): it acts while a load waits or reads. -/
def execLoadAbort (s : State) : Res := s.regEvent CFG_CTL_ABORT 0 0 .loadAbort fun s =>
  let st := s.fld CFG_STATE_STATE 0
  let s1 := s.setFld CFG_CTL_ABORT 0 0 0
  if st == 1 || st == 2 || st == 3 then ok (s1.loadFail 9 s.loadSect) else ok s1

/-- FLASH_MASTER_START (R522): 20 ms after POR_N a master lowers CFG_CS_N. -/
def execFlashMasterStart (s : State) : Res :=
  if s.fld CFG_STATE_STATE 0 == 1 && s.fld CFG_STATE_SRC 0 == 2 then ok ((s.flashRead 0).setFld CFG_STATE_STATE 0 0 2) else ok s

/-- CFG_CS_FALL (R522): a follower leaves WAIT for LOAD. -/
def execCfgCsFall (s : State) : Res :=
  if s.fld CFG_STATE_STATE 0 == 1 && s.fld CFG_STATE_SRC 0 == 3 then ok (s.setFld CFG_STATE_STATE 0 0 2) else ok s

/-- CFG_CS_RISE_EARLY (R531). -/
def execCfgCsRiseEarly (s : State) : Res :=
  if s.fld CFG_STATE_STATE 0 == 2 && s.fld CFG_STATE_SRC 0 == 3 then ok (s.loadFail 2 s.loadSect) else ok s

/-- FOLLOWER_TIMEOUT (R522). -/
def execFollowerTimeout (s : State) : Res :=
  if s.fld CFG_STATE_STATE 0 == 1 && s.fld CFG_STATE_SRC 0 == 3 then ok (s.loadFail 2 0xFFFF) else ok s

/-- LOAD_STALL_TIMEOUT (R531). -/
def execLoadStallTimeout (s : State) : Res := if s.fld CFG_STATE_STATE 0 == 2 then ok (s.loadFail 2 s.loadSect) else ok s

/-- LOAD_SOURCE_ERROR (R531): a tender's RANGE truncates, any other error answer is SRCERR. -/
def execLoadSourceError (range : Bool) (s : State) : Res :=
  if s.fld CFG_STATE_STATE 0 == 2 then ok (if range then s.loadFail 2 s.loadSect else s.loadFail 8 0xFFFF) else ok s

/-! ### The CFG port (R519, R520) -/

/-- Bytes from samples of CFG_DQ[3:0]: the high nibble first (R519). -/
def nibbleBytes : List (Fin 16) → List Nat
  | a :: b :: r => (a.val * 16 + b.val) :: nibbleBytes r
  | _ => []

/-- The bytes that a part of the stream brings, `first` for its beginning: whole bytes from the host or a tender, samples from flash, of which a follower ignores those of the first 48 edges
(R520). A source gives nothing in the other's form. -/
def State.streamBytes (s : State) (x : LoadIn) (first : Bool) : List Nat :=
  let src := s.fld CFG_STATE_SRC 0
  match x with
  | .bytes l => if src < 2 then l.map BitVec.toNat else []
  | .edges l => if src < 2 then [] else nibbleBytes (if first && src == 3 then l.drop 48 else l)

/-! ### Header (R505, R516, R525) -/

/-- The code of the first header check that fails, 0 when all pass (R525). -/
def State.headerCode (s : State) (h : List Nat) : Nat :=
  let at_ := fun o n => leNat ((h.drop o).take n)
  let flags := at_ 9 1
  let enc := flags % 2 == 1
  let keysrc := bitsOf flags 1 1 == 1
  let nsect := at_ 0x0A 2
  let len := at_ 0x10 8
  if at_ 0 4 != 0xC0A57A9E || at_ 4 2 != 1 || at_ 0x3C 4 != crc32c (h.take 0x3C) || flags / 4 != 0 || at_ 0x24 24 != 0 || nsect == 0 ||
      len % 16 != 0 || decide (len < 80 + 16 * nsect + 16 * b2n enc) then 3
  else if at_ 6 2 != s.fld DEV_ID_DEVCODE 0 || at_ 8 1 != s.fld DEV_ID_STEPL 0 * 16 + s.fld DEV_ID_STEPD 0 then 1
  else if (enc && !(if keysrc then s.flag KEY_STATUS_RAMVALID 0 else s.flag KEY_STATUS_FUSEKEY 0)) ||
      (!enc && s.flag KEY_POLICY_ENCREQ 0) || (keysrc && s.flag KEY_POLICY_FUSEONLY 0) then 6
  else 0

/-- LOAD_HEADER (R525): 64 bytes, once a load. -/
def execLoadHeader (hdr : LoadIn) (s : State) : Res :=
  let h := s.streamBytes hdr true
  if s.fld CFG_STATE_STATE 0 != 2 || s.load.headed || h.length != 64 then ok s
  else
    let at_ := fun o n => leNat ((h.drop o).take n)
    let code := s.headerCode h
    if code != 0 then ok ((s.setFld CFG_BYTES_BYTES 0 0 64).loadFail code 0xFFFF)
    else
      let l : LoadS := { headed := true, enc := at_ 9 1 % 2 == 1, keyRam := bitsOf (at_ 9 1) 1 1 == 1, nsect := at_ 0x0A 2, imgid := at_ 0x0C 4,
                         length := at_ 0x10 8, iv := at_ 0x18 12, header := h, pos := 64 }
      ok ({ s with load := l }.setFld CFG_BYTES_BYTES 0 0 64)

/-! ### Sections (R506 to R510, R526) -/

/-- The key that the load decrypts with (R514). -/
def State.loadKey (s : State) : Nat := if s.load.keyRam then s.keyRam else s.fuseKey

/-- Plaintext of the next bytes of the stream (R512). -/
def State.decrypt (s : State) (raw : List Nat) : List Nat :=
  if s.load.enc then raw.zipIdx.map (fun (b, i) => (b ^^^ (Config.gcmStream s.loadKey s.load.iv (s.load.pos - 64 + i) % 256)) % 256) else raw

/-- Body size that Table 13.3 gives a section, none where its arguments lie outside their ranges (R507). -/
def sectionBody (typ car a0 a1 : Nat) : Option Nat :=
  match typ with
  | 1 => if car == 0 && a0 == 0 && a1 == 0 then some 16 else none
  | 2 => if car < 4 && 1 ≤ a1 && a0 < 40960 && a0 + a1 ≤ 40960 then some (a1 * 768) else none
  | 3 => if car < 4 && 1 ≤ a1 && a0 < 1024 && a0 + a1 ≤ 1024 then some (a1 * 4608) else none
  | 4 => if car < 4 && 1 ≤ a1 && a1 ≤ 256 && bitsOf a0 16 16 == 0 && bitsOf a0 8 8 + a1 ≤ 256 then some (a1 * 16) else none
  | 5 => if car == 0 && 1 ≤ a1 && a1 ≤ 1024 && bitsOf a0 7 9 == 0 && bitsOf a0 26 6 == 0 && a0 % 32 < 24 && bitsOf a0 16 10 + a1 ≤ 1024 then
      some (a1 * 16) else none
  | 6 => if car < 4 && a0 == 0 && 1 ≤ a1 && a1 ≤ 4096 then some (16 * ceilDiv a1 2) else none
  | _ => none

/-- Whether the bytes of a body that Table 13.3 names zero are zero (R507). -/
def bodyPadOk (typ a1 : Nat) (body : List Nat) : Bool :=
  if typ == 1 then body.getD 0 0 / 4 == 0 && (body.drop 2).all (· == 0)
  else if typ == 6 then (body.drop (8 * a1)).all (· == 0)
  else true

/-- Apply a taken section (R510, R526); the Nat is the code of a failure, 0 for none. -/
def State.applySection (s : State) (typ car a0 a1 : Nat) (body : List Nat) : Nat × State :=
  let item := fun i n => (body.drop (i * n)).take n
  match typ with
  | 1 =>
    let b := body.getD 0 0
    (0, { s with load := { s.load with device := some (b % 2 == 1, bitsOf b 1 1 == 1, body.getD 1 0) } })
  | 2 => (0, s.updFab car (fun f => { f with frames := (List.range a1).foldl (fun m i =>
      mset [] m (a0 + i) (if (item i 768).all (· == 0) then [] else item i 768)) f.frames }))
  | 3 => (0, s.updFab car (fun f => { f with ram := (List.range (a1 * 512)).foldl (fun m i =>
      let w := leNat (item i 9)
      (List.range 8).foldl (fun m j => mset 0 m ((a0 * 512 + i) * 8 + j) (bitsOf w (9 * j) 9)) m) f.ram }))
  | 4 =>
    let aside := match s.load.device with | some d => d.2.1 | none => false
    (List.range a1).foldl (fun (r : Nat × State) i =>
      if r.1 != 0 then r
      else
        let e := item i 16
        let w := fun j => leNat ((e.drop (4 * j)).take 4)
        let q := r.2.routeWriteAs aside (car * 256 + a0 % 256) (bitsOf a0 8 8 + i) (w 0) (w 1) (w 2) (w 3)
        (if q.1 != 0 then 7 else 0, q.2)) (0, s)
  | 5 =>
    match ordinalOf (a0 % 128) with
    | none => (3, s)
    | some k => (0, { s with seqMem := (List.range a1).foldl (fun m i => mset 0 m (k * 1024 + bitsOf a0 16 10 + i) (leNat (item i 16))) s.seqMem })
  | _ =>
    (List.range a1).foldl (fun (r : Nat × State) i =>
      if r.1 != 0 then r
      else
        let e := item i 8
        let off := leNat (e.take 4)
        let v := leNat (e.drop 4)
        match imageFields car off with
        | none => (3, r.2)
        | some _ => (0, { r.2.imageReg car off v with load := { r.2.load with regs := r.2.load.regs ++ [(car, off, v)] } })) (0, s)

/-- LOAD_SECTION (R506 to R510, R526): the next whole section of the stream. -/
def execLoadSection (raw : LoadIn) (s : State) : Res :=
  let raw := s.streamBytes raw false
  if s.fld CFG_STATE_STATE 0 != 2 || !s.load.headed || decide (s.load.nsect ≤ s.load.sect) || raw.length < 16 then ok s
  else
    let bytes := s.decrypt raw
    let at_ := fun o n => leNat ((bytes.drop o).take n)
    let typ := at_ 0 1
    let car := at_ 1 1
    let slot := at_ 2 2
    let n := at_ 4 4
    let a0 := at_ 8 4
    let a1 := at_ 12 4
    let body := bytes.drop 16
    let taken := slot == 0xFFFF || slot == s.fld CFG_SLOT_SLOT 0
    let got := s.setFld CFG_BYTES_BYTES 0 0 (s.load.pos + raw.length)
    if sectionBody typ car a0 a1 != some n || decide (s.load.length < s.load.pos + 16 + n + 16 + 16 * b2n s.load.enc) then ok (got.loadFail 3 s.load.sect)
    else if body.length != n then ok s
    else if !bodyPadOk typ a1 body || (taken && (typ == 1) == s.load.device.isSome) then ok (got.loadFail 3 s.load.sect)
    else
      let r := if taken then s.applySection typ car a0 a1 body else (0, s)
      if r.1 != 0 then ok ((r.2.setFld CFG_BYTES_BYTES 0 0 (s.load.pos + raw.length)).loadFail r.1 s.load.sect)
      else
        let l : LoadS := { r.2.load with sect := s.load.sect + 1, pos := s.load.pos + 16 + n, plain := s.load.plain ++ bytes,
                                         cipher := s.load.cipher ++ raw }
        ok ({ r.2 with load := l }.setFld CFG_BYTES_BYTES 0 0 l.pos)

/-! ### Trailer (R511, R527, R528) -/

/-- R439, R528: set the coupler's designation; a change takes down every link that uses local lanes 20 to 23. -/
def State.setCoupler (s : State) (cpl : Bool) : State :=
  let changed := cpl != s.couplerAside
  let s0 := if changed then
      let t := [5, 11, 17, 23].foldl (fun t l => t.linkDown l 5) s
      if s.couplerAside then [24, 25].foldl (fun t l => t.linkDown l 5) t else t
    else s
  let s1 := { s0 with couplerAside := cpl }
  let s2 := (List.range 4).foldl (fun t c => t.setFlag LNK_CTL_CPL c 20 cpl) s1
  [0, 2].foldl (fun t c => t.setFlag LNK_CTL_CPL c 22 cpl) s2

/-- R496: judge a carriage's I/O bank voltage. -/
def State.judgeBank (s : State) (c : Nat) : State :=
  let v := bitsOf s.vsense c 1
  s.setFlds c 0 [(IOB_BANK_VSENSE, v), (IOB_BANK_VERR, b2n (s.fld IOB_BANK_VSEL c != v))]

/-- R527: every check has passed: settings apply and the release starts in all four carriages. -/
def State.loadAccept (s : State) (ilv cpl : Bool) (partmap : Nat) : State :=
  let s1 := (List.range 8).foldl (fun t n => t.setFlag HBM_CTL_ILV (n / 2) (n % 2) ilv) s
  let s2 := (s1.setCoupler cpl).setFlds 0 0 [(CFG_IMGID_IMGID, s.load.imgid), (CFG_PARTMAP_PARTMAP, partmap), (CFG_STATE_STATE, 4)]
  let s3 := { s2 with keptRegs := s.load.regs }
  (List.range 4).foldl (fun t c =>
    ((t.setFld FAB_STATE_LOADED c 0 1).judgeBank c).updFab c (fun f => { f with release := true, cfg := Config.fabric f.frames })) s3

/-- LOAD_TRAILER (R511, R527): the trailer, with the tag when ENC = 1, after the last section. -/
def execLoadTrailer (raw tag : LoadIn) (s : State) : Res :=
  let l := s.load
  let c := s.streamBytes raw false
  let tag := s.streamBytes tag false
  if s.fld CFG_STATE_STATE 0 != 2 || !l.headed || l.sect != l.nsect || c.length != 16 || (l.enc && tag.length != 16) then ok s
  else
    let t := s.decrypt c
    let at_ := fun o n => leNat ((t.drop o).take n)
    let s1 := s.setFlds 0 0 [(CFG_STATE_STATE, 3), (CFG_BYTES_BYTES, l.length)]
    let s2 := if s.fld CFG_STATE_SRC 0 == 2 then s1.emit (.pin "CFG_CS_N" 1) else s1
    match l.device with
    | none => ok (s2.loadFail 3 0xFFFF)
    | some (ilv, cpl, pm) =>
      if l.pos + 16 + 16 * b2n l.enc != l.length then ok (s2.loadFail 3 0xFFFF)
      else if l.enc && Config.gcmTag s.loadKey l.iv l.header (l.cipher ++ c) != leNat tag then ok (s2.loadFail 4 0xFFFF)
      else if at_ 0 4 != 0x5E1DC0A5 || at_ 4 2 != l.nsect || at_ 12 4 != crc32c (l.plain ++ t.take 12) then ok (s2.loadFail 5 0xFFFF)
      else if at_ 6 6 != 0 then ok (s2.loadFail 3 0xFFFF)
      else ok (s2.loadAccept ilv cpl pm)

/-! ### The key RAM (R515, R687) -/

/-- Whether writes to the key RAM are refused. -/
def State.keyLocked (s : State) : Bool :=
  let st := s.fld CFG_STATE_STATE 0
  s.flag KEY_CTL_RAMLOCK 0 || st == 2 || st == 3

/-- KEY_RAM_LOCK (R515). -/
def execKeyRamLock (s : State) : Res := s.regEvent KEY_CTL_RAMLOCK 0 0 .keyRamLock fun s => ok (s.setFlag KEY_CTL_RAMLOCK 0 0 true)

/-- The 256-bit number in eight data registers. -/
def State.words8 (s : State) (f : Fld) : Nat := ((List.range 8).map (fun i => s.fld f 0 i * 2 ^ (32 * i))).foldl (· + ·) 0

/-- Set eight data registers to zero. -/
def State.zero8 (s : State) (f : Fld) : State := (List.range 8).foldl (fun t i => t.setFld f 0 i 0) s

/-- KEY_RAM_COMMIT (R515). -/
def execKeyRamCommit (s : State) : Res := s.regEvent KEY_CTL_RAMCOMMIT 0 0 .keyRamCommit fun s =>
  if s.keyLocked then ok s
  else ok (({ s with keyRam := s.words8 KEY_RAMDATA_DATA }.setFlds 0 0 [(KEY_STATUS_RAMVALID, 1), (KEY_CTL_RAMCOMMIT, 0)]).zero8 KEY_RAMDATA_DATA)

/-- KEY_RAM_CLEAR (R515). -/
def execKeyRamClear (s : State) : Res := s.regEvent KEY_CTL_RAMCLEAR 0 0 .keyRamClear fun s =>
  if s.keyLocked then ok s
  else ok ({ s with keyRam := 0 }.setFlds 0 0 [(KEY_STATUS_RAMVALID, 0), (KEY_CTL_RAMCLEAR, 0)])

/-- VBAT_LOW (R515, R687): the key RAM is cleared. -/
def execVbatLow (s : State) : Res := ok ({ s with keyRam := 0 }.setFlds 0 0 [(KEY_STATUS_RAMVALID, 0), (KEY_STATUS_VBATOK, 0)])

end Sys2Proof.Machine
end

