-- ==== Sys2Proof/Machine/Operands.lean ====
section
/-! DEFINITION. Operand forms of the coach: instruction fields and their issue checks (R190, R192 to R203,
R209, R222 to R224), regions and rows (R155, R167), element layouts in the coach store (R72, R156, R229) and
reads and writes through a stream's consumer half (R259). -/

namespace Sys2Proof.Machine

/-! ### Units and opcodes (Tables 4.5, 4.8 and 5.4) -/

/-- The opcodes of Tables 4.8 and 5.4. -/
def knownOps : List Nat :=
  [0x00, 0x01, 0x02, 0x03, 0x04, 0x05, 0x06, 0x07, 0x08, 0x09, 0x0A, 0x0B, 0x0C, 0x0F,
   0x40, 0x41, 0x42, 0x43, 0x44, 0x48, 0x49, 0x4A, 0x4B, 0x4C, 0x4D, 0x4E, 0x4F,
   0x50, 0x51, 0x52, 0x53, 0x54, 0x55, 0x56, 0x58, 0x59, 0x5A, 0x5C, 0x5D, 0x5E, 0x60, 0x61, 0x62, 0x68, 0x69]

/-- Opcode of an instruction. -/
def opOf (w : Nat) : Nat := fieldOf w 0 0 8

/-- The unit of an opcode; none for the control instructions (Table 4.5). -/
def unitOf (op : Nat) : Option SeqUnit :=
  if op == 1 || op == 2 || op == 3 then some .array
  else if op == 4 || op == 5 || op == 6 then some .bank
  else if 0x40 ≤ op && op ≤ 0x7F then some .vector else none

/-- Queue depth of a unit (Table 4.5, R218). -/
def queueDepth : SeqUnit → Nat
  | .array => 16 | .bank => 8 | .vector => 16

/-- The counting instructions (R184, Table 5.4). -/
def counting (op : Nat) : Bool :=
  [0x01, 0x03, 0x04, 0x05, 0x40, 0x41, 0x48, 0x49, 0x4A, 0x4B, 0x4C, 0x4D, 0x4E, 0x4F, 0x50, 0x51, 0x52, 0x53,
   0x54, 0x55, 0x56, 0x58, 0x59, 0x5A, 0x5C, 0x5D, 0x5E, 0x62].contains op

/-! ### Fields an instruction uses; every other bit is RSVD (R190, R222) -/

/-- Fields in every instruction: OP, CLOSE, STATSEL, FENCE. -/
def baseFields : List (Nat × Nat × Nat) := [(0, 0, 8), (0, 8, 1), (0, 9, 2), (0, 11, 1)]

/-- Fields (word, lowest bit, width) of each opcode beyond the common ones. -/
def opFields (op w : Nat) : List (Nat × Nat × Nat) :=
  let stage := (0, 29, 3)
  let fmt := (0, 16, 5)
  let p := (0, 21, 1)
  let vd := (0, 22, 6)
  let va := (1, 0, 6)
  let vb := (1, 8, 6)
  let vc := (1, 16, 6)
  match op with
  | 0x01 => [fmt, (0, 21, 1), (0, 22, 1), (0, 23, 3), (1, 0, 23), (2, 0, 23), (3, 0, 7), (3, 8, 7), (3, 16, 16)]
  | 0x03 => [(0, 12, 4), fmt, (0, 21, 1), (0, 22, 1), (0, 23, 3), (1, 0, 23), (2, 0, 23), (3, 0, 8), (3, 8, 8), (3, 16, 7), (3, 24, 8)]
  | 0x04 => [(0, 12, 4), fmt, (0, 21, 1), (0, 22, 1), (0, 23, 1), (0, 24, 3), (1, 0, 23), (3, 0, 8), (3, 8, 8), (3, 16, 11)]
  | 0x05 => [(0, 12, 4), fmt, (0, 21, 1), (0, 22, 1), (0, 23, 3), (1, 0, 23), (2, 0, 23), (2, 24, 7), (3, 0, 8), (3, 8, 8), (3, 16, 11)]
  | 0x06 => [(0, 12, 4), (0, 21, 1), (0, 22, 1), (1, 0, 23), (2, 0, 8), (2, 8, 8), (2, 16, 4), (2, 20, 1), (3, 0, 8), (3, 8, 8)]
  | 0x07 => [(0, 21, 3)]
  | 0x08 => [(0, 21, 4), (1, 0, 16)]
  | 0x09 => [(1, 0, 4)]
  | 0x0A => [(0, 21, 2), (1, 0, 23)]
  | 0x0B => [(0, 21, 2), (1, 0, 32)]
  | 0x0C => [(0, 21, 2), (1, 0, 10)]
  | 0x40 => [stage, fmt, p, vd, (2, 0, 23), (2, 24, 8), (3, 0, 1)] ++
            (if fieldOf w 3 0 1 == 1 then [(3, 1, 3), (3, 8, 24)] else [(3, 4, 19)])
  | 0x41 => [stage, fmt, p, va, (2, 0, 23), (2, 24, 8), (3, 0, 1)] ++
            (if fieldOf w 3 0 1 == 1 then [(3, 1, 3), (3, 8, 24)] else [(3, 4, 19)])
  | 0x42 => [stage, p, vd, va]
  | 0x43 => [stage, vd, (2, 0, 32)]
  | 0x44 => [stage, (1, 0, 16), (1, 16, 3), (1, 19, 13), (2, 0, 23), (3, 0, 21), (3, 21, 1)]
  | 0x48 | 0x49 | 0x4A | 0x4D | 0x4E => [stage, p, vd, va, vb]
  | 0x4B | 0x4C => [stage, p, vd, va, vb, vc]
  | 0x4F => [stage, p, vd, va]
  | 0x50 | 0x51 | 0x52 | 0x53 | 0x54 | 0x55 | 0x56 => [stage, p, vd, va]
  | 0x58 => [stage, vd, va, (1, 25, 1), (1, 28, 4)]
  | 0x59 => [stage, fmt, p, va, (2, 0, 23), (3, 4, 19)]
  | 0x5A => [stage, p, va, (1, 16, 11), (2, 0, 23), (3, 4, 19)]
  | 0x5C => [stage, p, vd, va, (1, 26, 1)]
  | 0x5D | 0x5E => [stage, p, vd, va, (1, 26, 1), (1, 27, 1), (2, 0, 32)]
  | 0x60 | 0x61 => [stage, va, vb, (1, 22, 3), (1, 26, 1), (1, 27, 1), (2, 0, 5)]
  | 0x62 => [stage, vd, (1, 22, 3), (1, 25, 1), (1, 28, 4)]
  | 0x68 => [stage, (1, 0, 3), (2, 0, 32)]
  | 0x69 => [stage]
  | _ => []

/-- The bits an instruction uses. -/
def usedMask (w : Nat) : Nat :=
  (baseFields ++ opFields (opOf w) w).foldl (fun m f => m ||| ((2 ^ f.2.2 - 1) <<< (32 * f.1 + f.2.1))) 0

/-- Whether a RSVD bit of the instruction is set (R190). -/
def rsvdSet (w : Nat) : Bool := (w % 2 ^ 128) &&& usedMask w != w % 2 ^ 128

/-! ### Common fields -/

/-- CLOSE (Table 4.7). -/
def iClose (w : Nat) : Bool := fieldOf w 0 8 1 == 1
/-- STATSEL. -/
def iStatSel (w : Nat) : Nat := fieldOf w 0 9 2
/-- FENCE. -/
def iFence (w : Nat) : Bool := fieldOf w 0 11 1 == 1
/-- FMT. -/
def iFmt (w : Nat) : Nat := fieldOf w 0 16 5
/-- The selected arrays in ascending order (ARRMASK; R155). -/
def iArrays (w : Nat) : List Nat := (List.range 4).filter (fun a => fieldOf w 0 (12 + a) 1 == 1)
/-- M of PASS, DRAIN, QUANT and REDUCE. -/
def iM (w : Nat) : Nat := fieldOf w 3 0 8 + 1
/-- ROW0 of PASS, DRAIN, QUANT and a REDUCE with a bank source. -/
def iRow0 (w : Nat) : Nat := fieldOf w 3 8 8
/-- ZOFF of DRAIN and QUANT, two's complement. -/
def iZoff (w : Nat) : Int := toSigned 11 (fieldOf w 3 16 11)
/-- P of a vector instruction: an F64 pair. -/
def iP (w : Nat) : Bool := fieldOf w 0 21 1 == 1
/-- VD, VA, VB, VC (Table 5.3). -/
def iVd (w : Nat) : Nat := fieldOf w 0 22 6
def iVa (w : Nat) : Nat := fieldOf w 1 0 6
def iVb (w : Nat) : Nat := fieldOf w 1 8 6
def iVc (w : Nat) : Nat := fieldOf w 1 16 6
/-- STAGE (R249). -/
def iStage (w : Nat) : Nat := fieldOf w 0 29 3
/-- SCALED of a format selector. -/
def selScaled (sel : Nat) : Bool := bitsOf sel 4 1 == 1
/-- Width in bits of a selector's format, 0 where the code is reserved. -/
def selWidth (sel : Nat) : Nat := match fmtOfCode (bitsOf sel 0 4) with | some f => f.width | none => 0

/-- Whether the instruction's stream field names a stream: (uses a stream as source, stream), R192, R195. -/
def srcStream (w : Nat) : Option Nat :=
  if (opOf w == 1 || opOf w == 3) && fieldOf w 0 22 1 == 1 then some (fieldOf w 0 23 3) else none

/-- The stream an instruction writes (R196, R198). -/
def dstStream (w : Nat) : Option Nat :=
  if opOf w == 4 && fieldOf w 0 23 1 == 1 then some (fieldOf w 0 24 3)
  else if opOf w == 5 && fieldOf w 0 22 1 == 1 then some (fieldOf w 0 23 3) else none

/-- Width in bits that an access takes under a selector which R60 calls a host error: that of its format, 64 where the code is reserved
(log 11). -/
def hostWidth (sel : Nat) : Nat := match fmtOfCode (bitsOf sel 0 4) with | some f => f.width | none => 64

/-- Bytes of one source row of 128 elements (R156). -/
def rowBytes (sel : Nat) : Nat := selWidth sel * 16

/-- Source rows a LOADW reads: KN, or NN when it reads through the transposing port (R192, R194). -/
def loadwRows (w : Nat) : Nat := if fieldOf w 0 21 1 == 1 then fieldOf w 3 8 7 + 1 else fieldOf w 3 0 7 + 1

/-! ### The issue check (R209, R224) -/

/-- The coach-store ranges (start, length) an instruction names; the check of R209 takes a tally DRAIN at its
greatest length, and the model takes the tallies of a REDUCE at their least (log 99). -/
def storeRanges (w : Nat) : List (Nat × Nat) :=
  let sel := iFmt w
  let rb := rowBytes sel
  let rows := (iArrays w).length * iM w
  let e1 := fieldOf w 1 0 23
  let e2 := fieldOf w 2 0 23
  let vsa := fieldOf w 3 4 19 * 16
  match opOf w with
  | 0x01 =>
    if (srcStream w).isSome then [] else
      let step := if fieldOf w 3 16 16 == 0 then rb else fieldOf w 3 16 16 * 16
      [(e1, (loadwRows w - 1) * step + rb)] ++ (if selScaled sel then [(e2, 512)] else [])
  | 0x03 =>
    if (srcStream w).isSome || rows == 0 then [] else
      let step := if fieldOf w 3 24 8 == 0 then rb else fieldOf w 3 24 8 * 16
      [(e1, (rows - 1) * step + rb)] ++ (if selScaled sel then [(e2, 4 * rows)] else [])
  | 0x04 =>
    if (dstStream w).isSome then [] else
      [(e1, if fieldOf w 0 21 1 == 1 then 16 + rows * 128 * 80 else rows * 16 * selWidth sel)]
  | 0x05 => if (dstStream w).isSome then [] else [(e1, rows * rb), (e2, 4 * rows)]
  | 0x06 => if fieldOf w 0 21 1 == 1 then [(e1, 16 + rows * 128 * 16)] else []
  | 0x40 | 0x41 =>
    if fieldOf w 3 0 1 == 1 then [] else
      let gb := selWidth sel * 4
      let gs := fieldOf w 2 24 8
      [(e2, if gs == 0 then 16 * gb else 15 * gs * 16 + gb)] ++ (if selScaled sel then [(vsa, 16)] else [])
  | 0x59 => [(e2, 64 * selWidth sel), (vsa, 16)]
  | 0x5A => [(e2, 7 * 512), (vsa, 7 * 16)]
  | _ => []

/-- Address fields of Tables 4.9 to 4.14 and of Table 5.3, whose bits [3:0] are zero (R209 checks each instruction): every one that the
instruction has, but for those of a LOADW from a stream, which ignores them (R193), of a VLD or VST with CIRC = 1, which goes by its
descriptors (R232), and the one of a REDUCE from the bank, which has none (log 99). -/
def alignedAddrs (w : Nat) : List Nat :=
  match opOf w with
  | 0x01 => if (srcStream w).isSome then [] else [fieldOf w 1 0 23, fieldOf w 2 0 23]
  | 0x03 | 0x05 => [fieldOf w 1 0 23, fieldOf w 2 0 23]
  | 0x04 => [fieldOf w 1 0 23]
  | 0x06 => if fieldOf w 0 21 1 == 1 then [fieldOf w 1 0 23] else []
  | 0x0A => [fieldOf w 1 0 23]
  | 0x40 | 0x41 => if fieldOf w 3 0 1 == 1 then [] else [fieldOf w 2 0 23]
  | 0x59 | 0x5A => [fieldOf w 2 0 23]
  | _ => []

/-- Register names that a vector instruction uses as F64 pairs (R224). -/
def pairNames (w : Nat) : List Nat :=
  let sk := fieldOf w 1 28 2
  let dk := fieldOf w 1 30 2
  match opOf w with
  | 0x40 => if iP w then [iVd w] else []
  | 0x41 | 0x59 => if iP w then [iVa w] else []
  | 0x42 | 0x4F => if iP w then [iVd w, iVa w] else []
  | 0x48 | 0x49 | 0x4A | 0x4D | 0x4E => if iP w then [iVd w, iVa w, iVb w] else []
  | 0x4B | 0x4C => if iP w then [iVd w, iVa w, iVb w, iVc w] else []
  | 0x58 => (if sk == 1 then [iVa w] else []) ++ (if dk == 1 then [iVd w] else [])
  | 0x5A => [iVa w]
  | _ => []

/-- Further causes of BADFIELD: excluded field values and the selector rules of R209 and R224. -/
def badValues (w : Nat) : Bool :=
  let sel := iFmt w
  let zbad := fieldOf w 3 16 11 == 1024
  match opOf w with
  | 0x01 => fieldOf w 0 21 1 == 1 && bitsOf sel 0 4 == 0
  | 0x03 => decide (iRow0 w + iM w > 256)
  | 0x04 => decide (iRow0 w + iM w > 256) || zbad || selScaled sel || (fieldOf w 0 21 1 == 1 && sel != 0)
  | 0x05 => decide (iRow0 w + iM w > 256) || zbad || !selScaled sel
  | 0x06 => decide (fieldOf w 2 8 8 + iM w > 256) || (fieldOf w 0 21 1 == 0 && decide (iRow0 w + iM w > 256))
  | 0x40 => (selScaled sel && fieldOf w 3 0 1 == 1) || (bitsOf sel 0 4 == 8 && iP w)
  | 0x41 => selScaled sel || (bitsOf sel 0 4 == 8 && iP w)
  | 0x50 | 0x51 | 0x52 | 0x53 | 0x54 | 0x55 | 0x56 | 0x5C | 0x5D | 0x5E => iP w
  | 0x58 => fieldOf w 1 28 2 == 3 || fieldOf w 1 30 2 == 3 || fieldOf w 1 28 2 == fieldOf w 1 30 2
  | 0x59 => !(selScaled sel && (bitsOf sel 0 4 == 0 || bitsOf sel 0 4 == 1 || bitsOf sel 0 4 == 3)) || (bitsOf sel 0 4 == 8 && iP w)
  | 0x5A => !iP w || fieldOf w 1 16 11 == 1024
  | _ => false

/-- R209 and R224: whether a known instruction fails its issue check. -/
def badField (w : Nat) : Bool :=
  rsvdSet w || badValues w || (alignedAddrs w).any (fun a => a % 16 != 0) ||
    (storeRanges w).any (fun r => decide (r.1 + r.2 > storeSize)) || (pairNames w).any (fun n => n % 2 == 1)

/-! ### Elements in memory -/

/-- Element codes of a run of bytes (R72): S4 two to a byte, the even element in the low half. -/
def unpackElems (width : Nat) (bs : List Nat) : List Nat :=
  if width == 4 then (bs.map (fun b => [b % 16, b / 16 % 16])).flatten
  else (chunks (width / 8) bs).map leNat

/-- Bytes of element codes. -/
def packElems (width : Nat) (cs : List Nat) : List Nat :=
  if width == 4 then (chunks 2 cs).map (fun c => c.getD 0 0 % 16 + 16 * (c.getD 1 0 % 16))
  else (cs.map (leBytes (width / 8))).flatten

/-! ### Consumer half of a stream (R256, R259) -/

/-- Bytes in one half of stream `n`. -/
def State.halfSize (s : State) (k n : Nat) : Nat := s.fld STR_HALF_HALF k n * 4096

/-- Coach-store address of the consumer half. -/
def State.consBase (s : State) (k n : Nat) : Nat :=
  s.fld STR_BUF_BASE k n * 4096 + s.fld STR_STATE_CONS k n * s.halfSize k n

/-- Coach-store address of the transfer half. -/
def State.xferBase (s : State) (k n : Nat) : Nat :=
  s.fld STR_BUF_BASE k n * 4096 + (1 - s.fld STR_STATE_CONS k n) * s.halfSize k n

/-- A stream's bookkeeping. -/
def State.strm (s : State) (k n : Nat) : Strm := mget {} (s.coach k).strm n

/-- Change a stream's bookkeeping. -/
def State.updStrm (s : State) (k n : Nat) (f : Strm → Strm) : State :=
  s.updCoach k (fun c => { c with strm := mupd {} c.strm n f })

/-- Read `len` bytes of the consumer half at `pos`. A byte beyond those the half received is a free value
(R259: an unpredictable result). -/
def State.halfRead (s : State) (k n pos len : Nat) : List Nat × State :=
  let got := (s.strm k n).recv - pos
  if len ≤ got then (s.storeRead k (s.consBase k n + pos) len, s)
  else
    let r := s.draws 8 (len - got)
    (s.storeRead k (s.consBase k n + pos) got ++ r.1, r.2)

/-- Reserve the next `len` bytes of the consumer half for an instruction that starts (R259: in order). -/
def State.reserve (s : State) (k n len : Nat) : Nat × State :=
  ((s.strm k n).resv, s.updStrm k n (fun t => { t with resv := t.resv + len }))

/-- Advance the consume pointer by bytes read (R259). -/
def State.consume (s : State) (k n len : Nat) : State := s.updStrm k n (fun t => { t with cons := t.cons + len })

/-- `n` bytes of the coach store from `a`, cut at its end, take free values (R8). -/
def State.freeStore (s : State) (k a n : Nat) : State :=
  let r := s.draws 8 (min n (storeSize - a))
  r.2.storeWrite k a r.1

/-- Bytes that an instruction may write to the consumer half (R259): the half's, and of an outbound stream none beyond offset L. -/
def State.halfRoom (s : State) (k n : Nat) : Nat :=
  let t := s.strm k n
  if s.fld STR_CFG_DIR k n == 0 then s.halfSize k n else min (s.halfSize k n) (t.len - (t.shareOff + t.share))

/-- Write bytes to the consumer half from its produce pointer (R259). A write that passes the half's end or offset L is unpredictable:
every byte of the half then takes a free value (log 4). -/
def State.halfWrite (s : State) (k n : Nat) (bs : List Nat) : State :=
  let p := (s.strm k n).prod
  let s1 := if decide (p + bs.length ≤ s.halfRoom k n) then s.storeWrite k (s.consBase k n + p) bs
    else s.freeStore k (s.consBase k n) (s.halfSize k n)
  s1.updStrm k n (fun t => { t with prod := t.prod + bs.length })

/-! ### Spans of an instruction in the coach store (R181) -/

/-- `n` rows of `len` bytes, `step` bytes apart: one span where they lie back to back. -/
def spanRows (a n step len : Nat) : List (Nat × Nat) :=
  if step == len then [(a, n * len)] else (List.range n).map (fun j => (a + j * step, len))

/-- The groups' spans of a VLD or VST with CIRC = 0 (R229). -/
def groupSpans (w : Nat) : List (Nat × Nat) :=
  let gb := hostWidth (iFmt w) * 4
  let gs := fieldOf w 2 24 8
  spanRows (fieldOf w 2 0 23) 16 (if gs == 0 then gb else gs * 16) gb

/-- The whole buffers that a VLD or VST with CIRC = 1 goes through. -/
def State.circSpans (s : State) (k w : Nat) : List (Nat × Nat) :=
  (List.range 16).map (fun g => let d := 8 * g + fieldOf w 3 1 3; (s.fld VEC_CBBASE_BASE k d * 16, s.fld VEC_CBLEN_LEN k d))

/-- Coach-store spans that an instruction reads, a stream's halves apart. -/
def State.readSpans (s : State) (k w : Nat) : List (Nat × Nat) :=
  let rb := rowBytes (iFmt w)
  let rows := (iArrays w).length * iM w
  let scales := fun (n : Nat) => if selScaled (iFmt w) then [(fieldOf w 2 0 23, n)] else []
  let step := fun (st : Nat) => if st == 0 then rb else st * 16
  match opOf w with
  | 0x01 => if (srcStream w).isSome then [] else spanRows (fieldOf w 1 0 23) (loadwRows w) (step (fieldOf w 3 16 16)) rb ++ scales 512
  | 0x03 => if (srcStream w).isSome then [] else spanRows (fieldOf w 1 0 23) rows (step (fieldOf w 3 24 8)) rb ++ scales (4 * rows)
  | 0x06 => if fieldOf w 0 21 1 == 1 then [(fieldOf w 1 0 23, 16 + leNat (s.storeRead k (fieldOf w 1 0 23 + 4) 4))] else []
  | 0x40 =>
    if fieldOf w 3 0 1 == 1 then s.circSpans k w
    else groupSpans w ++ (if selScaled (iFmt w) then [(fieldOf w 3 4 19 * 16, 16)] else [])
  | _ => []

/-- Coach-store spans that an instruction writes, a stream's halves apart; a DRAIN of tallies at its greatest length. -/
def State.writeSpans (s : State) (k w : Nat) : List (Nat × Nat) :=
  let rows := (iArrays w).length * iM w
  match opOf w with
  | 0x04 =>
    if (dstStream w).isSome then []
    else [(fieldOf w 1 0 23, if fieldOf w 0 21 1 == 1 then 16 + rows * 128 * 80 else rows * 16 * hostWidth (iFmt w))]
  | 0x05 => if (dstStream w).isSome then [] else [(fieldOf w 1 0 23, rows * 16 * hostWidth (iFmt w)), (fieldOf w 2 0 23, 4 * rows)]
  | 0x41 => if fieldOf w 3 0 1 == 1 then s.circSpans k w else groupSpans w
  | 0x59 => [(fieldOf w 2 0 23, 64 * hostWidth (iFmt w)), (fieldOf w 3 4 19 * 16, 16)]
  | 0x5A => [(fieldOf w 2 0 23, 7 * 512), (fieldOf w 3 4 19 * 16, 7 * 16)]
  | _ => []

/-- The spans that two lists share. -/
def commonSpans (xs ys : List (Nat × Nat)) : List (Nat × Nat) :=
  (xs.map (fun x => (ys.map (fun y => (max x.1 y.1, min (x.1 + x.2) (y.1 + y.2) - max x.1 y.1))).filter (fun z => decide (0 < z.2)))).flatten

/-- Bytes of these spans take free values. -/
def State.freeSpans (s : State) (k : Nat) (l : List (Nat × Nat)) : State := l.foldl (fun t z => t.freeStore k z.1 z.2) s

end Sys2Proof.Machine
end

