-- ==== Sys2Proof/Machine/Flags.lean ====
section
/-! DEFINITION. Counts, sticky flags, tile flags and the numeric status record (R86 to R93, R221). -/

namespace Sys2Proof.Machine

/-- The operation numbered `seq` among those of a coach. -/
def findOp (ops : List Opn) (seq : Nat) : Option Opn := ops.find? (fun o => o.seq == seq)

/-- Change the operation numbered `seq`. -/
def mapOp (ops : List Opn) (seq : Nat) (f : Opn → Opn) : List Opn := ops.map (fun o => if o.seq == seq then f o else o)

/-- Change an operation of a coach. -/
def State.updOp (s : State) (k : Nat) (seq : Option Nat) (f : Opn → Opn) : State :=
  match seq with
  | none => s
  | some q => s.updCoach k (fun c => { c with ops := mapOp c.ops q f })

/-- The mode an instruction works under: the NUMCTL its operation latched (R185), or the register's value for one
that belongs to no operation. -/
def State.modeOf (s : State) (k : Nat) (seq : Option Nat) : NumMode :=
  match seq with
  | none => s.numMode k
  | some q => match findOp (s.coach k).ops q with | some o => o.mode | none => s.numMode k

/-- Add counts to an operation: its counters, the sticky flags and the running totals (R87 to R90, R93). -/
def State.count (s : State) (k : Nat) (seq : Option Nat) (sat flush nan : Nat) : State :=
  let s1 := s.updOp k seq (fun o => { o with sat := o.sat + sat, flush := o.flush + flush, nanBlk := o.nanBlk + nan })
  let s2 := if sat == 0 then s1 else (s1.setFlag NUMSTAT_SATURATED k 0 true).wrapAdd NUM_SATTOT_SATTOT k 0 sat
  let s3 := if flush == 0 then s2 else (s2.setFlag NUMSTAT_FLUSHED k 0 true).wrapAdd NUM_FLUSHTOT_FLUSHTOT k 0 flush
  if nan == 0 then s3 else (s3.setFlag NUMSTAT_NANBLOCK k 0 true).bump NUM_NANBLKTOT_NANBLKTOT k 0 nan

/-- Enter one element into a tile flag (R91): `v` before conversion, `gaveInf` its conversion gave an infinity. -/
def flagElem (t : TileFlag) (pos : Nat) (v : Val) (gaveInf : Bool) : TileFlag :=
  let isN := v.isNan
  let isInf := match v with | .inf _ => true | _ => gaveInf
  if isN || isInf then
    { nan := t.nan || isN, pinf := t.pinf || (!isN && !v.neg), ninf := t.ninf || (!isN && v.neg),
      first := match t.first with
        | none => some (pos, isN)
        | some (p, b) => if pos < p then some (pos, isN) else some (p, b) }
  else t

/-- The tile flag of a list of elements: positions, values and whether the conversion gave an infinity. -/
def flagElems (es : List (Nat × Val × Bool)) : TileFlag := es.foldl (fun t e => flagElem t e.1 e.2.1 e.2.2) {}

/-- Whether a tile is flagged. -/
def TileFlag.valid (t : TileFlag) : Bool := t.first.isSome

/-- Add an output tile to an operation, setting NUMSTAT.NANINF when it is flagged (R91, NUMSTAT). -/
def State.addTile (s : State) (k : Nat) (seq : Option Nat) (t : TileRec) : State :=
  let s1 := s.updOp k seq (fun o => { o with tiles := o.tiles ++ [t], sawNan := o.sawNan || t.flag.nan })
  if t.flag.valid then s1.setFlag NUMSTAT_NANINF k 0 true else s1

/-- Insert a tile into a list ordered by key, after equal keys. -/
def insertTile (t : TileRec) : List TileRec → List TileRec
  | [] => [t]
  | u :: us => if t.key < u.key then t :: u :: us else u :: insertTile t us

/-- Order of the tile flag words (R92, R221): memory tiles by output address, then register tiles in issue order. -/
def orderTiles (ts : List TileRec) : List TileRec :=
  (ts.filter (·.mem)).foldl (fun acc t => insertTile t acc) [] ++ ts.filter (fun t => !t.mem)

/-- A tile flag word (Table 2.10). -/
def tileWord (t : TileFlag) : Nat :=
  match t.first with
  | none => 0
  | some (p, isN) => p % 2 ^ 15 + 2 ^ 16 * b2n t.nan + 2 ^ 17 * b2n t.pinf + 2 ^ 18 * b2n t.ninf + 2 ^ 19 * b2n isN + 2 ^ 31

/-- The numeric status record (R92, R93, R221): at most 4,095 tile flag words. -/
def statusRecord (o : Opn) (trap : Bool) : List Nat :=
  let ts := orderTiles o.tiles
  let words := (ts.take 4095).map (fun t => tileWord t.flag)
  let anyNan := ts.any (fun t => t.flag.nan)
  let anyInf := ts.any (fun t => t.flag.pinf || t.flag.ninf)
  leBytes 4 o.seq ++ leBytes 4 (min o.sat 0xFFFFFFFF) ++ leBytes 4 (min o.flush 0xFFFFFFFF) ++
    leBytes 4 (min o.nanBlk 0xFFFF + 2 ^ 16 * words.length + 2 ^ 28 * b2n anyNan + 2 ^ 29 * b2n anyInf + 2 ^ 30 * b2n trap) ++
    (words.map (leBytes 4)).flatten

end Sys2Proof.Machine
end

