-- ==== Sys2Proof/Machine/Bank.lean ====
section
/-! DEFINITION. The accumulator bank with its spill region, and the bank unit's work: DRAIN, QUANT and the source
side of REDUCE (chapter 03, R122 to R132; chapter 04, R166 to R171, R196 to R202). -/

namespace Sys2Proof.Machine

/-- Index of entry (a, r, n) (R166). -/
def entryIx (a r n : Nat) : Nat := a * 32768 + r * 128 + n

/-- Whether a bank word is an entry in long form, and its slot (R130). -/
def spillSlot (w : Nat) : Option Nat := if bitsOf w 116 1 == 1 then some (bitsOf w 0 32) else none

/-- Coach-store address of a spill slot (R169). -/
def State.slotAddr (s : State) (k i : Nat) : Nat := s.fld ACC_SPILLBASE_BASE k * 16 + 80 * i

/-- Value and flags of a bank entry, from its word or from its slot (R123, R131). -/
def State.entryAcc (s : State) (k e : Nat) : Acc :=
  let w := s.bankWord k e
  match spillSlot w with
  | none => readShort w
  | some i => readLong ((chunks 16 (s.storeRead k (s.slotAddr k i) 80)).map leNat)

/-- Slots in use, as ACC_SPILLUSED shows them. -/
def State.setSpill (s : State) (k : Nat) (l : List Nat) : State :=
  (s.updCoach k (fun c => { c with spill := l })).setFld ACC_SPILLUSED_USED k 0 l.length

/-- Leave an entry at +0 with clear flags, freeing its slot (R170). -/
def State.clearEntry (s : State) (k e : Nat) : State :=
  let s1 := match spillSlot (s.bankWord k e) with
    | none => s
    | some i => s.setSpill k ((s.coach k).spill.filter (· != i))
  s1.setBankWord k e 0

/-- The lowest-numbered free slot, none when the region is full (R130, R171). -/
def State.freeSlot (s : State) (k : Nat) : Option Nat :=
  (List.range ((s.coach k).spill.length + 1)).find? (fun i => !(s.coach k).spill.contains i && decide (i < s.fld ACC_SPILLSLOTS_SLOTS k))

/-- Store a value in an entry (R130, R131): a spilled entry keeps its slot; a value that no longer fits a short
tally takes the lowest free slot and is counted in ACC_SPILLS. None when no slot is free (R171). -/
def State.putEntry (s : State) (k e : Nat) (a : Acc) : Option State :=
  let toBytes := ((longTally a).map (leBytes 16)).flatten
  match spillSlot (s.bankWord k e) with
  | some i => some (s.storeWrite k (s.slotAddr k i) toBytes)
  | none =>
    if fitsShort a.v then some (s.setBankWord k e (shortTally a))
    else match s.freeSlot k with
      | none => none
      | some i =>
        some ((((s.storeWrite k (s.slotAddr k i) toBytes).setBankWord k e (2 ^ 116 + i)).setSpill k
          (((s.coach k).spill.filter (· < i)) ++ [i] ++ ((s.coach k).spill.filter (fun j => decide (i < j))))).bump ACC_SPILLS_SPILLS k 0 1)

/-- Add a contribution to an entry (R129, R168); `fresh` adds it to zero instead (R158), freeing the slot first
(R170). None when it must spill and no slot is free: the entry is then as it was (R171). -/
def State.contribute (s : State) (k e : Nat) (fresh : Bool) (a : Acc) : Option State :=
  if fresh then (s.clearEntry k e).putEntry k e (Acc.add Acc.zero a)
  else s.putEntry k e (Acc.add (s.entryAcc k e) a)

/-! ### Regions -/

/-- The entries of row m of array j, in column order (R167). -/
def regionRow (arr row : Nat) : List Nat := (List.range 128).map (fun n => entryIx arr row n)

/-- (m, array) of a region in the order of R155. -/
def regionOrder (w : Nat) : List (Nat × Nat) :=
  ((List.range (iM w)).map (fun m => (iArrays w).map (fun a => (m, a)))).flatten

/-- Clear every entry of a region (CLR = 1, R199). -/
def State.clearRegion (s : State) (k : Nat) (w : Nat) : State :=
  (regionOrder w).foldl (fun s ma => (regionRow ma.2 (iRow0 w + ma.1)).foldl (fun s e => s.clearEntry k e) s) s

/-- Write an instruction's output to its destination: a stream's consumer half, or the coach store. Nothing is
written for an operation that a spill has failed (R171). Answers the address that orders its tiles. -/
def State.writeOut (s : State) (k : Nat) (failed : Bool) (str : Option Nat) (addr : Nat) (bs : List Nat) : State :=
  if failed then s
  else match str with
    | some n => s.halfWrite k n bs
    | none => s.storeWrite k addr bs

/-- Whether the operation has been failed by a spill (R171). -/
def State.opFailed (s : State) (k : Nat) (seq : Option Nat) : Bool :=
  match seq with
  | none => false
  | some q => match findOp (s.coach k).ops q with | some o => o.failed | none => false

/-- Where an instruction's output begins, to order its tiles (R92). -/
def State.outBase (s : State) (k : Nat) (str : Option Nat) (addr : Nat) : Nat :=
  match str with | some n => s.consBase k n + (s.strm k n).prod | none => addr

/-- The converted row of DRAIN: sources under Table 3.3 and their conversions (R112 to R114). -/
def State.drainRow (s : State) (k : Nat) (md : NumMode) (f : Fmt) (z : Int) (arr row : Nat) : List (Val × Conv) :=
  (regionRow arr row).map (fun e => let v := (s.entryAcc k e).source z; (v, convertVal md false f v))

/-- Tile flag of one array's rows (R91): position row * 128 + column. -/
def rowsFlag (rows : List (Nat × List (Val × Conv))) : TileFlag :=
  flagElems ((rows.map (fun r => r.2.zipIdx.map (fun (vc, n) => (r.1 * 128 + n, vc.1, vc.2.gaveInf)))).flatten)

/-- DRAIN (R196, R197): tallies with their header, or codes in a format, in the order of R155; then CLR. A selector
that R60 calls a host error gives free bytes for the region. -/
def State.drain (s : State) (k : Nat) (i : Inf) : State :=
  let w := i.w
  let md := s.modeOf k i.opn
  let failed := s.opFailed k i.opn
  let str := dstStream w
  let addr := fieldOf w 1 0 23
  let clr := fun (t : State) => if fieldOf w 0 22 1 == 1 then t.clearRegion k w else t
  if fieldOf w 0 21 1 == 1 then
    let ts := ((regionOrder w).map (fun ma => (regionRow ma.2 (iRow0 w + ma.1)).map (fun e => tallyWords (s.entryAcc k e)))).flatten
    let body := ((ts.flatten).map (leBytes 16)).flatten
    clr (s.writeOut k failed str addr (leBytes 4 ts.length ++ leBytes 4 body.length ++ List.replicate 8 0 ++ body))
  else
    match fselOf (iFmt w) with
    | some ⟨.x24, _⟩ | none =>
      let r := s.draws 8 ((regionOrder w).length * 16 * hostWidth (iFmt w))
      clr (r.2.writeOut k failed str addr (if str.isSome then r.1 else r.1.take (storeSize - addr)))
    | some ⟨f, _⟩ =>
      let rows := (regionOrder w).map (fun ma => (ma, s.drainRow k md f (iZoff w) ma.2 (iRow0 w + ma.1)))
      let bs := (rows.map (fun r => packElems f.width (r.2.map (fun vc => vc.2.code)))).flatten
      let base := s.outBase k str addr
      let s1 := s.writeOut k failed str addr bs
      let s2 := s1.count k i.opn ((rows.map (fun r => (r.2.map (fun vc => vc.2.sat)).sum)).sum)
        ((rows.map (fun r => (r.2.map (fun vc => vc.2.flush)).sum)).sum) 0
      let s3 := (iArrays w).zipIdx.foldl (fun t (a, j) =>
        t.addTile k i.opn ⟨true, base + j * 16 * f.width,
          rowsFlag ((rows.filter (fun r => r.1.2 == a)).map (fun r => (r.1.1, r.2)))⟩) s2
      clr s3

/-- One bank row quantised (R198, R199): four blocks; columns from NN on are padding, written +0, uncounted. -/
def State.quantRow (s : State) (k : Nat) (md : NumMode) (f : Fmt) (z : Int) (nn arr row : Nat) : List (QBlock × List Val) :=
  (List.range 4).map (fun g =>
    let cols := (List.range 32).map (fun j => 32 * g + j)
    let vs := (cols.filter (fun n => decide (n < nn))).map (fun n => (s.entryAcc k (entryIx arr row n)).source z)
    let q := if vs.isEmpty then zeroBlock 0 else quantBlock md f vs
    ({ q with codes := q.codes ++ List.replicate (32 - q.codes.length) 0 }, vs))

/-- QUANT (R198, R199, R115). -/
def State.quant (s : State) (k : Nat) (i : Inf) : State :=
  let w := i.w
  let md := s.modeOf k i.opn
  let failed := s.opFailed k i.opn
  let str := dstStream w
  let eaddr := fieldOf w 1 0 23
  let saddr := fieldOf w 2 0 23
  let nn := fieldOf w 2 24 7 + 1
  let clr := fun (t : State) => if fieldOf w 0 21 1 == 1 then t.clearRegion k w else t
  let n := (regionOrder w).length
  match fselOf (iFmt w) with
  | some ⟨f, true⟩ =>
    let rows := (regionOrder w).map (fun ma => (ma, s.quantRow k md f (iZoff w) nn ma.2 (iRow0 w + ma.1)))
    let elems := fun (r : (Nat × Nat) × List (QBlock × List Val)) => packElems f.width ((r.2.map (fun b => b.1.codes)).flatten)
    let scales := fun (r : (Nat × Nat) × List (QBlock × List Val)) => r.2.map (fun b => b.1.scale)
    let base := s.outBase k str eaddr
    let s1 := match str with
      | some _ => s.writeOut k failed str 0 ((rows.map (fun r => elems r ++ scales r)).flatten)
      | none => (s.writeOut k failed none eaddr ((rows.map elems).flatten)).writeOut k failed none saddr ((rows.map scales).flatten)
    let blks := (rows.map (fun r => r.2.map (·.1))).flatten
    let s2 := s1.count k i.opn (blks.map (·.sat)).sum (blks.map (·.flush)).sum (blks.map (·.nanBlk)).sum
    let rowLen := 16 * f.width + (if str.isSome then 4 else 0)
    let s3 := (iArrays w).zipIdx.foldl (fun t (a, j) =>
      t.addTile k i.opn ⟨true, base + j * rowLen,
        flagElems (((rows.filter (fun r => r.1.2 == a)).map (fun r =>
          (r.2.zipIdx.map (fun (b, g) => b.2.zipIdx.map (fun (v, c) => (r.1.1 * 128 + 32 * g + c, v, false)))).flatten)).flatten)⟩) s2
    clr s3
  | _ =>
    let m := n * 16 * hostWidth (iFmt w)
    let r := s.draws 8 (m + n * 4)
    clr (match str with
      | some _ => r.2.writeOut k failed str 0 r.1
      | none => (r.2.writeOut k failed none eaddr (r.1.take (min m (storeSize - eaddr)))).writeOut k failed none saddr (r.1.drop m))


/-- Read a sequence of tallies from a list of words; `fuel` bounds their number. A tally that R128 does not accept has
an unpredictable outcome: it gives none, and its reader takes a free value. -/
def readTallies : Nat → List Nat → List (Option Acc)
  | 0, _ => []
  | fuel + 1, ws =>
    match ws with
    | [] => []
    | x :: rest =>
      let a := if tallyAccepted x then some (if isLongMark x then readLong ws else readShort x) else none
      a :: readTallies fuel (if isLongMark x then rest.drop 4 else rest)

/-- A free accumulator value: any value and flags (R8). -/
def State.drawAcc (s : State) : Acc × State :=
  let r := s.draw 580
  ({ v := toSigned 576 r.1, nan := bitsOf r.1 576 1 == 1, pinf := bitsOf r.1 577 1 == 1,
     ninf := bitsOf r.1 578 1 == 1, ovf := bitsOf r.1 579 1 == 1 }, r.2)

/-- Give every missing accumulator a free value. -/
def State.fillAccs (s : State) : List (Option Acc) → List Acc × State
  | [] => ([], s)
  | some a :: r => let t := s.fillAccs r; (a :: t.1, t.2)
  | none :: r => let d := s.drawAcc; let t := d.2.fillAccs r; (d.1 :: t.1, t.2)

/-- Whether the source and destination regions of a local REDUCE from the bank overlap (R202): both are of the same arrays. -/
def reduceOverlaps (w : Nat) : Bool :=
  fieldOf w 2 20 1 == 1 && fieldOf w 0 21 1 == 0 && !(iArrays w).isEmpty &&
    decide (iRow0 w < fieldOf w 2 8 8 + iM w) && decide (fieldOf w 2 8 8 < iRow0 w + iM w)

/-- The destination entries of a REDUCE, in the order of R155 (R201). -/
def reduceEntries (w : Nat) : List Nat :=
  ((regionOrder w).map (fun ma => (List.range 128).map (fun c => entryIx ma.2 (fieldOf w 2 8 8 + ma.1) c))).flatten

/-- The tallies of a REDUCE with a bank source, in the order of R155, with the destination entry of each (R201). Of a local REDUCE whose
regions overlap the outcome is unpredictable (R202): every tally is then a free value. -/
def State.reduceBank (s : State) (k : Nat) (w : Nat) : List (Nat × Acc) × State :=
  let src := ((regionOrder w).map (fun ma => (List.range 128).map (fun n => entryIx ma.2 (iRow0 w + ma.1) n))).flatten
  let r := s.fillAccs (src.map (fun e => if reduceOverlaps w then none else some (s.entryAcc k e)))
  (List.zip (reduceEntries w) r.1, r.2)

/-- The tallies of a REDUCE with a store source: P × M × 128 tallies behind the 16-byte header (R197, R201). A header count
that differs from that number is a host error with an unpredictable outcome (R202): every tally is then a free value. -/
def State.reduceStore (s : State) (k : Nat) (w : Nat) : List (Nat × Acc) × State :=
  let a := fieldOf w 1 0 23
  let n := (regionOrder w).length * 128
  let count := leNat (s.storeRead k a 4)
  let words := (chunks 16 (s.storeRead k (a + 16) (min (80 * n) (storeSize - (a + 16))))).map leNat
  let ts := if count == n then readTallies n words else List.replicate n none
  let full := ts ++ List.replicate (n - ts.length) none
  let r := s.fillAccs full
  (List.zip (reduceEntries w) r.1, r.2)

end Sys2Proof.Machine
end

