-- ==== Sys2Proof/Machine/Array.lean ====
section
/-! DEFINITION. The array unit: weight sets and LOADW, PASS with its rows and group sums (chapter 04, R148 to R165,
R192 to R195), and contributions to the bank (R168). -/

namespace Sys2Proof.Machine

/-! ### Sequencer faults (R210, R213) -/

/-- Record a fault in COA_FAULT: with VALID set, only MORE changes (R213). -/
def State.recordFault (s : State) (k code pc : Nat) : State :=
  if s.flag COA_FAULT_VALID k then s.setFlag COA_FAULT_MORE k 0 true
  else s.setFlds k 0 [(COA_FAULT_CODE, code), (COA_FAULT_PC, pc), (COA_FAULT_CONTEXT, s.fld COA_ROLE_CONTEXT k),
    (COA_FAULT_MORE, 0), (COA_FAULT_VALID, 1)]

/-- R210: stop issue, record the fault and report it (Table 4.15 gives `code`). What has issued completes. -/
def State.seqFault (s : State) (k code pc : Nat) : State :=
  let s1 := (s.recordFault k code pc).setFld COA_STATE_STATE k 0 5
  (s1.updCoach k (fun c => { c with halted := true })).report
    { cause := 0x10, ctx := s.boundCtx k, unit := coachUnit k, code := code, kind := 3,
      evUnit := coachNumber k, seq := s.fld COA_SEQ_SEQ k }

/-! ### Weight sets (R148, R165, R211) -/

/-- A weight set. -/
def CoachS.wset (c : CoachS) (n : Nat) : Tile := if n == 0 then c.set0 else c.set1

/-- Whether a set holds a completed load. -/
def CoachS.loaded (c : CoachS) (n : Nat) : Bool := if n == 0 then c.loaded0 else c.loaded1

/-- Replace a set and its load flag. -/
def CoachS.putSet (c : CoachS) (n : Nat) (t : Tile) (ld : Bool) : CoachS :=
  if n == 0 then { c with set0 := t, loaded0 := ld } else { c with set1 := t, loaded1 := ld }

/-- Show the sets in ARR_WSTATE: SHREADY, LOADING, AFMT and SFMT follow ACTIVE. -/
def State.showSets (s : State) (k : Nat) : State :=
  let c := s.coach k
  let a := s.fld ARR_WSTATE_ACTIVE k
  let loading := c.flight.any (fun i => opOf i.w == 1 && i.started && !i.finished)
  s.setFlds k 0 [(ARR_WSTATE_SHREADY, b2n (c.loaded (1 - a))), (ARR_WSTATE_LOADING, b2n loading),
    (ARR_WSTATE_AFMT, (c.wset a).sel), (ARR_WSTATE_SFMT, (c.wset (1 - a)).sel)]

/-- Change an instruction in flight. -/
def CoachS.mapInf (c : CoachS) (id : Nat) (f : Inf → Inf) : CoachS :=
  { c with flight := c.flight.map (fun i => if i.id == id then f i else i) }

/-! ### LOADW (R163, R192 to R194) -/

/-- A code as read under R83: a flushed subnormal is the zero code of its sign, counted once (R87). -/
def flushCode (md : NumMode) (f : Fmt) (c : Nat) : Nat × Nat :=
  if flushes md f && isSubnormal f c then (signBit f (bitsOf c (f.width - 1) 1 == 1), 1) else (c, 0)

/-- The bytes of a LOADW's source rows and of its scale plane, from the store or the consumer half. With TRANS = 1 and a STRIDE below the
least of R175, for which the spec states no outcome, the rows overlap as the distance puts them (DESIGN CHOICE, log 104). -/
def State.loadwBytes (s : State) (k : Nat) (i : Inf) : List (List Nat) × List Nat × State :=
  let w := i.w
  let sel := iFmt w
  let rb := rowBytes sel
  let n := loadwRows w
  match srcStream w with
  | some st =>
    let total := n * rb + (if selScaled sel then 512 else 0)
    let r := s.reserve k st total
    let h := r.2.halfRead k st r.1 total
    (chunks rb (h.1.take (n * rb)), h.1.drop (n * rb), h.2.consume k st total)
  | none =>
    let step := if fieldOf w 3 16 16 == 0 then rb else fieldOf w 3 16 16 * 16
    ((List.range n).map (fun j => s.storeRead k (fieldOf w 1 0 23 + j * step) rb),
     if selScaled sel then s.storeRead k (fieldOf w 2 0 23) 512 else [], s)

/-- The tile of a LOADW, with the subnormal codes it flushed (R83, R192 to R194). They are flushed once, under the NUMCTL of the LOADW's
operation, also when a PASS of another operation uses the tile (R98; DEDUCED, log 102). -/
def tileOf (md : NumMode) (w : Nat) (rows : List (List Nat)) (scales : List Nat) : Tile × Nat :=
  let sel := iFmt w
  let kn := fieldOf w 3 0 7 + 1
  let nn := fieldOf w 3 8 7 + 1
  let trans := fieldOf w 0 21 1 == 1
  match fselOf sel with
  | none => ({ sel := sel }, 0)
  | some ⟨f, sc⟩ =>
    let el := rows.map (unpackElems f.width)
    let scaleAt := fun (g n : Nat) => scales.getD (g * 128 + n) 0
    let cells := ((List.range kn).map (fun r => (List.range nn).map (fun c =>
      let raw := if trans then (el.getD c []).getD r 0 else (el.getD r []).getD c 0
      let fc := if sc && scaleAt (r / 32) c == 0xFF then (raw, 0) else flushCode md f raw
      (r * 128 + c, fc.1, fc.2)))).flatten
    ({ sel := sel, codes := (cells.filter (fun x => x.2.1 != 0)).map (fun x => (x.1, x.2.1)),
       scales := if sc then
         (((List.range 4).filter (fun g => decide (32 * g < kn))).map (fun g => (List.range nn).map (fun n => (g * 128 + n, scaleAt g n)))).flatten.filter (fun x => x.2 != 0)
         else [] },
     (cells.map (fun x => x.2.2)).sum)

/-- A LOADW starts: its data is read and its set holds no completed load until it completes. -/
def State.startLoadw (s : State) (k : Nat) (i : Inf) : State :=
  let r := s.loadwBytes k i
  let t := tileOf (s.modeOf k i.opn) i.w r.1 r.2.1
  let s1 := r.2.2.count k i.opn 0 t.2 0
  (s1.updCoach k (fun c => (c.mapInf i.id (fun j => { j with tile := t.1, started := true })).putSet i.wset (c.wset i.wset) false)).showSets k

/-! ### PASS (R155 to R160) -/

/-- Bytes of one source row in a stream, with its scale bytes. -/
def passRowStream (sel : Nat) : Nat := rowBytes sel + (if selScaled sel then 4 else 0)

/-- A PASS starts: it keeps the tile of its set, and takes its place in its source stream. -/
def State.startPass (s : State) (k : Nat) (i : Inf) : State :=
  let t := (s.coach k).wset i.wset
  let r := match srcStream i.w with
    | some st => s.reserve k st ((iArrays i.w).length * iM i.w * passRowStream (iFmt i.w))
    | none => (0, s)
  r.2.updCoach k (fun c => c.mapInf i.id (fun j => { j with tile := t, started := true, strBase := r.1 }))

/-- The bytes and scale bytes of source row `q` of a PASS (R155 to R157). -/
def State.passRowBytes (s : State) (k : Nat) (i : Inf) (q : Nat) : List Nat × List Nat × State :=
  let w := i.w
  let sel := iFmt w
  let rb := rowBytes sel
  match srcStream w with
  | some st =>
    let h := s.halfRead k st (i.strBase + q * passRowStream sel) (passRowStream sel)
    (h.1.take rb, h.1.drop rb, h.2.consume k st (passRowStream sel))
  | none =>
    let step := if fieldOf w 3 24 8 == 0 then rb else fieldOf w 3 24 8 * 16
    (s.storeRead k (fieldOf w 1 0 23 + q * step) rb,
     if selScaled sel then s.storeRead k (fieldOf w 2 0 23 + 4 * q) 4 else [], s)

/-- A source row as the array takes it: codes of tile rows 0 to KN − 1 read under R83, with the flushed codes counted
(R102, R159). `pad` says that a padding position of a block-scaled row's last block holds a code other than +0 (R73). -/
def actRow (md : NumMode) (w : Nat) (bs scales : List Nat) : ActRow × Nat :=
  match fselOf (iFmt w) with
  | none => ({}, 0)
  | some ⟨f, sc⟩ =>
    let kn := fieldOf w 3 16 7 + 1
    let all := unpackElems f.width bs
    let cs := (all.take kn).zipIdx.map (fun (c, j) =>
      if sc && scales.getD (j / 32) 0 == 0xFF then (c, 0) else flushCode md f c)
    ({ codes := cs.map (·.1), scales := if sc then scales else [],
       pad := sc && ((all.take (ceilDiv kn 32 * 32)).drop kn).any (· != 0) }, (cs.map (·.2)).sum)

/-- One row of every selected array enters (R155, R160, Table 4.2). ARR_INCYC counts a cycle in which an array took a
row: two rows share a cycle in the S4 mode, and a 16-bit row takes four cycles. -/
def State.rowEnter (s : State) (k : Nat) (i : Inf) : State :=
  let w := i.w
  let m := i.rowsIn
  let p := (iArrays w).length
  let md := s.modeOf k i.opn
  let step := fun (acc : State × SMap ActRow × Nat) (aj : Nat × Nat) =>
    let r := acc.1.passRowBytes k i (m * p + aj.2)
    let a := actRow md w r.1 r.2.1
    (r.2.2, mset {} acc.2.1 (m * 4 + aj.1) a.1, acc.2.2 + a.2)
  let r := (iArrays w).zipIdx.foldl step (s, i.rows, 0)
  let cyc := match fselOf (iFmt w), fselOf i.tile.sel with
    | some ⟨.s4, _⟩, some ⟨.s4, _⟩ => if m % 2 == 0 then 1 else 0
    | some ⟨f, _⟩, some ⟨g, _⟩ => if f.wide16 && g.wide16 then 4 else 1
    | _, _ => 1
  let s1 := if p == 0 then r.1 else (r.1.count k i.opn 0 r.2.2 0).wrapAdd ARR_INCYC_INCYC k 0 cyc
  s1.updCoach k (fun c => c.mapInf i.id (fun j => { j with rows := r.2.1, rowsIn := j.rowsIn + 1 }))

/-- Groups of a PASS's K range (R153). -/
def passGroups (w : Nat) : Nat := ceilDiv (fieldOf w 3 16 7 + 1) 32

/-- Group sums a PASS adds to the bank in all. -/
def passTotal (w : Nat) : Nat := (iArrays w).length * iM w * 128 * passGroups w

/-- Whether a PASS's region holds row `row` of array `arr` (R167). -/
def inRegion (w arr row : Nat) : Bool :=
  (iArrays w).contains arr && decide (iRow0 w ≤ row) && decide (row < iRow0 w + iM w)

/-- Groups already added to the entry of row `m`, column `col` of array `arr`, as a bit mask; bit 4 says that a tally reached the entry
against R183 before the first of them. -/
def Inf.mask (i : Inf) (arr m col : Nat) : Nat := mget 0 i.added ((arr * 256 + m) * 128 + col)

/-- Whether every group sum of a PASS for the entry has been added. -/
def Inf.entryDone (i : Inf) (arr row col : Nat) : Bool :=
  i.mask arr (row - iRow0 i.w) col % 16 == 2 ^ passGroups i.w - 1

/-- The group sum of segment `g` for a row and a column (R153, R106, R107); none for a pair outside Table 3.1, and for a block with a bad
padding position (R73; DEDUCED, log 100). -/
def groupSum (i : Inf) (arr m col g : Nat) : Option Acc :=
  match fselOf (iFmt i.w), fselOf i.tile.sel with
  | some ⟨fa, sa⟩, some ⟨fb, sb⟩ =>
    if (fa.narrow && fb.narrow) || (fa.wide16 && fb.wide16) then
      let row := mget {} i.rows (m * 4 + arr)
      let n := min 32 (fieldOf i.w 3 16 7 + 1 - 32 * g)
      if row.pad && g + 1 == passGroups i.w then none else
      let as := (readBlock {} fa (if sa then some (row.scales.getD g 0) else none) ((row.codes.drop (32 * g)).take n)).1
      let ws := (List.range n).map (fun j => mget 0 i.tile.codes ((32 * g + j) * 128 + col))
      let bs := (readBlock {} fb (if sb then some (mget 0 i.tile.scales (g * 128 + col)) else none) ws).1
      some (groupAcc fa.narrow as bs)
    else none
  | _, _ => none

/-- Mark the operation of an instruction as failed by a spill (R171). -/
def State.failOp (s : State) (k : Nat) (seq : Option Nat) : State := s.updOp k seq (fun o => { o with failed := true })

/-- Add to sync counter `n` (COA_SYNCn stops at 0xFFFF_FFFF). -/
def State.syncInc (s : State) (k n : Nat) : State := s.bump COA_SYNC_COUNT k n 1

/-- Give the increments of REDUCEs whose tallies have all been added (R201). -/
def State.syncSettle (s : State) (k : Nat) : State :=
  let c := s.coach k
  let ready := c.syncDue.filter (fun d => !c.tallyIn.any (fun t => t.src == d.1))
  let s1 := s.updCoach k (fun c => { c with syncDue := c.syncDue.filter (fun d => c.tallyIn.any (fun t => t.src == d.1)) })
  ready.foldl (fun t d => t.syncInc k d.2) s1

/-- A group sum reaches its entry (R153, R158, R168). It waits for every earlier pass's sums to the same entry (R182). When
it must spill and no slot is free, the entry stays as it is and SPILLFULL is raised (R171); later sums of the pass are added to the value
that stayed, with ZERO = 1 too (DESIGN CHOICE, log 106). -/
def State.addGroup (s : State) (k : Nat) (i : Inf) (arr m col g : Nat) : State :=
  let row := iRow0 i.w + m
  let earlier := (s.coach k).flight.any (fun j => decide (j.id < i.id) && opOf j.w == 3 &&
    inRegion j.w arr row && !j.entryDone arr row col)
  let mask := i.mask arr m col
  if earlier || !(iArrays i.w).contains arr || decide (i.rowsIn ≤ m) || decide (passGroups i.w ≤ g) || bitsOf mask g 1 == 1 then s
  else
    let a := match groupSum i arr m col g with
      | some a => (a, s)
      | none => s.drawAcc
    let done := fun (t : State) => t.updCoach k (fun c => c.mapInf i.id (fun j =>
      { j with added := mset 0 j.added ((arr * 256 + m) * 128 + col) (mask + 2 ^ g), nAdded := j.nAdded + 1 }))
    match a.2.contribute k (entryIx arr row col) (fieldOf i.w 0 21 1 == 1 && mask == 0) a.1 with
    | some t => done t
    | none => ((done a.2).failOp k i.opn).seqFault k 3 i.pc

/-- Whether an instruction that has started still reads, clears or zeroes an entry (R183). -/
def Inf.holdsEntry (i : Inf) (arr row col : Nat) : Bool :=
  i.started && !i.finished && inRegion i.w arr row &&
    (opOf i.w == 4 || opOf i.w == 5 || (opOf i.w == 6 && fieldOf i.w 0 21 1 == 0) ||
      (opOf i.w == 3 && fieldOf i.w 0 21 1 == 1 && !i.entryDone arr row col))

/-- A tally reached an entry that an instruction holds (R183): the value is unpredictable, so the passes that were to zero the entry
leave it as it is. -/
def State.spoilEntry (s : State) (k e : Nat) : State :=
  let arr := e / 32768
  let row := e / 128 % 256
  let col := e % 128
  s.updCoach k (fun c => { c with flight := c.flight.map (fun i =>
    if opOf i.w == 3 && i.holdsEntry arr row col && i.mask arr (row - iRow0 i.w) col == 0
      then { i with added := mset 0 i.added ((arr * 256 + (row - iRow0 i.w)) * 128 + col) 16 } else i) })

/-- Number of a tally's source in `TallyIn.src` for a local REDUCE: it carries the index of the instruction. -/
def localSrc (id pc : Nat) : Nat := 2 * (id * 1024 + pc)

/-- Number of a tally's source for a REDUCE of another coach, by the key of its packets' count (`NetS.redCnt`). -/
def remoteSrc (key : Nat) : Nat := 2 * key + 1

/-- Whether a tally came in a packet. -/
def srcRemote (src : Nat) : Bool := src % 2 == 1

/-- A tally finds no slot for its spill (R171, R210): its REDUCE gives no SYNCN increment, the newest operation of the coach is the one marked failed, and COA_FAULT.PC
takes the index of a local REDUCE, or COA_PC (log 105). -/
def State.tallyLost (s : State) (k : Nat) (t : TallyIn) : State :=
  let s0 := s.updCoach k (fun c => { c with syncDue := c.syncDue.filter (fun d => d.1 != t.src) })
  let s2 := if srcRemote t.src then { s0 with net := { s0.net with redCnt := mset 0 s0.net.redCnt (t.src / 2) 0 } } else s0
  let q := ((s2.coach k).ops.getLast?).map (·.seq)
  (s2.failOp k q).seqFault k 3 (if srcRemote t.src then s2.fld COA_PC_PC k else t.src / 2 % 1024)

/-- A waiting tally reaches its entry (R168, R201), which takes a free value when an instruction of this coach holds it against R183. With
no slot free the tally is lost and SPILLFULL is raised (R171): COA_FAULT.PC then names a local REDUCE, and for a tally of another coach,
which no instruction of this one sent, takes COA_PC; as a REDUCE is of no operation, the newest one counts as failed (DESIGN CHOICE,
log 105). -/
def State.addTally (s : State) (k n : Nat) : State :=
  match (s.coach k).tallyIn[n]? with
  | none => s
  | some t =>
    let s1 := s.updCoach k (fun c => { c with tallyIn := c.tallyIn.eraseIdx n })
    let held := (s1.coach k).flight.any (fun i => i.holdsEntry (t.entry / 32768) (t.entry / 128 % 256) (t.entry % 128))
    let s1 := if held then s1.spoilEntry k t.entry else s1
    let a := if held then s1.drawAcc else (t.acc, s1)
    match (if held then a.2.putEntry k t.entry a.1 else a.2.contribute k t.entry false a.1) with
    | some s2 => s2.syncSettle k
    | none => a.2.tallyLost k t

/-- The passes in flight that have started, oldest first. -/
def CoachS.passes (c : CoachS) : List Inf := c.flight.filter (fun i => opOf i.w == 3 && i.started)

/-- BANK_CONTRIBUTION (R168): a group sum or a tally reaches an accumulator-bank entry and is added exactly. -/
def execBankContribution (k : Coach) (src : ContribSrc) (s : State) : Res :=
  if s.coachStill then ok s else
  match src with
  | .tally n => ok (s.addTally k n)
  | .group p arr row col g =>
    match (s.coach k).passes[p]? with
    | none => ok s
    | some i => ok (s.addGroup k i arr row col g)

/-- The pass whose input period runs: started, with rows still to enter. -/
def CoachS.inputPass (c : CoachS) : Option Inf := c.flight.find? (fun i => opOf i.w == 3 && i.started && decide (i.rowsIn < iM i.w))

/-- PASS_ROW_ENTER (R160): the next row of the pass in its input period enters. -/
def execPassRowEnter (k : Coach) (s : State) : Res :=
  if s.coachStill then ok s else
  match (s.coach k).inputPass with
  | none => ok s
  | some i => ok (s.rowEnter k i)

end Sys2Proof.Machine
end

