-- ==== Sys2Proof/Machine/Mirror.lean ====
section
/-! DEFINITION. Sending mirror records to the partner (R641 to R645). The byte places of CONTEXT and QUEUE data are not in the spec; `mirrorContext`
and `mirrorQueue` fix one layout (DESIGN CHOICE, log 31). -/

namespace Sys2Proof.Machine

/-- A pair role of a context: 0 NONE, 1 ACTIVE, 2 SHADOW. -/
def State.pairRole (s : State) (ctx : Nat) : Nat := let r := s.fld CPL_CTXROLE_ROLE 0 ctx; if r == 3 then 0 else r

/-- Mode of the pair: 0 OFF (and 3), 1 TANDEM, 2 COUPLED (Table 17.1). -/
def State.pairMode (s : State) : Nat := let m := s.fld CPL_CTL_MODE 0; if m == 3 then 0 else m

/-- Whether the device mirrors (R643, R660, R661): the pair is SYNCING or SYNCED. -/
def State.mirroring (s : State) : Bool :=
  let st := s.fld CPL_STATE_STATE 0
  s.pairMode != 0 && (st == 2 || st == 3)

/-- The coupler link that a carriage's records take (R641): the only one UP, or the carriage's own. -/
def State.mirrorLink (s : State) (car : Nat) : Nat :=
  let own := if car < 2 then 0 else 1
  if !s.linkUp (24 + own) && s.linkUp (24 + (1 - own)) then 1 - own else own

/-- The bytes of a record (Table 17.2). -/
def recordBytes (mseq kind ctx addr : Nat) (data : List Nat) : List Nat :=
  let n := ceilDiv data.length 16
  leBytes 4 mseq ++ [kind, n] ++ leBytes 2 (ctx % 1024) ++ leBytes 8 addr ++ data ++ List.replicate (n * 16 - data.length) 0

/-- Hand one record to a coupler link (0 or 1). HEARTBEAT and ACK take no number (R642); any other takes the link's next (R641). Answers the
record's number. -/
def State.mirrorOn (s : State) (k kind ctx addr : Nat) (data : List Nat) : Nat × State :=
  let plain := kind == 1 || kind == 2
  let m := if plain then 0 else (s.fld CPL_SENT_MSEQ 0 k + 1) % 2 ^ 32
  let s1 := if plain then s else s.setFld CPL_SENT_MSEQ 0 k m
  let bs := recordBytes m kind ctx addr data
  (m, s1.linkOffer (24 + k) { pkt := { vn := 5, ctx := ctx, data := bs, len := ceilDiv bs.length 16, src := linkUnit (24 + k) } })

/-- Send one record from a carriage; answers its link and number. -/
def State.mirrorSend (s : State) (car kind ctx addr : Nat) (data : List Nat) : (Nat × Nat) × State :=
  let k := s.mirrorLink car
  let r := s.mirrorOn k kind ctx addr data
  ((k, r.1), r.2)

/-- A CONTEXT record: state and role of an ACTIVE context (R643). -/
def State.mirrorContext (s : State) (ctx : Nat) : State :=
  if s.mirroring then (s.mirrorSend 2 3 ctx 0 ([(s.ctx ctx).state, s.pairRole ctx] ++ List.replicate 14 0)).2 else s

/-- What a QUEUE record is about. -/
def queueData (ring what : Nat) (q : QueueS) (no : Nat) (entry : List Nat) : List Nat :=
  [ring, what] ++ leBytes 2 q.tail ++ leBytes 2 q.head ++ leBytes 2 q.cqTail ++ [b2n q.phase, b2n q.en] ++ leBytes 4 no ++ [0, 0] ++ entry

/-- A QUEUE record of an ACTIVE context (R643): `what` is 0 an admitted SQTAIL, 1 a start, 2 a completion with its entry, 3 a QSYNC; `no` is the
posting number of the work order started or completed. Answers the link and number, none when nothing is mirrored. -/
def State.mirrorQueue (s : State) (ctx ring what no : Nat) (entry : List Nat) : Option (Nat × Nat) × State :=
  if s.mirroring && s.pairRole ctx == 1 then
    let r := s.mirrorSend 2 4 ctx 0 (queueData ring what (mget {} (s.ctx ctx).queues ring) no entry)
    (some r.1, r.2)
  else (none, s)

/-- Whether the partner has acknowledged every record of a list, or need not (R647, R661): the wait binds in SYNCED only. -/
def State.partnerHas (s : State) (l : List (Nat × Nat)) : Bool :=
  s.fld CPL_STATE_STATE 0 != 3 || l.all (fun (k, m) => decide ((s.fld CPL_ACKED_MSEQ 0 k + 2 ^ 32 - m) % 2 ^ 32 < 2 ^ 31))

/-- Aligned 16-byte units that cover `n` bytes at `a`: their address and length. -/
def coverUnits (a n : Nat) : Nat × Nat := (a / 16 * 16, (a + n + 15) / 16 * 16 - a / 16 * 16)

/-- Data of a HEARTBEAT or ACK record (Table 17.2): the state, and the last numbers applied on links 24 and 25. -/
def State.beatData (s : State) : List Nat :=
  [s.fld CPL_STATE_STATE 0, 0, 0, 0] ++ leBytes 4 (mget 0 s.pair.applied 0) ++ leBytes 4 (mget 0 s.pair.applied 1) ++ [0, 0, 0, 0]

/-- A record of coupler link `k` has been applied: its number is the last one applied, and an ACK record says so (R646). -/
def State.appliedRecord (s : State) (k m : Nat) : State :=
  let s1 := { s with pair := { s.pair with applied := mset 0 s.pair.applied k m, jrnBusy := mset 0 s.pair.jrnBusy k 0 } }
  (s1.mirrorOn k 2 0 0 s1.beatData).2

end Sys2Proof.Machine
end

