-- ==== Sys2Proof/Machine/Special.lean ====
section
/-! DEFINITION. The special functions of the vector engine (R141 to R147, Tables 3.7 and 3.8). Their bits are
stepping-specific: a free value, kept to what the spec promises of it. -/

namespace Sys2Proof.Machine

/-- A value as an integer multiple of 2^-600 (exact for every F32 value and its products here). -/
def at600 (v : Val) : Int := match v with | .fin n m e => signedAt n m e (-600) | _ => 0

/-- 2^k as a value. -/
def pow2 (k : Int) : Val := .fin false 1 k

/-- One ulp at an exact result whose floor(log2) is `l` (R142). -/
def ulpAt (l : Int) : Int := if l ≥ -126 then l - 23 else -149

/-- Whether `c` is within one ulp of 1 / x, for x = m * 2^e ≠ 0 and `c` of the same sign (Table 3.7). -/
def rcpOk (x c : Val) : Bool :=
  match x, c with
  | .fin n m e, .fin n2 m2 e2 =>
    let l := if m == 2 ^ m.log2 then -(lead m e) else -(lead m e) - 1
    -- |c * x - 1| ≤ ulp * |x|, each side times 2^1200
    let cx := at600 (.fin false m2 e2) * at600 (.fin false m e)
    let one : Int := ((2 ^ 1200 : Nat) : Int)
    let u := at600 (pow2 (ulpAt l)) * at600 (.fin false m e)
    (n == n2) && decide ((cx - one).natAbs ≤ u.natAbs)
  | _, _ => false

/-- The correctly rounded significand of 1 / x, with a sticky bit. -/
def rcpNear (m : Nat) (e : Int) (neg : Bool) : Val :=
  let k := m.log2 + 60
  let q := 2 ^ k / m
  .fin neg (2 * q + b2n (decide (2 ^ k % m ≠ 0))) (-(k : Int) - 1 - e)

/-- Whether `c` ≥ 0 is within one ulp of 1 / sqrt x, for x = m * 2^e > 0 (Table 3.7). -/
def rsqrtOk (x c : Val) : Bool :=
  match x, c with
  | .fin _ m e, .fin n2 m2 e2 =>
    let l0 := if m == 2 ^ m.log2 then -(lead m e) else -(lead m e) - 1
    let u := at600 (pow2 (ulpAt (l0.fdiv 2)))
    let cc := at600 (.fin false m2 e2)
    let lo := cc - u
    let hi := cc + u
    let one : Int := ((2 ^ 1800 : Nat) : Int)
    let xx := at600 (.fin false m e)
    !n2 && (decide (lo < 0) || decide (lo * lo * xx ≤ one)) && decide (one ≤ hi * hi * xx)
  | _, _ => false

/-- 1 / sqrt x to over 24 bits, with a sticky bit. -/
def rsqrtNear (m : Nat) (e : Int) : Val :=
  let m2 := if e % 2 == 0 then m else 2 * m
  let e2 := if e % 2 == 0 then e else e - 1
  let k := m2.log2 / 2 + 40
  let q := isqrt (2 ^ (2 * k) / m2)
  .fin false (2 * q + b2n (decide (q * q * m2 ≠ 2 ^ (2 * k)))) (-(k : Int) - 1 - e2 / 2)

/-- floor of a value. -/
def floorVal (neg : Bool) (m : Nat) (e : Int) : Int :=
  if 0 ≤ e then (if neg then -((m * 2 ^ e.toNat : Nat) : Int) else ((m * 2 ^ e.toNat : Nat) : Int))
  else Int.fdiv (if neg then -(m : Int) else m) ((2 ^ (-e).toNat : Nat) : Int)

/-- Whether |x| ≤ 3.14159274, the value of 0x4049_0FDB (Table 3.7). -/
def inTrigDomain (m : Nat) (e : Int) : Bool := decide (at600 (.fin false m e) ≤ at600 (.fin false 0xC90FDB (-22)))

/-- What a special function gives for one operand: the source of its conversion (Table 3.8 exactly), or none where
the exact result lies beyond the largest finite F32 magnitude, with its sign (R143). -/
inductive SpecRes where
  | val (v : Val)
  | over (neg : Bool)
deriving DecidableEq, Repr

/-- A special function of an infinity (Table 3.8). -/
def specialInf (fn : Nat) (neg : Bool) : SpecRes :=
  match fn with
  | 0 => .val (.zero neg)
  | 1 => if neg then .val .nan else .val (.zero false)
  | 2 => if neg then .val (.zero false) else .val (.inf false)
  | 3 => if neg then .val .nan else .val (.inf false)
  | 4 => .val (.fin neg 1 0)
  | _ => .val .nan

/-- A special function of a zero (Table 3.8). -/
def specialZero (fn : Nat) (neg : Bool) : SpecRes :=
  match fn with
  | 0 => .val (.inf neg)
  | 1 => .val (.inf neg)
  | 2 => .val (.fin false 1 0)
  | 3 => .val (.inf true)
  | 4 => .val (.zero neg)
  | 5 => .val (.zero neg)
  | _ => .val (.fin false 1 0)

/-- Whether the reciprocal of a value lies beyond the largest finite F32 magnitude. -/
def rcpOver (m : Nat) (e : Int) : Bool := decide (at600 (.fin false m e) * at600 (.fin false (2 ^ 24 - 1) 104) < ((2 ^ 1200 : Nat) : Int))

/-- 1 / x of a finite value; `c` is the free candidate. -/
def rcpRes (neg : Bool) (m : Nat) (e : Int) (c : Val) : SpecRes :=
  if rcpOver m e then .over neg else if rcpOk (.fin neg m e) c then .val c else .val (rcpNear m e neg)

/-- 1 / sqrt x of a finite value. -/
def rsqrtRes (neg : Bool) (m : Nat) (e : Int) (c : Val) : SpecRes :=
  if neg then .val .nan else if rsqrtOk (.fin neg m e) c then .val c else .val (rsqrtNear m e)

/-! ### The exact results of exp2, log2, tanh, sine and cosine in fixed point

A number is held as an integer multiple of 2^-256. Each sum below is a truncated series whose error is far below a
2^-40th of an ulp of the result; the bounds of Table 3.7 are kept up to that error. -/

/-- One in units of 2^-256. -/
def fpOne : Int := ((2 ^ 256 : Nat) : Int)

/-- A value in units of 2^-256, exact for every F32 value. -/
def at256 (v : Val) : Int := match v with | .fin n m e => signedAt n m e (-256) | _ => 0

/-- The product of two numbers in units of 2^-256. -/
def fpMul (a b : Int) : Int := (a * b) / fpOne

/-- The natural logarithm of 2 in units of 2^-256. -/
def fpLn2 : Int := 0xb17217f7d1cf79abc9e3b39803f2f6af40f343267298b62d8a0d175b8baafa2b

/-- Terms of the series of exp from the term `t` of index `n` on. -/
def expTail (y : Int) : Nat → Nat → Int → Int
  | 0, _, _ => 0
  | fuel + 1, n, t => t + expTail y fuel (n + 1) (fpMul t y / ((n : Int) + 1))

/-- e^y for 0 ≤ y < 1. -/
def fpExp (y : Int) : Int := expTail y 60 0 fpOne

/-- Terms of the series of sine (from n = 1, t = x) and cosine (from n = 0, t = 1): every second term of exp, the sign changing. -/
def trigTail (x2 : Int) : Nat → Nat → Int → Int
  | 0, _, _ => 0
  | fuel + 1, n, t => t + trigTail x2 fuel (n + 2) (-(fpMul t x2) / (((n : Int) + 1) * ((n : Int) + 2)))

/-- Terms of the series of the inverse hyperbolic tangent: t^n / n for odd n. -/
def atanhTail (t2 : Int) : Nat → Nat → Int → Int
  | 0, _, _ => 0
  | fuel + 1, n, t => t / (n : Int) + atanhTail t2 fuel (n + 2) (fpMul t t2)

/-- 2^x for an F32 value: the integer part of x is a shift, the rest a series. -/
def fpExp2 (neg : Bool) (m : Nat) (e : Int) : Int :=
  let n := floorVal neg m e
  let r := fpExp (fpMul (at256 (.fin neg m e) - n * fpOne) fpLn2)
  if 0 ≤ n then r * ((2 ^ n.toNat : Nat) : Int) else r / ((2 ^ (-n).toNat : Nat) : Int)

/-- log2 of m * 2^e > 0: x = 2^k * z with z near 1, and log2 z = 2 atanh ((z - 1) / (z + 1)) / ln 2. -/
def fpLog2 (m : Nat) (e : Int) : Int :=
  let up := decide (m * m > 2 * 2 ^ (2 * m.log2))
  let one : Int := ((2 ^ (if up then m.log2 + 1 else m.log2) : Nat) : Int)
  let k := lead m e + (if up then 1 else 0)
  let t := ((m : Int) - one) * fpOne / ((m : Int) + one)
  k * fpOne + 2 * atanhTail (fpMul t t) 56 1 t * fpOne / fpLn2

/-- tanh of |x| = m * 2^e, from e^2x = y * 2^n: (e^2x - 1) / (e^2x + 1). Beyond 32 it is within 2^-90 of 1. -/
def fpTanh (m : Nat) (e : Int) : Int :=
  let x := at256 (.fin false m e)
  if x ≥ 32 * fpOne then fpOne - 1
  else
    let n := (2 * x) / fpLn2
    let ex := fpExp (2 * x - n * fpLn2) * ((2 ^ n.toNat : Nat) : Int)
    (ex - fpOne) * fpOne / (ex + fpOne)

/-- Sine of |x| within the domain of Table 3.7. -/
def fpSin (m : Nat) (e : Int) : Int :=
  let x := at256 (.fin false m e)
  trigTail (fpMul x x) 48 1 x

/-- Cosine of |x| within the domain of Table 3.7. -/
def fpCos (m : Nat) (e : Int) : Int :=
  let x := at256 (.fin false m e)
  trigTail (fpMul x x) 48 0 fpOne

/-- One ulp at an exact result y (R142), in units of 2^-256. -/
def fpUlp (y : Int) : Int :=
  let l : Int := (y.natAbs.log2 : Int) - 256
  if y.natAbs ≠ 0 ∧ l ≥ -126 then ((2 ^ (233 + l).toNat : Nat) : Int) else ((2 ^ 107 : Nat) : Int)

/-- A result kept to a bound of Table 3.7: the free candidate where it lies within `ulps` of the exact result y and, where the function
is bounded by 1 (R145), within that; otherwise y itself, rounded by its conversion. A candidate of zero stands for a nonzero result too small
for F32, whose conversion writes the zero of its sign and counts it (R84, R87). -/
def fpRes (ulps : Int) (unit : Bool) (y : Int) (c : Val) : SpecRes :=
  let u := fpUlp y
  let cy := at256 c
  if c.isFin && decide (((cy - y).natAbs : Int) ≤ ulps * u + u / 1099511627776) && (!unit || decide (cy.natAbs ≤ 2 ^ 256)) then
    (if cy == 0 then .val (.fin (decide (y < 0)) 1 (-400)) else .val c)
  else .val (.fin (decide (y < 0)) y.natAbs (-256))

/-- 2^x of a finite value (Table 3.7: 2 ulp). -/
def exp2Res (neg : Bool) (m : Nat) (e : Int) (c : Val) : SpecRes :=
  let n := floorVal neg m e
  if n ≥ 128 then .over false
  else if n < -200 then fpRes 2 false 1 c
  else fpRes 2 false (fpExp2 neg m e) c

/-- log2 x of a finite value (Table 3.7: 2 ulp). -/
def log2Res (neg : Bool) (m : Nat) (e : Int) (c : Val) : SpecRes :=
  if neg then .val .nan
  else if m == 2 ^ m.log2 && lead m e == 0 then .val (.zero false)
  else fpRes 2 false (fpLog2 m e) c

/-- An odd function takes the sign of its operand. -/
def signedFp (neg : Bool) (y : Int) : Int := if neg then -y else y

/-- A result kept to [-1, 1] (R145): the error of a series stays below any ulp, and this keeps it from passing 1. -/
def fpUnit (y : Int) : Int := max (-fpOne) (min fpOne y)

/-- tanh x of a finite value (Table 3.7: 3 ulp). -/
def tanhRes (neg : Bool) (m : Nat) (e : Int) (c : Val) : SpecRes := fpRes 3 true (fpUnit (signedFp neg (fpTanh m e))) c

/-- Sine or cosine of a finite value (Table 3.7: 2 ulp within the domain). -/
def trigRes (cos neg : Bool) (m : Nat) (e : Int) (c : Val) : SpecRes :=
  if inTrigDomain m e then fpRes 2 true (fpUnit (if cos then fpCos m e else signedFp neg (fpSin m e))) c else .val .nan

/-- A special function of a finite value other than zero; `c` is the free candidate. -/
def specialFin (fn : Nat) (neg : Bool) (m : Nat) (e : Int) (c : Val) : SpecRes :=
  if fn = 0 then rcpRes neg m e c
  else if fn = 1 then rsqrtRes neg m e c
  else if fn = 2 then exp2Res neg m e c
  else if fn = 3 then log2Res neg m e c
  else if fn = 4 then tanhRes neg m e c
  else trigRes (fn == 6) neg m e c

/-- Special function `fn` (0 VRCP, 1 VRSQRT, 2 VEXP2, 3 VLOG2, 4 VTANH, 5 VSIN, 6 VCOS) of a value whose code as read is
`code`. The free candidate is kept to the bounds of Table 3.7 (R141), and to R145 for tanh, sine and cosine. -/
def specialFn (fn code : Nat) (v : Val) : SpecRes :=
  match v with
  | .nan => .val .nan
  | .inf neg => specialInf fn neg
  | .fin neg m e => if m == 0 then specialZero fn neg else specialFin fn neg m e (decodeVal .f32 (Config.special fn code % 2 ^ 32))

end Sys2Proof.Machine
end

