-- ==== Sys2Proof/Machine/Vector.lean ====
section
/-! DEFINITION. The vector engine and signal mode: register names, hazards, loops and the work of each vector
instruction (chapter 05, R214 to R249). -/

namespace Sys2Proof.Machine

/-! ### Loop mode (R216, R247 to R249) -/

/-- Loop state: RRB, loop mode, stage count less 1, trip, limit. -/
structure LoopSt where
  rrb : Nat
  on : Bool
  sm1 : Nat
  trip : Nat
  n : Nat
deriving DecidableEq, Repr

/-- The loop state held in the registers. -/
def State.loopSt (s : State) (k : Nat) : LoopSt :=
  { rrb := s.fld VEC_LOOP_RRB k, on := s.flag VEC_LOOP_ON k, sm1 := s.fld VEC_LOOP_SM1 k,
    trip := s.fld VEC_TRIP_TRIP k, n := s.fld VEC_TRIPN_N k }

/-- The effect of VLSET and VROT on the loop state (R247, R248). -/
def loopStep (l : LoopSt) (w : Nat) : LoopSt :=
  if opOf w == 0x68 then { rrb := 0, on := true, sm1 := fieldOf w 1 0 3, trip := 0, n := fieldOf w 2 0 32 }
  else if opOf w == 0x69 then
    if l.on then
      let t := (l.trip + 1) % 2 ^ 32
      { l with rrb := (l.rrb + 31) % 32, trip := t, on := !decide (t ≥ l.n + l.sm1) }
    else l
  else l

/-- The loop state once every vector instruction in flight that has not started has done so. -/
def State.loopAhead (s : State) (k : Nat) : LoopSt :=
  ((s.coach k).flight.filter (fun i => !i.started)).foldl (fun l i => loopStep l i.w) (s.loopSt k)

/-- Whether an instruction is live (R249). -/
def isLive (l : LoopSt) (w : Nat) : Bool :=
  if unitOf (opOf w) != some .vector || opOf w == 0x68 || opOf w == 0x69 || !l.on then true
  else decide (iStage w ≤ l.trip) && decide (l.trip < l.n + iStage w) && decide (iStage w ≤ l.sm1)

/-! ### Register names and hazards (R216, R219) -/

/-- Physical register of a name (R216). -/
def physReg (rrb name : Nat) : Nat := if name < 32 then name else 32 + (name - 32 + rrb) % 32

/-- Physical registers of a name, or of a pair. -/
def physRegs (rrb name : Nat) (pair : Bool) : List Nat :=
  if pair then [physReg rrb name, physReg rrb (name + 1)] else [physReg rrb name]

/-- Registers a vector instruction reads. -/
def readsRegs (rrb w : Nat) : List Nat :=
  let p := iP w
  let va := physRegs rrb (iVa w) p
  match opOf w with
  | 0x41 | 0x42 | 0x4F | 0x59 => va
  | 0x5A => physRegs rrb (iVa w) true
  | 0x48 | 0x49 | 0x4A | 0x4D | 0x4E => va ++ physRegs rrb (iVb w) p
  | 0x4B | 0x4C => va ++ physRegs rrb (iVb w) p ++ physRegs rrb (iVc w) p
  | 0x50 | 0x51 | 0x52 | 0x53 | 0x54 | 0x55 | 0x56 | 0x5C => physRegs rrb (iVa w) false
  | 0x58 => physRegs rrb (iVa w) (fieldOf w 1 28 2 == 1)
  | 0x5D | 0x5E => physRegs rrb (iVa w) false ++ (if fieldOf w 1 27 1 == 1 then physRegs rrb (iVd w) false else [])
  | 0x60 | 0x61 => physRegs rrb (iVa w) false ++ physRegs rrb (iVb w) false
  | _ => []

/-- Registers a vector instruction writes. -/
def writesRegs (rrb w : Nat) : List Nat :=
  match opOf w with
  | 0x40 | 0x42 | 0x48 | 0x49 | 0x4A | 0x4B | 0x4C | 0x4D | 0x4E | 0x4F => physRegs rrb (iVd w) (iP w)
  | 0x43 | 0x50 | 0x51 | 0x52 | 0x53 | 0x54 | 0x55 | 0x56 | 0x5C | 0x5D | 0x5E | 0x62 => physRegs rrb (iVd w) false
  | 0x58 => physRegs rrb (iVd w) (fieldOf w 1 30 2 == 1)
  | _ => []

/-- Signal accumulators an instruction reads or writes. -/
def usesAccs (w : Nat) : List Nat := if opOf w == 0x60 || opOf w == 0x61 || opOf w == 0x62 then [fieldOf w 1 22 3] else []

/-- Signal accumulators an instruction writes. -/
def writesAccs (w : Nat) : List Nat := if opOf w == 0x60 || opOf w == 0x61 then [fieldOf w 1 22 3] else []

/-! ### Lanes by kind (Table 5.1) -/

/-- Codes of all lanes of a name read as F32, or as an F64 pair. -/
def State.kindCodes (s : State) (k rrb name : Nat) (pair : Bool) : List Nat :=
  let lo := s.lanes k (physReg rrb name)
  if pair then List.zipWith (fun a b => a + b * 2 ^ 32) lo (s.lanes k (physReg rrb (name + 1))) else lo

/-- Write codes of F32 or F64 kind to a name. -/
def State.putCodes (s : State) (k rrb name : Nat) (pair : Bool) (cs : List Nat) : State :=
  let s1 := s.setLanes k (physReg rrb name) 0 (cs.map (· % 2 ^ 32))
  if pair then s1.setLanes k (physReg rrb (name + 1)) 0 (cs.map (· / 2 ^ 32)) else s1

/-- A lane as written in X24 kind: bits [31:24] copy bit 23 (Table 5.1). -/
def x24Lane (c : Nat) : Nat := if bitsOf c 23 1 == 1 then c % 2 ^ 24 + 0xFF000000 else c % 2 ^ 24

/-- Format of a register kind. -/
def kindFmt (pair : Bool) : Fmt := if pair then .f64 else .f32

/-- Values of all lanes as an operation reads them, with the flushed codes counted (R83, R87). -/
def readVals (md : NumMode) (f : Fmt) (cs : List Nat) : List Val × Nat :=
  let rs := cs.map (readCode md f)
  (rs.map (·.1), (rs.map (·.2)).sum)

/-- Flag of a vector tile: position is the lane index (R91, R221). -/
def vecFlag (vs : List Val) (cs : List Conv) : TileFlag :=
  flagElems ((List.zip vs cs).zipIdx.map (fun (vc, i) => (i, vc.1, vc.2.gaveInf)))

/-- Finish a register-destination instruction: write the converted lanes, count, and add its tile (R221, R225). -/
def State.vecWrite (s : State) (k : Nat) (i : Inf) (rrb : Nat) (pair : Bool) (vs : List Val) (inFlush : Nat) : State :=
  let md := s.modeOf k i.opn
  let cs := vs.map (convertVal md false (kindFmt pair))
  let s1 := s.putCodes k rrb (iVd i.w) pair (cs.map (·.code))
  (s1.count k i.opn (cs.map (·.sat)).sum ((cs.map (·.flush)).sum + inFlush) 0).addTile k i.opn ⟨false, 0, vecFlag vs cs⟩

/-! ### Arithmetic (R225 to R228) -/

/-- Lesser of two values: NaN when either is, −0 below +0 (R226). -/
def vMin (a b : Val) : Val :=
  if a.isNan || b.isNan then .nan else if a.lt b then a else if b.lt a then b else if a.neg then a else b

/-- Greater of two values (R226). -/
def vMax (a b : Val) : Val :=
  if a.isNan || b.isNan then .nan else if a.lt b then b else if b.lt a then a else if a.neg then b else a

/-- Magnitude (R226). -/
def vAbs : Val → Val
  | .nan => .nan | .inf _ => .inf false | .fin _ m e => .fin false m e

/-- A one-operand instruction on lanes. -/
def State.vec1 (s : State) (k : Nat) (i : Inf) (rrb : Nat) (f : Val → Val) : State :=
  let a := readVals (s.modeOf k i.opn) (kindFmt (iP i.w)) (s.kindCodes k rrb (iVa i.w) (iP i.w))
  s.vecWrite k i rrb (iP i.w) (a.1.map f) a.2

/-- A two-operand instruction on lanes. -/
def State.vec2 (s : State) (k : Nat) (i : Inf) (rrb : Nat) (f : Val → Val → Val) : State :=
  let md := s.modeOf k i.opn
  let a := readVals md (kindFmt (iP i.w)) (s.kindCodes k rrb (iVa i.w) (iP i.w))
  let b := readVals md (kindFmt (iP i.w)) (s.kindCodes k rrb (iVb i.w) (iP i.w))
  s.vecWrite k i rrb (iP i.w) (List.zipWith f a.1 b.1) (a.2 + b.2)

/-- A three-operand instruction on lanes. -/
def State.vec3 (s : State) (k : Nat) (i : Inf) (rrb : Nat) (f : Val → Val → Val → Val) : State :=
  let md := s.modeOf k i.opn
  let a := readVals md (kindFmt (iP i.w)) (s.kindCodes k rrb (iVa i.w) (iP i.w))
  let b := readVals md (kindFmt (iP i.w)) (s.kindCodes k rrb (iVb i.w) (iP i.w))
  let c := readVals md (kindFmt (iP i.w)) (s.kindCodes k rrb (iVc i.w) (iP i.w))
  s.vecWrite k i rrb (iP i.w) (List.zipWith (fun ab c => f ab.1 ab.2 c) (List.zip a.1 b.1) c.1) (a.2 + b.2 + c.2)

/-- A special function on lanes (R227, R141 to R145). -/
def State.vecSpecial (s : State) (k : Nat) (i : Inf) (rrb fn : Nat) : State :=
  let md := s.modeOf k i.opn
  let codes := s.lanes k (physReg rrb (iVa i.w))
  let rs := codes.map (fun c =>
    let r := readCode md .f32 c
    let code := (flushCode md .f32 c).1
    match specialFn fn code r.1 with
    | .val v => (v, convertVal md false .f32 v, r.2)
    | .over neg => (Val.fin neg 1 1000, overflowFloat md .f32 neg, r.2))
  let s1 := s.putCodes k rrb (iVd i.w) false (rs.map (fun r => r.2.1.code))
  (s1.count k i.opn (rs.map (fun r => r.2.1.sat)).sum (rs.map (fun r => r.2.1.flush + r.2.2)).sum 0).addTile k i.opn
    ⟨false, 0, vecFlag (rs.map (·.1)) (rs.map (fun r => r.2.1))⟩

/-- VCVT (R228): between F32, F64 and X24 kinds. -/
def State.vcvt (s : State) (k : Nat) (i : Inf) (rrb : Nat) : State :=
  let w := i.w
  let sk := fieldOf w 1 28 2
  let dk := fieldOf w 1 30 2
  let sat := fieldOf w 1 25 1 == 1
  let md := s.modeOf k i.opn
  let codes := s.kindCodes k rrb (iVa w) (sk == 1)
  let fmtK : Nat → Fmt := fun x => if x == 0 then .f32 else if x == 1 then .f64 else .x24
  let rd := readVals md (fmtK sk) (codes.map (fun c => if sk == 2 then c % 2 ^ 24 else c))
  let cs := rd.1.map (convertVal md sat (fmtK dk))
  let s1 := if dk == 2 then s.setLanes k (physReg rrb (iVd w)) 0 (cs.map (fun c => x24Lane c.code))
    else s.putCodes k rrb (iVd w) (dk == 1) (cs.map (·.code))
  (s1.count k i.opn (cs.map (·.sat)).sum ((cs.map (·.flush)).sum + rd.2) 0).addTile k i.opn ⟨false, 0, vecFlag rd.1 cs⟩

/-! ### Loads and stores (R229 to R235) -/

/-- One lane group's circular-buffer descriptor: base, length, pointer (R232). -/
def State.cbuf (s : State) (k g b : Nat) : Nat × Nat × Nat :=
  (s.fld VEC_CBBASE_BASE k (8 * g + b) * 16, s.fld VEC_CBLEN_LEN k (8 * g + b), s.fld VEC_CBPTR_PTR k (8 * g + b))

/-- Whether a descriptor in use meets R233 for an element width of `wb` bytes and a step. -/
def cbufOk (d : Nat × Nat × Nat) (wb : Nat) (inc : Int) : Bool :=
  let l := d.2.1
  wb != 0 && l % wb == 0 && decide (32 * wb ≤ l) && decide (l ≤ 2 ^ 20) && decide (d.1 + l ≤ storeSize) &&
    d.2.2 % wb == 0 && decide (inc % (wb : Int) = 0) && decide (inc.natAbs < l)

/-- Addresses of the 32 elements of a group (R229, R232). -/
def State.elemAddrs (s : State) (k w g wb : Nat) : List Nat :=
  if fieldOf w 3 0 1 == 1 then
    let d := s.cbuf k g (fieldOf w 3 1 3)
    (List.range 32).map (fun i => d.1 + (d.2.2 + i * wb) % d.2.1)
  else
    let gs := fieldOf w 2 24 8
    let a := fieldOf w 2 0 23 + (if gs == 0 then g * 32 * wb else g * gs * 16)
    (List.range 32).map (fun i => a + i * wb)

/-- Move the pointer of one group's descriptor (R232); through a descriptor that breaks R233 it becomes a free value. -/
def State.moveCb (s : State) (k w g : Nat) (good : Bool) : State :=
  if fieldOf w 3 0 1 == 1 then
    let b := fieldOf w 3 1 3
    let d := s.cbuf k g b
    if good then s.setFld VEC_CBPTR_PTR k (8 * g + b) (((d.2.2 : Int) + toSigned 24 (fieldOf w 3 8 24)) % (d.2.1 : Int)).toNat
    else let r := s.draw 20; r.2.setFld VEC_CBPTR_PTR k (8 * g + b) r.1
  else s

/-- Whether the group's access is one the spec defines. -/
def State.groupOk (s : State) (k w g wb : Nat) : Bool :=
  fieldOf w 3 0 1 == 0 || cbufOk (s.cbuf k g (fieldOf w 3 1 3)) wb (toSigned 24 (fieldOf w 3 8 24))

/-- Element codes of one lane group as VLD reads them; a group through a broken descriptor reads free codes. -/
def State.groupCodes (s : State) (k w g : Nat) (f : Fmt) : List Nat × State :=
  let wb := f.width / 8
  if f == .s4 then
    let gs := fieldOf w 2 24 8
    let a := fieldOf w 2 0 23 + (if gs == 0 then g * 16 else g * gs * 16)
    (unpackElems 4 (s.storeRead k a 16), s)
  else if s.groupOk k w g wb then
    ((s.elemAddrs k w g wb).map (fun a => leNat (s.storeRead k a wb)), s)
  else s.draws f.width 32

/-- What VLD writes for one group: lanes' codes in the kind of P, values for the flag, counts. -/
def State.vldGroup (s : State) (k : Nat) (i : Inf) (f : Fmt) (sc : Bool) (g : Nat) : (List Nat × List Val × List Conv × Nat) × State :=
  let w := i.w
  let md := s.modeOf k i.opn
  let r := s.groupCodes k w g f
  let pair := iP w
  if f == .x24 then ((r.1.map x24Lane, r.1.map (decodeVal .x24), r.1.map (fun c => { code := c }), 0), r.2)
  else if f == kindFmt pair then ((r.1, r.1.map (decodeVal f), r.1.map (fun c => { code := c }), 0), r.2)
  else
    let scale := if sc then some ((s.storeRead k (fieldOf w 3 4 19 * 16 + g) 1).getD 0 0) else none
    let vs := readBlock md f scale r.1
    let cs := vs.1.map (convertVal md false (kindFmt pair))
    ((cs.map (·.code), vs.1, cs, vs.2), r.2)

/-- VLD (R229, R230, R232). A selector that R60 calls a host error loads free values, and a pointer used with it becomes free. -/
def State.vld (s : State) (k : Nat) (i : Inf) (rrb : Nat) : State :=
  let w := i.w
  match fselOf (iFmt w) with
  | none =>
    let r := ((List.range 16).foldl (fun t g => t.moveCb k w g false) s).draws (kindFmt (iP w)).width 512
    r.2.putCodes k rrb (iVd w) (iP w) r.1
  | some ⟨f, sc⟩ =>
    let step := fun (acc : List (List Nat × List Val × List Conv × Nat) × State) (g : Nat) =>
      let good := acc.2.groupOk k w g (f.width / 8)
      let r := acc.2.vldGroup k i f sc g
      (acc.1 ++ [r.1], r.2.moveCb k w g good)
    let r := (List.range 16).foldl step ([], s)
    let codes := (r.1.map (·.1)).flatten
    let vs := (r.1.map (fun x => x.2.1)).flatten
    let cs := (r.1.map (fun x => x.2.2.1)).flatten
    let s1 := r.2.putCodes k rrb (iVd w) (iP w) codes
    (s1.count k i.opn (cs.map (·.sat)).sum ((cs.map (·.flush)).sum + (r.1.map (fun x => x.2.2.2)).sum) 0).addTile k i.opn
      ⟨false, 0, vecFlag vs cs⟩

/-- Write element codes of one group at their addresses. -/
def State.putElems (s : State) (k wb : Nat) (addrs codes : List Nat) : State :=
  (List.zip addrs codes).foldl (fun t ac => t.storeWrite k ac.1 (leBytes wb ac.2)) s

/-- VST (R231, R232). A failed operation writes nothing (R171). Under a selector that R60 calls a host error every group stores free bytes
where it would stand, and a pointer used becomes free; a group through a descriptor that breaks R233 stores free values in place. -/
def State.vst (s : State) (k : Nat) (i : Inf) (rrb : Nat) : State :=
  let w := i.w
  let md := s.modeOf k i.opn
  let pair := iP w
  let raw := s.kindCodes k rrb (iVa w) pair
  let failed := s.opFailed k i.opn
  match fselOf (iFmt w) with
  | none =>
    let gb := hostWidth (iFmt w) * 4
    let gs := fieldOf w 2 24 8
    (List.range 16).foldl (fun t g =>
      let a := if fieldOf w 3 0 1 == 1 then (t.cbuf k g (fieldOf w 3 1 3)).1
        else fieldOf w 2 0 23 + g * (if gs == 0 then gb else gs * 16)
      (if failed then t else t.freeStore k a gb).moveCb k w g false) s
  | some ⟨f, _⟩ =>
    let same := f == kindFmt pair
    let rd := if same || f == .x24 then (raw.map (decodeVal (if same then f else .x24)), 0) else readVals md (kindFmt pair) raw
    let cs : List Conv := if same then raw.map (fun c => { code := c })
      else if f == .x24 then raw.map (fun c => { code := c % 2 ^ 24 })
      else rd.1.map (convertVal md false f)
    let codes := cs.map (·.code)
    let wb := f.width / 8
    let key := (s.elemAddrs k w 0 wb).getD 0 0
    let step := fun (t : State) (g : Nat) =>
      let good := t.groupOk k w g wb
      let d := if good then ((codes.drop (32 * g)).take 32, t) else t.draws f.width 32
      let addrs := if good then d.2.elemAddrs k w g wb
        else (List.range 32).map (fun j => ((d.2.cbuf k g (fieldOf w 3 1 3)).1 + j * wb) % (storeSize - 8))
      let t2 := if failed then d.2 else d.2.putElems k wb addrs d.1
      t2.moveCb k w g good
    let s1 := (List.range 16).foldl step s
    (s1.count k i.opn (cs.map (·.sat)).sum ((cs.map (·.flush)).sum + rd.2) 0).addTile k i.opn ⟨true, key, vecFlag rd.1 cs⟩

/-- VSETCB (R234). -/
def State.vsetcb (s : State) (k w : Nat) : State :=
  let b := fieldOf w 1 16 3
  let gstep := fieldOf w 1 19 13 * 16
  let base := fieldOf w 2 0 23
  let len := fieldOf w 3 0 21
  let stepb := fieldOf w 3 21 1 == 1
  ((List.range 16).filter (fun g => bitsOf (fieldOf w 1 0 16) g 1 == 1)).foldl (fun t g =>
    t.setFlds k (8 * g + b) [(VEC_CBBASE_BASE, (if stepb then base + g * gstep else base) / 16), (VEC_CBLEN_LEN, len),
      (VEC_CBPTR_PTR, if stepb || len == 0 then 0 else (g * gstep) % len)]) s

/-! ### Quantising and splitting (R236, R237) -/

/-- The 16 lane groups of a list of 512. -/
def groups16 {α : Type} (l : List α) : List (List α) := (List.range 16).map (fun g => (l.drop (32 * g)).take 32)

/-- VQUANT (R236). A subnormal lane that is read as zero counts as flushed also where its block is written as a NaN block: R87 counts the
reading, and R89 leaves only the block's elements uncounted (DEDUCED, log 101). -/
def State.vquant (s : State) (k : Nat) (i : Inf) (rrb : Nat) : State :=
  let w := i.w
  let md := s.modeOf k i.opn
  let failed := s.opFailed k i.opn
  match fselOf (iFmt w) with
  | none => s
  | some ⟨f, _⟩ =>
    let rd := readVals md (kindFmt (iP w)) (s.kindCodes k rrb (iVa w) (iP w))
    let qs := (groups16 rd.1).map (quantBlock md f)
    let s1 := s.writeOut k failed none (fieldOf w 2 0 23) (packElems f.width ((qs.map (·.codes)).flatten))
    let s2 := s1.writeOut k failed none (fieldOf w 3 4 19 * 16) (qs.map (·.scale))
    (s2.count k i.opn (qs.map (·.sat)).sum ((qs.map (·.flush)).sum + rd.2) (qs.map (·.nanBlk)).sum).addTile k i.opn
      ⟨true, fieldOf w 2 0 23, flagElems (rd.1.zipIdx.map (fun (v, j) => (j, v, false)))⟩

/-- SDSPLIT (R237, R134, R135). The NaN blocks that it writes take the NaN trap with no NaN in the source too (R94, `opTraps`). -/
def State.sdsplit (s : State) (k : Nat) (i : Inf) (rrb : Nat) : State :=
  let w := i.w
  let md := s.modeOf k i.opn
  let failed := s.opFailed k i.opn
  let rd := readVals md .f64 (s.kindCodes k rrb (iVa w) true)
  let z := toSigned 11 (fieldOf w 1 16 11)
  let blks := (groups16 rd.1).map (fun vs => splitBlock vs z)
  let plane := fun (p : Nat) => blks.map (fun b => b.getD p (zeroBlock 32))
  let s1 := (List.range 7).foldl (fun t p =>
    (t.writeOut k failed none (fieldOf w 2 0 23 + p * 512) (((plane p).map (·.codes)).flatten)).writeOut k failed none
      (fieldOf w 3 4 19 * 16 + p * 16) ((plane p).map (·.scale))) s
  let all := blks.flatten
  (s1.count k i.opn 0 ((all.map (·.flush)).sum + rd.2) (all.map (·.nanBlk)).sum).addTile k i.opn
    ⟨true, fieldOf w 2 0 23, flagElems (rd.1.zipIdx.map (fun (v, j) => (j, v, false)))⟩

/-! ### Reductions and index search (R238 to R241) -/

/-- Exact sum of lane values in a long accumulator (R238). -/
def sumVals (vs : List Val) : Acc :=
  Acc.add (prodFlags vs) { v := groupNarrow vs }

/-- VRSUM (R238). -/
def State.vrsum (s : State) (k : Nat) (i : Inf) (rrb : Nat) : State :=
  let md := s.modeOf k i.opn
  let rd := readVals md .f32 (s.lanes k (physReg rrb (iVa i.w)))
  let sums := if fieldOf i.w 1 26 1 == 1 then (groups16 rd.1).map (fun v => (sumVals v).source 0) else [(sumVals rd.1).source 0]
  s.vecWrite k i rrb false (sums ++ List.replicate (512 - sums.length) (.zero false)) rd.2

/-- Whether candidate `a` comes before `b` in the order of R239; a candidate is a value and an index. -/
def beforeIn (isMax : Bool) (a b : Val × Nat) : Bool :=
  match a.1.isNan, b.1.isNan with
  | true, true => decide (a.2 < b.2)
  | true, false => true
  | false, true => false
  | false, false =>
    if isMax then (if b.1.lt a.1 then true else if a.1.lt b.1 then false else decide (a.2 < b.2))
    else (if a.1.lt b.1 then true else if b.1.lt a.1 then false else decide (a.2 < b.2))

/-- First candidate of a list in the order of R239. -/
def firstOf (isMax : Bool) : List (Val × Nat) → Val × Nat
  | [] => (.zero false, 0)
  | [c] => c
  | c :: cs => let b := firstOf isMax cs; if beforeIn isMax c b then c else b

/-- VMAXI and VMINI (R239 to R241). -/
def State.vsearch (s : State) (k : Nat) (i : Inf) (rrb : Nat) (isMax : Bool) : State :=
  let w := i.w
  let md := s.modeOf k i.opn
  let rd := readVals md .f32 (s.lanes k (physReg rrb (iVa w)))
  let imm := fieldOf w 2 0 32
  let cands := rd.1.zipIdx.map (fun (v, j) => (v, (imm + j) % 2 ^ 32))
  let comb := fieldOf w 1 27 1 == 1
  let scope := fieldOf w 1 26 1 == 1
  let old := s.lanes k (physReg rrb (iVd w))
  let oldAt := fun (g : Nat) => (readCode md .f32 (old.getD (2 * g) 0), old.getD (2 * g + 1) 0)
  let n := if scope then 16 else 1
  let sets := if scope then groups16 cands else [cands]
  let res := sets.zipIdx.map (fun (c, g) =>
    firstOf isMax (c ++ (if comb then [((oldAt g).1.1, (oldAt g).2)] else [])))
  let oldFl := if comb then ((List.range n).map (fun g => (oldAt g).1.2)).sum else 0
  let lanes := (res.map (fun r => [(convertVal md false .f32 r.1).code, r.2])).flatten
  let s1 := s.setLanes k (physReg rrb (iVd w)) 0 (lanes ++ List.replicate (512 - lanes.length) 0)
  (s1.count k i.opn 0 (rd.2 + oldFl) 0).addTile k i.opn
    ⟨false, 0, flagElems (res.zipIdx.map (fun (r, g) => (2 * g, r.1, false)))⟩

/-! ### Signal mode (R242 to R246) -/

/-- SMAC and SMSU (R244, R245). -/
def State.smac (s : State) (k w rrb : Nat) (sub : Bool) : State :=
  let xs := (s.lanes k (physReg rrb (iVa w))).map (fun c => toSigned 24 c)
  let yr := (s.lanes k (physReg rrb (iVb w))).map (fun c => toSigned 24 c)
  let bl := fieldOf w 2 0 5
  let ys := if fieldOf w 1 27 1 == 1 then (List.range 512).map (fun i => yr.getD (32 * (i / 32) + bl) 0) else yr
  let a := fieldOf w 1 22 3
  let accs := if fieldOf w 1 26 1 == 1 then List.replicate 512 0 else s.sigAccs k a
  let exact := List.zipWith (fun ac xy => toSigned 56 ac + (if sub then -(xy.1 * xy.2) else xy.1 * xy.2)) accs (List.zip xs ys)
  let lim : Int := ((2 ^ 55 : Nat) : Int)
  let ovf := exact.map (fun (v : Int) => decide (v < -lim) || decide (v ≥ lim))
  let bits := (groups16 ovf).zipIdx.foldl (fun m (o, g) => if o.any id then m ||| 2 ^ g else m) (s.fld VEC_SIGSTAT_AOVF k)
  (s.setSigAccs k a (exact.map (ofSigned 56))).setFld VEC_SIGSTAT_AOVF k 0 bits

/-- SWB (R246). -/
def State.swb (s : State) (k : Nat) (i : Inf) (rrb : Nat) : State :=
  let w := i.w
  let md := s.modeOf k i.opn
  let sh := fieldOf w 1 28 4
  let vs := (s.sigAccs k (fieldOf w 1 22 3)).map (fun a => valOfInt (toSigned 56 a) (-46 - (sh : Int)))
  let cs := vs.map (convertVal md (fieldOf w 1 25 1 == 1) .x24)
  let s1 := s.setLanes k (physReg rrb (iVd w)) 0 (cs.map (fun c => x24Lane c.code))
  (s1.count k i.opn (cs.map (·.sat)).sum (cs.map (·.flush)).sum 0).addTile k i.opn ⟨false, 0, vecFlag vs cs⟩

/-! ### Starting a vector instruction -/

/-- Coach cycles that a live instruction occupies (Table 5.2). -/
def vecOccupancy (w : Nat) : Nat :=
  let op := opOf w
  let bytes := 64 * selWidth (iFmt w) + (if selScaled (iFmt w) then 16 else 0)
  if op == 0x40 || op == 0x41 || op == 0x59 then max 1 (ceilDiv bytes 1024)
  else if 0x50 ≤ op && op ≤ 0x56 then 4
  else if op == 0x5A then 4
  else if op == 0x5C || op == 0x5D || op == 0x5E then 2
  else if op == 0x58 then (if fieldOf w 1 28 2 == 1 || fieldOf w 1 30 2 == 1 then 4 else 1)
  else if op == 0x42 || (0x48 ≤ op && op ≤ 0x4F) then (if iP w then 4 else 1)
  else 1

/-- The work of each vector opcode (Table 5.4). -/
def State.vecWork (s : State) (k : Nat) (i : Inf) (rrb : Nat) : State :=
  let w := i.w
  match opOf w with
  | 0x40 => s.vld k i rrb
  | 0x41 => s.vst k i rrb
  | 0x42 => s.putCodes k rrb (iVd w) (iP w) (s.kindCodes k rrb (iVa w) (iP w))
  | 0x43 => s.putCodes k rrb (iVd w) false (List.replicate 512 (fieldOf w 2 0 32))
  | 0x44 => s.vsetcb k w
  | 0x48 => s.vec2 k i rrb Val.add
  | 0x49 => s.vec2 k i rrb (fun a b => a.add b.negate)
  | 0x4A => s.vec2 k i rrb Val.mul
  | 0x4B => s.vec3 k i rrb (fun a b c => (a.mul b).add c)
  | 0x4C => s.vec3 k i rrb (fun a b c => (a.mul b).add c.negate)
  | 0x4D => s.vec2 k i rrb vMin
  | 0x4E => s.vec2 k i rrb vMax
  | 0x4F => s.vec1 k i rrb vAbs
  | 0x50 => s.vecSpecial k i rrb 0
  | 0x51 => s.vecSpecial k i rrb 1
  | 0x52 => s.vecSpecial k i rrb 2
  | 0x53 => s.vecSpecial k i rrb 3
  | 0x54 => s.vecSpecial k i rrb 4
  | 0x55 => s.vecSpecial k i rrb 5
  | 0x56 => s.vecSpecial k i rrb 6
  | 0x58 => s.vcvt k i rrb
  | 0x59 => s.vquant k i rrb
  | 0x5A => s.sdsplit k i rrb
  | 0x5C => s.vrsum k i rrb
  | 0x5D => s.vsearch k i rrb true
  | 0x5E => s.vsearch k i rrb false
  | 0x60 => s.smac k w rrb false
  | 0x61 => s.smac k w rrb true
  | 0x62 => s.swb k i rrb
  | 0x68 | 0x69 =>
    let l := loopStep (s.loopSt k) w
    s.setFlds k 0 [(VEC_LOOP_RRB, l.rrb), (VEC_LOOP_ON, b2n l.on), (VEC_LOOP_SM1, l.sm1), (VEC_TRIP_TRIP, l.trip), (VEC_TRIPN_N, l.n)]
  | _ => s

/-- Coach cycles from the start of a live instruction to its completion (Table 5.2), when no coach-store access is delayed. -/
def vecLatency (w : Nat) : Nat :=
  let op := opOf w
  if op == 0x40 then vecOccupancy w + 5
  else if op == 0x41 || op == 0x59 then vecOccupancy w + 4
  else if 0x50 ≤ op && op ≤ 0x56 then 14
  else if op == 0x5A then 8
  else if op == 0x5C || op == 0x5D || op == 0x5E then 10
  else if op == 0x60 || op == 0x61 then 4
  else if op == 0x62 then 5
  else if op == 0x44 || op == 0x68 || op == 0x69 then 1
  else if vecOccupancy w == 4 then 10 else 4

/-- Whether a vector instruction may be delayed by the priority of Table 4.4: it reads or writes the coach store (R220). -/
def vecDelayable (w : Nat) : Bool := opOf w == 0x40 || opOf w == 0x41 || opOf w == 0x59 || opOf w == 0x5A

/-- Whether an instruction that started after those of `before` (oldest first) may complete before them (R220): each of them may be delayed,
or Table 5.2 brings it no earlier; a start waits for the occupancy of the one before (R219). -/
def mayOvertake (w : Nat) : List Nat → Bool
  | [] => true
  | v :: r => (vecDelayable v || decide (((v :: r).map vecOccupancy).sum + vecLatency w ≤ vecLatency v)) && mayOvertake w r

/-- A vector instruction starts (R219, R220): it does its work at once and stays in flight until VECTOR_COMPLETE; one that is
not live does nothing and completes at start (R249). One of an operation that a spill has failed writes no register (R171). -/
def State.startVector (s : State) (k : Nat) (i : Inf) : State :=
  if !i.live then s.updCoach k (fun c => { c with flight := c.flight.filter (fun j => j.id != i.id) })
  else
    let rrb := s.fld VEC_LOOP_RRB k
    let t := s.vecWork k i rrb
    let s1 := (if s.opFailed k i.opn then { t with vreg := s.vreg } else t).wrapAdd VEC_BUSY_BUSY k 0 (vecOccupancy i.w)
    s1.updCoach k (fun c => c.mapInf i.id (fun j =>
      { j with started := true, wregs := writesRegs rrb i.w, waccs := writesAccs i.w }))

/-- R219: no earlier vector instruction still to complete writes what this one reads or writes. One that waits for the record of the operation
it closes has not completed (R220). -/
def vecReady (c : CoachS) (rrb : Nat) (i : Inf) : Bool :=
  let mine := readsRegs rrb i.w ++ writesRegs rrb i.w
  let accs := usesAccs i.w
  !c.flight.any (fun j => decide (j.id < i.id) && j.started &&
    (j.wregs.any (fun r => mine.contains r) || j.waccs.any (fun a => accs.contains a)))

end Sys2Proof.Machine
end

