-- ==== Sys2Proof/Machine/Sequencer.lean ====
section
/-! DEFINITION. The coach sequencer: issue, start, completion, operations and control instructions (chapter 04, R177 to
R211). -/

namespace Sys2Proof.Machine

/-! ### Regions and start conditions (Table 4.6) -/

/-- Whether two instructions' bank regions share an entry, each given by its word (R167). -/
def regionsMeet (a b : Nat) : Bool :=
  (iArrays a).any (fun x => (iArrays b).contains x) && decide (iRow0 a < iRow0 b + iM b) && decide (iRow0 b < iRow0 a + iM a)

/-- A bank instruction whose source is the bank (Table 4.6). -/
def bankSource (w : Nat) : Bool := opOf w == 4 || opOf w == 5 || (opOf w == 6 && fieldOf w 0 21 1 == 0)

/-- Table 4.6 and R219: whether an instruction in flight may start. An instruction has completed when it is no longer in flight: one that closes
an operation stays until the record is written (R186). -/
def State.canStart (s : State) (k : Nat) (i : Inf) : Bool :=
  let c := s.coach k
  let before := c.flight.filter (fun j => decide (j.id < i.id))
  let fence := !iFence i.w || before.isEmpty
  let own := match opOf i.w with
    | 1 => !before.any (fun j => opOf j.w == 1) &&
        !before.any (fun j => opOf j.w == 3 && j.wset == i.wset && (!j.started || decide (j.rowsIn < iM j.w)))
    | 2 => !before.any (fun j => unitOf (opOf j.w) == some .array && !j.started)
    | 3 => !before.any (fun j => opOf j.w == 3 && (!j.started || decide (j.rowsIn < iM j.w))) &&
        c.loaded i.wset && !before.any (fun j => opOf j.w == 1 && j.wset == i.wset && !j.finished) &&
        !before.any (fun j => bankSource j.w && !j.finished && regionsMeet j.w i.w)
    | 4 | 5 => !before.any (fun j => opOf j.w == 3 && regionsMeet j.w i.w)
    | 6 => !bankSource i.w || !before.any (fun j => opOf j.w == 3 && regionsMeet j.w i.w)
    | _ => vecReady c (s.fld VEC_LOOP_RRB k) i
  fence && own

/-! ### REDUCE (R200 to R202) -/

/-- Cut tallies into packets: consecutive entries, at most 512 bytes of tally words each. -/
def packTallies : List (Nat × Acc) → List (Nat × List (List Nat))
  | [] => []
  | (e, a) :: r =>
    let ws := tallyWords a
    match packTallies r with
    | (e2, tl) :: ps =>
      if e + 1 == e2 && decide ((tl.flatten.length + ws.length) * 16 ≤ 512) then (e, ws :: tl) :: ps else (e, [ws]) :: (e2, tl) :: ps
    | [] => [(e, [ws])]

/-- REDUCE starts: its tallies are read (and cleared when CLR = 1) and either wait at this coach's own bank or leave in
reduce packets (R201, R338). On an invalid entry nothing is sent, and the entry is reported once (R201, R350). With ARRMASK = 0 there is no
tally: a local REDUCE gives its increment at once, a remote one sends no packet and gives none (DEDUCED, log 108). -/
def State.startReduce (s : State) (k : Nat) (i : Inf) : State :=
  let w := i.w
  let store := fieldOf w 0 21 1 == 1
  let r := if store then s.reduceStore k w else s.reduceBank k w
  let s1 := if !store && fieldOf w 0 22 1 == 1 then r.2.clearRegion k w else r.2
  let syncn := fieldOf w 2 16 4
  if fieldOf w 2 20 1 == 1 then
    (s1.updCoach k (fun c => { c with tallyIn := c.tallyIn ++ r.1.map (fun t => { entry := t.1, acc := t.2, src := localSrc i.id i.pc }),
                                      syncDue := c.syncDue ++ [(localSrc i.id i.pc, syncn)] })).syncSettle k
  else
    let u := coachUnit k
    let pk := packTallies r.1
    let out := if s1.entryValid u (fieldOf w 2 0 8) then pk else pk.take 1
    out.zipIdx.foldl (fun t (p, n) =>
      t.niSend u (fieldOf w 2 0 8)
        { vn := 3, op := 0, ctx := s.fld COA_ROLE_CONTEXT k, tag := 1536 + i.id % 512, addr := p.1 + syncn * 2 ^ 17 + b2n (n + 1 == pk.length) * 2 ^ 21,
          aux := n + p.2.length * 2 ^ 16, len := p.2.flatten.length, data := ((p.2.flatten).map (leBytes 16)).flatten }) s1

/-! ### Starting (R178, R180) -/

/-- Mark an instruction as started. -/
def State.markStarted (s : State) (k id : Nat) : State :=
  s.updCoach k (fun c => c.mapInf id (fun j => { j with started := true }))

/-- An instruction has finished its own work (R186): it leaves the queue, unless it closes an operation whose record is not
written yet. -/
def State.finishInf (s : State) (k : Nat) (i : Inf) : State :=
  s.updCoach k (fun c =>
    let waits := c.ops.any (fun o => o.closed && o.closerId == i.id && !o.closerDone)
    let c2 := { c with ops := c.ops.map (fun (o : Opn) => if o.closed && o.closerId == i.id then { o with closerDone := true } else o) }
    if waits then c2.mapInf i.id (fun j => { j with started := true, finished := true })
    else { c2 with flight := c2.flight.filter (fun j => j.id != i.id) })

/-- The work of an instruction that starts, by itself. -/
def State.startWork (s : State) (k : Nat) (i : Inf) : State :=
  match opOf i.w with
  | 1 => s.startLoadw k i
  | 2 => s.finishInf k i
  | 3 => s.startPass k i
  | 4 => (s.drain k i).markStarted k i.id
  | 5 => (s.quant k i).markStarted k i.id
  | 6 => (s.startReduce k i).markStarted k i.id
  | _ => s.startVector k i

/-- What an instruction has read from coach-store bytes that a later one writes without a fence is unpredictable (R181): a tile being loaded
takes free codes, and the registers of a VLD free lanes. -/
def State.spoilRead (s : State) (k : Nat) (j : Inf) : State :=
  if !j.started || j.finished then s
  else if opOf j.w == 1 then
    let r := s.draws (selWidth j.tile.sel) 16384
    r.2.updCoach k (fun c => c.mapInf j.id (fun x => { x with tile := { x.tile with codes := mblock 0 [] 0 r.1 } }))
  else if opOf j.w == 0x40 then
    j.wregs.foldl (fun t v => let r := t.draws 32 512; r.2.setLanes k v 0 r.1) s
  else s

/-- An instruction starts (R180). The sequencer compares no coach-store addresses (R181): bytes that it reads and an earlier instruction in
flight writes take free values before its work, and bytes that it writes and an earlier one reads do so after it, with what was read of them. -/
def State.startInf (s : State) (k : Nat) (i : Inf) : State :=
  let before := (s.coach k).flight.filter (fun j => decide (j.id < i.id))
  let s1 := before.foldl (fun t j => t.freeSpans k (commonSpans (s.readSpans k i.w) (s.writeSpans k j.w))) s
  before.foldl (fun t j =>
    let l := commonSpans (s.writeSpans k i.w) (s.readSpans k j.w)
    if l.isEmpty then t else (t.freeSpans k l).spoilRead k j) (s1.startWork k i)

/-- The oldest instruction of a unit that has not started (R178). -/
def CoachS.nextOf (c : CoachS) (u : SeqUnit) : Option Inf :=
  c.flight.find? (fun i => unitOf (opOf i.w) == some u && !i.started)

/-- Start the next instruction of a unit when its conditions hold and the coach clock runs (R574). -/
def State.tryStart (s : State) (k : Nat) (u : SeqUnit) : State :=
  match (s.coach k).nextOf u with
  | none => s
  | some i => if !s.coachStill && s.canStart k i then s.startInf k i else s

/-! ### Issue (R177, R184 to R189, R209) -/

/-- Whether the coach issues: its clock runs (R574, R593), state RUN, not stopped, no control instruction or END waiting (R179, R208), no trap decision
outstanding (R189). -/
def State.issuing (s : State) (k : Nat) : Bool :=
  let c := s.coach k
  !s.coachStill && s.fld COA_STATE_STATE k == 2 && !c.halted && c.ctrl.isNone && !c.ending && !c.ops.any (fun o => o.closed && o.mode.nanTrap)

/-- The instruction at COA_PC. -/
def State.atPc (s : State) (k : Nat) : Nat := s.seqWord k (s.fld COA_PC_PC k)

/-- Whether an operation is open (R186). -/
def CoachS.openOp (c : CoachS) : Option Opn := c.ops.find? (fun o => !o.closed)

/-- Open an operation when a counting instruction issues and none is open (R184, R185, R187). -/
def State.openFor (s : State) (k w : Nat) (live : Bool) : State :=
  if counting (opOf w) && live && (s.coach k).openOp.isNone then
    s.updCoach k (fun c => { c with ops := c.ops ++ [{ seq := s.fld COA_SEQ_SEQ k, mode := s.numMode k }] })
  else s

/-- Close the open operation at the issue of its closing instruction `id` (R186, R187). -/
def State.closeFor (s : State) (k id pc statSel : Nat) (done : Bool) : State :=
  match (s.coach k).openOp with
  | none => s
  | some o =>
    (s.updOp k (some o.seq) (fun p => { p with closed := true, closerId := id, closerPc := pc, statSel := statSel, closerDone := done })).setFld
      COA_SEQ_SEQ k 0 (o.seq + 1)

/-- Move COA_PC past an instruction; beyond index 1,023 the fault RUNOFF is found (R177). -/
def State.advance (s : State) (k pc : Nat) : State :=
  if pc == 1023 then s.seqFault k 4 1023 else s.setFld COA_PC_PC k 0 (pc + 1)

/-- Issue an instruction of a unit: it opens or joins an operation, enters the unit's queue and starts at once when it may
(R178, R184, R186). SWAPW exchanges the roles of the sets for every later PASS (R165). -/
def State.issueUnit (s : State) (k w pc : Nat) (u : SeqUnit) : State :=
  let live := isLive (s.loopAhead k) w
  let s1 := s.openFor k w live
  let c := s1.coach k
  let a := s1.fld ARR_WSTATE_ACTIVE k
  let inf : Inf := { id := c.nextId, w := w, pc := pc, live := live,
                     opn := if counting (opOf w) && live then c.openOp.map (·.seq) else none,
                     wset := if opOf w == 1 then 1 - a else a }
  let s2 := s1.setCoach k { c with flight := c.flight ++ [inf], nextId := c.nextId + 1 }
  let s3 := if opOf w == 2 then (s2.setFld ARR_WSTATE_ACTIVE k 0 (1 - a)).showSets k else s2
  let s4 := if iClose w && live then s3.closeFor k inf.id pc (iStatSel w) false else s3
  ((s4.wrapAdd COA_ISSUED_ISSUED k 0 1).advance k pc).tryStart k u

/-- The common part of every issue row: the coach issues, the instruction at COA_PC is of opcode `op`, its unit's queue has
room; a failed check is the fault BADFIELD (R209, R210). An instruction that has started has left the queue (R178; DEDUCED, log 103). -/
def State.issueOp (s : State) (k op : Nat) (act : Nat → Nat → State → State) : State :=
  let w := s.atPc k
  let pc := s.fld COA_PC_PC k
  if !s.issuing k || opOf w != op then s
  else
    let full : Bool := match unitOf op with
      | some u => decide (queueDepth u ≤ ((s.coach k).flight.filter (fun i => unitOf (opOf i.w) == some u && !i.started)).length)
      | none => false
    if full then s
    else if badField w then s.seqFault k 2 pc
    else act w pc s

/-- Issue of an instruction that a unit carries out. -/
def State.issueTo (s : State) (k op : Nat) (u : SeqUnit) : State :=
  s.issueOp k op (fun w pc t => t.issueUnit k w pc u)

/-- A control instruction completes: its effect is given, CLOSE closes the open operation (R186), COA_PC moves to `next`, or
past the instruction (R179). -/
def State.controlDone (s : State) (k w pc : Nat) (branch : Option Nat) : State :=
  let s1 := if iClose w then s.closeFor k (2 ^ 40) pc (iStatSel w) true else s
  match branch with
  | some t => s1.setFld COA_PC_PC k 0 t
  | none => s1.advance k pc

/-- Issue of a control instruction without a wait of its own. FENCE holds it until every earlier instruction has completed. -/
def State.issueControl (s : State) (k op : Nat) (act : Nat → State → State × Option Nat) : State :=
  s.issueOp k op (fun w pc t =>
    if iFence w && !(t.coach k).flight.isEmpty then t
    else
      let r := act w (t.wrapAdd COA_ISSUED_ISSUED k 0 1)
      r.1.controlDone k w pc r.2)

/-- Hold a waiting control instruction (R179). -/
def State.holdControl (s : State) (k w pc : Nat) : State :=
  s.updCoach k (fun c => { c with ctrl := some { id := c.nextId, w := w, pc := pc }, nextId := c.nextId + 1 })

/-! ### Operations end (R186 to R189, R92 to R97) -/

/-- Record a NaN trap (R94 to R97). COA_STATE shows TRAPPED, but FAULTED where a fault was found before or at the same end (DEDUCED,
log 107). -/
def State.takeTrap (s : State) (k seq : Nat) : State :=
  let s1 := if s.flag NUM_TRAPINFO_VALID k then s.setFlag NUM_TRAPINFO_MORE k 0 true
    else s.setFlds k 0 [(NUM_TRAPINFO_CONTEXT, s.fld COA_ROLE_CONTEXT k), (NUM_TRAPINFO_MORE, 0), (NUM_TRAPINFO_VALID, 1), (NUM_TRAPSEQ_SEQ, seq)]
  ((if s1.fld COA_STATE_STATE k == 5 then s1 else s1.setFld COA_STATE_STATE k 0 4).updCoach k (fun c => { c with halted := true })).report
    { cause := 0x11, ctx := s.boundCtx k, unit := coachUnit k, code := 0, kind := 2, evUnit := coachNumber k, seq := seq }

/-- Whether every counting instruction of an operation, and its closing instruction, has finished its own work. -/
def opReady (c : CoachS) (o : Opn) : Bool :=
  o.closed && o.closerDone && !c.flight.any (fun i => i.opn == some o.seq && !i.finished)

/-- R188: write the record at the status pointer named by the closing instruction, or find STATRANGE. After a record that ends at 0x7F_FFFF the
23-bit pointer reads 0 (DEDUCED, log 109). -/
def State.writeRecord (s : State) (k : Nat) (o : Opn) (trap : Bool) : State :=
  let bs := statusRecord o trap
  let a := s.fld COA_SP_ADDR k o.statSel
  if decide (a + bs.length > storeSize) then s.seqFault k 5 o.closerPc
  else (s.storeWrite k a bs).setFld COA_SP_ADDR k o.statSel (a + ceilDiv bs.length 16 * 16)

/-- R208: END has been reached and every earlier instruction and record is done, so the coach's part of the work order ends, and COA_PC passes
the END (R179; it never wraps, R177). -/
def State.settleEnd (s : State) (k : Nat) : State :=
  let c := s.coach k
  if c.ending && c.flight.isEmpty && c.ops.isEmpty then
    let s1 := (s.setCoach k { c with ending := false, ended := true, idleFrom := s.coachCycles }).setFld COA_PC_PC k 0 (min 1023 (s.fld COA_PC_PC k + 1))
    if s1.fld COA_STATE_STATE k == 2 then s1.setFld COA_STATE_STATE k 0 1 else s1
  else s

/-- Whether an operation takes the NaN trap at its end (R94): its output held an element that was NaN before conversion, or a NaN block, also
one with no NaN in its source (DEDUCED, log 101). -/
def opTraps (o : Opn) : Bool := o.mode.nanTrap && (o.sawNan || decide (0 < o.nanBlk))

/-- The oldest operation ends when it is ready: record, trap decision, and completion of its closing instruction. Records
are written in the order of sequence numbers, so only the oldest is considered (R188). -/
def State.endOperation (s : State) (k : Nat) : State :=
  match (s.coach k).ops with
  | [] => s
  | o :: rest =>
    if !opReady (s.coach k) o then s
    else
      let trap := opTraps o
      let s1 := s.writeRecord k o trap
      let s2 := s1.updCoach k (fun c => { c with ops := rest, flight := c.flight.filter (fun i => !(i.id == o.closerId && i.finished)) })
      (if trap then s2.takeTrap k o.seq else s2).settleEnd k

/-- OPERATION_END (R186). -/
def execOperationEnd (k : Coach) (s : State) : Res := if s.coachStill then ok s else ok (s.endOperation k)

/-! ### Unit rows -/

/-- INSTR_START (R180): the next queued instruction of a unit starts once its conditions hold. -/
def execInstrStart (k : Coach) (unit : SeqUnit) (s : State) : Res := ok ((s.tryStart k unit).settleEnd k)

/-- LOADW_COMPLETE (R163): the tile stands in its set, which now holds a completed load. -/
def execLoadwComplete (k : Coach) (s : State) : Res :=
  if s.coachStill then ok s else
  match (s.coach k).flight.find? (fun i => opOf i.w == 1 && i.started && !i.finished) with
  | none => ok s
  | some i => ok ((((s.updCoach k (fun c => c.putSet i.wset i.tile true)).finishInf k i).showSets k).settleEnd k)

/-- PASS_COMPLETE (R161): every group sum of the oldest pass has reached the bank. -/
def execPassComplete (k : Coach) (s : State) : Res :=
  if s.coachStill then ok s else
  match (s.coach k).passes.find? (fun i => !i.finished) with
  | none => ok s
  | some i =>
    if i.rowsIn == iM i.w && i.nAdded == passTotal i.w then
      ok (((s.finishInf k i).bump ARR_PASSES_PASSES k 0 1).settleEnd k)
    else ok s

/-- Whether packets of a coach are held on a frozen entry (R359): the REDUCE that sent them waits. -/
def State.reduceHeld (s : State) (k : Nat) (i : Inf) : Bool :=
  opOf i.w == 6 && fieldOf i.w 2 20 1 == 0 && !(mget [] s.net.heldPk (coachUnit k * 256 + fieldOf i.w 2 0 8)).isEmpty

/-- BANK_INSTR_COMPLETE (R178): the oldest bank instruction that has started is done writing or sending. -/
def execBankInstrComplete (k : Coach) (s : State) : Res :=
  if s.coachStill then ok s else
  match (s.coach k).flight.find? (fun i => unitOf (opOf i.w) == some .bank && i.started && !i.finished) with
  | none => ok s
  | some i => if s.reduceHeld k i then ok s else ok ((s.finishInf k i).settleEnd k)

/-- The vector instructions that have started and have results to write, in the order of their start. -/
def CoachS.vectors (c : CoachS) : List Inf := c.flight.filter (fun i => unitOf (opOf i.w) == some .vector && i.started && !i.finished)

/-- VECTOR_COMPLETE (R220): the `n`-th of the vector instructions that have started has written its last result. It does nothing where Table 5.2
brings an earlier one first. -/
def execVectorComplete (k : Coach) (n : Nat) (s : State) : Res :=
  if s.coachStill then ok s else
  match (s.coach k).vectors[n]? with
  | none => ok s
  | some i =>
    if mayOvertake i.w (((s.coach k).vectors.take n).map (·.w)) then ok ((s.finishInf k i).settleEnd k) else ok s

/-! ### Issue of the array and bank instructions -/

/-- BADOP (R191, R209): issue of an opcode outside the tables. -/
def execBadop (k : Coach) (s : State) : Res :=
  ok (if s.issuing k && !knownOps.contains (opOf (s.atPc k)) then s.seqFault k 1 (s.fld COA_PC_PC k) else s)

/-- NOP (R191). -/
def execNop (k : Coach) (s : State) : Res := ok (s.issueControl k 0 (fun _ t => (t, none)))
/-- LOADW (R192). -/
def execLoadw (k : Coach) (s : State) : Res := ok (s.issueTo k 1 .array)
/-- SWAPW (R165). -/
def execSwapw (k : Coach) (s : State) : Res := ok (s.issueTo k 2 .array)
/-- PASS (R195). -/
def execPass (k : Coach) (s : State) : Res := ok (s.issueTo k 3 .array)
/-- DRAIN (R196). -/
def execDrain (k : Coach) (s : State) : Res := ok (s.issueTo k 4 .bank)
/-- QUANT (R199). -/
def execQuant (k : Coach) (s : State) : Res := ok (s.issueTo k 5 .bank)
/-- REDUCE (R201). -/
def execReduce (k : Coach) (s : State) : Res := ok (s.issueTo k 6 .bank)

/-! ### Control instructions (R203 to R208) -/

/-- SETNUM (R203, R207). -/
def execSetnum (k : Coach) (s : State) : Res :=
  ok (s.issueControl k 9 (fun w t =>
    (t.setFlds k 0 [(NUMCTL_DNZ, fieldOf w 1 0 1), (NUMCTL_FORERUN, fieldOf w 1 1 1), (NUMCTL_SATFINITE, fieldOf w 1 2 1),
      (NUMCTL_NANTRAP, fieldOf w 1 3 1)], none)))

/-- SETSP (R203). -/
def execSetsp (k : Coach) (s : State) : Res :=
  ok (s.issueControl k 0xA (fun w t => (t.setFld COA_SP_ADDR k (fieldOf w 0 21 2) (fieldOf w 1 0 23), none)))

/-- SETC (R203). -/
def execSetc (k : Coach) (s : State) : Res :=
  ok (s.issueControl k 0xB (fun w t => (t.setFld COA_LOOP_COUNT k (fieldOf w 0 21 2) (fieldOf w 1 0 32), none)))

/-- LOOP (R206). -/
def execLoop (k : Coach) (s : State) : Res :=
  ok (s.issueControl k 0xC (fun w t =>
    let n := fieldOf w 0 21 2
    let v := t.fld COA_LOOP_COUNT k n
    if v == 0 then (t, none)
    else (t.setFld COA_LOOP_COUNT k n (v - 1), if v == 1 then none else some (fieldOf w 1 0 10))))

/-- R205: a SYNC whose counter has reached VALUE takes it. -/
def State.syncTry (s : State) (k w pc : Nat) : Option State :=
  let n := fieldOf w 0 21 4
  let v := fieldOf w 1 0 16
  let cnt := s.fld COA_SYNC_COUNT k n
  if decide (v ≤ cnt) && (!iFence w || (s.coach k).flight.isEmpty) then
    some ((s.setFld COA_SYNC_COUNT k n (cnt - v)).controlDone k w pc none)
  else none

/-- SYNC (R205): it completes at issue when its counter is high enough; otherwise the coach shows WAIT. -/
def execSync (k : Coach) (s : State) : Res :=
  ok (s.issueOp k 8 (fun w pc t =>
    let t1 := t.wrapAdd COA_ISSUED_ISSUED k 0 1
    match t1.syncTry k w pc with
    | some t2 => t2
    | none => (t1.holdControl k w pc).setFld COA_STATE_STATE k 0 3))

/-- SYNC_COMPLETE (R205): a waiting SYNC finds its counter at least VALUE. It does so after a fault or a trap too, whose state stays (R210). -/
def execSyncComplete (k : Coach) (s : State) : Res :=
  if s.coachStill then ok s else
  match (s.coach k).ctrl with
  | none => ok s
  | some i =>
    if opOf i.w != 8 then ok s
    else match s.syncTry k i.w i.pc with
      | none => ok s
      | some t =>
        let t1 := t.updCoach k (fun c => { c with ctrl := none })
        ok (if t1.fld COA_STATE_STATE k == 3 then t1.setFld COA_STATE_STATE k 0 2 else t1)

/-- Whether an instruction in flight still reads or writes the consumer half of stream `n` (R204). -/
def usesHalf (i : Inf) (n : Nat) : Bool :=
  (srcStream i.w == some n && (if opOf i.w == 1 then !i.started else !i.started || decide (i.rowsIn < iM i.w))) ||
  (dstStream i.w == some n && !i.finished)

/-- Bytes of a stream's sequence: PLANES × ROWS × ROWLEN (R252). -/
def State.seqLen (s : State) (k n : Nat) : Nat :=
  s.fld STR_PLANES_PLANES k n * s.fld STR_ROWS_ROWS k n * s.fld STR_ROWLEN_ROWLEN k n

/-- Whether the waits of R204 and R260 of a SWAPB have ended: no instruction in flight uses the consumer half, and every byte of
the transfer half has landed, or has been acknowledged. -/
def State.swapReady (s : State) (k n : Nat) : Bool :=
  !(s.coach k).flight.any (fun i => usesHalf i n) && (s.strm k n).landed == (s.strm k n).share

/-- The halves exchange roles (R260, R261). -/
def State.swapHalves (s : State) (k n : Nat) : State :=
  let t := s.strm k n
  let s1 := s.setFld STR_STATE_CONS k n (1 - s.fld STR_STATE_CONS k n)
  let next := t.shareOff + t.share
  if s.fld STR_CFG_DIR k n == 0 then
    s1.updStrm k n (fun t => { t with recv := t.share, cons := 0, resv := 0, prod := 0, shareOff := next,
                                      share := min (s.halfSize k n) (t.len - next), reqd := 0, landed := 0 })
  else
    s1.updStrm k n (fun t => { t with recv := 0, cons := 0, resv := 0, prod := 0, shareOff := next,
                                      share := min (min t.prod (s.halfSize k n)) (t.len - next), reqd := 0, landed := 0 })

/-- SWAPB (R204, R260): the exchange at issue when nothing waits, else it holds issue. -/
def execSwapb (k : Coach) (s : State) : Res :=
  ok (s.issueOp k 7 (fun w pc t =>
    let t1 := t.wrapAdd COA_ISSUED_ISSUED k 0 1
    let n := fieldOf w 0 21 3
    if t1.swapReady k n && (!iFence w || (t1.coach k).flight.isEmpty) then (t1.swapHalves k n).controlDone k w pc none
    else t1.holdControl k w pc))

/-- SWAPB_COMPLETE (R260): a waiting SWAPB finds its waits ended. -/
def execSwapbComplete (k : Coach) (s : State) : Res :=
  if s.coachStill then ok s else
  match (s.coach k).ctrl with
  | none => ok s
  | some i =>
    let n := fieldOf i.w 0 21 3
    if opOf i.w == 7 && s.swapReady k n && (!iFence i.w || (s.coach k).flight.isEmpty) then
      ok (((s.updCoach k (fun c => { c with ctrl := none })).swapHalves k n).controlDone k i.w i.pc none)
    else ok s

/-- END (R208): it closes any open operation under its own STATSEL, and ends the work order on this coach once every earlier
instruction has completed. Until then COA_PC stays at the END (R179). -/
def execEndWorkOrder (k : Coach) (s : State) : Res :=
  ok (s.issueOp k 0xF (fun w pc t =>
    let t1 := (t.wrapAdd COA_ISSUED_ISSUED k 0 1).closeFor k (2 ^ 40) pc (iStatSel w) true
    (t1.updCoach k (fun c => { c with ending := true })).settleEnd k))

end Sys2Proof.Machine
end

