-- ==== Sys2Proof/Machine/Streams.lean ====
section
/-! DEFINITION. Streams (R251 to R271, R707): START, STOP and RESUME, the grant of the request slot, returning data,
acknowledgements and faults, and the stream engine's part of table walks and invalidations. -/

namespace Sys2Proof.Machine

/-! ### Configuration -/

/-- R254, the conditions of TRANS = 1. -/
def State.transOk (s : State) (k n : Nat) : Bool :=
  let w := if s.fld STR_CFG_TW k n == 1 then 2 else 1
  s.fld STR_CFG_DIR k n == 0 && s.fld STR_ROWLEN_ROWLEN k n == 128 * w && s.fld STR_ROWS_ROWS k n % 128 == 0 &&
    s.halfSize k n % (128 * s.fld STR_ROWLEN_ROWLEN k n) == 0

/-- R253: whether a START is refused. -/
def State.startRefused (s : State) (k n : Nat) : Bool :=
  let rl := s.fld STR_ROWLEN_ROWLEN k n
  s.fld STR_SRC_SRC k n % 16 != 0 || rl % 16 != 0 || decide (rl < 16) || decide (2 ^ 20 < rl) ||
    s.fld STR_ROWS_ROWS k n == 0 || s.fld STR_PLANES_PLANES k n == 0 || s.fld STR_HALF_HALF k n == 0 ||
    decide (storeSize < s.fld STR_BUF_BASE k n * 4096 + 2 * s.halfSize k n) ||
    (s.flag STR_CFG_TRANS k n && !s.transOk k n) || !s.flag COA_ROLE_BOUND k

/-- The report of a stream to the scheduler core (R268, step 5; R253). -/
def State.reportStream (s : State) (k n code va : Nat) : State :=
  let resumable := code == 1 || code == 4
  s.report { cause := if resumable || !s.flag COA_ROLE_BOUND k then 0 else 0x12, ctx := s.boundCtx k, unit := coachUnit k, code := code,
             kind := if s.flag COA_ROLE_BOUND k then 1 else 0, evUnit := coachNumber k, sub := n, va := va }

/-- START (R253, R257): a stream in IDLE, DONE or ERROR starts, or goes to ERROR with BADCFG and is reported. -/
def State.streamStart (s : State) (k n : Nat) : State :=
  let st := s.fld STR_STATE_STATE k n
  if st != 0 && st != 4 && st != 5 then s
  else if s.startRefused k n then
    (s.setFlds k n [(STR_STATE_STATE, 4), (STR_STATE_FCODE, 5)]).reportStream k n 5 0
  else
    let len := s.seqLen k n
    let share := if s.fld STR_CFG_DIR k n == 0 then min (s.halfSize k n) len else 0
    (s.setFlds k n [(STR_STATE_STATE, 1), (STR_STATE_CONS, 0), (STR_POS_POS, 0)]).updStrm k n (fun _ =>
      { len := len, share := share })

/-! ### Settling -/

/-- Whether a request of the stream is outstanding. -/
def State.streamBusy (s : State) (k n : Nat) : Bool := (s.coach k).reqs.any (fun r => r.n == n && !r.stale)

/-- Return a faulted stream to RUN from STR_POS: it requests again from that offset (R270). -/
def State.streamResumeNow (s : State) (k n : Nat) : State :=
  (s.setFld STR_STATE_STATE k n 1).updStrm k n (fun t =>
    { t with goHeld := false, failed := none, reqd := s.fld STR_POS_POS k n - t.shareOff, landed := s.fld STR_POS_POS k n - t.shareOff })

/-- After a request ends: a stopped stream with none outstanding enters IDLE (R262), a halted one FAULTED or ERROR (R268),
and a stream whose last byte is in place DONE (R261). -/
def State.settleStream (s : State) (k n : Nat) : State :=
  let t := s.strm k n
  let st := s.fld STR_STATE_STATE k n
  let code := s.fld STR_STATE_FCODE k n
  if s.streamBusy k n then s
  else if t.stopping then
    let s1 := (s.setFld STR_STATE_STATE k n 0).updStrm k n (fun t => { t with stopping := false, goHeld := false, failed := none })
    if t.failed.isSome then s1.reportStream k n code (s.fld STR_POS_POS k n) else s1
  else if st == 2 then
    let resumable := code == 1 || code == 4
    let s1 := (s.setFld STR_STATE_STATE k n (if resumable then 3 else 4)).reportStream k n code (s.fld STR_POS_POS k n)
    if resumable && t.goHeld then s1.streamResumeNow k n else s1.updStrm k n (fun t => { t with goHeld := false })
  else if st == 1 && t.landed == t.share && t.shareOff + t.share == t.len && decide (0 < t.len) then s.setFld STR_STATE_STATE k n 5
  else s

/-- A request fails with a code (R268, steps 1 to 3): the fields describe the failed request of lowest offset. -/
def State.requestFails (s : State) (k : Nat) (r : SReq) (code : Nat) : State :=
  let t := s.strm k r.n
  let s0 := s.updCoach k (fun c => { c with reqs := c.reqs.filter (fun x => x.id != r.id) })
  let lower := match t.failed with | none => true | some o => decide (r.off < o)
  let s1 := if lower then
      (s0.setFlds k r.n ([(STR_FAULTVA_FAULTVA, r.va), (STR_STATE_FCODE, code), (STR_STATE_WRITE, b2n r.write)] ++
        (if t.stopping then [] else [(STR_POS_POS, r.off)]))).updStrm k r.n (fun t => { t with failed := some r.off })
    else s0
  let s2 := if s1.fld STR_STATE_STATE k r.n == 1 && !t.stopping then s1.setFld STR_STATE_STATE k r.n 2 else s1
  s2.settleStream k r.n

/-! ### Requests -/

/-- Virtual address of an offset of the sequence (R252), modulo 2^64. -/
def State.seqVa (s : State) (k n off : Nat) : Nat :=
  let rl := s.fld STR_ROWLEN_ROWLEN k n
  let rows := s.fld STR_ROWS_ROWS k n
  let r := off / rl % rows
  let p := off / rl / rows
  ofSigned 64 ((s.fld STR_SRC_SRC k n : Int) + (p : Int) * toSigned 32 (s.fld STR_STRIDE2_STRIDE2 k n) * 16 +
    (r : Int) * toSigned 32 (s.fld STR_STRIDE1_STRIDE1 k n) * 16 + ((off % rl : Nat) : Int))

/-- Fill of a stream (R264). -/
def State.fillOf (s : State) (k n : Nat) : Nat :=
  let t := s.strm k n
  if s.fld STR_CFG_DIR k n == 0 then t.recv - t.cons + t.reqd else s.halfSize k n - t.prod + t.reqd

/-- R263, with R271 and R571: whether a stream may be granted the slot. -/
def State.eligible (s : State) (k n : Nat) : Bool :=
  let c := s.coach k
  let t := s.strm k n
  s.fld STR_STATE_STATE k n == 1 && !t.stopping && decide (t.reqd < t.share) &&
    decide ((c.reqs.filter (fun r => r.n == n)).length < 64) && decide (c.reqs.length < 256) &&
    !c.reqs.any (fun r => r.n == n && r.stale) && c.moving.isNone

/-- R265: whether stream `a` goes before stream `b`, given fill and rate; equal streams keep their order. -/
def goesBefore (fa ca fb cb : Nat) : Bool :=
  if ca == 0 then false else if cb == 0 then true else decide (fa * cb < fb * ca)

/-- The stream that the grant goes to. -/
def State.grantee (s : State) (k : Nat) : Option Nat :=
  (List.range 8).foldl (fun best n =>
    if !s.eligible k n then best
    else match best with
      | none => some n
      | some b => if goesBefore (s.fillOf k n) (s.fld STR_RATE_RATE k n) (s.fillOf k b) (s.fld STR_RATE_RATE k b) then some n else best) none

/-- R266: the class of a request at its grant. -/
def State.grantClass (s : State) (k n : Nat) : Nat :=
  let c := s.fld STR_RATE_RATE k n
  if 0 < c ∧ s.fillOf k n * 16 < s.fld STR_URGENT_THRESH k * c then 0 else s.fld STR_CFG_CLASS k n

/-- The lowest request number in use by no outstanding request. -/
def freeReqId (l : List SReq) : Nat := ((List.range 256).find? (fun i => !l.any (fun r => r.id == i))).getD 0

/-- Send a translated request (R255, R369): packets per granule for HBM, one packet for a tender or the host. -/
def State.sendReq (s : State) (k : Nat) (r : SReq) (l : Loc) : State :=
  let parts := if l.target == 0 then granules 512 l.addr r.len else [(l.addr, r.len)]
  let ctx := s.fld COA_ROLE_CONTEXT k
  let half := s.xferBase k r.n + (r.off - (s.strm k r.n).shareOff)
  let s1 := (if l.target == 2 then s.lockAbort 6 else s).updCoach k (fun c => { c with reqs := c.reqs.map (fun x =>
    if x.id == r.id then { x with left := parts.length, walking := false, used := [l.used ctx r.va] } else x) })
  parts.zipIdx.foldl (fun t (p, i) =>
    let e := if l.target == 0 then (t.place p.1).entry else if l.target == 1 then 0x20 + l.unit else 0x24 + l.unit
    t.niSend (coachUnit k) e
      (if r.write then
        { vn := 2, op := 0, sclass := r.cls, ctx := ctx, tag := r.id * 4 + i, addr := p.1, aux := p.2, len := ceilDiv p.2 16,
          data := t.storeRead k (half + (p.1 - l.addr)) p.2 }
      else { vn := 0, op := 0, sclass := r.cls, ctx := ctx, tag := r.id * 4 + i, addr := p.1, len := ceilDiv p.2 16 })) s1

/-- Mark a request as failed, to be taken up by STREAM_REQUEST_FAULT. -/
def State.markFail (s : State) (k id code : Nat) : State :=
  s.updCoach k (fun c => { c with reqs := c.reqs.map (fun x =>
    if x.id == id then { x with code := code, left := 0, walking := false } else x) })

/-- Translate a request and send it, or let it wait for its walk. -/
def State.dispatchReq (s : State) (k : Nat) (r : SReq) : State :=
  match s.ask (coachUnit k) (s.fld COA_ROLE_CONTEXT k) r.va r.write with
  | (.here l, s1) => s1.sendReq k r l
  | (.walking, s1) => s1.updCoach k (fun c => { c with reqs := c.reqs.map (fun x => if x.id == r.id then { x with walking := true } else x) })
  | (.fault code, s1) => s1.markFail k r.id code

/-- R680: whether DEV_PERTSTR holds back the grants of a coach's stream engine now. Periods are counted from the write, or from the rein cycle
while lockstep runs. -/
def State.grantStalled (s : State) (k : Nat) : Bool :=
  let cyc := if s.lockRun then s.fld DEV_LSCYC_CYC 0 else s.coachCycles - s.pertFrom
  s.flag DEV_PERTSTR_EN 0 && bitsOf (s.fld DEV_PERTSTR_CARMASK 0) (carOf k) 1 == 1 &&
    decide (cyc % 2 ^ (max 4 (s.fld DEV_PERTSTR_LOG2P 0)) < s.fld DEV_PERTSTR_STALL 0)

/-- STREAM_GRANT (R265, R680): the eligible stream of least fill over rate issues one request of at most 512 bytes of one row, within
one 4 KiB page (R255); a lookup that misses counts in STR_TCMISS. -/
def execStreamGrant (k : Coach) (s : State) : Res :=
  if s.coachStill || s.grantStalled k then ok s else
  match s.grantee k with
  | none => ok s
  | some n =>
    let t := s.strm k n
    let off := t.shareOff + t.reqd
    let va := s.seqVa k n off
    let rl := s.fld STR_ROWLEN_ROWLEN k n
    let len := min (min 512 (rl - off % rl)) (min (4096 - va % 4096) (t.share - t.reqd))
    let r : SReq := { id := freeReqId (s.coach k).reqs, n := n, off := off, len := len, va := va,
                      write := s.fld STR_CFG_DIR k n == 1, cls := s.grantClass k n }
    let s1 := ((s.updCoach k (fun c => { c with reqs := c.reqs ++ [r] })).updStrm k n (fun t => { t with reqd := t.reqd + len })).setFld
      STR_POS_POS k n (off + len)
    let miss := ((s.tc (coachUnit k)).lookup (s.fld COA_ROLE_CONTEXT k) va).isNone
    ok ((if miss then s1.bump STR_TCMISS_MISSES k 0 1 else s1).dispatchReq k r)

/-! ### Returns -/

/-- Position in the buffer of byte `o` of the share (R254): blocks of 128 rows are transposed when TRANS = 1. -/
def State.landAt (s : State) (k n o : Nat) : Nat :=
  if s.flag STR_CFG_TRANS k n then
    let w := if s.fld STR_CFG_TW k n == 1 then 2 else 1
    let rl := 128 * w
    let blk := o / (128 * rl)
    let q := o % (128 * rl)
    blk * (128 * rl) + (q % rl / w) * rl + (q / rl) * w + q % w
  else o

/-- Land a request's bytes in the transfer half. -/
def State.landBytes (s : State) (k n off : Nat) (bs : List Nat) : State :=
  let base := s.xferBase k n
  let o := off - (s.strm k n).shareOff
  if s.flag STR_CFG_TRANS k n then
    bs.zipIdx.foldl (fun t (b, i) => t.storeWrite k (base + s.landAt k n (o + i)) [b]) s
  else s.storeWrite k (base + o) bs

/-- A piece of a request's data placed among those returned, by its place. -/
def insertPiece (p : Piece) : List Piece → List Piece
  | [] => [p]
  | q :: r => if p.at_ ≤ q.at_ then p :: q :: r else q :: insertPiece p r

/-- The request that a response belongs to. -/
def CoachS.reqOf (c : CoachS) (p : Packet) : Option SReq := c.reqs.find? (fun r => r.id == p.tag / 4 && decide (0 < r.left))

/-- Take in one response of a request: an error makes the request fail with MEMERR (R268, R707). -/
def State.countResponse (s : State) (k : Nat) (r : SReq) (p : Packet) : State :=
  s.updCoach k (fun c => { c with reqs := c.reqs.map (fun x =>
    if x.id == r.id then
      { x with left := x.left - 1, got := insertPiece ⟨p.tag % 4, p.data⟩ x.got, code := if p.errCode != 0 then p.errCode else x.code }
    else x) })

/-- A request whose last packet has been answered without error ends: inbound data lands, an outbound write is in memory. -/
def State.finishReq (s : State) (k id : Nat) : State :=
  match (s.coach k).reqs.find? (fun r => r.id == id) with
  | none => s
  | some r =>
    if 0 < r.left then s
    else
      let gone := s.updCoach k (fun c => { c with reqs := c.reqs.filter (fun x => x.id != id) })
      if r.stale then gone
      else if r.code != 0 then s
      else
        let s1 := if r.write then gone else gone.landBytes k r.n r.off ((r.got.map (·.data)).flatten.take r.len)
        (s1.updStrm k r.n (fun t => { t with landed := t.landed + r.len })).settleStream k r.n

/-- Take the oldest response for requests of one direction. -/
def State.streamResponse (s : State) (k : Nat) (write : Bool) : State :=
  let c := s.coach k
  match s.takeInbox (coachUnit k) (fun p => decide (p.tag < 1024) && p.op != 3 &&
      (match c.reqOf p with | some r => r.write == write | none => !write)) with
  | none => s
  | some (p, s1) =>
    match c.reqOf p with
    | none => s1
    | some r => (s1.countResponse k r p).finishReq k r.id

/-- STREAM_DATA_RETURN (R255). -/
def execStreamDataReturn (k : Coach) (s : State) : Res := ok (s.streamResponse k false)

/-- STREAM_WRITE_ACK (R260). -/
def execStreamWriteAck (k : Coach) (s : State) : Res := ok (s.streamResponse k true)

/-- STREAM_REQUEST_FAULT (R268): the oldest request that has met a fault ends its stream's issue. -/
def execStreamRequestFault (k : Coach) (s : State) : Res :=
  match (s.coach k).reqs.find? (fun r => r.code != 0 && r.left == 0 && !r.stale) with
  | none => ok s
  | some r => ok (s.requestFails k r r.code)

/-! ### Commands of the registers -/

/-- STREAM_START (R253). -/
def execStreamStart (k : Coach) (n : Fin 8) (s : State) : Res :=
  s.regEvent STR_CTL_START k n (.streamStart k n) fun s => ok (s.streamStart k n)

/-- STREAM_STOP (R262): in RUN, HALTING or FAULTED. -/
def execStreamStop (k : Coach) (n : Fin 8) (s : State) : Res := s.regEvent STR_CTL_STOP k n (.streamStop k n) fun s =>
  let st := s.fld STR_STATE_STATE k n
  if st == 1 || st == 2 || st == 3 then
    let s1 := s.updStrm k n (fun t => { t with stopping := true, failed := if st == 3 then none else t.failed })
    ok (s1.settleStream k n)
  else ok s

/-- RESUME of a stream (R270): it acts in FAULTED, and is held in HALTING. -/
def State.streamResume (s : State) (k n : Nat) : State :=
  let st := s.fld STR_STATE_STATE k n
  if st == 3 then s.streamResumeNow k n
  else if st == 2 then s.updStrm k n (fun t => { t with goHeld := true })
  else s

/-- STREAM_RESUME (R270). -/
def execStreamResume (k : Coach) (n : Fin 8) (s : State) : Res :=
  s.regEvent STR_RESUME_GO k n (.streamResume k n) fun s => ok (s.streamResume k n)

/-! ### Invalidation (R279) -/

/-- Start an invalidation of a stream engine's cache, with no effect while one runs. -/
def State.strInval (s : State) (k kind ctx : Nat) : State :=
  if s.flag STR_INVAL_BUSY k then s
  else
    let va := s.fld STR_INVAL_VA_VA k
    let s1 := (s.invalidate (coachUnit k) kind ctx va).setFlag STR_INVAL_BUSY k 0 true
    s1.updCoach k (fun c => { c with reqs := c.reqs.map (fun r => { r with used := markUsed kind ctx va r.used }) })

/-- INVAL_ALL (R279, KIND 0). -/
def execInvalAll (k : Coach) (s : State) : Res := s.regEvent STR_INVAL_KIND k 0 (.invalAll k) fun s => ok (s.strInval k 0 0)
/-- INVAL_CONTEXT (R279, KIND 1). -/
def execInvalContext (k : Coach) (ctx : Ctx) (s : State) : Res :=
  s.regEvent STR_INVAL_KIND k 0 (.invalContext k ctx) fun s => ok (s.strInval k 1 ctx)
/-- INVAL_PAGE (R279, KIND 2): the page holding STR_INVAL_VA. -/
def execInvalPage (k : Coach) (ctx : Ctx) (s : State) : Res :=
  s.regEvent STR_INVAL_KIND k 0 (.invalPage k ctx) fun s => ok (s.strInval k 2 ctx)

/-- INVAL_DONE (R279): every request that used a matching translation has completed. -/
def execInvalDone (k : Coach) (s : State) : Res :=
  if s.flag STR_INVAL_BUSY k && !(s.coach k).reqs.any (fun r => r.used.any (·.wait)) then
    ok ((s.updTc (coachUnit k) (fun t => { t with inval := none })).setFlag STR_INVAL_BUSY k 0 false)
  else ok s

end Sys2Proof.Machine
end

