-- ==== Sys2Proof/Machine/Contexts.lean ====
section
/-! DEFINITION. Contexts and the units bound to them: role epochs (R356, R570, R612), context resets (R211, R217, R271, R281, R295), event
records (R567, R568), stopping, resuming and braking (R599 to R609). -/

namespace Sys2Proof.Machine

/-! ### Role epochs (R356) -/

/-- Where the role epoch of a unit is held: a field, its unit and index; none for a unit that has none. -/
def epochPlace (u : Nat) : Option (Fld × Nat × Nat) :=
  let c := u / 256
  let l := u % 256
  if l < 0x18 then some (COA_ROLE_EPOCH, c * 24 + l, 0)
  else if 0x20 ≤ l && l < 0x28 then
    let f := match l % 4 with | 0 => HBM_ROLE_EPOCH0 | 1 => HBM_ROLE_EPOCH1 | 2 => HBM_ROLE_EPOCH2 | _ => HBM_ROLE_EPOCH3
    some (f, c, (l - 0x20) / 4)
  else if 0x30 ≤ l && l < 0x40 then some (FAB_ROLE_EPOCH, c, l - 0x30)
  else if 0x40 ≤ l && l < 0x46 then some (LNK_ROLE_EPOCH, c, 4 * (l - 0x40))
  else if l == 0x46 then some (TND_ROLE_EPOCH, c, 0)
  else if l == 0x47 then some (LNK_ROLE_EPOCH, c, 22)
  else if l == 0x50 then some (HCL_ROLE_EPOCH, c, 0)
  else if l == 0x51 then some (QUE_ROLE_CC, c, 0)
  else if l == 0x52 then some (QUE_ROLE_DMA, c, 0)
  else if l == 0x53 then some (QUE_ROLE_PORT, c, 0)
  else none

/-- Role epoch of a unit. -/
def State.epoch (s : State) (u : Nat) : Nat := match epochPlace u with | some (f, c, i) => s.fld f c i | none => 0

/-- Set the role epoch of a unit. -/
def State.setEpoch (s : State) (u e : Nat) : State := match epochPlace u with | some (f, c, i) => s.setFld f c i e | none => s

/-- The previous epoch plus 1, skipping 0x00 (R356). -/
def epochAfter (e : Nat) : Nat := if e % 256 == 255 then 1 else e % 256 + 1

/-- Give a unit a fresh role epoch (R356): one more than the last, which after a carriage recovery is the one it held before (R612). -/
def State.freshEpoch (s : State) (u : Nat) : State :=
  let e := if s.epoch u == 0 then mget 0 s.net.savedEpoch u else s.epoch u
  { s with net := { s.net with savedEpoch := mset 0 s.net.savedEpoch u 0 } }.setEpoch u (epochAfter e)

/-! ### Bound units (R553) -/

/-- Coaches bound to a context. -/
def State.boundCoaches (s : State) (n : Nat) : List Nat := (List.range 96).filter (fun k => s.boundCtx k == some n)

/-- DMA channels (carriage, channel) bound to a context. -/
def State.boundChans (s : State) (n : Nat) : List (Nat × Nat) :=
  ((List.range 4).map (fun c => ((List.range 64).filter (fun h => s.flag DMA_CTX_BOUND c h && s.fld DMA_CTX_CONTEXT c h == n)).map (fun h => (c, h)))).flatten

/-- Fabric ports (carriage, port) bound to a context. -/
def State.boundPorts (s : State) (n : Nat) : List (Nat × Nat) :=
  ((List.range 4).map (fun c => ((List.range 16).filter (fun h => s.flag FAB_PORTCTX_BOUND c h && s.fld FAB_PORTCTX_CONTEXT c h == n)).map (fun h => (c, h)))).flatten

/-! ### Context resets -/

/-- Register fields, bank, registers and bookkeeping of a coach take their values after a context reset (R211, R217, R271): stream requests
from before stay until they return. Tallies that the network has delivered stay to be added (R303). -/
def CoachS.ctxReset (c : CoachS) : CoachS :=
  { nextId := c.nextId, idleFrom := c.idleFrom,
    tallyIn := c.tallyIn.filter (fun t => srcRemote t.src), syncDue := c.syncDue.filter (fun d => srcRemote d.1),
    reqs := (c.reqs.filter (fun r => decide (0 < r.left))).map (fun r => { r with stale := true }) }

/-- The context of a coach is reset (R211, R217, R271, R281); a bound coach is IDLE afterwards. -/
def State.coachCtxReset (s : State) (k : Nat) : State :=
  let n := s.fld COA_ROLE_CONTEXT k
  let s1 := s.resetFields .context (fun f u _ => f.blk == .coach && u == k)
  let s2 := { s1 with bank := mdrop (fun x => x / 131072 == k) s1.bank, vreg := mdrop (fun x => x / 32768 == k) s1.vreg,
                      sacc := mdrop (fun x => x / 4096 == k) s1.sacc }
  let s3 := (s2.updCoach k (fun c => { c.ctxReset with idleFrom := s.coachCycles })).dropCtxEntries (coachUnit k) n
  (if s3.flag COA_ROLE_BOUND k then s3.setFld COA_STATE_STATE k 0 1 else s3).showSets k

/-- Every entry of a context in a DMA engine's cache becomes invalid (R281, R282). -/
def State.dropDmaEntries (s : State) (c n : Nat) : State :=
  s.updTc (dmaUnit c) (fun t => t.mapEnts (fun e => if e.ctx == n then none else some e))

/-- The context of a DMA channel is reset: it acts as if ABORT had been written (R295). -/
def State.chanCtxReset (s : State) (c ch : Nat) : State :=
  let s1 := (s.dmaAbort c ch).dropDmaEntries c (s.chanCtx c ch)
  match (s.chan c ch).desc with
  | none => s1.chanCleared c ch
  | some _ => s1.updChan c ch (fun h => { h with ctxReset := true })

/-- The context of a fabric port is reset: the fields that this level clears take their reset values. -/
def State.portCtxReset (s : State) (c n : Nat) : State :=
  (s.resetFields .context (fun f u i => f.blk == .fab && u == c && i == n && f.reps.length == 1)).dropDmaEntries c (s.fld FAB_PORTCTX_CONTEXT c n)

/-- Context reset of every unit bound to a context (R607, step 3). -/
def State.resetUnits (s : State) (n : Nat) : State :=
  let s1 := (s.boundCoaches n).foldl (fun t k => t.coachCtxReset k) s
  let s2 := (s.boundChans n).foldl (fun t x => t.chanCtxReset x.1 x.2) s1
  (s.boundPorts n).foldl (fun t x => t.portCtxReset x.1 x.2) s2

/-! ### Binding (R570) -/

/-- Bind a coach: epoch and binding together (R212, R570). -/
def State.bindCoach (s : State) (k n : Nat) : State :=
  ((s.freshEpoch (coachUnit k)).setFlds k 0 [(COA_ROLE_CONTEXT, n), (COA_ROLE_BOUND, 1), (COA_STATE_STATE, 1)]).updCoach k (fun c => { c with idleFrom := s.coachCycles })

/-- Bind a DMA channel. The engine's role changes with it (R356, log 40). -/
def State.bindChan (s : State) (c ch n : Nat) : State := (s.freshEpoch (dmaUnit c)).setFlds c ch [(DMA_CTX_CONTEXT, n), (DMA_CTX_BOUND, 1)]

/-- Bind a fabric port. -/
def State.bindPort (s : State) (c i n : Nat) : State := (s.freshEpoch (portUnit c i)).setFlds c i [(FAB_PORTCTX_CONTEXT, n), (FAB_PORTCTX_BOUND, 1)]

/-- Unbind a coach (R570): a context reset, a fresh epoch, no binding. -/
def State.unbindCoach (s : State) (k : Nat) : State :=
  (((s.coachCtxReset k).freshEpoch (coachUnit k)).setFlds k 0 [(COA_ROLE_BOUND, 0), (COA_ROLE_CONTEXT, 0), (COA_STATE_STATE, 0)]).updCoach k (fun c =>
    { c with idleFrom := s.coachCycles })

/-- Unbind a DMA channel (R570). -/
def State.unbindChan (s : State) (c ch : Nat) : State :=
  ((s.chanCtxReset c ch).freshEpoch (dmaUnit c)).setFlds c ch [(DMA_CTX_BOUND, 0), (DMA_CTX_CONTEXT, 0)]

/-- Unbind a fabric port (R570). -/
def State.unbindPort (s : State) (c i : Nat) : State :=
  ((s.portCtxReset c i).freshEpoch (portUnit c i)).setFlds c i [(FAB_PORTCTX_BOUND, 0), (FAB_PORTCTX_CONTEXT, 0)]

/-- Unbind every unit of a context. -/
def State.unbindAll (s : State) (n : Nat) : State :=
  let s1 := (s.boundCoaches n).foldl (fun t k => t.unbindCoach k) s
  let s2 := (s.boundChans n).foldl (fun t x => t.unbindChan x.1 x.2) s1
  (s.boundPorts n).foldl (fun t x => t.unbindPort x.1 x.2) s2

/-! ### Records and events -/

/-- LEVEL of a cause (REC_FAULT.LEVEL, Table 16.4). -/
def causeLevel (cause : Nat) : Nat :=
  if cause == 0 then 6 else if cause < 0x10 then 1 else if cause < 0x20 then 0 else if cause < 0x30 then 2 else if cause < 0x40 then 3
  else if cause < 0x50 then 4 else 5

/-- Record a fault (R597 to R599): while a record is held, MORE is set and nothing else changes. -/
def State.recordCause (s : State) (ctx : Option Nat) (cause unit code : Nat) : State :=
  if s.flag REC_FAULT_VALID 0 then s.setFld REC_FAULT_MORE 0 0 1
  else s.setFlds 0 0 [(REC_FAULT_CONTEXT, ctx.getD 0), (REC_FAULT_CTXV, b2n ctx.isSome), (REC_FAULT_LEVEL, causeLevel cause), (REC_FAULT_CAUSE, cause),
    (REC_FAULT_MORE, 0), (REC_FAULT_VALID, 1), (REC_FAULTUNIT_UNIT, unit), (REC_FAULTUNIT_CODE, code)]

/-- An event record (Table 11 of chapter 14): KIND, CODE, UNIT, SUB, VA, SEQ. -/
structure EvRec where
  kind : Nat
  code : Nat := 0
  unit : Nat := 0
  sub : Nat := 0
  va : Nat := 0
  seq : Nat := 0

/-- The 64 bytes of an event record (Table 14.11). -/
def EvRec.bytes (e : EvRec) (phase lost : Bool) : List Nat :=
  [e.kind, b2n phase + 2 * b2n lost, e.code % 256, e.unit % 256, e.sub % 256, 0, 0, 0] ++ leBytes 8 e.va ++ leBytes 4 e.seq ++ List.replicate 44 0

/-- R567, R568: write an event record (Table 14.11) to a context's ring and raise EVTVEC, or count it as lost while the ring is full. `host` is what the host
returns for the runtime's head when the ring lies in host memory; a head that cannot be read is a free value (R566). -/
def State.eventRecord (s : State) (n : Nat) (host : List Nat) (e : EvRec) : State :=
  let x := s.ctx n
  let size := 2 ^ x.evtLog2
  let r := s.vreadFree n (x.evtRing + size * 64) 4 host
  let tail := (x.evtTail + 1) % size
  if leNat r.1 == tail then r.2.updCtx n (fun x => { x with lost := x.lost + 1 })
  else
    let s1 := r.2.vwrite n (x.evtRing + x.evtTail * 64) (e.bytes x.evtPhase (decide (0 < x.lost)))
    (s1.updCtx n (fun x => { x with evtTail := tail, evtPhase := if tail == 0 then !x.evtPhase else x.evtPhase, lost := 0 })).raise (some n) 0 x.evtVec

/-- Tell the partner of a change of an ACTIVE context (R643). -/
def State.tellContext (s : State) (n : Nat) : State := if s.pairRole n == 1 then s.mirrorContext n else s

/-! ### Stop and resume (R600, R601) -/

/-- Let every coach bound to a context issue, or stop its issue (R600). -/
def State.haltCoaches (s : State) (n : Nat) (halt : Bool) : State :=
  (s.boundCoaches n).foldl (fun t k => t.updCoach k (fun c => { c with halted := halt })) s

/-- A stop (R600, Table 16.4): a LIVE context enters STOPPED; the cause is kept and logged. -/
def State.stopCtx (s : State) (n cause : Nat) : State :=
  let st := (s.ctx n).state
  if st == 0 then s
  else
    let s1 := s.logEntry 0x0102 schedUnit (some n) cause 0
    if st == 3 then s1
    else
      let s2 := s1.updCtx n (fun x => { x with state := 2, causes := x.causes ++ [cause] })
      (if st == 1 then s2.tellContext n else s2).haltCoaches n true

/-- A coach of a resumed context issues again (R601); one that has ended its work order is IDLE. -/
def State.coachGo (s : State) (k : Nat) : State :=
  let s1 := s.updCoach k (fun c => { c with halted := false })
  if s.fld COA_STATE_STATE k == 4 then s1.setFld COA_STATE_STATE k 0 (if (s.coach k).ended then 1 else 2) else s1

/-- CTX_RESUME (R601): REC_CTXCMD with OP = RESUME. -/
def execCtxResume (n : Ctx) (s : State) : Res := s.regEvent REC_CTXCMD_OP 0 0 (.ctxResume n) fun s =>
  let x := s.ctx n
  if x.state == 2 && x.causes.all (· == 0x11) then
    let s1 := ((s.updCtx n (fun x => { x with state := 1, causes := [] })).tellContext n).logEntry 0x0107 schedUnit (some n.val) 0 0
    ok ((s.boundCoaches n).foldl (fun t k => t.coachGo k) s1)
  else ok (s.setFld REC_CTXSTAT_CMDERR 0 0 1)

/-! ### Brake (R607, R608, R563) -/

/-- A completion placed by its posting number. -/
def insertCompl (c : Compl) : List Compl → List Compl
  | [] => [c]
  | d :: r => if c.no ≤ d.no then c :: d :: r else d :: insertCompl c r

/-- Completions of every work order of a queue that has not completed, in order of posting (R563). -/
def QueueS.unfinished (q : QueueS) (status : Nat) : List Compl :=
  let size := 2 ^ q.log2
  let run := q.running.map (fun r => ({ no := r.no, tag := some r.tag, status := status, sqhead := r.sqhead, irq := r.irq, held := r.hold } : Compl))
  let wait := if q.disabling then [] else
    (q.repost ++ (List.range (q.posted - q.taken)).map (q.taken + ·)).map (fun n => ({ no := n, tag := none, status := status, sqhead := (n + 1) % size } : Compl))
  (run ++ wait).foldl (fun l c => insertCompl c l) []

/-- The queue once they have completed. -/
def QueueS.failAll (q : QueueS) (status : Nat) : QueueS :=
  { q with running := [], repost := [], taken := q.posted, head := q.posted % 2 ^ q.log2, compl := q.compl ++ q.unfinished status }

/-- Every work order of a context that has not completed completes with a status (R563, R607 step 4), and is counted. A shadow context's work
orders are the partner's. -/
def State.failQueues (s : State) (n status : Nat) : State :=
  if s.pairRole n == 2 then s
  else
    let x := s.ctx n
    let k := (x.queues.map (fun e => (e.2.unfinished status).length)).foldl (· + ·) 0
    (s.wrapAdd QUE_WODONE_COUNT x.port 0 k).updCtx n (fun x => { x with queues := mmap {} (fun q => q.failAll status) x.queues })

/-- A brake (R607, R608): the context becomes BRAKING, the cause is recorded and logged, every bound unit is reset, and work orders complete with
BRAKED, or PORTRESET for that cause. A further cause during a brake is only logged; a FREE context has nothing to brake. -/
def State.brake (s : State) (n cause : Nat) : State :=
  let st := (s.ctx n).state
  if st == 0 then s
  else
    let s1 := s.logEntry 0x0101 schedUnit (some n) cause 0
    if st == 3 then s1
    else
      let s2 := s1.recordCause (some n) cause schedUnit 0
      let s3 := (s2.updCtx n (fun x => { x with state := 3, cause := cause, causes := [] })).tellContext n
      (s3.resetUnits n).failQueues n (if cause == 3 then 6 else 4)

/-- Brake every context that meets a condition. -/
def State.brakeWhere (s : State) (p : Nat → CtxS → Bool) (cause : Nat) : State :=
  (s.ctxs.filter (fun e => p e.1 e.2)).foldl (fun t e => t.brake e.1 cause) s

/-- REC_BRAKE (R602): REC_CTXCMD with OP = BRAKE. -/
def execRecBrake (n : Ctx) (s : State) : Res := s.regEvent REC_CTXCMD_OP 0 0 (.recBrake n) fun s => ok (s.brake n 1)

/-- Whether every unit of a braked context has been reset: its channels have ended their descriptors, and no recovery is awaited. -/
def State.unitsReset (s : State) (n : Nat) : Bool :=
  (s.ctx n).waitRec.isEmpty && (s.boundChans n).all (fun x => (s.chan x.1 x.2).desc.isNone && (s.chan x.1 x.2).fetch % 3 == 0)

end Sys2Proof.Machine
end

