-- ==== Sys2Proof/Machine/Queues.lean ====
section
/-! DEFINITION. Queues and work orders (R554 to R566): doorbells, queue-table entries, starts, completions. An index of a ring is the number of
entries passed since the queue was enabled, modulo the ring's size. -/

namespace Sys2Proof.Machine

/-- A queue of a context. -/
def State.queue (s : State) (n r : Nat) : QueueS := mget {} (s.ctx n).queues r

/-- Change a queue. -/
def State.updQueue (s : State) (n r : Nat) (f : QueueS → QueueS) : State := s.updCtx n (fun x => { x with queues := mupd {} x.queues r f })

/-- `n` bytes that the host gives; those it does not give are free values. -/
def State.hostBytes (s : State) (n : Nat) (host : List Nat) : List Nat × State :=
  let r := s.draws 8 (n - host.length)
  ((host.take n).map (· % 256) ++ r.1, r.2)

/-- An index as the host writes it; one beyond the ring has an unpredictable outcome (R566), a free value within it. -/
def State.ringIndex (s : State) (v size : Nat) : Nat × State :=
  if v < size then (v, s) else let r := s.draw 12; (r.1 % size, r.2)

/-! ### Queue table (R554, R555) -/

/-- A 64-byte aligned address; another has an unpredictable outcome (R566), a free value. -/
def State.aligned64 (s : State) (a : Nat) : Nat × State := if a % 64 == 0 then (a, s) else let r := s.draw 58; (r.1 * 64, r.2)

/-- Read entry `r` of a context's queue table (R554, Table 14.6): the queue's settings and EN. A LOG2 outside 2 to 12 is a free value within it
(R566). -/
def State.readQueueEntry (s : State) (n r : Nat) (host : List Nat) : QueueS × Bool × State :=
  let b := s.vreadFree n ((s.ctx n).qtable + 32 * r) 32 host
  let w := leNat ((b.1.drop 16).take 4)
  let sq := b.2.aligned64 (leNat (b.1.take 8))
  let cq := sq.2.aligned64 (leNat ((b.1.drop 8).take 8))
  let lg := bitsOf w 0 4
  let l := if decide (2 ≤ lg) && decide (lg ≤ 12) then (lg, cq.2) else let d := cq.2.draw 8; (2 + d.1 % 11, d.2)
  ({ sqBase := sq.1, cqBase := cq.1, log2 := l.1, prio := bitsOf w 4 2, vec := bitsOf w 7 11 }, bitsOf w 6 1 == 1, l.2)

/-- A queue enabled with an entry's settings (R554, R555): four indices zero, phase 1, nothing in it. -/
def enabledQueue (e : QueueS) : QueueS := { en := true, sqBase := e.sqBase, cqBase := e.cqBase, log2 := e.log2, prio := e.prio, vec := e.vec }

/-- QSYNC of ring `r` (R554, R555): a queue is enabled, waits to be disabled, or takes new settings; its unstarted work orders are dropped when it
is disabled. A ring size changed under an enabled queue leaves free indices (R566). -/
def State.qsync (s : State) (n r : Nat) (host : List Nat) : State :=
  let e := s.readQueueEntry n r host
  let q := e.2.2.queue n r
  let set := fun (q : QueueS) => { q with sqBase := e.1.sqBase, cqBase := e.1.cqBase, prio := e.1.prio, vec := e.1.vec }
  let s1 :=
    if !e.2.1 then
      if q.en then e.2.2.updQueue n r (fun q => { q with disabling := true, again := false, taken := q.posted, repost := [] }) else e.2.2
    else if !q.en then e.2.2.updQueue n r (fun _ => enabledQueue e.1)
    else if q.disabling then e.2.2.updQueue n r (fun q => { set q with again := true, log2 := e.1.log2 })
    else if q.log2 == e.1.log2 then e.2.2.updQueue n r set
    else
      let d := e.2.2.draws 12 4
      let sz := 2 ^ e.1.log2
      let i := fun k => d.1.getD k 0 % sz
      d.2.updQueue n r (fun q =>
        { set q with log2 := e.1.log2, taken := i 0, posted := i 0 + i 1, head := i 0, tail := (i 0 + i 1) % sz, cqTail := i 2, used := i 3 })
  (s1.mirrorQueue n r 3 (s1.queue n r).taken []).2

/-- QSYNC_DISABLE_EFFECT (R555): every work order in progress has completed, and its completion entries are written; the indices and the phase take
their starting values. -/
def execQsyncDisableEffect (n : Ctx) (r : Fin 64) (s : State) : Res := s.outside rankSched (.qsyncDisableEffect n r) fun s =>
  let q := s.queue n r
  if q.disabling && q.running.isEmpty && q.compl.isEmpty then
    ok (s.updQueue n r (fun q => if q.again then enabledQueue q else { enabledQueue q with en := false }))
  else ok s

/-! ### Doorbells (R546, R550, R556, R557, R639) -/

/-- The port that counts a doorbell write, and the context whose page it reaches (R52, R546): page n of the PF's BAR2 is context n's, page i of a VF's is slot i's. None where no page
answers. -/
def State.doorOf (s : State) : Door → Option (Nat × Option Nat)
  | .pf p off => if (mget {} s.ports p).ready then some (p, some (off.val / pageSize)) else none
  | .vf p v off =>
    let t := mget {} s.ports p
    if t.ready && decide (v.val < t.vfs) then
      match mget 0 t.slots (v.val * 16 + off.val / pageSize) with
      | 0 => some (p, none)
      | x + 1 => some (p, some x)
    else none
  | .hart c off => if !s.stoppedAt 6 c && (List.range 4).any (fun i => s.flag HCL_CTL_RUN c i) then some (c, some (off.val / pageSize)) else none

/-- An ignored doorbell is counted (R557). -/
def State.dropDoor (s : State) (p : Nat) : State := s.bump QUE_DBDROP_COUNT p 0 1

/-- A doorbell write acts on its context, or is ignored and counted: in FREE and BRAKING (Table 14.4), for a SHADOW context (R639), on an unmapped page
(R546), and where `f` finds nothing to act on (R557). -/
def State.ring (s : State) (d : Door) (f : Nat → State → Option State) : Res :=
  match s.doorOf d with
  | none => ok s
  | some (p, none) => ok (s.dropDoor p)
  | some (p, some n) =>
    let st := (s.ctx n).state
    if (st == 1 || st == 2) && s.pairRole n != 2 then
      match f n s with
      | some t => ok t
      | none => ok (s.dropDoor p)
    else ok (s.dropDoor p)

/-- A doorbell write from the host is an event from outside (R310); one from a host core is not: its clock is one of R308. -/
def State.doorbell (s : State) (d : Door) (i : Instr) (f : Nat → State → Option State) : Res :=
  match d with
  | .pf p _ => s.outside (rankPort p) i fun s => s.ring d f
  | .vf p _ _ => s.outside (rankPort p) i fun s => s.ring d f
  | .hart _ _ => s.ring d f

/-- SQTAIL (R556, R557): a new submission tail of an enabled queue. -/
def execSqtail (d : Door) (r : Fin 64) (v : BitVec 12) (s : State) : Res :=
  s.doorbell d (.sqtail d r v) (fun n t =>
    let q := t.queue n r
    let size := 2 ^ q.log2
    if !q.en then none
    else
      let i := t.ringIndex v.toNat size
      let t1 := i.2.updQueue n r (fun q => { q with posted := q.posted + (i.1 + size - q.tail) % size, tail := i.1 })
      some ((if q.disabling then t1.updQueue n r (fun q => { q with taken := q.posted }) else t1).mirrorQueue n r 0 0 []).2)

/-- CQHEAD (R556, R565): entries before the new head are released; a head equal to the completion tail releases every entry. -/
def execCqhead (d : Door) (r : Fin 64) (v : BitVec 12) (s : State) : Res :=
  s.doorbell d (.cqhead d r v) (fun n t =>
    let q := t.queue n r
    let size := 2 ^ q.log2
    if !q.en then none
    else
      let i := t.ringIndex v.toNat size
      some (i.2.updQueue n r (fun q => { q with used := (q.cqTail + size - i.1) % size })))

/-- QSYNC (R554 to R556). `host` is what the host returns for the entry when the table lies in host memory. -/
def execQsync (d : Door) (r : Fin 64) (host : List Byte) (s : State) : Res :=
  s.doorbell d (.qsync d r host) (fun n t => some (t.qsync n r (host.map BitVec.toNat)))

/-- RESUME (R556, R270): bits [6:0] are a coach number, [10:8] a stream; a coach not bound to the context is ignored and counted. -/
def execResume (d : Door) (v : BitVec 32) (s : State) : Res :=
  s.doorbell d (.resume d v) (fun n t =>
    match ordinalOf (bitsOf v.toNat 0 7) with
    | none => none
    | some k => if t.boundCtx k == some n then some (t.streamResume k (bitsOf v.toNat 8 3)) else none)

/-- Release the oldest held completion. -/
def releaseHold : List Compl → Option (List Compl)
  | [] => none
  | c :: r => if c.held then some ({ c with held := false } :: r) else (releaseHold r).map (c :: ·)

/-- CQREL (R556, R565): ignored and counted for a ring that holds no completion. -/
def execCqrel (d : Door) (r : Fin 64) (s : State) : Res :=
  s.doorbell d (.cqrel d r) (fun n t => (releaseHold (t.queue n r).compl).map (fun l => t.updQueue n r (fun q => { q with compl := l })))

/-- DMAHEAD (R556): channel `k` mod 64 of carriage `k` / 64; a channel not bound to the context is ignored and counted. -/
def execDmahead (d : Door) (k : Fin 256) (v : BitVec 16) (s : State) : Res :=
  s.doorbell d (.dmahead d k v) (fun n t =>
    if t.flag DMA_CTX_BOUND (k / 64) (k % 64) && t.fld DMA_CTX_CONTEXT (k / 64) (k % 64) == n then some (t.dmaHead (k / 64) (k % 64) v.toNat) else none)

/-! ### Work orders (R558 to R563) -/

/-- A work order (Table 14.8). -/
structure Order where
  kind : Nat
  waitPrev : Bool
  rein : Bool
  irq : Bool
  hold : Bool
  start : Nat
  tag : Nat
  coaches : List Nat
  loops : List Nat
  sps : List Nat
  rsvd : Bool
deriving DecidableEq, Repr

/-- A work order from its 64 bytes. -/
def readOrder (b : List Nat) : Order :=
  let at_ := fun o n => leNat ((b.drop o).take n)
  let w0 := at_ 0 4
  let mask := at_ 0x10 12
  { kind := bitsOf w0 0 8, waitPrev := bitsOf w0 8 1 == 1, rein := bitsOf w0 9 1 == 1, irq := bitsOf w0 10 1 == 1, hold := bitsOf w0 11 1 == 1,
    start := at_ 4 4 % 1024, tag := at_ 8 8, coaches := (List.range 96).filter (fun j => bitsOf mask j 1 == 1),
    loops := (List.range 4).map (fun i => at_ (0x20 + 4 * i) 4), sps := (List.range 4).map (fun i => at_ (0x30 + 4 * i) 4 % 2 ^ 23),
    rsvd := bitsOf w0 12 20 != 0 || at_ 4 4 / 1024 != 0 || at_ 0x1C 4 != 0 || (List.range 4).any (fun i => at_ (0x30 + 4 * i) 4 / 2 ^ 23 != 0) }

/-- R559: the status and DETAIL of the first check that a work order fails, status 0 when it passes. -/
def State.orderCheck (s : State) (n : Nat) (o : Order) : Nat × Nat :=
  if 2 ≤ o.kind || o.rsvd then (1, 0)
  else if o.kind == 0 then (0, 0)
  else if o.coaches.isEmpty then (1, 0)
  else match o.coaches.find? (fun k => s.boundCtx k != some n) with
    | some k => (2, k)
    | none => if o.coaches.all (fun k => s.flag FAB_STATE_LOADED (carOf k)) then (0, 0) else (3, 0)

/-- What may come of the work order at a queue's head. -/
inductive HeadOutcome where
  | waits
  | done (status detail : Nat)
  | starts
deriving DecidableEq, Repr

/-- R560: whether a coach may take a work order: IDLE, or gated and about to restart (R575), in a carriage that runs. -/
def State.coachFree (s : State) (k : Nat) : Bool :=
  let st := s.fld COA_STATE_STATE k
  (st == 1 || st == 6) && s.carState (carOf k) == 0 && !s.stoppedAt 3 (carOf k)

/-- R559, R560, R563: what comes of work order number `no` at the head of a queue. -/
def State.judgeHead (s : State) (n : Nat) (q : QueueS) (no : Nat) (o : Order) : HeadOutcome :=
  let c := s.orderCheck n o
  if o.waitPrev && !q.running.isEmpty then .waits
  else if o.rein && decide (no < q.cancel) then .done 5 0
  else if c.1 != 0 then .done c.1 c.2
  else if o.kind == 0 then .done 0 0
  else if o.coaches.all s.coachFree && (!o.rein || decide (no < q.released)) then .starts
  else .waits

/-- Start a RUN (R561): loop counters, status pointers and COA_PC of each named coach, which begins to issue. -/
def State.startCoach (s : State) (o : Order) (k : Nat) : State :=
  let s1 := (List.range 4).foldl (fun t i => (t.setFld COA_LOOP_COUNT k i (o.loops.getD i 0)).setFld COA_SP_ADDR k i (o.sps.getD i 0)) s
  (s1.setFlds k 0 [(COA_PC_PC, o.start), (COA_STATE_STATE, 2)]).updCoach k (fun c => { c with ended := false, ending := false, halted := false })

/-- The submission slot of the head is freed (R564). -/
def QueueS.free (q : QueueS) (no : Nat) : QueueS :=
  match q.repost with
  | [] => { q with taken := q.taken + 1, head := (no + 1) % 2 ^ q.log2 }
  | _ :: r => { q with repost := r, head := (no + 1) % 2 ^ q.log2 }

/-- Count a completed work order (QUE_WODONE). -/
def State.countDone (s : State) (n : Nat) : State := s.wrapAdd QUE_WODONE_COUNT (s.ctx n).port 0 1

/-- Number of the work order at a queue's head, none when nothing is posted or nothing may start: the queue is disabled, or its completion ring is
full (R565). -/
def QueueS.headNo (q : QueueS) : Option Nat :=
  if !q.en || q.disabling || decide (2 ^ q.log2 ≤ q.used) then none
  else match q.repost with
    | no :: _ => some no
    | [] => if q.taken < q.posted then some q.taken else none

/-- Rings of a context in the order in which their heads are considered (R560). -/
def CtxS.ringOrder (x : CtxS) : List Nat :=
  ((List.range 4).map (fun p =>
    let last := mget 63 x.lastRing p
    ((List.range 64).map (fun i => (last + 1 + i) % 64)).filter (fun r => let q := mget {} x.queues r; q.en && q.prio == p))).flatten

/-- R559, R560: deal with the head of ring `r` when it starts or completes; none while it waits. `host` is what the host returns for it. -/
def State.takeHead (s : State) (n r : Nat) (host : List Nat) : Option State :=
  let q := s.queue n r
  match q.headNo with
  | none => none
  | some no =>
    let b := s.vreadFree n (q.sqBase + no % 2 ^ q.log2 * 64) 64 host
    let o := readOrder b.1
    let sqhead := (no + 1) % 2 ^ q.log2
    let turn := fun (t : State) => t.updCtx n (fun x => { x with lastRing := mset 63 x.lastRing q.prio r })
    match b.2.judgeHead n q no o with
    | .waits => none
    | .done st detail =>
      let c : Compl := { no := no, tag := some o.tag, status := st, detail := detail, sqhead := sqhead, irq := o.irq, held := o.hold }
      some ((turn (b.2.updQueue n r (fun q => { q.free no with compl := q.compl ++ [c] }))).countDone n)
    | .starts =>
      let w : Running := { no := no, tag := o.tag, irq := o.irq, hold := o.hold, coaches := o.coaches, sqhead := sqhead }
      let s1 := o.coaches.foldl (fun t k => t.startCoach o k) (turn (b.2.updQueue n r (fun q => { q.free no with running := q.running ++ [w] })))
      some (s1.mirrorQueue n r 1 no []).2

/-- R560: the first of a list of rings whose head starts or completes; a head that waits holds up no other queue. -/
def State.takeFirst (s : State) (n : Nat) (host : List (Nat × List Byte)) : List Nat → State
  | [] => s
  | r :: rest =>
    let h := match host.find? (fun e => e.1 == r) with | some e => e.2.map BitVec.toNat | none => []
    match s.takeHead n r h with
    | some t => t
    | none => s.takeFirst n host rest

/-- WORK_ORDER_START (R559, R560): in a LIVE context, the first head that may start does, or completes without starting. No work order starts during a
power-fail warning (Table 16.7), in a SHADOW context (R639), or in an ACTIVE context of a fenced device (R655). -/
def execWorkOrderStart (n : Ctx) (host : List (Nat × List Byte)) (s : State) : Res := s.outside rankSched (.workOrderStart n host) fun s =>
  let x := s.ctx n
  let role := s.pairRole n
  if x.state != 1 || s.flag REC_STATUS_PFW 0 || role == 2 || s.fenced n then ok s
  else ok (s.takeFirst n host x.ringOrder)

/-- Whether END has completed on every coach that a work order names, and none of them is stopped by a trap or a fault (R563). -/
def State.allEnded (s : State) (w : Running) : Bool :=
  w.coaches.all (fun k => (s.coach k).ended && s.fld COA_STATE_STATE k != 4 && s.fld COA_STATE_STATE k != 5)

/-- The first ring of a list with a work order in progress that is done, and that work order. -/
def State.doneOrder (s : State) (n : Nat) : List Nat → Option (Nat × Running)
  | [] => none
  | r :: rest => match (s.queue n r).running.find? s.allEnded with
    | some w => some (r, w)
    | none => s.doneOrder n rest

/-- WORK_ORDER_COMPLETE (R561, R563): END has completed on every named coach, and none is stopped by a trap or a fault. -/
def execWorkOrderComplete (n : Ctx) (s : State) : Res := s.outside rankSched (.workOrderComplete n) fun s =>
  if s.pairRole n == 2 then ok s
  else match s.doneOrder n (List.range 64) with
    | none => ok s
    | some (r, w) =>
      let c : Compl := { no := w.no, tag := some w.tag, status := 0, sqhead := w.sqhead, irq := w.irq, held := w.hold }
      let s1 := s.updQueue n r (fun q => { q with running := q.running.filter (fun x => x.no != w.no), compl := q.compl ++ [c] })
      ok ((w.coaches.foldl (fun t k => t.updCoach k (fun c => { c with ended := false })) s1).countDone n)

/-! ### Completion entries (R564, R565, R647) -/

/-- The 16 bytes of a completion entry (Table 14.9). -/
def complBytes (c : Compl) (tag : Nat) (phase : Bool) : List Nat :=
  leBytes 8 tag ++ leBytes 2 c.sqhead ++ [c.status, b2n phase] ++ leBytes 4 c.detail

/-- Whether the oldest completion of a queue may be written now: the ring has a free entry, it is not held, and the partner has what it must
have (R565, R647). -/
def State.canWrite (s : State) (q : QueueS) : Bool :=
  match q.compl with
  | [] => false
  | c :: _ => decide (q.used < 2 ^ q.log2) && !c.held && (match c.marks with | none => true | some l => s.partnerHas l)

/-- Change the oldest completion. -/
def QueueS.updFirst (q : QueueS) (f : Compl → Compl) : QueueS :=
  match q.compl with | [] => q | c :: r => { q with compl := f c :: r }

/-- Write the entry of the oldest completion, and raise VEC for IRQ or a status other than OK. -/
def State.putCompletion (s : State) (n r : Nat) (c : Compl) (tag : Nat) : State :=
  let q := s.queue n r
  let tail := (q.cqTail + 1) % 2 ^ q.log2
  let s1 := (s.vwrite n (q.cqBase + q.cqTail * 16) (complBytes c tag q.phase)).updQueue n r (fun q =>
    { q with compl := q.compl.drop 1, cqTail := tail, used := q.used + 1, phase := if tail == 0 then !q.phase else q.phase })
  if c.irq || c.status != 0 then s1.raise (some n) 0 q.vec else s1

/-- COMPLETION_WRITE (R565): the oldest completion of a ring. `host` is what the host returns for the work order, when it completes without having been
read. In a mirroring pair the QUEUE record goes first, and the entry waits for the partner (R643, R647); a fenced device writes none (R655). -/
def execCompletionWrite (n : Ctx) (r : Fin 64) (host : List Byte) (s : State) : Res := s.outside rankSched (.completionWrite n r host) fun s =>
  let q := s.queue n r
  if !s.canWrite q || s.fenced n then ok s
  else match q.compl with
    | [] => ok s
    | c :: _ =>
      match c.tag with
      | none =>
        let b := s.vreadFree n (q.sqBase + c.no % 2 ^ q.log2 * 64) 64 (host.map BitVec.toNat)
        let o := readOrder b.1
        ok (b.2.updQueue n r (fun q => q.updFirst (fun c => { c with tag := some o.tag, irq := o.irq, held := o.hold })))
      | some tag =>
        if c.marks.isNone && s.mirroring && s.pairRole n == 1 then
          let marks := [(0, s.fld CPL_SENT_MSEQ 0 0), (1, s.fld CPL_SENT_MSEQ 0 1)]
          let s1 := (s.mirrorQueue n r 2 c.no (complBytes c tag q.phase)).2.updQueue n r (fun q => q.updFirst (fun c => { c with marks := some marks }))
          if s1.partnerHas marks then ok (s1.putCompletion n r c tag) else ok s1
        else ok (s.putCompletion n r c tag)

end Sys2Proof.Machine
end

