-- ==== Sys2Proof/Machine/Admin.lean ====
section
/-! DEFINITION. The admin rings (R569) and the commands of Table 14.12, except what recovery adds; the start of the host cores (R538, R539). -/

namespace Sys2Proof.Machine

/-! ### The rings -/

/-- A port's admin rings. -/
def State.admS (s : State) (p : Nat) : AdmS := mget {} s.adm p

/-- Change a port's admin rings. -/
def State.updAdm (s : State) (p : Nat) (f : AdmS → AdmS) : State := { s with adm := mupd {} s.adm p f }

/-- Whether a port has a command to carry out and room to answer it. -/
def State.admWaits (s : State) (p : Nat) : Bool :=
  let a := s.admS p
  s.flag QUE_ADMCFG_EN p && a.head != a.tail && decide (a.used < 2 ^ a.log2)

/-- Whether the command in turn is port `p`'s: none is in progress, and no port that comes before it has one (R569). The scheduler core serves none once it has agreed to S3
(Table 15.2, order 2). -/
def State.admTurn (s : State) (p : Nat) : Bool :=
  s.admBusy.isNone && !s.stoppedAt 2 0 && ((List.range 4).map (fun i => (s.admLast + 1 + i) % 4)).find? s.admWaits == some p

/-- EN is set in QUE_ADMCFG: the rings start empty with phase 1, at the ring size in force (log 41). A LOG2 outside 2 to 12 has no stated outcome: a free
value within it. -/
def State.admEnable (s : State) (p : Nat) : State :=
  let lg := s.fld QUE_ADMCFG_LOG2 p
  let l := if decide (2 ≤ lg) && decide (lg ≤ 12) then (lg, s) else let d := s.draw 8; (2 + d.1 % 11, d.2)
  let t := l.2.ringIndex (s.fld QUE_ADMTAIL_INDEX p) (2 ^ l.1)
  t.2.updAdm p (fun _ => { log2 := l.1, tail := t.1 })

/-- ADMIN_TAIL_WRITE (R569): QUE_ADMTAIL. -/
def execAdminTailWrite (p : Fin 4) (v : BitVec 12) (s : State) : Res := s.regEvent QUE_ADMTAIL_INDEX p 0 (.adminTailWrite p v) fun s =>
  let s1 := s.setFld QUE_ADMTAIL_INDEX p 0 v.toNat
  if s.flag QUE_ADMCFG_EN p then
    let t := s1.ringIndex v.toNat (2 ^ (s.admS p).log2)
    ok (t.2.updAdm p (fun a => { a with tail := t.1 }))
  else ok s1

/-- QUE_ADMCQHEAD is written: entries before the new head are released. -/
def State.admRelease (s : State) (p v : Nat) : State :=
  let s1 := s.setFld QUE_ADMCQHEAD_INDEX p 0 v
  if s.flag QUE_ADMCFG_EN p then
    let size := 2 ^ (s.admS p).log2
    let t := s1.ringIndex v size
    t.2.updAdm p (fun a => { a with used := (a.cqTail + size - t.1) % size })
  else s1

/-- Write an admin completion (R569, Table 14.9) and raise the PF's vector; a port whose rings are no longer in use gets none. -/
def State.admAnswer (s : State) (p tag status : Nat) : State :=
  if !s.flag QUE_ADMCFG_EN p then s
  else
    let a := s.admS p
    let size := 2 ^ a.log2
    let tail := (a.cqTail + 1) % size
    let bs := leBytes 8 tag ++ leBytes 2 a.head ++ [status, b2n a.phase] ++ leBytes 4 0
    ((s.emit (.hostWrite p 0 (s.fld QUE_ADMCQ_ADDR p + a.cqTail * 16) bs)).updAdm p (fun a =>
      { a with cqTail := tail, used := a.used + 1, phase := if tail == 0 then !a.phase else a.phase })).raise none p (s.fld QUE_ADMCFG_VEC p)

/-- The command in progress ends with a status. -/
def State.admEnd (s : State) (status : Nat) : State :=
  match s.admBusy with
  | none => s
  | some c => { s with admBusy := none }.admAnswer c.port c.tag status

/-- Arguments of an admin command (Table 14.12): its bytes. -/
structure Adm where
  port : Nat
  opc : Nat
  ctx : Nat
  tag : Nat
  b : List Nat

/-- A field of a command. -/
def Adm.arg (a : Adm) (o n : Nat) : Nat := leNat ((a.b.drop o).take n)

/-- Take the next command of port `p` when it is its turn (R569), in lockstep at a slot boundary (R311). An opcode outside Table 14.12 is answered BADADMIN here; another command than `opc` is
left for its own row. -/
def State.admin (s : State) (i : Instr) (p opc : Nat) (cmd : List Byte) (act : Adm → State → State) : Res := s.outside rankSched i fun s =>
  if !s.admTurn p then ok s
  else
    let r := s.hostBytes 64 (cmd.map BitVec.toNat)
    let a : Adm := { port := p, opc := r.1.getD 0 0, ctx := leNat ((r.1.drop 4).take 2) % 1024, tag := leNat ((r.1.drop 8).take 8), b := r.1 }
    let bad := decide (9 < a.opc) || a.opc == 0
    if !bad && a.opc != opc then ok s
    else
      let s1 := { r.2 with admLast := p }.updAdm p (fun x => { x with head := (x.head + 1) % 2 ^ x.log2 })
      if bad then ok (s1.admAnswer p a.tag 7) else ok (act a s1)

/-- Answer a command. -/
def State.answerAdm (s : State) (a : Adm) (status : Nat) : State := s.admAnswer a.port a.tag status

/-- Whether a context is LIVE or STOPPED. -/
def State.liveOrStopped (s : State) (n : Nat) : Bool := (s.ctx n).state == 1 || (s.ctx n).state == 2

/-! ### Contexts (R551, R553, R569, R570) -/

/-- A window of a descriptor (Table 14.5). -/
def readWindow (b : List Nat) (o : Nat) : Window :=
  let w := leNat ((b.drop o).take 8)
  { target := bitsOf w 0 2, unit := bitsOf w 2 2, base := w / 2 ^ 21 * 2 ^ 21, size := leNat ((b.drop (o + 8)).take 8) * 2 ^ 21 }

/-- Whether a descriptor has a RSVD bit set or a field outside its range (R551). -/
def badDescriptor (b : List Nat) : Bool :=
  let at_ := fun o n => leNat ((b.drop o).take n)
  let win := fun o => bitsOf (at_ o 8) 4 17 != 0 || decide (2 ≤ bitsOf (at_ o 8) 0 2)
  at_ 0 8 % 4096 != 0 || decide (2 ^ 39 ≤ at_ 0 8) || bitsOf (at_ 8 2) 11 5 != 0 || at_ 0x0A 1 / 4 != 0 || at_ 0x0B 1 / 16 != 0 ||
    !(decide (4 ≤ at_ 0x0B 1 % 16) && decide (at_ 0x0B 1 % 16 ≤ 12)) || at_ 0x0C 4 / 2048 != 0 || at_ 0x10 8 % 64 != 0 || at_ 0x18 8 % 64 != 0 ||
    win 0x20 || win 0x30

/-- A context from its descriptor (Table 14.5), LIVE and without queues yet. -/
def readContext (b : List Nat) : CtxS :=
  let at_ := fun o n => leNat ((b.drop o).take n)
  { state := 1, root := at_ 0 8, vf := at_ 8 1, isvf := bitsOf (at_ 8 2) 8 1 == 1, port := bitsOf (at_ 8 2) 9 2, part := at_ 0x0A 1 % 4,
    evtLog2 := at_ 0x0B 1 % 16, evtVec := at_ 0x0C 4 % 2048, qtable := at_ 0x10 8, evtRing := at_ 0x18 8, w0 := readWindow b 0x20, w1 := readWindow b 0x30 }

/-- The queues that a new context's table enables (R554). -/
def State.readQueues (s : State) (n : Nat) (host : List Nat) : State :=
  (List.range 64).foldl (fun t r =>
    let e := t.readQueueEntry n r ((host.drop (32 * r)).take 32)
    if e.2.1 then e.2.2.updQueue n r (fun _ => enabledQueue e.1) else e.2.2) s

/-- CTX_CREATE (R551): `desc` is the descriptor that the host returns, none where the read fails; `qtab` what it returns for the queue table. -/
def execCtxCreate (p : Fin 4) (cmd : List Byte) (desc : Option (List Byte)) (qtab : List Byte) (s : State) : Res :=
  s.admin (.ctxCreate p cmd desc qtab) p 1 cmd (fun a t =>
    if (t.ctx a.ctx).state != 0 then t.answerAdm a 8
    else match desc with
      | none => t.answerAdm a 0xD
      | some d =>
        let r := t.hostBytes 64 (d.map BitVec.toNat)
        if badDescriptor r.1 then r.2.answerAdm a 7
        else (((r.2.updCtx a.ctx (fun _ => readContext r.1)).readQueues a.ctx (qtab.map BitVec.toNat)).tellContext a.ctx).answerAdm a 0)

/-- CTX_DESTROY (R610): a brake with cause DESTROY, which ends in FREE and answers. -/
def execCtxDestroy (p : Fin 4) (cmd : List Byte) (s : State) : Res :=
  s.admin (.ctxDestroy p cmd) p 2 cmd (fun a t =>
    if !t.liveOrStopped a.ctx then t.answerAdm a 8
    else
      let t1 := t.updCtx a.ctx (fun x => { x with toFree := true, admEnd := true })
      { t1 with admBusy := some { port := a.port, opc := 2, ctx := a.ctx, tag := a.tag } }.brake a.ctx 2)

/-- BRAKE (R607): the admin command; its answer comes when the brake ends. -/
def execBrake (p : Fin 4) (cmd : List Byte) (s : State) : Res :=
  s.admin (.brake p cmd) p 9 cmd (fun a t =>
    if !t.liveOrStopped a.ctx then t.answerAdm a 8
    else
      let t1 := t.updCtx a.ctx (fun x => { x with admEnd := true })
      { t1 with admBusy := some { port := a.port, opc := 9, ctx := a.ctx, tag := a.tag } }.brake a.ctx 1)

/-- Whether a completion of a context may be written now. -/
def State.completionDue (s : State) (n : Nat) : Bool := (s.ctx n).queues.any (fun e => s.canWrite e.2)

/-- BRAKE_DONE (R607, step 5): every unit is reset and every completion that can be written is; an event record KIND 7 carries the cause, and the context
is LIVE, or after CTX_DESTROY FREE with nothing bound. `host` is what the host returns for the head of the event ring. -/
def execBrakeDone (n : Ctx) (host : List Byte) (s : State) : Res := s.outside rankSched (.brakeDone n host) fun s =>
  let x := s.ctx n
  if x.state != 3 || !s.unitsReset n || s.completionDue n then ok s
  else
    let s1 := s.eventRecord n (host.map BitVec.toNat) { kind := 7, code := x.cause }
    let s2 := if x.toFree then (s1.unbindAll n).updCtx n (fun _ => {})
      else s1.updCtx n (fun x => { x with state := 1, cause := 0, causes := [], admEnd := false })
    let s3 := s2.tellContext n
    ok (if x.admEnd then s3.admEnd 0 else s3)

/-- Partition of a carriage (CFG_PARTMAP). -/
def State.partOf (s : State) (c : Nat) : Nat := bitsOf (s.fld CFG_PARTMAP_PARTMAP 0) (2 * c) 2

/-- Units that a bind or unbind command names: coaches, DMA channels and fabric ports. -/
def Adm.units (a : Adm) : List Nat × List (Nat × Nat) × List (Nat × Nat) :=
  let c := a.arg 0x30 1
  ((List.range 96).filter (fun k => bitsOf (a.arg 0x10 12) k 1 == 1), ((List.range 64).filter (fun h => bitsOf (a.arg 0x20 8) h 1 == 1)).map (fun h => (c, h)),
    ((List.range 16).filter (fun h => bitsOf (a.arg 0x28 2) h 1 == 1)).map (fun h => (c, h)))

/-- Whether a coach is marked in DEV_STFAIL (R670, R671). -/
def State.stFail (s : State) (k : Nat) : Bool := bitsOf (s.fld DEV_STFAIL_FAIL 0 (k / 32)) (k % 32) 1 == 1

/-- R553: whether every named unit lies in the context's partition and is bound to no other context. -/
def State.unitsOk (s : State) (n : Nat) (a : Adm) : Bool :=
  let u := a.units
  let part := (s.ctx n).part
  let free := fun (o : Option Nat) => o.isNone || o == some n
  u.1.all (fun k => s.partOf (carOf k) == part && free (s.boundCtx k)) &&
    u.2.1.all (fun x => s.partOf x.1 == part && free (if s.flag DMA_CTX_BOUND x.1 x.2 then some (s.fld DMA_CTX_CONTEXT x.1 x.2) else none)) &&
    u.2.2.all (fun x => s.partOf x.1 == part && free (if s.flag FAB_PORTCTX_BOUND x.1 x.2 then some (s.fld FAB_PORTCTX_CONTEXT x.1 x.2) else none))

/-- CTX_BIND (R570): each named unit takes a fresh epoch and the binding. A coach marked in DEV_STFAIL is refused as NOTPART (R670). -/
def execCtxBind (p : Fin 4) (cmd : List Byte) (s : State) : Res :=
  s.admin (.ctxBind p cmd) p 3 cmd (fun a t =>
    let u := a.units
    if (t.ctx a.ctx).state != 1 then t.answerAdm a 8
    else if 4 ≤ a.arg 0x30 1 then t.answerAdm a 7
    else if !t.unitsOk a.ctx a || u.1.any t.stFail then t.answerAdm a 9
    else
      let t1 := u.1.foldl (fun t k => if t.boundCtx k == some a.ctx then t.freshEpoch (coachUnit k) else t.bindCoach k a.ctx) t
      let t2 := u.2.1.foldl (fun t x => t.bindChan x.1 x.2 a.ctx) t1
      (u.2.2.foldl (fun t x => t.bindPort x.1 x.2 a.ctx) t2).answerAdm a 0)

/-- Whether a work order in progress names a coach. -/
def CtxS.busyCoach (x : CtxS) (k : Nat) : Bool := x.queues.any (fun e => e.2.running.any (fun w => w.coaches.contains k))

/-- CTX_UNBIND (R570): each named unit's context is reset, and it is left with a fresh epoch and no binding. -/
def execCtxUnbind (p : Fin 4) (cmd : List Byte) (s : State) : Res :=
  s.admin (.ctxUnbind p cmd) p 4 cmd (fun a t =>
    let u := a.units
    if !t.liveOrStopped a.ctx then t.answerAdm a 8
    else if 4 ≤ a.arg 0x30 1 then t.answerAdm a 7
    else if !t.unitsOk a.ctx a then t.answerAdm a 9
    else if u.1.any (t.ctx a.ctx).busyCoach || u.2.1.any (fun x => (t.chan x.1 x.2).desc.isSome || (t.chan x.1 x.2).fetch != 0) then t.answerAdm a 0xA
    else
      let t1 := u.1.foldl (fun t k => t.unbindCoach k) t
      let t2 := u.2.1.foldl (fun t x => t.unbindChan x.1 x.2) t1
      (u.2.2.foldl (fun t x => t.unbindPort x.1 x.2) t2).answerAdm a 0)

/-! ### CTX_MOVE (R571) -/

/-- Move the entries of one range of a sparse map to another. -/
def moveRange {α : Type} [DecidableEq α] (d : α) (m : SMap α) (src dst n : Nat) : SMap α :=
  (m.filter (fun e => decide (src ≤ e.1) && decide (e.1 < src + n))).foldl (fun a e => mset d a (e.1 - src + dst) e.2)
    (mdrop (fun k => decide (dst ≤ k) && decide (k < dst + n)) m)

/-- Copy the context-level register fields of one coach to another. -/
def State.copyCoachFields (s : State) (src dst : Nat) : State :=
  let mine := fun k => clearedBy .context (fun f u _ => f.blk == .coach && u == src) k
  let s1 := s.resetFields .context (fun f u _ => f.blk == .coach && u == dst)
  (s.fields.filter (fun e => mine e.1)).foldl (fun t e =>
    match keyFld e.1 with | some f => t.setFld f dst (keyIndex e.1) e.2 | none => t) s1

/-- CTX_MOVE (R571): the checks, then new stream requests stop on the source. -/
def execCtxMove (p : Fin 4) (cmd : List Byte) (s : State) : Res :=
  s.admin (.ctxMove p cmd) p 5 cmd (fun a t =>
    if !t.liveOrStopped a.ctx then t.answerAdm a 8
    else match ordinalOf (a.arg 0x10 1), ordinalOf (a.arg 0x11 1) with
      | some src, some dst =>
        if 128 ≤ a.arg 0x10 1 || 128 ≤ a.arg 0x11 1 then t.answerAdm a 7
        else if t.boundCtx src != some a.ctx then t.answerAdm a 9
        else if (t.ctx a.ctx).state != 2 && t.fld COA_STATE_STATE src != 1 && t.fld COA_STATE_STATE src != 6 then t.answerAdm a 8
        else if t.flag COA_ROLE_BOUND dst || t.partOf (carOf dst) != (t.ctx a.ctx).part || t.stFail dst then t.answerAdm a 9
        else if t.fld ACC_SPILLBASE_BASE src != t.fld ACC_SPILLBASE_BASE dst || t.fld ACC_SPILLSLOTS_SLOTS src != t.fld ACC_SPILLSLOTS_SLOTS dst then
          t.answerAdm a 0xC
        else
          { t with admBusy := some { port := a.port, opc := 5, ctx := a.ctx, tag := a.tag, src := src, dst := dst } }.updCoach src (fun c =>
            { c with moving := some dst })
      | _, _ => t.answerAdm a 7)

/-- Replace a coach in the work orders in progress. -/
def CtxS.renameCoach (x : CtxS) (src dst : Nat) : CtxS :=
  { x with queues := mmap {} (fun q => { q with running := q.running.map (fun w =>
      { w with coaches := w.coaches.map (fun k => if k == src then dst else k) }) }) x.queues }

/-- CTX_MOVE_COPY (R179, R571): with no stream request of the source outstanding, its state goes to the destination, which takes a new epoch, and the source is
unbound. A control instruction that waits on the source is not carried: COA_PC holds its index, and the destination issues it again and takes its wait afresh (R179). A move whose source has lost its binding to a brake or recovery carries nothing and is answered CTXSTATE (log 42). -/
def execCtxMoveCopy (s : State) : Res := s.outside rankSched .ctxMoveCopy fun s =>
  match s.admBusy with
  | none => ok s
  | some c =>
    if c.opc != 5 then ok s
    else if s.boundCtx c.src != some c.ctx || (s.coach c.src).moving != some c.dst || s.flag COA_ROLE_BOUND c.dst then
      ok ((s.updCoach c.src (fun x => { x with moving := none })).admEnd 8)
    else if !(s.coach c.src).reqs.isEmpty then ok s
    else
      let st := s.fld COA_STATE_STATE c.src
      let s1 := { s with store := moveRange (0 : Byte) s.store (c.src * storeSize) (c.dst * storeSize) storeSize,
                         bank := moveRange 0 s.bank (c.src * 131072) (c.dst * 131072) 131072,
                         vreg := moveRange 0 s.vreg (c.src * 32768) (c.dst * 32768) 32768, sacc := moveRange 0 s.sacc (c.src * 4096) (c.dst * 4096) 4096 }
      let s2 := (s1.copyCoachFields c.src c.dst).setCoach c.dst { s.coach c.src with moving := none, ctrl := none }
      let st2 := if st == 6 then 1 else if st == 3 && (s.coach c.src).ctrl.isSome then 2 else st
      let s3 := ((s2.bindCoach c.dst c.ctx).setFld COA_STATE_STATE c.dst 0 st2).updCtx c.ctx (fun x => x.renameCoach c.src c.dst)
      ok ((s3.unbindCoach c.src).admEnd 0)

/-! ### ROUTE_WRITE, VF_MAP, HCL_START -/

/-- R572: whether an entry passes the partition check of a context. -/
def State.routeInPart (s : State) (n w2 w3 : Nat) : Bool :=
  if bitsOf w3 31 1 == 0 then true
  else if !swRemote w2 then s.partOf (bitsOf w3 0 10 / 256) == (s.ctx n).part
  else decide (swLink w2 < 24) && s.partOf (swLink w2 / 6) == (s.ctx n).part

/-- ROUTE_WRITE (R572). -/
def execRouteWrite (p : Fin 4) (cmd : List Byte) (s : State) : Res :=
  s.admin (.routeWrite p cmd) p 6 cmd (fun a t =>
    let w := fun i => a.arg (0x20 + 4 * i) 4
    let u := a.arg 0x10 2
    if !t.liveOrStopped a.ctx then t.answerAdm a 8
    else if 1024 ≤ u then t.answerAdm a 7
    else if !t.routeInPart a.ctx (w 2) (w 3) then t.answerAdm a 9
    else
      let w3 := w 3 - bitsOf (w 3) 29 1 * 2 ^ 29 + (a.arg 0x13 1 % 2) * 2 ^ 29
      let r := t.routeWrite u (a.arg 0x12 1) (w 0) (w 1) (w 2) w3
      r.2.answerAdm a (if r.1 == 0 then 0 else 0xB))

/-- VF_MAP (R546): a slot of a VF of the port is given to a context that the VF owns, or unmapped. -/
def execVfMap (p : Fin 4) (cmd : List Byte) (s : State) : Res :=
  s.admin (.vfMap p cmd) p 7 cmd (fun a t =>
    let v := a.arg 0x10 1
    let i := a.arg 0x11 1
    let n := a.arg 0x12 2
    let x := t.ctx n
    let put := fun y => ({ t with ports := mupd {} t.ports a.port (fun q => { q with slots := mset 0 q.slots (v * 16 + i) y }) } : State)
    if 16 ≤ i then t.answerAdm a 7
    else if n == 0xFFFF then (put 0).answerAdm a 0
    else if 1024 ≤ n || x.state == 0 || !x.isvf || x.vf != v || x.port != a.port then t.answerAdm a 7
    else (put (n + 1)).answerAdm a 0)

/-- HCL_START (R539): in a carriage in RUN, the reset vector and the windows are written and the named harts are released. -/
def execHclStart (p : Fin 4) (cmd : List Byte) (s : State) : Res :=
  s.admin (.hclStart p cmd) p 8 cmd (fun a t =>
    let c := a.arg 0x10 1
    if 4 ≤ c || 16 ≤ a.arg 0x11 1 || t.carState c != 0 then t.answerAdm a 7
    else
      let t1 := (List.range 4).foldl (fun t n =>
        (t.setFld HCL_WIN_BASE c n (a.arg (0x20 + 8 * n) 4)).setFld HCL_WIN_SIZE c n (a.arg (0x24 + 8 * n) 4)) (t.setFld HCL_RESETVEC_VEC c 0 (a.arg 0x18 8))
      let t2 := (List.range 4).foldl (fun t i => if bitsOf (a.arg 0x11 1) i 1 == 1 then t.setFld HCL_CTL_RUN c i 1 else t) t1
      t2.answerAdm a 0)

/-! ### Host cores (R538) -/

/-- Whether a window of a carriage's host cores covers an address. -/
def State.hartWindow (s : State) (c a : Nat) : Bool :=
  (List.range 4).any (fun n =>
    let base := s.fld HCL_WIN_BASE c n * 2 ^ 21
    decide (base ≤ a) && decide (a < base + s.fld HCL_WIN_SIZE c n * 2 ^ 21))

/-- Whether a hart may access an address (R538, Table 14.1): the BAR0 map and the doorbell pages, or HBM and tenders within a window. -/
def State.hartMay (s : State) (c a : Nat) : Bool :=
  if a < 0x8000000000 || (0x100000000000 ≤ a && a < 0x200000000000) then s.hartWindow c a
  else decide (0x8000000000 ≤ a) && decide (a < 0x8040400000)

/-- HART_ACCESS_FAULT (R538): an access that a running hart may not make is recorded. -/
def execHartAccessFault (c : Car) (i : Fin 4) (addr : BitVec 64) (write : Bool) (s : State) : Res :=
  if !s.flag HCL_CTL_RUN c i || s.hartMay c addr.toNat then ok s
  else if s.flag HCL_ACCERR_VALID c then ok (s.setFld HCL_ACCERR_MORE c 0 1)
  else ok (s.setFlds c 0 [(HCL_ACCERR_HART, i), (HCL_ACCERR_WRITE, b2n write), (HCL_ACCERR_MORE, 0), (HCL_ACCERR_VALID, 1)])

end Sys2Proof.Machine
end

