-- ==== Sys2Proof/Machine/Hbm.lean ====
section
/-! DEFINITION. The HBM controllers (chapter 09): queues and order, refresh and neighbour refresh, training, change of data rate,
errors. -/

namespace Sys2Proof.Machine

/-! ### Acceptance (R370, R375, R645) -/

/-- Whether a mirror range is enabled and meets `n` bytes at `pa` (R645); gives its offset to the partner side. -/
def State.mirrorRange (s : State) (pa n : Nat) : Option (Nat × Nat) :=
  (List.range 16).findSome? (fun i =>
    let lb := s.fld CPL_MRNG_LBASE 0 i * 2 ^ 21
    let sz := s.fld CPL_MRNG_SIZE 0 i * 2 ^ 21
    if s.flag CPL_MRNG_EN 0 i && decide (lb < pa + n) && decide (pa < lb + sz) then some (lb, s.fld CPL_MRNG_PBASE 0 i * 2 ^ 21) else none)

/-- R643 and R645: whether a write waits for the coupler NI to accept its copy. -/
def State.needsCopy (s : State) (p : Packet) : Bool :=
  let r := reqOfPacket p
  r.2.2 && s.mirroring && (s.mirrorRange r.1 r.2.1).isSome && s.pairRole p.ctx == 1

/-- Enter the front request of an edge port into its queue when the port can take it; a write is acknowledged at once (R370, R375).
`copy` says that the write's copy has been accepted. -/
def State.hbmEnter (s : State) (c e : Nat) (copy : Bool) : State :=
  let n := c * 2 + e / 4
  let h := s.hbmCtl n
  match mget [] h.edgeIn e with
  | [] => s
  | p :: rest =>
    let r := reqOfPacket p
    if !s.edgeTakes c e p || (s.needsCopy p && !copy) then s
    else
      let x : HReq := { pkt := p, pa := r.1, n := r.2.1, write := r.2.2, cls := p.sclass, entered := h.cyc, order := h.orderNo }
      let s1 := s.updHbm n (fun h =>
        { (h.updPc (s.place r.1).pc (fun q => if r.2.2 then { q with wq := q.wq ++ [x] } else { q with rq := q.rq ++ [x] })) with
            edgeIn := mset [] h.edgeIn e rest, orderNo := h.orderNo + 1 })
      if r.2.2 then s1.respond (c * 256 + 0x20 + e) p 1 0 [] else s1

/-- HBM_REQUEST_ACCEPT (R370). -/
def execHbmRequestAccept (c : Car) (e : Fin 8) (s : State) : Res := ok (s.hbmEnter c e false)

/-! ### Choice of the next access (R371 to R374) -/

/-- Numbers of the bursts that a range touches. -/
def burstsOf (pa n : Nat) : List Nat := (List.range ((pa + n - 1) / 32 - pa / 32 + 1)).map (fun i => pa / 32 + i)

/-- Bursts of a request that have not been issued. -/
def HReq.rest (r : HReq) : List Nat := (burstsOf r.pa r.n).drop r.issued

/-- Whether two requests touch a common 32-byte burst (R374). -/
def overlap (a b : HReq) : Bool :=
  decide (a.pa / 32 ≤ (b.pa + b.n - 1) / 32) && decide (b.pa / 32 ≤ (a.pa + a.n - 1) / 32)

/-- R374: whether a request waits for an earlier one of its pseudo-channel: any for an earlier write, which stays in its queue until every byte of it is in
the stack, and a write for an earlier read's bursts that have not been issued. No other access to a burst therefore falls between the read and the write of a
read-modify-write (R376). -/
def waits (q : PcS) (r : HReq) : Bool :=
  q.wq.any (fun w => decide (w.order < r.order) && overlap w r) ||
    (r.write && q.rq.any (fun x => decide (x.order < r.order) && x.rest.any (fun b => (burstsOf r.pa r.n).contains b)))

/-- R372: effective class. -/
def effClass (cyc lim : Nat) (q : PcS) (r : HReq) : Nat :=
  let own := fun (x : HReq) => if lim < cyc - x.entered then 0 else x.cls
  if r.write then
    (q.rq.filter (fun x => decide (r.order < x.order) && overlap r x)).foldl (fun m x => min m (own x)) (own r)
  else own r

/-- R373: whether request `a` goes before `b`. -/
def servedBefore (cyc lim : Nat) (q : PcS) (hit : HReq → Bool) (a b : HReq) : Bool :=
  let oldA := decide (2 * lim < cyc - a.entered)
  let oldB := decide (2 * lim < cyc - b.entered)
  if oldA != oldB then oldA
  else if oldA then decide (a.order < b.order)
  else
    let ca := effClass cyc lim q a
    let cb := effClass cyc lim q b
    if ca != cb then decide (ca < cb)
    else if hit a != hit b then hit a
    else decide (a.order < b.order)

/-- The first of a list under an order. -/
def pickFirst (before : HReq → HReq → Bool) : List HReq → Option HReq
  | [] => none
  | x :: xs => match pickFirst before xs with
    | none => some x
    | some y => if before y x then some y else some x

/-! ### Activates and neighbour refresh (R380 to R383) -/

/-- One step of the generator G. -/
def stepG (g : Nat) : Nat :=
  let b := (bitsOf g 31 1 + bitsOf g 21 1 + bitsOf g 1 1 + bitsOf g 0 1) % 2
  (g * 2 + b) % 2 ^ 32

/-- Whether a table of sixteen 4-bit entries is a permutation of 0 to 15. -/
def isPerm (t : Nat) : Bool := (List.range 16).all (fun v => (List.range 16).any (fun i => bitsOf t (4 * i) 4 == v))

/-- R382: physical index of a row. -/
def State.physRow (s : State) (n row : Nat) : Nat :=
  let t := if s.hfld HBM_STATUS_ADJOK n == 1 then s.hfld HBM_ADJMAP_PERM n else 0xFEDCBA9876543210
  row / 16 * 16 + bitsOf t (4 * (row % 16)) 4

/-- R383: neighbour activates of a triggering activate. -/
def neighbours (p : Nat) (dist : Bool) : List Nat :=
  (if 1 ≤ p then [p - 1] else []) ++ (if p + 1 ≤ 16383 then [p + 1] else []) ++
    (if dist then (if 2 ≤ p then [p - 2] else []) ++ (if p + 2 ≤ 16383 then [p + 2] else []) else [])

/-- A bank is precharged: the neighbour refreshes that its row has triggered follow at once, each neighbour activated and precharged in order and counted
(R383). -/
def State.precharge (s : State) (n pc bank : Nat) : State :=
  let rows := mget [] ((s.hbmCtl n).pc pc).nbr bank
  let s1 := s.updHbm n (fun h => h.updPc pc (fun q => { q with openRow := mset none q.openRow bank none, nbr := mset [] q.nbr bank [] }))
  (rows.foldl (fun t r => t.emit (.neighbour n pc bank r)) s1).bumpH HBM_NRCNT_COUNT n rows.length

/-- Every open bank of a controller is precharged, as before an all-bank refresh or self-refresh. -/
def State.prechargeAll (s : State) (n : Nat) : State :=
  (s.hbmCtl n).pcs.foldl (fun t e => e.2.openRow.foldl (fun t b => t.precharge n e.1 b.1) t) s

/-- An activate that a request causes, after the precharge of the row before it: G steps, and when it triggers, the physical neighbours are activated after
its own precharge and before any other activate of the bank (R380, R383). -/
def State.activate (s : State) (n pc bank row : Nat) : State :=
  let g := stepG (s.hbmCtl n).g
  let trig := s.hfld HBM_NRCTL_EN n == 1 && g % 2 ^ s.hfld HBM_NRCTL_K n == 0
  let rows := if trig then neighbours (s.physRow n row) (s.hfld HBM_NRCTL_DIST n == 1) else []
  (s.precharge n pc bank).updHbm n (fun h =>
    { (h.updPc pc (fun q => { q with openRow := mset none q.openRow bank (some row), nbr := mset [] q.nbr bank rows })) with g := g })

/-! ### Accesses to the stack (R376, R391, R393) -/

/-- Whether a write covers a whole burst. -/
def covers (pa n b : Nat) : Bool := decide (pa ≤ b * 32 ∧ b * 32 + 32 ≤ pa + n)

/-- Store bytes in a stack. Bursts written whole lose their poison; `bad` says which of the others are written with the poison
mark. -/
def State.stackWrite (s : State) (pa : Nat) (bs : List Nat) (bad : Nat → Bool) : State :=
  let s1 := { s with hbm := { s.hbm with bytes := memWrite s.hbm.bytes pa bs } }
  (burstsOf pa bs.length).foldl (fun t b =>
    { t with hbm := { t.hbm with poison := mset 0 t.hbm.poison b (if !covers pa bs.length b && bad b then 1 else 0) } }) s1

/-- Whether a burst is poisoned (R391). -/
def State.poisoned (s : State) (b : Nat) : Bool := mget 0 s.hbm.poison b == 1

/-- The poison mark, bits [15:10] of the ECC lanes (R391). -/
def poisonMark (bad : Bool) : Nat := if bad then 63 else 0

/-- The 16 check bits that the ECC lanes hold with burst `b` (R391): the code over its 256 data bits, and the poison mark. -/
def State.eccLanes (s : State) (b : Nat) : Nat := Config.burstCode (leNat (memRead s.hbm.bytes (b * 32) 32)) % 2 ^ 10 + poisonMark (s.poisoned b) * 2 ^ 10

/-- What the controller makes of a burst that it reads: its bytes, whether it corrected a bit, and whether it is poisoned or uncorrectable. -/
structure BurstRead where
  bytes : List Nat
  corrected : Bool
  failed : Bool
deriving DecidableEq, Repr

/-- Read a stored burst of which `flips` have inverted bits, 0 to 255 data and 256 to 271 the ECC lanes (R391, R392): a mark with four or more bits set poisons it; one error in data and code is
corrected, more are uncorrectable, and the data is returned as it was read. -/
def readBurst (bytes : List Nat) (bad : Bool) (flips : List Nat) : BurstRead :=
  let x := flipped flips
  let errs := x.filter (fun i => i < 266)
  let mark := (List.range 6).countP (fun i => bad != x.contains (266 + i))
  let failed := decide (4 ≤ mark) || decide (2 ≤ errs.length)
  { bytes := if failed then invertBits bytes errs else bytes, corrected := !failed && errs.length == 1, failed := failed }

/-- The bytes of a write that lie in a burst, with their address. -/
def HReq.part (r : HReq) (b : Nat) : Nat × List Nat :=
  let lo := max r.pa (b * 32)
  (lo, (r.pkt.data.drop (lo - r.pa)).take (min (r.pa + r.n) (b * 32 + 32) - lo))

/-- Writes of the firmware's own that waited enter a write queue that has room. -/
def State.lateEnter (s : State) (n pc : Nat) : State :=
  s.updHbm n (fun h =>
    let q := h.pc pc
    match q.late with
    | [] => h
    | r :: rest =>
      if q.wq.length < 32 then { (h.updPc pc (fun q => { q with wq := q.wq ++ [{ r with entered := h.cyc, order := h.orderNo }], late := rest })) with orderNo := h.orderNo + 1 }
      else h)

/-- A write of which every byte is in the stack leaves its queue. -/
def State.settleWrite (s : State) (n pc order : Nat) : State :=
  let h := s.hbmCtl n
  if (h.pc pc).wq.any (fun w => w.order == order && w.rest.isEmpty) && !h.reads.any (fun r => r.write && r.order == order) then
    (s.updHbm n (fun h => h.updPc pc (fun q => { q with wq := q.wq.filter (fun w => w.order != order) }))).lateEnter n pc
  else s

/-- One burst of the request chosen for a pseudo-channel, the 32 bytes of a controller cycle (R364, R365): the row is opened when it must be; a read
captures the burst, a write of a whole burst is written, and a write of part of one begins its read-modify-write (R376). -/
def State.serve (s : State) (n pc : Nat) (r : HReq) : State :=
  match r.rest with
  | [] => s
  | b :: more =>
    let pl := s.place r.pa
    let hit := mget none ((s.hbmCtl n).pc pc).openRow pl.bank == some pl.row
    let s1 := if hit then s else s.activate n pc pl.bank pl.row
    let put := fun (f : HReq → HReq) => s1.updHbm n (fun h => h.updPc pc (fun q =>
      { q with lastUse := mset 0 q.lastUse pl.bank h.cyc, rq := q.rq.map (fun x => if x.order == r.order then f x else x),
               wq := q.wq.map (fun x => if x.order == r.order then f x else x) }))
    if r.write then
      let s2 := put (fun x => { x with issued := x.issued + 1 })
      let p := r.part b
      if covers r.pa r.n b then (s2.stackWrite p.1 p.2 (fun _ => false)).settleWrite n pc r.order
      else s2.updHbm n (fun h => { h with reads := h.reads ++ [{ r with pa := p.1, n := p.2.length, pkt := { r.pkt with data := p.2 } }] })
    else
      let x := { r with issued := r.issued + 1, data := r.data ++ memRead s1.hbm.bytes (b * 32) 32, bad := if s1.poisoned b then r.bad ++ [b] else r.bad, served := (s.hbmCtl n).cyc }
      let s2 := put (fun _ => x)
      if more.isEmpty then
        s2.updHbm n (fun h => { (h.updPc pc (fun q => { q with rq := q.rq.filter (fun y => y.order != r.order) })) with reads := h.reads ++ [x] })
      else s2

/-- A bank's refresh: its row is precharged and its debt paid (R378). -/
def State.refreshBank (s : State) (n pc bank : Nat) : State :=
  (s.precharge n pc bank).updHbm n (fun h => { (h.updPc pc (fun q => { q with refDue := mset 0 q.refDue bank 0 })) with refreshes := h.refreshes + 1 })

/-- R378: refreshes that are due are made for banks without queued requests, and for banks whose debt has reached what HBM4
allows, ahead of any request. -/
def State.payRefresh (s : State) (n pc : Nat) : State :=
  let q := (s.hbmCtl n).pc pc
  let wanted := fun bank => (q.rq ++ q.wq).any (fun r => (s.place r.pa).bank == bank)
  (q.refDue.filter (fun e => !wanted e.1 || decide (Config.refreshPostpone ≤ e.2))).foldl (fun t e => t.refreshBank n pc e.1) s

/-- R374: each read that waits is counted once. -/
def State.countWaits (s : State) (n pc : Nat) : State :=
  let q := (s.hbmCtl n).pc pc
  let new := q.rq.filter (fun r => !r.counted && waits q r)
  if new.isEmpty then s
  else (s.bumpH HBM_RAWCNT_COUNT n new.length).updHbm n (fun h => h.updPc pc (fun q =>
    { q with rq := q.rq.map (fun r => if waits q r then { r with counted := true } else r) }))

/-- The choice of one pseudo-channel in one controller cycle (R373), among the requests of both queues that have bursts to issue and do not wait. -/
def State.schedulePc (s : State) (n pc : Nat) : State :=
  let h := s.hbmCtl n
  let q := h.pc pc
  if q.rq.isEmpty && q.wq.isEmpty && q.refDue.isEmpty then s
  else
    let s1 := (s.payRefresh n pc).countWaits n pc
    let h1 := s1.hbmCtl n
    let q1 := h1.pc pc
    let hit := fun (r : HReq) => let pl := s1.place r.pa; mget none q1.openRow pl.bank == some pl.row
    match pickFirst (servedBefore h1.cyc (s.hfld HBM_AGELIM_LIMIT n) q1 hit) ((q1.rq ++ q1.wq).filter (fun r => !r.rest.isEmpty && !waits q1 r)) with
    | none => s1
    | some r => s1.serve n pc r

/-- HBM_SCHEDULE (R373): one controller cycle; the pseudo-channels choose in ascending order, which is the order in which G
steps (R380). -/
def execHbmSchedule (n : Fin 8) (s : State) : Res :=
  let s1 := s.updHbm n (fun h => { h with cyc := h.cyc + 1 })
  if s.hfld HBM_CTL_MODE n == 2 && !(s.hbmCtl n).selfRef then ok ((List.range 64).foldl (fun t p => t.schedulePc n p) s1) else ok s1

/-! ### Returned data (R392, R393) -/

/-- R682: whether DEV_PERTMEM still delays the response to a read. -/
def State.readDelayed (s : State) (n : Nat) (r : HReq) : Bool :=
  !r.write && s.flag DEV_PERTMEM_EN 0 && bitsOf (s.fld DEV_PERTMEM_CARMASK 0) (n / 2) 1 == 1 && decide ((s.hbmCtl n).cyc < r.served + s.fld DEV_PERTMEM_EXTRA 0)

/-- Count what the reads of bursts found: corrected ones, and failed ones with the PA of the last (R392, R393). -/
def State.countBursts (s : State) (n : Nat) (l : List (Nat × BurstRead)) : State :=
  (l.filter (fun x => x.2.failed)).foldl (fun t x => t.countUe n x.1) (s.bumpH HBM_CECNT_COUNT n (l.countP (fun x => x.2.corrected)))

/-- Bits that `flips` inverts in burst `i` of a request. -/
def flipsIn (flips : List (Nat × Fin 272)) (i : Nat) : List Nat := (flips.filter (fun x => x.1 == i)).map (·.2.val)

/-- A read returns (R392): its bytes, marked in error when a burst failed. -/
def State.endRead (s : State) (n : Nat) (r : HReq) (flips : List (Nat × Fin 272)) : State :=
  let l := (burstsOf r.pa r.n).zipIdx.map (fun x => (x.1, readBurst ((r.data.drop (32 * x.2)).take 32) (r.bad.contains x.1) (flipsIn flips x.2)))
  let data := ((l.flatMap (·.2.bytes)).drop (r.pa % 32)).take r.n
  (s.countBursts n l).respond (n / 2 * 256 + 0x20 + (s.place r.pa).edge) r.pkt 0 0 data (l.any (·.2.failed))

/-- A read-modify-write of one burst ends (R376, R393): the merged burst is written, with the poison mark when the read failed. -/
def State.endRmw (s : State) (n : Nat) (r : HReq) (flips : List (Nat × Fin 272)) : State :=
  let b := r.pa / 32
  let x := readBurst (memRead s.hbm.bytes (b * 32) 32) (s.poisoned b) (flipsIn flips 0)
  let s1 := s.countBursts n [(b, x)]
  let s2 := { s1 with hbm := { s1.hbm with bytes := memWrite s1.hbm.bytes (b * 32) x.bytes } }.stackWrite r.pa r.pkt.data (fun _ => x.failed)
  s2.settleWrite n (s.place r.pa).pc r.order

/-- HBM_READ_DATA (R392, R393, R682): the oldest read in hand returns, or the oldest read-modify-write ends. `flips` are the bits that errors have inverted,
by burst of the request. -/
def execHbmReadData (n : Fin 8) (flips : List (Nat × Fin 272)) (s : State) : Res :=
  match (s.hbmCtl n).reads with
  | [] => ok s
  | r :: rest =>
    if s.readDelayed n r then ok s
    else
      let s1 := s.updHbm n (fun h => { h with reads := rest })
      ok (if r.write then s1.endRmw n r flips else s1.endRead n r flips)

/-! ### Rows and refresh -/

/-- ROW_IDLE_CLOSE (R377): a bank with no access for 64 controller cycles closes its row. -/
def execRowIdleClose (n : Fin 8) (p : Fin 64) (b : Fin 64) (s : State) : Res :=
  let h := s.hbmCtl n
  if mget 0 (h.pc p).lastUse b + 64 ≤ h.cyc then ok (s.precharge n p b) else ok s

/-- Per-bank refresh interval in controller cycles: tREFI of the active set, halved while the stack is hot (R378). -/
def State.refInterval (s : State) (n : Nat) : Nat :=
  s.fld HBM_TSET_TREFI (n / 2) (n % 2 * 2 + s.hfld HBM_STATUS_ACTSET n) / (1 + s.hfld HBM_STATUS_HOT n)

/-- REFRESH_DUE (R378): with REFMODE = 0, a bank's refresh falls due an interval after the last; it is made at once when no request to the bank is
queued. -/
def execRefreshDue (n : Fin 8) (p : Fin 64) (b : Fin 64) (s : State) : Res :=
  let h := s.hbmCtl n
  let q := h.pc p
  if s.hfld HBM_CTL_REFMODE n != 0 || h.selfRef || decide (h.cyc < max h.refFrom (mget 0 q.refAt b) + s.refInterval n) then ok s
  else
    let s1 := s.updHbm n (fun h => h.updPc p (fun q => { q with refAt := mset 0 q.refAt b h.cyc }))
    if (q.rq ++ q.wq).any (fun r => (s.place r.pa).bank == b.val) then
      ok (s1.updHbm n (fun h => h.updPc p (fun q => { q with refDue := mupd 0 q.refDue b (· + 1) })))
    else ok (s1.refreshBank n p b)

/-- An all-bank refresh of every pseudo-channel: every row is precharged. -/
def State.refreshAll (s : State) (n : Nat) : State :=
  (s.prechargeAll n).updHbm n (fun h => { h with pcs := mmap {} (fun q => { q with refDue := [] }) h.pcs, allRefreshes := h.allRefreshes + 1 })

/-- Every pseudo-channel of a stack enters self-refresh. -/
def State.selfRefresh (s : State) (n : Nat) : State := (s.prechargeAll n).updHbm n (fun h => { h with selfRef := true })

/-- REFRESH_SLOT (R379): in fixed-slot mode, at each multiple of HBM_REFSLOT, and half way between while the stack is hot. -/
def execRefreshSlot (n : Fin 8) (s : State) : Res :=
  let h := s.hbmCtl n
  let slot := s.hfld HBM_REFSLOT_SLOT n
  let at_ := (h.cyc - h.slotBase) % slot
  if s.hfld HBM_CTL_REFMODE n == 1 && slot != 0 && (at_ == 0 || (s.hfld HBM_STATUS_HOT n == 1 && at_ == slot / 2)) then ok (s.refreshAll n)
  else ok s

/-- STACK_TEMP_CHANGE (R378, R379): in fixed-slot mode a stack that grows hot aborts a running lockstep with REFRESH. -/
def execStackTempChange (n : Fin 8) (hot : Bool) (s : State) : Res :=
  let s1 := s.setHfld HBM_STATUS_HOT n (b2n hot)
  ok (if hot && s.hfld HBM_CTL_REFMODE n == 1 then s1.lockAbort 4 else s1)

/-- ADJMAP_HI_WRITE (R382): both words take effect, and ADJOK tells whether the table is a permutation. -/
def execAdjmapHiWrite (n : Fin 8) (v : BitVec 32) (s : State) : Res := s.regEvent HBM_ADJMAP_PERM (n / 2) (n % 2) (.adjmapHiWrite n v) (hi := true) fun s =>
  let t := s.heldLow HBM_ADJMAP_PERM (n / 2) (n % 2) (s.hfld HBM_ADJMAP_PERM n) + v.toNat * 2 ^ 32
  ok (((s.dropLow HBM_ADJMAP_PERM (n / 2) (n % 2)).setHfld HBM_ADJMAP_PERM n t).setHfld HBM_STATUS_ADJOK n (b2n (isPerm t)))

/-! ### Modes, training and change of data rate (R384 to R390) -/

/-- HBM_MODE_WRITE (R387): the write that sets RUN makes the set TRSET active; SELFREF holds the stack in self-refresh. -/
def execHbmModeWrite (n : Fin 8) (mode : Fin 4) (s : State) : Res := s.regEvent HBM_CTL_MODE (n / 2) (n % 2) (.hbmModeWrite n mode) fun s =>
  let was := s.hfld HBM_CTL_MODE n
  let s1 := s.setHfld HBM_CTL_MODE n mode
  let s2 := if mode.val == 3 then s1.selfRefresh n else s1.updHbm n (fun h => { h with selfRef := false })
  ok (if mode.val == 2 && was != 2 then s2.setHfld HBM_STATUS_ACTSET n (s.hfld HBM_CTL_TRSET n) else s2)

/-- HBM_FREQ_CHANGE (R388, R390): refused with FCERR, or begun; while a chip reset runs it has no effect. -/
def execHbmFreqChange (n : Fin 8) (s : State) : Res := s.regEvent HBM_CTL_FCREQ (n / 2) (n % 2) (.hbmFreqChange n) fun s =>
  let other := n % 2 * 2 + (1 - s.hfld HBM_STATUS_ACTSET n)
  let ls := s.fld DEV_LSSTAT_STATE 0
  if s.pm.running then ok s
  else if s.hfld HBM_CTL_MODE n != 2 || s.fld HBM_TSET_VALID (n / 2) other == 0 || s.fld HBM_TSET_RATE (n / 2) other == 3 || ls == 1 || ls == 2 ||
      s.hfld HBM_STATUS_FCBUSY n == 1 then ok (s.setHfld HBM_STATUS_FCERR n 1)
  else ok (((s.setHfld HBM_CTL_FCREQ n 1).setHfld HBM_STATUS_FCBUSY n 1).updHbm n (fun h => { h with fcStep := 1 }))

/-- Whether a controller has served every accepted request. -/
def HbmS.drained (h : HbmS) : Bool := h.reads.isEmpty && h.pcs.all (fun e => e.2.rq.isEmpty && e.2.wq.isEmpty && e.2.late.isEmpty)

/-- FC_QUEUES_EMPTY (R388, Table 9.3 steps 2 and 3): all-bank refresh, then self-refresh. -/
def execFcQueuesEmpty (n : Fin 8) (s : State) : Res :=
  let h := s.hbmCtl n
  if h.fcStep == 1 && h.drained then ok (((s.refreshAll n).selfRefresh n).updHbm n (fun h => { h with fcStep := 3 })) else ok s

/-- A stack leaves self-refresh, and its refresh timers restart (Table 9.3, step 5; Table 15.3, step 4). -/
def HbmS.exitSelfRefresh (h : HbmS) : HbmS :=
  { h with selfRef := false, refFrom := h.cyc, pcs := mmap {} (fun q => { q with refDue := [], refAt := [] }) h.pcs }

/-- HBM_FREQ_CHANGE_DONE (R388, Table 9.3 steps 4 to 6): the sets change places; on the exit from self-refresh every pseudo-channel's mode registers are
written for the new rate and the refresh timer restarts; service goes on. -/
def execHbmFreqChangeDone (n : Fin 8) (s : State) : Res :=
  if (s.hbmCtl n).fcStep == 3 then
    let act := 1 - s.hfld HBM_STATUS_ACTSET n
    let set := n.val % 2 * 2 + act
    let word := Config.modeWord (s.fld HBM_TSET_RATE (n / 2) set) (s.fld HBM_TSET_RL (n / 2) set) (s.fld HBM_TSET_WL (n / 2) set)
    let s1 := s.updHbm n (fun h => { h.exitSelfRefresh with fcStep := 0, mrws := h.mrws ++ (List.range 64).map (fun p => (p, word)) })
    ok ((((s1.setHfld HBM_STATUS_ACTSET n act).setHfld HBM_STATUS_FCBUSY n 0).setHfld HBM_STATUS_FCDONE n 1).setHfld HBM_CTL_FCREQ n 0)
  else ok s

/-- The address of burst 0 of row 0, bank 0 of a pseudo-channel of stack `n`: with b = 0, q is the pseudo-channel (R367). -/
def State.trainAddr (s : State) (n p : Nat) : Nat :=
  if s.ilv then n / 2 * 2 ^ 37 + n % 2 * 2 ^ 14 + p * 256 else n * 2 ^ 14 + p * 256

/-- The training pattern of a pseudo-channel's channel. -/
def trainPattern (p : Nat) : List Nat := (List.range 32).map (fun i => Config.trainByte (p / 2) i % 256)

/-- TRAIN_WRITE_PATTERN (R387, OP = 1): in mode TRAIN, the channel's pattern goes to the training burst. -/
def execTrainWritePattern (n : Fin 8) (p : Fin 64) (s : State) : Res := s.regEvent HBM_TRCMD_OP (n / 2) (n % 2) (.trainWritePattern n p) fun s =>
  if s.hfld HBM_CTL_MODE n != 1 then ok s
  else
    let s1 := s.stackWrite (s.trainAddr n p) (trainPattern p) (fun _ => false)
    ok (s1.updHbm n (fun h => { h with trCmd := some (1, 0) }))

/-- A burst as it travels: its 256 data bits and its 16 check bits above them. -/
def burstWord (bytes : List Nat) (check : Nat) : Nat := leNat bytes + check * 2 ^ 256

/-- PASS of a burst read back as `got` where `want` was written (R387): bit l is 1 when no bit that lane l carries differs. -/
def lanesPass (p got want : Nat) : Nat :=
  (List.range 9).foldl (fun m l => m + (if (List.range 272).all (fun i => Config.trainLane p i != l || got.testBit i == want.testBit i) then 2 ^ l else 0)) 0

/-- TRAIN_READ_COMPARE (R387, OP = 2): in mode TRAIN, the training burst is read back, `flips` naming the bits inverted on the way, and compared lane by lane with
the pattern; the result is held for PASS. -/
def execTrainReadCompare (n : Fin 8) (p : Fin 64) (flips : List (Fin 272)) (s : State) : Res := s.regEvent HBM_TRCMD_OP (n / 2) (n % 2) (.trainReadCompare n p flips) fun s =>
  if s.hfld HBM_CTL_MODE n != 1 then ok s
  else
    let b := s.trainAddr n p / 32
    let stored := burstWord (memRead s.hbm.bytes (b * 32) 32) (s.eccLanes b)
    let got := (flipped (flips.map Fin.val)).foldl (fun v i => v ^^^ 2 ^ i) stored
    let want := burstWord (trainPattern p) (Config.burstCode (leNat (trainPattern p)) % 2 ^ 10)
    ok (s.updHbm n (fun h => { h with trCmd := some (2, lanesPass p got want) }))

/-- TRAIN_MRW (R387, OP = 3): in mode TRAIN, the mode-register write held in HBM_TRRES is issued to the pseudo-channel. -/
def execTrainMrw (n : Fin 8) (p : Fin 64) (s : State) : Res := s.regEvent HBM_TRCMD_OP (n / 2) (n % 2) (.trainMrw n p) fun s =>
  if s.hfld HBM_CTL_MODE n != 1 then ok s
  else ok (s.updHbm n (fun h => { h with mrws := h.mrws ++ [(p.val, s.hfld HBM_TRRES_MRW n)], trCmd := some (3, 0) }))

/-- TRAIN_CMD_DONE (R387): DONE is set; after OP = 2, bits [8:0] hold PASS. -/
def execTrainCmdDone (n : Fin 8) (s : State) : Res :=
  match (s.hbmCtl n).trCmd with
  | none => ok s
  | some (op, lanes) =>
    let s1 := (s.updHbm n (fun h => { h with trCmd := none })).setHfld HBM_TRRES_DONE n 1
    ok (if op == 2 then s1.setHfld HBM_TRRES_MRW n (s.hfld HBM_TRRES_MRW n / 512 * 512 + lanes) else s1)

/-! ### Chip reset (R390, R394) -/

/-- R394: when chip reset begins, every queued write is written, queued reads are discarded without response, and the stack goes
to self-refresh; a change of data rate stops (R390). Bursts already issued complete. -/
def State.hbmChipReset (s : State) (n : Nat) : State :=
  let ws := (s.hbmCtl n).pcs.flatMap (fun e => e.2.wq ++ e.2.late)
  let s1 := (ws.foldl (fun t r => t.stackWrite r.pa r.pkt.data t.poisoned) s).selfRefresh n
  s1.updHbm n (fun h => { h with pcs := [], reads := [], edgeIn := [], fcStep := 0 })

/-- When chip reset ends, a controller in RUN or SELFREF exits self-refresh and is in RUN (R394); G takes an entropy value, 1 in place of zero (R381). -/
def State.hbmRestart (s : State) (n : Nat) : State :=
  let g := s.draw 32
  let s1 := g.2.updHbm n (fun h => { h.exitSelfRefresh with g := if g.1 == 0 then 1 else g.1 })
  if s.hfld HBM_CTL_MODE n == 3 then s1.setHfld HBM_CTL_MODE n 2 else s1

end Sys2Proof.Machine
end

