-- ==== Sys2Proof/Machine/Maint.lean ====
section
/-! DEFINITION. The maintenance arbiter's commands (R632 to R636). -/

namespace Sys2Proof.Machine

/-- Set RESULT of a host request. -/
def State.mntResult (s : State) (r : MReq) (code : Nat) : State := if r.host then s.setFld REC_MNTSTAT_RESULT 0 0 code else s

/-- A request for an activity is granted, queued or refused (R633, R635). -/
def State.mntAsk (s : State) (r : MReq) : State :=
  if r.kind == 0 || r.kind == 7 then s
  else if r.kind == 6 && s.fld COA_STATE_STATE r.unit != 0 then s.mntResult r 3
  else if s.grants && s.mayGrant s.arb.queue r then ((s.grant r).mntResult r 0).showArb
  else if 16 ≤ s.arb.queue.length then s.mntResult r 2
  else ({ s with arb := { s.arb with queue := s.arb.queue ++ [r] } }.mntResult r 1).showArb

/-- MAINT_REQUEST (R632, R633, R635): the host's is a write of REC_MNTREQ, any other a message of the firmware. -/
def execMaintRequest (kind : Fin 8) (unit : Nat) (host : Bool) (s : State) : Res :=
  let r : MReq := { kind := kind, unit := unit % 1024, host := host }
  if host then s.regEvent REC_MNTREQ_KIND 0 0 (.maintRequest kind unit host) fun s => ok (s.mntAsk r)
  else s.outside rankSched (.maintRequest kind unit host) fun s => ok (s.mntAsk r)

/-- An activity ends: it is logged, and what it held up may be granted (R633). -/
def State.mntEnd (s : State) (kind unit : Nat) : State :=
  match s.arb.running.find? (fun r => r.kind == kind && r.unit == unit) with
  | none => s
  | some r =>
    let s1 := { s with arb := { s.arb with running := s.arb.running.erase r } }.logEntry 0x0502 schedUnit none kind unit
    (if r.host then s1.setFld REC_MNTSTAT_EVENT 0 0 1 else s1).arbStep

/-- MAINT_END (R633). -/
def execMaintEnd (kind : Fin 8) (unit : Nat) (s : State) : Res := ok (s.mntEnd kind unit)

/-- MAINT_DEFER_EXPIRY (R635): a request has waited for REC_MNTDEFER in lockstep. -/
def execMaintDeferExpiry (s : State) : Res :=
  if s.lockRun && !s.arb.queue.isEmpty then ok (s.lockAbort 9) else ok s

end Sys2Proof.Machine
end

