-- ==== Sys2Proof/Machine/Tenders.lean ====
section
/-! DEFINITION. Tender bays and the modules in them (chapter 10). The lanes of a bay carry protocol packets in order both ways: `BayS.toMod` and
`BayS.toDev`. -/

namespace Sys2Proof.Machine

/-- A bay's accesses that belong to network requests, not those of its own (IDENT, SEAL, MAINT). -/
def BayS.network (y : BayS) : List BayAcc := y.acc.filter (fun a => a.group != 0)

/-- Show how many accesses are held (TND_HELD). -/
def State.showHeld (s : State) (b : Nat) : State :=
  let st := s.bayState b
  s.setFld TND_HELD_COUNT b 0 (if st == 4 || st == 7 then (s.bay b).network.length else 0)

/-! ### Accesses and their tags (R400 to R405) -/

/-- The lowest tag that no access of a list holds. -/
def freeTag (acc : List BayAcc) : Option Nat := (List.range 1024).find? (fun t => !acc.any (fun a => a.req.tag == t))

/-- Whether `n` bytes at `a` meet the bay's journal region (R434). -/
def State.inJournal (s : State) (b a n : Nat) : Bool :=
  let base := s.fld TND_JRNBASE_BASE b * 64
  decide (base < a + n) && decide (a < base + s.fld TND_JRNLEN_LEN b * 65536)

/-- Whether a network request writes. -/
def Packet.isWrite (p : Packet) : Bool := p.vn != 0

/-- Module address of a network request. -/
def modAddr (p : Packet) : Nat := p.addr % 2 ^ 42

/-- Whether a request writes into the journal region. -/
def State.journalWrite (s : State) (b : Nat) (p : Packet) : Bool := p.isWrite && s.inJournal b (modAddr p) p.data.length

/-- Accesses sent to the module once they may be: in order of acceptance, but under a power-fail warning no READ, and WRITEs to the journal
region first (R434). -/
def State.sendUnsent (s : State) (b : Nat) : State :=
  let pfw := s.flag REC_STATUS_PFW 0
  let ready := (s.bay b).acc.filter (fun a => !a.sent && !(pfw && a.req.typ == 1))
  let first := fun (a : BayAcc) => pfw && a.req.typ == 2 && s.inJournal b a.req.addr a.req.len
  let order := ready.filter first ++ ready.filter (fun a => !first a)
  s.updBay b (fun y => { y with toMod := y.toMod ++ order.map (·.req),
                                acc := y.acc.map (fun a => if pfw && a.req.typ == 1 then a else { a with sent := true }) })

/-- Packets of the bay's own are sent as tags are free. An identity read, which alone is on the lanes in RECHECK, may take the tag of a held access. -/
def BayS.sendOwn (y : BayS) : BayS :=
  y.own.foldl (fun y x =>
    match freeTag (if x.1 == 3 then y.acc.filter (·.sent) else y.acc) with
    | none => y
    | some t =>
      let q : TPkt := { typ := x.1, tag := t, len := x.2.2.length, addr := x.2.1, data := x.2.2 }
      { y with acc := y.acc ++ [{ req := q, group := 0 }], toMod := y.toMod ++ [q], own := y.own.drop 1 }) y

/-- The bay sends a packet of its own, as soon as a tag is free. -/
def State.bayOwn (s : State) (b : Nat) (typ addr : Nat) (data : List Nat) : State :=
  s.updBay b (fun y => ({ y with own := y.own ++ [(typ, addr, data)] }).sendOwn)

/-- A range cut at 512-byte boundaries (R405); `fuel` bounds the pieces. -/
def cut512 : Nat → Nat → Nat → List (Nat × Nat)
  | 0, _, _ => []
  | fuel + 1, a, n => if n == 0 then [] else
      let m := min n (512 - a % 512)
      (a, m) :: cut512 fuel (a + m) (n - m)

/-- The module packets of a network request (R405): type, address and length. -/
def partsOf (p : Packet) : List (Nat × Nat × Nat) :=
  if p.isWrite then [(2, modAddr p, p.data.length)] else (cut512 4 (modAddr p) (p.len * 16)).map (fun x => (1, x.1, x.2))

/-- Bytes of the journal as it will stand after the writes accepted so far. -/
def State.mediaPeek (s : State) (b a n : Nat) : List Nat :=
  ((s.bay b).acc.filter (fun x => x.req.typ == 2)).foldl (fun bs x => overlayFrom x.req.addr x.req.data a bs) (memRead s.media (mediaKey b a) n)

/-- Copy a journal write of an ACTIVE context to the partner (R643, R644): whole 16-byte units, at most 256 bytes a record, in increasing offset
(log 31). Answers the records' links and numbers. -/
def State.mirrorJournal (s : State) (b : Nat) (p : Packet) : List (Nat × Nat) × State :=
  if s.mirroring && s.pairRole p.ctx == 1 && s.journalWrite b p then
    let base := s.fld TND_JRNBASE_BASE b * 64
    let top := base + s.fld TND_JRNLEN_LEN b * 65536
    let lo := max base (modAddr p)
    let u := coverUnits lo (min top (modAddr p + p.data.length) - lo)
    let bytes := overlayFrom (modAddr p) p.data u.1 (s.mediaPeek b u.1 u.2)
    (chunks 256 bytes).zipIdx.foldl (fun (acc : List (Nat × Nat) × State) (bs, i) =>
      let r := acc.2.mirrorSend b 5 p.ctx (u.1 - base + 256 * i) bs
      (acc.1 ++ [r.1], r.2)) ([], s)
  else ([], s)

/-- Accept a request: its accesses take tags, and are sent at once where `send` (R405, R420). -/
def State.acceptReq (s : State) (b : Nat) (p : Packet) (send : Bool) : State :=
  let m := s.mirrorJournal b p
  let id := (m.2.bay b).nextId + 1
  let parts := partsOf p
  let s1 := m.2.updBay b (fun y => { y with nextId := id, reqList := y.reqList ++ [{ id := id, pkt := p, left := parts.length, awaits := m.1 }] })
  let s2 := parts.zipIdx.foldl (fun (t : State) (x, i) =>
    let q : TPkt := { typ := x.1, tag := (freeTag (if send then (t.bay b).acc else (t.bay b).network)).getD 0, len := x.2.2, addr := x.2.1, data := if x.1 == 2 then p.data else [] }
    t.updBay b (fun y => { y with acc := y.acc ++ [{ req := q, group := id, part := i, sent := false }] })) s1
  if send then s2.sendUnsent b else s2.showHeld b

/-! ### Answers (R405, R406) -/

/-- Enter NEW. -/
def State.bayNew (s : State) (b : Nat) : State :=
  ((s.setFlds b 0 [(TND_STATE_STATE, 2), (TND_CTL_DETACH, 0), (TND_HELD_COUNT, 0)]).updBay b (fun y => { y with detaching := false })).bayEvent TND_EVENT_NEWMOD b

/-- A DETACH whose outstanding accesses have completed enters NEW (R424). -/
def State.settleDetach (s : State) (b : Nat) : State :=
  let y := s.bay b
  if y.detaching && (s.bayState b == 3 || s.bayState b == 5) && y.reqList.isEmpty then s.bayNew b else s

/-- Answer a network request with a tender status in AUX[3:0]; a status other than OK makes the response an uncorrectable error. A mirrored journal
record is applied with its acknowledgement instead, and leaves a gap without it (R646, R648), while the pair waits for it. -/
def State.bayAnswer (s : State) (b : Nat) (p : Packet) (st : Nat) (data : List Nat) : State :=
  if p.vn == 5 then
    if mget 0 s.pair.jrnBusy (p.src - 24) != p.tag + 1 then s
    else if st == 0 then s.appliedRecord (p.src - 24) p.tag
    else
      let s1 := s.bayError b p.ctx (modAddr p) true st
      { s1 with pair := { s1.pair with jrnBusy := mset 0 s1.pair.jrnBusy (p.src - 24) 0, dropping := mset 0 s1.pair.dropping (p.src - 24) 1 } }.pairGap
        p.src p.tag
  else
    let s1 := if st != 0 then s.bayError b p.ctx (modAddr p) p.isWrite st else s
    s1.inject (bayUnit b) { responseTo p (if p.isWrite then 1 else 0) 0 data with src := bayUnit b, aux := st, bad := st != 0 }

/-- Answer every request whose parts are all answered and whose journal records the partner has (R405, R647); with the last of them a DETACH ends (R424). -/
def State.answerReady (s : State) (b : Nat) : State :=
  let done := (s.bay b).reqList.filter (fun r => r.left == 0 && s.partnerHas r.awaits)
  let s1 := s.updBay b (fun y => { y with reqList := y.reqList.filter (fun r => !done.any (fun d => d.id == r.id)) })
  (done.foldl (fun t r => t.bayAnswer b r.pkt r.status (if r.pkt.isWrite || r.status != 0 then [] else (r.got.map (·.data)).flatten)) s1).settleDetach b

/-- Fail every access not yet answered (R421, R422, and FAILED). -/
def State.failAccesses (s : State) (b st : Nat) : State :=
  let open_ := (s.bay b).reqList.filter (fun r => decide (0 < r.left))
  let s1 := s.updBay b (fun y => { y with acc := [], own := [], toMod := [], toDev := [], reqList := y.reqList.filter (fun r => r.left == 0) })
  (open_.foldl (fun t r => t.bayAnswer b r.pkt st []) s1).setFld TND_HELD_COUNT b 0 0

/-- A piece of an access placed by its part. -/
def putPiece (i : Nat) (data : List Nat) (l : List Piece) : List Piece :=
  l.filter (fun g => decide (g.at_ < i)) ++ [⟨i, data⟩] ++ l.filter (fun g => decide (i < g.at_))

/-- An access is over, and its tag is free. -/
def State.dropAcc (s : State) (b : Nat) (a : BayAcc) : State := s.updBay b (fun y => ({ y with acc := y.acc.erase a }).sendOwn)

/-- One access has been answered. -/
def State.partDone (s : State) (b : Nat) (a : BayAcc) (st : Nat) (data : List Nat) : State :=
  ((s.dropAcc b a).updBay b (fun y => { y with reqList := y.reqList.map (fun r =>
    if r.id == a.group then { r with left := r.left - 1, status := if r.status != 0 then r.status else st, got := putPiece a.part data r.got } else r) })).answerReady b

/-! ### Bay states (R408 to R425) -/

/-- Enter FAILED (R402, R408, R418, R422). -/
def State.bayFails (s : State) (b : Nat) : State :=
  (((s.setFlds b 0 [(TND_STATE_STATE, 6), (TND_CTL_ATTACH, 0), (TND_CTL_DETACH, 0)]).updBay b (fun y =>
    { y with detaching := false, attachPending := false, lockWait := false })).failAccesses b 6).bayEvent TND_EVENT_FAILED b

/-- Raise a wear notice once since the module was attached (R412). -/
def State.notice (s : State) (b : Nat) (f : Fld) (cond : Bool) : State :=
  if cond && !(s.bay b).noticed.contains f.idx then (s.updBay b (fun y => { y with noticed := y.noticed ++ [f.idx] })).bayEvent f b else s

/-- Whether a module is attached. -/
def State.attached (s : State) (b : Nat) : Bool := s.bayState b == 3 || s.bayState b == 5

/-- Judge the wear notices of Table 10.8 of an attached module. -/
def State.judgeWear (s : State) (b : Nat) : State :=
  if !s.attached b then s
  else
    let last := (s.bay b).history.getLast?
    let used := match last with | some (u, _) => u | none => 0
    let s1 := s.notice b TND_EVENT_WEARRATE (decide (s.fld TND_WEARWARN_THRESH b < s.fld TND_WEAR_RATE b))
    let s2 := s1.notice b TND_EVENT_LIFE80 (decide (s.fld TND_LIFE_RATED b * 80 ≤ used))
    let low := match last with | some (_, sp) => decide (sp < 2000) | none => false
    let s3 := s2.notice b TND_EVENT_WORN low
    if low then s3.setFld TND_STATE_STATE b 0 5 else s3

/-- SPARE when USED stood 100 FMWE lower, or at the first summary known (R411, log 35). -/
def spareThen (used : Nat) (h : List (Nat × Nat)) : Nat :=
  match (h.filter (fun e => decide (e.1 + 10000 ≤ used))).getLast? with
  | some e => e.2
  | none => match h.head? with | some e => e.2 | none => 0

/-- Take a wear summary (R411). -/
def State.takeWear (s : State) (b used spare : Nat) : State :=
  let h := (s.bay b).history ++ [(used, spare)]
  ((s.updBay b (fun y => { y with history := h })).setFlds b 0 [(TND_WEAR_USED, used / 100), (TND_LIFE_SPARE, spare),
    (TND_WEAR_RATE, spareThen used h - spare)]).judgeWear b

/-- Whether the seal in an identity block is intact (R409). -/
def State.sealIntact (s : State) (b : Nat) (rcd : List Nat) : Bool :=
  crcGood rcd && leNat (rcd.take 8) == Config.serial % 2 ^ 64 && leNat ((rcd.drop 8).take 4) == s.fld TND_SEAL_ATTACHCNT b

/-- An identity block has been read, in IDENT or RECHECK (R408, R422). -/
def State.takeIdent (s : State) (b : Nat) (bs : List Nat) : State :=
  let at_ := fun o n => leNat ((bs.drop o).take n)
  let rcd := (bs.drop 0x10).take 16
  let cap := at_ 0x0A 2
  let good := crcGood bs && at_ 0x0E 2 == 1 && decide (1 ≤ cap) && decide (cap ≤ 4096)
  let st := s.bayState b
  if st != 1 && st != 7 then s
  else if !good then s.bayFails b
  else
    let same := at_ 0 8 == s.fld TND_ID_SERIAL b && s.sealIntact b rcd
    let s1 := (s.setFlds b 0 [(TND_ID_SERIAL, at_ 0 8), (TND_MAKE_MAKE, at_ 8 2), (TND_MAKE_CAPGIB, cap), (TND_LIFE_RATED, at_ 0x0C 2)]).updBay b (fun y =>
      { y with sealRec := if crcGood rcd then some (leNat (rcd.take 8), leNat ((rcd.drop 8).take 4)) else none, history := if same then y.history else [] })
    let wear := fun (t : State) => t.takeWear b (at_ 0x20 4) (at_ 0x24 4)
    if st == 1 then wear (s1.bayNew b)
    else if same then
      let t := (s1.setFlds b 0 [(TND_STATE_STATE, if at_ 0x24 4 < 2000 then 5 else 3), (TND_HELD_COUNT, 0)]).sendUnsent b
      ((wear t).bayEvent TND_EVENT_RESUMED b).settleDetach b
    else
      wear (((s1.failAccesses b 2).bayEvent TND_EVENT_SWAPPED b).bayNew b)

/-- The bay reads the identity block of a module that it sees (R419, R422). -/
def State.askIdent (s : State) (b : Nat) : State := s.bayOwn b 3 0 []

/-! ### Requests -/

/-- TENDER_REQUEST (R405, R419, R420, R434): the oldest delivered request, or under a power-fail warning the oldest journal write, then the
oldest write. It waits while the carriage is in S2 (R429), while all tags are out, and a journal write while the device is FENCED (R655). -/
def execTenderRequest (b : Fin 4) (s : State) : Res :=
  let y := s.bay b
  let st := s.bayState b
  let served := st == 3 || st == 5
  let allowed := y.inq.filter (fun p => !(s.fenced p.ctx && s.journalWrite b p))
  let pick := if s.flag REC_STATUS_PFW 0 && served then
      (match allowed.find? (s.journalWrite b) with | some p => some p | none => allowed.find? Packet.isWrite)
    else allowed.head?
  match pick with
  | none => ok s
  | some p =>
    if s.stoppedAt 8 b then ok s else
    let s1 := (s.updBay b (fun y => { y with inq := y.inq.erase p })).lockAbort 5
    let n := (partsOf p).length
    if st == 0 then ok (s1.bayAnswer b p 3 [])
    else if st == 1 || st == 2 || ((served || st == 4 || st == 7) && y.detaching) then ok (s1.bayAnswer b p 7 [])
    else if st == 6 then ok (s1.bayAnswer b p 6 [])
    else if served then (if 1024 < y.acc.length + n || 2 ≤ s.carState b then ok s else ok (s1.acceptReq b p true))
    else if 1024 < y.network.length + n then ok (s1.bayAnswer b p 3 [])
    else ok (s1.acceptReq b p false)

/-- The packet at the front of the lanes toward the device, when it is of a type. -/
def BayS.arrival (y : BayS) (typ : Nat) : Option (TPkt × List TPkt) :=
  match y.toDev with
  | p :: rest => if p.typ == typ then some (p, rest) else none
  | [] => none

/-- The access that an answer names by its tag. -/
def BayS.answered (y : BayS) (p : TPkt) : Option BayAcc := y.acc.find? (fun a => a.req.tag == p.tag && a.sent)

/-- TENDER_DATA (R401, R405): DATA answers a READ, the identity block or a wear summary; a packet that fails its CRC is dropped (R402). `flips` are the bits
that errors have inverted on the lanes. -/
def execTenderData (b : Fin 4) (flips : List Nat) (s : State) : Res :=
  match (s.bay b).arrival 8 with
  | none => ok s
  | some (p0, rest) =>
    let s1 := s.updBay b (fun y => { y with toDev := rest })
    match p0.received flips with
    | none => ok s1
    | some p =>
      match (s1.bay b).answered p with
      | none => ok s1
      | some a =>
        if a.req.typ == 1 then
          let s2 := if p.status == 0 then s1.wrapAdd TND_RDBYTES_BYTES b 0 p.len else s1
          ok (s2.partDone b a p.status p.data)
        else
          let s2 := s1.dropAcc b a
          if a.req.typ == 3 then ok (s2.takeIdent b p.data)
          else if a.req.typ == 5 && crcGood p.data then ok (s2.takeWear b (leNat (p.data.take 4)) (leNat ((p.data.drop 4).take 4)))
          else ok s2

/-- Whether an access starts a maintenance activity. -/
def BayAcc.startsMaint (a : BayAcc) : Bool := a.req.typ == 6 && a.req.addr != 3

/-- A maintenance activity ends (R417). A STOP still on its way keeps its tag until its own ACK. -/
def State.bayMaintEnd (s : State) (b : Nat) (media : Bool) : State :=
  let k := (s.bay b).maintKind
  if k == 0 then s
  else
    let s1 := s.updBay b (fun y => ({ y with maintKind := 0, acc := y.acc.filter (fun a => !a.startsMaint) }).sendOwn)
    let s2 := (s1.setFlds b 0 [(TND_MAINT_BUSY, 0), (TND_MAINT_STOP, 0)]).bayEvent TND_EVENT_MAINT b
    (if media then s2.setFld TND_MAINT_MEDIAERR b 0 1 else s2).mntEnd (k + 2) b

/-- The seal has been written: the module is attached (R409). -/
def State.bayAttached (s : State) (b cnt : Nat) : State :=
  ((s.setFlds b 0 [(TND_SEAL_ATTACHCNT, cnt), (TND_STATE_STATE, 3), (TND_CTL_ATTACH, 0)]).updBay b (fun y =>
    { y with attachPending := false, noticed := [], sealRec := some (Config.serial % 2 ^ 64, cnt) })).judgeWear b

/-- The module has acknowledged a MAINT packet (R417): the activity that it started has ended, or the one that it stopped, unless another has been started since. -/
def State.maintAck (s : State) (b : Nat) (a : BayAcc) (media : Bool) : State :=
  let later := ((s.bay b).acc.dropWhile (fun x => x != a)).any BayAcc.startsMaint
  let s1 := s.dropAcc b a
  if a.startsMaint || !later then s1.bayMaintEnd b media else s1

/-- TENDER_ACK (R401, R403): ACK answers a WRITE, SEAL or MAINT. -/
def execTenderAck (b : Fin 4) (flips : List Nat) (s : State) : Res :=
  match (s.bay b).arrival 9 with
  | none => ok s
  | some (p0, rest) =>
    let s1 := s.updBay b (fun y => { y with toDev := rest })
    match p0.received flips with
    | none => ok s1
    | some p =>
      match (s1.bay b).answered p with
      | none => ok s1
      | some a =>
        if a.req.typ == 2 then
          let s2 := if p.status == 0 then s1.wrapAdd TND_WRBYTES_BYTES b 0 a.req.len else s1
          ok (s2.partDone b a p.status [])
        else if a.req.typ == 6 then ok (s1.maintAck b a (p.status == 4))
        else
          let s2 := s1.dropAcc b a
          if (s2.bay b).attachPending && s2.bayState b == 2 then
            if p.status == 0 then ok (s2.bayAttached b (leNat ((a.req.data.drop 8).take 4)))
            else ok ((s2.setFld TND_CTL_ATTACH b 0 0).updBay b (fun y => { y with attachPending := false }))
          else ok s2

/-- TENDER_NOTICE (R401, R411, R412): an unsolicited wear summary. -/
def execTenderNotice (b : Fin 4) (flips : List Nat) (s : State) : Res :=
  match (s.bay b).arrival 10 with
  | none => ok s
  | some (p0, rest) =>
    let s1 := s.updBay b (fun y => { y with toDev := rest })
    match p0.received flips with
    | none => ok s1
    | some p => if crcGood p.data then ok (s1.takeWear b (leNat (p.data.take 4)) (leNat ((p.data.drop 4).take 4))) else ok s1

/-- TENDER_RESEND_TIMEOUT (R402): the access of a tag has had no answer for 1 ms and is sent again with the same tag; when three resends have gone unanswered,
the bay enters FAILED. The packet that starts a maintenance activity is answered when the activity ends, and TND_MAINT.LIMIT bounds it instead (R417). -/
def execTenderResendTimeout (b : Fin 4) (tag : Fin 1024) (s : State) : Res :=
  match (s.bay b).acc.find? (fun a => a.sent && a.req.tag == tag.val && !a.startsMaint) with
  | none => ok s
  | some a =>
    if 3 ≤ a.resends then ok (s.bayFails b)
    else ok (s.updBay b (fun y => { y with toMod := y.toMod ++ [a.req], acc := y.acc.map (fun x => if x == a then { x with resends := x.resends + 1 } else x) }))

/-! ### Presence (R418 to R422, R425) -/

/-- The module is gone: the lanes carry nothing, a maintenance activity ends without an answer, and the bay's own packets are dropped. -/
def State.bayRemoved (s : State) (b : Nat) : State :=
  let s1 := (s.setFld TND_STATE_PRSNT b 0 0).bayMaintEnd b false
  (s1.updBay b (fun y => { y with own := [], toMod := [], toDev := [], lockWait := false, attachPending := false, modl := { y.modl with present := false, maint := 0 },
                                  acc := y.network.map (fun a => { a with sent := false, resends := 0 }) })).setFld
    TND_CTL_ATTACH b 0 0

/-- A module is seated: the one last seated, as it left (`none`), or the one that `m` describes. The media of a module of the same serial identity stay, with what
`m` lists written over them; any other module brings what `m` lists (log 34). -/
def State.bayInserted (s : State) (b : Nat) (m : Option ModIn) : State :=
  let s1 := (s.setFld TND_STATE_PRSNT b 0 1).updBay b (fun y => { y with toMod := [], toDev := [], lockWait := false })
  match m with
  | none => s1.updMod b (fun x => { x with present := true })
  | some n =>
    let old := if n.serial == (s.bay b).modl.serial then s1.media else mdrop (fun k => k / 2 ^ 43 == b) s1.media
    { s1 with media := n.media.foldl (fun m (x : Nat × Byte) => memWrite m (mediaKey b x.1) [x.2.toNat]) old }.updMod b (fun _ =>
      { present := true, idOk := n.idOk, serial := n.serial, make := n.make, capGib := n.capGib, rated := n.rated, wear := { a := { gen := 1, val := [n.written, n.spare] } },
        sealed := { a := { gen := 1, ok := n.sealOk, val := [n.sealDev, n.sealCnt] } } })

/-- PRESENCE_SETTLED (R418 to R422, R425): the presence land has held a new level for 10 ms. -/
def execPresenceSettled (b : Fin 4) (present : Bool) (m : Option ModIn) (s : State) : Res :=
  let st := s.bayState b
  if present == s.flag TND_STATE_PRSNT b then ok s
  else if present then
    let s1 := s.bayInserted b m
    if st == 0 then ok ((s1.setFld TND_STATE_STATE b 0 1).askIdent b)
    else if st == 4 then ok (((s1.setFld TND_STATE_STATE b 0 7).askIdent b))
    else ok s1
  else
    let s1 := s.bayRemoved b
    if st == 3 || st == 5 then
      ok ((s1.setFld TND_STATE_STATE b 0 4).showHeld b |>.bayEvent TND_EVENT_REMOVED b)
    else if st == 7 then ok (((s1.setFld TND_STATE_STATE b 0 4).showHeld b).bayEvent TND_EVENT_REMOVED b)
    else if st == 4 then ok s1
    else ok (s1.setFld TND_STATE_STATE b 0 0)

/-- TENDER_LOCK_LOST (R418): all eight inbound lanes lose lock while presence holds. -/
def execTenderLockLost (b : Fin 4) (s : State) : Res :=
  let st := s.bayState b
  if s.flag TND_STATE_PRSNT b && st != 0 && st != 6 then ok (s.updBay b (fun y => { y with lockWait := true })) else ok s

/-- LOCK_LOSS_TIMEOUT (R418): no removal within 20 ms of the loss. -/
def execLockLossTimeout (b : Fin 4) (s : State) : Res := if (s.bay b).lockWait then ok (s.bayFails b) else ok s

/-- HOLD_RETRY_EXPIRY (R421, R425). -/
def execHoldRetryExpiry (b : Fin 4) (s : State) : Res :=
  if s.bayState b == 4 then
    ok ((((s.setFlds b 0 [(TND_STATE_STATE, 0), (TND_CTL_DETACH, 0)]).updBay b (fun y => { y with detaching := false })).failAccesses b 3).bayEvent
      TND_EVENT_EXPIRED b)
  else ok s

/-- RECHECK_TIMEOUT (R422): no decision within 1 s. -/
def execRecheckTimeout (b : Fin 4) (s : State) : Res := if s.bayState b == 7 then ok (s.bayFails b) else ok s

/-! ### Attach, detach and maintenance (R409, R415, R417, R423, R424) -/

/-- TENDER_ATTACH (R409, R423): in NEW, the bay writes a seal record with its own serial and ATTACHCNT + 1; the count of a record that does not
pass its CRC is a free value. -/
def execTenderAttach (b : Fin 4) (s : State) : Res := s.regEvent TND_CTL_ATTACH b 0 (.tenderAttach b) fun s =>
  if s.bayState b != 2 || (s.bay b).attachPending then ok s
  else
    let c := match (s.bay b).sealRec with | some (_, c) => (c, s) | none => s.draw 32
    let data := withCrc (leBytes 8 (Config.serial % 2 ^ 64) ++ leBytes 4 ((c.1 + 1) % 2 ^ 32)) true
    ok (((c.2.setFld TND_CTL_ATTACH b 0 1).bayOwn b 4 0 data).updBay b (fun y => { y with attachPending := true }))

/-- TENDER_DETACH (R423, R424): in ATTACHED or READONLY. -/
def execTenderDetach (b : Fin 4) (s : State) : Res := s.regEvent TND_CTL_DETACH b 0 (.tenderDetach b) fun s =>
  if s.attached b then ok (((s.setFld TND_CTL_DETACH b 0 1).updBay b (fun y => { y with detaching := true })).settleDetach b) else ok s

/-- TENDER_MAINT_START (R415). -/
def execTenderMaintStart (b : Fin 4) (s : State) : Res := s.regEvent TND_MAINT_START b 0 (.tenderMaintStart b) fun s =>
  let k := s.fld TND_MAINT_KIND b
  if !s.attached b || (k == 2 && s.bayState b == 5) || s.flag TND_MAINT_BUSY b || k == 0 || k == 3 then ok (s.setFld TND_MAINT_ERR b 0 1)
  else
    ok (((s.setFld TND_MAINT_BUSY b 0 1).bayOwn b 6 k []).updBay b (fun y => { y with maintKind := k }))

/-- The bay stops a running activity (R417). -/
def State.bayMaintStop (s : State) (b : Nat) : State :=
  if (s.bay b).maintKind == 0 then s else s.bayOwn b 6 3 []

/-- TENDER_MAINT_STOP (R417). -/
def execTenderMaintStop (b : Fin 4) (s : State) : Res := s.regEvent TND_MAINT_STOP b 0 (.tenderMaintStop b) fun s =>
  if s.flag TND_MAINT_BUSY b then ok ((s.setFld TND_MAINT_STOP b 0 1).bayMaintStop b) else ok s

/-- TENDER_MAINT_LIMIT (R417): TND_MAINT.LIMIT seconds have passed without the ACK. -/
def execTenderMaintLimit (b : Fin 4) (s : State) : Res := ok (s.bayMaintStop b)

/-! ### The module (R403, R404, R410, R413, R416) -/

/-- The packet at the front of the lanes toward the module, of one of some types; without a module nothing arrives. -/
def BayS.request (y : BayS) (typs : List Nat) : Option (TPkt × List TPkt) :=
  match y.toMod with
  | p :: rest => if y.modl.present && typs.contains p.typ then some (p, rest) else none
  | [] => none

/-- The module answers. -/
def State.modAnswer (s : State) (b typ : Nat) (p : TPkt) (st : Nat) (data : List Nat) : State :=
  s.updBay b (fun y => { y with toDev := y.toDev ++ [{ typ := typ, tag := p.tag, status := st, len := data.length, addr := p.addr, data := data }] })

/-- The packet at the front of the lanes toward the module leaves them: the module takes it, or discards it when its CRC fails (R402). -/
def State.modTakes (s : State) (b : Nat) (typs : List Nat) (flips : List Nat) : Option (Option TPkt × State) :=
  match (s.bay b).request typs with
  | none => none
  | some (p, rest) => some (p.received flips, s.updBay b (fun y => { y with toMod := rest }))

/-- A packet with this tag has reached the module: only the WRITE acknowledged last with the tag may come again as a resend (R404). -/
def State.noteTag (s : State) (b tag v : Nat) : State := s.updMod b (fun m => { m with acked := mset 0 m.acked tag v })

/-- MODULE_WRITE (R403, R404, R413): with SPARE below 2,000 the answer to a WRITE not yet acknowledged is WORN; else, and for a WRITE already acknowledged with
the same tag and address, the bytes are durable before the ACK. `media` says that the media failed, `worn` how much of the spare pool the write used, `torn` that the module
lost its power before it could acknowledge. -/
def execModuleWrite (b : Fin 4) (flips : List Nat) (media : Bool) (worn : Nat) (torn : Bool) (s : State) : Res :=
  match s.modTakes b [2] flips with
  | none => ok s
  | some (none, s1) => ok s1
  | some (some p, s1) =>
    let m := (s.bay b).modl
    let s2 := s1.noteTag b p.tag 0
    if decide (m.spare < 2000) && mget 0 m.acked p.tag != p.addr + 1 then ok (s2.modAnswer b 9 p 1 [])
    else if m.beyond p.addr p.len then ok (s2.modAnswer b 9 p 5 [])
    else if torn then ok ({ s2 with media := memWrite s2.media (mediaKey b p.addr) p.data }.modWear b p.len worn true)
    else if media then ok ((s2.modAnswer b 9 p 4 []).modWear b 0 worn)
    else ok ((({ s2 with media := memWrite s2.media (mediaKey b p.addr) p.data }.noteTag b p.tag (p.addr + 1)).modAnswer b 9 p 0 []).modWear b p.len worn)

/-- MODULE_READ (R403, R407): a READ, the identity block, or the wear summary. -/
def execModuleRead (b : Fin 4) (flips : List Nat) (media : Bool) (s : State) : Res :=
  match s.modTakes b [1, 3, 5] flips with
  | none => ok s
  | some (none, s1) => ok s1
  | some (some p, s0) =>
    let m := (s.bay b).modl
    let s1 := s0.noteTag b p.tag 0
    if p.typ == 3 then ok (s1.modAnswer b 8 p 0 m.identBytes)
    else if p.typ == 5 then ok (s1.modAnswer b 8 p 0 m.summaryBytes)
    else if m.beyond p.addr p.len then ok (s1.modAnswer b 8 p 5 [])
    else if media then ok (s1.modAnswer b 8 p 4 [])
    else ok (s1.modAnswer b 8 p 0 (memRead s.media (mediaKey b p.addr) p.len))

/-- MODULE_SEAL (R410): the seal record's table takes an update. A torn update, in which the module loses its power, leaves the other copy, and is not
acknowledged. -/
def execModuleSeal (b : Fin 4) (flips : List Nat) (torn : Bool) (s : State) : Res :=
  match s.modTakes b [4] flips with
  | none => ok s
  | some (none, s1) => ok s1
  | some (some p, s1) =>
    let s2 := (s1.noteTag b p.tag 0).updMod b (fun x =>
      { x with sealed := x.sealed.put [leNat (p.data.take 8), leNat ((p.data.drop 8).take 4)] (torn || !crcGood p.data), present := x.present && !torn })
    ok (if torn then s2 else s2.modAnswer b 9 p 0 [])

/-- MODULE_MAINT (R416, R417): a MAINT packet starts or stops an activity; with none at the module, a running activity goes on, and ends with `ended`. What it has
moved and worn since the command before counts in each case; `torn` says that the module lost its power in the update of its tables. -/
def execModuleMaint (b : Fin 4) (flips : List Nat) (media : Bool) (moved worn : Nat) (ended torn : Bool) (s : State) : Res :=
  let m := (s.bay b).modl
  let wear := fun (t : State) => if m.maint == 0 then t else t.modWear b moved worn torn
  match s.modTakes b [6] flips with
  | some (none, s1) => ok s1
  | some (some p, s0) =>
    let s1 := s0.noteTag b p.tag 0
    if p.addr % 4 == 3 then
      let s2 := (wear s1).updMod b (fun x => { x with maint := 0 })
      ok (if torn && m.maint != 0 then s2 else s2.modAnswer b 9 p 0 [])
    else ok (s1.updMod b (fun x => { x with maint := p.addr % 4, maintTag := p.tag }))
  | none =>
    if !m.present || m.maint == 0 then ok s
    else
      let s1 := wear s
      if !ended || torn then ok s1
      else ok ((s1.updMod b (fun x => { x with maint := 0 })).modAnswer b 9 { typ := 6, tag := m.maintTag } (if media && m.maint == 1 then 4 else 0) [])

/-! ### Resets and power states (R427, R429) -/

/-- R427, R636: chip reset begins: a maintenance activity stops, held accesses are discarded and held writes fail with ABSENT, writes already sent are completed, and reads
outstanding are discarded: their tags stay taken until their answers arrive. -/
def State.bayChipReset (s : State) (b : Nat) : State :=
  let s1 := s.bayMaintStop b
  let held := s1.bayState b == 4 || s1.bayState b == 7
  if held then
    let ws := (s1.bay b).reqList.filter (fun r => r.pkt.isWrite)
    ((ws.foldl (fun t r => t.bayAnswer b r.pkt 3 []) (s1.updBay b (fun y =>
      { y with inq := [], reqList := [], acc := y.acc.filter (fun a => a.group == 0) }))).showHeld b).settleDetach b
  else
    (s1.updBay b (fun y => { y with inq := [], reqList := y.reqList.filter (fun r => r.pkt.isWrite), acc := y.acc.filter (·.sent) })).settleDetach b

/-- R429: the return to S0: a bay with a module present enters RECHECK with an empty hold queue, one without enters EMPTY. Accesses that have waited through S2 still wait. -/
def State.bayWake (s : State) (b : Nat) : State :=
  let s1 := s.updBay b (fun y => { y with acc := [], own := [], reqList := [], toMod := [], toDev := [], detaching := false, attachPending := false, lockWait := false })
  let s2 := s1.setFlds b 0 [(TND_HELD_COUNT, 0), (TND_CTL_ATTACH, 0), (TND_CTL_DETACH, 0)]
  if (s2.bay b).modl.present then (s2.setFlds b 0 [(TND_STATE_STATE, 7), (TND_STATE_PRSNT, 1)]).askIdent b
  else s2.setFlds b 0 [(TND_STATE_STATE, 0), (TND_STATE_PRSNT, 0)]

end Sys2Proof.Machine
end

