-- ==== Sys2Proof/Machine/Power.lean ====
section
/-! DEFINITION. Power states, clocks and supplies (R573 to R596): coach gating, entry to and wake from S1 to S3, profiles, throttling, latched pads. -/

namespace Sys2Proof.Machine

/-! ### Events, clocks and coaches -/

/-- Set PWR_STATUS.EVENT and raise its vector. -/
def State.pwrEvent (s : State) : State := (s.setFld PWR_STATUS_EVENT 0 0 1).raise none (s.fld PWR_CFG_PORT 0) (s.fld PWR_CFG_VEC 0)

/-- The carriages of a mask. -/
def maskCars (mask : Nat) : List Nat := (List.range 4).filter (fun c => bitsOf mask c 1 == 1)

/-- The field of CLK_STATUS that shows a carriage's PLLs. -/
def lockFld (c : Nat) : Fld :=
  match c with
  | 0 => CLK_STATUS_LOCK0
  | 1 => CLK_STATUS_LOCK1
  | 2 => CLK_STATUS_LOCK2
  | _ => CLK_STATUS_LOCK3

/-- Coach clock of a profile in MHz (Table 15.6). -/
def profMhz (sel : Nat) : Nat := match sel with | 0 => 1250 | 1 => 1400 | _ => 1000

/-- Core voltage of a profile in units of 10 mV (Table 15.6). -/
def State.profVolt (s : State) (sel : Nat) : Nat := match sel with | 0 => 75 | 1 => 82 | 2 => 65 | _ => s.fld PWR_PROFILE_STEPV 0

/-- Show the coach clock in force, and whether it is below the profile's (PWR_THRCTL.ACTIVE). -/
def State.setMhz (s : State) (m : Nat) : State := s.setFlds 0 0 [(CLK_COACHF_MHZ, m), (PWR_THRCTL_ACTIVE, b2n (m != 0 && decide (m < profMhz s.pwr.inForce)))]

/-- Every idle coach of a carriage gates its clock. -/
def State.gateCar (s : State) (c : Nat) : State :=
  (List.range 24).foldl (fun t k => if t.fld COA_STATE_STATE (c * 24 + k) < 2 then t.setFld COA_STATE_STATE (c * 24 + k) 0 6 else t) s

/-- Whether a packet waits at a coach's network port (R575). -/
def State.packetWaits (s : State) (k : Nat) : Bool := !(mget [] s.net.ports (carOf k * 64 + k % 24)).isEmpty

/-- COACH_GATE (R575, R579, R309): a coach that has been IDLE or UNBOUND long enough gates its clock; in a carriage in S1 it gates at once. -/
def execCoachGate (k : Coach) (s : State) : Res :=
  let idle := s.fld PWR_GATE_IDLE 0
  let st := s.carState (carOf k)
  if 2 ≤ s.fld COA_STATE_STATE k || s.packetWaits k || s.lockRun then ok s
  else if st == 1 || (st == 0 && idle != 0 && decide (idle ≤ s.coachCycles - (s.coach k).idleFrom)) then ok (s.setFld COA_STATE_STATE k 0 6)
  else ok s

/-- COACH_UNGATE (R575): a packet waits for a gated coach. One that stands for a power state stays (Table 15.2, order 3). -/
def execCoachUngate (k : Coach) (s : State) : Res :=
  if s.packetWaits k && !s.stoppedAt 3 (carOf k) then ok (s.ungate k) else ok s

/-- PLL_LOCK (R574, R585): a PLL of a carriage that starts or wakes locks once no voltage change is awaited, and a control PLL while the device is not in
S3. A carriage that starts is in RUN when its rails are up and all its PLLs have locked. -/
def execPllLock (p : Pll) (s : State) : Res :=
  match p with
  | .ctl d => if s.pwr.s3 || s.pm.inPor then ok s else ok (s.setFld CLK_STATUS_CTL 0 0 (s.fld CLK_STATUS_CTL 0 ||| 2 ^ d.val))
  | .car c q =>
    let st := s.carState c
    if s.pm.rails != 6 || s.pm.tripped || s.pwr.avs.any (fun a => a.car == c.val) || !(st == 4 || (st == 2 && bitsOf s.pwr.waking c 1 == 1)) then ok s
    else
      let v := s.fld (lockFld c) 0 ||| 2 ^ q.val
      let s1 := s.setFld (lockFld c) 0 0 v
      if v == 15 && st == 4 then
        let s2 := s1.setCarState c 0
        ok (if s2.fld CLK_COACHF_MHZ 0 == 0 then s2.setMhz (profMhz s2.pwr.inForce) else s2)
      else ok s1

/-! ### Entry, first phase (R578, R580, R582, R583) -/

/-- The blocks asked for a state, in order (R580). -/
def askOrder (st mask : Nat) : List (Nat × Nat) :=
  [(1, 0)] ++ (if st == 3 then [(2, 0)] else []) ++
    ((maskCars mask).map (fun c => (if st == 1 then [3] else [3, 4, 5, 6, 7, 8, 9, 10, 11]).map (fun o => (o, c)))).flatten

/-- The next block to answer. -/
def State.nextBlock (s : State) : Option (Nat × Nat) :=
  match s.pwr.entry with
  | none => none
  | some (st, mask) => (askOrder st mask).find? (fun b => !s.pwr.stopped.contains b)

/-- What a block answers: it has not answered yet, agrees, or refuses with a reason. -/
inductive Answer where
  | notYet
  | agrees
  | refuses (reason : Nat)
deriving DecidableEq, Repr

/-- Whether flits of a carriage are on wires or in router queues. -/
def State.flitsInFlight (s : State) (c : Nat) : Bool :=
  s.net.wires.any (fun e => e.1 / 1024 == c) || s.net.queues.any (fun e => e.1 / 32 / 1024 == c)

/-- Links of a carriage, the coupler's among them (R41, R42). -/
def linksOf (c : Nat) : List Nat := (List.range 6).map (c * 6 + ·) ++ [24 + c / 2]

/-- Table 15.2: what block `o` of carriage `c` answers now. `wfi` are the harts that wait for an interrupt. -/
def State.blockAnswers (s : State) (wfi o c : Nat) : Answer :=
  let refuseIf := fun (bad : Bool) (r : Nat) => if bad then Answer.refuses r else Answer.agrees
  match o with
  | 1 =>
    if s.fld DEV_LSSTAT_STATE 0 == 1 || s.lockRun then .refuses 2 else if s.flag REC_STATUS_PFW 0 then .refuses 3
    else refuseIf (s.flag PWR_STATUS_PROFBUSY 0) 4
  | 2 => refuseIf (s.ctxs.any (fun e => e.2.state != 0)) 5
  | 3 => refuseIf ((List.range 24).any (fun k => let st := s.fld COA_STATE_STATE (c * 24 + k); !(decide (st < 2) || st == 6))) 1
  | 4 => refuseIf ((List.range 64).any (fun h => s.flag DMA_STATUS_ACTIVE c h)) 1
  | 5 => refuseIf (!(s.fabS c).owed.isEmpty || !(s.fabS c).sendQ.isEmpty) 1
  | 6 => refuseIf ((List.range 4).any (fun i => s.flag HCL_CTL_RUN c i && bitsOf wfi i 1 == 0)) 1
  | 7 => refuseIf (s.arb.running.any (fun r => r.cars.contains c)) 6
  | 8 => refuseIf (s.bayState c == 4 || s.bayState c == 7 || !(s.bay c).acc.isEmpty || !(s.bay c).reqList.isEmpty) 1
  | 9 =>
    if (linksOf c).any (fun l => s.linkExists l && (s.lkFld LNK_STATE_STATE l == 1 || s.lkFld LNK_STATE_STATE l == 2)) then .refuses 7
    else refuseIf (s.pairMode != 0 && s.linkUp (24 + c / 2)) 8
  | 10 =>
    let ns := [2 * c, 2 * c + 1]
    if ns.any (fun n => s.hfld HBM_CTL_MODE n != 2 || s.hfld HBM_STATUS_FCBUSY n != 0) then .refuses 1
    else if ns.all (fun n => (s.hbmCtl n).drained) then .agrees else .notYet
  | _ => if s.flitsInFlight c then .notYet else .agrees

/-- R582: a block refuses: the blocks that have stopped restart, and the refusal is recorded. -/
def State.pwrRefuse (s : State) (o reason c : Nat) : State :=
  match s.pwr.entry with
  | none => s
  | some (_, mask) =>
    let mine := fun (b : Nat × Nat) => b.1 < 3 || (maskCars mask).contains b.2
    let back := s.pwr.stopped.filter (fun b => b.1 == 3 && mine b)
    let s1 := { s with pwr := { s.pwr with entry := none, stopped := s.pwr.stopped.filter (fun b => !mine b) } }
    let s2 := back.foldl (fun t b => t.ungateCar b.2) s1
    (((s2.setFlds 0 0 [(PWR_STATUS_REFUSER, o), (PWR_STATUS_REASON, reason), (PWR_STATUS_CARRIAGE, c), (PWR_STATUS_REFUSED, 1), (PWR_STATUS_PHASE, 0)]).pwrEvent)).arbStep

/-! ### Entry, second phase (R581) -/

/-- Latch every pad of a carriage at its level and output enable (R501). -/
def State.latchPads (s : State) (c : Nat) : State :=
  (List.range 24).foldl (fun t n => t.setFld IOB_PIN_HELD c n 1) (s.updFab c (fun f => { f with latched := (List.range 24).foldl (fun m n => mupd 0 m n (fun v => v % 2 + 2)) f.latched }))

/-- S2 in one carriage: stacks in self-refresh, pads latched, fast PLLs stopped, core rail at 0.55 V. -/
def State.napCar (s : State) (c : Nat) : State :=
  let s1 := [2 * c, 2 * c + 1].foldl (fun t n => t.selfRefresh n) (s.latchPads c)
  let s2 := (List.range 8).foldl (fun t n => t.setFld FAB_CLKCFG_RUNNING c n 0) s1
  ((s2.setFld (lockFld c) 0 0 0).emit (.avs c 550)).setCarState c 2

/-- The device's coach clock shows 0 once no carriage's coach PLL runs. -/
def State.stopShown (s : State) : State := if (List.range 4).any (fun c => s.carState c < 2) then s else s.setMhz 0

/-- Names of the switched rails in the order in which they rise (Table 19.3, step 6). -/
def railNames : List String := ["HBM_VPP", "HBM_VDDC", "HBM_VDDQ", "VDDH_LN", "VDDA_LN", "VDD_CORE"]

/-- The rails that are up turn off in reverse order (R691): carriages are OFF, fast clocks stop, HBM contents are lost (R396). -/
def State.railsOff (s : State) : State :=
  let s1 := ((List.range s.pm.rails).reverse).foldl (fun t i => t.emit (.rail i false)) s
  let s2 := (List.range 4).foldl (fun t c => (t.setFld (lockFld c) 0 0 0).setCarState c 4) s1
  { s2 with hbm := {}, pm := { s2.pm with rails := 0, tries := 0, raising := false } }.setMhz 0

/-- The second phase, which cannot be refused (R581). -/
def State.secondPhase (s : State) (st mask : Nat) : State :=
  let cars := maskCars mask
  let keep := fun (b : Nat × Nat) => decide (3 ≤ b.1) && !(st == 1 && cars.contains b.2)
  let s0 := { s with pwr := { s.pwr with entry := none, stopped := s.pwr.stopped.filter keep } }
  let s1 := if st == 1 then cars.foldl (fun t c => t.setCarState c 1) s0 else (cars.foldl (fun t c => t.napCar c) s0).stopShown
  let s2 := if st == 3 then
      let keepP := s1.fld PWR_CFG_KEEPPORT 0
      let s3 := (s1.railsOff).setFld CLK_STATUS_CTL 0 0 0
      { s3 with pwr := { s3.pwr with s3 := true },
                ports := (List.range 4).foldl (fun m p => if p == keepP then m else mupd {} m p (fun q => { up := q.up })) s3.ports }
    else s1
  (s2.setFld PWR_STATUS_PHASE 0 0 0).pwrEvent

/-! ### The commands (R578, R580) -/

/-- A power command that does not apply (R578). -/
def State.cmdIgnored (s : State) : State := s.setFld PWR_STATUS_CMDIGN 0 0 1

/-- A command for S1, S2 or S3 (R578, R580): the first phase begins when every carriage concerned is in S0. One entry runs at a time (log 47). -/
def State.pwrEnter (s : State) (st mask : Nat) : State :=
  if s.pwr.entry.isSome || (maskCars mask).isEmpty || (maskCars mask).any (fun c => s.carState c != 0) then s.cmdIgnored
  else { s with pwr := { s.pwr with entry := some (st, mask) } }.setFld PWR_STATUS_PHASE 0 0 1

/-- POWER_CMD_S1. -/
def execPowerCmdS1 (mask : BitVec 4) (s : State) : Res := s.regEvent PWR_CMD_STATE 0 0 (.powerCmdS1 mask) fun s => ok (s.pwrEnter 1 mask.toNat)
/-- POWER_CMD_S2. -/
def execPowerCmdS2 (mask : BitVec 4) (s : State) : Res := s.regEvent PWR_CMD_STATE 0 0 (.powerCmdS2 mask) fun s => ok (s.pwrEnter 2 mask.toNat)
/-- POWER_CMD_S3. -/
def execPowerCmdS3 (s : State) : Res := s.regEvent PWR_CMD_STATE 0 0 .powerCmdS3 fun s => ok (s.pwrEnter 3 15)

/-- POWER_BLOCK_ANSWER (R580 to R582): the block asked answers; HCL_CTL.WFI shows what its harts do. With the last agreement the second phase runs. -/
def execPowerBlockAnswer (wfi : BitVec 4) (s : State) : Res :=
  match s.pwr.entry, s.nextBlock with
  | some (st, mask), some (o, c) =>
    let s1 := if o == 6 then (List.range 4).foldl (fun t i => t.setFlag HCL_CTL_WFI c i (s.flag HCL_CTL_RUN c i && wfi.getLsbD i)) s else s
    match s1.blockAnswers wfi.toNat o c with
    | .notYet => ok s1
    | .refuses r => ok (s1.pwrRefuse o r c)
    | .agrees =>
      let s2 := { s1 with pwr := { s1.pwr with stopped := s1.pwr.stopped ++ [(o, c)] } }
      let s3 := if o == 3 then s2.gateCar c else s2
      ok (if s3.nextBlock.isNone then s3.secondPhase st mask else s3)
  | _, _ => ok s

/-- POWER_BLOCK_TIMEOUT (R580). -/
def execPowerBlockTimeout (s : State) : Res :=
  match s.nextBlock with
  | some (o, c) => ok (s.pwrRefuse o 9 c)
  | none => ok s

/-! ### Waking (R584 to R586) -/

/-- Start a core-voltage change (R588, R589). -/
def State.avsWrite (s : State) (c target former : Nat) : State :=
  { s with pwr := { s.pwr with avs := s.pwr.avs.filter (fun (a : AvsChg) => a.car != c) ++ [({ car := c, target := target, former := former } : AvsChg)] } }.emit (.avs c (10 * target))

/-- The wake from S3 begins (R586, R692): rails rise again, HBM_VPP first; the state lost in S3 takes its reset values when the rails are up. -/
def State.wakeS3 (s : State) : State :=
  if s.pm.raising || s.pm.dead then s
  else ({ s with pm := { s.pm with raising := true, tries := 0 } }.emit (.rail 0 true)).setFld PWR_STATUS_PHASE 0 0 3

/-- Wake carriages from S1 and S2 (R584, R585). -/
def State.wakeCars (s : State) (cars : List Nat) : State :=
  let s1cars := cars.filter (fun c => s.carState c == 1)
  let s2cars := cars.filter (fun c => s.carState c == 2 && bitsOf s.pwr.waking c 1 == 0)
  let t1 := s1cars.foldl (fun t c => (t.ungateCar c).setCarState c 0) s
  let t2 := if s1cars.isEmpty then t1 else t1.pwrEvent
  let t3 := s2cars.foldl (fun t c => { t with pwr := { t.pwr with waking := t.pwr.waking + 2 ^ c } }.avsWrite c t.pwr.volt 55) t2
  if s2cars.isEmpty then t3 else t3.setFld PWR_STATUS_PHASE 0 0 3

/-- POWER_CMD_S0 (R578, R583, R584): during an entry it is the host's refusal. -/
def execPowerCmdS0 (mask : BitVec 4) (s : State) : Res := s.regEvent PWR_CMD_STATE 0 0 (.powerCmdS0 mask) fun s =>
  if s.pwr.entry.isSome then ok (s.pwrRefuse 0 10 0)
  else if s.pwr.s3 then ok (if mask == 0 then s.cmdIgnored else s.wakeS3)
  else
    let cars := (maskCars mask.toNat).filter (fun c => s.carState c == 1 || s.carState c == 2)
    if cars.isEmpty then ok s.cmdIgnored else ok (s.wakeCars cars)

/-- WAKE_N_ASSERT (R584): every carriage that is not in S0 wakes. -/
def execWakeNAssert (s : State) : Res := if s.pwr.s3 then ok s.wakeS3 else ok (s.wakeCars (List.range 4))

/-- A carriage's wake from S2 ends (Table 15.3, steps 4 to 7): links named in `down` are lost. -/
def State.wokenCar (s : State) (down : List (Fin 26)) (c : Nat) : State :=
  let s1 := [2 * c, 2 * c + 1].foldl (fun t n => if t.hfld HBM_CTL_MODE n == 3 then t else t.updHbm n HbmS.exitSelfRefresh) s
  let s2 := (List.range 8).foldl (fun t n => t.setFld FAB_CLKCFG_RUNNING c n (t.fld FAB_CLKCFG_EN c n)) s1
  let s3 := (down.filter (fun l => (linkHome l.val).1 == c && s2.linkUp l.val)).foldl (fun t l => t.linkDown l.val 3) s2
  let s4 := { (s3.bayWake c) with pwr := { s3.pwr with stopped := s3.pwr.stopped.filter (fun b => b.2 != c), waking := s3.pwr.waking - 2 ^ c } }
  (s4.ungateCar c).setCarState c 0

/-- WAKE_COMPLETE (R585): every carriage that wakes, whose voltage is acknowledged and whose PLLs have locked, is in RUN. User pads stay latched (R587). -/
def execWakeComplete (down : List (Fin 26)) (s : State) : Res :=
  let ready := (maskCars s.pwr.waking).filter (fun c => s.fld (lockFld c) 0 == 15 && !s.pwr.avs.any (fun a => a.car == c))
  if ready.isEmpty then ok s
  else
    let s1 := ready.foldl (fun t c => t.wokenCar down c) s
    let s2 := if s1.fld CLK_COACHF_MHZ 0 == 0 && s1.pwr.goal.isNone then s1.setMhz (profMhz s1.pwr.inForce) else s1
    ok (((if s2.pwr.waking == 0 then s2.setFld PWR_STATUS_PHASE 0 0 0 else s2).pwrEvent).arbStep)

/-- PAD_RELEASE (R587): the latched pads of the named carriages in RUN follow the fabric. -/
def execPadRelease (mask : BitVec 4) (s : State) : Res := s.regEvent PWR_PADREL_CAR 0 0 (.padRelease mask) fun s =>
  ok (((maskCars mask.toNat).filter (fun c => s.carState c == 0)).foldl (fun t c =>
    let t1 := t.updFab c (fun f => { f with latched := mmap 0 (fun v => v % 2) f.latched })
    ((List.range 24).foldl (fun t n => if mget 0 (t1.fabS c).latched n == 0 then t.setFld IOB_PIN_HELD c n 0 else t) t1).driveAll c) s)

/-! ### Profiles and supplies (R589, R590, R593) -/

/-- Carriages whose core voltage follows the profile. -/
def State.profCars (s : State) : List Nat :=
  (List.range 4).filter (fun c => let st := s.carState c; st == 0 || st == 1 || st == 3 || bitsOf s.pwr.waking c 1 == 1)

/-- The coach PLLs relock: their clocks stop (R593). -/
def State.relock (s : State) : State :=
  ((List.range 4).foldl (fun t c => t.setFld (lockFld c) 0 0 (t.fld (lockFld c) 0 / 2 * 2)) s).setMhz 0

/-- A profile change begins (R589, R593): a higher voltage comes first, else the clock. -/
def State.profBegin (s : State) (sel : Nat) : State :=
  let s1 := { s.setFlds 0 0 [(PWR_PROFILE_SEL, sel), (PWR_STATUS_PROFBUSY, 1)] with pwr := { s.pwr with goal := some sel } }
  let v := s1.profVolt sel
  if s.pwr.volt < v && !s.profCars.isEmpty then s.profCars.foldl (fun t c => t.avsWrite c v s.pwr.volt) s1 else s1.relock

/-- A profile change ends, and a held write is applied (R593). -/
def State.profEnd (s : State) : State :=
  let s1 := { s.setFld PWR_STATUS_PROFBUSY 0 0 0 with pwr := { s.pwr with goal := none, held := none } }
  match s.pwr.held with
  | some h => if h == s.fld PWR_PROFILE_SEL 0 then s1 else s1.profBegin h
  | none => s1

/-- PROFILE_WRITE (R593): a new value of SEL changes the profile; during a change it is held. Lockstep aborts with PROFILE. -/
def execProfileWrite (sel : Fin 4) (s : State) : Res := s.regEvent PWR_PROFILE_SEL 0 0 (.profileWrite sel) fun s =>
  if s.pwr.goal.isSome then ok { s with pwr := { s.pwr with held := some sel.val } }
  else if s.fld PWR_PROFILE_SEL 0 == sel.val then ok s
  else ok ((s.lockAbort 2).profBegin sel)

/-- PROFILE_CHANGE_DONE (R593): the coach PLLs have relocked; a lower voltage follows the clock (R589). -/
def execProfileChangeDone (s : State) : Res :=
  match s.pwr.goal with
  | none => ok s
  | some g =>
    if !s.pwr.avs.isEmpty || s.fld CLK_COACHF_MHZ 0 != 0 then ok s
    else
      let v := s.profVolt g
      let s1 := { s with pwr := { s.pwr with inForce := g, volt := v } }
      let s2 := (List.range 4).foldl (fun t c => if t.carState c < 2 || t.carState c == 3 then t.setFld (lockFld c) 0 0 (t.fld (lockFld c) 0 / 2 * 2 + 1) else t) s1
      let s3 := s2.setMhz (if s.pwr.hot then 800 else profMhz g)
      ok (if v < s.pwr.volt && !s.profCars.isEmpty then s.profCars.foldl (fun t c => t.avsWrite c v s.pwr.volt) s3 else s3.profEnd)

/-- What follows when no voltage change is awaited any more: a raised profile relocks, a lowered one ends. -/
def State.avsDone (s : State) : State :=
  if !s.pwr.avs.isEmpty then s
  else match s.pwr.goal with
    | none => s
    | some g => if s.pwr.inForce == g then s.profEnd else if s.fld CLK_COACHF_MHZ 0 == 0 then s else s.relock

/-- AVS_ACK (R588, R589). -/
def execAvsAck (c : Car) (s : State) : Res :=
  if s.pwr.avs.any (fun a => a.car == c.val) then
    ok { s with pwr := { s.pwr with avs := s.pwr.avs.filter (fun a => a.car != c.val) } }.avsDone
  else ok s

/-- AVS_TIMEOUT (R590): the voltage is written once more; then the change fails, the former voltage is written back, and clocks stay as they are. A failed
profile change leaves SEL as written (log 46). -/
def execAvsTimeout (c : Car) (s : State) : Res :=
  match s.pwr.avs.find? (fun a => a.car == c.val) with
  | none => ok s
  | some a =>
    if !a.again then
      ok ({ s with pwr := { s.pwr with avs := s.pwr.avs.map (fun (x : AvsChg) => if x.car == c.val then { x with again := true } else x) } }.emit (.avs c (10 * a.target)))
    else
      let s1 := (s.setFlds 0 0 [(PWR_STATUS_REASON, 12), (PWR_STATUS_CARRIAGE, c)]).pwrEvent
      if s.carState c == 2 && bitsOf s.pwr.waking c 1 == 1 then
        let s2 := { s1 with pwr := { s1.pwr with avs := s1.pwr.avs.filter (fun x => x.car != c.val), waking := s1.pwr.waking - 2 ^ c.val } }.emit (.avs c (10 * a.former))
        ok (if s2.pwr.waking == 0 then s2.setFld PWR_STATUS_PHASE 0 0 0 else s2).avsDone
      else
        let back := s.pwr.avs.filter (fun x => s.carState x.car != 2)
        let s2 := s.profCars.foldl (fun t d => t.emit (.avs d (10 * a.former))) { s1 with pwr := { s1.pwr with avs := s1.pwr.avs.filter (fun x => !back.contains x), volt := a.former } }
        ok s2.profEnd

/-! ### Throttling (R594 to R596) -/

/-- THROTTLE_STEP (R594, R595): the measurements are shown, and the coach clock takes one step of 50 MHz down or up. A running lockstep never continues at another
clock (R313). -/
def execThrottleStep (watts : BitVec 16) (tmax : BitVec 8) (s : State) : Res :=
  let s1 := s.setFlds 0 0 [(PWR_MEAS_WATTS, watts.toNat), (PWR_MEAS_TMAX, tmax.toNat)]
  let m := s1.fld CLK_COACHF_MHZ 0
  let lim := s1.fld PWR_PLIM_WATTS 0
  let ts := s1.fld PWR_THRCTL_TSOFT 0
  let hot := s1.pwr.hot && decide (100 ≤ tmax.toNat)
  let s2 := { s1 with pwr := { s1.pwr with hot := hot } }
  if m == 0 || s1.pwr.goal.isSome then ok s2
  else if s1.flag PWR_THRCTL_EN 0 && s1.pwr.inForce != 3 && (decide (lim < watts.toNat) || decide (ts < tmax.toNat)) then
    if 800 < m then ok ((s2.lockAbort 3).setMhz (max 800 (m - 50))) else ok s2
  else if m < profMhz s1.pwr.inForce && !hot && decide (100 * watts.toNat < 95 * lim) && decide (tmax.toNat + 3 ≤ ts) then
    ok ((s2.lockAbort 3).setMhz (min (profMhz s1.pwr.inForce) (m + 50)))
  else ok s2

/-- HARD_THROTTLE (R595). -/
def execHardThrottle (sensor : Nat) (temp : BitVec 8) (s : State) : Res :=
  if temp.toNat < 105 then ok s
  else
    let s1 := { s with pwr := { s.pwr with hot := true } }
    let s2 := ((s1.setFlds 0 0 [(PWR_THRCTL_HARD, 1), (PWR_MEAS_TMAX, temp.toNat)]).lockAbort 3).logEntry 0x0305 0x61 none sensor temp.toNat
    ok (if s2.fld CLK_COACHF_MHZ 0 == 0 then s2 else s2.setMhz 800)

/-- THERMTRIP (R596): every fast clock stops, THERMTRIP_N goes low until POR_N acts. -/
def execThermtrip (sensor : Nat) (temp : BitVec 8) (s : State) : Res :=
  if temp.toNat < 115 then ok s
  else
    let s1 := (s.logEntry 0x0304 0x61 none sensor temp.toNat).emit (.pin "THERMTRIP_N" 0)
    let s2 := (List.range 4).foldl (fun t c => t.setFld (lockFld c) 0 0 0) { s1 with pm := { s1.pm with tripped := true } }
    ok (((s2.setFld PWR_MEAS_TMAX 0 0 temp.toNat).setFld CLK_STATUS_CTL 0 0 0).setMhz 0)

end Sys2Proof.Machine
end

