-- ==== Sys2Proof/Machine/Recovery.lean ====
section
/-! DEFINITION. Faults and recovery (R597 to R625): fault reports, the recovery ladder, hang samples, chip reset, heartbeats, the power-fail warning. -/

namespace Sys2Proof.Machine

/-! ### Coach recovery (R611, Table 16.5) -/

/-- A coach after coach recovery: every field cleared at coach level, the coach store and the accumulator bank; UNBOUND. Its role epoch is kept (R615). -/
def State.coachCleared (s : State) (k : Nat) : State :=
  let n := s.fld COA_ROLE_CONTEXT k
  let s1 := (s.resetFields .coach (fun f u _ => f.blk == .coach && u == k)).dropCtxEntries (coachUnit k) n
  let s2 := { s1 with store := mdrop (fun x => x / storeSize == k) s1.store, bank := mdrop (fun x => x / 131072 == k) s1.bank,
                      vreg := mdrop (fun x => x / 32768 == k) s1.vreg, sacc := mdrop (fun x => x / 4096 == k) s1.sacc }
  s2.updCoach k (fun c => { reqs := c.ctxReset.reqs, idleFrom := s.coachCycles })

/-- Coach recovery begins (R611): it is logged and counted, the bound context is braked with COACHREC and waits for it, and the coach is cleared. -/
def State.recoverCoach (s : State) (k cause : Nat) : State :=
  let own := s.boundCtx k
  let s1 := s.logEntry 0x0103 schedUnit own cause k
  let s2 := (s1.setFld CAR_COACHREC_LAST (carOf k) 0 (coachNumber k)).bump CAR_COACHREC_COUNT (carOf k) 0 1
  let s3 := { s2 with recov := { s2.recov with coaches := s2.recov.coaches ++ [k] } }
  let s4 := match own with
    | some n => (s3.updCtx n (fun x => { x with waitRec := x.waitRec ++ [k] })).brake n 6
    | none => s3
  s4.coachCleared k

/-- No context waits any more for a recovery that has ended. -/
def State.awaitNo (s : State) (p : Nat → Bool) : State :=
  { s with ctxs := mmap {} (fun x => { x with waitRec := x.waitRec.filter (fun w => !p w) }) s.ctxs }

/-- COACH_RECOVERY_DONE (R611). -/
def execCoachRecoveryDone (k : Coach) (s : State) : Res := s.outside rankSched (.coachRecoveryDone k) fun s =>
  if s.recov.coaches.contains k.val then
    ok ({ s with recov := { s.recov with coaches := s.recov.coaches.filter (· != k.val) } }.awaitNo (· == k.val))
  else ok s

/-! ### Carriage recovery (R611 to R613) -/

/-- Local units of a carriage whose requests end with them: coaches, fabric ports, host cores, control core, DMA engine. -/
def computeUnit (u : Nat) : Bool :=
  let l := u % 256
  decide (l < 0x18) || (decide (0x30 ≤ l) && decide (l < 0x40)) || (decide (0x50 ≤ l) && decide (l < 0x53))

/-- Role epochs of a carriage are kept aside and become 0x00 (R612). -/
def State.epochsAside (s : State) (c : Nat) : State :=
  (List.range 0x54).foldl (fun t l =>
    let u := c * 256 + l
    let e := t.epoch u
    if e == 0 then t else { t with net := { t.net with savedEpoch := mset 0 t.net.savedEpoch u e } }.setEpoch u 0) s

/-- Whether a field of BAR0 belongs to a carriage's own ranges. -/
def ofCarriage (c : Nat) (f : Fld) (u : Nat) : Bool :=
  match f.blk with
  | .dev => false
  | .bay => false
  | .coach => u / 24 == c
  | _ => u == c

/-- What a carriage holds that carriage level clears (Table 16.5, Table 16.6): fields, coaches, DMA engine, translation caches, packets delivered
to its compute units; the fabric returns to HELD. -/
def State.carriageCleared (s : State) (c : Nat) : State :=
  let s1 := (s.resetFields .carriage (fun f u _ => ofCarriage c f u)).fabricHeld c true
  let mine := fun k => k / 24 == c
  let s2 := { s1 with store := mdrop (fun x => mine (x / storeSize)) s1.store, bank := mdrop (fun x => mine (x / 131072)) s1.bank,
                      vreg := mdrop (fun x => mine (x / 32768)) s1.vreg, sacc := mdrop (fun x => mine (x / 4096)) s1.sacc,
                      coaches := mmap {} id (mdrop mine s1.coaches), dma := mset {} s1.dma c {} }
  { s2 with tcs := mdrop (fun u => u / 256 == c) s2.tcs,
            net := { s2.net with inbox := mdrop (fun u => u / 256 == c && computeUnit u) s2.net.inbox,
                                 msgs := mdrop (fun u => u / 256 == c && computeUnit u) s2.net.msgs,
                                 heldPk := mdrop (fun x => x / 256 / 256 == c && computeUnit (x / 256)) s2.net.heldPk } }

/-- Carriage recovery begins (R611, R612): it is logged and counted, a running lockstep aborts, every context of the carriage's partition is braked with
CARREC and waits for it, and the carriage is cleared. -/
def State.recoverCarriage (s : State) (c cause : Nat) : State :=
  let part := s.partOf c
  let s1 := ((s.lockAbort 0xB).logEntry 0x0104 schedUnit none cause c).setFld CAR_REC_CAUSE c 0 cause |>.bump CAR_REC_COUNT c 0 1
  let hit := fun (x : CtxS) => x.state != 0 && x.part == part
  let swap := fun (l : List Nat) => (l.filter (fun w => !(decide (w < 96) && w / 24 == c))) ++ (if l.contains (100 + c) then [] else [100 + c])
  let s2 := { s1 with ctxs := mmap {} (fun x => if hit x then { x with waitRec := swap x.waitRec } else x) s1.ctxs }
  let s3 := s2.brakeWhere (fun _ x => hit x) 7
  let s4 := { s3 with recov := { s3.recov with coaches := s3.recov.coaches.filter (fun k => k / 24 != c), cars := s3.recov.cars.filter (· != c) ++ [c] } }
  ((s4.epochsAside c).carriageCleared c).setCarState c 3

/-- CARRIAGE_RECOVERY_DONE (R503, R611, R613): the registers of Table 13.4 are written again, the carriage is in RUN, and its fabric is released. -/
def execCarriageRecoveryDone (c : Car) (s : State) : Res := s.outside rankSched (.carriageRecoveryDone c) fun s =>
  if !s.recov.cars.contains c.val then ok s
  else
    let s1 := (s.rewriteImageRegs c).setCarState c 0
    let s3 := s1.updFab c (fun f => { f with release := s.flag FAB_STATE_LOADED c })
    ok ({ s3 with recov := { s3.recov with cars := s3.recov.cars.filter (· != c.val) } }.awaitNo (· == 100 + c.val))

/-- COACH_RECOVERY_TIMEOUT (R611): carriage recovery with COACHSLOW. -/
def execCoachRecoveryTimeout (k : Coach) (s : State) : Res := s.outside rankSched (.coachRecoveryTimeout k) fun s =>
  if s.recov.coaches.contains k.val then ok ((s.recordCause none 0x30 (coachUnit k) 0).recoverCarriage (carOf k) 0x30) else ok s

/-- BRAKE_UNIT_TIMEOUT (R609): a bound unit of a BRAKING context misses its bound. -/
def execBrakeUnitTimeout (n : Ctx) (u : BrakeUnit) (s : State) : Res := s.outside rankSched (.brakeUnitTimeout n u) fun s =>
  if (s.ctx n).state != 3 then ok s
  else match u with
    | .coach k => if s.boundCtx k == some n.val then ok ((s.recordCause (some n.val) 0x20 (coachUnit k) 0).recoverCoach k 0x20) else ok s
    | .chan c h =>
      if (s.boundChans n).contains (c.val, h.val) then ok ((s.recordCause (some n.val) 0x31 (dmaUnit c) 0).recoverCarriage c 0x31) else ok s
    | .port c h =>
      if (s.boundPorts n).contains (c.val, h.val) then ok ((s.recordCause (some n.val) 0x31 (portUnit c h) 0).recoverCarriage c 0x31) else ok s

/-! ### Chip reset (R614 to R619) -/

/-- A chip-reset cause (R614): it asks for a chip reset, or folds into the one asked for or in progress and is logged. -/
def State.askChip (s : State) (cause unit code : Nat) : State :=
  let s1 := s.recordCause none cause unit code
  if s1.pm.wanted.isSome || s1.pm.running then s1.logEntry 0x0105 0x61 none cause 0
  else { s1 with pm := { s1.pm with wanted := some cause } }

/-- CARRIAGE_RECOVERY_TIMEOUT (R611): chip reset with CARRSLOW. -/
def execCarriageRecoveryTimeout (c : Car) (s : State) : Res := s.outside rankSched (.carriageRecoveryTimeout c) fun s =>
  if s.recov.cars.contains c.val then ok (s.askChip 0x40 schedUnit 0) else ok s

/-- CHIPRST_REQUEST (R610): REC_CTL.CHIPRST. -/
def execChiprstRequest (s : State) : Res := s.regEvent REC_CTL_CHIPRST 0 0 .chiprstRequest fun s => ok ((s.setFld REC_CTL_CHIPRST 0 0 1).askChip 0x43 0x61 0)

/-- Number under which the host's bytes of a work order are given: queue number and slot. -/
def slotKey (n r slot : Nat) : Nat := (n * 64 + r) * 4096 + slot

/-- Write the completions of a queue that can be written, oldest first; `fuel` bounds them. -/
def State.flushQueue (s : State) (n r : Nat) (host : List (Nat × List Byte)) : Nat → State
  | 0 => s
  | fuel + 1 =>
    let q := s.queue n r
    if !s.canWrite q then s
    else match q.compl with
      | [] => s
      | c :: _ =>
        match c.tag with
        | some tag => (s.putCompletion n r c tag).flushQueue n r host fuel
        | none =>
          let slot := c.no % 2 ^ q.log2
          let h := match host.find? (fun e => e.1 == slotKey n r slot) with | some e => e.2.map BitVec.toNat | none => []
          let b := s.vreadFree n (q.sqBase + slot * 64) 64 h
          let o := readOrder b.1
          (b.2.updQueue n r (fun q => q.updFirst (fun c => { c with tag := some o.tag, irq := o.irq, held := o.hold }))).flushQueue n r host fuel

/-- R614, step 1: every work order not yet completed completes with BRAKED, unless a pair is to continue it (R657), and every context is FREE. -/
def State.freeContexts (s : State) (host : List (Nat × List Byte)) : State :=
  let s1 := s.ctxs.foldl (fun t e =>
    if t.pairMode != 0 && (t.pairRole e.1 == 1 || t.pairRole e.1 == 2) then t
    else
      let t1 := t.failQueues e.1 4
      (t1.ctx e.1).queues.foldl (fun t q => t.flushQueue e.1 q.1 host (2 * q.2.compl.length)) t1) s
  { s1 with ctxs := [] }

/-- A carriage in S2 wakes for a chip reset, which needs its clocks (log 48). -/
def State.endNaps (s : State) : State :=
  ((List.range 4).filter (fun c => s.carState c == 2)).foldl (fun t c =>
    let t1 := { t.setFld (lockFld c) 0 0 15 with pwr := { t.pwr with avs := t.pwr.avs.filter (fun a => a.car != c), waking := t.pwr.waking ||| 2 ^ c } }
    (t1.emit (.avs c (10 * t1.pwr.volt))).wokenCar [] c) s

/-- R614, step 2: the compute part is held in reset: the controllers act under R394, the bays under R427, the fabrics under R503; every field cleared at
chip level takes its reset value; links, PCIe ports, HBM, tenders, route sheets, the configuration, the log and the PM core's own state stay
(Table 16.6). A power-state entry ends with reason RESET (R583), a running lockstep with CHIPRST, a load with ABORTED (R531); the arbiter's activities end
(R636); REIN is let go (Table 7.4). -/
def State.holdCompute (s : State) : State :=
  let loading := s.fld CFG_STATE_STATE 0 == 1 || s.fld CFG_STATE_STATE 0 == 2 || s.fld CFG_STATE_STATE 0 == 3
  let t := if loading then s.loadFail 9 s.loadSect else s
  let s0 := ((if s.pwr.entry.isSome then t.setFld PWR_STATUS_REASON 0 0 11 else t).lockAbort 0xB).endNaps
  let s1 := (List.range 8).foldl (fun t n => t.hbmChipReset n) s0
  let s2 := (List.range 4).foldl (fun t b => (t.bayChipReset b).fabricHeld b true) s1
  let s3 := s2.resetFields .chip (fun _ _ _ => true)
  let s4 := { s3 with latches := [], held := [], store := [], bank := [], vreg := [], sacc := [], coaches := [], dma := [], reports := [], tcs := [], ctxs := [],
                      rein := {}, lock := { waiting := s3.lock.waiting }, pair := {}, arb := {}, adm := [], admBusy := none, admLast := 3, hostReq := [], recov := {}, dbgNonce := false }
  let s5 := { s4 with net := { sheet := s4.net.sheet, nextUid := s4.net.nextUid }, ports := mmap {} (fun p => { p with slots := [] }) s4.ports,
                      pwr := { s4.pwr with entry := none, stopped := [], waking := 0 },
                      links := mmap {} (fun l => { l with ret := [], owed := [], rxq := [], held := [], waiting := [], carried := false }) s4.links }
  (List.range 4).foldl (fun t c => if t.carState c == 4 then t else t.setCarState c 3) (s5.setFld PWR_STATUS_PHASE 0 0 0).driveRein

/-- CHIPSLOW (R619): PWRCYC_REQ_N goes low, code 0x0106 is logged, and the compute part stays held until the power cycle. -/
def State.chipSlow (s : State) : State :=
  let s1 := ((s.recordCause none 0x50 0x61 0).logEntry 0x0106 0x61 none 0x50 0).setFld REC_STATUS_PWRCYC 0 0 1
  { s1 with pm := { s1.pm with dead := true, running := true } }.emit (.pin "PWRCYC_REQ_N" 0)

/-- Always-on cycles in 10 s: the always-on clock runs at 6.25 MHz (R574). -/
def tenSeconds : Nat := 62500000

/-- CHIP_RESET (R614): steps 1 and 2. One that begins within 10 s of the end of the one before goes no further (R619). `host` gives, by queue and slot,
what the host returns for work orders that complete unread. -/
def execChipReset (host : List (Nat × List Byte)) (s : State) : Res :=
  match s.pm.wanted with
  | none => ok s
  | some cause =>
    if s.pm.running then ok s
    else
      let s1 := ((s.logEntry 0x0105 0x61 none cause 0).bump REC_CHIPCNT_COUNT 0 0 1).setFld REC_STATUS_LASTCHIP 0 0 cause
      let s2 := if cause == 0x42 then s1 else s1.freeContexts host
      let s3 := s2.holdCompute
      let s4 := { s3 with pm := { s3.pm with wanted := none, running := true } }
      match s.pm.lastEnd with
      | some t => if s.aoCycles < t + tenSeconds then ok s4.chipSlow else ok s4
      | none => ok s4

/-- CHIP_RESET_DONE (R614, steps 3 to 5; R394, R502, R613, R663): every carriage held in RESET reaches RUN. -/
def execChipResetDone (s : State) : Res :=
  if !s.pm.running || s.pm.dead then ok s
  else
    let s1 := ((List.range 4).filter (fun c => s.carState c == 3)).foldl (fun t c =>
      ((t.rewriteImageRegs c).setCarState c 0).updFab c (fun f => { f with release := s.flag FAB_STATE_LOADED c })) s
    let s2 := (List.range 8).foldl (fun t n => t.hbmRestart n) s1
    let s3 := { s2 with pm := { s2.pm with running := false, lastEnd := some s.aoCycles, schedOk := true } }
    ok (((s3.setFld CPL_STATE_STATE 0 0 (if s.pairMode == 0 then 0 else 1)).setFld REC_STATUS_EVENT 0 0 1).raise none (s.fld REC_CTL_PORT 0) (s.fld REC_CTL_VEC 0))

/-- CHIP_RESET_TIMEOUT (R619). -/
def execChipResetTimeout (s : State) : Res := if s.pm.running && !s.pm.dead then ok s.chipSlow else ok s

/-- SCHED_HEARTBEAT (R616). -/
def execSchedHeartbeat (s : State) : Res := ok { s with pm := { s.pm with schedOk := true } }

/-- SCHED_HEARTBEAT_LOSS (R616, R650). In S3 the scheduler core is off and none is awaited. -/
def execSchedHeartbeatLoss (s : State) : Res := if s.pwr.s3 then ok s else ok ({ s with pm := { s.pm with schedOk := false } }.askChip 0x42 0x61 0)

/-- R655: a device of a pair whose HEARTBEAT stops while its scheduler core runs fences itself: issue stops on every ACTIVE context. -/
def State.fence (s : State) : State :=
  if s.pairMode == 0 || s.fld CPL_STATE_STATE 0 == 7 || s.pm.running then s
  else
    let s1 := ((s.setFld CPL_STATE_STATE 0 0 7).pairReason 6).logEntry 0x0706 schedUnit none 0 0
    (s1.ctxs.filter (fun e => s1.pairRole e.1 == 1)).foldl (fun t e => t.haltCoaches e.1 true) s1

/-- PM_WATCHDOG_EXPIRY (R617, R655). In a pair the scheduler core stops coaches, which in a running lockstep enters at a slot boundary (R310). -/
def execPmWatchdogExpiry (s : State) : Res :=
  if s.pairMode == 0 then ok (s.setFld REC_STATUS_PMFAIL 0 0 1)
  else s.outside rankSched .pmWatchdogExpiry fun s => ok (s.setFld REC_STATUS_PMFAIL 0 0 1).fence

/-- Whether HEARTBEAT toggles (R618). -/
def State.beats (s : State) : Bool := !s.flag REC_STATUS_PMFAIL 0 && !s.pm.running && !s.pm.inPor

/-- HEARTBEAT_TOGGLE (R618). -/
def execHeartbeatToggle (s : State) : Res :=
  if s.beats then ok ({ s with pm := { s.pm with beat := !s.pm.beat } }.emit (.pin "HEARTBEAT" (b2n (!s.pm.beat)))) else ok s

/-! ### Fault reports (R597 to R599, R610) -/

/-- Act on a cause (Table 16.4). -/
def State.actOn (s : State) (ctx : Option Nat) (cause target : Nat) : State :=
  if cause == 0 then s
  else if cause < 0x20 then (match ctx with | some n => s.stopCtx n cause | none => s)
  else if cause < 0x30 then s.recoverCoach target cause
  else if cause < 0x40 then s.recoverCarriage target cause
  else s

/-- A fault that a unit reports: recorded, logged, written as an event record where R567 names it, and acted on. -/
def State.takeReport (s : State) (r : Report) (host : List Nat) : State :=
  let chip := decide (0x40 ≤ r.cause)
  let s1 := (if chip then s else s.recordCause r.ctx r.cause r.unit r.code).logEntry 0x0200 r.unit r.ctx r.code r.data
  let s2 := match r.ctx with
    | some n => if r.kind != 0 && (s1.ctx n).state != 0 then
        s1.eventRecord n host { kind := r.kind, code := r.code, unit := r.evUnit, sub := r.sub, va := r.va, seq := r.seq } else s1
    | none => s1
  if chip then s2.askChip r.cause r.unit r.code else s2.actOn r.ctx r.cause r.target

/-- FAULT_REPORT (R597): the oldest report waiting, or an error of the hardware itself (Table 16.4: COACHERR, CARRERR, GLOBAL). -/
def State.faultReport (s : State) (src : FaultSrc) : State :=
  match src with
  | .queued host =>
    match s.reports with
    | [] => s
    | r :: rest => { s with reports := rest }.takeReport r (host.map BitVec.toNat)
  | .coachErr k code => s.takeReport { cause := 0x21, ctx := s.boundCtx k, unit := coachUnit k, code := code.toNat, target := k } []
  | .carErr u code => s.takeReport { cause := 0x31, ctx := none, unit := u, code := code.toNat, target := u / 256 } []
  | .globalErr u code => s.takeReport { cause := 0x41, ctx := none, unit := u, code := code.toNat } []

/-- Whether a command takes the oldest report waiting. -/
def takesReport (i : Instr) : Bool := match i with | .faultReport (.queued _) => true | _ => false

/-- Commands that wait for a slot boundary and will take a report each. -/
def State.reportsAsked (s : State) : Nat := (s.lock.waiting.filter (fun w => takesReport w.cmd)).length

/-- Lockstep cycle of the fault that a command is about: that of the report it will take, or the present one for an error of the hardware. -/
def State.faultCycle (s : State) (src : FaultSrc) : Nat :=
  match src with
  | .queued _ => (match s.reports[s.reportsAsked]? with | some r => r.cyc | none => 0)
  | _ => s.fld DEV_LSCYC_CYC 0

/-- FAULT_REPORT (R597): while lockstep runs, what the scheduler core does about it enters at the first slot boundary that lies at least a slot after the fault
(R311). -/
def execFaultReport (src : FaultSrc) (s : State) : Res :=
  s.outsideAt rankSched (s.faultCycle src + s.slotLen) (.faultReport src) fun s => ok (s.faultReport src)

/-! ### Hangs (R603 to R606, Table 16.1) -/

/-- Conditions that hold at a sample, with the context each concerns: coaches held in SYNC, coaches in RUN whose count has not changed, streams halted,
stopped contexts. -/
def State.hangNow (s : State) : List (Nat × Nat) :=
  let ks := (List.range 96).filterMap (fun k => (s.boundCtx k).map (fun n => (k, n)))
  let sync := ks.filter (fun (k, _) => s.fld COA_STATE_STATE k == 3 && (match (s.coach k).ctrl with | some i => opOf i.w == 8 | none => false))
  let still := ks.filter (fun (k, _) => s.fld COA_STATE_STATE k == 2 && mget 0 s.recov.issued k == s.fld COA_ISSUED_ISSUED k + 1)
  let strm := (ks.map (fun (k, n) => ((List.range 8).filter (fun i => let st := s.fld STR_STATE_STATE k i; st == 2 || st == 3)).map (fun i => (256 + k * 8 + i, n)))).flatten
  sync ++ still.map (fun (k, n) => (128 + k, n)) ++ strm ++ (s.ctxs.filter (fun e => e.2.state == 2)).map (fun e => (2048 + e.1, e.1))

/-- HANG_SAMPLE (R603): each condition keeps the time of the first of the samples in a row that see it. While lockstep runs, samples fall on slot boundaries
alone (R606). -/
def execHangSample (s : State) : Res :=
  if s.lockRun && s.fld DEV_LSCYC_CYC 0 % s.slotLen != 0 then ok s else
  let now := s.hangNow.map (·.1)
  let seen := now.foldl (fun m k => mset 0 m k (let t := mget 0 s.recov.seen k; if t == 0 then s.aoCycles + 1 else t)) ([] : SMap Nat)
  let issued := (List.range 96).foldl (fun m k => if s.flag COA_ROLE_BOUND k then mset 0 m k (s.fld COA_ISSUED_ISSUED k + 1) else m) ([] : SMap Nat)
  ok { s with recov := { s.recov with seen := seen, issued := issued, sampled := s.aoCycles } }

/-- Whether a condition has been seen for its limit: an always-on cycle is 160 ns. -/
def State.expired (s : State) (k : Nat) : Bool :=
  let t := mget 0 s.recov.seen k
  let lim := if k < 128 then s.fld REC_PEERTMO_US 0 else s.fld REC_HANGTMO_US 0
  t != 0 && lim != 0 && decide (lim * 100 ≤ (s.recov.sampled + 1 - t) * 16)

/-- HANG_EXPIRY (R603): the contexts of the conditions that have expired are braked with PEERTMO or HANG; while lockstep runs, at the first slot boundary that lies
at least a slot after the sample (R311, R606). -/
def execHangExpiry (s : State) : Res := s.outsideAt rankSched (s.fld DEV_LSCYC_CYC 0 + s.slotLen) .hangExpiry fun s =>
  let hit := s.hangNow.filter (fun e => s.expired e.1)
  let s1 := hit.foldl (fun t e => t.brake e.2 (if e.1 < 128 then 5 else 4)) s
  ok { s1 with recov := { s1.recov with seen := hit.foldl (fun m e => mset 0 m e.1 0) s1.recov.seen } }

/-! ### Power-fail warning (R621 to R625) -/

/-- Entries of a log bank from number `q` on, `n` of them, as bytes; an entry that is not held reads zero. -/
def State.logBytes (s : State) (q n : Nat) : List Nat :=
  let b := if s.flag LOG_STATUS_BANK0OK 0 then 0 else 1
  ((List.range n).map (fun i => match mget none s.log (b * 2048 + (q + i) % 2048) with | some e => e.bytes | none => List.replicate 32 0)).flatten

/-- Entries that the log holds. -/
def State.logHeld (s : State) : Nat :=
  let b := if s.flag LOG_STATUS_BANK0OK 0 then 0 else 1
  if !s.flag LOG_STATUS_BANK0OK 0 && !s.flag LOG_STATUS_BANK1OK 0 then 0 else (s.log.filter (fun e => e.1 / 2048 == b)).length

/-- The record of the log tail (R623, Table 10.11): KIND 3, SEQ the number of its first entry. -/
def State.tailRecord (s : State) (n : Nat) : List Nat :=
  let q := (s.fld LOG_SEQ_NEXT 0 + 2 ^ 32 - n) % 2 ^ 32
  let body := s.logBytes q n
  let head := leBytes 8 q ++ leBytes 2 3 ++ [0, 0] ++ leBytes 4 (32 * n) ++ List.replicate 12 0
  head ++ leBytes 4 (crc32c (head ++ [0, 0, 0, 0] ++ body)) ++ body

/-- R623: the log tail goes to the last 64 KiB of the journal region of the lowest-numbered ATTACHED bay that has one; code 0x0303 is logged. -/
def State.writeLogTail (s : State) : State :=
  match (List.range 4).find? (fun b => s.bayState b == 3 && s.fld TND_JRNLEN_LEN b != 0) with
  | none => s.logEntry 0x0303 0x61 none 0xFFFFFFFF 0
  | some b =>
    let n := min (s.fld LOG_PFWN_COUNT 0) s.logHeld
    let a := s.fld TND_JRNBASE_BASE b * 64 + (s.fld TND_JRNLEN_LEN b - 1) * 65536
    { s with media := memWrite s.media (mediaKey b a) (s.tailRecord n) }.logEntry 0x0303 0x61 none b n

/-- PFW_ASSERT (R621, R622, R583): a warning begins. -/
def execPfwAssert (s : State) : Res :=
  if s.flag REC_STATUS_PFW 0 then ok s
  else
    let s1 := ((s.setFlds 0 0 [(REC_STATUS_PFW, 1), (REC_STATUS_EVENT, 1)]).logEntry 0x0301 0x61 none 0 0).raise none (s.fld REC_CTL_PORT 0) (s.fld REC_CTL_VEC 0)
    ok ((List.range 4).foldl (fun t b => t.bayMaintStop b) ((s1.lockAbort 0xA).pwrRefuse 1 3 0)).writeLogTail

/-- PFW_END (R625). -/
def execPfwEnd (s : State) : Res :=
  if s.flag REC_STATUS_PFW 0 then
    let s1 := ((s.logEntry 0x0302 0x61 none 0 0).setFld REC_STATUS_PFW 0 0 0).arbStep
    ok ((List.range 4).foldl (fun t b => if t.attached b then t.sendUnsent b else t) s1)
  else ok s

end Sys2Proof.Machine
end

