-- ==== Sys2Proof/Machine/Coupled.lean ====
section
/-! DEFINITION. Coupled pairs (R637 to R665): heartbeats, mirror records received, resynchronisation, the pair's indications, takeover. -/

namespace Sys2Proof.Machine

/-! ### Heartbeats and acknowledgements (R646, R649) -/

/-- The coupler links that are UP (0 for link 24, 1 for link 25). -/
def State.upCouplers (s : State) : List Nat := [0, 1].filter (fun k => s.linkUp (24 + k))

/-- HEARTBEAT_RECORD_SEND (R649): while the pin toggles and the scheduler core's heartbeat is current; a fenced device sends none (R655). -/
def execHeartbeatRecordSend (s : State) : Res :=
  if s.pairMode == 0 || !s.beats || !s.pm.schedOk || s.fld CPL_STATE_STATE 0 == 7 then ok s
  else ok (s.upCouplers.foldl (fun t k => (t.mirrorOn k 1 0 0 t.beatData).2) s)

/-- Contexts with a pair role. -/
def State.withRole (s : State) (role : Nat) : List Nat := (s.ctxs.filter (fun e => s.pairRole e.1 == role)).map (·.1)

/-- R662, steps 4 and 5: SYNCED once the sweep sent has been acknowledged and the sweep received has been applied. A device without ACTIVE contexts sends
none, one without SHADOW contexts awaits none. -/
def State.checkSynced (s : State) : State :=
  let source := !(s.withRole 1).isEmpty
  let target := !(s.withRole 2).isEmpty
  let inDone := s.pair.sweepIn.any (fun e => e.2 == 2) && s.pair.sweepIn.all (fun e => e.2 == 2)
  if s.fld CPL_STATE_STATE 0 == 2 && (!source || s.pair.sweepEnd.isEmpty) && (!target || inDone) then
    let s1 := (s.setFld CPL_STATE_STATE 0 0 3).pairReason 7
    if source then s1.logEntry 0x0707 schedUnit none (s.pair.swept % 2 ^ 32) 0 else s1
  else s

/-- Take in the numbers that a HEARTBEAT or ACK record acknowledges (R646, R647): journal writes that waited for them are answered. -/
def State.noteAcks (s : State) (data : List Nat) : State :=
  let m := fun k => leNat ((data.drop (4 + 4 * k)).take 4)
  let s1 := (s.setFld CPL_ACKED_MSEQ 0 0 (m 0)).setFld CPL_ACKED_MSEQ 0 1 (m 1)
  let left := s1.pair.sweepEnd.filter (fun (k, n) => decide (2 ^ 31 ≤ (m k + 2 ^ 32 - n) % 2 ^ 32))
  let s2 := { s1 with pair := { s1.pair with sweepEnd := left } }.checkSynced
  (List.range 4).foldl (fun t b => t.answerReady b) s2

/-- The partner's state as a record gives it. A partner that has found a gap takes this device to DESYNC with it (R648). -/
def State.notePartner (s : State) (k : Nat) (data : List Nat) : State :=
  let p := data.getD 0 0 % 8
  let s1 := { s with pair := { s.pair with partner := p } }
  if p == 5 && (s.pair.partner == 2 || s.pair.partner == 3) then s1.pairGap (24 + k) ((s.fld CPL_ACKED_MSEQ 0 k + 1) % 2 ^ 32) else s1

/-! ### Sending a sweep (R662) -/

/-- Send records and count their bytes. -/
def State.sweepSend (s : State) (car kind ctx addr : Nat) (data : List Nat) : State :=
  let r := s.mirrorSend car kind ctx addr data
  { r.2 with pair := { r.2.pair with swept := r.2.pair.swept + data.length } }

/-- CONTEXT and QUEUE records of an ACTIVE context: each queue's indices, then the work orders that have started and not completed. -/
def State.sweepContext (s : State) (n : Nat) : State :=
  let s1 := s.mirrorContext n
  (s1.ctx n).queues.foldl (fun t e =>
    let q := e.2
    let t1 := (t.mirrorQueue n e.1 3 q.taken []).2
    (q.repost ++ q.running.map (·.no)).foldl (fun t no => (t.mirrorQueue n e.1 1 no []).2) t1) s1

/-- Enabled mirror ranges in ascending PA: (LBASE, PBASE, SIZE) in 2 MiB units. -/
def State.rangesUp (s : State) : List (Nat × Nat × Nat) :=
  let l := ((List.range 16).filter (fun i => s.flag CPL_MRNG_EN 0 i)).map (fun i => (s.fld CPL_MRNG_LBASE 0 i, s.fld CPL_MRNG_PBASE 0 i, s.fld CPL_MRNG_SIZE 0 i))
  l.foldl (fun a r => (a.filter (fun x => decide (x.1 ≤ r.1))) ++ [r] ++ a.filter (fun x => decide (r.1 < x.1))) []

/-- One mirror range in full, a granule at a time. -/
def State.sweepRange (s : State) (r : Nat × Nat × Nat) : State :=
  (List.range (r.2.2 * 8192)).foldl (fun t i =>
    let pa := r.1 * 2 ^ 21 + 256 * i
    t.sweepSend ((t.place pa).stack / 2) 6 0 (r.2.1 * 2 ^ 21 + 256 * i) (t.hbmPeek pa 256)) s

/-- The journal region of a bay. -/
def State.sweepJournal (s : State) (b : Nat) : State :=
  (List.range (s.fld TND_JRNLEN_LEN b * 256)).foldl (fun t i => t.sweepSend b 5 0 (256 * i) (t.mediaPeek b (t.fld TND_JRNBASE_BASE b * 64 + 256 * i) 256)) s

/-- A device that holds ACTIVE contexts sends a full sweep, and is SYNCING (R662, steps 2 and 3). -/
def State.sendSweep (s : State) : State :=
  if (s.withRole 1).isEmpty then s
  else
    let ks := s.upCouplers
    let s1 := ks.foldl (fun t k => (t.mirrorOn k 7 0 0 []).2) { s with pair := { s.pair with swept := 0, sweepEnd := [] } }
    let s2 := (s.withRole 1).foldl (fun t n => t.sweepContext n) (s1.setFld CPL_STATE_STATE 0 0 2)
    let s3 := s2.rangesUp.foldl (fun t r => t.sweepRange r) s2
    let s4 := (List.range 4).foldl (fun t b => t.sweepJournal b) s3
    ks.foldl (fun t k => let r := t.mirrorOn k 8 0 0 []; { r.2 with pair := { r.2.pair with sweepEnd := r.2.pair.sweepEnd ++ [(k, r.1)] } }) s4

/-- Resynchronisation starts on this device (R662): CPL_CTL.RESYNC is cleared as it begins. -/
def State.startResync (s : State) : State := ({ s with pair := { s.pair with sweepIn := [] } }.setFld CPL_CTL_RESYNC 0 0 0).sendSweep

/-- RESYNC (R662): from ALONE, while the partner's heartbeat is current; it stays asked for until then. In any other state it is cleared at once. -/
def execResync (s : State) : Res := s.regEvent CPL_CTL_RESYNC 0 0 .resync fun s =>
  if s.fld CPL_STATE_STATE 0 != 1 then ok (s.setFld CPL_CTL_RESYNC 0 0 0)
  else if s.flag CPL_STATE_HBCUR 0 then ok s.startResync
  else ok (s.setFld CPL_CTL_RESYNC 0 0 1)

/-! ### Applying numbered records (R644, R646, R648) -/

/-- A QUEUE record to a shadow queue. `host` is what the host returns for the queue-table entry (a QSYNC). -/
def State.applyQueue (s : State) (r : MRec) (host : List Nat) : State :=
  let d := r.data
  let ring := d.getD 0 0 % 64
  let tail := leNat ((d.drop 2).take 2)
  let head := leNat ((d.drop 4).take 2)
  let cq := leNat ((d.drop 6).take 2)
  let phase := d.getD 8 0 == 1
  let en := d.getD 9 0 == 1
  let no := leNat ((d.drop 10).take 4)
  match d.getD 1 0 with
  | 0 => s.updQueue r.ctx ring (fun q => let size := 2 ^ q.log2; { q with posted := q.posted + (tail + size - q.tail) % size, tail := tail })
  | 1 => s.updQueue r.ctx ring (fun q => { q with running := q.running.filter (fun w => w.no != no) ++ [{ no := no }], taken := max q.taken (no + 1), head := head })
  | 2 => s.updQueue r.ctx ring (fun q =>
      let next := (cq + 1) % 2 ^ q.log2
      { q with running := q.running.filter (fun w => w.no != no), taken := max q.taken (no + 1), doneTop := max q.doneTop (no + 1), cqTail := next,
               phase := if next == 0 then !phase else phase })
  | _ =>
    let e := s.readQueueEntry r.ctx ring host
    e.2.2.updQueue r.ctx ring (fun _ =>
      { e.1 with en := en, tail := tail, head := head, cqTail := cq, phase := phase, taken := no, posted := no + (tail + 2 ^ e.1.log2 - head) % 2 ^ e.1.log2, doneTop := no })

/-- A CONTEXT record to a shadow context: LIVE or STOPPED as the partner's is (log 52). -/
def State.applyContext (s : State) (r : MRec) : State :=
  let st := r.data.getD 0 0
  if (s.ctx r.ctx).state != 0 && (st == 1 || st == 2) then s.updCtx r.ctx (fun x => { x with state := st }) else s

/-- A gap on a link (R648): records are discarded until the next SWEEPSTART. -/
def State.intakeGap (s : State) (k expected : Nat) : State :=
  { s with pair := { s.pair with dropping := mset 0 s.pair.dropping k 1 } }.pairGap (24 + k) expected

/-- Apply a record. A JOURNAL record is applied when the bay has acknowledged its write (R646); where CPL_PJRN does not take it, it leaves a gap. -/
def State.applyRecord (s : State) (k : Nat) (r : MRec) (host : List Nat) : State :=
  let shadow := s.pairRole r.ctx == 2
  match r.kind with
  | 3 => (if shadow then s.applyContext r else s).appliedRecord k r.mseq
  | 4 => (if shadow then s.applyQueue r host else s).appliedRecord k r.mseq
  | 5 =>
    if !s.flag CPL_PJRN_EN 0 || decide (s.fld CPL_PJRNLEN_LEN 0 * 65536 < r.addr + r.data.length) then s.intakeGap k r.mseq
    else
      let p : Packet := { vn := 5, ctx := r.ctx, src := 24 + k, tag := r.mseq, addr := s.fld CPL_PJRNBASE_BASE 0 * 64 + r.addr, data := r.data, len := ceilDiv r.data.length 16 }
      { s with pair := { s.pair with jrnBusy := mset 0 s.pair.jrnBusy k (r.mseq + 1) } }.updBay (s.fld CPL_PJRN_BAY 0) (fun y => { y with inq := y.inq ++ [p] })
  | 6 => (s.hbmPut (r.addr % 2 ^ 39) r.data).appliedRecord k r.mseq
  | 8 => ({ s with pair := { s.pair with sweepIn := mset 0 s.pair.sweepIn k 2 } }.appliedRecord k r.mseq).checkSynced
  | _ => s.appliedRecord k r.mseq

/-- Take a numbered record: in order, or as a gap (R648). -/
def State.takeNumbered (s : State) (k : Nat) (r : MRec) (host : List Nat) : State :=
  let want := (mget 0 s.pair.applied k + 1) % 2 ^ 32
  if mget 0 s.pair.dropping k == 1 then s
  else if r.mseq != want then s.intakeGap k want
  else s.applyRecord k r host

/-- The front record of a link's intake, when it is of a kind and the one before it has been applied; without it. -/
def State.mirrorNext (s : State) (k kind : Nat) (host : List Nat) : Res :=
  match mget [] s.pair.intake k with
  | [] => ok s
  | r :: rest =>
    if r.kind != kind || mget 0 s.pair.jrnBusy k != 0 then ok s
    else ok ({ s with pair := { s.pair with intake := mset [] s.pair.intake k rest } }.takeNumbered k r host)

/-- MIRROR_CONTEXT (R646). -/
def execMirrorContext (k : Fin 2) (s : State) : Res := s.mirrorNext k 3 []
/-- MIRROR_QUEUE (R646). -/
def execMirrorQueue (k : Fin 2) (host : List Byte) (s : State) : Res := s.mirrorNext k 4 (host.map BitVec.toNat)
/-- MIRROR_JOURNAL (R644, R646). -/
def execMirrorJournal (k : Fin 2) (s : State) : Res := s.mirrorNext k 5 []
/-- MIRROR_HBM (R646). -/
def execMirrorHbm (k : Fin 2) (s : State) : Res := s.mirrorNext k 6 []
/-- SWEEPEND (R662): the target is SYNCED when it has applied it. -/
def execSweepend (k : Fin 2) (s : State) : Res := s.mirrorNext k 8 []

/-- The shadow queues forget what records gave them (R662, step 4). -/
def State.clearShadows (s : State) : State :=
  (s.withRole 2).foldl (fun t n => t.updCtx n (fun x => { x with queues := mmap {} (fun q => { enabledQueue q with en := q.en }) x.queues })) s

/-- Links whose sweep the target awaits: 3 before its SWEEPSTART, 1 after it, 2 once its SWEEPEND has been applied (R662, step 4). A SWEEPSTART on a link that does
not await one begins a sweep anew on every link that is UP. -/
def State.sweepOpens (s : State) (k : Nat) : State :=
  let m := if mget 0 s.pair.sweepIn k == 3 then s.pair.sweepIn else s.upCouplers.foldl (fun m j => mset 0 m j 3) []
  { s with pair := { s.pair with sweepIn := mset 0 m k 1 } }

/-- SWEEPSTART (R662): numbering starts anew with it. The link that carries QUEUE records clears the shadow queues. A device that is not SYNCING begins its
own part of the resynchronisation. -/
def execSweepstart (k : Fin 2) (s : State) : Res :=
  match mget [] s.pair.intake k with
  | [] => ok s
  | r :: rest =>
    if r.kind != 7 then ok s
    else
      let st := s.fld CPL_STATE_STATE 0
      let s0 := { s with pair := { s.pair with intake := mset [] s.pair.intake k rest, dropping := mset 0 s.pair.dropping k 0, jrnBusy := mset 0 s.pair.jrnBusy k 0 } }
      if s.pairMode == 0 || st == 0 || st == 7 then ok s0
      else
        let s1 := if k.val == 1 || !s0.linkUp 25 then s0.clearShadows else s0
        let s2 := if st == 2 then s1 else (s1.startResync).setFld CPL_STATE_STATE 0 0 2
        ok ((s2.sweepOpens k).appliedRecord k r.mseq)

/-! ### The pair's indications (R651 to R653, R660) and takeover (R656) -/

/-- Row of Table 17.6: 0 normal, 1 split, 2 partner-alive fault, 3 witness held, 4 no witness. -/
def State.pairRow (s : State) : Nat :=
  if s.flag CPL_STATE_PALIVE 0 then (if s.flag CPL_STATE_HBCUR 0 then 0 else 1)
  else if s.flag CPL_STATE_HBCUR 0 then 2
  else if s.flag CPL_STATE_WIT 0 then 3 else 4

/-- A shadow queue is taken over (R656, steps 2 to 4): its submission head stands after the last work order whose completion was mirrored, work orders
that had started are posted again. What the host has released of the completion ring is not mirrored, and is a free value. -/
def QueueS.takeover (q : QueueS) (free : Nat) : QueueS :=
  let again := (List.range q.taken).filter (fun n => q.running.any (fun w => w.no == n))
  { q with head := q.doneTop % 2 ^ q.log2, repost := again, running := [], compl := [], used := free % (2 ^ q.log2 + 1), released := 0, cancel := 0 }

/-- R656: a shadow context becomes ACTIVE; answers how many work orders are posted again. -/
def State.takeContext (s : State) (n : Nat) : Nat × State :=
  let s1 := s.setFld CPL_CTXROLE_ROLE 0 n 1
  (s1.ctx n).queues.foldl (fun (acc : Nat × State) e =>
    if !e.2.en then acc
    else
      let d := acc.2.draw 13
      let q := e.2.takeover d.1
      (acc.1 + q.repost.length, d.2.updQueue n e.1 (fun _ => q))) (0, s1)

/-- Count the JOURNAL record that a bay has in hand as applied: a takeover does not wait for the bay (log 123). -/
def State.countJournal (s : State) (k : Nat) : State :=
  let m := mget 0 s.pair.jrnBusy k
  if m == 0 then s else { s with pair := { s.pair with applied := mset 0 s.pair.applied k ((m - 1) % 2 ^ 32), jrnBusy := mset 0 s.pair.jrnBusy k 0 } }

/-- Apply the records that a link has accepted, up to the next sweep (R656). -/
def State.drainIntake (s : State) (k : Nat) : State :=
  let l := (mget [] s.pair.intake k).takeWhile (fun r => r.kind != 7)
  l.foldl (fun t r => if r.kind < 3 then t else (t.takeNumbered k r []).countJournal k)
    ({ s with pair := { s.pair with intake := mset [] s.pair.intake k [] } }.countJournal k)

/-- Takeover (R656). -/
def State.takeover (s : State) : State :=
  let s1 := ({ s with pair := { s.pair with closed := true } }.drainIntake 0).drainIntake 1
  let ns := s1.withRole 2
  let r := ns.foldl (fun (acc : Nat × State) n => let x := acc.2.takeContext n; (acc.1 + x.1, x.2)) (0, s1)
  ((r.2.setFld CPL_STATE_STATE 0 0 1).pairReason 1).logEntry 0x0701 schedUnit none ns.length r.1

/-- R660: act on the row that now applies, in every state but OFF and FENCED (log 36). -/
def State.decidePair (s : State) : State :=
  let st := s.fld CPL_STATE_STATE 0
  if s.pairMode == 0 || st == 0 || st == 7 then s
  else match s.pairRow with
    | 0 => s
    | 1 => ((s.setFld CPL_STATE_STATE 0 0 4).pairReason 2).logEntry 0x0702 schedUnit none 0 0
    | 2 => (s.pairReason 3).logEntry 0x0703 schedUnit none 0 0
    | 3 => if st == 3 || st == 6 then s.takeover else s
    | _ => ((if st == 3 then s.setFld CPL_STATE_STATE 0 0 6 else s).pairReason 4).logEntry 0x0704 schedUnit none 0 0

/-- An indication takes a value; the pair decides when its row changes. -/
def State.indicate (s : State) (f : Fld) (b : Bool) : State :=
  let s1 := s.setFlag f 0 0 b
  if s1.pairRow != s.pairRow then s1.decidePair else s1

/-- PARTNER_LOST (R651, R660). What the scheduler core does about an indication enters a running lockstep at a slot boundary (R310). -/
def execPartnerLost (s : State) : Res := s.outside rankSched .partnerLost fun s => ok (s.indicate CPL_STATE_HBCUR false)
/-- PARTNER_ALIVE_LOST (R652, R660). -/
def execPartnerAliveLost (s : State) : Res := s.outside rankSched .partnerAliveLost fun s => ok (s.indicate CPL_STATE_PALIVE false)
/-- PARTNER_ALIVE_EDGE (R652, R660). -/
def execPartnerAliveEdge (s : State) : Res := s.outside rankSched .partnerAliveEdge fun s => ok (s.indicate CPL_STATE_PALIVE true)
/-- WIT_TOKEN_HELD (R653, R660). -/
def execWitTokenHeld (s : State) : Res := s.outside rankSched .witTokenHeld fun s => ok (s.indicate CPL_STATE_WIT true)
/-- WIT_TOKEN_LOW (R653, R660). -/
def execWitTokenLow (s : State) : Res := s.outside rankSched .witTokenLow fun s => ok (s.indicate CPL_STATE_WIT false)

/-- The first HEARTBEAT or ACK record of a link, which takes no number and waits for none. -/
def State.takePlain (s : State) (k kind : Nat) : Option (MRec × State) :=
  let l := mget [] s.pair.intake k
  match l.find? (fun r => r.kind == kind) with
  | none => none
  | some r => some (r, { s with pair := { s.pair with intake := mset [] s.pair.intake k (l.erase r) } })

/-- MIRROR_HEARTBEAT (R646, R651, R662): the partner's heartbeat is current; two devices in SPLIT or DESYNC resynchronise, and so does one in ALONE whose
host has asked for it. -/
def execMirrorHeartbeat (k : Fin 2) (s : State) : Res :=
  match s.takePlain k 1 with
  | none => ok s
  | some (r, s1) =>
    let s2 := ((s1.notePartner k r.data).noteAcks r.data).indicate CPL_STATE_HBCUR true
    let st := s2.fld CPL_STATE_STATE 0
    let p := s2.pair.partner
    if s2.pairMode != 0 && (st == 4 || st == 5) && (p == 4 || p == 5) then ok s2.startResync
    else if st == 1 && s2.flag CPL_CTL_RESYNC 0 then ok s2.startResync
    else ok s2

/-- MIRROR_ACK (R646). -/
def execMirrorAck (k : Fin 2) (s : State) : Res :=
  match s.takePlain k 2 with
  | none => ok s
  | some (r, s1) => ok ((s1.notePartner k r.data).noteAcks r.data)

/-! ### Roles (R638) and copies of writes (R645) -/

/-- CTX_ROLE_WRITE (R638, R643): only while the context is LIVE with no work order in progress. -/
def execCtxRoleWrite (role : Fin 4) (s : State) : Res := s.regEvent CPL_CTXROLE_ROLE 0 0 (.ctxRoleWrite role) fun s =>
  let n := s.fld CPL_CTXSEL_CONTEXT 0
  let x := s.ctx n
  if x.state != 1 || x.queues.any (fun e => !e.2.running.isEmpty) then ok s
  else
    let s1 := s.setFld CPL_CTXROLE_ROLE 0 n role
    ok (if s.pairRole n == 1 || role.val == 1 then s1.mirrorContext n else s1)

/-- MIRROR_COPY_ACCEPT (R643, R645): the coupler NI accepts the copy of the write at the front of an edge port, cut to its mirror range and widened to
whole 16-byte units; the write enters its queue. -/
def execMirrorCopyAccept (c : Car) (e : Fin 8) (s : State) : Res :=
  match mget [] (s.hbmCtl (c * 2 + e / 4)).edgeIn e with
  | [] => ok s
  | p :: _ =>
    let q := reqOfPacket p
    if !s.needsCopy p then ok s
    else match s.mirrorRange q.1 q.2.1 with
      | none => ok s
      | some (lb, pb) =>
        let t := s.hbmEnter c e true
        if (mget [] (t.hbmCtl (c * 2 + e / 4)).edgeIn e).length == (mget [] (s.hbmCtl (c * 2 + e / 4)).edgeIn e).length then ok s
        else
          let top := ((List.range 16).filter (fun i => s.flag CPL_MRNG_EN 0 i && s.fld CPL_MRNG_LBASE 0 i * 2 ^ 21 == lb)).foldl (fun m i =>
            max m (lb + s.fld CPL_MRNG_SIZE 0 i * 2 ^ 21)) lb
          let lo := max lb q.1
          let u := coverUnits lo (min top (q.1 + q.2.1) - lo)
          ok (t.mirrorSend c 6 p.ctx (u.1 - lb + pb) (overlayFrom q.1 p.data u.1 (s.hbmPeek u.1 u.2))).2

end Sys2Proof.Machine
end

