-- ==== Sys2Proof/Machine/Pcie.lean ====
section
/-! DEFINITION. The PCIe ports (R544 to R549, R694): device requests to host pages, ATS, PERST_N, function level reset. -/

namespace Sys2Proof.Machine

/-- Unit number of a port. -/
def pcieUnit (p : Nat) : Nat := p * 256 + 0x53

/-- A port's state. -/
def State.port (s : State) (p : Nat) : PortS := mget {} s.ports p

/-- Change a port. -/
def State.updPort (s : State) (p : Nat) (f : PortS → PortS) : State := { s with ports := mupd {} s.ports p f }

/-! ### Device requests to host pages (R547) -/

/-- A device request ends in error: with AUX 1 (NOTPRESENT) where the host refuses a translation, else MEMERR. -/
def State.hostFail (s : State) (p : Nat) (pkt : Packet) (code : Nat) : State :=
  s.inject (pcieUnit p) { responseTo pkt (if pkt.vn == 2 then 1 else 0) 0 [] with bad := true, aux := code, src := pcieUnit p }

/-- A device request goes to the host at an address; a write is posted, and acknowledged at once. -/
def State.hostAccess (s : State) (p : Nat) (pkt : Packet) (a : Nat) : State :=
  let fn := s.ctxFn pkt.ctx
  if pkt.vn == 2 then (s.emit (.hostWrite p fn a pkt.data)).respond (pcieUnit p) pkt 1 0 []
  else { s with hostReq := s.hostReq ++ [({ port := p, pkt := pkt, asked := false } : HostReq)] }.emit (.hostRead p fn a (pkt.len * 16) (pkt.uid % 1024))

/-- Key of an ATS cache entry. -/
def atsKey (fn page : Nat) : Nat := fn * 2 ^ 52 + page % 2 ^ 52

/-- A device request reaches a port (R547): where ATS is enabled on the function, it goes to a translated address that the cache holds, or the port asks. -/
def State.hostIn (s : State) (p : Nat) (pkt : Packet) : State :=
  let t := s.port p
  let fn := s.ctxFn pkt.ctx
  if !t.up then s.hostFail p pkt 4
  else if t.ats.contains fn then
    match mget 0 t.cache (atsKey fn (pkt.addr / 4096)) with
    | 0 => { s with hostReq := s.hostReq ++ [({ port := p, pkt := pkt, asked := true } : HostReq)] }.emit (.atsRequest p fn pkt.addr)
    | x + 1 => s.hostAccess p pkt (x * 4096 + pkt.addr % 4096)
  else s.hostAccess p pkt pkt.addr

/-- ATS_RESPONSE (R547): the oldest translation asked for. -/
def execAtsResponse (p : Fin 4) (t : Option (BitVec 52)) (s : State) : Res := s.outside (rankPort p) (.atsResponse p t) fun s =>
  match s.hostReq.find? (fun r => r.port == p.val && r.asked) with
  | none => ok s
  | some r =>
    let s1 := { s with hostReq := s.hostReq.erase r }
    match t with
    | none => ok (s1.hostFail p r.pkt 1)
    | some page =>
      let s2 := s1.updPort p (fun q => { q with cache := mset 0 q.cache (atsKey (s.ctxFn r.pkt.ctx) (r.pkt.addr / 4096)) (page.toNat + 1) })
      ok (s2.hostAccess p r.pkt (page.toNat * 4096 + r.pkt.addr % 4096))

/-- HOST_COMPLETION (R547): a read is answered, or ends with MEMERR. -/
def execHostCompletion (p : Fin 4) (i : Nat) (good : Bool) (data : List Byte) (s : State) : Res := s.outside (rankPort p) (.hostCompletion p i good data) fun s =>
  match (s.hostReq.filter (fun r => r.port == p.val && !r.asked))[i]? with
  | none => ok s
  | some r =>
    let s1 := { s with hostReq := s.hostReq.erase r }
    let n := r.pkt.len * 16
    if good && decide (n ≤ data.length) then ok (s1.respond (pcieUnit p) r.pkt 0 0 ((data.take n).map BitVec.toNat))
    else ok (s1.hostFail p r.pkt 4)

/-- ATS_INVALIDATION (R544): the entries of a range of pages of a function become invalid. -/
def execAtsInvalidation (p : Fin 4) (fn : Fin 257) (page : BitVec 52) (pages : Nat) (s : State) : Res := s.outside (rankPort p) (.atsInvalidation p fn page pages) fun s =>
  ok (s.updPort p (fun q => { q with cache := mdrop (fun k => decide (atsKey fn page.toNat ≤ k) && decide (k < atsKey fn page.toNat + pages) && k / 2 ^ 52 == fn.val) q.cache }))

/-- Every device request through a port that meets a condition ends with MEMERR (R549). -/
def State.failHost (s : State) (p : Nat) (hit : HostReq → Bool) : State :=
  let gone := s.hostReq.filter (fun r => r.port == p && hit r)
  gone.foldl (fun t r => t.hostFail p r.pkt 4) { s with hostReq := s.hostReq.filter (fun r => !(r.port == p && hit r)) }

/-! ### PERST_N and FLR (R549, R694) -/

/-- The admin-ring registers of a port (R549). -/
def admRegs : List Fld := [QUE_ADMSQ_ADDR, QUE_ADMCQ_ADDR, QUE_ADMCFG_LOG2, QUE_ADMCFG_VEC, QUE_ADMCFG_EN, QUE_ADMTAIL_INDEX, QUE_ADMCQHEAD_INDEX]

/-- A port's admin rings return to reset: a command of theirs in progress goes on without an answer. -/
def State.dropAdmin (s : State) (p : Nat) : State :=
  let s1 := s.resetFields .cold (fun f u _ => admRegs.contains f && u == p)
  let s2 := { s1 with adm := mset {} s1.adm p {} }
  match s.admBusy with
  | none => s2
  | some a =>
    if a.port != p then s2
    else if a.opc == 5 then { s2 with admBusy := none }.updCoach a.src (fun c => { c with moving := none })
    else { s2 with admBusy := none }.updCtx a.ctx (fun x => { x with admEnd := false })

/-- PERST_ASSERT (R549): the port returns to reset, the contexts that its functions own are braked with PORTRESET, device requests through it end with
MEMERR. -/
def execPerstAssert (p : Fin 4) (s : State) : Res := s.outside (rankPort p) (.perstAssert p) fun s =>
  let s1 := s.dropAdmin p
  let s2 := (s1.brakeWhere (fun _ x => x.port == p.val && x.state != 0) 3).failHost p (fun _ => true)
  ok (s2.updPort p (fun q => { slots := q.slots }))

/-- PERST_RELEASE (R694): the port's link comes up, and it answers configuration requests once the device has powered up. -/
def execPerstRelease (p : Fin 4) (vfs : Fin 257) (ats : List (Fin 257)) (s : State) : Res := s.outside (rankPort p) (.perstRelease p vfs ats) fun s =>
  if (s.port p).up then ok s
  else ok (s.updPort p (fun q => { up := true, ready := s.pm.rails == 6 && !s.pm.inPor, vfs := vfs, ats := ats.map Fin.val, slots := q.slots }))

/-- FLR (R549): of a VF, or of the PF and with it every VF. -/
def execFlr (p : Fin 4) (v : Option (Fin 256)) (s : State) : Res := s.outside (rankPort p) (.flr p v) fun s =>
  if !(s.port p).up then ok s
  else match v with
    | none =>
      let s1 := (s.brakeWhere (fun _ x => x.port == p.val && x.state != 0) 3).failHost p (fun _ => true)
      ok (s1.updPort p (fun q => { q with vfs := 0, ats := [], cache := [] }))
    | some f =>
      let fn := 1 + f.val
      let s1 := (s.brakeWhere (fun _ x => x.port == p.val && x.isvf && x.vf == f.val && x.state != 0) 3).failHost p (fun r => s.ctxFn r.pkt.ctx == fn)
      ok (s1.updPort p (fun q => { q with ats := q.ats.filter (· != fn), cache := mdrop (fun k => k / 2 ^ 52 == fn) q.cache }))

end Sys2Proof.Machine
end

