-- ==== Sys2Proof/Machine/Test.lean ====
section
/-! DEFINITION. Test, debug and perturbation (R666 to R684): the test access port, coach self-test, the debug gate, perturbation registers, eFuses. -/

namespace Sys2Proof.Machine

/-! ### Boundary scan (R666 to R669) -/

/-- Whether the restricted instructions take effect (R669). -/
def State.scanAllowed (s : State) : Bool := (s.fld CFG_STATE_STATE 0 == 0 || s.fld CFG_STATE_STATE 0 == 6) && !s.anyBound

/-- What the pins do now: 0 their function, 3 driven from the cells, 4 held (CLAMP), 5 floating, 6 and 7 the test patterns of IEEE 1149.6. A
restricted instruction that is no longer allowed selects the bypass register, and the pins are unaffected (R669). -/
def State.scanMode (s : State) : Nat := if 3 ≤ s.tap.ir && s.scanAllowed then s.tap.ir else 0

/-- An instruction takes force, with the boundary cells as given; the pins follow it. -/
def State.setTap (s : State) (ir : Nat) (cells : List Bool) : State :=
  let s1 := { s with tap := { ir := ir, cells := cells } }
  s1.emit (.scan s1.scanMode cells)

/-- The bypass register: one cell that captures 0. -/
def State.shiftBypass (s : State) (shift : List Bool) : State := s.emit (.tdo ((false :: shift).take shift.length))

/-- BYPASS (R666). -/
def execBypass (shift : List Bool) (s : State) : Res := ok ((s.setTap 1 s.tap.cells).shiftBypass shift)

/-- The identification code (R668). -/
def State.idcode (s : State) : Nat := 1 + Config.maker % 2 ^ 11 * 2 + 0x9C96 * 2 ^ 12 + s.fld DEV_ID_STEPL 0 * 2 ^ 28

/-- IDCODE (R668): least significant bit first. -/
def execIdcode (s : State) : Res := ok ((s.setTap 0 s.tap.cells).emit (.tdo ((List.range 32).map (fun i => s.idcode.testBit i))))

/-- The boundary register captures the pins, shifts them out and takes the bits shifted in. -/
def State.scanCells (s : State) (ir : Nat) (pins shift : List Bool) : State :=
  (s.emit (.tdo ((pins ++ shift).take shift.length))).setTap ir ((pins ++ shift).drop shift.length)

/-- SAMPLE/PRELOAD (R666): the pins keep their function. -/
def execSamplePreload (pins shift : List Bool) (s : State) : Res := ok (s.scanCells 2 pins shift)

/-- A restricted instruction (R669): where it may not act it selects the bypass register. `bypass` says that it shifts the bypass register anyway. -/
def State.restricted (s : State) (ir : Nat) (bypass : Bool) (pins shift : List Bool) : State :=
  if !s.scanAllowed then (s.setTap 1 s.tap.cells).shiftBypass shift
  else if bypass then (s.setTap ir s.tap.cells).shiftBypass shift
  else s.scanCells ir pins shift

/-- EXTEST (R669). -/
def execExtest (pins shift : List Bool) (s : State) : Res := ok (s.restricted 3 false pins shift)
/-- CLAMP (R669). -/
def execClamp (pins shift : List Bool) (s : State) : Res := ok (s.restricted 4 true pins shift)
/-- HIGHZ (R669). -/
def execHighz (pins shift : List Bool) (s : State) : Res := ok (s.restricted 5 true pins shift)
/-- EXTEST_PULSE (R667, R669). -/
def execExtestPulse (pins shift : List Bool) (s : State) : Res := ok (s.restricted 6 false pins shift)
/-- EXTEST_TRAIN (R667, R669). -/
def execExtestTrain (pins shift : List Bool) (s : State) : Res := ok (s.restricted 7 false pins shift)

/-- TAP_RESET (R666): IEEE 1149.1 selects IDCODE, and the pins have their function. -/
def execTapReset (s : State) : Res := ok (s.setTap 0 [])

/-! ### Self-test (R670 to R672) -/

/-- Mark a coach in DEV_STFAIL, or clear its mark. -/
def State.markCoach (s : State) (k : Nat) (failed : Bool) : State :=
  let w := s.fld DEV_STFAIL_FAIL 0 (k / 32)
  s.setFld DEV_STFAIL_FAIL 0 (k / 32) (w - bitsOf w (k % 32) 1 * 2 ^ (k % 32) + b2n failed * 2 ^ (k % 32))

/-- What the memories of a coach hold after the test of R671: store, bank and weight sets zero; of its vector registers the spec says nothing, so they
hold free values (log 49). -/
def State.testedCoach (s : State) (k : Nat) : State :=
  let s1 := { s with store := mdrop (fun x => x / storeSize == k) s.store, bank := mdrop (fun x => x / 131072 == k) s.bank }
  let s2 := (s1.updCoach k (fun c => { c with set0 := {}, set1 := {} })).draws 32 32768
  { s2.2 with vreg := mblock 0 s2.2.vreg (k * 32768) s2.1 }

/-- COACH_SELF_TEST_DONE (R671, R672): the granted self-test of an UNBOUND coach ends. -/
def execCoachSelfTestDone (k : Coach) (part : BitVec 6) (s : State) : Res :=
  if !s.arb.running.any (fun r => r.kind == 6 && r.unit == k.val) then ok s
  else
    let s1 := (s.testedCoach k).markCoach k (part.toNat != 0)
    let s2 := s1.setFlds 0 0 [(DEV_STRES_COACH, k), (DEV_STRES_RESULT, if part.toNat == 0 then 1 else 2), (DEV_STRES_PART, part.toNat), (DEV_STRES_EVENT, 1)]
    ok (s2.mntEnd 6 k)

/-! ### Debug access (R673 to R676) -/

/-- DEBUG_REQUEST (R674, R675): a fresh nonce. -/
def execDebugRequest (level : Bool) (s : State) : Res := s.regEvent DEV_DBG_REQ 0 0 (.debugRequest level) fun s =>
  if s.flag DEV_DBG_LOCKED 0 then ok s
  else
    let d := s.draws 32 4
    let s1 := (List.range 4).foldl (fun t w => t.setFld DEV_DBGNONCE_NONCE 0 w (d.1.getD w 0)) d.2
    ok { s1 with dbgNonce := true, dbgLevel := if level then 2 else 1 }

/-- Value of a field of `n` 32-bit words. -/
def State.wordsOf (s : State) (f : Fld) (n : Nat) : Nat := ((List.range n).map (fun w => s.fld f 0 w * 2 ^ (32 * w))).foldl (· + ·) 0

/-- DEBUG_RESPONSE_SUBMIT (R674, R675): the write of DEV_DBGRESP7. Each nonce serves one submission. -/
def execDebugResponseSubmit (v : BitVec 32) (s : State) : Res := s.regEvent DEV_DBGRESP_RESP 0 7 (.debugResponseSubmit v) fun s =>
  let s0 := s.setFld DEV_DBGRESP_RESP 0 7 v.toNat
  if !s.dbgNonce then ok s0
  else
    let s1 := { s0 with dbgNonce := false }.setFld DEV_DBG_EVENT 0 0 1
    let want := Config.debugResponse s.dbgKey (s.wordsOf DEV_DBGNONCE_NONCE 4) s.dbgLevel % 2 ^ 256
    if s.dbgKey != 0 && s0.wordsOf DEV_DBGRESP_RESP 8 == want then
      ok ((s1.setFld DEV_DBG_LEVEL 0 0 s.dbgLevel).logEntry 0x0801 0x60 none s.dbgLevel 0)
    else
      let n := satAdd 3 (s.fld DEV_DBG_FAILS 0) 1
      let s2 := (s1.setFld DEV_DBG_FAILS 0 0 n).logEntry 0x0802 0x60 none n 0
      ok (if n == 3 then s2.setFld DEV_DBG_LOCKED 0 0 1 else s2)

/-- LEVEL returns to 0, and every perturbation register is disabled (R676, R678). -/
def State.debugClosed (s : State) : State := s.setFlds 0 0 [(DEV_DBG_LEVEL, 0), (DEV_PERTSTR_EN, 0), (DEV_PERTNOC_EN, 0), (DEV_PERTMEM_EN, 0)]

/-- DEBUG_CLOSE (R676). -/
def execDebugClose (s : State) : Res := s.regEvent DEV_DBG_REQ 0 0 .debugClose fun s => ok s.debugClosed

/-- PERT_WRITE (R678): it acts at level 1 or more. The periods of DEV_PERTSTR are counted from the write (R680). -/
def execPertWrite (which : Fin 3) (v : BitVec 32) (s : State) : Res :=
  s.regEvent (match which.val with | 0 => DEV_PERTSTR_EN | 1 => DEV_PERTNOC_EN | _ => DEV_PERTMEM_EN) 0 0 (.pertWrite which v) fun s =>
  let x := fun lo w => bitsOf v.toNat lo w
  if s.fld DEV_DBG_LEVEL 0 == 0 then ok s
  else match which.val with
    | 0 => ok { s.setFlds 0 0 [(DEV_PERTSTR_EN, x 0 1), (DEV_PERTSTR_LOG2P, x 1 4), (DEV_PERTSTR_STALL, x 5 11), (DEV_PERTSTR_CARMASK, x 16 4)] with
                  pertFrom := s.coachCycles }
    | 1 => ok (s.setFlds 0 0 [(DEV_PERTNOC_EN, x 0 1), (DEV_PERTNOC_CARRIAGE, x 1 2), (DEV_PERTNOC_ROUTER, x 3 6), (DEV_PERTNOC_PORT, x 9 3), (DEV_PERTNOC_HOLD, x 12 8)])
    | _ => ok (s.setFlds 0 0 [(DEV_PERTMEM_EN, x 0 1), (DEV_PERTMEM_EXTRA, x 1 7), (DEV_PERTMEM_CARMASK, x 8 4)])

/-! ### EFuses (R683, R684) -/

/-- FUSE_PROGRAM (R683): an unprogrammed target takes the value; it takes effect at the next cold reset. -/
def execFuseProgram (s : State) : Res := s.regEvent DEV_FUSE_PROG 0 0 .fuseProgram fun s =>
  let v := s.words8 DEV_FUSEDATA_DATA
  let t := s.fld DEV_FUSE_TARGET 0
  let old := match t with | 0 => s.fuses.image | 1 => s.fuses.debug | 2 => s.fuses.policy | _ => 0
  if s.fuses.locked || old != 0 then ok (s.setFlds 0 0 [(DEV_FUSE_ERR, 1), (DEV_FUSE_PROG, 0)])
  else
    let f := match t with
      | 0 => { s.fuses with image := v }
      | 1 => { s.fuses with debug := v }
      | 2 => { s.fuses with policy := v % 4 }
      | _ => s.fuses
    ok (({ s with fuses := f }.zero8 DEV_FUSEDATA_DATA).setFld DEV_FUSE_PROG 0 0 0)

/-- FUSE_LOCK (R684). -/
def execFuseLock (s : State) : Res := s.regEvent DEV_FUSE_LOCK 0 0 .fuseLock fun s => ok ({ s with fuses := { s.fuses with locked := true } }.setFlds 0 0 [(DEV_FUSE_LOCKED, 1), (DEV_FUSE_LOCK, 0)])

end Sys2Proof.Machine
end

