-- ==== Sys2Proof/Machine/PowerUp.lean ====
section
/-! DEFINITION. Power-up, POR_N, loss of power and wake from S3 (R586, R631, R670, R689 to R693). -/

namespace Sys2Proof.Machine

/-! ### What a cold reset and S3 leave -/

/-- Fields that show eFuses and the key RAM take their values (R683). -/
def State.showFuses (s : State) : State :=
  s.setFlds 0 0 [(KEY_STATUS_FUSEKEY, b2n (s.fuseKey != 0)), (KEY_POLICY_ENCREQ, bitsOf s.fuses.policy 0 1), (KEY_POLICY_FUSEONLY, bitsOf s.fuses.policy 1 1),
    (DEV_FUSE_LOCKED, b2n s.fuses.locked), (DEV_FUSE_DBGKEY, b2n (s.dbgKey != 0))]

/-- The state after reset, with what no reset touches: commands waiting, the free values drawn, what has left the device, modules and their media, eFuses,
the key RAM, the voltage at the I/O banks. -/
def State.bare (s : State) : State :=
  { State.reset with
      pending := s.pending, freeIx := s.freeIx, out := s.out, media := s.media, bays := mmap {} (fun b => { modl := { b.modl with present := false } }) s.bays,
      keyRam := s.keyRam, fuses := s.fuses, fuseKey := s.fuseKey, dbgKey := s.dbgKey, vsense := s.vsense }

/-- Cold reset: every field that a level clears takes its reset value; the event log stays (R631); programmed eFuses take effect (R683). -/
def State.coldReset (s : State) : State :=
  let s1 := s.resetFields .cold (fun _ _ _ => true)
  { s.bare with fields := s1.fields, log := s.log, aoCycles := s.aoCycles, fuseKey := s.fuses.image, dbgKey := s.fuses.debug,
                ports := mmap {} (fun q => { up := q.up }) s.ports }.showFuses

/-- The fields that the always-on domain keeps through S3 (R55, R429, R586): the power, clock and log registers, DEV_CARSTATE, DEV_STRAY and its count, the
identity of each bay's module, the RW fields of the bays, and the straps, which are not sampled again (R692). -/
def keptInS3 (f : Fld) : Bool :=
  match f.blk with
  | .dev => decide (0x100000 ≤ f.off ∧ f.off < 0x200000) || f.off == 0xC || f.off == 0x10 || f.off == 0x14 || f.off == 0x200018
  | .bay => f.acc == .rw || f.off == 0x10 || f.off == 0x18 || f.off == 0x1C
  | _ => false

/-- What a wake from S3 finds (R586): the always-on domain, the log, the key RAM, the kept port and the latched pads (R587); everything else as at reset. -/
def State.afterS3 (s : State) : State :=
  let s1 := s.resetFields .cold (fun f _ _ => !keptInS3 f)
  let k := s.fld PWR_CFG_KEEPPORT 0
  let s2 := { s.bare with fields := s1.fields, log := s.log, aoCycles := s.aoCycles, resp := s.resp, pm := s.pm, pwr := { s.pwr with stopped := [] }, tap := s.tap,
                          bays := mmap {} (fun b => { modl := b.modl }) s.bays,
                          fab := mmap {} (fun f => { latched := mmap 0 (fun v => v / 2 * 2) f.latched }) s.fab,
                          ports := (List.range 4).foldl (fun m p => mset ({} : PortS) m p (let q : PortS := mget {} s.ports p; if p == k then { q with slots := [] } else { up := q.up })) [] }
  let s3 := (List.range 4).foldl (fun t c => (List.range 24).foldl (fun t n =>
    if mget 0 (t.fabS c).latched n == 0 then t else t.setFlds c n [(IOB_PIN_HELD, 1), (IOB_PIN_DRIVEN, s.fld IOB_PIN_DRIVEN c n)]) t) s2
  s3.setFld CFG_SLOT_SLOT 0 0 (s.fld CFG_STRAP_ADDR 0)

/-! ### POR_N and loss of power -/

/-- Outputs that POR_N releases (R693): open-drain lands (level 1), and push-pull and bidirectional ones (level 2, high impedance). LOGFAIL_N is not among them
(R631). -/
def porReleases : List Output :=
  ["CFG_DONE", "CFG_ERR_N", "PWRCYC_REQ_N", "THERMTRIP_N", "REIN", "PMB_SCL", "PMB_SDA"].map (fun n => .pin n 1) ++
    ["HEARTBEAT", "TDO", "CFG_SCK", "CFG_CS_N", "CFG_DQ[0]", "CFG_DQ[1]", "CFG_DQ[2]", "CFG_DQ[3]"].map (fun n => .pin n 2) ++
    ["AVS_CLK0", "AVS_CLK1", "AVS_CLK2", "AVS_CLK3", "AVS_MDATA0", "AVS_MDATA1", "AVS_MDATA2", "AVS_MDATA3"].map (fun n => .pin n 2) ++
    (List.range 96).map (fun i => .uio (i / 24) (i % 24) none)

/-- POR_ASSERT (R631, R666, R693): fast clocks stop, rails turn off, every output is released, sequences end; the log keeps its entries. -/
def execPorAssert (s : State) : Res :=
  if s.pm.inPor then ok s
  else
    ok (porReleases.foldl (fun t o => t.emit o) ((s.logEntry 0x0601 0x61 none 0 0).railsOff).coldReset)

/-- The load that the straps select (Table 13.5). -/
def State.strapLoad (s : State) : State :=
  match s.fld CFG_STRAP_MODE 0 with
  | 0 => s.beginLoad 2 true
  | 1 => s.beginLoad 3 true
  | _ => s

/-- The first rail is commanded on (R690). -/
def State.startRails (s : State) : State := { s with pm := { s.pm with raising := true, rails := 0, tries := 0 } }.emit (.rail 0 true)

/-- POR_RELEASE (R521, R522, R689): straps are sampled, the always-on clock runs, the rails begin to rise, and a load from flash is committed. -/
def execPorRelease (mode : BitVec 2) (addr : BitVec 6) (vsense : BitVec 4) (s : State) : Res :=
  if !s.pm.inPor then ok s
  else
    let s1 := { s with pm := { s.pm with inPor := false }, vsense := vsense.toNat }
    let s2 := s1.setFlds 0 0 [(CFG_STRAP_MODE, mode.toNat), (CFG_STRAP_ADDR, addr.toNat), (CFG_SLOT_SLOT, addr.toNat)]
    let s3 := (List.range 4).foldl (fun t c => t.setFld IOB_BANK_VSENSE c 0 (bitsOf vsense.toNat c 1)) s2
    ok s3.startRails.strapLoad

/-- POWER_REMOVAL (R631): the always-on supply falls: the log and LOGFAIL_N are lost, the key RAM stays on its battery. -/
def execPowerRemoval (s : State) : Res :=
  let s1 := { s.bare with fuseKey := s.fuses.image, dbgKey := s.fuses.debug }
  ok (((s1.setFlds 0 0 [(KEY_STATUS_RAMVALID, s.fld KEY_STATUS_RAMVALID 0), (KEY_STATUS_VBATOK, s.fld KEY_STATUS_VBATOK 0)]).showFuses).emit (.pin "LOGFAIL_N" 1))

/-! ### Rails (R690, R691) -/

/-- PMBus address of a carriage's regulator for a step of Table 19.3 (Table 19.1). -/
def railAddr (step c : Nat) : Nat := (if step == 5 then 0x40 else 0x44 + 4 * step) + c

/-- The rails turn off in reverse order, and a power cycle is asked for (R690, R691). -/
def State.railsFail (s : State) (addrs : List Nat) : State :=
  let s1 := addrs.foldl (fun t a => t.logEntry 0x0200 0x61 none a 0) (s.railsOff)
  { s1.setFld REC_STATUS_PWRCYC 0 0 1 with pm := { s1.pm with dead := true } }.emit (.pin "PWRCYC_REQ_N" 0)

/-- The self-test at power-up marks the coaches that fail and logs the L2s that do (R670). -/
def State.selfTest (s : State) (fails : List Coach) (l2 : List Car) : State :=
  let s1 := fails.foldl (fun t k => t.markCoach k.val true) s
  l2.foldl (fun t c => t.logEntry 0x0200 0x60 none c.val 0) s1

/-- The rails are up: after S3 the device is as after a cold reset but for what it kept, and loads as its straps select (R586, R692); the self-test has run;
ports whose PERST_N is high answer configuration requests (R694). -/
def State.railsUp (s : State) (fails : List Coach) (l2 : List Car) : State :=
  let s1 := if s.pwr.s3 then
      let t := (s.afterS3).strapLoad
      let t1 := (List.range 4).foldl (fun t b => t.bayWake b) t
      ({ t1 with pwr := { t1.pwr with s3 := false } }.setFld PWR_STATUS_PHASE 0 0 0).pwrEvent
    else s
  let s2 := { s1 with pwr := { s1.pwr with volt := s1.profVolt s1.pwr.inForce }, ports := (List.range 4).foldl (fun m p => mupd {} m p (fun q => { q with ready := q.up })) s1.ports }
  s2.selfTest fails l2

/-- RAIL_GOOD (R589, R690): the rail in hand reads within tolerance, and the next is commanded; VDD_CORE at the voltage of the profile in force, which after a
cold reset is P-Full (Table 19.3, log 124). -/
def execRailGood (fails : List Coach) (l2 : List Car) (s : State) : Res :=
  if !s.pm.raising then ok s
  else
    let n := s.pm.rails + 1
    let s1 := { s with pm := { s.pm with rails := n, tries := 0, raising := decide (n < 6) } }
    if n == 5 then ok (((List.range 4).foldl (fun t c => t.emit (.avs c (10 * t.profVolt t.pwr.inForce))) s1).emit (.rail n true))
    else if n < 5 then ok (s1.emit (.rail n true))
    else ok (s1.railsUp fails l2)

/-- RAIL_TIMEOUT (R690): the rail in hand is commanded once more, then the rails turn off. `c` is the carriage whose regulator is at fault. -/
def execRailTimeout (c : Car) (s : State) : Res :=
  if !s.pm.raising then ok s
  else if s.pm.tries == 0 then ok ({ s with pm := { s.pm with tries := 1 } }.emit (.rail s.pm.rails true))
  else ok ((s.emit (.rail s.pm.rails false)).railsFail [railAddr s.pm.rails c])

/-- PMB_ALERT (R691). -/
def execPmbAlert (faulty : List (BitVec 8)) (s : State) : Res :=
  if s.pm.rails == 0 || faulty.isEmpty then ok s
  else
    let s1 := if s.pm.raising then s.emit (.rail s.pm.rails false) else s
    ok (s1.railsFail (faulty.map BitVec.toNat))

end Sys2Proof.Machine
end

