-- ==== Sys2Proof/Machine/Registers.lean ====
section
/-! DEFINITION. Accesses to BAR0 (R17 to R27, R49 to R57): where an offset leads, what a read shows, what a write stores, register pairs, and
the accesses that reach no register. A field whose write is a command of its own (a row of the table) is left to that command. -/

namespace Sys2Proof.Machine

/-! ### Accesses that reach no register (R18, R22, R53 to R57) -/

/-- MISALIGNED_ACCESS (R18). -/
def execMisalignedAccess (off : BitVec 30) (bytes : Nat) (write : Bool) (s : State) : Res :=
  if s.reach off.toNat bytes == .misaligned then ok (s.missed .misaligned off.toNat write) else ok s

/-- UNNAMED_OFFSET_ACCESS (R22). -/
def execUnnamedOffsetAccess (off : BitVec 30) (write : Bool) (s : State) : Res :=
  if s.reach off.toNat 4 == .unnamed then ok (s.missed .unnamed off.toNat write) else ok s

/-- RESERVED_RANGE_ACCESS (R53). -/
def execReservedRangeAccess (off : BitVec 30) (write : Bool) (s : State) : Res :=
  if s.reach off.toNat 4 == .reserved then ok (s.missed .reserved off.toNat write) else ok s

/-- NOT_ANSWERING_ACCESS (R54). -/
def execNotAnsweringAccess (off : BitVec 30) (write : Bool) (s : State) : Res :=
  if s.reach off.toNat 4 == .silent then ok (s.missed .silent off.toNat write) else ok s

/-! ### Reads -/

/-- Index of the delays that HBM_DLYSEL selects, beside the controller and the set. -/
def State.dlyIndex (s : State) (u i : Nat) : Nat := i + 4 * (s.fld HBM_DLYSEL_CHAN u (i / 2) + 32 * s.fld HBM_DLYSEL_LANE u (i / 2))

/-- Whether a field is one of the delays of HBM_DLYDATA. -/
def isDly (f : Fld) : Bool := f == HBM_DLYDATA_RDLY || f == HBM_DLYDATA_WDLY || f == HBM_DLYDATA_VREF

/-- Entries that are frozen in a carriage's NIs (NOC_FROZEN). -/
def State.frozenIn (s : State) (c : Nat) : Nat :=
  (s.net.sheet.filter (fun e => e.1 % 4 == 3 && e.1 / 1024 / 256 == c && bitsOf e.2 30 1 == 1)).length

/-- QUE_CTXINFO of the context that QUE_CTXSEL selects. -/
def State.ctxInfo (s : State) (u : Nat) (f : Fld) : Option Nat :=
  let n := s.fld QUE_CTXSEL_CONTEXT u
  let x := s.ctx n
  if f == QUE_CTXINFO_STATE then some x.state
  else if f == QUE_CTXINFO_PART then some x.part
  else if f == QUE_CTXINFO_PORT then some x.port
  else if f == QUE_CTXINFO_ISVF then some (b2n x.isvf)
  else if f == QUE_CTXINFO_VF then some x.vf
  else if f == QUE_CTXINFO_COACHES then some ((List.range 96).filter (fun k => s.boundCtx k == some n)).length
  else none

/-- What a read shows of a field: its value, or the view that a selecting register gives; a WO field shows zero (R23). -/
def State.view (s : State) (x : Slot) : Nat :=
  let f := x.f
  let u := x.u
  let i := x.i
  if f.acc == .wo then 0
  else if f == DEV_SERIAL_SERIAL then Config.serial % 2 ^ 64
  else if f == NOC_RSDATA_WORD then s.sheetWord (u * 256 + s.fld NOC_RSSEL_UNIT u) (s.fld NOC_RSSEL_ENTRY u) i
  else if f == NOC_FROZEN_COUNT then s.frozenIn u
  else if f == NOC_PRB_TRDATA_WORD then
    bitsOf ((mget [] s.net.probe (u * 4 + i / 3)).getD (s.fld NOC_PRB_TRIDX_INDEX u (i / 3)) 0) (32 * (i % 3)) 32
  else if isDly f then (if 8 < s.fld HBM_DLYSEL_LANE u (i / 2) then 0 else s.fld f u (s.dlyIndex u i))
  else if f == CPL_CTXROLE_ROLE then s.fld CPL_CTXROLE_ROLE 0 (s.fld CPL_CTXSEL_CONTEXT 0)
  else if f == LOG_STATUS_RDVALID then b2n s.logRead.isSome
  else if f == LOG_RDDATA_WORD then (match s.logRead with | some e => leNat ((e.bytes.drop (4 * i)).take 4) | none => 0)
  else if f == FW_VER_BUILD || f == FW_VER_MINOR || f == FW_VER_IFACE then bitsOf (Config.fwVer i) f.lsb f.w
  else if f == FW_DIGEST_DIGEST then Config.fwDigest (i / 12) (i % 12) % 2 ^ 32
  else match s.ctxInfo u f with
    | some v => v
    | none => s.fld f u i

/-- A slot's part of its word as a read shows it. -/
def State.slotWord (s : State) (x : Slot) : Nat :=
  let v := s.view x * 2 ^ x.f.lsb
  if !x.f.pair then v else if x.hi then s.latchedHigh x.f x.u x.i (v / 2 ^ 32) else v % 2 ^ 32

/-- The word that a read of a register returns. -/
def State.regWord (s : State) (off : Nat) : Nat := ((s.slots off).map s.slotWord).foldl (· + ·) 0

/-- The pair whose low word (or high word, with `hi`) lies at an offset. -/
def State.pairAt (s : State) (off : Nat) (hi : Bool) : Option Slot := (s.slots off).find? (fun x => x.f.pair && x.hi == hi)

/-- A read of a register that is no pair's word: its RC fields are cleared after the read (R23, R26). -/
def State.readRegister (s : State) (off : Nat) : State :=
  let s1 := (s.slots off).foldl (fun t x => if x.f.acc == .rc then t.setFld x.f x.u x.i 0 else t) s
  { s1 with resp := .data (s.regWord off) }

/-! ### Writes -/

/-- Fields whose write is a command of its own. -/
def ownRow (f : Fld) : Bool :=
  [NUM_CTRCLR_SATTOT, NUM_CTRCLR_FLUSHTOT, NUM_CTRCLR_NANBLKTOT, STR_CTL_START, STR_CTL_STOP, STR_RESUME_GO, STR_INVAL_CONTEXT, STR_INVAL_KIND,
   DMA_HEAD_HEAD, DMA_CTL_RUN, DMA_CTL_ABORT, DMA_STATUS_STOPPED, DMA_INVAL_CONTEXT, DMA_INVAL_KIND, DEV_LSCTL_ENABLE, DEV_REINCTL_CMD].contains f ||
  [HBM_CTL_MODE, HBM_CTL_FCREQ, HBM_TRCMD_PC, HBM_TRCMD_OP, TND_CTL_ATTACH, TND_CTL_DETACH, TND_MAINT_START, TND_MAINT_STOP, LNK_CTL_TRAIN,
   LNK_LANECTL_TEST, FAB_SCRUB_START, IOB_DLY_TARGET, CFG_CTL_START, CFG_CTL_ABORT, KEY_CTL_RAMLOCK, KEY_CTL_RAMCOMMIT, KEY_CTL_RAMCLEAR].contains f ||
  [QUE_ADMTAIL_INDEX, PWR_CMD_STATE, PWR_CMD_CARMASK, PWR_PROFILE_SEL, PWR_PADREL_CAR, REC_CTXCMD_CONTEXT, REC_CTXCMD_OP, REC_CTL_CHIPRST,
   REC_MNTREQ_KIND, REC_MNTREQ_UNIT, CPL_CTL_RESYNC, CPL_CTXROLE_ROLE, DEV_DBG_REQ, DEV_FUSE_PROG, DEV_FUSE_LOCK, HBM_ADJMAP_PERM].contains f ||
  [DEV_PERTSTR_EN, DEV_PERTSTR_LOG2P, DEV_PERTSTR_STALL, DEV_PERTSTR_CARMASK, DEV_PERTNOC_EN, DEV_PERTNOC_CARRIAGE, DEV_PERTNOC_ROUTER,
   DEV_PERTNOC_PORT, DEV_PERTNOC_HOLD, DEV_PERTMEM_EN, DEV_PERTMEM_EXTRA, DEV_PERTMEM_CARMASK].contains f

/-- R253: the configuration registers of a stream. -/
def isStrCfg (f : Fld) : Bool :=
  [STR_CFG_DIR, STR_CFG_TRANS, STR_CFG_TW, STR_CFG_CLASS, STR_BUF_BASE, STR_HALF_HALF, STR_RATE_RATE, STR_SRC_SRC, STR_ROWLEN_ROWLEN, STR_ROWS_ROWS,
   STR_STRIDE1_STRIDE1, STR_PLANES_PLANES, STR_STRIDE2_STRIDE2].contains f

/-- The registers of a controller's timing sets (R384, R385). -/
def isTset (f : Fld) : Bool :=
  [HBM_TSET_RATE, HBM_TSET_VALID, HBM_TSET_RL, HBM_TSET_WL, HBM_TSET_TRCD, HBM_TSET_TRP, HBM_TSET_TRAS, HBM_TSET_TRTP, HBM_TSET_TWR, HBM_TSET_TRRD,
   HBM_TSET_TFAW, HBM_TSET_TRFCAB, HBM_TSET_TRFCPB, HBM_TSET_TREFI].contains f || isDly f

/-- R385: whether set `i % 2` of controller `i / 2` of a carriage may be written. -/
def State.setOpen (s : State) (u i : Nat) : Bool :=
  let m := s.fld HBM_CTL_MODE u (i / 2)
  m == 0 || m == 1 || s.fld HBM_STATUS_ACTSET u (i / 2) != i % 2

/-- R452: whether a word written to LNK_TAPINIT is an allowed setting. -/
def tapWordAllowed (v : Nat) : Bool :=
  decide (24 ≤ bitsOf v 8 6) && tapsAllowed [bitsOf v 0 3, bitsOf v 4 4, bitsOf v 8 6, bitsOf v 16 4, bitsOf v 20 3]

/-- Whether the written value `x` of a field is taken, `v` being the word: the ranges and the states that the register tables and the rules
named there set. -/
def State.takes (s : State) (y : Slot) (v x : Nat) : Bool :=
  let f := y.f
  let u := y.u
  if isStrCfg f then let st := s.fld STR_STATE_STATE u y.i; !(st == 1 || st == 2 || st == 3)
  else if isTset f then s.setOpen u y.i && (!isDly f || decide (s.fld HBM_DLYSEL_LANE u (y.i / 2) ≤ 8))
  else match f.blk with
  | .coach =>
    if f == ACC_SPILLBASE_BASE then s.fld ACC_SPILLUSED_USED u == 0 && decide (x * 16 + 80 * s.fld ACC_SPILLSLOTS_SLOTS u ≤ storeSize)
    else if f == ACC_SPILLSLOTS_SLOTS then s.fld ACC_SPILLUSED_USED u == 0 && decide (s.fld ACC_SPILLBASE_BASE u * 16 + 80 * x ≤ storeSize)
    else true
  | .hbm => if f == HBM_NRCTL_K then decide (6 ≤ x) && decide (x ≤ 12) else true
  | .bay =>
    if f == TND_RETRY_MS then decide (10 ≤ x) && decide (x ≤ 60000)
    else if f == TND_MAINT_LIMIT then x != 0
    else true
  | .lane =>
    if f == LNK_CTL_ENABLE then x == 1
    else if f.off == 8 then tapWordAllowed v
    else true
  | .fab => !(f == FAB_CLKCFG_DIV || f == FAB_CLKCFG_EN)
  | .que =>
    if f == QUE_ADMSQ_ADDR || f == QUE_ADMCQ_ADDR || f == QUE_ADMCFG_LOG2 then !s.flag QUE_ADMCFG_EN u
    else f != QUE_ADMCQHEAD_INDEX
  | .dev =>
    if f == DEV_LSCTL_SLOT then decide (8 ≤ x) && decide (x ≤ 16)
    else if f == CFG_TMO_MS || f == REC_MNTDEFER_MS || f == LOG_PFWN_COUNT then x != 0
    else if f == CFG_SLOT_SLOT then let st := s.fld CFG_STATE_STATE 0; x != 0xFFFF && !(st == 1 || st == 2 || st == 3)
    else if f == KEY_RAMDATA_DATA then !s.keyLocked
    else if f == PWR_PROFILE_STEPV then decide (65 ≤ x) && decide (x ≤ 82) && s.fld PWR_PROFILE_SEL 0 != 3
    else if f == PWR_THRCTL_TSOFT then decide (70 ≤ x) && decide (x ≤ 100)
    else if f == PWR_PLIM_WATTS then decide (1000 ≤ x) && decide (x ≤ 2800)
    else if f == REC_HANGTMO_US || f == REC_PEERTMO_US then x == 0 || decide (10 ≤ x)
    else if f == REC_SCHEDTMO_US then decide (200 ≤ x) && decide (x ≤ 10000)
    else if f == CPL_CTL_MODE then !(List.range 1024).any (fun n => let r := s.fld CPL_CTXROLE_ROLE 0 n; r == 1 || r == 2)
    else if f == CPL_MRNG_LBASE || f == CPL_MRNG_PBASE || f == CPL_MRNG_SIZE then !s.flag CPL_MRNG_EN 0 y.i
    else if f == DEV_DBGRESP_RESP then y.i != 7
    else true
  | _ => true

/-- MORE of the record whose VALID a write of 1 clears, where clearing the one clears the other. -/
def moreOf (f : Fld) : Option Fld :=
  if f == NUM_TRAPINFO_VALID then some NUM_TRAPINFO_MORE
  else if f == COA_FAULT_VALID then some COA_FAULT_MORE
  else if f == NOC_UEINFO_VALID then some NOC_UEINFO_MORE
  else if f == TND_ERRINFO_VALID then some TND_ERRINFO_MORE
  else if f == FAB_PORTSTAT_VALID then some FAB_PORTSTAT_MORE
  else if f == REC_FAULT_VALID then some REC_FAULT_MORE
  else none

/-- What a word written to a register does to one of its fields, by its access code (R21, R23); `s0` is the state before the write. -/
def State.writeSlot (s0 : State) (v : Nat) (s : State) (y : Slot) : State :=
  let f := y.f
  let x := bitsOf v f.lsb f.w
  if ownRow f then s
  else match f.acc with
    | .rw | .wo => if s0.takes y v x then s.setFld f y.u (if isDly f then s0.dlyIndex y.u y.i else y.i) x else s
    | .w1c =>
      let old := s.fld f y.u y.i
      let s1 := s.setFld f y.u y.i (old - (old &&& x))
      match moreOf f with
      | some m => if x == 1 then s1.setFld m y.u y.i 0 else s1
      | none => s1
    | _ => s

/-- What a write of some fields does beside storing them: a fabric clock (R486), the first slot of fixed refresh (R379), a probe's buffer (its MODE
is written), the admin rings (R569), the rein's role, which drives the line (R319), the marks that a master awaits (R324), the wear a bay warns of (R412). -/
def State.afterWrite (s0 : State) (v : Nat) (s : State) (y : Slot) : State :=
  if y.f == FAB_CLKCFG_DIV then s.clkCfgWrite y.u y.i v
  else if y.f == HBM_CTL_REFMODE then
    if s0.fld y.f y.u y.i == 0 && s.fld y.f y.u y.i == 1 then s.updHbm (y.u * 2 + y.i) (fun h => { h with slotBase := h.cyc }) else s
  else if y.f == NOC_PRB_SEL_MODE then
    { s.setFlds y.u y.i [(NOC_PRB_TRIDX_FILL, 0), (NOC_PRB_TRIDX_WRAPPED, 0)] with net := { s.net with probe := mset [] s.net.probe (y.u * 4 + y.i) [] } }
  else if y.f == QUE_ADMCFG_EN then (if !s0.flag QUE_ADMCFG_EN y.u && s.flag QUE_ADMCFG_EN y.u then s.admEnable y.u else s)
  else if y.f == QUE_ADMCQHEAD_INDEX then s.admRelease y.u (v % 2 ^ 12)
  else if y.f == DEV_REINCTL_ROLE then s.masterDecide.driveRein
  else if y.f == DEV_REINEXP_COUNT then s.masterDecide
  else if y.f == TND_WEARWARN_THRESH then s.judgeWear y.u
  else s

/-- A write of a register that is no pair's word. -/
def State.writeRegister (s : State) (off v : Nat) : State :=
  let ys := s.slots off
  { ys.foldl (s.afterWrite v) (ys.foldl (s.writeSlot v) s) with resp := .done }

/-- The value of a pair field that a 64-bit quantity holds. -/
def pairField (f : Fld) (q : Nat) : Nat := bitsOf q f.lsb f.w

/-- Whether a pair's words may be written. -/
def State.pairOpen (s : State) (y : Slot) : Bool := y.f.acc == .rw && (s.takes y 0 0 || y.f == HBM_ADJMAP_PERM)

/-! ### Whole accesses -/

/-- A read of any offset, as the unit that serves it completes it. -/
def State.busRead (s : State) (o : Nat) : State :=
  match s.reach o 4 with
  | .register =>
    match s.pairAt o false with
    | some x => { s.latchHigh x.f x.u x.i (s.view x * 2 ^ x.f.lsb / 2 ^ 32) with resp := .data (s.regWord o) }
    | none => s.readRegister o
  | r => s.missed r o false

/-- A write of any offset; fields whose write is a command of its own are left to that command. -/
def State.busWrite (s : State) (o v : Nat) : State :=
  match s.reach o 4 with
  | .register =>
    match s.pairAt o false, s.pairAt o true with
    | some y, _ => { (if s.pairOpen y then s.holdLow y.f y.u y.i v else s) with resp := .done }
    | none, some y =>
      if y.f == HBM_ADJMAP_PERM || !s.pairOpen y then { s with resp := .done }
      else
        let lo := s.heldLow y.f y.u y.i (s.fld y.f y.u y.i * 2 ^ y.f.lsb)
        { (s.dropLow y.f y.u y.i).setFld y.f y.u y.i (pairField y.f (lo + v * 2 ^ 32)) with resp := .done }
    | none, none => s.writeRegister o v
  | r => s.missed r o true

/-- Whether an offset names a word of a register pair. -/
def State.isPairWord (s : State) (o : Nat) : Bool := (s.slots o).any (fun x => x.f.pair)

/-- REGISTER_WRITE (R23), an event from outside (R310); a write of a pair's word has a row of its own. -/
def execRegisterWrite (off : BitVec 30) (v : BitVec 32) (s : State) : Res :=
  if s.isPairWord off.toNat then ok s else s.outside (rankPort 0) (.registerWrite off v) fun s => ok (s.busWrite off.toNat v.toNat)

/-- READ_CLEAR (R26): a read of a register; a read of a pair's word has a row of its own. -/
def execReadClear (off : BitVec 30) (s : State) : Res := if s.isPairWord off.toNat then ok s else ok (s.busRead off.toNat)

/-- PAIR_LOW_READ (R19). -/
def execPairLowRead (off : BitVec 30) (s : State) : Res :=
  if (s.pairAt off.toNat false).isSome then ok (s.busRead off.toNat) else ok s

/-- PAIR_HIGH_READ (R19). -/
def execPairHighRead (off : BitVec 30) (s : State) : Res :=
  if (s.pairAt off.toNat true).isSome then ok (s.busRead off.toNat) else ok s

/-- PAIR_LOW_WRITE (R20). -/
def execPairLowWrite (off : BitVec 30) (v : BitVec 32) (s : State) : Res :=
  if (s.pairAt off.toNat false).isSome then s.outside (rankPort 0) (.pairLowWrite off v) fun s => ok (s.busWrite off.toNat v.toNat) else ok s

/-- PAIR_HIGH_WRITE (R20); HBM_ADJMAP_HI has a row of its own. -/
def execPairHighWrite (off : BitVec 30) (v : BitVec 32) (s : State) : Res :=
  if (s.pairAt off.toNat true).isSome then s.outside (rankPort 0) (.pairHighWrite off v) fun s => ok (s.busWrite off.toNat v.toNat) else ok s

/-! ### Running totals (R99) -/

/-- CLEAR_SATTOT (R99). -/
def execClearSattot (k : Coach) (s : State) : Res := s.regEvent NUM_CTRCLR_SATTOT k 0 (.clearSattot k) fun s => ok (s.setFld NUM_SATTOT_SATTOT k 0 0)
/-- CLEAR_FLUSHTOT (R99). -/
def execClearFlushtot (k : Coach) (s : State) : Res := s.regEvent NUM_CTRCLR_FLUSHTOT k 0 (.clearFlushtot k) fun s => ok (s.setFld NUM_FLUSHTOT_FLUSHTOT k 0 0)
/-- CLEAR_NANBLKTOT (R99). -/
def execClearNanblktot (k : Coach) (s : State) : Res := s.regEvent NUM_CTRCLR_NANBLKTOT k 0 (.clearNanblktot k) fun s => ok (s.setFld NUM_NANBLKTOT_NANBLKTOT k 0 0)

end Sys2Proof.Machine
end

