-- ==== Sys2Proof/Machine/Admission.lean ====
section
/-! DEFINITION. Slot boundaries (R310, R311): events that have waited enter a running lockstep. -/

namespace Sys2Proof.Machine

/-- The effect of an event from outside that has waited for a slot boundary (R310). Any other command never waits. -/
def admitted (i : Instr) (s : State) : Res :=
  match i with
  | .registerWrite off v => execRegisterWrite off v s
  | .pairLowWrite off v => execPairLowWrite off v s
  | .pairHighWrite off v => execPairHighWrite off v s
  | .clearSattot k => execClearSattot k s
  | .clearFlushtot k => execClearFlushtot k s
  | .clearNanblktot k => execClearNanblktot k s
  | .streamStart k n => execStreamStart k n s
  | .streamStop k n => execStreamStop k n s
  | .streamResume k n => execStreamResume k n s
  | .invalAll k => execInvalAll k s
  | .invalContext k ctx => execInvalContext k ctx s
  | .invalPage k ctx => execInvalPage k ctx s
  | .dmaHeadWrite c ch v => execDmaHeadWrite c ch v s
  | .dmaRun c ch run => execDmaRun c ch run s
  | .dmaAbort c ch => execDmaAbort c ch s
  | .dmaStoppedClear c ch => execDmaStoppedClear c ch s
  | .dmaInvalAll c => execDmaInvalAll c s
  | .dmaInvalContext c ctx => execDmaInvalContext c ctx s
  | .dmaInvalPage c ctx => execDmaInvalPage c ctx s
  | .lockstepEnable => execLockstepEnable s
  | .lockstepDisable => execLockstepDisable s
  | .reinArm => execReinArm s
  | .reinReady => execReinReady s
  | .reinDisarm => execReinDisarm s
  | .linkTrain l => execLinkTrain l s
  | .linkDisable l => execLinkDisable l s
  | .laneTestWrite lane test => execLaneTestWrite lane test s
  | .adjmapHiWrite n v => execAdjmapHiWrite n v s
  | .hbmModeWrite n mode => execHbmModeWrite n mode s
  | .hbmFreqChange n => execHbmFreqChange n s
  | .trainWritePattern n p => execTrainWritePattern n p s
  | .trainReadCompare n p flips => execTrainReadCompare n p flips s
  | .trainMrw n p => execTrainMrw n p s
  | .tenderAttach b => execTenderAttach b s
  | .tenderDetach b => execTenderDetach b s
  | .tenderMaintStart b => execTenderMaintStart b s
  | .tenderMaintStop b => execTenderMaintStop b s
  | .fabricScrubStart c => execFabricScrubStart c s
  | .ioDelayTarget c n v => execIoDelayTarget c n v s
  | .loadStart => execLoadStart s
  | .loadAbort => execLoadAbort s
  | .keyRamLock => execKeyRamLock s
  | .keyRamCommit => execKeyRamCommit s
  | .keyRamClear => execKeyRamClear s
  | .adminTailWrite p v => execAdminTailWrite p v s
  | .ctxCreate p cmd desc qtab => execCtxCreate p cmd desc qtab s
  | .ctxDestroy p cmd => execCtxDestroy p cmd s
  | .ctxBind p cmd => execCtxBind p cmd s
  | .ctxUnbind p cmd => execCtxUnbind p cmd s
  | .ctxMove p cmd => execCtxMove p cmd s
  | .ctxMoveCopy => execCtxMoveCopy s
  | .routeWrite p cmd => execRouteWrite p cmd s
  | .vfMap p cmd => execVfMap p cmd s
  | .hclStart p cmd => execHclStart p cmd s
  | .brake p cmd => execBrake p cmd s
  | .brakeDone n host => execBrakeDone n host s
  | .brakeUnitTimeout n u => execBrakeUnitTimeout n u s
  | .sqtail d r v => execSqtail d r v s
  | .cqhead d r v => execCqhead d r v s
  | .qsync d r host => execQsync d r host s
  | .qsyncDisableEffect n r => execQsyncDisableEffect n r s
  | .resume d v => execResume d v s
  | .cqrel d r => execCqrel d r s
  | .dmahead d k v => execDmahead d k v s
  | .workOrderStart n host => execWorkOrderStart n host s
  | .workOrderComplete n => execWorkOrderComplete n s
  | .completionWrite n r host => execCompletionWrite n r host s
  | .perstAssert p => execPerstAssert p s
  | .perstRelease p vfs ats => execPerstRelease p vfs ats s
  | .flr p v => execFlr p v s
  | .atsResponse p t => execAtsResponse p t s
  | .hostCompletion p n good data => execHostCompletion p n good data s
  | .powerCmdS0 mask => execPowerCmdS0 mask s
  | .powerCmdS1 mask => execPowerCmdS1 mask s
  | .powerCmdS2 mask => execPowerCmdS2 mask s
  | .powerCmdS3 => execPowerCmdS3 s
  | .profileWrite sel => execProfileWrite sel s
  | .padRelease mask => execPadRelease mask s
  | .faultReport src => execFaultReport src s
  | .coachRecoveryDone k => execCoachRecoveryDone k s
  | .coachRecoveryTimeout k => execCoachRecoveryTimeout k s
  | .carriageRecoveryDone c => execCarriageRecoveryDone c s
  | .carriageRecoveryTimeout c => execCarriageRecoveryTimeout c s
  | .ctxResume n => execCtxResume n s
  | .recBrake n => execRecBrake n s
  | .hangExpiry => execHangExpiry s
  | .chiprstRequest => execChiprstRequest s
  | .pmWatchdogExpiry => execPmWatchdogExpiry s
  | .maintRequest kind unit host => execMaintRequest kind unit host s
  | .partnerLost => execPartnerLost s
  | .partnerAliveLost => execPartnerAliveLost s
  | .witTokenHeld => execWitTokenHeld s
  | .resync => execResync s
  | .ctxRoleWrite role => execCtxRoleWrite role s
  | .debugRequest level => execDebugRequest level s
  | .debugClose => execDebugClose s
  | .debugResponseSubmit v => execDebugResponseSubmit v s
  | .pertWrite which v => execPertWrite which v s
  | .fuseProgram => execFuseProgram s
  | .fuseLock => execFuseLock s
  | .partnerAliveEdge => execPartnerAliveEdge s
  | .witTokenLow => execWitTokenLow s
  | .atsInvalidation p fn page pages => execAtsInvalidation p fn page pages s
  | _ => ok s

/-- An event placed among others in the order of Table 7.2; within one source the order of arrival stays. -/
def insertRank (w : Waiting) : List Waiting → List Waiting
  | [] => [w]
  | v :: r => if v.rank ≤ w.rank then v :: insertRank w r else w :: v :: r

/-- Events in the order of Table 7.2. -/
def byRank (l : List Waiting) : List Waiting := l.foldl (fun m w => insertRank w m) []

/-- Let events in, one after the other; each that enters a running lockstep is counted (DEV_LSADMIT). -/
def State.letIn (s : State) : List Waiting → Res
  | [] => ok s
  | w :: rest =>
    match admitted w.cmd s with
    | .next t => (if s.lockRun then t.bump DEV_LSADMIT_COUNT 0 0 1 else t).letIn rest
    | o => o

/-- Whether a firmware action that a fault in the lockstep domain asks for is not ready by this boundary (R311): the first report that no waiting command takes is
at least a slot old. -/
def State.actionLate (s : State) : Bool :=
  match s.reports[s.reportsAsked]? with
  | some r => r.cyc != 0 && decide (r.cyc + s.slotLen ≤ s.fld DEV_LSCYC_CYC 0)
  | none => false

/-- User I/O of carriage `c` whose presented value changes at this boundary. -/
def State.ioChanges (s : State) (c : Nat) : Nat :=
  let f := s.fabS c
  ((List.range 24).filter (fun n => (List.range 2).any (fun h => mget 0 f.inp (n * 2 + h) != mget 0 f.due (n * 2 + h)))).length

/-- The user I/O inputs are admitted last (Table 7.2): the input registers present what they have captured (R500). -/
def State.admitIo (s : State) : State :=
  (List.range 4).foldl (fun t c => (if t.lockRun then t.bump DEV_LSADMIT_COUNT 0 0 (t.ioChanges c) else t).presentIo c) s

/-- SLOT_BOUNDARY (R310, R311): at a lockstep cycle that is a multiple of 2^SLOT, the events that wait and may enter by now do so in the order of Table 7.2, user
I/O last. `late` says that a firmware action due now is not ready: then, or when a fault has waited too long for its report, lockstep aborts with FWLATE. Without a
running lockstep whatever still waits enters uncounted (log 14). -/
def execSlotBoundary (late : Bool) (s : State) : Res :=
  let now := s.fld DEV_LSCYC_CYC 0
  if s.lockRun && now % s.slotLen != 0 then ok s
  else
    let s1 := if late || s.actionLate then s.lockAbort 8 else s
    let enters := fun (w : Waiting) => decide (w.due ≤ now) || !s1.lockRun
    let s2 := { s1 with lock := { s1.lock with waiting := s1.lock.waiting.filter (fun w => !enters w), opened := true } }
    match s2.letIn (byRank (s1.lock.waiting.filter enters)) with
    | .next t => ok ({ t with lock := { t.lock with opened := false } }.admitIo)
    | o => o

end Sys2Proof.Machine
end

