-- ==== Sys2Proof/Machine/Delivery.lean ====
section
/-! DEFINITION. PACKET_DELIVER: a destination NI accepts a packet, checks its codes and its epoch, and delivers it to its unit (R337, R342, R352,
R354 to R357, R493). -/

namespace Sys2Proof.Machine

/-! ### The packet at the front of a unit port -/

/-- Flits of a packet that stand in a list. -/
def flitsOf (fs : List Flit) (uid : Nat) : List Flit := fs.filter (fun g => g.pkt.uid == uid)

/-- Whether every flit of a packet stands in a list. -/
def wholeIn (fs : List Flit) (p : Packet) : Bool := (flitsOf fs p.uid).length == flitCount p.data.length

/-- The first packet of a list of flits whose flits have all arrived. -/
def firstWhole (fs : List Flit) : Option Packet := ((fs.filter (fun f => f.i == 0)).find? (fun f => wholeIn fs f.pkt)).map (·.pkt)

/-- The first head in a list that its NI has not accepted yet. -/
def State.firstHead (s : State) (fs : List Flit) : Option Packet :=
  ((fs.filter (fun f => f.i == 0)).find? (fun f => mget 0 s.net.heads f.pkt.uid == 0)).map (·.pkt)

/-- Take a packet's flits from a unit port. -/
def State.takePort (s : State) (key : Nat) (p : Packet) : State :=
  { s with net := { s.net with ports := mupd [] s.net.ports key (fun l => l.filter (fun g => g.pkt.uid != p.uid)), heads := mset 0 s.net.heads p.uid 0 } }

/-- The unit that a packet at router `r` of carriage `c` is for: a link NI for REMOTE = 1 (R352), else the unit that DST names (R328); none where
that unit is not there. -/
def State.unitFor (s : State) (c r : Nat) (p : Packet) : Option Nat :=
  let u := if p.remote then linkUnit p.link else p.dst
  if hasNi s.couplerAside u && u / 256 == c && unitRouter (u % 256) == some r then some u else none

/-! ### Errors and stale packets (R354, R357) -/

/-- An error report to the scheduler core, with NOC_UEINFO. -/
def State.reportUe (s : State) (c : Nat) : State :=
  s.report { cause := 0, ctx := none, unit := c * 256 + 0x51, code := 0, data := s.ueinfoWord c }

/-- R357: the packet is dropped, counted, and answered STALE with the dropped EPOCH and DST; a response is not answered (log 51). -/
def State.staleDrop (s : State) (u : Nat) (p : Packet) : State :=
  let s1 := s.bump NOC_STALECNT_COUNT (u / 256) 0 1
  if p.vn == 1 then s1 else s1.inject u { responseTo p 3 1 [] with aux := p.epoch % 256 + p.dst % 1024 * 2 ^ 8, src := u }

/-- OP of the response to a request or write (Table 8.6). -/
def answerOp (p : Packet) : Nat := if p.vn == 2 then 1 else match p.op with | 0 => 0 | 1 => 2 | _ => 1

/-- Table 8.11: an uncorrectable error in a packet's payload. -/
def State.badPayload (s : State) (u : Nat) (p : Packet) : State :=
  let s1 := s.recordUe (u / 256) p u false
  match p.vn with
  | 0 => s1.respond u p (answerOp p) 2 []
  | 1 =>
    if p.op == 3 then s1
    else match niLink u with
      | some j => s1.linkReturn j { p with bad := true }
      | none => s1.answer u { p with bad := true }
  | 2 => s1.respond u p 1 2 []
  | 3 => s1
  | 4 => s1.reportUe (u / 256)
  | _ => s1.pairGap p.link 0

/-! ### What units do with packets -/

/-- Key of a REDUCE at its destination: destination and source unit, entry and tag (R355). -/
def reduceKey (u : Nat) (p : Packet) : Nat := ((u * 1024 + p.src) * 256 + p.rse) * 4096 + p.tag

/-- A reduce packet at a coach (R201, R303, R355): its tallies wait at the bank; the packet with LAST gives the increment of SYNCN once every
packet of the REDUCE has been accepted and every tally added. -/
def State.reduceIn (s : State) (u k : Nat) (p : Packet) : State :=
  let key := reduceKey u p
  let n := bitsOf p.aux 16 6
  let ix := bitsOf p.aux 0 16
  let r := s.fillAccs (readTallies n ((chunks 16 p.data).map leNat))
  let seen := if ix == 0 then 0 else mget 0 r.2.net.redCnt key
  let cnt := if seen == ix then ix + 1 else seen
  let last := bitsOf p.addr 21 1 == 1
  let s1 := { r.2 with net := { r.2.net with redCnt := mset 0 r.2.net.redCnt key (if last then 0 else cnt) } }
  let s2 := s1.updCoach k (fun c =>
    { c with tallyIn := c.tallyIn ++ r.1.zipIdx.map (fun t => { entry := (p.addr % 2 ^ 17 + t.2) % 2 ^ 17, acc := t.1, src := remoteSrc key }),
             syncDue := if last && seen == ix then c.syncDue ++ [(remoteSrc key, bitsOf p.addr 17 4)] else c.syncDue })
  s2.syncSettle k

/-- A register read or write through the network (Table 8.6, R538): ADDR is the BAR0 offset. -/
def State.regRequest (s : State) (u : Nat) (p : Packet) : State :=
  let o := p.addr % 2 ^ 30
  let t := if p.op == 1 then s.busRead o else s.busWrite o (leNat (p.data.take 4))
  let v := match t.resp with | .data v => v | _ => 0
  { t with resp := s.resp }.respond u p (answerOp p) 0 (if p.op == 1 then leBytes 4 v else [])

/-- A message waits for the firmware or the software of its unit. -/
def State.toFirmware (s : State) (u : Nat) (p : Packet) : State := { s with net := { s.net with msgs := mupd [] s.net.msgs u (fun l => l ++ [p]) } }

/-- A memory request or write at the unit that holds the memory (Table 8.9); any other unit's software takes it as a message. -/
def State.memoryIn (s : State) (u : Nat) (p : Packet) : State :=
  let c := u / 256
  let l := u % 256
  if 0x20 ≤ l && l < 0x28 then
    s.updHbm (c * 2 + (l - 0x20) / 4) (fun h => { h with edgeIn := mupd [] h.edgeIn (l - 0x20) (fun q => q ++ [p]) })
  else if l == 0x46 then s.updBay c (fun y => { y with inq := y.inq ++ [p] })
  else if l == 0x53 then s.hostIn c p
  else s.toFirmware u p

/-- A packet that has passed its checks reaches its unit; a STALE reply is its NI's own matter (R358). -/
def State.accept (s : State) (u : Nat) (p : Packet) : State :=
  let c := u / 256
  let l := u % 256
  if p.vn == 1 then
    if p.op == 3 then s.toInbox u p
    else match niLink u with
      | some j => s.linkReturn j p
      | none => s.answer u p
  else if p.remote then s.linkOffer p.link { pkt := p }
  else if 0x30 ≤ l && l < 0x40 then s.toFabric c (l - 0x30) p
  else if p.isMemory then s.memoryIn u p
  else if p.vn == 0 then s.regRequest u p
  else if p.vn == 3 && decide (l < 0x18) then s.reduceIn u (c * 24 + l) p
  else s.toFirmware u p

/-- Whether a packet is stale at its unit (R357, R493, R612): its EPOCH differs, its fabric port is not bound, or its carriage is in recovery. A
response and a packet with REMOTE = 1 carry no epoch of this unit. -/
def State.staleAt (s : State) (u : Nat) (p : Packet) : Bool :=
  let c := u / 256
  let l := u % 256
  (s.carState c == 3 && decide (l < 0x60) && !p.remote && (p.vn != 1 || computeUnit u)) || (decide (0x30 ≤ l) && decide (l < 0x40) && !s.flag FAB_PORTCTX_BOUND c (l - 0x30)) ||
    (p.vn != 1 && !p.remote && p.epoch != s.epoch u)

/-- The flits of a packet as they reach the NI: errors at the unit port invert further bits of the flits that `upset` names. -/
def upsetFlits (upset : List (Nat × Fin 1064)) (fs : List Flit) : List Flit :=
  fs.map (fun f => f.upset ((upset.filter (fun x => x.1 == f.i)).map (·.2.val)))

/-- Whether the header of a packet, quarter 0 of its head flit, is uncorrectable (R354). -/
def headerBad (fs : List Flit) : Bool := fs.any (fun f => f.i == 0 && decide (2 ≤ f.errsIn 0))

/-- Whether a quarter other than the header's is uncorrectable (R354). -/
def payloadBad (fs : List Flit) : Bool := fs.any (fun f => (List.range 4).any (fun q => !(f.i == 0 && q == 0) && decide (2 ≤ f.errsIn q)))

/-- A head stands at a unit port: its NI accepts it and compares the epochs (R357). -/
def State.acceptHead (s : State) (c r : Nat) (p : Packet) : State :=
  match s.unitFor c r p with
  | none => s
  | some u => { s with net := { s.net with heads := mset 0 s.net.heads p.uid (if s.staleAt u p then 2 else 1) } }

/-- A whole packet leaves a unit port, `fs` its flits: the end-to-end code of all four quarters is checked and every correction counted (R354), a stale packet
dropped (R357), any other delivered. -/
def State.takeWhole (s : State) (c r : Nat) (p : Packet) (fs : List Flit) : State :=
  if headerBad fs then
    let d := s.draw 10
    (d.2.recordUe c p d.1 true).reportUe c
  else
    match s.unitFor c r p with
    | none =>
      let d := s.draw 10
      (d.2.recordUe c p d.1 false).reportUe c
    | some u =>
      let stale := let h := mget 0 s.net.heads p.uid; if h == 0 then s.staleAt u p else h == 2
      let s1 := (s.takePort (c * 64 + r) p).bump NOC_ECCCE_COUNT c 0 ((fs.map Flit.corrections).foldl (· + ·) 0)
      if stale then s1.staleDrop u p
      else if payloadBad fs then s1.badPayload u p
      else s1.accept u p

/-- Whether a packet for a bound fabric port finds no room in the port's asynchronous buffer (R491). -/
def State.fabricFull (s : State) (p : Packet) : Bool :=
  let c := p.dst / 256
  let l := p.dst % 256
  !p.remote && decide (0x30 ≤ l) && decide (l < 0x40) && s.flag FAB_PORTCTX_BOUND c (l - 0x30) &&
    decide (portBuffer < (mget [] (s.fabS c).toFab (l - 0x30)).length + flitCount p.data.length)

/-- PACKET_DELIVER (R45, R343, R354, R357): a whole packet at a unit port is delivered; where none is whole, the NI accepts a head, whose epoch counts from then
on. A packet for a gated coach is held at its NI until the coach runs (R575), one for a fabric port until the port's buffer has room (R491). -/
def execPacketDeliver (c : Car) (r : Fin 40) (upset : List (Nat × Fin 1064)) (s : State) : Res :=
  let key := c.val * 64 + r.val
  let fs := mget [] s.net.ports key
  if s.netStill c || (decide (r.val < 24) && s.fld COA_STATE_STATE (c.val * 24 + r.val) == 6) then ok s
  else match firstWhole fs with
    | some p => if s.fabricFull p then ok s else ok ((s.takeWhole c r p (upsetFlits upset (flitsOf fs p.uid))).takePort key p)
    | none =>
      match s.firstHead fs with
      | some p => ok (s.acceptHead c r p)
      | none => ok s

end Sys2Proof.Machine
end

