-- ==== Sys2Proof/Machine/VectorIssue.lean ====
section
/-! DEFINITION. Issue of the vector instructions (Table 5.4). What each does when it starts is `State.startVector`. -/

namespace Sys2Proof.Machine

/-- VLD (R230): opcode 0x40 of Table 5.4. -/
def execVld (k : Coach) (s : State) : Res := ok (s.issueTo k 0x40 .vector)
/-- VST (R231): opcode 0x41 of Table 5.4. -/
def execVst (k : Coach) (s : State) : Res := ok (s.issueTo k 0x41 .vector)
/-- VMOV (R223): opcode 0x42 of Table 5.4. -/
def execVmov (k : Coach) (s : State) : Res := ok (s.issueTo k 0x42 .vector)
/-- VBCAST (R223): opcode 0x43 of Table 5.4. -/
def execVbcast (k : Coach) (s : State) : Res := ok (s.issueTo k 0x43 .vector)
/-- VSETCB (R234): opcode 0x44 of Table 5.4. -/
def execVsetcb (k : Coach) (s : State) : Res := ok (s.issueTo k 0x44 .vector)
/-- VADD (R225): opcode 0x48 of Table 5.4. -/
def execVadd (k : Coach) (s : State) : Res := ok (s.issueTo k 0x48 .vector)
/-- VSUB (R225): opcode 0x49 of Table 5.4. -/
def execVsub (k : Coach) (s : State) : Res := ok (s.issueTo k 0x49 .vector)
/-- VMUL (R225): opcode 0x4A of Table 5.4. -/
def execVmul (k : Coach) (s : State) : Res := ok (s.issueTo k 0x4A .vector)
/-- VFMA (R225): opcode 0x4B of Table 5.4. -/
def execVfma (k : Coach) (s : State) : Res := ok (s.issueTo k 0x4B .vector)
/-- VFMS (R225): opcode 0x4C of Table 5.4. -/
def execVfms (k : Coach) (s : State) : Res := ok (s.issueTo k 0x4C .vector)
/-- VMIN (R226): opcode 0x4D of Table 5.4. -/
def execVmin (k : Coach) (s : State) : Res := ok (s.issueTo k 0x4D .vector)
/-- VMAX (R226): opcode 0x4E of Table 5.4. -/
def execVmax (k : Coach) (s : State) : Res := ok (s.issueTo k 0x4E .vector)
/-- VABS (R226): opcode 0x4F of Table 5.4. -/
def execVabs (k : Coach) (s : State) : Res := ok (s.issueTo k 0x4F .vector)
/-- VRCP (R227): opcode 0x50 of Table 5.4. -/
def execVrcp (k : Coach) (s : State) : Res := ok (s.issueTo k 0x50 .vector)
/-- VRSQRT (R227): opcode 0x51 of Table 5.4. -/
def execVrsqrt (k : Coach) (s : State) : Res := ok (s.issueTo k 0x51 .vector)
/-- VEXP2 (R227): opcode 0x52 of Table 5.4. -/
def execVexp2 (k : Coach) (s : State) : Res := ok (s.issueTo k 0x52 .vector)
/-- VLOG2 (R227): opcode 0x53 of Table 5.4. -/
def execVlog2 (k : Coach) (s : State) : Res := ok (s.issueTo k 0x53 .vector)
/-- VTANH (R227): opcode 0x54 of Table 5.4. -/
def execVtanh (k : Coach) (s : State) : Res := ok (s.issueTo k 0x54 .vector)
/-- VSIN (R227): opcode 0x55 of Table 5.4. -/
def execVsin (k : Coach) (s : State) : Res := ok (s.issueTo k 0x55 .vector)
/-- VCOS (R227): opcode 0x56 of Table 5.4. -/
def execVcos (k : Coach) (s : State) : Res := ok (s.issueTo k 0x56 .vector)
/-- VCVT (R228): opcode 0x58 of Table 5.4. -/
def execVcvt (k : Coach) (s : State) : Res := ok (s.issueTo k 0x58 .vector)
/-- VQUANT (R236): opcode 0x59 of Table 5.4. -/
def execVquant (k : Coach) (s : State) : Res := ok (s.issueTo k 0x59 .vector)
/-- SDSPLIT (R237): opcode 0x5A of Table 5.4. -/
def execSdsplit (k : Coach) (s : State) : Res := ok (s.issueTo k 0x5A .vector)
/-- VRSUM (R238): opcode 0x5C of Table 5.4. -/
def execVrsum (k : Coach) (s : State) : Res := ok (s.issueTo k 0x5C .vector)
/-- VMAXI (R239): opcode 0x5D of Table 5.4. -/
def execVmaxi (k : Coach) (s : State) : Res := ok (s.issueTo k 0x5D .vector)
/-- VMINI (R239): opcode 0x5E of Table 5.4. -/
def execVmini (k : Coach) (s : State) : Res := ok (s.issueTo k 0x5E .vector)
/-- SMAC (R244): opcode 0x60 of Table 5.4. -/
def execSmac (k : Coach) (s : State) : Res := ok (s.issueTo k 0x60 .vector)
/-- SMSU (R244): opcode 0x61 of Table 5.4. -/
def execSmsu (k : Coach) (s : State) : Res := ok (s.issueTo k 0x61 .vector)
/-- SWB (R246): opcode 0x62 of Table 5.4. -/
def execSwb (k : Coach) (s : State) : Res := ok (s.issueTo k 0x62 .vector)
/-- VLSET (R247): opcode 0x68 of Table 5.4. -/
def execVlset (k : Coach) (s : State) : Res := ok (s.issueTo k 0x68 .vector)
/-- VROT (R248): opcode 0x69 of Table 5.4. -/
def execVrot (k : Coach) (s : State) : Res := ok (s.issueTo k 0x69 .vector)

end Sys2Proof.Machine
end

