-- ==== Sys2Proof/Machine/Walkers.lean ====
section
/-! DEFINITION. A table entry returns to the walker of a stream engine or of a DMA engine, and what then becomes of whatever waited for
the walk (R273 to R278, R293, R492). -/

namespace Sys2Proof.Machine

/-- The requests of a coach that wait for the walk `w`. -/
def State.walkedReqs (s : State) (k : Nat) (w : Walk) : List SReq :=
  if s.fld COA_ROLE_CONTEXT k == w.ctx then
    (s.coach k).reqs.filter (fun r => r.walking && r.va / 65536 == w.va / 65536 && r.write == w.write)
  else []

/-- Whether a channel waits for the walk `w`: for its ring, for a descriptor's status, or for its burst in hand (R282, R287, R288). -/
def State.chanAwaits (s : State) (c ch : Nat) (w : Walk) : Bool :=
  let h := s.chan c ch
  match h.desc with
  | none => h.fetch == 1 && s.chanCtx c ch == w.ctx && !w.write && s.ringVa c ch / 65536 == w.va / 65536
  | some d =>
    if h.ending == 1 then s.chanCtx c ch == w.ctx && w.write && (d.va + 0x30) / 65536 == w.va / 65536 else
    let writes := d.kind == 1 || (decide (h.data.length = h.burst) && decide (0 < h.burst))
    h.waiting && s.chanCtx c ch == w.ctx && writes == w.write &&
      (if writes then circAddr d.dcirc d.dlog2 d.dst h.done / 65536 == w.va / 65536
       else (readSpan (circAddr d.scirc d.slog2 d.src h.done) h.burst).any (fun p => p.1 / 65536 == w.va / 65536))

/-- Every channel of a carriage that waits for the engine's cache tries again. -/
def State.chansGo (s : State) (c : Nat) : State := (List.range 64).foldl (fun t ch => t.chanRetry c ch) s

/-- The walk that a channel waited for has failed with a code (R293). -/
def State.chanWalkFails (s : State) (c ch code : Nat) (va : Nat) : State :=
  let h := s.chan c ch
  if h.fetch == 1 || h.ending == 1 then s.ringFails c ch code va else s.chanFail c ch code

/-- WALK_ENTRY_RETURN (R274): the walk goes on, enters its translation, or fails; a translation entered or a failure serves every
request, burst and port packet that waited for it (R268, R293, R492). -/
def execWalkEntryReturn (e : Eng) (s : State) : Res :=
  match s.walkReturn (engUnit e) with
  | (.nothing, s1) => ok s1
  | (.entered w, s1) =>
    match e with
    | .coach k => ok ((s1.walkedReqs k w).foldl (fun t r => t.dispatchReq k r) s1)
    | .dma c => ok ((s1.chansGo c).portsGo c)
  | (.failed w code, s1) =>
    match e with
    | .coach k => ok ((s1.walkedReqs k w).foldl (fun t r => t.markFail k r.id code) s1)
    | .dma c =>
      let s2 := (List.range 64).foldl (fun t ch => if t.chanAwaits c ch w then t.chanWalkFails c ch code w.va else t) s1
      ok (((s2.chansGo c).portsFail c w.ctx w.va w.write code).portsGo c)

end Sys2Proof.Machine
end

