-- ==== Sys2Proof/Machine/Dispatch.lean ====
section
/-! DEFINITION. One arm per command: a direct call of its meaning. -/

namespace Sys2Proof.Machine

/-- What a command does to everything but the queue. -/
def exec (i : Instr) (s : State) : Host.Outcome State Fault Refusal :=
  match i with
  | .registerWrite off v => Sys2Proof.Machine.execRegisterWrite off v s
  | .readClear off => Sys2Proof.Machine.execReadClear off s
  | .pairLowRead off => Sys2Proof.Machine.execPairLowRead off s
  | .pairHighRead off => Sys2Proof.Machine.execPairHighRead off s
  | .pairLowWrite off v => Sys2Proof.Machine.execPairLowWrite off v s
  | .pairHighWrite off v => Sys2Proof.Machine.execPairHighWrite off v s
  | .misalignedAccess off bytes write => Sys2Proof.Machine.execMisalignedAccess off bytes write s
  | .unnamedOffsetAccess off write => Sys2Proof.Machine.execUnnamedOffsetAccess off write s
  | .reservedRangeAccess off write => Sys2Proof.Machine.execReservedRangeAccess off write s
  | .notAnsweringAccess off write => Sys2Proof.Machine.execNotAnsweringAccess off write s
  | .clearSattot k => Sys2Proof.Machine.execClearSattot k s
  | .clearFlushtot k => Sys2Proof.Machine.execClearFlushtot k s
  | .clearNanblktot k => Sys2Proof.Machine.execClearNanblktot k s
  | .nop k => Sys2Proof.Machine.execNop k s
  | .badop k => Sys2Proof.Machine.execBadop k s
  | .loadw k => Sys2Proof.Machine.execLoadw k s
  | .swapw k => Sys2Proof.Machine.execSwapw k s
  | .pass k => Sys2Proof.Machine.execPass k s
  | .drain k => Sys2Proof.Machine.execDrain k s
  | .quant k => Sys2Proof.Machine.execQuant k s
  | .reduce k => Sys2Proof.Machine.execReduce k s
  | .swapb k => Sys2Proof.Machine.execSwapb k s
  | .sync k => Sys2Proof.Machine.execSync k s
  | .setnum k => Sys2Proof.Machine.execSetnum k s
  | .setsp k => Sys2Proof.Machine.execSetsp k s
  | .setc k => Sys2Proof.Machine.execSetc k s
  | .loop k => Sys2Proof.Machine.execLoop k s
  | .endWorkOrder k => Sys2Proof.Machine.execEndWorkOrder k s
  | .instrStart k unit => Sys2Proof.Machine.execInstrStart k unit s
  | .passRowEnter k => Sys2Proof.Machine.execPassRowEnter k s
  | .loadwComplete k => Sys2Proof.Machine.execLoadwComplete k s
  | .passComplete k => Sys2Proof.Machine.execPassComplete k s
  | .bankInstrComplete k => Sys2Proof.Machine.execBankInstrComplete k s
  | .bankContribution k src => Sys2Proof.Machine.execBankContribution k src s
  | .operationEnd k => Sys2Proof.Machine.execOperationEnd k s
  | .syncComplete k => Sys2Proof.Machine.execSyncComplete k s
  | .swapbComplete k => Sys2Proof.Machine.execSwapbComplete k s
  | .vld k => Sys2Proof.Machine.execVld k s
  | .vst k => Sys2Proof.Machine.execVst k s
  | .vmov k => Sys2Proof.Machine.execVmov k s
  | .vbcast k => Sys2Proof.Machine.execVbcast k s
  | .vsetcb k => Sys2Proof.Machine.execVsetcb k s
  | .vadd k => Sys2Proof.Machine.execVadd k s
  | .vsub k => Sys2Proof.Machine.execVsub k s
  | .vmul k => Sys2Proof.Machine.execVmul k s
  | .vfma k => Sys2Proof.Machine.execVfma k s
  | .vfms k => Sys2Proof.Machine.execVfms k s
  | .vmin k => Sys2Proof.Machine.execVmin k s
  | .vmax k => Sys2Proof.Machine.execVmax k s
  | .vabs k => Sys2Proof.Machine.execVabs k s
  | .vrcp k => Sys2Proof.Machine.execVrcp k s
  | .vrsqrt k => Sys2Proof.Machine.execVrsqrt k s
  | .vexp2 k => Sys2Proof.Machine.execVexp2 k s
  | .vlog2 k => Sys2Proof.Machine.execVlog2 k s
  | .vtanh k => Sys2Proof.Machine.execVtanh k s
  | .vsin k => Sys2Proof.Machine.execVsin k s
  | .vcos k => Sys2Proof.Machine.execVcos k s
  | .vcvt k => Sys2Proof.Machine.execVcvt k s
  | .vquant k => Sys2Proof.Machine.execVquant k s
  | .sdsplit k => Sys2Proof.Machine.execSdsplit k s
  | .vrsum k => Sys2Proof.Machine.execVrsum k s
  | .vmaxi k => Sys2Proof.Machine.execVmaxi k s
  | .vmini k => Sys2Proof.Machine.execVmini k s
  | .smac k => Sys2Proof.Machine.execSmac k s
  | .smsu k => Sys2Proof.Machine.execSmsu k s
  | .swb k => Sys2Proof.Machine.execSwb k s
  | .vlset k => Sys2Proof.Machine.execVlset k s
  | .vrot k => Sys2Proof.Machine.execVrot k s
  | .vectorComplete k n => Sys2Proof.Machine.execVectorComplete k n s
  | .streamStart k n => Sys2Proof.Machine.execStreamStart k n s
  | .streamStop k n => Sys2Proof.Machine.execStreamStop k n s
  | .streamResume k n => Sys2Proof.Machine.execStreamResume k n s
  | .streamGrant k => Sys2Proof.Machine.execStreamGrant k s
  | .walkEntryReturn e => Sys2Proof.Machine.execWalkEntryReturn e s
  | .streamDataReturn k => Sys2Proof.Machine.execStreamDataReturn k s
  | .streamWriteAck k => Sys2Proof.Machine.execStreamWriteAck k s
  | .streamRequestFault k => Sys2Proof.Machine.execStreamRequestFault k s
  | .tcAgeTick => Sys2Proof.Machine.execTcAgeTick s
  | .tcEntryLapse e n => Sys2Proof.Machine.execTcEntryLapse e n s
  | .invalAll k => Sys2Proof.Machine.execInvalAll k s
  | .invalContext k ctx => Sys2Proof.Machine.execInvalContext k ctx s
  | .invalPage k ctx => Sys2Proof.Machine.execInvalPage k ctx s
  | .invalDone k => Sys2Proof.Machine.execInvalDone k s
  | .dmaHeadWrite c ch v => Sys2Proof.Machine.execDmaHeadWrite c ch v s
  | .dmaRun c ch run => Sys2Proof.Machine.execDmaRun c ch run s
  | .dmaAbort c ch => Sys2Proof.Machine.execDmaAbort c ch s
  | .dmaStoppedClear c ch => Sys2Proof.Machine.execDmaStoppedClear c ch s
  | .dmaDescFetch c ch => Sys2Proof.Machine.execDmaDescFetch c ch s
  | .dmaBurst c => Sys2Proof.Machine.execDmaBurst c s
  | .dmaReadReturn c => Sys2Proof.Machine.execDmaReadReturn c s
  | .dmaWriteAck c => Sys2Proof.Machine.execDmaWriteAck c s
  | .dmaDescEnd c ch => Sys2Proof.Machine.execDmaDescEnd c ch s
  | .dmaInvalAll c => Sys2Proof.Machine.execDmaInvalAll c s
  | .dmaInvalContext c ctx => Sys2Proof.Machine.execDmaInvalContext c ctx s
  | .dmaInvalPage c ctx => Sys2Proof.Machine.execDmaInvalPage c ctx s
  | .dmaInvalDone c => Sys2Proof.Machine.execDmaInvalDone c s
  | .lockstepEnable => Sys2Proof.Machine.execLockstepEnable s
  | .lockstepDisable => Sys2Proof.Machine.execLockstepDisable s
  | .slotBoundary late => Sys2Proof.Machine.execSlotBoundary late s
  | .lockstepLinkDelivery l late => Sys2Proof.Machine.execLockstepLinkDelivery l late s
  | .reinArm => Sys2Proof.Machine.execReinArm s
  | .reinReady => Sys2Proof.Machine.execReinReady s
  | .reinDisarm => Sys2Proof.Machine.execReinDisarm s
  | .reinLineHigh level => Sys2Proof.Machine.execReinLineHigh level s
  | .reinCycle => Sys2Proof.Machine.execReinCycle s
  | .reinTimeout => Sys2Proof.Machine.execReinTimeout s
  | .reinRelease => Sys2Proof.Machine.execReinRelease s
  | .syncBlockSend lane req done => Sys2Proof.Machine.execSyncBlockSend lane req done s
  | .syncBlockReceive lane levels skew => Sys2Proof.Machine.execSyncBlockReceive lane levels skew s
  | .laneSyncLoss lane => Sys2Proof.Machine.execLaneSyncLoss lane s
  | .linkTrain l => Sys2Proof.Machine.execLinkTrain l s
  | .linkDisable l => Sys2Proof.Machine.execLinkDisable l s
  | .trainTimeout l => Sys2Proof.Machine.execTrainTimeout l s
  | .linkBlockSend lane => Sys2Proof.Machine.execLinkBlockSend lane s
  | .linkBlockReceive lane levels => Sys2Proof.Machine.execLinkBlockReceive lane levels s
  | .linkRetryTimeout l => Sys2Proof.Machine.execLinkRetryTimeout l s
  | .laneTestWrite lane test => Sys2Proof.Machine.execLaneTestWrite lane test s
  | .packetSend u dest p => Sys2Proof.Machine.execPacketSend u dest p s
  | .flitReceive c r p flips upset => Sys2Proof.Machine.execFlitReceive c r p flips upset s
  | .creditReturn c r p vn vc => Sys2Proof.Machine.execCreditReturn c r p vn vc s
  | .packetDeliver c r upset => Sys2Proof.Machine.execPacketDeliver c r upset s
  | .staleReplyReceive u => Sys2Proof.Machine.execStaleReplyReceive u s
  | .routeEntryWrite u e w0 w1 w2 w3 => Sys2Proof.Machine.execRouteEntryWrite u e w0 w1 w2 w3 s
  | .hbmRequestAccept c e => Sys2Proof.Machine.execHbmRequestAccept c e s
  | .mirrorCopyAccept c e => Sys2Proof.Machine.execMirrorCopyAccept c e s
  | .hbmSchedule n => Sys2Proof.Machine.execHbmSchedule n s
  | .hbmReadData n flips => Sys2Proof.Machine.execHbmReadData n flips s
  | .rowIdleClose n p b => Sys2Proof.Machine.execRowIdleClose n p b s
  | .refreshDue n p b => Sys2Proof.Machine.execRefreshDue n p b s
  | .refreshSlot n => Sys2Proof.Machine.execRefreshSlot n s
  | .stackTempChange n hot => Sys2Proof.Machine.execStackTempChange n hot s
  | .adjmapHiWrite n v => Sys2Proof.Machine.execAdjmapHiWrite n v s
  | .hbmModeWrite n mode => Sys2Proof.Machine.execHbmModeWrite n mode s
  | .hbmFreqChange n => Sys2Proof.Machine.execHbmFreqChange n s
  | .fcQueuesEmpty n => Sys2Proof.Machine.execFcQueuesEmpty n s
  | .hbmFreqChangeDone n => Sys2Proof.Machine.execHbmFreqChangeDone n s
  | .trainWritePattern n p => Sys2Proof.Machine.execTrainWritePattern n p s
  | .trainReadCompare n p flips => Sys2Proof.Machine.execTrainReadCompare n p flips s
  | .trainMrw n p => Sys2Proof.Machine.execTrainMrw n p s
  | .trainCmdDone n => Sys2Proof.Machine.execTrainCmdDone n s
  | .tenderRequest b => Sys2Proof.Machine.execTenderRequest b s
  | .tenderData b flips => Sys2Proof.Machine.execTenderData b flips s
  | .tenderAck b flips => Sys2Proof.Machine.execTenderAck b flips s
  | .tenderNotice b flips => Sys2Proof.Machine.execTenderNotice b flips s
  | .tenderResendTimeout b tag => Sys2Proof.Machine.execTenderResendTimeout b tag s
  | .presenceSettled b present m => Sys2Proof.Machine.execPresenceSettled b present m s
  | .tenderLockLost b => Sys2Proof.Machine.execTenderLockLost b s
  | .lockLossTimeout b => Sys2Proof.Machine.execLockLossTimeout b s
  | .tenderAttach b => Sys2Proof.Machine.execTenderAttach b s
  | .tenderDetach b => Sys2Proof.Machine.execTenderDetach b s
  | .holdRetryExpiry b => Sys2Proof.Machine.execHoldRetryExpiry b s
  | .recheckTimeout b => Sys2Proof.Machine.execRecheckTimeout b s
  | .tenderMaintStart b => Sys2Proof.Machine.execTenderMaintStart b s
  | .tenderMaintStop b => Sys2Proof.Machine.execTenderMaintStop b s
  | .tenderMaintLimit b => Sys2Proof.Machine.execTenderMaintLimit b s
  | .moduleWrite b flips media worn torn => Sys2Proof.Machine.execModuleWrite b flips media worn torn s
  | .moduleRead b flips media => Sys2Proof.Machine.execModuleRead b flips media s
  | .moduleMaint b flips media moved worn ended torn => Sys2Proof.Machine.execModuleMaint b flips media moved worn ended torn s
  | .fabricPortFlit c n f => Sys2Proof.Machine.execFabricPortFlit c n f s
  | .fabricScrubStart c => Sys2Proof.Machine.execFabricScrubStart c s
  | .fabricScrubDone c fixed bad => Sys2Proof.Machine.execFabricScrubDone c fixed bad s
  | .fabricClockRestart c n => Sys2Proof.Machine.execFabricClockRestart c n s
  | .ioDelayTarget c n v => Sys2Proof.Machine.execIoDelayTarget c n v s
  | .ioDelayStep c n => Sys2Proof.Machine.execIoDelayStep c n s
  | .releaseStart c => Sys2Proof.Machine.execReleaseStart c s
  | .releaseStageAdvance c => Sys2Proof.Machine.execReleaseStageAdvance c s
  | .loadStart => Sys2Proof.Machine.execLoadStart s
  | .loadAbort => Sys2Proof.Machine.execLoadAbort s
  | .flashMasterStart => Sys2Proof.Machine.execFlashMasterStart s
  | .cfgCsFall => Sys2Proof.Machine.execCfgCsFall s
  | .cfgCsRiseEarly => Sys2Proof.Machine.execCfgCsRiseEarly s
  | .followerTimeout => Sys2Proof.Machine.execFollowerTimeout s
  | .loadHeader hdr => Sys2Proof.Machine.execLoadHeader hdr s
  | .loadSection raw => Sys2Proof.Machine.execLoadSection raw s
  | .loadTrailer raw tag => Sys2Proof.Machine.execLoadTrailer raw tag s
  | .loadStallTimeout => Sys2Proof.Machine.execLoadStallTimeout s
  | .loadSourceError range => Sys2Proof.Machine.execLoadSourceError range s
  | .keyRamLock => Sys2Proof.Machine.execKeyRamLock s
  | .keyRamCommit => Sys2Proof.Machine.execKeyRamCommit s
  | .keyRamClear => Sys2Proof.Machine.execKeyRamClear s
  | .vbatLow => Sys2Proof.Machine.execVbatLow s
  | .hartAccessFault c n addr write => Sys2Proof.Machine.execHartAccessFault c n addr write s
  | .adminTailWrite p v => Sys2Proof.Machine.execAdminTailWrite p v s
  | .ctxCreate p cmd desc qtab => Sys2Proof.Machine.execCtxCreate p cmd desc qtab s
  | .ctxDestroy p cmd => Sys2Proof.Machine.execCtxDestroy p cmd s
  | .ctxBind p cmd => Sys2Proof.Machine.execCtxBind p cmd s
  | .ctxUnbind p cmd => Sys2Proof.Machine.execCtxUnbind p cmd s
  | .ctxMove p cmd => Sys2Proof.Machine.execCtxMove p cmd s
  | .ctxMoveCopy => Sys2Proof.Machine.execCtxMoveCopy s
  | .routeWrite p cmd => Sys2Proof.Machine.execRouteWrite p cmd s
  | .vfMap p cmd => Sys2Proof.Machine.execVfMap p cmd s
  | .hclStart p cmd => Sys2Proof.Machine.execHclStart p cmd s
  | .brake p cmd => Sys2Proof.Machine.execBrake p cmd s
  | .brakeDone n host => Sys2Proof.Machine.execBrakeDone n host s
  | .brakeUnitTimeout n u => Sys2Proof.Machine.execBrakeUnitTimeout n u s
  | .sqtail d r v => Sys2Proof.Machine.execSqtail d r v s
  | .cqhead d r v => Sys2Proof.Machine.execCqhead d r v s
  | .qsync d r host => Sys2Proof.Machine.execQsync d r host s
  | .qsyncDisableEffect n r => Sys2Proof.Machine.execQsyncDisableEffect n r s
  | .resume d v => Sys2Proof.Machine.execResume d v s
  | .cqrel d r => Sys2Proof.Machine.execCqrel d r s
  | .dmahead d k v => Sys2Proof.Machine.execDmahead d k v s
  | .workOrderStart n host => Sys2Proof.Machine.execWorkOrderStart n host s
  | .workOrderComplete n => Sys2Proof.Machine.execWorkOrderComplete n s
  | .completionWrite n r host => Sys2Proof.Machine.execCompletionWrite n r host s
  | .perstAssert p => Sys2Proof.Machine.execPerstAssert p s
  | .perstRelease p vfs ats => Sys2Proof.Machine.execPerstRelease p vfs ats s
  | .flr p v => Sys2Proof.Machine.execFlr p v s
  | .atsResponse p t => Sys2Proof.Machine.execAtsResponse p t s
  | .hostCompletion p n good data => Sys2Proof.Machine.execHostCompletion p n good data s
  | .powerCmdS0 mask => Sys2Proof.Machine.execPowerCmdS0 mask s
  | .powerCmdS1 mask => Sys2Proof.Machine.execPowerCmdS1 mask s
  | .powerCmdS2 mask => Sys2Proof.Machine.execPowerCmdS2 mask s
  | .powerCmdS3 => Sys2Proof.Machine.execPowerCmdS3 s
  | .powerBlockAnswer wfi => Sys2Proof.Machine.execPowerBlockAnswer wfi s
  | .powerBlockTimeout => Sys2Proof.Machine.execPowerBlockTimeout s
  | .wakeNAssert => Sys2Proof.Machine.execWakeNAssert s
  | .wakeComplete down => Sys2Proof.Machine.execWakeComplete down s
  | .coachGate k => Sys2Proof.Machine.execCoachGate k s
  | .coachUngate k => Sys2Proof.Machine.execCoachUngate k s
  | .pllLock p => Sys2Proof.Machine.execPllLock p s
  | .avsAck c => Sys2Proof.Machine.execAvsAck c s
  | .avsTimeout c => Sys2Proof.Machine.execAvsTimeout c s
  | .profileWrite sel => Sys2Proof.Machine.execProfileWrite sel s
  | .profileChangeDone => Sys2Proof.Machine.execProfileChangeDone s
  | .padRelease mask => Sys2Proof.Machine.execPadRelease mask s
  | .throttleStep watts tmax => Sys2Proof.Machine.execThrottleStep watts tmax s
  | .hardThrottle sensor temp => Sys2Proof.Machine.execHardThrottle sensor temp s
  | .thermtrip sensor temp => Sys2Proof.Machine.execThermtrip sensor temp s
  | .pmbAlert faulty => Sys2Proof.Machine.execPmbAlert faulty s
  | .faultReport src => Sys2Proof.Machine.execFaultReport src s
  | .coachRecoveryDone k => Sys2Proof.Machine.execCoachRecoveryDone k s
  | .coachRecoveryTimeout k => Sys2Proof.Machine.execCoachRecoveryTimeout k s
  | .carriageRecoveryDone c => Sys2Proof.Machine.execCarriageRecoveryDone c s
  | .carriageRecoveryTimeout c => Sys2Proof.Machine.execCarriageRecoveryTimeout c s
  | .ctxResume n => Sys2Proof.Machine.execCtxResume n s
  | .recBrake n => Sys2Proof.Machine.execRecBrake n s
  | .hangSample => Sys2Proof.Machine.execHangSample s
  | .hangExpiry => Sys2Proof.Machine.execHangExpiry s
  | .chiprstRequest => Sys2Proof.Machine.execChiprstRequest s
  | .chipReset host => Sys2Proof.Machine.execChipReset host s
  | .chipResetDone => Sys2Proof.Machine.execChipResetDone s
  | .chipResetTimeout => Sys2Proof.Machine.execChipResetTimeout s
  | .schedHeartbeat => Sys2Proof.Machine.execSchedHeartbeat s
  | .schedHeartbeatLoss => Sys2Proof.Machine.execSchedHeartbeatLoss s
  | .pmWatchdogExpiry => Sys2Proof.Machine.execPmWatchdogExpiry s
  | .heartbeatToggle => Sys2Proof.Machine.execHeartbeatToggle s
  | .pfwAssert => Sys2Proof.Machine.execPfwAssert s
  | .pfwEnd => Sys2Proof.Machine.execPfwEnd s
  | .maintRequest kind unit host => Sys2Proof.Machine.execMaintRequest kind unit host s
  | .coachSelfTestDone k part => Sys2Proof.Machine.execCoachSelfTestDone k part s
  | .maintEnd kind unit => Sys2Proof.Machine.execMaintEnd kind unit s
  | .maintDeferExpiry => Sys2Proof.Machine.execMaintDeferExpiry s
  | .heartbeatRecordSend => Sys2Proof.Machine.execHeartbeatRecordSend s
  | .mirrorHeartbeat k => Sys2Proof.Machine.execMirrorHeartbeat k s
  | .mirrorAck k => Sys2Proof.Machine.execMirrorAck k s
  | .mirrorContext k => Sys2Proof.Machine.execMirrorContext k s
  | .mirrorQueue k host => Sys2Proof.Machine.execMirrorQueue k host s
  | .mirrorJournal k => Sys2Proof.Machine.execMirrorJournal k s
  | .mirrorHbm k => Sys2Proof.Machine.execMirrorHbm k s
  | .sweepstart k => Sys2Proof.Machine.execSweepstart k s
  | .sweepend k => Sys2Proof.Machine.execSweepend k s
  | .partnerLost => Sys2Proof.Machine.execPartnerLost s
  | .partnerAliveLost => Sys2Proof.Machine.execPartnerAliveLost s
  | .witTokenHeld => Sys2Proof.Machine.execWitTokenHeld s
  | .resync => Sys2Proof.Machine.execResync s
  | .ctxRoleWrite role => Sys2Proof.Machine.execCtxRoleWrite role s
  | .bypass shift => Sys2Proof.Machine.execBypass shift s
  | .idcode => Sys2Proof.Machine.execIdcode s
  | .samplePreload pins shift => Sys2Proof.Machine.execSamplePreload pins shift s
  | .extest pins shift => Sys2Proof.Machine.execExtest pins shift s
  | .clamp pins shift => Sys2Proof.Machine.execClamp pins shift s
  | .highz pins shift => Sys2Proof.Machine.execHighz pins shift s
  | .extestPulse pins shift => Sys2Proof.Machine.execExtestPulse pins shift s
  | .extestTrain pins shift => Sys2Proof.Machine.execExtestTrain pins shift s
  | .tapReset => Sys2Proof.Machine.execTapReset s
  | .debugRequest level => Sys2Proof.Machine.execDebugRequest level s
  | .debugClose => Sys2Proof.Machine.execDebugClose s
  | .debugResponseSubmit v => Sys2Proof.Machine.execDebugResponseSubmit v s
  | .pertWrite which v => Sys2Proof.Machine.execPertWrite which v s
  | .fuseProgram => Sys2Proof.Machine.execFuseProgram s
  | .fuseLock => Sys2Proof.Machine.execFuseLock s
  | .porAssert => Sys2Proof.Machine.execPorAssert s
  | .porRelease mode addr vsense => Sys2Proof.Machine.execPorRelease mode addr vsense s
  | .railGood fails l2 => Sys2Proof.Machine.execRailGood fails l2 s
  | .railTimeout c => Sys2Proof.Machine.execRailTimeout c s
  | .fabricClockEdge c n rising pins ready => Sys2Proof.Machine.execFabricClockEdge c n rising pins ready s
  | .powerRemoval => Sys2Proof.Machine.execPowerRemoval s
  | .partnerAliveEdge => Sys2Proof.Machine.execPartnerAliveEdge s
  | .witTokenLow => Sys2Proof.Machine.execWitTokenLow s
  | .atsInvalidation p fn page pages => Sys2Proof.Machine.execAtsInvalidation p fn page pages s
  | .moduleSeal b flips torn => Sys2Proof.Machine.execModuleSeal b flips torn s

end Sys2Proof.Machine
end

