-- ==== Sys2Proof/Machine/Idle.lean ====
section
/-! DEFINITION. What an idle step does: time passes (DESIGN CHOICE, log 2). -/

namespace Sys2Proof.Machine

/-- Whether the network clock of every carriage is stopped (Table 1.5). -/
def State.netStopped (s : State) : Bool := (List.range 4).all s.netStill

/-- One idle step: a coach cycle passes, at the frequency in force, and with it 1.6 GHz network cycles and 6.25 MHz always-on cycles in proportion
(R45, R573), their fractions kept; DEV_LSCYC counts the coach cycle, and a rein in FIRED enters IDLE (Table 7.4). With the coach clocks stopped an always-on cycle passes, and 256 network
cycles unless the network clocks are stopped too. -/
def State.tick (s : State) : State :=
  let m := s.fld CLK_COACHF_MHZ 0
  if m == 0 || s.netStopped then { s with aoCycles := s.aoCycles + 1, netCycles := s.netCycles + (if s.netStopped then 0 else 256) }
  else
    let net := s.netFrac + 1600
    let ao := s.aoFrac + 625
    { (if s.fld DEV_REINSTAT_STATE 0 == 3 then s.setFld DEV_REINSTAT_STATE 0 0 0 else s).wrapAdd DEV_LSCYC_CYC 0 0 1 with
      coachCycles := s.coachCycles + 1, netCycles := s.netCycles + net / m, netFrac := net % m, aoCycles := s.aoCycles + ao / (100 * m), aoFrac := ao % (100 * m) }

end Sys2Proof.Machine
end

