-- ==== Sys2Proof/Safety.lean ====
section
/-! DEFINITION. What statements about a step are made of: memories in canonical form, and what a step leaves as it was. -/

namespace Sys2Proof.Machine

/-- The canonical form of a byte memory whose unlisted bytes read 0. -/
abbrev memWf (m : List Host.Cell) : Bool := mwf (0 : Byte) m

/-- The byte memories, coach stores, HBM and tender media, are in canonical form. -/
def State.memoriesWf (s : State) : Prop := memWf s.store = true ∧ memWf s.hbm.bytes = true ∧ memWf s.media = true

/-- Every byte of the coach stores, of HBM and of the tender media reads in `t` as in `s`. -/
def SameBytes (s t : State) : Prop :=
  (∀ a, memByte t.store a = memByte s.store a) ∧ (∀ a, memByte t.hbm.bytes a = memByte s.hbm.bytes a) ∧ ∀ a, memByte t.media a = memByte s.media a

/-- Every byte of the stores reads as before but those of coach `k` from `a` on, `n` of them; HBM and media read as before. -/
def SameBytesBut (k a n : Nat) (s t : State) : Prop :=
  (∀ x, x < k * storeSize + a ∨ k * storeSize + a + n ≤ x → memByte t.store x = memByte s.store x) ∧
    (∀ x, memByte t.hbm.bytes x = memByte s.hbm.bytes x) ∧ ∀ x, memByte t.media x = memByte s.media x

/-- Every register field reads as before but those listed, each with its unit and index. -/
def SameFields (L : List (Fld × Nat × Nat)) (s t : State) : Prop :=
  ∀ f ∈ fldTable, ∀ u i, u < 2048 → (f, u, i) ∉ L → t.fld f u i = s.fld f u i

/-- Nothing changes but the listed register fields. -/
def OnlyFields (L : List (Fld × Nat × Nat)) (s t : State) : Prop := t = { s with fields := t.fields } ∧ SameFields L s t

/-- Nothing changes but the listed register fields and what has left the device. -/
def OnlyFieldsOut (L : List (Fld × Nat × Nat)) (s t : State) : Prop := t = { s with fields := t.fields, out := t.out } ∧ SameFields L s t

/-- Nothing changes but the listed register fields and how the access completed. -/
def OnlyFieldsResp (L : List (Fld × Nat × Nat)) (s t : State) : Prop := t = { s with fields := t.fields, resp := t.resp } ∧ SameFields L s t

end Sys2Proof.Machine
end

