-- ==== Sys2Proof/Certificates/Slice0/Obligations.lean ====
section
/-! DEFINITION. The statements for the provers: what the rules of spec/ say of the commands, over every state and every operand. -/

namespace Sys2Proof

open Machine

set_option linter.unusedVariables false

namespace Machine

/-- BAR0 offset of a register of a coach: its carriage's range, the coach's range in it, the offset in that. -/
def coachOff (k : Coach) (o : Nat) : BitVec 30 := BitVec.ofNat 30 (0x10000000 + carOf k * 0x4000000 + 0x100000 + k % 24 * 0x10000 + o)

/-- The register of a field answers (R54), and no slot boundary withholds an event from outside (R310): a write that is a command of its own acts at once. -/
def Hits (f : Fld) (u i : Nat) (s : State) : Prop := s.answersAt (f.bar0 u i) = true ∧ s.withheld = false

/-- Whether an access to a BAR0 offset meets a carriage that does not answer (R54). -/
def carAsleep (s : State) (off : BitVec 30) : Prop := ∃ c, spotCar off.toNat = some c ∧ (s.carState c = 2 ∨ s.carState c = 3 ∨ s.carState c = 4)

/-- A stray access was counted, and recorded unless a record is held (R56): nothing else changes but how the access completed. -/
def StrayTaken (reason off : Nat) (write : Bool) (s t : State) : Prop :=
  t.fld DEV_STRAY_CNT_COUNT 0 = min 0xFFFF (s.fld DEV_STRAY_CNT_COUNT 0 + 1) ∧ t.fld DEV_STRAY_VALID 0 = 1 ∧
  (if s.fld DEV_STRAY_VALID 0 = 1 then
      t.fld DEV_STRAY_REASON 0 = s.fld DEV_STRAY_REASON 0 ∧ t.fld DEV_STRAY_OFFSET 0 = s.fld DEV_STRAY_OFFSET 0 ∧
        t.fld DEV_STRAY_WRITE 0 = s.fld DEV_STRAY_WRITE 0
    else t.fld DEV_STRAY_REASON 0 = reason ∧ t.fld DEV_STRAY_OFFSET 0 = off / 4 ∧ t.fld DEV_STRAY_WRITE 0 = b2n write) ∧
  OnlyFieldsResp [(DEV_STRAY_CNT_COUNT, 0, 0), (DEV_STRAY_REASON, 0, 0), (DEV_STRAY_OFFSET, 0, 0), (DEV_STRAY_WRITE, 0, 0), (DEV_STRAY_VALID, 0, 0)] s t

/-- Nothing changes but the register fields listed and the parts of coach `k`. -/
def OnlyCoach (k : Nat) (L : List (Fld × Nat × Nat)) (s t : State) : Prop :=
  t = { s with fields := t.fields, coaches := t.coaches } ∧ SameFields L s t ∧ ∀ j, j ≠ k → t.coach j = s.coach j

/-- The coach issues, and the instruction at COA_PC has opcode `op`, passes the issue check and does not stand at index 1,023. -/
def IssueReady (k op : Nat) (s : State) : Prop :=
  s.issuing k = true ∧ opOf (s.atPc k) = op ∧ badField (s.atPc k) = false ∧ s.fld COA_PC_PC k < 1023

/-- COA_PC has passed the instruction, and it is counted as issued. -/
def PassedOn (k : Nat) (s t : State) : Prop :=
  t.fld COA_PC_PC k = s.fld COA_PC_PC k + 1 ∧ t.fld COA_ISSUED_ISSUED k = (s.fld COA_ISSUED_ISSUED k + 1) % 2 ^ 64

/-- What CLOSE does at the issue of a control instruction: the open operation closes under STATSEL and COA_SEQ moves on. -/
def ClosedBy (k w : Nat) (s t : State) : Prop :=
  (iClose w = false ∨ (s.coach k).openOp = none → (t.coach k).ops = (s.coach k).ops ∧ t.fld COA_SEQ_SEQ k = s.fld COA_SEQ_SEQ k) ∧
  ∀ o, iClose w = true → (s.coach k).openOp = some o → t.fld COA_SEQ_SEQ k = (o.seq + 1) % 2 ^ 32 ∧
    (t.coach k).ops = (s.coach k).ops.map (fun p => if p.seq == o.seq then
      { p with closed := true, closerId := 2 ^ 40, closerPc := s.fld COA_PC_PC k, statSel := iStatSel w, closerDone := true } else p)

/-- The coach stopped on a fault: recorded unless one is held (then only MORE is set), state FAULT, no more issue, reported. -/
def SeqFaulted (k code pc : Nat) (s t : State) : Prop :=
  t.fld COA_STATE_STATE k = 5 ∧ (t.coach k).halted = true ∧ t.fld COA_FAULT_VALID k = 1 ∧
  (if s.fld COA_FAULT_VALID k = 1 then t.fld COA_FAULT_MORE k = 1 ∧ t.fld COA_FAULT_CODE k = s.fld COA_FAULT_CODE k ∧
      t.fld COA_FAULT_PC k = s.fld COA_FAULT_PC k ∧ t.fld COA_FAULT_CONTEXT k = s.fld COA_FAULT_CONTEXT k
    else t.fld COA_FAULT_MORE k = 0 ∧ t.fld COA_FAULT_CODE k = code ∧ t.fld COA_FAULT_PC k = pc % 1024 ∧
      t.fld COA_FAULT_CONTEXT k = s.fld COA_ROLE_CONTEXT k % 1024) ∧
  ∃ r, t.reports = s.reports ++ [r] ∧ r.cause = 0x10 ∧ r.ctx = s.boundCtx k ∧ r.unit = coachUnit k ∧ r.code = code

/-- The fields that a coach's fault changes. -/
def faultFlds (k : Nat) : List (Fld × Nat × Nat) :=
  [(COA_STATE_STATE, k, 0), (COA_FAULT_CODE, k, 0), (COA_FAULT_PC, k, 0), (COA_FAULT_CONTEXT, k, 0), (COA_FAULT_MORE, k, 0), (COA_FAULT_VALID, k, 0)]

/-- The fields that the end of an operation can change. -/
def endFlds (k : Nat) : List (Fld × Nat × Nat) :=
  faultFlds k ++ [(COA_PC_PC, k, 0), (COA_SP_ADDR, k, 0), (COA_SP_ADDR, k, 1), (COA_SP_ADDR, k, 2), (COA_SP_ADDR, k, 3), (NUM_TRAPINFO_CONTEXT, k, 0),
    (NUM_TRAPINFO_MORE, k, 0), (NUM_TRAPINFO_VALID, k, 0), (NUM_TRAPSEQ_SEQ, k, 0)]

/-- The mode that a counting instruction issued now works under: that of the one open operation, which no spill has failed, or NUMCTL when none is in hand. -/
def WorksUnder (k : Nat) (md : NumMode) (s : State) : Prop :=
  ((s.coach k).ops = [] ∧ md = s.numMode k) ∨ ∃ o, (s.coach k).ops = [o] ∧ o.closed = false ∧ o.failed = false ∧ md = o.mode

/-- A live vector instruction is ready to issue on a coach with nothing in flight. -/
def VecReady (k op : Nat) (md : NumMode) (s : State) : Prop :=
  IssueReady k op s ∧ (s.coach k).flight = [] ∧ WorksUnder k md s ∧ isLive (s.loopSt k) (s.atPc k) = true

/-- The fields that any vector instruction can change. -/
def vecFlds (k : Nat) : List (Fld × Nat × Nat) :=
  [(COA_PC_PC, k, 0), (COA_ISSUED_ISSUED, k, 0), (COA_SEQ_SEQ, k, 0), (VEC_BUSY_BUSY, k, 0), (NUMSTAT_FLUSHED, k, 0), (NUMSTAT_SATURATED, k, 0),
    (NUMSTAT_NANINF, k, 0), (NUMSTAT_NANBLOCK, k, 0), (NUM_SATTOT_SATTOT, k, 0), (NUM_FLUSHTOT_FLUSHTOT, k, 0), (NUM_NANBLKTOT_NANBLKTOT, k, 0)]

/-- The issue rows of the vector instructions, with their opcodes (Table 5.4); VLSET and VROT apart. -/
def vecRows : List ((Coach → Instr) × Nat) :=
  [(.vld, 0x40), (.vst, 0x41), (.vmov, 0x42), (.vbcast, 0x43), (.vsetcb, 0x44), (.vadd, 0x48), (.vsub, 0x49), (.vmul, 0x4A), (.vfma, 0x4B),
   (.vfms, 0x4C), (.vmin, 0x4D), (.vmax, 0x4E), (.vabs, 0x4F), (.vrcp, 0x50), (.vrsqrt, 0x51), (.vexp2, 0x52), (.vlog2, 0x53), (.vtanh, 0x54),
   (.vsin, 0x55), (.vcos, 0x56), (.vcvt, 0x58), (.vquant, 0x59), (.sdsplit, 0x5A), (.vrsum, 0x5C), (.vmaxi, 0x5D), (.vmini, 0x5E), (.smac, 0x60),
   (.smsu, 0x61), (.swb, 0x62)]

/-- The issue rows of every instruction that a unit carries out. -/
def unitRows : List ((Coach → Instr) × Nat) :=
  [(.loadw, 1), (.swapw, 2), (.pass, 3), (.drain, 4), (.quant, 5), (.reduce, 6), (.vlset, 0x68), (.vrot, 0x69)] ++ vecRows

/-- The queue of the unit that carries out an opcode has room (R178). -/
def QueueRoom (k op : Nat) (s : State) : Prop :=
  ∀ u, unitOf op = some u → ((s.coach k).flight.filter (fun i => unitOf (opOf i.w) == some u && !i.started)).length < queueDepth u

/-- A special function's result lies within a number of ulps of the exact result `y` (R141, R142), up to the error of the series that computes it. -/
def Within (ulps y : Int) (r : SpecRes) : Prop :=
  ∃ c, r = .val c ∧ ((at256 c - y).natAbs : Int) ≤ ulps * fpUlp y + fpUlp y / 1099511627776

/-- Every lane reads as before but those of the registers listed of coach `k`. -/
def LanesBut (k : Nat) (regs : List Nat) (s t : State) : Prop :=
  ∀ j r i, r < 64 → i < 512 → j ≠ k ∨ r ∉ regs → t.lane j r i = s.lane j r i

/-- What stays when a vector instruction has issued and started: all but the lanes and fields listed, and the instruction in flight. -/
def VecFrame (k : Nat) (regs : List Nat) (L : List (Fld × Nat × Nat)) (s t : State) : Prop :=
  PassedOn k s t ∧ t = { s with fields := t.fields, coaches := t.coaches, vreg := t.vreg } ∧ SameFields (vecFlds k ++ L) s t ∧
  (∀ j, j ≠ k → t.coach j = s.coach j) ∧ LanesBut k regs s t ∧
  t.coach k = { s.coach k with flight := (t.coach k).flight, nextId := (s.coach k).nextId + 1, ops := (t.coach k).ops } ∧
  ∃ i, (t.coach k).flight = [i] ∧ i.w = s.atPc k ∧ i.started = true ∧ i.finished = false

/-- The values of a register name, as an instruction reads them. -/
def vals (md : NumMode) (p : Bool) (k n : Nat) (s : State) : List Val :=
  (readVals md (kindFmt p) (s.kindCodes k (s.fld VEC_LOOP_RRB k) n p)).1

/-- The code that a value becomes in a lane. -/
def laneCode (md : NumMode) (p : Bool) (v : Val) : Nat := (convertVal md false (kindFmt p) v).code

/-- A vector instruction that writes VD: the codes it leaves there, and that it changes nothing else. -/
def Result (c : Coach → Instr) (op : Nat) (pair : Nat → Bool) (res : NumMode → Nat → State → Nat → List Nat) : Prop :=
  ∀ (k : Coach) (md : NumMode) (s : State), VecReady k op md s → ∃ t, exec (c k) s = .next t ∧
    t.kindCodes k (s.fld VEC_LOOP_RRB k) (iVd (s.atPc k)) (pair (s.atPc k)) =
      (res md k s (s.atPc k)).map (· % 2 ^ (kindFmt (pair (s.atPc k))).width) ∧
    VecFrame k (physRegs (s.fld VEC_LOOP_RRB k) (iVd (s.atPc k)) (pair (s.atPc k))) [] s t

/-- Lanes of a two-operand instruction. -/
def lanes2 (f : Val → Val → Val) (md : NumMode) (k : Nat) (s : State) (w : Nat) : List Nat :=
  List.zipWith (fun a b => laneCode md (iP w) (f a b)) (vals md (iP w) k (iVa w) s) (vals md (iP w) k (iVb w) s)

/-- Lanes of a three-operand instruction. -/
def lanes3 (f : Val → Val → Val → Val) (md : NumMode) (k : Nat) (s : State) (w : Nat) : List Nat :=
  List.zipWith (fun (ab : Val × Val) c => laneCode md (iP w) (f ab.1 ab.2 c))
    (List.zip (vals md (iP w) k (iVa w) s) (vals md (iP w) k (iVb w) s)) (vals md (iP w) k (iVc w) s)

/-- Lanes of a special function: each from the code of its operand as read. -/
def lanesSpecial (fn : Nat) (md : NumMode) (k : Nat) (s : State) (w : Nat) : List Nat :=
  (s.lanes k (physReg (s.fld VEC_LOOP_RRB k) (iVa w))).map (fun c =>
    match specialFn fn (flushCode md .f32 c).1 (readCode md .f32 c).1 with
    | .val v => laneCode md false v
    | .over neg => (overflowFloat md .f32 neg).code)

/-- The codes that a VLD leaves for lane group `g`. -/
def loadedGroup (md : NumMode) (k : Nat) (s : State) (w : Nat) (f : Fmt) (sc : Bool) (g : Nat) : List Nat :=
  let cs := (s.groupCodes k w g f).1
  if f = .x24 then cs.map x24Lane
  else if f = kindFmt (iP w) then cs
  else (readBlock md f (if sc then some ((s.storeRead k (fieldOf w 3 4 19 * 16 + g) 1).getD 0 0) else none) cs).1.map (laneCode md (iP w))

/-- The codes that a VST stores. -/
def storedCodes (md : NumMode) (k : Nat) (s : State) (w : Nat) (f : Fmt) : List Nat :=
  let raw := s.kindCodes k (s.fld VEC_LOOP_RRB k) (iVa w) (iP w)
  if f = kindFmt (iP w) then raw else if f = .x24 then raw.map (· % 2 ^ 24)
  else (vals md (iP w) k (iVa w) s).map (fun v => (convertVal md false f v).code)

/-- The circular-buffer pointers that an access with CIRC = 1 moves. -/
def cbFlds (k w : Nat) : List (Fld × Nat × Nat) := (List.range 16).map (fun g => (VEC_CBPTR_PTR, k, 8 * g + fieldOf w 3 1 3))

/-- Each group's pointer moves by INC modulo the length, where CIRC = 1; no pointer moves where it is 0. -/
def PointersMoved (k w : Nat) (s t : State) : Prop :=
  ∀ g, g < 16 → t.fld VEC_CBPTR_PTR k (8 * g + fieldOf w 3 1 3) =
    if fieldOf w 3 0 1 = 1 then (((s.fld VEC_CBPTR_PTR k (8 * g + fieldOf w 3 1 3) : Int) + toSigned 24 (fieldOf w 3 8 24)) %
      (s.fld VEC_CBLEN_LEN k (8 * g + fieldOf w 3 1 3) : Int)).toNat
    else s.fld VEC_CBPTR_PTR k (8 * g + fieldOf w 3 1 3)

/-- Where an array or bank instruction stands when it has issued and started on a coach that had nothing in flight. -/
def Launched (k : Nat) (i : Inf) (s t : State) : Prop :=
  PassedOn k s t ∧ (t.coach k).flight = [i] ∧ i.w = s.atPc k ∧ i.started = true ∧ i.finished = false

/-- The numeric counts and the issue fields of a coach. -/
def issueFlds (k : Nat) : List (Fld × Nat × Nat) :=
  [(COA_PC_PC, k, 0), (COA_ISSUED_ISSUED, k, 0), (COA_SEQ_SEQ, k, 0), (NUMSTAT_FLUSHED, k, 0), (NUMSTAT_SATURATED, k, 0), (NUMSTAT_NANINF, k, 0),
    (NUMSTAT_NANBLOCK, k, 0), (NUM_SATTOT_SATTOT, k, 0), (NUM_FLUSHTOT_FLUSHTOT, k, 0), (NUM_NANBLKTOT_NANBLKTOT, k, 0)]

/-- The fields that show the weight sets. -/
def setFlds4 (k : Nat) : List (Fld × Nat × Nat) :=
  [(ARR_WSTATE_SHREADY, k, 0), (ARR_WSTATE_LOADING, k, 0), (ARR_WSTATE_AFMT, k, 0), (ARR_WSTATE_SFMT, k, 0)]

/-- The entries of an instruction's region. -/
def inRegionOf (w e : Nat) : Prop := ∃ m a c, m < iM w ∧ a ∈ iArrays w ∧ c < 128 ∧ e = entryIx a (iRow0 w + m) c

/-- What CLR leaves: the region's entries are zero, every other entry's word stays; without CLR the bank stays. -/
def RegionCleared (k w : Nat) (clr : Prop) (s t : State) : Prop :=
  (clr → ∀ e, inRegionOf w e → t.bankWord k e = 0) ∧ ∀ j e, e < 131072 → (¬ clr ∨ j ≠ k ∨ ¬ inRegionOf w e) → t.bankWord j e = s.bankWord j e

/-- Where a DRAIN or QUANT writes: the consumer half of its stream behind what it holds, or its address. -/
def outAt (k : Nat) (s : State) (w : Nat) : Nat :=
  match dstStream w with
  | some n => s.consBase k n + (s.strm k n).prod
  | none => fieldOf w 1 0 23

/-- The bytes that an output of `n` bytes has room for. -/
def OutFits (k : Nat) (s : State) (w n : Nat) : Prop := ∀ st, dstStream w = some st → (s.strm k st).prod + n ≤ s.halfRoom k st

/-- A coach ready to issue an instruction with nothing in flight and no failed operation. -/
def BankReady (k op : Nat) (md : NumMode) (s : State) : Prop :=
  IssueReady k op s ∧ (s.coach k).flight = [] ∧ WorksUnder k md s ∧ ∀ o ∈ (s.coach k).ops, o.failed = false

/-- A contribution of value `v` reached entry `e`: its slot when it is spilled, else its short form, or long form in the lowest free slot. -/
def Contributed (k e : Nat) (v : Acc) (s t : State) : Prop :=
  (∀ i, spillSlot (s.bankWord k e) = some i → t.bank = s.bank ∧ SameBytesBut k (s.slotAddr k i) 80 s t ∧
    t.storeRead k (s.slotAddr k i) 80 = (((longTally v).map (leBytes 16)).flatten).map (· % 256)) ∧
  (spillSlot (s.bankWord k e) = none → fitsShort v.v = true →
    t.bankWord k e = shortTally v ∧ t.store = s.store ∧ t.fld ACC_SPILLS_SPILLS k = s.fld ACC_SPILLS_SPILLS k) ∧
  (∀ i, spillSlot (s.bankWord k e) = none → fitsShort v.v = false → s.freeSlot k = some i → i < 2 ^ 32 → spillSlot (t.bankWord k e) = some i ∧
    t.storeRead k (s.slotAddr k i) 80 = (((longTally v).map (leBytes 16)).flatten).map (· % 256) ∧ SameBytesBut k (s.slotAddr k i) 80 s t ∧
    t.fld ACC_SPILLS_SPILLS k = min 0xFFFFFFFF (s.fld ACC_SPILLS_SPILLS k + 1)) ∧
  ∀ j f, f < 131072 → j ≠ k ∨ f ≠ e → t.bankWord j f = s.bankWord j f

/-- Every memory stays: stores, banks, registers, accumulators, HBM contents and tender media. -/
def SameMemories (s t : State) : Prop :=
  t.store = s.store ∧ t.bank = s.bank ∧ t.vreg = s.vreg ∧ t.sacc = s.sacc ∧ t.hbm = s.hbm ∧ t.media = s.media

/-- Whether an invalidation of a kind covers a cache entry (R279). -/
def invalCovers (kind ctx va : Nat) (x : TcEnt) : Prop := kind = 0 ∨ (x.ctx = ctx ∧ (kind = 1 ∨ x.vpn = va / 2 ^ (if x.big then 21 else 16)))

/-- An invalidation has begun: the cache of unit `u` keeps just the entries that it does not cover. -/
def Invalidated (u kind ctx va : Nat) (s t : State) : Prop :=
  (∀ j x, (j, some x) ∈ (t.tc u).ents ↔ (j, some x) ∈ (s.tc u).ents ∧ ¬ invalCovers kind ctx va x) ∧ ∀ v, v ≠ u → t.tc v = s.tc v

/-- The response `p` is the oldest at unit `u` that meets `q`, and `t` is the state without it. -/
def Takes (s : State) (u : Nat) (q : Packet → Bool) (p : Packet) (t : State) : Prop := s.takeInbox u q = some (p, t)

/-- A load has failed with a code in a section (R531, R532): the configuration is cleared, the user I/O are off, and the memories stay. -/
def LoadFailed (code sect : Nat) (s t : State) : Prop :=
  t.fld CFG_STATE_STATE 0 = 6 ∧ t.fld CFG_STATE_CODE 0 = code ∧ t.fld CFG_FAILSECT_SECT 0 = sect % 2 ^ 16 ∧ t.fld CFG_STATE_EVENT 0 = 1 ∧
  .pin "CFG_DONE" 0 ∈ t.out ∧ .pin "CFG_ERR_N" 0 ∈ t.out ∧ t.seqMem = [] ∧ t.net.sheet = [] ∧ t.load = {} ∧
  (∀ c, c < 4 → t.fld FAB_STATE_STAGE c = 0 ∧ t.fld FAB_STATE_LOADED c = 0 ∧ (t.fabS c).frames = [] ∧ (t.fabS c).dead = true) ∧ SameMemories s t

/-- No slot boundary withholds commands (R311), it is port `p`'s turn in the admin rings, and its next command is the 64 bytes `b` with opcode `opc`. -/
def AdmReady (p opc : Nat) (cmd : List Byte) (b : List Nat) (s : State) : Prop :=
  s.withheld = false ∧ s.admTurn p = true ∧ cmd.length = 64 ∧ b = cmd.map BitVec.toNat ∧ b.getD 0 0 = opc ∧ s.fld QUE_ADMCFG_VEC p < 2048

/-- A doorbell write that no slot boundary withholds (R310): one of a host core never is. -/
def DoorFree (d : Door) (s : State) : Prop := s.withheld = false ∨ ∃ c off, d = .hart c off

/-- A field of an admin command. -/
def admArg (b : List Nat) (o n : Nat) : Nat := leNat ((b.drop o).take n)

/-- The context that an admin command names. -/
def admCtx (b : List Nat) : Nat := admArg b 4 2 % 1024

/-- An admin command as its meaning takes it. -/
def admOf (p : Nat) (b : List Nat) : Adm := { port := p, opc := b.getD 0 0, ctx := admCtx b, tag := admArg b 8 8, b := b }

/-- The command has left port `p`'s submission ring and is answered: its completion entry with the status is written, the ring's tail moves on (R569). -/
def AdmAnswered (p : Nat) (b : List Nat) (status : Nat) (s t : State) : Prop :=
  (t.admS p).head = ((s.admS p).head + 1) % 2 ^ (s.admS p).log2 ∧ (t.admS p).cqTail = ((s.admS p).cqTail + 1) % 2 ^ (s.admS p).log2 ∧
  (t.admS p).used = (s.admS p).used + 1 ∧
  (t.admS p).phase = (if ((s.admS p).cqTail + 1) % 2 ^ (s.admS p).log2 = 0 then !(s.admS p).phase else (s.admS p).phase) ∧
  .hostWrite p 0 (s.fld QUE_ADMCQ_ADDR p + (s.admS p).cqTail * 16) (leBytes 8 (admArg b 8 8) ++ leBytes 2 (((s.admS p).head + 1) % 2 ^ (s.admS p).log2) ++
    [status, b2n (s.admS p).phase] ++ leBytes 4 0) ∈ t.out ∧
  (∀ q, q ≠ p → t.admS q = s.admS q) ∧ t.admLast = p ∧ t.admBusy = none ∧ t.store = s.store ∧ t.media = s.media

/-- A context has entered a brake with a cause: its coaches are reset, nothing of it runs, and the host's bytes stay. -/
def Braked (n cause : Nat) (s t : State) : Prop :=
  (t.ctx n).state = 3 ∧ (t.ctx n).cause = cause ∧ (∀ k : Coach, s.boundCtx k = some n → t.fld COA_STATE_STATE k = 1 ∧ ∀ e, e < 131072 → t.bankWord k e = 0) ∧
  (s.pairRole n ≠ 2 → ∀ r, (t.queue n r).running = []) ∧ (∀ m, m ≠ n → t.ctx m = s.ctx m) ∧ t.store = s.store ∧ t.hbm = s.hbm ∧ t.media = s.media

/-- The fields that a log entry changes. -/
def logFlds : List (Fld × Nat × Nat) := [(LOG_SEQ_NEXT, 0, 0), (LOG_LASTGASP_CODE, 0, 0), (LOG_LASTGASP_SOURCE, 0, 0), (LOG_LASTGASP_VALID, 0, 0)]

/-- An entry of no context was written to each working bank; with none its code went to LOG_LASTGASP and LOGFAIL_N was driven low (R626, R630). -/
def Logged (code source aux data : Nat) (s t : State) : Prop :=
  t.fld LOG_SEQ_NEXT 0 = (s.fld LOG_SEQ_NEXT 0 + 1) % 2 ^ 32 ∧
  (∀ b : Fin 2, s.fld (if b = 0 then LOG_STATUS_BANK0OK else LOG_STATUS_BANK1OK) 0 = 1 → mget none t.log (b * 2048 + s.fld LOG_SEQ_NEXT 0 % 2048) =
    some { time := s.aoCycles, seq := s.fld LOG_SEQ_NEXT 0, code := code, source := source, ctx := none, aux := aux, data := data }) ∧
  (s.fld LOG_STATUS_BANK0OK 0 ≠ 1 → s.fld LOG_STATUS_BANK1OK 0 ≠ 1 → t.fld LOG_LASTGASP_CODE 0 = code ∧ t.fld LOG_LASTGASP_SOURCE 0 = source ∧
    t.fld LOG_LASTGASP_VALID 0 = 1 ∧ .pin "LOGFAIL_N" 0 ∈ t.out)

/-- The queue holds what the arbiter may not grant: each request conflicts with a running activity or an earlier queued one, or its unit is stopped. -/
def QueueWaits (s t : State) : Prop :=
  ∀ pre r post, t.arb.queue = pre ++ r :: post → (∃ x ∈ t.arb.running ++ pre, conflict r x = true) ∨ ∃ c ∈ r.cars, s.stoppedAt 7 c = true

/-- A mirror record as coupler link `k` carries it. -/
def mirrorOut (k mseq kind ctx addr : Nat) (data : List Nat) : LOut :=
  { pkt := { vn := 5, ctx := ctx, data := recordBytes mseq kind ctx addr data, len := ceilDiv (recordBytes mseq kind ctx addr data).length 16, src := linkUnit (24 + k) } }

/-- A packet was offered to a link that is UP: nothing waits and the credits suffice, so its bytes end what the link sends; no other link changes. -/
def Offered (l : Nat) (o : LOut) (s t : State) : Prop :=
  (∀ j, j ≠ l → t.link j = s.link j) ∧
  ((s.link l).waiting = [] → mget 0 (s.link l).lent o.pkt.vn + creditsOf o.pkt ≤ 256 →
    (t.link l).tx = (s.link l).tx ++ linkPacketBytes o s.lockRun (s.fld DEV_LSCYC_CYC 0) ∧ (t.link l).waiting = [] ∧
      mget 0 (t.link l).lent o.pkt.vn = mget 0 (s.link l).lent o.pkt.vn + creditsOf o.pkt)

/-- The front record of coupler link `k` is `r`, of a kind, and the one before it has been applied. -/
def FrontRecord (k kind : Nat) (r : MRec) (rest : List MRec) (s : State) : Prop :=
  mget [] s.pair.intake k = r :: rest ∧ r.kind = kind ∧ mget 0 s.pair.jrnBusy k = 0

/-- The front record is in order on a link that is UP and discards nothing. -/
def InOrder (k kind : Nat) (r : MRec) (rest : List MRec) (s : State) : Prop :=
  FrontRecord k kind r rest s ∧ mget 0 s.pair.dropping k ≠ 1 ∧ r.mseq = (mget 0 s.pair.applied k + 1) % 2 ^ 32 ∧ s.linkUp (24 + k) = true

/-- The record has been applied: it left the intake, its number is the last applied, and an ACK record says so (R646). -/
def RecordApplied (k : Nat) (r : MRec) (rest : List MRec) (s t : State) : Prop :=
  mget [] t.pair.intake k = rest ∧ mget 0 t.pair.applied k = r.mseq ∧ mget 0 t.pair.jrnBusy k = 0 ∧ (∀ j, j ≠ k → mget 0 t.pair.applied j = mget 0 s.pair.applied j) ∧
  Offered (24 + k) (mirrorOut k 0 2 0 0 ([s.fld CPL_STATE_STATE 0, 0, 0, 0] ++ leBytes 4 (mget 0 t.pair.applied 0) ++ leBytes 4 (mget 0 t.pair.applied 1) ++ [0, 0, 0, 0])) s t

/-- The record that a HEARTBEAT or ACK command takes: the first of its kind. -/
def PlainRecord (k kind : Nat) (pre : List MRec) (r : MRec) (post : List MRec) (s : State) : Prop :=
  mget [] s.pair.intake k = pre ++ r :: post ∧ r.kind = kind ∧ ∀ x ∈ pre, x.kind ≠ kind

/-- The number that a HEARTBEAT or ACK record acknowledges on coupler link `j`. -/
def ackNo (r : MRec) (j : Nat) : Nat := leNat ((r.data.drop (4 + 4 * j)).take 4)

/-- The register field that a command of its own writes (its unit and index, and whether the high word of its pair): R54. -/
def fieldWritten : Instr → Option (Fld × Nat × Nat × Bool)
  | .clearSattot k => some (NUM_CTRCLR_SATTOT, k, 0, false)
  | .clearFlushtot k => some (NUM_CTRCLR_FLUSHTOT, k, 0, false)
  | .clearNanblktot k => some (NUM_CTRCLR_NANBLKTOT, k, 0, false)
  | .streamStart k n => some (STR_CTL_START, k, n, false)
  | .streamStop k n => some (STR_CTL_STOP, k, n, false)
  | .streamResume k n => some (STR_RESUME_GO, k, n, false)
  | .invalAll k => some (STR_INVAL_KIND, k, 0, false)
  | .invalContext k _ => some (STR_INVAL_KIND, k, 0, false)
  | .invalPage k _ => some (STR_INVAL_KIND, k, 0, false)
  | .dmaHeadWrite c ch _ => some (DMA_HEAD_HEAD, c, ch, false)
  | .dmaRun c ch _ => some (DMA_CTL_RUN, c, ch, false)
  | .dmaAbort c ch => some (DMA_CTL_ABORT, c, ch, false)
  | .dmaStoppedClear c ch => some (DMA_STATUS_STOPPED, c, ch, false)
  | .dmaInvalAll c => some (DMA_INVAL_KIND, c, 0, false)
  | .dmaInvalContext c _ => some (DMA_INVAL_KIND, c, 0, false)
  | .dmaInvalPage c _ => some (DMA_INVAL_KIND, c, 0, false)
  | .lockstepEnable => some (DEV_LSCTL_ENABLE, 0, 0, false)
  | .lockstepDisable => some (DEV_LSCTL_ENABLE, 0, 0, false)
  | .reinArm => some (DEV_REINCTL_CMD, 0, 0, false)
  | .reinReady => some (DEV_REINCTL_CMD, 0, 0, false)
  | .reinDisarm => some (DEV_REINCTL_CMD, 0, 0, false)
  | .linkTrain l => some (LNK_CTL_TRAIN, (linkHome l).1, (linkHome l).2, false)
  | .linkDisable l => some (LNK_CTL_ENABLE, (linkHome l).1, (linkHome l).2, false)
  | .laneTestWrite lane _ => some (LNK_LANECTL_TEST, lane / 24, lane % 24, false)
  | .adjmapHiWrite n _ => some (HBM_ADJMAP_PERM, n / 2, n % 2, true)
  | .hbmModeWrite n _ => some (HBM_CTL_MODE, n / 2, n % 2, false)
  | .hbmFreqChange n => some (HBM_CTL_FCREQ, n / 2, n % 2, false)
  | .trainWritePattern n _ => some (HBM_TRCMD_OP, n / 2, n % 2, false)
  | .trainReadCompare n _ _ => some (HBM_TRCMD_OP, n / 2, n % 2, false)
  | .trainMrw n _ => some (HBM_TRCMD_OP, n / 2, n % 2, false)
  | .tenderAttach b => some (TND_CTL_ATTACH, b, 0, false)
  | .tenderDetach b => some (TND_CTL_DETACH, b, 0, false)
  | .tenderMaintStart b => some (TND_MAINT_START, b, 0, false)
  | .tenderMaintStop b => some (TND_MAINT_STOP, b, 0, false)
  | .fabricScrubStart c => some (FAB_SCRUB_START, c, 0, false)
  | .ioDelayTarget c n _ => some (IOB_DLY_TARGET, c, n, false)
  | .loadStart => some (CFG_CTL_START, 0, 0, false)
  | .loadAbort => some (CFG_CTL_ABORT, 0, 0, false)
  | .keyRamLock => some (KEY_CTL_RAMLOCK, 0, 0, false)
  | .keyRamCommit => some (KEY_CTL_RAMCOMMIT, 0, 0, false)
  | .keyRamClear => some (KEY_CTL_RAMCLEAR, 0, 0, false)
  | .adminTailWrite p _ => some (QUE_ADMTAIL_INDEX, p, 0, false)
  | .powerCmdS0 _ => some (PWR_CMD_STATE, 0, 0, false)
  | .powerCmdS1 _ => some (PWR_CMD_STATE, 0, 0, false)
  | .powerCmdS2 _ => some (PWR_CMD_STATE, 0, 0, false)
  | .powerCmdS3 => some (PWR_CMD_STATE, 0, 0, false)
  | .profileWrite _ => some (PWR_PROFILE_SEL, 0, 0, false)
  | .padRelease _ => some (PWR_PADREL_CAR, 0, 0, false)
  | .ctxResume _ => some (REC_CTXCMD_OP, 0, 0, false)
  | .recBrake _ => some (REC_CTXCMD_OP, 0, 0, false)
  | .chiprstRequest => some (REC_CTL_CHIPRST, 0, 0, false)
  | .maintRequest _ _ true => some (REC_MNTREQ_KIND, 0, 0, false)
  | .resync => some (CPL_CTL_RESYNC, 0, 0, false)
  | .ctxRoleWrite _ => some (CPL_CTXROLE_ROLE, 0, 0, false)
  | .debugRequest _ => some (DEV_DBG_REQ, 0, 0, false)
  | .debugClose => some (DEV_DBG_REQ, 0, 0, false)
  | .debugResponseSubmit _ => some (DEV_DBGRESP_RESP, 0, 7, false)
  | .pertWrite w _ => some (match w.val with | 0 => DEV_PERTSTR_EN | 1 => DEV_PERTNOC_EN | _ => DEV_PERTMEM_EN, 0, 0, false)
  | .fuseProgram => some (DEV_FUSE_PROG, 0, 0, false)
  | .fuseLock => some (DEV_FUSE_LOCK, 0, 0, false)
  | _ => none

/-- Rank in Table 7.2 of the port by which a doorbell write from the host comes; a host core's is no event from outside. -/
def doorRank : Door → Option Nat
  | .pf p _ => some (7 + p)
  | .vf p _ _ => some (7 + p)
  | .hart _ _ => none

/-- Rank in Table 7.2 of an event from outside that writes no register of its own: the scheduler core's 2, a PCIe port's 7 to 10 (R310). -/
def eventRank : Instr → Option Nat
  | .ctxCreate _ _ _ _ => some 2
  | .ctxDestroy _ _ => some 2
  | .ctxBind _ _ => some 2
  | .ctxUnbind _ _ => some 2
  | .ctxMove _ _ => some 2
  | .ctxMoveCopy => some 2
  | .routeWrite _ _ => some 2
  | .vfMap _ _ => some 2
  | .hclStart _ _ => some 2
  | .brake _ _ => some 2
  | .brakeDone _ _ => some 2
  | .brakeUnitTimeout _ _ => some 2
  | .qsyncDisableEffect _ _ => some 2
  | .workOrderStart _ _ => some 2
  | .workOrderComplete _ => some 2
  | .completionWrite _ _ _ => some 2
  | .coachRecoveryDone _ => some 2
  | .coachRecoveryTimeout _ => some 2
  | .carriageRecoveryDone _ => some 2
  | .carriageRecoveryTimeout _ => some 2
  | .maintRequest _ _ false => some 2
  | .partnerLost => some 2
  | .partnerAliveLost => some 2
  | .partnerAliveEdge => some 2
  | .witTokenHeld => some 2
  | .witTokenLow => some 2
  | .sqtail d _ _ => doorRank d
  | .cqhead d _ _ => doorRank d
  | .qsync d _ _ => doorRank d
  | .resume d _ => doorRank d
  | .cqrel d _ => doorRank d
  | .dmahead d _ _ => doorRank d
  | .perstAssert p => some (7 + p)
  | .perstRelease p _ _ => some (7 + p)
  | .flr p _ => some (7 + p)
  | .atsResponse p _ => some (7 + p)
  | .hostCompletion p _ _ _ => some (7 + p)
  | .atsInvalidation p _ _ _ => some (7 + p)
  | _ => none

/-- The command waits, as the last of those that wait for a slot boundary no earlier than lockstep cycle `due`, and nothing else changes. -/
def Waits (i : Instr) (rank due : Nat) (s : State) : Prop :=
  exec i s = .next { s with lock := { s.lock with waiting := s.lock.waiting ++ [⟨rank, due, i⟩] } }

end Machine

end Sys2Proof

open Sys2Proof Sys2Proof.Machine

/-- A step takes the command at the front of the queue and runs it on the state with the queue's rest (95_what_each_step_holds.md). -/
def Obligations.StepRunsFrontCommand : Prop :=
  ∀ (c : Instr) (r : List Instr) (s : State), s.pending = c :: r → step s = exec c { s with pending := r }

/-- On an empty queue a step lets time pass (model's choice, log 2): only the cycle counts, DEV_LSCYC and a fired rein change (R45, R573, 01_carriages_and_levels.md). -/
def Obligations.IdleStepOnlyCountsTime : Prop :=
  ∀ s : State, s.pending = [] → ∃ t, step s = .next t ∧
    t = { s with fields := t.fields, coachCycles := t.coachCycles, netCycles := t.netCycles, aoCycles := t.aoCycles, netFrac := t.netFrac, aoFrac := t.aoFrac } ∧
    SameFields [(DEV_LSCYC_CYC, 0, 0), (DEV_REINSTAT_STATE, 0, 0)] s t ∧
    (s.fld CLK_COACHF_MHZ 0 ≠ 0 → s.netStopped = false → t.coachCycles = s.coachCycles + 1 ∧
      t.fld DEV_LSCYC_CYC 0 = (s.fld DEV_LSCYC_CYC 0 + 1) % 2 ^ 64 ∧
      t.fld DEV_REINSTAT_STATE 0 = if s.fld DEV_REINSTAT_STATE 0 = 3 then 0 else s.fld DEV_REINSTAT_STATE 0) ∧
    (s.fld CLK_COACHF_MHZ 0 = 0 ∨ s.netStopped = true → t.aoCycles = s.aoCycles + 1 ∧ t.fields = s.fields ∧ t.coachCycles = s.coachCycles ∧
      (s.netStopped = true → t.netCycles = s.netCycles))

/-- Every command of the table answers a next state in every state, and leaves the queue of waiting commands as it is (95_what_each_step_holds.md). -/
def Obligations.EveryCommandCompletes : Prop :=
  ∀ (c : Instr) (s : State), ∃ t, exec c s = .next t ∧ t.pending = s.pending

/-- Every step keeps the byte memories of the coaches, of HBM and of the tender modules in canonical form (04_coaches.md, 09_hbm.md, 10_tenders.md). -/
def Obligations.StepKeepsMemoriesCanonical : Prop :=
  ∀ s t : State, s.memoriesWf → step s = .next t → t.memoriesWf

/-- Once eFuse programming is locked, no command and no passing of time changes an eFuse again (R684). -/
def Obligations.LockedFusesNeverChange : Prop :=
  (∀ s t : State, s.fuses.locked = true → step s = .next t → t.fuses = s.fuses) ∧
    ∀ s : State, Hits DEV_FUSE_LOCK 0 0 s → ∃ t, exec (.fuseLock) s = .next t ∧ t.fuses = { s.fuses with locked := true } ∧ t.fld DEV_FUSE_LOCKED 0 = 1 ∧
      t = { s with fields := t.fields, fuses := t.fuses } ∧ SameFields [(DEV_FUSE_LOCKED, 0, 0), (DEV_FUSE_LOCK, 0, 0)] s t

/-- The state after reset has canonical memories, no waiting command, and register fields at the values the register tables give (01_carriages_and_levels.md, 02_number_formats.md, 11_cotric_links.md). -/
def Obligations.ResetMeetsTheInvariants : Prop :=
  State.reset.memoriesWf ∧ State.reset.pending = [] ∧ (∀ (f : Fld) (u i : Nat), State.reset.fld f u i = f.rst) ∧
    State.reset.fld DEV_ID_DEVCODE 0 = 0x9C96 ∧ State.reset.fld DEV_ID_STEPL 0 = 1 ∧ State.reset.fld DEV_ID_STEPD 0 = 0 ∧
    (∀ k, State.reset.fld NUMCTL_DNZ k = 0 ∧ State.reset.fld NUMCTL_FORERUN k = 0 ∧ State.reset.fld NUMCTL_SATFINITE k = 0 ∧ State.reset.fld NUMCTL_NANTRAP k = 0) ∧
    (∀ c l, State.reset.fld LNK_TAPINIT_PRE2 c l = 0 ∧ State.reset.fld LNK_TAPINIT_PRE1 c l = 4 ∧ State.reset.fld LNK_TAPINIT_MAIN c l = 52 ∧
      State.reset.fld LNK_TAPINIT_POST1 c l = 8 ∧ State.reset.fld LNK_TAPINIT_POST2 c l = 0 ∧ State.reset.fld LNK_CTL_RETRYTMO c l = 0x7D0 ∧
      State.reset.fld LNK_INJ_COUNT c l = 1) ∧
    State.reset.fld DEV_DBG_LEVEL 0 = 0

/-- A command that writes a register which does not answer is a stray access; an event from outside waits for a slot boundary while lockstep runs (R54, R56, R310, R311, R606, 07_same_bits_any_count.md). -/
def Obligations.EventsFromOutsideWaitAndSilentRegistersStray : Prop :=
  (∀ (i : Instr) (f : Fld) (u idx : Nat) (hi : Bool) (s : State), fieldWritten i = some (f, u, idx, hi) →
    (s.answersAt (f.bar0 u idx + 4 * b2n hi) = false → ∃ t, exec i s = .next t ∧ t.resp = .done ∧ StrayTaken 2 (f.bar0 u idx + 4 * b2n hi) true s t) ∧
    (s.answersAt (f.bar0 u idx + 4 * b2n hi) = true → s.withheld = true → Waits i 7 0 s)) ∧
  (∀ (i : Instr) (rank : Nat) (s : State), eventRank i = some rank → s.withheld = true → Waits i rank 0 s) ∧
  (∀ (src : FaultSrc) (s : State), s.withheld = true → Waits (.faultReport src) 2 (s.faultCycle src + s.slotLen) s) ∧
  ∀ s : State, s.withheld = true → Waits .hangExpiry 2 (s.fld DEV_LSCYC_CYC 0 + s.slotLen) s

/-- Misaligned, reserved and unanswered BAR0 accesses complete as the rules say, are counted, and are recorded unless a record is held (R18, R53, R56). -/
def Obligations.StrayAccessesAreCountedAndRecorded : Prop :=
  (∀ (off : BitVec 30) (bytes : Nat) (write : Bool) (s : State), off.toNat % 4 ≠ 0 ∨ bytes ≠ 4 →
      ∃ t, exec (.misalignedAccess off bytes write) s = .next t ∧ t.resp = .ur ∧ StrayTaken 3 off.toNat write s t) ∧
  (∀ (off : BitVec 30) (write : Bool) (s : State), off.toNat % 4 = 0 → bar0Spot off.toNat = .reserved → ¬ carAsleep s off →
      ∃ t, exec (.reservedRangeAccess off write) s = .next t ∧ t.resp = (if write then .done else .data 0) ∧ StrayTaken 1 off.toNat write s t) ∧
  (∀ (off : BitVec 30) (write : Bool) (s : State), off.toNat % 4 = 0 → carAsleep s off →
      ∃ t, exec (.notAnsweringAccess off write) s = .next t ∧ t.resp = (if write then .done else .data 0xFFFFFFFF) ∧ StrayTaken 2 off.toNat write s t)

/-- A write stores RW fields and clears W1C bits, a read of an RC field returns and clears it, an offset that names no register reads zero (R22, R23, R26, Table 0.2, 00_scope.md, 02_number_formats.md). -/
def Obligations.RegisterWritesAndReadsByAccessCode : Prop :=
  (∀ (k : Coach) (v : BitVec 32) (s : State), s.carState (carOf k) = 0 → s.pwr.s3 = false → s.withheld = false →
      ∃ t, exec (.registerWrite (coachOff k 0xC000) v) s = .next t ∧ t.resp = .done ∧
        t.fld NUMCTL_DNZ k = bitsOf v.toNat 0 1 ∧ t.fld NUMCTL_FORERUN k = bitsOf v.toNat 1 1 ∧ t.fld NUMCTL_SATFINITE k = bitsOf v.toNat 2 1 ∧
        t.fld NUMCTL_NANTRAP k = bitsOf v.toNat 3 1 ∧
        OnlyFieldsResp [(NUMCTL_DNZ, k, 0), (NUMCTL_FORERUN, k, 0), (NUMCTL_SATFINITE, k, 0), (NUMCTL_NANTRAP, k, 0)] s t) ∧
  (∀ (k : Coach) (v : BitVec 32) (s : State), s.carState (carOf k) = 0 → s.pwr.s3 = false → s.withheld = false →
      ∃ t, exec (.registerWrite (coachOff k 0xC004) v) s = .next t ∧
        (∀ x ∈ [(NUMSTAT_FLUSHED, 0), (NUMSTAT_SATURATED, 1), (NUMSTAT_NANINF, 2), (NUMSTAT_NANBLOCK, 3)], s.fld x.1 k < 2 →
          t.fld x.1 k = if bitsOf v.toNat x.2 1 = 1 then 0 else s.fld x.1 k) ∧
        OnlyFieldsResp [(NUMSTAT_FLUSHED, k, 0), (NUMSTAT_SATURATED, k, 0), (NUMSTAT_NANINF, k, 0), (NUMSTAT_NANBLOCK, k, 0)] s t) ∧
  (∀ s : State, ∃ t, exec (.readClear 0x14) s = .next t ∧ t.resp = .data (s.fld DEV_STRAY_CNT_COUNT 0) ∧ t.fld DEV_STRAY_CNT_COUNT 0 = 0 ∧
        OnlyFieldsResp [(DEV_STRAY_CNT_COUNT, 0, 0)] s t) ∧
  (∀ (off : BitVec 30) (write : Bool) (s : State), off.toNat % 4 = 0 → ¬ carAsleep s off → bar0Spot off.toNat ≠ .reserved → s.slots off.toNat = [] →
      exec (.unnamedOffsetAccess off write) s = .next { s with resp := if write then .done else .data 0 })

/-- A pair's low read latches the high word, a high read returns the latch, a low write is held, and a high write makes both words take effect (R19, R20). -/
def Obligations.RegisterPairsReadAndWriteWhole : Prop :=
  (∀ s : State, s.pwr.s3 = false → ∃ t, exec (.pairLowRead 0x108) s = .next t ∧ t.resp = .data (s.fld DEV_LSCYC_CYC 0 % 2 ^ 32) ∧
      t = { s with latches := t.latches, resp := t.resp } ∧
      ∀ u : State, u.latches = t.latches → u.pwr.s3 = false →
        exec (.pairHighRead 0x10C) u = .next { u with resp := .data (s.fld DEV_LSCYC_CYC 0 / 2 ^ 32 % 2 ^ 32) }) ∧
  (∀ s : State, s.pwr.s3 = false → s.latches = [] → exec (.pairHighRead 0x10C) s = .next { s with resp := .data (s.fld DEV_LSCYC_CYC 0 / 2 ^ 32) }) ∧
  (∀ (lo hi : BitVec 32) (s : State), s.pwr.s3 = false → s.withheld = false → ∃ t u, exec (.pairLowWrite 0x200008 lo) s = .next t ∧
      t = { s with held := t.held, resp := .done } ∧
      exec (.pairHighWrite 0x20000C hi) t = .next u ∧ u.fld CFG_SRCADDR_ADDR 0 = bitsOf (lo.toNat + hi.toNat * 2 ^ 32) 4 60 ∧
      u = { s with fields := u.fields, held := u.held, resp := .done } ∧ SameFields [(CFG_SRCADDR_ADDR, 0, 0)] s u)

/-- NUM_CTRCLR clears the running totals of saturated codes, flushed elements and NaN blocks, each alone (R99, 02_number_formats.md). -/
def Obligations.RunningTotalsClear : Prop :=
  (∀ (k : Coach) (s : State), Hits NUM_CTRCLR_SATTOT k 0 s → ∃ t, exec (.clearSattot k) s = .next t ∧ t.fld NUM_SATTOT_SATTOT k = 0 ∧ OnlyFields [(NUM_SATTOT_SATTOT, k, 0)] s t) ∧
  (∀ (k : Coach) (s : State), Hits NUM_CTRCLR_FLUSHTOT k 0 s → ∃ t, exec (.clearFlushtot k) s = .next t ∧ t.fld NUM_FLUSHTOT_FLUSHTOT k = 0 ∧ OnlyFields [(NUM_FLUSHTOT_FLUSHTOT, k, 0)] s t) ∧
  (∀ (k : Coach) (s : State), Hits NUM_CTRCLR_NANBLKTOT k 0 s → ∃ t, exec (.clearNanblktot k) s = .next t ∧ t.fld NUM_NANBLKTOT_NANBLKTOT k = 0 ∧
    OnlyFields [(NUM_NANBLKTOT_NANBLKTOT, k, 0)] s t)

/-- NOP, SETNUM, SETSP, SETC and LOOP complete at issue, each with its own effect and no other (R179, R186, R203, R206, Table 4.14, 04_coaches.md). -/
def Obligations.ControlInstructionsCompleteAtIssue : Prop :=
  (∀ (k : Coach) (s : State), IssueReady k 0 s → (iFence (s.atPc k) = false ∨ (s.coach k).flight = []) →
    ∃ t, exec (.nop k) s = .next t ∧ PassedOn k s t ∧ ClosedBy k (s.atPc k) s t ∧ t.coach k = { s.coach k with ops := (t.coach k).ops } ∧
      OnlyCoach k [(COA_PC_PC, k, 0), (COA_ISSUED_ISSUED, k, 0), (COA_SEQ_SEQ, k, 0)] s t) ∧
  (∀ (k : Coach) (s : State), IssueReady k 9 s → (iFence (s.atPc k) = false ∨ (s.coach k).flight = []) →
    ∃ t, exec (.setnum k) s = .next t ∧ PassedOn k s t ∧ ClosedBy k (s.atPc k) s t ∧ t.coach k = { s.coach k with ops := (t.coach k).ops } ∧
      t.fld NUMCTL_DNZ k = fieldOf (s.atPc k) 1 0 1 ∧ t.fld NUMCTL_FORERUN k = fieldOf (s.atPc k) 1 1 1 ∧
      t.fld NUMCTL_SATFINITE k = fieldOf (s.atPc k) 1 2 1 ∧ t.fld NUMCTL_NANTRAP k = fieldOf (s.atPc k) 1 3 1 ∧
      OnlyCoach k [(COA_PC_PC, k, 0), (COA_ISSUED_ISSUED, k, 0), (COA_SEQ_SEQ, k, 0), (NUMCTL_DNZ, k, 0), (NUMCTL_FORERUN, k, 0),
        (NUMCTL_SATFINITE, k, 0), (NUMCTL_NANTRAP, k, 0)] s t) ∧
  (∀ (k : Coach) (s : State), IssueReady k 0xA s → (iFence (s.atPc k) = false ∨ (s.coach k).flight = []) →
    ∃ t, exec (.setsp k) s = .next t ∧ PassedOn k s t ∧ ClosedBy k (s.atPc k) s t ∧ t.coach k = { s.coach k with ops := (t.coach k).ops } ∧
      t.fld COA_SP_ADDR k (fieldOf (s.atPc k) 0 21 2) = fieldOf (s.atPc k) 1 0 23 ∧
      OnlyCoach k [(COA_PC_PC, k, 0), (COA_ISSUED_ISSUED, k, 0), (COA_SEQ_SEQ, k, 0), (COA_SP_ADDR, k, fieldOf (s.atPc k) 0 21 2)] s t) ∧
  (∀ (k : Coach) (s : State), IssueReady k 0xB s → (iFence (s.atPc k) = false ∨ (s.coach k).flight = []) →
    ∃ t, exec (.setc k) s = .next t ∧ PassedOn k s t ∧ ClosedBy k (s.atPc k) s t ∧ t.coach k = { s.coach k with ops := (t.coach k).ops } ∧
      t.fld COA_LOOP_COUNT k (fieldOf (s.atPc k) 0 21 2) = fieldOf (s.atPc k) 1 0 32 ∧
      OnlyCoach k [(COA_PC_PC, k, 0), (COA_ISSUED_ISSUED, k, 0), (COA_SEQ_SEQ, k, 0), (COA_LOOP_COUNT, k, fieldOf (s.atPc k) 0 21 2)] s t) ∧
  ∀ (k : Coach) (s : State) (v : Nat), IssueReady k 0xC s → (iFence (s.atPc k) = false ∨ (s.coach k).flight = []) →
    v = s.fld COA_LOOP_COUNT k (fieldOf (s.atPc k) 0 21 2) → v < 2 ^ 32 →
    ∃ t, exec (.loop k) s = .next t ∧ ClosedBy k (s.atPc k) s t ∧ t.coach k = { s.coach k with ops := (t.coach k).ops } ∧
      t.fld COA_ISSUED_ISSUED k = (s.fld COA_ISSUED_ISSUED k + 1) % 2 ^ 64 ∧
      t.fld COA_LOOP_COUNT k (fieldOf (s.atPc k) 0 21 2) = v - 1 ∧
      t.fld COA_PC_PC k = (if 2 ≤ v then fieldOf (s.atPc k) 1 0 10 else s.fld COA_PC_PC k + 1) ∧
      OnlyCoach k [(COA_PC_PC, k, 0), (COA_ISSUED_ISSUED, k, 0), (COA_SEQ_SEQ, k, 0), (COA_LOOP_COUNT, k, fieldOf (s.atPc k) 0 21 2)] s t

/-- An unknown opcode, a failed issue check and passing index 1,023 stop the coach, are recorded once and reported (R177, R191, R209, R210, R213, Table 4.15, 04_coaches.md). -/
def Obligations.SequencerFaultsStopIssue : Prop :=
  (∀ (k : Coach) (s : State), s.issuing k = true → opOf (s.atPc k) ∉ knownOps →
    ∃ t, exec (.badop k) s = .next t ∧ SeqFaulted k 1 (s.fld COA_PC_PC k) s t ∧
      OnlyCoach k (faultFlds k) { s with reports := t.reports } t ∧ t.coach k = { s.coach k with halted := true } ∧
      exec (.nop k) t = .next t) ∧
  (∀ (k : Coach) (c : Coach → Instr) (op : Nat) (s : State),
    (c, op) ∈ [(Instr.nop, 0), (.pass, 3), (.vadd, 0x48), (.endWorkOrder, 0xF)] →
    s.issuing k = true → opOf (s.atPc k) = op → badField (s.atPc k) = true →
    (∀ u, unitOf op = some u → ((s.coach k).flight.filter (fun i => unitOf (opOf i.w) == some u && !i.started)).length < queueDepth u) →
    ∃ t, exec (c k) s = .next t ∧ SeqFaulted k 2 (s.fld COA_PC_PC k) s t ∧
      OnlyCoach k (faultFlds k) { s with reports := t.reports } t ∧ t.coach k = { s.coach k with halted := true }) ∧
  ∀ (k : Coach) (s : State), s.issuing k = true → opOf (s.atPc k) = 0 → badField (s.atPc k) = false → s.fld COA_PC_PC k = 1023 →
    iFence (s.atPc k) = false → iClose (s.atPc k) = false →
    ∃ t, exec (.nop k) s = .next t ∧ SeqFaulted k 4 1023 s t ∧ t.fld COA_PC_PC k = 1023 ∧
      OnlyCoach k ((COA_ISSUED_ISSUED, k.val, 0) :: faultFlds k) { s with reports := t.reports } t

/-- SYNC waits in state WAIT until its counter holds VALUE, then subtracts VALUE and goes on (R205). -/
def Obligations.SyncTakesItsCount : Prop :=
  (∀ (k : Coach) (s : State), IssueReady k 8 s → (iFence (s.atPc k) = false ∨ (s.coach k).flight = []) →
    fieldOf (s.atPc k) 1 0 16 ≤ s.fld COA_SYNC_COUNT k (fieldOf (s.atPc k) 0 21 4) → s.fld COA_SYNC_COUNT k (fieldOf (s.atPc k) 0 21 4) < 2 ^ 32 →
    ∃ t, exec (.sync k) s = .next t ∧ PassedOn k s t ∧ ClosedBy k (s.atPc k) s t ∧
      t.fld COA_SYNC_COUNT k (fieldOf (s.atPc k) 0 21 4) = s.fld COA_SYNC_COUNT k (fieldOf (s.atPc k) 0 21 4) - fieldOf (s.atPc k) 1 0 16 ∧
      OnlyCoach k [(COA_PC_PC, k, 0), (COA_ISSUED_ISSUED, k, 0), (COA_SEQ_SEQ, k, 0), (COA_SYNC_COUNT, k, fieldOf (s.atPc k) 0 21 4)] s t) ∧
  (∀ (k : Coach) (s : State), IssueReady k 8 s → s.fld COA_SYNC_COUNT k (fieldOf (s.atPc k) 0 21 4) < fieldOf (s.atPc k) 1 0 16 →
    ∃ t, exec (.sync k) s = .next t ∧ t.fld COA_STATE_STATE k = 3 ∧ (t.coach k).ctrl.map (·.w) = some (s.atPc k) ∧
      OnlyCoach k [(COA_ISSUED_ISSUED, k, 0), (COA_STATE_STATE, k, 0)] s t ∧ exec (.syncComplete k) t = .next t) ∧
  ∀ (k : Coach) (i : Inf) (s : State), (s.coach k).ctrl = some i → opOf i.w = 8 → s.coachStill = false → i.pc < 1023 →
    (iFence i.w = false ∨ (s.coach k).flight = []) →
    fieldOf i.w 1 0 16 ≤ s.fld COA_SYNC_COUNT k (fieldOf i.w 0 21 4) → s.fld COA_SYNC_COUNT k (fieldOf i.w 0 21 4) < 2 ^ 32 →
    ∃ t, exec (.syncComplete k) s = .next t ∧
      t.fld COA_STATE_STATE k = (if s.fld COA_STATE_STATE k = 3 then 2 else s.fld COA_STATE_STATE k) ∧ (t.coach k).ctrl = none ∧ t.fld COA_PC_PC k = i.pc + 1 ∧
      t.fld COA_SYNC_COUNT k (fieldOf i.w 0 21 4) = s.fld COA_SYNC_COUNT k (fieldOf i.w 0 21 4) - fieldOf i.w 1 0 16 ∧
      OnlyCoach k [(COA_PC_PC, k, 0), (COA_STATE_STATE, k, 0), (COA_SEQ_SEQ, k, 0), (COA_SYNC_COUNT, k, fieldOf i.w 0 21 4)] s t

/-- SWAPB exchanges a stream's halves once its waits end; until then it holds issue (R204, R260, R261, R253, 06_feeding_the_coaches.md). -/
def Obligations.SwapbExchangesTheHalves : Prop :=
  (∀ (k : Coach) (s : State) (n : Nat), IssueReady k 7 s → n = fieldOf (s.atPc k) 0 21 3 → (iFence (s.atPc k) = false ∨ (s.coach k).flight = []) →
    (s.coach k).flight.any (fun i => usesHalf i n) = false → (s.strm k n).landed = (s.strm k n).share →
    ∃ t, exec (.swapb k) s = .next t ∧ PassedOn k s t ∧ t.fld STR_STATE_CONS k n = (1 - s.fld STR_STATE_CONS k n) % 2 ∧
      (t.strm k n).cons = 0 ∧ (t.strm k n).prod = 0 ∧ (t.strm k n).landed = 0 ∧ (t.strm k n).reqd = 0 ∧
      (t.strm k n).recv = (if s.fld STR_CFG_DIR k n = 0 then (s.strm k n).share else 0) ∧
      (t.strm k n).shareOff = (s.strm k n).shareOff + (s.strm k n).share ∧ (∀ m, m ≠ n → t.strm k m = s.strm k m) ∧
      OnlyCoach k [(COA_PC_PC, k, 0), (COA_ISSUED_ISSUED, k, 0), (COA_SEQ_SEQ, k, 0), (STR_STATE_CONS, k, n)] s t) ∧
  (∀ (k : Coach) (s : State) (n : Nat), IssueReady k 7 s → n = fieldOf (s.atPc k) 0 21 3 →
    ((s.coach k).flight.any (fun i => usesHalf i n) = true ∨ (s.strm k n).landed ≠ (s.strm k n).share) →
    ∃ t, exec (.swapb k) s = .next t ∧ (t.coach k).ctrl.map (·.w) = some (s.atPc k) ∧
      OnlyCoach k [(COA_ISSUED_ISSUED, k, 0)] s t ∧ exec (.swapbComplete k) t = .next t) ∧
  ∀ (k : Coach) (i : Inf) (s : State) (n : Nat), (s.coach k).ctrl = some i → s.coachStill = false → opOf i.w = 7 → n = fieldOf i.w 0 21 3 → i.pc < 1023 →
    (iFence i.w = false ∨ (s.coach k).flight = []) →
    (s.coach k).flight.any (fun j => usesHalf j n) = false → (s.strm k n).landed = (s.strm k n).share →
    ∃ t, exec (.swapbComplete k) s = .next t ∧ (t.coach k).ctrl = none ∧ t.fld COA_PC_PC k = i.pc + 1 ∧
      t.fld STR_STATE_CONS k n = (1 - s.fld STR_STATE_CONS k n) % 2 ∧ (t.strm k n).cons = 0 ∧ (t.strm k n).prod = 0 ∧
      OnlyCoach k [(COA_PC_PC, k, 0), (COA_SEQ_SEQ, k, 0), (STR_STATE_CONS, k, n)] s t

/-- An operation that has ended writes its status record at its pointer, advances it by whole 16 bytes, and traps on a NaN if asked (R92, R186, R188, R189, R94, 04_coaches.md, 02_number_formats.md). -/
def Obligations.OperationsEndWithTheirRecord : Prop :=
  (∀ (k : Coach) (s : State) (o : Opn) (rest : List Opn) (a n : Nat), (s.coach k).ops = o :: rest → s.coachStill = false → opReady (s.coach k) o = true → o.statSel < 4 →
    a = s.fld COA_SP_ADDR k o.statSel → n = (statusRecord o (opTraps o)).length → a + n ≤ storeSize →
    ∃ t, exec (.operationEnd k) s = .next t ∧ t.storeRead k a n = (statusRecord o (opTraps o)).map (· % 256) ∧
      SameBytesBut k a n s t ∧ t.fld COA_SP_ADDR k o.statSel = (a + ceilDiv n 16 * 16) % 2 ^ 23 ∧ (t.coach k).ops = rest ∧
      (o.mode.nanTrap = true → (o.sawNan = true ∨ 0 < o.nanBlk) → t.fld COA_STATE_STATE k = (if s.fld COA_STATE_STATE k = 5 then 5 else 4) ∧ (t.coach k).halted = true ∧ t.fld NUM_TRAPINFO_VALID k = 1 ∧
        (if s.fld NUM_TRAPINFO_VALID k = 1 then t.fld NUM_TRAPINFO_MORE k = 1 ∧ t.fld NUM_TRAPSEQ_SEQ k = s.fld NUM_TRAPSEQ_SEQ k
          else t.fld NUM_TRAPINFO_MORE k = 0 ∧ t.fld NUM_TRAPSEQ_SEQ k = o.seq % 2 ^ 32)) ∧
      OnlyCoach k (endFlds k) { s with store := t.store, reports := t.reports } t) ∧
  (∀ (k : Coach) (s : State), s.issuing k = true → opOf (s.atPc k) = 0xF → badField (s.atPc k) = false → (s.coach k).flight = [] → (s.coach k).ops = [] →
    ∃ t, exec (.endWorkOrder k) s = .next t ∧ t.fld COA_STATE_STATE k = 1 ∧ t.coach k = { s.coach k with ended := true, idleFrom := s.coachCycles } ∧
      t.fld COA_PC_PC k = min 1023 (s.fld COA_PC_PC k + 1) ∧ t.fld COA_ISSUED_ISSUED k = (s.fld COA_ISSUED_ISSUED k + 1) % 2 ^ 64 ∧
      OnlyCoach k [(COA_PC_PC, k, 0), (COA_ISSUED_ISSUED, k, 0), (COA_STATE_STATE, k, 0)] s t) ∧
  ∀ (k : Coach) (s : State), s.issuing k = true → opOf (s.atPc k) = 0xF → badField (s.atPc k) = false → ((s.coach k).flight ≠ [] ∨ (s.coach k).ops ≠ []) →
    ∃ t, exec (.endWorkOrder k) s = .next t ∧ (t.coach k).ending = true ∧ t.issuing k = false ∧ ClosedBy k (s.atPc k ||| 2 ^ 8) s t ∧
      OnlyCoach k [(COA_ISSUED_ISSUED, k, 0), (COA_SEQ_SEQ, k, 0)] s t

/-- The lane arithmetic and moves write each lane of VD from the lanes of VA, VB and VC, rounded once, and nothing else (R171, R216, R223, R225, R226, R185, Table 5.4, 05_vector_engine.md). -/
def Obligations.VectorArithmeticByLane : Prop :=
  Result Instr.vadd 0x48 iP (lanes2 Val.add) ∧
  Result Instr.vsub 0x49 iP (lanes2 (fun a b => a.add b.negate)) ∧
  Result Instr.vmul 0x4A iP (lanes2 Val.mul) ∧
  Result Instr.vfma 0x4B iP (lanes3 (fun a b c => (a.mul b).add c)) ∧
  Result Instr.vfms 0x4C iP (lanes3 (fun a b c => (a.mul b).add c.negate)) ∧
  Result Instr.vmin 0x4D iP (lanes2 vMin) ∧
  Result Instr.vmax 0x4E iP (lanes2 vMax) ∧
  Result Instr.vabs 0x4F iP (fun md k s w => (vals md (iP w) k (iVa w) s).map (fun v => laneCode md (iP w) (vAbs v))) ∧
  Result Instr.vmov 0x42 iP (fun _ k s w => s.kindCodes k (s.fld VEC_LOOP_RRB k) (iVa w) (iP w)) ∧
  Result Instr.vbcast 0x43 (fun _ => false) (fun _ _ _ w => List.replicate 512 (fieldOf w 2 0 32)) ∧
  ∀ (c : Coach → Instr) (op : Nat) (k : Coach) (o : Opn) (s : State),
    (c, op) ∈ [(Instr.vadd, 0x48), (.vsub, 0x49), (.vmul, 0x4A), (.vfma, 0x4B), (.vfms, 0x4C), (.vmin, 0x4D), (.vmax, 0x4E), (.vabs, 0x4F)] →
    IssueReady k op s → (s.coach k).flight = [] → (s.coach k).ops = [o] → o.closed = false → o.failed = true → isLive (s.loopSt k) (s.atPc k) = true →
    ∃ t, exec (c k) s = .next t ∧ PassedOn k s t ∧ t.vreg = s.vreg ∧ SameMemories s t

/-- The special functions write each lane of VD from the lane of VA: Table 3.8 exactly, every other result within the bound of Table 3.7 (R141, R142, R143, R145, R227, Table 3.7, Table 3.8, 05_vector_engine.md). -/
def Obligations.VectorSpecialFunctionsByLane : Prop :=
  Result Instr.vrcp 0x50 (fun _ => false) (lanesSpecial 0) ∧
  Result Instr.vrsqrt 0x51 (fun _ => false) (lanesSpecial 1) ∧
  Result Instr.vexp2 0x52 (fun _ => false) (lanesSpecial 2) ∧
  Result Instr.vlog2 0x53 (fun _ => false) (lanesSpecial 3) ∧
  Result Instr.vtanh 0x54 (fun _ => false) (lanesSpecial 4) ∧
  Result Instr.vsin 0x55 (fun _ => false) (lanesSpecial 5) ∧
  Result Instr.vcos 0x56 (fun _ => false) (lanesSpecial 6) ∧
  (∀ fn code, fn < 7 → specialFn fn code .nan = .val .nan) ∧
  (∀ code neg, specialFn 0 code (.inf neg) = .val (.zero neg) ∧ specialFn 0 code (.zero neg) = .val (.inf neg) ∧
    specialFn 1 code (.inf neg) = .val (if neg then .nan else .zero false) ∧ specialFn 1 code (.zero neg) = .val (.inf neg) ∧
    specialFn 2 code (.inf neg) = .val (if neg then .zero false else .inf false) ∧ specialFn 2 code (.zero neg) = .val (.fin false 1 0) ∧
    specialFn 3 code (.inf neg) = .val (if neg then .nan else .inf false) ∧ specialFn 3 code (.zero neg) = .val (.inf true) ∧
    specialFn 4 code (.inf neg) = .val (.fin neg 1 0) ∧ specialFn 4 code (.zero neg) = .val (.zero neg) ∧
    specialFn 5 code (.inf neg) = .val .nan ∧ specialFn 5 code (.zero neg) = .val (.zero neg) ∧
    specialFn 6 code (.inf neg) = .val .nan ∧ specialFn 6 code (.zero neg) = .val (.fin false 1 0)) ∧
  (∀ code m e, m ≠ 0 → specialFn 1 code (.fin true m e) = .val .nan ∧ specialFn 3 code (.fin true m e) = .val .nan ∧
    (inTrigDomain m e = false → ∀ neg, specialFn 5 code (.fin neg m e) = .val .nan ∧ specialFn 6 code (.fin neg m e) = .val .nan)) ∧
  (∀ code neg m e, m ≠ 0 →
    (rcpOver m e = true → specialFn 0 code (.fin neg m e) = .over neg) ∧
    (rcpOver m e = false → specialFn 0 code (.fin neg m e) = .val (rcpNear m e neg) ∨
      ∃ c, specialFn 0 code (.fin neg m e) = .val c ∧ rcpOk (.fin neg m e) c = true) ∧
    (specialFn 1 code (.fin false m e) = .val (rsqrtNear m e) ∨ ∃ c, specialFn 1 code (.fin false m e) = .val c ∧ rsqrtOk (.fin false m e) c = true) ∧
    (floorVal neg m e ≥ 128 → specialFn 2 code (.fin neg m e) = .over false) ∧
    (-200 ≤ floorVal neg m e → floorVal neg m e < 128 → Within 2 (fpExp2 neg m e) (specialFn 2 code (.fin neg m e))) ∧
    (¬ (m = 2 ^ m.log2 ∧ lead m e = 0) → Within 2 (fpLog2 m e) (specialFn 3 code (.fin false m e))) ∧
    Within 3 (fpUnit (signedFp neg (fpTanh m e))) (specialFn 4 code (.fin neg m e)) ∧
    (inTrigDomain m e = true → Within 2 (fpUnit (signedFp neg (fpSin m e))) (specialFn 5 code (.fin neg m e)) ∧
      Within 2 (fpUnit (fpCos m e)) (specialFn 6 code (.fin neg m e)))) ∧
  ∀ fn code neg m e, fn ∈ [4, 5, 6] → m ≠ 0 → specialFn fn code (.fin neg m e) ≠ .val .nan →
    ∃ c, specialFn fn code (.fin neg m e) = .val c ∧ c.lt (.fin true 1 0) = false ∧ (Val.fin false 1 0).lt c = false

/-- VCVT, VRSUM, VMAXI, VMINI and SWB write VD with conversions, exact sums, first extremes with their index, and scaled accumulators (R215, R228, R238, R239, R240, R241, R246, 05_vector_engine.md). -/
def Obligations.VectorConversionsAndReductions : Prop :=
  (∀ (k : Coach) (md : NumMode) (s : State), VecReady k 0x58 md s → ∃ t, exec (.vcvt k) s = .next t ∧
    (let w := s.atPc k
     let sk := fieldOf w 1 28 2
     let dk := fieldOf w 1 30 2
     let fmt := fun (x : Nat) => if x = 0 then Fmt.f32 else if x = 1 then .f64 else .x24
     let vs := (readVals md (fmt sk) ((s.kindCodes k (s.fld VEC_LOOP_RRB k) (iVa w) (sk == 1)).map (fun c => if sk = 2 then c % 2 ^ 24 else c))).1
     let cs := vs.map (fun v => (convertVal md (fieldOf w 1 25 1 == 1) (fmt dk) v).code)
     t.kindCodes k (s.fld VEC_LOOP_RRB k) (iVd w) (dk == 1) = (if dk = 2 then cs.map x24Lane else cs).map (· % 2 ^ (kindFmt (dk == 1)).width) ∧
     VecFrame k (physRegs (s.fld VEC_LOOP_RRB k) (iVd w) (dk == 1)) [] s t)) ∧
  Result Instr.vrsum 0x5C (fun _ => false) (fun md k s w =>
    let vs := vals md false k (iVa w) s
    let sums := if fieldOf w 1 26 1 = 1 then (groups16 vs).map (fun v => (sumVals v).source 0) else [(sumVals vs).source 0]
    (sums ++ List.replicate (512 - sums.length) (Val.zero false)).map (laneCode md false)) ∧
  (∀ isMax : Bool, Result (if isMax then Instr.vmaxi else Instr.vmini) (if isMax then 0x5D else 0x5E) (fun _ => false) (fun md k s w =>
    let cands := (vals md false k (iVa w) s).zipIdx.map (fun (vj : Val × Nat) => (vj.1, (fieldOf w 2 0 32 + vj.2) % 2 ^ 32))
    let old := s.lanes k (physReg (s.fld VEC_LOOP_RRB k) (iVd w))
    let sets := if fieldOf w 1 26 1 = 1 then groups16 cands else [cands]
    let res := sets.zipIdx.map (fun (cg : List (Val × Nat) × Nat) => firstOf isMax (cg.1 ++
      (if fieldOf w 1 27 1 = 1 then [((readCode md .f32 (old.getD (2 * cg.2) 0)).1, old.getD (2 * cg.2 + 1) 0)] else [])))
    let ls := (res.map (fun (r : Val × Nat) => [laneCode md false r.1, r.2])).flatten
    ls ++ List.replicate (512 - ls.length) 0)) ∧
  Result Instr.swb 0x62 (fun _ => false) (fun md k s w =>
    (s.sigAccs k (fieldOf w 1 22 3)).map (fun a =>
      x24Lane (convertVal md (fieldOf w 1 25 1 == 1) .x24 (valOfInt (toSigned 56 a) (-46 - (fieldOf w 1 28 4 : Int)))).code))

/-- VLD, VST, VQUANT and SDSPLIT move lanes between VD or VA and the coach store at the addresses of their layout, and touch nothing else (R229, R230, R231, R232, R233, R236, R237, 05_vector_engine.md). -/
def Obligations.VectorLoadsAndStores : Prop :=
  (∀ (k : Coach) (md : NumMode) (s : State), VecReady k 0x40 md s → ∃ t, exec (.vld k) s = .next t ∧
    VecFrame k (physRegs (s.fld VEC_LOOP_RRB k) (iVd (s.atPc k)) (iP (s.atPc k)))
      (if fieldOf (s.atPc k) 3 0 1 = 1 then cbFlds k (s.atPc k) else []) { s with freeIx := t.freeIx } t ∧
    ∀ f sc, fselOf (iFmt (s.atPc k)) = some ⟨f, sc⟩ → (∀ g, g < 16 → s.groupOk k (s.atPc k) g (f.width / 8) = true) →
      t.kindCodes k (s.fld VEC_LOOP_RRB k) (iVd (s.atPc k)) (iP (s.atPc k)) =
        ((List.range 16).map (loadedGroup md k s (s.atPc k) f sc)).flatten.map (· % 2 ^ (kindFmt (iP (s.atPc k))).width) ∧
      PointersMoved k (s.atPc k) s t ∧ t.freeIx = s.freeIx) ∧
  (∀ (k : Coach) (md : NumMode) (s : State), VecReady k 0x41 md s → ∃ t, exec (.vst k) s = .next t ∧
    VecFrame k [] (if fieldOf (s.atPc k) 3 0 1 = 1 then cbFlds k (s.atPc k) else []) { s with freeIx := t.freeIx, store := t.store } t ∧
    ∀ f, fselOf (iFmt (s.atPc k)) = some ⟨f, false⟩ → (∀ g, g < 16 → s.groupOk k (s.atPc k) g (f.width / 8) = true) →
      PointersMoved k (s.atPc k) s t ∧ t.freeIx = s.freeIx ∧
      (∀ x, (∀ g a, g < 16 → a ∈ s.elemAddrs k (s.atPc k) g (f.width / 8) → x < k * storeSize + a ∨ k * storeSize + a + f.width / 8 ≤ x) →
        memByte t.store x = memByte s.store x) ∧
      (fieldOf (s.atPc k) 3 0 1 = 0 → fieldOf (s.atPc k) 2 24 8 = 0 →
        t.storeRead k (fieldOf (s.atPc k) 2 0 23) (64 * f.width) = packElems f.width (storedCodes md k s (s.atPc k) f))) ∧
  (∀ (k : Coach) (md : NumMode) (s : State) (f : Fmt) (sc : Bool) (ea sa : Nat), VecReady k 0x59 md s →
    fselOf (iFmt (s.atPc k)) = some ⟨f, sc⟩ → ea = fieldOf (s.atPc k) 2 0 23 → sa = fieldOf (s.atPc k) 3 4 19 * 16 →
    ea + 64 * f.width ≤ sa ∨ sa + 16 ≤ ea →
    ∃ t, exec (.vquant k) s = .next t ∧ VecFrame k [] [] { s with store := t.store } t ∧
      t.storeRead k sa 16 = ((groups16 (vals md (iP (s.atPc k)) k (iVa (s.atPc k)) s)).map (fun b => (quantBlock md f b).scale % 256)) ∧
      t.storeRead k ea (64 * f.width) = (packElems f.width (((groups16 (vals md (iP (s.atPc k)) k (iVa (s.atPc k)) s)).map
        (fun b => (quantBlock md f b).codes)).flatten)).map (· % 256) ∧
      ∀ x, (x < k * storeSize + ea ∨ k * storeSize + ea + 64 * f.width ≤ x) → (x < k * storeSize + sa ∨ k * storeSize + sa + 16 ≤ x) →
        memByte t.store x = memByte s.store x) ∧
  ∀ (k : Coach) (md : NumMode) (s : State) (ea sa : Nat), VecReady k 0x5A md s →
    ea = fieldOf (s.atPc k) 2 0 23 → sa = fieldOf (s.atPc k) 3 4 19 * 16 → ea + 3584 ≤ sa ∨ sa + 112 ≤ ea →
    ∃ t, exec (.sdsplit k) s = .next t ∧ VecFrame k [] [] { s with store := t.store } t ∧
      (∀ p, p < 7 → let blks := (groups16 (vals md true k (iVa (s.atPc k)) s)).map (fun vs => (splitBlock vs (toSigned 11 (fieldOf (s.atPc k) 1 16 11))).getD p (zeroBlock 32))
        t.storeRead k (sa + p * 16) 16 = blks.map (fun b => b.scale % 256) ∧
        t.storeRead k (ea + p * 512) 512 = ((blks.map (·.codes)).flatten).map (· % 256)) ∧
      ∀ x, (x < k * storeSize + ea ∨ k * storeSize + ea + 3584 ≤ x) → (x < k * storeSize + sa ∨ k * storeSize + sa + 112 ≤ x) →
        memByte t.store x = memByte s.store x

/-- SMAC and SMSU accumulate exactly in 56 bits, VSETCB sets descriptors, VLSET and VROT run the loop; a stage out of turn does nothing (R216, R220, R234, R244, R245, R247, R248, R249, 05_vector_engine.md). -/
def Obligations.SignalModeAndLoops : Prop :=
  (∀ (sub : Bool) (k : Coach) (md : NumMode) (s : State), VecReady k (if sub then 0x61 else 0x60) md s →
    ∃ t, exec (if sub then .smsu k else .smac k) s = .next t ∧ VecFrame k [] [(VEC_SIGSTAT_AOVF, k, 0)] { s with sacc := t.sacc } t ∧
      let w := s.atPc k
      let x := fun i => toSigned 24 (s.lane k (physReg (s.fld VEC_LOOP_RRB k) (iVa w)) i)
      let y := fun i => toSigned 24 (s.lane k (physReg (s.fld VEC_LOOP_RRB k) (iVb w)) (if fieldOf w 1 27 1 = 1 then 32 * (i / 32) + fieldOf w 2 0 5 else i))
      let old := fun i => if fieldOf w 1 26 1 = 1 then 0 else toSigned 56 (s.sigAcc k (fieldOf w 1 22 3) i)
      let new := fun (i : Nat) => old i + (if sub then -(x i * y i) else x i * y i)
      (∀ i, i < 512 → t.sigAcc k (fieldOf w 1 22 3) i = ofSigned 56 (new i)) ∧
      (∀ g, g < 16 → bitsOf (t.fld VEC_SIGSTAT_AOVF k) g 1 =
        if bitsOf (s.fld VEC_SIGSTAT_AOVF k) g 1 = 1 ∨ (∃ i, i < 32 ∧ (new (32 * g + i) < -(2 ^ 55 : Int) ∨ (2 ^ 55 : Int) ≤ new (32 * g + i))) then 1 else 0) ∧
      ∀ j a i, a < 8 → i < 512 → (j ≠ k.val ∨ a ≠ fieldOf w 1 22 3) → t.sigAcc j a i = s.sigAcc j a i) ∧
  (∀ (k : Coach) (md : NumMode) (s : State), VecReady k 0x44 md s → ∃ t, exec (.vsetcb k) s = .next t ∧
    let w := s.atPc k
    VecFrame k [] (((List.range 16).map (fun g => [(VEC_CBBASE_BASE, k.val, 8 * g + fieldOf w 1 16 3), (VEC_CBLEN_LEN, k.val, 8 * g + fieldOf w 1 16 3),
      (VEC_CBPTR_PTR, k.val, 8 * g + fieldOf w 1 16 3)])).flatten) s t ∧
    ∀ g, g < 16 → let gs := fieldOf w 1 19 13 * 16
      let i := 8 * g + fieldOf w 1 16 3
      if bitsOf (fieldOf w 1 0 16) g 1 = 1 then
        t.fld VEC_CBLEN_LEN k i = fieldOf w 3 0 21 ∧
        t.fld VEC_CBBASE_BASE k i = ((if fieldOf w 3 21 1 = 1 then fieldOf w 2 0 23 + g * gs else fieldOf w 2 0 23) / 16) % 2 ^ 19 ∧
        (fieldOf w 3 0 21 ≠ 0 → fieldOf w 3 0 21 ≤ 2 ^ 20 → t.fld VEC_CBPTR_PTR k i = if fieldOf w 3 21 1 = 1 then 0 else (g * gs) % fieldOf w 3 0 21)
      else t.fld VEC_CBLEN_LEN k i = s.fld VEC_CBLEN_LEN k i ∧ t.fld VEC_CBBASE_BASE k i = s.fld VEC_CBBASE_BASE k i ∧
        t.fld VEC_CBPTR_PTR k i = s.fld VEC_CBPTR_PTR k i) ∧
  (∀ (k : Coach) (md : NumMode) (s : State), VecReady k 0x68 md s → ∃ t, exec (.vlset k) s = .next t ∧
    t.loopSt k = { rrb := 0, on := true, sm1 := fieldOf (s.atPc k) 1 0 3, trip := 0, n := fieldOf (s.atPc k) 2 0 32 } ∧
    VecFrame k [] [(VEC_LOOP_RRB, k, 0), (VEC_LOOP_ON, k, 0), (VEC_LOOP_SM1, k, 0), (VEC_TRIP_TRIP, k, 0), (VEC_TRIPN_N, k, 0)] s t) ∧
  (∀ (k : Coach) (md : NumMode) (s : State), VecReady k 0x69 md s → s.fld VEC_LOOP_SM1 k < 8 → s.fld VEC_TRIPN_N k < 2 ^ 32 → s.fld VEC_LOOP_RRB k < 32 →
    s.fld VEC_TRIP_TRIP k < 2 ^ 32 → ∃ t, exec (.vrot k) s = .next t ∧
    t.loopSt k = (if s.flag VEC_LOOP_ON k = true then
        { s.loopSt k with rrb := (s.fld VEC_LOOP_RRB k + 31) % 32, trip := (s.fld VEC_TRIP_TRIP k + 1) % 2 ^ 32,
                          on := decide ((s.fld VEC_TRIP_TRIP k + 1) % 2 ^ 32 < s.fld VEC_TRIPN_N k + s.fld VEC_LOOP_SM1 k) }
      else s.loopSt k) ∧
    VecFrame k [] [(VEC_LOOP_RRB, k, 0), (VEC_LOOP_ON, k, 0), (VEC_LOOP_SM1, k, 0), (VEC_TRIP_TRIP, k, 0), (VEC_TRIPN_N, k, 0)] s t) ∧
  (∀ (c : Coach → Instr) (op : Nat) (k : Coach) (s : State), (c, op) ∈ vecRows →
    IssueReady k op s → (s.coach k).flight = [] → isLive (s.loopSt k) (s.atPc k) = false →
    ∃ t, exec (c k) s = .next t ∧ PassedOn k s t ∧ (t.coach k).flight = [] ∧ (t.coach k).ops = (s.coach k).ops ∧
      OnlyCoach k [(COA_PC_PC, k, 0), (COA_ISSUED_ISSUED, k, 0)] s t) ∧
  (∀ (k : Coach) (n : Nat) (s : State), (∀ i, (s.coach k).vectors[n]? = some i → mayOvertake i.w (((s.coach k).vectors.take n).map (·.w)) = false) →
    exec (.vectorComplete k n) s = .next s) ∧
  ∀ (k : Coach) (n : Nat) (i : Inf) (s : State), s.coachStill = false → (s.coach k).vectors[n]? = some i →
    mayOvertake i.w (((s.coach k).vectors.take n).map (·.w)) = true → (∀ o ∈ (s.coach k).ops, o.closed = true → o.closerId ≠ i.id) →
    ∃ t, exec (.vectorComplete k n) s = .next t ∧ (t.coach k).flight = (s.coach k).flight.filter (fun j => j.id != i.id) ∧
      (t.coach k).ops = (s.coach k).ops ∧ OnlyCoach k [(COA_PC_PC, k, 0), (COA_STATE_STATE, k, 0)] s t

/-- LOADW loads the shadow set, LOADW_COMPLETE makes it ready, SWAPW exchanges the roles, PASS takes the active set (R148, R163, R165, R192, R193, R194, 04_coaches.md). -/
def Obligations.WeightSetsLoadSwapAndServe : Prop :=
  (∀ (k : Coach) (md : NumMode) (s : State), BankReady k 1 md s → ∃ t i, exec (.loadw k) s = .next t ∧ Launched k i s t ∧
    i.wset = 1 - s.fld ARR_WSTATE_ACTIVE k ∧
    i.tile = (tileOf md (s.atPc k) (s.loadwBytes k { id := 0, w := s.atPc k, pc := 0 }).1 (s.loadwBytes k { id := 0, w := s.atPc k, pc := 0 }).2.1).1 ∧
    (t.coach k).loaded (1 - s.fld ARR_WSTATE_ACTIVE k) = false ∧ t.fld ARR_WSTATE_SHREADY k = 0 ∧ t.fld ARR_WSTATE_LOADING k = 1 ∧
    (t.coach k).wset (s.fld ARR_WSTATE_ACTIVE k) = (s.coach k).wset (s.fld ARR_WSTATE_ACTIVE k) ∧
    OnlyCoach k (issueFlds k ++ setFlds4 k) { s with freeIx := t.freeIx } t) ∧
  (∀ (k : Coach) (i : Inf) (s : State), (s.coach k).flight.find? (fun i => opOf i.w == 1 && i.started && !i.finished) = some i → i.wset < 2 → s.coachStill = false →
    ∃ t, exec (.loadwComplete k) s = .next t ∧ (t.coach k).wset i.wset = i.tile ∧ (t.coach k).loaded i.wset = true ∧
      (t.coach k).wset (1 - i.wset) = (s.coach k).wset (1 - i.wset) ∧ (∀ j ∈ (t.coach k).flight, j.id = i.id → j.finished = true) ∧
      (i.wset = 1 - s.fld ARR_WSTATE_ACTIVE k → t.fld ARR_WSTATE_SHREADY k = 1 ∧ t.fld ARR_WSTATE_SFMT k = i.tile.sel % 32) ∧
      OnlyCoach k ((COA_PC_PC, k.val, 0) :: (COA_STATE_STATE, k.val, 0) :: setFlds4 k) s t) ∧
  (∀ (k : Coach) (s : State), IssueReady k 2 s → (s.coach k).flight = [] → s.fld ARR_WSTATE_ACTIVE k < 2 →
    ∃ t, exec (.swapw k) s = .next t ∧ PassedOn k s t ∧ t.fld ARR_WSTATE_ACTIVE k = 1 - s.fld ARR_WSTATE_ACTIVE k ∧
      (t.coach k).set0 = (s.coach k).set0 ∧ (t.coach k).set1 = (s.coach k).set1 ∧
      t.fld ARR_WSTATE_SHREADY k = b2n ((s.coach k).loaded (s.fld ARR_WSTATE_ACTIVE k)) ∧
      t.fld ARR_WSTATE_AFMT k = ((s.coach k).wset (1 - s.fld ARR_WSTATE_ACTIVE k)).sel % 32 ∧
      (∀ i ∈ (t.coach k).flight, i.finished = true) ∧
      OnlyCoach k ([(COA_PC_PC, k.val, 0), (COA_ISSUED_ISSUED, k.val, 0), (COA_SEQ_SEQ, k.val, 0), (ARR_WSTATE_ACTIVE, k.val, 0)] ++ setFlds4 k) s t) ∧
  ∀ (k : Coach) (s : State), IssueReady k 3 s → (s.coach k).flight = [] → (s.coach k).loaded (s.fld ARR_WSTATE_ACTIVE k) = true →
    ∃ t i, exec (.pass k) s = .next t ∧ Launched k i s t ∧ i.wset = s.fld ARR_WSTATE_ACTIVE k ∧
      i.tile = (s.coach k).wset (s.fld ARR_WSTATE_ACTIVE k) ∧ i.rowsIn = 0 ∧ i.nAdded = 0 ∧ i.added = [] ∧
      (t.coach k).set0 = (s.coach k).set0 ∧ (t.coach k).set1 = (s.coach k).set1 ∧
      OnlyCoach k [(COA_PC_PC, k, 0), (COA_ISSUED_ISSUED, k, 0), (COA_SEQ_SEQ, k, 0)] s t

/-- A pass's rows enter in order; each group sum is added exactly to its entry, short or spilled, and a full spill region faults (R129, R130, R153, R155, R158, R160, R168, R169, R171, 04_coaches.md). -/
def Obligations.PassesEnterRowsAndAddGroupSums : Prop :=
  (∀ (k : Coach) (i : Inf) (s : State), (s.coach k).inputPass = some i → s.coachStill = false →
    (∀ st, srcStream i.w = some st → i.strBase + (i.rowsIn + 1) * (iArrays i.w).length * passRowStream (iFmt i.w) ≤ (s.strm k st).recv) →
    ∃ t rows, exec (.passRowEnter k) s = .next t ∧
      (t.coach k).flight = (s.coach k).flight.map (fun j => if j.id == i.id then { j with rows := rows, rowsIn := j.rowsIn + 1 } else j) ∧
      (∀ j a, (iArrays i.w)[j]? = some a → mget {} rows (i.rowsIn * 4 + a) =
        (actRow (s.modeOf k i.opn) i.w (s.passRowBytes k i (i.rowsIn * (iArrays i.w).length + j)).1
          (s.passRowBytes k i (i.rowsIn * (iArrays i.w).length + j)).2.1).1) ∧
      (∀ q, q / 4 ≠ i.rowsIn → mget {} rows q = mget {} i.rows q) ∧
      OnlyCoach k [(ARR_INCYC_INCYC, k, 0), (NUMSTAT_FLUSHED, k, 0), (NUM_FLUSHTOT_FLUSHTOT, k, 0)] s t) ∧
  (∀ (k : Coach) (p : Nat) (arr : Fin 4) (row : Fin 256) (col : Fin 128) (g : Fin 4) (i : Inf) (a v : Acc) (e : Nat) (s : State),
    s.coachStill = false → (s.coach k).passes[p]? = some i → arr.val ∈ iArrays i.w → row.val < i.rowsIn → g.val < passGroups i.w →
    bitsOf (i.mask arr row col) g 1 = 0 →
    (∀ j ∈ (s.coach k).flight, j.id < i.id → opOf j.w = 3 → inRegion j.w arr (iRow0 i.w + row.val) = true → j.entryDone arr (iRow0 i.w + row.val) col = true) →
    groupSum i arr row col g = some a → e = entryIx arr (iRow0 i.w + row.val) col → iRow0 i.w + row.val < 256 →
    (fieldOf i.w 0 21 1 = 1 ∧ i.mask arr row col = 0 → spillSlot (s.bankWord k e) = none) →
    v = Acc.add (if fieldOf i.w 0 21 1 = 1 ∧ i.mask arr row col = 0 then Acc.zero else s.entryAcc k e) a →
    ∃ t, exec (.bankContribution k (.group p arr row col g)) s = .next t ∧
      (spillSlot (s.bankWord k e) ≠ none ∨ fitsShort v.v = true ∨ s.freeSlot k ≠ none → Contributed k e v s t ∧
        (∀ j ∈ (t.coach k).flight, j.id = i.id → ∃ j0 ∈ (s.coach k).flight, j0.id = i.id ∧ j.nAdded = j0.nAdded + 1) ∧
        OnlyCoach k [(ACC_SPILLUSED_USED, k, 0), (ACC_SPILLS_SPILLS, k, 0)] { s with bank := t.bank, store := t.store } t) ∧
      (spillSlot (s.bankWord k e) = none → fitsShort v.v = false → s.freeSlot k = none →
        SeqFaulted k 3 i.pc s t ∧ OnlyCoach k (faultFlds k) { s with reports := t.reports } t)) ∧
  ∀ (k : Coach) (i : Inf) (s : State), (s.coach k).passes.find? (fun i => !i.finished) = some i → s.coachStill = false → i.rowsIn = iM i.w → i.nAdded = passTotal i.w →
    ∃ t, exec (.passComplete k) s = .next t ∧ t.fld ARR_PASSES_PASSES k = min 0xFFFFFFFF (s.fld ARR_PASSES_PASSES k + 1) ∧
      (∀ j ∈ (t.coach k).flight, j.id = i.id → j.finished = true) ∧ OnlyCoach k [(ARR_PASSES_PASSES, k, 0), (COA_PC_PC, k, 0), (COA_STATE_STATE, k, 0)] s t

/-- DRAIN and QUANT write their region in row order and clear it on CLR; REDUCE reads tallies for its destination, and each one is added exactly (R155, R167, R171, R183, R196, R197, R198, R199, R200, R201, 04_coaches.md). -/
def Obligations.BankInstructionsWriteTheirRegion : Prop :=
  (∀ (k : Coach) (md : NumMode) (s : State) (f : Fmt) (sc : Bool) (bs : List Nat), BankReady k 4 md s → fieldOf (s.atPc k) 0 21 1 = 0 →
    fselOf (iFmt (s.atPc k)) = some ⟨f, sc⟩ → f ≠ .x24 →
    bs = ((regionOrder (s.atPc k)).map (fun ma => packElems f.width ((s.drainRow k md f (iZoff (s.atPc k)) ma.2 (iRow0 (s.atPc k) + ma.1)).map (fun vc => vc.2.code)))).flatten →
    OutFits k s (s.atPc k) bs.length →
    ∃ t i, exec (.drain k) s = .next t ∧ Launched k i s t ∧ t.storeRead k (outAt k s (s.atPc k)) bs.length = bs.map (· % 256) ∧
      SameBytesBut k (outAt k s (s.atPc k)) bs.length s t ∧ RegionCleared k (s.atPc k) (fieldOf (s.atPc k) 0 22 1 = 1) s t ∧
      (∀ st, dstStream (s.atPc k) = some st → (t.strm k st).prod = (s.strm k st).prod + bs.length) ∧
      OnlyCoach k ((ACC_SPILLUSED_USED, k.val, 0) :: issueFlds k) { s with store := t.store, bank := t.bank } t) ∧
  (∀ (k : Coach) (md : NumMode) (s : State) (ts : List Nat), BankReady k 4 md s → fieldOf (s.atPc k) 0 21 1 = 1 →
    ts = ((regionOrder (s.atPc k)).map (fun ma => ((regionRow ma.2 (iRow0 (s.atPc k) + ma.1)).map (fun e => tallyWords (s.entryAcc k e))).flatten)).flatten →
    OutFits k s (s.atPc k) (16 + 16 * ts.length) →
    ∃ t i, exec (.drain k) s = .next t ∧ Launched k i s t ∧
      t.storeRead k (outAt k s (s.atPc k)) 4 = leBytes 4 ((regionOrder (s.atPc k)).length * 128) ∧
      t.storeRead k (outAt k s (s.atPc k) + 4) 4 = leBytes 4 (16 * ts.length) ∧ t.storeRead k (outAt k s (s.atPc k) + 8) 8 = List.replicate 8 0 ∧
      t.storeRead k (outAt k s (s.atPc k) + 16) (16 * ts.length) = (ts.map (leBytes 16)).flatten ∧
      SameBytesBut k (outAt k s (s.atPc k)) (16 + 16 * ts.length) s t ∧ RegionCleared k (s.atPc k) (fieldOf (s.atPc k) 0 22 1 = 1) s t ∧
      OnlyCoach k ((ACC_SPILLUSED_USED, k.val, 0) :: issueFlds k) { s with store := t.store, bank := t.bank } t) ∧
  (∀ (k : Coach) (md : NumMode) (s : State) (f : Fmt) (es sc bs : List Nat), BankReady k 5 md s → fselOf (iFmt (s.atPc k)) = some ⟨f, true⟩ →
    es = ((regionOrder (s.atPc k)).map (fun ma => packElems f.width (((s.quantRow k md f (iZoff (s.atPc k)) (fieldOf (s.atPc k) 2 24 7 + 1) ma.2 (iRow0 (s.atPc k) + ma.1)).map (fun b => b.1.codes)).flatten))).flatten →
    sc = ((regionOrder (s.atPc k)).map (fun ma => (s.quantRow k md f (iZoff (s.atPc k)) (fieldOf (s.atPc k) 2 24 7 + 1) ma.2 (iRow0 (s.atPc k) + ma.1)).map (fun b => b.1.scale))).flatten →
    bs = ((regionOrder (s.atPc k)).map (fun ma =>
      packElems f.width (((s.quantRow k md f (iZoff (s.atPc k)) (fieldOf (s.atPc k) 2 24 7 + 1) ma.2 (iRow0 (s.atPc k) + ma.1)).map (fun b => b.1.codes)).flatten) ++
      (s.quantRow k md f (iZoff (s.atPc k)) (fieldOf (s.atPc k) 2 24 7 + 1) ma.2 (iRow0 (s.atPc k) + ma.1)).map (fun b => b.1.scale))).flatten →
    OutFits k s (s.atPc k) bs.length → (dstStream (s.atPc k) = none → fieldOf (s.atPc k) 1 0 23 + es.length ≤ fieldOf (s.atPc k) 2 0 23 ∨
      fieldOf (s.atPc k) 2 0 23 + sc.length ≤ fieldOf (s.atPc k) 1 0 23) →
    ∃ t i, exec (.quant k) s = .next t ∧ Launched k i s t ∧ RegionCleared k (s.atPc k) (fieldOf (s.atPc k) 0 21 1 = 1) s t ∧
      (∀ st, dstStream (s.atPc k) = some st → t.storeRead k (outAt k s (s.atPc k)) bs.length = bs.map (· % 256) ∧ SameBytesBut k (outAt k s (s.atPc k)) bs.length s t ∧
            (t.strm k st).prod = (s.strm k st).prod + bs.length) ∧
      (dstStream (s.atPc k) = none → t.storeRead k (fieldOf (s.atPc k) 1 0 23) es.length = es.map (· % 256) ∧ t.storeRead k (fieldOf (s.atPc k) 2 0 23) sc.length = sc.map (· % 256) ∧
            ∀ x, (x < k * storeSize + fieldOf (s.atPc k) 1 0 23 ∨ k * storeSize + fieldOf (s.atPc k) 1 0 23 + es.length ≤ x) →
              (x < k * storeSize + fieldOf (s.atPc k) 2 0 23 ∨ k * storeSize + fieldOf (s.atPc k) 2 0 23 + sc.length ≤ x) →
              memByte t.store x = memByte s.store x) ∧
      OnlyCoach k ((ACC_SPILLUSED_USED, k.val, 0) :: issueFlds k) { s with store := t.store, bank := t.bank } t) ∧
  (∀ (k : Coach) (s : State), IssueReady k 4 s → (s.coach k).flight = [] → ∃ t i, exec (.drain k) s = .next t ∧ Launched k i s t) ∧
  (∀ (k : Coach) (s : State), IssueReady k 5 s → (s.coach k).flight = [] → ∃ t i, exec (.quant k) s = .next t ∧ Launched k i s t) ∧
  (∀ (k : Coach) (s : State), IssueReady k 6 s → (s.coach k).flight = [] → fieldOf (s.atPc k) 2 20 1 = 1 → iArrays (s.atPc k) ≠ [] →
    ∃ t i, exec (.reduce k) s = .next t ∧ Launched k i s t ∧
      (t.coach k).tallyIn = (s.coach k).tallyIn ++ (if fieldOf (s.atPc k) 0 21 1 = 1 then s.reduceStore k (s.atPc k) else s.reduceBank k (s.atPc k)).1.map
        (fun ea => { entry := ea.1, acc := ea.2, src := localSrc i.id i.pc }) ∧
      (localSrc i.id i.pc, fieldOf (s.atPc k) 2 16 4) ∈ (t.coach k).syncDue ∧
      RegionCleared k (s.atPc k) (fieldOf (s.atPc k) 0 21 1 = 0 ∧ fieldOf (s.atPc k) 0 22 1 = 1) s t ∧ t.store = s.store) ∧
  (∀ (k : Coach) (s : State), IssueReady k 6 s → (s.coach k).flight = [] → fieldOf (s.atPc k) 2 20 1 = 0 →
    ∃ t i, exec (.reduce k) s = .next t ∧ Launched k i s t ∧ (t.coach k).tallyIn = (s.coach k).tallyIn ∧ (t.coach k).syncDue = (s.coach k).syncDue ∧
      RegionCleared k (s.atPc k) (fieldOf (s.atPc k) 0 21 1 = 0 ∧ fieldOf (s.atPc k) 0 22 1 = 1) s t ∧ t.store = s.store) ∧
  (∀ (k : Coach) (x : TallyIn) (c : Fin 16) (v : Acc) (s : State), s.coachStill = false → (s.coach k).tallyIn = [x] → (s.coach k).syncDue = [(x.src, c.val)] → x.entry < 131072 →
    (∀ i ∈ (s.coach k).flight, i.holdsEntry (x.entry / 32768) (x.entry / 128 % 256) (x.entry % 128) = false) →
    v = Acc.add (s.entryAcc k x.entry) x.acc → (spillSlot (s.bankWord k x.entry) ≠ none ∨ fitsShort v.v = true ∨ s.freeSlot k ≠ none) →
    ∃ t, exec (.bankContribution k (.tally 0)) s = .next t ∧ Contributed k x.entry v s t ∧ (t.coach k).tallyIn = [] ∧ (t.coach k).syncDue = [] ∧
      t.fld COA_SYNC_COUNT k c = min 0xFFFFFFFF (s.fld COA_SYNC_COUNT k c + 1) ∧
      OnlyCoach k [(ACC_SPILLUSED_USED, k, 0), (ACC_SPILLS_SPILLS, k, 0), (COA_SYNC_COUNT, k, c)] { s with bank := t.bank, store := t.store } t) ∧
  ∀ (k : Coach) (i : Inf) (s : State), (s.coach k).flight.find? (fun i => unitOf (opOf i.w) == some .bank && i.started && !i.finished) = some i →
    s.coachStill = false → s.reduceHeld k i = false → (∀ o ∈ (s.coach k).ops, o.closed = true → o.closerId ≠ i.id) →
    ∃ t, exec (.bankInstrComplete k) s = .next t ∧ (t.coach k).flight = (s.coach k).flight.filter (fun j => j.id != i.id) ∧
      (t.coach k).ops = (s.coach k).ops ∧ OnlyCoach k [(COA_PC_PC, k, 0), (COA_STATE_STATE, k, 0)] s t

/-- Every instruction of the array, bank and vector units issues into its queue and starts at once on a coach with nothing in flight (R177, R178, R180, R209, Table 4.5, 04_coaches.md, 05_vector_engine.md). -/
def Obligations.UnitInstructionsIssue : Prop :=
  (∀ (c : Coach → Instr) (op : Nat) (k : Coach) (s : State), (c, op) ∈ unitRows → IssueReady k op s → QueueRoom k op s →
    ∃ t, exec (c k) s = .next t ∧ PassedOn k s t ∧ (t.coach k).nextId = (s.coach k).nextId + 1) ∧
  (∀ (c : Coach → Instr) (op : Nat) (k : Coach) (s : State), (c, op) ∈ unitRows → IssueReady k op s → (s.coach k).flight = [] →
    (op = 3 → (s.coach k).loaded (s.fld ARR_WSTATE_ACTIVE k) = true) →
    ∃ t, exec (c k) s = .next t ∧ PassedOn k s t ∧
      ((∃ i, (t.coach k).flight = [i] ∧ i.w = s.atPc k ∧ i.id = (s.coach k).nextId ∧ i.started = true) ∨
        (t.coach k).flight = [] ∧ (op = 2 ∨ isLive (s.loopSt k) (s.atPc k) = false))) ∧
  ∀ (c : Coach → Instr) (op : Nat) (k : Coach) (s : State), (c, op) ∈ unitRows → s.issuing k = false ∨ opOf (s.atPc k) ≠ op → exec (c k) s = .next s

/-- INSTR_START starts the oldest waiting instruction of a unit exactly when its start conditions hold (R178, R180, R219, Table 4.6, 04_coaches.md). -/
def Obligations.InstructionsStartInOrderWhenTheyMay : Prop :=
  (∀ (k : Coach) (u : SeqUnit) (i : Inf) (s : State), (s.coach k).nextOf u = some i → s.canStart k i = true → s.coachStill = false →
    ∃ t, exec (.instrStart k u) s = .next t ∧ (∀ j ∈ (t.coach k).flight, j.id = i.id → j.started = true) ∧
      ((∃ j ∈ (t.coach k).flight, j.id = i.id) ∨ opOf i.w = 2 ∨ i.live = false) ∧
      (∀ j ∈ (t.coach k).flight, j.id ≠ i.id → ∃ j0 ∈ (s.coach k).flight, j0.id = j.id ∧ j0.w = j.w ∧ j0.started = j.started ∧ j0.finished = j.finished) ∧
      ∀ j0 ∈ (s.coach k).flight, j0.id ≠ i.id → ∃ j ∈ (t.coach k).flight, j.id = j0.id ∧ j.w = j0.w ∧ j.started = j0.started ∧ j.finished = j0.finished) ∧
  ∀ (k : Coach) (u : SeqUnit) (s : State), s.coachStill = true ∨ (∀ i, (s.coach k).nextOf u = some i → s.canStart k i = false) →
    ∃ t, exec (.instrStart k u) s = .next t ∧ (t.coach k).flight = (s.coach k).flight ∧ OnlyCoach k [(COA_PC_PC, k, 0), (COA_STATE_STATE, k, 0)] s t

/-- The short and the long form of a tally each give back the value and the flags they were made from (R122, R123, R124, R125, R126, R127, 03_defined_dot_product.md). -/
def Obligations.TalliesKeepValueAndFlags : Prop :=
  ∀ a : Acc, -(2 ^ 575 : Int) ≤ a.v → a.v < (2 ^ 575 : Int) →
    (fitsShort a.v = true → readShort (shortTally a) = a ∧ isLongMark (shortTally a) = false ∧ tallyWords a = [shortTally a]) ∧
    readLong (longTally a) = a ∧ isLongMark ((longTally a).getD 0 0) = true

/-- START checks the configuration and begins a sequence, STOP ends it once nothing is outstanding, RESUME requests again from STR_POS (R252, R253, R257, R262, R270, 06_feeding_the_coaches.md). -/
def Obligations.StreamsStartStopAndResume : Prop :=
  (∀ (k : Coach) (n : Fin 8) (s : State), Hits STR_CTL_START k n s → s.fld STR_STATE_STATE k n ∈ [0, 4, 5] → s.startRefused k n = false →
    ∃ t, exec (.streamStart k n) s = .next t ∧ t.fld STR_STATE_STATE k n = 1 ∧ t.fld STR_STATE_CONS k n = 0 ∧ t.fld STR_POS_POS k n = 0 ∧
      t.strm k n = { len := s.seqLen k n, share := if s.fld STR_CFG_DIR k n = 0 then min (s.halfSize k n) (s.seqLen k n) else 0 } ∧
      (∀ m, m ≠ n.val → t.strm k m = s.strm k m) ∧ OnlyCoach k [(STR_STATE_STATE, k, n), (STR_STATE_CONS, k, n), (STR_POS_POS, k, n)] s t) ∧
  (∀ (k : Coach) (n : Fin 8) (s : State), Hits STR_CTL_START k n s → s.fld STR_STATE_STATE k n ∈ [0, 4, 5] → s.startRefused k n = true →
    ∃ t r, exec (.streamStart k n) s = .next t ∧ t.fld STR_STATE_STATE k n = 4 ∧ t.fld STR_STATE_FCODE k n = 5 ∧ t.reports = s.reports ++ [r] ∧
      r.unit = coachUnit k ∧ r.code = 5 ∧ r.ctx = s.boundCtx k ∧ r.sub = n.val ∧
      OnlyFields [(STR_STATE_STATE, k, n), (STR_STATE_FCODE, k, n)] { s with reports := t.reports } t) ∧
  (∀ (k : Coach) (n : Fin 8) (s : State), Hits STR_CTL_START k n s → s.fld STR_STATE_STATE k n ∉ [0, 4, 5] → exec (.streamStart k n) s = .next s) ∧
  (∀ (k : Coach) (n : Fin 8) (s : State), Hits STR_CTL_STOP k n s → s.fld STR_STATE_STATE k n ∈ [1, 3] → s.streamBusy k n = false → (s.strm k n).failed = none ∨ s.fld STR_STATE_STATE k n = 3 →
    ∃ t, exec (.streamStop k n) s = .next t ∧ t.fld STR_STATE_STATE k n = 0 ∧ (t.strm k n).stopping = false ∧ OnlyCoach k [(STR_STATE_STATE, k, n)] s t) ∧
  (∀ (k : Coach) (n : Fin 8) (s : State), Hits STR_CTL_STOP k n s → s.fld STR_STATE_STATE k n ∈ [1, 2, 3] → s.streamBusy k n = true →
    ∃ t, exec (.streamStop k n) s = .next t ∧ (t.strm k n).stopping = true ∧ OnlyCoach k [] s t) ∧
  (∀ (k : Coach) (n : Fin 8) (s : State), Hits STR_CTL_STOP k n s → s.fld STR_STATE_STATE k n ∉ [1, 2, 3] → exec (.streamStop k n) s = .next s) ∧
  (∀ (k : Coach) (n : Fin 8) (s : State), Hits STR_RESUME_GO k n s → s.fld STR_STATE_STATE k n = 3 →
    ∃ t, exec (.streamResume k n) s = .next t ∧ t.fld STR_STATE_STATE k n = 1 ∧ (t.strm k n).failed = none ∧
      (t.strm k n).reqd = s.fld STR_POS_POS k n - (s.strm k n).shareOff ∧ (t.strm k n).landed = s.fld STR_POS_POS k n - (s.strm k n).shareOff ∧
      OnlyCoach k [(STR_STATE_STATE, k, n)] s t) ∧
  (∀ (k : Coach) (n : Fin 8) (s : State), Hits STR_RESUME_GO k n s → s.fld STR_STATE_STATE k n = 2 →
    ∃ t, exec (.streamResume k n) s = .next t ∧ (t.strm k n).goHeld = true ∧ OnlyCoach k [] s t) ∧
  ∀ (k : Coach) (n : Fin 8) (s : State), Hits STR_RESUME_GO k n s → s.fld STR_STATE_STATE k n ∉ [2, 3] → exec (.streamResume k n) s = .next s

/-- A grant requests the next bytes of the neediest stream; returned bytes land where the sequence puts them; a failed request halts it (R252, R254, R255, R260, R263, R265, R268, 06_feeding_the_coaches.md). -/
def Obligations.StreamsRequestAndLandTheirSequence : Prop :=
  (∀ (k : Coach) (n off va len : Nat) (s : State), s.coachStill = false → s.grantStalled k = false → s.grantee k = some n → off = (s.strm k n).shareOff + (s.strm k n).reqd →
    va = s.seqVa k n off → len = min (min 512 (s.fld STR_ROWLEN_ROWLEN k n - off % s.fld STR_ROWLEN_ROWLEN k n)) (min (4096 - va % 4096) ((s.strm k n).share - (s.strm k n).reqd)) →
    ∃ t r, exec (.streamGrant k) s = .next t ∧ (t.coach k).reqs.map (fun x => (x.id, x.n, x.off, x.len, x.va, x.write)) =
        (s.coach k).reqs.map (fun x => (x.id, x.n, x.off, x.len, x.va, x.write)) ++ [(r, n, off, len, va, s.fld STR_CFG_DIR k n == 1)] ∧
      (t.strm k n).reqd = (s.strm k n).reqd + len ∧ t.fld STR_POS_POS k n = (off + len) % 2 ^ STR_POS_POS.w ∧ len ≤ 512 ∧ va % 4096 + len ≤ 4096 ∧
      ((s.tc (coachUnit k)).lookup (s.fld COA_ROLE_CONTEXT k) va = none → t.fld STR_TCMISS_MISSES k = min (2 ^ STR_TCMISS_MISSES.w - 1) (s.fld STR_TCMISS_MISSES k + 1)) ∧
      (∀ m, m ≠ n → t.strm k m = s.strm k m) ∧ (∀ j, j ≠ k.val → t.coach j = s.coach j) ∧ SameMemories s t) ∧
  (∀ (k : Coach) (s : State), s.coachStill = true ∨ s.grantStalled k = true ∨ s.grantee k = none → exec (.streamGrant k) s = .next s) ∧
  (∀ (k : Coach) (p : Packet) (r : SReq) (data : List Nat) (s s1 : State),
    Takes s (coachUnit k) (fun p => decide (p.tag < 1024) && p.op != 3 && (match (s.coach k).reqOf p with | some r => r.write == false | none => true)) p s1 →
    (s.coach k).reqOf p = some r → r.write = false → r.left = 1 → r.code = 0 → r.stale = false → p.errCode = 0 → (∀ x ∈ (s.coach k).reqs, x.id = r.id → x = r) →
    data = ((insertPiece ⟨p.tag % 4, p.data⟩ r.got).map (·.data)).flatten.take r.len → (s.fld STR_CFG_TRANS k r.n = 1 → s.transOk k r.n = true) →
    ∃ t, exec (.streamDataReturn k) s = .next t ∧
      (∀ i, i < data.length → memByte t.store (k * storeSize + (s.xferBase k r.n + s.landAt k r.n (r.off - (s.strm k r.n).shareOff + i))) = data.getD i 0 % 256) ∧
      (∀ x, (∀ i, i < data.length → x ≠ k * storeSize + (s.xferBase k r.n + s.landAt k r.n (r.off - (s.strm k r.n).shareOff + i))) → memByte t.store x = memByte s.store x) ∧
      (∀ x ∈ (t.coach k).reqs, x ∈ (s.coach k).reqs ∧ x.id ≠ r.id) ∧
      OnlyCoach k [(STR_STATE_STATE, k, r.n)] { s with store := t.store, net := s1.net, reports := t.reports } t) ∧
  (∀ (k : Coach) (p : Packet) (r : SReq) (s s1 : State),
    Takes s (coachUnit k) (fun p => decide (p.tag < 1024) && p.op != 3 && (match (s.coach k).reqOf p with | some r => r.write == true | none => false)) p s1 →
    (s.coach k).reqOf p = some r → r.write = true → r.left = 1 → r.code = 0 → r.stale = false → p.errCode = 0 → (∀ x ∈ (s.coach k).reqs, x.id = r.id → x = r) →
    s.fld STR_STATE_STATE k r.n = 1 → (s.strm k r.n).stopping = false →
    ∃ t, exec (.streamWriteAck k) s = .next t ∧ (t.strm k r.n).landed = (s.strm k r.n).landed + r.len ∧
      (∀ x ∈ (t.coach k).reqs, x ∈ (s.coach k).reqs ∧ x.id ≠ r.id) ∧ OnlyCoach k [(STR_STATE_STATE, k, r.n)] { s with net := s1.net } t) ∧
  ∀ (k : Coach) (r : SReq) (s : State), (s.coach k).reqs = [r] → r.code ≠ 0 → r.left = 0 → r.stale = false → r.n < 8 → r.code < 16 → s.fld STR_STATE_STATE k r.n = 1 →
    (s.strm k r.n).failed = none → (s.strm k r.n).stopping = false → (s.strm k r.n).goHeld = false →
    ∃ t e, exec (.streamRequestFault k) s = .next t ∧ t.fld STR_FAULTVA_FAULTVA k r.n = r.va % 2 ^ STR_FAULTVA_FAULTVA.w ∧ t.fld STR_STATE_FCODE k r.n = r.code % 2 ^ STR_STATE_FCODE.w ∧
      t.fld STR_POS_POS k r.n = r.off % 2 ^ STR_POS_POS.w ∧ t.fld STR_STATE_WRITE k r.n = b2n r.write ∧
      (r.code % 2 ^ STR_STATE_FCODE.w = r.code → t.fld STR_STATE_STATE k r.n = (if r.code = 1 ∨ r.code = 4 then 3 else 4) ∧ e.code = r.code) ∧
      t.reports = s.reports ++ [e] ∧ e.unit = coachUnit k ∧ e.ctx = s.boundCtx k ∧
      OnlyCoach k [(STR_FAULTVA_FAULTVA, k, r.n), (STR_STATE_FCODE, k, r.n), (STR_STATE_WRITE, k, r.n), (STR_POS_POS, k, r.n), (STR_STATE_STATE, k, r.n)]
        { s with reports := t.reports } t

/-- Cache entries age and lapse, walks go down the tables, and invalidations remove just what they cover until they are done (R274, R275, R276, R278, R279, R282, R309, 06_feeding_the_coaches.md). -/
def Obligations.TranslationCachesAgeLapseAndInvalidate : Prop :=
  (∀ s : State, s.lockRun = false → ∃ t, exec .tcAgeTick s = .next t ∧ t = { s with tcs := t.tcs } ∧
    (∀ u, u ∈ cacheUnits → ∀ j x, (j, some x) ∈ (t.tc u).ents ↔ ∃ y, (j, some y) ∈ (s.tc u).ents ∧ y.age < 15 ∧ x = { y with age := y.age + 1 }) ∧
    ∀ u, u ∉ cacheUnits → t.tc u = s.tc u) ∧
  (∀ s : State, s.lockRun = true → s.fld DEV_LSCYC_CYC 0 % 16000 ≠ 0 → exec .tcAgeTick s = .next s) ∧
  (∀ (e : Eng) (n : Fin 1024) (x : TcEnt) (s : State), mget none (s.tc (engUnit e)).ents n = some x →
    ∃ t, exec (.tcEntryLapse e n) s = .next t ∧ t = { s with tcs := t.tcs } ∧ (x.age = 15 → mget none (t.tc (engUnit e)).ents n = none) ∧
      (x.age ≠ 15 → t = s) ∧ (∀ j, j ≠ n.val → mget none (t.tc (engUnit e)).ents j = mget none (s.tc (engUnit e)).ents j) ∧
      ∀ v, v ≠ engUnit e → t.tc v = s.tc v) ∧
  (∀ (k : Coach) (ctx : Ctx) (s : State), Hits STR_INVAL_KIND k 0 s → s.fld STR_INVAL_BUSY k = 0 →
    (∃ t, exec (.invalAll k) s = .next t ∧ t.fld STR_INVAL_BUSY k = 1 ∧ Invalidated (coachUnit k) 0 0 0 s t ∧ SameFields [(STR_INVAL_BUSY, k, 0)] s t ∧ SameMemories s t) ∧
    (∃ t, exec (.invalContext k ctx) s = .next t ∧ t.fld STR_INVAL_BUSY k = 1 ∧ Invalidated (coachUnit k) 1 ctx 0 s t ∧
      SameFields [(STR_INVAL_BUSY, k, 0)] s t ∧ SameMemories s t) ∧
    ∃ t, exec (.invalPage k ctx) s = .next t ∧ t.fld STR_INVAL_BUSY k = 1 ∧ Invalidated (coachUnit k) 2 ctx (s.fld STR_INVAL_VA_VA k) s t ∧
      SameFields [(STR_INVAL_BUSY, k, 0)] s t ∧ SameMemories s t) ∧
  (∀ (c : Car) (ctx : Ctx) (s : State), Hits DMA_INVAL_KIND c 0 s → s.fld DMA_INVAL_BUSY c = 0 →
    (∃ t, exec (.dmaInvalAll c) s = .next t ∧ t.fld DMA_INVAL_BUSY c = 1 ∧ Invalidated (dmaUnit c) 0 0 0 s t ∧ SameFields [(DMA_INVAL_BUSY, c, 0)] s t ∧ SameMemories s t) ∧
    (∃ t, exec (.dmaInvalContext c ctx) s = .next t ∧ t.fld DMA_INVAL_BUSY c = 1 ∧ Invalidated (dmaUnit c) 1 ctx 0 s t ∧
      SameFields [(DMA_INVAL_BUSY, c, 0)] s t ∧ SameMemories s t) ∧
    ∃ t, exec (.dmaInvalPage c ctx) s = .next t ∧ t.fld DMA_INVAL_BUSY c = 1 ∧ Invalidated (dmaUnit c) 2 ctx (s.fld DMA_INVALVA_VA c) s t ∧
      SameFields [(DMA_INVAL_BUSY, c, 0)] s t ∧ SameMemories s t) ∧
  (∀ (k : Coach) (ctx : Ctx) (s : State), Hits STR_INVAL_KIND k 0 s → s.fld STR_INVAL_BUSY k = 1 →
    exec (.invalAll k) s = .next s ∧ exec (.invalContext k ctx) s = .next s ∧ exec (.invalPage k ctx) s = .next s) ∧
  (∀ (c : Car) (ctx : Ctx) (s : State), Hits DMA_INVAL_KIND c 0 s → s.fld DMA_INVAL_BUSY c = 1 →
    exec (.dmaInvalAll c) s = .next s ∧ exec (.dmaInvalContext c ctx) s = .next s ∧ exec (.dmaInvalPage c ctx) s = .next s) ∧
  (∀ (k : Coach) (s : State), s.fld STR_INVAL_BUSY k = 1 → (∀ r ∈ (s.coach k).reqs, ∀ u ∈ r.used, u.wait = false) →
    ∃ t, exec (.invalDone k) s = .next t ∧ t.fld STR_INVAL_BUSY k = 0 ∧ OnlyFields [(STR_INVAL_BUSY, k, 0)] { s with tcs := t.tcs } t) ∧
  (∀ (c : Car) (s : State), s.fld DMA_INVAL_BUSY c = 1 → s.invalWaits c = false →
    ∃ t, exec (.dmaInvalDone c) s = .next t ∧ t.fld DMA_INVAL_BUSY c = 0 ∧ OnlyFields [(DMA_INVAL_BUSY, c, 0)] { s with tcs := t.tcs } t) ∧
  (∀ (k : Coach) (c : Car) (s : State), ((∃ r ∈ (s.coach k).reqs, ∃ u ∈ r.used, u.wait = true) → exec (.invalDone k) s = .next s) ∧
    (s.invalWaits c = true → exec (.dmaInvalDone c) s = .next s)) ∧
  ∀ (e : Eng) (p : Packet) (w : Walk) (s s1 : State), Takes s (engUnit e) (fun p => decide (2048 ≤ p.tag) && p.op != 3) p s1 →
    (s.tc (engUnit e)).walks.find? (fun w => 2048 + w.id % 2048 == p.tag) = some w → p.status = 0 → p.bad = false →
    ∃ t, exec (.walkEntryReturn e) s = .next t ∧ SameMemories s t ∧
      ∀ e0, e0 = judgeEntry (s.ctx w.ctx) w.ctx w.va w.write w.level (leNat ((p.data.drop (w.addr % 16)).take 8)) →
        (∀ a, e0 = .next a → (t.tc (engUnit e)).ents = (s.tc (engUnit e)).ents ∧ (t.tc (engUnit e)).walks =
          (s.tc (engUnit e)).walks.map (fun x => if x.id == w.id then { x with level := x.level + 1, addr := a } else x)) ∧
        (∀ x, e0 = .leaf x → ∃ j, mget none (t.tc (engUnit e)).ents j = some { x with age := 0 }) ∧
        ∀ code, e0 = .fault code → ∀ k : Coach, e = .coach k → ∀ r ∈ s.walkedReqs k w, ∀ y ∈ (t.coach k).reqs, y.id = r.id → y.code = code

/-- The registers of a channel act as their rules say, and a descriptor goes from its fetch through its bursts to its written status (R282, R283, R285, R287, R288, R290, R291, R292, R293, R294, R296, 06_feeding_the_coaches.md). -/
def Obligations.DmaChannelsMoveTheirDescriptors : Prop :=
  (∀ (c : Car) (ch : Fin 64) (v : BitVec 16) (s : State), Hits DMA_HEAD_HEAD c ch s → ∃ t, exec (.dmaHeadWrite c ch v) s = .next t ∧
    (v.toNat < 2 ^ s.fld DMA_RINGSIZE_LOG2 c ch → t.fld DMA_HEAD_HEAD c ch = v.toNat % 2 ^ DMA_HEAD_HEAD.w ∧ OnlyFields [(DMA_HEAD_HEAD, c, ch)] s t) ∧
    (2 ^ s.fld DMA_RINGSIZE_LOG2 c ch ≤ v.toNat → t.fld DMA_HEAD_HEAD c ch = Config.free s.freeIx % 2 ^ 16 % 2 ^ DMA_HEAD_HEAD.w ∧
      OnlyFields [(DMA_HEAD_HEAD, c, ch)] { s with freeIx := s.freeIx + 1 } t)) ∧
  (∀ (c : Car) (ch : Fin 64) (b : Bool) (s : State), Hits DMA_CTL_RUN c ch s →
    ∃ t, exec (.dmaRun c ch b) s = .next t ∧ t.fld DMA_CTL_RUN c ch = b2n b ∧ OnlyFields [(DMA_CTL_RUN, c, ch)] s t) ∧
  (∀ (c : Car) (ch : Fin 64) (s : State), Hits DMA_STATUS_STOPPED c ch s →
    ∃ t, exec (.dmaStoppedClear c ch) s = .next t ∧ t.fld DMA_STATUS_STOPPED c ch = 0 ∧ OnlyFields [(DMA_STATUS_STOPPED, c, ch)] s t) ∧
  (∀ (c : Car) (ch : Fin 64) (s : State), Hits DMA_CTL_ABORT c ch s → ∃ t, exec (.dmaAbort c ch) s = .next t ∧
    ((s.chan c ch).desc = none → t.fld DMA_STATUS_STOPPED c ch = 1 ∧ t.fld DMA_CTL_ABORT c ch = 0 ∧ (t.chan c ch).desc = none ∧
      (∃ r, t.reports = s.reports ++ [r] ∧ r.unit = dmaUnit c)) ∧
    ((s.chan c ch).desc ≠ none → t.fld DMA_CTL_ABORT c ch = 1 ∧ t.fld DMA_STATUS_STOPPED c ch = s.fld DMA_STATUS_STOPPED c ch ∧ t.reports = s.reports ∧
      (t.chan c ch).desc = (s.chan c ch).desc ∧ (t.chan c ch).done = (s.chan c ch).done) ∧
    (∀ x y, (x, y) ≠ (c.val, ch.val) → t.chan x y = s.chan x y) ∧
    OnlyFields [(DMA_STATUS_STOPPED, c, ch), (DMA_CTL_ABORT, c, ch)] { s with reports := t.reports, dma := t.dma } t) ∧
  (∀ (c : Car) (ch : Fin 64) (i : Nat) (e : TcEnt) (s : State), s.mayFetch c ch = true →
    (s.tc (dmaUnit c)).lookup (s.chanCtx c ch) (s.ringVa c ch) = some (i, e) →
    ∃ t, exec (.dmaDescFetch c ch) s = .next t ∧ SameMemories s t ∧ (∀ x y, (x, y) ≠ (c.val, ch.val) → t.chan x y = s.chan x y) ∧
      (e.r = true → (t.chan c ch).fetch = 2 ∧ (t.chan c ch).desc = none) ∧
      (e.r = false → (s.chan c ch).ctxReset = false → t.fld DMA_STATUS_STOPPED c ch = 1 ∧ t.fld DMA_STATUS_LAST c ch = 2 ∧
        t.fld DMA_TAIL_TAIL c ch = s.fld DMA_TAIL_TAIL c ch ∧ t.chan c ch = {})) ∧
  (∀ (c : Car) (ch : Fin 64) (s : State), s.mayFetch c ch = false → exec (.dmaDescFetch c ch) s = .next s) ∧
  (∀ (c : Car) (p : Packet) (s s1 : State), Takes s (dmaUnit c) (fun p => decide (p.tag < 2048) && !isAckTag p.tag && p.op != 3) p s1 → p.tag % 32 = 30 →
    (s.chan c (p.tag / 32)).fetch = 2 → p.errCode = 0 →
    ∃ t d, exec (.dmaReadReturn c) s = .next t ∧ d = readDesc (s.ringVa c (p.tag / 32)) p.data ∧ t.fld DMA_STATUS_ACTIVE c (p.tag / 32) = 1 ∧
      t.chan c (p.tag / 32) = { desc := some d, code := if d.bad then 6 else 0 } ∧ (∀ x y, (x, y) ≠ (c.val, p.tag / 32) → t.chan x y = s.chan x y) ∧
      OnlyFields [(DMA_STATUS_ACTIVE, c, p.tag / 32)] { s with net := s1.net, dma := t.dma } t) ∧
  (∀ (c : Car) (ch : Nat) (s : State),
    (turnOrder (mget {} s.dma c).last).find? (fun ch => (s.chan c ch).active && (s.chan c ch).burst == 0 && !s.flag DMA_CTL_ABORT c ch) = some ch →
    ∃ t, exec (.dmaBurst c) s = .next t ∧ (mget {} t.dma c).last = ch ∧ (∀ x, x ≠ ch → t.chan c x = s.chan c x) ∧ SameMemories s t ∧
      ∀ d i e, (s.chan c ch).desc = some d → d.kind = 1 → 0 < burstLen d (s.chan c ch).done →
        (s.tc (dmaUnit c)).lookup (s.chanCtx c ch) (circAddr d.dcirc d.dlog2 d.dst (s.chan c ch).done) = some (i, e) → e.w = true →
        (t.chan c ch).burst = burstLen d (s.chan c ch).done ∧ (t.chan c ch).writing = true ∧
          (t.chan c ch).left = (writeSpan 66 (circAddr d.dcirc d.dlog2 d.dst (s.chan c ch).done) (burstLen d (s.chan c ch).done)).length) ∧
  (∀ (c : Car) (p : Packet) (d : Desc) (s s1 : State), Takes s (dmaUnit c) (fun p => decide (p.tag < 2048) && !isAckTag p.tag && p.op != 3) p s1 →
    p.tag % 32 ≠ 30 → (s.chan c (p.tag / 32)).desc = some d → 1 < (s.chan c (p.tag / 32)).left → p.errCode = 0 →
    ∃ t, exec (.dmaReadReturn c) s = .next t ∧ (t.chan c (p.tag / 32)).left = (s.chan c (p.tag / 32)).left - 1 ∧
      ⟨p.tag % 32, p.data⟩ ∈ (t.chan c (p.tag / 32)).got ∧ (∀ x y, (x, y) ≠ (c.val, p.tag / 32) → t.chan x y = s.chan x y) ∧
      t = { s with net := s1.net, dma := t.dma }) ∧
  (∀ (c : Car) (p : Packet) (s s1 : State), Takes s (dmaUnit c) (fun p => decide (p.tag < 2048) && isAckTag p.tag && p.op != 3) p s1 → p.tag % 32 = 31 →
    (s.chan c (p.tag / 32)).left = 1 → (s.chan c (p.tag / 32)).writing = true → (s.chan c (p.tag / 32)).code = 0 → p.errCode = 0 →
    ∃ t, exec (.dmaWriteAck c) s = .next t ∧ (t.chan c (p.tag / 32)).done = (s.chan c (p.tag / 32)).done + (s.chan c (p.tag / 32)).burst ∧
      (t.chan c (p.tag / 32)).burst = 0 ∧ t.fld DMA_BYTES_BYTES c (p.tag / 32) = (s.fld DMA_BYTES_BYTES c (p.tag / 32) + (s.chan c (p.tag / 32)).burst) % 2 ^ DMA_BYTES_BYTES.w ∧
      OnlyFields [(DMA_BYTES_BYTES, c, p.tag / 32)] { s with net := s1.net, dma := t.dma } t) ∧
  (∀ (c : Car) (ch : Fin 64) (d : Desc) (i : Nat) (e : TcEnt) (s : State), (s.chan c ch).desc = some d → (s.chan c ch).burst = 0 → (s.chan c ch).ending = 0 →
    ((s.chan c ch).code ≠ 0 ∨ (s.chan c ch).done = d.len ∨ s.fld DMA_CTL_ABORT c ch = 1) →
    (s.tc (dmaUnit c)).lookup (s.chanCtx c ch) (d.va + 0x30) = some (i, e) → e.w = true →
    ∃ t, exec (.dmaDescEnd c ch) s = .next t ∧ (t.chan c ch).ending = 2 ∧ (t.chan c ch).desc = some d ∧ SameMemories s t ∧
      (t.chan c ch).status = (if (s.chan c ch).code ≠ 0 then (s.chan c ch).code
        else if (s.chan c ch).aborted = true ∨ (s.chan c ch).done ≠ d.len then 9 else 8) ∧
      ∀ x y, (x, y) ≠ (c.val, ch.val) → t.chan x y = s.chan x y) ∧
  (∀ (c : Car) (p : Packet) (d : Desc) (s s1 : State), Takes s (dmaUnit c) (fun p => decide (p.tag < 2048) && isAckTag p.tag && p.op != 3) p s1 → p.tag % 32 = 29 →
    (s.chan c (p.tag / 32)).desc = some d → (s.chan c (p.tag / 32)).ending = 2 → p.errCode = 0 →
    ∃ t, exec (.dmaWriteAck c) s = .next t ∧ (t.chan c (p.tag / 32)).ending = 3 ∧ (t.chan c (p.tag / 32)).status = (s.chan c (p.tag / 32)).status ∧
      t = { s with net := s1.net, dma := t.dma }) ∧
  ∀ (c : Car) (ch : Fin 64) (d : Desc) (status : Nat) (s : State), (s.chan c ch).desc = some d → (s.chan c ch).ending = 3 → (s.chan c ch).status = status →
    (s.chan c ch).ctxReset = false → status < 256 →
    ∃ t, exec (.dmaDescEnd c ch) s = .next t ∧ t.chan c ch = {} ∧ t.fld DMA_STATUS_LAST c ch = status ∧ t.fld DMA_STATUS_ACTIVE c ch = 0 ∧
      t.fld DMA_TAIL_TAIL c ch = (s.fld DMA_TAIL_TAIL c ch + 1) % 2 ^ s.fld DMA_RINGSIZE_LOG2 c ch % 2 ^ DMA_TAIL_TAIL.w ∧
      (s.fld DMA_CTL_ABORT c ch = 1 ∨ (status ≠ 8 ∧ status ≠ 6) → t.fld DMA_STATUS_STOPPED c ch = 1 ∧ t.fld DMA_CTL_ABORT c ch = 0) ∧
      (s.fld DMA_CTL_ABORT c ch = 0 → status = 8 ∨ status = 6 → t.fld DMA_STATUS_STOPPED c ch = s.fld DMA_STATUS_STOPPED c ch) ∧
      SameMemories s t ∧ ∀ x y, (x, y) ≠ (c.val, ch.val) → t.chan x y = s.chan x y

/-- Lockstep arms only when its conditions hold, admits waiting events at slot boundaries in the order of Table 7.2, and stops on disable or a late action (R310, R311, R313, R314, R315, R317, R318, R500, Table 7.1, Table 7.2, 07_same_bits_any_count.md). -/
def Obligations.LockstepArmsRunsAndAborts : Prop :=
  (∀ s : State, Hits DEV_LSCTL_ENABLE 0 0 s → s.fld DEV_LSSTAT_STATE 0 = 0 → s.enableCode = 0 →
    exec .lockstepEnable s = .next ((s.setFld DEV_LSCTL_ENABLE 0 0 1).setFld DEV_LSSTAT_STATE 0 0 1)) ∧
  (∀ s : State, Hits DEV_LSCTL_ENABLE 0 0 s → s.fld DEV_LSSTAT_STATE 0 = 0 → s.enableCode ≠ 0 → ∃ t, exec .lockstepEnable s = .next t ∧ t.fld DEV_LSSTAT_STATE 0 = 0 ∧
    t.fld DEV_LSSTAT_CODE 0 = s.enableCode ∧ t.fld DEV_LSSTAT_EVENT 0 = 1 ∧ SameMemories s t) ∧
  (∀ s : State, s.enableCode = 0 → s.pwr.inForce = 3 ∧ s.fld PWR_STATUS_PROFBUSY 0 ≠ 1 ∧ s.fld PWR_THRCTL_EN 0 ≠ 1 ∧ s.tenderBusy = false ∧
    ∀ n, n < 8 → s.fld HBM_CTL_REFMODE (n / 2) (n % 2) = 1) ∧
  (∀ s : State, Hits DEV_LSCTL_ENABLE 0 0 s → s.fld DEV_LSSTAT_STATE 0 ≠ 0 → exec .lockstepEnable s = .next s) ∧
  (∀ s : State, Hits DEV_LSCTL_ENABLE 0 0 s → s.fld DEV_LSSTAT_STATE 0 = 2 ∨ s.fld DEV_LSSTAT_STATE 0 = 1 → ∃ t, exec .lockstepDisable s = .next t ∧ t.fld DEV_LSSTAT_STATE 0 = 0 ∧
    t.fld DEV_LSCTL_ENABLE 0 = 0 ∧ t.fld DEV_LSSTAT_CODE 0 = 1 ∧ t.fld DEV_LSSTAT_EVENT 0 = 1 ∧
    (s.fld DEV_LSSTAT_STATE 0 = 2 → t.fld DEV_LSEND_CYC 0 = s.fld DEV_LSCYC_CYC 0 % 2 ^ DEV_LSEND_CYC.w) ∧ SameMemories s t) ∧
  (∀ s : State, s.lockRun = true → s.fld DEV_LSCYC_CYC 0 % s.slotLen = 0 → s.lock.waiting = [] → s.actionLate = false →
    ∃ t, exec (.slotBoundary false) s = .next t ∧ (∀ c, c < 4 → t.fabS c = { (s.fabS c).settle with inp := (s.fabS c).settle.due }) ∧
      t.fld DEV_LSADMIT_COUNT 0 = min 0xFFFFFFFF (s.fld DEV_LSADMIT_COUNT 0 + ((List.range 4).map s.ioChanges).sum) ∧
      OnlyFields [(DEV_LSADMIT_COUNT, 0, 0)] { s with fab := t.fab, lock := { s.lock with opened := false } } t) ∧
  (∀ (w : Waiting) (s u : State), s.lockRun = true → s.fld DEV_LSCYC_CYC 0 % s.slotLen = 0 → s.lock.waiting = [w] → w.due ≤ s.fld DEV_LSCYC_CYC 0 → s.actionLate = false →
    exec w.cmd { s with lock := { s.lock with waiting := [], opened := true } } = .next u → w.cmd ∈ [Instr.clearSattot 0, .dmaRun 0 0 true, .lockstepDisable, .reinArm, .fuseLock] →
    exec (.slotBoundary false) s = .next ({ u.bump DEV_LSADMIT_COUNT 0 0 1 with lock := { (u.bump DEV_LSADMIT_COUNT 0 0 1).lock with opened := false } }.admitIo)) ∧
  (∀ l : List Waiting, (byRank l).Pairwise (fun a b => a.rank ≤ b.rank) ∧ (byRank l).Perm l ∧ ∀ r, (byRank l).filter (fun w => w.rank == r) = l.filter (fun w => w.rank == r)) ∧
  (∀ (late : Bool) (s : State), s.lockRun = true → s.fld DEV_LSCYC_CYC 0 % s.slotLen = 0 → s.lock.waiting = [] → (late = true ∨ s.actionLate = true) →
    ∃ t, exec (.slotBoundary late) s = .next t ∧ t.fld DEV_LSSTAT_STATE 0 = 3 ∧ t.fld DEV_LSSTAT_CODE 0 = 8 ∧
      t.fld DEV_LSEND_CYC 0 = s.fld DEV_LSCYC_CYC 0 % 2 ^ DEV_LSEND_CYC.w ∧
      (∀ l, l < 26 → (s.link l).carried = true → ∀ g ∈ linkLanes s.couplerAside l, (t.laneS g).abortMarks = 4) ∧ SameMemories s t) ∧
  ∀ (late : Bool) (s : State), s.lockRun = true → s.fld DEV_LSCYC_CYC 0 % s.slotLen ≠ 0 → exec (.slotBoundary late) s = .next s

/-- The rein goes from ARM through READY to its cycle on two high samples, starts an armed lockstep there, and times out or is disarmed (R319, R320, R321, R324, R327, R381, R563, 07_same_bits_any_count.md). -/
def Obligations.TheReinFiresTogether : Prop :=
  (∀ s : State, Hits DEV_REINCTL_CMD 0 0 s → s.fld DEV_REINSTAT_STATE 0 = 0 ∨ s.fld DEV_REINSTAT_STATE 0 = 3 → ∃ t, exec .reinArm s = .next t ∧ t.fld DEV_REINSTAT_STATE 0 = 1 ∧
    t.fld DEV_REINSTAT_MARKS 0 = 0 ∧ t.rein = { cycleAt := s.rein.cycleAt } ∧ t.out = .pin "REIN" 0 :: s.out ∧
    OnlyFields [(DEV_REINSTAT_STATE, 0, 0), (DEV_REINSTAT_MARKS, 0, 0)] { s with rein := t.rein, links := t.links, out := t.out } t) ∧
  (∀ s : State, Hits DEV_REINCTL_CMD 0 0 s → s.fld DEV_REINSTAT_STATE 0 = 1 → s.fld DEV_REINCTL_ROLE 0 ∈ [0, 1, 3] → ∃ t, exec .reinReady s = .next t ∧ t.fld DEV_REINSTAT_STATE 0 = 2 ∧ t.rein = { cycleAt := s.rein.cycleAt } ∧
    t.out = .pin "REIN" (if s.fld DEV_REINCTL_ROLE 0 = 1 then 0 else 1) :: s.out ∧ OnlyFields [(DEV_REINSTAT_STATE, 0, 0)] { s with rein := t.rein, out := t.out } t) ∧
  (∀ s : State, Hits DEV_REINCTL_CMD 0 0 s → s.fld DEV_REINSTAT_STATE 0 = 1 → s.fld DEV_REINCTL_ROLE 0 = 2 → s.fld DEV_REINEXP_COUNT 0 ≤ s.fld DEV_REINSTAT_MARKS 0 →
    ∃ t, exec .reinReady s = .next t ∧ t.fld DEV_REINSTAT_STATE 0 = 2 ∧ t.rein.releaseAt = some (s.coachCycles + s.fld DEV_REINLEAD_LEAD 0)) ∧
  (∀ s : State, s.fld DEV_REINSTAT_STATE 0 = 2 →
    (1 ≤ s.rein.highs → ∃ t, exec (.reinLineHigh true) s = .next t ∧ t.fld DEV_REINSTAT_STATE 0 = 3 ∧ t.fld DEV_REINSTAT_LINE 0 = 1 ∧
      t.rein.cycleAt = some (s.coachCycles + 64) ∧ OnlyFields [(DEV_REINSTAT_STATE, 0, 0), (DEV_REINSTAT_LINE, 0, 0)] { s with rein := t.rein } t) ∧
    (s.rein.highs = 0 → ∃ t, exec (.reinLineHigh true) s = .next t ∧ t.fld DEV_REINSTAT_STATE 0 = 2 ∧ t.rein = { s.rein with highs := 1 } ∧
      OnlyFields [(DEV_REINSTAT_LINE, 0, 0)] { s with rein := t.rein } t) ∧
    ∃ t, exec (.reinLineHigh false) s = .next t ∧ t.rein = { s.rein with highs := 0 } ∧ t.fld DEV_REINSTAT_LINE 0 = 0 ∧ t.fld DEV_REINSTAT_STATE 0 = 2) ∧
  (∀ (x : Nat) (s : State), s.rein.cycleAt = some x → ∃ t, exec .reinCycle s = .next t ∧ t.fld DEV_LSCYC_CYC 0 = 0 ∧ t.fld DEV_LSADMIT_COUNT 0 = 0 ∧ t.rein = { s.rein with cycleAt := none } ∧
    (s.fld DEV_REINSTAT_STATE 0 = 3 → t.fld DEV_REINSTAT_STATE 0 = 0) ∧
    (s.fld DEV_LSSTAT_STATE 0 = 1 → t.fld DEV_LSSTAT_STATE 0 = 2 ∧ ∀ n, n < 8 → (t.hbmCtl n).g = reinSeed (s.fld DEV_LSSEED_SEED 0) n) ∧
    (s.fld DEV_LSSTAT_STATE 0 ≠ 1 → s.fld DEV_LSSTAT_STATE 0 < 4 → t.fld DEV_LSSTAT_STATE 0 = s.fld DEV_LSSTAT_STATE 0 ∧ ∀ n, (t.hbmCtl n).g = (s.hbmCtl n).g) ∧
    SameMemories s t) ∧
  (∀ s : State, s.rein.cycleAt = none → exec .reinCycle s = .next s) ∧
  (∀ s : State, s.fld DEV_REINSTAT_STATE 0 = 1 ∨ s.fld DEV_REINSTAT_STATE 0 = 2 → s.fld DEV_REINTMO_TMO 0 ≠ 0 →
    ∃ t, exec .reinTimeout s = .next t ∧ t.fld DEV_REINSTAT_STATE 0 = 4 ∧ t.fld DEV_REINSTAT_EVENT 0 = 1 ∧ t.out.head? = some (.pin "REIN" 0) ∧ SameMemories s t) ∧
  (∀ s : State, Hits DEV_REINCTL_CMD 0 0 s → ∃ t, exec .reinDisarm s = .next t ∧ t.fld DEV_REINSTAT_STATE 0 = 0 ∧ t.rein = { cycleAt := s.rein.cycleAt } ∧ t.out = .pin "REIN" 1 :: s.out ∧
    OnlyFields [(DEV_REINSTAT_STATE, 0, 0)] { s with rein := t.rein, ctxs := t.ctxs, out := t.out } t) ∧
  ∀ (x : Nat) (s : State), s.fld DEV_REINSTAT_STATE 0 = 2 → s.rein.releaseAt = some x → s.rein.released = false →
    exec .reinRelease s = .next { s with rein := { s.rein with released := true }, out := .pin "REIN" 1 :: s.out }

/-- TRAIN starts training from the initial taps; DISABLE, the training limit and lost sync take a link DOWN with their code; TEST holds it in TEST (R451, R453, R456, R457, R467, R471, R472, R473, 11_cotric_links.md). -/
def Obligations.LinksTrainAndGoDown : Prop :=
  (∀ (l : Fin 26) (s : State), Hits LNK_CTL_TRAIN (linkHome l).1 (linkHome l).2 s → s.linkExists l = true → s.lkFld LNK_CTL_ENABLE l ≠ 0 → s.lkFld LNK_STATE_STATE l ≠ 4 →
    ∃ t, exec (.linkTrain l) s = .next t ∧ t.lkFld LNK_STATE_STATE l = 1 ∧ t.lkFld LNK_STATE_TRAINED l = 0 ∧ SameMemories s t ∧
      (∀ g ∈ linkLanes s.couplerAside l, t.laneS g = {} ∧ t.fld LNK_TAPS_PRE2 (g / 24) (g % 24) = s.fld LNK_TAPINIT_PRE2 (g / 24) (g % 24) % 2 ^ LNK_TAPS_PRE2.w ∧
        t.fld LNK_TAPS_PRE1 (g / 24) (g % 24) = s.fld LNK_TAPINIT_PRE1 (g / 24) (g % 24) % 2 ^ LNK_TAPS_PRE1.w ∧
        t.fld LNK_TAPS_MAIN (g / 24) (g % 24) = s.fld LNK_TAPINIT_MAIN (g / 24) (g % 24) % 2 ^ LNK_TAPS_MAIN.w ∧
        t.fld LNK_TAPS_POST1 (g / 24) (g % 24) = s.fld LNK_TAPINIT_POST1 (g / 24) (g % 24) % 2 ^ LNK_TAPS_POST1.w ∧
        t.fld LNK_TAPS_POST2 (g / 24) (g % 24) = s.fld LNK_TAPINIT_POST2 (g / 24) (g % 24) % 2 ^ LNK_TAPS_POST2.w) ∧
      (s.linkUp l = false → OnlyFields ([(LNK_STATE_STATE, (linkHome l).1, (linkHome l).2), (LNK_STATE_TRAINED, (linkHome l).1, (linkHome l).2),
          (LNK_CTL_TRAIN, (linkHome l).1, (linkHome l).2)] ++ ((linkLanes s.couplerAside l).map (fun g =>
            [LNK_TAPS_PRE2, LNK_TAPS_PRE1, LNK_TAPS_MAIN, LNK_TAPS_POST1, LNK_TAPS_POST2, LNK_LANESTAT_DONE].map (fun f => (f, g / 24, g % 24)))).flatten)
        { s with laneSt := t.laneSt } t)) ∧
  (∀ (l : Fin 26) (s : State), Hits LNK_CTL_TRAIN (linkHome l).1 (linkHome l).2 s → s.linkExists l = false ∨ s.lkFld LNK_CTL_ENABLE l = 0 ∨ s.lkFld LNK_STATE_STATE l = 4 →
    exec (.linkTrain l) s = .next s) ∧
  (∀ (l : Fin 26) (s : State), Hits LNK_CTL_ENABLE (linkHome l).1 (linkHome l).2 s → s.linkExists l = true → ∃ t, exec (.linkDisable l) s = .next t ∧
    t.lkFld LNK_STATE_STATE l = 0 ∧ t.lkFld LNK_STATE_CODE l = 5 ∧ t.lkFld LNK_CTL_ENABLE l = 0 ∧ SameMemories s t ∧
    (∀ g ∈ linkLanes s.couplerAside l, (t.laneS g).prbs = 0 ∧ (t.laneS g).chkSeen = 0) ∧
    (s.linkUp l = false → OnlyFields [(LNK_STATE_STATE, (linkHome l).1, (linkHome l).2), (LNK_STATE_CODE, (linkHome l).1, (linkHome l).2),
      (LNK_CTL_ENABLE, (linkHome l).1, (linkHome l).2)] { s with laneSt := t.laneSt } t)) ∧
  (∀ (l : Fin 26) (s : State), (s.lkFld LNK_STATE_STATE l = 1 ∨ (s.lkFld LNK_STATE_STATE l = 2 ∧ (s.link l).alignAt ≠ s.coachCycles + 1) →
      ∃ t, exec (.trainTimeout l) s = .next t ∧ t.lkFld LNK_STATE_STATE l = 0 ∧ t.lkFld LNK_STATE_CODE l = 1 ∧ t.lkFld LNK_EVENT_DOWN l = 1 ∧ SameMemories s t) ∧
    (s.lkFld LNK_STATE_STATE l ∉ [1, 2] ∨ (s.lkFld LNK_STATE_STATE l = 2 ∧ (s.link l).alignAt = s.coachCycles + 1) → exec (.trainTimeout l) s = .next s)) ∧
  (∀ (lane : Fin 96) (l : Nat) (s : State), l = laneLink s.couplerAside lane → s.linkSleeps l = false → 4 ≤ (s.laneS lane).missed → s.lkFld LNK_STATE_STATE l ∈ [1, 2, 3] →
    ∃ t, exec (.laneSyncLoss lane) s = .next t ∧ t.lkFld LNK_STATE_STATE l = 0 ∧ t.lkFld LNK_STATE_CODE l = 3 ∧
      t.fld LNK_LANESTAT_SYNC (lane.val / 24) (lane.val % 24) = 0 ∧ SameMemories s t) ∧
  (∀ (lane : Fin 96) (s : State), s.linkSleeps (laneLink s.couplerAside lane) = true ∨ (s.laneS lane).missed < 4 → exec (.laneSyncLoss lane) s = .next s) ∧
  ∀ (lane : Fin 96) (test : Bool) (l : Nat) (s : State), Hits LNK_LANECTL_TEST (lane.val / 24) (lane.val % 24) s → l = laneLink s.couplerAside lane →
    (s.lkFld LNK_STATE_STATE l ∉ [0, 4] → exec (.laneTestWrite lane test) s = .next s) ∧
    (s.lkFld LNK_STATE_STATE l ∈ [0, 4] → ∃ t, exec (.laneTestWrite lane test) s = .next t ∧ t.fld LNK_LANECTL_TEST (lane.val / 24) (lane.val % 24) = b2n test ∧
      (test = true → t.laneSt = s.laneSt) ∧ (test = false → (t.laneS lane).prbs = 0 ∧ (t.laneS lane).chkSeen = 0) ∧
      ((∃ g ∈ linkLanes s.couplerAside l, t.fld LNK_LANECTL_TEST (g / 24) (g % 24) = 1) → t.lkFld LNK_STATE_STATE l = 4) ∧
      ((∀ g ∈ linkLanes s.couplerAside l, t.fld LNK_LANECTL_TEST (g / 24) (g % 24) ≠ 1) → t.lkFld LNK_STATE_STATE l = 0 ∧
        t.lkFld LNK_STATE_CODE l = if s.lkFld LNK_STATE_STATE l = 4 then 0 else s.lkFld LNK_STATE_CODE l) ∧
      OnlyFields [(LNK_LANECTL_TEST, lane.val / 24, lane.val % 24), (LNK_STATE_STATE, (linkHome l).1, (linkHome l).2), (LNK_STATE_CODE, (linkHome l).1, (linkHome l).2)]
        { s with laneSt := t.laneSt } t)

/-- A sync block ends a frame and carries the lane's state; taps stay within the allowed settings; a link whose lanes are all trained aligns and comes UP (R448, R450, R451, R452, R454, R455, R456, R468, R469, R470, 11_cotric_links.md). -/
def Obligations.SyncBlocksTrainTheLanes : Prop :=
  (∀ (lane : Fin 96) (req : BitVec 10) (done : Bool) (l : Nat) (s : State), l = laneLink s.couplerAside lane → s.lkFld LNK_STATE_STATE l ∉ [0, 4] → s.linkSleeps l = false →
    64 ≤ (s.laneS lane).dataSent →
    ∃ t b, exec (.syncBlockSend lane req done) s = .next t ∧ t.out = .symbols lane (syncSymbols lane b).1 :: .syncBlock lane b :: s.out ∧ b.lane = lane ∧
      b.trn = (s.lkFld LNK_STATE_STATE l == 1 || s.lkFld LNK_STATE_STATE l == 2) ∧ b.done = ((s.laneS lane).mine || done) ∧ b.tstamp = s.coachCycles % 2 ^ 32 ∧
      b.echov = (s.laneS lane).echo.isSome ∧ (s.linkUp l = false → b.mark = 0) ∧ (s.linkUp l = true → 0 < (s.laneS lane).abortMarks → b.mark = 3) ∧
      (t.laneS lane).dataSent = 0 ∧ (t.laneS lane).abortMarks = (s.laneS lane).abortMarks - 1 ∧
      (∀ q bits, (s.laneS lane).pendReq = some (q, bits) → b.ackseq = q ∧ (t.laneS lane).pendReq = none) ∧
      (tapsAllowed (tapFields.map (fun y => s.fld y.1 (lane.val / 24) (lane.val % 24))) = true →
        tapsAllowed (tapFields.map (fun y => t.fld y.1 (lane.val / 24) (lane.val % 24))) = true) ∧
      (∀ g, g ≠ lane.val → t.laneS g = s.laneS g) ∧
      OnlyFieldsOut [(LNK_TAPS_PRE2, lane.val / 24, lane.val % 24), (LNK_TAPS_PRE1, lane.val / 24, lane.val % 24), (LNK_TAPS_MAIN, lane.val / 24, lane.val % 24),
        (LNK_TAPS_POST1, lane.val / 24, lane.val % 24), (LNK_TAPS_POST2, lane.val / 24, lane.val % 24)] { s with laneSt := t.laneSt } t) ∧
  (∀ (lane : Fin 96) (req : BitVec 10) (done : Bool) (l : Nat) (s : State), l = laneLink s.couplerAside lane →
    s.lkFld LNK_STATE_STATE l ∈ [0, 4] ∨ s.linkSleeps l = true ∨ (s.laneS lane).dataSent < 64 → exec (.syncBlockSend lane req done) s = .next s) ∧
  (∀ (lane : Fin 96) (levels : List (Fin 4)) (skew l : Nat) (s : State), l = laneLink s.couplerAside lane → s.lkFld LNK_STATE_STATE l ∈ [0, 4] ∨ s.linkSleeps l = true →
    exec (.syncBlockReceive lane levels skew) s = .next s) ∧
  (∀ (lane : Fin 96) (levels : List (Fin 4)) (skew l : Nat) (s : State), l = laneLink s.couplerAside lane → s.lkFld LNK_STATE_STATE l ∉ [0, 4] → s.linkSleeps l = false →
    (receiveSync (s.fld LNK_LANESTAT_PARTNER (lane.val / 24) (lane.val % 24)) (levels.map Fin.val)).blk = none →
    ∃ t, exec (.syncBlockReceive lane levels skew) s = .next t ∧ (t.laneS lane).missed = (s.laneS lane).missed + 1 ∧
      (∀ g, g ≠ lane.val → t.laneS g = s.laneS g) ∧ t = { s with laneSt := t.laneSt }) ∧
  ∀ (lane : Fin 96) (levels : List (Fin 4)) (b : SyncBlk) (skew l : Nat) (s : State), l = laneLink s.couplerAside lane → s.lkFld LNK_STATE_STATE l ∈ [1, 2, 3] →
    s.linkSleeps l = false → (receiveSync (s.fld LNK_LANESTAT_PARTNER (lane.val / 24) (lane.val % 24)) (levels.map Fin.val)).blk = some b →
    ∃ t, exec (.syncBlockReceive lane levels skew) s = .next t ∧ (t.laneS lane).missed = 0 ∧ (t.laneS lane).theirs = ((s.laneS lane).theirs || b.done) ∧
      (t.laneS lane).echo = some (b.tstamp % 2 ^ 32, s.coachCycles) ∧ t.fld LNK_LANESTAT_SYNC (lane.val / 24) (lane.val % 24) = 1 ∧
      t.fld LNK_LANESTAT_PARTNER (lane.val / 24) (lane.val % 24) = b.lane % 2 ^ LNK_LANESTAT_PARTNER.w ∧ SameMemories s t ∧
      (s.lkFld LNK_STATE_STATE l = 1 → t.lkFld LNK_STATE_STATE l =
        if ∀ g ∈ linkLanes s.couplerAside l, (t.laneS g).mine = true ∧ (t.laneS g).theirs = true then 2 else 1) ∧
      (s.lkFld LNK_STATE_STATE l = 2 →
        if orderOk ((linkLanes s.couplerAside l).map (fun g => t.fld LNK_LANESTAT_PARTNER (g / 24) (g % 24))) (decide (24 ≤ l)) = true ∧ skew ≤ 1200 then
          t.lkFld LNK_STATE_STATE l = 3 ∧ t.lkFld LNK_EVENT_UP l = 1 ∧ (t.link l).seqNext = 0 ∧ (t.link l).expect = 0
        else t.lkFld LNK_STATE_STATE l = 0 ∧ t.lkFld LNK_STATE_CODE l = 2 ∧ t.lkFld LNK_EVENT_DOWN l = 1) ∧
      (s.lkFld LNK_STATE_STATE l = 3 → t.lkFld LNK_STATE_STATE l = 3 ∧
        (b.mark = 3 → s.lockRun = true → t.fld DEV_LSSTAT_STATE 0 = 3 ∧ t.fld DEV_LSSTAT_CODE 0 = 0xC))

/-- A lane sends 64 blocks a frame: the resend or next block in its turn, else an idle one; a received block is judged, acknowledges, and is taken in order (R438, R447, R448, R458, R460, R461, R462, R463, R471, R472, R474, 11_cotric_links.md). -/
def Obligations.LinkBlocksGoInOrderAndAreRetried : Prop :=
  (∀ (lane : Fin 96) (l : Nat) (s : State), l = laneLink s.couplerAside lane → s.linkUp l = true → s.linkSleeps l = false → (s.laneS lane).dataSent < 64 →
    ∃ t b y, exec (.linkBlockSend lane) s = .next t ∧
    t.out = .symbols lane y :: .linkBlock l b :: s.out ∧ b.ackseq = (s.link l).expect ∧ b.nak = (s.link l).nakDue ∧ (t.link l).nakDue = false ∧
    (t.laneS lane).dataSent = (s.laneS lane).dataSent + 1 ∧
    (∀ x, ((s.link l).resend.bind fun i => (s.link l).retry[i]?) = some x → s.laneTurn l lane x.seq = true → b.seq = x.seq ∧ b.payload = x.payload ∧ b.fpo = x.fpo ∧
      b.idle = false ∧ (t.link l).retry = (s.link l).retry.map (fun z => if z.seq == x.seq then { z with resends := z.resends + 1 } else z)) ∧
    (∀ x, ((s.link l).resend.bind fun i => (s.link l).retry[i]?) = some x → s.laneTurn l lane x.seq = false → b.idle = true ∧ (t.link l).retry = (s.link l).retry) ∧
    (((s.link l).resend.bind fun i => (s.link l).retry[i]?) = none →
      (s.link l).tx = [] ∨ 512 ≤ (s.link l).retry.length ∨ s.stoppedAt 9 (linkHome l).1 = true ∨ s.laneTurn l lane (s.link l).seqNext = false →
      b.idle = true ∧ (t.link l).retry = (s.link l).retry ∧ (t.link l).seqNext = (s.link l).seqNext ∧ (t.link l).tx = (s.link l).tx) ∧
    (((s.link l).resend.bind fun i => (s.link l).retry[i]?) = none → (s.link l).tx ≠ [] → (s.link l).retry.length < 512 → s.stoppedAt 9 (linkHome l).1 = false →
      s.laneTurn l lane (s.link l).seqNext = true → b.idle = false ∧ b.seq = (s.link l).seqNext ∧ b.payload.take (s.link l).tx.length = (s.link l).tx.take 628 ∧
      b.payload.length = 628 ∧ (t.link l).seqNext = ((s.link l).seqNext + 1) % 4096 ∧ (t.link l).tx = (s.link l).tx.drop 628 ∧
      ∃ x, (t.link l).retry = (s.link l).retry ++ [x] ∧ x.seq = b.seq ∧ x.payload = b.payload ∧ x.resends = 0) ∧
    (∀ j, j ≠ l → t.link j = s.link j) ∧ (∀ g, g ≠ lane.val → t.laneS g = s.laneS g) ∧
    OnlyFieldsOut [(LNK_INJ_EN, lane.val / 24, lane.val % 24)] { s with links := t.links, laneSt := t.laneSt } t) ∧
  (∀ (lane : Fin 96) (l : Nat) (s : State), l = laneLink s.couplerAside lane → s.lkFld LNK_STATE_STATE l ∈ [1, 2] → s.linkSleeps l = false → (s.laneS lane).dataSent < 64 →
    ∃ t b y, exec (.linkBlockSend lane) s = .next t ∧ t.out = .symbols lane y :: .linkBlock l b :: s.out ∧ b.idle = true ∧
      (t.laneS lane).dataSent = (s.laneS lane).dataSent + 1 ∧ OnlyFieldsOut [(LNK_INJ_EN, lane.val / 24, lane.val % 24)] { s with laneSt := t.laneSt } t) ∧
  (∀ (lane : Fin 96) (l : Nat) (s : State), l = laneLink s.couplerAside lane → s.lkFld LNK_STATE_STATE l = 4 → s.linkSleeps l = false →
    s.fld LNK_LANECTL_TEST (lane.val / 24) (lane.val % 24) = 1 →
    ∃ t y, exec (.linkBlockSend lane) s = .next t ∧ t.out = .symbols lane y :: s.out ∧ y.length = 2720 ∧
      ((s.laneS lane).prbs ≠ 0 → s.fld LNK_INJ_EN (lane.val / 24) (lane.val % 24) ≠ 1 →
        y = (prbsSymbols (s.flag LNK_LANECTL_PATTERN (lane.val / 24) (lane.val % 24)) 2720
          (prbsSeed (s.flag LNK_LANECTL_PATTERN (lane.val / 24) (lane.val % 24)) (s.laneS lane).prbs)).1) ∧
      OnlyFieldsOut [(LNK_INJ_EN, lane.val / 24, lane.val % 24), (LNK_PRBSERR_COUNT, lane.val / 24, lane.val % 24)] { s with laneSt := t.laneSt } t) ∧
  (∀ (lane : Fin 96) (l : Nat) (s : State), l = laneLink s.couplerAside lane → s.linkSleeps l = true ∨ s.lkFld LNK_STATE_STATE l = 0 ∨
    (s.lkFld LNK_STATE_STATE l = 4 ∧ s.fld LNK_LANECTL_TEST (lane.val / 24) (lane.val % 24) ≠ 1) ∨ (s.lkFld LNK_STATE_STATE l ≠ 4 ∧ 64 ≤ (s.laneS lane).dataSent) →
    exec (.linkBlockSend lane) s = .next s) ∧
  (∀ (lane : Fin 96) (levels : List (Fin 4)) (l : Nat) (s : State), l = laneLink s.couplerAside lane → s.linkUp l = true → s.linkSleeps l = false → (s.link l).lastNak = none →
    (receiveData (s.laneS lane).rscr (s.laneS lane).rrun (levels.map Fin.val)).1 = .badCode →
    ∃ t, exec (.linkBlockReceive lane levels) s = .next t ∧ (t.link l).nakDue = true ∧ (t.link l).expect = (s.link l).expect ∧ (t.link l).retry = (s.link l).retry ∧
      t.lkFld LNK_EVENT_FECUE l = 1 ∧ t.fld LNK_FECUE_COUNT (lane.val / 24) (lane.val % 24) =
        min (2 ^ LNK_FECUE_COUNT.w - 1) (s.fld LNK_FECUE_COUNT (lane.val / 24) (lane.val % 24) + 1) ∧ SameMemories s t) ∧
  (∀ (lane : Fin 96) (levels : List (Fin 4)) (l n : Nat) (s : State), l = laneLink s.couplerAside lane → s.linkUp l = true → s.linkSleeps l = false → (s.link l).lastNak = none →
    (receiveData (s.laneS lane).rscr (s.laneS lane).rrun (levels.map Fin.val)).1 = .badCrc n →
    ∃ t, exec (.linkBlockReceive lane levels) s = .next t ∧ (t.link l).nakDue = true ∧ (t.link l).expect = (s.link l).expect ∧
      t.fld LNK_FECCE_COUNT (lane.val / 24) (lane.val % 24) = min (2 ^ LNK_FECCE_COUNT.w - 1) (s.fld LNK_FECCE_COUNT (lane.val / 24) (lane.val % 24) + n) ∧
      OnlyFields [(LNK_FECCE_COUNT, lane.val / 24, lane.val % 24)] { s with laneSt := t.laneSt, links := t.links } t) ∧
  (∀ (lane : Fin 96) (levels : List (Fin 4)) (l n m : Nat) (b : LinkBlk) (x : RBlk) (r : List RBlk) (s : State), l = laneLink s.couplerAside lane → s.linkUp l = true →
    s.linkSleeps l = false → (receiveData (s.laneS lane).rscr (s.laneS lane).rrun (levels.map Fin.val)).1 = .good b n → b.nak = false → b.idle = true →
    (s.link l).retry = x :: r → m = min (seqAhead x.seq (b.ackseq % 4096)) (r.length + 1) →
    ∃ t, exec (.linkBlockReceive lane levels) s = .next t ∧ (t.link l).retry = (x :: r).drop m ∧ (t.link l).expect = (s.link l).expect ∧ SameMemories s t) ∧
  (∀ (lane : Fin 96) (levels : List (Fin 4)) (l n : Nat) (b : LinkBlk) (s : State), l = laneLink s.couplerAside lane → s.linkUp l = true → s.linkSleeps l = false →
    (receiveData (s.laneS lane).rscr (s.laneS lane).rrun (levels.map Fin.val)).1 = .good b n → b.nak = false → (s.link l).lastNak = none →
    ∃ t, exec (.linkBlockReceive lane levels) s = .next t ∧
      (seqAhead (s.link l).expect (b.seq % 4096) = 0 → (t.link l).expect = if b.idle then (s.link l).expect else ((s.link l).expect + 1) % 4096) ∧
      (seqAhead (s.link l).expect (b.seq % 4096) ≠ 0 → (t.link l).expect = (s.link l).expect ∧ (seqAhead (s.link l).expect (b.seq % 4096) < 2048 → (t.link l).nakDue = true))) ∧
  (∀ (lane : Fin 96) (levels : List (Fin 4)) (l n : Nat) (b : LinkBlk) (x : RBlk) (r : List RBlk) (s : State), l = laneLink s.couplerAside lane → s.linkUp l = true →
    s.linkSleeps l = false → (receiveData (s.laneS lane).rscr (s.laneS lane).rrun (levels.map Fin.val)).1 = .good b n → b.nak = true → b.idle = true →
    (s.link l).retry = x :: r → b.ackseq % 4096 = x.seq → x.resends < 8 → (s.link l).resentAt ≠ s.netCycles + 1 →
    ∃ t, exec (.linkBlockReceive lane levels) s = .next t ∧ (t.link l).resend = some 0 ∧ (t.link l).retry = x :: r ∧
      t.lkFld LNK_RETRY_COUNT l = min (2 ^ LNK_RETRY_COUNT.w - 1) (s.lkFld LNK_RETRY_COUNT l + 1)) ∧
  (∀ (lane : Fin 96) (levels : List (Fin 4)) (l : Nat) (s : State), l = laneLink s.couplerAside lane → s.lkFld LNK_STATE_STATE l ∈ [1, 2] → s.linkSleeps l = false →
    ∃ t, exec (.linkBlockReceive lane levels) s = .next t ∧ t.links = s.links ∧ SameMemories s t) ∧
  ∀ (lane : Fin 96) (levels : List (Fin 4)) (l : Nat) (s : State), l = laneLink s.couplerAside lane → s.lkFld LNK_STATE_STATE l = 4 → s.linkSleeps l = false →
    s.fld LNK_LANECTL_TEST (lane.val / 24) (lane.val % 24) = 1 → s.fld LNK_LANECTL_LOOP (lane.val / 24) (lane.val % 24) ≠ 1 →
    ∃ t, exec (.linkBlockReceive lane levels) s = .next t ∧ OnlyFields [(LNK_PRBSERR_COUNT, lane.val / 24, lane.val % 24)] { s with laneSt := t.laneSt } t ∧
      (prbsFillLen (s.flag LNK_LANECTL_PATTERN (lane.val / 24) (lane.val % 24)) ≤ (s.laneS lane).chkSeen →
        levels.map Fin.val = (prbsSymbols (s.flag LNK_LANECTL_PATTERN (lane.val / 24) (lane.val % 24)) levels.length (s.laneS lane).chkReg).1 →
        t.fld LNK_PRBSERR_COUNT (lane.val / 24) (lane.val % 24) = min (2 ^ LNK_PRBSERR_COUNT.w - 1) (s.fld LNK_PRBSERR_COUNT (lane.val / 24) (lane.val % 24)))

/-- A retry timeout resends from the oldest block, and after eight resends takes the link DOWN; held lockstep packets enter at their cycle (R312, R315, R462, R467, 11_cotric_links.md). -/
def Obligations.LinksRetryAndDeliverInLockstep : Prop :=
  (∀ (l : Fin 26) (x : RBlk) (r : List RBlk) (s : State), s.linkUp l = true → s.linkSleeps l = false → (s.link l).retry = x :: r → (s.link l).resentAt ≠ s.netCycles + 1 →
    ∃ t, exec (.linkRetryTimeout l) s = .next t ∧
      (x.resends < 8 → (t.link l).resend = some 0 ∧ (t.link l).retry = x :: r ∧ (∀ j, j ≠ l.val → t.link j = s.link j) ∧
        t.lkFld LNK_RETRY_COUNT l = min (2 ^ LNK_RETRY_COUNT.w - 1) (s.lkFld LNK_RETRY_COUNT l + 1) ∧
        OnlyFields [(LNK_RETRY_COUNT, (linkHome l).1, (linkHome l).2)] { s with links := t.links } t) ∧
      (8 ≤ x.resends → t.lkFld LNK_STATE_STATE l = 0 ∧ t.lkFld LNK_STATE_CODE l = 4 ∧ t.lkFld LNK_EVENT_DOWN l = 1 ∧ (t.link l).retry = [] ∧ SameMemories s t)) ∧
  (∀ (l : Fin 26) (s : State), s.linkUp l = false ∨ s.linkSleeps l = true ∨ (s.link l).retry = [] ∨ (s.link l).resentAt = s.netCycles + 1 → exec (.linkRetryTimeout l) s = .next s) ∧
  (∀ (l : Fin 26) (late : Bool) (s : State), s.lockRun = true → ∃ t, exec (.lockstepLinkDelivery l late) s = .next t ∧
    (t.link l).held = (s.link l).held.filter (fun x => decide (s.fld DEV_LSCYC_CYC 0 < x.1)) ∧
    (late = true ∨ (∃ x ∈ (s.link l).held, x.1 < s.fld DEV_LSCYC_CYC 0) → t.fld DEV_LSSTAT_STATE 0 = 3 ∧ t.fld DEV_LSSTAT_CODE 0 = 7) ∧
    (late = false → (∀ x ∈ (s.link l).held, s.fld DEV_LSCYC_CYC 0 ≤ x.1) → t.fld DEV_LSSTAT_STATE 0 = 2) ∧ SameMemories s t) ∧
  ∀ (l : Fin 26) (s : State), s.lockRun = false → ∃ t, exec (.lockstepLinkDelivery l false) s = .next t ∧ (t.link l).held = [] ∧ SameMemories s t

/-- A route-sheet write is checked before it takes effect, a stale reply freezes the entry it names, and a send goes by what its entry says (R328, R345, R346, R347, R349, R350, R358, R359, R360, 08_on_chip_network.md). -/
def Obligations.RouteSheetsAreCheckedAndFrozen : Prop :=
  (∀ (u : Fin 1024) (e : Fin 256) (w0 w1 w2 w3 : BitVec 32) (s : State),
    (routeReason s.couplerAside u w0.toNat w1.toNat w2.toNat w3.toNat ≠ 0 → ∃ t, exec (.routeEntryWrite u e w0 w1 w2 w3) s = .next t ∧ t.net = s.net ∧
      (s.fld NOC_RSSTAT_VALID (u.val / 256) = 1 → t = s) ∧ (s.fld NOC_RSSTAT_VALID (u.val / 256) ≠ 1 → t.fld NOC_RSSTAT_VALID (u.val / 256) = 1 ∧
        t.fld NOC_RSSTAT_REASON (u.val / 256) = routeReason s.couplerAside u w0.toNat w1.toNat w2.toNat w3.toNat ∧ t.fld NOC_RSSTAT_ENTRY (u.val / 256) = e ∧
        t.fld NOC_RSSTAT_UNIT (u.val / 256) = u.val % 256) ∧
      OnlyFields [(NOC_RSSTAT_REASON, u.val / 256, 0), (NOC_RSSTAT_UNIT, u.val / 256, 0), (NOC_RSSTAT_ENTRY, u.val / 256, 0), (NOC_RSSTAT_VALID, u.val / 256, 0)] s t) ∧
    (routeReason s.couplerAside u w0.toNat w1.toNat w2.toNat w3.toNat = 0 → ∃ t, exec (.routeEntryWrite u e w0 w1 w2 w3) s = .next t ∧
      t.sheetWord u e 0 = w0.toNat % 2 ^ 30 ∧ t.sheetWord u e 1 = w1.toNat % 2 ^ 30 ∧ t.sheetWord u e 2 = w2.toNat % 2 ^ 27 ∧
      t.sheetWord u e 3 = w3.toNat % 2 ^ 10 + bitsOf w3.toNat 31 1 * 2 ^ 31 ∧ t.entryFrozen u e = false ∧
      (∀ v f w, f < 256 → w < 4 → (v, f) ≠ (u.val, e.val) → t.sheetWord v f w = s.sheetWord v f w) ∧
      (s.entryFrozen u e = false → t = { s with net := t.net }) ∧ (s.entryFrozen u e = true → mget [] t.net.heldPk (u * 256 + e) = []))) ∧
  (∀ (aside : Bool) (u w0 w1 w2 w3 : Nat), routeReason aside u w0 w1 w2 w3 = 0 → hasNi aside u = true ∧
    (bitsOf w3 31 1 = 1 → 1 ≤ swHops w2 ∧ swHops w2 ≤ 20 ∧ hasNi aside (if swRemote w2 then linkUnit (swLink w2) else bitsOf w3 0 10) = true)) ∧
  (∀ (u : Fin 1024) (p : Packet) (s s1 : State), Takes s u (fun p => p.vn == 1 && p.op == 3) p s1 → p.rse < 256 → s.entryFrozen u p.rse = false →
    ∃ t, exec (.staleReplyReceive u) s = .next t ∧
      t.entryFrozen u p.rse = (bitsOf (s.sheetWord u p.rse 3) 0 10 == bitsOf p.aux 8 10 && bitsOf (s.sheetWord u p.rse 2) 19 8 == bitsOf p.aux 0 8) ∧
      (∀ v f w, f < 256 → w < 4 → (v, f) ≠ (u.val, p.rse) → t.sheetWord v f w = s.sheetWord v f w) ∧ SameMemories s t) ∧
  (∀ (u : Fin 1024) (s : State), s.takeInbox u (fun p => p.vn == 1 && p.op == 3) = none → exec (.staleReplyReceive u) s = .next s) ∧
  (∀ (u : Fin 1024) (e : Fin 256) (p : PktIn) (q : Packet) (s : State), hasNi s.couplerAside u = true → s.netStill (u.val / 256) = false →
    q = { vn := p.vn, op := p.op, sclass := p.sclass, ctx := p.ctx, tag := p.tag, status := p.status, addr := p.addr,
          aux := if p.vn = 2 then p.data.length else p.aux, len := if p.data = [] then p.len else ceilDiv p.data.length 16, data := p.data.map BitVec.toNat } →
    ∃ t, exec (.packetSend u (.entry e) p) s = .next t ∧
      (s.entryValid u e = false → t.net.wires = s.net.wires ∧ (∃ r, t.reports = s.reports ++ [r] ∧ r.cause = 0x13 ∧ r.unit = u.val ∧ r.sub = e.val) ∧
        (p.vn = 0 ∨ p.vn = 2 → u.val % 256 < 0x30 ∨ 0x40 ≤ u.val % 256 → mget [] t.net.inbox u = mget [] s.net.inbox u ++ [{ q with vn := 1, status := 3 }])) ∧
      (s.entryValid u e = true → s.entryFrozen u e = true → t = { s with net := { s.net with heldPk := t.net.heldPk } } ∧
        mget [] t.net.heldPk (u * 256 + e) = mget [] s.net.heldPk (u * 256 + e) ++ [q]) ∧
      (s.entryValid u e = true → s.entryFrozen u e = false → mget 0 s.net.down (wireKey (u.val / 256) ((unitRouter (u.val % 256)).getD 0) 0) ≠ 1 →
        mget [] t.net.wires (wireKey (u.val / 256) ((unitRouter (u.val % 256)).getD 0) 0) =
          mget [] s.net.wires (wireKey (u.val / 256) ((unitRouter (u.val % 256)).getD 0) 0) ++
            (List.range (flitCount q.data.length)).map (fun i => { pkt := { s.headerFrom u e q with uid := s.net.nextUid }, i := i : Flit }) ∧
        t = { s with net := { s.net with wires := t.net.wires, nextUid := s.net.nextUid + 1 } })) ∧
  (∀ (u : Fin 1024) (b : Fin 4) (e : Fin 256) (p : PktIn) (s : State), (e.val = 0x20 + b → exec (.packetSend u (.tender b) p) s = exec (.packetSend u (.entry e) p) s) ∧
    (e.val = 0x24 + b → exec (.packetSend u (.host b) p) s = exec (.packetSend u (.entry e) p) s)) ∧
  (∀ (u : Fin 1024) (e : Fin 256) (p : PktIn) (s : State), p.vn = 0 → p.data = [] → 0 < p.len → p.addr % 256 + p.len * 16 ≤ 256 → e.val = (s.place p.addr).entry →
    exec (.packetSend u .hbm p) s = exec (.packetSend u (.entry e) p) s) ∧
  ∀ (u : Fin 1024) (d : SendTo) (p : PktIn) (s : State), hasNi s.couplerAside u = false ∨ s.netStill (u.val / 256) = true → exec (.packetSend u d p) s = .next s

/-- Parity is checked and a bad flit replayed, a bad head discards its packet, credits come back in order, and a packet reaches its unit once (R337, R339, R340, R343, R353, R354, R357, R358, R491, R575, R681, 08_on_chip_network.md). -/
def Obligations.FlitsCreditsAndDelivery : Prop :=
  (∀ (c : Car) (r : Fin 40) (p : Fin 13) (flips : List (Fin 1096)) (upset : List (Fin 1064)) (f g : Flit) (rest : List Flit) (s : State), s.netStill c = false →
    mget [] s.net.wires (wireKey c r p) = f :: rest → g = f.upset ((flips.map Fin.val).filter (· < 1064) ++ upset.map Fin.val) →
    (queueCap r p ≤ (mget [] s.net.queues (queueKey c r p f.pkt.vn f.vc)).length → exec (.flitReceive c r p flips upset) s = .next s) ∧
    ((mget [] s.net.queues (queueKey c r p f.pkt.vn f.vc)).length < queueCap r p → errorsPass (flips.map Fin.val) = false →
      ∃ t, exec (.flitReceive c r p flips upset) s = .next t ∧
      (mget 0 s.net.fails (wireKey c r p) < 8 → t.net = { s.net with fails := t.net.fails } ∧ mget 0 t.net.fails (wireKey c r p) = mget 0 s.net.fails (wireKey c r p) + 1 ∧
        t.fld NOC_HOPERR_COUNT c = min (2 ^ NOC_HOPERR_COUNT.w - 1) (s.fld NOC_HOPERR_COUNT c + 1) ∧ OnlyFields [(NOC_HOPERR_COUNT, c, 0)] { s with net := t.net } t) ∧
      (8 ≤ mget 0 s.net.fails (wireKey c r p) → mget 0 t.net.down (wireKey c r p) = 1 ∧ mget [] t.net.wires (wireKey c r p) = [] ∧
        t.fld NOC_DOWNINFO_VALID ((upstream c r p).getD (c.val, r.val, p.val)).1 = 1)) ∧
    ((mget [] s.net.queues (queueKey c r p f.pkt.vn f.vc)).length < queueCap r p → errorsPass (flips.map Fin.val) = true → f.i = 0 → 2 ≤ g.errsIn 0 →
      ∃ t, exec (.flitReceive c r p flips upset) s = .next t ∧ (∀ k, ∀ g ∈ mget [] t.net.wires k, g.pkt.uid ≠ f.pkt.uid) ∧
        (∀ k, ∀ g ∈ mget [] t.net.queues k, g.pkt.uid ≠ f.pkt.uid) ∧ (∀ k, ∀ g ∈ mget [] t.net.ports k, g.pkt.uid ≠ f.pkt.uid) ∧
        t.fld NOC_ECCUE_COUNT c = min (2 ^ NOC_ECCUE_COUNT.w - 1) (s.fld NOC_ECCUE_COUNT c + 1) ∧ t.fld NOC_UEINFO_VALID c = 1) ∧
    ((mget [] s.net.queues (queueKey c r p f.pkt.vn f.vc)).length < queueCap r p → errorsPass (flips.map Fin.val) = true →
      f.i ≠ 0 ∨ (g.errsIn 0 = 0 ∧ ∀ n, n < 4 → s.probeMatches c n r p f.pkt = false) →
      ∀ m, m = mget [] s.net.queues (queueKey c r p f.pkt.vn f.vc) ++ [g] → exec (.flitReceive c r p flips upset) s = .next (State.forwardAll
        { s with net := { s.net with fails := mset 0 s.net.fails (wireKey c r p) 0, wires := mset [] s.net.wires (wireKey c r p) rest, queues := mset [] s.net.queues (queueKey c r p f.pkt.vn f.vc) m } } c r))) ∧
  (∀ (c : Car) (r : Fin 40) (p : Fin 13) (flips : List (Fin 1096)) (upset : List (Fin 1064)) (s : State), s.netStill c = true ∨ mget [] s.net.wires (wireKey c r p) = [] →
    exec (.flitReceive c r p flips upset) s = .next s) ∧
  (∀ (c : Car) (r : Fin 40) (p : Fin 13) (vn : Fin 6) (vc : Fin 3) (x : Nat) (rest : List Nat) (s : State), mget [] s.net.back (queueKey c r p vn vc) = x :: rest →
    s.netStill c = false →
    (¬ (s.fld DEV_PERTNOC_EN 0 = 1 ∧ s.fld DEV_PERTNOC_CARRIAGE 0 = c ∧ s.fld DEV_PERTNOC_ROUTER 0 = r ∧ s.fld DEV_PERTNOC_PORT 0 = (if 8 ≤ p.val then 4 else p.val) ∧
        s.netCycles < x + s.fld DEV_PERTNOC_HOLD 0) → exec (.creditReturn c r p vn vc) s =
      .next (match upstream c r p with
        | none => { s with net := { s.net with back := mset [] s.net.back (queueKey c r p vn vc) rest, used := mupd 0 s.net.used (queueKey c r p vn vc) (· - 1) } }
        | some y => State.forwardAll
          { s with net := { s.net with back := mset [] s.net.back (queueKey c r p vn vc) rest, used := mupd 0 s.net.used (queueKey c r p vn vc) (· - 1) } } y.1 y.2.1)) ∧
    (s.fld DEV_PERTNOC_EN 0 = 1 → s.fld DEV_PERTNOC_CARRIAGE 0 = c → s.fld DEV_PERTNOC_ROUTER 0 = r → s.fld DEV_PERTNOC_PORT 0 = (if 8 ≤ p.val then 4 else p.val) →
      s.netCycles < x + s.fld DEV_PERTNOC_HOLD 0 → exec (.creditReturn c r p vn vc) s = .next s)) ∧
  (∀ (c : Car) (r : Fin 40) (upset : List (Nat × Fin 1064)) (p : Packet) (fs : List Flit) (s : State), s.netStill c = false →
    firstWhole (mget [] s.net.ports (c.val * 64 + r.val)) = some p → fs = upsetFlits upset (flitsOf (mget [] s.net.ports (c.val * 64 + r.val)) p.uid) →
    ((r.val < 24 ∧ s.fld COA_STATE_STATE (c.val * 24 + r.val) = 6) ∨ s.fabricFull p = true → exec (.packetDeliver c r upset) s = .next s) ∧
    (24 ≤ r.val ∨ s.fld COA_STATE_STATE (c.val * 24 + r.val) ≠ 6 → s.fabricFull p = false → headerBad fs = true → ∃ t, exec (.packetDeliver c r upset) s = .next t ∧
      mget [] t.net.ports (c.val * 64 + r.val) = (mget [] s.net.ports (c.val * 64 + r.val)).filter (fun g => g.pkt.uid != p.uid) ∧ t.net.inbox = s.net.inbox ∧
      t.fld NOC_ECCUE_COUNT c = min (2 ^ NOC_ECCUE_COUNT.w - 1) (s.fld NOC_ECCUE_COUNT c + 1) ∧ t.fld NOC_UEINFO_VALID c = 1 ∧ SameMemories s t) ∧
    ∀ u stale, 24 ≤ r.val ∨ s.fld COA_STATE_STATE (c.val * 24 + r.val) ≠ 6 → s.fabricFull p = false → headerBad fs = false → s.unitFor c r p = some u →
    stale = (if mget 0 s.net.heads p.uid = 0 then s.staleAt u p else mget 0 s.net.heads p.uid == 2) →
    ∃ t, exec (.packetDeliver c r upset) s = .next t ∧
      mget [] t.net.ports (c.val * 64 + r.val) = (mget [] s.net.ports (c.val * 64 + r.val)).filter (fun g => g.pkt.uid != p.uid) ∧
      (stale = true → t.fld NOC_STALECNT_COUNT (u / 256) = min (2 ^ NOC_STALECNT_COUNT.w - 1) (s.fld NOC_STALECNT_COUNT (u / 256) + 1) ∧
        t.net.inbox = s.net.inbox ∧ SameMemories s t) ∧
      (stale = false → payloadBad fs = false → p.vn = 1 → niLink u = none → u % 256 < 0x30 ∨ 0x40 ≤ u % 256 →
        mget [] t.net.inbox u = mget [] s.net.inbox u ++ [p] ∧ OnlyFields [(NOC_ECCCE_COUNT, c, 0)] { s with net := t.net } t) ∧
      (stale = false → payloadBad fs = false → p.vn ≠ 1 → p.remote = false → p.isMemory = true → 0x20 ≤ u % 256 → u % 256 < 0x28 →
        mget [] (t.hbmCtl (u / 256 * 2 + (u % 256 - 0x20) / 4)).edgeIn (u % 256 - 0x20) =
          mget [] (s.hbmCtl (u / 256 * 2 + (u % 256 - 0x20) / 4)).edgeIn (u % 256 - 0x20) ++ [p] ∧ SameMemories s t)) ∧
  ∀ (c : Car) (r : Fin 40) (upset : List (Nat × Fin 1064)) (p : Packet) (u : Nat) (s : State), s.netStill c = false →
    24 ≤ r.val ∨ s.fld COA_STATE_STATE (c.val * 24 + r.val) ≠ 6 → firstWhole (mget [] s.net.ports (c.val * 64 + r.val)) = none →
    s.firstHead (mget [] s.net.ports (c.val * 64 + r.val)) = some p → s.unitFor c r p = some u →
    exec (.packetDeliver c r upset) s = .next { s with net := { s.net with heads := mset 0 s.net.heads p.uid (if s.staleAt u p then 2 else 1) } }

/-- HBM requests enter a queue with room, one alone is served a burst a cycle, its data reach or leave the stack, and errors are counted (R343, R364, R365, R368, R370, R373, R375, R376, R380, R391, R392, R645). -/
def Obligations.HbmRequestsAreQueuedServedAndReturned : Prop :=
  (∀ (c : Car) (e : Fin 8) (p : Packet) (rest : List Packet) (n : Nat) (pl : Place) (s : State), n = c.val * 2 + e.val / 4 → mget [] (s.hbmCtl n).edgeIn e = p :: rest →
    pl = s.place (p.addr % 2 ^ 39) →
    (s.edgeTakes c e p = true ↔ s.hbmOpen n = true ∧ (if p.vn = 2 then ((s.hbmCtl n).pc pl.pc).wq.length < 32 else
      ((s.hbmCtl n).pc pl.pc).rq.length < 32 ∧ s.readsHeld c e ≤ Config.moreReadSpace)) ∧
    (s.edgeTakes c e p = true → s.needsCopy p = false →
      ∃ t x, exec (.hbmRequestAccept c e) s = .next t ∧ x.pkt = p ∧ x.pa = p.addr % 2 ^ 39 ∧ x.write = (p.vn == 2) ∧ x.order = (s.hbmCtl n).orderNo ∧ x.issued = 0 ∧
        mget [] (t.hbmCtl n).edgeIn e = rest ∧
        ((t.hbmCtl n).pc pl.pc).wq = ((s.hbmCtl n).pc pl.pc).wq ++ (if p.vn = 2 then [x] else []) ∧
        ((t.hbmCtl n).pc pl.pc).rq = ((s.hbmCtl n).pc pl.pc).rq ++ (if p.vn = 2 then [] else [x]) ∧
        (∀ q, q ≠ pl.pc → (t.hbmCtl n).pc q = (s.hbmCtl n).pc q) ∧ (∀ m, m ≠ n → t.hbmCtl m = s.hbmCtl m) ∧
        t = { s with hbmc := t.hbmc, net := t.net } ∧ (p.vn ≠ 2 → t.net = s.net)) ∧
    (s.edgeTakes c e p = false ∨ s.needsCopy p = true → exec (.hbmRequestAccept c e) s = .next s) ∧
    (s.edgeTakes c e p = false ∨ s.needsCopy p = false → exec (.mirrorCopyAccept c e) s = .next s) ∧
    (s.needsCopy p = true → s.edgeTakes c e p = true → s.linkUp 24 = true → s.linkUp 25 = true →
      ∃ t x, exec (.mirrorCopyAccept c e) s = .next t ∧ mget [] (t.hbmCtl n).edgeIn e = rest ∧ x.pkt = p ∧
        ((t.hbmCtl n).pc pl.pc).wq = ((s.hbmCtl n).pc pl.pc).wq ++ [x] ∧
        t.fld CPL_SENT_MSEQ 0 (if c.val < 2 then 0 else 1) = (s.fld CPL_SENT_MSEQ 0 (if c.val < 2 then 0 else 1) + 1) % 2 ^ 32 ∧ SameMemories s t)) ∧
  (∀ (c : Car) (e : Fin 8) (s : State), mget [] (s.hbmCtl (c.val * 2 + e.val / 4)).edgeIn e = [] →
    exec (.hbmRequestAccept c e) s = .next s ∧ exec (.mirrorCopyAccept c e) s = .next s) ∧
  (∀ (n : Fin 8) (p b : Nat) (more : List Nat) (r : HReq) (s : State), p < 64 → s.hfld HBM_CTL_MODE n = 2 → (s.hbmCtl n).selfRef = false → (s.hbmCtl n).reads = [] →
    (∀ q, q < 64 → q ≠ p → ((s.hbmCtl n).pc q).rq = [] ∧ ((s.hbmCtl n).pc q).wq = [] ∧ ((s.hbmCtl n).pc q).refDue = []) →
    ((s.hbmCtl n).pc p).rq = (if r.write then [] else [r]) → ((s.hbmCtl n).pc p).wq = (if r.write then [r] else []) → ((s.hbmCtl n).pc p).refDue = [] →
    ((s.hbmCtl n).pc p).late = [] → r.rest = b :: more →
    ∃ t, exec (.hbmSchedule n) s = .next t ∧ (t.hbmCtl n).cyc = (s.hbmCtl n).cyc + 1 ∧
      mget none ((t.hbmCtl n).pc p).openRow (s.place r.pa).bank = some (s.place r.pa).row ∧
      (mget none ((s.hbmCtl n).pc p).openRow (s.place r.pa).bank = some (s.place r.pa).row → (t.hbmCtl n).g = (s.hbmCtl n).g) ∧
      (mget none ((s.hbmCtl n).pc p).openRow (s.place r.pa).bank ≠ some (s.place r.pa).row → (t.hbmCtl n).g = stepG (s.hbmCtl n).g) ∧
      (r.write = false → ∃ x, x.pkt = r.pkt ∧ x.issued = r.issued + 1 ∧ x.data = r.data ++ memRead s.hbm.bytes (b * 32) 32 ∧ t.hbm = s.hbm ∧
        (if more = [] then ((t.hbmCtl n).pc p).rq = [] ∧ (t.hbmCtl n).reads = [x] else ((t.hbmCtl n).pc p).rq = [x] ∧ (t.hbmCtl n).reads = [])) ∧
      (r.write = true → r.pa ≤ b * 32 → b * 32 + 32 ≤ r.pa + r.n → r.pkt.data.length = r.n → (t.hbmCtl n).reads = [] ∧
        ((t.hbmCtl n).pc p).wq = (if more = [] then [] else [{ r with issued := r.issued + 1 }]) ∧
        memRead t.hbm.bytes (b * 32) 32 = ((r.pkt.data.drop (b * 32 - r.pa)).take 32).map (· % 256) ∧ mget 0 t.hbm.poison b = 0 ∧
        ∀ a, a < b * 32 ∨ b * 32 + 32 ≤ a → memByte t.hbm.bytes a = memByte s.hbm.bytes a) ∧
      (r.write = true → b * 32 < r.pa ∨ r.pa + r.n < b * 32 + 32 → t.hbm = s.hbm ∧ ((t.hbmCtl n).pc p).wq = [{ r with issued := r.issued + 1 }] ∧
        ∃ x, (t.hbmCtl n).reads = [x] ∧ x.write = true ∧ x.order = r.order ∧ x.pa = (r.part b).1 ∧ x.pkt.data = (r.part b).2) ∧
      t = { s with hbmc := t.hbmc, hbm := t.hbm, fields := t.fields, out := t.out } ∧ SameFields [(HBM_NRCNT_COUNT, n.val / 2, n.val % 2)] s t) ∧
  (∀ (n : Fin 8) (s : State), s.hfld HBM_CTL_MODE n ≠ 2 ∨ (s.hbmCtl n).selfRef = true →
    exec (.hbmSchedule n) s = .next (s.updHbm n (fun h => { h with cyc := h.cyc + 1 }))) ∧
  (∀ (n : Fin 8) (flips : List (Nat × Fin 272)) (r : HReq) (rest : List HReq) (l : List BurstRead) (s : State), (s.hbmCtl n).reads = r :: rest →
    (s.readDelayed n r = true → exec (.hbmReadData n flips) s = .next s) ∧
    (s.readDelayed n r = false → r.write = false →
      l = (burstsOf r.pa r.n).zipIdx.map (fun x => readBurst ((r.data.drop (32 * x.2)).take 32) (r.bad.contains x.1) (flipsIn flips x.2)) →
      ∃ t, exec (.hbmReadData n flips) s = .next t ∧ (t.hbmCtl n).reads = rest ∧
      t.hfld HBM_CECNT_COUNT n = min (2 ^ HBM_CECNT_COUNT.w - 1) (s.hfld HBM_CECNT_COUNT n + l.countP (·.corrected)) ∧
      t.hfld HBM_UECNT_COUNT n = (if l.countP (·.failed) = 0 then s.hfld HBM_UECNT_COUNT n else min (2 ^ HBM_UECNT_COUNT.w - 1) (s.hfld HBM_UECNT_COUNT n + l.countP (·.failed))) ∧
      t = { (s.updHbm n (fun h => { h with reads := rest })).respond (n.val / 2 * 256 + 0x20 + (s.place r.pa).edge) r.pkt 0 0
        (((l.flatMap (·.bytes)).drop (r.pa % 32)).take r.n) (l.any (·.failed)) with fields := t.fields } ∧
      SameFields [(HBM_CECNT_COUNT, n.val / 2, n.val % 2), (HBM_UECNT_COUNT, n.val / 2, n.val % 2), (HBM_UEADDR_PA, n.val / 2, n.val % 2)] s t) ∧
    (r.write = true → s.poisoned (r.pa / 32) = false → (∀ x ∈ flips, x.1 ≠ 0) → ∃ t, exec (.hbmReadData n flips) s = .next t ∧ (t.hbmCtl n).reads = rest ∧
      memRead t.hbm.bytes r.pa r.pkt.data.length = r.pkt.data.map (· % 256) ∧
      (∀ a, a < r.pa ∨ r.pa + r.pkt.data.length ≤ a → memByte t.hbm.bytes a = memByte s.hbm.bytes a) ∧ t.hfld HBM_UECNT_COUNT n = s.hfld HBM_UECNT_COUNT n) ∧
    (r.write = true → s.poisoned (r.pa / 32) = true → (∀ x ∈ flips, x.1 ≠ 0) → 0 < r.pkt.data.length → covers r.pa r.pkt.data.length (r.pa / 32) = false →
      ∃ t, exec (.hbmReadData n flips) s = .next t ∧ (t.hbmCtl n).reads = rest ∧ t.poisoned (r.pa / 32) = true ∧
        t.hfld HBM_UECNT_COUNT n = min (2 ^ HBM_UECNT_COUNT.w - 1) (s.hfld HBM_UECNT_COUNT n + 1))) ∧
  (∀ (n : Fin 8) (flips : List (Nat × Fin 272)) (s : State), (s.hbmCtl n).reads = [] → exec (.hbmReadData n flips) s = .next s) ∧
  ∀ (bytes : List Nat) (i j : Nat), readBurst bytes false [] = ⟨bytes, false, false⟩ ∧ (readBurst bytes true []).failed = true ∧
    (i < 266 → readBurst bytes false [i] = ⟨bytes, true, false⟩) ∧ (i < 266 → j < 266 → i ≠ j → (readBurst bytes false [i, j]).failed = true)

/-- Refresh, idle close, neighbour tables, modes, training commands and the change of data rate act as chapter 9 says, each alone (R377, R378, R379, R382, R383, R387, R388, R389, R390, Table 9.3, 09_hbm.md). -/
def Obligations.HbmRefreshesTrainsAndChangesRate : Prop :=
  (∀ (n : Fin 8) (p b : Fin 64) (s : State),
    (mget 0 ((s.hbmCtl n).pc p).lastUse b + 64 ≤ (s.hbmCtl n).cyc → ∃ t, exec (.rowIdleClose n p b) s = .next t ∧ mget none ((t.hbmCtl n).pc p).openRow b = none ∧
      (∀ x, x ≠ b.val → mget none ((t.hbmCtl n).pc p).openRow x = mget none ((s.hbmCtl n).pc p).openRow x) ∧ (∀ q, q ≠ p.val → (t.hbmCtl n).pc q = (s.hbmCtl n).pc q) ∧
      OnlyFieldsOut [(HBM_NRCNT_COUNT, n.val / 2, n.val % 2)] { s with hbmc := t.hbmc } t) ∧
    ((s.hbmCtl n).cyc < mget 0 ((s.hbmCtl n).pc p).lastUse b + 64 → exec (.rowIdleClose n p b) s = .next s) ∧
    (s.hfld HBM_CTL_REFMODE n = 0 → (s.hbmCtl n).selfRef = false → max (s.hbmCtl n).refFrom (mget 0 ((s.hbmCtl n).pc p).refAt b) + s.refInterval n ≤ (s.hbmCtl n).cyc →
      ∃ t, exec (.refreshDue n p b) s = .next t ∧ OnlyFieldsOut [(HBM_NRCNT_COUNT, n.val / 2, n.val % 2)] { s with hbmc := t.hbmc } t ∧
      mget 0 ((t.hbmCtl n).pc p).refAt b = (s.hbmCtl n).cyc ∧
      ((∀ r ∈ ((s.hbmCtl n).pc p).rq ++ ((s.hbmCtl n).pc p).wq, (s.place r.pa).bank ≠ b.val) → (t.hbmCtl n).refreshes = (s.hbmCtl n).refreshes + 1 ∧
        mget none ((t.hbmCtl n).pc p).openRow b = none ∧ mget 0 ((t.hbmCtl n).pc p).refDue b = 0) ∧
      ((∃ r ∈ ((s.hbmCtl n).pc p).rq ++ ((s.hbmCtl n).pc p).wq, (s.place r.pa).bank = b.val) → (t.hbmCtl n).refreshes = (s.hbmCtl n).refreshes ∧
        mget 0 ((t.hbmCtl n).pc p).refDue b = mget 0 ((s.hbmCtl n).pc p).refDue b + 1)) ∧
    (s.hfld HBM_CTL_REFMODE n ≠ 0 ∨ (s.hbmCtl n).selfRef = true ∨ (s.hbmCtl n).cyc < max (s.hbmCtl n).refFrom (mget 0 ((s.hbmCtl n).pc p).refAt b) + s.refInterval n →
      exec (.refreshDue n p b) s = .next s)) ∧
  (∀ (n : Fin 8) (d : Nat) (s : State), d = ((s.hbmCtl n).cyc - (s.hbmCtl n).slotBase) % s.hfld HBM_REFSLOT_SLOT n →
    (s.hfld HBM_CTL_REFMODE n = 1 ∧ s.hfld HBM_REFSLOT_SLOT n ≠ 0 ∧ (d = 0 ∨ (s.hfld HBM_STATUS_HOT n = 1 ∧ d = s.hfld HBM_REFSLOT_SLOT n / 2)) →
      ∃ t, exec (.refreshSlot n) s = .next t ∧ (t.hbmCtl n).allRefreshes = (s.hbmCtl n).allRefreshes + 1 ∧
        (∀ q b, mget none ((t.hbmCtl n).pc q).openRow b = none ∧ mget 0 ((t.hbmCtl n).pc q).refDue b = 0) ∧
        OnlyFieldsOut [(HBM_NRCNT_COUNT, n.val / 2, n.val % 2)] { s with hbmc := t.hbmc } t) ∧
    (¬ (s.hfld HBM_CTL_REFMODE n = 1 ∧ s.hfld HBM_REFSLOT_SLOT n ≠ 0 ∧ (d = 0 ∨ (s.hfld HBM_STATUS_HOT n = 1 ∧ d = s.hfld HBM_REFSLOT_SLOT n / 2))) →
      exec (.refreshSlot n) s = .next s)) ∧
  (∀ (n : Fin 8) (hot : Bool) (s : State), ∃ t, exec (.stackTempChange n hot) s = .next t ∧ t.hfld HBM_STATUS_HOT n = b2n hot ∧
    (hot = true → s.hfld HBM_CTL_REFMODE n = 1 → s.fld DEV_LSSTAT_STATE 0 = 2 → t.fld DEV_LSSTAT_STATE 0 = 3 ∧ t.fld DEV_LSSTAT_CODE 0 = 4) ∧
    (hot = false ∨ s.hfld HBM_CTL_REFMODE n ≠ 1 → OnlyFields [(HBM_STATUS_HOT, n.val / 2, n.val % 2)] s t)) ∧
  (∀ (n : Fin 8) (v : BitVec 32) (s : State), s.answersAt (HBM_ADJMAP_PERM.bar0 (n.val / 2) (n.val % 2) + 4) = true → s.withheld = false →
    ∃ t, exec (.adjmapHiWrite n v) s = .next t ∧
    t.hfld HBM_ADJMAP_PERM n = (s.heldLow HBM_ADJMAP_PERM (n.val / 2) (n.val % 2) (s.hfld HBM_ADJMAP_PERM n) + v.toNat * 2 ^ 32) % 2 ^ 64 ∧
    t.hfld HBM_STATUS_ADJOK n = b2n (isPerm (s.heldLow HBM_ADJMAP_PERM (n.val / 2) (n.val % 2) (s.hfld HBM_ADJMAP_PERM n) + v.toNat * 2 ^ 32)) ∧
    OnlyFields [(HBM_ADJMAP_PERM, n.val / 2, n.val % 2), (HBM_STATUS_ADJOK, n.val / 2, n.val % 2)] { s with held := t.held } t) ∧
  (∀ (n : Fin 8) (m : Fin 4) (s : State), Hits HBM_CTL_MODE (n.val / 2) (n.val % 2) s → ∃ t, exec (.hbmModeWrite n m) s = .next t ∧ t.hfld HBM_CTL_MODE n = m ∧
    (t.hbmCtl n).selfRef = (m.val == 3) ∧
    t.hfld HBM_STATUS_ACTSET n = (if m.val = 2 ∧ s.hfld HBM_CTL_MODE n ≠ 2 then s.hfld HBM_CTL_TRSET n % 2 else s.hfld HBM_STATUS_ACTSET n) ∧
    OnlyFieldsOut [(HBM_CTL_MODE, n.val / 2, n.val % 2), (HBM_STATUS_ACTSET, n.val / 2, n.val % 2), (HBM_NRCNT_COUNT, n.val / 2, n.val % 2)] { s with hbmc := t.hbmc } t) ∧
  (∀ (n : Fin 8) (o : Nat) (refuse : Prop) (s : State), Hits HBM_CTL_FCREQ (n.val / 2) (n.val % 2) s → o = n.val % 2 * 2 + (1 - s.hfld HBM_STATUS_ACTSET n) →
    (refuse ↔ s.hfld HBM_CTL_MODE n ≠ 2 ∨ s.fld HBM_TSET_VALID (n.val / 2) o = 0 ∨ s.fld HBM_TSET_RATE (n.val / 2) o = 3 ∨ s.fld DEV_LSSTAT_STATE 0 = 1 ∨
      s.fld DEV_LSSTAT_STATE 0 = 2 ∨ s.hfld HBM_STATUS_FCBUSY n = 1) →
    (s.pm.running = true → exec (.hbmFreqChange n) s = .next s) ∧
    (s.pm.running = false → refuse → ∃ t, exec (.hbmFreqChange n) s = .next t ∧ t.hfld HBM_STATUS_FCERR n = 1 ∧ OnlyFields [(HBM_STATUS_FCERR, n.val / 2, n.val % 2)] s t) ∧
    (s.pm.running = false → ¬ refuse → ∃ t, exec (.hbmFreqChange n) s = .next t ∧ t.hfld HBM_STATUS_FCBUSY n = 1 ∧ (t.hbmCtl n).fcStep = 1 ∧
      OnlyFields [(HBM_CTL_FCREQ, n.val / 2, n.val % 2), (HBM_STATUS_FCBUSY, n.val / 2, n.val % 2)] { s with hbmc := t.hbmc } t)) ∧
  (∀ (n : Fin 8) (s : State), ((s.hbmCtl n).fcStep = 1 → (s.hbmCtl n).drained = true → ∃ t, exec (.fcQueuesEmpty n) s = .next t ∧ (t.hbmCtl n).selfRef = true ∧
      (t.hbmCtl n).fcStep = 3 ∧ (t.hbmCtl n).allRefreshes = (s.hbmCtl n).allRefreshes + 1 ∧
      OnlyFieldsOut [(HBM_NRCNT_COUNT, n.val / 2, n.val % 2)] { s with hbmc := t.hbmc } t) ∧
    ((s.hbmCtl n).fcStep ≠ 1 ∨ (s.hbmCtl n).drained = false → exec (.fcQueuesEmpty n) s = .next s) ∧
    ((s.hbmCtl n).fcStep = 3 → s.hfld HBM_STATUS_ACTSET n < 2 → ∃ t, exec (.hbmFreqChangeDone n) s = .next t ∧
      t.hfld HBM_STATUS_ACTSET n = 1 - s.hfld HBM_STATUS_ACTSET n ∧ t.hfld HBM_STATUS_FCBUSY n = 0 ∧ t.hfld HBM_STATUS_FCDONE n = 1 ∧ (t.hbmCtl n).selfRef = false ∧
      (t.hbmCtl n).fcStep = 0 ∧ (t.hbmCtl n).refFrom = (s.hbmCtl n).cyc ∧ (t.hbmCtl n).mrws.map (·.1) = (s.hbmCtl n).mrws.map (·.1) ++ List.range 64 ∧
      OnlyFields [(HBM_STATUS_ACTSET, n.val / 2, n.val % 2), (HBM_STATUS_FCBUSY, n.val / 2, n.val % 2), (HBM_STATUS_FCDONE, n.val / 2, n.val % 2),
        (HBM_CTL_FCREQ, n.val / 2, n.val % 2)] { s with hbmc := t.hbmc } t) ∧
    ((s.hbmCtl n).fcStep ≠ 3 → exec (.hbmFreqChangeDone n) s = .next s)) ∧
  (∀ (n : Fin 8) (p : Fin 64) (flips : List (Fin 272)) (s : State), Hits HBM_TRCMD_OP (n.val / 2) (n.val % 2) s → s.hfld HBM_CTL_MODE n = 1 →
    (∃ t, exec (.trainWritePattern n p) s = .next t ∧ (t.hbmCtl n).trCmd = some (1, 0) ∧
      memRead t.hbm.bytes (s.trainAddr n p) 32 = (List.range 32).map (fun i => Config.trainByte (p.val / 2) i % 256) ∧ mget 0 t.hbm.poison (s.trainAddr n p / 32) = 0 ∧
      (∀ a, a < s.trainAddr n p ∨ s.trainAddr n p + 32 ≤ a → memByte t.hbm.bytes a = memByte s.hbm.bytes a) ∧ t = { s with hbmc := t.hbmc, hbm := t.hbm }) ∧
    (∃ t lanes, exec (.trainReadCompare n p flips) s = .next t ∧ (t.hbmCtl n).trCmd = some (2, lanes) ∧ lanes < 512 ∧
      (flips = [] → memRead s.hbm.bytes (s.trainAddr n p) 32 = trainPattern p → s.poisoned (s.trainAddr n p / 32) = false → lanes = 511) ∧ t = { s with hbmc := t.hbmc }) ∧
    ∃ t, exec (.trainMrw n p) s = .next t ∧ (t.hbmCtl n).trCmd = some (3, 0) ∧ (t.hbmCtl n).mrws = (s.hbmCtl n).mrws ++ [(p.val, s.hfld HBM_TRRES_MRW n)] ∧
      t = { s with hbmc := t.hbmc }) ∧
  (∀ (n : Fin 8) (p : Fin 64) (flips : List (Fin 272)) (s : State), Hits HBM_TRCMD_OP (n.val / 2) (n.val % 2) s → s.hfld HBM_CTL_MODE n ≠ 1 →
    exec (.trainWritePattern n p) s = .next s ∧ exec (.trainReadCompare n p flips) s = .next s ∧ exec (.trainMrw n p) s = .next s) ∧
  (∀ (n : Fin 8) (op lanes : Nat) (s : State), (s.hbmCtl n).trCmd = some (op, lanes) → lanes < 512 → ∃ t, exec (.trainCmdDone n) s = .next t ∧
    t.hfld HBM_TRRES_DONE n = 1 ∧ (t.hbmCtl n).trCmd = none ∧ (op = 2 → t.hfld HBM_TRRES_MRW n % 512 = lanes) ∧
    (op ≠ 2 → t.hfld HBM_TRRES_MRW n = s.hfld HBM_TRRES_MRW n) ∧
    OnlyFields [(HBM_TRRES_DONE, n.val / 2, n.val % 2), (HBM_TRRES_MRW, n.val / 2, n.val % 2)] { s with hbmc := t.hbmc } t) ∧
  ∀ (n : Fin 8) (s : State), (s.hbmCtl n).trCmd = none → exec (.trainCmdDone n) s = .next s

/-- A bay serves its oldest request by its state; packets from the module end accesses, attach or tell wear; an access unanswered for 1 ms is sent again (R401, R402, R405, R406, R409, R411, R417, R419, R420, R421, R429, 10_tenders.md). -/
def Obligations.TenderAccessesAreServedInOrder : Prop :=
  (∀ (b : Fin 4) (s : State), (s.bay b).inq = [] → exec (.tenderRequest b) s = .next s) ∧
  (∀ (b : Fin 4) (p : Packet) (rest : List Packet) (s : State), (s.bay b).inq = p :: rest → s.fld CPL_STATE_STATE 0 ≠ 7 → s.fld REC_STATUS_PFW 0 = 0 →
    (s.stoppedAt 8 b = true → exec (.tenderRequest b) s = .next s) ∧
    (s.stoppedAt 8 b = false → p.vn ≠ 5 → s.mirroring = false ∨ s.pairRole p.ctx ≠ 1 ∨ s.journalWrite b p = false →
    (s.bayState b ∈ [0, 1, 2, 6] → ∃ t, exec (.tenderRequest b) s = .next t ∧ (t.bay b).inq = rest ∧ (t.bay b).acc = (s.bay b).acc ∧ (t.bay b).toMod = (s.bay b).toMod ∧
      t.fld TND_EVENT_ERR b = 1 ∧ t.fld TND_ERRINFO_VALID b = 1 ∧
      (s.fld TND_ERRINFO_VALID b = 1 → t.fld TND_ERRINFO_MORE b = 1) ∧
      (s.fld TND_ERRINFO_VALID b ≠ 1 → t.fld TND_ERRINFO_STATUS b = (if s.bayState b = 0 then 3 else if s.bayState b = 6 then 6 else 7) ∧
        t.fld TND_ERRADDR_ADDR b = p.addr % 2 ^ 42 ∧ t.fld TND_ERRINFO_CONTEXT b = p.ctx % 2 ^ TND_ERRINFO_CONTEXT.w ∧ t.fld TND_ERRINFO_WRITE b = b2n p.isWrite) ∧
      (∃ r ∈ t.reports, r.unit = bayUnit b ∧ r.ctx = some p.ctx ∧ r.data = p.addr % 2 ^ 42) ∧ SameMemories s t) ∧
    (s.bayState b ∈ [3, 5] → (s.bay b).detaching = false → (s.bay b).acc.length + (partsOf p).length ≤ 1024 → s.carState b < 2 → (∀ a ∈ (s.bay b).acc, a.sent = true) →
      ∃ t qs, exec (.tenderRequest b) s = .next t ∧ (t.bay b).inq = rest ∧ (t.bay b).toMod = (s.bay b).toMod ++ qs ∧
        qs.map (fun q => (q.typ, q.addr, q.len)) = partsOf p ∧ (∀ q ∈ qs, q.data = if p.isWrite then p.data else []) ∧
        (t.bay b).acc.map (·.req) = (s.bay b).acc.map (·.req) ++ qs ∧ (∀ a ∈ (t.bay b).acc, a.sent = true) ∧ SameMemories s t) ∧
    (s.bayState b ∈ [3, 5] → (s.bay b).detaching = false → 1024 < (s.bay b).acc.length + (partsOf p).length ∨ 2 ≤ s.carState b → exec (.tenderRequest b) s = .next s) ∧
    (s.bayState b ∈ [4, 7] → (s.bay b).detaching = false → (s.bay b).network.length + (partsOf p).length ≤ 1024 →
      ∃ t as, exec (.tenderRequest b) s = .next t ∧ (t.bay b).inq = rest ∧ (t.bay b).toMod = (s.bay b).toMod ∧ (t.bay b).acc = (s.bay b).acc ++ as ∧
        as.map (fun a => (a.req.typ, a.req.addr, a.req.len)) = partsOf p ∧ (∀ a ∈ as, a.sent = false) ∧
        t.fld TND_HELD_COUNT b = ((s.bay b).network.length + (partsOf p).length) % 2 ^ TND_HELD_COUNT.w ∧ SameMemories s t))) ∧
  (∀ (b : Fin 4) (flips : List Nat) (s : State), ((s.bay b).arrival 8 = none → exec (.tenderData b flips) s = .next s) ∧
    ((s.bay b).arrival 9 = none → exec (.tenderAck b flips) s = .next s) ∧ ((s.bay b).arrival 10 = none → exec (.tenderNotice b flips) s = .next s)) ∧
  (∀ (b : Fin 4) (flips : List Nat) (p : TPkt) (rest : List TPkt) (s : State), (s.bay b).toDev = p :: rest → p.received flips = none →
    (p.typ = 8 → exec (.tenderData b flips) s = .next (s.updBay b (fun y => { y with toDev := rest }))) ∧
    (p.typ = 9 → exec (.tenderAck b flips) s = .next (s.updBay b (fun y => { y with toDev := rest }))) ∧
    (p.typ = 10 → exec (.tenderNotice b flips) s = .next (s.updBay b (fun y => { y with toDev := rest })))) ∧
  (∀ (b : Fin 4) (flips : List Nat) (p q : TPkt) (rest : List TPkt) (a : BayAcc) (r : BayReq) (s : State), (s.bay b).toDev = p :: rest → p.received flips = some q →
    (p.typ = 10 → crcGood q.data = true → ∃ t, exec (.tenderNotice b flips) s = .next t ∧ (t.bay b).toDev = rest ∧
      t.fld TND_WEAR_USED b = leNat (q.data.take 4) / 100 % 2 ^ TND_WEAR_USED.w ∧ t.fld TND_LIFE_SPARE b = leNat ((q.data.drop 4).take 4) % 2 ^ TND_LIFE_SPARE.w ∧
      SameMemories s t ∧ t.net = s.net) ∧
    ((s.bay b).acc.find? (fun x => x.req.tag == q.tag && x.sent) = some a → (s.bay b).own = [] → (s.bay b).reqList = [r] → r.id = a.group → r.left = 1 → r.awaits = [] →
      r.status = 0 → r.pkt.vn ≠ 5 → q.status = 0 → (s.bay b).detaching = false →
      (p.typ = 8 → a.req.typ = 1 → r.pkt.isWrite = false → r.got = [] → ∃ t s1, exec (.tenderData b flips) s = .next t ∧
        t = s1.inject (bayUnit b) { responseTo r.pkt 0 0 q.data with src := bayUnit b, aux := 0, bad := false } ∧
        s1.fld TND_RDBYTES_BYTES b = (s.fld TND_RDBYTES_BYTES b + q.len) % 2 ^ TND_RDBYTES_BYTES.w ∧ (s1.bay b).acc = (s.bay b).acc.erase a ∧ (s1.bay b).reqList = [] ∧
        (s1.bay b).toDev = rest ∧ OnlyFields [(TND_RDBYTES_BYTES, b, 0)] { s with bays := s1.bays } s1) ∧
      (p.typ = 9 → a.req.typ = 2 → r.pkt.isWrite = true → ∃ t s1, exec (.tenderAck b flips) s = .next t ∧
        t = s1.inject (bayUnit b) { responseTo r.pkt 1 0 [] with src := bayUnit b, aux := 0, bad := false } ∧
        s1.fld TND_WRBYTES_BYTES b = (s.fld TND_WRBYTES_BYTES b + a.req.len) % 2 ^ TND_WRBYTES_BYTES.w ∧ (s1.bay b).acc = (s.bay b).acc.erase a ∧ (s1.bay b).reqList = [] ∧
        (s1.bay b).toDev = rest ∧ OnlyFields [(TND_WRBYTES_BYTES, b, 0)] { s with bays := s1.bays } s1)) ∧
    (p.typ = 9 → (s.bay b).acc.find? (fun x => x.req.tag == q.tag && x.sent) = some a → (s.bay b).own = [] → a.req.typ = 4 → (s.bay b).attachPending = true → s.bayState b = 2 →
      ∃ t, exec (.tenderAck b flips) s = .next t ∧ t.fld TND_CTL_ATTACH b = 0 ∧ (t.bay b).attachPending = false ∧ (t.bay b).acc = (s.bay b).acc.erase a ∧
        (q.status = 0 → t.bayState b = (match (s.bay b).history.getLast? with | some x => if x.2 < 2000 then 5 else 3 | none => 3) ∧
          t.fld TND_SEAL_ATTACHCNT b = leNat ((a.req.data.drop 8).take 4) % 2 ^ TND_SEAL_ATTACHCNT.w) ∧
        (q.status ≠ 0 → t.bayState b = 2) ∧ SameMemories s t) ∧
    (p.typ = 9 → (s.bay b).acc.find? (fun x => x.req.tag == q.tag && x.sent) = some a → a.startsMaint = true → (s.bay b).maintKind ≠ 0 →
      ∃ t, exec (.tenderAck b flips) s = .next t ∧ t.fld TND_MAINT_BUSY b = 0 ∧ t.fld TND_MAINT_STOP b = 0 ∧ t.fld TND_EVENT_MAINT b = 1 ∧ (t.bay b).maintKind = 0 ∧
        (q.status = 4 → t.fld TND_MAINT_MEDIAERR b = 1) ∧ SameMemories s t)) ∧
  ∀ (b : Fin 4) (tag : Fin 1024) (s : State),
    (∀ a, (s.bay b).acc.find? (fun x => x.sent && x.req.tag == tag.val && !x.startsMaint) = some a →
      (a.resends < 3 → ∃ t, exec (.tenderResendTimeout b tag) s = .next t ∧ (t.bay b).toMod = (s.bay b).toMod ++ [a.req] ∧
        (t.bay b).acc.map (·.req) = (s.bay b).acc.map (·.req) ∧ t = { s with bays := t.bays }) ∧
      (3 ≤ a.resends → ∃ t, exec (.tenderResendTimeout b tag) s = .next t ∧ t.bayState b = 6 ∧ t.fld TND_EVENT_FAILED b = 1 ∧ SameMemories s t)) ∧
    ((s.bay b).acc.find? (fun x => x.sent && x.req.tag == tag.val && !x.startsMaint) = none → exec (.tenderResendTimeout b tag) s = .next s)

/-- A module writes before it acknowledges, answers reads with its bytes, keeps its tables in two copies, and counts what maintenance wears (R400, R402, R403, R404, R407, R409, R410, R411, R413, R416, R417, 10_tenders.md). -/
def Obligations.ModulesKeepTheirMediaAndTables : Prop :=
  (∀ (b : Fin 4) (flips : List Nat) (media torn ended : Bool) (moved worn : Nat) (p : TPkt) (rest : List TPkt) (s : State), (s.bay b).toMod = p :: rest →
    (s.bay b).modl.present = true → p.received flips = none →
    (p.typ = 2 → exec (.moduleWrite b flips media worn torn) s = .next (s.updBay b (fun y => { y with toMod := rest }))) ∧
    (p.typ ∈ [1, 3, 5] → exec (.moduleRead b flips media) s = .next (s.updBay b (fun y => { y with toMod := rest }))) ∧
    (p.typ = 4 → exec (.moduleSeal b flips torn) s = .next (s.updBay b (fun y => { y with toMod := rest }))) ∧
    (p.typ = 6 → exec (.moduleMaint b flips media moved worn ended torn) s = .next (s.updBay b (fun y => { y with toMod := rest })))) ∧
  (∀ (b : Fin 4) (flips : List Nat) (media torn ended : Bool) (moved worn : Nat) (s : State),
    ((s.bay b).request [2] = none → exec (.moduleWrite b flips media worn torn) s = .next s) ∧ ((s.bay b).request [1, 3, 5] = none → exec (.moduleRead b flips media) s = .next s) ∧
    ((s.bay b).request [4] = none → exec (.moduleSeal b flips torn) s = .next s) ∧
    ((s.bay b).request [6] = none → (s.bay b).modl.present = false ∨ (s.bay b).modl.maint = 0 → exec (.moduleMaint b flips media moved worn ended torn) s = .next s)) ∧
  (∀ (b : Fin 4) (flips : List Nat) (media torn : Bool) (worn : Nat) (p q : TPkt) (rest : List TPkt) (s : State), (s.bay b).toMod = p :: rest → (s.bay b).modl.present = true →
    p.received flips = some q →
    (p.typ = 2 → (s.bay b).modl.spare < 2000 → mget 0 (s.bay b).modl.acked q.tag ≠ q.addr + 1 → ∃ t x, exec (.moduleWrite b flips media worn torn) s = .next t ∧
      t = { s with bays := t.bays } ∧ (t.bay b).toMod = rest ∧ (t.bay b).toDev = (s.bay b).toDev ++ [x] ∧ x.typ = 9 ∧ x.tag = q.tag ∧ x.status = 1 ∧
      (t.bay b).modl.wear = (s.bay b).modl.wear) ∧
    (p.typ = 2 → 2000 ≤ (s.bay b).modl.spare ∨ mget 0 (s.bay b).modl.acked q.tag = q.addr + 1 →
      ((s.bay b).modl.capGib * 2 ^ 30 < q.addr + q.len → ∃ t x, exec (.moduleWrite b flips media worn torn) s = .next t ∧ t = { s with bays := t.bays } ∧
        (t.bay b).toMod = rest ∧ (t.bay b).toDev = (s.bay b).toDev ++ [x] ∧ x.typ = 9 ∧ x.tag = q.tag ∧ x.status = 5) ∧
      (q.addr + q.len ≤ (s.bay b).modl.capGib * 2 ^ 30 → ∃ t, exec (.moduleWrite b flips false worn false) s = .next t ∧
        t = { s with bays := t.bays, media := t.media } ∧ (t.bay b).toMod = rest ∧ (t.bay b).modl.written = (s.bay b).modl.written + q.len ∧
        (t.bay b).modl.spare = (s.bay b).modl.spare - worn ∧ mget 0 (t.bay b).modl.acked q.tag = q.addr + 1 ∧
        memRead t.media (mediaKey b q.addr) q.data.length = q.data.map (· % 256) ∧
        (∀ x, x < mediaKey b q.addr ∨ mediaKey b q.addr + q.data.length ≤ x → memByte t.media x = memByte s.media x) ∧
        ∃ x n, (t.bay b).toDev = (s.bay b).toDev ++ x :: n ∧ x.typ = 9 ∧ x.tag = q.tag ∧ x.status = 0 ∧ ∀ y ∈ n, y.typ = 10) ∧
      (q.addr + q.len ≤ (s.bay b).modl.capGib * 2 ^ 30 → ∃ t x n, exec (.moduleWrite b flips true worn false) s = .next t ∧ t = { s with bays := t.bays } ∧
        (t.bay b).toDev = (s.bay b).toDev ++ x :: n ∧ x.typ = 9 ∧ x.tag = q.tag ∧ x.status = 4) ∧
      (q.addr + q.len ≤ (s.bay b).modl.capGib * 2 ^ 30 → ∃ t, exec (.moduleWrite b flips media worn true) s = .next t ∧ (t.bay b).modl.present = false ∧
        (t.bay b).toDev = (s.bay b).toDev ∧ (t.bay b).modl.written = (s.bay b).modl.written ∧ (t.bay b).modl.spare = (s.bay b).modl.spare)) ∧
    (p.typ ∈ [1, 3, 5] → ∃ t x, exec (.moduleRead b flips media) s = .next t ∧ t = { s with bays := t.bays } ∧
      t.bay b = { s.bay b with toMod := rest, toDev := (s.bay b).toDev ++ [x], modl := { (s.bay b).modl with acked := mset 0 (s.bay b).modl.acked q.tag 0 } } ∧
      x.typ = 8 ∧ x.tag = q.tag ∧ (q.typ = 3 → x.status = 0 ∧ x.data = (s.bay b).modl.identBytes) ∧ (q.typ = 5 → x.status = 0 ∧ x.data = (s.bay b).modl.summaryBytes) ∧
      (q.typ ∉ [3, 5] → (s.bay b).modl.capGib * 2 ^ 30 < q.addr + q.len → x.status = 5 ∧ x.data = []) ∧
      (q.typ ∉ [3, 5] → q.addr + q.len ≤ (s.bay b).modl.capGib * 2 ^ 30 → if media = true then x.status = 4 ∧ x.data = []
        else x.status = 0 ∧ x.data = memRead s.media (mediaKey b q.addr) q.len)) ∧
    (p.typ = 4 → ∃ t, exec (.moduleSeal b flips torn) s = .next t ∧ t = { s with bays := t.bays } ∧ (t.bay b).toMod = rest ∧ (t.bay b).modl.present = !torn ∧
      (torn = true ∨ crcGood q.data = false → (t.bay b).modl.sealed.now = (s.bay b).modl.sealed.now) ∧
      (torn = false → crcGood q.data = true →
        (t.bay b).modl.sealed.now = { gen := (s.bay b).modl.sealed.now.gen + 1, ok := true, val := [leNat (q.data.take 8), leNat ((q.data.drop 8).take 4)] }) ∧
      (torn = true → (t.bay b).toDev = (s.bay b).toDev) ∧
      (torn = false → ∃ x, (t.bay b).toDev = (s.bay b).toDev ++ [x] ∧ x.typ = 9 ∧ x.tag = q.tag ∧ x.status = 0)) ∧
    ∀ (moved : Nat) (ended : Bool), p.typ = 6 →
      (q.addr % 4 ≠ 3 → ∃ t, exec (.moduleMaint b flips media moved worn ended torn) s = .next t ∧ t = { s with bays := t.bays } ∧
        t.bay b = { s.bay b with toMod := rest, modl := { (s.bay b).modl with maint := q.addr % 4, maintTag := q.tag, acked := mset 0 (s.bay b).modl.acked q.tag 0 } }) ∧
      (q.addr % 4 = 3 → ∃ t n x, exec (.moduleMaint b flips media moved worn ended false) s = .next t ∧ t = { s with bays := t.bays } ∧ (t.bay b).toMod = rest ∧
        (t.bay b).modl.maint = 0 ∧ (t.bay b).toDev = (s.bay b).toDev ++ n ++ [x] ∧ (∀ y ∈ n, y.typ = 10) ∧ x.typ = 9 ∧ x.tag = q.tag ∧ x.status = 0 ∧
        ((s.bay b).modl.maint ≠ 0 → (t.bay b).modl.written = (s.bay b).modl.written + moved ∧ (t.bay b).modl.spare = (s.bay b).modl.spare - worn))) ∧
  ∀ (b : Fin 4) (flips : List Nat) (media ended : Bool) (moved worn : Nat) (s : State), (s.bay b).request [6] = none → (s.bay b).modl.present = true → (s.bay b).modl.maint ≠ 0 →
    ∃ t n, exec (.moduleMaint b flips media moved worn ended false) s = .next t ∧ t = { s with bays := t.bays } ∧ (t.bay b).toMod = (s.bay b).toMod ∧
      (t.bay b).modl.written = (s.bay b).modl.written + moved ∧ (t.bay b).modl.spare = (s.bay b).modl.spare - worn ∧ (∀ y ∈ n, y.typ = 10) ∧
      (ended = false → (t.bay b).modl.maint = (s.bay b).modl.maint ∧ (t.bay b).toDev = (s.bay b).toDev ++ n) ∧
      (ended = true → (t.bay b).modl.maint = 0 ∧ ∃ x, (t.bay b).toDev = (s.bay b).toDev ++ n ++ [x] ∧ x.typ = 9 ∧ x.tag = (s.bay b).modl.maintTag ∧
        x.status = if media = true ∧ (s.bay b).modl.maint = 1 then 4 else 0)

/-- Presence, lost lock, time limits, ATTACH, DETACH and maintenance move a bay between the states of chapter 10, with their events (R409, R415, R417, R418, R419, R420, R421, R422, R423, R424, R425, 10_tenders.md). -/
def Obligations.TenderBaysChangeState : Prop :=
  (∀ (b : Fin 4) (m : Option ModIn) (s : State), s.fld TND_STATE_PRSNT b = 0 → (s.bay b).own = [] → ((s.bay b).acc.filter (·.sent)).length < 1024 → s.bayState b ∈ [0, 4] →
    ∃ t q, exec (.presenceSettled b true m) s = .next t ∧ t.fld TND_STATE_PRSNT b = 1 ∧ t.bayState b = (if s.bayState b = 0 then 1 else 7) ∧ (t.bay b).toMod = [q] ∧ q.typ = 3 ∧
      (t.bay b).modl.present = true ∧ (∀ a ∈ (s.bay b).acc, a ∈ (t.bay b).acc) ∧ (m = none → t.media = s.media) ∧
      (∀ n, m = some n → (t.bay b).modl.serial = n.serial ∧ (t.bay b).modl.written = n.written ∧ (t.bay b).modl.spare = n.spare ∧
        (n.media = [] → n.serial = (s.bay b).modl.serial → t.media = s.media) ∧
        (n.media = [] → n.serial ≠ (s.bay b).modl.serial → ∀ a, memByte t.media a = if a / 2 ^ 43 = b then 0 else memByte s.media a) ∧
        (∀ a v, n.media = [(a, v)] → memByte t.media (mediaKey b a) = v.toNat)) ∧
      OnlyFields [(TND_STATE_PRSNT, b, 0), (TND_STATE_STATE, b, 0)] { s with bays := t.bays, media := t.media } t) ∧
  (∀ (b : Fin 4) (m : Option ModIn) (s : State), s.fld TND_STATE_PRSNT b = 1 →
    ((s.bay b).maintKind = 0 → s.bayState b ∈ [3, 5, 7] → ∃ t, exec (.presenceSettled b false m) s = .next t ∧ t.fld TND_STATE_PRSNT b = 0 ∧ t.bayState b = 4 ∧
      t.fld TND_EVENT_REMOVED b = 1 ∧ (t.bay b).toMod = [] ∧ (t.bay b).toDev = [] ∧ (t.bay b).modl.present = false ∧
      (t.bay b).acc.map (·.req) = ((s.bay b).acc.filter (fun a => a.group != 0)).map (·.req) ∧ (∀ a ∈ (t.bay b).acc, a.sent = false) ∧
      t.fld TND_HELD_COUNT b = (t.bay b).acc.length % 2 ^ TND_HELD_COUNT.w ∧ (t.bay b).reqList = (s.bay b).reqList ∧ SameMemories s t) ∧
    ((s.bay b).maintKind = 0 → s.bayState b ∈ [1, 2, 6] → ∃ t, exec (.presenceSettled b false m) s = .next t ∧ t.fld TND_STATE_PRSNT b = 0 ∧ t.bayState b = 0 ∧
      OnlyFields [(TND_STATE_PRSNT, b, 0), (TND_STATE_STATE, b, 0), (TND_CTL_ATTACH, b, 0)] { s with bays := t.bays } t) ∧
    ((s.bay b).maintKind ≠ 0 → s.bayState b ∈ [3, 5] → ∃ t, exec (.presenceSettled b false m) s = .next t ∧ t.bayState b = 4 ∧ t.fld TND_MAINT_BUSY b = 0 ∧
      t.fld TND_EVENT_MAINT b = 1 ∧ (t.bay b).maintKind = 0 ∧ SameMemories s t)) ∧
  (∀ (b : Fin 4) (present : Bool) (m : Option ModIn) (s : State), present = s.flag TND_STATE_PRSNT b → exec (.presenceSettled b present m) s = .next s) ∧
  (∀ (b : Fin 4) (s : State),
    (s.fld TND_STATE_PRSNT b = 1 → s.bayState b ≠ 0 → s.bayState b ≠ 6 → ∃ t, exec (.tenderLockLost b) s = .next t ∧ t.bay b = { s.bay b with lockWait := true } ∧
      t = { s with bays := t.bays }) ∧
    (s.fld TND_STATE_PRSNT b ≠ 1 ∨ s.bayState b = 0 ∨ s.bayState b = 6 → exec (.tenderLockLost b) s = .next s) ∧
    ((s.bay b).lockWait = true → ∃ t, exec (.lockLossTimeout b) s = .next t ∧ t.bayState b = 6 ∧ t.fld TND_EVENT_FAILED b = 1 ∧ SameMemories s t) ∧
    ((s.bay b).lockWait = false → exec (.lockLossTimeout b) s = .next s) ∧
    (s.bayState b = 7 → ∃ t, exec (.recheckTimeout b) s = .next t ∧ t.bayState b = 6 ∧ t.fld TND_EVENT_FAILED b = 1 ∧ SameMemories s t) ∧
    (s.bayState b ≠ 7 → exec (.recheckTimeout b) s = .next s) ∧
    (s.bayState b = 4 → ∃ t, exec (.holdRetryExpiry b) s = .next t ∧ t.bayState b = 0 ∧ t.fld TND_EVENT_EXPIRED b = 1 ∧ t.fld TND_HELD_COUNT b = 0 ∧ SameMemories s t) ∧
    (s.bayState b ≠ 4 → exec (.holdRetryExpiry b) s = .next s)) ∧
  (∀ (b : Fin 4) (s : State), Hits TND_CTL_ATTACH b 0 s →
    (s.bayState b = 2 → (s.bay b).attachPending = false → (s.bay b).own = [] → (s.bay b).acc.length < 1024 → ∃ t q, exec (.tenderAttach b) s = .next t ∧
      (t.bay b).toMod = (s.bay b).toMod ++ [q] ∧ q.typ = 4 ∧ q.data.length = 16 ∧ crcGood q.data = true ∧ leNat (q.data.take 8) = Config.serial % 2 ^ 64 ∧
      (∀ d c, (s.bay b).sealRec = some (d, c) → leNat ((q.data.drop 8).take 4) = (c + 1) % 2 ^ 32) ∧ t.fld TND_CTL_ATTACH b = 1 ∧ (t.bay b).attachPending = true ∧
      OnlyFields [(TND_CTL_ATTACH, b, 0)] { s with bays := t.bays, freeIx := t.freeIx } t) ∧
    (s.bayState b ≠ 2 ∨ (s.bay b).attachPending = true → exec (.tenderAttach b) s = .next s)) ∧
  (∀ (b : Fin 4) (s : State), Hits TND_CTL_DETACH b 0 s →
    (s.bayState b ∈ [3, 5] → (s.bay b).reqList = [] → ∃ t, exec (.tenderDetach b) s = .next t ∧ t.bayState b = 2 ∧ t.fld TND_EVENT_NEWMOD b = 1 ∧ t.fld TND_CTL_DETACH b = 0 ∧
      (t.bay b).detaching = false ∧ SameMemories s t) ∧
    (s.bayState b ∈ [3, 5] → (s.bay b).reqList ≠ [] → ∃ t, exec (.tenderDetach b) s = .next t ∧ t.fld TND_CTL_DETACH b = 1 ∧ t.bay b = { s.bay b with detaching := true } ∧
      OnlyFields [(TND_CTL_DETACH, b, 0)] { s with bays := t.bays } t) ∧
    (s.bayState b ∉ [3, 5] → exec (.tenderDetach b) s = .next s)) ∧
  (∀ (b : Fin 4) (k : Nat) (s : State), Hits TND_MAINT_START b 0 s → k = s.fld TND_MAINT_KIND b →
    (s.bayState b ∉ [3, 5] ∨ s.fld TND_MAINT_BUSY b = 1 ∨ k = 0 ∨ k = 3 ∨ (k = 2 ∧ s.bayState b = 5) → ∃ t, exec (.tenderMaintStart b) s = .next t ∧
      t.fld TND_MAINT_ERR b = 1 ∧ OnlyFields [(TND_MAINT_ERR, b, 0)] s t) ∧
    (s.bayState b ∈ [3, 5] → s.fld TND_MAINT_BUSY b ≠ 1 → k ∈ [1, 2] → ¬ (k = 2 ∧ s.bayState b = 5) → (s.bay b).own = [] → (s.bay b).acc.length < 1024 →
      ∃ t q, exec (.tenderMaintStart b) s = .next t ∧ t.fld TND_MAINT_BUSY b = 1 ∧
      (t.bay b).toMod = (s.bay b).toMod ++ [q] ∧ q.typ = 6 ∧ q.addr = k ∧ (t.bay b).maintKind = k ∧ OnlyFields [(TND_MAINT_BUSY, b, 0)] { s with bays := t.bays } t)) ∧
  (∀ (b : Fin 4) (s : State), Hits TND_MAINT_STOP b 0 s →
    (s.fld TND_MAINT_BUSY b = 1 → (s.bay b).maintKind ≠ 0 → (s.bay b).own = [] → (s.bay b).acc.length < 1024 → ∃ t q, exec (.tenderMaintStop b) s = .next t ∧
      t.fld TND_MAINT_STOP b = 1 ∧ (t.bay b).toMod = (s.bay b).toMod ++ [q] ∧ q.typ = 6 ∧ q.addr = 3 ∧ OnlyFields [(TND_MAINT_STOP, b, 0)] { s with bays := t.bays } t) ∧
    (s.fld TND_MAINT_BUSY b ≠ 1 → exec (.tenderMaintStop b) s = .next s)) ∧
  ∀ (b : Fin 4) (s : State), ((s.bay b).maintKind ≠ 0 → (s.bay b).own = [] → (s.bay b).acc.length < 1024 → ∃ t q, exec (.tenderMaintLimit b) s = .next t ∧
      (t.bay b).toMod = (s.bay b).toMod ++ [q] ∧ q.typ = 6 ∧ q.addr = 3 ∧ t = { s with bays := t.bays }) ∧
    ((s.bay b).maintKind = 0 → exec (.tenderMaintLimit b) s = .next s)

/-- A clock edge loads flip-flops, shift registers and pads; ports take whole packets; scrub counts; delay lines step; the release goes through its stages (R476, R477, R479, R486, R491, R493, R494, R495, R497, R498, R502, 12_fabric.md). -/
def Obligations.FabricClocksPortsScrubAndRelease : Prop :=
  (∀ (c : Car) (n : Fin 8) (rising : Bool) (pins : BitVec 24) (ready : BitVec 16) (s : State),
    (s.fld FAB_CLKCFG_EN c n ≠ 1 ∨ s.fld FAB_CLKCFG_RUNNING c n ≠ 1 ∨ s.netStill c = true → exec (.fabricClockEdge c n rising pins ready) s = .next s) ∧
    (s.fld FAB_CLKCFG_EN c n = 1 → s.fld FAB_CLKCFG_RUNNING c n = 1 → s.netStill c = false → ∃ t, exec (.fabricClockEdge c n rising pins ready) s = .next t ∧
      (∀ i : Fin 24, t.fld IOB_PIN_LEVEL c i = b2n (pins.getLsbD i)) ∧
      (∀ (pos k : Nat) (cart : CartCfg) (x : CellCfg), (s.fabS c).cfg.carts = [(pos, cart)] → cart.cells = [(k, x)] → s.fld FAB_STATE_STAGE c = 3 → x.ffA.useRst = false → x.ffA.src = 3 →
        (t.fabS c).ffVal (pos * 16 + k) 0 x.ffA =
          if rising = true ∧ cart.clk = n.val ∧ (s.fabS c).net pos x.ce = true then (s.fabS c).net pos x.ffA.direct else (s.fabS c).ffVal (pos * 16 + k) 0 x.ffA) ∧
      (∀ (pos k : Nat) (cart : CartCfg) (x : CellCfg), (s.fabS c).cfg.carts = [(pos, cart)] → cart.cells = [(k, x)] → s.fld FAB_STATE_STAGE c = 3 → x.use = 1 →
        (t.fabS c).lutBits (pos * 16 + k) x =
          if rising = true ∧ cart.clk = n.val ∧ (s.fabS c).net pos x.ce = true then
            ((s.fabS c).lutBits (pos * 16 + k) x * 2 + b2n ((s.fabS c).net pos x.di)) % 2 ^ 64 else (s.fabS c).lutBits (pos * 16 + k) x) ∧
      (∀ i : Fin 24, rising = true → s.fld IOB_CFG_CLK c i = n.val → s.fld IOB_CFG_DDR c i ≠ 1 → (s.fabS c).dead = false → (s.fabS c).latched = [] →
        mget 0 (t.fabS c).due (i.val * 2) = b2n (pins.getLsbD i) ∧
        mget 0 (t.fabS c).inp (i.val * 2) = if s.lockRun = true then mget 0 (s.fabS c).inp (i.val * 2) else b2n (pins.getLsbD i)) ∧
      (∀ p : Fin 16, rising = true → s.fld FAB_PORTCTL_CLK c p = n.val → mget 0 (t.fabS c).took p = 0 ∧
        mget [] (t.fabS c).toFab p = (mget [] (s.fabS c).toFab p).drop (b2n (ready.getLsbD p))) ∧
      t = { s with fields := t.fields, out := t.out, fab := t.fab } ∧ (∀ d, d ≠ c.val → t.fabS d = s.fabS d) ∧
      SameFields ((List.range 24).map (fun i => (IOB_PIN_LEVEL, c.val, i)) ++ (List.range 24).map (fun i => (IOB_PIN_DRIVEN, c.val, i))) s t)) ∧
  (∀ (c : Car) (n : Fin 16) (f : FabFlit) (s : State), (s.portOpen c n = true ↔ s.fld FAB_PORTCTX_BOUND c n = 1 ∧ s.fld FAB_STATE_STAGE c = 3 ∧ s.stoppedAt 5 c = false ∧
      s.fclkRuns c (s.fld FAB_PORTCTL_CLK c n) = true ∧ mget 0 (s.fabS c).took n = 0 ∧ (s.fabS c).heldFlits n < 16) ∧
    (s.portOpen c n = false → exec (.fabricPortFlit c n f) s = .next s)) ∧
  (∀ (c : Car) (n : Fin 16) (p : PktIn) (rse : Fin 256) (s : State), s.portOpen c n = true →
    (p.vn.val = 2 → p.data.length < p.aux % 1024 → p.data.length ≤ 96 → ∃ t x, exec (.fabricPortFlit c n (.head p rse)) s = .next t ∧ t = { s with fab := t.fab } ∧
      mget none (t.fabS c).taking n = some x ∧ x.need = p.aux % 1024 ∧ x.pkt.data = p.data.map BitVec.toNat ∧ x.pkt.ctx = s.fld FAB_PORTCTX_CONTEXT c n ∧
      mget 0 (t.fabS c).took n = 1 ∧ mget [] (t.fabS c).sendQ n = mget [] (s.fabS c).sendQ n) ∧
    (∀ data, mget none (s.fabS c).taking n = none → exec (.fabricPortFlit c n (.body data)) s = .next s) ∧
    (∀ data x, mget none (s.fabS c).taking n = some x → data.length ≤ 128 → x.pkt.data.length + data.length < x.need → ∃ t, exec (.fabricPortFlit c n (.body data)) s = .next t ∧
      t = { s with fab := t.fab } ∧ mget none (t.fabS c).taking n = some { x with pkt := { x.pkt with data := x.pkt.data ++ data.map BitVec.toNat } }) ∧
    (p.vn.val = 0 → p.op = 1 → mget [] (s.fabS c).sendQ n = [] → ∃ (t s1 : State) (k : Packet), exec (.fabricPortFlit c n (.head p rse)) s = .next t ∧ t = s1.niSend (portUnit c n) rse k ∧
      k.vn = 0 ∧ k.op = 1 ∧ k.ctx = s.fld FAB_PORTCTX_CONTEXT c n ∧ k.src = portUnit c n ∧ k.addr = p.addr ∧ k.tag = p.tag ∧ k.data = [] ∧
      (mget [] (s1.fabS c).owed n).map (·.tag) = (mget [] (s.fabS c).owed n).map (·.tag) ++ [p.tag] ∧ mget [] (s1.fabS c).sendQ n = [] ∧ mget none (s1.fabS c).taking n = none ∧
      s1 = { s with fab := s1.fab })) ∧
  (∀ (c : Car) (s : State), Hits FAB_SCRUB_START c 0 s → (s.fld FAB_SCRUB_BUSY c = 1 → exec (.fabricScrubStart c) s = .next s) ∧
    (s.fld FAB_SCRUB_BUSY c ≠ 1 → ∃ t, exec (.fabricScrubStart c) s = .next t ∧ t.fld FAB_SCRUB_BUSY c = 1 ∧ t.fld FAB_SCRUB_START c = 0 ∧
      OnlyFields [(FAB_SCRUB_BUSY, c, 0), (FAB_SCRUB_START, c, 0)] s t)) ∧
  (∀ (c : Car) (fixed : Nat) (bad : List (Fin 40960)) (s : State), s.fld FAB_SCRUB_BUSY c ≠ 1 → exec (.fabricScrubDone c fixed bad) s = .next s) ∧
  (∀ (c : Car) (fixed : Nat) (bad : List (Fin 40960)) (s : State), s.fld FAB_SCRUB_BUSY c = 1 → ∃ t, exec (.fabricScrubDone c fixed bad) s = .next t ∧
    t.fld FAB_SCRUB_BUSY c = 0 ∧ t.fld FAB_SCRUBCE_COUNT c = min (2 ^ FAB_SCRUBCE_COUNT.w - 1) (s.fld FAB_SCRUBCE_COUNT c + fixed) ∧
    t.fld FAB_SCRUBUE_COUNT c = min (2 ^ FAB_SCRUBUE_COUNT.w - 1) (s.fld FAB_SCRUBUE_COUNT c + bad.length) ∧
    (∃ l, t.reports = s.reports ++ l ∧ l.map (·.data) = bad.map (·.val) ∧ ∀ r ∈ l, r.cause = 0x31 ∧ r.target = c) ∧
    OnlyFields [(FAB_SCRUB_BUSY, c, 0), (FAB_SCRUBCE_COUNT, c, 0), (FAB_SCRUBUE_COUNT, c, 0)] { s with reports := t.reports } t) ∧
  (∀ (c : Car) (n : Fin 8) (s : State), (s.fld FAB_CLKCFG_EN c n = 1 → s.netStill c = false → ∃ t, exec (.fabricClockRestart c n) s = .next t ∧
      t.fld FAB_CLKCFG_RUNNING c n = 1 ∧ OnlyFields [(FAB_CLKCFG_RUNNING, c, n)] s t) ∧
    (s.fld FAB_CLKCFG_EN c n ≠ 1 ∨ s.netStill c = true → exec (.fabricClockRestart c n) s = .next s)) ∧
  (∀ (c : Car) (n : Fin 24) (v : Fin 512) (s : State),
    (Hits IOB_DLY_TARGET c n s → ∃ t, exec (.ioDelayTarget c n v) s = .next t ∧ t.fld IOB_DLY_TARGET c n = v ∧ OnlyFields [(IOB_DLY_TARGET, c, n)] s t) ∧
    (s.netStill c = true → exec (.ioDelayStep c n) s = .next s) ∧
    (s.netStill c = false → ∃ t, exec (.ioDelayStep c n) s = .next t ∧ OnlyFields [(IOB_DLY_CURRENT, c, n)] s t ∧
      (s.fld IOB_DLY_CURRENT c n < s.fld IOB_DLY_TARGET c n → s.fld IOB_DLY_TARGET c n < 512 → t.fld IOB_DLY_CURRENT c n = s.fld IOB_DLY_CURRENT c n + 1) ∧
      (s.fld IOB_DLY_TARGET c n < s.fld IOB_DLY_CURRENT c n → s.fld IOB_DLY_CURRENT c n < 512 → t.fld IOB_DLY_CURRENT c n + 1 = s.fld IOB_DLY_CURRENT c n) ∧
      (s.fld IOB_DLY_TARGET c n = s.fld IOB_DLY_CURRENT c n → s.fld IOB_DLY_CURRENT c n < 512 → t.fld IOB_DLY_CURRENT c n = s.fld IOB_DLY_CURRENT c n))) ∧
  (∀ (c : Car) (s : State),
    ((s.fabS c).release = false ∨ s.fld FAB_STATE_STAGE c ≠ 0 ∨ s.fld FAB_STATE_LOADED c ≠ 1 ∨ (∃ n, n < 8 ∧ s.fld FAB_CLKCFG_EN c n = 1 ∧ s.fld FAB_CLKCFG_RUNNING c n ≠ 1) →
      exec (.releaseStart c) s = .next s) ∧
    (s.fld FAB_STATE_STAGE c = 0 → s.fld FAB_STATE_LOADED c = 1 → (s.fabS c).release = true → (∀ n, n < 8 → s.fld FAB_CLKCFG_EN c n = 1 → s.fld FAB_CLKCFG_RUNNING c n = 1) →
      ∃ t, exec (.releaseStart c) s = .next t ∧ t.fld FAB_STATE_STAGE c = 1 ∧ (t.fabS c).release = false ∧
        ((s.fabS c).latched = [] → (s.fabS c).outR = [] → (s.fabS c).oeR = [] → (s.fabS c).dead = false → ∀ i, i < 24 → t.fld IOB_PIN_DRIVEN c i =
          b2n (s.fld IOB_CFG_OUT c i == 1 && (cfgAt (s.fabS c).cfg.ios i).initOe && s.fld IOB_BANK_VERR c != 1 &&
            !(s.fld IOB_CFG_OD c i == 1 && (cfgAt (s.fabS c).cfg.ios i).initOut))) ∧
        t = { s with fields := t.fields, out := t.out, fab := t.fab } ∧
        SameFields ((FAB_STATE_STAGE, c.val, 0) :: ((List.range 24).map (fun i => (IOB_PIN_HELD, c.val, i)) ++ (List.range 24).map (fun i => (IOB_PIN_DRIVEN, c.val, i)))) s t) ∧
    (s.fld FAB_STATE_STAGE c = 1 → ∃ t, exec (.releaseStageAdvance c) s = .next t ∧ t.fld FAB_STATE_STAGE c = 2 ∧ OnlyFields [(FAB_STATE_STAGE, c, 0)] s t) ∧
    (s.fld FAB_STATE_STAGE c = 2 → ∃ t, exec (.releaseStageAdvance c) s = .next t ∧ t.fld FAB_STATE_STAGE c = 3 ∧ SameMemories s t ∧
      (s.fld CFG_STATE_STATE 0 = 4 → (∀ d, d < 4 → d ≠ c.val → s.fld FAB_STATE_STAGE d = 3) → t.fld CFG_STATE_STATE 0 = 5 ∧ t.fld CFG_STATE_CODE 0 = 0 ∧ t.fld CFG_STATE_EVENT 0 = 1 ∧
        .pin "CFG_DONE" 1 ∈ t.out) ∧
      (s.fld CFG_STATE_STATE 0 ≠ 4 ∨ (∃ d, d < 4 ∧ d ≠ c.val ∧ s.fld FAB_STATE_STAGE d ≠ 3) → OnlyFields [(FAB_STATE_STAGE, c, 0)] s t)) ∧
    (s.fld FAB_STATE_STAGE c ∉ [1, 2] → exec (.releaseStageAdvance c) s = .next s))

/-- A load starts only on an unbound device, each part of the image is checked before it acts, any failure clears the configuration; the key RAM obeys its lock (R508, R510, R515, R522, R523, R525, R526, R527, R528, R531, R532, 13_consist_loading.md). -/
def Obligations.ImagesAreCheckedAsTheyLoad : Prop :=
  (∀ s : State, (Hits CFG_CTL_START 0 0 s → s.fld CFG_STATE_STATE 0 ∈ [0, 5, 6] → s.anyBound = false → s.fld CFG_CTL_SRC 0 = 1 → s.bayState (s.fld CFG_CTL_UNIT 0) ∉ [2, 3, 5] →
      ∃ t, exec .loadStart s = .next t ∧ LoadFailed 8 0xFFFF s t) ∧
    (Hits CFG_CTL_START 0 0 s → s.fld CFG_STATE_STATE 0 ∈ [0, 5, 6] → s.anyBound = false → s.fld CFG_CTL_SRC 0 < 4 →
      s.fld CFG_CTL_SRC 0 ≠ 1 ∨ s.bayState (s.fld CFG_CTL_UNIT 0) ∈ [2, 3, 5] → ∃ t, exec .loadStart s = .next t ∧
      t.fld CFG_STATE_STATE 0 = (if s.fld CFG_CTL_SRC 0 = 3 then 1 else 2) ∧ t.fld CFG_STATE_SRC 0 = s.fld CFG_CTL_SRC 0 ∧ t.fld CFG_BYTES_BYTES 0 = 0 ∧ t.fld CFG_CTL_START 0 = 0 ∧
      t.fld CFG_IMGID_IMGID 0 = 0 ∧ .pin "CFG_DONE" 0 ∈ t.out ∧ .pin "CFG_ERR_N" 1 ∈ t.out ∧ (s.fld CFG_CTL_SRC 0 = 2 → .pin "CFG_CS_N" 0 ∈ t.out) ∧ t.load = {} ∧ t.seqMem = [] ∧ t.net.sheet = [] ∧
      (∀ c, c < 4 → t.fld FAB_STATE_STAGE c = 0 ∧ t.fld FAB_STATE_LOADED c = 0 ∧ (t.fabS c).frames = [] ∧ (t.fabS c).dead = false) ∧ SameMemories s t) ∧
    (Hits CFG_CTL_START 0 0 s → s.fld CFG_STATE_STATE 0 ∉ [0, 5, 6] ∨ s.anyBound = true → s.fld CFG_CTL_VEC 0 < 2048 → ∃ t, exec .loadStart s = .next t ∧ t.fld CFG_STATE_CODE 0 = 0xA ∧ t.fld CFG_STATE_EVENT 0 = 1 ∧ t.fld CFG_CTL_START 0 = 0 ∧
      OnlyFieldsOut [(CFG_CTL_START, 0, 0), (CFG_STATE_CODE, 0, 0), (CFG_STATE_EVENT, 0, 0)] s t) ∧
    (Hits CFG_CTL_ABORT 0 0 s → s.fld CFG_STATE_STATE 0 ∈ [1, 2, 3] → ∃ t, exec .loadAbort s = .next t ∧ LoadFailed 9 s.loadSect s t) ∧
    (Hits CFG_CTL_ABORT 0 0 s → s.fld CFG_STATE_STATE 0 ∉ [1, 2, 3] → ∃ t, exec .loadAbort s = .next t ∧ t.fld CFG_CTL_ABORT 0 = 0 ∧ OnlyFields [(CFG_CTL_ABORT, 0, 0)] s t) ∧
    (s.fld CFG_STATE_STATE 0 = 1 → s.fld CFG_STATE_SRC 0 = 2 → ∃ t, exec .flashMasterStart s = .next t ∧ t.fld CFG_STATE_STATE 0 = 2 ∧
      t.out = .serial "CFG_DQ0" ((bitList 48 0x6C0000000000).reverse) :: .pin "CFG_CS_N" 0 :: s.out ∧ OnlyFieldsOut [(CFG_STATE_STATE, 0, 0)] s t) ∧
    (s.fld CFG_STATE_STATE 0 = 1 → s.fld CFG_STATE_SRC 0 = 3 → (∃ t, exec .cfgCsFall s = .next t ∧ t.fld CFG_STATE_STATE 0 = 2 ∧ OnlyFields [(CFG_STATE_STATE, 0, 0)] s t) ∧
      ∃ t, exec .followerTimeout s = .next t ∧ LoadFailed 2 0xFFFF s t) ∧
    (s.fld CFG_STATE_STATE 0 = 2 → s.fld CFG_STATE_SRC 0 = 3 → ∃ t, exec .cfgCsRiseEarly s = .next t ∧ LoadFailed 2 s.loadSect s t) ∧
    (s.fld CFG_STATE_STATE 0 = 2 → (∃ t, exec .loadStallTimeout s = .next t ∧ LoadFailed 2 s.loadSect s t) ∧ (∃ t, exec (.loadSourceError true) s = .next t ∧ LoadFailed 2 s.loadSect s t) ∧
      ∃ t, exec (.loadSourceError false) s = .next t ∧ LoadFailed 8 0xFFFF s t) ∧
    (s.fld CFG_STATE_STATE 0 ≠ 2 → exec .loadStallTimeout s = .next s ∧ exec .cfgCsRiseEarly s = .next s ∧ ∀ r, exec (.loadSourceError r) s = .next s)) ∧
  (∀ (hdr : LoadIn) (s : State), s.fld CFG_STATE_STATE 0 ≠ 2 ∨ s.load.headed = true ∨ (s.streamBytes hdr true).length ≠ 64 → exec (.loadHeader hdr) s = .next s) ∧
  (∀ (hdr : LoadIn) (h : List Nat) (s : State), s.fld CFG_STATE_STATE 0 = 2 → s.load.headed = false → h = s.streamBytes hdr true → h.length = 64 →
    (leNat (h.take 4) ≠ 0xC0A57A9E ∨ leNat ((h.drop 0x3C).take 4) ≠ crc32c (h.take 0x3C) → ∃ t, exec (.loadHeader hdr) s = .next t ∧ LoadFailed 3 0xFFFF s t) ∧
    (s.headerCode h = 0 → ∃ t, exec (.loadHeader hdr) s = .next t ∧ t.load.headed = true ∧ t.load.pos = 64 ∧ t.load.sect = 0 ∧ t.load.device = none ∧
      t.load.nsect = leNat ((h.drop 0x0A).take 2) ∧ t.load.imgid = leNat ((h.drop 0x0C).take 4) ∧ t.load.length = leNat ((h.drop 0x10).take 8) ∧
      t.load.enc = (leNat ((h.drop 9).take 1) % 2 == 1) ∧ t.fld CFG_BYTES_BYTES 0 = 64 ∧ OnlyFields [(CFG_BYTES_BYTES, 0, 0)] { s with load := t.load } t)) ∧
  (∀ (raw : LoadIn) (b : List Nat) (n a0 a1 : Nat) (s : State), s.fld CFG_STATE_STATE 0 = 2 → s.load.headed = true → s.load.sect < s.load.nsect → s.load.enc = false → b = s.streamBytes raw false →
    16 ≤ b.length → n = leNat ((b.drop 4).take 4) → a0 = leNat ((b.drop 8).take 4) → a1 = leNat ((b.drop 12).take 4) →
    (sectionBody (leNat (b.take 1)) (leNat ((b.drop 1).take 1)) a0 a1 ≠ some n → ∃ t, exec (.loadSection raw) s = .next t ∧ LoadFailed 3 s.load.sect s t) ∧
    (sectionBody (leNat (b.take 1)) (leNat ((b.drop 1).take 1)) a0 a1 = some n → s.load.pos + 16 + n + 16 ≤ s.load.length → b.length = 16 + n → leNat (b.take 1) = 5 →
      (leNat ((b.drop 2).take 2) = 0xFFFF → s.load.device.isSome = true → ∃ t k, exec (.loadSection raw) s = .next t ∧ ordinalOf (a0 % 128) = some k ∧
        (∀ i, i < a1 → mget 0 t.seqMem (k * 1024 + (bitsOf a0 16 10 + i)) = leNat ((b.drop (16 + 16 * i)).take 16)) ∧
        (∀ x, x < k * 1024 + bitsOf a0 16 10 ∨ k * 1024 + bitsOf a0 16 10 + a1 ≤ x → mget 0 t.seqMem x = mget 0 s.seqMem x) ∧
        t.load.sect = s.load.sect + 1 ∧ t.load.pos = s.load.pos + 16 + n ∧ t.load.plain = s.load.plain ++ b ∧
        OnlyFields [(CFG_BYTES_BYTES, 0, 0)] { s with load := t.load, seqMem := t.seqMem } t) ∧
      (leNat ((b.drop 2).take 2) ≠ 0xFFFF → leNat ((b.drop 2).take 2) ≠ s.fld CFG_SLOT_SLOT 0 → ∃ t, exec (.loadSection raw) s = .next t ∧ t.load.sect = s.load.sect + 1 ∧
        t.load.pos = s.load.pos + 16 + n ∧ t.load.plain = s.load.plain ++ b ∧ OnlyFields [(CFG_BYTES_BYTES, 0, 0)] { s with load := t.load } t))) ∧
  (∀ (raw tag : LoadIn) (s : State), s.fld CFG_STATE_STATE 0 = 2 → s.load.headed = true → s.load.sect = s.load.nsect → s.load.enc = true → s.load.device.isSome = true →
    (s.streamBytes raw false).length = 16 → (s.streamBytes tag false).length = 16 → s.load.pos + 32 = s.load.length →
    Config.gcmTag s.loadKey s.load.iv s.load.header (s.load.cipher ++ s.streamBytes raw false) ≠ leNat (s.streamBytes tag false) →
    ∃ t, exec (.loadTrailer raw tag) s = .next t ∧ LoadFailed 4 0xFFFF s t) ∧
  (∀ (raw tag : LoadIn) (b : List Nat) (ilv cpl : Bool) (pm : Nat) (s : State), s.fld CFG_STATE_STATE 0 = 2 → s.load.headed = true → s.load.sect = s.load.nsect → s.load.enc = false →
    b = s.streamBytes raw false → b.length = 16 → s.load.device = some (ilv, cpl, pm) → s.load.pos + 16 = s.load.length →
    (leNat (b.take 4) = 0x5E1DC0A5 → leNat ((b.drop 4).take 2) = s.load.nsect → leNat ((b.drop 6).take 6) = 0 → leNat ((b.drop 12).take 4) = crc32c (s.load.plain ++ b.take 12) →
      ∃ t, exec (.loadTrailer raw tag) s = .next t ∧ t.fld CFG_STATE_STATE 0 = 4 ∧ t.fld CFG_IMGID_IMGID 0 = s.load.imgid % 2 ^ CFG_IMGID_IMGID.w ∧
        t.fld CFG_PARTMAP_PARTMAP 0 = pm % 2 ^ CFG_PARTMAP_PARTMAP.w ∧ t.couplerAside = cpl ∧ t.keptRegs = s.load.regs ∧ (∀ n, n < 8 → t.hfld HBM_CTL_ILV n = b2n ilv) ∧
        (∀ c, c < 4 → t.fld FAB_STATE_LOADED c = 1 ∧ (t.fabS c).release = true ∧ (t.fabS c).cfg = Config.fabric (s.fabS c).frames) ∧ SameMemories s t) ∧
    (leNat ((b.drop 12).take 4) ≠ crc32c (s.load.plain ++ b.take 12) → ∃ t, exec (.loadTrailer raw tag) s = .next t ∧ LoadFailed 5 0xFFFF s t)) ∧
  ∀ s : State, (Hits KEY_CTL_RAMLOCK 0 0 s → ∃ t, exec .keyRamLock s = .next t ∧ t.fld KEY_CTL_RAMLOCK 0 = 1 ∧ OnlyFields [(KEY_CTL_RAMLOCK, 0, 0)] s t) ∧
    (s.fld KEY_CTL_RAMLOCK 0 ≠ 1 → s.fld CFG_STATE_STATE 0 ∉ [2, 3] →
      (Hits KEY_CTL_RAMCOMMIT 0 0 s → ∃ t, exec .keyRamCommit s = .next t ∧ t.keyRam = ((List.range 8).map (fun i => s.fld KEY_RAMDATA_DATA 0 i * 2 ^ (32 * i))).sum ∧ t.fld KEY_STATUS_RAMVALID 0 = 1 ∧
        t.fld KEY_CTL_RAMCOMMIT 0 = 0 ∧ (∀ i, i < 8 → t.fld KEY_RAMDATA_DATA 0 i = 0) ∧
        OnlyFields ([(KEY_STATUS_RAMVALID, 0, 0), (KEY_CTL_RAMCOMMIT, 0, 0)] ++ (List.range 8).map (fun i => (KEY_RAMDATA_DATA, 0, i))) { s with keyRam := t.keyRam } t) ∧
      (Hits KEY_CTL_RAMCLEAR 0 0 s → ∃ t, exec .keyRamClear s = .next t ∧ t.keyRam = 0 ∧ t.fld KEY_STATUS_RAMVALID 0 = 0 ∧ t.fld KEY_CTL_RAMCLEAR 0 = 0 ∧
        OnlyFields [(KEY_STATUS_RAMVALID, 0, 0), (KEY_CTL_RAMCLEAR, 0, 0)] { s with keyRam := 0 } t)) ∧
    (s.fld KEY_CTL_RAMLOCK 0 = 1 ∨ s.fld CFG_STATE_STATE 0 ∈ [2, 3] → (Hits KEY_CTL_RAMCOMMIT 0 0 s → exec .keyRamCommit s = .next s) ∧
      (Hits KEY_CTL_RAMCLEAR 0 0 s → exec .keyRamClear s = .next s)) ∧
    ∃ t, exec .vbatLow s = .next t ∧ t.keyRam = 0 ∧ t.fld KEY_STATUS_RAMVALID 0 = 0 ∧ t.fld KEY_STATUS_VBATOK 0 = 0 ∧
      OnlyFields [(KEY_STATUS_RAMVALID, 0, 0), (KEY_STATUS_VBATOK, 0, 0)] { s with keyRam := 0 } t

/-- Admin commands are taken in turn and answered; contexts are created, braked, destroyed; routes, VF pages and host cores are set as they say (R551, R569, R602, R607, R610, R538, R539, R546, R572, Table 14.12, 14_host_cores_and_queues.md). -/
def Obligations.AdminCommandsMakeAndEndContexts : Prop :=
  (∀ (p : Fin 4) (v : BitVec 12) (s : State), Hits QUE_ADMTAIL_INDEX p 0 s →
    (s.fld QUE_ADMCFG_EN p = 1 → v.toNat < 2 ^ (s.admS p).log2 → ∃ t, exec (.adminTailWrite p v) s = .next t ∧ t.admS p = { s.admS p with tail := v.toNat } ∧
      t.fld QUE_ADMTAIL_INDEX p = v.toNat ∧ (∀ q, q ≠ p.val → t.admS q = s.admS q) ∧ OnlyFields [(QUE_ADMTAIL_INDEX, p, 0)] { s with adm := t.adm } t) ∧
    (s.fld QUE_ADMCFG_EN p ≠ 1 → ∃ t, exec (.adminTailWrite p v) s = .next t ∧ t.fld QUE_ADMTAIL_INDEX p = v.toNat ∧ OnlyFields [(QUE_ADMTAIL_INDEX, p, 0)] s t)) ∧
  (∀ (p : Fin 4) (opc : Nat) (cmd : List Byte) (b : List Nat) (s : State), AdmReady p opc cmd b s →
    (opc = 0 ∨ 9 < opc → ∃ t, exec (.brake p cmd) s = .next t ∧ AdmAnswered p b 7 s t ∧ t.ctxs = s.ctxs ∧ t.fields = s.fields) ∧
    (0 < opc → opc < 9 → exec (.brake p cmd) s = .next s) ∧
    (∀ (desc : Option (List Byte)) (qtab : List Byte), opc = 1 →
      ((s.ctx (admCtx b)).state ≠ 0 → ∃ t, exec (.ctxCreate p cmd desc qtab) s = .next t ∧ AdmAnswered p b 8 s t ∧ t.ctxs = s.ctxs) ∧
      ((s.ctx (admCtx b)).state = 0 → desc = none → ∃ t, exec (.ctxCreate p cmd desc qtab) s = .next t ∧ AdmAnswered p b 0xD s t ∧ t.ctxs = s.ctxs) ∧
      (∀ (d : List Byte) (e : List Nat), (s.ctx (admCtx b)).state = 0 → desc = some d → d.length = 64 → e = d.map BitVec.toNat →
        (badDescriptor e = true → ∃ t, exec (.ctxCreate p cmd desc qtab) s = .next t ∧ AdmAnswered p b 7 s t ∧ t.ctxs = s.ctxs) ∧
        (badDescriptor e = false → ∃ t, exec (.ctxCreate p cmd desc qtab) s = .next t ∧ AdmAnswered p b 0 s t ∧ (t.ctx (admCtx b)).state = 1 ∧
          (t.ctx (admCtx b)).root = leNat (e.take 8) ∧ (t.ctx (admCtx b)).port = bitsOf (admArg e 8 2) 9 2 ∧ (t.ctx (admCtx b)).vf = admArg e 8 1 ∧
          (t.ctx (admCtx b)).evtRing = admArg e 0x18 8 ∧ (t.ctx (admCtx b)).qtable = admArg e 0x10 8 ∧ (t.ctx (admCtx b)).evtTail = 0 ∧
          ∀ m, m ≠ admCtx b → t.ctx m = s.ctx m))) ∧
    (opc = 2 → s.liveOrStopped (admCtx b) = true → ∃ t, exec (.ctxDestroy p cmd) s = .next t ∧ Braked (admCtx b) 2 s t ∧ (t.ctx (admCtx b)).toFree = true ∧
      t.admBusy = some { port := p, opc := 2, ctx := admCtx b, tag := admArg b 8 8 }) ∧
    (opc = 2 → s.liveOrStopped (admCtx b) = false → ∃ t, exec (.ctxDestroy p cmd) s = .next t ∧ AdmAnswered p b 8 s t ∧ t.ctxs = s.ctxs) ∧
    (opc = 9 → s.liveOrStopped (admCtx b) = true → ∃ t, exec (.brake p cmd) s = .next t ∧ Braked (admCtx b) 1 s t ∧ (t.ctx (admCtx b)).toFree = (s.ctx (admCtx b)).toFree ∧
      t.admBusy = some { port := p, opc := 9, ctx := admCtx b, tag := admArg b 8 8 }) ∧
    (opc = 6 → s.liveOrStopped (admCtx b) = true → admArg b 0x10 2 < 1024 →
      (s.routeInPart (admCtx b) (admArg b 0x28 4) (admArg b 0x2C 4) = false → ∃ t, exec (.routeWrite p cmd) s = .next t ∧ AdmAnswered p b 9 s t ∧ t.net = s.net) ∧
      (∀ w3, w3 = admArg b 0x2C 4 - bitsOf (admArg b 0x2C 4) 29 1 * 2 ^ 29 + admArg b 0x13 1 % 2 * 2 ^ 29 → s.routeInPart (admCtx b) (admArg b 0x28 4) (admArg b 0x2C 4) = true →
        (routeReason s.couplerAside (admArg b 0x10 2) (admArg b 0x20 4) (admArg b 0x24 4) (admArg b 0x28 4) w3 ≠ 0 →
          ∃ t, exec (.routeWrite p cmd) s = .next t ∧ AdmAnswered p b 0xB s t ∧ t.net = s.net) ∧
        (routeReason s.couplerAside (admArg b 0x10 2) (admArg b 0x20 4) (admArg b 0x24 4) (admArg b 0x28 4) w3 = 0 → s.entryFrozen (admArg b 0x10 2) (admArg b 0x12 1) = false →
          ∃ t, exec (.routeWrite p cmd) s = .next t ∧ AdmAnswered p b 0 s t ∧ t.sheetWord (admArg b 0x10 2) (admArg b 0x12 1) 0 = admArg b 0x20 4 % 2 ^ 30 ∧
            t.sheetWord (admArg b 0x10 2) (admArg b 0x12 1) 1 = admArg b 0x24 4 % 2 ^ 30 ∧ t.sheetWord (admArg b 0x10 2) (admArg b 0x12 1) 2 = admArg b 0x28 4 % 2 ^ 27 ∧
            t.sheetWord (admArg b 0x10 2) (admArg b 0x12 1) 3 = w3 % 2 ^ 10 + bitsOf w3 31 1 * 2 ^ 31))) ∧
    (∀ (v i n : Nat), opc = 7 → v = admArg b 0x10 1 → i = admArg b 0x11 1 → n = admArg b 0x12 2 →
      (16 ≤ i → ∃ t, exec (.vfMap p cmd) s = .next t ∧ AdmAnswered p b 7 s t ∧ t.ports = s.ports) ∧
      (i < 16 → n = 0xFFFF → ∃ t, exec (.vfMap p cmd) s = .next t ∧ AdmAnswered p b 0 s t ∧ mget 0 (t.port p).slots (v * 16 + i) = 0 ∧
        ∀ x, x ≠ v * 16 + i → mget 0 (t.port p).slots x = mget 0 (s.port p).slots x) ∧
      (i < 16 → n < 1024 → (s.ctx n).state ≠ 0 → (s.ctx n).isvf = true → (s.ctx n).vf = v → (s.ctx n).port = p.val → ∃ t, exec (.vfMap p cmd) s = .next t ∧ AdmAnswered p b 0 s t ∧
        mget 0 (t.port p).slots (v * 16 + i) = n + 1 ∧ ∀ x, x ≠ v * 16 + i → mget 0 (t.port p).slots x = mget 0 (s.port p).slots x) ∧
      (i < 16 → n < 1024 → (s.ctx n).state = 0 ∨ (s.ctx n).isvf = false ∨ (s.ctx n).vf ≠ v ∨ (s.ctx n).port ≠ p.val →
        ∃ t, exec (.vfMap p cmd) s = .next t ∧ AdmAnswered p b 7 s t ∧ t.ports = s.ports)) ∧
    (∀ c : Car, opc = 8 → c.val = admArg b 0x10 1 →
      (s.carState c = 0 → admArg b 0x11 1 < 16 → ∃ t, exec (.hclStart p cmd) s = .next t ∧ AdmAnswered p b 0 s t ∧
        t.fld HCL_RESETVEC_VEC c = admArg b 0x18 8 % 2 ^ HCL_RESETVEC_VEC.w ∧
        (∀ i, i < 4 → t.fld HCL_CTL_RUN c i = if bitsOf (admArg b 0x11 1) i 1 = 1 then 1 else s.fld HCL_CTL_RUN c i) ∧
        ∀ n, n < 4 → t.fld HCL_WIN_BASE c n = admArg b (0x20 + 8 * n) 4 % 2 ^ HCL_WIN_BASE.w ∧ t.fld HCL_WIN_SIZE c n = admArg b (0x24 + 8 * n) 4 % 2 ^ HCL_WIN_SIZE.w) ∧
      (s.carState c ≠ 0 → ∃ t, exec (.hclStart p cmd) s = .next t ∧ AdmAnswered p b 7 s t ∧ t.fields = s.fields))) ∧
  (∀ (n : Ctx) (host : List Byte) (s : State), s.withheld = false →
    ((s.ctx n).state ≠ 3 ∨ s.unitsReset n = false ∨ s.completionDue n = true → exec (.brakeDone n host) s = .next s) ∧
    ((s.ctx n).state = 3 → s.unitsReset n = true → s.completionDue n = false → ∃ t, exec (.brakeDone n host) s = .next t ∧ t.store = s.store ∧
      ((s.ctx n).toFree = true → t.ctx n = {} ∧ ∀ k : Coach, t.boundCtx k ≠ some n.val) ∧
      ((s.ctx n).toFree = false → (t.ctx n).state = 1 ∧ (t.ctx n).cause = 0 ∧ ∀ k : Coach, t.boundCtx k = s.boundCtx k) ∧
      ((s.ctx n).admEnd = true → t.admBusy = none))) ∧
  ∀ (c : Car) (i : Fin 4) (addr : BitVec 64) (write : Bool) (s : State),
    (s.fld HCL_CTL_RUN c i ≠ 1 ∨ s.hartMay c addr.toNat = true → exec (.hartAccessFault c i addr write) s = .next s) ∧
    (s.fld HCL_CTL_RUN c i = 1 → s.hartMay c addr.toNat = false →
      (s.fld HCL_ACCERR_VALID c = 1 → ∃ t, exec (.hartAccessFault c i addr write) s = .next t ∧ t.fld HCL_ACCERR_MORE c = 1 ∧ OnlyFields [(HCL_ACCERR_MORE, c, 0)] s t) ∧
      (s.fld HCL_ACCERR_VALID c ≠ 1 → ∃ t, exec (.hartAccessFault c i addr write) s = .next t ∧ t.fld HCL_ACCERR_VALID c = 1 ∧ t.fld HCL_ACCERR_MORE c = 0 ∧
        t.fld HCL_ACCERR_HART c = i ∧ t.fld HCL_ACCERR_WRITE c = b2n write ∧
        OnlyFields [(HCL_ACCERR_HART, c, 0), (HCL_ACCERR_WRITE, c, 0), (HCL_ACCERR_MORE, c, 0), (HCL_ACCERR_VALID, c, 0)] s t))

/-- CTX_BIND and CTX_UNBIND change the binding and the epoch of the units they name and of no other; CTX_MOVE carries a coach's state to another coach (R212, R356, R553, R570, R571, R670, Table 14.12, 14_host_cores_and_queues.md). -/
def Obligations.ContextsBindUnbindAndMoveUnits : Prop :=
  (∀ (p : Fin 4) (opc : Nat) (cmd : List Byte) (b : List Nat) (n : Nat) (s : State), AdmReady p opc cmd b s → n = admCtx b →
    (opc = 3 → (s.ctx n).state ≠ 1 → ∃ t, exec (.ctxBind p cmd) s = .next t ∧ AdmAnswered p b 8 s t ∧ t.fields = s.fields) ∧
    (opc = 3 → (s.ctx n).state = 1 → admArg b 0x30 1 < 4 → s.unitsOk n (admOf p b) = false → ∃ t, exec (.ctxBind p cmd) s = .next t ∧ AdmAnswered p b 9 s t ∧ t.fields = s.fields) ∧
    (opc = 3 → (s.ctx n).state = 1 → admArg b 0x30 1 < 4 → s.unitsOk n (admOf p b) = true → (∀ k : Coach, bitsOf (admArg b 0x10 12) k 1 = 1 → s.stFail k = false) →
      ∃ t, exec (.ctxBind p cmd) s = .next t ∧ AdmAnswered p b 0 s t ∧ ∀ k : Coach,
        (bitsOf (admArg b 0x10 12) k 1 = 1 → t.boundCtx k = some n ∧ (s.boundCtx k = none → t.fld COA_STATE_STATE k = 1) ∧
          (s.fld COA_ROLE_EPOCH k ≠ 0 → t.fld COA_ROLE_EPOCH k = epochAfter (s.fld COA_ROLE_EPOCH k))) ∧
        (bitsOf (admArg b 0x10 12) k 1 = 0 → t.boundCtx k = s.boundCtx k ∧ t.fld COA_ROLE_EPOCH k = s.fld COA_ROLE_EPOCH k)) ∧
    (opc = 4 → s.liveOrStopped n = true → admArg b 0x30 1 < 4 → s.unitsOk n (admOf p b) = true →
      ((∃ k : Coach, bitsOf (admArg b 0x10 12) k 1 = 1 ∧ (s.ctx n).busyCoach k = true) ∨ (∃ x ∈ (admOf p b).units.2.1, (s.chan x.1 x.2).desc ≠ none ∨ (s.chan x.1 x.2).fetch ≠ 0) → ∃ t, exec (.ctxUnbind p cmd) s = .next t ∧ AdmAnswered p b 0xA s t ∧ t.fields = s.fields) ∧
      ((∀ k : Coach, bitsOf (admArg b 0x10 12) k 1 = 1 → (s.ctx n).busyCoach k = false) → (∀ x ∈ (admOf p b).units.2.1, (s.chan x.1 x.2).desc = none ∧ (s.chan x.1 x.2).fetch = 0) →
        ∃ t, exec (.ctxUnbind p cmd) s = .next t ∧ AdmAnswered p b 0 s t ∧ ∀ k : Coach,
          (bitsOf (admArg b 0x10 12) k 1 = 1 → t.boundCtx k = none ∧ t.fld COA_STATE_STATE k = 0 ∧ ∀ e, e < 131072 → t.bankWord k e = 0) ∧
          (bitsOf (admArg b 0x10 12) k 1 = 0 → t.boundCtx k = s.boundCtx k ∧ t.fld COA_STATE_STATE k = s.fld COA_STATE_STATE k ∧ ∀ e, e < 131072 → t.bankWord k e = s.bankWord k e))) ∧
    (∀ (src dst : Nat), opc = 5 → s.liveOrStopped n = true → ordinalOf (admArg b 0x10 1) = some src → ordinalOf (admArg b 0x11 1) = some dst → admArg b 0x10 1 < 128 → admArg b 0x11 1 < 128 →
      (s.boundCtx src ≠ some n → ∃ t, exec (.ctxMove p cmd) s = .next t ∧ AdmAnswered p b 9 s t ∧ t.coaches = s.coaches) ∧
      (s.boundCtx src = some n → (s.ctx n).state = 2 ∨ s.fld COA_STATE_STATE src = 1 ∨ s.fld COA_STATE_STATE src = 6 → s.fld COA_ROLE_BOUND dst = 0 → s.partOf (carOf dst) = (s.ctx n).part → s.stFail dst = false →
        s.fld ACC_SPILLBASE_BASE src = s.fld ACC_SPILLBASE_BASE dst → s.fld ACC_SPILLSLOTS_SLOTS src = s.fld ACC_SPILLSLOTS_SLOTS dst →
        ∃ t, exec (.ctxMove p cmd) s = .next t ∧ t.coach src = { s.coach src with moving := some dst } ∧ (∀ k, k ≠ src → t.coach k = s.coach k) ∧
          t.admBusy = some { port := p, opc := 5, ctx := n, tag := admArg b 8 8, src := src, dst := dst } ∧ t.fields = s.fields ∧ SameMemories s t))) ∧
  ∀ (c : AdmCmd) (s : State), s.withheld = false → s.admBusy = some c → c.opc = 5 → c.src < 96 → c.dst < 96 → c.ctx < 1024 → s.boundCtx c.src = some c.ctx → (s.coach c.src).moving = some c.dst →
    s.fld COA_ROLE_BOUND c.dst = 0 →
    ((s.coach c.src).reqs ≠ [] → exec .ctxMoveCopy s = .next s) ∧
    ((s.coach c.src).reqs = [] → memWf s.store = true → mwf 0 s.bank = true → mwf 0 s.vreg = true → ∃ t, exec .ctxMoveCopy s = .next t ∧ t.admBusy = none ∧
      t.boundCtx c.dst = some c.ctx ∧ t.boundCtx c.src = none ∧ t.fld COA_STATE_STATE c.src = 0 ∧
      t.fld COA_STATE_STATE c.dst = (if s.fld COA_STATE_STATE c.src = 6 then 1 else if s.fld COA_STATE_STATE c.src = 3 ∧ (s.coach c.src).ctrl ≠ none then 2 else s.fld COA_STATE_STATE c.src) ∧
      (t.coach c.dst).ctrl = none ∧
      (∀ a, a < storeSize → memByte t.store (c.dst * storeSize + a) = memByte s.store (c.src * storeSize + a)) ∧
      (∀ e, e < 131072 → t.bankWord c.dst e = s.bankWord c.src e ∧ t.bankWord c.src e = 0) ∧ (∀ r i, r < 64 → i < 512 → t.lane c.dst r i = s.lane c.src r i) ∧
      (∀ k, k < 96 → k ≠ c.src → k ≠ c.dst → t.boundCtx k = s.boundCtx k ∧ (∀ a, a < storeSize → memByte t.store (k * storeSize + a) = memByte s.store (k * storeSize + a)) ∧
        ∀ e, e < 131072 → t.bankWord k e = s.bankWord k e))

/-- A doorbell acts on the queue or unit that it names, and one with nothing to act on is counted and changes nothing else (R270, R546, R554, R555, R556, R557, R565, R639, 14_host_cores_and_queues.md). -/
def Obligations.DoorbellsMoveTheirQueues : Prop :=
  (∀ (d : Door) (r : Fin 64) (v : BitVec 12) (host : List Byte) (w : BitVec 32) (k : Fin 256) (x : BitVec 16) (s : State), DoorFree d s →
    (s.doorOf d = none → ∀ i ∈ [Instr.sqtail d r v, Instr.cqhead d r v, Instr.qsync d r host, Instr.resume d w, Instr.cqrel d r, Instr.dmahead d k x], exec i s = .next s) ∧
    (∀ (p : Nat) (o : Option Nat), s.doorOf d = some (p, o) → (∀ n, o = some n → (s.ctx n).state ∉ [1, 2] ∨ s.pairRole n = 2) →
      ∀ i ∈ [Instr.sqtail d r v, Instr.cqhead d r v, Instr.qsync d r host, Instr.resume d w, Instr.cqrel d r, Instr.dmahead d k x], ∃ t, exec i s = .next t ∧
        t.fld QUE_DBDROP_COUNT p = min (2 ^ QUE_DBDROP_COUNT.w - 1) (s.fld QUE_DBDROP_COUNT p + 1) ∧ OnlyFields [(QUE_DBDROP_COUNT, p, 0)] s t)) ∧
  (∀ (d : Door) (p n : Nat) (r : Fin 64) (q : QueueS) (s : State), DoorFree d s → s.doorOf d = some (p, some n) → (s.ctx n).state ∈ [1, 2] → s.pairRole n ≠ 2 → s.mirroring = false → q = s.queue n r →
    (∀ v : BitVec 12,
      (q.en = false → ∀ i ∈ [Instr.sqtail d r v, Instr.cqhead d r v], ∃ t, exec i s = .next t ∧
        t.fld QUE_DBDROP_COUNT p = min (2 ^ QUE_DBDROP_COUNT.w - 1) (s.fld QUE_DBDROP_COUNT p + 1) ∧ OnlyFields [(QUE_DBDROP_COUNT, p, 0)] s t) ∧
      (q.en = true → v.toNat < 2 ^ q.log2 →
        (q.disabling = false → ∃ t, exec (.sqtail d r v) s = .next t ∧ t.queue n r = { q with posted := q.posted + (v.toNat + 2 ^ q.log2 - q.tail) % 2 ^ q.log2, tail := v.toNat } ∧
          (∀ m j, (m, j) ≠ (n, r.val) → t.queue m j = s.queue m j) ∧ t = { s with ctxs := t.ctxs }) ∧
        (q.disabling = true → ∃ t, exec (.sqtail d r v) s = .next t ∧
          t.queue n r = { q with posted := q.posted + (v.toNat + 2 ^ q.log2 - q.tail) % 2 ^ q.log2, tail := v.toNat, taken := q.posted + (v.toNat + 2 ^ q.log2 - q.tail) % 2 ^ q.log2 } ∧
          (∀ m j, (m, j) ≠ (n, r.val) → t.queue m j = s.queue m j) ∧ t = { s with ctxs := t.ctxs }) ∧
        ∃ t, exec (.cqhead d r v) s = .next t ∧ t.queue n r = { q with used := (q.cqTail + 2 ^ q.log2 - v.toNat) % 2 ^ q.log2 } ∧
          (∀ m j, (m, j) ≠ (n, r.val) → t.queue m j = s.queue m j) ∧ t = { s with ctxs := t.ctxs })) ∧
    (∀ (host : List Byte) (bs : List Nat) (w : Nat) (u : State), u = s.tallyRead n ((s.ctx n).qtable + 32 * r.val) 32 → s.vread n ((s.ctx n).qtable + 32 * r.val) 32 (host.map BitVec.toNat) = some bs → w = leNat ((bs.drop 16).take 4) →
      leNat (bs.take 8) % 64 = 0 → leNat ((bs.drop 8).take 8) % 64 = 0 → 2 ≤ bitsOf w 0 4 → bitsOf w 0 4 ≤ 12 →
      (bitsOf w 6 1 = 1 → q.en = false → ∃ t, exec (.qsync d r host) s = .next t ∧
        t.queue n r = { en := true, sqBase := leNat (bs.take 8), cqBase := leNat ((bs.drop 8).take 8), log2 := bitsOf w 0 4, prio := bitsOf w 4 2, vec := bitsOf w 7 11 } ∧
        (∀ m j, (m, j) ≠ (n, r.val) → t.queue m j = s.queue m j) ∧ t = { u with ctxs := t.ctxs }) ∧
      (bitsOf w 6 1 = 1 → q.en = true → q.disabling = false → q.log2 = bitsOf w 0 4 → ∃ t, exec (.qsync d r host) s = .next t ∧
        t.queue n r = { q with sqBase := leNat (bs.take 8), cqBase := leNat ((bs.drop 8).take 8), prio := bitsOf w 4 2, vec := bitsOf w 7 11 } ∧
        (∀ m j, (m, j) ≠ (n, r.val) → t.queue m j = s.queue m j) ∧ t = { u with ctxs := t.ctxs }) ∧
      (bitsOf w 6 1 = 0 → q.en = true → ∃ t, exec (.qsync d r host) s = .next t ∧ t.queue n r = { q with disabling := true, again := false, taken := q.posted, repost := [] } ∧
        (∀ m j, (m, j) ≠ (n, r.val) → t.queue m j = s.queue m j) ∧ t = { u with ctxs := t.ctxs }) ∧
      (bitsOf w 6 1 = 0 → q.en = false → exec (.qsync d r host) s = .next u)) ∧
    (∀ (c : Compl) (rest : List Compl), q.compl = c :: rest → c.held = true → ∃ t, exec (.cqrel d r) s = .next t ∧ t.queue n r = { q with compl := { c with held := false } :: rest } ∧
      (∀ m j, (m, j) ≠ (n, r.val) → t.queue m j = s.queue m j) ∧ t = { s with ctxs := t.ctxs }) ∧
    ((∀ c ∈ q.compl, c.held = false) → ∃ t, exec (.cqrel d r) s = .next t ∧
      t.fld QUE_DBDROP_COUNT p = min (2 ^ QUE_DBDROP_COUNT.w - 1) (s.fld QUE_DBDROP_COUNT p + 1) ∧ OnlyFields [(QUE_DBDROP_COUNT, p, 0)] s t) ∧
    (∀ (w : BitVec 32) (k : Nat), ordinalOf (bitsOf w.toNat 0 7) = some k →
      (s.boundCtx k ≠ some n → ∃ t, exec (.resume d w) s = .next t ∧
        t.fld QUE_DBDROP_COUNT p = min (2 ^ QUE_DBDROP_COUNT.w - 1) (s.fld QUE_DBDROP_COUNT p + 1) ∧ OnlyFields [(QUE_DBDROP_COUNT, p, 0)] s t) ∧
      (s.boundCtx k = some n → s.fld STR_STATE_STATE k (bitsOf w.toNat 8 3) = 3 → ∃ t, exec (.resume d w) s = .next t ∧ t.fld STR_STATE_STATE k (bitsOf w.toNat 8 3) = 1 ∧
        (t.strm k (bitsOf w.toNat 8 3)).failed = none ∧ OnlyFields [(STR_STATE_STATE, k, bitsOf w.toNat 8 3)] { s with coaches := t.coaches } t) ∧
      (s.boundCtx k = some n → s.fld STR_STATE_STATE k (bitsOf w.toNat 8 3) ∉ [2, 3] → exec (.resume d w) s = .next s)) ∧
    (∀ (k : Fin 256) (x : BitVec 16),
      (s.fld DMA_CTX_BOUND (k.val / 64) (k.val % 64) = 1 → s.fld DMA_CTX_CONTEXT (k.val / 64) (k.val % 64) = n → x.toNat < 2 ^ s.fld DMA_RINGSIZE_LOG2 (k.val / 64) (k.val % 64) → ∃ t, exec (.dmahead d k x) s = .next t ∧
        t.fld DMA_HEAD_HEAD (k.val / 64) (k.val % 64) = x.toNat % 2 ^ DMA_HEAD_HEAD.w ∧ OnlyFields [(DMA_HEAD_HEAD, k.val / 64, k.val % 64)] s t) ∧
      (s.fld DMA_CTX_BOUND (k.val / 64) (k.val % 64) ≠ 1 ∨ s.fld DMA_CTX_CONTEXT (k.val / 64) (k.val % 64) ≠ n → ∃ t, exec (.dmahead d k x) s = .next t ∧
        t.fld QUE_DBDROP_COUNT p = min (2 ^ QUE_DBDROP_COUNT.w - 1) (s.fld QUE_DBDROP_COUNT p + 1) ∧ OnlyFields [(QUE_DBDROP_COUNT, p, 0)] s t))) ∧
  ∀ (n : Ctx) (r : Fin 64) (q : QueueS) (s : State), s.withheld = false → q = s.queue n r →
    (q.disabling = true → q.running = [] → q.compl = [] → ∃ t, exec (.qsyncDisableEffect n r) s = .next t ∧
      t.queue n r = { en := q.again, sqBase := q.sqBase, cqBase := q.cqBase, log2 := q.log2, prio := q.prio, vec := q.vec } ∧
      (∀ m j, (m, j) ≠ (n.val, r.val) → t.queue m j = s.queue m j) ∧ t = { s with ctxs := t.ctxs }) ∧
    (q.disabling = false ∨ q.running ≠ [] ∨ q.compl ≠ [] → exec (.qsyncDisableEffect n r) s = .next s)

/-- The work order at the head starts its coaches or completes with its check's status; END on every coach completes it; completions are written in order (R558, R559, R560, R561, R564, R565, R639, R655, Table 14.9, 14_host_cores_and_queues.md). -/
def Obligations.WorkOrdersStartCompleteAndAreWritten : Prop :=
  (∀ (n : Ctx) (host : List (Nat × List Byte)) (s : State), s.withheld = false → (s.ctx n).state ≠ 1 ∨ s.fld REC_STATUS_PFW 0 = 1 ∨ s.pairRole n = 2 ∨ s.fenced n = true → exec (.workOrderStart n host) s = .next s) ∧
  (∀ (n : Ctx) (r : Nat) (h : List Byte) (no : Nat) (bs : List Nat) (o : Order) (q : QueueS) (s u : State), s.withheld = false → (s.ctx n).state = 1 → s.fld REC_STATUS_PFW 0 ≠ 1 → s.pairRole n ≠ 2 → s.fenced n = false → s.mirroring = false →
    (s.ctx n).ringOrder = [r] → q = s.queue n r → q.headNo = some no → q.repost = [] → (s.ctx n).port < 4 → s.vread n (q.sqBase + no % 2 ^ q.log2 * 64) 64 (h.map BitVec.toNat) = some bs → o = readOrder bs →
    u = s.tallyRead n (q.sqBase + no % 2 ^ q.log2 * 64) 64 →
    (o.waitPrev = true → q.running ≠ [] → exec (.workOrderStart n [(r, h)]) s = .next s) ∧
    (o.waitPrev = false ∨ q.running = [] → o.rein = true → no < q.cancel → ∃ t, exec (.workOrderStart n [(r, h)]) s = .next t ∧
      (t.queue n r) = { q with taken := q.taken + 1, head := (no + 1) % 2 ^ q.log2, compl := q.compl ++ [{ no := no, tag := some o.tag, status := 5, sqhead := (no + 1) % 2 ^ q.log2, irq := o.irq, held := o.hold }] } ∧
      OnlyFields [(QUE_WODONE_COUNT, (s.ctx n).port, 0)] { u with ctxs := t.ctxs } t) ∧
    (o.waitPrev = false ∨ q.running = [] → o.rein = false ∨ q.cancel ≤ no → (s.orderCheck n o).1 ≠ 0 ∨ o.kind = 0 → ∃ t, exec (.workOrderStart n [(r, h)]) s = .next t ∧
      (t.queue n r) = { q with taken := q.taken + 1, head := (no + 1) % 2 ^ q.log2, compl := q.compl ++ [{ no := no, tag := some o.tag, status := (s.orderCheck n o).1, detail := (s.orderCheck n o).2, sqhead := (no + 1) % 2 ^ q.log2, irq := o.irq, held := o.hold }] } ∧
      OnlyFields [(QUE_WODONE_COUNT, (s.ctx n).port, 0)] { u with ctxs := t.ctxs } t) ∧
    (o.waitPrev = false ∨ q.running = [] → o.rein = false ∨ (q.cancel ≤ no ∧ no < q.released) → o.kind = 1 → s.orderCheck n o = (0, 0) → (∀ k ∈ o.coaches, s.coachFree k = true) → ∃ t, exec (.workOrderStart n [(r, h)]) s = .next t ∧
      (t.queue n r) = { q with taken := q.taken + 1, head := (no + 1) % 2 ^ q.log2, running := q.running ++ [{ no := no, tag := o.tag, irq := o.irq, hold := o.hold, coaches := o.coaches, sqhead := (no + 1) % 2 ^ q.log2 }] } ∧
      (∀ k ∈ o.coaches, t.fld COA_STATE_STATE k = 2 ∧ t.fld COA_PC_PC k = leNat ((bs.drop 4).take 4) % 1024 ∧ (t.coach k).ended = false ∧ (t.coach k).halted = false ∧
        ∀ i, i < 4 → t.fld COA_LOOP_COUNT k i = leNat ((bs.drop (0x20 + 4 * i)).take 4) % 2 ^ COA_LOOP_COUNT.w ∧
          t.fld COA_SP_ADDR k i = leNat ((bs.drop (0x30 + 4 * i)).take 4) % 2 ^ 23 % 2 ^ COA_SP_ADDR.w) ∧
      (∀ k, k < 96 → k ∉ o.coaches → t.coach k = s.coach k ∧ t.fld COA_STATE_STATE k = s.fld COA_STATE_STATE k ∧ t.fld COA_PC_PC k = s.fld COA_PC_PC k) ∧
      t = { u with fields := t.fields, coaches := t.coaches, ctxs := t.ctxs }) ∧
    (o.kind = 1 → s.orderCheck n o = (0, 0) → (o.rein = false ∧ ∃ k ∈ o.coaches, s.coachFree k = false) ∨ (o.rein = true ∧ q.cancel ≤ no ∧ q.released ≤ no) → exec (.workOrderStart n [(r, h)]) s = .next s)) ∧
  (∀ (n : Ctx) (s : State), s.withheld = false → (s.pairRole n = 2 ∨ s.doneOrder n (List.range 64) = none → exec (.workOrderComplete n) s = .next s) ∧
    ∀ (r : Nat) (w : Running), s.pairRole n ≠ 2 → s.doneOrder n (List.range 64) = some (r, w) → (s.ctx n).port < 4 → ∃ t, exec (.workOrderComplete n) s = .next t ∧
      (∀ k ∈ w.coaches, (s.coach k).ended = true ∧ t.coach k = { s.coach k with ended := false }) ∧ (∀ k, k ∉ w.coaches → t.coach k = s.coach k) ∧
      t.queue n r = { s.queue n r with running := (s.queue n r).running.filter (fun x => x.no != w.no), compl := (s.queue n r).compl ++ [{ no := w.no, tag := some w.tag, status := 0, sqhead := w.sqhead, irq := w.irq, held := w.hold }] } ∧
      t.fld QUE_WODONE_COUNT (s.ctx n).port = (s.fld QUE_WODONE_COUNT (s.ctx n).port + 1) % 2 ^ QUE_WODONE_COUNT.w ∧
      OnlyFields [(QUE_WODONE_COUNT, (s.ctx n).port, 0)] { s with ctxs := t.ctxs, coaches := t.coaches } t) ∧
  ∀ (n : Ctx) (r : Fin 64) (host : List Byte) (q : QueueS) (c : Compl) (rest : List Compl) (s : State), s.withheld = false → q = s.queue n r → q.compl = c :: rest →
    (c.held = true ∨ 2 ^ q.log2 ≤ q.used → exec (.completionWrite n r host) s = .next s) ∧
    (s.fenced n = true → exec (.completionWrite n r host) s = .next s) ∧
    (∀ (bs : List Nat) (o : Order), c.tag = none → c.held = false → q.used < 2 ^ q.log2 → c.marks = none → s.fenced n = false →
      s.vread n (q.sqBase + c.no % 2 ^ q.log2 * 64) 64 (host.map BitVec.toNat) = some bs → o = readOrder bs → ∃ t, exec (.completionWrite n r host) s = .next t ∧
      t.queue n r = { q with compl := { c with tag := some o.tag, irq := o.irq, held := o.hold } :: rest } ∧ (∀ m j, (m, j) ≠ (n.val, r.val) → t.queue m j = s.queue m j) ∧
      t = { s.tallyRead n (q.sqBase + c.no % 2 ^ q.log2 * 64) 64 with ctxs := t.ctxs }) ∧
    (∀ tag, c.tag = some tag → c.held = false → q.used < 2 ^ q.log2 → c.marks = none → s.mirroring = false → s.fenced n = false → ∃ t, exec (.completionWrite n r host) s = .next t ∧
      (t.queue n r) = { q with compl := rest, cqTail := (q.cqTail + 1) % 2 ^ q.log2, used := q.used + 1, phase := if (q.cqTail + 1) % 2 ^ q.log2 = 0 then !q.phase else q.phase } ∧
      (∀ l, s.translate n (q.cqBase + q.cqTail * 16) true = .ok l → l.target = 0 → l.addr % 16 = 0 → (((s.hbmCtl (s.place l.addr).stack).pc (s.place l.addr).pc).wq).length < 32 → ((s.hbmCtl (s.place l.addr).stack).pc (s.place l.addr).pc).late = [] → ∃ x,
        ((t.hbmCtl (s.place l.addr).stack).pc (s.place l.addr).pc).wq = ((s.hbmCtl (s.place l.addr).stack).pc (s.place l.addr).pc).wq ++ [x] ∧ x.pa = l.addr ∧ x.write = true ∧
        x.pkt.data = leBytes 8 tag ++ leBytes 2 c.sqhead ++ [c.status, b2n q.phase] ++ leBytes 4 c.detail) ∧
      (∀ l, s.translate n (q.cqBase + q.cqTail * 16) true = .ok l → l.target = 0 → l.addr % 16 = 0 → 32 ≤ (((s.hbmCtl (s.place l.addr).stack).pc (s.place l.addr).pc).wq).length → ∃ x,
        ((t.hbmCtl (s.place l.addr).stack).pc (s.place l.addr).pc).late = ((s.hbmCtl (s.place l.addr).stack).pc (s.place l.addr).pc).late ++ [x] ∧ x.pa = l.addr ∧ x.write = true ∧
        x.pkt.data = leBytes 8 tag ++ leBytes 2 c.sqhead ++ [c.status, b2n q.phase] ++ leBytes 4 c.detail) ∧
      (∀ l, s.translate n (q.cqBase + q.cqTail * 16) true = .ok l → l.target = 2 → (s.port l.unit).up = true →
        .hostWrite l.unit (s.ctxFn n) l.addr (leBytes 8 tag ++ leBytes 2 c.sqhead ++ [c.status, b2n q.phase] ++ leBytes 4 c.detail) ∈ t.out ∧ t.hbm = s.hbm) ∧
      (c.irq = true ∨ c.status ≠ 0 → (s.ctx n).isvf = false → q.vec < 2048 → (s.port (s.ctx n).port).up = true → .msix (s.ctx n).port none q.vec ∈ t.out) ∧
      (∀ m j, (m, j) ≠ (n.val, r.val) → t.queue m j = s.queue m j) ∧ t.store = s.store)

/-- PERST_N and FLR brake the contexts of their functions and end their requests; translations are cached and invalidated; host reads are answered (R544, R547, R549, R694, 14_host_cores_and_queues.md). -/
def Obligations.PciePortsResetTranslateAndComplete : Prop :=
  (∀ (p : Fin 4) (s : State), s.withheld = false → ∃ t, exec (.perstAssert p) s = .next t ∧ t.port p = { slots := (s.port p).slots } ∧ t.admS p = {} ∧ t.fld QUE_ADMCFG_EN p = 0 ∧
    t.hostReq = s.hostReq.filter (fun r => r.port != p.val) ∧ (∀ q, q ≠ p.val → t.port q = s.port q ∧ t.admS q = s.admS q) ∧
    (∀ n, (s.ctx n).port = p.val → (s.ctx n).state ∈ [1, 2] → (t.ctx n).state = 3 ∧ (t.ctx n).cause = 3 ∧ ∀ k : Coach, s.boundCtx k = some n → ∀ e, e < 131072 → t.bankWord k e = 0) ∧
    (mwf {} s.ctxs = true → ∀ n, (s.ctx n).port ≠ p.val → (t.ctx n).state = (s.ctx n).state ∧ (t.ctx n).cause = (s.ctx n).cause) ∧ t.store = s.store ∧ t.hbm = s.hbm ∧ t.media = s.media) ∧
  (∀ (p : Fin 4) (vfs : Fin 257) (ats : List (Fin 257)) (s : State), s.withheld = false → ((s.port p).up = true → exec (.perstRelease p vfs ats) s = .next s) ∧
    ((s.port p).up = false → ∃ t, exec (.perstRelease p vfs ats) s = .next t ∧
      t.port p = { up := true, ready := s.pm.rails == 6 && !s.pm.inPor, vfs := vfs, ats := ats.map Fin.val, slots := (s.port p).slots } ∧
      (∀ q, q ≠ p.val → t.port q = s.port q) ∧ t = { s with ports := t.ports })) ∧
  (∀ (p : Fin 4) (v : Option (Fin 256)) (s : State), s.withheld = false → (s.port p).up = false → exec (.flr p v) s = .next s) ∧
  (∀ (p : Fin 4) (s : State), s.withheld = false → (s.port p).up = true → ∃ t, exec (.flr p none) s = .next t ∧ t.port p = { s.port p with vfs := 0, ats := [], cache := [] } ∧
    t.hostReq = s.hostReq.filter (fun r => r.port != p.val) ∧ (∀ q, q ≠ p.val → t.port q = s.port q) ∧ t.adm = s.adm ∧
    (∀ n, (s.ctx n).port = p.val → (s.ctx n).state ∈ [1, 2] → (t.ctx n).state = 3 ∧ (t.ctx n).cause = 3) ∧ t.store = s.store ∧ t.hbm = s.hbm ∧ t.media = s.media) ∧
  (∀ (p : Fin 4) (f : Fin 256) (s : State), s.withheld = false → (s.port p).up = true → ∃ t, exec (.flr p (some f)) s = .next t ∧ (t.port p).vfs = (s.port p).vfs ∧ (t.port p).up = true ∧
    (∀ g, g ∈ (t.port p).ats ↔ g ∈ (s.port p).ats ∧ g ≠ 1 + f.val) ∧
    (∀ g q, q < 2 ^ 52 → mget 0 (t.port p).cache (atsKey g q) = if g = 1 + f.val then 0 else mget 0 (s.port p).cache (atsKey g q)) ∧
    (∀ n, (s.ctx n).port = p.val → (s.ctx n).isvf = true → (s.ctx n).vf = f.val → (s.ctx n).state ∈ [1, 2] → (t.ctx n).state = 3 ∧ (t.ctx n).cause = 3) ∧
    (mwf {} s.ctxs = true → ∀ n, (s.ctx n).isvf = false ∨ (s.ctx n).vf ≠ f.val → (t.ctx n).state = (s.ctx n).state) ∧ t.store = s.store ∧ t.hbm = s.hbm ∧ t.media = s.media) ∧
  (∀ (p : Fin 4) (r : HostReq) (s : State), s.withheld = false → s.hostReq.find? (fun r => r.port == p.val && r.asked) = some r →
    (∃ t, exec (.atsResponse p none) s = .next t ∧ t.hostReq = s.hostReq.erase r ∧
      t = ({ s with hostReq := s.hostReq.erase r }).inject (pcieUnit p) { responseTo r.pkt (if r.pkt.vn = 2 then 1 else 0) 0 [] with bad := true, aux := 1, src := pcieUnit p }) ∧
    ∀ page : BitVec 52, ∃ t, exec (.atsResponse p (some page)) s = .next t ∧ mget 0 (t.port p).cache (atsKey (s.ctxFn r.pkt.ctx) (r.pkt.addr / 4096)) = page.toNat + 1 ∧
      (∀ k, k ≠ atsKey (s.ctxFn r.pkt.ctx) (r.pkt.addr / 4096) → mget 0 (t.port p).cache k = mget 0 (s.port p).cache k) ∧
      (r.pkt.vn = 2 → t.out = .hostWrite p (s.ctxFn r.pkt.ctx) (page.toNat * 4096 + r.pkt.addr % 4096) r.pkt.data :: s.out ∧ t.hostReq = s.hostReq.erase r) ∧
      (r.pkt.vn ≠ 2 → t.out = .hostRead p (s.ctxFn r.pkt.ctx) (page.toNat * 4096 + r.pkt.addr % 4096) (r.pkt.len * 16) (r.pkt.uid % 1024) :: s.out ∧
        t.hostReq = s.hostReq.erase r ++ [{ port := p, pkt := r.pkt, asked := false }] ∧ t.net = s.net) ∧ t.fields = s.fields ∧ SameMemories s t) ∧
  (∀ (p : Fin 4) (i : Nat) (good : Bool) (data : List Byte) (r : HostReq) (s : State), s.withheld = false → (s.hostReq.filter (fun r => r.port == p.val && !r.asked))[i]? = some r →
    ∃ t, exec (.hostCompletion p i good data) s = .next t ∧ t.hostReq = s.hostReq.erase r ∧
      (good = true → r.pkt.len * 16 ≤ data.length →
        t = ({ s with hostReq := s.hostReq.erase r }).respond (pcieUnit p) r.pkt 0 0 ((data.map BitVec.toNat).take (r.pkt.len * 16))) ∧
      (good = false ∨ data.length < r.pkt.len * 16 →
        t = ({ s with hostReq := s.hostReq.erase r }).inject (pcieUnit p) { responseTo r.pkt (if r.pkt.vn = 2 then 1 else 0) 0 [] with bad := true, aux := 4, src := pcieUnit p }) ∧
      t.fields = s.fields ∧ SameMemories s t) ∧
  ∀ (p : Fin 4) (fn : Fin 257) (page : BitVec 52) (pages : Nat) (s : State), s.withheld = false → ∃ t, exec (.atsInvalidation p fn page pages) s = .next t ∧
    (∀ g q, q < 2 ^ 52 → mget 0 (t.port p).cache (atsKey g q) = if g = fn.val ∧ page.toNat ≤ q ∧ q < page.toNat + pages then 0 else mget 0 (s.port p).cache (atsKey g q)) ∧
    (∀ q, q ≠ p.val → t.port q = s.port q) ∧ t = { s with ports := t.ports }

/-- A power state is entered block by block, refused as a whole with the refuser recorded, and left by its wakes; coaches gate and restart; PLLs lock; pads follow (R575, R578, R579, R580, R581, R582, R584, R585, R586, R587, Table 15.2, 15_power_and_clocks.md). -/
def Obligations.PowerStatesAreEnteredRefusedAndLeft : Prop :=
  (∀ (mask : BitVec 4) (s : State), Hits PWR_CMD_STATE 0 0 s → ∀ x ∈ [(Instr.powerCmdS1 mask, 1, mask.toNat), (Instr.powerCmdS2 mask, 2, mask.toNat), (Instr.powerCmdS3, 3, 15)],
    (s.pwr.entry = none → x.2.2 ≠ 0 → (∀ c, c < 4 → bitsOf x.2.2 c 1 = 1 → s.carState c = 0) → ∃ t, exec x.1 s = .next t ∧ t.pwr.entry = some (x.2.1, x.2.2) ∧ t.fld PWR_STATUS_PHASE 0 = 1 ∧
      OnlyFields [(PWR_STATUS_PHASE, 0, 0)] { s with pwr := { s.pwr with entry := some (x.2.1, x.2.2) } } t) ∧
    (s.pwr.entry.isSome = true ∨ x.2.2 = 0 ∨ (∃ c, c < 4 ∧ bitsOf x.2.2 c 1 = 1 ∧ s.carState c ≠ 0) → ∃ t, exec x.1 s = .next t ∧ t.fld PWR_STATUS_CMDIGN 0 = 1 ∧
      OnlyFields [(PWR_STATUS_CMDIGN, 0, 0)] s t)) ∧
  (∀ (mask : BitVec 4) (s : State),
    (Hits PWR_CMD_STATE 0 0 s → s.pwr.entry.isSome = true → ∃ t, exec (.powerCmdS0 mask) s = .next t ∧ t.pwr.entry = none ∧ t.fld PWR_STATUS_REFUSED 0 = 1 ∧ t.fld PWR_STATUS_REFUSER 0 = 0 ∧ t.fld PWR_STATUS_REASON 0 = 10 ∧
      t.fld PWR_STATUS_PHASE 0 = 0 ∧ t.fld PWR_STATUS_EVENT 0 = 1 ∧ SameMemories s t) ∧
    (∀ i, i = .wakeNAssert ∨ (i = .powerCmdS0 mask ∧ Hits PWR_CMD_STATE 0 0 s ∧ s.pwr.entry = none ∧ mask ≠ 0) → s.pwr.s3 = true →
      (s.pm.raising = true ∨ s.pm.dead = true → exec i s = .next s) ∧
      (s.pm.raising = false → s.pm.dead = false → ∃ t, exec i s = .next t ∧ t.pm.raising = true ∧
        t.fld PWR_STATUS_PHASE 0 = 3 ∧ t.out = .rail 0 true :: s.out ∧ OnlyFieldsOut [(PWR_STATUS_PHASE, 0, 0)] { s with pm := { s.pm with raising := true, tries := 0 } } t)) ∧
    (s.pwr.s3 = false → (∀ c, c < 4 → s.carState c ∉ [1, 2]) → exec .wakeNAssert s = .next s) ∧
    (Hits PWR_CMD_STATE 0 0 s → s.pwr.entry = none → mask = 0 ∨ (s.pwr.s3 = false ∧ ∀ c, c < 4 → bitsOf mask.toNat c 1 = 1 → s.carState c ∉ [1, 2]) → ∃ t, exec (.powerCmdS0 mask) s = .next t ∧ t.fld PWR_STATUS_CMDIGN 0 = 1 ∧
      OnlyFields [(PWR_STATUS_CMDIGN, 0, 0)] s t) ∧
    (s.pwr.s3 = false → ∀ x : Instr × Nat, x = (.wakeNAssert, 15) ∨ (x = (.powerCmdS0 mask, mask.toNat) ∧ Hits PWR_CMD_STATE 0 0 s ∧ s.pwr.entry = none) →
      (∃ c, c < 4 ∧ bitsOf x.2 c 1 = 1 ∧ s.carState c ∈ [1, 2]) → ∃ t, exec x.1 s = .next t ∧ SameMemories s t ∧ ∀ c, c < 4 → bitsOf x.2 c 1 = 1 →
        (s.carState c = 1 → t.carState c = 0 ∧ t.fld PWR_STATUS_EVENT 0 = 1 ∧ ∀ k, k < 24 → s.fld COA_STATE_STATE (c * 24 + k) = 6 →
          t.fld COA_STATE_STATE (c * 24 + k) = if s.fld COA_ROLE_BOUND (c * 24 + k) = 1 then 1 else 0) ∧
        (s.carState c = 2 → bitsOf s.pwr.waking c 1 = 0 → t.carState c = 2 ∧ bitsOf t.pwr.waking c 1 = 1 ∧ .avs c (10 * s.pwr.volt) ∈ t.out ∧ t.fld PWR_STATUS_PHASE 0 = 3) ∧
        (s.carState c = 0 → t.carState c = 0))) ∧
  (∀ (wfi : BitVec 4) (s : State), (s.pwr.entry = none → exec (.powerBlockAnswer wfi) s = .next s ∧ exec .powerBlockTimeout s = .next s) ∧
    ∀ (st mask o c : Nat), s.pwr.entry = some (st, mask) → s.nextBlock = some (o, c) →
      (∃ t, exec .powerBlockTimeout s = .next t ∧ t.pwr.entry = none ∧ t.fld PWR_STATUS_REFUSED 0 = 1 ∧ t.fld PWR_STATUS_REFUSER 0 = o % 2 ^ PWR_STATUS_REFUSER.w ∧
        t.fld PWR_STATUS_REASON 0 = 9 ∧ t.fld PWR_STATUS_CARRIAGE 0 = c % 2 ^ PWR_STATUS_CARRIAGE.w ∧ t.fld PWR_STATUS_PHASE 0 = 0 ∧ SameMemories s t) ∧
      (o = 6 → (∃ i, i < 4 ∧ s.fld HCL_CTL_RUN c i = 1 ∧ bitsOf wfi.toNat i 1 = 0) → ∃ t, exec (.powerBlockAnswer wfi) s = .next t ∧ t.pwr.entry = none ∧ t.fld PWR_STATUS_REFUSED 0 = 1 ∧
        t.fld PWR_STATUS_REFUSER 0 = 6 ∧ t.fld PWR_STATUS_REASON 0 = 1 ∧ t.fld PWR_STATUS_CARRIAGE 0 = c % 2 ^ PWR_STATUS_CARRIAGE.w ∧ SameMemories s t) ∧
      (o = 6 → (∀ i, i < 4 → s.fld HCL_CTL_RUN c i = 1 → bitsOf wfi.toNat i 1 = 1) → (∃ x ∈ askOrder st mask, x ∉ s.pwr.stopped ∧ x ≠ (o, c)) → ∃ t, exec (.powerBlockAnswer wfi) s = .next t ∧
        t.pwr = { s.pwr with stopped := s.pwr.stopped ++ [(o, c)] } ∧ (∀ i, i < 4 → t.fld HCL_CTL_WFI c i = if s.fld HCL_CTL_RUN c i = 1 then 1 else 0) ∧
        OnlyFields [(HCL_CTL_WFI, c, 0), (HCL_CTL_WFI, c, 1), (HCL_CTL_WFI, c, 2), (HCL_CTL_WFI, c, 3)] { s with pwr := t.pwr } t) ∧
      (o ≠ 6 → s.blockAnswers wfi.toNat o c = .notYet → exec (.powerBlockAnswer wfi) s = .next s) ∧
      (∀ r, o ≠ 6 → s.blockAnswers wfi.toNat o c = .refuses r → ∃ t, exec (.powerBlockAnswer wfi) s = .next t ∧ t.pwr.entry = none ∧ t.fld PWR_STATUS_REFUSED 0 = 1 ∧
        t.fld PWR_STATUS_REFUSER 0 = o % 2 ^ PWR_STATUS_REFUSER.w ∧ t.fld PWR_STATUS_REASON 0 = r % 2 ^ PWR_STATUS_REASON.w ∧ t.fld PWR_STATUS_CARRIAGE 0 = c % 2 ^ PWR_STATUS_CARRIAGE.w ∧
        t.fld PWR_STATUS_EVENT 0 = 1 ∧ (∀ d, d < 4 → t.carState d = s.carState d) ∧ SameMemories s t) ∧
      (o ≠ 6 → s.blockAnswers wfi.toNat o c = .agrees → (∃ x ∈ askOrder st mask, x ∉ s.pwr.stopped ∧ x ≠ (o, c)) → ∃ t, exec (.powerBlockAnswer wfi) s = .next t ∧
        t.pwr = { s.pwr with stopped := s.pwr.stopped ++ [(o, c)] } ∧
        (o = 3 → ∀ k, k < 24 → t.fld COA_STATE_STATE (c * 24 + k) = if s.fld COA_STATE_STATE (c * 24 + k) < 2 then 6 else s.fld COA_STATE_STATE (c * 24 + k)) ∧
        (o ≠ 3 → t = { s with pwr := t.pwr }) ∧ t = { s with pwr := t.pwr, fields := t.fields }) ∧
      (o ≠ 6 → s.blockAnswers wfi.toNat o c = .agrees → (∀ x ∈ askOrder st mask, x ∈ s.pwr.stopped ∨ x = (o, c)) → ∃ t, exec (.powerBlockAnswer wfi) s = .next t ∧ t.pwr.entry = none ∧
        t.fld PWR_STATUS_PHASE 0 = 0 ∧ t.fld PWR_STATUS_EVENT 0 = 1 ∧ (∀ d, d < 4 → bitsOf mask d 1 = 1 → (st = 1 → t.carState d = 1) ∧
          (st = 2 → t.carState d = 2 ∧ (t.hbmCtl (2 * d)).selfRef = true ∧ (t.hbmCtl (2 * d + 1)).selfRef = true ∧ .avs d 550 ∈ t.out ∧ ∀ n, n < 24 → t.fld IOB_PIN_HELD d n = 1)) ∧
        (st ≠ 3 → t.store = s.store ∧ t.hbm = s.hbm) ∧ t.media = s.media)) ∧
  (∀ (down : List (Fin 26)) (s : State),
    ((∀ c, c < 4 → bitsOf s.pwr.waking c 1 = 1 → s.fld (lockFld c) 0 ≠ 15 ∨ ∃ a ∈ s.pwr.avs, a.car = c) → exec (.wakeComplete down) s = .next s) ∧
    ∀ c, c < 4 → bitsOf s.pwr.waking c 1 = 1 → s.fld (lockFld c) 0 = 15 → (∀ a ∈ s.pwr.avs, a.car ≠ c) → ∃ t, exec (.wakeComplete down) s = .next t ∧ t.carState c = 0 ∧
      bitsOf t.pwr.waking c 1 = 0 ∧ t.fld PWR_STATUS_EVENT 0 = 1 ∧ (∀ k, k < 24 → t.fld COA_STATE_STATE (c * 24 + k) ≠ 6) ∧ t.store = s.store ∧ t.hbm = s.hbm ∧ t.media = s.media) ∧
  (∀ (k : Coach) (s : State),
    (2 ≤ s.fld COA_STATE_STATE k ∨ s.packetWaits k = true ∨ s.lockRun = true ∨ 2 ≤ s.carState (carOf k) ∨ (s.carState (carOf k) = 0 ∧ (s.fld PWR_GATE_IDLE 0 = 0 ∨ s.coachCycles - (s.coach k).idleFrom < s.fld PWR_GATE_IDLE 0)) → exec (.coachGate k) s = .next s) ∧
    (s.fld COA_STATE_STATE k < 2 → s.packetWaits k = false → s.lockRun = false → s.carState (carOf k) = 1 ∨ (s.carState (carOf k) = 0 ∧ s.fld PWR_GATE_IDLE 0 ≠ 0 ∧
      s.fld PWR_GATE_IDLE 0 ≤ s.coachCycles - (s.coach k).idleFrom) → ∃ t, exec (.coachGate k) s = .next t ∧ t.fld COA_STATE_STATE k = 6 ∧ OnlyFields [(COA_STATE_STATE, k, 0)] s t) ∧
    (s.packetWaits k = false ∨ s.stoppedAt 3 (carOf k) = true ∨ s.fld COA_STATE_STATE k ≠ 6 → exec (.coachUngate k) s = .next s) ∧
    (s.packetWaits k = true → s.stoppedAt 3 (carOf k) = false → s.fld COA_STATE_STATE k = 6 → ∃ t, exec (.coachUngate k) s = .next t ∧
      t.fld COA_STATE_STATE k = (if s.fld COA_ROLE_BOUND k = 1 then 1 else 0) ∧ (t.coach k).idleFrom = s.coachCycles ∧ OnlyFields [(COA_STATE_STATE, k, 0)] { s with coaches := t.coaches } t)) ∧
  (∀ (d : Fin 2) (s : State), (s.pwr.s3 = true ∨ s.pm.inPor = true → exec (.pllLock (.ctl d)) s = .next s) ∧
    (s.pwr.s3 = false → s.pm.inPor = false → ∃ t, exec (.pllLock (.ctl d)) s = .next t ∧
      t.fld CLK_STATUS_CTL 0 = (s.fld CLK_STATUS_CTL 0 ||| 2 ^ d.val) % 2 ^ CLK_STATUS_CTL.w ∧ OnlyFields [(CLK_STATUS_CTL, 0, 0)] s t)) ∧
  (∀ (c : Car) (q : Fin 4) (s : State), (s.carState c ∉ [2, 4] ∨ (s.carState c = 2 ∧ bitsOf s.pwr.waking c 1 = 0) ∨ s.pm.rails ≠ 6 ∨ s.pm.tripped = true ∨ (∃ a ∈ s.pwr.avs, a.car = c.val) →
      exec (.pllLock (.car c q)) s = .next s) ∧
    (s.pm.rails = 6 → s.pm.tripped = false → (∀ a ∈ s.pwr.avs, a.car ≠ c.val) → s.carState c = 2 → bitsOf s.pwr.waking c 1 = 1 → ∃ t, exec (.pllLock (.car c q)) s = .next t ∧
      t.fld (lockFld c) 0 = (s.fld (lockFld c) 0 ||| 2 ^ q.val) % 16 ∧ OnlyFields [(lockFld c, 0, 0)] s t) ∧
    (s.pm.rails = 6 → s.pm.tripped = false → (∀ a ∈ s.pwr.avs, a.car ≠ c.val) → s.carState c = 4 → ∃ t, exec (.pllLock (.car c q)) s = .next t ∧
      t.fld (lockFld c) 0 = (s.fld (lockFld c) 0 ||| 2 ^ q.val) % 16 ∧ t.carState c = (if s.fld (lockFld c) 0 ||| 2 ^ q.val = 15 then 0 else 4) ∧
      OnlyFields [(lockFld c, 0, 0), (carFld c, 0, 0), (CLK_COACHF_MHZ, 0, 0), (PWR_THRCTL_ACTIVE, 0, 0)] s t)) ∧
  ∀ (mask : BitVec 4) (s : State), Hits PWR_PADREL_CAR 0 0 s → (∀ c, c < 4 → mwf 0 (s.fabS c).latched = true) → ∃ t, exec (.padRelease mask) s = .next t ∧ SameMemories s t ∧ ∀ c, c < 4 →
    (bitsOf mask.toNat c 1 = 1 → s.carState c = 0 → ∀ n, n < 24 → mget 0 (t.fabS c).latched n = mget 0 (s.fabS c).latched n % 2 ∧
      t.fld IOB_PIN_HELD c n = if mget 0 (s.fabS c).latched n % 2 = 0 then 0 else s.fld IOB_PIN_HELD c n) ∧
    (bitsOf mask.toNat c 1 = 0 ∨ s.carState c ≠ 0 → t.fabS c = s.fabS c ∧ ∀ n, n < 24 → t.fld IOB_PIN_HELD c n = s.fld IOB_PIN_HELD c n)

/-- Profiles change voltage and clock in order, the throttle steps the clock, rails rise one by one, and POR_N, PMB_ALERT and trips leave a safe device (R588, R589, R590, R593, R594, R595, R596, R631, R690, R691, R693, 15_power_and_clocks.md). -/
def Obligations.SuppliesProfilesAndThrottling : Prop :=
  (∀ (c : Car) (s : State), ((∀ a ∈ s.pwr.avs, a.car ≠ c.val) → exec (.avsAck c) s = .next s ∧ exec (.avsTimeout c) s = .next s) ∧
    ((∃ a ∈ s.pwr.avs, a.car = c.val) → ∃ t, exec (.avsAck c) s = .next t ∧ (∀ a ∈ t.pwr.avs, a.car ≠ c.val) ∧
      ((∃ a ∈ s.pwr.avs, a.car ≠ c.val) ∨ s.pwr.goal = none → t = { s with pwr := { s.pwr with avs := s.pwr.avs.filter (fun a => a.car != c.val) } }) ∧
      (∀ g, (∀ a ∈ s.pwr.avs, a.car = c.val) → s.pwr.goal = some g → s.pwr.inForce = g → s.pwr.held = none → t.fld PWR_STATUS_PROFBUSY 0 = 0 ∧ t.pwr.goal = none ∧
        OnlyFields [(PWR_STATUS_PROFBUSY, 0, 0)] { s with pwr := t.pwr } t) ∧
      (∀ g, (∀ a ∈ s.pwr.avs, a.car = c.val) → s.pwr.goal = some g → s.pwr.inForce ≠ g → s.fld CLK_COACHF_MHZ 0 ≠ 0 → t.fld CLK_COACHF_MHZ 0 = 0 ∧ t.pwr.goal = some g ∧
        ∀ d, d < 4 → t.fld (lockFld d) 0 % 2 = 0)) ∧
    ∀ a, s.pwr.avs.find? (fun a => a.car == c.val) = some a →
      (a.again = false → ∃ t, exec (.avsTimeout c) s = .next t ∧ t.out = .avs c (10 * a.target) :: s.out ∧ t.pwr.avs.length = s.pwr.avs.length ∧
        (∀ x ∈ t.pwr.avs, x.car = c.val → x.again = true) ∧ t = { s with pwr := t.pwr, out := t.out }) ∧
      (a.again = true → s.carState c ≠ 2 → s.pwr.held = none → ∃ t, exec (.avsTimeout c) s = .next t ∧ t.fld PWR_STATUS_REASON 0 = 12 ∧ t.fld PWR_STATUS_CARRIAGE 0 = c ∧
        t.fld PWR_STATUS_EVENT 0 = 1 ∧ t.pwr.volt = a.former ∧ t.pwr.goal = none ∧ t.fld PWR_STATUS_PROFBUSY 0 = 0 ∧ (∀ d ∈ s.profCars, .avs d (10 * a.former) ∈ t.out) ∧
        t.fld CLK_COACHF_MHZ 0 = s.fld CLK_COACHF_MHZ 0 ∧ SameMemories s t) ∧
      (a.again = true → s.carState c = 2 → bitsOf s.pwr.waking c 1 = 1 → ∃ t, exec (.avsTimeout c) s = .next t ∧ t.fld PWR_STATUS_REASON 0 = 12 ∧ t.fld PWR_STATUS_CARRIAGE 0 = c ∧
        t.carState c = 2 ∧ .avs c (10 * a.former) ∈ t.out ∧ SameMemories s t)) ∧
  (∀ (sel : Fin 4) (s : State), Hits PWR_PROFILE_SEL 0 0 s →
    (s.pwr.goal.isSome = true → exec (.profileWrite sel) s = .next { s with pwr := { s.pwr with held := some sel.val } }) ∧
    (s.pwr.goal = none → s.fld PWR_PROFILE_SEL 0 = sel.val → exec (.profileWrite sel) s = .next s) ∧
    (s.pwr.goal = none → s.fld PWR_PROFILE_SEL 0 ≠ sel.val → ∃ t, exec (.profileWrite sel) s = .next t ∧ t.fld PWR_PROFILE_SEL 0 = sel ∧ t.fld PWR_STATUS_PROFBUSY 0 = 1 ∧ t.pwr.goal = some sel.val ∧
      (s.lockRun = true → t.fld DEV_LSSTAT_STATE 0 = 3 ∧ t.fld DEV_LSSTAT_CODE 0 = 2) ∧
      (s.pwr.volt < s.profVolt sel → s.profCars ≠ [] → t.fld CLK_COACHF_MHZ 0 = s.fld CLK_COACHF_MHZ 0 ∧
        ∀ d ∈ s.profCars, .avs d (10 * s.profVolt sel) ∈ t.out ∧ ∃ a ∈ t.pwr.avs, a.car = d ∧ a.target = s.profVolt sel ∧ a.former = s.pwr.volt) ∧
      (s.profVolt sel ≤ s.pwr.volt → t.fld CLK_COACHF_MHZ 0 = 0 ∧ t.pwr.avs = s.pwr.avs) ∧ SameMemories s t)) ∧
  (∀ (g : Nat) (s : State), s.pwr.goal = some g → (s.pwr.avs ≠ [] ∨ s.fld CLK_COACHF_MHZ 0 ≠ 0 → exec .profileChangeDone s = .next s) ∧
    (s.pwr.avs = [] → s.fld CLK_COACHF_MHZ 0 = 0 → ∃ t, exec .profileChangeDone s = .next t ∧ t.pwr.inForce = g ∧ t.pwr.volt = s.profVolt g ∧
      (s.pwr.held = none ∨ (s.profVolt g < s.pwr.volt ∧ s.profCars ≠ []) → t.fld CLK_COACHF_MHZ 0 = if s.pwr.hot = true then 800 else profMhz g) ∧
      (s.pwr.held = none → s.pwr.volt ≤ s.profVolt g ∨ s.profCars = [] → t.fld PWR_STATUS_PROFBUSY 0 = 0 ∧ t.pwr.goal = none) ∧
      (s.profVolt g < s.pwr.volt → ∀ d ∈ s.profCars, .avs d (10 * s.profVolt g) ∈ t.out) ∧ SameMemories s t)) ∧
  (∀ (w : BitVec 16) (tm : BitVec 8) (m : Nat) (s : State), m = s.fld CLK_COACHF_MHZ 0 → m < 2048 → ∃ t, exec (.throttleStep w tm) s = .next t ∧
    t.fld PWR_MEAS_WATTS 0 = w.toNat ∧ t.fld PWR_MEAS_TMAX 0 = tm.toNat ∧ SameMemories s t ∧ (m = 0 ∨ s.pwr.goal.isSome = true → t.fld CLK_COACHF_MHZ 0 = m) ∧
    (m ≠ 0 → s.pwr.goal = none → s.fld PWR_THRCTL_EN 0 = 1 → s.pwr.inForce ≠ 3 → s.fld PWR_PLIM_WATTS 0 < w.toNat ∨ s.fld PWR_THRCTL_TSOFT 0 < tm.toNat →
      t.fld CLK_COACHF_MHZ 0 = (if 800 < m then max 800 (m - 50) else m) ∧ (800 < m → s.lockRun = true → t.fld DEV_LSSTAT_STATE 0 = 3 ∧ t.fld DEV_LSSTAT_CODE 0 = 3)) ∧
    (m ≠ 0 → s.pwr.goal = none → s.pwr.hot = false → 100 * w.toNat < 95 * s.fld PWR_PLIM_WATTS 0 → tm.toNat + 3 ≤ s.fld PWR_THRCTL_TSOFT 0 →
      t.fld CLK_COACHF_MHZ 0 = if m < profMhz s.pwr.inForce then min (profMhz s.pwr.inForce) (m + 50) else m) ∧
    (m ≠ 0 → s.lockRun = true → t.fld CLK_COACHF_MHZ 0 ≠ m → t.fld DEV_LSSTAT_STATE 0 = 3)) ∧
  (∀ (i : Nat) (tm : BitVec 8) (s : State), (tm.toNat < 105 → exec (.hardThrottle i tm) s = .next s) ∧ (tm.toNat < 115 → exec (.thermtrip i tm) s = .next s) ∧
    (105 ≤ tm.toNat → ∃ t, exec (.hardThrottle i tm) s = .next t ∧ t.pwr.hot = true ∧ t.fld PWR_THRCTL_HARD 0 = 1 ∧ t.fld PWR_MEAS_TMAX 0 = tm.toNat ∧
      (s.fld CLK_COACHF_MHZ 0 ≠ 0 → t.fld CLK_COACHF_MHZ 0 = 800) ∧ (s.lockRun = true → t.fld DEV_LSSTAT_STATE 0 = 3) ∧ SameMemories s t) ∧
    (115 ≤ tm.toNat → ∃ t, exec (.thermtrip i tm) s = .next t ∧ t.pm.tripped = true ∧ .pin "THERMTRIP_N" 0 ∈ t.out ∧ t.fld PWR_MEAS_TMAX 0 = tm.toNat ∧ t.fld CLK_STATUS_CTL 0 = 0 ∧
      t.fld CLK_COACHF_MHZ 0 = 0 ∧ (∀ c, c < 4 → t.fld (lockFld c) 0 = 0) ∧ SameMemories s t)) ∧
  (∀ (fails : List Coach) (l2 : List Car) (c : Car) (s : State), (s.pm.raising = false → exec (.railGood fails l2) s = .next s ∧ exec (.railTimeout c) s = .next s) ∧
    (s.pm.raising = true → s.pm.rails + 1 < 5 → ∃ t, exec (.railGood fails l2) s = .next t ∧ t.out = .rail (s.pm.rails + 1) true :: s.out ∧
      t = { s with out := t.out, pm := { s.pm with rails := s.pm.rails + 1, tries := 0, raising := true } }) ∧
    (s.pm.raising = true → s.pm.rails = 4 → ∃ t, exec (.railGood fails l2) s = .next t ∧ .rail 5 true ∈ t.out ∧ (∀ d, d < 4 → .avs d (10 * s.profVolt s.pwr.inForce) ∈ t.out) ∧
      t = { s with out := t.out, pm := { s.pm with rails := 5, tries := 0, raising := true } }) ∧
    (s.pm.raising = true → s.pm.rails = 5 → s.pwr.s3 = true → ∃ t, exec (.railGood fails l2) s = .next t ∧ t.pm.rails = 6 ∧ t.pm.raising = false ∧ t.pwr.s3 = false ∧
      t.fld PWR_STATUS_PHASE 0 = 0 ∧ t.fld PWR_STATUS_EVENT 0 = 1 ∧ t.store = [] ∧ t.ctxs = [] ∧ t.hbm = {} ∧ t.media = s.media ∧ t.keyRam = s.keyRam) ∧
    (s.pm.raising = true → s.pm.rails = 5 → s.pwr.s3 = false → ∃ t, exec (.railGood fails l2) s = .next t ∧ t.pm.rails = 6 ∧ t.pm.raising = false ∧ t.pwr.volt = s.profVolt s.pwr.inForce ∧
      (∀ p, p < 4 → (t.port p).ready = (s.port p).up) ∧ (∀ k ∈ fails, bitsOf (t.fld DEV_STFAIL_FAIL 0 (k.val / 32)) (k.val % 32) 1 = 1) ∧ SameMemories s t) ∧
    (s.pm.raising = true → s.pm.tries = 0 → ∃ t, exec (.railTimeout c) s = .next t ∧ t.out = .rail s.pm.rails true :: s.out ∧
      t = { s with out := t.out, pm := { s.pm with tries := 1 } }) ∧
    (s.pm.raising = true → s.pm.tries ≠ 0 → ∃ t, exec (.railTimeout c) s = .next t ∧ t.pm.rails = 0 ∧ t.pm.raising = false ∧ t.pm.dead = true ∧ t.fld REC_STATUS_PWRCYC 0 = 1 ∧
      .pin "PWRCYC_REQ_N" 0 ∈ t.out ∧ (∀ d, d < 4 → t.carState d = 4) ∧ t.hbm = {} ∧ t.media = s.media)) ∧
  (∀ (faulty : List (BitVec 8)) (s : State), (s.pm.rails = 0 ∨ faulty = [] → exec (.pmbAlert faulty) s = .next s) ∧
    (s.pm.rails ≠ 0 → faulty ≠ [] → ∃ t, exec (.pmbAlert faulty) s = .next t ∧ t.pm.rails = 0 ∧ t.pm.raising = false ∧ t.pm.dead = true ∧ t.fld REC_STATUS_PWRCYC 0 = 1 ∧
      .pin "PWRCYC_REQ_N" 0 ∈ t.out ∧ (∀ i, i < s.pm.rails → .rail i false ∈ t.out) ∧ (∀ d, d < 4 → t.carState d = 4) ∧ t.hbm = {} ∧ t.media = s.media)) ∧
  (∀ s : State, (s.pm.inPor = true → exec .porAssert s = .next s) ∧ (s.pm.inPor = false → ∃ t, exec .porAssert s = .next t ∧ t.pm = {} ∧ t.coaches = [] ∧ t.store = [] ∧ t.hbm = {} ∧
      t.media = s.media ∧ t.keyRam = s.keyRam ∧ t.ctxs = [] ∧ t.net = {} ∧ (∀ i, i < s.pm.rails → .rail i false ∈ t.out) ∧ .uio 0 0 none ∈ t.out ∧
      (∀ f ∈ fldTable, f.lvl ≠ .none → f ∉ [KEY_STATUS_FUSEKEY, KEY_POLICY_ENCREQ, KEY_POLICY_FUSEONLY, DEV_FUSE_LOCKED, DEV_FUSE_DBGKEY] → ∀ u i, u < 2048 → t.fld f u i = f.rst) ∧
      (s.fld LOG_STATUS_BANK0OK 0 = 1 → s.fld LOG_STATUS_BANK1OK 0 ≠ 1 → ∀ k, k ≠ s.fld LOG_SEQ_NEXT 0 % 2048 → mget none t.log k = mget none s.log k)) ∧
    ∃ t, exec .powerRemoval s = .next t ∧ t.log = [] ∧ t.media = s.media ∧ t.keyRam = s.keyRam ∧ t.store = [] ∧ t.pm = {} ∧ t.out = .pin "LOGFAIL_N" 1 :: s.out ∧
      t.fld KEY_STATUS_RAMVALID 0 = s.fld KEY_STATUS_RAMVALID 0 % 2 ∧
      (∀ f ∈ fldTable, f ∉ [KEY_STATUS_FUSEKEY, KEY_STATUS_RAMVALID, KEY_STATUS_VBATOK, KEY_POLICY_ENCREQ, KEY_POLICY_FUSEONLY, DEV_FUSE_LOCKED, DEV_FUSE_DBGKEY] →
        ∀ u i, u < 2048 → t.fld f u i = f.rst)) ∧
  ∀ (mode : BitVec 2) (addr : BitVec 6) (vs : BitVec 4) (s : State), (s.pm.inPor = false → exec (.porRelease mode addr vs) s = .next s) ∧
    (s.pm.inPor = true → ∃ t, exec (.porRelease mode addr vs) s = .next t ∧ t.pm = { s.pm with inPor := false, raising := true, rails := 0, tries := 0 } ∧
      t.fld CFG_STRAP_MODE 0 = mode.toNat ∧ t.fld CFG_STRAP_ADDR 0 = addr.toNat ∧ t.fld CFG_SLOT_SLOT 0 = addr.toNat ∧ (∀ c, c < 4 → t.fld IOB_BANK_VSENSE c = bitsOf vs.toNat c 1) ∧
      .rail 0 true ∈ t.out ∧ (mode.toNat = 0 → t.fld CFG_STATE_STATE 0 = 1 ∧ t.fld CFG_STATE_SRC 0 = 2) ∧ (mode.toNat = 1 → t.fld CFG_STATE_STATE 0 = 1 ∧ t.fld CFG_STATE_SRC 0 = 3) ∧
      (2 ≤ mode.toNat → t.fld CFG_STATE_STATE 0 = s.fld CFG_STATE_STATE 0) ∧ SameMemories s t)

/-- A reported fault is recorded once and acted on by its level: stop, brake, coach recovery, carriage recovery or chip reset; hangs expire; recoveries end (R597, R598, R600, R601, R602, R603, R607, R609, R611, R612, R613, 16_faults_and_recovery.md). -/
def Obligations.FaultsStopResetAndRecover : Prop :=
  (∀ (host : List Byte) (s : State), s.withheld = false → s.reports = [] → exec (.faultReport (.queued host)) s = .next s) ∧
  (∀ (host : List Byte) (r : Report) (rest : List Report) (s : State), s.withheld = false → s.reports = r :: rest → r.cause < 0x20 → ∃ t, exec (.faultReport (.queued host)) s = .next t ∧
    (∃ more, t.reports = rest ++ more) ∧ (r.kind = 0 → t.reports = rest) ∧
    t.fld REC_FAULT_VALID 0 = 1 ∧ (s.fld REC_FAULT_VALID 0 = 1 → t.fld REC_FAULT_MORE 0 = 1 ∧ t.fld REC_FAULT_CAUSE 0 = s.fld REC_FAULT_CAUSE 0 ∧ t.fld REC_FAULTUNIT_UNIT 0 = s.fld REC_FAULTUNIT_UNIT 0) ∧
    (s.fld REC_FAULT_VALID 0 ≠ 1 → t.fld REC_FAULT_MORE 0 = 0 ∧ t.fld REC_FAULT_CAUSE 0 = r.cause ∧ t.fld REC_FAULTUNIT_UNIT 0 = r.unit % 2 ^ REC_FAULTUNIT_UNIT.w ∧
      t.fld REC_FAULTUNIT_CODE 0 = r.code % 2 ^ REC_FAULTUNIT_CODE.w ∧ t.fld REC_FAULT_CTXV 0 = b2n r.ctx.isSome) ∧
    (∀ n, r.ctx = some n → (s.ctx n).state = 1 → 0 < r.cause → (t.ctx n).state = 2 ∧ (t.ctx n).causes = (s.ctx n).causes ++ [r.cause] ∧
      ∀ k : Coach, s.boundCtx k = some n → (t.coach k).halted = true) ∧
    (∀ n, r.cause = 0 ∨ r.ctx ≠ some n → (t.ctx n).state = (s.ctx n).state) ∧ t.store = s.store ∧ t.bank = s.bank ∧ t.vreg = s.vreg) ∧
  (∀ (k : Coach) (code : BitVec 8) (s : State), s.withheld = false → ∃ t, exec (.faultReport (.coachErr k code)) s = .next t ∧ t.boundCtx k = none ∧ t.fld COA_STATE_STATE k = 0 ∧ k.val ∈ t.recov.coaches ∧
    (∀ a, a < storeSize → memByte t.store (k.val * storeSize + a) = 0) ∧ (∀ x, x / storeSize ≠ k.val → memByte t.store x = memByte s.store x) ∧ (∀ e, e < 131072 → t.bankWord k e = 0) ∧
    t.fld CAR_COACHREC_COUNT (carOf k) = min (2 ^ CAR_COACHREC_COUNT.w - 1) (s.fld CAR_COACHREC_COUNT (carOf k) + 1) ∧
    t.fld COA_ROLE_EPOCH k = s.fld COA_ROLE_EPOCH k ∧
    (∀ n, s.boundCtx k = some n → (s.ctx n).state ∈ [1, 2] → (t.ctx n).state = 3 ∧ (t.ctx n).cause = 6 ∧ k.val ∈ (t.ctx n).waitRec) ∧
    (∀ n, s.boundCtx k ≠ some n → (t.ctx n).state = (s.ctx n).state) ∧ t.hbm = s.hbm ∧ t.media = s.media) ∧
  (∀ (i : Instr) (c : Car) (s : State), s.withheld = false → mwf {} s.ctxs = true → (∃ (u : Fin 1024) (code : BitVec 8), u.val / 256 = c.val ∧ i = Instr.faultReport (.carErr u code)) ∨
      (∃ k : Coach, k.val ∈ s.recov.coaches ∧ carOf k = c.val ∧ i = Instr.coachRecoveryTimeout k) ∨
      (∃ (n : Ctx) (h : Fin 64), (s.ctx n).state = 3 ∧ s.fld DMA_CTX_BOUND c h = 1 ∧ s.fld DMA_CTX_CONTEXT c h = n ∧ i = Instr.brakeUnitTimeout n (.chan c h)) ∨
      (∃ (n : Ctx) (h : Fin 16), (s.ctx n).state = 3 ∧ s.fld FAB_PORTCTX_BOUND c h = 1 ∧ s.fld FAB_PORTCTX_CONTEXT c h = n ∧ i = Instr.brakeUnitTimeout n (.port c h)) →
    ∃ t, exec i s = .next t ∧ t.carState c = 3 ∧ c.val ∈ t.recov.cars ∧ t.fld FAB_STATE_STAGE c = 0 ∧ (∀ k, k < 96 → k / 24 = c.val → t.boundCtx k = none ∧
        (∀ a, a < storeSize → memByte t.store (k * storeSize + a) = 0) ∧ ∀ e, e < 131072 → t.bankWord k e = 0) ∧
      (∀ x, x / storeSize / 24 ≠ c.val → memByte t.store x = memByte s.store x) ∧ t.fld CAR_REC_COUNT c = min (2 ^ CAR_REC_COUNT.w - 1) (s.fld CAR_REC_COUNT c + 1) ∧
      (∀ n, (s.ctx n).state ∈ [1, 2] → (s.ctx n).part = s.partOf c → (t.ctx n).state = 3 ∧ (t.ctx n).cause = 7 ∧ 100 + c.val ∈ (t.ctx n).waitRec) ∧
      (∀ n, (s.ctx n).part ≠ s.partOf c → (t.ctx n).state = (s.ctx n).state) ∧ (∀ d, d < 4 → d ≠ c.val → t.carState d = s.carState d) ∧
      (s.lockRun = true → t.fld DEV_LSSTAT_STATE 0 = 3) ∧ t.hbm = s.hbm ∧ t.media = s.media) ∧
  (∀ (u : Fin 1024) (code : BitVec 8) (s : State), s.withheld = false → s.pm.wanted = none → s.pm.running = false → ∃ t, exec (.faultReport (.globalErr u code)) s = .next t ∧ t.pm = { s.pm with wanted := some 0x41 } ∧
    t.fld REC_FAULT_VALID 0 = 1 ∧ SameMemories s t ∧ t.ctxs = s.ctxs) ∧
  (∀ (c : Car) (s : State), s.withheld = false → (c.val ∉ s.recov.cars → exec (.carriageRecoveryDone c) s = .next s ∧ exec (.carriageRecoveryTimeout c) s = .next s) ∧
    (c.val ∈ s.recov.cars → mwf {} s.ctxs = true → (∃ t, exec (.carriageRecoveryDone c) s = .next t ∧ t.carState c = 0 ∧ c.val ∉ t.recov.cars ∧
        (t.fabS c).release = (s.fld FAB_STATE_LOADED c == 1) ∧ (∀ n, 100 + c.val ∉ (t.ctx n).waitRec ∧ (t.ctx n).state = (s.ctx n).state) ∧ SameMemories s t) ∧
      (s.pm.wanted = none → s.pm.running = false → ∃ t, exec (.carriageRecoveryTimeout c) s = .next t ∧ t.pm = { s.pm with wanted := some 0x40 } ∧ SameMemories s t))) ∧
  (∀ (k : Coach) (s : State), s.withheld = false → (k.val ∉ s.recov.coaches → exec (.coachRecoveryDone k) s = .next s ∧ exec (.coachRecoveryTimeout k) s = .next s) ∧
    (k.val ∈ s.recov.coaches → mwf {} s.ctxs = true → ∃ t, exec (.coachRecoveryDone k) s = .next t ∧ k.val ∉ t.recov.coaches ∧ (∀ n, k.val ∉ (t.ctx n).waitRec ∧ (t.ctx n).state = (s.ctx n).state) ∧
      t = { s with recov := t.recov, ctxs := t.ctxs })) ∧
  (∀ (n : Ctx) (s : State), Hits REC_CTXCMD_OP 0 0 s →
    ((s.ctx n).state = 2 → (∀ x ∈ (s.ctx n).causes, x = 0x11) → ∃ t, exec (.ctxResume n) s = .next t ∧ (t.ctx n).state = 1 ∧ (t.ctx n).causes = [] ∧
      (∀ k : Coach, s.boundCtx k = some n.val → (t.coach k).halted = false ∧ (s.fld COA_STATE_STATE k = 4 → t.fld COA_STATE_STATE k = if (s.coach k).ended = true then 1 else 2)) ∧ SameMemories s t) ∧
    ((s.ctx n).state ≠ 2 ∨ (∃ x ∈ (s.ctx n).causes, x ≠ 0x11) → ∃ t, exec (.ctxResume n) s = .next t ∧ t.fld REC_CTXSTAT_CMDERR 0 = 1 ∧ OnlyFields [(REC_CTXSTAT_CMDERR, 0, 0)] s t) ∧
    ((s.ctx n).state ∈ [1, 2] → ∃ t, exec (.recBrake n) s = .next t ∧ Braked n 1 s t) ∧ ((s.ctx n).state = 0 → exec (.recBrake n) s = .next s)) ∧
  (∀ (n : Ctx) (s : State), s.withheld = false →
    (∀ (k : Coach) (c : Car) (h : Fin 64) (p : Fin 16), (s.boundCtx k ≠ some n.val → exec (.brakeUnitTimeout n (.coach k)) s = .next s) ∧
      (s.fld DMA_CTX_BOUND c h ≠ 1 ∨ s.fld DMA_CTX_CONTEXT c h ≠ n → exec (.brakeUnitTimeout n (.chan c h)) s = .next s) ∧
      (s.fld FAB_PORTCTX_BOUND c p ≠ 1 ∨ s.fld FAB_PORTCTX_CONTEXT c p ≠ n → exec (.brakeUnitTimeout n (.port c p)) s = .next s)) ∧
    (∀ u, (s.ctx n).state ≠ 3 → exec (.brakeUnitTimeout n u) s = .next s) ∧
    (∀ k : Coach, (s.ctx n).state = 3 → s.boundCtx k = some n.val → ∃ t, exec (.brakeUnitTimeout n (.coach k)) s = .next t ∧ t.boundCtx k = none ∧ t.fld COA_STATE_STATE k = 0 ∧
      k.val ∈ t.recov.coaches ∧ k.val ∈ (t.ctx n).waitRec ∧ (t.ctx n).state = 3 ∧ (∀ a, a < storeSize → memByte t.store (k.val * storeSize + a) = 0) ∧ t.hbm = s.hbm)) ∧
  ∀ s : State, (s.lockRun = true → s.fld DEV_LSCYC_CYC 0 % s.slotLen ≠ 0 → exec .hangSample s = .next s) ∧
    (s.lockRun = false ∨ s.fld DEV_LSCYC_CYC 0 % s.slotLen = 0 → ∃ t, exec .hangSample s = .next t ∧ t.recov.sampled = s.aoCycles ∧
      (∀ e ∈ s.hangNow, mget 0 t.recov.seen e.1 = if mget 0 s.recov.seen e.1 = 0 then s.aoCycles + 1 else mget 0 s.recov.seen e.1) ∧
      (∀ k, (∀ e ∈ s.hangNow, e.1 ≠ k) → mget 0 t.recov.seen k = 0) ∧ t = { s with recov := t.recov }) ∧
    (s.withheld = false → (∀ e ∈ s.hangNow, s.expired e.1 = false) → exec .hangExpiry s = .next s) ∧
    (s.withheld = false → ∃ t, exec .hangExpiry s = .next t ∧ t.store = s.store ∧ t.hbm = s.hbm ∧ ∀ e ∈ s.hangNow, s.expired e.1 = true → mget 0 t.recov.seen e.1 = 0 ∧
      ((s.ctx e.2).state ∈ [1, 2] → (t.ctx e.2).state = 3 ∧ (t.ctx e.2).cause ∈ [4, 5]))

/-- A chip reset is asked for once, holds the compute part in reset and ends; heartbeats and the PM watchdog act; a power-fail warning saves the log tail (R614, R616, R617, R618, R619, R621, R622, R623, R625, R655, 16_faults_and_recovery.md). -/
def Obligations.ChipResetHeartbeatsAndPowerFail : Prop :=
  (∀ s : State,
    (s.pwr.s3 = true → exec .schedHeartbeatLoss s = .next s) ∧
    (s.pm.wanted = none → s.pm.running = false → (Hits REC_CTL_CHIPRST 0 0 s → ∃ t, exec .chiprstRequest s = .next t ∧ t.fld REC_CTL_CHIPRST 0 = 1 ∧ t.pm = { s.pm with wanted := some 0x43 } ∧
        t.fld REC_FAULT_VALID 0 = 1 ∧ SameMemories s t) ∧
      (s.pwr.s3 = false → ∃ t, exec .schedHeartbeatLoss s = .next t ∧ t.pm = { s.pm with wanted := some 0x42, schedOk := false } ∧ t.fld REC_FAULT_VALID 0 = 1 ∧ SameMemories s t)) ∧
    (s.pm.wanted.isSome = true ∨ s.pm.running = true → (Hits REC_CTL_CHIPRST 0 0 s → ∃ t, exec .chiprstRequest s = .next t ∧ t.pm = s.pm ∧ t.fld REC_CTL_CHIPRST 0 = 1 ∧ SameMemories s t) ∧
      (s.pwr.s3 = false → ∃ t, exec .schedHeartbeatLoss s = .next t ∧ t.pm = { s.pm with schedOk := false } ∧ SameMemories s t)) ∧
    exec .schedHeartbeat s = .next { s with pm := { s.pm with schedOk := true } } ∧
    (s.fld REC_STATUS_PMFAIL 0 ≠ 1 → s.pm.running = false → s.pm.inPor = false → ∃ t, exec .heartbeatToggle s = .next t ∧ t.out = .pin "HEARTBEAT" (b2n (!s.pm.beat)) :: s.out ∧
      t = { s with out := t.out, pm := { s.pm with beat := !s.pm.beat } }) ∧
    (s.fld REC_STATUS_PMFAIL 0 = 1 ∨ s.pm.running = true ∨ s.pm.inPor = true → exec .heartbeatToggle s = .next s) ∧
    (s.pairMode = 0 ∨ (s.withheld = false ∧ (s.fld CPL_STATE_STATE 0 = 7 ∨ s.pm.running = true)) → ∃ t, exec .pmWatchdogExpiry s = .next t ∧ t.fld REC_STATUS_PMFAIL 0 = 1 ∧ OnlyFields [(REC_STATUS_PMFAIL, 0, 0)] s t) ∧
    (s.pairMode ≠ 0 → s.withheld = false → s.fld CPL_STATE_STATE 0 ≠ 7 → s.pm.running = false → ∃ t, exec .pmWatchdogExpiry s = .next t ∧ t.fld REC_STATUS_PMFAIL 0 = 1 ∧ t.fld CPL_STATE_STATE 0 = 7 ∧
      (∀ (n : Nat) (k : Coach), s.pairRole n = 1 → (s.ctx n).state ≠ 0 → s.boundCtx k = some n → (t.coach k).halted = true) ∧ SameMemories s t)) ∧
  (∀ (host : List (Nat × List Byte)) (s : State), (s.pm.wanted = none ∨ s.pm.running = true → exec (.chipReset host) s = .next s) ∧
    ∀ cause, s.pm.wanted = some cause → s.pm.running = false → ∃ t, exec (.chipReset host) s = .next t ∧ t.pm.running = true ∧ t.pm.wanted = none ∧ t.coaches = [] ∧ t.ctxs = [] ∧ t.reports = [] ∧
      t.store = [] ∧ t.bank = [] ∧ t.vreg = [] ∧ t.sacc = [] ∧ t.tcs = [] ∧ t.net.wires = [] ∧ t.net.sheet = s.net.sheet ∧ t.arb = {} ∧ t.admBusy = none ∧
      (∀ f ∈ fldTable, f.lvl.rank ≤ 4 → ∀ u i, u < 2048 → t.fld f u i = f.rst) ∧ (∀ c, c < 4 → s.carState c ≠ 4 → t.carState c = 3) ∧ (∀ c, c < 4 → s.carState c = 4 → t.carState c = 4) ∧
      t.fld REC_STATUS_LASTCHIP 0 = cause % 2 ^ REC_STATUS_LASTCHIP.w ∧ t.fld REC_CHIPCNT_COUNT 0 = min (2 ^ REC_CHIPCNT_COUNT.w - 1) (s.fld REC_CHIPCNT_COUNT 0 + 1) ∧
      (∀ e, s.pm.lastEnd = some e → s.aoCycles < e + tenSeconds → t.pm.dead = true ∧ t.fld REC_STATUS_PWRCYC 0 = 1 ∧ .pin "PWRCYC_REQ_N" 0 ∈ t.out) ∧
      ((∀ e, s.pm.lastEnd = some e → e + tenSeconds ≤ s.aoCycles) → t.pm.dead = s.pm.dead)) ∧
  (∀ s : State, (s.pm.running = false ∨ s.pm.dead = true → exec .chipResetDone s = .next s ∧ exec .chipResetTimeout s = .next s) ∧
    (s.pm.running = true → s.pm.dead = false → (∃ t, exec .chipResetTimeout s = .next t ∧ t.pm.dead = true ∧ t.pm.running = true ∧ t.fld REC_STATUS_PWRCYC 0 = 1 ∧ .pin "PWRCYC_REQ_N" 0 ∈ t.out ∧ SameMemories s t) ∧
      ∃ t, exec .chipResetDone s = .next t ∧ t.pm.running = false ∧ t.pm.lastEnd = some s.aoCycles ∧ t.pm.schedOk = true ∧ (∀ c, c < 4 → s.carState c ≠ 3 → t.carState c = s.carState c) ∧
        (∀ c, c < 4 → s.carState c = 3 → t.carState c = 0 ∧ (t.fabS c).release = (s.fld FAB_STATE_LOADED c == 1)) ∧ t.fld REC_STATUS_EVENT 0 = 1 ∧ t.fld CPL_STATE_STATE 0 = (if s.pairMode = 0 then 0 else 1) ∧ t.store = s.store ∧ t.media = s.media)) ∧
  ∀ s : State, (s.fld REC_STATUS_PFW 0 = 1 → exec .pfwAssert s = .next s) ∧ (s.fld REC_STATUS_PFW 0 ≠ 1 → exec .pfwEnd s = .next s) ∧
    (s.fld REC_STATUS_PFW 0 ≠ 1 → ∃ t, exec .pfwAssert s = .next t ∧ t.fld REC_STATUS_PFW 0 = 1 ∧ t.fld REC_STATUS_EVENT 0 = 1 ∧ t.pwr.entry = none ∧
      (s.pwr.entry.isSome = true → t.fld PWR_STATUS_REFUSED 0 = 1 ∧ t.fld PWR_STATUS_REFUSER 0 = 1 ∧ t.fld PWR_STATUS_REASON 0 = 3) ∧
      (s.lockRun = true → t.fld DEV_LSSTAT_STATE 0 = 3 ∧ t.fld DEV_LSSTAT_CODE 0 = 0xA) ∧ t.store = s.store ∧ t.hbm = s.hbm ∧
      ((∀ b, b < 4 → s.bayState b ≠ 3 ∨ s.fld TND_JRNLEN_LEN b = 0) → t.media = s.media) ∧
      ∀ b a, b < 4 → s.bayState b = 3 → s.fld TND_JRNLEN_LEN b ≠ 0 → (∀ d, d < b → s.bayState d ≠ 3 ∨ s.fld TND_JRNLEN_LEN d = 0) →
        a = s.fld TND_JRNBASE_BASE b * 64 + (s.fld TND_JRNLEN_LEN b - 1) * 65536 → memRead t.media (mediaKey b a + 8) 2 = [3, 0] ∧
          ∀ x, x < mediaKey b a ∨ mediaKey b a + 32 + 32 * s.fld LOG_PFWN_COUNT 0 ≤ x → memByte t.media x = memByte s.media x) ∧
    (s.fld REC_STATUS_PFW 0 = 1 → ∃ t, exec .pfwEnd s = .next t ∧ t.fld REC_STATUS_PFW 0 = 0 ∧ (∀ b, b < 4 → s.bayState b ∈ [3, 5] → ∀ a ∈ (t.bay b).acc, a.sent = true) ∧
      (∀ b, b < 4 → s.bayState b ∉ [3, 5] → t.bay b = s.bay b) ∧ SameMemories s t)

/-- The maintenance arbiter grants, queues or refuses a request, grants what an end frees, aborts a lockstep that holds one; a self-test clears its coach (R632, R633, R634, R635, R670, R671, R672, 16_faults_and_recovery.md, 18_test_and_perturbation.md). -/
def Obligations.MaintenanceIsGrantedQueuedOrRefused : Prop :=
  (∀ a b : MReq, conflict a b = conflict b a) ∧
  (∀ (kind : Fin 8) (unit : Nat) (host : Bool) (r : MReq) (s : State), r = { kind := kind, unit := unit % 1024, host := host } → s.withheld = false → (host = true → s.answersAt (REC_MNTREQ_KIND.bar0 0 0) = true) →
    (kind.val = 0 ∨ kind.val = 7 → exec (.maintRequest kind unit host) s = .next s) ∧
    (kind.val = 6 → s.fld COA_STATE_STATE r.unit ≠ 0 → ∃ t, exec (.maintRequest kind unit host) s = .next t ∧ (host = false → t = s) ∧
      (host = true → t.fld REC_MNTSTAT_RESULT 0 = 3 ∧ OnlyFields [(REC_MNTSTAT_RESULT, 0, 0)] s t)) ∧
    (kind.val ≠ 0 → kind.val ≠ 7 → (kind.val = 6 → s.fld COA_STATE_STATE r.unit = 0) →
      (s.lockRun = false → s.fld REC_STATUS_PFW 0 ≠ 1 → (∀ x ∈ s.arb.running ++ s.arb.queue, conflict r x = false) → (∀ c ∈ r.cars, s.stoppedAt 7 c = false) → ∃ t, exec (.maintRequest kind unit host) s = .next t ∧
        t.arb.running = s.arb.running ++ [r] ∧ t.arb.queue = s.arb.queue ∧ Logged 0x0501 schedUnit kind r.unit s t ∧
        (host = true → t.fld REC_MNTSTAT_RESULT 0 = 0 ∧ t.fld REC_MNTSTAT_EVENT 0 = 1) ∧ t.fld REC_MNTSTAT_QUEUED 0 = s.arb.queue.length % 2 ^ 5 ∧
        t.fld REC_MNTSTAT_RUNNING 0 = (s.arb.running.length + 1) % 2 ^ 6 ∧ t = { s with fields := t.fields, arb := t.arb, log := t.log, out := t.out } ∧
        SameFields ((if host = true then [(REC_MNTSTAT_RESULT, 0, 0), (REC_MNTSTAT_EVENT, 0, 0)] else []) ++ [(REC_MNTSTAT_QUEUED, 0, 0), (REC_MNTSTAT_RUNNING, 0, 0)] ++ logFlds) s t) ∧
      (s.lockRun = true ∨ s.fld REC_STATUS_PFW 0 = 1 ∨ (∃ x ∈ s.arb.running ++ s.arb.queue, conflict r x = true) ∨ (∃ c ∈ r.cars, s.stoppedAt 7 c = true) →
        (s.arb.queue.length < 16 → ∃ t, exec (.maintRequest kind unit host) s = .next t ∧ t.arb = { s.arb with queue := s.arb.queue ++ [r] } ∧
          (host = true → t.fld REC_MNTSTAT_RESULT 0 = 1) ∧ t.fld REC_MNTSTAT_QUEUED 0 = s.arb.queue.length + 1 ∧ t.fld REC_MNTSTAT_RUNNING 0 = s.arb.running.length % 2 ^ 6 ∧
          t = { s with fields := t.fields, arb := t.arb } ∧ SameFields ((if host = true then [(REC_MNTSTAT_RESULT, 0, 0)] else []) ++ [(REC_MNTSTAT_QUEUED, 0, 0), (REC_MNTSTAT_RUNNING, 0, 0)]) s t) ∧
        (16 ≤ s.arb.queue.length → ∃ t, exec (.maintRequest kind unit host) s = .next t ∧ (host = false → t = s) ∧
          (host = true → t.fld REC_MNTSTAT_RESULT 0 = 2 ∧ OnlyFields [(REC_MNTSTAT_RESULT, 0, 0)] s t))))) ∧
  (∀ (kind : Fin 8) (unit : Nat) (s : State), ((∀ x ∈ s.arb.running, x.kind ≠ kind.val ∨ x.unit ≠ unit) → exec (.maintEnd kind unit) s = .next s) ∧
    ∀ pre r post, s.arb.running = pre ++ r :: post → r.kind = kind.val → r.unit = unit → (∀ x ∈ pre, x.kind ≠ kind.val ∨ x.unit ≠ unit) → ∃ t, exec (.maintEnd kind unit) s = .next t ∧
      (t.arb.running ++ t.arb.queue).Perm (pre ++ post ++ s.arb.queue) ∧ (r.host = true → t.fld REC_MNTSTAT_EVENT 0 = 1) ∧
      (s.lockRun = false → s.fld REC_STATUS_PFW 0 ≠ 1 → QueueWaits s t) ∧ (s.lockRun = true ∨ s.fld REC_STATUS_PFW 0 = 1 ∨ s.arb.queue = [] → t.arb = { running := pre ++ post, queue := s.arb.queue } ∧
        Logged 0x0502 schedUnit kind unit s t) ∧
      t.fld REC_MNTSTAT_QUEUED 0 = t.arb.queue.length % 2 ^ 5 ∧ t.fld REC_MNTSTAT_RUNNING 0 = t.arb.running.length % 2 ^ 6 ∧
      t = { s with fields := t.fields, arb := t.arb, log := t.log, out := t.out } ∧
      SameFields ([(REC_MNTSTAT_EVENT, 0, 0), (REC_MNTSTAT_QUEUED, 0, 0), (REC_MNTSTAT_RUNNING, 0, 0)] ++ logFlds) s t) ∧
  (∀ s : State, (s.lockRun = false ∨ s.arb.queue = [] → exec .maintDeferExpiry s = .next s) ∧
    (s.lockRun = true → s.arb.queue ≠ [] → ∃ t, exec .maintDeferExpiry s = .next t ∧ t.fld DEV_LSSTAT_STATE 0 = 3 ∧ t.fld DEV_LSSTAT_CODE 0 = 9 ∧ t.fld DEV_LSSTAT_EVENT 0 = 1 ∧
      t.fld DEV_LSEND_CYC 0 = s.fld DEV_LSCYC_CYC 0 % 2 ^ DEV_LSEND_CYC.w ∧ (∀ l, l < 26 → (s.link l).carried = true → ∀ g ∈ linkLanes s.couplerAside l, (t.laneS g).abortMarks = 4) ∧
      (t.arb.running ++ t.arb.queue).Perm (s.arb.running ++ s.arb.queue) ∧ (s.fld REC_STATUS_PFW 0 ≠ 1 → QueueWaits s t) ∧ SameMemories s t)) ∧
  ∀ (k : Coach) (part : BitVec 6) (s : State), ((∀ x ∈ s.arb.running, x.kind ≠ 6 ∨ x.unit ≠ k.val) → exec (.coachSelfTestDone k part) s = .next s) ∧
    ∀ pre r post, s.arb.running = pre ++ r :: post → r.kind = 6 → r.unit = k.val → (∀ x ∈ pre, x.kind ≠ 6 ∨ x.unit ≠ k.val) → ∃ t, exec (.coachSelfTestDone k part) s = .next t ∧
      (∀ a, memByte t.store a = if a / storeSize = k.val then 0 else memByte s.store a) ∧ (∀ j e, e < 131072 → t.bankWord j e = if j = k.val then 0 else s.bankWord j e) ∧
      (t.coach k).set0 = {} ∧ (t.coach k).set1 = {} ∧ (∀ j, j ≠ k.val → t.coach j = s.coach j) ∧ (∀ j n i, n < 64 → i < 512 → j ≠ k.val → t.lane j n i = s.lane j n i) ∧
      (∀ j, j < 96 → (t.fld DEV_STFAIL_FAIL 0 (j / 32)).testBit (j % 32) = if j = k.val then part != 0 else (s.fld DEV_STFAIL_FAIL 0 (j / 32)).testBit (j % 32)) ∧
      t.fld DEV_STRES_COACH 0 = k.val ∧ t.fld DEV_STRES_RESULT 0 = (if part = 0 then 1 else 2) ∧ t.fld DEV_STRES_PART 0 = part.toNat ∧ t.fld DEV_STRES_EVENT 0 = 1 ∧
      (t.arb.running ++ t.arb.queue).Perm (pre ++ post ++ s.arb.queue) ∧ t.seqMem = s.seqMem ∧ t.hbm = s.hbm ∧ t.media = s.media ∧
      SameFields ([(DEV_STFAIL_FAIL, 0, k.val / 32), (DEV_STRES_COACH, 0, 0), (DEV_STRES_RESULT, 0, 0), (DEV_STRES_PART, 0, 0), (DEV_STRES_EVENT, 0, 0), (REC_MNTSTAT_EVENT, 0, 0),
        (REC_MNTSTAT_QUEUED, 0, 0), (REC_MNTSTAT_RUNNING, 0, 0)] ++ logFlds) s t

/-- The test access port shifts its registers and drives the pins only where allowed; a debug level opens by a response; perturbation and eFuses are guarded (R514, R666, R667, R668, R669, R673, R674, R675, R676, R678, R683, 18_test_and_perturbation.md). -/
def Obligations.BoundaryScanAndDebugAccess : Prop :=
  (∀ (pins shift : List Bool) (s : State),
    (∃ (t : State) (tdo : List Bool), exec (.bypass shift) s = .next t ∧ t = { s with tap := { ir := 1, cells := s.tap.cells }, out := .tdo tdo :: .scan 0 s.tap.cells :: s.out } ∧
      tdo.length = shift.length ∧ ∀ i, i < shift.length → tdo.getD i false = if i = 0 then false else shift.getD (i - 1) false) ∧
    (∃ (t : State) (tdo : List Bool), exec .idcode s = .next t ∧ t = { s with tap := { ir := 0, cells := s.tap.cells }, out := .tdo tdo :: .scan 0 s.tap.cells :: s.out } ∧ tdo.length = 32 ∧
      ∀ i, i < 32 → tdo.getD i false = if i = 0 then true else if i < 12 then Config.maker.testBit (i - 1) else if i < 28 then (0x9C96 : Nat).testBit (i - 12) else (s.fld DEV_ID_STEPL 0).testBit (i - 28)) ∧
    (∃ (t : State) (tdo cells : List Bool), exec (.samplePreload pins shift) s = .next t ∧ t = { s with tap := { ir := 2, cells := cells }, out := .scan 0 cells :: .tdo tdo :: s.out } ∧
      tdo.length = shift.length ∧ cells.length = pins.length ∧ tdo ++ cells = pins ++ shift) ∧
    (∃ t, exec .tapReset s = .next t ∧ t = { s with tap := { ir := 0, cells := [] }, out := .scan 0 [] :: s.out }) ∧
    ((s.fld CFG_STATE_STATE 0 = 0 ∨ s.fld CFG_STATE_STATE 0 = 6) → (∀ k, k < 96 → s.fld COA_ROLE_BOUND k ≠ 1) → (∀ c h, c < 4 → h < 64 → s.fld DMA_CTX_BOUND c h ≠ 1) →
      (∀ c n, c < 4 → n < 16 → s.fld FAB_PORTCTX_BOUND c n ≠ 1) →
      (∀ i ir, (i, ir) ∈ [(Instr.extest pins shift, 3), (Instr.extestPulse pins shift, 6), (Instr.extestTrain pins shift, 7)] → ∃ (t : State) (tdo cells : List Bool), exec i s = .next t ∧
        t = { s with tap := { ir := ir, cells := cells }, out := .scan ir cells :: .tdo tdo :: s.out } ∧ tdo.length = shift.length ∧ tdo ++ cells = pins ++ shift) ∧
      ∀ i ir, (i, ir) ∈ [(Instr.clamp pins shift, 4), (Instr.highz pins shift, 5)] → ∃ (t : State) (tdo : List Bool), exec i s = .next t ∧
        t = { s with tap := { ir := ir, cells := s.tap.cells }, out := .tdo tdo :: .scan ir s.tap.cells :: s.out } ∧ tdo.length = shift.length ∧
        ∀ i, i < shift.length → tdo.getD i false = if i = 0 then false else shift.getD (i - 1) false) ∧
    ((s.fld CFG_STATE_STATE 0 ≠ 0 ∧ s.fld CFG_STATE_STATE 0 ≠ 6) ∨ (∃ k, k < 96 ∧ s.fld COA_ROLE_BOUND k = 1) ∨ (∃ c h, c < 4 ∧ h < 64 ∧ s.fld DMA_CTX_BOUND c h = 1) ∨
        (∃ c n, c < 4 ∧ n < 16 ∧ s.fld FAB_PORTCTX_BOUND c n = 1) →
      ∀ i, i ∈ [Instr.extest pins shift, .extestPulse pins shift, .extestTrain pins shift, .clamp pins shift, .highz pins shift] → exec i s = exec (.bypass shift) s)) ∧
  (∀ (level : Bool) (s : State), Hits DEV_DBG_REQ 0 0 s → (s.fld DEV_DBG_LOCKED 0 = 1 → exec (.debugRequest level) s = .next s) ∧
    (s.fld DEV_DBG_LOCKED 0 ≠ 1 → ∃ t, exec (.debugRequest level) s = .next t ∧ t.dbgNonce = true ∧ t.dbgLevel = (if level = true then 2 else 1) ∧
      (∀ w, w < 4 → t.fld DEV_DBGNONCE_NONCE 0 w = Config.free (s.freeIx + w) % 2 ^ 32) ∧
      t = { s with fields := t.fields, freeIx := s.freeIx + 4, dbgNonce := true, dbgLevel := t.dbgLevel } ∧ SameFields ((List.range 4).map (fun w => (DEV_DBGNONCE_NONCE, 0, w))) s t)) ∧
  (∀ (v : BitVec 32) (s : State) (want given : Nat), Hits DEV_DBGRESP_RESP 0 7 s → want = Config.debugResponse s.dbgKey (s.wordsOf DEV_DBGNONCE_NONCE 4) s.dbgLevel % 2 ^ 256 →
    given = s.wordsOf DEV_DBGRESP_RESP 7 + v.toNat * 2 ^ 224 →
    (s.dbgNonce = false → ∃ t, exec (.debugResponseSubmit v) s = .next t ∧ t.fld DEV_DBGRESP_RESP 0 7 = v.toNat ∧ OnlyFields [(DEV_DBGRESP_RESP, 0, 7)] s t) ∧
    (s.dbgNonce = true → ∃ t, exec (.debugResponseSubmit v) s = .next t ∧ t.dbgNonce = false ∧ t.fld DEV_DBG_EVENT 0 = 1 ∧ t.fld DEV_DBGRESP_RESP 0 7 = v.toNat ∧
      (s.dbgKey ≠ 0 → given = want → t.fld DEV_DBG_LEVEL 0 = s.dbgLevel % 4 ∧ t.fld DEV_DBG_FAILS 0 = s.fld DEV_DBG_FAILS 0 ∧ t.fld DEV_DBG_LOCKED 0 = s.fld DEV_DBG_LOCKED 0 ∧
        Logged 0x0801 0x60 s.dbgLevel 0 s t) ∧
      (s.dbgKey = 0 ∨ given ≠ want → t.fld DEV_DBG_LEVEL 0 = s.fld DEV_DBG_LEVEL 0 ∧ t.fld DEV_DBG_FAILS 0 = min 3 (s.fld DEV_DBG_FAILS 0 + 1) ∧
        t.fld DEV_DBG_LOCKED 0 = (if 2 ≤ s.fld DEV_DBG_FAILS 0 then 1 else s.fld DEV_DBG_LOCKED 0) ∧ Logged 0x0802 0x60 (min 3 (s.fld DEV_DBG_FAILS 0 + 1)) 0 s t) ∧
      t = { s with fields := t.fields, dbgNonce := false, log := t.log, out := t.out } ∧
      SameFields ([(DEV_DBGRESP_RESP, 0, 7), (DEV_DBG_EVENT, 0, 0), (DEV_DBG_LEVEL, 0, 0), (DEV_DBG_FAILS, 0, 0), (DEV_DBG_LOCKED, 0, 0)] ++ logFlds) s t)) ∧
  (∀ s : State, Hits DEV_DBG_REQ 0 0 s → ∃ t, exec .debugClose s = .next t ∧ (∀ f ∈ [DEV_DBG_LEVEL, DEV_PERTSTR_EN, DEV_PERTNOC_EN, DEV_PERTMEM_EN], t.fld f 0 = 0) ∧
    OnlyFields [(DEV_DBG_LEVEL, 0, 0), (DEV_PERTSTR_EN, 0, 0), (DEV_PERTNOC_EN, 0, 0), (DEV_PERTMEM_EN, 0, 0)] s t) ∧
  (∀ (which : Fin 3) (v : BitVec 32) (s : State), Hits (if which = 0 then DEV_PERTSTR_EN else if which = 1 then DEV_PERTNOC_EN else DEV_PERTMEM_EN) 0 0 s → (s.fld DEV_DBG_LEVEL 0 = 0 → exec (.pertWrite which v) s = .next s) ∧
    (s.fld DEV_DBG_LEVEL 0 ≠ 0 → ∃ t, exec (.pertWrite which v) s = .next t ∧
      (which = 0 → t.fld DEV_PERTSTR_EN 0 = v.toNat % 2 ∧ t.fld DEV_PERTSTR_LOG2P 0 = v.toNat / 2 % 2 ^ 4 ∧ t.fld DEV_PERTSTR_STALL 0 = v.toNat / 2 ^ 5 % 2 ^ 11 ∧
        t.fld DEV_PERTSTR_CARMASK 0 = v.toNat / 2 ^ 16 % 2 ^ 4 ∧ t.pertFrom = s.coachCycles ∧ t = { s with fields := t.fields, pertFrom := t.pertFrom } ∧
        SameFields [(DEV_PERTSTR_EN, 0, 0), (DEV_PERTSTR_LOG2P, 0, 0), (DEV_PERTSTR_STALL, 0, 0), (DEV_PERTSTR_CARMASK, 0, 0)] s t) ∧
      (which = 1 → t.fld DEV_PERTNOC_EN 0 = v.toNat % 2 ∧ t.fld DEV_PERTNOC_CARRIAGE 0 = v.toNat / 2 % 2 ^ 2 ∧ t.fld DEV_PERTNOC_ROUTER 0 = v.toNat / 2 ^ 3 % 2 ^ 6 ∧
        t.fld DEV_PERTNOC_PORT 0 = v.toNat / 2 ^ 9 % 2 ^ 3 ∧ t.fld DEV_PERTNOC_HOLD 0 = v.toNat / 2 ^ 12 % 2 ^ 8 ∧
        OnlyFields [(DEV_PERTNOC_EN, 0, 0), (DEV_PERTNOC_CARRIAGE, 0, 0), (DEV_PERTNOC_ROUTER, 0, 0), (DEV_PERTNOC_PORT, 0, 0), (DEV_PERTNOC_HOLD, 0, 0)] s t) ∧
      (which = 2 → t.fld DEV_PERTMEM_EN 0 = v.toNat % 2 ∧ t.fld DEV_PERTMEM_EXTRA 0 = v.toNat / 2 % 2 ^ 7 ∧ t.fld DEV_PERTMEM_CARMASK 0 = v.toNat / 2 ^ 8 % 2 ^ 4 ∧
        OnlyFields [(DEV_PERTMEM_EN, 0, 0), (DEV_PERTMEM_EXTRA, 0, 0), (DEV_PERTMEM_CARMASK, 0, 0)] s t))) ∧
  ∀ (s : State) (v : Nat), Hits DEV_FUSE_PROG 0 0 s → v = s.words8 DEV_FUSEDATA_DATA →
    (s.fuses.locked = true ∨ (s.fld DEV_FUSE_TARGET 0 = 0 ∧ s.fuses.image ≠ 0) ∨ (s.fld DEV_FUSE_TARGET 0 = 1 ∧ s.fuses.debug ≠ 0) ∨ (s.fld DEV_FUSE_TARGET 0 = 2 ∧ s.fuses.policy ≠ 0) →
      ∃ t, exec .fuseProgram s = .next t ∧ t.fld DEV_FUSE_ERR 0 = 1 ∧ t.fld DEV_FUSE_PROG 0 = 0 ∧ OnlyFields [(DEV_FUSE_ERR, 0, 0), (DEV_FUSE_PROG, 0, 0)] s t) ∧
    (s.fuses.locked = false → (s.fld DEV_FUSE_TARGET 0 = 0 → s.fuses.image = 0) → (s.fld DEV_FUSE_TARGET 0 = 1 → s.fuses.debug = 0) → (s.fld DEV_FUSE_TARGET 0 = 2 → s.fuses.policy = 0) →
      ∃ t, exec .fuseProgram s = .next t ∧ (∀ w, w < 8 → t.fld DEV_FUSEDATA_DATA 0 w = 0) ∧ t.fld DEV_FUSE_PROG 0 = 0 ∧
        t.fuses.image = (if s.fld DEV_FUSE_TARGET 0 = 0 then v else s.fuses.image) ∧ t.fuses.debug = (if s.fld DEV_FUSE_TARGET 0 = 1 then v else s.fuses.debug) ∧
        t.fuses.policy = (if s.fld DEV_FUSE_TARGET 0 = 2 then v % 4 else s.fuses.policy) ∧ t.fuses.locked = false ∧ t = { s with fields := t.fields, fuses := t.fuses } ∧
        SameFields ((DEV_FUSE_PROG, 0, 0) :: (List.range 8).map (fun w => (DEV_FUSEDATA_DATA, 0, w))) s t)

/-- A heartbeat record goes out on every coupler link that is UP; numbered records apply in order and are acknowledged, a gap discards and desynchronises (R639, R641, R642, R644, R646, R648, R649, R651, R662, 17_coupled_pairs.md). -/
def Obligations.MirrorRecordsAreAppliedInOrder : Prop :=
  (∀ s : State, (s.pairMode = 0 ∨ s.beats = false ∨ s.pm.schedOk = false ∨ s.fld CPL_STATE_STATE 0 = 7 → exec .heartbeatRecordSend s = .next s) ∧
    (s.pairMode ≠ 0 → s.beats = true → s.pm.schedOk = true → s.fld CPL_STATE_STATE 0 ≠ 7 → ∃ t, exec .heartbeatRecordSend s = .next t ∧ t = { s with links := t.links } ∧
      (∀ k, k < 2 → s.linkUp (24 + k) = true → ∃ t1 : State, (t1.link (24 + k) = t.link (24 + k)) ∧ Offered (24 + k) (mirrorOut k 0 1 0 0 s.beatData) s t1) ∧
      ∀ l, (l ≠ 24 ∧ l ≠ 25) ∨ s.linkUp l = false → t.link l = s.link l)) ∧
  (∀ (i : Instr) (k : Fin 2) (kind : Nat) (host : List Byte) (s : State),
    (i, kind) ∈ [(Instr.mirrorContext k, 3), (Instr.mirrorQueue k host, 4), (Instr.mirrorJournal k, 5), (Instr.mirrorHbm k, 6), (Instr.sweepend k, 8)] →
    (mget [] s.pair.intake k = [] → exec i s = .next s) ∧
    (∀ r rest, mget [] s.pair.intake k = r :: rest → r.kind ≠ kind ∨ mget 0 s.pair.jrnBusy k ≠ 0 → exec i s = .next s) ∧
    (∀ r rest, FrontRecord k kind r rest s → mget 0 s.pair.dropping k = 1 → exec i s = .next { s with pair := { s.pair with intake := mset [] s.pair.intake k rest } }) ∧
    ∀ r rest, FrontRecord k kind r rest s → mget 0 s.pair.dropping k ≠ 1 → r.mseq ≠ (mget 0 s.pair.applied k + 1) % 2 ^ 32 → ∃ t, exec i s = .next t ∧
      mget [] t.pair.intake k = rest ∧ mget 0 t.pair.dropping k = 1 ∧ t.pair.applied = s.pair.applied ∧ t.ctxs = s.ctxs ∧ t.hbmc = s.hbmc ∧ t.bays = s.bays ∧ SameMemories s t ∧
      (s.fld CPL_STATE_STATE 0 ∈ [2, 3, 6] → t.fld CPL_STATE_STATE 0 = 5 ∧ t.fld CPL_STATE_REASON 0 = 5 ∧ t.fld CPL_STATE_EVENT 0 = 1) ∧
      (s.fld CPL_STATE_STATE 0 ∉ [2, 3, 6] → t = { s with pair := t.pair })) ∧
  (∀ (k : Fin 2) (r : MRec) (rest : List MRec) (s : State), InOrder k 3 r rest s → ∃ t, exec (.mirrorContext k) s = .next t ∧ RecordApplied k r rest s t ∧
    (∀ n, t.ctx n = if n = r.ctx ∧ s.pairRole n = 2 ∧ (s.ctx n).state ≠ 0 ∧ (r.data.getD 0 0 = 1 ∨ r.data.getD 0 0 = 2) then { s.ctx n with state := r.data.getD 0 0 } else s.ctx n) ∧
    t = { s with pair := t.pair, ctxs := t.ctxs, links := t.links }) ∧
  (∀ (k : Fin 2) (host : List Byte) (r : MRec) (rest : List MRec) (s : State) (ring no : Nat) (q : QueueS), InOrder k 4 r rest s → ring = r.data.getD 0 0 % 64 → q = s.queue r.ctx ring →
    no = leNat ((r.data.drop 10).take 4) → ∃ t, exec (.mirrorQueue k host) s = .next t ∧ mget [] t.pair.intake k = rest ∧ mget 0 t.pair.applied k = r.mseq ∧ SameMemories s t ∧
    (s.lockRun = false ∨ r.data.getD 1 0 < 3 ∨ s.pairRole r.ctx ≠ 2 → RecordApplied k r rest s t) ∧
    (∀ n j, n ≠ r.ctx ∨ j ≠ ring ∨ s.pairRole n ≠ 2 → t.queue n j = s.queue n j) ∧
    (s.pairRole r.ctx = 2 → r.data.getD 1 0 = 0 → t.queue r.ctx ring = { q with posted := q.posted + (leNat ((r.data.drop 2).take 2) + 2 ^ q.log2 - q.tail) % 2 ^ q.log2, tail := leNat ((r.data.drop 2).take 2) }) ∧
    (s.pairRole r.ctx = 2 → r.data.getD 1 0 = 1 → t.queue r.ctx ring = { q with running := (t.queue r.ctx ring).running, taken := max q.taken (no + 1), head := leNat ((r.data.drop 4).take 2) } ∧
      ∀ w, w ∈ (t.queue r.ctx ring).running ↔ w = { no := no } ∨ (w ∈ q.running ∧ w.no ≠ no)) ∧
    (s.pairRole r.ctx = 2 → r.data.getD 1 0 = 2 → (∀ w, w ∈ (t.queue r.ctx ring).running ↔ w ∈ q.running ∧ w.no ≠ no) ∧ (t.queue r.ctx ring).doneTop = max q.doneTop (no + 1) ∧
      (t.queue r.ctx ring).cqTail = (leNat ((r.data.drop 6).take 2) + 1) % 2 ^ q.log2 ∧
      (t.queue r.ctx ring).phase = (if (leNat ((r.data.drop 6).take 2) + 1) % 2 ^ q.log2 = 0 then !(r.data.getD 8 0 == 1) else r.data.getD 8 0 == 1)) ∧
    (s.pairRole r.ctx = 2 → 3 ≤ r.data.getD 1 0 → (t.queue r.ctx ring).en = (r.data.getD 9 0 == 1) ∧ (t.queue r.ctx ring).tail = leNat ((r.data.drop 2).take 2) ∧
      (t.queue r.ctx ring).head = leNat ((r.data.drop 4).take 2) ∧ (t.queue r.ctx ring).cqTail = leNat ((r.data.drop 6).take 2) ∧ (t.queue r.ctx ring).phase = (r.data.getD 8 0 == 1) ∧
      (t.queue r.ctx ring).taken = no ∧ (t.queue r.ctx ring).doneTop = no ∧ (t.queue r.ctx ring).running = [])) ∧
  (∀ (k : Fin 2) (r : MRec) (rest : List MRec) (s : State), InOrder k 6 r rest s → ∃ t, exec (.mirrorHbm k) s = .next t ∧ RecordApplied k r rest s t ∧ SameMemories s t ∧ t.ctxs = s.ctxs ∧
    (0 < r.data.length → r.addr % 256 + r.data.length ≤ 256 → t.hbmPeek (r.addr % 2 ^ 39) r.data.length = r.data)) ∧
  (∀ (k : Fin 2) (r : MRec) (rest : List MRec) (s : State) (b : Nat), b = s.fld CPL_PJRN_BAY 0 → InOrder k 5 r rest s →
    (s.fld CPL_PJRN_EN 0 = 1 → r.addr + r.data.length ≤ s.fld CPL_PJRNLEN_LEN 0 * 65536 → ∃ (t : State) (p : Packet), exec (.mirrorJournal k) s = .next t ∧
      (t.bay b).inq = (s.bay b).inq ++ [p] ∧ p.addr = s.fld CPL_PJRNBASE_BASE 0 * 64 + r.addr ∧ p.data = r.data ∧ p.vn = 5 ∧ mget 0 t.pair.jrnBusy k = r.mseq + 1 ∧
      t.pair.applied = s.pair.applied ∧ mget [] t.pair.intake k = rest ∧ (∀ d, d ≠ b → t.bay d = s.bay d) ∧ t = { s with pair := t.pair, bays := t.bays }) ∧
    (s.fld CPL_PJRN_EN 0 ≠ 1 ∨ s.fld CPL_PJRNLEN_LEN 0 * 65536 < r.addr + r.data.length → ∃ t, exec (.mirrorJournal k) s = .next t ∧ t.bays = s.bays ∧ mget 0 t.pair.dropping k = 1 ∧
      t.pair.applied = s.pair.applied ∧ (s.fld CPL_STATE_STATE 0 = 3 → t.fld CPL_STATE_STATE 0 = 5))) ∧
  (∀ (k : Fin 2) (r : MRec) (rest : List MRec) (s : State), InOrder k 8 r rest s → ∃ t, exec (.sweepend k) s = .next t ∧ RecordApplied k r rest s t ∧ mget 0 t.pair.sweepIn k = 2 ∧
    SameMemories s t ∧ t.ctxs = s.ctxs ∧ (s.fld CPL_STATE_STATE 0 ≠ 2 → t.fld CPL_STATE_STATE 0 = s.fld CPL_STATE_STATE 0) ∧
    (s.fld CPL_STATE_STATE 0 = 2 → mwf 0 s.pair.sweepIn = true → (∀ e ∈ s.pair.sweepIn, e.1 = k.val ∨ e.2 = 2) → (s.pair.sweepEnd = [] ∨ ∀ e ∈ s.ctxs, s.pairRole e.1 ≠ 1) →
      t.fld CPL_STATE_STATE 0 = 3 ∧ t.fld CPL_STATE_REASON 0 = 7 ∧ t.fld CPL_STATE_EVENT 0 = 1) ∧
    (s.fld CPL_STATE_STATE 0 = 2 → (∃ e ∈ s.ctxs, s.pairRole e.1 = 2) → (∃ j, j ≠ k.val ∧ mget 0 s.pair.sweepIn j ∈ [1, 3]) → t.fld CPL_STATE_STATE 0 = 2)) ∧
  (∀ (k : Fin 2) (s : State), (mget [] s.pair.intake k = [] → exec (.sweepstart k) s = .next s) ∧ ∀ r rest, mget [] s.pair.intake k = r :: rest → (r.kind ≠ 7 → exec (.sweepstart k) s = .next s) ∧
    (r.kind = 7 → s.pairMode ≠ 0 → s.fld CPL_STATE_STATE 0 ∉ [0, 7] → s.linkUp (24 + k) = true → mwf {} s.ctxs = true → (∀ n, mwf {} (s.ctx n).queues = true) →
      ∃ t, exec (.sweepstart k) s = .next t ∧ mget [] t.pair.intake k = rest ∧ mget 0 t.pair.applied k = r.mseq ∧ mget 0 t.pair.dropping k = 0 ∧ mget 0 t.pair.jrnBusy k = 0 ∧
        mget 0 t.pair.sweepIn k = 1 ∧ t.fld CPL_STATE_STATE 0 = 2 ∧ SameMemories s t ∧ (∀ n, s.pairRole n ≠ 2 ∨ (k.val = 0 ∧ s.linkUp 25 = true) → t.ctx n = s.ctx n) ∧
        ∀ n j, s.pairRole n = 2 → k.val = 1 ∨ s.linkUp 25 = false → t.queue n j = { enabledQueue (s.queue n j) with en := (s.queue n j).en })) ∧
  ∀ (k : Fin 2) (s : State), ((∀ x ∈ mget [] s.pair.intake k, x.kind ≠ 1) → exec (.mirrorHeartbeat k) s = .next s) ∧ ((∀ x ∈ mget [] s.pair.intake k, x.kind ≠ 2) → exec (.mirrorAck k) s = .next s) ∧
    (∀ pre r post, PlainRecord k 2 pre r post s → (∀ b, (s.bay b).reqList = []) → ∃ t, exec (.mirrorAck k) s = .next t ∧ mget [] t.pair.intake k = pre ++ post ∧
      t.pair.partner = r.data.getD 0 0 % 8 ∧ (∀ j, j < 2 → t.fld CPL_ACKED_MSEQ 0 j = ackNo r j % 2 ^ 32) ∧ SameMemories s t ∧ t.ctxs = s.ctxs ∧
      (r.data.getD 0 0 % 8 = 5 → s.pair.partner ∈ [2, 3] → s.fld CPL_STATE_STATE 0 ∈ [2, 3, 6] → t.fld CPL_STATE_STATE 0 = 5) ∧
      (r.data.getD 0 0 % 8 ≠ 5 → s.fld CPL_STATE_STATE 0 ≠ 2 → t.fld CPL_STATE_STATE 0 = s.fld CPL_STATE_STATE 0) ∧
      (r.data.getD 0 0 % 8 ≠ 5 → s.fld CPL_STATE_STATE 0 = 2 → (∀ e ∈ s.pair.sweepEnd, (ackNo r e.1 + 2 ^ 32 - e.2) % 2 ^ 32 < 2 ^ 31) → (∀ e ∈ s.ctxs, s.pairRole e.1 ≠ 2) →
        t.fld CPL_STATE_STATE 0 = 3 ∧ t.fld CPL_STATE_REASON 0 = 7 ∧ ((∃ e ∈ s.ctxs, s.pairRole e.1 = 1) → Logged 0x0707 schedUnit (s.pair.swept % 2 ^ 32) 0 s t))) ∧
    ∀ pre r post, PlainRecord k 1 pre r post s → (∀ b, (s.bay b).reqList = []) → ∃ t, exec (.mirrorHeartbeat k) s = .next t ∧ mget [] t.pair.intake k = pre ++ post ∧
      t.pair.partner = r.data.getD 0 0 % 8 ∧ t.fld CPL_STATE_HBCUR 0 = 1 ∧ (∀ j, j < 2 → t.fld CPL_ACKED_MSEQ 0 j = ackNo r j % 2 ^ 32) ∧ SameMemories s t ∧ t.ctxs = s.ctxs ∧
      (s.fld CPL_STATE_STATE 0 = 1 → s.fld CPL_CTL_RESYNC 0 ≠ 1 → t.fld CPL_STATE_STATE 0 = 1) ∧
      (s.fld CPL_STATE_STATE 0 = 1 → s.fld CPL_CTL_RESYNC 0 = 1 → t.fld CPL_CTL_RESYNC 0 = 0) ∧
      (s.fld CPL_STATE_STATE 0 = 1 ∧ s.fld CPL_CTL_RESYNC 0 = 1 ∨ s.pairMode ≠ 0 ∧ s.fld CPL_STATE_STATE 0 ∈ [4, 5] ∧ r.data.getD 0 0 % 8 ∈ [4, 5] →
        ((∀ e ∈ s.ctxs, s.pairRole e.1 ≠ 1) → t.fld CPL_STATE_STATE 0 = s.fld CPL_STATE_STATE 0) ∧
        ((∃ e ∈ s.ctxs, s.pairRole e.1 = 1) → s.linkUp 24 = true ∨ s.linkUp 25 = true → t.fld CPL_STATE_STATE 0 = 2)) ∧
      (s.fld CPL_STATE_STATE 0 ∈ [4, 5] → r.data.getD 0 0 % 8 ∉ [4, 5] → t.fld CPL_STATE_STATE 0 = s.fld CPL_STATE_STATE 0)

/-- The pair's indications lead to SPLIT, a fault, WAITWIT or a takeover; RESYNC starts a resynchronisation; a role changes only on an idle LIVE context (R638, R643, R651, R652, R653, R656, R660, R661, R662, 17_coupled_pairs.md). -/
def Obligations.PairIndicationsDecideTheState : Prop :=
  (∀ (i : Instr) (f : Fld) (b : Bool) (s : State), s.withheld = false → (i, f, b) ∈ [(Instr.partnerLost, CPL_STATE_HBCUR, false), (Instr.partnerAliveLost, CPL_STATE_PALIVE, false), (Instr.partnerAliveEdge, CPL_STATE_PALIVE, true),
      (Instr.witTokenHeld, CPL_STATE_WIT, true), (Instr.witTokenLow, CPL_STATE_WIT, false)] → ∃ t, exec i s = .next t ∧
    t.fld f 0 = b2n b ∧ (∀ g ∈ [CPL_STATE_HBCUR, CPL_STATE_PALIVE, CPL_STATE_WIT], g ≠ f → t.fld g 0 = s.fld g 0) ∧ t.store = s.store ∧ t.hbm = s.hbm ∧ t.media = s.media ∧
    (t.pairRow = s.pairRow ∨ s.pairMode = 0 ∨ s.fld CPL_STATE_STATE 0 ∈ [0, 7] ∨ t.pairRow = 0 ∨ (t.pairRow = 3 ∧ s.fld CPL_STATE_STATE 0 ∉ [3, 6]) → OnlyFields [(f, 0, 0)] s t) ∧
    (s.pairMode ≠ 0 → s.fld CPL_STATE_STATE 0 ∉ [0, 7] → t.pairRow ≠ s.pairRow →
      (t.fld CPL_STATE_HBCUR 0 ≠ 1 → t.fld CPL_STATE_PALIVE 0 = 1 → t.fld CPL_STATE_STATE 0 = 4 ∧ t.fld CPL_STATE_REASON 0 = 2 ∧ t.fld CPL_STATE_EVENT 0 = 1 ∧ Logged 0x0702 schedUnit 0 0 s t ∧
        t.ctxs = s.ctxs ∧ ∀ n, t.pairRole n = s.pairRole n) ∧
      (t.fld CPL_STATE_HBCUR 0 = 1 → t.fld CPL_STATE_PALIVE 0 ≠ 1 → t.fld CPL_STATE_STATE 0 = s.fld CPL_STATE_STATE 0 ∧ t.fld CPL_STATE_REASON 0 = 3 ∧ t.fld CPL_STATE_EVENT 0 = 1 ∧
        Logged 0x0703 schedUnit 0 0 s t ∧ t.ctxs = s.ctxs ∧ ∀ n, t.pairRole n = s.pairRole n) ∧
      (t.fld CPL_STATE_HBCUR 0 ≠ 1 → t.fld CPL_STATE_PALIVE 0 ≠ 1 → t.fld CPL_STATE_WIT 0 ≠ 1 → t.fld CPL_STATE_STATE 0 = (if s.fld CPL_STATE_STATE 0 = 3 then 6 else s.fld CPL_STATE_STATE 0) ∧
        t.fld CPL_STATE_REASON 0 = 4 ∧ t.fld CPL_STATE_EVENT 0 = 1 ∧ Logged 0x0704 schedUnit 0 0 s t ∧ t.ctxs = s.ctxs ∧ ∀ n, t.pairRole n = s.pairRole n) ∧
      (t.fld CPL_STATE_HBCUR 0 ≠ 1 → t.fld CPL_STATE_PALIVE 0 ≠ 1 → t.fld CPL_STATE_WIT 0 = 1 → s.fld CPL_STATE_STATE 0 ∈ [3, 6] → (∀ k, mget [] s.pair.intake k = []) →
        mwf {} s.ctxs = true → (∀ n, mwf {} (s.ctx n).queues = true) →
        t.fld CPL_STATE_STATE 0 = 1 ∧ t.fld CPL_STATE_REASON 0 = 1 ∧ t.fld CPL_STATE_EVENT 0 = 1 ∧ t.pair.closed = true ∧ (∀ n, (s.ctx n).state ≠ 0 → s.pairRole n = 2 → t.pairRole n = 1) ∧
        (∀ n, s.pairRole n ≠ 2 → t.pairRole n = s.pairRole n ∧ t.ctx n = s.ctx n) ∧
        ∀ n j, (s.ctx n).state ≠ 0 → s.pairRole n = 2 → ((s.queue n j).en = false → t.queue n j = s.queue n j) ∧ ((s.queue n j).en = true →
          (t.queue n j).head = (s.queue n j).doneTop % 2 ^ (s.queue n j).log2 ∧ (t.queue n j).running = [] ∧ (t.queue n j).tail = (s.queue n j).tail ∧
          (t.queue n j).cqTail = (s.queue n j).cqTail ∧ (t.queue n j).phase = (s.queue n j).phase ∧ (t.queue n j).used ≤ 2 ^ (s.queue n j).log2 ∧
          ∀ no, no ∈ (t.queue n j).repost ↔ no < (s.queue n j).taken ∧ ∃ w ∈ (s.queue n j).running, w.no = no)))) ∧
  (∀ s : State, Hits CPL_CTL_RESYNC 0 0 s → (s.fld CPL_STATE_STATE 0 ≠ 1 → ∃ t, exec .resync s = .next t ∧ t.fld CPL_CTL_RESYNC 0 = 0 ∧ OnlyFields [(CPL_CTL_RESYNC, 0, 0)] s t) ∧
    (s.fld CPL_STATE_STATE 0 = 1 → s.fld CPL_STATE_HBCUR 0 ≠ 1 → ∃ t, exec .resync s = .next t ∧ t.fld CPL_CTL_RESYNC 0 = 1 ∧ OnlyFields [(CPL_CTL_RESYNC, 0, 0)] s t) ∧
    (s.fld CPL_STATE_STATE 0 = 1 → s.fld CPL_STATE_HBCUR 0 = 1 → ∃ t, exec .resync s = .next t ∧ t.fld CPL_CTL_RESYNC 0 = 0 ∧ t.pair.sweepIn = [] ∧ t.ctxs = s.ctxs ∧ SameMemories s t ∧
      ((∀ e ∈ s.ctxs, s.pairRole e.1 ≠ 1) → t.fld CPL_STATE_STATE 0 = 1 ∧ t.links = s.links) ∧
      ((∃ e ∈ s.ctxs, s.pairRole e.1 = 1) → s.linkUp 24 = true ∨ s.linkUp 25 = true → t.fld CPL_STATE_STATE 0 = 2 ∧
        ∀ k, k < 2 → s.linkUp (24 + k) = true → ∃ m, (k, m) ∈ t.pair.sweepEnd ∧ m = t.fld CPL_SENT_MSEQ 0 k))) ∧
  ∀ (role : Fin 4) (s : State) (n : Nat), Hits CPL_CTXROLE_ROLE 0 0 s → n = s.fld CPL_CTXSEL_CONTEXT 0 →
    ((s.ctx n).state ≠ 1 ∨ (∃ e ∈ (s.ctx n).queues, e.2.running ≠ []) → exec (.ctxRoleWrite role) s = .next s) ∧
    ((s.ctx n).state = 1 → (∀ e ∈ (s.ctx n).queues, e.2.running = []) → ∃ t, exec (.ctxRoleWrite role) s = .next t ∧ t.fld CPL_CTXROLE_ROLE 0 n = role ∧
      (∀ m, m ≠ n → t.fld CPL_CTXROLE_ROLE 0 m = s.fld CPL_CTXROLE_ROLE 0 m) ∧ t.ctxs = s.ctxs ∧ SameMemories s t ∧
      (s.mirroring = false ∨ (s.pairRole n ≠ 1 ∧ role.val ≠ 1) → OnlyFields [(CPL_CTXROLE_ROLE, 0, n)] s t) ∧
      (s.mirroring = true → s.pairRole n = 1 ∨ role.val = 1 → s.linkUp 25 = true → t.fld CPL_SENT_MSEQ 0 1 = (s.fld CPL_SENT_MSEQ 0 1 + 1) % 2 ^ 32 ∧
        Offered 25 (mirrorOut 1 ((s.fld CPL_SENT_MSEQ 0 1 + 1) % 2 ^ 32) 3 n 0 ([1, t.pairRole n] ++ List.replicate 14 0)) s t))
end

