-- ==== Sys2Proof/Laws/Events.lean ====
section
/-! SUPPORT. How an event from outside the lockstep domains fares (R54, R310): at once, in the queue of a slot boundary, or as a stray access. -/

namespace Sys2Proof.Machine

/-- Outside a running lockstep, and while a slot boundary admits, an event has its effect at once. -/
theorem State.outsideAt_now {s : State} (h : s.withheld = false) (rank due : Nat) (i : Instr) (eff : State → Res) : s.outsideAt rank due i eff = eff s := by
  simp [State.outsideAt, h]

/-- The same of an event that may enter at the next boundary. -/
theorem State.outside_now {s : State} (h : s.withheld = false) (rank : Nat) (i : Instr) (eff : State → Res) : s.outside rank i eff = eff s :=
  State.outsideAt_now h rank 0 i eff

/-- While lockstep runs an event waits, and nothing else changes. -/
theorem State.outsideAt_waits {s : State} (h : s.withheld = true) (rank due : Nat) (i : Instr) (eff : State → Res) :
    s.outsideAt rank due i eff = .next { s with lock := { s.lock with waiting := s.lock.waiting ++ [⟨rank, due, i⟩] } } := by
  simp [State.outsideAt, h, ok]

/-- A write of a register field that is a command of its own, where the register answers. -/
theorem State.regEvent_now {s : State} {f : Fld} {u idx : Nat} {hi : Bool} (ha : s.answersAt (f.bar0 u idx + 4 * b2n hi) = true) (h : s.withheld = false)
    (i : Instr) (eff : State → Res) : s.regEvent f u idx i eff hi = eff s := by
  simp [State.regEvent, ha, State.outside_now h]

/-- A write of such a field where the register does not answer: the access is completed and recorded (R54, R56), and has no effect. -/
theorem State.regEvent_silent {s : State} {f : Fld} {u idx : Nat} {hi : Bool} (ha : s.answersAt (f.bar0 u idx + 4 * b2n hi) = false) (i : Instr)
    (eff : State → Res) : s.regEvent f u idx i eff hi = .next (s.missed .silent (f.bar0 u idx + 4 * b2n hi) true) := by
  simp [State.regEvent, ha, ok]

/-- A device without a running lockstep withholds nothing. -/
theorem State.withheld_of_not_running {s : State} (h : s.fld DEV_LSSTAT_STATE 0 ≠ 2) : s.withheld = false := by
  simp [State.withheld, State.lockRun, h]

end Sys2Proof.Machine
end

