-- ==== Sys2Proof/Laws/Maps.lean ====
section
/-! SUPPORT. Laws of the sparse maps: every operation keeps the canonical form, and a read after a write. -/

namespace Sys2Proof.Machine

variable {α : Type} [DecidableEq α]

/-- The canonical form as a proposition: keys rise strictly above the bound, and no value is the default. -/
theorem mwfFrom_iff (d : α) (b : Option Nat) (m : SMap α) :
    mwfFrom d b m = true ↔ (∀ e ∈ m, ∀ x, b = some x → x < e.1) ∧ m.Pairwise (fun x y => x.1 < y.1) ∧ ∀ e ∈ m, e.2 ≠ d := by
  induction m generalizing b with
  | nil => simp [mwfFrom]
  | cons e m ih =>
    obtain ⟨j, v⟩ := e
    simp only [mwfFrom, Bool.and_eq_true, ih, List.pairwise_cons, List.mem_cons, forall_eq_or_imp, decide_eq_true_eq]
    cases b with
    | none => simp; tauto
    | some x =>
      simp only [decide_eq_true_eq, Option.some.injEq, forall_eq']
      constructor
      · rintro ⟨⟨h1, h2⟩, h3, h4, h5⟩
        exact ⟨⟨h1, fun e he => lt_trans h1 (h3 e he)⟩, ⟨h3, h4⟩, h2, h5⟩
      · rintro ⟨⟨h1, -⟩, ⟨h3, h4⟩, h2, h5⟩
        exact ⟨⟨h1, h2⟩, h3, h4, h5⟩

/-- The canonical form: strictly rising keys, no default value. -/
theorem mwf_iff (d : α) (m : SMap α) : mwf d m = true ↔ m.Pairwise (fun x y => x.1 < y.1) ∧ ∀ e ∈ m, e.2 ≠ d := by
  simp [mwf, mwfFrom_iff]

/-- Entries of an insertion. -/
theorem mem_mins {m : SMap α} {k : Nat} {v : α} {e : Nat × α} : e ∈ mins m k v ↔ e = (k, v) ∨ e ∈ m := by
  induction m with
  | nil => simp [mins]
  | cons x m ih =>
    obtain ⟨j, w⟩ := x
    simp only [mins]
    split <;> simp [ih]
    tauto

/-- An insertion at a key that is not listed keeps keys rising. -/
theorem pairwise_mins {m : SMap α} {k : Nat} {v : α} (hp : m.Pairwise (fun x y => x.1 < y.1)) (hk : ∀ e ∈ m, e.1 ≠ k) :
    (mins m k v).Pairwise (fun x y => x.1 < y.1) := by
  induction m with
  | nil => simp [mins]
  | cons x m ih =>
    obtain ⟨j, w⟩ := x
    obtain ⟨h1, h2⟩ := List.pairwise_cons.1 hp
    have hj : j ≠ k := hk (j, w) List.mem_cons_self
    simp only [mins]
    split
    · refine List.pairwise_cons.2 ⟨fun e he => ?_, hp⟩
      rcases List.mem_cons.1 he with rfl | he
      · assumption
      · exact lt_trans ‹_› (h1 e he)
    · refine List.pairwise_cons.2 ⟨fun e he => ?_, ih h2 (fun e he => hk e (List.mem_cons_of_mem _ he))⟩
      rcases mem_mins.1 he with rfl | he
      · simp only; omega
      · exact h1 e he

/-- A write keeps the canonical form. -/
theorem mwf_mset {d : α} {m : SMap α} (k : Nat) (v : α) (h : mwf d m = true) : mwf d (mset d m k v) = true := by
  rw [mwf_iff] at *
  obtain ⟨hp, hv⟩ := h
  have hp' : (m.filter (fun e => decide (e.1 ≠ k))).Pairwise (fun x y => x.1 < y.1) := hp.filter _
  simp only [mset]
  split
  · exact ⟨hp', fun e he => hv e (List.mem_filter.1 he).1⟩
  · refine ⟨pairwise_mins hp' (fun e he => by simpa using (List.mem_filter.1 he).2), fun e he => ?_⟩
    rcases mem_mins.1 he with rfl | he
    · assumption
    · exact hv e (List.mem_filter.1 he).1

/-- An update keeps the canonical form. -/
theorem mwf_mupd {d : α} {m : SMap α} (k : Nat) (f : α → α) (h : mwf d m = true) : mwf d (mupd d m k f) = true := mwf_mset k _ h

/-- Dropping entries keeps the canonical form. -/
theorem mwf_mdrop {d : α} {m : SMap α} (p : Nat → Bool) (h : mwf d m = true) : mwf d (mdrop p m) = true := by
  rw [mwf_iff] at *
  exact ⟨h.1.filter _, fun e he => h.2 e (List.mem_of_mem_filter he)⟩

/-- Changing every value keeps the canonical form. -/
theorem mwf_mmap {d : α} {m : SMap α} (f : α → α) (h : mwf d m = true) : mwf d (mmap d f m) = true := by
  rw [mwf_iff] at *
  refine ⟨List.Pairwise.filter _ (List.pairwise_map.2 h.1), fun e he => ?_⟩
  simpa using (List.mem_filter.1 he).2

/-- The empty map is canonical. -/
@[simp] theorem mwf_nil (d : α) : mwf d ([] : SMap α) = true := rfl

/-- A block write keeps the canonical form. -/
theorem mwf_mblock {d : α} {m : SMap α} (base : Nat) (vs : List α) (h : mwf d m = true) : mwf d (mblock d m base vs) = true := by
  rw [mwf_iff] at *
  obtain ⟨hp, hv⟩ := h
  have hblk : ∀ (vs : List α) (b : Nat), ((((vs.zipIdx b).filter (fun e => decide (e.1 ≠ d))).map (fun e => (e.2, e.1)))).Pairwise
      (fun x y : Nat × α => x.1 < y.1) ∧
      ∀ e ∈ (((vs.zipIdx b).filter (fun e => decide (e.1 ≠ d))).map (fun e => (e.2, e.1))), b ≤ e.1 ∧ e.1 < b + vs.length ∧ e.2 ≠ d := by
    intro vs
    induction vs with
    | nil => intro b; simp
    | cons v vs ih =>
      intro b
      obtain ⟨h1, h2⟩ := ih (b + 1)
      have h2' : ∀ e ∈ (((vs.zipIdx (b + 1)).filter (fun e => decide (e.1 ≠ d))).map (fun e => (e.2, e.1))),
          b < e.1 ∧ e.1 < b + (vs.length + 1) ∧ e.2 ≠ d := fun e he => ⟨by have := (h2 e he).1; omega, by have := (h2 e he).2.1; omega, (h2 e he).2.2⟩
      rw [List.zipIdx_cons, List.filter_cons]
      split
      · rename_i hvd
        simp only [List.map_cons, List.pairwise_cons, List.mem_cons, List.length_cons]
        refine ⟨⟨fun e he => (h2' e he).1, h1⟩, fun e he => ?_⟩
        rcases he with rfl | he
        · exact ⟨le_refl _, by simp, by simpa using hvd⟩
        · exact ⟨le_of_lt (h2' e he).1, (h2' e he).2.1, (h2' e he).2.2⟩
      · exact ⟨h1, fun e he => ⟨le_of_lt (h2' e he).1, (h2' e he).2.1, (h2' e he).2.2⟩⟩
  obtain ⟨hb1, hb2⟩ := hblk vs base
  simp only [mblock]
  constructor
  · rw [List.pairwise_append, List.pairwise_append]
    refine ⟨⟨hp.filter _, hb1, fun x hx y hy => ?_⟩, hp.filter _, fun x hx y hy => ?_⟩
    · have := (List.mem_filter.1 hx).2
      simp only [decide_eq_true_eq] at this
      exact lt_of_lt_of_le this (hb2 y hy).1
    · have hy' := (List.mem_filter.1 hy).2
      simp only [decide_eq_true_eq] at hy'
      rcases List.mem_append.1 hx with hx | hx
      · have := (List.mem_filter.1 hx).2
        simp only [decide_eq_true_eq] at this
        omega
      · have := (hb2 x hx).2.1
        omega
  · intro e he
    rcases List.mem_append.1 he with he | he
    · rcases List.mem_append.1 he with he | he
      · exact hv e (List.mem_filter.1 he).1
      · exact (hb2 e he).2.2
    · exact hv e (List.mem_filter.1 he).1

/-! ### A read after a write, of any map -/

omit [DecidableEq α] in
/-- A key that is not listed reads as the default. -/
theorem mget_not_listed {d : α} {m : SMap α} {k : Nat} (h : ∀ e ∈ m, e.1 ≠ k) : mget d m k = d := by
  induction m with
  | nil => rfl
  | cons x m ih =>
    simp only [mget, if_neg (h x List.mem_cons_self)]
    exact ih (fun e he => h e (List.mem_cons_of_mem _ he))

omit [DecidableEq α] in
/-- Dropping entries of other keys changes no read. -/
theorem mget_filter {d : α} (m : SMap α) (p : Nat × α → Bool) (k : Nat) (h : ∀ v, p (k, v) = true) : mget d (m.filter p) k = mget d m k := by
  induction m with
  | nil => rfl
  | cons x m ih =>
    obtain ⟨j, w⟩ := x
    rw [List.filter_cons]
    by_cases hj : j = k
    · subst hj; simp [h, mget]
    · split <;> simp [mget, hj, ih]

omit [DecidableEq α] in
/-- Reads of a concatenation. -/
theorem mget_append {d : α} (m n : SMap α) (k : Nat) : mget d (m ++ n) k = if ∃ e ∈ m, e.1 = k then mget d m k else mget d n k := by
  induction m with
  | nil => simp
  | cons x m ih =>
    obtain ⟨j, w⟩ := x
    by_cases hj : j = k
    · simp [mget, hj]
    · simp only [List.cons_append, mget, ih, List.exists_mem_cons_iff, hj, false_or, if_false]

omit [DecidableEq α] in
theorem mget_mins {d : α} {m : SMap α} {k : Nat} (v : α) (j : Nat) (hk : ∀ e ∈ m, e.1 ≠ k) :
    mget d (mins m k v) j = if j = k then v else mget d m j := by
  induction m with
  | nil => simp [mins, mget, eq_comm]
  | cons x m ih =>
    obtain ⟨i, w⟩ := x
    have hi : i ≠ k := hk (i, w) List.mem_cons_self
    simp only [mins]
    split
    · simp [mget, eq_comm]
    · simp only [mget, ih (fun e he => hk e (List.mem_cons_of_mem _ he))]
      split <;> simp_all

/-- A read after a write. -/
theorem mget_mset (d : α) (m : SMap α) (k : Nat) (v : α) (j : Nat) : mget d (mset d m k v) j = if j = k then v else mget d m j := by
  simp only [mset]
  have hk : ∀ e ∈ m.filter (fun e => decide (e.1 ≠ k)), e.1 ≠ k := fun e he => by simpa using (List.mem_filter.1 he).2
  by_cases hj : j = k
  · subst hj
    rw [if_pos rfl]
    split
    · rw [mget_not_listed hk]; exact Eq.symm ‹_›
    · rw [mget_mins v j hk, if_pos rfl]
  · rw [if_neg hj, ← mget_filter (d := d) m (fun e => decide (e.1 ≠ k)) j (fun v => by simpa using hj)]
    split
    · rfl
    · rw [mget_mins v j hk, if_neg hj]

/-- Reading back what was written. -/
@[simp] theorem mget_mset_same (d : α) (m : SMap α) (k : Nat) (v : α) : mget d (mset d m k v) k = v := by simp [mget_mset]

/-- A write leaves every other key alone. -/
theorem mget_mset_other {d : α} {m : SMap α} {k j : Nat} (v : α) (hj : j ≠ k) : mget d (mset d m k v) j = mget d m j := by simp [mget_mset, hj]

/-- A read after an update. -/
theorem mget_mupd (d : α) (m : SMap α) (k : Nat) (f : α → α) (j : Nat) : mget d (mupd d m k f) j = if j = k then f (mget d m k) else mget d m j :=
  mget_mset d m k _ j

omit [DecidableEq α] in
/-- A read after entries were dropped. -/
theorem mget_mdrop (d : α) (p : Nat → Bool) (m : SMap α) (k : Nat) : mget d (mdrop p m) k = if p k then d else mget d m k := by
  by_cases h : p k
  · simp only [mdrop, h, if_true]
    exact mget_not_listed (fun e he => by rintro rfl; have := (List.mem_filter.1 he).2; simp [h] at this)
  · simp only [mdrop, h]
    rw [mget_filter _ _ _ (by simp [h])]
    simp

omit [DecidableEq α] in
/-- A slice holds what its keys read as. -/
theorem mslice_eq (d : α) (m : SMap α) (a n : Nat) : mslice d m a n = (List.range n).map (fun i => mget d m (a + i)) := by
  simp only [mslice]
  refine List.map_congr_left (fun i hi => mget_filter _ _ _ (fun v => ?_))
  have := List.mem_range.1 hi
  simp [this]

omit [DecidableEq α] in
/-- Length of a slice. -/
@[simp] theorem mslice_length (d : α) (m : SMap α) (a n : Nat) : (mslice d m a n).length = n := by simp [mslice_eq]

/-- The entries of a block, read back. -/
theorem mget_block (d : α) (vs : List α) (b k : Nat) :
    mget d ((((vs.zipIdx b).filter (fun e => decide (e.1 ≠ d))).map (fun e => (e.2, e.1)))) k =
      if b ≤ k then vs.getD (k - b) d else d := by
  induction vs generalizing b with
  | nil => simp [mget]
  | cons v vs ih =>
    rw [List.zipIdx_cons, List.filter_cons]
    by_cases hb : b = k
    · subst hb
      split
      · simp [mget]
      · rw [ih]; simp_all
    · have h2 : (if b + 1 ≤ k then vs.getD (k - (b + 1)) d else d) = if b ≤ k then (v :: vs).getD (k - b) d else d := by
        by_cases hk : b + 1 ≤ k
        · rw [if_pos hk, if_pos (by omega), show k - b = (k - (b + 1)) + 1 by omega]; simp
        · rw [if_neg hk, if_neg (by omega)]
      split
      · simp only [List.map_cons, mget, if_neg hb]; rw [ih, h2]
      · rw [ih, h2]

/-- A read after a block write: inside the block what was written, outside it what stood there. -/
theorem mget_mblock (d : α) (m : SMap α) (b : Nat) (vs : List α) (k : Nat) :
    mget d (mblock d m b vs) k = if b ≤ k ∧ k < b + vs.length then vs.getD (k - b) d else mget d m k := by
  simp only [mblock]
  have hblk : ∀ e ∈ (((vs.zipIdx b).filter (fun e => decide (e.1 ≠ d))).map (fun e => (e.2, e.1))), b ≤ e.1 ∧ e.1 < b + vs.length := by
    intro e he
    obtain ⟨x, hx, rfl⟩ := List.mem_map.1 he
    have := List.mem_zipIdx (List.mem_filter.1 hx).1
    simp only; omega
  by_cases h1 : k < b
  · rw [if_neg (by omega), mget_append, mget_append]
    have e1 : mget d (m.filter (fun e => decide (e.1 < b))) k = mget d m k := mget_filter _ _ _ (by simp [h1])
    have e3 : mget d (m.filter (fun e => decide (b + vs.length ≤ e.1))) k = d :=
      mget_not_listed (fun e he => by have := (List.mem_filter.1 he).2; simp at this; omega)
    by_cases hm : ∃ e ∈ m.filter (fun e => decide (e.1 < b)), e.1 = k
    · obtain ⟨e, he, hek⟩ := hm
      rw [if_pos ⟨e, List.mem_append_left _ he, hek⟩, if_pos ⟨e, he, hek⟩, e1]
    · have hd : mget d m k = d := by rw [← e1]; exact mget_not_listed (fun e he h => hm ⟨e, he, h⟩)
      rw [if_neg, e3, hd]
      rintro ⟨e, he, hek⟩
      rcases List.mem_append.1 he with he | he
      · exact hm ⟨e, he, hek⟩
      · have := (hblk e he).1; omega
  · have e0 : ∀ e ∈ m.filter (fun e => decide (e.1 < b)), e.1 ≠ k := fun e he => by
      have := (List.mem_filter.1 he).2; simp at this; omega
    rw [List.append_assoc, mget_append _ _ k, if_neg (by rintro ⟨e, he, h⟩; exact e0 e he h)]
    by_cases h2 : k < b + vs.length
    · rw [if_pos (show b ≤ k ∧ k < b + vs.length from ⟨by omega, h2⟩), mget_append]
      have e3 : mget d (m.filter (fun e => decide (b + vs.length ≤ e.1))) k = d :=
        mget_not_listed (fun e he => by have := (List.mem_filter.1 he).2; simp at this; omega)
      have := mget_block d vs b k
      rw [if_pos (by omega)] at this
      split
      · exact this
      · rename_i hn
        rw [e3, ← this]
        exact (mget_not_listed (fun e he h => hn ⟨e, he, h⟩)).symm
    · rw [if_neg (show ¬(b ≤ k ∧ k < b + vs.length) by omega), mget_append, if_neg]
      · exact mget_filter _ _ _ (fun v => by simp; omega)
      · rintro ⟨e, he, hek⟩; have := (hblk e he).2; omega

end Sys2Proof.Machine
end

