-- ==== Sys2Proof/Laws/Fields.lean ====
section
/-! SUPPORT. Laws of the register fields: a read after a write, and what a write leaves alone. -/

namespace Sys2Proof.Machine

/-- Every field stands in the table at its index. -/
theorem fldTable_idx : ∀ n : Fin 530, (fldTable[n.val]?).map (·.idx) = some n.val := by decide +kernel

/-- The table's length. -/
theorem fldTable_length : fldTable.length = 530 := by decide +kernel

/-- Fields of the table with one index are one field. -/
theorem fld_eq_of_idx {f g : Fld} (hf : f ∈ fldTable) (hg : g ∈ fldTable) (h : f.idx = g.idx) : f = g := by
  obtain ⟨m, hm, rfl⟩ := List.getElem_of_mem hf
  obtain ⟨n, hn, rfl⟩ := List.getElem_of_mem hg
  have a := fldTable_idx ⟨m, by rw [← fldTable_length]; exact hm⟩
  have b := fldTable_idx ⟨n, by rw [← fldTable_length]; exact hn⟩
  simp only [List.getElem?_eq_getElem hm, List.getElem?_eq_getElem hn, Option.map_some, Option.some.injEq] at a b
  have : m = n := by rw [← a, ← b, h]
  subst this; rfl

/-- Indices are small. -/
theorem fld_idx_lt {f : Fld} (hf : f ∈ fldTable) : f.idx < 530 := by
  obtain ⟨m, hm, rfl⟩ := List.getElem_of_mem hf
  have hm' : m < 530 := by rw [← fldTable_length]; exact hm
  have a := fldTable_idx ⟨m, hm'⟩
  simp only [List.getElem?_eq_getElem hm, Option.map_some, Option.some.injEq] at a
  omega

/-- Keys of fields of the table tell field, unit and index apart. -/
theorem key_inj {f g : Fld} {u w i j : Nat} (hf : f ∈ fldTable) (hg : g ∈ fldTable) (hu : u < 2048) (hw : w < 2048) (h : f.key u i = g.key w j) :
    f = g ∧ u = w ∧ i = j := by
  have a := fld_idx_lt hf
  have b := fld_idx_lt hg
  simp only [Fld.key] at h
  exact ⟨fld_eq_of_idx hf hg (by omega), by omega, by omega⟩

/-- Reading the field just written. -/
@[simp] theorem State.fld_setFld_same (s : State) (f : Fld) (u i v : Nat) : (s.setFld f u i v).fld f u i = v % 2 ^ f.w := by
  simp [State.fld, State.setFld]

/-- A write leaves fields of other indices of the table alone. -/
theorem State.fld_setFld_idx (s : State) {f g : Fld} (u i w j v : Nat) (h : f.idx % 1024 ≠ g.idx % 1024) : (s.setFld g w j v).fld f u i = s.fld f u i := by
  simp only [State.fld, State.setFld]
  by_cases hk : f.key u i = g.key w j
  · simp only [Fld.key] at hk; omega
  · by_cases hr : f.rst = g.rst
    · rw [← hr, mget_mset_other _ hk]
    · induction s.fields with
      | nil => simp only [mset, List.filter_nil, mget]; split <;> simp [mins, mget, Ne.symm hk]
      | cons x m ih =>
        simp only [mset] at ih ⊢
        have hm : ∀ (n : SMap Nat), mget f.rst (mins n (g.key w j) (v % 2 ^ g.w)) (f.key u i) = mget f.rst n (f.key u i) := by
          intro n
          induction n with
          | nil => simp [mins, mget, Ne.symm hk]
          | cons y n ihn =>
            obtain ⟨a, b⟩ := y
            simp only [mins]
            split <;> simp [mget, Ne.symm hk, ihn]
        have hfil := mget_filter (d := f.rst) (x :: m) (fun e => decide (e.1 ≠ g.key w j)) (f.key u i) (fun v => by simpa using hk)
        split
        · exact hfil
        · rw [hm]; exact hfil

/-- A write to one field of the table leaves every other field, unit and index alone. -/
theorem State.fld_setFld_other (s : State) {f g : Fld} {u i w j v : Nat} (hf : f ∈ fldTable) (hg : g ∈ fldTable) (hu : u < 2048) (hw : w < 2048)
    (h : (f, u, i) ≠ (g, w, j)) : (s.setFld g w j v).fld f u i = s.fld f u i := by
  by_cases hi : f.idx % 1024 = g.idx % 1024
  · have a := fld_idx_lt hf
    have b := fld_idx_lt hg
    have hfg := fld_eq_of_idx hf hg (by omega)
    subst hfg
    simp only [State.fld, State.setFld]
    refine mget_mset_other _ (fun hk => h ?_)
    obtain ⟨-, rfl, rfl⟩ := key_inj hf hg hu hw hk
    rfl
  · exact s.fld_setFld_idx u i w j v hi

/-- The same field of another unit. -/
theorem State.fld_setFld_unit (s : State) {f : Fld} {u i w j v : Nat} (hu : u < 2048) (hw : w < 2048) (h : (u, i) ≠ (w, j)) :
    (s.setFld f w j v).fld f u i = s.fld f u i := by
  simp only [State.fld, State.setFld]
  refine mget_mset_other _ (fun hk => h ?_)
  simp only [Fld.key] at hk
  rw [show u = w by omega, show i = j by omega]

/-- A flag after it was set. -/
@[simp] theorem State.flag_setFlag_same (s : State) (f : Fld) (u i : Nat) (b : Bool) (h : f.w = 1) : (s.setFlag f u i b).flag f u i = b := by
  simp only [State.flag, State.setFlag, State.fld_setFld_same, h]
  cases b <;> rfl

/-- Fields that no write touched. -/
theorem SameFields.refl (L : List (Fld × Nat × Nat)) (s : State) : SameFields L s s := fun _ _ _ _ _ _ => rfl

/-- One step after another. -/
theorem SameFields.trans {L : List (Fld × Nat × Nat)} {s t u : State} (a : SameFields L s t) (b : SameFields L t u) : SameFields L s u :=
  fun f hf x i hx hl => (b f hf x i hx hl).trans (a f hf x i hx hl)

/-- A write of a listed field. -/
theorem SameFields.setFld {L : List (Fld × Nat × Nat)} (s : State) {g : Fld} {w j v : Nat} (hg : g ∈ fldTable) (hw : w < 2048) (h : (g, w, j) ∈ L) :
    SameFields L s (s.setFld g w j v) :=
  fun f hf x i hx hl => s.fld_setFld_other hf hg hx hw (fun e => hl (e ▸ h))

/-- Changes outside the register fields. -/
theorem SameFields.of_eq {L : List (Fld × Nat × Nat)} {s t : State} (h : t.fields = s.fields) : SameFields L s t :=
  fun f _ u i _ _ => by simp only [State.fld, h]

/-- No byte changes where no memory does. -/
theorem SameBytes.of_eq {s t : State} (h1 : t.store = s.store) (h2 : t.hbm = s.hbm) (h3 : t.media = s.media) : SameBytes s t :=
  ⟨fun _ => by rw [h1], fun _ => by rw [h2], fun _ => by rw [h3]⟩

end Sys2Proof.Machine
end

