-- ==== Sys2Proof/Laws/Keeps.lean ====
section
/-! SUPPORT. What every command keeps, whatever it does: the queue of waiting commands, programmed eFuses once they are locked, and the canonical
form of the byte memories. -/

namespace Sys2Proof.Machine

/-- `t` comes from `r` with the queue kept, locked eFuses kept and canonical memories kept. -/
structure Keeps (r t : State) : Prop where
  pending : t.pending = r.pending
  fuses : r.fuses.locked = true → t.fuses = r.fuses
  mem : r.memoriesWf → t.memoriesWf

/-- A write of bytes keeps the canonical form of a memory. -/
theorem memWf_memWrite {m : List Host.Cell} (a : Nat) (bs : List Nat) (h : memWf m = true) : memWf (memWrite m a bs) = true := mwf_mblock _ _ h

/-- A write of one byte keeps the canonical form of a memory. -/
theorem memWf_memPut {m : List Host.Cell} (a v : Nat) (h : memWf m = true) : memWf (memPut m a v) = true := mwf_mset _ _ h

/-- A result that is a next state which keeps it all. -/
def KeepsR (r : State) (o : Res) : Prop := ∃ t, o = .next t ∧ Keeps r t

theorem Keeps.refl (s : State) : Keeps s s := ⟨rfl, fun _ => rfl, id⟩

theorem Keeps.trans {r s t : State} (a : Keeps r s) (b : Keeps s t) : Keeps r t :=
  ⟨b.pending.trans a.pending, fun h => (b.fuses (by rw [a.fuses h]; exact h)).trans (a.fuses h), fun h => b.mem (a.mem h)⟩

/-- An update of anything else. -/
theorem Keeps.upd {r s t : State} (h : Keeps r s) (h1 : t.pending = s.pending) (h2 : t.fuses = s.fuses) (h3 : t.store = s.store)
    (h4 : t.hbm.bytes = s.hbm.bytes) (h5 : t.media = s.media) : Keeps r t :=
  h.trans ⟨h1, fun _ => h2, fun ⟨a, b, c⟩ => ⟨by rw [h3]; exact a, by rw [h4]; exact b, by rw [h5]; exact c⟩⟩

/-- An update of other parts of `s`, as it stands when the record is written out. -/
theorem Keeps.rec_upd {r s : State} {pending : List Instr} {freeIx : Nat} {resp : Completion} {out : List Output} {fields : SMap Nat} {latches : SMap
    Nat} {held : SMap Nat} {seqMem : SMap Nat} {store : List Host.Cell} {bank : SMap Nat} {vreg : SMap Nat} {sacc : SMap Nat} {coaches : SMap CoachS}
    {dma : SMap DmaS} {net : NetS} {hbmc : SMap HbmS} {hbm : HbmMem} {reports : List Report} {aoCycles : Nat} {netCycles : Nat} {couplerAside : Bool}
    {tcs : SMap Tcache} {ctxs : SMap CtxS} {media : List Host.Cell} {rein : ReinS} {lock : LockS} {coachCycles : Nat} {netFrac : Nat} {aoFrac : Nat} {laneSt : SMap
    LaneS} {links : SMap LinkS} {bays : SMap BayS} {pair : PairS} {log : SMap (Option LogEnt)} {fab : SMap FabS} {load : LoadS} {keptRegs : List (Nat
    × Nat × Nat)} {keyRam : Nat} {fuseKey : Nat} {vsense : Nat} {arb : ArbS} {adm : SMap AdmS} {admBusy : Option AdmCmd} {admLast : Nat} {ports : SMap
    PortS} {hostReq : List HostReq} {recov : RecS} {pm : PmS} {pwr : PwrS} {tap : TapS} {fuses : FuseS} {dbgKey : Nat} {dbgLevel : Nat} {dbgNonce :
    Bool} {pertFrom : Nat}
    (h : Keeps r s) (h1 : pending = s.pending) (h2 : fuses = s.fuses) (h3 : store = s.store) (h4 : hbm.bytes = s.hbm.bytes) (h5 : media = s.media) :
    Keeps r ⟨pending, freeIx, resp, out, fields, latches, held, seqMem, store, bank, vreg, sacc, coaches, dma, net, hbmc, hbm, reports, aoCycles,
    netCycles, couplerAside, tcs, ctxs, media, rein, lock, coachCycles, netFrac, aoFrac, laneSt, links, bays, pair, log, fab, load, keptRegs, keyRam,
    fuseKey, vsense, arb, adm, admBusy, admLast, ports, hostReq, recov, pm, pwr, tap, fuses, dbgKey, dbgLevel, dbgNonce, pertFrom⟩ :=
  h.upd h1 h2 h3 h4 h5


/-- The same where memories are written: each in a way that keeps its canonical form. -/
theorem Keeps.rec_wf {r s : State} {pending : List Instr} {freeIx : Nat} {resp : Completion} {out : List Output} {fields : SMap Nat} {latches : SMap
    Nat} {held : SMap Nat} {seqMem : SMap Nat} {store : List Host.Cell} {bank : SMap Nat} {vreg : SMap Nat} {sacc : SMap Nat} {coaches : SMap CoachS}
    {dma : SMap DmaS} {net : NetS} {hbmc : SMap HbmS} {hbm : HbmMem} {reports : List Report} {aoCycles : Nat} {netCycles : Nat} {couplerAside : Bool}
    {tcs : SMap Tcache} {ctxs : SMap CtxS} {media : List Host.Cell} {rein : ReinS} {lock : LockS} {coachCycles : Nat} {netFrac : Nat} {aoFrac : Nat} {laneSt : SMap
    LaneS} {links : SMap LinkS} {bays : SMap BayS} {pair : PairS} {log : SMap (Option LogEnt)} {fab : SMap FabS} {load : LoadS} {keptRegs : List (Nat
    × Nat × Nat)} {keyRam : Nat} {fuseKey : Nat} {vsense : Nat} {arb : ArbS} {adm : SMap AdmS} {admBusy : Option AdmCmd} {admLast : Nat} {ports : SMap
    PortS} {hostReq : List HostReq} {recov : RecS} {pm : PmS} {pwr : PwrS} {tap : TapS} {fuses : FuseS} {dbgKey : Nat} {dbgLevel : Nat} {dbgNonce :
    Bool} {pertFrom : Nat}
    (h : Keeps r s) (h1 : pending = s.pending) (h2 : fuses = s.fuses) (h3 : memWf s.store = true → memWf store = true) (h4 : memWf s.hbm.bytes = true → memWf hbm.bytes = true) (h5 : memWf s.media = true → memWf media = true) :
    Keeps r ⟨pending, freeIx, resp, out, fields, latches, held, seqMem, store, bank, vreg, sacc, coaches, dma, net, hbmc, hbm, reports, aoCycles,
    netCycles, couplerAside, tcs, ctxs, media, rein, lock, coachCycles, netFrac, aoFrac, laneSt, links, bays, pair, log, fab, load, keptRegs, keyRam,
    fuseKey, vsense, arb, adm, admBusy, admLast, ports, hostReq, recov, pm, pwr, tap, fuses, dbgKey, dbgLevel, dbgNonce, pertFrom⟩ :=
  h.trans ⟨h1, fun _ => h2, fun ⟨a, b, c⟩ => ⟨h3 a, h4 b, h5 c⟩⟩


theorem Keeps.ite {r a b : State} {c : Prop} [Decidable c] (ha : Keeps r a) (hb : Keeps r b) : Keeps r (if c then a else b) := by
  split
  · exact ha
  · exact hb

theorem Keeps.foldl {α : Type} {r s : State} {f : State → α → State} {l : List α} (h : Keeps r s) (hf : ∀ t x, Keeps r t → Keeps r (f t x)) :
    Keeps r (l.foldl f s) := by
  induction l generalizing s with
  | nil => exact h
  | cons x l ih => exact ih (hf s x h)

/-- A fold that carries more beside the state. -/
theorem Keeps.foldl_fst {α β : Type} {r : State} {p : State × β} {f : State × β → α → State × β} {l : List α} (h : Keeps r p.1)
    (hf : ∀ q x, Keeps r q.1 → Keeps r (f q x).1) : Keeps r (l.foldl f p).1 := by
  induction l generalizing p with
  | nil => exact h
  | cons x l ih => exact ih (hf p x h)

/-- A fold that carries more beside the state. -/
theorem Keeps.foldl_snd {α β : Type} {r : State} {p : β × State} {f : β × State → α → β × State} {l : List α} (h : Keeps r p.2)
    (hf : ∀ q x, Keeps r q.2 → Keeps r (f q x).2) : Keeps r (l.foldl f p).2 := by
  induction l generalizing p with
  | nil => exact h
  | cons x l ih => exact ih (hf p x h)

theorem Keeps.ite_snd {β : Type} {r : State} {a b : β × State} {c : Prop} [Decidable c] (ha : Keeps r a.2) (hb : Keeps r b.2) :
    Keeps r (if c then a else b).2 := by
  split
  · exact ha
  · exact hb

theorem Keeps.of_snd {β : Type} {r t : State} {p : β × State} {b : β} (e : p = (b, t)) (h : Keeps r p.2) : Keeps r t := by subst e; exact h

theorem Keeps.of_fst {β : Type} {r t : State} {p : State × β} {b : β} (e : p = (t, b)) (h : Keeps r p.1) : Keeps r t := by subst e; exact h

theorem KeepsR.ok {r t : State} (h : Keeps r t) : KeepsR r (ok t) := ⟨t, rfl, h⟩

theorem KeepsR.ite {r : State} {a b : Res} {c : Prop} [Decidable c] (ha : KeepsR r a) (hb : KeepsR r b) : KeepsR r (if c then a else b) := by
  split
  · exact ha
  · exact hb

end Sys2Proof.Machine
end

