-- ==== Sys2Proof/Laws/KeepsOps.lean ====
section
/-! SUPPORT. What the functions of the shared operations, the network, memory accesses, lockstep, translation, DMA and the log keep (`Keeps`), one lemma each. -/

namespace Sys2Proof.Machine

theorem State.setFld_keeps {r s : State} (h : Keeps r s) (a1 : Fld) (a2 : ℕ) (a3 : ℕ) (a4 : ℕ) : Keeps r (State.setFld s a1 a2 a3 a4) := by
  unfold State.setFld
  try dsimp only
  repeat' (first
    | with_reducible assumption | (with_reducible exact Keeps.refl _) | (with_reducible apply Keeps.ite)
    | (fail_if_no_progress with_reducible refine Keeps.rec_upd ?_ rfl rfl rfl rfl rfl) | (fail_if_no_progress dsimp only) | split)

theorem State.emit_keeps {r s : State} (h : Keeps r s) (a1 : Output) : Keeps r (State.emit s a1) := by
  unfold State.emit
  try dsimp only
  repeat' (first
    | with_reducible assumption | (with_reducible exact Keeps.refl _) | (with_reducible apply Keeps.ite)
    | (fail_if_no_progress with_reducible refine Keeps.rec_upd ?_ rfl rfl rfl rfl rfl) | (fail_if_no_progress dsimp only) | split)

theorem State.setFlds_keeps {r s : State} (h : Keeps r s) (u i : Nat) (l : List (Fld × Nat)) : Keeps r (s.setFlds u i l) := by
  induction l generalizing s with
  | nil => exact h
  | cons x l ih => exact ih (State.setFld_keeps h x.1 u i x.2)

theorem State.wrapAdd_keeps {r s : State} (h : Keeps r s) (a1 : Fld) (a2 : ℕ) (a3 : ℕ) (a4 : ℕ) : Keeps r (State.wrapAdd s a1 a2 a3 a4) := by
  unfold State.wrapAdd
  try dsimp only
  repeat' (first
    | with_reducible assumption | (with_reducible exact Keeps.refl _) | (with_reducible apply State.setFld_keeps) | (with_reducible apply Keeps.ite)
    | (fail_if_no_progress dsimp only) | split)

theorem State.logEntry_keeps {r s : State} (h : Keeps r s) (a1 : ℕ) (a2 : ℕ) (a3 : Option ℕ) (a4 : ℕ) (a5 : ℕ) : Keeps r (State.logEntry s a1 a2 a3
    a4 a5) := by
  unfold State.logEntry
  try dsimp only
  repeat' (first
    | with_reducible assumption | (with_reducible exact Keeps.refl _) | (with_reducible apply State.emit_keeps)
    | (with_reducible apply State.setFlds_keeps) | (with_reducible apply State.wrapAdd_keeps) | (with_reducible apply Keeps.ite)
    | (fail_if_no_progress with_reducible refine Keeps.rec_upd ?_ rfl rfl rfl rfl rfl) | (fail_if_no_progress dsimp only) | split)

theorem State.grant_keeps {r s : State} (h : Keeps r s) (a1 : MReq) : Keeps r (State.grant s a1) := by
  unfold State.grant
  try dsimp only
  repeat' (first
    | with_reducible assumption | (with_reducible exact Keeps.refl _) | (with_reducible apply State.logEntry_keeps)
    | (with_reducible apply State.setFld_keeps) | (with_reducible apply Keeps.ite)
    | (fail_if_no_progress with_reducible refine Keeps.rec_upd ?_ rfl rfl rfl rfl rfl) | (fail_if_no_progress dsimp only) | split)

theorem State.grantQueue_keeps {r s : State} (h : Keeps r s) (kept l : List MReq) : Keeps r (s.grantQueue kept l) := by
  induction l generalizing s kept with
  | nil => unfold State.grantQueue; exact h.upd rfl rfl rfl rfl rfl
  | cons x l ih =>
    unfold State.grantQueue
    exact Keeps.ite (ih (State.grant_keeps h _) _) (ih h _)

theorem State.showArb_keeps {r s : State} (h : Keeps r s)  : Keeps r (State.showArb s) := by
  unfold State.showArb
  try dsimp only
  repeat' (first
    | with_reducible assumption | (with_reducible exact Keeps.refl _) | (with_reducible apply State.setFlds_keeps)
    | (with_reducible apply Keeps.ite) | (fail_if_no_progress dsimp only) | split)

theorem State.arbStep_keeps {r s : State} (h : Keeps r s)  : Keeps r (State.arbStep s) := by
  unfold State.arbStep
  try dsimp only
  repeat' (first
    | with_reducible assumption | (with_reducible exact Keeps.refl _) | (with_reducible apply State.grantQueue_keeps)
    | (with_reducible apply State.showArb_keeps) | (with_reducible apply Keeps.ite) | (fail_if_no_progress dsimp only) | split)

theorem State.bump_keeps {r s : State} (h : Keeps r s) (a1 : Fld) (a2 : ℕ) (a3 : ℕ) (a4 : ℕ) : Keeps r (State.bump s a1 a2 a3 a4) := by
  unfold State.bump
  try dsimp only
  repeat' (first
    | with_reducible assumption | (with_reducible exact Keeps.refl _) | (with_reducible apply State.setFld_keeps) | (with_reducible apply Keeps.ite)
    | (fail_if_no_progress dsimp only) | split)

theorem State.raise_keeps {r s : State} (h : Keeps r s) (a1 : Option ℕ) (a2 : ℕ) (a3 : ℕ) : Keeps r (State.raise s a1 a2 a3) := by
  unfold State.raise
  try dsimp only
  repeat' (first
    | with_reducible assumption | (with_reducible exact Keeps.refl _) | (with_reducible apply State.bump_keeps)
    | (with_reducible apply State.emit_keeps) | (with_reducible refine Keeps.of_snd (by assumption) ?_)
    | (with_reducible refine Keeps.of_fst (by assumption) ?_) | (with_reducible apply Keeps.ite)
    | (fail_if_no_progress with_reducible refine Keeps.rec_upd ?_ rfl rfl rfl rfl rfl) | (fail_if_no_progress dsimp only) | split)

theorem State.setCoach_keeps {r s : State} (h : Keeps r s) (a1 : ℕ) (a2 : CoachS) : Keeps r (State.setCoach s a1 a2) := by
  unfold State.setCoach
  try dsimp only
  repeat' (first
    | with_reducible assumption | (with_reducible exact Keeps.refl _) | (with_reducible apply Keeps.ite)
    | (fail_if_no_progress with_reducible refine Keeps.rec_upd ?_ rfl rfl rfl rfl rfl) | (fail_if_no_progress dsimp only) | split)

theorem State.updCoach_keeps {r s : State} (h : Keeps r s) (a1 : ℕ) (a2 : CoachS → CoachS) : Keeps r (State.updCoach s a1 a2) := by
  unfold State.updCoach
  try dsimp only
  repeat' (first
    | with_reducible assumption | (with_reducible exact Keeps.refl _) | (with_reducible apply State.setCoach_keeps)
    | (with_reducible apply Keeps.ite) | (fail_if_no_progress dsimp only) | split)

theorem State.ungate_keeps {r s : State} (h : Keeps r s) (a1 : ℕ) : Keeps r (State.ungate s a1) := by
  unfold State.ungate
  try dsimp only
  repeat' (first
    | with_reducible assumption | (with_reducible exact Keeps.refl _) | (with_reducible apply State.setFld_keeps)
    | (with_reducible apply State.updCoach_keeps) | (with_reducible apply Keeps.ite)
    | (fail_if_no_progress with_reducible refine Keeps.rec_upd ?_ rfl rfl rfl rfl rfl) | (fail_if_no_progress dsimp only) | split)

theorem State.ungateCar_keeps {r s : State} (h : Keeps r s) (a1 : ℕ) : Keeps r (State.ungateCar s a1) := by
  unfold State.ungateCar
  try dsimp only
  repeat' (first
    | with_reducible assumption | (with_reducible exact Keeps.refl _) | (with_reducible apply State.ungate_keeps) | (with_reducible apply Keeps.ite)
    | (with_reducible apply Keeps.foldl) | intro _ _ _ | (fail_if_no_progress dsimp only) | split)

theorem State.outsideAt_keeps {r s : State} (h : Keeps r s) (rank due : Nat) (i : Instr) {eff : State → Res}
    (he : ∀ t, Keeps r t → KeepsR r (eff t)) : KeepsR r (s.outsideAt rank due i eff) := by
  unfold State.outsideAt
  exact KeepsR.ite (KeepsR.ok (h.upd rfl rfl rfl rfl rfl)) (he s h)

theorem State.outside_keeps {r s : State} (h : Keeps r s) (rank : Nat) (i : Instr) {eff : State → Res}
    (he : ∀ t, Keeps r t → KeepsR r (eff t)) : KeepsR r (s.outside rank i eff) := State.outsideAt_keeps h rank 0 i he

theorem State.stray_keeps {r s : State} (h : Keeps r s) (a1 : ℕ) (a2 : ℕ) (a3 : Bool) : Keeps r (State.stray s a1 a2 a3) := by
  unfold State.stray
  try dsimp only
  repeat' (first
    | with_reducible assumption | (with_reducible exact Keeps.refl _) | (with_reducible apply State.bump_keeps)
    | (with_reducible apply State.setFlds_keeps) | (with_reducible apply Keeps.ite) | (fail_if_no_progress dsimp only) | split)

theorem State.missed_keeps {r s : State} (h : Keeps r s) (a1 : Reach) (a2 : ℕ) (a3 : Bool) : Keeps r (State.missed s a1 a2 a3) := by
  unfold State.missed
  try dsimp only
  repeat' (first
    | with_reducible assumption | (with_reducible exact Keeps.refl _) | (with_reducible apply State.outside_keeps)
    | (with_reducible apply State.stray_keeps) | (with_reducible refine Keeps.of_snd (by assumption) ?_)
    | (with_reducible refine Keeps.of_fst (by assumption) ?_) | (with_reducible apply Keeps.ite)
    | (fail_if_no_progress with_reducible refine Keeps.rec_upd ?_ rfl rfl rfl rfl rfl) | (fail_if_no_progress dsimp only) | split)

theorem State.regEvent_keeps {r s : State} (h : Keeps r s) (f : Fld) (u idx : Nat) (i : Instr) {eff : State → Res} (hi : Bool)
    (he : ∀ t, Keeps r t → KeepsR r (eff t)) : KeepsR r (s.regEvent f u idx i eff hi) := by
  unfold State.regEvent
  exact KeepsR.ite (State.outside_keeps h _ i he) (KeepsR.ok (State.missed_keeps h _ _ _))

theorem State.setCarState_keeps {r s : State} (h : Keeps r s) (a1 : ℕ) (a2 : ℕ) : Keeps r (State.setCarState s a1 a2) := by
  unfold State.setCarState
  try dsimp only
  repeat' (first
    | with_reducible assumption | (with_reducible exact Keeps.refl _) | (with_reducible apply State.setFld_keeps) | (with_reducible apply Keeps.ite)
    | (fail_if_no_progress dsimp only) | split)

theorem State.updCtx_keeps {r s : State} (h : Keeps r s) (a1 : ℕ) (a2 : CtxS → CtxS) : Keeps r (State.updCtx s a1 a2) := by
  unfold State.updCtx
  try dsimp only
  repeat' (first
    | with_reducible assumption | (with_reducible exact Keeps.refl _) | (with_reducible apply Keeps.ite)
    | (fail_if_no_progress with_reducible refine Keeps.rec_upd ?_ rfl rfl rfl rfl rfl) | (fail_if_no_progress dsimp only) | split)

theorem State.draws_keeps {r s : State} (h : Keeps r s) (a1 : ℕ) (a2 : ℕ) : Keeps r (State.draws s a1 a2).2 := by
  unfold State.draws
  try dsimp only
  repeat' (first
    | with_reducible assumption | (with_reducible exact Keeps.refl _) | (with_reducible apply Keeps.ite)
    | (fail_if_no_progress with_reducible refine Keeps.rec_upd ?_ rfl rfl rfl rfl rfl) | (fail_if_no_progress dsimp only) | split)

theorem State.storeWrite_keeps {r s : State} (h : Keeps r s) (k a : Nat) (bs : List Nat) : Keeps r (s.storeWrite k a bs) :=
  h.trans ⟨rfl, fun _ => rfl, fun ⟨a, b, c⟩ => ⟨mwf_mblock _ _ a, b, c⟩⟩

theorem State.setLanes_keeps {r s : State} (h : Keeps r s) (a1 : ℕ) (a2 : ℕ) (a3 : ℕ) (a4 : List ℕ) : Keeps r (State.setLanes s a1 a2 a3 a4) := by
  unfold State.setLanes
  try dsimp only
  repeat' (first
    | with_reducible assumption | (with_reducible exact Keeps.refl _) | (with_reducible apply Keeps.ite)
    | (fail_if_no_progress with_reducible refine Keeps.rec_upd ?_ rfl rfl rfl rfl rfl) | (fail_if_no_progress dsimp only) | split)

theorem State.setFlag_keeps {r s : State} (h : Keeps r s) (a1 : Fld) (a2 : ℕ) (a3 : ℕ) (a4 : Bool) : Keeps r (State.setFlag s a1 a2 a3 a4) := by
  unfold State.setFlag
  try dsimp only
  repeat' (first
    | with_reducible assumption | (with_reducible exact Keeps.refl _) | (with_reducible apply State.setFld_keeps) | (with_reducible apply Keeps.ite)
    | (fail_if_no_progress dsimp only) | split)

theorem State.setBankWord_keeps {r s : State} (h : Keeps r s) (a1 : ℕ) (a2 : ℕ) (a3 : ℕ) : Keeps r (State.setBankWord s a1 a2 a3) := by
  unfold State.setBankWord
  try dsimp only
  repeat' (first
    | with_reducible assumption | (with_reducible exact Keeps.refl _) | (with_reducible apply Keeps.ite)
    | (fail_if_no_progress with_reducible refine Keeps.rec_upd ?_ rfl rfl rfl rfl rfl) | (fail_if_no_progress dsimp only) | split)

theorem State.updFab_keeps {r s : State} (h : Keeps r s) (a1 : ℕ) (a2 : FabS → FabS) : Keeps r (State.updFab s a1 a2) := by
  unfold State.updFab
  try dsimp only
  repeat' (first
    | with_reducible assumption | (with_reducible exact Keeps.refl _) | (with_reducible apply Keeps.ite)
    | (fail_if_no_progress with_reducible refine Keeps.rec_upd ?_ rfl rfl rfl rfl rfl) | (fail_if_no_progress dsimp only) | split)

theorem State.toFabric_keeps {r s : State} (h : Keeps r s) (a1 : ℕ) (a2 : ℕ) (a3 : Packet) : Keeps r (State.toFabric s a1 a2 a3) := by
  unfold State.toFabric
  try dsimp only
  repeat' (first
    | with_reducible assumption | (with_reducible exact Keeps.refl _) | (with_reducible apply State.updFab_keeps) | (with_reducible apply Keeps.ite)
    | (fail_if_no_progress with_reducible refine Keeps.rec_upd ?_ rfl rfl rfl rfl rfl) | (fail_if_no_progress dsimp only) | split)

theorem State.toInbox_keeps {r s : State} (h : Keeps r s) (a1 : ℕ) (a2 : Packet) : Keeps r (State.toInbox s a1 a2) := by
  unfold State.toInbox
  try dsimp only
  repeat' (first
    | with_reducible assumption | (with_reducible exact Keeps.refl _) | (with_reducible apply Keeps.ite)
    | (fail_if_no_progress with_reducible refine Keeps.rec_upd ?_ rfl rfl rfl rfl rfl) | (fail_if_no_progress dsimp only) | split)

theorem State.answer_keeps {r s : State} (h : Keeps r s) (a1 : ℕ) (a2 : Packet) : Keeps r (State.answer s a1 a2) := by
  unfold State.answer
  try dsimp only
  repeat' (first
    | with_reducible assumption | (with_reducible exact Keeps.refl _) | (with_reducible apply State.toFabric_keeps)
    | (with_reducible apply State.toInbox_keeps) | (with_reducible apply Keeps.ite) | (fail_if_no_progress dsimp only) | split)

theorem State.pushWire_keeps {r s : State} (h : Keeps r s) (a1 : ℕ) (a2 : List Flit) : Keeps r (State.pushWire s a1 a2) := by
  unfold State.pushWire
  try dsimp only
  repeat' (first
    | with_reducible assumption | (with_reducible exact Keeps.refl _) | (with_reducible apply Keeps.ite)
    | (fail_if_no_progress with_reducible refine Keeps.rec_upd ?_ rfl rfl rfl rfl rfl) | (fail_if_no_progress dsimp only) | split)

theorem State.inject_keeps {r s : State} (h : Keeps r s) (a1 : ℕ) (a2 : Packet) : Keeps r (State.inject s a1 a2) := by
  unfold State.inject
  try dsimp only
  repeat' (first
    | with_reducible assumption | (with_reducible exact Keeps.refl _) | (with_reducible apply State.pushWire_keeps)
    | (with_reducible apply Keeps.ite) | (fail_if_no_progress with_reducible refine Keeps.rec_upd ?_ rfl rfl rfl rfl rfl)
    | (fail_if_no_progress dsimp only) | split)

theorem State.report_keeps {r s : State} (h : Keeps r s) (a1 : Report) : Keeps r (State.report s a1) := by
  unfold State.report
  try dsimp only
  repeat' (first
    | with_reducible assumption | (with_reducible exact Keeps.refl _) | (with_reducible apply Keeps.ite)
    | (fail_if_no_progress with_reducible refine Keeps.rec_upd ?_ rfl rfl rfl rfl rfl) | (fail_if_no_progress dsimp only) | split)

theorem State.niSend_keeps {r s : State} (h : Keeps r s) (a1 : ℕ) (a2 : ℕ) (a3 : Packet) : Keeps r (State.niSend s a1 a2 a3) := by
  unfold State.niSend
  try dsimp only
  repeat' (first
    | with_reducible assumption | (with_reducible exact Keeps.refl _) | (with_reducible apply State.answer_keeps)
    | (with_reducible apply State.inject_keeps) | (with_reducible apply State.report_keeps) | (with_reducible apply Keeps.ite)
    | (fail_if_no_progress with_reducible refine Keeps.rec_upd ?_ rfl rfl rfl rfl rfl) | (fail_if_no_progress dsimp only) | split)

theorem State.draw_keeps {r s : State} (h : Keeps r s) (a1 : ℕ) : Keeps r (State.draw s a1).2 := by
  unfold State.draw
  try dsimp only
  repeat' (first
    | with_reducible assumption | (with_reducible exact Keeps.refl _) | (with_reducible apply Keeps.ite)
    | (fail_if_no_progress with_reducible refine Keeps.rec_upd ?_ rfl rfl rfl rfl rfl) | (fail_if_no_progress dsimp only) | split)

theorem State.setSigAccs_keeps {r s : State} (h : Keeps r s) (a1 : ℕ) (a2 : ℕ) (a3 : List ℕ) : Keeps r (State.setSigAccs s a1 a2 a3) := by
  unfold State.setSigAccs
  try dsimp only
  repeat' (first
    | with_reducible assumption | (with_reducible exact Keeps.refl _) | (with_reducible apply Keeps.ite)
    | (fail_if_no_progress with_reducible refine Keeps.rec_upd ?_ rfl rfl rfl rfl rfl) | (fail_if_no_progress dsimp only) | split)

theorem State.driveRein_keeps {r s : State} (h : Keeps r s)  : Keeps r (State.driveRein s) := by
  unfold State.driveRein
  try dsimp only
  repeat' (first
    | with_reducible assumption | (with_reducible exact Keeps.refl _) | (with_reducible apply State.emit_keeps) | (with_reducible apply Keeps.ite)
    | (fail_if_no_progress dsimp only) | split)

theorem State.reinFail_keeps {r s : State} (h : Keeps r s) (a1 : ℕ) : Keeps r (State.reinFail s a1) := by
  unfold State.reinFail
  try dsimp only
  repeat' (first
    | with_reducible assumption | (with_reducible exact Keeps.refl _) | (with_reducible apply State.driveRein_keeps)
    | (with_reducible apply State.raise_keeps) | (with_reducible apply State.setFlds_keeps) | (with_reducible apply Keeps.ite)
    | (fail_if_no_progress dsimp only) | split)

theorem State.bumpH_keeps {r s : State} (h : Keeps r s) (a1 : Fld) (a2 : ℕ) (a3 : ℕ) : Keeps r (State.bumpH s a1 a2 a3) := by
  unfold State.bumpH
  try dsimp only
  repeat' (first
    | with_reducible assumption | (with_reducible exact Keeps.refl _) | (with_reducible apply State.bump_keeps) | (with_reducible apply Keeps.ite)
    | (fail_if_no_progress dsimp only) | split)

theorem State.updHbm_keeps {r s : State} (h : Keeps r s) (a1 : ℕ) (a2 : HbmS → HbmS) : Keeps r (State.updHbm s a1 a2) := by
  unfold State.updHbm
  try dsimp only
  repeat' (first
    | with_reducible assumption | (with_reducible exact Keeps.refl _) | (with_reducible apply Keeps.ite)
    | (fail_if_no_progress with_reducible refine Keeps.rec_upd ?_ rfl rfl rfl rfl rfl) | (fail_if_no_progress dsimp only) | split)

theorem State.bayEvent_keeps {r s : State} (h : Keeps r s) (a1 : Fld) (a2 : ℕ) : Keeps r (State.bayEvent s a1 a2) := by
  unfold State.bayEvent
  try dsimp only
  repeat' (first
    | with_reducible assumption | (with_reducible exact Keeps.refl _) | (with_reducible apply State.raise_keeps)
    | (with_reducible apply State.setFlag_keeps) | (with_reducible apply Keeps.ite) | (fail_if_no_progress dsimp only) | split)

theorem State.updBay_keeps {r s : State} (h : Keeps r s) (a1 : ℕ) (a2 : BayS → BayS) : Keeps r (State.updBay s a1 a2) := by
  unfold State.updBay
  try dsimp only
  repeat' (first
    | with_reducible assumption | (with_reducible exact Keeps.refl _) | (with_reducible apply Keeps.ite)
    | (fail_if_no_progress with_reducible refine Keeps.rec_upd ?_ rfl rfl rfl rfl rfl) | (fail_if_no_progress dsimp only) | split)

theorem State.masterDecide_keeps {r s : State} (h : Keeps r s)  : Keeps r (State.masterDecide s) := by
  unfold State.masterDecide
  try dsimp only
  repeat' (first
    | with_reducible assumption | (with_reducible exact Keeps.refl _) | (with_reducible apply Keeps.ite)
    | (fail_if_no_progress with_reducible refine Keeps.rec_upd ?_ rfl rfl rfl rfl rfl) | (fail_if_no_progress dsimp only) | split)

theorem State.resetFields_keeps {r s : State} (h : Keeps r s) (a1 : Level) (a2 : Fld → ℕ → ℕ → Bool) : Keeps r (State.resetFields s a1 a2) := by
  unfold State.resetFields
  try dsimp only
  repeat' (first
    | with_reducible assumption | (with_reducible exact Keeps.refl _) | (with_reducible apply Keeps.ite)
    | (fail_if_no_progress with_reducible refine Keeps.rec_upd ?_ rfl rfl rfl rfl rfl) | (fail_if_no_progress dsimp only) | split)

theorem State.chanCleared_keeps {r s : State} (h : Keeps r s) (a1 : ℕ) (a2 : ℕ) : Keeps r (State.chanCleared s a1 a2) := by
  unfold State.chanCleared
  try dsimp only
  repeat' (first
    | with_reducible assumption | (with_reducible exact Keeps.refl _) | (with_reducible apply State.resetFields_keeps)
    | (with_reducible apply State.setFld_keeps) | (with_reducible apply Keeps.ite) | (fail_if_no_progress dsimp only) | split)

theorem State.respond_keeps {r s : State} (h : Keeps r s) (a1 : ℕ) (a2 : Packet) (a3 : ℕ) (a4 : ℕ) (a5 : List ℕ) (a6 : Bool) : Keeps r
    (State.respond s a1 a2 a3 a4 a5 a6) := by
  unfold State.respond
  try dsimp only
  repeat' (first
    | with_reducible assumption | (with_reducible exact Keeps.refl _) | (with_reducible apply State.inject_keeps) | (with_reducible apply Keeps.ite)
    | (fail_if_no_progress with_reducible refine Keeps.rec_upd ?_ rfl rfl rfl rfl rfl) | (fail_if_no_progress dsimp only) | split)

theorem State.updLane_keeps {r s : State} (h : Keeps r s) (a1 : ℕ) (a2 : LaneS → LaneS) : Keeps r (State.updLane s a1 a2) := by
  unfold State.updLane
  try dsimp only
  repeat' (first
    | with_reducible assumption | (with_reducible exact Keeps.refl _) | (with_reducible apply Keeps.ite)
    | (fail_if_no_progress with_reducible refine Keeps.rec_upd ?_ rfl rfl rfl rfl rfl) | (fail_if_no_progress dsimp only) | split)

theorem State.updLink_keeps {r s : State} (h : Keeps r s) (a1 : ℕ) (a2 : LinkS → LinkS) : Keeps r (State.updLink s a1 a2) := by
  unfold State.updLink
  try dsimp only
  repeat' (first
    | with_reducible assumption | (with_reducible exact Keeps.refl _) | (with_reducible apply Keeps.ite)
    | (fail_if_no_progress with_reducible refine Keeps.rec_upd ?_ rfl rfl rfl rfl rfl) | (fail_if_no_progress dsimp only) | split)

theorem State.logBankFails_keeps {r s : State} (h : Keeps r s) (a1 : ℕ) : Keeps r (State.logBankFails s a1) := by
  unfold State.logBankFails
  try dsimp only
  repeat' (first
    | with_reducible assumption | (with_reducible exact Keeps.refl _) | (with_reducible apply State.logEntry_keeps)
    | (with_reducible apply State.setFlag_keeps) | (with_reducible apply Keeps.ite) | (fail_if_no_progress dsimp only) | split)

theorem State.updChan_keeps {r s : State} (h : Keeps r s) (a1 : ℕ) (a2 : ℕ) (a3 : Chan → Chan) : Keeps r (State.updChan s a1 a2 a3) := by
  unfold State.updChan
  try dsimp only
  repeat' (first
    | with_reducible assumption | (with_reducible exact Keeps.refl _) | (with_reducible apply Keeps.ite)
    | (fail_if_no_progress with_reducible refine Keeps.rec_upd ?_ rfl rfl rfl rfl rfl) | (fail_if_no_progress dsimp only) | split)

theorem State.dmaAbort_keeps {r s : State} (h : Keeps r s) (a1 : ℕ) (a2 : ℕ) : Keeps r (State.dmaAbort s a1 a2) := by
  unfold State.dmaAbort
  try dsimp only
  repeat' (first
    | with_reducible assumption | (with_reducible exact Keeps.refl _) | (with_reducible apply State.report_keeps)
    | (with_reducible apply State.setFlag_keeps) | (with_reducible apply State.setFlds_keeps) | (with_reducible apply State.updChan_keeps)
    | (with_reducible refine Keeps.of_snd (by assumption) ?_) | (with_reducible refine Keeps.of_fst (by assumption) ?_)
    | (with_reducible apply Keeps.ite) | (fail_if_no_progress with_reducible refine Keeps.rec_upd ?_ rfl rfl rfl rfl rfl)
    | (fail_if_no_progress dsimp only) | split)

theorem State.updTc_keeps {r s : State} (h : Keeps r s) (a1 : ℕ) (a2 : Tcache → Tcache) : Keeps r (State.updTc s a1 a2) := by
  unfold State.updTc
  try dsimp only
  repeat' (first
    | with_reducible assumption | (with_reducible exact Keeps.refl _) | (with_reducible apply Keeps.ite)
    | (fail_if_no_progress with_reducible refine Keeps.rec_upd ?_ rfl rfl rfl rfl rfl) | (fail_if_no_progress dsimp only) | split)

theorem State.dropCtxEntries_keeps {r s : State} (h : Keeps r s) (a1 : ℕ) (a2 : ℕ) : Keeps r (State.dropCtxEntries s a1 a2) := by
  unfold State.dropCtxEntries
  try dsimp only
  repeat' (first
    | with_reducible assumption | (with_reducible exact Keeps.refl _) | (with_reducible apply State.updTc_keeps) | (with_reducible apply Keeps.ite)
    | (fail_if_no_progress with_reducible refine Keeps.rec_upd ?_ rfl rfl rfl rfl rfl) | (fail_if_no_progress dsimp only) | split)

theorem State.bayError_keeps {r s : State} (h : Keeps r s) (a1 : ℕ) (a2 : ℕ) (a3 : ℕ) (a4 : Bool) (a5 : ℕ) : Keeps r (State.bayError s a1 a2 a3 a4
    a5) := by
  unfold State.bayError
  try dsimp only
  repeat' (first
    | with_reducible assumption | (with_reducible exact Keeps.refl _) | (with_reducible apply State.bayEvent_keeps)
    | (with_reducible apply State.report_keeps) | (with_reducible apply State.setFld_keeps) | (with_reducible apply State.setFlds_keeps)
    | (with_reducible apply Keeps.ite) | (fail_if_no_progress with_reducible refine Keeps.rec_upd ?_ rfl rfl rfl rfl rfl)
    | (fail_if_no_progress dsimp only) | split)

theorem State.holdLow_keeps {r s : State} (h : Keeps r s) (a1 : Fld) (a2 : ℕ) (a3 : ℕ) (a4 : ℕ) : Keeps r (State.holdLow s a1 a2 a3 a4) := by
  unfold State.holdLow
  try dsimp only
  repeat' (first
    | with_reducible assumption | (with_reducible exact Keeps.refl _) | (with_reducible apply Keeps.ite)
    | (fail_if_no_progress with_reducible refine Keeps.rec_upd ?_ rfl rfl rfl rfl rfl) | (fail_if_no_progress dsimp only) | split)

theorem State.abortMarksOut_keeps {r s : State} (h : Keeps r s)  : Keeps r (State.abortMarksOut s) := by
  unfold State.abortMarksOut
  try dsimp only
  repeat' (first
    | with_reducible assumption | (with_reducible exact Keeps.refl _) | (with_reducible apply State.updLane_keeps)
    | (with_reducible apply Keeps.ite) | (with_reducible apply Keeps.foldl) | intro _ _ _
    | (fail_if_no_progress with_reducible refine Keeps.rec_upd ?_ rfl rfl rfl rfl rfl) | (fail_if_no_progress dsimp only) | split)

theorem State.lockEvent_keeps {r s : State} (h : Keeps r s)  : Keeps r (State.lockEvent s) := by
  unfold State.lockEvent
  try dsimp only
  repeat' (first
    | with_reducible assumption | (with_reducible exact Keeps.refl _) | (with_reducible apply State.raise_keeps)
    | (with_reducible apply State.setFlag_keeps) | (with_reducible apply Keeps.ite) | (fail_if_no_progress dsimp only) | split)

theorem State.lockAbort_keeps {r s : State} (h : Keeps r s) (a1 : ℕ) : Keeps r (State.lockAbort s a1) := by
  unfold State.lockAbort
  try dsimp only
  repeat' (first
    | with_reducible assumption | (with_reducible exact Keeps.refl _) | (with_reducible apply State.abortMarksOut_keeps)
    | (with_reducible apply State.arbStep_keeps) | (with_reducible apply State.lockEvent_keeps) | (with_reducible apply State.setFld_keeps)
    | (with_reducible apply State.setFlds_keeps) | (with_reducible apply Keeps.ite) | (fail_if_no_progress dsimp only) | split)

theorem State.setHfld_keeps {r s : State} (h : Keeps r s) (a1 : Fld) (a2 : ℕ) (a3 : ℕ) : Keeps r (State.setHfld s a1 a2 a3) := by
  unfold State.setHfld
  try dsimp only
  repeat' (first
    | with_reducible assumption | (with_reducible exact Keeps.refl _) | (with_reducible apply State.setFld_keeps) | (with_reducible apply Keeps.ite)
    | (fail_if_no_progress dsimp only) | split)

theorem State.countUe_keeps {r s : State} (h : Keeps r s) (a1 : ℕ) (a2 : ℕ) : Keeps r (State.countUe s a1 a2) := by
  unfold State.countUe
  try dsimp only
  repeat' (first
    | with_reducible assumption | (with_reducible exact Keeps.refl _) | (with_reducible apply State.bumpH_keeps)
    | (with_reducible apply State.setHfld_keeps) | (with_reducible apply Keeps.ite) | (fail_if_no_progress dsimp only) | split)

theorem State.countPoison_keeps {r s : State} (h : Keeps r s) (a1 : ℕ) (a2 : ℕ) : Keeps r (State.countPoison s a1 a2) := by
  unfold State.countPoison
  try dsimp only
  repeat' (first
    | with_reducible assumption | (with_reducible exact Keeps.refl _) | (with_reducible apply State.countUe_keeps)
    | (with_reducible apply Keeps.ite) | (with_reducible apply Keeps.foldl) | intro _ _ _ | (fail_if_no_progress dsimp only) | split)

theorem State.walkCount_keeps {r s : State} (h : Keeps r s) (c : CtxS) (ctx va : Nat) (write : Bool) (fuel level addr : Nat) :
    Keeps r (s.walkCount c ctx va write fuel level addr) := by
  induction fuel generalizing level addr with
  | zero => exact h
  | succ n ih =>
    unfold State.walkCount
    refine Keeps.ite (State.countPoison_keeps h _ _) ?_
    split
    · exact ih _ _
    · exact h

theorem State.countAccess_keeps {r s : State} (h : Keeps r s) (a1 : ℕ) (a2 : ℕ) (a3 : ℕ) (a4 : Bool) : Keeps r (State.countAccess s a1 a2 a3 a4) := by
  unfold State.countAccess
  try dsimp only
  repeat' (first
    | with_reducible assumption | (with_reducible exact Keeps.refl _) | (with_reducible apply State.bayError_keeps)
    | (with_reducible apply State.countPoison_keeps) | (with_reducible apply State.lockAbort_keeps) | (with_reducible apply State.walkCount_keeps)
    | (with_reducible refine Keeps.of_snd (by assumption) ?_) | (with_reducible refine Keeps.of_fst (by assumption) ?_)
    | (with_reducible apply Keeps.ite) | (fail_if_no_progress dsimp only) | split)

theorem State.tallyRead_keeps {r s : State} (h : Keeps r s) (a1 : ℕ) (a2 : ℕ) (a3 : ℕ) : Keeps r (State.tallyRead s a1 a2 a3) := by
  unfold State.tallyRead
  try dsimp only
  repeat' (first
    | with_reducible assumption | (with_reducible exact Keeps.refl _) | (with_reducible apply State.lockAbort_keeps)
    | (with_reducible apply State.wrapAdd_keeps) | (with_reducible refine Keeps.of_snd (by assumption) ?_)
    | (with_reducible refine Keeps.of_fst (by assumption) ?_) | (with_reducible apply Keeps.ite) | (fail_if_no_progress dsimp only) | split)

theorem State.vreadFree_keeps {r s : State} (h : Keeps r s) (a1 : ℕ) (a2 : ℕ) (a3 : ℕ) (a4 : List ℕ) : Keeps r (State.vreadFree s a1 a2 a3 a4).2 := by
  unfold State.vreadFree
  try dsimp only
  repeat' (first
    | with_reducible assumption | (with_reducible exact Keeps.refl _) | (with_reducible apply State.countAccess_keeps)
    | (with_reducible apply State.draws_keeps) | (with_reducible apply State.tallyRead_keeps)
    | (with_reducible refine Keeps.of_snd (by assumption) ?_) | (with_reducible refine Keeps.of_fst (by assumption) ?_)
    | (with_reducible apply Keeps.ite) | (fail_if_no_progress dsimp only) | split)

theorem State.hbmPutGranule_keeps {r s : State} (h : Keeps r s) (a1 : ℕ) (a2 : List ℕ) : Keeps r (State.hbmPutGranule s a1 a2) := by
  unfold State.hbmPutGranule
  try dsimp only
  repeat' (first
    | with_reducible assumption | (with_reducible exact Keeps.refl _) | (with_reducible apply State.updHbm_keeps) | (with_reducible apply Keeps.ite)
    | (fail_if_no_progress with_reducible refine Keeps.rec_upd ?_ rfl rfl rfl rfl rfl) | (fail_if_no_progress dsimp only) | split)

theorem State.hbmPut_keeps {r s : State} (h : Keeps r s) (a1 : ℕ) (a2 : List ℕ) : Keeps r (State.hbmPut s a1 a2) := by
  unfold State.hbmPut
  try dsimp only
  repeat' (first
    | with_reducible assumption | (with_reducible exact Keeps.refl _) | (with_reducible apply State.hbmPutGranule_keeps)
    | (with_reducible apply Keeps.ite) | (with_reducible apply Keeps.foldl) | intro _ _ _ | (fail_if_no_progress dsimp only) | split)

theorem State.updMod_keeps {r s : State} (h : Keeps r s) (a1 : ℕ) (a2 : ModS → ModS) : Keeps r (State.updMod s a1 a2) := by
  unfold State.updMod
  try dsimp only
  repeat' (first
    | with_reducible assumption | (with_reducible exact Keeps.refl _) | (with_reducible apply State.updBay_keeps) | (with_reducible apply Keeps.ite)
    | (fail_if_no_progress with_reducible refine Keeps.rec_upd ?_ rfl rfl rfl rfl rfl) | (fail_if_no_progress dsimp only) | split)

theorem State.modWear_keeps {r s : State} (h : Keeps r s) (a1 : ℕ) (a2 : ℕ) (a3 : ℕ) (a4 : Bool) : Keeps r (State.modWear s a1 a2 a3 a4) := by
  unfold State.modWear
  try dsimp only
  repeat' (first
    | with_reducible assumption | (with_reducible exact Keeps.refl _) | (with_reducible apply State.updBay_keeps)
    | (with_reducible apply State.updMod_keeps) | (with_reducible apply Keeps.ite)
    | (fail_if_no_progress with_reducible refine Keeps.rec_upd ?_ rfl rfl rfl rfl rfl) | (fail_if_no_progress dsimp only) | split)

theorem State.vwrite_keeps {r s : State} (h : Keeps r s) (a1 : ℕ) (a2 : ℕ) (a3 : List ℕ) : Keeps r (State.vwrite s a1 a2 a3) := by
  unfold State.vwrite
  try dsimp only
  repeat' (first
    | with_reducible assumption | (with_reducible exact Keeps.refl _) | (with_reducible apply State.bayError_keeps)
    | (with_reducible apply State.countAccess_keeps) | (with_reducible apply State.emit_keeps) | (with_reducible apply State.hbmPut_keeps)
    | (with_reducible apply State.lockAbort_keeps) | (with_reducible apply State.modWear_keeps) | (with_reducible apply State.wrapAdd_keeps)
    | (with_reducible refine Keeps.of_snd (by assumption) ?_) | (with_reducible refine Keeps.of_fst (by assumption) ?_)
    | (with_reducible apply Keeps.ite) | (fail_if_no_progress with_reducible refine Keeps.rec_upd ?_ rfl rfl rfl rfl rfl)
    | (fail_if_no_progress with_reducible refine Keeps.rec_wf ?_ rfl rfl (by first | exact id | exact memWf_memWrite _ _ | exact mwf_mblock _ _ | exact mwf_mdrop _ | exact fun _ => rfl) (by first | exact id | exact memWf_memWrite _ _ | exact mwf_mblock _ _ | exact mwf_mdrop _ | exact fun _ => rfl) (by first | exact id | exact memWf_memWrite _ _ | exact mwf_mblock _ _ | exact mwf_mdrop _ | exact fun _ => rfl))
    | (fail_if_no_progress dsimp only) | split)

theorem State.setSheetWord_keeps {r s : State} (h : Keeps r s) (a1 : ℕ) (a2 : ℕ) (a3 : ℕ) (a4 : ℕ) : Keeps r (State.setSheetWord s a1 a2 a3 a4) := by
  unfold State.setSheetWord
  try dsimp only
  repeat' (first
    | with_reducible assumption | (with_reducible exact Keeps.refl _) | (with_reducible apply Keeps.ite)
    | (fail_if_no_progress with_reducible refine Keeps.rec_upd ?_ rfl rfl rfl rfl rfl) | (fail_if_no_progress dsimp only) | split)

theorem State.dropLow_keeps {r s : State} (h : Keeps r s) (a1 : Fld) (a2 : ℕ) (a3 : ℕ) : Keeps r (State.dropLow s a1 a2 a3) := by
  unfold State.dropLow
  try dsimp only
  repeat' (first
    | with_reducible assumption | (with_reducible exact Keeps.refl _) | (with_reducible apply Keeps.ite)
    | (fail_if_no_progress with_reducible refine Keeps.rec_upd ?_ rfl rfl rfl rfl rfl) | (fail_if_no_progress dsimp only) | split)

theorem execDmaAbort_keeps {r s : State} (h : Keeps r s) (a0 : Car) (a1 : Fin 64) : KeepsR r (execDmaAbort a0 a1 s) := by
  unfold execDmaAbort
  try dsimp only
  repeat' (first
    | with_reducible assumption | (with_reducible exact Keeps.refl _) | with_reducible apply KeepsR.ok | with_reducible apply KeepsR.ite
    | (with_reducible apply State.dmaAbort_keeps) | (with_reducible apply State.regEvent_keeps) | (with_reducible apply Keeps.ite) | intro _ _
    | (fail_if_no_progress dsimp only) | split)

theorem State.dmaHead_keeps {r s : State} (h : Keeps r s) (a1 : ℕ) (a2 : ℕ) (a3 : ℕ) : Keeps r (State.dmaHead s a1 a2 a3) := by
  unfold State.dmaHead
  try dsimp only
  repeat' (first
    | with_reducible assumption | (with_reducible exact Keeps.refl _) | (with_reducible apply State.draw_keeps)
    | (with_reducible apply State.setFld_keeps) | (with_reducible apply Keeps.ite) | (fail_if_no_progress dsimp only) | split)

theorem execDmaHeadWrite_keeps {r s : State} (h : Keeps r s) (a0 : Car) (a1 : Fin 64) (a2 : BitVec 16) : KeepsR r (execDmaHeadWrite a0 a1 a2 s) := by
  unfold execDmaHeadWrite
  try dsimp only
  repeat' (first
    | with_reducible assumption | (with_reducible exact Keeps.refl _) | with_reducible apply KeepsR.ok | with_reducible apply KeepsR.ite
    | (with_reducible apply State.dmaHead_keeps) | (with_reducible apply State.regEvent_keeps) | (with_reducible apply Keeps.ite) | intro _ _
    | (fail_if_no_progress dsimp only) | split)

theorem State.walkRead_keeps {r s : State} (h : Keeps r s) (a1 : ℕ) (a2 : ℕ) (a3 : ℕ) (a4 : ℕ) : Keeps r (State.walkRead s a1 a2 a3 a4) := by
  unfold State.walkRead
  try dsimp only
  repeat' (first
    | with_reducible assumption | (with_reducible exact Keeps.refl _) | (with_reducible apply State.niSend_keeps) | (with_reducible apply Keeps.ite)
    | (fail_if_no_progress with_reducible refine Keeps.rec_upd ?_ rfl rfl rfl rfl rfl) | (fail_if_no_progress dsimp only) | split)

theorem State.restartWalk_keeps {r s : State} (h : Keeps r s) (a1 : ℕ) (a2 : Walk) : Keeps r (State.restartWalk s a1 a2) := by
  unfold State.restartWalk
  try dsimp only
  repeat' (first
    | with_reducible assumption | (with_reducible exact Keeps.refl _) | (with_reducible apply State.updTc_keeps)
    | (with_reducible apply State.walkRead_keeps) | (with_reducible refine Keeps.of_snd (by assumption) ?_)
    | (with_reducible refine Keeps.of_fst (by assumption) ?_) | (with_reducible apply Keeps.ite)
    | (fail_if_no_progress with_reducible refine Keeps.rec_upd ?_ rfl rfl rfl rfl rfl) | (fail_if_no_progress dsimp only) | split)

theorem State.invalidate_keeps {r s : State} (h : Keeps r s) (a1 : ℕ) (a2 : ℕ) (a3 : ℕ) (a4 : ℕ) : Keeps r (State.invalidate s a1 a2 a3 a4) := by
  unfold State.invalidate
  try dsimp only
  repeat' (first
    | with_reducible assumption | (with_reducible exact Keeps.refl _) | (with_reducible apply State.restartWalk_keeps)
    | (with_reducible apply State.updTc_keeps) | (with_reducible apply Keeps.ite) | (with_reducible apply Keeps.foldl) | intro _ _ _
    | (fail_if_no_progress with_reducible refine Keeps.rec_upd ?_ rfl rfl rfl rfl rfl) | (fail_if_no_progress dsimp only) | split)

theorem State.dmaInval_keeps {r s : State} (h : Keeps r s) (a1 : ℕ) (a2 : ℕ) (a3 : ℕ) : Keeps r (State.dmaInval s a1 a2 a3) := by
  unfold State.dmaInval
  try dsimp only
  repeat' (first
    | with_reducible assumption | (with_reducible exact Keeps.refl _) | (with_reducible apply State.invalidate_keeps)
    | (with_reducible apply State.setFlag_keeps) | (with_reducible apply State.updFab_keeps) | (with_reducible apply Keeps.ite)
    | (fail_if_no_progress with_reducible refine Keeps.rec_upd ?_ rfl rfl rfl rfl rfl) | (fail_if_no_progress dsimp only) | split)

theorem execDmaInvalAll_keeps {r s : State} (h : Keeps r s) (a0 : Car) : KeepsR r (execDmaInvalAll a0 s) := by
  unfold execDmaInvalAll
  try dsimp only
  repeat' (first
    | with_reducible assumption | (with_reducible exact Keeps.refl _) | with_reducible apply KeepsR.ok | with_reducible apply KeepsR.ite
    | (with_reducible apply State.dmaInval_keeps) | (with_reducible apply State.regEvent_keeps) | (with_reducible apply Keeps.ite) | intro _ _
    | (fail_if_no_progress dsimp only) | split)

theorem execDmaInvalContext_keeps {r s : State} (h : Keeps r s) (a0 : Car) (a1 : Ctx) : KeepsR r (execDmaInvalContext a0 a1 s) := by
  unfold execDmaInvalContext
  try dsimp only
  repeat' (first
    | with_reducible assumption | (with_reducible exact Keeps.refl _) | with_reducible apply KeepsR.ok | with_reducible apply KeepsR.ite
    | (with_reducible apply State.dmaInval_keeps) | (with_reducible apply State.regEvent_keeps) | (with_reducible apply Keeps.ite) | intro _ _
    | (fail_if_no_progress dsimp only) | split)

theorem execDmaInvalPage_keeps {r s : State} (h : Keeps r s) (a0 : Car) (a1 : Ctx) : KeepsR r (execDmaInvalPage a0 a1 s) := by
  unfold execDmaInvalPage
  try dsimp only
  repeat' (first
    | with_reducible assumption | (with_reducible exact Keeps.refl _) | with_reducible apply KeepsR.ok | with_reducible apply KeepsR.ite
    | (with_reducible apply State.dmaInval_keeps) | (with_reducible apply State.regEvent_keeps) | (with_reducible apply Keeps.ite) | intro _ _
    | (fail_if_no_progress dsimp only) | split)

theorem execDmaRun_keeps {r s : State} (h : Keeps r s) (a0 : Car) (a1 : Fin 64) (a2 : Bool) : KeepsR r (execDmaRun a0 a1 a2 s) := by
  unfold execDmaRun
  try dsimp only
  repeat' (first
    | with_reducible assumption | (with_reducible exact Keeps.refl _) | with_reducible apply KeepsR.ok | with_reducible apply KeepsR.ite
    | (with_reducible apply State.regEvent_keeps) | (with_reducible apply State.setFlag_keeps) | (with_reducible apply Keeps.ite) | intro _ _
    | (fail_if_no_progress dsimp only) | split)

theorem execDmaStoppedClear_keeps {r s : State} (h : Keeps r s) (a0 : Car) (a1 : Fin 64) : KeepsR r (execDmaStoppedClear a0 a1 s) := by
  unfold execDmaStoppedClear
  try dsimp only
  repeat' (first
    | with_reducible assumption | (with_reducible exact Keeps.refl _) | with_reducible apply KeepsR.ok | with_reducible apply KeepsR.ite
    | (with_reducible apply State.regEvent_keeps) | (with_reducible apply State.setFlag_keeps) | (with_reducible apply Keeps.ite) | intro _ _
    | (fail_if_no_progress dsimp only) | split)

theorem execLockstepDisable_keeps {r s : State} (h : Keeps r s)  : KeepsR r (execLockstepDisable s) := by
  unfold execLockstepDisable
  try dsimp only
  repeat' (first
    | with_reducible assumption | (with_reducible exact Keeps.refl _) | with_reducible apply KeepsR.ok | with_reducible apply KeepsR.ite
    | (with_reducible apply State.arbStep_keeps) | (with_reducible apply State.lockEvent_keeps) | (with_reducible apply State.regEvent_keeps)
    | (with_reducible apply State.setFlag_keeps) | (with_reducible apply State.setFld_keeps) | (with_reducible apply State.setFlds_keeps)
    | (with_reducible apply Keeps.ite) | intro _ _ | (fail_if_no_progress with_reducible refine Keeps.rec_upd ?_ rfl rfl rfl rfl rfl)
    | (fail_if_no_progress dsimp only) | split)

theorem execLockstepEnable_keeps {r s : State} (h : Keeps r s)  : KeepsR r (execLockstepEnable s) := by
  unfold execLockstepEnable
  try dsimp only
  repeat' (first
    | with_reducible assumption | (with_reducible exact Keeps.refl _) | with_reducible apply KeepsR.ok | with_reducible apply KeepsR.ite
    | (with_reducible apply State.lockEvent_keeps) | (with_reducible apply State.regEvent_keeps) | (with_reducible apply State.setFld_keeps)
    | (with_reducible apply State.setFlds_keeps) | (with_reducible apply Keeps.ite) | intro _ _ | (fail_if_no_progress dsimp only) | split)

theorem execReinArm_keeps {r s : State} (h : Keeps r s)  : KeepsR r (execReinArm s) := by
  unfold execReinArm
  try dsimp only
  repeat' (first
    | with_reducible assumption | (with_reducible exact Keeps.refl _) | with_reducible apply KeepsR.ok | with_reducible apply KeepsR.ite
    | (with_reducible apply State.driveRein_keeps) | (with_reducible apply State.regEvent_keeps) | (with_reducible apply State.setFlds_keeps)
    | (with_reducible apply Keeps.ite) | intro _ _ | (fail_if_no_progress with_reducible refine Keeps.rec_upd ?_ rfl rfl rfl rfl rfl)
    | (fail_if_no_progress dsimp only) | split)

theorem execReinDisarm_keeps {r s : State} (h : Keeps r s)  : KeepsR r (execReinDisarm s) := by
  unfold execReinDisarm
  try dsimp only
  repeat' (first
    | with_reducible assumption | (with_reducible exact Keeps.refl _) | with_reducible apply KeepsR.ok | with_reducible apply KeepsR.ite
    | (with_reducible apply State.driveRein_keeps) | (with_reducible apply State.regEvent_keeps) | (with_reducible apply State.setFld_keeps)
    | (with_reducible apply Keeps.ite) | intro _ _ | (fail_if_no_progress with_reducible refine Keeps.rec_upd ?_ rfl rfl rfl rfl rfl)
    | (fail_if_no_progress dsimp only) | split)

theorem execReinReady_keeps {r s : State} (h : Keeps r s)  : KeepsR r (execReinReady s) := by
  unfold execReinReady
  try dsimp only
  repeat' (first
    | with_reducible assumption | (with_reducible exact Keeps.refl _) | with_reducible apply KeepsR.ok | with_reducible apply KeepsR.ite
    | (with_reducible apply State.driveRein_keeps) | (with_reducible apply State.masterDecide_keeps) | (with_reducible apply State.regEvent_keeps)
    | (with_reducible apply State.setFld_keeps) | (with_reducible apply Keeps.ite) | intro _ _
    | (fail_if_no_progress with_reducible refine Keeps.rec_upd ?_ rfl rfl rfl rfl rfl) | (fail_if_no_progress dsimp only) | split)

theorem State.ask_keeps {r s : State} (h : Keeps r s) (a1 : ℕ) (a2 : ℕ) (a3 : ℕ) (a4 : Bool) : Keeps r (State.ask s a1 a2 a3 a4).2 := by
  unfold State.ask
  try dsimp only
  repeat' (first
    | with_reducible assumption | (with_reducible exact Keeps.refl _) | (with_reducible apply State.updTc_keeps)
    | (with_reducible apply State.walkRead_keeps) | (with_reducible refine Keeps.of_snd (by assumption) ?_)
    | (with_reducible refine Keeps.of_fst (by assumption) ?_) | (with_reducible apply Keeps.ite)
    | (fail_if_no_progress with_reducible refine Keeps.rec_upd ?_ rfl rfl rfl rfl rfl) | (fail_if_no_progress dsimp only) | split)

theorem State.takeInbox_keeps {r s : State} (h : Keeps r s) (a1 : ℕ) (a2 : Packet → Bool) {t : _ × State} (hq : State.takeInbox s a1 a2 = some t) :
    Keeps r t.2 := by
  simp only [State.takeInbox] at hq
  repeat' (first
    | contradiction | (obtain rfl := Option.some.inj hq) | (split at hq) | with_reducible assumption | (with_reducible exact Keeps.refl _)
    | (with_reducible refine Keeps.of_snd (by assumption) ?_) | (with_reducible refine Keeps.of_fst (by assumption) ?_)
    | (with_reducible apply Keeps.ite) | (fail_if_no_progress with_reducible refine Keeps.rec_upd ?_ rfl rfl rfl rfl rfl)
    | (fail_if_no_progress dsimp only) | split)

theorem State.walkReturn_keeps {r s : State} (h : Keeps r s) (a1 : ℕ) : Keeps r (State.walkReturn s a1).2 := by
  unfold State.walkReturn
  try dsimp only
  repeat' (first
    | with_reducible assumption | (with_reducible exact Keeps.refl _) | (with_reducible apply State.updTc_keeps)
    | (with_reducible apply State.walkRead_keeps) | (with_reducible refine State.takeInbox_keeps ?_ _ _ (by assumption))
    | (with_reducible refine Keeps.of_snd (by assumption) ?_) | (with_reducible refine Keeps.of_fst (by assumption) ?_)
    | (with_reducible apply Keeps.ite) | (fail_if_no_progress with_reducible refine Keeps.rec_upd ?_ rfl rfl rfl rfl rfl)
    | (fail_if_no_progress dsimp only) | split)

theorem State.setLane_keeps {r s : State} (h : Keeps r s) (a1 : ℕ) (a2 : ℕ) (a3 : ℕ) (a4 : ℕ) : Keeps r (State.setLane s a1 a2 a3 a4) := by
  unfold State.setLane
  try dsimp only
  repeat' (first
    | with_reducible assumption | (with_reducible exact Keeps.refl _) | (with_reducible apply Keeps.ite)
    | (fail_if_no_progress with_reducible refine Keeps.rec_upd ?_ rfl rfl rfl rfl rfl) | (fail_if_no_progress dsimp only) | split)

theorem State.askAll_keeps {r s : State} (h : Keeps r s) (a1 : ℕ) (a2 : ℕ) (a3 : Bool) (a4 : List (ℕ × ℕ)) : Keeps r (State.askAll s a1 a2 a3 a4).2
    := by
  induction a4 generalizing s with
  | nil =>
    unfold State.askAll
    try dsimp only
    repeat' (first
      | with_reducible assumption | (with_reducible exact Keeps.refl _) | (with_reducible apply State.ask_keeps)
      | (with_reducible refine Keeps.of_snd (by assumption) ?_) | (with_reducible refine Keeps.of_fst (by assumption) ?_)
      | (with_reducible apply Keeps.ite) | (fail_if_no_progress dsimp only) | split)
  | cons x l ih =>
    unfold State.askAll
    try dsimp only
    repeat' (first
      | with_reducible apply ih | with_reducible assumption | (with_reducible exact Keeps.refl _) | (with_reducible apply State.ask_keeps)
      | (with_reducible refine Keeps.of_snd (by assumption) ?_) | (with_reducible refine Keeps.of_fst (by assumption) ?_)
      | (with_reducible apply Keeps.ite) | (fail_if_no_progress dsimp only) | split)

theorem State.chanFail_keeps {r s : State} (h : Keeps r s) (a1 : ℕ) (a2 : ℕ) (a3 : ℕ) : Keeps r (State.chanFail s a1 a2 a3) := by
  unfold State.chanFail
  try dsimp only
  repeat' (first
    | with_reducible assumption | (with_reducible exact Keeps.refl _) | (with_reducible apply State.updChan_keeps)
    | (with_reducible apply Keeps.ite) | (fail_if_no_progress with_reducible refine Keeps.rec_upd ?_ rfl rfl rfl rfl rfl)
    | (fail_if_no_progress dsimp only) | split)

theorem State.chanWrite_keeps {r s : State} (h : Keeps r s) (a1 : ℕ) (a2 : ℕ) (a3 : Desc) (a4 : Chan) : Keeps r (State.chanWrite s a1 a2 a3 a4) := by
  unfold State.chanWrite
  try dsimp only
  repeat' (first
    | with_reducible assumption | (with_reducible exact Keeps.refl _) | (with_reducible apply State.ask_keeps)
    | (with_reducible apply State.chanFail_keeps) | (with_reducible apply State.lockAbort_keeps) | (with_reducible apply State.niSend_keeps)
    | (with_reducible apply State.updChan_keeps) | (with_reducible refine Keeps.of_snd (by assumption) ?_)
    | (with_reducible refine Keeps.of_fst (by assumption) ?_) | (with_reducible apply Keeps.ite) | (with_reducible apply Keeps.foldl) | intro _ _ _
    | (fail_if_no_progress with_reducible refine Keeps.rec_upd ?_ rfl rfl rfl rfl rfl) | (fail_if_no_progress dsimp only) | split)

theorem State.chanGo_keeps {r s : State} (h : Keeps r s) (a1 : ℕ) (a2 : ℕ) : Keeps r (State.chanGo s a1 a2) := by
  unfold State.chanGo
  try dsimp only
  repeat' (first
    | with_reducible assumption | (with_reducible exact Keeps.refl _) | (with_reducible apply State.askAll_keeps)
    | (with_reducible apply State.chanFail_keeps) | (with_reducible apply State.chanWrite_keeps) | (with_reducible apply State.lockAbort_keeps)
    | (with_reducible apply State.niSend_keeps) | (with_reducible apply State.updChan_keeps)
    | (with_reducible refine Keeps.of_snd (by assumption) ?_) | (with_reducible refine Keeps.of_fst (by assumption) ?_)
    | (with_reducible apply Keeps.ite) | (with_reducible apply Keeps.foldl) | intro _ _ _
    | (fail_if_no_progress with_reducible refine Keeps.rec_upd ?_ rfl rfl rfl rfl rfl) | (fail_if_no_progress dsimp only) | split)

theorem execDmaBurst_keeps {r s : State} (h : Keeps r s) (a0 : Car) : KeepsR r (execDmaBurst a0 s) := by
  unfold execDmaBurst
  try dsimp only
  repeat' (first
    | with_reducible assumption | (with_reducible exact Keeps.refl _) | with_reducible apply KeepsR.ok | with_reducible apply KeepsR.ite
    | (with_reducible apply State.chanGo_keeps) | (with_reducible apply State.ring_keeps) | (with_reducible apply State.updChan_keeps)
    | (with_reducible refine Keeps.of_snd (by assumption) ?_) | (with_reducible refine Keeps.of_fst (by assumption) ?_)
    | (with_reducible apply Keeps.ite) | (fail_if_no_progress with_reducible refine Keeps.rec_upd ?_ rfl rfl rfl rfl rfl)
    | (fail_if_no_progress dsimp only) | split)

theorem State.readyMark_keeps {r s : State} (h : Keeps r s) (a1 : ℕ) : Keeps r (State.readyMark s a1) := by
  unfold State.readyMark
  try dsimp only
  repeat' (first
    | with_reducible assumption | (with_reducible exact Keeps.refl _) | (with_reducible apply State.bump_keeps)
    | (with_reducible apply State.masterDecide_keeps) | (with_reducible apply State.updLink_keeps) | (with_reducible apply Keeps.ite)
    | (fail_if_no_progress with_reducible refine Keeps.rec_upd ?_ rfl rfl rfl rfl rfl) | (fail_if_no_progress dsimp only) | split)

theorem State.fireMark_keeps {r s : State} (h : Keeps r s) (a1 : ℕ) (a2 : ℕ) : Keeps r (State.fireMark s a1 a2) := by
  unfold State.fireMark
  try dsimp only
  repeat' (first
    | with_reducible assumption | (with_reducible exact Keeps.refl _) | (with_reducible apply State.reinFail_keeps)
    | (with_reducible apply State.updLink_keeps) | (with_reducible apply Keeps.ite)
    | (fail_if_no_progress with_reducible refine Keeps.rec_upd ?_ rfl rfl rfl rfl rfl) | (fail_if_no_progress dsimp only) | split)

theorem State.ageCaches_keeps {r s : State} (h : Keeps r s)  : Keeps r (State.ageCaches s) := by
  unfold State.ageCaches
  try dsimp only
  repeat' (first
    | with_reducible assumption | (with_reducible exact Keeps.refl _) | (with_reducible apply State.updTc_keeps) | (with_reducible apply Keeps.ite)
    | (with_reducible apply Keeps.foldl) | intro _ _ _ | (fail_if_no_progress with_reducible refine Keeps.rec_upd ?_ rfl rfl rfl rfl rfl)
    | (fail_if_no_progress dsimp only) | split)

theorem State.latchHigh_keeps {r s : State} (h : Keeps r s) (a1 : Fld) (a2 : ℕ) (a3 : ℕ) (a4 : ℕ) : Keeps r (State.latchHigh s a1 a2 a3 a4) := by
  unfold State.latchHigh
  try dsimp only
  repeat' (first
    | with_reducible assumption | (with_reducible exact Keeps.refl _) | (with_reducible apply Keeps.ite)
    | (fail_if_no_progress with_reducible refine Keeps.rec_upd ?_ rfl rfl rfl rfl rfl) | (fail_if_no_progress dsimp only) | split)

theorem State.recordUe_keeps {r s : State} (h : Keeps r s) (a1 : ℕ) (a2 : Packet) (a3 : ℕ) (a4 : Bool) : Keeps r (State.recordUe s a1 a2 a3 a4) := by
  unfold State.recordUe
  try dsimp only
  repeat' (first
    | with_reducible assumption | (with_reducible exact Keeps.refl _) | (with_reducible apply State.bump_keeps)
    | (with_reducible apply State.setFlag_keeps) | (with_reducible apply State.setFlds_keeps) | (with_reducible apply Keeps.ite)
    | (fail_if_no_progress dsimp only) | split)

theorem State.ringFails_keeps {r s : State} (h : Keeps r s) (a1 : ℕ) (a2 : ℕ) (a3 : ℕ) (a4 : ℕ) : Keeps r (State.ringFails s a1 a2 a3 a4) := by
  unfold State.ringFails
  try dsimp only
  repeat' (first
    | with_reducible assumption | (with_reducible exact Keeps.refl _) | (with_reducible apply State.chanCleared_keeps)
    | (with_reducible apply State.raise_keeps) | (with_reducible apply State.report_keeps) | (with_reducible apply State.setFlds_keeps)
    | (with_reducible apply State.updChan_keeps) | (with_reducible apply Keeps.ite)
    | (fail_if_no_progress with_reducible refine Keeps.rec_upd ?_ rfl rfl rfl rfl rfl) | (fail_if_no_progress dsimp only) | split)

theorem State.chanFetch_keeps {r s : State} (h : Keeps r s) (a1 : ℕ) (a2 : ℕ) : Keeps r (State.chanFetch s a1 a2) := by
  unfold State.chanFetch
  try dsimp only
  repeat' (first
    | with_reducible assumption | (with_reducible exact Keeps.refl _) | (with_reducible apply State.ask_keeps)
    | (with_reducible apply State.lockAbort_keeps) | (with_reducible apply State.niSend_keeps) | (with_reducible apply State.ringFails_keeps)
    | (with_reducible apply State.updChan_keeps) | (with_reducible refine Keeps.of_snd (by assumption) ?_)
    | (with_reducible refine Keeps.of_fst (by assumption) ?_) | (with_reducible apply Keeps.ite)
    | (fail_if_no_progress with_reducible refine Keeps.rec_upd ?_ rfl rfl rfl rfl rfl) | (fail_if_no_progress dsimp only) | split)

theorem State.tryForward_keeps {r s : State} (h : Keeps r s) (a1 : ℕ) (a2 : ℕ) (a3 : ℕ) (a4 : ℕ) (a5 : ℕ) : Keeps r (State.tryForward s a1 a2 a3 a4
    a5) := by
  unfold State.tryForward
  try dsimp only
  repeat' (first
    | with_reducible assumption | (with_reducible exact Keeps.refl _) | (with_reducible apply State.pushWire_keeps)
    | (with_reducible refine Keeps.of_snd (by assumption) ?_) | (with_reducible refine Keeps.of_fst (by assumption) ?_)
    | (with_reducible apply Keeps.ite) | (fail_if_no_progress with_reducible refine Keeps.rec_upd ?_ rfl rfl rfl rfl rfl)
    | (fail_if_no_progress dsimp only) | split)

theorem State.outputCycle_keeps {r s : State} (h : Keeps r s) (a1 : ℕ) (a2 : ℕ) (a3 : ℕ) : Keeps r (State.outputCycle s a1 a2 a3) := by
  unfold State.outputCycle
  try dsimp only
  repeat' (first
    | with_reducible assumption | (with_reducible exact Keeps.refl _) | (with_reducible apply State.tryForward_keeps)
    | (with_reducible refine Keeps.of_snd (by assumption) ?_) | (with_reducible refine Keeps.of_fst (by assumption) ?_)
    | (with_reducible apply Keeps.ite) | (fail_if_no_progress with_reducible refine Keeps.rec_upd ?_ rfl rfl rfl rfl rfl)
    | (fail_if_no_progress dsimp only) | split)

theorem State.routerCycles_keeps {r s : State} (h : Keeps r s) (a1 : ℕ) (a2 : ℕ) (a3 : ℕ) : Keeps r (State.routerCycles s a1 a2 a3) := by
  induction a3 generalizing s with
  | zero =>
    unfold State.routerCycles
    try dsimp only
    repeat' (first
      | with_reducible assumption | (with_reducible exact Keeps.refl _) | (with_reducible apply State.outputCycle_keeps)
      | (with_reducible apply Keeps.ite) | (with_reducible apply Keeps.foldl) | intro _ _ _ | (fail_if_no_progress dsimp only) | split)
  | succ n ih =>
    unfold State.routerCycles
    try dsimp only
    repeat' (first
      | with_reducible apply ih | with_reducible assumption | (with_reducible exact Keeps.refl _) | (with_reducible apply State.outputCycle_keeps)
      | (with_reducible apply Keeps.ite) | (with_reducible apply Keeps.foldl) | intro _ _ _ | (fail_if_no_progress dsimp only) | split)

theorem execReinCycle_keeps {r s : State} (h : Keeps r s)  : KeepsR r (execReinCycle s) := by
  unfold execReinCycle
  try dsimp only
  repeat' (first
    | with_reducible assumption | (with_reducible exact Keeps.refl _) | with_reducible apply KeepsR.ok | with_reducible apply KeepsR.ite
    | (with_reducible apply State.setFlds_keeps) | (with_reducible apply State.ungateCar_keeps) | (with_reducible apply State.updHbm_keeps)
    | (with_reducible refine Keeps.of_snd (by assumption) ?_) | (with_reducible refine Keeps.of_fst (by assumption) ?_)
    | (with_reducible apply Keeps.ite) | (with_reducible apply Keeps.foldl) | intro _ _ _
    | (fail_if_no_progress with_reducible refine Keeps.rec_upd ?_ rfl rfl rfl rfl rfl) | (fail_if_no_progress dsimp only) | split)

theorem State.chanStatus_keeps {r s : State} (h : Keeps r s) (a1 : ℕ) (a2 : ℕ) (a3 : Desc) (a4 : Chan) : Keeps r (State.chanStatus s a1 a2 a3 a4) :=
    by
  unfold State.chanStatus
  try dsimp only
  repeat' (first
    | with_reducible assumption | (with_reducible exact Keeps.refl _) | (with_reducible apply State.ask_keeps)
    | (with_reducible apply State.lockAbort_keeps) | (with_reducible apply State.niSend_keeps) | (with_reducible apply State.ringFails_keeps)
    | (with_reducible apply State.updChan_keeps) | (with_reducible refine Keeps.of_snd (by assumption) ?_)
    | (with_reducible refine Keeps.of_fst (by assumption) ?_) | (with_reducible apply Keeps.ite)
    | (fail_if_no_progress with_reducible refine Keeps.rec_upd ?_ rfl rfl rfl rfl rfl) | (fail_if_no_progress dsimp only) | split)

theorem State.chanRetry_keeps {r s : State} (h : Keeps r s) (a1 : ℕ) (a2 : ℕ) : Keeps r (State.chanRetry s a1 a2) := by
  unfold State.chanRetry
  try dsimp only
  repeat' (first
    | with_reducible assumption | (with_reducible exact Keeps.refl _) | (with_reducible apply State.chanFetch_keeps)
    | (with_reducible apply State.chanGo_keeps) | (with_reducible apply State.chanStatus_keeps)
    | (with_reducible refine Keeps.of_snd (by assumption) ?_) | (with_reducible refine Keeps.of_fst (by assumption) ?_)
    | (with_reducible apply Keeps.ite) | (fail_if_no_progress dsimp only) | split)

theorem State.descReturn_keeps {r s : State} (h : Keeps r s) (a1 : ℕ) (a2 : ℕ) (a3 : Packet) : Keeps r (State.descReturn s a1 a2 a3) := by
  unfold State.descReturn
  try dsimp only
  repeat' (first
    | with_reducible assumption | (with_reducible exact Keeps.refl _) | (with_reducible apply State.ringFails_keeps)
    | (with_reducible apply State.setFlag_keeps) | (with_reducible apply State.updChan_keeps) | (with_reducible apply Keeps.ite)
    | (fail_if_no_progress with_reducible refine Keeps.rec_upd ?_ rfl rfl rfl rfl rfl) | (fail_if_no_progress dsimp only) | split)

theorem execDmaReadReturn_keeps {r s : State} (h : Keeps r s) (a0 : Car) : KeepsR r (execDmaReadReturn a0 s) := by
  unfold execDmaReadReturn
  try dsimp only
  repeat' (first
    | with_reducible assumption | (with_reducible exact Keeps.refl _) | with_reducible apply KeepsR.ok | with_reducible apply KeepsR.ite
    | (with_reducible apply State.chanFail_keeps) | (with_reducible apply State.chanGo_keeps) | (with_reducible apply State.descReturn_keeps)
    | (with_reducible apply State.updChan_keeps) | (with_reducible refine State.takeInbox_keeps ?_ _ _ (by assumption))
    | (with_reducible refine Keeps.of_snd (by assumption) ?_) | (with_reducible refine Keeps.of_fst (by assumption) ?_)
    | (with_reducible apply Keeps.ite) | (fail_if_no_progress with_reducible refine Keeps.rec_upd ?_ rfl rfl rfl rfl rfl)
    | (fail_if_no_progress dsimp only) | split)

theorem execTcAgeTick_keeps {r s : State} (h : Keeps r s)  : KeepsR r (execTcAgeTick s) := by
  unfold execTcAgeTick
  try dsimp only
  repeat' (first
    | with_reducible assumption | (with_reducible exact Keeps.refl _) | with_reducible apply KeepsR.ok | with_reducible apply KeepsR.ite
    | (with_reducible apply State.ageCaches_keeps) | (with_reducible apply Keeps.ite)
    | (fail_if_no_progress with_reducible refine Keeps.rec_upd ?_ rfl rfl rfl rfl rfl) | (fail_if_no_progress dsimp only) | split)

theorem execTcEntryLapse_keeps {r s : State} (h : Keeps r s) (a0 : Eng) (a1 : Fin 1024) : KeepsR r (execTcEntryLapse a0 a1 s) := by
  unfold execTcEntryLapse
  try dsimp only
  repeat' (first
    | with_reducible assumption | (with_reducible exact Keeps.refl _) | with_reducible apply KeepsR.ok | with_reducible apply KeepsR.ite
    | (with_reducible apply State.updTc_keeps) | (with_reducible refine Keeps.of_snd (by assumption) ?_)
    | (with_reducible refine Keeps.of_fst (by assumption) ?_) | (with_reducible apply Keeps.ite)
    | (fail_if_no_progress with_reducible refine Keeps.rec_upd ?_ rfl rfl rfl rfl rfl) | (fail_if_no_progress dsimp only) | split)

theorem execDmaDescFetch_keeps {r s : State} (h : Keeps r s) (a0 : Car) (a1 : Fin 64) : KeepsR r (execDmaDescFetch a0 a1 s) := by
  unfold execDmaDescFetch
  try dsimp only
  repeat' (first
    | with_reducible assumption | (with_reducible exact Keeps.refl _) | with_reducible apply KeepsR.ok | with_reducible apply KeepsR.ite
    | (with_reducible apply State.chanFetch_keeps) | (with_reducible apply Keeps.ite) | (fail_if_no_progress dsimp only) | split)

theorem execReinRelease_keeps {r s : State} (h : Keeps r s)  : KeepsR r (execReinRelease s) := by
  unfold execReinRelease
  try dsimp only
  repeat' (first
    | with_reducible assumption | (with_reducible exact Keeps.refl _) | with_reducible apply KeepsR.ok | with_reducible apply KeepsR.ite
    | (with_reducible apply State.driveRein_keeps) | (with_reducible apply Keeps.ite)
    | (fail_if_no_progress with_reducible refine Keeps.rec_upd ?_ rfl rfl rfl rfl rfl) | (fail_if_no_progress dsimp only) | split)

theorem State.endDesc_keeps {r s : State} (h : Keeps r s) (a1 : ℕ) (a2 : ℕ) (a3 : Desc) (a4 : Chan) : Keeps r (State.endDesc s a1 a2 a3 a4) := by
  unfold State.endDesc
  try dsimp only
  repeat' (first
    | with_reducible assumption | (with_reducible exact Keeps.refl _) | (with_reducible apply State.chanCleared_keeps)
    | (with_reducible apply State.raise_keeps) | (with_reducible apply State.report_keeps) | (with_reducible apply State.setFlds_keeps)
    | (with_reducible apply State.updChan_keeps) | (with_reducible apply Keeps.ite)
    | (fail_if_no_progress with_reducible refine Keeps.rec_upd ?_ rfl rfl rfl rfl rfl) | (fail_if_no_progress dsimp only) | split)

theorem State.forwardAll_keeps {r s : State} (h : Keeps r s) (a1 : ℕ) (a2 : ℕ) : Keeps r (State.forwardAll s a1 a2) := by
  unfold State.forwardAll
  try dsimp only
  repeat' (first
    | with_reducible assumption | (with_reducible exact Keeps.refl _) | (with_reducible apply State.routerCycles_keeps)
    | (with_reducible apply Keeps.ite) | (with_reducible apply Keeps.foldl) | intro _ _ _ | (fail_if_no_progress dsimp only) | split)

theorem State.giveBack_keeps {r s : State} (h : Keeps r s) (a1 : ℕ) (a2 : ℕ) : Keeps r (State.giveBack s a1 a2) := by
  unfold State.giveBack
  try dsimp only
  repeat' (first
    | with_reducible assumption | (with_reducible exact Keeps.refl _) | (with_reducible apply Keeps.ite)
    | (fail_if_no_progress with_reducible refine Keeps.rec_upd ?_ rfl rfl rfl rfl rfl) | (fail_if_no_progress dsimp only) | split)

theorem execReinLineHigh_keeps {r s : State} (h : Keeps r s) (a0 : Bool) : KeepsR r (execReinLineHigh a0 s) := by
  unfold execReinLineHigh
  try dsimp only
  repeat' (first
    | with_reducible assumption | (with_reducible exact Keeps.refl _) | with_reducible apply KeepsR.ok | with_reducible apply KeepsR.ite
    | (with_reducible apply State.setFlag_keeps) | (with_reducible apply State.setFld_keeps) | (with_reducible apply Keeps.ite)
    | (fail_if_no_progress with_reducible refine Keeps.rec_upd ?_ rfl rfl rfl rfl rfl) | (fail_if_no_progress dsimp only) | split)

theorem State.statusAck_keeps {r s : State} (h : Keeps r s) (a1 : ℕ) (a2 : ℕ) (a3 : Packet) : Keeps r (State.statusAck s a1 a2 a3) := by
  unfold State.statusAck
  try dsimp only
  repeat' (first
    | with_reducible assumption | (with_reducible exact Keeps.refl _) | (with_reducible apply State.ringFails_keeps)
    | (with_reducible apply State.updChan_keeps) | (with_reducible refine Keeps.of_snd (by assumption) ?_)
    | (with_reducible refine Keeps.of_fst (by assumption) ?_) | (with_reducible apply Keeps.ite)
    | (fail_if_no_progress with_reducible refine Keeps.rec_upd ?_ rfl rfl rfl rfl rfl) | (fail_if_no_progress dsimp only) | split)

theorem State.dropPacket_keeps {r s : State} (h : Keeps r s) (a1 : ℕ) : Keeps r (State.dropPacket s a1) := by
  unfold State.dropPacket
  try dsimp only
  repeat' (first
    | with_reducible assumption | (with_reducible exact Keeps.refl _) | (with_reducible apply State.giveBack_keeps)
    | (with_reducible apply Keeps.ite) | (with_reducible apply Keeps.foldl) | intro _ _ _
    | (fail_if_no_progress with_reducible refine Keeps.rec_upd ?_ rfl rfl rfl rfl rfl) | (fail_if_no_progress dsimp only) | split)

theorem execDmaInvalDone_keeps {r s : State} (h : Keeps r s) (a0 : Car) : KeepsR r (execDmaInvalDone a0 s) := by
  unfold execDmaInvalDone
  try dsimp only
  repeat' (first
    | with_reducible assumption | (with_reducible exact Keeps.refl _) | with_reducible apply KeepsR.ok | with_reducible apply KeepsR.ite
    | (with_reducible apply State.setFlag_keeps) | (with_reducible apply State.updTc_keeps) | (with_reducible apply Keeps.ite)
    | (fail_if_no_progress with_reducible refine Keeps.rec_upd ?_ rfl rfl rfl rfl rfl) | (fail_if_no_progress dsimp only) | split)

theorem execDmaDescEnd_keeps {r s : State} (h : Keeps r s) (a0 : Car) (a1 : Fin 64) : KeepsR r (execDmaDescEnd a0 a1 s) := by
  unfold execDmaDescEnd
  try dsimp only
  repeat' (first
    | with_reducible assumption | (with_reducible exact Keeps.refl _) | with_reducible apply KeepsR.ok | with_reducible apply KeepsR.ite
    | (with_reducible apply State.chanStatus_keeps) | (with_reducible apply State.endDesc_keeps)
    | (with_reducible refine Keeps.of_snd (by assumption) ?_) | (with_reducible refine Keeps.of_fst (by assumption) ?_)
    | (with_reducible apply Keeps.ite) | (fail_if_no_progress dsimp only) | split)

theorem execReinTimeout_keeps {r s : State} (h : Keeps r s)  : KeepsR r (execReinTimeout s) := by
  unfold execReinTimeout
  try dsimp only
  repeat' (first
    | with_reducible assumption | (with_reducible exact Keeps.refl _) | with_reducible apply KeepsR.ok | with_reducible apply KeepsR.ite
    | (with_reducible apply State.reinFail_keeps) | (with_reducible apply Keeps.ite) | (fail_if_no_progress dsimp only) | split)

theorem execDmaWriteAck_keeps {r s : State} (h : Keeps r s) (a0 : Car) : KeepsR r (execDmaWriteAck a0 s) := by
  unfold execDmaWriteAck
  try dsimp only
  repeat' (first
    | with_reducible assumption | (with_reducible exact Keeps.refl _) | with_reducible apply KeepsR.ok | with_reducible apply KeepsR.ite
    | (with_reducible apply State.chanFail_keeps) | (with_reducible apply State.statusAck_keeps) | (with_reducible apply State.updChan_keeps)
    | (with_reducible apply State.wrapAdd_keeps) | (with_reducible refine State.takeInbox_keeps ?_ _ _ (by assumption))
    | (with_reducible refine Keeps.of_snd (by assumption) ?_) | (with_reducible refine Keeps.of_fst (by assumption) ?_)
    | (with_reducible apply Keeps.ite) | (fail_if_no_progress with_reducible refine Keeps.rec_upd ?_ rfl rfl rfl rfl rfl)
    | (fail_if_no_progress dsimp only) | split)

end Sys2Proof.Machine
end

