-- ==== Sys2Proof/Laws/KeepsLinks.lean ====
section
/-! SUPPORT. What the functions of links, routes, the fabric and loading keep (`Keeps`), one lemma each. -/

namespace Sys2Proof.Machine

theorem State.driveIo_keeps {r s : State} (h : Keeps r s) (a1 : ℕ) (a2 : ℕ) (a3 : Bool) : Keeps r (State.driveIo s a1 a2 a3) := by
  unfold State.driveIo
  try dsimp only
  repeat' (first
    | with_reducible assumption | (with_reducible exact Keeps.refl _) | (with_reducible apply State.emit_keeps)
    | (with_reducible apply State.setFlag_keeps) | (with_reducible apply Keeps.ite) | (fail_if_no_progress dsimp only) | split)

theorem State.driveAll_keeps {r s : State} (h : Keeps r s) (a1 : ℕ) : Keeps r (State.driveAll s a1) := by
  unfold State.driveAll
  try dsimp only
  repeat' (first
    | with_reducible assumption | (with_reducible exact Keeps.refl _) | (with_reducible apply State.driveIo_keeps)
    | (with_reducible apply Keeps.ite) | (with_reducible apply Keeps.foldl) | intro _ _ _ | (fail_if_no_progress dsimp only) | split)

theorem execReleaseStart_keeps {r s : State} (h : Keeps r s) (a0 : Car) : KeepsR r (execReleaseStart a0 s) := by
  unfold execReleaseStart
  try dsimp only
  repeat' (first
    | with_reducible assumption | (with_reducible exact Keeps.refl _) | with_reducible apply KeepsR.ok | with_reducible apply KeepsR.ite
    | (with_reducible apply State.driveAll_keeps) | (with_reducible apply State.setFld_keeps) | (with_reducible apply State.updFab_keeps)
    | (with_reducible apply Keeps.ite) | (with_reducible apply Keeps.foldl) | intro _ _ _
    | (fail_if_no_progress with_reducible refine Keeps.rec_upd ?_ rfl rfl rfl rfl rfl) | (fail_if_no_progress dsimp only) | split)

theorem State.clearImageRegs_keeps {r s : State} (h : Keeps r s)  : Keeps r (State.clearImageRegs s) := by
  unfold State.clearImageRegs
  try dsimp only
  repeat' (first
    | with_reducible assumption | (with_reducible exact Keeps.refl _) | (with_reducible apply State.setFld_keeps)
    | (with_reducible refine Keeps.of_snd (by assumption) ?_) | (with_reducible refine Keeps.of_fst (by assumption) ?_)
    | (with_reducible apply Keeps.ite) | (with_reducible apply Keeps.foldl) | intro _ _ _
    | (fail_if_no_progress with_reducible refine Keeps.rec_upd ?_ rfl rfl rfl rfl rfl) | (fail_if_no_progress dsimp only) | split)

theorem State.fabricHeld_keeps {r s : State} (h : Keeps r s) (a1 : ℕ) (a2 : Bool) : Keeps r (State.fabricHeld s a1 a2) := by
  unfold State.fabricHeld
  try dsimp only
  repeat' (first
    | with_reducible assumption | (with_reducible exact Keeps.refl _) | (with_reducible apply State.emit_keeps)
    | (with_reducible apply State.setFld_keeps) | (with_reducible apply State.setFlds_keeps) | (with_reducible apply State.updFab_keeps)
    | (with_reducible apply Keeps.ite) | (with_reducible apply Keeps.foldl) | intro _ _ _
    | (fail_if_no_progress with_reducible refine Keeps.rec_upd ?_ rfl rfl rfl rfl rfl) | (fail_if_no_progress dsimp only) | split)

theorem State.clearConfig_keeps {r s : State} (h : Keeps r s) (a1 : Bool) : Keeps r (State.clearConfig s a1) := by
  unfold State.clearConfig
  try dsimp only
  repeat' (first
    | with_reducible assumption | (with_reducible exact Keeps.refl _) | (with_reducible apply State.clearImageRegs_keeps)
    | (with_reducible apply State.emit_keeps) | (with_reducible apply State.fabricHeld_keeps) | (with_reducible apply State.setFld_keeps)
    | (with_reducible apply State.updFab_keeps) | (with_reducible apply Keeps.ite) | (with_reducible apply Keeps.foldl) | intro _ _ _
    | (fail_if_no_progress with_reducible refine Keeps.rec_upd ?_ rfl rfl rfl rfl rfl) | (fail_if_no_progress dsimp only) | split)

theorem State.clkCfgWrite_keeps {r s : State} (h : Keeps r s) (a1 : ℕ) (a2 : ℕ) (a3 : ℕ) : Keeps r (State.clkCfgWrite s a1 a2 a3) := by
  unfold State.clkCfgWrite
  try dsimp only
  repeat' (first
    | with_reducible assumption | (with_reducible exact Keeps.refl _) | (with_reducible apply State.setFlds_keeps)
    | (with_reducible apply Keeps.ite) | (fail_if_no_progress dsimp only) | split)

theorem execCfgCsFall_keeps {r s : State} (h : Keeps r s)  : KeepsR r (execCfgCsFall s) := by
  unfold execCfgCsFall
  try dsimp only
  repeat' (first
    | with_reducible assumption | (with_reducible exact Keeps.refl _) | with_reducible apply KeepsR.ok | with_reducible apply KeepsR.ite
    | (with_reducible apply State.setFld_keeps) | (with_reducible apply Keeps.ite) | (fail_if_no_progress dsimp only) | split)

theorem State.bumpLk_keeps {r s : State} (h : Keeps r s) (a1 : Fld) (a2 : ℕ) (a3 : ℕ) : Keeps r (State.bumpLk s a1 a2 a3) := by
  unfold State.bumpLk
  try dsimp only
  repeat' (first
    | with_reducible assumption | (with_reducible exact Keeps.refl _) | (with_reducible apply State.bump_keeps) | (with_reducible apply Keeps.ite)
    | (fail_if_no_progress dsimp only) | split)

theorem State.pairReason_keeps {r s : State} (h : Keeps r s) (a1 : ℕ) : Keeps r (State.pairReason s a1) := by
  unfold State.pairReason
  try dsimp only
  repeat' (first
    | with_reducible assumption | (with_reducible exact Keeps.refl _) | (with_reducible apply State.raise_keeps)
    | (with_reducible apply State.setFlds_keeps) | (with_reducible apply Keeps.ite) | (fail_if_no_progress dsimp only) | split)

theorem State.pairGap_keeps {r s : State} (h : Keeps r s) (a1 : ℕ) (a2 : ℕ) : Keeps r (State.pairGap s a1 a2) := by
  unfold State.pairGap
  try dsimp only
  repeat' (first
    | with_reducible assumption | (with_reducible exact Keeps.refl _) | (with_reducible apply State.logEntry_keeps)
    | (with_reducible apply State.pairReason_keeps) | (with_reducible apply State.setFld_keeps) | (with_reducible apply Keeps.ite)
    | (fail_if_no_progress dsimp only) | split)

theorem State.linkLose_keeps {r s : State} (h : Keeps r s) (a1 : ℕ) (a2 : LOut) : Keeps r (State.linkLose s a1 a2) := by
  unfold State.linkLose
  try dsimp only
  repeat' (first
    | with_reducible assumption | (with_reducible exact Keeps.refl _) | (with_reducible apply State.bumpLk_keeps)
    | (with_reducible apply State.pairGap_keeps) | (with_reducible apply State.respond_keeps) | (with_reducible apply Keeps.ite)
    | (fail_if_no_progress dsimp only) | split)

theorem State.setLk_keeps {r s : State} (h : Keeps r s) (a1 : Fld) (a2 : ℕ) (a3 : ℕ) : Keeps r (State.setLk s a1 a2 a3) := by
  unfold State.setLk
  try dsimp only
  repeat' (first
    | with_reducible assumption | (with_reducible exact Keeps.refl _) | (with_reducible apply State.setFld_keeps) | (with_reducible apply Keeps.ite)
    | (fail_if_no_progress dsimp only) | split)

theorem State.leaveUp_keeps {r s : State} (h : Keeps r s) (a1 : ℕ) : Keeps r (State.leaveUp s a1) := by
  unfold State.leaveUp
  try dsimp only
  repeat' (first
    | with_reducible assumption | (with_reducible exact Keeps.refl _) | (with_reducible apply State.bumpLk_keeps)
    | (with_reducible apply State.linkLose_keeps) | (with_reducible apply State.pairGap_keeps) | (with_reducible apply State.setFld_keeps)
    | (with_reducible apply State.setLk_keeps) | (with_reducible apply State.updLane_keeps) | (with_reducible apply State.updLink_keeps)
    | (with_reducible refine Keeps.of_snd (by assumption) ?_) | (with_reducible refine Keeps.of_fst (by assumption) ?_)
    | (with_reducible apply Keeps.ite) | (with_reducible apply Keeps.foldl) | intro _ _ _
    | (fail_if_no_progress with_reducible refine Keeps.rec_upd ?_ rfl rfl rfl rfl rfl) | (fail_if_no_progress dsimp only) | split)

theorem State.linkEvent_keeps {r s : State} (h : Keeps r s) (a1 : Fld) (a2 : ℕ) : Keeps r (State.linkEvent s a1 a2) := by
  unfold State.linkEvent
  try dsimp only
  repeat' (first
    | with_reducible assumption | (with_reducible exact Keeps.refl _) | (with_reducible apply State.raise_keeps)
    | (with_reducible apply State.setLk_keeps) | (with_reducible apply Keeps.ite) | (fail_if_no_progress dsimp only) | split)

theorem State.linkDown_keeps {r s : State} (h : Keeps r s) (a1 : ℕ) (a2 : ℕ) : Keeps r (State.linkDown s a1 a2) := by
  unfold State.linkDown
  try dsimp only
  repeat' (first
    | with_reducible assumption | (with_reducible exact Keeps.refl _) | (with_reducible apply State.leaveUp_keeps)
    | (with_reducible apply State.linkEvent_keeps) | (with_reducible apply State.setLk_keeps) | (with_reducible apply Keeps.ite)
    | (fail_if_no_progress dsimp only) | split)

theorem execTrainTimeout_keeps {r s : State} (h : Keeps r s) (a0 : Fin 26) : KeepsR r (execTrainTimeout a0 s) := by
  unfold execTrainTimeout
  try dsimp only
  repeat' (first
    | with_reducible assumption | (with_reducible exact Keeps.refl _) | with_reducible apply KeepsR.ok | with_reducible apply KeepsR.ite
    | (with_reducible apply State.linkDown_keeps) | (with_reducible apply Keeps.ite) | (fail_if_no_progress dsimp only) | split)

theorem State.letThroughAux_keeps {r s : State} (h : Keeps r s) (a1 : ℕ) (a2 : List LOut) (a3 : List ℕ) : Keeps r (State.letThroughAux s a1 a2 a3)
    := by
  induction a2 generalizing s a3 with
  | nil =>
    unfold State.letThroughAux
    try dsimp only
    repeat' (first
      | with_reducible assumption | (with_reducible exact Keeps.refl _) | (with_reducible apply State.updLink_keeps)
      | (with_reducible apply Keeps.ite) | (fail_if_no_progress with_reducible refine Keeps.rec_upd ?_ rfl rfl rfl rfl rfl)
      | (fail_if_no_progress dsimp only) | split)
  | cons x l ih =>
    unfold State.letThroughAux
    try dsimp only
    repeat' (first
      | with_reducible apply ih | with_reducible assumption | (with_reducible exact Keeps.refl _) | (with_reducible apply State.updLink_keeps)
      | (with_reducible apply Keeps.ite) | (fail_if_no_progress with_reducible refine Keeps.rec_upd ?_ rfl rfl rfl rfl rfl)
      | (fail_if_no_progress dsimp only) | split)

theorem State.letThrough_keeps {r s : State} (h : Keeps r s) (a1 : ℕ) : Keeps r (State.letThrough s a1) := by
  unfold State.letThrough
  try dsimp only
  repeat' (first
    | with_reducible assumption | (with_reducible exact Keeps.refl _) | (with_reducible apply State.letThroughAux_keeps)
    | (with_reducible apply State.updLink_keeps) | (with_reducible apply Keeps.ite)
    | (fail_if_no_progress with_reducible refine Keeps.rec_upd ?_ rfl rfl rfl rfl rfl) | (fail_if_no_progress dsimp only) | split)

theorem State.linkOffer_keeps {r s : State} (h : Keeps r s) (a1 : ℕ) (a2 : LOut) : Keeps r (State.linkOffer s a1 a2) := by
  unfold State.linkOffer
  try dsimp only
  repeat' (first
    | with_reducible assumption | (with_reducible exact Keeps.refl _) | (with_reducible apply State.letThrough_keeps)
    | (with_reducible apply State.linkLose_keeps) | (with_reducible apply State.updLink_keeps) | (with_reducible apply Keeps.ite)
    | (fail_if_no_progress with_reducible refine Keeps.rec_upd ?_ rfl rfl rfl rfl rfl) | (fail_if_no_progress dsimp only) | split)

theorem State.forwardIn_keeps {r s : State} (h : Keeps r s) (a1 : ℕ) (a2 : ℕ) : Keeps r (State.forwardIn s a1 a2) := by
  induction a2 generalizing s with
  | zero =>
    unfold State.forwardIn
    try dsimp only
    repeat' (first
      | with_reducible assumption | (with_reducible exact Keeps.refl _) | (with_reducible apply State.bump_keeps)
      | (with_reducible apply State.linkOffer_keeps) | (with_reducible apply State.niSend_keeps) | (with_reducible apply State.updLink_keeps)
      | (with_reducible refine Keeps.of_snd (by assumption) ?_) | (with_reducible refine Keeps.of_fst (by assumption) ?_)
      | (with_reducible apply Keeps.ite) | (fail_if_no_progress with_reducible refine Keeps.rec_upd ?_ rfl rfl rfl rfl rfl)
      | (fail_if_no_progress dsimp only) | split)
  | succ n ih =>
    unfold State.forwardIn
    try dsimp only
    repeat' (first
      | with_reducible apply ih | with_reducible assumption | (with_reducible exact Keeps.refl _) | (with_reducible apply State.bump_keeps)
      | (with_reducible apply State.linkOffer_keeps) | (with_reducible apply State.niSend_keeps) | (with_reducible apply State.updLink_keeps)
      | (with_reducible refine Keeps.of_snd (by assumption) ?_) | (with_reducible refine Keeps.of_fst (by assumption) ?_)
      | (with_reducible apply Keeps.ite) | (fail_if_no_progress with_reducible refine Keeps.rec_upd ?_ rfl rfl rfl rfl rfl)
      | (fail_if_no_progress dsimp only) | split)

theorem State.linkReturn_keeps {r s : State} (h : Keeps r s) (a1 : ℕ) (a2 : Packet) : Keeps r (State.linkReturn s a1 a2) := by
  unfold State.linkReturn
  try dsimp only
  repeat' (first
    | with_reducible assumption | (with_reducible exact Keeps.refl _) | (with_reducible apply State.bumpLk_keeps)
    | (with_reducible apply State.forwardIn_keeps) | (with_reducible apply State.linkOffer_keeps) | (with_reducible apply State.updLink_keeps)
    | (with_reducible refine Keeps.of_snd (by assumption) ?_) | (with_reducible refine Keeps.of_fst (by assumption) ?_)
    | (with_reducible apply Keeps.ite) | (fail_if_no_progress with_reducible refine Keeps.rec_upd ?_ rfl rfl rfl rfl rfl)
    | (fail_if_no_progress dsimp only) | split)

theorem State.releaseHeld_keeps {r s : State} (h : Keeps r s) (a1 : ℕ) (a2 : ℕ) (a3 : Bool) : Keeps r (State.releaseHeld s a1 a2 a3) := by
  unfold State.releaseHeld
  try dsimp only
  repeat' (first
    | with_reducible assumption | (with_reducible exact Keeps.refl _) | (with_reducible apply State.answer_keeps)
    | (with_reducible apply State.bump_keeps) | (with_reducible apply State.linkReturn_keeps) | (with_reducible apply State.niSend_keeps)
    | (with_reducible refine Keeps.of_snd (by assumption) ?_) | (with_reducible refine Keeps.of_fst (by assumption) ?_)
    | (with_reducible apply Keeps.ite) | (with_reducible apply Keeps.foldl) | intro _ _ _
    | (fail_if_no_progress with_reducible refine Keeps.rec_upd ?_ rfl rfl rfl rfl rfl) | (fail_if_no_progress dsimp only) | split)

theorem State.routeWriteAs_keeps {r s : State} (h : Keeps r s) (a1 : Bool) (a2 : ℕ) (a3 : ℕ) (a4 : ℕ) (a5 : ℕ) (a6 : ℕ) (a7 : ℕ) : Keeps r
    (State.routeWriteAs s a1 a2 a3 a4 a5 a6 a7).2 := by
  unfold State.routeWriteAs
  try dsimp only
  repeat' (first
    | with_reducible assumption | (with_reducible exact Keeps.refl _) | (with_reducible apply State.releaseHeld_keeps)
    | (with_reducible apply State.setFlds_keeps) | (with_reducible apply State.setSheetWord_keeps) | (with_reducible apply Keeps.ite)
    | (fail_if_no_progress dsimp only) | split)

theorem State.routeWrite_keeps {r s : State} (h : Keeps r s) (a1 : ℕ) (a2 : ℕ) (a3 : ℕ) (a4 : ℕ) (a5 : ℕ) (a6 : ℕ) : Keeps r (State.routeWrite s a1
    a2 a3 a4 a5 a6).2 := by
  unfold State.routeWrite
  try dsimp only
  repeat' (first
    | with_reducible assumption | (with_reducible exact Keeps.refl _) | (with_reducible apply State.routeWriteAs_keeps)
    | (with_reducible apply Keeps.ite) | (fail_if_no_progress dsimp only) | split)

theorem State.imageReg_keeps {r s : State} (h : Keeps r s) (a1 : ℕ) (a2 : ℕ) (a3 : ℕ) : Keeps r (State.imageReg s a1 a2 a3) := by
  unfold State.imageReg
  try dsimp only
  repeat' (first
    | with_reducible assumption | (with_reducible exact Keeps.refl _) | (with_reducible apply State.setFld_keeps)
    | (with_reducible refine Keeps.of_snd (by assumption) ?_) | (with_reducible refine Keeps.of_fst (by assumption) ?_)
    | (with_reducible apply Keeps.ite) | (with_reducible apply Keeps.foldl) | intro _ _ _ | (fail_if_no_progress dsimp only) | split)

theorem State.rewriteImageRegs_keeps {r s : State} (h : Keeps r s) (a1 : ℕ) : Keeps r (State.rewriteImageRegs s a1) := by
  unfold State.rewriteImageRegs
  try dsimp only
  repeat' (first
    | with_reducible assumption | (with_reducible exact Keeps.refl _) | (with_reducible apply State.imageReg_keeps)
    | (with_reducible apply State.setFlds_keeps) | (with_reducible apply Keeps.ite) | (with_reducible apply Keeps.foldl) | intro _ _ _
    | (fail_if_no_progress dsimp only) | split)

theorem execFabricScrubStart_keeps {r s : State} (h : Keeps r s) (a0 : Car) : KeepsR r (execFabricScrubStart a0 s) := by
  unfold execFabricScrubStart
  try dsimp only
  repeat' (first
    | with_reducible assumption | (with_reducible exact Keeps.refl _) | with_reducible apply KeepsR.ok | with_reducible apply KeepsR.ite
    | (with_reducible apply State.regEvent_keeps) | (with_reducible apply State.setFlds_keeps) | (with_reducible apply Keeps.ite) | intro _ _
    | (fail_if_no_progress dsimp only) | split)

theorem State.zero8_keeps {r s : State} (h : Keeps r s) (a1 : Fld) : Keeps r (State.zero8 s a1) := by
  unfold State.zero8
  try dsimp only
  repeat' (first
    | with_reducible assumption | (with_reducible exact Keeps.refl _) | (with_reducible apply State.setFld_keeps) | (with_reducible apply Keeps.ite)
    | (with_reducible apply Keeps.foldl) | intro _ _ _ | (fail_if_no_progress dsimp only) | split)

theorem execIoDelayTarget_keeps {r s : State} (h : Keeps r s) (a0 : Car) (a1 : Fin 24) (a2 : Fin 512) : KeepsR r (execIoDelayTarget a0 a1 a2 s) := by
  unfold execIoDelayTarget
  try dsimp only
  repeat' (first
    | with_reducible assumption | (with_reducible exact Keeps.refl _) | with_reducible apply KeepsR.ok | with_reducible apply KeepsR.ite
    | (with_reducible apply State.regEvent_keeps) | (with_reducible apply State.setFld_keeps) | (with_reducible apply Keeps.ite) | intro _ _
    | (fail_if_no_progress dsimp only) | split)

theorem execKeyRamClear_keeps {r s : State} (h : Keeps r s)  : KeepsR r (execKeyRamClear s) := by
  unfold execKeyRamClear
  try dsimp only
  repeat' (first
    | with_reducible assumption | (with_reducible exact Keeps.refl _) | with_reducible apply KeepsR.ok | with_reducible apply KeepsR.ite
    | (with_reducible apply State.regEvent_keeps) | (with_reducible apply State.setFlds_keeps) | (with_reducible apply Keeps.ite) | intro _ _
    | (fail_if_no_progress with_reducible refine Keeps.rec_upd ?_ rfl rfl rfl rfl rfl) | (fail_if_no_progress dsimp only) | split)

theorem execKeyRamCommit_keeps {r s : State} (h : Keeps r s)  : KeepsR r (execKeyRamCommit s) := by
  unfold execKeyRamCommit
  try dsimp only
  repeat' (first
    | with_reducible assumption | (with_reducible exact Keeps.refl _) | with_reducible apply KeepsR.ok | with_reducible apply KeepsR.ite
    | (with_reducible apply State.regEvent_keeps) | (with_reducible apply State.setFlds_keeps) | (with_reducible apply State.zero8_keeps)
    | (with_reducible apply Keeps.ite) | intro _ _ | (fail_if_no_progress with_reducible refine Keeps.rec_upd ?_ rfl rfl rfl rfl rfl)
    | (fail_if_no_progress dsimp only) | split)

theorem execKeyRamLock_keeps {r s : State} (h : Keeps r s)  : KeepsR r (execKeyRamLock s) := by
  unfold execKeyRamLock
  try dsimp only
  repeat' (first
    | with_reducible assumption | (with_reducible exact Keeps.refl _) | with_reducible apply KeepsR.ok | with_reducible apply KeepsR.ite
    | (with_reducible apply State.regEvent_keeps) | (with_reducible apply State.setFlag_keeps) | (with_reducible apply Keeps.ite) | intro _ _
    | (fail_if_no_progress dsimp only) | split)

theorem execLaneTestWrite_keeps {r s : State} (h : Keeps r s) (a0 : Fin 96) (a1 : Bool) : KeepsR r (execLaneTestWrite a0 a1 s) := by
  unfold execLaneTestWrite
  try dsimp only
  repeat' (first
    | with_reducible assumption | (with_reducible exact Keeps.refl _) | with_reducible apply KeepsR.ok | with_reducible apply KeepsR.ite
    | (with_reducible apply State.regEvent_keeps) | (with_reducible apply State.setFlag_keeps) | (with_reducible apply State.setLk_keeps)
    | (with_reducible apply State.updLane_keeps) | (with_reducible apply Keeps.ite) | intro _ _
    | (fail_if_no_progress with_reducible refine Keeps.rec_upd ?_ rfl rfl rfl rfl rfl) | (fail_if_no_progress dsimp only) | split)

theorem State.stopPatterns_keeps {r s : State} (h : Keeps r s) (a1 : ℕ) : Keeps r (State.stopPatterns s a1) := by
  unfold State.stopPatterns
  try dsimp only
  repeat' (first
    | with_reducible assumption | (with_reducible exact Keeps.refl _) | (with_reducible apply State.updLane_keeps)
    | (with_reducible apply Keeps.ite) | (with_reducible apply Keeps.foldl) | intro _ _ _
    | (fail_if_no_progress with_reducible refine Keeps.rec_upd ?_ rfl rfl rfl rfl rfl) | (fail_if_no_progress dsimp only) | split)

theorem execLinkDisable_keeps {r s : State} (h : Keeps r s) (a0 : Fin 26) : KeepsR r (execLinkDisable a0 s) := by
  unfold execLinkDisable
  try dsimp only
  repeat' (first
    | with_reducible assumption | (with_reducible exact Keeps.refl _) | with_reducible apply KeepsR.ok | with_reducible apply KeepsR.ite
    | (with_reducible apply State.linkDown_keeps) | (with_reducible apply State.regEvent_keeps) | (with_reducible apply State.setLk_keeps)
    | (with_reducible apply State.stopPatterns_keeps) | (with_reducible apply Keeps.ite) | intro _ _ | (fail_if_no_progress dsimp only) | split)

theorem execLinkTrain_keeps {r s : State} (h : Keeps r s) (a0 : Fin 26) : KeepsR r (execLinkTrain a0 s) := by
  unfold execLinkTrain
  try dsimp only
  repeat' (first
    | with_reducible assumption | (with_reducible exact Keeps.refl _) | with_reducible apply KeepsR.ok | with_reducible apply KeepsR.ite
    | (with_reducible apply State.leaveUp_keeps) | (with_reducible apply State.regEvent_keeps) | (with_reducible apply State.setFlds_keeps)
    | (with_reducible apply State.setLk_keeps) | (with_reducible apply Keeps.ite) | (with_reducible apply Keeps.foldl) | intro _ _ _ | intro _ _
    | (fail_if_no_progress with_reducible refine Keeps.rec_upd ?_ rfl rfl rfl rfl rfl) | (fail_if_no_progress dsimp only) | split)

theorem State.cfgEvent_keeps {r s : State} (h : Keeps r s)  : Keeps r (State.cfgEvent s) := by
  unfold State.cfgEvent
  try dsimp only
  repeat' (first
    | with_reducible assumption | (with_reducible exact Keeps.refl _) | (with_reducible apply State.raise_keeps)
    | (with_reducible apply State.setFld_keeps) | (with_reducible apply Keeps.ite) | (fail_if_no_progress dsimp only) | split)

theorem State.loadFail_keeps {r s : State} (h : Keeps r s) (a1 : ℕ) (a2 : ℕ) : Keeps r (State.loadFail s a1 a2) := by
  unfold State.loadFail
  try dsimp only
  repeat' (first
    | with_reducible assumption | (with_reducible exact Keeps.refl _) | (with_reducible apply State.cfgEvent_keeps)
    | (with_reducible apply State.clearConfig_keeps) | (with_reducible apply State.emit_keeps) | (with_reducible apply State.setFlds_keeps)
    | (with_reducible apply Keeps.ite) | (fail_if_no_progress dsimp only) | split)

theorem execLoadAbort_keeps {r s : State} (h : Keeps r s)  : KeepsR r (execLoadAbort s) := by
  unfold execLoadAbort
  try dsimp only
  repeat' (first
    | with_reducible assumption | (with_reducible exact Keeps.refl _) | with_reducible apply KeepsR.ok | with_reducible apply KeepsR.ite
    | (with_reducible apply State.loadFail_keeps) | (with_reducible apply State.regEvent_keeps) | (with_reducible apply State.setFld_keeps)
    | (with_reducible apply Keeps.ite) | intro _ _ | (fail_if_no_progress dsimp only) | split)

theorem State.flashRead_keeps {r s : State} (h : Keeps r s) (a1 : ℕ) : Keeps r (State.flashRead s a1) := by
  unfold State.flashRead
  try dsimp only
  repeat' (first
    | with_reducible assumption | (with_reducible exact Keeps.refl _) | (with_reducible apply State.emit_keeps) | (with_reducible apply Keeps.ite)
    | (fail_if_no_progress dsimp only) | split)

theorem State.beginLoad_keeps {r s : State} (h : Keeps r s) (a1 : ℕ) (a2 : Bool) : Keeps r (State.beginLoad s a1 a2) := by
  unfold State.beginLoad
  try dsimp only
  repeat' (first
    | with_reducible assumption | (with_reducible exact Keeps.refl _) | (with_reducible apply State.clearConfig_keeps)
    | (with_reducible apply State.emit_keeps) | (with_reducible apply State.flashRead_keeps) | (with_reducible apply State.setFld_keeps)
    | (with_reducible apply State.setFlds_keeps) | (with_reducible apply Keeps.ite) | (fail_if_no_progress dsimp only) | split)

theorem execLoadStart_keeps {r s : State} (h : Keeps r s)  : KeepsR r (execLoadStart s) := by
  unfold execLoadStart
  try dsimp only
  repeat' (first
    | with_reducible assumption | (with_reducible exact Keeps.refl _) | with_reducible apply KeepsR.ok | with_reducible apply KeepsR.ite
    | (with_reducible apply State.beginLoad_keeps) | (with_reducible apply State.cfgEvent_keeps) | (with_reducible apply State.loadFail_keeps)
    | (with_reducible apply State.regEvent_keeps) | (with_reducible apply State.setFld_keeps) | (with_reducible apply Keeps.ite) | intro _ _
    | (fail_if_no_progress dsimp only) | split)

theorem State.linkRespond_keeps {r s : State} (h : Keeps r s) (a1 : ℕ) (a2 : Packet) : Keeps r (State.linkRespond s a1 a2) := by
  unfold State.linkRespond
  try dsimp only
  repeat' (first
    | with_reducible assumption | (with_reducible exact Keeps.refl _) | (with_reducible apply State.inject_keeps) | (with_reducible apply Keeps.ite)
    | (fail_if_no_progress with_reducible refine Keeps.rec_upd ?_ rfl rfl rfl rfl rfl) | (fail_if_no_progress dsimp only) | split)

theorem State.linkPass_keeps {r s : State} (h : Keeps r s) (a1 : ℕ) (a2 : Bool) (a3 : Packet) : Keeps r (State.linkPass s a1 a2 a3) := by
  unfold State.linkPass
  try dsimp only
  repeat' (first
    | with_reducible assumption | (with_reducible exact Keeps.refl _) | (with_reducible apply State.forwardIn_keeps)
    | (with_reducible apply State.linkRespond_keeps) | (with_reducible apply State.updLink_keeps) | (with_reducible apply Keeps.ite)
    | (fail_if_no_progress with_reducible refine Keeps.rec_upd ?_ rfl rfl rfl rfl rfl) | (fail_if_no_progress dsimp only) | split)

theorem State.linkEnter_keeps {r s : State} (h : Keeps r s) (a1 : ℕ) (a2 : Bool) (a3 : Packet) (a4 : Bool) (a5 : ℕ) : Keeps r (State.linkEnter s a1
    a2 a3 a4 a5) := by
  unfold State.linkEnter
  try dsimp only
  repeat' (first
    | with_reducible assumption | (with_reducible exact Keeps.refl _) | (with_reducible apply State.linkPass_keeps)
    | (with_reducible apply State.lockAbort_keeps) | (with_reducible apply State.updLink_keeps) | (with_reducible apply Keeps.ite)
    | (fail_if_no_progress with_reducible refine Keeps.rec_upd ?_ rfl rfl rfl rfl rfl) | (fail_if_no_progress dsimp only) | split)

theorem State.presentIo_keeps {r s : State} (h : Keeps r s) (a1 : ℕ) : Keeps r (State.presentIo s a1) := by
  unfold State.presentIo
  try dsimp only
  repeat' (first
    | with_reducible assumption | (with_reducible exact Keeps.refl _) | (with_reducible apply State.updFab_keeps) | (with_reducible apply Keeps.ite)
    | (fail_if_no_progress with_reducible refine Keeps.rec_upd ?_ rfl rfl rfl rfl rfl) | (fail_if_no_progress dsimp only) | split)

theorem State.linkResend_keeps {r s : State} (h : Keeps r s) (a1 : ℕ) : Keeps r (State.linkResend s a1) := by
  unfold State.linkResend
  try dsimp only
  repeat' (first
    | with_reducible assumption | (with_reducible exact Keeps.refl _) | (with_reducible apply State.bumpLk_keeps)
    | (with_reducible apply State.linkDown_keeps) | (with_reducible apply State.updLink_keeps)
    | (with_reducible refine Keeps.of_snd (by assumption) ?_) | (with_reducible refine Keeps.of_fst (by assumption) ?_)
    | (with_reducible apply Keeps.ite) | (fail_if_no_progress with_reducible refine Keeps.rec_upd ?_ rfl rfl rfl rfl rfl)
    | (fail_if_no_progress dsimp only) | split)

theorem execLinkRetryTimeout_keeps {r s : State} (h : Keeps r s) (a0 : Fin 26) : KeepsR r (execLinkRetryTimeout a0 s) := by
  unfold execLinkRetryTimeout
  try dsimp only
  repeat' (first
    | with_reducible assumption | (with_reducible exact Keeps.refl _) | with_reducible apply KeepsR.ok | with_reducible apply KeepsR.ite
    | (with_reducible apply State.linkResend_keeps) | (with_reducible apply Keeps.ite) | (fail_if_no_progress dsimp only) | split)

theorem State.enterUp_keeps {r s : State} (h : Keeps r s) (a1 : ℕ) : Keeps r (State.enterUp s a1) := by
  unfold State.enterUp
  try dsimp only
  repeat' (first
    | with_reducible assumption | (with_reducible exact Keeps.refl _) | (with_reducible apply State.linkEvent_keeps)
    | (with_reducible apply State.linkOffer_keeps) | (with_reducible apply State.setLk_keeps) | (with_reducible apply State.updLink_keeps)
    | (with_reducible apply Keeps.ite) | (with_reducible apply Keeps.foldl) | intro _ _ _
    | (fail_if_no_progress with_reducible refine Keeps.rec_upd ?_ rfl rfl rfl rfl rfl) | (fail_if_no_progress dsimp only) | split)

theorem State.trainStep_keeps {r s : State} (h : Keeps r s) (a1 : ℕ) (a2 : Bool) : Keeps r (State.trainStep s a1 a2) := by
  unfold State.trainStep
  try dsimp only
  repeat' (first
    | with_reducible assumption | (with_reducible exact Keeps.refl _) | (with_reducible apply State.enterUp_keeps)
    | (with_reducible apply State.linkDown_keeps) | (with_reducible apply State.setLk_keeps) | (with_reducible apply State.updLink_keeps)
    | (with_reducible apply Keeps.ite) | (fail_if_no_progress with_reducible refine Keeps.rec_upd ?_ rfl rfl rfl rfl rfl)
    | (fail_if_no_progress dsimp only) | split)

theorem State.syncTaken_keeps {r s : State} (h : Keeps r s) (a1 : ℕ) (a2 : ℕ) : Keeps r (State.syncTaken s a1 a2) := by
  unfold State.syncTaken
  try dsimp only
  repeat' (first
    | with_reducible assumption | (with_reducible exact Keeps.refl _) | (with_reducible apply State.trainStep_keeps)
    | (with_reducible apply Keeps.ite) | (fail_if_no_progress dsimp only) | split)

theorem State.sendMemory_keeps {r s : State} (h : Keeps r s) (a1 : ℕ) (a2 : Packet) (a3 : Loc) : Keeps r (State.sendMemory s a1 a2 a3) := by
  unfold State.sendMemory
  try dsimp only
  repeat' (first
    | with_reducible assumption | (with_reducible exact Keeps.refl _) | (with_reducible apply State.niSend_keeps)
    | (with_reducible apply State.updFab_keeps) | (with_reducible apply Keeps.ite) | (with_reducible apply Keeps.foldl) | intro _ _ _
    | (fail_if_no_progress with_reducible refine Keeps.rec_upd ?_ rfl rfl rfl rfl rfl) | (fail_if_no_progress dsimp only) | split)

theorem execCfgCsRiseEarly_keeps {r s : State} (h : Keeps r s)  : KeepsR r (execCfgCsRiseEarly s) := by
  unfold execCfgCsRiseEarly
  try dsimp only
  repeat' (first
    | with_reducible assumption | (with_reducible exact Keeps.refl _) | with_reducible apply KeepsR.ok | with_reducible apply KeepsR.ite
    | (with_reducible apply State.loadFail_keeps) | (with_reducible apply Keeps.ite) | (fail_if_no_progress dsimp only) | split)

theorem execLoadStallTimeout_keeps {r s : State} (h : Keeps r s)  : KeepsR r (execLoadStallTimeout s) := by
  unfold execLoadStallTimeout
  try dsimp only
  repeat' (first
    | with_reducible assumption | (with_reducible exact Keeps.refl _) | with_reducible apply KeepsR.ok | with_reducible apply KeepsR.ite
    | (with_reducible apply State.loadFail_keeps) | (with_reducible apply Keeps.ite) | (fail_if_no_progress dsimp only) | split)

theorem execSyncBlockReceive_keeps {r s : State} (h : Keeps r s) (a0 : Fin 96) (a1 : List (Fin 4)) (a2 : ℕ) : KeepsR r (execSyncBlockReceive a0 a1
    a2 s) := by
  unfold execSyncBlockReceive
  try dsimp only
  repeat' (first
    | with_reducible assumption | (with_reducible exact Keeps.refl _) | with_reducible apply KeepsR.ok | with_reducible apply KeepsR.ite
    | (with_reducible apply State.fireMark_keeps) | (with_reducible apply State.lockAbort_keeps) | (with_reducible apply State.missed_keeps)
    | (with_reducible apply State.readyMark_keeps) | (with_reducible apply State.setFld_keeps) | (with_reducible apply State.setFlds_keeps)
    | (with_reducible apply State.setLk_keeps) | (with_reducible apply State.syncTaken_keeps) | (with_reducible apply State.updLane_keeps)
    | (with_reducible refine Keeps.of_snd (by assumption) ?_) | (with_reducible refine Keeps.of_fst (by assumption) ?_)
    | (with_reducible apply Keeps.ite) | (fail_if_no_progress with_reducible refine Keeps.rec_upd ?_ rfl rfl rfl rfl rfl)
    | (fail_if_no_progress dsimp only) | split)

theorem State.clockPorts_keeps {r s : State} (h : Keeps r s) (a1 : ℕ) (a2 : ℕ) (a3 : BitVec 16) : Keeps r (State.clockPorts s a1 a2 a3) := by
  unfold State.clockPorts
  try dsimp only
  repeat' (first
    | with_reducible assumption | (with_reducible exact Keeps.refl _) | (with_reducible apply State.updFab_keeps) | (with_reducible apply Keeps.ite)
    | (with_reducible apply Keeps.foldl) | intro _ _ _ | (fail_if_no_progress with_reducible refine Keeps.rec_upd ?_ rfl rfl rfl rfl rfl)
    | (fail_if_no_progress dsimp only) | split)

theorem State.judgeBank_keeps {r s : State} (h : Keeps r s) (a1 : ℕ) : Keeps r (State.judgeBank s a1) := by
  unfold State.judgeBank
  try dsimp only
  repeat' (first
    | with_reducible assumption | (with_reducible exact Keeps.refl _) | (with_reducible apply State.setFlds_keeps)
    | (with_reducible apply Keeps.ite) | (fail_if_no_progress dsimp only) | split)

theorem State.clockIo_keeps {r s : State} (h : Keeps r s) (a1 : FabS) (a2 : ℕ) (a3 : ℕ) (a4 : Bool) (a5 : Bool) (a6 : Bool) : Keeps r (State.clockIo
    s a1 a2 a3 a4 a5 a6) := by
  unfold State.clockIo
  try dsimp only
  repeat' (first
    | with_reducible assumption | (with_reducible exact Keeps.refl _) | (with_reducible apply State.driveIo_keeps)
    | (with_reducible apply State.updFab_keeps) | (with_reducible apply Keeps.ite)
    | (fail_if_no_progress with_reducible refine Keeps.rec_upd ?_ rfl rfl rfl rfl rfl) | (fail_if_no_progress dsimp only) | split)

theorem execLaneSyncLoss_keeps {r s : State} (h : Keeps r s) (a0 : Fin 96) : KeepsR r (execLaneSyncLoss a0 s) := by
  unfold execLaneSyncLoss
  try dsimp only
  repeat' (first
    | with_reducible assumption | (with_reducible exact Keeps.refl _) | with_reducible apply KeepsR.ok | with_reducible apply KeepsR.ite
    | (with_reducible apply State.linkDown_keeps) | (with_reducible apply State.missed_keeps) | (with_reducible apply State.setFld_keeps)
    | (with_reducible apply Keeps.ite) | (fail_if_no_progress dsimp only) | split)

theorem execRouteEntryWrite_keeps {r s : State} (h : Keeps r s) (a0 : Fin 1024) (a1 : Fin 256) (a2 : BitVec 32) (a3 : BitVec 32) (a4 : BitVec 32)
    (a5 : BitVec 32) : KeepsR r (execRouteEntryWrite a0 a1 a2 a3 a4 a5 s) := by
  unfold execRouteEntryWrite
  try dsimp only
  repeat' (first
    | with_reducible assumption | (with_reducible exact Keeps.refl _) | with_reducible apply KeepsR.ok | with_reducible apply KeepsR.ite
    | (with_reducible apply State.routeWrite_keeps) | (with_reducible apply Keeps.ite) | (fail_if_no_progress dsimp only) | split)

theorem execLockstepLinkDelivery_keeps {r s : State} (h : Keeps r s) (a0 : Fin 26) (a1 : Bool) : KeepsR r (execLockstepLinkDelivery a0 a1 s) := by
  unfold execLockstepLinkDelivery
  try dsimp only
  repeat' (first
    | with_reducible assumption | (with_reducible exact Keeps.refl _) | with_reducible apply KeepsR.ok | with_reducible apply KeepsR.ite
    | (with_reducible apply State.linkPass_keeps) | (with_reducible apply State.lockAbort_keeps) | (with_reducible apply State.updLink_keeps)
    | (with_reducible apply Keeps.ite) | (with_reducible apply Keeps.foldl) | intro _ _ _
    | (fail_if_no_progress with_reducible refine Keeps.rec_upd ?_ rfl rfl rfl rfl rfl) | (fail_if_no_progress dsimp only) | split)

theorem State.applySection_keeps {r s : State} (h : Keeps r s) (a1 : ℕ) (a2 : ℕ) (a3 : ℕ) (a4 : ℕ) (a5 : List ℕ) : Keeps r (State.applySection s a1
    a2 a3 a4 a5).2 := by
  unfold State.applySection
  try dsimp only
  repeat' (first
    | with_reducible assumption | (with_reducible exact Keeps.refl _) | (with_reducible apply State.imageReg_keeps)
    | (with_reducible apply State.routeWriteAs_keeps) | (with_reducible apply State.updFab_keeps)
    | (with_reducible refine Keeps.of_snd (by assumption) ?_) | (with_reducible refine Keeps.of_fst (by assumption) ?_)
    | (with_reducible apply Keeps.ite) | (with_reducible apply Keeps.foldl) | (with_reducible apply Keeps.foldl_fst)
    | (with_reducible apply Keeps.foldl_snd) | intro _ _ _ | (fail_if_no_progress with_reducible refine Keeps.rec_upd ?_ rfl rfl rfl rfl rfl)
    | (fail_if_no_progress with_reducible refine Keeps.rec_wf ?_ rfl rfl (by first | exact id | exact memWf_memWrite _ _ | exact mwf_mblock _ _ | exact mwf_mdrop _ | exact fun _ => rfl) (by first | exact id | exact memWf_memWrite _ _ | exact mwf_mblock _ _ | exact mwf_mdrop _ | exact fun _ => rfl) (by first | exact id | exact memWf_memWrite _ _ | exact mwf_mblock _ _ | exact mwf_mdrop _ | exact fun _ => rfl))
    | (fail_if_no_progress dsimp only) | split)

theorem execFabricClockEdge_keeps {r s : State} (h : Keeps r s) (a0 : Car) (a1 : Fin 8) (a2 : Bool) (a3 : BitVec 24) (a4 : BitVec 16) : KeepsR r
    (execFabricClockEdge a0 a1 a2 a3 a4 s) := by
  unfold execFabricClockEdge
  try dsimp only
  repeat' (first
    | with_reducible assumption | (with_reducible exact Keeps.refl _) | with_reducible apply KeepsR.ok | with_reducible apply KeepsR.ite
    | (with_reducible apply State.clockIo_keeps) | (with_reducible apply State.clockPorts_keeps) | (with_reducible apply State.setFlag_keeps)
    | (with_reducible apply State.updFab_keeps) | (with_reducible apply Keeps.ite) | (with_reducible apply Keeps.foldl) | intro _ _ _
    | (fail_if_no_progress with_reducible refine Keeps.rec_upd ?_ rfl rfl rfl rfl rfl) | (fail_if_no_progress dsimp only) | split)

theorem State.checkPattern_keeps {r s : State} (h : Keeps r s) (a1 : ℕ) (a2 : List ℕ) : Keeps r (State.checkPattern s a1 a2) := by
  unfold State.checkPattern
  try dsimp only
  repeat' (first
    | with_reducible assumption | (with_reducible exact Keeps.refl _) | (with_reducible apply State.bump_keeps)
    | (with_reducible apply State.updLane_keeps) | (with_reducible apply Keeps.ite) | (with_reducible apply Keeps.foldl) | intro _ _ _
    | (fail_if_no_progress with_reducible refine Keeps.rec_upd ?_ rfl rfl rfl rfl rfl) | (fail_if_no_progress dsimp only) | split)

theorem State.sendPattern_keeps {r s : State} (h : Keeps r s) (a1 : ℕ) : Keeps r (State.sendPattern s a1) := by
  unfold State.sendPattern
  try dsimp only
  repeat' (first
    | with_reducible assumption | (with_reducible exact Keeps.refl _) | (with_reducible apply State.checkPattern_keeps)
    | (with_reducible apply State.emit_keeps) | (with_reducible apply State.setFld_keeps) | (with_reducible apply State.updLane_keeps)
    | (with_reducible apply Keeps.ite) | (fail_if_no_progress with_reducible refine Keeps.rec_upd ?_ rfl rfl rfl rfl rfl)
    | (fail_if_no_progress dsimp only) | split)

theorem State.linkArrive_keeps {r s : State} (h : Keeps r s) (a1 : ℕ) (a2 : ℕ) (a3 : Packet) : Keeps r (State.linkArrive s a1 a2 a3) := by
  unfold State.linkArrive
  try dsimp only
  repeat' (first
    | with_reducible assumption | (with_reducible exact Keeps.refl _) | (with_reducible apply State.linkEnter_keeps)
    | (with_reducible apply State.updLink_keeps) | (with_reducible apply Keeps.ite)
    | (fail_if_no_progress with_reducible refine Keeps.rec_upd ?_ rfl rfl rfl rfl rfl) | (fail_if_no_progress dsimp only) | split)

theorem State.linkParse_keeps {r s : State} (h : Keeps r s) (a1 : ℕ) (a2 : ℕ) (a3 : List ℕ) : Keeps r (State.linkParse s a1 a2 a3) := by
  induction a2 generalizing s a3 with
  | zero =>
    unfold State.linkParse
    try dsimp only
    repeat' (first
      | with_reducible assumption | (with_reducible exact Keeps.refl _) | (with_reducible apply State.linkArrive_keeps)
      | (with_reducible apply State.updLink_keeps) | (with_reducible refine Keeps.of_snd (by assumption) ?_)
      | (with_reducible refine Keeps.of_fst (by assumption) ?_) | (with_reducible apply Keeps.ite)
      | (fail_if_no_progress with_reducible refine Keeps.rec_upd ?_ rfl rfl rfl rfl rfl) | (fail_if_no_progress dsimp only) | split)
  | succ n ih =>
    unfold State.linkParse
    try dsimp only
    repeat' (first
      | with_reducible apply ih | with_reducible assumption | (with_reducible exact Keeps.refl _) | (with_reducible apply State.linkArrive_keeps)
      | (with_reducible apply State.updLink_keeps) | (with_reducible refine Keeps.of_snd (by assumption) ?_)
      | (with_reducible refine Keeps.of_fst (by assumption) ?_) | (with_reducible apply Keeps.ite)
      | (fail_if_no_progress with_reducible refine Keeps.rec_upd ?_ rfl rfl rfl rfl rfl) | (fail_if_no_progress dsimp only) | split)

theorem State.wantNak_keeps {r s : State} (h : Keeps r s) (a1 : ℕ) : Keeps r (State.wantNak s a1) := by
  unfold State.wantNak
  try dsimp only
  repeat' (first
    | with_reducible assumption | (with_reducible exact Keeps.refl _) | (with_reducible apply State.updLink_keeps)
    | (with_reducible refine Keeps.of_snd (by assumption) ?_) | (with_reducible refine Keeps.of_fst (by assumption) ?_)
    | (with_reducible apply Keeps.ite) | (fail_if_no_progress with_reducible refine Keeps.rec_upd ?_ rfl rfl rfl rfl rfl)
    | (fail_if_no_progress dsimp only) | split)

theorem State.blockIn_keeps {r s : State} (h : Keeps r s) (a1 : ℕ) (a2 : LinkBlk) : Keeps r (State.blockIn s a1 a2) := by
  unfold State.blockIn
  try dsimp only
  repeat' (first
    | with_reducible assumption | (with_reducible exact Keeps.refl _) | (with_reducible apply State.letThrough_keeps)
    | (with_reducible apply State.linkParse_keeps) | (with_reducible apply State.linkResend_keeps) | (with_reducible apply State.updLink_keeps)
    | (with_reducible apply State.wantNak_keeps) | (with_reducible apply Keeps.ite)
    | (fail_if_no_progress with_reducible refine Keeps.rec_upd ?_ rfl rfl rfl rfl rfl) | (fail_if_no_progress dsimp only) | split)

theorem execLinkBlockReceive_keeps {r s : State} (h : Keeps r s) (a0 : Fin 96) (a1 : List (Fin 4)) : KeepsR r (execLinkBlockReceive a0 a1 s) := by
  unfold execLinkBlockReceive
  try dsimp only
  repeat' (first
    | with_reducible assumption | (with_reducible exact Keeps.refl _) | with_reducible apply KeepsR.ok | with_reducible apply KeepsR.ite
    | (with_reducible apply State.blockIn_keeps) | (with_reducible apply State.bump_keeps) | (with_reducible apply State.checkPattern_keeps)
    | (with_reducible apply State.linkEvent_keeps) | (with_reducible apply State.updLane_keeps) | (with_reducible apply State.wantNak_keeps)
    | (with_reducible refine Keeps.of_snd (by assumption) ?_) | (with_reducible refine Keeps.of_fst (by assumption) ?_)
    | (with_reducible apply Keeps.ite) | (fail_if_no_progress with_reducible refine Keeps.rec_upd ?_ rfl rfl rfl rfl rfl)
    | (fail_if_no_progress dsimp only) | split)

theorem State.loadDone_keeps {r s : State} (h : Keeps r s)  : Keeps r (State.loadDone s) := by
  unfold State.loadDone
  try dsimp only
  repeat' (first
    | with_reducible assumption | (with_reducible exact Keeps.refl _) | (with_reducible apply State.emit_keeps)
    | (with_reducible apply State.raise_keeps) | (with_reducible apply State.setFlds_keeps) | (with_reducible apply Keeps.ite)
    | (fail_if_no_progress dsimp only) | split)

theorem execFabricClockRestart_keeps {r s : State} (h : Keeps r s) (a0 : Car) (a1 : Fin 8) : KeepsR r (execFabricClockRestart a0 a1 s) := by
  unfold execFabricClockRestart
  try dsimp only
  repeat' (first
    | with_reducible assumption | (with_reducible exact Keeps.refl _) | with_reducible apply KeepsR.ok | with_reducible apply KeepsR.ite
    | (with_reducible apply State.setFlag_keeps) | (with_reducible apply Keeps.ite) | (fail_if_no_progress dsimp only) | split)

theorem State.portFault_keeps {r s : State} (h : Keeps r s) (a1 : ℕ) (a2 : ℕ) (a3 : Packet) (a4 : ℕ) : Keeps r (State.portFault s a1 a2 a3 a4) := by
  unfold State.portFault
  try dsimp only
  repeat' (first
    | with_reducible assumption | (with_reducible exact Keeps.refl _) | (with_reducible apply State.report_keeps)
    | (with_reducible apply State.setFlds_keeps) | (with_reducible apply State.toFabric_keeps) | (with_reducible apply Keeps.ite)
    | (fail_if_no_progress with_reducible refine Keeps.rec_upd ?_ rfl rfl rfl rfl rfl) | (fail_if_no_progress dsimp only) | split)

theorem State.portGo_keeps {r s : State} (h : Keeps r s) (a1 : ℕ) (a2 : ℕ) (a3 : ℕ) : Keeps r (State.portGo s a1 a2 a3) := by
  induction a3 generalizing s with
  | zero =>
    unfold State.portGo
    try dsimp only
    repeat' (first
      | with_reducible assumption | (with_reducible exact Keeps.refl _) | (with_reducible apply State.ask_keeps)
      | (with_reducible apply State.niSend_keeps) | (with_reducible apply State.portFault_keeps) | (with_reducible apply State.sendMemory_keeps)
      | (with_reducible apply State.updFab_keeps) | (with_reducible refine Keeps.of_snd (by assumption) ?_)
      | (with_reducible refine Keeps.of_fst (by assumption) ?_) | (with_reducible apply Keeps.ite)
      | (fail_if_no_progress with_reducible refine Keeps.rec_upd ?_ rfl rfl rfl rfl rfl) | (fail_if_no_progress dsimp only) | split)
  | succ n ih =>
    unfold State.portGo
    try dsimp only
    repeat' (first
      | with_reducible apply ih | with_reducible assumption | (with_reducible exact Keeps.refl _) | (with_reducible apply State.ask_keeps)
      | (with_reducible apply State.niSend_keeps) | (with_reducible apply State.portFault_keeps) | (with_reducible apply State.sendMemory_keeps)
      | (with_reducible apply State.updFab_keeps) | (with_reducible refine Keeps.of_snd (by assumption) ?_)
      | (with_reducible refine Keeps.of_fst (by assumption) ?_) | (with_reducible apply Keeps.ite)
      | (fail_if_no_progress with_reducible refine Keeps.rec_upd ?_ rfl rfl rfl rfl rfl) | (fail_if_no_progress dsimp only) | split)

theorem execVbatLow_keeps {r s : State} (h : Keeps r s)  : KeepsR r (execVbatLow s) := by
  unfold execVbatLow
  try dsimp only
  repeat' (first
    | with_reducible assumption | (with_reducible exact Keeps.refl _) | with_reducible apply KeepsR.ok | with_reducible apply KeepsR.ite
    | (with_reducible apply State.setFlds_keeps) | (with_reducible apply Keeps.ite)
    | (fail_if_no_progress with_reducible refine Keeps.rec_upd ?_ rfl rfl rfl rfl rfl) | (fail_if_no_progress dsimp only) | split)

theorem State.setCoupler_keeps {r s : State} (h : Keeps r s) (a1 : Bool) : Keeps r (State.setCoupler s a1) := by
  unfold State.setCoupler
  try dsimp only
  repeat' (first
    | with_reducible assumption | (with_reducible exact Keeps.refl _) | (with_reducible apply State.linkDown_keeps)
    | (with_reducible apply State.setFlag_keeps) | (with_reducible apply Keeps.ite) | (with_reducible apply Keeps.foldl) | intro _ _ _
    | (fail_if_no_progress with_reducible refine Keeps.rec_upd ?_ rfl rfl rfl rfl rfl) | (fail_if_no_progress dsimp only) | split)

theorem State.loadAccept_keeps {r s : State} (h : Keeps r s) (a1 : Bool) (a2 : Bool) (a3 : ℕ) : Keeps r (State.loadAccept s a1 a2 a3) := by
  unfold State.loadAccept
  try dsimp only
  repeat' (first
    | with_reducible assumption | (with_reducible exact Keeps.refl _) | (with_reducible apply State.judgeBank_keeps)
    | (with_reducible apply State.setCoupler_keeps) | (with_reducible apply State.setFlag_keeps) | (with_reducible apply State.setFld_keeps)
    | (with_reducible apply State.setFlds_keeps) | (with_reducible apply State.updFab_keeps) | (with_reducible apply Keeps.ite)
    | (with_reducible apply Keeps.foldl) | intro _ _ _ | (fail_if_no_progress with_reducible refine Keeps.rec_upd ?_ rfl rfl rfl rfl rfl)
    | (fail_if_no_progress dsimp only) | split)

theorem execFabricScrubDone_keeps {r s : State} (h : Keeps r s) (a0 : Car) (a1 : ℕ) (a2 : List (Fin 40960)) : KeepsR r (execFabricScrubDone a0 a1 a2
    s) := by
  unfold execFabricScrubDone
  try dsimp only
  repeat' (first
    | with_reducible assumption | (with_reducible exact Keeps.refl _) | with_reducible apply KeepsR.ok | with_reducible apply KeepsR.ite
    | (with_reducible apply State.bump_keeps) | (with_reducible apply State.report_keeps) | (with_reducible apply State.setFld_keeps)
    | (with_reducible apply Keeps.ite) | (with_reducible apply Keeps.foldl) | intro _ _ _
    | (fail_if_no_progress with_reducible refine Keeps.rec_upd ?_ rfl rfl rfl rfl rfl) | (fail_if_no_progress dsimp only) | split)

theorem State.portsFail_keeps {r s : State} (h : Keeps r s) (a1 : ℕ) (a2 : ℕ) (a3 : ℕ) (a4 : Bool) (a5 : ℕ) : Keeps r (State.portsFail s a1 a2 a3 a4
    a5) := by
  unfold State.portsFail
  try dsimp only
  repeat' (first
    | with_reducible assumption | (with_reducible exact Keeps.refl _) | (with_reducible apply State.portFault_keeps)
    | (with_reducible apply State.portGo_keeps) | (with_reducible apply State.updFab_keeps)
    | (with_reducible refine Keeps.of_snd (by assumption) ?_) | (with_reducible refine Keeps.of_fst (by assumption) ?_)
    | (with_reducible apply Keeps.ite) | (with_reducible apply Keeps.foldl) | intro _ _ _
    | (fail_if_no_progress with_reducible refine Keeps.rec_upd ?_ rfl rfl rfl rfl rfl) | (fail_if_no_progress dsimp only) | split)

theorem State.portsGo_keeps {r s : State} (h : Keeps r s) (a1 : ℕ) : Keeps r (State.portsGo s a1) := by
  unfold State.portsGo
  try dsimp only
  repeat' (first
    | with_reducible assumption | (with_reducible exact Keeps.refl _) | (with_reducible apply State.portGo_keeps) | (with_reducible apply Keeps.ite)
    | (with_reducible apply Keeps.foldl) | intro _ _ _ | (fail_if_no_progress dsimp only) | split)

theorem State.sendSymbols_keeps {r s : State} (h : Keeps r s) (a1 : ℕ) (a2 : LinkBlk) : Keeps r (State.sendSymbols s a1 a2) := by
  unfold State.sendSymbols
  try dsimp only
  repeat' (first
    | with_reducible assumption | (with_reducible exact Keeps.refl _) | (with_reducible apply State.emit_keeps)
    | (with_reducible apply State.setFld_keeps) | (with_reducible apply State.updLane_keeps) | (with_reducible apply Keeps.ite)
    | (fail_if_no_progress with_reducible refine Keeps.rec_upd ?_ rfl rfl rfl rfl rfl) | (fail_if_no_progress dsimp only) | split)

theorem execLoadSection_keeps {r s : State} (h : Keeps r s) (a0 : LoadIn) : KeepsR r (execLoadSection a0 s) := by
  unfold execLoadSection
  try dsimp only
  repeat' (first
    | with_reducible assumption | (with_reducible exact Keeps.refl _) | with_reducible apply KeepsR.ok | with_reducible apply KeepsR.ite
    | (with_reducible apply State.applySection_keeps) | (with_reducible apply State.loadFail_keeps) | (with_reducible apply State.setFld_keeps)
    | (with_reducible apply Keeps.ite) | (fail_if_no_progress with_reducible refine Keeps.rec_upd ?_ rfl rfl rfl rfl rfl)
    | (fail_if_no_progress dsimp only) | split)

theorem State.sendBlock_keeps {r s : State} (h : Keeps r s) (a1 : ℕ) (a2 : ℕ) (a3 : LinkBlk) : Keeps r (State.sendBlock s a1 a2 a3) := by
  unfold State.sendBlock
  try dsimp only
  repeat' (first
    | with_reducible assumption | (with_reducible exact Keeps.refl _) | (with_reducible apply State.emit_keeps)
    | (with_reducible apply State.sendSymbols_keeps) | (with_reducible apply State.updLane_keeps) | (with_reducible apply Keeps.ite)
    | (fail_if_no_progress with_reducible refine Keeps.rec_upd ?_ rfl rfl rfl rfl rfl) | (fail_if_no_progress dsimp only) | split)

theorem execLinkBlockSend_keeps {r s : State} (h : Keeps r s) (a0 : Fin 96) : KeepsR r (execLinkBlockSend a0 s) := by
  unfold execLinkBlockSend
  try dsimp only
  repeat' (first
    | with_reducible assumption | (with_reducible exact Keeps.refl _) | with_reducible apply KeepsR.ok | with_reducible apply KeepsR.ite
    | (with_reducible apply State.sendBlock_keeps) | (with_reducible apply State.sendPattern_keeps) | (with_reducible apply State.updLink_keeps)
    | (with_reducible refine Keeps.of_snd (by assumption) ?_) | (with_reducible refine Keeps.of_fst (by assumption) ?_)
    | (with_reducible apply Keeps.ite) | (fail_if_no_progress with_reducible refine Keeps.rec_upd ?_ rfl rfl rfl rfl rfl)
    | (fail_if_no_progress dsimp only) | split)

theorem execLoadHeader_keeps {r s : State} (h : Keeps r s) (a0 : LoadIn) : KeepsR r (execLoadHeader a0 s) := by
  unfold execLoadHeader
  try dsimp only
  repeat' (first
    | with_reducible assumption | (with_reducible exact Keeps.refl _) | with_reducible apply KeepsR.ok | with_reducible apply KeepsR.ite
    | (with_reducible apply State.loadFail_keeps) | (with_reducible apply State.setFld_keeps) | (with_reducible apply Keeps.ite)
    | (fail_if_no_progress with_reducible refine Keeps.rec_upd ?_ rfl rfl rfl rfl rfl) | (fail_if_no_progress dsimp only) | split)

theorem State.applyTaps_keeps {r s : State} (h : Keeps r s) (a1 : ℕ) (a2 : ℕ) (a3 : ℕ) : Keeps r (State.applyTaps s a1 a2 a3).1 := by
  unfold State.applyTaps
  try dsimp only
  repeat' (first
    | with_reducible assumption | (with_reducible exact Keeps.refl _) | (with_reducible apply State.setFld_keeps)
    | (with_reducible refine Keeps.of_snd (by assumption) ?_) | (with_reducible refine Keeps.of_fst (by assumption) ?_)
    | (with_reducible apply Keeps.ite) | (with_reducible apply Keeps.foldl) | (with_reducible apply Keeps.foldl_fst)
    | (with_reducible apply Keeps.foldl_snd) | intro _ _ _ | (fail_if_no_progress with_reducible refine Keeps.rec_upd ?_ rfl rfl rfl rfl rfl)
    | (fail_if_no_progress with_reducible refine Keeps.rec_wf ?_ rfl rfl (by first | exact id | exact memWf_memWrite _ _ | exact mwf_mblock _ _ | exact mwf_mdrop _ | exact fun _ => rfl) (by first | exact id | exact memWf_memWrite _ _ | exact mwf_mblock _ _ | exact mwf_mdrop _ | exact fun _ => rfl) (by first | exact id | exact memWf_memWrite _ _ | exact mwf_mblock _ _ | exact mwf_mdrop _ | exact fun _ => rfl))
    | (fail_if_no_progress dsimp only) | split)

theorem execFollowerTimeout_keeps {r s : State} (h : Keeps r s)  : KeepsR r (execFollowerTimeout s) := by
  unfold execFollowerTimeout
  try dsimp only
  repeat' (first
    | with_reducible assumption | (with_reducible exact Keeps.refl _) | with_reducible apply KeepsR.ok | with_reducible apply KeepsR.ite
    | (with_reducible apply State.loadFail_keeps) | (with_reducible apply Keeps.ite) | (fail_if_no_progress dsimp only) | split)

theorem State.freezeEntry_keeps {r s : State} (h : Keeps r s) (a1 : ℕ) (a2 : ℕ) (a3 : ℕ) (a4 : ℕ) : Keeps r (State.freezeEntry s a1 a2 a3 a4) := by
  unfold State.freezeEntry
  try dsimp only
  repeat' (first
    | with_reducible assumption | (with_reducible exact Keeps.refl _) | (with_reducible apply State.report_keeps)
    | (with_reducible apply State.setSheetWord_keeps) | (with_reducible apply Keeps.ite)
    | (fail_if_no_progress with_reducible refine Keeps.rec_upd ?_ rfl rfl rfl rfl rfl) | (fail_if_no_progress dsimp only) | split)

theorem execStaleReplyReceive_keeps {r s : State} (h : Keeps r s) (a0 : Fin 1024) : KeepsR r (execStaleReplyReceive a0 s) := by
  unfold execStaleReplyReceive
  try dsimp only
  repeat' (first
    | with_reducible assumption | (with_reducible exact Keeps.refl _) | with_reducible apply KeepsR.ok | with_reducible apply KeepsR.ite
    | (with_reducible apply State.answer_keeps) | (with_reducible apply State.freezeEntry_keeps) | (with_reducible apply State.linkReturn_keeps)
    | (with_reducible refine State.takeInbox_keeps ?_ _ _ (by assumption)) | (with_reducible refine Keeps.of_snd (by assumption) ?_)
    | (with_reducible refine Keeps.of_fst (by assumption) ?_) | (with_reducible apply Keeps.ite)
    | (fail_if_no_progress with_reducible refine Keeps.rec_upd ?_ rfl rfl rfl rfl rfl) | (fail_if_no_progress dsimp only) | split)

theorem execLoadSourceError_keeps {r s : State} (h : Keeps r s) (a0 : Bool) : KeepsR r (execLoadSourceError a0 s) := by
  unfold execLoadSourceError
  try dsimp only
  repeat' (first
    | with_reducible assumption | (with_reducible exact Keeps.refl _) | with_reducible apply KeepsR.ok | with_reducible apply KeepsR.ite
    | (with_reducible apply State.loadFail_keeps) | (with_reducible apply Keeps.ite) | (fail_if_no_progress dsimp only) | split)

theorem execSyncBlockSend_keeps {r s : State} (h : Keeps r s) (a0 : Fin 96) (a1 : BitVec 10) (a2 : Bool) : KeepsR r (execSyncBlockSend a0 a1 a2 s)
    := by
  unfold execSyncBlockSend
  try dsimp only
  repeat' (first
    | with_reducible assumption | (with_reducible exact Keeps.refl _) | with_reducible apply KeepsR.ok | with_reducible apply KeepsR.ite
    | (with_reducible apply State.applyTaps_keeps) | (with_reducible apply State.emit_keeps) | (with_reducible apply State.updLane_keeps)
    | (with_reducible refine Keeps.of_snd (by assumption) ?_) | (with_reducible refine Keeps.of_fst (by assumption) ?_)
    | (with_reducible apply Keeps.ite) | (fail_if_no_progress with_reducible refine Keeps.rec_upd ?_ rfl rfl rfl rfl rfl)
    | (fail_if_no_progress dsimp only) | split)

theorem execPacketSend_keeps {r s : State} (h : Keeps r s) (a0 : Fin 1024) (a1 : SendTo) (a2 : PktIn) : KeepsR r (execPacketSend a0 a1 a2 s) := by
  unfold execPacketSend
  try dsimp only
  repeat' (first
    | with_reducible assumption | (with_reducible exact Keeps.refl _) | with_reducible apply KeepsR.ok | with_reducible apply KeepsR.ite
    | (with_reducible apply State.niSend_keeps) | (with_reducible refine Keeps.of_snd (by assumption) ?_)
    | (with_reducible refine Keeps.of_fst (by assumption) ?_) | (with_reducible apply Keeps.ite) | (with_reducible apply Keeps.foldl) | intro _ _ _
    | (fail_if_no_progress with_reducible refine Keeps.rec_upd ?_ rfl rfl rfl rfl rfl) | (fail_if_no_progress dsimp only) | split)

theorem execCreditReturn_keeps {r s : State} (h : Keeps r s) (a0 : Car) (a1 : Fin 40) (a2 : Fin 13) (a3 : Fin 6) (a4 : Fin 3) : KeepsR r
    (execCreditReturn a0 a1 a2 a3 a4 s) := by
  unfold execCreditReturn
  try dsimp only
  repeat' (first
    | with_reducible assumption | (with_reducible exact Keeps.refl _) | with_reducible apply KeepsR.ok | with_reducible apply KeepsR.ite
    | (with_reducible apply State.forwardAll_keeps) | (with_reducible refine Keeps.of_snd (by assumption) ?_)
    | (with_reducible refine Keeps.of_fst (by assumption) ?_) | (with_reducible apply Keeps.ite)
    | (fail_if_no_progress with_reducible refine Keeps.rec_upd ?_ rfl rfl rfl rfl rfl) | (fail_if_no_progress dsimp only) | split)

theorem execFlashMasterStart_keeps {r s : State} (h : Keeps r s)  : KeepsR r (execFlashMasterStart s) := by
  unfold execFlashMasterStart
  try dsimp only
  repeat' (first
    | with_reducible assumption | (with_reducible exact Keeps.refl _) | with_reducible apply KeepsR.ok | with_reducible apply KeepsR.ite
    | (with_reducible apply State.flashRead_keeps) | (with_reducible apply State.setFld_keeps) | (with_reducible apply Keeps.ite)
    | (fail_if_no_progress dsimp only) | split)

theorem execLoadTrailer_keeps {r s : State} (h : Keeps r s) (a0 : LoadIn) (a1 : LoadIn) : KeepsR r (execLoadTrailer a0 a1 s) := by
  unfold execLoadTrailer
  try dsimp only
  repeat' (first
    | with_reducible assumption | (with_reducible exact Keeps.refl _) | with_reducible apply KeepsR.ok | with_reducible apply KeepsR.ite
    | (with_reducible apply State.emit_keeps) | (with_reducible apply State.loadAccept_keeps) | (with_reducible apply State.loadFail_keeps)
    | (with_reducible apply State.setFlds_keeps) | (with_reducible refine Keeps.of_snd (by assumption) ?_)
    | (with_reducible refine Keeps.of_fst (by assumption) ?_) | (with_reducible apply Keeps.ite) | (fail_if_no_progress dsimp only) | split)

theorem State.linkDirDown_keeps {r s : State} (h : Keeps r s) (a1 : ℕ) (a2 : ℕ) (a3 : ℕ) : Keeps r (State.linkDirDown s a1 a2 a3) := by
  unfold State.linkDirDown
  try dsimp only
  repeat' (first
    | with_reducible assumption | (with_reducible exact Keeps.refl _) | (with_reducible apply State.report_keeps)
    | (with_reducible apply State.setFld_keeps) | (with_reducible apply State.setFlds_keeps) | (with_reducible apply Keeps.ite)
    | (fail_if_no_progress with_reducible refine Keeps.rec_upd ?_ rfl rfl rfl rfl rfl) | (fail_if_no_progress dsimp only) | split)

theorem State.probeSee_keeps {r s : State} (h : Keeps r s) (a1 : ℕ) (a2 : ℕ) (a3 : ℕ) (a4 : Packet) (a5 : ℕ) : Keeps r (State.probeSee s a1 a2 a3 a4
    a5) := by
  unfold State.probeSee
  try dsimp only
  repeat' (first
    | with_reducible assumption | (with_reducible exact Keeps.refl _) | (with_reducible apply State.bump_keeps)
    | (with_reducible apply State.setFld_keeps) | (with_reducible apply Keeps.ite)
    | (fail_if_no_progress with_reducible refine Keeps.rec_upd ?_ rfl rfl rfl rfl rfl) | (fail_if_no_progress dsimp only) | split)

theorem execFlitReceive_keeps {r s : State} (h : Keeps r s) (a0 : Car) (a1 : Fin 40) (a2 : Fin 13) (a3 : List (Fin 1096)) (a4 : List (Fin 1064)) :
    KeepsR r (execFlitReceive a0 a1 a2 a3 a4 s) := by
  unfold execFlitReceive
  try dsimp only
  repeat' (first
    | with_reducible assumption | (with_reducible exact Keeps.refl _) | with_reducible apply KeepsR.ok | with_reducible apply KeepsR.ite
    | (with_reducible apply State.bump_keeps) | (with_reducible apply State.draw_keeps) | (with_reducible apply State.dropPacket_keeps)
    | (with_reducible apply State.forwardAll_keeps) | (with_reducible apply State.linkDirDown_keeps) | (with_reducible apply State.probeSee_keeps)
    | (with_reducible apply State.recordUe_keeps) | (with_reducible apply State.report_keeps)
    | (with_reducible refine Keeps.of_snd (by assumption) ?_) | (with_reducible refine Keeps.of_fst (by assumption) ?_)
    | (with_reducible apply Keeps.ite) | (with_reducible apply Keeps.foldl) | intro _ _ _
    | (fail_if_no_progress with_reducible refine Keeps.rec_upd ?_ rfl rfl rfl rfl rfl) | (fail_if_no_progress dsimp only) | split)

theorem execIoDelayStep_keeps {r s : State} (h : Keeps r s) (a0 : Car) (a1 : Fin 24) : KeepsR r (execIoDelayStep a0 a1 s) := by
  unfold execIoDelayStep
  try dsimp only
  repeat' (first
    | with_reducible assumption | (with_reducible exact Keeps.refl _) | with_reducible apply KeepsR.ok | with_reducible apply KeepsR.ite
    | (with_reducible apply State.setFld_keeps) | (with_reducible apply Keeps.ite) | (fail_if_no_progress dsimp only) | split)

theorem execFabricPortFlit_keeps {r s : State} (h : Keeps r s) (a0 : Car) (a1 : Fin 16) (a2 : FabFlit) : KeepsR r (execFabricPortFlit a0 a1 a2 s) :=
    by
  unfold execFabricPortFlit
  try dsimp only
  repeat' (first
    | with_reducible assumption | (with_reducible exact Keeps.refl _) | with_reducible apply KeepsR.ok | with_reducible apply KeepsR.ite
    | (with_reducible apply State.portGo_keeps) | (with_reducible apply State.updFab_keeps)
    | (with_reducible refine Keeps.of_snd (by assumption) ?_) | (with_reducible refine Keeps.of_fst (by assumption) ?_)
    | (with_reducible apply Keeps.ite) | (fail_if_no_progress with_reducible refine Keeps.rec_upd ?_ rfl rfl rfl rfl rfl)
    | (fail_if_no_progress dsimp only) | split)

theorem execReleaseStageAdvance_keeps {r s : State} (h : Keeps r s) (a0 : Car) : KeepsR r (execReleaseStageAdvance a0 s) := by
  unfold execReleaseStageAdvance
  try dsimp only
  repeat' (first
    | with_reducible assumption | (with_reducible exact Keeps.refl _) | with_reducible apply KeepsR.ok | with_reducible apply KeepsR.ite
    | (with_reducible apply State.loadDone_keeps) | (with_reducible apply State.setFld_keeps) | (with_reducible apply Keeps.ite)
    | (fail_if_no_progress dsimp only) | split)

end Sys2Proof.Machine
end

