-- ==== Sys2Proof/Laws/KeepsCoach.lean ====
section
/-! SUPPORT. What the functions of a coach: operands, bank, array, vector engine, sequencer, streams keep (`Keeps`), one lemma each. -/

namespace Sys2Proof.Machine

theorem State.freeStore_keeps {r s : State} (h : Keeps r s) (a1 : ℕ) (a2 : ℕ) (a3 : ℕ) : Keeps r (State.freeStore s a1 a2 a3) := by
  unfold State.freeStore
  try dsimp only
  repeat' (first
    | with_reducible assumption | (with_reducible exact Keeps.refl _) | (with_reducible apply State.draws_keeps)
    | (with_reducible apply State.storeWrite_keeps) | (with_reducible apply Keeps.ite) | (fail_if_no_progress dsimp only) | split)

theorem State.freeSpans_keeps {r s : State} (h : Keeps r s) (a1 : ℕ) (a2 : List (ℕ × ℕ)) : Keeps r (State.freeSpans s a1 a2) := by
  unfold State.freeSpans
  try dsimp only
  repeat' (first
    | with_reducible assumption | (with_reducible exact Keeps.refl _) | (with_reducible apply State.freeStore_keeps)
    | (with_reducible apply Keeps.ite) | (with_reducible apply Keeps.foldl) | intro _ _ _ | (fail_if_no_progress dsimp only) | split)

theorem State.spoilRead_keeps {r s : State} (h : Keeps r s) (a1 : ℕ) (a2 : Inf) : Keeps r (State.spoilRead s a1 a2) := by
  unfold State.spoilRead
  try dsimp only
  repeat' (first
    | with_reducible assumption | (with_reducible exact Keeps.refl _) | (with_reducible apply State.draws_keeps)
    | (with_reducible apply State.setLanes_keeps) | (with_reducible apply State.updCoach_keeps) | (with_reducible apply Keeps.ite)
    | (with_reducible apply Keeps.foldl) | intro _ _ _ | (fail_if_no_progress with_reducible refine Keeps.rec_upd ?_ rfl rfl rfl rfl rfl)
    | (fail_if_no_progress dsimp only) | split)

theorem State.updOp_keeps {r s : State} (h : Keeps r s) (a1 : ℕ) (a2 : Option ℕ) (a3 : Opn → Opn) : Keeps r (State.updOp s a1 a2 a3) := by
  unfold State.updOp
  try dsimp only
  repeat' (first
    | with_reducible assumption | (with_reducible exact Keeps.refl _) | (with_reducible apply State.updCoach_keeps)
    | (with_reducible refine Keeps.of_snd (by assumption) ?_) | (with_reducible refine Keeps.of_fst (by assumption) ?_)
    | (with_reducible apply Keeps.ite) | (fail_if_no_progress with_reducible refine Keeps.rec_upd ?_ rfl rfl rfl rfl rfl)
    | (fail_if_no_progress dsimp only) | split)

theorem State.addTile_keeps {r s : State} (h : Keeps r s) (a1 : ℕ) (a2 : Option ℕ) (a3 : TileRec) : Keeps r (State.addTile s a1 a2 a3) := by
  unfold State.addTile
  try dsimp only
  repeat' (first
    | with_reducible assumption | (with_reducible exact Keeps.refl _) | (with_reducible apply State.setFlag_keeps)
    | (with_reducible apply State.updOp_keeps) | (with_reducible apply Keeps.ite)
    | (fail_if_no_progress with_reducible refine Keeps.rec_upd ?_ rfl rfl rfl rfl rfl) | (fail_if_no_progress dsimp only) | split)

theorem State.setSpill_keeps {r s : State} (h : Keeps r s) (a1 : ℕ) (a2 : List ℕ) : Keeps r (State.setSpill s a1 a2) := by
  unfold State.setSpill
  try dsimp only
  repeat' (first
    | with_reducible assumption | (with_reducible exact Keeps.refl _) | (with_reducible apply State.setFld_keeps)
    | (with_reducible apply State.updCoach_keeps) | (with_reducible apply Keeps.ite)
    | (fail_if_no_progress with_reducible refine Keeps.rec_upd ?_ rfl rfl rfl rfl rfl) | (fail_if_no_progress dsimp only) | split)

theorem State.clearEntry_keeps {r s : State} (h : Keeps r s) (a1 : ℕ) (a2 : ℕ) : Keeps r (State.clearEntry s a1 a2) := by
  unfold State.clearEntry
  try dsimp only
  repeat' (first
    | with_reducible assumption | (with_reducible exact Keeps.refl _) | (with_reducible apply State.setBankWord_keeps)
    | (with_reducible apply State.setSpill_keeps) | (with_reducible refine Keeps.of_snd (by assumption) ?_)
    | (with_reducible refine Keeps.of_fst (by assumption) ?_) | (with_reducible apply Keeps.ite) | (fail_if_no_progress dsimp only) | split)

theorem State.clearRegion_keeps {r s : State} (h : Keeps r s) (a1 : ℕ) (a2 : ℕ) : Keeps r (State.clearRegion s a1 a2) := by
  unfold State.clearRegion
  try dsimp only
  repeat' (first
    | with_reducible assumption | (with_reducible exact Keeps.refl _) | (with_reducible apply State.clearEntry_keeps)
    | (with_reducible apply Keeps.ite) | (with_reducible apply Keeps.foldl) | intro _ _ _ | (fail_if_no_progress dsimp only) | split)

theorem State.count_keeps {r s : State} (h : Keeps r s) (a1 : ℕ) (a2 : Option ℕ) (a3 : ℕ) (a4 : ℕ) (a5 : ℕ) : Keeps r (State.count s a1 a2 a3 a4 a5)
    := by
  unfold State.count
  try dsimp only
  repeat' (first
    | with_reducible assumption | (with_reducible exact Keeps.refl _) | (with_reducible apply State.bump_keeps)
    | (with_reducible apply State.setFlag_keeps) | (with_reducible apply State.updOp_keeps) | (with_reducible apply State.wrapAdd_keeps)
    | (with_reducible apply Keeps.ite) | (fail_if_no_progress with_reducible refine Keeps.rec_upd ?_ rfl rfl rfl rfl rfl)
    | (fail_if_no_progress dsimp only) | split)

theorem State.updStrm_keeps {r s : State} (h : Keeps r s) (a1 : ℕ) (a2 : ℕ) (a3 : Strm → Strm) : Keeps r (State.updStrm s a1 a2 a3) := by
  unfold State.updStrm
  try dsimp only
  repeat' (first
    | with_reducible assumption | (with_reducible exact Keeps.refl _) | (with_reducible apply State.updCoach_keeps)
    | (with_reducible apply Keeps.ite) | (fail_if_no_progress with_reducible refine Keeps.rec_upd ?_ rfl rfl rfl rfl rfl)
    | (fail_if_no_progress dsimp only) | split)

theorem State.halfWrite_keeps {r s : State} (h : Keeps r s) (a1 : ℕ) (a2 : ℕ) (a3 : List ℕ) : Keeps r (State.halfWrite s a1 a2 a3) := by
  unfold State.halfWrite
  try dsimp only
  repeat' (first
    | with_reducible assumption | (with_reducible exact Keeps.refl _) | (with_reducible apply State.freeStore_keeps)
    | (with_reducible apply State.storeWrite_keeps) | (with_reducible apply State.updStrm_keeps) | (with_reducible apply Keeps.ite)
    | (fail_if_no_progress with_reducible refine Keeps.rec_upd ?_ rfl rfl rfl rfl rfl) | (fail_if_no_progress dsimp only) | split)

theorem State.writeOut_keeps {r s : State} (h : Keeps r s) (a1 : ℕ) (a2 : Bool) (a3 : Option ℕ) (a4 : ℕ) (a5 : List ℕ) : Keeps r (State.writeOut s
    a1 a2 a3 a4 a5) := by
  unfold State.writeOut
  try dsimp only
  repeat' (first
    | with_reducible assumption | (with_reducible exact Keeps.refl _) | (with_reducible apply State.halfWrite_keeps)
    | (with_reducible apply State.storeWrite_keeps) | (with_reducible refine Keeps.of_snd (by assumption) ?_)
    | (with_reducible refine Keeps.of_fst (by assumption) ?_) | (with_reducible apply Keeps.ite) | (fail_if_no_progress dsimp only) | split)

theorem State.drain_keeps {r s : State} (h : Keeps r s) (a1 : ℕ) (a2 : Inf) : Keeps r (State.drain s a1 a2) := by
  unfold State.drain
  try dsimp only
  repeat' (first
    | with_reducible assumption | (with_reducible exact Keeps.refl _) | (with_reducible apply State.addTile_keeps)
    | (with_reducible apply State.clearRegion_keeps) | (with_reducible apply State.count_keeps) | (with_reducible apply State.draws_keeps)
    | (with_reducible apply State.writeOut_keeps) | (with_reducible refine Keeps.of_snd (by assumption) ?_)
    | (with_reducible refine Keeps.of_fst (by assumption) ?_) | (with_reducible apply Keeps.ite) | (with_reducible apply Keeps.foldl) | intro _ _ _
    | (fail_if_no_progress dsimp only) | split)

theorem State.finishInf_keeps {r s : State} (h : Keeps r s) (a1 : ℕ) (a2 : Inf) : Keeps r (State.finishInf s a1 a2) := by
  unfold State.finishInf
  try dsimp only
  repeat' (first
    | with_reducible assumption | (with_reducible exact Keeps.refl _) | (with_reducible apply State.updCoach_keeps)
    | (with_reducible refine Keeps.of_snd (by assumption) ?_) | (with_reducible refine Keeps.of_fst (by assumption) ?_)
    | (with_reducible apply Keeps.ite) | (fail_if_no_progress with_reducible refine Keeps.rec_upd ?_ rfl rfl rfl rfl rfl)
    | (fail_if_no_progress dsimp only) | split)

theorem State.markStarted_keeps {r s : State} (h : Keeps r s) (a1 : ℕ) (a2 : ℕ) : Keeps r (State.markStarted s a1 a2) := by
  unfold State.markStarted
  try dsimp only
  repeat' (first
    | with_reducible assumption | (with_reducible exact Keeps.refl _) | (with_reducible apply State.updCoach_keeps)
    | (with_reducible apply Keeps.ite) | (fail_if_no_progress with_reducible refine Keeps.rec_upd ?_ rfl rfl rfl rfl rfl)
    | (fail_if_no_progress dsimp only) | split)

theorem State.quant_keeps {r s : State} (h : Keeps r s) (a1 : ℕ) (a2 : Inf) : Keeps r (State.quant s a1 a2) := by
  unfold State.quant
  try dsimp only
  repeat' (first
    | with_reducible assumption | (with_reducible exact Keeps.refl _) | (with_reducible apply State.addTile_keeps)
    | (with_reducible apply State.clearRegion_keeps) | (with_reducible apply State.count_keeps) | (with_reducible apply State.draws_keeps)
    | (with_reducible apply State.writeOut_keeps) | (with_reducible refine Keeps.of_snd (by assumption) ?_)
    | (with_reducible refine Keeps.of_fst (by assumption) ?_) | (with_reducible apply Keeps.ite) | (with_reducible apply Keeps.foldl) | intro _ _ _
    | (fail_if_no_progress dsimp only) | split)

theorem State.consume_keeps {r s : State} (h : Keeps r s) (a1 : ℕ) (a2 : ℕ) (a3 : ℕ) : Keeps r (State.consume s a1 a2 a3) := by
  unfold State.consume
  try dsimp only
  repeat' (first
    | with_reducible assumption | (with_reducible exact Keeps.refl _) | (with_reducible apply State.updStrm_keeps)
    | (with_reducible apply Keeps.ite) | (fail_if_no_progress with_reducible refine Keeps.rec_upd ?_ rfl rfl rfl rfl rfl)
    | (fail_if_no_progress dsimp only) | split)

theorem State.halfRead_keeps {r s : State} (h : Keeps r s) (a1 : ℕ) (a2 : ℕ) (a3 : ℕ) (a4 : ℕ) : Keeps r (State.halfRead s a1 a2 a3 a4).2 := by
  unfold State.halfRead
  try dsimp only
  repeat' (first
    | with_reducible assumption | (with_reducible exact Keeps.refl _) | (with_reducible apply State.draws_keeps) | (with_reducible apply Keeps.ite)
    | (fail_if_no_progress dsimp only) | split)

theorem State.reserve_keeps {r s : State} (h : Keeps r s) (a1 : ℕ) (a2 : ℕ) (a3 : ℕ) : Keeps r (State.reserve s a1 a2 a3).2 := by
  unfold State.reserve
  try dsimp only
  repeat' (first
    | with_reducible assumption | (with_reducible exact Keeps.refl _) | (with_reducible apply State.updStrm_keeps)
    | (with_reducible apply Keeps.ite) | (fail_if_no_progress with_reducible refine Keeps.rec_upd ?_ rfl rfl rfl rfl rfl)
    | (fail_if_no_progress dsimp only) | split)

theorem State.loadwBytes_keeps {r s : State} (h : Keeps r s) (a1 : ℕ) (a2 : Inf) : Keeps r (State.loadwBytes s a1 a2).2.2 := by
  unfold State.loadwBytes
  try dsimp only
  repeat' (first
    | with_reducible assumption | (with_reducible exact Keeps.refl _) | (with_reducible apply State.consume_keeps)
    | (with_reducible apply State.halfRead_keeps) | (with_reducible apply State.reserve_keeps)
    | (with_reducible refine Keeps.of_snd (by assumption) ?_) | (with_reducible refine Keeps.of_fst (by assumption) ?_)
    | (with_reducible apply Keeps.ite) | (fail_if_no_progress dsimp only) | split)

theorem State.showSets_keeps {r s : State} (h : Keeps r s) (a1 : ℕ) : Keeps r (State.showSets s a1) := by
  unfold State.showSets
  try dsimp only
  repeat' (first
    | with_reducible assumption | (with_reducible exact Keeps.refl _) | (with_reducible apply State.setFlds_keeps)
    | (with_reducible apply Keeps.ite) | (fail_if_no_progress dsimp only) | split)

theorem State.startLoadw_keeps {r s : State} (h : Keeps r s) (a1 : ℕ) (a2 : Inf) : Keeps r (State.startLoadw s a1 a2) := by
  unfold State.startLoadw
  try dsimp only
  repeat' (first
    | with_reducible assumption | (with_reducible exact Keeps.refl _) | (with_reducible apply State.count_keeps)
    | (with_reducible apply State.loadwBytes_keeps) | (with_reducible apply State.showSets_keeps) | (with_reducible apply State.updCoach_keeps)
    | (with_reducible apply Keeps.ite) | (fail_if_no_progress with_reducible refine Keeps.rec_upd ?_ rfl rfl rfl rfl rfl)
    | (fail_if_no_progress dsimp only) | split)

theorem State.startPass_keeps {r s : State} (h : Keeps r s) (a1 : ℕ) (a2 : Inf) : Keeps r (State.startPass s a1 a2) := by
  unfold State.startPass
  try dsimp only
  repeat' (first
    | with_reducible assumption | (with_reducible exact Keeps.refl _) | (with_reducible apply State.reserve_keeps)
    | (with_reducible apply State.updCoach_keeps) | (with_reducible refine Keeps.of_snd (by assumption) ?_)
    | (with_reducible refine Keeps.of_fst (by assumption) ?_) | (with_reducible apply Keeps.ite)
    | (fail_if_no_progress with_reducible refine Keeps.rec_upd ?_ rfl rfl rfl rfl rfl) | (fail_if_no_progress dsimp only) | split)

theorem State.drawAcc_keeps {r s : State} (h : Keeps r s)  : Keeps r (State.drawAcc s).2 := by
  unfold State.drawAcc
  try dsimp only
  repeat' (first
    | with_reducible assumption | (with_reducible exact Keeps.refl _) | (with_reducible apply State.draw_keeps) | (with_reducible apply Keeps.ite)
    | (fail_if_no_progress with_reducible refine Keeps.rec_upd ?_ rfl rfl rfl rfl rfl) | (fail_if_no_progress dsimp only) | split)

theorem State.fillAccs_keeps {r s : State} (h : Keeps r s) (l : List (Option Acc)) : Keeps r (s.fillAccs l).2 := by
  induction l generalizing s with
  | nil => exact h
  | cons x l ih =>
    cases x with
    | none => exact ih (State.drawAcc_keeps h)
    | some a => exact ih h

theorem State.reduceBank_keeps {r s : State} (h : Keeps r s) (a1 : ℕ) (a2 : ℕ) : Keeps r (State.reduceBank s a1 a2).2 := by
  unfold State.reduceBank
  try dsimp only
  repeat' (first
    | with_reducible assumption | (with_reducible exact Keeps.refl _) | (with_reducible apply State.fillAccs_keeps)
    | (with_reducible apply Keeps.ite) | (fail_if_no_progress dsimp only) | split)

theorem State.reduceStore_keeps {r s : State} (h : Keeps r s) (a1 : ℕ) (a2 : ℕ) : Keeps r (State.reduceStore s a1 a2).2 := by
  unfold State.reduceStore
  try dsimp only
  repeat' (first
    | with_reducible assumption | (with_reducible exact Keeps.refl _) | (with_reducible apply State.count_keeps)
    | (with_reducible apply State.fillAccs_keeps) | (with_reducible apply Keeps.ite) | (fail_if_no_progress dsimp only) | split)

theorem State.syncInc_keeps {r s : State} (h : Keeps r s) (a1 : ℕ) (a2 : ℕ) : Keeps r (State.syncInc s a1 a2) := by
  unfold State.syncInc
  try dsimp only
  repeat' (first
    | with_reducible assumption | (with_reducible exact Keeps.refl _) | (with_reducible apply State.bump_keeps) | (with_reducible apply Keeps.ite)
    | (fail_if_no_progress dsimp only) | split)

theorem State.syncSettle_keeps {r s : State} (h : Keeps r s) (a1 : ℕ) : Keeps r (State.syncSettle s a1) := by
  unfold State.syncSettle
  try dsimp only
  repeat' (first
    | with_reducible assumption | (with_reducible exact Keeps.refl _) | (with_reducible apply State.syncInc_keeps)
    | (with_reducible apply State.updCoach_keeps) | (with_reducible apply Keeps.ite) | (with_reducible apply Keeps.foldl) | intro _ _ _
    | (fail_if_no_progress with_reducible refine Keeps.rec_upd ?_ rfl rfl rfl rfl rfl) | (fail_if_no_progress dsimp only) | split)

theorem State.startReduce_keeps {r s : State} (h : Keeps r s) (a1 : ℕ) (a2 : Inf) : Keeps r (State.startReduce s a1 a2) := by
  unfold State.startReduce
  try dsimp only
  repeat' (first
    | with_reducible assumption | (with_reducible exact Keeps.refl _) | (with_reducible apply State.clearRegion_keeps)
    | (with_reducible apply State.niSend_keeps) | (with_reducible apply State.reduceBank_keeps) | (with_reducible apply State.reduceStore_keeps)
    | (with_reducible apply State.syncSettle_keeps) | (with_reducible apply State.updCoach_keeps) | (with_reducible apply Keeps.ite)
    | (with_reducible apply Keeps.foldl) | intro _ _ _ | (fail_if_no_progress with_reducible refine Keeps.rec_upd ?_ rfl rfl rfl rfl rfl)
    | (fail_if_no_progress with_reducible refine Keeps.rec_wf ?_ rfl rfl (by first | exact id | exact memWf_memWrite _ _ | exact mwf_mblock _ _ | exact mwf_mdrop _ | exact fun _ => rfl) (by first | exact id | exact memWf_memWrite _ _ | exact mwf_mblock _ _ | exact mwf_mdrop _ | exact fun _ => rfl) (by first | exact id | exact memWf_memWrite _ _ | exact mwf_mblock _ _ | exact mwf_mdrop _ | exact fun _ => rfl))
    | (fail_if_no_progress dsimp only) | split)

theorem State.putCodes_keeps {r s : State} (h : Keeps r s) (a1 : ℕ) (a2 : ℕ) (a3 : ℕ) (a4 : Bool) (a5 : List ℕ) : Keeps r (State.putCodes s a1 a2 a3
    a4 a5) := by
  unfold State.putCodes
  try dsimp only
  repeat' (first
    | with_reducible assumption | (with_reducible exact Keeps.refl _) | (with_reducible apply State.setLanes_keeps)
    | (with_reducible apply Keeps.ite) | (fail_if_no_progress dsimp only) | split)

theorem State.sdsplit_keeps {r s : State} (h : Keeps r s) (a1 : ℕ) (a2 : Inf) (a3 : ℕ) : Keeps r (State.sdsplit s a1 a2 a3) := by
  unfold State.sdsplit
  try dsimp only
  repeat' (first
    | with_reducible assumption | (with_reducible exact Keeps.refl _) | (with_reducible apply State.addTile_keeps)
    | (with_reducible apply State.count_keeps) | (with_reducible apply State.writeOut_keeps)
    | (with_reducible refine Keeps.of_snd (by assumption) ?_) | (with_reducible refine Keeps.of_fst (by assumption) ?_)
    | (with_reducible apply Keeps.ite) | (with_reducible apply Keeps.foldl) | intro _ _ _ | (fail_if_no_progress dsimp only) | split)

theorem State.smac_keeps {r s : State} (h : Keeps r s) (a1 : ℕ) (a2 : ℕ) (a3 : ℕ) (a4 : Bool) : Keeps r (State.smac s a1 a2 a3 a4) := by
  unfold State.smac
  try dsimp only
  repeat' (first
    | with_reducible assumption | (with_reducible exact Keeps.refl _) | (with_reducible apply State.setFld_keeps)
    | (with_reducible apply State.setSigAccs_keeps) | (with_reducible refine Keeps.of_snd (by assumption) ?_)
    | (with_reducible refine Keeps.of_fst (by assumption) ?_) | (with_reducible apply Keeps.ite) | (with_reducible apply Keeps.foldl) | intro _ _ _
    | (fail_if_no_progress dsimp only) | split)

theorem State.swb_keeps {r s : State} (h : Keeps r s) (a1 : ℕ) (a2 : Inf) (a3 : ℕ) : Keeps r (State.swb s a1 a2 a3) := by
  unfold State.swb
  try dsimp only
  repeat' (first
    | with_reducible assumption | (with_reducible exact Keeps.refl _) | (with_reducible apply State.addTile_keeps)
    | (with_reducible apply State.count_keeps) | (with_reducible apply State.setLanes_keeps) | (with_reducible apply Keeps.ite)
    | (fail_if_no_progress dsimp only) | split)

theorem State.vcvt_keeps {r s : State} (h : Keeps r s) (a1 : ℕ) (a2 : Inf) (a3 : ℕ) : Keeps r (State.vcvt s a1 a2 a3) := by
  unfold State.vcvt
  try dsimp only
  repeat' (first
    | with_reducible assumption | (with_reducible exact Keeps.refl _) | (with_reducible apply State.addTile_keeps)
    | (with_reducible apply State.count_keeps) | (with_reducible apply State.putCodes_keeps) | (with_reducible apply State.setLanes_keeps)
    | (with_reducible apply Keeps.ite) | (fail_if_no_progress dsimp only) | split)

theorem State.vecWrite_keeps {r s : State} (h : Keeps r s) (a1 : ℕ) (a2 : Inf) (a3 : ℕ) (a4 : Bool) (a5 : List Val) (a6 : ℕ) : Keeps r
    (State.vecWrite s a1 a2 a3 a4 a5 a6) := by
  unfold State.vecWrite
  try dsimp only
  repeat' (first
    | with_reducible assumption | (with_reducible exact Keeps.refl _) | (with_reducible apply State.addTile_keeps)
    | (with_reducible apply State.count_keeps) | (with_reducible apply State.putCodes_keeps) | (with_reducible apply Keeps.ite)
    | (fail_if_no_progress dsimp only) | split)

theorem State.vec1_keeps {r s : State} (h : Keeps r s) (a1 : ℕ) (a2 : Inf) (a3 : ℕ) (a4 : Val → Val) : Keeps r (State.vec1 s a1 a2 a3 a4) := by
  unfold State.vec1
  try dsimp only
  repeat' (first
    | with_reducible assumption | (with_reducible exact Keeps.refl _) | (with_reducible apply State.vecWrite_keeps)
    | (with_reducible apply Keeps.ite) | (fail_if_no_progress dsimp only) | split)

theorem State.vec2_keeps {r s : State} (h : Keeps r s) (a1 : ℕ) (a2 : Inf) (a3 : ℕ) (a4 : Val → Val → Val) : Keeps r (State.vec2 s a1 a2 a3 a4) := by
  unfold State.vec2
  try dsimp only
  repeat' (first
    | with_reducible assumption | (with_reducible exact Keeps.refl _) | (with_reducible apply State.vecWrite_keeps)
    | (with_reducible apply Keeps.ite) | (fail_if_no_progress dsimp only) | split)

theorem State.vec3_keeps {r s : State} (h : Keeps r s) (a1 : ℕ) (a2 : Inf) (a3 : ℕ) (a4 : Val → Val → Val → Val) : Keeps r (State.vec3 s a1 a2 a3
    a4) := by
  unfold State.vec3
  try dsimp only
  repeat' (first
    | with_reducible assumption | (with_reducible exact Keeps.refl _) | (with_reducible apply State.vecWrite_keeps)
    | (with_reducible apply Keeps.ite) | (fail_if_no_progress dsimp only) | split)

theorem State.vecSpecial_keeps {r s : State} (h : Keeps r s) (a1 : ℕ) (a2 : Inf) (a3 : ℕ) (a4 : ℕ) : Keeps r (State.vecSpecial s a1 a2 a3 a4) := by
  unfold State.vecSpecial
  try dsimp only
  repeat' (first
    | with_reducible assumption | (with_reducible exact Keeps.refl _) | (with_reducible apply State.addTile_keeps)
    | (with_reducible apply State.count_keeps) | (with_reducible apply State.putCodes_keeps)
    | (with_reducible refine Keeps.of_snd (by assumption) ?_) | (with_reducible refine Keeps.of_fst (by assumption) ?_)
    | (with_reducible apply Keeps.ite) | (fail_if_no_progress dsimp only) | split)

theorem State.moveCb_keeps {r s : State} (h : Keeps r s) (a1 : ℕ) (a2 : ℕ) (a3 : ℕ) (a4 : Bool) : Keeps r (State.moveCb s a1 a2 a3 a4) := by
  unfold State.moveCb
  try dsimp only
  repeat' (first
    | with_reducible assumption | (with_reducible exact Keeps.refl _) | (with_reducible apply State.draw_keeps)
    | (with_reducible apply State.setFld_keeps) | (with_reducible apply Keeps.ite) | (fail_if_no_progress dsimp only) | split)

theorem State.groupCodes_keeps {r s : State} (h : Keeps r s) (a1 : ℕ) (a2 : ℕ) (a3 : ℕ) (a4 : Fmt) : Keeps r (State.groupCodes s a1 a2 a3 a4).2 := by
  unfold State.groupCodes
  try dsimp only
  repeat' (first
    | with_reducible assumption | (with_reducible exact Keeps.refl _) | (with_reducible apply State.draws_keeps) | (with_reducible apply Keeps.ite)
    | (fail_if_no_progress dsimp only) | split)

theorem State.vldGroup_keeps {r s : State} (h : Keeps r s) (a1 : ℕ) (a2 : Inf) (a3 : Fmt) (a4 : Bool) (a5 : ℕ) : Keeps r (State.vldGroup s a1 a2 a3
    a4 a5).2 := by
  unfold State.vldGroup
  try dsimp only
  repeat' (first
    | with_reducible assumption | (with_reducible exact Keeps.refl _) | (with_reducible apply State.groupCodes_keeps)
    | (with_reducible apply Keeps.ite) | (fail_if_no_progress with_reducible refine Keeps.rec_upd ?_ rfl rfl rfl rfl rfl)
    | (fail_if_no_progress dsimp only) | split)

theorem State.vld_keeps {r s : State} (h : Keeps r s) (a1 : ℕ) (a2 : Inf) (a3 : ℕ) : Keeps r (State.vld s a1 a2 a3) := by
  unfold State.vld
  try dsimp only
  repeat' (first
    | with_reducible assumption | (with_reducible exact Keeps.refl _) | (with_reducible apply State.addTile_keeps)
    | (with_reducible apply State.count_keeps) | (with_reducible apply State.draws_keeps) | (with_reducible apply State.moveCb_keeps)
    | (with_reducible apply State.putCodes_keeps) | (with_reducible apply State.vldGroup_keeps)
    | (with_reducible refine Keeps.of_snd (by assumption) ?_) | (with_reducible refine Keeps.of_fst (by assumption) ?_)
    | (with_reducible apply Keeps.ite) | (with_reducible apply Keeps.foldl) | (with_reducible apply Keeps.foldl_fst)
    | (with_reducible apply Keeps.foldl_snd) | intro _ _ _ | (fail_if_no_progress with_reducible refine Keeps.rec_upd ?_ rfl rfl rfl rfl rfl)
    | (fail_if_no_progress with_reducible refine Keeps.rec_wf ?_ rfl rfl (by first | exact id | exact memWf_memWrite _ _ | exact mwf_mblock _ _ | exact mwf_mdrop _ | exact fun _ => rfl) (by first | exact id | exact memWf_memWrite _ _ | exact mwf_mblock _ _ | exact mwf_mdrop _ | exact fun _ => rfl) (by first | exact id | exact memWf_memWrite _ _ | exact mwf_mblock _ _ | exact mwf_mdrop _ | exact fun _ => rfl))
    | (fail_if_no_progress dsimp only) | split)

theorem State.vquant_keeps {r s : State} (h : Keeps r s) (a1 : ℕ) (a2 : Inf) (a3 : ℕ) : Keeps r (State.vquant s a1 a2 a3) := by
  unfold State.vquant
  try dsimp only
  repeat' (first
    | with_reducible assumption | (with_reducible exact Keeps.refl _) | (with_reducible apply State.addTile_keeps)
    | (with_reducible apply State.count_keeps) | (with_reducible apply State.writeOut_keeps)
    | (with_reducible refine Keeps.of_snd (by assumption) ?_) | (with_reducible refine Keeps.of_fst (by assumption) ?_)
    | (with_reducible apply Keeps.ite) | (fail_if_no_progress dsimp only) | split)

theorem State.vrsum_keeps {r s : State} (h : Keeps r s) (a1 : ℕ) (a2 : Inf) (a3 : ℕ) : Keeps r (State.vrsum s a1 a2 a3) := by
  unfold State.vrsum
  try dsimp only
  repeat' (first
    | with_reducible assumption | (with_reducible exact Keeps.refl _) | (with_reducible apply State.vecWrite_keeps)
    | (with_reducible apply Keeps.ite) | (fail_if_no_progress dsimp only) | split)

theorem State.vsearch_keeps {r s : State} (h : Keeps r s) (a1 : ℕ) (a2 : Inf) (a3 : ℕ) (a4 : Bool) : Keeps r (State.vsearch s a1 a2 a3 a4) := by
  unfold State.vsearch
  try dsimp only
  repeat' (first
    | with_reducible assumption | (with_reducible exact Keeps.refl _) | (with_reducible apply State.addTile_keeps)
    | (with_reducible apply State.count_keeps) | (with_reducible apply State.setLanes_keeps)
    | (with_reducible refine Keeps.of_snd (by assumption) ?_) | (with_reducible refine Keeps.of_fst (by assumption) ?_)
    | (with_reducible apply Keeps.ite) | (fail_if_no_progress dsimp only) | split)

theorem State.vsetcb_keeps {r s : State} (h : Keeps r s) (a1 : ℕ) (a2 : ℕ) : Keeps r (State.vsetcb s a1 a2) := by
  unfold State.vsetcb
  try dsimp only
  repeat' (first
    | with_reducible assumption | (with_reducible exact Keeps.refl _) | (with_reducible apply State.setFlds_keeps)
    | (with_reducible apply Keeps.ite) | (with_reducible apply Keeps.foldl) | intro _ _ _ | (fail_if_no_progress dsimp only) | split)

theorem State.putElems_keeps {r s : State} (h : Keeps r s) (a1 : ℕ) (a2 : ℕ) (a3 : List ℕ) (a4 : List ℕ) : Keeps r (State.putElems s a1 a2 a3 a4) :=
    by
  unfold State.putElems
  try dsimp only
  repeat' (first
    | with_reducible assumption | (with_reducible exact Keeps.refl _) | (with_reducible apply State.storeWrite_keeps)
    | (with_reducible apply Keeps.ite) | (with_reducible apply Keeps.foldl) | intro _ _ _ | (fail_if_no_progress dsimp only) | split)

theorem State.vst_keeps {r s : State} (h : Keeps r s) (a1 : ℕ) (a2 : Inf) (a3 : ℕ) : Keeps r (State.vst s a1 a2 a3) := by
  unfold State.vst
  try dsimp only
  repeat' (first
    | with_reducible assumption | (with_reducible exact Keeps.refl _) | (with_reducible apply State.addTile_keeps)
    | (with_reducible apply State.count_keeps) | (with_reducible apply State.draws_keeps) | (with_reducible apply State.freeStore_keeps)
    | (with_reducible apply State.moveCb_keeps) | (with_reducible apply State.putElems_keeps)
    | (with_reducible refine Keeps.of_snd (by assumption) ?_) | (with_reducible refine Keeps.of_fst (by assumption) ?_)
    | (with_reducible apply Keeps.ite) | (with_reducible apply Keeps.foldl) | intro _ _ _
    | (fail_if_no_progress with_reducible refine Keeps.rec_upd ?_ rfl rfl rfl rfl rfl) | (fail_if_no_progress dsimp only) | split)

theorem State.vecWork_keeps {r s : State} (h : Keeps r s) (a1 : ℕ) (a2 : Inf) (a3 : ℕ) : Keeps r (State.vecWork s a1 a2 a3) := by
  unfold State.vecWork
  try dsimp only
  repeat' (first
    | with_reducible assumption | (with_reducible exact Keeps.refl _) | (with_reducible apply State.putCodes_keeps)
    | (with_reducible apply State.sdsplit_keeps) | (with_reducible apply State.setFlds_keeps) | (with_reducible apply State.smac_keeps)
    | (with_reducible apply State.swb_keeps) | (with_reducible apply State.vcvt_keeps) | (with_reducible apply State.vec1_keeps)
    | (with_reducible apply State.vec2_keeps) | (with_reducible apply State.vec3_keeps) | (with_reducible apply State.vecSpecial_keeps)
    | (with_reducible apply State.vld_keeps) | (with_reducible apply State.vquant_keeps) | (with_reducible apply State.vrsum_keeps)
    | (with_reducible apply State.vsearch_keeps) | (with_reducible apply State.vsetcb_keeps) | (with_reducible apply State.vst_keeps)
    | (with_reducible refine Keeps.of_snd (by assumption) ?_) | (with_reducible refine Keeps.of_fst (by assumption) ?_)
    | (with_reducible apply Keeps.ite) | (fail_if_no_progress dsimp only) | split)

theorem State.startVector_keeps {r s : State} (h : Keeps r s) (a1 : ℕ) (a2 : Inf) : Keeps r (State.startVector s a1 a2) := by
  unfold State.startVector
  try dsimp only
  repeat' (first
    | with_reducible assumption | (with_reducible exact Keeps.refl _) | (with_reducible apply State.updCoach_keeps)
    | (with_reducible apply State.vecWork_keeps) | (with_reducible apply State.wrapAdd_keeps) | (with_reducible apply Keeps.ite)
    | (fail_if_no_progress with_reducible refine Keeps.rec_upd ?_ rfl rfl rfl rfl rfl) | (fail_if_no_progress dsimp only) | split)

theorem State.startWork_keeps {r s : State} (h : Keeps r s) (a1 : ℕ) (a2 : Inf) : Keeps r (State.startWork s a1 a2) := by
  unfold State.startWork
  try dsimp only
  repeat' (first
    | with_reducible assumption | (with_reducible exact Keeps.refl _) | (with_reducible apply State.drain_keeps)
    | (with_reducible apply State.finishInf_keeps) | (with_reducible apply State.markStarted_keeps) | (with_reducible apply State.quant_keeps)
    | (with_reducible apply State.startLoadw_keeps) | (with_reducible apply State.startPass_keeps) | (with_reducible apply State.startReduce_keeps)
    | (with_reducible apply State.startVector_keeps) | (with_reducible refine Keeps.of_snd (by assumption) ?_)
    | (with_reducible refine Keeps.of_fst (by assumption) ?_) | (with_reducible apply Keeps.ite) | (fail_if_no_progress dsimp only) | split)

theorem State.startInf_keeps {r s : State} (h : Keeps r s) (a1 : ℕ) (a2 : Inf) : Keeps r (State.startInf s a1 a2) := by
  unfold State.startInf
  try dsimp only
  repeat' (first
    | with_reducible assumption | (with_reducible exact Keeps.refl _) | (with_reducible apply State.freeSpans_keeps)
    | (with_reducible apply State.spoilRead_keeps) | (with_reducible apply State.startWork_keeps) | (with_reducible apply Keeps.ite)
    | (with_reducible apply Keeps.foldl) | intro _ _ _ | (fail_if_no_progress dsimp only) | split)

theorem State.recordFault_keeps {r s : State} (h : Keeps r s) (a1 : ℕ) (a2 : ℕ) (a3 : ℕ) : Keeps r (State.recordFault s a1 a2 a3) := by
  unfold State.recordFault
  try dsimp only
  repeat' (first
    | with_reducible assumption | (with_reducible exact Keeps.refl _) | (with_reducible apply State.setFlag_keeps)
    | (with_reducible apply State.setFlds_keeps) | (with_reducible apply Keeps.ite) | (fail_if_no_progress dsimp only) | split)

theorem State.seqFault_keeps {r s : State} (h : Keeps r s) (a1 : ℕ) (a2 : ℕ) (a3 : ℕ) : Keeps r (State.seqFault s a1 a2 a3) := by
  unfold State.seqFault
  try dsimp only
  repeat' (first
    | with_reducible assumption | (with_reducible exact Keeps.refl _) | (with_reducible apply State.recordFault_keeps)
    | (with_reducible apply State.report_keeps) | (with_reducible apply State.setFld_keeps) | (with_reducible apply State.updCoach_keeps)
    | (with_reducible apply Keeps.ite) | (fail_if_no_progress with_reducible refine Keeps.rec_upd ?_ rfl rfl rfl rfl rfl)
    | (fail_if_no_progress dsimp only) | split)

theorem State.advance_keeps {r s : State} (h : Keeps r s) (a1 : ℕ) (a2 : ℕ) : Keeps r (State.advance s a1 a2) := by
  unfold State.advance
  try dsimp only
  repeat' (first
    | with_reducible assumption | (with_reducible exact Keeps.refl _) | (with_reducible apply State.seqFault_keeps)
    | (with_reducible apply State.setFld_keeps) | (with_reducible apply Keeps.ite) | (fail_if_no_progress dsimp only) | split)

theorem State.closeFor_keeps {r s : State} (h : Keeps r s) (a1 : ℕ) (a2 : ℕ) (a3 : ℕ) (a4 : ℕ) (a5 : Bool) : Keeps r (State.closeFor s a1 a2 a3 a4
    a5) := by
  unfold State.closeFor
  try dsimp only
  repeat' (first
    | with_reducible assumption | (with_reducible exact Keeps.refl _) | (with_reducible apply State.setFld_keeps)
    | (with_reducible apply State.updOp_keeps) | (with_reducible refine Keeps.of_snd (by assumption) ?_)
    | (with_reducible refine Keeps.of_fst (by assumption) ?_) | (with_reducible apply Keeps.ite)
    | (fail_if_no_progress with_reducible refine Keeps.rec_upd ?_ rfl rfl rfl rfl rfl) | (fail_if_no_progress dsimp only) | split)

theorem State.controlDone_keeps {r s : State} (h : Keeps r s) (a1 : ℕ) (a2 : ℕ) (a3 : ℕ) (a4 : Option ℕ) : Keeps r (State.controlDone s a1 a2 a3 a4)
    := by
  unfold State.controlDone
  try dsimp only
  repeat' (first
    | with_reducible assumption | (with_reducible exact Keeps.refl _) | (with_reducible apply State.advance_keeps)
    | (with_reducible apply State.closeFor_keeps) | (with_reducible apply State.setFld_keeps)
    | (with_reducible refine Keeps.of_snd (by assumption) ?_) | (with_reducible refine Keeps.of_fst (by assumption) ?_)
    | (with_reducible apply Keeps.ite) | (fail_if_no_progress dsimp only) | split)

theorem State.issueOp_keeps {r s : State} (h : Keeps r s) (k op : Nat) {act : Nat → Nat → State → State}
    (ha : ∀ a b t, Keeps r t → Keeps r (act a b t)) : Keeps r (s.issueOp k op act) := by
  unfold State.issueOp
  dsimp only
  exact Keeps.ite h (Keeps.ite h (Keeps.ite (State.seqFault_keeps h _ _ _) (ha _ _ _ h)))

theorem State.issueControl_keeps {r s : State} (h : Keeps r s) (k op : Nat) {act : Nat → State → State × Option Nat}
    (ha : ∀ w t, Keeps r t → Keeps r (act w t).1) : Keeps r (s.issueControl k op act) := by
  unfold State.issueControl
  refine State.issueOp_keeps h _ _ (fun w pc t ht => Keeps.ite ht ?_)
  exact State.controlDone_keeps (ha _ _ (State.wrapAdd_keeps ht _ _ _ _)) _ _ _ _

theorem execSetsp_keeps {r s : State} (h : Keeps r s) (a0 : Coach) : KeepsR r (execSetsp a0 s) := by
  unfold execSetsp
  try dsimp only
  repeat' (first
    | with_reducible assumption | (with_reducible exact Keeps.refl _) | with_reducible apply KeepsR.ok | with_reducible apply KeepsR.ite
    | (with_reducible apply State.issueControl_keeps) | (with_reducible apply State.setFld_keeps) | (with_reducible apply Keeps.ite) | intro _ _ _
    | (fail_if_no_progress dsimp only) | split)

theorem State.settleEnd_keeps {r s : State} (h : Keeps r s) (a1 : ℕ) : Keeps r (State.settleEnd s a1) := by
  unfold State.settleEnd
  try dsimp only
  repeat' (first
    | with_reducible assumption | (with_reducible exact Keeps.refl _) | (with_reducible apply State.setCoach_keeps)
    | (with_reducible apply State.setFld_keeps) | (with_reducible apply Keeps.ite)
    | (fail_if_no_progress with_reducible refine Keeps.rec_upd ?_ rfl rfl rfl rfl rfl) | (fail_if_no_progress dsimp only) | split)

theorem execPassComplete_keeps {r s : State} (h : Keeps r s) (a0 : Coach) : KeepsR r (execPassComplete a0 s) := by
  unfold execPassComplete
  try dsimp only
  repeat' (first
    | with_reducible assumption | (with_reducible exact Keeps.refl _) | with_reducible apply KeepsR.ok | with_reducible apply KeepsR.ite
    | (with_reducible apply State.bump_keeps) | (with_reducible apply State.finishInf_keeps) | (with_reducible apply State.settleEnd_keeps)
    | (with_reducible refine Keeps.of_snd (by assumption) ?_) | (with_reducible refine Keeps.of_fst (by assumption) ?_)
    | (with_reducible apply Keeps.ite) | (fail_if_no_progress dsimp only) | split)

theorem State.openFor_keeps {r s : State} (h : Keeps r s) (a1 : ℕ) (a2 : ℕ) (a3 : Bool) : Keeps r (State.openFor s a1 a2 a3) := by
  unfold State.openFor
  try dsimp only
  repeat' (first
    | with_reducible assumption | (with_reducible exact Keeps.refl _) | (with_reducible apply State.updCoach_keeps)
    | (with_reducible apply Keeps.ite) | (fail_if_no_progress with_reducible refine Keeps.rec_upd ?_ rfl rfl rfl rfl rfl)
    | (fail_if_no_progress dsimp only) | split)

theorem State.tryStart_keeps {r s : State} (h : Keeps r s) (a1 : ℕ) (a2 : SeqUnit) : Keeps r (State.tryStart s a1 a2) := by
  unfold State.tryStart
  try dsimp only
  repeat' (first
    | with_reducible assumption | (with_reducible exact Keeps.refl _) | (with_reducible apply State.startInf_keeps)
    | (with_reducible refine Keeps.of_snd (by assumption) ?_) | (with_reducible refine Keeps.of_fst (by assumption) ?_)
    | (with_reducible apply Keeps.ite) | (fail_if_no_progress dsimp only) | split)

theorem State.issueUnit_keeps {r s : State} (h : Keeps r s) (a1 : ℕ) (a2 : ℕ) (a3 : ℕ) (a4 : SeqUnit) : Keeps r (State.issueUnit s a1 a2 a3 a4) := by
  unfold State.issueUnit
  try dsimp only
  repeat' (first
    | with_reducible assumption | (with_reducible exact Keeps.refl _) | (with_reducible apply State.advance_keeps)
    | (with_reducible apply State.closeFor_keeps) | (with_reducible apply State.openFor_keeps) | (with_reducible apply State.setCoach_keeps)
    | (with_reducible apply State.setFld_keeps) | (with_reducible apply State.showSets_keeps) | (with_reducible apply State.tryStart_keeps)
    | (with_reducible apply State.wrapAdd_keeps) | (with_reducible apply Keeps.ite)
    | (fail_if_no_progress with_reducible refine Keeps.rec_upd ?_ rfl rfl rfl rfl rfl) | (fail_if_no_progress dsimp only) | split)

theorem State.issueTo_keeps {r s : State} (h : Keeps r s) (a1 : ℕ) (a2 : ℕ) (a3 : SeqUnit) : Keeps r (State.issueTo s a1 a2 a3) := by
  unfold State.issueTo
  try dsimp only
  repeat' (first
    | with_reducible assumption | (with_reducible exact Keeps.refl _) | (with_reducible apply State.issueOp_keeps)
    | (with_reducible apply State.issueUnit_keeps) | (with_reducible apply Keeps.ite) | intro _ _ _ _ | (fail_if_no_progress dsimp only) | split)

theorem execLoadw_keeps {r s : State} (h : Keeps r s) (a0 : Coach) : KeepsR r (execLoadw a0 s) := by
  unfold execLoadw
  try dsimp only
  repeat' (first
    | with_reducible assumption | (with_reducible exact Keeps.refl _) | with_reducible apply KeepsR.ok | with_reducible apply KeepsR.ite
    | (with_reducible apply State.issueTo_keeps) | (with_reducible apply Keeps.ite) | (fail_if_no_progress dsimp only) | split)

theorem State.mirrorOn_keeps {r s : State} (h : Keeps r s) (a1 : ℕ) (a2 : ℕ) (a3 : ℕ) (a4 : ℕ) (a5 : List ℕ) : Keeps r (State.mirrorOn s a1 a2 a3 a4
    a5).2 := by
  unfold State.mirrorOn
  try dsimp only
  repeat' (first
    | with_reducible assumption | (with_reducible exact Keeps.refl _) | (with_reducible apply State.linkOffer_keeps)
    | (with_reducible apply State.setFld_keeps) | (with_reducible apply Keeps.ite)
    | (fail_if_no_progress with_reducible refine Keeps.rec_upd ?_ rfl rfl rfl rfl rfl) | (fail_if_no_progress dsimp only) | split)

theorem State.appliedRecord_keeps {r s : State} (h : Keeps r s) (a1 : ℕ) (a2 : ℕ) : Keeps r (State.appliedRecord s a1 a2) := by
  unfold State.appliedRecord
  try dsimp only
  repeat' (first
    | with_reducible assumption | (with_reducible exact Keeps.refl _) | (with_reducible apply State.mirrorOn_keeps)
    | (with_reducible apply Keeps.ite) | (fail_if_no_progress with_reducible refine Keeps.rec_upd ?_ rfl rfl rfl rfl rfl)
    | (fail_if_no_progress dsimp only) | split)

theorem State.mirrorSend_keeps {r s : State} (h : Keeps r s) (a1 : ℕ) (a2 : ℕ) (a3 : ℕ) (a4 : ℕ) (a5 : List ℕ) : Keeps r (State.mirrorSend s a1 a2
    a3 a4 a5).2 := by
  unfold State.mirrorSend
  try dsimp only
  repeat' (first
    | with_reducible assumption | (with_reducible exact Keeps.refl _) | (with_reducible apply State.mirrorOn_keeps)
    | (with_reducible apply Keeps.ite) | (fail_if_no_progress dsimp only) | split)

theorem State.mirrorContext_keeps {r s : State} (h : Keeps r s) (a1 : ℕ) : Keeps r (State.mirrorContext s a1) := by
  unfold State.mirrorContext
  try dsimp only
  repeat' (first
    | with_reducible assumption | (with_reducible exact Keeps.refl _) | (with_reducible apply State.mirrorSend_keeps)
    | (with_reducible apply Keeps.ite) | (fail_if_no_progress dsimp only) | split)

theorem State.mirrorQueue_keeps {r s : State} (h : Keeps r s) (a1 : ℕ) (a2 : ℕ) (a3 : ℕ) (a4 : ℕ) (a5 : List ℕ) : Keeps r (State.mirrorQueue s a1 a2
    a3 a4 a5).2 := by
  unfold State.mirrorQueue
  try dsimp only
  repeat' (first
    | with_reducible assumption | (with_reducible exact Keeps.refl _) | (with_reducible apply State.mirrorSend_keeps)
    | (with_reducible apply State.ring_keeps) | (with_reducible apply Keeps.ite) | (fail_if_no_progress dsimp only) | split)

theorem State.streamResumeNow_keeps {r s : State} (h : Keeps r s) (a1 : ℕ) (a2 : ℕ) : Keeps r (State.streamResumeNow s a1 a2) := by
  unfold State.streamResumeNow
  try dsimp only
  repeat' (first
    | with_reducible assumption | (with_reducible exact Keeps.refl _) | (with_reducible apply State.setFld_keeps)
    | (with_reducible apply State.updStrm_keeps) | (with_reducible apply Keeps.ite)
    | (fail_if_no_progress with_reducible refine Keeps.rec_upd ?_ rfl rfl rfl rfl rfl) | (fail_if_no_progress dsimp only) | split)

theorem State.streamResume_keeps {r s : State} (h : Keeps r s) (a1 : ℕ) (a2 : ℕ) : Keeps r (State.streamResume s a1 a2) := by
  unfold State.streamResume
  try dsimp only
  repeat' (first
    | with_reducible assumption | (with_reducible exact Keeps.refl _) | (with_reducible apply State.streamResumeNow_keeps)
    | (with_reducible apply State.updStrm_keeps) | (with_reducible apply Keeps.ite)
    | (fail_if_no_progress with_reducible refine Keeps.rec_upd ?_ rfl rfl rfl rfl rfl) | (fail_if_no_progress dsimp only) | split)

theorem State.reportStream_keeps {r s : State} (h : Keeps r s) (a1 : ℕ) (a2 : ℕ) (a3 : ℕ) (a4 : ℕ) : Keeps r (State.reportStream s a1 a2 a3 a4) := by
  unfold State.reportStream
  try dsimp only
  repeat' (first
    | with_reducible assumption | (with_reducible exact Keeps.refl _) | (with_reducible apply State.report_keeps) | (with_reducible apply Keeps.ite)
    | (fail_if_no_progress with_reducible refine Keeps.rec_upd ?_ rfl rfl rfl rfl rfl) | (fail_if_no_progress dsimp only) | split)

theorem State.streamStart_keeps {r s : State} (h : Keeps r s) (a1 : ℕ) (a2 : ℕ) : Keeps r (State.streamStart s a1 a2) := by
  unfold State.streamStart
  try dsimp only
  repeat' (first
    | with_reducible assumption | (with_reducible exact Keeps.refl _) | (with_reducible apply State.reportStream_keeps)
    | (with_reducible apply State.setFlds_keeps) | (with_reducible apply State.updStrm_keeps) | (with_reducible apply Keeps.ite)
    | (fail_if_no_progress with_reducible refine Keeps.rec_upd ?_ rfl rfl rfl rfl rfl) | (fail_if_no_progress dsimp only) | split)

theorem State.strInval_keeps {r s : State} (h : Keeps r s) (a1 : ℕ) (a2 : ℕ) (a3 : ℕ) : Keeps r (State.strInval s a1 a2 a3) := by
  unfold State.strInval
  try dsimp only
  repeat' (first
    | with_reducible assumption | (with_reducible exact Keeps.refl _) | (with_reducible apply State.invalidate_keeps)
    | (with_reducible apply State.setFlag_keeps) | (with_reducible apply State.updCoach_keeps) | (with_reducible apply Keeps.ite)
    | (fail_if_no_progress with_reducible refine Keeps.rec_upd ?_ rfl rfl rfl rfl rfl) | (fail_if_no_progress dsimp only) | split)

theorem execInvalAll_keeps {r s : State} (h : Keeps r s) (a0 : Coach) : KeepsR r (execInvalAll a0 s) := by
  unfold execInvalAll
  try dsimp only
  repeat' (first
    | with_reducible assumption | (with_reducible exact Keeps.refl _) | with_reducible apply KeepsR.ok | with_reducible apply KeepsR.ite
    | (with_reducible apply State.regEvent_keeps) | (with_reducible apply State.strInval_keeps) | (with_reducible apply Keeps.ite) | intro _ _
    | (fail_if_no_progress dsimp only) | split)

theorem execInvalContext_keeps {r s : State} (h : Keeps r s) (a0 : Coach) (a1 : Ctx) : KeepsR r (execInvalContext a0 a1 s) := by
  unfold execInvalContext
  try dsimp only
  repeat' (first
    | with_reducible assumption | (with_reducible exact Keeps.refl _) | with_reducible apply KeepsR.ok | with_reducible apply KeepsR.ite
    | (with_reducible apply State.regEvent_keeps) | (with_reducible apply State.strInval_keeps) | (with_reducible apply Keeps.ite) | intro _ _
    | (fail_if_no_progress dsimp only) | split)

theorem execInvalPage_keeps {r s : State} (h : Keeps r s) (a0 : Coach) (a1 : Ctx) : KeepsR r (execInvalPage a0 a1 s) := by
  unfold execInvalPage
  try dsimp only
  repeat' (first
    | with_reducible assumption | (with_reducible exact Keeps.refl _) | with_reducible apply KeepsR.ok | with_reducible apply KeepsR.ite
    | (with_reducible apply State.regEvent_keeps) | (with_reducible apply State.strInval_keeps) | (with_reducible apply Keeps.ite) | intro _ _
    | (fail_if_no_progress dsimp only) | split)

theorem execStreamResume_keeps {r s : State} (h : Keeps r s) (a0 : Coach) (a1 : Fin 8) : KeepsR r (execStreamResume a0 a1 s) := by
  unfold execStreamResume
  try dsimp only
  repeat' (first
    | with_reducible assumption | (with_reducible exact Keeps.refl _) | with_reducible apply KeepsR.ok | with_reducible apply KeepsR.ite
    | (with_reducible apply State.regEvent_keeps) | (with_reducible apply State.streamResume_keeps) | (with_reducible apply Keeps.ite) | intro _ _
    | (fail_if_no_progress dsimp only) | split)

theorem execStreamStart_keeps {r s : State} (h : Keeps r s) (a0 : Coach) (a1 : Fin 8) : KeepsR r (execStreamStart a0 a1 s) := by
  unfold execStreamStart
  try dsimp only
  repeat' (first
    | with_reducible assumption | (with_reducible exact Keeps.refl _) | with_reducible apply KeepsR.ok | with_reducible apply KeepsR.ite
    | (with_reducible apply State.regEvent_keeps) | (with_reducible apply State.streamStart_keeps) | (with_reducible apply Keeps.ite) | intro _ _
    | (fail_if_no_progress dsimp only) | split)

theorem State.settleStream_keeps {r s : State} (h : Keeps r s) (a1 : ℕ) (a2 : ℕ) : Keeps r (State.settleStream s a1 a2) := by
  unfold State.settleStream
  try dsimp only
  repeat' (first
    | with_reducible assumption | (with_reducible exact Keeps.refl _) | (with_reducible apply State.reportStream_keeps)
    | (with_reducible apply State.setFld_keeps) | (with_reducible apply State.streamResumeNow_keeps) | (with_reducible apply State.updStrm_keeps)
    | (with_reducible apply Keeps.ite) | (fail_if_no_progress with_reducible refine Keeps.rec_upd ?_ rfl rfl rfl rfl rfl)
    | (fail_if_no_progress dsimp only) | split)

theorem execStreamStop_keeps {r s : State} (h : Keeps r s) (a0 : Coach) (a1 : Fin 8) : KeepsR r (execStreamStop a0 a1 s) := by
  unfold execStreamStop
  try dsimp only
  repeat' (first
    | with_reducible assumption | (with_reducible exact Keeps.refl _) | with_reducible apply KeepsR.ok | with_reducible apply KeepsR.ite
    | (with_reducible apply State.regEvent_keeps) | (with_reducible apply State.settleStream_keeps) | (with_reducible apply State.updStrm_keeps)
    | (with_reducible apply Keeps.ite) | intro _ _ | (fail_if_no_progress with_reducible refine Keeps.rec_upd ?_ rfl rfl rfl rfl rfl)
    | (fail_if_no_progress dsimp only) | split)

theorem State.markFail_keeps {r s : State} (h : Keeps r s) (a1 : ℕ) (a2 : ℕ) (a3 : ℕ) : Keeps r (State.markFail s a1 a2 a3) := by
  unfold State.markFail
  try dsimp only
  repeat' (first
    | with_reducible assumption | (with_reducible exact Keeps.refl _) | (with_reducible apply State.updCoach_keeps)
    | (with_reducible apply Keeps.ite) | (fail_if_no_progress with_reducible refine Keeps.rec_upd ?_ rfl rfl rfl rfl rfl)
    | (fail_if_no_progress dsimp only) | split)

theorem State.sendReq_keeps {r s : State} (h : Keeps r s) (a1 : ℕ) (a2 : SReq) (a3 : Loc) : Keeps r (State.sendReq s a1 a2 a3) := by
  unfold State.sendReq
  try dsimp only
  repeat' (first
    | with_reducible assumption | (with_reducible exact Keeps.refl _) | (with_reducible apply State.lockAbort_keeps)
    | (with_reducible apply State.niSend_keeps) | (with_reducible apply State.updCoach_keeps) | (with_reducible apply Keeps.ite)
    | (with_reducible apply Keeps.foldl) | intro _ _ _ | (fail_if_no_progress with_reducible refine Keeps.rec_upd ?_ rfl rfl rfl rfl rfl)
    | (fail_if_no_progress dsimp only) | split)

theorem State.dispatchReq_keeps {r s : State} (h : Keeps r s) (a1 : ℕ) (a2 : SReq) : Keeps r (State.dispatchReq s a1 a2) := by
  unfold State.dispatchReq
  try dsimp only
  repeat' (first
    | with_reducible assumption | (with_reducible exact Keeps.refl _) | (with_reducible apply State.ask_keeps)
    | (with_reducible apply State.markFail_keeps) | (with_reducible apply State.sendReq_keeps) | (with_reducible apply State.updCoach_keeps)
    | (with_reducible refine Keeps.of_snd (by assumption) ?_) | (with_reducible refine Keeps.of_fst (by assumption) ?_)
    | (with_reducible apply Keeps.ite) | (fail_if_no_progress with_reducible refine Keeps.rec_upd ?_ rfl rfl rfl rfl rfl)
    | (fail_if_no_progress dsimp only) | split)

theorem State.syncTry_keeps {r s : State} (h : Keeps r s) (a1 : ℕ) (a2 : ℕ) (a3 : ℕ) {t : State} (hq : State.syncTry s a1 a2 a3 = some t) : Keeps r
    t := by
  simp only [State.syncTry] at hq
  repeat' (first
    | contradiction | (obtain rfl := Option.some.inj hq) | (split at hq) | with_reducible assumption | (with_reducible exact Keeps.refl _)
    | (with_reducible apply State.controlDone_keeps) | (with_reducible apply State.setFld_keeps) | (with_reducible apply Keeps.ite)
    | (fail_if_no_progress dsimp only) | split)

theorem State.holdControl_keeps {r s : State} (h : Keeps r s) (a1 : ℕ) (a2 : ℕ) (a3 : ℕ) : Keeps r (State.holdControl s a1 a2 a3) := by
  unfold State.holdControl
  try dsimp only
  repeat' (first
    | with_reducible assumption | (with_reducible exact Keeps.refl _) | (with_reducible apply State.updCoach_keeps)
    | (with_reducible apply Keeps.ite) | (fail_if_no_progress with_reducible refine Keeps.rec_upd ?_ rfl rfl rfl rfl rfl)
    | (fail_if_no_progress dsimp only) | split)

theorem State.swapHalves_keeps {r s : State} (h : Keeps r s) (a1 : ℕ) (a2 : ℕ) : Keeps r (State.swapHalves s a1 a2) := by
  unfold State.swapHalves
  try dsimp only
  repeat' (first
    | with_reducible assumption | (with_reducible exact Keeps.refl _) | (with_reducible apply State.setFld_keeps)
    | (with_reducible apply State.updStrm_keeps) | (with_reducible apply Keeps.ite)
    | (fail_if_no_progress with_reducible refine Keeps.rec_upd ?_ rfl rfl rfl rfl rfl) | (fail_if_no_progress dsimp only) | split)

theorem execSwapb_keeps {r s : State} (h : Keeps r s) (a0 : Coach) : KeepsR r (execSwapb a0 s) := by
  unfold execSwapb
  try dsimp only
  repeat' (first
    | with_reducible assumption | (with_reducible exact Keeps.refl _) | with_reducible apply KeepsR.ok | with_reducible apply KeepsR.ite
    | (with_reducible apply State.controlDone_keeps) | (with_reducible apply State.holdControl_keeps) | (with_reducible apply State.issueOp_keeps)
    | (with_reducible apply State.swapHalves_keeps) | (with_reducible apply State.wrapAdd_keeps) | (with_reducible apply Keeps.ite) | intro _ _ _ _
    | (fail_if_no_progress dsimp only) | split)

theorem State.putEntry_keeps {r s : State} (h : Keeps r s) (a1 : ℕ) (a2 : ℕ) (a3 : Acc) {t : State} (hq : State.putEntry s a1 a2 a3 = some t) :
    Keeps r t := by
  simp only [State.putEntry] at hq
  repeat' (first
    | contradiction | (obtain rfl := Option.some.inj hq) | (split at hq) | with_reducible assumption | (with_reducible exact Keeps.refl _)
    | (with_reducible apply State.bump_keeps) | (with_reducible apply State.setBankWord_keeps) | (with_reducible apply State.setSpill_keeps)
    | (with_reducible apply State.storeWrite_keeps) | (with_reducible refine Keeps.of_snd (by assumption) ?_)
    | (with_reducible refine Keeps.of_fst (by assumption) ?_) | (with_reducible apply Keeps.ite) | (fail_if_no_progress dsimp only) | split)

theorem State.contribute_keeps {r s : State} (h : Keeps r s) (a1 : ℕ) (a2 : ℕ) (a3 : Bool) (a4 : Acc) {t : State} (hq : State.contribute s a1 a2 a3
    a4 = some t) : Keeps r t := by
  simp only [State.contribute] at hq
  repeat' (first
    | contradiction | (obtain rfl := Option.some.inj hq) | (split at hq) | with_reducible assumption | (with_reducible exact Keeps.refl _)
    | (with_reducible apply State.clearEntry_keeps) | (with_reducible refine State.putEntry_keeps ?_ _ _ _ (by assumption))
    | (with_reducible apply Keeps.ite) | (fail_if_no_progress dsimp only) | split)

theorem State.failOp_keeps {r s : State} (h : Keeps r s) (a1 : ℕ) (a2 : Option ℕ) : Keeps r (State.failOp s a1 a2) := by
  unfold State.failOp
  try dsimp only
  repeat' (first
    | with_reducible assumption | (with_reducible exact Keeps.refl _) | (with_reducible apply State.updOp_keeps) | (with_reducible apply Keeps.ite)
    | (fail_if_no_progress with_reducible refine Keeps.rec_upd ?_ rfl rfl rfl rfl rfl) | (fail_if_no_progress dsimp only) | split)

theorem State.addGroup_keeps {r s : State} (h : Keeps r s) (a1 : ℕ) (a2 : Inf) (a3 : ℕ) (a4 : ℕ) (a5 : ℕ) (a6 : ℕ) : Keeps r (State.addGroup s a1 a2
    a3 a4 a5 a6) := by
  unfold State.addGroup
  try dsimp only
  repeat' (first
    | with_reducible assumption | (with_reducible exact Keeps.refl _) | (with_reducible apply State.drawAcc_keeps)
    | (with_reducible apply State.failOp_keeps) | (with_reducible apply State.seqFault_keeps) | (with_reducible apply State.updCoach_keeps)
    | (with_reducible refine State.contribute_keeps ?_ _ _ _ _ (by assumption)) | (with_reducible refine Keeps.of_snd (by assumption) ?_)
    | (with_reducible refine Keeps.of_fst (by assumption) ?_) | (with_reducible apply Keeps.ite)
    | (fail_if_no_progress with_reducible refine Keeps.rec_upd ?_ rfl rfl rfl rfl rfl) | (fail_if_no_progress dsimp only) | split)

theorem State.spoilEntry_keeps {r s : State} (h : Keeps r s) (a1 : ℕ) (a2 : ℕ) : Keeps r (State.spoilEntry s a1 a2) := by
  unfold State.spoilEntry
  try dsimp only
  repeat' (first
    | with_reducible assumption | (with_reducible exact Keeps.refl _) | (with_reducible apply State.updCoach_keeps)
    | (with_reducible apply Keeps.ite) | (fail_if_no_progress with_reducible refine Keeps.rec_upd ?_ rfl rfl rfl rfl rfl)
    | (fail_if_no_progress dsimp only) | split)

theorem State.tallyLost_keeps {r s : State} (h : Keeps r s) (a1 : ℕ) (a2 : TallyIn) : Keeps r (State.tallyLost s a1 a2) := by
  unfold State.tallyLost
  try dsimp only
  repeat' (first
    | with_reducible assumption | (with_reducible exact Keeps.refl _) | (with_reducible apply State.failOp_keeps)
    | (with_reducible apply State.seqFault_keeps) | (with_reducible apply State.updCoach_keeps) | (with_reducible apply Keeps.ite)
    | (fail_if_no_progress with_reducible refine Keeps.rec_upd ?_ rfl rfl rfl rfl rfl) | (fail_if_no_progress dsimp only) | split)

theorem State.addTally_keeps {r s : State} (h : Keeps r s) (k n : Nat) : Keeps r (s.addTally k n) := by
  unfold State.addTally
  split
  · exact h
  · extract_lets s1 held s2 a
    have h1 : Keeps r s1 := State.updCoach_keeps h _ _
    have h2 : Keeps r s2 := Keeps.ite (State.spoilEntry_keeps h1 _ _) h1
    have h3 : Keeps r a.2 := Keeps.ite_snd (State.drawAcc_keeps h2) h2
    clear_value s2 a
    split
    · rename_i hs
      apply State.syncSettle_keeps
      split at hs
      · exact State.putEntry_keeps h3 _ _ _ hs
      · exact State.contribute_keeps h3 _ _ _ _ hs
    · exact State.tallyLost_keeps h3 _ _

theorem execBankContribution_keeps {r s : State} (h : Keeps r s) (a0 : Coach) (a1 : ContribSrc) : KeepsR r (execBankContribution a0 a1 s) := by
  unfold execBankContribution
  try dsimp only
  repeat' (first
    | with_reducible assumption | (with_reducible exact Keeps.refl _) | with_reducible apply KeepsR.ok | with_reducible apply KeepsR.ite
    | (with_reducible apply State.addGroup_keeps) | (with_reducible apply State.addTally_keeps)
    | (with_reducible refine Keeps.of_snd (by assumption) ?_) | (with_reducible refine Keeps.of_fst (by assumption) ?_)
    | (with_reducible apply Keeps.ite) | (fail_if_no_progress dsimp only) | split)

theorem State.requestFails_keeps {r s : State} (h : Keeps r s) (a1 : ℕ) (a2 : SReq) (a3 : ℕ) : Keeps r (State.requestFails s a1 a2 a3) := by
  unfold State.requestFails
  try dsimp only
  repeat' (first
    | with_reducible assumption | (with_reducible exact Keeps.refl _) | (with_reducible apply State.setFld_keeps)
    | (with_reducible apply State.setFlds_keeps) | (with_reducible apply State.settleStream_keeps) | (with_reducible apply State.updCoach_keeps)
    | (with_reducible apply State.updStrm_keeps) | (with_reducible refine Keeps.of_snd (by assumption) ?_)
    | (with_reducible refine Keeps.of_fst (by assumption) ?_) | (with_reducible apply Keeps.ite)
    | (fail_if_no_progress with_reducible refine Keeps.rec_upd ?_ rfl rfl rfl rfl rfl) | (fail_if_no_progress dsimp only) | split)

theorem State.takeTrap_keeps {r s : State} (h : Keeps r s) (a1 : ℕ) (a2 : ℕ) : Keeps r (State.takeTrap s a1 a2) := by
  unfold State.takeTrap
  try dsimp only
  repeat' (first
    | with_reducible assumption | (with_reducible exact Keeps.refl _) | (with_reducible apply State.report_keeps)
    | (with_reducible apply State.setFlag_keeps) | (with_reducible apply State.setFld_keeps) | (with_reducible apply State.setFlds_keeps)
    | (with_reducible apply State.updCoach_keeps) | (with_reducible apply Keeps.ite)
    | (fail_if_no_progress with_reducible refine Keeps.rec_upd ?_ rfl rfl rfl rfl rfl) | (fail_if_no_progress dsimp only) | split)

theorem State.writeRecord_keeps {r s : State} (h : Keeps r s) (a1 : ℕ) (a2 : Opn) (a3 : Bool) : Keeps r (State.writeRecord s a1 a2 a3) := by
  unfold State.writeRecord
  try dsimp only
  repeat' (first
    | with_reducible assumption | (with_reducible exact Keeps.refl _) | (with_reducible apply State.seqFault_keeps)
    | (with_reducible apply State.setFld_keeps) | (with_reducible apply State.storeWrite_keeps) | (with_reducible apply Keeps.ite)
    | (fail_if_no_progress dsimp only) | split)

theorem State.endOperation_keeps {r s : State} (h : Keeps r s) (a1 : ℕ) : Keeps r (State.endOperation s a1) := by
  unfold State.endOperation
  try dsimp only
  repeat' (first
    | with_reducible assumption | (with_reducible exact Keeps.refl _) | (with_reducible apply State.settleEnd_keeps)
    | (with_reducible apply State.takeTrap_keeps) | (with_reducible apply State.updCoach_keeps) | (with_reducible apply State.writeRecord_keeps)
    | (with_reducible refine Keeps.of_snd (by assumption) ?_) | (with_reducible refine Keeps.of_fst (by assumption) ?_)
    | (with_reducible apply Keeps.ite) | (fail_if_no_progress with_reducible refine Keeps.rec_upd ?_ rfl rfl rfl rfl rfl)
    | (fail_if_no_progress dsimp only) | split)

theorem execOperationEnd_keeps {r s : State} (h : Keeps r s) (a0 : Coach) : KeepsR r (execOperationEnd a0 s) := by
  unfold execOperationEnd
  try dsimp only
  repeat' (first
    | with_reducible assumption | (with_reducible exact Keeps.refl _) | with_reducible apply KeepsR.ok | with_reducible apply KeepsR.ite
    | (with_reducible apply State.endOperation_keeps) | (with_reducible apply Keeps.ite) | (fail_if_no_progress dsimp only) | split)

theorem State.landBytes_keeps {r s : State} (h : Keeps r s) (a1 : ℕ) (a2 : ℕ) (a3 : ℕ) (a4 : List ℕ) : Keeps r (State.landBytes s a1 a2 a3 a4) := by
  unfold State.landBytes
  try dsimp only
  repeat' (first
    | with_reducible assumption | (with_reducible exact Keeps.refl _) | (with_reducible apply State.storeWrite_keeps)
    | (with_reducible apply Keeps.ite) | (with_reducible apply Keeps.foldl) | intro _ _ _ | (fail_if_no_progress dsimp only) | split)

theorem State.passRowBytes_keeps {r s : State} (h : Keeps r s) (a1 : ℕ) (a2 : Inf) (a3 : ℕ) : Keeps r (State.passRowBytes s a1 a2 a3).2.2 := by
  unfold State.passRowBytes
  try dsimp only
  repeat' (first
    | with_reducible assumption | (with_reducible exact Keeps.refl _) | (with_reducible apply State.consume_keeps)
    | (with_reducible apply State.halfRead_keeps) | (with_reducible refine Keeps.of_snd (by assumption) ?_)
    | (with_reducible refine Keeps.of_fst (by assumption) ?_) | (with_reducible apply Keeps.ite) | (fail_if_no_progress dsimp only) | split)

theorem execVectorComplete_keeps {r s : State} (h : Keeps r s) (a0 : Coach) (a1 : ℕ) : KeepsR r (execVectorComplete a0 a1 s) := by
  unfold execVectorComplete
  try dsimp only
  repeat' (first
    | with_reducible assumption | (with_reducible exact Keeps.refl _) | with_reducible apply KeepsR.ok | with_reducible apply KeepsR.ite
    | (with_reducible apply State.finishInf_keeps) | (with_reducible apply State.settleEnd_keeps)
    | (with_reducible refine Keeps.of_snd (by assumption) ?_) | (with_reducible refine Keeps.of_fst (by assumption) ?_)
    | (with_reducible apply Keeps.ite) | (fail_if_no_progress dsimp only) | split)

theorem State.countResponse_keeps {r s : State} (h : Keeps r s) (a1 : ℕ) (a2 : SReq) (a3 : Packet) : Keeps r (State.countResponse s a1 a2 a3) := by
  unfold State.countResponse
  try dsimp only
  repeat' (first
    | with_reducible assumption | (with_reducible exact Keeps.refl _) | (with_reducible apply State.updCoach_keeps)
    | (with_reducible apply Keeps.ite) | (fail_if_no_progress with_reducible refine Keeps.rec_upd ?_ rfl rfl rfl rfl rfl)
    | (fail_if_no_progress dsimp only) | split)

theorem execLoadwComplete_keeps {r s : State} (h : Keeps r s) (a0 : Coach) : KeepsR r (execLoadwComplete a0 s) := by
  unfold execLoadwComplete
  try dsimp only
  repeat' (first
    | with_reducible assumption | (with_reducible exact Keeps.refl _) | with_reducible apply KeepsR.ok | with_reducible apply KeepsR.ite
    | (with_reducible apply State.finishInf_keeps) | (with_reducible apply State.settleEnd_keeps) | (with_reducible apply State.showSets_keeps)
    | (with_reducible apply State.updCoach_keeps) | (with_reducible refine Keeps.of_snd (by assumption) ?_)
    | (with_reducible refine Keeps.of_fst (by assumption) ?_) | (with_reducible apply Keeps.ite) | (fail_if_no_progress dsimp only) | split)

theorem execReduce_keeps {r s : State} (h : Keeps r s) (a0 : Coach) : KeepsR r (execReduce a0 s) := by
  unfold execReduce
  try dsimp only
  repeat' (first
    | with_reducible assumption | (with_reducible exact Keeps.refl _) | with_reducible apply KeepsR.ok | with_reducible apply KeepsR.ite
    | (with_reducible apply State.issueTo_keeps) | (with_reducible apply Keeps.ite) | (fail_if_no_progress dsimp only) | split)

theorem execBankInstrComplete_keeps {r s : State} (h : Keeps r s) (a0 : Coach) : KeepsR r (execBankInstrComplete a0 s) := by
  unfold execBankInstrComplete
  try dsimp only
  repeat' (first
    | with_reducible assumption | (with_reducible exact Keeps.refl _) | with_reducible apply KeepsR.ok | with_reducible apply KeepsR.ite
    | (with_reducible apply State.finishInf_keeps) | (with_reducible apply State.settleEnd_keeps)
    | (with_reducible refine Keeps.of_snd (by assumption) ?_) | (with_reducible refine Keeps.of_fst (by assumption) ?_)
    | (with_reducible apply Keeps.ite) | (fail_if_no_progress dsimp only) | split)

theorem execStreamGrant_keeps {r s : State} (h : Keeps r s) (a0 : Coach) : KeepsR r (execStreamGrant a0 s) := by
  unfold execStreamGrant
  try dsimp only
  repeat' (first
    | with_reducible assumption | (with_reducible exact Keeps.refl _) | with_reducible apply KeepsR.ok | with_reducible apply KeepsR.ite
    | (with_reducible apply State.bump_keeps) | (with_reducible apply State.dispatchReq_keeps) | (with_reducible apply State.setFld_keeps)
    | (with_reducible apply State.updCoach_keeps) | (with_reducible apply State.updStrm_keeps)
    | (with_reducible refine Keeps.of_snd (by assumption) ?_) | (with_reducible refine Keeps.of_fst (by assumption) ?_)
    | (with_reducible apply Keeps.ite) | (fail_if_no_progress with_reducible refine Keeps.rec_upd ?_ rfl rfl rfl rfl rfl)
    | (fail_if_no_progress dsimp only) | split)

theorem execDrain_keeps {r s : State} (h : Keeps r s) (a0 : Coach) : KeepsR r (execDrain a0 s) := by
  unfold execDrain
  try dsimp only
  repeat' (first
    | with_reducible assumption | (with_reducible exact Keeps.refl _) | with_reducible apply KeepsR.ok | with_reducible apply KeepsR.ite
    | (with_reducible apply State.issueTo_keeps) | (with_reducible apply Keeps.ite) | (fail_if_no_progress dsimp only) | split)

theorem State.rowEnter_keeps {r s : State} (h : Keeps r s) (a1 : ℕ) (a2 : Inf) : Keeps r (State.rowEnter s a1 a2) := by
  unfold State.rowEnter
  try dsimp only
  repeat' (first
    | with_reducible assumption | (with_reducible exact Keeps.refl _) | (with_reducible apply State.count_keeps)
    | (with_reducible apply State.passRowBytes_keeps) | (with_reducible apply State.updCoach_keeps) | (with_reducible apply State.wrapAdd_keeps)
    | (with_reducible refine Keeps.of_snd (by assumption) ?_) | (with_reducible refine Keeps.of_fst (by assumption) ?_)
    | (with_reducible apply Keeps.ite) | (with_reducible apply Keeps.foldl) | (with_reducible apply Keeps.foldl_fst)
    | (with_reducible apply Keeps.foldl_snd) | intro _ _ _ | (fail_if_no_progress with_reducible refine Keeps.rec_upd ?_ rfl rfl rfl rfl rfl)
    | (fail_if_no_progress with_reducible refine Keeps.rec_wf ?_ rfl rfl (by first | exact id | exact memWf_memWrite _ _ | exact mwf_mblock _ _ | exact mwf_mdrop _ | exact fun _ => rfl) (by first | exact id | exact memWf_memWrite _ _ | exact mwf_mblock _ _ | exact mwf_mdrop _ | exact fun _ => rfl) (by first | exact id | exact memWf_memWrite _ _ | exact mwf_mblock _ _ | exact mwf_mdrop _ | exact fun _ => rfl))
    | (fail_if_no_progress dsimp only) | split)

theorem execNop_keeps {r s : State} (h : Keeps r s) (a0 : Coach) : KeepsR r (execNop a0 s) := by
  unfold execNop
  try dsimp only
  repeat' (first
    | with_reducible assumption | (with_reducible exact Keeps.refl _) | with_reducible apply KeepsR.ok | with_reducible apply KeepsR.ite
    | (with_reducible apply State.issueControl_keeps) | (with_reducible apply Keeps.ite) | intro _ _ _ | (fail_if_no_progress dsimp only) | split)

theorem execSwapw_keeps {r s : State} (h : Keeps r s) (a0 : Coach) : KeepsR r (execSwapw a0 s) := by
  unfold execSwapw
  try dsimp only
  repeat' (first
    | with_reducible assumption | (with_reducible exact Keeps.refl _) | with_reducible apply KeepsR.ok | with_reducible apply KeepsR.ite
    | (with_reducible apply State.issueTo_keeps) | (with_reducible apply Keeps.ite) | (fail_if_no_progress dsimp only) | split)

theorem execSyncComplete_keeps {r s : State} (h : Keeps r s) (a0 : Coach) : KeepsR r (execSyncComplete a0 s) := by
  unfold execSyncComplete
  try dsimp only
  repeat' (first
    | with_reducible assumption | (with_reducible exact Keeps.refl _) | with_reducible apply KeepsR.ok | with_reducible apply KeepsR.ite
    | (with_reducible apply State.setFld_keeps) | (with_reducible apply State.updCoach_keeps)
    | (with_reducible refine State.syncTry_keeps ?_ _ _ _ (by assumption)) | (with_reducible refine Keeps.of_snd (by assumption) ?_)
    | (with_reducible refine Keeps.of_fst (by assumption) ?_) | (with_reducible apply Keeps.ite)
    | (fail_if_no_progress with_reducible refine Keeps.rec_upd ?_ rfl rfl rfl rfl rfl) | (fail_if_no_progress dsimp only) | split)

theorem execPassRowEnter_keeps {r s : State} (h : Keeps r s) (a0 : Coach) : KeepsR r (execPassRowEnter a0 s) := by
  unfold execPassRowEnter
  try dsimp only
  repeat' (first
    | with_reducible assumption | (with_reducible exact Keeps.refl _) | with_reducible apply KeepsR.ok | with_reducible apply KeepsR.ite
    | (with_reducible apply State.rowEnter_keeps) | (with_reducible refine Keeps.of_snd (by assumption) ?_)
    | (with_reducible refine Keeps.of_fst (by assumption) ?_) | (with_reducible apply Keeps.ite) | (fail_if_no_progress dsimp only) | split)

theorem execEndWorkOrder_keeps {r s : State} (h : Keeps r s) (a0 : Coach) : KeepsR r (execEndWorkOrder a0 s) := by
  unfold execEndWorkOrder
  try dsimp only
  repeat' (first
    | with_reducible assumption | (with_reducible exact Keeps.refl _) | with_reducible apply KeepsR.ok | with_reducible apply KeepsR.ite
    | (with_reducible apply State.closeFor_keeps) | (with_reducible apply State.issueOp_keeps) | (with_reducible apply State.settleEnd_keeps)
    | (with_reducible apply State.updCoach_keeps) | (with_reducible apply State.wrapAdd_keeps) | (with_reducible apply Keeps.ite) | intro _ _ _ _
    | (fail_if_no_progress with_reducible refine Keeps.rec_upd ?_ rfl rfl rfl rfl rfl) | (fail_if_no_progress dsimp only) | split)

theorem execInstrStart_keeps {r s : State} (h : Keeps r s) (a0 : Coach) (a1 : SeqUnit) : KeepsR r (execInstrStart a0 a1 s) := by
  unfold execInstrStart
  try dsimp only
  repeat' (first
    | with_reducible assumption | (with_reducible exact Keeps.refl _) | with_reducible apply KeepsR.ok | with_reducible apply KeepsR.ite
    | (with_reducible apply State.settleEnd_keeps) | (with_reducible apply State.tryStart_keeps) | (with_reducible apply Keeps.ite)
    | (fail_if_no_progress dsimp only) | split)

theorem execQuant_keeps {r s : State} (h : Keeps r s) (a0 : Coach) : KeepsR r (execQuant a0 s) := by
  unfold execQuant
  try dsimp only
  repeat' (first
    | with_reducible assumption | (with_reducible exact Keeps.refl _) | with_reducible apply KeepsR.ok | with_reducible apply KeepsR.ite
    | (with_reducible apply State.issueTo_keeps) | (with_reducible apply Keeps.ite) | (fail_if_no_progress dsimp only) | split)

theorem State.finishReq_keeps {r s : State} (h : Keeps r s) (a1 : ℕ) (a2 : ℕ) : Keeps r (State.finishReq s a1 a2) := by
  unfold State.finishReq
  try dsimp only
  repeat' (first
    | with_reducible assumption | (with_reducible exact Keeps.refl _) | (with_reducible apply State.landBytes_keeps)
    | (with_reducible apply State.settleStream_keeps) | (with_reducible apply State.updCoach_keeps) | (with_reducible apply State.updStrm_keeps)
    | (with_reducible refine Keeps.of_snd (by assumption) ?_) | (with_reducible refine Keeps.of_fst (by assumption) ?_)
    | (with_reducible apply Keeps.ite) | (fail_if_no_progress with_reducible refine Keeps.rec_upd ?_ rfl rfl rfl rfl rfl)
    | (fail_if_no_progress dsimp only) | split)

theorem State.streamResponse_keeps {r s : State} (h : Keeps r s) (a1 : ℕ) (a2 : Bool) : Keeps r (State.streamResponse s a1 a2) := by
  unfold State.streamResponse
  try dsimp only
  repeat' (first
    | with_reducible assumption | (with_reducible exact Keeps.refl _) | (with_reducible apply State.countResponse_keeps)
    | (with_reducible apply State.finishReq_keeps) | (with_reducible refine State.takeInbox_keeps ?_ _ _ (by assumption))
    | (with_reducible refine Keeps.of_snd (by assumption) ?_) | (with_reducible refine Keeps.of_fst (by assumption) ?_)
    | (with_reducible apply Keeps.ite) | (fail_if_no_progress with_reducible refine Keeps.rec_upd ?_ rfl rfl rfl rfl rfl)
    | (fail_if_no_progress dsimp only) | split)

theorem execStreamWriteAck_keeps {r s : State} (h : Keeps r s) (a0 : Coach) : KeepsR r (execStreamWriteAck a0 s) := by
  unfold execStreamWriteAck
  try dsimp only
  repeat' (first
    | with_reducible assumption | (with_reducible exact Keeps.refl _) | with_reducible apply KeepsR.ok | with_reducible apply KeepsR.ite
    | (with_reducible apply State.streamResponse_keeps) | (with_reducible apply Keeps.ite) | (fail_if_no_progress dsimp only) | split)

theorem execSync_keeps {r s : State} (h : Keeps r s) (a0 : Coach) : KeepsR r (execSync a0 s) := by
  unfold execSync
  try dsimp only
  repeat' (first
    | with_reducible assumption | (with_reducible exact Keeps.refl _) | with_reducible apply KeepsR.ok | with_reducible apply KeepsR.ite
    | (with_reducible apply State.holdControl_keeps) | (with_reducible apply State.issueOp_keeps) | (with_reducible apply State.setFld_keeps)
    | (with_reducible apply State.wrapAdd_keeps) | (with_reducible refine State.syncTry_keeps ?_ _ _ _ (by assumption))
    | (with_reducible refine Keeps.of_snd (by assumption) ?_) | (with_reducible refine Keeps.of_fst (by assumption) ?_)
    | (with_reducible apply Keeps.ite) | intro _ _ _ _ | (fail_if_no_progress dsimp only) | split)

theorem execLoop_keeps {r s : State} (h : Keeps r s) (a0 : Coach) : KeepsR r (execLoop a0 s) := by
  unfold execLoop
  try dsimp only
  repeat' (first
    | with_reducible assumption | (with_reducible exact Keeps.refl _) | with_reducible apply KeepsR.ok | with_reducible apply KeepsR.ite
    | (with_reducible apply State.issueControl_keeps) | (with_reducible apply State.setFld_keeps) | (with_reducible apply Keeps.ite) | intro _ _ _
    | (fail_if_no_progress dsimp only) | split)

theorem execPass_keeps {r s : State} (h : Keeps r s) (a0 : Coach) : KeepsR r (execPass a0 s) := by
  unfold execPass
  try dsimp only
  repeat' (first
    | with_reducible assumption | (with_reducible exact Keeps.refl _) | with_reducible apply KeepsR.ok | with_reducible apply KeepsR.ite
    | (with_reducible apply State.issueTo_keeps) | (with_reducible apply Keeps.ite) | (fail_if_no_progress dsimp only) | split)

theorem execStreamDataReturn_keeps {r s : State} (h : Keeps r s) (a0 : Coach) : KeepsR r (execStreamDataReturn a0 s) := by
  unfold execStreamDataReturn
  try dsimp only
  repeat' (first
    | with_reducible assumption | (with_reducible exact Keeps.refl _) | with_reducible apply KeepsR.ok | with_reducible apply KeepsR.ite
    | (with_reducible apply State.streamResponse_keeps) | (with_reducible apply Keeps.ite) | (fail_if_no_progress dsimp only) | split)

theorem execInvalDone_keeps {r s : State} (h : Keeps r s) (a0 : Coach) : KeepsR r (execInvalDone a0 s) := by
  unfold execInvalDone
  try dsimp only
  repeat' (first
    | with_reducible assumption | (with_reducible exact Keeps.refl _) | with_reducible apply KeepsR.ok | with_reducible apply KeepsR.ite
    | (with_reducible apply State.setFlag_keeps) | (with_reducible apply State.updTc_keeps) | (with_reducible apply Keeps.ite)
    | (fail_if_no_progress with_reducible refine Keeps.rec_upd ?_ rfl rfl rfl rfl rfl) | (fail_if_no_progress dsimp only) | split)

theorem execSwapbComplete_keeps {r s : State} (h : Keeps r s) (a0 : Coach) : KeepsR r (execSwapbComplete a0 s) := by
  unfold execSwapbComplete
  try dsimp only
  repeat' (first
    | with_reducible assumption | (with_reducible exact Keeps.refl _) | with_reducible apply KeepsR.ok | with_reducible apply KeepsR.ite
    | (with_reducible apply State.controlDone_keeps) | (with_reducible apply State.swapHalves_keeps) | (with_reducible apply State.updCoach_keeps)
    | (with_reducible refine Keeps.of_snd (by assumption) ?_) | (with_reducible refine Keeps.of_fst (by assumption) ?_)
    | (with_reducible apply Keeps.ite) | (fail_if_no_progress with_reducible refine Keeps.rec_upd ?_ rfl rfl rfl rfl rfl)
    | (fail_if_no_progress dsimp only) | split)

theorem execBadop_keeps {r s : State} (h : Keeps r s) (a0 : Coach) : KeepsR r (execBadop a0 s) := by
  unfold execBadop
  try dsimp only
  repeat' (first
    | with_reducible assumption | (with_reducible exact Keeps.refl _) | with_reducible apply KeepsR.ok | with_reducible apply KeepsR.ite
    | (with_reducible apply State.seqFault_keeps) | (with_reducible apply Keeps.ite) | (fail_if_no_progress dsimp only) | split)

theorem execStreamRequestFault_keeps {r s : State} (h : Keeps r s) (a0 : Coach) : KeepsR r (execStreamRequestFault a0 s) := by
  unfold execStreamRequestFault
  try dsimp only
  repeat' (first
    | with_reducible assumption | (with_reducible exact Keeps.refl _) | with_reducible apply KeepsR.ok | with_reducible apply KeepsR.ite
    | (with_reducible apply State.requestFails_keeps) | (with_reducible refine Keeps.of_snd (by assumption) ?_)
    | (with_reducible refine Keeps.of_fst (by assumption) ?_) | (with_reducible apply Keeps.ite) | (fail_if_no_progress dsimp only) | split)

theorem execSetc_keeps {r s : State} (h : Keeps r s) (a0 : Coach) : KeepsR r (execSetc a0 s) := by
  unfold execSetc
  try dsimp only
  repeat' (first
    | with_reducible assumption | (with_reducible exact Keeps.refl _) | with_reducible apply KeepsR.ok | with_reducible apply KeepsR.ite
    | (with_reducible apply State.issueControl_keeps) | (with_reducible apply State.setFld_keeps) | (with_reducible apply Keeps.ite) | intro _ _ _
    | (fail_if_no_progress dsimp only) | split)

theorem execSetnum_keeps {r s : State} (h : Keeps r s) (a0 : Coach) : KeepsR r (execSetnum a0 s) := by
  unfold execSetnum
  try dsimp only
  repeat' (first
    | with_reducible assumption | (with_reducible exact Keeps.refl _) | with_reducible apply KeepsR.ok | with_reducible apply KeepsR.ite
    | (with_reducible apply State.issueControl_keeps) | (with_reducible apply State.setFlds_keeps) | (with_reducible apply Keeps.ite) | intro _ _ _
    | (fail_if_no_progress dsimp only) | split)

end Sys2Proof.Machine
end

