-- ==== Sys2Proof/Laws/KeepsContexts.lean ====
section
/-! SUPPORT. What the functions of contexts, queues, admin commands, HBM and maintenance keep (`Keeps`), one lemma each. -/

namespace Sys2Proof.Machine

theorem State.updQueue_keeps {r s : State} (h : Keeps r s) (a1 : ℕ) (a2 : ℕ) (a3 : QueueS → QueueS) : Keeps r (State.updQueue s a1 a2 a3) := by
  unfold State.updQueue
  try dsimp only
  repeat' (first
    | with_reducible assumption | (with_reducible exact Keeps.refl _) | (with_reducible apply State.updCtx_keeps) | (with_reducible apply Keeps.ite)
    | (fail_if_no_progress with_reducible refine Keeps.rec_upd ?_ rfl rfl rfl rfl rfl) | (fail_if_no_progress dsimp only) | split)

theorem execQsyncDisableEffect_keeps {r s : State} (h : Keeps r s) (a0 : Ctx) (a1 : Fin 64) : KeepsR r (execQsyncDisableEffect a0 a1 s) := by
  unfold execQsyncDisableEffect
  try dsimp only
  repeat' (first
    | with_reducible assumption | (with_reducible exact Keeps.refl _) | with_reducible apply KeepsR.ok | with_reducible apply KeepsR.ite
    | (with_reducible apply State.outside_keeps) | (with_reducible apply State.updQueue_keeps) | (with_reducible apply Keeps.ite) | intro _ _
    | (fail_if_no_progress with_reducible refine Keeps.rec_upd ?_ rfl rfl rfl rfl rfl) | (fail_if_no_progress dsimp only) | split)

theorem State.recordCause_keeps {r s : State} (h : Keeps r s) (a1 : Option ℕ) (a2 : ℕ) (a3 : ℕ) (a4 : ℕ) : Keeps r (State.recordCause s a1 a2 a3 a4)
    := by
  unfold State.recordCause
  try dsimp only
  repeat' (first
    | with_reducible assumption | (with_reducible exact Keeps.refl _) | (with_reducible apply State.setFld_keeps)
    | (with_reducible apply State.setFlds_keeps) | (with_reducible apply Keeps.ite) | (fail_if_no_progress dsimp only) | split)

theorem State.ringIndex_keeps {r s : State} (h : Keeps r s) (a1 : ℕ) (a2 : ℕ) : Keeps r (State.ringIndex s a1 a2).2 := by
  unfold State.ringIndex
  try dsimp only
  repeat' (first
    | with_reducible assumption | (with_reducible exact Keeps.refl _) | (with_reducible apply State.draw_keeps) | (with_reducible apply Keeps.ite)
    | (fail_if_no_progress dsimp only) | split)

theorem State.updAdm_keeps {r s : State} (h : Keeps r s) (a1 : ℕ) (a2 : AdmS → AdmS) : Keeps r (State.updAdm s a1 a2) := by
  unfold State.updAdm
  try dsimp only
  repeat' (first
    | with_reducible assumption | (with_reducible exact Keeps.refl _) | (with_reducible apply Keeps.ite)
    | (fail_if_no_progress with_reducible refine Keeps.rec_upd ?_ rfl rfl rfl rfl rfl) | (fail_if_no_progress dsimp only) | split)

theorem State.admEnable_keeps {r s : State} (h : Keeps r s) (a1 : ℕ) : Keeps r (State.admEnable s a1) := by
  unfold State.admEnable
  try dsimp only
  repeat' (first
    | with_reducible assumption | (with_reducible exact Keeps.refl _) | (with_reducible apply State.draw_keeps)
    | (with_reducible apply State.ringIndex_keeps) | (with_reducible apply State.updAdm_keeps) | (with_reducible apply Keeps.ite)
    | (fail_if_no_progress with_reducible refine Keeps.rec_upd ?_ rfl rfl rfl rfl rfl) | (fail_if_no_progress dsimp only) | split)

theorem State.admRelease_keeps {r s : State} (h : Keeps r s) (a1 : ℕ) (a2 : ℕ) : Keeps r (State.admRelease s a1 a2) := by
  unfold State.admRelease
  try dsimp only
  repeat' (first
    | with_reducible assumption | (with_reducible exact Keeps.refl _) | (with_reducible apply State.ringIndex_keeps)
    | (with_reducible apply State.setFld_keeps) | (with_reducible apply State.updAdm_keeps) | (with_reducible apply Keeps.ite)
    | (fail_if_no_progress with_reducible refine Keeps.rec_upd ?_ rfl rfl rfl rfl rfl) | (fail_if_no_progress dsimp only) | split)

theorem State.admAnswer_keeps {r s : State} (h : Keeps r s) (a1 : ℕ) (a2 : ℕ) (a3 : ℕ) : Keeps r (State.admAnswer s a1 a2 a3) := by
  unfold State.admAnswer
  try dsimp only
  repeat' (first
    | with_reducible assumption | (with_reducible exact Keeps.refl _) | (with_reducible apply State.emit_keeps)
    | (with_reducible apply State.raise_keeps) | (with_reducible apply State.updAdm_keeps) | (with_reducible apply Keeps.ite)
    | (fail_if_no_progress with_reducible refine Keeps.rec_upd ?_ rfl rfl rfl rfl rfl) | (fail_if_no_progress dsimp only) | split)

theorem State.hostBytes_keeps {r s : State} (h : Keeps r s) (a1 : ℕ) (a2 : List ℕ) : Keeps r (State.hostBytes s a1 a2).2 := by
  unfold State.hostBytes
  try dsimp only
  repeat' (first
    | with_reducible assumption | (with_reducible exact Keeps.refl _) | (with_reducible apply State.draws_keeps) | (with_reducible apply Keeps.ite)
    | (fail_if_no_progress dsimp only) | split)

theorem State.admin_keeps {r s : State} (h : Keeps r s) (i : Instr) (p opc : Nat) (cmd : List Byte) {act : Adm → State → State}
    (ha : ∀ a t, Keeps r t → Keeps r (act a t)) : KeepsR r (s.admin i p opc cmd act) := by
  unfold State.admin
  refine State.outside_keeps h _ _ (fun s h => ?_)
  dsimp only
  have h1 : Keeps r ((({ (s.hostBytes 64 (cmd.map BitVec.toNat)).2 with admLast := p } : State)).updAdm p (fun x => { x with head := (x.head + 1) % 2 ^ x.log2 })) := by
    apply State.updAdm_keeps
    exact (State.hostBytes_keeps h 64 (cmd.map BitVec.toNat)).upd rfl rfl rfl rfl rfl
  exact KeepsR.ite (KeepsR.ok h) (KeepsR.ite (KeepsR.ok h) (KeepsR.ite (KeepsR.ok (State.admAnswer_keeps h1 _ _ _)) (KeepsR.ok (ha _ _ h1))))

theorem State.answerAdm_keeps {r s : State} (h : Keeps r s) (a1 : Adm) (a2 : ℕ) : Keeps r (State.answerAdm s a1 a2) := by
  unfold State.answerAdm
  try dsimp only
  repeat' (first
    | with_reducible assumption | (with_reducible exact Keeps.refl _) | (with_reducible apply State.admAnswer_keeps)
    | (with_reducible apply Keeps.ite) | (fail_if_no_progress dsimp only) | split)

theorem execCtxMove_keeps {r s : State} (h : Keeps r s) (a0 : Fin 4) (a1 : List Byte) : KeepsR r (execCtxMove a0 a1 s) := by
  unfold execCtxMove
  try dsimp only
  repeat' (first
    | with_reducible assumption | (with_reducible exact Keeps.refl _) | with_reducible apply KeepsR.ok | with_reducible apply KeepsR.ite
    | (with_reducible apply State.admin_keeps) | (with_reducible apply State.answerAdm_keeps) | (with_reducible apply State.updCoach_keeps)
    | (with_reducible refine Keeps.of_snd (by assumption) ?_) | (with_reducible refine Keeps.of_fst (by assumption) ?_)
    | (with_reducible apply Keeps.ite) | intro _ _ _ | (fail_if_no_progress with_reducible refine Keeps.rec_upd ?_ rfl rfl rfl rfl rfl)
    | (fail_if_no_progress dsimp only) | split)

theorem State.dropDmaEntries_keeps {r s : State} (h : Keeps r s) (a1 : ℕ) (a2 : ℕ) : Keeps r (State.dropDmaEntries s a1 a2) := by
  unfold State.dropDmaEntries
  try dsimp only
  repeat' (first
    | with_reducible assumption | (with_reducible exact Keeps.refl _) | (with_reducible apply State.updTc_keeps) | (with_reducible apply Keeps.ite)
    | (fail_if_no_progress dsimp only) | split)

theorem State.chanCtxReset_keeps {r s : State} (h : Keeps r s) (a1 : ℕ) (a2 : ℕ) : Keeps r (State.chanCtxReset s a1 a2) := by
  unfold State.chanCtxReset
  try dsimp only
  repeat' (first
    | with_reducible assumption | (with_reducible exact Keeps.refl _) | (with_reducible apply State.chanCleared_keeps)
    | (with_reducible apply State.dmaAbort_keeps) | (with_reducible apply State.dropDmaEntries_keeps) | (with_reducible apply State.updChan_keeps)
    | (with_reducible refine Keeps.of_snd (by assumption) ?_) | (with_reducible refine Keeps.of_fst (by assumption) ?_)
    | (with_reducible apply Keeps.ite) | (fail_if_no_progress with_reducible refine Keeps.rec_upd ?_ rfl rfl rfl rfl rfl)
    | (fail_if_no_progress dsimp only) | split)

theorem State.setEpoch_keeps {r s : State} (h : Keeps r s) (a1 : ℕ) (a2 : ℕ) : Keeps r (State.setEpoch s a1 a2) := by
  unfold State.setEpoch
  try dsimp only
  repeat' (first
    | with_reducible assumption | (with_reducible exact Keeps.refl _) | (with_reducible apply State.setFld_keeps)
    | (with_reducible refine Keeps.of_snd (by assumption) ?_) | (with_reducible refine Keeps.of_fst (by assumption) ?_)
    | (with_reducible apply Keeps.ite) | (fail_if_no_progress with_reducible refine Keeps.rec_upd ?_ rfl rfl rfl rfl rfl)
    | (fail_if_no_progress dsimp only) | split)

theorem State.freshEpoch_keeps {r s : State} (h : Keeps r s) (a1 : ℕ) : Keeps r (State.freshEpoch s a1) := by
  unfold State.freshEpoch
  try dsimp only
  repeat' (first
    | with_reducible assumption | (with_reducible exact Keeps.refl _) | (with_reducible apply State.setEpoch_keeps)
    | (with_reducible apply Keeps.ite) | (fail_if_no_progress with_reducible refine Keeps.rec_upd ?_ rfl rfl rfl rfl rfl)
    | (fail_if_no_progress dsimp only) | split)

theorem State.unbindChan_keeps {r s : State} (h : Keeps r s) (a1 : ℕ) (a2 : ℕ) : Keeps r (State.unbindChan s a1 a2) := by
  unfold State.unbindChan
  try dsimp only
  repeat' (first
    | with_reducible assumption | (with_reducible exact Keeps.refl _) | (with_reducible apply State.chanCtxReset_keeps)
    | (with_reducible apply State.freshEpoch_keeps) | (with_reducible apply State.setFlds_keeps) | (with_reducible apply Keeps.ite)
    | (fail_if_no_progress dsimp only) | split)

theorem State.coachCtxReset_keeps {r s : State} (h : Keeps r s) (a1 : ℕ) : Keeps r (State.coachCtxReset s a1) := by
  unfold State.coachCtxReset
  try dsimp only
  repeat' (first
    | with_reducible assumption | (with_reducible exact Keeps.refl _) | (with_reducible apply State.dropCtxEntries_keeps)
    | (with_reducible apply State.resetFields_keeps) | (with_reducible apply State.setFld_keeps) | (with_reducible apply State.showSets_keeps)
    | (with_reducible apply State.updCoach_keeps) | (with_reducible apply Keeps.ite)
    | (fail_if_no_progress with_reducible refine Keeps.rec_upd ?_ rfl rfl rfl rfl rfl) | (fail_if_no_progress dsimp only) | split)

theorem State.unbindCoach_keeps {r s : State} (h : Keeps r s) (a1 : ℕ) : Keeps r (State.unbindCoach s a1) := by
  unfold State.unbindCoach
  try dsimp only
  repeat' (first
    | with_reducible assumption | (with_reducible exact Keeps.refl _) | (with_reducible apply State.coachCtxReset_keeps)
    | (with_reducible apply State.freshEpoch_keeps) | (with_reducible apply State.setFlds_keeps) | (with_reducible apply State.updCoach_keeps)
    | (with_reducible apply Keeps.ite) | (fail_if_no_progress with_reducible refine Keeps.rec_upd ?_ rfl rfl rfl rfl rfl)
    | (fail_if_no_progress dsimp only) | split)

theorem State.portCtxReset_keeps {r s : State} (h : Keeps r s) (a1 : ℕ) (a2 : ℕ) : Keeps r (State.portCtxReset s a1 a2) := by
  unfold State.portCtxReset
  try dsimp only
  repeat' (first
    | with_reducible assumption | (with_reducible exact Keeps.refl _) | (with_reducible apply State.dropDmaEntries_keeps)
    | (with_reducible apply State.resetFields_keeps) | (with_reducible apply Keeps.ite) | (fail_if_no_progress dsimp only) | split)

theorem State.unbindPort_keeps {r s : State} (h : Keeps r s) (a1 : ℕ) (a2 : ℕ) : Keeps r (State.unbindPort s a1 a2) := by
  unfold State.unbindPort
  try dsimp only
  repeat' (first
    | with_reducible assumption | (with_reducible exact Keeps.refl _) | (with_reducible apply State.freshEpoch_keeps)
    | (with_reducible apply State.portCtxReset_keeps) | (with_reducible apply State.setFlds_keeps) | (with_reducible apply Keeps.ite)
    | (fail_if_no_progress dsimp only) | split)

theorem execCtxUnbind_keeps {r s : State} (h : Keeps r s) (a0 : Fin 4) (a1 : List Byte) : KeepsR r (execCtxUnbind a0 a1 s) := by
  unfold execCtxUnbind
  try dsimp only
  repeat' (first
    | with_reducible assumption | (with_reducible exact Keeps.refl _) | with_reducible apply KeepsR.ok | with_reducible apply KeepsR.ite
    | (with_reducible apply State.admin_keeps) | (with_reducible apply State.answerAdm_keeps) | (with_reducible apply State.unbindChan_keeps)
    | (with_reducible apply State.unbindCoach_keeps) | (with_reducible apply State.unbindPort_keeps) | (with_reducible apply Keeps.ite)
    | intro _ _ _ | (with_reducible apply Keeps.foldl) | intro _ _ _ | (fail_if_no_progress dsimp only) | split)

theorem execHclStart_keeps {r s : State} (h : Keeps r s) (a0 : Fin 4) (a1 : List Byte) : KeepsR r (execHclStart a0 a1 s) := by
  unfold execHclStart
  try dsimp only
  repeat' (first
    | with_reducible assumption | (with_reducible exact Keeps.refl _) | with_reducible apply KeepsR.ok | with_reducible apply KeepsR.ite
    | (with_reducible apply State.admin_keeps) | (with_reducible apply State.answerAdm_keeps) | (with_reducible apply State.setFld_keeps)
    | (with_reducible apply Keeps.ite) | intro _ _ _ | (with_reducible apply Keeps.foldl) | intro _ _ _ | (fail_if_no_progress dsimp only) | split)

theorem State.failQueues_keeps {r s : State} (h : Keeps r s) (a1 : ℕ) (a2 : ℕ) : Keeps r (State.failQueues s a1 a2) := by
  unfold State.failQueues
  try dsimp only
  repeat' (first
    | with_reducible assumption | (with_reducible exact Keeps.refl _) | (with_reducible apply State.updCtx_keeps)
    | (with_reducible apply State.wrapAdd_keeps) | (with_reducible apply Keeps.ite) | (with_reducible apply Keeps.foldl) | intro _ _ _
    | (fail_if_no_progress with_reducible refine Keeps.rec_upd ?_ rfl rfl rfl rfl rfl) | (fail_if_no_progress dsimp only) | split)

theorem State.resetUnits_keeps {r s : State} (h : Keeps r s) (a1 : ℕ) : Keeps r (State.resetUnits s a1) := by
  unfold State.resetUnits
  try dsimp only
  repeat' (first
    | with_reducible assumption | (with_reducible exact Keeps.refl _) | (with_reducible apply State.chanCtxReset_keeps)
    | (with_reducible apply State.coachCtxReset_keeps) | (with_reducible apply State.portCtxReset_keeps) | (with_reducible apply Keeps.ite)
    | (with_reducible apply Keeps.foldl) | intro _ _ _ | (fail_if_no_progress dsimp only) | split)

theorem State.tellContext_keeps {r s : State} (h : Keeps r s) (a1 : ℕ) : Keeps r (State.tellContext s a1) := by
  unfold State.tellContext
  try dsimp only
  repeat' (first
    | with_reducible assumption | (with_reducible exact Keeps.refl _) | (with_reducible apply State.mirrorContext_keeps)
    | (with_reducible apply Keeps.ite) | (fail_if_no_progress dsimp only) | split)

theorem State.brake_keeps {r s : State} (h : Keeps r s) (a1 : ℕ) (a2 : ℕ) : Keeps r (State.brake s a1 a2) := by
  unfold State.brake
  try dsimp only
  repeat' (first
    | with_reducible assumption | (with_reducible exact Keeps.refl _) | (with_reducible apply State.failQueues_keeps)
    | (with_reducible apply State.logEntry_keeps) | (with_reducible apply State.recordCause_keeps) | (with_reducible apply State.resetUnits_keeps)
    | (with_reducible apply State.tellContext_keeps) | (with_reducible apply State.updCtx_keeps) | (with_reducible apply Keeps.ite)
    | (fail_if_no_progress with_reducible refine Keeps.rec_upd ?_ rfl rfl rfl rfl rfl) | (fail_if_no_progress dsimp only) | split)

theorem State.brakeWhere_keeps {r s : State} (h : Keeps r s) (a1 : ℕ → CtxS → Bool) (a2 : ℕ) : Keeps r (State.brakeWhere s a1 a2) := by
  unfold State.brakeWhere
  try dsimp only
  repeat' (first
    | with_reducible assumption | (with_reducible exact Keeps.refl _) | (with_reducible apply State.brake_keeps) | (with_reducible apply Keeps.ite)
    | (with_reducible apply Keeps.foldl) | intro _ _ _ | (fail_if_no_progress dsimp only) | split)

theorem State.haltCoaches_keeps {r s : State} (h : Keeps r s) (a1 : ℕ) (a2 : Bool) : Keeps r (State.haltCoaches s a1 a2) := by
  unfold State.haltCoaches
  try dsimp only
  repeat' (first
    | with_reducible assumption | (with_reducible exact Keeps.refl _) | (with_reducible apply State.updCoach_keeps)
    | (with_reducible apply Keeps.ite) | (with_reducible apply Keeps.foldl) | intro _ _ _
    | (fail_if_no_progress with_reducible refine Keeps.rec_upd ?_ rfl rfl rfl rfl rfl) | (fail_if_no_progress dsimp only) | split)

theorem State.stopCtx_keeps {r s : State} (h : Keeps r s) (a1 : ℕ) (a2 : ℕ) : Keeps r (State.stopCtx s a1 a2) := by
  unfold State.stopCtx
  try dsimp only
  repeat' (first
    | with_reducible assumption | (with_reducible exact Keeps.refl _) | (with_reducible apply State.haltCoaches_keeps)
    | (with_reducible apply State.logEntry_keeps) | (with_reducible apply State.tellContext_keeps) | (with_reducible apply State.updCtx_keeps)
    | (with_reducible apply Keeps.ite) | (fail_if_no_progress with_reducible refine Keeps.rec_upd ?_ rfl rfl rfl rfl rfl)
    | (fail_if_no_progress dsimp only) | split)

theorem State.eventRecord_keeps {r s : State} (h : Keeps r s) (a1 : ℕ) (a2 : List ℕ) (a3 : EvRec) : Keeps r (State.eventRecord s a1 a2 a3) := by
  unfold State.eventRecord
  try dsimp only
  repeat' (first
    | with_reducible assumption | (with_reducible exact Keeps.refl _) | (with_reducible apply State.raise_keeps)
    | (with_reducible apply State.updCtx_keeps) | (with_reducible apply State.vreadFree_keeps) | (with_reducible apply State.vwrite_keeps)
    | (with_reducible apply Keeps.ite) | (fail_if_no_progress with_reducible refine Keeps.rec_upd ?_ rfl rfl rfl rfl rfl)
    | (fail_if_no_progress dsimp only) | split)

theorem State.dropDoor_keeps {r s : State} (h : Keeps r s) (a1 : ℕ) : Keeps r (State.dropDoor s a1) := by
  unfold State.dropDoor
  try dsimp only
  repeat' (first
    | with_reducible assumption | (with_reducible exact Keeps.refl _) | (with_reducible apply State.bump_keeps) | (with_reducible apply Keeps.ite)
    | (fail_if_no_progress dsimp only) | split)

theorem State.ring_keeps {r s : State} (h : Keeps r s) (d : Door) {act : Nat → State → Option State}
    (ha : ∀ a s t, Keeps r s → act a s = some t → Keeps r t) : KeepsR r (s.ring d act) := by
  unfold State.ring
  dsimp only
  split
  · exact KeepsR.ok h
  · exact KeepsR.ok (State.dropDoor_keeps h _)
  · refine KeepsR.ite ?_ (KeepsR.ok (State.dropDoor_keeps h _))
    split
    · exact KeepsR.ok (ha _ _ _ h ‹_›)
    · exact KeepsR.ok (State.dropDoor_keeps h _)

theorem State.aligned64_keeps {r s : State} (h : Keeps r s) (a1 : ℕ) : Keeps r (State.aligned64 s a1).2 := by
  unfold State.aligned64
  try dsimp only
  repeat' (first
    | with_reducible assumption | (with_reducible exact Keeps.refl _) | (with_reducible apply State.draw_keeps) | (with_reducible apply Keeps.ite)
    | (fail_if_no_progress dsimp only) | split)

theorem State.readQueueEntry_keeps {r s : State} (h : Keeps r s) (a1 : ℕ) (a2 : ℕ) (a3 : List ℕ) : Keeps r (State.readQueueEntry s a1 a2 a3).2.2 := by
  unfold State.readQueueEntry
  try dsimp only
  repeat' (first
    | with_reducible assumption | (with_reducible exact Keeps.refl _) | (with_reducible apply State.aligned64_keeps)
    | (with_reducible apply State.draw_keeps) | (with_reducible apply State.vreadFree_keeps) | (with_reducible apply Keeps.ite)
    | (fail_if_no_progress with_reducible refine Keeps.rec_upd ?_ rfl rfl rfl rfl rfl) | (fail_if_no_progress dsimp only) | split)

theorem State.qsync_keeps {r s : State} (h : Keeps r s) (a1 : ℕ) (a2 : ℕ) (a3 : List ℕ) : Keeps r (State.qsync s a1 a2 a3) := by
  unfold State.qsync
  try dsimp only
  repeat' (first
    | with_reducible assumption | (with_reducible exact Keeps.refl _) | (with_reducible apply State.draws_keeps)
    | (with_reducible apply State.mirrorQueue_keeps) | (with_reducible apply State.readQueueEntry_keeps)
    | (with_reducible apply State.updQueue_keeps) | (with_reducible apply Keeps.ite)
    | (fail_if_no_progress with_reducible refine Keeps.rec_upd ?_ rfl rfl rfl rfl rfl) | (fail_if_no_progress dsimp only) | split)

theorem execAdminTailWrite_keeps {r s : State} (h : Keeps r s) (a0 : Fin 4) (a1 : BitVec 12) : KeepsR r (execAdminTailWrite a0 a1 s) := by
  unfold execAdminTailWrite
  try dsimp only
  repeat' (first
    | with_reducible assumption | (with_reducible exact Keeps.refl _) | with_reducible apply KeepsR.ok | with_reducible apply KeepsR.ite
    | (with_reducible apply State.regEvent_keeps) | (with_reducible apply State.ringIndex_keeps) | (with_reducible apply State.setFld_keeps)
    | (with_reducible apply State.updAdm_keeps) | (with_reducible apply Keeps.ite) | intro _ _
    | (fail_if_no_progress with_reducible refine Keeps.rec_upd ?_ rfl rfl rfl rfl rfl) | (fail_if_no_progress dsimp only) | split)

theorem State.admEnd_keeps {r s : State} (h : Keeps r s) (a1 : ℕ) : Keeps r (State.admEnd s a1) := by
  unfold State.admEnd
  try dsimp only
  repeat' (first
    | with_reducible assumption | (with_reducible exact Keeps.refl _) | (with_reducible apply State.admAnswer_keeps)
    | (with_reducible refine Keeps.of_snd (by assumption) ?_) | (with_reducible refine Keeps.of_fst (by assumption) ?_)
    | (with_reducible apply Keeps.ite) | (fail_if_no_progress with_reducible refine Keeps.rec_upd ?_ rfl rfl rfl rfl rfl)
    | (fail_if_no_progress dsimp only) | split)

theorem execBrake_keeps {r s : State} (h : Keeps r s) (a0 : Fin 4) (a1 : List Byte) : KeepsR r (execBrake a0 a1 s) := by
  unfold execBrake
  try dsimp only
  repeat' (first
    | with_reducible assumption | (with_reducible exact Keeps.refl _) | with_reducible apply KeepsR.ok | with_reducible apply KeepsR.ite
    | (with_reducible apply State.admEnd_keeps) | (with_reducible apply State.admin_keeps) | (with_reducible apply State.answerAdm_keeps)
    | (with_reducible apply State.brake_keeps) | (with_reducible apply State.updCtx_keeps) | (with_reducible apply Keeps.ite) | intro _ _ _
    | (fail_if_no_progress with_reducible refine Keeps.rec_upd ?_ rfl rfl rfl rfl rfl) | (fail_if_no_progress dsimp only) | split)

theorem State.unbindAll_keeps {r s : State} (h : Keeps r s) (a1 : ℕ) : Keeps r (State.unbindAll s a1) := by
  unfold State.unbindAll
  try dsimp only
  repeat' (first
    | with_reducible assumption | (with_reducible exact Keeps.refl _) | (with_reducible apply State.unbindChan_keeps)
    | (with_reducible apply State.unbindCoach_keeps) | (with_reducible apply State.unbindPort_keeps) | (with_reducible apply Keeps.ite)
    | (with_reducible apply Keeps.foldl) | intro _ _ _ | (fail_if_no_progress dsimp only) | split)

theorem execBrakeDone_keeps {r s : State} (h : Keeps r s) (a0 : Ctx) (a1 : List Byte) : KeepsR r (execBrakeDone a0 a1 s) := by
  unfold execBrakeDone
  try dsimp only
  repeat' (first
    | with_reducible assumption | (with_reducible exact Keeps.refl _) | with_reducible apply KeepsR.ok | with_reducible apply KeepsR.ite
    | (with_reducible apply State.admEnd_keeps) | (with_reducible apply State.eventRecord_keeps) | (with_reducible apply State.outside_keeps)
    | (with_reducible apply State.tellContext_keeps) | (with_reducible apply State.unbindAll_keeps) | (with_reducible apply State.updCtx_keeps)
    | (with_reducible apply Keeps.ite) | intro _ _ | (fail_if_no_progress with_reducible refine Keeps.rec_upd ?_ rfl rfl rfl rfl rfl)
    | (fail_if_no_progress dsimp only) | split)

theorem State.putCompletion_keeps {r s : State} (h : Keeps r s) (a1 : ℕ) (a2 : ℕ) (a3 : Compl) (a4 : ℕ) : Keeps r (State.putCompletion s a1 a2 a3
    a4) := by
  unfold State.putCompletion
  try dsimp only
  repeat' (first
    | with_reducible assumption | (with_reducible exact Keeps.refl _) | (with_reducible apply State.raise_keeps)
    | (with_reducible apply State.updQueue_keeps) | (with_reducible apply State.vwrite_keeps) | (with_reducible apply Keeps.ite)
    | (fail_if_no_progress with_reducible refine Keeps.rec_upd ?_ rfl rfl rfl rfl rfl) | (fail_if_no_progress dsimp only) | split)

theorem execCompletionWrite_keeps {r s : State} (h : Keeps r s) (a0 : Ctx) (a1 : Fin 64) (a2 : List Byte) : KeepsR r (execCompletionWrite a0 a1 a2
    s) := by
  unfold execCompletionWrite
  try dsimp only
  repeat' (first
    | with_reducible assumption | (with_reducible exact Keeps.refl _) | with_reducible apply KeepsR.ok | with_reducible apply KeepsR.ite
    | (with_reducible apply State.mirrorQueue_keeps) | (with_reducible apply State.outside_keeps) | (with_reducible apply State.putCompletion_keeps)
    | (with_reducible apply State.updQueue_keeps) | (with_reducible apply State.vreadFree_keeps)
    | (with_reducible refine Keeps.of_snd (by assumption) ?_) | (with_reducible refine Keeps.of_fst (by assumption) ?_)
    | (with_reducible apply Keeps.ite) | intro _ _ | (fail_if_no_progress with_reducible refine Keeps.rec_upd ?_ rfl rfl rfl rfl rfl)
    | (fail_if_no_progress dsimp only) | split)

theorem State.doorbell_keeps {r s : State} (h : Keeps r s) (d : Door) (i : Instr) {act : Nat → State → Option State}
    (ha : ∀ a s t, Keeps r s → act a s = some t → Keeps r t) : KeepsR r (s.doorbell d i act) := by
  unfold State.doorbell
  split
  · exact State.outside_keeps h _ _ (fun t ht => State.ring_keeps ht _ ha)
  · exact State.outside_keeps h _ _ (fun t ht => State.ring_keeps ht _ ha)
  · exact State.ring_keeps h _ ha

theorem execCqhead_keeps {r s : State} (h : Keeps r s) (a0 : Door) (a1 : Fin 64) (a2 : BitVec 12) : KeepsR r (execCqhead a0 a1 a2 s) := by
  unfold execCqhead
  try dsimp only
  repeat' (first
    | contradiction | (obtain rfl := Option.some.inj hq) | (obtain ⟨_, _, rfl⟩ := Option.map_eq_some_iff.1 hq) | (split at hq) | intro _ _ _ _ hq
    | with_reducible assumption | (with_reducible exact Keeps.refl _) | with_reducible apply KeepsR.ok | with_reducible apply KeepsR.ite
    | (with_reducible apply State.doorbell_keeps) | (with_reducible apply State.ringIndex_keeps) | (with_reducible apply State.updQueue_keeps)
    | (with_reducible apply Keeps.ite) | (fail_if_no_progress with_reducible refine Keeps.rec_upd ?_ rfl rfl rfl rfl rfl)
    | (fail_if_no_progress dsimp only) | split)

theorem execCqrel_keeps {r s : State} (h : Keeps r s) (a0 : Door) (a1 : Fin 64) : KeepsR r (execCqrel a0 a1 s) := by
  unfold execCqrel
  try dsimp only
  repeat' (first
    | contradiction | (obtain rfl := Option.some.inj hq) | (obtain ⟨_, _, rfl⟩ := Option.map_eq_some_iff.1 hq) | (split at hq) | intro _ _ _ _ hq
    | with_reducible assumption | (with_reducible exact Keeps.refl _) | with_reducible apply KeepsR.ok | with_reducible apply KeepsR.ite
    | (with_reducible apply State.doorbell_keeps) | (with_reducible apply State.updQueue_keeps) | (with_reducible apply Keeps.ite)
    | (fail_if_no_progress with_reducible refine Keeps.rec_upd ?_ rfl rfl rfl rfl rfl) | (fail_if_no_progress dsimp only) | split)

theorem State.bindChan_keeps {r s : State} (h : Keeps r s) (a1 : ℕ) (a2 : ℕ) (a3 : ℕ) : Keeps r (State.bindChan s a1 a2 a3) := by
  unfold State.bindChan
  try dsimp only
  repeat' (first
    | with_reducible assumption | (with_reducible exact Keeps.refl _) | (with_reducible apply State.freshEpoch_keeps)
    | (with_reducible apply State.setFlds_keeps) | (with_reducible apply Keeps.ite) | (fail_if_no_progress dsimp only) | split)

theorem State.bindCoach_keeps {r s : State} (h : Keeps r s) (a1 : ℕ) (a2 : ℕ) : Keeps r (State.bindCoach s a1 a2) := by
  unfold State.bindCoach
  try dsimp only
  repeat' (first
    | with_reducible assumption | (with_reducible exact Keeps.refl _) | (with_reducible apply State.freshEpoch_keeps)
    | (with_reducible apply State.setFlds_keeps) | (with_reducible apply State.updCoach_keeps) | (with_reducible apply Keeps.ite)
    | (fail_if_no_progress with_reducible refine Keeps.rec_upd ?_ rfl rfl rfl rfl rfl) | (fail_if_no_progress dsimp only) | split)

theorem State.bindPort_keeps {r s : State} (h : Keeps r s) (a1 : ℕ) (a2 : ℕ) (a3 : ℕ) : Keeps r (State.bindPort s a1 a2 a3) := by
  unfold State.bindPort
  try dsimp only
  repeat' (first
    | with_reducible assumption | (with_reducible exact Keeps.refl _) | (with_reducible apply State.freshEpoch_keeps)
    | (with_reducible apply State.setFlds_keeps) | (with_reducible apply Keeps.ite) | (fail_if_no_progress dsimp only) | split)

theorem execCtxBind_keeps {r s : State} (h : Keeps r s) (a0 : Fin 4) (a1 : List Byte) : KeepsR r (execCtxBind a0 a1 s) := by
  unfold execCtxBind
  try dsimp only
  repeat' (first
    | with_reducible assumption | (with_reducible exact Keeps.refl _) | with_reducible apply KeepsR.ok | with_reducible apply KeepsR.ite
    | (with_reducible apply State.admin_keeps) | (with_reducible apply State.answerAdm_keeps) | (with_reducible apply State.bindChan_keeps)
    | (with_reducible apply State.bindCoach_keeps) | (with_reducible apply State.bindPort_keeps) | (with_reducible apply State.freshEpoch_keeps)
    | (with_reducible apply Keeps.ite) | intro _ _ _ | (with_reducible apply Keeps.foldl) | intro _ _ _ | (fail_if_no_progress dsimp only) | split)

theorem State.readQueues_keeps {r s : State} (h : Keeps r s) (a1 : ℕ) (a2 : List ℕ) : Keeps r (State.readQueues s a1 a2) := by
  unfold State.readQueues
  try dsimp only
  repeat' (first
    | with_reducible assumption | (with_reducible exact Keeps.refl _) | (with_reducible apply State.readQueueEntry_keeps)
    | (with_reducible apply State.updQueue_keeps) | (with_reducible apply Keeps.ite) | (with_reducible apply Keeps.foldl) | intro _ _ _
    | (fail_if_no_progress dsimp only) | split)

theorem execCtxCreate_keeps {r s : State} (h : Keeps r s) (a0 : Fin 4) (a1 : List Byte) (a2 : Option (List Byte)) (a3 : List Byte) : KeepsR r
    (execCtxCreate a0 a1 a2 a3 s) := by
  unfold execCtxCreate
  try dsimp only
  repeat' (first
    | with_reducible assumption | (with_reducible exact Keeps.refl _) | with_reducible apply KeepsR.ok | with_reducible apply KeepsR.ite
    | (with_reducible apply State.admin_keeps) | (with_reducible apply State.answerAdm_keeps) | (with_reducible apply State.hostBytes_keeps)
    | (with_reducible apply State.readQueues_keeps) | (with_reducible apply State.tellContext_keeps) | (with_reducible apply State.updCtx_keeps)
    | (with_reducible refine Keeps.of_snd (by assumption) ?_) | (with_reducible refine Keeps.of_fst (by assumption) ?_)
    | (with_reducible apply Keeps.ite) | intro _ _ _ | (fail_if_no_progress dsimp only) | split)

theorem execCtxDestroy_keeps {r s : State} (h : Keeps r s) (a0 : Fin 4) (a1 : List Byte) : KeepsR r (execCtxDestroy a0 a1 s) := by
  unfold execCtxDestroy
  try dsimp only
  repeat' (first
    | with_reducible assumption | (with_reducible exact Keeps.refl _) | with_reducible apply KeepsR.ok | with_reducible apply KeepsR.ite
    | (with_reducible apply State.admEnd_keeps) | (with_reducible apply State.admin_keeps) | (with_reducible apply State.answerAdm_keeps)
    | (with_reducible apply State.brake_keeps) | (with_reducible apply State.updCtx_keeps) | (with_reducible apply Keeps.ite) | intro _ _ _
    | (fail_if_no_progress with_reducible refine Keeps.rec_upd ?_ rfl rfl rfl rfl rfl) | (fail_if_no_progress dsimp only) | split)

theorem State.copyCoachFields_keeps {r s : State} (h : Keeps r s) (a1 : ℕ) (a2 : ℕ) : Keeps r (State.copyCoachFields s a1 a2) := by
  unfold State.copyCoachFields
  try dsimp only
  repeat' (first
    | with_reducible assumption | (with_reducible exact Keeps.refl _) | (with_reducible apply State.resetFields_keeps)
    | (with_reducible apply State.setFld_keeps) | (with_reducible refine Keeps.of_snd (by assumption) ?_)
    | (with_reducible refine Keeps.of_fst (by assumption) ?_) | (with_reducible apply Keeps.ite) | (with_reducible apply Keeps.foldl) | intro _ _ _
    | (fail_if_no_progress with_reducible refine Keeps.rec_upd ?_ rfl rfl rfl rfl rfl) | (fail_if_no_progress dsimp only) | split)

theorem mwf_moveRange {α : Type} [DecidableEq α] {d : α} {m : SMap α} (src dst n : Nat) (h : mwf d m = true) : mwf d (moveRange d m src dst n) =
    true := by
  unfold moveRange
  have hf : ∀ (l a : SMap α), mwf d a = true → mwf d (l.foldl (fun a e => mset d a (e.1 - src + dst) e.2) a) = true := by
    intro l
    induction l with
    | nil => exact fun _ h => h
    | cons x l ih => exact fun a ha => ih _ (mwf_mset _ _ ha)
  exact hf _ _ (mwf_mdrop _ h)

theorem execCtxMoveCopy_keeps {r s : State} (h : Keeps r s)  : KeepsR r (execCtxMoveCopy s) := by
  unfold execCtxMoveCopy
  try dsimp only
  repeat' (first
    | with_reducible assumption | (with_reducible exact Keeps.refl _) | with_reducible apply KeepsR.ok | with_reducible apply KeepsR.ite
    | (with_reducible apply State.admEnd_keeps) | (with_reducible apply State.bindCoach_keeps) | (with_reducible apply State.copyCoachFields_keeps)
    | (with_reducible apply State.outside_keeps) | (with_reducible apply State.setCoach_keeps) | (with_reducible apply State.setFld_keeps)
    | (with_reducible apply State.unbindCoach_keeps) | (with_reducible apply State.updCoach_keeps) | (with_reducible apply State.updCtx_keeps)
    | (with_reducible refine Keeps.of_snd (by assumption) ?_) | (with_reducible refine Keeps.of_fst (by assumption) ?_)
    | (with_reducible apply Keeps.ite) | intro _ _ | (fail_if_no_progress with_reducible refine Keeps.rec_upd ?_ rfl rfl rfl rfl rfl)
    | (fail_if_no_progress with_reducible refine Keeps.rec_wf ?_ rfl rfl (by first | exact id | exact memWf_memWrite _ _ | exact mwf_mblock _ _ | exact mwf_mdrop _ | exact mwf_moveRange _ _ _ | exact fun _ => rfl) (by first | exact id | exact memWf_memWrite _ _ | exact mwf_mblock _ _ | exact mwf_mdrop _ | exact mwf_moveRange _ _ _ | exact fun _ => rfl) (by first | exact id | exact memWf_memWrite _ _ | exact mwf_mblock _ _ | exact mwf_mdrop _ | exact mwf_moveRange _ _ _ | exact fun _ => rfl))
    | (fail_if_no_progress dsimp only) | split)

theorem State.coachGo_keeps {r s : State} (h : Keeps r s) (a1 : ℕ) : Keeps r (State.coachGo s a1) := by
  unfold State.coachGo
  try dsimp only
  repeat' (first
    | with_reducible assumption | (with_reducible exact Keeps.refl _) | (with_reducible apply State.setFld_keeps)
    | (with_reducible apply State.updCoach_keeps) | (with_reducible apply Keeps.ite)
    | (fail_if_no_progress with_reducible refine Keeps.rec_upd ?_ rfl rfl rfl rfl rfl) | (fail_if_no_progress dsimp only) | split)

theorem execCtxResume_keeps {r s : State} (h : Keeps r s) (a0 : Ctx) : KeepsR r (execCtxResume a0 s) := by
  unfold execCtxResume
  try dsimp only
  repeat' (first
    | with_reducible assumption | (with_reducible exact Keeps.refl _) | with_reducible apply KeepsR.ok | with_reducible apply KeepsR.ite
    | (with_reducible apply State.coachGo_keeps) | (with_reducible apply State.logEntry_keeps) | (with_reducible apply State.regEvent_keeps)
    | (with_reducible apply State.setFld_keeps) | (with_reducible apply State.tellContext_keeps) | (with_reducible apply State.updCtx_keeps)
    | (with_reducible apply Keeps.ite) | (with_reducible apply Keeps.foldl) | intro _ _ _ | intro _ _
    | (fail_if_no_progress with_reducible refine Keeps.rec_upd ?_ rfl rfl rfl rfl rfl) | (fail_if_no_progress dsimp only) | split)

theorem execDmahead_keeps {r s : State} (h : Keeps r s) (a0 : Door) (a1 : Fin 256) (a2 : BitVec 16) : KeepsR r (execDmahead a0 a1 a2 s) := by
  unfold execDmahead
  try dsimp only
  repeat' (first
    | contradiction | (obtain rfl := Option.some.inj hq) | (obtain ⟨_, _, rfl⟩ := Option.map_eq_some_iff.1 hq) | (split at hq) | intro _ _ _ _ hq
    | with_reducible assumption | (with_reducible exact Keeps.refl _) | with_reducible apply KeepsR.ok | with_reducible apply KeepsR.ite
    | (with_reducible apply State.dmaHead_keeps) | (with_reducible apply State.doorbell_keeps) | (with_reducible apply Keeps.ite)
    | (fail_if_no_progress dsimp only) | split)

theorem State.mntResult_keeps {r s : State} (h : Keeps r s) (a1 : MReq) (a2 : ℕ) : Keeps r (State.mntResult s a1 a2) := by
  unfold State.mntResult
  try dsimp only
  repeat' (first
    | with_reducible assumption | (with_reducible exact Keeps.refl _) | (with_reducible apply State.setFld_keeps) | (with_reducible apply Keeps.ite)
    | (fail_if_no_progress dsimp only) | split)

theorem State.mntAsk_keeps {r s : State} (h : Keeps r s) (a1 : MReq) : Keeps r (State.mntAsk s a1) := by
  unfold State.mntAsk
  try dsimp only
  repeat' (first
    | with_reducible assumption | (with_reducible exact Keeps.refl _) | (with_reducible apply State.grant_keeps)
    | (with_reducible apply State.mntResult_keeps) | (with_reducible apply State.showArb_keeps) | (with_reducible apply Keeps.ite)
    | (fail_if_no_progress with_reducible refine Keeps.rec_upd ?_ rfl rfl rfl rfl rfl) | (fail_if_no_progress dsimp only) | split)

theorem execMaintRequest_keeps {r s : State} (h : Keeps r s) (a0 : Fin 8) (a1 : ℕ) (a2 : Bool) : KeepsR r (execMaintRequest a0 a1 a2 s) := by
  unfold execMaintRequest
  try dsimp only
  repeat' (first
    | with_reducible assumption | (with_reducible exact Keeps.refl _) | with_reducible apply KeepsR.ok | with_reducible apply KeepsR.ite
    | (with_reducible apply State.mntAsk_keeps) | (with_reducible apply State.outside_keeps) | (with_reducible apply State.regEvent_keeps)
    | (with_reducible apply Keeps.ite) | intro _ _ | (fail_if_no_progress with_reducible refine Keeps.rec_upd ?_ rfl rfl rfl rfl rfl)
    | (fail_if_no_progress dsimp only) | split)

theorem execQsync_keeps {r s : State} (h : Keeps r s) (a0 : Door) (a1 : Fin 64) (a2 : List Byte) : KeepsR r (execQsync a0 a1 a2 s) := by
  unfold execQsync
  try dsimp only
  repeat' (first
    | contradiction | (obtain rfl := Option.some.inj hq) | (obtain ⟨_, _, rfl⟩ := Option.map_eq_some_iff.1 hq) | (split at hq) | intro _ _ _ _ hq
    | with_reducible assumption | (with_reducible exact Keeps.refl _) | with_reducible apply KeepsR.ok | with_reducible apply KeepsR.ite
    | (with_reducible apply State.doorbell_keeps) | (with_reducible apply State.qsync_keeps) | (with_reducible apply Keeps.ite)
    | (fail_if_no_progress dsimp only) | split)

theorem execRecBrake_keeps {r s : State} (h : Keeps r s) (a0 : Ctx) : KeepsR r (execRecBrake a0 s) := by
  unfold execRecBrake
  try dsimp only
  repeat' (first
    | with_reducible assumption | (with_reducible exact Keeps.refl _) | with_reducible apply KeepsR.ok | with_reducible apply KeepsR.ite
    | (with_reducible apply State.brake_keeps) | (with_reducible apply State.regEvent_keeps) | (with_reducible apply Keeps.ite) | intro _ _
    | (fail_if_no_progress dsimp only) | split)

theorem execResume_keeps {r s : State} (h : Keeps r s) (a0 : Door) (a1 : BitVec 32) : KeepsR r (execResume a0 a1 s) := by
  unfold execResume
  try dsimp only
  repeat' (first
    | contradiction | (obtain rfl := Option.some.inj hq) | (obtain ⟨_, _, rfl⟩ := Option.map_eq_some_iff.1 hq) | (split at hq) | intro _ _ _ _ hq
    | with_reducible assumption | (with_reducible exact Keeps.refl _) | with_reducible apply KeepsR.ok | with_reducible apply KeepsR.ite
    | (with_reducible apply State.doorbell_keeps) | (with_reducible apply State.streamResume_keeps)
    | (with_reducible refine Keeps.of_snd (by assumption) ?_) | (with_reducible refine Keeps.of_fst (by assumption) ?_)
    | (with_reducible apply Keeps.ite) | (fail_if_no_progress dsimp only) | split)

theorem execRouteWrite_keeps {r s : State} (h : Keeps r s) (a0 : Fin 4) (a1 : List Byte) : KeepsR r (execRouteWrite a0 a1 s) := by
  unfold execRouteWrite
  try dsimp only
  repeat' (first
    | with_reducible assumption | (with_reducible exact Keeps.refl _) | with_reducible apply KeepsR.ok | with_reducible apply KeepsR.ite
    | (with_reducible apply State.admin_keeps) | (with_reducible apply State.answerAdm_keeps) | (with_reducible apply State.routeWrite_keeps)
    | (with_reducible apply Keeps.ite) | intro _ _ _ | (fail_if_no_progress dsimp only) | split)

theorem execSqtail_keeps {r s : State} (h : Keeps r s) (a0 : Door) (a1 : Fin 64) (a2 : BitVec 12) : KeepsR r (execSqtail a0 a1 a2 s) := by
  unfold execSqtail
  try dsimp only
  repeat' (first
    | contradiction | (obtain rfl := Option.some.inj hq) | (obtain ⟨_, _, rfl⟩ := Option.map_eq_some_iff.1 hq) | (split at hq) | intro _ _ _ _ hq
    | with_reducible assumption | (with_reducible exact Keeps.refl _) | with_reducible apply KeepsR.ok | with_reducible apply KeepsR.ite
    | (with_reducible apply State.doorbell_keeps) | (with_reducible apply State.mirrorQueue_keeps) | (with_reducible apply State.ringIndex_keeps)
    | (with_reducible apply State.updQueue_keeps) | (with_reducible apply Keeps.ite)
    | (fail_if_no_progress with_reducible refine Keeps.rec_upd ?_ rfl rfl rfl rfl rfl) | (fail_if_no_progress dsimp only) | split)

theorem execVfMap_keeps {r s : State} (h : Keeps r s) (a0 : Fin 4) (a1 : List Byte) : KeepsR r (execVfMap a0 a1 s) := by
  unfold execVfMap
  try dsimp only
  repeat' (first
    | with_reducible assumption | (with_reducible exact Keeps.refl _) | with_reducible apply KeepsR.ok | with_reducible apply KeepsR.ite
    | (with_reducible apply State.admin_keeps) | (with_reducible apply State.answerAdm_keeps) | (with_reducible apply Keeps.ite) | intro _ _ _
    | (fail_if_no_progress with_reducible refine Keeps.rec_upd ?_ rfl rfl rfl rfl rfl) | (fail_if_no_progress dsimp only) | split)

theorem State.countDone_keeps {r s : State} (h : Keeps r s) (a1 : ℕ) : Keeps r (State.countDone s a1) := by
  unfold State.countDone
  try dsimp only
  repeat' (first
    | with_reducible assumption | (with_reducible exact Keeps.refl _) | (with_reducible apply State.wrapAdd_keeps)
    | (with_reducible apply Keeps.ite) | (fail_if_no_progress dsimp only) | split)

theorem execWorkOrderComplete_keeps {r s : State} (h : Keeps r s) (a0 : Ctx) : KeepsR r (execWorkOrderComplete a0 s) := by
  unfold execWorkOrderComplete
  try dsimp only
  repeat' (first
    | with_reducible assumption | (with_reducible exact Keeps.refl _) | with_reducible apply KeepsR.ok | with_reducible apply KeepsR.ite
    | (with_reducible apply State.countDone_keeps) | (with_reducible apply State.outside_keeps) | (with_reducible apply State.updCoach_keeps)
    | (with_reducible apply State.updQueue_keeps) | (with_reducible refine Keeps.of_snd (by assumption) ?_)
    | (with_reducible refine Keeps.of_fst (by assumption) ?_) | (with_reducible apply Keeps.ite) | (with_reducible apply Keeps.foldl) | intro _ _ _
    | intro _ _ | (fail_if_no_progress with_reducible refine Keeps.rec_upd ?_ rfl rfl rfl rfl rfl) | (fail_if_no_progress dsimp only) | split)

theorem State.startCoach_keeps {r s : State} (h : Keeps r s) (a1 : Order) (a2 : ℕ) : Keeps r (State.startCoach s a1 a2) := by
  unfold State.startCoach
  try dsimp only
  repeat' (first
    | with_reducible assumption | (with_reducible exact Keeps.refl _) | (with_reducible apply State.setFld_keeps)
    | (with_reducible apply State.setFlds_keeps) | (with_reducible apply State.updCoach_keeps) | (with_reducible apply Keeps.ite)
    | (with_reducible apply Keeps.foldl) | intro _ _ _ | (fail_if_no_progress with_reducible refine Keeps.rec_upd ?_ rfl rfl rfl rfl rfl)
    | (fail_if_no_progress dsimp only) | split)

theorem State.takeHead_keeps {r s : State} (h : Keeps r s) (a1 : ℕ) (a2 : ℕ) (a3 : List ℕ) {t : State} (hq : State.takeHead s a1 a2 a3 = some t) :
    Keeps r t := by
  simp only [State.takeHead] at hq
  repeat' (first
    | contradiction | (obtain rfl := Option.some.inj hq) | (split at hq) | with_reducible assumption | (with_reducible exact Keeps.refl _)
    | (with_reducible apply State.countDone_keeps) | (with_reducible apply State.mirrorQueue_keeps) | (with_reducible apply State.startCoach_keeps)
    | (with_reducible apply State.updCtx_keeps) | (with_reducible apply State.updQueue_keeps) | (with_reducible apply State.vreadFree_keeps)
    | (with_reducible refine Keeps.of_snd (by assumption) ?_) | (with_reducible refine Keeps.of_fst (by assumption) ?_)
    | (with_reducible apply Keeps.ite) | (with_reducible apply Keeps.foldl) | intro _ _ _
    | (fail_if_no_progress with_reducible refine Keeps.rec_upd ?_ rfl rfl rfl rfl rfl) | (fail_if_no_progress dsimp only) | split)

theorem State.takeFirst_keeps {r s : State} (h : Keeps r s) (a1 : ℕ) (a2 : List (ℕ × List Byte)) (a3 : List ℕ) : Keeps r (State.takeFirst s a1 a2
    a3) := by
  induction a3 generalizing s with
  | nil =>
    unfold State.takeFirst
    try dsimp only
    repeat' (first
      | with_reducible assumption | (with_reducible exact Keeps.refl _) | (with_reducible refine State.takeHead_keeps ?_ _ _ _ (by assumption))
      | (with_reducible refine Keeps.of_snd (by assumption) ?_) | (with_reducible refine Keeps.of_fst (by assumption) ?_)
      | (with_reducible apply Keeps.ite) | (fail_if_no_progress with_reducible refine Keeps.rec_upd ?_ rfl rfl rfl rfl rfl)
      | (fail_if_no_progress dsimp only) | split)
  | cons x l ih =>
    unfold State.takeFirst
    try dsimp only
    repeat' (first
      | with_reducible apply ih | with_reducible assumption | (with_reducible exact Keeps.refl _)
      | (with_reducible refine State.takeHead_keeps ?_ _ _ _ (by assumption)) | (with_reducible refine Keeps.of_snd (by assumption) ?_)
      | (with_reducible refine Keeps.of_fst (by assumption) ?_) | (with_reducible apply Keeps.ite)
      | (fail_if_no_progress with_reducible refine Keeps.rec_upd ?_ rfl rfl rfl rfl rfl) | (fail_if_no_progress dsimp only) | split)

theorem execWorkOrderStart_keeps {r s : State} (h : Keeps r s) (a0 : Ctx) (a1 : List (ℕ × List Byte)) : KeepsR r (execWorkOrderStart a0 a1 s) := by
  unfold execWorkOrderStart
  try dsimp only
  repeat' (first
    | with_reducible assumption | (with_reducible exact Keeps.refl _) | with_reducible apply KeepsR.ok | with_reducible apply KeepsR.ite
    | (with_reducible apply State.outside_keeps) | (with_reducible apply State.takeFirst_keeps) | (with_reducible apply Keeps.ite) | intro _ _
    | (fail_if_no_progress dsimp only) | split)

theorem State.mntEnd_keeps {r s : State} (h : Keeps r s) (a1 : ℕ) (a2 : ℕ) : Keeps r (State.mntEnd s a1 a2) := by
  unfold State.mntEnd
  try dsimp only
  repeat' (first
    | with_reducible assumption | (with_reducible exact Keeps.refl _) | (with_reducible apply State.arbStep_keeps)
    | (with_reducible apply State.logEntry_keeps) | (with_reducible apply State.setFld_keeps)
    | (with_reducible refine Keeps.of_snd (by assumption) ?_) | (with_reducible refine Keeps.of_fst (by assumption) ?_)
    | (with_reducible apply Keeps.ite) | (fail_if_no_progress with_reducible refine Keeps.rec_upd ?_ rfl rfl rfl rfl rfl)
    | (fail_if_no_progress dsimp only) | split)

theorem execMaintDeferExpiry_keeps {r s : State} (h : Keeps r s)  : KeepsR r (execMaintDeferExpiry s) := by
  unfold execMaintDeferExpiry
  try dsimp only
  repeat' (first
    | with_reducible assumption | (with_reducible exact Keeps.refl _) | with_reducible apply KeepsR.ok | with_reducible apply KeepsR.ite
    | (with_reducible apply State.lockAbort_keeps) | (with_reducible apply Keeps.ite) | (fail_if_no_progress dsimp only) | split)

theorem execMaintEnd_keeps {r s : State} (h : Keeps r s) (a0 : Fin 8) (a1 : ℕ) : KeepsR r (execMaintEnd a0 a1 s) := by
  unfold execMaintEnd
  try dsimp only
  repeat' (first
    | with_reducible assumption | (with_reducible exact Keeps.refl _) | with_reducible apply KeepsR.ok | with_reducible apply KeepsR.ite
    | (with_reducible apply State.mntEnd_keeps) | (with_reducible apply Keeps.ite) | (fail_if_no_progress dsimp only) | split)

theorem execHartAccessFault_keeps {r s : State} (h : Keeps r s) (a0 : Car) (a1 : Fin 4) (a2 : BitVec 64) (a3 : Bool) : KeepsR r (execHartAccessFault
    a0 a1 a2 a3 s) := by
  unfold execHartAccessFault
  try dsimp only
  repeat' (first
    | with_reducible assumption | (with_reducible exact Keeps.refl _) | with_reducible apply KeepsR.ok | with_reducible apply KeepsR.ite
    | (with_reducible apply State.setFld_keeps) | (with_reducible apply State.setFlds_keeps) | (with_reducible apply Keeps.ite)
    | (fail_if_no_progress dsimp only) | split)

end Sys2Proof.Machine
end

