-- ==== Sys2Proof/Laws/KeepsTenders.lean ====
section
/-! SUPPORT. What the functions of tenders, power and recovery keep (`Keeps`), one lemma each. -/

namespace Sys2Proof.Machine

theorem State.cmdIgnored_keeps {r s : State} (h : Keeps r s)  : Keeps r (State.cmdIgnored s) := by
  unfold State.cmdIgnored
  try dsimp only
  repeat' (first
    | with_reducible assumption | (with_reducible exact Keeps.refl _) | (with_reducible apply State.setFld_keeps) | (with_reducible apply Keeps.ite)
    | (fail_if_no_progress dsimp only) | split)

theorem State.pwrEvent_keeps {r s : State} (h : Keeps r s)  : Keeps r (State.pwrEvent s) := by
  unfold State.pwrEvent
  try dsimp only
  repeat' (first
    | with_reducible assumption | (with_reducible exact Keeps.refl _) | (with_reducible apply State.raise_keeps)
    | (with_reducible apply State.setFld_keeps) | (with_reducible apply Keeps.ite) | (fail_if_no_progress dsimp only) | split)

theorem State.pwrRefuse_keeps {r s : State} (h : Keeps r s) (a1 : ℕ) (a2 : ℕ) (a3 : ℕ) : Keeps r (State.pwrRefuse s a1 a2 a3) := by
  unfold State.pwrRefuse
  try dsimp only
  repeat' (first
    | with_reducible assumption | (with_reducible exact Keeps.refl _) | (with_reducible apply State.arbStep_keeps)
    | (with_reducible apply State.pwrEvent_keeps) | (with_reducible apply State.setFlds_keeps) | (with_reducible apply State.ungateCar_keeps)
    | (with_reducible refine Keeps.of_snd (by assumption) ?_) | (with_reducible refine Keeps.of_fst (by assumption) ?_)
    | (with_reducible apply Keeps.ite) | (with_reducible apply Keeps.foldl) | intro _ _ _
    | (fail_if_no_progress with_reducible refine Keeps.rec_upd ?_ rfl rfl rfl rfl rfl) | (fail_if_no_progress dsimp only) | split)

theorem State.avsWrite_keeps {r s : State} (h : Keeps r s) (a1 : ℕ) (a2 : ℕ) (a3 : ℕ) : Keeps r (State.avsWrite s a1 a2 a3) := by
  unfold State.avsWrite
  try dsimp only
  repeat' (first
    | with_reducible assumption | (with_reducible exact Keeps.refl _) | (with_reducible apply State.emit_keeps)
    | (with_reducible refine Keeps.of_snd (by assumption) ?_) | (with_reducible refine Keeps.of_fst (by assumption) ?_)
    | (with_reducible apply Keeps.ite) | (fail_if_no_progress with_reducible refine Keeps.rec_upd ?_ rfl rfl rfl rfl rfl)
    | (fail_if_no_progress dsimp only) | split)

theorem State.wakeCars_keeps {r s : State} (h : Keeps r s) (a1 : List ℕ) : Keeps r (State.wakeCars s a1) := by
  unfold State.wakeCars
  try dsimp only
  repeat' (first
    | with_reducible assumption | (with_reducible exact Keeps.refl _) | (with_reducible apply State.avsWrite_keeps)
    | (with_reducible apply State.pwrEvent_keeps) | (with_reducible apply State.setCarState_keeps) | (with_reducible apply State.setFld_keeps)
    | (with_reducible apply State.ungateCar_keeps) | (with_reducible apply Keeps.ite) | (with_reducible apply Keeps.foldl) | intro _ _ _
    | (fail_if_no_progress with_reducible refine Keeps.rec_upd ?_ rfl rfl rfl rfl rfl) | (fail_if_no_progress dsimp only) | split)

theorem State.wakeS3_keeps {r s : State} (h : Keeps r s)  : Keeps r (State.wakeS3 s) := by
  unfold State.wakeS3
  try dsimp only
  repeat' (first
    | with_reducible assumption | (with_reducible exact Keeps.refl _) | (with_reducible apply State.emit_keeps)
    | (with_reducible apply State.setFld_keeps) | (with_reducible apply Keeps.ite)
    | (fail_if_no_progress with_reducible refine Keeps.rec_upd ?_ rfl rfl rfl rfl rfl) | (fail_if_no_progress dsimp only) | split)

theorem execPowerCmdS0_keeps {r s : State} (h : Keeps r s) (a0 : BitVec 4) : KeepsR r (execPowerCmdS0 a0 s) := by
  unfold execPowerCmdS0
  try dsimp only
  repeat' (first
    | with_reducible assumption | (with_reducible exact Keeps.refl _) | with_reducible apply KeepsR.ok | with_reducible apply KeepsR.ite
    | (with_reducible apply State.cmdIgnored_keeps) | (with_reducible apply State.pwrRefuse_keeps) | (with_reducible apply State.regEvent_keeps)
    | (with_reducible apply State.wakeCars_keeps) | (with_reducible apply State.wakeS3_keeps) | (with_reducible apply Keeps.ite) | intro _ _
    | (fail_if_no_progress dsimp only) | split)

theorem State.precharge_keeps {r s : State} (h : Keeps r s) (a1 : ℕ) (a2 : ℕ) (a3 : ℕ) : Keeps r (State.precharge s a1 a2 a3) := by
  unfold State.precharge
  try dsimp only
  repeat' (first
    | with_reducible assumption | (with_reducible exact Keeps.refl _) | (with_reducible apply State.bumpH_keeps)
    | (with_reducible apply State.emit_keeps) | (with_reducible apply State.updHbm_keeps) | (with_reducible apply Keeps.ite)
    | (with_reducible apply Keeps.foldl) | intro _ _ _ | (fail_if_no_progress with_reducible refine Keeps.rec_upd ?_ rfl rfl rfl rfl rfl)
    | (fail_if_no_progress dsimp only) | split)

theorem State.prechargeAll_keeps {r s : State} (h : Keeps r s) (a1 : ℕ) : Keeps r (State.prechargeAll s a1) := by
  unfold State.prechargeAll
  try dsimp only
  repeat' (first
    | with_reducible assumption | (with_reducible exact Keeps.refl _) | (with_reducible apply State.precharge_keeps)
    | (with_reducible apply Keeps.ite) | (with_reducible apply Keeps.foldl) | intro _ _ _ | (fail_if_no_progress dsimp only) | split)

theorem State.refreshAll_keeps {r s : State} (h : Keeps r s) (a1 : ℕ) : Keeps r (State.refreshAll s a1) := by
  unfold State.refreshAll
  try dsimp only
  repeat' (first
    | with_reducible assumption | (with_reducible exact Keeps.refl _) | (with_reducible apply State.prechargeAll_keeps)
    | (with_reducible apply State.updHbm_keeps) | (with_reducible apply Keeps.ite)
    | (fail_if_no_progress with_reducible refine Keeps.rec_upd ?_ rfl rfl rfl rfl rfl) | (fail_if_no_progress dsimp only) | split)

theorem execRowIdleClose_keeps {r s : State} (h : Keeps r s) (a0 : Fin 8) (a1 : Fin 64) (a2 : Fin 64) : KeepsR r (execRowIdleClose a0 a1 a2 s) := by
  unfold execRowIdleClose
  try dsimp only
  repeat' (first
    | with_reducible assumption | (with_reducible exact Keeps.refl _) | with_reducible apply KeepsR.ok | with_reducible apply KeepsR.ite
    | (with_reducible apply State.precharge_keeps) | (with_reducible apply Keeps.ite) | (fail_if_no_progress dsimp only) | split)

theorem State.askChip_keeps {r s : State} (h : Keeps r s) (a1 : ℕ) (a2 : ℕ) (a3 : ℕ) : Keeps r (State.askChip s a1 a2 a3) := by
  unfold State.askChip
  try dsimp only
  repeat' (first
    | with_reducible assumption | (with_reducible exact Keeps.refl _) | (with_reducible apply State.logEntry_keeps)
    | (with_reducible apply State.recordCause_keeps) | (with_reducible apply Keeps.ite)
    | (fail_if_no_progress with_reducible refine Keeps.rec_upd ?_ rfl rfl rfl rfl rfl) | (fail_if_no_progress dsimp only) | split)

theorem execSchedHeartbeatLoss_keeps {r s : State} (h : Keeps r s)  : KeepsR r (execSchedHeartbeatLoss s) := by
  unfold execSchedHeartbeatLoss
  try dsimp only
  repeat' (first
    | with_reducible assumption | (with_reducible exact Keeps.refl _) | with_reducible apply KeepsR.ok | with_reducible apply KeepsR.ite
    | (with_reducible apply State.askChip_keeps) | (with_reducible apply Keeps.ite)
    | (fail_if_no_progress with_reducible refine Keeps.rec_upd ?_ rfl rfl rfl rfl rfl) | (fail_if_no_progress dsimp only) | split)

theorem State.notice_keeps {r s : State} (h : Keeps r s) (a1 : ℕ) (a2 : Fld) (a3 : Bool) : Keeps r (State.notice s a1 a2 a3) := by
  unfold State.notice
  try dsimp only
  repeat' (first
    | with_reducible assumption | (with_reducible exact Keeps.refl _) | (with_reducible apply State.bayEvent_keeps)
    | (with_reducible apply State.updBay_keeps) | (with_reducible apply Keeps.ite)
    | (fail_if_no_progress with_reducible refine Keeps.rec_upd ?_ rfl rfl rfl rfl rfl) | (fail_if_no_progress dsimp only) | split)

theorem State.judgeWear_keeps {r s : State} (h : Keeps r s) (a1 : ℕ) : Keeps r (State.judgeWear s a1) := by
  unfold State.judgeWear
  try dsimp only
  repeat' (first
    | with_reducible assumption | (with_reducible exact Keeps.refl _) | (with_reducible apply State.notice_keeps)
    | (with_reducible apply State.setFld_keeps) | (with_reducible refine Keeps.of_snd (by assumption) ?_)
    | (with_reducible refine Keeps.of_fst (by assumption) ?_) | (with_reducible apply Keeps.ite)
    | (fail_if_no_progress with_reducible refine Keeps.rec_upd ?_ rfl rfl rfl rfl rfl) | (fail_if_no_progress dsimp only) | split)

theorem State.bayAnswer_keeps {r s : State} (h : Keeps r s) (a1 : ℕ) (a2 : Packet) (a3 : ℕ) (a4 : List ℕ) : Keeps r (State.bayAnswer s a1 a2 a3 a4)
    := by
  unfold State.bayAnswer
  try dsimp only
  repeat' (first
    | with_reducible assumption | (with_reducible exact Keeps.refl _) | (with_reducible apply State.appliedRecord_keeps)
    | (with_reducible apply State.bayError_keeps) | (with_reducible apply State.inject_keeps) | (with_reducible apply State.pairGap_keeps)
    | (with_reducible apply Keeps.ite) | (fail_if_no_progress with_reducible refine Keeps.rec_upd ?_ rfl rfl rfl rfl rfl)
    | (fail_if_no_progress dsimp only) | split)

theorem State.failAccesses_keeps {r s : State} (h : Keeps r s) (a1 : ℕ) (a2 : ℕ) : Keeps r (State.failAccesses s a1 a2) := by
  unfold State.failAccesses
  try dsimp only
  repeat' (first
    | with_reducible assumption | (with_reducible exact Keeps.refl _) | (with_reducible apply State.bayAnswer_keeps)
    | (with_reducible apply State.setFld_keeps) | (with_reducible apply State.updBay_keeps) | (with_reducible apply Keeps.ite)
    | (with_reducible apply Keeps.foldl) | intro _ _ _ | (fail_if_no_progress with_reducible refine Keeps.rec_upd ?_ rfl rfl rfl rfl rfl)
    | (fail_if_no_progress dsimp only) | split)

theorem State.bayFails_keeps {r s : State} (h : Keeps r s) (a1 : ℕ) : Keeps r (State.bayFails s a1) := by
  unfold State.bayFails
  try dsimp only
  repeat' (first
    | with_reducible assumption | (with_reducible exact Keeps.refl _) | (with_reducible apply State.bayEvent_keeps)
    | (with_reducible apply State.failAccesses_keeps) | (with_reducible apply State.setFlds_keeps) | (with_reducible apply State.updBay_keeps)
    | (with_reducible apply Keeps.ite) | (fail_if_no_progress with_reducible refine Keeps.rec_upd ?_ rfl rfl rfl rfl rfl)
    | (fail_if_no_progress dsimp only) | split)

theorem State.bayNew_keeps {r s : State} (h : Keeps r s) (a1 : ℕ) : Keeps r (State.bayNew s a1) := by
  unfold State.bayNew
  try dsimp only
  repeat' (first
    | with_reducible assumption | (with_reducible exact Keeps.refl _) | (with_reducible apply State.bayEvent_keeps)
    | (with_reducible apply State.setFlds_keeps) | (with_reducible apply State.updBay_keeps) | (with_reducible apply Keeps.ite)
    | (fail_if_no_progress with_reducible refine Keeps.rec_upd ?_ rfl rfl rfl rfl rfl) | (fail_if_no_progress dsimp only) | split)

theorem State.sendUnsent_keeps {r s : State} (h : Keeps r s) (a1 : ℕ) : Keeps r (State.sendUnsent s a1) := by
  unfold State.sendUnsent
  try dsimp only
  repeat' (first
    | with_reducible assumption | (with_reducible exact Keeps.refl _) | (with_reducible apply State.updBay_keeps) | (with_reducible apply Keeps.ite)
    | (fail_if_no_progress with_reducible refine Keeps.rec_upd ?_ rfl rfl rfl rfl rfl) | (fail_if_no_progress dsimp only) | split)

theorem State.settleDetach_keeps {r s : State} (h : Keeps r s) (a1 : ℕ) : Keeps r (State.settleDetach s a1) := by
  unfold State.settleDetach
  try dsimp only
  repeat' (first
    | with_reducible assumption | (with_reducible exact Keeps.refl _) | (with_reducible apply State.bayNew_keeps) | (with_reducible apply Keeps.ite)
    | (fail_if_no_progress dsimp only) | split)

theorem State.takeWear_keeps {r s : State} (h : Keeps r s) (a1 : ℕ) (a2 : ℕ) (a3 : ℕ) : Keeps r (State.takeWear s a1 a2 a3) := by
  unfold State.takeWear
  try dsimp only
  repeat' (first
    | with_reducible assumption | (with_reducible exact Keeps.refl _) | (with_reducible apply State.judgeWear_keeps)
    | (with_reducible apply State.setFlds_keeps) | (with_reducible apply State.updBay_keeps) | (with_reducible apply Keeps.ite)
    | (fail_if_no_progress with_reducible refine Keeps.rec_upd ?_ rfl rfl rfl rfl rfl) | (fail_if_no_progress dsimp only) | split)

theorem State.takeIdent_keeps {r s : State} (h : Keeps r s) (a1 : ℕ) (a2 : List ℕ) : Keeps r (State.takeIdent s a1 a2) := by
  unfold State.takeIdent
  try dsimp only
  repeat' (first
    | with_reducible assumption | (with_reducible exact Keeps.refl _) | (with_reducible apply State.bayEvent_keeps)
    | (with_reducible apply State.bayFails_keeps) | (with_reducible apply State.bayNew_keeps) | (with_reducible apply State.failAccesses_keeps)
    | (with_reducible apply State.sendUnsent_keeps) | (with_reducible apply State.setFlds_keeps) | (with_reducible apply State.settleDetach_keeps)
    | (with_reducible apply State.takeWear_keeps) | (with_reducible apply State.updBay_keeps) | (with_reducible apply Keeps.ite)
    | (fail_if_no_progress with_reducible refine Keeps.rec_upd ?_ rfl rfl rfl rfl rfl) | (fail_if_no_progress dsimp only) | split)

theorem State.setMhz_keeps {r s : State} (h : Keeps r s) (a1 : ℕ) : Keeps r (State.setMhz s a1) := by
  unfold State.setMhz
  try dsimp only
  repeat' (first
    | with_reducible assumption | (with_reducible exact Keeps.refl _) | (with_reducible apply State.setFlds_keeps)
    | (with_reducible apply Keeps.ite) | (fail_if_no_progress dsimp only) | split)

theorem execPllLock_keeps {r s : State} (h : Keeps r s) (a0 : Pll) : KeepsR r (execPllLock a0 s) := by
  unfold execPllLock
  try dsimp only
  repeat' (first
    | with_reducible assumption | (with_reducible exact Keeps.refl _) | with_reducible apply KeepsR.ok | with_reducible apply KeepsR.ite
    | (with_reducible apply State.setCarState_keeps) | (with_reducible apply State.setFld_keeps) | (with_reducible apply State.setMhz_keeps)
    | (with_reducible refine Keeps.of_snd (by assumption) ?_) | (with_reducible refine Keeps.of_fst (by assumption) ?_)
    | (with_reducible apply Keeps.ite) | (fail_if_no_progress dsimp only) | split)

theorem State.carriageCleared_keeps {r s : State} (h : Keeps r s) (a1 : ℕ) : Keeps r (State.carriageCleared s a1) := by
  unfold State.carriageCleared
  try dsimp only
  repeat' (first
    | with_reducible assumption | (with_reducible exact Keeps.refl _) | (with_reducible apply State.fabricHeld_keeps)
    | (with_reducible apply State.resetFields_keeps) | (with_reducible apply Keeps.ite)
    | (fail_if_no_progress with_reducible refine Keeps.rec_upd ?_ rfl rfl rfl rfl rfl)
    | (fail_if_no_progress with_reducible refine Keeps.rec_wf ?_ rfl rfl (by first | exact id | exact memWf_memWrite _ _ | exact mwf_mblock _ _ | exact mwf_mdrop _ | exact fun _ => rfl) (by first | exact id | exact memWf_memWrite _ _ | exact mwf_mblock _ _ | exact mwf_mdrop _ | exact fun _ => rfl) (by first | exact id | exact memWf_memWrite _ _ | exact mwf_mblock _ _ | exact mwf_mdrop _ | exact fun _ => rfl))
    | (fail_if_no_progress dsimp only) | split)

theorem State.epochsAside_keeps {r s : State} (h : Keeps r s) (a1 : ℕ) : Keeps r (State.epochsAside s a1) := by
  unfold State.epochsAside
  try dsimp only
  repeat' (first
    | with_reducible assumption | (with_reducible exact Keeps.refl _) | (with_reducible apply State.setEpoch_keeps)
    | (with_reducible apply Keeps.ite) | (with_reducible apply Keeps.foldl) | intro _ _ _
    | (fail_if_no_progress with_reducible refine Keeps.rec_upd ?_ rfl rfl rfl rfl rfl) | (fail_if_no_progress dsimp only) | split)

theorem State.recoverCarriage_keeps {r s : State} (h : Keeps r s) (a1 : ℕ) (a2 : ℕ) : Keeps r (State.recoverCarriage s a1 a2) := by
  unfold State.recoverCarriage
  try dsimp only
  repeat' (first
    | with_reducible assumption | (with_reducible exact Keeps.refl _) | (with_reducible apply State.brakeWhere_keeps)
    | (with_reducible apply State.bump_keeps) | (with_reducible apply State.carriageCleared_keeps) | (with_reducible apply State.epochsAside_keeps)
    | (with_reducible apply State.lockAbort_keeps) | (with_reducible apply State.logEntry_keeps) | (with_reducible apply State.setCarState_keeps)
    | (with_reducible apply State.setFld_keeps) | (with_reducible apply Keeps.ite)
    | (fail_if_no_progress with_reducible refine Keeps.rec_upd ?_ rfl rfl rfl rfl rfl) | (fail_if_no_progress dsimp only) | split)

theorem State.coachCleared_keeps {r s : State} (h : Keeps r s) (a1 : ℕ) : Keeps r (State.coachCleared s a1) := by
  unfold State.coachCleared
  try dsimp only
  repeat' (first
    | with_reducible assumption | (with_reducible exact Keeps.refl _) | (with_reducible apply State.dropCtxEntries_keeps)
    | (with_reducible apply State.resetFields_keeps) | (with_reducible apply State.updCoach_keeps) | (with_reducible apply Keeps.ite)
    | (fail_if_no_progress with_reducible refine Keeps.rec_upd ?_ rfl rfl rfl rfl rfl)
    | (fail_if_no_progress with_reducible refine Keeps.rec_wf ?_ rfl rfl (by first | exact id | exact memWf_memWrite _ _ | exact mwf_mblock _ _ | exact mwf_mdrop _ | exact fun _ => rfl) (by first | exact id | exact memWf_memWrite _ _ | exact mwf_mblock _ _ | exact mwf_mdrop _ | exact fun _ => rfl) (by first | exact id | exact memWf_memWrite _ _ | exact mwf_mblock _ _ | exact mwf_mdrop _ | exact fun _ => rfl))
    | (fail_if_no_progress dsimp only) | split)

theorem State.recoverCoach_keeps {r s : State} (h : Keeps r s) (a1 : ℕ) (a2 : ℕ) : Keeps r (State.recoverCoach s a1 a2) := by
  unfold State.recoverCoach
  try dsimp only
  repeat' (first
    | with_reducible assumption | (with_reducible exact Keeps.refl _) | (with_reducible apply State.brake_keeps)
    | (with_reducible apply State.bump_keeps) | (with_reducible apply State.coachCleared_keeps) | (with_reducible apply State.logEntry_keeps)
    | (with_reducible apply State.setFld_keeps) | (with_reducible apply State.updCtx_keeps)
    | (with_reducible refine Keeps.of_snd (by assumption) ?_) | (with_reducible refine Keeps.of_fst (by assumption) ?_)
    | (with_reducible apply Keeps.ite) | (fail_if_no_progress with_reducible refine Keeps.rec_upd ?_ rfl rfl rfl rfl rfl)
    | (fail_if_no_progress dsimp only) | split)

theorem State.actOn_keeps {r s : State} (h : Keeps r s) (a1 : Option ℕ) (a2 : ℕ) (a3 : ℕ) : Keeps r (State.actOn s a1 a2 a3) := by
  unfold State.actOn
  try dsimp only
  repeat' (first
    | with_reducible assumption | (with_reducible exact Keeps.refl _) | (with_reducible apply State.recoverCarriage_keeps)
    | (with_reducible apply State.recoverCoach_keeps) | (with_reducible apply State.stopCtx_keeps)
    | (with_reducible refine Keeps.of_snd (by assumption) ?_) | (with_reducible refine Keeps.of_fst (by assumption) ?_)
    | (with_reducible apply Keeps.ite) | (fail_if_no_progress with_reducible refine Keeps.rec_upd ?_ rfl rfl rfl rfl rfl)
    | (fail_if_no_progress dsimp only) | split)

theorem State.takeReport_keeps {r s : State} (h : Keeps r s) (a1 : Report) (a2 : List ℕ) : Keeps r (State.takeReport s a1 a2) := by
  unfold State.takeReport
  try dsimp only
  repeat' (first
    | with_reducible assumption | (with_reducible exact Keeps.refl _) | (with_reducible apply State.actOn_keeps)
    | (with_reducible apply State.askChip_keeps) | (with_reducible apply State.eventRecord_keeps) | (with_reducible apply State.logEntry_keeps)
    | (with_reducible apply State.recordCause_keeps) | (with_reducible refine Keeps.of_snd (by assumption) ?_)
    | (with_reducible refine Keeps.of_fst (by assumption) ?_) | (with_reducible apply Keeps.ite)
    | (fail_if_no_progress with_reducible refine Keeps.rec_upd ?_ rfl rfl rfl rfl rfl) | (fail_if_no_progress dsimp only) | split)

theorem State.faultReport_keeps {r s : State} (h : Keeps r s) (a1 : FaultSrc) : Keeps r (State.faultReport s a1) := by
  unfold State.faultReport
  try dsimp only
  repeat' (first
    | with_reducible assumption | (with_reducible exact Keeps.refl _) | (with_reducible apply State.takeReport_keeps)
    | (with_reducible refine Keeps.of_snd (by assumption) ?_) | (with_reducible refine Keeps.of_fst (by assumption) ?_)
    | (with_reducible apply Keeps.ite) | (fail_if_no_progress with_reducible refine Keeps.rec_upd ?_ rfl rfl rfl rfl rfl)
    | (fail_if_no_progress dsimp only) | split)

theorem execAdjmapHiWrite_keeps {r s : State} (h : Keeps r s) (a0 : Fin 8) (a1 : BitVec 32) : KeepsR r (execAdjmapHiWrite a0 a1 s) := by
  unfold execAdjmapHiWrite
  try dsimp only
  repeat' (first
    | with_reducible assumption | (with_reducible exact Keeps.refl _) | with_reducible apply KeepsR.ok | with_reducible apply KeepsR.ite
    | (with_reducible apply State.dropLow_keeps) | (with_reducible apply State.regEvent_keeps) | (with_reducible apply State.setHfld_keeps)
    | (with_reducible apply Keeps.ite) | intro _ _ | (fail_if_no_progress dsimp only) | split)

theorem execBrakeUnitTimeout_keeps {r s : State} (h : Keeps r s) (a0 : Ctx) (a1 : BrakeUnit) : KeepsR r (execBrakeUnitTimeout a0 a1 s) := by
  unfold execBrakeUnitTimeout
  try dsimp only
  repeat' (first
    | with_reducible assumption | (with_reducible exact Keeps.refl _) | with_reducible apply KeepsR.ok | with_reducible apply KeepsR.ite
    | (with_reducible apply State.outside_keeps) | (with_reducible apply State.recordCause_keeps)
    | (with_reducible apply State.recoverCarriage_keeps) | (with_reducible apply State.recoverCoach_keeps)
    | (with_reducible refine Keeps.of_snd (by assumption) ?_) | (with_reducible refine Keeps.of_fst (by assumption) ?_)
    | (with_reducible apply Keeps.ite) | intro _ _ | (fail_if_no_progress dsimp only) | split)

theorem State.awaitNo_keeps {r s : State} (h : Keeps r s) (a1 : ℕ → Bool) : Keeps r (State.awaitNo s a1) := by
  unfold State.awaitNo
  try dsimp only
  repeat' (first
    | with_reducible assumption | (with_reducible exact Keeps.refl _) | (with_reducible apply Keeps.ite)
    | (fail_if_no_progress with_reducible refine Keeps.rec_upd ?_ rfl rfl rfl rfl rfl) | (fail_if_no_progress dsimp only) | split)

theorem execCarriageRecoveryDone_keeps {r s : State} (h : Keeps r s) (a0 : Car) : KeepsR r (execCarriageRecoveryDone a0 s) := by
  unfold execCarriageRecoveryDone
  try dsimp only
  repeat' (first
    | with_reducible assumption | (with_reducible exact Keeps.refl _) | with_reducible apply KeepsR.ok | with_reducible apply KeepsR.ite
    | (with_reducible apply State.awaitNo_keeps) | (with_reducible apply State.outside_keeps) | (with_reducible apply State.rewriteImageRegs_keeps)
    | (with_reducible apply State.setCarState_keeps) | (with_reducible apply State.updFab_keeps) | (with_reducible apply Keeps.ite) | intro _ _
    | (fail_if_no_progress with_reducible refine Keeps.rec_upd ?_ rfl rfl rfl rfl rfl) | (fail_if_no_progress dsimp only) | split)

theorem execCarriageRecoveryTimeout_keeps {r s : State} (h : Keeps r s) (a0 : Car) : KeepsR r (execCarriageRecoveryTimeout a0 s) := by
  unfold execCarriageRecoveryTimeout
  try dsimp only
  repeat' (first
    | with_reducible assumption | (with_reducible exact Keeps.refl _) | with_reducible apply KeepsR.ok | with_reducible apply KeepsR.ite
    | (with_reducible apply State.askChip_keeps) | (with_reducible apply State.outside_keeps) | (with_reducible apply Keeps.ite) | intro _ _
    | (fail_if_no_progress dsimp only) | split)

theorem execChiprstRequest_keeps {r s : State} (h : Keeps r s)  : KeepsR r (execChiprstRequest s) := by
  unfold execChiprstRequest
  try dsimp only
  repeat' (first
    | with_reducible assumption | (with_reducible exact Keeps.refl _) | with_reducible apply KeepsR.ok | with_reducible apply KeepsR.ite
    | (with_reducible apply State.askChip_keeps) | (with_reducible apply State.regEvent_keeps) | (with_reducible apply State.setFld_keeps)
    | (with_reducible apply Keeps.ite) | intro _ _ | (fail_if_no_progress dsimp only) | split)

theorem execCoachRecoveryDone_keeps {r s : State} (h : Keeps r s) (a0 : Coach) : KeepsR r (execCoachRecoveryDone a0 s) := by
  unfold execCoachRecoveryDone
  try dsimp only
  repeat' (first
    | with_reducible assumption | (with_reducible exact Keeps.refl _) | with_reducible apply KeepsR.ok | with_reducible apply KeepsR.ite
    | (with_reducible apply State.awaitNo_keeps) | (with_reducible apply State.outside_keeps) | (with_reducible apply Keeps.ite) | intro _ _
    | (fail_if_no_progress with_reducible refine Keeps.rec_upd ?_ rfl rfl rfl rfl rfl) | (fail_if_no_progress dsimp only) | split)

theorem execCoachRecoveryTimeout_keeps {r s : State} (h : Keeps r s) (a0 : Coach) : KeepsR r (execCoachRecoveryTimeout a0 s) := by
  unfold execCoachRecoveryTimeout
  try dsimp only
  repeat' (first
    | with_reducible assumption | (with_reducible exact Keeps.refl _) | with_reducible apply KeepsR.ok | with_reducible apply KeepsR.ite
    | (with_reducible apply State.outside_keeps) | (with_reducible apply State.recordCause_keeps)
    | (with_reducible apply State.recoverCarriage_keeps) | (with_reducible apply Keeps.ite) | intro _ _ | (fail_if_no_progress dsimp only) | split)

theorem execFaultReport_keeps {r s : State} (h : Keeps r s) (a0 : FaultSrc) : KeepsR r (execFaultReport a0 s) := by
  unfold execFaultReport
  try dsimp only
  repeat' (first
    | with_reducible assumption | (with_reducible exact Keeps.refl _) | with_reducible apply KeepsR.ok | with_reducible apply KeepsR.ite
    | (with_reducible apply State.faultReport_keeps) | (with_reducible apply State.outsideAt_keeps) | (with_reducible apply Keeps.ite) | intro _ _
    | (fail_if_no_progress dsimp only) | split)

theorem execHangExpiry_keeps {r s : State} (h : Keeps r s)  : KeepsR r (execHangExpiry s) := by
  unfold execHangExpiry
  try dsimp only
  repeat' (first
    | with_reducible assumption | (with_reducible exact Keeps.refl _) | with_reducible apply KeepsR.ok | with_reducible apply KeepsR.ite
    | (with_reducible apply State.brake_keeps) | (with_reducible apply State.outsideAt_keeps) | (with_reducible apply Keeps.ite)
    | (with_reducible apply Keeps.foldl) | intro _ _ _ | intro _ _
    | (fail_if_no_progress with_reducible refine Keeps.rec_upd ?_ rfl rfl rfl rfl rfl) | (fail_if_no_progress dsimp only) | split)

theorem execHbmFreqChange_keeps {r s : State} (h : Keeps r s) (a0 : Fin 8) : KeepsR r (execHbmFreqChange a0 s) := by
  unfold execHbmFreqChange
  try dsimp only
  repeat' (first
    | with_reducible assumption | (with_reducible exact Keeps.refl _) | with_reducible apply KeepsR.ok | with_reducible apply KeepsR.ite
    | (with_reducible apply State.regEvent_keeps) | (with_reducible apply State.setHfld_keeps) | (with_reducible apply State.updHbm_keeps)
    | (with_reducible apply Keeps.ite) | intro _ _ | (fail_if_no_progress with_reducible refine Keeps.rec_upd ?_ rfl rfl rfl rfl rfl)
    | (fail_if_no_progress dsimp only) | split)

theorem State.selfRefresh_keeps {r s : State} (h : Keeps r s) (a1 : ℕ) : Keeps r (State.selfRefresh s a1) := by
  unfold State.selfRefresh
  try dsimp only
  repeat' (first
    | with_reducible assumption | (with_reducible exact Keeps.refl _) | (with_reducible apply State.prechargeAll_keeps)
    | (with_reducible apply State.updHbm_keeps) | (with_reducible apply Keeps.ite)
    | (fail_if_no_progress with_reducible refine Keeps.rec_upd ?_ rfl rfl rfl rfl rfl) | (fail_if_no_progress dsimp only) | split)

theorem execHbmModeWrite_keeps {r s : State} (h : Keeps r s) (a0 : Fin 8) (a1 : Fin 4) : KeepsR r (execHbmModeWrite a0 a1 s) := by
  unfold execHbmModeWrite
  try dsimp only
  repeat' (first
    | with_reducible assumption | (with_reducible exact Keeps.refl _) | with_reducible apply KeepsR.ok | with_reducible apply KeepsR.ite
    | (with_reducible apply State.regEvent_keeps) | (with_reducible apply State.selfRefresh_keeps) | (with_reducible apply State.setHfld_keeps)
    | (with_reducible apply State.updHbm_keeps) | (with_reducible apply Keeps.ite) | intro _ _
    | (fail_if_no_progress with_reducible refine Keeps.rec_upd ?_ rfl rfl rfl rfl rfl) | (fail_if_no_progress dsimp only) | split)

theorem execPadRelease_keeps {r s : State} (h : Keeps r s) (a0 : BitVec 4) : KeepsR r (execPadRelease a0 s) := by
  unfold execPadRelease
  try dsimp only
  repeat' (first
    | with_reducible assumption | (with_reducible exact Keeps.refl _) | with_reducible apply KeepsR.ok | with_reducible apply KeepsR.ite
    | (with_reducible apply State.driveAll_keeps) | (with_reducible apply State.regEvent_keeps) | (with_reducible apply State.setFld_keeps)
    | (with_reducible apply State.updFab_keeps) | (with_reducible apply Keeps.ite) | (with_reducible apply Keeps.foldl) | intro _ _ _ | intro _ _
    | (fail_if_no_progress with_reducible refine Keeps.rec_upd ?_ rfl rfl rfl rfl rfl) | (fail_if_no_progress dsimp only) | split)

theorem State.fence_keeps {r s : State} (h : Keeps r s)  : Keeps r (State.fence s) := by
  unfold State.fence
  try dsimp only
  repeat' (first
    | with_reducible assumption | (with_reducible exact Keeps.refl _) | (with_reducible apply State.haltCoaches_keeps)
    | (with_reducible apply State.logEntry_keeps) | (with_reducible apply State.pairReason_keeps) | (with_reducible apply State.setFld_keeps)
    | (with_reducible apply Keeps.ite) | (with_reducible apply Keeps.foldl) | intro _ _ _ | (fail_if_no_progress dsimp only) | split)

theorem execPmWatchdogExpiry_keeps {r s : State} (h : Keeps r s)  : KeepsR r (execPmWatchdogExpiry s) := by
  unfold execPmWatchdogExpiry
  try dsimp only
  repeat' (first
    | with_reducible assumption | (with_reducible exact Keeps.refl _) | with_reducible apply KeepsR.ok | with_reducible apply KeepsR.ite
    | (with_reducible apply State.fence_keeps) | (with_reducible apply State.outside_keeps) | (with_reducible apply State.setFld_keeps)
    | (with_reducible apply Keeps.ite) | intro _ _ | (fail_if_no_progress dsimp only) | split)

theorem State.pwrEnter_keeps {r s : State} (h : Keeps r s) (a1 : ℕ) (a2 : ℕ) : Keeps r (State.pwrEnter s a1 a2) := by
  unfold State.pwrEnter
  try dsimp only
  repeat' (first
    | with_reducible assumption | (with_reducible exact Keeps.refl _) | (with_reducible apply State.cmdIgnored_keeps)
    | (with_reducible apply State.setFld_keeps) | (with_reducible apply Keeps.ite)
    | (fail_if_no_progress with_reducible refine Keeps.rec_upd ?_ rfl rfl rfl rfl rfl) | (fail_if_no_progress dsimp only) | split)

theorem execPowerCmdS1_keeps {r s : State} (h : Keeps r s) (a0 : BitVec 4) : KeepsR r (execPowerCmdS1 a0 s) := by
  unfold execPowerCmdS1
  try dsimp only
  repeat' (first
    | with_reducible assumption | (with_reducible exact Keeps.refl _) | with_reducible apply KeepsR.ok | with_reducible apply KeepsR.ite
    | (with_reducible apply State.pwrEnter_keeps) | (with_reducible apply State.regEvent_keeps) | (with_reducible apply Keeps.ite) | intro _ _
    | (fail_if_no_progress dsimp only) | split)

theorem execPowerCmdS2_keeps {r s : State} (h : Keeps r s) (a0 : BitVec 4) : KeepsR r (execPowerCmdS2 a0 s) := by
  unfold execPowerCmdS2
  try dsimp only
  repeat' (first
    | with_reducible assumption | (with_reducible exact Keeps.refl _) | with_reducible apply KeepsR.ok | with_reducible apply KeepsR.ite
    | (with_reducible apply State.pwrEnter_keeps) | (with_reducible apply State.regEvent_keeps) | (with_reducible apply Keeps.ite) | intro _ _
    | (fail_if_no_progress dsimp only) | split)

theorem execPowerCmdS3_keeps {r s : State} (h : Keeps r s)  : KeepsR r (execPowerCmdS3 s) := by
  unfold execPowerCmdS3
  try dsimp only
  repeat' (first
    | with_reducible assumption | (with_reducible exact Keeps.refl _) | with_reducible apply KeepsR.ok | with_reducible apply KeepsR.ite
    | (with_reducible apply State.pwrEnter_keeps) | (with_reducible apply State.regEvent_keeps) | (with_reducible apply Keeps.ite) | intro _ _
    | (fail_if_no_progress dsimp only) | split)

theorem State.relock_keeps {r s : State} (h : Keeps r s)  : Keeps r (State.relock s) := by
  unfold State.relock
  try dsimp only
  repeat' (first
    | with_reducible assumption | (with_reducible exact Keeps.refl _) | (with_reducible apply State.setFld_keeps)
    | (with_reducible apply State.setMhz_keeps) | (with_reducible apply Keeps.ite) | (with_reducible apply Keeps.foldl) | intro _ _ _
    | (fail_if_no_progress dsimp only) | split)

theorem State.profBegin_keeps {r s : State} (h : Keeps r s) (a1 : ℕ) : Keeps r (State.profBegin s a1) := by
  unfold State.profBegin
  try dsimp only
  repeat' (first
    | with_reducible assumption | (with_reducible exact Keeps.refl _) | (with_reducible apply State.avsWrite_keeps)
    | (with_reducible apply State.relock_keeps) | (with_reducible apply State.setFlds_keeps) | (with_reducible apply Keeps.ite)
    | (with_reducible apply Keeps.foldl) | intro _ _ _ | (fail_if_no_progress with_reducible refine Keeps.rec_upd ?_ rfl rfl rfl rfl rfl)
    | (fail_if_no_progress dsimp only) | split)

theorem execProfileWrite_keeps {r s : State} (h : Keeps r s) (a0 : Fin 4) : KeepsR r (execProfileWrite a0 s) := by
  unfold execProfileWrite
  try dsimp only
  repeat' (first
    | with_reducible assumption | (with_reducible exact Keeps.refl _) | with_reducible apply KeepsR.ok | with_reducible apply KeepsR.ite
    | (with_reducible apply State.lockAbort_keeps) | (with_reducible apply State.profBegin_keeps) | (with_reducible apply State.regEvent_keeps)
    | (with_reducible apply Keeps.ite) | intro _ _ | (fail_if_no_progress with_reducible refine Keeps.rec_upd ?_ rfl rfl rfl rfl rfl)
    | (fail_if_no_progress dsimp only) | split)

theorem State.bayOwn_keeps {r s : State} (h : Keeps r s) (a1 : ℕ) (a2 : ℕ) (a3 : ℕ) (a4 : List ℕ) : Keeps r (State.bayOwn s a1 a2 a3 a4) := by
  unfold State.bayOwn
  try dsimp only
  repeat' (first
    | with_reducible assumption | (with_reducible exact Keeps.refl _) | (with_reducible apply State.updBay_keeps) | (with_reducible apply Keeps.ite)
    | (fail_if_no_progress with_reducible refine Keeps.rec_upd ?_ rfl rfl rfl rfl rfl) | (fail_if_no_progress dsimp only) | split)

theorem execTenderAttach_keeps {r s : State} (h : Keeps r s) (a0 : Fin 4) : KeepsR r (execTenderAttach a0 s) := by
  unfold execTenderAttach
  try dsimp only
  repeat' (first
    | with_reducible assumption | (with_reducible exact Keeps.refl _) | with_reducible apply KeepsR.ok | with_reducible apply KeepsR.ite
    | (with_reducible apply State.bayOwn_keeps) | (with_reducible apply State.draw_keeps) | (with_reducible apply State.regEvent_keeps)
    | (with_reducible apply State.setFld_keeps) | (with_reducible apply State.updBay_keeps)
    | (with_reducible refine Keeps.of_snd (by assumption) ?_) | (with_reducible refine Keeps.of_fst (by assumption) ?_)
    | (with_reducible apply Keeps.ite) | intro _ _ | (fail_if_no_progress with_reducible refine Keeps.rec_upd ?_ rfl rfl rfl rfl rfl)
    | (fail_if_no_progress dsimp only) | split)

theorem execTenderDetach_keeps {r s : State} (h : Keeps r s) (a0 : Fin 4) : KeepsR r (execTenderDetach a0 s) := by
  unfold execTenderDetach
  try dsimp only
  repeat' (first
    | with_reducible assumption | (with_reducible exact Keeps.refl _) | with_reducible apply KeepsR.ok | with_reducible apply KeepsR.ite
    | (with_reducible apply State.regEvent_keeps) | (with_reducible apply State.setFld_keeps) | (with_reducible apply State.settleDetach_keeps)
    | (with_reducible apply State.updBay_keeps) | (with_reducible apply Keeps.ite) | intro _ _
    | (fail_if_no_progress with_reducible refine Keeps.rec_upd ?_ rfl rfl rfl rfl rfl) | (fail_if_no_progress dsimp only) | split)

theorem execTenderMaintStart_keeps {r s : State} (h : Keeps r s) (a0 : Fin 4) : KeepsR r (execTenderMaintStart a0 s) := by
  unfold execTenderMaintStart
  try dsimp only
  repeat' (first
    | with_reducible assumption | (with_reducible exact Keeps.refl _) | with_reducible apply KeepsR.ok | with_reducible apply KeepsR.ite
    | (with_reducible apply State.bayOwn_keeps) | (with_reducible apply State.regEvent_keeps) | (with_reducible apply State.setFld_keeps)
    | (with_reducible apply State.updBay_keeps) | (with_reducible apply Keeps.ite) | intro _ _
    | (fail_if_no_progress with_reducible refine Keeps.rec_upd ?_ rfl rfl rfl rfl rfl) | (fail_if_no_progress dsimp only) | split)

theorem State.bayMaintStop_keeps {r s : State} (h : Keeps r s) (a1 : ℕ) : Keeps r (State.bayMaintStop s a1) := by
  unfold State.bayMaintStop
  try dsimp only
  repeat' (first
    | with_reducible assumption | (with_reducible exact Keeps.refl _) | (with_reducible apply State.bayOwn_keeps) | (with_reducible apply Keeps.ite)
    | (fail_if_no_progress dsimp only) | split)

theorem execTenderMaintStop_keeps {r s : State} (h : Keeps r s) (a0 : Fin 4) : KeepsR r (execTenderMaintStop a0 s) := by
  unfold execTenderMaintStop
  try dsimp only
  repeat' (first
    | with_reducible assumption | (with_reducible exact Keeps.refl _) | with_reducible apply KeepsR.ok | with_reducible apply KeepsR.ite
    | (with_reducible apply State.bayMaintStop_keeps) | (with_reducible apply State.regEvent_keeps) | (with_reducible apply State.setFld_keeps)
    | (with_reducible apply Keeps.ite) | intro _ _ | (fail_if_no_progress dsimp only) | split)

theorem execTrainMrw_keeps {r s : State} (h : Keeps r s) (a0 : Fin 8) (a1 : Fin 64) : KeepsR r (execTrainMrw a0 a1 s) := by
  unfold execTrainMrw
  try dsimp only
  repeat' (first
    | with_reducible assumption | (with_reducible exact Keeps.refl _) | with_reducible apply KeepsR.ok | with_reducible apply KeepsR.ite
    | (with_reducible apply State.regEvent_keeps) | (with_reducible apply State.updHbm_keeps) | (with_reducible apply Keeps.ite) | intro _ _
    | (fail_if_no_progress with_reducible refine Keeps.rec_upd ?_ rfl rfl rfl rfl rfl) | (fail_if_no_progress dsimp only) | split)

theorem execTrainReadCompare_keeps {r s : State} (h : Keeps r s) (a0 : Fin 8) (a1 : Fin 64) (a2 : List (Fin 272)) : KeepsR r (execTrainReadCompare
    a0 a1 a2 s) := by
  unfold execTrainReadCompare
  try dsimp only
  repeat' (first
    | with_reducible assumption | (with_reducible exact Keeps.refl _) | with_reducible apply KeepsR.ok | with_reducible apply KeepsR.ite
    | (with_reducible apply State.regEvent_keeps) | (with_reducible apply State.updHbm_keeps) | (with_reducible apply Keeps.ite)
    | (with_reducible apply Keeps.foldl) | intro _ _ _ | intro _ _
    | (fail_if_no_progress with_reducible refine Keeps.rec_upd ?_ rfl rfl rfl rfl rfl) | (fail_if_no_progress dsimp only) | split)

theorem State.stackWrite_keeps {r s : State} (h : Keeps r s) (a1 : ℕ) (a2 : List ℕ) (a3 : ℕ → Bool) : Keeps r (State.stackWrite s a1 a2 a3) := by
  unfold State.stackWrite
  try dsimp only
  repeat' (first
    | with_reducible assumption | (with_reducible exact Keeps.refl _) | (with_reducible apply Keeps.ite) | (with_reducible apply Keeps.foldl)
    | intro _ _ _ | (fail_if_no_progress with_reducible refine Keeps.rec_upd ?_ rfl rfl rfl rfl rfl)
    | (fail_if_no_progress with_reducible refine Keeps.rec_wf ?_ rfl rfl (by first | exact id | exact memWf_memWrite _ _ | exact mwf_mblock _ _ | exact mwf_mdrop _ | exact fun _ => rfl) (by first | exact id | exact memWf_memWrite _ _ | exact mwf_mblock _ _ | exact mwf_mdrop _ | exact fun _ => rfl) (by first | exact id | exact memWf_memWrite _ _ | exact mwf_mblock _ _ | exact mwf_mdrop _ | exact fun _ => rfl))
    | (fail_if_no_progress dsimp only) | split)

theorem execTrainWritePattern_keeps {r s : State} (h : Keeps r s) (a0 : Fin 8) (a1 : Fin 64) : KeepsR r (execTrainWritePattern a0 a1 s) := by
  unfold execTrainWritePattern
  try dsimp only
  repeat' (first
    | with_reducible assumption | (with_reducible exact Keeps.refl _) | with_reducible apply KeepsR.ok | with_reducible apply KeepsR.ite
    | (with_reducible apply State.regEvent_keeps) | (with_reducible apply State.stackWrite_keeps) | (with_reducible apply State.updHbm_keeps)
    | (with_reducible apply Keeps.ite) | intro _ _ | (fail_if_no_progress with_reducible refine Keeps.rec_upd ?_ rfl rfl rfl rfl rfl)
    | (fail_if_no_progress dsimp only) | split)

theorem execCoachGate_keeps {r s : State} (h : Keeps r s) (a0 : Coach) : KeepsR r (execCoachGate a0 s) := by
  unfold execCoachGate
  try dsimp only
  repeat' (first
    | with_reducible assumption | (with_reducible exact Keeps.refl _) | with_reducible apply KeepsR.ok | with_reducible apply KeepsR.ite
    | (with_reducible apply State.setFld_keeps) | (with_reducible apply Keeps.ite) | (fail_if_no_progress dsimp only) | split)

theorem State.showHeld_keeps {r s : State} (h : Keeps r s) (a1 : ℕ) : Keeps r (State.showHeld s a1) := by
  unfold State.showHeld
  try dsimp only
  repeat' (first
    | with_reducible assumption | (with_reducible exact Keeps.refl _) | (with_reducible apply State.setFld_keeps) | (with_reducible apply Keeps.ite)
    | (fail_if_no_progress dsimp only) | split)

theorem State.gateCar_keeps {r s : State} (h : Keeps r s) (a1 : ℕ) : Keeps r (State.gateCar s a1) := by
  unfold State.gateCar
  try dsimp only
  repeat' (first
    | with_reducible assumption | (with_reducible exact Keeps.refl _) | (with_reducible apply State.setFld_keeps) | (with_reducible apply Keeps.ite)
    | (with_reducible apply Keeps.foldl) | intro _ _ _ | (fail_if_no_progress dsimp only) | split)

theorem State.writeLogTail_keeps {r s : State} (h : Keeps r s)  : Keeps r (State.writeLogTail s) := by
  unfold State.writeLogTail
  try dsimp only
  repeat' (first
    | with_reducible assumption | (with_reducible exact Keeps.refl _) | (with_reducible apply State.logEntry_keeps)
    | (with_reducible refine Keeps.of_snd (by assumption) ?_) | (with_reducible refine Keeps.of_fst (by assumption) ?_)
    | (with_reducible apply Keeps.ite) | (fail_if_no_progress with_reducible refine Keeps.rec_upd ?_ rfl rfl rfl rfl rfl)
    | (fail_if_no_progress with_reducible refine Keeps.rec_wf ?_ rfl rfl (by first | exact id | exact memWf_memWrite _ _ | exact mwf_mblock _ _ | exact mwf_mdrop _ | exact fun _ => rfl) (by first | exact id | exact memWf_memWrite _ _ | exact mwf_mblock _ _ | exact mwf_mdrop _ | exact fun _ => rfl) (by first | exact id | exact memWf_memWrite _ _ | exact mwf_mblock _ _ | exact mwf_mdrop _ | exact fun _ => rfl))
    | (fail_if_no_progress dsimp only) | split)

theorem execPfwAssert_keeps {r s : State} (h : Keeps r s)  : KeepsR r (execPfwAssert s) := by
  unfold execPfwAssert
  try dsimp only
  repeat' (first
    | with_reducible assumption | (with_reducible exact Keeps.refl _) | with_reducible apply KeepsR.ok | with_reducible apply KeepsR.ite
    | (with_reducible apply State.bayMaintStop_keeps) | (with_reducible apply State.lockAbort_keeps) | (with_reducible apply State.logEntry_keeps)
    | (with_reducible apply State.pwrRefuse_keeps) | (with_reducible apply State.raise_keeps) | (with_reducible apply State.setFlds_keeps)
    | (with_reducible apply State.writeLogTail_keeps) | (with_reducible apply Keeps.ite) | (with_reducible apply Keeps.foldl) | intro _ _ _
    | (fail_if_no_progress dsimp only) | split)

theorem State.activate_keeps {r s : State} (h : Keeps r s) (a1 : ℕ) (a2 : ℕ) (a3 : ℕ) (a4 : ℕ) : Keeps r (State.activate s a1 a2 a3 a4) := by
  unfold State.activate
  try dsimp only
  repeat' (first
    | with_reducible assumption | (with_reducible exact Keeps.refl _) | (with_reducible apply State.precharge_keeps)
    | (with_reducible apply State.updHbm_keeps) | (with_reducible apply Keeps.ite)
    | (fail_if_no_progress with_reducible refine Keeps.rec_upd ?_ rfl rfl rfl rfl rfl) | (fail_if_no_progress dsimp only) | split)

theorem State.profEnd_keeps {r s : State} (h : Keeps r s)  : Keeps r (State.profEnd s) := by
  unfold State.profEnd
  try dsimp only
  repeat' (first
    | with_reducible assumption | (with_reducible exact Keeps.refl _) | (with_reducible apply State.profBegin_keeps)
    | (with_reducible apply State.setFld_keeps) | (with_reducible refine Keeps.of_snd (by assumption) ?_)
    | (with_reducible refine Keeps.of_fst (by assumption) ?_) | (with_reducible apply Keeps.ite)
    | (fail_if_no_progress with_reducible refine Keeps.rec_upd ?_ rfl rfl rfl rfl rfl) | (fail_if_no_progress dsimp only) | split)

theorem State.avsDone_keeps {r s : State} (h : Keeps r s)  : Keeps r (State.avsDone s) := by
  unfold State.avsDone
  try dsimp only
  repeat' (first
    | with_reducible assumption | (with_reducible exact Keeps.refl _) | (with_reducible apply State.profEnd_keeps)
    | (with_reducible apply State.relock_keeps) | (with_reducible refine Keeps.of_snd (by assumption) ?_)
    | (with_reducible refine Keeps.of_fst (by assumption) ?_) | (with_reducible apply Keeps.ite) | (fail_if_no_progress dsimp only) | split)

theorem execAvsAck_keeps {r s : State} (h : Keeps r s) (a0 : Car) : KeepsR r (execAvsAck a0 s) := by
  unfold execAvsAck
  try dsimp only
  repeat' (first
    | with_reducible assumption | (with_reducible exact Keeps.refl _) | with_reducible apply KeepsR.ok | with_reducible apply KeepsR.ite
    | (with_reducible apply State.avsDone_keeps) | (with_reducible apply Keeps.ite)
    | (fail_if_no_progress with_reducible refine Keeps.rec_upd ?_ rfl rfl rfl rfl rfl) | (fail_if_no_progress dsimp only) | split)

theorem execTenderLockLost_keeps {r s : State} (h : Keeps r s) (a0 : Fin 4) : KeepsR r (execTenderLockLost a0 s) := by
  unfold execTenderLockLost
  try dsimp only
  repeat' (first
    | with_reducible assumption | (with_reducible exact Keeps.refl _) | with_reducible apply KeepsR.ok | with_reducible apply KeepsR.ite
    | (with_reducible apply State.updBay_keeps) | (with_reducible apply Keeps.ite)
    | (fail_if_no_progress with_reducible refine Keeps.rec_upd ?_ rfl rfl rfl rfl rfl) | (fail_if_no_progress dsimp only) | split)

theorem execThermtrip_keeps {r s : State} (h : Keeps r s) (a0 : ℕ) (a1 : BitVec 8) : KeepsR r (execThermtrip a0 a1 s) := by
  unfold execThermtrip
  try dsimp only
  repeat' (first
    | with_reducible assumption | (with_reducible exact Keeps.refl _) | with_reducible apply KeepsR.ok | with_reducible apply KeepsR.ite
    | (with_reducible apply State.emit_keeps) | (with_reducible apply State.logEntry_keeps) | (with_reducible apply State.setFld_keeps)
    | (with_reducible apply State.setMhz_keeps) | (with_reducible apply Keeps.ite) | (with_reducible apply Keeps.foldl) | intro _ _ _
    | (fail_if_no_progress with_reducible refine Keeps.rec_upd ?_ rfl rfl rfl rfl rfl) | (fail_if_no_progress dsimp only) | split)

theorem State.hbmEnter_keeps {r s : State} (h : Keeps r s) (a1 : ℕ) (a2 : ℕ) (a3 : Bool) : Keeps r (State.hbmEnter s a1 a2 a3) := by
  unfold State.hbmEnter
  try dsimp only
  repeat' (first
    | with_reducible assumption | (with_reducible exact Keeps.refl _) | (with_reducible apply State.respond_keeps)
    | (with_reducible apply State.updHbm_keeps) | (with_reducible refine Keeps.of_snd (by assumption) ?_)
    | (with_reducible refine Keeps.of_fst (by assumption) ?_) | (with_reducible apply Keeps.ite)
    | (fail_if_no_progress with_reducible refine Keeps.rec_upd ?_ rfl rfl rfl rfl rfl) | (fail_if_no_progress dsimp only) | split)

theorem State.modAnswer_keeps {r s : State} (h : Keeps r s) (a1 : ℕ) (a2 : ℕ) (a3 : TPkt) (a4 : ℕ) (a5 : List ℕ) : Keeps r (State.modAnswer s a1 a2
    a3 a4 a5) := by
  unfold State.modAnswer
  try dsimp only
  repeat' (first
    | with_reducible assumption | (with_reducible exact Keeps.refl _) | (with_reducible apply State.updBay_keeps) | (with_reducible apply Keeps.ite)
    | (fail_if_no_progress with_reducible refine Keeps.rec_upd ?_ rfl rfl rfl rfl rfl) | (fail_if_no_progress dsimp only) | split)

theorem execTrainCmdDone_keeps {r s : State} (h : Keeps r s) (a0 : Fin 8) : KeepsR r (execTrainCmdDone a0 s) := by
  unfold execTrainCmdDone
  try dsimp only
  repeat' (first
    | with_reducible assumption | (with_reducible exact Keeps.refl _) | with_reducible apply KeepsR.ok | with_reducible apply KeepsR.ite
    | (with_reducible apply State.setHfld_keeps) | (with_reducible apply State.updHbm_keeps)
    | (with_reducible refine Keeps.of_snd (by assumption) ?_) | (with_reducible refine Keeps.of_fst (by assumption) ?_)
    | (with_reducible apply Keeps.ite) | (fail_if_no_progress with_reducible refine Keeps.rec_upd ?_ rfl rfl rfl rfl rfl)
    | (fail_if_no_progress dsimp only) | split)

theorem State.countBursts_keeps {r s : State} (h : Keeps r s) (a1 : ℕ) (a2 : List (ℕ × BurstRead)) : Keeps r (State.countBursts s a1 a2) := by
  unfold State.countBursts
  try dsimp only
  repeat' (first
    | with_reducible assumption | (with_reducible exact Keeps.refl _) | (with_reducible apply State.bumpH_keeps)
    | (with_reducible apply State.countUe_keeps) | (with_reducible apply Keeps.ite) | (with_reducible apply Keeps.foldl) | intro _ _ _
    | (fail_if_no_progress dsimp only) | split)

theorem State.lateEnter_keeps {r s : State} (h : Keeps r s) (a1 : ℕ) (a2 : ℕ) : Keeps r (State.lateEnter s a1 a2) := by
  unfold State.lateEnter
  try dsimp only
  repeat' (first
    | with_reducible assumption | (with_reducible exact Keeps.refl _) | (with_reducible apply State.updHbm_keeps)
    | (with_reducible refine Keeps.of_snd (by assumption) ?_) | (with_reducible refine Keeps.of_fst (by assumption) ?_)
    | (with_reducible apply Keeps.ite) | (fail_if_no_progress with_reducible refine Keeps.rec_upd ?_ rfl rfl rfl rfl rfl)
    | (fail_if_no_progress dsimp only) | split)

theorem State.settleWrite_keeps {r s : State} (h : Keeps r s) (a1 : ℕ) (a2 : ℕ) (a3 : ℕ) : Keeps r (State.settleWrite s a1 a2 a3) := by
  unfold State.settleWrite
  try dsimp only
  repeat' (first
    | with_reducible assumption | (with_reducible exact Keeps.refl _) | (with_reducible apply State.lateEnter_keeps)
    | (with_reducible apply State.updHbm_keeps) | (with_reducible apply Keeps.ite)
    | (fail_if_no_progress with_reducible refine Keeps.rec_upd ?_ rfl rfl rfl rfl rfl) | (fail_if_no_progress dsimp only) | split)

theorem State.endRmw_keeps {r s : State} (h : Keeps r s) (a1 : ℕ) (a2 : HReq) (a3 : List (ℕ × Fin 272)) : Keeps r (State.endRmw s a1 a2 a3) := by
  unfold State.endRmw
  try dsimp only
  repeat' (first
    | with_reducible assumption | (with_reducible exact Keeps.refl _) | (with_reducible apply State.countBursts_keeps)
    | (with_reducible apply State.settleWrite_keeps) | (with_reducible apply State.stackWrite_keeps) | (with_reducible apply Keeps.ite)
    | (fail_if_no_progress with_reducible refine Keeps.rec_upd ?_ rfl rfl rfl rfl rfl)
    | (fail_if_no_progress with_reducible refine Keeps.rec_wf ?_ rfl rfl (by first | exact id | exact memWf_memWrite _ _ | exact mwf_mblock _ _ | exact mwf_mdrop _ | exact fun _ => rfl) (by first | exact id | exact memWf_memWrite _ _ | exact mwf_mblock _ _ | exact mwf_mdrop _ | exact fun _ => rfl) (by first | exact id | exact memWf_memWrite _ _ | exact mwf_mblock _ _ | exact mwf_mdrop _ | exact fun _ => rfl))
    | (fail_if_no_progress dsimp only) | split)

theorem State.bayAttached_keeps {r s : State} (h : Keeps r s) (a1 : ℕ) (a2 : ℕ) : Keeps r (State.bayAttached s a1 a2) := by
  unfold State.bayAttached
  try dsimp only
  repeat' (first
    | with_reducible assumption | (with_reducible exact Keeps.refl _) | (with_reducible apply State.judgeWear_keeps)
    | (with_reducible apply State.setFlds_keeps) | (with_reducible apply State.updBay_keeps) | (with_reducible apply Keeps.ite)
    | (fail_if_no_progress with_reducible refine Keeps.rec_upd ?_ rfl rfl rfl rfl rfl) | (fail_if_no_progress dsimp only) | split)

theorem execRecheckTimeout_keeps {r s : State} (h : Keeps r s) (a0 : Fin 4) : KeepsR r (execRecheckTimeout a0 s) := by
  unfold execRecheckTimeout
  try dsimp only
  repeat' (first
    | with_reducible assumption | (with_reducible exact Keeps.refl _) | with_reducible apply KeepsR.ok | with_reducible apply KeepsR.ite
    | (with_reducible apply State.bayFails_keeps) | (with_reducible apply Keeps.ite) | (fail_if_no_progress dsimp only) | split)

theorem State.countWaits_keeps {r s : State} (h : Keeps r s) (a1 : ℕ) (a2 : ℕ) : Keeps r (State.countWaits s a1 a2) := by
  unfold State.countWaits
  try dsimp only
  repeat' (first
    | with_reducible assumption | (with_reducible exact Keeps.refl _) | (with_reducible apply State.bumpH_keeps)
    | (with_reducible apply State.updHbm_keeps) | (with_reducible apply Keeps.ite)
    | (fail_if_no_progress with_reducible refine Keeps.rec_upd ?_ rfl rfl rfl rfl rfl) | (fail_if_no_progress dsimp only) | split)

theorem execHeartbeatToggle_keeps {r s : State} (h : Keeps r s)  : KeepsR r (execHeartbeatToggle s) := by
  unfold execHeartbeatToggle
  try dsimp only
  repeat' (first
    | with_reducible assumption | (with_reducible exact Keeps.refl _) | with_reducible apply KeepsR.ok | with_reducible apply KeepsR.ite
    | (with_reducible apply State.emit_keeps) | (with_reducible apply Keeps.ite)
    | (fail_if_no_progress with_reducible refine Keeps.rec_upd ?_ rfl rfl rfl rfl rfl) | (fail_if_no_progress dsimp only) | split)

theorem State.askIdent_keeps {r s : State} (h : Keeps r s) (a1 : ℕ) : Keeps r (State.askIdent s a1) := by
  unfold State.askIdent
  try dsimp only
  repeat' (first
    | with_reducible assumption | (with_reducible exact Keeps.refl _) | (with_reducible apply State.bayOwn_keeps) | (with_reducible apply Keeps.ite)
    | (fail_if_no_progress dsimp only) | split)

theorem State.bayWake_keeps {r s : State} (h : Keeps r s) (a1 : ℕ) : Keeps r (State.bayWake s a1) := by
  unfold State.bayWake
  try dsimp only
  repeat' (first
    | with_reducible assumption | (with_reducible exact Keeps.refl _) | (with_reducible apply State.askIdent_keeps)
    | (with_reducible apply State.setFlds_keeps) | (with_reducible apply State.updBay_keeps) | (with_reducible apply Keeps.ite)
    | (fail_if_no_progress with_reducible refine Keeps.rec_upd ?_ rfl rfl rfl rfl rfl) | (fail_if_no_progress dsimp only) | split)

theorem State.chipSlow_keeps {r s : State} (h : Keeps r s)  : Keeps r (State.chipSlow s) := by
  unfold State.chipSlow
  try dsimp only
  repeat' (first
    | with_reducible assumption | (with_reducible exact Keeps.refl _) | (with_reducible apply State.emit_keeps)
    | (with_reducible apply State.logEntry_keeps) | (with_reducible apply State.recordCause_keeps) | (with_reducible apply State.setFld_keeps)
    | (with_reducible apply Keeps.ite) | (fail_if_no_progress with_reducible refine Keeps.rec_upd ?_ rfl rfl rfl rfl rfl)
    | (fail_if_no_progress dsimp only) | split)

theorem State.flushQueue_keeps {r s : State} (h : Keeps r s) (a1 : ℕ) (a2 : ℕ) (a3 : List (ℕ × List Byte)) (a4 : ℕ) : Keeps r (State.flushQueue s a1
    a2 a3 a4) := by
  induction a4 generalizing s with
  | zero =>
    unfold State.flushQueue
    try dsimp only
    repeat' (first
      | with_reducible assumption | (with_reducible exact Keeps.refl _) | (with_reducible apply State.putCompletion_keeps)
      | (with_reducible apply State.updQueue_keeps) | (with_reducible apply State.vreadFree_keeps)
      | (with_reducible refine Keeps.of_snd (by assumption) ?_) | (with_reducible refine Keeps.of_fst (by assumption) ?_)
      | (with_reducible apply Keeps.ite) | (fail_if_no_progress with_reducible refine Keeps.rec_upd ?_ rfl rfl rfl rfl rfl)
      | (fail_if_no_progress dsimp only) | split)
  | succ n ih =>
    unfold State.flushQueue
    try dsimp only
    repeat' (first
      | with_reducible apply ih | with_reducible assumption | (with_reducible exact Keeps.refl _) | (with_reducible apply State.putCompletion_keeps)
      | (with_reducible apply State.updQueue_keeps) | (with_reducible apply State.vreadFree_keeps)
      | (with_reducible refine Keeps.of_snd (by assumption) ?_) | (with_reducible refine Keeps.of_fst (by assumption) ?_)
      | (with_reducible apply Keeps.ite) | (fail_if_no_progress with_reducible refine Keeps.rec_upd ?_ rfl rfl rfl rfl rfl)
      | (fail_if_no_progress dsimp only) | split)

theorem State.freeContexts_keeps {r s : State} (h : Keeps r s) (a1 : List (ℕ × List Byte)) : Keeps r (State.freeContexts s a1) := by
  unfold State.freeContexts
  try dsimp only
  repeat' (first
    | with_reducible assumption | (with_reducible exact Keeps.refl _) | (with_reducible apply State.failQueues_keeps)
    | (with_reducible apply State.flushQueue_keeps) | (with_reducible apply Keeps.ite) | (with_reducible apply Keeps.foldl) | intro _ _ _
    | (fail_if_no_progress with_reducible refine Keeps.rec_upd ?_ rfl rfl rfl rfl rfl) | (fail_if_no_progress dsimp only) | split)

theorem State.bayChipReset_keeps {r s : State} (h : Keeps r s) (a1 : ℕ) : Keeps r (State.bayChipReset s a1) := by
  unfold State.bayChipReset
  try dsimp only
  repeat' (first
    | with_reducible assumption | (with_reducible exact Keeps.refl _) | (with_reducible apply State.bayAnswer_keeps)
    | (with_reducible apply State.bayMaintStop_keeps) | (with_reducible apply State.settleDetach_keeps)
    | (with_reducible apply State.showHeld_keeps) | (with_reducible apply State.updBay_keeps) | (with_reducible apply Keeps.ite)
    | (with_reducible apply Keeps.foldl) | intro _ _ _ | (fail_if_no_progress with_reducible refine Keeps.rec_upd ?_ rfl rfl rfl rfl rfl)
    | (fail_if_no_progress dsimp only) | split)

theorem State.wokenCar_keeps {r s : State} (h : Keeps r s) (a1 : List (Fin 26)) (a2 : ℕ) : Keeps r (State.wokenCar s a1 a2) := by
  unfold State.wokenCar
  try dsimp only
  repeat' (first
    | with_reducible assumption | (with_reducible exact Keeps.refl _) | (with_reducible apply State.bayWake_keeps)
    | (with_reducible apply State.linkDown_keeps) | (with_reducible apply State.setCarState_keeps) | (with_reducible apply State.setFld_keeps)
    | (with_reducible apply State.ungateCar_keeps) | (with_reducible apply State.updHbm_keeps) | (with_reducible apply Keeps.ite)
    | (with_reducible apply Keeps.foldl) | intro _ _ _ | (fail_if_no_progress with_reducible refine Keeps.rec_upd ?_ rfl rfl rfl rfl rfl)
    | (fail_if_no_progress dsimp only) | split)

theorem State.endNaps_keeps {r s : State} (h : Keeps r s)  : Keeps r (State.endNaps s) := by
  unfold State.endNaps
  try dsimp only
  repeat' (first
    | with_reducible assumption | (with_reducible exact Keeps.refl _) | (with_reducible apply State.emit_keeps)
    | (with_reducible apply State.setFld_keeps) | (with_reducible apply State.wokenCar_keeps) | (with_reducible apply Keeps.ite)
    | (with_reducible apply Keeps.foldl) | intro _ _ _ | (fail_if_no_progress with_reducible refine Keeps.rec_upd ?_ rfl rfl rfl rfl rfl)
    | (fail_if_no_progress dsimp only) | split)

theorem State.hbmChipReset_keeps {r s : State} (h : Keeps r s) (a1 : ℕ) : Keeps r (State.hbmChipReset s a1) := by
  unfold State.hbmChipReset
  try dsimp only
  repeat' (first
    | with_reducible assumption | (with_reducible exact Keeps.refl _) | (with_reducible apply State.selfRefresh_keeps)
    | (with_reducible apply State.stackWrite_keeps) | (with_reducible apply State.updHbm_keeps) | (with_reducible apply Keeps.ite)
    | (with_reducible apply Keeps.foldl) | intro _ _ _ | (fail_if_no_progress with_reducible refine Keeps.rec_upd ?_ rfl rfl rfl rfl rfl)
    | (fail_if_no_progress dsimp only) | split)

theorem State.holdCompute_keeps {r s : State} (h : Keeps r s) : Keeps r s.holdCompute := by
  unfold State.holdCompute
  extract_lets loading t s0 s1 s2 s3 s4 p5 s5
  have ht : Keeps r t := Keeps.ite (State.loadFail_keeps h _ _) h
  clear_value t
  have h0 : Keeps r s0 := State.endNaps_keeps (State.lockAbort_keeps (Keeps.ite (State.setFld_keeps ht _ _ _ _) ht) _)
  clear_value s0
  have h1 : Keeps r s1 := Keeps.foldl h0 (fun t x ht => State.hbmChipReset_keeps ht _)
  clear_value s1
  have h2 : Keeps r s2 := Keeps.foldl h1 (fun t x ht => State.fabricHeld_keeps (State.bayChipReset_keeps ht _) _ _)
  clear_value s2
  have h3 : Keeps r s3 := State.resetFields_keeps h2 _ _
  clear_value s3
  have h4 : Keeps r s4 := h3.trans ⟨rfl, fun _ => rfl, fun ⟨_, b, c⟩ => ⟨rfl, b, c⟩⟩
  have h5 : Keeps r s5 := h4.upd rfl rfl rfl rfl rfl
  exact Keeps.foldl (State.driveRein_keeps (State.setFld_keeps h5 _ _ _ _)) (fun t x ht => Keeps.ite ht (State.setCarState_keeps ht _ _))

theorem execChipReset_keeps {r s : State} (h : Keeps r s) (a0 : List (ℕ × List Byte)) : KeepsR r (execChipReset a0 s) := by
  unfold execChipReset
  try dsimp only
  repeat' (first
    | with_reducible assumption | (with_reducible exact Keeps.refl _) | with_reducible apply KeepsR.ok | with_reducible apply KeepsR.ite
    | (with_reducible apply State.bump_keeps) | (with_reducible apply State.chipSlow_keeps) | (with_reducible apply State.freeContexts_keeps)
    | (with_reducible apply State.holdCompute_keeps) | (with_reducible apply State.logEntry_keeps) | (with_reducible apply State.setFld_keeps)
    | (with_reducible refine Keeps.of_snd (by assumption) ?_) | (with_reducible refine Keeps.of_fst (by assumption) ?_)
    | (with_reducible apply Keeps.ite) | (fail_if_no_progress with_reducible refine Keeps.rec_upd ?_ rfl rfl rfl rfl rfl)
    | (fail_if_no_progress dsimp only) | split)

theorem State.noteTag_keeps {r s : State} (h : Keeps r s) (a1 : ℕ) (a2 : ℕ) (a3 : ℕ) : Keeps r (State.noteTag s a1 a2 a3) := by
  unfold State.noteTag
  try dsimp only
  repeat' (first
    | with_reducible assumption | (with_reducible exact Keeps.refl _) | (with_reducible apply State.updMod_keeps) | (with_reducible apply Keeps.ite)
    | (fail_if_no_progress with_reducible refine Keeps.rec_upd ?_ rfl rfl rfl rfl rfl) | (fail_if_no_progress dsimp only) | split)

theorem State.bayMaintEnd_keeps {r s : State} (h : Keeps r s) (a1 : ℕ) (a2 : Bool) : Keeps r (State.bayMaintEnd s a1 a2) := by
  unfold State.bayMaintEnd
  try dsimp only
  repeat' (first
    | with_reducible assumption | (with_reducible exact Keeps.refl _) | (with_reducible apply State.bayEvent_keeps)
    | (with_reducible apply State.mntEnd_keeps) | (with_reducible apply State.setFld_keeps) | (with_reducible apply State.setFlds_keeps)
    | (with_reducible apply State.updBay_keeps) | (with_reducible apply Keeps.ite)
    | (fail_if_no_progress with_reducible refine Keeps.rec_upd ?_ rfl rfl rfl rfl rfl) | (fail_if_no_progress dsimp only) | split)

theorem State.refreshBank_keeps {r s : State} (h : Keeps r s) (a1 : ℕ) (a2 : ℕ) (a3 : ℕ) : Keeps r (State.refreshBank s a1 a2 a3) := by
  unfold State.refreshBank
  try dsimp only
  repeat' (first
    | with_reducible assumption | (with_reducible exact Keeps.refl _) | (with_reducible apply State.precharge_keeps)
    | (with_reducible apply State.updHbm_keeps) | (with_reducible apply Keeps.ite)
    | (fail_if_no_progress with_reducible refine Keeps.rec_upd ?_ rfl rfl rfl rfl rfl) | (fail_if_no_progress dsimp only) | split)

theorem execRefreshDue_keeps {r s : State} (h : Keeps r s) (a0 : Fin 8) (a1 : Fin 64) (a2 : Fin 64) : KeepsR r (execRefreshDue a0 a1 a2 s) := by
  unfold execRefreshDue
  try dsimp only
  repeat' (first
    | with_reducible assumption | (with_reducible exact Keeps.refl _) | with_reducible apply KeepsR.ok | with_reducible apply KeepsR.ite
    | (with_reducible apply State.refreshBank_keeps) | (with_reducible apply State.updHbm_keeps) | (with_reducible apply Keeps.ite)
    | (fail_if_no_progress with_reducible refine Keeps.rec_upd ?_ rfl rfl rfl rfl rfl) | (fail_if_no_progress dsimp only) | split)

theorem State.payRefresh_keeps {r s : State} (h : Keeps r s) (a1 : ℕ) (a2 : ℕ) : Keeps r (State.payRefresh s a1 a2) := by
  unfold State.payRefresh
  try dsimp only
  repeat' (first
    | with_reducible assumption | (with_reducible exact Keeps.refl _) | (with_reducible apply State.refreshBank_keeps)
    | (with_reducible apply Keeps.ite) | (with_reducible apply Keeps.foldl) | intro _ _ _ | (fail_if_no_progress dsimp only) | split)

theorem execCoachUngate_keeps {r s : State} (h : Keeps r s) (a0 : Coach) : KeepsR r (execCoachUngate a0 s) := by
  unfold execCoachUngate
  try dsimp only
  repeat' (first
    | with_reducible assumption | (with_reducible exact Keeps.refl _) | with_reducible apply KeepsR.ok | with_reducible apply KeepsR.ite
    | (with_reducible apply State.ungate_keeps) | (with_reducible apply Keeps.ite) | (fail_if_no_progress dsimp only) | split)

theorem State.bayRemoved_keeps {r s : State} (h : Keeps r s) (a1 : ℕ) : Keeps r (State.bayRemoved s a1) := by
  unfold State.bayRemoved
  try dsimp only
  repeat' (first
    | with_reducible assumption | (with_reducible exact Keeps.refl _) | (with_reducible apply State.bayMaintEnd_keeps)
    | (with_reducible apply State.setFld_keeps) | (with_reducible apply State.updBay_keeps) | (with_reducible apply Keeps.ite)
    | (fail_if_no_progress with_reducible refine Keeps.rec_upd ?_ rfl rfl rfl rfl rfl) | (fail_if_no_progress dsimp only) | split)

theorem execPowerBlockTimeout_keeps {r s : State} (h : Keeps r s)  : KeepsR r (execPowerBlockTimeout s) := by
  unfold execPowerBlockTimeout
  try dsimp only
  repeat' (first
    | with_reducible assumption | (with_reducible exact Keeps.refl _) | with_reducible apply KeepsR.ok | with_reducible apply KeepsR.ite
    | (with_reducible apply State.pwrRefuse_keeps) | (with_reducible refine Keeps.of_snd (by assumption) ?_)
    | (with_reducible refine Keeps.of_fst (by assumption) ?_) | (with_reducible apply Keeps.ite) | (fail_if_no_progress dsimp only) | split)

theorem State.modTakes_keeps {r s : State} (h : Keeps r s) (a1 : ℕ) (a2 : List ℕ) (a3 : List ℕ) {t : _ × State} (hq : State.modTakes s a1 a2 a3 =
    some t) : Keeps r t.2 := by
  simp only [State.modTakes] at hq
  repeat' (first
    | contradiction | (obtain rfl := Option.some.inj hq) | (split at hq) | with_reducible assumption | (with_reducible exact Keeps.refl _)
    | (with_reducible apply State.updBay_keeps) | (with_reducible refine Keeps.of_snd (by assumption) ?_)
    | (with_reducible refine Keeps.of_fst (by assumption) ?_) | (with_reducible apply Keeps.ite)
    | (fail_if_no_progress with_reducible refine Keeps.rec_upd ?_ rfl rfl rfl rfl rfl) | (fail_if_no_progress dsimp only) | split)

theorem execModuleMaint_keeps {r s : State} (h : Keeps r s) (a0 : Fin 4) (a1 : List ℕ) (a2 : Bool) (a3 : ℕ) (a4 : ℕ) (a5 : Bool) (a6 : Bool) :
    KeepsR r (execModuleMaint a0 a1 a2 a3 a4 a5 a6 s) := by
  unfold execModuleMaint
  try dsimp only
  repeat' (first
    | with_reducible assumption | (with_reducible exact Keeps.refl _) | with_reducible apply KeepsR.ok | with_reducible apply KeepsR.ite
    | (with_reducible apply State.modAnswer_keeps) | (with_reducible apply State.modWear_keeps) | (with_reducible apply State.noteTag_keeps)
    | (with_reducible apply State.updMod_keeps) | (with_reducible refine State.modTakes_keeps ?_ _ _ _ (by assumption))
    | (with_reducible refine Keeps.of_snd (by assumption) ?_) | (with_reducible refine Keeps.of_fst (by assumption) ?_)
    | (with_reducible apply Keeps.ite) | (fail_if_no_progress with_reducible refine Keeps.rec_upd ?_ rfl rfl rfl rfl rfl)
    | (fail_if_no_progress dsimp only) | split)

theorem State.dropAcc_keeps {r s : State} (h : Keeps r s) (a1 : ℕ) (a2 : BayAcc) : Keeps r (State.dropAcc s a1 a2) := by
  unfold State.dropAcc
  try dsimp only
  repeat' (first
    | with_reducible assumption | (with_reducible exact Keeps.refl _) | (with_reducible apply State.updBay_keeps) | (with_reducible apply Keeps.ite)
    | (fail_if_no_progress with_reducible refine Keeps.rec_upd ?_ rfl rfl rfl rfl rfl) | (fail_if_no_progress dsimp only) | split)

theorem State.maintAck_keeps {r s : State} (h : Keeps r s) (a1 : ℕ) (a2 : BayAcc) (a3 : Bool) : Keeps r (State.maintAck s a1 a2 a3) := by
  unfold State.maintAck
  try dsimp only
  repeat' (first
    | with_reducible assumption | (with_reducible exact Keeps.refl _) | (with_reducible apply State.bayMaintEnd_keeps)
    | (with_reducible apply State.dropAcc_keeps) | (with_reducible apply Keeps.ite) | (fail_if_no_progress dsimp only) | split)

theorem State.answerReady_keeps {r s : State} (h : Keeps r s) (a1 : ℕ) : Keeps r (State.answerReady s a1) := by
  unfold State.answerReady
  try dsimp only
  repeat' (first
    | with_reducible assumption | (with_reducible exact Keeps.refl _) | (with_reducible apply State.bayAnswer_keeps)
    | (with_reducible apply State.settleDetach_keeps) | (with_reducible apply State.updBay_keeps) | (with_reducible apply Keeps.ite)
    | (with_reducible apply Keeps.foldl) | intro _ _ _ | (fail_if_no_progress with_reducible refine Keeps.rec_upd ?_ rfl rfl rfl rfl rfl)
    | (fail_if_no_progress dsimp only) | split)

theorem State.partDone_keeps {r s : State} (h : Keeps r s) (a1 : ℕ) (a2 : BayAcc) (a3 : ℕ) (a4 : List ℕ) : Keeps r (State.partDone s a1 a2 a3 a4) :=
    by
  unfold State.partDone
  try dsimp only
  repeat' (first
    | with_reducible assumption | (with_reducible exact Keeps.refl _) | (with_reducible apply State.answerReady_keeps)
    | (with_reducible apply State.dropAcc_keeps) | (with_reducible apply State.updBay_keeps) | (with_reducible apply Keeps.ite)
    | (fail_if_no_progress with_reducible refine Keeps.rec_upd ?_ rfl rfl rfl rfl rfl) | (fail_if_no_progress dsimp only) | split)

theorem execTenderAck_keeps {r s : State} (h : Keeps r s) (a0 : Fin 4) (a1 : List ℕ) : KeepsR r (execTenderAck a0 a1 s) := by
  unfold execTenderAck
  try dsimp only
  repeat' (first
    | with_reducible assumption | (with_reducible exact Keeps.refl _) | with_reducible apply KeepsR.ok | with_reducible apply KeepsR.ite
    | (with_reducible apply State.bayAttached_keeps) | (with_reducible apply State.dropAcc_keeps) | (with_reducible apply State.maintAck_keeps)
    | (with_reducible apply State.partDone_keeps) | (with_reducible apply State.setFld_keeps) | (with_reducible apply State.updBay_keeps)
    | (with_reducible apply State.wrapAdd_keeps) | (with_reducible refine Keeps.of_snd (by assumption) ?_)
    | (with_reducible refine Keeps.of_fst (by assumption) ?_) | (with_reducible apply Keeps.ite)
    | (fail_if_no_progress with_reducible refine Keeps.rec_upd ?_ rfl rfl rfl rfl rfl) | (fail_if_no_progress dsimp only) | split)

theorem State.latchPads_keeps {r s : State} (h : Keeps r s) (a1 : ℕ) : Keeps r (State.latchPads s a1) := by
  unfold State.latchPads
  try dsimp only
  repeat' (first
    | with_reducible assumption | (with_reducible exact Keeps.refl _) | (with_reducible apply State.setFld_keeps)
    | (with_reducible apply State.updFab_keeps) | (with_reducible apply Keeps.ite) | (with_reducible apply Keeps.foldl) | intro _ _ _
    | (fail_if_no_progress with_reducible refine Keeps.rec_upd ?_ rfl rfl rfl rfl rfl) | (fail_if_no_progress dsimp only) | split)

theorem State.napCar_keeps {r s : State} (h : Keeps r s) (a1 : ℕ) : Keeps r (State.napCar s a1) := by
  unfold State.napCar
  try dsimp only
  repeat' (first
    | with_reducible assumption | (with_reducible exact Keeps.refl _) | (with_reducible apply State.emit_keeps)
    | (with_reducible apply State.latchPads_keeps) | (with_reducible apply State.selfRefresh_keeps) | (with_reducible apply State.setCarState_keeps)
    | (with_reducible apply State.setFld_keeps) | (with_reducible apply Keeps.ite) | (with_reducible apply Keeps.foldl) | intro _ _ _
    | (fail_if_no_progress dsimp only) | split)

theorem State.railsOff_keeps {r s : State} (h : Keeps r s) : Keeps r s.railsOff := by
  unfold State.railsOff
  apply State.setMhz_keeps
  have h1 : Keeps r (((List.range s.pm.rails).reverse).foldl (fun t i => t.emit (.rail i false)) s) := Keeps.foldl h (fun t x ht => State.emit_keeps ht _)
  refine (Keeps.foldl (l := List.range 4) (f := fun t c => (t.setFld (lockFld c) 0 0 0).setCarState c 4) h1
    (fun t x ht => State.setCarState_keeps (State.setFld_keeps ht _ _ _ _) _ _)).trans ⟨rfl, fun _ => rfl, fun ⟨a, _, c⟩ => ⟨a, rfl, c⟩⟩

theorem State.stopShown_keeps {r s : State} (h : Keeps r s)  : Keeps r (State.stopShown s) := by
  unfold State.stopShown
  try dsimp only
  repeat' (first
    | with_reducible assumption | (with_reducible exact Keeps.refl _) | (with_reducible apply State.setMhz_keeps) | (with_reducible apply Keeps.ite)
    | (fail_if_no_progress dsimp only) | split)

theorem State.secondPhase_keeps {r s : State} (h : Keeps r s) (a1 : ℕ) (a2 : ℕ) : Keeps r (State.secondPhase s a1 a2) := by
  unfold State.secondPhase
  try dsimp only
  repeat' (first
    | with_reducible assumption | (with_reducible exact Keeps.refl _) | (with_reducible apply State.napCar_keeps)
    | (with_reducible apply State.pwrEvent_keeps) | (with_reducible apply State.railsOff_keeps) | (with_reducible apply State.setCarState_keeps)
    | (with_reducible apply State.setFld_keeps) | (with_reducible apply State.stopShown_keeps) | (with_reducible apply Keeps.ite)
    | (with_reducible apply Keeps.foldl) | intro _ _ _ | (fail_if_no_progress with_reducible refine Keeps.rec_upd ?_ rfl rfl rfl rfl rfl)
    | (fail_if_no_progress dsimp only) | split)

theorem execPowerBlockAnswer_keeps {r s : State} (h : Keeps r s) (a0 : BitVec 4) : KeepsR r (execPowerBlockAnswer a0 s) := by
  unfold execPowerBlockAnswer
  try dsimp only
  repeat' (first
    | with_reducible assumption | (with_reducible exact Keeps.refl _) | with_reducible apply KeepsR.ok | with_reducible apply KeepsR.ite
    | (with_reducible apply State.gateCar_keeps) | (with_reducible apply State.pwrRefuse_keeps) | (with_reducible apply State.secondPhase_keeps)
    | (with_reducible apply State.setFlag_keeps) | (with_reducible refine Keeps.of_snd (by assumption) ?_)
    | (with_reducible refine Keeps.of_fst (by assumption) ?_) | (with_reducible apply Keeps.ite) | (with_reducible apply Keeps.foldl) | intro _ _ _
    | (fail_if_no_progress with_reducible refine Keeps.rec_upd ?_ rfl rfl rfl rfl rfl) | (fail_if_no_progress dsimp only) | split)

theorem State.endRead_keeps {r s : State} (h : Keeps r s) (a1 : ℕ) (a2 : HReq) (a3 : List (ℕ × Fin 272)) : Keeps r (State.endRead s a1 a2 a3) := by
  unfold State.endRead
  try dsimp only
  repeat' (first
    | with_reducible assumption | (with_reducible exact Keeps.refl _) | (with_reducible apply State.countBursts_keeps)
    | (with_reducible apply State.respond_keeps) | (with_reducible apply Keeps.ite) | (fail_if_no_progress dsimp only) | split)

theorem execHbmReadData_keeps {r s : State} (h : Keeps r s) (a0 : Fin 8) (a1 : List (ℕ × Fin 272)) : KeepsR r (execHbmReadData a0 a1 s) := by
  unfold execHbmReadData
  try dsimp only
  repeat' (first
    | with_reducible assumption | (with_reducible exact Keeps.refl _) | with_reducible apply KeepsR.ok | with_reducible apply KeepsR.ite
    | (with_reducible apply State.endRead_keeps) | (with_reducible apply State.endRmw_keeps) | (with_reducible apply State.updHbm_keeps)
    | (with_reducible refine Keeps.of_snd (by assumption) ?_) | (with_reducible refine Keeps.of_fst (by assumption) ?_)
    | (with_reducible apply Keeps.ite) | (fail_if_no_progress with_reducible refine Keeps.rec_upd ?_ rfl rfl rfl rfl rfl)
    | (fail_if_no_progress dsimp only) | split)

theorem execLockLossTimeout_keeps {r s : State} (h : Keeps r s) (a0 : Fin 4) : KeepsR r (execLockLossTimeout a0 s) := by
  unfold execLockLossTimeout
  try dsimp only
  repeat' (first
    | with_reducible assumption | (with_reducible exact Keeps.refl _) | with_reducible apply KeepsR.ok | with_reducible apply KeepsR.ite
    | (with_reducible apply State.bayFails_keeps) | (with_reducible apply Keeps.ite) | (fail_if_no_progress dsimp only) | split)

theorem execTenderMaintLimit_keeps {r s : State} (h : Keeps r s) (a0 : Fin 4) : KeepsR r (execTenderMaintLimit a0 s) := by
  unfold execTenderMaintLimit
  try dsimp only
  repeat' (first
    | with_reducible assumption | (with_reducible exact Keeps.refl _) | with_reducible apply KeepsR.ok | with_reducible apply KeepsR.ite
    | (with_reducible apply State.bayMaintStop_keeps) | (with_reducible apply Keeps.ite) | (fail_if_no_progress dsimp only) | split)

theorem execPfwEnd_keeps {r s : State} (h : Keeps r s)  : KeepsR r (execPfwEnd s) := by
  unfold execPfwEnd
  try dsimp only
  repeat' (first
    | with_reducible assumption | (with_reducible exact Keeps.refl _) | with_reducible apply KeepsR.ok | with_reducible apply KeepsR.ite
    | (with_reducible apply State.arbStep_keeps) | (with_reducible apply State.logEntry_keeps) | (with_reducible apply State.sendUnsent_keeps)
    | (with_reducible apply State.setFld_keeps) | (with_reducible apply Keeps.ite) | (with_reducible apply Keeps.foldl) | intro _ _ _
    | (fail_if_no_progress dsimp only) | split)

theorem execHangSample_keeps {r s : State} (h : Keeps r s)  : KeepsR r (execHangSample s) := by
  unfold execHangSample
  try dsimp only
  repeat' (first
    | with_reducible assumption | (with_reducible exact Keeps.refl _) | with_reducible apply KeepsR.ok | with_reducible apply KeepsR.ite
    | (with_reducible apply Keeps.ite) | (with_reducible apply Keeps.foldl) | intro _ _ _
    | (fail_if_no_progress with_reducible refine Keeps.rec_upd ?_ rfl rfl rfl rfl rfl) | (fail_if_no_progress dsimp only) | split)

theorem execAvsTimeout_keeps {r s : State} (h : Keeps r s) (a0 : Car) : KeepsR r (execAvsTimeout a0 s) := by
  unfold execAvsTimeout
  try dsimp only
  repeat' (first
    | with_reducible assumption | (with_reducible exact Keeps.refl _) | with_reducible apply KeepsR.ok | with_reducible apply KeepsR.ite
    | (with_reducible apply State.avsDone_keeps) | (with_reducible apply State.emit_keeps) | (with_reducible apply State.profEnd_keeps)
    | (with_reducible apply State.pwrEvent_keeps) | (with_reducible apply State.setFld_keeps) | (with_reducible apply State.setFlds_keeps)
    | (with_reducible refine Keeps.of_snd (by assumption) ?_) | (with_reducible refine Keeps.of_fst (by assumption) ?_)
    | (with_reducible apply Keeps.ite) | (with_reducible apply Keeps.foldl) | intro _ _ _
    | (fail_if_no_progress with_reducible refine Keeps.rec_upd ?_ rfl rfl rfl rfl rfl) | (fail_if_no_progress dsimp only) | split)

theorem execWakeNAssert_keeps {r s : State} (h : Keeps r s)  : KeepsR r (execWakeNAssert s) := by
  unfold execWakeNAssert
  try dsimp only
  repeat' (first
    | with_reducible assumption | (with_reducible exact Keeps.refl _) | with_reducible apply KeepsR.ok | with_reducible apply KeepsR.ite
    | (with_reducible apply State.wakeCars_keeps) | (with_reducible apply State.wakeS3_keeps) | (with_reducible apply Keeps.ite)
    | (fail_if_no_progress dsimp only) | split)

/-- Writes of bytes one after the other keep the canonical form of a memory. -/
theorem memWf_writes {α : Type} (f : α → Nat) (g : α → List Nat) (l : List α) {m : List Host.Cell} (h : memWf m = true) :
    memWf (l.foldl (fun m x => memWrite m (f x) (g x)) m) = true := by
  induction l generalizing m with
  | nil => exact h
  | cons x l ih => exact ih (memWf_memWrite _ _ h)

theorem State.bayInserted_keeps {r s : State} (h : Keeps r s) (b : Nat) (m : Option ModIn) : Keeps r (s.bayInserted b m) := by
  unfold State.bayInserted
  extract_lets s1
  have h1 : Keeps r s1 := State.updBay_keeps (State.setFld_keeps h _ _ _ _) _ _
  clear_value s1
  split
  · exact State.updMod_keeps h1 _ _
  · apply State.updMod_keeps
    refine h1.trans ⟨rfl, fun _ => rfl, fun ⟨a, b, c⟩ => ⟨a, b, memWf_writes _ _ _ ?_⟩⟩
    split
    · exact c
    · exact mwf_mdrop _ c

theorem execPresenceSettled_keeps {r s : State} (h : Keeps r s) (a0 : Fin 4) (a1 : Bool) (a2 : Option ModIn) : KeepsR r (execPresenceSettled a0 a1
    a2 s) := by
  unfold execPresenceSettled
  try dsimp only
  repeat' (first
    | with_reducible assumption | (with_reducible exact Keeps.refl _) | with_reducible apply KeepsR.ok | with_reducible apply KeepsR.ite
    | (with_reducible apply State.askIdent_keeps) | (with_reducible apply State.bayEvent_keeps) | (with_reducible apply State.bayInserted_keeps)
    | (with_reducible apply State.bayRemoved_keeps) | (with_reducible apply State.setFld_keeps) | (with_reducible apply State.showHeld_keeps)
    | (with_reducible apply Keeps.ite) | (fail_if_no_progress dsimp only) | split)

theorem State.mirrorJournal_keeps {r s : State} (h : Keeps r s) (a1 : ℕ) (a2 : Packet) : Keeps r (State.mirrorJournal s a1 a2).2 := by
  unfold State.mirrorJournal
  try dsimp only
  repeat' (first
    | with_reducible assumption | (with_reducible exact Keeps.refl _) | (with_reducible apply State.mirrorSend_keeps)
    | (with_reducible refine Keeps.of_snd (by assumption) ?_) | (with_reducible refine Keeps.of_fst (by assumption) ?_)
    | (with_reducible apply Keeps.ite) | (with_reducible apply Keeps.foldl) | (with_reducible apply Keeps.foldl_fst)
    | (with_reducible apply Keeps.foldl_snd) | intro _ _ _ | (fail_if_no_progress with_reducible refine Keeps.rec_upd ?_ rfl rfl rfl rfl rfl)
    | (fail_if_no_progress with_reducible refine Keeps.rec_wf ?_ rfl rfl (by first | exact id | exact memWf_memWrite _ _ | exact mwf_mblock _ _ | exact mwf_mdrop _ | exact fun _ => rfl) (by first | exact id | exact memWf_memWrite _ _ | exact mwf_mblock _ _ | exact mwf_mdrop _ | exact fun _ => rfl) (by first | exact id | exact memWf_memWrite _ _ | exact mwf_mblock _ _ | exact mwf_mdrop _ | exact fun _ => rfl))
    | (fail_if_no_progress dsimp only) | split)

theorem State.acceptReq_keeps {r s : State} (h : Keeps r s) (a1 : ℕ) (a2 : Packet) (a3 : Bool) : Keeps r (State.acceptReq s a1 a2 a3) := by
  unfold State.acceptReq
  try dsimp only
  repeat' (first
    | with_reducible assumption | (with_reducible exact Keeps.refl _) | (with_reducible apply State.mirrorJournal_keeps)
    | (with_reducible apply State.sendUnsent_keeps) | (with_reducible apply State.showHeld_keeps) | (with_reducible apply State.updBay_keeps)
    | (with_reducible refine Keeps.of_snd (by assumption) ?_) | (with_reducible refine Keeps.of_fst (by assumption) ?_)
    | (with_reducible apply Keeps.ite) | (with_reducible apply Keeps.foldl) | intro _ _ _
    | (fail_if_no_progress with_reducible refine Keeps.rec_upd ?_ rfl rfl rfl rfl rfl) | (fail_if_no_progress dsimp only) | split)

theorem execTenderNotice_keeps {r s : State} (h : Keeps r s) (a0 : Fin 4) (a1 : List ℕ) : KeepsR r (execTenderNotice a0 a1 s) := by
  unfold execTenderNotice
  try dsimp only
  repeat' (first
    | with_reducible assumption | (with_reducible exact Keeps.refl _) | with_reducible apply KeepsR.ok | with_reducible apply KeepsR.ite
    | (with_reducible apply State.takeWear_keeps) | (with_reducible apply State.updBay_keeps)
    | (with_reducible refine Keeps.of_snd (by assumption) ?_) | (with_reducible refine Keeps.of_fst (by assumption) ?_)
    | (with_reducible apply Keeps.ite) | (fail_if_no_progress with_reducible refine Keeps.rec_upd ?_ rfl rfl rfl rfl rfl)
    | (fail_if_no_progress dsimp only) | split)

theorem execSchedHeartbeat_keeps {r s : State} (h : Keeps r s)  : KeepsR r (execSchedHeartbeat s) := by
  unfold execSchedHeartbeat
  try dsimp only
  repeat' (first
    | with_reducible assumption | (with_reducible exact Keeps.refl _) | with_reducible apply KeepsR.ok | with_reducible apply KeepsR.ite
    | (with_reducible apply Keeps.ite) | (fail_if_no_progress with_reducible refine Keeps.rec_upd ?_ rfl rfl rfl rfl rfl)
    | (fail_if_no_progress dsimp only) | split)

theorem execTenderResendTimeout_keeps {r s : State} (h : Keeps r s) (a0 : Fin 4) (a1 : Fin 1024) : KeepsR r (execTenderResendTimeout a0 a1 s) := by
  unfold execTenderResendTimeout
  try dsimp only
  repeat' (first
    | with_reducible assumption | (with_reducible exact Keeps.refl _) | with_reducible apply KeepsR.ok | with_reducible apply KeepsR.ite
    | (with_reducible apply State.bayFails_keeps) | (with_reducible apply State.updBay_keeps)
    | (with_reducible refine Keeps.of_snd (by assumption) ?_) | (with_reducible refine Keeps.of_fst (by assumption) ?_)
    | (with_reducible apply Keeps.ite) | (fail_if_no_progress with_reducible refine Keeps.rec_upd ?_ rfl rfl rfl rfl rfl)
    | (fail_if_no_progress dsimp only) | split)

theorem State.serve_keeps {r s : State} (h : Keeps r s) (a1 : ℕ) (a2 : ℕ) (a3 : HReq) : Keeps r (State.serve s a1 a2 a3) := by
  unfold State.serve
  try dsimp only
  repeat' (first
    | with_reducible assumption | (with_reducible exact Keeps.refl _) | (with_reducible apply State.activate_keeps)
    | (with_reducible apply State.settleWrite_keeps) | (with_reducible apply State.stackWrite_keeps) | (with_reducible apply State.updHbm_keeps)
    | (with_reducible refine Keeps.of_snd (by assumption) ?_) | (with_reducible refine Keeps.of_fst (by assumption) ?_)
    | (with_reducible apply Keeps.ite) | (fail_if_no_progress with_reducible refine Keeps.rec_upd ?_ rfl rfl rfl rfl rfl)
    | (fail_if_no_progress dsimp only) | split)

theorem execWakeComplete_keeps {r s : State} (h : Keeps r s) (a0 : List (Fin 26)) : KeepsR r (execWakeComplete a0 s) := by
  unfold execWakeComplete
  try dsimp only
  repeat' (first
    | with_reducible assumption | (with_reducible exact Keeps.refl _) | with_reducible apply KeepsR.ok | with_reducible apply KeepsR.ite
    | (with_reducible apply State.arbStep_keeps) | (with_reducible apply State.pwrEvent_keeps) | (with_reducible apply State.setFld_keeps)
    | (with_reducible apply State.setMhz_keeps) | (with_reducible apply State.wokenCar_keeps) | (with_reducible apply Keeps.ite)
    | (with_reducible apply Keeps.foldl) | intro _ _ _ | (fail_if_no_progress dsimp only) | split)

theorem execRefreshSlot_keeps {r s : State} (h : Keeps r s) (a0 : Fin 8) : KeepsR r (execRefreshSlot a0 s) := by
  unfold execRefreshSlot
  try dsimp only
  repeat' (first
    | with_reducible assumption | (with_reducible exact Keeps.refl _) | with_reducible apply KeepsR.ok | with_reducible apply KeepsR.ite
    | (with_reducible apply State.refreshAll_keeps) | (with_reducible apply Keeps.ite) | (fail_if_no_progress dsimp only) | split)

theorem execThrottleStep_keeps {r s : State} (h : Keeps r s) (a0 : BitVec 16) (a1 : BitVec 8) : KeepsR r (execThrottleStep a0 a1 s) := by
  unfold execThrottleStep
  try dsimp only
  repeat' (first
    | with_reducible assumption | (with_reducible exact Keeps.refl _) | with_reducible apply KeepsR.ok | with_reducible apply KeepsR.ite
    | (with_reducible apply State.lockAbort_keeps) | (with_reducible apply State.setFlds_keeps) | (with_reducible apply State.setMhz_keeps)
    | (with_reducible apply Keeps.ite) | (fail_if_no_progress with_reducible refine Keeps.rec_upd ?_ rfl rfl rfl rfl rfl)
    | (fail_if_no_progress dsimp only) | split)

theorem execModuleSeal_keeps {r s : State} (h : Keeps r s) (a0 : Fin 4) (a1 : List ℕ) (a2 : Bool) : KeepsR r (execModuleSeal a0 a1 a2 s) := by
  unfold execModuleSeal
  try dsimp only
  repeat' (first
    | with_reducible assumption | (with_reducible exact Keeps.refl _) | with_reducible apply KeepsR.ok | with_reducible apply KeepsR.ite
    | (with_reducible apply State.modAnswer_keeps) | (with_reducible apply State.noteTag_keeps) | (with_reducible apply State.updMod_keeps)
    | (with_reducible refine State.modTakes_keeps ?_ _ _ _ (by assumption)) | (with_reducible refine Keeps.of_snd (by assumption) ?_)
    | (with_reducible refine Keeps.of_fst (by assumption) ?_) | (with_reducible apply Keeps.ite)
    | (fail_if_no_progress with_reducible refine Keeps.rec_upd ?_ rfl rfl rfl rfl rfl) | (fail_if_no_progress dsimp only) | split)

theorem execProfileChangeDone_keeps {r s : State} (h : Keeps r s)  : KeepsR r (execProfileChangeDone s) := by
  unfold execProfileChangeDone
  try dsimp only
  repeat' (first
    | with_reducible assumption | (with_reducible exact Keeps.refl _) | with_reducible apply KeepsR.ok | with_reducible apply KeepsR.ite
    | (with_reducible apply State.avsWrite_keeps) | (with_reducible apply State.profEnd_keeps) | (with_reducible apply State.setFld_keeps)
    | (with_reducible apply State.setMhz_keeps) | (with_reducible refine Keeps.of_snd (by assumption) ?_)
    | (with_reducible refine Keeps.of_fst (by assumption) ?_) | (with_reducible apply Keeps.ite) | (with_reducible apply Keeps.foldl) | intro _ _ _
    | (fail_if_no_progress with_reducible refine Keeps.rec_upd ?_ rfl rfl rfl rfl rfl) | (fail_if_no_progress dsimp only) | split)

theorem execModuleRead_keeps {r s : State} (h : Keeps r s) (a0 : Fin 4) (a1 : List ℕ) (a2 : Bool) : KeepsR r (execModuleRead a0 a1 a2 s) := by
  unfold execModuleRead
  try dsimp only
  repeat' (first
    | with_reducible assumption | (with_reducible exact Keeps.refl _) | with_reducible apply KeepsR.ok | with_reducible apply KeepsR.ite
    | (with_reducible apply State.modAnswer_keeps) | (with_reducible apply State.noteTag_keeps)
    | (with_reducible refine State.modTakes_keeps ?_ _ _ _ (by assumption)) | (with_reducible refine Keeps.of_snd (by assumption) ?_)
    | (with_reducible refine Keeps.of_fst (by assumption) ?_) | (with_reducible apply Keeps.ite) | (fail_if_no_progress dsimp only) | split)

theorem execStackTempChange_keeps {r s : State} (h : Keeps r s) (a0 : Fin 8) (a1 : Bool) : KeepsR r (execStackTempChange a0 a1 s) := by
  unfold execStackTempChange
  try dsimp only
  repeat' (first
    | with_reducible assumption | (with_reducible exact Keeps.refl _) | with_reducible apply KeepsR.ok | with_reducible apply KeepsR.ite
    | (with_reducible apply State.lockAbort_keeps) | (with_reducible apply State.setHfld_keeps) | (with_reducible apply Keeps.ite)
    | (fail_if_no_progress dsimp only) | split)

theorem execFcQueuesEmpty_keeps {r s : State} (h : Keeps r s) (a0 : Fin 8) : KeepsR r (execFcQueuesEmpty a0 s) := by
  unfold execFcQueuesEmpty
  try dsimp only
  repeat' (first
    | with_reducible assumption | (with_reducible exact Keeps.refl _) | with_reducible apply KeepsR.ok | with_reducible apply KeepsR.ite
    | (with_reducible apply State.refreshAll_keeps) | (with_reducible apply State.selfRefresh_keeps) | (with_reducible apply State.updHbm_keeps)
    | (with_reducible apply Keeps.ite) | (fail_if_no_progress with_reducible refine Keeps.rec_upd ?_ rfl rfl rfl rfl rfl)
    | (fail_if_no_progress dsimp only) | split)

theorem State.schedulePc_keeps {r s : State} (h : Keeps r s) (a1 : ℕ) (a2 : ℕ) : Keeps r (State.schedulePc s a1 a2) := by
  unfold State.schedulePc
  try dsimp only
  repeat' (first
    | with_reducible assumption | (with_reducible exact Keeps.refl _) | (with_reducible apply State.countWaits_keeps)
    | (with_reducible apply State.payRefresh_keeps) | (with_reducible apply State.serve_keeps)
    | (with_reducible refine Keeps.of_snd (by assumption) ?_) | (with_reducible refine Keeps.of_fst (by assumption) ?_)
    | (with_reducible apply Keeps.ite) | (fail_if_no_progress dsimp only) | split)

theorem execHbmSchedule_keeps {r s : State} (h : Keeps r s) (a0 : Fin 8) : KeepsR r (execHbmSchedule a0 s) := by
  unfold execHbmSchedule
  try dsimp only
  repeat' (first
    | with_reducible assumption | (with_reducible exact Keeps.refl _) | with_reducible apply KeepsR.ok | with_reducible apply KeepsR.ite
    | (with_reducible apply State.schedulePc_keeps) | (with_reducible apply State.updHbm_keeps) | (with_reducible apply Keeps.ite)
    | (with_reducible apply Keeps.foldl) | intro _ _ _ | (fail_if_no_progress with_reducible refine Keeps.rec_upd ?_ rfl rfl rfl rfl rfl)
    | (fail_if_no_progress dsimp only) | split)

theorem State.hbmRestart_keeps {r s : State} (h : Keeps r s) (a1 : ℕ) : Keeps r (State.hbmRestart s a1) := by
  unfold State.hbmRestart
  try dsimp only
  repeat' (first
    | with_reducible assumption | (with_reducible exact Keeps.refl _) | (with_reducible apply State.draw_keeps)
    | (with_reducible apply State.setHfld_keeps) | (with_reducible apply State.updHbm_keeps) | (with_reducible apply Keeps.ite)
    | (fail_if_no_progress with_reducible refine Keeps.rec_upd ?_ rfl rfl rfl rfl rfl) | (fail_if_no_progress dsimp only) | split)

theorem execHoldRetryExpiry_keeps {r s : State} (h : Keeps r s) (a0 : Fin 4) : KeepsR r (execHoldRetryExpiry a0 s) := by
  unfold execHoldRetryExpiry
  try dsimp only
  repeat' (first
    | with_reducible assumption | (with_reducible exact Keeps.refl _) | with_reducible apply KeepsR.ok | with_reducible apply KeepsR.ite
    | (with_reducible apply State.bayEvent_keeps) | (with_reducible apply State.failAccesses_keeps) | (with_reducible apply State.setFlds_keeps)
    | (with_reducible apply State.updBay_keeps) | (with_reducible apply Keeps.ite)
    | (fail_if_no_progress with_reducible refine Keeps.rec_upd ?_ rfl rfl rfl rfl rfl) | (fail_if_no_progress dsimp only) | split)

theorem execTenderData_keeps {r s : State} (h : Keeps r s) (a0 : Fin 4) (a1 : List ℕ) : KeepsR r (execTenderData a0 a1 s) := by
  unfold execTenderData
  try dsimp only
  repeat' (first
    | with_reducible assumption | (with_reducible exact Keeps.refl _) | with_reducible apply KeepsR.ok | with_reducible apply KeepsR.ite
    | (with_reducible apply State.dropAcc_keeps) | (with_reducible apply State.partDone_keeps) | (with_reducible apply State.takeIdent_keeps)
    | (with_reducible apply State.takeWear_keeps) | (with_reducible apply State.updBay_keeps) | (with_reducible apply State.wrapAdd_keeps)
    | (with_reducible refine Keeps.of_snd (by assumption) ?_) | (with_reducible refine Keeps.of_fst (by assumption) ?_)
    | (with_reducible apply Keeps.ite) | (fail_if_no_progress with_reducible refine Keeps.rec_upd ?_ rfl rfl rfl rfl rfl)
    | (fail_if_no_progress dsimp only) | split)

theorem execHbmFreqChangeDone_keeps {r s : State} (h : Keeps r s) (a0 : Fin 8) : KeepsR r (execHbmFreqChangeDone a0 s) := by
  unfold execHbmFreqChangeDone
  try dsimp only
  repeat' (first
    | with_reducible assumption | (with_reducible exact Keeps.refl _) | with_reducible apply KeepsR.ok | with_reducible apply KeepsR.ite
    | (with_reducible apply State.setHfld_keeps) | (with_reducible apply State.updHbm_keeps) | (with_reducible apply Keeps.ite)
    | (fail_if_no_progress with_reducible refine Keeps.rec_upd ?_ rfl rfl rfl rfl rfl) | (fail_if_no_progress dsimp only) | split)

theorem execModuleWrite_keeps {r s : State} (h : Keeps r s) (a0 : Fin 4) (a1 : List ℕ) (a2 : Bool) (a3 : ℕ) (a4 : Bool) : KeepsR r (execModuleWrite
    a0 a1 a2 a3 a4 s) := by
  unfold execModuleWrite
  try dsimp only
  repeat' (first
    | with_reducible assumption | (with_reducible exact Keeps.refl _) | with_reducible apply KeepsR.ok | with_reducible apply KeepsR.ite
    | (with_reducible apply State.modAnswer_keeps) | (with_reducible apply State.modWear_keeps) | (with_reducible apply State.noteTag_keeps)
    | (with_reducible refine State.modTakes_keeps ?_ _ _ _ (by assumption)) | (with_reducible refine Keeps.of_snd (by assumption) ?_)
    | (with_reducible refine Keeps.of_fst (by assumption) ?_) | (with_reducible apply Keeps.ite)
    | (fail_if_no_progress with_reducible refine Keeps.rec_upd ?_ rfl rfl rfl rfl rfl)
    | (fail_if_no_progress with_reducible refine Keeps.rec_wf ?_ rfl rfl (by first | exact id | exact memWf_memWrite _ _ | exact mwf_mblock _ _ | exact mwf_mdrop _ | exact fun _ => rfl) (by first | exact id | exact memWf_memWrite _ _ | exact mwf_mblock _ _ | exact mwf_mdrop _ | exact fun _ => rfl) (by first | exact id | exact memWf_memWrite _ _ | exact mwf_mblock _ _ | exact mwf_mdrop _ | exact fun _ => rfl))
    | (fail_if_no_progress dsimp only) | split)

theorem execHbmRequestAccept_keeps {r s : State} (h : Keeps r s) (a0 : Car) (a1 : Fin 8) : KeepsR r (execHbmRequestAccept a0 a1 s) := by
  unfold execHbmRequestAccept
  try dsimp only
  repeat' (first
    | with_reducible assumption | (with_reducible exact Keeps.refl _) | with_reducible apply KeepsR.ok | with_reducible apply KeepsR.ite
    | (with_reducible apply State.hbmEnter_keeps) | (with_reducible apply Keeps.ite) | (fail_if_no_progress dsimp only) | split)

theorem execTenderRequest_keeps {r s : State} (h : Keeps r s) (a0 : Fin 4) : KeepsR r (execTenderRequest a0 s) := by
  unfold execTenderRequest
  try dsimp only
  repeat' (first
    | with_reducible assumption | (with_reducible exact Keeps.refl _) | with_reducible apply KeepsR.ok | with_reducible apply KeepsR.ite
    | (with_reducible apply State.acceptReq_keeps) | (with_reducible apply State.bayAnswer_keeps) | (with_reducible apply State.lockAbort_keeps)
    | (with_reducible apply State.updBay_keeps) | (with_reducible refine Keeps.of_snd (by assumption) ?_)
    | (with_reducible refine Keeps.of_fst (by assumption) ?_) | (with_reducible apply Keeps.ite)
    | (fail_if_no_progress with_reducible refine Keeps.rec_upd ?_ rfl rfl rfl rfl rfl) | (fail_if_no_progress dsimp only) | split)

theorem execChipResetTimeout_keeps {r s : State} (h : Keeps r s)  : KeepsR r (execChipResetTimeout s) := by
  unfold execChipResetTimeout
  try dsimp only
  repeat' (first
    | with_reducible assumption | (with_reducible exact Keeps.refl _) | with_reducible apply KeepsR.ok | with_reducible apply KeepsR.ite
    | (with_reducible apply State.chipSlow_keeps) | (with_reducible apply Keeps.ite) | (fail_if_no_progress dsimp only) | split)

theorem execChipResetDone_keeps {r s : State} (h : Keeps r s)  : KeepsR r (execChipResetDone s) := by
  unfold execChipResetDone
  try dsimp only
  repeat' (first
    | with_reducible assumption | (with_reducible exact Keeps.refl _) | with_reducible apply KeepsR.ok | with_reducible apply KeepsR.ite
    | (with_reducible apply State.hbmRestart_keeps) | (with_reducible apply State.raise_keeps) | (with_reducible apply State.rewriteImageRegs_keeps)
    | (with_reducible apply State.setCarState_keeps) | (with_reducible apply State.setFld_keeps) | (with_reducible apply State.updFab_keeps)
    | (with_reducible apply Keeps.ite) | (with_reducible apply Keeps.foldl) | intro _ _ _
    | (fail_if_no_progress with_reducible refine Keeps.rec_upd ?_ rfl rfl rfl rfl rfl) | (fail_if_no_progress dsimp only) | split)

theorem execHardThrottle_keeps {r s : State} (h : Keeps r s) (a0 : ℕ) (a1 : BitVec 8) : KeepsR r (execHardThrottle a0 a1 s) := by
  unfold execHardThrottle
  try dsimp only
  repeat' (first
    | with_reducible assumption | (with_reducible exact Keeps.refl _) | with_reducible apply KeepsR.ok | with_reducible apply KeepsR.ite
    | (with_reducible apply State.lockAbort_keeps) | (with_reducible apply State.logEntry_keeps) | (with_reducible apply State.setFlds_keeps)
    | (with_reducible apply State.setMhz_keeps) | (with_reducible apply Keeps.ite)
    | (fail_if_no_progress with_reducible refine Keeps.rec_upd ?_ rfl rfl rfl rfl rfl) | (fail_if_no_progress dsimp only) | split)

end Sys2Proof.Machine
end

