-- ==== Sys2Proof/Laws/KeepsPair.lean ====
section
/-! SUPPORT. What the functions of pairs, PCIe, register accesses, delivery, test, power-up and the issue of vector instructions keep (`Keeps`), one lemma each. -/

namespace Sys2Proof.Machine

theorem State.bare_keeps {r s : State} (h : Keeps r s) : Keeps r s.bare :=
  h.trans ⟨rfl, fun _ => rfl, fun ⟨_, _, c⟩ => ⟨rfl, rfl, c⟩⟩

theorem State.showFuses_keeps {r s : State} (h : Keeps r s)  : Keeps r (State.showFuses s) := by
  unfold State.showFuses
  try dsimp only
  repeat' (first
    | with_reducible assumption | (with_reducible exact Keeps.refl _) | (with_reducible apply State.setFlds_keeps)
    | (with_reducible apply Keeps.ite) | (fail_if_no_progress dsimp only) | split)

theorem execPowerRemoval_keeps {r s : State} (h : Keeps r s)  : KeepsR r (execPowerRemoval s) := by
  unfold execPowerRemoval
  try dsimp only
  repeat' (first
    | with_reducible assumption | (with_reducible exact Keeps.refl _) | with_reducible apply KeepsR.ok | with_reducible apply KeepsR.ite
    | (with_reducible apply State.bare_keeps) | (with_reducible apply State.emit_keeps) | (with_reducible apply State.setFlds_keeps)
    | (with_reducible apply State.showFuses_keeps) | (with_reducible apply Keeps.ite)
    | (fail_if_no_progress with_reducible refine Keeps.rec_upd ?_ rfl rfl rfl rfl rfl) | (fail_if_no_progress dsimp only) | split)

theorem execDebugRequest_keeps {r s : State} (h : Keeps r s) (a0 : Bool) : KeepsR r (execDebugRequest a0 s) := by
  unfold execDebugRequest
  try dsimp only
  repeat' (first
    | with_reducible assumption | (with_reducible exact Keeps.refl _) | with_reducible apply KeepsR.ok | with_reducible apply KeepsR.ite
    | (with_reducible apply State.draws_keeps) | (with_reducible apply State.regEvent_keeps) | (with_reducible apply State.setFld_keeps)
    | (with_reducible apply Keeps.ite) | (with_reducible apply Keeps.foldl) | intro _ _ _ | intro _ _
    | (fail_if_no_progress with_reducible refine Keeps.rec_upd ?_ rfl rfl rfl rfl rfl) | (fail_if_no_progress dsimp only) | split)

theorem execSmsu_keeps {r s : State} (h : Keeps r s) (a0 : Coach) : KeepsR r (execSmsu a0 s) := by
  unfold execSmsu
  try dsimp only
  repeat' (first
    | with_reducible assumption | (with_reducible exact Keeps.refl _) | with_reducible apply KeepsR.ok | with_reducible apply KeepsR.ite
    | (with_reducible apply State.issueTo_keeps) | (with_reducible apply Keeps.ite) | (fail_if_no_progress dsimp only) | split)

theorem State.afterWrite_keeps {r s : State} (h : Keeps r s) (a0 : State) (a1 : ℕ) (a3 : Slot) : Keeps r (State.afterWrite a0 a1 s a3) := by
  unfold State.afterWrite
  try dsimp only
  repeat' (first
    | with_reducible assumption | (with_reducible exact Keeps.refl _) | (with_reducible apply State.admEnable_keeps)
    | (with_reducible apply State.admRelease_keeps) | (with_reducible apply State.clkCfgWrite_keeps) | (with_reducible apply State.driveRein_keeps)
    | (with_reducible apply State.judgeWear_keeps) | (with_reducible apply State.masterDecide_keeps) | (with_reducible apply State.setFlds_keeps)
    | (with_reducible apply State.updHbm_keeps) | (with_reducible apply Keeps.ite)
    | (fail_if_no_progress with_reducible refine Keeps.rec_upd ?_ rfl rfl rfl rfl rfl) | (fail_if_no_progress dsimp only) | split)

theorem execClearFlushtot_keeps {r s : State} (h : Keeps r s) (a0 : Coach) : KeepsR r (execClearFlushtot a0 s) := by
  unfold execClearFlushtot
  try dsimp only
  repeat' (first
    | with_reducible assumption | (with_reducible exact Keeps.refl _) | with_reducible apply KeepsR.ok | with_reducible apply KeepsR.ite
    | (with_reducible apply State.regEvent_keeps) | (with_reducible apply State.setFld_keeps) | (with_reducible apply Keeps.ite) | intro _ _
    | (fail_if_no_progress dsimp only) | split)

theorem execVsetcb_keeps {r s : State} (h : Keeps r s) (a0 : Coach) : KeepsR r (execVsetcb a0 s) := by
  unfold execVsetcb
  try dsimp only
  repeat' (first
    | with_reducible assumption | (with_reducible exact Keeps.refl _) | with_reducible apply KeepsR.ok | with_reducible apply KeepsR.ite
    | (with_reducible apply State.issueTo_keeps) | (with_reducible apply Keeps.ite) | (fail_if_no_progress dsimp only) | split)

theorem State.markCoach_keeps {r s : State} (h : Keeps r s) (a1 : ℕ) (a2 : Bool) : Keeps r (State.markCoach s a1 a2) := by
  unfold State.markCoach
  try dsimp only
  repeat' (first
    | with_reducible assumption | (with_reducible exact Keeps.refl _) | (with_reducible apply State.setFld_keeps) | (with_reducible apply Keeps.ite)
    | (fail_if_no_progress dsimp only) | split)

theorem State.setTap_keeps {r s : State} (h : Keeps r s) (a1 : ℕ) (a2 : List Bool) : Keeps r (State.setTap s a1 a2) := by
  unfold State.setTap
  try dsimp only
  repeat' (first
    | with_reducible assumption | (with_reducible exact Keeps.refl _) | (with_reducible apply State.emit_keeps) | (with_reducible apply Keeps.ite)
    | (fail_if_no_progress with_reducible refine Keeps.rec_upd ?_ rfl rfl rfl rfl rfl) | (fail_if_no_progress dsimp only) | split)

theorem State.scanCells_keeps {r s : State} (h : Keeps r s) (a1 : ℕ) (a2 : List Bool) (a3 : List Bool) : Keeps r (State.scanCells s a1 a2 a3) := by
  unfold State.scanCells
  try dsimp only
  repeat' (first
    | with_reducible assumption | (with_reducible exact Keeps.refl _) | (with_reducible apply State.emit_keeps)
    | (with_reducible apply State.setTap_keeps) | (with_reducible apply Keeps.ite) | (fail_if_no_progress dsimp only) | split)

theorem State.shiftBypass_keeps {r s : State} (h : Keeps r s) (a1 : List Bool) : Keeps r (State.shiftBypass s a1) := by
  unfold State.shiftBypass
  try dsimp only
  repeat' (first
    | with_reducible assumption | (with_reducible exact Keeps.refl _) | (with_reducible apply State.emit_keeps) | (with_reducible apply Keeps.ite)
    | (fail_if_no_progress dsimp only) | split)

theorem State.restricted_keeps {r s : State} (h : Keeps r s) (a1 : ℕ) (a2 : Bool) (a3 : List Bool) (a4 : List Bool) : Keeps r (State.restricted s a1
    a2 a3 a4) := by
  unfold State.restricted
  try dsimp only
  repeat' (first
    | with_reducible assumption | (with_reducible exact Keeps.refl _) | (with_reducible apply State.scanCells_keeps)
    | (with_reducible apply State.setTap_keeps) | (with_reducible apply State.shiftBypass_keeps) | (with_reducible apply Keeps.ite)
    | (fail_if_no_progress dsimp only) | split)

theorem execExtestTrain_keeps {r s : State} (h : Keeps r s) (a0 : List Bool) (a1 : List Bool) : KeepsR r (execExtestTrain a0 a1 s) := by
  unfold execExtestTrain
  try dsimp only
  repeat' (first
    | with_reducible assumption | (with_reducible exact Keeps.refl _) | with_reducible apply KeepsR.ok | with_reducible apply KeepsR.ite
    | (with_reducible apply State.restricted_keeps) | (with_reducible apply Keeps.ite) | (fail_if_no_progress dsimp only) | split)

theorem execVcos_keeps {r s : State} (h : Keeps r s) (a0 : Coach) : KeepsR r (execVcos a0 s) := by
  unfold execVcos
  try dsimp only
  repeat' (first
    | with_reducible assumption | (with_reducible exact Keeps.refl _) | with_reducible apply KeepsR.ok | with_reducible apply KeepsR.ite
    | (with_reducible apply State.issueTo_keeps) | (with_reducible apply Keeps.ite) | (fail_if_no_progress dsimp only) | split)

theorem execVtanh_keeps {r s : State} (h : Keeps r s) (a0 : Coach) : KeepsR r (execVtanh a0 s) := by
  unfold execVtanh
  try dsimp only
  repeat' (first
    | with_reducible assumption | (with_reducible exact Keeps.refl _) | with_reducible apply KeepsR.ok | with_reducible apply KeepsR.ite
    | (with_reducible apply State.issueTo_keeps) | (with_reducible apply Keeps.ite) | (fail_if_no_progress dsimp only) | split)

theorem State.updPort_keeps {r s : State} (h : Keeps r s) (a1 : ℕ) (a2 : PortS → PortS) : Keeps r (State.updPort s a1 a2) := by
  unfold State.updPort
  try dsimp only
  repeat' (first
    | with_reducible assumption | (with_reducible exact Keeps.refl _) | (with_reducible apply Keeps.ite)
    | (fail_if_no_progress with_reducible refine Keeps.rec_upd ?_ rfl rfl rfl rfl rfl) | (fail_if_no_progress dsimp only) | split)

theorem execAtsInvalidation_keeps {r s : State} (h : Keeps r s) (a0 : Fin 4) (a1 : Fin 257) (a2 : BitVec 52) (a3 : ℕ) : KeepsR r
    (execAtsInvalidation a0 a1 a2 a3 s) := by
  unfold execAtsInvalidation
  try dsimp only
  repeat' (first
    | with_reducible assumption | (with_reducible exact Keeps.refl _) | with_reducible apply KeepsR.ok | with_reducible apply KeepsR.ite
    | (with_reducible apply State.outside_keeps) | (with_reducible apply State.updPort_keeps) | (with_reducible apply Keeps.ite) | intro _ _
    | (fail_if_no_progress with_reducible refine Keeps.rec_upd ?_ rfl rfl rfl rfl rfl) | (fail_if_no_progress dsimp only) | split)

theorem State.hostAccess_keeps {r s : State} (h : Keeps r s) (a1 : ℕ) (a2 : Packet) (a3 : ℕ) : Keeps r (State.hostAccess s a1 a2 a3) := by
  unfold State.hostAccess
  try dsimp only
  repeat' (first
    | with_reducible assumption | (with_reducible exact Keeps.refl _) | (with_reducible apply State.emit_keeps)
    | (with_reducible apply State.respond_keeps) | (with_reducible apply Keeps.ite)
    | (fail_if_no_progress with_reducible refine Keeps.rec_upd ?_ rfl rfl rfl rfl rfl) | (fail_if_no_progress dsimp only) | split)

theorem State.hostFail_keeps {r s : State} (h : Keeps r s) (a1 : ℕ) (a2 : Packet) (a3 : ℕ) : Keeps r (State.hostFail s a1 a2 a3) := by
  unfold State.hostFail
  try dsimp only
  repeat' (first
    | with_reducible assumption | (with_reducible exact Keeps.refl _) | (with_reducible apply State.inject_keeps) | (with_reducible apply Keeps.ite)
    | (fail_if_no_progress with_reducible refine Keeps.rec_upd ?_ rfl rfl rfl rfl rfl) | (fail_if_no_progress dsimp only) | split)

theorem execAtsResponse_keeps {r s : State} (h : Keeps r s) (a0 : Fin 4) (a1 : Option (BitVec 52)) : KeepsR r (execAtsResponse a0 a1 s) := by
  unfold execAtsResponse
  try dsimp only
  repeat' (first
    | with_reducible assumption | (with_reducible exact Keeps.refl _) | with_reducible apply KeepsR.ok | with_reducible apply KeepsR.ite
    | (with_reducible apply State.hostAccess_keeps) | (with_reducible apply State.hostFail_keeps) | (with_reducible apply State.outside_keeps)
    | (with_reducible apply State.updPort_keeps) | (with_reducible refine Keeps.of_snd (by assumption) ?_)
    | (with_reducible refine Keeps.of_fst (by assumption) ?_) | (with_reducible apply Keeps.ite) | intro _ _
    | (fail_if_no_progress with_reducible refine Keeps.rec_upd ?_ rfl rfl rfl rfl rfl) | (fail_if_no_progress dsimp only) | split)

theorem execClearNanblktot_keeps {r s : State} (h : Keeps r s) (a0 : Coach) : KeepsR r (execClearNanblktot a0 s) := by
  unfold execClearNanblktot
  try dsimp only
  repeat' (first
    | with_reducible assumption | (with_reducible exact Keeps.refl _) | with_reducible apply KeepsR.ok | with_reducible apply KeepsR.ite
    | (with_reducible apply State.regEvent_keeps) | (with_reducible apply State.setFld_keeps) | (with_reducible apply Keeps.ite) | intro _ _
    | (fail_if_no_progress dsimp only) | split)

theorem execClearSattot_keeps {r s : State} (h : Keeps r s) (a0 : Coach) : KeepsR r (execClearSattot a0 s) := by
  unfold execClearSattot
  try dsimp only
  repeat' (first
    | with_reducible assumption | (with_reducible exact Keeps.refl _) | with_reducible apply KeepsR.ok | with_reducible apply KeepsR.ite
    | (with_reducible apply State.regEvent_keeps) | (with_reducible apply State.setFld_keeps) | (with_reducible apply Keeps.ite) | intro _ _
    | (fail_if_no_progress dsimp only) | split)

theorem execCtxRoleWrite_keeps {r s : State} (h : Keeps r s) (a0 : Fin 4) : KeepsR r (execCtxRoleWrite a0 s) := by
  unfold execCtxRoleWrite
  try dsimp only
  repeat' (first
    | with_reducible assumption | (with_reducible exact Keeps.refl _) | with_reducible apply KeepsR.ok | with_reducible apply KeepsR.ite
    | (with_reducible apply State.mirrorContext_keeps) | (with_reducible apply State.regEvent_keeps) | (with_reducible apply State.setFld_keeps)
    | (with_reducible apply Keeps.ite) | intro _ _ | (fail_if_no_progress dsimp only) | split)

theorem State.debugClosed_keeps {r s : State} (h : Keeps r s)  : Keeps r (State.debugClosed s) := by
  unfold State.debugClosed
  try dsimp only
  repeat' (first
    | with_reducible assumption | (with_reducible exact Keeps.refl _) | (with_reducible apply State.setFlds_keeps)
    | (with_reducible apply Keeps.ite) | (fail_if_no_progress dsimp only) | split)

theorem execDebugClose_keeps {r s : State} (h : Keeps r s)  : KeepsR r (execDebugClose s) := by
  unfold execDebugClose
  try dsimp only
  repeat' (first
    | with_reducible assumption | (with_reducible exact Keeps.refl _) | with_reducible apply KeepsR.ok | with_reducible apply KeepsR.ite
    | (with_reducible apply State.debugClosed_keeps) | (with_reducible apply State.regEvent_keeps) | (with_reducible apply Keeps.ite) | intro _ _
    | (fail_if_no_progress dsimp only) | split)

theorem execDebugResponseSubmit_keeps {r s : State} (h : Keeps r s) (a0 : BitVec 32) : KeepsR r (execDebugResponseSubmit a0 s) := by
  unfold execDebugResponseSubmit
  try dsimp only
  repeat' (first
    | with_reducible assumption | (with_reducible exact Keeps.refl _) | with_reducible apply KeepsR.ok | with_reducible apply KeepsR.ite
    | (with_reducible apply State.logEntry_keeps) | (with_reducible apply State.regEvent_keeps) | (with_reducible apply State.setFld_keeps)
    | (with_reducible apply Keeps.ite) | intro _ _ | (fail_if_no_progress with_reducible refine Keeps.rec_upd ?_ rfl rfl rfl rfl rfl)
    | (fail_if_no_progress dsimp only) | split)

theorem State.failHost_keeps {r s : State} (h : Keeps r s) (a1 : ℕ) (a2 : HostReq → Bool) : Keeps r (State.failHost s a1 a2) := by
  unfold State.failHost
  try dsimp only
  repeat' (first
    | with_reducible assumption | (with_reducible exact Keeps.refl _) | (with_reducible apply State.hostFail_keeps)
    | (with_reducible apply Keeps.ite) | (with_reducible apply Keeps.foldl) | intro _ _ _
    | (fail_if_no_progress with_reducible refine Keeps.rec_upd ?_ rfl rfl rfl rfl rfl) | (fail_if_no_progress dsimp only) | split)

theorem execFlr_keeps {r s : State} (h : Keeps r s) (a0 : Fin 4) (a1 : Option (Fin 256)) : KeepsR r (execFlr a0 a1 s) := by
  unfold execFlr
  try dsimp only
  repeat' (first
    | with_reducible assumption | (with_reducible exact Keeps.refl _) | with_reducible apply KeepsR.ok | with_reducible apply KeepsR.ite
    | (with_reducible apply State.brakeWhere_keeps) | (with_reducible apply State.failHost_keeps) | (with_reducible apply State.outside_keeps)
    | (with_reducible apply State.updPort_keeps) | (with_reducible refine Keeps.of_snd (by assumption) ?_)
    | (with_reducible refine Keeps.of_fst (by assumption) ?_) | (with_reducible apply Keeps.ite) | intro _ _
    | (fail_if_no_progress with_reducible refine Keeps.rec_upd ?_ rfl rfl rfl rfl rfl) | (fail_if_no_progress dsimp only) | split)

theorem execFuseLock_keeps {r s : State} (h : Keeps r s) : KeepsR r (execFuseLock s) := by
  unfold execFuseLock
  refine State.regEvent_keeps h _ _ _ _ _ (fun s h => ?_)
  apply KeepsR.ok
  apply State.setFlds_keeps
  refine h.trans ⟨rfl, fun e => ?_, id⟩
  cases hf : s.fuses
  simp_all

theorem execFuseProgram_keeps {r s : State} (h : Keeps r s) : KeepsR r (execFuseProgram s) := by
  unfold execFuseProgram
  refine State.regEvent_keeps h _ _ _ _ _ (fun s h => ?_)
  dsimp only
  by_cases hl : s.fuses.locked = true
  · simp only [hl, Bool.true_or, if_true]
    exact KeepsR.ok (State.setFlds_keeps h _ _ _)
  · refine KeepsR.ite (KeepsR.ok (State.setFlds_keeps h _ _ _)) (KeepsR.ok ?_)
    apply State.setFld_keeps
    apply State.zero8_keeps
    exact h.trans ⟨rfl, fun e => absurd e hl, id⟩

theorem execHostCompletion_keeps {r s : State} (h : Keeps r s) (a0 : Fin 4) (a1 : ℕ) (a2 : Bool) (a3 : List Byte) : KeepsR r (execHostCompletion a0
    a1 a2 a3 s) := by
  unfold execHostCompletion
  try dsimp only
  repeat' (first
    | with_reducible assumption | (with_reducible exact Keeps.refl _) | with_reducible apply KeepsR.ok | with_reducible apply KeepsR.ite
    | (with_reducible apply State.hostFail_keeps) | (with_reducible apply State.outside_keeps) | (with_reducible apply State.respond_keeps)
    | (with_reducible refine Keeps.of_snd (by assumption) ?_) | (with_reducible refine Keeps.of_fst (by assumption) ?_)
    | (with_reducible apply Keeps.ite) | intro _ _ | (fail_if_no_progress with_reducible refine Keeps.rec_upd ?_ rfl rfl rfl rfl rfl)
    | (fail_if_no_progress dsimp only) | split)

theorem State.writeSlot_keeps {r s : State} (h : Keeps r s) (a0 : State) (a1 : ℕ) (a3 : Slot) : Keeps r (State.writeSlot a0 a1 s a3) := by
  unfold State.writeSlot
  try dsimp only
  repeat' (first
    | with_reducible assumption | (with_reducible exact Keeps.refl _) | (with_reducible apply State.setFld_keeps)
    | (with_reducible refine Keeps.of_snd (by assumption) ?_) | (with_reducible refine Keeps.of_fst (by assumption) ?_)
    | (with_reducible apply Keeps.ite) | (fail_if_no_progress dsimp only) | split)

theorem State.writeRegister_keeps {r s : State} (h : Keeps r s) (a1 : ℕ) (a2 : ℕ) : Keeps r (State.writeRegister s a1 a2) := by
  unfold State.writeRegister
  try dsimp only
  repeat' (first
    | with_reducible assumption | (with_reducible exact Keeps.refl _) | (with_reducible apply State.afterWrite_keeps)
    | (with_reducible apply State.writeSlot_keeps) | (with_reducible apply Keeps.ite) | (with_reducible apply Keeps.foldl) | intro _ _ _
    | (fail_if_no_progress with_reducible refine Keeps.rec_upd ?_ rfl rfl rfl rfl rfl) | (fail_if_no_progress dsimp only) | split)

theorem State.busWrite_keeps {r s : State} (h : Keeps r s) (a1 : ℕ) (a2 : ℕ) : Keeps r (State.busWrite s a1 a2) := by
  unfold State.busWrite
  try dsimp only
  repeat' (first
    | with_reducible assumption | (with_reducible exact Keeps.refl _) | (with_reducible apply State.dropLow_keeps)
    | (with_reducible apply State.holdLow_keeps) | (with_reducible apply State.missed_keeps) | (with_reducible apply State.setFld_keeps)
    | (with_reducible apply State.writeRegister_keeps) | (with_reducible refine Keeps.of_snd (by assumption) ?_)
    | (with_reducible refine Keeps.of_fst (by assumption) ?_) | (with_reducible apply Keeps.ite)
    | (fail_if_no_progress with_reducible refine Keeps.rec_upd ?_ rfl rfl rfl rfl rfl) | (fail_if_no_progress dsimp only) | split)

theorem execPairHighWrite_keeps {r s : State} (h : Keeps r s) (a0 : BitVec 30) (a1 : BitVec 32) : KeepsR r (execPairHighWrite a0 a1 s) := by
  unfold execPairHighWrite
  try dsimp only
  repeat' (first
    | with_reducible assumption | (with_reducible exact Keeps.refl _) | with_reducible apply KeepsR.ok | with_reducible apply KeepsR.ite
    | (with_reducible apply State.busWrite_keeps) | (with_reducible apply State.outside_keeps) | (with_reducible apply Keeps.ite) | intro _ _
    | (fail_if_no_progress dsimp only) | split)

theorem execPairLowWrite_keeps {r s : State} (h : Keeps r s) (a0 : BitVec 30) (a1 : BitVec 32) : KeepsR r (execPairLowWrite a0 a1 s) := by
  unfold execPairLowWrite
  try dsimp only
  repeat' (first
    | with_reducible assumption | (with_reducible exact Keeps.refl _) | with_reducible apply KeepsR.ok | with_reducible apply KeepsR.ite
    | (with_reducible apply State.busWrite_keeps) | (with_reducible apply State.outside_keeps) | (with_reducible apply Keeps.ite) | intro _ _
    | (fail_if_no_progress dsimp only) | split)

theorem State.countJournal_keeps {r s : State} (h : Keeps r s) (a1 : ℕ) : Keeps r (State.countJournal s a1) := by
  unfold State.countJournal
  try dsimp only
  repeat' (first
    | with_reducible assumption | (with_reducible exact Keeps.refl _) | (with_reducible apply Keeps.ite)
    | (fail_if_no_progress with_reducible refine Keeps.rec_upd ?_ rfl rfl rfl rfl rfl) | (fail_if_no_progress dsimp only) | split)

theorem State.applyContext_keeps {r s : State} (h : Keeps r s) (a1 : MRec) : Keeps r (State.applyContext s a1) := by
  unfold State.applyContext
  try dsimp only
  repeat' (first
    | with_reducible assumption | (with_reducible exact Keeps.refl _) | (with_reducible apply State.updCtx_keeps) | (with_reducible apply Keeps.ite)
    | (fail_if_no_progress with_reducible refine Keeps.rec_upd ?_ rfl rfl rfl rfl rfl) | (fail_if_no_progress dsimp only) | split)

theorem State.applyQueue_keeps {r s : State} (h : Keeps r s) (a1 : MRec) (a2 : List ℕ) : Keeps r (State.applyQueue s a1 a2) := by
  unfold State.applyQueue
  try dsimp only
  repeat' (first
    | with_reducible assumption | (with_reducible exact Keeps.refl _) | (with_reducible apply State.readQueueEntry_keeps)
    | (with_reducible apply State.ring_keeps) | (with_reducible apply State.updQueue_keeps)
    | (with_reducible refine Keeps.of_snd (by assumption) ?_) | (with_reducible refine Keeps.of_fst (by assumption) ?_)
    | (with_reducible apply Keeps.ite) | (fail_if_no_progress with_reducible refine Keeps.rec_upd ?_ rfl rfl rfl rfl rfl)
    | (fail_if_no_progress dsimp only) | split)

theorem State.checkSynced_keeps {r s : State} (h : Keeps r s)  : Keeps r (State.checkSynced s) := by
  unfold State.checkSynced
  try dsimp only
  repeat' (first
    | with_reducible assumption | (with_reducible exact Keeps.refl _) | (with_reducible apply State.logEntry_keeps)
    | (with_reducible apply State.pairReason_keeps) | (with_reducible apply State.setFld_keeps) | (with_reducible apply Keeps.ite)
    | (fail_if_no_progress dsimp only) | split)

theorem State.intakeGap_keeps {r s : State} (h : Keeps r s) (a1 : ℕ) (a2 : ℕ) : Keeps r (State.intakeGap s a1 a2) := by
  unfold State.intakeGap
  try dsimp only
  repeat' (first
    | with_reducible assumption | (with_reducible exact Keeps.refl _) | (with_reducible apply State.pairGap_keeps)
    | (with_reducible apply Keeps.ite) | (fail_if_no_progress with_reducible refine Keeps.rec_upd ?_ rfl rfl rfl rfl rfl)
    | (fail_if_no_progress dsimp only) | split)

theorem State.applyRecord_keeps {r s : State} (h : Keeps r s) (a1 : ℕ) (a2 : MRec) (a3 : List ℕ) : Keeps r (State.applyRecord s a1 a2 a3) := by
  unfold State.applyRecord
  try dsimp only
  repeat' (first
    | with_reducible assumption | (with_reducible exact Keeps.refl _) | (with_reducible apply State.appliedRecord_keeps)
    | (with_reducible apply State.applyContext_keeps) | (with_reducible apply State.applyQueue_keeps)
    | (with_reducible apply State.checkSynced_keeps) | (with_reducible apply State.hbmPut_keeps) | (with_reducible apply State.intakeGap_keeps)
    | (with_reducible apply State.updBay_keeps) | (with_reducible refine Keeps.of_snd (by assumption) ?_)
    | (with_reducible refine Keeps.of_fst (by assumption) ?_) | (with_reducible apply Keeps.ite)
    | (fail_if_no_progress with_reducible refine Keeps.rec_upd ?_ rfl rfl rfl rfl rfl) | (fail_if_no_progress dsimp only) | split)

theorem State.takeNumbered_keeps {r s : State} (h : Keeps r s) (a1 : ℕ) (a2 : MRec) (a3 : List ℕ) : Keeps r (State.takeNumbered s a1 a2 a3) := by
  unfold State.takeNumbered
  try dsimp only
  repeat' (first
    | with_reducible assumption | (with_reducible exact Keeps.refl _) | (with_reducible apply State.applyRecord_keeps)
    | (with_reducible apply State.intakeGap_keeps) | (with_reducible apply Keeps.ite) | (fail_if_no_progress dsimp only) | split)

theorem State.drainIntake_keeps {r s : State} (h : Keeps r s) (a1 : ℕ) : Keeps r (State.drainIntake s a1) := by
  unfold State.drainIntake
  try dsimp only
  repeat' (first
    | with_reducible assumption | (with_reducible exact Keeps.refl _) | (with_reducible apply State.countJournal_keeps)
    | (with_reducible apply State.takeNumbered_keeps) | (with_reducible apply Keeps.ite) | (with_reducible apply Keeps.foldl) | intro _ _ _
    | (fail_if_no_progress with_reducible refine Keeps.rec_upd ?_ rfl rfl rfl rfl rfl) | (fail_if_no_progress dsimp only) | split)

theorem State.takeContext_keeps {r s : State} (h : Keeps r s) (a1 : ℕ) : Keeps r (State.takeContext s a1).2 := by
  unfold State.takeContext
  try dsimp only
  repeat' (first
    | with_reducible assumption | (with_reducible exact Keeps.refl _) | (with_reducible apply State.draw_keeps)
    | (with_reducible apply State.setFld_keeps) | (with_reducible apply State.takeover_keeps) | (with_reducible apply State.updQueue_keeps)
    | (with_reducible refine Keeps.of_snd (by assumption) ?_) | (with_reducible refine Keeps.of_fst (by assumption) ?_)
    | (with_reducible apply Keeps.ite) | (with_reducible apply Keeps.foldl) | (with_reducible apply Keeps.foldl_fst)
    | (with_reducible apply Keeps.foldl_snd) | intro _ _ _ | (fail_if_no_progress with_reducible refine Keeps.rec_upd ?_ rfl rfl rfl rfl rfl)
    | (fail_if_no_progress with_reducible refine Keeps.rec_wf ?_ rfl rfl (by first | exact id | exact memWf_memWrite _ _ | exact mwf_mblock _ _ | exact mwf_mdrop _ | exact fun _ => rfl) (by first | exact id | exact memWf_memWrite _ _ | exact mwf_mblock _ _ | exact mwf_mdrop _ | exact fun _ => rfl) (by first | exact id | exact memWf_memWrite _ _ | exact mwf_mblock _ _ | exact mwf_mdrop _ | exact fun _ => rfl))
    | (fail_if_no_progress dsimp only) | split)

theorem State.takeover_keeps {r s : State} (h : Keeps r s)  : Keeps r (State.takeover s) := by
  unfold State.takeover
  try dsimp only
  repeat' (first
    | with_reducible assumption | (with_reducible exact Keeps.refl _) | (with_reducible apply State.drainIntake_keeps)
    | (with_reducible apply State.logEntry_keeps) | (with_reducible apply State.pairReason_keeps) | (with_reducible apply State.setFld_keeps)
    | (with_reducible apply State.takeContext_keeps) | (with_reducible refine Keeps.of_snd (by assumption) ?_)
    | (with_reducible refine Keeps.of_fst (by assumption) ?_) | (with_reducible apply Keeps.ite) | (with_reducible apply Keeps.foldl)
    | (with_reducible apply Keeps.foldl_fst) | (with_reducible apply Keeps.foldl_snd) | intro _ _ _
    | (fail_if_no_progress with_reducible refine Keeps.rec_upd ?_ rfl rfl rfl rfl rfl)
    | (fail_if_no_progress with_reducible refine Keeps.rec_wf ?_ rfl rfl (by first | exact id | exact memWf_memWrite _ _ | exact mwf_mblock _ _ | exact mwf_mdrop _ | exact fun _ => rfl) (by first | exact id | exact memWf_memWrite _ _ | exact mwf_mblock _ _ | exact mwf_mdrop _ | exact fun _ => rfl) (by first | exact id | exact memWf_memWrite _ _ | exact mwf_mblock _ _ | exact mwf_mdrop _ | exact fun _ => rfl))
    | (fail_if_no_progress dsimp only) | split)

theorem State.decidePair_keeps {r s : State} (h : Keeps r s)  : Keeps r (State.decidePair s) := by
  unfold State.decidePair
  try dsimp only
  repeat' (first
    | with_reducible assumption | (with_reducible exact Keeps.refl _) | (with_reducible apply State.logEntry_keeps)
    | (with_reducible apply State.pairReason_keeps) | (with_reducible apply State.setFld_keeps) | (with_reducible apply State.takeover_keeps)
    | (with_reducible refine Keeps.of_snd (by assumption) ?_) | (with_reducible refine Keeps.of_fst (by assumption) ?_)
    | (with_reducible apply Keeps.ite) | (fail_if_no_progress dsimp only) | split)

theorem State.indicate_keeps {r s : State} (h : Keeps r s) (a1 : Fld) (a2 : Bool) : Keeps r (State.indicate s a1 a2) := by
  unfold State.indicate
  try dsimp only
  repeat' (first
    | with_reducible assumption | (with_reducible exact Keeps.refl _) | (with_reducible apply State.decidePair_keeps)
    | (with_reducible apply State.setFlag_keeps) | (with_reducible apply Keeps.ite) | (fail_if_no_progress dsimp only) | split)

theorem execPartnerAliveEdge_keeps {r s : State} (h : Keeps r s)  : KeepsR r (execPartnerAliveEdge s) := by
  unfold execPartnerAliveEdge
  try dsimp only
  repeat' (first
    | with_reducible assumption | (with_reducible exact Keeps.refl _) | with_reducible apply KeepsR.ok | with_reducible apply KeepsR.ite
    | (with_reducible apply State.indicate_keeps) | (with_reducible apply State.outside_keeps) | (with_reducible apply Keeps.ite) | intro _ _
    | (fail_if_no_progress dsimp only) | split)

theorem execPartnerAliveLost_keeps {r s : State} (h : Keeps r s)  : KeepsR r (execPartnerAliveLost s) := by
  unfold execPartnerAliveLost
  try dsimp only
  repeat' (first
    | with_reducible assumption | (with_reducible exact Keeps.refl _) | with_reducible apply KeepsR.ok | with_reducible apply KeepsR.ite
    | (with_reducible apply State.indicate_keeps) | (with_reducible apply State.outside_keeps) | (with_reducible apply Keeps.ite) | intro _ _
    | (fail_if_no_progress dsimp only) | split)

theorem execPartnerLost_keeps {r s : State} (h : Keeps r s)  : KeepsR r (execPartnerLost s) := by
  unfold execPartnerLost
  try dsimp only
  repeat' (first
    | with_reducible assumption | (with_reducible exact Keeps.refl _) | with_reducible apply KeepsR.ok | with_reducible apply KeepsR.ite
    | (with_reducible apply State.indicate_keeps) | (with_reducible apply State.outside_keeps) | (with_reducible apply Keeps.ite) | intro _ _
    | (fail_if_no_progress dsimp only) | split)

theorem State.dropAdmin_keeps {r s : State} (h : Keeps r s) (a1 : ℕ) : Keeps r (State.dropAdmin s a1) := by
  unfold State.dropAdmin
  try dsimp only
  repeat' (first
    | with_reducible assumption | (with_reducible exact Keeps.refl _) | (with_reducible apply State.admEnd_keeps)
    | (with_reducible apply State.resetFields_keeps) | (with_reducible apply State.updCoach_keeps) | (with_reducible apply State.updCtx_keeps)
    | (with_reducible refine Keeps.of_snd (by assumption) ?_) | (with_reducible refine Keeps.of_fst (by assumption) ?_)
    | (with_reducible apply Keeps.ite) | (fail_if_no_progress with_reducible refine Keeps.rec_upd ?_ rfl rfl rfl rfl rfl)
    | (fail_if_no_progress dsimp only) | split)

theorem execPerstAssert_keeps {r s : State} (h : Keeps r s) (a0 : Fin 4) : KeepsR r (execPerstAssert a0 s) := by
  unfold execPerstAssert
  try dsimp only
  repeat' (first
    | with_reducible assumption | (with_reducible exact Keeps.refl _) | with_reducible apply KeepsR.ok | with_reducible apply KeepsR.ite
    | (with_reducible apply State.brakeWhere_keeps) | (with_reducible apply State.dropAdmin_keeps) | (with_reducible apply State.failHost_keeps)
    | (with_reducible apply State.outside_keeps) | (with_reducible apply State.updPort_keeps) | (with_reducible apply Keeps.ite) | intro _ _
    | (fail_if_no_progress with_reducible refine Keeps.rec_upd ?_ rfl rfl rfl rfl rfl) | (fail_if_no_progress dsimp only) | split)

theorem execPerstRelease_keeps {r s : State} (h : Keeps r s) (a0 : Fin 4) (a1 : Fin 257) (a2 : List (Fin 257)) : KeepsR r (execPerstRelease a0 a1 a2
    s) := by
  unfold execPerstRelease
  try dsimp only
  repeat' (first
    | with_reducible assumption | (with_reducible exact Keeps.refl _) | with_reducible apply KeepsR.ok | with_reducible apply KeepsR.ite
    | (with_reducible apply State.outside_keeps) | (with_reducible apply State.updPort_keeps) | (with_reducible apply Keeps.ite) | intro _ _
    | (fail_if_no_progress with_reducible refine Keeps.rec_upd ?_ rfl rfl rfl rfl rfl) | (fail_if_no_progress dsimp only) | split)

theorem execPertWrite_keeps {r s : State} (h : Keeps r s) (a0 : Fin 3) (a1 : BitVec 32) : KeepsR r (execPertWrite a0 a1 s) := by
  unfold execPertWrite
  try dsimp only
  repeat' (first
    | with_reducible assumption | (with_reducible exact Keeps.refl _) | with_reducible apply KeepsR.ok | with_reducible apply KeepsR.ite
    | (with_reducible apply State.regEvent_keeps) | (with_reducible apply State.setFlds_keeps)
    | (with_reducible refine Keeps.of_snd (by assumption) ?_) | (with_reducible refine Keeps.of_fst (by assumption) ?_)
    | (with_reducible apply Keeps.ite) | intro _ _ | (fail_if_no_progress with_reducible refine Keeps.rec_upd ?_ rfl rfl rfl rfl rfl)
    | (fail_if_no_progress dsimp only) | split)

theorem execRegisterWrite_keeps {r s : State} (h : Keeps r s) (a0 : BitVec 30) (a1 : BitVec 32) : KeepsR r (execRegisterWrite a0 a1 s) := by
  unfold execRegisterWrite
  try dsimp only
  repeat' (first
    | with_reducible assumption | (with_reducible exact Keeps.refl _) | with_reducible apply KeepsR.ok | with_reducible apply KeepsR.ite
    | (with_reducible apply State.busWrite_keeps) | (with_reducible apply State.outside_keeps) | (with_reducible apply Keeps.ite) | intro _ _
    | (fail_if_no_progress dsimp only) | split)

theorem State.sweepContext_keeps {r s : State} (h : Keeps r s) (a1 : ℕ) : Keeps r (State.sweepContext s a1) := by
  unfold State.sweepContext
  try dsimp only
  repeat' (first
    | with_reducible assumption | (with_reducible exact Keeps.refl _) | (with_reducible apply State.mirrorContext_keeps)
    | (with_reducible apply State.mirrorQueue_keeps) | (with_reducible apply Keeps.ite) | (with_reducible apply Keeps.foldl) | intro _ _ _
    | (fail_if_no_progress dsimp only) | split)

theorem State.sweepSend_keeps {r s : State} (h : Keeps r s) (a1 : ℕ) (a2 : ℕ) (a3 : ℕ) (a4 : ℕ) (a5 : List ℕ) : Keeps r (State.sweepSend s a1 a2 a3
    a4 a5) := by
  unfold State.sweepSend
  try dsimp only
  repeat' (first
    | with_reducible assumption | (with_reducible exact Keeps.refl _) | (with_reducible apply State.mirrorSend_keeps)
    | (with_reducible apply Keeps.ite) | (fail_if_no_progress with_reducible refine Keeps.rec_upd ?_ rfl rfl rfl rfl rfl)
    | (fail_if_no_progress dsimp only) | split)

theorem State.sweepJournal_keeps {r s : State} (h : Keeps r s) (a1 : ℕ) : Keeps r (State.sweepJournal s a1) := by
  unfold State.sweepJournal
  try dsimp only
  repeat' (first
    | with_reducible assumption | (with_reducible exact Keeps.refl _) | (with_reducible apply State.sweepSend_keeps)
    | (with_reducible apply Keeps.ite) | (with_reducible apply Keeps.foldl) | intro _ _ _ | (fail_if_no_progress dsimp only) | split)

theorem State.sweepRange_keeps {r s : State} (h : Keeps r s) (a1 : ℕ × ℕ × ℕ) : Keeps r (State.sweepRange s a1) := by
  unfold State.sweepRange
  try dsimp only
  repeat' (first
    | with_reducible assumption | (with_reducible exact Keeps.refl _) | (with_reducible apply State.sweepSend_keeps)
    | (with_reducible apply Keeps.ite) | (with_reducible apply Keeps.foldl) | intro _ _ _ | (fail_if_no_progress dsimp only) | split)

theorem State.sendSweep_keeps {r s : State} (h : Keeps r s)  : Keeps r (State.sendSweep s) := by
  unfold State.sendSweep
  try dsimp only
  repeat' (first
    | with_reducible assumption | (with_reducible exact Keeps.refl _) | (with_reducible apply State.mirrorOn_keeps)
    | (with_reducible apply State.setFld_keeps) | (with_reducible apply State.sweepContext_keeps) | (with_reducible apply State.sweepJournal_keeps)
    | (with_reducible apply State.sweepRange_keeps) | (with_reducible apply Keeps.ite) | (with_reducible apply Keeps.foldl) | intro _ _ _
    | (fail_if_no_progress with_reducible refine Keeps.rec_upd ?_ rfl rfl rfl rfl rfl) | (fail_if_no_progress dsimp only) | split)

theorem State.startResync_keeps {r s : State} (h : Keeps r s)  : Keeps r (State.startResync s) := by
  unfold State.startResync
  try dsimp only
  repeat' (first
    | with_reducible assumption | (with_reducible exact Keeps.refl _) | (with_reducible apply State.sendSweep_keeps)
    | (with_reducible apply State.setFld_keeps) | (with_reducible apply Keeps.ite)
    | (fail_if_no_progress with_reducible refine Keeps.rec_upd ?_ rfl rfl rfl rfl rfl) | (fail_if_no_progress dsimp only) | split)

theorem execResync_keeps {r s : State} (h : Keeps r s)  : KeepsR r (execResync s) := by
  unfold execResync
  try dsimp only
  repeat' (first
    | with_reducible assumption | (with_reducible exact Keeps.refl _) | with_reducible apply KeepsR.ok | with_reducible apply KeepsR.ite
    | (with_reducible apply State.regEvent_keeps) | (with_reducible apply State.setFld_keeps) | (with_reducible apply State.startResync_keeps)
    | (with_reducible apply Keeps.ite) | intro _ _ | (fail_if_no_progress dsimp only) | split)

theorem execWitTokenHeld_keeps {r s : State} (h : Keeps r s)  : KeepsR r (execWitTokenHeld s) := by
  unfold execWitTokenHeld
  try dsimp only
  repeat' (first
    | with_reducible assumption | (with_reducible exact Keeps.refl _) | with_reducible apply KeepsR.ok | with_reducible apply KeepsR.ite
    | (with_reducible apply State.indicate_keeps) | (with_reducible apply State.outside_keeps) | (with_reducible apply Keeps.ite) | intro _ _
    | (fail_if_no_progress dsimp only) | split)

theorem execWitTokenLow_keeps {r s : State} (h : Keeps r s)  : KeepsR r (execWitTokenLow s) := by
  unfold execWitTokenLow
  try dsimp only
  repeat' (first
    | with_reducible assumption | (with_reducible exact Keeps.refl _) | with_reducible apply KeepsR.ok | with_reducible apply KeepsR.ite
    | (with_reducible apply State.indicate_keeps) | (with_reducible apply State.outside_keeps) | (with_reducible apply Keeps.ite) | intro _ _
    | (fail_if_no_progress dsimp only) | split)

theorem admitted_keeps {r s : State} (h : Keeps r s) (i : Instr) : KeepsR r (admitted i s) := by
  cases i with
  | registerWrite off v => exact execRegisterWrite_keeps h off v
  | pairLowWrite off v => exact execPairLowWrite_keeps h off v
  | pairHighWrite off v => exact execPairHighWrite_keeps h off v
  | clearSattot k => exact execClearSattot_keeps h k
  | clearFlushtot k => exact execClearFlushtot_keeps h k
  | clearNanblktot k => exact execClearNanblktot_keeps h k
  | streamStart k n => exact execStreamStart_keeps h k n
  | streamStop k n => exact execStreamStop_keeps h k n
  | streamResume k n => exact execStreamResume_keeps h k n
  | invalAll k => exact execInvalAll_keeps h k
  | invalContext k ctx => exact execInvalContext_keeps h k ctx
  | invalPage k ctx => exact execInvalPage_keeps h k ctx
  | dmaHeadWrite c ch v => exact execDmaHeadWrite_keeps h c ch v
  | dmaRun c ch run => exact execDmaRun_keeps h c ch run
  | dmaAbort c ch => exact execDmaAbort_keeps h c ch
  | dmaStoppedClear c ch => exact execDmaStoppedClear_keeps h c ch
  | dmaInvalAll c => exact execDmaInvalAll_keeps h c
  | dmaInvalContext c ctx => exact execDmaInvalContext_keeps h c ctx
  | dmaInvalPage c ctx => exact execDmaInvalPage_keeps h c ctx
  | lockstepEnable => exact execLockstepEnable_keeps h
  | lockstepDisable => exact execLockstepDisable_keeps h
  | reinArm => exact execReinArm_keeps h
  | reinReady => exact execReinReady_keeps h
  | reinDisarm => exact execReinDisarm_keeps h
  | linkTrain l => exact execLinkTrain_keeps h l
  | linkDisable l => exact execLinkDisable_keeps h l
  | laneTestWrite lane test => exact execLaneTestWrite_keeps h lane test
  | adjmapHiWrite n v => exact execAdjmapHiWrite_keeps h n v
  | hbmModeWrite n mode => exact execHbmModeWrite_keeps h n mode
  | hbmFreqChange n => exact execHbmFreqChange_keeps h n
  | trainWritePattern n p => exact execTrainWritePattern_keeps h n p
  | trainReadCompare n p flips => exact execTrainReadCompare_keeps h n p flips
  | trainMrw n p => exact execTrainMrw_keeps h n p
  | tenderAttach b => exact execTenderAttach_keeps h b
  | tenderDetach b => exact execTenderDetach_keeps h b
  | tenderMaintStart b => exact execTenderMaintStart_keeps h b
  | tenderMaintStop b => exact execTenderMaintStop_keeps h b
  | fabricScrubStart c => exact execFabricScrubStart_keeps h c
  | ioDelayTarget c n v => exact execIoDelayTarget_keeps h c n v
  | loadStart => exact execLoadStart_keeps h
  | loadAbort => exact execLoadAbort_keeps h
  | keyRamLock => exact execKeyRamLock_keeps h
  | keyRamCommit => exact execKeyRamCommit_keeps h
  | keyRamClear => exact execKeyRamClear_keeps h
  | adminTailWrite p v => exact execAdminTailWrite_keeps h p v
  | ctxCreate p cmd desc qtab => exact execCtxCreate_keeps h p cmd desc qtab
  | ctxDestroy p cmd => exact execCtxDestroy_keeps h p cmd
  | ctxBind p cmd => exact execCtxBind_keeps h p cmd
  | ctxUnbind p cmd => exact execCtxUnbind_keeps h p cmd
  | ctxMove p cmd => exact execCtxMove_keeps h p cmd
  | ctxMoveCopy => exact execCtxMoveCopy_keeps h
  | routeWrite p cmd => exact execRouteWrite_keeps h p cmd
  | vfMap p cmd => exact execVfMap_keeps h p cmd
  | hclStart p cmd => exact execHclStart_keeps h p cmd
  | brake p cmd => exact execBrake_keeps h p cmd
  | brakeDone n host => exact execBrakeDone_keeps h n host
  | brakeUnitTimeout n u => exact execBrakeUnitTimeout_keeps h n u
  | sqtail d r v => exact execSqtail_keeps h d r v
  | cqhead d r v => exact execCqhead_keeps h d r v
  | qsync d r host => exact execQsync_keeps h d r host
  | qsyncDisableEffect n r => exact execQsyncDisableEffect_keeps h n r
  | resume d v => exact execResume_keeps h d v
  | cqrel d r => exact execCqrel_keeps h d r
  | dmahead d k v => exact execDmahead_keeps h d k v
  | workOrderStart n host => exact execWorkOrderStart_keeps h n host
  | workOrderComplete n => exact execWorkOrderComplete_keeps h n
  | completionWrite n r host => exact execCompletionWrite_keeps h n r host
  | perstAssert p => exact execPerstAssert_keeps h p
  | perstRelease p vfs ats => exact execPerstRelease_keeps h p vfs ats
  | flr p v => exact execFlr_keeps h p v
  | atsResponse p t => exact execAtsResponse_keeps h p t
  | hostCompletion p n good data => exact execHostCompletion_keeps h p n good data
  | powerCmdS0 mask => exact execPowerCmdS0_keeps h mask
  | powerCmdS1 mask => exact execPowerCmdS1_keeps h mask
  | powerCmdS2 mask => exact execPowerCmdS2_keeps h mask
  | powerCmdS3 => exact execPowerCmdS3_keeps h
  | profileWrite sel => exact execProfileWrite_keeps h sel
  | padRelease mask => exact execPadRelease_keeps h mask
  | faultReport src => exact execFaultReport_keeps h src
  | coachRecoveryDone k => exact execCoachRecoveryDone_keeps h k
  | coachRecoveryTimeout k => exact execCoachRecoveryTimeout_keeps h k
  | carriageRecoveryDone c => exact execCarriageRecoveryDone_keeps h c
  | carriageRecoveryTimeout c => exact execCarriageRecoveryTimeout_keeps h c
  | ctxResume n => exact execCtxResume_keeps h n
  | recBrake n => exact execRecBrake_keeps h n
  | hangExpiry => exact execHangExpiry_keeps h
  | chiprstRequest => exact execChiprstRequest_keeps h
  | pmWatchdogExpiry => exact execPmWatchdogExpiry_keeps h
  | maintRequest kind unit host => exact execMaintRequest_keeps h kind unit host
  | partnerLost => exact execPartnerLost_keeps h
  | partnerAliveLost => exact execPartnerAliveLost_keeps h
  | witTokenHeld => exact execWitTokenHeld_keeps h
  | resync => exact execResync_keeps h
  | ctxRoleWrite role => exact execCtxRoleWrite_keeps h role
  | debugRequest level => exact execDebugRequest_keeps h level
  | debugClose => exact execDebugClose_keeps h
  | debugResponseSubmit v => exact execDebugResponseSubmit_keeps h v
  | pertWrite which v => exact execPertWrite_keeps h which v
  | fuseProgram => exact execFuseProgram_keeps h
  | fuseLock => exact execFuseLock_keeps h
  | partnerAliveEdge => exact execPartnerAliveEdge_keeps h
  | witTokenLow => exact execWitTokenLow_keeps h
  | atsInvalidation p fn page pages => exact execAtsInvalidation_keeps h p fn page pages
  | _ => exact KeepsR.ok h

theorem State.letIn_keeps {r s : State} (h : Keeps r s) (l : List Waiting) : KeepsR r (s.letIn l) := by
  induction l generalizing s with
  | nil => exact KeepsR.ok h
  | cons w l ih =>
    obtain ⟨t, e, ht⟩ := admitted_keeps h w.cmd
    simp only [State.letIn, e]
    exact ih (Keeps.ite (State.bump_keeps ht _ _ _ _) ht)

theorem State.admitIo_keeps {r s : State} (h : Keeps r s)  : Keeps r (State.admitIo s) := by
  unfold State.admitIo
  try dsimp only
  repeat' (first
    | with_reducible assumption | (with_reducible exact Keeps.refl _) | (with_reducible apply State.bump_keeps)
    | (with_reducible apply State.presentIo_keeps) | (with_reducible apply Keeps.ite) | (with_reducible apply Keeps.foldl) | intro _ _ _
    | (fail_if_no_progress dsimp only) | split)

theorem execExtest_keeps {r s : State} (h : Keeps r s) (a0 : List Bool) (a1 : List Bool) : KeepsR r (execExtest a0 a1 s) := by
  unfold execExtest
  try dsimp only
  repeat' (first
    | with_reducible assumption | (with_reducible exact Keeps.refl _) | with_reducible apply KeepsR.ok | with_reducible apply KeepsR.ite
    | (with_reducible apply State.restricted_keeps) | (with_reducible apply Keeps.ite) | (fail_if_no_progress dsimp only) | split)

theorem State.testedCoach_keeps {r s : State} (h : Keeps r s) (a1 : ℕ) : Keeps r (State.testedCoach s a1) := by
  unfold State.testedCoach
  try dsimp only
  repeat' (first
    | with_reducible assumption | (with_reducible exact Keeps.refl _) | (with_reducible apply State.draws_keeps)
    | (with_reducible apply State.updCoach_keeps) | (with_reducible apply Keeps.ite)
    | (fail_if_no_progress with_reducible refine Keeps.rec_upd ?_ rfl rfl rfl rfl rfl)
    | (fail_if_no_progress with_reducible refine Keeps.rec_wf ?_ rfl rfl (by first | exact id | exact memWf_memWrite _ _ | exact mwf_mblock _ _ | exact mwf_mdrop _ | exact fun _ => rfl) (by first | exact id | exact memWf_memWrite _ _ | exact mwf_mblock _ _ | exact mwf_mdrop _ | exact fun _ => rfl) (by first | exact id | exact memWf_memWrite _ _ | exact mwf_mblock _ _ | exact mwf_mdrop _ | exact fun _ => rfl))
    | (fail_if_no_progress dsimp only) | split)

theorem execCoachSelfTestDone_keeps {r s : State} (h : Keeps r s) (a0 : Coach) (a1 : BitVec 6) : KeepsR r (execCoachSelfTestDone a0 a1 s) := by
  unfold execCoachSelfTestDone
  try dsimp only
  repeat' (first
    | with_reducible assumption | (with_reducible exact Keeps.refl _) | with_reducible apply KeepsR.ok | with_reducible apply KeepsR.ite
    | (with_reducible apply State.markCoach_keeps) | (with_reducible apply State.mntEnd_keeps) | (with_reducible apply State.setFlds_keeps)
    | (with_reducible apply State.testedCoach_keeps) | (with_reducible apply Keeps.ite) | (fail_if_no_progress dsimp only) | split)

theorem State.sweepOpens_keeps {r s : State} (h : Keeps r s) (a1 : ℕ) : Keeps r (State.sweepOpens s a1) := by
  unfold State.sweepOpens
  try dsimp only
  repeat' (first
    | with_reducible assumption | (with_reducible exact Keeps.refl _) | (with_reducible apply Keeps.ite) | (with_reducible apply Keeps.foldl)
    | intro _ _ _ | (fail_if_no_progress with_reducible refine Keeps.rec_upd ?_ rfl rfl rfl rfl rfl) | (fail_if_no_progress dsimp only) | split)

theorem execVmax_keeps {r s : State} (h : Keeps r s) (a0 : Coach) : KeepsR r (execVmax a0 s) := by
  unfold execVmax
  try dsimp only
  repeat' (first
    | with_reducible assumption | (with_reducible exact Keeps.refl _) | with_reducible apply KeepsR.ok | with_reducible apply KeepsR.ite
    | (with_reducible apply State.issueTo_keeps) | (with_reducible apply Keeps.ite) | (fail_if_no_progress dsimp only) | split)

theorem execMirrorCopyAccept_keeps {r s : State} (h : Keeps r s) (a0 : Car) (a1 : Fin 8) : KeepsR r (execMirrorCopyAccept a0 a1 s) := by
  unfold execMirrorCopyAccept
  try dsimp only
  repeat' (first
    | with_reducible assumption | (with_reducible exact Keeps.refl _) | with_reducible apply KeepsR.ok | with_reducible apply KeepsR.ite
    | (with_reducible apply State.hbmEnter_keeps) | (with_reducible apply State.mirrorSend_keeps)
    | (with_reducible refine Keeps.of_snd (by assumption) ?_) | (with_reducible refine Keeps.of_fst (by assumption) ?_)
    | (with_reducible apply Keeps.ite) | (with_reducible apply Keeps.foldl) | intro _ _ _ | (fail_if_no_progress dsimp only) | split)

theorem State.strapLoad_keeps {r s : State} (h : Keeps r s)  : Keeps r (State.strapLoad s) := by
  unfold State.strapLoad
  try dsimp only
  repeat' (first
    | with_reducible assumption | (with_reducible exact Keeps.refl _) | (with_reducible apply State.beginLoad_keeps)
    | (with_reducible refine Keeps.of_snd (by assumption) ?_) | (with_reducible refine Keeps.of_fst (by assumption) ?_)
    | (with_reducible apply Keeps.ite) | (fail_if_no_progress dsimp only) | split)

theorem State.acceptHead_keeps {r s : State} (h : Keeps r s) (a1 : ℕ) (a2 : ℕ) (a3 : Packet) : Keeps r (State.acceptHead s a1 a2 a3) := by
  unfold State.acceptHead
  try dsimp only
  repeat' (first
    | with_reducible assumption | (with_reducible exact Keeps.refl _) | (with_reducible refine Keeps.of_snd (by assumption) ?_)
    | (with_reducible refine Keeps.of_fst (by assumption) ?_) | (with_reducible apply Keeps.ite)
    | (fail_if_no_progress with_reducible refine Keeps.rec_upd ?_ rfl rfl rfl rfl rfl) | (fail_if_no_progress dsimp only) | split)

theorem State.mirrorNext_keeps {r s : State} (h : Keeps r s) (a1 : ℕ) (a2 : ℕ) (a3 : List ℕ) : KeepsR r (State.mirrorNext s a1 a2 a3) := by
  unfold State.mirrorNext
  try dsimp only
  repeat' (first
    | with_reducible assumption | (with_reducible exact Keeps.refl _) | with_reducible apply KeepsR.ok | with_reducible apply KeepsR.ite
    | (with_reducible apply State.takeNumbered_keeps) | (with_reducible refine Keeps.of_snd (by assumption) ?_)
    | (with_reducible refine Keeps.of_fst (by assumption) ?_) | (with_reducible apply Keeps.ite)
    | (fail_if_no_progress with_reducible refine Keeps.rec_upd ?_ rfl rfl rfl rfl rfl) | (fail_if_no_progress dsimp only) | split)

theorem execMirrorJournal_keeps {r s : State} (h : Keeps r s) (a0 : Fin 2) : KeepsR r (execMirrorJournal a0 s) := by
  unfold execMirrorJournal
  try dsimp only
  repeat' (first
    | with_reducible assumption | (with_reducible exact Keeps.refl _) | with_reducible apply KeepsR.ok | with_reducible apply KeepsR.ite
    | (with_reducible apply State.mirrorNext_keeps) | (with_reducible apply Keeps.ite) | (fail_if_no_progress dsimp only) | split)

theorem State.tick_keeps {r s : State} (h : Keeps r s)  : Keeps r (State.tick s) := by
  unfold State.tick
  try dsimp only
  repeat' (first
    | with_reducible assumption | (with_reducible exact Keeps.refl _) | (with_reducible apply State.setFld_keeps)
    | (with_reducible apply State.wrapAdd_keeps) | (with_reducible apply Keeps.ite)
    | (fail_if_no_progress with_reducible refine Keeps.rec_upd ?_ rfl rfl rfl rfl rfl) | (fail_if_no_progress dsimp only) | split)

theorem execUnnamedOffsetAccess_keeps {r s : State} (h : Keeps r s) (a0 : BitVec 30) (a1 : Bool) : KeepsR r (execUnnamedOffsetAccess a0 a1 s) := by
  unfold execUnnamedOffsetAccess
  try dsimp only
  repeat' (first
    | with_reducible assumption | (with_reducible exact Keeps.refl _) | with_reducible apply KeepsR.ok | with_reducible apply KeepsR.ite
    | (with_reducible apply State.missed_keeps) | (with_reducible apply Keeps.ite) | (fail_if_no_progress dsimp only) | split)

theorem execIdcode_keeps {r s : State} (h : Keeps r s)  : KeepsR r (execIdcode s) := by
  unfold execIdcode
  try dsimp only
  repeat' (first
    | with_reducible assumption | (with_reducible exact Keeps.refl _) | with_reducible apply KeepsR.ok | with_reducible apply KeepsR.ite
    | (with_reducible apply State.emit_keeps) | (with_reducible apply State.setTap_keeps) | (with_reducible apply Keeps.ite)
    | (fail_if_no_progress dsimp only) | split)

theorem State.afterS3_keeps {r s : State} (h : Keeps r s)  : Keeps r (State.afterS3 s) := by
  unfold State.afterS3
  try dsimp only
  repeat' (first
    | with_reducible assumption | (with_reducible exact Keeps.refl _) | (with_reducible apply State.bare_keeps)
    | (with_reducible apply State.resetFields_keeps) | (with_reducible apply State.setFld_keeps) | (with_reducible apply State.setFlds_keeps)
    | (with_reducible apply Keeps.ite) | (with_reducible apply Keeps.foldl) | intro _ _ _
    | (fail_if_no_progress with_reducible refine Keeps.rec_upd ?_ rfl rfl rfl rfl rfl) | (fail_if_no_progress dsimp only) | split)

theorem State.selfTest_keeps {r s : State} (h : Keeps r s) (a1 : List Coach) (a2 : List Car) : Keeps r (State.selfTest s a1 a2) := by
  unfold State.selfTest
  try dsimp only
  repeat' (first
    | with_reducible assumption | (with_reducible exact Keeps.refl _) | (with_reducible apply State.logEntry_keeps)
    | (with_reducible apply State.markCoach_keeps) | (with_reducible apply Keeps.ite) | (with_reducible apply Keeps.foldl) | intro _ _ _
    | (fail_if_no_progress dsimp only) | split)

theorem State.railsUp_keeps {r s : State} (h : Keeps r s) (a1 : List Coach) (a2 : List Car) : Keeps r (State.railsUp s a1 a2) := by
  unfold State.railsUp
  try dsimp only
  repeat' (first
    | with_reducible assumption | (with_reducible exact Keeps.refl _) | (with_reducible apply State.afterS3_keeps)
    | (with_reducible apply State.bayWake_keeps) | (with_reducible apply State.pwrEvent_keeps) | (with_reducible apply State.selfTest_keeps)
    | (with_reducible apply State.setFld_keeps) | (with_reducible apply State.strapLoad_keeps) | (with_reducible apply Keeps.ite)
    | (with_reducible apply Keeps.foldl) | intro _ _ _ | (fail_if_no_progress with_reducible refine Keeps.rec_upd ?_ rfl rfl rfl rfl rfl)
    | (fail_if_no_progress dsimp only) | split)

theorem execRailGood_keeps {r s : State} (h : Keeps r s) (a0 : List Coach) (a1 : List Car) : KeepsR r (execRailGood a0 a1 s) := by
  unfold execRailGood
  try dsimp only
  repeat' (first
    | with_reducible assumption | (with_reducible exact Keeps.refl _) | with_reducible apply KeepsR.ok | with_reducible apply KeepsR.ite
    | (with_reducible apply State.emit_keeps) | (with_reducible apply State.railsUp_keeps) | (with_reducible apply Keeps.ite)
    | (with_reducible apply Keeps.foldl) | intro _ _ _ | (fail_if_no_progress with_reducible refine Keeps.rec_upd ?_ rfl rfl rfl rfl rfl)
    | (fail_if_no_progress dsimp only) | split)

theorem State.clearShadows_keeps {r s : State} (h : Keeps r s)  : Keeps r (State.clearShadows s) := by
  unfold State.clearShadows
  try dsimp only
  repeat' (first
    | with_reducible assumption | (with_reducible exact Keeps.refl _) | (with_reducible apply State.updCtx_keeps) | (with_reducible apply Keeps.ite)
    | (with_reducible apply Keeps.foldl) | intro _ _ _ | (fail_if_no_progress with_reducible refine Keeps.rec_upd ?_ rfl rfl rfl rfl rfl)
    | (fail_if_no_progress dsimp only) | split)

theorem execNotAnsweringAccess_keeps {r s : State} (h : Keeps r s) (a0 : BitVec 30) (a1 : Bool) : KeepsR r (execNotAnsweringAccess a0 a1 s) := by
  unfold execNotAnsweringAccess
  try dsimp only
  repeat' (first
    | with_reducible assumption | (with_reducible exact Keeps.refl _) | with_reducible apply KeepsR.ok | with_reducible apply KeepsR.ite
    | (with_reducible apply State.missed_keeps) | (with_reducible apply Keeps.ite) | (fail_if_no_progress dsimp only) | split)

theorem State.reduceIn_keeps {r s : State} (h : Keeps r s) (a1 : ℕ) (a2 : ℕ) (a3 : Packet) : Keeps r (State.reduceIn s a1 a2 a3) := by
  unfold State.reduceIn
  try dsimp only
  repeat' (first
    | with_reducible assumption | (with_reducible exact Keeps.refl _) | (with_reducible apply State.fillAccs_keeps)
    | (with_reducible apply State.syncSettle_keeps) | (with_reducible apply State.updCoach_keeps) | (with_reducible apply Keeps.ite)
    | (fail_if_no_progress with_reducible refine Keeps.rec_upd ?_ rfl rfl rfl rfl rfl) | (fail_if_no_progress dsimp only) | split)

theorem execSdsplit_keeps {r s : State} (h : Keeps r s) (a0 : Coach) : KeepsR r (execSdsplit a0 s) := by
  unfold execSdsplit
  try dsimp only
  repeat' (first
    | with_reducible assumption | (with_reducible exact Keeps.refl _) | with_reducible apply KeepsR.ok | with_reducible apply KeepsR.ite
    | (with_reducible apply State.issueTo_keeps) | (with_reducible apply Keeps.ite) | (fail_if_no_progress dsimp only) | split)

theorem execMirrorContext_keeps {r s : State} (h : Keeps r s) (a0 : Fin 2) : KeepsR r (execMirrorContext a0 s) := by
  unfold execMirrorContext
  try dsimp only
  repeat' (first
    | with_reducible assumption | (with_reducible exact Keeps.refl _) | with_reducible apply KeepsR.ok | with_reducible apply KeepsR.ite
    | (with_reducible apply State.mirrorNext_keeps) | (with_reducible apply Keeps.ite) | (fail_if_no_progress dsimp only) | split)

theorem execVmin_keeps {r s : State} (h : Keeps r s) (a0 : Coach) : KeepsR r (execVmin a0 s) := by
  unfold execVmin
  try dsimp only
  repeat' (first
    | with_reducible assumption | (with_reducible exact Keeps.refl _) | with_reducible apply KeepsR.ok | with_reducible apply KeepsR.ite
    | (with_reducible apply State.issueTo_keeps) | (with_reducible apply Keeps.ite) | (fail_if_no_progress dsimp only) | split)

theorem State.takePlain_keeps {r s : State} (h : Keeps r s) (a1 : ℕ) (a2 : ℕ) {t : _ × State} (hq : State.takePlain s a1 a2 = some t) : Keeps r t.2
    := by
  simp only [State.takePlain] at hq
  repeat' (first
    | contradiction | (obtain rfl := Option.some.inj hq) | (split at hq) | with_reducible assumption | (with_reducible exact Keeps.refl _)
    | (with_reducible refine Keeps.of_snd (by assumption) ?_) | (with_reducible refine Keeps.of_fst (by assumption) ?_)
    | (with_reducible apply Keeps.ite) | (fail_if_no_progress with_reducible refine Keeps.rec_upd ?_ rfl rfl rfl rfl rfl)
    | (fail_if_no_progress dsimp only) | split)

theorem execSwb_keeps {r s : State} (h : Keeps r s) (a0 : Coach) : KeepsR r (execSwb a0 s) := by
  unfold execSwb
  try dsimp only
  repeat' (first
    | with_reducible assumption | (with_reducible exact Keeps.refl _) | with_reducible apply KeepsR.ok | with_reducible apply KeepsR.ite
    | (with_reducible apply State.issueTo_keeps) | (with_reducible apply Keeps.ite) | (fail_if_no_progress dsimp only) | split)

theorem State.railsFail_keeps {r s : State} (h : Keeps r s) (a1 : List ℕ) : Keeps r (State.railsFail s a1) := by
  unfold State.railsFail
  try dsimp only
  repeat' (first
    | with_reducible assumption | (with_reducible exact Keeps.refl _) | (with_reducible apply State.emit_keeps)
    | (with_reducible apply State.logEntry_keeps) | (with_reducible apply State.railsOff_keeps) | (with_reducible apply State.setFld_keeps)
    | (with_reducible apply Keeps.ite) | (with_reducible apply Keeps.foldl) | intro _ _ _
    | (fail_if_no_progress with_reducible refine Keeps.rec_upd ?_ rfl rfl rfl rfl rfl) | (fail_if_no_progress dsimp only) | split)

theorem execPmbAlert_keeps {r s : State} (h : Keeps r s) (a0 : List (BitVec 8)) : KeepsR r (execPmbAlert a0 s) := by
  unfold execPmbAlert
  try dsimp only
  repeat' (first
    | with_reducible assumption | (with_reducible exact Keeps.refl _) | with_reducible apply KeepsR.ok | with_reducible apply KeepsR.ite
    | (with_reducible apply State.emit_keeps) | (with_reducible apply State.railsFail_keeps) | (with_reducible apply Keeps.ite)
    | (fail_if_no_progress dsimp only) | split)

theorem execVmaxi_keeps {r s : State} (h : Keeps r s) (a0 : Coach) : KeepsR r (execVmaxi a0 s) := by
  unfold execVmaxi
  try dsimp only
  repeat' (first
    | with_reducible assumption | (with_reducible exact Keeps.refl _) | with_reducible apply KeepsR.ok | with_reducible apply KeepsR.ite
    | (with_reducible apply State.issueTo_keeps) | (with_reducible apply Keeps.ite) | (fail_if_no_progress dsimp only) | split)

theorem execVadd_keeps {r s : State} (h : Keeps r s) (a0 : Coach) : KeepsR r (execVadd a0 s) := by
  unfold execVadd
  try dsimp only
  repeat' (first
    | with_reducible assumption | (with_reducible exact Keeps.refl _) | with_reducible apply KeepsR.ok | with_reducible apply KeepsR.ite
    | (with_reducible apply State.issueTo_keeps) | (with_reducible apply Keeps.ite) | (fail_if_no_progress dsimp only) | split)

theorem execVld_keeps {r s : State} (h : Keeps r s) (a0 : Coach) : KeepsR r (execVld a0 s) := by
  unfold execVld
  try dsimp only
  repeat' (first
    | with_reducible assumption | (with_reducible exact Keeps.refl _) | with_reducible apply KeepsR.ok | with_reducible apply KeepsR.ite
    | (with_reducible apply State.issueTo_keeps) | (with_reducible apply Keeps.ite) | (fail_if_no_progress dsimp only) | split)

theorem execVcvt_keeps {r s : State} (h : Keeps r s) (a0 : Coach) : KeepsR r (execVcvt a0 s) := by
  unfold execVcvt
  try dsimp only
  repeat' (first
    | with_reducible assumption | (with_reducible exact Keeps.refl _) | with_reducible apply KeepsR.ok | with_reducible apply KeepsR.ite
    | (with_reducible apply State.issueTo_keeps) | (with_reducible apply Keeps.ite) | (fail_if_no_progress dsimp only) | split)

theorem State.hostIn_keeps {r s : State} (h : Keeps r s) (a1 : ℕ) (a2 : Packet) : Keeps r (State.hostIn s a1 a2) := by
  unfold State.hostIn
  try dsimp only
  repeat' (first
    | with_reducible assumption | (with_reducible exact Keeps.refl _) | (with_reducible apply State.emit_keeps)
    | (with_reducible apply State.hostAccess_keeps) | (with_reducible apply State.hostFail_keeps)
    | (with_reducible refine Keeps.of_snd (by assumption) ?_) | (with_reducible refine Keeps.of_fst (by assumption) ?_)
    | (with_reducible apply Keeps.ite) | (fail_if_no_progress with_reducible refine Keeps.rec_upd ?_ rfl rfl rfl rfl rfl)
    | (fail_if_no_progress dsimp only) | split)

theorem State.toFirmware_keeps {r s : State} (h : Keeps r s) (a1 : ℕ) (a2 : Packet) : Keeps r (State.toFirmware s a1 a2) := by
  unfold State.toFirmware
  try dsimp only
  repeat' (first
    | with_reducible assumption | (with_reducible exact Keeps.refl _) | (with_reducible apply Keeps.ite)
    | (fail_if_no_progress with_reducible refine Keeps.rec_upd ?_ rfl rfl rfl rfl rfl) | (fail_if_no_progress dsimp only) | split)

theorem State.memoryIn_keeps {r s : State} (h : Keeps r s) (a1 : ℕ) (a2 : Packet) : Keeps r (State.memoryIn s a1 a2) := by
  unfold State.memoryIn
  try dsimp only
  repeat' (first
    | with_reducible assumption | (with_reducible exact Keeps.refl _) | (with_reducible apply State.hostIn_keeps)
    | (with_reducible apply State.toFirmware_keeps) | (with_reducible apply State.updBay_keeps) | (with_reducible apply State.updHbm_keeps)
    | (with_reducible apply Keeps.ite) | (fail_if_no_progress with_reducible refine Keeps.rec_upd ?_ rfl rfl rfl rfl rfl)
    | (fail_if_no_progress dsimp only) | split)

theorem State.readRegister_keeps {r s : State} (h : Keeps r s) (a1 : ℕ) : Keeps r (State.readRegister s a1) := by
  unfold State.readRegister
  try dsimp only
  repeat' (first
    | with_reducible assumption | (with_reducible exact Keeps.refl _) | (with_reducible apply State.setFld_keeps) | (with_reducible apply Keeps.ite)
    | (with_reducible apply Keeps.foldl) | intro _ _ _ | (fail_if_no_progress with_reducible refine Keeps.rec_upd ?_ rfl rfl rfl rfl rfl)
    | (fail_if_no_progress dsimp only) | split)

theorem State.busRead_keeps {r s : State} (h : Keeps r s) (a1 : ℕ) : Keeps r (State.busRead s a1) := by
  unfold State.busRead
  try dsimp only
  repeat' (first
    | with_reducible assumption | (with_reducible exact Keeps.refl _) | (with_reducible apply State.latchHigh_keeps)
    | (with_reducible apply State.missed_keeps) | (with_reducible apply State.readRegister_keeps)
    | (with_reducible refine Keeps.of_snd (by assumption) ?_) | (with_reducible refine Keeps.of_fst (by assumption) ?_)
    | (with_reducible apply Keeps.ite) | (fail_if_no_progress with_reducible refine Keeps.rec_upd ?_ rfl rfl rfl rfl rfl)
    | (fail_if_no_progress dsimp only) | split)

theorem State.regRequest_keeps {r s : State} (h : Keeps r s) (a1 : ℕ) (a2 : Packet) : Keeps r (State.regRequest s a1 a2) := by
  unfold State.regRequest
  try dsimp only
  repeat' (first
    | with_reducible assumption | (with_reducible exact Keeps.refl _) | (with_reducible apply State.busRead_keeps)
    | (with_reducible apply State.busWrite_keeps) | (with_reducible apply State.respond_keeps)
    | (with_reducible refine Keeps.of_snd (by assumption) ?_) | (with_reducible refine Keeps.of_fst (by assumption) ?_)
    | (with_reducible apply Keeps.ite) | (fail_if_no_progress with_reducible refine Keeps.rec_upd ?_ rfl rfl rfl rfl rfl)
    | (fail_if_no_progress dsimp only) | split)

theorem State.accept_keeps {r s : State} (h : Keeps r s) (a1 : ℕ) (a2 : Packet) : Keeps r (State.accept s a1 a2) := by
  unfold State.accept
  try dsimp only
  repeat' (first
    | with_reducible assumption | (with_reducible exact Keeps.refl _) | (with_reducible apply State.answer_keeps)
    | (with_reducible apply State.linkOffer_keeps) | (with_reducible apply State.linkReturn_keeps) | (with_reducible apply State.memoryIn_keeps)
    | (with_reducible apply State.reduceIn_keeps) | (with_reducible apply State.regRequest_keeps) | (with_reducible apply State.toFabric_keeps)
    | (with_reducible apply State.toFirmware_keeps) | (with_reducible apply State.toInbox_keeps)
    | (with_reducible refine Keeps.of_snd (by assumption) ?_) | (with_reducible refine Keeps.of_fst (by assumption) ?_)
    | (with_reducible apply Keeps.ite) | (fail_if_no_progress with_reducible refine Keeps.rec_upd ?_ rfl rfl rfl rfl rfl)
    | (fail_if_no_progress dsimp only) | split)

theorem State.reportUe_keeps {r s : State} (h : Keeps r s) (a1 : ℕ) : Keeps r (State.reportUe s a1) := by
  unfold State.reportUe
  try dsimp only
  repeat' (first
    | with_reducible assumption | (with_reducible exact Keeps.refl _) | (with_reducible apply State.report_keeps) | (with_reducible apply Keeps.ite)
    | (fail_if_no_progress with_reducible refine Keeps.rec_upd ?_ rfl rfl rfl rfl rfl) | (fail_if_no_progress dsimp only) | split)

theorem State.badPayload_keeps {r s : State} (h : Keeps r s) (a1 : ℕ) (a2 : Packet) : Keeps r (State.badPayload s a1 a2) := by
  unfold State.badPayload
  try dsimp only
  repeat' (first
    | with_reducible assumption | (with_reducible exact Keeps.refl _) | (with_reducible apply State.answer_keeps)
    | (with_reducible apply State.linkReturn_keeps) | (with_reducible apply State.pairGap_keeps) | (with_reducible apply State.recordUe_keeps)
    | (with_reducible apply State.reportUe_keeps) | (with_reducible apply State.respond_keeps)
    | (with_reducible refine Keeps.of_snd (by assumption) ?_) | (with_reducible refine Keeps.of_fst (by assumption) ?_)
    | (with_reducible apply Keeps.ite) | (fail_if_no_progress with_reducible refine Keeps.rec_upd ?_ rfl rfl rfl rfl rfl)
    | (fail_if_no_progress dsimp only) | split)

theorem State.staleDrop_keeps {r s : State} (h : Keeps r s) (a1 : ℕ) (a2 : Packet) : Keeps r (State.staleDrop s a1 a2) := by
  unfold State.staleDrop
  try dsimp only
  repeat' (first
    | with_reducible assumption | (with_reducible exact Keeps.refl _) | (with_reducible apply State.bump_keeps)
    | (with_reducible apply State.inject_keeps) | (with_reducible apply Keeps.ite)
    | (fail_if_no_progress with_reducible refine Keeps.rec_upd ?_ rfl rfl rfl rfl rfl) | (fail_if_no_progress dsimp only) | split)

theorem State.takePort_keeps {r s : State} (h : Keeps r s) (a1 : ℕ) (a2 : Packet) : Keeps r (State.takePort s a1 a2) := by
  unfold State.takePort
  try dsimp only
  repeat' (first
    | with_reducible assumption | (with_reducible exact Keeps.refl _) | (with_reducible apply Keeps.ite)
    | (fail_if_no_progress with_reducible refine Keeps.rec_upd ?_ rfl rfl rfl rfl rfl) | (fail_if_no_progress dsimp only) | split)

theorem State.takeWhole_keeps {r s : State} (h : Keeps r s) (a1 : ℕ) (a2 : ℕ) (a3 : Packet) (a4 : List Flit) : Keeps r (State.takeWhole s a1 a2 a3
    a4) := by
  unfold State.takeWhole
  try dsimp only
  repeat' (first
    | with_reducible assumption | (with_reducible exact Keeps.refl _) | (with_reducible apply State.accept_keeps)
    | (with_reducible apply State.badPayload_keeps) | (with_reducible apply State.bump_keeps) | (with_reducible apply State.draw_keeps)
    | (with_reducible apply State.recordUe_keeps) | (with_reducible apply State.reportUe_keeps) | (with_reducible apply State.staleDrop_keeps)
    | (with_reducible apply State.takePort_keeps) | (with_reducible refine Keeps.of_snd (by assumption) ?_)
    | (with_reducible refine Keeps.of_fst (by assumption) ?_) | (with_reducible apply Keeps.ite) | (with_reducible apply Keeps.foldl) | intro _ _ _
    | (fail_if_no_progress dsimp only) | split)

theorem execMirrorHbm_keeps {r s : State} (h : Keeps r s) (a0 : Fin 2) : KeepsR r (execMirrorHbm a0 s) := by
  unfold execMirrorHbm
  try dsimp only
  repeat' (first
    | with_reducible assumption | (with_reducible exact Keeps.refl _) | with_reducible apply KeepsR.ok | with_reducible apply KeepsR.ite
    | (with_reducible apply State.mirrorNext_keeps) | (with_reducible apply Keeps.ite) | (fail_if_no_progress dsimp only) | split)

theorem execVmini_keeps {r s : State} (h : Keeps r s) (a0 : Coach) : KeepsR r (execVmini a0 s) := by
  unfold execVmini
  try dsimp only
  repeat' (first
    | with_reducible assumption | (with_reducible exact Keeps.refl _) | with_reducible apply KeepsR.ok | with_reducible apply KeepsR.ite
    | (with_reducible apply State.issueTo_keeps) | (with_reducible apply Keeps.ite) | (fail_if_no_progress dsimp only) | split)

theorem execExtestPulse_keeps {r s : State} (h : Keeps r s) (a0 : List Bool) (a1 : List Bool) : KeepsR r (execExtestPulse a0 a1 s) := by
  unfold execExtestPulse
  try dsimp only
  repeat' (first
    | with_reducible assumption | (with_reducible exact Keeps.refl _) | with_reducible apply KeepsR.ok | with_reducible apply KeepsR.ite
    | (with_reducible apply State.restricted_keeps) | (with_reducible apply Keeps.ite) | (fail_if_no_progress dsimp only) | split)

theorem State.chanWalkFails_keeps {r s : State} (h : Keeps r s) (a1 : ℕ) (a2 : ℕ) (a3 : ℕ) (a4 : ℕ) : Keeps r (State.chanWalkFails s a1 a2 a3 a4) :=
    by
  unfold State.chanWalkFails
  try dsimp only
  repeat' (first
    | with_reducible assumption | (with_reducible exact Keeps.refl _) | (with_reducible apply State.chanFail_keeps)
    | (with_reducible apply State.ringFails_keeps) | (with_reducible apply Keeps.ite) | (fail_if_no_progress dsimp only) | split)

theorem execSweepstart_keeps {r s : State} (h : Keeps r s) (a0 : Fin 2) : KeepsR r (execSweepstart a0 s) := by
  unfold execSweepstart
  try dsimp only
  repeat' (first
    | with_reducible assumption | (with_reducible exact Keeps.refl _) | with_reducible apply KeepsR.ok | with_reducible apply KeepsR.ite
    | (with_reducible apply State.appliedRecord_keeps) | (with_reducible apply State.clearShadows_keeps) | (with_reducible apply State.setFld_keeps)
    | (with_reducible apply State.startResync_keeps) | (with_reducible apply State.sweepOpens_keeps) | (with_reducible apply State.takeover_keeps)
    | (with_reducible refine Keeps.of_snd (by assumption) ?_) | (with_reducible refine Keeps.of_fst (by assumption) ?_)
    | (with_reducible apply Keeps.ite) | (fail_if_no_progress with_reducible refine Keeps.rec_upd ?_ rfl rfl rfl rfl rfl)
    | (fail_if_no_progress dsimp only) | split)

theorem execTapReset_keeps {r s : State} (h : Keeps r s)  : KeepsR r (execTapReset s) := by
  unfold execTapReset
  try dsimp only
  repeat' (first
    | with_reducible assumption | (with_reducible exact Keeps.refl _) | with_reducible apply KeepsR.ok | with_reducible apply KeepsR.ite
    | (with_reducible apply State.setTap_keeps) | (with_reducible apply Keeps.ite) | (fail_if_no_progress dsimp only) | split)

theorem execVrsum_keeps {r s : State} (h : Keeps r s) (a0 : Coach) : KeepsR r (execVrsum a0 s) := by
  unfold execVrsum
  try dsimp only
  repeat' (first
    | with_reducible assumption | (with_reducible exact Keeps.refl _) | with_reducible apply KeepsR.ok | with_reducible apply KeepsR.ite
    | (with_reducible apply State.issueTo_keeps) | (with_reducible apply Keeps.ite) | (fail_if_no_progress dsimp only) | split)

theorem execVrcp_keeps {r s : State} (h : Keeps r s) (a0 : Coach) : KeepsR r (execVrcp a0 s) := by
  unfold execVrcp
  try dsimp only
  repeat' (first
    | with_reducible assumption | (with_reducible exact Keeps.refl _) | with_reducible apply KeepsR.ok | with_reducible apply KeepsR.ite
    | (with_reducible apply State.issueTo_keeps) | (with_reducible apply Keeps.ite) | (fail_if_no_progress dsimp only) | split)

theorem execVquant_keeps {r s : State} (h : Keeps r s) (a0 : Coach) : KeepsR r (execVquant a0 s) := by
  unfold execVquant
  try dsimp only
  repeat' (first
    | with_reducible assumption | (with_reducible exact Keeps.refl _) | with_reducible apply KeepsR.ok | with_reducible apply KeepsR.ite
    | (with_reducible apply State.issueTo_keeps) | (with_reducible apply Keeps.ite) | (fail_if_no_progress dsimp only) | split)

theorem execVexp2_keeps {r s : State} (h : Keeps r s) (a0 : Coach) : KeepsR r (execVexp2 a0 s) := by
  unfold execVexp2
  try dsimp only
  repeat' (first
    | with_reducible assumption | (with_reducible exact Keeps.refl _) | with_reducible apply KeepsR.ok | with_reducible apply KeepsR.ite
    | (with_reducible apply State.issueTo_keeps) | (with_reducible apply Keeps.ite) | (fail_if_no_progress dsimp only) | split)

theorem execVbcast_keeps {r s : State} (h : Keeps r s) (a0 : Coach) : KeepsR r (execVbcast a0 s) := by
  unfold execVbcast
  try dsimp only
  repeat' (first
    | with_reducible assumption | (with_reducible exact Keeps.refl _) | with_reducible apply KeepsR.ok | with_reducible apply KeepsR.ite
    | (with_reducible apply State.issueTo_keeps) | (with_reducible apply Keeps.ite) | (fail_if_no_progress dsimp only) | split)

theorem execVlog2_keeps {r s : State} (h : Keeps r s) (a0 : Coach) : KeepsR r (execVlog2 a0 s) := by
  unfold execVlog2
  try dsimp only
  repeat' (first
    | with_reducible assumption | (with_reducible exact Keeps.refl _) | with_reducible apply KeepsR.ok | with_reducible apply KeepsR.ite
    | (with_reducible apply State.issueTo_keeps) | (with_reducible apply Keeps.ite) | (fail_if_no_progress dsimp only) | split)

theorem State.startRails_keeps {r s : State} (h : Keeps r s)  : Keeps r (State.startRails s) := by
  unfold State.startRails
  try dsimp only
  repeat' (first
    | with_reducible assumption | (with_reducible exact Keeps.refl _) | (with_reducible apply State.emit_keeps) | (with_reducible apply Keeps.ite)
    | (fail_if_no_progress with_reducible refine Keeps.rec_upd ?_ rfl rfl rfl rfl rfl) | (fail_if_no_progress dsimp only) | split)

theorem execPorRelease_keeps {r s : State} (h : Keeps r s) (a0 : BitVec 2) (a1 : BitVec 6) (a2 : BitVec 4) : KeepsR r (execPorRelease a0 a1 a2 s) :=
    by
  unfold execPorRelease
  try dsimp only
  repeat' (first
    | with_reducible assumption | (with_reducible exact Keeps.refl _) | with_reducible apply KeepsR.ok | with_reducible apply KeepsR.ite
    | (with_reducible apply State.setFld_keeps) | (with_reducible apply State.setFlds_keeps) | (with_reducible apply State.startRails_keeps)
    | (with_reducible apply State.strapLoad_keeps) | (with_reducible apply Keeps.ite) | (with_reducible apply Keeps.foldl) | intro _ _ _
    | (fail_if_no_progress with_reducible refine Keeps.rec_upd ?_ rfl rfl rfl rfl rfl) | (fail_if_no_progress dsimp only) | split)

theorem execHeartbeatRecordSend_keeps {r s : State} (h : Keeps r s)  : KeepsR r (execHeartbeatRecordSend s) := by
  unfold execHeartbeatRecordSend
  try dsimp only
  repeat' (first
    | with_reducible assumption | (with_reducible exact Keeps.refl _) | with_reducible apply KeepsR.ok | with_reducible apply KeepsR.ite
    | (with_reducible apply State.mirrorOn_keeps) | (with_reducible apply Keeps.ite) | (with_reducible apply Keeps.foldl) | intro _ _ _
    | (fail_if_no_progress dsimp only) | split)

theorem execSlotBoundary_keeps {r s : State} (h : Keeps r s) (late : Bool) : KeepsR r (execSlotBoundary late s) := by
  unfold execSlotBoundary
  dsimp only
  refine KeepsR.ite (KeepsR.ok h) ?_
  generalize he : byRank _ = l
  clear he
  generalize hs : ({ (if late || s.actionLate then s.lockAbort 8 else s) with lock := _ } : State) = s2
  have h2 : Keeps r s2 := by
    subst hs
    exact (Keeps.ite (State.lockAbort_keeps h _) h).upd rfl rfl rfl rfl rfl
  clear hs
  obtain ⟨t, e, ht⟩ := State.letIn_keeps h2 l
  simp only [e]
  exact KeepsR.ok (State.admitIo_keeps (ht.upd rfl rfl rfl rfl rfl))

theorem State.chansGo_keeps {r s : State} (h : Keeps r s) (a1 : ℕ) : Keeps r (State.chansGo s a1) := by
  unfold State.chansGo
  try dsimp only
  repeat' (first
    | with_reducible assumption | (with_reducible exact Keeps.refl _) | (with_reducible apply State.chanRetry_keeps)
    | (with_reducible apply Keeps.ite) | (with_reducible apply Keeps.foldl) | intro _ _ _ | (fail_if_no_progress dsimp only) | split)

theorem execWalkEntryReturn_keeps {r s : State} (h : Keeps r s) (a0 : Eng) : KeepsR r (execWalkEntryReturn a0 s) := by
  unfold execWalkEntryReturn
  try dsimp only
  repeat' (first
    | with_reducible assumption | (with_reducible exact Keeps.refl _) | with_reducible apply KeepsR.ok | with_reducible apply KeepsR.ite
    | (with_reducible apply State.chanWalkFails_keeps) | (with_reducible apply State.chansGo_keeps) | (with_reducible apply State.dispatchReq_keeps)
    | (with_reducible apply State.markFail_keeps) | (with_reducible apply State.portsFail_keeps) | (with_reducible apply State.portsGo_keeps)
    | (with_reducible apply State.walkReturn_keeps) | (with_reducible refine Keeps.of_snd (by assumption) ?_)
    | (with_reducible refine Keeps.of_fst (by assumption) ?_) | (with_reducible apply Keeps.ite) | (with_reducible apply Keeps.foldl) | intro _ _ _
    | (fail_if_no_progress dsimp only) | split)

theorem execSamplePreload_keeps {r s : State} (h : Keeps r s) (a0 : List Bool) (a1 : List Bool) : KeepsR r (execSamplePreload a0 a1 s) := by
  unfold execSamplePreload
  try dsimp only
  repeat' (first
    | with_reducible assumption | (with_reducible exact Keeps.refl _) | with_reducible apply KeepsR.ok | with_reducible apply KeepsR.ite
    | (with_reducible apply State.scanCells_keeps) | (with_reducible apply Keeps.ite) | (fail_if_no_progress dsimp only) | split)

theorem State.noteAcks_keeps {r s : State} (h : Keeps r s) (a1 : List ℕ) : Keeps r (State.noteAcks s a1) := by
  unfold State.noteAcks
  try dsimp only
  repeat' (first
    | with_reducible assumption | (with_reducible exact Keeps.refl _) | (with_reducible apply State.answerReady_keeps)
    | (with_reducible apply State.checkSynced_keeps) | (with_reducible apply State.setFld_keeps)
    | (with_reducible refine Keeps.of_snd (by assumption) ?_) | (with_reducible refine Keeps.of_fst (by assumption) ?_)
    | (with_reducible apply Keeps.ite) | (with_reducible apply Keeps.foldl) | intro _ _ _
    | (fail_if_no_progress with_reducible refine Keeps.rec_upd ?_ rfl rfl rfl rfl rfl) | (fail_if_no_progress dsimp only) | split)

theorem State.notePartner_keeps {r s : State} (h : Keeps r s) (a1 : ℕ) (a2 : List ℕ) : Keeps r (State.notePartner s a1 a2) := by
  unfold State.notePartner
  try dsimp only
  repeat' (first
    | with_reducible assumption | (with_reducible exact Keeps.refl _) | (with_reducible apply State.pairGap_keeps)
    | (with_reducible apply Keeps.ite) | (fail_if_no_progress with_reducible refine Keeps.rec_upd ?_ rfl rfl rfl rfl rfl)
    | (fail_if_no_progress dsimp only) | split)

theorem execMirrorAck_keeps {r s : State} (h : Keeps r s) (a0 : Fin 2) : KeepsR r (execMirrorAck a0 s) := by
  unfold execMirrorAck
  try dsimp only
  repeat' (first
    | with_reducible assumption | (with_reducible exact Keeps.refl _) | with_reducible apply KeepsR.ok | with_reducible apply KeepsR.ite
    | (with_reducible apply State.noteAcks_keeps) | (with_reducible apply State.notePartner_keeps)
    | (with_reducible refine State.takePlain_keeps ?_ _ _ (by assumption)) | (with_reducible refine Keeps.of_snd (by assumption) ?_)
    | (with_reducible refine Keeps.of_fst (by assumption) ?_) | (with_reducible apply Keeps.ite) | (fail_if_no_progress dsimp only) | split)

theorem execVst_keeps {r s : State} (h : Keeps r s) (a0 : Coach) : KeepsR r (execVst a0 s) := by
  unfold execVst
  try dsimp only
  repeat' (first
    | with_reducible assumption | (with_reducible exact Keeps.refl _) | with_reducible apply KeepsR.ok | with_reducible apply KeepsR.ite
    | (with_reducible apply State.issueTo_keeps) | (with_reducible apply Keeps.ite) | (fail_if_no_progress dsimp only) | split)

theorem execPairLowRead_keeps {r s : State} (h : Keeps r s) (a0 : BitVec 30) : KeepsR r (execPairLowRead a0 s) := by
  unfold execPairLowRead
  try dsimp only
  repeat' (first
    | with_reducible assumption | (with_reducible exact Keeps.refl _) | with_reducible apply KeepsR.ok | with_reducible apply KeepsR.ite
    | (with_reducible apply State.busRead_keeps) | (with_reducible apply Keeps.ite) | (fail_if_no_progress dsimp only) | split)

theorem execVmov_keeps {r s : State} (h : Keeps r s) (a0 : Coach) : KeepsR r (execVmov a0 s) := by
  unfold execVmov
  try dsimp only
  repeat' (first
    | with_reducible assumption | (with_reducible exact Keeps.refl _) | with_reducible apply KeepsR.ok | with_reducible apply KeepsR.ite
    | (with_reducible apply State.issueTo_keeps) | (with_reducible apply Keeps.ite) | (fail_if_no_progress dsimp only) | split)

theorem execBypass_keeps {r s : State} (h : Keeps r s) (a0 : List Bool) : KeepsR r (execBypass a0 s) := by
  unfold execBypass
  try dsimp only
  repeat' (first
    | with_reducible assumption | (with_reducible exact Keeps.refl _) | with_reducible apply KeepsR.ok | with_reducible apply KeepsR.ite
    | (with_reducible apply State.setTap_keeps) | (with_reducible apply State.shiftBypass_keeps) | (with_reducible apply Keeps.ite)
    | (fail_if_no_progress dsimp only) | split)

theorem execVmul_keeps {r s : State} (h : Keeps r s) (a0 : Coach) : KeepsR r (execVmul a0 s) := by
  unfold execVmul
  try dsimp only
  repeat' (first
    | with_reducible assumption | (with_reducible exact Keeps.refl _) | with_reducible apply KeepsR.ok | with_reducible apply KeepsR.ite
    | (with_reducible apply State.issueTo_keeps) | (with_reducible apply Keeps.ite) | (fail_if_no_progress dsimp only) | split)

theorem execPacketDeliver_keeps {r s : State} (h : Keeps r s) (a0 : Car) (a1 : Fin 40) (a2 : List (ℕ × Fin 1064)) : KeepsR r (execPacketDeliver a0
    a1 a2 s) := by
  unfold execPacketDeliver
  try dsimp only
  repeat' (first
    | with_reducible assumption | (with_reducible exact Keeps.refl _) | with_reducible apply KeepsR.ok | with_reducible apply KeepsR.ite
    | (with_reducible apply State.acceptHead_keeps) | (with_reducible apply State.takePort_keeps) | (with_reducible apply State.takeWhole_keeps)
    | (with_reducible refine Keeps.of_snd (by assumption) ?_) | (with_reducible refine Keeps.of_fst (by assumption) ?_)
    | (with_reducible apply Keeps.ite) | (fail_if_no_progress dsimp only) | split)

theorem execClamp_keeps {r s : State} (h : Keeps r s) (a0 : List Bool) (a1 : List Bool) : KeepsR r (execClamp a0 a1 s) := by
  unfold execClamp
  try dsimp only
  repeat' (first
    | with_reducible assumption | (with_reducible exact Keeps.refl _) | with_reducible apply KeepsR.ok | with_reducible apply KeepsR.ite
    | (with_reducible apply State.restricted_keeps) | (with_reducible apply Keeps.ite) | (fail_if_no_progress dsimp only) | split)

theorem execSmac_keeps {r s : State} (h : Keeps r s) (a0 : Coach) : KeepsR r (execSmac a0 s) := by
  unfold execSmac
  try dsimp only
  repeat' (first
    | with_reducible assumption | (with_reducible exact Keeps.refl _) | with_reducible apply KeepsR.ok | with_reducible apply KeepsR.ite
    | (with_reducible apply State.issueTo_keeps) | (with_reducible apply Keeps.ite) | (fail_if_no_progress dsimp only) | split)

theorem execMisalignedAccess_keeps {r s : State} (h : Keeps r s) (a0 : BitVec 30) (a1 : ℕ) (a2 : Bool) : KeepsR r (execMisalignedAccess a0 a1 a2 s)
    := by
  unfold execMisalignedAccess
  try dsimp only
  repeat' (first
    | with_reducible assumption | (with_reducible exact Keeps.refl _) | with_reducible apply KeepsR.ok | with_reducible apply KeepsR.ite
    | (with_reducible apply State.missed_keeps) | (with_reducible apply Keeps.ite) | (fail_if_no_progress dsimp only) | split)

theorem execHighz_keeps {r s : State} (h : Keeps r s) (a0 : List Bool) (a1 : List Bool) : KeepsR r (execHighz a0 a1 s) := by
  unfold execHighz
  try dsimp only
  repeat' (first
    | with_reducible assumption | (with_reducible exact Keeps.refl _) | with_reducible apply KeepsR.ok | with_reducible apply KeepsR.ite
    | (with_reducible apply State.restricted_keeps) | (with_reducible apply Keeps.ite) | (fail_if_no_progress dsimp only) | split)

theorem State.coldReset_keeps {r s : State} (h : Keeps r s)  : Keeps r (State.coldReset s) := by
  unfold State.coldReset
  try dsimp only
  repeat' (first
    | with_reducible assumption | (with_reducible exact Keeps.refl _) | (with_reducible apply State.bare_keeps)
    | (with_reducible apply State.resetFields_keeps) | (with_reducible apply State.showFuses_keeps) | (with_reducible apply Keeps.ite)
    | (fail_if_no_progress with_reducible refine Keeps.rec_upd ?_ rfl rfl rfl rfl rfl) | (fail_if_no_progress dsimp only) | split)

theorem execMirrorHeartbeat_keeps {r s : State} (h : Keeps r s) (a0 : Fin 2) : KeepsR r (execMirrorHeartbeat a0 s) := by
  unfold execMirrorHeartbeat
  try dsimp only
  repeat' (first
    | with_reducible assumption | (with_reducible exact Keeps.refl _) | with_reducible apply KeepsR.ok | with_reducible apply KeepsR.ite
    | (with_reducible apply State.indicate_keeps) | (with_reducible apply State.noteAcks_keeps) | (with_reducible apply State.notePartner_keeps)
    | (with_reducible apply State.startResync_keeps) | (with_reducible refine State.takePlain_keeps ?_ _ _ (by assumption))
    | (with_reducible refine Keeps.of_snd (by assumption) ?_) | (with_reducible refine Keeps.of_fst (by assumption) ?_)
    | (with_reducible apply Keeps.ite) | (fail_if_no_progress dsimp only) | split)

theorem execVlset_keeps {r s : State} (h : Keeps r s) (a0 : Coach) : KeepsR r (execVlset a0 s) := by
  unfold execVlset
  try dsimp only
  repeat' (first
    | with_reducible assumption | (with_reducible exact Keeps.refl _) | with_reducible apply KeepsR.ok | with_reducible apply KeepsR.ite
    | (with_reducible apply State.issueTo_keeps) | (with_reducible apply Keeps.ite) | (fail_if_no_progress dsimp only) | split)

theorem execVrot_keeps {r s : State} (h : Keeps r s) (a0 : Coach) : KeepsR r (execVrot a0 s) := by
  unfold execVrot
  try dsimp only
  repeat' (first
    | with_reducible assumption | (with_reducible exact Keeps.refl _) | with_reducible apply KeepsR.ok | with_reducible apply KeepsR.ite
    | (with_reducible apply State.issueTo_keeps) | (with_reducible apply Keeps.ite) | (fail_if_no_progress dsimp only) | split)

theorem execVsin_keeps {r s : State} (h : Keeps r s) (a0 : Coach) : KeepsR r (execVsin a0 s) := by
  unfold execVsin
  try dsimp only
  repeat' (first
    | with_reducible assumption | (with_reducible exact Keeps.refl _) | with_reducible apply KeepsR.ok | with_reducible apply KeepsR.ite
    | (with_reducible apply State.issueTo_keeps) | (with_reducible apply Keeps.ite) | (fail_if_no_progress dsimp only) | split)

theorem execMirrorQueue_keeps {r s : State} (h : Keeps r s) (a0 : Fin 2) (a1 : List Byte) : KeepsR r (execMirrorQueue a0 a1 s) := by
  unfold execMirrorQueue
  try dsimp only
  repeat' (first
    | with_reducible assumption | (with_reducible exact Keeps.refl _) | with_reducible apply KeepsR.ok | with_reducible apply KeepsR.ite
    | (with_reducible apply State.mirrorNext_keeps) | (with_reducible apply Keeps.ite) | (fail_if_no_progress dsimp only) | split)

theorem execVabs_keeps {r s : State} (h : Keeps r s) (a0 : Coach) : KeepsR r (execVabs a0 s) := by
  unfold execVabs
  try dsimp only
  repeat' (first
    | with_reducible assumption | (with_reducible exact Keeps.refl _) | with_reducible apply KeepsR.ok | with_reducible apply KeepsR.ite
    | (with_reducible apply State.issueTo_keeps) | (with_reducible apply Keeps.ite) | (fail_if_no_progress dsimp only) | split)

theorem execPairHighRead_keeps {r s : State} (h : Keeps r s) (a0 : BitVec 30) : KeepsR r (execPairHighRead a0 s) := by
  unfold execPairHighRead
  try dsimp only
  repeat' (first
    | with_reducible assumption | (with_reducible exact Keeps.refl _) | with_reducible apply KeepsR.ok | with_reducible apply KeepsR.ite
    | (with_reducible apply State.busRead_keeps) | (with_reducible apply Keeps.ite) | (fail_if_no_progress dsimp only) | split)

theorem execVfms_keeps {r s : State} (h : Keeps r s) (a0 : Coach) : KeepsR r (execVfms a0 s) := by
  unfold execVfms
  try dsimp only
  repeat' (first
    | with_reducible assumption | (with_reducible exact Keeps.refl _) | with_reducible apply KeepsR.ok | with_reducible apply KeepsR.ite
    | (with_reducible apply State.issueTo_keeps) | (with_reducible apply Keeps.ite) | (fail_if_no_progress dsimp only) | split)

theorem execReadClear_keeps {r s : State} (h : Keeps r s) (a0 : BitVec 30) : KeepsR r (execReadClear a0 s) := by
  unfold execReadClear
  try dsimp only
  repeat' (first
    | with_reducible assumption | (with_reducible exact Keeps.refl _) | with_reducible apply KeepsR.ok | with_reducible apply KeepsR.ite
    | (with_reducible apply State.busRead_keeps) | (with_reducible apply Keeps.ite) | (fail_if_no_progress dsimp only) | split)

theorem execPorAssert_keeps {r s : State} (h : Keeps r s)  : KeepsR r (execPorAssert s) := by
  unfold execPorAssert
  try dsimp only
  repeat' (first
    | with_reducible assumption | (with_reducible exact Keeps.refl _) | with_reducible apply KeepsR.ok | with_reducible apply KeepsR.ite
    | (with_reducible apply State.coldReset_keeps) | (with_reducible apply State.emit_keeps) | (with_reducible apply State.logEntry_keeps)
    | (with_reducible apply State.railsOff_keeps) | (with_reducible apply Keeps.ite) | (with_reducible apply Keeps.foldl) | intro _ _ _
    | (fail_if_no_progress dsimp only) | split)

theorem execVfma_keeps {r s : State} (h : Keeps r s) (a0 : Coach) : KeepsR r (execVfma a0 s) := by
  unfold execVfma
  try dsimp only
  repeat' (first
    | with_reducible assumption | (with_reducible exact Keeps.refl _) | with_reducible apply KeepsR.ok | with_reducible apply KeepsR.ite
    | (with_reducible apply State.issueTo_keeps) | (with_reducible apply Keeps.ite) | (fail_if_no_progress dsimp only) | split)

theorem execReservedRangeAccess_keeps {r s : State} (h : Keeps r s) (a0 : BitVec 30) (a1 : Bool) : KeepsR r (execReservedRangeAccess a0 a1 s) := by
  unfold execReservedRangeAccess
  try dsimp only
  repeat' (first
    | with_reducible assumption | (with_reducible exact Keeps.refl _) | with_reducible apply KeepsR.ok | with_reducible apply KeepsR.ite
    | (with_reducible apply State.missed_keeps) | (with_reducible apply Keeps.ite) | (fail_if_no_progress dsimp only) | split)

theorem execRailTimeout_keeps {r s : State} (h : Keeps r s) (a0 : Car) : KeepsR r (execRailTimeout a0 s) := by
  unfold execRailTimeout
  try dsimp only
  repeat' (first
    | with_reducible assumption | (with_reducible exact Keeps.refl _) | with_reducible apply KeepsR.ok | with_reducible apply KeepsR.ite
    | (with_reducible apply State.emit_keeps) | (with_reducible apply State.railsFail_keeps) | (with_reducible apply Keeps.ite)
    | (fail_if_no_progress with_reducible refine Keeps.rec_upd ?_ rfl rfl rfl rfl rfl) | (fail_if_no_progress dsimp only) | split)

theorem execSweepend_keeps {r s : State} (h : Keeps r s) (a0 : Fin 2) : KeepsR r (execSweepend a0 s) := by
  unfold execSweepend
  try dsimp only
  repeat' (first
    | with_reducible assumption | (with_reducible exact Keeps.refl _) | with_reducible apply KeepsR.ok | with_reducible apply KeepsR.ite
    | (with_reducible apply State.mirrorNext_keeps) | (with_reducible apply Keeps.ite) | (fail_if_no_progress dsimp only) | split)

theorem execVrsqrt_keeps {r s : State} (h : Keeps r s) (a0 : Coach) : KeepsR r (execVrsqrt a0 s) := by
  unfold execVrsqrt
  try dsimp only
  repeat' (first
    | with_reducible assumption | (with_reducible exact Keeps.refl _) | with_reducible apply KeepsR.ok | with_reducible apply KeepsR.ite
    | (with_reducible apply State.issueTo_keeps) | (with_reducible apply Keeps.ite) | (fail_if_no_progress dsimp only) | split)

theorem execVsub_keeps {r s : State} (h : Keeps r s) (a0 : Coach) : KeepsR r (execVsub a0 s) := by
  unfold execVsub
  try dsimp only
  repeat' (first
    | with_reducible assumption | (with_reducible exact Keeps.refl _) | with_reducible apply KeepsR.ok | with_reducible apply KeepsR.ite
    | (with_reducible apply State.issueTo_keeps) | (with_reducible apply Keeps.ite) | (fail_if_no_progress dsimp only) | split)

end Sys2Proof.Machine
end

