-- ==== Sys2Proof/Laws/LineCode.lean ====
section
/-! SUPPORT. What a lane's receiver makes of what the transmitter sent (R442 to R447): each stage of the line code undone, a data block received as its
codeword, and the codewords that begin with zeros, whose check needs only their end. -/

namespace Sys2Proof.Machine

/-! ### Each stage undone -/

/-- A symbol that no 12 equal ones precede is kept. -/
theorem unstuffLevels_kept (v n x : Nat) (xs : List Nat) (h : n ≠ 12) :
    unstuffLevels (v, n) (x :: xs) = (x :: (unstuffLevels (x, if v == x && n != 0 then n + 1 else 1) xs).1, (unstuffLevels (x, if v == x && n != 0 then n + 1 else 1) xs).2) := by
  simp [unstuffLevels, h]

/-- R445: the receiver deletes what the transmitter stuffed. -/
theorem unstuffLevels_stuffLevels (xs : List Nat) : ∀ run : Nat × Nat, run.2 < 12 → unstuffLevels run (stuffLevels run xs).1 = (xs, (stuffLevels run xs).2) := by
  induction xs with
  | nil => intro run _; rfl
  | cons x xs ih =>
    rintro ⟨v, n⟩ hn
    have hne : n ≠ 12 := Nat.ne_of_lt hn
    simp only [stuffLevels]
    generalize hm : (if v == x && n != 0 then n + 1 else 1) = m
    have hle : m ≤ 12 := by rw [← hm]; have : n < 12 := hn; split <;> omega
    by_cases h : m = 12
    · subst h
      rw [if_pos (show ((12 : Nat) == 12) = true from rfl), unstuffLevels_kept _ _ _ _ hne, hm, show ∀ y ys, unstuffLevels (x, 12) (y :: ys) = unstuffLevels (y, 1) ys from fun _ _ => rfl, ih _ Nat.one_lt_ofNat]
    · rw [if_neg (by simpa using h), unstuffLevels_kept _ _ _ _ hne, hm, ih (x, m) (show m < 12 by omega)]

/-- The run that stuffing leaves is short of a stuffed symbol. -/
theorem stuffLevels_run_lt (xs : List Nat) : ∀ run : Nat × Nat, run.2 < 12 → (stuffLevels run xs).2.2 < 12 := by
  induction xs with
  | nil => intro run h; exact h
  | cons x xs ih =>
    rintro ⟨v, n⟩ hn
    simp only [stuffLevels]
    generalize hm : (if v == x && n != 0 then n + 1 else 1) = m
    have hle : m ≤ 12 := by rw [← hm]; split <;> omega
    split
    · exact ih _ Nat.one_lt_ofNat
    · rename_i h; exact ih _ (by have : m ≠ 12 := by simpa using h
                                 show m < 12; omega)

/-- R443: a level gives back its pair of bits. -/
theorem levelBits_grayLevel (a b : Bool) : levelBits (grayLevel a b) = (a, b) := by cases a <;> cases b <;> rfl

/-- A level is 0, 1, 2 or 3. -/
theorem grayLevel_lt (a b : Bool) : grayLevel a b < 4 := by cases a <;> cases b <;> decide

/-- R444: the descrambler undoes the scrambler, and both end with one register. -/
theorem descramble_scramLevels (ps : List (Bool × Bool)) : ∀ r, descramble r ((scramLevels r ps).1.map levelBits) = (ps, (scramLevels r ps).2) := by
  induction ps with
  | nil => intro r; rfl
  | cons p ps ih => intro r; simp [scramLevels, descramble, levelBits_grayLevel, ih]

/-- Scrambling keeps the number of symbols. -/
theorem scramLevels_length (ps : List (Bool × Bool)) : ∀ r, (scramLevels r ps).1.length = ps.length := by
  induction ps with
  | nil => intro r; rfl
  | cons p ps ih => intro r; simp [scramLevels, ih]

/-- What a transmitter sends are levels. -/
theorem scramLevels_lt (ps : List (Bool × Bool)) : ∀ r, ∀ x ∈ (scramLevels r ps).1, x < 4 := by
  induction ps with
  | nil => intro r x h; simp [scramLevels] at h
  | cons p ps ih =>
    intro r x h
    simp only [scramLevels, List.mem_cons] at h
    rcases h with rfl | h
    · exact grayLevel_lt _ _
    · exact ih _ x h

/-- Stuffed symbols are levels. -/
theorem stuffLevels_lt (xs : List Nat) : ∀ run, (∀ x ∈ xs, x < 4) → ∀ x ∈ (stuffLevels run xs).1, x < 4 := by
  induction xs with
  | nil => intro run _ x h; simp [stuffLevels] at h
  | cons y ys ih =>
    intro run hl x h
    have hys : ∀ x ∈ ys, x < 4 := fun z hz => hl z (List.mem_cons_of_mem _ hz)
    have hy : y < 4 := hl y List.mem_cons_self
    simp only [stuffLevels] at h
    generalize (if run.1 == y && run.2 != 0 then run.2 + 1 else 1) = m at h
    cases hm : (m == 12) with
    | true =>
      rw [if_pos hm] at h
      rcases List.mem_cons.mp h with rfl | h
      · exact hy
      · rcases List.mem_cons.mp h with rfl | h
        · split <;> decide
        · exact ih _ hys x h
    | false =>
      rw [if_neg (by rw [hm]; decide)] at h
      rcases List.mem_cons.mp h with rfl | h
      · exact hy
      · exact ih _ hys x h

/-- Pairs of bits in order give the bits back. -/
theorem bitPairs_flat : ∀ (n : Nat) (bs : List Bool), bs.length = 2 * n → (bitPairs bs).flatMap (fun p => [p.1, p.2]) = bs ∧ (bitPairs bs).length = n
  | 0, [], _ => ⟨rfl, rfl⟩
  | n + 1, a :: b :: bs, h => by
    have := bitPairs_flat n bs (by simp at h; omega)
    simp [bitPairs, this.1, this.2]
  | n + 1, [_], h => by simp at h; omega

/-- The bits of a number, `n` of them. -/
theorem bitList_length : ∀ (n x : Nat), (bitList n x).length = n
  | 0, _ => rfl
  | n + 1, x => by simp [bitList, bitList_length n]

/-! ### Data blocks -/

/-- A step of the division keeps the 30 places of the remainder. -/
theorem rsStep_length (g r : List Nat) (m : Nat) (hg : g.length = 30) (hr : r.length = 30) : (rsStep g r m).length = 30 := by
  simp [rsStep, polyScale, hg, hr]

/-- R447: there are 30 parity symbols. -/
theorem rsParity_length (m : List Nat) : (rsParity m).length = 30 := by
  have hg : ((rsGenerator.reverse).drop 1).length = 30 := by decide +kernel
  unfold rsParity
  generalize (rsGenerator.reverse).drop 1 = g at hg
  suffices h : ∀ r : List Nat, r.length = 30 → (m.foldl (rsStep g) r).length = 30 from h _ (by simp)
  induction m with
  | nil => intro r h; exact h
  | cons x m ih => intro r h; exact ih _ (rsStep_length g r x hg h)

/-- Strings of `n` bits, one after another. -/
theorem flatMap_bitList_length (n : Nat) (f : Nat → Nat) : ∀ l : List Nat, (l.flatMap (fun i => bitList n (f i))).length = n * l.length
  | [] => rfl
  | a :: l => by rw [List.flatMap_cons, List.length_append, bitList_length, flatMap_bitList_length n f l, List.length_cons, Nat.mul_succ, Nat.add_comm]

/-- R458: a link block has 5,140 bits. -/
theorem linkBits_length (b : LinkBlk) : (linkBits b).length = 5140 := by
  unfold linkBits
  simp only [List.length_append, bitList_length, ← List.flatMap_def, flatMap_bitList_length, List.length_range]

/-- R447, R448: a codeword has 5,440 bits. -/
theorem codeword_length (b : LinkBlk) : (codeword b).length = 5440 := by
  unfold codeword
  simp only [List.length_append, linkBits_length, flatMap_bitList_length 10 (fun x => x), rsParity_length]

/-- R442: 5,440 bits sent as the levels of a data block are judged as a codeword, and receiver and transmitter go on with one register and one run. -/
theorem receiveData_sent (r : Nat) (run : Nat × Nat) (bs : List Bool) (h : run.2 < 12) (hb : bs.length = 2 * 2720) :
    receiveData r run (stuffLevels run (scramLevels r (bitPairs bs)).1).1 =
      (judgeCode bs, (scramLevels r (bitPairs bs)).2, (stuffLevels run (scramLevels r (bitPairs bs)).1).2) := by
  obtain ⟨hp, hq⟩ := bitPairs_flat 2720 bs hb
  have hl : (scramLevels r (bitPairs bs)).1.length = 2720 := by rw [scramLevels_length, hq]
  unfold receiveData
  simp only [beq_self_eq_true, if_true, unstuffLevels_stuffLevels _ run h, descramble_scramLevels, hl, hp]

/-- R442: a data block as the transmitter sends it is judged by its codeword. -/
theorem receiveData_blockSymbols (r : Nat) (run : Nat × Nat) (b : LinkBlk) (h : run.2 < 12) :
    receiveData r run (blockSymbols r run b 0).1 = (judgeCode (codeword b), (blockSymbols r run b 0).2) := by
  unfold blockSymbols
  simp only [beq_self_eq_true, if_true]
  exact receiveData_sent r run (codeword b) h (by rw [codeword_length])

/-- What a block's transmitter sends are levels. -/
theorem blockSymbols_lt (r : Nat) (run : Nat × Nat) (b : LinkBlk) : ∀ x ∈ (blockSymbols r run b 0).1, x < 4 := by
  unfold blockSymbols
  simp only [beq_self_eq_true, if_true]
  exact stuffLevels_lt _ run (scramLevels_lt _ r)

/-! ### Codewords that begin with zeros -/

/-- Bits of zero. -/
theorem bitList_zero : ∀ n : Nat, bitList n 0 = List.replicate n false
  | 0 => rfl
  | n + 1 => by rw [bitList, Nat.zero_div, bitList_zero n]; rfl

/-- Symbols of zero as bits. -/
theorem flatMap_zeros (k : Nat) : (List.replicate k 0).flatMap (bitList 10) = List.replicate (k * 10) false := by
  rw [List.flatMap_replicate, bitList_zero, List.flatten_replicate_replicate]

/-- The value of bits of zero. -/
theorem natOfBits_zeros : ∀ n : Nat, natOfBits (List.replicate n false) = 0
  | 0 => rfl
  | n + 1 => by rw [List.replicate_succ, natOfBits, natOfBits_zeros n]; rfl

/-- Symbols of zero bits. -/
theorem symbolsOf_zeros (n : Nat) (bs : List Bool) : ∀ k : Nat, symbolsOf (k + n) (List.replicate (10 * k) false ++ bs) = List.replicate k 0 ++ symbolsOf n bs
  | 0 => by rw [Nat.zero_add]; rfl
  | k + 1 => by
    rw [show k + 1 + n = (k + n) + 1 by omega, show 10 * (k + 1) = 10 + 10 * k by omega, ← List.replicate_append_replicate, List.append_assoc, symbolsOf,
      List.take_left' (List.length_replicate ..), List.drop_left' (List.length_replicate ..), symbolsOf_zeros n bs k, natOfBits_zeros]
    rfl

/-- A field product with zero. -/
theorem gfMulAux_zero (n a : Nat) : gfMulAux n a 0 = 0 := by
  induction n generalizing a with
  | zero => rfl
  | succ n ih => simp [gfMulAux, ih]

/-- Zero symbols in front change no syndrome. -/
theorem syndrome_zeros (xs : List Nat) (j : Nat) : ∀ k : Nat, syndrome (List.replicate k 0 ++ xs) j = syndrome xs j
  | 0 => rfl
  | k + 1 => by
    have h := syndrome_zeros xs j k
    unfold syndrome at h ⊢
    rw [List.replicate_succ, List.cons_append, List.foldl_cons, show gfMul (alpha j) 0 ^^^ 0 = 0 by rw [gfMul, gfMulAux_zero]; rfl]
    exact h

/-- Zero symbols in front change no parity. -/
theorem rsParity_zeros (xs : List Nat) : ∀ k : Nat, rsParity (List.replicate k 0 ++ xs) = rsParity xs
  | 0 => rfl
  | k + 1 => by
    have h := rsParity_zeros xs k
    have hz : rsStep ((rsGenerator.reverse).drop 1) (List.replicate 30 0) 0 = List.replicate 30 0 := by decide +kernel
    unfold rsParity at h ⊢
    rw [@List.replicate_succ _ 0 k, List.cons_append]
    show List.foldl _ (rsStep _ _ 0) _ = _
    rw [hz]
    exact h

/-- The checksum register goes on over more bits. -/
theorem crcBitsFrom_append (xs ys : List Bool) : ∀ r, crcBitsFrom r (xs ++ ys) = crcBitsFrom (crcBitsFrom r xs) ys := by
  induction xs with
  | nil => intro r; rfl
  | cons x xs ih => intro r; exact ih _

/-- A codeword that begins with 502 zero symbols and has no syndrome is judged by its last 42 symbols: 120 bits of the block and the parity. -/
theorem judgeCode_quiet (u par : List Bool) (hz : ∀ j ∈ List.range 30, syndrome (symbolsOf 42 (u ++ par)) j = 0)
    (hl : (symbolsOf 42 (u ++ par)).length = 42) (hm : ((symbolsOf 42 (u ++ par)).take 12).flatMap (bitList 10) = u) :
    judgeCode (List.replicate 5020 false ++ (u ++ par)) =
      if crcBits (List.replicate 5020 false ++ u.take 88) == natOfBits (u.drop 88) then .good (linkBlkOf (List.replicate 5020 false ++ u)) 0 else .badCrc 0 := by
  have hs := symbolsOf_zeros 42 (u ++ par) 502
  have hc : (List.replicate 502 0 ++ symbolsOf 42 (u ++ par)).length = 544 := by rw [List.length_append, List.length_replicate, hl]
  have hall : ((List.range 30).map (syndrome (List.replicate 502 0 ++ symbolsOf 42 (u ++ par)))).all (· == 0) = true := by
    rw [List.all_map, List.all_eq_true]
    intro j hj
    rw [Function.comp_apply, syndrome_zeros, hz j hj]
    rfl
  have ht : (List.replicate 502 0 ++ symbolsOf 42 (u ++ par)).take 514 = List.replicate 502 0 ++ (symbolsOf 42 (u ++ par)).take 12 := by
    rw [List.take_append, List.length_replicate, List.take_of_length_le (by rw [List.length_replicate]; decide)]
  have hr : rsDecode (symbolsOf 544 (List.replicate 5020 false ++ (u ++ par))) = some (List.replicate 502 0 ++ (symbolsOf 42 (u ++ par)).take 12, 0) := by
    rw [show symbolsOf 544 (List.replicate 5020 false ++ (u ++ par)) = _ from hs]
    unfold rsDecode
    simp only [hc, hall, ht, bne_self_eq_false, Bool.false_eq_true, if_false, if_true]
  have hx : (List.replicate 502 0 ++ (symbolsOf 42 (u ++ par)).take 12).flatMap (bitList 10) = List.replicate 5020 false ++ u := by
    rw [List.flatMap_append, hm]
    rw [flatMap_zeros 502, show 502 * 10 = 5020 from rfl]
  unfold judgeCode
  simp only [hr, hx]
  rw [List.take_append, List.drop_append, List.length_replicate, List.take_of_length_le (by rw [List.length_replicate]; decide),
    List.drop_of_length_le (by rw [List.length_replicate]; decide), List.nil_append]

/-- The control bits of a link block whose payload is zero. -/
theorem control_quiet (x y : List Bool) (hx : x.length = 84) :
    ((List.replicate 5020 false ++ (List.replicate 4 false ++ (x ++ y))).drop 5024).take 84 = x := by
  rw [← List.append_assoc, List.replicate_append_replicate, List.drop_left' (List.length_replicate ..), List.take_left' hx]

end Sys2Proof.Machine
end

