-- ==== Sys2Proof/Laws/Registers.lean ====
section
/-! SUPPORT. Laws of register accesses: where an offset leads, and the fields of a register whatever its unit. -/

namespace Sys2Proof.Machine

/-- A field lies at the same place in the block of every unit. -/
theorem slotAt_unit (f : Fld) (u o : Nat) : f.slotAt u o = (f.slotAt 0 o).map (fun x => { x with u := u }) := by
  unfold Fld.slotAt
  split
  · simp
  · split <;> simp

/-- The fields of a register, from those of the same register of unit 0. -/
theorem tableSlots_unit (b : Blk) (u o : Nat) : fldTable.filterMap (fun f => if f.blk = b then f.slotAt u o else none) =
    (fldTable.filterMap (fun f => if f.blk = b then f.slotAt 0 o else none)).map (fun x => { x with u := u }) := by
  rw [List.map_filterMap]
  congr 1
  funext f
  split
  · exact slotAt_unit f u o
  · rfl

/-- The fields of a register outside the lanes. -/
theorem State.slots_block (s : State) {off u o : Nat} {b : Blk} (h : bar0Spot off = .block b u o) (hb : b ≠ .lane) :
    s.slots off = (fldTable.filterMap (fun f => if f.blk = b then f.slotAt 0 o else none)).map (fun x => { x with u := u }) := by
  unfold State.slots
  rw [h]
  simp only [tableSlots_unit b u o]
  refine List.filter_eq_self.2 (fun x _ => ?_)
  simp [hb]

/-- The carriage of an offset in its range. -/
theorem spotCar_of {c n : Nat} (hc : c < 4) (h1 : 0x10000000 + c * 0x4000000 ≤ n) (h2 : n < 0x14000000 + c * 0x4000000) : spotCar n = some c := by
  have h : (n - 0x10000000) / 0x4000000 = c := by omega
  unfold spotCar
  rw [if_pos ⟨by omega, by omega⟩, h]

/-- Where the offset of a coach's register leads in its carriage's range (Table 1.8). -/
theorem carSpot_coach {c k o n : Nat} (hk : k < 24) (ho : o < 0xE000) (hn : n = 0x100000 + k * 0x10000 + o) :
    carSpot c n = .block .coach (c * 24 + k) o := by
  have h1 : (n - 0x100000) / 0x10000 = k := by omega
  have h2 : n % 0x10000 = o := by omega
  unfold carSpot
  rw [if_neg (by omega), if_pos (by omega), h1, h2, if_pos ho]

/-- The registers of a coach (Tables 1.7 and 1.8). -/
theorem bar0Spot_coach {c k o n : Nat} (hc : c < 4) (hk : k < 24) (ho : o < 0xE000)
    (hn : n = 0x10000000 + c * 0x4000000 + 0x100000 + k * 0x10000 + o) : bar0Spot n = .block .coach (c * 24 + k) o := by
  have h := spotCar_of (n := n) hc (by omega) (by omega)
  have h2 : n % 0x4000000 = 0x100000 + k * 0x10000 + o := by omega
  unfold bar0Spot
  rw [h, h2]
  exact carSpot_coach hk ho rfl

end Sys2Proof.Machine
end

