-- ==== Sys2Proof/Laws/State.lean ====
section
/-! SUPPORT. What each basic update of the state leaves unchanged, field by field, true by unfolding the update. -/

namespace Sys2Proof.Machine

/-- `State.setFld` changes `fields` alone. -/
@[simp] theorem State.setFld_frame (s : State) (f : Fld) (u i v : Nat) :
    (s.setFld f u i v).pending = s.pending ∧ (s.setFld f u i v).freeIx = s.freeIx ∧ (s.setFld f u i v).resp = s.resp ∧ (s.setFld f u i v).out = s.out
    ∧ (s.setFld f u i v).latches = s.latches ∧ (s.setFld f u i v).held = s.held ∧ (s.setFld f u i v).seqMem = s.seqMem ∧
    (s.setFld f u i v).store = s.store ∧ (s.setFld f u i v).bank = s.bank ∧ (s.setFld f u i v).vreg = s.vreg ∧ (s.setFld f u i v).sacc = s.sacc ∧
    (s.setFld f u i v).coaches = s.coaches ∧ (s.setFld f u i v).dma = s.dma ∧ (s.setFld f u i v).net = s.net ∧ (s.setFld f u i v).hbmc = s.hbmc ∧
    (s.setFld f u i v).hbm = s.hbm ∧ (s.setFld f u i v).reports = s.reports ∧ (s.setFld f u i v).aoCycles = s.aoCycles ∧
    (s.setFld f u i v).netCycles = s.netCycles ∧ (s.setFld f u i v).couplerAside = s.couplerAside ∧ (s.setFld f u i v).tcs = s.tcs ∧
    (s.setFld f u i v).ctxs = s.ctxs ∧ (s.setFld f u i v).media = s.media ∧ (s.setFld f u i v).rein = s.rein ∧ (s.setFld f u i v).lock = s.lock ∧
    (s.setFld f u i v).coachCycles = s.coachCycles ∧ (s.setFld f u i v).netFrac = s.netFrac ∧ (s.setFld f u i v).aoFrac = s.aoFrac ∧
    (s.setFld f u i v).laneSt = s.laneSt ∧ (s.setFld f u i v).links = s.links ∧ (s.setFld f u i v).bays = s.bays ∧ (s.setFld f u i v).pair = s.pair ∧
    (s.setFld f u i v).log = s.log ∧ (s.setFld f u i v).fab = s.fab ∧ (s.setFld f u i v).load = s.load ∧ (s.setFld f u i v).keptRegs = s.keptRegs ∧
    (s.setFld f u i v).keyRam = s.keyRam ∧ (s.setFld f u i v).fuseKey = s.fuseKey ∧ (s.setFld f u i v).vsense = s.vsense ∧
    (s.setFld f u i v).arb = s.arb ∧ (s.setFld f u i v).adm = s.adm ∧ (s.setFld f u i v).admBusy = s.admBusy ∧ (s.setFld f u i v).admLast = s.admLast
    ∧ (s.setFld f u i v).ports = s.ports ∧ (s.setFld f u i v).hostReq = s.hostReq ∧ (s.setFld f u i v).recov = s.recov ∧ (s.setFld f u i v).pm = s.pm
    ∧ (s.setFld f u i v).pwr = s.pwr ∧ (s.setFld f u i v).tap = s.tap ∧ (s.setFld f u i v).fuses = s.fuses ∧ (s.setFld f u i v).dbgKey = s.dbgKey ∧
    (s.setFld f u i v).dbgLevel = s.dbgLevel ∧ (s.setFld f u i v).dbgNonce = s.dbgNonce ∧ (s.setFld f u i v).pertFrom = s.pertFrom := by
  simp only [State.setFld, and_self]

/-- `State.resetFields` changes `fields` alone. -/
@[simp] theorem State.resetFields_frame (s : State) (lv : Level) (p : Fld → Nat → Nat → Bool) :
    (s.resetFields lv p).pending = s.pending ∧ (s.resetFields lv p).freeIx = s.freeIx ∧ (s.resetFields lv p).resp = s.resp ∧
    (s.resetFields lv p).out = s.out ∧ (s.resetFields lv p).latches = s.latches ∧ (s.resetFields lv p).held = s.held ∧
    (s.resetFields lv p).seqMem = s.seqMem ∧ (s.resetFields lv p).store = s.store ∧ (s.resetFields lv p).bank = s.bank ∧
    (s.resetFields lv p).vreg = s.vreg ∧ (s.resetFields lv p).sacc = s.sacc ∧ (s.resetFields lv p).coaches = s.coaches ∧
    (s.resetFields lv p).dma = s.dma ∧ (s.resetFields lv p).net = s.net ∧ (s.resetFields lv p).hbmc = s.hbmc ∧ (s.resetFields lv p).hbm = s.hbm ∧
    (s.resetFields lv p).reports = s.reports ∧ (s.resetFields lv p).aoCycles = s.aoCycles ∧ (s.resetFields lv p).netCycles = s.netCycles ∧
    (s.resetFields lv p).couplerAside = s.couplerAside ∧ (s.resetFields lv p).tcs = s.tcs ∧ (s.resetFields lv p).ctxs = s.ctxs ∧
    (s.resetFields lv p).media = s.media ∧ (s.resetFields lv p).rein = s.rein ∧ (s.resetFields lv p).lock = s.lock ∧
    (s.resetFields lv p).coachCycles = s.coachCycles ∧ (s.resetFields lv p).netFrac = s.netFrac ∧ (s.resetFields lv p).aoFrac = s.aoFrac ∧
    (s.resetFields lv p).laneSt = s.laneSt ∧ (s.resetFields lv p).links = s.links ∧ (s.resetFields lv p).bays = s.bays ∧
    (s.resetFields lv p).pair = s.pair ∧ (s.resetFields lv p).log = s.log ∧ (s.resetFields lv p).fab = s.fab ∧ (s.resetFields lv p).load = s.load ∧
    (s.resetFields lv p).keptRegs = s.keptRegs ∧ (s.resetFields lv p).keyRam = s.keyRam ∧ (s.resetFields lv p).fuseKey = s.fuseKey ∧
    (s.resetFields lv p).vsense = s.vsense ∧ (s.resetFields lv p).arb = s.arb ∧ (s.resetFields lv p).adm = s.adm ∧
    (s.resetFields lv p).admBusy = s.admBusy ∧ (s.resetFields lv p).admLast = s.admLast ∧ (s.resetFields lv p).ports = s.ports ∧
    (s.resetFields lv p).hostReq = s.hostReq ∧ (s.resetFields lv p).recov = s.recov ∧ (s.resetFields lv p).pm = s.pm ∧
    (s.resetFields lv p).pwr = s.pwr ∧ (s.resetFields lv p).tap = s.tap ∧ (s.resetFields lv p).fuses = s.fuses ∧
    (s.resetFields lv p).dbgKey = s.dbgKey ∧ (s.resetFields lv p).dbgLevel = s.dbgLevel ∧ (s.resetFields lv p).dbgNonce = s.dbgNonce ∧
    (s.resetFields lv p).pertFrom = s.pertFrom := by
  simp only [State.resetFields, and_self]

/-- `State.holdLow` changes `held` alone. -/
@[simp] theorem State.holdLow_frame (s : State) (f : Fld) (u i w : Nat) :
    (s.holdLow f u i w).pending = s.pending ∧ (s.holdLow f u i w).freeIx = s.freeIx ∧ (s.holdLow f u i w).resp = s.resp ∧
    (s.holdLow f u i w).out = s.out ∧ (s.holdLow f u i w).fields = s.fields ∧ (s.holdLow f u i w).latches = s.latches ∧
    (s.holdLow f u i w).seqMem = s.seqMem ∧ (s.holdLow f u i w).store = s.store ∧ (s.holdLow f u i w).bank = s.bank ∧
    (s.holdLow f u i w).vreg = s.vreg ∧ (s.holdLow f u i w).sacc = s.sacc ∧ (s.holdLow f u i w).coaches = s.coaches ∧ (s.holdLow f u i w).dma = s.dma
    ∧ (s.holdLow f u i w).net = s.net ∧ (s.holdLow f u i w).hbmc = s.hbmc ∧ (s.holdLow f u i w).hbm = s.hbm ∧ (s.holdLow f u i w).reports = s.reports
    ∧ (s.holdLow f u i w).aoCycles = s.aoCycles ∧ (s.holdLow f u i w).netCycles = s.netCycles ∧ (s.holdLow f u i w).couplerAside = s.couplerAside ∧
    (s.holdLow f u i w).tcs = s.tcs ∧ (s.holdLow f u i w).ctxs = s.ctxs ∧ (s.holdLow f u i w).media = s.media ∧ (s.holdLow f u i w).rein = s.rein ∧
    (s.holdLow f u i w).lock = s.lock ∧ (s.holdLow f u i w).coachCycles = s.coachCycles ∧ (s.holdLow f u i w).netFrac = s.netFrac ∧
    (s.holdLow f u i w).aoFrac = s.aoFrac ∧ (s.holdLow f u i w).laneSt = s.laneSt ∧ (s.holdLow f u i w).links = s.links ∧
    (s.holdLow f u i w).bays = s.bays ∧ (s.holdLow f u i w).pair = s.pair ∧ (s.holdLow f u i w).log = s.log ∧ (s.holdLow f u i w).fab = s.fab ∧
    (s.holdLow f u i w).load = s.load ∧ (s.holdLow f u i w).keptRegs = s.keptRegs ∧ (s.holdLow f u i w).keyRam = s.keyRam ∧
    (s.holdLow f u i w).fuseKey = s.fuseKey ∧ (s.holdLow f u i w).vsense = s.vsense ∧ (s.holdLow f u i w).arb = s.arb ∧
    (s.holdLow f u i w).adm = s.adm ∧ (s.holdLow f u i w).admBusy = s.admBusy ∧ (s.holdLow f u i w).admLast = s.admLast ∧
    (s.holdLow f u i w).ports = s.ports ∧ (s.holdLow f u i w).hostReq = s.hostReq ∧ (s.holdLow f u i w).recov = s.recov ∧
    (s.holdLow f u i w).pm = s.pm ∧ (s.holdLow f u i w).pwr = s.pwr ∧ (s.holdLow f u i w).tap = s.tap ∧ (s.holdLow f u i w).fuses = s.fuses ∧
    (s.holdLow f u i w).dbgKey = s.dbgKey ∧ (s.holdLow f u i w).dbgLevel = s.dbgLevel ∧ (s.holdLow f u i w).dbgNonce = s.dbgNonce ∧
    (s.holdLow f u i w).pertFrom = s.pertFrom := by
  simp only [State.holdLow, and_self]

/-- `State.dropLow` changes `held` alone. -/
@[simp] theorem State.dropLow_frame (s : State) (f : Fld) (u i : Nat) :
    (s.dropLow f u i).pending = s.pending ∧ (s.dropLow f u i).freeIx = s.freeIx ∧ (s.dropLow f u i).resp = s.resp ∧ (s.dropLow f u i).out = s.out ∧
    (s.dropLow f u i).fields = s.fields ∧ (s.dropLow f u i).latches = s.latches ∧ (s.dropLow f u i).seqMem = s.seqMem ∧
    (s.dropLow f u i).store = s.store ∧ (s.dropLow f u i).bank = s.bank ∧ (s.dropLow f u i).vreg = s.vreg ∧ (s.dropLow f u i).sacc = s.sacc ∧
    (s.dropLow f u i).coaches = s.coaches ∧ (s.dropLow f u i).dma = s.dma ∧ (s.dropLow f u i).net = s.net ∧ (s.dropLow f u i).hbmc = s.hbmc ∧
    (s.dropLow f u i).hbm = s.hbm ∧ (s.dropLow f u i).reports = s.reports ∧ (s.dropLow f u i).aoCycles = s.aoCycles ∧
    (s.dropLow f u i).netCycles = s.netCycles ∧ (s.dropLow f u i).couplerAside = s.couplerAside ∧ (s.dropLow f u i).tcs = s.tcs ∧
    (s.dropLow f u i).ctxs = s.ctxs ∧ (s.dropLow f u i).media = s.media ∧ (s.dropLow f u i).rein = s.rein ∧ (s.dropLow f u i).lock = s.lock ∧
    (s.dropLow f u i).coachCycles = s.coachCycles ∧ (s.dropLow f u i).netFrac = s.netFrac ∧ (s.dropLow f u i).aoFrac = s.aoFrac ∧
    (s.dropLow f u i).laneSt = s.laneSt ∧ (s.dropLow f u i).links = s.links ∧ (s.dropLow f u i).bays = s.bays ∧ (s.dropLow f u i).pair = s.pair ∧
    (s.dropLow f u i).log = s.log ∧ (s.dropLow f u i).fab = s.fab ∧ (s.dropLow f u i).load = s.load ∧ (s.dropLow f u i).keptRegs = s.keptRegs ∧
    (s.dropLow f u i).keyRam = s.keyRam ∧ (s.dropLow f u i).fuseKey = s.fuseKey ∧ (s.dropLow f u i).vsense = s.vsense ∧ (s.dropLow f u i).arb = s.arb
    ∧ (s.dropLow f u i).adm = s.adm ∧ (s.dropLow f u i).admBusy = s.admBusy ∧ (s.dropLow f u i).admLast = s.admLast ∧
    (s.dropLow f u i).ports = s.ports ∧ (s.dropLow f u i).hostReq = s.hostReq ∧ (s.dropLow f u i).recov = s.recov ∧ (s.dropLow f u i).pm = s.pm ∧
    (s.dropLow f u i).pwr = s.pwr ∧ (s.dropLow f u i).tap = s.tap ∧ (s.dropLow f u i).fuses = s.fuses ∧ (s.dropLow f u i).dbgKey = s.dbgKey ∧
    (s.dropLow f u i).dbgLevel = s.dbgLevel ∧ (s.dropLow f u i).dbgNonce = s.dbgNonce ∧ (s.dropLow f u i).pertFrom = s.pertFrom := by
  simp only [State.dropLow, and_self]

/-- `State.latchHigh` changes `latches` alone. -/
@[simp] theorem State.latchHigh_frame (s : State) (f : Fld) (u i w : Nat) :
    (s.latchHigh f u i w).pending = s.pending ∧ (s.latchHigh f u i w).freeIx = s.freeIx ∧ (s.latchHigh f u i w).resp = s.resp ∧
    (s.latchHigh f u i w).out = s.out ∧ (s.latchHigh f u i w).fields = s.fields ∧ (s.latchHigh f u i w).held = s.held ∧
    (s.latchHigh f u i w).seqMem = s.seqMem ∧ (s.latchHigh f u i w).store = s.store ∧ (s.latchHigh f u i w).bank = s.bank ∧
    (s.latchHigh f u i w).vreg = s.vreg ∧ (s.latchHigh f u i w).sacc = s.sacc ∧ (s.latchHigh f u i w).coaches = s.coaches ∧
    (s.latchHigh f u i w).dma = s.dma ∧ (s.latchHigh f u i w).net = s.net ∧ (s.latchHigh f u i w).hbmc = s.hbmc ∧ (s.latchHigh f u i w).hbm = s.hbm ∧
    (s.latchHigh f u i w).reports = s.reports ∧ (s.latchHigh f u i w).aoCycles = s.aoCycles ∧ (s.latchHigh f u i w).netCycles = s.netCycles ∧
    (s.latchHigh f u i w).couplerAside = s.couplerAside ∧ (s.latchHigh f u i w).tcs = s.tcs ∧ (s.latchHigh f u i w).ctxs = s.ctxs ∧
    (s.latchHigh f u i w).media = s.media ∧ (s.latchHigh f u i w).rein = s.rein ∧ (s.latchHigh f u i w).lock = s.lock ∧
    (s.latchHigh f u i w).coachCycles = s.coachCycles ∧ (s.latchHigh f u i w).netFrac = s.netFrac ∧ (s.latchHigh f u i w).aoFrac = s.aoFrac ∧
    (s.latchHigh f u i w).laneSt = s.laneSt ∧ (s.latchHigh f u i w).links = s.links ∧ (s.latchHigh f u i w).bays = s.bays ∧
    (s.latchHigh f u i w).pair = s.pair ∧ (s.latchHigh f u i w).log = s.log ∧ (s.latchHigh f u i w).fab = s.fab ∧ (s.latchHigh f u i w).load = s.load
    ∧ (s.latchHigh f u i w).keptRegs = s.keptRegs ∧ (s.latchHigh f u i w).keyRam = s.keyRam ∧ (s.latchHigh f u i w).fuseKey = s.fuseKey ∧
    (s.latchHigh f u i w).vsense = s.vsense ∧ (s.latchHigh f u i w).arb = s.arb ∧ (s.latchHigh f u i w).adm = s.adm ∧
    (s.latchHigh f u i w).admBusy = s.admBusy ∧ (s.latchHigh f u i w).admLast = s.admLast ∧ (s.latchHigh f u i w).ports = s.ports ∧
    (s.latchHigh f u i w).hostReq = s.hostReq ∧ (s.latchHigh f u i w).recov = s.recov ∧ (s.latchHigh f u i w).pm = s.pm ∧
    (s.latchHigh f u i w).pwr = s.pwr ∧ (s.latchHigh f u i w).tap = s.tap ∧ (s.latchHigh f u i w).fuses = s.fuses ∧
    (s.latchHigh f u i w).dbgKey = s.dbgKey ∧ (s.latchHigh f u i w).dbgLevel = s.dbgLevel ∧ (s.latchHigh f u i w).dbgNonce = s.dbgNonce ∧
    (s.latchHigh f u i w).pertFrom = s.pertFrom := by
  simp only [State.latchHigh, and_self]

/-- `State.emit` changes `out` alone. -/
@[simp] theorem State.emit_frame (s : State) (o : Output) :
    (s.emit o).pending = s.pending ∧ (s.emit o).freeIx = s.freeIx ∧ (s.emit o).resp = s.resp ∧ (s.emit o).fields = s.fields ∧
    (s.emit o).latches = s.latches ∧ (s.emit o).held = s.held ∧ (s.emit o).seqMem = s.seqMem ∧ (s.emit o).store = s.store ∧ (s.emit o).bank = s.bank ∧
    (s.emit o).vreg = s.vreg ∧ (s.emit o).sacc = s.sacc ∧ (s.emit o).coaches = s.coaches ∧ (s.emit o).dma = s.dma ∧ (s.emit o).net = s.net ∧
    (s.emit o).hbmc = s.hbmc ∧ (s.emit o).hbm = s.hbm ∧ (s.emit o).reports = s.reports ∧ (s.emit o).aoCycles = s.aoCycles ∧
    (s.emit o).netCycles = s.netCycles ∧ (s.emit o).couplerAside = s.couplerAside ∧ (s.emit o).tcs = s.tcs ∧ (s.emit o).ctxs = s.ctxs ∧
    (s.emit o).media = s.media ∧ (s.emit o).rein = s.rein ∧ (s.emit o).lock = s.lock ∧ (s.emit o).coachCycles = s.coachCycles ∧
    (s.emit o).netFrac = s.netFrac ∧ (s.emit o).aoFrac = s.aoFrac ∧ (s.emit o).laneSt = s.laneSt ∧ (s.emit o).links = s.links ∧
    (s.emit o).bays = s.bays ∧ (s.emit o).pair = s.pair ∧ (s.emit o).log = s.log ∧ (s.emit o).fab = s.fab ∧ (s.emit o).load = s.load ∧
    (s.emit o).keptRegs = s.keptRegs ∧ (s.emit o).keyRam = s.keyRam ∧ (s.emit o).fuseKey = s.fuseKey ∧ (s.emit o).vsense = s.vsense ∧
    (s.emit o).arb = s.arb ∧ (s.emit o).adm = s.adm ∧ (s.emit o).admBusy = s.admBusy ∧ (s.emit o).admLast = s.admLast ∧ (s.emit o).ports = s.ports ∧
    (s.emit o).hostReq = s.hostReq ∧ (s.emit o).recov = s.recov ∧ (s.emit o).pm = s.pm ∧ (s.emit o).pwr = s.pwr ∧ (s.emit o).tap = s.tap ∧
    (s.emit o).fuses = s.fuses ∧ (s.emit o).dbgKey = s.dbgKey ∧ (s.emit o).dbgLevel = s.dbgLevel ∧ (s.emit o).dbgNonce = s.dbgNonce ∧
    (s.emit o).pertFrom = s.pertFrom := by
  simp only [State.emit, and_self]

/-- `State.report` changes `reports` alone. -/
@[simp] theorem State.report_frame (s : State) (r : Report) :
    (s.report r).pending = s.pending ∧ (s.report r).freeIx = s.freeIx ∧ (s.report r).resp = s.resp ∧ (s.report r).out = s.out ∧
    (s.report r).fields = s.fields ∧ (s.report r).latches = s.latches ∧ (s.report r).held = s.held ∧ (s.report r).seqMem = s.seqMem ∧
    (s.report r).store = s.store ∧ (s.report r).bank = s.bank ∧ (s.report r).vreg = s.vreg ∧ (s.report r).sacc = s.sacc ∧
    (s.report r).coaches = s.coaches ∧ (s.report r).dma = s.dma ∧ (s.report r).net = s.net ∧ (s.report r).hbmc = s.hbmc ∧ (s.report r).hbm = s.hbm ∧
    (s.report r).aoCycles = s.aoCycles ∧ (s.report r).netCycles = s.netCycles ∧ (s.report r).couplerAside = s.couplerAside ∧ (s.report r).tcs = s.tcs
    ∧ (s.report r).ctxs = s.ctxs ∧ (s.report r).media = s.media ∧ (s.report r).rein = s.rein ∧ (s.report r).lock = s.lock ∧
    (s.report r).coachCycles = s.coachCycles ∧ (s.report r).netFrac = s.netFrac ∧ (s.report r).aoFrac = s.aoFrac ∧ (s.report r).laneSt = s.laneSt ∧
    (s.report r).links = s.links ∧ (s.report r).bays = s.bays ∧ (s.report r).pair = s.pair ∧ (s.report r).log = s.log ∧ (s.report r).fab = s.fab ∧
    (s.report r).load = s.load ∧ (s.report r).keptRegs = s.keptRegs ∧ (s.report r).keyRam = s.keyRam ∧ (s.report r).fuseKey = s.fuseKey ∧
    (s.report r).vsense = s.vsense ∧ (s.report r).arb = s.arb ∧ (s.report r).adm = s.adm ∧ (s.report r).admBusy = s.admBusy ∧
    (s.report r).admLast = s.admLast ∧ (s.report r).ports = s.ports ∧ (s.report r).hostReq = s.hostReq ∧ (s.report r).recov = s.recov ∧
    (s.report r).pm = s.pm ∧ (s.report r).pwr = s.pwr ∧ (s.report r).tap = s.tap ∧ (s.report r).fuses = s.fuses ∧ (s.report r).dbgKey = s.dbgKey ∧
    (s.report r).dbgLevel = s.dbgLevel ∧ (s.report r).dbgNonce = s.dbgNonce ∧ (s.report r).pertFrom = s.pertFrom := by
  simp only [State.report, and_self]

/-- `State.setCoach` changes `coaches` alone. -/
@[simp] theorem State.setCoach_frame (s : State) (k : Nat) (c : CoachS) :
    (s.setCoach k c).pending = s.pending ∧ (s.setCoach k c).freeIx = s.freeIx ∧ (s.setCoach k c).resp = s.resp ∧ (s.setCoach k c).out = s.out ∧
    (s.setCoach k c).fields = s.fields ∧ (s.setCoach k c).latches = s.latches ∧ (s.setCoach k c).held = s.held ∧ (s.setCoach k c).seqMem = s.seqMem ∧
    (s.setCoach k c).store = s.store ∧ (s.setCoach k c).bank = s.bank ∧ (s.setCoach k c).vreg = s.vreg ∧ (s.setCoach k c).sacc = s.sacc ∧
    (s.setCoach k c).dma = s.dma ∧ (s.setCoach k c).net = s.net ∧ (s.setCoach k c).hbmc = s.hbmc ∧ (s.setCoach k c).hbm = s.hbm ∧
    (s.setCoach k c).reports = s.reports ∧ (s.setCoach k c).aoCycles = s.aoCycles ∧ (s.setCoach k c).netCycles = s.netCycles ∧
    (s.setCoach k c).couplerAside = s.couplerAside ∧ (s.setCoach k c).tcs = s.tcs ∧ (s.setCoach k c).ctxs = s.ctxs ∧ (s.setCoach k c).media = s.media
    ∧ (s.setCoach k c).rein = s.rein ∧ (s.setCoach k c).lock = s.lock ∧ (s.setCoach k c).coachCycles = s.coachCycles ∧
    (s.setCoach k c).netFrac = s.netFrac ∧ (s.setCoach k c).aoFrac = s.aoFrac ∧ (s.setCoach k c).laneSt = s.laneSt ∧ (s.setCoach k c).links = s.links
    ∧ (s.setCoach k c).bays = s.bays ∧ (s.setCoach k c).pair = s.pair ∧ (s.setCoach k c).log = s.log ∧ (s.setCoach k c).fab = s.fab ∧
    (s.setCoach k c).load = s.load ∧ (s.setCoach k c).keptRegs = s.keptRegs ∧ (s.setCoach k c).keyRam = s.keyRam ∧
    (s.setCoach k c).fuseKey = s.fuseKey ∧ (s.setCoach k c).vsense = s.vsense ∧ (s.setCoach k c).arb = s.arb ∧ (s.setCoach k c).adm = s.adm ∧
    (s.setCoach k c).admBusy = s.admBusy ∧ (s.setCoach k c).admLast = s.admLast ∧ (s.setCoach k c).ports = s.ports ∧
    (s.setCoach k c).hostReq = s.hostReq ∧ (s.setCoach k c).recov = s.recov ∧ (s.setCoach k c).pm = s.pm ∧ (s.setCoach k c).pwr = s.pwr ∧
    (s.setCoach k c).tap = s.tap ∧ (s.setCoach k c).fuses = s.fuses ∧ (s.setCoach k c).dbgKey = s.dbgKey ∧ (s.setCoach k c).dbgLevel = s.dbgLevel ∧
    (s.setCoach k c).dbgNonce = s.dbgNonce ∧ (s.setCoach k c).pertFrom = s.pertFrom := by
  simp only [State.setCoach, and_self]

/-- `State.updCoach` changes `coaches` alone. -/
@[simp] theorem State.updCoach_frame (s : State) (k : Nat) (f : CoachS → CoachS) :
    (s.updCoach k f).pending = s.pending ∧ (s.updCoach k f).freeIx = s.freeIx ∧ (s.updCoach k f).resp = s.resp ∧ (s.updCoach k f).out = s.out ∧
    (s.updCoach k f).fields = s.fields ∧ (s.updCoach k f).latches = s.latches ∧ (s.updCoach k f).held = s.held ∧ (s.updCoach k f).seqMem = s.seqMem ∧
    (s.updCoach k f).store = s.store ∧ (s.updCoach k f).bank = s.bank ∧ (s.updCoach k f).vreg = s.vreg ∧ (s.updCoach k f).sacc = s.sacc ∧
    (s.updCoach k f).dma = s.dma ∧ (s.updCoach k f).net = s.net ∧ (s.updCoach k f).hbmc = s.hbmc ∧ (s.updCoach k f).hbm = s.hbm ∧
    (s.updCoach k f).reports = s.reports ∧ (s.updCoach k f).aoCycles = s.aoCycles ∧ (s.updCoach k f).netCycles = s.netCycles ∧
    (s.updCoach k f).couplerAside = s.couplerAside ∧ (s.updCoach k f).tcs = s.tcs ∧ (s.updCoach k f).ctxs = s.ctxs ∧ (s.updCoach k f).media = s.media
    ∧ (s.updCoach k f).rein = s.rein ∧ (s.updCoach k f).lock = s.lock ∧ (s.updCoach k f).coachCycles = s.coachCycles ∧
    (s.updCoach k f).netFrac = s.netFrac ∧ (s.updCoach k f).aoFrac = s.aoFrac ∧ (s.updCoach k f).laneSt = s.laneSt ∧ (s.updCoach k f).links = s.links
    ∧ (s.updCoach k f).bays = s.bays ∧ (s.updCoach k f).pair = s.pair ∧ (s.updCoach k f).log = s.log ∧ (s.updCoach k f).fab = s.fab ∧
    (s.updCoach k f).load = s.load ∧ (s.updCoach k f).keptRegs = s.keptRegs ∧ (s.updCoach k f).keyRam = s.keyRam ∧
    (s.updCoach k f).fuseKey = s.fuseKey ∧ (s.updCoach k f).vsense = s.vsense ∧ (s.updCoach k f).arb = s.arb ∧ (s.updCoach k f).adm = s.adm ∧
    (s.updCoach k f).admBusy = s.admBusy ∧ (s.updCoach k f).admLast = s.admLast ∧ (s.updCoach k f).ports = s.ports ∧
    (s.updCoach k f).hostReq = s.hostReq ∧ (s.updCoach k f).recov = s.recov ∧ (s.updCoach k f).pm = s.pm ∧ (s.updCoach k f).pwr = s.pwr ∧
    (s.updCoach k f).tap = s.tap ∧ (s.updCoach k f).fuses = s.fuses ∧ (s.updCoach k f).dbgKey = s.dbgKey ∧ (s.updCoach k f).dbgLevel = s.dbgLevel ∧
    (s.updCoach k f).dbgNonce = s.dbgNonce ∧ (s.updCoach k f).pertFrom = s.pertFrom := by
  simp only [State.updCoach, State.setCoach, and_self]

/-- `State.storeWrite` changes `store` alone. -/
@[simp] theorem State.storeWrite_frame (s : State) (k a : Nat) (bs : List Nat) :
    (s.storeWrite k a bs).pending = s.pending ∧ (s.storeWrite k a bs).freeIx = s.freeIx ∧ (s.storeWrite k a bs).resp = s.resp ∧
    (s.storeWrite k a bs).out = s.out ∧ (s.storeWrite k a bs).fields = s.fields ∧ (s.storeWrite k a bs).latches = s.latches ∧
    (s.storeWrite k a bs).held = s.held ∧ (s.storeWrite k a bs).seqMem = s.seqMem ∧ (s.storeWrite k a bs).bank = s.bank ∧
    (s.storeWrite k a bs).vreg = s.vreg ∧ (s.storeWrite k a bs).sacc = s.sacc ∧ (s.storeWrite k a bs).coaches = s.coaches ∧
    (s.storeWrite k a bs).dma = s.dma ∧ (s.storeWrite k a bs).net = s.net ∧ (s.storeWrite k a bs).hbmc = s.hbmc ∧ (s.storeWrite k a bs).hbm = s.hbm ∧
    (s.storeWrite k a bs).reports = s.reports ∧ (s.storeWrite k a bs).aoCycles = s.aoCycles ∧ (s.storeWrite k a bs).netCycles = s.netCycles ∧
    (s.storeWrite k a bs).couplerAside = s.couplerAside ∧ (s.storeWrite k a bs).tcs = s.tcs ∧ (s.storeWrite k a bs).ctxs = s.ctxs ∧
    (s.storeWrite k a bs).media = s.media ∧ (s.storeWrite k a bs).rein = s.rein ∧ (s.storeWrite k a bs).lock = s.lock ∧
    (s.storeWrite k a bs).coachCycles = s.coachCycles ∧ (s.storeWrite k a bs).netFrac = s.netFrac ∧ (s.storeWrite k a bs).aoFrac = s.aoFrac ∧
    (s.storeWrite k a bs).laneSt = s.laneSt ∧ (s.storeWrite k a bs).links = s.links ∧ (s.storeWrite k a bs).bays = s.bays ∧
    (s.storeWrite k a bs).pair = s.pair ∧ (s.storeWrite k a bs).log = s.log ∧ (s.storeWrite k a bs).fab = s.fab ∧ (s.storeWrite k a bs).load = s.load
    ∧ (s.storeWrite k a bs).keptRegs = s.keptRegs ∧ (s.storeWrite k a bs).keyRam = s.keyRam ∧ (s.storeWrite k a bs).fuseKey = s.fuseKey ∧
    (s.storeWrite k a bs).vsense = s.vsense ∧ (s.storeWrite k a bs).arb = s.arb ∧ (s.storeWrite k a bs).adm = s.adm ∧
    (s.storeWrite k a bs).admBusy = s.admBusy ∧ (s.storeWrite k a bs).admLast = s.admLast ∧ (s.storeWrite k a bs).ports = s.ports ∧
    (s.storeWrite k a bs).hostReq = s.hostReq ∧ (s.storeWrite k a bs).recov = s.recov ∧ (s.storeWrite k a bs).pm = s.pm ∧
    (s.storeWrite k a bs).pwr = s.pwr ∧ (s.storeWrite k a bs).tap = s.tap ∧ (s.storeWrite k a bs).fuses = s.fuses ∧
    (s.storeWrite k a bs).dbgKey = s.dbgKey ∧ (s.storeWrite k a bs).dbgLevel = s.dbgLevel ∧ (s.storeWrite k a bs).dbgNonce = s.dbgNonce ∧
    (s.storeWrite k a bs).pertFrom = s.pertFrom := by
  simp only [State.storeWrite, and_self]

/-- `State.setLane` changes `vreg` alone. -/
@[simp] theorem State.setLane_frame (s : State) (k r i v : Nat) :
    (s.setLane k r i v).pending = s.pending ∧ (s.setLane k r i v).freeIx = s.freeIx ∧ (s.setLane k r i v).resp = s.resp ∧
    (s.setLane k r i v).out = s.out ∧ (s.setLane k r i v).fields = s.fields ∧ (s.setLane k r i v).latches = s.latches ∧
    (s.setLane k r i v).held = s.held ∧ (s.setLane k r i v).seqMem = s.seqMem ∧ (s.setLane k r i v).store = s.store ∧
    (s.setLane k r i v).bank = s.bank ∧ (s.setLane k r i v).sacc = s.sacc ∧ (s.setLane k r i v).coaches = s.coaches ∧ (s.setLane k r i v).dma = s.dma
    ∧ (s.setLane k r i v).net = s.net ∧ (s.setLane k r i v).hbmc = s.hbmc ∧ (s.setLane k r i v).hbm = s.hbm ∧ (s.setLane k r i v).reports = s.reports
    ∧ (s.setLane k r i v).aoCycles = s.aoCycles ∧ (s.setLane k r i v).netCycles = s.netCycles ∧ (s.setLane k r i v).couplerAside = s.couplerAside ∧
    (s.setLane k r i v).tcs = s.tcs ∧ (s.setLane k r i v).ctxs = s.ctxs ∧ (s.setLane k r i v).media = s.media ∧ (s.setLane k r i v).rein = s.rein ∧
    (s.setLane k r i v).lock = s.lock ∧ (s.setLane k r i v).coachCycles = s.coachCycles ∧ (s.setLane k r i v).netFrac = s.netFrac ∧
    (s.setLane k r i v).aoFrac = s.aoFrac ∧ (s.setLane k r i v).laneSt = s.laneSt ∧ (s.setLane k r i v).links = s.links ∧
    (s.setLane k r i v).bays = s.bays ∧ (s.setLane k r i v).pair = s.pair ∧ (s.setLane k r i v).log = s.log ∧ (s.setLane k r i v).fab = s.fab ∧
    (s.setLane k r i v).load = s.load ∧ (s.setLane k r i v).keptRegs = s.keptRegs ∧ (s.setLane k r i v).keyRam = s.keyRam ∧
    (s.setLane k r i v).fuseKey = s.fuseKey ∧ (s.setLane k r i v).vsense = s.vsense ∧ (s.setLane k r i v).arb = s.arb ∧
    (s.setLane k r i v).adm = s.adm ∧ (s.setLane k r i v).admBusy = s.admBusy ∧ (s.setLane k r i v).admLast = s.admLast ∧
    (s.setLane k r i v).ports = s.ports ∧ (s.setLane k r i v).hostReq = s.hostReq ∧ (s.setLane k r i v).recov = s.recov ∧
    (s.setLane k r i v).pm = s.pm ∧ (s.setLane k r i v).pwr = s.pwr ∧ (s.setLane k r i v).tap = s.tap ∧ (s.setLane k r i v).fuses = s.fuses ∧
    (s.setLane k r i v).dbgKey = s.dbgKey ∧ (s.setLane k r i v).dbgLevel = s.dbgLevel ∧ (s.setLane k r i v).dbgNonce = s.dbgNonce ∧
    (s.setLane k r i v).pertFrom = s.pertFrom := by
  simp only [State.setLane, and_self]

/-- `State.setLanes` changes `vreg` alone. -/
@[simp] theorem State.setLanes_frame (s : State) (k r i : Nat) (vs : List Nat) :
    (s.setLanes k r i vs).pending = s.pending ∧ (s.setLanes k r i vs).freeIx = s.freeIx ∧ (s.setLanes k r i vs).resp = s.resp ∧
    (s.setLanes k r i vs).out = s.out ∧ (s.setLanes k r i vs).fields = s.fields ∧ (s.setLanes k r i vs).latches = s.latches ∧
    (s.setLanes k r i vs).held = s.held ∧ (s.setLanes k r i vs).seqMem = s.seqMem ∧ (s.setLanes k r i vs).store = s.store ∧
    (s.setLanes k r i vs).bank = s.bank ∧ (s.setLanes k r i vs).sacc = s.sacc ∧ (s.setLanes k r i vs).coaches = s.coaches ∧
    (s.setLanes k r i vs).dma = s.dma ∧ (s.setLanes k r i vs).net = s.net ∧ (s.setLanes k r i vs).hbmc = s.hbmc ∧ (s.setLanes k r i vs).hbm = s.hbm ∧
    (s.setLanes k r i vs).reports = s.reports ∧ (s.setLanes k r i vs).aoCycles = s.aoCycles ∧ (s.setLanes k r i vs).netCycles = s.netCycles ∧
    (s.setLanes k r i vs).couplerAside = s.couplerAside ∧ (s.setLanes k r i vs).tcs = s.tcs ∧ (s.setLanes k r i vs).ctxs = s.ctxs ∧
    (s.setLanes k r i vs).media = s.media ∧ (s.setLanes k r i vs).rein = s.rein ∧ (s.setLanes k r i vs).lock = s.lock ∧
    (s.setLanes k r i vs).coachCycles = s.coachCycles ∧ (s.setLanes k r i vs).netFrac = s.netFrac ∧ (s.setLanes k r i vs).aoFrac = s.aoFrac ∧
    (s.setLanes k r i vs).laneSt = s.laneSt ∧ (s.setLanes k r i vs).links = s.links ∧ (s.setLanes k r i vs).bays = s.bays ∧
    (s.setLanes k r i vs).pair = s.pair ∧ (s.setLanes k r i vs).log = s.log ∧ (s.setLanes k r i vs).fab = s.fab ∧ (s.setLanes k r i vs).load = s.load
    ∧ (s.setLanes k r i vs).keptRegs = s.keptRegs ∧ (s.setLanes k r i vs).keyRam = s.keyRam ∧ (s.setLanes k r i vs).fuseKey = s.fuseKey ∧
    (s.setLanes k r i vs).vsense = s.vsense ∧ (s.setLanes k r i vs).arb = s.arb ∧ (s.setLanes k r i vs).adm = s.adm ∧
    (s.setLanes k r i vs).admBusy = s.admBusy ∧ (s.setLanes k r i vs).admLast = s.admLast ∧ (s.setLanes k r i vs).ports = s.ports ∧
    (s.setLanes k r i vs).hostReq = s.hostReq ∧ (s.setLanes k r i vs).recov = s.recov ∧ (s.setLanes k r i vs).pm = s.pm ∧
    (s.setLanes k r i vs).pwr = s.pwr ∧ (s.setLanes k r i vs).tap = s.tap ∧ (s.setLanes k r i vs).fuses = s.fuses ∧
    (s.setLanes k r i vs).dbgKey = s.dbgKey ∧ (s.setLanes k r i vs).dbgLevel = s.dbgLevel ∧ (s.setLanes k r i vs).dbgNonce = s.dbgNonce ∧
    (s.setLanes k r i vs).pertFrom = s.pertFrom := by
  simp only [State.setLanes, and_self]

/-- `State.setSigAccs` changes `sacc` alone. -/
@[simp] theorem State.setSigAccs_frame (s : State) (k a : Nat) (vs : List Nat) :
    (s.setSigAccs k a vs).pending = s.pending ∧ (s.setSigAccs k a vs).freeIx = s.freeIx ∧ (s.setSigAccs k a vs).resp = s.resp ∧
    (s.setSigAccs k a vs).out = s.out ∧ (s.setSigAccs k a vs).fields = s.fields ∧ (s.setSigAccs k a vs).latches = s.latches ∧
    (s.setSigAccs k a vs).held = s.held ∧ (s.setSigAccs k a vs).seqMem = s.seqMem ∧ (s.setSigAccs k a vs).store = s.store ∧
    (s.setSigAccs k a vs).bank = s.bank ∧ (s.setSigAccs k a vs).vreg = s.vreg ∧ (s.setSigAccs k a vs).coaches = s.coaches ∧
    (s.setSigAccs k a vs).dma = s.dma ∧ (s.setSigAccs k a vs).net = s.net ∧ (s.setSigAccs k a vs).hbmc = s.hbmc ∧ (s.setSigAccs k a vs).hbm = s.hbm ∧
    (s.setSigAccs k a vs).reports = s.reports ∧ (s.setSigAccs k a vs).aoCycles = s.aoCycles ∧ (s.setSigAccs k a vs).netCycles = s.netCycles ∧
    (s.setSigAccs k a vs).couplerAside = s.couplerAside ∧ (s.setSigAccs k a vs).tcs = s.tcs ∧ (s.setSigAccs k a vs).ctxs = s.ctxs ∧
    (s.setSigAccs k a vs).media = s.media ∧ (s.setSigAccs k a vs).rein = s.rein ∧ (s.setSigAccs k a vs).lock = s.lock ∧
    (s.setSigAccs k a vs).coachCycles = s.coachCycles ∧ (s.setSigAccs k a vs).netFrac = s.netFrac ∧ (s.setSigAccs k a vs).aoFrac = s.aoFrac ∧
    (s.setSigAccs k a vs).laneSt = s.laneSt ∧ (s.setSigAccs k a vs).links = s.links ∧ (s.setSigAccs k a vs).bays = s.bays ∧
    (s.setSigAccs k a vs).pair = s.pair ∧ (s.setSigAccs k a vs).log = s.log ∧ (s.setSigAccs k a vs).fab = s.fab ∧ (s.setSigAccs k a vs).load = s.load
    ∧ (s.setSigAccs k a vs).keptRegs = s.keptRegs ∧ (s.setSigAccs k a vs).keyRam = s.keyRam ∧ (s.setSigAccs k a vs).fuseKey = s.fuseKey ∧
    (s.setSigAccs k a vs).vsense = s.vsense ∧ (s.setSigAccs k a vs).arb = s.arb ∧ (s.setSigAccs k a vs).adm = s.adm ∧
    (s.setSigAccs k a vs).admBusy = s.admBusy ∧ (s.setSigAccs k a vs).admLast = s.admLast ∧ (s.setSigAccs k a vs).ports = s.ports ∧
    (s.setSigAccs k a vs).hostReq = s.hostReq ∧ (s.setSigAccs k a vs).recov = s.recov ∧ (s.setSigAccs k a vs).pm = s.pm ∧
    (s.setSigAccs k a vs).pwr = s.pwr ∧ (s.setSigAccs k a vs).tap = s.tap ∧ (s.setSigAccs k a vs).fuses = s.fuses ∧
    (s.setSigAccs k a vs).dbgKey = s.dbgKey ∧ (s.setSigAccs k a vs).dbgLevel = s.dbgLevel ∧ (s.setSigAccs k a vs).dbgNonce = s.dbgNonce ∧
    (s.setSigAccs k a vs).pertFrom = s.pertFrom := by
  simp only [State.setSigAccs, and_self]

/-- `State.setBankWord` changes `bank` alone. -/
@[simp] theorem State.setBankWord_frame (s : State) (k e w : Nat) :
    (s.setBankWord k e w).pending = s.pending ∧ (s.setBankWord k e w).freeIx = s.freeIx ∧ (s.setBankWord k e w).resp = s.resp ∧
    (s.setBankWord k e w).out = s.out ∧ (s.setBankWord k e w).fields = s.fields ∧ (s.setBankWord k e w).latches = s.latches ∧
    (s.setBankWord k e w).held = s.held ∧ (s.setBankWord k e w).seqMem = s.seqMem ∧ (s.setBankWord k e w).store = s.store ∧
    (s.setBankWord k e w).vreg = s.vreg ∧ (s.setBankWord k e w).sacc = s.sacc ∧ (s.setBankWord k e w).coaches = s.coaches ∧
    (s.setBankWord k e w).dma = s.dma ∧ (s.setBankWord k e w).net = s.net ∧ (s.setBankWord k e w).hbmc = s.hbmc ∧ (s.setBankWord k e w).hbm = s.hbm ∧
    (s.setBankWord k e w).reports = s.reports ∧ (s.setBankWord k e w).aoCycles = s.aoCycles ∧ (s.setBankWord k e w).netCycles = s.netCycles ∧
    (s.setBankWord k e w).couplerAside = s.couplerAside ∧ (s.setBankWord k e w).tcs = s.tcs ∧ (s.setBankWord k e w).ctxs = s.ctxs ∧
    (s.setBankWord k e w).media = s.media ∧ (s.setBankWord k e w).rein = s.rein ∧ (s.setBankWord k e w).lock = s.lock ∧
    (s.setBankWord k e w).coachCycles = s.coachCycles ∧ (s.setBankWord k e w).netFrac = s.netFrac ∧ (s.setBankWord k e w).aoFrac = s.aoFrac ∧
    (s.setBankWord k e w).laneSt = s.laneSt ∧ (s.setBankWord k e w).links = s.links ∧ (s.setBankWord k e w).bays = s.bays ∧
    (s.setBankWord k e w).pair = s.pair ∧ (s.setBankWord k e w).log = s.log ∧ (s.setBankWord k e w).fab = s.fab ∧ (s.setBankWord k e w).load = s.load
    ∧ (s.setBankWord k e w).keptRegs = s.keptRegs ∧ (s.setBankWord k e w).keyRam = s.keyRam ∧ (s.setBankWord k e w).fuseKey = s.fuseKey ∧
    (s.setBankWord k e w).vsense = s.vsense ∧ (s.setBankWord k e w).arb = s.arb ∧ (s.setBankWord k e w).adm = s.adm ∧
    (s.setBankWord k e w).admBusy = s.admBusy ∧ (s.setBankWord k e w).admLast = s.admLast ∧ (s.setBankWord k e w).ports = s.ports ∧
    (s.setBankWord k e w).hostReq = s.hostReq ∧ (s.setBankWord k e w).recov = s.recov ∧ (s.setBankWord k e w).pm = s.pm ∧
    (s.setBankWord k e w).pwr = s.pwr ∧ (s.setBankWord k e w).tap = s.tap ∧ (s.setBankWord k e w).fuses = s.fuses ∧
    (s.setBankWord k e w).dbgKey = s.dbgKey ∧ (s.setBankWord k e w).dbgLevel = s.dbgLevel ∧ (s.setBankWord k e w).dbgNonce = s.dbgNonce ∧
    (s.setBankWord k e w).pertFrom = s.pertFrom := by
  simp only [State.setBankWord, and_self]

/-- `State.updFab` changes `fab` alone. -/
@[simp] theorem State.updFab_frame (s : State) (c : Nat) (f : FabS → FabS) :
    (s.updFab c f).pending = s.pending ∧ (s.updFab c f).freeIx = s.freeIx ∧ (s.updFab c f).resp = s.resp ∧ (s.updFab c f).out = s.out ∧
    (s.updFab c f).fields = s.fields ∧ (s.updFab c f).latches = s.latches ∧ (s.updFab c f).held = s.held ∧ (s.updFab c f).seqMem = s.seqMem ∧
    (s.updFab c f).store = s.store ∧ (s.updFab c f).bank = s.bank ∧ (s.updFab c f).vreg = s.vreg ∧ (s.updFab c f).sacc = s.sacc ∧
    (s.updFab c f).coaches = s.coaches ∧ (s.updFab c f).dma = s.dma ∧ (s.updFab c f).net = s.net ∧ (s.updFab c f).hbmc = s.hbmc ∧
    (s.updFab c f).hbm = s.hbm ∧ (s.updFab c f).reports = s.reports ∧ (s.updFab c f).aoCycles = s.aoCycles ∧ (s.updFab c f).netCycles = s.netCycles ∧
    (s.updFab c f).couplerAside = s.couplerAside ∧ (s.updFab c f).tcs = s.tcs ∧ (s.updFab c f).ctxs = s.ctxs ∧ (s.updFab c f).media = s.media ∧
    (s.updFab c f).rein = s.rein ∧ (s.updFab c f).lock = s.lock ∧ (s.updFab c f).coachCycles = s.coachCycles ∧ (s.updFab c f).netFrac = s.netFrac ∧
    (s.updFab c f).aoFrac = s.aoFrac ∧ (s.updFab c f).laneSt = s.laneSt ∧ (s.updFab c f).links = s.links ∧ (s.updFab c f).bays = s.bays ∧
    (s.updFab c f).pair = s.pair ∧ (s.updFab c f).log = s.log ∧ (s.updFab c f).load = s.load ∧ (s.updFab c f).keptRegs = s.keptRegs ∧
    (s.updFab c f).keyRam = s.keyRam ∧ (s.updFab c f).fuseKey = s.fuseKey ∧ (s.updFab c f).vsense = s.vsense ∧ (s.updFab c f).arb = s.arb ∧
    (s.updFab c f).adm = s.adm ∧ (s.updFab c f).admBusy = s.admBusy ∧ (s.updFab c f).admLast = s.admLast ∧ (s.updFab c f).ports = s.ports ∧
    (s.updFab c f).hostReq = s.hostReq ∧ (s.updFab c f).recov = s.recov ∧ (s.updFab c f).pm = s.pm ∧ (s.updFab c f).pwr = s.pwr ∧
    (s.updFab c f).tap = s.tap ∧ (s.updFab c f).fuses = s.fuses ∧ (s.updFab c f).dbgKey = s.dbgKey ∧ (s.updFab c f).dbgLevel = s.dbgLevel ∧
    (s.updFab c f).dbgNonce = s.dbgNonce ∧ (s.updFab c f).pertFrom = s.pertFrom := by
  simp only [State.updFab, and_self]

/-- `State.updTc` changes `tcs` alone. -/
@[simp] theorem State.updTc_frame (s : State) (u : Nat) (f : Tcache → Tcache) :
    (s.updTc u f).pending = s.pending ∧ (s.updTc u f).freeIx = s.freeIx ∧ (s.updTc u f).resp = s.resp ∧ (s.updTc u f).out = s.out ∧
    (s.updTc u f).fields = s.fields ∧ (s.updTc u f).latches = s.latches ∧ (s.updTc u f).held = s.held ∧ (s.updTc u f).seqMem = s.seqMem ∧
    (s.updTc u f).store = s.store ∧ (s.updTc u f).bank = s.bank ∧ (s.updTc u f).vreg = s.vreg ∧ (s.updTc u f).sacc = s.sacc ∧
    (s.updTc u f).coaches = s.coaches ∧ (s.updTc u f).dma = s.dma ∧ (s.updTc u f).net = s.net ∧ (s.updTc u f).hbmc = s.hbmc ∧
    (s.updTc u f).hbm = s.hbm ∧ (s.updTc u f).reports = s.reports ∧ (s.updTc u f).aoCycles = s.aoCycles ∧ (s.updTc u f).netCycles = s.netCycles ∧
    (s.updTc u f).couplerAside = s.couplerAside ∧ (s.updTc u f).ctxs = s.ctxs ∧ (s.updTc u f).media = s.media ∧ (s.updTc u f).rein = s.rein ∧
    (s.updTc u f).lock = s.lock ∧ (s.updTc u f).coachCycles = s.coachCycles ∧ (s.updTc u f).netFrac = s.netFrac ∧ (s.updTc u f).aoFrac = s.aoFrac ∧
    (s.updTc u f).laneSt = s.laneSt ∧ (s.updTc u f).links = s.links ∧ (s.updTc u f).bays = s.bays ∧ (s.updTc u f).pair = s.pair ∧
    (s.updTc u f).log = s.log ∧ (s.updTc u f).fab = s.fab ∧ (s.updTc u f).load = s.load ∧ (s.updTc u f).keptRegs = s.keptRegs ∧
    (s.updTc u f).keyRam = s.keyRam ∧ (s.updTc u f).fuseKey = s.fuseKey ∧ (s.updTc u f).vsense = s.vsense ∧ (s.updTc u f).arb = s.arb ∧
    (s.updTc u f).adm = s.adm ∧ (s.updTc u f).admBusy = s.admBusy ∧ (s.updTc u f).admLast = s.admLast ∧ (s.updTc u f).ports = s.ports ∧
    (s.updTc u f).hostReq = s.hostReq ∧ (s.updTc u f).recov = s.recov ∧ (s.updTc u f).pm = s.pm ∧ (s.updTc u f).pwr = s.pwr ∧
    (s.updTc u f).tap = s.tap ∧ (s.updTc u f).fuses = s.fuses ∧ (s.updTc u f).dbgKey = s.dbgKey ∧ (s.updTc u f).dbgLevel = s.dbgLevel ∧
    (s.updTc u f).dbgNonce = s.dbgNonce ∧ (s.updTc u f).pertFrom = s.pertFrom := by
  simp only [State.updTc, and_self]

/-- `State.updStrm` changes `coaches` alone. -/
@[simp] theorem State.updStrm_frame (s : State) (k n : Nat) (f : Strm → Strm) :
    (s.updStrm k n f).pending = s.pending ∧ (s.updStrm k n f).freeIx = s.freeIx ∧ (s.updStrm k n f).resp = s.resp ∧ (s.updStrm k n f).out = s.out ∧
    (s.updStrm k n f).fields = s.fields ∧ (s.updStrm k n f).latches = s.latches ∧ (s.updStrm k n f).held = s.held ∧
    (s.updStrm k n f).seqMem = s.seqMem ∧ (s.updStrm k n f).store = s.store ∧ (s.updStrm k n f).bank = s.bank ∧ (s.updStrm k n f).vreg = s.vreg ∧
    (s.updStrm k n f).sacc = s.sacc ∧ (s.updStrm k n f).dma = s.dma ∧ (s.updStrm k n f).net = s.net ∧ (s.updStrm k n f).hbmc = s.hbmc ∧
    (s.updStrm k n f).hbm = s.hbm ∧ (s.updStrm k n f).reports = s.reports ∧ (s.updStrm k n f).aoCycles = s.aoCycles ∧
    (s.updStrm k n f).netCycles = s.netCycles ∧ (s.updStrm k n f).couplerAside = s.couplerAside ∧ (s.updStrm k n f).tcs = s.tcs ∧
    (s.updStrm k n f).ctxs = s.ctxs ∧ (s.updStrm k n f).media = s.media ∧ (s.updStrm k n f).rein = s.rein ∧ (s.updStrm k n f).lock = s.lock ∧
    (s.updStrm k n f).coachCycles = s.coachCycles ∧ (s.updStrm k n f).netFrac = s.netFrac ∧ (s.updStrm k n f).aoFrac = s.aoFrac ∧
    (s.updStrm k n f).laneSt = s.laneSt ∧ (s.updStrm k n f).links = s.links ∧ (s.updStrm k n f).bays = s.bays ∧ (s.updStrm k n f).pair = s.pair ∧
    (s.updStrm k n f).log = s.log ∧ (s.updStrm k n f).fab = s.fab ∧ (s.updStrm k n f).load = s.load ∧ (s.updStrm k n f).keptRegs = s.keptRegs ∧
    (s.updStrm k n f).keyRam = s.keyRam ∧ (s.updStrm k n f).fuseKey = s.fuseKey ∧ (s.updStrm k n f).vsense = s.vsense ∧ (s.updStrm k n f).arb = s.arb
    ∧ (s.updStrm k n f).adm = s.adm ∧ (s.updStrm k n f).admBusy = s.admBusy ∧ (s.updStrm k n f).admLast = s.admLast ∧
    (s.updStrm k n f).ports = s.ports ∧ (s.updStrm k n f).hostReq = s.hostReq ∧ (s.updStrm k n f).recov = s.recov ∧ (s.updStrm k n f).pm = s.pm ∧
    (s.updStrm k n f).pwr = s.pwr ∧ (s.updStrm k n f).tap = s.tap ∧ (s.updStrm k n f).fuses = s.fuses ∧ (s.updStrm k n f).dbgKey = s.dbgKey ∧
    (s.updStrm k n f).dbgLevel = s.dbgLevel ∧ (s.updStrm k n f).dbgNonce = s.dbgNonce ∧ (s.updStrm k n f).pertFrom = s.pertFrom := by
  simp only [State.updStrm, State.updCoach, State.setCoach, and_self]

/-- `State.updChan` changes `dma` alone. -/
@[simp] theorem State.updChan_frame (s : State) (c ch : Nat) (f : Chan → Chan) :
    (s.updChan c ch f).pending = s.pending ∧ (s.updChan c ch f).freeIx = s.freeIx ∧ (s.updChan c ch f).resp = s.resp ∧ (s.updChan c ch f).out = s.out
    ∧ (s.updChan c ch f).fields = s.fields ∧ (s.updChan c ch f).latches = s.latches ∧ (s.updChan c ch f).held = s.held ∧
    (s.updChan c ch f).seqMem = s.seqMem ∧ (s.updChan c ch f).store = s.store ∧ (s.updChan c ch f).bank = s.bank ∧ (s.updChan c ch f).vreg = s.vreg ∧
    (s.updChan c ch f).sacc = s.sacc ∧ (s.updChan c ch f).coaches = s.coaches ∧ (s.updChan c ch f).net = s.net ∧ (s.updChan c ch f).hbmc = s.hbmc ∧
    (s.updChan c ch f).hbm = s.hbm ∧ (s.updChan c ch f).reports = s.reports ∧ (s.updChan c ch f).aoCycles = s.aoCycles ∧
    (s.updChan c ch f).netCycles = s.netCycles ∧ (s.updChan c ch f).couplerAside = s.couplerAside ∧ (s.updChan c ch f).tcs = s.tcs ∧
    (s.updChan c ch f).ctxs = s.ctxs ∧ (s.updChan c ch f).media = s.media ∧ (s.updChan c ch f).rein = s.rein ∧ (s.updChan c ch f).lock = s.lock ∧
    (s.updChan c ch f).coachCycles = s.coachCycles ∧ (s.updChan c ch f).netFrac = s.netFrac ∧ (s.updChan c ch f).aoFrac = s.aoFrac ∧
    (s.updChan c ch f).laneSt = s.laneSt ∧ (s.updChan c ch f).links = s.links ∧ (s.updChan c ch f).bays = s.bays ∧ (s.updChan c ch f).pair = s.pair ∧
    (s.updChan c ch f).log = s.log ∧ (s.updChan c ch f).fab = s.fab ∧ (s.updChan c ch f).load = s.load ∧ (s.updChan c ch f).keptRegs = s.keptRegs ∧
    (s.updChan c ch f).keyRam = s.keyRam ∧ (s.updChan c ch f).fuseKey = s.fuseKey ∧ (s.updChan c ch f).vsense = s.vsense ∧
    (s.updChan c ch f).arb = s.arb ∧ (s.updChan c ch f).adm = s.adm ∧ (s.updChan c ch f).admBusy = s.admBusy ∧ (s.updChan c ch f).admLast = s.admLast
    ∧ (s.updChan c ch f).ports = s.ports ∧ (s.updChan c ch f).hostReq = s.hostReq ∧ (s.updChan c ch f).recov = s.recov ∧ (s.updChan c ch f).pm = s.pm
    ∧ (s.updChan c ch f).pwr = s.pwr ∧ (s.updChan c ch f).tap = s.tap ∧ (s.updChan c ch f).fuses = s.fuses ∧ (s.updChan c ch f).dbgKey = s.dbgKey ∧
    (s.updChan c ch f).dbgLevel = s.dbgLevel ∧ (s.updChan c ch f).dbgNonce = s.dbgNonce ∧ (s.updChan c ch f).pertFrom = s.pertFrom := by
  simp only [State.updChan, and_self]

/-- `State.updHbm` changes `hbmc` alone. -/
@[simp] theorem State.updHbm_frame (s : State) (n : Nat) (f : HbmS → HbmS) :
    (s.updHbm n f).pending = s.pending ∧ (s.updHbm n f).freeIx = s.freeIx ∧ (s.updHbm n f).resp = s.resp ∧ (s.updHbm n f).out = s.out ∧
    (s.updHbm n f).fields = s.fields ∧ (s.updHbm n f).latches = s.latches ∧ (s.updHbm n f).held = s.held ∧ (s.updHbm n f).seqMem = s.seqMem ∧
    (s.updHbm n f).store = s.store ∧ (s.updHbm n f).bank = s.bank ∧ (s.updHbm n f).vreg = s.vreg ∧ (s.updHbm n f).sacc = s.sacc ∧
    (s.updHbm n f).coaches = s.coaches ∧ (s.updHbm n f).dma = s.dma ∧ (s.updHbm n f).net = s.net ∧ (s.updHbm n f).hbm = s.hbm ∧
    (s.updHbm n f).reports = s.reports ∧ (s.updHbm n f).aoCycles = s.aoCycles ∧ (s.updHbm n f).netCycles = s.netCycles ∧
    (s.updHbm n f).couplerAside = s.couplerAside ∧ (s.updHbm n f).tcs = s.tcs ∧ (s.updHbm n f).ctxs = s.ctxs ∧ (s.updHbm n f).media = s.media ∧
    (s.updHbm n f).rein = s.rein ∧ (s.updHbm n f).lock = s.lock ∧ (s.updHbm n f).coachCycles = s.coachCycles ∧ (s.updHbm n f).netFrac = s.netFrac ∧
    (s.updHbm n f).aoFrac = s.aoFrac ∧ (s.updHbm n f).laneSt = s.laneSt ∧ (s.updHbm n f).links = s.links ∧ (s.updHbm n f).bays = s.bays ∧
    (s.updHbm n f).pair = s.pair ∧ (s.updHbm n f).log = s.log ∧ (s.updHbm n f).fab = s.fab ∧ (s.updHbm n f).load = s.load ∧
    (s.updHbm n f).keptRegs = s.keptRegs ∧ (s.updHbm n f).keyRam = s.keyRam ∧ (s.updHbm n f).fuseKey = s.fuseKey ∧ (s.updHbm n f).vsense = s.vsense ∧
    (s.updHbm n f).arb = s.arb ∧ (s.updHbm n f).adm = s.adm ∧ (s.updHbm n f).admBusy = s.admBusy ∧ (s.updHbm n f).admLast = s.admLast ∧
    (s.updHbm n f).ports = s.ports ∧ (s.updHbm n f).hostReq = s.hostReq ∧ (s.updHbm n f).recov = s.recov ∧ (s.updHbm n f).pm = s.pm ∧
    (s.updHbm n f).pwr = s.pwr ∧ (s.updHbm n f).tap = s.tap ∧ (s.updHbm n f).fuses = s.fuses ∧ (s.updHbm n f).dbgKey = s.dbgKey ∧
    (s.updHbm n f).dbgLevel = s.dbgLevel ∧ (s.updHbm n f).dbgNonce = s.dbgNonce ∧ (s.updHbm n f).pertFrom = s.pertFrom := by
  simp only [State.updHbm, and_self]

/-- `State.updCtx` changes `ctxs` alone. -/
@[simp] theorem State.updCtx_frame (s : State) (n : Nat) (f : CtxS → CtxS) :
    (s.updCtx n f).pending = s.pending ∧ (s.updCtx n f).freeIx = s.freeIx ∧ (s.updCtx n f).resp = s.resp ∧ (s.updCtx n f).out = s.out ∧
    (s.updCtx n f).fields = s.fields ∧ (s.updCtx n f).latches = s.latches ∧ (s.updCtx n f).held = s.held ∧ (s.updCtx n f).seqMem = s.seqMem ∧
    (s.updCtx n f).store = s.store ∧ (s.updCtx n f).bank = s.bank ∧ (s.updCtx n f).vreg = s.vreg ∧ (s.updCtx n f).sacc = s.sacc ∧
    (s.updCtx n f).coaches = s.coaches ∧ (s.updCtx n f).dma = s.dma ∧ (s.updCtx n f).net = s.net ∧ (s.updCtx n f).hbmc = s.hbmc ∧
    (s.updCtx n f).hbm = s.hbm ∧ (s.updCtx n f).reports = s.reports ∧ (s.updCtx n f).aoCycles = s.aoCycles ∧ (s.updCtx n f).netCycles = s.netCycles ∧
    (s.updCtx n f).couplerAside = s.couplerAside ∧ (s.updCtx n f).tcs = s.tcs ∧ (s.updCtx n f).media = s.media ∧ (s.updCtx n f).rein = s.rein ∧
    (s.updCtx n f).lock = s.lock ∧ (s.updCtx n f).coachCycles = s.coachCycles ∧ (s.updCtx n f).netFrac = s.netFrac ∧ (s.updCtx n f).aoFrac = s.aoFrac
    ∧ (s.updCtx n f).laneSt = s.laneSt ∧ (s.updCtx n f).links = s.links ∧ (s.updCtx n f).bays = s.bays ∧ (s.updCtx n f).pair = s.pair ∧
    (s.updCtx n f).log = s.log ∧ (s.updCtx n f).fab = s.fab ∧ (s.updCtx n f).load = s.load ∧ (s.updCtx n f).keptRegs = s.keptRegs ∧
    (s.updCtx n f).keyRam = s.keyRam ∧ (s.updCtx n f).fuseKey = s.fuseKey ∧ (s.updCtx n f).vsense = s.vsense ∧ (s.updCtx n f).arb = s.arb ∧
    (s.updCtx n f).adm = s.adm ∧ (s.updCtx n f).admBusy = s.admBusy ∧ (s.updCtx n f).admLast = s.admLast ∧ (s.updCtx n f).ports = s.ports ∧
    (s.updCtx n f).hostReq = s.hostReq ∧ (s.updCtx n f).recov = s.recov ∧ (s.updCtx n f).pm = s.pm ∧ (s.updCtx n f).pwr = s.pwr ∧
    (s.updCtx n f).tap = s.tap ∧ (s.updCtx n f).fuses = s.fuses ∧ (s.updCtx n f).dbgKey = s.dbgKey ∧ (s.updCtx n f).dbgLevel = s.dbgLevel ∧
    (s.updCtx n f).dbgNonce = s.dbgNonce ∧ (s.updCtx n f).pertFrom = s.pertFrom := by
  simp only [State.updCtx, and_self]

/-- `State.updLink` changes `links` alone. -/
@[simp] theorem State.updLink_frame (s : State) (l : Nat) (f : LinkS → LinkS) :
    (s.updLink l f).pending = s.pending ∧ (s.updLink l f).freeIx = s.freeIx ∧ (s.updLink l f).resp = s.resp ∧ (s.updLink l f).out = s.out ∧
    (s.updLink l f).fields = s.fields ∧ (s.updLink l f).latches = s.latches ∧ (s.updLink l f).held = s.held ∧ (s.updLink l f).seqMem = s.seqMem ∧
    (s.updLink l f).store = s.store ∧ (s.updLink l f).bank = s.bank ∧ (s.updLink l f).vreg = s.vreg ∧ (s.updLink l f).sacc = s.sacc ∧
    (s.updLink l f).coaches = s.coaches ∧ (s.updLink l f).dma = s.dma ∧ (s.updLink l f).net = s.net ∧ (s.updLink l f).hbmc = s.hbmc ∧
    (s.updLink l f).hbm = s.hbm ∧ (s.updLink l f).reports = s.reports ∧ (s.updLink l f).aoCycles = s.aoCycles ∧
    (s.updLink l f).netCycles = s.netCycles ∧ (s.updLink l f).couplerAside = s.couplerAside ∧ (s.updLink l f).tcs = s.tcs ∧
    (s.updLink l f).ctxs = s.ctxs ∧ (s.updLink l f).media = s.media ∧ (s.updLink l f).rein = s.rein ∧ (s.updLink l f).lock = s.lock ∧
    (s.updLink l f).coachCycles = s.coachCycles ∧ (s.updLink l f).netFrac = s.netFrac ∧ (s.updLink l f).aoFrac = s.aoFrac ∧
    (s.updLink l f).laneSt = s.laneSt ∧ (s.updLink l f).bays = s.bays ∧ (s.updLink l f).pair = s.pair ∧ (s.updLink l f).log = s.log ∧
    (s.updLink l f).fab = s.fab ∧ (s.updLink l f).load = s.load ∧ (s.updLink l f).keptRegs = s.keptRegs ∧ (s.updLink l f).keyRam = s.keyRam ∧
    (s.updLink l f).fuseKey = s.fuseKey ∧ (s.updLink l f).vsense = s.vsense ∧ (s.updLink l f).arb = s.arb ∧ (s.updLink l f).adm = s.adm ∧
    (s.updLink l f).admBusy = s.admBusy ∧ (s.updLink l f).admLast = s.admLast ∧ (s.updLink l f).ports = s.ports ∧ (s.updLink l f).hostReq = s.hostReq
    ∧ (s.updLink l f).recov = s.recov ∧ (s.updLink l f).pm = s.pm ∧ (s.updLink l f).pwr = s.pwr ∧ (s.updLink l f).tap = s.tap ∧
    (s.updLink l f).fuses = s.fuses ∧ (s.updLink l f).dbgKey = s.dbgKey ∧ (s.updLink l f).dbgLevel = s.dbgLevel ∧
    (s.updLink l f).dbgNonce = s.dbgNonce ∧ (s.updLink l f).pertFrom = s.pertFrom := by
  simp only [State.updLink, and_self]

/-- `State.updLane` changes `laneSt` alone. -/
@[simp] theorem State.updLane_frame (s : State) (g : Nat) (f : LaneS → LaneS) :
    (s.updLane g f).pending = s.pending ∧ (s.updLane g f).freeIx = s.freeIx ∧ (s.updLane g f).resp = s.resp ∧ (s.updLane g f).out = s.out ∧
    (s.updLane g f).fields = s.fields ∧ (s.updLane g f).latches = s.latches ∧ (s.updLane g f).held = s.held ∧ (s.updLane g f).seqMem = s.seqMem ∧
    (s.updLane g f).store = s.store ∧ (s.updLane g f).bank = s.bank ∧ (s.updLane g f).vreg = s.vreg ∧ (s.updLane g f).sacc = s.sacc ∧
    (s.updLane g f).coaches = s.coaches ∧ (s.updLane g f).dma = s.dma ∧ (s.updLane g f).net = s.net ∧ (s.updLane g f).hbmc = s.hbmc ∧
    (s.updLane g f).hbm = s.hbm ∧ (s.updLane g f).reports = s.reports ∧ (s.updLane g f).aoCycles = s.aoCycles ∧
    (s.updLane g f).netCycles = s.netCycles ∧ (s.updLane g f).couplerAside = s.couplerAside ∧ (s.updLane g f).tcs = s.tcs ∧
    (s.updLane g f).ctxs = s.ctxs ∧ (s.updLane g f).media = s.media ∧ (s.updLane g f).rein = s.rein ∧ (s.updLane g f).lock = s.lock ∧
    (s.updLane g f).coachCycles = s.coachCycles ∧ (s.updLane g f).netFrac = s.netFrac ∧ (s.updLane g f).aoFrac = s.aoFrac ∧
    (s.updLane g f).links = s.links ∧ (s.updLane g f).bays = s.bays ∧ (s.updLane g f).pair = s.pair ∧ (s.updLane g f).log = s.log ∧
    (s.updLane g f).fab = s.fab ∧ (s.updLane g f).load = s.load ∧ (s.updLane g f).keptRegs = s.keptRegs ∧ (s.updLane g f).keyRam = s.keyRam ∧
    (s.updLane g f).fuseKey = s.fuseKey ∧ (s.updLane g f).vsense = s.vsense ∧ (s.updLane g f).arb = s.arb ∧ (s.updLane g f).adm = s.adm ∧
    (s.updLane g f).admBusy = s.admBusy ∧ (s.updLane g f).admLast = s.admLast ∧ (s.updLane g f).ports = s.ports ∧ (s.updLane g f).hostReq = s.hostReq
    ∧ (s.updLane g f).recov = s.recov ∧ (s.updLane g f).pm = s.pm ∧ (s.updLane g f).pwr = s.pwr ∧ (s.updLane g f).tap = s.tap ∧
    (s.updLane g f).fuses = s.fuses ∧ (s.updLane g f).dbgKey = s.dbgKey ∧ (s.updLane g f).dbgLevel = s.dbgLevel ∧
    (s.updLane g f).dbgNonce = s.dbgNonce ∧ (s.updLane g f).pertFrom = s.pertFrom := by
  simp only [State.updLane, and_self]

/-- `State.updBay` changes `bays` alone. -/
@[simp] theorem State.updBay_frame (s : State) (b : Nat) (f : BayS → BayS) :
    (s.updBay b f).pending = s.pending ∧ (s.updBay b f).freeIx = s.freeIx ∧ (s.updBay b f).resp = s.resp ∧ (s.updBay b f).out = s.out ∧
    (s.updBay b f).fields = s.fields ∧ (s.updBay b f).latches = s.latches ∧ (s.updBay b f).held = s.held ∧ (s.updBay b f).seqMem = s.seqMem ∧
    (s.updBay b f).store = s.store ∧ (s.updBay b f).bank = s.bank ∧ (s.updBay b f).vreg = s.vreg ∧ (s.updBay b f).sacc = s.sacc ∧
    (s.updBay b f).coaches = s.coaches ∧ (s.updBay b f).dma = s.dma ∧ (s.updBay b f).net = s.net ∧ (s.updBay b f).hbmc = s.hbmc ∧
    (s.updBay b f).hbm = s.hbm ∧ (s.updBay b f).reports = s.reports ∧ (s.updBay b f).aoCycles = s.aoCycles ∧ (s.updBay b f).netCycles = s.netCycles ∧
    (s.updBay b f).couplerAside = s.couplerAside ∧ (s.updBay b f).tcs = s.tcs ∧ (s.updBay b f).ctxs = s.ctxs ∧ (s.updBay b f).media = s.media ∧
    (s.updBay b f).rein = s.rein ∧ (s.updBay b f).lock = s.lock ∧ (s.updBay b f).coachCycles = s.coachCycles ∧ (s.updBay b f).netFrac = s.netFrac ∧
    (s.updBay b f).aoFrac = s.aoFrac ∧ (s.updBay b f).laneSt = s.laneSt ∧ (s.updBay b f).links = s.links ∧ (s.updBay b f).pair = s.pair ∧
    (s.updBay b f).log = s.log ∧ (s.updBay b f).fab = s.fab ∧ (s.updBay b f).load = s.load ∧ (s.updBay b f).keptRegs = s.keptRegs ∧
    (s.updBay b f).keyRam = s.keyRam ∧ (s.updBay b f).fuseKey = s.fuseKey ∧ (s.updBay b f).vsense = s.vsense ∧ (s.updBay b f).arb = s.arb ∧
    (s.updBay b f).adm = s.adm ∧ (s.updBay b f).admBusy = s.admBusy ∧ (s.updBay b f).admLast = s.admLast ∧ (s.updBay b f).ports = s.ports ∧
    (s.updBay b f).hostReq = s.hostReq ∧ (s.updBay b f).recov = s.recov ∧ (s.updBay b f).pm = s.pm ∧ (s.updBay b f).pwr = s.pwr ∧
    (s.updBay b f).tap = s.tap ∧ (s.updBay b f).fuses = s.fuses ∧ (s.updBay b f).dbgKey = s.dbgKey ∧ (s.updBay b f).dbgLevel = s.dbgLevel ∧
    (s.updBay b f).dbgNonce = s.dbgNonce ∧ (s.updBay b f).pertFrom = s.pertFrom := by
  simp only [State.updBay, and_self]

/-- `State.updAdm` changes `adm` alone. -/
@[simp] theorem State.updAdm_frame (s : State) (p : Nat) (f : AdmS → AdmS) :
    (s.updAdm p f).pending = s.pending ∧ (s.updAdm p f).freeIx = s.freeIx ∧ (s.updAdm p f).resp = s.resp ∧ (s.updAdm p f).out = s.out ∧
    (s.updAdm p f).fields = s.fields ∧ (s.updAdm p f).latches = s.latches ∧ (s.updAdm p f).held = s.held ∧ (s.updAdm p f).seqMem = s.seqMem ∧
    (s.updAdm p f).store = s.store ∧ (s.updAdm p f).bank = s.bank ∧ (s.updAdm p f).vreg = s.vreg ∧ (s.updAdm p f).sacc = s.sacc ∧
    (s.updAdm p f).coaches = s.coaches ∧ (s.updAdm p f).dma = s.dma ∧ (s.updAdm p f).net = s.net ∧ (s.updAdm p f).hbmc = s.hbmc ∧
    (s.updAdm p f).hbm = s.hbm ∧ (s.updAdm p f).reports = s.reports ∧ (s.updAdm p f).aoCycles = s.aoCycles ∧ (s.updAdm p f).netCycles = s.netCycles ∧
    (s.updAdm p f).couplerAside = s.couplerAside ∧ (s.updAdm p f).tcs = s.tcs ∧ (s.updAdm p f).ctxs = s.ctxs ∧ (s.updAdm p f).media = s.media ∧
    (s.updAdm p f).rein = s.rein ∧ (s.updAdm p f).lock = s.lock ∧ (s.updAdm p f).coachCycles = s.coachCycles ∧ (s.updAdm p f).netFrac = s.netFrac ∧
    (s.updAdm p f).aoFrac = s.aoFrac ∧ (s.updAdm p f).laneSt = s.laneSt ∧ (s.updAdm p f).links = s.links ∧ (s.updAdm p f).bays = s.bays ∧
    (s.updAdm p f).pair = s.pair ∧ (s.updAdm p f).log = s.log ∧ (s.updAdm p f).fab = s.fab ∧ (s.updAdm p f).load = s.load ∧
    (s.updAdm p f).keptRegs = s.keptRegs ∧ (s.updAdm p f).keyRam = s.keyRam ∧ (s.updAdm p f).fuseKey = s.fuseKey ∧ (s.updAdm p f).vsense = s.vsense ∧
    (s.updAdm p f).arb = s.arb ∧ (s.updAdm p f).admBusy = s.admBusy ∧ (s.updAdm p f).admLast = s.admLast ∧ (s.updAdm p f).ports = s.ports ∧
    (s.updAdm p f).hostReq = s.hostReq ∧ (s.updAdm p f).recov = s.recov ∧ (s.updAdm p f).pm = s.pm ∧ (s.updAdm p f).pwr = s.pwr ∧
    (s.updAdm p f).tap = s.tap ∧ (s.updAdm p f).fuses = s.fuses ∧ (s.updAdm p f).dbgKey = s.dbgKey ∧ (s.updAdm p f).dbgLevel = s.dbgLevel ∧
    (s.updAdm p f).dbgNonce = s.dbgNonce ∧ (s.updAdm p f).pertFrom = s.pertFrom := by
  simp only [State.updAdm, and_self]

/-- `State.updPort` changes `ports` alone. -/
@[simp] theorem State.updPort_frame (s : State) (p : Nat) (f : PortS → PortS) :
    (s.updPort p f).pending = s.pending ∧ (s.updPort p f).freeIx = s.freeIx ∧ (s.updPort p f).resp = s.resp ∧ (s.updPort p f).out = s.out ∧
    (s.updPort p f).fields = s.fields ∧ (s.updPort p f).latches = s.latches ∧ (s.updPort p f).held = s.held ∧ (s.updPort p f).seqMem = s.seqMem ∧
    (s.updPort p f).store = s.store ∧ (s.updPort p f).bank = s.bank ∧ (s.updPort p f).vreg = s.vreg ∧ (s.updPort p f).sacc = s.sacc ∧
    (s.updPort p f).coaches = s.coaches ∧ (s.updPort p f).dma = s.dma ∧ (s.updPort p f).net = s.net ∧ (s.updPort p f).hbmc = s.hbmc ∧
    (s.updPort p f).hbm = s.hbm ∧ (s.updPort p f).reports = s.reports ∧ (s.updPort p f).aoCycles = s.aoCycles ∧
    (s.updPort p f).netCycles = s.netCycles ∧ (s.updPort p f).couplerAside = s.couplerAside ∧ (s.updPort p f).tcs = s.tcs ∧
    (s.updPort p f).ctxs = s.ctxs ∧ (s.updPort p f).media = s.media ∧ (s.updPort p f).rein = s.rein ∧ (s.updPort p f).lock = s.lock ∧
    (s.updPort p f).coachCycles = s.coachCycles ∧ (s.updPort p f).netFrac = s.netFrac ∧ (s.updPort p f).aoFrac = s.aoFrac ∧
    (s.updPort p f).laneSt = s.laneSt ∧ (s.updPort p f).links = s.links ∧ (s.updPort p f).bays = s.bays ∧ (s.updPort p f).pair = s.pair ∧
    (s.updPort p f).log = s.log ∧ (s.updPort p f).fab = s.fab ∧ (s.updPort p f).load = s.load ∧ (s.updPort p f).keptRegs = s.keptRegs ∧
    (s.updPort p f).keyRam = s.keyRam ∧ (s.updPort p f).fuseKey = s.fuseKey ∧ (s.updPort p f).vsense = s.vsense ∧ (s.updPort p f).arb = s.arb ∧
    (s.updPort p f).adm = s.adm ∧ (s.updPort p f).admBusy = s.admBusy ∧ (s.updPort p f).admLast = s.admLast ∧ (s.updPort p f).hostReq = s.hostReq ∧
    (s.updPort p f).recov = s.recov ∧ (s.updPort p f).pm = s.pm ∧ (s.updPort p f).pwr = s.pwr ∧ (s.updPort p f).tap = s.tap ∧
    (s.updPort p f).fuses = s.fuses ∧ (s.updPort p f).dbgKey = s.dbgKey ∧ (s.updPort p f).dbgLevel = s.dbgLevel ∧
    (s.updPort p f).dbgNonce = s.dbgNonce ∧ (s.updPort p f).pertFrom = s.pertFrom := by
  simp only [State.updPort, and_self]

/-- `State.setSheetWord` changes `net` alone. -/
@[simp] theorem State.setSheetWord_frame (s : State) (u e w v : Nat) :
    (s.setSheetWord u e w v).pending = s.pending ∧ (s.setSheetWord u e w v).freeIx = s.freeIx ∧ (s.setSheetWord u e w v).resp = s.resp ∧
    (s.setSheetWord u e w v).out = s.out ∧ (s.setSheetWord u e w v).fields = s.fields ∧ (s.setSheetWord u e w v).latches = s.latches ∧
    (s.setSheetWord u e w v).held = s.held ∧ (s.setSheetWord u e w v).seqMem = s.seqMem ∧ (s.setSheetWord u e w v).store = s.store ∧
    (s.setSheetWord u e w v).bank = s.bank ∧ (s.setSheetWord u e w v).vreg = s.vreg ∧ (s.setSheetWord u e w v).sacc = s.sacc ∧
    (s.setSheetWord u e w v).coaches = s.coaches ∧ (s.setSheetWord u e w v).dma = s.dma ∧ (s.setSheetWord u e w v).hbmc = s.hbmc ∧
    (s.setSheetWord u e w v).hbm = s.hbm ∧ (s.setSheetWord u e w v).reports = s.reports ∧ (s.setSheetWord u e w v).aoCycles = s.aoCycles ∧
    (s.setSheetWord u e w v).netCycles = s.netCycles ∧ (s.setSheetWord u e w v).couplerAside = s.couplerAside ∧ (s.setSheetWord u e w v).tcs = s.tcs ∧
    (s.setSheetWord u e w v).ctxs = s.ctxs ∧ (s.setSheetWord u e w v).media = s.media ∧ (s.setSheetWord u e w v).rein = s.rein ∧
    (s.setSheetWord u e w v).lock = s.lock ∧ (s.setSheetWord u e w v).coachCycles = s.coachCycles ∧ (s.setSheetWord u e w v).netFrac = s.netFrac ∧
    (s.setSheetWord u e w v).aoFrac = s.aoFrac ∧ (s.setSheetWord u e w v).laneSt = s.laneSt ∧ (s.setSheetWord u e w v).links = s.links ∧
    (s.setSheetWord u e w v).bays = s.bays ∧ (s.setSheetWord u e w v).pair = s.pair ∧ (s.setSheetWord u e w v).log = s.log ∧
    (s.setSheetWord u e w v).fab = s.fab ∧ (s.setSheetWord u e w v).load = s.load ∧ (s.setSheetWord u e w v).keptRegs = s.keptRegs ∧
    (s.setSheetWord u e w v).keyRam = s.keyRam ∧ (s.setSheetWord u e w v).fuseKey = s.fuseKey ∧ (s.setSheetWord u e w v).vsense = s.vsense ∧
    (s.setSheetWord u e w v).arb = s.arb ∧ (s.setSheetWord u e w v).adm = s.adm ∧ (s.setSheetWord u e w v).admBusy = s.admBusy ∧
    (s.setSheetWord u e w v).admLast = s.admLast ∧ (s.setSheetWord u e w v).ports = s.ports ∧ (s.setSheetWord u e w v).hostReq = s.hostReq ∧
    (s.setSheetWord u e w v).recov = s.recov ∧ (s.setSheetWord u e w v).pm = s.pm ∧ (s.setSheetWord u e w v).pwr = s.pwr ∧
    (s.setSheetWord u e w v).tap = s.tap ∧ (s.setSheetWord u e w v).fuses = s.fuses ∧ (s.setSheetWord u e w v).dbgKey = s.dbgKey ∧
    (s.setSheetWord u e w v).dbgLevel = s.dbgLevel ∧ (s.setSheetWord u e w v).dbgNonce = s.dbgNonce ∧ (s.setSheetWord u e w v).pertFrom = s.pertFrom := by
  simp only [State.setSheetWord, and_self]

end Sys2Proof.Machine
end

