-- ==== Sys2Proof/Laws/Wires.lean ====
section
/-! SUPPORT. Hop parity on the wires of a network link (R353, Table 8.4): the wires of a flit as it was sent hold it, and of the wires as they are received it
holds exactly when each group has an even number of inverted wires. -/

namespace Sys2Proof.Machine

/-- Parity of bits inverted by others. -/
theorem parityOf_xor (v u : Nat → Bool) (lo n : Nat) : parityOf (fun w => xor (v w) (u w)) lo n = xor (parityOf v lo n) (parityOf u lo n) := by
  unfold parityOf
  suffices h : ∀ (l : List Nat) (a b : Bool), l.foldl (fun p i => xor p (xor (v (lo + i)) (u (lo + i)))) (xor a b) =
      xor (l.foldl (fun p i => xor p (v (lo + i))) a) (l.foldl (fun p i => xor p (u (lo + i))) b) from h _ false false
  intro l
  induction l with
  | nil => intro a b; rfl
  | cons i l ih => intro a b; rw [List.foldl_cons, List.foldl_cons, List.foldl_cons, ← ih]; congr 1; cases a <;> cases b <;> simp

/-- Parity looks at its own bits alone, by their place from the first. -/
theorem parityOf_congr {v u : Nat → Bool} {lo ro n : Nat} (h : ∀ i, i < n → v (lo + i) = u (ro + i)) : parityOf v lo n = parityOf u ro n := by
  have g : ∀ i ∈ List.range n, v (lo + i) = u (ro + i) := fun i hi => h i (List.mem_range.mp hi)
  unfold parityOf
  generalize List.range n = l at g
  generalize false = a
  induction l generalizing a with
  | nil => rfl
  | cons i l ih =>
    rw [List.foldl_cons, List.foldl_cons, g i List.mem_cons_self]
    exact ih (fun j hj => g j (List.mem_cons_of_mem _ hj)) _

/-- A test of every element is decided by what it says of the elements. -/
theorem all_congr_mem {α : Type} {f g : α → Bool} : ∀ {l : List α}, (∀ x ∈ l, f x = g x) → l.all f = l.all g
  | [], _ => rfl
  | x :: l, h => by rw [List.all_cons, List.all_cons, h x List.mem_cons_self, all_congr_mem (fun y hy => h y (List.mem_cons_of_mem _ hy))]

/-- R353: the parity wires of data bits. -/
theorem wire_data_parity (f : Flit) (n i : Nat) (h : i < 16) : parityOf (f.wire n) (64 * i) 64 = f.wire n (1064 + i) := by
  rw [Flit.wire, if_neg (by omega), if_pos (by omega), show 1064 + i - 1064 = i by omega]
  exact parityOf_congr (fun j hj => by rw [Flit.wire, if_pos (by omega)])

/-- R353: the parity wires of code bits. -/
theorem wire_code_parity (f : Flit) (n j : Nat) (h : j < 8) : parityOf (f.wire n) (1024 + 5 * j) 5 = f.wire n (1080 + j) := by
  rw [Flit.wire, if_neg (by omega), if_neg (by omega), if_pos (by omega), show 1080 + j - 1080 = j by omega]
  exact parityOf_congr (fun i hi => by rw [Flit.wire, if_pos (by omega)])

/-- R353: the parity wire of the sideband. -/
theorem wire_sideband_parity (f : Flit) (n : Nat) : parityOf (f.wire n) 1088 7 = f.wire n 1095 := by
  rw [show f.wire n 1095 = parityOf (f.sideband n).testBit 0 7 by simp [Flit.wire]]
  exact parityOf_congr (fun i hi => by
    rw [Flit.wire, if_neg (by omega), if_neg (by omega), if_neg (by omega), if_pos (by omega), show 1088 + i - 1088 = 0 + i by omega])

/-- R353: of the wires of a flit with some inverted, the checks find what the inverted wires alone decide. -/
theorem received_parity (f : Flit) (n : Nat) (flips : List Nat) : parityHolds (fun w => xor (f.wire n w) (flips.contains w)) = errorsPass flips := by
  have e : ∀ a b c d : Bool, a = b → (xor a c == xor b d) = (c == d) := by decide
  unfold errorsPass parityHolds
  refine congrArg₂ _ (congrArg₂ _ ?_ ?_) ?_
  · exact all_congr_mem (fun i hi => by
      rw [parityOf_xor, wire_data_parity f n i (List.mem_range.mp hi)]
      generalize parityOf (fun w => flips.contains w) (64 * i) 64 = p
      exact e _ _ _ _ rfl)
  · exact all_congr_mem (fun j hj => by
      rw [parityOf_xor, wire_code_parity f n j (List.mem_range.mp hj)]
      generalize parityOf (fun w => flips.contains w) (1024 + 5 * j) 5 = p
      exact e _ _ _ _ rfl)
  · rw [parityOf_xor, wire_sideband_parity]
    generalize parityOf (fun w => flips.contains w) 1088 7 = p
    exact e _ _ _ _ rfl

end Sys2Proof.Machine
end

