-- ==== Sys2Proof/WellFormed.lean ====
section
/-! DEFINITION. Which commands are well formed: the operands that a type does not bound hold what the spec's layouts can carry. -/

namespace Sys2Proof

/-- Whether an offset names a 32-bit word (R17). -/
def aligned (off : BitVec 30) : Bool := off.toNat % 4 == 0

/-- Table 8.5: the fields that a unit gives fit the header, and a payload has at most 512 bytes. -/
def PktIn.wf (p : PktIn) : Bool :=
  decide (p.op < 16) && decide (p.sclass < 4) && decide (p.ctx < 1024) && decide (p.tag < 4096) && decide (p.status < 16) &&
    decide (p.addr < 2 ^ 48) && decide (p.aux < 2 ^ 32) && decide (p.len ≤ 32) && decide (p.data.length ≤ 512)

/-- Whether a part of a load stream is `n` bytes: from flash two edges each, after the 48 that a follower ignores (R519, R520). -/
def LoadIn.holds (x : LoadIn) (n : Nat) : Bool :=
  match x with
  | .bytes l => l.length == n
  | .edges l => l.length == 2 * n || l.length == 48 + 2 * n

/-- R491: a head flit carries at most 96 bytes of payload, a body flit 128. -/
def FabFlit.wf : FabFlit → Bool
  | .head p _ => p.wf && decide (p.data.length ≤ 96)
  | .body data => decide (data.length ≤ 128)

/-- Tables 10.5 to 10.7: the identity, wear and seal values that a module can hold. -/
def ModIn.wf (m : ModIn) : Bool :=
  decide (m.serial < 2 ^ 64) && decide (m.make < 2 ^ 16) && decide (m.capGib < 2 ^ 16) && decide (m.rated < 2 ^ 16) && decide (m.spare ≤ 100000) &&
    decide (m.sealDev < 2 ^ 64) && decide (m.sealCnt < 2 ^ 32) && m.media.all (fun x => decide (x.1 < 2 ^ 42))

/-- Bits of a packet on the lanes of a bay: 16 bytes of header and up to 512 of data (R400). -/
def tenderBits (flips : List Nat) : Bool := flips.all (fun i => decide (i < 8 * 528))

/-- Offset within its page of a doorbell write (Table 14.7). -/
def Door.at_ : Door → Nat
  | .pf _ off => off.val % pageSize
  | .vf _ _ off => off.val % pageSize
  | .hart _ off => off.val % pageSize

/-- Whether a command is well formed. -/
def Instr.wellFormed : Instr → Bool
  | .registerWrite off _ => aligned off
  | .readClear off => aligned off
  | .pairLowRead off => aligned off
  | .pairHighRead off => aligned off
  | .pairLowWrite off _ => aligned off
  | .pairHighWrite off _ => aligned off
  | .misalignedAccess off bytes _ => !(aligned off && bytes == 4)
  | .unnamedOffsetAccess off _ => aligned off
  | .reservedRangeAccess off _ => aligned off
  | .notAnsweringAccess off _ => aligned off
  | .clearSattot _ => true
  | .clearFlushtot _ => true
  | .clearNanblktot _ => true
  | .nop _ => true
  | .badop _ => true
  | .loadw _ => true
  | .swapw _ => true
  | .pass _ => true
  | .drain _ => true
  | .quant _ => true
  | .reduce _ => true
  | .swapb _ => true
  | .sync _ => true
  | .setnum _ => true
  | .setsp _ => true
  | .setc _ => true
  | .loop _ => true
  | .endWorkOrder _ => true
  | .instrStart _ _ => true
  | .passRowEnter _ => true
  | .loadwComplete _ => true
  | .passComplete _ => true
  | .bankInstrComplete _ => true
  | .bankContribution _ _ => true
  | .operationEnd _ => true
  | .syncComplete _ => true
  | .swapbComplete _ => true
  | .vld _ => true
  | .vst _ => true
  | .vmov _ => true
  | .vbcast _ => true
  | .vsetcb _ => true
  | .vadd _ => true
  | .vsub _ => true
  | .vmul _ => true
  | .vfma _ => true
  | .vfms _ => true
  | .vmin _ => true
  | .vmax _ => true
  | .vabs _ => true
  | .vrcp _ => true
  | .vrsqrt _ => true
  | .vexp2 _ => true
  | .vlog2 _ => true
  | .vtanh _ => true
  | .vsin _ => true
  | .vcos _ => true
  | .vcvt _ => true
  | .vquant _ => true
  | .sdsplit _ => true
  | .vrsum _ => true
  | .vmaxi _ => true
  | .vmini _ => true
  | .smac _ => true
  | .smsu _ => true
  | .swb _ => true
  | .vlset _ => true
  | .vrot _ => true
  | .vectorComplete _ _ => true
  | .streamStart _ _ => true
  | .streamStop _ _ => true
  | .streamResume _ _ => true
  | .streamGrant _ => true
  | .walkEntryReturn _ => true
  | .streamDataReturn _ => true
  | .streamWriteAck _ => true
  | .streamRequestFault _ => true
  | .tcAgeTick => true
  | .tcEntryLapse _ _ => true
  | .invalAll _ => true
  | .invalContext _ _ => true
  | .invalPage _ _ => true
  | .invalDone _ => true
  | .dmaHeadWrite _ _ _ => true
  | .dmaRun _ _ _ => true
  | .dmaAbort _ _ => true
  | .dmaStoppedClear _ _ => true
  | .dmaDescFetch _ _ => true
  | .dmaBurst _ => true
  | .dmaReadReturn _ => true
  | .dmaWriteAck _ => true
  | .dmaDescEnd _ _ => true
  | .dmaInvalAll _ => true
  | .dmaInvalContext _ _ => true
  | .dmaInvalPage _ _ => true
  | .dmaInvalDone _ => true
  | .lockstepEnable => true
  | .lockstepDisable => true
  | .slotBoundary _ => true
  | .lockstepLinkDelivery _ _ => true
  | .reinArm => true
  | .reinReady => true
  | .reinDisarm => true
  | .reinLineHigh _ => true
  | .reinCycle => true
  | .reinTimeout => true
  | .reinRelease => true
  | .syncBlockSend _ _ _ => true
  | .syncBlockReceive _ _ _ => true
  | .laneSyncLoss _ => true
  | .linkTrain _ => true
  | .linkDisable _ => true
  | .trainTimeout _ => true
  | .linkBlockSend _ => true
  | .linkBlockReceive _ _ => true
  | .linkRetryTimeout _ => true
  | .laneTestWrite _ _ => true
  | .packetSend _ _ p => p.wf
  | .flitReceive _ _ _ flips _ => decide ((flips.filter (fun w => decide (1088 ≤ w.val))).length ≤ 1)
  | .creditReturn _ _ _ _ _ => true
  | .packetDeliver _ _ _ => true
  | .staleReplyReceive _ => true
  | .routeEntryWrite _ _ _ _ _ _ => true
  | .hbmRequestAccept _ _ => true
  | .mirrorCopyAccept _ _ => true
  | .hbmSchedule _ => true
  | .hbmReadData _ flips => flips.all (fun x => decide (x.1 < 9))
  | .rowIdleClose _ _ _ => true
  | .refreshDue _ _ _ => true
  | .refreshSlot _ => true
  | .stackTempChange _ _ => true
  | .adjmapHiWrite _ _ => true
  | .hbmModeWrite _ _ => true
  | .hbmFreqChange _ => true
  | .fcQueuesEmpty _ => true
  | .hbmFreqChangeDone _ => true
  | .trainWritePattern _ _ => true
  | .trainReadCompare _ _ _ => true
  | .trainMrw _ _ => true
  | .trainCmdDone _ => true
  | .tenderRequest _ => true
  | .tenderData _ flips => tenderBits flips
  | .tenderAck _ flips => tenderBits flips
  | .tenderNotice _ flips => tenderBits flips
  | .tenderResendTimeout _ _ => true
  | .presenceSettled _ present m => (present || m.isNone) && (match m with | some x => x.wf | none => true)
  | .tenderLockLost _ => true
  | .lockLossTimeout _ => true
  | .tenderAttach _ => true
  | .tenderDetach _ => true
  | .holdRetryExpiry _ => true
  | .recheckTimeout _ => true
  | .tenderMaintStart _ => true
  | .tenderMaintStop _ => true
  | .tenderMaintLimit _ => true
  | .moduleWrite _ flips _ _ _ => tenderBits flips
  | .moduleRead _ flips _ => tenderBits flips
  | .moduleMaint _ flips _ _ _ _ _ => tenderBits flips
  | .fabricPortFlit _ _ f => f.wf
  | .fabricScrubStart _ => true
  | .fabricScrubDone _ _ _ => true
  | .fabricClockRestart _ _ => true
  | .ioDelayTarget _ _ _ => true
  | .ioDelayStep _ _ => true
  | .releaseStart _ => true
  | .releaseStageAdvance _ => true
  | .loadStart => true
  | .loadAbort => true
  | .flashMasterStart => true
  | .cfgCsFall => true
  | .cfgCsRiseEarly => true
  | .followerTimeout => true
  | .loadHeader hdr => hdr.holds 64
  | .loadSection _ => true
  | .loadTrailer raw tag => raw.holds 16 && (tag.holds 0 || tag.holds 16)
  | .loadStallTimeout => true
  | .loadSourceError _ => true
  | .keyRamLock => true
  | .keyRamCommit => true
  | .keyRamClear => true
  | .vbatLow => true
  | .hartAccessFault _ _ _ _ => true
  | .adminTailWrite _ _ => true
  | .ctxCreate _ _ desc _ => match desc with | some d => d.length == 64 | none => true
  | .ctxDestroy _ _ => true
  | .ctxBind _ _ => true
  | .ctxUnbind _ _ => true
  | .ctxMove _ _ => true
  | .ctxMoveCopy => true
  | .routeWrite _ _ => true
  | .vfMap _ _ => true
  | .hclStart _ _ => true
  | .brake _ _ => true
  | .brakeDone _ _ => true
  | .brakeUnitTimeout _ _ => true
  | .sqtail d r _ => d.at_ == 8 * r.val
  | .cqhead d r _ => d.at_ == 0x200 + 8 * r.val
  | .qsync d _ _ => d.at_ == 0x400
  | .qsyncDisableEffect _ _ => true
  | .resume d _ => d.at_ == 0x408
  | .cqrel d _ => d.at_ == 0x410
  | .dmahead d k _ => d.at_ == 0x600 + 4 * k.val
  | .workOrderStart _ _ => true
  | .workOrderComplete _ => true
  | .completionWrite _ _ _ => true
  | .perstAssert _ => true
  | .perstRelease _ _ _ => true
  | .flr _ _ => true
  | .atsResponse _ _ => true
  | .hostCompletion _ _ _ data => decide (data.length ≤ 512)
  | .powerCmdS0 _ => true
  | .powerCmdS1 _ => true
  | .powerCmdS2 _ => true
  | .powerCmdS3 => true
  | .powerBlockAnswer _ => true
  | .powerBlockTimeout => true
  | .wakeNAssert => true
  | .wakeComplete _ => true
  | .coachGate _ => true
  | .coachUngate _ => true
  | .pllLock _ => true
  | .avsAck _ => true
  | .avsTimeout _ => true
  | .profileWrite _ => true
  | .profileChangeDone => true
  | .padRelease _ => true
  | .throttleStep _ _ => true
  | .hardThrottle _ _ => true
  | .thermtrip _ _ => true
  | .pmbAlert _ => true
  | .faultReport _ => true
  | .coachRecoveryDone _ => true
  | .coachRecoveryTimeout _ => true
  | .carriageRecoveryDone _ => true
  | .carriageRecoveryTimeout _ => true
  | .ctxResume _ => true
  | .recBrake _ => true
  | .hangSample => true
  | .hangExpiry => true
  | .chiprstRequest => true
  | .chipReset _ => true
  | .chipResetDone => true
  | .chipResetTimeout => true
  | .schedHeartbeat => true
  | .schedHeartbeatLoss => true
  | .pmWatchdogExpiry => true
  | .heartbeatToggle => true
  | .pfwAssert => true
  | .pfwEnd => true
  | .maintRequest _ unit _ => decide (unit < 1024)
  | .coachSelfTestDone _ _ => true
  | .maintEnd _ unit => decide (unit < 1024)
  | .maintDeferExpiry => true
  | .heartbeatRecordSend => true
  | .mirrorHeartbeat _ => true
  | .mirrorAck _ => true
  | .mirrorContext _ => true
  | .mirrorQueue _ _ => true
  | .mirrorJournal _ => true
  | .mirrorHbm _ => true
  | .sweepstart _ => true
  | .sweepend _ => true
  | .partnerLost => true
  | .partnerAliveLost => true
  | .witTokenHeld => true
  | .resync => true
  | .ctxRoleWrite _ => true
  | .bypass _ => true
  | .idcode => true
  | .samplePreload _ _ => true
  | .extest _ _ => true
  | .clamp _ _ => true
  | .highz _ _ => true
  | .extestPulse _ _ => true
  | .extestTrain _ _ => true
  | .tapReset => true
  | .debugRequest _ => true
  | .debugClose => true
  | .debugResponseSubmit _ => true
  | .pertWrite _ _ => true
  | .fuseProgram => true
  | .fuseLock => true
  | .porAssert => true
  | .porRelease _ _ _ => true
  | .railGood _ _ => true
  | .railTimeout _ => true
  | .fabricClockEdge _ _ _ _ _ => true
  | .powerRemoval => true
  | .partnerAliveEdge => true
  | .witTokenLow => true
  | .atsInvalidation _ _ _ pages => decide (0 < pages)
  | .moduleSeal _ flips _ => tenderBits flips

end Sys2Proof
end

