-- ==== Sys2Proof/Tests/Slice0.lean ====
section
/-! SUPPORT. Tests. `hyps_<Obligation>` shows, clause by clause in the obligation's order, operands and a state that meet all hypotheses of a clause
together; `test_wf_<check>` shows that WellFormed refuses an ill-formed term; `test_<command>_<what>` runs one command on a small state, its expected
result taken from the spec. -/

namespace Sys2Proof.Tests

open Sys2Proof Sys2Proof.Machine

set_option linter.unusedVariables false
set_option maxRecDepth 100000
set_option Elab.async false

/-! ### Helpers -/

/-- A state with register fields set: field, unit, index, value. -/
def put (s : State) (l : List (Fld × Nat × Nat × Nat)) : State := l.foldl (fun t x => t.setFld x.1 x.2.1 x.2.2.1 x.2.2.2) s

/-- A vector instruction is ready on a coach with no operation in hand. -/
theorem vecReady_of {k op : Nat} {md : NumMode} {s : State}
    (h : (s.issuing k = true ∧ opOf (s.atPc k) = op ∧ badField (s.atPc k) = false ∧ s.fld COA_PC_PC k < 1023) ∧ (s.coach k).flight = [] ∧
      ((s.coach k).ops = [] ∧ md = s.numMode k) ∧ isLive (s.loopSt k) (s.atPc k) = true) : VecReady k op md s :=
  ⟨h.1, h.2.1, .inl h.2.2.1, h.2.2.2⟩

/-- An array or bank instruction is ready on a coach with no operation in hand. -/
theorem bankReady_of {k op : Nat} {md : NumMode} {s : State}
    (h : (s.issuing k = true ∧ opOf (s.atPc k) = op ∧ badField (s.atPc k) = false ∧ s.fld COA_PC_PC k < 1023) ∧ (s.coach k).flight = [] ∧
      ((s.coach k).ops = [] ∧ md = s.numMode k) ∧ ∀ o ∈ (s.coach k).ops, o.failed = false) : BankReady k op md s :=
  ⟨h.1, h.2.1, .inl h.2.2.1, h.2.2.2⟩

/-- An output fits where it names no stream, or the stream's half has room. -/
theorem outFits_of {k : Nat} {s : State} {w n : Nat}
    (h : (match dstStream w with | some st => decide ((s.strm k st).prod + n ≤ s.halfRoom k st) | none => true) = true) : OutFits k s w n := by
  intro st hst
  simpa [hst] using h

/-- Whether an access meets a carriage that does not answer, as a decidable question. -/
theorem asleep_iff {s : State} {off : BitVec 30} : carAsleep s off ↔
    (match spotCar off.toNat with | some c => decide (s.carState c = 2 ∨ s.carState c = 3 ∨ s.carState c = 4) | none => false) = true := by
  unfold carAsleep
  cases h : spotCar off.toNat <;> simp

/-- A result kept to a bound is no NaN, whatever the free value is. -/
theorem fpRes_kept (n : Int) (u : Bool) (y : Int) (c : Val) : fpRes n u y c ≠ .val .nan := by
  intro h
  unfold fpRes at h
  dsimp only at h
  split at h
  · rename_i hc
    split at h
    · cases h
    · injection h with h
      subst h
      simp [Val.isFin] at hc
  · cases h

/-- VTANH of a finite operand gives no NaN. -/
theorem tanh_kept : specialFn 4 0x3F800000 (.fin false 1 0) ≠ .val .nan := fpRes_kept 3 true (fpUnit (signedFp false (fpTanh 1 0))) _

/-- What every listed value has, and the default, is had wherever one looks. -/
theorem mget_has {α : Type} {p : α → Prop} {d : α} (hd : p d) : ∀ {m : SMap α}, (∀ e ∈ m, p e.2) → ∀ k, p (mget d m k)
  | [], _, _ => hd
  | e :: m, h, k => by
    unfold mget
    split
    · exact h e (by simp)
    · exact mget_has hd (fun x hx => h x (by simp [hx])) k

/-- The queues of every context are in canonical form when those of the listed contexts are. -/
theorem queues_wf {s : State} (h : ∀ e ∈ s.ctxs, mwf {} e.2.queues = true) (n : Nat) : mwf {} (s.ctx n).queues = true :=
  mget_has (p := fun (x : CtxS) => mwf {} x.queues = true) rfl h n

/-- No bay has a request open when none of the listed ones has. -/
theorem requests_none {s : State} (h : ∀ e ∈ s.bays, e.2.reqList = []) (b : Nat) : (s.bay b).reqList = [] :=
  mget_has (p := fun (x : BayS) => x.reqList = []) rfl h b

/-- What an optional value has, if there is one. -/
theorem forall_some {α : Type} {x : Option α} {p : α → Prop} (h : ∀ u ∈ x, p u) : ∀ u, x = some u → p u := fun u hu => h u hu

/-- instruction word from four 32-bit words -/
def iw (a b c d : Nat) : Nat := a + b * 2 ^ 32 + c * 2 ^ 64 + d * 2 ^ 96
/-- Coach `k` in RUN with word `w` at index `pc`, bound to context 7, and more fields. -/
def coach (k pc w : Nat) (l : List (Fld × Nat × Nat × Nat) := []) : State :=
  put { State.reset with seqMem := [(k * 1024 + pc, w)] } ([(COA_STATE_STATE, k, 0, 2), (COA_PC_PC, k, 0, pc), (COA_ROLE_BOUND, k, 0, 1), (COA_ROLE_CONTEXT, k, 0, 7)] ++ l)
/-- Every carriage in RUN. -/
def running : State := (((State.reset.setCarState 0 0).setCarState 1 0).setCarState 2 0).setCarState 3 0
/-- The next state of an outcome. -/
def nx (r : Host.Outcome State Fault Refusal) : State := match r with | .next t => t | _ => State.reset
/-- A page-table entry's eight bytes at an address of HBM. -/
def entry8 (m : List Host.Cell) (a v : Nat) : List Host.Cell := memWrite m a (leBytes 8 v)
/-- HBM with tables of a context: the root at 0x10000; the first three 2 MiB pages lead to HBM at 0x200000, to bay 1 at 0, to host memory of port 2 at 0x400000. -/
def tables : HbmMem := { bytes := entry8 (entry8 (entry8 (entry8 (entry8 [] 0x10000 0x20001) 0x20000 0x30001) 0x30000 0x20000F) 0x30008 0x5F) 0x30010 0x4000AF }
/-- Context `n` in a state, its tables in HBM. -/
def withCtx (s : State) (n : Nat) (f : CtxS → CtxS := id) : State :=
  { s with hbm := tables, ctxs := mset {} s.ctxs n (f { state := 1, root := 0x10000, w0 := { target := 0, unit := 0, base := 0, size := 2 ^ 39 }, w1 := { target := 1, unit := 1, base := 0, size := 2 ^ 42 }, part := 1 }) }
/-- Word 2 of a route of two hops, east and onto the unit port: RRSE 5, EPOCH 3. -/
def rw2 : BitVec 32 := BitVec.ofNat 32 (2 + 5 * 2 ^ 11 + 3 * 2 ^ 19)
/-- A valid entry of a unit, frozen or not. -/
def sheetS (u e : Nat) (f : Nat) (s : State := running) : State := (((s.setSheetWord u e 0 1).setSheetWord u e 1 0).setSheetWord u e 2 rw2.toNat).setSheetWord u e 3 (1 + 2 ^ 31 + f * 2 ^ 30)
/-- The 64 bytes of an admin command: opcode, context, TAG and further fields (offset, bytes, value). -/
def cmdL (opc ctx tag : Nat) (l : List (Nat × Nat × Nat) := []) : List Nat :=
  l.foldl (fun b x => b.take x.1 ++ leBytes x.2.1 x.2.2 ++ b.drop (x.1 + x.2.1)) ([opc, 0, 0, 0] ++ leBytes 4 ctx ++ leBytes 8 tag ++ List.replicate 48 0)
def bytesB (l : List Nat) : List Byte := l.map (BitVec.ofNat 8)
/-- Port 0's admin rings enabled, one command posted, context 7 in a state. -/
def admReadyS (cst : Nat) (s : State := running) : State :=
  let t := withCtx { (s.setFld QUE_ADMCFG_EN 0 0 1) with adm := [(0, { tail := 1 })] } 7 (fun x => { x with state := cst, part := 0 })
  if cst == 0 then { t with ctxs := [] } else t

namespace W01

/-- Commands that wait. -/
def waiting (s : State) : State := { s with pending := [.fuseLock, .tapReset] }
/-- A state with bytes in a coach store, in HBM and on a medium, and the eFuses locked. -/
def stored : State := { State.reset with store := [(3, 4)], hbm := { bytes := [(5, 6), (9, 1)] }, media := [(0, 255)], fuses := { image := 7, locked := true } }

/-- StepRunsFrontCommand: states and operands that meet the hypotheses. -/
theorem hyps_StepRunsFrontCommand :
    (∃ (c : Instr) (r : List Instr) (s : State), s.pending = c :: r) :=
  ⟨Instr.fuseLock, [.tapReset], (waiting stored), by decide +kernel⟩

/-- IdleStepOnlyCountsTime: states and operands that meet the hypotheses. -/
theorem hyps_IdleStepOnlyCountsTime :
    (∃ (s : State), s.pending = []) :=
  ⟨stored, by decide +kernel⟩

/-- StepKeepsMemoriesCanonical: states and operands that meet the hypotheses. -/
theorem hyps_StepKeepsMemoriesCanonical :
    (∃ (s t : State), s.memoriesWf ∧ step s = .next t) :=
  ⟨(waiting stored), (nx (step (waiting stored))), by unfold State.memoriesWf; decide +kernel, by rfl⟩

/-- LockedFusesNeverChange: states and operands that meet the hypotheses. -/
theorem hyps_LockedFusesNeverChange :
    (∃ (s t : State), step s = .next t ∧ s.fuses.locked = true) ∧
    (∃ (s : State), Hits DEV_FUSE_LOCK 0 0 s) :=
  ⟨⟨(waiting stored), (nx (step (waiting stored))), by rfl, by decide +kernel⟩,
    ⟨(waiting stored), by unfold Hits; decide +kernel⟩⟩

end W01

namespace W02

def held : State := put State.reset [(DEV_STRAY_VALID, 0, 0, 1), (DEV_STRAY_REASON, 0, 0, 2), (DEV_STRAY_CNT_COUNT, 0, 0, 0xFFFF)]
def nap1 : State := put (running.setCarState 1 2) [(DEV_STRAY_CNT_COUNT, 0, 0, 3)]
def cyc : State := put State.reset [(DEV_LSCYC_CYC, 0, 0, 0x123456789ABCDEF0)]
/-- Lockstep runs and a coach is at work: an event from outside waits. -/
def lockHeld : State := put running [(DEV_LSSTAT_STATE, 0, 0, 2), (DEV_LSCTL_SLOT, 0, 0, 8), (DEV_LSCYC_CYC, 0, 0, 300)]

/-- EventsFromOutsideWaitAndSilentRegistersStray: states and operands that meet the hypotheses, part 1. -/
theorem hyps_EventsFromOutsideWaitAndSilentRegistersStray_1 :
    (∃ (i : Instr) (f : Fld) (u idx : Nat) (hi : Bool) (s : State), fieldWritten i = some (f, u, idx, hi) ∧ s.answersAt (f.bar0 u idx + 4 * b2n hi) = false) ∧
    (∃ (i : Instr) (f : Fld) (u idx : Nat) (hi : Bool) (s : State), fieldWritten i = some (f, u, idx, hi) ∧ s.answersAt (f.bar0 u idx + 4 * b2n hi) = true ∧ s.withheld = true) ∧
    (∃ (i : Instr) (rank : Nat) (s : State), eventRank i = some rank ∧ s.withheld = true) ∧
    (∃ (src : FaultSrc) (s : State), s.withheld = true) :=
  ⟨⟨(.clearSattot 30), NUM_CTRCLR_SATTOT, 30, 0, false, nap1, by decide +kernel⟩,
    ⟨(.clearSattot 30), NUM_CTRCLR_SATTOT, 30, 0, false, lockHeld, by decide +kernel⟩,
    ⟨(.sqtail (.pf 2 28768) 0 0), 9, lockHeld, by decide +kernel⟩,
    ⟨(.coachErr 30 5), lockHeld, by decide +kernel⟩⟩

/-- EventsFromOutsideWaitAndSilentRegistersStray: states and operands that meet the hypotheses, part 2. -/
theorem hyps_EventsFromOutsideWaitAndSilentRegistersStray_2 :
    (∃ (s : State), s.withheld = true) :=
  ⟨lockHeld, by decide +kernel⟩

/-- StrayAccessesAreCountedAndRecorded: states and operands that meet the hypotheses. -/
theorem hyps_StrayAccessesAreCountedAndRecorded :
    (∃ (off : BitVec 30) (bytes : Nat) (write : Bool) (s : State), (off.toNat % 4 ≠ 0 ∨ bytes ≠ 4)) ∧
    (∃ (off : BitVec 30) (write : Bool) (s : State), ¬ carAsleep s off ∧ off.toNat % 4 = 0 ∧ bar0Spot off.toNat = .reserved) ∧
    (∃ (off : BitVec 30) (write : Bool) (s : State), carAsleep s off ∧ off.toNat % 4 = 0) :=
  ⟨⟨0x15, 4, true, State.reset, by decide +kernel⟩,
    ⟨0x00FFFFFC, false, State.reset, fun h => absurd (asleep_iff.1 h) (by decide +kernel), by decide +kernel⟩,
    ⟨0x14000000, false, nap1, asleep_iff.2 (by decide +kernel), by decide +kernel⟩⟩

/-- RegisterWritesAndReadsByAccessCode: states and operands that meet the hypotheses. -/
theorem hyps_RegisterWritesAndReadsByAccessCode :
    (∃ (k : Coach) (v : BitVec 32) (s : State), s.carState (carOf k) = 0 ∧ s.pwr.s3 = false ∧ s.withheld = false) ∧
    (∃ (k : Coach) (v : BitVec 32) (s : State), s.carState (carOf k) = 0 ∧ s.pwr.s3 = false ∧ s.withheld = false) ∧
    (∃ (off : BitVec 30) (write : Bool) (s : State), ¬ carAsleep s off ∧ off.toNat % 4 = 0 ∧ bar0Spot off.toNat ≠ .reserved ∧ s.slots off.toNat = []) :=
  ⟨⟨95, 0xFFFFFFF5, (put running [(NUMCTL_FORERUN, 95, 0, 1), (NUMCTL_FORERUN, 94, 0, 1)]), by decide +kernel⟩,
    ⟨24, 5, (put running [(NUMSTAT_FLUSHED, 24, 0, 1), (NUMSTAT_SATURATED, 24, 0, 1), (NUMSTAT_NANBLOCK, 24, 0, 1)]), by decide +kernel⟩,
    ⟨0x00000FFC, false, State.reset, fun h => absurd (asleep_iff.1 h) (by decide +kernel), by decide +kernel⟩⟩

/-- RegisterPairsReadAndWriteWhole: states and operands that meet the hypotheses. -/
theorem hyps_RegisterPairsReadAndWriteWhole :
    (∃ (s : State), s.pwr.s3 = false) ∧
    (∃ (s : State), s.pwr.s3 = false ∧ s.latches = []) ∧
    (∃ (lo hi : BitVec 32) (s : State), s.pwr.s3 = false ∧ s.withheld = false) :=
  ⟨⟨cyc, by decide +kernel⟩,
    ⟨cyc, by decide +kernel⟩,
    ⟨0xFFFFFFFF, 0x12345678, State.reset, by decide +kernel⟩⟩

/-- RunningTotalsClear: states and operands that meet the hypotheses. -/
theorem hyps_RunningTotalsClear :
    (∃ (k : Coach) (s : State), Hits NUM_CTRCLR_SATTOT k 0 s) ∧
    (∃ (k : Coach) (s : State), Hits NUM_CTRCLR_FLUSHTOT k 0 s) ∧
    (∃ (k : Coach) (s : State), Hits NUM_CTRCLR_NANBLKTOT k 0 s) :=
  ⟨⟨95, (put running [(NUM_SATTOT_SATTOT, 95, 0, 7), (NUM_SATTOT_SATTOT, 94, 0, 7)]), by unfold Hits; decide +kernel⟩,
    ⟨95, (put running [(NUM_FLUSHTOT_FLUSHTOT, 95, 0, 7)]), by unfold Hits; decide +kernel⟩,
    ⟨0, (put running [(NUM_NANBLKTOT_NANBLKTOT, 0, 0, 7)]), by unfold Hits; decide +kernel⟩⟩

end W02

namespace W03

def op1 : Opn := { seq := 4, mode := { nanTrap := true }, sat := 3, sawNan := true, tiles := [] }
def withOp (s : State) (k : Nat) : State := s.updCoach k (fun c => { c with ops := [op1] })
def w8 := iw (8 + 2 ^ 8 + 5 * 2 ^ 21) 9 0 0
def wait8 : State := nx (execSync 30 (coach 30 1022 w8 [(COA_SYNC_COUNT, 30, 5, 8)]))
def infOf (s : State) (k : Nat) : Inf := ((s.coach k).ctrl).getD { id := 0, w := 0, pc := 0 }
def w7 := iw (7 + 7 * 2 ^ 21) 0 0 0
def swap (l : Nat) : State := (coach 30 4 w7 [(STR_STATE_CONS, 30, 7, 1)]).updStrm 30 7 (fun _ => { len := 100, recv := 10, cons := 10, share := 32, shareOff := 64, landed := l, reqd := 32 })
def closedOp : Opn := { op1 with closed := true, closerDone := true, statSel := 2 }
def ended : State := (put State.reset [(COA_SP_ADDR, 9, 2, 0x100), (COA_STATE_STATE, 9, 0, 2)]).updCoach 9 (fun c => { c with ops := [closedOp, { seq := 5 }] })

/-- ControlInstructionsCompleteAtIssue: states and operands that meet the hypotheses, part 1. -/
theorem hyps_ControlInstructionsCompleteAtIssue_1 :
    (∃ (k : Coach) (s : State), IssueReady k 0 s ∧ ((iFence (s.atPc k) = false ∨ (s.coach k).flight = []))) ∧
    (∃ (k : Coach) (s : State), IssueReady k 9 s ∧ ((iFence (s.atPc k) = false ∨ (s.coach k).flight = []))) ∧
    (∃ (k : Coach) (s : State), IssueReady k 0xA s ∧ ((iFence (s.atPc k) = false ∨ (s.coach k).flight = []))) ∧
    (∃ (k : Coach) (s : State), IssueReady k 0xB s ∧ ((iFence (s.atPc k) = false ∨ (s.coach k).flight = []))) :=
  ⟨⟨95, (withOp (coach 95 1022 (iw (2 ^ 8 + 3 * 2 ^ 9 + 2 ^ 11) 0 0 0) [(COA_SEQ_SEQ, 95, 0, 4)]) 95), by unfold IssueReady; decide +kernel⟩,
    ⟨23, (coach 23 5 (iw 9 0xD 0 0) [(NUMCTL_FORERUN, 23, 0, 1)]), by unfold IssueReady; decide +kernel⟩,
    ⟨24, (withOp (coach 24 5 (iw (0xA + 2 ^ 8 + 3 * 2 ^ 21) 0x7FFFF0 0 0)) 24), by unfold IssueReady; decide +kernel⟩,
    ⟨24, (coach 24 5 (iw (0xB + 3 * 2 ^ 21) 0xFFFFFFFF 0 0)), by unfold IssueReady; decide +kernel⟩⟩

/-- ControlInstructionsCompleteAtIssue: states and operands that meet the hypotheses, part 2. -/
theorem hyps_ControlInstructionsCompleteAtIssue_2 :
    (∃ (k : Coach) (s : State) (v : Nat), IssueReady k 0xC s ∧ ((iFence (s.atPc k) = false ∨ (s.coach k).flight = [])) ∧ v = s.fld COA_LOOP_COUNT k (fieldOf (s.atPc k) 0 21 2) ∧ v < 2 ^ 32) :=
  ⟨24, (coach 24 5 (iw (0xC + 3 * 2 ^ 21) 1023 0 0) [(COA_LOOP_COUNT, 24, 3, 2)]), 2, by unfold IssueReady; decide +kernel⟩

/-- SequencerFaultsStopIssue: states and operands that meet the hypotheses. -/
theorem hyps_SequencerFaultsStopIssue :
    (∃ (k : Coach) (s : State), s.issuing k = true ∧ opOf (s.atPc k) ∉ knownOps) ∧
    (∃ (k : Coach) (c : Coach → Instr) (op : Nat) (s : State), (∀ u, unitOf op = some u → ((s.coach k).flight.filter (fun i => unitOf (opOf i.w) == some u && !i.started)).length < queueDepth u) ∧ (c, op) ∈ [(Instr.nop, 0), (.pass, 3), (.vadd, 0x48), (.endWorkOrder, 0xF)] ∧ s.issuing k = true ∧ opOf (s.atPc k) = op ∧ badField (s.atPc k) = true) ∧
    (∃ (k : Coach) (s : State), s.issuing k = true ∧ opOf (s.atPc k) = 0 ∧ badField (s.atPc k) = false ∧ s.fld COA_PC_PC k = 1023 ∧ iFence (s.atPc k) = false ∧ iClose (s.atPc k) = false) :=
  ⟨⟨50, (coach 50 9 0xFE), by decide +kernel⟩,
    ⟨50, Instr.nop, 0, (coach 50 9 (2 ^ 31)), forall_some (by decide +kernel), by decide +kernel⟩,
    ⟨50, (coach 50 1023 0), by decide +kernel⟩⟩

/-- SwapbExchangesTheHalves: states and operands that meet the hypotheses. -/
theorem hyps_SwapbExchangesTheHalves :
    (∃ (k : Coach) (s : State) (n : Nat), IssueReady k 7 s ∧ n = fieldOf (s.atPc k) 0 21 3 ∧ ((iFence (s.atPc k) = false ∨ (s.coach k).flight = [])) ∧ (s.coach k).flight.any (fun i => usesHalf i n) = false ∧ (s.strm k n).landed = (s.strm k n).share) ∧
    (∃ (k : Coach) (s : State) (n : Nat), IssueReady k 7 s ∧ n = fieldOf (s.atPc k) 0 21 3 ∧ (((s.coach k).flight.any (fun i => usesHalf i n) = true ∨ (s.strm k n).landed ≠ (s.strm k n).share))) ∧
    (∃ (k : Coach) (i : Inf) (s : State) (n : Nat), (s.coach k).ctrl = some i ∧ s.coachStill = false ∧ opOf i.w = 7 ∧ n = fieldOf i.w 0 21 3 ∧ i.pc < 1023 ∧ ((iFence i.w = false ∨ (s.coach k).flight = [])) ∧ (s.coach k).flight.any (fun j => usesHalf j n) = false ∧ (s.strm k n).landed = (s.strm k n).share) :=
  ⟨⟨30, (swap 32), 7, by unfold IssueReady; decide +kernel⟩,
    ⟨30, (swap 31), 7, by unfold IssueReady; decide +kernel⟩,
    ⟨30, (infOf (nx (execSwapb 30 (swap 31))) 30), ((nx (execSwapb 30 (swap 31))).updStrm 30 7 (fun x => { x with landed := 32 })), 7, by decide +kernel⟩⟩

/-- OperationsEndWithTheirRecord: states and operands that meet the hypotheses. -/
theorem hyps_OperationsEndWithTheirRecord :
    (∃ (k : Coach) (s : State) (o : Opn) (rest : List Opn) (a n : Nat), (s.coach k).ops = o :: rest ∧ s.coachStill = false ∧ opReady (s.coach k) o = true ∧ o.statSel < 4 ∧ a = s.fld COA_SP_ADDR k o.statSel ∧ n = (statusRecord o (opTraps o)).length ∧ a + n ≤ storeSize) ∧
    (∃ (k : Coach) (s : State), s.issuing k = true ∧ opOf (s.atPc k) = 0xF ∧ badField (s.atPc k) = false ∧ (s.coach k).flight = [] ∧ (s.coach k).ops = []) ∧
    (∃ (k : Coach) (s : State), s.issuing k = true ∧ opOf (s.atPc k) = 0xF ∧ badField (s.atPc k) = false ∧ (((s.coach k).flight ≠ [] ∨ (s.coach k).ops ≠ []))) :=
  ⟨⟨9, ended, closedOp, [{ seq := 5 }], 0x100, (statusRecord closedOp true).length, by decide +kernel⟩,
    ⟨9, (coach 9 1023 0xF), by decide +kernel⟩,
    ⟨9, ((withOp (coach 9 1023 0xF) 9).updCoach 9 (fun c => { c with flight := [{ id := 1, w := 0x48, pc := 3 }] })), by decide +kernel⟩⟩

/-- SyncTakesItsCount: states and operands that meet the hypotheses. -/
theorem hyps_SyncTakesItsCount :
    (∃ (k : Coach) (s : State), IssueReady k 8 s ∧ ((iFence (s.atPc k) = false ∨ (s.coach k).flight = [])) ∧ fieldOf (s.atPc k) 1 0 16 ≤ s.fld COA_SYNC_COUNT k (fieldOf (s.atPc k) 0 21 4) ∧ s.fld COA_SYNC_COUNT k (fieldOf (s.atPc k) 0 21 4) < 2 ^ 32) ∧
    (∃ (k : Coach) (s : State), IssueReady k 8 s ∧ s.fld COA_SYNC_COUNT k (fieldOf (s.atPc k) 0 21 4) < fieldOf (s.atPc k) 1 0 16) ∧
    (∃ (k : Coach) (i : Inf) (s : State), (s.coach k).ctrl = some i ∧ opOf i.w = 8 ∧ s.coachStill = false ∧ i.pc < 1023 ∧ ((iFence i.w = false ∨ (s.coach k).flight = [])) ∧ fieldOf i.w 1 0 16 ≤ s.fld COA_SYNC_COUNT k (fieldOf i.w 0 21 4) ∧ s.fld COA_SYNC_COUNT k (fieldOf i.w 0 21 4) < 2 ^ 32) :=
  ⟨⟨30, (coach 30 1022 w8 [(COA_SYNC_COUNT, 30, 5, 9)]), by unfold IssueReady; decide +kernel⟩,
    ⟨30, (coach 30 1022 w8 [(COA_SYNC_COUNT, 30, 5, 8)]), by unfold IssueReady; decide +kernel⟩,
    ⟨30, (infOf wait8 30), (wait8.setFld COA_SYNC_COUNT 30 5 9), by decide +kernel⟩⟩

end W03

namespace W04

def f32s : List Nat := [0, 0x80000000, 0x3F800000, 0xBF800000, 0x7F800000, 0xFF800000, 0x7FC00000, 1, 0x80000001, 0x007FFFFF, 0x00800000, 0x7F7FFFFF, 0x40490FDB, 0x3DCCCCCD, 0xC2F6E979]
def codes (seed n : Nat) : List Nat := (List.range n).map (fun i => if i < 60 then f32s.getD ((i * (seed + 1) + i / 15 * seed) % 15) 0 else (i * 2654435761 + seed * 40503 + i * i * 97) % 2 ^ 32)
def vecAt (k pc w : Nat) (l : List (Fld × Nat × Nat × Nat)) (regs : List (Nat × List Nat)) : State :=
  let s := coach k pc w l
  { s with vreg := regs.foldl (fun m r => mblock 0 m ((k * 64 + r.1) * 512) r.2) [] }
def regs6 : List (Nat × List Nat) := [(1, codes 1 512), (2, codes 2 512), (3, codes 3 512), (4, codes 4 512), (5, codes 5 512), (6, codes 6 512), (7, codes 7 512), (63, codes 8 512)]
/-- vector word: opcode, P, VD, VA, VB, VC -/
def vw (op p vd va vb vc : Nat) (w1 w2 w3 : Nat) : Nat := iw (op + p * 2 ^ 21 + vd * 2 ^ 22) (va + vb * 2 ^ 8 + vc * 2 ^ 16 + w1) w2 w3
def v3 (op : Nat) : State := vecAt 25 7 (vw op 0 32 1 2 3 0 0 0) [(VEC_LOOP_RRB, 25, 0, 31)] regs6
def v3p (op : Nat) : State := vecAt 25 7 (vw op 1 6 2 4 4 0 0 0) [(NUMCTL_DNZ, 25, 0, 1), (NUMCTL_SATFINITE, 25, 0, 1)] regs6
def v2 (op : Nat) : State := vecAt 25 7 (vw op 0 32 1 2 0 0 0 0) [(VEC_LOOP_RRB, 25, 0, 31)] regs6
def v2p (op : Nat) : State := vecAt 25 7 (vw op 1 6 2 4 0 0 0 0) [(NUMCTL_DNZ, 25, 0, 1), (NUMCTL_SATFINITE, 25, 0, 1)] regs6
def v1 (op : Nat) : State := vecAt 25 7 (vw op 0 32 1 0 0 0 0 0) [(VEC_LOOP_RRB, 25, 0, 31)] regs6
def v1p (op : Nat) : State := vecAt 25 7 (vw op 1 6 2 0 0 0 0 0) [] regs6
def m0 : NumMode := {}
def m1 : NumMode := { dnz := true, satFinite := true }
def sac : State := let s := vecAt 25 7 (iw (0x62 + 33 * 2 ^ 22) (5 * 2 ^ 22 + 7 * 2 ^ 28 + 2 ^ 25) 0 0) [] regs6
  { s with sacc := mblock 0 [] ((25 * 8 + 5) * 512) ((codes 9 512).map (fun c => c * 2 ^ 24 + c / 2 ^ 8)) }
def stored (s : State) (k a n seed : Nat) : State := s.storeWrite k a ((codes seed n).map (fun c => c / 7 % 256))
def circ : State := put (vecAt 25 7 (iw (0x40 + 6 * 2 ^ 16 + 32 * 2 ^ 22) 0 0 (1 + 2 * 2 + 64 * 2 ^ 8)) [] regs6)
  ((List.range 16).map (fun g => [(VEC_CBBASE_BASE, 25, 8 * g + 2, 16 + g * 64), (VEC_CBLEN_LEN, 25, 8 * g + 2, 256), (VEC_CBPTR_PTR, 25, 8 * g + 2, 224)])).flatten
def smw : Nat := iw 0x60 (1 + 2 * 2 ^ 8 + 5 * 2 ^ 22) 0 0
def acc5 (s : State) : State := { s with sacc := mblock 0 [] ((25 * 8 + 5) * 512) ((List.range 512).map (fun i => if i % 3 = 0 then 2 ^ 55 - 1 else if i % 3 = 1 then 2 ^ 55 else i)) }
def dead (w : Nat) : State := vecAt 25 7 (w + 2 * 2 ^ 29) [(VEC_LOOP_ON, 25, 0, 1), (VEC_LOOP_SM1, 25, 0, 2), (VEC_TRIPN_N, 25, 0, 4), (VEC_TRIP_TRIP, 25, 0, 1)] regs6
def failedOp : State := (v2 0x48).updCoach 25 (fun c => { c with ops := [{ seq := 1, failed := true }] })
def inFlight : Inf → Inf → State := fun a b => (coach 25 3 0).updCoach 25 (fun c => { c with flight := [a, b] })
def i1 : Inf := { id := 2, w := vw 0x50 0 32 1 2 0 0 0 0, pc := 0, started := true }
def i2 : Inf := { id := 3, w := vw 0x48 0 33 3 4 0 0 0 0, pc := 1, started := true }

/-- VectorArithmeticByLane: states and operands that meet the hypotheses, part 1. -/
theorem hyps_VectorArithmeticByLane_1 :
    (∃ (k : Coach) (md : NumMode) (s : State), VecReady k 0x48 md s) ∧
    (∃ (k : Coach) (md : NumMode) (s : State), VecReady k 0x49 md s) ∧
    (∃ (k : Coach) (md : NumMode) (s : State), VecReady k 0x4A md s) ∧
    (∃ (k : Coach) (md : NumMode) (s : State), VecReady k 0x4B md s) :=
  ⟨⟨25, m0, (v2 0x48), vecReady_of (by decide +kernel)⟩,
    ⟨25, m0, (v2 0x49), vecReady_of (by decide +kernel)⟩,
    ⟨25, m0, (v2 0x4A), vecReady_of (by decide +kernel)⟩,
    ⟨25, m0, (v3 0x4B), vecReady_of (by decide +kernel)⟩⟩

/-- VectorArithmeticByLane: states and operands that meet the hypotheses, part 2. -/
theorem hyps_VectorArithmeticByLane_2 :
    (∃ (k : Coach) (md : NumMode) (s : State), VecReady k 0x4C md s) ∧
    (∃ (k : Coach) (md : NumMode) (s : State), VecReady k 0x4D md s) ∧
    (∃ (k : Coach) (md : NumMode) (s : State), VecReady k 0x4E md s) ∧
    (∃ (k : Coach) (md : NumMode) (s : State), VecReady k 0x4F md s) :=
  ⟨⟨25, m0, (v3 0x4C), vecReady_of (by decide +kernel)⟩,
    ⟨25, m0, (v2 0x4D), vecReady_of (by decide +kernel)⟩,
    ⟨25, m0, (v2 0x4E), vecReady_of (by decide +kernel)⟩,
    ⟨25, m0, (v1 0x4F), vecReady_of (by decide +kernel)⟩⟩

/-- VectorArithmeticByLane: states and operands that meet the hypotheses, part 3. -/
theorem hyps_VectorArithmeticByLane_3 :
    (∃ (k : Coach) (md : NumMode) (s : State), VecReady k 0x42 md s) ∧
    (∃ (k : Coach) (md : NumMode) (s : State), VecReady k 0x43 md s) ∧
    (∃ (c : Coach → Instr) (op : Nat) (k : Coach) (o : Opn) (s : State), (c, op) ∈ [(Instr.vadd, 0x48), (.vsub, 0x49), (.vmul, 0x4A), (.vfma, 0x4B), (.vfms, 0x4C), (.vmin, 0x4D), (.vmax, 0x4E), (.vabs, 0x4F)] ∧ IssueReady k op s ∧ (s.coach k).flight = [] ∧ (s.coach k).ops = [o] ∧ o.closed = false ∧ o.failed = true ∧ isLive (s.loopSt k) (s.atPc k) = true) :=
  ⟨⟨25, m0, (v1 0x42), vecReady_of (by decide +kernel)⟩,
    ⟨25, m0, (vecAt 25 7 (iw (0x43 + 63 * 2 ^ 22) 0 0xDEADBEEF 0) [] regs6), vecReady_of (by decide +kernel)⟩,
    ⟨Instr.vadd, 0x48, 25, { seq := 1, failed := true }, failedOp, by unfold IssueReady; decide +kernel⟩⟩

/-- VectorSpecialFunctionsByLane: states and operands that meet the hypotheses, part 1. -/
theorem hyps_VectorSpecialFunctionsByLane_1 :
    (∃ (k : Coach) (md : NumMode) (s : State), VecReady k 0x50 md s) ∧
    (∃ (k : Coach) (md : NumMode) (s : State), VecReady k 0x51 md s) ∧
    (∃ (k : Coach) (md : NumMode) (s : State), VecReady k 0x52 md s) ∧
    (∃ (k : Coach) (md : NumMode) (s : State), VecReady k 0x53 md s) :=
  ⟨⟨25, m0, (v1 0x50), vecReady_of (by decide +kernel)⟩,
    ⟨25, m0, (v1 0x51), vecReady_of (by decide +kernel)⟩,
    ⟨25, m0, (v1 0x52), vecReady_of (by decide +kernel)⟩,
    ⟨25, m0, (v1 0x53), vecReady_of (by decide +kernel)⟩⟩

/-- VectorSpecialFunctionsByLane: states and operands that meet the hypotheses, part 2. -/
theorem hyps_VectorSpecialFunctionsByLane_2 :
    (∃ (k : Coach) (md : NumMode) (s : State), VecReady k 0x54 md s) ∧
    (∃ (k : Coach) (md : NumMode) (s : State), VecReady k 0x55 md s) ∧
    (∃ (k : Coach) (md : NumMode) (s : State), VecReady k 0x56 md s) ∧
    (∃ (fn code : Nat), fn < 7) :=
  ⟨⟨25, m0, (v1 0x54), vecReady_of (by decide +kernel)⟩,
    ⟨25, m0, (v1 0x55), vecReady_of (by decide +kernel)⟩,
    ⟨25, m0, (v1 0x56), vecReady_of (by decide +kernel)⟩,
    ⟨6, 0x7FC00000, by decide +kernel⟩⟩

/-- VectorSpecialFunctionsByLane: states and operands that meet the hypotheses, part 3. -/
theorem hyps_VectorSpecialFunctionsByLane_3 :
    (∃ (code m : Nat) (e : Int), m ≠ 0) ∧
    (∃ (code m : Nat) (e : Int), m ≠ 0) ∧
    (∃ (code m : Nat) (e : Int) (neg : Bool), m ≠ 0 ∧ inTrigDomain m e = false) ∧
    (∃ (code : Nat) (neg : Bool) (m : Nat) (e : Int), m ≠ 0 ∧ rcpOver m e = true) :=
  ⟨⟨0xBF800000, 1, 0, by decide +kernel⟩,
    ⟨0xBF800000, 1, 0, by decide +kernel⟩,
    ⟨0x41800000, 1, 4, false, by decide +kernel⟩,
    ⟨0x00000003, false, 3, (-149), by decide +kernel⟩⟩

/-- VectorSpecialFunctionsByLane: states and operands that meet the hypotheses, part 4. -/
theorem hyps_VectorSpecialFunctionsByLane_4 :
    (∃ (code : Nat) (neg : Bool) (m : Nat) (e : Int), m ≠ 0 ∧ rcpOver m e = false) ∧
    (∃ (code : Nat) (neg : Bool) (m : Nat) (e : Int), m ≠ 0) ∧
    (∃ (code : Nat) (neg : Bool) (m : Nat) (e : Int), m ≠ 0 ∧ floorVal neg m e ≥ 128) ∧
    (∃ (code : Nat) (neg : Bool) (m : Nat) (e : Int), m ≠ 0 ∧ -200 ≤ floorVal neg m e ∧ floorVal neg m e < 128) :=
  ⟨⟨0x40400000, false, 3, 0, by decide +kernel⟩,
    ⟨0x40400000, false, 3, 0, by decide +kernel⟩,
    ⟨0x43000000, false, 1, 7, by decide +kernel⟩,
    ⟨0x40400000, false, 3, (-1), by decide +kernel⟩⟩

/-- VectorSpecialFunctionsByLane: states and operands that meet the hypotheses, part 5. -/
theorem hyps_VectorSpecialFunctionsByLane_5 :
    (∃ (code : Nat) (neg : Bool) (m : Nat) (e : Int), m ≠ 0 ∧ ¬ (m = 2 ^ m.log2 ∧ lead m e = 0)) ∧
    (∃ (code : Nat) (neg : Bool) (m : Nat) (e : Int), m ≠ 0) ∧
    (∃ (code : Nat) (neg : Bool) (m : Nat) (e : Int), m ≠ 0 ∧ inTrigDomain m e = true) ∧
    (∃ (fn code : Nat) (neg : Bool) (m : Nat) (e : Int), specialFn fn code (.fin neg m e) ≠ .val .nan ∧ fn ∈ [4, 5, 6] ∧ m ≠ 0) :=
  ⟨⟨0x40400000, false, 3, 0, by decide +kernel⟩,
    ⟨0x40400000, false, 3, (-1), by decide +kernel⟩,
    ⟨0x40400000, true, 3, 0, by decide +kernel⟩,
    ⟨4, 0x3F800000, false, 1, 0, tanh_kept, by decide +kernel⟩⟩

/-- VectorConversionsAndReductions: states and operands that meet the hypotheses. -/
theorem hyps_VectorConversionsAndReductions :
    (∃ (k : Coach) (md : NumMode) (s : State), VecReady k 0x58 md s) ∧
    (∃ (k : Coach) (md : NumMode) (s : State), VecReady k 0x5C md s) ∧
    (∃ (isMax : Bool) (k : Coach) (md : NumMode) (s : State), VecReady k (if isMax then 0x5D else 0x5E) md s) ∧
    (∃ (k : Coach) (md : NumMode) (s : State), VecReady k 0x62 md s) :=
  ⟨⟨25, m0, (vecAt 25 7 (iw (0x58 + 32 * 2 ^ 22) (1 + 2 * 2 ^ 30 + 2 ^ 25) 0 0) [] regs6), vecReady_of (by decide +kernel)⟩,
    ⟨25, m0, (v1 0x5C), vecReady_of (by decide +kernel)⟩,
    ⟨true, 25, m0, (vecAt 25 7 (iw (0x5D + 4 * 2 ^ 22) (1 + 2 ^ 26 + 2 ^ 27) 0xFFFFFFF0 0) [] regs6), vecReady_of (by decide +kernel)⟩,
    ⟨25, m0, sac, vecReady_of (by decide +kernel)⟩⟩

/-- VectorLoadsAndStores: states and operands that meet the hypotheses. -/
theorem hyps_VectorLoadsAndStores :
    (∃ (k : Coach) (md : NumMode) (s : State), VecReady k 0x40 md s) ∧
    (∃ (k : Coach) (md : NumMode) (s : State), VecReady k 0x41 md s) ∧
    (∃ (k : Coach) (md : NumMode) (s : State) (f : Fmt) (sc : Bool) (ea sa : Nat), VecReady k 0x59 md s ∧ fselOf (iFmt (s.atPc k)) = some ⟨f, sc⟩ ∧ ea = fieldOf (s.atPc k) 2 0 23 ∧ sa = fieldOf (s.atPc k) 3 4 19 * 16 ∧ (ea + 64 * f.width ≤ sa ∨ sa + 16 ≤ ea)) ∧
    (∃ (k : Coach) (md : NumMode) (s : State) (ea sa : Nat), VecReady k 0x5A md s ∧ ea = fieldOf (s.atPc k) 2 0 23 ∧ sa = fieldOf (s.atPc k) 3 4 19 * 16 ∧ (ea + 3584 ≤ sa ∨ sa + 112 ≤ ea)) :=
  ⟨⟨25, m0, (stored (vecAt 25 7 (iw (0x40 + 6 * 2 ^ 16 + 32 * 2 ^ 22) 0 0x100 0) [] regs6) 25 0x100 2048 3), vecReady_of (by decide +kernel)⟩,
    ⟨25, m0, (vecAt 25 7 (iw (0x41 + 6 * 2 ^ 16) 1 0x100 0) [] regs6), vecReady_of (by decide +kernel)⟩,
    ⟨25, m0, (vecAt 25 7 (iw (0x59 + 17 * 2 ^ 16) 1 0x100 (0x80 * 16)) [] regs6), .s8a, true, 0x100, 0x800, vecReady_of (by decide +kernel), by decide +kernel⟩,
    ⟨25, m0, (vecAt 25 7 (iw (0x5A + 2 ^ 21) 2 0x100 (0x200 * 16)) [] regs6), 0x100, 0x2000, vecReady_of (by decide +kernel), by decide +kernel⟩⟩

/-- SignalModeAndLoops: states and operands that meet the hypotheses, part 1. -/
theorem hyps_SignalModeAndLoops_1 :
    (∃ (sub : Bool) (k : Coach) (md : NumMode) (s : State), VecReady k (if sub then 0x61 else 0x60) md s) ∧
    (∃ (k : Coach) (md : NumMode) (s : State), VecReady k 0x44 md s) ∧
    (∃ (k : Coach) (md : NumMode) (s : State), VecReady k 0x68 md s) ∧
    (∃ (k : Coach) (md : NumMode) (s : State), VecReady k 0x69 md s ∧ s.fld VEC_LOOP_SM1 k < 8 ∧ s.fld VEC_TRIPN_N k < 2 ^ 32 ∧ s.fld VEC_LOOP_RRB k < 32 ∧ s.fld VEC_TRIP_TRIP k < 2 ^ 32) :=
  ⟨⟨false, 25, m0, (acc5 (vecAt 25 7 smw [(VEC_SIGSTAT_AOVF, 25, 0, 4)] regs6)), vecReady_of (by decide +kernel)⟩,
    ⟨25, m0, (vecAt 25 7 (iw 0x44 (0xA5A5 + 3 * 2 ^ 16 + 33 * 2 ^ 19) 0x1000 (512 + 2 ^ 21)) [(VEC_CBPTR_PTR, 25, 11, 5)] []), vecReady_of (by decide +kernel)⟩,
    ⟨25, m0, (vecAt 25 7 (iw 0x68 7 0xFFFFFFFF 0) [(VEC_LOOP_RRB, 25, 0, 4)] []), vecReady_of (by decide +kernel)⟩,
    ⟨25, m0, (vecAt 25 7 0x69 [(VEC_LOOP_ON, 25, 0, 1), (VEC_LOOP_SM1, 25, 0, 1), (VEC_TRIPN_N, 25, 0, 4), (VEC_TRIP_TRIP, 25, 0, 4)] []), vecReady_of (by decide +kernel), by decide +kernel⟩⟩

/-- SignalModeAndLoops: states and operands that meet the hypotheses, part 2. -/
theorem hyps_SignalModeAndLoops_2 :
    (∃ (c : Coach → Instr) (op : Nat) (k : Coach) (s : State), (c, op) ∈ vecRows ∧ IssueReady k op s ∧ (s.coach k).flight = [] ∧ isLive (s.loopSt k) (s.atPc k) = false) ∧
    (∃ (k : Coach) (n : Nat) (s : State), (∀ i, (s.coach k).vectors[n]? = some i → mayOvertake i.w (((s.coach k).vectors.take n).map (·.w)) = false)) ∧
    (∃ (k : Coach) (n : Nat) (i : Inf) (s : State), s.coachStill = false ∧ (s.coach k).vectors[n]? = some i ∧ mayOvertake i.w (((s.coach k).vectors.take n).map (·.w)) = true ∧ (∀ o ∈ (s.coach k).ops, o.closed = true → o.closerId ≠ i.id)) :=
  ⟨⟨Instr.vadd, 0x48, 25, (dead (vw 0x48 0 32 1 2 0 0 0 0)), by unfold IssueReady; decide +kernel⟩,
    ⟨25, 1, (inFlight i2 i1), forall_some (by decide +kernel)⟩,
    ⟨25, 1, i2, (inFlight i1 i2), by decide +kernel⟩⟩

end W04

namespace W05

def mbytes (k a n seed : Nat) (s : State) : State := s.storeWrite k a ((List.range (n / 32)).map (fun i => (i * 37 + seed * 11 + i / 7) % 256))
/-- LOADW of an I8 tile, 3 rows of 128 at 0x1000 -/
def loadw (f : Nat) (x : Nat) : Nat := iw (1 + f * 2 ^ 16 + x) 0x1000 0x3000 (2 + 127 * 2 ^ 8)
def lwS (f x : Nat) : State := mbytes 25 0x3000 512 5 (mbytes 25 0x1000 1024 3 (coach 25 7 (loadw f x) [(ARR_WSTATE_ACTIVE, 25, 0, 1)]))
def lwT : State := nx (execLoadw 25 (lwS 3 0))
def fl (s : State) : Inf := (s.coach 25).flight.headD { id := 0, w := 0, pc := 0 }
/-- PASS of 2 rows on arrays 0 and 3 from 0x1000, segment of 40, ROW0 250, ZERO -/
def passW (x : Nat) : Nat := iw (3 + 3 * 2 ^ 16 + 9 * 2 ^ 12 + x) 0x1000 0x3000 (1 + 250 * 2 ^ 8 + 39 * 2 ^ 16)
def tile3 : Tile := { sel := 3, codes := (List.range 24).map (fun i => (i * 211, (i * 7 + 3) % 255 + 1)) }
def paS (x : Nat) : State := (mbytes 25 0x1000 1024 3 (coach 25 7 (passW x))).updCoach 25 (fun c => { c with set0 := tile3 })
def paT (x : Nat) : State := nx (execPass 25 (paS x))
def paU (x : Nat) : State := nx (execPassRowEnter 25 (nx (execPassRowEnter 25 (paT x))))
def gs (i : Inf) (a r c g : Nat) : Acc := (groupSum i a r c g).getD Acc.zero
def bankAt (s : State) (e : Nat) (a : Acc) : State := { s with bank := mset 0 s.bank (25 * 131072 + e) (shortTally a) }
def spilled : State := nx (execBankContribution 25 (.group 0 3 1 127 1) (put (bankAt (paU 0) (entryIx 3 251 127) { v := 2 ^ 500 }) [(ACC_SPILLSLOTS_SLOTS, 25, 0, 2), (ACC_SPILLBASE_BASE, 25, 0, 0x100)]))
def passEnd : State := (paU 0).updCoach 25 (fun c => { c with flight := c.flight.map (fun i => { i with nAdded := passTotal i.w }) })
def bk (e : Nat) (a : Acc) (s : State) : State := bankAt s e a
def region (s : State) : State := bk (entryIx 2 255 127) { v := -5 } (bk (entryIx 0 254 0) { v := 2 ^ 60 } (bk (entryIx 0 254 1) { v := 2 ^ 570 } (bk (entryIx 2 254 3) { v := 0, nan := true } (bk (entryIx 1 254 3) { v := 77 } s))))
/-- DRAIN of rows 254 and 255 of arrays 0 and 2 -/
def drainW (f x : Nat) : Nat := iw (4 + f * 2 ^ 16 + 5 * 2 ^ 12 + x) 0x2000 0 (1 + 254 * 2 ^ 8 + 3 * 2 ^ 16)
def drS (f x : Nat) : State := region (coach 25 7 (drainW f x))
def drBytes (f : Nat) (fm : Fmt) (x : Nat) : List Nat := ((regionOrder (drainW f x)).map (fun ma => packElems fm.width (((drS f x).drainRow 25 {} fm (iZoff (drainW f x)) ma.2 (iRow0 (drainW f x) + ma.1)).map (fun vc => vc.2.code)))).flatten
def strmOut (s : State) : State := (put s [(STR_BUF_BASE, 25, 6, 64), (STR_HALF_HALF, 25, 6, 2), (STR_STATE_CONS, 25, 6, 1), (STR_CFG_DIR, 25, 6, 1), (STR_STATE_STATE, 25, 6, 1)]).updStrm 25 6 (fun x => { x with prod := 64 })
def drTally (x : Nat) : List Nat := ((regionOrder (drainW 0 x)).map (fun ma => ((regionRow ma.2 (iRow0 (drainW 0 x) + ma.1)).map (fun e => tallyWords ((drS 0 x).entryAcc 25 e))).flatten)).flatten
/-- QUANT of the region -/
def quantW (x : Nat) : Nat := iw (5 + 17 * 2 ^ 16 + 5 * 2 ^ 12 + x) 0x2000 (0x8000 + 127 * 2 ^ 24) (1 + 254 * 2 ^ 8 + 3 * 2 ^ 16)
def quS (x : Nat) : State := region (coach 25 7 (quantW x))
def qRow (x : Nat) (ma : Nat × Nat) := (quS x).quantRow 25 {} .s8a (iZoff (quantW x)) (fieldOf (quantW x) 2 24 7 + 1) ma.2 (iRow0 (quantW x) + ma.1)
def qE (x : Nat) : List Nat := ((regionOrder (quantW x)).map (fun ma => packElems 8 (((qRow x ma).map (fun b => b.1.codes)).flatten))).flatten
def qS (x : Nat) : List Nat := ((regionOrder (quantW x)).map (fun ma => (qRow x ma).map (fun b => b.1.scale))).flatten
def qB (x : Nat) : List Nat := ((regionOrder (quantW x)).map (fun ma => packElems 8 (((qRow x ma).map (fun b => b.1.codes)).flatten) ++ (qRow x ma).map (fun b => b.1.scale))).flatten
/-- REDUCE from the bank into this coach, counter 9 -/
def redW (x : Nat) : Nat := iw (6 + 5 * 2 ^ 12 + x) 0 (9 * 2 ^ 16 + 2 ^ 20 + 10 * 2 ^ 8) (1 + 254 * 2 ^ 8)
def tallied (a : Acc) (l : List (Fld × Nat × Nat × Nat)) : State := (bankAt (coach 25 3 0 ([(COA_SYNC_COUNT, 25, 9, 0xFFFFFFFF)] ++ l)) 131071 { v := 2 ^ 100, pinf := true }).updCoach 25 (fun c => { c with tallyIn := [{ entry := 131071, acc := a, src := 4 }], syncDue := [(4, 9)] })
def drT : State := nx (execDrain 25 (drS 6 0))
def waitPass : State := (paS 0).updCoach 25 (fun c => { c with flight := [{ id := 3, w := passW 0, pc := 2 }, { id := 4, w := 2, pc := 3 }] })

/-- UnitInstructionsIssue: states and operands that meet the hypotheses. -/
theorem hyps_UnitInstructionsIssue :
    (∃ (c : Coach → Instr) (op : Nat) (k : Coach) (s : State), QueueRoom k op s ∧ (c, op) ∈ unitRows ∧ IssueReady k op s) ∧
    (∃ (c : Coach → Instr) (op : Nat) (k : Coach) (s : State), (c, op) ∈ unitRows ∧ IssueReady k op s ∧ (s.coach k).flight = [] ∧ (op = 3 → (s.coach k).loaded (s.fld ARR_WSTATE_ACTIVE k) = true)) ∧
    (∃ (c : Coach → Instr) (op : Nat) (k : Coach) (s : State), (c, op) ∈ unitRows ∧ (s.issuing k = false ∨ opOf (s.atPc k) ≠ op)) :=
  ⟨⟨Instr.drain, 4, 25, (drS 6 0), forall_some (by decide +kernel), by unfold IssueReady; decide +kernel⟩,
    ⟨Instr.drain, 4, 25, (drS 6 0), by unfold IssueReady; decide +kernel⟩,
    ⟨Instr.drain, 4, 25, ((drS 6 0).setFld COA_STATE_STATE 25 0 3), by decide +kernel⟩⟩

/-- WeightSetsLoadSwapAndServe: states and operands that meet the hypotheses. -/
theorem hyps_WeightSetsLoadSwapAndServe :
    (∃ (k : Coach) (md : NumMode) (s : State), BankReady k 1 md s) ∧
    (∃ (k : Coach) (i : Inf) (s : State), (s.coach k).flight.find? (fun i => opOf i.w == 1 && i.started && !i.finished) = some i ∧ i.wset < 2 ∧ s.coachStill = false) ∧
    (∃ (k : Coach) (s : State), IssueReady k 2 s ∧ (s.coach k).flight = [] ∧ s.fld ARR_WSTATE_ACTIVE k < 2) ∧
    (∃ (k : Coach) (s : State), IssueReady k 3 s ∧ (s.coach k).flight = [] ∧ (s.coach k).loaded (s.fld ARR_WSTATE_ACTIVE k) = true) :=
  ⟨⟨25, {}, (lwS 3 0), bankReady_of (by decide +kernel)⟩,
    ⟨25, (fl lwT), lwT, by decide +kernel⟩,
    ⟨25, (coach 25 7 2 [(ARR_WSTATE_ACTIVE, 25, 0, 1)]), by unfold IssueReady; decide +kernel⟩,
    ⟨25, (paS (2 ^ 21)), by unfold IssueReady; decide +kernel⟩⟩

/-- PassesEnterRowsAndAddGroupSums: states and operands that meet the hypotheses. -/
theorem hyps_PassesEnterRowsAndAddGroupSums :
    (∃ (k : Coach) (i : Inf) (s : State), (∀ st, srcStream i.w = some st → i.strBase + (i.rowsIn + 1) * (iArrays i.w).length * passRowStream (iFmt i.w) ≤ (s.strm k st).recv) ∧ (s.coach k).inputPass = some i ∧ s.coachStill = false) ∧
    (∃ (k : Coach) (p : Nat) (arr : Fin 4) (row : Fin 256) (col : Fin 128) (g : Fin 4) (i : Inf) (a v : Acc) (e : Nat) (s : State), s.coachStill = false ∧ (s.coach k).passes[p]? = some i ∧ arr.val ∈ iArrays i.w ∧ row.val < i.rowsIn ∧ g.val < passGroups i.w ∧ bitsOf (i.mask arr row col) g 1 = 0 ∧ (∀ j ∈ (s.coach k).flight, j.id < i.id → opOf j.w = 3 → inRegion j.w arr (iRow0 i.w + row.val) = true → j.entryDone arr (iRow0 i.w + row.val) col = true) ∧ groupSum i arr row col g = some a ∧ e = entryIx arr (iRow0 i.w + row.val) col ∧ iRow0 i.w + row.val < 256 ∧ (fieldOf i.w 0 21 1 = 1 ∧ i.mask arr row col = 0 → spillSlot (s.bankWord k e) = none) ∧ v = Acc.add (if fieldOf i.w 0 21 1 = 1 ∧ i.mask arr row col = 0 then Acc.zero else s.entryAcc k e) a) ∧
    (∃ (k : Coach) (i : Inf) (s : State), (s.coach k).passes.find? (fun i => !i.finished) = some i ∧ s.coachStill = false ∧ i.rowsIn = iM i.w ∧ i.nAdded = passTotal i.w) :=
  ⟨⟨25, (fl (paT (2 ^ 21))), (paT (2 ^ 21)), forall_some (by decide +kernel), by decide +kernel⟩,
    ⟨25, 0, 3, 1, 127, 1, (fl (paU (2 ^ 21))), (gs (fl (paU (2 ^ 21))) 3 1 127 1), (gs (fl (paU (2 ^ 21))) 3 1 127 1), (entryIx 3 251 127), (paU (2 ^ 21)), by decide +kernel⟩,
    ⟨25, (fl passEnd), (passEnd.setFld ARR_PASSES_PASSES 25 0 0xFFFFFFFF), by decide +kernel⟩⟩

/-- BankInstructionsWriteTheirRegion: states and operands that meet the hypotheses, part 1. -/
theorem hyps_BankInstructionsWriteTheirRegion_1 :
    (∃ (k : Coach) (md : NumMode) (s : State) (f : Fmt) (sc : Bool) (bs : List Nat), BankReady k 4 md s ∧ OutFits k s (s.atPc k) bs.length ∧ fieldOf (s.atPc k) 0 21 1 = 0 ∧ fselOf (iFmt (s.atPc k)) = some ⟨f, sc⟩ ∧ f ≠ .x24 ∧ bs = ((regionOrder (s.atPc k)).map (fun ma => packElems f.width ((s.drainRow k md f (iZoff (s.atPc k)) ma.2 (iRow0 (s.atPc k) + ma.1)).map (fun vc => vc.2.code)))).flatten) ∧
    (∃ (k : Coach) (md : NumMode) (s : State) (ts : List Nat), BankReady k 4 md s ∧ OutFits k s (s.atPc k) (16 + 16 * ts.length) ∧ fieldOf (s.atPc k) 0 21 1 = 1 ∧ ts = ((regionOrder (s.atPc k)).map (fun ma => ((regionRow ma.2 (iRow0 (s.atPc k) + ma.1)).map (fun e => tallyWords (s.entryAcc k e))).flatten)).flatten) ∧
    (∃ (k : Coach) (md : NumMode) (s : State) (f : Fmt) (es sc bs : List Nat), BankReady k 5 md s ∧ OutFits k s (s.atPc k) bs.length ∧ fselOf (iFmt (s.atPc k)) = some ⟨f, true⟩ ∧ es = ((regionOrder (s.atPc k)).map (fun ma => packElems f.width (((s.quantRow k md f (iZoff (s.atPc k)) (fieldOf (s.atPc k) 2 24 7 + 1) ma.2 (iRow0 (s.atPc k) + ma.1)).map (fun b => b.1.codes)).flatten))).flatten ∧ sc = ((regionOrder (s.atPc k)).map (fun ma => (s.quantRow k md f (iZoff (s.atPc k)) (fieldOf (s.atPc k) 2 24 7 + 1) ma.2 (iRow0 (s.atPc k) + ma.1)).map (fun b => b.1.scale))).flatten ∧ bs = ((regionOrder (s.atPc k)).map (fun ma => packElems f.width (((s.quantRow k md f (iZoff (s.atPc k)) (fieldOf (s.atPc k) 2 24 7 + 1) ma.2 (iRow0 (s.atPc k) + ma.1)).map (fun b => b.1.codes)).flatten) ++ (s.quantRow k md f (iZoff (s.atPc k)) (fieldOf (s.atPc k) 2 24 7 + 1) ma.2 (iRow0 (s.atPc k) + ma.1)).map (fun b => b.1.scale))).flatten ∧ ((dstStream (s.atPc k) = none → fieldOf (s.atPc k) 1 0 23 + es.length ≤ fieldOf (s.atPc k) 2 0 23 ∨ fieldOf (s.atPc k) 2 0 23 + sc.length ≤ fieldOf (s.atPc k) 1 0 23))) ∧
    (∃ (k : Coach) (s : State), IssueReady k 4 s ∧ (s.coach k).flight = []) :=
  ⟨⟨25, {}, (drS 6 0), .f32, false, (drBytes 6 .f32 0), bankReady_of (by decide +kernel), outFits_of (by decide +kernel), by decide +kernel⟩,
    ⟨25, {}, (drS 0 (2 ^ 21 + 2 ^ 22)), (drTally (2 ^ 21 + 2 ^ 22)), bankReady_of (by decide +kernel), outFits_of (by decide +kernel), by decide +kernel⟩,
    ⟨25, {}, (quS (2 ^ 21)), .s8a, (qE (2 ^ 21)), (qS (2 ^ 21)), (qB (2 ^ 21)), bankReady_of (by decide +kernel), outFits_of (by decide +kernel), by decide +kernel⟩,
    ⟨25, (drS 6 0), by unfold IssueReady; decide +kernel⟩⟩

/-- BankInstructionsWriteTheirRegion: states and operands that meet the hypotheses, part 2. -/
theorem hyps_BankInstructionsWriteTheirRegion_2 :
    (∃ (k : Coach) (s : State), IssueReady k 5 s ∧ (s.coach k).flight = []) ∧
    (∃ (k : Coach) (s : State), IssueReady k 6 s ∧ (s.coach k).flight = [] ∧ fieldOf (s.atPc k) 2 20 1 = 1 ∧ iArrays (s.atPc k) ≠ []) ∧
    (∃ (k : Coach) (s : State), IssueReady k 6 s ∧ (s.coach k).flight = [] ∧ fieldOf (s.atPc k) 2 20 1 = 0) ∧
    (∃ (k : Coach) (x : TallyIn) (c : Fin 16) (v : Acc) (s : State), s.coachStill = false ∧ (s.coach k).tallyIn = [x] ∧ (s.coach k).syncDue = [(x.src, c.val)] ∧ x.entry < 131072 ∧ (∀ i ∈ (s.coach k).flight, i.holdsEntry (x.entry / 32768) (x.entry / 128 % 256) (x.entry % 128) = false) ∧ v = Acc.add (s.entryAcc k x.entry) x.acc ∧ ((spillSlot (s.bankWord k x.entry) ≠ none ∨ fitsShort v.v = true ∨ s.freeSlot k ≠ none))) :=
  ⟨⟨25, (quS 0), by unfold IssueReady; decide +kernel⟩,
    ⟨25, (region (coach 25 7 (redW (2 ^ 22)))), by unfold IssueReady; decide +kernel⟩,
    ⟨25, (region (coach 25 7 (redW (2 ^ 22) - 2 ^ 84 + 30 * 2 ^ 64))), by unfold IssueReady; decide +kernel⟩,
    ⟨25, { entry := 131071, acc := { v := -3, ninf := true }, src := 4 }, 9, (Acc.add { v := 2 ^ 100, pinf := true } { v := -3, ninf := true }), (tallied { v := -3, ninf := true } []), by decide +kernel⟩⟩

/-- BankInstructionsWriteTheirRegion: states and operands that meet the hypotheses, part 3. -/
theorem hyps_BankInstructionsWriteTheirRegion_3 :
    (∃ (k : Coach) (i : Inf) (s : State), (s.coach k).flight.find? (fun i => unitOf (opOf i.w) == some .bank && i.started && !i.finished) = some i ∧ s.coachStill = false ∧ s.reduceHeld k i = false ∧ (∀ o ∈ (s.coach k).ops, o.closed = true → o.closerId ≠ i.id)) :=
  ⟨25, (fl drT), drT, by decide +kernel⟩

/-- InstructionsStartInOrderWhenTheyMay: states and operands that meet the hypotheses. -/
theorem hyps_InstructionsStartInOrderWhenTheyMay :
    (∃ (k : Coach) (u : SeqUnit) (i : Inf) (s : State), (s.coach k).nextOf u = some i ∧ s.canStart k i = true ∧ s.coachStill = false) ∧
    (∃ (k : Coach) (u : SeqUnit) (s : State), (s.coachStill = true ∨ (∀ i, (s.coach k).nextOf u = some i → s.canStart k i = false))) :=
  ⟨⟨25, .array, { id := 3, w := passW 0, pc := 2 }, waitPass, by decide +kernel⟩,
    ⟨25, .bank, waitPass, by decide +kernel⟩⟩

/-- TalliesKeepValueAndFlags: states and operands that meet the hypotheses. -/
theorem hyps_TalliesKeepValueAndFlags :
    (∃ (a : Acc), -(2 ^ 575 : Int) ≤ a.v ∧ a.v < (2 ^ 575 : Int) ∧ fitsShort a.v = true) ∧
    (∃ (a : Acc), -(2 ^ 575 : Int) ≤ a.v ∧ a.v < (2 ^ 575 : Int)) ∧
    (∃ (a : Acc), -(2 ^ 575 : Int) ≤ a.v ∧ a.v < (2 ^ 575 : Int)) :=
  ⟨⟨{ v := 2 ^ 100, nan := true, ovf := true }, by decide +kernel⟩,
    ⟨{ v := 2 ^ 575 - 1, nan := true, ovf := true }, by decide +kernel⟩,
    ⟨{ v := 2 ^ 575 - 1 }, by decide +kernel⟩⟩

end W05

namespace W06

def strmF (st : Nat) : List (Fld × Nat × Nat × Nat) := [(COA_ROLE_BOUND, 25, 0, 1), (COA_ROLE_CONTEXT, 25, 0, 7), (STR_SRC_SRC, 25, 3, 0x1F00), (STR_ROWLEN_ROWLEN, 25, 3, 0x300), (STR_ROWS_ROWS, 25, 3, 4), (STR_PLANES_PLANES, 25, 3, 2),
  (STR_STRIDE1_STRIDE1, 25, 3, 0x40), (STR_STRIDE2_STRIDE2, 25, 3, 0x200), (STR_HALF_HALF, 25, 3, 1), (STR_BUF_BASE, 25, 3, 4), (STR_RATE_RATE, 25, 3, 9), (STR_STATE_STATE, 25, 3, st)]
def strmS (st : Nat) : State := withCtx (put running (strmF st)) 7
def req3 (w : Bool) : SReq := { id := 5, n := 3, off := 0x100, len := 32, va := 0x2000, write := w, cls := 1, left := 1 }
def busy (st : Nat) (w : Bool) : State := (strmS st).updCoach 25 (fun c => { c with reqs := [req3 w, { req3 w with id := 6, n := 2 }], strm := mset {} c.strm 3 { len := 0x1800, share := 0x1000, reqd := 0x120, landed := 0x100 } })
def granted : State := nx (execStreamStart 25 3 (strmS 0))
def inboxed (s : State) (u : Nat) (p : Packet) : State := { s with net := { s.net with inbox := mset [] s.net.inbox u [{ p with tag := 4000 }, p] } }
def emptied (s : State) (u : Nat) (p : Packet) : State := { s with net := { s.net with inbox := mset [] s.net.inbox u [{ p with tag := 4000 }] } }
def data3 : Packet := { vn := 1, tag := 5 * 4, data := (List.range 32).map (· + 7) }
def transS : State := put (busy 1 false) [(STR_CFG_TRANS, 25, 3, 1), (STR_ROWLEN_ROWLEN, 25, 3, 128), (STR_ROWS_ROWS, 25, 3, 128), (STR_HALF_HALF, 25, 3, 4)]
def failedReq (c : Nat) : State := (busy 1 false).updCoach 25 (fun x => { x with reqs := [{ req3 false with code := c, left := 0 }] })
def ent (ctx vpn age : Nat) : TcEnt := { ctx := ctx, big := true, vpn := vpn, target := 0, unit := 0, ppn := 1, r := true, w := true, age := age }
def cached : State := { strmS 1 with tcs := [(coachUnit 25, { ents := [(0, some (ent 7 0 15)), (1, some (ent 7 1 3)), (4, some (ent 8 0 15))] }), (dmaUnit 2, { ents := [(0, some (ent 7 0 1)), (9, some (ent 7 3 15))] }), (5000, { ents := [(0, some (ent 7 0 1))] })] }
def walk0 (lv a : Nat) : Walk := { id := 1, ctx := 7, va := 0x2000, write := false, level := lv, addr := a }
def walking (lv a : Nat) (p : Packet) : State := let s := { (busy 1 false).updCoach 25 (fun c => { c with reqs := c.reqs.map (fun r => { r with walking := true }) }) with tcs := [(coachUnit 25, { walks := [walk0 lv a], nextWalk := 2 })] }; { s with net := { s.net with inbox := [(coachUnit 25, [{ p with tag := 100 }, p])] } }
def wpk (v : Nat) : Packet := { vn := 1, tag := 2049, data := leBytes 16 v }
def walked (lv a : Nat) (p : Packet) : State := { walking lv a p with net := { (walking lv a p).net with inbox := mset [] [] (coachUnit 25) [{ p with tag := 100 }] } }
def dmaF (st : Nat) : List (Fld × Nat × Nat × Nat) := [(DMA_CTX_BOUND, 2, 63, 1), (DMA_CTX_CONTEXT, 2, 63, 7), (DMA_CTL_RUN, 2, 63, 1), (DMA_HEAD_HEAD, 2, 63, 1), (DMA_TAIL_TAIL, 2, 63, 0), (DMA_RINGSIZE_LOG2, 2, 63, 4), (DMA_RINGBASE_BASE, 2, 63, st)]
def dmaS : State := withCtx (put running (dmaF 4)) 7
def fillD : Desc := { va := 0x100, kind := 1, scirc := false, dcirc := false, irq := false, cls := 0, slog2 := 0, dlog2 := 0, len := 200, src := 0, dst := 0x1010, pattern := 5, bad := false }
def chanS (h : Chan) : State := { dmaS with dma := [(2, { ch := [(5, { desc := some fillD, code := 1 }), (63, h)], last := 63 })] }
def dpk (i : Nat) : Packet := { vn := 1, tag := 63 * 32 + i, data := [1, 2, 3] }
def chanR (h : Chan) (p : Packet) : State := let s := chanS h; { s with net := { s.net with inbox := [(dmaUnit 2, [{ p with tag := 3000 }, p])] } }
def chanT (h : Chan) (p : Packet) : State := let s := chanS h; { s with net := { s.net with inbox := [(dmaUnit 2, [{ p with tag := 3000 }])] } }
def locked6 (n : Nat) : State := put cached [(DEV_LSSTAT_STATE, 0, 0, 2), (DEV_LSCYC_CYC, 0, 0, n)]
def waitPort : State := { cached.setFld DMA_INVAL_BUSY 2 0 1 with fab := mset {} cached.fab 2 { owed := [(1, [{ tag := 3, used := [⟨7, 0, false, true⟩] }])] } }
def dcache (w : Bool) (s : State) : State := { s with tcs := [(dmaUnit 2, { ents := [(3, some { ctx := 7, big := true, vpn := 0, target := 0, unit := 0, ppn := 1, r := true, w := w, age := 2 })] })] }
def rdesc : List Nat := leBytes 4 1 ++ leBytes 4 200 ++ leBytes 56 0x1010

/-- StreamsStartStopAndResume: states and operands that meet the hypotheses, part 1. -/
theorem hyps_StreamsStartStopAndResume_1 :
    (∃ (k : Coach) (n : Fin 8) (s : State), Hits STR_CTL_START k n s ∧ s.fld STR_STATE_STATE k n ∈ [0, 4, 5] ∧ s.startRefused k n = false) ∧
    (∃ (k : Coach) (n : Fin 8) (s : State), Hits STR_CTL_START k n s ∧ s.fld STR_STATE_STATE k n ∈ [0, 4, 5] ∧ s.startRefused k n = true) ∧
    (∃ (k : Coach) (n : Fin 8) (s : State), Hits STR_CTL_START k n s ∧ s.fld STR_STATE_STATE k n ∉ [0, 4, 5]) ∧
    (∃ (k : Coach) (n : Fin 8) (s : State), Hits STR_CTL_STOP k n s ∧ s.fld STR_STATE_STATE k n ∈ [1, 3] ∧ s.streamBusy k n = false ∧ ((s.strm k n).failed = none ∨ s.fld STR_STATE_STATE k n = 3)) :=
  ⟨⟨25, 3, (strmS 0), by unfold Hits; decide +kernel⟩,
    ⟨25, 3, ((strmS 4).setFld STR_ROWLEN_ROWLEN 25 3 8), by unfold Hits; decide +kernel⟩,
    ⟨25, 3, (strmS 1), by unfold Hits; decide +kernel⟩,
    ⟨25, 3, (strmS 1), by unfold Hits; decide +kernel⟩⟩

/-- StreamsStartStopAndResume: states and operands that meet the hypotheses, part 2. -/
theorem hyps_StreamsStartStopAndResume_2 :
    (∃ (k : Coach) (n : Fin 8) (s : State), Hits STR_CTL_STOP k n s ∧ s.fld STR_STATE_STATE k n ∈ [1, 2, 3] ∧ s.streamBusy k n = true) ∧
    (∃ (k : Coach) (n : Fin 8) (s : State), Hits STR_CTL_STOP k n s ∧ s.fld STR_STATE_STATE k n ∉ [1, 2, 3]) ∧
    (∃ (k : Coach) (n : Fin 8) (s : State), Hits STR_RESUME_GO k n s ∧ s.fld STR_STATE_STATE k n = 3) ∧
    (∃ (k : Coach) (n : Fin 8) (s : State), Hits STR_RESUME_GO k n s ∧ s.fld STR_STATE_STATE k n = 2) :=
  ⟨⟨25, 3, (busy 2 false), by unfold Hits; decide +kernel⟩,
    ⟨25, 3, (strmS 4), by unfold Hits; decide +kernel⟩,
    ⟨25, 3, ((busy 3 false).setFld STR_POS_POS 25 3 0x120), by unfold Hits; decide +kernel⟩,
    ⟨25, 3, (busy 2 false), by unfold Hits; decide +kernel⟩⟩

/-- StreamsStartStopAndResume: states and operands that meet the hypotheses, part 3. -/
theorem hyps_StreamsStartStopAndResume_3 :
    (∃ (k : Coach) (n : Fin 8) (s : State), Hits STR_RESUME_GO k n s ∧ s.fld STR_STATE_STATE k n ∉ [2, 3]) :=
  ⟨25, 3, (busy 1 false), by unfold Hits; decide +kernel⟩

/-- StreamsRequestAndLandTheirSequence: states and operands that meet the hypotheses, part 1. -/
theorem hyps_StreamsRequestAndLandTheirSequence_1 :
    (∃ (k : Coach) (n off va len : Nat) (s : State), s.coachStill = false ∧ s.grantStalled k = false ∧ s.grantee k = some n ∧ off = (s.strm k n).shareOff + (s.strm k n).reqd ∧ va = s.seqVa k n off ∧ len = min (min 512 (s.fld STR_ROWLEN_ROWLEN k n - off % s.fld STR_ROWLEN_ROWLEN k n)) (min (4096 - va % 4096) ((s.strm k n).share - (s.strm k n).reqd))) ∧
    (∃ (k : Coach) (s : State), (s.coachStill = true ∨ s.grantStalled k = true ∨ s.grantee k = none)) ∧
    (∃ (k : Coach) (p : Packet) (r : SReq) (data : List Nat) (s s1 : State), Takes s (coachUnit k) (fun p => decide (p.tag < 1024) && p.op != 3 && (match (s.coach k).reqOf p with | some r => r.write == false | none => true)) p s1 ∧ (s.coach k).reqOf p = some r ∧ r.write = false ∧ r.left = 1 ∧ r.code = 0 ∧ r.stale = false ∧ p.errCode = 0 ∧ (∀ x ∈ (s.coach k).reqs, x.id = r.id → x = r) ∧ data = ((insertPiece ⟨p.tag % 4, p.data⟩ r.got).map (·.data)).flatten.take r.len ∧ (s.fld STR_CFG_TRANS k r.n = 1 → s.transOk k r.n = true)) ∧
    (∃ (k : Coach) (p : Packet) (r : SReq) (s s1 : State), Takes s (coachUnit k) (fun p => decide (p.tag < 1024) && p.op != 3 && (match (s.coach k).reqOf p with | some r => r.write == true | none => false)) p s1 ∧ (s.coach k).reqOf p = some r ∧ r.write = true ∧ r.left = 1 ∧ r.code = 0 ∧ r.stale = false ∧ p.errCode = 0 ∧ (∀ x ∈ (s.coach k).reqs, x.id = r.id → x = r) ∧ s.fld STR_STATE_STATE k r.n = 1 ∧ (s.strm k r.n).stopping = false) :=
  ⟨⟨25, 3, 0, 0x1F00, 256, granted, by decide +kernel⟩,
    ⟨25, (strmS 1), by decide +kernel⟩,
    ⟨25, data3, (req3 false), ((List.range 32).map (· + 7)), (inboxed (busy 1 false) (coachUnit 25) data3), (emptied (busy 1 false) (coachUnit 25) data3), by unfold Takes; decide +kernel⟩,
    ⟨25, { data3 with data := [] }, (req3 true), (inboxed (busy 1 true) (coachUnit 25) { data3 with data := [] }), (emptied (busy 1 true) (coachUnit 25) { data3 with data := [] }), by unfold Takes; decide +kernel⟩⟩

/-- StreamsRequestAndLandTheirSequence: states and operands that meet the hypotheses, part 2. -/
theorem hyps_StreamsRequestAndLandTheirSequence_2 :
    (∃ (k : Coach) (r : SReq) (s : State), (s.coach k).reqs = [r] ∧ r.code ≠ 0 ∧ r.left = 0 ∧ r.stale = false ∧ r.n < 8 ∧ r.code < 16 ∧ s.fld STR_STATE_STATE k r.n = 1 ∧ (s.strm k r.n).failed = none ∧ (s.strm k r.n).stopping = false ∧ (s.strm k r.n).goHeld = false) :=
  ⟨25, { req3 false with code := 1, left := 0 }, (failedReq 1), by decide +kernel⟩

/-- TranslationCachesAgeLapseAndInvalidate: states and operands that meet the hypotheses, part 1. -/
theorem hyps_TranslationCachesAgeLapseAndInvalidate_1 :
    (∃ (s : State), s.lockRun = false) ∧
    (∃ (s : State), s.lockRun = true ∧ s.fld DEV_LSCYC_CYC 0 % 16000 ≠ 0) ∧
    (∃ (e : Eng) (n : Fin 1024) (x : TcEnt) (s : State), mget none (s.tc (engUnit e)).ents n = some x) ∧
    (∃ (k : Coach) (ctx : Ctx) (s : State), Hits STR_INVAL_KIND k 0 s ∧ s.fld STR_INVAL_BUSY k = 0) :=
  ⟨⟨cached, by decide +kernel⟩,
    ⟨(locked6 15999), by decide +kernel⟩,
    ⟨(.coach 25), 4, (ent 8 0 15), cached, by decide +kernel⟩,
    ⟨25, 7, cached, by unfold Hits; decide +kernel⟩⟩

/-- TranslationCachesAgeLapseAndInvalidate: states and operands that meet the hypotheses, part 2. -/
theorem hyps_TranslationCachesAgeLapseAndInvalidate_2 :
    (∃ (k : Coach) (ctx : Ctx) (s : State), Hits STR_INVAL_KIND k 0 s ∧ s.fld STR_INVAL_BUSY k = 0) ∧
    (∃ (k : Coach) (ctx : Ctx) (s : State), Hits STR_INVAL_KIND k 0 s ∧ s.fld STR_INVAL_BUSY k = 0) ∧
    (∃ (c : Car) (ctx : Ctx) (s : State), Hits DMA_INVAL_KIND c 0 s ∧ s.fld DMA_INVAL_BUSY c = 0) ∧
    (∃ (c : Car) (ctx : Ctx) (s : State), Hits DMA_INVAL_KIND c 0 s ∧ s.fld DMA_INVAL_BUSY c = 0) :=
  ⟨⟨25, 7, cached, by unfold Hits; decide +kernel⟩,
    ⟨25, 7, (cached.setFld STR_INVAL_VA_VA 25 0 0x200010), by unfold Hits; decide +kernel⟩,
    ⟨2, 7, cached, by unfold Hits; decide +kernel⟩,
    ⟨2, 7, cached, by unfold Hits; decide +kernel⟩⟩

/-- TranslationCachesAgeLapseAndInvalidate: states and operands that meet the hypotheses, part 3. -/
theorem hyps_TranslationCachesAgeLapseAndInvalidate_3 :
    (∃ (c : Car) (ctx : Ctx) (s : State), Hits DMA_INVAL_KIND c 0 s ∧ s.fld DMA_INVAL_BUSY c = 0) ∧
    (∃ (k : Coach) (ctx : Ctx) (s : State), Hits STR_INVAL_KIND k 0 s ∧ s.fld STR_INVAL_BUSY k = 1) ∧
    (∃ (c : Car) (ctx : Ctx) (s : State), Hits DMA_INVAL_KIND c 0 s ∧ s.fld DMA_INVAL_BUSY c = 1) ∧
    (∃ (k : Coach) (s : State), s.fld STR_INVAL_BUSY k = 1 ∧ (∀ r ∈ (s.coach k).reqs, ∀ u ∈ r.used, u.wait = false)) :=
  ⟨⟨2, 7, (cached.setFld DMA_INVALVA_VA 2 0 0x600010), by unfold Hits; decide +kernel⟩,
    ⟨25, 7, (cached.setFld STR_INVAL_BUSY 25 0 1), by unfold Hits; decide +kernel⟩,
    ⟨2, 7, (cached.setFld DMA_INVAL_BUSY 2 0 1), by unfold Hits; decide +kernel⟩,
    ⟨25, (cached.setFld STR_INVAL_BUSY 25 0 1), by decide +kernel⟩⟩

/-- TranslationCachesAgeLapseAndInvalidate: states and operands that meet the hypotheses, part 4. -/
theorem hyps_TranslationCachesAgeLapseAndInvalidate_4 :
    (∃ (c : Car) (s : State), s.fld DMA_INVAL_BUSY c = 1 ∧ s.invalWaits c = false) ∧
    (∃ (k : Coach) (c : Car) (s : State), (∃ r ∈ (s.coach k).reqs, ∃ u ∈ r.used, u.wait = true)) ∧
    (∃ (k : Coach) (c : Car) (s : State), s.invalWaits c = true) ∧
    (∃ (e : Eng) (p : Packet) (w : Walk) (s s1 : State), Takes s (engUnit e) (fun p => decide (2048 ≤ p.tag) && p.op != 3) p s1 ∧ (s.tc (engUnit e)).walks.find? (fun w => 2048 + w.id % 2048 == p.tag) = some w ∧ p.status = 0 ∧ p.bad = false) :=
  ⟨⟨2, (cached.setFld DMA_INVAL_BUSY 2 0 1), by decide +kernel⟩,
    ⟨25, 2, ((cached.setFld STR_INVAL_BUSY 25 0 1).updCoach 25 (fun c => { c with reqs := [{ req3 false with used := [⟨7, 0x2000, true, true⟩] }] })), by decide +kernel⟩,
    ⟨25, 2, waitPort, by decide +kernel⟩,
    ⟨(.coach 25), (wpk 0x20001), (walk0 0 0x10000), (walking 0 0x10000 (wpk 0x20001)), (walked 0 0x10000 (wpk 0x20001)), by unfold Takes; decide +kernel⟩⟩

/-- DmaChannelsMoveTheirDescriptors: states and operands that meet the hypotheses, part 1. -/
theorem hyps_DmaChannelsMoveTheirDescriptors_1 :
    (∃ (c : Car) (ch : Fin 64) (v : BitVec 16) (s : State), Hits DMA_HEAD_HEAD c ch s) ∧
    (∃ (c : Car) (ch : Fin 64) (b : Bool) (s : State), Hits DMA_CTL_RUN c ch s) ∧
    (∃ (c : Car) (ch : Fin 64) (s : State), Hits DMA_STATUS_STOPPED c ch s) ∧
    (∃ (c : Car) (ch : Fin 64) (s : State), Hits DMA_CTL_ABORT c ch s) :=
  ⟨⟨2, 63, 0xFFFF, dmaS, by unfold Hits; decide +kernel⟩,
    ⟨2, 63, false, dmaS, by unfold Hits; decide +kernel⟩,
    ⟨2, 63, (dmaS.setFld DMA_STATUS_STOPPED 2 63 1), by unfold Hits; decide +kernel⟩,
    ⟨2, 63, dmaS, by unfold Hits; decide +kernel⟩⟩

/-- DmaChannelsMoveTheirDescriptors: states and operands that meet the hypotheses, part 2. -/
theorem hyps_DmaChannelsMoveTheirDescriptors_2 :
    (∃ (c : Car) (ch : Fin 64) (i : Nat) (e : TcEnt) (s : State), s.mayFetch c ch = true ∧ (s.tc (dmaUnit c)).lookup (s.chanCtx c ch) (s.ringVa c ch) = some (i, e)) ∧
    (∃ (c : Car) (ch : Fin 64) (s : State), s.mayFetch c ch = false) ∧
    (∃ (c : Car) (p : Packet) (s s1 : State), Takes s (dmaUnit c) (fun p => decide (p.tag < 2048) && !isAckTag p.tag && p.op != 3) p s1 ∧ p.tag % 32 = 30 ∧ (s.chan c (p.tag / 32)).fetch = 2 ∧ p.errCode = 0) ∧
    (∃ (c : Car) (ch : Nat) (s : State), (turnOrder (mget {} s.dma c).last).find? (fun ch => (s.chan c ch).active && (s.chan c ch).burst == 0 && !s.flag DMA_CTL_ABORT c ch) = some ch) :=
  ⟨⟨2, 63, 3, { ctx := 7, big := true, vpn := 0, target := 0, unit := 0, ppn := 1, r := true, w := true, age := 2 }, (dcache true dmaS), by decide +kernel⟩,
    ⟨2, 63, (chanS { desc := some fillD }), by decide +kernel⟩,
    ⟨2, { dpk 30 with data := rdesc }, (chanR { fetch := 2 } { dpk 30 with data := rdesc }), (chanT { fetch := 2 } { dpk 30 with data := rdesc }), by unfold Takes; decide +kernel⟩,
    ⟨2, 63, (dcache true (chanS { desc := some fillD })), by decide +kernel⟩⟩

/-- DmaChannelsMoveTheirDescriptors: states and operands that meet the hypotheses, part 3. -/
theorem hyps_DmaChannelsMoveTheirDescriptors_3 :
    (∃ (c : Car) (p : Packet) (d : Desc) (s s1 : State), Takes s (dmaUnit c) (fun p => decide (p.tag < 2048) && !isAckTag p.tag && p.op != 3) p s1 ∧ p.tag % 32 ≠ 30 ∧ (s.chan c (p.tag / 32)).desc = some d ∧ 1 < (s.chan c (p.tag / 32)).left ∧ p.errCode = 0) ∧
    (∃ (c : Car) (p : Packet) (s s1 : State), Takes s (dmaUnit c) (fun p => decide (p.tag < 2048) && isAckTag p.tag && p.op != 3) p s1 ∧ p.tag % 32 = 31 ∧ (s.chan c (p.tag / 32)).left = 1 ∧ (s.chan c (p.tag / 32)).writing = true ∧ (s.chan c (p.tag / 32)).code = 0 ∧ p.errCode = 0) ∧
    (∃ (c : Car) (ch : Fin 64) (d : Desc) (i : Nat) (e : TcEnt) (s : State), (s.chan c ch).desc = some d ∧ (s.chan c ch).burst = 0 ∧ (s.chan c ch).ending = 0 ∧ (((s.chan c ch).code ≠ 0 ∨ (s.chan c ch).done = d.len ∨ s.fld DMA_CTL_ABORT c ch = 1)) ∧ (s.tc (dmaUnit c)).lookup (s.chanCtx c ch) (d.va + 0x30) = some (i, e) ∧ e.w = true) ∧
    (∃ (c : Car) (p : Packet) (d : Desc) (s s1 : State), Takes s (dmaUnit c) (fun p => decide (p.tag < 2048) && isAckTag p.tag && p.op != 3) p s1 ∧ p.tag % 32 = 29 ∧ (s.chan c (p.tag / 32)).desc = some d ∧ (s.chan c (p.tag / 32)).ending = 2 ∧ p.errCode = 0) :=
  ⟨⟨2, (dpk 3), fillD, (chanR { desc := some fillD, burst := 200, left := 2 } (dpk 3)), (chanT { desc := some fillD, burst := 200, left := 2 } (dpk 3)), by unfold Takes; decide +kernel⟩,
    ⟨2, (dpk 31), (chanR { desc := some fillD, burst := 200, left := 1, writing := true } (dpk 31)), (chanT { desc := some fillD, burst := 200, left := 1, writing := true } (dpk 31)), by unfold Takes; decide +kernel⟩,
    ⟨2, 63, fillD, 3, { ctx := 7, big := true, vpn := 0, target := 0, unit := 0, ppn := 1, r := true, w := true, age := 2 }, (dcache true (chanS { desc := some fillD, done := 200 })), by decide +kernel⟩,
    ⟨2, (dpk 29), fillD, (chanR { desc := some fillD, ending := 2, status := 8 } (dpk 29)), (chanT { desc := some fillD, ending := 2, status := 8 } (dpk 29)), by unfold Takes; decide +kernel⟩⟩

/-- DmaChannelsMoveTheirDescriptors: states and operands that meet the hypotheses, part 4. -/
theorem hyps_DmaChannelsMoveTheirDescriptors_4 :
    (∃ (c : Car) (ch : Fin 64) (d : Desc) (status : Nat) (s : State), (s.chan c ch).desc = some d ∧ (s.chan c ch).ending = 3 ∧ (s.chan c ch).status = status ∧ (s.chan c ch).ctxReset = false ∧ status < 256) :=
  ⟨2, 63, fillD, 8, (chanS { desc := some fillD, done := 200, ending := 3, status := 8 }), by decide +kernel⟩

end W06

namespace W07

def armable : State := put { running with pwr := { running.pwr with inForce := 3 } } ([(PWR_PROFILE_SEL, 0, 0, 3), (PWR_THRCTL_EN, 0, 0, 0)] ++ ((List.range 8).map (fun n => (HBM_CTL_REFMODE, n / 2, n % 2, 1))))
def lockRun (c : Nat) : State := { (put armable [(DEV_LSSTAT_STATE, 0, 0, 2), (DEV_LSCYC_CYC, 0, 0, c), (DEV_LSCTL_SLOT, 0, 0, 10)]) with links := [(0, { carried := true }), (3, {sent := 1}), (25, { carried := true })] }
def reinS (st : Nat) (r : ReinS) : State := { put armable [(DEV_REINSTAT_STATE, 0, 0, st), (DEV_REINTMO_TMO, 0, 0, 9), (DEV_REINSTAT_MARKS, 0, 0, 3), (DEV_REINEXP_COUNT, 0, 0, 3), (DEV_LSSEED_SEED, 0, 0, 0x12345678)] with rein := r }
def heldBack (i : Instr) : State := { lockRun 2048 with lock := { (lockRun 2048).lock with waiting := [⟨7, 3, i⟩] } }

/-- LockstepArmsRunsAndAborts: states and operands that meet the hypotheses, part 1. -/
theorem hyps_LockstepArmsRunsAndAborts_1 :
    (∃ (s : State), Hits DEV_LSCTL_ENABLE 0 0 s ∧ s.fld DEV_LSSTAT_STATE 0 = 0 ∧ s.enableCode = 0) ∧
    (∃ (s : State), Hits DEV_LSCTL_ENABLE 0 0 s ∧ s.fld DEV_LSSTAT_STATE 0 = 0 ∧ s.enableCode ≠ 0) ∧
    (∃ (s : State), s.enableCode = 0) ∧
    (∃ (s : State), s.enableCode = 0) :=
  ⟨⟨armable, by unfold Hits; decide +kernel⟩,
    ⟨running, by unfold Hits; decide +kernel⟩,
    ⟨armable, by decide +kernel⟩,
    ⟨armable, by decide +kernel⟩⟩

/-- LockstepArmsRunsAndAborts: states and operands that meet the hypotheses, part 2. -/
theorem hyps_LockstepArmsRunsAndAborts_2 :
    (∃ (s : State), s.enableCode = 0) ∧
    (∃ (s : State), s.enableCode = 0) ∧
    (∃ (s : State) (n : Nat), s.enableCode = 0 ∧ n < 8) ∧
    (∃ (s : State), Hits DEV_LSCTL_ENABLE 0 0 s ∧ s.fld DEV_LSSTAT_STATE 0 ≠ 0) :=
  ⟨⟨armable, by decide +kernel⟩,
    ⟨armable, by decide +kernel⟩,
    ⟨armable, 7, by decide +kernel⟩,
    ⟨(armable.setFld DEV_LSSTAT_STATE 0 0 1), by unfold Hits; decide +kernel⟩⟩

/-- LockstepArmsRunsAndAborts: states and operands that meet the hypotheses, part 3. -/
theorem hyps_LockstepArmsRunsAndAborts_3 :
    (∃ (s : State), Hits DEV_LSCTL_ENABLE 0 0 s ∧ (s.fld DEV_LSSTAT_STATE 0 = 2 ∨ s.fld DEV_LSSTAT_STATE 0 = 1)) ∧
    (∃ (s : State), s.lockRun = true ∧ s.fld DEV_LSCYC_CYC 0 % s.slotLen = 0 ∧ s.lock.waiting = [] ∧ s.actionLate = false) ∧
    (∃ (w : Waiting) (s u : State), exec w.cmd { s with lock := { s.lock with waiting := [], opened := true } } = .next u ∧ s.lockRun = true ∧ s.fld DEV_LSCYC_CYC 0 % s.slotLen = 0 ∧ s.lock.waiting = [w] ∧ w.due ≤ s.fld DEV_LSCYC_CYC 0 ∧ s.actionLate = false ∧ w.cmd ∈ [Instr.clearSattot 0, .dmaRun 0 0 true, .lockstepDisable, .reinArm, .fuseLock]) ∧
    (∃ (late : Bool) (s : State), s.lockRun = true ∧ s.fld DEV_LSCYC_CYC 0 % s.slotLen = 0 ∧ s.lock.waiting = [] ∧ ((late = true ∨ s.actionLate = true))) :=
  ⟨⟨{ lockRun 77 with lock := { opened := true } }, by unfold Hits; decide +kernel⟩,
    ⟨(lockRun 2048), by decide +kernel⟩,
    ⟨⟨7, 3, .dmaRun 0 0 true⟩, (heldBack (.dmaRun 0 0 true)), (nx (execDmaRun 0 0 true { heldBack (.dmaRun 0 0 true) with lock := { (lockRun 2048).lock with opened := true } })), by rfl, by decide +kernel⟩,
    ⟨true, (lockRun 2048), by decide +kernel⟩⟩

/-- LockstepArmsRunsAndAborts: states and operands that meet the hypotheses, part 4. -/
theorem hyps_LockstepArmsRunsAndAborts_4 :
    (∃ (late : Bool) (s : State), s.lockRun = true ∧ s.fld DEV_LSCYC_CYC 0 % s.slotLen ≠ 0) :=
  ⟨true, (lockRun 2047), by decide +kernel⟩

/-- TheReinFiresTogether: states and operands that meet the hypotheses, part 1. -/
theorem hyps_TheReinFiresTogether_1 :
    (∃ (s : State), Hits DEV_REINCTL_CMD 0 0 s ∧ (s.fld DEV_REINSTAT_STATE 0 = 0 ∨ s.fld DEV_REINSTAT_STATE 0 = 3)) ∧
    (∃ (s : State), Hits DEV_REINCTL_CMD 0 0 s ∧ s.fld DEV_REINSTAT_STATE 0 = 1 ∧ s.fld DEV_REINCTL_ROLE 0 ∈ [0, 1, 3]) ∧
    (∃ (s : State), Hits DEV_REINCTL_CMD 0 0 s ∧ s.fld DEV_REINSTAT_STATE 0 = 1 ∧ s.fld DEV_REINCTL_ROLE 0 = 2 ∧ s.fld DEV_REINEXP_COUNT 0 ≤ s.fld DEV_REINSTAT_MARKS 0) ∧
    (∃ (s : State), s.fld DEV_REINSTAT_STATE 0 = 2 ∧ 1 ≤ s.rein.highs) :=
  ⟨⟨(reinS 3 { highs := 4 }), by unfold Hits; decide +kernel⟩,
    ⟨(reinS 1 {}), by unfold Hits; decide +kernel⟩,
    ⟨((reinS 1 {}).setFld DEV_REINCTL_ROLE 0 0 2), by unfold Hits; decide +kernel⟩,
    ⟨(reinS 2 { highs := 1 }), by decide +kernel⟩⟩

/-- TheReinFiresTogether: states and operands that meet the hypotheses, part 2. -/
theorem hyps_TheReinFiresTogether_2 :
    (∃ (s : State), s.fld DEV_REINSTAT_STATE 0 = 2 ∧ s.rein.highs = 0) ∧
    (∃ (s : State), s.fld DEV_REINSTAT_STATE 0 = 2) ∧
    (∃ (x : Nat) (s : State), s.rein.cycleAt = some x) ∧
    (∃ (s : State), s.rein.cycleAt = none) :=
  ⟨⟨(reinS 2 {}), by decide +kernel⟩,
    ⟨(reinS 2 { highs := 1 }), by decide +kernel⟩,
    ⟨64, ((reinS 3 { cycleAt := some 64 }).setFld DEV_LSSTAT_STATE 0 0 1), by decide +kernel⟩,
    ⟨(reinS 3 {}), by decide +kernel⟩⟩

/-- TheReinFiresTogether: states and operands that meet the hypotheses, part 3. -/
theorem hyps_TheReinFiresTogether_3 :
    (∃ (s : State), (s.fld DEV_REINSTAT_STATE 0 = 1 ∨ s.fld DEV_REINSTAT_STATE 0 = 2) ∧ s.fld DEV_REINTMO_TMO 0 ≠ 0) ∧
    (∃ (s : State), Hits DEV_REINCTL_CMD 0 0 s) ∧
    (∃ (x : Nat) (s : State), s.fld DEV_REINSTAT_STATE 0 = 2 ∧ s.rein.releaseAt = some x ∧ s.rein.released = false) :=
  ⟨⟨(reinS 1 {}), by decide +kernel⟩,
    ⟨(reinS 4 { highs := 1 }), by unfold Hits; decide +kernel⟩,
    ⟨5, (reinS 2 { releaseAt := some 5 }), by decide +kernel⟩⟩

end W07

namespace W08

/-- Link `l` in a state of Table 11.1. -/
def lkS (l st : Nat) (k : LinkS := {}) (s : State := running) : State := (s.setLk LNK_STATE_STATE l st).setLk LNK_CTL_ENABLE l 1 |>.updLink l (fun _ => k)
def lv (xs : List Nat) : List (Fin 4) := xs.map (fun x => ⟨x % 4, Nat.mod_lt _ (by decide)⟩)
def sl (g : Nat) (b : SyncBlk) : List (Fin 4) := lv (syncSymbols g b).1
def aside (s : State := running) : State := { s with couplerAside := true }
def pk0 : Packet := { vn := 0, op := 1, tag := 5, addr := 0x1000, len := 2, ctx := 3 }
def mir : Packet := { vn := 5, op := 0, ctx := 3, len := 2, data := List.replicate 32 7 }
def busy : LinkS := { waiting := [{ pkt := pk0 }, { pkt := mir }], tx := List.replicate 700 3, starts := [(0, { pkt := mir })], seqNext := 9, retry := [{ seq := 7, payload := List.replicate 628 1, fpo := 1023, pk := [{ pkt := mir }] }, { seq := 8, payload := List.replicate 628 2, fpo := 1023, pk := [{ pkt := pk0 }], resends := 3 }], expect := 4, ret := [(3, some pk0)], owed := [(3, pk0)], lent := [(0, 4)] }
def pairSync (s : State) : State := s.setFld CPL_STATE_STATE 0 0 3
def lane0 (g : Nat) (x : LaneS) (s : State) : State := put (s.updLane g (fun _ => x)) [(LNK_TAPS_PRE2, g / 24, g % 24, 1), (LNK_TAPS_PRE1, g / 24, g % 24, 3), (LNK_TAPS_MAIN, g / 24, g % 24, 50), (LNK_TAPS_POST1, g / 24, g % 24, 2), (LNK_TAPS_POST2, g / 24, g % 24, 1)]
def trained (l st : Nat) (k : LinkS := {}) (s : State := running) : State := (linkLanes s.couplerAside l).foldl (fun t g => (t.updLane g (fun _ => { mine := true, theirs := true })).setFld LNK_LANESTAT_PARTNER (g / 24) (g % 24) g) (lkS l st k s)
def bytesOf : List Nat := linkPacketBytes { pkt := pk0, xtag := 9 } false 0 ++ linkPacketBytes { pkt := { pk0 with vn := 1, rse := 3 }, resp := true } false 0 ++ linkPacketBytes { pkt := mir } false 0
def pay : List Nat := bytesOf ++ 7 :: List.replicate (627 - bytesOf.length) 0
-- route from coach 0 to coach 1 of carriage 0: hop east (1), then 0
def rw0 : BitVec 32 := 1
def rw3 : BitVec 32 := BitVec.ofNat 32 (1 + 2 ^ 31)
def stale : Packet := { vn := 1, op := 3, rse := 9, ctx := 2, tag := 40, aux := 3 + 1 * 2 ^ 8 }
def inb (u : Nat) (p : Packet) (s : State) : State := { s with net := { s.net with inbox := mset [] s.net.inbox u [p] } }
def pin0 : PktIn := { vn := 2, op := 1, ctx := 4, tag := 9, addr := 0x40, data := List.replicate 20 (3 : Byte) }
def qin : Packet := { vn := 2, op := 1, ctx := 4, tag := 9, addr := 0x40, sclass := 3, aux := 20, len := 2, data := List.replicate 20 3 }
def wired (c r p : Nat) (l : List Flit) (s : State := running) : State := { s with net := { s.net with wires := mset [] s.net.wires (wireKey c r p) l } }
def fl (i : Nat) (vc : Nat := 0) : Flit := { pkt := { vn := 0, op := 0, hops := 2, route := 1, ptr := 1, dst := 1, src := 0, uid := 3 }, i := i, vc := vc }
def q6 (k : Nat) (n : Nat) (s : State) : State := { s with net := { s.net with queues := mset [] s.net.queues k (List.replicate n (fl 0)), ports := [(4, [fl 0])] } }
def dp : Packet := { vn := 0, op := 0, hops := 2, route := 1, ptr := 2, dst := 1, src := 0, uid := 3, ctx := 2, addr := 0x40, len := 1 }
def dport (c r : Nat) (p : Packet) (s : State := running) : State := { s with net := { s.net with ports := [(c * 64 + r, (List.range (flitCount p.data.length)).map (fun i => { pkt := p, i := i }))] } }
def pinH : PktIn := { vn := 0, op := 1, ctx := 4, tag := 9, addr := 0x40, data := [], len := 2 }
def missed4 (g : Nat) (s : State) : State := s.updLane g (fun x => { x with missed := 4 })
def sent0 (g : Nat) (s : State) : State := s.updLane g (fun x => { x with dataSent := 0 })
def testS (v : Nat) : State := put ((lkS 5 4).updLane 20 (fun x => { x with prbs := v })) [(LNK_LANECTL_TEST, 0, 20, 1)]
def zeroLv : List (Fin 4) := lv ((stuffLevels (0, 0) (scramLevels 0 (List.replicate 2720 (false, false))).1).1)
/-- The checksum registers after 0, 502, 1,004 … zero bits. -/
def quietCrc : List Nat := [4294967295, 3147308109, 11574064, 1674162960, 2515244026, 1490060141, 2362411010, 2733844632, 4211250700, 1211351159, 1057511067]
/-- Each is the one before it and 502 zero bits more. -/
theorem quietCrc_step : ∀ i < 10, crcBitsFrom (quietCrc.getD i 0) (List.replicate 502 false) = quietCrc.getD (i + 1) 0 := by decide +kernel
/-- The register after a number of such runs. -/
theorem quietCrc_at : ∀ i, i ≤ 10 → crcBitsFrom 0xFFFFFFFF (List.replicate (502 * i) false) = quietCrc.getD i 0
  | 0, _ => rfl
  | i + 1, h => by rw [show 502 * (i + 1) = 502 * i + 502 by omega, ← List.replicate_append_replicate, crcBitsFrom_append, quietCrc_at i (by omega), quietCrc_step i (by omega)]
/-- The checksum of bits that begin with 5,020 zeros. -/
theorem crcBits_quiet (x : List Bool) : crcBits (List.replicate 5020 false ++ x) = crcBitsFrom 1057511067 x ^^^ 0xFFFFFFFF := by
  have h := quietCrc_at 10 (le_refl _)
  rw [show 502 * 10 = 5020 from rfl] at h
  rw [crcBits, crcBitsFrom_append, h]; rfl
/-- An idle link block with zero payload, as bits: control bits `c`, check `k`. -/
def quietEnds (c k : Nat) : List Bool := List.replicate 4 false ++ (bitList 84 c ++ bitList 32 k)
/-- The parity bits that follow. -/
def quietPar (u : List Bool) : List Bool := (rsParity (symbolsOf 12 u)).flatMap (bitList 10)
/-- The levels that carry the codeword. -/
def quietLv (u : List Bool) : List (Fin 4) := (stuffLevels (0, 0) (scramLevels 0 (bitPairs (List.replicate 5020 false ++ (u ++ quietPar u)))).1).1.map (Fin.ofNat 4)
/-- The levels are those of the transmitter. -/
theorem quietLv_val (u : List Bool) : (quietLv u).map Fin.val = (stuffLevels (0, 0) (scramLevels 0 (bitPairs (List.replicate 5020 false ++ (u ++ quietPar u)))).1).1 := by
  have hs := scramLevels_lt (bitPairs (List.replicate 5020 false ++ (u ++ quietPar u))) 0
  unfold quietLv
  generalize (scramLevels 0 (bitPairs (List.replicate 5020 false ++ (u ++ quietPar u)))).1 = y at hs ⊢
  have h := stuffLevels_lt y (0, 0) hs
  generalize (stuffLevels (0, 0) y).1 = l at h
  rw [List.map_map]
  exact (List.map_congr_left (fun x hx => Nat.mod_eq_of_lt (h x hx))).trans (List.map_id _)
/-- What a receiver makes of the levels, where the end of the codeword has no syndrome. -/
theorem received_quiet (c k : Nat) (hz : ∀ j ∈ List.range 30, syndrome (symbolsOf 42 (quietEnds c k ++ quietPar (quietEnds c k))) j = 0)
    (hm : (symbolsOf 42 (quietEnds c k ++ quietPar (quietEnds c k))).length = 42 ∧ ((symbolsOf 42 (quietEnds c k ++ quietPar (quietEnds c k))).take 12).flatMap (bitList 10) = quietEnds c k) :
    (receiveData 0 (0, 0) ((quietLv (quietEnds c k)).map Fin.val)).1 =
      if crcBitsFrom 1057511067 ((quietEnds c k).take 88) ^^^ 0xFFFFFFFF == natOfBits ((quietEnds c k).drop 88) then .good (linkBlkOf (List.replicate 5020 false ++ quietEnds c k)) 0 else .badCrc 0 := by
  have hl : (quietEnds c k).length = 120 := by simp [quietEnds, bitList_length]
  have hp : (quietPar (quietEnds c k)).length = 300 := by rw [quietPar, flatMap_bitList_length 10 (fun x => x), rsParity_length]
  have h := receiveData_sent 0 (0, 0) (List.replicate 5020 false ++ (quietEnds c k ++ quietPar (quietEnds c k))) (Nat.zero_lt_succ _)
    (by rw [List.length_append, List.length_append, List.length_replicate, hl, hp])
  rw [quietLv_val, h]
  dsimp only
  rw [judgeCode_quiet _ _ hz hm.1 hm.2, crcBits_quiet]
/-- Block 4, which acknowledges up to 8, and block 4, which asks for 7 again; their checks. -/
def ends7 : List Bool := quietEnds 33587204 442454991
def ends9 : List Bool := quietEnds 50360324 3778701046
def qb7 : LinkBlk := linkBlkOf (List.replicate 5020 false ++ ends7)
def qb9 : LinkBlk := linkBlkOf (List.replicate 5020 false ++ ends9)
theorem got6 : (receiveData 0 (0, 0) ((quietLv (quietEnds 0 0)).map Fin.val)).1 = .badCrc 0 := (received_quiet 0 0 (by decide +kernel) (by decide +kernel)).trans (if_neg (by decide +kernel))
theorem got7 : (receiveData 0 (0, 0) ((quietLv ends7).map Fin.val)).1 = .good qb7 0 := (received_quiet _ _ (by decide +kernel) (by decide +kernel)).trans (if_pos (by decide +kernel))
theorem got9 : (receiveData 0 (0, 0) ((quietLv ends9).map Fin.val)).1 = .good qb9 0 := (received_quiet _ _ (by decide +kernel) (by decide +kernel)).trans (if_pos (by decide +kernel))
theorem qb7_fields : qb7.nak = false ∧ qb7.idle = true ∧ qb7.ackseq = 8 := by
  unfold qb7 ends7 linkBlkOf quietEnds
  simp only [control_quiet _ _ (bitList_length 84 _)]
  decide +kernel
theorem qb9_fields : qb9.nak = true ∧ qb9.idle = true ∧ qb9.ackseq = 7 := by
  unfold qb9 ends9 linkBlkOf quietEnds
  simp only [control_quiet _ _ (bitList_length 84 _)]
  decide +kernel
def rx1 : RBlk := { seq := 7, payload := List.replicate 628 1, fpo := 1023, pk := [{ pkt := mir }] }
def rx2 : RBlk := { seq := 8, payload := List.replicate 628 2, fpo := 1023, pk := [{ pkt := pk0 }], resends := 3 }
def bl (b : LinkBlk) : List (Fin 4) := lv (blockSymbols 0 (0, 0) b 0).1
def norm (b : LinkBlk) : LinkBlk := { b with payload := (b.payload ++ List.replicate 628 0).take 628 }
def inLock : State := put (lkS 3 3 { busy with held := [(5, false, pk0), (6, false, mir), (9, false, pk0)] }) [(DEV_LSSTAT_STATE, 0, 0, 2), (DEV_LSCYC_CYC, 0, 0, 6)]
def f0 : Flit := fl 0
def bad1 : List (Fin 1096) := [5]
def fails8 (c r p : Nat) (s : State) : State := { s with net := { s.net with fails := [(wireKey c r p, 8)] } }
def backS (c r p vn vc : Nat) (l : List Nat) (s : State := running) : State := { s with net := { s.net with back := [(queueKey c r p vn vc, l)], used := [(queueKey c r p vn vc, 3)] } }
def dfl (p : Packet) : List Flit := (List.range (flitCount p.data.length)).map (fun i => { pkt := p, i := i })
def bulk : Packet := { dp with vn := 2, data := List.replicate 200 1, len := 13 }
def heads (p : Packet) (s : State := running) : State := { s with net := { s.net with ports := [(1, [{ pkt := p, i := 0 }])] } }

/-- LinksTrainAndGoDown: states and operands that meet the hypotheses, part 1. -/
theorem hyps_LinksTrainAndGoDown_1 :
    (∃ (l : Fin 26) (s : State), Hits LNK_CTL_TRAIN (linkHome l).1 (linkHome l).2 s ∧ s.linkExists l = true ∧ s.lkFld LNK_CTL_ENABLE l ≠ 0 ∧ s.lkFld LNK_STATE_STATE l ≠ 4) ∧
    (∃ (l : Fin 26) (s : State), Hits LNK_CTL_TRAIN (linkHome l).1 (linkHome l).2 s ∧ (s.linkExists l = false ∨ s.lkFld LNK_CTL_ENABLE l = 0 ∨ s.lkFld LNK_STATE_STATE l = 4)) ∧
    (∃ (l : Fin 26) (s : State), Hits LNK_CTL_ENABLE (linkHome l).1 (linkHome l).2 s ∧ s.linkExists l = true) ∧
    (∃ (l : Fin 26) (s : State), (s.lkFld LNK_STATE_STATE l = 1 ∨ (s.lkFld LNK_STATE_STATE l = 2 ∧ (s.link l).alignAt ≠ s.coachCycles + 1))) :=
  ⟨⟨5, (lkS 5 0 {} (put running [(LNK_TAPINIT_MAIN, 0, 20, 50)])), by unfold Hits; decide +kernel⟩,
    ⟨5, (put (lkS 5 4) [(LNK_LANECTL_TEST, 0, 23, 1)]), by unfold Hits; decide +kernel⟩,
    ⟨5, (lkS 5 2 busy), by unfold Hits; decide +kernel⟩,
    ⟨5, (lkS 5 1), by decide +kernel⟩⟩

/-- LinksTrainAndGoDown: states and operands that meet the hypotheses, part 2. -/
theorem hyps_LinksTrainAndGoDown_2 :
    (∃ (l : Fin 26) (s : State), (s.lkFld LNK_STATE_STATE l ∉ [1, 2] ∨ (s.lkFld LNK_STATE_STATE l = 2 ∧ (s.link l).alignAt = s.coachCycles + 1))) ∧
    (∃ (lane : Fin 96) (l : Nat) (s : State), l = laneLink s.couplerAside lane ∧ s.linkSleeps l = false ∧ 4 ≤ (s.laneS lane).missed ∧ s.lkFld LNK_STATE_STATE l ∈ [1, 2, 3]) ∧
    (∃ (lane : Fin 96) (s : State), (s.linkSleeps (laneLink s.couplerAside lane) = true ∨ (s.laneS lane).missed < 4)) ∧
    (∃ (lane : Fin 96) (test : Bool) (l : Nat) (s : State), Hits LNK_LANECTL_TEST (lane.val / 24) (lane.val % 24) s ∧ l = laneLink s.couplerAside lane ∧ s.lkFld LNK_STATE_STATE l ∉ [0, 4]) :=
  ⟨⟨5, (lkS 5 3), by decide +kernel⟩,
    ⟨22, 24, (missed4 22 (pairSync (lkS 24 3 busy aside))), by decide +kernel⟩,
    ⟨22, (pairSync (lkS 5 3 busy)), by decide +kernel⟩,
    ⟨22, true, 5, (lkS 5 3), by unfold Hits; decide +kernel⟩⟩

/-- LinksTrainAndGoDown: states and operands that meet the hypotheses, part 3. -/
theorem hyps_LinksTrainAndGoDown_3 :
    (∃ (lane : Fin 96) (test : Bool) (l : Nat) (s : State), Hits LNK_LANECTL_TEST (lane.val / 24) (lane.val % 24) s ∧ l = laneLink s.couplerAside lane ∧ s.lkFld LNK_STATE_STATE l ∈ [0, 4]) :=
  ⟨22, true, 5, (lkS 5 0), by unfold Hits; decide +kernel⟩

/-- SyncBlocksTrainTheLanes: states and operands that meet the hypotheses, part 1. -/
theorem hyps_SyncBlocksTrainTheLanes_1 :
    (∃ (lane : Fin 96) (req : BitVec 10) (done : Bool) (l : Nat) (s : State), l = laneLink s.couplerAside lane ∧ s.lkFld LNK_STATE_STATE l ∉ [0, 4] ∧ s.linkSleeps l = false ∧ 64 ≤ (s.laneS lane).dataSent) ∧
    (∃ (lane : Fin 96) (req : BitVec 10) (done : Bool) (l : Nat) (s : State), l = laneLink s.couplerAside lane ∧ (s.lkFld LNK_STATE_STATE l ∈ [0, 4] ∨ s.linkSleeps l = true ∨ (s.laneS lane).dataSent < 64)) ∧
    (∃ (lane : Fin 96) (levels : List (Fin 4)) (skew l : Nat) (s : State), l = laneLink s.couplerAside lane ∧ (s.lkFld LNK_STATE_STATE l ∈ [0, 4] ∨ s.linkSleeps l = true)) ∧
    (∃ (lane : Fin 96) (levels : List (Fin 4)) (skew l : Nat) (s : State), l = laneLink s.couplerAside lane ∧ s.lkFld LNK_STATE_STATE l ∉ [0, 4] ∧ s.linkSleeps l = false ∧ (receiveSync (s.fld LNK_LANESTAT_PARTNER (lane.val / 24) (lane.val % 24)) (levels.map Fin.val)).blk = none) :=
  ⟨⟨20, 0x155, true, 5, (lane0 20 { pendReq := some (6, 0x11), mine := false } (lkS 5 1)), by decide +kernel⟩,
    ⟨20, 0, false, 5, ((lkS 5 3).updLane 20 (fun x => { x with dataSent := 63 })), by decide +kernel⟩,
    ⟨20, [], 0, 5, (lkS 5 0), by decide +kernel⟩,
    ⟨20, (List.tail (sl 20 { lane := 20 })), 0, 5, (trained 5 2 busy), by decide +kernel⟩⟩

/-- SyncBlocksTrainTheLanes: states and operands that meet the hypotheses, part 2. -/
theorem hyps_SyncBlocksTrainTheLanes_2 :
    (∃ (lane : Fin 96) (levels : List (Fin 4)) (b : SyncBlk) (skew l : Nat) (s : State), l = laneLink s.couplerAside lane ∧ s.lkFld LNK_STATE_STATE l ∈ [1, 2, 3] ∧ s.linkSleeps l = false ∧ (receiveSync (s.fld LNK_LANESTAT_PARTNER (lane.val / 24) (lane.val % 24)) (levels.map Fin.val)).blk = some b) :=
  ⟨20, (sl 20 { lane := 20, done := true, tstamp := 77, rseq := 3, req := 9 }), { lane := 20, done := true, tstamp := 77, rseq := 3, req := 9 }, 0, 5, (lkS 5 1), by decide +kernel⟩

/-- LinkBlocksGoInOrderAndAreRetried: states and operands that meet the hypotheses, part 1. -/
theorem hyps_LinkBlocksGoInOrderAndAreRetried_1 :
    (∃ (lane : Fin 96) (l : Nat) (s : State), l = laneLink s.couplerAside lane ∧ s.linkUp l = true ∧ s.linkSleeps l = false ∧ (s.laneS lane).dataSent < 64) ∧
    (∃ (lane : Fin 96) (l : Nat) (s : State), l = laneLink s.couplerAside lane ∧ s.lkFld LNK_STATE_STATE l ∈ [1, 2] ∧ s.linkSleeps l = false ∧ (s.laneS lane).dataSent < 64) ∧
    (∃ (lane : Fin 96) (l : Nat) (s : State), l = laneLink s.couplerAside lane ∧ s.lkFld LNK_STATE_STATE l = 4 ∧ s.linkSleeps l = false ∧ s.fld LNK_LANECTL_TEST (lane.val / 24) (lane.val % 24) = 1) ∧
    (∃ (lane : Fin 96) (l : Nat) (s : State), l = laneLink s.couplerAside lane ∧ (s.linkSleeps l = true ∨ s.lkFld LNK_STATE_STATE l = 0 ∨ (s.lkFld LNK_STATE_STATE l = 4 ∧ s.fld LNK_LANECTL_TEST (lane.val / 24) (lane.val % 24) ≠ 1) ∨ (s.lkFld LNK_STATE_STATE l ≠ 4 ∧ 64 ≤ (s.laneS lane).dataSent))) :=
  ⟨⟨12, 3, (sent0 12 (lkS 3 3 busy)), by decide +kernel⟩,
    ⟨20, 5, (sent0 20 (lkS 5 1)), by decide +kernel⟩,
    ⟨20, 5, (testS 1), by decide +kernel⟩,
    ⟨20, 5, (lkS 5 3), by decide +kernel⟩⟩

/-- LinkBlocksGoInOrderAndAreRetried: states and operands that meet the hypotheses, part 2. -/
theorem hyps_LinkBlocksGoInOrderAndAreRetried_2 :
    (∃ (lane : Fin 96) (levels : List (Fin 4)) (l : Nat) (s : State), l = laneLink s.couplerAside lane ∧ s.linkUp l = true ∧ s.linkSleeps l = false ∧ (s.link l).lastNak = none ∧ (receiveData (s.laneS lane).rscr (s.laneS lane).rrun (levels.map Fin.val)).1 = .badCode) ∧
    (∃ (lane : Fin 96) (levels : List (Fin 4)) (l n : Nat) (s : State), (receiveData (s.laneS lane).rscr (s.laneS lane).rrun (levels.map Fin.val)).1 = .badCrc n ∧ l = laneLink s.couplerAside lane ∧ s.linkUp l = true ∧ s.linkSleeps l = false ∧ (s.link l).lastNak = none) ∧
    (∃ (lane : Fin 96) (levels : List (Fin 4)) (l n m : Nat) (b : LinkBlk) (x : RBlk) (r : List RBlk) (s : State), (receiveData (s.laneS lane).rscr (s.laneS lane).rrun (levels.map Fin.val)).1 = .good b n ∧ b.nak = false ∧ b.idle = true ∧ m = min (seqAhead x.seq (b.ackseq % 4096)) (r.length + 1) ∧ l = laneLink s.couplerAside lane ∧ s.linkUp l = true ∧ s.linkSleeps l = false ∧ (s.link l).retry = x :: r) ∧
    (∃ (lane : Fin 96) (levels : List (Fin 4)) (l n : Nat) (b : LinkBlk) (s : State), (receiveData (s.laneS lane).rscr (s.laneS lane).rrun (levels.map Fin.val)).1 = .good b n ∧ b.nak = false ∧ l = laneLink s.couplerAside lane ∧ s.linkUp l = true ∧ s.linkSleeps l = false ∧ (s.link l).lastNak = none) :=
  ⟨⟨13, [], 3, (lkS 3 3 { busy with lastNak := none }), by decide +kernel⟩,
    ⟨13, (quietLv (quietEnds 0 0)), 3, 0, (lkS 3 3 busy), got6, by decide +kernel⟩,
    ⟨12, (quietLv ends7), 3, 0, 1, qb7, rx1, [rx2], (lkS 3 3 busy), got7, qb7_fields.1, qb7_fields.2.1, by rw [qb7_fields.2.2]; decide +kernel, by decide +kernel⟩,
    ⟨12, (quietLv ends7), 3, 0, qb7, (lkS 3 3 busy), got7, qb7_fields.1, by decide +kernel⟩⟩

/-- LinkBlocksGoInOrderAndAreRetried: states and operands that meet the hypotheses, part 3. -/
theorem hyps_LinkBlocksGoInOrderAndAreRetried_3 :
    (∃ (lane : Fin 96) (levels : List (Fin 4)) (l n : Nat) (b : LinkBlk) (x : RBlk) (r : List RBlk) (s : State), (receiveData (s.laneS lane).rscr (s.laneS lane).rrun (levels.map Fin.val)).1 = .good b n ∧ b.nak = true ∧ b.idle = true ∧ b.ackseq % 4096 = x.seq ∧ l = laneLink s.couplerAside lane ∧ s.linkUp l = true ∧ s.linkSleeps l = false ∧ (s.link l).retry = x :: r ∧ x.resends < 8 ∧ (s.link l).resentAt ≠ s.netCycles + 1) ∧
    (∃ (lane : Fin 96) (levels : List (Fin 4)) (l : Nat) (s : State), l = laneLink s.couplerAside lane ∧ s.lkFld LNK_STATE_STATE l ∈ [1, 2] ∧ s.linkSleeps l = false) ∧
    (∃ (lane : Fin 96) (levels : List (Fin 4)) (l : Nat) (s : State), l = laneLink s.couplerAside lane ∧ s.lkFld LNK_STATE_STATE l = 4 ∧ s.linkSleeps l = false ∧ s.fld LNK_LANECTL_TEST (lane.val / 24) (lane.val % 24) = 1 ∧ s.fld LNK_LANECTL_LOOP (lane.val / 24) (lane.val % 24) ≠ 1) :=
  ⟨⟨12, (quietLv ends9), 3, 0, qb9, rx1, [rx2], (lkS 3 3 busy), got9, qb9_fields.1, qb9_fields.2.1, by rw [qb9_fields.2.2]; decide +kernel, by decide +kernel⟩,
    ⟨13, zeroLv, 3, (lkS 3 1), by decide +kernel⟩,
    ⟨20, zeroLv, 5, (testS 1), by decide +kernel⟩⟩

/-- LinksRetryAndDeliverInLockstep: states and operands that meet the hypotheses. -/
theorem hyps_LinksRetryAndDeliverInLockstep :
    (∃ (l : Fin 26) (x : RBlk) (r : List RBlk) (s : State), s.linkUp l = true ∧ s.linkSleeps l = false ∧ (s.link l).retry = x :: r ∧ (s.link l).resentAt ≠ s.netCycles + 1) ∧
    (∃ (l : Fin 26) (s : State), (s.linkUp l = false ∨ s.linkSleeps l = true ∨ (s.link l).retry = [] ∨ (s.link l).resentAt = s.netCycles + 1)) ∧
    (∃ (l : Fin 26) (late : Bool) (s : State), s.lockRun = true) ∧
    (∃ (l : Fin 26) (s : State), s.lockRun = false) :=
  ⟨⟨3, rx1, [rx2], (lkS 3 3 busy), by decide +kernel⟩,
    ⟨3, (lkS 3 2 busy), by decide +kernel⟩,
    ⟨3, true, inLock, by decide +kernel⟩,
    ⟨3, (inLock.setFld DEV_LSSTAT_STATE 0 0 0), by decide +kernel⟩⟩

/-- RouteSheetsAreCheckedAndFrozen: states and operands that meet the hypotheses, part 1. -/
theorem hyps_RouteSheetsAreCheckedAndFrozen_1 :
    (∃ (u : Fin 1024) (e : Fin 256) (w0 w1 w2 w3 : BitVec 32) (s : State), routeReason s.couplerAside u w0.toNat w1.toNat w2.toNat w3.toNat ≠ 0) ∧
    (∃ (u : Fin 1024) (e : Fin 256) (w0 w1 w2 w3 : BitVec 32) (s : State), routeReason s.couplerAside u w0.toNat w1.toNat w2.toNat w3.toNat = 0) ∧
    (∃ (aside : Bool) (u w0 w1 w2 w3 : Nat), routeReason aside u w0 w1 w2 w3 = 0) ∧
    (∃ (aside : Bool) (u w0 w1 w2 w3 : Nat), routeReason aside u w0 w1 w2 w3 = 0 ∧ bitsOf w3 31 1 = 1) :=
  ⟨⟨0, 9, rw0, 0, 0, rw3, running, by decide +kernel⟩,
    ⟨0, 9, rw0, 0, rw2, rw3, (sheetS 0 9 0), by decide +kernel⟩,
    ⟨false, 0, 1, 0, rw2.toNat, rw3.toNat, by decide +kernel⟩,
    ⟨false, 0, 1, 0, rw2.toNat, rw3.toNat, by decide +kernel⟩⟩

/-- RouteSheetsAreCheckedAndFrozen: states and operands that meet the hypotheses, part 2. -/
theorem hyps_RouteSheetsAreCheckedAndFrozen_2 :
    (∃ (u : Fin 1024) (p : Packet) (s s1 : State), Takes s u (fun p => p.vn == 1 && p.op == 3) p s1 ∧ p.rse < 256 ∧ s.entryFrozen u p.rse = false) ∧
    (∃ (u : Fin 1024) (s : State), s.takeInbox u (fun p => p.vn == 1 && p.op == 3) = none) ∧
    (∃ (u : Fin 1024) (e : Fin 256) (p : PktIn) (q : Packet) (s : State), hasNi s.couplerAside u = true ∧ s.netStill (u.val / 256) = false ∧ q = { vn := p.vn, op := p.op, sclass := p.sclass, ctx := p.ctx, tag := p.tag, status := p.status, addr := p.addr, aux := if p.vn = 2 then p.data.length else p.aux, len := if p.data = [] then p.len else ceilDiv p.data.length 16, data := p.data.map BitVec.toNat }) ∧
    (∃ (u : Fin 1024) (b : Fin 4) (e : Fin 256) (p : PktIn) (s : State), e.val = 0x20 + b) :=
  ⟨⟨0, stale, (inb 0 stale (sheetS 0 9 0)), (sheetS 0 9 0), by unfold Takes; decide +kernel⟩,
    ⟨0, running, by decide +kernel⟩,
    ⟨0, 9, pin0, qin, running, by decide +kernel⟩,
    ⟨0, 1, 0x21, pin0, (sheetS 0 0x21 0), by decide +kernel⟩⟩

/-- RouteSheetsAreCheckedAndFrozen: states and operands that meet the hypotheses, part 3. -/
theorem hyps_RouteSheetsAreCheckedAndFrozen_3 :
    (∃ (u : Fin 1024) (b : Fin 4) (e : Fin 256) (p : PktIn) (s : State), e.val = 0x24 + b) ∧
    (∃ (u : Fin 1024) (e : Fin 256) (p : PktIn) (s : State), p.vn = 0 ∧ p.data = [] ∧ 0 < p.len ∧ p.addr % 256 + p.len * 16 ≤ 256 ∧ e.val = (s.place p.addr).entry) ∧
    (∃ (u : Fin 1024) (d : SendTo) (p : PktIn) (s : State), (hasNi s.couplerAside u = false ∨ s.netStill (u.val / 256) = true)) :=
  ⟨⟨0, 1, 0x25, pin0, (sheetS 0 0x25 0), by decide +kernel⟩,
    ⟨0, (Fin.ofNat 256 (running.place 0x40).entry), pinH, (sheetS 0 0 0), by decide +kernel⟩,
    ⟨0x3C0, (.entry 9), pin0, running, by decide +kernel⟩⟩

/-- FlitsCreditsAndDelivery: states and operands that meet the hypotheses, part 1. -/
theorem hyps_FlitsCreditsAndDelivery_1 :
    (∃ (c : Car) (r : Fin 40) (p : Fin 13) (flips : List (Fin 1096)) (upset : List (Fin 1064)) (f g : Flit) (rest : List Flit) (s : State), s.netStill c = false ∧ mget [] s.net.wires (wireKey c r p) = f :: rest ∧ g = f.upset ((flips.map Fin.val).filter (· < 1064) ++ upset.map Fin.val) ∧ queueCap r p ≤ (mget [] s.net.queues (queueKey c r p f.pkt.vn f.vc)).length) ∧
    (∃ (c : Car) (r : Fin 40) (p : Fin 13) (flips : List (Fin 1096)) (upset : List (Fin 1064)) (f g : Flit) (rest : List Flit) (s : State), s.netStill c = false ∧ mget [] s.net.wires (wireKey c r p) = f :: rest ∧ g = f.upset ((flips.map Fin.val).filter (· < 1064) ++ upset.map Fin.val) ∧ (mget [] s.net.queues (queueKey c r p f.pkt.vn f.vc)).length < queueCap r p ∧ errorsPass (flips.map Fin.val) = false) ∧
    (∃ (c : Car) (r : Fin 40) (p : Fin 13) (flips : List (Fin 1096)) (upset : List (Fin 1064)) (f g : Flit) (rest : List Flit) (s : State), s.netStill c = false ∧ mget [] s.net.wires (wireKey c r p) = f :: rest ∧ g = f.upset ((flips.map Fin.val).filter (· < 1064) ++ upset.map Fin.val) ∧ (mget [] s.net.queues (queueKey c r p f.pkt.vn f.vc)).length < queueCap r p ∧ errorsPass (flips.map Fin.val) = true ∧ f.i = 0 ∧ 2 ≤ g.errsIn 0) ∧
    (∃ (c : Car) (r : Fin 40) (p : Fin 13) (flips : List (Fin 1096)) (upset : List (Fin 1064)) (f g : Flit) (rest : List Flit) (s : State) (m : List Flit), s.netStill c = false ∧ mget [] s.net.wires (wireKey c r p) = f :: rest ∧ g = f.upset ((flips.map Fin.val).filter (· < 1064) ++ upset.map Fin.val) ∧ (mget [] s.net.queues (queueKey c r p f.pkt.vn f.vc)).length < queueCap r p ∧ errorsPass (flips.map Fin.val) = true ∧ (f.i ≠ 0 ∨ (g.errsIn 0 = 0 ∧ ∀ n, n < 4 → s.probeMatches c n r p f.pkt = false)) ∧ m = mget [] s.net.queues (queueKey c r p f.pkt.vn f.vc) ++ [g]) :=
  ⟨⟨0, 1, 2, [], [], (fl 0), ((fl 0).upset []), [], (q6 (queueKey 0 1 2 0 0) 6 (wired 0 1 2 [fl 0])), by decide +kernel⟩,
    ⟨0, 1, 2, bad1, [], (fl 0), ((fl 0).upset [5]), [], (q6 (queueKey 0 1 2 0 0) 5 (wired 0 1 2 [fl 0])), by decide +kernel⟩,
    ⟨0, 1, 2, [], [3, 9], (fl 0), ((fl 0).upset [3, 9]), [fl 1], (q6 (queueKey 0 1 2 0 0) 5 (wired 0 1 2 [fl 0, fl 1])), by decide +kernel⟩,
    ⟨0, 1, 2, [], [], (fl 0), ((fl 0).upset []), [fl 1], (q6 (queueKey 0 1 2 0 0) 5 (wired 0 1 2 [fl 0, fl 1])), (List.replicate 5 (fl 0) ++ [(fl 0).upset []]), by decide +kernel⟩⟩

/-- FlitsCreditsAndDelivery: states and operands that meet the hypotheses, part 2. -/
theorem hyps_FlitsCreditsAndDelivery_2 :
    (∃ (c : Car) (r : Fin 40) (p : Fin 13) (flips : List (Fin 1096)) (upset : List (Fin 1064)) (s : State), (s.netStill c = true ∨ mget [] s.net.wires (wireKey c r p) = [])) ∧
    (∃ (c : Car) (r : Fin 40) (p : Fin 13) (vn : Fin 6) (vc : Fin 3) (x : Nat) (rest : List Nat) (s : State), mget [] s.net.back (queueKey c r p vn vc) = x :: rest ∧ s.netStill c = false ∧ ¬ (s.fld DEV_PERTNOC_EN 0 = 1 ∧ s.fld DEV_PERTNOC_CARRIAGE 0 = c ∧ s.fld DEV_PERTNOC_ROUTER 0 = r ∧ s.fld DEV_PERTNOC_PORT 0 = (if 8 ≤ p.val then 4 else p.val) ∧ s.netCycles < x + s.fld DEV_PERTNOC_HOLD 0)) ∧
    (∃ (c : Car) (r : Fin 40) (p : Fin 13) (vn : Fin 6) (vc : Fin 3) (x : Nat) (rest : List Nat) (s : State), mget [] s.net.back (queueKey c r p vn vc) = x :: rest ∧ s.netStill c = false ∧ s.fld DEV_PERTNOC_EN 0 = 1 ∧ s.fld DEV_PERTNOC_CARRIAGE 0 = c ∧ s.fld DEV_PERTNOC_ROUTER 0 = r ∧ s.fld DEV_PERTNOC_PORT 0 = (if 8 ≤ p.val then 4 else p.val) ∧ s.netCycles < x + s.fld DEV_PERTNOC_HOLD 0) ∧
    (∃ (c : Car) (r : Fin 40) (upset : List (Nat × Fin 1064)) (p : Packet) (fs : List Flit) (s : State), s.netStill c = false ∧ firstWhole (mget [] s.net.ports (c.val * 64 + r.val)) = some p ∧ fs = upsetFlits upset (flitsOf (mget [] s.net.ports (c.val * 64 + r.val)) p.uid) ∧ ((r.val < 24 ∧ s.fld COA_STATE_STATE (c.val * 24 + r.val) = 6) ∨ s.fabricFull p = true)) :=
  ⟨⟨0, 1, 2, [], [], running, by decide +kernel⟩,
    ⟨0, 1, 0, 0, 0, 7, [8], (backS 0 1 0 0 0 [7, 8]), by decide +kernel⟩,
    ⟨0, 38, 9, 0, 0, 7, [8], (put (backS 0 38 9 0 0 [7, 8]) [(DEV_PERTNOC_EN, 0, 0, 1), (DEV_PERTNOC_CARRIAGE, 0, 0, 0), (DEV_PERTNOC_ROUTER, 0, 0, 38), (DEV_PERTNOC_PORT, 0, 0, 4), (DEV_PERTNOC_HOLD, 0, 0, 50)]), by decide +kernel⟩,
    ⟨0, 1, [], dp, (dfl dp), ((dport 0 1 dp).setFld COA_STATE_STATE 1 0 6), by decide +kernel⟩⟩

/-- FlitsCreditsAndDelivery: states and operands that meet the hypotheses, part 3. -/
theorem hyps_FlitsCreditsAndDelivery_3 :
    (∃ (c : Car) (r : Fin 40) (upset : List (Nat × Fin 1064)) (p : Packet) (fs : List Flit) (s : State), s.netStill c = false ∧ firstWhole (mget [] s.net.ports (c.val * 64 + r.val)) = some p ∧ fs = upsetFlits upset (flitsOf (mget [] s.net.ports (c.val * 64 + r.val)) p.uid) ∧ (24 ≤ r.val ∨ s.fld COA_STATE_STATE (c.val * 24 + r.val) ≠ 6) ∧ s.fabricFull p = false ∧ headerBad fs = true) ∧
    (∃ (c : Car) (r : Fin 40) (upset : List (Nat × Fin 1064)) (p : Packet) (fs : List Flit) (s : State) (u : Nat) (stale : Bool), s.netStill c = false ∧ firstWhole (mget [] s.net.ports (c.val * 64 + r.val)) = some p ∧ fs = upsetFlits upset (flitsOf (mget [] s.net.ports (c.val * 64 + r.val)) p.uid) ∧ (24 ≤ r.val ∨ s.fld COA_STATE_STATE (c.val * 24 + r.val) ≠ 6) ∧ s.fabricFull p = false ∧ headerBad fs = false ∧ s.unitFor c r p = some u ∧ stale = (if mget 0 s.net.heads p.uid = 0 then s.staleAt u p else mget 0 s.net.heads p.uid == 2)) ∧
    (∃ (c : Car) (r : Fin 40) (upset : List (Nat × Fin 1064)) (p : Packet) (u : Nat) (s : State), s.netStill c = false ∧ (24 ≤ r.val ∨ s.fld COA_STATE_STATE (c.val * 24 + r.val) ≠ 6) ∧ firstWhole (mget [] s.net.ports (c.val * 64 + r.val)) = none ∧ s.firstHead (mget [] s.net.ports (c.val * 64 + r.val)) = some p ∧ s.unitFor c r p = some u) :=
  ⟨⟨0, 1, [(0, 3), (0, 9)], dp, (upsetFlits [(0, 3), (0, 9)] (dfl dp)), (dport 0 1 dp), by decide +kernel⟩,
    ⟨0, 1, [], dp, (dfl dp), (dport 0 1 dp), 1, false, by decide +kernel⟩,
    ⟨0, 1, [], bulk, 1, (heads bulk), by decide +kernel⟩⟩

end W08

namespace W09

/-- A read and a write of HBM as packets. -/
def rdPk : Packet := { vn := 0, op := 0, addr := 0x4040, len := 4, src := 1, dst := 0x20, hops := 2, ctx := 7, tag := 3 }
def wrPk : Packet := { vn := 2, op := 0, addr := 0x4040, len := 4, src := 1, dst := 0x20, hops := 2, ctx := 7, tag := 4, aux := 64, data := List.replicate 64 5 }
/-- Controller 0 in RUN with a packet at edge port 1. -/
def hbmS (p : Packet) (h : HbmS := {}) (mode : Nat := 2) : State := (running.setHfld HBM_CTL_MODE 0 mode).updHbm 0 (fun _ => { h with edgeIn := [(1, [p])] })
def rq (n : Nat) (wr : Bool) : HReq := { pkt := if wr then wrPk else rdPk, pa := 0x4040, n := 64, write := wr, cls := 1, entered := 0, order := n }
def fullP (p : Nat) (wr : Bool) : HbmS := { pcs := [(p, if wr then { wq := List.replicate 32 (rq 0 true) } else { rq := List.replicate 32 (rq 0 false) })] }
def placeOf : Place := running.place 0x4040
/-- A device of a pair whose context 7 it holds ACTIVE, with mirror range 0 over the first 2 MiB. -/
def mirrS (s : State) : State := put ((s.setLk LNK_STATE_STATE 24 3).setLk LNK_STATE_STATE 25 3) [(CPL_STATE_STATE, 0, 0, 3), (CPL_CTXROLE_ROLE, 0, 7, 1), (CPL_MRNG_EN, 0, 0, 1), (CPL_MRNG_SIZE, 0, 0, 1), (CPL_MRNG_PBASE, 0, 0, 3), (CPL_CTL_MODE, 0, 0, 1)]
def oneReq (wr : Bool) (h : HbmS := {}) (r : HReq := rq 0 wr) : State := (running.setHfld HBM_CTL_MODE 0 2).updHbm 0 (fun _ => { h with pcs := [(placeOf.pc, if wr then { wq := [r] } else { rq := [r] })] })
def rdone : HReq := { rq 0 false with data := (List.range 64).map (· + 3), issued := 2 }
def rd0 (flips : List (Nat × Fin 272)) : List BurstRead := (burstsOf 0x4040 64).zipIdx.map (fun x => readBurst ((rdone.data.drop (32 * x.2)).take 32) false (flipsIn flips x.2))
def readS0 (x : HReq) : State := { (running.updHbm 0 (fun _ => { reads := [x, rq 1 false] })) with hbm := { bytes := [], poison := [] } }
def readS : State := { (running.updHbm 0 (fun _ => { reads := [{ rq 0 false with data := List.replicate 64 9 }, rq 1 false] })) with hbm := { bytes := [], poison := [] } }
def rows (h : HbmS := {}) (cyc : Nat := 100) : State := running.updHbm 0 (fun _ => { h with cyc := cyc, pcs := [(3, { openRow := [(4, some 7), (5, some 8)], lastUse := [(4, 36), (5, 37)], refDue := [(4, 1)], rq := [rq 0 false] })] })
def rmw : HReq := { rq 0 true with pa := 0x4044, n := 4, pkt := { wrPk with addr := 0x4044, data := [1, 2, 300, 4] } }
def poisS : State := { readS0 rmw with hbm := { bytes := [(0x4046, 9)], poison := [(0x4044 / 32, 1)] } }

/-- HbmRequestsAreQueuedServedAndReturned: states and operands that meet the hypotheses, part 1. -/
theorem hyps_HbmRequestsAreQueuedServedAndReturned_1 :
    (∃ (c : Car) (e : Fin 8) (p : Packet) (rest : List Packet) (n : Nat) (pl : Place) (s : State), n = c.val * 2 + e.val / 4 ∧ mget [] (s.hbmCtl n).edgeIn e = p :: rest ∧ pl = s.place (p.addr % 2 ^ 39)) ∧
    (∃ (c : Car) (e : Fin 8) (p : Packet) (rest : List Packet) (n : Nat) (pl : Place) (s : State), n = c.val * 2 + e.val / 4 ∧ mget [] (s.hbmCtl n).edgeIn e = p :: rest ∧ pl = s.place (p.addr % 2 ^ 39) ∧ s.edgeTakes c e p = true ∧ s.needsCopy p = false) ∧
    (∃ (c : Car) (e : Fin 8) (p : Packet) (rest : List Packet) (n : Nat) (pl : Place) (s : State), n = c.val * 2 + e.val / 4 ∧ mget [] (s.hbmCtl n).edgeIn e = p :: rest ∧ pl = s.place (p.addr % 2 ^ 39) ∧ (s.edgeTakes c e p = false ∨ s.needsCopy p = true)) ∧
    (∃ (c : Car) (e : Fin 8) (p : Packet) (rest : List Packet) (n : Nat) (pl : Place) (s : State), n = c.val * 2 + e.val / 4 ∧ mget [] (s.hbmCtl n).edgeIn e = p :: rest ∧ pl = s.place (p.addr % 2 ^ 39) ∧ (s.edgeTakes c e p = false ∨ s.needsCopy p = false)) :=
  ⟨⟨0, 1, rdPk, [], 0, placeOf, (hbmS rdPk), by decide +kernel⟩,
    ⟨0, 1, wrPk, [], 0, placeOf, (hbmS wrPk), by decide +kernel⟩,
    ⟨0, 1, wrPk, [], 0, placeOf, (mirrS (hbmS wrPk)), by decide +kernel⟩,
    ⟨0, 1, wrPk, [], 0, placeOf, (hbmS wrPk), by decide +kernel⟩⟩

/-- HbmRequestsAreQueuedServedAndReturned: states and operands that meet the hypotheses, part 2. -/
theorem hyps_HbmRequestsAreQueuedServedAndReturned_2 :
    (∃ (c : Car) (e : Fin 8) (p : Packet) (rest : List Packet) (n : Nat) (pl : Place) (s : State), n = c.val * 2 + e.val / 4 ∧ mget [] (s.hbmCtl n).edgeIn e = p :: rest ∧ pl = s.place (p.addr % 2 ^ 39) ∧ s.needsCopy p = true ∧ s.edgeTakes c e p = true ∧ s.linkUp 24 = true ∧ s.linkUp 25 = true) ∧
    (∃ (c : Car) (e : Fin 8) (s : State), mget [] (s.hbmCtl (c.val * 2 + e.val / 4)).edgeIn e = []) ∧
    (∃ (n : Fin 8) (p b : Nat) (more : List Nat) (r : HReq) (s : State), p < 64 ∧ s.hfld HBM_CTL_MODE n = 2 ∧ (s.hbmCtl n).selfRef = false ∧ (s.hbmCtl n).reads = [] ∧ (∀ q, q < 64 → q ≠ p → ((s.hbmCtl n).pc q).rq = [] ∧ ((s.hbmCtl n).pc q).wq = [] ∧ ((s.hbmCtl n).pc q).refDue = []) ∧ ((s.hbmCtl n).pc p).rq = (if r.write then [] else [r]) ∧ ((s.hbmCtl n).pc p).wq = (if r.write then [r] else []) ∧ ((s.hbmCtl n).pc p).refDue = [] ∧ ((s.hbmCtl n).pc p).late = [] ∧ r.rest = b :: more) ∧
    (∃ (n : Fin 8) (s : State), (s.hfld HBM_CTL_MODE n ≠ 2 ∨ (s.hbmCtl n).selfRef = true)) :=
  ⟨⟨0, 1, wrPk, [], 0, placeOf, { mirrS (hbmS wrPk) with couplerAside := true }, by decide +kernel⟩,
    ⟨0, 1, running, by decide +kernel⟩,
    ⟨0, placeOf.pc, 0x202, [0x203], (rq 0 false), (oneReq false), by decide +kernel⟩,
    ⟨0, running, by decide +kernel⟩⟩

/-- HbmRequestsAreQueuedServedAndReturned: states and operands that meet the hypotheses, part 3. -/
theorem hyps_HbmRequestsAreQueuedServedAndReturned_3 :
    (∃ (n : Fin 8) (flips : List (Nat × Fin 272)) (r : HReq) (rest : List HReq) (l : List BurstRead) (s : State), (s.hbmCtl n).reads = r :: rest ∧ s.readDelayed n r = true) ∧
    (∃ (n : Fin 8) (flips : List (Nat × Fin 272)) (r : HReq) (rest : List HReq) (l : List BurstRead) (s : State), (s.hbmCtl n).reads = r :: rest ∧ s.readDelayed n r = false ∧ r.write = false ∧ l = (burstsOf r.pa r.n).zipIdx.map (fun x => readBurst ((r.data.drop (32 * x.2)).take 32) (r.bad.contains x.1) (flipsIn flips x.2))) ∧
    (∃ (n : Fin 8) (flips : List (Nat × Fin 272)) (r : HReq) (rest : List HReq) (l : List BurstRead) (s : State), (s.hbmCtl n).reads = r :: rest ∧ r.write = true ∧ s.poisoned (r.pa / 32) = false ∧ (∀ x ∈ flips, x.1 ≠ 0)) ∧
    (∃ (n : Fin 8) (flips : List (Nat × Fin 272)) (r : HReq) (rest : List HReq) (l : List BurstRead) (s : State), (s.hbmCtl n).reads = r :: rest ∧ r.write = true ∧ s.poisoned (r.pa / 32) = true ∧ (∀ x ∈ flips, x.1 ≠ 0) ∧ 0 < r.pkt.data.length ∧ covers r.pa r.pkt.data.length (r.pa / 32) = false) :=
  ⟨⟨0, [], rdone, [rq 1 false], [], (put (readS0 rdone) [(DEV_PERTMEM_EN, 0, 0, 1), (DEV_PERTMEM_CARMASK, 0, 0, 15), (DEV_PERTMEM_EXTRA, 0, 0, 9)]), by decide +kernel⟩,
    ⟨0, [], rdone, [rq 1 false], (rd0 []), (readS0 rdone), by decide +kernel⟩,
    ⟨0, [], rmw, [rq 1 false], [], (readS0 rmw), by decide +kernel⟩,
    ⟨0, [], rmw, [rq 1 false], [], poisS, by decide +kernel⟩⟩

/-- HbmRequestsAreQueuedServedAndReturned: states and operands that meet the hypotheses, part 4. -/
theorem hyps_HbmRequestsAreQueuedServedAndReturned_4 :
    (∃ (n : Fin 8) (flips : List (Nat × Fin 272)) (s : State), (s.hbmCtl n).reads = []) ∧
    (∃ (bytes : List Nat) (i j : Nat), i < 266) ∧
    (∃ (bytes : List Nat) (i j : Nat), i < 266 ∧ j < 266 ∧ i ≠ j) :=
  ⟨⟨0, [], running, by decide +kernel⟩,
    ⟨[7], 3, 0, by decide +kernel⟩,
    ⟨[7], 3, 265, by decide +kernel⟩⟩

/-- HbmRefreshesTrainsAndChangesRate: states and operands that meet the hypotheses, part 1. -/
theorem hyps_HbmRefreshesTrainsAndChangesRate_1 :
    (∃ (n : Fin 8) (p b : Fin 64) (s : State), mget 0 ((s.hbmCtl n).pc p).lastUse b + 64 ≤ (s.hbmCtl n).cyc) ∧
    (∃ (n : Fin 8) (p b : Fin 64) (s : State), (s.hbmCtl n).cyc < mget 0 ((s.hbmCtl n).pc p).lastUse b + 64) ∧
    (∃ (n : Fin 8) (p b : Fin 64) (s : State), s.hfld HBM_CTL_REFMODE n = 0 ∧ (s.hbmCtl n).selfRef = false ∧ max (s.hbmCtl n).refFrom (mget 0 ((s.hbmCtl n).pc p).refAt b) + s.refInterval n ≤ (s.hbmCtl n).cyc) ∧
    (∃ (n : Fin 8) (p b : Fin 64) (s : State), (s.hfld HBM_CTL_REFMODE n ≠ 0 ∨ (s.hbmCtl n).selfRef = true ∨ (s.hbmCtl n).cyc < max (s.hbmCtl n).refFrom (mget 0 ((s.hbmCtl n).pc p).refAt b) + s.refInterval n)) :=
  ⟨⟨0, 3, 4, rows, by decide +kernel⟩,
    ⟨0, 3, 5, rows, by decide +kernel⟩,
    ⟨0, 3, 4, (rows {} 100000000), by decide +kernel⟩,
    ⟨0, 3, 4, ((rows {} 100000000).setHfld HBM_CTL_REFMODE 0 1), by decide +kernel⟩⟩

/-- HbmRefreshesTrainsAndChangesRate: states and operands that meet the hypotheses, part 2. -/
theorem hyps_HbmRefreshesTrainsAndChangesRate_2 :
    (∃ (n : Fin 8) (d : Nat) (s : State), d = ((s.hbmCtl n).cyc - (s.hbmCtl n).slotBase) % s.hfld HBM_REFSLOT_SLOT n ∧ (s.hfld HBM_CTL_REFMODE n = 1 ∧ s.hfld HBM_REFSLOT_SLOT n ≠ 0 ∧ (d = 0 ∨ (s.hfld HBM_STATUS_HOT n = 1 ∧ d = s.hfld HBM_REFSLOT_SLOT n / 2)))) ∧
    (∃ (n : Fin 8) (d : Nat) (s : State), d = ((s.hbmCtl n).cyc - (s.hbmCtl n).slotBase) % s.hfld HBM_REFSLOT_SLOT n ∧ (¬ (s.hfld HBM_CTL_REFMODE n = 1 ∧ s.hfld HBM_REFSLOT_SLOT n ≠ 0 ∧ (d = 0 ∨ (s.hfld HBM_STATUS_HOT n = 1 ∧ d = s.hfld HBM_REFSLOT_SLOT n / 2))))) ∧
    (∃ (n : Fin 8) (v : BitVec 32) (s : State), s.answersAt (HBM_ADJMAP_PERM.bar0 (n.val / 2) (n.val % 2) + 4) = true ∧ s.withheld = false) ∧
    (∃ (n : Fin 8) (m : Fin 4) (s : State), Hits HBM_CTL_MODE (n.val / 2) (n.val % 2) s) :=
  ⟨⟨0, 0, (put rows [(HBM_CTL_REFMODE, 0, 0, 1), (HBM_REFSLOT_SLOT, 0, 0, 50)]), by decide +kernel⟩,
    ⟨0, 25, (put (rows {} 125) [(HBM_CTL_REFMODE, 0, 0, 1), (HBM_REFSLOT_SLOT, 0, 0, 50)]), by decide +kernel⟩,
    ⟨0, 0xFEDCBA98, (running.setHfld HBM_ADJMAP_PERM 0 0x76543210), by decide +kernel⟩,
    ⟨0, 2, (put running [(HBM_CTL_TRSET, 0, 0, 1), (HBM_CTL_MODE, 0, 0, 1)]), by unfold Hits; decide +kernel⟩⟩

/-- HbmRefreshesTrainsAndChangesRate: states and operands that meet the hypotheses, part 3. -/
theorem hyps_HbmRefreshesTrainsAndChangesRate_3 :
    (∃ (n : Fin 8) (o : Nat) (refuse : Prop) (s : State), Hits HBM_CTL_FCREQ (n.val / 2) (n.val % 2) s ∧ o = n.val % 2 * 2 + (1 - s.hfld HBM_STATUS_ACTSET n) ∧ ((refuse ↔ s.hfld HBM_CTL_MODE n ≠ 2 ∨ s.fld HBM_TSET_VALID (n.val / 2) o = 0 ∨ s.fld HBM_TSET_RATE (n.val / 2) o = 3 ∨ s.fld DEV_LSSTAT_STATE 0 = 1 ∨ s.fld DEV_LSSTAT_STATE 0 = 2 ∨ s.hfld HBM_STATUS_FCBUSY n = 1)) ∧ s.pm.running = true) ∧
    (∃ (n : Fin 8) (o : Nat) (refuse : Prop) (s : State), Hits HBM_CTL_FCREQ (n.val / 2) (n.val % 2) s ∧ o = n.val % 2 * 2 + (1 - s.hfld HBM_STATUS_ACTSET n) ∧ ((refuse ↔ s.hfld HBM_CTL_MODE n ≠ 2 ∨ s.fld HBM_TSET_VALID (n.val / 2) o = 0 ∨ s.fld HBM_TSET_RATE (n.val / 2) o = 3 ∨ s.fld DEV_LSSTAT_STATE 0 = 1 ∨ s.fld DEV_LSSTAT_STATE 0 = 2 ∨ s.hfld HBM_STATUS_FCBUSY n = 1)) ∧ s.pm.running = false ∧ refuse) ∧
    (∃ (n : Fin 8) (o : Nat) (refuse : Prop) (s : State), Hits HBM_CTL_FCREQ (n.val / 2) (n.val % 2) s ∧ o = n.val % 2 * 2 + (1 - s.hfld HBM_STATUS_ACTSET n) ∧ ((refuse ↔ s.hfld HBM_CTL_MODE n ≠ 2 ∨ s.fld HBM_TSET_VALID (n.val / 2) o = 0 ∨ s.fld HBM_TSET_RATE (n.val / 2) o = 3 ∨ s.fld DEV_LSSTAT_STATE 0 = 1 ∨ s.fld DEV_LSSTAT_STATE 0 = 2 ∨ s.hfld HBM_STATUS_FCBUSY n = 1)) ∧ s.pm.running = false ∧ ¬ refuse) ∧
    (∃ (n : Fin 8) (s : State), (s.hbmCtl n).fcStep = 1 ∧ (s.hbmCtl n).drained = true) :=
  ⟨⟨0, 1, True, { running with pm := { running.pm with running := true } }, by unfold Hits; decide +kernel⟩,
    ⟨0, 1, True, running, by unfold Hits; decide +kernel⟩,
    ⟨0, 1, False, (put running [(HBM_CTL_MODE, 0, 0, 2), (HBM_TSET_VALID, 0, 1, 1)]), by unfold Hits; decide +kernel⟩,
    ⟨0, (running.updHbm 0 (fun h => { h with fcStep := 1 })), by decide +kernel⟩⟩

/-- HbmRefreshesTrainsAndChangesRate: states and operands that meet the hypotheses, part 4. -/
theorem hyps_HbmRefreshesTrainsAndChangesRate_4 :
    (∃ (n : Fin 8) (s : State), ((s.hbmCtl n).fcStep ≠ 1 ∨ (s.hbmCtl n).drained = false)) ∧
    (∃ (n : Fin 8) (s : State), (s.hbmCtl n).fcStep = 3 ∧ s.hfld HBM_STATUS_ACTSET n < 2) ∧
    (∃ (n : Fin 8) (s : State), (s.hbmCtl n).fcStep ≠ 3) ∧
    (∃ (n : Fin 8) (p : Fin 64) (flips : List (Fin 272)) (s : State), Hits HBM_TRCMD_OP (n.val / 2) (n.val % 2) s ∧ s.hfld HBM_CTL_MODE n = 1) :=
  ⟨⟨0, (rows { fcStep := 1 }), by decide +kernel⟩,
    ⟨0, ((running.updHbm 0 (fun h => { h with fcStep := 3, selfRef := true })).setHfld HBM_STATUS_FCBUSY 0 1), by decide +kernel⟩,
    ⟨0, running, by decide +kernel⟩,
    ⟨3, 5, [], (running.setHfld HBM_CTL_MODE 3 1), by unfold Hits; decide +kernel⟩⟩

/-- HbmRefreshesTrainsAndChangesRate: states and operands that meet the hypotheses, part 5. -/
theorem hyps_HbmRefreshesTrainsAndChangesRate_5 :
    (∃ (n : Fin 8) (p : Fin 64) (flips : List (Fin 272)) (s : State), Hits HBM_TRCMD_OP (n.val / 2) (n.val % 2) s ∧ s.hfld HBM_CTL_MODE n = 1) ∧
    (∃ (n : Fin 8) (p : Fin 64) (flips : List (Fin 272)) (s : State), Hits HBM_TRCMD_OP (n.val / 2) (n.val % 2) s ∧ s.hfld HBM_CTL_MODE n = 1) ∧
    (∃ (n : Fin 8) (p : Fin 64) (flips : List (Fin 272)) (s : State), Hits HBM_TRCMD_OP (n.val / 2) (n.val % 2) s ∧ s.hfld HBM_CTL_MODE n ≠ 1) ∧
    (∃ (n : Fin 8) (op lanes : Nat) (s : State), (s.hbmCtl n).trCmd = some (op, lanes) ∧ lanes < 512) :=
  ⟨⟨3, 5, [], (running.setHfld HBM_CTL_MODE 3 1), by unfold Hits; decide +kernel⟩,
    ⟨3, 5, [], (put running [(HBM_CTL_MODE, 1, 1, 1), (HBM_TRRES_MRW, 1, 1, 0x1234)]), by unfold Hits; decide +kernel⟩,
    ⟨3, 5, [], running, by unfold Hits; decide +kernel⟩,
    ⟨3, 2, 0x155, ((running.updHbm 3 (fun h => { h with trCmd := some (2, 0x155) })).setHfld HBM_TRRES_MRW 3 0xffff), by decide +kernel⟩⟩

/-- HbmRefreshesTrainsAndChangesRate: states and operands that meet the hypotheses, part 6. -/
theorem hyps_HbmRefreshesTrainsAndChangesRate_6 :
    (∃ (n : Fin 8) (s : State), (s.hbmCtl n).trCmd = none) :=
  ⟨3, running, by decide +kernel⟩

end W09

namespace W10

/-- Bay 1 in a state of Table 10.9 with contents. -/
def bayS (st : Nat) (y : BayS) (s : State := running) : State := (s.setFld TND_STATE_STATE 1 0 st).updBay 1 (fun _ => y)
def tw : Packet := { vn := 2, op := 0, addr := 0x1200, src := 1, dst := 0x146, hops := 2, ctx := 7, tag := 4, aux := 64, len := 4, data := List.replicate 64 5 }
def tr : Packet := { vn := 0, op := 0, addr := 0x11f0, src := 1, dst := 0x146, hops := 2, ctx := 7, tag := 5, len := 4 }
def tp (typ st : Nat) (data : List Nat := []) : TPkt := { typ := typ, tag := 6, status := st, len := data.length, data := data }
def ac (typ : Nat) (data : List Nat := []) (rs : Nat := 0) : BayAcc := { req := { typ := typ, tag := 6, addr := 0x1200, len := 64, data := data }, group := 2, resends := rs }
def rqB (p : Packet) : BayReq := { id := 2, pkt := p, left := 1 }
def wearRec : List Nat := withCrc (leBytes 4 250 ++ leBytes 4 1500 ++ leBytes 4 0) true
def md1 (sp : Nat := 5000) (m : ModS := {}) : ModS := { m with present := true, capGib := 1, wear := { a := { gen := 4, val := [100, sp] }, b := { gen := 3, val := [50, 9000] } } }
def acM : BayAcc := { req := { typ := 6, tag := 6, addr := 1 }, group := 0 }
def sealP : TPkt := tp 4 0 (withCrc (leBytes 8 77 ++ leBytes 4 9) true)
def mdS (x y : Copy) : ModS := { md1 with sealed := { a := x, b := y } }

/-- TenderAccessesAreServedInOrder: states and operands that meet the hypotheses, part 1. -/
theorem hyps_TenderAccessesAreServedInOrder_1 :
    (∃ (b : Fin 4) (s : State), (s.bay b).inq = []) ∧
    (∃ (b : Fin 4) (p : Packet) (rest : List Packet) (s : State), (s.bay b).inq = p :: rest ∧ s.fld CPL_STATE_STATE 0 ≠ 7 ∧ s.fld REC_STATUS_PFW 0 = 0 ∧ s.stoppedAt 8 b = true) ∧
    (∃ (b : Fin 4) (p : Packet) (rest : List Packet) (s : State), (s.bay b).inq = p :: rest ∧ s.fld CPL_STATE_STATE 0 ≠ 7 ∧ s.fld REC_STATUS_PFW 0 = 0 ∧ s.stoppedAt 8 b = false ∧ p.vn ≠ 5 ∧ (s.mirroring = false ∨ s.pairRole p.ctx ≠ 1 ∨ s.journalWrite b p = false) ∧ s.bayState b ∈ [0, 1, 2, 6]) ∧
    (∃ (b : Fin 4) (p : Packet) (rest : List Packet) (s : State), (s.bay b).inq = p :: rest ∧ s.fld CPL_STATE_STATE 0 ≠ 7 ∧ s.fld REC_STATUS_PFW 0 = 0 ∧ s.stoppedAt 8 b = false ∧ p.vn ≠ 5 ∧ (s.mirroring = false ∨ s.pairRole p.ctx ≠ 1 ∨ s.journalWrite b p = false) ∧ s.bayState b ∈ [3, 5] ∧ (s.bay b).detaching = false ∧ (s.bay b).acc.length + (partsOf p).length ≤ 1024 ∧ s.carState b < 2 ∧ (∀ a ∈ (s.bay b).acc, a.sent = true)) :=
  ⟨⟨1, (bayS 3 {}), by decide +kernel⟩,
    ⟨1, tw, [tr], { bayS 3 { inq := [tw, tr] } with pwr := { stopped := [(8, 1)] } }, by decide +kernel⟩,
    ⟨1, tw, [tr], (bayS 0 { inq := [tw, tr] }), by decide +kernel⟩,
    ⟨1, tw, [tr], (bayS 3 { inq := [tw, tr] }), by decide +kernel⟩⟩

/-- TenderAccessesAreServedInOrder: states and operands that meet the hypotheses, part 2. -/
theorem hyps_TenderAccessesAreServedInOrder_2 :
    (∃ (b : Fin 4) (p : Packet) (rest : List Packet) (s : State), (s.bay b).inq = p :: rest ∧ s.fld CPL_STATE_STATE 0 ≠ 7 ∧ s.fld REC_STATUS_PFW 0 = 0 ∧ s.stoppedAt 8 b = false ∧ p.vn ≠ 5 ∧ (s.mirroring = false ∨ s.pairRole p.ctx ≠ 1 ∨ s.journalWrite b p = false) ∧ s.bayState b ∈ [3, 5] ∧ (s.bay b).detaching = false ∧ (1024 < (s.bay b).acc.length + (partsOf p).length ∨ 2 ≤ s.carState b)) ∧
    (∃ (b : Fin 4) (p : Packet) (rest : List Packet) (s : State), (s.bay b).inq = p :: rest ∧ s.fld CPL_STATE_STATE 0 ≠ 7 ∧ s.fld REC_STATUS_PFW 0 = 0 ∧ s.stoppedAt 8 b = false ∧ p.vn ≠ 5 ∧ (s.mirroring = false ∨ s.pairRole p.ctx ≠ 1 ∨ s.journalWrite b p = false) ∧ s.bayState b ∈ [4, 7] ∧ (s.bay b).detaching = false ∧ (s.bay b).network.length + (partsOf p).length ≤ 1024) ∧
    (∃ (b : Fin 4) (flips : List Nat) (s : State), (s.bay b).arrival 8 = none) ∧
    (∃ (b : Fin 4) (flips : List Nat) (s : State), (s.bay b).arrival 9 = none) :=
  ⟨⟨1, tw, [tr], ((bayS 3 { inq := [tw, tr] }).setCarState 1 2), by decide +kernel⟩,
    ⟨1, tw, [tr], (bayS 4 { inq := [tw, tr] }), by decide +kernel⟩,
    ⟨1, [], (bayS 3 {}), by decide +kernel⟩,
    ⟨1, [], (bayS 3 {}), by decide +kernel⟩⟩

/-- TenderAccessesAreServedInOrder: states and operands that meet the hypotheses, part 3. -/
theorem hyps_TenderAccessesAreServedInOrder_3 :
    (∃ (b : Fin 4) (flips : List Nat) (s : State), (s.bay b).arrival 10 = none) ∧
    (∃ (b : Fin 4) (flips : List Nat) (p : TPkt) (rest : List TPkt) (s : State), (s.bay b).toDev = p :: rest ∧ p.received flips = none ∧ p.typ = 8) ∧
    (∃ (b : Fin 4) (flips : List Nat) (p : TPkt) (rest : List TPkt) (s : State), (s.bay b).toDev = p :: rest ∧ p.received flips = none ∧ p.typ = 9) ∧
    (∃ (b : Fin 4) (flips : List Nat) (p : TPkt) (rest : List TPkt) (s : State), (s.bay b).toDev = p :: rest ∧ p.received flips = none ∧ p.typ = 10) :=
  ⟨⟨1, [], (bayS 3 {}), by decide +kernel⟩,
    ⟨1, [3], (tp 8 0), [tp 9 0], (bayS 3 { toDev := [tp 8 0, tp 9 0] }), by decide +kernel⟩,
    ⟨1, [3], (tp 9 0), [], (bayS 3 { toDev := [tp 9 0] }), by decide +kernel⟩,
    ⟨1, [3], (tp 10 0), [], (bayS 3 { toDev := [tp 10 0] }), by decide +kernel⟩⟩

/-- TenderAccessesAreServedInOrder: states and operands that meet the hypotheses, part 4. -/
theorem hyps_TenderAccessesAreServedInOrder_4 :
    (∃ (b : Fin 4) (flips : List Nat) (p q : TPkt) (rest : List TPkt) (a : BayAcc) (r : BayReq) (s : State), (s.bay b).toDev = p :: rest ∧ p.received flips = some q ∧ p.typ = 10 ∧ crcGood q.data = true) ∧
    (∃ (b : Fin 4) (flips : List Nat) (p q : TPkt) (rest : List TPkt) (a : BayAcc) (r : BayReq) (s : State), (s.bay b).toDev = p :: rest ∧ p.received flips = some q ∧ (s.bay b).acc.find? (fun x => x.req.tag == q.tag && x.sent) = some a ∧ (s.bay b).own = [] ∧ (s.bay b).reqList = [r] ∧ r.id = a.group ∧ r.left = 1 ∧ r.awaits = [] ∧ r.status = 0 ∧ r.pkt.vn ≠ 5 ∧ q.status = 0 ∧ (s.bay b).detaching = false ∧ p.typ = 8 ∧ a.req.typ = 1 ∧ r.pkt.isWrite = false ∧ r.got = []) ∧
    (∃ (b : Fin 4) (flips : List Nat) (p q : TPkt) (rest : List TPkt) (a : BayAcc) (r : BayReq) (s : State), (s.bay b).toDev = p :: rest ∧ p.received flips = some q ∧ (s.bay b).acc.find? (fun x => x.req.tag == q.tag && x.sent) = some a ∧ (s.bay b).own = [] ∧ (s.bay b).reqList = [r] ∧ r.id = a.group ∧ r.left = 1 ∧ r.awaits = [] ∧ r.status = 0 ∧ r.pkt.vn ≠ 5 ∧ q.status = 0 ∧ (s.bay b).detaching = false ∧ p.typ = 9 ∧ a.req.typ = 2 ∧ r.pkt.isWrite = true) ∧
    (∃ (b : Fin 4) (flips : List Nat) (p q : TPkt) (rest : List TPkt) (a : BayAcc) (r : BayReq) (s : State), (s.bay b).toDev = p :: rest ∧ p.received flips = some q ∧ p.typ = 9 ∧ (s.bay b).acc.find? (fun x => x.req.tag == q.tag && x.sent) = some a ∧ (s.bay b).own = [] ∧ a.req.typ = 4 ∧ (s.bay b).attachPending = true ∧ s.bayState b = 2) :=
  ⟨⟨1, [], (tp 10 0 wearRec), (tp 10 0 wearRec), [], (ac 1), (rqB tr), (bayS 3 { toDev := [tp 10 0 wearRec] }), by decide +kernel⟩,
    ⟨1, [], (tp 8 0 [1, 2, 3]), (tp 8 0 [1, 2, 3]), [], (ac 1), (rqB tr), (bayS 3 { toDev := [tp 8 0 [1, 2, 3]], acc := [ac 1], reqList := [rqB tr] }), by decide +kernel⟩,
    ⟨1, [], (tp 9 0), (tp 9 0), [], (ac 2), (rqB tw), (bayS 3 { toDev := [tp 9 0], acc := [ac 2], reqList := [rqB tw] }), by decide +kernel⟩,
    ⟨1, [], (tp 9 0), (tp 9 0), [], (ac 4 (withCrc (leBytes 8 77 ++ leBytes 4 9) true)), (rqB tr), (bayS 2 { toDev := [tp 9 0], acc := [ac 4 (withCrc (leBytes 8 77 ++ leBytes 4 9) true)], attachPending := true }), by decide +kernel⟩⟩

/-- TenderAccessesAreServedInOrder: states and operands that meet the hypotheses, part 5. -/
theorem hyps_TenderAccessesAreServedInOrder_5 :
    (∃ (b : Fin 4) (flips : List Nat) (p q : TPkt) (rest : List TPkt) (a : BayAcc) (r : BayReq) (s : State), (s.bay b).toDev = p :: rest ∧ p.received flips = some q ∧ p.typ = 9 ∧ (s.bay b).acc.find? (fun x => x.req.tag == q.tag && x.sent) = some a ∧ a.startsMaint = true ∧ (s.bay b).maintKind ≠ 0) ∧
    (∃ (b : Fin 4) (tag : Fin 1024) (s : State) (a : BayAcc), (s.bay b).acc.find? (fun x => x.sent && x.req.tag == tag.val && !x.startsMaint) = some a ∧ a.resends < 3) ∧
    (∃ (b : Fin 4) (tag : Fin 1024) (s : State) (a : BayAcc), (s.bay b).acc.find? (fun x => x.sent && x.req.tag == tag.val && !x.startsMaint) = some a ∧ 3 ≤ a.resends) ∧
    (∃ (b : Fin 4) (tag : Fin 1024) (s : State), (s.bay b).acc.find? (fun x => x.sent && x.req.tag == tag.val && !x.startsMaint) = none) :=
  ⟨⟨1, [], (tp 9 4), (tp 9 4), [], acM, (rqB tr), ((bayS 3 { toDev := [tp 9 4], acc := [acM], maintKind := 1 }).setFld TND_MAINT_BUSY 1 0 1), by decide +kernel⟩,
    ⟨1, 6, (bayS 3 { acc := [ac 1 [] 2], reqList := [rqB tr] }), (ac 1 [] 2), by decide +kernel⟩,
    ⟨1, 6, (bayS 3 { acc := [ac 1 [] 3], reqList := [rqB tr] }), (ac 1 [] 3), by decide +kernel⟩,
    ⟨1, 7, (bayS 3 { acc := [ac 1 [] 2], reqList := [rqB tr] }), by decide +kernel⟩⟩

/-- ModulesKeepTheirMediaAndTables: states and operands that meet the hypotheses, part 1. -/
theorem hyps_ModulesKeepTheirMediaAndTables_1 :
    (∃ (b : Fin 4) (flips : List Nat) (media torn ended : Bool) (moved worn : Nat) (p : TPkt) (rest : List TPkt) (s : State), (s.bay b).toMod = p :: rest ∧ (s.bay b).modl.present = true ∧ p.received flips = none ∧ p.typ = 2) ∧
    (∃ (b : Fin 4) (flips : List Nat) (media torn ended : Bool) (moved worn : Nat) (p : TPkt) (rest : List TPkt) (s : State), (s.bay b).toMod = p :: rest ∧ (s.bay b).modl.present = true ∧ p.received flips = none ∧ p.typ ∈ [1, 3, 5]) ∧
    (∃ (b : Fin 4) (flips : List Nat) (media torn ended : Bool) (moved worn : Nat) (p : TPkt) (rest : List TPkt) (s : State), (s.bay b).toMod = p :: rest ∧ (s.bay b).modl.present = true ∧ p.received flips = none ∧ p.typ = 4) ∧
    (∃ (b : Fin 4) (flips : List Nat) (media torn ended : Bool) (moved worn : Nat) (p : TPkt) (rest : List TPkt) (s : State), (s.bay b).toMod = p :: rest ∧ (s.bay b).modl.present = true ∧ p.received flips = none ∧ p.typ = 6) :=
  ⟨⟨1, [3], false, false, false, 0, 3, (tp 2 0 [7]), [tp 1 0], (bayS 3 { toMod := [tp 2 0 [7], tp 1 0], modl := md1 1999 }), by decide +kernel⟩,
    ⟨1, [3], false, false, false, 0, 3, (tp 3 0), [tp 1 0], (bayS 3 { toMod := [tp 3 0, tp 1 0], modl := md1 1999 }), by decide +kernel⟩,
    ⟨1, [3], false, false, false, 0, 3, (tp 4 0 [7]), [], (bayS 3 { toMod := [tp 4 0 [7]], modl := md1 1999 }), by decide +kernel⟩,
    ⟨1, [3], false, false, false, 0, 3, (tp 6 0), [], (bayS 3 { toMod := [tp 6 0], modl := md1 1999 }), by decide +kernel⟩⟩

/-- ModulesKeepTheirMediaAndTables: states and operands that meet the hypotheses, part 2. -/
theorem hyps_ModulesKeepTheirMediaAndTables_2 :
    (∃ (b : Fin 4) (flips : List Nat) (media torn ended : Bool) (moved worn : Nat) (s : State), (s.bay b).request [2] = none) ∧
    (∃ (b : Fin 4) (flips : List Nat) (media torn ended : Bool) (moved worn : Nat) (s : State), (s.bay b).request [1, 3, 5] = none) ∧
    (∃ (b : Fin 4) (flips : List Nat) (media torn ended : Bool) (moved worn : Nat) (s : State), (s.bay b).request [4] = none) ∧
    (∃ (b : Fin 4) (flips : List Nat) (media torn ended : Bool) (moved worn : Nat) (s : State), (s.bay b).request [6] = none ∧ ((s.bay b).modl.present = false ∨ (s.bay b).modl.maint = 0)) :=
  ⟨⟨1, [], false, false, false, 0, 3, (bayS 3 { modl := md1 }), by decide +kernel⟩,
    ⟨1, [], false, false, false, 0, 3, (bayS 3 { modl := md1 }), by decide +kernel⟩,
    ⟨1, [], false, false, false, 0, 3, (bayS 3 { modl := md1 }), by decide +kernel⟩,
    ⟨1, [], false, false, true, 0, 3, (bayS 3 { modl := md1 }), by decide +kernel⟩⟩

/-- ModulesKeepTheirMediaAndTables: states and operands that meet the hypotheses, part 3. -/
theorem hyps_ModulesKeepTheirMediaAndTables_3 :
    (∃ (b : Fin 4) (flips : List Nat) (media torn : Bool) (worn : Nat) (p q : TPkt) (rest : List TPkt) (s : State), (s.bay b).toMod = p :: rest ∧ (s.bay b).modl.present = true ∧ p.received flips = some q ∧ p.typ = 2 ∧ (s.bay b).modl.spare < 2000 ∧ mget 0 (s.bay b).modl.acked q.tag ≠ q.addr + 1) ∧
    (∃ (b : Fin 4) (flips : List Nat) (media torn : Bool) (worn : Nat) (p q : TPkt) (rest : List TPkt) (s : State), (s.bay b).toMod = p :: rest ∧ (s.bay b).modl.present = true ∧ p.received flips = some q ∧ p.typ = 2 ∧ (2000 ≤ (s.bay b).modl.spare ∨ mget 0 (s.bay b).modl.acked q.tag = q.addr + 1) ∧ (s.bay b).modl.capGib * 2 ^ 30 < q.addr + q.len) ∧
    (∃ (b : Fin 4) (flips : List Nat) (media torn : Bool) (worn : Nat) (p q : TPkt) (rest : List TPkt) (s : State), (s.bay b).toMod = p :: rest ∧ (s.bay b).modl.present = true ∧ p.received flips = some q ∧ p.typ = 2 ∧ (2000 ≤ (s.bay b).modl.spare ∨ mget 0 (s.bay b).modl.acked q.tag = q.addr + 1) ∧ q.addr + q.len ≤ (s.bay b).modl.capGib * 2 ^ 30) ∧
    (∃ (b : Fin 4) (flips : List Nat) (media torn : Bool) (worn : Nat) (p q : TPkt) (rest : List TPkt) (s : State), (s.bay b).toMod = p :: rest ∧ (s.bay b).modl.present = true ∧ p.received flips = some q ∧ p.typ = 2 ∧ (2000 ≤ (s.bay b).modl.spare ∨ mget 0 (s.bay b).modl.acked q.tag = q.addr + 1) ∧ q.addr + q.len ≤ (s.bay b).modl.capGib * 2 ^ 30) :=
  ⟨⟨1, [], false, false, 3, (tp 2 0 [7]), (tp 2 0 [7]), [tp 1 0], (bayS 3 { toMod := [tp 2 0 [7], tp 1 0], modl := md1 1999 }), by decide +kernel⟩,
    ⟨1, [], false, false, 3, { tp 2 0 [7] with addr := 2 ^ 30 }, { tp 2 0 [7] with addr := 2 ^ 30 }, [], (bayS 3 { toMod := [{ tp 2 0 [7] with addr := 2 ^ 30 }], modl := md1 }), by decide +kernel⟩,
    ⟨1, [], false, false, 3, (tp 2 0 [7, 200]), (tp 2 0 [7, 200]), [], (bayS 3 { toMod := [tp 2 0 [7, 200]], modl := md1 }), by decide +kernel⟩,
    ⟨1, [], false, false, 3, (tp 2 0 [7, 200]), (tp 2 0 [7, 200]), [], (bayS 3 { toMod := [tp 2 0 [7, 200]], modl := md1 }), by decide +kernel⟩⟩

/-- ModulesKeepTheirMediaAndTables: states and operands that meet the hypotheses, part 4. -/
theorem hyps_ModulesKeepTheirMediaAndTables_4 :
    (∃ (b : Fin 4) (flips : List Nat) (media torn : Bool) (worn : Nat) (p q : TPkt) (rest : List TPkt) (s : State), (s.bay b).toMod = p :: rest ∧ (s.bay b).modl.present = true ∧ p.received flips = some q ∧ p.typ = 2 ∧ (2000 ≤ (s.bay b).modl.spare ∨ mget 0 (s.bay b).modl.acked q.tag = q.addr + 1) ∧ q.addr + q.len ≤ (s.bay b).modl.capGib * 2 ^ 30) ∧
    (∃ (b : Fin 4) (flips : List Nat) (media torn : Bool) (worn : Nat) (p q : TPkt) (rest : List TPkt) (s : State), (s.bay b).toMod = p :: rest ∧ (s.bay b).modl.present = true ∧ p.received flips = some q ∧ p.typ ∈ [1, 3, 5]) ∧
    (∃ (b : Fin 4) (flips : List Nat) (media torn : Bool) (worn : Nat) (p q : TPkt) (rest : List TPkt) (s : State), (s.bay b).toMod = p :: rest ∧ (s.bay b).modl.present = true ∧ p.received flips = some q ∧ p.typ = 4) ∧
    (∃ (b : Fin 4) (flips : List Nat) (media torn : Bool) (worn : Nat) (p q : TPkt) (rest : List TPkt) (s : State) (moved : Nat) (ended : Bool), (s.bay b).toMod = p :: rest ∧ (s.bay b).modl.present = true ∧ p.received flips = some q ∧ p.typ = 6 ∧ q.addr % 4 ≠ 3) :=
  ⟨⟨1, [], false, false, 3, (tp 2 0 [7, 200]), (tp 2 0 [7, 200]), [], (bayS 3 { toMod := [tp 2 0 [7, 200]], modl := md1 }), by decide +kernel⟩,
    ⟨1, [], false, false, 3, { tp 1 0 with len := 16 }, { tp 1 0 with len := 16 }, [], (bayS 3 { toMod := [{ tp 1 0 with len := 16 }], modl := md1 }), by decide +kernel⟩,
    ⟨1, [], false, false, 3, sealP, sealP, [], (bayS 2 { toMod := [sealP], modl := mdS { gen := 4 } { gen := 3 } }), by decide +kernel⟩,
    ⟨1, [], false, false, 3, { tp 6 0 with addr := 2 }, { tp 6 0 with addr := 2 }, [], (bayS 3 { toMod := [{ tp 6 0 with addr := 2 }], modl := md1 }), 0, false, by decide +kernel⟩⟩

/-- ModulesKeepTheirMediaAndTables: states and operands that meet the hypotheses, part 5. -/
theorem hyps_ModulesKeepTheirMediaAndTables_5 :
    (∃ (b : Fin 4) (flips : List Nat) (media torn : Bool) (worn : Nat) (p q : TPkt) (rest : List TPkt) (s : State) (moved : Nat) (ended : Bool), (s.bay b).toMod = p :: rest ∧ (s.bay b).modl.present = true ∧ p.received flips = some q ∧ p.typ = 6 ∧ q.addr % 4 = 3) ∧
    (∃ (b : Fin 4) (flips : List Nat) (media ended : Bool) (moved worn : Nat) (s : State), (s.bay b).request [6] = none ∧ (s.bay b).modl.present = true ∧ (s.bay b).modl.maint ≠ 0) :=
  ⟨⟨1, [], false, false, 3, { tp 6 0 with addr := 3 }, { tp 6 0 with addr := 3 }, [], (bayS 3 { toMod := [{ tp 6 0 with addr := 3 }], modl := md1 }), 7, false, by decide +kernel⟩,
    ⟨1, [], true, true, (2 ^ 30), 3, (bayS 3 { modl := { md1 with maint := 1, maintTag := 44 } }), by decide +kernel⟩⟩

/-- TenderBaysChangeState: states and operands that meet the hypotheses, part 1. -/
theorem hyps_TenderBaysChangeState_1 :
    (∃ (b : Fin 4) (m : Option ModIn) (s : State), s.fld TND_STATE_PRSNT b = 0 ∧ (s.bay b).own = [] ∧ ((s.bay b).acc.filter (·.sent)).length < 1024 ∧ s.bayState b ∈ [0, 4]) ∧
    (∃ (b : Fin 4) (m : Option ModIn) (s : State), s.fld TND_STATE_PRSNT b = 1 ∧ (s.bay b).maintKind = 0 ∧ s.bayState b ∈ [3, 5, 7]) ∧
    (∃ (b : Fin 4) (m : Option ModIn) (s : State), s.fld TND_STATE_PRSNT b = 1 ∧ (s.bay b).maintKind = 0 ∧ s.bayState b ∈ [1, 2, 6]) ∧
    (∃ (b : Fin 4) (m : Option ModIn) (s : State), s.fld TND_STATE_PRSNT b = 1 ∧ (s.bay b).maintKind ≠ 0 ∧ s.bayState b ∈ [3, 5]) :=
  ⟨⟨1, (some { serial := 2 ^ 63 + 5, spare := 9000, capGib := 2 }), ({ bayS 0 {} with media := [(2 ^ 43 + 7, 3), (2 ^ 44 + 7, 3)] }), by decide +kernel⟩,
    ⟨1, none, ((bayS 3 { acc := [ac 1, { ac 6 with group := 0 }], toMod := [tp 1 0], toDev := [tp 1 0], reqList := [rqB tr], modl := md1 }).setFld TND_STATE_PRSNT 1 0 1), by decide +kernel⟩,
    ⟨1, none, ((bayS 6 { acc := [ac 1], modl := md1 }).setFld TND_STATE_PRSNT 1 0 1), by decide +kernel⟩,
    ⟨1, none, (put (bayS 3 { acc := [ac 1, acM], maintKind := 1, modl := md1 }) [(TND_STATE_PRSNT, 1, 0, 1), (TND_MAINT_BUSY, 1, 0, 1)]), by decide +kernel⟩⟩

/-- TenderBaysChangeState: states and operands that meet the hypotheses, part 2. -/
theorem hyps_TenderBaysChangeState_2 :
    (∃ (b : Fin 4) (present : Bool) (m : Option ModIn) (s : State), present = s.flag TND_STATE_PRSNT b) ∧
    (∃ (b : Fin 4) (s : State), s.fld TND_STATE_PRSNT b = 1 ∧ s.bayState b ≠ 0 ∧ s.bayState b ≠ 6) ∧
    (∃ (b : Fin 4) (s : State), (s.fld TND_STATE_PRSNT b ≠ 1 ∨ s.bayState b = 0 ∨ s.bayState b = 6)) ∧
    (∃ (b : Fin 4) (s : State), (s.bay b).lockWait = true) :=
  ⟨⟨1, false, none, (bayS 0 {}), by decide +kernel⟩,
    ⟨1, ((bayS 3 {}).setFld TND_STATE_PRSNT 1 0 1), by decide +kernel⟩,
    ⟨1, (bayS 3 {}), by decide +kernel⟩,
    ⟨1, (bayS 3 { lockWait := true, acc := [ac 1], reqList := [rqB tr] }), by decide +kernel⟩⟩

/-- TenderBaysChangeState: states and operands that meet the hypotheses, part 3. -/
theorem hyps_TenderBaysChangeState_3 :
    (∃ (b : Fin 4) (s : State), (s.bay b).lockWait = false) ∧
    (∃ (b : Fin 4) (s : State), s.bayState b = 7) ∧
    (∃ (b : Fin 4) (s : State), s.bayState b ≠ 7) ∧
    (∃ (b : Fin 4) (s : State), s.bayState b = 4) :=
  ⟨⟨1, (bayS 3 {}), by decide +kernel⟩,
    ⟨1, (bayS 7 { acc := [ac 1], reqList := [rqB tr] }), by decide +kernel⟩,
    ⟨1, (bayS 3 {}), by decide +kernel⟩,
    ⟨1, (bayS 4 { acc := [ac 1], reqList := [rqB tr, rqB { tw with vn := 5, src := 25 }], detaching := true }), by decide +kernel⟩⟩

/-- TenderBaysChangeState: states and operands that meet the hypotheses, part 4. -/
theorem hyps_TenderBaysChangeState_4 :
    (∃ (b : Fin 4) (s : State), s.bayState b ≠ 4) ∧
    (∃ (b : Fin 4) (s : State), Hits TND_CTL_ATTACH b 0 s ∧ s.bayState b = 2 ∧ (s.bay b).attachPending = false ∧ (s.bay b).own = [] ∧ (s.bay b).acc.length < 1024) ∧
    (∃ (b : Fin 4) (s : State), Hits TND_CTL_ATTACH b 0 s ∧ (s.bayState b ≠ 2 ∨ (s.bay b).attachPending = true)) ∧
    (∃ (b : Fin 4) (s : State), Hits TND_CTL_DETACH b 0 s ∧ s.bayState b ∈ [3, 5] ∧ (s.bay b).reqList = []) :=
  ⟨⟨1, (bayS 3 {}), by decide +kernel⟩,
    ⟨1, (bayS 2 { sealRec := some (3, 2 ^ 32 - 1) }), by unfold Hits; decide +kernel⟩,
    ⟨1, (bayS 3 {}), by unfold Hits; decide +kernel⟩,
    ⟨1, (bayS 5 {}), by unfold Hits; decide +kernel⟩⟩

/-- TenderBaysChangeState: states and operands that meet the hypotheses, part 5. -/
theorem hyps_TenderBaysChangeState_5 :
    (∃ (b : Fin 4) (s : State), Hits TND_CTL_DETACH b 0 s ∧ s.bayState b ∈ [3, 5] ∧ (s.bay b).reqList ≠ []) ∧
    (∃ (b : Fin 4) (s : State), Hits TND_CTL_DETACH b 0 s ∧ s.bayState b ∉ [3, 5]) ∧
    (∃ (b : Fin 4) (k : Nat) (s : State), Hits TND_MAINT_START b 0 s ∧ k = s.fld TND_MAINT_KIND b ∧ (s.bayState b ∉ [3, 5] ∨ s.fld TND_MAINT_BUSY b = 1 ∨ k = 0 ∨ k = 3 ∨ (k = 2 ∧ s.bayState b = 5))) ∧
    (∃ (b : Fin 4) (k : Nat) (s : State), Hits TND_MAINT_START b 0 s ∧ k = s.fld TND_MAINT_KIND b ∧ s.bayState b ∈ [3, 5] ∧ s.fld TND_MAINT_BUSY b ≠ 1 ∧ k ∈ [1, 2] ∧ ¬ (k = 2 ∧ s.bayState b = 5) ∧ (s.bay b).own = [] ∧ (s.bay b).acc.length < 1024) :=
  ⟨⟨1, (bayS 5 { reqList := [rqB tr] }), by unfold Hits; decide +kernel⟩,
    ⟨1, (bayS 2 {}), by unfold Hits; decide +kernel⟩,
    ⟨1, 0, (bayS 3 {}), by unfold Hits; decide +kernel⟩,
    ⟨1, 2, ((bayS 3 {}).setFld TND_MAINT_KIND 1 0 2), by unfold Hits; decide +kernel⟩⟩

/-- TenderBaysChangeState: states and operands that meet the hypotheses, part 6. -/
theorem hyps_TenderBaysChangeState_6 :
    (∃ (b : Fin 4) (s : State), Hits TND_MAINT_STOP b 0 s ∧ s.fld TND_MAINT_BUSY b = 1 ∧ (s.bay b).maintKind ≠ 0 ∧ (s.bay b).own = [] ∧ (s.bay b).acc.length < 1024) ∧
    (∃ (b : Fin 4) (s : State), Hits TND_MAINT_STOP b 0 s ∧ s.fld TND_MAINT_BUSY b ≠ 1) ∧
    (∃ (b : Fin 4) (s : State), (s.bay b).maintKind ≠ 0 ∧ (s.bay b).own = [] ∧ (s.bay b).acc.length < 1024) ∧
    (∃ (b : Fin 4) (s : State), (s.bay b).maintKind = 0) :=
  ⟨⟨1, ((bayS 3 { maintKind := 1 }).setFld TND_MAINT_BUSY 1 0 1), by unfold Hits; decide +kernel⟩,
    ⟨1, (bayS 3 {}), by unfold Hits; decide +kernel⟩,
    ⟨1, (bayS 3 { maintKind := 1 }), by decide +kernel⟩,
    ⟨1, (bayS 3 {}), by decide +kernel⟩⟩

end W10

namespace W11

/-- Carriage 1 with a fabric at a stage of Table 12.5, clock 2 running. -/
def fabSt (stage : Nat) (f : FabS := {}) (s : State := running) : State := (put s [(FAB_STATE_STAGE, 1, 0, stage), (FAB_CLKCFG_EN, 1, 2, 1), (FAB_CLKCFG_RUNNING, 1, 2, 1), (FAB_PORTCTX_BOUND, 1, 3, 1), (FAB_PORTCTX_CONTEXT, 1, 3, 7), (FAB_PORTCTL_CLK, 1, 3, 2)]).updFab 1 (fun _ => f)
def cellA (ce : Bool) : CellCfg := { ce := .const ce, use := 1, di := .const true, t := 2 ^ 63 + 5, ffA := { src := 3, direct := .const true } }
def oneCell (ce : Bool) (clk : Nat := 2) : FabS := { cfg := { carts := [(300, { clk := clk, cells := [(4, cellA ce)] })], ios := [(5, { cart := 300, rise := .const true, oe := .const true })] } }
def ioS (s : State) : State := put s [(IOB_CFG_CLK, 1, 5, 2), (IOB_CFG_OUT, 1, 5, 1)]
def fpin (vn : Fin 6) (op aux : Nat) (data : List Byte := []) : PktIn := { vn := vn, op := op, ctx := 4, tag := 9, addr := 0x40, aux := aux, data := data, len := 1 }
def cfgS (st src : Nat) (l : LoadS := {}) : State := { (put running [(CFG_STATE_STATE, 0, 0, st), (CFG_STATE_SRC, 0, 0, src), (CFG_CTL_SRC, 0, 0, src), (CFG_SLOT_SLOT, 0, 0, 4), (FAB_STATE_STAGE, 2, 0, 3), (FAB_STATE_LOADED, 2, 0, 1), (CFG_CTL_START, 0, 0, 1), (CFG_CTL_ABORT, 0, 0, 1)]) with load := l, seqMem := [(5, 6)], fab := [(2, { frames := [(3, [1])], dead := true, latched := [(4, 1)] })] }
/-- A header of one section and no encryption, for this device. -/
def hdr0 (nsect len : Nat) (s : State) : List Nat :=
  let h := leBytes 4 0xC0A57A9E ++ leBytes 2 1 ++ leBytes 2 (s.fld DEV_ID_DEVCODE 0) ++ [s.fld DEV_ID_STEPL 0 * 16 + s.fld DEV_ID_STEPD 0, 0] ++ leBytes 2 nsect ++ leBytes 4 0x1234 ++ leBytes 8 len ++ leBytes 36 0
  h ++ leBytes 4 (crc32c h)
def sect (typ car slot n a0 a1 : Nat) (body : List Nat) : List Nat := [typ, car] ++ leBytes 2 slot ++ leBytes 4 n ++ leBytes 4 a0 ++ leBytes 4 a1 ++ body
def ld0 : LoadS := { headed := true, nsect := 3, sect := 1, length := 4096, pos := 96, device := some (true, false, 5) }
def sq5 : List Nat := sect 5 0 0xFFFF 32 (0x23 + 1022 * 2 ^ 16) 2 (leBytes 16 (7 * 2 ^ 100) ++ leBytes 16 0)
def sq6 : List Nat := sect 5 0 7 32 (0x23 + 1022 * 2 ^ 16) 2 (leBytes 16 (7 * 2 ^ 100) ++ leBytes 16 0)
def ld1 : LoadS := { headed := true, nsect := 3, sect := 3, length := 4096, pos := 4080, device := some (true, true, 5), plain := [1, 2, 3], regs := [(1, 0x880000, 1)], imgid := 9 }
def trl (l : LoadS) : List Nat := let h := leBytes 4 0x5E1DC0A5 ++ leBytes 2 l.nsect ++ leBytes 6 0; h ++ leBytes 4 (crc32c (l.plain ++ h))
def keyS : State := put running ((List.range 8).map (fun i => (KEY_RAMDATA_DATA, 0, i, i + 1)))
def takingS : PortIn := { pkt := { vn := 2, op := 0, ctx := 7, data := [1, 2, 3] }, need := 100 }
def tagS : State := cfgS 2 0 { ld1 with enc := true, pos := 4064 }
def tagRaw : LoadIn := .bytes (bytesB (leBytes 16 3))
/-- Whatever the tag is, one of two given tags differs from it. -/
theorem tag_differs : ∃ tag : LoadIn, (tagS.streamBytes tag false).length = 16 ∧
    Config.gcmTag tagS.loadKey tagS.load.iv tagS.load.header (tagS.load.cipher ++ tagS.streamBytes tagRaw false) ≠ leNat (tagS.streamBytes tag false) := by
  by_cases h : Config.gcmTag tagS.loadKey tagS.load.iv tagS.load.header (tagS.load.cipher ++ tagS.streamBytes tagRaw false) = 4
  · exact ⟨.bytes (bytesB (leBytes 16 3)), by decide +kernel, by rw [h]; decide +kernel⟩
  · exact ⟨.bytes (bytesB (leBytes 16 4)), by decide +kernel, fun e => h (e.trans (by decide +kernel))⟩

/-- FabricClocksPortsScrubAndRelease: states and operands that meet the hypotheses, part 1. -/
theorem hyps_FabricClocksPortsScrubAndRelease_1 :
    (∃ (c : Car) (n : Fin 8) (rising : Bool) (pins : BitVec 24) (ready : BitVec 16) (s : State), (s.fld FAB_CLKCFG_EN c n ≠ 1 ∨ s.fld FAB_CLKCFG_RUNNING c n ≠ 1 ∨ s.netStill c = true)) ∧
    (∃ (c : Car) (n : Fin 8) (rising : Bool) (pins : BitVec 24) (ready : BitVec 16) (s : State), s.fld FAB_CLKCFG_EN c n = 1 ∧ s.fld FAB_CLKCFG_RUNNING c n = 1 ∧ s.netStill c = false) ∧
    (∃ (c : Car) (n : Fin 16) (f : FabFlit) (s : State), s.portOpen c n = false) ∧
    (∃ (c : Car) (n : Fin 16) (p : PktIn) (rse : Fin 256) (s : State), s.portOpen c n = true ∧ p.vn.val = 2 ∧ p.data.length < p.aux % 1024 ∧ p.data.length ≤ 96) :=
  ⟨⟨1, 3, true, 5, 0xFFFF, (fabSt 3), by decide +kernel⟩,
    ⟨1, 2, true, 0xABCDEF, 0xFFFF, (ioS (fabSt 3 (oneCell true))), by decide +kernel⟩,
    ⟨1, 3, (.head (fpin 0 1 0) 9), (fabSt 2), by decide +kernel⟩,
    ⟨1, 3, (fpin 2 0 100 (List.replicate 96 3)), 9, (fabSt 3), by decide +kernel⟩⟩

/-- FabricClocksPortsScrubAndRelease: states and operands that meet the hypotheses, part 2. -/
theorem hyps_FabricClocksPortsScrubAndRelease_2 :
    (∃ (c : Car) (n : Fin 16) (p : PktIn) (rse : Fin 256) (s : State) (data : List Byte), s.portOpen c n = true ∧ mget none (s.fabS c).taking n = none) ∧
    (∃ (c : Car) (n : Fin 16) (p : PktIn) (rse : Fin 256) (s : State) (data : List Byte) (x : PortIn), s.portOpen c n = true ∧ mget none (s.fabS c).taking n = some x ∧ data.length ≤ 128 ∧ x.pkt.data.length + data.length < x.need) ∧
    (∃ (c : Car) (n : Fin 16) (p : PktIn) (rse : Fin 256) (s : State), s.portOpen c n = true ∧ p.vn.val = 0 ∧ p.op = 1 ∧ mget [] (s.fabS c).sendQ n = []) ∧
    (∃ (c : Car) (s : State), Hits FAB_SCRUB_START c 0 s ∧ s.fld FAB_SCRUB_BUSY c = 1) :=
  ⟨⟨1, 3, (fpin 0 1 0 [1, 2]), 9, (fabSt 3), [1, 2], by decide +kernel⟩,
    ⟨1, 3, (fpin 0 1 0 [1, 2]), 9, (fabSt 3 { taking := [(3, some takingS)] }), [1, 2], takingS, by decide +kernel⟩,
    ⟨1, 3, (fpin 0 1 0 []), 9, (fabSt 3), by decide +kernel⟩,
    ⟨1, (running.setFld FAB_SCRUB_BUSY 1 0 1), by unfold Hits; decide +kernel⟩⟩

/-- FabricClocksPortsScrubAndRelease: states and operands that meet the hypotheses, part 3. -/
theorem hyps_FabricClocksPortsScrubAndRelease_3 :
    (∃ (c : Car) (s : State), Hits FAB_SCRUB_START c 0 s ∧ s.fld FAB_SCRUB_BUSY c ≠ 1) ∧
    (∃ (c : Car) (fixed : Nat) (bad : List (Fin 40960)) (s : State), s.fld FAB_SCRUB_BUSY c ≠ 1) ∧
    (∃ (c : Car) (fixed : Nat) (bad : List (Fin 40960)) (s : State), s.fld FAB_SCRUB_BUSY c = 1) ∧
    (∃ (c : Car) (n : Fin 8) (s : State), s.fld FAB_CLKCFG_EN c n = 1 ∧ s.netStill c = false) :=
  ⟨⟨1, (running.setFld FAB_SCRUB_START 1 0 1), by unfold Hits; decide +kernel⟩,
    ⟨1, 7, [3, 40959], running, by decide +kernel⟩,
    ⟨1, 7, [3, 40959], (running.setFld FAB_SCRUB_BUSY 1 0 1), by decide +kernel⟩,
    ⟨1, 2, ((fabSt 3).setFld FAB_CLKCFG_RUNNING 1 2 0), by decide +kernel⟩⟩

/-- FabricClocksPortsScrubAndRelease: states and operands that meet the hypotheses, part 4. -/
theorem hyps_FabricClocksPortsScrubAndRelease_4 :
    (∃ (c : Car) (n : Fin 8) (s : State), (s.fld FAB_CLKCFG_EN c n ≠ 1 ∨ s.netStill c = true)) ∧
    (∃ (c : Car) (n : Fin 24) (v : Fin 512) (s : State), Hits IOB_DLY_TARGET c n s) ∧
    (∃ (c : Car) (n : Fin 24) (v : Fin 512) (s : State), s.netStill c = true) ∧
    (∃ (c : Car) (n : Fin 24) (v : Fin 512) (s : State), s.netStill c = false) :=
  ⟨⟨1, 3, running, by decide +kernel⟩,
    ⟨1, 23, 511, running, by unfold Hits; decide +kernel⟩,
    ⟨1, 23, 0, (running.setCarState 1 2), by decide +kernel⟩,
    ⟨1, 23, 0, (running.setFld IOB_DLY_TARGET 1 23 511), by decide +kernel⟩⟩

/-- FabricClocksPortsScrubAndRelease: states and operands that meet the hypotheses, part 5. -/
theorem hyps_FabricClocksPortsScrubAndRelease_5 :
    (∃ (c : Car) (s : State), ((s.fabS c).release = false ∨ s.fld FAB_STATE_STAGE c ≠ 0 ∨ s.fld FAB_STATE_LOADED c ≠ 1 ∨ (∃ n, n < 8 ∧ s.fld FAB_CLKCFG_EN c n = 1 ∧ s.fld FAB_CLKCFG_RUNNING c n ≠ 1))) ∧
    (∃ (c : Car) (s : State), s.fld FAB_STATE_STAGE c = 0 ∧ s.fld FAB_STATE_LOADED c = 1 ∧ (s.fabS c).release = true ∧ (∀ n, n < 8 → s.fld FAB_CLKCFG_EN c n = 1 → s.fld FAB_CLKCFG_RUNNING c n = 1)) ∧
    (∃ (c : Car) (s : State), s.fld FAB_STATE_STAGE c = 1) ∧
    (∃ (c : Car) (s : State), s.fld FAB_STATE_STAGE c = 2) :=
  ⟨⟨1, (fabSt 0), by decide +kernel⟩,
    ⟨1, ((ioS (fabSt 0 { oneCell true with release := true })).setFld FAB_STATE_LOADED 1 0 1), by decide +kernel⟩,
    ⟨1, (fabSt 1), by decide +kernel⟩,
    ⟨1, (put (fabSt 2) [(CFG_STATE_STATE, 0, 0, 4), (FAB_STATE_STAGE, 0, 0, 3), (FAB_STATE_STAGE, 2, 0, 3), (FAB_STATE_STAGE, 3, 0, 3)]), by decide +kernel⟩⟩

/-- FabricClocksPortsScrubAndRelease: states and operands that meet the hypotheses, part 6. -/
theorem hyps_FabricClocksPortsScrubAndRelease_6 :
    (∃ (c : Car) (s : State), s.fld FAB_STATE_STAGE c ∉ [1, 2]) :=
  ⟨1, (fabSt 3), by decide +kernel⟩

/-- ImagesAreCheckedAsTheyLoad: states and operands that meet the hypotheses, part 1. -/
theorem hyps_ImagesAreCheckedAsTheyLoad_1 :
    (∃ (s : State), Hits CFG_CTL_START 0 0 s ∧ s.fld CFG_STATE_STATE 0 ∈ [0, 5, 6] ∧ s.anyBound = false ∧ s.fld CFG_CTL_SRC 0 = 1 ∧ s.bayState (s.fld CFG_CTL_UNIT 0) ∉ [2, 3, 5]) ∧
    (∃ (s : State), Hits CFG_CTL_START 0 0 s ∧ s.fld CFG_STATE_STATE 0 ∈ [0, 5, 6] ∧ s.anyBound = false ∧ s.fld CFG_CTL_SRC 0 < 4 ∧ (s.fld CFG_CTL_SRC 0 ≠ 1 ∨ s.bayState (s.fld CFG_CTL_UNIT 0) ∈ [2, 3, 5])) ∧
    (∃ (s : State), Hits CFG_CTL_START 0 0 s ∧ (s.fld CFG_STATE_STATE 0 ∉ [0, 5, 6] ∨ s.anyBound = true) ∧ s.fld CFG_CTL_VEC 0 < 2048) ∧
    (∃ (s : State), Hits CFG_CTL_ABORT 0 0 s ∧ s.fld CFG_STATE_STATE 0 ∈ [1, 2, 3]) :=
  ⟨⟨(put running [(CFG_CTL_SRC, 0, 0, 1), (CFG_CTL_UNIT, 0, 0, 1)]), by unfold Hits; decide +kernel⟩,
    ⟨(cfgS 0 2), by unfold Hits; decide +kernel⟩,
    ⟨(cfgS 2 0), by unfold Hits; decide +kernel⟩,
    ⟨(cfgS 3 2), by unfold Hits; decide +kernel⟩⟩

/-- ImagesAreCheckedAsTheyLoad: states and operands that meet the hypotheses, part 2. -/
theorem hyps_ImagesAreCheckedAsTheyLoad_2 :
    (∃ (s : State), Hits CFG_CTL_ABORT 0 0 s ∧ s.fld CFG_STATE_STATE 0 ∉ [1, 2, 3]) ∧
    (∃ (s : State), s.fld CFG_STATE_STATE 0 = 1 ∧ s.fld CFG_STATE_SRC 0 = 2) ∧
    (∃ (s : State), s.fld CFG_STATE_STATE 0 = 1 ∧ s.fld CFG_STATE_SRC 0 = 3) ∧
    (∃ (s : State), s.fld CFG_STATE_STATE 0 = 1 ∧ s.fld CFG_STATE_SRC 0 = 3) :=
  ⟨⟨(cfgS 4 2), by unfold Hits; decide +kernel⟩,
    ⟨(cfgS 1 2), by decide +kernel⟩,
    ⟨(cfgS 1 3), by decide +kernel⟩,
    ⟨(cfgS 1 3), by decide +kernel⟩⟩

/-- ImagesAreCheckedAsTheyLoad: states and operands that meet the hypotheses, part 3. -/
theorem hyps_ImagesAreCheckedAsTheyLoad_3 :
    (∃ (s : State), s.fld CFG_STATE_STATE 0 = 2 ∧ s.fld CFG_STATE_SRC 0 = 3) ∧
    (∃ (s : State), s.fld CFG_STATE_STATE 0 = 2) ∧
    (∃ (s : State), s.fld CFG_STATE_STATE 0 = 2) ∧
    (∃ (s : State), s.fld CFG_STATE_STATE 0 = 2) :=
  ⟨⟨(cfgS 2 3), by decide +kernel⟩,
    ⟨(cfgS 2 3), by decide +kernel⟩,
    ⟨(cfgS 2 3), by decide +kernel⟩,
    ⟨(cfgS 2 1), by decide +kernel⟩⟩

/-- ImagesAreCheckedAsTheyLoad: states and operands that meet the hypotheses, part 4. -/
theorem hyps_ImagesAreCheckedAsTheyLoad_4 :
    (∃ (s : State), s.fld CFG_STATE_STATE 0 ≠ 2) ∧
    (∃ (s : State), s.fld CFG_STATE_STATE 0 ≠ 2) ∧
    (∃ (s : State) (r : Bool), s.fld CFG_STATE_STATE 0 ≠ 2) ∧
    (∃ (hdr : LoadIn) (s : State), (s.fld CFG_STATE_STATE 0 ≠ 2 ∨ s.load.headed = true ∨ (s.streamBytes hdr true).length ≠ 64)) :=
  ⟨⟨(cfgS 3 3), by decide +kernel⟩,
    ⟨(cfgS 3 3), by decide +kernel⟩,
    ⟨(cfgS 3 3), false, by decide +kernel⟩,
    ⟨(.bytes []), (cfgS 2 0), by decide +kernel⟩⟩

/-- ImagesAreCheckedAsTheyLoad: states and operands that meet the hypotheses, part 5. -/
theorem hyps_ImagesAreCheckedAsTheyLoad_5 :
    (∃ (hdr : LoadIn) (h : List Nat) (s : State), s.fld CFG_STATE_STATE 0 = 2 ∧ s.load.headed = false ∧ h = s.streamBytes hdr true ∧ h.length = 64 ∧ (leNat (h.take 4) ≠ 0xC0A57A9E ∨ leNat ((h.drop 0x3C).take 4) ≠ crc32c (h.take 0x3C))) ∧
    (∃ (hdr : LoadIn) (h : List Nat) (s : State), s.fld CFG_STATE_STATE 0 = 2 ∧ s.load.headed = false ∧ h = s.streamBytes hdr true ∧ h.length = 64 ∧ s.headerCode h = 0) ∧
    (∃ (raw : LoadIn) (b : List Nat) (n a0 a1 : Nat) (s : State), s.fld CFG_STATE_STATE 0 = 2 ∧ s.load.headed = true ∧ s.load.sect < s.load.nsect ∧ s.load.enc = false ∧ b = s.streamBytes raw false ∧ 16 ≤ b.length ∧ n = leNat ((b.drop 4).take 4) ∧ a0 = leNat ((b.drop 8).take 4) ∧ a1 = leNat ((b.drop 12).take 4) ∧ sectionBody (leNat (b.take 1)) (leNat ((b.drop 1).take 1)) a0 a1 ≠ some n) ∧
    (∃ (raw : LoadIn) (b : List Nat) (n a0 a1 : Nat) (s : State), s.fld CFG_STATE_STATE 0 = 2 ∧ s.load.headed = true ∧ s.load.sect < s.load.nsect ∧ s.load.enc = false ∧ b = s.streamBytes raw false ∧ 16 ≤ b.length ∧ n = leNat ((b.drop 4).take 4) ∧ a0 = leNat ((b.drop 8).take 4) ∧ a1 = leNat ((b.drop 12).take 4) ∧ sectionBody (leNat (b.take 1)) (leNat ((b.drop 1).take 1)) a0 a1 = some n ∧ s.load.pos + 16 + n + 16 ≤ s.load.length ∧ b.length = 16 + n ∧ leNat (b.take 1) = 5 ∧ leNat ((b.drop 2).take 2) = 0xFFFF ∧ s.load.device.isSome = true) :=
  ⟨⟨(.bytes <| bytesB (leBytes 64 5)), (leBytes 64 5), (cfgS 2 0), by decide +kernel⟩,
    ⟨(.bytes <| bytesB (hdr0 1 96 (cfgS 2 0))), (hdr0 1 96 (cfgS 2 0)), (cfgS 2 0), by decide +kernel⟩,
    ⟨(.bytes <| bytesB (sect 5 0 0xFFFF 16 0 2 [])), (sect 5 0 0xFFFF 16 0 2 []), 16, 0, 2, (cfgS 2 0 ld0), by decide +kernel⟩,
    ⟨(.bytes <| bytesB sq5), sq5, 32, (0x23 + 1022 * 2 ^ 16), 2, (cfgS 2 0 ld0), by decide +kernel⟩⟩

/-- ImagesAreCheckedAsTheyLoad: states and operands that meet the hypotheses, part 6. -/
theorem hyps_ImagesAreCheckedAsTheyLoad_6 :
    (∃ (raw : LoadIn) (b : List Nat) (n a0 a1 : Nat) (s : State), s.fld CFG_STATE_STATE 0 = 2 ∧ s.load.headed = true ∧ s.load.sect < s.load.nsect ∧ s.load.enc = false ∧ b = s.streamBytes raw false ∧ 16 ≤ b.length ∧ n = leNat ((b.drop 4).take 4) ∧ a0 = leNat ((b.drop 8).take 4) ∧ a1 = leNat ((b.drop 12).take 4) ∧ sectionBody (leNat (b.take 1)) (leNat ((b.drop 1).take 1)) a0 a1 = some n ∧ s.load.pos + 16 + n + 16 ≤ s.load.length ∧ b.length = 16 + n ∧ leNat (b.take 1) = 5 ∧ leNat ((b.drop 2).take 2) ≠ 0xFFFF ∧ leNat ((b.drop 2).take 2) ≠ s.fld CFG_SLOT_SLOT 0) ∧
    (∃ (raw tag : LoadIn) (s : State), (s.streamBytes tag false).length = 16 ∧ Config.gcmTag s.loadKey s.load.iv s.load.header (s.load.cipher ++ s.streamBytes raw false) ≠ leNat (s.streamBytes tag false) ∧ s.fld CFG_STATE_STATE 0 = 2 ∧ s.load.headed = true ∧ s.load.sect = s.load.nsect ∧ s.load.enc = true ∧ s.load.device.isSome = true ∧ (s.streamBytes raw false).length = 16 ∧ s.load.pos + 32 = s.load.length) ∧
    (∃ (raw tag : LoadIn) (b : List Nat) (ilv cpl : Bool) (pm : Nat) (s : State), s.fld CFG_STATE_STATE 0 = 2 ∧ s.load.headed = true ∧ s.load.sect = s.load.nsect ∧ s.load.enc = false ∧ b = s.streamBytes raw false ∧ b.length = 16 ∧ s.load.device = some (ilv, cpl, pm) ∧ s.load.pos + 16 = s.load.length ∧ leNat (b.take 4) = 0x5E1DC0A5 ∧ leNat ((b.drop 4).take 2) = s.load.nsect ∧ leNat ((b.drop 6).take 6) = 0 ∧ leNat ((b.drop 12).take 4) = crc32c (s.load.plain ++ b.take 12)) ∧
    (∃ (raw tag : LoadIn) (b : List Nat) (ilv cpl : Bool) (pm : Nat) (s : State), s.fld CFG_STATE_STATE 0 = 2 ∧ s.load.headed = true ∧ s.load.sect = s.load.nsect ∧ s.load.enc = false ∧ b = s.streamBytes raw false ∧ b.length = 16 ∧ s.load.device = some (ilv, cpl, pm) ∧ s.load.pos + 16 = s.load.length ∧ leNat ((b.drop 12).take 4) ≠ crc32c (s.load.plain ++ b.take 12)) :=
  ⟨⟨(.bytes <| bytesB sq6), sq6, 32, (0x23 + 1022 * 2 ^ 16), 2, (cfgS 2 0 ld0), by decide +kernel⟩,
    tag_differs.elim fun tag h => ⟨tagRaw, tag, tagS, h.1, h.2, by decide +kernel⟩,
    ⟨(.bytes <| bytesB (trl ld1)), (.bytes []), (trl ld1), true, true, 5, (cfgS 2 0 ld1), by decide +kernel⟩,
    ⟨(.bytes <| bytesB (leBytes 16 3)), (.bytes []), (leBytes 16 3), true, true, 5, (cfgS 2 0 ld1), by decide +kernel⟩⟩

/-- ImagesAreCheckedAsTheyLoad: states and operands that meet the hypotheses, part 7. -/
theorem hyps_ImagesAreCheckedAsTheyLoad_7 :
    (∃ (s : State), Hits KEY_CTL_RAMLOCK 0 0 s) ∧
    (∃ (s : State), s.fld KEY_CTL_RAMLOCK 0 ≠ 1 ∧ s.fld CFG_STATE_STATE 0 ∉ [2, 3] ∧ Hits KEY_CTL_RAMCOMMIT 0 0 s) ∧
    (∃ (s : State), s.fld KEY_CTL_RAMLOCK 0 ≠ 1 ∧ s.fld CFG_STATE_STATE 0 ∉ [2, 3] ∧ Hits KEY_CTL_RAMCLEAR 0 0 s) ∧
    (∃ (s : State), (s.fld KEY_CTL_RAMLOCK 0 = 1 ∨ s.fld CFG_STATE_STATE 0 ∈ [2, 3]) ∧ Hits KEY_CTL_RAMCOMMIT 0 0 s) :=
  ⟨⟨(cfgS 2 2), by unfold Hits; decide +kernel⟩,
    ⟨keyS, by unfold Hits; decide +kernel⟩,
    ⟨keyS, by unfold Hits; decide +kernel⟩,
    ⟨(keyS.setFld KEY_CTL_RAMLOCK 0 0 1), by unfold Hits; decide +kernel⟩⟩

/-- ImagesAreCheckedAsTheyLoad: states and operands that meet the hypotheses, part 8. -/
theorem hyps_ImagesAreCheckedAsTheyLoad_8 :
    (∃ (s : State), (s.fld KEY_CTL_RAMLOCK 0 = 1 ∨ s.fld CFG_STATE_STATE 0 ∈ [2, 3]) ∧ Hits KEY_CTL_RAMCLEAR 0 0 s) :=
  ⟨(keyS.setFld KEY_CTL_RAMLOCK 0 0 1), by unfold Hits; decide +kernel⟩

end W11

namespace W12

def c1 (opc : Nat) (l : List (Nat × Nat × Nat) := []) : List Nat := cmdL opc 7 0x55 l
def desc0 : List Nat := leBytes 8 0x10000 ++ [0, 2, 1, 5] ++ leBytes 4 3 ++ leBytes 8 0x40000000 ++ leBytes 8 0x40002000 ++ leBytes 32 0
def withQ (s : State) : State := s.updCtx 7 (fun x => { x with queues := [(3, { en := true, running := [{ no := 1, coaches := [5] }], tail := 2, posted := 2 })] })
def bound5 (s : State) : State := { put s [(COA_ROLE_BOUND, 5, 0, 1), (COA_ROLE_CONTEXT, 5, 0, 7), (COA_STATE_STATE, 5, 0, 2), (COA_ROLE_EPOCH, 5, 0, 255), (DMA_CTX_BOUND, 1, 3, 1), (DMA_CTX_CONTEXT, 1, 3, 7), (FAB_PORTCTX_BOUND, 2, 3, 1), (FAB_PORTCTX_CONTEXT, 2, 3, 7)] with bank := [(5 * 131072 + 4, 9), (6 * 131072 + 4, 9)], store := [(5 * storeSize + 4, 9), (6 * storeSize + 3, 4)], vreg := [(5 * 32768 + 3, 4), (7 * 32768 + 3, 4)] }
def rtc (u e sent w3 : Nat) : List Nat := c1 6 [(0x10, 2, u), (0x12, 1, e), (0x13, 1, sent), (0x20, 4, 1), (0x28, 4, rw2.toNat), (0x2C, 4, w3)]
def otherPart : State := (admReadyS 1).setFld CFG_PARTMAP_PARTMAP 0 0 1
def vfc (v i n : Nat) : List Nat := c1 7 [(0x10, 1, v), (0x11, 1, i), (0x12, 2, n)]
def vfS (s : State := admReadyS 1) : State := { s.updCtx 7 (fun x => { x with isvf := true, vf := 3, port := 0 }) with ports := [(0, { slots := [(52, 4)] })] }
def hcc (c m : Nat) : List Nat := c1 8 [(0x10, 1, c), (0x11, 1, m), (0x18, 8, 0x123456789), (0x20, 8, 0x300000002), (0x38, 8, 0x500000004)]
def brk (f : CtxS → CtxS) : State := bound5 (withCtx running 7 (fun x => f { x with state := 3, cause := 2, evtRing := 2 ^ 39, evtLog2 := 4 }))
def bnd (opc : Nat) (cs chs ps c : Nat) : List Nat := c1 opc [(0x10, 12, cs), (0x20, 8, chs), (0x28, 2, ps), (0x30, 1, c)]
def mv (a b : Nat) : List Nat := c1 5 [(0x10, 1, a), (0x11, 1, b)]
def mvc : AdmCmd := { port := 0, opc := 5, ctx := 7, tag := 9, src := 5, dst := 24 }
def mvS (r : List SReq) : State := { (bound5 (admReadyS 2)).updCoach 5 (fun c => { c with moving := some 24, reqs := r }) with admBusy := some mvc }

/-- AdminCommandsMakeAndEndContexts: states and operands that meet the hypotheses, part 1. -/
theorem hyps_AdminCommandsMakeAndEndContexts_1 :
    (∃ (p : Fin 4) (v : BitVec 12) (s : State), Hits QUE_ADMTAIL_INDEX p 0 s ∧ s.fld QUE_ADMCFG_EN p = 1 ∧ v.toNat < 2 ^ (s.admS p).log2) ∧
    (∃ (p : Fin 4) (v : BitVec 12) (s : State), Hits QUE_ADMTAIL_INDEX p 0 s ∧ s.fld QUE_ADMCFG_EN p ≠ 1) ∧
    (∃ (p : Fin 4) (opc : Nat) (cmd : List Byte) (b : List Nat) (s : State), AdmReady p opc cmd b s ∧ (opc = 0 ∨ 9 < opc)) ∧
    (∃ (p : Fin 4) (opc : Nat) (cmd : List Byte) (b : List Nat) (s : State), AdmReady p opc cmd b s ∧ 0 < opc ∧ opc < 9) :=
  ⟨⟨0, 3, (admReadyS 1), by unfold Hits; decide +kernel⟩,
    ⟨1, 3, (admReadyS 1), by unfold Hits; decide +kernel⟩,
    ⟨0, 0, (bytesB (c1 0)), (c1 0), (admReadyS 1), by unfold AdmReady; decide +kernel⟩,
    ⟨0, 3, (bytesB (c1 3)), (c1 3), (admReadyS 1), by unfold AdmReady; decide +kernel⟩⟩

/-- AdminCommandsMakeAndEndContexts: states and operands that meet the hypotheses, part 2. -/
theorem hyps_AdminCommandsMakeAndEndContexts_2 :
    (∃ (p : Fin 4) (opc : Nat) (cmd : List Byte) (b : List Nat) (s : State) (desc : Option (List Byte)) (qtab : List Byte), AdmReady p opc cmd b s ∧ opc = 1 ∧ (s.ctx (admCtx b)).state ≠ 0) ∧
    (∃ (p : Fin 4) (opc : Nat) (cmd : List Byte) (b : List Nat) (s : State) (desc : Option (List Byte)) (qtab : List Byte), AdmReady p opc cmd b s ∧ opc = 1 ∧ (s.ctx (admCtx b)).state = 0 ∧ desc = none) ∧
    (∃ (p : Fin 4) (opc : Nat) (cmd : List Byte) (b : List Nat) (s : State) (desc : Option (List Byte)) (qtab : List Byte) (d : List Byte) (e : List Nat), AdmReady p opc cmd b s ∧ opc = 1 ∧ (s.ctx (admCtx b)).state = 0 ∧ desc = some d ∧ d.length = 64 ∧ e = d.map BitVec.toNat ∧ badDescriptor e = true) ∧
    (∃ (p : Fin 4) (opc : Nat) (cmd : List Byte) (b : List Nat) (s : State) (desc : Option (List Byte)) (qtab : List Byte) (d : List Byte) (e : List Nat), AdmReady p opc cmd b s ∧ opc = 1 ∧ (s.ctx (admCtx b)).state = 0 ∧ desc = some d ∧ d.length = 64 ∧ e = d.map BitVec.toNat ∧ badDescriptor e = false) :=
  ⟨⟨0, 1, (bytesB (c1 1)), (c1 1), (admReadyS 1), none, [], by unfold AdmReady; decide +kernel⟩,
    ⟨0, 1, (bytesB (c1 1)), (c1 1), (admReadyS 0), none, [], by unfold AdmReady; decide +kernel⟩,
    ⟨0, 1, (bytesB (c1 1)), (c1 1), (admReadyS 0), (some (bytesB (leBytes 64 1))), [], (bytesB (leBytes 64 1)), (leBytes 64 1), by unfold AdmReady; decide +kernel⟩,
    ⟨0, 1, (bytesB (c1 1)), (c1 1), (admReadyS 0), (some (bytesB desc0)), (bytesB (List.replicate 2048 0xff)), (bytesB desc0), desc0, by unfold AdmReady; decide +kernel⟩⟩

/-- AdminCommandsMakeAndEndContexts: states and operands that meet the hypotheses, part 3. -/
theorem hyps_AdminCommandsMakeAndEndContexts_3 :
    (∃ (p : Fin 4) (opc : Nat) (cmd : List Byte) (b : List Nat) (s : State), AdmReady p opc cmd b s ∧ opc = 2 ∧ s.liveOrStopped (admCtx b) = true) ∧
    (∃ (p : Fin 4) (opc : Nat) (cmd : List Byte) (b : List Nat) (s : State), AdmReady p opc cmd b s ∧ opc = 2 ∧ s.liveOrStopped (admCtx b) = false) ∧
    (∃ (p : Fin 4) (opc : Nat) (cmd : List Byte) (b : List Nat) (s : State), AdmReady p opc cmd b s ∧ opc = 9 ∧ s.liveOrStopped (admCtx b) = true) ∧
    (∃ (p : Fin 4) (opc : Nat) (cmd : List Byte) (b : List Nat) (s : State), AdmReady p opc cmd b s ∧ opc = 6 ∧ s.liveOrStopped (admCtx b) = true ∧ admArg b 0x10 2 < 1024 ∧ s.routeInPart (admCtx b) (admArg b 0x28 4) (admArg b 0x2C 4) = false) :=
  ⟨⟨0, 2, (bytesB (c1 2)), (c1 2), (bound5 (withQ (admReadyS 1))), by unfold AdmReady; decide +kernel⟩,
    ⟨0, 2, (bytesB (c1 2)), (c1 2), (bound5 (withQ (admReadyS 3))), by unfold AdmReady; decide +kernel⟩,
    ⟨0, 9, (bytesB (c1 9)), (c1 9), (put (bound5 (withQ (admReadyS 2))) [(CPL_CTL_MODE, 0, 0, 1), (CPL_STATE_STATE, 0, 0, 3), (CPL_CTXROLE_ROLE, 0, 7, 1)]), by unfold AdmReady; decide +kernel⟩,
    ⟨0, 6, (bytesB (rtc 0 9 0 (1 + 2 ^ 31))), (rtc 0 9 0 (1 + 2 ^ 31)), otherPart, by unfold AdmReady; decide +kernel⟩⟩

/-- AdminCommandsMakeAndEndContexts: states and operands that meet the hypotheses, part 4. -/
theorem hyps_AdminCommandsMakeAndEndContexts_4 :
    (∃ (p : Fin 4) (opc : Nat) (cmd : List Byte) (b : List Nat) (s : State) (w3 : Nat), AdmReady p opc cmd b s ∧ opc = 6 ∧ s.liveOrStopped (admCtx b) = true ∧ admArg b 0x10 2 < 1024 ∧ w3 = admArg b 0x2C 4 - bitsOf (admArg b 0x2C 4) 29 1 * 2 ^ 29 + admArg b 0x13 1 % 2 * 2 ^ 29 ∧ s.routeInPart (admCtx b) (admArg b 0x28 4) (admArg b 0x2C 4) = true ∧ routeReason s.couplerAside (admArg b 0x10 2) (admArg b 0x20 4) (admArg b 0x24 4) (admArg b 0x28 4) w3 ≠ 0) ∧
    (∃ (p : Fin 4) (opc : Nat) (cmd : List Byte) (b : List Nat) (s : State) (w3 : Nat), AdmReady p opc cmd b s ∧ opc = 6 ∧ s.liveOrStopped (admCtx b) = true ∧ admArg b 0x10 2 < 1024 ∧ w3 = admArg b 0x2C 4 - bitsOf (admArg b 0x2C 4) 29 1 * 2 ^ 29 + admArg b 0x13 1 % 2 * 2 ^ 29 ∧ s.routeInPart (admCtx b) (admArg b 0x28 4) (admArg b 0x2C 4) = true ∧ routeReason s.couplerAside (admArg b 0x10 2) (admArg b 0x20 4) (admArg b 0x24 4) (admArg b 0x28 4) w3 = 0 ∧ s.entryFrozen (admArg b 0x10 2) (admArg b 0x12 1) = false) ∧
    (∃ (p : Fin 4) (opc : Nat) (cmd : List Byte) (b : List Nat) (s : State) (v i n : Nat), AdmReady p opc cmd b s ∧ opc = 7 ∧ v = admArg b 0x10 1 ∧ i = admArg b 0x11 1 ∧ n = admArg b 0x12 2 ∧ 16 ≤ i) ∧
    (∃ (p : Fin 4) (opc : Nat) (cmd : List Byte) (b : List Nat) (s : State) (v i n : Nat), AdmReady p opc cmd b s ∧ opc = 7 ∧ v = admArg b 0x10 1 ∧ i = admArg b 0x11 1 ∧ n = admArg b 0x12 2 ∧ i < 16 ∧ n = 0xFFFF) :=
  ⟨⟨0, 6, (bytesB (rtc 1 9 0 (1 + 2 ^ 31))), (rtc 1 9 0 (1 + 2 ^ 31)), (admReadyS 1), (1 + 2 ^ 31), by unfold AdmReady; decide +kernel⟩,
    ⟨0, 6, (bytesB (rtc 0 9 1 (1 + 2 ^ 31))), (rtc 0 9 1 (1 + 2 ^ 31)), (admReadyS 1), (1 + 2 ^ 31 + 2 ^ 29), by unfold AdmReady; decide +kernel⟩,
    ⟨0, 7, (bytesB (vfc 3 16 7)), (vfc 3 16 7), vfS, 3, 16, 7, by unfold AdmReady; decide +kernel⟩,
    ⟨0, 7, (bytesB (vfc 3 4 0xFFFF)), (vfc 3 4 0xFFFF), vfS, 3, 4, 0xFFFF, by unfold AdmReady; decide +kernel⟩⟩

/-- AdminCommandsMakeAndEndContexts: states and operands that meet the hypotheses, part 5. -/
theorem hyps_AdminCommandsMakeAndEndContexts_5 :
    (∃ (p : Fin 4) (opc : Nat) (cmd : List Byte) (b : List Nat) (s : State) (v i n : Nat), AdmReady p opc cmd b s ∧ opc = 7 ∧ v = admArg b 0x10 1 ∧ i = admArg b 0x11 1 ∧ n = admArg b 0x12 2 ∧ i < 16 ∧ n < 1024 ∧ (s.ctx n).state ≠ 0 ∧ (s.ctx n).isvf = true ∧ (s.ctx n).vf = v ∧ (s.ctx n).port = p.val) ∧
    (∃ (p : Fin 4) (opc : Nat) (cmd : List Byte) (b : List Nat) (s : State) (v i n : Nat), AdmReady p opc cmd b s ∧ opc = 7 ∧ v = admArg b 0x10 1 ∧ i = admArg b 0x11 1 ∧ n = admArg b 0x12 2 ∧ i < 16 ∧ n < 1024 ∧ ((s.ctx n).state = 0 ∨ (s.ctx n).isvf = false ∨ (s.ctx n).vf ≠ v ∨ (s.ctx n).port ≠ p.val)) ∧
    (∃ (p : Fin 4) (opc : Nat) (cmd : List Byte) (b : List Nat) (s : State) (c : Car), AdmReady p opc cmd b s ∧ opc = 8 ∧ c.val = admArg b 0x10 1 ∧ s.carState c = 0 ∧ admArg b 0x11 1 < 16) ∧
    (∃ (p : Fin 4) (opc : Nat) (cmd : List Byte) (b : List Nat) (s : State) (c : Car), AdmReady p opc cmd b s ∧ opc = 8 ∧ c.val = admArg b 0x10 1 ∧ s.carState c ≠ 0) :=
  ⟨⟨0, 7, (bytesB (vfc 3 4 7)), (vfc 3 4 7), vfS, 3, 4, 7, by unfold AdmReady; decide +kernel⟩,
    ⟨0, 7, (bytesB (vfc 2 4 7)), (vfc 2 4 7), vfS, 2, 4, 7, by unfold AdmReady; decide +kernel⟩,
    ⟨0, 8, (bytesB (hcc 2 5)), (hcc 2 5), (admReadyS 1), 2, by unfold AdmReady; decide +kernel⟩,
    ⟨0, 8, (bytesB (hcc 2 5)), (hcc 2 5), ((admReadyS 1).setCarState 2 1), 2, by unfold AdmReady; decide +kernel⟩⟩

/-- AdminCommandsMakeAndEndContexts: states and operands that meet the hypotheses, part 6. -/
theorem hyps_AdminCommandsMakeAndEndContexts_6 :
    (∃ (n : Ctx) (host : List Byte) (s : State), s.withheld = false ∧ ((s.ctx n).state ≠ 3 ∨ s.unitsReset n = false ∨ s.completionDue n = true)) ∧
    (∃ (n : Ctx) (host : List Byte) (s : State), s.withheld = false ∧ (s.ctx n).state = 3 ∧ s.unitsReset n = true ∧ s.completionDue n = false) ∧
    (∃ (c : Car) (i : Fin 4) (addr : BitVec 64) (write : Bool) (s : State), (s.fld HCL_CTL_RUN c i ≠ 1 ∨ s.hartMay c addr.toNat = true)) ∧
    (∃ (c : Car) (i : Fin 4) (addr : BitVec 64) (write : Bool) (s : State), s.fld HCL_CTL_RUN c i = 1 ∧ s.hartMay c addr.toNat = false ∧ s.fld HCL_ACCERR_VALID c = 1) :=
  ⟨⟨7, [], (withCtx running 7), by decide +kernel⟩,
    ⟨7, [], { (brk (fun x => { x with toFree := true, admEnd := true })).coachCtxReset 5 with admBusy := some { port := 0, opc := 2, ctx := 7, tag := 9 } }, by decide +kernel⟩,
    ⟨2, 1, 0x40, true, running, by decide +kernel⟩,
    ⟨2, 1, 0x40, true, (put running [(HCL_CTL_RUN, 2, 1, 1), (HCL_ACCERR_VALID, 2, 0, 1)]), by decide +kernel⟩⟩

/-- AdminCommandsMakeAndEndContexts: states and operands that meet the hypotheses, part 7. -/
theorem hyps_AdminCommandsMakeAndEndContexts_7 :
    (∃ (c : Car) (i : Fin 4) (addr : BitVec 64) (write : Bool) (s : State), s.fld HCL_CTL_RUN c i = 1 ∧ s.hartMay c addr.toNat = false ∧ s.fld HCL_ACCERR_VALID c ≠ 1) :=
  ⟨2, 1, 0x40, true, (put running [(HCL_CTL_RUN, 2, 1, 1)]), by decide +kernel⟩

/-- ContextsBindUnbindAndMoveUnits: states and operands that meet the hypotheses, part 1. -/
theorem hyps_ContextsBindUnbindAndMoveUnits_1 :
    (∃ (p : Fin 4) (opc : Nat) (cmd : List Byte) (b : List Nat) (n : Nat) (s : State), AdmReady p opc cmd b s ∧ n = admCtx b ∧ opc = 3 ∧ (s.ctx n).state ≠ 1) ∧
    (∃ (p : Fin 4) (opc : Nat) (cmd : List Byte) (b : List Nat) (n : Nat) (s : State), AdmReady p opc cmd b s ∧ n = admCtx b ∧ opc = 3 ∧ (s.ctx n).state = 1 ∧ admArg b 0x30 1 < 4 ∧ s.unitsOk n (admOf p b) = false) ∧
    (∃ (p : Fin 4) (opc : Nat) (cmd : List Byte) (b : List Nat) (n : Nat) (s : State), AdmReady p opc cmd b s ∧ n = admCtx b ∧ opc = 3 ∧ (s.ctx n).state = 1 ∧ admArg b 0x30 1 < 4 ∧ s.unitsOk n (admOf p b) = true ∧ (∀ k : Coach, bitsOf (admArg b 0x10 12) k 1 = 1 → s.stFail k = false)) ∧
    (∃ (p : Fin 4) (opc : Nat) (cmd : List Byte) (b : List Nat) (n : Nat) (s : State), AdmReady p opc cmd b s ∧ n = admCtx b ∧ opc = 4 ∧ s.liveOrStopped n = true ∧ admArg b 0x30 1 < 4 ∧ s.unitsOk n (admOf p b) = true ∧ ((∃ k : Coach, bitsOf (admArg b 0x10 12) k 1 = 1 ∧ (s.ctx n).busyCoach k = true) ∨ (∃ x ∈ (admOf p b).units.2.1, (s.chan x.1 x.2).desc ≠ none ∨ (s.chan x.1 x.2).fetch ≠ 0))) :=
  ⟨⟨0, 3, (bytesB (c1 3)), (c1 3), 7, (admReadyS 2), by unfold AdmReady; decide +kernel⟩,
    ⟨0, 3, (bytesB (bnd 3 0x20 0 0 0)), (bnd 3 0x20 0 0 0), 7, (put (admReadyS 1) [(COA_ROLE_BOUND, 5, 0, 1), (COA_ROLE_CONTEXT, 5, 0, 8)]), by unfold AdmReady; decide +kernel⟩,
    ⟨0, 3, (bytesB (bnd 3 0x60 9 3 1)), (bnd 3 0x60 9 3 1), 7, (bound5 (admReadyS 1)), by unfold AdmReady; decide +kernel⟩,
    ⟨0, 4, (bytesB (bnd 4 0x60 9 3 1)), (bnd 4 0x60 9 3 1), 7, (bound5 (withQ (admReadyS 2))), by unfold AdmReady; decide +kernel⟩⟩

/-- ContextsBindUnbindAndMoveUnits: states and operands that meet the hypotheses, part 2. -/
theorem hyps_ContextsBindUnbindAndMoveUnits_2 :
    (∃ (p : Fin 4) (opc : Nat) (cmd : List Byte) (b : List Nat) (n : Nat) (s : State), AdmReady p opc cmd b s ∧ n = admCtx b ∧ opc = 4 ∧ s.liveOrStopped n = true ∧ admArg b 0x30 1 < 4 ∧ s.unitsOk n (admOf p b) = true ∧ (∀ k : Coach, bitsOf (admArg b 0x10 12) k 1 = 1 → (s.ctx n).busyCoach k = false) ∧ (∀ x ∈ (admOf p b).units.2.1, (s.chan x.1 x.2).desc = none ∧ (s.chan x.1 x.2).fetch = 0)) ∧
    (∃ (p : Fin 4) (opc : Nat) (cmd : List Byte) (b : List Nat) (n : Nat) (s : State) (src dst : Nat), AdmReady p opc cmd b s ∧ n = admCtx b ∧ opc = 5 ∧ s.liveOrStopped n = true ∧ ordinalOf (admArg b 0x10 1) = some src ∧ ordinalOf (admArg b 0x11 1) = some dst ∧ admArg b 0x10 1 < 128 ∧ admArg b 0x11 1 < 128 ∧ s.boundCtx src ≠ some n) ∧
    (∃ (p : Fin 4) (opc : Nat) (cmd : List Byte) (b : List Nat) (n : Nat) (s : State) (src dst : Nat), AdmReady p opc cmd b s ∧ n = admCtx b ∧ opc = 5 ∧ s.liveOrStopped n = true ∧ ordinalOf (admArg b 0x10 1) = some src ∧ ordinalOf (admArg b 0x11 1) = some dst ∧ admArg b 0x10 1 < 128 ∧ admArg b 0x11 1 < 128 ∧ s.boundCtx src = some n ∧ ((s.ctx n).state = 2 ∨ s.fld COA_STATE_STATE src = 1 ∨ s.fld COA_STATE_STATE src = 6) ∧ s.fld COA_ROLE_BOUND dst = 0 ∧ s.partOf (carOf dst) = (s.ctx n).part ∧ s.stFail dst = false ∧ s.fld ACC_SPILLBASE_BASE src = s.fld ACC_SPILLBASE_BASE dst ∧ s.fld ACC_SPILLSLOTS_SLOTS src = s.fld ACC_SPILLSLOTS_SLOTS dst) ∧
    (∃ (c : AdmCmd) (s : State), s.withheld = false ∧ s.admBusy = some c ∧ c.opc = 5 ∧ c.src < 96 ∧ c.dst < 96 ∧ c.ctx < 1024 ∧ s.boundCtx c.src = some c.ctx ∧ (s.coach c.src).moving = some c.dst ∧ s.fld COA_ROLE_BOUND c.dst = 0 ∧ (s.coach c.src).reqs ≠ []) :=
  ⟨⟨0, 4, (bytesB (bnd 4 0x60 9 3 1)), (bnd 4 0x60 9 3 1), 7, (bound5 (admReadyS 2)), by unfold AdmReady; decide +kernel⟩,
    ⟨0, 5, (bytesB (mv 6 5)), (mv 6 5), 7, (bound5 (admReadyS 2)), 6, 5, by unfold AdmReady; decide +kernel⟩,
    ⟨0, 5, (bytesB (mv 5 0x20)), (mv 5 0x20), 7, (bound5 (admReadyS 2)), 5, 24, by unfold AdmReady; decide +kernel⟩,
    ⟨mvc, (mvS [{ id := 1, n := 0, off := 0, len := 1, va := 0, write := false, cls := 0 }]), by decide +kernel⟩⟩

/-- ContextsBindUnbindAndMoveUnits: states and operands that meet the hypotheses, part 3. -/
theorem hyps_ContextsBindUnbindAndMoveUnits_3 :
    (∃ (c : AdmCmd) (s : State), s.withheld = false ∧ s.admBusy = some c ∧ c.opc = 5 ∧ c.src < 96 ∧ c.dst < 96 ∧ c.ctx < 1024 ∧ s.boundCtx c.src = some c.ctx ∧ (s.coach c.src).moving = some c.dst ∧ s.fld COA_ROLE_BOUND c.dst = 0 ∧ (s.coach c.src).reqs = [] ∧ memWf s.store = true ∧ mwf 0 s.bank = true ∧ mwf 0 s.vreg = true) :=
  ⟨mvc, (mvS []), by decide +kernel⟩

end W12

namespace W13

/-- Port 2 ready, context 7 LIVE with queue 3, its queue table in HBM at virtual address 0x1000. -/
def qS (q : QueueS) (f : CtxS → CtxS := id) (s : State := running) : State :=
  { withCtx s 7 (fun x => f { x with port := 2, part := 0, qtable := 0x1000, queues := if q = {} then [] else [(3, q)] }) with ports := [(2, { up := true, ready := true, vfs := 4, slots := [(3 * 16 + 5, 8)], ats := [0, 4], cache := [(atsKey 4 9, 12), (atsKey 0 9, 13)] })] }
def q0 : QueueS := { en := true, sqBase := 0x2000, cqBase := 0x3000, log2 := 4, prio := 1, vec := 5, tail := 14, posted := 30, taken := 28, cqTail := 15, used := 3 }
def door7 : Door := .pf 2 28672
def qent (w : Nat) : List Nat := leBytes 8 0x4000 ++ leBytes 8 0x5000 ++ leBytes 4 w ++ List.replicate 12 0
/-- The tables with bytes at a virtual address below 2 MiB. -/
def withBytes (a : Nat) (bs : List Nat) (s : State) : State := { s with hbm := { s.hbm with bytes := memWrite s.hbm.bytes (0x200000 + a) bs } }
def wEn : Nat := 5 + 2 * 16 + 64 + 9 * 128
def wEn4 : Nat := 4 + 2 * 16 + 64 + 9 * 128
def cp0 : Compl := { no := 27, tag := some 77, status := 0, sqhead := 12, irq := true, held := true }
def strS (st : Nat) : State := put (qS q0) [(COA_ROLE_BOUND, 5, 0, 1), (COA_ROLE_CONTEXT, 5, 0, 7), (STR_STATE_STATE, 5, 3, st)]
def wo (w0 start tag mask : Nat) : List Nat := leBytes 4 w0 ++ leBytes 4 start ++ leBytes 8 tag ++ leBytes 16 mask ++ leBytes 4 3 ++ leBytes 4 (2 ^ 32 - 1) ++ leBytes 8 0 ++ leBytes 4 0x123456 ++ leBytes 12 0
def woS (b : List Nat) (q : QueueS := q0) : State := withBytes (0x2000 + 12 * 64) b (put (qS q) [(COA_ROLE_BOUND, 5, 0, 1), (COA_ROLE_CONTEXT, 5, 0, 7), (COA_STATE_STATE, 5, 0, 1), (FAB_STATE_LOADED, 0, 0, 1), (COA_ROLE_BOUND, 6, 0, 1), (COA_ROLE_CONTEXT, 6, 0, 7), (COA_STATE_STATE, 6, 0, 6)])
def qrun : QueueS := { q0 with running := [{ no := 27, coaches := [5] }] }
def endS : State := (qS qrun).updCoach 5 (fun c => { c with ended := true })
def cp1 : Compl := { cp0 with held := false }
def hq (asked : Bool) (vn port : Nat) : HostReq := { port := port, asked := asked, pkt := { vn := vn, addr := 0x9123, ctx := 7, src := 1, dst := 0x253, hops := 2, tag := 8, uid := 5000, len := 2, data := if vn == 2 then [1, 2, 3] else [] } }
def bound5 (s : State) : State := { put s [(COA_ROLE_BOUND, 5, 0, 1), (COA_ROLE_CONTEXT, 5, 0, 7), (COA_STATE_STATE, 5, 0, 2), (COA_ROLE_EPOCH, 5, 0, 255), (DMA_CTX_BOUND, 1, 3, 1), (DMA_CTX_CONTEXT, 1, 3, 7), (FAB_PORTCTX_BOUND, 2, 3, 1), (FAB_PORTCTX_CONTEXT, 2, 3, 7)] with bank := [(5 * 131072 + 4, 9), (6 * 131072 + 4, 9)], store := [(5 * storeSize + 4, 9), (6 * storeSize + 3, 4)], vreg := [(5 * 32768 + 3, 4), (7 * 32768 + 3, 4)] }
def pcS (f : CtxS → CtxS := id) : State := { put (bound5 (qS qrun f)) [(QUE_ADMCFG_EN, 2, 0, 1)] with hostReq := [hq false 0 2, hq false 0 1, hq true 2 2, hq true 0 2], adm := [(2, { tail := 2 })], admBusy := some { port := 2, opc := 2, ctx := 7, tag := 5 } }
def cpn : Compl := { no := 28, tag := none, status := 4, sqhead := 13 }
def qcan : QueueS := { q0 with cancel := 29 }

/-- DoorbellsMoveTheirQueues: states and operands that meet the hypotheses, part 1. -/
theorem hyps_DoorbellsMoveTheirQueues_1 :
    (∃ (d : Door) (r : Fin 64) (v : BitVec 12) (host : List Byte) (w : BitVec 32) (k : Fin 256) (x : BitVec 16) (s : State), DoorFree d s ∧ s.doorOf d = none) ∧
    (∃ (d : Door) (r : Fin 64) (v : BitVec 12) (host : List Byte) (w : BitVec 32) (k : Fin 256) (x : BitVec 16) (s : State) (p : Nat) (o : Option Nat), DoorFree d s ∧ ((∀ n, o = some n → (s.ctx n).state ∉ [1, 2] ∨ s.pairRole n = 2)) ∧ s.doorOf d = some (p, o)) ∧
    (∃ (d : Door) (p n : Nat) (r : Fin 64) (q : QueueS) (s : State) (v : BitVec 12), DoorFree d s ∧ s.doorOf d = some (p, some n) ∧ (s.ctx n).state ∈ [1, 2] ∧ s.pairRole n ≠ 2 ∧ s.mirroring = false ∧ q = s.queue n r ∧ q.en = false) ∧
    (∃ (d : Door) (p n : Nat) (r : Fin 64) (q : QueueS) (s : State) (v : BitVec 12), DoorFree d s ∧ s.doorOf d = some (p, some n) ∧ (s.ctx n).state ∈ [1, 2] ∧ s.pairRole n ≠ 2 ∧ s.mirroring = false ∧ q = s.queue n r ∧ q.en = true ∧ v.toNat < 2 ^ q.log2 ∧ q.disabling = false) :=
  ⟨⟨(.pf 1 28672), 3, 4, [], 0, 0, 0, (qS q0), .inl (by decide +kernel), by decide +kernel⟩,
    ⟨(.pf 2 32768), 3, 4, [], 0, 0, 0, (qS q0), 2, (some 8), .inl (by decide +kernel), forall_some (by decide +kernel), by decide +kernel⟩,
    ⟨door7, 2, 7, 3, {}, (qS {}), 4, .inl (by decide +kernel), by decide +kernel⟩,
    ⟨door7, 2, 7, 3, q0, (qS q0), 1, .inl (by decide +kernel), by decide +kernel⟩⟩

/-- DoorbellsMoveTheirQueues: states and operands that meet the hypotheses, part 2. -/
theorem hyps_DoorbellsMoveTheirQueues_2 :
    (∃ (d : Door) (p n : Nat) (r : Fin 64) (q : QueueS) (s : State) (v : BitVec 12), DoorFree d s ∧ s.doorOf d = some (p, some n) ∧ (s.ctx n).state ∈ [1, 2] ∧ s.pairRole n ≠ 2 ∧ s.mirroring = false ∧ q = s.queue n r ∧ q.en = true ∧ v.toNat < 2 ^ q.log2 ∧ q.disabling = true) ∧
    (∃ (d : Door) (p n : Nat) (r : Fin 64) (q : QueueS) (s : State) (v : BitVec 12), DoorFree d s ∧ s.doorOf d = some (p, some n) ∧ (s.ctx n).state ∈ [1, 2] ∧ s.pairRole n ≠ 2 ∧ s.mirroring = false ∧ q = s.queue n r ∧ q.en = true ∧ v.toNat < 2 ^ q.log2) ∧
    (∃ (d : Door) (p n : Nat) (r : Fin 64) (q : QueueS) (s : State) (host : List Byte) (bs : List Nat) (w : Nat) (u : State), DoorFree d s ∧ s.doorOf d = some (p, some n) ∧ (s.ctx n).state ∈ [1, 2] ∧ s.pairRole n ≠ 2 ∧ s.mirroring = false ∧ q = s.queue n r ∧ u = s.tallyRead n ((s.ctx n).qtable + 32 * r.val) 32 ∧ s.vread n ((s.ctx n).qtable + 32 * r.val) 32 (host.map BitVec.toNat) = some bs ∧ w = leNat ((bs.drop 16).take 4) ∧ leNat (bs.take 8) % 64 = 0 ∧ leNat ((bs.drop 8).take 8) % 64 = 0 ∧ 2 ≤ bitsOf w 0 4 ∧ bitsOf w 0 4 ≤ 12 ∧ bitsOf w 6 1 = 1 ∧ q.en = false) ∧
    (∃ (d : Door) (p n : Nat) (r : Fin 64) (q : QueueS) (s : State) (host : List Byte) (bs : List Nat) (w : Nat) (u : State), DoorFree d s ∧ s.doorOf d = some (p, some n) ∧ (s.ctx n).state ∈ [1, 2] ∧ s.pairRole n ≠ 2 ∧ s.mirroring = false ∧ q = s.queue n r ∧ u = s.tallyRead n ((s.ctx n).qtable + 32 * r.val) 32 ∧ s.vread n ((s.ctx n).qtable + 32 * r.val) 32 (host.map BitVec.toNat) = some bs ∧ w = leNat ((bs.drop 16).take 4) ∧ leNat (bs.take 8) % 64 = 0 ∧ leNat ((bs.drop 8).take 8) % 64 = 0 ∧ 2 ≤ bitsOf w 0 4 ∧ bitsOf w 0 4 ≤ 12 ∧ bitsOf w 6 1 = 1 ∧ q.en = true ∧ q.disabling = false ∧ q.log2 = bitsOf w 0 4) :=
  ⟨⟨door7, 2, 7, 3, { q0 with disabling := true }, (qS { q0 with disabling := true }), 1, .inl (by decide +kernel), by decide +kernel⟩,
    ⟨door7, 2, 7, 3, q0, (qS q0), 12, .inl (by decide +kernel), by decide +kernel⟩,
    ⟨door7, 2, 7, 3, {}, (withBytes (0x1000 + 96) (qent wEn) (qS {})), [], (qent wEn), wEn, (nx (ok ((withBytes (0x1000 + 96) (qent wEn) (qS {})).tallyRead 7 (0x1000 + 96) 32))), .inl (by decide +kernel), by decide +kernel⟩,
    ⟨door7, 2, 7, 3, q0, (withBytes (0x1000 + 96) (qent wEn4) (qS q0)), [], (qent wEn4), wEn4, (nx (ok ((withBytes (0x1000 + 96) (qent wEn4) (qS q0)).tallyRead 7 (0x1000 + 96) 32))), .inl (by decide +kernel), by decide +kernel⟩⟩

/-- DoorbellsMoveTheirQueues: states and operands that meet the hypotheses, part 3. -/
theorem hyps_DoorbellsMoveTheirQueues_3 :
    (∃ (d : Door) (p n : Nat) (r : Fin 64) (q : QueueS) (s : State) (host : List Byte) (bs : List Nat) (w : Nat) (u : State), DoorFree d s ∧ s.doorOf d = some (p, some n) ∧ (s.ctx n).state ∈ [1, 2] ∧ s.pairRole n ≠ 2 ∧ s.mirroring = false ∧ q = s.queue n r ∧ u = s.tallyRead n ((s.ctx n).qtable + 32 * r.val) 32 ∧ s.vread n ((s.ctx n).qtable + 32 * r.val) 32 (host.map BitVec.toNat) = some bs ∧ w = leNat ((bs.drop 16).take 4) ∧ leNat (bs.take 8) % 64 = 0 ∧ leNat ((bs.drop 8).take 8) % 64 = 0 ∧ 2 ≤ bitsOf w 0 4 ∧ bitsOf w 0 4 ≤ 12 ∧ bitsOf w 6 1 = 0 ∧ q.en = true) ∧
    (∃ (d : Door) (p n : Nat) (r : Fin 64) (q : QueueS) (s : State) (host : List Byte) (bs : List Nat) (w : Nat) (u : State), DoorFree d s ∧ s.doorOf d = some (p, some n) ∧ (s.ctx n).state ∈ [1, 2] ∧ s.pairRole n ≠ 2 ∧ s.mirroring = false ∧ q = s.queue n r ∧ u = s.tallyRead n ((s.ctx n).qtable + 32 * r.val) 32 ∧ s.vread n ((s.ctx n).qtable + 32 * r.val) 32 (host.map BitVec.toNat) = some bs ∧ w = leNat ((bs.drop 16).take 4) ∧ leNat (bs.take 8) % 64 = 0 ∧ leNat ((bs.drop 8).take 8) % 64 = 0 ∧ 2 ≤ bitsOf w 0 4 ∧ bitsOf w 0 4 ≤ 12 ∧ bitsOf w 6 1 = 0 ∧ q.en = false) ∧
    (∃ (d : Door) (p n : Nat) (r : Fin 64) (q : QueueS) (s : State) (c : Compl) (rest : List Compl), DoorFree d s ∧ s.doorOf d = some (p, some n) ∧ (s.ctx n).state ∈ [1, 2] ∧ s.pairRole n ≠ 2 ∧ s.mirroring = false ∧ q = s.queue n r ∧ q.compl = c :: rest ∧ c.held = true) ∧
    (∃ (d : Door) (p n : Nat) (r : Fin 64) (q : QueueS) (s : State), DoorFree d s ∧ s.doorOf d = some (p, some n) ∧ (s.ctx n).state ∈ [1, 2] ∧ s.pairRole n ≠ 2 ∧ s.mirroring = false ∧ q = s.queue n r ∧ (∀ c ∈ q.compl, c.held = false)) :=
  ⟨⟨door7, 2, 7, 3, q0, (withBytes (0x1000 + 96) (qent 5) (qS q0)), [], (qent 5), 5, (nx (ok ((withBytes (0x1000 + 96) (qent 5) (qS q0)).tallyRead 7 (0x1000 + 96) 32))), .inl (by decide +kernel), by decide +kernel⟩,
    ⟨door7, 2, 7, 3, {}, (withBytes (0x1000 + 96) (qent 5) (qS {})), [], (qent 5), 5, (nx (ok ((withBytes (0x1000 + 96) (qent 5) (qS {})).tallyRead 7 (0x1000 + 96) 32))), .inl (by decide +kernel), by decide +kernel⟩,
    ⟨door7, 2, 7, 3, { q0 with compl := [cp0] }, (qS { q0 with compl := [cp0] }), cp0, [], .inl (by decide +kernel), by decide +kernel⟩,
    ⟨door7, 2, 7, 3, q0, (qS q0), .inl (by decide +kernel), by decide +kernel⟩⟩

/-- DoorbellsMoveTheirQueues: states and operands that meet the hypotheses, part 4. -/
theorem hyps_DoorbellsMoveTheirQueues_4 :
    (∃ (d : Door) (p n : Nat) (r : Fin 64) (q : QueueS) (s : State) (w : BitVec 32) (k : Nat), DoorFree d s ∧ s.doorOf d = some (p, some n) ∧ (s.ctx n).state ∈ [1, 2] ∧ s.pairRole n ≠ 2 ∧ s.mirroring = false ∧ q = s.queue n r ∧ ordinalOf (bitsOf w.toNat 0 7) = some k ∧ s.boundCtx k ≠ some n) ∧
    (∃ (d : Door) (p n : Nat) (r : Fin 64) (q : QueueS) (s : State) (w : BitVec 32) (k : Nat), DoorFree d s ∧ s.doorOf d = some (p, some n) ∧ (s.ctx n).state ∈ [1, 2] ∧ s.pairRole n ≠ 2 ∧ s.mirroring = false ∧ q = s.queue n r ∧ ordinalOf (bitsOf w.toNat 0 7) = some k ∧ s.boundCtx k = some n ∧ s.fld STR_STATE_STATE k (bitsOf w.toNat 8 3) = 3) ∧
    (∃ (d : Door) (p n : Nat) (r : Fin 64) (q : QueueS) (s : State) (w : BitVec 32) (k : Nat), DoorFree d s ∧ s.doorOf d = some (p, some n) ∧ (s.ctx n).state ∈ [1, 2] ∧ s.pairRole n ≠ 2 ∧ s.mirroring = false ∧ q = s.queue n r ∧ ordinalOf (bitsOf w.toNat 0 7) = some k ∧ s.boundCtx k = some n ∧ s.fld STR_STATE_STATE k (bitsOf w.toNat 8 3) ∉ [2, 3]) ∧
    (∃ (d : Door) (p n : Nat) (r : Fin 64) (q : QueueS) (s : State) (k : Fin 256) (x : BitVec 16), DoorFree d s ∧ s.doorOf d = some (p, some n) ∧ (s.ctx n).state ∈ [1, 2] ∧ s.pairRole n ≠ 2 ∧ s.mirroring = false ∧ q = s.queue n r ∧ s.fld DMA_CTX_BOUND (k.val / 64) (k.val % 64) = 1 ∧ s.fld DMA_CTX_CONTEXT (k.val / 64) (k.val % 64) = n ∧ x.toNat < 2 ^ s.fld DMA_RINGSIZE_LOG2 (k.val / 64) (k.val % 64)) :=
  ⟨⟨door7, 2, 7, 3, q0, (qS q0), 0x305, 5, .inl (by decide +kernel), by decide +kernel⟩,
    ⟨door7, 2, 7, 3, q0, (strS 3), 0x305, 5, .inl (by decide +kernel), by decide +kernel⟩,
    ⟨door7, 2, 7, 3, q0, (strS 1), 0x305, 5, .inl (by decide +kernel), by decide +kernel⟩,
    ⟨door7, 2, 7, 3, q0, (put (qS q0) [(DMA_CTX_BOUND, 3, 63, 1), (DMA_CTX_CONTEXT, 3, 63, 7), (DMA_RINGSIZE_LOG2, 3, 63, 10)]), 255, 0x3ff, .inl (by decide +kernel), by decide +kernel⟩⟩

/-- DoorbellsMoveTheirQueues: states and operands that meet the hypotheses, part 5. -/
theorem hyps_DoorbellsMoveTheirQueues_5 :
    (∃ (d : Door) (p n : Nat) (r : Fin 64) (q : QueueS) (s : State) (k : Fin 256) (x : BitVec 16), DoorFree d s ∧ s.doorOf d = some (p, some n) ∧ (s.ctx n).state ∈ [1, 2] ∧ s.pairRole n ≠ 2 ∧ s.mirroring = false ∧ q = s.queue n r ∧ (s.fld DMA_CTX_BOUND (k.val / 64) (k.val % 64) ≠ 1 ∨ s.fld DMA_CTX_CONTEXT (k.val / 64) (k.val % 64) ≠ n)) ∧
    (∃ (n : Ctx) (r : Fin 64) (q : QueueS) (s : State), s.withheld = false ∧ q = s.queue n r ∧ q.disabling = true ∧ q.running = [] ∧ q.compl = []) ∧
    (∃ (n : Ctx) (r : Fin 64) (q : QueueS) (s : State), s.withheld = false ∧ q = s.queue n r ∧ (q.disabling = false ∨ q.running ≠ [] ∨ q.compl ≠ [])) :=
  ⟨⟨door7, 2, 7, 3, q0, (qS q0), 255, 0xffff, .inl (by decide +kernel), by decide +kernel⟩,
    ⟨7, 3, { q0 with disabling := true, again := true }, (qS { q0 with disabling := true, again := true }), by decide +kernel⟩,
    ⟨7, 3, q0, (qS q0), by decide +kernel⟩⟩

/-- WorkOrdersStartCompleteAndAreWritten: states and operands that meet the hypotheses, part 1. -/
theorem hyps_WorkOrdersStartCompleteAndAreWritten_1 :
    (∃ (n : Ctx) (host : List (Nat × List Byte)) (s : State), s.withheld = false ∧ ((s.ctx n).state ≠ 1 ∨ s.fld REC_STATUS_PFW 0 = 1 ∨ s.pairRole n = 2 ∨ s.fenced n = true)) ∧
    (∃ (n : Ctx) (r : Nat) (h : List Byte) (no : Nat) (bs : List Nat) (o : Order) (q : QueueS) (s u : State), s.withheld = false ∧ (s.ctx n).state = 1 ∧ s.fld REC_STATUS_PFW 0 ≠ 1 ∧ s.pairRole n ≠ 2 ∧ s.fenced n = false ∧ s.mirroring = false ∧ (s.ctx n).ringOrder = [r] ∧ q = s.queue n r ∧ q.headNo = some no ∧ q.repost = [] ∧ (s.ctx n).port < 4 ∧ s.vread n (q.sqBase + no % 2 ^ q.log2 * 64) 64 (h.map BitVec.toNat) = some bs ∧ o = readOrder bs ∧ u = s.tallyRead n (q.sqBase + no % 2 ^ q.log2 * 64) 64 ∧ o.waitPrev = true ∧ q.running ≠ []) ∧
    (∃ (n : Ctx) (r : Nat) (h : List Byte) (no : Nat) (bs : List Nat) (o : Order) (q : QueueS) (s u : State), s.withheld = false ∧ (s.ctx n).state = 1 ∧ s.fld REC_STATUS_PFW 0 ≠ 1 ∧ s.pairRole n ≠ 2 ∧ s.fenced n = false ∧ s.mirroring = false ∧ (s.ctx n).ringOrder = [r] ∧ q = s.queue n r ∧ q.headNo = some no ∧ q.repost = [] ∧ (s.ctx n).port < 4 ∧ s.vread n (q.sqBase + no % 2 ^ q.log2 * 64) 64 (h.map BitVec.toNat) = some bs ∧ o = readOrder bs ∧ u = s.tallyRead n (q.sqBase + no % 2 ^ q.log2 * 64) 64 ∧ (o.waitPrev = false ∨ q.running = []) ∧ o.rein = true ∧ no < q.cancel) ∧
    (∃ (n : Ctx) (r : Nat) (h : List Byte) (no : Nat) (bs : List Nat) (o : Order) (q : QueueS) (s u : State), s.withheld = false ∧ (s.ctx n).state = 1 ∧ s.fld REC_STATUS_PFW 0 ≠ 1 ∧ s.pairRole n ≠ 2 ∧ s.fenced n = false ∧ s.mirroring = false ∧ (s.ctx n).ringOrder = [r] ∧ q = s.queue n r ∧ q.headNo = some no ∧ q.repost = [] ∧ (s.ctx n).port < 4 ∧ s.vread n (q.sqBase + no % 2 ^ q.log2 * 64) 64 (h.map BitVec.toNat) = some bs ∧ o = readOrder bs ∧ u = s.tallyRead n (q.sqBase + no % 2 ^ q.log2 * 64) 64 ∧ (o.waitPrev = false ∨ q.running = []) ∧ (o.rein = false ∨ q.cancel ≤ no) ∧ ((s.orderCheck n o).1 ≠ 0 ∨ o.kind = 0)) :=
  ⟨⟨8, [], (qS q0), by decide +kernel⟩,
    ⟨7, 3, [], 28, (wo 0x101 9 44 0x60), (readOrder (wo 0x101 9 44 0x60)), qrun, (woS (wo 0x101 9 44 0x60) qrun), (nx (ok ((woS (wo 0x101 9 44 0x60) qrun).tallyRead 7 (0x2000 + 12 * 64) 64))), by decide +kernel⟩,
    ⟨7, 3, [], 28, (wo 0x201 9 44 0x60), (readOrder (wo 0x201 9 44 0x60)), qcan, (woS (wo 0x201 9 44 0x60) qcan), (nx (ok ((woS (wo 0x201 9 44 0x60) qcan).tallyRead 7 (0x2000 + 12 * 64) 64))), by decide +kernel⟩,
    ⟨7, 3, [], 28, (wo 0xC01 9 44 0x80), (readOrder (wo 0xC01 9 44 0x80)), q0, (woS (wo 0xC01 9 44 0x80)), (nx (ok ((woS (wo 0xC01 9 44 0x80)).tallyRead 7 (0x2000 + 12 * 64) 64))), by decide +kernel⟩⟩

/-- WorkOrdersStartCompleteAndAreWritten: states and operands that meet the hypotheses, part 2. -/
theorem hyps_WorkOrdersStartCompleteAndAreWritten_2 :
    (∃ (n : Ctx) (r : Nat) (h : List Byte) (no : Nat) (bs : List Nat) (o : Order) (q : QueueS) (s u : State), s.withheld = false ∧ (s.ctx n).state = 1 ∧ s.fld REC_STATUS_PFW 0 ≠ 1 ∧ s.pairRole n ≠ 2 ∧ s.fenced n = false ∧ s.mirroring = false ∧ (s.ctx n).ringOrder = [r] ∧ q = s.queue n r ∧ q.headNo = some no ∧ q.repost = [] ∧ (s.ctx n).port < 4 ∧ s.vread n (q.sqBase + no % 2 ^ q.log2 * 64) 64 (h.map BitVec.toNat) = some bs ∧ o = readOrder bs ∧ u = s.tallyRead n (q.sqBase + no % 2 ^ q.log2 * 64) 64 ∧ (o.waitPrev = false ∨ q.running = []) ∧ (o.rein = false ∨ (q.cancel ≤ no ∧ no < q.released)) ∧ o.kind = 1 ∧ s.orderCheck n o = (0, 0) ∧ (∀ k ∈ o.coaches, s.coachFree k = true)) ∧
    (∃ (n : Ctx) (r : Nat) (h : List Byte) (no : Nat) (bs : List Nat) (o : Order) (q : QueueS) (s u : State), s.withheld = false ∧ (s.ctx n).state = 1 ∧ s.fld REC_STATUS_PFW 0 ≠ 1 ∧ s.pairRole n ≠ 2 ∧ s.fenced n = false ∧ s.mirroring = false ∧ (s.ctx n).ringOrder = [r] ∧ q = s.queue n r ∧ q.headNo = some no ∧ q.repost = [] ∧ (s.ctx n).port < 4 ∧ s.vread n (q.sqBase + no % 2 ^ q.log2 * 64) 64 (h.map BitVec.toNat) = some bs ∧ o = readOrder bs ∧ u = s.tallyRead n (q.sqBase + no % 2 ^ q.log2 * 64) 64 ∧ o.kind = 1 ∧ s.orderCheck n o = (0, 0) ∧ ((o.rein = false ∧ ∃ k ∈ o.coaches, s.coachFree k = false) ∨ (o.rein = true ∧ q.cancel ≤ no ∧ q.released ≤ no))) ∧
    (∃ (n : Ctx) (s : State), s.withheld = false ∧ (s.pairRole n = 2 ∨ s.doneOrder n (List.range 64) = none)) ∧
    (∃ (n : Ctx) (s : State) (r : Nat) (w : Running), s.withheld = false ∧ s.pairRole n ≠ 2 ∧ s.doneOrder n (List.range 64) = some (r, w) ∧ (s.ctx n).port < 4) :=
  ⟨⟨7, 3, [], 28, (wo 0x401 1023 44 0x60), (readOrder (wo 0x401 1023 44 0x60)), q0, (woS (wo 0x401 1023 44 0x60)), (nx (ok ((woS (wo 0x401 1023 44 0x60)).tallyRead 7 (0x2000 + 12 * 64) 64))), by decide +kernel⟩,
    ⟨7, 3, [], 28, (wo 0x401 1023 44 0x60), (readOrder (wo 0x401 1023 44 0x60)), q0, ((woS (wo 0x401 1023 44 0x60)).setFld COA_STATE_STATE 5 0 2), (nx (ok (((woS (wo 0x401 1023 44 0x60)).setFld COA_STATE_STATE 5 0 2).tallyRead 7 (0x2000 + 12 * 64) 64))), by decide +kernel⟩,
    ⟨7, (qS q0), by decide +kernel⟩,
    ⟨7, endS, 3, { no := 27, coaches := [5] }, by decide +kernel⟩⟩

/-- WorkOrdersStartCompleteAndAreWritten: states and operands that meet the hypotheses, part 3. -/
theorem hyps_WorkOrdersStartCompleteAndAreWritten_3 :
    (∃ (n : Ctx) (r : Fin 64) (host : List Byte) (q : QueueS) (c : Compl) (rest : List Compl) (s : State), s.withheld = false ∧ q = s.queue n r ∧ q.compl = c :: rest ∧ (c.held = true ∨ 2 ^ q.log2 ≤ q.used)) ∧
    (∃ (n : Ctx) (r : Fin 64) (host : List Byte) (q : QueueS) (c : Compl) (rest : List Compl) (s : State), s.withheld = false ∧ q = s.queue n r ∧ q.compl = c :: rest ∧ s.fenced n = true) ∧
    (∃ (n : Ctx) (r : Fin 64) (host : List Byte) (q : QueueS) (c : Compl) (rest : List Compl) (s : State) (bs : List Nat) (o : Order), s.withheld = false ∧ q = s.queue n r ∧ q.compl = c :: rest ∧ c.tag = none ∧ c.held = false ∧ q.used < 2 ^ q.log2 ∧ c.marks = none ∧ s.fenced n = false ∧ s.vread n (q.sqBase + c.no % 2 ^ q.log2 * 64) 64 (host.map BitVec.toNat) = some bs ∧ o = readOrder bs) ∧
    (∃ (n : Ctx) (r : Fin 64) (host : List Byte) (q : QueueS) (c : Compl) (rest : List Compl) (s : State) (tag : Nat), s.withheld = false ∧ q = s.queue n r ∧ q.compl = c :: rest ∧ c.tag = some tag ∧ c.held = false ∧ q.used < 2 ^ q.log2 ∧ c.marks = none ∧ s.mirroring = false ∧ s.fenced n = false) :=
  ⟨⟨7, 3, [], { q0 with compl := [cp0] }, cp0, [], (qS { q0 with compl := [cp0] }), by decide +kernel⟩,
    ⟨7, 3, [], { q0 with compl := [cp1] }, cp1, [], (put (qS { q0 with compl := [cp1] }) [(CPL_STATE_STATE, 0, 0, 7), (CPL_CTXROLE_ROLE, 0, 7, 1)]), by decide +kernel⟩,
    ⟨7, 3, [], { q0 with compl := [cpn] }, cpn, [], (woS (wo 0xC01 9 44 0x80) { q0 with compl := [cpn] }), (wo 0xC01 9 44 0x80), (readOrder (wo 0xC01 9 44 0x80)), by decide +kernel⟩,
    ⟨7, 3, [], { q0 with compl := [cp1] }, cp1, [], (qS { q0 with compl := [cp1] }), 77, by decide +kernel⟩⟩

/-- PciePortsResetTranslateAndComplete: states and operands that meet the hypotheses, part 1. -/
theorem hyps_PciePortsResetTranslateAndComplete_1 :
    (∃ (p : Fin 4) (s : State), s.withheld = false) ∧
    (∃ (p : Fin 4) (vfs : Fin 257) (ats : List (Fin 257)) (s : State), s.withheld = false ∧ (s.port p).up = true) ∧
    (∃ (p : Fin 4) (vfs : Fin 257) (ats : List (Fin 257)) (s : State), s.withheld = false ∧ (s.port p).up = false) ∧
    (∃ (p : Fin 4) (v : Option (Fin 256)) (s : State), s.withheld = false ∧ (s.port p).up = false) :=
  ⟨⟨2, pcS, by decide +kernel⟩,
    ⟨2, 3, [], pcS, by decide +kernel⟩,
    ⟨1, 256, [256, 0], pcS, by decide +kernel⟩,
    ⟨1, none, pcS, by decide +kernel⟩⟩

/-- PciePortsResetTranslateAndComplete: states and operands that meet the hypotheses, part 2. -/
theorem hyps_PciePortsResetTranslateAndComplete_2 :
    (∃ (p : Fin 4) (s : State), s.withheld = false ∧ (s.port p).up = true) ∧
    (∃ (p : Fin 4) (f : Fin 256) (s : State), s.withheld = false ∧ (s.port p).up = true) ∧
    (∃ (p : Fin 4) (r : HostReq) (s : State), s.withheld = false ∧ s.hostReq.find? (fun r => r.port == p.val && r.asked) = some r) ∧
    (∃ (p : Fin 4) (r : HostReq) (s : State) (page : BitVec 52), s.withheld = false ∧ s.hostReq.find? (fun r => r.port == p.val && r.asked) = some r) :=
  ⟨⟨2, pcS, by decide +kernel⟩,
    ⟨2, 3, (pcS (fun x => { x with isvf := true, vf := 3 })), by decide +kernel⟩,
    ⟨2, (hq true 2 2), pcS, by decide +kernel⟩,
    ⟨2, (hq true 2 2), pcS, 77, by decide +kernel⟩⟩

/-- PciePortsResetTranslateAndComplete: states and operands that meet the hypotheses, part 3. -/
theorem hyps_PciePortsResetTranslateAndComplete_3 :
    (∃ (p : Fin 4) (i : Nat) (good : Bool) (data : List Byte) (r : HostReq) (s : State), s.withheld = false ∧ (s.hostReq.filter (fun r => r.port == p.val && !r.asked))[i]? = some r) ∧
    (∃ (p : Fin 4) (fn : Fin 257) (page : BitVec 52) (pages : Nat) (s : State), s.withheld = false) :=
  ⟨⟨2, 0, true, (List.replicate 32 7), (hq false 0 2), pcS, by decide +kernel⟩,
    ⟨2, 4, 9, 1, pcS, by decide +kernel⟩⟩

end W13

namespace W15

def pw (f : PwrS → PwrS) (s : State := running) : State := { s with pwr := f s.pwr }
def ent (st mask : Nat) (stopped : List (Nat × Nat)) (s : State := running) : State := pw (fun p => { p with entry := some (st, mask), stopped := stopped }) s
def idleHbm (s : State) : State := put s ((List.range 8).map (fun n => (HBM_CTL_MODE, n / 2, n % 2, 2)))
def s3S : State := { pw (fun p => { p with s3 := true, stopped := askOrder 3 15 }) with pm := { State.reset.pm with raising := false } }
def bSt (o : Nat) : List (Nat × Nat) := (askOrder 2 6).takeWhile (fun x => !(x == (o, 1)))
def wk (m : Nat) (avs : List AvsChg) (s : State := running) : State := pw (fun p => { p with waking := m, avs := avs }) (put (((s.setCarState 1 2).setCarState 3 2)) [(CLK_STATUS_LOCK1, 0, 0, 15), (CLK_STATUS_LOCK3, 0, 0, 15), (COA_STATE_STATE, 30, 0, 6)])
def pkW (s : State) : State := { s with net := { s.net with ports := [(64 + 6, [{ pkt := { vn := 0 }, i := 0 }])] } }
def padS : State := { put running [(IOB_PIN_HELD, 1, 3, 1), (IOB_PIN_HELD, 1, 4, 1), (IOB_PIN_HELD, 2, 4, 1)] with fab := [(1, { latched := [(3, 2), (4, 3), (5, 1)] }), (2, { latched := [(4, 2)] })] }

/-- PowerStatesAreEnteredRefusedAndLeft: states and operands that meet the hypotheses, part 1. -/
theorem hyps_PowerStatesAreEnteredRefusedAndLeft_1 :
    (∃ (mask : BitVec 4) (s : State), Hits PWR_CMD_STATE 0 0 s) ∧
    (∃ (mask : BitVec 4) (s : State), Hits PWR_CMD_STATE 0 0 s ∧ s.pwr.entry.isSome = true) ∧
    (∃ (mask : BitVec 4) (s : State) (i : Instr), (i = .wakeNAssert ∨ (i = .powerCmdS0 mask ∧ Hits PWR_CMD_STATE 0 0 s ∧ s.pwr.entry = none ∧ mask ≠ 0)) ∧ s.pwr.s3 = true ∧ (s.pm.raising = true ∨ s.pm.dead = true)) ∧
    (∃ (mask : BitVec 4) (s : State) (i : Instr), (i = .wakeNAssert ∨ (i = .powerCmdS0 mask ∧ Hits PWR_CMD_STATE 0 0 s ∧ s.pwr.entry = none ∧ mask ≠ 0)) ∧ s.pwr.s3 = true ∧ s.pm.raising = false ∧ s.pm.dead = false) :=
  ⟨⟨5, running, by unfold Hits; decide +kernel⟩,
    ⟨3, (ent 1 6 [(1, 0), (3, 1)] (put running [(COA_STATE_STATE, 30, 0, 6), (COA_STATE_STATE, 3, 0, 6)])), by unfold Hits; decide +kernel⟩,
    ⟨3, { s3S with pm := { s3S.pm with raising := true } }, .wakeNAssert, by unfold Hits; decide +kernel⟩,
    ⟨3, s3S, .wakeNAssert, by unfold Hits; decide +kernel⟩⟩

/-- PowerStatesAreEnteredRefusedAndLeft: states and operands that meet the hypotheses, part 2. -/
theorem hyps_PowerStatesAreEnteredRefusedAndLeft_2 :
    (∃ (mask : BitVec 4) (s : State), s.pwr.s3 = false ∧ (∀ c, c < 4 → s.carState c ∉ [1, 2])) ∧
    (∃ (mask : BitVec 4) (s : State), Hits PWR_CMD_STATE 0 0 s ∧ s.pwr.entry = none ∧ (mask = 0 ∨ (s.pwr.s3 = false ∧ ∀ c, c < 4 → bitsOf mask.toNat c 1 = 1 → s.carState c ∉ [1, 2]))) ∧
    (∃ (mask : BitVec 4) (s : State) (x : Instr × Nat), s.pwr.s3 = false ∧ (x = (.wakeNAssert, 15) ∨ (x = (.powerCmdS0 mask, mask.toNat) ∧ Hits PWR_CMD_STATE 0 0 s ∧ s.pwr.entry = none)) ∧ (∃ c, c < 4 ∧ bitsOf x.2 c 1 = 1 ∧ s.carState c ∈ [1, 2])) ∧
    (∃ (wfi : BitVec 4) (s : State), s.pwr.entry = none) :=
  ⟨⟨3, (running.setCarState 2 3), by decide +kernel⟩,
    ⟨0, running, by unfold Hits; decide +kernel⟩,
    ⟨3, (put (((running.setCarState 2 1).setCarState 1 2).setCarState 0 1) [(COA_STATE_STATE, 3, 0, 6), (COA_STATE_STATE, 4, 0, 6), (COA_ROLE_BOUND, 4, 0, 1), (COA_STATE_STATE, 5, 0, 1), (PWR_CFG_VEC, 0, 0, 5)]), (.powerCmdS0 3, 3), by unfold Hits; decide +kernel⟩,
    ⟨3, running, by decide +kernel⟩⟩

/-- PowerStatesAreEnteredRefusedAndLeft: states and operands that meet the hypotheses, part 3. -/
theorem hyps_PowerStatesAreEnteredRefusedAndLeft_3 :
    (∃ (wfi : BitVec 4) (s : State) (st mask o c : Nat), s.pwr.entry = some (st, mask) ∧ s.nextBlock = some (o, c)) ∧
    (∃ (wfi : BitVec 4) (s : State) (st mask o c : Nat), s.pwr.entry = some (st, mask) ∧ s.nextBlock = some (o, c) ∧ o = 6 ∧ (∃ i, i < 4 ∧ s.fld HCL_CTL_RUN c i = 1 ∧ bitsOf wfi.toNat i 1 = 0)) ∧
    (∃ (wfi : BitVec 4) (s : State) (st mask o c : Nat), s.pwr.entry = some (st, mask) ∧ s.nextBlock = some (o, c) ∧ o = 6 ∧ (∀ i, i < 4 → s.fld HCL_CTL_RUN c i = 1 → bitsOf wfi.toNat i 1 = 1) ∧ (∃ x ∈ askOrder st mask, x ∉ s.pwr.stopped ∧ x ≠ (o, c))) ∧
    (∃ (wfi : BitVec 4) (s : State) (st mask o c : Nat), s.pwr.entry = some (st, mask) ∧ s.nextBlock = some (o, c) ∧ o ≠ 6 ∧ s.blockAnswers wfi.toNat o c = .notYet) :=
  ⟨⟨3, (ent 1 6 [(1, 0), (3, 1)]), 1, 6, 3, 2, by decide +kernel⟩,
    ⟨1, (put (ent 2 6 (bSt 6)) [(HCL_CTL_RUN, 1, 0, 1), (HCL_CTL_RUN, 1, 2, 1)]), 2, 6, 6, 1, by decide +kernel⟩,
    ⟨5, (put (ent 2 6 (bSt 6)) [(HCL_CTL_RUN, 1, 0, 1), (HCL_CTL_RUN, 1, 2, 1)]), 2, 6, 6, 1, by decide +kernel⟩,
    ⟨0, (idleHbm { ent 2 6 (bSt 10) with hbmc := [(3, { reads := [{ pkt := { vn := 0 }, pa := 5, n := 32, write := false, cls := 0, entered := 0, order := 0 }] })] }), 2, 6, 10, 1, by decide +kernel⟩⟩

/-- PowerStatesAreEnteredRefusedAndLeft: states and operands that meet the hypotheses, part 4. -/
theorem hyps_PowerStatesAreEnteredRefusedAndLeft_4 :
    (∃ (wfi : BitVec 4) (s : State) (st mask o c : Nat) (r : Nat), s.pwr.entry = some (st, mask) ∧ s.nextBlock = some (o, c) ∧ o ≠ 6 ∧ s.blockAnswers wfi.toNat o c = .refuses r) ∧
    (∃ (wfi : BitVec 4) (s : State) (st mask o c : Nat), s.pwr.entry = some (st, mask) ∧ s.nextBlock = some (o, c) ∧ o ≠ 6 ∧ s.blockAnswers wfi.toNat o c = .agrees ∧ (∃ x ∈ askOrder st mask, x ∉ s.pwr.stopped ∧ x ≠ (o, c))) ∧
    (∃ (wfi : BitVec 4) (s : State) (st mask o c : Nat), s.pwr.entry = some (st, mask) ∧ s.nextBlock = some (o, c) ∧ o ≠ 6 ∧ s.blockAnswers wfi.toNat o c = .agrees ∧ ((∀ x ∈ askOrder st mask, x ∈ s.pwr.stopped ∨ x = (o, c)))) ∧
    (∃ (down : List (Fin 26)) (s : State), ((∀ c, c < 4 → bitsOf s.pwr.waking c 1 = 1 → s.fld (lockFld c) 0 ≠ 15 ∨ ∃ a ∈ s.pwr.avs, a.car = c))) :=
  ⟨⟨0, (ent 2 6 (bSt 10)), 2, 6, 10, 1, 1, by decide +kernel⟩,
    ⟨0, (put (ent 2 6 (bSt 3)) [(COA_STATE_STATE, 30, 0, 1), (COA_STATE_STATE, 50, 0, 1)]), 2, 6, 3, 1, by decide +kernel⟩,
    ⟨0, (put (ent 1 2 [(1, 0)]) [(COA_STATE_STATE, 30, 0, 1), (COA_STATE_STATE, 50, 0, 1)]), 1, 2, 3, 1, by decide +kernel⟩,
    ⟨[], (wk 2 [{ car := 1, target := 5, former := 6 }]), by decide +kernel⟩⟩

/-- PowerStatesAreEnteredRefusedAndLeft: states and operands that meet the hypotheses, part 5. -/
theorem hyps_PowerStatesAreEnteredRefusedAndLeft_5 :
    (∃ (down : List (Fin 26)) (s : State) (c : Nat), c < 4 ∧ bitsOf s.pwr.waking c 1 = 1 ∧ s.fld (lockFld c) 0 = 15 ∧ (∀ a ∈ s.pwr.avs, a.car ≠ c)) ∧
    (∃ (k : Coach) (s : State), (2 ≤ s.fld COA_STATE_STATE k ∨ s.packetWaits k = true ∨ s.lockRun = true ∨ 2 ≤ s.carState (carOf k) ∨ (s.carState (carOf k) = 0 ∧ (s.fld PWR_GATE_IDLE 0 = 0 ∨ s.coachCycles - (s.coach k).idleFrom < s.fld PWR_GATE_IDLE 0)))) ∧
    (∃ (k : Coach) (s : State), s.fld COA_STATE_STATE k < 2 ∧ s.packetWaits k = false ∧ s.lockRun = false ∧ (s.carState (carOf k) = 1 ∨ (s.carState (carOf k) = 0 ∧ s.fld PWR_GATE_IDLE 0 ≠ 0 ∧ s.fld PWR_GATE_IDLE 0 ≤ s.coachCycles - (s.coach k).idleFrom))) ∧
    (∃ (k : Coach) (s : State), (s.packetWaits k = false ∨ s.stoppedAt 3 (carOf k) = true ∨ s.fld COA_STATE_STATE k ≠ 6)) :=
  ⟨⟨[], (wk 10 [{ car := 0, target := 5, former := 6 }]), 1, by decide +kernel⟩,
    ⟨30, (put running [(PWR_GATE_IDLE, 0, 0, 0)]), by decide +kernel⟩,
    ⟨30, (running.setCarState 1 1), by decide +kernel⟩,
    ⟨30, (pkW running), by decide +kernel⟩⟩

/-- PowerStatesAreEnteredRefusedAndLeft: states and operands that meet the hypotheses, part 6. -/
theorem hyps_PowerStatesAreEnteredRefusedAndLeft_6 :
    (∃ (k : Coach) (s : State), s.packetWaits k = true ∧ s.stoppedAt 3 (carOf k) = false ∧ s.fld COA_STATE_STATE k = 6) ∧
    (∃ (d : Fin 2) (s : State), (s.pwr.s3 = true ∨ s.pm.inPor = true)) ∧
    (∃ (d : Fin 2) (s : State), s.pwr.s3 = false ∧ s.pm.inPor = false) ∧
    (∃ (c : Car) (q : Fin 4) (s : State), (s.carState c ∉ [2, 4] ∨ (s.carState c = 2 ∧ bitsOf s.pwr.waking c 1 = 0) ∨ s.pm.rails ≠ 6 ∨ s.pm.tripped = true ∨ (∃ a ∈ s.pwr.avs, a.car = c.val))) :=
  ⟨⟨30, (pkW (put { running with coachCycles := 5 } [(COA_STATE_STATE, 30, 0, 6)])), by decide +kernel⟩,
    ⟨1, { running with pm := { State.reset.pm with inPor := true } }, by decide +kernel⟩,
    ⟨1, { running with pm := { State.reset.pm with inPor := false } }, by decide +kernel⟩,
    ⟨1, 2, running, by decide +kernel⟩⟩

/-- PowerStatesAreEnteredRefusedAndLeft: states and operands that meet the hypotheses, part 7. -/
theorem hyps_PowerStatesAreEnteredRefusedAndLeft_7 :
    (∃ (c : Car) (q : Fin 4) (s : State), s.pm.rails = 6 ∧ s.pm.tripped = false ∧ (∀ a ∈ s.pwr.avs, a.car ≠ c.val) ∧ s.carState c = 2 ∧ bitsOf s.pwr.waking c 1 = 1) ∧
    (∃ (c : Car) (q : Fin 4) (s : State), s.pm.rails = 6 ∧ s.pm.tripped = false ∧ (∀ a ∈ s.pwr.avs, a.car ≠ c.val) ∧ s.carState c = 4) ∧
    (∃ (mask : BitVec 4) (s : State), Hits PWR_PADREL_CAR 0 0 s ∧ (∀ c, c < 4 → mwf 0 (s.fabS c).latched = true)) :=
  ⟨⟨1, 2, { put (pw (fun p => { p with waking := 2 }) (running.setCarState 1 2)) [(CLK_STATUS_LOCK1, 0, 0, 3)] with pm := { State.reset.pm with rails := 6 } }, by decide +kernel⟩,
    ⟨1, 2, { put (running.setCarState 1 4) [(CLK_STATUS_LOCK1, 0, 0, 11)] with pm := { State.reset.pm with rails := 6 } }, by decide +kernel⟩,
    ⟨2, padS, by unfold Hits; decide +kernel⟩⟩

end W15

namespace W16

def pw (f : PwrS → PwrS) (s : State := running) : State := { s with pwr := f s.pwr }
def opn (s : State) : State := { s with lock := { s.lock with opened := true } }
def runS : State := put { (running.setMhz 1250) with pm := { State.reset.pm with inPor := false, rails := 6 } } [(PWR_CFG_VEC, 0, 0, 5)]
def pf (avs : List AvsChg) (goal : Option Nat) (inForce volt : Nat) (f : PwrS → PwrS := id) (s : State := runS) : State := { s with pwr := f { s.pwr with avs := avs, goal := goal, inForce := inForce, volt := volt } }
def ch (c : Nat) (again : Bool := false) : AvsChg := { car := c, target := 82, former := 75, again := again }
def stp (s : State) : State := put s [(CLK_COACHF_MHZ, 0, 0, 0), (PWR_STATUS_PROFBUSY, 0, 0, 1), (PWR_PROFILE_SEL, 0, 0, 2)]
def rl (n tries : Nat) (s : State := running) : State := { s with pm := { s.pm with inPor := false, raising := true, rails := n, tries := tries } }
def dirty : State := put { runS with log := [(3, some { time := 0, seq := 0, code := 0, source := 0, ctx := none, aux := 0, data := 0 })], keyRam := 77 } ((fldTable.filter (fun f => f.rst + 1 < 2 ^ f.w)).map (fun f => (f, 1, 0, f.rst + 1)) ++ (fldTable.filter (fun f => f.rst + 1 < 2 ^ f.w)).map (fun f => (f, 0, 1, f.rst + 1)))

/-- SuppliesProfilesAndThrottling: states and operands that meet the hypotheses, part 1. -/
theorem hyps_SuppliesProfilesAndThrottling_1 :
    (∃ (c : Car) (s : State), (∀ a ∈ s.pwr.avs, a.car ≠ c.val)) ∧
    (∃ (c : Car) (s : State), (∃ a ∈ s.pwr.avs, a.car = c.val)) ∧
    (∃ (c : Car) (s : State) (a : AvsChg), s.pwr.avs.find? (fun a => a.car == c.val) = some a ∧ a.again = false) ∧
    (∃ (c : Car) (s : State) (a : AvsChg), s.pwr.avs.find? (fun a => a.car == c.val) = some a ∧ a.again = true ∧ s.carState c ≠ 2 ∧ s.pwr.held = none) :=
  ⟨⟨1, (pf [ch 0] (some 1) 0 75), by decide +kernel⟩,
    ⟨0, (pf [ch 0, ch 1] (some 1) 0 75), by decide +kernel⟩,
    ⟨0, (pf [ch 1, ch 0] (some 1) 0 75), (ch 0), by decide +kernel⟩,
    ⟨0, (put (pf [ch 1, ch 0 true] (some 1) 0 75) [(PWR_STATUS_PROFBUSY, 0, 0, 1)]), (ch 0 true), by decide +kernel⟩⟩

/-- SuppliesProfilesAndThrottling: states and operands that meet the hypotheses, part 2. -/
theorem hyps_SuppliesProfilesAndThrottling_2 :
    (∃ (c : Car) (s : State) (a : AvsChg), s.pwr.avs.find? (fun a => a.car == c.val) = some a ∧ a.again = true ∧ s.carState c = 2 ∧ bitsOf s.pwr.waking c 1 = 1) ∧
    (∃ (sel : Fin 4) (s : State), Hits PWR_PROFILE_SEL 0 0 s ∧ s.pwr.goal.isSome = true) ∧
    (∃ (sel : Fin 4) (s : State), Hits PWR_PROFILE_SEL 0 0 s ∧ s.pwr.goal = none ∧ s.fld PWR_PROFILE_SEL 0 = sel.val) ∧
    (∃ (sel : Fin 4) (s : State), Hits PWR_PROFILE_SEL 0 0 s ∧ s.pwr.goal = none ∧ s.fld PWR_PROFILE_SEL 0 ≠ sel.val) :=
  ⟨⟨2, (put (pf [ch 2 true] (some 1) 0 75 (fun p => { p with waking := 4 })) [(PWR_STATUS_PROFBUSY, 0, 0, 1)] |>.setCarState 2 2), (ch 2 true), by decide +kernel⟩,
    ⟨2, (pf [] (some 1) 0 75), by unfold Hits; decide +kernel⟩,
    ⟨0, (pf [] none 0 75), by unfold Hits; decide +kernel⟩,
    ⟨1, (pf [] none 0 75), by unfold Hits; decide +kernel⟩⟩

/-- SuppliesProfilesAndThrottling: states and operands that meet the hypotheses, part 3. -/
theorem hyps_SuppliesProfilesAndThrottling_3 :
    (∃ (g : Nat) (s : State), s.pwr.goal = some g ∧ (s.pwr.avs ≠ [] ∨ s.fld CLK_COACHF_MHZ 0 ≠ 0)) ∧
    (∃ (g : Nat) (s : State), s.pwr.goal = some g ∧ s.pwr.avs = [] ∧ s.fld CLK_COACHF_MHZ 0 = 0) ∧
    (∃ (w : BitVec 16) (tm : BitVec 8) (m : Nat) (s : State), m = s.fld CLK_COACHF_MHZ 0 ∧ m < 2048) ∧
    (∃ (i : Nat) (tm : BitVec 8) (s : State), tm.toNat < 105) :=
  ⟨⟨2, (pf [] (some 2) 0 75), by decide +kernel⟩,
    ⟨2, (stp (pf [] (some 2) 0 75)), by decide +kernel⟩,
    ⟨700, 80, 1250, (put (pf [] none 0 75) [(PWR_THRCTL_EN, 0, 0, 1), (PWR_THRCTL_TSOFT, 0, 0, 95), (PWR_PLIM_WATTS, 0, 0, 600)]), by decide +kernel⟩,
    ⟨3, 104, runS, by decide +kernel⟩⟩

/-- SuppliesProfilesAndThrottling: states and operands that meet the hypotheses, part 4. -/
theorem hyps_SuppliesProfilesAndThrottling_4 :
    (∃ (i : Nat) (tm : BitVec 8) (s : State), tm.toNat < 115) ∧
    (∃ (i : Nat) (tm : BitVec 8) (s : State), 105 ≤ tm.toNat) ∧
    (∃ (i : Nat) (tm : BitVec 8) (s : State), 115 ≤ tm.toNat) ∧
    (∃ (fails : List Coach) (l2 : List Car) (c : Car) (s : State), s.pm.raising = false) :=
  ⟨⟨3, 114, runS, by decide +kernel⟩,
    ⟨3, 105, (put runS [(DEV_LSSTAT_STATE, 0, 0, 2)]), by decide +kernel⟩,
    ⟨3, 115, runS, by decide +kernel⟩,
    ⟨[], [], 0, runS, by decide +kernel⟩⟩

/-- SuppliesProfilesAndThrottling: states and operands that meet the hypotheses, part 5. -/
theorem hyps_SuppliesProfilesAndThrottling_5 :
    (∃ (fails : List Coach) (l2 : List Car) (c : Car) (s : State), s.pm.raising = true ∧ s.pm.rails + 1 < 5) ∧
    (∃ (fails : List Coach) (l2 : List Car) (c : Car) (s : State), s.pm.raising = true ∧ s.pm.rails = 4) ∧
    (∃ (fails : List Coach) (l2 : List Car) (c : Car) (s : State), s.pm.raising = true ∧ s.pm.rails = 5 ∧ s.pwr.s3 = true) ∧
    (∃ (fails : List Coach) (l2 : List Car) (c : Car) (s : State), s.pm.raising = true ∧ s.pm.rails = 5 ∧ s.pwr.s3 = false) :=
  ⟨⟨[], [], 0, (rl 3 1), by decide +kernel⟩,
    ⟨[5, 95], [2], 0, { rl 4 1 with ports := [(1, { up := true }), (2, { ready := true })] }, by decide +kernel⟩,
    ⟨[5, 95], [2], 0, { rl 5 0 with pwr := { running.pwr with s3 := true } }, by decide +kernel⟩,
    ⟨[5, 95], [2], 0, { rl 5 1 with ports := [(1, { up := true }), (2, { ready := true })] }, by decide +kernel⟩⟩

/-- SuppliesProfilesAndThrottling: states and operands that meet the hypotheses, part 6. -/
theorem hyps_SuppliesProfilesAndThrottling_6 :
    (∃ (fails : List Coach) (l2 : List Car) (c : Car) (s : State), s.pm.raising = true ∧ s.pm.tries = 0) ∧
    (∃ (fails : List Coach) (l2 : List Car) (c : Car) (s : State), s.pm.raising = true ∧ s.pm.tries ≠ 0) ∧
    (∃ (faulty : List (BitVec 8)) (s : State), (s.pm.rails = 0 ∨ faulty = [])) ∧
    (∃ (faulty : List (BitVec 8)) (s : State), s.pm.rails ≠ 0 ∧ faulty ≠ []) :=
  ⟨⟨[], [], 0, (rl 4 0), by decide +kernel⟩,
    ⟨[], [], 0, (rl 4 1), by decide +kernel⟩,
    ⟨[], runS, by decide +kernel⟩,
    ⟨[0x41, 0x42], runS, by decide +kernel⟩⟩

/-- SuppliesProfilesAndThrottling: states and operands that meet the hypotheses, part 7. -/
theorem hyps_SuppliesProfilesAndThrottling_7 :
    (∃ (s : State), s.pm.inPor = true) ∧
    (∃ (s : State), s.pm.inPor = false) ∧
    (∃ (mode : BitVec 2) (addr : BitVec 6) (vs : BitVec 4) (s : State), s.pm.inPor = false) ∧
    (∃ (mode : BitVec 2) (addr : BitVec 6) (vs : BitVec 4) (s : State), s.pm.inPor = true) :=
  ⟨⟨State.reset, by decide +kernel⟩,
    ⟨runS, by decide +kernel⟩,
    ⟨1, 5, 3, runS, by decide +kernel⟩,
    ⟨0, 5, 3, State.reset, by decide +kernel⟩⟩

end W16

namespace W17

/-- Port 2 ready, context 7 LIVE with queue 3, its queue table in HBM at virtual address 0x1000. -/
def qS (q : QueueS) (f : CtxS → CtxS := id) (s : State := running) : State :=
  { withCtx s 7 (fun x => f { x with port := 2, part := 0, qtable := 0x1000, queues := if q = {} then [] else [(3, q)] }) with ports := [(2, { up := true, ready := true, vfs := 4, slots := [(3 * 16 + 5, 8)], ats := [0, 4], cache := [(atsKey 4 9, 12), (atsKey 0 9, 13)] })] }
def q0 : QueueS := { en := true, sqBase := 0x2000, cqBase := 0x3000, log2 := 4, prio := 1, vec := 5, tail := 14, posted := 30, taken := 28, cqTail := 15, used := 3 }
def qrun : QueueS := { q0 with running := [{ no := 27, coaches := [5] }] }
def bound5 (s : State) : State := { put s [(COA_ROLE_BOUND, 5, 0, 1), (COA_ROLE_CONTEXT, 5, 0, 7), (COA_STATE_STATE, 5, 0, 2), (COA_ROLE_EPOCH, 5, 0, 255), (DMA_CTX_BOUND, 1, 3, 1), (DMA_CTX_CONTEXT, 1, 3, 7), (FAB_PORTCTX_BOUND, 2, 3, 1), (FAB_PORTCTX_CONTEXT, 2, 3, 7)] with bank := [(5 * 131072 + 4, 9), (6 * 131072 + 4, 9)], store := [(5 * storeSize + 4, 9), (6 * storeSize + 3, 4), (30 * storeSize + 3, 4)], vreg := [(5 * 32768 + 3, 4), (7 * 32768 + 3, 4)] }
def fS (f : CtxS → CtxS := id) : State := bound5 (qS qrun (fun x => f { x with evtRing := 0x5000, evtLog2 := 4, evtVec := 9 }))
def opn (s : State) : State := { s with lock := { s.lock with opened := true } }
def rp (c : Nat) (n : Option Nat) (kind : Nat := 1) : Report := { cause := c, ctx := n, unit := 5, code := 3, kind := kind }
def fS9 (f : CtxS → CtxS := id) : State := let s := fS f; { s with ctxs := s.ctxs ++ [(9, { state := 2, part := 2, causes := [0x12] })] }
def rS : State := { fS9 (fun x => { x with state := 3, waitRec := [5, 101] }) with recov := { coaches := [5, 6], cars := [1, 2] } }
def hS : State := { put fS9 [(COA_ISSUED_ISSUED, 5, 0, 44), (STR_STATE_STATE, 5, 2, 3), (REC_HANGTMO_US, 0, 0, 1), (REC_PEERTMO_US, 0, 0, 1)] with aoCycles := 1000, recov := { issued := [(5, 45)], seen := [(133, 8), (2057, 800), (17, 55)], sampled := 100 } }

/-- FaultsStopResetAndRecover: states and operands that meet the hypotheses, part 1. -/
theorem hyps_FaultsStopResetAndRecover_1 :
    (∃ (host : List Byte) (s : State), s.withheld = false ∧ s.reports = []) ∧
    (∃ (host : List Byte) (r : Report) (rest : List Report) (s : State), s.withheld = false ∧ s.reports = r :: rest ∧ r.cause < 0x20) ∧
    (∃ (k : Coach) (code : BitVec 8) (s : State), s.withheld = false) ∧
    (∃ (i : Instr) (c : Car) (s : State), ((∃ (u : Fin 1024) (code : BitVec 8), u.val / 256 = c.val ∧ i = Instr.faultReport (.carErr u code)) ∨ (∃ k : Coach, k.val ∈ s.recov.coaches ∧ carOf k = c.val ∧ i = Instr.coachRecoveryTimeout k) ∨ (∃ (n : Ctx) (h : Fin 64), (s.ctx n).state = 3 ∧ s.fld DMA_CTX_BOUND c h = 1 ∧ s.fld DMA_CTX_CONTEXT c h = n ∧ i = Instr.brakeUnitTimeout n (.chan c h)) ∨ (∃ (n : Ctx) (h : Fin 16), (s.ctx n).state = 3 ∧ s.fld FAB_PORTCTX_BOUND c h = 1 ∧ s.fld FAB_PORTCTX_CONTEXT c h = n ∧ i = Instr.brakeUnitTimeout n (.port c h))) ∧ s.withheld = false ∧ mwf {} s.ctxs = true) :=
  ⟨⟨[], running, by decide +kernel⟩,
    ⟨[], (rp 0x10 (some 7)), [rp 0x11 none], { fS with reports := [rp 0x10 (some 7), rp 0x11 none] }, by decide +kernel⟩,
    ⟨5, 33, fS9, by decide +kernel⟩,
    ⟨(.faultReport (.carErr 0x205 7)), 2, fS9, .inl ⟨0x205, 7, by decide, rfl⟩, by decide +kernel⟩⟩

/-- FaultsStopResetAndRecover: states and operands that meet the hypotheses, part 2. -/
theorem hyps_FaultsStopResetAndRecover_2 :
    (∃ (u : Fin 1024) (code : BitVec 8) (s : State), s.withheld = false ∧ s.pm.wanted = none ∧ s.pm.running = false) ∧
    (∃ (c : Car) (s : State), s.withheld = false ∧ c.val ∉ s.recov.cars) ∧
    (∃ (c : Car) (s : State), s.withheld = false ∧ c.val ∈ s.recov.cars ∧ mwf {} s.ctxs = true) ∧
    (∃ (c : Car) (s : State), s.withheld = false ∧ c.val ∈ s.recov.cars ∧ mwf {} s.ctxs = true ∧ s.pm.wanted = none ∧ s.pm.running = false) :=
  ⟨⟨5, 7, fS, by decide +kernel⟩,
    ⟨2, fS, by decide +kernel⟩,
    ⟨1, rS, by decide +kernel⟩,
    ⟨1, rS, by decide +kernel⟩⟩

/-- FaultsStopResetAndRecover: states and operands that meet the hypotheses, part 3. -/
theorem hyps_FaultsStopResetAndRecover_3 :
    (∃ (k : Coach) (s : State), s.withheld = false ∧ k.val ∉ s.recov.coaches) ∧
    (∃ (k : Coach) (s : State), s.withheld = false ∧ k.val ∈ s.recov.coaches ∧ mwf {} s.ctxs = true) ∧
    (∃ (n : Ctx) (s : State), Hits REC_CTXCMD_OP 0 0 s ∧ (s.ctx n).state = 2 ∧ (∀ x ∈ (s.ctx n).causes, x = 0x11)) ∧
    (∃ (n : Ctx) (s : State), Hits REC_CTXCMD_OP 0 0 s ∧ ((s.ctx n).state ≠ 2 ∨ (∃ x ∈ (s.ctx n).causes, x ≠ 0x11))) :=
  ⟨⟨9, rS, by decide +kernel⟩,
    ⟨5, rS, by decide +kernel⟩,
    ⟨7, (put (fS (fun x => { x with state := 2, causes := [0x11, 0x11] })) [(COA_STATE_STATE, 5, 0, 4), (COA_ROLE_BOUND, 6, 0, 1), (COA_ROLE_CONTEXT, 6, 0, 7)]), by unfold Hits; decide +kernel⟩,
    ⟨9, fS9, by unfold Hits; decide +kernel⟩⟩

/-- FaultsStopResetAndRecover: states and operands that meet the hypotheses, part 4. -/
theorem hyps_FaultsStopResetAndRecover_4 :
    (∃ (n : Ctx) (s : State), Hits REC_CTXCMD_OP 0 0 s ∧ (s.ctx n).state ∈ [1, 2]) ∧
    (∃ (n : Ctx) (s : State), Hits REC_CTXCMD_OP 0 0 s ∧ (s.ctx n).state = 0) ∧
    (∃ (n : Ctx) (s : State) (k : Coach) (c : Car) (h : Fin 64) (p : Fin 16), s.withheld = false ∧ s.boundCtx k ≠ some n.val) ∧
    (∃ (n : Ctx) (s : State) (k : Coach) (c : Car) (h : Fin 64) (p : Fin 16), s.withheld = false ∧ (s.fld DMA_CTX_BOUND c h ≠ 1 ∨ s.fld DMA_CTX_CONTEXT c h ≠ n)) :=
  ⟨⟨7, fS9, by unfold Hits; decide +kernel⟩,
    ⟨11, fS9, by unfold Hits; decide +kernel⟩,
    ⟨7, fS9, 6, 0, 0, 0, by decide +kernel⟩,
    ⟨7, fS9, 0, 1, 2, 0, by decide +kernel⟩⟩

/-- FaultsStopResetAndRecover: states and operands that meet the hypotheses, part 5. -/
theorem hyps_FaultsStopResetAndRecover_5 :
    (∃ (n : Ctx) (s : State) (k : Coach) (c : Car) (h : Fin 64) (p : Fin 16), s.withheld = false ∧ (s.fld FAB_PORTCTX_BOUND c p ≠ 1 ∨ s.fld FAB_PORTCTX_CONTEXT c p ≠ n)) ∧
    (∃ (n : Ctx) (s : State) (u : BrakeUnit), s.withheld = false ∧ (s.ctx n).state ≠ 3) ∧
    (∃ (n : Ctx) (s : State) (k : Coach), s.withheld = false ∧ (s.ctx n).state = 3 ∧ s.boundCtx k = some n.val) ∧
    (∃ (s : State), s.lockRun = true ∧ s.fld DEV_LSCYC_CYC 0 % s.slotLen ≠ 0) :=
  ⟨⟨7, fS9, 0, 2, 0, 4, by decide +kernel⟩,
    ⟨7, fS9, (.port 1 2), by decide +kernel⟩,
    ⟨7, (fS9 (fun x => { x with state := 3 })), 5, by decide +kernel⟩,
    ⟨(put hS [(DEV_LSSTAT_STATE, 0, 0, 2), (DEV_LSCYC_CYC, 0, 0, 5)]), by decide +kernel⟩⟩

/-- FaultsStopResetAndRecover: states and operands that meet the hypotheses, part 6. -/
theorem hyps_FaultsStopResetAndRecover_6 :
    (∃ (s : State), (s.lockRun = false ∨ s.fld DEV_LSCYC_CYC 0 % s.slotLen = 0)) ∧
    (∃ (s : State), s.withheld = false ∧ (∀ e ∈ s.hangNow, s.expired e.1 = false)) ∧
    (∃ (s : State), s.withheld = false) :=
  ⟨⟨hS, by decide +kernel⟩,
    ⟨running, by decide +kernel⟩,
    ⟨hS, by decide +kernel⟩⟩

end W17

namespace W18

def pmS (f : PmS → PmS) (s : State := running) : State := { s with pm := f { s.pm with inPor := false, rails := 6 } }
def bayS (b st : Nat) (y : BayS) (s : State := running) : State := (s.setFld TND_STATE_STATE b 0 st).updBay b (fun _ => y)
def dirty (s : State) : State := put { s with log := [(3, some { time := 0, seq := 0, code := 0, source := 0, ctx := none, aux := 0, data := 0 })], keyRam := 77 } ((fldTable.filter (fun f => f.rst + 1 < 2 ^ f.w && !(f.blk == .dev && f.off == 0xC))).map (fun f => (f, 1, 0, f.rst + 1)) ++ (fldTable.filter (fun f => f.rst + 1 < 2 ^ f.w && !(f.blk == .dev && f.off == 0xC))).map (fun f => (f, 0, 1, f.rst + 1)))
def pairS : State := put (withCtx (pmS id) 7) [(CPL_CTL_MODE, 0, 0, 1), (CPL_STATE_STATE, 0, 0, 3), (CPL_CTXROLE_ROLE, 0, 7, 1), (COA_ROLE_BOUND, 5, 0, 1), (COA_ROLE_CONTEXT, 5, 0, 7)]
/-- A device in use, a chip reset wanted with a cause. -/
def useS (cause : Nat) (last : Option Nat) (s : State := running) : State := { pmS (fun p => { p with wanted := some cause, lastEnd := last }) (withCtx (dirty s) 7) with reports := [{ cause := 1, ctx := none, unit := 1, code := 1 }], bank := [(3, 4)], store := [(4, 4)], hbmc := [(2, { edgeIn := [(3, [{ vn := 0 }])] })], bays := [(1, { inq := [{ vn := 1 }] })], aoCycles := tenSeconds + 3, pwr := { running.pwr with entry := some (1, 1) }, links := [(3, { waiting := [{ pkt := { vn := 0 } }] })] }
def jS : State := put (bayS 1 3 { maintKind := 1 } (bayS 0 4 { maintKind := 3 })) [(TND_JRNLEN_LEN, 0, 0, 5), (TND_JRNLEN_LEN, 1, 0, 5), (TND_JRNBASE_BASE, 1, 0, 9), (LOG_PFWN_COUNT, 0, 0, 3), (DEV_LSSTAT_STATE, 0, 0, 2), (LOG_SEQ_NEXT, 0, 0, 2047)]
def accS (typ : Nat) (sent : Bool) : BayAcc := { req := { typ := typ, tag := 3 }, group := 0, sent := sent }

/-- ChipResetHeartbeatsAndPowerFail: states and operands that meet the hypotheses, part 1. -/
theorem hyps_ChipResetHeartbeatsAndPowerFail_1 :
    (∃ (s : State), s.pwr.s3 = true) ∧
    (∃ (s : State), s.pm.wanted = none ∧ s.pm.running = false ∧ Hits REC_CTL_CHIPRST 0 0 s) ∧
    (∃ (s : State), s.pm.wanted = none ∧ s.pm.running = false ∧ s.pwr.s3 = false) ∧
    (∃ (s : State), (s.pm.wanted.isSome = true ∨ s.pm.running = true) ∧ Hits REC_CTL_CHIPRST 0 0 s) :=
  ⟨⟨(let s := pmS id; { s with pwr := { s.pwr with s3 := true } }), by decide +kernel⟩,
    ⟨(pmS id), by unfold Hits; decide +kernel⟩,
    ⟨(pmS id), by decide +kernel⟩,
    ⟨(pmS (fun p => { p with running := true })), by unfold Hits; decide +kernel⟩⟩

/-- ChipResetHeartbeatsAndPowerFail: states and operands that meet the hypotheses, part 2. -/
theorem hyps_ChipResetHeartbeatsAndPowerFail_2 :
    (∃ (s : State), (s.pm.wanted.isSome = true ∨ s.pm.running = true) ∧ s.pwr.s3 = false) ∧
    (∃ (s : State), s.fld REC_STATUS_PMFAIL 0 ≠ 1 ∧ s.pm.running = false ∧ s.pm.inPor = false) ∧
    (∃ (s : State), (s.fld REC_STATUS_PMFAIL 0 = 1 ∨ s.pm.running = true ∨ s.pm.inPor = true)) ∧
    (∃ (s : State), (s.pairMode = 0 ∨ (s.withheld = false ∧ (s.fld CPL_STATE_STATE 0 = 7 ∨ s.pm.running = true)))) :=
  ⟨⟨(pmS (fun p => { p with wanted := some 3 })), by decide +kernel⟩,
    ⟨(pmS id), by decide +kernel⟩,
    ⟨((pmS id).setFld REC_STATUS_PMFAIL 0 0 1), by decide +kernel⟩,
    ⟨(pmS id), by decide +kernel⟩⟩

/-- ChipResetHeartbeatsAndPowerFail: states and operands that meet the hypotheses, part 3. -/
theorem hyps_ChipResetHeartbeatsAndPowerFail_3 :
    (∃ (s : State), s.pairMode ≠ 0 ∧ s.withheld = false ∧ s.fld CPL_STATE_STATE 0 ≠ 7 ∧ s.pm.running = false) ∧
    (∃ (host : List (Nat × List Byte)) (s : State), (s.pm.wanted = none ∨ s.pm.running = true)) ∧
    (∃ (host : List (Nat × List Byte)) (s : State) (cause : Nat), s.pm.wanted = some cause ∧ s.pm.running = false) ∧
    (∃ (s : State), (s.pm.running = false ∨ s.pm.dead = true)) :=
  ⟨⟨{ pairS with couplerAside := true }, by decide +kernel⟩,
    ⟨[], (pmS (fun p => { p with wanted := some 3, running := true })), by decide +kernel⟩,
    ⟨[], (useS 0x42 none), 0x42, by decide +kernel⟩,
    ⟨running, by decide +kernel⟩⟩

/-- ChipResetHeartbeatsAndPowerFail: states and operands that meet the hypotheses, part 4. -/
theorem hyps_ChipResetHeartbeatsAndPowerFail_4 :
    (∃ (s : State), s.pm.running = true ∧ s.pm.dead = false) ∧
    (∃ (s : State), s.pm.running = true ∧ s.pm.dead = false) ∧
    (∃ (s : State), s.fld REC_STATUS_PFW 0 = 1) ∧
    (∃ (s : State), s.fld REC_STATUS_PFW 0 ≠ 1) :=
  ⟨⟨(dirty (pmS (fun p => { p with running := true }))), by decide +kernel⟩,
    ⟨(pmS (fun p => { p with running := true })), by decide +kernel⟩,
    ⟨(running.setFld REC_STATUS_PFW 0 0 1), by decide +kernel⟩,
    ⟨running, by decide +kernel⟩⟩

/-- ChipResetHeartbeatsAndPowerFail: states and operands that meet the hypotheses, part 5. -/
theorem hyps_ChipResetHeartbeatsAndPowerFail_5 :
    (∃ (s : State), s.fld REC_STATUS_PFW 0 ≠ 1) ∧
    (∃ (s : State), s.fld REC_STATUS_PFW 0 = 1) :=
  ⟨⟨running, by decide +kernel⟩,
    ⟨{ (bayS 2 5 { acc := [accS 1 false] } (bayS 1 3 { acc := [accS 1 false, accS 2 true] } (bayS 0 4 { acc := [accS 1 false] }))).setFld REC_STATUS_PFW 0 0 1 with arb := { queue := [{ kind := 1, unit := 3, host := true }] } }, by decide +kernel⟩⟩

end W18

namespace W19

def opn (s : State) : State := { s with lock := { s.lock with opened := true } }
def rq (k u : Nat) (h : Bool := true) : MReq := { kind := k, unit := u, host := h }
def arbS (r q : List MReq) (l : List (Fld × Nat × Nat × Nat) := []) (s : State := running) : State := { put s l with arb := { running := r, queue := q } }

/-- MaintenanceIsGrantedQueuedOrRefused: states and operands that meet the hypotheses, part 1. -/
theorem hyps_MaintenanceIsGrantedQueuedOrRefused_1 :
    (∃ (kind : Fin 8) (unit : Nat) (host : Bool) (r : MReq) (s : State), r = { kind := kind, unit := unit % 1024, host := host } ∧ s.withheld = false ∧ (host = true → s.answersAt (REC_MNTREQ_KIND.bar0 0 0) = true) ∧ (kind.val = 0 ∨ kind.val = 7)) ∧
    (∃ (kind : Fin 8) (unit : Nat) (host : Bool) (r : MReq) (s : State), r = { kind := kind, unit := unit % 1024, host := host } ∧ s.withheld = false ∧ (host = true → s.answersAt (REC_MNTREQ_KIND.bar0 0 0) = true) ∧ kind.val = 6 ∧ s.fld COA_STATE_STATE r.unit ≠ 0) ∧
    (∃ (kind : Fin 8) (unit : Nat) (host : Bool) (r : MReq) (s : State), r = { kind := kind, unit := unit % 1024, host := host } ∧ s.withheld = false ∧ (host = true → s.answersAt (REC_MNTREQ_KIND.bar0 0 0) = true) ∧ kind.val ≠ 0 ∧ kind.val ≠ 7 ∧ (kind.val = 6 → s.fld COA_STATE_STATE r.unit = 0) ∧ s.lockRun = false ∧ s.fld REC_STATUS_PFW 0 ≠ 1 ∧ (∀ x ∈ s.arb.running ++ s.arb.queue, conflict r x = false) ∧ (∀ c ∈ r.cars, s.stoppedAt 7 c = false)) ∧
    (∃ (kind : Fin 8) (unit : Nat) (host : Bool) (r : MReq) (s : State), r = { kind := kind, unit := unit % 1024, host := host } ∧ s.withheld = false ∧ (host = true → s.answersAt (REC_MNTREQ_KIND.bar0 0 0) = true) ∧ kind.val ≠ 0 ∧ kind.val ≠ 7 ∧ (kind.val = 6 → s.fld COA_STATE_STATE r.unit = 0) ∧ (s.lockRun = true ∨ s.fld REC_STATUS_PFW 0 = 1 ∨ (∃ x ∈ s.arb.running ++ s.arb.queue, conflict r x = true) ∨ (∃ c ∈ r.cars, s.stoppedAt 7 c = true)) ∧ s.arb.queue.length < 16) :=
  ⟨⟨7, 3, true, (rq 7 3), running, by decide +kernel⟩,
    ⟨6, 30, true, (rq 6 30), (put running [(COA_STATE_STATE, 30, 0, 1)]), by decide +kernel⟩,
    ⟨6, 30, true, (rq 6 30), (arbS [rq 1 1] [rq 5 2]), by decide +kernel⟩,
    ⟨6, 30, true, (rq 6 30), (arbS [rq 1 1] [rq 5 1]), by decide +kernel⟩⟩

/-- MaintenanceIsGrantedQueuedOrRefused: states and operands that meet the hypotheses, part 2. -/
theorem hyps_MaintenanceIsGrantedQueuedOrRefused_2 :
    (∃ (kind : Fin 8) (unit : Nat) (host : Bool) (r : MReq) (s : State), r = { kind := kind, unit := unit % 1024, host := host } ∧ s.withheld = false ∧ (host = true → s.answersAt (REC_MNTREQ_KIND.bar0 0 0) = true) ∧ kind.val ≠ 0 ∧ kind.val ≠ 7 ∧ (kind.val = 6 → s.fld COA_STATE_STATE r.unit = 0) ∧ (s.lockRun = true ∨ s.fld REC_STATUS_PFW 0 = 1 ∨ (∃ x ∈ s.arb.running ++ s.arb.queue, conflict r x = true) ∨ (∃ c ∈ r.cars, s.stoppedAt 7 c = true)) ∧ 16 ≤ s.arb.queue.length) ∧
    (∃ (kind : Fin 8) (unit : Nat) (s : State), ((∀ x ∈ s.arb.running, x.kind ≠ kind.val ∨ x.unit ≠ unit))) ∧
    (∃ (kind : Fin 8) (unit : Nat) (s : State) (pre : List MReq) (r : MReq) (post : List MReq), s.arb.running = pre ++ r :: post ∧ r.kind = kind.val ∧ r.unit = unit ∧ ((∀ x ∈ pre, x.kind ≠ kind.val ∨ x.unit ≠ unit))) ∧
    (∃ (s : State), (s.lockRun = false ∨ s.arb.queue = [])) :=
  ⟨⟨6, 30, true, (rq 6 30), (opn (arbS [rq 1 1] (List.replicate 16 (rq 5 2)) [(DEV_LSSTAT_STATE, 0, 0, 2)])), by decide +kernel⟩,
    ⟨1, 1, (arbS [rq 1 2] []), by decide +kernel⟩,
    ⟨1, 2, (arbS [rq 1 1, rq 1 2, rq 5 1] [rq 6 30, rq 6 25, rq 1 3, rq 2 4, rq 6 31]), [rq 1 1], (rq 1 2), [rq 5 1], by decide +kernel⟩,
    ⟨running, by decide +kernel⟩⟩

/-- MaintenanceIsGrantedQueuedOrRefused: states and operands that meet the hypotheses, part 3. -/
theorem hyps_MaintenanceIsGrantedQueuedOrRefused_3 :
    (∃ (s : State), s.lockRun = true ∧ s.arb.queue ≠ []) ∧
    (∃ (k : Coach) (part : BitVec 6) (s : State), ((∀ x ∈ s.arb.running, x.kind ≠ 6 ∨ x.unit ≠ k.val))) ∧
    (∃ (k : Coach) (part : BitVec 6) (s : State) (pre : List MReq) (r : MReq) (post : List MReq), s.arb.running = pre ++ r :: post ∧ r.kind = 6 ∧ r.unit = k.val ∧ ((∀ x ∈ pre, x.kind ≠ 6 ∨ x.unit ≠ k.val))) :=
  ⟨⟨{ arbS [rq 1 1] [rq 5 2, rq 5 1] [(DEV_LSSTAT_STATE, 0, 0, 2), (DEV_LSCYC_CYC, 0, 0, 77)] with links := [(3, { carried := true })] }, by decide +kernel⟩,
    ⟨30, 3, (arbS [rq 6 31] []), by decide +kernel⟩,
    ⟨30, 3, { arbS [rq 6 31, rq 6 30] [rq 1 1] with store := [(30 * storeSize, 4), (31 * storeSize, 3)], bank := [(30 * 131072, 4), (31 * 131072, 3)], vreg := [(31 * 32768, 3)] }, [rq 6 31], (rq 6 30), [], by decide +kernel⟩⟩

end W19

namespace W20

def tS : State := { running with tap := { ir := 3, cells := [true, false] } }
def p1 : List Bool := [true, false, true]
def s1 : List Bool := [false, true, true, true, false]
def nS (f : Nat) (key : Nat) : State := { put tS [(DEV_DBG_FAILS, 0, 0, f)] with dbgNonce := true, dbgLevel := 2, dbgKey := key }
def dS (l : Nat) : State := put tS [(DEV_DBG_LEVEL, 0, 0, l), (DEV_PERTNOC_EN, 0, 0, 1)]
def fuS (t : Nat) (f : FuseS) : State := { put tS [(DEV_FUSE_TARGET, 0, 0, t), (DEV_FUSEDATA_DATA, 0, 0, 7), (DEV_FUSEDATA_DATA, 0, 7, 9), (DEV_FUSE_PROG, 0, 0, 1)] with fuses := f }

/-- BoundaryScanAndDebugAccess: states and operands that meet the hypotheses, part 1. -/
theorem hyps_BoundaryScanAndDebugAccess_1 :
    (∃ (pins shift : List Bool) (s : State) (i : Instr) (ir : Nat), (∀ c h, c < 4 → h < 64 → s.fld DMA_CTX_BOUND c h ≠ 1) ∧ (∀ c n, c < 4 → n < 16 → s.fld FAB_PORTCTX_BOUND c n ≠ 1) ∧ ((s.fld CFG_STATE_STATE 0 = 0 ∨ s.fld CFG_STATE_STATE 0 = 6)) ∧ (∀ k, k < 96 → s.fld COA_ROLE_BOUND k ≠ 1) ∧ (i, ir) ∈ [(Instr.extest pins shift, 3), (Instr.extestPulse pins shift, 6), (Instr.extestTrain pins shift, 7)]) ∧
    (∃ (pins shift : List Bool) (s : State) (i : Instr) (ir : Nat), (∀ c h, c < 4 → h < 64 → s.fld DMA_CTX_BOUND c h ≠ 1) ∧ (∀ c n, c < 4 → n < 16 → s.fld FAB_PORTCTX_BOUND c n ≠ 1) ∧ ((s.fld CFG_STATE_STATE 0 = 0 ∨ s.fld CFG_STATE_STATE 0 = 6)) ∧ (∀ k, k < 96 → s.fld COA_ROLE_BOUND k ≠ 1) ∧ (i, ir) ∈ [(Instr.clamp pins shift, 4), (Instr.highz pins shift, 5)]) ∧
    (∃ (pins shift : List Bool) (s : State) (i : Instr), ((s.fld CFG_STATE_STATE 0 ≠ 0 ∧ s.fld CFG_STATE_STATE 0 ≠ 6) ∨ (∃ k, k < 96 ∧ s.fld COA_ROLE_BOUND k = 1) ∨ (∃ c h, c < 4 ∧ h < 64 ∧ s.fld DMA_CTX_BOUND c h = 1) ∨ (∃ c n, c < 4 ∧ n < 16 ∧ s.fld FAB_PORTCTX_BOUND c n = 1)) ∧ i ∈ [Instr.extest pins shift, .extestPulse pins shift, .extestTrain pins shift, .clamp pins shift, .highz pins shift]) ∧
    (∃ (level : Bool) (s : State), Hits DEV_DBG_REQ 0 0 s ∧ s.fld DEV_DBG_LOCKED 0 = 1) :=
  ⟨⟨p1, s1, tS, (Instr.extestPulse p1 s1), 6, fun a b ha hb => (by decide +kernel : ∀ c, c < 4 → ∀ h, h < 64 → tS.fld DMA_CTX_BOUND c h ≠ 1) a ha b hb, fun a b ha hb => (by decide +kernel : ∀ c, c < 4 → ∀ n, n < 16 → tS.fld FAB_PORTCTX_BOUND c n ≠ 1) a ha b hb, by decide +kernel⟩,
    ⟨p1, s1, tS, (Instr.clamp p1 s1), 4, fun a b ha hb => (by decide +kernel : ∀ c, c < 4 → ∀ h, h < 64 → tS.fld DMA_CTX_BOUND c h ≠ 1) a ha b hb, fun a b ha hb => (by decide +kernel : ∀ c, c < 4 → ∀ n, n < 16 → tS.fld FAB_PORTCTX_BOUND c n ≠ 1) a ha b hb, by decide +kernel⟩,
    ⟨p1, s1, (put tS [(CFG_STATE_STATE, 0, 0, 3)]), (Instr.highz p1 s1), .inl ⟨by decide +kernel, by decide +kernel⟩, by decide +kernel⟩,
    ⟨true, (put tS [(DEV_DBG_LOCKED, 0, 0, 1)]), by unfold Hits; decide +kernel⟩⟩

/-- BoundaryScanAndDebugAccess: states and operands that meet the hypotheses, part 2. -/
theorem hyps_BoundaryScanAndDebugAccess_2 :
    (∃ (level : Bool) (s : State), Hits DEV_DBG_REQ 0 0 s ∧ s.fld DEV_DBG_LOCKED 0 ≠ 1) ∧
    (∃ (v : BitVec 32) (s : State) (want given : Nat), want = Config.debugResponse s.dbgKey (s.wordsOf DEV_DBGNONCE_NONCE 4) s.dbgLevel % 2 ^ 256 ∧ Hits DEV_DBGRESP_RESP 0 7 s ∧ given = s.wordsOf DEV_DBGRESP_RESP 7 + v.toNat * 2 ^ 224 ∧ s.dbgNonce = false) ∧
    (∃ (v : BitVec 32) (s : State) (want given : Nat), want = Config.debugResponse s.dbgKey (s.wordsOf DEV_DBGNONCE_NONCE 4) s.dbgLevel % 2 ^ 256 ∧ Hits DEV_DBGRESP_RESP 0 7 s ∧ given = s.wordsOf DEV_DBGRESP_RESP 7 + v.toNat * 2 ^ 224 ∧ s.dbgNonce = true) ∧
    (∃ (s : State), Hits DEV_DBG_REQ 0 0 s) :=
  ⟨⟨true, { tS with freeIx := 9 }, by unfold Hits; decide +kernel⟩,
    ⟨5, tS, (Config.debugResponse tS.dbgKey (tS.wordsOf DEV_DBGNONCE_NONCE 4) tS.dbgLevel % 2 ^ 256), (5 * 2 ^ 224), rfl, by unfold Hits; decide +kernel⟩,
    ⟨5, (nS 1 0), (Config.debugResponse (nS 1 0).dbgKey ((nS 1 0).wordsOf DEV_DBGNONCE_NONCE 4) (nS 1 0).dbgLevel % 2 ^ 256), (5 * 2 ^ 224), rfl, by unfold Hits; decide +kernel⟩,
    ⟨(dS 2), by unfold Hits; decide +kernel⟩⟩

/-- BoundaryScanAndDebugAccess: states and operands that meet the hypotheses, part 3. -/
theorem hyps_BoundaryScanAndDebugAccess_3 :
    (∃ (which : Fin 3) (v : BitVec 32) (s : State), Hits (if which = 0 then DEV_PERTSTR_EN else if which = 1 then DEV_PERTNOC_EN else DEV_PERTMEM_EN) 0 0 s ∧ s.fld DEV_DBG_LEVEL 0 = 0) ∧
    (∃ (which : Fin 3) (v : BitVec 32) (s : State), Hits (if which = 0 then DEV_PERTSTR_EN else if which = 1 then DEV_PERTNOC_EN else DEV_PERTMEM_EN) 0 0 s ∧ s.fld DEV_DBG_LEVEL 0 ≠ 0) ∧
    (∃ (s : State) (v : Nat), Hits DEV_FUSE_PROG 0 0 s ∧ v = s.words8 DEV_FUSEDATA_DATA ∧ (s.fuses.locked = true ∨ (s.fld DEV_FUSE_TARGET 0 = 0 ∧ s.fuses.image ≠ 0) ∨ (s.fld DEV_FUSE_TARGET 0 = 1 ∧ s.fuses.debug ≠ 0) ∨ (s.fld DEV_FUSE_TARGET 0 = 2 ∧ s.fuses.policy ≠ 0))) ∧
    (∃ (s : State) (v : Nat), Hits DEV_FUSE_PROG 0 0 s ∧ v = s.words8 DEV_FUSEDATA_DATA ∧ s.fuses.locked = false ∧ (s.fld DEV_FUSE_TARGET 0 = 0 → s.fuses.image = 0) ∧ (s.fld DEV_FUSE_TARGET 0 = 1 → s.fuses.debug = 0) ∧ (s.fld DEV_FUSE_TARGET 0 = 2 → s.fuses.policy = 0)) :=
  ⟨⟨1, 7, (dS 0), by unfold Hits; decide +kernel⟩,
    ⟨0, 0xffffffff, (dS 1), by unfold Hits; decide +kernel⟩,
    ⟨(fuS 2 { policy := 1 }), ((fuS 2 {}).words8 DEV_FUSEDATA_DATA), by unfold Hits; decide +kernel⟩,
    ⟨(fuS 0 { policy := 1 }), ((fuS 2 {}).words8 DEV_FUSEDATA_DATA), by unfold Hits; decide +kernel⟩⟩

end W20

namespace W21

/-- Both coupler links UP, the pair COUPLED in a state; context 7 LIVE with queue 3, in a role. -/
def q0 : QueueS := { en := true, sqBase := 0x2000, cqBase := 0x3000, log2 := 4, prio := 1, vec := 5, tail := 14, posted := 30, taken := 28, doneTop := 25, cqTail := 15, used := 3, running := [{ no := 27, coaches := [5] }, { no := 26 }] }
def cpS (st role : Nat) (p : PairS := {}) (l : List (Fld × Nat × Nat × Nat) := []) (q : QueueS := q0) : State :=
  { put ((({ withCtx running 7 (fun x => { x with port := 2, part := 0, qtable := 0x1000, queues := [(3, q)] }) with couplerAside := true }).setLk LNK_STATE_STATE 24 3).setLk LNK_STATE_STATE 25 3) ([(CPL_CTL_MODE, 0, 0, 2), (CPL_STATE_STATE, 0, 0, st), (CPL_CTXROLE_ROLE, 0, 7, role)] ++ l) with pair := p, pm := { running.pm with inPor := false, rails := 6 } }
def rc (kind mseq : Nat) (data : List Nat := []) (addr : Nat := 0) : MRec := { mseq := mseq, kind := kind, ctx := 7, addr := addr, data := data }
/-- An intake of coupler link 1 behind applied number 9. -/
def inq (k : Nat) (l : List MRec) (f : PairS → PairS := id) : PairS := f { intake := [(k, l)], applied := [(k, 9)] }
def qd (what tail head cq ph en no : Nat) : List Nat := [3, what] ++ leBytes 2 tail ++ leBytes 2 head ++ leBytes 2 cq ++ [ph, en] ++ leBytes 4 no ++ [0, 0]
def qcase (d : List Nat) (role : Nat := 2) : State := cpS 3 role (inq 1 [rc 4 10 d])
def jl (en len : Nat) (b : Nat := 2) : List (Fld × Nat × Nat × Nat) := [(CPL_PJRN_EN, 0, 0, en), (CPL_PJRN_BAY, 0, 0, b), (CPL_PJRNLEN_LEN, 0, 0, len), (CPL_PJRNBASE_BASE, 0, 0, 77)]
def both (s : State) : State := { put s [(CPL_CTXROLE_ROLE, 0, 9, 1), (CPL_MRNG_EN, 0, 0, 1), (CPL_CTXROLE_ROLE, 0, 13, 2)] with ctxs := s.ctxs ++ [(9, { state := 1, queues := [(1, q0)] })] }
def bd (st a b : Nat) : List Nat := [st, 0, 0, 0] ++ leBytes 4 a ++ leBytes 4 b ++ [0, 0, 0, 0]
def ind (h a w st role : Nat) (p : PairS := {}) : State := both (cpS st role p [(CPL_STATE_HBCUR, 0, 0, h), (CPL_STATE_PALIVE, 0, 0, a), (CPL_STATE_WIT, 0, 0, w)])

/-- MirrorRecordsAreAppliedInOrder: states and operands that meet the hypotheses, part 1. -/
theorem hyps_MirrorRecordsAreAppliedInOrder_1 :
    (∃ (s : State), (s.pairMode = 0 ∨ s.beats = false ∨ s.pm.schedOk = false ∨ s.fld CPL_STATE_STATE 0 = 7)) ∧
    (∃ (s : State), s.pairMode ≠ 0 ∧ s.beats = true ∧ s.pm.schedOk = true ∧ s.fld CPL_STATE_STATE 0 ≠ 7) ∧
    (∃ (i : Instr) (k : Fin 2) (kind : Nat) (host : List Byte) (s : State), (i, kind) ∈ [(Instr.mirrorContext k, 3), (Instr.mirrorQueue k host, 4), (Instr.mirrorJournal k, 5), (Instr.mirrorHbm k, 6), (Instr.sweepend k, 8)] ∧ mget [] s.pair.intake k = []) ∧
    (∃ (i : Instr) (k : Fin 2) (kind : Nat) (host : List Byte) (s : State) (r : MRec) (rest : List MRec), (i, kind) ∈ [(Instr.mirrorContext k, 3), (Instr.mirrorQueue k host, 4), (Instr.mirrorJournal k, 5), (Instr.mirrorHbm k, 6), (Instr.sweepend k, 8)] ∧ mget [] s.pair.intake k = r :: rest ∧ (r.kind ≠ kind ∨ mget 0 s.pair.jrnBusy k ≠ 0)) :=
  ⟨⟨(cpS 7 1), by decide +kernel⟩,
    ⟨(cpS 3 1), by decide +kernel⟩,
    ⟨(Instr.mirrorHbm 0), 0, 6, [], (cpS 3 2 (inq 1 [rc 6 10])), by decide +kernel⟩,
    ⟨(Instr.mirrorHbm 1), 1, 6, [], (cpS 3 2 (inq 1 [rc 5 10])), (rc 5 10), [], by decide +kernel⟩⟩

/-- MirrorRecordsAreAppliedInOrder: states and operands that meet the hypotheses, part 2. -/
theorem hyps_MirrorRecordsAreAppliedInOrder_2 :
    (∃ (i : Instr) (k : Fin 2) (kind : Nat) (host : List Byte) (s : State) (r : MRec) (rest : List MRec), (i, kind) ∈ [(Instr.mirrorContext k, 3), (Instr.mirrorQueue k host, 4), (Instr.mirrorJournal k, 5), (Instr.mirrorHbm k, 6), (Instr.sweepend k, 8)] ∧ FrontRecord k kind r rest s ∧ mget 0 s.pair.dropping k = 1) ∧
    (∃ (i : Instr) (k : Fin 2) (kind : Nat) (host : List Byte) (s : State) (r : MRec) (rest : List MRec), (i, kind) ∈ [(Instr.mirrorContext k, 3), (Instr.mirrorQueue k host, 4), (Instr.mirrorJournal k, 5), (Instr.mirrorHbm k, 6), (Instr.sweepend k, 8)] ∧ FrontRecord k kind r rest s ∧ mget 0 s.pair.dropping k ≠ 1 ∧ r.mseq ≠ (mget 0 s.pair.applied k + 1) % 2 ^ 32) ∧
    (∃ (k : Fin 2) (r : MRec) (rest : List MRec) (s : State), InOrder k 3 r rest s) ∧
    (∃ (k : Fin 2) (host : List Byte) (r : MRec) (rest : List MRec) (s : State) (ring no : Nat) (q : QueueS), InOrder k 4 r rest s ∧ ring = r.data.getD 0 0 % 64 ∧ q = s.queue r.ctx ring ∧ no = leNat ((r.data.drop 10).take 4)) :=
  ⟨⟨(Instr.mirrorHbm 1), 1, 6, [], (cpS 3 2 (inq 1 [rc 6 10, rc 1 0] (fun p => { p with dropping := [(1, 1)] }))), (rc 6 10), [rc 1 0], by unfold FrontRecord; decide +kernel⟩,
    ⟨(Instr.sweepend 1), 1, 8, [], (cpS 3 2 (inq 1 [rc 8 11])), (rc 8 11), [], by unfold FrontRecord; decide +kernel⟩,
    ⟨1, (rc 3 10 [2, 1]), [rc 1 0], (cpS 3 2 (inq 1 [rc 3 10 [2, 1], rc 1 0])), by unfold InOrder FrontRecord; decide +kernel⟩,
    ⟨1, [], (rc 4 10 (qd 0 5 6 7 1 1 44)), [], (qcase (qd 0 5 6 7 1 1 44)), 3, 44, q0, by unfold InOrder FrontRecord; decide +kernel⟩⟩

/-- MirrorRecordsAreAppliedInOrder: states and operands that meet the hypotheses, part 3. -/
theorem hyps_MirrorRecordsAreAppliedInOrder_3 :
    (∃ (k : Fin 2) (r : MRec) (rest : List MRec) (s : State), InOrder k 6 r rest s) ∧
    (∃ (k : Fin 2) (r : MRec) (rest : List MRec) (s : State) (b : Nat), b = s.fld CPL_PJRN_BAY 0 ∧ InOrder k 5 r rest s ∧ s.fld CPL_PJRN_EN 0 = 1 ∧ r.addr + r.data.length ≤ s.fld CPL_PJRNLEN_LEN 0 * 65536) ∧
    (∃ (k : Fin 2) (r : MRec) (rest : List MRec) (s : State) (b : Nat), b = s.fld CPL_PJRN_BAY 0 ∧ InOrder k 5 r rest s ∧ (s.fld CPL_PJRN_EN 0 ≠ 1 ∨ s.fld CPL_PJRNLEN_LEN 0 * 65536 < r.addr + r.data.length)) ∧
    (∃ (k : Fin 2) (r : MRec) (rest : List MRec) (s : State), InOrder k 8 r rest s) :=
  ⟨⟨1, (rc 6 10 (List.replicate 16 300) (2 ^ 39 + 0xF0)), [], (cpS 3 2 (inq 1 [rc 6 10 (List.replicate 16 300) (2 ^ 39 + 0xF0)])), by unfold InOrder FrontRecord; decide +kernel⟩,
    ⟨1, (rc 5 10 (List.range 48) 0xFFD0), [], (cpS 3 2 (inq 1 [rc 5 10 (List.range 48) 0xFFD0]) (jl 1 1)), 2, by unfold InOrder FrontRecord; decide +kernel⟩,
    ⟨1, (rc 5 10 (List.range 48) 0xFFE0), [], (cpS 3 2 (inq 1 [rc 5 10 (List.range 48) 0xFFE0]) (jl 1 1)), 2, by unfold InOrder FrontRecord; decide +kernel⟩,
    ⟨1, (rc 8 10), [], (cpS 2 2 (inq 1 [rc 8 10] (fun p => { p with sweepIn := [(0, 2), (1, 1)] }))), by unfold InOrder FrontRecord; decide +kernel⟩⟩

/-- MirrorRecordsAreAppliedInOrder: states and operands that meet the hypotheses, part 4. -/
theorem hyps_MirrorRecordsAreAppliedInOrder_4 :
    (∃ (k : Fin 2) (s : State), mget [] s.pair.intake k = []) ∧
    (∃ (k : Fin 2) (s : State) (r : MRec) (rest : List MRec), mget [] s.pair.intake k = r :: rest ∧ r.kind ≠ 7) ∧
    (∃ (k : Fin 2) (s : State) (r : MRec) (rest : List MRec), (∀ n, mwf {} (s.ctx n).queues = true) ∧ mget [] s.pair.intake k = r :: rest ∧ r.kind = 7 ∧ s.pairMode ≠ 0 ∧ s.fld CPL_STATE_STATE 0 ∉ [0, 7] ∧ s.linkUp (24 + k) = true ∧ mwf {} s.ctxs = true) ∧
    (∃ (k : Fin 2) (s : State), (∀ x ∈ mget [] s.pair.intake k, x.kind ≠ 1)) :=
  ⟨⟨1, (cpS 3 2), by decide +kernel⟩,
    ⟨1, (cpS 3 2 (inq 1 [rc 3 10])), (rc 3 10), [], by decide +kernel⟩,
    ⟨1, (cpS 1 2 (inq 1 [rc 7 33, rc 8 34])), (rc 7 33), [rc 8 34], queues_wf (by decide +kernel), by decide +kernel⟩,
    ⟨1, (cpS 3 2 (inq 1 [rc 3 10])), by decide +kernel⟩⟩

/-- MirrorRecordsAreAppliedInOrder: states and operands that meet the hypotheses, part 5. -/
theorem hyps_MirrorRecordsAreAppliedInOrder_5 :
    (∃ (k : Fin 2) (s : State), (∀ x ∈ mget [] s.pair.intake k, x.kind ≠ 2)) ∧
    (∃ (k : Fin 2) (s : State) (pre : List MRec) (r : MRec) (post : List MRec), (∀ b, (s.bay b).reqList = []) ∧ PlainRecord k 2 pre r post s) ∧
    (∃ (k : Fin 2) (s : State) (pre : List MRec) (r : MRec) (post : List MRec), (∀ b, (s.bay b).reqList = []) ∧ PlainRecord k 1 pre r post s) :=
  ⟨⟨1, (cpS 3 2 (inq 1 [rc 3 10])), by decide +kernel⟩,
    ⟨1, (cpS 3 2 (inq 1 [rc 3 10, rc 2 0 (bd 3 7 8), rc 2 0 (bd 3 8 8)])), [rc 3 10], (rc 2 0 (bd 3 7 8)), [rc 2 0 (bd 3 8 8)], requests_none (by decide +kernel), by unfold PlainRecord; decide +kernel⟩,
    ⟨1, (cpS 3 2 (inq 1 [rc 3 10, rc 1 0 (bd 3 7 8), rc 2 0 (bd 3 8 8)])), [rc 3 10], (rc 1 0 (bd 3 7 8)), [rc 2 0 (bd 3 8 8)], requests_none (by decide +kernel), by unfold PlainRecord; decide +kernel⟩⟩

/-- PairIndicationsDecideTheState: states and operands that meet the hypotheses, part 1. -/
theorem hyps_PairIndicationsDecideTheState_1 :
    (∃ (i : Instr) (f : Fld) (b : Bool) (s : State), s.withheld = false ∧ (i, f, b) ∈ [(Instr.partnerLost, CPL_STATE_HBCUR, false), (Instr.partnerAliveLost, CPL_STATE_PALIVE, false), (Instr.partnerAliveEdge, CPL_STATE_PALIVE, true), (Instr.witTokenHeld, CPL_STATE_WIT, true), (Instr.witTokenLow, CPL_STATE_WIT, false)]) ∧
    (∃ (s : State), Hits CPL_CTL_RESYNC 0 0 s ∧ s.fld CPL_STATE_STATE 0 ≠ 1) ∧
    (∃ (s : State), Hits CPL_CTL_RESYNC 0 0 s ∧ s.fld CPL_STATE_STATE 0 = 1 ∧ s.fld CPL_STATE_HBCUR 0 ≠ 1) ∧
    (∃ (s : State), Hits CPL_CTL_RESYNC 0 0 s ∧ s.fld CPL_STATE_STATE 0 = 1 ∧ s.fld CPL_STATE_HBCUR 0 = 1) :=
  ⟨⟨Instr.partnerLost, CPL_STATE_HBCUR, false, (ind 1 1 0 3 1), by decide +kernel⟩,
    ⟨(cpS 3 1 {} [(CPL_CTL_RESYNC, 0, 0, 1)]), by unfold Hits; decide +kernel⟩,
    ⟨(cpS 1 1 {} [(CPL_CTL_RESYNC, 0, 0, 1)]), by unfold Hits; decide +kernel⟩,
    ⟨(cpS 1 1 {} [(CPL_CTL_RESYNC, 0, 0, 1), (CPL_STATE_HBCUR, 0, 0, 1)]), by unfold Hits; decide +kernel⟩⟩

/-- PairIndicationsDecideTheState: states and operands that meet the hypotheses, part 2. -/
theorem hyps_PairIndicationsDecideTheState_2 :
    (∃ (role : Fin 4) (s : State) (n : Nat), Hits CPL_CTXROLE_ROLE 0 0 s ∧ n = s.fld CPL_CTXSEL_CONTEXT 0 ∧ ((s.ctx n).state ≠ 1 ∨ (∃ e ∈ (s.ctx n).queues, e.2.running ≠ []))) ∧
    (∃ (role : Fin 4) (s : State) (n : Nat), Hits CPL_CTXROLE_ROLE 0 0 s ∧ n = s.fld CPL_CTXSEL_CONTEXT 0 ∧ (s.ctx n).state = 1 ∧ (∀ e ∈ (s.ctx n).queues, e.2.running = [])) :=
  ⟨⟨2, (cpS 1 2 {} [(CPL_CTXSEL_CONTEXT, 0, 0, 7)]), 7, by unfold Hits; decide +kernel⟩,
    ⟨2, (cpS 3 1 {} [(CPL_CTXSEL_CONTEXT, 0, 0, 7)] { q0 with running := [] }), 7, by unfold Hits; decide +kernel⟩⟩

end W21

/-! ### WellFormed refuses what the layouts cannot carry -/

/-- R17: an offset that is no word offset, in each access command. -/
theorem test_wf_aligned : [Instr.registerWrite 0x15 0, .readClear 0x12, .pairLowRead 0x109, .pairHighRead 0x10E, .pairLowWrite 0x10A 1, .pairHighWrite 0x10D 1,
    .unnamedOffsetAccess 3 true, .reservedRangeAccess 0x00FFFFFD false, .notAnsweringAccess 0x14000002 true].map Instr.wellFormed = List.replicate 9 false := by decide

/-- R18: an aligned access of 4 bytes is not misaligned. -/
theorem test_wf_misaligned : (Instr.misalignedAccess 0x14 4 true).wellFormed = false ∧ (Instr.misalignedAccess 0x14 2 true).wellFormed = true := by decide

/-- Table 14.7: the offset of a doorbell within its page is the register's own. -/
theorem test_wf_doorbell : (Instr.sqtail (.pf 2 0x7018) 3 4).wellFormed = true ∧ (Instr.sqtail (.pf 2 0x7010) 3 4).wellFormed = false ∧
    (Instr.cqhead (.vf 1 3 0x1018) 3 0).wellFormed = false ∧ (Instr.qsync (.pf 2 0x7408) 3 []).wellFormed = false ∧ (Instr.resume (.pf 0 0x400) 0).wellFormed = false ∧
    (Instr.cqrel (.pf 0 0x418) 0).wellFormed = false ∧ (Instr.dmahead (.pf 0 0x604) 0 0).wellFormed = false := by decide

/-- R400: a packet has 16 bytes of header and up to 512 of data, so no bit beyond them can err. -/
theorem test_wf_tender_bits : (Instr.tenderData 0 [4224]).wellFormed = false ∧ (Instr.tenderAck 0 [4224]).wellFormed = false ∧ (Instr.tenderNotice 0 [4224]).wellFormed = false ∧
    (Instr.moduleWrite 0 [4224] true 0 false).wellFormed = false ∧ (Instr.tenderData 0 [4223]).wellFormed = true := by decide

/-- Table 8.5: LEN is at most 32 words, ADDR has 48 bits. -/
theorem test_wf_packet : (Instr.packetSend 0 (.entry 0) { vn := 0, len := 33 }).wellFormed = false ∧
    (Instr.packetSend 0 (.entry 0) { vn := 0, addr := 2 ^ 48 }).wellFormed = false := by decide

/-- R491: a head flit has room for 96 bytes, a body flit for 128. -/
theorem test_wf_fabric_flit : (Instr.fabricPortFlit 0 0 (.head { vn := 0, data := List.replicate 97 0 } 0)).wellFormed = false ∧
    (Instr.fabricPortFlit 0 0 (.body (List.replicate 129 0))).wellFormed = false := by decide

/-- A read touches at most nine bursts of 32 bytes, each of 272 bits with its check bits (R391). -/
theorem test_wf_burst : (Instr.hbmReadData 0 [(9, 0)]).wellFormed = false ∧ (Instr.hbmReadData 0 [(8, 271)]).wellFormed = true := by decide

/-- A module is given only where one is present; its identity has 64 bits. -/
theorem test_wf_presence : (Instr.presenceSettled 0 false (some { serial := 1 })).wellFormed = false ∧ (Instr.presenceSettled 0 true (some { serial := 2 ^ 64 })).wellFormed = false ∧
    (Instr.presenceSettled 0 true none).wellFormed = true := by decide

/-- A load header has 64 bytes, a trailer and its tag 16 each; from flash two edges for each, after the 48 of the command (R519). -/
theorem test_wf_load : (Instr.loadHeader (.bytes (List.replicate 63 0))).wellFormed = false ∧ (Instr.loadTrailer (.bytes (List.replicate 15 0)) (.bytes [])).wellFormed = false ∧
    (Instr.loadTrailer (.bytes (List.replicate 16 0)) (.bytes [1])).wellFormed = false ∧ (Instr.loadHeader (.edges (List.replicate 177 0))).wellFormed = false := by decide

/-- A context descriptor has 64 bytes. -/
theorem test_wf_ctx_create : (Instr.ctxCreate 0 [] (some []) []).wellFormed = false := by decide

/-- A host answers a request with at most 512 bytes. -/
theorem test_wf_host_completion : (Instr.hostCompletion 0 0 true (List.replicate 513 0)).wellFormed = false := by decide

/-- Units of the maintenance arbiter have ten bits. -/
theorem test_wf_maintenance : (Instr.maintRequest 1 1024 true).wellFormed = false ∧ (Instr.maintEnd 1 1024).wellFormed = false := by decide

/-- An invalidation covers a page at least. -/
theorem test_wf_ats : (Instr.atsInvalidation 0 0 0 0).wellFormed = false := by decide

/-! ### Worked examples of the spec -/

/-- 00_scope.md, the worked example under R20: a counter that rolls over between the reads of its words gives a value that it held. -/
theorem test_pairLowRead_latches :
    let s := nx (exec (.pairLowRead 0x108) (put State.reset [(DEV_LSCYC_CYC, 0, 0, 0x1FFFFFFFF)]))
    s.resp = .data 0xFFFFFFFF ∧ (nx (exec (.pairHighRead 0x10C) (s.setFld DEV_LSCYC_CYC 0 0 0x200000000))).resp = .data 1 := by decide +kernel

/-- 01_carriages_and_levels.md: coach 2.17 has ordinal 65 and number 0x51, and its NUM_ block starts at 0x1821_C000. -/
theorem test_coach_number : coachNumber 65 = 0x51 ∧ ordinalOf 0x51 = some 65 ∧ coachOff 65 0xC000 = 0x1821C000 := by decide

/-- 02_number_formats.md: the block 1000, 200, 100, -50, 3 quantised into S4. -/
theorem test_quantise_s4 :
    let b := quantBlock {} .s4 ([valOfInt 1000 0, valOfInt 200 0, valOfInt 100 0, valOfInt (-50) 0, valOfInt 3 0] ++ List.replicate 27 (.zero false))
    b.scale = 0x87 ∧ b.codes = [6, 2, 1, 8, 0] ++ List.replicate 27 0 ∧ b.flush = 2 := by decide +kernel

/-- The same with DNZ set (R82) and 256 for 200: 100 rounds to 0.375 of the scale and is flushed. -/
theorem test_quantise_s4_dnz :
    let b := quantBlock { dnz := true } .s4 ([valOfInt 1000 0, valOfInt 256 0, valOfInt 100 0, valOfInt (-50) 0, valOfInt 3 0] ++ List.replicate 27 (.zero false))
    b.scale = 0x87 ∧ b.codes = [6, 2, 0, 8, 0] ++ List.replicate 27 0 ∧ b.flush = 3 := by decide +kernel

/-- 02_number_formats.md, limit cases at the top of the range: S8a. -/
theorem test_limit_s8a : convertVal {} false .s8a (valOfInt 464 0) = { code := 0x7E } ∧
    convertVal {} false .s8a (valOfInt 465 0) = { code := 0x7E, sat := 1 } := by decide +kernel

/-- 02_number_formats.md, limit cases at the top of the range: S8b. -/
theorem test_limit_s8b : (convertVal {} false .s8b (valOfInt 61440 0)).code = 0x7C ∧ (convertVal { satFinite := true } false .s8b (valOfInt 61440 0)).code = 0x7B ∧
    (convertVal {} false .s8b (valOfInt 61440 0)).sat = 1 ∧ convertVal {} false .s8b (valOfInt 61439 0) = { code := 0x7B } := by decide +kernel

/-- 02_number_formats.md, limit cases at the top of the range: I8 (127.5, 126.5 and -128.5). -/
theorem test_limit_i8 : convertVal {} false .i8 (valOfInt 255 (-1)) = { code := 127, sat := 1 } ∧ convertVal {} false .i8 (valOfInt 253 (-1)) = { code := 126 } ∧
    convertVal {} false .i8 (valOfInt (-257) (-1)) = { code := 0x80 } := by decide +kernel

/-- 03_defined_dot_product.md, a 16-bit group: the sum of 2^100, 2^76 and 2^-10 loses the last, and rounds to 0x7180_0000 in F32. -/
theorem test_group_of_16_bit :
    let ps : List Val := [.fin false 1 50, .fin false 1 38, .fin false 1 (-5)]
    (groupAcc false ps ps).v = 2 ^ 372 + 2 ^ 348 ∧ (convertVal {} false .f32 (valOfInt (2 ^ 372 + 2 ^ 348) (-272))).code = 0x71800000 ∧
      (convertVal {} false .f32 (valOfInt (2 ^ 372 + 2 ^ 348 + 2 ^ 262) (-272))).code = 0x71800001 := by decide +kernel

/-- 03_defined_dot_product.md: 0.28125 as a short tally, 2^100 + 2^-11 as a long one, 2^100 + 2^-10 as a short one. -/
theorem test_tallies : tallyWords { v := 9 * 2 ^ 267 } = [0x28004800000000000000000000000000] ∧
    tallyWords { v := 2 ^ 372 + 2 ^ 261 } = [0xFFC00000000000000000000000000000, 0, 0, 0x00100000000000000000000000000020, 0] ∧
    (tallyWords { v := 2 ^ 372 + 2 ^ 262 }).length = 1 := by decide +kernel

/-- 03_defined_dot_product.md: the split of 1.5 and 2^-10 + 2^-40 + 2^-45 + 2^-50. -/
theorem test_split_block :
    let ps := splitBlock [.fin false 3 (-1), .fin false (2 ^ 40 + 2 ^ 10 + 2 ^ 5 + 1) (-50)] 0
    ps.map (·.scale) = [0x79, 0x72, 0, 0, 0, 0x56, 0x4F] ∧ ps.map (fun b => b.codes.getD 0 0) = [96, 0, 0, 0, 0, 0, 0] ∧
      ps.map (fun b => b.codes.getD 1 0) = [0, 8, 0, 0, 0, 2, 8] := by decide +kernel

/-- 05_vector_engine.md, SWB with SHIFT = 0: 1.5, 2.5, above 2.5 and -0.5 in units of the X24 spacing. -/
theorem test_swb_rounds : [(0xC00000 : Int), 0x1400000, 0x1400001, -0x400000].map (fun a => convertVal {} true .x24 (valOfInt a (-46))) =
    [{ code := 2 }, { code := 2 }, { code := 3 }, { code := 0, flush := 1 }] := by decide +kernel

/-- 05_vector_engine.md, SWB of 1.0 with SAT and without, and with SHIFT = 1. -/
theorem test_swb_saturates : [(true, (-46 : Int)), (false, -46), (true, -47)].map (fun x => convertVal {} x.1 .x24 (valOfInt 0x400000000000 x.2)) =
    [{ code := 0x7FFFFF, sat := 1 }, { code := 0x800000, sat := 1 }, { code := 0x400000 }] := by decide +kernel

/-- 08_on_chip_network.md: the route of coach 0.7 to coach 0.20 through ports 1, 3, 3, 0 is accepted; DST is unit 0x14. -/
theorem test_route_accepted :
    let s := nx (exec (.routeEntryWrite 7 0x30 0xD9 0 0x02080004 0x80000014) running)
    s.entryValid 7 0x30 = true ∧ s.fld NOC_RSSTAT_REASON 0 = 0 ∧ portRank 7 1 = 21 ∧ portRank 8 3 = 27 ∧ portRank 14 3 = 28 := by decide +kernel

/-- 08_on_chip_network.md, R335: a route whose ranks do not rise is refused (ports 3 and then 1). -/
theorem test_route_refused : (nx (exec (.routeEntryWrite 7 0x30 0xCB 0 0x02080004 0x80000014) running)).entryValid 7 0x30 = false := by decide +kernel

/-- 09_hbm.md: decoding PA 0x12_3456_7A80 under ILV = 0. -/
theorem test_hbm_place : hbmPlace false 0x1234567A80 = { stack := 1, pc := 48, bank := 0b001010, row := 0x91A, byte := 896 } ∧
    (hbmPlace false 0x1234567A80).edge = 7 ∧ (hbmPlace false 0x1234567A80).entry = 7 := by decide

/-- 12_fabric.md: ring index of cart (230, 100). -/
theorem test_ring_index : ringIndex 230 100 = 18726 := by decide

/-- 15_power_and_clocks.md, Table 15.4: link 4 of carriage 3 is TRAINING, so block 9 refuses with reason LINK. -/
theorem test_powerBlockAnswer_refused :
    let s := { put running [(LNK_STATE_STATE, 3, 16, 2)] with pwr := { running.pwr with entry := some (2, 12), stopped := (askOrder 2 12).take 16 } }
    let t := nx (exec (.powerBlockAnswer 0) s)
    s.nextBlock = some (9, 3) ∧ t.fld PWR_STATUS_REFUSER 0 = 9 ∧ t.fld PWR_STATUS_REASON 0 = 7 ∧ t.fld PWR_STATUS_CARRIAGE 0 = 3 ∧
      t.fld PWR_STATUS_REFUSED 0 = 1 ∧ t.fld PWR_STATUS_EVENT 0 = 1 ∧ t.carState 2 = 0 ∧ t.carState 3 = 0 := by decide +kernel

/-- CRC-32C as it is known by that name: its check value (PRESUMED, log 30). -/
theorem test_crc32c : crc32c [0x31, 0x32, 0x33, 0x34, 0x35, 0x36, 0x37, 0x38, 0x39] = 0xE3069283 := by decide +kernel

end Sys2Proof.Tests
end

section
/-! SUPPORT. Laws of several register fields written together, of what changes nothing but listed fields, and of how an access completes. -/

namespace Sys2Proof.Machine

/-- The access completes with `c`. -/
def State.withResp (s : State) (c : Completion) : State := { s with resp := c }

/-- How an access completes is no register field. -/
@[simp] theorem State.withResp_fld (s : State) (c : Completion) (f : Fld) (u i : Nat) : (s.withResp c).fld f u i = s.fld f u i := rfl

/-- A write of several fields leaves fields of other indices of the table alone. -/
theorem State.fld_setFlds_idx {f : Fld} {l : List (Fld × Nat)} (s : State) (u i w j : Nat) (h : f.idx % 1024 ∉ l.map (·.1.idx % 1024)) :
    (s.setFlds w j l).fld f u i = s.fld f u i := by
  induction l generalizing s with
  | nil => rfl
  | cons x l ih =>
    rw [List.map_cons, List.mem_cons, not_or] at h
    exact (ih _ h.2).trans (s.fld_setFld_idx u i w j x.2 h.1)

/-- Of several fields with indices of their own, each reads what was written to it. -/
theorem State.fld_setFlds_mem {f : Fld} {v : Nat} {l : List (Fld × Nat)} (s : State) (u i : Nat) (hd : (l.map (·.1.idx % 1024)).Nodup)
    (h : (f, v) ∈ l) : (s.setFlds u i l).fld f u i = v % 2 ^ f.w := by
  induction l generalizing s with
  | nil => cases h
  | cons x l ih =>
    obtain ⟨hx, hl⟩ := List.nodup_cons.1 hd
    rcases List.mem_cons.1 h with rfl | h
    · exact (State.fld_setFlds_idx _ u i u i hx).trans (s.fld_setFld_same f u i v)
    · exact ih _ hl h

/-- Each of the fields `fs` of one unit and index reads what was written to it. -/
theorem State.fld_setFlds_map {fs : List Fld} {f : Fld} (s : State) (u i : Nat) (val : Fld → Nat) (hd : (fs.map (·.idx % 1024)).Nodup) (hf : f ∈ fs) :
    (s.setFlds u i (fs.map (fun f => (f, val f)))).fld f u i = val f % 2 ^ f.w :=
  s.fld_setFlds_mem u i (by rwa [List.map_map]) (List.mem_map_of_mem hf)

/-- Nothing changes. -/
theorem OnlyFields.refl (L : List (Fld × Nat × Nat)) (s : State) : OnlyFields L s s := ⟨rfl, SameFields.refl L s⟩

/-- One step after another. -/
theorem OnlyFields.trans {L : List (Fld × Nat × Nat)} {s t u : State} (a : OnlyFields L s t) (b : OnlyFields L t u) : OnlyFields L s u := by
  refine ⟨b.1.trans ?_, a.2.trans b.2⟩
  rw [a.1]

/-- A write of a listed field. -/
theorem OnlyFields.setFld {L : List (Fld × Nat × Nat)} (s : State) {g : Fld} {w j : Nat} (v : Nat) (hg : g ∈ fldTable) (hw : w < 2048)
    (h : (g, w, j) ∈ L) : OnlyFields L s (s.setFld g w j v) := ⟨rfl, SameFields.setFld s hg hw h⟩

/-- A write of several listed fields. -/
theorem OnlyFields.setFlds {L : List (Fld × Nat × Nat)} {u i : Nat} {l : List (Fld × Nat)} (s : State) (hu : u < 2048)
    (h : ∀ x ∈ l, x.1 ∈ fldTable ∧ (x.1, u, i) ∈ L) : OnlyFields L s (s.setFlds u i l) := by
  induction l generalizing s with
  | nil => exact .refl L s
  | cons x l ih =>
    obtain ⟨⟨hx, hL⟩, hl⟩ := List.forall_mem_cons.1 h
    exact (OnlyFields.setFld s x.2 hx hu hL).trans (ih _ hl)

/-- A write of the fields `fs` of one unit and index. -/
theorem OnlyFields.setFlds_map {fs : List Fld} {u i : Nat} (s : State) (val : Fld → Nat) (hu : u < 2048) (h : ∀ f ∈ fs, f ∈ fldTable) :
    OnlyFields (fs.map (fun f => (f, u, i))) s (s.setFlds u i (fs.map (fun f => (f, val f)))) := by
  refine OnlyFields.setFlds s hu (fun x hx => ?_)
  obtain ⟨f, hf, rfl⟩ := List.mem_map.1 hx
  exact ⟨h f hf, List.mem_map_of_mem hf⟩

/-- The completion of an access beside the fields it changes. -/
theorem OnlyFields.withResp {L : List (Fld × Nat × Nat)} {s t : State} (a : OnlyFields L s t) (c : Completion) : OnlyFieldsResp L s (t.withResp c) := by
  refine ⟨?_, a.2⟩
  rw [a.1]
  rfl

/-! ### Stray accesses (R56) -/

/-- Fields that a stray access writes. -/
def strayFlds (reason off : Nat) (write : Bool) : List (Fld × Nat) :=
  [(DEV_STRAY_REASON, reason), (DEV_STRAY_OFFSET, off / 4), (DEV_STRAY_WRITE, b2n write), (DEV_STRAY_VALID, 1)]

/-- A stray access writes fields with indices of their own. -/
theorem strayFlds_idx (reason off : Nat) (write : Bool) : (strayFlds reason off write).map (·.1.idx % 1024) = [4, 5, 6, 7] := rfl

/-- Counting a stray access leaves the record alone. -/
theorem State.fld_bump_strayCnt (s : State) {f : Fld} (h : f.idx % 1024 ≠ DEV_STRAY_CNT_COUNT.idx % 1024) :
    (s.bump DEV_STRAY_CNT_COUNT 0 0 1).fld f 0 = s.fld f 0 := s.fld_setFld_idx 0 0 0 0 _ h

/-- While a record is held a stray access is counted alone. -/
theorem State.stray_of_held {s : State} (h : s.fld DEV_STRAY_VALID 0 = 1) (reason off : Nat) (write : Bool) :
    s.stray reason off write = s.bump DEV_STRAY_CNT_COUNT 0 0 1 := by
  simp [State.stray, State.flag, s.fld_bump_strayCnt (f := DEV_STRAY_VALID) (by decide), h]

/-- Where no record is held a stray access is counted and recorded. -/
theorem State.stray_of_free {s : State} (h : s.fld DEV_STRAY_VALID 0 ≠ 1) (reason off : Nat) (write : Bool) :
    s.stray reason off write = (s.bump DEV_STRAY_CNT_COUNT 0 0 1).setFlds 0 0 (strayFlds reason off write) := by
  simp [State.stray, State.flag, s.fld_bump_strayCnt (f := DEV_STRAY_VALID) (by decide), h, strayFlds]

/-- The count of stray accesses goes up and stops at its largest value. -/
theorem State.fld_strayCnt_bump (s : State) :
    (s.bump DEV_STRAY_CNT_COUNT 0 0 1).fld DEV_STRAY_CNT_COUNT 0 = min 0xFFFF (s.fld DEV_STRAY_CNT_COUNT 0 + 1) := by
  refine (s.fld_setFld_same DEV_STRAY_CNT_COUNT 0 0 _).trans (Nat.mod_eq_of_lt ?_)
  exact Nat.lt_of_le_of_lt (Nat.min_le_left _ _) (by decide)

/-- A stray access, however it completes, is taken as R56 says. -/
theorem strayTaken_stray {reason off : Nat} (hr : reason < 4) (ho : off < 2 ^ 30) (write : Bool) (s : State) (c : Completion) :
    StrayTaken reason off write s ((s.stray reason off write).withResp c) := by
  have hbump : OnlyFields [(DEV_STRAY_CNT_COUNT, 0, 0), (DEV_STRAY_REASON, 0, 0), (DEV_STRAY_OFFSET, 0, 0), (DEV_STRAY_WRITE, 0, 0),
      (DEV_STRAY_VALID, 0, 0)] s (s.bump DEV_STRAY_CNT_COUNT 0 0 1) := .setFld s _ (by decide +kernel) (by decide) List.mem_cons_self
  simp only [StrayTaken, State.withResp_fld]
  by_cases h : s.fld DEV_STRAY_VALID 0 = 1
  · rw [if_pos h, State.stray_of_held h]
    exact ⟨s.fld_strayCnt_bump, (s.fld_bump_strayCnt (by decide)).trans h,
      ⟨s.fld_bump_strayCnt (by decide), s.fld_bump_strayCnt (by decide), s.fld_bump_strayCnt (by decide)⟩, hbump.withResp c⟩
  · rw [if_neg h, State.stray_of_free h]
    have hset : ∀ {f : Fld} {v : Nat}, v < 2 ^ f.w → (f, v) ∈ strayFlds reason off write →
        ((s.bump DEV_STRAY_CNT_COUNT 0 0 1).setFlds 0 0 (strayFlds reason off write)).fld f 0 = v := fun hv hf =>
      (State.fld_setFlds_mem _ 0 0 (by rw [strayFlds_idx]; decide) hf).trans (Nat.mod_eq_of_lt hv)
    refine ⟨(State.fld_setFlds_idx _ 0 0 0 0 (by rw [strayFlds_idx]; decide)).trans s.fld_strayCnt_bump,
      hset (by decide) (by simp [strayFlds]), ⟨hset hr (by simp [strayFlds]), hset ?_ (by simp [strayFlds]), hset ?_ (by simp [strayFlds])⟩,
      (hbump.trans (.setFlds _ (by decide) ?_)).withResp c⟩
    · exact Nat.div_lt_of_lt_mul ho
    · cases write <;> decide
    · simp only [strayFlds, List.forall_mem_cons]
      decide +kernel

end Sys2Proof.Machine
end

section
/-! SUPPORT. Laws of accesses to BAR0: what an access reaches, the fields of a register, and what each access command does where it reaches what it is for
(R17 to R26, R53 to R56). -/

namespace Sys2Proof.Machine

/-! ### What an access reaches -/

/-- A carriage that does not answer is in NAP, RESET or OFF (R54). -/
theorem State.carSilent_iff {s : State} {c : Nat} : s.carSilent c = true ↔ s.carState c = 2 ∨ s.carState c = 3 ∨ s.carState c = 4 := by
  simp [State.carSilent, or_assoc]

/-- An access of another size or at an offset between words is misaligned (R18). -/
theorem State.reach_misaligned (s : State) {off bytes : Nat} (h : off % 4 ≠ 0 ∨ bytes ≠ 4) : s.reach off bytes = .misaligned := by
  simp [State.reach, h]

/-- A word access to a carriage that does not answer (R54), reserved ranges included (log 50). -/
theorem State.reach_asleep {s : State} {off : BitVec 30} (h4 : off.toNat % 4 = 0) (h : carAsleep s off) : s.reach off.toNat 4 = .silent := by
  obtain ⟨c, hc, hst⟩ := h
  simp [State.reach, h4, hc, State.carSilent_iff.2 hst]

/-- A word access that meets no sleeping carriage. -/
theorem State.reach_awake {s : State} {off : BitVec 30} (h4 : off.toNat % 4 = 0) (h : ¬ carAsleep s off) :
    s.reach off.toNat 4 = if bar0Spot off.toNat = .reserved then .reserved else if s.slots off.toNat = [] then .unnamed
      else if s.pwr.s3 && !answersInS3 off.toNat then .silent else .register := by
  cases hc : spotCar off.toNat with
  | none => simp [State.reach, h4, hc]
  | some c =>
    have hsil : s.carSilent c = false := Bool.eq_false_iff.2 (fun hs => h ⟨c, hc, State.carSilent_iff.1 hs⟩)
    simp [State.reach, h4, hc, hsil]

/-- A word access to a register that answers reaches it. -/
theorem State.reach_register {s : State} {off : Nat} (h4 : off % 4 = 0) (ha : s.answersAt off = true) (hs : s.slots off ≠ []) :
    s.reach off 4 = .register := by
  have hspot : bar0Spot off ≠ .reserved := fun h => hs (by simp [State.slots, h])
  obtain ⟨hcar, hs3⟩ := Bool.and_eq_true_iff.1 ha
  have hs3' : (s.pwr.s3 && !answersInS3 off) = false := by simpa [← Bool.not_eq_true, ← imp_iff_not_or] using hs3
  cases hc : spotCar off <;> simp_all [State.reach]

/-- Outside the carriages' ranges everything answers while the device is not in S3 (R54, R55). -/
theorem State.answersAt_dev {s : State} {off : Nat} (hc : spotCar off = none) (hs : s.pwr.s3 = false) : s.answersAt off = true := by
  simp [State.answersAt, hc, hs]

/-- A carriage in RUN answers while the device is not in S3 (R54, R55). -/
theorem State.answersAt_run {s : State} {off c : Nat} (hc : spotCar off = some c) (hrun : s.carState c = 0) (hs : s.pwr.s3 = false) :
    s.answersAt off = true := by
  simp [State.answersAt, hc, State.carSilent, hrun, hs]

/-! ### The fields of a register -/

/-- The fields of the register at offset `o` of a block's unit 0. -/
def regSlots (b : Blk) (o : Nat) : List Slot := fldTable.filterMap (fun f => if f.blk = b then f.slotAt 0 o else none)

/-- The fields of a register outside the lanes are those of unit 0, at its own unit. -/
theorem State.slots_eq_regSlots (s : State) {off u o : Nat} {b : Blk} (h : bar0Spot off = .block b u o) (hb : b ≠ .lane) :
    s.slots off = (regSlots b o).map (fun x => { x with u := u }) := s.slots_block h hb

/-- Offset of a coach's register as a number. -/
theorem coachOff_toNat (k : Coach) {o : Nat} (ho : o < 0xE000) :
    (coachOff k o).toNat = 0x10000000 + carOf k * 0x4000000 + 0x100000 + k % 24 * 0x10000 + o := by
  have hk := k.isLt
  simp only [coachOff, carOf, BitVec.toNat_ofNat]
  omega

/-- The register of a coach that an offset of its range leads to. -/
theorem bar0Spot_coachOff (k : Coach) {o : Nat} (ho : o < 0xE000) : bar0Spot (coachOff k o).toNat = .block .coach k o := by
  have hk := k.isLt
  have h := bar0Spot_coach (c := carOf k) (k := k % 24) (by simp only [carOf]; omega) (by omega) ho (coachOff_toNat k ho)
  rwa [show carOf k * 24 + k % 24 = k by simp only [carOf]; omega] at h

/-- A coach's registers lie in the range of its carriage. -/
theorem spotCar_coachOff (k : Coach) {o : Nat} (ho : o < 0xE000) : spotCar (coachOff k o).toNat = some (carOf k) := by
  have hk := k.isLt
  have hn := coachOff_toNat k ho
  have hc : carOf k < 4 := by simp only [carOf]; omega
  exact spotCar_of hc (by omega) (by omega)

/-- The fields of a coach's register. -/
theorem State.slots_coachOff (s : State) (k : Coach) {o : Nat} (ho : o < 0xE000) :
    s.slots (coachOff k o).toNat = (regSlots .coach o).map (fun x => { x with u := k }) :=
  s.slots_eq_regSlots (bar0Spot_coachOff k ho) (by decide)

/-- Where no pair's word lies, no pair is found. -/
theorem State.pairAt_none {s : State} {o : Nat} (h : s.isPairWord o = false) (hi : Bool) : s.pairAt o hi = none := by
  have h' : ∀ x ∈ s.slots o, x.f.pair = false := by simpa [State.isPairWord] using h
  refine List.find?_eq_none.2 (fun x hx => ?_)
  simp [h' x hx]

/-! ### Accesses that reach no register -/

/-- MISALIGNED_ACCESS at a misaligned access. -/
theorem exec_misalignedAccess {off : BitVec 30} {bytes : Nat} {s : State} (h : s.reach off.toNat bytes = .misaligned) (write : Bool) :
    exec (.misalignedAccess off bytes write) s = .next ((s.stray 3 off.toNat write).withResp .ur) := by
  change execMisalignedAccess off bytes write s = _
  rw [execMisalignedAccess, h]
  rfl

/-- RESERVED_RANGE_ACCESS at a reserved range. -/
theorem exec_reservedRangeAccess {off : BitVec 30} {s : State} (h : s.reach off.toNat 4 = .reserved) (write : Bool) :
    exec (.reservedRangeAccess off write) s = .next ((s.stray 1 off.toNat write).withResp (.of write 0)) := by
  change execReservedRangeAccess off write s = _
  rw [execReservedRangeAccess, h]
  rfl

/-- NOT_ANSWERING_ACCESS at a register that does not answer. -/
theorem exec_notAnsweringAccess {off : BitVec 30} {s : State} (h : s.reach off.toNat 4 = .silent) (write : Bool) :
    exec (.notAnsweringAccess off write) s = .next ((s.stray 2 off.toNat write).withResp (.of write 0xFFFFFFFF)) := by
  change execNotAnsweringAccess off write s = _
  rw [execNotAnsweringAccess, h]
  rfl

/-- UNNAMED_OFFSET_ACCESS where no register lies. -/
theorem exec_unnamedOffsetAccess {off : BitVec 30} {s : State} (h : s.reach off.toNat 4 = .unnamed) (write : Bool) :
    exec (.unnamedOffsetAccess off write) s = .next (s.withResp (.of write 0)) := by
  change execUnnamedOffsetAccess off write s = _
  rw [execUnnamedOffsetAccess, h]
  rfl

/-! ### Registers that are no pair's word -/

/-- REGISTER_WRITE of a register that answers, where lockstep does not withhold it. -/
theorem exec_registerWrite {off : BitVec 30} {s : State} (hp : s.isPairWord off.toNat = false) (hr : s.reach off.toNat 4 = .register)
    (hw : s.withheld = false) (v : BitVec 32) : exec (.registerWrite off v) s = .next (s.writeRegister off.toNat v.toNat) := by
  change execRegisterWrite off v s = _
  simp [execRegisterWrite, hp, State.outside_now hw, State.busWrite, hr, State.pairAt_none hp, ok]

/-- READ_CLEAR of a register that answers. -/
theorem exec_readClear {off : BitVec 30} {s : State} (hp : s.isPairWord off.toNat = false) (hr : s.reach off.toNat 4 = .register) :
    exec (.readClear off) s = .next (s.readRegister off.toNat) := by
  change execReadClear off s = _
  simp [execReadClear, hp, State.busRead, hr, State.pairAt_none hp, ok]

/-- A fold none of whose steps changes anything. -/
theorem foldl_unchanged {α β : Type} {g : β → α → β} {l : List α} (h : ∀ x ∈ l, ∀ b, g b x = b) (b : β) : l.foldl g b = b :=
  (List.foldl_ext g (fun b _ => b) b (fun b x hx => h x hx b)).trans (List.foldl_fixed l)

/-- A read of a register without RC fields changes nothing (R23). -/
theorem State.readRegister_of_no_rc {s : State} {off : Nat} (h : ∀ x ∈ s.slots off, x.f.acc ≠ .rc) :
    s.readRegister off = s.withResp (.data (s.regWord off)) := by
  rw [State.readRegister, foldl_unchanged (fun x hx t => if_neg (by simpa using h x hx)), State.withResp]

/-- Fields of one unit and index, each of which a write gives the value `val` whatever is written before it, are written together. -/
theorem State.foldl_writeSlot {s : State} {v u i : Nat} {val : Fld → Nat} {fs : List Fld} (hd : (fs.map (·.idx % 1024)).Nodup)
    (hw : ∀ f ∈ fs, ∀ t : State, t.fld f u i = s.fld f u i → s.writeSlot v t ⟨f, u, i, false⟩ = t.setFld f u i (val f)) (t : State)
    (hkeep : ∀ f ∈ fs, t.fld f u i = s.fld f u i) :
    (fs.map (fun f => (⟨f, u, i, false⟩ : Slot))).foldl (s.writeSlot v) t = t.setFlds u i (fs.map (fun f => (f, val f))) := by
  induction fs generalizing t with
  | nil => rfl
  | cons g fs ih =>
    obtain ⟨hg, hd⟩ := List.nodup_cons.1 hd
    obtain ⟨hwg, hw⟩ := List.forall_mem_cons.1 hw
    obtain ⟨hkg, hkeep⟩ := List.forall_mem_cons.1 hkeep
    have hne : ∀ f ∈ fs, f.idx % 1024 ≠ g.idx % 1024 := fun f hf e => hg (List.mem_map.2 ⟨f, hf, e⟩)
    rw [List.map_cons, List.foldl_cons, hwg t hkg]
    exact ih hd hw _ (fun f hf => (t.fld_setFld_idx u i u i _ (hne f hf)).trans (hkeep f hf))

/-- A write of a register whose fields `fs` each take the value `val`, and that does nothing beside. -/
theorem State.writeRegister_fields {s : State} {off v u i : Nat} {fs : List Fld} {val : Fld → Nat}
    (hs : s.slots off = fs.map (fun f => ⟨f, u, i, false⟩)) (hd : (fs.map (·.idx % 1024)).Nodup)
    (hw : ∀ f ∈ fs, ∀ t : State, t.fld f u i = s.fld f u i → s.writeSlot v t ⟨f, u, i, false⟩ = t.setFld f u i (val f))
    (ha : ∀ f ∈ fs, ∀ t : State, s.afterWrite v t ⟨f, u, i, false⟩ = t) :
    s.writeRegister off v = (s.setFlds u i (fs.map (fun f => (f, val f)))).withResp .done := by
  rw [State.writeRegister, hs, State.foldl_writeSlot hd hw s (fun _ _ => rfl), foldl_unchanged (List.forall_mem_map.2 ha), State.withResp]

/-- A write stores an RW field that is left to no command of its own and whose conditions are met (R23). -/
theorem State.writeSlot_rw {s0 : State} {v : Nat} {y : Slot} (ho : ownRow y.f = false) (ha : y.f.acc = .rw) (hd : isDly y.f = false)
    (ht : s0.takes y v (bitsOf v y.f.lsb y.f.w) = true) (t : State) :
    s0.writeSlot v t y = t.setFld y.f y.u y.i (bitsOf v y.f.lsb y.f.w) := by
  simp [State.writeSlot, ho, ha, hd, ht]

/-- A write clears the bits of a W1C field that are written 1 (R23); the field is no VALID that takes its MORE along. -/
theorem State.writeSlot_w1c (s0 : State) {v : Nat} {y : Slot} (ho : ownRow y.f = false) (ha : y.f.acc = .w1c) (hm : moreOf y.f = none) (t : State) :
    s0.writeSlot v t y =
      t.setFld y.f y.u y.i (t.fld y.f y.u y.i - (t.fld y.f y.u y.i &&& bitsOf v y.f.lsb y.f.w)) := by
  simp [State.writeSlot, ho, ha, hm]

/-- A coach's register takes every value, but for a stream's configuration and the spill region. -/
theorem State.takes_coach (s : State) {y : Slot} (hb : y.f.blk = .coach) (hc : isStrCfg y.f = false) (ht : isTset y.f = false)
    (h1 : y.f ≠ ACC_SPILLBASE_BASE) (h2 : y.f ≠ ACC_SPILLSLOTS_SLOTS) (v x : Nat) : s.takes y v x = true := by
  simp [State.takes, hc, ht, hb, h1, h2]

/-- A write of a coach's register does nothing beside what it stores. -/
theorem State.afterWrite_coach (s0 : State) {y : Slot} (hb : y.f.blk = .coach) (v : Nat) (t : State) : s0.afterWrite v t y = t := by
  have hne : ∀ {g : Fld}, g.blk ≠ .coach → y.f ≠ g := fun hg e => hg (e ▸ hb)
  simp [State.afterWrite, hne (g := FAB_CLKCFG_DIV) (by decide), hne (g := HBM_CTL_REFMODE) (by decide), hne (g := NOC_PRB_SEL_MODE) (by decide),
    hne (g := QUE_ADMCFG_EN) (by decide), hne (g := QUE_ADMCQHEAD_INDEX) (by decide), hne (g := DEV_REINCTL_ROLE) (by decide),
    hne (g := DEV_REINEXP_COUNT) (by decide), hne (g := TND_WEARWARN_THRESH) (by decide)]

/-- What writing 1 to a one-bit W1C field leaves. -/
theorem w1c_bit {old x : Nat} (ho : old < 2) (hx : x < 2) : (old - (old &&& x)) % 2 = if x = 1 then 0 else old := by
  interval_cases old <;> interval_cases x <;> rfl

/-! ### The words of a pair (R19, R20) -/

/-- PAIR_LOW_READ of a register that answers: the low word is returned and the high word latched. -/
theorem exec_pairLowRead {off : BitVec 30} {s : State} {x : Slot} (hp : s.pairAt off.toNat false = some x) (hr : s.reach off.toNat 4 = .register) :
    exec (.pairLowRead off) s =
      .next ((s.latchHigh x.f x.u x.i (s.view x * 2 ^ x.f.lsb / 2 ^ 32)).withResp (.data (s.regWord off.toNat))) := by
  change execPairLowRead off s = _
  simp [execPairLowRead, hp, State.busRead, hr, ok, State.withResp]

/-- PAIR_HIGH_READ of a register that answers. -/
theorem exec_pairHighRead {off : BitVec 30} {s : State} {x : Slot} (hp : s.pairAt off.toNat true = some x) (hl : s.pairAt off.toNat false = none)
    (hr : s.reach off.toNat 4 = .register) : exec (.pairHighRead off) s = .next (s.readRegister off.toNat) := by
  change execPairHighRead off s = _
  simp [execPairHighRead, hp, hl, State.busRead, hr, ok]

/-- PAIR_LOW_WRITE of a pair that may be written: the word is held. -/
theorem exec_pairLowWrite {off : BitVec 30} {s : State} {y : Slot} (hp : s.pairAt off.toNat false = some y) (hr : s.reach off.toNat 4 = .register)
    (ho : s.pairOpen y = true) (hw : s.withheld = false) (v : BitVec 32) :
    exec (.pairLowWrite off v) s = .next ((s.holdLow y.f y.u y.i v.toNat).withResp .done) := by
  change execPairLowWrite off v s = _
  simp [execPairLowWrite, hp, State.outside_now hw, State.busWrite, hr, ho, ok, State.withResp]

/-- PAIR_HIGH_WRITE of a pair that may be written: both words take effect. -/
theorem exec_pairHighWrite {off : BitVec 30} {s : State} {y : Slot} (hp : s.pairAt off.toNat true = some y) (hl : s.pairAt off.toNat false = none)
    (hr : s.reach off.toNat 4 = .register) (ho : s.pairOpen y = true) (hf : y.f ≠ HBM_ADJMAP_PERM) (hw : s.withheld = false) (v : BitVec 32) :
    exec (.pairHighWrite off v) s = .next (((s.dropLow y.f y.u y.i).setFld y.f y.u y.i
      (pairField y.f (s.heldLow y.f y.u y.i (s.fld y.f y.u y.i * 2 ^ y.f.lsb) + v.toNat * 2 ^ 32))).withResp .done) := by
  change execPairHighWrite off v s = _
  simp [execPairHighWrite, hp, hl, State.outside_now hw, State.busWrite, hr, ho, hf, ok, State.withResp]

/-- A latched high word is what a read of the high word returns, whatever the current one is. -/
theorem State.latchedHigh_latchHigh {s t : State} {f : Fld} {u i w : Nat} (h : t.latches = (s.latchHigh f u i w).latches) (cur : Nat) :
    t.latchedHigh f u i cur = w % 2 ^ 32 := by
  simp [State.latchedHigh, h, State.latchHigh]

/-- Where no high word is latched a read returns the current one. -/
theorem State.latchedHigh_of_none {s : State} {f : Fld} {u i : Nat} (h : mget 0 s.latches (f.key u i) = 0) (cur : Nat) : s.latchedHigh f u i cur = cur := by
  simp [State.latchedHigh, h]

/-- The low word held is what the write of the high word takes effect with. -/
theorem State.heldLow_holdLow {s t : State} {f : Fld} {u i w : Nat} (h : t.held = (s.holdLow f u i w).held) (cur : Nat) :
    t.heldLow f u i cur = w % 2 ^ 32 := by
  simp [State.heldLow, h, State.holdLow]

end Sys2Proof.Machine
end

section
/-! Stray accesses: settles O8. -/

namespace Sys2Proof.Machine

/-- A word access to a reserved range of a carriage that answers, or of none (R53). -/
theorem State.reach_reserved {s : State} {off : BitVec 30} (h4 : off.toNat % 4 = 0) (hres : bar0Spot off.toNat = .reserved) (h : ¬ carAsleep s off) :
    s.reach off.toNat 4 = .reserved := by
  rw [State.reach_awake h4 h, if_pos hres]

/-- Settles O8: each of the three accesses reaches what its command is for, and a stray access is taken as R56 says. -/
theorem strayAccessesAreCountedAndRecorded : Obligations.StrayAccessesAreCountedAndRecorded := by
  unfold Obligations.StrayAccessesAreCountedAndRecorded
  refine ⟨fun off bytes write s h => ?_, fun off write s h4 hres h => ?_, fun off write s h4 h => ?_⟩
  · exact ⟨_, exec_misalignedAccess (s.reach_misaligned h) write, rfl, strayTaken_stray (by decide) off.isLt write s _⟩
  · exact ⟨_, exec_reservedRangeAccess (State.reach_reserved h4 hres h) write, rfl, strayTaken_stray (by decide) off.isLt write s _⟩
  · exact ⟨_, exec_notAnsweringAccess (State.reach_asleep h4 h) write, rfl, strayTaken_stray (by decide) off.isLt write s _⟩

end Sys2Proof.Machine
end

section
/-! Registers by access code: settles O9. -/

namespace Sys2Proof.Machine

/-- Fields of NUMCTL. -/
def numctlFlds : List Fld := [NUMCTL_DNZ, NUMCTL_FORERUN, NUMCTL_SATFINITE, NUMCTL_NANTRAP]

/-- Fields of NUMSTAT. -/
def numstatFlds : List Fld := [NUMSTAT_FLUSHED, NUMSTAT_SATURATED, NUMSTAT_NANINF, NUMSTAT_NANBLOCK]

/-- NUMCTL holds its four fields (02_number_formats.md). -/
theorem regSlots_numctl : regSlots .coach 0xC000 = numctlFlds.map (fun f => ⟨f, 0, 0, false⟩) := by decide +kernel

/-- NUMSTAT holds its four fields (02_number_formats.md). -/
theorem regSlots_numstat : regSlots .coach 0xC004 = numstatFlds.map (fun f => ⟨f, 0, 0, false⟩) := by decide +kernel

/-- DEV_STRAY_CNT holds its one field. -/
theorem regSlots_strayCnt : regSlots .dev 0x14 = [⟨DEV_STRAY_CNT_COUNT, 0, 0, false⟩] := by decide +kernel

/-- REGISTER_WRITE of a coach's register that is no pair's word, in a carriage in RUN, outside S3, where lockstep does not withhold it. -/
theorem exec_registerWrite_coach {k : Coach} {o : Nat} {fs : List Fld} {s : State} (ho : o < 0xE000) (h4 : o % 4 = 0)
    (hs : s.slots (coachOff k o).toNat = fs.map (fun f => ⟨f, k, 0, false⟩)) (hfs : fs ≠ []) (hp : ∀ f ∈ fs, f.pair = false)
    (hrun : s.carState (carOf k) = 0) (hs3 : s.pwr.s3 = false) (hw : s.withheld = false) (v : BitVec 32) :
    exec (.registerWrite (coachOff k o) v) s = .next (s.writeRegister (coachOff k o).toNat v.toNat) := by
  refine exec_registerWrite ?_ (State.reach_register ?_ (State.answersAt_run (spotCar_coachOff k ho) hrun hs3) ?_) hw v
  · simpa [State.isPairWord, hs] using hp
  · rw [coachOff_toNat k ho]; omega
  · simpa [hs] using hfs

/-- A write of NUMCTL stores its four bits and changes nothing else. -/
theorem registerWrite_numctl (k : Coach) (v : BitVec 32) (s : State) (hrun : s.carState (carOf k) = 0) (hs3 : s.pwr.s3 = false)
    (hw : s.withheld = false) : exec (.registerWrite (coachOff k 0xC000) v) s =
      .next ((s.setFlds k 0 (numctlFlds.map (fun f => (f, bitsOf v.toNat f.lsb f.w)))).withResp .done) := by
  have hs : s.slots (coachOff k 0xC000).toNat = numctlFlds.map (fun f => ⟨f, k, 0, false⟩) := by
    rw [s.slots_coachOff k (by decide), regSlots_numctl, List.map_map]; rfl
  have hplain : ∀ f ∈ numctlFlds, f.blk = .coach ∧ ownRow f = false ∧ f.acc = .rw ∧ isDly f = false ∧ isStrCfg f = false ∧ isTset f = false ∧
      f ≠ ACC_SPILLBASE_BASE ∧ f ≠ ACC_SPILLSLOTS_SLOTS := by decide
  rw [exec_registerWrite_coach (by decide) (by decide) hs (by decide) (by decide) hrun hs3 hw v]
  refine congrArg _ (State.writeRegister_fields hs (by decide) (fun f hf t _ => ?_) (fun f hf t => ?_))
  · obtain ⟨hb, ho, ha, hd, hc, ht, h1, h2⟩ := hplain f hf
    exact State.writeSlot_rw (y := ⟨f, k, 0, false⟩) ho ha hd (s.takes_coach hb hc ht h1 h2 _ _) t
  · exact s.afterWrite_coach (hplain f hf).1 _ t

/-- A write of NUMSTAT clears the bits written 1 and changes nothing else. -/
theorem registerWrite_numstat (k : Coach) (v : BitVec 32) (s : State) (hrun : s.carState (carOf k) = 0) (hs3 : s.pwr.s3 = false)
    (hw : s.withheld = false) : exec (.registerWrite (coachOff k 0xC004) v) s =
      .next ((s.setFlds k 0 (numstatFlds.map (fun f => (f, s.fld f k 0 - (s.fld f k 0 &&& bitsOf v.toNat f.lsb f.w))))).withResp .done) := by
  have hs : s.slots (coachOff k 0xC004).toNat = numstatFlds.map (fun f => ⟨f, k, 0, false⟩) := by
    rw [s.slots_coachOff k (by decide), regSlots_numstat, List.map_map]; rfl
  have hplain : ∀ f ∈ numstatFlds, f.blk = .coach ∧ ownRow f = false ∧ f.acc = .w1c ∧ moreOf f = none := by decide
  rw [exec_registerWrite_coach (by decide) (by decide) hs (by decide) (by decide) hrun hs3 hw v]
  refine congrArg _ (State.writeRegister_fields hs (by decide) (fun f hf t hkeep => ?_) (fun f hf t => ?_))
  · obtain ⟨hb, ho, ha, hm⟩ := hplain f hf
    rw [s.writeSlot_w1c ho ha hm t, hkeep]
  · exact s.afterWrite_coach (hplain f hf).1 _ t

/-- READ_CLEAR of DEV_STRAY_CNT, which answers in S3 too (R55), returns the count and clears it. -/
theorem readClear_strayCnt (s : State) : exec (.readClear 0x14) s =
    .next ((s.setFld DEV_STRAY_CNT_COUNT 0 0 0).withResp (.data (s.fld DEV_STRAY_CNT_COUNT 0))) := by
  have hs : s.slots 0x14 = [⟨DEV_STRAY_CNT_COUNT, 0, 0, false⟩] := by
    rw [s.slots_eq_regSlots (b := .dev) (u := 0) (o := 0x14) (by decide) (by decide), regSlots_strayCnt]; rfl
  have hoff : (0x14 : BitVec 30).toNat = 0x14 := rfl
  have hr : s.reach 0x14 4 = .register := State.reach_register (by decide) (by simp [State.answersAt, spotCar, answersInS3]) (by simp [hs])
  have hp : s.isPairWord 0x14 = false := by simp [State.isPairWord, hs, DEV_STRAY_CNT_COUNT]
  have hword : s.regWord 0x14 = s.fld DEV_STRAY_CNT_COUNT 0 := by
    rw [State.regWord, hs]
    exact (Nat.zero_add _).trans (Nat.mul_one _)
  rw [exec_readClear (off := 0x14) hp hr, hoff, State.readRegister, hs, hword]
  rfl

/-- Settles O9: each access by the law of its access code, over the fields that stand at the offset. -/
theorem registerWritesAndReadsByAccessCode : Obligations.RegisterWritesAndReadsByAccessCode := by
  unfold Obligations.RegisterWritesAndReadsByAccessCode
  refine ⟨fun k v s hrun hs3 hw => ?_, fun k v s hrun hs3 hw => ?_, fun s => ?_, fun off write s h4 hawake hres hs => ?_⟩
  · have hval : ∀ f ∈ numctlFlds, (s.setFlds k 0 (numctlFlds.map (fun f => (f, bitsOf v.toNat f.lsb f.w)))).fld f k = bitsOf v.toNat f.lsb f.w :=
      fun f hf => (s.fld_setFlds_map k 0 _ (by decide) hf).trans (Nat.mod_mod _ _)
    exact ⟨_, registerWrite_numctl k v s hrun hs3 hw, rfl, hval NUMCTL_DNZ (by decide), hval NUMCTL_FORERUN (by decide),
      hval NUMCTL_SATFINITE (by decide), hval NUMCTL_NANTRAP (by decide),
      (OnlyFields.setFlds_map s _ (k.isLt.trans (by decide)) (by decide +kernel : ∀ f ∈ numctlFlds, f ∈ fldTable)).withResp .done⟩
  · have hbit : ∀ f ∈ numstatFlds, f.w = 1 := by decide
    have hval : ∀ f ∈ numstatFlds, s.fld f k < 2 →
        (s.setFlds k 0 (numstatFlds.map (fun f => (f, s.fld f k - (s.fld f k &&& bitsOf v.toNat f.lsb f.w))))).fld f k =
          if bitsOf v.toNat f.lsb 1 = 1 then 0 else s.fld f k := fun f hf hold => by
      rw [s.fld_setFlds_map k 0 _ (by decide) hf, hbit f hf]
      exact w1c_bit hold (Nat.mod_lt _ (by decide))
    refine ⟨_, registerWrite_numstat k v s hrun hs3 hw, ?_,
      (OnlyFields.setFlds_map s _ (k.isLt.trans (by decide)) (by decide +kernel : ∀ f ∈ numstatFlds, f ∈ fldTable)).withResp .done⟩
    simp only [List.forall_mem_cons, State.withResp_fld]
    exact ⟨hval NUMSTAT_FLUSHED (by decide), hval NUMSTAT_SATURATED (by decide), hval NUMSTAT_NANINF (by decide), hval NUMSTAT_NANBLOCK (by decide),
      fun _ h => absurd h List.not_mem_nil⟩
  · exact ⟨_, readClear_strayCnt s, rfl, s.fld_setFld_same DEV_STRAY_CNT_COUNT 0 0 0,
      (OnlyFields.setFld s 0 (by decide +kernel) (by decide) List.mem_cons_self).withResp _⟩
  · refine exec_unnamedOffsetAccess ?_ write
    rw [State.reach_awake h4 hawake, if_neg hres, if_pos hs]

end Sys2Proof.Machine
end

section
/-! Register pairs: settles O10. -/

namespace Sys2Proof.Machine

/-- The low word of DEV_LSCYC. -/
def lscycLow : Slot := ⟨DEV_LSCYC_CYC, 0, 0, false⟩

/-- The high word of DEV_LSCYC. -/
def lscycHigh : Slot := ⟨DEV_LSCYC_CYC, 0, 0, true⟩

/-- The low word of CFG_SRCADDR. -/
def srcaddrLow : Slot := ⟨CFG_SRCADDR_ADDR, 0, 0, false⟩

/-- The high word of CFG_SRCADDR. -/
def srcaddrHigh : Slot := ⟨CFG_SRCADDR_ADDR, 0, 0, true⟩

/-- DEV_LSCYC_LO holds no other field. -/
theorem regSlots_lscycLow : regSlots .dev 0x108 = [lscycLow] := by decide +kernel

/-- DEV_LSCYC_HI holds no other field. -/
theorem regSlots_lscycHigh : regSlots .dev 0x10C = [lscycHigh] := by decide +kernel

/-- CFG_SRCADDR_LO holds no other field. -/
theorem regSlots_srcaddrLow : regSlots .dev 0x200008 = [srcaddrLow] := by decide +kernel

/-- CFG_SRCADDR_HI holds no other field. -/
theorem regSlots_srcaddrHigh : regSlots .dev 0x20000C = [srcaddrHigh] := by decide +kernel

/-- The one field of a word of the global ranges. -/
theorem State.slots_dev {o : Nat} {x : Slot} (s : State) (hb : bar0Spot o = .block .dev 0 o) (h : regSlots .dev o = [x]) (hu : x.u = 0) :
    s.slots o = [x] := by
  obtain ⟨f, u, i, hi⟩ := x
  subst hu
  rw [s.slots_eq_regSlots hb (by decide), h]
  rfl

/-- The pair whose word is the one field at an offset. -/
theorem State.pairAt_single {s : State} {o : Nat} {x : Slot} (hs : s.slots o = [x]) (hp : x.f.pair = true) (hi : Bool) :
    s.pairAt o hi = if x.hi = hi then some x else none := by
  by_cases h : x.hi = hi <;> simp [State.pairAt, hs, hp, h]

/-- The word of a register with one field. -/
theorem State.regWord_single {s : State} {o : Nat} {x : Slot} (hs : s.slots o = [x]) : s.regWord o = s.slotWord x := by
  simp [State.regWord, hs]

/-- A word of the global ranges that holds a field is reached outside S3. -/
theorem State.reach_dev {s : State} {o : Nat} {x : Slot} (h4 : o % 4 = 0) (hc : spotCar o = none) (hs : s.slots o = [x]) (hs3 : s.pwr.s3 = false) :
    s.reach o 4 = .register :=
  State.reach_register h4 (State.answersAt_dev hc hs3) (by simp [hs])

/-- PAIR_LOW_READ of DEV_LSCYC returns the low word of the count and latches its high word. -/
theorem pairLowRead_lscyc (s : State) (hs3 : s.pwr.s3 = false) : exec (.pairLowRead 0x108) s =
    .next ((s.latchHigh DEV_LSCYC_CYC 0 0 (s.fld DEV_LSCYC_CYC 0 / 2 ^ 32)).withResp (.data (s.fld DEV_LSCYC_CYC 0 % 2 ^ 32))) := by
  have hs : s.slots 0x108 = [lscycLow] := s.slots_dev (by decide) regSlots_lscycLow rfl
  have hview : s.view lscycLow * 2 ^ lscycLow.f.lsb = s.fld DEV_LSCYC_CYC 0 := Nat.mul_one _
  have hword : s.slotWord lscycLow = s.fld DEV_LSCYC_CYC 0 % 2 ^ 32 := congrArg (· % 2 ^ 32) hview
  rw [exec_pairLowRead (off := 0x108) (x := lscycLow) (State.pairAt_single hs rfl false) (State.reach_dev (by decide) (by decide) hs hs3), hview,
    show (0x108 : BitVec 30).toNat = 0x108 from rfl, State.regWord_single hs, hword]
  rfl

/-- PAIR_HIGH_READ of DEV_LSCYC returns the latched word, else the current high word, and changes nothing. -/
theorem pairHighRead_lscyc (s : State) (hs3 : s.pwr.s3 = false) : exec (.pairHighRead 0x10C) s =
    .next (s.withResp (.data (s.latchedHigh DEV_LSCYC_CYC 0 0 (s.fld DEV_LSCYC_CYC 0 / 2 ^ 32)))) := by
  have hs : s.slots 0x10C = [lscycHigh] := s.slots_dev (by decide) regSlots_lscycHigh rfl
  have hword : s.slotWord lscycHigh = s.latchedHigh DEV_LSCYC_CYC 0 0 (s.fld DEV_LSCYC_CYC 0 / 2 ^ 32) :=
    congrArg (fun n => s.latchedHigh DEV_LSCYC_CYC 0 0 (n / 2 ^ 32)) (Nat.mul_one (s.fld DEV_LSCYC_CYC 0))
  rw [exec_pairHighRead (off := 0x10C) (x := lscycHigh) (State.pairAt_single hs rfl true) (State.pairAt_single hs rfl false)
    (State.reach_dev (by decide) (by decide) hs hs3),
    show (0x10C : BitVec 30).toNat = 0x10C from rfl, State.readRegister_of_no_rc (by simp [hs, lscycHigh, DEV_LSCYC_CYC]),
    State.regWord_single hs, hword]

/-- PAIR_LOW_WRITE of CFG_SRCADDR holds the word and changes nothing else. -/
theorem pairLowWrite_srcaddr (lo : BitVec 32) (s : State) (hs3 : s.pwr.s3 = false) (hw : s.withheld = false) :
    exec (.pairLowWrite 0x200008 lo) s = .next ((s.holdLow CFG_SRCADDR_ADDR 0 0 lo.toNat).withResp .done) := by
  have hs : s.slots 0x200008 = [srcaddrLow] := s.slots_dev (by decide) regSlots_srcaddrLow rfl
  exact exec_pairLowWrite (off := 0x200008) (y := srcaddrLow) (State.pairAt_single hs rfl false)
    (State.reach_dev (by decide) (by decide) hs hs3) rfl hw lo

/-- PAIR_HIGH_WRITE of CFG_SRCADDR sets the address to the held low word and the word written. -/
theorem pairHighWrite_srcaddr (hi : BitVec 32) (s : State) (hs3 : s.pwr.s3 = false) (hw : s.withheld = false) :
    exec (.pairHighWrite 0x20000C hi) s = .next (((s.dropLow CFG_SRCADDR_ADDR 0 0).setFld CFG_SRCADDR_ADDR 0 0
      (bitsOf (s.heldLow CFG_SRCADDR_ADDR 0 0 (s.fld CFG_SRCADDR_ADDR 0 * 2 ^ 4) + hi.toNat * 2 ^ 32) 4 60)).withResp .done) := by
  have hs : s.slots 0x20000C = [srcaddrHigh] := s.slots_dev (by decide) regSlots_srcaddrHigh rfl
  exact exec_pairHighWrite (off := 0x20000C) (y := srcaddrHigh) (State.pairAt_single hs rfl true) (State.pairAt_single hs rfl false)
    (State.reach_dev (by decide) (by decide) hs hs3) rfl (by decide) hw hi

/-- Settles O10: the latch and the held word stand in the state between the two accesses of a pair. -/
theorem registerPairsReadAndWriteWhole : Obligations.RegisterPairsReadAndWriteWhole := by
  unfold Obligations.RegisterPairsReadAndWriteWhole
  refine ⟨fun s hs3 => ⟨_, pairLowRead_lscyc s hs3, rfl, rfl, fun u hl hu => ?_⟩, fun s hs3 hl => ?_, fun lo hi s hs3 hw => ?_⟩
  · rw [pairHighRead_lscyc u hu, State.latchedHigh_latchHigh hl]
    rfl
  · rw [pairHighRead_lscyc s hs3, State.latchedHigh_of_none (hl ▸ rfl)]
    rfl
  · have hheld : ((s.holdLow CFG_SRCADDR_ADDR 0 0 lo.toNat).withResp .done).heldLow CFG_SRCADDR_ADDR 0 0 (s.fld CFG_SRCADDR_ADDR 0 * 2 ^ 4) = lo.toNat :=
      (State.heldLow_holdLow rfl _).trans (Nat.mod_eq_of_lt lo.isLt)
    have hhigh := pairHighWrite_srcaddr hi ((s.holdLow CFG_SRCADDR_ADDR 0 0 lo.toNat).withResp .done) hs3 hw
    rw [State.withResp_fld, show (s.holdLow CFG_SRCADDR_ADDR 0 0 lo.toNat).fld CFG_SRCADDR_ADDR 0 = s.fld CFG_SRCADDR_ADDR 0 from rfl, hheld] at hhigh
    exact ⟨_, _, pairLowWrite_srcaddr lo s hs3 hw, rfl, hhigh, (State.fld_setFld_same _ CFG_SRCADDR_ADDR 0 0 _).trans (Nat.mod_mod _ _), rfl,
      SameFields.trans (.of_eq rfl) (SameFields.setFld (s.dropLow CFG_SRCADDR_ADDR 0 0) (by decide +kernel) (by decide) List.mem_cons_self)⟩

end Sys2Proof.Machine
end

section
/-! The passing of time on an empty queue: settles O2. -/

namespace Sys2Proof.Machine

/-- The rein after a coach cycle: from FIRED it enters IDLE (Table 7.4). -/
def State.reinPassed (s : State) : State := if s.fld DEV_REINSTAT_STATE 0 == 3 then s.setFld DEV_REINSTAT_STATE 0 0 0 else s

/-- The register fields after a coach cycle. -/
def State.cyclePassed (s : State) : State := s.reinPassed.wrapAdd DEV_LSCYC_CYC 0 0 1

/-- With the coach clock or every network clock stopped only the always-on and the network cycles count. -/
theorem State.tick_stopped {s : State} (h : s.fld CLK_COACHF_MHZ 0 = 0 ∨ s.netStopped = true) :
    s.tick = { s with aoCycles := s.aoCycles + 1, netCycles := s.netCycles + (if s.netStopped then 0 else 256) } := by
  have hc : (s.fld CLK_COACHF_MHZ 0 == 0 || s.netStopped) = true := by simpa using h
  exact if_pos hc

/-- With the coach clock running a coach cycle passes, and the other clocks count in proportion (R45, R573). -/
theorem State.tick_running {s : State} (hm : s.fld CLK_COACHF_MHZ 0 ≠ 0) (hn : s.netStopped = false) :
    s.tick = { s.cyclePassed with
      coachCycles := s.coachCycles + 1
      netCycles := s.netCycles + (s.netFrac + 1600) / s.fld CLK_COACHF_MHZ 0
      netFrac := (s.netFrac + 1600) % s.fld CLK_COACHF_MHZ 0
      aoCycles := s.aoCycles + (s.aoFrac + 625) / (100 * s.fld CLK_COACHF_MHZ 0)
      aoFrac := (s.aoFrac + 625) % (100 * s.fld CLK_COACHF_MHZ 0) } := by
  have hc : ¬ (s.fld CLK_COACHF_MHZ 0 == 0 || s.netStopped) = true := by simp [hm, hn]
  exact if_neg hc

/-- The rein's state after a coach cycle. -/
theorem State.reinPassed_state (s : State) :
    s.reinPassed.fld DEV_REINSTAT_STATE 0 = if s.fld DEV_REINSTAT_STATE 0 = 3 then 0 else s.fld DEV_REINSTAT_STATE 0 := by
  by_cases h : s.fld DEV_REINSTAT_STATE 0 = 3 <;> simp [State.reinPassed, h]

/-- The rein's part of a coach cycle leaves DEV_LSCYC alone. -/
theorem State.reinPassed_lscyc (s : State) : s.reinPassed.fld DEV_LSCYC_CYC 0 = s.fld DEV_LSCYC_CYC 0 := by
  unfold State.reinPassed
  split
  · exact s.fld_setFld_idx 0 0 0 0 0 (by decide)
  · rfl

/-- A coach cycle takes a fired rein to IDLE and leaves every other state of the rein alone. -/
theorem State.cyclePassed_rein (s : State) :
    s.cyclePassed.fld DEV_REINSTAT_STATE 0 = if s.fld DEV_REINSTAT_STATE 0 = 3 then 0 else s.fld DEV_REINSTAT_STATE 0 :=
  (s.reinPassed.fld_setFld_idx 0 0 0 0 _ (by decide)).trans s.reinPassed_state

/-- DEV_LSCYC counts a coach cycle. -/
theorem State.cyclePassed_lscyc (s : State) : s.cyclePassed.fld DEV_LSCYC_CYC 0 = (s.fld DEV_LSCYC_CYC 0 + 1) % 2 ^ 64 :=
  (s.reinPassed.fld_setFld_same DEV_LSCYC_CYC 0 0 _).trans (by rw [s.reinPassed_lscyc]; rfl)

/-- A coach cycle changes no register field but DEV_LSCYC and the rein's state. -/
theorem State.cyclePassed_only (s : State) : OnlyFields [(DEV_LSCYC_CYC, 0, 0), (DEV_REINSTAT_STATE, 0, 0)] s s.cyclePassed := by
  refine OnlyFields.trans (t := s.reinPassed) ?_ (.setFld _ _ (by decide +kernel) (by decide) (by simp))
  unfold State.reinPassed
  split
  · exact .setFld s 0 (by decide +kernel) (by decide) (by simp)
  · exact .refl _ s

/-- Settles O2, by whether the coach clock runs: a coach cycle passes, or an always-on cycle alone. -/
theorem idleStepOnlyCountsTime : Obligations.IdleStepOnlyCountsTime := by
  unfold Obligations.IdleStepOnlyCountsTime
  intro s hq
  refine ⟨s.tick, by rw [step, hq], ?_⟩
  by_cases h : s.fld CLK_COACHF_MHZ 0 = 0 ∨ s.netStopped = true
  · rw [State.tick_stopped h]
    refine ⟨rfl, .of_eq rfl, fun hm hn => ?_, fun _ => ⟨rfl, rfl, rfl, fun hn => ?_⟩⟩
    · exact absurd h (by simp [hm, hn])
    · simp [hn]
  · obtain ⟨hm, hn⟩ := not_or.1 h
    obtain ⟨hrest, hfields⟩ := s.cyclePassed_only
    rw [State.tick_running hm (Bool.eq_false_iff.2 hn)]
    refine ⟨?_, hfields, fun _ _ => ⟨rfl, s.cyclePassed_lscyc, s.cyclePassed_rein⟩, fun h' => absurd h' h⟩
    rw [hrest]

end Sys2Proof.Machine
end

section
/-! Events from outside that wait, and writes of registers that do not answer: settles O7. -/

namespace Sys2Proof.Machine

/-- While lockstep runs an event that may enter at the next boundary waits. -/
theorem State.outside_waits {s : State} (h : s.withheld = true) (rank : Nat) (i : Instr) (eff : State → Res) :
    s.outside rank i eff = .next { s with lock := { s.lock with waiting := s.lock.waiting ++ [⟨rank, 0, i⟩] } } :=
  State.outsideAt_waits h rank 0 i eff

/-- A write of a register field that is a command of its own waits with the rank of PCIe port 0 (log 14), where the register answers. -/
theorem State.regEvent_waits {s : State} {f : Fld} {u idx : Nat} {hi : Bool} (ha : s.answersAt (f.bar0 u idx + 4 * b2n hi) = true)
    (h : s.withheld = true) (i : Instr) (eff : State → Res) :
    s.regEvent f u idx i eff hi = .next { s with lock := { s.lock with waiting := s.lock.waiting ++ [⟨7, 0, i⟩] } } :=
  (if_pos ha).trans (State.outside_waits h 7 i eff)

/-- Every command that writes a register field acts as a write of that field. (`delta` opens `exec` before the split, so that each case meets the arm of its
command alone and not one equation for every command.) -/
theorem exec_of_fieldWritten {i : Instr} {f : Fld} {u idx : Nat} {hi : Bool} (h : fieldWritten i = some (f, u, idx, hi)) (s : State) :
    ∃ eff, exec i s = s.regEvent f u idx i eff hi := by
  delta exec
  cases i
  case maintRequest kind unit host => cases host <;> cases h; exact ⟨_, rfl⟩
  all_goals cases h
  all_goals exact ⟨_, rfl⟩

/-- The registers that these commands write lie in BAR0 (Tables 1.7 to 1.9), whatever the unit and the index. -/
theorem bar0_lt_of_fieldWritten {i : Instr} {f : Fld} {u idx : Nat} {hi : Bool} (h : fieldWritten i = some (f, u, idx, hi)) :
    f.bar0 u idx + 4 * b2n hi < 2 ^ 30 := by
  cases i
  case maintRequest kind unit host => cases host <;> cases h; decide
  all_goals cases h
  all_goals decide +revert +kernel

/-- A doorbell write from the host is an event of the port by which it comes. -/
theorem State.doorbell_of_doorRank {d : Door} {rank : Nat} (h : doorRank d = some rank) (s : State) (i : Instr) (f : Nat → State → Option State) :
    s.doorbell d i f = s.outside rank i (fun t => t.ring d f) := by
  cases d <;> cases h <;> rfl

/-- A command of the admin rings is an event of the scheduler core (R311). -/
theorem State.admin_outside (s : State) (i : Instr) (p opc : Nat) (cmd : List Byte) (act : Adm → State → State) :
    ∃ eff, s.admin i p opc cmd act = s.outside 2 i eff := ⟨_, rfl⟩

/-- Every command with a rank of its own in Table 7.2 acts as an event from outside of that rank. -/
theorem exec_of_eventRank {i : Instr} {rank : Nat} (h : eventRank i = some rank) (s : State) : ∃ eff, exec i s = s.outside rank i eff := by
  delta exec
  cases i
  case sqtail | cqhead | qsync | resume | cqrel | dmahead => exact ⟨_, State.doorbell_of_doorRank h s _ _⟩
  case ctxCreate | ctxDestroy | ctxBind | ctxUnbind | ctxMove | routeWrite | vfMap | hclStart | brake =>
    cases h
    exact State.admin_outside s _ _ _ _ _
  case maintRequest kind unit host => cases host <;> cases h; exact ⟨fun t => ok (t.mntAsk _), rfl⟩
  all_goals cases h
  all_goals exact ⟨_, rfl⟩

/-- Settles O7: each command acts through the write of its field or as an event of its rank, and both wait while lockstep runs. -/
theorem eventsFromOutsideWaitAndSilentRegistersStray : Obligations.EventsFromOutsideWaitAndSilentRegistersStray := by
  unfold Obligations.EventsFromOutsideWaitAndSilentRegistersStray
  refine ⟨fun i f u idx hi s hf => ?_, fun i rank s hr hw => ?_, fun src s hw => ?_, fun s hw => ?_⟩
  · obtain ⟨eff, heff⟩ := exec_of_fieldWritten hf s
    refine ⟨fun ha => ?_, fun ha hw => heff.trans (State.regEvent_waits ha hw i eff)⟩
    exact ⟨_, heff.trans (State.regEvent_silent ha i eff), rfl, strayTaken_stray (by decide) (bar0_lt_of_fieldWritten hf) true s .done⟩
  · obtain ⟨eff, heff⟩ := exec_of_eventRank hr s
    exact heff.trans (State.outside_waits hw rank i eff)
  · change execFaultReport src s = _
    exact State.outsideAt_waits hw 2 (s.faultCycle src + s.slotLen) (.faultReport src) _
  · change execHangExpiry s = _
    exact State.outsideAt_waits hw 2 (s.fld DEV_LSCYC_CYC 0 + s.slotLen) .hangExpiry _

end Sys2Proof.Machine
end

section
/-! SUPPORT. Laws of the coaches: reads of a coach's parts and of its store after a write, what changes nothing but one coach, issue, CLOSE, and the end of
a coach's part of a work order (R177, R186, R208). -/

namespace Sys2Proof.Machine

/-! ### Reads after a write -/

/-- The part of a coach just replaced. -/
@[simp] theorem State.coach_setCoach_same (s : State) (k : Nat) (c : CoachS) : (s.setCoach k c).coach k = c := mget_mset_same _ _ k c

/-- Replacing a coach's part leaves every other coach alone. -/
theorem State.coach_setCoach_other (s : State) {j k : Nat} (c : CoachS) (h : j ≠ k) : (s.setCoach k c).coach j = s.coach j := mget_mset_other c h

/-- The part of a coach just changed. -/
@[simp] theorem State.coach_updCoach_same (s : State) (k : Nat) (f : CoachS → CoachS) : (s.updCoach k f).coach k = f (s.coach k) :=
  s.coach_setCoach_same k _

/-- A register write leaves every coach's parts alone. -/
@[simp] theorem State.coach_setFld (s : State) (f : Fld) (u i v j : Nat) : (s.setFld f u i v).coach j = s.coach j := rfl

/-- Counting in a register leaves every coach's parts alone. -/
@[simp] theorem State.coach_wrapAdd (s : State) (f : Fld) (u i n j : Nat) : (s.wrapAdd f u i n).coach j = s.coach j := rfl

/-- A report leaves every coach's parts alone. -/
@[simp] theorem State.coach_report (s : State) (r : Report) (j : Nat) : (s.report r).coach j = s.coach j := rfl

/-- A byte after a run of bytes was written. -/
theorem memByte_memWrite (m : List Host.Cell) (a : Nat) (bs : List Nat) (x : Nat) :
    memByte (memWrite m a bs) x = if a ≤ x ∧ x < a + bs.length then bs.getD (x - a) 0 % 256 else memByte m x := by
  simp only [memByte, memWrite, mget_mblock, List.length_map]
  split
  · exact (congrArg BitVec.toNat (List.getD_map bs 0 (BitVec.ofNat 8))).trans (BitVec.toNat_ofNat _ 8)
  · rfl

/-- A run of bytes is read byte by byte. -/
theorem memRead_eq (m : List Host.Cell) (a n : Nat) : memRead m a n = (List.range n).map (fun i => memByte m (a + i)) := by
  rw [memRead, mslice_eq, List.map_map]
  rfl

/-- The bytes of the coach store just written. -/
theorem State.storeRead_storeWrite (s : State) (k a : Nat) (bs : List Nat) :
    (s.storeWrite k a bs).storeRead k a bs.length = bs.map (· % 256) := by
  refine List.ext_getElem (by simp [State.storeRead, memRead]) (fun i _ hi => ?_)
  have hi' : i < bs.length := by simpa using hi
  simp [State.storeRead, State.storeWrite, memRead_eq, memByte_memWrite, hi']

/-- A write of the coach store leaves every other byte alone. -/
theorem sameBytesBut_storeWrite (s : State) (k a : Nat) (bs : List Nat) : SameBytesBut k a bs.length s (s.storeWrite k a bs) :=
  ⟨fun x hx => (memByte_memWrite s.store (k * storeSize + a) bs x).trans (if_neg (by omega)), fun _ => rfl, fun _ => rfl⟩

/-! ### Changes of one coach -/

/-- One step after another. -/
theorem OnlyCoach.trans {k : Nat} {L : List (Fld × Nat × Nat)} {s t u : State} (a : OnlyCoach k L s t) (b : OnlyCoach k L t u) : OnlyCoach k L s u := by
  obtain ⟨ha, hfa, hca⟩ := a
  obtain ⟨hb, hfb, hcb⟩ := b
  refine ⟨hb.trans ?_, hfa.trans hfb, fun j hj => (hcb j hj).trans (hca j hj)⟩
  rw [ha]

/-- Nothing changes. -/
theorem OnlyCoach.refl (k : Nat) (L : List (Fld × Nat × Nat)) (s : State) : OnlyCoach k L s s := ⟨rfl, .refl L s, fun _ _ => rfl⟩

/-- Changes of listed register fields alone. -/
theorem OnlyFields.onlyCoach {L : List (Fld × Nat × Nat)} {s t : State} (a : OnlyFields L s t) (k : Nat) : OnlyCoach k L s t := by
  obtain ⟨ht, hf⟩ := a
  refine ⟨?_, hf, fun j _ => ?_⟩ <;> rw [ht]
  rfl

/-- A new part of the coach. -/
theorem OnlyCoach.setCoach {L : List (Fld × Nat × Nat)} (s : State) (k : Nat) (c : CoachS) : OnlyCoach k L s (s.setCoach k c) :=
  ⟨rfl, .of_eq rfl, fun _ hj => s.coach_setCoach_other c hj⟩

/-- A change of the coach's own part. -/
theorem OnlyCoach.updCoach {L : List (Fld × Nat × Nat)} (s : State) (k : Nat) (f : CoachS → CoachS) : OnlyCoach k L s (s.updCoach k f) :=
  .setCoach s k _

/-- A write of a listed field. -/
theorem OnlyCoach.setFld {L : List (Fld × Nat × Nat)} (s : State) (k : Nat) {g : Fld} {w j : Nat} (v : Nat) (hg : g ∈ fldTable) (hw : w < 2048)
    (h : (g, w, j) ∈ L) : OnlyCoach k L s (s.setFld g w j v) := (OnlyFields.setFld s v hg hw h).onlyCoach k

/-- The coach stores stay. -/
theorem OnlyCoach.store {k : Nat} {L : List (Fld × Nat × Nat)} {s t : State} (a : OnlyCoach k L s t) : t.store = s.store := by rw [a.1]

/-- Nothing changes but the register fields listed, the parts of coach `k`, the coach stores and the reports. -/
def CoachFrame (k : Nat) (L : List (Fld × Nat × Nat)) (s t : State) : Prop := OnlyCoach k L { s with store := t.store, reports := t.reports } t

/-- Changes of one coach that leave the stores and the reports alone. -/
theorem OnlyCoach.frame {k : Nat} {L : List (Fld × Nat × Nat)} {s t : State} (a : OnlyCoach k L s t) : CoachFrame k L s t := by
  obtain ⟨ht, hf, hc⟩ := a
  refine ⟨?_, hf.trans (.of_eq rfl), hc⟩
  rw [ht]

/-- One step after another. -/
theorem CoachFrame.trans {k : Nat} {L : List (Fld × Nat × Nat)} {s t u : State} (a : CoachFrame k L s t) (b : CoachFrame k L t u) : CoachFrame k L s u := by
  obtain ⟨ha, hfa, hca⟩ := a
  obtain ⟨hb, hfb, hcb⟩ := b
  refine ⟨hb.trans ?_, hfa.trans hfb, fun j hj => (hcb j hj).trans (hca j hj)⟩
  rw [ha]

/-- A write of the coach store. -/
theorem CoachFrame.storeWrite {L : List (Fld × Nat × Nat)} (s : State) (k a : Nat) (bs : List Nat) : CoachFrame k L s (s.storeWrite k a bs) :=
  .refl k L _

/-- A report to the scheduler core. -/
theorem CoachFrame.report {k : Nat} {L : List (Fld × Nat × Nat)} (s : State) (r : Report) : CoachFrame k L s (s.report r) := .refl k L _

/-- HBM and the tender media stay. -/
theorem CoachFrame.hbm_media {k : Nat} {L : List (Fld × Nat × Nat)} {s t : State} (a : CoachFrame k L s t) : t.hbm = s.hbm ∧ t.media = s.media := by
  rw [a.1]
  exact ⟨rfl, rfl⟩

/-! ### Issue (R177, R186, R209) -/

/-- When a coach issues. -/
theorem State.issuing_iff {s : State} {k : Nat} : s.issuing k = true ↔ s.coachStill = false ∧ s.fld COA_STATE_STATE k = 2 ∧ (s.coach k).halted = false ∧
    (s.coach k).ctrl = none ∧ (s.coach k).ending = false ∧ ∀ o ∈ (s.coach k).ops, o.closed = true → o.mode.nanTrap = false := by
  simp [State.issuing, and_assoc]

/-- An instruction of the issue row's opcode that passes the issue check, where its unit's queue has room, is issued. -/
theorem State.issueOp_issues {s : State} {k op : Nat} (hi : s.issuing k = true) (ho : opOf (s.atPc k) = op) (hq : QueueRoom k op s)
    (hb : badField (s.atPc k) = false) (act : Nat → Nat → State → State) : s.issueOp k op act = act (s.atPc k) (s.fld COA_PC_PC k) s := by
  cases hu : unitOf op with
  | none => simp [State.issueOp, hi, ho, hb, hu]
  | some u => simp [State.issueOp, hi, ho, hb, hu, hq u hu]

/-- Setting CLOSE in a word leaves its STATSEL. -/
theorem iClose_or_close (w : Nat) : iClose (w ||| 2 ^ 8) = true ∧ iStatSel (w ||| 2 ^ 8) = iStatSel w := by
  constructor
  · rcases Nat.mod_two_eq_zero_or_one (w >>> 8) with h | h <;>
      simp [iClose, fieldOf, bitsOf, Nat.shiftRight_or_distrib, Nat.or_mod_two_pow (n := 1), h]
  · simp [iStatSel, fieldOf, bitsOf, Nat.shiftRight_or_distrib]

/-- With no operation open, CLOSE does nothing. -/
theorem State.closeFor_none {s : State} {k : Nat} (h : (s.coach k).openOp = none) (id pc sel : Nat) (done : Bool) : s.closeFor k id pc sel done = s := by
  rw [State.closeFor, h]

/-- An operation once its closing instruction has issued (R186). -/
def Opn.closing (id pc sel : Nat) (done : Bool) (o : Opn) : Opn := { o with closed := true, closerId := id, closerPc := pc, statSel := sel, closerDone := done }

/-- CLOSE closes the open operation, and COA_SEQ moves on (R186). -/
theorem State.closeFor_some {s : State} {k : Nat} {o : Opn} (h : (s.coach k).openOp = some o) (id pc sel : Nat) (done : Bool) :
    s.closeFor k id pc sel done = (s.updOp k (some o.seq) (Opn.closing id pc sel done)).setFld COA_SEQ_SEQ k 0 (o.seq + 1) := by
  rw [State.closeFor, h]
  rfl

/-- A change of an operation changes its coach alone. -/
theorem OnlyCoach.updOp {L : List (Fld × Nat × Nat)} (s : State) (k seq : Nat) (f : Opn → Opn) : OnlyCoach k L s (s.updOp k (some seq) f) :=
  OnlyCoach.updCoach s k (fun c => { c with ops := mapOp c.ops seq f })

/-- The operations of a coach after a change of one. -/
@[simp] theorem State.coach_updOp (s : State) (k seq : Nat) (f : Opn → Opn) :
    (s.updOp k (some seq) f).coach k = { s.coach k with ops := mapOp (s.coach k).ops seq f } := s.coach_updCoach_same k _

/-- CLOSE changes its coach's operations and COA_SEQ alone. -/
theorem OnlyCoach.closeFor {L : List (Fld × Nat × Nat)} (s : State) {k : Nat} (hk : k < 2048) (hL : (COA_SEQ_SEQ, k, 0) ∈ L) (id pc sel : Nat) (done : Bool) :
    OnlyCoach k L s (s.closeFor k id pc sel done) := by
  cases h : (s.coach k).openOp with
  | none => rw [State.closeFor_none h]; exact .refl k L s
  | some o =>
    rw [State.closeFor_some h]
    exact (OnlyCoach.updOp s k o.seq _).trans (.setFld _ k _ (by decide +kernel) hk hL)

/-- CLOSE leaves what is in flight, and no operation comes or goes. -/
theorem State.coach_closeFor (s : State) (k id pc sel : Nat) (done : Bool) : ((s.closeFor k id pc sel done).coach k).flight = (s.coach k).flight ∧
    (((s.closeFor k id pc sel done).coach k).ops = [] ↔ (s.coach k).ops = []) := by
  cases h : (s.coach k).openOp with
  | none => rw [State.closeFor_none h]; exact ⟨rfl, Iff.rfl⟩
  | some o => simp [State.closeFor_some h, mapOp]

/-- A control instruction with CLOSE closes the open operation under its STATSEL. -/
theorem closedBy_closeFor {s u : State} {k w : Nat} (hc : u.coach k = s.coach k) (hs : u.fld COA_SEQ_SEQ k = s.fld COA_SEQ_SEQ k) (hw : iClose w = true) :
    ClosedBy k w s (u.closeFor k (2 ^ 40) (s.fld COA_PC_PC k) (iStatSel w) true) := by
  refine ⟨fun h => ?_, fun o _ ho => ?_⟩
  · have hn : (u.coach k).openOp = none := by rw [hc]; exact h.resolve_left (by simp [hw])
    rw [State.closeFor_none hn, hc]
    exact ⟨rfl, hs⟩
  · rw [State.closeFor_some (hc ▸ ho)]
    refine ⟨State.fld_setFld_same _ COA_SEQ_SEQ k 0 _, ?_⟩
    rw [State.coach_setFld, State.coach_updOp, hc]
    rfl

/-- What a close says of a state holds of every state with its operations and its COA_SEQ. -/
theorem ClosedBy.of_eq {k w : Nat} {s t u : State} (h : ClosedBy k w s t) (ho : (u.coach k).ops = (t.coach k).ops)
    (hs : u.fld COA_SEQ_SEQ k = t.fld COA_SEQ_SEQ k) : ClosedBy k w s u := by
  simpa only [ClosedBy, ho, hs] using h

/-! ### The end of a coach's part of a work order (R208) -/

/-- The coach has passed its END: its part of the work order has ended (R208), whatever its state shows. -/
def State.passedEnd (s : State) (k : Nat) : State :=
  (s.setCoach k { s.coach k with ending := false, ended := true, idleFrom := s.coachCycles }).setFld COA_PC_PC k 0 (min 1023 (s.fld COA_PC_PC k + 1))

/-- A coach in RUN shows IDLE. -/
def State.runToIdle (s : State) (k : Nat) : State := if s.fld COA_STATE_STATE k == 2 then s.setFld COA_STATE_STATE k 0 1 else s

/-- With END reached, nothing in flight and no operation left, the coach's part of the work order ends. -/
theorem State.settleEnd_done {s : State} {k : Nat} (he : (s.coach k).ending = true) (hf : (s.coach k).flight = []) (ho : (s.coach k).ops = []) :
    s.settleEnd k = (s.passedEnd k).runToIdle k := by
  simp [State.settleEnd, State.passedEnd, State.runToIdle, he, hf, ho]

/-- With an instruction in flight or an operation unended nothing happens. -/
theorem State.settleEnd_busy {s : State} {k : Nat} (h : (s.coach k).flight ≠ [] ∨ (s.coach k).ops ≠ []) : s.settleEnd k = s := by
  refine if_neg (fun hc => ?_)
  simp only [Bool.and_eq_true, List.isEmpty_iff] at hc
  obtain ⟨⟨-, hf⟩, ho⟩ := hc
  exact h.elim (· hf) (· ho)

/-- What the end of a coach's part of a work order can do. -/
theorem State.settleEnd_cases (s : State) (k : Nat) : s.settleEnd k = s ∨ s.settleEnd k = (s.passedEnd k).runToIdle k := by
  by_cases hb : (s.coach k).flight ≠ [] ∨ (s.coach k).ops ≠ []
  · exact .inl (State.settleEnd_busy hb)
  · obtain ⟨hf, ho⟩ : (s.coach k).flight = [] ∧ (s.coach k).ops = [] := by simpa using hb
    cases he : (s.coach k).ending with
    | true => exact .inr (State.settleEnd_done he hf ho)
    | false => exact .inl (if_neg (by simp [he]))

/-- The move from RUN to IDLE leaves every other field alone. -/
theorem State.fld_runToIdle (s : State) {f : Fld} (k u i : Nat) (h : f.idx % 1024 ≠ COA_STATE_STATE.idx % 1024) :
    (s.runToIdle k).fld f u i = s.fld f u i := by
  unfold State.runToIdle
  split
  · exact s.fld_setFld_idx u i k 0 1 h
  · rfl

/-- The move from RUN to IDLE leaves the coaches' parts alone. -/
@[simp] theorem State.coach_runToIdle (s : State) (k j : Nat) : (s.runToIdle k).coach j = s.coach j := by
  unfold State.runToIdle
  split <;> rfl

/-- The end of a coach's part of a work order leaves every field but COA_PC and COA_STATE alone. -/
theorem State.fld_settleEnd (s : State) {f : Fld} (k u i : Nat) (hp : f.idx % 1024 ≠ COA_PC_PC.idx % 1024)
    (hs : f.idx % 1024 ≠ COA_STATE_STATE.idx % 1024) : (s.settleEnd k).fld f u i = s.fld f u i := by
  rcases s.settleEnd_cases k with h | h <;> rw [h]
  exact (State.fld_runToIdle _ k u i hs).trans (State.fld_setFld_idx _ u i k 0 _ hp)

/-- A coach that is not in RUN keeps its state. -/
theorem State.state_settleEnd {s : State} {k : Nat} (h : s.fld COA_STATE_STATE k ≠ 2) : (s.settleEnd k).fld COA_STATE_STATE k = s.fld COA_STATE_STATE k := by
  have hst : (s.passedEnd k).fld COA_STATE_STATE k = s.fld COA_STATE_STATE k := State.fld_setFld_idx _ k 0 k 0 _ (by decide)
  rcases s.settleEnd_cases k with hc | hc <;> rw [hc]
  rwa [State.runToIdle, if_neg (by rwa [beq_iff_eq, hst])]

/-- The end of a coach's part of a work order leaves its operations alone. -/
theorem State.ops_settleEnd (s : State) (k : Nat) : ((s.settleEnd k).coach k).ops = (s.coach k).ops := by
  rcases s.settleEnd_cases k with h | h <;> rw [h]
  simp [State.passedEnd]

/-- A coach stopped before stays so. -/
theorem State.halted_settleEnd (s : State) (k : Nat) : ((s.settleEnd k).coach k).halted = (s.coach k).halted := by
  rcases s.settleEnd_cases k with h | h <;> rw [h]
  simp [State.passedEnd]

/-- Passing END changes the coach and COA_PC alone. -/
theorem OnlyCoach.passedEnd {L : List (Fld × Nat × Nat)} (s : State) {k : Nat} (hk : k < 2048) (hp : (COA_PC_PC, k, 0) ∈ L) :
    OnlyCoach k L s (s.passedEnd k) := (OnlyCoach.setCoach s k _).trans (.setFld _ k _ (by decide +kernel) hk hp)

/-- The move from RUN to IDLE changes COA_STATE alone. -/
theorem OnlyCoach.runToIdle {L : List (Fld × Nat × Nat)} (s : State) {k : Nat} (hk : k < 2048) (hs : (COA_STATE_STATE, k, 0) ∈ L) :
    OnlyCoach k L s (s.runToIdle k) := by
  unfold State.runToIdle
  split
  · exact .setFld s k 1 (by decide +kernel) hk hs
  · exact .refl k L s

/-- The end of a coach's part of a work order changes that coach alone. -/
theorem OnlyCoach.settleEnd {L : List (Fld × Nat × Nat)} (s : State) {k : Nat} (hk : k < 2048) (hp : (COA_PC_PC, k, 0) ∈ L) (hs : (COA_STATE_STATE, k, 0) ∈ L) :
    OnlyCoach k L s (s.settleEnd k) := by
  rcases s.settleEnd_cases k with h | h <;> rw [h]
  · exact .refl k L s
  · exact (OnlyCoach.passedEnd s hk hp).trans (.runToIdle _ hk hs)

end Sys2Proof.Machine
end

section
/-! The running totals: settles O11. -/

namespace Sys2Proof.Machine

/-- A write that is a command of its own acts at once where its register answers and lockstep does not withhold it. -/
theorem State.regEvent_of_hits {s : State} {f : Fld} {u i : Nat} (h : Hits f u i s) (c : Instr) (eff : State → Res) : s.regEvent f u i c eff = eff s := by
  obtain ⟨ha, hw⟩ := h
  refine State.regEvent_now ?_ hw c eff
  rwa [show 4 * b2n false = 0 from rfl, Nat.add_zero]

/-- A write that clears one field of a coach. -/
theorem regEvent_clears {f g : Fld} {k : Coach} {s : State} (h : Hits f k 0 s) (hg : g ∈ fldTable) (c : Instr) :
    ∃ t, s.regEvent f k 0 c (fun s => ok (s.setFld g k 0 0)) = .next t ∧ t.fld g k = 0 ∧ OnlyFields [(g, k, 0)] s t :=
  ⟨_, State.regEvent_of_hits h c _, (s.fld_setFld_same g k 0 0).trans (Nat.zero_mod _),
    .setFld s 0 hg (k.isLt.trans (by decide)) List.mem_cons_self⟩

/-- Settles O11: each of the three writes clears one field of the coach. -/
theorem runningTotalsClear : Obligations.RunningTotalsClear := by
  unfold Obligations.RunningTotalsClear
  refine ⟨fun k s h => ?_, fun k s h => ?_, fun k s h => ?_⟩
  · change ∃ t, execClearSattot k s = .next t ∧ _
    exact regEvent_clears h (by decide +kernel) (.clearSattot k)
  · change ∃ t, execClearFlushtot k s = .next t ∧ _
    exact regEvent_clears h (by decide +kernel) (.clearFlushtot k)
  · change ∃ t, execClearNanblktot k s = .next t ∧ _
    exact regEvent_clears h (by decide +kernel) (.clearNanblktot k)

end Sys2Proof.Machine
end

section
/-! The end of operations and of work orders: settles O16. -/

namespace Sys2Proof.Machine

/-! ### The NaN trap (R94 to R97) -/

/-- What the record of a NaN trap holds. -/
def trapFlds (ctx seq : Nat) : List (Fld × Nat) := [(NUM_TRAPINFO_CONTEXT, ctx), (NUM_TRAPINFO_MORE, 0), (NUM_TRAPINFO_VALID, 1), (NUM_TRAPSEQ_SEQ, seq)]

/-- The record's fields have indices of their own. -/
theorem trapFlds_idx (ctx seq : Nat) : (trapFlds ctx seq).map (·.1.idx % 1024) = [23, 24, 25, 26] := rfl

/-- The record of a NaN trap, unless one is held: then MORE alone is set. -/
def State.trapRecorded (s : State) (k seq : Nat) : State :=
  if s.flag NUM_TRAPINFO_VALID k then s.setFlag NUM_TRAPINFO_MORE k 0 true else s.setFlds k 0 (trapFlds (s.fld COA_ROLE_CONTEXT k) seq)

/-- A coach that does not show FAULT shows TRAP (log 107). -/
def State.trapShown (s : State) (k : Nat) : State := if s.fld COA_STATE_STATE k == 5 then s else s.setFld COA_STATE_STATE k 0 4

/-- A trap is recorded and shown, stops the coach, and is reported. -/
theorem State.takeTrap_eq (s : State) (k seq : Nat) : s.takeTrap k seq =
    (((s.trapRecorded k seq).trapShown k).updCoach k (fun c => { c with halted := true })).report
      { cause := 0x11, ctx := s.boundCtx k, unit := coachUnit k, code := 0, kind := 2, evUnit := coachNumber k, seq := seq } := rfl

/-- Showing the trap leaves every other field alone. -/
theorem State.fld_trapShown (s : State) {f : Fld} (k u i : Nat) (h : f.idx % 1024 ≠ COA_STATE_STATE.idx % 1024) :
    (s.trapShown k).fld f u i = s.fld f u i := by
  unfold State.trapShown
  split
  · rfl
  · exact s.fld_setFld_idx u i k 0 4 h

/-- A trap leaves every field but its record and COA_STATE alone. -/
theorem State.fld_trapRecorded (s : State) {f : Fld} (k seq u i : Nat) (h : f.idx % 1024 ∉ [23, 24, 25, 26]) :
    (s.trapRecorded k seq).fld f u i = s.fld f u i := by
  unfold State.trapRecorded
  split
  · exact s.fld_setFld_idx u i k 0 _ (fun e => h (e ▸ by decide))
  · exact s.fld_setFlds_idx u i k 0 h

/-- The fields of a trap's record. -/
theorem State.fld_takeTrap (s : State) {f : Fld} (k seq u i : Nat) (h : f.idx % 1024 ≠ COA_STATE_STATE.idx % 1024) :
    (s.takeTrap k seq).fld f u i = (s.trapRecorded k seq).fld f u i := by
  rw [State.takeTrap_eq]
  exact State.fld_trapShown _ k u i h

/-- After a trap the coach shows TRAP, or FAULT where it showed it. -/
theorem State.state_takeTrap (s : State) (k seq : Nat) :
    (s.takeTrap k seq).fld COA_STATE_STATE k = if s.fld COA_STATE_STATE k = 5 then 5 else 4 := by
  have hst : (s.trapRecorded k seq).fld COA_STATE_STATE k = s.fld COA_STATE_STATE k := s.fld_trapRecorded k seq k 0 (by decide)
  rw [State.takeTrap_eq]
  change ((s.trapRecorded k seq).trapShown k).fld COA_STATE_STATE k = _
  by_cases h : s.fld COA_STATE_STATE k = 5
  · rw [State.trapShown, hst, if_pos (beq_iff_eq.2 h), if_pos h, hst, h]
  · rw [State.trapShown, hst, if_neg (mt beq_iff_eq.1 h), if_neg h]
    exact State.fld_setFld_same _ COA_STATE_STATE k 0 4

/-- A trap's record is valid, and it holds the operation's number unless a record was held. -/
theorem State.trapRecorded_record (s : State) (k seq : Nat) : (s.trapRecorded k seq).fld NUM_TRAPINFO_VALID k = 1 ∧
    if s.fld NUM_TRAPINFO_VALID k = 1 then
      (s.trapRecorded k seq).fld NUM_TRAPINFO_MORE k = 1 ∧ (s.trapRecorded k seq).fld NUM_TRAPSEQ_SEQ k = s.fld NUM_TRAPSEQ_SEQ k
    else (s.trapRecorded k seq).fld NUM_TRAPINFO_MORE k = 0 ∧ (s.trapRecorded k seq).fld NUM_TRAPSEQ_SEQ k = seq % 2 ^ 32 := by
  by_cases h : s.fld NUM_TRAPINFO_VALID k = 1
  · rw [if_pos h, State.trapRecorded, State.flag, if_pos (beq_iff_eq.2 h)]
    exact ⟨(s.fld_setFld_idx k 0 k 0 _ (by decide)).trans h, s.fld_setFld_same NUM_TRAPINFO_MORE k 0 1, s.fld_setFld_idx k 0 k 0 _ (by decide)⟩
  · rw [if_neg h, State.trapRecorded, State.flag, if_neg (mt beq_iff_eq.1 h)]
    have hset : ∀ {f : Fld} {v : Nat}, (f, v) ∈ trapFlds (s.fld COA_ROLE_CONTEXT k) seq →
        (s.setFlds k 0 (trapFlds (s.fld COA_ROLE_CONTEXT k) seq)).fld f k = v % 2 ^ f.w := fun hf =>
      s.fld_setFlds_mem k 0 (by rw [trapFlds_idx]; decide) hf
    exact ⟨hset (v := 1) (by simp [trapFlds]), hset (v := 0) (by simp [trapFlds]), hset (by simp [trapFlds])⟩

/-- A trap stops the coach. -/
theorem State.coach_takeTrap (s : State) (k seq : Nat) : (s.takeTrap k seq).coach k = { s.coach k with halted := true } := by
  have hc : ((s.trapRecorded k seq).trapShown k).coach k = s.coach k := by
    unfold State.trapShown State.trapRecorded
    split <;> split <;> rfl
  rw [State.takeTrap_eq, State.coach_report, State.coach_updCoach_same, hc]

/-- A trap's record changes its own fields alone. -/
theorem OnlyCoach.trapRecorded (s : State) {k : Nat} (hk : k < 2048) (seq : Nat) : OnlyCoach k (endFlds k) s (s.trapRecorded k seq) := by
  have hflds : ∀ x ∈ trapFlds (s.fld COA_ROLE_CONTEXT k) seq, x.1 ∈ fldTable ∧ (x.1, k, 0) ∈ endFlds k := by
    simp only [trapFlds, List.forall_mem_cons]
    exact ⟨⟨by decide +kernel, by simp [endFlds]⟩, ⟨by decide +kernel, by simp [endFlds]⟩, ⟨by decide +kernel, by simp [endFlds]⟩,
      ⟨by decide +kernel, by simp [endFlds]⟩, fun _ h => absurd h List.not_mem_nil⟩
  unfold State.trapRecorded
  split
  · exact .setFld s k _ (by decide +kernel) hk (by simp [endFlds])
  · exact (OnlyFields.setFlds s hk hflds).onlyCoach k

/-- Showing the trap changes COA_STATE alone. -/
theorem OnlyCoach.trapShown (s : State) {k : Nat} (hk : k < 2048) : OnlyCoach k (endFlds k) s (s.trapShown k) := by
  unfold State.trapShown
  split
  · exact .refl k _ s
  · exact .setFld s k 4 (by decide +kernel) hk (by simp [endFlds, faultFlds])

/-- A trap changes its coach, its record and the reports alone. -/
theorem CoachFrame.takeTrap (s : State) {k : Nat} (hk : k < 2048) (seq : Nat) : CoachFrame k (endFlds k) s (s.takeTrap k seq) := by
  rw [State.takeTrap_eq]
  exact (((OnlyCoach.trapRecorded s hk seq).trans (.trapShown _ hk)).trans (.updCoach _ k _)).frame.trans (.report _ _)

/-- A trap writes no memory. -/
theorem State.store_takeTrap (s : State) {k : Nat} (hk : k < 2048) (seq : Nat) : (s.takeTrap k seq).store = s.store :=
  ((OnlyCoach.trapRecorded s hk seq).trans (.trapShown _ hk)).store

/-! ### An operation ends (R186, R188) -/

/-- The record of the oldest operation stands at its status pointer, the pointer has moved on, and the operation and its closing instruction have left. -/
def State.recordTaken (s : State) (k : Nat) (o : Opn) (rest : List Opn) : State :=
  ((s.storeWrite k (s.fld COA_SP_ADDR k o.statSel) (statusRecord o (opTraps o))).setFld COA_SP_ADDR k o.statSel
    (s.fld COA_SP_ADDR k o.statSel + ceilDiv (statusRecord o (opTraps o)).length 16 * 16)).updCoach k
      (fun c => { c with ops := rest, flight := c.flight.filter (fun i => !(i.id == o.closerId && i.finished)) })

/-- The trap that an operation takes at its end, if any. -/
def State.trapIf (s : State) (k : Nat) (o : Opn) : State := if opTraps o then s.takeTrap k o.seq else s

/-- The oldest operation has ended: record, trap, and the end of the coach's part of the work order where END waited for it. -/
def State.opEnded (s : State) (k : Nat) (o : Opn) (rest : List Opn) : State := ((s.recordTaken k o rest).trapIf k o).settleEnd k

/-- The oldest operation ends where it is ready and its record fits. -/
theorem State.endOperation_ready {s : State} {k : Nat} {o : Opn} {rest : List Opn} (ho : (s.coach k).ops = o :: rest) (hr : opReady (s.coach k) o = true)
    (hfit : s.fld COA_SP_ADDR k o.statSel + (statusRecord o (opTraps o)).length ≤ storeSize) :
    s.endOperation k = s.opEnded k o rest := by
  simp [State.endOperation, ho, hr, State.writeRecord, Nat.not_lt.2 hfit, State.opEnded, State.recordTaken, State.trapIf]

/-- Taking the record leaves every field but the status pointers alone. -/
theorem State.fld_recordTaken (s : State) {f : Fld} (k : Nat) (o : Opn) (rest : List Opn) (u i : Nat) (h : f.idx % 1024 ≠ COA_SP_ADDR.idx % 1024) :
    (s.recordTaken k o rest).fld f u i = s.fld f u i := State.fld_setFld_idx _ u i k o.statSel _ h

/-- The status pointer has moved on by whole 16 bytes (R188; log 109 for the wrap). -/
theorem State.sp_recordTaken (s : State) (k : Nat) (o : Opn) (rest : List Opn) : (s.recordTaken k o rest).fld COA_SP_ADDR k o.statSel =
    (s.fld COA_SP_ADDR k o.statSel + ceilDiv (statusRecord o (opTraps o)).length 16 * 16) % 2 ^ 23 := State.fld_setFld_same _ COA_SP_ADDR k o.statSel _

/-- Taking the record drops the operation. -/
theorem State.ops_recordTaken (s : State) (k : Nat) (o : Opn) (rest : List Opn) : ((s.recordTaken k o rest).coach k).ops = rest := by
  rw [State.recordTaken, State.coach_updCoach_same]

/-- Taking the record changes its coach and the coach's status pointer alone, and the coach store. -/
theorem CoachFrame.recordTaken (s : State) {k : Nat} (hk : k < 2048) {o : Opn} (hs : o.statSel < 4) (rest : List Opn) :
    CoachFrame k (endFlds k) s (s.recordTaken k o rest) := by
  have hsp : (COA_SP_ADDR, k, o.statSel) ∈ endFlds k := by
    have h4 : o.statSel = 0 ∨ o.statSel = 1 ∨ o.statSel = 2 ∨ o.statSel = 3 := by omega
    rcases h4 with h | h | h | h <;> simp [endFlds, h]
  exact (CoachFrame.storeWrite s k _ _).trans (OnlyCoach.trans (.setFld _ k _ (by decide +kernel) hk hsp) (.updCoach _ k _)).frame

/-- The trap, if any, leaves the status pointers alone. -/
theorem State.sp_trapIf (s : State) (k : Nat) (o : Opn) (i : Nat) : (s.trapIf k o).fld COA_SP_ADDR k i = s.fld COA_SP_ADDR k i := by
  unfold State.trapIf
  split
  · exact (s.fld_takeTrap k o.seq k i (by decide)).trans (s.fld_trapRecorded k o.seq k i (by decide))
  · rfl

/-- The trap, if any, leaves the operations alone. -/
theorem State.ops_trapIf (s : State) (k : Nat) (o : Opn) : ((s.trapIf k o).coach k).ops = (s.coach k).ops := by
  unfold State.trapIf
  split
  · rw [State.coach_takeTrap]
  · rfl

/-- The trap, if any, writes no memory. -/
theorem State.store_trapIf (s : State) {k : Nat} (hk : k < 2048) (o : Opn) : (s.trapIf k o).store = s.store := by
  unfold State.trapIf
  split
  · exact s.store_takeTrap hk o.seq
  · rfl

/-- The end of an operation changes its coach, its record and the reports alone. -/
theorem CoachFrame.opEnded (s : State) {k : Nat} (hk : k < 2048) {o : Opn} (hs : o.statSel < 4) (rest : List Opn) :
    CoachFrame k (endFlds k) s (s.opEnded k o rest) := by
  have htrap : CoachFrame k (endFlds k) (s.recordTaken k o rest) ((s.recordTaken k o rest).trapIf k o) := by
    unfold State.trapIf
    split
    · exact .takeTrap _ hk o.seq
    · exact (OnlyCoach.refl k _ _).frame
  exact ((CoachFrame.recordTaken s hk hs rest).trans htrap).trans (OnlyCoach.settleEnd _ hk (by simp [endFlds]) (by simp [endFlds, faultFlds])).frame

/-- The bytes that the end of an operation leaves: its record where the status pointer stood, and every other byte as it was. -/
theorem State.bytes_opEnded (s : State) {k : Nat} (hk : k < 2048) {o : Opn} (hs : o.statSel < 4) (rest : List Opn) :
    (s.opEnded k o rest).storeRead k (s.fld COA_SP_ADDR k o.statSel) (statusRecord o (opTraps o)).length =
      (statusRecord o (opTraps o)).map (· % 256) ∧
    SameBytesBut k (s.fld COA_SP_ADDR k o.statSel) (statusRecord o (opTraps o)).length s (s.opEnded k o rest) := by
  have hstore : (s.opEnded k o rest).store =
      (s.storeWrite k (s.fld COA_SP_ADDR k o.statSel) (statusRecord o (opTraps o))).store :=
    (OnlyCoach.settleEnd (L := endFlds k) _ hk (by simp [endFlds]) (by simp [endFlds, faultFlds])).store.trans (State.store_trapIf _ hk o)
  obtain ⟨hhbm, hmedia⟩ := (CoachFrame.opEnded s hk hs rest).hbm_media
  obtain ⟨hbytes, -, -⟩ := sameBytesBut_storeWrite s k (s.fld COA_SP_ADDR k o.statSel) (statusRecord o (opTraps o))
  refine ⟨?_, fun x hx => ?_, fun x => by rw [hhbm], fun x => by rw [hmedia]⟩
  · rw [State.storeRead, hstore]
    exact s.storeRead_storeWrite k _ _
  · rw [hstore]
    exact hbytes x hx

/-- An operation that traps stops its coach in TRAP, or in FAULT where it showed it, with the trap's record (log 107). -/
theorem State.trap_opEnded (s : State) (k : Nat) {o : Opn} (ht : opTraps o = true) (rest : List Opn) :
    let t := s.opEnded k o rest
    t.fld COA_STATE_STATE k = (if s.fld COA_STATE_STATE k = 5 then 5 else 4) ∧ (t.coach k).halted = true ∧ t.fld NUM_TRAPINFO_VALID k = 1 ∧
      if s.fld NUM_TRAPINFO_VALID k = 1 then t.fld NUM_TRAPINFO_MORE k = 1 ∧ t.fld NUM_TRAPSEQ_SEQ k = s.fld NUM_TRAPSEQ_SEQ k
      else t.fld NUM_TRAPINFO_MORE k = 0 ∧ t.fld NUM_TRAPSEQ_SEQ k = o.seq % 2 ^ 32 := by
  have hstate := (s.recordTaken k o rest).state_takeTrap k o.seq
  have hrec := (s.recordTaken k o rest).trapRecorded_record k o.seq
  have hread : ∀ {f : Fld}, f.idx % 1024 ≠ 31 → f.idx % 1024 ≠ 27 → (((s.recordTaken k o rest).takeTrap k o.seq).settleEnd k).fld f k =
      ((s.recordTaken k o rest).trapRecorded k o.seq).fld f k := fun hp hs =>
    (State.fld_settleEnd _ k k 0 hp hs).trans (State.fld_takeTrap _ k o.seq k 0 hs)
  rw [s.fld_recordTaken k o rest k 0 (by decide)] at hstate
  rw [s.fld_recordTaken (f := NUM_TRAPINFO_VALID) k o rest k 0 (by decide), s.fld_recordTaken (f := NUM_TRAPSEQ_SEQ) k o rest k 0 (by decide)] at hrec
  simp only [State.opEnded, State.trapIf, if_pos ht]
  rw [hread (f := NUM_TRAPINFO_VALID) (by decide) (by decide), hread (f := NUM_TRAPINFO_MORE) (by decide) (by decide),
    hread (f := NUM_TRAPSEQ_SEQ) (by decide) (by decide)]
  refine ⟨(State.state_settleEnd ?_).trans hstate, ?_, hrec⟩
  · rw [hstate]
    split <;> decide
  · rw [State.halted_settleEnd, State.coach_takeTrap]

/-! ### END (R208) -/

/-- END has been reached: it is counted as issued, the open operation is closed, and nothing more issues. -/
def State.atEnd (s : State) (k : Nat) : State :=
  ((s.wrapAdd COA_ISSUED_ISSUED k 0 1).closeFor k (2 ^ 40) (s.fld COA_PC_PC k) (iStatSel (s.atPc k)) true).updCoach k (fun c => { c with ending := true })

/-- END reached changes its coach alone. -/
theorem OnlyCoach.atEnd (s : State) {k : Nat} (hk : k < 2048) : OnlyCoach k [(COA_ISSUED_ISSUED, k, 0), (COA_SEQ_SEQ, k, 0)] s (s.atEnd k) :=
  have hcount : OnlyCoach k [(COA_ISSUED_ISSUED, k, 0), (COA_SEQ_SEQ, k, 0)] s (s.wrapAdd COA_ISSUED_ISSUED k 0 1) :=
    .setFld s k _ (by decide +kernel) hk (by simp)
  (hcount.trans (.closeFor _ hk (by simp) _ _ _ _)).trans (.updCoach _ k _)

/-- END at COA_PC is issued where the coach issues. -/
theorem exec_endWorkOrder {k : Coach} {s : State} (hi : s.issuing k = true) (ho : opOf (s.atPc k) = 0xF) (hb : badField (s.atPc k) = false) :
    exec (.endWorkOrder k) s = .next ((s.atEnd k).settleEnd k) :=
  congrArg ok (State.issueOp_issues hi ho (fun u hu => absurd hu (by decide +revert)) hb _)

/-- With nothing in flight and no operation, END ends the coach's part of the work order at once. -/
theorem State.settleEnd_atEnd_idle {s : State} {k : Nat} (hf : (s.coach k).flight = []) (ho : (s.coach k).ops = []) :
    (s.atEnd k).settleEnd k = (((s.wrapAdd COA_ISSUED_ISSUED k 0 1).updCoach k (fun c => { c with ending := true })).passedEnd k).runToIdle k := by
  have hopen : ((s.wrapAdd COA_ISSUED_ISSUED k 0 1).coach k).openOp = none := by rw [State.coach_wrapAdd, CoachS.openOp, ho]; rfl
  rw [State.atEnd, State.closeFor_none hopen, State.settleEnd_done (by simp) (by simpa using hf) (by simpa using ho)]

/-- With an instruction in flight or an operation unended, END waits. -/
theorem State.settleEnd_atEnd_busy {s : State} {k : Nat} (h : (s.coach k).flight ≠ [] ∨ (s.coach k).ops ≠ []) : (s.atEnd k).settleEnd k = s.atEnd k := by
  obtain ⟨hf, ho⟩ := (s.wrapAdd COA_ISSUED_ISSUED k 0 1).coach_closeFor k (2 ^ 40) (s.fld COA_PC_PC k) (iStatSel (s.atPc k)) true
  refine State.settleEnd_busy ?_
  rw [State.atEnd, State.coach_updCoach_same]
  exact h.imp (fun h e => h (hf ▸ e)) (fun h e => h (ho.1 e))

/-- What END that ends the coach's part of the work order at once leaves: the coach IDLE, and COA_PC past the END but never beyond 1,023 (log 92). -/
theorem endWorkOrder_idle {s : State} {k : Nat} (hk : k < 2048) (hi : s.issuing k = true) (hf : (s.coach k).flight = []) (ho : (s.coach k).ops = []) :
    let t := (s.atEnd k).settleEnd k
    t.fld COA_STATE_STATE k = 1 ∧ t.coach k = { s.coach k with ended := true, idleFrom := s.coachCycles } ∧
      t.fld COA_PC_PC k = min 1023 (s.fld COA_PC_PC k + 1) ∧ t.fld COA_ISSUED_ISSUED k = (s.fld COA_ISSUED_ISSUED k + 1) % 2 ^ 64 ∧
      OnlyCoach k [(COA_PC_PC, k, 0), (COA_ISSUED_ISSUED, k, 0), (COA_STATE_STATE, k, 0)] s t := by
  obtain ⟨-, hrun, -, -, hend, -⟩ := State.issuing_iff.1 hi
  rw [State.settleEnd_atEnd_idle hf ho]
  set u := (s.wrapAdd COA_ISSUED_ISSUED k 0 1).updCoach k (fun c => { c with ending := true }) with hu
  have hpc : u.fld COA_PC_PC k = s.fld COA_PC_PC k := s.fld_setFld_idx k 0 k 0 _ (by decide)
  have hst : (u.passedEnd k).fld COA_STATE_STATE k = 2 :=
    (State.fld_setFld_idx _ k 0 k 0 _ (by decide)).trans ((s.fld_setFld_idx k 0 k 0 _ (by decide)).trans hrun)
  refine ⟨?_, ?_, ?_, ?_, ?_⟩
  · rw [State.runToIdle, hst]
    exact State.fld_setFld_same _ COA_STATE_STATE k 0 1
  · simp [State.passedEnd, State.wrapAdd, hu, hend]
  · rw [State.fld_runToIdle _ k k 0 (by decide), ← hpc]
    exact (State.fld_setFld_same _ COA_PC_PC k 0 _).trans (Nat.mod_eq_of_lt (by simp [COA_PC_PC]))
  · rw [State.fld_runToIdle _ k k 0 (by decide)]
    exact (State.fld_setFld_idx _ k 0 k 0 _ (by decide)).trans (s.fld_setFld_same COA_ISSUED_ISSUED k 0 _)
  · have h : OnlyCoach k [(COA_PC_PC, k, 0), (COA_ISSUED_ISSUED, k, 0), (COA_STATE_STATE, k, 0)] s u :=
      (OnlyCoach.setFld s k _ (by decide +kernel) hk (by simp)).trans (.updCoach _ k _)
    exact (h.trans (.passedEnd u hk (by simp))).trans (.runToIdle _ hk (by simp))

/-- What END that waits leaves: the open operation closed, and issue held until what is in flight and every operation have ended. -/
theorem endWorkOrder_waits {s : State} {k : Nat} (hk : k < 2048) (hbusy : (s.coach k).flight ≠ [] ∨ (s.coach k).ops ≠ []) :
    let t := (s.atEnd k).settleEnd k
    (t.coach k).ending = true ∧ t.issuing k = false ∧ ClosedBy k (s.atPc k ||| 2 ^ 8) s t ∧
      OnlyCoach k [(COA_ISSUED_ISSUED, k, 0), (COA_SEQ_SEQ, k, 0)] s t := by
  obtain ⟨hclose, hsel⟩ := iClose_or_close (s.atPc k)
  have hclosed := closedBy_closeFor (s := s) (u := s.wrapAdd COA_ISSUED_ISSUED k 0 1) (w := s.atPc k ||| 2 ^ 8) (s.coach_wrapAdd _ k 0 1 k)
    (s.fld_setFld_idx k 0 k 0 _ (by decide)) hclose
  rw [hsel] at hclosed
  have hending : ((s.atEnd k).coach k).ending = true := by rw [State.atEnd, State.coach_updCoach_same]
  rw [State.settleEnd_atEnd_busy hbusy]
  refine ⟨hending, Bool.eq_false_iff.2 (fun h => ?_), hclosed.of_eq ?_ rfl, .atEnd s hk⟩
  · simp [State.issuing_iff, hending] at h
  · rw [State.atEnd, State.coach_updCoach_same]

/-- Settles O16, by the three rows of the statement: an operation that ends, END with nothing left, and END that waits. -/
theorem operationsEndWithTheirRecord : Obligations.OperationsEndWithTheirRecord := by
  unfold Obligations.OperationsEndWithTheirRecord
  refine ⟨fun k s o rest a n hops hstill hready hsel ha hn hfit => ?_, fun k s hi hop hb hf ho => ?_, fun k s hi hop hb hbusy => ?_⟩
  · subst ha hn
    have hk : k.val < 2048 := k.isLt.trans (by decide)
    obtain ⟨hread, hbytes⟩ := s.bytes_opEnded hk hsel rest
    refine ⟨s.opEnded k o rest, ?_, hread, hbytes, ?_, ?_, fun hm hnan => ?_, CoachFrame.opEnded s hk hsel rest⟩
    · change execOperationEnd k s = _
      rw [execOperationEnd, hstill, State.endOperation_ready hops hready hfit]
      rfl
    · rw [State.opEnded, State.fld_settleEnd _ k k o.statSel (by decide) (by decide), State.sp_trapIf, State.sp_recordTaken]
    · rw [State.opEnded, State.ops_settleEnd, State.ops_trapIf, State.ops_recordTaken]
    · exact s.trap_opEnded k (by simpa [opTraps, hm] using hnan) rest
  · exact ⟨_, exec_endWorkOrder hi hop hb, endWorkOrder_idle (k.isLt.trans (by decide)) hi hf ho⟩
  · exact ⟨_, exec_endWorkOrder hi hop hb, endWorkOrder_waits (k.isLt.trans (by decide)) hbusy⟩

end Sys2Proof.Machine
end

section
/-! Bit fields, two's complement, and the short and the long form of a tally (R122 to R127): settles O27. -/

namespace Sys2Proof.Machine

/-! ### Bit fields -/

/-- A field above the lowest `k` bits is a field of what stands there. -/
theorem bitsOf_mul_add_high {k b : Nat} (hb : b < 2 ^ k) (a j w : Nat) : bitsOf (a * 2 ^ k + b) (k + j) w = bitsOf a j w := by
  have hdiv : (a * 2 ^ k + b) / 2 ^ k = a := by
    rw [Nat.mul_comm, Nat.mul_add_div (Nat.two_pow_pos k), Nat.div_eq_of_lt hb, Nat.add_zero]
  rw [bitsOf, bitsOf, Nat.shiftRight_add, Nat.shiftRight_eq_div_pow _ k, hdiv]

/-- A field is below every power of two from its width on. -/
theorem bitsOf_lt {w n : Nat} (h : w ≤ n) (x lo : Nat) : bitsOf x lo w < 2 ^ n :=
  (Nat.mod_lt _ (Nat.two_pow_pos w)).trans_le (Nat.pow_le_pow_right (by decide) h)

/-- The lowest field of a number that it does not cut is the number itself. -/
theorem bitsOf_eq_self {x w : Nat} (h : x < 2 ^ w) : bitsOf x 0 w = x := Nat.mod_eq_of_lt h

/-- A field below bit `k` is a field of what stands there. -/
theorem bitsOf_mul_add_low {k b lo w : Nat} (hb : b < 2 ^ k) (h : lo + w ≤ k) (a : Nat) : bitsOf (a * 2 ^ k + b) lo w = bitsOf b lo w := by
  refine Nat.eq_of_testBit_eq (fun i => ?_)
  simp only [bitsOf, Nat.testBit_mod_two_pow, Nat.testBit_shiftRight, Nat.mul_comm a, Nat.testBit_two_pow_mul_add a hb]
  by_cases hi : i < w
  · rw [if_pos (by omega)]
  · simp [hi]

/-- Two fields that lie back to back are one field. -/
theorem bitsOf_append (x m n : Nat) : bitsOf x 0 m + bitsOf x m n * 2 ^ m = bitsOf x 0 (m + n) := by
  rw [bitsOf, bitsOf, bitsOf, Nat.shiftRight_zero, Nat.shiftRight_eq_div_pow, Nat.pow_add, Nat.mod_mul, Nat.mul_comm]

/-- A bit is below 2. -/
theorem b2n_lt (b : Bool) : b2n b < 2 := by cases b <;> decide

/-- A one-bit field holds the bit written to it. -/
theorem b2n_beq_one (b : Bool) : (b2n b == 1) = b := by cases b <;> rfl

/-! ### Two's complement -/

/-- A number's two's-complement form has the bits of its width. -/
theorem ofSigned_lt (w : Nat) (x : Int) : ofSigned w x < 2 ^ w :=
  (Int.toNat_lt (Int.emod_nonneg x (by positivity))).2 (Int.emod_lt_of_pos x (by positivity))

/-- A number within the range of a width is what its two's-complement form reads as. -/
theorem toSigned_ofSigned {w : Nat} {x : Int} (hlo : -(2 ^ w : Int) ≤ x) (hhi : x < 2 ^ w) : toSigned (w + 1) (ofSigned (w + 1) x) = x := by
  obtain ⟨p, hp⟩ : ∃ p : Nat, 2 ^ w = p := ⟨_, rfl⟩
  have hpow : 2 ^ (w + 1) = 2 * p := by rw [Nat.pow_succ, hp, Nat.mul_comm]
  have hp' : (2 ^ w : Int) = p := by rw [← hp]; push_cast; rfl
  rw [hp'] at hlo hhi
  simp only [toSigned, ofSigned, hpow]
  by_cases hx : 0 ≤ x
  · rw [Int.emod_eq_of_lt hx (by push_cast; omega), Nat.mod_eq_of_lt (by omega), if_pos (by omega)]
    omega
  · have hmod : x % ((2 * p : Nat) : Int) = x + ((2 * p : Nat) : Int) := by
      rw [← Int.add_emod_right, Int.emod_eq_of_lt] <;> push_cast <;> omega
    rw [hmod, Nat.mod_eq_of_lt (by omega), if_neg (by omega)]
    omega

/-! ### The window of a short tally (R124) -/

/-- h bounds the accumulator on both sides. -/
theorem tallyH_bounds (a : Int) : -((2 ^ tallyH a : Nat) : Int) ≤ a ∧ a < ((2 ^ tallyH a : Nat) : Int) := by
  have hlog : ∀ n : Nat, n < 2 ^ (n.log2 + 1) := fun n => Nat.lt_log2_self
  unfold tallyH
  split
  · next h0 =>
    split
    · next hz => rw [beq_iff_eq.1 hz]; decide
    · have := hlog a.natAbs
      omega
  · next h0 =>
    simp only
    split
    · next hb =>
      have := beq_iff_eq.1 hb
      simp only [Nat.pow_zero]
      omega
    · have := hlog (-a - 1).natAbs
      omega

/-- h is no more than the width of the range. -/
theorem tallyH_le {a : Int} {n : Nat} (hlo : -(2 ^ n : Int) ≤ a) (hhi : a < (2 ^ n : Int)) : tallyH a ≤ n := by
  have hlog : ∀ b : Nat, b ≠ 0 → (b : Int) < 2 ^ n → b.log2 + 1 ≤ n := fun b hb h =>
    (Nat.log2_lt hb).2 (by exact_mod_cast h)
  unfold tallyH
  split
  · next h0 =>
    split
    · exact Nat.zero_le n
    · next hz => exact hlog _ (by simpa using hz) (by omega)
  · next h0 =>
    simp only
    split
    · exact Nat.zero_le n
    · next hb => exact hlog _ (by simpa using hb) (by omega)

/-- The window of an accumulator's short tally lies within its 576 bits. -/
theorem tallyW_le {a : Int} (hlo : -(2 ^ 575 : Int) ≤ a) (hhi : a < (2 ^ 575 : Int)) : tallyW a ≤ 464 :=
  Nat.sub_le_of_le_add (tallyH_le hlo hhi)

/-- What a short tally's window holds of the accumulator lies within 112 bits. -/
theorem window_bounds (a : Int) : -(2 ^ 111 : Int) ≤ a / ((2 ^ tallyW a : Nat) : Int) ∧ a / ((2 ^ tallyW a : Nat) : Int) < (2 ^ 111 : Int) := by
  obtain ⟨hlo, hhi⟩ := tallyH_bounds a
  have hle : ((2 ^ tallyH a : Nat) : Int) ≤ (2 ^ 111 : Int) * ((2 ^ tallyW a : Nat) : Int) := by
    have h : 2 ^ tallyH a ≤ 2 ^ (111 + tallyW a) := Nat.pow_le_pow_right (by decide) (by unfold tallyW; omega)
    rw [Nat.pow_add] at h
    exact_mod_cast h
  have hpos : (0 : Int) < ((2 ^ tallyW a : Nat) : Int) := by positivity
  exact ⟨Int.le_ediv_of_mul_le hpos (by linarith), Int.ediv_lt_of_lt_mul hpos (by linarith)⟩

/-! ### A tally's first word (Table 3.4) -/

/-- The first word of a tally: its window field, its flags and what stands in the low 112 bits. -/
def tallyHead (p : Nat) (a : Acc) (m : Nat) : Nat := p * 2 ^ 118 + a.flagBits * 2 ^ 112 + m

/-- A tally's flags take four bits. -/
theorem Acc.flagBits_lt (a : Acc) : a.flagBits < 2 ^ 4 := by
  have hn := b2n_lt a.nan
  have hp := b2n_lt a.pinf
  have hi := b2n_lt a.ninf
  have ho := b2n_lt a.ovf
  unfold Acc.flagBits
  omega

/-- Each flag is a bit of the four. -/
theorem Acc.bitsOf_flagBits (a : Acc) :
    bitsOf a.flagBits 0 1 = b2n a.nan ∧ bitsOf a.flagBits 1 1 = b2n a.pinf ∧ bitsOf a.flagBits 2 1 = b2n a.ninf ∧ bitsOf a.flagBits 3 1 = b2n a.ovf := by
  have hn := b2n_lt a.nan
  have hp := b2n_lt a.pinf
  have hi := b2n_lt a.ninf
  have ho := b2n_lt a.ovf
  simp only [bitsOf, Nat.shiftRight_eq_div_pow, Acc.flagBits]
  omega

/-- The fields of a tally's first word above its low 112 bits. -/
theorem tallyHead_eq (p : Nat) (a : Acc) (m : Nat) : tallyHead p a m = (p * 2 ^ 6 + a.flagBits) * 2 ^ 112 + m := by
  rw [tallyHead]; ring

/-- The window field of a tally's first word. -/
theorem bitsOf_tallyHead_window {p m : Nat} (a : Acc) (hp : p < 2 ^ 10) (hm : m < 2 ^ 112) : bitsOf (tallyHead p a m) 118 10 = p := by
  rw [tallyHead_eq, bitsOf_mul_add_high (k := 112) (j := 6) hm, bitsOf_mul_add_high (k := 6) (j := 0) (a.flagBits_lt.trans (by decide)), bitsOf_eq_self hp]

/-- The low bits of a tally's first word. -/
theorem bitsOf_tallyHead_low {p m : Nat} (a : Acc) (hm : m < 2 ^ 112) : bitsOf (tallyHead p a m) 0 112 = m := by
  rw [tallyHead_eq, bitsOf_mul_add_low hm (by decide), bitsOf_eq_self hm]

/-- The flags read from a tally's first word are those it was made from. -/
theorem accOfFlags_tallyHead {p m : Nat} (a : Acc) (hm : m < 2 ^ 112) (x : Int) : accOfFlags 0 (tallyHead p a m) x = { a with v := x } := by
  have hbit : ∀ j, j < 4 → bitsOf (tallyHead p a m) (112 + j) 1 = bitsOf a.flagBits j 1 := fun j hj => by
    rw [tallyHead_eq, bitsOf_mul_add_high hm]
    simp only [bitsOf, Nat.shiftRight_eq_div_pow]
    interval_cases j <;> omega
  obtain ⟨hn, hp, hi, ho⟩ := a.bitsOf_flagBits
  have h0 : bitsOf (tallyHead p a m) 112 1 = b2n a.nan := (hbit 0 (by decide)).trans hn
  have h1 : bitsOf (tallyHead p a m) 113 1 = b2n a.pinf := (hbit 1 (by decide)).trans hp
  have h2 : bitsOf (tallyHead p a m) 114 1 = b2n a.ninf := (hbit 2 (by decide)).trans hi
  have h3 : bitsOf (tallyHead p a m) 115 1 = b2n a.ovf := (hbit 3 (by decide)).trans ho
  simp [accOfFlags, h0, h1, h2, h3, b2n_beq_one]

/-! ### The two forms -/

/-- The short tally of an accumulator that fits one reads as the accumulator (R123, R124). -/
theorem readShort_shortTally {a : Acc} (hlo : -(2 ^ 575 : Int) ≤ a.v) (hhi : a.v < (2 ^ 575 : Int)) (hfit : fitsShort a.v = true) :
    readShort (shortTally a) = a := by
  obtain ⟨hl, hh⟩ := window_bounds a.v
  have hm := ofSigned_lt 112 (a.v / ((2 ^ tallyW a.v : Nat) : Int))
  have hw : tallyW a.v < 2 ^ 10 := (tallyW_le hlo hhi).trans_lt (by decide)
  have hdvd : ((2 ^ tallyW a.v : Nat) : Int) ∣ a.v := Int.dvd_of_emod_eq_zero (beq_iff_eq.1 hfit)
  change readShort (tallyHead (tallyW a.v) a _) = a
  rw [readShort, bitsOf_tallyHead_low a hm, bitsOf_tallyHead_window a hw hm, toSigned_ofSigned hl hh, Int.ediv_mul_cancel hdvd, accOfFlags_tallyHead a hm]

/-- A short tally carries no mark of the long form (R127). -/
theorem isLongMark_shortTally {a : Acc} (hlo : -(2 ^ 575 : Int) ≤ a.v) (hhi : a.v < (2 ^ 575 : Int)) : isLongMark (shortTally a) = false := by
  have hw := tallyW_le hlo hhi
  change isLongMark (tallyHead (tallyW a.v) a _) = false
  rw [isLongMark, bitsOf_tallyHead_window a (hw.trans_lt (by decide)) (ofSigned_lt 112 _), beq_eq_false_iff_ne]
  omega

/-- The five words of a long tally hold the 576 bits of the accumulator. -/
theorem longTally_bits {x : Nat} (h : x < 2 ^ 576) :
    bitsOf x 0 128 + bitsOf x 128 128 * 2 ^ 128 + bitsOf x 256 128 * 2 ^ 256 + bitsOf x 384 128 * 2 ^ 384 + bitsOf x 512 64 * 2 ^ 512 = x := by
  rw [bitsOf_append x 128 128, bitsOf_append x 256 128, bitsOf_append x 384 128, bitsOf_append x 512 64]
  exact bitsOf_eq_self (w := 576) h

/-- The long tally of an accumulator reads as the accumulator (R126). -/
theorem readLong_longTally {a : Acc} (hlo : -(2 ^ 575 : Int) ≤ a.v) (hhi : a.v < (2 ^ 575 : Int)) : readLong (longTally a) = a := by
  have hm : bitsOf (ofSigned 576 a.v) 512 64 < 2 ^ 112 := bitsOf_lt (by decide) _ _
  have hlow : bitsOf (tallyHead 0x3FF a (bitsOf (ofSigned 576 a.v) 512 64)) 0 64 = bitsOf (ofSigned 576 a.v) 512 64 := by
    rw [tallyHead_eq, bitsOf_mul_add_low hm (by decide), bitsOf_eq_self (bitsOf_lt le_rfl _ _)]
  change accOfFlags 0 (tallyHead 0x3FF a (bitsOf (ofSigned 576 a.v) 512 64)) (toSigned 576
    (bitsOf (ofSigned 576 a.v) 0 128 + bitsOf (ofSigned 576 a.v) 128 128 * 2 ^ 128 + bitsOf (ofSigned 576 a.v) 256 128 * 2 ^ 256 +
      bitsOf (ofSigned 576 a.v) 384 128 * 2 ^ 384 + bitsOf (tallyHead 0x3FF a (bitsOf (ofSigned 576 a.v) 512 64)) 0 64 * 2 ^ 512)) = a
  rw [hlow, longTally_bits (ofSigned_lt 576 a.v), toSigned_ofSigned hlo hhi, accOfFlags_tallyHead a hm]

/-- A long tally carries its mark (R127). -/
theorem isLongMark_longTally (a : Acc) : isLongMark ((longTally a).getD 0 0) = true := by
  change isLongMark (tallyHead 0x3FF a _) = true
  rw [isLongMark, bitsOf_tallyHead_window a (by decide) (bitsOf_lt (by decide) _ _), beq_self_eq_true]

/-- Settles O27: each form is read back from the fields it was written to. -/
theorem talliesKeepValueAndFlags : Obligations.TalliesKeepValueAndFlags := by
  unfold Obligations.TalliesKeepValueAndFlags
  intro a hlo hhi
  refine ⟨fun hfit => ⟨readShort_shortTally hlo hhi hfit, isLongMark_shortTally hlo hhi, if_pos hfit⟩, readLong_longTally hlo hhi, isLongMark_longTally a⟩

end Sys2Proof.Machine
end

section
/-! SUPPORT. Laws of the operations of a coach and of counts and tiles (R87 to R91, R184 to R187). -/

namespace Sys2Proof.Machine

/-! ### Changes of a coach's operations -/

/-- Fewer fields change where more may. -/
theorem SameFields.mono {L M : List (Fld × Nat × Nat)} {s t : State} (a : SameFields L s t) (h : L ⊆ M) : SameFields M s t :=
  fun f hf u i hu hn => a f hf u i hu (fun hm => hn (h hm))

/-- Nothing changes but the register fields listed and the operations of coach `k`. -/
def OpsFrame (k : Nat) (L : List (Fld × Nat × Nat)) (s t : State) : Prop :=
  OnlyCoach k L s t ∧ t.coach k = { s.coach k with ops := (t.coach k).ops }

/-- Nothing changes. -/
theorem OpsFrame.refl (k : Nat) (L : List (Fld × Nat × Nat)) (s : State) : OpsFrame k L s s := ⟨.refl k L s, rfl⟩

/-- The vector registers stay. -/
theorem OpsFrame.vreg {k : Nat} {L : List (Fld × Nat × Nat)} {s t : State} (a : OpsFrame k L s t) : t.vreg = s.vreg := by rw [a.1.1]

/-- One step after another. -/
theorem OpsFrame.trans {k : Nat} {L : List (Fld × Nat × Nat)} {s t u : State} (a : OpsFrame k L s t) (b : OpsFrame k L t u) : OpsFrame k L s u := by
  obtain ⟨ha, hca⟩ := a
  obtain ⟨hb, hcb⟩ := b
  refine ⟨ha.trans hb, hcb.trans ?_⟩
  rw [hca]

/-- A step made or not. -/
theorem OpsFrame.ite {k : Nat} {L : List (Fld × Nat × Nat)} {s t u : State} {c : Prop} [Decidable c] (a : c → OpsFrame k L s t)
    (b : ¬ c → OpsFrame k L s u) : OpsFrame k L s (if c then t else u) := by
  split
  · next h => exact a h
  · next h => exact b h

/-- A write of a listed field. -/
theorem OpsFrame.setFld {L : List (Fld × Nat × Nat)} (s : State) (k : Nat) {g : Fld} {w j : Nat} (v : Nat) (hg : g ∈ fldTable) (hw : w < 2048)
    (h : (g, w, j) ∈ L) : OpsFrame k L s (s.setFld g w j v) := ⟨.setFld s k v hg hw h, rfl⟩

/-- A change of an operation. -/
theorem OpsFrame.updOp {L : List (Fld × Nat × Nat)} (s : State) (k : Nat) (seq : Option Nat) (f : Opn → Opn) : OpsFrame k L s (s.updOp k seq f) := by
  cases seq with
  | none => exact .refl k L s
  | some q => exact ⟨.updOp s k q f, by simp⟩

/-- CLOSE changes the operations and COA_SEQ. -/
theorem OpsFrame.closeFor {L : List (Fld × Nat × Nat)} (s : State) {k : Nat} (hk : k < 2048) (hL : (COA_SEQ_SEQ, k, 0) ∈ L) (id pc sel : Nat) (done : Bool) :
    OpsFrame k L s (s.closeFor k id pc sel done) := by
  cases h : (s.coach k).openOp with
  | none => rw [State.closeFor_none h]; exact .refl k L s
  | some o =>
    rw [State.closeFor_some h]
    exact (OpsFrame.updOp s k o.seq _).trans (.setFld _ k _ (by decide +kernel) hk hL)

/-- What holds of no more listed fields than `L` lists holds with `L`. -/
theorem OpsFrame.mono {k : Nat} {L M : List (Fld × Nat × Nat)} {s t : State} (a : OpsFrame k L s t) (h : L ⊆ M) : OpsFrame k M s t := by
  obtain ⟨⟨ht, hf, hc⟩, ho⟩ := a
  exact ⟨⟨ht, hf.mono h, hc⟩, ho⟩

/-- Fields that a count of saturated elements changes. -/
def satFlds (k : Nat) : List (Fld × Nat × Nat) := [(NUMSTAT_SATURATED, k, 0), (NUM_SATTOT_SATTOT, k, 0)]

/-- Fields that a count of flushed elements changes. -/
def flushFlds (k : Nat) : List (Fld × Nat × Nat) := [(NUMSTAT_FLUSHED, k, 0), (NUM_FLUSHTOT_FLUSHTOT, k, 0)]

/-- Fields that a count of NaN blocks changes. -/
def nanFlds (k : Nat) : List (Fld × Nat × Nat) := [(NUMSTAT_NANBLOCK, k, 0), (NUM_NANBLKTOT_NANBLKTOT, k, 0)]

/-- Counts change the operations, and the flag and the total of each kind that is counted (R87 to R90). -/
theorem OpsFrame.count {L : List (Fld × Nat × Nat)} (s : State) {k : Nat} (hk : k < 2048) (seq : Option Nat) {sat flush nan : Nat}
    (hs : sat ≠ 0 → satFlds k ⊆ L) (hf : flush ≠ 0 → flushFlds k ⊆ L) (hn : nan ≠ 0 → nanFlds k ⊆ L) :
    OpsFrame k L s (s.count k seq sat flush nan) := by
  have step : ∀ {n : Nat} {t u : State}, (n ≠ 0 → OpsFrame k L t u) → OpsFrame k L t (if n == 0 then t else u) := fun h =>
    .ite (fun _ => .refl k L _) (fun hn => h (by simpa using hn))
  refine (((OpsFrame.updOp s k seq _).trans (step fun h => ?_)).trans (step fun h => ?_)).trans (step fun h => ?_)
  · exact (OpsFrame.setFld _ k _ (by decide +kernel) hk (hs h (by simp [satFlds]))).trans
      (.setFld _ k _ (by decide +kernel) hk (hs h (by simp [satFlds])))
  · exact (OpsFrame.setFld _ k _ (by decide +kernel) hk (hf h (by simp [flushFlds]))).trans
      (.setFld _ k _ (by decide +kernel) hk (hf h (by simp [flushFlds])))
  · exact (OpsFrame.setFld _ k _ (by decide +kernel) hk (hn h (by simp [nanFlds]))).trans
      (.setFld _ k _ (by decide +kernel) hk (hn h (by simp [nanFlds])))

/-- A new output tile changes the operations and NUMSTAT.NANINF (R91). -/
theorem OpsFrame.addTile {L : List (Fld × Nat × Nat)} (s : State) {k : Nat} (hk : k < 2048) (hL : (NUMSTAT_NANINF, k, 0) ∈ L) (seq : Option Nat)
    (t : TileRec) : OpsFrame k L s (s.addTile k seq t) :=
  (OpsFrame.updOp s k seq _).trans (.ite (fun _ => .setFld _ k _ (by decide +kernel) hk hL) (fun _ => .refl k L _))

end Sys2Proof.Machine
end

section
/-! SUPPORT. Laws of the vector registers, and of the issue and the start of a live vector instruction (R178, R184 to R187, R216, R219, R220). -/

namespace Sys2Proof.Machine

/-! ### Vector registers (R216) -/

/-- A register name gives one of the 64 registers. -/
theorem physReg_lt {rrb name : Nat} (h : name < 64) : physReg rrb name < 64 := by
  unfold physReg
  split <;> omega

/-- All lanes of a register just written. -/
theorem State.lanes_setLanes (s : State) (k r : Nat) {vs : List Nat} (h : vs.length = 512) :
    (s.setLanes k r 0 vs).lanes k r = vs.map (· % 2 ^ 32) := by
  refine List.ext_getElem (by simp [State.lanes, h]) (fun i hi _ => ?_)
  have hi' : i < 512 := by simpa [State.lanes] using hi
  simp [State.lanes, State.setLanes, mslice_eq, mget_mblock, h, hi']

/-- A write of a register leaves every other lane alone. -/
theorem lanesBut_setLanes (s : State) {k r : Nat} {regs : List Nat} (hr : r < 64) (hm : r ∈ regs) {vs : List Nat} (h : vs.length = 512) :
    LanesBut k regs s (s.setLanes k r 0 vs) := by
  intro j r' i hr' hi hne
  have hkey : j ≠ k ∨ r' ≠ r := hne.imp_right (fun hn e => hn (e ▸ hm))
  refine (mget_mblock 0 s.vreg _ _ _).trans (if_neg ?_)
  rw [List.length_map, h]
  omega

/-- Nothing changes but the register fields listed, the operations of coach `k` and the lanes of its registers `regs`. -/
def VecKeeps (k : Nat) (regs : List Nat) (L : List (Fld × Nat × Nat)) (s t : State) : Prop :=
  OpsFrame k L { s with vreg := t.vreg } t ∧ LanesBut k regs s t

/-- Changes that leave the vector registers alone. -/
theorem OpsFrame.vecKeeps {k : Nat} {L : List (Fld × Nat × Nat)} {s t : State} (a : OpsFrame k L s t) (regs : List Nat) : VecKeeps k regs L s t := by
  obtain ⟨⟨ht, hf, hc⟩, ho⟩ := a
  have hv : t.vreg = s.vreg := by rw [ht]
  refine ⟨⟨⟨?_, hf, hc⟩, ho⟩, fun j r i _ _ _ => by rw [State.lane, hv, State.lane]⟩
  rw [hv]
  exact ht

/-- One step after another. -/
theorem VecKeeps.trans {k : Nat} {regs : List Nat} {L : List (Fld × Nat × Nat)} {s t u : State} (a : VecKeeps k regs L s t) (b : VecKeeps k regs L t u) :
    VecKeeps k regs L s u := by
  obtain ⟨⟨⟨ha, hfa, hca⟩, hoa⟩, hla⟩ := a
  obtain ⟨⟨⟨hb, hfb, hcb⟩, hob⟩, hlb⟩ := b
  refine ⟨⟨⟨hb.trans ?_, fun f hf v i hv hn => (hfb f hf v i hv hn).trans (hfa f hf v i hv hn), fun j hj => (hcb j hj).trans (hca j hj)⟩, hob.trans ?_⟩,
    fun j r i hr hi hn => (hlb j r i hr hi hn).trans (hla j r i hr hi hn)⟩
  · rw [ha]
  · change { t.coach k with ops := (u.coach k).ops } = _
    rw [hoa]
    rfl

/-- A register of the listed ones is written. -/
theorem VecKeeps.setLanes {L : List (Fld × Nat × Nat)} (s : State) {k r : Nat} {regs : List Nat} (hr : r < 64) (hm : r ∈ regs) {vs : List Nat}
    (h : vs.length = 512) : VecKeeps k regs L s (s.setLanes k r 0 vs) := ⟨.refl k L _, lanesBut_setLanes s hr hm h⟩

/-! ### Issue of a live vector instruction -/

/-- What changes neither of the two fields it goes by leaves the coach clock running or still. -/
theorem OnlyCoach.coachStill {k : Nat} {L : List (Fld × Nat × Nat)} {s t : State} (a : OnlyCoach k L s t)
    (hL : ∀ x ∈ L, x.1 ≠ PWR_STATUS_PROFBUSY ∧ x.1 ≠ CLK_COACHF_MHZ) : t.coachStill = s.coachStill := by
  obtain ⟨ht, hf, -⟩ := a
  have hbusy : t.fld PWR_STATUS_PROFBUSY 0 = s.fld PWR_STATUS_PROFBUSY 0 :=
    hf _ (by decide +kernel) 0 0 (by decide) (fun h => (hL _ h).1 rfl)
  have hmhz : t.fld CLK_COACHF_MHZ 0 = s.fld CLK_COACHF_MHZ 0 := hf _ (by decide +kernel) 0 0 (by decide) (fun h => (hL _ h).2 rfl)
  have hpm : t.pm = s.pm := by rw [ht]
  simp only [State.coachStill, State.flag, hpm, hbusy, hmhz]

/-- The one operation of a coach, which a counting instruction joins: open, not failed, and of mode `md`. -/
def Joined (k : Nat) (md : NumMode) (o : Opn) (s : State) : Prop :=
  (s.coach k).ops = [o] ∧ o.closed = false ∧ o.failed = false ∧ o.mode = md

/-- A live counting instruction joins the one open operation, or opens one under NUMCTL (R184, R185). -/
theorem State.openFor_joined {s : State} {k : Nat} {md : NumMode} (h : WorksUnder k md s) {w : Nat} (hw : counting (opOf w) = true) :
    ∃ o, Joined k md o (s.openFor k w true) ∧ OpsFrame k [] s (s.openFor k w true) := by
  rcases h with ⟨hops, rfl⟩ | ⟨o, hops, hopen, hfail, rfl⟩
  · have hopened : s.openFor k w true = s.updCoach k (fun c => { c with ops := c.ops ++ [{ seq := s.fld COA_SEQ_SEQ k, mode := s.numMode k }] }) := by
      simp [State.openFor, hw, CoachS.openOp, hops]
    rw [hopened]
    exact ⟨{ seq := s.fld COA_SEQ_SEQ k, mode := s.numMode k }, ⟨by simp [hops], rfl, rfl, rfl⟩, .updCoach s k _, by simp⟩
  · have hopened : s.openFor k w true = s := by simp [State.openFor, CoachS.openOp, hops, hopen]
    rw [hopened]
    exact ⟨o, ⟨hops, hopen, hfail, rfl⟩, .refl k [] s⟩

/-- The operation that a coach with one open operation has open. -/
theorem Joined.openOp {k : Nat} {md : NumMode} {o : Opn} {s : State} (h : Joined k md o s) : (s.coach k).openOp = some o := by
  obtain ⟨hops, hopen, -, -⟩ := h
  simp [CoachS.openOp, hops, hopen]

/-- CLOSE of the instruction that issues, where it has it. -/
def State.closeIf (s : State) (k : Nat) (close : Bool) (id pc sel : Nat) : State := if close then s.closeFor k id pc sel false else s

/-- CLOSE changes the operations and COA_SEQ alone. -/
theorem OpsFrame.closeIf (s : State) {k : Nat} (hk : k < 2048) (close : Bool) (id pc sel : Nat) :
    OpsFrame k [(COA_SEQ_SEQ, k, 0)] s (s.closeIf k close id pc sel) :=
  .ite (fun _ => .closeFor s hk (by simp) _ _ _ _) (fun _ => .refl k _ s)

/-- CLOSE leaves the mode that the operation's instructions work under, and that no spill has failed it. -/
theorem Joined.closeIf {k : Nat} {md : NumMode} {o : Opn} {s : State} (h : Joined k md o s) (close : Bool) (id pc sel : Nat) :
    ∃ p, findOp ((s.closeIf k close id pc sel).coach k).ops o.seq = some p ∧ p.mode = md ∧ p.failed = false := by
  have hopen := h.openOp
  obtain ⟨hops, -, hfail, hmode⟩ := h
  cases close with
  | false => exact ⟨o, by simp [State.closeIf, findOp, hops], hmode, hfail⟩
  | true => exact ⟨o.closing id pc sel false, by simp [State.closeIf, findOp, State.closeFor_some hopen, mapOp, hops, Opn.closing], hmode, hfail⟩

/-- State `q` is `s` after the issue of the live vector instruction at COA_PC, and `i` is the instruction, alone in flight and not yet started. -/
structure VecIssued (k : Nat) (md : NumMode) (s q : State) (i : Inf) : Prop where
  only : OnlyCoach k [(COA_PC_PC, k, 0), (COA_ISSUED_ISSUED, k, 0), (COA_SEQ_SEQ, k, 0)] s q
  passed : PassedOn k s q
  coach : q.coach k = { s.coach k with flight := [i], nextId := (s.coach k).nextId + 1, ops := (q.coach k).ops }
  mode : q.modeOf k i.opn = md
  failed : q.opFailed k i.opn = false
  word : i.w = s.atPc k
  live : i.live = true
  started : i.started = false
  finished : i.finished = false

/-- The instruction at COA_PC as it enters its unit's queue: it belongs to operation `o`. -/
def State.entrant (s : State) (k : Nat) (o : Opn) : Inf :=
  { id := (s.coach k).nextId, w := s.atPc k, pc := s.fld COA_PC_PC k, opn := some o.seq, wset := s.fld ARR_WSTATE_ACTIVE k }

/-- The instruction at COA_PC stands in its queue. -/
def State.queued (s : State) (k : Nat) (o : Opn) : State :=
  (s.openFor k (s.atPc k) true).setCoach k
    { (s.openFor k (s.atPc k) true).coach k with flight := [s.entrant k o], nextId := (s.coach k).nextId + 1 }

/-- The instruction at COA_PC has issued: it stands in its queue, CLOSE has closed its operation, and COA_PC has passed it. -/
def State.issued (s : State) (k : Nat) (o : Opn) : State :=
  (((s.queued k o).closeIf k (iClose (s.atPc k)) (s.coach k).nextId (s.fld COA_PC_PC k) (iStatSel (s.atPc k))).wrapAdd COA_ISSUED_ISSUED k 0 1).setFld
    COA_PC_PC k 0 (s.fld COA_PC_PC k + 1)

/-- What enters the queue of a coach that had nothing in flight. -/
theorem State.coach_queued {s : State} {k : Nat} {md : NumMode} {o : Opn} (ho : Joined k md o (s.openFor k (s.atPc k) true))
    (hs : OpsFrame k [] s (s.openFor k (s.atPc k) true)) : Joined k md o (s.queued k o) ∧ OnlyCoach k [] s (s.queued k o) ∧
      (s.queued k o).coach k = { s.coach k with flight := [s.entrant k o], nextId := (s.coach k).nextId + 1, ops := ((s.queued k o).coach k).ops } := by
  obtain ⟨hops, hrest⟩ := ho
  obtain ⟨honly, hcoach⟩ := hs
  refine ⟨⟨by rw [State.queued, State.coach_setCoach_same]; exact hops, hrest⟩, honly.trans (.setCoach _ k _), ?_⟩
  rw [State.queued, State.coach_setCoach_same, hcoach]

/-- A live counting vector instruction with nothing in flight issues, stands alone in its queue, and is tried at once (log 15). -/
theorem State.issueTo_vector {k op : Nat} {md : NumMode} {s : State} (h : VecReady k op md s) (hc : counting op = true) (hu : unitOf op = some .vector)
    {o : Opn} (ho : Joined k md o (s.openFor k (s.atPc k) true)) (hs : OpsFrame k [] s (s.openFor k (s.atPc k) true)) :
    s.issueTo k op .vector = (s.issued k o).tryStart k .vector := by
  obtain ⟨⟨hi, hop, hb, hpc⟩, hf, -, hlive⟩ := h
  obtain ⟨-, hcoach⟩ := hs
  have hroom : QueueRoom k op s := fun u _ => by
    rw [hf]
    cases u <;> decide
  have hact : (s.openFor k (s.atPc k) true).fld ARR_WSTATE_ACTIVE k = s.fld ARR_WSTATE_ACTIVE k := by
    unfold State.openFor
    split <;> rfl
  have h1 : op ≠ 1 := by rintro rfl; cases hu
  have h2 : op ≠ 2 := by rintro rfl; cases hu
  have hloop : s.loopAhead k = s.loopSt k := by simp [State.loopAhead, hf]
  have hadv : s.fld COA_PC_PC k ≠ 1023 := by omega
  have hflight : ((s.openFor k (s.atPc k) true).coach k).flight = [] := by rw [hcoach]; exact hf
  have hid : ((s.openFor k (s.atPc k) true).coach k).nextId = (s.coach k).nextId := by rw [hcoach]
  rw [State.issueTo, State.issueOp_issues hi hop hroom hb]
  simp [State.issueUnit, State.issued, State.queued, State.entrant, State.closeIf, State.advance, hloop, hlive, hop, hc, h1, h2, hadv, hact, ho.openOp, hflight, hid]

/-- What the issue of a live vector instruction leaves. -/
theorem vecIssued_issued {k : Coach} {op : Nat} {md : NumMode} {s : State} (h : VecReady k op md s) {o : Opn}
    (ho : Joined k md o (s.openFor k (s.atPc k) true)) (hs : OpsFrame k [] s (s.openFor k (s.atPc k) true)) :
    VecIssued k md s (s.issued k o) (s.entrant k o) := by
  have hk : k.val < 2048 := k.isLt.trans (by decide)
  obtain ⟨⟨-, -, -, hpc⟩, -, -, -⟩ := h
  obtain ⟨hjoined, ⟨hq, hqf, hqc⟩, hcoach⟩ := State.coach_queued ho hs
  have hclose := OpsFrame.closeIf (s.queued k o) hk (iClose (s.atPc k)) (s.coach k).nextId (s.fld COA_PC_PC k) (iStatSel (s.atPc k))
  obtain ⟨p, hp, hmode, hfail⟩ := hjoined.closeIf (iClose (s.atPc k)) (s.coach k).nextId (s.fld COA_PC_PC k) (iStatSel (s.atPc k))
  obtain ⟨⟨-, hclosef, -⟩, -⟩ := id hclose
  set u := (s.queued k o).closeIf k (iClose (s.atPc k)) (s.coach k).nextId (s.fld COA_PC_PC k) (iStatSel (s.atPc k))
  have hstep : OpsFrame k [(COA_PC_PC, k.val, 0), (COA_ISSUED_ISSUED, k.val, 0), (COA_SEQ_SEQ, k.val, 0)] (s.queued k o) (s.issued k o) :=
    ((hclose.mono (by simp)).trans (.setFld u k _ (by decide +kernel) hk (by simp))).trans (.setFld _ k _ (by decide +kernel) hk (by simp))
  have hissued : u.fld COA_ISSUED_ISSUED k = s.fld COA_ISSUED_ISSUED k := by
    rw [hclosef _ (by decide +kernel) k 0 hk (by simp; decide), hqf _ (by decide +kernel) k 0 hk List.not_mem_nil]
  refine ⟨OnlyCoach.trans ⟨hq, fun f hf v i hv _ => hqf f hf v i hv List.not_mem_nil, hqc⟩ hstep.1, ⟨?_, ?_⟩, ?_,
    ?_, ?_, rfl, rfl, rfl, rfl⟩
  · exact (State.fld_setFld_same _ COA_PC_PC k 0 _).trans (Nat.mod_eq_of_lt (Nat.succ_lt_succ hpc))
  · refine (State.fld_setFld_idx _ k 0 k 0 _ (by decide)).trans ((u.fld_setFld_same COA_ISSUED_ISSUED k 0 _).trans ?_)
    rw [hissued]
    rfl
  · refine hstep.2.trans ?_
    rw [hcoach]
  · change (match findOp (u.coach k).ops o.seq with | some o => o.mode | none => _) = md
    rw [hp]
    exact hmode
  · change (match findOp (u.coach k).ops o.seq with | some o => o.failed | none => false) = false
    rw [hp]
    exact hfail

/-- A vector instruction alone in flight may start (R219). -/
theorem VecIssued.tryStart {k : Nat} {op : Nat} {md : NumMode} {s q : State} {i : Inf} (h : VecIssued k md s q i) (hrun : s.coachStill = false)
    (hop : opOf (s.atPc k) = op) (hu : unitOf op = some .vector) : q.tryStart k .vector = q.startVector k i := by
  have hflight : (q.coach k).flight = [i] := by rw [h.coach]
  have hstill : q.coachStill = false := by
    rw [h.only.coachStill, hrun]
    simp
    decide
  have hopi : opOf i.w = op := by rw [h.word, hop]
  obtain ⟨n, hn⟩ : ∃ n, opOf i.w = n + 7 := by
    refine Nat.exists_eq_add_of_le' (Nat.le_of_not_lt (fun hlt => ?_))
    rw [← hopi] at hu
    interval_cases opOf i.w <;> cases hu
  have hnext : (q.coach k).nextOf .vector = some i := by simp [CoachS.nextOf, hflight, hopi, hu, h.started]
  have hcan : q.canStart k i = true := by simp [State.canStart, hflight, vecReady, hn]
  have hwork : q.startWork k i = q.startVector k i := by simp [State.startWork, hn]
  rw [State.tryStart, hnext]
  simp [hstill, hcan, State.startInf, hflight, hwork]

/-- Every vector instruction that is live, counts and is ready to issue issues and starts at once. -/
theorem exists_vecIssued {k : Coach} {op : Nat} {md : NumMode} {s : State} (h : VecReady k op md s) (hc : counting op = true)
    (hu : unitOf op = some .vector) : ∃ q i, VecIssued k md s q i ∧ s.issueTo k op .vector = q.startVector k i := by
  obtain ⟨⟨hi, hop, -, -⟩, -, hwork, -⟩ := id h
  obtain ⟨o, ho, hs⟩ := State.openFor_joined (w := s.atPc k) hwork (by rw [hop]; exact hc)
  have hissued := vecIssued_issued h ho hs
  obtain ⟨hstill, -⟩ := State.issuing_iff.1 hi
  exact ⟨s.issued k o, s.entrant k o, hissued, (State.issueTo_vector h hc hu ho hs).trans (hissued.tryStart hstill hop hu)⟩

/-! ### Start of a live vector instruction -/

/-- An instruction whose work left state `t` has started. -/
def State.vecStarted (t : State) (k : Nat) (i : Inf) (rrb : Nat) : State :=
  (t.wrapAdd VEC_BUSY_BUSY k 0 (vecOccupancy i.w)).updCoach k
    (fun c => c.mapInf i.id (fun j => { j with started := true, wregs := writesRegs rrb i.w, waccs := writesAccs i.w }))

/-- A live instruction of an operation that no spill has failed does its work (R219, R171). -/
theorem State.startVector_live {s : State} {k : Nat} {i : Inf} (hl : i.live = true) (hf : s.opFailed k i.opn = false) :
    s.startVector k i = (s.vecWork k i (s.fld VEC_LOOP_RRB k)).vecStarted k i (s.fld VEC_LOOP_RRB k) := by
  simp [State.startVector, State.vecStarted, hl, hf]

/-- Fields that a vector instruction's counts and tiles change. -/
def cntFlds (k : Nat) : List (Fld × Nat × Nat) := satFlds k ++ flushFlds k ++ nanFlds k ++ [(NUMSTAT_NANINF, k, 0)]

/-- Counts and tiles leave COA_PC and the count of issued instructions alone. -/
theorem cntFlds_ne {k : Nat} : ∀ x ∈ cntFlds k, x.1 ≠ COA_PC_PC ∧ x.1 ≠ COA_ISSUED_ISSUED := by
  simp only [cntFlds, satFlds, flushFlds, nanFlds, List.cons_append, List.nil_append, List.forall_mem_cons]
  refine ⟨?_, ?_, ?_, ?_, ?_, ?_, ?_, fun _ h => absurd h List.not_mem_nil⟩ <;> exact ⟨by decide, by decide⟩

/-- Counts and tiles change fields that any vector instruction can change. -/
theorem cntFlds_subset (k : Nat) : cntFlds k ⊆ vecFlds k := by
  intro x hx
  simp only [cntFlds, satFlds, flushFlds, nanFlds, vecFlds, List.cons_append, List.nil_append, List.mem_cons] at hx ⊢
  tauto

/-- The start changes the busy count and what is in flight alone. -/
theorem OnlyCoach.vecStarted (t : State) {k : Nat} (hk : k < 2048) (i : Inf) (rrb : Nat) : OnlyCoach k [(VEC_BUSY_BUSY, k, 0)] t (t.vecStarted k i rrb) :=
  (OnlyCoach.setFld t k _ (by decide +kernel) hk (by simp)).trans (.updCoach _ k _)

/-- What stays when a vector instruction has issued and its work has changed no more than its registers, its counts and the fields of `L`. -/
theorem VecIssued.vecFrame {k : Coach} {md : NumMode} {s q t : State} {i : Inf} {regs : List Nat} {L : List (Fld × Nat × Nat)} (h : VecIssued k md s q i)
    (ht : VecKeeps k regs (cntFlds k ++ L) q t) (hL : ∀ x ∈ L, x.1 ≠ COA_PC_PC ∧ x.1 ≠ COA_ISSUED_ISSUED) (rrb : Nat) :
    VecFrame k regs L s (t.vecStarted k i rrb) := by
  have hk : k.val < 2048 := k.isLt.trans (by decide)
  obtain ⟨⟨hqs, hqf, hqc⟩, ⟨hpc, hcnt⟩, hcoach, -, -, hword, -, -, hfin⟩ := h
  obtain ⟨⟨⟨hts, htf, htc⟩, hops⟩, hlanes⟩ := ht
  obtain ⟨hus, huf, huc⟩ := OnlyCoach.vecStarted t hk i rrb
  have hkeep : ∀ {f : Fld}, f ∈ fldTable → f = COA_PC_PC ∨ f = COA_ISSUED_ISSUED → (t.vecStarted k i rrb).fld f k = q.fld f k := fun {f} hf hor => by
    refine (t.fld_setFld_idx k 0 k 0 _ ?_).trans (htf f hf k 0 hk (fun hm => ?_))
    · rcases hor with rfl | rfl <;> decide
    · obtain ⟨hp, hi⟩ := (List.mem_append.1 hm).elim (cntFlds_ne _) (hL _)
      exact hor.elim hp hi
  have hq : (t.coach k) = { s.coach k with flight := [i], nextId := (s.coach k).nextId + 1, ops := (t.coach k).ops } := by
    refine hops.trans ?_
    change { q.coach k with ops := (t.coach k).ops } = _
    rw [hcoach]
  have hu : (t.vecStarted k i rrb).coach k = (t.coach k).mapInf i.id (fun j => { j with started := true, wregs := writesRegs rrb i.w, waccs := writesAccs i.w }) :=
    State.coach_updCoach_same _ k _
  have hvreg : q.vreg = s.vreg := by rw [hqs]
  refine ⟨⟨(hkeep (by decide +kernel) (.inl rfl)).trans hpc, (hkeep (by decide +kernel) (.inr rfl)).trans hcnt⟩, hus.trans ?_, ?_, fun j hj => ?_,
    fun j r x hr hx hn => ?_, ?_, { i with started := true, wregs := writesRegs rrb i.w, waccs := writesAccs i.w }, ?_, hword, rfl, hfin⟩
  · rw [show (t.vecStarted k i rrb).vreg = t.vreg from rfl]
    generalize (t.vecStarted k i rrb).fields = F, (t.vecStarted k i rrb).coaches = C
    rw [hts, hqs]
  · exact ((hqf.mono (by simp [vecFlds])).trans (SameFields.mono (L := cntFlds k ++ L) htf
      (fun x hx => (List.mem_append.1 hx).elim (fun h => List.mem_append_left _ (cntFlds_subset _ h)) (List.mem_append_right _)))).trans (huf.mono (by simp [vecFlds]))
  · exact (huc j hj).trans ((htc j hj).trans (hqc j hj))
  · refine (hlanes j r x hr hx hn).trans ?_
    rw [State.lane, hvreg, State.lane]
  · rw [hu, hq]
    simp [CoachS.mapInf]
  · rw [hu, hq]
    simp [CoachS.mapInf]

/-- A name of VD is below 64. -/
theorem iVd_lt (w : Nat) : iVd w < 64 := Nat.mod_lt _ (by decide)

/-- The work of an instruction of opcode `op`: the codes it leaves in VD, and that it changes nothing else but counts. -/
def WorkGives (op : Nat) (pair : Nat → Bool) (res : NumMode → Nat → State → Nat → List Nat) : Prop :=
  ∀ (k : Coach) (q : State) (i : Inf), opOf i.w = op →
    (q.vecWork k i (q.fld VEC_LOOP_RRB k)).kindCodes k (q.fld VEC_LOOP_RRB k) (iVd i.w) (pair i.w) =
      (res (q.modeOf k i.opn) k q i.w).map (· % 2 ^ (kindFmt (pair i.w)).width) ∧
    VecKeeps k (physRegs (q.fld VEC_LOOP_RRB k) (iVd i.w) (pair i.w)) (cntFlds k) q (q.vecWork k i (q.fld VEC_LOOP_RRB k))

/-- An instruction whose result depends on the state by its vector registers and the loop's rotation alone. -/
def ReadsLanes (res : NumMode → Nat → State → Nat → List Nat) : Prop :=
  ∀ (md : NumMode) (k : Nat) (s q : State) (w : Nat), q.vreg = s.vreg → q.fld VEC_LOOP_RRB k = s.fld VEC_LOOP_RRB k → res md k q w = res md k s w

/-- What the start leaves in the registers. -/
theorem State.kindCodes_vecStarted (t : State) (k : Nat) (i : Inf) (rrb r n : Nat) (p : Bool) :
    (t.vecStarted k i rrb).kindCodes k r n p = t.kindCodes k r n p := rfl

/-- A counting vector instruction writes VD as its work says, and nothing else. -/
theorem result_of_work {c : Coach → Instr} {op : Nat} {pair : Nat → Bool} {res : NumMode → Nat → State → Nat → List Nat}
    (hexec : ∀ k s, exec (c k) s = .next (s.issueTo k op .vector)) (hc : counting op = true) (hu : unitOf op = some .vector) (hres : ReadsLanes res)
    (hwork : WorkGives op pair res) : Result c op pair res := by
  intro k md s h
  obtain ⟨q, i, hq, hstart⟩ := exists_vecIssued h hc hu
  obtain ⟨⟨-, hop, -, -⟩, -⟩ := h
  obtain ⟨hqs, hqf, -⟩ := hq.only
  have hvreg : q.vreg = s.vreg := by rw [hqs]
  have hrrb : q.fld VEC_LOOP_RRB k = s.fld VEC_LOOP_RRB k :=
    hqf _ (by decide +kernel) k 0 (k.isLt.trans (by decide)) (by simp; decide)
  obtain ⟨hcodes, hkeeps⟩ := hwork k q i (by rw [hq.word, hop])
  rw [hres _ k s q _ hvreg hrrb, hq.mode, hq.word, hrrb] at hcodes
  rw [hq.word, hrrb] at hkeeps
  refine ⟨_, (hexec k s).trans (congrArg _ (hstart.trans (State.startVector_live hq.live hq.failed))), ?_, ?_⟩
  · rw [State.kindCodes_vecStarted, hrrb]
    exact hcodes
  · rw [hrrb]
    exact hq.vecFrame (L := []) (by rwa [List.append_nil]) (fun _ h => absurd h List.not_mem_nil) _

end Sys2Proof.Machine
end

section
/-! Special functions by lane: settles O18. -/

namespace Sys2Proof.Machine

/-! ### The lanes (R227) -/

/-- What a special function makes of a lane: the value it converts, the conversion, and the flushed codes counted. -/
def specialLane (md : NumMode) (fn c : Nat) : Val × Conv × Nat :=
  match specialFn fn (flushCode md .f32 c).1 (readCode md .f32 c).1 with
  | .val v => (v, convertVal md false .f32 v, (readCode md .f32 c).2)
  | .over neg => (Val.fin neg 1 1000, overflowFloat md .f32 neg, (readCode md .f32 c).2)

/-- The codes that a special function leaves in VD. -/
def State.specialCodes (s : State) (k : Nat) (i : Inf) (rrb fn : Nat) : List Nat :=
  ((s.lanes k (physReg rrb (iVa i.w))).map (specialLane (s.modeOf k i.opn) fn)).map (·.2.1.code)

/-- A special function writes its codes to VD, counts, and adds a tile. -/
theorem State.vecSpecial_eq (s : State) (k : Nat) (i : Inf) (rrb fn : Nat) : ∃ sat flush tile,
    s.vecSpecial k i rrb fn = ((s.putCodes k rrb (iVd i.w) false (s.specialCodes k i rrb fn)).count k i.opn sat flush 0).addTile k i.opn tile := by
  unfold State.vecSpecial State.specialCodes
  exact ⟨_, _, _, rfl⟩

/-- The code of a lane is the conversion of the function's result, or what an overflow writes. -/
theorem lanesSpecial_eq (fn : Nat) (md : NumMode) (k : Nat) (s : State) (w : Nat) :
    lanesSpecial fn md k s w = (s.lanes k (physReg (s.fld VEC_LOOP_RRB k) (iVa w))).map (fun c => (specialLane md fn c).2.1.code) := by
  refine List.map_congr_left (fun c _ => ?_)
  unfold specialLane
  cases specialFn fn (flushCode md .f32 c).1 (readCode md .f32 c).1 <;> rfl

/-- A special function reads no more of the state than its operand's lanes. -/
theorem readsLanes_special (fn : Nat) : ReadsLanes (lanesSpecial fn) := by
  intro md k s q w hv hr
  simp only [lanesSpecial, State.lanes, hv, hr]

/-- An F32 kind write of 512 codes to a name. -/
theorem State.putCodes_f32 (s : State) (k rrb name : Nat) (cs : List Nat) :
    s.putCodes k rrb name false cs = s.setLanes k (physReg rrb name) 0 (cs.map (· % 2 ^ 32)) := rfl

/-- The work of a special function. -/
theorem workGives_special {op fn : Nat} (h : ∀ (s : State) (k : Nat) (i : Inf) (rrb : Nat), opOf i.w = op → s.vecWork k i rrb = s.vecSpecial k i rrb fn) :
    WorkGives op (fun _ => false) (lanesSpecial fn) := by
  intro k q i hop
  have hk : k.val < 2048 := k.isLt.trans (by decide)
  obtain ⟨sat, flush, tile, heq⟩ := q.vecSpecial_eq k i (q.fld VEC_LOOP_RRB k) fn
  have hlen : ((q.specialCodes k i (q.fld VEC_LOOP_RRB k) fn).map (· % 2 ^ 32)).length = 512 := by simp [State.specialCodes, State.lanes]
  rw [h q k i _ hop, heq, State.putCodes_f32]
  set u := q.setLanes k (physReg (q.fld VEC_LOOP_RRB k) (iVd i.w)) 0 ((q.specialCodes k i (q.fld VEC_LOOP_RRB k) fn).map (· % 2 ^ 32)) with hu
  have hcnt : OpsFrame k (cntFlds k) u ((u.count k i.opn sat flush 0).addTile k i.opn tile) :=
    (OpsFrame.count u hk i.opn (fun _ => by simp [cntFlds]) (fun _ => by simp [cntFlds]) (fun h => absurd rfl h)).trans
      (.addTile _ hk (by simp [cntFlds]) i.opn tile)
  refine ⟨?_, (VecKeeps.setLanes q (physReg_lt (iVd_lt i.w)) (by exact List.mem_singleton_self _) hlen).trans (hcnt.vecKeeps _)⟩
  change ((u.count k i.opn sat flush 0).addTile k i.opn tile).lanes k (physReg (q.fld VEC_LOOP_RRB k) (iVd i.w)) = _
  rw [State.lanes, hcnt.vreg, ← State.lanes, hu, State.lanes_setLanes _ _ _ hlen, lanesSpecial_eq, State.specialCodes]
  simp [List.map_map, Function.comp_def, kindFmt, Fmt.width]

/-! ### Values and bounds (R142, R145) -/

/-- A whole multiple is not cut by a finer scale. -/
theorem atScale_of_le (m : Nat) {e q : Int} (h : q ≤ e) : atScale m e q = m * 2 ^ (e - q).toNat := if_pos h

/-- The magnitude of a signed mantissa. -/
theorem natAbs_signedAt (neg : Bool) (m : Nat) (e q : Int) : (signedAt neg m e q).natAbs = atScale m e q := by
  unfold signedAt
  cases neg <;> simp

/-- A value in [-1, 1] is below neither bound. -/
def InUnit (v : Val) : Prop := v.lt (.fin true 1 0) = false ∧ (Val.fin false 1 0).lt v = false

/-- A mantissa of magnitude no more than 1 at every scale it is exact at. -/
theorem inUnit_of_le {neg : Bool} {m : Nat} {e : Int} (h : atScale m e (min e 0) ≤ 2 ^ (0 - min e 0).toNat) : InUnit (.fin neg m e) := by
  have hone : atScale 1 0 (min e 0) = 2 ^ (0 - min e 0).toNat := by rw [atScale_of_le 1 (min_le_right e 0), Nat.one_mul]
  have habs := natAbs_signedAt neg m e (min e 0)
  have hlo : signedAt true 1 0 (min e 0) = -((2 ^ (0 - min e 0).toNat : Nat) : Int) := by simp only [signedAt, hone, if_true]
  have hhi : signedAt false 1 0 (min e 0) = ((2 ^ (0 - min e 0).toNat : Nat) : Int) := by simp [signedAt, hone]
  refine ⟨?_, ?_⟩
  · simp only [Val.lt, hlo, decide_eq_false_iff_not]
    omega
  · simp only [Val.lt, min_comm (0 : Int), hhi, decide_eq_false_iff_not]
    omega

/-- A value that its fixed-point form holds exactly lies in [-1, 1] where that form does. -/
theorem inUnit_of_at256 {neg : Bool} {m : Nat} {e : Int} (he : -256 ≤ e) (h : (at256 (.fin neg m e)).natAbs ≤ 2 ^ 256) : InUnit (.fin neg m e) := by
  refine inUnit_of_le ?_
  rw [at256, natAbs_signedAt, atScale_of_le m he] at h
  rw [atScale_of_le m (min_le_left e 0)]
  have hsplit : (e - -256).toNat = (e - min e 0).toNat + (min e 0 + 256).toNat := by omega
  have hone : 256 = (0 - min e 0).toNat + (min e 0 + 256).toNat := by omega
  rw [hsplit, Nat.pow_add, ← Nat.mul_assoc, hone, Nat.pow_add] at h
  exact Nat.le_of_mul_le_mul_right h (Nat.two_pow_pos _)

/-- The exponents of F32 values are no less than -149 (Table 2.1). -/
theorem decodeVal_f32_exp {code : Nat} {neg : Bool} {m : Nat} {e : Int} (h : decodeVal .f32 code = .fin neg m e) : -149 ≤ e := by
  unfold decodeVal at h
  dsimp only at h
  split_ifs at h with _ _ _ hsub
  · cases h
    decide
  · have hexp : bitsOf code 23 8 ≠ 0 := fun hz => hsub (beq_iff_eq.2 hz)
    cases h
    change (-149 : Int) ≤ (bitsOf code 23 8 : Int) - 127 - 23
    omega

/-- Every finite free candidate is one that fixed point holds exactly. -/
def ExactAt256 (c : Val) : Prop := ∀ neg m e, c = .fin neg m e → -256 ≤ e

/-- The free candidate of a special function. -/
def specialCand (fn code : Nat) : Val := decodeVal .f32 (Config.special fn code % 2 ^ 32)

/-- The free candidate is an F32 value. -/
theorem exactAt256_specialCand (fn code : Nat) : ExactAt256 (specialCand fn code) :=
  fun _ _ _ h => (by decide : (-256 : Int) ≤ -149).trans (decodeVal_f32_exp h)

/-- A special function of a finite value other than zero. -/
theorem specialFn_fin (fn code : Nat) (neg : Bool) {m : Nat} (hm : m ≠ 0) (e : Int) :
    specialFn fn code (.fin neg m e) = specialFin fn neg m e (specialCand fn code) := if_neg (by simpa using hm)

/-- What a special function of a finite value is, by its number. -/
theorem specialFin_eq (neg : Bool) (m : Nat) (e : Int) (c : Val) :
    specialFin 0 neg m e c = rcpRes neg m e c ∧ specialFin 1 neg m e c = rsqrtRes neg m e c ∧ specialFin 2 neg m e c = exp2Res neg m e c ∧
      specialFin 3 neg m e c = log2Res neg m e c ∧ specialFin 4 neg m e c = tanhRes neg m e c ∧ specialFin 5 neg m e c = trigRes false neg m e c ∧
      specialFin 6 neg m e c = trigRes true neg m e c := by
  simp [specialFin]

/-- An ulp is positive. -/
theorem fpUlp_nonneg (y : Int) : 0 ≤ fpUlp y := by
  unfold fpUlp
  simp only
  split <;> positivity

/-- The value of a signed fixed-point number. -/
theorem at256_fixed (y : Int) : at256 (.fin (decide (y < 0)) y.natAbs (-256)) = y := by
  have hs : atScale y.natAbs (-256) (-256) = y.natAbs := by rw [atScale_of_le _ le_rfl, sub_self, Int.toNat_zero, Nat.pow_zero, Nat.mul_one]
  simp only [at256, signedAt, hs, decide_eq_true_eq]
  split <;> omega

/-- The value too small for fixed point. -/
theorem at256_tiny (neg : Bool) : at256 (.fin neg 1 (-400)) = 0 := by cases neg <;> decide +kernel

/-- The result kept to a bound: the candidate, a stand-in for one that is zero, or the exact result. -/
theorem fpRes_cases (ulps : Int) (unit : Bool) (y : Int) (c : Val) :
    (c.isFin = true ∧ ((at256 c - y).natAbs : Int) ≤ ulps * fpUlp y + fpUlp y / 1099511627776 ∧ (unit = true → (at256 c).natAbs ≤ 2 ^ 256) ∧
      fpRes ulps unit y c = .val (if at256 c = 0 then .fin (decide (y < 0)) 1 (-400) else c)) ∨
    fpRes ulps unit y c = .val (.fin (decide (y < 0)) y.natAbs (-256)) := by
  unfold fpRes
  simp only
  split
  · next h =>
    simp only [Bool.and_eq_true, decide_eq_true_eq] at h
    obtain ⟨⟨hfin, hbound⟩, hunit⟩ := h
    refine .inl ⟨hfin, hbound, fun hu => by simpa [hu] using hunit, ?_⟩
    simp only [beq_iff_eq]
    split <;> rfl
  · exact .inr rfl

/-- A result kept to a bound lies within it (R141, Table 3.7). -/
theorem within_fpRes {ulps : Int} (hu : 0 ≤ ulps) (unit : Bool) (y : Int) (c : Val) : Within ulps y (fpRes ulps unit y c) := by
  rcases fpRes_cases ulps unit y c with ⟨-, hbound, -, h⟩ | h
  · refine ⟨_, h, ?_⟩
    split
    · next hz => rwa [at256_tiny, ← hz]
    · exact hbound
  · have hulp := fpUlp_nonneg y
    have hslack : 0 ≤ ulps * fpUlp y + fpUlp y / 1099511627776 := by positivity
    refine ⟨_, h, ?_⟩
    rw [at256_fixed, sub_self]
    exact hslack

/-- A result kept to [-1, 1] lies there (R145). -/
theorem inUnit_fpRes (ulps : Int) {y : Int} (hy : y.natAbs ≤ 2 ^ 256) {c : Val} (hc : ExactAt256 c) : ∃ v, fpRes ulps true y c = .val v ∧ InUnit v := by
  rcases fpRes_cases ulps true y c with ⟨hfin, -, hunit, h⟩ | h
  · refine ⟨_, h, ?_⟩
    split
    · exact inUnit_of_le (by decide +kernel)
    · cases c with
      | fin neg m e => exact inUnit_of_at256 (hc neg m e rfl) (hunit rfl)
      | nan | inf => cases hfin
  · exact ⟨_, h, inUnit_of_at256 le_rfl (by rwa [at256_fixed])⟩

/-- A result cut to [-1, 1] is no more than 1. -/
theorem natAbs_fpUnit_le (y : Int) : (fpUnit y).natAbs ≤ 2 ^ 256 := by
  have hone : fpOne = ((2 ^ 256 : Nat) : Int) := rfl
  unfold fpUnit
  omega

/-! ### The statement -/

/-- A reciprocal beyond the largest finite number overflows (R143). -/
theorem rcpRes_of_over {m : Nat} {e : Int} (h : rcpOver m e = true) (neg : Bool) (c : Val) : rcpRes neg m e c = .over neg := by simp [rcpRes, h]

/-- A reciprocal keeps the candidate where it is within the bound, and else takes the exact result. -/
theorem rcpRes_of_fits {m : Nat} {e : Int} (h : rcpOver m e = false) (neg : Bool) (c : Val) :
    rcpRes neg m e c = .val (rcpNear m e neg) ∨ ∃ v, rcpRes neg m e c = .val v ∧ rcpOk (.fin neg m e) v = true := by
  by_cases hc : rcpOk (.fin neg m e) c = true
  · exact .inr ⟨c, by simp [rcpRes, h, hc], hc⟩
  · exact .inl (by simp [rcpRes, h, hc])

/-- A reciprocal square root of a positive number keeps the candidate where it is within the bound, and else takes the exact result. -/
theorem rsqrtRes_pos (m : Nat) (e : Int) (c : Val) :
    rsqrtRes false m e c = .val (rsqrtNear m e) ∨ ∃ v, rsqrtRes false m e c = .val v ∧ rsqrtOk (.fin false m e) v = true := by
  by_cases hc : rsqrtOk (.fin false m e) c = true
  · exact .inr ⟨c, by simp [rsqrtRes, hc], hc⟩
  · exact .inl (by simp [rsqrtRes, hc])

/-- The work of the seven special functions (Table 5.4). -/
theorem State.vecWork_special {fn : Nat} (hfn : fn < 7) (s : State) (k : Nat) {i : Inf} (rrb : Nat) (h : opOf i.w = 0x50 + fn) :
    s.vecWork k i rrb = s.vecSpecial k i rrb fn := by
  interval_cases fn <;> simp [State.vecWork, h]

/-- An issue row of a special function writes VD from the function of VA's lanes. -/
theorem result_special {c : Coach → Instr} {fn : Nat} (hfn : fn < 7) (hexec : ∀ k s, exec (c k) s = .next (s.issueTo k (0x50 + fn) .vector)) :
    Result c (0x50 + fn) (fun _ => false) (lanesSpecial fn) :=
  result_of_work hexec (by interval_cases fn <;> rfl) (by interval_cases fn <;> rfl) (readsLanes_special fn)
    (workGives_special (fun s k _ rrb h => s.vecWork_special hfn k rrb h))

/-- A power beyond the largest finite number overflows (R143). -/
theorem exp2Res_of_over {neg : Bool} {m : Nat} {e : Int} (h : floorVal neg m e ≥ 128) (c : Val) : exp2Res neg m e c = .over false := by simp [exp2Res, h]

/-- Any other power of an operand that is not below -200 is kept to its bound. -/
theorem exp2Res_within {neg : Bool} {m : Nat} {e : Int} (hlo : -200 ≤ floorVal neg m e) (hhi : floorVal neg m e < 128) (c : Val) :
    Within 2 (fpExp2 neg m e) (exp2Res neg m e c) := by
  have h : exp2Res neg m e c = fpRes 2 false (fpExp2 neg m e) c := by simp [exp2Res, Int.not_le.2 hhi, Int.not_lt.2 hlo]
  rw [h]
  exact within_fpRes (by decide) _ _ c

/-- The logarithm of a positive number other than 1 is kept to its bound. -/
theorem log2Res_within {m : Nat} {e : Int} (h : ¬ (m = 2 ^ m.log2 ∧ lead m e = 0)) (c : Val) : Within 2 (fpLog2 m e) (log2Res false m e c) := by
  have heq : log2Res false m e c = fpRes 2 false (fpLog2 m e) c := by
    refine (if_neg Bool.false_ne_true).trans (if_neg ?_)
    simpa using h
  rw [heq]
  exact within_fpRes (by decide) _ _ c

/-- Sine and cosine have no value outside their domain. -/
theorem trigRes_out {m : Nat} {e : Int} (h : inTrigDomain m e = false) (cos neg : Bool) (c : Val) : trigRes cos neg m e c = .val .nan := by
  simp [trigRes, h]

/-- Sine and cosine within their domain are kept to their bound and to [-1, 1]. -/
theorem trigRes_in {m : Nat} {e : Int} (h : inTrigDomain m e = true) (cos neg : Bool) (c : Val) :
    trigRes cos neg m e c = fpRes 2 true (fpUnit (if cos then fpCos m e else signedFp neg (fpSin m e))) c := by
  simp [trigRes, h]

/-- Settles O18: each function's lanes through its work, Table 3.8 by cases of the operand, and Table 3.7 through the bound that a result is kept to. -/
theorem vectorSpecialFunctionsByLane : Obligations.VectorSpecialFunctionsByLane := by
  unfold Obligations.VectorSpecialFunctionsByLane
  refine ⟨result_special (fn := 0) (by decide) fun _ _ => rfl, result_special (fn := 1) (by decide) fun _ _ => rfl,
    result_special (fn := 2) (by decide) fun _ _ => rfl, result_special (fn := 3) (by decide) fun _ _ => rfl,
    result_special (fn := 4) (by decide) fun _ _ => rfl, result_special (fn := 5) (by decide) fun _ _ => rfl,
    result_special (fn := 6) (by decide) fun _ _ => rfl, ?_, ?_, ?_, ?_, ?_⟩
  · exact fun _ _ _ => rfl
  · intro code neg
    exact ⟨rfl, rfl, by cases neg <;> rfl, rfl, by cases neg <;> rfl, rfl, by cases neg <;> rfl, rfl, rfl, rfl, rfl, rfl, rfl, rfl⟩
  · intro code m e hm
    simp only [specialFn_fin _ _ _ hm, specialFin_eq]
    exact ⟨rfl, rfl, fun hd neg => ⟨trigRes_out hd false neg _, trigRes_out hd true neg _⟩⟩
  · intro code neg m e hm
    simp only [specialFn_fin _ _ _ hm, specialFin_eq]
    refine ⟨fun h => rcpRes_of_over h neg _, fun h => rcpRes_of_fits h neg _, rsqrtRes_pos m e _, fun h => exp2Res_of_over h _,
      fun hlo hhi => exp2Res_within hlo hhi _, fun h => log2Res_within h _, within_fpRes (by decide) _ _ _, fun h => ?_⟩
    rw [trigRes_in h, trigRes_in h]
    exact ⟨within_fpRes (by decide) _ _ _, within_fpRes (by decide) _ _ _⟩
  · intro fn code neg m e hfn hm hnan
    rw [specialFn_fin _ _ _ hm] at hnan ⊢
    have hcand := exactAt256_specialCand fn code
    simp only [List.mem_cons, List.not_mem_nil, or_false] at hfn
    rcases hfn with rfl | htrig
    · exact inUnit_fpRes 3 (natAbs_fpUnit_le _) hcand
    · have heq : specialFin fn neg m e (specialCand fn code) = trigRes (fn == 6) neg m e (specialCand fn code) := by
        rcases htrig with rfl | rfl <;> simp [specialFin_eq]
      cases hd : inTrigDomain m e with
      | false => exact absurd (heq.trans (trigRes_out hd _ neg _)) hnan
      | true =>
        rw [heq, trigRes_in hd]
        exact inUnit_fpRes 2 (natAbs_fpUnit_le _) hcand

end Sys2Proof.Machine
end

section
/-! SUPPORT. Laws of sequencer faults and of the entries of the accumulator bank (R130, R131, R166 to R171, R210, R213). -/

namespace Sys2Proof.Machine

/-! ### Sequencer faults (R210, R213) -/

/-- What the record of a sequencer fault holds. -/
def seqFaultFlds (code pc ctx : Nat) : List (Fld × Nat) :=
  [(COA_FAULT_CODE, code), (COA_FAULT_PC, pc), (COA_FAULT_CONTEXT, ctx), (COA_FAULT_MORE, 0), (COA_FAULT_VALID, 1)]

/-- The record's fields have indices of their own. -/
theorem seqFaultFlds_idx (code pc ctx : Nat) : (seqFaultFlds code pc ctx).map (·.1.idx % 1024) = [33, 34, 35, 36, 37] := rfl

/-- While a record is held a fault sets MORE alone. -/
theorem State.recordFault_of_held {s : State} {k : Nat} (h : s.fld COA_FAULT_VALID k = 1) (code pc : Nat) :
    s.recordFault k code pc = s.setFlag COA_FAULT_MORE k 0 true := by
  simp [State.recordFault, State.flag, h]

/-- Where no record is held a fault is recorded. -/
theorem State.recordFault_of_free {s : State} {k : Nat} (h : s.fld COA_FAULT_VALID k ≠ 1) (code pc : Nat) :
    s.recordFault k code pc = s.setFlds k 0 (seqFaultFlds code pc (s.fld COA_ROLE_CONTEXT k)) := by
  simp [State.recordFault, State.flag, h, seqFaultFlds]

/-- The record of a fault changes its own fields alone. -/
theorem OnlyCoach.recordFault (s : State) {k : Nat} (hk : k < 2048) (code pc : Nat) : OnlyCoach k (faultFlds k) s (s.recordFault k code pc) := by
  by_cases h : s.fld COA_FAULT_VALID k = 1
  · rw [State.recordFault_of_held h]
    exact .setFld s k _ (by decide +kernel) hk (by simp [faultFlds])
  · rw [State.recordFault_of_free h]
    refine (OnlyFields.setFlds s hk ?_).onlyCoach k
    simp only [seqFaultFlds, List.forall_mem_cons]
    exact ⟨⟨by decide +kernel, by simp [faultFlds]⟩, ⟨by decide +kernel, by simp [faultFlds]⟩, ⟨by decide +kernel, by simp [faultFlds]⟩,
      ⟨by decide +kernel, by simp [faultFlds]⟩, ⟨by decide +kernel, by simp [faultFlds]⟩, fun _ h => absurd h List.not_mem_nil⟩

/-- A fault's record is valid, and it holds the fault unless a record was held. -/
theorem State.recordFault_record (s : State) (k code pc : Nat) : (s.recordFault k code pc).fld COA_FAULT_VALID k = 1 ∧
    if s.fld COA_FAULT_VALID k = 1 then (s.recordFault k code pc).fld COA_FAULT_MORE k = 1 ∧
      (s.recordFault k code pc).fld COA_FAULT_CODE k = s.fld COA_FAULT_CODE k ∧ (s.recordFault k code pc).fld COA_FAULT_PC k = s.fld COA_FAULT_PC k ∧
      (s.recordFault k code pc).fld COA_FAULT_CONTEXT k = s.fld COA_FAULT_CONTEXT k
    else (s.recordFault k code pc).fld COA_FAULT_MORE k = 0 ∧ (s.recordFault k code pc).fld COA_FAULT_CODE k = code % 2 ^ 8 ∧
      (s.recordFault k code pc).fld COA_FAULT_PC k = pc % 2 ^ 10 ∧
      (s.recordFault k code pc).fld COA_FAULT_CONTEXT k = s.fld COA_ROLE_CONTEXT k % 2 ^ 10 := by
  by_cases h : s.fld COA_FAULT_VALID k = 1
  · rw [if_pos h, State.recordFault_of_held h]
    exact ⟨(s.fld_setFld_idx k 0 k 0 _ (by decide)).trans h, s.fld_setFld_same COA_FAULT_MORE k 0 1, s.fld_setFld_idx k 0 k 0 _ (by decide),
      s.fld_setFld_idx k 0 k 0 _ (by decide), s.fld_setFld_idx k 0 k 0 _ (by decide)⟩
  · rw [if_neg h, State.recordFault_of_free h]
    have hset : ∀ {f : Fld} {v : Nat}, (f, v) ∈ seqFaultFlds code pc (s.fld COA_ROLE_CONTEXT k) →
        (s.setFlds k 0 (seqFaultFlds code pc (s.fld COA_ROLE_CONTEXT k))).fld f k = v % 2 ^ f.w := fun hf =>
      s.fld_setFlds_mem k 0 (by rw [seqFaultFlds_idx]; decide) hf
    exact ⟨hset (v := 1) (by simp [seqFaultFlds]), hset (v := 0) (by simp [seqFaultFlds]), hset (by simp [seqFaultFlds]), hset (by simp [seqFaultFlds]),
      hset (by simp [seqFaultFlds])⟩

/-- A fault leaves every field but its record and COA_STATE alone, and the record reads as recorded. -/
theorem State.fld_seqFault (s : State) {f : Fld} (k code pc u i : Nat) (h : f.idx % 1024 ≠ COA_STATE_STATE.idx % 1024) :
    (s.seqFault k code pc).fld f u i = (s.recordFault k code pc).fld f u i := State.fld_setFld_idx _ u i k 0 5 h

/-- A fault is reported. -/
theorem State.reports_seqFault (s : State) (k code pc : Nat) : ∃ r, (s.seqFault k code pc).reports = s.reports ++ [r] ∧ r.cause = 0x10 ∧
    r.ctx = s.boundCtx k ∧ r.unit = coachUnit k ∧ r.code = code := by
  have hrec : (s.recordFault k code pc).reports = s.reports := by
    by_cases h : s.fld COA_FAULT_VALID k = 1
    · rw [State.recordFault_of_held h]; rfl
    · rw [State.recordFault_of_free h]; rfl
  refine ⟨_, congrArg (· ++ [_]) hrec, ?_⟩
  exact ⟨rfl, rfl, rfl, rfl⟩

/-- A fault stops its coach and leaves its other parts alone. -/
theorem State.coach_seqFault (s : State) (k code pc : Nat) : (s.seqFault k code pc).coach k = { s.coach k with halted := true } := by
  have hrec : (s.recordFault k code pc).coach k = s.coach k := by
    by_cases h : s.fld COA_FAULT_VALID k = 1
    · rw [State.recordFault_of_held h]; rfl
    · rw [State.recordFault_of_free h]; rfl
  rw [State.seqFault, State.coach_report, State.coach_updCoach_same, State.coach_setFld, hrec]

/-- A fault stops its coach, is recorded unless a record is held, and is reported (R210, R213). -/
theorem seqFaulted_seqFault (s : State) (k : Nat) {code : Nat} (hc : code < 2 ^ 8) (pc : Nat) : SeqFaulted k code pc s (s.seqFault k code pc) := by
  have hrec := s.recordFault_record k code pc
  rw [Nat.mod_eq_of_lt hc] at hrec
  simp only [SeqFaulted, s.fld_seqFault (f := COA_FAULT_VALID) k code pc k 0 (by decide), s.fld_seqFault (f := COA_FAULT_MORE) k code pc k 0 (by decide),
    s.fld_seqFault (f := COA_FAULT_CODE) k code pc k 0 (by decide), s.fld_seqFault (f := COA_FAULT_PC) k code pc k 0 (by decide),
    s.fld_seqFault (f := COA_FAULT_CONTEXT) k code pc k 0 (by decide)]
  exact ⟨State.fld_setFld_same _ COA_STATE_STATE k 0 5, by rw [State.coach_seqFault], hrec.1, hrec.2,
    s.reports_seqFault k code pc⟩

/-- A fault changes its coach, its record and the reports alone. -/
theorem OnlyCoach.seqFault (s : State) {k : Nat} (hk : k < 2048) (code pc : Nat) :
    OnlyCoach k (faultFlds k) { s with reports := (s.seqFault k code pc).reports } (s.seqFault k code pc) := by
  have hstop : OnlyCoach k (faultFlds k) s (((s.recordFault k code pc).setFld COA_STATE_STATE k 0 5).updCoach k (fun c => { c with halted := true })) :=
    ((OnlyCoach.recordFault s hk code pc).trans (.setFld _ k 5 (by decide +kernel) hk (by simp [faultFlds]))).trans (.updCoach _ k _)
  have hframe : CoachFrame k (faultFlds k) s (s.seqFault k code pc) := hstop.frame.trans (.report _ _)
  have hstore : (s.seqFault k code pc).store = s.store := hstop.store
  rwa [CoachFrame, hstore] at hframe

/-- A fault found after changes of its coach's own parts alone. -/
theorem SeqFaulted.of_onlyCoach {k code pc : Nat} {s u t : State} (a : OnlyCoach k [] s u) (hf : u.fields = s.fields) (h : SeqFaulted k code pc u t) :
    SeqFaulted k code pc s t := by
  have hu : u = { s with coaches := u.coaches } := by rw [← hf, ← a.1]
  rw [hu] at h
  exact h

/-! ### Entries of the bank -/

/-- The bank word just written. -/
@[simp] theorem State.bankWord_setBankWord_same (s : State) (k e w : Nat) : (s.setBankWord k e w).bankWord k e = w := mget_mset_same _ _ _ w

/-- A write of an entry's word leaves every other entry's alone. -/
theorem State.bankWord_setBankWord_other (s : State) {j k e f : Nat} (w : Nat) (he : e < 131072) (hf : f < 131072) (h : j ≠ k ∨ f ≠ e) :
    (s.setBankWord k e w).bankWord j f = s.bankWord j f := mget_mset_other w (by omega)

/-- An entry lies within its coach's bank. -/
theorem entryIx_lt {a r n : Nat} (ha : a < 4) (hr : r < 256) (hn : n < 128) : entryIx a r n < 131072 := by
  unfold entryIx
  omega

/-- A selected array is one of four. -/
theorem lt_four_of_mem_iArrays {w a : Nat} (h : a ∈ iArrays w) : a < 4 := List.mem_range.1 (List.mem_filter.1 h).1

/-- A word in short form names no slot. -/
theorem spillSlot_zero : spillSlot 0 = none := by decide

/-- The word of an entry in long form names its slot. -/
theorem spillSlot_long {i : Nat} (h : i < 2 ^ 32) : spillSlot (2 ^ 116 + i) = some i := by
  have hmark : bitsOf (2 ^ 116 + i) 116 1 = 1 := bitsOf_mul_add_high (k := 116) (h.trans (by decide)) 1 0 1
  have hslot : bitsOf (2 ^ 116 + i) 0 32 = i := (bitsOf_mul_add_low (k := 116) (h.trans (by decide)) (by decide) 1).trans (bitsOf_eq_self h)
  simp only [spillSlot, hmark, hslot]
  rfl

/-- A number takes the bytes it is given. -/
theorem length_leBytes (n v : Nat) : (leBytes n v).length = n := by
  induction n generalizing v with
  | zero => rfl
  | succ n ih => rw [leBytes, List.length_cons, ih]

/-- The bytes of a value in long form. -/
def longBytes (v : Acc) : List Nat := ((longTally v).map (leBytes 16)).flatten

/-- A value in long form takes 80 bytes (R126). -/
theorem length_longBytes (v : Acc) : (longBytes v).length = 80 := by
  simp [longBytes, longTally, length_leBytes]

/-- A spilled entry keeps its slot (R131). -/
theorem State.putEntry_spilled {s : State} {k e i : Nat} (h : spillSlot (s.bankWord k e) = some i) (v : Acc) :
    s.putEntry k e v = some (s.storeWrite k (s.slotAddr k i) (longBytes v)) := by
  simp [State.putEntry, h, longBytes]

/-- A value that fits one is stored as a short tally. -/
theorem State.putEntry_short {s : State} {k e : Nat} (h : spillSlot (s.bankWord k e) = none) {v : Acc} (hv : fitsShort v.v = true) :
    s.putEntry k e v = some (s.setBankWord k e (shortTally v)) := by
  simp [State.putEntry, h, hv]

/-- The slots in use once slot `i` is. -/
def withSlot (l : List Nat) (i : Nat) : List Nat := l.filter (· < i) ++ [i] ++ l.filter (fun j => decide (i < j))

/-- An entry goes into a slot: its value in long form there, its word `w` naming the slot, and the spill counted. -/
def State.spilled (s : State) (k e i w : Nat) (v : Acc) : State :=
  (((s.storeWrite k (s.slotAddr k i) (longBytes v)).setBankWord k e w).setSpill k (withSlot (s.coach k).spill i)).bump ACC_SPILLS_SPILLS k 0 1

/-- Any other value takes the lowest free slot (R130). -/
theorem State.putEntry_long {s : State} {k e i : Nat} (h : spillSlot (s.bankWord k e) = none) {v : Acc} (hv : fitsShort v.v = false)
    (hi : s.freeSlot k = some i) : s.putEntry k e v = some (s.spilled k e i (2 ^ 116 + i) v) := by
  simp only [State.putEntry, h, hv, hi]
  rfl

/-- With no slot free it cannot be stored (R171). -/
theorem State.putEntry_full {s : State} {k e : Nat} (h : spillSlot (s.bankWord k e) = none) {v : Acc} (hv : fitsShort v.v = false)
    (hi : s.freeSlot k = none) : s.putEntry k e v = none := by
  simp [State.putEntry, h, hv, hi]

/-- The bank and the coach store of coach `k` change, and the fields that count spills. -/
def BankKeeps (k : Nat) (s t : State) : Prop :=
  (t.coach k).flight = (s.coach k).flight ∧
    OnlyCoach k [(ACC_SPILLUSED_USED, k, 0), (ACC_SPILLS_SPILLS, k, 0)] { s with bank := t.bank, store := t.store } t

/-- The state with another bank. -/
def State.withBank (s : State) (b : SMap Nat) : State := { s with bank := b }

/-- Bank `b` stands ready for a contribution to an entry: every other entry's word is as before, and the entry names the slot it named, if any. -/
structure EntryReady (k e : Nat) (s : State) (b : SMap Nat) : Prop where
  slot : spillSlot ((s.withBank b).bankWord k e) = spillSlot (s.bankWord k e)
  other : ∀ j f, f < 131072 → j ≠ k ∨ f ≠ e → (s.withBank b).bankWord j f = s.bankWord j f
  spilled : spillSlot (s.bankWord k e) ≠ none → b = s.bank

/-- A contribution is added to what the entry holds, or to zero where the pass zeroes it and no slot has to be freed (R158, R168). -/
theorem State.contribute_eq {s : State} {k e : Nat} (he : e < 131072) {fresh : Prop} [Decidable fresh] (h : fresh → spillSlot (s.bankWord k e) = none) :
    ∃ b, EntryReady k e s b ∧ ∀ a, s.contribute k e (decide fresh) a = (s.withBank b).putEntry k e (Acc.add (if fresh then Acc.zero else s.entryAcc k e) a) := by
  by_cases hf : fresh
  · have hclear : s.clearEntry k e = s.withBank (s.setBankWord k e 0).bank := by
      rw [State.clearEntry, h hf]
      rfl
    refine ⟨(s.setBankWord k e 0).bank, ⟨?_, fun j f hfe hne => s.bankWord_setBankWord_other 0 he hfe hne, fun hs => absurd (h hf) hs⟩, fun a => ?_⟩
    · rw [h hf]
      exact (congrArg spillSlot (s.bankWord_setBankWord_same k e 0)).trans spillSlot_zero
    · simp only [State.contribute, hf, decide_true, if_true, hclear]
  · exact ⟨s.bank, ⟨rfl, fun _ _ _ _ => rfl, fun _ => rfl⟩, fun a => by simp [State.contribute, hf, State.withBank]⟩

/-- A value in long form was written to a slot. -/
theorem slotBytes_of_store {s t : State} {k a : Nat} {v : Acc} (hs : t.store = (s.storeWrite k a (longBytes v)).store) :
    t.storeRead k a 80 = (longBytes v).map (· % 256) ∧ ∀ x, x < k * storeSize + a ∨ k * storeSize + a + 80 ≤ x → memByte t.store x = memByte s.store x := by
  have hread := s.storeRead_storeWrite k a (longBytes v)
  obtain ⟨hbytes, -, -⟩ := sameBytesBut_storeWrite s k a (longBytes v)
  rw [length_longBytes] at hread hbytes
  rw [State.storeRead, hs]
  exact ⟨hread, hbytes⟩

/-- What a contribution to a spilled entry leaves. -/
theorem contributed_spilled {s : State} {k e i : Nat} (h : spillSlot (s.bankWord k e) = some i) (v : Acc) :
    Contributed k e v s (s.storeWrite k (s.slotAddr k i) (longBytes v)) := by
  obtain ⟨hread, hbytes⟩ := slotBytes_of_store (s := s) (t := s.storeWrite k (s.slotAddr k i) (longBytes v)) rfl
  refine ⟨fun j hj => ?_, fun hn => absurd (h.symm.trans hn) (by simp), fun j hn => absurd (h.symm.trans hn) (by simp), fun _ _ _ _ => rfl⟩
  obtain rfl : i = j := Option.some.inj (h.symm.trans hj)
  exact ⟨rfl, ⟨hbytes, fun _ => rfl, fun _ => rfl⟩, hread⟩

/-- What a contribution to an entry in short form leaves where the value fits one: the word is the value's short tally. -/
theorem contributed_short {s : State} {k e w : Nat} {b : SMap Nat} (he : e < 131072) (hb : EntryReady k e s b) (h : spillSlot (s.bankWord k e) = none)
    {v : Acc} (hv : fitsShort v.v = true) (hw : w = shortTally v) : Contributed k e v s ((s.withBank b).setBankWord k e w) := by
  refine ⟨fun j hj => absurd (h.symm.trans hj) (by simp), fun _ _ => ⟨(State.bankWord_setBankWord_same _ k e w).trans hw, rfl, rfl⟩,
    fun j _ hn => absurd (hv.symm.trans hn) (by simp), fun j f hf hne => ?_⟩
  exact (State.bankWord_setBankWord_other _ w he hf hne).trans (hb.other j f hf hne)

/-- The count of spills goes up and stops at its largest value. -/
theorem State.spills_bump (s : State) (k : Nat) :
    (s.bump ACC_SPILLS_SPILLS k 0 1).fld ACC_SPILLS_SPILLS k = min 0xFFFFFFFF (s.fld ACC_SPILLS_SPILLS k + 1) :=
  (s.fld_setFld_same ACC_SPILLS_SPILLS k 0 _).trans (Nat.mod_eq_of_lt (Nat.lt_of_le_of_lt (Nat.min_le_left _ _) (by decide)))

/-- Taking a slot leaves every field but ACC_SPILLUSED alone. -/
theorem State.fld_setSpill (s : State) {f : Fld} (k : Nat) (l : List Nat) (u i : Nat) (h : f.idx % 1024 ≠ ACC_SPILLUSED_USED.idx % 1024) :
    (s.setSpill k l).fld f u i = s.fld f u i := State.fld_setFld_idx _ u i k 0 _ h

/-- A spill is counted. -/
theorem State.spills_spilled (s : State) (k e i w : Nat) (v : Acc) :
    (s.spilled k e i w v).fld ACC_SPILLS_SPILLS k = min 0xFFFFFFFF (s.fld ACC_SPILLS_SPILLS k + 1) := by
  rw [State.spilled, State.spills_bump, State.fld_setSpill _ k _ k 0 (by decide)]
  rfl

/-- What a spill leaves of each memory: the value's long form in its slot, the word in the bank, and the rest. -/
theorem State.spilled_memories (s : State) (k e i w : Nat) (v : Acc) : (s.spilled k e i w v).store = (s.storeWrite k (s.slotAddr k i) (longBytes v)).store ∧
    (s.spilled k e i w v).bank = (s.setBankWord k e w).bank ∧ (s.spilled k e i w v).hbm = s.hbm ∧ (s.spilled k e i w v).media = s.media := by
  simp [State.spilled, State.setSpill, State.bump, State.setBankWord]

/-- What a contribution that spills leaves: word `w` names the slot taken. -/
theorem contributed_long {s : State} {k e i w : Nat} {b : SMap Nat} (he : e < 131072) (hb : EntryReady k e s b) (h : spillSlot (s.bankWord k e) = none)
    {v : Acc} (hv : fitsShort v.v = false) (hi : s.freeSlot k = some i) (hw : i < 2 ^ 32 → spillSlot w = some i) :
    Contributed k e v s ((s.withBank b).spilled k e i w v) := by
  obtain ⟨hstore, hbank, hhbm, hmedia⟩ := (s.withBank b).spilled_memories k e i w v
  obtain ⟨hread, hbytes⟩ := slotBytes_of_store (s := s.withBank b) hstore
  have hword : ∀ j f, ((s.withBank b).spilled k e i w v).bankWord j f = ((s.withBank b).setBankWord k e w).bankWord j f := fun j f => by
    rw [State.bankWord, hbank, State.bankWord]
  refine ⟨fun j hj => absurd (h.symm.trans hj) (by simp), fun _ hn => absurd (hv.symm.trans hn) (by simp), fun j _ _ hj hlt => ?_, fun j f hf hne => ?_⟩
  · obtain rfl : i = j := Option.some.inj (hi.symm.trans hj)
    refine ⟨?_, hread, ⟨hbytes, fun x => by rw [hhbm]; rfl, fun x => by rw [hmedia]; rfl⟩, State.spills_spilled _ k e i w v⟩
    rw [hword, State.bankWord_setBankWord_same, hw hlt]
  · rw [hword, State.bankWord_setBankWord_other _ w he hf hne]
    exact hb.other j f hf hne

/-- A spill changes its coach, the bank, the store and the two fields that count spills. -/
theorem bankKeeps_spilled (s : State) {k : Nat} (hk : k < 2048) (b : SMap Nat) (e i w : Nat) (v : Acc) :
    BankKeeps k s ((s.withBank b).spilled k e i w v) := by
  refine ⟨?_, ?_⟩
  · simp only [State.spilled, State.bump, State.setSpill, State.coach_setFld, State.coach_updCoach_same]
    rfl
  · exact ((OnlyCoach.updCoach (L := [(ACC_SPILLUSED_USED, k, 0), (ACC_SPILLS_SPILLS, k, 0)]) _ k _).trans
      (.setFld _ k _ (by decide +kernel) hk (by simp))).trans (.setFld _ k _ (by decide +kernel) hk (by simp))

/-- A write of a slot changes the coach store alone. -/
theorem bankKeeps_storeWrite (s : State) (k a : Nat) (bs : List Nat) : BankKeeps k s (s.storeWrite k a bs) := ⟨rfl, .refl k _ _⟩

/-- A write of an entry's word changes the bank alone. -/
theorem bankKeeps_setBankWord (s : State) (k : Nat) (b : SMap Nat) (e w : Nat) : BankKeeps k s ((s.withBank b).setBankWord k e w) := ⟨rfl, .refl k _ _⟩

/-- What a contribution leaves where its value can be stored. -/
theorem putEntry_contributed {s : State} {k e : Nat} {b : SMap Nat} (hk : k < 2048) (he : e < 131072) (hb : EntryReady k e s b) {v : Acc}
    (hroom : spillSlot (s.bankWord k e) ≠ none ∨ fitsShort v.v = true ∨ s.freeSlot k ≠ none) :
    ∃ t, (s.withBank b).putEntry k e v = some t ∧ Contributed k e v s t ∧ BankKeeps k s t := by
  cases hsp : spillSlot (s.bankWord k e) with
  | some i =>
    obtain rfl := hb.spilled (by simp [hsp])
    exact ⟨_, State.putEntry_spilled hsp v, contributed_spilled hsp v, bankKeeps_storeWrite s k _ _⟩
  | none =>
    cases hv : fitsShort v.v with
    | true => exact ⟨_, State.putEntry_short (hb.slot.trans hsp) hv, contributed_short he hb hsp hv rfl, bankKeeps_setBankWord s k b e _⟩
    | false =>
      obtain ⟨i, hi⟩ := Option.ne_none_iff_exists'.1 ((hroom.resolve_left (by simp [hsp])).resolve_left (by simp [hv]))
      exact ⟨_, State.putEntry_long (hb.slot.trans hsp) hv hi, contributed_long he hb hsp hv hi spillSlot_long, bankKeeps_spilled s hk b e i _ v⟩

/-- Where its value cannot be stored a contribution leaves nothing. -/
theorem putEntry_refused {s : State} {k e : Nat} {b : SMap Nat} (hb : EntryReady k e s b) {v : Acc} (hsp : spillSlot (s.bankWord k e) = none)
    (hv : fitsShort v.v = false) (hfree : s.freeSlot k = none) : (s.withBank b).putEntry k e v = none :=
  State.putEntry_full (hb.slot.trans hsp) hv hfree

end Sys2Proof.Machine
end

section
/-! Passes: settles O23. -/

namespace Sys2Proof.Machine

/-! ### Group sums (R153, R158, R168, R182) -/

/-- Group sum `g` of an entry is marked as added, and counted. -/
def State.groupAdded (s : State) (k : Nat) (i : Inf) (arr m col g : Nat) : State :=
  s.updCoach k (fun c => c.mapInf i.id (fun j =>
    { j with added := mset 0 j.added ((arr * 256 + m) * 128 + col) (i.mask arr m col + 2 ^ g), nAdded := j.nAdded + 1 }))

/-- A group sum that may arrive is a contribution to its entry; one that cannot be stored raises SPILLFULL (R171). -/
theorem State.addGroup_eq {s : State} {k : Nat} {i : Inf} {arr m col g : Nat} {a : Acc}
    (hearlier : ∀ j ∈ (s.coach k).flight, j.id < i.id → opOf j.w = 3 → inRegion j.w arr (iRow0 i.w + m) = true → j.entryDone arr (iRow0 i.w + m) col = true)
    (harr : arr ∈ iArrays i.w) (hrow : m < i.rowsIn) (hg : g < passGroups i.w) (hnew : bitsOf (i.mask arr m col) g 1 = 0)
    (ha : groupSum i arr m col g = some a) :
    s.addGroup k i arr m col g =
      (s.contribute k (entryIx arr (iRow0 i.w + m) col) (decide (fieldOf i.w 0 21 1 = 1 ∧ i.mask arr m col = 0)) a).elim
        (((s.groupAdded k i arr m col g).failOp k i.opn).seqFault k 3 i.pc) (fun t => t.groupAdded k i arr m col g) := by
  have hwait : (s.coach k).flight.any (fun j => decide (j.id < i.id) && opOf j.w == 3 && inRegion j.w arr (iRow0 i.w + m) &&
      !j.entryDone arr (iRow0 i.w + m) col) = false := by
    refine List.any_eq_false.2 (fun j hj => ?_)
    simp only [Bool.and_eq_true, decide_eq_true_eq, beq_iff_eq, Bool.not_eq_true', not_and, Bool.not_eq_false]
    exact fun h => hearlier j hj h.1.1 h.1.2 h.2
  have hfresh : (fieldOf i.w 0 21 1 == 1 && i.mask arr m col == 0) = decide (fieldOf i.w 0 21 1 = 1 ∧ i.mask arr m col = 0) :=
    Bool.eq_iff_iff.2 (by simp)
  have hmem : (iArrays i.w).contains arr = true := by simpa using harr
  simp only [State.addGroup, hwait, hmem, hnew, ha, hfresh, Nat.not_le.2 hrow, Nat.not_le.2 hg, State.groupAdded]
  cases s.contribute k (entryIx arr (iRow0 i.w + m) col) (decide (fieldOf i.w 0 21 1 = 1 ∧ i.mask arr m col = 0)) a <;> rfl

/-- Marking a sum changes what is in flight alone. -/
theorem OnlyCoach.groupAdded {L : List (Fld × Nat × Nat)} (s : State) (k : Nat) (i : Inf) (arr m col g : Nat) : OnlyCoach k L s (s.groupAdded k i arr m col g) :=
  .updCoach s k _

/-- A contribution stands whatever else of its coach changes. -/
theorem Contributed.updCoach {k e : Nat} {v : Acc} {s t : State} (h : Contributed k e v s t) (f : CoachS → CoachS) : Contributed k e v s (t.updCoach k f) := h

/-- A marked sum is counted for its pass. -/
theorem nAdded_groupAdded {s t : State} {k : Nat} (h : (t.coach k).flight = (s.coach k).flight) (i : Inf) (arr m col g : Nat) :
    ∀ j ∈ ((t.groupAdded k i arr m col g).coach k).flight, j.id = i.id → ∃ j0 ∈ (s.coach k).flight, j0.id = i.id ∧ j.nAdded = j0.nAdded + 1 := by
  intro j hj hid
  rw [State.groupAdded, State.coach_updCoach_same, CoachS.mapInf, h] at hj
  obtain ⟨j0, hj0, rfl⟩ := List.mem_map.1 hj
  by_cases h0 : j0.id = i.id
  · exact ⟨j0, hj0, h0, by simp [h0]⟩
  · simp [h0] at hid

/-- A contribution that finds no slot marks its sum, fails the operation and stops the coach with SPILLFULL (R171, R210). -/
theorem spillFull (s : State) {k : Nat} (hk : k < 2048) (i : Inf) (arr m col g : Nat) :
    let t := ((s.groupAdded k i arr m col g).failOp k i.opn).seqFault k 3 i.pc
    SeqFaulted k 3 i.pc s t ∧ OnlyCoach k (faultFlds k) { s with reports := t.reports } t := by
  have hmark : ∀ L, OnlyCoach k L s ((s.groupAdded k i arr m col g).failOp k i.opn) := fun L =>
    (OnlyCoach.groupAdded s k i arr m col g).trans (OpsFrame.updOp _ k i.opn _).1
  have hfields : ((s.groupAdded k i arr m col g).failOp k i.opn).fields = s.fields := by cases h : i.opn <;> rfl
  refine ⟨(seqFaulted_seqFault _ k (by decide) i.pc).of_onlyCoach (hmark []) hfields, ?_⟩
  obtain ⟨hs, hf, hc⟩ := hmark (faultFlds k)
  obtain ⟨ht, hft, hct⟩ := OnlyCoach.seqFault ((s.groupAdded k i arr m col g).failOp k i.opn) hk 3 i.pc
  refine ⟨ht.trans ?_, SameFields.trans hf hft, fun j hj => (hct j hj).trans (hc j hj)⟩
  generalize (((s.groupAdded k i arr m col g).failOp k i.opn).seqFault k 3 i.pc) = t
  rw [hs]

/-- BANK_CONTRIBUTION of a group sum. -/
theorem exec_bankContribution_group {k : Coach} {p : Nat} {arr : Fin 4} {row : Fin 256} {col : Fin 128} {g : Fin 4} {i : Inf} {s : State}
    (hstill : s.coachStill = false) (hp : (s.coach k).passes[p]? = some i) :
    exec (.bankContribution k (.group p arr row col g)) s = .next (s.addGroup k i arr row col g) := by
  change execBankContribution k (.group p arr row col g) s = _
  simp [execBankContribution, hstill, hp, ok]

/-! ### Rows (R155, R160, R259) -/

/-- State `t` is `s` after reads from streams of coach `k`: every half still holds what it received. -/
def StreamRead (k : Nat) (s t : State) : Prop :=
  t = { s with coaches := t.coaches } ∧ (∀ j, j ≠ k → t.coach j = s.coach j) ∧ t.coach k = { s.coach k with strm := (t.coach k).strm } ∧
    ∀ n, (t.strm k n).recv = (s.strm k n).recv

/-- Nothing is read. -/
theorem StreamRead.refl (k : Nat) (s : State) : StreamRead k s s := ⟨rfl, fun _ _ => rfl, rfl, fun _ => rfl⟩

/-- One read after another. -/
theorem StreamRead.trans {k : Nat} {s t u : State} (a : StreamRead k s t) (b : StreamRead k t u) : StreamRead k s u := by
  obtain ⟨ha, hja, hca, hra⟩ := a
  obtain ⟨hb, hjb, hcb, hrb⟩ := b
  refine ⟨hb.trans ?_, fun j hj => (hjb j hj).trans (hja j hj), hcb.trans ?_, fun n => (hrb n).trans (hra n)⟩
  · rw [ha]
  · rw [hca]

/-- Reads change their coach alone. -/
theorem StreamRead.onlyCoach {k : Nat} {s t : State} (a : StreamRead k s t) (L : List (Fld × Nat × Nat)) : OnlyCoach k L s t := by
  obtain ⟨ht, hj, -, -⟩ := a
  have hf : t.fields = s.fields := by rw [ht]
  refine ⟨?_, .of_eq hf, hj⟩
  rw [hf]
  exact ht

/-- A stream's bookkeeping after a change of one. -/
theorem State.strm_updStrm (s : State) (k n m : Nat) (f : Strm → Strm) : (s.updStrm k n f).strm k m = if m = n then f (s.strm k n) else s.strm k m := by
  rw [State.strm, State.updStrm, State.coach_updCoach_same]
  exact mget_mupd {} _ n f m

/-- Reading moves the consume pointer alone. -/
theorem StreamRead.consume (s : State) (k n len : Nat) : StreamRead k s (s.consume k n len) := by
  refine ⟨rfl, fun j hj => s.coach_setCoach_other _ hj, ?_, fun m => ?_⟩
  · rw [State.consume, State.updStrm, State.coach_updCoach_same]
  · rw [State.consume, State.strm_updStrm]
    split
    · next h => rw [h]
    · rfl

/-- Bytes that the half received are read as they stand. -/
theorem State.halfRead_received {s : State} {k n pos len : Nat} (h : pos + len ≤ (s.strm k n).recv) :
    s.halfRead k n pos len = (s.storeRead k (s.consBase k n + pos) len, s) := if_pos (by omega)

/-- Source row `q` of a pass has arrived. -/
def RowReceived (k : Nat) (i : Inf) (q : Nat) (s : State) : Prop :=
  ∀ st, srcStream i.w = some st → i.strBase + (q + 1) * passRowStream (iFmt i.w) ≤ (s.strm k st).recv

/-- A source row that has arrived is read as it stands, also after other reads, and its read moves a consume pointer alone. -/
theorem StreamRead.passRowBytes {k q : Nat} {i : Inf} {s t : State} (h : StreamRead k s t) (hq : RowReceived k i q s) :
    (t.passRowBytes k i q).1 = (s.passRowBytes k i q).1 ∧ (t.passRowBytes k i q).2.1 = (s.passRowBytes k i q).2.1 ∧
      StreamRead k s (t.passRowBytes k i q).2.2 := by
  obtain ⟨ht, -, -, hrecv⟩ := id h
  have hstore : ∀ a n, t.storeRead k a n = s.storeRead k a n := fun a n => by rw [ht]; rfl
  have hbase : ∀ n, t.consBase k n = s.consBase k n := fun n => by rw [ht]; rfl
  cases hst : srcStream i.w with
  | none => simpa only [State.passRowBytes, hst, hstore, true_and] using h
  | some st =>
    have hpos : i.strBase + q * passRowStream (iFmt i.w) + passRowStream (iFmt i.w) ≤ (s.strm k st).recv := by
      have := hq st hst
      rwa [Nat.succ_mul, ← Nat.add_assoc] at this
    simpa only [State.passRowBytes, hst, State.halfRead_received hpos, State.halfRead_received (s := t) ((hrecv st).symm ▸ hpos), hstore, hbase, true_and]
      using h.trans (.consume t k st _)

/-- One selected array takes its row: the state, the rows held and the flushed codes counted after it. -/
def rowStep (k : Nat) (i : Inf) (md : NumMode) (acc : State × SMap ActRow × Nat) (aj : Nat × Nat) : State × SMap ActRow × Nat :=
  let r := acc.1.passRowBytes k i (i.rowsIn * (iArrays i.w).length + aj.2)
  let a := actRow md i.w r.1 r.2.1
  (r.2.2, mset {} acc.2.1 (i.rowsIn * 4 + aj.1) a.1, acc.2.2 + a.2)

/-- What array takes as row, the `j`-th of the selected ones. -/
def State.rowTaken (s : State) (k : Nat) (i : Inf) (j : Nat) : ActRow :=
  (actRow (s.modeOf k i.opn) i.w (s.passRowBytes k i (i.rowsIn * (iArrays i.w).length + j)).1
    (s.passRowBytes k i (i.rowsIn * (iArrays i.w).length + j)).2.1).1

/-- The arrays take their rows from what has arrived. -/
theorem foldl_rowStep {k : Nat} {i : Inf} {s : State} (l : List (Nat × Nat)) (acc : State × SMap ActRow × Nat) (h : StreamRead k s acc.1)
    (hl : ∀ x ∈ l, RowReceived k i (i.rowsIn * (iArrays i.w).length + x.2) s) :
    StreamRead k s (l.foldl (rowStep k i (s.modeOf k i.opn)) acc).1 ∧
      (l.foldl (rowStep k i (s.modeOf k i.opn)) acc).2.1 = l.foldl (fun r x => mset {} r (i.rowsIn * 4 + x.1) (s.rowTaken k i x.2)) acc.2.1 := by
  induction l generalizing acc with
  | nil => exact ⟨h, rfl⟩
  | cons x l ih =>
    obtain ⟨hx, hl⟩ := List.forall_mem_cons.1 hl
    obtain ⟨hbytes, hscales, hnext⟩ := h.passRowBytes hx
    obtain ⟨hread, hrows⟩ := ih (rowStep k i (s.modeOf k i.opn) acc x) hnext hl
    refine ⟨hread, hrows.trans ?_⟩
    rw [List.foldl_cons, rowStep, hbytes, hscales]
    rfl

/-- Entries written one after another under keys of their own. -/
theorem mget_foldl_mset {l : List (Nat × Nat)} {m : Nat} (val : Nat → ActRow) (hd : (l.map (·.1)).Nodup) (rows : SMap ActRow) :
    (∀ x ∈ l, mget {} (l.foldl (fun r x => mset {} r (m + x.1) (val x.2)) rows) (m + x.1) = val x.2) ∧
      ∀ q, (∀ x ∈ l, q ≠ m + x.1) → mget {} (l.foldl (fun r x => mset {} r (m + x.1) (val x.2)) rows) q = mget {} rows q := by
  induction l generalizing rows with
  | nil => exact ⟨fun _ h => absurd h List.not_mem_nil, fun _ _ => rfl⟩
  | cons y l ih =>
    obtain ⟨hy, hd⟩ := List.nodup_cons.1 hd
    obtain ⟨hin, hout⟩ := ih hd (mset {} rows (m + y.1) (val y.2))
    refine ⟨List.forall_mem_cons.2 ⟨?_, hin⟩, fun q hq => ?_⟩
    · exact (hout _ (fun x hx e => hy (List.mem_map.2 ⟨x, hx, Nat.add_left_cancel e.symm⟩))).trans (mget_mset_same _ _ _ _)
    · obtain ⟨hqy, hq⟩ := List.forall_mem_cons.1 hq
      exact (hout q hq).trans (mget_mset_other _ hqy)

/-- The rows of every selected array have been taken, with the flushed codes `n`, over `cyc` cycles. -/
def State.rowCounted (s : State) (k : Nat) (i : Inf) (n cyc : Nat) : State :=
  if (iArrays i.w).length == 0 then s else (s.count k i.opn 0 n 0).wrapAdd ARR_INCYC_INCYC k 0 cyc

/-- Every selected array takes its row; then the cycles and flushed codes are counted, and the pass holds the rows. -/
theorem State.rowEnter_eq (s : State) (k : Nat) (i : Inf) : ∃ cyc, s.rowEnter k i =
    let r := (iArrays i.w).zipIdx.foldl (rowStep k i (s.modeOf k i.opn)) (s, i.rows, 0)
    (r.1.rowCounted k i r.2.2 cyc).updCoach k (fun c => c.mapInf i.id (fun j => { j with rows := r.2.1, rowsIn := j.rowsIn + 1 })) := ⟨_, rfl⟩

/-- Counting a row changes the counts of its coach alone. -/
theorem OpsFrame.rowCounted (s : State) {k : Nat} (hk : k < 2048) (i : Inf) (n cyc : Nat) :
    OpsFrame k [(ARR_INCYC_INCYC, k, 0), (NUMSTAT_FLUSHED, k, 0), (NUM_FLUSHTOT_FLUSHTOT, k, 0)] s (s.rowCounted k i n cyc) :=
  .ite (fun _ => .refl k _ s) (fun _ => (OpsFrame.count s hk i.opn (fun h => absurd rfl h) (fun _ => by simp [flushFlds]) (fun h => absurd rfl h)).trans
    (.setFld _ k _ (by decide +kernel) hk (by simp)))

/-- The selected arrays are different ones. -/
theorem nodup_iArrays (w : Nat) : (iArrays w).Nodup := List.nodup_range.filter _

/-- The rows that have arrived enter (R155, R160). -/
theorem rowEnter_received {k : Nat} (hk : k < 2048) {i : Inf} {s : State}
    (hrecv : ∀ st, srcStream i.w = some st → i.strBase + (i.rowsIn + 1) * (iArrays i.w).length * passRowStream (iFmt i.w) ≤ (s.strm k st).recv) :
    ∃ rows, ((s.rowEnter k i).coach k).flight = (s.coach k).flight.map (fun j => if j.id == i.id then { j with rows := rows, rowsIn := j.rowsIn + 1 } else j) ∧
      (∀ j a, (iArrays i.w)[j]? = some a → mget {} rows (i.rowsIn * 4 + a) = s.rowTaken k i j) ∧
      (∀ q, q / 4 ≠ i.rowsIn → mget {} rows q = mget {} i.rows q) ∧
      OnlyCoach k [(ARR_INCYC_INCYC, k, 0), (NUMSTAT_FLUSHED, k, 0), (NUM_FLUSHTOT_FLUSHTOT, k, 0)] s (s.rowEnter k i) := by
  have hrow : ∀ x ∈ (iArrays i.w).zipIdx, RowReceived k i (i.rowsIn * (iArrays i.w).length + x.2) s := fun x hx st hst => by
    refine le_trans (Nat.add_le_add_left (Nat.mul_le_mul_right _ ?_) _) (hrecv st hst)
    have := List.snd_lt_of_mem_zipIdx hx
    rw [Nat.succ_mul]
    omega
  have hmap : ((iArrays i.w).zipIdx.map (·.1)).Nodup := by rw [List.zipIdx_map_fst]; exact nodup_iArrays i.w
  obtain ⟨cyc, heq⟩ := s.rowEnter_eq k i
  obtain ⟨hread, hrows⟩ := foldl_rowStep (iArrays i.w).zipIdx (s, i.rows, 0) (.refl k s) hrow
  obtain ⟨hin, hout⟩ := mget_foldl_mset (m := i.rowsIn * 4) (s.rowTaken k i) hmap i.rows
  set r := (iArrays i.w).zipIdx.foldl (rowStep k i (s.modeOf k i.opn)) (s, i.rows, 0)
  have hcnt := OpsFrame.rowCounted r.1 hk i r.2.2 cyc
  refine ⟨r.2.1, ?_, fun j a ha => ?_, fun q hq => ?_, ?_⟩
  · obtain ⟨-, -, hcoach, -⟩ := hread
    rw [heq, State.coach_updCoach_same, hcnt.2, hcoach]
    rfl
  · rw [hrows]
    exact hin (a, j) (List.mk_mem_zipIdx_iff_getElem?.2 ha)
  · rw [hrows]
    refine hout q (fun x hx e => hq ?_)
    have := lt_four_of_mem_iArrays (List.fst_mem_of_mem_zipIdx hx)
    omega
  · rw [heq]
    exact ((hread.onlyCoach _).trans hcnt.1).trans (.updCoach _ k _)

/-- PASS_ROW_ENTER in the input period of a pass. -/
theorem exec_passRowEnter {k : Coach} {i : Inf} {s : State} (hi : (s.coach k).inputPass = some i) (hstill : s.coachStill = false) :
    exec (.passRowEnter k) s = .next (s.rowEnter k i) := by
  change execPassRowEnter k s = _
  simp [execPassRowEnter, hstill, hi, ok]

/-! ### The end of a pass (R161) -/

/-- An instruction that has finished its own work has left, or waits for its record (R186). -/
theorem finished_finishInf (s : State) (k : Nat) (i : Inf) : ∀ j ∈ ((s.finishInf k i).coach k).flight, j.id = i.id → j.finished = true := by
  intro j hj hid
  simp only [State.finishInf, State.coach_updCoach_same] at hj
  split at hj
  · obtain ⟨j0, -, rfl⟩ := List.mem_map.1 hj
    by_cases h0 : j0.id = i.id
    · simp [h0]
    · simp [h0] at hid
  · simp [hid] at hj

/-- The end of a coach's part of a work order leaves what is in flight alone. -/
theorem State.flight_settleEnd (s : State) (k : Nat) : ((s.settleEnd k).coach k).flight = (s.coach k).flight := by
  rcases s.settleEnd_cases k with h | h <;> rw [h]
  simp [State.passedEnd]

/-- PASS_COMPLETE of a pass whose rows have all entered and whose sums have all been added. -/
theorem exec_passComplete {k : Coach} {i : Inf} {s : State} (hi : (s.coach k).passes.find? (fun i => !i.finished) = some i) (hstill : s.coachStill = false)
    (hrows : i.rowsIn = iM i.w) (hsums : i.nAdded = passTotal i.w) :
    exec (.passComplete k) s = .next (((s.finishInf k i).bump ARR_PASSES_PASSES k 0 1).settleEnd k) := by
  change execPassComplete k s = _
  simp [execPassComplete, hstill, hi, hrows, hsums, ok]

/-- Settles O23, by the three rows of the statement: a row that enters, a group sum that arrives, and the end of a pass. -/
theorem passesEnterRowsAndAddGroupSums : Obligations.PassesEnterRowsAndAddGroupSums := by
  unfold Obligations.PassesEnterRowsAndAddGroupSums
  refine ⟨fun k i s hi hstill hrecv => ?_, fun k p arr row col g i a v e s hstill hp harr hrow hg hnew hearlier ha he hbank hfree hv => ?_,
    fun k i s hi hstill hrows hsums => ?_⟩
  · obtain ⟨rows, h⟩ := rowEnter_received (k.isLt.trans (by decide)) hrecv
    exact ⟨_, rows, exec_passRowEnter hi hstill, h⟩
  · have hk : k.val < 2048 := k.isLt.trans (by decide)
    have hlt : e < 131072 := he ▸ entryIx_lt arr.isLt hbank col.isLt
    obtain ⟨b, hb, hcon⟩ := State.contribute_eq hlt hfree
    have hexec := (exec_bankContribution_group hstill hp).trans (congrArg _ (State.addGroup_eq hearlier harr hrow hg hnew ha))
    rw [← he, hcon, ← hv] at hexec
    by_cases hroom : spillSlot (s.bankWord k e) ≠ none ∨ fitsShort v.v = true ∨ s.freeSlot k ≠ none
    · obtain ⟨t, ht, hcontr, hflight, honly⟩ := putEntry_contributed hk hlt hb hroom
      rw [ht, Option.elim_some] at hexec
      exact ⟨_, hexec, fun _ => ⟨hcontr.updCoach _, nAdded_groupAdded hflight i arr row col g, honly.trans (.groupAdded t k i arr row col g)⟩,
        fun hsp hlong hfull => absurd hroom (by simp [hsp, hlong, hfull])⟩
    · obtain ⟨hsp, hlong, hfull⟩ := by simpa only [not_or, not_not, Bool.not_eq_true] using hroom
      rw [putEntry_refused hb hsp hlong hfull, Option.elim_none] at hexec
      exact ⟨_, hexec, fun h => absurd h hroom, fun _ _ _ => spillFull s hk i arr row col g⟩
  · have hk : k.val < 2048 := k.isLt.trans (by decide)
    refine ⟨_, exec_passComplete hi hstill hrows hsums, ?_, ?_, ?_⟩
    · refine (State.fld_settleEnd _ k k 0 (by decide) (by decide)).trans ((State.fld_setFld_same _ ARR_PASSES_PASSES k 0 _).trans ?_)
      exact Nat.mod_eq_of_lt (Nat.lt_of_le_of_lt (Nat.min_le_left _ _) (by decide))
    · rw [State.flight_settleEnd]
      exact finished_finishInf s k i
    · exact ((OnlyCoach.updCoach s k _).trans (.setFld _ k _ (by decide +kernel) hk (by simp))).trans (.settleEnd _ hk (by simp) (by simp))

end Sys2Proof.Machine
end

section
/-! SUPPORT. Laws of the control instructions: how one completes, waits, and passes COA_PC (R177, R179, R186, R203 to R206). -/

namespace Sys2Proof.Machine

/-! ### Completion of a control instruction (R179, R186) -/

/-- CLOSE of a control instruction, where it has it. -/
def State.closeCtl (s : State) (k w pc : Nat) : State := if iClose w then s.closeFor k (2 ^ 40) pc (iStatSel w) true else s

/-- A control instruction below index 1,023 completes: CLOSE, and COA_PC passes it or takes its target. -/
theorem State.controlDone_next {pc : Nat} (h : pc < 1023) (s : State) (k w : Nat) (br : Option Nat) :
    s.controlDone k w pc br = (s.closeCtl k w pc).setFld COA_PC_PC k 0 (br.getD (pc + 1)) := by
  cases br with
  | some t => rfl
  | none => exact if_neg (by rw [beq_iff_eq]; omega)

/-- CLOSE leaves every field but COA_SEQ alone. -/
theorem State.fld_closeFor (s : State) {f : Fld} (k id pc sel : Nat) (done : Bool) (u i : Nat) (h : f.idx % 1024 ≠ COA_SEQ_SEQ.idx % 1024) :
    (s.closeFor k id pc sel done).fld f u i = s.fld f u i := by
  cases ho : (s.coach k).openOp with
  | none => rw [State.closeFor_none ho]
  | some o => rw [State.closeFor_some ho]; exact State.fld_setFld_idx _ u i k 0 _ h

/-- CLOSE of a control instruction leaves every field but COA_SEQ alone. -/
theorem State.fld_closeCtl (s : State) {f : Fld} (k w pc u i : Nat) (h : f.idx % 1024 ≠ COA_SEQ_SEQ.idx % 1024) :
    (s.closeCtl k w pc).fld f u i = s.fld f u i := by
  unfold State.closeCtl
  split
  · exact s.fld_closeFor k _ pc _ true u i h
  · rfl

/-- The completion of a control instruction leaves every field but COA_PC and COA_SEQ alone. -/
theorem State.fld_controlDone (s : State) {f : Fld} (k w : Nat) {pc : Nat} (h : pc < 1023) (br : Option Nat) (u i : Nat)
    (hp : f.idx % 1024 ≠ COA_PC_PC.idx % 1024) (hs : f.idx % 1024 ≠ COA_SEQ_SEQ.idx % 1024) : (s.controlDone k w pc br).fld f u i = s.fld f u i := by
  rw [State.controlDone_next h]
  exact (State.fld_setFld_idx _ u i k 0 _ hp).trans (s.fld_closeCtl k w pc u i hs)

/-- COA_PC after a control instruction: its target, or the next index. -/
theorem State.pc_controlDone (s : State) (k w : Nat) {pc : Nat} (h : pc < 1023) {br : Option Nat} (hbr : br.getD (pc + 1) < 1024) :
    (s.controlDone k w pc br).fld COA_PC_PC k = br.getD (pc + 1) := by
  rw [State.controlDone_next h]
  exact (State.fld_setFld_same _ COA_PC_PC k 0 _).trans (Nat.mod_eq_of_lt hbr)

/-- The completion of a control instruction changes the operations, COA_PC and COA_SEQ alone. -/
theorem OpsFrame.controlDone {L : List (Fld × Nat × Nat)} (s : State) {k : Nat} (hk : k < 2048) (w : Nat) {pc : Nat} (h : pc < 1023) (br : Option Nat)
    (hp : (COA_PC_PC, k, 0) ∈ L) (hs : (COA_SEQ_SEQ, k, 0) ∈ L) : OpsFrame k L s (s.controlDone k w pc br) := by
  rw [State.controlDone_next h]
  exact OpsFrame.trans (.ite (fun _ => .closeFor s hk hs _ pc _ true) (fun _ => .refl k L s)) (.setFld _ k _ (by decide +kernel) hk hp)

/-- A control instruction closes the open operation under its STATSEL where it has CLOSE, and leaves it where it has not. -/
theorem closedBy_controlDone {s u : State} {k : Nat} (w : Nat) (hc : u.coach k = s.coach k) (hs : u.fld COA_SEQ_SEQ k = s.fld COA_SEQ_SEQ k)
    (h : s.fld COA_PC_PC k < 1023) (br : Option Nat) : ClosedBy k w s (u.controlDone k w (s.fld COA_PC_PC k) br) := by
  rw [State.controlDone_next h]
  have hclosed : ClosedBy k w s (u.closeCtl k w (s.fld COA_PC_PC k)) := by
    unfold State.closeCtl
    cases hw : iClose w with
    | true => exact closedBy_closeFor hc hs hw
    | false => exact ⟨fun _ => ⟨congrArg CoachS.ops hc, hs⟩, fun _ hn => absurd (hw.symm.trans hn) Bool.false_ne_true⟩
  exact hclosed.of_eq rfl (State.fld_setFld_idx _ k 0 k 0 _ (by decide))

/-! ### Issue of a control instruction (R177, R179) -/

/-- An instruction of no unit finds room wherever it issues. -/
theorem QueueRoom.of_control {k op : Nat} {s : State} (h : unitOf op = none) : QueueRoom k op s := fun u hu => absurd (h.symm.trans hu) (by simp)

/-- A control instruction that issues is acted on at once. -/
theorem State.issueOp_control {s : State} {k op : Nat} (h : IssueReady k op s) (hu : unitOf op = none) (act : Nat → Nat → State → State) :
    s.issueOp k op act = act (s.atPc k) (s.fld COA_PC_PC k) s := by
  obtain ⟨hi, hop, hb, -⟩ := h
  exact State.issueOp_issues hi hop (.of_control hu) hb act

/-- FENCE holds no instruction back where it is not set or nothing is in flight. -/
theorem fence_met {w : Nat} {l : List Inf} (h : iFence w = false ∨ l = []) : (iFence w && !l.isEmpty) = false := by
  rcases h with h | h <;> simp [h]

/-- The instruction at COA_PC is counted as issued. -/
def State.counted (s : State) (k : Nat) : State := s.wrapAdd COA_ISSUED_ISSUED k 0 1

/-- Counting an issue leaves every other field alone. -/
theorem State.fld_counted (s : State) {f : Fld} (k u i : Nat) (h : f.idx % 1024 ≠ COA_ISSUED_ISSUED.idx % 1024) : (s.counted k).fld f u i = s.fld f u i :=
  s.fld_setFld_idx u i k 0 _ h

/-- The count of issued instructions goes up, and wraps. -/
theorem State.issued_counted (s : State) (k : Nat) : (s.counted k).fld COA_ISSUED_ISSUED k = (s.fld COA_ISSUED_ISSUED k + 1) % 2 ^ 64 :=
  s.fld_setFld_same COA_ISSUED_ISSUED k 0 _

/-- Counting an issue leaves the coaches' parts alone. -/
@[simp] theorem State.coach_counted (s : State) (k j : Nat) : (s.counted k).coach j = s.coach j := rfl

/-- Counting an issue changes COA_ISSUED alone. -/
theorem OnlyFields.counted {L : List (Fld × Nat × Nat)} (s : State) {k : Nat} (hk : k < 2048) (h : (COA_ISSUED_ISSUED, k, 0) ∈ L) :
    OnlyFields L s (s.counted k) := .setFld s _ (by decide +kernel) hk h

/-- A control instruction whose FENCE is met has its effect, and completes. -/
theorem State.issueControl_ready {s : State} {k op : Nat} (h : IssueReady k op s) (hu : unitOf op = none)
    (hf : iFence (s.atPc k) = false ∨ (s.coach k).flight = []) (act : Nat → State → State × Option Nat) :
    s.issueControl k op act =
      (act (s.atPc k) (s.counted k)).1.controlDone k (s.atPc k) (s.fld COA_PC_PC k) (act (s.atPc k) (s.counted k)).2 := by
  rw [State.issueControl, State.issueOp_control h hu]
  exact if_neg (by rw [fence_met hf]; exact Bool.false_ne_true)

end Sys2Proof.Machine
end

section
/-! Control instructions that complete at issue: settles O12. -/

namespace Sys2Proof.Machine

/-- What SETNUM writes. -/
def setnumFlds (w : Nat) : List (Fld × Nat) :=
  [(NUMCTL_DNZ, fieldOf w 1 0 1), (NUMCTL_FORERUN, fieldOf w 1 1 1), (NUMCTL_SATFINITE, fieldOf w 1 2 1), (NUMCTL_NANTRAP, fieldOf w 1 3 1)]

/-- SETNUM writes fields with indices of their own. -/
theorem setnumFlds_idx (w : Nat) : (setnumFlds w).map (·.1.idx % 1024) = [9, 10, 11, 12] := rfl

/-- NOP has no effect of its own. -/
theorem exec_nop {k : Coach} {s : State} (h : IssueReady k 0 s) (hf : iFence (s.atPc k) = false ∨ (s.coach k).flight = []) :
    exec (.nop k) s = .next ((s.counted k).controlDone k (s.atPc k) (s.fld COA_PC_PC k) none) :=
  congrArg ok (State.issueControl_ready h rfl hf _)

/-- SETNUM writes the four bits of NUMCTL. -/
theorem exec_setnum {k : Coach} {s : State} (h : IssueReady k 9 s) (hf : iFence (s.atPc k) = false ∨ (s.coach k).flight = []) :
    exec (.setnum k) s = .next (((s.counted k).setFlds k 0 (setnumFlds (s.atPc k))).controlDone k (s.atPc k) (s.fld COA_PC_PC k) none) :=
  congrArg ok (State.issueControl_ready h rfl hf _)

/-- SETSP writes a status pointer. -/
theorem exec_setsp {k : Coach} {s : State} (h : IssueReady k 0xA s) (hf : iFence (s.atPc k) = false ∨ (s.coach k).flight = []) :
    exec (.setsp k) s = .next (((s.counted k).setFld COA_SP_ADDR k (fieldOf (s.atPc k) 0 21 2) (fieldOf (s.atPc k) 1 0 23)).controlDone k (s.atPc k)
      (s.fld COA_PC_PC k) none) :=
  congrArg ok (State.issueControl_ready h rfl hf _)

/-- SETC writes a loop counter. -/
theorem exec_setc {k : Coach} {s : State} (h : IssueReady k 0xB s) (hf : iFence (s.atPc k) = false ∨ (s.coach k).flight = []) :
    exec (.setc k) s = .next (((s.counted k).setFld COA_LOOP_COUNT k (fieldOf (s.atPc k) 0 21 2) (fieldOf (s.atPc k) 1 0 32)).controlDone k (s.atPc k)
      (s.fld COA_PC_PC k) none) :=
  congrArg ok (State.issueControl_ready h rfl hf _)

/-- LOOP's counter takes 1 off; at zero it stays. -/
def State.loopCounted (s : State) (k n v : Nat) : State := if v = 0 then s.counted k else (s.counted k).setFld COA_LOOP_COUNT k n (v - 1)

/-- LOOP takes 1 off its counter, and branches where it was above 1. -/
theorem exec_loop {k : Coach} {s : State} (h : IssueReady k 0xC s) (hf : iFence (s.atPc k) = false ∨ (s.coach k).flight = []) {v : Nat}
    (hv : v = s.fld COA_LOOP_COUNT k (fieldOf (s.atPc k) 0 21 2)) :
    exec (.loop k) s = .next ((s.loopCounted k (fieldOf (s.atPc k) 0 21 2) v).controlDone k (s.atPc k) (s.fld COA_PC_PC k)
      (if 2 ≤ v then some (fieldOf (s.atPc k) 1 0 10) else none)) := by
  have hcnt : (s.counted k).fld COA_LOOP_COUNT k (fieldOf (s.atPc k) 0 21 2) = v := hv ▸ s.fld_counted k k _ (by decide)
  refine congrArg ok ((State.issueControl_ready h rfl hf _).trans ?_)
  simp only [hcnt]
  match v with
  | 0 => rfl
  | 1 => rfl
  | v + 2 => simp [State.loopCounted]

/-- LOOP changes its counter alone. -/
theorem OnlyFields.loopCounted (s : State) {k : Nat} (hk : k < 2048) (n v : Nat) :
    OnlyFields [(COA_LOOP_COUNT, k, n)] (s.counted k) (s.loopCounted k n v) := by
  unfold State.loopCounted
  split
  · exact .refl _ _
  · exact .setFld _ _ (by decide +kernel) hk (List.mem_singleton_self _)

/-- Fields beside LOOP's counter. -/
theorem State.fld_loopCounted (s : State) {f : Fld} (k n v u i : Nat) (h : f.idx % 1024 ≠ COA_LOOP_COUNT.idx % 1024) :
    (s.loopCounted k n v).fld f u i = (s.counted k).fld f u i := by
  unfold State.loopCounted
  split
  · rfl
  · exact State.fld_setFld_idx _ u i k n _ h

/-- LOOP's counter. -/
theorem State.loop_loopCounted {s : State} {k n v : Nat} (hv : v = s.fld COA_LOOP_COUNT k n) (h : v < 2 ^ 32) :
    (s.loopCounted k n v).fld COA_LOOP_COUNT k n = v - 1 := by
  unfold State.loopCounted
  split
  · next h0 => rw [s.fld_counted k k n (by decide), ← hv, h0]
  · exact (State.fld_setFld_same _ COA_LOOP_COUNT k n _).trans (Nat.mod_eq_of_lt (by simp only [COA_LOOP_COUNT]; omega))

/-- The fields that a control instruction with an effect on `L` changes. -/
def ctlFlds (k : Nat) (L : List (Fld × Nat × Nat)) : List (Fld × Nat × Nat) := (COA_PC_PC, k, 0) :: (COA_ISSUED_ISSUED, k, 0) :: (COA_SEQ_SEQ, k, 0) :: L

/-- What a control instruction leaves whose effect on the counted state changes fields of `L` alone. -/
theorem controlDone_frame {L : List (Fld × Nat × Nat)} {k : Coach} {s u : State} (hu : OnlyFields L (s.counted k) u) (hs : COA_SEQ_SEQ ∉ L.map (·.1))
    (h : s.fld COA_PC_PC k < 1023) (w : Nat) (br : Option Nat) :
    ClosedBy k w s (u.controlDone k w (s.fld COA_PC_PC k) br) ∧
      (u.controlDone k w (s.fld COA_PC_PC k) br).coach k = { s.coach k with ops := ((u.controlDone k w (s.fld COA_PC_PC k) br).coach k).ops } ∧
      OnlyCoach k (ctlFlds k L) s (u.controlDone k w (s.fld COA_PC_PC k) br) := by
  have hk : k.val < 2048 := k.isLt.trans (by decide)
  have hc : u.coach k = s.coach k := by rw [hu.1]; rfl
  have hseq : u.fld COA_SEQ_SEQ k = s.fld COA_SEQ_SEQ k := (hu.2 _ (by decide +kernel) k 0 hk (fun hm => hs (List.mem_map_of_mem (f := (·.1)) hm))).trans (s.fld_counted k k 0 (by decide))
  obtain ⟨honly, hcoach⟩ := OpsFrame.controlDone (L := ctlFlds k L) u hk w h br (by simp [ctlFlds]) (by simp [ctlFlds])
  rw [hc] at hcoach
  have hstep : OnlyFields (ctlFlds k L) (s.counted k) u := ⟨hu.1, hu.2.mono (fun x hx => by simp [ctlFlds, hx])⟩
  exact ⟨closedBy_controlDone w hc hseq h br, hcoach, (((OnlyFields.counted s hk (by simp [ctlFlds])).trans hstep).onlyCoach k).trans honly⟩

/-- A control instruction that takes no branch is passed. -/
theorem passedOn_controlDone {L : List (Fld × Nat × Nat)} {k : Coach} {s u : State} (hu : SameFields L (s.counted k) u)
    (hi : COA_ISSUED_ISSUED ∉ L.map (·.1)) (h : s.fld COA_PC_PC k < 1023) (w : Nat) : PassedOn k s (u.controlDone k w (s.fld COA_PC_PC k) none) := by
  have hissued : u.fld COA_ISSUED_ISSUED k = (s.fld COA_ISSUED_ISSUED k + 1) % 2 ^ 64 :=
    (hu _ (by decide +kernel) k 0 (k.isLt.trans (by decide)) (fun hm => hi (List.mem_map_of_mem (f := (·.1)) hm))).trans (s.issued_counted k)
  exact ⟨u.pc_controlDone k w h (Nat.succ_lt_succ h), (u.fld_controlDone k w h none k 0 (by decide) (by decide)).trans hissued⟩

/-- A field of an instruction has the bits of its width. -/
theorem fieldOf_lt (w a lo n : Nat) : fieldOf w a lo n < 2 ^ n := Nat.mod_lt _ (Nat.two_pow_pos n)

/-- A field written by a control instruction reads as written. -/
theorem fld_controlDone_setFld (s : State) {f : Fld} (k i w : Nat) {pc v : Nat} (h : pc < 1023) (hp : f.idx % 1024 ≠ 31) (hs : f.idx % 1024 ≠ 32)
    (hv : v < 2 ^ f.w) : ((s.setFld f k i v).controlDone k w pc none).fld f k i = v :=
  (State.fld_controlDone _ k w h none k i hp hs).trans ((s.fld_setFld_same f k i v).trans (Nat.mod_eq_of_lt hv))

/-- The bits of NUMCTL that SETNUM writes. -/
theorem fld_controlDone_setnum (s : State) {f : Fld} {k w v : Nat} {pc : Nat} (h : pc < 1023) (hm : (f, v) ∈ setnumFlds w) (hv : v < 2 ^ f.w) :
    ((s.setFlds k 0 (setnumFlds w)).controlDone k w pc none).fld f k = v := by
  have hidx : f.idx % 1024 ∈ [9, 10, 11, 12] := setnumFlds_idx w ▸ List.mem_map_of_mem (f := (·.1.idx % 1024)) hm
  rw [State.fld_controlDone _ k w h none k 0 (fun e => absurd (e ▸ hidx) (by decide)) (fun e => absurd (e ▸ hidx) (by decide)),
    State.fld_setFlds_mem _ k 0 (by rw [setnumFlds_idx]; decide) hm, Nat.mod_eq_of_lt hv]

/-- Settles O12: each instruction's effect on the counted state, and then its completion. -/
theorem controlInstructionsCompleteAtIssue : Obligations.ControlInstructionsCompleteAtIssue := by
  unfold Obligations.ControlInstructionsCompleteAtIssue
  have hlt : ∀ k : Coach, k.val < 2048 := fun k => k.isLt.trans (by decide)
  refine ⟨fun k s h hf => ?_, fun k s h hf => ?_, fun k s h hf => ?_, fun k s h hf => ?_, fun k s v h hf hv hv32 => ?_⟩ <;>
    obtain ⟨-, -, -, hpc⟩ := id h
  · have hu := OnlyFields.refl [] (s.counted k)
    obtain ⟨hclose, hcoach, honly⟩ := controlDone_frame hu List.not_mem_nil hpc (s.atPc k) none
    exact ⟨_, exec_nop h hf, passedOn_controlDone hu.2 List.not_mem_nil hpc _, hclose, hcoach, honly⟩
  · have hu : OnlyFields [(NUMCTL_DNZ, k.val, 0), (NUMCTL_FORERUN, k.val, 0), (NUMCTL_SATFINITE, k.val, 0), (NUMCTL_NANTRAP, k.val, 0)] (s.counted k)
        ((s.counted k).setFlds k 0 (setnumFlds (s.atPc k))) := by
      refine .setFlds _ (hlt k) ?_
      simp only [setnumFlds, List.forall_mem_cons]
      exact ⟨⟨by decide +kernel, by simp⟩, ⟨by decide +kernel, by simp⟩, ⟨by decide +kernel, by simp⟩, ⟨by decide +kernel, by simp⟩,
        fun _ h => absurd h List.not_mem_nil⟩
    obtain ⟨hclose, hcoach, honly⟩ := controlDone_frame hu (by simp; decide) hpc (s.atPc k) none
    exact ⟨_, exec_setnum h hf, passedOn_controlDone hu.2 (by simp; decide) hpc _, hclose, hcoach,
      fld_controlDone_setnum _ hpc (by simp [setnumFlds]) (fieldOf_lt _ _ _ _), fld_controlDone_setnum _ hpc (by simp [setnumFlds]) (fieldOf_lt _ _ _ _),
      fld_controlDone_setnum _ hpc (by simp [setnumFlds]) (fieldOf_lt _ _ _ _), fld_controlDone_setnum _ hpc (by simp [setnumFlds]) (fieldOf_lt _ _ _ _),
      honly⟩
  · have hu : OnlyFields [(COA_SP_ADDR, k.val, fieldOf (s.atPc k) 0 21 2)] (s.counted k) _ :=
      .setFld _ (fieldOf (s.atPc k) 1 0 23) (by decide +kernel) (hlt k) (List.mem_singleton_self _)
    obtain ⟨hclose, hcoach, honly⟩ := controlDone_frame hu (by simp; decide) hpc (s.atPc k) none
    exact ⟨_, exec_setsp h hf, passedOn_controlDone hu.2 (by simp; decide) hpc _, hclose, hcoach,
      fld_controlDone_setFld _ k _ _ hpc (by decide) (by decide) (fieldOf_lt _ _ _ _), honly⟩
  · have hu : OnlyFields [(COA_LOOP_COUNT, k.val, fieldOf (s.atPc k) 0 21 2)] (s.counted k) _ :=
      .setFld _ (fieldOf (s.atPc k) 1 0 32) (by decide +kernel) (hlt k) (List.mem_singleton_self _)
    obtain ⟨hclose, hcoach, honly⟩ := controlDone_frame hu (by simp; decide) hpc (s.atPc k) none
    exact ⟨_, exec_setc h hf, passedOn_controlDone hu.2 (by simp; decide) hpc _, hclose, hcoach,
      fld_controlDone_setFld _ k _ _ hpc (by decide) (by decide) (fieldOf_lt _ _ _ _), honly⟩
  · have hu := OnlyFields.loopCounted s (hlt k) (fieldOf (s.atPc k) 0 21 2) v
    have hbr : (if 2 ≤ v then some (fieldOf (s.atPc k) 1 0 10) else none).getD (s.fld COA_PC_PC k + 1) =
        if 2 ≤ v then fieldOf (s.atPc k) 1 0 10 else s.fld COA_PC_PC k + 1 := by split <;> rfl
    have htop : (if 2 ≤ v then fieldOf (s.atPc k) 1 0 10 else s.fld COA_PC_PC k + 1) < 1024 := by
      split
      · exact fieldOf_lt _ _ _ 10
      · exact Nat.succ_lt_succ hpc
    obtain ⟨hclose, hcoach, honly⟩ := controlDone_frame hu (by simp; decide) hpc (s.atPc k) (if 2 ≤ v then some (fieldOf (s.atPc k) 1 0 10) else none)
    refine ⟨_, exec_loop h hf hv, hclose, hcoach, ?_, ?_, ?_, honly⟩
    · rw [State.fld_controlDone _ k _ hpc _ k 0 (by decide) (by decide), s.fld_loopCounted k _ _ k 0 (by decide), s.issued_counted]
    · rw [State.fld_controlDone _ k _ hpc _ k _ (by decide) (by decide), State.loop_loopCounted hv hv32]
    · rw [State.pc_controlDone _ k _ hpc (hbr ▸ htop), hbr]

end Sys2Proof.Machine
end

section
/-! Faults that stop issue: settles O13. -/

namespace Sys2Proof.Machine

/-- Where the coach does not issue, or another instruction stands at COA_PC, an issue row does nothing. -/
theorem State.issueOp_stays {s : State} {k op : Nat} (h : s.issuing k = false ∨ opOf (s.atPc k) ≠ op) (act : Nat → Nat → State → State) :
    s.issueOp k op act = s := if_pos (by simpa using h)

/-- An instruction that fails its check, where its unit's queue has room, is the fault BADFIELD (R209). -/
theorem State.issueOp_bad {s : State} {k op : Nat} (hi : s.issuing k = true) (ho : opOf (s.atPc k) = op) (hq : QueueRoom k op s)
    (hb : badField (s.atPc k) = true) (act : Nat → Nat → State → State) : s.issueOp k op act = s.seqFault k 2 (s.fld COA_PC_PC k) := by
  cases hu : unitOf op with
  | none => simp [State.issueOp, hi, ho, hb, hu]
  | some u => simp [State.issueOp, hi, ho, hb, hu, hq u hu]

/-- A coach stopped by a fault issues nothing. -/
theorem State.issuing_seqFault (s : State) (k code pc : Nat) : (s.seqFault k code pc).issuing k = false := by
  refine Bool.eq_false_iff.2 (fun h => ?_)
  obtain ⟨-, -, hhalt, -⟩ := State.issuing_iff.1 h
  rw [State.coach_seqFault] at hhalt
  exact Bool.false_ne_true hhalt.symm

/-- A fault found after an instruction was counted as issued. -/
theorem SeqFaulted.of_counted {k code pc : Nat} {s t : State} (h : SeqFaulted k code pc (s.counted k) t) : SeqFaulted k code pc s t := by
  have hbound : (s.counted k).boundCtx k = s.boundCtx k := by
    rw [State.boundCtx, State.flag, s.fld_counted k k 0 (by decide), s.fld_counted k k 0 (by decide)]
    rfl
  rwa [SeqFaulted, hbound, s.fld_counted (f := COA_FAULT_VALID) k k 0 (by decide), s.fld_counted (f := COA_FAULT_CODE) k k 0 (by decide),
    s.fld_counted (f := COA_FAULT_PC) k k 0 (by decide), s.fld_counted (f := COA_FAULT_CONTEXT) k k 0 (by decide),
    s.fld_counted (f := COA_ROLE_CONTEXT) k k 0 (by decide)] at h

/-- A fault found after an instruction was counted as issued changes the issue count beside what a fault changes. -/
theorem onlyCoach_counted_seqFault (s : State) {k : Nat} (hk : k < 2048) (code pc : Nat) :
    OnlyCoach k ((COA_ISSUED_ISSUED, k, 0) :: faultFlds k) { s with reports := ((s.counted k).seqFault k code pc).reports } ((s.counted k).seqFault k code pc) := by
  obtain ⟨ht, hf, hc⟩ := OnlyCoach.seqFault (s.counted k) hk code pc
  have hcnt : SameFields ((COA_ISSUED_ISSUED, k, 0) :: faultFlds k) s (s.counted k) := (OnlyFields.counted s hk List.mem_cons_self).2
  exact ⟨ht, SameFields.trans hcnt (hf.mono (List.subset_cons_self _ _)), hc⟩

/-- The issue rows that O13 names are issues of their opcode. -/
theorem exec_issueOp {c : Coach → Instr} {op : Nat} (h : (c, op) ∈ [(Instr.nop, 0), (.pass, 3), (.vadd, 0x48), (.endWorkOrder, 0xF)]) (k : Coach) (s : State) :
    ∃ act, exec (c k) s = .next (s.issueOp k op act) := by
  simp only [List.mem_cons, Prod.mk.injEq, List.not_mem_nil, or_false] at h
  rcases h with ⟨rfl, rfl⟩ | ⟨rfl, rfl⟩ | ⟨rfl, rfl⟩ | ⟨rfl, rfl⟩ <;> exact ⟨_, rfl⟩

/-- NOP at index 1,023 passes it: RUNOFF (R177). -/
theorem exec_nop_runoff {k : Coach} {s : State} (hi : s.issuing k = true) (ho : opOf (s.atPc k) = 0) (hb : badField (s.atPc k) = false)
    (hpc : s.fld COA_PC_PC k = 1023) (hf : iFence (s.atPc k) = false) (hc : iClose (s.atPc k) = false) :
    exec (.nop k) s = .next ((s.counted k).seqFault k 4 1023) := by
  refine congrArg ok ((State.issueOp_issues hi ho (.of_control rfl) hb _).trans ?_)
  simp [hf, State.controlDone, hc, State.advance, hpc, State.counted]

/-- Settles O13: each of the three faults is one `seqFault`, which stops the coach. -/
theorem sequencerFaultsStopIssue : Obligations.SequencerFaultsStopIssue := by
  unfold Obligations.SequencerFaultsStopIssue
  refine ⟨fun k s hi hop => ?_, fun k c op s hc hi ho hb hq => ?_, fun k s hi ho hb hpc hf hc => ?_⟩ <;>
    have hk : k.val < 2048 := k.isLt.trans (by decide)
  · refine ⟨s.seqFault k 1 (s.fld COA_PC_PC k), congrArg ok (if_pos (by simp [hi, hop])), seqFaulted_seqFault s k (by decide) _, .seqFault s hk 1 _,
      s.coach_seqFault k 1 _, congrArg ok (State.issueOp_stays (.inl (s.issuing_seqFault k 1 _)) _)⟩
  · obtain ⟨act, hexec⟩ := exec_issueOp hc k s
    exact ⟨_, hexec.trans (congrArg _ (State.issueOp_bad hi ho hq hb act)), seqFaulted_seqFault s k (by decide) _, .seqFault s hk 2 _,
      s.coach_seqFault k 2 _⟩
  · have honly := OnlyCoach.seqFault (s.counted k) hk 4 1023
    refine ⟨_, exec_nop_runoff hi ho hb hpc hf hc, (seqFaulted_seqFault _ k (by decide) 1023).of_counted, ?_, ?_⟩
    · refine (honly.2.1 COA_PC_PC (by decide +kernel) k 0 hk ?_).trans ((s.fld_counted k k 0 (by decide)).trans hpc)
      simp only [faultFlds, List.mem_cons, Prod.mk.injEq, List.not_mem_nil]
      decide
    · exact onlyCoach_counted_seqFault s hk 4 1023

end Sys2Proof.Machine
end

section
/-! SYNC: settles O14. -/

namespace Sys2Proof.Machine

/-- A SYNC whose counter has reached VALUE, and whose FENCE is met, takes it and completes (R205). -/
theorem State.syncTry_reached {s : State} {k w : Nat} (hv : fieldOf w 1 0 16 ≤ s.fld COA_SYNC_COUNT k (fieldOf w 0 21 4))
    (hf : iFence w = false ∨ (s.coach k).flight = []) (pc : Nat) : s.syncTry k w pc =
      some ((s.setFld COA_SYNC_COUNT k (fieldOf w 0 21 4) (s.fld COA_SYNC_COUNT k (fieldOf w 0 21 4) - fieldOf w 1 0 16)).controlDone k w pc none) := by
  rcases hf with hf | hf <;> simp [State.syncTry, hv, hf]

/-- A SYNC whose counter is smaller does not complete. -/
theorem State.syncTry_short {s : State} {k w : Nat} (hv : s.fld COA_SYNC_COUNT k (fieldOf w 0 21 4) < fieldOf w 1 0 16) (pc : Nat) :
    s.syncTry k w pc = none := by
  simp [State.syncTry, Nat.not_le.2 hv]

/-- The instruction that is held as a control instruction. -/
theorem State.coach_holdControl (s : State) (k w pc : Nat) : (s.holdControl k w pc).coach k =
    { s.coach k with ctrl := some { id := (s.coach k).nextId, w := w, pc := pc }, nextId := (s.coach k).nextId + 1 } := s.coach_updCoach_same k _

/-- A SYNC that issues with its counter short of VALUE is held, and its coach shows WAIT. -/
theorem exec_sync_short {k : Coach} {s : State} (h : IssueReady k 8 s)
    (hv : s.fld COA_SYNC_COUNT k (fieldOf (s.atPc k) 0 21 4) < fieldOf (s.atPc k) 1 0 16) :
    exec (.sync k) s = .next (((s.counted k).holdControl k (s.atPc k) (s.fld COA_PC_PC k)).setFld COA_STATE_STATE k 0 3) := by
  have hcnt : (s.counted k).fld COA_SYNC_COUNT k (fieldOf (s.atPc k) 0 21 4) < fieldOf (s.atPc k) 1 0 16 := by rwa [s.fld_counted k k _ (by decide)]
  have htry : (s.wrapAdd COA_ISSUED_ISSUED k 0 1).syncTry k (s.atPc k) (s.fld COA_PC_PC k) = none := State.syncTry_short hcnt _
  refine congrArg ok ((State.issueOp_control h rfl _).trans ?_)
  simp only [htry]
  rfl

/-- A SYNC that issues with its counter at VALUE takes it and completes. -/
theorem exec_sync_reached {k : Coach} {s : State} (h : IssueReady k 8 s) (hf : iFence (s.atPc k) = false ∨ (s.coach k).flight = [])
    (hv : fieldOf (s.atPc k) 1 0 16 ≤ s.fld COA_SYNC_COUNT k (fieldOf (s.atPc k) 0 21 4)) :
    exec (.sync k) s = .next (((s.counted k).setFld COA_SYNC_COUNT k (fieldOf (s.atPc k) 0 21 4)
      (s.fld COA_SYNC_COUNT k (fieldOf (s.atPc k) 0 21 4) - fieldOf (s.atPc k) 1 0 16)).controlDone k (s.atPc k) (s.fld COA_PC_PC k) none) := by
  have hcnt := s.fld_counted (f := COA_SYNC_COUNT) k k (fieldOf (s.atPc k) 0 21 4) (by decide)
  have htry := State.syncTry_reached (s := s.counted k) (hcnt ▸ hv) hf (s.fld COA_PC_PC k)
  rw [hcnt, State.counted] at htry
  refine congrArg ok ((State.issueOp_control h rfl _).trans ?_)
  simp only [htry]
  rfl

/-- SYNC_COMPLETE of a held SYNC whose counter is short of VALUE does nothing. -/
theorem exec_syncComplete_short {k : Coach} {s : State} {i : Inf} (hc : (s.coach k).ctrl = some i)
    (hv : s.fld COA_SYNC_COUNT k (fieldOf i.w 0 21 4) < fieldOf i.w 1 0 16) : exec (.syncComplete k) s = .next s := by
  change execSyncComplete k s = _
  simp [execSyncComplete, hc, State.syncTry_short hv, ok]

/-- The held control instruction has left. -/
def State.dropControl (s : State) (k : Nat) : State := s.updCoach k (fun c => { c with ctrl := none })

/-- A coach that shows WAIT shows RUN. -/
def State.waitToRun (s : State) (k : Nat) : State := if s.fld COA_STATE_STATE k == 3 then s.setFld COA_STATE_STATE k 0 2 else s

/-- What a SYNC leaves that takes its count. -/
def State.syncPassed (s : State) (k w pc : Nat) : State :=
  (s.setFld COA_SYNC_COUNT k (fieldOf w 0 21 4) (s.fld COA_SYNC_COUNT k (fieldOf w 0 21 4) - fieldOf w 1 0 16)).controlDone k w pc none

/-- SYNC_COMPLETE of a held SYNC whose counter has reached VALUE. -/
theorem exec_syncComplete_reached {k : Coach} {s : State} {i : Inf} (hc : (s.coach k).ctrl = some i) (ho : opOf i.w = 8) (hstill : s.coachStill = false)
    (hf : iFence i.w = false ∨ (s.coach k).flight = []) (hv : fieldOf i.w 1 0 16 ≤ s.fld COA_SYNC_COUNT k (fieldOf i.w 0 21 4)) :
    exec (.syncComplete k) s = .next (((s.syncPassed k i.w i.pc).dropControl k).waitToRun k) := by
  change execSyncComplete k s = _
  simp only [execSyncComplete, hstill, hc, ho, State.syncTry_reached hv hf]
  rfl

/-- The move from WAIT to RUN leaves every other field alone. -/
theorem State.fld_waitToRun (s : State) {f : Fld} (k u i : Nat) (h : f.idx % 1024 ≠ COA_STATE_STATE.idx % 1024) : (s.waitToRun k).fld f u i = s.fld f u i := by
  unfold State.waitToRun
  split
  · exact s.fld_setFld_idx u i k 0 2 h
  · rfl

/-- The move from WAIT to RUN. -/
theorem State.state_waitToRun (s : State) (k : Nat) :
    (s.waitToRun k).fld COA_STATE_STATE k = if s.fld COA_STATE_STATE k = 3 then 2 else s.fld COA_STATE_STATE k := by
  by_cases h : s.fld COA_STATE_STATE k = 3
  · rw [State.waitToRun, if_pos (beq_iff_eq.2 h), if_pos h]
    exact s.fld_setFld_same COA_STATE_STATE k 0 2
  · rw [State.waitToRun, if_neg (mt beq_iff_eq.1 h), if_neg h]

/-- The move from WAIT to RUN changes COA_STATE alone. -/
theorem OnlyFields.waitToRun {L : List (Fld × Nat × Nat)} (s : State) {k : Nat} (hk : k < 2048) (h : (COA_STATE_STATE, k, 0) ∈ L) :
    OnlyFields L s (s.waitToRun k) := by
  unfold State.waitToRun
  split
  · exact .setFld s 2 (by decide +kernel) hk h
  · exact .refl L s

/-- Settles O14: SYNC at issue with its count reached or short, and SYNC_COMPLETE of a held one. -/
theorem syncTakesItsCount : Obligations.SyncTakesItsCount := by
  unfold Obligations.SyncTakesItsCount
  refine ⟨fun k s h hf hv h32 => ?_, fun k s h hv => ?_, fun k i s hc ho hstill hpc hf hv h32 => ?_⟩ <;>
    have hk : k.val < 2048 := k.isLt.trans (by decide)
  · obtain ⟨-, -, -, hpc⟩ := id h
    have hu : OnlyFields [(COA_SYNC_COUNT, k.val, fieldOf (s.atPc k) 0 21 4)] (s.counted k) _ :=
      .setFld _ (s.fld COA_SYNC_COUNT k (fieldOf (s.atPc k) 0 21 4) - fieldOf (s.atPc k) 1 0 16) (by decide +kernel) hk (List.mem_singleton_self _)
    obtain ⟨hclose, -, honly⟩ := controlDone_frame hu (by simp; decide) hpc (s.atPc k) none
    exact ⟨_, exec_sync_reached h hf hv, passedOn_controlDone hu.2 (by simp; decide) hpc _, hclose,
      fld_controlDone_setFld _ k _ _ hpc (by decide) (by decide) ((Nat.sub_le _ _).trans_lt h32), honly⟩
  · refine ⟨_, exec_sync_short h hv, State.fld_setFld_same _ COA_STATE_STATE k 0 3, ?_, ?_, ?_⟩
    · rw [State.coach_setFld, State.coach_holdControl]
      rfl
    · exact (((OnlyFields.counted s hk (by simp)).onlyCoach k).trans (.updCoach _ k _)).trans (.setFld _ k 3 (by decide +kernel) hk (by simp))
    · refine exec_syncComplete_short (i := { id := (s.coach k).nextId, w := s.atPc k, pc := s.fld COA_PC_PC k }) ?_ ?_
      · rw [State.coach_setFld, State.coach_holdControl]
        rfl
      · rw [State.fld_setFld_idx _ k _ k 0 3 (by decide)]
        exact (s.fld_counted k k _ (by decide)).trans_lt hv
  · have hstate : ((s.syncPassed k i.w i.pc).dropControl k).fld COA_STATE_STATE k = s.fld COA_STATE_STATE k :=
      (State.fld_controlDone _ k i.w hpc none k 0 (by decide) (by decide)).trans (s.fld_setFld_idx k 0 k _ _ (by decide))
    refine ⟨_, exec_syncComplete_reached hc ho hstill hf hv, ?_, ?_, ?_, ?_, ?_⟩
    · rw [State.state_waitToRun, hstate]
    · have hcoach : ∀ u : State, ((u.dropControl k).waitToRun k).coach k = (u.dropControl k).coach k := fun u => by
        rw [(OnlyFields.waitToRun (L := [(COA_STATE_STATE, k.val, 0)]) (u.dropControl k) hk List.mem_cons_self).1]; rfl
      rw [hcoach, State.dropControl, State.coach_updCoach_same]
    · exact (State.fld_waitToRun _ k k 0 (by decide)).trans (State.pc_controlDone _ k i.w hpc (Nat.succ_lt_succ hpc))
    · exact (State.fld_waitToRun _ k k _ (by decide)).trans
        (fld_controlDone_setFld s k _ i.w hpc (by decide) (by decide) ((Nat.sub_le _ _).trans_lt h32))
    · refine (OnlyCoach.trans ?_ (.updCoach _ k _)).trans ((OnlyFields.waitToRun _ hk (by simp)).onlyCoach k)
      exact ((OnlyFields.setFld s _ (by decide +kernel) hk (by simp)).onlyCoach k).trans
        (OpsFrame.controlDone _ hk i.w hpc none (by simp) (by simp)).1

end Sys2Proof.Machine
end

section
/-! SWAPB: settles O15. -/

namespace Sys2Proof.Machine

/-- A stream's bookkeeping once its halves have exchanged roles (R260, R261): the new consumer half holds the share that landed, its pointers stand at 0,
and the next share follows. -/
structure HalvesSwapped (inbound : Prop) [Decidable inbound] (a b : Strm) : Prop where
  cons : b.cons = 0
  prod : b.prod = 0
  landed : b.landed = 0
  reqd : b.reqd = 0
  recv : b.recv = if inbound then a.share else 0
  next : b.shareOff = a.shareOff + a.share

/-- The halves exchange roles: CONS turns over, and the stream's bookkeeping with it. -/
theorem State.swapHalves_eq (s : State) (k n : Nat) : ∃ f : Strm → Strm, HalvesSwapped (s.fld STR_CFG_DIR k n = 0) (s.strm k n) (f (s.strm k n)) ∧
    s.swapHalves k n = (s.setFld STR_STATE_CONS k n (1 - s.fld STR_STATE_CONS k n)).updStrm k n f := by
  by_cases h : s.fld STR_CFG_DIR k n = 0
  · exact ⟨_, ⟨rfl, rfl, rfl, rfl, by simp [h], rfl⟩, if_pos (beq_iff_eq.2 h)⟩
  · exact ⟨_, ⟨rfl, rfl, rfl, rfl, by simp [h], rfl⟩, if_neg (mt beq_iff_eq.1 h)⟩

/-- The exchange changes CONS and the coach alone. -/
theorem OnlyCoach.swapHalves {L : List (Fld × Nat × Nat)} (s : State) {k : Nat} (hk : k < 2048) (n : Nat) (h : (STR_STATE_CONS, k, n) ∈ L) :
    OnlyCoach k L s (s.swapHalves k n) := by
  obtain ⟨f, -, heq⟩ := s.swapHalves_eq k n
  rw [heq]
  exact (OnlyCoach.setFld s k _ (by decide +kernel) hk h).trans (.updCoach _ k _)

/-- CONS after the exchange. -/
theorem State.cons_swapHalves (s : State) (k n : Nat) : (s.swapHalves k n).fld STR_STATE_CONS k n = (1 - s.fld STR_STATE_CONS k n) % 2 := by
  obtain ⟨f, -, heq⟩ := s.swapHalves_eq k n
  rw [heq]
  exact s.fld_setFld_same STR_STATE_CONS k n _

/-- The exchange leaves every other field alone. -/
theorem State.fld_swapHalves (s : State) {f : Fld} (k n u i : Nat) (h : f.idx % 1024 ≠ STR_STATE_CONS.idx % 1024) :
    (s.swapHalves k n).fld f u i = s.fld f u i := by
  obtain ⟨g, -, heq⟩ := s.swapHalves_eq k n
  rw [heq]
  exact s.fld_setFld_idx u i k n _ h

/-- The bookkeeping of the stream whose halves have exchanged roles, and of the others. -/
theorem State.strm_swapHalves (s : State) (k n : Nat) : HalvesSwapped (s.fld STR_CFG_DIR k n = 0) (s.strm k n) ((s.swapHalves k n).strm k n) ∧
    ∀ m, m ≠ n → (s.swapHalves k n).strm k m = s.strm k m := by
  obtain ⟨f, hf, heq⟩ := s.swapHalves_eq k n
  rw [heq]
  refine ⟨?_, fun m hm => ?_⟩
  · rw [State.strm_updStrm, if_pos rfl]
    exact hf
  · rw [State.strm_updStrm, if_neg hm]
    rfl

/-- A change of operations leaves the streams' bookkeeping alone. -/
theorem OpsFrame.strm {k : Nat} {L : List (Fld × Nat × Nat)} {s t : State} (a : OpsFrame k L s t) (m : Nat) : t.strm k m = s.strm k m := by
  rw [State.strm, a.2, State.strm]

/-- A SWAPB whose waits have ended. -/
theorem State.swapReady_iff {s : State} {k n : Nat} : s.swapReady k n = true ↔
    (s.coach k).flight.any (fun i => usesHalf i n) = false ∧ (s.strm k n).landed = (s.strm k n).share := by
  simp [State.swapReady]

/-- A SWAPB that issues with its waits ended exchanges the halves and completes. -/
theorem exec_swapb_ready {k : Coach} {s : State} (h : IssueReady k 7 s) (hf : iFence (s.atPc k) = false ∨ (s.coach k).flight = [])
    (hr : s.swapReady k (fieldOf (s.atPc k) 0 21 3) = true) :
    exec (.swapb k) s = .next (((s.counted k).swapHalves k (fieldOf (s.atPc k) 0 21 3)).controlDone k (s.atPc k) (s.fld COA_PC_PC k) none) := by
  refine congrArg ok ((State.issueOp_control h rfl _).trans (if_pos ?_))
  have hready : (s.wrapAdd COA_ISSUED_ISSUED k 0 1).swapReady k (fieldOf (s.atPc k) 0 21 3) = true := hr
  rcases hf with hf | hf <;> simp [hready, hf]

/-- A SWAPB that issues before its waits have ended is held. -/
theorem exec_swapb_waits {k : Coach} {s : State} (h : IssueReady k 7 s) (hr : s.swapReady k (fieldOf (s.atPc k) 0 21 3) = false) :
    exec (.swapb k) s = .next ((s.counted k).holdControl k (s.atPc k) (s.fld COA_PC_PC k)) := by
  refine congrArg ok ((State.issueOp_control h rfl _).trans (if_neg ?_))
  have hready : (s.wrapAdd COA_ISSUED_ISSUED k 0 1).swapReady k (fieldOf (s.atPc k) 0 21 3) = false := hr
  simp [hready]

/-- SWAPB_COMPLETE of a held SWAPB whose waits have not ended does nothing. -/
theorem exec_swapbComplete_waits {k : Coach} {s : State} {i : Inf} (hc : (s.coach k).ctrl = some i) (hr : s.swapReady k (fieldOf i.w 0 21 3) = false) :
    exec (.swapbComplete k) s = .next s := by
  change execSwapbComplete k s = _
  simp [execSwapbComplete, hc, hr, ok]

/-- SWAPB_COMPLETE of a held SWAPB whose waits have ended. -/
theorem exec_swapbComplete_ready {k : Coach} {s : State} {i : Inf} (hc : (s.coach k).ctrl = some i) (hstill : s.coachStill = false) (ho : opOf i.w = 7)
    (hf : iFence i.w = false ∨ (s.coach k).flight = []) (hr : s.swapReady k (fieldOf i.w 0 21 3) = true) :
    exec (.swapbComplete k) s = .next (((s.dropControl k).swapHalves k (fieldOf i.w 0 21 3)).controlDone k i.w i.pc none) := by
  change execSwapbComplete k s = _
  rcases hf with hf | hf <;> simp [execSwapbComplete, hstill, hc, ho, hr, hf, ok, State.dropControl]

/-- Settles O15: SWAPB at issue with its waits ended or not, and SWAPB_COMPLETE of a held one. -/
theorem swapbExchangesTheHalves : Obligations.SwapbExchangesTheHalves := by
  unfold Obligations.SwapbExchangesTheHalves
  refine ⟨fun k s n h hn hf huse hland => ?_, fun k s n h hn hwait => ?_, fun k i s n hc hstill ho hn hpc hf huse hland => ?_⟩ <;>
    have hk : k.val < 2048 := k.isLt.trans (by decide)
  · subst hn
    obtain ⟨-, -, -, hpc⟩ := id h
    have hswap : OnlyCoach k [(STR_STATE_CONS, k.val, fieldOf (s.atPc k) 0 21 3)] (s.counted k) _ := .swapHalves _ hk _ (List.mem_singleton_self _)
    have hdone := OpsFrame.controlDone (L := ctlFlds k [(STR_STATE_CONS, k.val, fieldOf (s.atPc k) 0 21 3)])
      ((s.counted k).swapHalves k (fieldOf (s.atPc k) 0 21 3)) hk (s.atPc k) hpc none (by simp [ctlFlds]) (by simp [ctlFlds])
    obtain ⟨hs, hother⟩ := (s.counted k).strm_swapHalves k (fieldOf (s.atPc k) 0 21 3)
    refine ⟨_, exec_swapb_ready h hf (State.swapReady_iff.2 ⟨huse, hland⟩), passedOn_controlDone hswap.2.1 (by simp; decide) hpc _, ?_, ?_⟩
    · rw [State.fld_controlDone _ k _ hpc none k _ (by decide) (by decide), State.cons_swapHalves, s.fld_counted k k _ (by decide)]
    · rw [s.fld_counted k k _ (by decide)] at hs
      refine ⟨?_, ?_, ?_, ?_, ?_, ?_, fun m hm => ?_, ?_⟩
      · rw [hdone.strm]; exact hs.cons
      · rw [hdone.strm]; exact hs.prod
      · rw [hdone.strm]; exact hs.landed
      · rw [hdone.strm]; exact hs.reqd
      · rw [hdone.strm]; exact hs.recv
      · rw [hdone.strm]; exact hs.next
      · rw [hdone.strm]; exact hother m hm
      · exact ((OnlyFields.counted s hk (by simp)).onlyCoach k).trans ((OnlyCoach.swapHalves _ hk _ (by simp)).trans hdone.1)
  · subst hn
    have hr : s.swapReady k (fieldOf (s.atPc k) 0 21 3) = false := by
      rw [Bool.eq_false_iff, ne_eq, State.swapReady_iff]
      exact fun ⟨hu, hl⟩ => hwait.elim (fun h => Bool.false_ne_true (hu.symm.trans h)) (fun h => h hl)
    have hheld := (s.counted k).coach_holdControl k (s.atPc k) (s.fld COA_PC_PC k)
    refine ⟨_, exec_swapb_waits h hr, by rw [hheld]; rfl, ((OnlyFields.counted s hk (by simp)).onlyCoach k).trans (.updCoach _ k _),
      exec_swapbComplete_waits (congrArg CoachS.ctrl hheld) ?_⟩
    rwa [State.swapReady, State.strm, hheld]
  · subst hn
    have hdone := OpsFrame.controlDone (L := [(COA_PC_PC, k.val, 0), (COA_SEQ_SEQ, k.val, 0), (STR_STATE_CONS, k.val, fieldOf i.w 0 21 3)])
      ((s.dropControl k).swapHalves k (fieldOf i.w 0 21 3)) hk i.w hpc none (by simp) (by simp)
    obtain ⟨hs, -⟩ := (s.dropControl k).strm_swapHalves k (fieldOf i.w 0 21 3)
    refine ⟨_, exec_swapbComplete_ready hc hstill ho hf (State.swapReady_iff.2 ⟨huse, hland⟩), ?_, State.pc_controlDone _ k _ hpc (Nat.succ_lt_succ hpc), ?_, ?_, ?_,
      (OnlyCoach.updCoach s k _).trans ((OnlyCoach.swapHalves _ hk _ (by simp)).trans hdone.1)⟩
    · obtain ⟨f, -, heq⟩ := (s.dropControl k).swapHalves_eq k (fieldOf i.w 0 21 3)
      rw [hdone.2, heq, State.updStrm, State.coach_updCoach_same, State.coach_setFld, State.dropControl, State.coach_updCoach_same]
    · rw [State.fld_controlDone _ k _ hpc none k _ (by decide) (by decide), State.cons_swapHalves]
      rfl
    · rw [hdone.strm]; exact hs.cons
    · rw [hdone.strm]; exact hs.prod

end Sys2Proof.Machine
end

section
/-! SUPPORT. What the sequencer shows of a coach, which the work of an instruction leaves alone, and what a start does to it (R178, R180). -/

namespace Sys2Proof.Machine

/-! ### What the sequencer shows -/

/-- What the sequencer shows of an instruction in flight: its number, its word, and whether it has started and finished. -/
def Inf.shown (i : Inf) : Nat × Nat × Bool × Bool := (i.id, i.w, i.started, i.finished)

/-- What the sequencer shows of a coach: the instructions in flight, the next number, COA_PC and the count of issued instructions. -/
structure SeqView where
  flight : List (Nat × Nat × Bool × Bool)
  nextId : Nat
  pc : Nat
  issued : Nat

/-- What the sequencer shows of coach `k`. -/
def State.seqView (s : State) (k : Nat) : SeqView :=
  { flight := (s.coach k).flight.map Inf.shown, nextId := (s.coach k).nextId, pc := s.fld COA_PC_PC k, issued := s.fld COA_ISSUED_ISSUED k }

/-- Changes outside the register fields and the coaches' parts. -/
theorem State.seqView_of_eq {s t : State} (hf : t.fields = s.fields) (hc : t.coaches = s.coaches) (k : Nat) : t.seqView k = s.seqView k := by
  simp only [State.seqView, State.coach, State.fld, hf, hc]

/-- A write of another field. -/
theorem State.seqView_setFld (s : State) {f : Fld} (k u i v : Nat) (hp : 31 ≠ f.idx % 1024) (hi : 38 ≠ f.idx % 1024) : (s.setFld f u i v).seqView k = s.seqView k := by
  rw [State.seqView, s.fld_setFld_idx (f := COA_PC_PC) k 0 u i v hp, s.fld_setFld_idx (f := COA_ISSUED_ISSUED) k 0 u i v hi]
  rfl

/-- A write of several other fields. -/
theorem State.seqView_setFlds (s : State) {l : List (Fld × Nat)} (k u i : Nat) (hp : 31 ∉ l.map (·.1.idx % 1024)) (hi : 38 ∉ l.map (·.1.idx % 1024)) :
    (s.setFlds u i l).seqView k = s.seqView k := by
  induction l generalizing s with
  | nil => rfl
  | cons x l ih =>
    rw [List.map_cons, List.mem_cons, not_or] at hp hi
    exact (ih _ hp.2 hi.2).trans (s.seqView_setFld k u i x.2 hp.1 hi.1)

/-- A change of the coach that leaves alone what the sequencer shows. -/
theorem State.seqView_updCoach (s : State) (k : Nat) {f : CoachS → CoachS} (hf : (f (s.coach k)).flight.map Inf.shown = (s.coach k).flight.map Inf.shown)
    (hn : (f (s.coach k)).nextId = (s.coach k).nextId) : (s.updCoach k f).seqView k = s.seqView k := by
  simp only [State.seqView, State.coach_updCoach_same, hf, hn]
  rfl

/-- A change of an instruction that leaves alone what the sequencer shows of it. -/
theorem shown_mapInf (c : CoachS) (id : Nat) {f : Inf → Inf} (hf : ∀ j, (f j).shown = j.shown) :
    (c.mapInf id f).flight.map Inf.shown = c.flight.map Inf.shown := by
  rw [CoachS.mapInf, List.map_map]
  refine List.map_congr_left (fun j _ => ?_)
  rw [Function.comp_apply]
  split
  · exact hf j
  · rfl

/-- A run of steps none of which changes what the sequencer shows. -/
theorem State.seqView_foldl {α : Type} {k : Nat} {g : State → α → State} (h : ∀ t x, (g t x).seqView k = t.seqView k) (l : List α) (s : State) :
    (l.foldl g s).seqView k = s.seqView k := by
  induction l generalizing s with
  | nil => rfl
  | cons x l ih => exact (ih _).trans (h s x)

/-- A step made or not. -/
theorem State.seqView_ite {k : Nat} {s t u : State} {c : Prop} [Decidable c] (ht : t.seqView k = s.seqView k) (hu : u.seqView k = s.seqView k) :
    (if c then t else u).seqView k = s.seqView k := by
  split
  · exact ht
  · exact hu

/-! ### Counts, tiles and memories -/

section
variable (s : State) (k : Nat)

/-- A change of an operation. -/
@[simp] theorem State.seqView_updOp (q : Option Nat) (f : Opn → Opn) : (s.updOp k q f).seqView k = s.seqView k := by
  cases q with
  | none => rfl
  | some q => exact s.seqView_updCoach k rfl rfl

/-- Counts. -/
@[simp] theorem State.seqView_count (q : Option Nat) (sat flush nan : Nat) : (s.count k q sat flush nan).seqView k = s.seqView k := by
  have step : ∀ {f g : Fld} {t : State} (v w : Nat), 31 ≠ f.idx % 1024 → 38 ≠ f.idx % 1024 → 31 ≠ g.idx % 1024 → 38 ≠ g.idx % 1024 →
      ((t.setFld f k 0 v).setFld g k 0 w).seqView k = t.seqView k := fun {f g t} v w hp hi hp' hi' =>
    ((t.setFld f k 0 v).seqView_setFld k k 0 w hp' hi').trans (t.seqView_setFld k k 0 v hp hi)
  refine (State.seqView_ite rfl ?_).trans ((State.seqView_ite rfl ?_).trans ((State.seqView_ite rfl ?_).trans (s.seqView_updOp k q _)))
  · exact step _ _ (by decide) (by decide) (by decide) (by decide)
  · exact step _ _ (by decide) (by decide) (by decide) (by decide)
  · exact step _ _ (by decide) (by decide) (by decide) (by decide)

/-- A new output tile. -/
@[simp] theorem State.seqView_addTile (q : Option Nat) (t : TileRec) : (s.addTile k q t).seqView k = s.seqView k :=
  (State.seqView_ite (State.seqView_setFld _ k k 0 _ (by decide) (by decide)) rfl).trans (s.seqView_updOp k q _)

/-- A write of the coach store. -/
@[simp] theorem State.seqView_storeWrite (j a : Nat) (bs : List Nat) : (s.storeWrite j a bs).seqView k = s.seqView k := rfl

/-- A write of lanes. -/
@[simp] theorem State.seqView_setLanes (j r i : Nat) (vs : List Nat) : (s.setLanes j r i vs).seqView k = s.seqView k := rfl

/-- A free value. -/
@[simp] theorem State.seqView_draw (w : Nat) : (s.draw w).2.seqView k = s.seqView k := rfl

/-- Free values. -/
@[simp] theorem State.seqView_draws (w n : Nat) : (s.draws w n).2.seqView k = s.seqView k := rfl

/-- Free bytes. -/
@[simp] theorem State.seqView_freeStore (j a n : Nat) : (s.freeStore j a n).seqView k = s.seqView k := rfl

/-- Spans of free bytes. -/
@[simp] theorem State.seqView_freeSpans (j : Nat) (l : List (Nat × Nat)) : (s.freeSpans j l).seqView k = s.seqView k :=
  State.seqView_foldl (α := Nat × Nat) (g := fun t z => t.freeStore j z.1 z.2) (fun t x => t.seqView_freeStore k j x.1 x.2) l s

/-- A stream's bookkeeping. -/
@[simp] theorem State.seqView_updStrm (n : Nat) (f : Strm → Strm) : (s.updStrm k n f).seqView k = s.seqView k := s.seqView_updCoach k rfl rfl

/-- A read of a consumer half. -/
@[simp] theorem State.seqView_halfRead (j n pos len : Nat) : (s.halfRead j n pos len).2.seqView k = s.seqView k := by
  unfold State.halfRead
  dsimp only
  split <;> rfl

/-- A write of a consumer half. -/
@[simp] theorem State.seqView_halfWrite (n : Nat) (bs : List Nat) : (s.halfWrite k n bs).seqView k = s.seqView k :=
  (State.seqView_updStrm _ k n _).trans (State.seqView_ite rfl (s.seqView_freeStore k _ _ _))

/-- An instruction's output. -/
@[simp] theorem State.seqView_writeOut (failed : Bool) (str : Option Nat) (addr : Nat) (bs : List Nat) :
    (s.writeOut k failed str addr bs).seqView k = s.seqView k := by
  refine State.seqView_ite rfl ?_
  cases str with
  | none => rfl
  | some n => exact s.seqView_halfWrite k n bs

/-- Codes written to a name. -/
@[simp] theorem State.seqView_putCodes (j rrb name : Nat) (pair : Bool) (cs : List Nat) : (s.putCodes j rrb name pair cs).seqView k = s.seqView k :=
  State.seqView_ite rfl rfl

/-- The weight sets shown. -/
@[simp] theorem State.seqView_showSets : (s.showSets k).seqView k = s.seqView k := s.seqView_setFlds k k 0 (by simp; decide) (by simp; decide)

/-! ### The bank -/

/-- A spill region's slots. -/
@[simp] theorem State.seqView_setSpill (l : List Nat) : (s.setSpill k l).seqView k = s.seqView k :=
  (State.seqView_setFld _ k k 0 _ (by decide) (by decide)).trans (s.seqView_updCoach k rfl rfl)

/-- An entry left at zero. -/
@[simp] theorem State.seqView_clearEntry (e : Nat) : (s.clearEntry k e).seqView k = s.seqView k := by
  unfold State.clearEntry
  dsimp only
  split
  · rfl
  · exact s.seqView_setSpill k _

/-- A region left at zero. -/
@[simp] theorem State.seqView_clearRegion (w : Nat) : (s.clearRegion k w).seqView k = s.seqView k :=
  State.seqView_foldl (fun t _ => State.seqView_foldl (fun t e => t.seqView_clearEntry k e) _ t) _ s

/-- A free accumulator. -/
@[simp] theorem State.seqView_fillAccs (l : List (Option Acc)) : (s.fillAccs l).2.seqView k = s.seqView k := by
  induction l generalizing s with
  | nil => rfl
  | cons x l ih =>
    cases x with
    | none => exact ih _
    | some a => exact ih s

/-- The tallies of a REDUCE, from the bank. -/
@[simp] theorem State.seqView_reduceBank (w : Nat) : (s.reduceBank k w).2.seqView k = s.seqView k := s.seqView_fillAccs k _

/-- The tallies of a REDUCE, from the store. -/
@[simp] theorem State.seqView_reduceStore (w : Nat) : (s.reduceStore k w).2.seqView k = s.seqView k := s.seqView_fillAccs k _

/-- An increment of a counter. -/
@[simp] theorem State.seqView_syncInc (n : Nat) : (s.syncInc k n).seqView k = s.seqView k := s.seqView_setFld k k n _ (by decide) (by decide)

/-- Increments given. -/
@[simp] theorem State.seqView_syncSettle : (s.syncSettle k).seqView k = s.seqView k := by
  unfold State.syncSettle
  dsimp only
  refine (State.seqView_foldl (α := Nat × Nat) (g := fun t d => t.syncInc k d.2) (fun t d => t.seqView_syncInc k d.2) _ _).trans ?_
  exact s.seqView_updCoach k rfl rfl

/-- Flits put on a wire. -/
theorem State.seqView_pushWire (key : Nat) (fs : List Flit) : (s.pushWire key fs).seqView k = s.seqView k := State.seqView_ite rfl rfl

/-- An answer. -/
theorem State.seqView_answer (u : Nat) (p : Packet) : (s.answer u p).seqView k = s.seqView k := by
  unfold State.answer
  dsimp only
  split <;> rfl

/-- A packet sent. -/
@[simp] theorem State.seqView_niSend (u e : Nat) (p : Packet) : (s.niSend u e p).seqView k = s.seqView k := by
  unfold State.niSend
  refine State.seqView_ite ?_ (State.seqView_ite rfl (State.seqView_pushWire _ k _ _))
  dsimp only
  exact State.seqView_ite (State.seqView_answer _ k u _) rfl

end

end Sys2Proof.Machine
end

section
/-! SUPPORT. The work of every instruction of a unit leaves alone what the sequencer shows. -/

namespace Sys2Proof.Machine

/-! ### Vector work -/

section
variable (s : State) (k : Nat)

/-- A register result. -/
@[simp] theorem State.seqView_vecWrite (i : Inf) (rrb : Nat) (pair : Bool) (vs : List Val) (n : Nat) : (s.vecWrite k i rrb pair vs n).seqView k = s.seqView k := by
  simp [State.vecWrite]

/-- A one-operand instruction. -/
@[simp] theorem State.seqView_vec1 (i : Inf) (rrb : Nat) (f : Val → Val) : (s.vec1 k i rrb f).seqView k = s.seqView k := s.seqView_vecWrite k i rrb _ _ _

/-- A two-operand instruction. -/
@[simp] theorem State.seqView_vec2 (i : Inf) (rrb : Nat) (f : Val → Val → Val) : (s.vec2 k i rrb f).seqView k = s.seqView k := s.seqView_vecWrite k i rrb _ _ _

/-- A three-operand instruction. -/
@[simp] theorem State.seqView_vec3 (i : Inf) (rrb : Nat) (f : Val → Val → Val → Val) : (s.vec3 k i rrb f).seqView k = s.seqView k := s.seqView_vecWrite k i rrb _ _ _

/-- A special function. -/
@[simp] theorem State.seqView_vecSpecial (i : Inf) (rrb fn : Nat) : (s.vecSpecial k i rrb fn).seqView k = s.seqView k := by
  simp [State.vecSpecial]

/-- A conversion. -/
@[simp] theorem State.seqView_vcvt (i : Inf) (rrb : Nat) : (s.vcvt k i rrb).seqView k = s.seqView k := by
  simp only [State.vcvt, State.seqView_addTile, State.seqView_count]
  exact State.seqView_ite (s.seqView_setLanes k _ _ _ _) (s.seqView_putCodes k _ _ _ _ _)

/-- A pointer moved. -/
@[simp] theorem State.seqView_moveCb (w g : Nat) (good : Bool) : (s.moveCb k w g good).seqView k = s.seqView k :=
  State.seqView_ite (State.seqView_ite (s.seqView_setFld k k _ _ (by decide) (by decide)) (State.seqView_setFld _ k k _ _ (by decide) (by decide))) rfl

/-- The codes of a group. -/
@[simp] theorem State.seqView_groupCodes (w g : Nat) (f : Fmt) : (s.groupCodes k w g f).2.seqView k = s.seqView k := by
  unfold State.groupCodes
  dsimp only
  split
  · rfl
  · split <;> rfl

/-- What VLD writes for a group. -/
@[simp] theorem State.seqView_vldGroup (i : Inf) (f : Fmt) (sc : Bool) (g : Nat) : (s.vldGroup k i f sc g).2.seqView k = s.seqView k := by
  unfold State.vldGroup
  dsimp only
  split
  · exact s.seqView_groupCodes k _ _ _
  · split <;> exact s.seqView_groupCodes k _ _ _

/-- A run of steps each of which keeps something beside the state. -/
theorem State.seqView_foldl_snd {α β : Type} {g : α × State → β → α × State} (h : ∀ t x, (g t x).2.seqView k = t.2.seqView k) (l : List β) (t : α × State) :
    (l.foldl g t).2.seqView k = t.2.seqView k := by
  induction l generalizing t with
  | nil => rfl
  | cons x l ih => exact (ih _).trans (h t x)

/-- VLD. -/
@[simp] theorem State.seqView_vld (i : Inf) (rrb : Nat) : (s.vld k i rrb).seqView k = s.seqView k := by
  unfold State.vld
  dsimp only
  split
  · rw [State.seqView_putCodes, State.seqView_draws]
    exact State.seqView_foldl (fun t g => t.seqView_moveCb k _ g _) _ s
  · rw [State.seqView_addTile, State.seqView_count, State.seqView_putCodes]
    exact State.seqView_foldl_snd k (fun t g => (State.seqView_moveCb _ k _ g _).trans (t.2.seqView_vldGroup k i _ _ g)) _ ([], s)

/-- Elements written. -/
@[simp] theorem State.seqView_putElems (wb : Nat) (addrs codes : List Nat) : (s.putElems k wb addrs codes).seqView k = s.seqView k :=
  State.seqView_foldl (α := Nat × Nat) (g := fun t ac => t.storeWrite k ac.1 (leBytes wb ac.2)) (fun t ac => t.seqView_storeWrite k _ ac.1 _) _ s

/-- VST. -/
@[simp] theorem State.seqView_vst (i : Inf) (rrb : Nat) : (s.vst k i rrb).seqView k = s.seqView k := by
  unfold State.vst
  dsimp only
  split
  · exact State.seqView_foldl (fun t g => (State.seqView_moveCb _ k _ g _).trans (State.seqView_ite rfl (t.seqView_freeStore k _ _ _))) _ s
  · rw [State.seqView_addTile, State.seqView_count]
    refine State.seqView_foldl (fun t g => ?_) _ s
    rw [State.seqView_moveCb]
    have hd : ∀ {c : Prop} [Decidable c] (l : List Nat) (w : Nat), (if c then (l, t) else t.draws w 32).2.seqView k = t.seqView k := by
      intro c _ l w
      split <;> rfl
    refine State.seqView_ite (hd _ _) ?_
    exact (State.seqView_putElems _ k _ _ _).trans (hd _ _)

/-- VSETCB. -/
@[simp] theorem State.seqView_vsetcb (w : Nat) : (s.vsetcb k w).seqView k = s.seqView k :=
  State.seqView_foldl (fun t _ => t.seqView_setFlds k k _ (by simp; decide) (by simp; decide)) _ s

/-- VQUANT. -/
@[simp] theorem State.seqView_vquant (i : Inf) (rrb : Nat) : (s.vquant k i rrb).seqView k = s.seqView k := by
  unfold State.vquant
  dsimp only
  split
  · rfl
  · simp only [State.seqView_addTile, State.seqView_count, State.seqView_writeOut]

/-- SDSPLIT. -/
@[simp] theorem State.seqView_sdsplit (i : Inf) (rrb : Nat) : (s.sdsplit k i rrb).seqView k = s.seqView k := by
  unfold State.sdsplit
  dsimp only
  rw [State.seqView_addTile, State.seqView_count]
  refine State.seqView_foldl (fun t p => ?_) _ s
  rw [State.seqView_writeOut, State.seqView_writeOut]

/-- VRSUM. -/
@[simp] theorem State.seqView_vrsum (i : Inf) (rrb : Nat) : (s.vrsum k i rrb).seqView k = s.seqView k := s.seqView_vecWrite k i rrb _ _ _

/-- VMAXI and VMINI. -/
@[simp] theorem State.seqView_vsearch (i : Inf) (rrb : Nat) (m : Bool) : (s.vsearch k i rrb m).seqView k = s.seqView k := by
  unfold State.vsearch
  dsimp only
  rw [State.seqView_addTile, State.seqView_count, State.seqView_setLanes]

/-- SMAC and SMSU. -/
@[simp] theorem State.seqView_smac (w rrb : Nat) (sub : Bool) : (s.smac k w rrb sub).seqView k = s.seqView k :=
  State.seqView_setFld _ k k 0 _ (by decide) (by decide)

/-- SWB. -/
@[simp] theorem State.seqView_swb (i : Inf) (rrb : Nat) : (s.swb k i rrb).seqView k = s.seqView k := by
  unfold State.swb
  dsimp only
  rw [State.seqView_addTile, State.seqView_count, State.seqView_setLanes]

/-- The loop fields. -/
@[simp] theorem State.seqView_setLoop (a b c d e : Nat) :
    (s.setFlds k 0 [(VEC_LOOP_RRB, a), (VEC_LOOP_ON, b), (VEC_LOOP_SM1, c), (VEC_TRIP_TRIP, d), (VEC_TRIPN_N, e)]).seqView k = s.seqView k :=
  s.seqView_setFlds k k 0 (by simp; decide) (by simp; decide)

/-- The work of every vector instruction. -/
@[simp] theorem State.seqView_vecWork (i : Inf) (rrb : Nat) : (s.vecWork k i rrb).seqView k = s.seqView k := by
  unfold State.vecWork
  dsimp only
  split <;> simp only [State.seqView_vld, State.seqView_vst, State.seqView_putCodes, State.seqView_vsetcb, State.seqView_vec1, State.seqView_vec2,
    State.seqView_vec3, State.seqView_vecSpecial, State.seqView_vcvt, State.seqView_vquant, State.seqView_sdsplit, State.seqView_vrsum,
    State.seqView_vsearch, State.seqView_smac, State.seqView_swb, State.seqView_setLoop]

/-! ### Bank and array work -/

/-- A region cleared or not. -/
theorem State.seqView_clr {c : Prop} [Decidable c] (w : Nat) {t : State} (h : t.seqView k = s.seqView k) :
    (if c then t.clearRegion k w else t).seqView k = s.seqView k := State.seqView_ite ((t.seqView_clearRegion k w).trans h) h

/-- DRAIN. -/
@[simp] theorem State.seqView_drain (i : Inf) : (s.drain k i).seqView k = s.seqView k := by
  unfold State.drain
  dsimp only
  split
  · exact s.seqView_clr k _ (s.seqView_writeOut k _ _ _ _)
  · split
    · exact s.seqView_clr k _ (State.seqView_writeOut _ k _ _ _ _)
    · exact s.seqView_clr k _ (State.seqView_writeOut _ k _ _ _ _)
    · refine s.seqView_clr k _ ((State.seqView_foldl (fun t x => t.seqView_addTile k _ _) _ _).trans ?_)
      rw [State.seqView_count, State.seqView_writeOut]

/-- QUANT. -/
@[simp] theorem State.seqView_quant (i : Inf) : (s.quant k i).seqView k = s.seqView k := by
  unfold State.quant
  dsimp only
  split
  · refine s.seqView_clr k _ ((State.seqView_foldl (fun t x => t.seqView_addTile k _ _) _ _).trans ?_)
    rw [State.seqView_count]
    split <;> simp only [State.seqView_writeOut]
  · refine s.seqView_clr k _ ?_
    split <;> simp only [State.seqView_writeOut, State.seqView_draws]

/-- REDUCE. -/
@[simp] theorem State.seqView_startReduce (i : Inf) : (s.startReduce k i).seqView k = s.seqView k := by
  have hr : ∀ {c : Prop} [Decidable c], (if c then s.reduceStore k i.w else s.reduceBank k i.w).2.seqView k = s.seqView k := by
    intro c _
    split
    · exact s.seqView_reduceStore k i.w
    · exact s.seqView_reduceBank k i.w
  unfold State.startReduce
  dsimp only
  refine State.seqView_ite ?_ ?_
  · rw [State.seqView_syncSettle]
    exact (State.seqView_updCoach _ k rfl rfl).trans (s.seqView_clr k _ hr)
  · exact (State.seqView_foldl (fun t x => t.seqView_niSend k _ _ _) _ _).trans (s.seqView_clr k _ hr)

/-- The data of a LOADW. -/
@[simp] theorem State.seqView_loadwBytes (i : Inf) : (s.loadwBytes k i).2.2.seqView k = s.seqView k := by
  unfold State.loadwBytes
  dsimp only
  split
  · exact (State.seqView_updStrm _ k _ _).trans ((State.seqView_halfRead _ k k _ _ _).trans (s.seqView_updStrm k _ _))
  · rfl

end

end Sys2Proof.Machine
end

section
/-! SUPPORT. What a start does to the instructions in flight (R178, R180, R186). -/

namespace Sys2Proof.Machine

/-- The instructions in flight with number `id` shown as started. -/
def shownStarted (id : Nat) (l : List (Nat × Nat × Bool × Bool)) : List (Nat × Nat × Bool × Bool) :=
  l.map (fun x => if x.1 == id then (x.1, x.2.1, true, x.2.2.2) else x)

/-- The instructions in flight with number `id` shown as started and finished. -/
def shownFinished (id : Nat) (l : List (Nat × Nat × Bool × Bool)) : List (Nat × Nat × Bool × Bool) :=
  l.map (fun x => if x.1 == id then (x.1, x.2.1, true, true) else x)

/-- The instructions in flight without number `id`. -/
def shownWithout (id : Nat) (l : List (Nat × Nat × Bool × Bool)) : List (Nat × Nat × Bool × Bool) := l.filter (fun x => x.1 != id)

/-- What a start makes of the instructions in flight: the instruction is started, or it is a SWAPW that has finished, or it is out of flight. -/
def Begun (i : Inf) (l l' : List (Nat × Nat × Bool × Bool)) : Prop :=
  l' = shownStarted i.id l ∨ (opOf i.w = 2 ∧ l' = shownFinished i.id l) ∨ ((opOf i.w = 2 ∨ i.live = false) ∧ l' = shownWithout i.id l)

/-- A change of the coach: what the sequencer shows. -/
theorem State.seqView_updCoach_eq (s : State) (k : Nat) (f : CoachS → CoachS) :
    (s.updCoach k f).seqView k = { s.seqView k with flight := (f (s.coach k)).flight.map Inf.shown, nextId := (f (s.coach k)).nextId } := by
  rw [State.seqView, State.coach_updCoach_same]
  rfl

/-- A change of an instruction: what the sequencer shows of those in flight. -/
theorem map_shown_mapInf (c : CoachS) (id : Nat) {f : Inf → Inf} {g : Nat × Nat × Bool × Bool → Nat × Nat × Bool × Bool} (h : ∀ j, (f j).shown = g j.shown) :
    (c.mapInf id f).flight.map Inf.shown = (c.flight.map Inf.shown).map (fun x => if x.1 == id then g x else x) := by
  rw [CoachS.mapInf, List.map_map, List.map_map]
  refine List.map_congr_left (fun j _ => ?_)
  rw [Function.comp_apply, Function.comp_apply, ← h]
  exact apply_ite Inf.shown _ _ _

/-- An instruction taken out of flight: what the sequencer shows of those in flight. -/
theorem map_shown_filter (l : List Inf) (id : Nat) : (l.filter (fun j => j.id != id)).map Inf.shown = shownWithout id (l.map Inf.shown) := by
  rw [shownWithout, List.filter_map]
  rfl

/-! ### The work of a start -/

/-- An instruction changed to started, after work that leaves alone what the sequencer shows. -/
theorem State.seqView_mapStarted {q s : State} {k id : Nat} {f : Inf → Inf} (hq : q.seqView k = s.seqView k) (hf : ∀ j, (f j).shown = (j.id, j.w, true, j.finished)) :
    (q.updCoach k (fun c => c.mapInf id f)).seqView k = { s.seqView k with flight := shownStarted id (s.seqView k).flight } := by
  rw [State.seqView_updCoach_eq, map_shown_mapInf (g := fun x => (x.1, x.2.1, true, x.2.2.2)) _ id hf, ← hq]
  rfl

/-- An instruction marked as started, after work that leaves alone what the sequencer shows. -/
theorem State.seqView_markStarted {q s : State} {k : Nat} (hq : q.seqView k = s.seqView k) (id : Nat) :
    (q.markStarted k id).seqView k = { s.seqView k with flight := shownStarted id (s.seqView k).flight } := State.seqView_mapStarted hq (fun _ => rfl)

/-- A LOADW that starts. -/
theorem State.seqView_startLoadw (s : State) (k : Nat) (i : Inf) :
    (s.startLoadw k i).seqView k = { s.seqView k with flight := shownStarted i.id (s.seqView k).flight } := by
  have put : ∀ (c : CoachS) (n : Nat) (t : Tile) (ld : Bool), (c.putSet n t ld).flight = c.flight ∧ (c.putSet n t ld).nextId = c.nextId := by
    intro c n t ld
    unfold CoachS.putSet
    split <;> exact ⟨rfl, rfl⟩
  unfold State.startLoadw
  dsimp only
  rw [State.seqView_showSets, State.seqView_updCoach_eq, (put _ _ _ _).1, (put _ _ _ _).2,
    map_shown_mapInf (g := fun x => (x.1, x.2.1, true, x.2.2.2)) _ i.id (fun _ => rfl)]
  have h := (State.seqView_count (s.loadwBytes k i).2.2 k i.opn 0 (tileOf (s.modeOf k i.opn) i.w (s.loadwBytes k i).1 (s.loadwBytes k i).2.1).2 0).trans (s.seqView_loadwBytes k i)
  rw [← h]
  rfl

/-- A PASS that starts. -/
theorem State.seqView_startPass (s : State) (k : Nat) (i : Inf) :
    (s.startPass k i).seqView k = { s.seqView k with flight := shownStarted i.id (s.seqView k).flight } := by
  unfold State.startPass
  dsimp only
  refine State.seqView_mapStarted ?_ (fun _ => rfl)
  split
  · exact s.seqView_updStrm k _ _
  · rfl

/-- A vector instruction that starts. -/
theorem State.seqView_startVector (s : State) (k : Nat) (i : Inf) :
    (s.startVector k i).seqView k = { s.seqView k with flight := if i.live then shownStarted i.id (s.seqView k).flight else shownWithout i.id (s.seqView k).flight } := by
  cases hl : i.live with
  | false =>
    rw [State.startVector, hl, if_pos (show (!false) = true from rfl), State.seqView_updCoach_eq, map_shown_filter]
    rfl
  | true =>
    rw [State.startVector, hl, if_neg (show ¬(!true) = true by decide), if_pos rfl]
    dsimp only
    refine State.seqView_mapStarted ((State.seqView_setFld _ k k 0 _ (by decide) (by decide)).trans ?_) (fun _ => rfl)
    refine Eq.trans ?_ (s.seqView_vecWork k i (s.fld VEC_LOOP_RRB k))
    split <;> rfl

/-- A SWAPW that finishes. -/
theorem State.seqView_finishInf (s : State) (k : Nat) (i : Inf) : ∃ l, (s.finishInf k i).seqView k = { s.seqView k with flight := l } ∧
    (l = shownFinished i.id (s.seqView k).flight ∨ l = shownWithout i.id (s.seqView k).flight) := by
  rw [State.finishInf, State.seqView_updCoach_eq]
  dsimp only
  split
  · rw [map_shown_mapInf (g := fun x => (x.1, x.2.1, true, true)) _ i.id (fun _ => rfl)]
    exact ⟨_, rfl, .inl rfl⟩
  · rw [map_shown_filter]
    exact ⟨_, rfl, .inr rfl⟩

/-- The work of a start. -/
theorem State.seqView_startWork (s : State) (k : Nat) (i : Inf) :
    ∃ l, (s.startWork k i).seqView k = { s.seqView k with flight := l } ∧ Begun i (s.seqView k).flight l := by
  unfold State.startWork
  split
  · exact ⟨_, s.seqView_startLoadw k i, .inl rfl⟩
  next h =>
    obtain ⟨l, hl, hf⟩ := s.seqView_finishInf k i
    exact ⟨l, hl, .inr (hf.imp (⟨h, ·⟩) (⟨.inl h, ·⟩))⟩
  · exact ⟨_, s.seqView_startPass k i, .inl rfl⟩
  · exact ⟨_, State.seqView_markStarted (s.seqView_drain k i) i.id, .inl rfl⟩
  · exact ⟨_, State.seqView_markStarted (s.seqView_quant k i) i.id, .inl rfl⟩
  · exact ⟨_, State.seqView_markStarted (s.seqView_startReduce k i) i.id, .inl rfl⟩
  · refine ⟨_, s.seqView_startVector k i, ?_⟩
    cases hl : i.live with
    | false => exact .inr (.inr ⟨.inr hl, rfl⟩)
    | true => exact .inl rfl

/-! ### Starting -/

/-- What a later instruction spoils of an earlier one's reads. -/
theorem State.seqView_spoilRead (s : State) (k : Nat) (j : Inf) : (s.spoilRead k j).seqView k = s.seqView k := by
  unfold State.spoilRead
  dsimp only
  refine State.seqView_ite rfl (State.seqView_ite ?_ (State.seqView_ite ?_ rfl))
  · refine (State.seqView_updCoach _ k ?_ rfl).trans (s.seqView_draws k _ _)
    exact shown_mapInf _ _ (fun x => by rw [Inf.shown, Inf.shown])
  · exact State.seqView_foldl (g := fun t v => (t.draws 32 512).2.setLanes k v 0 (t.draws 32 512).1) (fun t v => State.seqView_setLanes _ k k v 0 _) _ s

/-- An instruction starts: what the sequencer shows of those in flight changes for that one only. -/
theorem State.seqView_startInf (s : State) (k : Nat) (i : Inf) :
    ∃ l, (s.startInf k i).seqView k = { s.seqView k with flight := l } ∧ Begun i (s.seqView k).flight l := by
  unfold State.startInf
  dsimp only
  rw [State.seqView_foldl (fun t j => ?_)]
  · obtain ⟨l, hl, hb⟩ := State.seqView_startWork (((s.coach k).flight.filter (fun j => decide (j.id < i.id))).foldl
      (fun t j => t.freeSpans k (commonSpans (s.readSpans k i.w) (s.writeSpans k j.w))) s) k i
    rw [State.seqView_foldl (fun t j => t.seqView_freeSpans k k _)] at hl hb
    exact ⟨l, hl, hb⟩
  · exact State.seqView_ite rfl ((State.seqView_spoilRead _ k j).trans (t.seqView_freeSpans k k _))

/-- The next instruction of a unit starts where it may, and nothing changes where it may not. -/
theorem State.tryStart_eq_startInf {s : State} {k : Nat} {u : SeqUnit} {i : Inf} (hn : (s.coach k).nextOf u = some i) (hs : s.coachStill = false)
    (hc : s.canStart k i = true) : s.tryStart k u = s.startInf k i := by
  rw [State.tryStart, hn]
  exact if_pos (by rw [hs, hc]; rfl)

/-- Where no instruction may start, nothing changes. -/
theorem State.tryStart_eq_self {s : State} {k : Nat} {u : SeqUnit} (h : s.coachStill = true ∨ ∀ i, (s.coach k).nextOf u = some i → s.canStart k i = false) :
    s.tryStart k u = s := by
  rw [State.tryStart]
  split
  · rfl
  next i hi =>
    refine if_neg ?_
    obtain h | h := h
    · simp [h]
    · simp [h i hi]

/-- A start leaves the next number, COA_PC and the count of issued instructions. -/
theorem State.seqView_tryStart (s : State) (k : Nat) (u : SeqUnit) : ∃ l, (s.tryStart k u).seqView k = { s.seqView k with flight := l } := by
  rw [State.tryStart]
  split
  · exact ⟨_, rfl⟩
  next i _ =>
    split
    · obtain ⟨l, hl, -⟩ := s.seqView_startInf k i
      exact ⟨l, hl⟩
    · exact ⟨_, rfl⟩

end Sys2Proof.Machine
end

section
/-! RESULTS. INSTR_START starts the oldest waiting instruction of a unit where it may (R178, R180; O26). -/

namespace Sys2Proof.Machine

/-- An entry shown as started, or one of another number. -/
theorem mem_map_ite {id : Nat} {g : Nat × Nat × Bool × Bool → Nat × Nat × Bool × Bool} (hg : ∀ x, (g x).1 = x.1) {l : List (Nat × Nat × Bool × Bool)}
    {y : Nat × Nat × Bool × Bool} :
    y ∈ l.map (fun x => if x.1 == id then g x else x) ↔ (y.1 ≠ id ∧ y ∈ l) ∨ (y.1 = id ∧ ∃ x ∈ l, x.1 = id ∧ g x = y) := by
  simp only [List.mem_map, beq_iff_eq]
  constructor
  · rintro ⟨x, hx, rfl⟩
    by_cases h : x.1 = id
    · rw [if_pos h]
      exact .inr ⟨(hg x).trans h, x, hx, h, rfl⟩
    · rw [if_neg h]
      exact .inl ⟨h, hx⟩
  · rintro (⟨h, hy⟩ | ⟨-, x, hx, h, rfl⟩)
    · exact ⟨y, hy, if_neg h⟩
    · exact ⟨x, hx, if_pos h⟩

/-- The entries once number `id` is shown as started. -/
theorem mem_shownStarted {id : Nat} {l : List (Nat × Nat × Bool × Bool)} {y : Nat × Nat × Bool × Bool} :
    y ∈ shownStarted id l ↔ (y.1 ≠ id ∧ y ∈ l) ∨ (y.1 = id ∧ ∃ x ∈ l, x.1 = id ∧ (x.1, x.2.1, true, x.2.2.2) = y) :=
  mem_map_ite (g := fun x => (x.1, x.2.1, true, x.2.2.2)) (fun _ => rfl)

/-- The entries once number `id` is shown as finished. -/
theorem mem_shownFinished {id : Nat} {l : List (Nat × Nat × Bool × Bool)} {y : Nat × Nat × Bool × Bool} :
    y ∈ shownFinished id l ↔ (y.1 ≠ id ∧ y ∈ l) ∨ (y.1 = id ∧ ∃ x ∈ l, x.1 = id ∧ (x.1, x.2.1, true, true) = y) :=
  mem_map_ite (g := fun x => (x.1, x.2.1, true, true)) (fun _ => rfl)

section
variable {i : Inf} {l l' : List (Nat × Nat × Bool × Bool)} {y : Nat × Nat × Bool × Bool}

/-- After a start no instruction with its number stands unstarted. -/
theorem Begun.started (h : Begun i l l') (hy : y ∈ l') (hid : y.1 = i.id) : y.2.2.1 = true := by
  obtain rfl | ⟨-, rfl⟩ | ⟨-, rfl⟩ := h
  · obtain ⟨hn, -⟩ | ⟨-, x, -, -, rfl⟩ := mem_shownStarted.mp hy
    · exact absurd hid hn
    · rfl
  · obtain ⟨hn, -⟩ | ⟨-, x, -, -, rfl⟩ := mem_shownFinished.mp hy
    · exact absurd hid hn
    · rfl
  · exact absurd hid (by simpa using (List.mem_filter.mp hy).2)

/-- A start leaves every other instruction in flight as it was. -/
theorem Begun.other (h : Begun i l l') (hid : y.1 ≠ i.id) : y ∈ l' ↔ y ∈ l := by
  obtain rfl | ⟨-, rfl⟩ | ⟨-, rfl⟩ := h
  · exact mem_shownStarted.trans (by simp [hid])
  · exact mem_shownFinished.trans (by simp [hid])
  · exact List.mem_filter.trans (by simp [hid])

/-- An instruction that starts stays in flight, unless it is a SWAPW or not live. -/
theorem Begun.stays (h : Begun i l l') (hy : y ∈ l) (hid : y.1 = i.id) : (∃ x ∈ l', x.1 = i.id) ∨ opOf i.w = 2 ∨ i.live = false := by
  obtain rfl | ⟨hop, -⟩ | ⟨hop, -⟩ := h
  · exact .inl ⟨(y.1, y.2.1, true, y.2.2.2), mem_shownStarted.mpr (.inr ⟨hid, y, hy, hid, rfl⟩), hid⟩
  · exact .inr (.inl hop)
  · exact .inr hop

end

/-- An instruction shown in a list stands in it. -/
theorem exists_of_shown {l : List Inf} {j : Inf} (h : j.shown ∈ l.map Inf.shown) :
    ∃ j0 ∈ l, j0.id = j.id ∧ j0.w = j.w ∧ j0.started = j.started ∧ j0.finished = j.finished := by
  obtain ⟨j0, h0, he⟩ := List.mem_map.mp h
  simp only [Inf.shown, Prod.mk.injEq] at he
  exact ⟨j0, h0, he⟩

/-- INSTR_START: the next instruction of the unit starts where it may, and the coach settles. -/
theorem exec_instrStart (k : Coach) (u : SeqUnit) (s : State) : exec (.instrStart k u) s = .next ((s.tryStart k u).settleEnd k) := rfl

/-- Settles O26: what the sequencer shows of the instructions in flight changes for the one that starts alone. -/
theorem instructionsStartInOrderWhenTheyMay : Obligations.InstructionsStartInOrderWhenTheyMay := by
  refine ⟨fun k u i s hn hc hs => ?_, fun k u s h => ?_⟩
  · have hi : i.shown ∈ (s.seqView k).flight := List.mem_map_of_mem (List.mem_of_find?_eq_some hn)
    obtain ⟨l, hl, hb⟩ := s.seqView_startInf k i
    refine ⟨_, exec_instrStart k u s, ?_⟩
    rw [State.flight_settleEnd, State.tryStart_eq_startInf hn hs hc]
    have hf : ((s.startInf k i).coach k).flight.map Inf.shown = l := congrArg SeqView.flight hl
    have mem : ∀ j ∈ ((s.startInf k i).coach k).flight, j.shown ∈ l := fun j hj => hf ▸ List.mem_map_of_mem hj
    refine ⟨fun j hj => hb.started (mem j hj), ?_, fun j hj hid => ?_, fun j hj hid => ?_⟩
    · refine (hb.stays hi rfl).imp_left (fun ⟨x, hx, hid⟩ => ?_)
      obtain ⟨j, hj, rfl⟩ := List.mem_map.mp (hf ▸ hx)
      exact ⟨j, hj, hid⟩
    · exact exists_of_shown ((hb.other (y := j.shown) hid).mp (mem j hj))
    · exact exists_of_shown (hf ▸ (hb.other (y := j.shown) hid).mpr (List.mem_map_of_mem hj))
  · refine ⟨_, exec_instrStart k u s, ?_⟩
    rw [State.tryStart_eq_self h]
    exact ⟨s.flight_settleEnd k, .settleEnd s (by omega) (by simp) (by simp)⟩

end Sys2Proof.Machine
end

section
/-! SUPPORT. The issue of an instruction into its unit's queue (R178, R180, R184 to R187), for every unit. -/

namespace Sys2Proof.Machine

/-! ### What enters the queue -/

/-- Whether the instruction at COA_PC is live where it issues. -/
def State.liveAt (s : State) (k : Nat) : Bool := isLive (s.loopAhead k) (s.atPc k)

/-- The coach once the instruction at COA_PC has opened or joined its operation. -/
def State.opened (s : State) (k : Nat) : State := s.openFor k (s.atPc k) (s.liveAt k)

/-- The instruction at COA_PC as it enters its unit's queue. -/
def State.newInf (s : State) (k : Nat) : Inf :=
  { id := (s.coach k).nextId, w := s.atPc k, pc := s.fld COA_PC_PC k, live := s.liveAt k,
    opn := if counting (opOf (s.atPc k)) && s.liveAt k then ((s.opened k).coach k).openOp.map (·.seq) else none,
    wset := if opOf (s.atPc k) == 1 then 1 - s.fld ARR_WSTATE_ACTIVE k else s.fld ARR_WSTATE_ACTIVE k }

/-- The instruction at COA_PC stands at the end of its queue. -/
def State.entered (s : State) (k : Nat) : State :=
  (s.opened k).setCoach k { (s.opened k).coach k with flight := (s.coach k).flight ++ [s.newInf k], nextId := (s.coach k).nextId + 1 }

/-- The weight sets have exchanged roles (R165). -/
def State.setsTurned (s : State) (k : Nat) : State := (s.setFld ARR_WSTATE_ACTIVE k 0 (1 - s.fld ARR_WSTATE_ACTIVE k)).showSets k

/-- SWAPW exchanges the roles of the sets where it issues; every other instruction leaves them. -/
def State.setsTurnedIf (s : State) (k op : Nat) : State := if op == 2 then s.setsTurned k else s

/-- The instruction at COA_PC has entered its queue, CLOSE has closed its operation, it is counted, and COA_PC has passed it. -/
def State.unitIssued (s : State) (k : Nat) : State :=
  ((((s.entered k).setsTurnedIf k (opOf (s.atPc k))).closeIf k (iClose (s.atPc k) && s.liveAt k) (s.coach k).nextId (s.fld COA_PC_PC k) (iStatSel (s.atPc k))).counted k).setFld
    COA_PC_PC k 0 (s.fld COA_PC_PC k + 1)

/-- An operation opened changes the coach's operations alone. -/
theorem OpsFrame.opened (s : State) (k : Nat) : OpsFrame k [] s (s.opened k) := by
  unfold State.opened State.openFor
  split
  · exact ⟨.updCoach s k _, by simp⟩
  · exact .refl k [] s

/-- An operation opened changes no register field. -/
theorem State.fields_opened (s : State) (k : Nat) : (s.opened k).fields = s.fields := by
  unfold State.opened State.openFor
  split <;> rfl

/-- An instruction of a unit issues below index 1,023: it enters its queue, and is tried at once. -/
theorem State.issueTo_eq {s : State} {k op : Nat} (h : IssueReady k op s) (hq : QueueRoom k op s) (u : SeqUnit) :
    s.issueTo k op u = (s.unitIssued k).tryStart k u := by
  obtain ⟨hi, hop, hb, hpc⟩ := h
  have hfld : ∀ (f : Fld), (s.opened k).fld f k = s.fld f k := fun f => by rw [State.fld, State.fields_opened, State.fld]
  obtain ⟨hid, hfl⟩ : ((s.opened k).coach k).nextId = (s.coach k).nextId ∧ ((s.opened k).coach k).flight = (s.coach k).flight := by
    rw [(OpsFrame.opened s k).2]
    exact ⟨rfl, rfl⟩
  have hadv : ∀ t : State, t.advance k (s.fld COA_PC_PC k) = t.setFld COA_PC_PC k 0 (s.fld COA_PC_PC k + 1) := fun t => if_neg (by rw [beq_iff_eq]; omega)
  rw [State.issueTo, State.issueOp_issues hi hop hq hb]
  unfold State.issueUnit
  dsimp only
  rw [hadv]
  unfold State.unitIssued State.setsTurnedIf State.setsTurned State.entered State.newInf
  rw [← hid, ← hfl, ← hfld ARR_WSTATE_ACTIVE]
  rfl

/-! ### What the issue leaves -/

/-- Changes of register fields leave the coaches' parts. -/
theorem OnlyFields.opsFrame {L : List (Fld × Nat × Nat)} {s t : State} (a : OnlyFields L s t) (k : Nat) : OpsFrame k L s t := by
  refine ⟨a.onlyCoach k, ?_⟩
  rw [a.1]
  rfl

/-- The weight sets shown. -/
theorem OnlyFields.showSets {L : List (Fld × Nat × Nat)} (s : State) {k : Nat} (hk : k < 2048) (h : setFlds4 k ⊆ L) : OnlyFields L s (s.showSets k) :=
  .setFlds s hk (by
    simp only [List.forall_mem_cons]
    exact ⟨⟨by decide +kernel, h (by simp [setFlds4])⟩, ⟨by decide +kernel, h (by simp [setFlds4])⟩, ⟨by decide +kernel, h (by simp [setFlds4])⟩,
      ⟨by decide +kernel, h (by simp [setFlds4])⟩, fun _ hx => absurd hx List.not_mem_nil⟩)

/-- What enters the queue changes the coach's own part alone. -/
theorem OnlyCoach.entered {L : List (Fld × Nat × Nat)} (s : State) (k : Nat) : OnlyCoach k L s (s.entered k) :=
  ((OpsFrame.opened s k).mono (List.nil_subset L)).1.trans (.setCoach _ k _)

/-- The fields that an instruction's issue changes: those of the issue, and for SWAPW those of the weight sets. -/
def passFlds (k op : Nat) : List (Fld × Nat × Nat) :=
  [(COA_PC_PC, k, 0), (COA_ISSUED_ISSUED, k, 0), (COA_SEQ_SEQ, k, 0)] ++ if op = 2 then (ARR_WSTATE_ACTIVE, k, 0) :: setFlds4 k else []

/-- The weight sets' roles change for SWAPW alone. -/
theorem OpsFrame.setsTurnedIf (s : State) {k : Nat} (hk : k < 2048) (op : Nat) : OpsFrame k (passFlds k op) s (s.setsTurnedIf k op) := by
  unfold State.setsTurnedIf
  split
  next h =>
    have h2 : op = 2 := by simpa using h
    exact ((OnlyFields.setFld s _ (by decide +kernel) hk (by simp [passFlds, h2])).trans
      (OnlyFields.showSets _ hk (fun x hx => by simp [passFlds, h2, hx]))).opsFrame k
  · exact .refl k _ s

/-- From the queue on, the issue changes the operations and the fields of the issue alone. -/
theorem OpsFrame.unitIssued (s : State) {k : Nat} (hk : k < 2048) : OpsFrame k (passFlds k (opOf (s.atPc k))) (s.entered k) (s.unitIssued k) :=
  (((OpsFrame.setsTurnedIf _ hk _).trans ((OpsFrame.closeIf _ hk _ _ _ _).mono (by simp [passFlds]))).trans
    (.setFld _ k _ (by decide +kernel) hk (by simp [passFlds]))).trans (.setFld _ k _ (by decide +kernel) hk (by simp [passFlds]))

/-- The issue changes the coach and the fields of the issue alone. -/
theorem OnlyCoach.unitIssued (s : State) {k : Nat} (hk : k < 2048) : OnlyCoach k (passFlds k (opOf (s.atPc k))) s (s.unitIssued k) :=
  (OnlyCoach.entered s k).trans (OpsFrame.unitIssued s hk).1

/-- The coach after the issue: the instruction stands at the end of its queue. -/
theorem State.coach_unitIssued (s : State) {k : Nat} (hk : k < 2048) : (s.unitIssued k).coach k =
    { s.coach k with flight := (s.coach k).flight ++ [s.newInf k], nextId := (s.coach k).nextId + 1, ops := ((s.unitIssued k).coach k).ops } := by
  refine (OpsFrame.unitIssued s hk).2.trans ?_
  rw [State.entered, State.coach_setCoach_same, (OpsFrame.opened s k).2]

/-- COA_PC passes the instruction that issues, which is counted. -/
theorem passedOn_unitIssued {s : State} {k : Nat} (hk : k < 2048) (h : s.fld COA_PC_PC k < 1023) : PassedOn k s (s.unitIssued k) := by
  refine ⟨(State.fld_setFld_same _ COA_PC_PC k 0 _).trans (Nat.mod_eq_of_lt (Nat.succ_lt_succ h)), ?_⟩
  refine (State.fld_setFld_idx _ k 0 k 0 _ (by decide)).trans ((State.issued_counted _ k).trans ?_)
  have hkeep : OnlyCoach k ((COA_SEQ_SEQ, k, 0) :: (ARR_WSTATE_ACTIVE, k, 0) :: setFlds4 k) s
      (((s.entered k).setsTurnedIf k (opOf (s.atPc k))).closeIf k (iClose (s.atPc k) && s.liveAt k) (s.coach k).nextId (s.fld COA_PC_PC k) (iStatSel (s.atPc k))) := by
    refine ((OnlyCoach.entered s k).trans ?_).trans ((OpsFrame.closeIf _ hk _ _ _ _).mono (by simp)).1
    unfold State.setsTurnedIf
    split
    · exact ((OnlyFields.setFld _ _ (by decide +kernel) hk (by simp)).trans (OnlyFields.showSets _ hk (fun x hx => by simp [hx]))).onlyCoach k
    · exact .refl k _ _
  rw [hkeep.2.1 _ (by decide +kernel) k 0 hk (by simp [setFlds4]; decide)]

/-- The coach clock runs after the issue as before. -/
theorem State.coachStill_unitIssued (s : State) {k : Nat} (hk : k < 2048) : (s.unitIssued k).coachStill = s.coachStill := by
  refine (OnlyCoach.unitIssued s hk).coachStill ?_
  unfold passFlds setFlds4
  split <;> simp <;> decide

end Sys2Proof.Machine
end

section
/-! RESULTS. Every instruction of a unit issues into its queue, and starts at once where nothing is in flight (R177, R178, R180, R209; O25). -/

namespace Sys2Proof.Machine

/-! ### Start on a coach with nothing in flight -/

/-- A coach with nothing in flight has room in every queue. -/
theorem QueueRoom.of_alone {k op : Nat} {s : State} (h : (s.coach k).flight = []) : QueueRoom k op s := fun u _ => by
  rw [h]
  cases u <;> decide

/-- An instruction alone in flight may start: a PASS when its set is loaded. -/
theorem State.canStart_alone {s : State} {k : Nat} {i : Inf} (hf : (s.coach k).flight = [i]) (h3 : opOf i.w = 3 → (s.coach k).loaded i.wset = true) :
    s.canStart k i = true := by
  have hb : (s.coach k).flight.filter (fun j => decide (j.id < i.id)) = [] := by simp [hf]
  unfold State.canStart
  dsimp only
  rw [hb]
  split
  case h_3 h => simp [h3 h]
  case h_7 => simp [vecReady, hf]
  all_goals simp

/-- An instruction alone in flight starts with its work alone. -/
theorem State.startInf_alone {s : State} {k : Nat} {i : Inf} (hf : (s.coach k).flight = [i]) : s.startInf k i = s.startWork k i := by
  have hb : (s.coach k).flight.filter (fun j => decide (j.id < i.id)) = [] := by simp [hf]
  rw [State.startInf, hb]
  rfl

/-- The weight sets of the coach after the issue. -/
theorem State.flight_unitIssued_alone {s : State} {k : Nat} (hk : k < 2048) (hf : (s.coach k).flight = []) :
    ((s.unitIssued k).coach k).flight = [s.newInf k] := by
  rw [s.coach_unitIssued hk, hf]
  rfl

/-- An instruction of a unit issues and starts at once on a coach with nothing in flight (a PASS where the active set is loaded). -/
theorem State.issueTo_alone {s : State} {k op : Nat} {u : SeqUnit} (hk : k < 2048) (h : IssueReady k op s) (hf : (s.coach k).flight = []) (hu : unitOf op = some u)
    (h3 : op = 3 → (s.coach k).loaded (s.fld ARR_WSTATE_ACTIVE k) = true) : s.issueTo k op u = (s.unitIssued k).startWork k (s.newInf k) := by
  have hflight := State.flight_unitIssued_alone hk hf
  obtain ⟨hi, hop, -, -⟩ := id h
  obtain ⟨hstill, -⟩ := State.issuing_iff.1 hi
  have hnext : ((s.unitIssued k).coach k).nextOf u = some (s.newInf k) := by
    have hw : unitOf (opOf (s.newInf k).w) = some u := (congrArg unitOf hop).trans hu
    simp [CoachS.nextOf, hflight, hw]
    rfl
  have hcan : (s.unitIssued k).canStart k (s.newInf k) = true := by
    refine State.canStart_alone hflight (fun ho => ?_)
    have hop3 : opOf (s.atPc k) = 3 := ho
    have hset : (s.newInf k).wset = s.fld ARR_WSTATE_ACTIVE k := if_neg (by rw [hop3]; decide)
    rw [hset, s.coach_unitIssued hk]
    exact h3 (hop.symm.trans hop3)
  rw [State.issueTo_eq h (.of_alone hf), State.tryStart_eq_startInf hnext ((s.coachStill_unitIssued hk).trans hstill) hcan, State.startInf_alone hflight]

/-! ### The issue rows -/

/-- Every issue row issues to the unit of its opcode. -/
theorem exec_unitRows : ∀ x ∈ unitRows, ∃ u, unitOf x.2 = some u ∧ ∀ (k : Coach) (s : State), exec (x.1 k) s = .next (s.issueTo k x.2 u) := by
  simp only [unitRows, vecRows, List.cons_append, List.nil_append, List.forall_mem_cons, List.not_mem_nil, false_imp_iff, implies_true, and_true]
  and_intros <;> exact ⟨_, rfl, fun _ _ => rfl⟩

/-- What the sequencer shows after an issue is what the queue shows, with the change that a start makes of those in flight. -/
theorem seqView_issueTo {s : State} {k op : Nat} (h : IssueReady k op s) (hq : QueueRoom k op s) (u : SeqUnit) :
    ∃ l, (s.issueTo k op u).seqView k = { (s.unitIssued k).seqView k with flight := l } := by
  rw [State.issueTo_eq h hq]
  exact State.seqView_tryStart _ k u

/-- COA_PC and the count of issued instructions after an issue. -/
theorem PassedOn.of_seqView {k : Nat} {s t u : State} {l : List (Nat × Nat × Bool × Bool)} (h : PassedOn k s t) (hv : u.seqView k = { t.seqView k with flight := l }) :
    PassedOn k s u := by
  obtain ⟨hpc, hcnt⟩ := h
  exact ⟨(congrArg SeqView.pc hv).trans hpc, (congrArg SeqView.issued hv).trans hcnt⟩

/-- The start of the one instruction in flight: it stands started, or it is a SWAPW or not live and none is left. -/
theorem Begun.alone {i : Inf} {l : List (Nat × Nat × Bool × Bool)} (h : Begun i [i.shown] l) :
    (∃ f, l = [(i.id, i.w, true, f)]) ∨ l = [] ∧ (opOf i.w = 2 ∨ i.live = false) := by
  obtain rfl | ⟨-, rfl⟩ | ⟨hop, rfl⟩ := h
  · exact .inl ⟨i.finished, by simp [shownStarted, Inf.shown]⟩
  · exact .inl ⟨true, by simp [shownFinished, Inf.shown]⟩
  · exact .inr ⟨by simp [shownWithout, Inf.shown], hop⟩

/-- Settles O25: the queue's issue gives COA_PC, the count and the number; alone in flight, the instruction's work is what a start makes of it. -/
theorem unitInstructionsIssue : Obligations.UnitInstructionsIssue := by
  refine ⟨fun c op k s hrow h hq => ?_, fun c op k s hrow h hf h3 => ?_, fun c op k s hrow h => ?_⟩
  all_goals obtain ⟨u, hu, hexec⟩ := exec_unitRows _ hrow
  all_goals have hk : k.val < 2048 := k.isLt.trans (by decide)
  · obtain ⟨l, hl⟩ := seqView_issueTo h hq u
    obtain ⟨-, -, -, hpc⟩ := h
    refine ⟨_, hexec k s, (passedOn_unitIssued hk hpc).of_seqView hl, (congrArg SeqView.nextId hl).trans ?_⟩
    change ((s.unitIssued k).coach k).nextId = _
    rw [s.coach_unitIssued hk]
  · obtain ⟨-, hop, -, hpc⟩ := id h
    obtain ⟨l, hl, hb⟩ := (s.unitIssued k).seqView_startWork k (s.newInf k)
    have hview : ((s.unitIssued k).seqView k).flight = [(s.newInf k).shown] := by
      change ((s.unitIssued k).coach k).flight.map Inf.shown = _
      rw [State.flight_unitIssued_alone hk hf]
      rfl
    rw [hview] at hb
    rw [← State.issueTo_alone hk h hf hu h3] at hl
    refine ⟨_, hexec k s, (passedOn_unitIssued hk hpc).of_seqView hl, ?_⟩
    have hfl : ((s.issueTo k op u).coach k).flight.map Inf.shown = l := congrArg SeqView.flight hl
    obtain ⟨f, rfl⟩ | ⟨rfl, hdone⟩ := hb.alone
    · obtain ⟨i, hi, he⟩ := List.map_eq_singleton_iff.mp hfl
      simp only [Inf.shown, Prod.mk.injEq] at he
      obtain ⟨hid, hw, hs, -⟩ := he
      exact .inl ⟨i, hi, hw, hid, hs⟩
    · refine .inr ⟨List.map_eq_nil_iff.mp hfl, ?_⟩
      have hlive : s.liveAt k = isLive (s.loopSt k) (s.atPc k) := by simp [State.liveAt, State.loopAhead, hf]
      exact hdone.imp hop.symm.trans hlive.symm.trans
  · rw [hexec, State.issueTo, State.issueOp_stays h]

end Sys2Proof.Machine
end

section
/-! SUPPORT. The operation that an issued instruction counts in (R184 to R187), and lanes written to a register name (R216). -/

namespace Sys2Proof.Machine

/-! ### The operation of an issued instruction -/

/-- An instruction that counts and is live belongs to the open operation. -/
theorem State.opn_newInf {s : State} {k : Nat} {o : Opn} (hc : counting (opOf (s.atPc k)) = true) (hl : s.liveAt k = true)
    (ho : ((s.opened k).coach k).openOp = some o) : (s.newInf k).opn = some o.seq := by
  simp [State.newInf, hc, hl, ho]

/-- An instruction that does not count belongs to no operation. -/
theorem State.opn_newInf_none {s : State} {k : Nat} (hc : counting (opOf (s.atPc k)) = false) : (s.newInf k).opn = none := by
  simp [State.newInf, hc]

/-- The one operation of a coach, still found by its number once the instruction has issued, with its mode and whether a spill failed it. -/
theorem State.findOp_unitIssued {s : State} {k : Nat} {o : Opn} (h2 : opOf (s.atPc k) ≠ 2) (hops : ((s.opened k).coach k).ops = [o])
    (hopen : o.closed = false) : ∃ p, findOp ((s.unitIssued k).coach k).ops o.seq = some p ∧ p.mode = o.mode ∧ p.failed = o.failed := by
  have hent : ((s.entered k).coach k).ops = [o] := by rw [State.entered, State.coach_setCoach_same]; exact hops
  have hturn : (s.entered k).setsTurnedIf k (opOf (s.atPc k)) = s.entered k := if_neg (by simpa using h2)
  unfold State.unitIssued
  rw [hturn]
  change ∃ p, findOp (((s.entered k).closeIf k (iClose (s.atPc k) && s.liveAt k) (s.coach k).nextId (s.fld COA_PC_PC k) (iStatSel (s.atPc k))).coach k).ops o.seq = some p ∧ _
  cases iClose (s.atPc k) && s.liveAt k with
  | false => exact ⟨o, by simp [State.closeIf, findOp, hent], rfl, rfl⟩
  | true =>
    have ho : ((s.entered k).coach k).openOp = some o := by simp [CoachS.openOp, hent, hopen]
    exact ⟨o.closing (s.coach k).nextId (s.fld COA_PC_PC k) (iStatSel (s.atPc k)) false,
      by simp [State.closeIf, findOp, State.closeFor_some ho, mapOp, hent, Opn.closing], rfl, rfl⟩

/-- The mode, and whether it has failed, of the operation that an issued instruction counts in. -/
theorem State.modeOf_unitIssued {s : State} {k : Nat} {o : Opn} (hc : counting (opOf (s.atPc k)) = true) (hl : s.liveAt k = true)
    (hops : ((s.opened k).coach k).ops = [o]) (hopen : o.closed = false) :
    (s.unitIssued k).modeOf k (s.newInf k).opn = o.mode ∧ (s.unitIssued k).opFailed k (s.newInf k).opn = o.failed := by
  have h2 : opOf (s.atPc k) ≠ 2 := fun h => absurd (h ▸ hc) (by decide)
  obtain ⟨p, hp, hmode, hfail⟩ := s.findOp_unitIssued h2 hops hopen
  rw [State.opn_newInf hc hl (o := o) (by simp [CoachS.openOp, hops, hopen])]
  simp only [State.modeOf, State.opFailed, hp]
  exact ⟨hmode, hfail⟩

/-- A counting instruction that is live works under the mode of its operation, which no spill has failed (R185). -/
theorem WorksUnder.modeOf {s : State} {k : Nat} {md : NumMode} (h : WorksUnder k md s) (hc : counting (opOf (s.atPc k)) = true) (hl : s.liveAt k = true) :
    (s.unitIssued k).modeOf k (s.newInf k).opn = md ∧ (s.unitIssued k).opFailed k (s.newInf k).opn = false := by
  obtain ⟨o, ⟨hops, hopen, hfail, hmode⟩, -⟩ := State.openFor_joined h hc
  rw [← hl] at hops
  rw [← hmode, ← hfail]
  exact State.modeOf_unitIssued hc hl hops hopen

/-! ### Lanes of a name (R216) -/

/-- A name up to 64 gives one of the 64 registers. -/
theorem physReg_lt_of_le {rrb name : Nat} (h : name ≤ 64) : physReg rrb name < 64 := by
  unfold physReg
  split <;> omega

/-- A name and the next one give two registers. -/
theorem physReg_succ_ne {rrb name : Nat} (h : name < 64) : physReg rrb (name + 1) ≠ physReg rrb name := by
  unfold physReg
  split <;> split <;> omega

/-- The 512 lanes of a register. -/
@[simp] theorem State.length_lanes (s : State) (k r : Nat) : (s.lanes k r).length = 512 := by simp [State.lanes]

/-- A write of a register leaves the lanes of every other register. -/
theorem State.lanes_setLanes_other (s : State) (k : Nat) {r r' : Nat} (hne : r' ≠ r) {vs : List Nat} (h : vs.length = 512) :
    (s.setLanes k r 0 vs).lanes k r' = s.lanes k r' := by
  refine List.ext_getElem (by simp) (fun i hi _ => ?_)
  have hi' : i < 512 := by simpa using hi
  simp only [State.lanes, State.setLanes, mslice_eq, List.getElem_map, List.getElem_range, mget_mblock, List.length_map, h]
  exact if_neg (by omega)

/-- The codes of a name just written. -/
theorem State.kindCodes_putCodes (s : State) (k rrb : Nat) {name : Nat} (hn : name < 64) (pair : Bool) {cs : List Nat} (hl : cs.length = 512) :
    (s.putCodes k rrb name pair cs).kindCodes k rrb name pair = cs.map (· % 2 ^ (kindFmt pair).width) := by
  cases pair with
  | false =>
    rw [State.kindCodes, State.putCodes_f32]
    simp only [Bool.false_eq_true, if_false]
    rw [State.lanes_setLanes _ _ _ (by simpa using hl)]
    simp only [List.map_map, kindFmt, Fmt.width]
    exact List.map_congr_left (fun c _ => Nat.mod_mod c (2 ^ 32))
  | true =>
    simp only [State.kindCodes, State.putCodes, if_true]
    rw [State.lanes_setLanes_other _ _ (physReg_succ_ne hn).symm (by simpa using hl), State.lanes_setLanes _ _ _ (by simpa using hl),
      State.lanes_setLanes _ _ _ (by simpa using hl)]
    simp only [List.map_map, List.zipWith_map, List.zipWith_self, kindFmt, if_true, Fmt.width, Function.comp_apply]
    refine List.map_congr_left (fun c _ => ?_)
    omega

/-- A write of a name changes its registers alone. -/
theorem VecKeeps.putCodes {L : List (Fld × Nat × Nat)} (s : State) (k rrb : Nat) {name : Nat} (hn : name < 64) (pair : Bool) {cs : List Nat} (hl : cs.length = 512) :
    VecKeeps k (physRegs rrb name pair) L s (s.putCodes k rrb name pair cs) := by
  cases pair with
  | false => exact .setLanes s (physReg_lt hn) (by simp [physRegs]) (by simpa using hl)
  | true =>
    exact (VecKeeps.setLanes s (physReg_lt hn) (by simp [physRegs]) (by simpa using hl)).trans
      (VecKeeps.setLanes _ (physReg_lt_of_le hn) (by simp [physRegs]) (by simpa using hl))

/-- The codes of a name: one for each lane. -/
@[simp] theorem State.length_kindCodes (s : State) (k rrb name : Nat) (pair : Bool) : (s.kindCodes k rrb name pair).length = 512 := by
  cases pair <;> simp [State.kindCodes]

/-- The codes of a name go by the registers alone. -/
theorem State.kindCodes_of_vreg {s t : State} (h : t.vreg = s.vreg) (k rrb name : Nat) (pair : Bool) : t.kindCodes k rrb name pair = s.kindCodes k rrb name pair := by
  simp only [State.kindCodes, State.lanes, h]

end Sys2Proof.Machine
end

section
/-! RESULTS. The lane arithmetic and the moves write VD from their operands' lanes, and nothing else (R216, R223, R225, R226, R171; O17). -/

namespace Sys2Proof.Machine

/-! ### The work (R225, R226) -/

/-- A register result of 512 values: the codes it leaves in VD, and that it changes nothing else but counts. -/
theorem vecWrite_gives {k : Nat} (hk : k < 2048) (q : State) (i : Inf) (rrb : Nat) (pair : Bool) {vs : List Val} (hl : vs.length = 512) (n : Nat) :
    (q.vecWrite k i rrb pair vs n).kindCodes k rrb (iVd i.w) pair = (vs.map (laneCode (q.modeOf k i.opn) pair)).map (· % 2 ^ (kindFmt pair).width) ∧
    VecKeeps k (physRegs rrb (iVd i.w) pair) (cntFlds k) q (q.vecWrite k i rrb pair vs n) := by
  unfold State.vecWrite
  dsimp only
  set cs := (vs.map (convertVal (q.modeOf k i.opn) false (kindFmt pair))).map (·.code) with hcs
  have hlen : cs.length = 512 := by simp [hcs, hl]
  have hcodes : cs = vs.map (laneCode (q.modeOf k i.opn) pair) := by rw [hcs, List.map_map]; rfl
  have hcnt : ∀ sat flush tile, OpsFrame k (cntFlds k) (q.putCodes k rrb (iVd i.w) pair cs)
      (((q.putCodes k rrb (iVd i.w) pair cs).count k i.opn sat flush 0).addTile k i.opn tile) := fun sat flush tile =>
    (OpsFrame.count _ hk i.opn (fun _ => by simp [cntFlds]) (fun _ => by simp [cntFlds]) (fun h => absurd rfl h)).trans
      (.addTile _ hk (by simp [cntFlds]) i.opn tile)
  refine ⟨?_, (VecKeeps.putCodes q k rrb (iVd_lt i.w) pair hlen).trans ((hcnt _ _ _).vecKeeps _)⟩
  rw [State.kindCodes_of_vreg (hcnt _ _ _).vreg, State.kindCodes_putCodes q k rrb (iVd_lt i.w) pair hlen, hcodes]

/-- The work of an instruction that writes VD as a list of 512 values. -/
theorem workGives_write {op : Nat} {res : NumMode → Nat → State → Nat → List Nat}
    (h : ∀ (q : State) (k : Nat) (i : Inf), opOf i.w = op → ∃ vs n, q.vecWork k i (q.fld VEC_LOOP_RRB k) = q.vecWrite k i (q.fld VEC_LOOP_RRB k) (iP i.w) vs n ∧
      vs.length = 512 ∧ res (q.modeOf k i.opn) k q i.w = vs.map (laneCode (q.modeOf k i.opn) (iP i.w))) : WorkGives op iP res := by
  intro k q i hop
  obtain ⟨vs, n, hw, hl, hres⟩ := h q k i hop
  rw [hw, hres]
  exact vecWrite_gives (k.isLt.trans (by decide)) q i _ _ hl n

/-- The values of an operand: one for each lane. -/
@[simp] theorem length_vals (md : NumMode) (p : Bool) (k n : Nat) (s : State) : (vals md p k n s).length = 512 := by simp [vals, readVals]

/-- The work of a two-operand instruction. -/
theorem workGives_vec2 {op : Nat} {f : Val → Val → Val} (h : ∀ (q : State) (k : Nat) (i : Inf) (rrb : Nat), opOf i.w = op → q.vecWork k i rrb = q.vec2 k i rrb f) :
    WorkGives op iP (lanes2 f) :=
  workGives_write (fun q k i hop => ⟨List.zipWith f (vals (q.modeOf k i.opn) (iP i.w) k (iVa i.w) q) (vals (q.modeOf k i.opn) (iP i.w) k (iVb i.w) q), _,
    h q k i _ hop, by simp, by rw [lanes2, List.map_zipWith]⟩)

/-- A three-operand instruction writes the values of its lanes. -/
theorem State.vec3_eq (q : State) (k : Nat) (i : Inf) (f : Val → Val → Val → Val) : ∃ n, q.vec3 k i (q.fld VEC_LOOP_RRB k) f =
    q.vecWrite k i (q.fld VEC_LOOP_RRB k) (iP i.w) (List.zipWith (fun ab c => f ab.1 ab.2 c) (List.zip (vals (q.modeOf k i.opn) (iP i.w) k (iVa i.w) q)
      (vals (q.modeOf k i.opn) (iP i.w) k (iVb i.w) q)) (vals (q.modeOf k i.opn) (iP i.w) k (iVc i.w) q)) n := ⟨_, rfl⟩

/-- The work of a three-operand instruction. -/
theorem workGives_vec3 {op : Nat} {f : Val → Val → Val → Val} (h : ∀ (q : State) (k : Nat) (i : Inf) (rrb : Nat), opOf i.w = op → q.vecWork k i rrb = q.vec3 k i rrb f) :
    WorkGives op iP (lanes3 f) := by
  refine workGives_write (fun q k i hop => ?_)
  obtain ⟨n, hn⟩ := q.vec3_eq k i f
  exact ⟨_, n, (h q k i _ hop).trans hn, by simp, by rw [lanes3, List.map_zipWith]⟩

/-- Lanes of VABS. -/
def lanesAbs (md : NumMode) (k : Nat) (s : State) (w : Nat) : List Nat := (vals md (iP w) k (iVa w) s).map (fun v => laneCode md (iP w) (vAbs v))

/-- The work of VABS. -/
theorem workGives_vabs : WorkGives 0x4F iP lanesAbs :=
  workGives_write (fun q k i hop => ⟨(vals (q.modeOf k i.opn) (iP i.w) k (iVa i.w) q).map vAbs, _, by simp only [State.vecWork, hop]; rfl, by simp,
    by rw [lanesAbs, List.map_map]; rfl⟩)

/-- An operand's values go by the registers and the loop's rotation alone. -/
theorem vals_of_eq {s q : State} {k : Nat} (hv : q.vreg = s.vreg) (hr : q.fld VEC_LOOP_RRB k = s.fld VEC_LOOP_RRB k) (md : NumMode) (p : Bool) (n : Nat) :
    vals md p k n q = vals md p k n s := by rw [vals, vals, State.kindCodes_of_vreg hv, hr]

/-- The rows of the arithmetic instructions, each with what its work leaves in VD. -/
structure ArithRow (c : Coach → Instr) (op : Nat) (res : NumMode → Nat → State → Nat → List Nat) : Prop where
  exec : ∀ k s, exec (c k) s = .next (s.issueTo k op .vector)
  counts : counting op = true
  unit : unitOf op = some .vector
  reads : ReadsLanes res
  gives : WorkGives op iP res

/-- A two-operand row. -/
theorem ArithRow.of_vec2 {c : Coach → Instr} {op : Nat} {f : Val → Val → Val} (hexec : ∀ k s, Machine.exec (c k) s = .next (s.issueTo k op .vector))
    (hc : counting op = true) (hu : unitOf op = some .vector)
    (h : ∀ (q : State) (k : Nat) (i : Inf) (rrb : Nat), opOf i.w = op → q.vecWork k i rrb = q.vec2 k i rrb f) : ArithRow c op (lanes2 f) :=
  ⟨hexec, hc, hu, fun md k s q w hv hr => by simp only [lanes2, vals_of_eq hv hr], workGives_vec2 h⟩

/-- A three-operand row. -/
theorem ArithRow.of_vec3 {c : Coach → Instr} {op : Nat} {f : Val → Val → Val → Val} (hexec : ∀ k s, Machine.exec (c k) s = .next (s.issueTo k op .vector))
    (hc : counting op = true) (hu : unitOf op = some .vector)
    (h : ∀ (q : State) (k : Nat) (i : Inf) (rrb : Nat), opOf i.w = op → q.vecWork k i rrb = q.vec3 k i rrb f) : ArithRow c op (lanes3 f) :=
  ⟨hexec, hc, hu, fun md k s q w hv hr => by simp only [lanes3, vals_of_eq hv hr], workGives_vec3 h⟩

/-- VADD. -/
theorem arithRow_vadd : ArithRow Instr.vadd 0x48 (lanes2 Val.add) := .of_vec2 (fun _ _ => rfl) rfl rfl (fun q k i rrb h => by simp only [State.vecWork, h])

/-- VSUB. -/
theorem arithRow_vsub : ArithRow Instr.vsub 0x49 (lanes2 (fun a b => a.add b.negate)) :=
  .of_vec2 (fun _ _ => rfl) rfl rfl (fun q k i rrb h => by simp only [State.vecWork, h])

/-- VMUL. -/
theorem arithRow_vmul : ArithRow Instr.vmul 0x4A (lanes2 Val.mul) := .of_vec2 (fun _ _ => rfl) rfl rfl (fun q k i rrb h => by simp only [State.vecWork, h])

/-- VFMA. -/
theorem arithRow_vfma : ArithRow Instr.vfma 0x4B (lanes3 (fun a b c => (a.mul b).add c)) :=
  .of_vec3 (fun _ _ => rfl) rfl rfl (fun q k i rrb h => by simp only [State.vecWork, h])

/-- VFMS. -/
theorem arithRow_vfms : ArithRow Instr.vfms 0x4C (lanes3 (fun a b c => (a.mul b).add c.negate)) :=
  .of_vec3 (fun _ _ => rfl) rfl rfl (fun q k i rrb h => by simp only [State.vecWork, h])

/-- VMIN. -/
theorem arithRow_vmin : ArithRow Instr.vmin 0x4D (lanes2 vMin) := .of_vec2 (fun _ _ => rfl) rfl rfl (fun q k i rrb h => by simp only [State.vecWork, h])

/-- VMAX. -/
theorem arithRow_vmax : ArithRow Instr.vmax 0x4E (lanes2 vMax) := .of_vec2 (fun _ _ => rfl) rfl rfl (fun q k i rrb h => by simp only [State.vecWork, h])

/-- VABS. -/
theorem arithRow_vabs : ArithRow Instr.vabs 0x4F lanesAbs :=
  ⟨fun _ _ => rfl, rfl, rfl, fun md k s q w hv hr => by simp only [lanesAbs, vals_of_eq hv hr], workGives_vabs⟩

/-- What an arithmetic row leaves. -/
theorem ArithRow.result {c : Coach → Instr} {op : Nat} {res : NumMode → Nat → State → Nat → List Nat} (h : ArithRow c op res) : Result c op iP res :=
  result_of_work h.exec h.counts h.unit h.reads h.gives

/-! ### The moves, which count in no operation (R185, R223) -/

/-- A live vector instruction that does not count issues under NUMCTL, in no operation. -/
theorem vecIssued_plain {k : Coach} {op : Nat} {md : NumMode} {s : State} (h : VecReady k op md s) (hc : counting op = false) (hu : unitOf op = some .vector) :
    VecIssued k ((s.unitIssued k).numMode k) s (s.unitIssued k) (s.newInf k) := by
  have hk : k.val < 2048 := k.isLt.trans (by decide)
  obtain ⟨⟨-, hop, -, hpc⟩, hf, -, hlive⟩ := h
  have hflds : passFlds k (opOf (s.atPc k)) = [(COA_PC_PC, k.val, 0), (COA_ISSUED_ISSUED, k.val, 0), (COA_SEQ_SEQ, k.val, 0)] := by
    have h2 : op ≠ 2 := by rintro rfl; cases hu
    simp [passFlds, hop, h2]
  have hopn : (s.newInf k).opn = none := State.opn_newInf_none (by rw [hop]; exact hc)
  refine ⟨hflds ▸ OnlyCoach.unitIssued s hk, passedOn_unitIssued hk hpc, ?_, by rw [hopn]; rfl, by rw [hopn]; rfl, rfl, ?_, rfl, rfl⟩
  · have hcoach := s.coach_unitIssued hk
    rwa [hf] at hcoach
  · change s.liveAt k = true
    simpa [State.liveAt, State.loopAhead, hf] using hlive

/-- A move writes VD with codes that go by the registers and the loop's rotation alone, whatever the mode, and nothing else. -/
theorem result_of_move {c : Coach → Instr} {op : Nat} {pair : Nat → Bool} {res : NumMode → Nat → State → Nat → List Nat}
    (hexec : ∀ k s, exec (c k) s = .next (s.issueTo k op .vector)) (hc : counting op = false) (hu : unitOf op = some .vector) (hres : ReadsLanes res)
    (hmd : ∀ md md' : NumMode, res md = res md') (hwork : ∀ (k : Nat) (q : State) (i : Inf), opOf i.w = op → q.vecWork k i (q.fld VEC_LOOP_RRB k) =
      q.putCodes k (q.fld VEC_LOOP_RRB k) (iVd i.w) (pair i.w) (res (q.modeOf k i.opn) k q i.w))
    (hlen : ∀ md k q w, (res md k q w).length = 512) : Result c op pair res := by
  intro k md s h
  have hk : k.val < 2048 := k.isLt.trans (by decide)
  have hq := vecIssued_plain h hc hu
  obtain ⟨hready, hf, -⟩ := id h
  obtain ⟨-, hop, -⟩ := id hready
  obtain ⟨hqs, hqf, -⟩ := hq.only
  have hvreg : (s.unitIssued k).vreg = s.vreg := by rw [hqs]
  have hrrb : (s.unitIssued k).fld VEC_LOOP_RRB k = s.fld VEC_LOOP_RRB k := hqf _ (by decide +kernel) k 0 hk (by simp; decide)
  have hstart : s.issueTo k op .vector = (s.unitIssued k).startVector k (s.newInf k) := by
    exact (State.issueTo_eq hready (.of_alone hf) .vector).trans (hq.tryStart (State.issuing_iff.1 hready.1).1 hop hu)
  refine ⟨_, (hexec k s).trans (congrArg _ (hstart.trans (State.startVector_live hq.live hq.failed))), ?_, ?_⟩
  · rw [State.kindCodes_vecStarted, hrrb, ← hrrb, hwork k _ _ (by rw [hq.word, hop]), hrrb, hres _ k s _ _ hvreg hrrb, hmd _ md, hq.word,
      State.kindCodes_putCodes _ _ _ (iVd_lt _) _ (hlen _ _ _ _)]
  · have hkeeps := VecKeeps.putCodes (L := cntFlds k ++ []) (s.unitIssued k) k ((s.unitIssued k).fld VEC_LOOP_RRB k) (iVd_lt (s.newInf k).w) (pair (s.newInf k).w)
      (hlen ((s.unitIssued k).modeOf k (s.newInf k).opn) k (s.unitIssued k) (s.newInf k).w)
    rw [← hwork k _ _ (by rw [hq.word, hop])] at hkeeps
    rw [← hrrb]
    exact hq.vecFrame hkeeps (fun _ h => absurd h List.not_mem_nil) _

/-- Codes that VMOV moves. -/
def lanesMoved (_ : NumMode) (k : Nat) (s : State) (w : Nat) : List Nat := s.kindCodes k (s.fld VEC_LOOP_RRB k) (iVa w) (iP w)

/-- Codes that VBCAST writes. -/
def lanesImm (_ : NumMode) (_ : Nat) (_ : State) (w : Nat) : List Nat := List.replicate 512 (fieldOf w 2 0 32)

/-- VMOV. -/
theorem result_vmov : Result Instr.vmov 0x42 iP lanesMoved :=
  result_of_move (fun _ _ => rfl) rfl rfl (fun md k s q w hv hr => by rw [lanesMoved, State.kindCodes_of_vreg hv, hr, lanesMoved]) (fun _ _ => rfl)
    (fun k q i hop => by simp only [State.vecWork, hop]; rfl) (fun _ _ _ _ => State.length_kindCodes _ _ _ _ _)

/-- VBCAST. -/
theorem result_vbcast : Result Instr.vbcast 0x43 (fun _ => false) lanesImm :=
  result_of_move (fun _ _ => rfl) rfl rfl (fun _ _ _ _ _ _ _ => rfl) (fun _ _ => rfl)
    (fun k q i hop => by simp only [State.vecWork, hop]; rfl) (fun _ _ _ _ => List.length_replicate)

/-! ### Operations that a spill has failed (R171) -/

/-- Every memory stays where nothing changes but fields and a coach's own part. -/
theorem OnlyCoach.sameMemories {k : Nat} {L : List (Fld × Nat × Nat)} {s t : State} (a : OnlyCoach k L s t) : SameMemories s t := by
  rw [a.1]
  exact ⟨rfl, rfl, rfl, rfl, rfl, rfl⟩

/-- The work of a failed operation is undone in the registers. -/
theorem State.startVector_failed {q : State} {k : Nat} {i : Inf} (hl : i.live = true) (hf : q.opFailed k i.opn = true) :
    q.startVector k i = State.vecStarted { q.vecWork k i (q.fld VEC_LOOP_RRB k) with vreg := q.vreg } k i (q.fld VEC_LOOP_RRB k) := by
  simp [State.startVector, State.vecStarted, hl, hf]

/-- The start of an instruction of an operation that a spill has failed writes no register and no memory. -/
theorem ArithRow.failed {c : Coach → Instr} {op : Nat} {res : NumMode → Nat → State → Nat → List Nat} (h : ArithRow c op res) {k : Coach} {o : Opn} {s : State}
    (hready : IssueReady k op s) (hf : (s.coach k).flight = []) (hops : (s.coach k).ops = [o]) (hopen : o.closed = false) (hfail : o.failed = true)
    (hlive : isLive (s.loopSt k) (s.atPc k) = true) : ∃ t, Machine.exec (c k) s = .next t ∧ PassedOn k s t ∧ t.vreg = s.vreg ∧ SameMemories s t := by
  have hk : k.val < 2048 := k.isLt.trans (by decide)
  obtain ⟨-, hop, -, hpc⟩ := id hready
  have hl : s.liveAt k = true := by simpa [State.liveAt, State.loopAhead, hf] using hlive
  have hopened : ((s.opened k).coach k).ops = [o] := by
    have hopenOp : (s.coach k).openOp = some o := by simp [CoachS.openOp, hops, hopen]
    have hsame : s.opened k = s := if_neg (by simp [hopenOp])
    rw [hsame]
    exact hops
  obtain ⟨-, hfailed⟩ := State.modeOf_unitIssued (by rw [hop]; exact h.counts) hl hopened hopen
  have hne : ¬ op = 3 := fun he => absurd (he ▸ h.unit) (by decide)
  have hstart := State.issueTo_alone hk hready hf h.unit (fun he => absurd he hne)
  obtain ⟨l, hview, -⟩ := (s.unitIssued k).seqView_startWork k (s.newInf k)
  have hpassed := (passedOn_unitIssued hk hpc).of_seqView hview
  have hwork : (s.unitIssued k).startWork k (s.newInf k) = (s.unitIssued k).startVector k (s.newInf k) := by
    have hopi : opOf (s.newInf k).w = op := hop
    have hu := h.unit
    unfold State.startWork
    split
    case h_7 => rfl
    all_goals
      rename_i heq
      rw [← hopi, heq] at hu
      cases hu
  obtain ⟨hstore0, hbank0, hvreg, hsacc0, hhbm0, hmedia0⟩ := (OnlyCoach.unitIssued s hk).sameMemories
  obtain ⟨-, ⟨hkeeps, -⟩, -⟩ := h.gives k (s.unitIssued k) (s.newInf k) hop
  obtain ⟨hstore, hbank, -, hsacc, hhbm, hmedia⟩ := hkeeps.sameMemories
  refine ⟨_, (h.exec k s).trans (congrArg _ hstart), hpassed, ?_⟩
  rw [hwork, State.startVector_failed hl (hfailed.trans hfail)]
  exact ⟨hvreg, hstore.trans hstore0, hbank.trans hbank0, hvreg, hsacc.trans hsacc0, hhbm.trans hhbm0, hmedia.trans hmedia0⟩

/-- Settles O17: each row's work gives VD its codes by lane; of a failed operation the registers are given back. -/
theorem vectorArithmeticByLane : Obligations.VectorArithmeticByLane := by
  refine ⟨arithRow_vadd.result, arithRow_vsub.result, arithRow_vmul.result, arithRow_vfma.result, arithRow_vfms.result, arithRow_vmin.result, arithRow_vmax.result,
    arithRow_vabs.result, result_vmov, result_vbcast, fun c op k o s hrow hready hf hops hopen hfail hlive => ?_⟩
  simp only [List.mem_cons, List.not_mem_nil, or_false, Prod.mk.injEq] at hrow
  obtain ⟨rfl, rfl⟩ | ⟨rfl, rfl⟩ | ⟨rfl, rfl⟩ | ⟨rfl, rfl⟩ | ⟨rfl, rfl⟩ | ⟨rfl, rfl⟩ | ⟨rfl, rfl⟩ | ⟨rfl, rfl⟩ := hrow
  · exact arithRow_vadd.failed hready hf hops hopen hfail hlive
  · exact arithRow_vsub.failed hready hf hops hopen hfail hlive
  · exact arithRow_vmul.failed hready hf hops hopen hfail hlive
  · exact arithRow_vfma.failed hready hf hops hopen hfail hlive
  · exact arithRow_vfms.failed hready hf hops hopen hfail hlive
  · exact arithRow_vmin.failed hready hf hops hopen hfail hlive
  · exact arithRow_vmax.failed hready hf hops hopen hfail hlive
  · exact arithRow_vabs.failed hready hf hops hopen hfail hlive

end Sys2Proof.Machine
end

section
/-! SUPPORT. The weight sets and how ARR_WSTATE shows them; reads that an instruction starts with (R148, R163, R165, R192 to R194). -/

namespace Sys2Proof.Machine

/-! ### The sets of a coach -/

section
variable (c : CoachS) (n m : Nat) (t : Tile) (ld : Bool)

/-- A set just replaced holds its tile. -/
@[simp] theorem CoachS.wset_putSet_same : (c.putSet n t ld).wset n = t := by
  unfold CoachS.putSet CoachS.wset
  split
  · simp
  · simp

/-- A set just replaced has its load flag. -/
@[simp] theorem CoachS.loaded_putSet_same : (c.putSet n t ld).loaded n = ld := by
  unfold CoachS.putSet CoachS.loaded
  split
  · simp
  · simp

/-- The other set keeps its tile. -/
theorem CoachS.wset_putSet_other (h : (n == 0) ≠ (m == 0)) : (c.putSet n t ld).wset m = c.wset m := by
  unfold CoachS.putSet CoachS.wset
  cases hn : n == 0 <;> cases hm : m == 0
  · exact absurd (hn.trans hm.symm) h
  · rfl
  · rfl
  · exact absurd (hn.trans hm.symm) h

/-- A set replaced leaves what is in flight. -/
@[simp] theorem CoachS.flight_putSet : (c.putSet n t ld).flight = c.flight := by
  unfold CoachS.putSet
  split <;> rfl

end

/-- Of a set and the other, one is set 0. -/
theorem beq_zero_other (n : Nat) : ((1 - n) == 0) ≠ (n == 0) := by
  cases n with
  | zero => decide
  | succ n => rw [show 1 - (n + 1) = 0 by omega]; simp

/-! ### ARR_WSTATE -/

/-- ARR_WSTATE.SHREADY shows whether the shadow set is ready. -/
theorem State.shready_showSets (s : State) (k : Nat) :
    (s.showSets k).fld ARR_WSTATE_SHREADY k = b2n ((s.coach k).loaded (1 - s.fld ARR_WSTATE_ACTIVE k)) := by
  refine (s.fld_setFlds_mem k 0 (by simp; decide) (by simp)).trans (Nat.mod_eq_of_lt ?_)
  cases (s.coach k).loaded (1 - s.fld ARR_WSTATE_ACTIVE k) <;> decide

/-- ARR_WSTATE.LOADING shows whether a LOADW is at work. -/
theorem State.loading_showSets (s : State) (k : Nat) :
    (s.showSets k).fld ARR_WSTATE_LOADING k = b2n ((s.coach k).flight.any (fun i => opOf i.w == 1 && i.started && !i.finished)) := by
  refine (s.fld_setFlds_mem k 0 (by simp; decide) (by simp)).trans (Nat.mod_eq_of_lt ?_)
  cases (s.coach k).flight.any (fun i => opOf i.w == 1 && i.started && !i.finished) <;> decide

/-- ARR_WSTATE.AFMT shows the active set's selector. -/
theorem State.afmt_showSets (s : State) (k : Nat) :
    (s.showSets k).fld ARR_WSTATE_AFMT k = ((s.coach k).wset (s.fld ARR_WSTATE_ACTIVE k)).sel % 32 :=
  s.fld_setFlds_mem k 0 (by simp; decide) (by simp)

/-- ARR_WSTATE.SFMT shows the shadow set's selector. -/
theorem State.sfmt_showSets (s : State) (k : Nat) :
    (s.showSets k).fld ARR_WSTATE_SFMT k = ((s.coach k).wset (1 - s.fld ARR_WSTATE_ACTIVE k)).sel % 32 :=
  s.fld_setFlds_mem k 0 (by simp; decide) (by simp)

/-- Showing the sets leaves every other field. -/
theorem State.fld_showSets (s : State) {f : Fld} (k u i : Nat) (h : f.idx % 1024 ∉ (setFlds4 k).map (·.1.idx % 1024)) : (s.showSets k).fld f u i = s.fld f u i :=
  s.fld_setFlds_idx u i k 0 h

/-- Showing the sets leaves the coach. -/
theorem State.coach_showSets (s : State) {k : Nat} (hk : k < 2048) (j : Nat) : (s.showSets k).coach j = s.coach j := by
  rw [(OnlyFields.showSets s hk (List.Subset.refl _)).1]
  rfl

/-! ### Finishing -/

/-- An instruction that finishes changes the operations and what is in flight. -/
theorem State.coach_finishInf (s : State) (k : Nat) (i : Inf) :
    (s.finishInf k i).coach k = { s.coach k with ops := ((s.finishInf k i).coach k).ops, flight := ((s.finishInf k i).coach k).flight } := by
  rw [State.finishInf, State.coach_updCoach_same]
  dsimp only
  split <;> rfl

/-- A coach at the end of its part of a work order: its END, and nothing else of it. -/
theorem State.coach_settleEnd (s : State) (k : Nat) : (s.settleEnd k).coach k =
    { s.coach k with ending := ((s.settleEnd k).coach k).ending, ended := ((s.settleEnd k).coach k).ended, idleFrom := ((s.settleEnd k).coach k).idleFrom } := by
  rcases s.settleEnd_cases k with h | h <;> rw [h]
  have hidle : ∀ t : State, (t.runToIdle k).coach k = t.coach k := by
    intro t
    unfold State.runToIdle
    split <;> rfl
  have hpassed : (s.passedEnd k).coach k = { s.coach k with ending := false, ended := true, idleFrom := s.coachCycles } := s.coach_setCoach_same k _
  rw [hidle, hpassed]

/-! ### Data that a start reads -/

/-- State `t` is `s` after a start has read its data: streams of coach `k` have moved on, and free values may have been taken. -/
def DataRead (k : Nat) (s t : State) : Prop :=
  t = { s with freeIx := t.freeIx, coaches := t.coaches } ∧ (∀ j, j ≠ k → t.coach j = s.coach j) ∧ t.coach k = { s.coach k with strm := (t.coach k).strm }

/-- Nothing is read. -/
theorem DataRead.refl (k : Nat) (s : State) : DataRead k s s := ⟨rfl, fun _ _ => rfl, rfl⟩

/-- One read after another. -/
theorem DataRead.trans {k : Nat} {s t u : State} (a : DataRead k s t) (b : DataRead k t u) : DataRead k s u := by
  obtain ⟨ha, hja, hca⟩ := a
  obtain ⟨hb, hjb, hcb⟩ := b
  refine ⟨hb.trans ?_, fun j hj => (hjb j hj).trans (hja j hj), hcb.trans ?_⟩
  · rw [ha]
  · rw [hca]

/-- A stream's bookkeeping. -/
theorem DataRead.updStrm (s : State) (k n : Nat) (f : Strm → Strm) : DataRead k s (s.updStrm k n f) := by
  refine ⟨rfl, fun j hj => s.coach_setCoach_other _ hj, ?_⟩
  rw [State.updStrm, State.coach_updCoach_same]

/-- A read of a consumer half. -/
theorem DataRead.halfRead (s : State) (k n pos len : Nat) : DataRead k s (s.halfRead k n pos len).2 := by
  unfold State.halfRead
  dsimp only
  split <;> exact .refl k _

/-- The data of a LOADW. -/
theorem DataRead.loadwBytes (s : State) (k : Nat) (i : Inf) : DataRead k s (s.loadwBytes k i).2.2 := by
  unfold State.loadwBytes
  dsimp only
  split
  · exact ((DataRead.updStrm s k _ _).trans (.halfRead _ k _ _ _)).trans (.updStrm _ k _ _)
  · exact .refl k s

/-- What is read of a half goes by the store, what the half has received and where it stands, and the free values to come. -/
theorem State.halfRead_congr {s q : State} {k n : Nat} (hs : q.store = s.store) (hr : (q.strm k n).recv = (s.strm k n).recv)
    (hb : q.consBase k n = s.consBase k n) (hf : q.freeIx = s.freeIx) (pos len : Nat) : (q.halfRead k n pos len).1 = (s.halfRead k n pos len).1 := by
  unfold State.halfRead
  dsimp only
  rw [hr, hb]
  split
  · simp only [State.storeRead, hs]
  · simp only [State.storeRead, State.draws, hs, hf]

/-- What a LOADW reads goes by its word, the store, its coach's streams and where their halves stand, and the free values to come. -/
theorem State.loadwBytes_congr {s q : State} {k : Nat} {i j : Inf} (hw : j.w = i.w) (hs : q.store = s.store) (hr : (q.coach k).strm = (s.coach k).strm)
    (hb : ∀ n, q.consBase k n = s.consBase k n) (hf : q.freeIx = s.freeIx) :
    (q.loadwBytes k j).1 = (s.loadwBytes k i).1 ∧ (q.loadwBytes k j).2.1 = (s.loadwBytes k i).2.1 := by
  have hstrm : ∀ n, q.strm k n = s.strm k n := fun n => by rw [State.strm, hr, State.strm]
  unfold State.loadwBytes
  rw [hw]
  dsimp only
  split
  next st _ =>
    have hread : ∀ len, ((q.reserve k st len).2.halfRead k st (q.reserve k st len).1 len).1 = ((s.reserve k st len).2.halfRead k st (s.reserve k st len).1 len).1 := by
      intro len
      have hpos : (q.reserve k st len).1 = (s.reserve k st len).1 := congrArg Strm.resv (hstrm st)
      rw [hpos]
      refine State.halfRead_congr (s := (s.reserve k st len).2) (q := (q.reserve k st len).2) hs ?_ (hb st) hf _ _
      change (((q.updStrm k st _).strm k st).recv) = (((s.updStrm k st _).strm k st).recv)
      rw [State.strm_updStrm, State.strm_updStrm, if_pos rfl, if_pos rfl, hstrm]
    rw [hread]
    exact ⟨rfl, rfl⟩
  · simp only [State.storeRead, hs, and_self]

end Sys2Proof.Machine
end

section
/-! RESULTS. LOADW, LOADW_COMPLETE, SWAPW and the start of a PASS (R148, R163, R165, R192 to R194; O22). -/

namespace Sys2Proof.Machine

/-! ### LOADW -/

/-- A consumer half stands where it stood when its stream's fields stay. -/
theorem SameFields.consBase {L : List (Fld × Nat × Nat)} {s t : State} (h : SameFields L s t) {k : Nat} (hk : k < 2048)
    (hL : ∀ x ∈ L, x.1 ≠ STR_BUF_BASE ∧ x.1 ≠ STR_STATE_CONS ∧ x.1 ≠ STR_HALF_HALF) (n : Nat) : t.consBase k n = s.consBase k n := by
  have hbase := h STR_BUF_BASE (by decide +kernel) k n hk (fun hm => (hL _ hm).1 rfl)
  have hcons := h STR_STATE_CONS (by decide +kernel) k n hk (fun hm => (hL _ hm).2.1 rfl)
  have hhalf := h STR_HALF_HALF (by decide +kernel) k n hk (fun hm => (hL _ hm).2.2 rfl)
  rw [State.consBase, State.halfSize, hbase, hcons, hhalf, State.consBase, State.halfSize]

/-- The issue fields stand apart from where a stream's half stands. -/
theorem passFlds_ne_half {k op : Nat} : ∀ x ∈ passFlds k op, x.1 ≠ STR_BUF_BASE ∧ x.1 ≠ STR_STATE_CONS ∧ x.1 ≠ STR_HALF_HALF := by
  unfold passFlds setFlds4
  split <;> simp <;> decide

/-- Changes of a coach's part and fields, with free values taken before. -/
theorem OnlyCoach.withFreeIx {k : Nat} {L : List (Fld × Nat × Nat)} {s t : State} (a : OnlyCoach k L s t) (n : Nat) :
    OnlyCoach k L { s with freeIx := n } { t with freeIx := n } := by
  obtain ⟨ht, hf, hc⟩ := a
  refine ⟨?_, hf, hc⟩
  rw [ht]

/-- Data that a start reads changes its coach alone, with the free values it takes. -/
theorem DataRead.onlyCoach {k : Nat} {s t : State} (a : DataRead k s t) (L : List (Fld × Nat × Nat)) : OnlyCoach k L { s with freeIx := t.freeIx } t := by
  obtain ⟨ht, hj, -⟩ := a
  have hf : t.fields = s.fields := by rw [ht]
  refine ⟨?_, .of_eq hf, hj⟩
  rw [hf]
  exact ht

/-- What a LOADW reads and counts. -/
def State.loadwRead (s : State) (k : Nat) (i : Inf) : State :=
  (s.loadwBytes k i).2.2.count k i.opn 0 (tileOf (s.modeOf k i.opn) i.w (s.loadwBytes k i).1 (s.loadwBytes k i).2.1).2 0

/-- The tile of a LOADW. -/
def State.loadwTile (s : State) (k : Nat) (i : Inf) : Tile := (tileOf (s.modeOf k i.opn) i.w (s.loadwBytes k i).1 (s.loadwBytes k i).2.1).1

/-- A LOADW has its tile and has started; its set is empty and not ready. -/
def State.loadwStarted (s : State) (k : Nat) (i : Inf) : State :=
  (s.loadwRead k i).updCoach k (fun c => (c.mapInf i.id (fun j => { j with tile := s.loadwTile k i, started := true })).putSet i.wset (c.wset i.wset) false)

/-- The start of a LOADW in its parts. -/
theorem State.startLoadw_eq (s : State) (k : Nat) (i : Inf) : s.startLoadw k i = (s.loadwStarted k i).showSets k := by
  unfold State.startLoadw State.loadwStarted State.loadwRead State.loadwTile
  rfl

/-- What a LOADW reads and counts changes its coach and the counts of what it flushes. -/
theorem OnlyCoach.loadwStarted (s : State) {k : Nat} (hk : k < 2048) (i : Inf) :
    OnlyCoach k (issueFlds k) { s with freeIx := (s.loadwStarted k i).freeIx } (s.loadwStarted k i) := by
  have hcount : OpsFrame k (issueFlds k) (s.loadwBytes k i).2.2 (s.loadwRead k i) :=
    .count _ hk i.opn (fun h => absurd rfl h) (fun _ => by simp [flushFlds, issueFlds]) (fun h => absurd rfl h)
  have hrest : OnlyCoach k (issueFlds k) (s.loadwBytes k i).2.2 (s.loadwStarted k i) := hcount.1.trans (.updCoach (s.loadwRead k i) k _)
  have hfree : (s.loadwStarted k i).freeIx = (s.loadwBytes k i).2.2.freeIx := by rw [hrest.1]
  rw [hfree]
  exact ((DataRead.loadwBytes s k i).onlyCoach _).trans hrest

/-- A change of more fields. -/
theorem OnlyCoach.mono {k : Nat} {L M : List (Fld × Nat × Nat)} {s t : State} (a : OnlyCoach k L s t) (h : L ⊆ M) : OnlyCoach k M s t := by
  obtain ⟨ht, hf, hc⟩ := a
  exact ⟨ht, hf.mono h, hc⟩

/-- What a LOADW that starts changes: its coach, the counts of what it flushes, and how the sets show. -/
theorem OnlyCoach.startLoadw (s : State) {k : Nat} (hk : k < 2048) (i : Inf) :
    OnlyCoach k (issueFlds k ++ setFlds4 k) { s with freeIx := (s.startLoadw k i).freeIx } (s.startLoadw k i) := by
  have hshow : OnlyFields (issueFlds k ++ setFlds4 k) (s.loadwStarted k i) (s.startLoadw k i) := by
    rw [State.startLoadw_eq]
    exact .showSets _ hk (by simp)
  have hfree : (s.startLoadw k i).freeIx = (s.loadwStarted k i).freeIx := by rw [hshow.1]
  rw [hfree]
  exact ((OnlyCoach.loadwStarted s hk i).mono (by simp)).trans (hshow.onlyCoach k)

/-- The coach as a LOADW reads: the operations and the streams may have moved on. -/
theorem State.coach_loadwRead (s : State) {k : Nat} (hk : k < 2048) (i : Inf) : (s.loadwRead k i).coach k =
    { s.coach k with strm := ((s.loadwRead k i).coach k).strm, ops := ((s.loadwRead k i).coach k).ops } := by
  have hcount : OpsFrame k (issueFlds k) (s.loadwBytes k i).2.2 (s.loadwRead k i) :=
    .count _ hk i.opn (fun h => absurd rfl h) (fun _ => by simp [flushFlds, issueFlds]) (fun h => absurd rfl h)
  rw [hcount.2, (DataRead.loadwBytes s k i).2.2]

/-- The coach when a LOADW has started. -/
theorem State.coach_startLoadw (s : State) {k : Nat} (hk : k < 2048) (i : Inf) : ∃ c : CoachS,
    (s.startLoadw k i).coach k = (c.mapInf i.id (fun j => { j with tile := s.loadwTile k i, started := true })).putSet i.wset ((s.coach k).wset i.wset) false ∧
    c.flight = (s.coach k).flight ∧ ∀ n, c.wset n = (s.coach k).wset n := by
  refine ⟨(s.loadwRead k i).coach k, ?_, by rw [s.coach_loadwRead hk], fun n => by rw [s.coach_loadwRead hk]; rfl⟩
  rw [State.startLoadw_eq, State.coach_showSets _ hk, State.loadwStarted, State.coach_updCoach_same]
  have hset : ((s.loadwRead k i).coach k).wset i.wset = (s.coach k).wset i.wset := by rw [s.coach_loadwRead hk]; rfl
  rw [hset]

/-- An instruction of the array or bank unit is live. -/
theorem State.liveAt_of_unit {s : State} {k : Nat} (h : unitOf (opOf (s.atPc k)) ≠ some .vector) : s.liveAt k = true := by
  simp [State.liveAt, isLive, h]

/-- LOADW takes its data at its start, and its set is not ready. -/
theorem loadw_starts {k : Coach} {md : NumMode} {s : State} (h : BankReady k 1 md s) : ∃ t i, exec (.loadw k) s = .next t ∧ Launched k i s t ∧
    i.wset = 1 - s.fld ARR_WSTATE_ACTIVE k ∧
    i.tile = (tileOf md (s.atPc k) (s.loadwBytes k { id := 0, w := s.atPc k, pc := 0 }).1 (s.loadwBytes k { id := 0, w := s.atPc k, pc := 0 }).2.1).1 ∧
    (t.coach k).loaded (1 - s.fld ARR_WSTATE_ACTIVE k) = false ∧ t.fld ARR_WSTATE_SHREADY k = 0 ∧ t.fld ARR_WSTATE_LOADING k = 1 ∧
    (t.coach k).wset (s.fld ARR_WSTATE_ACTIVE k) = (s.coach k).wset (s.fld ARR_WSTATE_ACTIVE k) ∧
    OnlyCoach k (issueFlds k ++ setFlds4 k) { s with freeIx := t.freeIx } t := by
  have hk : k.val < 2048 := k.isLt.trans (by decide)
  obtain ⟨hready, hf, hwork, -⟩ := h
  obtain ⟨-, hop, -, hpc⟩ := id hready
  have hlive : s.liveAt k = true := State.liveAt_of_unit (by rw [hop]; decide)
  obtain ⟨hmode, -⟩ := hwork.modeOf (by rw [hop]; decide) hlive
  have honly := OnlyCoach.unitIssued s hk
  have hflds : passFlds k (opOf (s.atPc k)) ⊆ issueFlds k ++ setFlds4 k := by simp [hop, passFlds, issueFlds]
  have hcoach := s.coach_unitIssued hk
  have hwset : (s.newInf k).wset = 1 - s.fld ARR_WSTATE_ACTIVE k := if_pos (by rw [hop]; rfl)
  have hactive : (s.unitIssued k).fld ARR_WSTATE_ACTIVE k = s.fld ARR_WSTATE_ACTIVE k := honly.2.1 _ (by decide +kernel) k 0 hk (by simp [hop, passFlds]; decide)
  have htile : (s.unitIssued k).loadwTile k (s.newInf k) =
      (tileOf md (s.atPc k) (s.loadwBytes k { id := 0, w := s.atPc k, pc := 0 }).1 (s.loadwBytes k { id := 0, w := s.atPc k, pc := 0 }).2.1).1 := by
    obtain ⟨h1, h2⟩ := State.loadwBytes_congr (s := s) (q := s.unitIssued k) (k := k.val) (i := { id := 0, w := s.atPc k, pc := 0 }) (j := s.newInf k) rfl honly.store
      (by rw [hcoach]) (honly.2.1.consBase hk passFlds_ne_half) (by rw [honly.1])
    rw [State.loadwTile, hmode, h1, h2]
    rfl
  obtain ⟨c, hc, hcf, hcw⟩ := (s.unitIssued k).coach_startLoadw hk (s.newInf k)
  have hcflight : c.flight = [s.newInf k] := hcf.trans (State.flight_unitIssued_alone hk hf)
  have hstart : (s.unitIssued k).startWork k (s.newInf k) = (s.unitIssued k).startLoadw k (s.newInf k) := by
    have hopi : opOf (s.newInf k).w = 1 := hop
    simp only [State.startWork, hopi]
  have hexec : exec (.loadw k) s = .next ((s.unitIssued k).startLoadw k (s.newInf k)) :=
    congrArg ok ((State.issueTo_alone hk hready hf (u := .array) rfl (fun h => absurd h (by decide))).trans hstart)
  have hactive' : ((s.unitIssued k).loadwStarted k (s.newInf k)).fld ARR_WSTATE_ACTIVE k = s.fld ARR_WSTATE_ACTIVE k :=
    ((OnlyCoach.loadwStarted (s.unitIssued k) hk (s.newInf k)).2.1 _ (by decide +kernel) k 0 hk (by simp [issueFlds]; decide)).trans hactive
  have hpassed : PassedOn k s ((s.unitIssued k).startLoadw k (s.newInf k)) := (passedOn_unitIssued hk hpc).of_seqView (State.seqView_startLoadw _ k _)
  have hfree : ((s.unitIssued k).startLoadw k (s.newInf k)).coach k = ((s.unitIssued k).loadwStarted k (s.newInf k)).coach k := by
    rw [State.startLoadw_eq, State.coach_showSets _ hk]
  refine ⟨_, { s.newInf k with tile := (s.unitIssued k).loadwTile k (s.newInf k), started := true }, hexec, ⟨hpassed, ?_, rfl, rfl, rfl⟩, hwset, htile, ?_, ?_, ?_, ?_, ?_⟩
  · rw [hc, CoachS.flight_putSet]
    simp [CoachS.mapInf, hcflight]
  · rw [hc, hwset, CoachS.loaded_putSet_same]
  · rw [State.startLoadw_eq, State.shready_showSets, hactive', ← hfree, hc, hwset, CoachS.loaded_putSet_same]
    rfl
  · rw [State.startLoadw_eq, State.loading_showSets, ← hfree, hc, CoachS.flight_putSet]
    have hopi : opOf (s.newInf k).w = 1 := hop
    simp [CoachS.mapInf, hcflight, hopi, b2n]
    rfl
  · rw [hc, CoachS.wset_putSet_other _ _ _ _ _ (by rw [hwset]; exact beq_zero_other _)]
    exact (hcw _).trans (by rw [hcoach]; rfl)
  · exact ((honly.mono hflds).withFreeIx _).trans (OnlyCoach.startLoadw (s.unitIssued k) hk (s.newInf k))

/-! ### LOADW_COMPLETE -/

/-- A LOADW's tile stands in its set, ready, and the LOADW has finished. -/
def State.tileLoaded (s : State) (k : Nat) (i : Inf) : State := (s.updCoach k (fun c => c.putSet i.wset i.tile true)).finishInf k i

/-- The coach once a tile has been loaded. -/
theorem State.coach_tileLoaded (s : State) (k : Nat) (i : Inf) (n : Nat) :
    ((s.tileLoaded k i).coach k).wset n = ((s.coach k).putSet i.wset i.tile true).wset n ∧
    ((s.tileLoaded k i).coach k).loaded n = ((s.coach k).putSet i.wset i.tile true).loaded n := by
  unfold State.tileLoaded
  rw [State.coach_finishInf, State.coach_updCoach_same]
  exact ⟨rfl, rfl⟩

/-- LOADW_COMPLETE of a LOADW that has started. -/
theorem exec_loadwComplete {k : Coach} {i : Inf} {s : State} (hi : (s.coach k).flight.find? (fun i => opOf i.w == 1 && i.started && !i.finished) = some i)
    (hstill : s.coachStill = false) : exec (.loadwComplete k) s = .next (((s.tileLoaded k i).showSets k).settleEnd k) := by
  change execLoadwComplete k s = _
  rw [execLoadwComplete, if_neg (by rw [hstill]; exact Bool.false_ne_true), hi]
  rfl

/-- What LOADW_COMPLETE leaves. -/
theorem loadwComplete_loads {k : Coach} {i : Inf} {s : State} (hi : (s.coach k).flight.find? (fun i => opOf i.w == 1 && i.started && !i.finished) = some i)
    (hstill : s.coachStill = false) : ∃ t, exec (.loadwComplete k) s = .next t ∧ (t.coach k).wset i.wset = i.tile ∧
      (t.coach k).loaded i.wset = true ∧ (t.coach k).wset (1 - i.wset) = (s.coach k).wset (1 - i.wset) ∧
      (∀ j ∈ (t.coach k).flight, j.id = i.id → j.finished = true) ∧
      (i.wset = 1 - s.fld ARR_WSTATE_ACTIVE k → t.fld ARR_WSTATE_SHREADY k = 1 ∧ t.fld ARR_WSTATE_SFMT k = i.tile.sel % 32) ∧
      OnlyCoach k ((COA_PC_PC, k.val, 0) :: (COA_STATE_STATE, k.val, 0) :: setFlds4 k) s t := by
  have hk : k.val < 2048 := k.isLt.trans (by decide)
  have hset : ∀ n, ((((s.tileLoaded k i).showSets k).settleEnd k).coach k).wset n = ((s.coach k).putSet i.wset i.tile true).wset n := fun n => by
    rw [State.coach_settleEnd, State.coach_showSets _ hk]
    exact (s.coach_tileLoaded k i n).1
  have hload : ∀ n, ((((s.tileLoaded k i).showSets k).settleEnd k).coach k).loaded n = ((s.coach k).putSet i.wset i.tile true).loaded n := fun n => by
    rw [State.coach_settleEnd, State.coach_showSets _ hk]
    exact (s.coach_tileLoaded k i n).2
  refine ⟨_, exec_loadwComplete hi hstill, ?_, ?_, ?_, ?_, fun ha => ⟨?_, ?_⟩, ?_⟩
  · rw [hset, CoachS.wset_putSet_same]
  · rw [hload, CoachS.loaded_putSet_same]
  · rw [hset, CoachS.wset_putSet_other _ _ _ _ _ (beq_zero_other _).symm]
  · rw [State.flight_settleEnd, State.coach_showSets _ hk]
    exact finished_finishInf _ k i
  · rw [State.fld_settleEnd _ _ _ _ (by decide) (by decide), State.shready_showSets]
    change b2n (((s.tileLoaded k i).coach k).loaded (1 - s.fld ARR_WSTATE_ACTIVE k)) = 1
    rw [(s.coach_tileLoaded k i _).2, ← ha, CoachS.loaded_putSet_same]
    rfl
  · rw [State.fld_settleEnd _ _ _ _ (by decide) (by decide), State.sfmt_showSets]
    change ((((s.tileLoaded k i).coach k).wset (1 - s.fld ARR_WSTATE_ACTIVE k)).sel % 32) = _
    rw [(s.coach_tileLoaded k i _).1, ← ha, CoachS.wset_putSet_same]
  · exact ((((OnlyCoach.updCoach s k _).trans (.updCoach _ k _)).trans ((OnlyFields.showSets _ hk (fun x hx => by simp [hx])).onlyCoach k))).trans
      (.settleEnd _ hk (by simp) (by simp))

/-! ### SWAPW -/

/-- An instruction alone in flight that finishes has left, or waits for its record. -/
theorem finished_of_alone {s : State} {k : Nat} {i : Inf} (hf : (s.coach k).flight = [i]) : ∀ j ∈ ((s.finishInf k i).coach k).flight, j.finished = true := by
  intro j hj
  obtain ⟨l, hl, hor⟩ := s.seqView_finishInf k i
  have hview : (s.seqView k).flight = [i.shown] := congrArg (List.map Inf.shown) hf
  have hmem : j.shown ∈ l := by
    have hmap : ((s.finishInf k i).coach k).flight.map Inf.shown = l := congrArg SeqView.flight hl
    exact hmap ▸ List.mem_map_of_mem hj
  obtain rfl | rfl := hor
  · rw [hview] at hmem
    have hj' : j.shown = (i.id, i.w, true, true) := by simpa [shownFinished, Inf.shown] using hmem
    exact congrArg (fun x => x.2.2.2) hj'
  · rw [hview] at hmem
    simp [shownWithout, Inf.shown] at hmem

/-- How the sets show after the issue of a SWAPW. -/
theorem State.fld_unitIssued_swapw {s : State} {k : Nat} {f : Fld} (hop : opOf (s.atPc k) = 2)
    (hs : f.idx % 1024 ≠ COA_SEQ_SEQ.idx % 1024) (hi : f.idx % 1024 ≠ COA_ISSUED_ISSUED.idx % 1024) (hp : f.idx % 1024 ≠ COA_PC_PC.idx % 1024) :
    (s.unitIssued k).fld f k = ((s.entered k).setsTurned k).fld f k := by
  have hturn : (s.entered k).setsTurnedIf k (opOf (s.atPc k)) = (s.entered k).setsTurned k := if_pos (by rw [hop]; rfl)
  refine (State.fld_setFld_idx _ k 0 k 0 _ hp).trans ((State.fld_counted _ k k 0 hi).trans ?_)
  rw [hturn]
  unfold State.closeIf
  split
  · exact State.fld_closeFor _ k _ _ _ false k 0 hs
  · rfl

/-- SWAPW exchanges the roles of the sets at its issue, and is done. -/
theorem swapw_turns {k : Coach} {s : State} (hready : IssueReady k 2 s) (hf : (s.coach k).flight = []) (ha : s.fld ARR_WSTATE_ACTIVE k < 2) :
    ∃ t, exec (.swapw k) s = .next t ∧ PassedOn k s t ∧ t.fld ARR_WSTATE_ACTIVE k = 1 - s.fld ARR_WSTATE_ACTIVE k ∧
      (t.coach k).set0 = (s.coach k).set0 ∧ (t.coach k).set1 = (s.coach k).set1 ∧
      t.fld ARR_WSTATE_SHREADY k = b2n ((s.coach k).loaded (s.fld ARR_WSTATE_ACTIVE k)) ∧
      t.fld ARR_WSTATE_AFMT k = ((s.coach k).wset (1 - s.fld ARR_WSTATE_ACTIVE k)).sel % 32 ∧
      (∀ i ∈ (t.coach k).flight, i.finished = true) ∧
      OnlyCoach k ([(COA_PC_PC, k.val, 0), (COA_ISSUED_ISSUED, k.val, 0), (COA_SEQ_SEQ, k.val, 0), (ARR_WSTATE_ACTIVE, k.val, 0)] ++ setFlds4 k) s t := by
  have hk : k.val < 2048 := k.isLt.trans (by decide)
  obtain ⟨-, hop, -, hpc⟩ := id hready
  have hstart : (s.unitIssued k).startWork k (s.newInf k) = (s.unitIssued k).finishInf k (s.newInf k) := by
    have hopi : opOf (s.newInf k).w = 2 := hop
    simp only [State.startWork, hopi]
  have hexec : exec (.swapw k) s = .next ((s.unitIssued k).finishInf k (s.newInf k)) :=
    congrArg ok ((State.issueTo_alone hk hready hf (u := .array) rfl (fun h => absurd h (by decide))).trans hstart)
  have hentered : (s.entered k).fld ARR_WSTATE_ACTIVE k = s.fld ARR_WSTATE_ACTIVE k := by
    rw [State.fld, (show (s.entered k).fields = s.fields from s.fields_opened k), State.fld]
  have hcoach : (s.entered k).coach k = { s.coach k with flight := ((s.entered k).coach k).flight, nextId := ((s.entered k).coach k).nextId, ops := ((s.entered k).coach k).ops } := by
    rw [State.entered, State.coach_setCoach_same, (OpsFrame.opened s k).2]
  set u := (s.entered k).setFld ARR_WSTATE_ACTIVE k 0 (1 - (s.entered k).fld ARR_WSTATE_ACTIVE k) with hu
  have hactive : u.fld ARR_WSTATE_ACTIVE k = 1 - s.fld ARR_WSTATE_ACTIVE k := by
    rw [hu, hentered]
    exact ((s.entered k).fld_setFld_same ARR_WSTATE_ACTIVE k 0 _).trans (Nat.mod_eq_of_lt (by change _ < 2; omega))
  have hback : 1 - (1 - s.fld ARR_WSTATE_ACTIVE k) = s.fld ARR_WSTATE_ACTIVE k := by omega
  have hucoach : u.coach k = (s.entered k).coach k := rfl
  obtain ⟨l, hview, -⟩ := (s.unitIssued k).seqView_finishInf k (s.newInf k)
  have htcoach : ((s.unitIssued k).finishInf k (s.newInf k)).coach k =
      { s.coach k with flight := (((s.unitIssued k).finishInf k (s.newInf k)).coach k).flight, nextId := (s.coach k).nextId + 1, ops := (((s.unitIssued k).finishInf k (s.newInf k)).coach k).ops } := by
    refine ((s.unitIssued k).coach_finishInf k (s.newInf k)).trans ?_
    rw [s.coach_unitIssued hk]
  refine ⟨_, hexec, (passedOn_unitIssued hk hpc).of_seqView hview, ?_, by rw [htcoach], by rw [htcoach], ?_, ?_,
    finished_of_alone (State.flight_unitIssued_alone hk hf), ?_⟩
  · refine (State.fld_unitIssued_swapw hop (by decide) (by decide) (by decide)).trans ?_
    exact (u.fld_showSets k k 0 (by simp [setFlds4]; decide)).trans hactive
  · refine (State.fld_unitIssued_swapw hop (by decide) (by decide) (by decide)).trans ((u.shready_showSets k).trans ?_)
    rw [hactive, hback, hucoach, hcoach]
    rfl
  · refine (State.fld_unitIssued_swapw hop (by decide) (by decide) (by decide)).trans ((u.afmt_showSets k).trans ?_)
    rw [hactive, hucoach, hcoach]
    rfl
  · exact ((OnlyCoach.unitIssued s hk).mono (by simp [hop, passFlds, setFlds4])).trans (.updCoach _ k _)

/-! ### PASS -/

/-- A PASS that starts keeps its set's tile, once it has its place in its stream. -/
theorem State.startPass_eq (s : State) (k : Nat) (i : Inf) : ∃ b u, OnlyCoach k [] s u ∧ u.coach k = { s.coach k with strm := (u.coach k).strm } ∧
    s.startPass k i = u.updCoach k (fun c => c.mapInf i.id (fun j => { j with tile := (s.coach k).wset i.wset, started := true, strBase := b })) := by
  unfold State.startPass
  dsimp only
  split
  next st _ =>
    refine ⟨_, _, .updCoach s k _, ?_, rfl⟩
    rw [State.coach_updCoach_same]
  · exact ⟨_, _, .refl k [] s, rfl, rfl⟩

/-- PASS takes the active set's tile and its place in its stream. -/
theorem pass_starts {k : Coach} {s : State} (hready : IssueReady k 3 s) (hf : (s.coach k).flight = [])
    (hl : (s.coach k).loaded (s.fld ARR_WSTATE_ACTIVE k) = true) :
    ∃ t i, exec (.pass k) s = .next t ∧ Launched k i s t ∧ i.wset = s.fld ARR_WSTATE_ACTIVE k ∧
      i.tile = (s.coach k).wset (s.fld ARR_WSTATE_ACTIVE k) ∧ i.rowsIn = 0 ∧ i.nAdded = 0 ∧ i.added = [] ∧
      (t.coach k).set0 = (s.coach k).set0 ∧ (t.coach k).set1 = (s.coach k).set1 ∧
      OnlyCoach k [(COA_PC_PC, k, 0), (COA_ISSUED_ISSUED, k, 0), (COA_SEQ_SEQ, k, 0)] s t := by
  have hk : k.val < 2048 := k.isLt.trans (by decide)
  obtain ⟨-, hop, -, hpc⟩ := id hready
  have hstart : (s.unitIssued k).startWork k (s.newInf k) = (s.unitIssued k).startPass k (s.newInf k) := by
    have hopi : opOf (s.newInf k).w = 3 := hop
    simp only [State.startWork, hopi]
  have hexec : exec (.pass k) s = .next ((s.unitIssued k).startPass k (s.newInf k)) :=
    congrArg ok ((State.issueTo_alone hk hready hf (u := .array) rfl (fun _ => hl)).trans hstart)
  have hpassed := (passedOn_unitIssued hk hpc).of_seqView (State.seqView_startPass (s.unitIssued k) k (s.newInf k))
  have hwset : (s.newInf k).wset = s.fld ARR_WSTATE_ACTIVE k := if_neg (by rw [hop]; decide)
  have hcoach := s.coach_unitIssued hk
  have honly : OnlyCoach k [(COA_PC_PC, k.val, 0), (COA_ISSUED_ISSUED, k.val, 0), (COA_SEQ_SEQ, k.val, 0)] s (s.unitIssued k) :=
    (OnlyCoach.unitIssued s hk).mono (by simp [hop, passFlds])
  obtain ⟨b, u, hu, huc, hux⟩ := (s.unitIssued k).startPass_eq k (s.newInf k)
  have htcoach : ((s.unitIssued k).startPass k (s.newInf k)).coach k = { s.coach k with
      flight := [{ s.newInf k with tile := (s.coach k).wset (s.fld ARR_WSTATE_ACTIVE k), started := true, strBase := b }],
      nextId := (s.coach k).nextId + 1, ops := ((s.unitIssued k).coach k).ops, strm := (u.coach k).strm } := by
    rw [hux, State.coach_updCoach_same, huc, hwset, hcoach, hf]
    simp [CoachS.mapInf]
    rfl
  refine ⟨_, { s.newInf k with tile := (s.coach k).wset (s.fld ARR_WSTATE_ACTIVE k), started := true, strBase := b }, hexec,
    ⟨hpassed, by rw [htcoach], rfl, rfl, rfl⟩, hwset, rfl, rfl, rfl, rfl, by rw [htcoach], by rw [htcoach], ?_⟩
  rw [hux]
  exact (honly.trans (hu.mono (List.nil_subset _))).trans (.updCoach u k _)

/-- Settles O22: each row's issue and start act on the sets by name, and ARR_WSTATE shows what they hold. -/
theorem weightSetsLoadSwapAndServe : Obligations.WeightSetsLoadSwapAndServe :=
  ⟨fun _ _ _ h => loadw_starts h, fun _ _ _ hi _ hs => loadwComplete_loads hi hs, fun _ _ h hf ha => swapw_turns h hf ha, fun _ _ h hf hl => pass_starts h hf hl⟩

end Sys2Proof.Machine
end

section
/-! SUPPORT. What a bank instruction writes and clears (R155, R167, R199, R259). -/

namespace Sys2Proof.Machine

/-! ### Frames -/

/-- Nothing changes but the bank, the coach stores, the register fields listed and the parts of coach `k`. -/
def BankOnly (k : Nat) (L : List (Fld × Nat × Nat)) (s t : State) : Prop := OnlyCoach k L { s with store := t.store, bank := t.bank } t

/-- One step after another. -/
theorem BankOnly.trans {k : Nat} {L : List (Fld × Nat × Nat)} {s t u : State} (a : BankOnly k L s t) (b : BankOnly k L t u) : BankOnly k L s u := by
  obtain ⟨ha, hfa, hca⟩ := a
  obtain ⟨hb, hfb, hcb⟩ := b
  refine ⟨hb.trans ?_, hfa.trans hfb, fun j hj => (hcb j hj).trans (hca j hj)⟩
  rw [ha]

/-- More fields. -/
theorem BankOnly.mono {k : Nat} {L M : List (Fld × Nat × Nat)} {s t : State} (a : BankOnly k L s t) (h : L ⊆ M) : BankOnly k M s t := OnlyCoach.mono a h

/-- Changes of fields and of the coach's own part. -/
theorem OnlyCoach.bankOnly {k : Nat} {L : List (Fld × Nat × Nat)} {s t : State} (a : OnlyCoach k L s t) : BankOnly k L s t := by
  obtain ⟨ht, hf, hc⟩ := a
  refine ⟨?_, hf.trans (.of_eq rfl), hc⟩
  rw [ht]

/-- Nothing changes but the bank, the coach stores, the register fields listed and the parts of coach `k`; what is in flight stays. -/
def BankFrame (k : Nat) (L : List (Fld × Nat × Nat)) (s t : State) : Prop := BankOnly k L s t ∧ (t.coach k).flight = (s.coach k).flight

/-- Nothing changes. -/
theorem BankFrame.refl (k : Nat) (L : List (Fld × Nat × Nat)) (s : State) : BankFrame k L s s := ⟨OnlyCoach.refl k L s, rfl⟩

/-- One step after another. -/
theorem BankFrame.trans {k : Nat} {L : List (Fld × Nat × Nat)} {s t u : State} (a : BankFrame k L s t) (b : BankFrame k L t u) : BankFrame k L s u :=
  ⟨a.1.trans b.1, b.2.trans a.2⟩

/-- More fields. -/
theorem BankFrame.mono {k : Nat} {L M : List (Fld × Nat × Nat)} {s t : State} (a : BankFrame k L s t) (h : L ⊆ M) : BankFrame k M s t := ⟨a.1.mono h, a.2⟩

/-- Changes of fields and of the coach's own part that leave what is in flight. -/
theorem OnlyCoach.bankFrame {k : Nat} {L : List (Fld × Nat × Nat)} {s t : State} (a : OnlyCoach k L s t) (h : (t.coach k).flight = (s.coach k).flight) :
    BankFrame k L s t := ⟨a.bankOnly, h⟩

/-- Changes of the operations. -/
theorem OpsFrame.bankFrame {k : Nat} {L : List (Fld × Nat × Nat)} {s t : State} (a : OpsFrame k L s t) : BankFrame k L s t :=
  a.1.bankFrame (by rw [a.2])

/-- A change of the coach's own part that leaves what is in flight. -/
theorem BankFrame.updCoach {L : List (Fld × Nat × Nat)} (s : State) (k : Nat) {f : CoachS → CoachS} (h : (f (s.coach k)).flight = (s.coach k).flight) :
    BankFrame k L s (s.updCoach k f) := (OnlyCoach.updCoach s k f).bankFrame (by rw [State.coach_updCoach_same, h])

/-- A write of the coach store. -/
theorem BankFrame.storeWrite {L : List (Fld × Nat × Nat)} (s : State) (k a : Nat) (bs : List Nat) : BankFrame k L s (s.storeWrite k a bs) := ⟨OnlyCoach.refl k L _, rfl⟩

/-- A write of an entry's word. -/
theorem BankFrame.setBankWord {L : List (Fld × Nat × Nat)} (s : State) (k e w : Nat) : BankFrame k L s (s.setBankWord k e w) := ⟨OnlyCoach.refl k L _, rfl⟩

/-! ### Clearing a region (R167, R199) -/

/-- An entry left at zero: its word, and its slot given back. -/
theorem BankFrame.clearEntry {L : List (Fld × Nat × Nat)} (s : State) {k : Nat} (hk : k < 2048) (h : (ACC_SPILLUSED_USED, k, 0) ∈ L) (e : Nat) :
    BankFrame k L s (s.clearEntry k e) := by
  unfold State.clearEntry
  dsimp only
  split
  · exact .setBankWord s k e 0
  · exact ((BankFrame.updCoach s k rfl).trans (OpsFrame.setFld _ k _ (by decide +kernel) hk h).bankFrame).trans (.setBankWord _ k e 0)

/-- The bank and the store once an entry is cleared. -/
theorem State.memories_clearEntry (s : State) (k e : Nat) : (s.clearEntry k e).bank = (s.setBankWord k e 0).bank ∧ (s.clearEntry k e).store = s.store := by
  unfold State.clearEntry
  dsimp only
  split <;> exact ⟨rfl, rfl⟩

/-- Entries cleared one after another. -/
def State.clearEntries (s : State) (k : Nat) (l : List Nat) : State := l.foldl (fun t e => t.clearEntry k e) s

/-- The entries of a region in the order of R155. -/
def regionEntries (w : Nat) : List Nat := ((regionOrder w).map (fun ma => regionRow ma.2 (iRow0 w + ma.1))).flatten

/-- A region is cleared entry by entry. -/
theorem State.clearRegion_eq (s : State) (k w : Nat) : s.clearRegion k w = s.clearEntries k (regionEntries w) := by
  rw [State.clearEntries, regionEntries, List.foldl_flatten, List.foldl_map]
  rfl

/-- The rows and arrays of a region. -/
theorem mem_regionOrder {w m a : Nat} : (m, a) ∈ regionOrder w ↔ m < iM w ∧ a ∈ iArrays w := by
  constructor
  · intro h
    obtain ⟨row, hrow, hx⟩ := List.mem_flatten.mp h
    obtain ⟨m', hm, rfl⟩ := List.mem_map.mp hrow
    obtain ⟨a', ha, he⟩ := List.mem_map.mp hx
    obtain ⟨rfl, rfl⟩ := Prod.mk.inj he
    exact ⟨List.mem_range.mp hm, ha⟩
  · rintro ⟨hm, ha⟩
    exact List.mem_flatten.mpr ⟨_, List.mem_map.mpr ⟨m, List.mem_range.mpr hm, rfl⟩, List.mem_map.mpr ⟨a, ha, rfl⟩⟩

/-- The entries listed for a region are those in it. -/
theorem mem_regionEntries {w e : Nat} : e ∈ regionEntries w ↔ inRegionOf w e := by
  constructor
  · intro h
    obtain ⟨row, hrow, he⟩ := List.mem_flatten.mp h
    obtain ⟨⟨m, a⟩, hma, rfl⟩ := List.mem_map.mp hrow
    obtain ⟨n, hn, rfl⟩ := List.mem_map.mp he
    obtain ⟨hm, ha⟩ := mem_regionOrder.mp hma
    exact ⟨m, a, n, hm, ha, List.mem_range.mp hn, rfl⟩
  · rintro ⟨m, a, n, hm, ha, hn, rfl⟩
    refine List.mem_flatten.mpr ⟨_, List.mem_map.mpr ⟨(m, a), mem_regionOrder.mpr ⟨hm, ha⟩, rfl⟩, ?_⟩
    exact List.mem_map.mpr ⟨n, List.mem_range.mpr hn, rfl⟩

/-- The entries of a region whose rows lie in the bank lie in it. -/
theorem lt_of_inRegionOf {w e : Nat} (hw : iRow0 w + iM w ≤ 256) (h : inRegionOf w e) : e < 131072 := by
  obtain ⟨m, a, c, hm, ha, hc, rfl⟩ := h
  exact entryIx_lt (lt_four_of_mem_iArrays ha) (by omega) hc

/-- Entries cleared hold zero, and every other entry's word stays. -/
theorem State.bankWord_clearEntries {k : Nat} {l : List Nat} (hl : ∀ e ∈ l, e < 131072) (s : State) :
    (∀ e ∈ l, (s.clearEntries k l).bankWord k e = 0) ∧ ∀ j e, e < 131072 → j ≠ k ∨ e ∉ l → (s.clearEntries k l).bankWord j e = s.bankWord j e := by
  induction l generalizing s with
  | nil => exact ⟨fun e he => absurd he List.not_mem_nil, fun _ _ _ _ => rfl⟩
  | cons x l ih =>
    obtain ⟨hzero, hother⟩ := ih (fun e he => hl e (List.mem_cons_of_mem _ he)) (s.clearEntry k x)
    have hx := hl x List.mem_cons_self
    have hword : ∀ j e, (s.clearEntry k x).bankWord j e = (s.setBankWord k x 0).bankWord j e := fun j e => by
      rw [State.bankWord, (s.memories_clearEntry k x).1, State.bankWord]
    refine ⟨fun e he => ?_, fun j e he hn => ?_⟩
    · by_cases hmem : e ∈ l
      · exact hzero e hmem
      · obtain rfl : e = x := (List.mem_cons.mp he).resolve_right hmem
        exact (hother k e hx (.inr hmem)).trans ((hword k e).trans (s.bankWord_setBankWord_same k e 0))
    · have hn' : j ≠ k ∨ e ∉ l := hn.imp_right (fun h hm => h (List.mem_cons_of_mem _ hm))
      refine (hother j e he hn').trans ((hword j e).trans (s.bankWord_setBankWord_other 0 hx he ?_))
      exact hn.imp_right (fun h he => h (he ▸ List.mem_cons_self))

/-- The frame of entries cleared. -/
theorem BankFrame.clearEntries {L : List (Fld × Nat × Nat)} {k : Nat} (hk : k < 2048) (h : (ACC_SPILLUSED_USED, k, 0) ∈ L) (l : List Nat) (s : State) :
    BankFrame k L s (s.clearEntries k l) ∧ (s.clearEntries k l).store = s.store := by
  induction l generalizing s with
  | nil => exact ⟨.refl k L s, rfl⟩
  | cons x l ih =>
    obtain ⟨hf, hs⟩ := ih (s.clearEntry k x)
    exact ⟨(BankFrame.clearEntry s hk h x).trans hf, hs.trans (s.memories_clearEntry k x).2⟩

/-- CLR of a bank instruction: its region cleared, or not. -/
def State.clearIf (s : State) (k w : Nat) (clr : Bool) : State := if clr then s.clearRegion k w else s

/-- CLR leaves the store. -/
theorem State.store_clearIf (s : State) {k : Nat} (hk : k < 2048) (w : Nat) (clr : Bool) : (s.clearIf k w clr).store = s.store := by
  cases clr with
  | false => rfl
  | true =>
    change (s.clearRegion k w).store = _
    rw [State.clearRegion_eq]
    exact (BankFrame.clearEntries (L := [(ACC_SPILLUSED_USED, k, 0)]) hk (by simp) _ s).2

/-- CLR changes the bank, and the field that counts slots in use. -/
theorem BankFrame.clearIf {L : List (Fld × Nat × Nat)} (s : State) {k : Nat} (hk : k < 2048) (h : (ACC_SPILLUSED_USED, k, 0) ∈ L) (w : Nat) (clr : Bool) :
    BankFrame k L s (s.clearIf k w clr) := by
  cases clr with
  | false => exact .refl k L s
  | true =>
    change BankFrame k L s (s.clearRegion k w)
    rw [State.clearRegion_eq]
    exact (BankFrame.clearEntries hk h _ s).1

/-- What CLR leaves in the bank. -/
theorem regionCleared_clearIf {s : State} {k w : Nat} {clr : Bool} (hw : clr = true → iRow0 w + iM w ≤ 256) : RegionCleared k w (clr = true) s (s.clearIf k w clr) := by
  cases clr with
  | false => exact ⟨fun h => absurd h Bool.false_ne_true, fun _ _ _ _ => rfl⟩
  | true =>
    have hl : ∀ e ∈ regionEntries w, e < 131072 := fun e he => lt_of_inRegionOf (hw rfl) (mem_regionEntries.mp he)
    change RegionCleared k w _ s (s.clearRegion k w)
    rw [State.clearRegion_eq]
    obtain ⟨hzero, hother⟩ := State.bankWord_clearEntries hl s
    refine ⟨fun _ e he => hzero e (mem_regionEntries.mpr he), fun j e he hn => hother j e he ?_⟩
    obtain h | h | h := hn
    · exact absurd rfl h
    · exact .inl h
    · exact .inr (fun hm => h (mem_regionEntries.mp hm))

/-- A region's entries before and after do not depend on what else changes. -/
theorem RegionCleared.of_bank {k w : Nat} {clr clr' : Prop} {s s' t t' : State} (h : RegionCleared k w clr s t) (hc : clr ↔ clr') (hs : s'.bank = s.bank)
    (ht : t'.bank = t.bank) : RegionCleared k w clr' s' t' := by
  obtain ⟨hz, ho⟩ := h
  simp only [RegionCleared, State.bankWord, hs, ht, ← hc]
  exact ⟨hz, ho⟩

/-! ### Output (R171, R259) -/

/-- Where an output of an instruction word goes: the consumer half of its stream behind what it holds, or an address. -/
def State.outTo (s : State) (k : Nat) (str : Option Nat) (addr : Nat) : Nat := str.elim addr (fun n => s.consBase k n + (s.strm k n).prod)

/-- The output of an operation that no spill has failed, with room for it: its bytes where it goes, and the produce pointer moved on. -/
theorem State.writeOut_fits (s : State) (k : Nat) (str : Option Nat) (addr : Nat) {bs : List Nat}
    (h : ∀ n, str = some n → (s.strm k n).prod + bs.length ≤ s.halfRoom k n) :
    (s.writeOut k false str addr bs).store = (s.storeWrite k (s.outTo k str addr) bs).store ∧ (s.writeOut k false str addr bs).bank = s.bank ∧
    (∀ n, str = some n → ((s.writeOut k false str addr bs).strm k n).prod = (s.strm k n).prod + bs.length) ∧ BankFrame k [] s (s.writeOut k false str addr bs) := by
  cases str with
  | none => exact ⟨rfl, rfl, fun n hn => by simp at hn, .storeWrite s k addr bs⟩
  | some n =>
    have hw : s.writeOut k false (some n) addr bs = (s.storeWrite k (s.consBase k n + (s.strm k n).prod) bs).updStrm k n (fun t => { t with prod := t.prod + bs.length }) := by
      change s.halfWrite k n bs = _
      rw [State.halfWrite, if_pos (decide_eq_true (h n rfl))]
    rw [hw]
    refine ⟨rfl, rfl, fun m hm => ?_, (BankFrame.storeWrite s k _ bs).trans (.updCoach _ k rfl)⟩
    obtain rfl := Option.some.inj hm
    rw [State.strm_updStrm, if_pos rfl]
    rfl

end Sys2Proof.Machine
end

section
/-! RESULTS. DRAIN and QUANT (R155, R167, R171, R196 to R199; part of O24). -/

namespace Sys2Proof.Machine

/-! ### What the issue leaves of the bank and the streams -/

/-- The value of an entry goes by the bank, the store and where the slots stand. -/
theorem State.entryAcc_congr {s q : State} {k : Nat} (hb : q.bank = s.bank) (hs : q.store = s.store) (hf : q.fld ACC_SPILLBASE_BASE k = s.fld ACC_SPILLBASE_BASE k)
    (e : Nat) : q.entryAcc k e = s.entryAcc k e := by
  simp only [State.entryAcc, State.bankWord, State.slotAddr, State.storeRead, hb, hs, hf]

section
variable (s : State) {k : Nat} (hk : k < 2048)
include hk

/-- An issue leaves the entries' values. -/
theorem State.entryAcc_unitIssued (e : Nat) : (s.unitIssued k).entryAcc k e = s.entryAcc k e := by
  have honly := OnlyCoach.unitIssued s hk
  refine State.entryAcc_congr (by rw [honly.1]) honly.store (honly.2.1 _ (by decide +kernel) k 0 hk ?_) e
  unfold passFlds setFlds4
  split <;> simp <;> decide

/-- An issue leaves the streams' bookkeeping. -/
theorem State.strm_unitIssued (n : Nat) : (s.unitIssued k).strm k n = s.strm k n := by
  rw [State.strm, s.coach_unitIssued hk, State.strm]

/-- An issue leaves the streams' directions and halves. -/
theorem State.halfRoom_unitIssued (n : Nat) : (s.unitIssued k).halfRoom k n = s.halfRoom k n := by
  have honly := OnlyCoach.unitIssued s hk
  have hne : ∀ x ∈ passFlds k (opOf (s.atPc k)), x.1 ≠ STR_CFG_DIR ∧ x.1 ≠ STR_HALF_HALF := by
    unfold passFlds setFlds4
    split <;> simp <;> decide
  have hdir := honly.2.1 STR_CFG_DIR (by decide +kernel) k n hk (fun hm => (hne _ hm).1 rfl)
  have hhalf := honly.2.1 STR_HALF_HALF (by decide +kernel) k n hk (fun hm => (hne _ hm).2 rfl)
  simp only [State.halfRoom, State.halfSize, hdir, hhalf, s.strm_unitIssued hk]

/-- An output goes where it would have gone before the issue. -/
theorem State.outTo_unitIssued (str : Option Nat) (addr : Nat) : (s.unitIssued k).outTo k str addr = s.outTo k str addr := by
  have hb := (OnlyCoach.unitIssued s hk).2.1.consBase hk passFlds_ne_half
  cases str with
  | none => exact Eq.refl addr
  | some n =>
    change (s.unitIssued k).consBase k n + ((s.unitIssued k).strm k n).prod = s.consBase k n + (s.strm k n).prod
    rw [hb, s.strm_unitIssued hk]

end

/-- Where a DRAIN or QUANT writes. -/
theorem outAt_eq (k : Nat) (s : State) (w : Nat) : outAt k s w = s.outTo k (dstStream w) (fieldOf w 1 0 23) := by
  unfold outAt State.outTo
  split <;> rename_i h <;> rw [h] <;> rfl

/-- CLR leaves the streams' bookkeeping. -/
theorem State.strm_clearIf (s : State) (k w : Nat) (clr : Bool) (n : Nat) : (s.clearIf k w clr).strm k n = s.strm k n := by
  have hone : ∀ (t : State) (e : Nat), (t.clearEntry k e).strm k n = t.strm k n := by
    intro t e
    unfold State.clearEntry
    dsimp only
    split
    · rfl
    next i _ =>
      change ((t.updCoach k (fun c => { c with spill := (t.coach k).spill.filter (· != i) })).strm k n) = _
      rw [State.strm, State.coach_updCoach_same]
      rfl
  have hall : ∀ (l : List Nat) (t : State), (t.clearEntries k l).strm k n = t.strm k n := by
    intro l
    induction l with
    | nil => exact fun _ => rfl
    | cons x l ih => exact fun t => (ih _).trans (hone t x)
  cases clr with
  | false => rfl
  | true =>
    change (s.clearRegion k w).strm k n = _
    rw [State.clearRegion_eq]
    exact hall _ s

/-! ### A bank instruction alone in flight -/

/-- An instruction alone in flight that is marked as started has been launched. -/
theorem launched_marked {s u : State} {k : Nat} (hk : k < 2048) (hpc : s.fld COA_PC_PC k < 1023) (hf : (s.coach k).flight = [])
    (hv : u.seqView k = (s.unitIssued k).seqView k) (hu : (u.coach k).flight = ((s.unitIssued k).coach k).flight) :
    Launched k { s.newInf k with started := true } s (u.markStarted k (s.newInf k).id) := by
  refine ⟨(passedOn_unitIssued hk hpc).of_seqView (State.seqView_markStarted hv _), ?_, rfl, rfl, rfl⟩
  rw [State.markStarted, State.coach_updCoach_same, CoachS.mapInf]
  dsimp only
  rw [hu, State.flight_unitIssued_alone hk hf]
  simp

/-- What stands when work that ends with CLR has been done and its instruction is marked as started. -/
theorem bankWork_result {s u : State} {k : Nat} (hk : k < 2048) (h2 : opOf (s.atPc k) ≠ 2) (hu : BankFrame k (issueFlds k) (s.unitIssued k) u)
    (hbank : u.bank = s.bank) {clr : Bool} (hrows : clr = true → iRow0 (s.atPc k) + iM (s.atPc k) ≤ 256) (id : Nat) :
    ((u.clearIf k (s.atPc k) clr).markStarted k id).store = u.store ∧
    (∀ n, ((u.clearIf k (s.atPc k) clr).markStarted k id).strm k n = u.strm k n) ∧
    RegionCleared k (s.atPc k) (clr = true) s ((u.clearIf k (s.atPc k) clr).markStarted k id) ∧
    OnlyCoach k ((ACC_SPILLUSED_USED, k, 0) :: issueFlds k)
      { s with store := ((u.clearIf k (s.atPc k) clr).markStarted k id).store, bank := ((u.clearIf k (s.atPc k) clr).markStarted k id).bank }
      ((u.clearIf k (s.atPc k) clr).markStarted k id) := by
  refine ⟨u.store_clearIf hk _ clr, fun n => ?_, (regionCleared_clearIf (s := u) hrows).of_bank Iff.rfl hbank.symm rfl, ?_⟩
  · rw [← u.strm_clearIf k (s.atPc k) clr n, State.strm, State.markStarted, State.coach_updCoach_same]
    rfl
  · have hissue : BankOnly k ((ACC_SPILLUSED_USED, k, 0) :: issueFlds k) s (s.unitIssued k) :=
      ((OnlyCoach.unitIssued s hk).mono (by simp [passFlds, h2, issueFlds])).bankOnly
    exact ((hissue.trans (hu.mono (by simp)).1).trans (BankFrame.clearIf u hk (by simp) (s.atPc k) clr).1).trans (OnlyCoach.updCoach _ k _).bankOnly

/-- A run of steps each of which changes the operations and the fields listed alone. -/
theorem OpsFrame.foldl {α : Type} {k : Nat} {L : List (Fld × Nat × Nat)} {g : State → α → State} (h : ∀ t x, OpsFrame k L t (g t x)) (l : List α) (s : State) :
    OpsFrame k L s (l.foldl g s) := by
  induction l generalizing s with
  | nil => exact .refl k L s
  | cons x l ih => exact (h s x).trans (ih _)

/-! ### DRAIN (R196, R197) -/

/-- The bytes of a DRAIN in a format, row by row. -/
def State.drainBytes (s : State) (k : Nat) (md : NumMode) (f : Fmt) (w : Nat) : List Nat :=
  ((regionOrder w).map (fun ma => packElems f.width ((s.drainRow k md f (iZoff w) ma.2 (iRow0 w + ma.1)).map (fun vc => vc.2.code)))).flatten

/-- A DRAIN in a format writes its bytes, counts, and clears on CLR. -/
theorem State.drain_codes {q : State} {k : Nat} (hk : k < 2048) {i : Inf} {f : Fmt} {sc : Bool} (h21 : fieldOf i.w 0 21 1 = 0)
    (hfs : fselOf (iFmt i.w) = some ⟨f, sc⟩) (hx : f ≠ .x24) : ∃ u, OpsFrame k (issueFlds k)
      (q.writeOut k (q.opFailed k i.opn) (dstStream i.w) (fieldOf i.w 1 0 23) (q.drainBytes k (q.modeOf k i.opn) f i.w)) u ∧
      q.drain k i = u.clearIf k i.w (fieldOf i.w 0 22 1 == 1) := by
  unfold State.drain
  dsimp only
  rw [if_neg (by simp [h21])]
  split
  next h => exact absurd (congrArg FSel.fmt (Option.some.inj (hfs.symm.trans h))) hx
  next h => exact absurd (hfs.symm.trans h) (by simp)
  next f' sc' hne h =>
    obtain ⟨rfl, rfl⟩ : f = f' ∧ sc = sc' := by
      have := Option.some.inj (hfs.symm.trans h)
      exact ⟨congrArg FSel.fmt this, by injection this⟩
    refine ⟨_, ?_, rfl⟩
    simp only [List.map_map]
    exact (OpsFrame.count _ hk i.opn (fun _ => by simp [satFlds, issueFlds]) (fun _ => by simp [flushFlds, issueFlds]) (fun h => absurd rfl h)).trans
      (.foldl (fun t x => .addTile t hk (by simp [issueFlds]) i.opn _) _ _)

/-- A DRAIN starts with its work, and stays in flight. -/
theorem State.startWork_drain (q : State) (k : Nat) {i : Inf} (h : opOf i.w = 4) : q.startWork k i = (q.drain k i).markStarted k i.id := by
  simp only [State.startWork, h]

/-- A QUANT starts with its work, and stays in flight. -/
theorem State.startWork_quant (q : State) (k : Nat) {i : Inf} (h : opOf i.w = 5) : q.startWork k i = (q.quant k i).markStarted k i.id := by
  simp only [State.startWork, h]

/-- The bytes of a DRAIN go by the entries' values. -/
theorem State.drainBytes_congr {s q : State} {k : Nat} (h : ∀ e, q.entryAcc k e = s.entryAcc k e) (md : NumMode) (f : Fmt) (w : Nat) :
    q.drainBytes k md f w = s.drainBytes k md f w := by simp only [State.drainBytes, State.drainRow, h]

/-- An instruction's output fits after the issue as before. -/
theorem OutFits.unitIssued {s : State} {k : Nat} (hk : k < 2048) {w n : Nat} (h : OutFits k s w n) :
    ∀ st, dstStream w = some st → ((s.unitIssued k).strm k st).prod + n ≤ (s.unitIssued k).halfRoom k st := fun st hst => by
  rw [s.strm_unitIssued hk, s.halfRoom_unitIssued hk]
  exact h st hst

/-- Bytes written by a start where the issue put them. -/
theorem SameBytesBut.of_store {s t : State} {k a : Nat} {bs : List Nat} {L : List (Fld × Nat × Nat)} (h : t.store = (s.storeWrite k a bs).store)
    (ho : BankOnly k L s t) : SameBytesBut k a bs.length s t := by
  obtain ⟨hbytes, -, -⟩ := sameBytesBut_storeWrite s k a bs
  obtain ⟨ht, -⟩ := ho
  refine ⟨fun x hx => by rw [h]; exact hbytes x hx, fun x => ?_, fun x => ?_⟩
  · rw [ht]
  · rw [ht]

/-- Reads of part of what was written. -/
theorem State.storeRead_part {s t : State} {k a : Nat} {bs : List Nat} (h : t.store = (s.storeWrite k a bs).store) (o : Nat) {n : Nat} (hn : o + n ≤ bs.length) :
    t.storeRead k (a + o) n = ((bs.drop o).take n).map (· % 256) := by
  refine List.ext_getElem (by simp [State.storeRead, memRead]; omega) (fun i hi _ => ?_)
  have hi' : i < n := by simpa [State.storeRead, memRead] using hi
  have hin : k * storeSize + a ≤ k * storeSize + (a + o) + i ∧ k * storeSize + (a + o) + i < k * storeSize + a + bs.length := by omega
  have hsub : k * storeSize + (a + o) + i - (k * storeSize + a) = o + i := by omega
  have hlt : o + i < bs.length := by omega
  simp [State.storeRead, h, State.storeWrite, memRead_eq, memByte_memWrite, hin, hsub, hlt]

/-- What stands when a bank instruction alone in flight has written its output, where it has room, counted, and cleared its region on CLR. -/
theorem output_result {k : Coach} {s u : State} {bs : List Nat} {clr : Bool} (h2 : opOf (s.atPc k) ≠ 2) (hpc : s.fld COA_PC_PC k < 1023) (hf : (s.coach k).flight = [])
    (hfit : OutFits k s (s.atPc k) bs.length) (hrows : clr = true → iRow0 (s.atPc k) + iM (s.atPc k) ≤ 256)
    (hu : OpsFrame k (issueFlds k) ((s.unitIssued k).writeOut k false (dstStream (s.atPc k)) (fieldOf (s.atPc k) 1 0 23) bs) u)
    (hv : (u.clearIf k (s.atPc k) clr).seqView k = (s.unitIssued k).seqView k) :
    ∃ t, t = (u.clearIf k (s.atPc k) clr).markStarted k (s.newInf k).id ∧ Launched k { s.newInf k with started := true } s t ∧
      t.store = (s.storeWrite k (outAt k s (s.atPc k)) bs).store ∧ SameBytesBut k (outAt k s (s.atPc k)) bs.length s t ∧
      RegionCleared k (s.atPc k) (clr = true) s t ∧ (∀ st, dstStream (s.atPc k) = some st → (t.strm k st).prod = (s.strm k st).prod + bs.length) ∧
      OnlyCoach k ((ACC_SPILLUSED_USED, k.val, 0) :: issueFlds k) { s with store := t.store, bank := t.bank } t := by
  have hk : k.val < 2048 := k.isLt.trans (by decide)
  obtain ⟨hstore, hbank, hprod, hframe⟩ := (s.unitIssued k).writeOut_fits k (dstStream (s.atPc k)) (fieldOf (s.atPc k) 1 0 23) (hfit.unitIssued hk)
  have hissued := OnlyCoach.unitIssued s hk
  have hwork : BankFrame k (issueFlds k) (s.unitIssued k) u := (hframe.mono (by simp)).trans hu.bankFrame
  have hubank : u.bank = s.bank := by rw [hu.1.1, ← hissued.sameMemories.2.1]; exact hbank
  obtain ⟨htstore, htstrm, hclear, honly⟩ := bankWork_result hk h2 hwork hubank hrows (s.newInf k).id
  have hwritten : ((u.clearIf k (s.atPc k) clr).markStarted k (s.newInf k).id).store = (s.storeWrite k (outAt k s (s.atPc k)) bs).store := by
    rw [htstore, hu.1.store, hstore, s.outTo_unitIssued hk, ← outAt_eq, State.storeWrite, hissued.store, State.storeWrite]
  refine ⟨_, rfl, launched_marked hk hpc hf hv ?_, hwritten, .of_store hwritten honly, hclear, fun st hst => ?_, honly⟩
  · exact (BankFrame.clearIf (L := [(ACC_SPILLUSED_USED, k.val, 0)]) u hk (by simp) (s.atPc k) clr).2.trans hwork.2
  · rw [htstrm, hu.strm, hprod st hst, s.strm_unitIssued hk]

/-- CLR of a field that is one bit. -/
theorem beq_one_iff {n : Nat} : (n == 1) = true ↔ n = 1 := beq_iff_eq

/-- The rows of a DRAIN lie in the bank (R209). -/
theorem rows_of_drain {w : Nat} (hop : opOf w = 4) (hb : badField w = false) : iRow0 w + iM w ≤ 256 := by
  simp only [badField, badValues, hop, Bool.or_eq_false_iff, decide_eq_false_iff_not] at hb
  omega

/-- The rows of a QUANT lie in the bank (R209). -/
theorem rows_of_quant {w : Nat} (hop : opOf w = 5) (hb : badField w = false) : iRow0 w + iM w ≤ 256 := by
  simp only [badField, badValues, hop, Bool.or_eq_false_iff, decide_eq_false_iff_not] at hb
  omega

/-- What a DRAIN in a format leaves. -/
theorem drain_writes {k : Coach} {md : NumMode} {s : State} {f : Fmt} {sc : Bool} {bs : List Nat} (h : BankReady k 4 md s) (h21 : fieldOf (s.atPc k) 0 21 1 = 0)
    (hfs : fselOf (iFmt (s.atPc k)) = some ⟨f, sc⟩) (hx : f ≠ .x24) (hbs : bs = s.drainBytes k md f (s.atPc k)) (hfit : OutFits k s (s.atPc k) bs.length) :
    ∃ t i, exec (.drain k) s = .next t ∧ Launched k i s t ∧ t.storeRead k (outAt k s (s.atPc k)) bs.length = bs.map (· % 256) ∧
      SameBytesBut k (outAt k s (s.atPc k)) bs.length s t ∧ RegionCleared k (s.atPc k) (fieldOf (s.atPc k) 0 22 1 = 1) s t ∧
      (∀ st, dstStream (s.atPc k) = some st → (t.strm k st).prod = (s.strm k st).prod + bs.length) ∧
      OnlyCoach k ((ACC_SPILLUSED_USED, k.val, 0) :: issueFlds k) { s with store := t.store, bank := t.bank } t := by
  have hk : k.val < 2048 := k.isLt.trans (by decide)
  obtain ⟨hready, hf, hwork, -⟩ := h
  obtain ⟨-, hop, hbad, hpc⟩ := id hready
  have hlive : s.liveAt k = true := State.liveAt_of_unit (by rw [hop]; decide)
  obtain ⟨hmode, hfail⟩ := hwork.modeOf (by rw [hop]; decide) hlive
  obtain ⟨u, hu, hdrain⟩ := State.drain_codes (q := s.unitIssued k) hk (i := s.newInf k) h21 hfs hx
  rw [hmode, hfail, State.drainBytes_congr (s.entryAcc_unitIssued hk), show (s.newInf k).w = s.atPc k from rfl, ← hbs] at hu
  obtain ⟨t, ht, hlaunch, hstore, hbytes, hclear, hprod, honly⟩ := output_result (by rw [hop]; decide) hpc hf hfit (fun _ => rows_of_drain hop hbad) hu
    (hdrain ▸ (s.unitIssued k).seqView_drain k (s.newInf k))
  have hexec : exec (.drain k) s = .next t := by
    refine congrArg ok ((State.issueTo_alone hk hready hf (u := .bank) rfl (fun h => absurd h (by decide))).trans ?_)
    rw [State.startWork_drain _ _ hop, hdrain, ht]
    rfl
  refine ⟨t, _, hexec, hlaunch, ?_, hbytes, hclear.of_bank beq_one_iff rfl rfl, hprod, honly⟩
  have hread := State.storeRead_part (s := s) hstore 0 (n := bs.length) (by omega)
  rwa [Nat.add_zero, List.drop_zero, List.take_length] at hread

end Sys2Proof.Machine
end

section
/-! RESULTS. DRAIN of tallies, and QUANT (R115, R155, R171, R196 to R199; part of O24). -/

namespace Sys2Proof.Machine

/-! ### DRAIN of tallies (R197) -/

/-- The words of the tallies of a region, in the order of R155. -/
def State.drainWords (s : State) (k w : Nat) : List Nat :=
  ((regionOrder w).map (fun ma => ((regionRow ma.2 (iRow0 w + ma.1)).map (fun e => tallyWords (s.entryAcc k e))).flatten)).flatten

/-- The bytes of words of 16 bytes. -/
def wordBytes (ts : List Nat) : List Nat := (ts.map (leBytes 16)).flatten

/-- Each word takes 16 bytes. -/
theorem length_wordBytes (ts : List Nat) : (wordBytes ts).length = 16 * ts.length := by
  induction ts with
  | nil => rfl
  | cons x ts ih =>
    rw [wordBytes, List.map_cons, List.flatten_cons, List.length_append, length_leBytes, ← wordBytes, ih, List.length_cons]
    omega

/-- Little-endian bytes are bytes. -/
theorem leBytes_lt {n v b : Nat} (h : b ∈ leBytes n v) : b < 256 := by
  induction n generalizing v with
  | zero => cases h
  | succ n ih =>
    rw [leBytes] at h
    obtain rfl | h := List.mem_cons.mp h
    · exact Nat.mod_lt _ (by decide)
    · exact ih h

/-- Bytes stay as they are. -/
theorem map_mod_eq {bs : List Nat} (h : ∀ b ∈ bs, b < 256) : bs.map (· % 256) = bs :=
  (List.map_congr_left (fun b hb => Nat.mod_eq_of_lt (h b hb))).trans (List.map_id bs)

/-- The bytes of words are bytes. -/
theorem wordBytes_lt {ts : List Nat} {b : Nat} (h : b ∈ wordBytes ts) : b < 256 := by
  obtain ⟨l, hl, hb⟩ := List.mem_flatten.mp h
  obtain ⟨x, -, rfl⟩ := List.mem_map.mp hl
  exact leBytes_lt hb

/-- A header and the tallies: the number of entries, of bytes, and the words. -/
def tallyBytes (n : Nat) (ts : List Nat) : List Nat := leBytes 4 n ++ leBytes 4 (16 * ts.length) ++ List.replicate 8 0 ++ wordBytes ts

/-- A header takes 16 bytes. -/
theorem length_tallyBytes (n : Nat) (ts : List Nat) : (tallyBytes n ts).length = 16 + 16 * ts.length := by
  simp only [tallyBytes, List.length_append, length_leBytes, List.length_replicate, length_wordBytes]

/-- A DRAIN of tallies writes them behind their header, and clears on CLR. -/
theorem State.drain_tallies {q : State} {k : Nat} {i : Inf} (h21 : fieldOf i.w 0 21 1 = 1) : q.drain k i =
    (q.writeOut k (q.opFailed k i.opn) (dstStream i.w) (fieldOf i.w 1 0 23) (tallyBytes ((regionOrder i.w).length * 128) (q.drainWords k i.w))).clearIf k i.w
      (fieldOf i.w 0 22 1 == 1) := by
  have hwords : ((((regionOrder i.w).map (fun ma => (regionRow ma.2 (iRow0 i.w + ma.1)).map (fun e => tallyWords (q.entryAcc k e)))).flatten).flatten) = q.drainWords k i.w := by
    rw [List.flatten_flatten, List.map_map]
    rfl
  have hcount : (((regionOrder i.w).map (fun ma => (regionRow ma.2 (iRow0 i.w + ma.1)).map (fun e => tallyWords (q.entryAcc k e)))).flatten).length = (regionOrder i.w).length * 128 := by
    rw [List.length_flatten, List.map_map]
    simp [Function.comp_def, regionRow]
  unfold State.drain
  dsimp only
  rw [if_pos (by simp [h21]), hwords, hcount, ← wordBytes, length_wordBytes]
  rfl

/-- The words of a region's tallies go by the entries' values. -/
theorem State.drainWords_congr {s q : State} {k : Nat} (h : ∀ e, q.entryAcc k e = s.entryAcc k e) (w : Nat) : q.drainWords k w = s.drainWords k w := by
  simp only [State.drainWords, h]

/-- What a DRAIN of tallies leaves. -/
theorem drainTally_writes {k : Coach} {md : NumMode} {s : State} {ts : List Nat} (h : BankReady k 4 md s) (h21 : fieldOf (s.atPc k) 0 21 1 = 1)
    (hts : ts = s.drainWords k (s.atPc k)) (hfit : OutFits k s (s.atPc k) (16 + 16 * ts.length)) :
    ∃ t i, exec (.drain k) s = .next t ∧ Launched k i s t ∧
      t.storeRead k (outAt k s (s.atPc k)) 4 = leBytes 4 ((regionOrder (s.atPc k)).length * 128) ∧
      t.storeRead k (outAt k s (s.atPc k) + 4) 4 = leBytes 4 (16 * ts.length) ∧ t.storeRead k (outAt k s (s.atPc k) + 8) 8 = List.replicate 8 0 ∧
      t.storeRead k (outAt k s (s.atPc k) + 16) (16 * ts.length) = (ts.map (leBytes 16)).flatten ∧
      SameBytesBut k (outAt k s (s.atPc k)) (16 + 16 * ts.length) s t ∧ RegionCleared k (s.atPc k) (fieldOf (s.atPc k) 0 22 1 = 1) s t ∧
      OnlyCoach k ((ACC_SPILLUSED_USED, k.val, 0) :: issueFlds k) { s with store := t.store, bank := t.bank } t := by
  have hk : k.val < 2048 := k.isLt.trans (by decide)
  obtain ⟨hready, hf, hwork, -⟩ := h
  obtain ⟨-, hop, hbad, hpc⟩ := id hready
  have hlive : s.liveAt k = true := State.liveAt_of_unit (by rw [hop]; decide)
  obtain ⟨-, hfail⟩ := hwork.modeOf (by rw [hop]; decide) hlive
  set n := (regionOrder (s.atPc k)).length * 128 with hn
  have hdrain := State.drain_tallies (q := s.unitIssued k) (k := k) (i := s.newInf k) h21
  rw [hfail, State.drainWords_congr (s.entryAcc_unitIssued hk), show (s.newInf k).w = s.atPc k from rfl, ← hts, ← hn] at hdrain
  rw [← length_tallyBytes n ts] at hfit
  obtain ⟨t, ht, hlaunch, hstore, hbytes, hclear, -, honly⟩ := output_result (by rw [hop]; decide) hpc hf hfit (fun _ => rows_of_drain hop hbad) (.refl k _ _)
    (hdrain ▸ (s.unitIssued k).seqView_drain k (s.newInf k))
  have hexec : exec (.drain k) s = .next t := by
    refine congrArg ok ((State.issueTo_alone hk hready hf (u := .bank) rfl (fun h => absurd h (by decide))).trans ?_)
    rw [State.startWork_drain _ _ hop, hdrain, ht]
  have hlen := length_tallyBytes n ts
  rw [hlen] at hbytes
  refine ⟨t, _, hexec, hlaunch, ?_, ?_, ?_, ?_, hbytes, hclear.of_bank beq_one_iff rfl rfl, honly⟩
  · refine (State.storeRead_part hstore 0 (n := 4) (by omega)).trans ?_
    rw [List.drop_zero, tallyBytes, List.append_assoc, List.append_assoc, List.take_left' (length_leBytes _ _)]
    exact map_mod_eq (fun b hb => leBytes_lt hb)
  · refine (State.storeRead_part hstore 4 (n := 4) (by omega)).trans ?_
    rw [tallyBytes, List.append_assoc, List.append_assoc, List.drop_left' (length_leBytes _ _), List.take_left' (length_leBytes _ _)]
    exact map_mod_eq (fun b hb => leBytes_lt hb)
  · refine (State.storeRead_part hstore 8 (n := 8) (by omega)).trans ?_
    rw [tallyBytes, List.append_assoc, List.drop_left' (by simp [length_leBytes]), List.take_left' (by simp)]
    rfl
  · refine (State.storeRead_part hstore 16 (n := 16 * ts.length) (by omega)).trans ?_
    rw [tallyBytes, List.drop_left' (by simp [length_leBytes]), List.take_of_length_le (by rw [length_wordBytes])]
    exact map_mod_eq (fun b hb => wordBytes_lt hb)

/-! ### QUANT (R198, R199) -/

/-- The quantised rows of a region, in the order of R155. -/
def State.quantBlocks (s : State) (k : Nat) (md : NumMode) (f : Fmt) (w : Nat) (ma : Nat × Nat) : List (QBlock × List Val) :=
  s.quantRow k md f (iZoff w) (fieldOf w 2 24 7 + 1) ma.2 (iRow0 w + ma.1)

/-- The element bytes of one row of a QUANT. -/
def quantElems (f : Fmt) (r : List (QBlock × List Val)) : List Nat := packElems f.width ((r.map (fun b => b.1.codes)).flatten)

/-- The scale bytes of one row of a QUANT. -/
def quantScales (r : List (QBlock × List Val)) : List Nat := r.map (fun b => b.1.scale)

/-- The element plane of a QUANT. -/
def State.quantElemPlane (s : State) (k : Nat) (md : NumMode) (f : Fmt) (w : Nat) : List Nat :=
  ((regionOrder w).map (fun ma => quantElems f (s.quantBlocks k md f w ma))).flatten

/-- The scale plane of a QUANT. -/
def State.quantScalePlane (s : State) (k : Nat) (md : NumMode) (f : Fmt) (w : Nat) : List Nat :=
  ((regionOrder w).map (fun ma => quantScales (s.quantBlocks k md f w ma))).flatten

/-- The bytes of a QUANT into a stream, row by row. -/
def State.quantStream (s : State) (k : Nat) (md : NumMode) (f : Fmt) (w : Nat) : List Nat :=
  ((regionOrder w).map (fun ma => quantElems f (s.quantBlocks k md f w ma) ++ quantScales (s.quantBlocks k md f w ma))).flatten

/-- What a QUANT writes goes by the entries' values. -/
theorem State.quantBlocks_congr {s q : State} {k : Nat} (h : ∀ e, q.entryAcc k e = s.entryAcc k e) (md : NumMode) (f : Fmt) (w : Nat) :
    q.quantBlocks k md f w = s.quantBlocks k md f w := by
  funext ma
  simp only [State.quantBlocks, State.quantRow, h]

/-- Where a QUANT writes: row by row into its stream, or its two planes. -/
def State.quantOut (q : State) (k : Nat) (failed : Bool) (md : NumMode) (f : Fmt) (w : Nat) : State :=
  match dstStream w with
  | some n => q.writeOut k failed (some n) 0 (q.quantStream k md f w)
  | none => (q.writeOut k failed none (fieldOf w 1 0 23) (q.quantElemPlane k md f w)).writeOut k failed none (fieldOf w 2 0 23) (q.quantScalePlane k md f w)

/-- A QUANT writes its rows, counts, and clears on CLR. -/
theorem State.quant_planes {q : State} {k : Nat} (hk : k < 2048) {i : Inf} {f : Fmt} (hfs : fselOf (iFmt i.w) = some ⟨f, true⟩) :
    ∃ u, OpsFrame k (issueFlds k) (q.quantOut k (q.opFailed k i.opn) (q.modeOf k i.opn) f i.w) u ∧
      q.quant k i = u.clearIf k i.w (fieldOf i.w 0 21 1 == 1) := by
  unfold State.quant
  dsimp only
  split
  next f' h =>
    obtain rfl : f = f' := congrArg FSel.fmt (Option.some.inj (hfs.symm.trans h))
    refine ⟨_, ?_, rfl⟩
    refine OpsFrame.trans ?_ (.foldl (fun t x => .addTile t hk (by simp [issueFlds]) i.opn _) _ _)
    refine OpsFrame.trans ?_ (OpsFrame.count _ hk i.opn (fun _ => by simp [satFlds, issueFlds]) (fun _ => by simp [flushFlds, issueFlds]) (fun _ => by simp [nanFlds, issueFlds]))
    unfold State.quantOut
    simp only [List.map_map]
    cases dstStream i.w with
    | none => exact .refl k _ _
    | some n => exact .refl k _ _
  next h => exact absurd hfs (h f)

/-- Two runs of bytes written apart both stand, and no other byte changes. -/
theorem planes_written {s t : State} {k a b : Nat} {es sc : List Nat} (h : t.store = ((s.storeWrite k a es).storeWrite k b sc).store)
    (hap : a + es.length ≤ b ∨ b + sc.length ≤ a) : t.storeRead k a es.length = es.map (· % 256) ∧ t.storeRead k b sc.length = sc.map (· % 256) ∧
      ∀ x, (x < k * storeSize + a ∨ k * storeSize + a + es.length ≤ x) → (x < k * storeSize + b ∨ k * storeSize + b + sc.length ≤ x) →
        memByte t.store x = memByte s.store x := by
  have hout : ∀ x, (x < k * storeSize + b ∨ k * storeSize + b + sc.length ≤ x) → memByte t.store x = memByte (s.storeWrite k a es).store x := fun x hx => by
    rw [h]
    exact (sameBytesBut_storeWrite (s.storeWrite k a es) k b sc).1 x hx
  refine ⟨?_, ?_, fun x ha hb => (hout x hb).trans ((sameBytesBut_storeWrite s k a es).1 x ha)⟩
  · rw [← s.storeRead_storeWrite k a es, State.storeRead, State.storeRead, memRead_eq, memRead_eq]
    refine List.map_congr_left (fun i hi => hout _ ?_)
    have hi' := List.mem_range.mp hi
    omega
  · have hread := State.storeRead_part h 0 (n := sc.length) (by omega)
    rwa [Nat.add_zero, List.drop_zero, List.take_length] at hread

/-- A QUANT alone in flight does its work, and stays in flight. -/
theorem exec_quant_alone {k : Coach} {s : State} (hready : IssueReady k 5 s) (hf : (s.coach k).flight = []) :
    exec (.quant k) s = .next (((s.unitIssued k).quant k (s.newInf k)).markStarted k (s.newInf k).id) := by
  obtain ⟨-, hop, -, -⟩ := id hready
  refine congrArg ok ((State.issueTo_alone (k.isLt.trans (by decide)) hready hf (u := .bank) rfl (fun h => absurd h (by decide))).trans ?_)
  exact State.startWork_quant _ _ hop

/-- What a QUANT leaves. -/
theorem quant_writes {k : Coach} {md : NumMode} {s : State} {f : Fmt} {es sc bs : List Nat} (h : BankReady k 5 md s)
    (hfs : fselOf (iFmt (s.atPc k)) = some ⟨f, true⟩) (hes : es = s.quantElemPlane k md f (s.atPc k)) (hsc : sc = s.quantScalePlane k md f (s.atPc k))
    (hbs : bs = s.quantStream k md f (s.atPc k)) (hfit : OutFits k s (s.atPc k) bs.length)
    (hapart : dstStream (s.atPc k) = none → fieldOf (s.atPc k) 1 0 23 + es.length ≤ fieldOf (s.atPc k) 2 0 23 ∨
      fieldOf (s.atPc k) 2 0 23 + sc.length ≤ fieldOf (s.atPc k) 1 0 23) :
    ∃ t i, exec (.quant k) s = .next t ∧ Launched k i s t ∧ RegionCleared k (s.atPc k) (fieldOf (s.atPc k) 0 21 1 = 1) s t ∧
      (∀ st, dstStream (s.atPc k) = some st → t.storeRead k (outAt k s (s.atPc k)) bs.length = bs.map (· % 256) ∧
        SameBytesBut k (outAt k s (s.atPc k)) bs.length s t ∧ (t.strm k st).prod = (s.strm k st).prod + bs.length) ∧
      (dstStream (s.atPc k) = none → t.storeRead k (fieldOf (s.atPc k) 1 0 23) es.length = es.map (· % 256) ∧
        t.storeRead k (fieldOf (s.atPc k) 2 0 23) sc.length = sc.map (· % 256) ∧
            ∀ x, (x < k * storeSize + fieldOf (s.atPc k) 1 0 23 ∨ k * storeSize + fieldOf (s.atPc k) 1 0 23 + es.length ≤ x) →
              (x < k * storeSize + fieldOf (s.atPc k) 2 0 23 ∨ k * storeSize + fieldOf (s.atPc k) 2 0 23 + sc.length ≤ x) →
              memByte t.store x = memByte s.store x) ∧
      OnlyCoach k ((ACC_SPILLUSED_USED, k.val, 0) :: issueFlds k) { s with store := t.store, bank := t.bank } t := by
  have hk : k.val < 2048 := k.isLt.trans (by decide)
  obtain ⟨hready, hf, hwork, -⟩ := h
  obtain ⟨-, hop, hbad, hpc⟩ := id hready
  have hlive : s.liveAt k = true := State.liveAt_of_unit (by rw [hop]; decide)
  obtain ⟨hmode, hfail⟩ := hwork.modeOf (by rw [hop]; decide) hlive
  have h2 : opOf (s.atPc k) ≠ 2 := by rw [hop]; decide
  obtain ⟨u, hu, hquant⟩ := State.quant_planes (q := s.unitIssued k) hk (i := s.newInf k) hfs
  have hblocks := State.quantBlocks_congr (s.entryAcc_unitIssued hk) md f (s.atPc k)
  rw [hmode, hfail, show (s.newInf k).w = s.atPc k from rfl, State.quantOut, State.quantStream, State.quantElemPlane, State.quantScalePlane, hblocks,
    ← State.quantStream, ← State.quantElemPlane, ← State.quantScalePlane, ← hes, ← hsc, ← hbs] at hu
  have hview := hquant ▸ (s.unitIssued k).seqView_quant k (s.newInf k)
  cases hdst : dstStream (s.atPc k) with
  | some n =>
    rw [hdst] at hu
    have hu' : OpsFrame k (issueFlds k) ((s.unitIssued k).writeOut k false (dstStream (s.atPc k)) (fieldOf (s.atPc k) 1 0 23) bs) u := by
      rw [hdst]
      exact hu
    obtain ⟨t, ht, hlaunch, hstore, hbytes, hclear, hprod, honly⟩ := output_result h2 hpc hf hfit (fun _ => rows_of_quant hop hbad) hu' hview
    refine ⟨t, _, (exec_quant_alone hready hf).trans (by rw [hquant, ht]; rfl), hlaunch, hclear.of_bank beq_one_iff rfl rfl, fun st hst => ⟨?_, hbytes, ?_⟩,
      fun hn => by simp at hn, honly⟩
    · have hread := State.storeRead_part (s := s) hstore 0 (n := bs.length) (by omega)
      rwa [Nat.add_zero, List.drop_zero, List.take_length] at hread
    · exact hprod st (hdst.trans hst)
  | none =>
    rw [hdst] at hu
    have hissued := OnlyCoach.unitIssued s hk
    have hwritten : u.store = ((s.storeWrite k (fieldOf (s.atPc k) 1 0 23) es).storeWrite k (fieldOf (s.atPc k) 2 0 23) sc).store := by
      rw [hu.1.store]
      change memWrite (memWrite (s.unitIssued k).store _ es) _ sc = _
      rw [hissued.store]
      rfl
    have hframe : BankFrame k (issueFlds k) (s.unitIssued k) u :=
      ((BankFrame.storeWrite (s.unitIssued k) k (fieldOf (s.atPc k) 1 0 23) es).trans (.storeWrite _ k (fieldOf (s.atPc k) 2 0 23) sc)).trans hu.bankFrame
    have hubank : u.bank = s.bank := by
      rw [hu.1.1, ← hissued.sameMemories.2.1]
      rfl
    obtain ⟨htstore, -, hclear, honly⟩ := bankWork_result hk h2 hframe hubank (clr := fieldOf (s.atPc k) 0 21 1 == 1) (fun _ => rows_of_quant hop hbad) (s.newInf k).id
    have hlaunch := launched_marked hk hpc hf hview
      ((BankFrame.clearIf (L := [(ACC_SPILLUSED_USED, k.val, 0)]) u hk (by simp) (s.atPc k) (fieldOf (s.atPc k) 0 21 1 == 1)).2.trans hframe.2)
    refine ⟨_, _, (exec_quant_alone hready hf).trans (congrArg (fun v => ok (State.markStarted v k (s.newInf k).id)) hquant), hlaunch, hclear.of_bank beq_one_iff rfl rfl, fun st hst => by simp at hst,
      fun _ => planes_written (htstore.trans hwritten) (hapart hdst), honly⟩

end Sys2Proof.Machine
end

section
/-! RESULTS. REDUCE and the tallies it queues (R183, R200, R201; part of O24). -/

namespace Sys2Proof.Machine

/-! ### DRAIN and QUANT of any form -/

/-- An instruction alone in flight of which the sequencer shows that it has started has been launched. -/
theorem launched_of_seqView {s t : State} {k : Nat} (hk : k < 2048) (hpc : s.fld COA_PC_PC k < 1023) (hf : (s.coach k).flight = [])
    (hv : t.seqView k = { (s.unitIssued k).seqView k with flight := shownStarted (s.newInf k).id ((s.unitIssued k).seqView k).flight }) : ∃ i, Launched k i s t := by
  have hview : ((s.unitIssued k).seqView k).flight = [(s.newInf k).shown] := congrArg (List.map Inf.shown) (State.flight_unitIssued_alone hk hf)
  have hfl : (t.coach k).flight.map Inf.shown = [((s.newInf k).id, s.atPc k, true, false)] := by
    refine (congrArg SeqView.flight hv).trans ?_
    dsimp only
    rw [hview]
    simp [shownStarted, Inf.shown]
    exact ⟨rfl, rfl⟩
  obtain ⟨i, hi, he⟩ := List.map_eq_singleton_iff.mp hfl
  simp only [Inf.shown, Prod.mk.injEq] at he
  obtain ⟨-, hw, hs, hn⟩ := he
  exact ⟨i, (passedOn_unitIssued hk hpc).of_seqView hv, hi, hw, hs, hn⟩

/-- A DRAIN of any form is launched. -/
theorem drain_launched {k : Coach} {s : State} (hready : IssueReady k 4 s) (hf : (s.coach k).flight = []) : ∃ t i, exec (.drain k) s = .next t ∧ Launched k i s t := by
  have hk : k.val < 2048 := k.isLt.trans (by decide)
  obtain ⟨-, hop, -, hpc⟩ := id hready
  obtain ⟨i, hi⟩ := launched_of_seqView hk hpc hf (State.seqView_markStarted ((s.unitIssued k).seqView_drain k (s.newInf k)) _)
  exact ⟨_, i, congrArg ok ((State.issueTo_alone hk hready hf (u := .bank) rfl (fun h => absurd h (by decide))).trans (State.startWork_drain _ _ hop)), hi⟩

/-- A QUANT of any form is launched. -/
theorem quant_launched {k : Coach} {s : State} (hready : IssueReady k 5 s) (hf : (s.coach k).flight = []) : ∃ t i, exec (.quant k) s = .next t ∧ Launched k i s t := by
  have hk : k.val < 2048 := k.isLt.trans (by decide)
  obtain ⟨-, -, -, hpc⟩ := id hready
  obtain ⟨i, hi⟩ := launched_of_seqView hk hpc hf (State.seqView_markStarted ((s.unitIssued k).seqView_quant k (s.newInf k)) _)
  exact ⟨_, i, exec_quant_alone hready hf, hi⟩

/-! ### The tallies of a REDUCE (R201) -/

/-- Free accumulators take free values and change nothing else. -/
theorem State.fillAccs_state (s : State) (l : List (Option Acc)) : (s.fillAccs l).2 = { s with freeIx := (s.fillAccs l).2.freeIx } := by
  induction l generalizing s with
  | nil => rfl
  | cons x l ih =>
    cases x with
    | some a => exact ih s
    | none =>
      refine (ih s.drawAcc.2).trans ?_
      rfl

/-- Accumulators go by the free values to come. -/
theorem State.fillAccs_congr {s q : State} (h : q.freeIx = s.freeIx) (l : List (Option Acc)) : (q.fillAccs l).1 = (s.fillAccs l).1 := by
  induction l generalizing s q with
  | nil => rfl
  | cons x l ih =>
    cases x with
    | some a => exact congrArg (a :: ·) (ih h)
    | none =>
      have hacc : q.drawAcc.1 = s.drawAcc.1 := by simp only [State.drawAcc, State.draw, h]
      have hnext : q.drawAcc.2.freeIx = s.drawAcc.2.freeIx := congrArg (· + 1) h
      exact congrArg₂ List.cons hacc (ih hnext)

/-- One accumulator for each. -/
theorem State.length_fillAccs (s : State) (l : List (Option Acc)) : (s.fillAccs l).1.length = l.length := by
  induction l generalizing s with
  | nil => rfl
  | cons x l ih =>
    cases x with
    | some a => exact congrArg (· + 1) (ih s)
    | none => exact congrArg (· + 1) (ih _)

/-- The tallies that a REDUCE reads, each with its destination entry. -/
def State.reduced (s : State) (k w : Nat) : List (Nat × Acc) × State := if fieldOf w 0 21 1 = 1 then s.reduceStore k w else s.reduceBank k w

/-- A REDUCE reads its tallies by the entries, the store and the free values to come. -/
theorem State.reduced_congr {s q : State} {k : Nat} (hs : q.store = s.store) (hf : q.freeIx = s.freeIx) (he : ∀ e, q.entryAcc k e = s.entryAcc k e) (w : Nat) :
    (q.reduced k w).1 = (s.reduced k w).1 := by
  have hread : ∀ a n, q.storeRead k a n = s.storeRead k a n := fun a n => by rw [State.storeRead, hs, State.storeRead]
  unfold State.reduced
  split
  · unfold State.reduceStore
    dsimp only
    rw [hread, hread, State.fillAccs_congr hf]
  · simp only [State.reduceBank, he, State.fillAccs_congr hf]

/-- Reading tallies takes free values and changes nothing else. -/
theorem State.reduced_state (s : State) (k w : Nat) : (s.reduced k w).2 = { s with freeIx := (s.reduced k w).2.freeIx } := by
  unfold State.reduced
  split
  · exact s.fillAccs_state _
  · exact s.fillAccs_state _

/-- The tallies of a REDUCE of some array: there is one. -/
theorem State.reduced_ne_nil (s : State) (k : Nat) {w : Nat} (h : iArrays w ≠ []) : (s.reduced k w).1 ≠ [] := by
  obtain ⟨a, ha⟩ := List.exists_mem_of_ne_nil _ h
  have horder : 0 < (regionOrder w).length := List.length_pos_of_mem (mem_regionOrder.mpr ⟨Nat.succ_pos _, ha⟩ : (0, a) ∈ regionOrder w)
  have hentries : (reduceEntries w).length = (regionOrder w).length * 128 := by
    rw [reduceEntries, List.length_flatten, List.map_map]
    simp [Function.comp_def]
  refine List.ne_nil_of_length_pos ?_
  unfold State.reduced
  split
  · simp only [State.reduceStore, List.length_zip, State.length_fillAccs, List.length_append, List.length_replicate, hentries]
    omega
  · have hsrc : ((regionOrder w).map (fun ma => (List.range 128).map (fun n => entryIx ma.2 (iRow0 w + ma.1) n))).flatten.length = (regionOrder w).length * 128 := by
      rw [List.length_flatten, List.map_map]
      simp [Function.comp_def]
    simp only [State.reduceBank, List.length_zip, State.length_fillAccs, List.length_map, hsrc, hentries]
    omega

/-! ### Increments (R201) -/

/-- The increments that wait for a tally still to come. -/
def CoachS.syncWaits (c : CoachS) : List (Nat × Nat) := c.syncDue.filter (fun d => c.tallyIn.any (fun t => t.src == d.1))

/-- The increments whose tallies have all been added. -/
def CoachS.syncReady (c : CoachS) : List (Nat × Nat) := c.syncDue.filter (fun d => !c.tallyIn.any (fun t => t.src == d.1))

/-- Increments given one after another. -/
def State.syncIncs (s : State) (k : Nat) (l : List (Nat × Nat)) : State := l.foldl (fun t d => t.syncInc k d.2) s

/-- The increments that are ready are given, the others wait on. -/
theorem State.syncSettle_eq (s : State) (k : Nat) :
    s.syncSettle k = (s.updCoach k (fun c => { c with syncDue := c.syncWaits })).syncIncs k (s.coach k).syncReady := rfl

/-- Increments change register fields alone. -/
theorem State.syncIncs_fields (k : Nat) (l : List (Nat × Nat)) (s : State) : s.syncIncs k l = { s with fields := (s.syncIncs k l).fields } := by
  induction l generalizing s with
  | nil => rfl
  | cons x l ih => exact (ih (s.syncInc k x.2)).trans rfl

/-- The coach once its increments have settled. -/
theorem State.coach_syncSettle (s : State) (k : Nat) : (s.syncSettle k).coach k = { s.coach k with syncDue := (s.coach k).syncWaits } := by
  have hincs : ∀ (t : State) (l : List (Nat × Nat)), (t.syncIncs k l).coach k = t.coach k := fun t l => by
    rw [State.syncIncs_fields]
    rfl
  rw [State.syncSettle_eq, hincs, State.coach_updCoach_same]

/-- Increments leave the memories. -/
theorem State.memories_syncSettle (s : State) (k : Nat) : (s.syncSettle k).bank = s.bank ∧ (s.syncSettle k).store = s.store := by
  rw [State.syncSettle_eq, State.syncIncs_fields]
  exact ⟨rfl, rfl⟩

/-! ### REDUCE (R201, R202) -/

/-- The tallies of a REDUCE have been read, and its source cleared on CLR. -/
def State.reduceRead (s : State) (k w : Nat) : State := (s.reduced k w).2.clearIf k w (!(fieldOf w 0 21 1 == 1) && fieldOf w 0 22 1 == 1)

/-- The tallies of a local REDUCE wait at its coach's bank. -/
def CoachS.withTallies (c : CoachS) (src n : Nat) (l : List (Nat × Acc)) : CoachS :=
  { c with tallyIn := c.tallyIn ++ l.map (fun t => { entry := t.1, acc := t.2, src := src }), syncDue := c.syncDue ++ [(src, n)] }

/-- A local REDUCE queues its tallies and its increment. -/
theorem State.startReduce_local (s : State) (k : Nat) {i : Inf} (h : fieldOf i.w 2 20 1 = 1) : s.startReduce k i =
    ((s.reduceRead k i.w).updCoach k (fun c => c.withTallies (localSrc i.id i.pc) (fieldOf i.w 2 16 4) (s.reduced k i.w).1)).syncSettle k := by
  unfold State.startReduce State.reduceRead State.reduced
  dsimp only
  rw [if_pos (by simp [h])]
  simp only [beq_iff_eq]
  rfl

/-- A REDUCE starts with its work, and stays in flight. -/
theorem State.startWork_reduce (q : State) (k : Nat) {i : Inf} (h : opOf i.w = 6) : q.startWork k i = (q.startReduce k i).markStarted k i.id := by
  simp only [State.startWork, h]

/-- A REDUCE alone in flight does its work, and stays in flight. -/
theorem exec_reduce_alone {k : Coach} {s : State} (hready : IssueReady k 6 s) (hf : (s.coach k).flight = []) :
    exec (.reduce k) s = .next (((s.unitIssued k).startReduce k (s.newInf k)).markStarted k (s.newInf k).id) := by
  obtain ⟨-, hop, -, -⟩ := id hready
  exact congrArg ok ((State.issueTo_alone (k.isLt.trans (by decide)) hready hf (u := .bank) rfl (fun h => absurd h (by decide))).trans (State.startWork_reduce _ _ hop))

/-- The rows of a REDUCE from the bank lie in it (R209). -/
theorem rows_of_reduce {w : Nat} (hop : opOf w = 6) (hb : badField w = false) (h21 : fieldOf w 0 21 1 ≠ 1) : iRow0 w + iM w ≤ 256 := by
  have hz : fieldOf w 0 21 1 = 0 := by
    have hlt := fieldOf_lt w 0 21 1
    omega
  simp only [badField, badValues, hop, Bool.or_eq_false_iff, decide_eq_false_iff_not, hz] at hb
  simp at hb
  omega

/-- A REDUCE that has read its tallies has changed the bank and its coach's slots alone, with free values taken. -/
theorem State.reduceRead_leaves (s : State) {k : Nat} (hk : k < 2048) (w : Nat) : (s.reduceRead k w).store = s.store ∧
    ((s.reduceRead k w).coach k).flight = (s.coach k).flight ∧ ((s.reduceRead k w).coach k).tallyIn = (s.coach k).tallyIn ∧
    ((s.reduceRead k w).coach k).syncDue = (s.coach k).syncDue := by
  have hslots : ∀ (l : List Nat) (t : State), ((t.clearEntries k l).coach k).tallyIn = (t.coach k).tallyIn ∧ ((t.clearEntries k l).coach k).syncDue = (t.coach k).syncDue := by
    have hone : ∀ (t : State) (e : Nat), ((t.clearEntry k e).coach k).tallyIn = (t.coach k).tallyIn ∧ ((t.clearEntry k e).coach k).syncDue = (t.coach k).syncDue := by
      intro t e
      unfold State.clearEntry
      dsimp only
      split
      · exact ⟨rfl, rfl⟩
      next i _ =>
        change ((t.updCoach k (fun c => { c with spill := (t.coach k).spill.filter (· != i) })).coach k).tallyIn = _ ∧
          ((t.updCoach k (fun c => { c with spill := (t.coach k).spill.filter (· != i) })).coach k).syncDue = _
        rw [State.coach_updCoach_same]
        exact ⟨rfl, rfl⟩
    intro l
    induction l with
    | nil => exact fun t => ⟨rfl, rfl⟩
    | cons x l ih => exact fun t => ⟨(ih _).1.trans (hone t x).1, (ih _).2.trans (hone t x).2⟩
  have hread := s.reduced_state k w
  have hcoach : (s.reduced k w).2.coach k = s.coach k := by rw [hread]; rfl
  have hstore : (s.reduced k w).2.store = s.store := by rw [hread]
  unfold State.reduceRead
  refine ⟨(State.store_clearIf _ hk w _).trans hstore, ?_, ?_⟩
  · rw [(BankFrame.clearIf (L := [(ACC_SPILLUSED_USED, k, 0)]) (s.reduced k w).2 hk (by simp) w _).2, hcoach]
  · cases (!(fieldOf w 0 21 1 == 1) && fieldOf w 0 22 1 == 1) with
    | false => exact ⟨congrArg CoachS.tallyIn hcoach, congrArg CoachS.syncDue hcoach⟩
    | true =>
      change (((s.reduced k w).2.clearRegion k w).coach k).tallyIn = _ ∧ (((s.reduced k w).2.clearRegion k w).coach k).syncDue = _
      rw [State.clearRegion_eq, (hslots _ _).1, (hslots _ _).2, hcoach]
      exact ⟨rfl, rfl⟩

/-- A REDUCE clears its source region in the bank on CLR. -/
theorem regionCleared_reduceRead {s t : State} {k w : Nat} (hop : opOf w = 6) (hb : badField w = false) {s0 : State} (hs0 : s0.bank = s.bank)
    (ht : t.bank = (s.reduceRead k w).bank) : RegionCleared k w (fieldOf w 0 21 1 = 0 ∧ fieldOf w 0 22 1 = 1) s0 t := by
  have hbank : (s.reduced k w).2.bank = s.bank := by rw [s.reduced_state k w]
  have hlt := fieldOf_lt w 0 21 1
  have hiff : (!(fieldOf w 0 21 1 == 1) && fieldOf w 0 22 1 == 1) = true ↔ fieldOf w 0 21 1 = 0 ∧ fieldOf w 0 22 1 = 1 := by
    simp only [Bool.and_eq_true, Bool.not_eq_true', beq_eq_false_iff_ne, beq_iff_eq]
    omega
  refine (regionCleared_clearIf (s := (s.reduced k w).2) (fun hc => ?_)).of_bank hiff (hs0.trans hbank.symm) ht
  refine rows_of_reduce hop hb ?_
  have h0 := (hiff.mp hc).1
  omega

/-- What a local REDUCE of some array leaves. -/
theorem reduceLocal_queues {k : Coach} {s : State} (hready : IssueReady k 6 s) (hf : (s.coach k).flight = []) (hlocal : fieldOf (s.atPc k) 2 20 1 = 1)
    (harr : iArrays (s.atPc k) ≠ []) : ∃ t i, exec (.reduce k) s = .next t ∧ Launched k i s t ∧
      (t.coach k).tallyIn = (s.coach k).tallyIn ++ (s.reduced k (s.atPc k)).1.map (fun ea => { entry := ea.1, acc := ea.2, src := localSrc i.id i.pc }) ∧
      (localSrc i.id i.pc, fieldOf (s.atPc k) 2 16 4) ∈ (t.coach k).syncDue ∧
      RegionCleared k (s.atPc k) (fieldOf (s.atPc k) 0 21 1 = 0 ∧ fieldOf (s.atPc k) 0 22 1 = 1) s t ∧ t.store = s.store := by
  have hk : k.val < 2048 := k.isLt.trans (by decide)
  obtain ⟨-, hop, hbad, hpc⟩ := id hready
  have hissued := OnlyCoach.unitIssued s hk
  have hqbank : (s.unitIssued k).bank = s.bank := hissued.sameMemories.2.1
  have hqcoach := s.coach_unitIssued hk
  have hreduced : ((s.unitIssued k).reduced k (s.atPc k)).1 = (s.reduced k (s.atPc k)).1 :=
    State.reduced_congr hissued.store (by rw [hissued.1]) (s.entryAcc_unitIssued hk) _
  obtain ⟨hrstore, hrflight, hrtally, hrsync⟩ := (s.unitIssued k).reduceRead_leaves hk (s.atPc k)
  have hstart := (s.unitIssued k).startReduce_local k (i := s.newInf k) hlocal
  rw [show (s.newInf k).w = s.atPc k from rfl, hreduced] at hstart
  set v := ((s.unitIssued k).reduceRead k (s.atPc k)).updCoach k
    (fun c => c.withTallies (localSrc (s.newInf k).id (s.newInf k).pc) (fieldOf (s.atPc k) 2 16 4) (s.reduced k (s.atPc k)).1) with hv
  have hvcoach : v.coach k = (((s.unitIssued k).reduceRead k (s.atPc k)).coach k).withTallies (localSrc (s.newInf k).id (s.newInf k).pc) (fieldOf (s.atPc k) 2 16 4)
      (s.reduced k (s.atPc k)).1 := State.coach_updCoach_same _ k _
  have htcoach : ((v.syncSettle k).markStarted k (s.newInf k).id).coach k = ((v.syncSettle k).coach k).mapInf (s.newInf k).id (fun j => { j with started := true }) :=
    State.coach_updCoach_same _ k _
  have htally : (v.coach k).tallyIn = (s.coach k).tallyIn ++ (s.reduced k (s.atPc k)).1.map
      (fun ea => { entry := ea.1, acc := ea.2, src := localSrc (s.newInf k).id (s.newInf k).pc }) := by
    rw [hvcoach, CoachS.withTallies, hrtally, hqcoach]
  have hlaunch : Launched k { s.newInf k with started := true } s ((v.syncSettle k).markStarted k (s.newInf k).id) := by
    refine launched_marked hk hpc hf (hstart ▸ (s.unitIssued k).seqView_startReduce k (s.newInf k)) ?_
    rw [State.coach_syncSettle, hvcoach]
    exact hrflight
  refine ⟨_, { s.newInf k with started := true }, (exec_reduce_alone hready hf).trans (congrArg (fun u => ok (State.markStarted u k (s.newInf k).id)) hstart), hlaunch,
    ?_, ?_, ?_, ?_⟩
  · rw [htcoach, State.coach_syncSettle]
    exact htally
  · rw [htcoach, State.coach_syncSettle]
    change _ ∈ ((v.coach k).syncDue.filter (fun d => (v.coach k).tallyIn.any (fun t => t.src == d.1)))
    refine List.mem_filter.mpr ⟨by rw [hvcoach]; simp [CoachS.withTallies], ?_⟩
    obtain ⟨x, hx⟩ := List.exists_mem_of_ne_nil _ (s.reduced_ne_nil k harr)
    rw [htally]
    exact List.any_eq_true.mpr ⟨_, List.mem_append_right _ (List.mem_map_of_mem hx), by simp⟩
  · exact regionCleared_reduceRead hop hbad hqbank.symm (v.memories_syncSettle k).1
  · exact (v.memories_syncSettle k).2.trans (hrstore.trans hissued.store)

/-- A packet sent leaves the coaches, the bank and the store. -/
theorem State.niSend_leaves (s : State) (u e : Nat) (p : Packet) : (s.niSend u e p).coaches = s.coaches ∧ (s.niSend u e p).bank = s.bank ∧ (s.niSend u e p).store = s.store := by
  have hanswer : ∀ (t : State) (q : Packet), (t.answer u q).coaches = t.coaches ∧ (t.answer u q).bank = t.bank ∧ (t.answer u q).store = t.store := by
    intro t q
    unfold State.answer
    dsimp only
    split <;> exact ⟨rfl, rfl, rfl⟩
  have hpush : ∀ (t : State) (key : Nat) (fs : List Flit), (t.pushWire key fs).coaches = t.coaches ∧ (t.pushWire key fs).bank = t.bank ∧ (t.pushWire key fs).store = t.store := by
    intro t key fs
    unfold State.pushWire
    split <;> exact ⟨rfl, rfl, rfl⟩
  unfold State.niSend
  split
  · dsimp only
    split
    · exact hanswer _ _
    · exact ⟨rfl, rfl, rfl⟩
  · split
    · exact ⟨rfl, rfl, rfl⟩
    · exact hpush _ _ _

/-- Packets sent one after another leave them. -/
theorem State.niSends_leave {α : Type} {g : State → α → State} (h : ∀ t x, (g t x).coaches = t.coaches ∧ (g t x).bank = t.bank ∧ (g t x).store = t.store)
    (l : List α) (s : State) : (l.foldl g s).coaches = s.coaches ∧ (l.foldl g s).bank = s.bank ∧ (l.foldl g s).store = s.store := by
  induction l generalizing s with
  | nil => exact ⟨rfl, rfl, rfl⟩
  | cons x l ih =>
    obtain ⟨hc, hb, hs⟩ := ih (g s x)
    obtain ⟨hc', hb', hs'⟩ := h s x
    exact ⟨hc.trans hc', hb.trans hb', hs.trans hs'⟩

/-- A REDUCE into another coach sends its tallies: it queues none. -/
theorem State.startReduce_remote (s : State) (k : Nat) {i : Inf} (h : fieldOf i.w 2 20 1 = 0) : (s.startReduce k i).coaches = (s.reduceRead k i.w).coaches ∧
    (s.startReduce k i).bank = (s.reduceRead k i.w).bank ∧ (s.startReduce k i).store = (s.reduceRead k i.w).store := by
  unfold State.startReduce State.reduceRead State.reduced
  dsimp only
  rw [if_neg (by simp [h])]
  simp only [beq_iff_eq]
  exact State.niSends_leave (fun t x => t.niSend_leaves _ _ _) _ _

/-- What a REDUCE into another coach leaves. -/
theorem reduceRemote_queues {k : Coach} {s : State} (hready : IssueReady k 6 s) (hf : (s.coach k).flight = []) (hremote : fieldOf (s.atPc k) 2 20 1 = 0) :
    ∃ t i, exec (.reduce k) s = .next t ∧ Launched k i s t ∧ (t.coach k).tallyIn = (s.coach k).tallyIn ∧ (t.coach k).syncDue = (s.coach k).syncDue ∧
      RegionCleared k (s.atPc k) (fieldOf (s.atPc k) 0 21 1 = 0 ∧ fieldOf (s.atPc k) 0 22 1 = 1) s t ∧ t.store = s.store := by
  have hk : k.val < 2048 := k.isLt.trans (by decide)
  obtain ⟨-, hop, hbad, hpc⟩ := id hready
  have hissued := OnlyCoach.unitIssued s hk
  have hqcoach := s.coach_unitIssued hk
  obtain ⟨hrstore, hrflight, hrtally, hrsync⟩ := (s.unitIssued k).reduceRead_leaves hk (s.atPc k)
  obtain ⟨hcoaches, hbank, hstore⟩ := (s.unitIssued k).startReduce_remote k (i := s.newInf k) hremote
  have hcoach : ((s.unitIssued k).startReduce k (s.newInf k)).coach k = ((s.unitIssued k).reduceRead k (s.atPc k)).coach k := by
    rw [State.coach, hcoaches]
    rfl
  have htcoach : (((s.unitIssued k).startReduce k (s.newInf k)).markStarted k (s.newInf k).id).coach k =
      (((s.unitIssued k).reduceRead k (s.atPc k)).coach k).mapInf (s.newInf k).id (fun j => { j with started := true }) := by
    rw [State.markStarted, State.coach_updCoach_same, hcoach]
  refine ⟨_, _, exec_reduce_alone hready hf,
    launched_marked hk hpc hf ((s.unitIssued k).seqView_startReduce k (s.newInf k)) ((congrArg CoachS.flight hcoach).trans hrflight), ?_, ?_, ?_, ?_⟩
  · rw [htcoach]
    exact hrtally.trans (by rw [hqcoach])
  · rw [htcoach]
    exact hrsync.trans (by rw [hqcoach])
  · exact regionCleared_reduceRead hop hbad hissued.sameMemories.2.1.symm hbank
  · exact hstore.trans (hrstore.trans hissued.store)

end Sys2Proof.Machine
end

section
/-! RESULTS. A tally reaches its entry, and bank instructions complete (R168, R178, R183, R186, R201; O24). -/

namespace Sys2Proof.Machine

/-! ### A tally reaches its entry (R168, R201) -/

/-- A value stored in an entry may take a slot, and changes nothing else of the coach. -/
theorem State.coach_putEntry {s t : State} {k e : Nat} {v : Acc} (h : s.putEntry k e v = some t) : t.coach k = { s.coach k with spill := (t.coach k).spill } := by
  cases hsp : spillSlot (s.bankWord k e) with
  | some i =>
    rw [State.putEntry_spilled hsp] at h
    obtain rfl := Option.some.inj h
    rfl
  | none =>
    cases hv : fitsShort v.v with
    | true =>
      rw [State.putEntry_short hsp hv] at h
      obtain rfl := Option.some.inj h
      rfl
    | false =>
      cases hi : s.freeSlot k with
      | none => rw [State.putEntry_full hsp hv hi] at h; cases h
      | some i =>
        rw [State.putEntry_long hsp hv hi] at h
        obtain rfl := Option.some.inj h
        simp only [State.spilled, State.bump, State.setSpill, State.coach_setFld, State.coach_updCoach_same]
        rfl

/-- What a contribution leaves goes by the memories, the fields and the free slots before. -/
theorem Contributed.of_before {k e : Nat} {v : Acc} {s s' t : State} (h : Contributed k e v s' t) (hb : s'.bank = s.bank) (hs : s'.store = s.store) (hh : s'.hbm = s.hbm)
    (hm : s'.media = s.media) (hf : s'.fields = s.fields) (hfree : s'.freeSlot k = s.freeSlot k) : Contributed k e v s t := by
  have hslot : ∀ i, s'.slotAddr k i = s.slotAddr k i := fun i => by simp only [State.slotAddr, State.fld, hf]
  have hspills : s'.fld ACC_SPILLS_SPILLS k = s.fld ACC_SPILLS_SPILLS k := by simp only [State.fld, hf]
  have hword : ∀ j f, s'.bankWord j f = s.bankWord j f := fun j f => by simp only [State.bankWord, hb]
  simpa only [Contributed, SameBytesBut, hb, hs, hh, hm, hslot, hspills, hword, hfree] using h

/-- What a contribution leaves stands whatever else changes but the memories and the count of spills. -/
theorem Contributed.of_after {k e : Nat} {v : Acc} {s t t' : State} (h : Contributed k e v s t) (hb : t'.bank = t.bank) (hs : t'.store = t.store) (hh : t'.hbm = t.hbm)
    (hm : t'.media = t.media) (hf : t'.fld ACC_SPILLS_SPILLS k = t.fld ACC_SPILLS_SPILLS k) : Contributed k e v s t' := by
  have hword : ∀ j f, t'.bankWord j f = t.bankWord j f := fun j f => by simp only [State.bankWord, hb]
  simpa only [Contributed, SameBytesBut, State.storeRead, hb, hs, hh, hm, hf, hword] using h

/-- A tally taken from those that wait. -/
def State.tallyTaken (s : State) (k n : Nat) : State := s.updCoach k (fun c => { c with tallyIn := c.tallyIn.eraseIdx n })

/-- The one tally that waits, whose entry no instruction holds, is a contribution to its entry; then the increments settle. -/
theorem State.addTally_one {s : State} {k : Nat} {x : TallyIn} (hx : (s.coach k).tallyIn = [x])
    (hfree : ∀ i ∈ (s.coach k).flight, i.holdsEntry (x.entry / 32768) (x.entry / 128 % 256) (x.entry % 128) = false) {t : State}
    (ht : (s.tallyTaken k 0).contribute k x.entry false x.acc = some t) : s.addTally k 0 = t.syncSettle k := by
  have hheld : ((s.tallyTaken k 0).coach k).flight.any (fun i => i.holdsEntry (x.entry / 32768) (x.entry / 128 % 256) (x.entry % 128)) = false := by
    refine List.any_eq_false.mpr (fun i hi => ?_)
    rw [State.tallyTaken, State.coach_updCoach_same] at hi
    simp [hfree i hi]
  have hget : (s.coach k).tallyIn[0]? = some x := by rw [hx]; rfl
  unfold State.addTally
  rw [hget]
  dsimp only
  rw [← State.tallyTaken, hheld]
  simp only [Bool.false_eq_true, if_false, ht]

/-- What a tally that can be stored leaves. -/
theorem tally_contributed {k : Coach} {x : TallyIn} {c : Fin 16} {v : Acc} {s : State} (hstill : s.coachStill = false) (hx : (s.coach k).tallyIn = [x])
    (hdue : (s.coach k).syncDue = [(x.src, c.val)]) (he : x.entry < 131072)
    (hfree : ∀ i ∈ (s.coach k).flight, i.holdsEntry (x.entry / 32768) (x.entry / 128 % 256) (x.entry % 128) = false)
    (hv : v = Acc.add (s.entryAcc k x.entry) x.acc) (hroom : spillSlot (s.bankWord k x.entry) ≠ none ∨ fitsShort v.v = true ∨ s.freeSlot k ≠ none) :
    ∃ t, exec (.bankContribution k (.tally 0)) s = .next t ∧ Contributed k x.entry v s t ∧ (t.coach k).tallyIn = [] ∧ (t.coach k).syncDue = [] ∧
      t.fld COA_SYNC_COUNT k c = min 0xFFFFFFFF (s.fld COA_SYNC_COUNT k c + 1) ∧
      OnlyCoach k [(ACC_SPILLUSED_USED, k.val, 0), (ACC_SPILLS_SPILLS, k.val, 0), (COA_SYNC_COUNT, k.val, c.val)] { s with bank := t.bank, store := t.store } t := by
  have hk : k.val < 2048 := k.isLt.trans (by decide)
  set s1 := s.tallyTaken k 0 with hs1
  have hcoach1 : s1.coach k = { s.coach k with tallyIn := [] } := by
    rw [hs1, State.tallyTaken, State.coach_updCoach_same, hx]
    rfl
  have hfree1 : s1.freeSlot k = s.freeSlot k := by simp only [State.freeSlot, hcoach1]; rfl
  obtain ⟨b, hready, hcontrib⟩ := State.contribute_eq (s := s1) (k := k) he (fresh := False) (fun h => h.elim)
  obtain ⟨t, hput, hcon, hflight, honly⟩ := putEntry_contributed hk he hready (v := v) (by rw [hfree1]; exact hroom)
  have hsome : s1.contribute k x.entry false x.acc = some t := by
    have hvalue := hcontrib x.acc
    rw [if_neg id] at hvalue
    refine (hvalue.trans ?_)
    rw [← hput, hv]
    rfl
  have hcoach : t.coach k = { s.coach k with tallyIn := [], spill := (t.coach k).spill } := by
    refine (State.coach_putEntry hput).trans ?_
    rw [show (s1.withBank b).coach k = s1.coach k from rfl, hcoach1]
  have hready' : (t.coach k).syncReady = [(x.src, c.val)] := by rw [hcoach, CoachS.syncReady, hdue]; rfl
  have hwaits : (t.coach k).syncWaits = [] := by rw [hcoach, CoachS.syncWaits, hdue]; rfl
  have hsettle : t.syncSettle k = (t.updCoach k (fun d => { d with syncDue := d.syncWaits })).syncInc k c := by
    rw [State.syncSettle_eq, hready']
    rfl
  have hexec : exec (.bankContribution k (.tally 0)) s = .next (t.syncSettle k) := by
    refine (if_neg (by rw [hstill]; exact Bool.false_ne_true)).trans (congrArg ok (State.addTally_one hx hfree hsome))
  have hcount : t.fld COA_SYNC_COUNT k c = s.fld COA_SYNC_COUNT k c := honly.2.1 _ (by decide +kernel) k c hk
    (by simp [show COA_SYNC_COUNT ≠ ACC_SPILLUSED_USED by decide, show COA_SYNC_COUNT ≠ ACC_SPILLS_SPILLS by decide])
  have hmem := t.memories_syncSettle k
  refine ⟨_, hexec, ?_, ?_, ?_, ?_, ?_⟩
  · refine (hcon.of_before (s := s) rfl rfl rfl rfl rfl hfree1).of_after hmem.1 hmem.2 ?_ ?_ ?_
    · rw [hsettle]; rfl
    · rw [hsettle]; rfl
    · rw [hsettle]
      exact State.fld_setFld_idx _ k 0 k c _ (by decide)
  · rw [State.coach_syncSettle, hcoach]
  · rw [State.coach_syncSettle]
    exact hwaits
  · rw [hsettle, ← hcount]
    exact (State.fld_setFld_same _ COA_SYNC_COUNT k c _).trans (Nat.mod_eq_of_lt (Nat.lt_of_le_of_lt (Nat.min_le_left _ _) (by decide)))
  · have h1 : BankOnly k [(ACC_SPILLUSED_USED, k.val, 0), (ACC_SPILLS_SPILLS, k.val, 0), (COA_SYNC_COUNT, k.val, c.val)] s s1 := (OnlyCoach.updCoach s k _).bankOnly
    have h2 : BankOnly k [(ACC_SPILLUSED_USED, k.val, 0), (ACC_SPILLS_SPILLS, k.val, 0), (COA_SYNC_COUNT, k.val, c.val)] s1 t := honly.mono (by simp)
    have h3 : OnlyCoach k [(ACC_SPILLUSED_USED, k.val, 0), (ACC_SPILLS_SPILLS, k.val, 0), (COA_SYNC_COUNT, k.val, c.val)] t (t.syncSettle k) := by
      rw [hsettle]
      exact (OnlyCoach.updCoach t k _).trans (.setFld _ k _ (by decide +kernel) hk (by simp))
    exact (h1.trans h2).trans h3.bankOnly

/-! ### Completion (R178, R186) -/

/-- An instruction that closes no operation leaves the flight when it finishes, and the operations stay. -/
theorem State.coach_finishInf_plain {s : State} {k : Nat} {i : Inf} (h : ∀ o ∈ (s.coach k).ops, o.closed = true → o.closerId ≠ i.id) :
    (s.finishInf k i).coach k = { s.coach k with flight := (s.coach k).flight.filter (fun j => j.id != i.id) } := by
  have hnone : ∀ o ∈ (s.coach k).ops, (o.closed && o.closerId == i.id) = false := fun o ho => by
    cases hc : o.closed with
    | false => rfl
    | true => simpa using h o ho hc
  have hwaits : (s.coach k).ops.any (fun o => o.closed && o.closerId == i.id && !o.closerDone) = false :=
    List.any_eq_false.mpr (fun o ho => by simp [hnone o ho])
  have hops : (s.coach k).ops.map (fun (o : Opn) => if o.closed && o.closerId == i.id then { o with closerDone := true } else o) = (s.coach k).ops := by
    refine (List.map_congr_left (fun o ho => ?_)).trans (List.map_id _)
    rw [hnone o ho]
    rfl
  rw [State.finishInf, State.coach_updCoach_same]
  dsimp only
  rw [hwaits, hops]
  rfl

/-- What BANK_INSTR_COMPLETE leaves. -/
theorem bankInstr_completes {k : Coach} {i : Inf} {s : State}
    (hi : (s.coach k).flight.find? (fun i => unitOf (opOf i.w) == some .bank && i.started && !i.finished) = some i) (hstill : s.coachStill = false)
    (hheld : s.reduceHeld k i = false) (hclose : ∀ o ∈ (s.coach k).ops, o.closed = true → o.closerId ≠ i.id) :
    ∃ t, exec (.bankInstrComplete k) s = .next t ∧ (t.coach k).flight = (s.coach k).flight.filter (fun j => j.id != i.id) ∧
      (t.coach k).ops = (s.coach k).ops ∧ OnlyCoach k [(COA_PC_PC, k.val, 0), (COA_STATE_STATE, k.val, 0)] s t := by
  have hk : k.val < 2048 := k.isLt.trans (by decide)
  have hexec : exec (.bankInstrComplete k) s = .next ((s.finishInf k i).settleEnd k) := by
    change execBankInstrComplete k s = _
    rw [execBankInstrComplete, if_neg (by rw [hstill]; exact Bool.false_ne_true), hi]
    exact if_neg (by rw [hheld]; exact Bool.false_ne_true)
  have hcoach := State.coach_finishInf_plain hclose
  refine ⟨_, hexec, ?_, ?_, (OnlyCoach.updCoach s k _).trans (.settleEnd _ hk (by simp) (by simp))⟩
  · rw [State.flight_settleEnd, hcoach]
  · rw [State.coach_settleEnd, hcoach]

/-- Settles O24: DRAIN and QUANT by what they write and clear, REDUCE by what it queues, a tally as a contribution to its entry. -/
theorem bankInstructionsWriteTheirRegion : Obligations.BankInstructionsWriteTheirRegion :=
  ⟨fun _ _ _ _ _ _ h h21 hfs hx hbs hfit => drain_writes h h21 hfs hx hbs hfit,
    fun _ _ _ _ h h21 hts hfit => drainTally_writes h h21 hts hfit,
    fun _ _ _ _ _ _ _ h hfs hes hsc hbs hfit hapart => quant_writes h hfs hes hsc hbs hfit hapart,
    fun _ _ hr hf => drain_launched hr hf, fun _ _ hr hf => quant_launched hr hf, fun _ _ hr hf hl ha => reduceLocal_queues hr hf hl ha,
    fun _ _ hr hf hl => reduceRemote_queues hr hf hl, fun _ _ _ _ _ hs hx hd he hfree hv hroom => tally_contributed hs hx hd he hfree hv hroom,
    fun _ _ _ hi hs hh hc => bankInstr_completes hi hs hh hc⟩

end Sys2Proof.Machine
end

section
/-! RESULTS. A coach that moves while COA_STATE.STATE holds no code of its three bits (R571; refutes O48). -/

namespace Sys2Proof.Machine

/-- Context 7 moves from coach 5 to coach 24 with no request outstanding, and the field map holds 9 for COA_STATE.STATE of coach 5: a number that three
bits cannot hold, which a write of the field would have cut to 1, and which no hypothesis of the statement excludes. -/
def wideStateMove : State :=
  { fields := [(COA_STATE_STATE.key 5 0, 9), (COA_ROLE_CONTEXT.key 5 0, 7), (COA_ROLE_BOUND.key 5 0, 1)]
    coaches := [(5, { moving := some 24 })]
    admBusy := some { port := 0, opc := 5, ctx := 7, tag := 9, src := 5, dst := 24 } }

/-- The state reads as meant: the source shows 9 and is bound to context 7, the destination is free. -/
theorem wideStateMove_reads : wideStateMove.withheld = false ∧ wideStateMove.boundCtx 5 = some 7 ∧ wideStateMove.fld COA_STATE_STATE 5 = 9 ∧
    (wideStateMove.coach 5).moving = some 24 ∧ (wideStateMove.coach 5).reqs = [] ∧ wideStateMove.fld COA_ROLE_BOUND 24 = 0 := by
  decide +kernel

/-- CTX_MOVE_COPY writes the state of the destination through the three bits of its field: 9 arrives as 1. -/
theorem wideStateMove_arrives {t : State} (h : exec .ctxMoveCopy wideStateMove = .next t) : t.fld COA_STATE_STATE 24 = 1 := by
  have hstate : (match exec .ctxMoveCopy wideStateMove with | .next u => u.fld COA_STATE_STATE 24 | _ => 0) = 1 := by decide +kernel
  rwa [h] at hstate

/-- Refutes O48: CTX_MOVE_COPY stores STATE of the source, cut to the field's three bits, in the destination, and the statement asks for the uncut number in
every state, also where the field map holds more than the field can: from 9 comes 1. -/
theorem not_contextsBindUnbindAndMoveUnits : ¬ Obligations.ContextsBindUnbindAndMoveUnits := by
  unfold Obligations.ContextsBindUnbindAndMoveUnits
  intro h
  obtain ⟨hfree, hbound, hsrc, hmoving, hreqs, hdst⟩ := wideStateMove_reads
  have hcopy := h.2 { port := 0, opc := 5, ctx := 7, tag := 9, src := 5, dst := 24 } wideStateMove hfree rfl rfl (by decide) (by decide) (by decide)
    hbound hmoving hdst
  obtain ⟨t, hexec, -, -, -, -, hstate, -⟩ := hcopy.2 hreqs rfl rfl rfl
  rw [wideStateMove_arrives hexec, hsrc] at hstate
  simp at hstate

end Sys2Proof.Machine
end

section
/-! SUPPORT. A live vector instruction, counting or not, alone in flight: it issues, does its work at once, and what its work leaves alone stays (R178, R184, R219, R220). -/

namespace Sys2Proof.Machine

/-- A register field that no issue changes reads after the issue as before. -/
theorem VecIssued.fld {k : Nat} {md : NumMode} {s q : State} {i : Inf} (h : VecIssued k md s q i) {f : Fld} (hf : f ∈ fldTable)
    (hn : f ≠ COA_PC_PC ∧ f ≠ COA_ISSUED_ISSUED ∧ f ≠ COA_SEQ_SEQ) {u : Nat} (hu : u < 2048) (x : Nat) : q.fld f u x = s.fld f u x := by
  obtain ⟨-, hflds, -⟩ := h.only
  obtain ⟨hpc, hcnt, hseq⟩ := hn
  exact hflds f hf u x hu (by simp [hpc, hcnt, hseq])

/-- A live vector instruction with nothing in flight issues and does its work: under its operation's mode where it counts. -/
theorem exec_vector_live {c : Coach → Instr} {k : Coach} {op : Nat} {md : NumMode} {s : State}
    (hexec : ∀ k s, exec (c k) s = .next (s.issueTo k op .vector)) (hu : unitOf op = some .vector) (h : VecReady k op md s) :
    ∃ q i m, VecIssued k m s q i ∧ (counting op = true → m = md) ∧ opOf i.w = op ∧ q.fld VEC_LOOP_RRB k = s.fld VEC_LOOP_RRB k ∧
      exec (c k) s = .next ((q.vecWork k i (s.fld VEC_LOOP_RRB k)).vecStarted k i (s.fld VEC_LOOP_RRB k)) := by
  have hk : k.val < 2048 := k.isLt.trans (by decide)
  obtain ⟨hready, hf, -⟩ := id h
  obtain ⟨hi, hop, -⟩ := id hready
  have hstart : ∃ q i m, VecIssued k m s q i ∧ (counting op = true → m = md) ∧ s.issueTo k op .vector = q.startVector k i := by
    cases hc : counting op with
    | true =>
      obtain ⟨q, i, hq, hstart⟩ := exists_vecIssued h hc hu
      exact ⟨q, i, md, hq, fun _ => rfl, hstart⟩
    | false =>
      have hq := vecIssued_plain h hc hu
      exact ⟨_, _, _, hq, fun he => absurd he Bool.false_ne_true,
        (State.issueTo_eq hready (.of_alone hf) .vector).trans (hq.tryStart (State.issuing_iff.1 hi).1 hop hu)⟩
  obtain ⟨q, i, m, hq, hm, hstart⟩ := hstart
  have hrrb : q.fld VEC_LOOP_RRB k = s.fld VEC_LOOP_RRB k := hq.fld (by decide +kernel) (by decide) hk 0
  refine ⟨q, i, m, hq, hm, by rw [hq.word, hop], hrrb, (hexec k s).trans (congrArg _ (hstart.trans ?_))⟩
  rw [State.startVector_live hq.live hq.failed, hrrb]

/-- The memories after the issue are those before it. -/
theorem VecIssued.memories {k : Nat} {md : NumMode} {s q : State} {i : Inf} (h : VecIssued k md s q i) :
    q.vreg = s.vreg ∧ q.sacc = s.sacc ∧ q.store = s.store ∧ q.freeIx = s.freeIx := by
  rw [h.only.1]
  exact ⟨rfl, rfl, rfl, rfl⟩

/-- The issue is the same whatever the coach stores, the accumulators and the free values drawn. -/
theorem VecIssued.withMem {k : Nat} {md : NumMode} {s q : State} {i : Inf} (h : VecIssued k md s q i) (st : List Host.Cell) (fi : Nat) (sa : SMap Nat) :
    VecIssued k md { s with store := st, freeIx := fi, sacc := sa } { q with store := st, freeIx := fi, sacc := sa } i := by
  obtain ⟨⟨hq, hf, hc⟩, hpass, hcoach, hmode, hfail, hword, hlive, hstart, hfin⟩ := h
  refine ⟨⟨?_, hf, hc⟩, hpass, hcoach, hmode, hfail, hword, hlive, hstart, hfin⟩
  rw [hq]

/-- What stays when an instruction's work has changed the stores, the accumulators and the free values drawn, and else no more than its registers, its counts
and the fields of `L`. -/
theorem VecIssued.memFrame {k : Coach} {md : NumMode} {s q t : State} {i : Inf} {regs : List Nat} {L : List (Fld × Nat × Nat)} (h : VecIssued k md s q i)
    {st : List Host.Cell} {fi : Nat} {sa : SMap Nat} (ht : VecKeeps k regs (cntFlds k ++ L) { q with store := st, freeIx := fi, sacc := sa } t)
    (hL : ∀ x ∈ L, x.1 ≠ COA_PC_PC ∧ x.1 ≠ COA_ISSUED_ISSUED) (rrb : Nat) :
    VecFrame k regs L { s with store := st, freeIx := fi, sacc := sa } (t.vecStarted k i rrb) := (h.withMem st fi sa).vecFrame ht hL rrb

/-- Counts and a tile change the operations and the counting fields alone. -/
theorem opsFrame_counts (s : State) {k : Nat} (hk : k < 2048) (seq : Option Nat) (sat flush nan : Nat) (tile : TileRec) :
    OpsFrame k (cntFlds k) s ((s.count k seq sat flush nan).addTile k seq tile) :=
  (OpsFrame.count s hk seq (fun _ => by simp [cntFlds]) (fun _ => by simp [cntFlds]) (fun _ _ h => by simp [cntFlds, h])).trans
    (.addTile _ hk (by simp [cntFlds]) seq tile)

/-- The codes of a name whose register has just been written. -/
theorem State.kindCodes_setLanes (s : State) (k rrb name : Nat) {vs : List Nat} (h : vs.length = 512) :
    (s.setLanes k (physReg rrb name) 0 vs).kindCodes k rrb name false = vs.map (· % 2 ^ 32) := by
  rw [State.kindCodes]
  simp only [Bool.false_eq_true, if_false]
  rw [State.lanes_setLanes s k _ h]

/-- The lanes of 512 codes written to VD's register, with the instruction's counts and its tile. -/
theorem setLanes_gives {k : Nat} (hk : k < 2048) (q : State) (w rrb : Nat) {vs : List Nat} (h : vs.length = 512) (seq : Option Nat) (sat flush nan : Nat)
    (tile : TileRec) :
    (((q.setLanes k (physReg rrb (iVd w)) 0 vs).count k seq sat flush nan).addTile k seq tile).kindCodes k rrb (iVd w) false = vs.map (· % 2 ^ 32) ∧
    VecKeeps k (physRegs rrb (iVd w) false) (cntFlds k) q (((q.setLanes k (physReg rrb (iVd w)) 0 vs).count k seq sat flush nan).addTile k seq tile) := by
  have hcnt := opsFrame_counts (q.setLanes k (physReg rrb (iVd w)) 0 vs) hk seq sat flush nan tile
  refine ⟨?_, (VecKeeps.setLanes q (physReg_lt (iVd_lt w)) (List.mem_singleton_self _) h).trans (hcnt.vecKeeps _)⟩
  rw [State.kindCodes_of_vreg hcnt.vreg, State.kindCodes_setLanes _ _ _ _ h]

/-- The codes written to VD, with the instruction's counts and its tile. -/
theorem putCodes_gives {k : Nat} (hk : k < 2048) (q : State) (w rrb : Nat) (pair : Bool) {cs : List Nat} (h : cs.length = 512) (seq : Option Nat)
    (sat flush nan : Nat) (tile : TileRec) :
    (((q.putCodes k rrb (iVd w) pair cs).count k seq sat flush nan).addTile k seq tile).kindCodes k rrb (iVd w) pair = cs.map (· % 2 ^ (kindFmt pair).width) ∧
    VecKeeps k (physRegs rrb (iVd w) pair) (cntFlds k) q (((q.putCodes k rrb (iVd w) pair cs).count k seq sat flush nan).addTile k seq tile) := by
  have hcnt := opsFrame_counts (q.putCodes k rrb (iVd w) pair cs) hk seq sat flush nan tile
  refine ⟨?_, (VecKeeps.putCodes q k rrb (iVd_lt w) pair h).trans (hcnt.vecKeeps _)⟩
  rw [State.kindCodes_of_vreg hcnt.vreg, State.kindCodes_putCodes q k rrb (iVd_lt w) pair h]

end Sys2Proof.Machine
end

section
/-! RESULTS. Conversions, sums, index search and accumulators written to VD (R215, R228, R238 to R241, R246; O19). -/

namespace Sys2Proof.Machine

/-! ### VCVT (R228) -/

/-- Format of a VCVT kind (Table 5.1). -/
def cvtFmt (x : Nat) : Fmt := if x = 0 then .f32 else if x = 1 then .f64 else .x24

/-- The values that VCVT reads. -/
def cvtVals (md : NumMode) (k : Nat) (s : State) (w : Nat) : List Val :=
  (readVals md (cvtFmt (fieldOf w 1 28 2)) ((s.kindCodes k (s.fld VEC_LOOP_RRB k) (iVa w) (fieldOf w 1 28 2 == 1)).map
    (fun c => if fieldOf w 1 28 2 = 2 then c % 2 ^ 24 else c))).1

/-- The codes that the values become in the destination kind. -/
def cvtCodes (md : NumMode) (k : Nat) (s : State) (w : Nat) : List Nat :=
  (cvtVals md k s w).map (fun v => (convertVal md (fieldOf w 1 25 1 == 1) (cvtFmt (fieldOf w 1 30 2)) v).code)

/-- The lanes that VCVT leaves: X24 codes with their sign copied into the upper byte. -/
def lanesCvt (md : NumMode) (k : Nat) (s : State) (w : Nat) : List Nat :=
  if fieldOf w 1 30 2 = 2 then (cvtCodes md k s w).map x24Lane else cvtCodes md k s w

/-- VCVT converts every lane. -/
@[simp] theorem length_cvtCodes (md : NumMode) (k : Nat) (s : State) (w : Nat) : (cvtCodes md k s w).length = 512 := by simp [cvtCodes, cvtVals, readVals]

/-- VCVT writes its codes, in X24 kind as lanes, else as codes of its destination kind; it counts, and adds a tile. -/
theorem State.vcvt_eq (q : State) (k : Nat) (i : Inf) : ∃ sat flush tile, q.vcvt k i (q.fld VEC_LOOP_RRB k) =
    ((if fieldOf i.w 1 30 2 = 2 then q.setLanes k (physReg (q.fld VEC_LOOP_RRB k) (iVd i.w)) 0 ((cvtCodes (q.modeOf k i.opn) k q i.w).map x24Lane)
      else q.putCodes k (q.fld VEC_LOOP_RRB k) (iVd i.w) (fieldOf i.w 1 30 2 == 1) (cvtCodes (q.modeOf k i.opn) k q i.w)).count k i.opn sat flush 0).addTile
        k i.opn tile := by
  unfold State.vcvt cvtCodes cvtVals cvtFmt
  simp only [beq_iff_eq, List.map_map, Function.comp_def]
  exact ⟨_, _, _, rfl⟩

/-- The work of VCVT. -/
theorem workGives_vcvt : WorkGives 0x58 (fun w => fieldOf w 1 30 2 == 1) lanesCvt := by
  intro k q i hop
  have hk : k.val < 2048 := k.isLt.trans (by decide)
  have hwork : q.vecWork k i (q.fld VEC_LOOP_RRB k) = q.vcvt k i (q.fld VEC_LOOP_RRB k) := by simp only [State.vecWork, hop]
  obtain ⟨sat, flush, tile, heq⟩ := q.vcvt_eq k i
  rw [hwork, heq, lanesCvt]
  dsimp only
  by_cases hd : fieldOf i.w 1 30 2 = 2
  · rw [if_pos hd, if_pos hd, hd]
    exact setLanes_gives hk q i.w _ (by simp) _ _ _ _ _
  · rw [if_neg hd, if_neg hd]
    exact putCodes_gives hk q i.w _ _ (by simp) _ _ _ _ _

/-- VCVT. -/
theorem result_vcvt : Result Instr.vcvt 0x58 (fun w => fieldOf w 1 30 2 == 1) lanesCvt :=
  result_of_work (fun _ _ => rfl) rfl rfl
    (fun md k s q w hv hr => by simp only [lanesCvt, cvtCodes, cvtVals, State.kindCodes_of_vreg hv, hr]) workGives_vcvt

/-! ### VRSUM (R238) -/

/-- The sums that VRSUM rounds: of each lane group, or of all lanes. -/
def sumsOf (w : Nat) (vs : List Val) : List Val :=
  if fieldOf w 1 26 1 = 1 then (groups16 vs).map (fun v => (sumVals v).source 0) else [(sumVals vs).source 0]

/-- Sixteen groups. -/
@[simp] theorem length_groups16 {α : Type} (l : List α) : (groups16 l).length = 16 := by simp [groups16]

/-- Sixteen sums, or one. -/
theorem length_sumsOf_le (w : Nat) (vs : List Val) : (sumsOf w vs).length ≤ 512 := by
  unfold sumsOf
  split <;> simp

/-- The values that VRSUM writes: the sums, then zeros. -/
def sumsFilled (w : Nat) (vs : List Val) : List Val := sumsOf w vs ++ List.replicate (512 - (sumsOf w vs).length) (Val.zero false)

/-- The lanes that VRSUM leaves. -/
def lanesSum (md : NumMode) (k : Nat) (s : State) (w : Nat) : List Nat := (sumsFilled w (vals md false k (iVa w) s)).map (laneCode md false)

/-- The work of VRSUM. -/
theorem workGives_vrsum : WorkGives 0x5C (fun _ => false) lanesSum := by
  intro k q i hop
  have hwork : ∃ n, q.vecWork k i (q.fld VEC_LOOP_RRB k) = q.vecWrite k i (q.fld VEC_LOOP_RRB k) false (sumsFilled i.w (vals (q.modeOf k i.opn) false k (iVa i.w) q)) n := by
    simp only [State.vecWork, hop, State.vrsum, sumsFilled, sumsOf, beq_iff_eq]
    exact ⟨_, rfl⟩
  obtain ⟨n, hwork⟩ := hwork
  have hlen := length_sumsOf_le i.w (vals (q.modeOf k i.opn) false k (iVa i.w) q)
  rw [hwork]
  exact vecWrite_gives (k.isLt.trans (by decide)) q i _ false (by rw [sumsFilled, List.length_append, List.length_replicate]; omega) n

/-- VRSUM. -/
theorem result_vrsum : Result Instr.vrsum 0x5C (fun _ => false) lanesSum :=
  result_of_work (fun _ _ => rfl) rfl rfl (fun md k s q w hv hr => by simp only [lanesSum, vals_of_eq hv hr]) workGives_vrsum

/-! ### VMAXI and VMINI (R239 to R241) -/

/-- The candidates of an index search: each lane's value and its index. -/
def candsOf (w : Nat) (vs : List Val) : List (Val × Nat) := vs.zipIdx.map (fun vj => (vj.1, (fieldOf w 2 0 32 + vj.2) % 2 ^ 32))

/-- The sets of candidates that are searched: each lane group, or all lanes. -/
def candSets (w : Nat) (vs : List Val) : List (List (Val × Nat)) := if fieldOf w 1 26 1 = 1 then groups16 (candsOf w vs) else [candsOf w vs]

/-- The candidate that COMB takes from VD for set `g`. -/
def combCand (md : NumMode) (old : List Nat) (g : Nat) : Val × Nat := ((readCode md .f32 (old.getD (2 * g) 0)).1, old.getD (2 * g + 1) 0)

/-- The first candidate of each set. -/
def firstsOf (isMax : Bool) (md : NumMode) (w : Nat) (vs : List Val) (old : List Nat) : List (Val × Nat) :=
  (candSets w vs).zipIdx.map (fun cg => firstOf isMax (cg.1 ++ if fieldOf w 1 27 1 = 1 then [combCand md old cg.2] else []))

/-- The lanes of the first candidates, each a value and its index. -/
def firstLanes (md : NumMode) (rs : List (Val × Nat)) : List Nat := (rs.map (fun r => [laneCode md false r.1, r.2])).flatten

/-- The lanes that an index search leaves. -/
def lanesSearch (isMax : Bool) (md : NumMode) (k : Nat) (s : State) (w : Nat) : List Nat :=
  let ls := firstLanes md (firstsOf isMax md w (vals md false k (iVa w) s) (s.lanes k (physReg (s.fld VEC_LOOP_RRB k) (iVd w))))
  ls ++ List.replicate (512 - ls.length) 0

/-- Two lanes for each first candidate. -/
theorem length_firstLanes (md : NumMode) (rs : List (Val × Nat)) : (firstLanes md rs).length = 2 * rs.length := by
  simp [firstLanes, List.length_flatten, List.map_map, Function.comp_def, Nat.mul_comm]

/-- Sixteen first candidates, or one. -/
theorem length_firstsOf_le (isMax : Bool) (md : NumMode) (w : Nat) (vs : List Val) (old : List Nat) : (firstsOf isMax md w vs old).length ≤ 16 := by
  rw [firstsOf, List.length_map, List.length_zipIdx, candSets]
  split <;> simp

/-- An index search fills VD. -/
theorem length_lanesSearch (isMax : Bool) (md : NumMode) (k : Nat) (s : State) (w : Nat) : (lanesSearch isMax md k s w).length = 512 := by
  have hle := length_firstsOf_le isMax md w (vals md false k (iVa w) s) (s.lanes k (physReg (s.fld VEC_LOOP_RRB k) (iVd w)))
  simp only [lanesSearch, List.length_append, List.length_replicate, length_firstLanes]
  omega

/-- An index search writes its lanes to VD, counts, and adds a tile. -/
theorem State.vsearch_eq (q : State) (k : Nat) (i : Inf) (isMax : Bool) : ∃ flush tile, q.vsearch k i (q.fld VEC_LOOP_RRB k) isMax =
    ((q.setLanes k (physReg (q.fld VEC_LOOP_RRB k) (iVd i.w)) 0 (lanesSearch isMax (q.modeOf k i.opn) k q i.w)).count k i.opn 0 flush 0).addTile k i.opn tile := by
  unfold State.vsearch lanesSearch firstLanes firstsOf candSets candsOf combCand
  simp only [beq_iff_eq]
  exact ⟨_, _, rfl⟩

/-- The work of an index search. -/
theorem workGives_vsearch {op : Nat} (isMax : Bool) (h : ∀ (q : State) (k : Nat) (i : Inf) (rrb : Nat), opOf i.w = op → q.vecWork k i rrb = q.vsearch k i rrb isMax) :
    WorkGives op (fun _ => false) (lanesSearch isMax) := by
  intro k q i hop
  obtain ⟨flush, tile, heq⟩ := q.vsearch_eq k i isMax
  rw [h q k i _ hop, heq]
  exact setLanes_gives (k.isLt.trans (by decide)) q i.w _ (length_lanesSearch _ _ _ _ _) _ _ _ _ _

/-- An index search goes by the registers and the loop's rotation alone. -/
theorem readsLanes_search (isMax : Bool) : ReadsLanes (lanesSearch isMax) :=
  fun md k s q w hv hr => by simp only [lanesSearch, vals_of_eq hv hr, State.lanes, hv, hr]

/-- VMAXI and VMINI. -/
theorem result_vsearch (isMax : Bool) :
    Result (if isMax then Instr.vmaxi else Instr.vmini) (if isMax then 0x5D else 0x5E) (fun _ => false) (lanesSearch isMax) := by
  cases isMax with
  | true => exact result_of_work (fun _ _ => rfl) rfl rfl (readsLanes_search true) (workGives_vsearch (op := 0x5D) true (fun q k i rrb h => by simp only [State.vecWork, h]))
  | false => exact result_of_work (fun _ _ => rfl) rfl rfl (readsLanes_search false) (workGives_vsearch (op := 0x5E) false (fun q k i rrb h => by simp only [State.vecWork, h]))

/-! ### SWB (R246) -/

/-- The lanes that SWB leaves. -/
def lanesScaled (md : NumMode) (k : Nat) (s : State) (w : Nat) : List Nat :=
  (s.sigAccs k (fieldOf w 1 22 3)).map (fun a =>
    x24Lane (convertVal md (fieldOf w 1 25 1 == 1) .x24 (valOfInt (toSigned 56 a) (-46 - (fieldOf w 1 28 4 : Int)))).code)

/-- A lane for each element of the accumulator. -/
theorem length_lanesScaled (md : NumMode) (k : Nat) (s : State) (w : Nat) : (lanesScaled md k s w).length = 512 := by simp [lanesScaled, State.sigAccs]

/-- SWB writes its lanes to VD, counts, and adds a tile. -/
theorem State.swb_eq (q : State) (k : Nat) (i : Inf) (rrb : Nat) : ∃ sat flush tile, q.swb k i rrb =
    ((q.setLanes k (physReg rrb (iVd i.w)) 0 (lanesScaled (q.modeOf k i.opn) k q i.w)).count k i.opn sat flush 0).addTile k i.opn tile := by
  unfold State.swb lanesScaled
  simp only [List.map_map, Function.comp_def]
  exact ⟨_, _, _, rfl⟩

/-- SWB. -/
theorem result_swb : Result Instr.swb 0x62 (fun _ => false) lanesScaled := by
  intro k md s h
  obtain ⟨q, i, m, hq, hm, hop, hrrb, hexec⟩ := exec_vector_live (c := Instr.swb) (fun _ _ => rfl) rfl h
  obtain rfl := hm rfl
  obtain ⟨-, hsacc, -⟩ := hq.memories
  obtain ⟨sat, flush, tile, heq⟩ := q.swb_eq k i (s.fld VEC_LOOP_RRB k)
  have hwork : q.vecWork k i (s.fld VEC_LOOP_RRB k) = q.swb k i (s.fld VEC_LOOP_RRB k) := by simp only [State.vecWork, hop]
  have hlanes : lanesScaled m k q (s.atPc k) = lanesScaled m k s (s.atPc k) := by simp only [lanesScaled, State.sigAccs, hsacc]
  obtain ⟨hcodes, hkeeps⟩ := setLanes_gives (k.isLt.trans (by decide)) q i.w (s.fld VEC_LOOP_RRB k) (length_lanesScaled (q.modeOf k i.opn) k q i.w) i.opn sat flush 0 tile
  rw [← heq, ← hwork, hq.mode, hq.word, hlanes] at hcodes
  rw [← heq, ← hwork, hq.word] at hkeeps
  exact ⟨_, hexec, hcodes, hq.vecFrame (L := []) (by rwa [List.append_nil]) (fun _ h => absurd h List.not_mem_nil) _⟩

/-- Settles O19: each instruction's work gives VD its lanes, from what it reads at its issue. -/
theorem vectorConversionsAndReductions : Obligations.VectorConversionsAndReductions :=
  ⟨fun k md s h => result_vcvt k md s h, result_vrsum, result_vsearch, result_swb⟩

end Sys2Proof.Machine
end

section
/-! RESULTS. Signal mode, descriptors, loops, stages out of turn and completion of vector instructions (R216, R220, R234, R244, R245, R247 to R249; O21). -/

namespace Sys2Proof.Machine

/-! ### SMAC and SMSU (R244, R245) -/

/-- The product of lane `i`: of VA with VB, or with the lane of VB that its group broadcasts. -/
def signalProduct (s : State) (k w rrb i : Nat) : Int :=
  toSigned 24 (s.lane k (physReg rrb (iVa w)) i) *
    toSigned 24 (s.lane k (physReg rrb (iVb w)) (if fieldOf w 1 27 1 = 1 then 32 * (i / 32) + fieldOf w 2 0 5 else i))

/-- What the product is added to. -/
def signalOld (s : State) (k w i : Nat) : Int := if fieldOf w 1 26 1 = 1 then 0 else toSigned 56 (s.sigAcc k (fieldOf w 1 22 3) i)

/-- The exact sum of lane `i`. -/
def signalNew (s : State) (k w rrb : Nat) (sub : Bool) (i : Nat) : Int :=
  signalOld s k w i + (if sub then -signalProduct s k w rrb i else signalProduct s k w rrb i)

/-- The exact sums of all lanes. -/
def signalSums (s : State) (k w rrb : Nat) (sub : Bool) : List Int := (List.range 512).map (signalNew s k w rrb sub)

/-- Whether an exact sum leaves the range of 56 bits. -/
def leaves56 (v : Int) : Bool := decide (v < -((2 ^ 55 : Nat) : Int)) || decide (v ≥ ((2 ^ 55 : Nat) : Int))

/-- Set bit `ix x` for each `x` of a list that meets `p`. -/
def orBits {α : Type} (p : α → Bool) (ix : α → Nat) (l : List α) (m : Nat) : Nat := l.foldl (fun m x => if p x then m ||| 2 ^ ix x else m) m

/-- AOVF with the bits of the groups that overflow. -/
def overflowBits (vs : List Int) (m : Nat) : Nat := orBits (fun og : List Bool × Nat => og.1.any id) (·.2) (groups16 (vs.map leaves56)).zipIdx m

/-- The lanes of a register, each read by its index. -/
theorem State.lanes_eq (s : State) (k r : Nat) : s.lanes k r = (List.range 512).map (s.lane k r) := mslice_eq 0 s.vreg _ 512

/-- The lanes of an accumulator, each read by its index. -/
theorem State.sigAccs_eq (s : State) (k a : Nat) : s.sigAccs k a = (List.range 512).map (s.sigAcc k a) := mslice_eq 0 s.sacc _ 512

/-- Lanes by index, read as a list. -/
theorem getD_map_range {α : Type} (f : Nat → α) (d : α) {n i : Nat} (h : i < n) : ((List.range n).map f).getD i d = f i := by simp [h]

/-- The broadcast lane of a group lies in it. -/
theorem broadcast_lt (w : Nat) {i : Nat} (hi : i < 512) : 32 * (i / 32) + fieldOf w 2 0 5 < 512 := by
  have hb : fieldOf w 2 0 5 < 32 := fieldOf_lt w 2 0 5
  omega

/-- The second factors of SMAC, as the work reads them. -/
def signalYs (s : State) (k w rrb : Nat) : List Int :=
  let yr := (s.lanes k (physReg rrb (iVb w))).map (fun c => toSigned 24 c)
  if fieldOf w 1 27 1 == 1 then (List.range 512).map (fun i => yr.getD (32 * (i / 32) + fieldOf w 2 0 5) 0) else yr

/-- The second factors by lane. -/
theorem signalYs_eq (s : State) (k w rrb : Nat) : signalYs s k w rrb = (List.range 512).map (fun i =>
    toSigned 24 (s.lane k (physReg rrb (iVb w)) (if fieldOf w 1 27 1 = 1 then 32 * (i / 32) + fieldOf w 2 0 5 else i))) := by
  simp only [signalYs, State.lanes_eq, List.map_map, beq_iff_eq]
  split
  · exact List.map_congr_left (fun i hi => getD_map_range _ 0 (broadcast_lt w (List.mem_range.1 hi)))
  · rfl

/-- The accumulator that the products are added to, as the work reads it. -/
def signalAccs (s : State) (k w : Nat) : List Nat := if fieldOf w 1 26 1 == 1 then List.replicate 512 0 else s.sigAccs k (fieldOf w 1 22 3)

/-- The accumulator by lane. -/
theorem signalAccs_eq (s : State) (k w : Nat) : signalAccs s k w = (List.range 512).map (fun i => if fieldOf w 1 26 1 = 1 then 0 else s.sigAcc k (fieldOf w 1 22 3) i) := by
  simp only [signalAccs, State.sigAccs_eq, beq_iff_eq]
  split
  · rw [List.map_const', List.length_range]
  · rfl

/-- What the product is added to, from the accumulator's bits. -/
theorem signalOld_eq (s : State) (k w i : Nat) : signalOld s k w i = toSigned 56 (if fieldOf w 1 26 1 = 1 then 0 else s.sigAcc k (fieldOf w 1 22 3) i) := by
  unfold signalOld
  split
  · decide
  · rfl

/-- The exact sums, as the work forms them. -/
theorem signalSums_eq (s : State) (k w rrb : Nat) (sub : Bool) :
    List.zipWith (fun ac xy => toSigned 56 ac + (if sub then -(xy.1 * xy.2) else xy.1 * xy.2)) (signalAccs s k w)
      (List.zip ((s.lanes k (physReg rrb (iVa w))).map (fun c => toSigned 24 c)) (signalYs s k w rrb)) = signalSums s k w rrb sub := by
  rw [signalAccs_eq, signalYs_eq, State.lanes_eq, List.map_map, List.zip_map', List.zipWith_map, List.zipWith_self]
  refine List.map_congr_left (fun i _ => ?_)
  rw [signalNew, signalOld_eq]
  rfl

/-- SMAC and SMSU write the sums to their accumulator, and set the bits of the groups that overflow. -/
theorem State.smac_eq (s : State) (k w rrb : Nat) (sub : Bool) : s.smac k w rrb sub =
    (s.setSigAccs k (fieldOf w 1 22 3) ((signalSums s k w rrb sub).map (ofSigned 56))).setFld VEC_SIGSTAT_AOVF k 0
      (overflowBits (signalSums s k w rrb sub) (s.fld VEC_SIGSTAT_AOVF k)) := by
  rw [← signalSums_eq]
  rfl

/-- A bit of a number with bits set. -/
theorem testBit_orBits {α : Type} (p : α → Bool) (ix : α → Nat) (l : List α) (m g : Nat) :
    (orBits p ix l m).testBit g = (m.testBit g || l.any (fun x => p x && ix x == g)) := by
  induction l generalizing m with
  | nil => simp [orBits]
  | cons x l ih =>
    rw [orBits, List.foldl_cons, ← orBits, ih, List.any_cons]
    cases hx : p x with
    | false => simp
    | true => simp [Nat.testBit_or, Nat.testBit_two_pow, Bool.or_assoc, beq_eq_decide]

/-- One bit as a number. -/
theorem bitsOf_one (x g : Nat) : bitsOf x g 1 = if x.testBit g then 1 else 0 := by
  rw [bitsOf, Nat.shiftRight_eq_div_pow, Nat.testBit_eq_decide_div_mod_eq, Nat.pow_one]
  simp only [decide_eq_true_eq]
  split <;> omega

/-- Lane group `g` of lanes by index. -/
theorem take_drop_map_range {α : Type} (f : Nat → α) {g : Nat} (hg : g < 16) :
    (((List.range 512).map f).drop (32 * g)).take 32 = (List.range 32).map (fun i => f (32 * g + i)) := by
  refine List.ext_getElem ?_ (fun i _ _ => ?_)
  · rw [List.length_take, List.length_drop, List.length_map, List.length_range, List.length_map, List.length_range]
    omega
  · simp only [List.getElem_take, List.getElem_drop, List.getElem_map, List.getElem_range]

/-- The lane groups with their numbers. -/
theorem zipIdx_groups16 {α : Type} (l : List α) : (groups16 l).zipIdx = (List.range 16).map (fun g => ((l.drop (32 * g)).take 32, g)) :=
  List.ext_getElem (by simp [groups16]) (fun i _ _ => by simp [groups16])

/-- A group's bit of AOVF is set where it was, and where a sum of the group leaves the range. -/
theorem testBit_overflowBits (f : Nat → Int) (m : Nat) {g : Nat} (hg : g < 16) :
    (overflowBits ((List.range 512).map f) m).testBit g = (m.testBit g || (List.range 32).any (fun i => leaves56 (f (32 * g + i)))) := by
  rw [overflowBits, testBit_orBits, zipIdx_groups16, List.any_map, List.map_map]
  refine congrArg (m.testBit g || ·) (Bool.eq_iff_iff.2 ?_)
  rw [List.any_eq_true, List.any_eq_true]
  simp only [Function.comp_apply, Bool.and_eq_true, beq_iff_eq, List.mem_range]
  constructor
  · rintro ⟨j, hj, ho, rfl⟩
    rw [take_drop_map_range _ hj, List.any_map, List.any_eq_true] at ho
    obtain ⟨i, hi, h⟩ := ho
    exact ⟨i, List.mem_range.1 hi, h⟩
  · rintro ⟨i, hi, h⟩
    refine ⟨g, hg, ?_, rfl⟩
    rw [take_drop_map_range _ hg, List.any_map, List.any_eq_true]
    exact ⟨i, List.mem_range.2 hi, h⟩

/-- An accumulator just written, and every other. -/
theorem State.sigAcc_setSigAccs (s : State) (k a : Nat) (f : Nat → Nat) (j b i : Nat) (ha : a < 8) (hb : b < 8) (hi : i < 512) :
    (s.setSigAccs k a ((List.range 512).map f)).sigAcc j b i = if j = k ∧ b = a then f i % 2 ^ 56 else s.sigAcc j b i := by
  refine (mget_mblock 0 s.sacc _ _ _).trans ?_
  rw [List.map_map, List.length_map, List.length_range]
  by_cases h : j = k ∧ b = a
  · rw [if_pos h]
    obtain ⟨rfl, rfl⟩ := h
    rw [if_pos (by omega), Nat.add_sub_cancel_left, getD_map_range _ 0 hi]
    rfl
  · rw [if_neg h, if_neg (by omega)]
    rfl

/-- A field that the start does not count in reads as the work left it. -/
theorem State.fld_vecStarted (t : State) (k : Nat) (i : Inf) (rrb : Nat) {f : Fld} (u x : Nat) (h : f.idx % 1024 ≠ VEC_BUSY_BUSY.idx % 1024) :
    (t.vecStarted k i rrb).fld f u x = t.fld f u x := t.fld_setFld_idx u x k 0 _ h

/-- The start leaves the accumulators as the work left them. -/
theorem State.sacc_vecStarted (t : State) (k : Nat) (i : Inf) (rrb : Nat) : (t.vecStarted k i rrb).sacc = t.sacc := rfl

/-- A field write leaves the accumulators. -/
theorem State.sacc_setFld (t : State) (f : Fld) (u n v : Nat) : (t.setFld f u n v).sacc = t.sacc := rfl

/-- An accumulator's lane goes by the accumulators alone. -/
theorem State.sigAcc_of_sacc {s t : State} (h : t.sacc = s.sacc) (j a x : Nat) : t.sigAcc j a x = s.sigAcc j a x := by rw [State.sigAcc, h, State.sigAcc]

/-- What SMAC and SMSU leave. -/
theorem smac_writes {c : Coach → Instr} {op : Nat} (sub : Bool) {k : Coach} {md : NumMode} {s : State}
    (hexec : ∀ k s, exec (c k) s = .next (s.issueTo k op .vector)) (hu : unitOf op = some .vector)
    (hwork : ∀ (q : State) (k : Nat) (i : Inf) (rrb : Nat), opOf i.w = op → q.vecWork k i rrb = q.smac k i.w rrb sub) (h : VecReady k op md s) :
    ∃ t, exec (c k) s = .next t ∧ VecFrame k [] [(VEC_SIGSTAT_AOVF, k, 0)] { s with sacc := t.sacc } t ∧
      (∀ i, i < 512 → t.sigAcc k (fieldOf (s.atPc k) 1 22 3) i = ofSigned 56 (signalNew s k (s.atPc k) (s.fld VEC_LOOP_RRB k) sub i)) ∧
      (∀ g, g < 16 → (t.fld VEC_SIGSTAT_AOVF k).testBit g = ((s.fld VEC_SIGSTAT_AOVF k).testBit g ||
        (List.range 32).any (fun i => leaves56 (signalNew s k (s.atPc k) (s.fld VEC_LOOP_RRB k) sub (32 * g + i))))) ∧
      ∀ j a i, a < 8 → i < 512 → (j ≠ k.val ∨ a ≠ fieldOf (s.atPc k) 1 22 3) → t.sigAcc j a i = s.sigAcc j a i := by
  have hk : k.val < 2048 := k.isLt.trans (by decide)
  obtain ⟨q, i, m, hq, -, hop, -, hstart⟩ := exec_vector_live hexec hu h
  obtain ⟨hvreg, hsacc, hstore, hfree⟩ := hq.memories
  have haovf : q.fld VEC_SIGSTAT_AOVF k = s.fld VEC_SIGSTAT_AOVF k := hq.fld (by decide +kernel) (by decide) hk 0
  have hnew : signalNew q k (s.atPc k) (s.fld VEC_LOOP_RRB k) sub = signalNew s k (s.atPc k) (s.fld VEC_LOOP_RRB k) sub := by
    funext x
    simp only [signalNew, signalOld, signalProduct, State.lane, State.sigAcc, hvreg, hsacc]
  have ha : fieldOf (s.atPc k) 1 22 3 < 8 := fieldOf_lt _ _ _ _
  rw [hwork q k i _ hop, State.smac_eq, hq.word, signalSums, hnew, haovf, List.map_map] at hstart
  generalize signalNew s k (s.atPc k) (s.fld VEC_LOOP_RRB k) sub = new at hstart ⊢
  generalize hu : q.setSigAccs k (fieldOf (s.atPc k) 1 22 3) ((List.range 512).map (ofSigned 56 ∘ new)) = u at hstart
  have hread : ∀ j a x, a < 8 → x < 512 → u.sigAcc j a x = if j = k.val ∧ a = fieldOf (s.atPc k) 1 22 3 then ofSigned 56 (new x) else s.sigAcc j a x := by
    intro j a x hj hx
    rw [← hu, State.sigAcc_setSigAccs _ _ _ _ _ _ _ ha hj hx, Function.comp_apply, Nat.mod_eq_of_lt (ofSigned_lt 56 _), State.sigAcc, hsacc, ← State.sigAcc]
  have hself : { q with sacc := u.sacc } = u := by
    rw [← hu]
    rfl
  have hkeeps : VecKeeps k [] (cntFlds k ++ [(VEC_SIGSTAT_AOVF, k.val, 0)]) { q with sacc := u.sacc }
      (u.setFld VEC_SIGSTAT_AOVF k 0 (overflowBits ((List.range 512).map new) (s.fld VEC_SIGSTAT_AOVF k))) := by
    rw [hself]
    exact (OpsFrame.setFld u k _ (by decide +kernel) hk (by simp)).vecKeeps []
  refine ⟨_, hstart, ?_, fun x hx => ?_, fun g hg => ?_, fun j a x hj hx hne => ?_⟩
  · have hframe := hq.memFrame (st := q.store) (fi := q.freeIx) (sa := u.sacc) hkeeps (by simp; decide) (s.fld VEC_LOOP_RRB k)
    rw [hstore, hfree] at hframe
    rw [State.sacc_vecStarted, State.sacc_setFld]
    exact hframe
  · rw [State.sigAcc_of_sacc ((State.sacc_vecStarted _ _ _ _).trans (State.sacc_setFld _ _ _ _ _)), hread _ _ _ ha hx, if_pos ⟨rfl, rfl⟩]
  · have hg' : g < VEC_SIGSTAT_AOVF.w := hg
    rw [State.fld_vecStarted _ _ _ _ _ _ (by decide), State.fld_setFld_same, Nat.testBit_mod_two_pow, testBit_overflowBits _ _ hg, decide_eq_true hg', Bool.true_and]
  · rw [State.sigAcc_of_sacc ((State.sacc_vecStarted _ _ _ _).trans (State.sacc_setFld _ _ _ _ _)), hread _ _ _ hj hx, if_neg (by omega)]

/-! ### VSETCB (R234) -/

/-- What VSETCB writes to the descriptor of group `g`. -/
def cbVals (w g : Nat) : List (Fld × Nat) :=
  [(VEC_CBBASE_BASE, (if fieldOf w 3 21 1 == 1 then fieldOf w 2 0 23 + g * (fieldOf w 1 19 13 * 16) else fieldOf w 2 0 23) / 16), (VEC_CBLEN_LEN, fieldOf w 3 0 21),
    (VEC_CBPTR_PTR, if fieldOf w 3 21 1 == 1 || fieldOf w 3 0 21 == 0 then 0 else (g * (fieldOf w 1 19 13 * 16)) % fieldOf w 3 0 21)]

/-- The descriptors of the groups listed have been written. -/
def State.setCbs (s : State) (k w : Nat) (gs : List Nat) : State := gs.foldl (fun t g => t.setFlds k (8 * g + fieldOf w 1 16 3) (cbVals w g)) s

/-- VSETCB writes the descriptors of the groups of its mask. -/
theorem State.vsetcb_eq (s : State) (k w : Nat) : s.vsetcb k w = s.setCbs k w ((List.range 16).filter (fun g => bitsOf (fieldOf w 1 0 16) g 1 == 1)) := rfl

/-- The fields of a descriptor have indices of their own. -/
theorem cbVals_idx (w g : Nat) : (cbVals w g).map (·.1.idx % 1024) = [60, 61, 62] := rfl

/-- The fields that VSETCB can change. -/
def cbDescFlds (k w : Nat) : List (Fld × Nat × Nat) :=
  ((List.range 16).map (fun g => [(VEC_CBBASE_BASE, k, 8 * g + fieldOf w 1 16 3), (VEC_CBLEN_LEN, k, 8 * g + fieldOf w 1 16 3),
    (VEC_CBPTR_PTR, k, 8 * g + fieldOf w 1 16 3)])).flatten

/-- A descriptor's fields are fields of the table, and among those that VSETCB can change. -/
theorem cbVals_mem (k w : Nat) {g : Nat} (hg : g < 16) : ∀ x ∈ cbVals w g, x.1 ∈ fldTable ∧ (x.1, k, 8 * g + fieldOf w 1 16 3) ∈ cbDescFlds k w := by
  have hmem : ∀ f ∈ [VEC_CBBASE_BASE, VEC_CBLEN_LEN, VEC_CBPTR_PTR], (f, k, 8 * g + fieldOf w 1 16 3) ∈ cbDescFlds k w := fun f hf =>
    List.mem_flatten.2 ⟨_, List.mem_map.2 ⟨g, List.mem_range.2 hg, rfl⟩, by simpa using hf⟩
  simp only [cbVals, List.forall_mem_cons]
  exact ⟨⟨by decide +kernel, hmem _ (by simp)⟩, ⟨by decide +kernel, hmem _ (by simp)⟩, ⟨by decide +kernel, hmem _ (by simp)⟩, fun _ h => absurd h List.not_mem_nil⟩

/-- Descriptors written change descriptor fields alone. -/
theorem OnlyFields.setCbs {k : Nat} (hk : k < 2048) (w : Nat) {gs : List Nat} (hgs : ∀ g ∈ gs, g < 16) (s : State) :
    OnlyFields (cbDescFlds k w) s (s.setCbs k w gs) := by
  induction gs generalizing s with
  | nil => exact .refl _ s
  | cons g gs ih =>
    obtain ⟨hg, hgs⟩ := List.forall_mem_cons.1 hgs
    exact (OnlyFields.setFlds s hk (cbVals_mem k w hg)).trans (ih hgs _)

/-- A descriptor's field that is not of the groups listed stays. -/
theorem State.fld_setCbs_other {k : Nat} (hk : k < 2048) (w : Nat) {f : Fld} (hf : f ∈ fldTable) {g : Nat} {gs : List Nat} (hgs : ∀ g ∈ gs, g < 16)
    (hg : g ∉ gs) (s : State) : (s.setCbs k w gs).fld f k (8 * g + fieldOf w 1 16 3) = s.fld f k (8 * g + fieldOf w 1 16 3) := by
  induction gs generalizing s with
  | nil => rfl
  | cons x gs ih =>
    obtain ⟨hx, hgs⟩ := List.forall_mem_cons.1 hgs
    rw [List.mem_cons, not_or] at hg
    obtain ⟨hne, hg⟩ := hg
    have hone : OnlyFields ((cbVals w x).map (fun y => (y.1, k, 8 * x + fieldOf w 1 16 3))) s (s.setFlds k (8 * x + fieldOf w 1 16 3) (cbVals w x)) :=
      .setFlds s hk (fun y hy => ⟨(cbVals_mem k w hx y hy).1, List.mem_map_of_mem hy⟩)
    refine (ih hgs hg _).trans (hone.2 f hf k _ hk (fun hm => ?_))
    obtain ⟨y, -, he⟩ := List.mem_map.1 hm
    simp only [Prod.mk.injEq] at he
    omega

/-- A descriptor's field of a group listed reads what VSETCB writes there. -/
theorem State.fld_setCbs {k : Nat} (hk : k < 2048) (w : Nat) {f : Fld} (hf : f ∈ fldTable) {v g : Nat} {gs : List Nat} (hgs : ∀ g ∈ gs, g < 16)
    (hg : g ∈ gs) (hv : (f, v) ∈ cbVals w g) (s : State) : (s.setCbs k w gs).fld f k (8 * g + fieldOf w 1 16 3) = v % 2 ^ f.w := by
  induction gs generalizing s with
  | nil => exact absurd hg List.not_mem_nil
  | cons x gs ih =>
    obtain ⟨-, htail⟩ := List.forall_mem_cons.1 hgs
    by_cases hmem : g ∈ gs
    · exact ih htail hmem _
    · obtain rfl : g = x := (List.mem_cons.1 hg).resolve_right hmem
      have hlater := State.fld_setCbs_other hk w hf htail hmem (s.setFlds k (8 * g + fieldOf w 1 16 3) (cbVals w g))
      exact hlater.trans (s.fld_setFlds_mem k _ (by rw [cbVals_idx]; decide) hv)

/-- The groups of VSETCB's mask. -/
theorem mem_maskGroups {m g : Nat} (hg : g < 16) : g ∈ (List.range 16).filter (fun g => bitsOf m g 1 == 1) ↔ bitsOf m g 1 = 1 := by
  simp [hg]

/-- What the work of an instruction that changes register fields alone leaves. -/
theorem VecIssued.fieldsFrame {k : Coach} {md : NumMode} {s q t : State} {i : Inf} {L : List (Fld × Nat × Nat)} (h : VecIssued k md s q i)
    (ht : OnlyFields L q t) (hL : ∀ x ∈ L, x.1 ≠ COA_PC_PC ∧ x.1 ≠ COA_ISSUED_ISSUED) (rrb : Nat) : VecFrame k [] L s (t.vecStarted k i rrb) :=
  h.vecFrame (((ht.opsFrame k).mono (List.subset_append_right _ _)).vecKeeps []) hL rrb

/-- VSETCB changes descriptor fields, and none of the issue. -/
theorem cbDescFlds_ne (k w : Nat) : ∀ x ∈ cbDescFlds k w, x.1 ≠ COA_PC_PC ∧ x.1 ≠ COA_ISSUED_ISSUED := by
  intro x hx
  obtain ⟨l, hl, hx⟩ := List.mem_flatten.1 hx
  obtain ⟨g, -, rfl⟩ := List.mem_map.1 hl
  have hne : ∀ f ∈ [VEC_CBBASE_BASE, VEC_CBLEN_LEN, VEC_CBPTR_PTR], f ≠ COA_PC_PC ∧ f ≠ COA_ISSUED_ISSUED := by decide
  refine hne x.1 ?_
  simp only [List.mem_cons, List.not_mem_nil, or_false] at hx
  obtain rfl | rfl | rfl := hx <;> simp

/-- What VSETCB leaves. -/
theorem vsetcb_writes {k : Coach} {md : NumMode} {s : State} (h : VecReady k 0x44 md s) : ∃ t, exec (.vsetcb k) s = .next t ∧
    VecFrame k [] (cbDescFlds k (s.atPc k)) s t ∧
    ∀ g, g < 16 → (bitsOf (fieldOf (s.atPc k) 1 0 16) g 1 = 1 → ∀ f v, f ∈ fldTable → f.idx % 1024 ≠ VEC_BUSY_BUSY.idx % 1024 → (f, v) ∈ cbVals (s.atPc k) g →
        t.fld f k (8 * g + fieldOf (s.atPc k) 1 16 3) = v % 2 ^ f.w) ∧
      (bitsOf (fieldOf (s.atPc k) 1 0 16) g 1 ≠ 1 → ∀ f ∈ [VEC_CBBASE_BASE, VEC_CBLEN_LEN, VEC_CBPTR_PTR],
        t.fld f k (8 * g + fieldOf (s.atPc k) 1 16 3) = s.fld f k (8 * g + fieldOf (s.atPc k) 1 16 3)) := by
  have hk : k.val < 2048 := k.isLt.trans (by decide)
  obtain ⟨q, i, m, hq, -, hop, -, hstart⟩ := exec_vector_live (c := Instr.vsetcb) (fun _ _ => rfl) rfl h
  have hwork : q.vecWork k i (s.fld VEC_LOOP_RRB k) = q.setCbs k (s.atPc k) ((List.range 16).filter (fun g => bitsOf (fieldOf (s.atPc k) 1 0 16) g 1 == 1)) := by
    rw [← State.vsetcb_eq, ← hq.word]
    simp only [State.vecWork, hop]
  have hgs : ∀ g ∈ (List.range 16).filter (fun g => bitsOf (fieldOf (s.atPc k) 1 0 16) g 1 == 1), g < 16 :=
    fun g hg => List.mem_range.1 (List.mem_filter.1 hg).1
  rw [hwork] at hstart
  refine ⟨_, hstart, hq.fieldsFrame (OnlyFields.setCbs hk _ hgs q) (cbDescFlds_ne _ _) _, fun g hg => ⟨fun hm f v hf hb hv => ?_, fun hm f hf => ?_⟩⟩
  · exact (State.fld_vecStarted _ _ _ _ _ _ hb).trans (State.fld_setCbs hk _ hf hgs ((mem_maskGroups hg).2 hm) hv q)
  · have hcb : f ∈ fldTable ∧ f.idx % 1024 ≠ VEC_BUSY_BUSY.idx % 1024 ∧ f ≠ COA_PC_PC ∧ f ≠ COA_ISSUED_ISSUED ∧ f ≠ COA_SEQ_SEQ := by
      simp only [List.mem_cons, List.not_mem_nil, or_false] at hf
      obtain rfl | rfl | rfl := hf <;> decide +kernel
    obtain ⟨hf, hb, hn⟩ := hcb
    exact (State.fld_vecStarted _ _ _ _ _ _ hb).trans ((State.fld_setCbs_other hk _ hf hgs (fun h => hm ((mem_maskGroups hg).1 h)) q).trans (hq.fld hf hn hk _))

/-! ### VLSET and VROT (R247, R248) -/

/-- The loop's fields with their values. -/
def loopVals (l : LoopSt) : List (Fld × Nat) := [(VEC_LOOP_RRB, l.rrb), (VEC_LOOP_ON, b2n l.on), (VEC_LOOP_SM1, l.sm1), (VEC_TRIP_TRIP, l.trip), (VEC_TRIPN_N, l.n)]

/-- The loop's fields of a coach. -/
def loopFlds (k : Nat) : List (Fld × Nat × Nat) := [(VEC_LOOP_RRB, k, 0), (VEC_LOOP_ON, k, 0), (VEC_LOOP_SM1, k, 0), (VEC_TRIP_TRIP, k, 0), (VEC_TRIPN_N, k, 0)]

/-- A loop state that its fields hold. -/
def LoopSt.Fits (l : LoopSt) : Prop := l.rrb < 32 ∧ l.sm1 < 8 ∧ l.trip < 2 ^ 32 ∧ l.n < 2 ^ 32

/-- The loop state just written. -/
theorem State.loopSt_setFlds (s : State) (k : Nat) {l : LoopSt} (h : l.Fits) : (s.setFlds k 0 (loopVals l)).loopSt k = l := by
  obtain ⟨hrrb, hsm1, htrip, hn⟩ := h
  have hread : ∀ f v, (f, v) ∈ loopVals l → (s.setFlds k 0 (loopVals l)).fld f k = v % 2 ^ f.w := fun f v hv =>
    s.fld_setFlds_mem k 0 (by change [53, 54, 55, 56, 57].Nodup; decide) hv
  have hon : (s.setFlds k 0 (loopVals l)).flag VEC_LOOP_ON k = l.on := by
    rw [State.flag, hread VEC_LOOP_ON (b2n l.on) (by simp [loopVals])]
    exact (congrArg (· == 1) (Nat.mod_eq_of_lt (b2n_lt l.on))).trans (b2n_beq_one l.on)
  rw [State.loopSt, hon, hread VEC_LOOP_RRB l.rrb (by simp [loopVals]), hread VEC_LOOP_SM1 l.sm1 (by simp [loopVals]), hread VEC_TRIP_TRIP l.trip (by simp [loopVals]),
    hread VEC_TRIPN_N l.n (by simp [loopVals])]
  exact congr (congr (congr (congr (congrArg LoopSt.mk (Nat.mod_eq_of_lt hrrb)) rfl) (Nat.mod_eq_of_lt hsm1)) (Nat.mod_eq_of_lt htrip)) (Nat.mod_eq_of_lt hn)

/-- The loop state goes by its five fields. -/
theorem State.loopSt_of_fld {s t : State} {k : Nat} (h : ∀ x ∈ loopFlds k, t.fld x.1 k = s.fld x.1 k) : t.loopSt k = s.loopSt k := by
  simp only [loopFlds, List.forall_mem_cons] at h
  obtain ⟨hrrb, hon, hsm1, htrip, hn, -⟩ := h
  simp only [State.loopSt, State.flag, hrrb, hon, hsm1, htrip, hn]

/-- The loop's fields are of the table, and the issue and the start change none of them. -/
theorem loopFlds_mem {k : Nat} : ∀ x ∈ loopFlds k, x.1 ∈ fldTable ∧ x.1.idx % 1024 ≠ VEC_BUSY_BUSY.idx % 1024 ∧ x.1 ≠ COA_PC_PC ∧ x.1 ≠ COA_ISSUED_ISSUED ∧ x.1 ≠ COA_SEQ_SEQ := by
  simp only [loopFlds, List.forall_mem_cons]
  refine ⟨?_, ?_, ?_, ?_, ?_, fun _ h => absurd h List.not_mem_nil⟩ <;> decide +kernel

/-- The loop step of VLSET and of VROT stays within what the fields hold. -/
theorem loopStep_fits {l : LoopSt} (w : Nat) (h : opOf w = 0x68 ∨ l.Fits) : (opOf w = 0x68 ∨ opOf w = 0x69) → (loopStep l w).Fits := by
  intro hop
  unfold loopStep
  split
  · exact ⟨Nat.zero_lt_succ _, fieldOf_lt w 1 0 3, Nat.two_pow_pos 32, fieldOf_lt w 2 0 32⟩
  next h68 =>
    obtain ⟨hrrb, hsm1, htrip, hn⟩ := h.resolve_left (by simpa using h68)
    split
    · split
      · exact ⟨Nat.mod_lt _ (by decide), hsm1, Nat.mod_lt _ (by decide), hn⟩
      · exact ⟨hrrb, hsm1, htrip, hn⟩
    · exact ⟨hrrb, hsm1, htrip, hn⟩

/-- What VLSET and VROT leave. -/
theorem loop_steps {c : Coach → Instr} {op : Nat} {k : Coach} {md : NumMode} {s : State} (hexec : ∀ k s, exec (c k) s = .next (s.issueTo k op .vector))
    (hop : op = 0x68 ∨ op = 0x69) (h : VecReady k op md s) (hfit : op = 0x68 ∨ (s.loopSt k).Fits) : ∃ t, exec (c k) s = .next t ∧
      t.loopSt k = loopStep (s.loopSt k) (s.atPc k) ∧ VecFrame k [] (loopFlds k) s t := by
  have hk : k.val < 2048 := k.isLt.trans (by decide)
  have hu : unitOf op = some .vector := by obtain rfl | rfl := hop <;> rfl
  obtain ⟨q, i, m, hq, -, hopi, -, hstart⟩ := exec_vector_live hexec hu h
  have hloop : q.loopSt k = s.loopSt k := State.loopSt_of_fld (fun x hx => hq.fld (loopFlds_mem x hx).1 (loopFlds_mem x hx).2.2 hk 0)
  have hwork : q.vecWork k i (s.fld VEC_LOOP_RRB k) = q.setFlds k 0 (loopVals (loopStep (s.loopSt k) (s.atPc k))) := by
    rw [← hloop, ← hq.word]
    obtain rfl | rfl := hop <;> simp only [State.vecWork, hopi, loopVals]
  have hopw : opOf (s.atPc k) = op := by rw [← hq.word, hopi]
  have hfits : (loopStep (s.loopSt k) (s.atPc k)).Fits := loopStep_fits _ (by rwa [hopw]) (by rwa [hopw])
  rw [hwork] at hstart
  refine ⟨_, hstart, ?_, hq.fieldsFrame (OnlyFields.setFlds q hk ?_) (fun x hx => ⟨(loopFlds_mem x hx).2.2.1, (loopFlds_mem x hx).2.2.2.1⟩) _⟩
  · refine (State.loopSt_of_fld (fun x hx => ?_)).trans (q.loopSt_setFlds k hfits)
    exact State.fld_vecStarted _ _ _ _ _ _ (loopFlds_mem x hx).2.1
  · have hmem := loopFlds_mem (k := k.val)
    simp only [loopFlds, List.forall_mem_cons] at hmem
    obtain ⟨⟨hrrb, -⟩, ⟨hon, -⟩, ⟨hsm1, -⟩, ⟨htrip, -⟩, ⟨hn, -⟩, -⟩ := hmem
    simp only [loopVals, List.forall_mem_cons]
    exact ⟨⟨hrrb, by simp [loopFlds]⟩, ⟨hon, by simp [loopFlds]⟩, ⟨hsm1, by simp [loopFlds]⟩, ⟨htrip, by simp [loopFlds]⟩, ⟨hn, by simp [loopFlds]⟩,
      fun _ h => absurd h List.not_mem_nil⟩

/-! ### A stage that is not live (R249) -/

/-- A vector instruction's work is that of its start. -/
theorem State.startWork_vector (q : State) (k : Nat) {i : Inf} (hu : unitOf (opOf i.w) = some .vector) : q.startWork k i = q.startVector k i := by
  unfold State.startWork
  split
  case h_7 => rfl
  all_goals
    rename_i heq
    rw [heq] at hu
    cases hu

/-- An instruction that is not live issues in no operation, and closes none. -/
theorem State.unitIssued_dead {s : State} {k : Nat} (hl : s.liveAt k = false) (h2 : opOf (s.atPc k) ≠ 2) :
    s.unitIssued k = ((s.setCoach k { s.coach k with flight := (s.coach k).flight ++ [s.newInf k], nextId := (s.coach k).nextId + 1 }).counted k).setFld
      COA_PC_PC k 0 (s.fld COA_PC_PC k + 1) := by
  have hopened : s.opened k = s := by simp [State.opened, State.openFor, hl]
  have hturn : (s.entered k).setsTurnedIf k (opOf (s.atPc k)) = s.entered k := if_neg (by simpa using h2)
  rw [State.unitIssued, hturn, hl, Bool.and_false, State.entered, hopened]
  rfl

/-- A vector instruction that is not live completes at its start and leaves everything but COA_PC and the count of issued instructions. -/
theorem dead_passes {c : Coach → Instr} {op : Nat} {k : Coach} {s : State} (hrow : (c, op) ∈ vecRows) (hready : IssueReady k op s)
    (hf : (s.coach k).flight = []) (hdead : isLive (s.loopSt k) (s.atPc k) = false) : ∃ t, exec (c k) s = .next t ∧ PassedOn k s t ∧ (t.coach k).flight = [] ∧
      (t.coach k).ops = (s.coach k).ops ∧ OnlyCoach k [(COA_PC_PC, k.val, 0), (COA_ISSUED_ISSUED, k.val, 0)] s t := by
  have hk : k.val < 2048 := k.isLt.trans (by decide)
  obtain ⟨-, hop, -, hpc⟩ := id hready
  have hu : unitOf op = some .vector := (by decide : ∀ o ∈ vecRows.map (·.2), unitOf o = some .vector) op (List.mem_map_of_mem hrow)
  obtain ⟨u, hu', hexec⟩ := exec_unitRows (c, op) (List.mem_append_right _ hrow)
  obtain rfl : u = .vector := Option.some.inj (hu'.symm.trans hu)
  have hl : s.liveAt k = false := by simpa [State.liveAt, State.loopAhead, hf] using hdead
  have hne : ∀ n < 7, op ≠ n := fun n hn he => by
    rw [he] at hu
    interval_cases n <;> cases hu
  have hstart : s.issueTo k op .vector = (s.unitIssued k).updCoach k (fun c => { c with flight := c.flight.filter (fun j => j.id != (s.newInf k).id) }) := by
    refine (State.issueTo_alone hk hready hf hu (fun h => absurd h (hne 3 (by decide)))).trans (((s.unitIssued k).startWork_vector k (by rw [← hu, ← hop]; rfl)).trans ?_)
    exact if_pos (by rw [show (s.newInf k).live = s.liveAt k from rfl, hl]; rfl)
  have hcoach : (s.unitIssued k).coach k = { s.coach k with flight := [s.newInf k], nextId := (s.coach k).nextId + 1 } := by
    rw [State.unitIssued_dead hl (by rw [hop]; exact hne 2 (by decide)), State.coach_setFld, State.coach_counted, State.coach_setCoach_same, hf, List.nil_append]
  have hissued : OnlyCoach k [(COA_PC_PC, k.val, 0), (COA_ISSUED_ISSUED, k.val, 0)] s (s.unitIssued k) := by
    rw [State.unitIssued_dead hl (by rw [hop]; exact hne 2 (by decide))]
    exact ((OnlyCoach.setCoach s k _).trans ((OnlyFields.counted _ hk (by simp)).onlyCoach k)).trans (.setFld _ k _ (by decide +kernel) hk (by simp))
  refine ⟨_, (hexec k s).trans (congrArg _ hstart), passedOn_unitIssued hk hpc, ?_, ?_, hissued.trans (.updCoach _ k _)⟩
  · rw [State.coach_updCoach_same, hcoach]
    simp
  · rw [State.coach_updCoach_same, hcoach]

/-! ### VECTOR_COMPLETE (R220) -/

/-- VECTOR_COMPLETE of an instruction that may not overtake, or of none, leaves everything. -/
theorem exec_vectorComplete_stays {k : Coach} {n : Nat} {s : State}
    (h : ∀ i, (s.coach k).vectors[n]? = some i → mayOvertake i.w (((s.coach k).vectors.take n).map (·.w)) = false) : exec (.vectorComplete k n) s = .next s := by
  change execVectorComplete k n s = _
  unfold execVectorComplete
  split
  · rfl
  · split
    · rfl
    next i hi => rw [if_neg (by rw [h i hi]; exact Bool.false_ne_true)]; rfl

/-- What VECTOR_COMPLETE leaves. -/
theorem vector_completes {k : Coach} {n : Nat} {i : Inf} {s : State} (hstill : s.coachStill = false) (hi : (s.coach k).vectors[n]? = some i)
    (hmay : mayOvertake i.w (((s.coach k).vectors.take n).map (·.w)) = true) (hclose : ∀ o ∈ (s.coach k).ops, o.closed = true → o.closerId ≠ i.id) :
    ∃ t, exec (.vectorComplete k n) s = .next t ∧ (t.coach k).flight = (s.coach k).flight.filter (fun j => j.id != i.id) ∧
      (t.coach k).ops = (s.coach k).ops ∧ OnlyCoach k [(COA_PC_PC, k.val, 0), (COA_STATE_STATE, k.val, 0)] s t := by
  have hk : k.val < 2048 := k.isLt.trans (by decide)
  have hexec : exec (.vectorComplete k n) s = .next ((s.finishInf k i).settleEnd k) := by
    change execVectorComplete k n s = _
    rw [execVectorComplete, if_neg (by rw [hstill]; exact Bool.false_ne_true), hi]
    exact if_pos hmay
  have hcoach := State.coach_finishInf_plain hclose
  refine ⟨_, hexec, ?_, ?_, (OnlyCoach.updCoach s k _).trans (.settleEnd _ hk (by simp) (by simp))⟩
  · rw [State.flight_settleEnd, hcoach]
  · rw [State.coach_settleEnd, hcoach]

/-! ### The statement -/

/-- SMAC or SMSU, by its opcode. -/
theorem signal_writes (sub : Bool) {k : Coach} {md : NumMode} {s : State} (h : VecReady k (if sub then 0x61 else 0x60) md s) :
    ∃ t, exec (if sub then .smsu k else .smac k) s = .next t ∧ VecFrame k [] [(VEC_SIGSTAT_AOVF, k, 0)] { s with sacc := t.sacc } t ∧
      (∀ i, i < 512 → t.sigAcc k (fieldOf (s.atPc k) 1 22 3) i = ofSigned 56 (signalNew s k (s.atPc k) (s.fld VEC_LOOP_RRB k) sub i)) ∧
      (∀ g, g < 16 → (t.fld VEC_SIGSTAT_AOVF k).testBit g = ((s.fld VEC_SIGSTAT_AOVF k).testBit g ||
        (List.range 32).any (fun i => leaves56 (signalNew s k (s.atPc k) (s.fld VEC_LOOP_RRB k) sub (32 * g + i))))) ∧
      ∀ j a i, a < 8 → i < 512 → (j ≠ k.val ∨ a ≠ fieldOf (s.atPc k) 1 22 3) → t.sigAcc j a i = s.sigAcc j a i := by
  cases sub with
  | false => exact smac_writes (c := Instr.smac) (op := 0x60) false (fun _ _ => rfl) rfl (fun q k i rrb h => by simp only [State.vecWork, h]) h
  | true => exact smac_writes (c := Instr.smsu) (op := 0x61) true (fun _ _ => rfl) rfl (fun q k i rrb h => by simp only [State.vecWork, h]) h

/-- A bit of AOVF as the statement says it. -/
theorem bitsOf_of_overflow {x y g : Nat} {f : Nat → Int} (h : x.testBit g = (y.testBit g || (List.range 32).any (fun i => leaves56 (f i)))) :
    bitsOf x g 1 = if bitsOf y g 1 = 1 ∨ (∃ i, i < 32 ∧ (f i < -(2 ^ 55 : Int) ∨ (2 ^ 55 : Int) ≤ f i)) then 1 else 0 := by
  have hy : bitsOf y g 1 = 1 ↔ y.testBit g = true := by
    rw [bitsOf_one]
    split <;> simp_all
  have hany : (List.range 32).any (fun i => leaves56 (f i)) = true ↔ ∃ i, i < 32 ∧ (f i < -(2 ^ 55 : Int) ∨ (2 ^ 55 : Int) ≤ f i) := by
    simp only [List.any_eq_true, List.mem_range, leaves56, Bool.or_eq_true, decide_eq_true_eq]
    rfl
  rw [bitsOf_one, h]
  exact if_congr (by rw [Bool.or_eq_true, hy, hany]) rfl rfl

/-- VROT's step on a loop state, written out. -/
theorem loopStep_vrot {l : LoopSt} {w : Nat} (h : opOf w = 0x69) : loopStep l w = if l.on = true then
    { l with rrb := (l.rrb + 31) % 32, trip := (l.trip + 1) % 2 ^ 32, on := decide ((l.trip + 1) % 2 ^ 32 < l.n + l.sm1) } else l := by
  unfold loopStep
  rw [if_neg (by simp [h]), if_pos (by simp [h])]
  split
  · simp only [ge_iff_le, ← decide_not, not_le]
  · rfl

/-- The pointer that VSETCB sets in a buffer that is not empty and not longer than 2^20 fits its field. -/
theorem cbPtr_fits (p : Nat) {b len : Nat} (hne : len ≠ 0) (hle : len ≤ 2 ^ 20) :
    (if b == 1 || len == 0 then 0 else p % len) % 2 ^ VEC_CBPTR_PTR.w = if b = 1 then 0 else p % len := by
  have hlt : p % len < 2 ^ VEC_CBPTR_PTR.w := (Nat.mod_lt p (Nat.pos_of_ne_zero hne)).trans_le hle
  by_cases hb : b = 1
  · simp [hb]
  · simp only [hb, hne, beq_iff_eq, Bool.or_eq_true, or_self, if_false]
    exact Nat.mod_eq_of_lt hlt

/-- Settles O21: the sums by lane, the descriptors by group, the loop by its step, a dead stage as an issue that completes, and completion by what may overtake. -/
theorem signalModeAndLoops : Obligations.SignalModeAndLoops := by
  unfold Obligations.SignalModeAndLoops
  refine ⟨fun sub k md s h => ?_, fun k md s h => ?_, fun k md s h => ?_, fun k md s h hsm1 hn hrrb htrip => ?_,
    fun c op k s hrow hready hf hdead => dead_passes hrow hready hf hdead, fun k n s h => exec_vectorComplete_stays h,
    fun k n i s hstill hi hmay hclose => vector_completes hstill hi hmay hclose⟩
  · obtain ⟨t, hexec, hframe, hsums, hbits, hother⟩ := signal_writes sub h
    exact ⟨t, hexec, hframe, hsums, fun g hg => bitsOf_of_overflow (hbits g hg), hother⟩
  · obtain ⟨t, hexec, hframe, hgroups⟩ := vsetcb_writes h
    refine ⟨t, hexec, hframe, fun g hg => ?_⟩
    obtain ⟨hin, hout⟩ := hgroups g hg
    dsimp only
    split
    next hm =>
      refine ⟨?_, ?_, fun hne hle => ?_⟩
      · exact (hin hm VEC_CBLEN_LEN _ (by decide +kernel) (by decide) (by simp [cbVals])).trans (Nat.mod_eq_of_lt (fieldOf_lt _ _ _ _))
      · exact (hin hm VEC_CBBASE_BASE _ (by decide +kernel) (by decide) (by simp only [cbVals, beq_iff_eq]; exact List.mem_cons_self))
      · have hptr := hin hm VEC_CBPTR_PTR _ (by decide +kernel) (by decide) (List.mem_cons_of_mem _ (List.mem_cons_of_mem _ List.mem_cons_self))
        exact hptr.trans (cbPtr_fits _ hne hle)
    next hm => exact ⟨hout hm _ (by simp), hout hm _ (by simp), hout hm _ (by simp)⟩
  · have hop : opOf (s.atPc k) = 0x68 := h.1.2.1
    obtain ⟨t, hexec, hloop, hframe⟩ := loop_steps (c := Instr.vlset) (fun _ _ => rfl) (.inl rfl) h (.inl rfl)
    exact ⟨t, hexec, hloop.trans (by simp [loopStep, hop]), hframe⟩
  · have hop : opOf (s.atPc k) = 0x69 := h.1.2.1
    obtain ⟨t, hexec, hloop, hframe⟩ := loop_steps (c := Instr.vrot) (fun _ _ => rfl) (.inr rfl) h (.inr ⟨hrrb, hsm1, htrip, hn⟩)
    exact ⟨t, hexec, hloop.trans (loopStep_vrot hop), hframe⟩

end Sys2Proof.Machine
end

section
/-! SUPPORT. Runs of bytes written to the coach store one after another, and the lengths of planes and blocks (R72, R76, R134, R229). -/

namespace Sys2Proof.Machine

/-! ### Runs of bytes (R229) -/

/-- Runs of bytes written to the coach store one after another, each from its address. -/
def State.storeWrites (s : State) (k : Nat) (ws : List (Nat × List Nat)) : State := ws.foldl (fun t x => t.storeWrite k x.1 x.2) s

/-- Runs of bytes change the store alone. -/
theorem State.storeWrites_eq (s : State) (k : Nat) (ws : List (Nat × List Nat)) : s.storeWrites k ws = { s with store := (s.storeWrites k ws).store } := by
  induction ws generalizing s with
  | nil => rfl
  | cons x ws ih => exact ih (s.storeWrite k x.1 x.2)

/-- Runs of runs. -/
theorem State.storeWrites_flatten {α : Type} (s : State) (k : Nat) (f : α → List (Nat × List Nat)) (l : List α) :
    s.storeWrites k (l.map f).flatten = l.foldl (fun t x => t.storeWrites k (f x)) s := by
  rw [State.storeWrites, List.foldl_flatten, List.foldl_map]
  rfl

/-- The bytes after runs of bytes go by the bytes before. -/
theorem store_storeWrites_congr {s q : State} (h : q.store = s.store) (k : Nat) (ws : List (Nat × List Nat)) : (q.storeWrites k ws).store = (s.storeWrites k ws).store := by
  induction ws generalizing s q with
  | nil => exact h
  | cons w ws ih => exact ih (s := s.storeWrite k w.1 w.2) (q := q.storeWrite k w.1 w.2) (by rw [State.storeWrite, h, State.storeWrite])

/-- A byte outside every run stays. -/
theorem memByte_storeWrites {k x : Nat} {ws : List (Nat × List Nat)} (h : ∀ w ∈ ws, x < k * storeSize + w.1 ∨ k * storeSize + w.1 + w.2.length ≤ x) (s : State) :
    memByte (s.storeWrites k ws).store x = memByte s.store x := by
  induction ws generalizing s with
  | nil => rfl
  | cons w ws ih =>
    obtain ⟨hw, hws⟩ := List.forall_mem_cons.1 h
    exact (ih hws _).trans ((sameBytesBut_storeWrite s k w.1 w.2).1 x hw)

/-- A run that every other run lies apart from stands. -/
theorem storeRead_storeWrites {k : Nat} {w : Nat × List Nat} {ws : List (Nat × List Nat)} (hw : w ∈ ws)
    (h : ∀ v ∈ ws, v = w ∨ v.1 + v.2.length ≤ w.1 ∨ w.1 + w.2.length ≤ v.1) (s : State) :
    (s.storeWrites k ws).storeRead k w.1 w.2.length = w.2.map (· % 256) := by
  induction ws generalizing s with
  | nil => exact absurd hw List.not_mem_nil
  | cons v ws ih =>
    obtain ⟨-, hws⟩ := List.forall_mem_cons.1 h
    by_cases hmem : w ∈ ws
    · exact ih hmem hws _
    · obtain rfl : w = v := (List.mem_cons.1 hw).resolve_right hmem
      rw [← s.storeRead_storeWrite k w.1 w.2, State.storeRead, State.storeRead, memRead_eq, memRead_eq]
      refine List.map_congr_left (fun i hi => memByte_storeWrites (fun v hv => ?_) (s.storeWrite k w.1 w.2))
      have hi' := List.mem_range.1 hi
      rcases hws v hv with rfl | hap
      · exact absurd hv hmem
      · omega

/-- Bytes are read run by run. -/
theorem storeRead_runs (s : State) (k a n m : Nat) : s.storeRead k a (n * m) = ((List.range n).map (fun j => s.storeRead k (a + j * m) m)).flatten := by
  induction n with
  | zero => rw [Nat.zero_mul]; rfl
  | succ n ih =>
    rw [List.range_succ, List.map_append, List.flatten_append, ← ih, Nat.succ_mul]
    simp only [State.storeRead, memRead_eq, List.range_add, List.map_append, List.map_map, List.map_cons, List.map_nil, List.flatten_cons, List.flatten_nil,
      List.append_nil, Function.comp_def, Nat.add_assoc]

/-- As many bytes are read as asked for. -/
@[simp] theorem State.length_storeRead (s : State) (k a n : Nat) : (s.storeRead k a n).length = n := by simp [State.storeRead, memRead]

/-! ### Lengths (R72, R76, R134) -/

/-- A list of `n * m` elements is cut into `m` runs of `n`. -/
theorem length_chunksAux {α : Type} {n : Nat} (hn : 0 < n) {fuel m : Nat} {l : List α} (hl : l.length = n * m) (hm : m ≤ fuel) : (chunksAux n fuel l).length = m := by
  induction fuel generalizing m l with
  | zero => rw [Nat.le_zero.1 hm]; rfl
  | succ fuel ih =>
    rw [chunksAux]
    cases m with
    | zero => rw [List.length_eq_zero_iff.1 hl]; rfl
    | succ m =>
      have hne : l.isEmpty = false := by
        cases l with
        | nil => exact absurd hl (Nat.ne_of_lt (Nat.mul_pos hn m.succ_pos))
        | cons x l => rfl
      rw [hne, if_neg Bool.false_ne_true, List.length_cons, ih (m := m) (by rw [List.length_drop, hl, Nat.mul_succ]; omega) (by omega)]

/-- The bytes of 512 element codes. -/
theorem length_packElems (f : Fmt) {cs : List Nat} (h : cs.length = 512) : (packElems f.width cs).length = 64 * f.width := by
  have hbytes : ∀ n, ((cs.map (leBytes n)).flatten).length = 512 * n := fun n => by
    rw [List.length_flatten, List.map_map, List.map_congr_left (f := List.length ∘ leBytes n) (g := fun _ => n) (fun c _ => length_leBytes n c), List.map_const', List.sum_replicate, h, smul_eq_mul]
  cases f with
  | s4 =>
    change ((chunks 2 cs).map _).length = 256
    rw [List.length_map, chunks, length_chunksAux (by decide) (m := 256) h (by rw [h]; decide)]
  | s8a | s8b | i8 => exact hbytes 1
  | w16 | f16 => exact hbytes 2
  | x24 => exact hbytes 3
  | f32 => exact hbytes 4
  | f64 => exact hbytes 8

/-- A block has a code for each value. -/
theorem length_quantBlock (md : NumMode) (f : Fmt) (vs : List Val) : (quantBlock md f vs).codes.length = vs.length := by
  unfold quantBlock zeroBlock
  dsimp only
  split_ifs <;> simp

/-- A lane group has 32 elements. -/
theorem length_of_mem_groups16 {α : Type} {l g : List α} (h : l.length = 512) (hg : g ∈ groups16 l) : g.length = 32 := by
  obtain ⟨n, hn, rfl⟩ := List.mem_map.1 hg
  have hn' := List.mem_range.1 hn
  rw [List.length_take, List.length_drop, h]
  omega

/-- Codes of sixteen blocks, one for each element. -/
theorem length_blockCodes {α β : Type} {l : List α} (h : l.length = 512) {c : List α → List β} (hc : ∀ v, v.length = 32 → (c v).length = 32) :
    (((groups16 l).map c).flatten).length = 512 := by
  have hlen : ((groups16 l).map c).map List.length = List.replicate 16 32 := by
    rw [List.map_map]
    refine List.eq_replicate_iff.2 ⟨by simp, fun n hn => ?_⟩
    obtain ⟨v, hv, rfl⟩ := List.mem_map.1 hn
    exact hc v (length_of_mem_groups16 h hv)
  rw [List.length_flatten, hlen]
  rfl

/-- Each plane of a split block has a code for each value. -/
theorem length_splitBlock (vs : List Val) (z : Int) (hvs : vs.length = 32) (p : Nat) : ((splitBlock vs z).getD p (zeroBlock 32)).codes.length = 32 := by
  have hall : ∀ b ∈ splitBlock vs z, b.codes.length = 32 := by
    unfold splitBlock
    dsimp only
    intro b hb
    split at hb
    · rw [(List.mem_replicate.1 hb).2]; simp [hvs]
    split at hb
    · rw [(List.mem_replicate.1 hb).2]; simp [zeroBlock, hvs]
    split at hb
    · rw [(List.mem_replicate.1 hb).2]; simp [hvs]
    obtain ⟨i, -, rfl⟩ := List.mem_map.1 hb
    split_ifs <;> simp [zeroBlock, hvs]
  rw [List.getD_eq_getElem?_getD]
  cases hp : (splitBlock vs z)[p]? with
  | none => rfl
  | some b => exact hall b (List.mem_of_getElem? hp)

end Sys2Proof.Machine
end

section
/-! RESULTS. VQUANT and SDSPLIT write their planes (R236, R237; part of O20). -/

namespace Sys2Proof.Machine

/-- What an instruction that writes runs of bytes, counts and adds a tile leaves: its bytes, and nothing else but the counts. -/
theorem VecIssued.storeFrame {k : Coach} {md : NumMode} {s q t : State} {i : Inf} (h : VecIssued k md s q i) {ws : List (Nat × List Nat)}
    (ht : OpsFrame k (cntFlds k) (q.storeWrites k ws) t) (rrb : Nat) : (t.vecStarted k i rrb).store = (s.storeWrites k ws).store ∧
      VecFrame k [] [] { s with store := (t.vecStarted k i rrb).store } (t.vecStarted k i rrb) := by
  obtain ⟨-, hsacc, hstore, hfree⟩ := h.memories
  have hwritten : (t.vecStarted k i rrb).store = (q.storeWrites k ws).store := ht.1.store
  refine ⟨hwritten.trans (store_storeWrites_congr hstore k ws), ?_⟩
  have hkeeps := ht.vecKeeps []
  rw [State.storeWrites_eq] at hkeeps
  have hframe := h.memFrame (L := []) (st := (q.storeWrites k ws).store) (fi := q.freeIx) (sa := q.sacc) (by rw [List.append_nil]; exact hkeeps)
    (fun _ h => absurd h List.not_mem_nil) rrb
  rw [hwritten]
  rw [hsacc, hfree] at hframe
  exact hframe

/-! ### VQUANT (R236) -/

/-- The blocks that VQUANT writes. -/
def quantised (md : NumMode) (f : Fmt) (vs : List Val) : List QBlock := (groups16 vs).map (quantBlock md f)

/-- The two planes of VQUANT. -/
def quantPlanes (md : NumMode) (f : Fmt) (w : Nat) (vs : List Val) : List (Nat × List Nat) :=
  [(fieldOf w 2 0 23, packElems f.width (((quantised md f vs).map (·.codes)).flatten)), (fieldOf w 3 4 19 * 16, (quantised md f vs).map (·.scale))]

/-- VQUANT writes its planes, counts, and adds a tile. -/
theorem State.vquant_eq {q : State} {k : Nat} (hk : k < 2048) {i : Inf} {f : Fmt} {sc : Bool} (hfs : fselOf (iFmt i.w) = some ⟨f, sc⟩)
    (hfail : q.opFailed k i.opn = false) : OpsFrame k (cntFlds k)
      (q.storeWrites k (quantPlanes (q.modeOf k i.opn) f i.w (vals (q.modeOf k i.opn) (iP i.w) k (iVa i.w) q))) (q.vquant k i (q.fld VEC_LOOP_RRB k)) := by
  unfold State.vquant
  simp only [hfs, hfail]
  exact opsFrame_counts _ hk _ _ _ _ _

/-- What VQUANT leaves. -/
theorem vquant_writes {k : Coach} {md : NumMode} {s : State} {f : Fmt} {sc : Bool} {ea sa : Nat} (h : VecReady k 0x59 md s)
    (hfs : fselOf (iFmt (s.atPc k)) = some ⟨f, sc⟩) (hea : ea = fieldOf (s.atPc k) 2 0 23) (hsa : sa = fieldOf (s.atPc k) 3 4 19 * 16)
    (hapart : ea + 64 * f.width ≤ sa ∨ sa + 16 ≤ ea) : ∃ t, exec (.vquant k) s = .next t ∧ VecFrame k [] [] { s with store := t.store } t ∧
      t.storeRead k sa 16 = ((groups16 (vals md (iP (s.atPc k)) k (iVa (s.atPc k)) s)).map (fun b => (quantBlock md f b).scale % 256)) ∧
      t.storeRead k ea (64 * f.width) = (packElems f.width (((groups16 (vals md (iP (s.atPc k)) k (iVa (s.atPc k)) s)).map
        (fun b => (quantBlock md f b).codes)).flatten)).map (· % 256) ∧
      ∀ x, (x < k * storeSize + ea ∨ k * storeSize + ea + 64 * f.width ≤ x) → (x < k * storeSize + sa ∨ k * storeSize + sa + 16 ≤ x) →
        memByte t.store x = memByte s.store x := by
  have hk : k.val < 2048 := k.isLt.trans (by decide)
  obtain ⟨q, i, m, hq, hm, hop, hrrb, hstart⟩ := exec_vector_live (c := Instr.vquant) (fun _ _ => rfl) rfl h
  obtain rfl := hm rfl
  have hwork : q.vecWork k i (s.fld VEC_LOOP_RRB k) = q.vquant k i (q.fld VEC_LOOP_RRB k) := by rw [hrrb]; simp only [State.vecWork, hop]
  have hframe := q.vquant_eq hk (by rw [hq.word]; exact hfs) hq.failed
  rw [hq.mode, hq.word, vals_of_eq hq.memories.1 hrrb, ← hwork] at hframe
  obtain ⟨hstore, hvec⟩ := hq.storeFrame hframe (s.fld VEC_LOOP_RRB k)
  generalize hvs : vals m (iP (s.atPc k)) k (iVa (s.atPc k)) s = vs at hstore ⊢
  have hlen : vs.length = 512 := by rw [← hvs, length_vals]
  have hes : (packElems f.width (((quantised m f vs).map (·.codes)).flatten)).length = 64 * f.width := by
    rw [quantised, List.map_map]
    exact length_packElems f (length_blockCodes hlen (fun v hv => (length_quantBlock m f v).trans hv))
  have hss : ((quantised m f vs).map (·.scale)).length = 16 := by simp [quantised]
  have hplanes := planes_written (t := (q.vecWork k i (s.fld VEC_LOOP_RRB k)).vecStarted k i (s.fld VEC_LOOP_RRB k)) (s := s) (k := k) (a := ea) (b := sa)
    (es := packElems f.width (((quantised m f vs).map (·.codes)).flatten)) (sc := (quantised m f vs).map (·.scale))
    (by rw [hstore, hea, hsa]; rfl) (by rw [hes, hss]; exact hapart)
  rw [hes, hss] at hplanes
  obtain ⟨helems, hscales, hother⟩ := hplanes
  refine ⟨_, hstart, hvec, hscales.trans ?_, helems.trans ?_, hother⟩
  · rw [quantised, List.map_map, List.map_map]
    rfl
  · rw [quantised, List.map_map]
    rfl

/-! ### SDSPLIT (R237) -/

/-- The blocks of plane `p` of a split. -/
def splitPlane (w : Nat) (vs : List Val) (p : Nat) : List QBlock :=
  (groups16 vs).map (fun b => (splitBlock b (toSigned 11 (fieldOf w 1 16 11))).getD p (zeroBlock 32))

/-- The runs of bytes of plane `p`: its elements, then its scales. -/
def splitRuns (w : Nat) (vs : List Val) (p : Nat) : List (Nat × List Nat) :=
  [(fieldOf w 2 0 23 + p * 512, ((splitPlane w vs p).map (·.codes)).flatten), (fieldOf w 3 4 19 * 16 + p * 16, (splitPlane w vs p).map (·.scale))]

/-- The runs of bytes of the seven planes. -/
def splitWrites (w : Nat) (vs : List Val) : List (Nat × List Nat) := ((List.range 7).map (splitRuns w vs)).flatten

/-- SDSPLIT writes its planes, counts, and adds a tile. -/
theorem State.sdsplit_eq {q : State} {k : Nat} (hk : k < 2048) {i : Inf} (hfail : q.opFailed k i.opn = false) : OpsFrame k (cntFlds k)
    (q.storeWrites k (splitWrites i.w (vals (q.modeOf k i.opn) true k (iVa i.w) q))) (q.sdsplit k i (q.fld VEC_LOOP_RRB k)) := by
  rw [splitWrites, State.storeWrites_flatten]
  have hruns : ∀ (t : State) (vs : List Val) (p : Nat), t.storeWrites k (splitRuns i.w vs p) =
      (t.writeOut k false none (fieldOf i.w 2 0 23 + p * 512) (((splitPlane i.w vs p).map (·.codes)).flatten)).writeOut k false none
        (fieldOf i.w 3 4 19 * 16 + p * 16) ((splitPlane i.w vs p).map (·.scale)) := fun _ _ _ => rfl
  unfold State.sdsplit
  simp only [hruns, splitPlane, hfail, vals, kindFmt, if_true, List.map_map, Function.comp_def]
  exact opsFrame_counts _ hk _ _ _ _ _

/-- The lengths of a plane's runs. -/
theorem length_splitPlane (w : Nat) {vs : List Val} (h : vs.length = 512) (p : Nat) : (((splitPlane w vs p).map (·.codes)).flatten).length = 512 ∧
    ((splitPlane w vs p).map (·.scale)).length = 16 := by
  refine ⟨?_, by simp [splitPlane]⟩
  rw [splitPlane, List.map_map]
  exact length_blockCodes h (fun v hv => length_splitBlock v _ hv p)

/-- The runs of a split: the elements and the scales of a plane below 7. -/
theorem mem_splitWrites {w : Nat} {vs : List Val} {v : Nat × List Nat} : v ∈ splitWrites w vs ↔ ∃ p, p < 7 ∧
    (v = (fieldOf w 2 0 23 + p * 512, ((splitPlane w vs p).map (·.codes)).flatten) ∨ v = (fieldOf w 3 4 19 * 16 + p * 16, (splitPlane w vs p).map (·.scale))) := by
  simp [splitWrites, splitRuns]

/-- What SDSPLIT leaves. -/
theorem sdsplit_writes {k : Coach} {md : NumMode} {s : State} {ea sa : Nat} (h : VecReady k 0x5A md s) (hea : ea = fieldOf (s.atPc k) 2 0 23)
    (hsa : sa = fieldOf (s.atPc k) 3 4 19 * 16) (hapart : ea + 3584 ≤ sa ∨ sa + 112 ≤ ea) :
    ∃ t, exec (.sdsplit k) s = .next t ∧ VecFrame k [] [] { s with store := t.store } t ∧
      (∀ p, p < 7 → t.storeRead k (sa + p * 16) 16 = (splitPlane (s.atPc k) (vals md true k (iVa (s.atPc k)) s) p).map (fun b => b.scale % 256) ∧
        t.storeRead k (ea + p * 512) 512 = ((((splitPlane (s.atPc k) (vals md true k (iVa (s.atPc k)) s) p).map (·.codes)).flatten).map (· % 256))) ∧
      ∀ x, (x < k * storeSize + ea ∨ k * storeSize + ea + 3584 ≤ x) → (x < k * storeSize + sa ∨ k * storeSize + sa + 112 ≤ x) →
        memByte t.store x = memByte s.store x := by
  have hk : k.val < 2048 := k.isLt.trans (by decide)
  obtain ⟨q, i, m, hq, hm, hop, hrrb, hstart⟩ := exec_vector_live (c := Instr.sdsplit) (fun _ _ => rfl) rfl h
  obtain rfl := hm rfl
  have hwork : q.vecWork k i (s.fld VEC_LOOP_RRB k) = q.sdsplit k i (q.fld VEC_LOOP_RRB k) := by rw [hrrb]; simp only [State.vecWork, hop]
  have hframe := q.sdsplit_eq hk hq.failed
  rw [hq.mode, hq.word, vals_of_eq hq.memories.1 hrrb, ← hwork] at hframe
  obtain ⟨hstore, hvec⟩ := hq.storeFrame hframe (s.fld VEC_LOOP_RRB k)
  have hlen := length_vals m true k (iVa (s.atPc k)) s
  generalize vals m true k (iVa (s.atPc k)) s = vs at hstore hlen ⊢
  generalize (q.vecWork k i (s.fld VEC_LOOP_RRB k)).vecStarted k i (s.fld VEC_LOOP_RRB k) = t at hstart hstore hvec
  have hread : ∀ v ∈ splitWrites (s.atPc k) vs, t.storeRead k v.1 v.2.length = v.2.map (· % 256) := fun v hv => by
    rw [State.storeRead, hstore]
    refine storeRead_storeWrites hv (fun u hu => ?_) s
    obtain ⟨p, hp, hv⟩ := mem_splitWrites.1 hv
    obtain ⟨p', hp', hu⟩ := mem_splitWrites.1 hu
    obtain ⟨hc, hs⟩ := length_splitPlane (s.atPc k) hlen p
    obtain ⟨hc', hs'⟩ := length_splitPlane (s.atPc k) hlen p'
    by_cases he : p' = p
    · subst he
      rcases hv with rfl | rfl <;> rcases hu with rfl | rfl <;> simp only [hc, hs, true_or] <;> omega
    · rcases hv with rfl | rfl <;> rcases hu with rfl | rfl <;> simp only [hc, hs, hc', hs'] <;> omega
  refine ⟨t, hstart, hvec, fun p hp => ?_, fun x hx hy => ?_⟩
  · obtain ⟨hc, hs⟩ := length_splitPlane (s.atPc k) hlen p
    have hcodes := hread _ (mem_splitWrites.2 ⟨p, hp, .inl rfl⟩)
    have hscales := hread _ (mem_splitWrites.2 ⟨p, hp, .inr rfl⟩)
    dsimp only at hcodes hscales
    rw [hc, ← hea] at hcodes
    rw [hs, ← hsa, List.map_map] at hscales
    exact ⟨hscales, hcodes⟩
  · rw [hstore]
    refine memByte_storeWrites (fun v hv => ?_) s
    obtain ⟨p, hp, hv⟩ := mem_splitWrites.1 hv
    obtain ⟨hc, hs⟩ := length_splitPlane (s.atPc k) hlen p
    rcases hv with rfl | rfl
    · rw [hc]; omega
    · rw [hs]; omega

end Sys2Proof.Machine
end

section
/-! SUPPORT. The pointers that an access moves, and what a circular or direct access of a lane group goes by (R229, R232, R233). -/

namespace Sys2Proof.Machine

/-! ### What an access changes beside VD -/

/-- Nothing changes but the coach stores, the free values drawn and the register fields listed. -/
def StoreOnly (L : List (Fld × Nat × Nat)) (s t : State) : Prop := OnlyFields L { s with store := t.store, freeIx := t.freeIx } t

/-- Nothing changes. -/
theorem StoreOnly.refl (L : List (Fld × Nat × Nat)) (s : State) : StoreOnly L s s := OnlyFields.refl L s

/-- One step after another. -/
theorem StoreOnly.trans {L : List (Fld × Nat × Nat)} {s t u : State} (a : StoreOnly L s t) (b : StoreOnly L t u) : StoreOnly L s u := by
  obtain ⟨ha, hfa⟩ := a
  obtain ⟨hb, hfb⟩ := b
  refine ⟨hb.trans ?_, fun f hf v i hv hn => (hfb f hf v i hv hn).trans (hfa f hf v i hv hn)⟩
  rw [ha]

/-- Changes of fields alone. -/
theorem OnlyFields.storeOnly {L : List (Fld × Nat × Nat)} {s t : State} (a : OnlyFields L s t) : StoreOnly L s t := by
  obtain ⟨ht, hf⟩ := a
  refine ⟨?_, hf⟩
  rw [ht]

/-- Free values drawn. -/
theorem StoreOnly.draws (L : List (Fld × Nat × Nat)) (s : State) (w n : Nat) : StoreOnly L s (s.draws w n).2 := OnlyFields.refl L (s.draws w n).2

/-- Free bytes stored. -/
theorem StoreOnly.freeStore (L : List (Fld × Nat × Nat)) (s : State) (k a n : Nat) : StoreOnly L s (s.freeStore k a n) := OnlyFields.refl L (s.freeStore k a n)

/-- Runs of bytes stored. -/
theorem StoreOnly.storeWrites (L : List (Fld × Nat × Nat)) (s : State) (k : Nat) (ws : List (Nat × List Nat)) : StoreOnly L s (s.storeWrites k ws) := by
  rw [State.storeWrites_eq]
  exact OnlyFields.refl L _

/-- Steps over a list. -/
theorem StoreOnly.foldl {α : Type} {L : List (Fld × Nat × Nat)} {g : State → α → State} {l : List α} (h : ∀ t, ∀ x ∈ l, StoreOnly L t (g t x)) (s : State) :
    StoreOnly L s (l.foldl g s) := by
  induction l generalizing s with
  | nil => exact .refl L s
  | cons x l ih =>
    obtain ⟨hx, hl⟩ := List.forall_mem_cons.1 (fun y hy => fun t => h t y hy)
    exact (hx s).trans (ih (fun t y hy => hl y hy t) _)

/-! ### Pointers (R232) -/

/-- The pointers that a VLD or VST moves. -/
def ptrFlds (k w : Nat) : List (Fld × Nat × Nat) := if fieldOf w 3 0 1 = 1 then cbFlds k w else []

/-- Where the pointer of group `g` goes. -/
def State.ptrNext (s : State) (k w g : Nat) : Nat :=
  if fieldOf w 3 0 1 = 1 then (((s.fld VEC_CBPTR_PTR k (8 * g + fieldOf w 3 1 3) : Int) + toSigned 24 (fieldOf w 3 8 24)) %
    (s.fld VEC_CBLEN_LEN k (8 * g + fieldOf w 3 1 3) : Int)).toNat
  else s.fld VEC_CBPTR_PTR k (8 * g + fieldOf w 3 1 3)

/-- The pointer of a group is among those that its access moves. -/
theorem mem_ptrFlds (k : Nat) {w g : Nat} (hc : fieldOf w 3 0 1 = 1) (hg : g < 16) : (VEC_CBPTR_PTR, k, 8 * g + fieldOf w 3 1 3) ∈ ptrFlds k w := by
  rw [ptrFlds, if_pos hc]
  exact List.mem_map.2 ⟨g, List.mem_range.2 hg, rfl⟩

/-- Only pointers are moved. -/
theorem ptrFlds_ptr {k w : Nat} : ∀ x ∈ ptrFlds k w, x.1 = VEC_CBPTR_PTR := by
  intro x hx
  unfold ptrFlds at hx
  split at hx
  · obtain ⟨g, -, rfl⟩ := List.mem_map.1 hx
    rfl
  · exact absurd hx List.not_mem_nil

/-- An access moves its group's pointer alone. -/
theorem StoreOnly.moveCb (s : State) {k : Nat} (hk : k < 2048) (w : Nat) {g : Nat} (hg : g < 16) (good : Bool) : StoreOnly (ptrFlds k w) s (s.moveCb k w g good) := by
  unfold State.moveCb
  by_cases hc : fieldOf w 3 0 1 = 1
  · rw [if_pos (beq_iff_eq.2 hc)]
    have hset : ∀ (t : State) (v : Nat), OnlyFields (ptrFlds k w) t (t.setFld VEC_CBPTR_PTR k (8 * g + fieldOf w 3 1 3) v) :=
      fun t v => .setFld t v (by decide +kernel) hk (mem_ptrFlds k hc hg)
    cases good with
    | true => exact (hset s _).storeOnly
    | false => exact StoreOnly.trans (OnlyFields.refl _ (s.draw 20).2) (hset _ _).storeOnly
  · rw [if_neg (by simpa using hc)]
    exact .refl _ s

/-- Moving a pointer stores nothing. -/
theorem State.store_moveCb (s : State) (k w g : Nat) (good : Bool) : (s.moveCb k w g good).store = s.store := by
  unfold State.moveCb
  cases good <;> split <;> rfl

/-- A defined access moves its pointer by INC modulo the length, or none. -/
theorem State.moveCb_good (s : State) (k w g : Nat) : s.moveCb k w g true =
    if fieldOf w 3 0 1 = 1 then s.setFld VEC_CBPTR_PTR k (8 * g + fieldOf w 3 1 3) (s.ptrNext k w g) else s := by
  unfold State.moveCb State.ptrNext
  by_cases hc : fieldOf w 3 0 1 = 1
  · rw [if_pos (beq_iff_eq.2 hc), if_pos hc, if_pos hc]
    rfl
  · rw [if_neg (by simpa using hc), if_neg hc]

/-- The pointers of the first `n` groups have moved. -/
def State.ptrsMoved (s : State) (k w n : Nat) : State := (List.range n).foldl (fun t g => t.moveCb k w g true) s

/-- One more pointer. -/
theorem State.ptrsMoved_succ (s : State) (k w n : Nat) : s.ptrsMoved k w (n + 1) = (s.ptrsMoved k w n).moveCb k w n true := by
  rw [State.ptrsMoved, List.range_succ, List.foldl_append]
  rfl

/-- Pointers moved are fields moved. -/
theorem OnlyFields.ptrsMoved (s : State) {k : Nat} (hk : k < 2048) (w : Nat) {n : Nat} (hn : n ≤ 16) : OnlyFields (ptrFlds k w) s (s.ptrsMoved k w n) := by
  induction n with
  | zero => exact .refl _ s
  | succ n ih =>
    rw [State.ptrsMoved_succ, State.moveCb_good]
    refine (ih (Nat.le_of_succ_le hn)).trans ?_
    split
    next hc => exact .setFld _ _ (by decide +kernel) hk (mem_ptrFlds k hc hn)
    · exact .refl _ _

/-- The pointers of groups that have not moved yet. -/
theorem State.fld_ptrsMoved_later (s : State) {k : Nat} (hk : k < 2048) (w : Nat) {n g : Nat} (h : n ≤ g) :
    (s.ptrsMoved k w n).fld VEC_CBPTR_PTR k (8 * g + fieldOf w 3 1 3) = s.fld VEC_CBPTR_PTR k (8 * g + fieldOf w 3 1 3) := by
  induction n with
  | zero => rfl
  | succ n ih =>
    rw [State.ptrsMoved_succ, State.moveCb_good]
    refine Eq.trans ?_ (ih (Nat.le_of_succ_le h))
    split
    · exact State.fld_setFld_unit _ hk hk (by rw [Ne, Prod.mk.injEq]; omega)
    · rfl

/-- What a group's access goes by is the same: the bytes of the store and the group's descriptor. -/
structure SameAccess (k w g : Nat) (s t : State) : Prop where
  store : t.store = s.store
  base : t.fld VEC_CBBASE_BASE k (8 * g + fieldOf w 3 1 3) = s.fld VEC_CBBASE_BASE k (8 * g + fieldOf w 3 1 3)
  len : t.fld VEC_CBLEN_LEN k (8 * g + fieldOf w 3 1 3) = s.fld VEC_CBLEN_LEN k (8 * g + fieldOf w 3 1 3)
  ptr : t.fld VEC_CBPTR_PTR k (8 * g + fieldOf w 3 1 3) = s.fld VEC_CBPTR_PTR k (8 * g + fieldOf w 3 1 3)

/-- The pointers of earlier groups do not matter to a group's access. -/
theorem State.sameAccess_ptrsMoved (s : State) {k : Nat} (hk : k < 2048) (w : Nat) {n g : Nat} (hn : n ≤ 16) (h : n ≤ g) :
    SameAccess k w g s (s.ptrsMoved k w n) := by
  obtain ⟨ht, hf⟩ := OnlyFields.ptrsMoved s hk w hn
  refine ⟨by rw [ht], hf _ (by decide +kernel) k _ hk (fun hm => ?_), hf _ (by decide +kernel) k _ hk (fun hm => ?_), s.fld_ptrsMoved_later hk w h⟩
  · exact absurd (ptrFlds_ptr _ hm) (by decide : VEC_CBBASE_BASE ≠ VEC_CBPTR_PTR)
  · exact absurd (ptrFlds_ptr _ hm) (by decide : VEC_CBLEN_LEN ≠ VEC_CBPTR_PTR)

namespace SameAccess
variable {k w g : Nat} {s t : State} (h : SameAccess k w g s t)
include h

/-- The group's descriptor. -/
theorem cbuf : t.cbuf k g (fieldOf w 3 1 3) = s.cbuf k g (fieldOf w 3 1 3) := by rw [State.cbuf, h.base, h.len, h.ptr, State.cbuf]

/-- Whether the access is defined. -/
theorem groupOk (wb : Nat) : t.groupOk k w g wb = s.groupOk k w g wb := by rw [State.groupOk, h.cbuf, State.groupOk]

/-- The elements' addresses. -/
theorem elemAddrs (wb : Nat) : t.elemAddrs k w g wb = s.elemAddrs k w g wb := by rw [State.elemAddrs, h.cbuf, State.elemAddrs]

/-- Where the pointer goes. -/
theorem ptrNext : t.ptrNext k w g = s.ptrNext k w g := by rw [State.ptrNext, h.len, h.ptr, State.ptrNext]

/-- The codes of a defined access, which draws nothing. -/
theorem groupCodes {f : Fmt} (hok : s.groupOk k w g (f.width / 8) = true) : t.groupCodes k w g f = ((s.groupCodes k w g f).1, t) := by
  have hread : ∀ a n, t.storeRead k a n = s.storeRead k a n := fun a n => by rw [State.storeRead, h.store, State.storeRead]
  unfold State.groupCodes
  simp only [h.groupOk, hok, h.elemAddrs, hread, if_true]
  split <;> rfl

/-- The codes that a VLD leaves for the group. -/
theorem loadedGroup {f : Fmt} (hok : s.groupOk k w g (f.width / 8) = true) (md : NumMode) (sc : Bool) :
    loadedGroup md k t w f sc g = loadedGroup md k s w f sc g := by
  have hread : ∀ a n, t.storeRead k a n = s.storeRead k a n := fun a n => by rw [State.storeRead, h.store, State.storeRead]
  simp only [Machine.loadedGroup, h.groupCodes hok, hread]

end SameAccess

/-- A defined circular access keeps its pointer below the length. -/
theorem State.ptrNext_lt {s : State} {k w g wb : Nat} (hc : fieldOf w 3 0 1 = 1) (h : s.groupOk k w g wb = true) : s.ptrNext k w g < 2 ^ 20 := by
  have hok : cbufOk (s.cbuf k g (fieldOf w 3 1 3)) wb (toSigned 24 (fieldOf w 3 8 24)) = true := by simpa [State.groupOk, hc] using h
  simp only [cbufOk, State.cbuf, Bool.and_eq_true, bne_iff_ne, ne_eq] at hok
  obtain ⟨⟨⟨⟨⟨⟨⟨hwb, -⟩, hmin⟩, hmax⟩, -⟩, -⟩, -⟩, -⟩ := hok
  have hpos : (0 : Int) < (s.fld VEC_CBLEN_LEN k (8 * g + fieldOf w 3 1 3) : Int) := by
    have hlen := of_decide_eq_true hmin
    omega
  have hlen := of_decide_eq_true hmax
  rw [State.ptrNext, if_pos hc]
  have hlt := Int.emod_lt_of_pos ((s.fld VEC_CBPTR_PTR k (8 * g + fieldOf w 3 1 3) : Int) + toSigned 24 (fieldOf w 3 8 24)) hpos
  have hnn := Int.emod_nonneg ((s.fld VEC_CBPTR_PTR k (8 * g + fieldOf w 3 1 3) : Int) + toSigned 24 (fieldOf w 3 8 24)) hpos.ne'
  omega

/-- The pointers of defined accesses once they have moved. -/
theorem State.fld_ptrsMoved {s : State} {k w wb : Nat} (hk : k < 2048) {n : Nat} (hn : n ≤ 16) (hok : ∀ g, g < n → s.groupOk k w g wb = true) :
    ∀ g, g < n → (s.ptrsMoved k w n).fld VEC_CBPTR_PTR k (8 * g + fieldOf w 3 1 3) = s.ptrNext k w g := by
  induction n with
  | zero => exact fun g hg => absurd hg (Nat.not_lt_zero g)
  | succ n ih =>
    intro g hg
    rw [State.ptrsMoved_succ, State.moveCb_good, (s.sameAccess_ptrsMoved hk w (Nat.le_of_succ_le hn) le_rfl).ptrNext]
    by_cases he : g = n
    · subst he
      split
      next hc => exact (State.fld_setFld_same _ _ _ _ _).trans (Nat.mod_eq_of_lt (State.ptrNext_lt hc (hok g hg)))
      next hc => exact (s.fld_ptrsMoved_later hk w le_rfl).trans (if_neg hc).symm
    · have hearlier := ih (Nat.le_of_succ_le hn) (fun g hg => hok g (Nat.lt_succ_of_lt hg)) g (by omega)
      split
      · exact (State.fld_setFld_unit _ hk hk (by rw [Ne, Prod.mk.injEq]; omega)).trans hearlier
      · exact hearlier

end Sys2Proof.Machine
end

section
/-! RESULTS. What an access leaves, and VLD moves lanes from the coach store into VD (R229, R230, R232; part of O20). -/

namespace Sys2Proof.Machine

/-! ### What an access leaves -/

/-- What stays when an instruction has moved pointers, stored bytes and drawn free values, and then changed its registers and its counts. -/
theorem VecIssued.accessFrame {k : Coach} {md : NumMode} {s q u t : State} {i : Inf} {regs : List Nat} {w : Nat} (h : VecIssued k md s q i)
    (hu : StoreOnly (ptrFlds k w) q u) (ht : VecKeeps k regs (cntFlds k) u t) (rrb : Nat) :
    (t.vecStarted k i rrb).store = u.store ∧ (t.vecStarted k i rrb).freeIx = u.freeIx ∧
      (∀ x, (t.vecStarted k i rrb).fld VEC_CBPTR_PTR k x = u.fld VEC_CBPTR_PTR k x) ∧
      VecFrame k regs (ptrFlds k w) { s with store := u.store, freeIx := u.freeIx } (t.vecStarted k i rrb) := by
  have hk : k.val < 2048 := k.isLt.trans (by decide)
  obtain ⟨-, hsacc, -, -⟩ := h.memories
  obtain ⟨⟨⟨htu, htf, -⟩, -⟩, -⟩ := id ht
  have hmem : t.store = u.store ∧ t.freeIx = u.freeIx := by
    rw [htu]
    exact ⟨rfl, rfl⟩
  have hkeeps : VecKeeps k regs (cntFlds k ++ ptrFlds k w) { q with store := u.store, freeIx := u.freeIx } t := by
    refine VecKeeps.trans (((hu.opsFrame k).mono (List.subset_append_right _ _)).vecKeeps regs) ?_
    exact ⟨ht.1.mono (List.subset_append_left _ _), ht.2⟩
  have hframe := h.memFrame (st := u.store) (fi := u.freeIx) (sa := q.sacc) hkeeps (fun x hx => by rw [ptrFlds_ptr x hx]; decide) rrb
  rw [hsacc] at hframe
  refine ⟨hmem.1, hmem.2, fun x => (State.fld_vecStarted _ _ _ _ _ _ (by decide)).trans (htf _ (by decide +kernel) k x hk (fun hm => ?_)), hframe⟩
  simp only [cntFlds, satFlds, flushFlds, nanFlds, List.cons_append, List.nil_append, List.mem_cons, List.not_mem_nil, or_false, Prod.mk.injEq] at hm
  have hne : VEC_CBPTR_PTR ∉ [NUMSTAT_SATURATED, NUM_SATTOT_SATTOT, NUMSTAT_FLUSHED, NUM_FLUSHTOT_FLUSHTOT, NUMSTAT_NANBLOCK, NUM_NANBLKTOT_NANBLKTOT, NUMSTAT_NANINF] := by
    decide
  exact hne (by simp only [List.mem_cons, List.not_mem_nil, or_false]; tauto)

/-- What a group's access goes by is the same before and after the issue. -/
theorem VecIssued.sameAccess {k : Nat} (hk : k < 2048) {md : NumMode} {s q : State} {i : Inf} (h : VecIssued k md s q i) (w g : Nat) : SameAccess k w g s q :=
  ⟨h.memories.2.2.1, h.fld (by decide +kernel) (by decide) hk _, h.fld (by decide +kernel) (by decide) hk _, h.fld (by decide +kernel) (by decide) hk _⟩

/-- The pointers of defined accesses, as the statement says them. -/
theorem pointersMoved_of {k w wb : Nat} (hk : k < 2048) {s q t : State} (hq : ∀ g, SameAccess k w g s q) (hok : ∀ g, g < 16 → s.groupOk k w g wb = true)
    (ht : ∀ x, t.fld VEC_CBPTR_PTR k x = (q.ptrsMoved k w 16).fld VEC_CBPTR_PTR k x) : PointersMoved k w s t := by
  intro g hg
  rw [ht, State.fld_ptrsMoved (wb := wb) hk le_rfl (fun g hg => by rw [(hq g).groupOk, hok g hg]) g hg, (hq g).ptrNext]
  rfl

/-! ### VLD (R229, R230, R232) -/

/-- The addresses of a group's elements. -/
@[simp] theorem State.length_elemAddrs (s : State) (k w g wb : Nat) : (s.elemAddrs k w g wb).length = 32 := by
  unfold State.elemAddrs
  split <;> simp

/-- A group reads 32 codes. -/
theorem State.length_groupCodes (s : State) (k w g : Nat) (f : Fmt) : (s.groupCodes k w g f).1.length = 32 := by
  unfold State.groupCodes
  dsimp only
  split
  · simp [unpackElems, List.length_flatten, List.map_map, Function.comp_def]
  split
  · simp
  · simp [State.draws]

/-- A block has a value for each code. -/
@[simp] theorem length_readBlock (md : NumMode) (f : Fmt) (scale : Option Nat) (cs : List Nat) : (readBlock md f scale cs).1.length = cs.length := by
  cases scale with
  | none => simp [readBlock]
  | some sc =>
    rw [readBlock]
    split <;> simp

/-- A VLD leaves 32 codes for a group. -/
theorem length_loadedGroup (md : NumMode) (k : Nat) (s : State) (w : Nat) (f : Fmt) (sc : Bool) (g : Nat) : (loadedGroup md k s w f sc g).length = 32 := by
  unfold loadedGroup
  dsimp only
  split
  · rw [List.length_map, State.length_groupCodes]
  split
  · exact State.length_groupCodes ..
  · rw [List.length_map, length_readBlock, State.length_groupCodes]

/-- The codes of a group as VLD forms them, and the free values drawn. -/
theorem State.vldGroup_eq (s : State) (k : Nat) (i : Inf) (f : Fmt) (sc : Bool) (g : Nat) :
    (s.vldGroup k i f sc g).1.1 = loadedGroup (s.modeOf k i.opn) k s i.w f sc g ∧ (s.vldGroup k i f sc g).2 = (s.groupCodes k i.w g f).2 := by
  unfold State.vldGroup loadedGroup
  simp only [beq_iff_eq]
  split_ifs <;> simp [laneCode, Function.comp_def]

/-- One group of a VLD: its codes, and its pointer moved. -/
def vldStep (k : Nat) (i : Inf) (f : Fmt) (sc : Bool) (acc : List (List Nat × List Val × List Conv × Nat) × State) (g : Nat) :
    List (List Nat × List Val × List Conv × Nat) × State :=
  (acc.1 ++ [(acc.2.vldGroup k i f sc g).1], (acc.2.vldGroup k i f sc g).2.moveCb k i.w g (acc.2.groupOk k i.w g (f.width / 8)))

/-- The first `n` groups of a VLD. -/
def State.vldRun (s : State) (k : Nat) (i : Inf) (f : Fmt) (sc : Bool) (n : Nat) : List (List Nat × List Val × List Conv × Nat) × State :=
  (List.range n).foldl (vldStep k i f sc) ([], s)

/-- One more group. -/
theorem State.vldRun_succ (s : State) (k : Nat) (i : Inf) (f : Fmt) (sc : Bool) (n : Nat) : s.vldRun k i f sc (n + 1) = vldStep k i f sc (s.vldRun k i f sc n) n := by
  rw [State.vldRun, List.range_succ, List.foldl_append]
  rfl

/-- The codes of a VLD's groups so far. -/
def vldCodes (r : List (List Nat × List Val × List Conv × Nat)) : List Nat := (r.map (·.1)).flatten

/-- Reading a group stores nothing and changes no field. -/
theorem State.groupCodes_leaves (L : List (Fld × Nat × Nat)) (s : State) (k w g : Nat) (f : Fmt) :
    StoreOnly L s (s.groupCodes k w g f).2 ∧ (s.groupCodes k w g f).2.store = s.store := by
  unfold State.groupCodes
  dsimp only
  split
  · exact ⟨.refl L s, rfl⟩
  split
  · exact ⟨.refl L s, rfl⟩
  · exact ⟨.draws L s _ _, rfl⟩

/-- What the groups of a VLD leave. -/
theorem State.vldRun_leaves (s : State) {k : Nat} (hk : k < 2048) (i : Inf) (f : Fmt) (sc : Bool) {n : Nat} (hn : n ≤ 16) :
    StoreOnly (ptrFlds k i.w) s (s.vldRun k i f sc n).2 ∧ (s.vldRun k i f sc n).2.store = s.store ∧ (vldCodes (s.vldRun k i f sc n).1).length = 32 * n := by
  induction n with
  | zero => exact ⟨.refl _ s, rfl, rfl⟩
  | succ n ih =>
    obtain ⟨hkeeps, hstore, hlen⟩ := ih (Nat.le_of_succ_le hn)
    rw [State.vldRun_succ]
    generalize s.vldRun k i f sc n = r at hkeeps hstore hlen
    obtain ⟨hcodes, hdrawn⟩ := r.2.vldGroup_eq k i f sc n
    obtain ⟨hread, hsame⟩ := r.2.groupCodes_leaves (ptrFlds k i.w) k i.w n f
    refine ⟨?_, ?_, ?_⟩
    · exact (hkeeps.trans (by rw [hdrawn]; exact hread)).trans (.moveCb _ hk i.w hn _)
    · exact (State.store_moveCb _ _ _ _ _).trans ((by rw [hdrawn, hsame] : _ = r.2.store).trans hstore)
    · simp only [vldStep, vldCodes, List.map_append, List.flatten_append, List.length_append, List.map_cons, List.map_nil, List.flatten_cons, List.flatten_nil,
        List.append_nil, hcodes, length_loadedGroup]
      rw [← vldCodes, hlen]
      omega

/-- The mode that an instruction works under does not go by pointers. -/
theorem State.modeOf_ptrsMoved (s : State) {k : Nat} (hk : k < 2048) (w : Nat) {n : Nat} (hn : n ≤ 16) (seq : Option Nat) :
    (s.ptrsMoved k w n).modeOf k seq = s.modeOf k seq := by
  obtain ⟨ht, hf⟩ := OnlyFields.ptrsMoved s hk w hn
  have hctl : ∀ f ∈ numctlFlds, (s.ptrsMoved k w n).fld f k = s.fld f k := fun f hm => by
    have hne : ∀ f ∈ numctlFlds, f ≠ VEC_CBPTR_PTR := by decide
    have htab : ∀ f ∈ numctlFlds, f ∈ fldTable := by decide +kernel
    exact hf f (htab f hm) k 0 hk (fun hx => hne f hm (ptrFlds_ptr _ hx))
  simp only [numctlFlds, List.forall_mem_cons] at hctl
  obtain ⟨hdnz, hfore, hsat, htrap, -⟩ := hctl
  have hmode : (s.ptrsMoved k w n).numMode k = s.numMode k := by simp only [State.numMode, State.flag, hdnz, hfore, hsat, htrap]
  have hcoach : (s.ptrsMoved k w n).coach k = s.coach k := by
    rw [ht]
    rfl
  unfold State.modeOf
  rw [hcoach, hmode]

/-- The groups of a VLD whose accesses are all defined: each group's codes, and its pointer moved. -/
theorem State.vldRun_good {s : State} {k : Nat} (hk : k < 2048) {i : Inf} {f : Fmt} {sc : Bool} (hok : ∀ g, g < 16 → s.groupOk k i.w g (f.width / 8) = true) {n : Nat}
    (hn : n ≤ 16) : (s.vldRun k i f sc n).2 = s.ptrsMoved k i.w n ∧
      vldCodes (s.vldRun k i f sc n).1 = ((List.range n).map (loadedGroup (s.modeOf k i.opn) k s i.w f sc)).flatten := by
  induction n with
  | zero => exact ⟨rfl, rfl⟩
  | succ n ih =>
    obtain ⟨hmoved, hcodes⟩ := ih (Nat.le_of_succ_le hn)
    have hsame := s.sameAccess_ptrsMoved hk i.w (Nat.le_of_succ_le hn) le_rfl
    obtain ⟨hgroup, hdrawn⟩ := (s.ptrsMoved k i.w n).vldGroup_eq k i f sc n
    rw [hsame.groupCodes (hok n hn)] at hdrawn
    rw [s.modeOf_ptrsMoved hk _ (Nat.le_of_succ_le hn), hsame.loadedGroup (hok n hn)] at hgroup
    rw [State.vldRun_succ]
    refine ⟨?_, ?_⟩
    · rw [vldStep, hmoved, hdrawn, hsame.groupOk, hok n hn, State.ptrsMoved_succ]
    · rw [List.range_succ, List.map_append, List.flatten_append, ← hcodes]
      simp only [vldStep, vldCodes, hmoved, List.map_append, List.flatten_append, List.map_cons, List.map_nil, hgroup]

/-- What VLD does in every form: pointers moved, values drawn, codes written to VD, counts. -/
theorem State.vld_eq (q : State) {k : Nat} (hk : k < 2048) (i : Inf) (rrb : Nat) : ∃ u cs, StoreOnly (ptrFlds k i.w) q u ∧ u.store = q.store ∧ cs.length = 512 ∧
    OpsFrame k (cntFlds k) (u.putCodes k rrb (iVd i.w) (iP i.w) cs) (q.vld k i rrb) ∧
    ∀ f sc, fselOf (iFmt i.w) = some ⟨f, sc⟩ → (∀ g, g < 16 → q.groupOk k i.w g (f.width / 8) = true) →
      u = q.ptrsMoved k i.w 16 ∧ cs = ((List.range 16).map (loadedGroup (q.modeOf k i.opn) k q i.w f sc)).flatten := by
  cases hfs : fselOf (iFmt i.w) with
  | none =>
    set t := (List.range 16).foldl (fun t g => t.moveCb k i.w g false) q with ht
    have hmoved : StoreOnly (ptrFlds k i.w) q t := StoreOnly.foldl (fun t g hg => .moveCb t hk i.w (List.mem_range.1 hg) false) q
    have hstore : t.store = q.store := List.foldlRecOn (motive := fun t => t.store = q.store) _ _ rfl (fun t ht g _ => (State.store_moveCb t k i.w g false).trans ht)
    refine ⟨(t.draws (kindFmt (iP i.w)).width 512).2, (t.draws (kindFmt (iP i.w)).width 512).1, hmoved.trans (.draws _ t _ _), hstore, by simp [State.draws], ?_,
      fun f sc h => by simp at h⟩
    have hvld : q.vld k i rrb = (t.draws (kindFmt (iP i.w)).width 512).2.putCodes k rrb (iVd i.w) (iP i.w) (t.draws (kindFmt (iP i.w)).width 512).1 := by
      unfold State.vld
      simp only [hfs]
      rfl
    rw [hvld]
    exact .refl k _ _
  | some x =>
    obtain ⟨f, sc⟩ := x
    obtain ⟨hkeeps, hstore, hlen⟩ := q.vldRun_leaves hk i f sc le_rfl
    refine ⟨_, vldCodes (q.vldRun k i f sc 16).1, hkeeps, hstore, hlen, ?_, fun f' sc' he hok => ?_⟩
    · unfold State.vld
      simp only [hfs]
      exact opsFrame_counts _ hk _ _ _ _ _
    · obtain ⟨rfl, rfl⟩ : f = f' ∧ sc = sc' := by simpa using he
      exact State.vldRun_good hk hok le_rfl

/-- What VLD leaves. -/
theorem vld_loads {k : Coach} {md : NumMode} {s : State} (h : VecReady k 0x40 md s) : ∃ t, exec (.vld k) s = .next t ∧
    VecFrame k (physRegs (s.fld VEC_LOOP_RRB k) (iVd (s.atPc k)) (iP (s.atPc k))) (ptrFlds k (s.atPc k)) { s with freeIx := t.freeIx } t ∧
    ∀ f sc, fselOf (iFmt (s.atPc k)) = some ⟨f, sc⟩ → (∀ g, g < 16 → s.groupOk k (s.atPc k) g (f.width / 8) = true) →
      t.kindCodes k (s.fld VEC_LOOP_RRB k) (iVd (s.atPc k)) (iP (s.atPc k)) =
        ((List.range 16).map (loadedGroup md k s (s.atPc k) f sc)).flatten.map (· % 2 ^ (kindFmt (iP (s.atPc k))).width) ∧
      PointersMoved k (s.atPc k) s t ∧ t.freeIx = s.freeIx := by
  have hk : k.val < 2048 := k.isLt.trans (by decide)
  obtain ⟨q, i, m, hq, hm, hop, -, hstart⟩ := exec_vector_live (c := Instr.vld) (fun _ _ => rfl) rfl h
  obtain rfl := hm rfl
  obtain ⟨-, -, hqstore, hqfree⟩ := hq.memories
  have hwork : q.vecWork k i (s.fld VEC_LOOP_RRB k) = q.vld k i (s.fld VEC_LOOP_RRB k) := by simp only [State.vecWork, hop]
  obtain ⟨u, cs, hu, hustore, hlen, hcnt, hgood⟩ := q.vld_eq hk i (s.fld VEC_LOOP_RRB k)
  rw [hq.word, ← hwork] at hcnt
  rw [hq.word] at hu hgood
  obtain ⟨-, hfree, hptr, hframe⟩ := hq.accessFrame hu ((VecKeeps.putCodes u k _ (iVd_lt _) _ hlen).trans (hcnt.vecKeeps _)) (s.fld VEC_LOOP_RRB k)
  rw [hustore, hqstore, ← hfree] at hframe
  refine ⟨_, hstart, hframe, fun f sc hfs hok => ?_⟩
  have hqok : ∀ g, g < 16 → q.groupOk k (s.atPc k) g (f.width / 8) = true := fun g hg => by rw [(hq.sameAccess hk (s.atPc k) g).groupOk, hok g hg]
  obtain ⟨hmoved, hcs⟩ := hgood f sc hfs hqok
  refine ⟨?_, pointersMoved_of hk (fun g => hq.sameAccess hk _ g) hok (fun x => by rw [hptr, hmoved]), ?_⟩
  · rw [State.kindCodes_vecStarted, State.kindCodes_of_vreg hcnt.vreg, State.kindCodes_putCodes _ _ _ (iVd_lt _) _ hlen, hcs, hq.mode]
    refine congrArg (fun l => (List.flatten l).map (· % 2 ^ (kindFmt (iP (s.atPc k))).width)) (List.map_congr_left (fun g hg => ?_))
    exact (hq.sameAccess hk (s.atPc k) g).loadedGroup (hok g (List.mem_range.1 hg)) m sc
  · rw [hfree, hmoved, (OnlyFields.ptrsMoved q hk _ le_rfl).1]
    exact hqfree

end Sys2Proof.Machine
end

section
/-! RESULTS. VST writes its codes at the addresses of its layout (R231, R232; O20), and O20 put together. -/

namespace Sys2Proof.Machine

/-! ### The codes that VST stores (R231) -/

/-- The elements that VST stores, from the codes of its lanes. -/
def vstConvs (md : NumMode) (f : Fmt) (pair : Bool) (raw : List Nat) : List Conv :=
  let same := f == kindFmt pair
  let rd := if same || f == .x24 then (raw.map (decodeVal (if same then f else .x24)), 0) else readVals md (kindFmt pair) raw
  if same then raw.map (fun c => { code := c })
  else if f == .x24 then raw.map (fun c => { code := c % 2 ^ 24 })
  else rd.1.map (convertVal md false f)

/-- Their codes are those the statement names. -/
theorem codes_vstConvs (md : NumMode) (k : Nat) (s : State) (w : Nat) (f : Fmt) :
    (vstConvs md f (iP w) (s.kindCodes k (s.fld VEC_LOOP_RRB k) (iVa w) (iP w))).map (·.code) = storedCodes md k s w f := by
  unfold vstConvs storedCodes vals
  by_cases hsame : f = kindFmt (iP w)
  · simp [hsame, Function.comp_def]
  by_cases hx : f = .x24
  · rw [if_neg (by simpa using hsame), if_pos (by simpa using hx), if_neg hsame, if_pos hx, List.map_map]
    rfl
  · simp [hsame, hx, Function.comp_def]

/-- A code for each lane. -/
theorem length_storedCodes (md : NumMode) (k : Nat) (s : State) (w : Nat) (f : Fmt) : (storedCodes md k s w f).length = 512 := by
  unfold storedCodes
  dsimp only
  split
  · exact State.length_kindCodes ..
  split
  · rw [List.length_map, State.length_kindCodes]
  · rw [List.length_map, length_vals]

/-! ### The runs of bytes of VST -/

/-- The runs of bytes of a group of VST, one for each element. -/
def State.groupWrites (s : State) (k w wb : Nat) (codes : List Nat) (g : Nat) : List (Nat × List Nat) :=
  (List.zip (s.elemAddrs k w g wb) ((codes.drop (32 * g)).take 32)).map (fun x => (x.1, leBytes wb x.2))

/-- The runs of bytes of the first `n` groups of VST. -/
def State.vstWrites (s : State) (k w wb : Nat) (codes : List Nat) (n : Nat) : List (Nat × List Nat) := ((List.range n).map (s.groupWrites k w wb codes)).flatten

/-- Elements are written as runs of bytes. -/
theorem State.putElems_eq (s : State) (k wb : Nat) (addrs codes : List Nat) :
    s.putElems k wb addrs codes = s.storeWrites k ((List.zip addrs codes).map (fun x => (x.1, leBytes wb x.2))) := by
  rw [State.storeWrites, List.foldl_map]
  rfl

/-- A run of VST stands at an address of its layout and has the bytes of one element. -/
theorem mem_vstWrites {s : State} {k w wb n : Nat} {codes : List Nat} {v : Nat × List Nat} (hv : v ∈ s.vstWrites k w wb codes n) :
    ∃ g, g < n ∧ v.1 ∈ s.elemAddrs k w g wb ∧ v.2.length = wb := by
  obtain ⟨l, hl, hv⟩ := List.mem_flatten.1 hv
  obtain ⟨g, hg, rfl⟩ := List.mem_map.1 hl
  obtain ⟨x, hx, rfl⟩ := List.mem_map.1 hv
  exact ⟨g, List.mem_range.1 hg, (List.of_mem_zip hx).1, length_leBytes wb x.2⟩

/-- Blocks of a range are the range. -/
theorem flatten_map_range {α : Type} (F : Nat → α) (m n : Nat) :
    ((List.range n).map (fun g => (List.range m).map (fun i => F (m * g + i)))).flatten = (List.range (m * n)).map F := by
  induction n with
  | zero => rfl
  | succ n ih =>
    rw [List.range_succ, List.map_append, List.flatten_append, ih, Nat.mul_succ, List.range_add, List.map_append, List.map_map]
    simp [Function.comp_def]

/-- A list by index. -/
theorem eq_map_range_getD {l : List Nat} {n : Nat} (hl : l.length = n) : l = (List.range n).map (fun i => l.getD i 0) :=
  List.ext_getElem (by simp [hl]) (fun i hi _ => by rw [List.getElem_map, List.getElem_range, List.getD_eq_getElem _ _ hi])

/-- Without CIRC and GSTRIDE the elements stand back to back. -/
theorem State.vstWrites_direct {s : State} {k w wb : Nat} (hc : fieldOf w 3 0 1 = 0) (hg : fieldOf w 2 24 8 = 0) {codes : List Nat} (hl : codes.length = 512) :
    s.vstWrites k w wb codes 16 = (List.range 512).map (fun j => (fieldOf w 2 0 23 + j * wb, leBytes wb (codes.getD j 0))) := by
  refine Eq.trans (congrArg List.flatten (List.map_congr_left (fun g hg' => ?_)))
    (flatten_map_range (fun j => (fieldOf w 2 0 23 + j * wb, leBytes wb (codes.getD j 0))) 32 16)
  have haddr : s.elemAddrs k w g wb = (List.range 32).map (fun i => fieldOf w 2 0 23 + (32 * g + i) * wb) := by
    unfold State.elemAddrs
    rw [hc, hg]
    refine List.map_congr_left (fun i _ => ?_)
    rw [if_pos (by rfl), Nat.mul_comm g 32, Nat.add_mul, Nat.add_assoc]
  rw [State.groupWrites, haddr, eq_map_range_getD hl, take_drop_map_range _ (List.mem_range.1 hg'), List.zip_map', List.map_map, ← eq_map_range_getD hl]
  rfl

/-- An unscaled selector does not name S4 (Table 4.4). -/
theorem fselOf_ne_s4 {sel : Nat} : fselOf sel ≠ some ⟨.s4, false⟩ := by
  unfold fselOf
  dsimp only
  cases hf : fmtOfCode (bitsOf sel 0 4) with
  | none => simp
  | some f => cases f <;> simp

/-- Elements back to back are read as their codes' bytes. -/
theorem storeRead_vstWrites_direct {s : State} {k w : Nat} (hc : fieldOf w 3 0 1 = 0) (hg : fieldOf w 2 24 8 = 0) {codes : List Nat} (hl : codes.length = 512) {f : Fmt}
    (hf : f ≠ .s4) : (s.storeWrites k (s.vstWrites k w (f.width / 8) codes 16)).storeRead k (fieldOf w 2 0 23) (64 * f.width) = packElems f.width codes := by
  have hwidth : 64 * f.width = 512 * (f.width / 8) ∧ (f.width == 4) = false := by
    cases f with
    | s4 => exact absurd rfl hf
    | _ => exact ⟨rfl, rfl⟩
  obtain ⟨hbytes, hne⟩ := hwidth
  rw [packElems, hne, if_neg Bool.false_ne_true, State.vstWrites_direct hc hg hl, hbytes, storeRead_runs]
  generalize f.width / 8 = wb
  generalize fieldOf w 2 0 23 = a
  have hruns : codes.map (leBytes wb) = (List.range 512).map (fun j => leBytes wb (codes.getD j 0)) := by
    conv_lhs => rw [eq_map_range_getD hl, List.map_map]
    rfl
  rw [hruns]
  refine congrArg List.flatten (List.map_congr_left (fun j hj => ?_))
  have hrun := storeRead_storeWrites (k := k) (w := (a + j * wb, leBytes wb (codes.getD j 0))) (ws := (List.range 512).map (fun j => (a + j * wb, leBytes wb (codes.getD j 0))))
    (List.mem_map.2 ⟨j, hj, rfl⟩) (fun v hv => ?_) s
  · rw [length_leBytes, map_mod_eq (fun b hb => leBytes_lt hb)] at hrun
    exact hrun
  · obtain ⟨j', -, rfl⟩ := List.mem_map.1 hv
    rw [length_leBytes, length_leBytes]
    rcases Nat.lt_trichotomy j' j with hlt | rfl | hlt
    · have hmul := Nat.mul_le_mul_right wb hlt
      rw [Nat.succ_mul] at hmul
      exact .inr (.inl (by omega))
    · exact .inl rfl
    · have hmul := Nat.mul_le_mul_right wb hlt
      rw [Nat.succ_mul] at hmul
      exact .inr (.inr (by omega))

/-! ### VST (R231, R232) -/

/-- One group of a VST: its elements written, and its pointer moved. -/
def vstStep (k w : Nat) (f : Fmt) (codes : List Nat) (t : State) (g : Nat) : State :=
  let good := t.groupOk k w g (f.width / 8)
  let d := if good then ((codes.drop (32 * g)).take 32, t) else t.draws f.width 32
  let addrs := if good then d.2.elemAddrs k w g (f.width / 8)
    else (List.range 32).map (fun j => ((d.2.cbuf k g (fieldOf w 3 1 3)).1 + j * (f.width / 8)) % (storeSize - 8))
  (d.2.putElems k (f.width / 8) addrs d.1).moveCb k w g good

/-- A group whose access is defined. -/
theorem vstStep_good {t : State} {k w g : Nat} {f : Fmt} (codes : List Nat) (h : t.groupOk k w g (f.width / 8) = true) :
    vstStep k w f codes t g = (t.storeWrites k (t.groupWrites k w (f.width / 8) codes g)).moveCb k w g true := by
  rw [vstStep, h, State.groupWrites, ← State.putElems_eq]
  rfl

/-- A group changes the store and its pointer, and may draw free values. -/
theorem storeOnly_vstStep (t : State) {k : Nat} (hk : k < 2048) (w : Nat) (f : Fmt) (codes : List Nat) {g : Nat} (hg : g < 16) :
    StoreOnly (ptrFlds k w) t (vstStep k w f codes t g) := by
  cases hok : t.groupOk k w g (f.width / 8) with
  | true =>
    rw [vstStep_good codes hok]
    exact (StoreOnly.storeWrites _ t k _).trans (.moveCb _ hk w hg _)
  | false =>
    simp only [vstStep, hok, State.putElems_eq]
    exact ((StoreOnly.draws _ t _ _).trans (.storeWrites _ _ k _)).trans (.moveCb _ hk w hg _)

/-- The state with another coach store. -/
def State.withStore (s : State) (m : List Host.Cell) : State := { s with store := m }

/-- Whether an access is defined does not go by the store. -/
theorem State.groupOk_withStore (s : State) (m : List Host.Cell) (k w g wb : Nat) : (s.withStore m).groupOk k w g wb = s.groupOk k w g wb := rfl

/-- The runs of a group do not go by the store. -/
theorem State.groupWrites_withStore (s : State) (m : List Host.Cell) (k w wb : Nat) (codes : List Nat) (g : Nat) :
    (s.withStore m).groupWrites k w wb codes g = s.groupWrites k w wb codes g := rfl

/-- A pointer moves whatever the store holds. -/
theorem State.moveCb_withStore (s : State) (m : List Host.Cell) (k w g : Nat) : (s.withStore m).moveCb k w g true = (s.moveCb k w g true).withStore m := by
  rw [State.moveCb_good, State.moveCb_good]
  split <;> rfl

/-- Runs of bytes after others. -/
theorem State.storeWrites_withStore (s t : State) (k : Nat) (ws vs : List (Nat × List Nat)) :
    (t.withStore (s.storeWrites k ws).store).storeWrites k vs = t.withStore (s.storeWrites k (ws ++ vs)).store := by
  rw [show s.storeWrites k (ws ++ vs) = (s.storeWrites k ws).storeWrites k vs from List.foldl_append]
  exact (State.storeWrites_eq _ k vs).trans (congrArg t.withStore (store_storeWrites_congr (s := s.storeWrites k ws) (q := t.withStore (s.storeWrites k ws).store) rfl k vs))

/-- The runs of a group go by its descriptor alone. -/
theorem SameAccess.groupWrites {k w g : Nat} {s t : State} (h : SameAccess k w g s t) (wb : Nat) (codes : List Nat) :
    t.groupWrites k w wb codes g = s.groupWrites k w wb codes g := by rw [State.groupWrites, h.elemAddrs, State.groupWrites]

/-- The runs of one more group. -/
theorem State.vstWrites_succ (s : State) (k w wb : Nat) (codes : List Nat) (n : Nat) :
    s.vstWrites k w wb codes (n + 1) = s.vstWrites k w wb codes n ++ s.groupWrites k w wb codes n := by
  rw [State.vstWrites, List.range_succ, List.map_append, List.flatten_append, ← State.vstWrites]
  simp

/-- What the groups of a VST leave whose accesses are all defined: the pointers moved and the runs of bytes. -/
theorem foldl_vstStep_good {s : State} {k : Nat} (hk : k < 2048) {w : Nat} {f : Fmt} (codes : List Nat)
    (hok : ∀ g, g < 16 → s.groupOk k w g (f.width / 8) = true) {n : Nat} (hn : n ≤ 16) : (List.range n).foldl (vstStep k w f codes) s =
      (s.ptrsMoved k w n).withStore (s.storeWrites k (s.vstWrites k w (f.width / 8) codes n)).store := by
  induction n with
  | zero => rfl
  | succ n ih =>
    have hsame := s.sameAccess_ptrsMoved hk w (Nat.le_of_succ_le hn) le_rfl
    rw [List.range_succ, List.foldl_append, ih (Nat.le_of_succ_le hn), List.foldl_cons, List.foldl_nil,
      vstStep_good codes (by rw [State.groupOk_withStore, hsame.groupOk, hok n hn]), State.groupWrites_withStore, hsame.groupWrites, State.storeWrites_withStore,
      ← State.vstWrites_succ, State.moveCb_withStore, State.ptrsMoved_succ]

/-- What VST does in every form that is not failed: pointers moved, values drawn, bytes stored, counts. -/
theorem State.vst_eq (q : State) {k : Nat} (hk : k < 2048) (i : Inf) (hfail : q.opFailed k i.opn = false) : ∃ u, StoreOnly (ptrFlds k i.w) q u ∧
    OpsFrame k (cntFlds k) u (q.vst k i (q.fld VEC_LOOP_RRB k)) ∧
    ∀ f, fselOf (iFmt i.w) = some ⟨f, false⟩ → (∀ g, g < 16 → q.groupOk k i.w g (f.width / 8) = true) →
      u = (q.ptrsMoved k i.w 16).withStore
        (q.storeWrites k (q.vstWrites k i.w (f.width / 8) (storedCodes (q.modeOf k i.opn) k q i.w f) 16)).store := by
  cases hfs : fselOf (iFmt i.w) with
  | none =>
    refine ⟨q.vst k i (q.fld VEC_LOOP_RRB k), ?_, .refl k _ _, fun f h => by simp at h⟩
    unfold State.vst
    simp only [hfs, hfail]
    exact StoreOnly.foldl (fun t g hg => (StoreOnly.freeStore _ t k _ _).trans (.moveCb _ hk i.w (List.mem_range.1 hg) false)) q
  | some x =>
    obtain ⟨f, sc⟩ := x
    refine ⟨(List.range 16).foldl (vstStep k i.w f (storedCodes (q.modeOf k i.opn) k q i.w f)) q,
      StoreOnly.foldl (fun t g hg => storeOnly_vstStep t hk i.w f _ (List.mem_range.1 hg)) q, ?_, fun f' he hok => ?_⟩
    · rw [← codes_vstConvs]
      unfold State.vst
      simp only [hfs, hfail]
      exact opsFrame_counts _ hk _ _ _ _ _
    · obtain ⟨rfl, -⟩ : f = f' ∧ sc = false := by simpa using he
      exact foldl_vstStep_good hk _ hok le_rfl

/-- The codes that VST stores go by the registers and the base. -/
theorem storedCodes_of_eq {s q : State} {k : Nat} (hv : q.vreg = s.vreg) (hr : q.fld VEC_LOOP_RRB k = s.fld VEC_LOOP_RRB k) (md : NumMode) (w : Nat) (f : Fmt) :
    storedCodes md k q w f = storedCodes md k s w f := by rw [storedCodes, vals_of_eq hv hr, State.kindCodes_of_vreg hv, hr, storedCodes]

/-- The runs of bytes of VST go by the descriptors alone. -/
theorem vstWrites_of_same {s q : State} {k w : Nat} (h : ∀ g, SameAccess k w g s q) (wb : Nat) (codes : List Nat) (n : Nat) :
    q.vstWrites k w wb codes n = s.vstWrites k w wb codes n := by
  rw [State.vstWrites, List.map_congr_left (fun g _ => (h g).groupWrites wb codes), State.vstWrites]

/-- What VST leaves. -/
theorem vst_stores {k : Coach} {md : NumMode} {s : State} (h : VecReady k 0x41 md s) : ∃ t, exec (.vst k) s = .next t ∧
    VecFrame k [] (ptrFlds k (s.atPc k)) { s with freeIx := t.freeIx, store := t.store } t ∧
    ∀ f, fselOf (iFmt (s.atPc k)) = some ⟨f, false⟩ → (∀ g, g < 16 → s.groupOk k (s.atPc k) g (f.width / 8) = true) →
      PointersMoved k (s.atPc k) s t ∧ t.freeIx = s.freeIx ∧
      (∀ x, (∀ g a, g < 16 → a ∈ s.elemAddrs k (s.atPc k) g (f.width / 8) → x < k * storeSize + a ∨ k * storeSize + a + f.width / 8 ≤ x) →
        memByte t.store x = memByte s.store x) ∧
      (fieldOf (s.atPc k) 3 0 1 = 0 → fieldOf (s.atPc k) 2 24 8 = 0 →
        t.storeRead k (fieldOf (s.atPc k) 2 0 23) (64 * f.width) = packElems f.width (storedCodes md k s (s.atPc k) f)) := by
  have hk : k.val < 2048 := k.isLt.trans (by decide)
  obtain ⟨q, i, m, hq, hm, hop, hrrb, hstart⟩ := exec_vector_live (c := Instr.vst) (fun _ _ => rfl) rfl h
  obtain rfl := hm rfl
  obtain ⟨hqreg, -, hqstore, hqfree⟩ := hq.memories
  have hqsame := hq.sameAccess hk (s.atPc k)
  have hwork : q.vecWork k i (s.fld VEC_LOOP_RRB k) = q.vst k i (q.fld VEC_LOOP_RRB k) := by rw [hrrb]; simp only [State.vecWork, hop]
  obtain ⟨u, hu, hcnt, hgood⟩ := q.vst_eq hk i hq.failed
  rw [← hwork] at hcnt
  rw [hq.word] at hu hgood
  obtain ⟨hstore, hfree, hptr, hframe⟩ := hq.accessFrame hu (hcnt.vecKeeps []) (s.fld VEC_LOOP_RRB k)
  rw [← hstore, ← hfree] at hframe
  refine ⟨_, hstart, hframe, fun f hfs hok => ?_⟩
  have hmoved := hgood f hfs (fun g hg => by rw [(hqsame g).groupOk, hok g hg])
  rw [hq.mode, storedCodes_of_eq hqreg hrrb, vstWrites_of_same hqsame, store_storeWrites_congr hqstore] at hmoved
  have hfinal := hstore.trans (congrArg State.store hmoved)
  refine ⟨pointersMoved_of hk hqsame hok (fun x => ?_), ?_, fun x hx => ?_, fun hc hg => ?_⟩
  · rw [hptr, hmoved]
    rfl
  · rw [hfree, hmoved, (OnlyFields.ptrsMoved q hk _ le_rfl).1]
    exact hqfree
  · rw [hfinal]
    refine memByte_storeWrites (fun v hv => ?_) s
    obtain ⟨g, hg, ha, hlen⟩ := mem_vstWrites hv
    rw [hlen]
    exact hx g _ hg ha
  · have hf : f ≠ .s4 := fun he => fselOf_ne_s4 (he ▸ hfs)
    rw [State.storeRead, hfinal]
    exact storeRead_vstWrites_direct hc hg (length_storedCodes m k s _ f) hf

/-- Settles O20. VLD and VST by their groups, each an access at the addresses of its layout that moves its own pointer; VQUANT and SDSPLIT by their planes. -/
theorem vectorLoadsAndStores : Obligations.VectorLoadsAndStores :=
  ⟨fun _ _ _ h => vld_loads h, fun _ _ _ h => vst_stores h, fun _ _ _ _ _ _ _ h hfs hea hsa hap => vquant_writes h hfs hea hsa hap,
    fun _ _ _ _ _ h hea hsa hap => sdsplit_writes h hea hsa hap⟩

end Sys2Proof.Machine
end

section
/-! SUPPORT. Streams: their bookkeeping beside register writes and reports, and how a stream settles once no request of it is outstanding (R252 to R270). -/

namespace Sys2Proof.Machine

/-! ### Reports and the bookkeeping beside the registers -/

/-- A change of a stream's bookkeeping leaves the register fields alone. -/
@[simp] theorem State.fld_updStrm (s : State) (k n : Nat) (g : Strm → Strm) (f : Fld) (u i : Nat) : (s.updStrm k n g).fld f u i = s.fld f u i := rfl

/-- A report leaves the register fields alone. -/
@[simp] theorem State.fld_report (s : State) (r : Report) (f : Fld) (u i : Nat) : (s.report r).fld f u i = s.fld f u i := rfl

/-- A register write leaves the streams' bookkeeping alone. -/
@[simp] theorem State.strm_setFld (s : State) (f : Fld) (u i v k n : Nat) : (s.setFld f u i v).strm k n = s.strm k n := rfl

/-- Several register writes leave the coaches alone. -/
@[simp] theorem State.coach_setFlds (s : State) (u i : Nat) (l : List (Fld × Nat)) (k : Nat) : (s.setFlds u i l).coach k = s.coach k := by
  induction l generalizing s with
  | nil => rfl
  | cons x l ih => exact ih _

/-- The bookkeeping of the stream just changed. -/
@[simp] theorem State.strm_updStrm_same (s : State) (k n : Nat) (g : Strm → Strm) : (s.updStrm k n g).strm k n = g (s.strm k n) :=
  (s.strm_updStrm k n n g).trans (if_pos rfl)

/-- The requests of a coach stay when a stream's bookkeeping changes. -/
@[simp] theorem State.reqs_updStrm (s : State) (k n : Nat) (g : Strm → Strm) : ((s.updStrm k n g).coach k).reqs = (s.coach k).reqs := by
  rw [State.updStrm, State.coach_updCoach_same]

/-- A change of a stream's bookkeeping changes its coach alone. -/
theorem OnlyCoach.updStrm {L : List (Fld × Nat × Nat)} (s : State) (k n : Nat) (g : Strm → Strm) : OnlyCoach k L s (s.updStrm k n g) := .updCoach s k _

/-- The context bound to a coach stands in two fields. -/
theorem State.boundCtx_of_fld {s t : State} {k : Nat} (hb : t.fld COA_ROLE_BOUND k = s.fld COA_ROLE_BOUND k)
    (hc : t.fld COA_ROLE_CONTEXT k = s.fld COA_ROLE_CONTEXT k) : t.boundCtx k = s.boundCtx k := by
  rw [State.boundCtx, State.flag, hb, hc, State.boundCtx, State.flag]

/-- The context bound to a coach stays where other fields are written. -/
theorem State.boundCtx_setFlds (s : State) {l : List (Fld × Nat)} (k u i : Nat) (hb : COA_ROLE_BOUND.idx % 1024 ∉ l.map (·.1.idx % 1024))
    (hc : COA_ROLE_CONTEXT.idx % 1024 ∉ l.map (·.1.idx % 1024)) : (s.setFlds u i l).boundCtx k = s.boundCtx k :=
  State.boundCtx_of_fld (s.fld_setFlds_idx k 0 u i hb) (s.fld_setFlds_idx k 0 u i hc)

/-- One more report waits. -/
def State.withReport (s : State) (r : Report) : State := { s with reports := s.reports ++ [r] }

/-- What a stream reports (R253, R268). -/
theorem State.exists_reportStream (s : State) (k n code va : Nat) : ∃ r : Report, s.reportStream k n code va = s.withReport r ∧
    r.unit = coachUnit k ∧ r.code = code ∧ r.ctx = s.boundCtx k ∧ r.sub = n := ⟨_, rfl, rfl, rfl, rfl, rfl⟩

/-- A change of listed fields, and then of the reports. -/
theorem OnlyFields.withReports {L : List (Fld × Nat × Nat)} {s t : State} (a : OnlyFields L s t) (rs : List Report) :
    OnlyFields L { s with reports := rs } { t with reports := rs } := by
  obtain ⟨ht, hf⟩ := a
  refine ⟨?_, hf⟩
  rw [ht]

/-- A write of several fields of one unit and index changes those alone. -/
theorem OnlyFields.setFlds_own {u i : Nat} {l : List (Fld × Nat)} (s : State) (hu : u < 2048) (h : ∀ x ∈ l, x.1 ∈ fldTable) :
    OnlyFields (l.map (fun x => (x.1, u, i))) s (s.setFlds u i l) :=
  .setFlds s hu (fun x hx => ⟨h x hx, List.mem_map_of_mem hx⟩)

/-! ### Settling (R261, R262, R268) -/

/-- A stream has stopped: it is IDLE, and nothing waits (R262). -/
def State.streamStopped (s : State) (k n : Nat) : State :=
  (s.setFld STR_STATE_STATE k n 0).updStrm k n (fun t => { t with stopping := false, goHeld := false, failed := none })

/-- A stream with a request outstanding does not settle. -/
theorem State.settleStream_busy {s : State} {k n : Nat} (h : s.streamBusy k n = true) : s.settleStream k n = s := by
  rw [State.settleStream, if_pos h]

/-- A stream asked to stop, no request of which has failed, stops once none is outstanding. -/
theorem State.settleStream_stopping {s : State} {k n : Nat} (hb : s.streamBusy k n = false) (hs : (s.strm k n).stopping = true)
    (hf : (s.strm k n).failed = none) : s.settleStream k n = s.streamStopped k n := by
  simp [State.settleStream, State.streamStopped, hb, hs, hf]

/-- A change of a stream's bookkeeping leaves its requests outstanding. -/
@[simp] theorem State.streamBusy_updStrm (s : State) (k n m : Nat) (g : Strm → Strm) : (s.updStrm k n g).streamBusy k m = s.streamBusy k m := by
  rw [State.streamBusy, State.reqs_updStrm, State.streamBusy]

end Sys2Proof.Machine
end

section
/-! RESULTS. START, STOP and RESUME of a stream (R253, R257, R262, R270; O28). -/

namespace Sys2Proof.Machine

/-! ### START (R253, R257) -/

/-- The fields of a stream that starts. -/
def startFlds : List (Fld × Nat) := [(STR_STATE_STATE, 1), (STR_STATE_CONS, 0), (STR_POS_POS, 0)]

/-- The fields of a stream whose START is refused. -/
def refusedFlds : List (Fld × Nat) := [(STR_STATE_STATE, 4), (STR_STATE_FCODE, 5)]

/-- Where START takes a stream that passes R253. -/
def State.streamStarted (s : State) (k n : Nat) : State :=
  (s.setFlds k n startFlds).updStrm k n (fun _ =>
    { len := s.seqLen k n, share := if s.fld STR_CFG_DIR k n = 0 then min (s.halfSize k n) (s.seqLen k n) else 0 })

/-- START in IDLE, ERROR or DONE. -/
theorem State.streamStart_idle {s : State} {k n : Nat} (h : s.fld STR_STATE_STATE k n ∈ [0, 4, 5]) :
    s.streamStart k n = if s.startRefused k n then (s.setFlds k n refusedFlds).reportStream k n 5 0 else s.streamStarted k n := by
  have hst : (s.fld STR_STATE_STATE k n != 0 && s.fld STR_STATE_STATE k n != 4 && s.fld STR_STATE_STATE k n != 5) = false := by
    simp only [List.mem_cons, List.not_mem_nil, or_false] at h
    rcases h with h | h | h <;> rw [h] <;> rfl
  simp [State.streamStart, hst, State.streamStarted, startFlds, refusedFlds]

/-- START in another state. -/
theorem State.streamStart_other {s : State} {k n : Nat} (h : s.fld STR_STATE_STATE k n ∉ [0, 4, 5]) : s.streamStart k n = s := by
  simp only [List.mem_cons, List.not_mem_nil, or_false, not_or] at h
  obtain ⟨h0, h4, h5⟩ := h
  simp [State.streamStart, h0, h4, h5]

/-- START is a write of the stream's register. -/
theorem exec_streamStart {k : Coach} {n : Fin 8} {s : State} (h : Hits STR_CTL_START k n s) : exec (.streamStart k n) s = .next (s.streamStart k n) :=
  State.regEvent_of_hits h _ _

/-- A stream that starts. -/
theorem streamStart_starts {k : Coach} {n : Fin 8} {s : State} (h : Hits STR_CTL_START k n s) (hst : s.fld STR_STATE_STATE k n ∈ [0, 4, 5])
    (hr : s.startRefused k n = false) : ∃ t, exec (.streamStart k n) s = .next t ∧ t.fld STR_STATE_STATE k n = 1 ∧ t.fld STR_STATE_CONS k n = 0 ∧
      t.fld STR_POS_POS k n = 0 ∧
      t.strm k n = { len := s.seqLen k n, share := if s.fld STR_CFG_DIR k n = 0 then min (s.halfSize k n) (s.seqLen k n) else 0 } ∧
      (∀ m, m ≠ n.val → t.strm k m = s.strm k m) ∧ OnlyCoach k [(STR_STATE_STATE, k, n), (STR_STATE_CONS, k, n), (STR_POS_POS, k, n)] s t := by
  have hfld : ∀ x ∈ startFlds, (s.streamStarted k n).fld x.1 k n = x.2 % 2 ^ x.1.w := fun x hx => s.fld_setFlds_mem k n (by decide) hx
  simp only [startFlds, List.forall_mem_cons] at hfld
  obtain ⟨hstate, hcons, hpos, -⟩ := hfld
  refine ⟨s.streamStarted k n, ?_, hstate, hcons, hpos, State.strm_updStrm_same _ _ _ _, fun m hm => ?_, ?_⟩
  · rw [exec_streamStart h, State.streamStart_idle hst, hr]
    rfl
  · rw [State.streamStarted, State.strm_updStrm, if_neg hm, State.strm, State.coach_setFlds, State.strm]
  · exact ((OnlyFields.setFlds_own s (k.isLt.trans (by decide)) (by decide +kernel : ∀ x ∈ startFlds, x.1 ∈ fldTable)).onlyCoach k).trans (.updStrm _ k n _)

/-- A stream whose START is refused. -/
theorem streamStart_refused {k : Coach} {n : Fin 8} {s : State} (h : Hits STR_CTL_START k n s) (hst : s.fld STR_STATE_STATE k n ∈ [0, 4, 5])
    (hr : s.startRefused k n = true) : ∃ t r, exec (.streamStart k n) s = .next t ∧ t.fld STR_STATE_STATE k n = 4 ∧ t.fld STR_STATE_FCODE k n = 5 ∧
      t.reports = s.reports ++ [r] ∧ r.unit = coachUnit k ∧ r.code = 5 ∧ r.ctx = s.boundCtx k ∧ r.sub = n.val ∧
      OnlyFields [(STR_STATE_STATE, k, n), (STR_STATE_FCODE, k, n)] { s with reports := t.reports } t := by
  have honly : OnlyFields [(STR_STATE_STATE, k.val, n.val), (STR_STATE_FCODE, k.val, n.val)] s (s.setFlds k n refusedFlds) :=
    .setFlds_own s (k.isLt.trans (by decide)) (by decide +kernel)
  have hreports : (s.setFlds k n refusedFlds).reports = s.reports := by rw [honly.1]
  have hfld : ∀ x ∈ refusedFlds, (s.setFlds k n refusedFlds).fld x.1 k n = x.2 % 2 ^ x.1.w := fun x hx => s.fld_setFlds_mem k n (by decide) hx
  simp only [refusedFlds, List.forall_mem_cons] at hfld
  obtain ⟨hstate, hcode, -⟩ := hfld
  obtain ⟨r, hrep, hunit, hrcode, hctx, hsub⟩ := (s.setFlds k n refusedFlds).exists_reportStream k n 5 0
  refine ⟨(s.setFlds k n refusedFlds).withReport r, r, ?_, hstate, hcode, congrArg (· ++ [r]) hreports, hunit, hrcode, hctx.trans ?_, hsub, honly.withReports _⟩
  · rw [exec_streamStart h, State.streamStart_idle hst, if_pos hr, hrep]
  · exact s.boundCtx_setFlds k k n (by decide) (by decide)

/-! ### STOP (R262) -/

/-- The stream with its stop noted: of a FAULTED one the failed request is forgotten. -/
def State.stopAsked (s : State) (k n : Nat) : State :=
  s.updStrm k n (fun t => { t with stopping := true, failed := if s.fld STR_STATE_STATE k n == 3 then none else t.failed })

/-- STOP in RUN, HALTING or FAULTED. -/
theorem exec_streamStop {k : Coach} {n : Fin 8} {s : State} (h : Hits STR_CTL_STOP k n s) (hst : s.fld STR_STATE_STATE k n ∈ [1, 2, 3]) :
    exec (.streamStop k n) s = .next ((s.stopAsked k n).settleStream k n) := by
  refine (State.regEvent_of_hits h _ _).trans (if_pos ?_)
  simpa [or_assoc] using hst

/-- STOP in another state. -/
theorem exec_streamStop_other {k : Coach} {n : Fin 8} {s : State} (h : Hits STR_CTL_STOP k n s) (hst : s.fld STR_STATE_STATE k n ∉ [1, 2, 3]) :
    exec (.streamStop k n) s = .next s := by
  refine (State.regEvent_of_hits h _ _).trans (if_neg ?_)
  simpa [or_assoc] using hst

/-- STOP with no request outstanding. -/
theorem streamStop_idle {k : Coach} {n : Fin 8} {s : State} (h : Hits STR_CTL_STOP k n s) (hst : s.fld STR_STATE_STATE k n ∈ [1, 3])
    (hb : s.streamBusy k n = false) (hf : (s.strm k n).failed = none ∨ s.fld STR_STATE_STATE k n = 3) :
    ∃ t, exec (.streamStop k n) s = .next t ∧ t.fld STR_STATE_STATE k n = 0 ∧ (t.strm k n).stopping = false ∧ OnlyCoach k [(STR_STATE_STATE, k, n)] s t := by
  have hin : s.fld STR_STATE_STATE k n ∈ [1, 2, 3] := by
    simp only [List.mem_cons, List.not_mem_nil, or_false] at hst ⊢
    exact hst.imp_right Or.inr
  have hfailed : ((s.stopAsked k n).strm k n).failed = none := by
    rw [State.stopAsked, State.strm_updStrm_same]
    rcases hf with hf | hf <;> simp [hf]
  have hsettle : (s.stopAsked k n).settleStream k n = (s.stopAsked k n).streamStopped k n :=
    State.settleStream_stopping ((s.streamBusy_updStrm k n n _).trans hb) (congrArg Strm.stopping (s.strm_updStrm_same k n _)) hfailed
  refine ⟨_, (exec_streamStop h hin).trans (congrArg _ hsettle), State.fld_setFld_same _ STR_STATE_STATE k n 0, congrArg Strm.stopping (State.strm_updStrm_same _ k n _), ?_⟩
  exact (OnlyCoach.updStrm s k n _).trans ((OnlyCoach.setFld _ k 0 (by decide +kernel) (k.isLt.trans (by decide)) List.mem_cons_self).trans (.updStrm _ k n _))

/-- STOP with a request outstanding. -/
theorem streamStop_busy {k : Coach} {n : Fin 8} {s : State} (h : Hits STR_CTL_STOP k n s) (hst : s.fld STR_STATE_STATE k n ∈ [1, 2, 3])
    (hb : s.streamBusy k n = true) : ∃ t, exec (.streamStop k n) s = .next t ∧ (t.strm k n).stopping = true ∧ OnlyCoach k [] s t :=
  ⟨_, (exec_streamStop h hst).trans (congrArg _ (State.settleStream_busy ((s.streamBusy_updStrm k n n _).trans hb))),
    congrArg Strm.stopping (s.strm_updStrm_same k n _), .updStrm s k n _⟩

/-! ### RESUME (R270) -/

/-- RESUME in FAULTED. -/
theorem State.streamResume_faulted {s : State} {k n : Nat} (h : s.fld STR_STATE_STATE k n = 3) : s.streamResume k n = s.streamResumeNow k n := by
  simp [State.streamResume, h]

/-- RESUME in HALTING is held. -/
theorem State.streamResume_halting {s : State} {k n : Nat} (h : s.fld STR_STATE_STATE k n = 2) :
    s.streamResume k n = s.updStrm k n (fun t => { t with goHeld := true }) := by
  simp [State.streamResume, h]

/-- RESUME in another state. -/
theorem State.streamResume_other {s : State} {k n : Nat} (h : s.fld STR_STATE_STATE k n ∉ [2, 3]) : s.streamResume k n = s := by
  simp only [List.mem_cons, List.not_mem_nil, or_false, not_or] at h
  obtain ⟨h2, h3⟩ := h
  simp [State.streamResume, h2, h3]

/-- What a stream that resumes has: it is in RUN and requests again from STR_POS. -/
theorem State.streamResumeNow_gives (s : State) {k : Nat} (hk : k < 2048) (n : Nat) : (s.streamResumeNow k n).fld STR_STATE_STATE k n = 1 ∧
    ((s.streamResumeNow k n).strm k n).failed = none ∧ ((s.streamResumeNow k n).strm k n).reqd = s.fld STR_POS_POS k n - (s.strm k n).shareOff ∧
    ((s.streamResumeNow k n).strm k n).landed = s.fld STR_POS_POS k n - (s.strm k n).shareOff ∧
    OnlyCoach k [(STR_STATE_STATE, k, n)] s (s.streamResumeNow k n) := by
  have hstrm := State.strm_updStrm_same (s.setFld STR_STATE_STATE k n 1) k n (fun t =>
    { t with goHeld := false, failed := none, reqd := s.fld STR_POS_POS k n - t.shareOff, landed := s.fld STR_POS_POS k n - t.shareOff })
  exact ⟨State.fld_setFld_same _ STR_STATE_STATE k n 1, congrArg Strm.failed hstrm, congrArg Strm.reqd hstrm, congrArg Strm.landed hstrm,
    (OnlyCoach.setFld s k 1 (by decide +kernel) hk List.mem_cons_self).trans (.updStrm _ k n _)⟩

/-- RESUME is a write of the stream's register. -/
theorem exec_streamResume {k : Coach} {n : Fin 8} {s : State} (h : Hits STR_RESUME_GO k n s) : exec (.streamResume k n) s = .next (s.streamResume k n) :=
  State.regEvent_of_hits h _ _

/-- Settles O28: each command by the states it acts in; STOP and its end are one settling of the stream. -/
theorem streamsStartStopAndResume : Obligations.StreamsStartStopAndResume := by
  unfold Obligations.StreamsStartStopAndResume
  refine ⟨fun _ _ _ h hst hr => streamStart_starts h hst hr, fun _ _ _ h hst hr => streamStart_refused h hst hr, fun k n s h hst => ?_,
    fun _ _ _ h hst hb hf => streamStop_idle h hst hb hf, fun _ _ _ h hst hb => streamStop_busy h hst hb, fun _ _ _ h hst => exec_streamStop_other h hst,
    fun k n s h hst => ?_, fun k n s h hst => ?_, fun k n s h hst => ?_⟩
  · rw [exec_streamStart h, State.streamStart_other hst]
  · exact ⟨_, (exec_streamResume h).trans (congrArg _ (State.streamResume_faulted hst)), s.streamResumeNow_gives (k.isLt.trans (by decide)) n⟩
  · exact ⟨_, (exec_streamResume h).trans (congrArg _ (State.streamResume_halting hst)), congrArg Strm.goHeld (s.strm_updStrm_same k n _), .updStrm s k n _⟩
  · rw [exec_streamResume h, State.streamResume_other hst]

end Sys2Proof.Machine
end

section
/-! SUPPORT. What the traffic of a unit leaves alone: packets sent, translations asked for, vectors raised, reports, and lockstep aborts (R275 to R277, R315, R350, R548,
R597, R633). -/

namespace Sys2Proof.Machine

/-! ### Packets sent -/

/-- Nothing changes but what travels, what waits at the fabric and the reports. -/
def Sent (s t : State) : Prop := t = { s with net := t.net, reports := t.reports, fab := t.fab }

/-- Nothing is sent. -/
theorem Sent.refl (s : State) : Sent s s := rfl

/-- One after another. -/
theorem Sent.trans {s t u : State} (a : Sent s t) (b : Sent t u) : Sent s u := by
  refine Eq.trans b ?_
  rw [show t = _ from a]

/-- One for each element of a list. -/
theorem Sent.foldl {α : Type} {g : State → α → State} (h : ∀ t x, Sent t (g t x)) (l : List α) (s : State) : Sent s (l.foldl g s) := by
  induction l generalizing s with
  | nil => exact .refl s
  | cons x l ih => exact (h s x).trans (ih _)

/-- The register fields stay. -/
theorem Sent.fields {s t : State} (a : Sent s t) : t.fields = s.fields := by rw [show t = _ from a]

/-- The translation caches stay. -/
theorem Sent.tcs {s t : State} (a : Sent s t) : t.tcs = s.tcs := by rw [show t = _ from a]

/-- The memories stay. -/
theorem Sent.sameMemories {s t : State} (a : Sent s t) : SameMemories s t := by
  rw [show t = _ from a]
  exact ⟨rfl, rfl, rfl, rfl, rfl, rfl⟩

/-- A packet leaves its NI. -/
theorem Sent.inject (s : State) (u : Nat) (p : Packet) : Sent s (s.inject u p) := by
  unfold State.inject State.pushWire
  dsimp only
  split <;> rfl

/-- A response is delivered. -/
theorem Sent.answer (s : State) (u : Nat) (p : Packet) : Sent s (s.answer u p) := by
  unfold State.answer
  dsimp only
  split <;> rfl

/-- A unit sends a packet. -/
theorem Sent.niSend (s : State) (u e : Nat) (p : Packet) : Sent s (s.niSend u e p) := by
  unfold State.niSend
  dsimp only
  split
  · split
    · exact Sent.trans (t := s.report _) rfl (.answer _ u _)
    · rfl
  · split
    · rfl
    · exact .inject s u _

/-- A walker reads its next entry. -/
theorem Sent.walkRead (s : State) (u ctx id addr : Nat) : Sent s (s.walkRead u ctx id addr) := .niSend s u _ _

/-! ### Entries just made or hit -/

/-- Entry `j` of a cache is `x` alone, at age 0. -/
def FreshIn (m : SMap (Option TcEnt)) (j : Nat) (x : TcEnt) : Prop := mget none m j = some x ∧ (∀ v, (j, v) ∈ m → v = some x) ∧ x.age = 0

/-- Every entry at age 0 stays. -/
def KeepsFresh (s t : State) : Prop := ∀ u j x, FreshIn (s.tc u).ents j x → FreshIn (t.tc u).ents j x

/-- No entry changes. -/
theorem KeepsFresh.of_ents {s t : State} (h : ∀ u, (t.tc u).ents = (s.tc u).ents) : KeepsFresh s t := fun u j x hx => by rwa [h u]

/-- No cache changes. -/
theorem KeepsFresh.of_tcs {s t : State} (h : t.tcs = s.tcs) : KeepsFresh s t := .of_ents fun u => by rw [State.tc, h, State.tc]

/-- One after another. -/
theorem KeepsFresh.trans {s t u : State} (a : KeepsFresh s t) (b : KeepsFresh t u) : KeepsFresh s u := fun v j x hx => b v j x (a v j x hx)

/-- What a map lists after a write. -/
theorem mem_mset {α : Type} [DecidableEq α] {d : α} {m : SMap α} {k : Nat} {v : α} {e : Nat × α} :
    e ∈ mset d m k v ↔ (e = (k, v) ∧ v ≠ d) ∨ (e ∈ m ∧ e.1 ≠ k) := by
  unfold mset
  by_cases h : v = d <;> simp [h, mem_mins]

/-- An entry written at age 0 stands alone. -/
theorem freshIn_mset (m : SMap (Option TcEnt)) (j : Nat) {x : TcEnt} (h : x.age = 0) : FreshIn (mset none m j (some x)) j x := by
  refine ⟨mget_mset_same _ _ _ _, fun v hv => ?_, h⟩
  rcases mem_mset.1 hv with ⟨he, -⟩ | ⟨-, hne⟩
  · exact (Prod.mk.inj he).2
  · exact absurd rfl hne

/-- A write of another entry leaves it. -/
theorem FreshIn.mset_other {m : SMap (Option TcEnt)} {i j : Nat} {x : TcEnt} (h : FreshIn m j x) (hij : j ≠ i) (v : Option TcEnt) :
    FreshIn (mset none m i v) j x := by
  obtain ⟨hget, hall, hage⟩ := h
  refine ⟨(mget_mset_other v hij).trans hget, fun w hw => ?_, hage⟩
  rcases mem_mset.1 hw with ⟨he, -⟩ | ⟨hm, -⟩
  · exact absurd (Prod.mk.inj he).1 hij
  · exact hall w hm

/-- What a lookup finds is listed. -/
theorem Tcache.mem_of_lookup {t : Tcache} {ctx va i : Nat} {e : TcEnt} (h : t.lookup ctx va = some (i, e)) : (i, some e) ∈ t.ents := by
  obtain ⟨⟨j, v⟩, hm, hv⟩ := List.exists_of_findSome?_eq_some h
  cases v with
  | none => simp at hv
  | some x =>
    obtain ⟨-, rfl, rfl⟩ : x.hits ctx va = true ∧ j = i ∧ x = e := by simpa using hv
    exact hm

/-- A hit leaves entries at age 0. -/
theorem FreshIn.touch {t : Tcache} {ctx va i j : Nat} {e x : TcEnt} (hl : t.lookup ctx va = some (i, e)) (h : FreshIn t.ents j x) :
    FreshIn (t.touch i e).ents j x := by
  by_cases hij : j = i
  · subst hij
    obtain ⟨-, hall, hage⟩ := h
    obtain rfl : e = x := Option.some.inj (hall _ (Tcache.mem_of_lookup hl))
    rw [Tcache.touch, show ({ e with age := 0 } : TcEnt) = e by rw [← hage]]
    exact freshIn_mset _ _ hage
  · exact h.mset_other hij (some { e with age := 0 })

/-- A cache after a change of one. -/
theorem State.tc_updTc (s : State) (u v : Nat) (f : Tcache → Tcache) : (s.updTc u f).tc v = if v = u then f (s.tc u) else s.tc v :=
  mget_mupd (α := Tcache) _ s.tcs u f v

/-- The cache just changed. -/
@[simp] theorem State.tc_updTc_same (s : State) (u : Nat) (f : Tcache → Tcache) : (s.updTc u f).tc u = f (s.tc u) := (s.tc_updTc u u f).trans (if_pos rfl)

/-- A change of a cache that keeps its entries at age 0. -/
theorem KeepsFresh.updTc (s : State) (u : Nat) {f : Tcache → Tcache} (h : ∀ j x, FreshIn (s.tc u).ents j x → FreshIn (f (s.tc u)).ents j x) :
    KeepsFresh s (s.updTc u f) := fun v j x hx => by
  rw [State.tc_updTc]
  split
  · next hv => exact h j x (hv ▸ hx)
  · exact hx

/-- What a hit answers. -/
theorem State.ask_hit {s : State} {u ctx va i : Nat} {e : TcEnt} (h : (s.tc u).lookup ctx va = some (i, e)) (write : Bool) :
    s.ask u ctx va write = (if (if write then e.w else e.r) then Ask.here (e.loc va) else .fault 2, s.updTc u (fun t => t.touch i e)) := by
  unfold State.ask
  rw [h]
  dsimp only
  generalize (if write = true then e.w else e.r) = granted
  cases granted <;> rfl

/-! ### Traffic -/

/-- The fields that traffic can change: of lockstep, of the maintenance arbiter, of the log, of vectors not sent and of the fabric ports. -/
def trafficFlds : List Fld :=
  [DEV_LSSTAT_CODE, DEV_LSEND_CYC, DEV_LSSTAT_STATE, DEV_LSSTAT_EVENT, QUE_VECDROP_COUNT, REC_MNTSTAT_QUEUED, REC_MNTSTAT_RUNNING, REC_MNTSTAT_EVENT, LOG_SEQ_NEXT,
    LOG_LASTGASP_CODE, LOG_LASTGASP_SOURCE, LOG_LASTGASP_VALID, FAB_PORTSTAT_FCODE, FAB_PORTSTAT_VALID, FAB_PORTSTAT_MORE]

/-- A field that traffic leaves alone. -/
abbrev Untouched (f : Fld) : Prop := f.idx % 1024 ∉ trafficFlds.map (·.idx % 1024)

/-- What traffic can change: what travels, the reports, what left the device, lanes, arbiter and log of a lockstep abort, and a cache by lookups and walks. -/
structure Traffic (s t : State) : Prop where
  eq : t = { s with fields := t.fields, net := t.net, reports := t.reports, fab := t.fab, out := t.out, laneSt := t.laneSt, arb := t.arb, log := t.log, tcs := t.tcs }
  fld : ∀ f u i, Untouched f → t.fld f u i = s.fld f u i
  fresh : KeepsFresh s t

namespace Traffic

variable {s t u : State}

/-- No traffic. -/
theorem refl (s : State) : Traffic s s := ⟨rfl, fun _ _ _ _ => rfl, .of_tcs rfl⟩

/-- One after another. -/
theorem trans (a : Traffic s t) (b : Traffic t u) : Traffic s u := by
  refine ⟨b.eq.trans ?_, fun f x i hf => (b.fld f x i hf).trans (a.fld f x i hf), a.fresh.trans b.fresh⟩
  rw [a.eq]

/-- One for each element of a list. -/
theorem foldl {α : Type} {g : State → α → State} (h : ∀ t x, Traffic t (g t x)) (l : List α) (s : State) : Traffic s (l.foldl g s) := by
  induction l generalizing s with
  | nil => exact .refl s
  | cons x l ih => exact (h s x).trans (ih _)

/-- In one of two cases. -/
theorem ite {c : Prop} [Decidable c] (a : Traffic s t) (b : Traffic s u) : Traffic s (if c then t else u) := by
  split
  · exact a
  · exact b

/-- The coaches stay. -/
theorem coaches (a : Traffic s t) : t.coaches = s.coaches := by rw [a.eq]

/-- The DMA engines stay. -/
theorem dma (a : Traffic s t) : t.dma = s.dma := by rw [a.eq]

/-- The contexts stay. -/
theorem ctxs (a : Traffic s t) : t.ctxs = s.ctxs := by rw [a.eq]

/-- The memories stay. -/
theorem sameMemories (a : Traffic s t) : SameMemories s t := by
  rw [a.eq]
  exact ⟨rfl, rfl, rfl, rfl, rfl, rfl⟩

/-- A change outside the register fields and the caches. -/
theorem of_eq (h : t = { s with net := t.net, reports := t.reports, fab := t.fab, out := t.out, laneSt := t.laneSt, arb := t.arb, log := t.log }) : Traffic s t := by
  have hf : t.fields = s.fields := by rw [h]
  have hc : t.tcs = s.tcs := by rw [h]
  refine ⟨?_, fun f x i _ => by rw [State.fld, hf, State.fld], .of_tcs hc⟩
  rw [hf, hc]
  exact h

/-- Packets sent. -/
theorem of_sent (a : Sent s t) : Traffic s t := by
  refine of_eq ?_
  rw [show t = _ from a]

/-- A packet sent. -/
theorem niSend (s : State) (u e : Nat) (p : Packet) : Traffic s (s.niSend u e p) := .of_sent (.niSend s u e p)

/-- A write of one of its fields. -/
theorem setFld (s : State) {g : Fld} (w j v : Nat) (hg : g ∈ trafficFlds) : Traffic s (s.setFld g w j v) :=
  ⟨rfl, fun _ x i hf => s.fld_setFld_idx x i w j v (fun h => hf (h ▸ List.mem_map_of_mem (f := (·.idx % 1024)) hg)), .of_tcs rfl⟩

/-- A write of several of its fields. -/
theorem setFlds (s : State) (w j : Nat) {l : List (Fld × Nat)} (h : ∀ x ∈ l, x.1 ∈ trafficFlds) : Traffic s (s.setFlds w j l) := by
  induction l generalizing s with
  | nil => exact .refl s
  | cons x l ih =>
    obtain ⟨hx, hl⟩ := List.forall_mem_cons.1 h
    exact (setFld s w j x.2 hx).trans (ih _ hl)

/-- A vector is raised (R548). -/
theorem raise (s : State) (ctx : Option Nat) (port vec : Nat) : Traffic s (s.raise ctx port vec) := by
  unfold State.raise
  dsimp only
  exact ite (.setFld s _ _ _ (by decide)) (ite (.refl s) (of_eq rfl))

/-- A log entry is written (R626). -/
theorem logEntry (s : State) (code source : Nat) (ctx : Option Nat) (aux data : Nat) : Traffic s (s.logEntry code source ctx aux data) := by
  have hseq : Traffic s (s.wrapAdd LOG_SEQ_NEXT 0 0 1) := .setFld s _ _ _ (by decide)
  unfold State.logEntry
  dsimp only
  refine ite (hseq.trans ((setFlds _ 0 0 ?_).trans (of_eq rfl))) (hseq.trans (of_eq rfl))
  simp only [List.forall_mem_cons]
  decide

/-- The arbiter's counts are shown. -/
theorem showArb (s : State) : Traffic s s.showArb := by
  refine setFlds s 0 0 ?_
  simp only [List.forall_mem_cons]
  decide

/-- A maintenance request is granted (R633). -/
theorem grant (s : State) (r : MReq) : Traffic s (s.grant r) := by
  unfold State.grant
  dsimp only
  have hlog := (of_eq (s := s) (t := { s with arb := { s.arb with running := s.arb.running ++ [r] } }) rfl).trans (.logEntry _ 0x0501 schedUnit none r.kind r.unit)
  exact ite (hlog.trans (.setFld _ _ _ _ (by decide))) hlog

/-- Queued maintenance requests are granted. -/
theorem grantQueue (l : List MReq) (s : State) (kept : List MReq) : Traffic s (s.grantQueue kept l) := by
  induction l generalizing s kept with
  | nil => exact of_eq rfl
  | cons r l ih => exact ite ((grant s r).trans (ih _ _)) (ih s _)

/-- The arbiter grants what it can. -/
theorem arbStep (s : State) : Traffic s s.arbStep := ite ((grantQueue s.arb.queue s []).trans (.showArb _)) (.showArb s)

/-- Abort marks go out (R315). -/
theorem abortMarksOut (s : State) : Traffic s s.abortMarksOut := foldl (fun _ _ => of_eq rfl) _ s

/-- A change of lockstep is an event (R315). -/
theorem lockEvent (s : State) : Traffic s s.lockEvent :=
  (setFld s 0 0 (b2n true) (by decide : DEV_LSSTAT_EVENT ∈ trafficFlds)).trans (.raise _ none (s.fld DEV_LSCTL_PORT 0) (s.fld DEV_LSCTL_VEC 0))

/-- Lockstep aborts (R315). -/
theorem lockAbort (s : State) (code : Nat) : Traffic s (s.lockAbort code) := by
  unfold State.lockAbort
  dsimp only
  refine ite (.setFld s _ _ _ (by decide)) (ite (.refl s) ?_)
  have hset : Traffic s (s.setFlds 0 0 [(DEV_LSSTAT_CODE, code), (DEV_LSEND_CYC, s.fld DEV_LSCYC_CYC 0), (DEV_LSSTAT_STATE, 3)]) := by
    refine setFlds s 0 0 ?_
    simp only [List.forall_mem_cons]
    decide
  have hevent := hset.trans (.lockEvent _)
  exact (ite hevent (hevent.trans (.abortMarksOut _))).trans (.arbStep _)

/-- A lockstep abort where a condition holds. -/
theorem lockAbortIf (s : State) (c : Prop) [Decidable c] (code : Nat) : Traffic s (if c then s.lockAbort code else s) := ite (lockAbort s code) (refl s)

/-- A change of a cache that keeps its entries at age 0. -/
theorem updTc (s : State) (u : Nat) {f : Tcache → Tcache} (h : ∀ j x, FreshIn (s.tc u).ents j x → FreshIn (f (s.tc u)).ents j x) : Traffic s (s.updTc u f) :=
  ⟨rfl, fun _ _ _ _ => rfl, .updTc s u h⟩

/-- A translation is asked for (R274 to R277). -/
theorem ask (s : State) (u ctx va : Nat) (write : Bool) : Traffic s (s.ask u ctx va write).2 := by
  cases hl : (s.tc u).lookup ctx va with
  | some x =>
    rw [State.ask_hit hl]
    exact .updTc s u (fun _ _ hx => hx.touch hl)
  | none =>
    unfold State.ask
    rw [hl]
    dsimp only
    split
    · exact .refl s
    · split
      · exact .refl s
      · exact .refl s
      · exact (updTc s u (fun _ _ hx => hx)).trans (.of_sent (.walkRead _ u ctx _ _))

end Traffic

end Sys2Proof.Machine
end

section
/-! SUPPORT. What a unit does for what waits on its translation cache, and what becomes of a coach's requests when they are translated and sent, or marked as failed
(R255, R268, R275 to R279, R369). -/

namespace Sys2Proof.Machine

/-! ### What serving can change -/

/-- What serving can change: what traffic can, and the work in hand of coaches and DMA engines. -/
structure Serves (s t : State) : Prop where
  eq : t =
    { s with
      fields := t.fields, net := t.net, reports := t.reports, fab := t.fab, out := t.out, laneSt := t.laneSt, arb := t.arb, log := t.log, tcs := t.tcs, dma := t.dma
      coaches := t.coaches }
  fresh : KeepsFresh s t

namespace Serves

variable {s t u : State}

/-- Nothing is served. -/
theorem refl (s : State) : Serves s s := ⟨rfl, .of_tcs rfl⟩

/-- One after another. -/
theorem trans (a : Serves s t) (b : Serves t u) : Serves s u := by
  refine ⟨b.eq.trans ?_, a.fresh.trans b.fresh⟩
  rw [a.eq]

/-- One for each element of a list. -/
theorem foldl {α : Type} {g : State → α → State} (h : ∀ t x, Serves t (g t x)) (l : List α) (s : State) : Serves s (l.foldl g s) := by
  induction l generalizing s with
  | nil => exact .refl s
  | cons x l ih => exact (h s x).trans (ih _)

/-- The memories stay. -/
theorem sameMemories (a : Serves s t) : SameMemories s t := by
  rw [a.eq]
  exact ⟨rfl, rfl, rfl, rfl, rfl, rfl⟩

/-- Traffic. -/
theorem of_traffic (a : Traffic s t) : Serves s t := by
  refine ⟨?_, a.fresh⟩
  rw [a.eq]

/-- A change of register fields, fabric sides, engines and coaches. -/
theorem of_eq (h : t = { s with fields := t.fields, fab := t.fab, dma := t.dma, coaches := t.coaches }) : Serves s t := by
  have hc : t.tcs = s.tcs := by rw [h]
  refine ⟨?_, .of_tcs hc⟩
  rw [h]

end Serves

/-! ### Requests of a coach -/

/-- What identifies a request: its number, stream, place, address and direction. -/
def SReq.key (r : SReq) : Nat × Nat × Nat × Nat × Nat × Bool := (r.id, r.n, r.off, r.len, r.va, r.write)

/-- What serving the requests of coach `k` can change: what traffic can, and how each of its requests stands. -/
structure ReqServes (k : Nat) (s t : State) : Prop where
  serves : Serves s t
  fld : ∀ f u i, Untouched f → t.fld f u i = s.fld f u i
  other : ∀ j, j ≠ k → t.coach j = s.coach j
  own : t.coach k = { s.coach k with reqs := (t.coach k).reqs }
  keys : (t.coach k).reqs.map SReq.key = (s.coach k).reqs.map SReq.key

namespace ReqServes

variable {k : Nat} {s t u : State}

/-- Nothing is served. -/
theorem refl (k : Nat) (s : State) : ReqServes k s s := ⟨.refl s, fun _ _ _ _ => rfl, fun _ _ => rfl, rfl, rfl⟩

/-- One after another. -/
theorem trans (a : ReqServes k s t) (b : ReqServes k t u) : ReqServes k s u := by
  refine ⟨a.serves.trans b.serves, fun f x i hf => (b.fld f x i hf).trans (a.fld f x i hf), fun j hj => (b.other j hj).trans (a.other j hj), b.own.trans ?_,
    b.keys.trans a.keys⟩
  rw [a.own]

/-- One for each element of a list. -/
theorem foldl {α : Type} {g : State → α → State} (h : ∀ t x, ReqServes k t (g t x)) (l : List α) (s : State) : ReqServes k s (l.foldl g s) := by
  induction l generalizing s with
  | nil => exact .refl k s
  | cons x l ih => exact (h s x).trans (ih _)

/-- Traffic. -/
theorem of_traffic (a : Traffic s t) (k : Nat) : ReqServes k s t := by
  have hc : ∀ j, t.coach j = s.coach j := fun j => by rw [State.coach, a.coaches, State.coach]
  refine ⟨.of_traffic a, a.fld, fun j _ => hc j, ?_, ?_⟩ <;> rw [hc k]

/-- A change of how the requests stand. -/
theorem mapReqs (s : State) (k : Nat) {g : SReq → SReq} (h : ∀ r, (g r).key = r.key) : ReqServes k s (s.updCoach k (fun c => { c with reqs := c.reqs.map g })) := by
  refine ⟨.of_eq rfl, fun _ _ _ _ => rfl, fun j hj => s.coach_setCoach_other _ hj, ?_, ?_⟩ <;> rw [State.coach_updCoach_same]
  rw [List.map_map]
  exact List.map_congr_left (fun r _ => h r)

/-- A change of how the request of a number stands. -/
theorem mapReq (s : State) (k id : Nat) {g : SReq → SReq} (h : ∀ r, (g r).key = r.key) :
    ReqServes k s (s.updCoach k (fun c => { c with reqs := c.reqs.map (fun x => if x.id == id then g x else x) })) :=
  mapReqs s k (fun r => by
    split
    · exact h r
    · rfl)

/-- The streams' bookkeeping stays. -/
theorem strm (a : ReqServes k s t) (n : Nat) : t.strm k n = s.strm k n := by rw [State.strm, a.own, State.strm]

/-- A request is marked as failed. -/
theorem markFail (s : State) (k id code : Nat) : ReqServes k s (s.markFail k id code) := mapReq s k id (fun _ => rfl)

/-- A translated request is sent (R369). -/
theorem sendReq (s : State) (k : Nat) (r : SReq) (l : Loc) : ReqServes k s (s.sendReq k r l) := by
  unfold State.sendReq
  dsimp only
  exact ((of_traffic (.lockAbortIf s _ 6) k).trans (mapReq _ k r.id (g := fun x =>
    { x with left := (if l.target == 0 then granules 512 l.addr r.len else [(l.addr, r.len)]).length, walking := false, used := [l.used (s.fld COA_ROLE_CONTEXT k) r.va] })
    (fun _ => rfl))).trans (.foldl (fun t x => of_traffic (.niSend t _ _ _) k) _ _)

/-- A request is translated and sent, or waits for its walk, or fails. -/
theorem dispatchReq (s : State) (k : Nat) (r : SReq) : ReqServes k s (s.dispatchReq k r) := by
  have hask := Traffic.ask s (coachUnit k) (s.fld COA_ROLE_CONTEXT k) r.va r.write
  unfold State.dispatchReq
  rcases hp : s.ask (coachUnit k) (s.fld COA_ROLE_CONTEXT k) r.va r.write with ⟨answer, s1⟩
  rw [hp] at hask
  cases answer with
  | here l => exact (of_traffic hask k).trans (.sendReq s1 k r l)
  | walking => exact (of_traffic hask k).trans (.mapReq s1 k r.id (g := fun x => { x with walking := true }) (fun _ => rfl))
  | fault code => exact (of_traffic hask k).trans (.markFail s1 k r.id code)

end ReqServes

end Sys2Proof.Machine
end

section
/-! RESULTS. Grants, returned data, acknowledgements and failed requests of the streams (R252 to R255, R260, R263, R265, R268, R680; O29). -/

namespace Sys2Proof.Machine

/-! ### STREAM_GRANT (R252, R255, R263, R265) -/

/-- The request that a grant issues. -/
def State.grantReq (s : State) (k n off len va : Nat) : SReq :=
  { id := freeReqId (s.coach k).reqs, n := n, off := off, len := len, va := va, write := s.fld STR_CFG_DIR k n == 1, cls := s.grantClass k n }

/-- The coach with the request that a grant issues. -/
def State.withReq (s : State) (k n off len va : Nat) : State :=
  ((s.updCoach k (fun c => { c with reqs := c.reqs ++ [s.grantReq k n off len va] })).updStrm k n (fun t => { t with reqd := t.reqd + len })).setFld STR_POS_POS k n (off + len)

/-- A lookup that misses is counted. -/
def State.missCounted (s : State) (k : Nat) (miss : Bool) : State := if miss then s.bump STR_TCMISS_MISSES k 0 1 else s

/-- A grant to stream `n`. -/
theorem exec_streamGrant {k : Coach} {n off va len : Nat} {s : State} (hstill : s.coachStill = false) (hstall : s.grantStalled k = false) (hn : s.grantee k = some n)
    (hoff : off = (s.strm k n).shareOff + (s.strm k n).reqd) (hva : va = s.seqVa k n off)
    (hlen : len = min (min 512 (s.fld STR_ROWLEN_ROWLEN k n - off % s.fld STR_ROWLEN_ROWLEN k n)) (min (4096 - va % 4096) ((s.strm k n).share - (s.strm k n).reqd))) :
    exec (.streamGrant k) s = .next (((s.withReq k n off len va).missCounted k ((s.tc (coachUnit k)).lookup (s.fld COA_ROLE_CONTEXT k) va).isNone).dispatchReq k
      (s.grantReq k n off len va)) := by
  subst hoff hva hlen
  change execStreamGrant k s = _
  unfold execStreamGrant
  rw [hn, hstill, hstall]
  rfl

/-- No grant. -/
theorem exec_streamGrant_none {k : Coach} {s : State} (h : s.coachStill = true ∨ s.grantStalled k = true ∨ s.grantee k = none) :
    exec (.streamGrant k) s = .next s := by
  change execStreamGrant k s = _
  unfold execStreamGrant
  split
  · rfl
  · next hc =>
    rw [Bool.or_eq_true, not_or] at hc
    rw [(h.resolve_left hc.1).resolve_left hc.2]
    rfl

/-- The count of misses stops at its largest value. -/
theorem State.fld_misses_bump (s : State) (k : Nat) : (s.bump STR_TCMISS_MISSES k 0 1).fld STR_TCMISS_MISSES k =
    min (2 ^ STR_TCMISS_MISSES.w - 1) (s.fld STR_TCMISS_MISSES k + 1) :=
  (s.fld_setFld_same STR_TCMISS_MISSES k 0 _).trans (Nat.mod_eq_of_lt (Nat.lt_of_le_of_lt (Nat.min_le_left _ _) (by decide)))

/-- A miss is counted in one field. -/
theorem State.missCounted_coach (s : State) (k : Nat) (miss : Bool) (j : Nat) : (s.missCounted k miss).coach j = s.coach j := by
  cases miss <;> rfl

/-- What the grant leaves before its request is sent. -/
theorem State.withReq_gives (s : State) (k n off len va : Nat) (miss : Bool) {t : State} (ht : t = (s.withReq k n off len va).missCounted k miss) :
    (t.coach k).reqs = (s.coach k).reqs ++ [s.grantReq k n off len va] ∧ (t.strm k n).reqd = (s.strm k n).reqd + len ∧
    t.fld STR_POS_POS k n = (off + len) % 2 ^ STR_POS_POS.w ∧ (∀ m, m ≠ n → t.strm k m = s.strm k m) ∧ (∀ j, j ≠ k → t.coach j = s.coach j) ∧ SameMemories s t := by
  have hcoach : ∀ j, t.coach j = (s.withReq k n off len va).coach j := fun j => by rw [ht, State.missCounted_coach]
  have hstrm : ∀ m, t.strm k m = if m = n then { s.strm k n with reqd := (s.strm k n).reqd + len } else s.strm k m := fun m => by
    rw [State.strm, hcoach, ← State.strm, State.withReq, State.strm_setFld, State.strm_updStrm]
    simp only [State.strm, State.coach_updCoach_same]
  refine ⟨?_, ?_, ?_, fun m hm => ?_, fun j hj => ?_, ?_⟩
  · rw [hcoach, State.withReq, State.coach_setFld, State.reqs_updStrm, State.coach_updCoach_same]
  · rw [hstrm, if_pos rfl]
  · have hpos : (s.withReq k n off len va).fld STR_POS_POS k n = (off + len) % 2 ^ STR_POS_POS.w := State.fld_setFld_same _ STR_POS_POS k n (off + len)
    rw [ht]
    cases miss with
    | false => exact hpos
    | true => exact (State.fld_setFld_idx _ k n k 0 _ (by decide)).trans hpos
  · rw [hstrm, if_neg hm]
  · rw [hcoach]
    exact (State.coach_setCoach_other _ _ hj).trans (s.coach_setCoach_other _ hj)
  · rw [ht]
    cases miss <;> exact ⟨rfl, rfl, rfl, rfl, rfl, rfl⟩

/-- One change of memories after another. -/
theorem SameMemories.trans {s t u : State} (a : SameMemories s t) (b : SameMemories t u) : SameMemories s u := by
  obtain ⟨ha1, ha2, ha3, ha4, ha5, ha6⟩ := a
  obtain ⟨hb1, hb2, hb3, hb4, hb5, hb6⟩ := b
  exact ⟨hb1.trans ha1, hb2.trans ha2, hb3.trans ha3, hb4.trans ha4, hb5.trans ha5, hb6.trans ha6⟩

/-- A grant issues one request. -/
theorem streamGrant_requests {k : Coach} {n off va len : Nat} {s : State} (hstill : s.coachStill = false) (hstall : s.grantStalled k = false) (hn : s.grantee k = some n)
    (hoff : off = (s.strm k n).shareOff + (s.strm k n).reqd) (hva : va = s.seqVa k n off)
    (hlen : len = min (min 512 (s.fld STR_ROWLEN_ROWLEN k n - off % s.fld STR_ROWLEN_ROWLEN k n)) (min (4096 - va % 4096) ((s.strm k n).share - (s.strm k n).reqd))) :
    ∃ t r, exec (.streamGrant k) s = .next t ∧ (t.coach k).reqs.map (fun x => (x.id, x.n, x.off, x.len, x.va, x.write)) =
        (s.coach k).reqs.map (fun x => (x.id, x.n, x.off, x.len, x.va, x.write)) ++ [(r, n, off, len, va, s.fld STR_CFG_DIR k n == 1)] ∧
      (t.strm k n).reqd = (s.strm k n).reqd + len ∧ t.fld STR_POS_POS k n = (off + len) % 2 ^ STR_POS_POS.w ∧ len ≤ 512 ∧ va % 4096 + len ≤ 4096 ∧
      ((s.tc (coachUnit k)).lookup (s.fld COA_ROLE_CONTEXT k) va = none → t.fld STR_TCMISS_MISSES k = min (2 ^ STR_TCMISS_MISSES.w - 1) (s.fld STR_TCMISS_MISSES k + 1)) ∧
      (∀ m, m ≠ n → t.strm k m = s.strm k m) ∧ (∀ j, j ≠ k.val → t.coach j = s.coach j) ∧ SameMemories s t := by
  obtain ⟨hreqs, hreqd, hpos, hstrm, hother, hmem⟩ := s.withReq_gives k n off len va ((s.tc (coachUnit k)).lookup (s.fld COA_ROLE_CONTEXT k) va).isNone rfl
  have hserves := ReqServes.dispatchReq ((s.withReq k n off len va).missCounted k ((s.tc (coachUnit k)).lookup (s.fld COA_ROLE_CONTEXT k) va).isNone) k
    (s.grantReq k n off len va)
  refine ⟨_, (s.grantReq k n off len va).id, exec_streamGrant hstill hstall hn hoff hva hlen, ?_, (congrArg Strm.reqd (hserves.strm n)).trans hreqd,
    (hserves.fld _ k n (by decide)).trans hpos, by omega, by omega, fun hmiss => (hserves.fld _ k 0 (by decide)).trans ?_,
    fun m hm => (hserves.strm m).trans (hstrm m hm), fun j hj => (hserves.other j hj).trans (hother j hj), hmem.trans hserves.serves.sameMemories⟩
  · refine hserves.keys.trans ?_
    rw [hreqs, List.map_append]
    rfl
  · rw [hmiss]
    refine (State.fld_misses_bump _ k).trans ?_
    rw [State.withReq, State.fld_setFld_idx _ k 0 k n _ (by decide)]
    rfl

end Sys2Proof.Machine
end

section
/-! RESULTS. Returned data, acknowledgements and failed requests of the streams (R254, R255, R260, R263, R268; O29). -/

namespace Sys2Proof.Machine

/-! ### Where the bytes land (R254) -/

/-- A byte's place in a share: its block of 128 rows of `128 * w` bytes, its row, its element and its byte of the element; transposed, row and element change places. -/
theorem exists_transposed {w : Nat} (hw : 0 < w) (o : Nat) : ∃ blk row el byte, row < 128 ∧ el < 128 ∧ byte < w ∧
    o = blk * (128 * (128 * w)) + row * (128 * w) + el * w + byte ∧
    o / (128 * (128 * w)) * (128 * (128 * w)) + (o % (128 * (128 * w)) % (128 * w) / w) * (128 * w) + (o % (128 * (128 * w)) / (128 * w)) * w + o % (128 * (128 * w)) % w =
      blk * (128 * (128 * w)) + el * (128 * w) + row * w + byte := by
  have hrow : 0 < 128 * w := by omega
  refine ⟨o / (128 * (128 * w)), o % (128 * (128 * w)) / (128 * w), o % (128 * (128 * w)) % (128 * w) / w, o % (128 * (128 * w)) % w,
    Nat.div_lt_of_lt_mul (Nat.mul_comm (128 * w) 128 ▸ Nat.mod_lt _ (by omega)), Nat.div_lt_of_lt_mul ((Nat.mod_lt _ hrow).trans_eq (Nat.mul_comm 128 w)), Nat.mod_lt _ hw, ?_, rfl⟩
  have hel : o % (128 * (128 * w)) % (128 * w) % w = o % (128 * (128 * w)) % w := Nat.mod_mod_of_dvd _ (Dvd.intro_left 128 rfl)
  rw [← hel, Nat.add_assoc, Nat.div_add_mod', Nat.add_assoc, Nat.div_add_mod', Nat.div_add_mod']

/-- Two bytes of a share land at two places. -/
theorem State.landAt_injective (s : State) (k n : Nat) {i j : Nat} (h : s.landAt k n i = s.landAt k n j) : i = j := by
  unfold State.landAt at h
  by_cases ht : s.flag STR_CFG_TRANS k n = true
  · rw [if_pos ht, if_pos ht] at h
    have hw : (if s.fld STR_CFG_TW k n == 1 then 2 else 1) = 1 ∨ (if s.fld STR_CFG_TW k n == 1 then 2 else 1) = 2 := by split <;> simp
    rcases hw with hw | hw <;> simp only [hw] at h
    · obtain ⟨bi, ri, ei, ci, hri, hei, hci, hi, hti⟩ := exists_transposed (w := 1) (by decide) i
      obtain ⟨bj, rj, ej, cj, hrj, hej, hcj, hj, htj⟩ := exists_transposed (w := 1) (by decide) j
      have hij := hti.symm.trans (h.trans htj)
      clear h hti htj
      omega
    · obtain ⟨bi, ri, ei, ci, hri, hei, hci, hi, hti⟩ := exists_transposed (w := 2) (by decide) i
      obtain ⟨bj, rj, ej, cj, hrj, hej, hcj, hj, htj⟩ := exists_transposed (w := 2) (by decide) j
      have hij := hti.symm.trans (h.trans htj)
      clear h hti htj
      omega
  · rwa [if_neg ht, if_neg ht] at h

/-- Bytes written one by one, each to a place of its own. -/
theorem memByte_scattered (s : State) (k : Nat) {f : Nat → Nat} (hf : ∀ i j, f i = f j → i = j) (bs : List Nat) {i : Nat} (hi : i < bs.length) :
    memByte (s.storeWrites k (bs.zipIdx.map (fun x => (f x.2, [x.1])))).store (k * storeSize + f i) = bs.getD i 0 % 256 := by
  have hmem : (f i, [bs[i]]) ∈ bs.zipIdx.map (fun x => (f x.2, [x.1])) := List.mem_map.2 ⟨(bs[i], i), List.mk_mem_zipIdx_iff_getElem?.2 (List.getElem?_eq_getElem hi), rfl⟩
  have hread := storeRead_storeWrites (k := k) hmem (fun v hv => ?_) s
  · simp only [State.storeRead, memRead_eq, List.length_singleton, List.range_one, List.map_cons, List.map_nil, List.cons.injEq, and_true, Nat.add_zero] at hread
    rwa [List.getD_eq_getElem _ _ hi]
  · obtain ⟨⟨b, j⟩, hj, rfl⟩ := List.mem_map.1 hv
    by_cases hij : j = i
    · subst hij
      obtain rfl : bs[j] = b := Option.some.inj ((List.getElem?_eq_getElem hi).symm.trans (List.mk_mem_zipIdx_iff_getElem?.1 hj))
      exact .inl rfl
    · have hne : f j ≠ f i := fun h => hij (hf j i h)
      exact .inr (by simp only [List.length_singleton]; omega)

/-- A byte at none of the places stays. -/
theorem memByte_unscattered (s : State) (k : Nat) {f : Nat → Nat} {bs : List Nat} {x : Nat} (hx : ∀ i, i < bs.length → x ≠ k * storeSize + f i) :
    memByte (s.storeWrites k (bs.zipIdx.map (fun x => (f x.2, [x.1])))).store x = memByte s.store x := by
  refine memByte_storeWrites (fun w hw => ?_) s
  obtain ⟨⟨b, j⟩, hj, rfl⟩ := List.mem_map.1 hw
  have hne := hx j (by simpa using (List.mem_zipIdx hj).2.1)
  simp only [List.length_singleton]
  omega

/-- The bytes of a request land where the sequence puts them, and no other byte changes. -/
theorem memByte_landBytes (s : State) (k n off : Nat) (bs : List Nat) :
    (∀ i, i < bs.length → memByte (s.landBytes k n off bs).store (k * storeSize + (s.xferBase k n + s.landAt k n (off - (s.strm k n).shareOff + i))) = bs.getD i 0 % 256) ∧
    ∀ x, (∀ i, i < bs.length → x ≠ k * storeSize + (s.xferBase k n + s.landAt k n (off - (s.strm k n).shareOff + i))) →
      memByte (s.landBytes k n off bs).store x = memByte s.store x := by
  by_cases ht : s.flag STR_CFG_TRANS k n = true
  · have hland : s.landBytes k n off bs = s.storeWrites k (bs.zipIdx.map (fun x => (s.xferBase k n + s.landAt k n (off - (s.strm k n).shareOff + x.2), [x.1]))) := by
      rw [State.landBytes, if_pos ht, State.storeWrites, List.foldl_map]
    rw [hland]
    exact ⟨fun i hi => memByte_scattered s k
      (f := fun i => s.xferBase k n + s.landAt k n (off - (s.strm k n).shareOff + i)) (fun i j h => Nat.add_left_cancel (s.landAt_injective k n (Nat.add_left_cancel h))) bs hi,
      fun x hx => memByte_unscattered s k (f := fun i => s.xferBase k n + s.landAt k n (off - (s.strm k n).shareOff + i)) hx⟩
  · have hat : ∀ o, s.landAt k n o = o := fun o => if_neg ht
    have hland : s.landBytes k n off bs = s.storeWrite k (s.xferBase k n + (off - (s.strm k n).shareOff)) bs := by rw [State.landBytes, if_neg ht]
    rw [hland]
    simp only [hat]
    refine ⟨fun i hi => (memByte_memWrite _ _ _ _).trans ?_, fun x hx => (memByte_memWrite _ _ _ _).trans (if_neg fun hin => ?_)⟩
    · rw [if_pos (by omega)]
      congr 2
      omega
    · exact hx (x - (k * storeSize + (s.xferBase k n + (off - (s.strm k n).shareOff)))) (by omega) (by omega)

/-- Bytes that land change the coach store alone. -/
theorem State.landBytes_eq (s : State) (k n off : Nat) (bs : List Nat) : s.landBytes k n off bs = { s with store := (s.landBytes k n off bs).store } := by
  unfold State.landBytes
  dsimp only
  split
  · have h := s.storeWrites_eq k (bs.zipIdx.map (fun x => (s.xferBase k n + s.landAt k n (off - (s.strm k n).shareOff + x.2), [x.1])))
    rwa [State.storeWrites, List.foldl_map] at h
  · rfl

/-! ### Settling -/

/-- What settling a stream can change: its state, its bookkeeping and the reports. -/
structure Settles (k n : Nat) (s t : State) : Prop where
  frame : CoachFrame k [(STR_STATE_STATE, k, n)] s t
  store : t.store = s.store
  reqs : (t.coach k).reqs = (s.coach k).reqs

namespace Settles

variable {k n : Nat} {s t u : State}

/-- Nothing settles. -/
theorem refl (k n : Nat) (s : State) : Settles k n s s := ⟨.refl k _ s, rfl, rfl⟩

/-- One after another. -/
theorem trans (a : Settles k n s t) (b : Settles k n t u) : Settles k n s u := ⟨a.frame.trans b.frame, b.store.trans a.store, b.reqs.trans a.reqs⟩

/-- The state of the stream changes. -/
theorem setState (s : State) (hk : k < 2048) (v : Nat) : Settles k n s (s.setFld STR_STATE_STATE k n v) :=
  ⟨(OnlyCoach.setFld s k v (by decide +kernel) hk List.mem_cons_self).frame, rfl, rfl⟩

/-- Its bookkeeping changes. -/
theorem updStrm (s : State) (g : Strm → Strm) : Settles k n s (s.updStrm k n g) := ⟨(OnlyCoach.updStrm s k n g).frame, rfl, s.reqs_updStrm k n g⟩

/-- It is reported. -/
theorem reportStream (s : State) (code va : Nat) : Settles k n s (s.reportStream k n code va) := ⟨.report s _, rfl, rfl⟩

/-- It requests again. -/
theorem streamResumeNow (s : State) (hk : k < 2048) : Settles k n s (s.streamResumeNow k n) := (setState s hk 1).trans (.updStrm _ _)

/-- The stream settles, whatever its state. -/
theorem settleStream (s : State) (hk : k < 2048) : Settles k n s (s.settleStream k n) := by
  have hstop : Settles k n s (s.streamStopped k n) := (setState s hk 0).trans (.updStrm _ _)
  unfold State.settleStream
  dsimp only
  split
  · exact .refl k n s
  split
  · split
    · exact hstop.trans (.reportStream _ _ _)
    · exact hstop
  split
  · split
    · exact ((setState s hk _).trans (.reportStream _ _ _)).trans (.streamResumeNow _ hk)
    · exact ((setState s hk _).trans (.reportStream _ _ _)).trans (.updStrm _ _)
  split
  · exact setState s hk 5
  · exact .refl k n s

end Settles

/-- A running stream settles in RUN or DONE, unreported. -/
theorem State.settleStream_running {s : State} {k n : Nat} (hst : s.fld STR_STATE_STATE k n = 1) (hs : (s.strm k n).stopping = false) :
    s.settleStream k n = s ∨ s.settleStream k n = s.setFld STR_STATE_STATE k n 5 := by
  unfold State.settleStream
  dsimp only
  rw [hst, hs]
  split
  · exact .inl rfl
  rw [if_neg (by decide), if_neg (by decide)]
  split
  · exact .inr rfl
  · exact .inl rfl

/-! ### The last response of a request (R255, R260) -/

/-- A response that the streams take: of an outstanding request in one direction, or, for reads, of none. -/
def State.streamTakes (s : State) (k : Nat) (write : Bool) (p : Packet) : Bool :=
  decide (p.tag < 1024) && p.op != 3 && (match (s.coach k).reqOf p with | some r => r.write == write | none => !write)

/-- A response counts for its request. -/
theorem State.streamResponse_of_takes {s s1 : State} {k : Nat} {write : Bool} {p : Packet} {r : SReq} (h : Takes s (coachUnit k) (s.streamTakes k write) p s1)
    (hr : (s.coach k).reqOf p = some r) : s.streamResponse k write = (s1.countResponse k r p).finishReq k r.id := by
  unfold State.streamResponse
  dsimp only
  split
  · next hnone => exact absurd (Eq.trans (Eq.symm h) hnone) (by simp)
  · next p' s' hsome =>
    obtain ⟨rfl, rfl⟩ := Prod.mk.inj (Option.some.inj (Eq.trans (Eq.symm h) hsome))
    rw [hr]

/-- A packet taken leaves all but what travels. -/
theorem Takes.eq_net {s t : State} {u : Nat} {q : Packet → Bool} {p : Packet} (h : Takes s u q p t) : t = { s with net := t.net } := by
  unfold Takes State.takeInbox at h
  dsimp only at h
  split at h
  · exact absurd h (by simp)
  · obtain ⟨-, rfl⟩ := Prod.mk.inj (Option.some.inj h)
    rfl

/-- What happens to a coach once a packet was taken. -/
theorem Takes.onlyCoach {s s1 t : State} {u k : Nat} {q : Packet → Bool} {p : Packet} {L : List (Fld × Nat × Nat)} (h : Takes s u q p s1) (a : CoachFrame k L s1 t) :
    OnlyCoach k L { s with store := t.store, net := s1.net, reports := t.reports } t := by
  obtain ⟨net, rfl⟩ : ∃ net, s1 = { s with net := net } := ⟨_, h.eq_net⟩
  exact a

/-- The request of a response is one of the coach's. -/
theorem CoachS.mem_of_reqOf {c : CoachS} {p : Packet} {r : SReq} (h : c.reqOf p = some r) : r ∈ c.reqs := List.mem_of_find?_eq_some h

/-- A request with one more response. -/
def SReq.answered (p : Packet) (x : SReq) : SReq :=
  { x with left := x.left - 1, got := insertPiece ⟨p.tag % 4, p.data⟩ x.got, code := if p.errCode != 0 then p.errCode else x.code }

/-- The requests of a coach with one that has one more response. -/
def answeredReqs (id : Nat) (p : Packet) (l : List SReq) : List SReq := l.map (fun x => if x.id == id then x.answered p else x)

/-- The request answered is found by its number. -/
theorem find?_answeredReqs {l : List SReq} {r : SReq} (p : Packet) (hr : r ∈ l) (hone : ∀ x ∈ l, x.id = r.id → x = r) :
    (answeredReqs r.id p l).find? (fun x => x.id == r.id) = some (r.answered p) := by
  have hsame : ((fun x : SReq => x.id == r.id) ∘ fun x => if x.id == r.id then x.answered p else x) = fun x => x.id == r.id := funext fun x => by
    dsimp only [Function.comp]
    split <;> rfl
  have hfind : l.find? (fun x => x.id == r.id) = some r := by
    cases h : l.find? (fun x => x.id == r.id) with
    | none => exact absurd (List.find?_eq_none.1 h r hr) (by simp)
    | some x => rw [hone x (List.mem_of_find?_eq_some h) (by simpa using List.find?_some h)]
  rw [answeredReqs, List.find?_map, hsame, hfind, Option.map_some, if_pos (beq_self_eq_true r.id)]

/-- A request leaves its coach. -/
def State.withoutReq (s : State) (k id : Nat) : State := s.updCoach k (fun c => { c with reqs := c.reqs.filter (fun x => x.id != id) })

/-- The requests that stay when one is answered and leaves. -/
theorem mem_of_answered_filter {id : Nat} {p : Packet} {l : List SReq} {x : SReq} (h : x ∈ (answeredReqs id p l).filter (fun x => x.id != id)) : x ∈ l ∧ x.id ≠ id := by
  obtain ⟨hx, hne⟩ := List.mem_filter.1 h
  obtain ⟨y, hy, rfl⟩ := List.mem_map.1 hx
  have hid : (if y.id == id then y.answered p else y).id ≠ id := by simpa using hne
  split at hid
  · next hyid => exact absurd (beq_iff_eq.1 hyid) hid
  · next hyid =>
    rw [if_neg hyid]
    exact ⟨hy, hid⟩

/-- Where a request ends: it is gone and its bytes are in place. -/
def State.reqEnded (s : State) (k : Nat) (r : SReq) : State :=
  (if r.write then s.withoutReq k r.id else (s.withoutReq k r.id).landBytes k r.n r.off ((r.got.map (·.data)).flatten.take r.len)).updStrm k r.n
    (fun t => { t with landed := t.landed + r.len })

/-- A request answered in full and without error ends, and its stream settles. -/
theorem State.finishReq_ends {s : State} {k : Nat} {r : SReq} (hr : (s.coach k).reqs.find? (fun x => x.id == r.id) = some r) (hleft : r.left = 0)
    (hcode : r.code = 0) (hstale : r.stale = false) : s.finishReq k r.id = (s.reqEnded k r).settleStream k r.n := by
  rw [State.finishReq, hr]
  simp only [hleft, hcode, hstale]
  rfl

/-- The last good response of a request ends it. -/
theorem streamResponse_last {s s1 : State} {k : Nat} {write : Bool} {p : Packet} {r : SReq} (h : Takes s (coachUnit k) (s.streamTakes k write) p s1)
    (hr : (s.coach k).reqOf p = some r) (hleft : r.left = 1) (hcode : r.code = 0) (hstale : r.stale = false) (herr : p.errCode = 0)
    (hone : ∀ x ∈ (s.coach k).reqs, x.id = r.id → x = r) :
    s.streamResponse k write = ((s1.countResponse k r p).reqEnded k (r.answered p)).settleStream k r.n := by
  have hcoach : s1.coach k = s.coach k := by rw [h.eq_net]; rfl
  have hreqs : ((s1.countResponse k r p).coach k).reqs = answeredReqs r.id p (s.coach k).reqs := by
    rw [State.countResponse, State.coach_updCoach_same, hcoach]
    rfl
  rw [State.streamResponse_of_takes h hr]
  refine State.finishReq_ends (r := r.answered p) ?_ ?_ ?_ hstale
  · rw [hreqs]
    exact find?_answeredReqs p (CoachS.mem_of_reqOf hr) hone
  · rw [SReq.answered, hleft]
  · simp [SReq.answered, hcode, herr]

/-- The requests that stay once one has ended. -/
theorem mem_reqEnded {s : State} {k : Nat} {r : SReq} {p : Packet} {x : SReq} (h : x ∈ (((s.countResponse k r p).reqEnded k (r.answered p)).coach k).reqs) :
    x ∈ (s.coach k).reqs ∧ x.id ≠ r.id := by
  have hgone : (((s.countResponse k r p).reqEnded k (r.answered p)).coach k).reqs = (((s.countResponse k r p).withoutReq k r.id).coach k).reqs := by
    rw [State.reqEnded, State.reqs_updStrm]
    split
    · rfl
    · rw [State.landBytes_eq]
      rfl
  rw [hgone, State.withoutReq, State.coach_updCoach_same, State.countResponse, State.coach_updCoach_same] at h
  exact mem_of_answered_filter h

/-- A request that ends changes its coach and the coach store. -/
theorem CoachFrame.reqEnded {L : List (Fld × Nat × Nat)} (s : State) (k : Nat) (r : SReq) : CoachFrame k L s (s.reqEnded k r) := by
  refine CoachFrame.trans ?_ (OnlyCoach.updStrm _ k r.n _).frame
  split
  · exact (OnlyCoach.updCoach s k _).frame
  · refine CoachFrame.trans (t := s.withoutReq k r.id) (OnlyCoach.updCoach s k _).frame ?_
    rw [State.landBytes_eq]
    exact .refl k L _

/-- STREAM_DATA_RETURN with the last good response of a request. -/
theorem streamDataReturn_lands {k : Coach} {p : Packet} {r : SReq} {data : List Nat} {s s1 : State} (h : Takes s (coachUnit k) (s.streamTakes k false) p s1)
    (hr : (s.coach k).reqOf p = some r) (hw : r.write = false) (hleft : r.left = 1) (hcode : r.code = 0) (hstale : r.stale = false) (herr : p.errCode = 0)
    (hone : ∀ x ∈ (s.coach k).reqs, x.id = r.id → x = r) (hdata : data = ((insertPiece ⟨p.tag % 4, p.data⟩ r.got).map (·.data)).flatten.take r.len) :
    ∃ t, exec (.streamDataReturn k) s = .next t ∧
      (∀ i, i < data.length → memByte t.store (k * storeSize + (s.xferBase k r.n + s.landAt k r.n (r.off - (s.strm k r.n).shareOff + i))) = data.getD i 0 % 256) ∧
      (∀ x, (∀ i, i < data.length → x ≠ k * storeSize + (s.xferBase k r.n + s.landAt k r.n (r.off - (s.strm k r.n).shareOff + i))) → memByte t.store x = memByte s.store x) ∧
      (∀ x ∈ (t.coach k).reqs, x ∈ (s.coach k).reqs ∧ x.id ≠ r.id) ∧
      OnlyCoach k [(STR_STATE_STATE, k, r.n)] { s with store := t.store, net := s1.net, reports := t.reports } t := by
  have hs1 := h.eq_net
  have hsettle := Settles.settleStream (n := r.n) ((s1.countResponse k r p).reqEnded k (r.answered p)) (k.isLt.trans (by decide : 96 < 2048))
  have hframe := ((OnlyCoach.updCoach s1 k _).frame.trans (CoachFrame.reqEnded (s1.countResponse k r p) k (r.answered p))).trans hsettle.frame
  have hcoach : s1.coach k = s.coach k := by rw [hs1]; rfl
  have hstrm : ((s1.countResponse k r p).withoutReq k r.id).strm k r.n = s.strm k r.n := by
    rw [State.strm, State.withoutReq, State.coach_updCoach_same, State.countResponse, State.coach_updCoach_same, hcoach, State.strm]
  have hstore : ((s1.countResponse k r p).reqEnded k (r.answered p)).store = (((s1.countResponse k r p).withoutReq k r.id).landBytes k r.n r.off data).store := by
    rw [hdata, State.reqEnded, if_neg (by simp [SReq.answered, hw])]
    rfl
  obtain ⟨hin, hout⟩ := memByte_landBytes ((s1.countResponse k r p).withoutReq k r.id) k r.n r.off data
  rw [← hstore, ← hsettle.store, hstrm] at hin hout
  have hbase : ((s1.countResponse k r p).withoutReq k r.id).xferBase k r.n = s.xferBase k r.n := by rw [hs1]; rfl
  have hat : ((s1.countResponse k r p).withoutReq k r.id).landAt k r.n = s.landAt k r.n := by rw [hs1]; rfl
  have hbytes : ((s1.countResponse k r p).withoutReq k r.id).store = s.store := by rw [hs1]; rfl
  rw [hbase, hat] at hin hout
  rw [hbytes] at hout
  refine ⟨_, congrArg ok (streamResponse_last h hr hleft hcode hstale herr hone), hin, hout, fun x hx => ?_, ?_⟩
  · rw [hsettle.reqs] at hx
    obtain ⟨hmem, hne⟩ := mem_reqEnded hx
    exact ⟨hcoach ▸ hmem, hne⟩
  · exact h.onlyCoach hframe

/-- STREAM_WRITE_ACK with the last good answer of a request. -/
theorem streamWriteAck_counts {k : Coach} {p : Packet} {r : SReq} {s s1 : State} (h : Takes s (coachUnit k) (s.streamTakes k true) p s1)
    (hr : (s.coach k).reqOf p = some r) (hw : r.write = true) (hleft : r.left = 1) (hcode : r.code = 0) (hstale : r.stale = false) (herr : p.errCode = 0)
    (hone : ∀ x ∈ (s.coach k).reqs, x.id = r.id → x = r) (hst : s.fld STR_STATE_STATE k r.n = 1) (hstop : (s.strm k r.n).stopping = false) :
    ∃ t, exec (.streamWriteAck k) s = .next t ∧ (t.strm k r.n).landed = (s.strm k r.n).landed + r.len ∧
      (∀ x ∈ (t.coach k).reqs, x ∈ (s.coach k).reqs ∧ x.id ≠ r.id) ∧ OnlyCoach k [(STR_STATE_STATE, k, r.n)] { s with net := s1.net } t := by
  have hs1 := h.eq_net
  have hcoach : s1.coach k = s.coach k := by rw [hs1]; rfl
  have hended : (s1.countResponse k r p).reqEnded k (r.answered p) =
      ((s1.countResponse k r p).withoutReq k r.id).updStrm k r.n (fun t => { t with landed := t.landed + r.len }) := by
    rw [State.reqEnded, if_pos (show (r.answered p).write = true from hw)]
    rfl
  have hstrm : ((s1.countResponse k r p).reqEnded k (r.answered p)).strm k r.n = { s.strm k r.n with landed := (s.strm k r.n).landed + r.len } := by
    rw [hended, State.strm_updStrm_same, State.strm, State.withoutReq, State.coach_updCoach_same, State.countResponse, State.coach_updCoach_same, hcoach, State.strm]
  have hfld : ((s1.countResponse k r p).reqEnded k (r.answered p)).fld STR_STATE_STATE k r.n = 1 := by
    rw [hended, ← hst, hs1]
    rfl
  have honly : OnlyCoach k [(STR_STATE_STATE, k, r.n)] { s with net := s1.net } ((s1.countResponse k r p).reqEnded k (r.answered p)) := by
    rw [hended, ← hs1]
    exact ((OnlyCoach.updCoach s1 k _).trans (.updCoach _ k _)).trans (.updStrm _ k _ _)
  have hgone : ∀ x ∈ (((s1.countResponse k r p).reqEnded k (r.answered p)).coach k).reqs, x ∈ (s.coach k).reqs ∧ x.id ≠ r.id := fun x hx => hcoach ▸ mem_reqEnded hx
  have hexec : exec (.streamWriteAck k) s = .next (((s1.countResponse k r p).reqEnded k (r.answered p)).settleStream k r.n) :=
    congrArg ok (streamResponse_last h hr hleft hcode hstale herr hone)
  refine ⟨_, hexec, ?_⟩
  rcases State.settleStream_running hfld (by rw [hstrm]; exact hstop) with hs | hs <;> rw [hs]
  · exact ⟨congrArg Strm.landed hstrm, hgone, honly⟩
  · exact ⟨congrArg Strm.landed hstrm, hgone, honly.trans (.setFld _ k 5 (by decide +kernel) (k.isLt.trans (by decide)) List.mem_cons_self)⟩

/-! ### STREAM_REQUEST_FAULT (R268) -/

/-- The fields that a failed request of a running stream records. -/
def reqFaultFlds (r : SReq) : List (Fld × Nat) := [(STR_FAULTVA_FAULTVA, r.va), (STR_STATE_FCODE, r.code), (STR_STATE_WRITE, b2n r.write), (STR_POS_POS, r.off)]

/-- The indices of those fields. -/
theorem reqFaultFlds_idx (r : SReq) : (reqFaultFlds r).map (·.1.idx % 1024) =
    [STR_FAULTVA_FAULTVA, STR_STATE_FCODE, STR_STATE_WRITE, STR_POS_POS].map (·.idx % 1024) := rfl

/-- The stream after its request has failed, HALTING. -/
def State.reqHalted (s : State) (k : Nat) (r : SReq) : State :=
  (((s.withoutReq k r.id).setFlds k r.n (reqFaultFlds r)).updStrm k r.n (fun t => { t with failed := some r.off })).setFld STR_STATE_STATE k r.n 2

/-- The first failed request of a running stream halts it. -/
theorem State.requestFails_running {s : State} {k : Nat} {r : SReq} (hst : s.fld STR_STATE_STATE k r.n = 1) (hf : (s.strm k r.n).failed = none)
    (hs : (s.strm k r.n).stopping = false) : s.requestFails k r r.code = (s.reqHalted k r).settleStream k r.n := by
  have hfld : ((s.withoutReq k r.id).setFlds k r.n (reqFaultFlds r)).fld STR_STATE_STATE k r.n = 1 :=
    (State.fld_setFlds_idx _ k r.n k r.n (by rw [reqFaultFlds_idx]; decide)).trans hst
  rw [State.requestFails, hf, hs]
  simp only [if_true, State.fld_updStrm]
  rw [if_pos]
  · rfl
  · rw [Bool.and_eq_true, beq_iff_eq]
    exact ⟨hfld, rfl⟩

/-- A halted stream with no request outstanding enters FAULTED or ERROR and is reported. -/
theorem State.settleStream_halted {s : State} {k n : Nat} (hb : s.streamBusy k n = false) (hst : s.fld STR_STATE_STATE k n = 2)
    (hs : (s.strm k n).stopping = false) (hg : (s.strm k n).goHeld = false) : s.settleStream k n =
      ((s.setFld STR_STATE_STATE k n (if s.fld STR_STATE_FCODE k n = 1 ∨ s.fld STR_STATE_FCODE k n = 4 then 3 else 4)).reportStream k n (s.fld STR_STATE_FCODE k n)
        (s.fld STR_POS_POS k n)).updStrm k n (fun t => { t with goHeld := false }) := by
  simp [State.settleStream, hb, hst, hs, hg]

/-- What a halting stream shows: what its request recorded, and HALTING. -/
theorem State.reqHalted_gives (s : State) {k : Nat} (r : SReq) :
    (∀ f v, (f, v) ∈ reqFaultFlds r → (s.reqHalted k r).fld f k r.n = v % 2 ^ f.w) ∧ (s.reqHalted k r).fld STR_STATE_STATE k r.n = 2 ∧
    ((s.reqHalted k r).coach k).reqs = (s.coach k).reqs.filter (fun x => x.id != r.id) ∧ (s.reqHalted k r).strm k r.n = { s.strm k r.n with failed := some r.off } := by
  have hstate : STR_STATE_STATE.idx % 1024 ∉ (reqFaultFlds r).map (·.1.idx % 1024) := by rw [reqFaultFlds_idx]; decide
  refine ⟨fun f v hf => ?_, State.fld_setFld_same _ STR_STATE_STATE k r.n 2, ?_, ?_⟩
  · have hne : f.idx % 1024 ≠ STR_STATE_STATE.idx % 1024 := fun h => hstate (h ▸ List.mem_map_of_mem (f := (·.1.idx % 1024)) hf)
    exact (State.fld_setFld_idx _ k r.n k r.n 2 hne).trans (State.fld_setFlds_mem _ k r.n (by rw [reqFaultFlds_idx]; decide) hf)
  · rw [State.reqHalted, State.coach_setFld, State.reqs_updStrm, State.coach_setFlds, State.withoutReq, State.coach_updCoach_same]
  · rw [State.reqHalted, State.strm_setFld, State.strm_updStrm_same, State.strm, State.coach_setFlds, State.withoutReq, State.coach_updCoach_same, State.strm]

/-- The fields of a stream that a failed request stops. -/
def haltFlds (k n : Nat) : List (Fld × Nat × Nat) :=
  [(STR_FAULTVA_FAULTVA, k, n), (STR_STATE_FCODE, k, n), (STR_STATE_WRITE, k, n), (STR_POS_POS, k, n), (STR_STATE_STATE, k, n)]

/-- A request that fails changes its coach and the stream's fields. -/
theorem OnlyCoach.reqHalted (s : State) {k : Nat} (hk : k < 2048) (r : SReq) : OnlyCoach k (haltFlds k r.n) s (s.reqHalted k r) := by
  have hrec : ∀ x ∈ reqFaultFlds r, x.1 ∈ fldTable ∧ (x.1, k, r.n) ∈ haltFlds k r.n := by
    simp only [reqFaultFlds, List.forall_mem_cons]
    exact ⟨⟨by decide +kernel, by simp [haltFlds]⟩, ⟨by decide +kernel, by simp [haltFlds]⟩, ⟨by decide +kernel, by simp [haltFlds]⟩, ⟨by decide +kernel, by simp [haltFlds]⟩, by simp⟩
  exact (((OnlyCoach.updCoach s k _).trans ((OnlyFields.setFlds (s.withoutReq k r.id) hk hrec).onlyCoach k)).trans (.updStrm _ k r.n _)).trans
    (.setFld _ k 2 (by decide +kernel) hk (by simp [haltFlds]))

/-- The stream once its request has failed and none is outstanding: FAULTED where its code lets it resume, and otherwise in ERROR. -/
def State.reqFaulted (s : State) (k : Nat) (r : SReq) : State :=
  (s.reqHalted k r).setFld STR_STATE_STATE k r.n
    (if (s.reqHalted k r).fld STR_STATE_FCODE k r.n = 1 ∨ (s.reqHalted k r).fld STR_STATE_FCODE k r.n = 4 then 3 else 4)

/-- What a faulted stream shows. -/
theorem State.reqFaulted_gives (s : State) {k : Nat} (hk : k < 2048) (r : SReq) :
    (∀ f v, (f, v) ∈ reqFaultFlds r → (s.reqFaulted k r).fld f k r.n = v % 2 ^ f.w) ∧
    (r.code % 2 ^ STR_STATE_FCODE.w = r.code → (s.reqFaulted k r).fld STR_STATE_STATE k r.n = if r.code = 1 ∨ r.code = 4 then 3 else 4) ∧
    (s.reqFaulted k r).boundCtx k = s.boundCtx k ∧ OnlyCoach k (haltFlds k r.n) s (s.reqFaulted k r) := by
  obtain ⟨hrec, -, -, -⟩ := s.reqHalted_gives (k := k) r
  have hkept : ∀ f, f.idx % 1024 ∉ STR_STATE_STATE.idx % 1024 :: (reqFaultFlds r).map (·.1.idx % 1024) → (s.reqFaulted k r).fld f k 0 = s.fld f k 0 := fun f hf => by
    obtain ⟨hs, hr⟩ := not_or.1 (fun h => hf (List.mem_cons.2 h))
    exact (State.fld_setFld_idx _ k 0 k r.n _ hs).trans ((State.fld_setFld_idx _ k 0 k r.n 2 hs).trans (State.fld_setFlds_idx _ k 0 k r.n hr))
  refine ⟨fun f v hf => ?_, fun hfits => ?_, State.boundCtx_of_fld (hkept _ ?_) (hkept _ ?_),
    (OnlyCoach.reqHalted s hk r).trans (.setFld (g := STR_STATE_STATE) _ k _ (by decide +kernel) hk (by simp [haltFlds]))⟩
  · have hne : STR_STATE_STATE.idx % 1024 ∉ (reqFaultFlds r).map (·.1.idx % 1024) := by rw [reqFaultFlds_idx]; decide
    exact (State.fld_setFld_idx _ k r.n k r.n _ (fun h => hne (h ▸ List.mem_map_of_mem (f := (·.1.idx % 1024)) hf))).trans (hrec f v hf)
  · refine (State.fld_setFld_same _ STR_STATE_STATE k r.n _).trans ?_
    rw [hrec STR_STATE_FCODE r.code (by simp [reqFaultFlds]), hfits]
    split <;> rfl
  · rw [reqFaultFlds_idx]; decide
  · rw [reqFaultFlds_idx]; decide

/-- The reports of two states set alike. -/
theorem OnlyCoach.withReports {k : Nat} {L : List (Fld × Nat × Nat)} {s t : State} (a : OnlyCoach k L s t) (rs : List Report) :
    OnlyCoach k L { s with reports := rs } { t with reports := rs } := by
  obtain ⟨ht, hf, hc⟩ := a
  refine ⟨?_, hf, hc⟩
  rw [ht]

/-- The failed request of a running stream with no other ends in FAULTED or ERROR, reported. -/
theorem State.requestFails_alone {k : Nat} {r : SReq} {s : State} (hreqs : (s.coach k).reqs = [r]) (hst : s.fld STR_STATE_STATE k r.n = 1)
    (hf : (s.strm k r.n).failed = none) (hstop : (s.strm k r.n).stopping = false) (hg : (s.strm k r.n).goHeld = false) :
    s.requestFails k r r.code = ((s.reqFaulted k r).reportStream k r.n ((s.reqHalted k r).fld STR_STATE_FCODE k r.n) ((s.reqHalted k r).fld STR_POS_POS k r.n)).updStrm
      k r.n (fun t => { t with goHeld := false }) := by
  obtain ⟨-, hstate, hgone, hstrm⟩ := s.reqHalted_gives (k := k) r
  rw [State.requestFails_running hst hf hstop]
  refine State.settleStream_halted ?_ hstate (by rw [hstrm]; exact hstop) (by rw [hstrm]; exact hg)
  rw [State.streamBusy, hgone, hreqs]
  simp

/-- Neither a report nor a change of a stream's bookkeeping writes a register. -/
theorem State.fld_withReport_updStrm (s : State) (e : Report) (k n : Nat) (g : Strm → Strm) (f : Fld) (u i : Nat) :
    ((s.withReport e).updStrm k n g).fld f u i = s.fld f u i := rfl

/-- STREAM_REQUEST_FAULT of a running stream with no other request. -/
theorem streamRequestFault_halts {k : Coach} {r : SReq} {s : State} (hreqs : (s.coach k).reqs = [r]) (hcode : r.code ≠ 0) (hleft : r.left = 0) (hstale : r.stale = false)
    (hst : s.fld STR_STATE_STATE k r.n = 1) (hf : (s.strm k r.n).failed = none) (hstop : (s.strm k r.n).stopping = false) (hg : (s.strm k r.n).goHeld = false) :
    ∃ t e, exec (.streamRequestFault k) s = .next t ∧ t.fld STR_FAULTVA_FAULTVA k r.n = r.va % 2 ^ STR_FAULTVA_FAULTVA.w ∧ t.fld STR_STATE_FCODE k r.n = r.code % 2 ^ STR_STATE_FCODE.w ∧
      t.fld STR_POS_POS k r.n = r.off % 2 ^ STR_POS_POS.w ∧ t.fld STR_STATE_WRITE k r.n = b2n r.write ∧
      (r.code % 2 ^ STR_STATE_FCODE.w = r.code → t.fld STR_STATE_STATE k r.n = (if r.code = 1 ∨ r.code = 4 then 3 else 4) ∧ e.code = r.code) ∧
      t.reports = s.reports ++ [e] ∧ e.unit = coachUnit k ∧ e.ctx = s.boundCtx k ∧
      OnlyCoach k [(STR_FAULTVA_FAULTVA, k, r.n), (STR_STATE_FCODE, k, r.n), (STR_STATE_WRITE, k, r.n), (STR_POS_POS, k, r.n), (STR_STATE_STATE, k, r.n)]
        { s with reports := t.reports } t := by
  obtain ⟨hrec, hstate, hbound, honly⟩ := s.reqFaulted_gives (k.isLt.trans (by decide) : k.val < 2048) r
  obtain ⟨e, hrep, hunit, hecode, hctx, -⟩ := (s.reqFaulted k r).exists_reportStream k r.n ((s.reqHalted k r).fld STR_STATE_FCODE k r.n) ((s.reqHalted k r).fld STR_POS_POS k r.n)
  have hexec : exec (.streamRequestFault k) s = .next (((s.reqFaulted k r).withReport e).updStrm k r.n (fun t => { t with goHeld := false })) := by
    have hfind : (s.coach k).reqs.find? (fun r => r.code != 0 && r.left == 0 && !r.stale) = some r := by simp [hreqs, hcode, hleft, hstale]
    rw [← hrep, ← State.requestFails_alone hreqs hst hf hstop hg]
    change execStreamRequestFault k s = _
    rw [execStreamRequestFault, hfind]
    rfl
  have hcodefld : (s.reqHalted k r).fld STR_STATE_FCODE k r.n = r.code % 2 ^ STR_STATE_FCODE.w := (s.reqHalted_gives r).1 _ _ (by simp [reqFaultFlds])
  have hreports : (s.reqFaulted k r).reports = s.reports := by rw [honly.1]
  have hframe : OnlyCoach k (haltFlds k r.n) { s with reports := ((s.reqFaulted k r).withReport e).reports }
      (((s.reqFaulted k r).withReport e).updStrm k r.n (fun t => { t with goHeld := false })) := (honly.withReports _).trans (.updStrm _ k r.n _)
  have hfld := State.fld_withReport_updStrm (s.reqFaulted k r) e k r.n (fun t => { t with goHeld := false })
  have hwrite : b2n r.write % 2 ^ STR_STATE_WRITE.w = b2n r.write := by cases r.write <;> rfl
  refine ⟨_, e, hexec, (hfld _ _ _).trans (hrec _ r.va (by simp [reqFaultFlds])), (hfld _ _ _).trans (hrec _ r.code (by simp [reqFaultFlds])),
    (hfld _ _ _).trans (hrec _ r.off (by simp [reqFaultFlds])), ((hfld _ _ _).trans (hrec _ (b2n r.write) (by simp [reqFaultFlds]))).trans hwrite,
    fun hfits => ⟨(hfld _ _ _).trans (hstate hfits), hecode.trans (hcodefld.trans hfits)⟩, congrArg (· ++ [e]) hreports, hunit, hctx.trans hbound, hframe⟩

/-- Settles O29: a grant dispatches one request; an ended request lands or counts its bytes; a failed one halts its stream. -/
theorem streamsRequestAndLandTheirSequence : Obligations.StreamsRequestAndLandTheirSequence := by
  unfold Obligations.StreamsRequestAndLandTheirSequence
  exact ⟨fun _ _ _ _ _ _ hstill hstall hn hoff hva hlen => streamGrant_requests hstill hstall hn hoff hva hlen, fun _ _ h => exec_streamGrant_none h,
    fun _ _ _ _ _ _ h hr hw hleft hcode hstale herr hone hdata _ => streamDataReturn_lands h hr hw hleft hcode hstale herr hone hdata,
    fun _ _ _ _ _ h hr hw hleft hcode hstale herr hone hst hstop => streamWriteAck_counts h hr hw hleft hcode hstale herr hone hst hstop,
    fun _ _ _ hreqs hcode hleft hstale _ _ hst hf hstop hg => streamRequestFault_halts hreqs hcode hleft hstale hst hf hstop hg⟩

end Sys2Proof.Machine
end

section
/-! SUPPORT. What a DMA channel's work and the fabric ports' can change (R282 to R293, R492). -/

namespace Sys2Proof.Machine

/-! ### The channels -/

/-- A channel after a change of one. -/
theorem State.chan_updChan (s : State) (c ch x y : Nat) (f : Chan → Chan) : (s.updChan c ch f).chan x y = if x = c ∧ y = ch then f (s.chan c ch) else s.chan x y := by
  simp only [State.chan, State.updChan, mget_mupd]
  by_cases hx : x = c
  · subst hx
    by_cases hy : y = ch <;> simp [hy, mget_mupd]
  · simp [hx]

/-- The channel just changed. -/
@[simp] theorem State.chan_updChan_same (s : State) (c ch : Nat) (f : Chan → Chan) : (s.updChan c ch f).chan c ch = f (s.chan c ch) :=
  (s.chan_updChan c ch c ch f).trans (if_pos ⟨rfl, rfl⟩)

/-- Every other channel. -/
theorem State.chan_updChan_other (s : State) {c ch x y : Nat} (f : Chan → Chan) (h : (x, y) ≠ (c, ch)) : (s.updChan c ch f).chan x y = s.chan x y :=
  (s.chan_updChan c ch x y f).trans (if_neg fun ⟨hx, hy⟩ => h (by rw [hx, hy]))

/-- The channel last served stays when a channel changes. -/
theorem State.last_updChan (s : State) (c ch x : Nat) (f : Chan → Chan) : (mget {} (s.updChan c ch f).dma x).last = (mget {} s.dma x).last := by
  rw [State.updChan, mget_mupd]
  split
  · next hx => rw [hx]
  · rfl

/-- The channels go by the engines alone. -/
theorem State.chan_of_dma {s t : State} (h : t.dma = s.dma) (x y : Nat) : t.chan x y = s.chan x y := by rw [State.chan, h, State.chan]

/-- A fabric port answers or presents a packet. -/
theorem Serves.toFabric (s : State) (c n : Nat) (p : Packet) : Serves s (s.toFabric c n p) := .of_eq rfl

/-- Translations asked for one after another. -/
theorem Traffic.askAll (l : List (Nat × Nat)) (s : State) (u ctx : Nat) (write : Bool) : Traffic s (s.askAll u ctx write l).2 := by
  induction l generalizing s with
  | nil => exact .refl s
  | cons x l ih =>
    have hask := Traffic.ask s u ctx x.1 write
    rw [State.askAll]
    rcases hp : s.ask u ctx x.1 write with ⟨answer, s1⟩
    rw [hp] at hask
    cases answer with
    | here p => exact hask.trans (ih s1)
    | walking => exact hask
    | fault code => exact hask

/-- What the work of one channel can change: what serving can, and no other channel. -/
structure ChanServes (c ch : Nat) (s t : State) : Prop where
  serves : Serves s t
  other : ∀ x y, (x, y) ≠ (c, ch) → t.chan x y = s.chan x y
  last : ∀ x, (mget {} t.dma x).last = (mget {} s.dma x).last

namespace ChanServes

variable {c ch : Nat} {s t u : State}

/-- Nothing changes. -/
theorem refl (c ch : Nat) (s : State) : ChanServes c ch s s := ⟨.refl s, fun _ _ _ => rfl, fun _ => rfl⟩

/-- One after another. -/
theorem trans (a : ChanServes c ch s t) (b : ChanServes c ch t u) : ChanServes c ch s u :=
  ⟨a.serves.trans b.serves, fun _ _ h => (b.other _ _ h).trans (a.other _ _ h), fun x => (b.last x).trans (a.last x)⟩

/-- Nothing of the engines changes. -/
theorem of_dma (a : Serves s t) (h : t.dma = s.dma) : ChanServes c ch s t := ⟨a, fun x y _ => State.chan_of_dma h x y, fun _ => by rw [h]⟩

/-- Traffic. -/
theorem of_traffic (a : Traffic s t) : ChanServes c ch s t := of_dma (.of_traffic a) a.dma

/-- The channel changes. -/
theorem updChan (s : State) (c ch : Nat) (f : Chan → Chan) : ChanServes c ch s (s.updChan c ch f) :=
  ⟨.of_eq rfl, fun _ _ h => s.chan_updChan_other f h, fun x => s.last_updChan c ch x f⟩

/-- Register fields change. -/
theorem setFlds (s : State) (v i : Nat) (l : List (Fld × Nat)) : ChanServes c ch s (s.setFlds v i l) := by
  induction l generalizing s with
  | nil => exact refl c ch s
  | cons x l ih => exact (of_dma (.of_eq rfl) rfl : ChanServes c ch s (s.setFld x.1 v i x.2)).trans (ih _)

/-- Packets are sent, one for each element of a list. -/
theorem sendAll {α : Type} (l : List α) (v : State → α → Nat) (e : State → α → Nat) (p : State → α → Packet) (s : State) :
    ChanServes c ch s (l.foldl (fun t x => t.niSend (v t x) (e t x) (p t x)) s) := of_traffic (.foldl (fun t _ => .niSend t _ _ _) l s)

/-- Its descriptor ends with a code. -/
theorem chanFail (s : State) (c ch code : Nat) : ChanServes c ch s (s.chanFail c ch code) := updChan s c ch _

/-- Its registers are cleared. -/
theorem chanCleared (s : State) (c ch x y : Nat) : ChanServes x y s (s.chanCleared c ch) := of_dma (.of_eq rfl) rfl

/-- A unit reports. -/
theorem report (s : State) (r : Report) : ChanServes c ch s (s.report r) := of_dma (.of_traffic (.of_eq rfl)) rfl

/-- It stops outside a descriptor's end. -/
theorem ringFails (s : State) (c ch code va : Nat) : ChanServes c ch s (s.ringFails c ch code va) := by
  have hstop := ((updChan s c ch (fun _ => {})).trans (.setFlds _ c ch [(DMA_STATUS_LAST, code), (DMA_STATUS_STOPPED, 1), (DMA_STATUS_ACTIVE, 0), (DMA_CTL_ABORT, 0)])).trans
    (.of_traffic (.raise _ (some (s.chanCtx c ch)) 0 (s.fld DMA_CTL_VEC c ch)))
  unfold State.ringFails
  dsimp only
  split
  · exact (hstop.trans (.report _ _)).trans (.chanCleared _ c ch c ch)
  · exact hstop.trans (.report _ _)

/-- It writes its burst. -/
theorem chanWrite (s : State) (c ch : Nat) (d : Desc) (h : Chan) : ChanServes c ch s (s.chanWrite c ch d h) := by
  have hask := Traffic.ask s (dmaUnit c) (s.chanCtx c ch) (circAddr d.dcirc d.dlog2 d.dst h.done) true
  unfold State.chanWrite
  dsimp only
  rcases hp : s.ask (dmaUnit c) (s.chanCtx c ch) (circAddr d.dcirc d.dlog2 d.dst h.done) true with ⟨answer, s1⟩
  rw [hp] at hask
  cases answer with
  | here l => exact (((of_traffic hask).trans (.of_traffic (.lockAbortIf s1 _ 6))).trans (.updChan _ c ch _)).trans (.sendAll _ _ _ _ _)
  | walking => exact (of_traffic hask).trans (.updChan _ c ch _)
  | fault code => exact (of_traffic hask).trans (.chanFail _ c ch code)

/-- It starts its burst or goes on with it. -/
theorem chanGo (s : State) (c ch : Nat) : ChanServes c ch s (s.chanGo c ch) := by
  unfold State.chanGo
  dsimp only
  split
  · exact refl c ch s
  next d _ =>
  split
  · exact refl c ch s
  split
  · exact chanWrite s c ch d _
  split
  · exact chanWrite s c ch d _
  split
  · exact refl c ch s
  have hask := Traffic.askAll (readSpan (circAddr d.scirc d.slog2 d.src (s.chan c ch).done) (s.chan c ch).burst) s (dmaUnit c) (s.chanCtx c ch) false
  rcases hp : s.askAll (dmaUnit c) (s.chanCtx c ch) false (readSpan (circAddr d.scirc d.slog2 d.src (s.chan c ch).done) (s.chan c ch).burst) with ⟨⟨answer, ls⟩, s1⟩
  rw [hp] at hask
  cases answer with
  | here l => exact (((of_traffic hask).trans (.of_traffic (.lockAbortIf s1 _ 6))).trans (.updChan _ c ch _)).trans (.sendAll _ _ _ _ _)
  | walking => exact (of_traffic hask).trans (.updChan _ c ch _)
  | fault code => exact (of_traffic hask).trans (.chanFail _ c ch code)

/-- It reads its next descriptor. -/
theorem chanFetch (s : State) (c ch : Nat) : ChanServes c ch s (s.chanFetch c ch) := by
  have hask := Traffic.ask s (dmaUnit c) (s.chanCtx c ch) (s.ringVa c ch) false
  unfold State.chanFetch
  dsimp only
  rcases hp : s.ask (dmaUnit c) (s.chanCtx c ch) (s.ringVa c ch) false with ⟨answer, s1⟩
  rw [hp] at hask
  cases answer with
  | here l => exact (((of_traffic hask).trans (.of_traffic (.lockAbortIf s1 _ 6))).trans (.updChan _ c ch _)).trans (.of_traffic (.niSend _ _ _ _))
  | walking => exact (of_traffic hask).trans (.updChan _ c ch _)
  | fault code => exact (of_traffic hask).trans (.ringFails _ c ch code _)

/-- It writes its descriptor's status. -/
theorem chanStatus (s : State) (c ch : Nat) (d : Desc) (h : Chan) : ChanServes c ch s (s.chanStatus c ch d h) := by
  have hask := Traffic.ask s (dmaUnit c) (s.chanCtx c ch) (d.va + 0x30) true
  unfold State.chanStatus
  dsimp only
  rcases hp : s.ask (dmaUnit c) (s.chanCtx c ch) (d.va + 0x30) true with ⟨answer, s1⟩
  rw [hp] at hask
  cases answer with
  | here l => exact (((of_traffic hask).trans (.of_traffic (.lockAbortIf s1 _ 6))).trans (.updChan _ c ch _)).trans (.of_traffic (.niSend _ _ _ _))
  | walking => exact (of_traffic hask).trans (.updChan _ c ch _)
  | fault code => exact (of_traffic hask).trans (.ringFails _ c ch code _)

/-- Whatever of it waits tries again. -/
theorem chanRetry (s : State) (c ch : Nat) : ChanServes c ch s (s.chanRetry c ch) := by
  unfold State.chanRetry
  dsimp only
  split
  · exact chanFetch s c ch
  split
  · exact refl c ch s
  split
  · exact chanStatus s c ch _ _
  split
  · exact chanGo s c ch
  · exact refl c ch s

end ChanServes

/-! ### Everything that waits on a DMA engine's cache (R293, R492) -/

namespace Serves

/-- Every channel of a carriage tries again. -/
theorem chansGo (s : State) (c : Nat) : Serves s (s.chansGo c) := .foldl (fun t ch => (ChanServes.chanRetry t c ch).serves) _ s

/-- The walk that a channel waited for has failed. -/
theorem chanWalkFails (s : State) (c ch code va : Nat) : Serves s (s.chanWalkFails c ch code va) := by
  unfold State.chanWalkFails
  dsimp only
  split
  · exact (ChanServes.ringFails s c ch code va).serves
  · exact (ChanServes.chanFail s c ch code).serves

/-- In one of two cases. -/
theorem ite {s t u : State} {p : Prop} [Decidable p] (a : Serves s t) (b : Serves s u) : Serves s (if p then t else u) := by
  split
  · exact a
  · exact b

/-- Several fields are written. -/
theorem setFlds (s : State) (u i : Nat) (l : List (Fld × Nat)) : Serves s (s.setFlds u i l) := (ChanServes.setFlds (c := 0) (ch := 0) s u i l).serves

/-- A unit reports. -/
theorem report (s : State) (r : Report) : Serves s (s.report r) := .of_traffic (.of_eq rfl)

/-- A port takes a fault. -/
theorem portFault (s : State) (c n : Nat) (p : Packet) (code : Nat) : Serves s (s.portFault c n p code) := by
  unfold State.portFault
  dsimp only
  exact (ite ((toFabric s c n _).trans (.setFlds _ c n _)) ((toFabric s c n _).trans (.setFlds _ c n _))).trans (.report _ _)

/-- A port's memory request is sent. -/
theorem sendMemory (s : State) (u : Nat) (p : Packet) (l : Loc) : Serves s (s.sendMemory u p l) :=
  .foldl (fun t _ => (of_eq rfl : Serves t (t.updFab _ _)).trans (.of_traffic (.niSend _ _ _ _))) _ s

/-- A port's packets are sent. -/
theorem portGo (fuel : Nat) (s : State) (c n : Nat) : Serves s (s.portGo c n fuel) := by
  induction fuel generalizing s with
  | zero => exact refl s
  | succ fuel ih =>
    have hfab : ∀ (t : State) (f : FabS → FabS), Serves t (t.updFab c f) := fun t f => .of_eq rfl
    rw [State.portGo]
    split
    · exact refl s
    next p rest _ =>
    dsimp only
    split
    · split
      · exact (((hfab s _).trans (hfab _ _)).trans (.of_traffic (.niSend _ _ _ _))).trans (ih _)
      · exact ((hfab s _).trans (.of_traffic (.niSend _ _ _ _))).trans (ih _)
    have hask := Traffic.ask s (dmaUnit c) p.ctx p.addr (p.vn == 2)
    rcases hp : s.ask (dmaUnit c) p.ctx p.addr (p.vn == 2) with ⟨answer, s1⟩
    rw [hp] at hask
    cases answer with
    | here l => exact (((of_traffic hask).trans (hfab s1 _)).trans (.sendMemory _ _ p l)).trans (ih _)
    | walking => exact of_traffic hask
    | fault code => exact (((of_traffic hask).trans (hfab s1 _)).trans (.portFault _ c n p code)).trans (ih _)

/-- Every port of a carriage tries again. -/
theorem portsGo (s : State) (c : Nat) : Serves s (s.portsGo c) := .foldl (fun t n => portGo 64 t c n) _ s

/-- The walk that ports waited for has failed. -/
theorem portsFail (s : State) (c ctx va : Nat) (write : Bool) (code : Nat) : Serves s (s.portsFail c ctx va write code) := by
  refine foldl (fun t n => ?_) _ s
  split
  · exact refl t
  · split
    · exact ((of_eq rfl : Serves t (t.updFab c _)).trans (.portFault _ c n _ code)).trans (portGo 64 _ c n)
    · exact refl t

end Serves

end Sys2Proof.Machine
end

section
/-! RESULTS. The translation caches: ages, invalidations and walks (R274 to R279, R282, R309; O30). -/

namespace Sys2Proof.Machine

/-! ### Entries -/

/-- The valid entries after each was changed. -/
theorem mem_mapEnts {t : Tcache} {f : TcEnt → Option TcEnt} {j : Nat} {x : TcEnt} :
    (j, some x) ∈ (t.mapEnts f).ents ↔ ∃ y, (j, some y) ∈ t.ents ∧ f y = some x := by
  simp only [Tcache.mapEnts, mmap, List.mem_filter, List.mem_map, Prod.mk.injEq, decide_eq_true_eq, ne_eq]
  constructor
  · rintro ⟨⟨⟨i, v⟩, hm, rfl, hv⟩, -⟩
    obtain ⟨y, rfl, hy⟩ := Option.bind_eq_some_iff.1 hv
    exact ⟨y, hm, hy⟩
  · rintro ⟨y, hm, hy⟩
    exact ⟨⟨(j, some y), hm, rfl, hy⟩, by simp⟩

/-- A change of a cache leaves every other alone. -/
theorem State.tc_updTc_other (s : State) {u v : Nat} (f : Tcache → Tcache) (h : v ≠ u) : (s.updTc u f).tc v = s.tc v := (s.tc_updTc u v f).trans (if_neg h)

/-! ### Ages (R276, R309) -/

/-- A cache a tick later: an entry that stood at age 15 is gone, every other is older. -/
def Tcache.aged (t : Tcache) : Tcache := t.mapEnts (fun e => if 15 ≤ e.age then none else some { e with age := e.age + 1 })

/-- The entries a tick later. -/
theorem Tcache.mem_aged {t : Tcache} {j : Nat} {x : TcEnt} :
    (j, some x) ∈ t.aged.ents ↔ ∃ y, (j, some y) ∈ t.ents ∧ y.age < 15 ∧ x = { y with age := y.age + 1 } := by
  rw [Tcache.aged, mem_mapEnts]
  refine exists_congr fun y => and_congr_right fun _ => ?_
  by_cases h : 15 ≤ y.age
  · simp [h]
  · simp [h, eq_comm, Nat.not_le.1 h]

/-- A cache without entries has none later. -/
theorem Tcache.aged_empty {t : Tcache} (h : t.ents = []) : t.aged = t := by
  cases t
  subst h
  rfl

/-- One cache of a unit ages. -/
def State.ageOne (s : State) (u : Nat) : State := if (s.tc u).ents.isEmpty then s else s.updTc u Tcache.aged

/-- The caches after one has aged. -/
theorem State.tc_ageOne (s : State) (u v : Nat) : (s.ageOne u).tc v = if v = u then (s.tc u).aged else s.tc v := by
  unfold State.ageOne
  split
  · next h =>
    split
    · next hv => rw [hv, Tcache.aged_empty (List.isEmpty_iff.1 h)]
    · rfl
  · exact s.tc_updTc u v _

/-- Ageing a cache changes caches alone. -/
theorem State.ageOne_eq (s : State) (u : Nat) : s.ageOne u = { s with tcs := (s.ageOne u).tcs } := by
  unfold State.ageOne
  split <;> rfl

/-- The caches of a list of units have aged, each of them once. -/
theorem State.foldl_ageOne {l : List Nat} (hl : l.Nodup) (s : State) : l.foldl State.ageOne s = { s with tcs := (l.foldl State.ageOne s).tcs } ∧
    (∀ u ∈ l, (l.foldl State.ageOne s).tc u = (s.tc u).aged) ∧ ∀ u, u ∉ l → (l.foldl State.ageOne s).tc u = s.tc u := by
  induction l generalizing s with
  | nil => exact ⟨rfl, fun _ h => absurd h List.not_mem_nil, fun _ _ => rfl⟩
  | cons v l ih =>
    obtain ⟨hv, hl⟩ := List.nodup_cons.1 hl
    obtain ⟨heq, hin, hout⟩ := ih hl (s.ageOne v)
    rw [List.foldl_cons]
    refine ⟨heq.trans ?_, fun u hu => ?_, fun u hu => ?_⟩
    · rw [State.ageOne_eq]
    · rcases List.mem_cons.1 hu with rfl | hu
      · rw [hout u hv, State.tc_ageOne, if_pos rfl]
      · rw [hin u hu, State.tc_ageOne, if_neg (fun huv : u = v => hv (huv ▸ hu))]
    · rw [hout u (fun hm => hu (List.mem_cons_of_mem v hm)), State.tc_ageOne, if_neg (fun huv : u = v => hu (huv ▸ List.mem_cons_self))]

/-- TC_AGE_TICK outside a running lockstep. -/
theorem tcAgeTick_ages {s : State} (h : s.lockRun = false) : ∃ t, exec .tcAgeTick s = .next t ∧ t = { s with tcs := t.tcs } ∧
    (∀ u, u ∈ cacheUnits → ∀ j x, (j, some x) ∈ (t.tc u).ents ↔ ∃ y, (j, some y) ∈ (s.tc u).ents ∧ y.age < 15 ∧ x = { y with age := y.age + 1 }) ∧
    ∀ u, u ∉ cacheUnits → t.tc u = s.tc u := by
  obtain ⟨heq, hin, hout⟩ := State.foldl_ageOne (by decide +kernel : cacheUnits.Nodup) s
  have hexec : exec .tcAgeTick s = .next (cacheUnits.foldl State.ageOne s) := by
    change execTcAgeTick s = _
    rw [execTcAgeTick, h]
    rfl
  refine ⟨_, hexec, heq, fun u hu j x => ?_, hout⟩
  rw [hin u hu]
  exact Tcache.mem_aged

/-- TC_AGE_TICK within a period of lockstep. -/
theorem tcAgeTick_waits {s : State} (h : s.lockRun = true) (hc : s.fld DEV_LSCYC_CYC 0 % 16000 ≠ 0) : exec .tcAgeTick s = .next s := by
  change execTcAgeTick s = _
  simp [execTcAgeTick, h, hc, ok]

/-- TC_ENTRY_LAPSE. -/
theorem tcEntryLapse_lapses {e : Eng} {n : Fin 1024} {x : TcEnt} {s : State} (h : mget none (s.tc (engUnit e)).ents n = some x) :
    ∃ t, exec (.tcEntryLapse e n) s = .next t ∧ t = { s with tcs := t.tcs } ∧ (x.age = 15 → mget none (t.tc (engUnit e)).ents n = none) ∧
      (x.age ≠ 15 → t = s) ∧ (∀ j, j ≠ n.val → mget none (t.tc (engUnit e)).ents j = mget none (s.tc (engUnit e)).ents j) ∧
      ∀ v, v ≠ engUnit e → t.tc v = s.tc v := by
  have hexec : exec (.tcEntryLapse e n) s =
      if x.age == 15 then ok (s.updTc (engUnit e) (fun t => { t with ents := mset none t.ents n none })) else ok s := by
    change execTcEntryLapse e n s = _
    rw [execTcEntryLapse, h]
  by_cases hage : x.age = 15
  · rw [hexec, if_pos (beq_iff_eq.2 hage)]
    refine ⟨_, rfl, rfl, fun _ => ?_, fun hne => absurd hage hne, fun j hj => ?_, fun v hv => s.tc_updTc_other _ hv⟩ <;> rw [State.tc_updTc_same]
    · exact mget_mset_same none _ _ none
    · exact mget_mset_other (d := none) none hj
  · rw [hexec, if_neg (fun h => hage (beq_iff_eq.1 h))]
    exact ⟨s, rfl, rfl, fun h => absurd h hage, fun _ => rfl, fun _ _ => rfl, fun _ _ => rfl⟩

/-! ### Invalidations (R279, R282) -/

/-- Nothing changes but what is sent, and walks of unit `u`. -/
structure Rewalks (u : Nat) (s t : State) : Prop where
  eq : t = { s with net := t.net, reports := t.reports, fab := t.fab, tcs := t.tcs }
  ents : (t.tc u).ents = (s.tc u).ents
  other : ∀ v, v ≠ u → t.tc v = s.tc v

/-- One after another. -/
theorem Rewalks.trans {u : Nat} {s t v : State} (a : Rewalks u s t) (b : Rewalks u t v) : Rewalks u s v :=
  ⟨b.eq.trans (by rw [a.eq]), b.ents.trans a.ents, fun w hw => (b.other w hw).trans (a.other w hw)⟩

/-- Walks of unit `u` change. -/
theorem Rewalks.updTc (s : State) (u : Nat) {f : Tcache → Tcache} (h : (f (s.tc u)).ents = (s.tc u).ents) : Rewalks u s (s.updTc u f) :=
  ⟨rfl, (congrArg Tcache.ents (s.tc_updTc_same u f)).trans h, fun _ hv => s.tc_updTc_other f hv⟩

/-- Packets are sent. -/
theorem Rewalks.of_sent {s t : State} (u : Nat) (a : Sent s t) : Rewalks u s t := by
  have htc : ∀ v, t.tc v = s.tc v := fun v => by rw [State.tc, a.tcs, State.tc]
  refine ⟨?_, congrArg Tcache.ents (htc u), fun v _ => htc v⟩
  rw [show t = _ from a]

/-- A walk starts again. -/
theorem Rewalks.restartWalk (s : State) (u : Nat) (w : Walk) : Rewalks u s (s.restartWalk u w) := by
  unfold State.restartWalk
  split
  · exact (updTc s u rfl).trans (.of_sent u (.walkRead _ u w.ctx _ _))
  · exact .of_sent u (.refl s)

/-- Walks start again. -/
theorem Rewalks.restartWalks (l : List Walk) (s : State) (u : Nat) : Rewalks u s (l.foldl (fun t w => t.restartWalk u w) s) := by
  induction l generalizing s with
  | nil => exact .of_sent u (.refl s)
  | cons w l ih => exact (restartWalk s u w).trans (ih _)

/-- What an invalidation keeps. -/
theorem invalidate_keeps_iff {kind ctx va : Nat} {x y : TcEnt} :
    (if (kind == 0 || (y.ctx == ctx && (kind == 1 || y.hits ctx va))) = true then none else some y) = some x ↔
      y = x ∧ ¬ invalCovers kind ctx va x := by
  have hcov : (kind == 0 || (y.ctx == ctx && (kind == 1 || y.hits ctx va))) = true ↔ invalCovers kind ctx va y := by
    simp only [invalCovers, TcEnt.hits, Bool.or_eq_true, Bool.and_eq_true, beq_iff_eq]
    grind
  by_cases h : invalCovers kind ctx va y
  · rw [if_pos (hcov.2 h)]
    exact ⟨fun h' => (by cases h'), fun ⟨hyx, hn⟩ => absurd (hyx ▸ h) hn⟩
  · rw [if_neg (fun hc => h (hcov.1 hc))]
    exact ⟨fun h' => Option.some.inj h' ▸ ⟨rfl, h⟩, fun ⟨hyx, _⟩ => congrArg some hyx⟩

/-- An invalidation of a cache. -/
theorem State.invalidate_gives (s : State) (u kind ctx va : Nat) : Invalidated u kind ctx va s (s.invalidate u kind ctx va) ∧
    (s.invalidate u kind ctx va).fields = s.fields ∧ SameMemories s (s.invalidate u kind ctx va) := by
  have hwalks : Rewalks u (s.updTc u (fun t => t.mapEnts (fun e => if kind == 0 || (e.ctx == ctx && (kind == 1 || e.hits ctx va)) then none else some e)))
      (s.invalidate u kind ctx va) := (Rewalks.updTc _ u rfl).trans (.restartWalks _ _ u)
  refine ⟨⟨fun j x => ?_, fun v hv => (hwalks.other v hv).trans (s.tc_updTc_other _ hv)⟩, ?_, ?_⟩
  · rw [hwalks.ents, State.tc_updTc_same, mem_mapEnts]
    simp only [invalidate_keeps_iff]
    exact ⟨fun ⟨_, hm, hyx, hn⟩ => ⟨hyx ▸ hm, hn⟩, fun ⟨hm, hn⟩ => ⟨x, hm, rfl, hn⟩⟩
  · rw [hwalks.eq]
    rfl
  · rw [hwalks.eq]
    exact ⟨rfl, rfl, rfl, rfl, rfl, rfl⟩

/-- What an invalidation covers goes by what its kind reads. -/
theorem Invalidated.congr {u kind ctx va ctx' va' : Nat} {s t : State} (a : Invalidated u kind ctx va s t)
    (h : ∀ x, invalCovers kind ctx va x ↔ invalCovers kind ctx' va' x) : Invalidated u kind ctx' va' s t :=
  ⟨fun j x => (a.1 j x).trans (and_congr_right fun _ => not_congr (h x)), a.2⟩

/-- The caches decide whether an invalidation has begun. -/
theorem Invalidated.of_tcs {u kind ctx va : Nat} {s t t' : State} (a : Invalidated u kind ctx va s t) (h : t'.tcs = t.tcs) : Invalidated u kind ctx va s t' := by
  have htc : ∀ v, t'.tc v = t.tc v := fun v => by rw [State.tc, h, State.tc]
  exact ⟨fun j x => by rw [htc u]; exact a.1 j x, fun v hv => (htc v).trans (a.2 v hv)⟩

/-- An invalidation that shows BUSY in the field `f` of unit `u`, of the cache of unit `v`. -/
structure Invalidates (f : Fld) (u v kind ctx va : Nat) (s t : State) : Prop where
  busy : t.fld f u = 1
  ents : Invalidated v kind ctx va s t
  fields : SameFields [(f, u, 0)] s t
  memories : SameMemories s t

/-- The state in which BUSY is set. -/
theorem Invalidates.setBusy (s : State) {f : Fld} {u : Nat} (v kind ctx va : Nat) (hf : f ∈ fldTable) (hw : 0 < f.w) (hu : u < 2048) :
    Invalidates f u v kind ctx va s ((s.invalidate v kind ctx va).setFlag f u 0 true) := by
  obtain ⟨hinv, hfields, hmem⟩ := s.invalidate_gives v kind ctx va
  exact ⟨((s.invalidate v kind ctx va).fld_setFld_same f u 0 (b2n true)).trans (Nat.mod_eq_of_lt (Nat.one_lt_two_pow (Nat.pos_iff_ne_zero.1 hw))), hinv.of_tcs rfl,
    SameFields.trans (.of_eq hfields) (SameFields.setFld _ hf hu List.mem_cons_self), hmem⟩

/-- Changes outside the caches, the fields and the memories. -/
theorem Invalidates.of_same {f : Fld} {u v kind ctx va : Nat} {s t t' : State} (a : Invalidates f u v kind ctx va s t) (hf : t'.fields = t.fields) (hc : t'.tcs = t.tcs)
    (hm : SameMemories t t') : Invalidates f u v kind ctx va s t' := by
  obtain ⟨hbusy, hents, hfields, hmem⟩ := a
  exact ⟨by rwa [State.fld, hf, ← State.fld], hents.of_tcs hc, hfields.trans (.of_eq hf), hmem.trans hm⟩

/-- An invalidation of a stream engine's cache begins. -/
theorem State.strInval_begins {s : State} {k : Nat} (hk : k < 2048) (h : s.fld STR_INVAL_BUSY k = 0) (kind ctx : Nat) :
    Invalidates STR_INVAL_BUSY k (coachUnit k) kind ctx (s.fld STR_INVAL_VA_VA k) s (s.strInval k kind ctx) := by
  rw [State.strInval, if_neg (by simp [State.flag, h])]
  exact (Invalidates.setBusy s _ kind ctx _ (by decide +kernel) (by decide) hk).of_same rfl rfl ⟨rfl, rfl, rfl, rfl, rfl, rfl⟩

/-- An invalidation of a DMA engine's cache begins. -/
theorem State.dmaInval_begins {s : State} {c : Nat} (hc : c < 2048) (h : s.fld DMA_INVAL_BUSY c = 0) (kind ctx : Nat) :
    Invalidates DMA_INVAL_BUSY c (dmaUnit c) kind ctx (s.fld DMA_INVALVA_VA c) s (s.dmaInval c kind ctx) := by
  rw [State.dmaInval, if_neg (by simp [State.flag, h])]
  exact (Invalidates.setBusy s _ kind ctx _ (by decide +kernel) (by decide) hc).of_same rfl rfl ⟨rfl, rfl, rfl, rfl, rfl, rfl⟩

/-- An invalidation finds one running. -/
theorem State.strInval_busy {s : State} {k : Nat} (h : s.fld STR_INVAL_BUSY k = 1) (kind ctx : Nat) : s.strInval k kind ctx = s := by
  rw [State.strInval, if_pos (by simp [State.flag, h])]

/-- An invalidation finds one running. -/
theorem State.dmaInval_busy {s : State} {c : Nat} (h : s.fld DMA_INVAL_BUSY c = 1) (kind ctx : Nat) : s.dmaInval c kind ctx = s := by
  rw [State.dmaInval, if_pos (by simp [State.flag, h])]

/-- All of a cache is covered. -/
theorem Invalidates.all {f : Fld} {u v ctx va : Nat} {s t : State} (a : Invalidates f u v 0 ctx va s t) :
    t.fld f u = 1 ∧ Invalidated v 0 0 0 s t ∧ SameFields [(f, u, 0)] s t ∧ SameMemories s t :=
  ⟨a.busy, a.ents.congr fun _ => by simp [invalCovers], a.fields, a.memories⟩

/-- A context's entries are covered. -/
theorem Invalidates.context {f : Fld} {u v ctx va : Nat} {s t : State} (a : Invalidates f u v 1 ctx va s t) :
    t.fld f u = 1 ∧ Invalidated v 1 ctx 0 s t ∧ SameFields [(f, u, 0)] s t ∧ SameMemories s t :=
  ⟨a.busy, a.ents.congr fun _ => by simp [invalCovers], a.fields, a.memories⟩

/-- A page's entries are covered. -/
theorem Invalidates.page {f : Fld} {u v ctx va : Nat} {s t : State} (a : Invalidates f u v 2 ctx va s t) :
    t.fld f u = 1 ∧ Invalidated v 2 ctx va s t ∧ SameFields [(f, u, 0)] s t ∧ SameMemories s t := ⟨a.busy, a.ents, a.fields, a.memories⟩

/-- The three invalidations of a stream engine's cache are writes of its register. -/
theorem exec_inval {k : Coach} {s : State} (ctx : Ctx) (h : Hits STR_INVAL_KIND k 0 s) : exec (.invalAll k) s = .next (s.strInval k 0 0) ∧
    exec (.invalContext k ctx) s = .next (s.strInval k 1 ctx) ∧ exec (.invalPage k ctx) s = .next (s.strInval k 2 ctx) :=
  ⟨State.regEvent_of_hits h (.invalAll k) (fun s => ok (s.strInval k 0 0)),
    State.regEvent_of_hits h (.invalContext k ctx) (fun s => ok (s.strInval k 1 ctx)),
    State.regEvent_of_hits h (.invalPage k ctx) (fun s => ok (s.strInval k 2 ctx))⟩

/-- The three invalidations of a DMA engine's cache are writes of its register. -/
theorem exec_dmaInval {c : Car} {s : State} (ctx : Ctx) (h : Hits DMA_INVAL_KIND c 0 s) : exec (.dmaInvalAll c) s = .next (s.dmaInval c 0 0) ∧
    exec (.dmaInvalContext c ctx) s = .next (s.dmaInval c 1 ctx) ∧ exec (.dmaInvalPage c ctx) s = .next (s.dmaInval c 2 ctx) :=
  ⟨State.regEvent_of_hits h (.dmaInvalAll c) (fun s => ok (s.dmaInval c 0 0)),
    State.regEvent_of_hits h (.dmaInvalContext c ctx) (fun s => ok (s.dmaInval c 1 ctx)),
    State.regEvent_of_hits h (.dmaInvalPage c ctx) (fun s => ok (s.dmaInval c 2 ctx))⟩

/-- The end of an invalidation: BUSY clears. -/
theorem invalEnded (s : State) {f : Fld} {u : Nat} (v : Nat) (hf : f ∈ fldTable) (hu : u < 2048) {t : State}
    (ht : t = (s.updTc v (fun t => { t with inval := none })).setFlag f u 0 false) : t.fld f u = 0 ∧ OnlyFields [(f, u, 0)] { s with tcs := t.tcs } t := by
  subst ht
  exact ⟨(State.fld_setFld_same _ f u 0 (b2n false)).trans (Nat.zero_mod _), OnlyFields.setFld (s.updTc v (fun t => { t with inval := none })) _ hf hu List.mem_cons_self⟩

/-- INVAL_DONE once nothing outstanding used a covered translation. -/
theorem invalDone_ends {k : Coach} {s : State} (h : s.fld STR_INVAL_BUSY k = 1) (hu : ∀ r ∈ (s.coach k).reqs, ∀ u ∈ r.used, u.wait = false) :
    ∃ t, exec (.invalDone k) s = .next t ∧ t.fld STR_INVAL_BUSY k = 0 ∧ OnlyFields [(STR_INVAL_BUSY, k, 0)] { s with tcs := t.tcs } t := by
  have hnone : ((s.coach k).reqs.any fun r => r.used.any (·.wait)) = false := by
    simp only [List.any_eq_false, Bool.not_eq_true]
    exact hu
  refine ⟨(s.updTc (coachUnit k) (fun t => { t with inval := none })).setFlag STR_INVAL_BUSY k 0 false, if_pos ?_,
    invalEnded s (coachUnit k) (by decide +kernel) (k.isLt.trans (by decide)) rfl⟩
  simp [State.flag, h, hnone]

/-- DMA_INVAL_DONE once nothing outstanding used a covered translation. -/
theorem dmaInvalDone_ends {c : Car} {s : State} (h : s.fld DMA_INVAL_BUSY c = 1) (hw : s.invalWaits c = false) :
    ∃ t, exec (.dmaInvalDone c) s = .next t ∧ t.fld DMA_INVAL_BUSY c = 0 ∧ OnlyFields [(DMA_INVAL_BUSY, c, 0)] { s with tcs := t.tcs } t := by
  refine ⟨(s.updTc (dmaUnit c) (fun t => { t with inval := none })).setFlag DMA_INVAL_BUSY c 0 false, if_pos ?_,
    invalEnded s (dmaUnit c) (by decide +kernel) (c.isLt.trans (by decide)) rfl⟩
  simp [State.flag, h, hw]

/-- INVAL_DONE while a request that used a covered translation is outstanding. -/
theorem invalDone_waits {k : Coach} {s : State} (h : ∃ r ∈ (s.coach k).reqs, ∃ u ∈ r.used, u.wait = true) : exec (.invalDone k) s = .next s := by
  have hany : ((s.coach k).reqs.any fun r => r.used.any (·.wait)) = true := by simpa only [List.any_eq_true] using h
  refine if_neg ?_
  simp [hany]

/-- DMA_INVAL_DONE while a request that used a covered translation is outstanding. -/
theorem dmaInvalDone_waits {c : Car} {s : State} (h : s.invalWaits c = true) : exec (.dmaInvalDone c) s = .next s := by
  refine if_neg ?_
  simp [h]

/-! ### Walks (R274, R277, R278) -/

/-- The state in which a walk is no longer in flight. -/
def State.walkDone (s : State) (u : Nat) (w : Walk) : State := s.updTc u (fun t => { t with walks := t.walks.filter (fun x => x.id != w.id) })

/-- The walks of a cache with one a level down. -/
def walksDown (w : Walk) (a : Nat) (l : List Walk) : List Walk := l.map (fun x => if x.id == w.id then { x with level := x.level + 1, addr := a } else x)

/-- What becomes of a walk whose entry returns, by what the entry decides. -/
def State.walkStepped (s : State) (u : Nat) (w : Walk) : WalkStep → WalkEnd × State
  | .fault code => (.failed w code, s.walkDone u w)
  | .leaf x => (.entered w, (s.walkDone u w).updTc u (fun t => t.enter x))
  | .next a => (.nothing, (s.updTc u (fun t => { t with walks := walksDown w a t.walks })).walkRead u w.ctx w.id a)

/-- A good table entry returns to its walk. -/
theorem State.walkReturn_of_takes {s s1 : State} {u : Nat} {p : Packet} {w : Walk} (h : Takes s u (fun p => decide (2048 ≤ p.tag) && p.op != 3) p s1)
    (hw : (s.tc u).walks.find? (fun w => 2048 + w.id % 2048 == p.tag) = some w) (hp : p.status = 0) (hbad : p.bad = false) :
    s.walkReturn u = s1.walkStepped u w (judgeEntry (s.ctx w.ctx) w.ctx w.va w.write w.level (leNat ((p.data.drop (w.addr % 16)).take 8))) := by
  obtain ⟨net, rfl⟩ : ∃ net, s1 = { s with net := net } := ⟨_, h.eq_net⟩
  have hw' : (({ s with net := net } : State).tc u).walks.find? (fun w => 2048 + w.id % 2048 == p.tag) = some w := hw
  unfold State.walkReturn
  rw [show s.takeInbox u _ = some (p, _) from h]
  simp only [hw', hp, hbad]
  cases hj : judgeEntry (s.ctx w.ctx) w.ctx w.va w.write w.level (leNat ((p.data.drop (w.addr % 16)).take 8)) <;>
    rw [show judgeEntry (({ s with net := net } : State).ctx w.ctx) w.ctx w.va w.write w.level (leNat ((p.data.drop (w.addr % 16)).take 8)) = _ from hj] <;> rfl

/-- What waited for a translation that was entered tries again. -/
def State.walkServed (s : State) (w : Walk) : Eng → State
  | .coach k => (s.walkedReqs k w).foldl (fun t r => t.dispatchReq k r) s
  | .dma c => (s.chansGo c).portsGo c

/-- What waited for a walk that failed takes its code. -/
def State.walkFailed (s : State) (w : Walk) (code : Nat) : Eng → State
  | .coach k => (s.walkedReqs k w).foldl (fun t r => t.markFail k r.id code) s
  | .dma c => ((((List.range 64).foldl (fun t ch => if t.chanAwaits c ch w then t.chanWalkFails c ch code w.va else t) s).chansGo c).portsFail c w.ctx w.va w.write code).portsGo c

/-- A walk's end serves what waited for it. -/
theorem Serves.walkServed (s : State) (w : Walk) (e : Eng) : Serves s (s.walkServed w e) := by
  cases e with
  | coach k => exact .foldl (fun t (r : SReq) => (ReqServes.dispatchReq t k r).serves) _ s
  | dma c => exact (chansGo s c).trans (.portsGo _ c)

/-- A walk's failure serves what waited for it. -/
theorem Serves.walkFailed (s : State) (w : Walk) (code : Nat) (e : Eng) : Serves s (s.walkFailed w code e) := by
  cases e with
  | coach k => exact .foldl (fun t (r : SReq) => (ReqServes.markFail t k r.id code).serves) _ s
  | dma c =>
    have hchans : Serves s ((List.range 64).foldl (fun t ch => if t.chanAwaits c ch w then t.chanWalkFails c ch code w.va else t) s) :=
      .foldl (fun t ch => .ite (.chanWalkFails t c ch code w.va) (.refl t)) _ s
    exact ((hchans.trans (.chansGo _ c)).trans (.portsFail _ c w.ctx w.va w.write code)).trans (.portsGo _ c)

/-- Requests marked as failed have the code. -/
theorem code_of_markFails {k code : Nat} (l : List SReq) (s : State) {y : SReq} (hy : y ∈ ((l.foldl (fun t r => t.markFail k r.id code) s).coach k).reqs)
    (h : ∃ r ∈ l, y.id = r.id) : y.code = code := by
  induction l using List.reverseRecOn generalizing y with
  | nil => exact absurd h (by simp)
  | append_singleton l r ih =>
    rw [List.foldl_append, List.foldl_cons, List.foldl_nil, State.markFail, State.coach_updCoach_same] at hy
    obtain ⟨z, hz, rfl⟩ := List.mem_map.1 hy
    by_cases hzr : (z.id == r.id) = true
    · rw [if_pos hzr]
    · rw [if_neg hzr] at h ⊢
      obtain ⟨x, hx, hid⟩ := h
      refine ih hz ⟨x, (List.mem_append.1 hx).resolve_right fun hxr => hzr ?_, hid⟩
      rw [hid, List.mem_singleton.1 hxr, beq_self_eq_true]

/-- WALK_ENTRY_RETURN with a good table entry. -/
theorem walkEntryReturn_steps {e : Eng} {p : Packet} {w : Walk} {s s1 : State} (h : Takes s (engUnit e) (fun p => decide (2048 ≤ p.tag) && p.op != 3) p s1)
    (hw : (s.tc (engUnit e)).walks.find? (fun w => 2048 + w.id % 2048 == p.tag) = some w) (hp : p.status = 0) (hbad : p.bad = false) {e0 : WalkStep}
    (he0 : e0 = judgeEntry (s.ctx w.ctx) w.ctx w.va w.write w.level (leNat ((p.data.drop (w.addr % 16)).take 8))) :
    ∃ t, exec (.walkEntryReturn e) s = .next t ∧ SameMemories s t ∧
      (∀ a, e0 = .next a → (t.tc (engUnit e)).ents = (s.tc (engUnit e)).ents ∧ (t.tc (engUnit e)).walks = walksDown w a (s.tc (engUnit e)).walks) ∧
      (∀ x, e0 = .leaf x → ∃ j, mget none (t.tc (engUnit e)).ents j = some { x with age := 0 }) ∧
      ∀ code, e0 = .fault code → ∀ k : Coach, e = .coach k → ∀ r ∈ s.walkedReqs k w, ∀ y ∈ (t.coach k).reqs, y.id = r.id → y.code = code := by
  have hreturn := State.walkReturn_of_takes h hw hp hbad
  rw [← he0] at hreturn
  obtain ⟨net, rfl⟩ : ∃ net, s1 = { s with net := net } := ⟨_, h.eq_net⟩
  have hexec : exec (.walkEntryReturn e) s = execWalkEntryReturn e s := rfl
  rw [hexec, execWalkEntryReturn, hreturn]
  cases e0 with
  | next a =>
    have hsent := Sent.walkRead ((({ s with net := net } : State)).updTc (engUnit e) (fun t => { t with walks := walksDown w a t.walks })) (engUnit e) w.ctx w.id a
    refine ⟨_, rfl, hsent.sameMemories, fun b hb => ?_, fun _ hx => WalkStep.noConfusion hx, fun _ hc => WalkStep.noConfusion hc⟩
    obtain rfl := WalkStep.next.inj hb
    rw [State.tc, hsent.tcs, ← State.tc, State.tc_updTc_same]
    exact ⟨rfl, rfl⟩
  | leaf x =>
    have hserved := Serves.walkServed ((({ s with net := net } : State).walkDone (engUnit e) w).updTc (engUnit e) (fun t => t.enter x)) w e
    refine ⟨State.walkServed _ w e, ?_, hserved.sameMemories, fun _ ha => WalkStep.noConfusion ha, fun y hy => ?_, fun _ hc => WalkStep.noConfusion hc⟩
    · cases e <;> rfl
    · obtain rfl := WalkStep.leaf.inj hy
      have hfresh := hserved.fresh (engUnit e) (({ s with net := net } : State).walkDone (engUnit e) w |>.tc (engUnit e)).victim { x with age := 0 }
      rw [State.tc_updTc_same] at hfresh
      exact ⟨_, (hfresh (freshIn_mset _ _ rfl)).1⟩
  | fault code =>
    refine ⟨State.walkFailed _ w code e, ?_, (Serves.walkFailed (({ s with net := net } : State).walkDone (engUnit e) w) w code e).sameMemories,
      fun _ ha => WalkStep.noConfusion ha, fun _ hx => WalkStep.noConfusion hx, ?_⟩
    · cases e <;> rfl
    · rintro c hc k rfl r hr y hy hid
      obtain rfl := WalkStep.fault.inj hc
      exact code_of_markFails _ _ hy ⟨r, hr, hid⟩

/-- Settles O30: ageing, lapsing and invalidating change the entries of one cache as said; a walk's end serves what waited, which keeps what was just entered. -/
theorem translationCachesAgeLapseAndInvalidate : Obligations.TranslationCachesAgeLapseAndInvalidate := by
  unfold Obligations.TranslationCachesAgeLapseAndInvalidate
  refine ⟨fun _ h => tcAgeTick_ages h, fun _ h hc => tcAgeTick_waits h hc, fun _ _ _ _ h => tcEntryLapse_lapses h, fun k ctx s h hb => ?_, fun c ctx s h hb => ?_,
    fun k ctx s h hb => ?_, fun c ctx s h hb => ?_, fun _ _ h hu => invalDone_ends h hu, fun _ _ h hw => dmaInvalDone_ends h hw,
    fun _ _ _ => ⟨fun h => invalDone_waits h, fun h => dmaInvalDone_waits h⟩, fun e p w s s1 h hw hp hbad => ?_⟩
  · obtain ⟨hall, hctx, hpage⟩ := exec_inval ctx h
    have hbegins := State.strInval_begins (k.isLt.trans (by decide)) hb
    exact ⟨⟨_, hall, (hbegins 0 0).all⟩, ⟨_, hctx, (hbegins 1 ctx).context⟩, ⟨_, hpage, (hbegins 2 ctx).page⟩⟩
  · obtain ⟨hall, hctx, hpage⟩ := exec_dmaInval ctx h
    have hbegins := State.dmaInval_begins (c.isLt.trans (by decide)) hb
    exact ⟨⟨_, hall, (hbegins 0 0).all⟩, ⟨_, hctx, (hbegins 1 ctx).context⟩, ⟨_, hpage, (hbegins 2 ctx).page⟩⟩
  · have hexec := exec_inval ctx h
    rwa [State.strInval_busy hb, State.strInval_busy hb, State.strInval_busy hb] at hexec
  · have hexec := exec_dmaInval ctx h
    rwa [State.dmaInval_busy hb, State.dmaInval_busy hb, State.dmaInval_busy hb] at hexec
  · obtain ⟨t, hexec, hmem, hstep⟩ := walkEntryReturn_steps h hw hp hbad rfl
    refine ⟨t, hexec, hmem, fun e0 he0 => ?_⟩
    subst he0
    exact hstep

end Sys2Proof.Machine
end

section
/-! RESULTS. The DMA channels: their registers, and a descriptor from its fetch to its written status (R282 to R296; O31). -/

namespace Sys2Proof.Machine

/-! ### The registers of a channel (R283, R291, R294) -/

/-- The fields of a channel stand in `fldTable` under the carriage. -/
theorem OnlyFields.setDma {f : Fld} (s : State) (c : Car) (i v : Nat) (hf : f ∈ fldTable) : OnlyFields [(f, c.val, i)] s (s.setFld f c i v) :=
  .setFld s v hf (c.isLt.trans (by decide)) List.mem_cons_self

/-- DMA_HEAD_WRITE. -/
theorem dmaHeadWrite_sets {c : Car} {ch : Fin 64} {v : BitVec 16} {s : State} (h : Hits DMA_HEAD_HEAD c ch s) : ∃ t, exec (.dmaHeadWrite c ch v) s = .next t ∧
    (v.toNat < 2 ^ s.fld DMA_RINGSIZE_LOG2 c ch → t.fld DMA_HEAD_HEAD c ch = v.toNat % 2 ^ DMA_HEAD_HEAD.w ∧ OnlyFields [(DMA_HEAD_HEAD, c, ch)] s t) ∧
    (2 ^ s.fld DMA_RINGSIZE_LOG2 c ch ≤ v.toNat → t.fld DMA_HEAD_HEAD c ch = Config.free s.freeIx % 2 ^ 16 % 2 ^ DMA_HEAD_HEAD.w ∧
      OnlyFields [(DMA_HEAD_HEAD, c, ch)] { s with freeIx := s.freeIx + 1 } t) := by
  refine ⟨s.dmaHead c ch v.toNat, State.regEvent_of_hits h _ _, fun hin => ?_, fun hout => ?_⟩ <;> rw [State.dmaHead, Nat.mod_eq_of_lt v.isLt]
  · rw [if_pos hin]
    exact ⟨s.fld_setFld_same DMA_HEAD_HEAD c ch _, .setDma s c ch _ (by decide +kernel)⟩
  · rw [if_neg (Nat.not_lt.2 hout)]
    exact ⟨State.fld_setFld_same (s.draw 16).2 DMA_HEAD_HEAD c ch _, .setDma (s.draw 16).2 c ch _ (by decide +kernel)⟩

/-- DMA_RUN. -/
theorem dmaRun_sets {c : Car} {ch : Fin 64} {b : Bool} {s : State} (h : Hits DMA_CTL_RUN c ch s) :
    ∃ t, exec (.dmaRun c ch b) s = .next t ∧ t.fld DMA_CTL_RUN c ch = b2n b ∧ OnlyFields [(DMA_CTL_RUN, c, ch)] s t := by
  refine ⟨s.setFlag DMA_CTL_RUN c ch b, State.regEvent_of_hits h _ _, (s.fld_setFld_same DMA_CTL_RUN c ch (b2n b)).trans ?_, .setDma s c ch _ (by decide +kernel)⟩
  cases b <;> rfl

/-- DMA_STOPPED_CLEAR. -/
theorem dmaStoppedClear_clears {c : Car} {ch : Fin 64} {s : State} (h : Hits DMA_STATUS_STOPPED c ch s) :
    ∃ t, exec (.dmaStoppedClear c ch) s = .next t ∧ t.fld DMA_STATUS_STOPPED c ch = 0 ∧ OnlyFields [(DMA_STATUS_STOPPED, c, ch)] s t :=
  ⟨s.setFlag DMA_STATUS_STOPPED c ch false, State.regEvent_of_hits h _ _, s.fld_setFld_same DMA_STATUS_STOPPED c ch 0, .setDma s c ch _ (by decide +kernel)⟩

/-- Several register writes leave the engines alone. -/
@[simp] theorem State.dma_setFlds (s : State) (u i : Nat) (l : List (Fld × Nat)) : (s.setFlds u i l).dma = s.dma := by
  induction l generalizing s with
  | nil => rfl
  | cons x l ih => exact ih _

/-- Several register writes leave the reports alone. -/
@[simp] theorem State.reports_setFlds (s : State) (u i : Nat) (l : List (Fld × Nat)) : (s.setFlds u i l).reports = s.reports := by
  induction l generalizing s with
  | nil => rfl
  | cons x l ih => exact ih _

/-- The fields of a channel that stops with its abort done. -/
def abortFlds : List (Fld × Nat) := [(DMA_STATUS_STOPPED, 1), (DMA_CTL_ABORT, 0)]

/-- ABORT of a channel with no descriptor. -/
theorem State.dmaAbort_none {s : State} {c ch : Nat} (h : (s.chan c ch).desc = none) : ∃ r : Report, r.unit = dmaUnit c ∧
    s.dmaAbort c ch = ((s.updChan c ch (fun h => { h with fetch := if 2 ≤ h.fetch then 3 else 0 })).setFlds c ch abortFlds).withReport r := by
  rw [State.dmaAbort, h]
  exact ⟨_, rfl, rfl⟩

/-- ABORT of a channel with a descriptor. -/
theorem State.dmaAbort_some {s : State} {c ch : Nat} {d : Desc} (h : (s.chan c ch).desc = some d) :
    s.dmaAbort c ch = (s.updChan c ch (fun h => { h with aborted := h.aborted || (h.done != d.len && h.ending == 0) })).setFlag DMA_CTL_ABORT c ch true := by
  rw [State.dmaAbort, h]

/-- Changes of listed fields and a report, in a state that differs in the engines. -/
theorem OnlyFields.withReport_of_dma {L : List (Fld × Nat × Nat)} {s t : State} {dma : SMap DmaS} (a : OnlyFields L { s with dma := dma } t) (r : Report) :
    OnlyFields L { s with reports := (t.withReport r).reports, dma := (t.withReport r).dma } (t.withReport r) := by
  obtain ⟨ht, hf⟩ := a
  obtain ⟨fields, rfl⟩ : ∃ fields, t = { s with dma := dma, fields := fields } := ⟨_, ht⟩
  exact ⟨rfl, hf⟩

/-- DMA_ABORT. -/
theorem dmaAbort_aborts {c : Car} {ch : Fin 64} {s : State} (h : Hits DMA_CTL_ABORT c ch s) : ∃ t, exec (.dmaAbort c ch) s = .next t ∧
    ((s.chan c ch).desc = none → t.fld DMA_STATUS_STOPPED c ch = 1 ∧ t.fld DMA_CTL_ABORT c ch = 0 ∧ (t.chan c ch).desc = none ∧
      (∃ r, t.reports = s.reports ++ [r] ∧ r.unit = dmaUnit c)) ∧
    ((s.chan c ch).desc ≠ none → t.fld DMA_CTL_ABORT c ch = 1 ∧ t.fld DMA_STATUS_STOPPED c ch = s.fld DMA_STATUS_STOPPED c ch ∧ t.reports = s.reports ∧
      (t.chan c ch).desc = (s.chan c ch).desc ∧ (t.chan c ch).done = (s.chan c ch).done) ∧
    (∀ x y, (x, y) ≠ (c.val, ch.val) → t.chan x y = s.chan x y) ∧
    OnlyFields [(DMA_STATUS_STOPPED, c, ch), (DMA_CTL_ABORT, c, ch)] { s with reports := t.reports, dma := t.dma } t := by
  refine ⟨s.dmaAbort c ch, State.regEvent_of_hits h _ _, ?_⟩
  cases hd : (s.chan c ch).desc with
  | none =>
    obtain ⟨r, hunit, heq⟩ := State.dmaAbort_none hd
    have hfld : ∀ x ∈ abortFlds, ((s.updChan c ch (fun h => { h with fetch := if 2 ≤ h.fetch then 3 else 0 })).setFlds c ch abortFlds).fld x.1 c ch = x.2 % 2 ^ x.1.w :=
      fun x hx => State.fld_setFlds_mem _ c ch (by decide) hx
    have hdma : ((s.updChan c ch (fun h => { h with fetch := if 2 ≤ h.fetch then 3 else 0 })).setFlds c ch abortFlds).dma =
      (s.updChan c ch (fun h => { h with fetch := if 2 ≤ h.fetch then 3 else 0 })).dma := State.dma_setFlds _ _ _ _
    simp only [abortFlds, List.forall_mem_cons] at hfld
    obtain ⟨hstopped, habort, -⟩ := hfld
    rw [heq]
    refine ⟨fun _ => ⟨hstopped, habort, ?_, r, congrArg (· ++ [r]) (State.reports_setFlds _ c ch abortFlds), hunit⟩, fun hne => absurd rfl hne, fun x y hxy => ?_, ?_⟩
    · exact (congrArg Chan.desc ((State.chan_of_dma hdma c ch).trans (State.chan_updChan_same s c ch _))).trans hd
    · exact (State.chan_of_dma hdma x y).trans (State.chan_updChan_other s _ hxy)
    · exact (OnlyFields.setFlds_own (s.updChan c ch (fun h => { h with fetch := if 2 ≤ h.fetch then 3 else 0 })) (c.isLt.trans (by decide)) (by decide +kernel)).withReport_of_dma r
  | some d =>
    rw [State.dmaAbort_some hd]
    refine ⟨fun hn => absurd hn (by simp), fun _ => ⟨State.fld_setFld_same _ DMA_CTL_ABORT c ch 1, State.fld_setFld_idx _ c ch c ch _ (by decide), rfl, ?_, ?_⟩,
      fun x y hxy => State.chan_updChan_other s _ hxy, ?_⟩
    · exact (congrArg Chan.desc (State.chan_updChan_same s c ch _)).trans hd
    · exact (congrArg Chan.done (State.chan_updChan_same s c ch _)).trans rfl
    · exact OnlyFields.setFld (s.updChan c ch _) _ (by decide +kernel) (c.isLt.trans (by decide)) (by simp)

/-! ### What a hit in the cache gives (R285, R288, R290) -/

section
variable {s : State} {c ch i : Nat} {e : TcEnt}

/-- A hit on a page that allows the access. -/
theorem State.ask_granted {u ctx va : Nat} (hl : (s.tc u).lookup ctx va = some (i, e)) {write : Bool} (hg : (if write then e.w else e.r) = true) :
    s.ask u ctx va write = (.here (e.loc va), s.updTc u (fun t => t.touch i e)) := by rw [State.ask_hit hl, if_pos hg]

/-- A hit on a page that does not allow the access. -/
theorem State.ask_refused {u ctx va : Nat} (hl : (s.tc u).lookup ctx va = some (i, e)) {write : Bool} (hg : (if write then e.w else e.r) = false) :
    s.ask u ctx va write = (.fault 2, s.updTc u (fun t => t.touch i e)) := by rw [State.ask_hit hl, hg]; rfl

/-- A channel whose ring is on a cached readable page waits for its descriptor. -/
theorem chan_chanFetch_hit (hl : (s.tc (dmaUnit c)).lookup (s.chanCtx c ch) (s.ringVa c ch) = some (i, e)) (he : e.r = true) :
    (s.chanFetch c ch).chan c ch = { s.chan c ch with fetch := 2, used := [(e.loc (s.ringVa c ch)).used (s.chanCtx c ch) (s.ringVa c ch)] } := by
  rw [State.chanFetch, State.ask_granted hl (write := false) he]
  refine (State.chan_of_dma (Traffic.niSend _ _ _ _).dma c ch).trans ((State.chan_updChan_same _ c ch _).trans ?_)
  rw [State.chan_of_dma (Traffic.lockAbortIf _ _ 6).dma]
  rfl

/-- A channel whose ring cannot be read stops. -/
theorem chanFetch_unreadable (hl : (s.tc (dmaUnit c)).lookup (s.chanCtx c ch) (s.ringVa c ch) = some (i, e)) (he : e.r = false) :
    s.chanFetch c ch = (s.updTc (dmaUnit c) (fun t => t.touch i e)).ringFails c ch 2 (s.ringVa c ch) := by
  rw [State.chanFetch, State.ask_refused hl (write := false) he]

/-- A burst to a cached writable page is sent. -/
theorem chan_chanWrite_hit {d : Desc} {h : Chan} (hl : (s.tc (dmaUnit c)).lookup (s.chanCtx c ch) (circAddr d.dcirc d.dlog2 d.dst h.done) = some (i, e)) (he : e.w = true) :
    (s.chanWrite c ch d h).chan c ch = { s.chan c ch with
      writing := true, waiting := false, left := (writeSpan 66 (circAddr d.dcirc d.dlog2 d.dst h.done) h.burst).length,
      used := [(e.loc (circAddr d.dcirc d.dlog2 d.dst h.done)).used (s.chanCtx c ch) (circAddr d.dcirc d.dlog2 d.dst h.done)] } := by
  rw [State.chanWrite, State.ask_granted hl (write := true) he]
  refine (State.chan_of_dma (Traffic.foldl (fun t _ => .niSend t _ _ _) _ _).dma c ch).trans ((State.chan_updChan_same _ c ch _).trans ?_)
  rw [State.chan_of_dma (Traffic.lockAbortIf _ _ 6).dma]
  rfl

/-- A status to a cached writable page is sent. -/
theorem chan_chanStatus_hit {d : Desc} {h : Chan} (hl : (s.tc (dmaUnit c)).lookup (s.chanCtx c ch) (d.va + 0x30) = some (i, e)) (he : e.w = true) :
    (s.chanStatus c ch d h).chan c ch =
      { s.chan c ch with ending := 2, status := h.endStatus d, used := [(e.loc (d.va + 0x30)).used (s.chanCtx c ch) (d.va + 0x30)] } := by
  rw [State.chanStatus, State.ask_granted hl (write := true) he]
  refine (State.chan_of_dma (Traffic.niSend _ _ _ _).dma c ch).trans ((State.chan_updChan_same _ c ch _).trans ?_)
  rw [State.chan_of_dma (Traffic.lockAbortIf _ _ 6).dma]
  rfl

end

/-! ### DMA_DESC_FETCH (R283, R285, R293) -/

/-- The fields of a channel that stops outside a descriptor's end. -/
def stopFlds (code : Nat) : List (Fld × Nat) := [(DMA_STATUS_LAST, code), (DMA_STATUS_STOPPED, 1), (DMA_STATUS_ACTIVE, 0), (DMA_CTL_ABORT, 0)]

/-- Their indices. -/
theorem stopFlds_idx (code : Nat) : (stopFlds code).map (·.1.idx % 1024) = [DMA_STATUS_LAST, DMA_STATUS_STOPPED, DMA_STATUS_ACTIVE, DMA_CTL_ABORT].map (·.idx % 1024) := rfl

/-- A channel that stops outside a descriptor's end. -/
theorem State.ringFails_gives {s : State} {c ch : Nat} (h : (s.chan c ch).ctxReset = false) (code va : Nat) :
    (s.ringFails c ch code va).fld DMA_STATUS_STOPPED c ch = 1 ∧ (s.ringFails c ch code va).fld DMA_STATUS_LAST c ch = code % 2 ^ DMA_STATUS_LAST.w ∧
    (s.ringFails c ch code va).fld DMA_TAIL_TAIL c ch = s.fld DMA_TAIL_TAIL c ch ∧ (s.ringFails c ch code va).chan c ch = {} := by
  have hraise := Traffic.raise ((s.updChan c ch (fun _ => {})).setFlds c ch (stopFlds code)) (some (s.chanCtx c ch)) 0 (s.fld DMA_CTL_VEC c ch)
  have heq : ∃ r, s.ringFails c ch code va =
      (((s.updChan c ch (fun _ => {})).setFlds c ch (stopFlds code)).raise (some (s.chanCtx c ch)) 0 (s.fld DMA_CTL_VEC c ch)).withReport r := by
    rw [State.ringFails, h]
    exact ⟨_, rfl⟩
  obtain ⟨r, heq⟩ := heq
  have hfld : ∀ f v, (f, v) ∈ stopFlds code → Untouched f → (s.ringFails c ch code va).fld f c ch = v % 2 ^ f.w := fun f v hf hu => by
    rw [heq]
    exact (hraise.fld f c ch hu).trans (State.fld_setFlds_mem _ c ch (by rw [stopFlds_idx]; decide) hf)
  refine ⟨hfld _ 1 (by simp [stopFlds]) (by decide), hfld _ code (by simp [stopFlds]) (by decide), ?_, ?_⟩ <;> rw [heq]
  · exact (hraise.fld _ c ch (by decide)).trans (State.fld_setFlds_idx _ c ch c ch (by rw [stopFlds_idx]; decide))
  · exact (State.chan_of_dma (hraise.dma.trans (State.dma_setFlds _ c ch _)) c ch).trans (State.chan_updChan_same s c ch _)

/-- A channel that may fetch holds no descriptor. -/
theorem State.desc_of_mayFetch {s : State} {c ch : Nat} (h : s.mayFetch c ch = true) : (s.chan c ch).desc = none := by
  simp only [State.mayFetch, Bool.and_eq_true, Option.isNone_iff_eq_none] at h
  tauto

/-- DMA_DESC_FETCH with the ring on a cached page. -/
theorem dmaDescFetch_reads {c : Car} {ch : Fin 64} {i : Nat} {e : TcEnt} {s : State} (h : s.mayFetch c ch = true)
    (hl : (s.tc (dmaUnit c)).lookup (s.chanCtx c ch) (s.ringVa c ch) = some (i, e)) :
    ∃ t, exec (.dmaDescFetch c ch) s = .next t ∧ SameMemories s t ∧ (∀ x y, (x, y) ≠ (c.val, ch.val) → t.chan x y = s.chan x y) ∧
      (e.r = true → (t.chan c ch).fetch = 2 ∧ (t.chan c ch).desc = none) ∧
      (e.r = false → (s.chan c ch).ctxReset = false → t.fld DMA_STATUS_STOPPED c ch = 1 ∧ t.fld DMA_STATUS_LAST c ch = 2 ∧
        t.fld DMA_TAIL_TAIL c ch = s.fld DMA_TAIL_TAIL c ch ∧ t.chan c ch = {}) := by
  have hserves := ChanServes.chanFetch s c ch
  refine ⟨s.chanFetch c ch, congrArg ok (if_pos h), hserves.serves.sameMemories, hserves.other, fun he => ?_, fun he hreset => ?_⟩
  · rw [chan_chanFetch_hit hl he]
    exact ⟨rfl, State.desc_of_mayFetch h⟩
  · rw [chanFetch_unreadable hl he]
    exact State.ringFails_gives (s := s.updTc (dmaUnit c) (fun t => t.touch i e)) hreset 2 _

/-! ### What returns from memory (R285, R288, R290) -/

/-- A response to a read of the engine. -/
def isReadReturn (p : Packet) : Bool := decide (p.tag < 2048) && !isAckTag p.tag && p.op != 3

/-- An answer to a write of the engine. -/
def isWriteAnswer (p : Packet) : Bool := decide (p.tag < 2048) && isAckTag p.tag && p.op != 3

/-- The response that DMA_READ_RETURN takes. -/
theorem Takes.readReturn {s t : State} {u : Nat} {p : Packet} (h : Takes s u isReadReturn p t) :
    s.takeInbox u (fun p => decide (p.tag < 2048) && !isAckTag p.tag && p.op != 3) = some (p, t) := h

/-- The answer that DMA_WRITE_ACK takes. -/
theorem Takes.writeAnswer {s t : State} {u : Nat} {p : Packet} (h : Takes s u isWriteAnswer p t) :
    s.takeInbox u (fun p => decide (p.tag < 2048) && isAckTag p.tag && p.op != 3) = some (p, t) := h

/-- The descriptor returns from the ring. -/
theorem dmaReadReturn_desc {c : Car} {p : Packet} {s s1 : State} (h : Takes s (dmaUnit c) isReadReturn p s1) (htag : p.tag % 32 = 30)
    (hf : (s.chan c (p.tag / 32)).fetch = 2) (he : p.errCode = 0) :
    ∃ t d, exec (.dmaReadReturn c) s = .next t ∧ d = readDesc (s.ringVa c (p.tag / 32)) p.data ∧ t.fld DMA_STATUS_ACTIVE c (p.tag / 32) = 1 ∧
      t.chan c (p.tag / 32) = { desc := some d, code := if d.bad then 6 else 0 } ∧ (∀ x y, (x, y) ≠ (c.val, p.tag / 32) → t.chan x y = s.chan x y) ∧
      OnlyFields [(DMA_STATUS_ACTIVE, c, p.tag / 32)] { s with net := s1.net, dma := t.dma } t := by
  obtain ⟨net, rfl⟩ : ∃ net, s1 = { s with net := net } := ⟨_, h.eq_net⟩
  have hf' : (({ s with net := net } : State).chan c (p.tag / 32)).fetch = 2 := hf
  have hexec : exec (.dmaReadReturn c) s = .next ((({ s with net := net } : State).updChan c (p.tag / 32) (fun _ =>
      { desc := some (readDesc (s.ringVa c (p.tag / 32)) p.data), code := if (readDesc (s.ringVa c (p.tag / 32)) p.data).bad then 6 else 0 })).setFlag
        DMA_STATUS_ACTIVE c (p.tag / 32) true) := by
    change execDmaReadReturn c s = _
    rw [execDmaReadReturn, h.readReturn]
    simp only [htag, State.descReturn, hf', he]
    rfl
  exact ⟨_, _, hexec, rfl, State.fld_setFld_same _ DMA_STATUS_ACTIVE c (p.tag / 32) 1, State.chan_updChan_same _ c (p.tag / 32) _,
    fun x y hxy => State.chan_updChan_other _ _ hxy, .setDma _ c (p.tag / 32) _ (by decide +kernel)⟩

/-- A response of a burst with more to come. -/
theorem dmaReadReturn_counts {c : Car} {p : Packet} {d : Desc} {s s1 : State} (h : Takes s (dmaUnit c) isReadReturn p s1) (htag : p.tag % 32 ≠ 30)
    (hd : (s.chan c (p.tag / 32)).desc = some d) (hleft : 1 < (s.chan c (p.tag / 32)).left) :
    ∃ t, exec (.dmaReadReturn c) s = .next t ∧ (t.chan c (p.tag / 32)).left = (s.chan c (p.tag / 32)).left - 1 ∧
      ⟨p.tag % 32, p.data⟩ ∈ (t.chan c (p.tag / 32)).got ∧ (∀ x y, (x, y) ≠ (c.val, p.tag / 32) → t.chan x y = s.chan x y) ∧
      t = { s with net := s1.net, dma := t.dma } := by
  obtain ⟨net, rfl⟩ : ∃ net, s1 = { s with net := net } := ⟨_, h.eq_net⟩
  have hd' : (({ s with net := net } : State).chan c (p.tag / 32)).desc = some d := hd
  have hleft' : 1 < (({ s with net := net } : State).chan c (p.tag / 32)).left := hleft
  have hexec : exec (.dmaReadReturn c) s = .next (({ s with net := net } : State).updChan c (p.tag / 32) (fun h =>
      { h with
        left := h.left - 1
        got := ((s.chan c (p.tag / 32)).got.filter (fun g => decide (g.at_ < p.tag % 32))) ++ [⟨p.tag % 32, p.data⟩] ++
          (s.chan c (p.tag / 32)).got.filter (fun g => decide (p.tag % 32 < g.at_))
        code := if p.errCode != 0 then p.errCode else (s.chan c (p.tag / 32)).code })) := by
    change execDmaReadReturn c s = _
    rw [execDmaReadReturn, h.readReturn]
    simp only [hd', beq_iff_eq, htag, if_false]
    rw [if_neg (by omega), if_pos (by simpa using (by omega))]
    rfl
  refine ⟨_, hexec, ?_, ?_, fun x y hxy => State.chan_updChan_other _ _ hxy, rfl⟩ <;> rw [State.chan_updChan_same]
  · rfl
  · exact List.mem_append_left _ (List.mem_append_right _ List.mem_cons_self)

/-- A channel with one more good answer. -/
def Chan.answered (h : Chan) : Chan := { h with left := h.left - 1, code := 0 }

/-- A channel whose burst is in memory. -/
def Chan.burstEnded (h : Chan) : Chan := { h with done := h.done + h.burst, burst := 0, data := [], writing := false, used := [] }

/-- The last good answer of a burst's writes. -/
theorem dmaWriteAck_ends_burst {c : Car} {p : Packet} {s s1 : State} (h : Takes s (dmaUnit c) isWriteAnswer p s1) (htag : p.tag % 32 = 31)
    (hleft : (s.chan c (p.tag / 32)).left = 1) (hw : (s.chan c (p.tag / 32)).writing = true) (hcode : (s.chan c (p.tag / 32)).code = 0) (he : p.errCode = 0) :
    ∃ t, exec (.dmaWriteAck c) s = .next t ∧ (t.chan c (p.tag / 32)).done = (s.chan c (p.tag / 32)).done + (s.chan c (p.tag / 32)).burst ∧
      (t.chan c (p.tag / 32)).burst = 0 ∧ t.fld DMA_BYTES_BYTES c (p.tag / 32) = (s.fld DMA_BYTES_BYTES c (p.tag / 32) + (s.chan c (p.tag / 32)).burst) % 2 ^ DMA_BYTES_BYTES.w ∧
      OnlyFields [(DMA_BYTES_BYTES, c, p.tag / 32)] { s with net := s1.net, dma := t.dma } t := by
  obtain ⟨net, rfl⟩ : ∃ net, s1 = { s with net := net } := ⟨_, h.eq_net⟩
  have hleft' : (({ s with net := net } : State).chan c (p.tag / 32)).left = 1 := hleft
  have hw' : (({ s with net := net } : State).chan c (p.tag / 32)).writing = true := hw
  have hcode' : (({ s with net := net } : State).chan c (p.tag / 32)).code = 0 := hcode
  have hexec : exec (.dmaWriteAck c) s = .next (((({ s with net := net } : State).updChan c (p.tag / 32) Chan.answered).updChan c (p.tag / 32)
      Chan.burstEnded).wrapAdd DMA_BYTES_BYTES c (p.tag / 32)
        (s.chan c (p.tag / 32)).burst) := by
    change execDmaWriteAck c s = _
    rw [execDmaWriteAck, h.writeAnswer]
    simp only [htag, hleft', hw', hcode', he]
    rfl
  have hchan := (State.chan_updChan_same (({ s with net := net } : State).updChan c (p.tag / 32) Chan.answered) c (p.tag / 32) Chan.burstEnded).trans
    (congrArg Chan.burstEnded (State.chan_updChan_same ({ s with net := net } : State) c (p.tag / 32) Chan.answered))
  exact ⟨_, hexec, congrArg Chan.done hchan, congrArg Chan.burst hchan, State.fld_setFld_same _ DMA_BYTES_BYTES c (p.tag / 32) _,
    .setDma (State.updChan _ c (p.tag / 32) _) c (p.tag / 32) _ (by decide +kernel)⟩

/-- The answer to a status write. -/
theorem dmaWriteAck_status {c : Car} {p : Packet} {d : Desc} {s s1 : State} (h : Takes s (dmaUnit c) isWriteAnswer p s1) (htag : p.tag % 32 = 29)
    (hd : (s.chan c (p.tag / 32)).desc = some d) (hend : (s.chan c (p.tag / 32)).ending = 2) (he : p.errCode = 0) :
    ∃ t, exec (.dmaWriteAck c) s = .next t ∧ (t.chan c (p.tag / 32)).ending = 3 ∧ (t.chan c (p.tag / 32)).status = (s.chan c (p.tag / 32)).status ∧
      t = { s with net := s1.net, dma := t.dma } := by
  obtain ⟨net, rfl⟩ : ∃ net, s1 = { s with net := net } := ⟨_, h.eq_net⟩
  have hd' : (({ s with net := net } : State).chan c (p.tag / 32)).desc = some d := hd
  have hend' : (({ s with net := net } : State).chan c (p.tag / 32)).ending = 2 := hend
  have hexec : exec (.dmaWriteAck c) s = .next (({ s with net := net } : State).updChan c (p.tag / 32) (fun h => { h with ending := 3, used := [] })) := by
    change execDmaWriteAck c s = _
    rw [execDmaWriteAck, h.writeAnswer]
    simp only [htag, State.statusAck, hd', hend', he]
    rfl
  have hchan := State.chan_updChan_same ({ s with net := net } : State) c (p.tag / 32) (fun h => { h with ending := 3, used := [] })
  exact ⟨_, hexec, (congrArg Chan.ending hchan).trans rfl, (congrArg Chan.status hchan).trans rfl, rfl⟩

/-! ### DMA_BURST (R287, R296) -/

/-- A channel has been served. -/
def State.lastServed (s : State) (c ch : Nat) : State := { s with dma := mupd {} s.dma c (fun x => { x with last := ch }) }

/-- The channels stay when one is noted as served. -/
theorem State.chan_lastServed (s : State) (c ch x y : Nat) : (s.lastServed c ch).chan x y = s.chan x y := by
  rw [State.chan, State.lastServed, mget_mupd, State.chan]
  split
  · next h => rw [h]
  · rfl

/-- The channel noted as served. -/
theorem State.last_lastServed (s : State) (c ch : Nat) : (mget {} (s.lastServed c ch).dma c).last = ch := by rw [State.lastServed, mget_mupd, if_pos rfl]

/-- A channel with its next burst in hand. -/
def Chan.withBurst (d : Desc) (h : Chan) : Chan := { h with burst := burstLen d h.done, data := [], got := [], writing := false }

/-- A channel with the bytes of a fill in hand. -/
def Chan.filled (d : Desc) (h : Chan) : Chan := { h with data := fillBytes d.pattern (circAddr d.dcirc d.dlog2 d.dst h.done) h.burst }

/-- A channel takes its next burst in hand. -/
def State.burstTaken (s : State) (c ch : Nat) (d : Desc) : State := (s.updChan c ch (Chan.withBurst d)).lastServed c ch

/-- A fill goes on by writing its bytes. -/
theorem State.chanGo_fill {s : State} {c ch : Nat} {d : Desc} {h : Chan} (hh : s.chan c ch = h) (hd : h.desc = some d) (hw : h.writing = false) (hk : d.kind = 1) :
    s.chanGo c ch = s.chanWrite c ch d (h.filled d) := by
  subst hh
  simp [State.chanGo, hd, hw, hk, Chan.filled]

/-- DMA_BURST of the next ready channel in turn. -/
theorem dmaBurst_serves {c : Car} {ch : Nat} {s : State}
    (h : (turnOrder (mget {} s.dma c).last).find? (fun ch => (s.chan c ch).active && (s.chan c ch).burst == 0 && !s.flag DMA_CTL_ABORT c ch) = some ch) :
    ∃ t, exec (.dmaBurst c) s = .next t ∧ (mget {} t.dma c).last = ch ∧ (∀ x, x ≠ ch → t.chan c x = s.chan c x) ∧ SameMemories s t ∧
      ∀ d i e, (s.chan c ch).desc = some d → d.kind = 1 → 0 < burstLen d (s.chan c ch).done →
        (s.tc (dmaUnit c)).lookup (s.chanCtx c ch) (circAddr d.dcirc d.dlog2 d.dst (s.chan c ch).done) = some (i, e) → e.w = true →
        (t.chan c ch).burst = burstLen d (s.chan c ch).done ∧ (t.chan c ch).writing = true ∧
          (t.chan c ch).left = (writeSpan 66 (circAddr d.dcirc d.dlog2 d.dst (s.chan c ch).done) (burstLen d (s.chan c ch).done)).length := by
  have hready := List.find?_some h
  obtain ⟨d, hd⟩ : ∃ d, (s.chan c ch).desc = some d := by
    cases hd : (s.chan c ch).desc with
    | some d => exact ⟨d, rfl⟩
    | none => simp [Chan.active, hd] at hready
  have hserves := ChanServes.chanGo (s.burstTaken c ch d) c ch
  have hchan : (s.burstTaken c ch d).chan c ch = (s.chan c ch).withBurst d :=
    (State.chan_lastServed _ c ch c ch).trans (State.chan_updChan_same s c ch _)
  have hexec : exec (.dmaBurst c) s = .next ((s.burstTaken c ch d).chanGo c ch) := by
    change execDmaBurst c s = _
    rw [execDmaBurst, h]
    simp only [hd]
    rfl
  refine ⟨_, hexec, (hserves.last c).trans (State.last_lastServed _ c ch), fun x hx => ?_, hserves.serves.sameMemories, fun d' i e hd' hk _ hl he => ?_⟩
  · have hne : (c.val, x) ≠ (c.val, ch) := fun heq => hx (Prod.mk.inj heq).2
    exact (hserves.other c x hne).trans ((State.chan_lastServed _ c ch c x).trans (State.chan_updChan_other s _ hne))
  · obtain rfl : d = d' := Option.some.inj (hd.symm.trans hd')
    have hwrite := chan_chanWrite_hit (s := s.burstTaken c ch d) (h := ((s.chan c ch).withBurst d).filled d) hl he
    rw [State.chanGo_fill hchan hd rfl hk, hwrite, hchan]
    exact ⟨rfl, rfl, rfl⟩

/-! ### DMA_DESC_END (R290 to R293) -/

/-- The status of a finished descriptor is sent. -/
theorem dmaDescEnd_sends {c : Car} {ch : Fin 64} {d : Desc} {i : Nat} {e : TcEnt} {s : State} (hd : (s.chan c ch).desc = some d) (hb : (s.chan c ch).burst = 0)
    (hend : (s.chan c ch).ending = 0) (hfin : (s.chan c ch).code ≠ 0 ∨ (s.chan c ch).done = d.len ∨ s.fld DMA_CTL_ABORT c ch = 1)
    (hl : (s.tc (dmaUnit c)).lookup (s.chanCtx c ch) (d.va + 0x30) = some (i, e)) (he : e.w = true) :
    ∃ t, exec (.dmaDescEnd c ch) s = .next t ∧ (t.chan c ch).ending = 2 ∧ (t.chan c ch).desc = some d ∧ SameMemories s t ∧
      (t.chan c ch).status = (if (s.chan c ch).code ≠ 0 then (s.chan c ch).code
        else if (s.chan c ch).aborted = true ∨ (s.chan c ch).done ≠ d.len then 9 else 8) ∧
      ∀ x y, (x, y) ≠ (c.val, ch.val) → t.chan x y = s.chan x y := by
  have hserves := ChanServes.chanStatus s c ch d (s.chan c ch)
  have hexec : exec (.dmaDescEnd c ch) s = .next (s.chanStatus c ch d (s.chan c ch)) := by
    change execDmaDescEnd c ch s = _
    rw [execDmaDescEnd, hd]
    simp only [hb, hend]
    rw [if_neg (by decide), if_neg (by decide), if_pos (by simpa [State.flag, or_assoc] using hfin)]
    rfl
  refine ⟨_, hexec, ?_, ?_, hserves.serves.sameMemories, ?_, hserves.other⟩ <;> rw [chan_chanStatus_hit hl he]
  · exact hd
  · simp [Chan.endStatus]

/-- The fields of a channel whose descriptor ends. -/
def endFldsOf (tail status : Nat) : List (Fld × Nat) := [(DMA_TAIL_TAIL, tail), (DMA_STATUS_LAST, status), (DMA_STATUS_ACTIVE, 0)]

/-- Their indices. -/
theorem endFldsOf_idx (tail status : Nat) : (endFldsOf tail status).map (·.1.idx % 1024) = [DMA_TAIL_TAIL, DMA_STATUS_LAST, DMA_STATUS_ACTIVE].map (·.idx % 1024) := rfl

/-- A channel whose descriptor has ended, before its vector and its stop. -/
def State.descEnded (s : State) (c ch status : Nat) : State :=
  (s.setFlds c ch (endFldsOf ((s.fld DMA_TAIL_TAIL c ch + 1) % 2 ^ s.fld DMA_RINGSIZE_LOG2 c ch) status)).updChan c ch (fun _ => {})

/-- What a descriptor's end leaves in the registers of its channel. -/
theorem State.descEnded_gives (s : State) (c ch status : Nat) :
    (∀ f v, (f, v) ∈ endFldsOf ((s.fld DMA_TAIL_TAIL c ch + 1) % 2 ^ s.fld DMA_RINGSIZE_LOG2 c ch) status → (s.descEnded c ch status).fld f c ch = v % 2 ^ f.w) ∧
    (s.descEnded c ch status).fld DMA_STATUS_STOPPED c ch = s.fld DMA_STATUS_STOPPED c ch ∧ (s.descEnded c ch status).chan c ch = {} ∧
    ChanServes c ch s (s.descEnded c ch status) :=
  ⟨fun f v hf => State.fld_setFlds_mem s c ch (by rw [endFldsOf_idx]; decide) hf, State.fld_setFlds_idx s c ch c ch (by rw [endFldsOf_idx]; decide),
    State.chan_updChan_same _ c ch _, (ChanServes.setFlds s c ch _).trans (.updChan _ c ch _)⟩

/-- The last steps of a descriptor's end: a vector where one is due, and a stop where the status or an abort asks for it. -/
theorem State.endDesc_eq {s : State} {c ch : Nat} {d : Desc} {h : Chan} (hreset : h.ctxReset = false) : ∃ t r, Traffic (s.descEnded c ch h.status) t ∧
    s.endDesc c ch d h = if s.flag DMA_CTL_ABORT c ch || (h.status != 8 && h.status != 6) then (t.setFlds c ch abortFlds).withReport r else t := by
  rw [State.endDesc, hreset]
  exact ⟨if h.status != 8 || d.irq then (s.descEnded c ch h.status).raise (some (s.chanCtx c ch)) 0 ((s.descEnded c ch h.status).fld DMA_CTL_VEC c ch)
    else s.descEnded c ch h.status, _, .ite (.raise _ _ _ _) (.refl _), rfl⟩

/-- A descriptor whose status is written ends. -/
theorem dmaDescEnd_ends {c : Car} {ch : Fin 64} {d : Desc} {status : Nat} {s : State} (hd : (s.chan c ch).desc = some d) (hend : (s.chan c ch).ending = 3)
    (hst : (s.chan c ch).status = status) (hreset : (s.chan c ch).ctxReset = false) (hfits : status < 256) :
    ∃ t, exec (.dmaDescEnd c ch) s = .next t ∧ t.chan c ch = {} ∧ t.fld DMA_STATUS_LAST c ch = status ∧ t.fld DMA_STATUS_ACTIVE c ch = 0 ∧
      t.fld DMA_TAIL_TAIL c ch = (s.fld DMA_TAIL_TAIL c ch + 1) % 2 ^ s.fld DMA_RINGSIZE_LOG2 c ch % 2 ^ DMA_TAIL_TAIL.w ∧
      (s.fld DMA_CTL_ABORT c ch = 1 ∨ (status ≠ 8 ∧ status ≠ 6) → t.fld DMA_STATUS_STOPPED c ch = 1 ∧ t.fld DMA_CTL_ABORT c ch = 0) ∧
      (s.fld DMA_CTL_ABORT c ch = 0 → status = 8 ∨ status = 6 → t.fld DMA_STATUS_STOPPED c ch = s.fld DMA_STATUS_STOPPED c ch) ∧
      SameMemories s t ∧ ∀ x y, (x, y) ≠ (c.val, ch.val) → t.chan x y = s.chan x y := by
  subst hst
  have hexec : exec (.dmaDescEnd c ch) s = .next (s.endDesc c ch d (s.chan c ch)) := by
    change execDmaDescEnd c ch s = _
    rw [execDmaDescEnd, hd]
    simp only [hend]
    rfl
  obtain ⟨hfld, hstopped, hchan, hserves⟩ := s.descEnded_gives c ch (s.chan c ch).status
  obtain ⟨u, r, hu, heq⟩ := State.endDesc_eq (s := s) (c := c.val) (ch := ch.val) (d := d) hreset
  have hlast : (s.chan c ch).status % 2 ^ DMA_STATUS_LAST.w = (s.chan c ch).status := Nat.mod_eq_of_lt hfits
  have hkept : ∀ f v, (f, v) ∈ endFldsOf ((s.fld DMA_TAIL_TAIL c ch + 1) % 2 ^ s.fld DMA_RINGSIZE_LOG2 c ch) (s.chan c ch).status → Untouched f → u.fld f c ch = v % 2 ^ f.w :=
    fun f v hf hun => (hu.fld f c ch hun).trans (hfld f v hf)
  have huchan := (State.chan_of_dma hu.dma c ch).trans hchan
  have huserves : ChanServes c ch s u := hserves.trans (.of_traffic hu)
  by_cases hstop : s.fld DMA_CTL_ABORT c ch = 1 ∨ ((s.chan c ch).status ≠ 8 ∧ (s.chan c ch).status ≠ 6)
  · rw [if_pos (by simpa [State.flag] using hstop)] at heq
    have hout : ∀ f, f.idx % 1024 ∉ abortFlds.map (·.1.idx % 1024) → ((u.setFlds c ch abortFlds).withReport r).fld f c ch = u.fld f c ch := fun f hf =>
      State.fld_setFlds_idx u c ch c ch hf
    have hin : ∀ x ∈ abortFlds, ((u.setFlds c ch abortFlds).withReport r).fld x.1 c ch = x.2 % 2 ^ x.1.w := fun x hx => State.fld_setFlds_mem u c ch (by decide) hx
    simp only [abortFlds, List.forall_mem_cons] at hin
    obtain ⟨hs, ha, -⟩ := hin
    have htserves := (huserves.trans (.setFlds u c ch abortFlds)).trans (.of_dma (.of_traffic (.of_eq rfl)) rfl : ChanServes c ch _ ((u.setFlds c ch abortFlds).withReport r))
    refine ⟨_, hexec.trans (congrArg _ heq), (State.chan_of_dma (State.dma_setFlds u c ch abortFlds) c ch).trans huchan,
      (hout _ (by decide)).trans ((hkept _ _ (by simp [endFldsOf]) (by decide)).trans hlast), (hout _ (by decide)).trans (hkept _ 0 (by simp [endFldsOf]) (by decide)),
      (hout _ (by decide)).trans (hkept _ _ (by simp [endFldsOf]) (by decide)), fun _ => ⟨hs, ha⟩, fun h0 hok => ?_, htserves.serves.sameMemories, htserves.other⟩
    omega
  · rw [if_neg (by simpa [State.flag] using hstop)] at heq
    exact ⟨u, hexec.trans (congrArg _ heq), huchan, (hkept _ _ (by simp [endFldsOf]) (by decide)).trans hlast, hkept _ 0 (by simp [endFldsOf]) (by decide),
      hkept _ _ (by simp [endFldsOf]) (by decide), fun h => absurd h hstop, fun _ _ => (hu.fld _ c ch (by decide)).trans hstopped, huserves.serves.sameMemories, huserves.other⟩

/-- Settles O31: each register command by its field; the stations of a descriptor by what a hit in the cache gives, and the rest by what a channel's work can change. -/
theorem dmaChannelsMoveTheirDescriptors : Obligations.DmaChannelsMoveTheirDescriptors := by
  unfold Obligations.DmaChannelsMoveTheirDescriptors
  exact ⟨fun _ _ _ _ h => dmaHeadWrite_sets h, fun _ _ _ _ h => dmaRun_sets h, fun _ _ _ h => dmaStoppedClear_clears h, fun _ _ _ h => dmaAbort_aborts h,
    fun _ _ _ _ _ h hl => dmaDescFetch_reads h hl, fun _ _ _ h => congrArg ok (if_neg (Bool.eq_false_iff.1 h)), fun _ _ _ _ h htag hf he => dmaReadReturn_desc h htag hf he,
    fun _ _ _ h => dmaBurst_serves h, fun _ _ _ _ _ h htag hd hleft _ => dmaReadReturn_counts h htag hd hleft,
    fun _ _ _ _ h htag hleft hw hcode he => dmaWriteAck_ends_burst h htag hleft hw hcode he, fun _ _ _ _ _ _ hd hb hend hfin hl he => dmaDescEnd_sends hd hb hend hfin hl he,
    fun _ _ _ _ _ h htag hd hend he => dmaWriteAck_status h htag hd hend he, fun _ _ _ _ _ hd hend hst hreset hfits => dmaDescEnd_ends hd hend hst hreset hfits⟩

end Sys2Proof.Machine
end

section
/-! RESULTS. Doorbells: the queue, stream or channel that one names, and the count of those that find nothing (R270, R546, R554 to R557, R565, R639; O49). -/

namespace Sys2Proof.Machine

/-! ### Queues -/

/-- A queue after a change of one. -/
theorem State.queue_updQueue (s : State) (n r m j : Nat) (f : QueueS → QueueS) : (s.updQueue n r f).queue m j = if m = n ∧ j = r then f (s.queue n r) else s.queue m j := by
  simp only [State.queue, State.updQueue, State.ctx, State.updCtx, mget_mupd]
  by_cases hm : m = n
  · subst hm
    by_cases hj : j = r <;> simp [hj, mget_mupd]
  · simp [hm]

/-- The queue just changed. -/
@[simp] theorem State.queue_updQueue_same (s : State) (n r : Nat) (f : QueueS → QueueS) : (s.updQueue n r f).queue n r = f (s.queue n r) :=
  (s.queue_updQueue n r n r f).trans (if_pos ⟨rfl, rfl⟩)

/-- The queues go by the contexts alone. -/
theorem State.queue_of_ctxs {s t : State} (h : t.ctxs = s.ctxs) (n r : Nat) : t.queue n r = s.queue n r := by rw [State.queue, State.ctx, h, State.queue, State.ctx]

/-- Nothing changes but queue `r` of context `n`, which becomes `q`. -/
structure QueueMoves (n r : Nat) (q : QueueS) (s t : State) : Prop where
  queue : t.queue n r = q
  other : ∀ m j, (m, j) ≠ (n, r) → t.queue m j = s.queue m j
  eq : t = { s with ctxs := t.ctxs }

/-- A change of a queue. -/
theorem QueueMoves.updQueue {s : State} {n r : Nat} {q : QueueS} {f : QueueS → QueueS} (h : f (s.queue n r) = q) : QueueMoves n r q s (s.updQueue n r f) :=
  ⟨(s.queue_updQueue_same n r f).trans h, fun m j hne => (s.queue_updQueue n r m j f).trans (if_neg fun ⟨hm, hj⟩ => hne (by rw [hm, hj])), rfl⟩

/-- One after another. -/
theorem QueueMoves.trans {s t u : State} {n r : Nat} {p q : QueueS} (a : QueueMoves n r p s t) (b : QueueMoves n r q t u) : QueueMoves n r q s u :=
  ⟨b.queue, fun m j h => (b.other m j h).trans (a.other m j h), b.eq.trans (by rw [a.eq])⟩

/-- As the statements put it. -/
theorem QueueMoves.gives {s t : State} {n r : Nat} {q : QueueS} (a : QueueMoves n r q s t) :
    t.queue n r = q ∧ (∀ m j, (m, j) ≠ (n, r) → t.queue m j = s.queue m j) ∧ t = { s with ctxs := t.ctxs } := ⟨a.queue, a.other, a.eq⟩

/-- As the statements put it, from a state with the same queues. -/
theorem QueueMoves.gives_from {s u t : State} {n r : Nat} {q : QueueS} (a : QueueMoves n r q u t) (h : ∀ m j, u.queue m j = s.queue m j) :
    t.queue n r = q ∧ (∀ m j, (m, j) ≠ (n, r) → t.queue m j = s.queue m j) ∧ t = { u with ctxs := t.ctxs } :=
  ⟨a.queue, fun m j hne => (a.other m j hne).trans (h m j), a.eq⟩

/-- A device that does not mirror sends no QUEUE record. -/
theorem State.mirrorQueue_off {s : State} (h : s.mirroring = false) (ctx ring what no : Nat) (entry : List Nat) : (s.mirrorQueue ctx ring what no entry).2 = s := by
  rw [State.mirrorQueue, h]
  rfl

/-- A change of queues leaves the mirroring alone. -/
@[simp] theorem State.mirroring_updQueue (s : State) (n r : Nat) (f : QueueS → QueueS) : (s.updQueue n r f).mirroring = s.mirroring := rfl

/-! ### Which doorbells act (R546, R557, R639) -/

/-- A doorbell that no slot boundary withholds rings at once. -/
theorem State.doorbell_of_free {d : Door} {s : State} (h : DoorFree d s) (i : Instr) (f : Nat → State → Option State) : s.doorbell d i f = s.ring d f := by
  rcases h with h | ⟨c, off, rfl⟩
  · cases d with
    | pf p off => exact State.outside_now h _ _ _
    | vf p v off => exact State.outside_now h _ _ _
    | hart c off => rfl
  · rfl

/-- The port that counts a doorbell is one of four. -/
theorem State.doorOf_port_lt {s : State} {d : Door} {p : Nat} {o : Option Nat} (h : s.doorOf d = some (p, o)) : p < 4 := by
  cases d with
  | pf q off =>
    obtain ⟨-, h⟩ := Option.ite_none_right_eq_some.1 h
    exact (Prod.mk.inj (Option.some.inj h)).1 ▸ q.isLt
  | vf q v off =>
    obtain ⟨-, h⟩ := Option.ite_none_right_eq_some.1 h
    split at h <;> exact (Prod.mk.inj (Option.some.inj h)).1 ▸ q.isLt
  | hart c off =>
    obtain ⟨-, h⟩ := Option.ite_none_right_eq_some.1 h
    exact (Prod.mk.inj (Option.some.inj h)).1 ▸ c.isLt

/-- An ignored doorbell is counted and changes nothing else. -/
theorem State.dropDoor_gives (s : State) {p : Nat} (hp : p < 4) : (s.dropDoor p).fld QUE_DBDROP_COUNT p = min (2 ^ QUE_DBDROP_COUNT.w - 1) (s.fld QUE_DBDROP_COUNT p + 1) ∧
    OnlyFields [(QUE_DBDROP_COUNT, p, 0)] s (s.dropDoor p) :=
  ⟨(s.fld_setFld_same QUE_DBDROP_COUNT p 0 _).trans (Nat.mod_eq_of_lt (Nat.lt_of_le_of_lt (Nat.min_le_left _ _) (by decide))),
    .setFld s _ (by decide +kernel) (hp.trans (by decide)) List.mem_cons_self⟩

/-- The doorbell is counted at port `p` and changes nothing else. -/
def Dropped (p : Nat) (s : State) (o : Res) : Prop := ∃ t, o = .next t ∧
  t.fld QUE_DBDROP_COUNT p = min (2 ^ QUE_DBDROP_COUNT.w - 1) (s.fld QUE_DBDROP_COUNT p + 1) ∧ OnlyFields [(QUE_DBDROP_COUNT, p, 0)] s t

/-- A doorbell that is dropped. -/
theorem dropped_of_eq {s : State} {p : Nat} {o : Res} (hp : p < 4) (h : o = ok (s.dropDoor p)) : Dropped p s o := ⟨s.dropDoor p, h, s.dropDoor_gives hp⟩

/-- The six doorbells ring. -/
theorem exec_door (d : Door) (r : Fin 64) (v : BitVec 12) (host : List Byte) (w : BitVec 32) (k : Fin 256) (x : BitVec 16) (s : State) {i : Instr}
    (hi : i ∈ [Instr.sqtail d r v, Instr.cqhead d r v, Instr.qsync d r host, Instr.resume d w, Instr.cqrel d r, Instr.dmahead d k x]) :
    ∃ f, exec i s = s.doorbell d i f := by
  simp only [List.mem_cons, List.not_mem_nil, or_false] at hi
  rcases hi with rfl | rfl | rfl | rfl | rfl | rfl <;> exact ⟨_, rfl⟩

/-- A doorbell on no answering page. -/
theorem State.doorbell_nowhere {d : Door} {s : State} (h : DoorFree d s) (hd : s.doorOf d = none) (i : Instr) (f : Nat → State → Option State) :
    s.doorbell d i f = .next s := by
  rw [State.doorbell_of_free h, State.ring, hd]
  rfl

/-- A doorbell on an unmapped page, or for a context not LIVE or STOPPED or a SHADOW context. -/
theorem State.doorbell_closed {d : Door} {s : State} {p : Nat} {o : Option Nat} (h : DoorFree d s) (hd : s.doorOf d = some (p, o))
    (ho : ∀ n, o = some n → (s.ctx n).state ∉ [1, 2] ∨ s.pairRole n = 2) (i : Instr) (f : Nat → State → Option State) : Dropped p s (s.doorbell d i f) := by
  refine dropped_of_eq (State.doorOf_port_lt hd) ?_
  rw [State.doorbell_of_free h, State.ring, hd]
  cases o with
  | none => rfl
  | some n =>
    refine if_neg ?_
    have hn := ho n rfl
    simp only [List.mem_cons, List.not_mem_nil, or_false] at hn
    simpa [imp_iff_not_or] using hn

/-- A doorbell that reaches a LIVE or STOPPED context with queues of its own. -/
structure DoorOpen (d : Door) (p n : Nat) (s : State) : Prop where
  free : DoorFree d s
  page : s.doorOf d = some (p, some n)
  live : (s.ctx n).state ∈ [1, 2]
  role : s.pairRole n ≠ 2

namespace DoorOpen

variable {d : Door} {p n : Nat} {s t : State} {i : Instr} {f : Nat → State → Option State}

/-- Its context takes doorbells. -/
theorem takes (h : DoorOpen d p n s) : (((s.ctx n).state == 1 || (s.ctx n).state == 2) && s.pairRole n != 2) = true := by
  obtain ⟨-, -, hlive, hrole⟩ := h
  simp only [List.mem_cons, List.not_mem_nil, or_false] at hlive
  simpa using ⟨hlive, hrole⟩

/-- It acts. -/
theorem acts (h : DoorOpen d p n s) (hf : f n s = some t) : s.doorbell d i f = .next t := by
  rw [State.doorbell_of_free h.free, State.ring, h.page]
  refine (if_pos h.takes).trans ?_
  rw [hf]
  rfl

/-- It finds nothing. -/
theorem drops (h : DoorOpen d p n s) (hf : f n s = none) : Dropped p s (s.doorbell d i f) := by
  refine dropped_of_eq (State.doorOf_port_lt h.page) ?_
  rw [State.doorbell_of_free h.free, State.ring, h.page]
  refine (if_pos h.takes).trans ?_
  rw [hf]

/-! ### SQTAIL and CQHEAD (R556, R565) -/

/-- SQTAIL or CQHEAD of a queue that is not enabled. -/
theorem tail_head_disabled (h : DoorOpen d p n s) {r : Fin 64} (hen : (s.queue n r).en = false) (v : BitVec 12) :
    ∀ i ∈ [Instr.sqtail d r v, Instr.cqhead d r v], Dropped p s (exec i s) := by
  simp only [List.forall_mem_cons]
  refine ⟨h.drops ?_, h.drops ?_, by simp⟩ <;> exact if_pos (by rw [hen]; rfl)

/-- SQTAIL of an enabled queue. -/
theorem exec_sqtail (h : DoorOpen d p n s) (hm : s.mirroring = false) {r : Fin 64} (hen : (s.queue n r).en = true) {v : BitVec 12}
    (hv : v.toNat < 2 ^ (s.queue n r).log2) : exec (.sqtail d r v) s = .next (if (s.queue n r).disabling then
      (s.updQueue n r (fun q => { q with posted := q.posted + (v.toNat + 2 ^ (s.queue n r).log2 - q.tail) % 2 ^ (s.queue n r).log2, tail := v.toNat })).updQueue n r
        (fun q => { q with taken := q.posted })
      else s.updQueue n r (fun q => { q with posted := q.posted + (v.toNat + 2 ^ (s.queue n r).log2 - q.tail) % 2 ^ (s.queue n r).log2, tail := v.toNat })) := by
  refine h.acts ?_
  simp only [hen, State.ringIndex, if_pos hv]
  rw [State.mirrorQueue_off]
  · rfl
  · split <;> exact hm

/-- SQTAIL of a queue that stays enabled. -/
theorem sqtail_posts (h : DoorOpen d p n s) (hm : s.mirroring = false) {r : Fin 64} {q : QueueS} (hq : s.queue n r = q) (hen : q.en = true) {v : BitVec 12}
    (hv : v.toNat < 2 ^ q.log2) (hdis : q.disabling = false) : ∃ t, exec (.sqtail d r v) s = .next t ∧
      QueueMoves n r { q with posted := q.posted + (v.toNat + 2 ^ q.log2 - q.tail) % 2 ^ q.log2, tail := v.toNat } s t := by
  subst hq
  have hexec := h.exec_sqtail hm hen hv
  rw [hdis] at hexec
  exact ⟨_, hexec, .updQueue rfl⟩

/-- SQTAIL of a queue that is to be disabled: what is posted is dropped. -/
theorem sqtail_posts_disabling (h : DoorOpen d p n s) (hm : s.mirroring = false) {r : Fin 64} {q : QueueS} (hq : s.queue n r = q) (hen : q.en = true) {v : BitVec 12}
    (hv : v.toNat < 2 ^ q.log2) (hdis : q.disabling = true) : ∃ t, exec (.sqtail d r v) s = .next t ∧
      QueueMoves n r { q with posted := q.posted + (v.toNat + 2 ^ q.log2 - q.tail) % 2 ^ q.log2, tail := v.toNat,
                              taken := q.posted + (v.toNat + 2 ^ q.log2 - q.tail) % 2 ^ q.log2 } s t := by
  subst hq
  have hexec := h.exec_sqtail hm hen hv
  rw [hdis] at hexec
  exact ⟨_, hexec, (QueueMoves.updQueue rfl).trans (.updQueue (by rw [State.queue_updQueue_same]))⟩

/-- CQHEAD of an enabled queue. -/
theorem exec_cqhead (h : DoorOpen d p n s) {r : Fin 64} (hen : (s.queue n r).en = true) {v : BitVec 12} (hv : v.toNat < 2 ^ (s.queue n r).log2) :
    exec (.cqhead d r v) s =
      .next (s.updQueue n r (fun q => { q with used := (q.cqTail + 2 ^ (s.queue n r).log2 - v.toNat) % 2 ^ (s.queue n r).log2 })) := by
  refine h.acts ?_
  simp only [hen, State.ringIndex, if_pos hv]
  rfl

end DoorOpen

/-! ### QSYNC (R554, R555) -/

/-- What a read of a queue-table entry leaves changes nothing that queues and their mirroring go by. -/
theorem State.tallyRead_gives (s : State) (ctx va m : Nat) : (s.tallyRead ctx va m).ctxs = s.ctxs ∧ (s.tallyRead ctx va m).mirroring = s.mirroring := by
  have hmirror : ∀ t : State, t.fld CPL_CTL_MODE 0 = s.fld CPL_CTL_MODE 0 → t.fld CPL_STATE_STATE 0 = s.fld CPL_STATE_STATE 0 → t.mirroring = s.mirroring := fun t hm hs => by
    rw [State.mirroring, State.pairMode, hm, hs, State.mirroring, State.pairMode]
  have habort := Traffic.lockAbort s 5
  unfold State.tallyRead
  split
  · split
    · exact ⟨habort.ctxs, hmirror _ ((State.fld_setFld_idx _ 0 0 _ 0 _ (by decide)).trans (habort.fld _ 0 0 (by decide)))
        ((State.fld_setFld_idx _ 0 0 _ 0 _ (by decide)).trans (habort.fld _ 0 0 (by decide)))⟩
    · exact ⟨rfl, rfl⟩
  · exact ⟨rfl, rfl⟩

/-- The settings that an entry of a queue table gives. -/
def entrySettings (bs : List Nat) : QueueS :=
  { sqBase := leNat (bs.take 8), cqBase := leNat ((bs.drop 8).take 8), log2 := bitsOf (leNat ((bs.drop 16).take 4)) 0 4, prio := bitsOf (leNat ((bs.drop 16).take 4)) 4 2,
    vec := bitsOf (leNat ((bs.drop 16).take 4)) 7 11 }

/-- An entry that is well formed is read as it stands. -/
theorem State.readQueueEntry_of_vread {s : State} {n r : Nat} {host bs : List Nat} (h : s.vread n ((s.ctx n).qtable + 32 * r) 32 host = some bs)
    (hsq : leNat (bs.take 8) % 64 = 0) (hcq : leNat ((bs.drop 8).take 8) % 64 = 0) (hlo : 2 ≤ bitsOf (leNat ((bs.drop 16).take 4)) 0 4)
    (hhi : bitsOf (leNat ((bs.drop 16).take 4)) 0 4 ≤ 12) : s.readQueueEntry n r host =
      (entrySettings bs, bitsOf (leNat ((bs.drop 16).take 4)) 6 1 == 1, s.tallyRead n ((s.ctx n).qtable + 32 * r) 32) := by
  simp [State.readQueueEntry, State.vreadFree, h, State.aligned64, hsq, hcq, hlo, hhi, entrySettings]

/-- A queue with an entry's settings. -/
def QueueS.withSettings (e q : QueueS) : QueueS := { q with sqBase := e.sqBase, cqBase := e.cqBase, prio := e.prio, vec := e.vec }

/-- A queue that is to be disabled: its unstarted work orders are dropped. -/
def QueueS.dropped (q : QueueS) : QueueS := { q with disabling := true, again := false, taken := q.posted, repost := [] }

/-- What QSYNC does with an entry that was read, by EN and by the queue. -/
theorem State.qsync_of_entry {s u : State} {n r : Nat} {host : List Nat} {e : QueueS} {en : Bool} (h : s.readQueueEntry n r host = (e, en, u)) (hm : u.mirroring = false) :
    (en = true → (u.queue n r).en = false → s.qsync n r host = u.updQueue n r (fun _ => enabledQueue e)) ∧
    (en = true → (u.queue n r).en = true → (u.queue n r).disabling = false → (u.queue n r).log2 = e.log2 → s.qsync n r host = u.updQueue n r (QueueS.withSettings e)) ∧
    (en = false → (u.queue n r).en = true → s.qsync n r host = u.updQueue n r QueueS.dropped) ∧
    (en = false → (u.queue n r).en = false → s.qsync n r host = u) := by
  have hupd : ∀ (f : QueueS → QueueS) ring what no entry, ((u.updQueue n r f).mirrorQueue n ring what no entry).2 = u.updQueue n r f := fun f _ _ _ _ =>
    State.mirrorQueue_off ((State.mirroring_updQueue u n r f).trans hm) n _ _ _ _
  refine ⟨fun he hq => ?_, fun he hq hd hl => ?_, fun he hq => ?_, fun he hq => ?_⟩ <;> rw [State.qsync, h]
  · simp only [he, hq, Bool.not_true, Bool.not_false, if_true, if_false, Bool.false_eq_true, hupd]
  · simp only [he, hq, hd, hl, Bool.not_true, beq_self_eq_true, if_true, if_false, Bool.false_eq_true, hupd]
    rfl
  · simp only [he, hq, Bool.not_false, if_true, hupd]
    rfl
  · simp only [he, hq, Bool.not_false, if_true, if_false, Bool.false_eq_true]
    exact State.mirrorQueue_off hm n r 3 _ []

/-- No completion of a ring that holds none is released. -/
theorem releaseHold_none {l : List Compl} (h : ∀ c ∈ l, c.held = false) : releaseHold l = none := by
  induction l with
  | nil => rfl
  | cons c l ih =>
    obtain ⟨hc, hl⟩ := List.forall_mem_cons.1 h
    rw [releaseHold, hc, ih hl]
    rfl

/-- The coach of a coach number is one of 96. -/
theorem ordinalOf_lt {x k : Nat} (h : ordinalOf x = some k) : k < 96 := by
  obtain ⟨hx, hk⟩ := Option.ite_none_right_eq_some.1 h
  have hk := Option.some.inj hk
  omega

namespace DoorOpen

variable {d : Door} {p n : Nat} {s : State}

/-- QSYNC with a well-formed entry. -/
theorem qsync_moves (h : DoorOpen d p n s) (hm : s.mirroring = false) {r : Fin 64} {host : List Byte} {bs : List Nat} {w : Nat} {u : State} {q : QueueS}
    (hu : u = s.tallyRead n ((s.ctx n).qtable + 32 * r.val) 32) (hread : s.vread n ((s.ctx n).qtable + 32 * r.val) 32 (host.map BitVec.toNat) = some bs)
    (hw : w = leNat ((bs.drop 16).take 4)) (hq : q = s.queue n r) (hsq : leNat (bs.take 8) % 64 = 0) (hcq : leNat ((bs.drop 8).take 8) % 64 = 0)
    (hlo : 2 ≤ bitsOf w 0 4) (hhi : bitsOf w 0 4 ≤ 12) :
    (bitsOf w 6 1 = 1 → q.en = false → ∃ t, exec (.qsync d r host) s = .next t ∧ QueueMoves n r (enabledQueue (entrySettings bs)) u t) ∧
    (bitsOf w 6 1 = 1 → q.en = true → q.disabling = false → q.log2 = bitsOf w 0 4 →
      ∃ t, exec (.qsync d r host) s = .next t ∧ QueueMoves n r ((entrySettings bs).withSettings q) u t) ∧
    (bitsOf w 6 1 = 0 → q.en = true → ∃ t, exec (.qsync d r host) s = .next t ∧ QueueMoves n r q.dropped u t) ∧
    (bitsOf w 6 1 = 0 → q.en = false → exec (.qsync d r host) s = .next u) := by
  obtain ⟨hctxs, hmirror⟩ := s.tallyRead_gives n ((s.ctx n).qtable + 32 * r.val) 32
  rw [← hu] at hctxs hmirror
  have hqueue : u.queue n r = q := (State.queue_of_ctxs hctxs n r).trans hq.symm
  have hentry := State.readQueueEntry_of_vread hread hsq hcq (hw ▸ hlo) (hw ▸ hhi)
  rw [← hw, ← hu] at hentry
  have hexec : exec (.qsync d r host) s = .next (s.qsync n r (host.map BitVec.toNat)) := h.acts rfl
  obtain ⟨henable, hset, hdrop, hnone⟩ := State.qsync_of_entry hentry (hmirror.trans hm)
  rw [hqueue] at henable hset hdrop hnone
  rw [hexec]
  refine ⟨fun hen hq => ?_, fun hen hq hd hl => ?_, fun hen hq => ?_, fun hen hq => ?_⟩
  · rw [henable (by rw [hen]; rfl) hq]
    exact ⟨_, rfl, .updQueue rfl⟩
  · rw [hset (by rw [hen]; rfl) hq hd (by rw [hl, hw]; rfl)]
    exact ⟨_, rfl, .updQueue (congrArg _ hqueue)⟩
  · rw [hdrop (by rw [hen]; rfl) hq]
    exact ⟨_, rfl, .updQueue (congrArg _ hqueue)⟩
  · rw [hnone (by rw [hen]; rfl) hq]

/-! ### CQREL (R565) -/

/-- CQREL of a ring whose oldest completion is held. -/
theorem exec_cqrel_held (h : DoorOpen d p n s) {r : Fin 64} {c : Compl} {rest : List Compl} (hc : (s.queue n r).compl = c :: rest) (hheld : c.held = true) :
    exec (.cqrel d r) s = .next (s.updQueue n r (fun q => { q with compl := { c with held := false } :: rest })) := by
  refine h.acts ?_
  rw [hc, releaseHold, if_pos hheld]
  rfl

/-- CQREL of a ring that holds no completion. -/
theorem exec_cqrel_none (h : DoorOpen d p n s) {r : Fin 64} (hc : ∀ c ∈ (s.queue n r).compl, c.held = false) : Dropped p s (exec (.cqrel d r) s) := by
  refine h.drops ?_
  rw [releaseHold_none hc]
  rfl

/-! ### RESUME (R270) -/

/-- RESUME of a coach bound to the context. -/
theorem exec_resume_bound (h : DoorOpen d p n s) {w : BitVec 32} {k : Nat} (hk : ordinalOf (bitsOf w.toNat 0 7) = some k) (hb : s.boundCtx k = some n) :
    exec (.resume d w) s = .next (s.streamResume k (bitsOf w.toNat 8 3)) := by
  refine h.acts ?_
  rw [hk]
  exact if_pos (by rw [hb]; exact beq_self_eq_true _)

/-- RESUME of another coach. -/
theorem exec_resume_unbound (h : DoorOpen d p n s) {w : BitVec 32} {k : Nat} (hk : ordinalOf (bitsOf w.toNat 0 7) = some k) (hb : s.boundCtx k ≠ some n) :
    Dropped p s (exec (.resume d w) s) := by
  refine h.drops ?_
  rw [hk]
  exact if_neg (by simpa using hb)

/-- RESUME of a FAULTED stream. -/
theorem resume_faulted (h : DoorOpen d p n s) {w : BitVec 32} {k : Nat} (hk : ordinalOf (bitsOf w.toNat 0 7) = some k) (hb : s.boundCtx k = some n)
    (hst : s.fld STR_STATE_STATE k (bitsOf w.toNat 8 3) = 3) : ∃ t, exec (.resume d w) s = .next t ∧ t.fld STR_STATE_STATE k (bitsOf w.toNat 8 3) = 1 ∧
      (t.strm k (bitsOf w.toNat 8 3)).failed = none ∧ OnlyFields [(STR_STATE_STATE, k, bitsOf w.toNat 8 3)] { s with coaches := t.coaches } t := by
  obtain ⟨hstate, hfailed, -, -, heq, hfields, -⟩ := s.streamResumeNow_gives ((ordinalOf_lt hk).trans (by decide)) (bitsOf w.toNat 8 3)
  exact ⟨_, (h.exec_resume_bound hk hb).trans (congrArg _ (State.streamResume_faulted hst)), hstate, hfailed, heq, hfields⟩

/-! ### DMAHEAD (R556) -/

/-- DMAHEAD of a channel bound to the context. -/
theorem dmahead_sets (h : DoorOpen d p n s) {k : Fin 256} {x : BitVec 16} (hb : s.fld DMA_CTX_BOUND (k.val / 64) (k.val % 64) = 1)
    (hc : s.fld DMA_CTX_CONTEXT (k.val / 64) (k.val % 64) = n) (hx : x.toNat < 2 ^ s.fld DMA_RINGSIZE_LOG2 (k.val / 64) (k.val % 64)) :
    ∃ t, exec (.dmahead d k x) s = .next t ∧ t.fld DMA_HEAD_HEAD (k.val / 64) (k.val % 64) = x.toNat % 2 ^ DMA_HEAD_HEAD.w ∧
      OnlyFields [(DMA_HEAD_HEAD, k.val / 64, k.val % 64)] s t := by
  have hhead : s.dmaHead (k.val / 64) (k.val % 64) x.toNat = s.setFld DMA_HEAD_HEAD (k.val / 64) (k.val % 64) x.toNat := by
    rw [State.dmaHead, Nat.mod_eq_of_lt x.isLt, if_pos hx]
  refine ⟨_, (h.acts (if_pos ?_)).trans (congrArg _ hhead), s.fld_setFld_same DMA_HEAD_HEAD _ _ _,
    .setFld s _ (by decide +kernel) (by omega) List.mem_cons_self⟩
  simp [State.flag, hb, hc]

/-- DMAHEAD of another channel. -/
theorem dmahead_unbound (h : DoorOpen d p n s) {k : Fin 256} (x : BitVec 16)
    (hc : s.fld DMA_CTX_BOUND (k.val / 64) (k.val % 64) ≠ 1 ∨ s.fld DMA_CTX_CONTEXT (k.val / 64) (k.val % 64) ≠ n) : Dropped p s (exec (.dmahead d k x) s) := by
  refine h.drops (if_neg ?_)
  simpa [State.flag, imp_iff_not_or] using hc

end DoorOpen

/-- QSYNC_DISABLE_EFFECT acts on a queue that is to be disabled and has nothing left in it. -/
theorem exec_qsyncDisableEffect {n : Ctx} {r : Fin 64} {s : State} (h : s.withheld = false) : exec (.qsyncDisableEffect n r) s =
    if (s.queue n r).disabling && (s.queue n r).running.isEmpty && (s.queue n r).compl.isEmpty then
      ok (s.updQueue n r (fun q => if q.again then enabledQueue q else { enabledQueue q with en := false }))
    else ok s := by
  change execQsyncDisableEffect n r s = _
  rw [execQsyncDisableEffect, State.outside_now h]

/-- QSYNC_DISABLE_EFFECT of a queue with nothing left in it. -/
theorem qsyncDisableEffect_ends {n : Ctx} {r : Fin 64} {q : QueueS} {s : State} (h : s.withheld = false) (hq : q = s.queue n r) (hd : q.disabling = true)
    (hr : q.running = []) (hc : q.compl = []) : ∃ t, exec (.qsyncDisableEffect n r) s = .next t ∧
      QueueMoves n r { en := q.again, sqBase := q.sqBase, cqBase := q.cqBase, log2 := q.log2, prio := q.prio, vec := q.vec } s t := by
  subst hq
  refine ⟨_, (exec_qsyncDisableEffect h).trans (if_pos (by rw [hd, hr, hc]; rfl)), .updQueue ?_⟩
  cases (s.queue n r).again <;> rfl

/-- QSYNC_DISABLE_EFFECT of any other queue. -/
theorem qsyncDisableEffect_waits {n : Ctx} {r : Fin 64} {q : QueueS} {s : State} (h : s.withheld = false) (hq : q = s.queue n r)
    (hn : q.disabling = false ∨ q.running ≠ [] ∨ q.compl ≠ []) : exec (.qsyncDisableEffect n r) s = .next s := by
  subst hq
  refine (exec_qsyncDisableEffect h).trans (if_neg ?_)
  simp only [Bool.and_eq_true, List.isEmpty_iff]
  rintro ⟨⟨hd, hr⟩, hc⟩
  simp [hd, hr, hc] at hn

/-- Settles O49: a doorbell that reaches no open context is counted or lost; one that does moves the queue, stream or channel that it names, or is counted. -/
theorem doorbellsMoveTheirQueues : Obligations.DoorbellsMoveTheirQueues := by
  unfold Obligations.DoorbellsMoveTheirQueues
  refine ⟨fun d r v host w k x s hfree => ⟨fun hd i hi => ?_, fun p o hd ho i hi => ?_⟩, fun d p n r q s hfree hd hst hrole hm hq => ?_, fun n r q s hw hq => ?_⟩
  · obtain ⟨f, hf⟩ := exec_door d r v host w k x s hi
    exact hf.trans (State.doorbell_nowhere hfree hd i f)
  · obtain ⟨f, hf⟩ := exec_door d r v host w k x s hi
    rw [hf]
    exact State.doorbell_closed hfree hd ho i f
  · have hopen : DoorOpen d p n s := ⟨hfree, hd, hst, hrole⟩
    refine ⟨fun v => ⟨fun hen => hopen.tail_head_disabled (hq ▸ hen) v, fun hen hv => ⟨fun hdis => ?_, fun hdis => ?_, ?_⟩⟩,
      fun host bs w u hu hread hw hsq hcq hlo hhi => ?_, fun c rest hc hheld => ?_, fun hc => hopen.exec_cqrel_none (hq ▸ hc),
      fun w k hk => ⟨fun hb => hopen.exec_resume_unbound hk hb, fun hb hf => hopen.resume_faulted hk hb hf, fun hb hf => ?_⟩,
      fun k x => ⟨fun hb hc hx => hopen.dmahead_sets hb hc hx, fun hc => hopen.dmahead_unbound x hc⟩⟩
    · exact (hopen.sqtail_posts hm hq.symm hen hv hdis).imp fun _ ⟨he, hmv⟩ => ⟨he, hmv.gives⟩
    · exact (hopen.sqtail_posts_disabling hm hq.symm hen hv hdis).imp fun _ ⟨he, hmv⟩ => ⟨he, hmv.gives⟩
    · subst hq
      exact ⟨_, hopen.exec_cqhead hen hv, (QueueMoves.updQueue rfl).gives⟩
    · obtain ⟨henable, hset, hdrop, hnone⟩ := hopen.qsync_moves hm hu hread hw hq hsq hcq hlo hhi
      have hother : ∀ m j, u.queue m j = s.queue m j := State.queue_of_ctxs (by rw [hu]; exact (s.tallyRead_gives n ((s.ctx n).qtable + 32 * r.val) 32).1)
      subst hw
      exact ⟨fun hen hq => (henable hen hq).imp fun _ ⟨he, hmv⟩ => ⟨he, hmv.gives_from hother⟩,
        fun hen hq hd hl => (hset hen hq hd hl).imp fun _ ⟨he, hmv⟩ => ⟨he, hmv.gives_from hother⟩,
        fun hen hq => (hdrop hen hq).imp fun _ ⟨he, hmv⟩ => ⟨he, hmv.gives_from hother⟩, hnone⟩
    · subst hq
      exact ⟨_, hopen.exec_cqrel_held hc hheld, (QueueMoves.updQueue rfl).gives⟩
    · rw [hopen.exec_resume_bound hk hb, State.streamResume_other hf]
  · exact ⟨fun hd hr hc => (qsyncDisableEffect_ends hw hq hd hr hc).imp fun _ ⟨he, hm⟩ => ⟨he, hm.gives⟩, fun hn => qsyncDisableEffect_waits hw hq hn⟩

end Sys2Proof.Machine
end

section
/-! RESULTS. The rein: arming, readiness, firing, its cycle, timeout and release (R319 to R327, R381, R563; O33). -/

namespace Sys2Proof.Machine

/-- A change of listed fields, in a state that differs from `s` outside the fields. -/
theorem OnlyFields.beside {L : List (Fld × Nat × Nat)} {s r t u : State} (a : OnlyFields L s u) (hr : r.fields = s.fields) (ht : t.fields = u.fields)
    (e : t = { r with fields := t.fields }) : OnlyFields L r t := by
  refine ⟨e, fun f hf x i hx hl => ?_⟩
  rw [State.fld, ht, State.fld, hr]
  exact a.2 f hf x i hx hl

/-- The first of several fields written together. -/
theorem State.fld_setFlds_cons (s : State) {f : Fld} {v u i : Nat} {l : List (Fld × Nat)} (h : f.idx % 1024 ∉ l.map (·.1.idx % 1024)) :
    (s.setFlds u i ((f, v) :: l)).fld f u i = v % 2 ^ f.w :=
  ((s.setFld f u i v).fld_setFlds_idx u i u i h).trans (s.fld_setFld_same f u i v)

/-! ### What the device drives (R319) -/

/-- In ARMED, TIMEDOUT and LATE the line is driven low. -/
theorem State.driveRein_holds {s : State} (h : s.fld DEV_REINSTAT_STATE 0 ∈ [1, 4, 5]) : s.driveRein = s.emit (.pin "REIN" 0) := by
  have hlow : s.reinLow = true := by
    simp only [List.mem_cons, List.not_mem_nil, or_false] at h
    rcases h with h | h | h <;> simp [State.reinLow, h]
  rw [State.driveRein, hlow]
  rfl

/-- In IDLE and FIRED the line is let go. -/
theorem State.driveRein_idle {s : State} (h : s.fld DEV_REINSTAT_STATE 0 = 0) : s.driveRein = s.emit (.pin "REIN" 1) := by
  have hlow : s.reinLow = false := by simp [State.reinLow, h]
  rw [State.driveRein, hlow]
  rfl

/-- In READY a relay or master that has not released the line drives it low. -/
theorem State.driveRein_ready {s : State} (h : s.fld DEV_REINSTAT_STATE 0 = 2) :
    s.driveRein = s.emit (.pin "REIN" (if s.reinRole ≠ 0 ∧ s.rein.released = false then 0 else 1)) := by
  have hlow : s.reinLow = true ↔ s.reinRole ≠ 0 ∧ s.rein.released = false := by simp [State.reinLow, h]
  simp only [State.driveRein, hlow]

/-! ### REIN_ARM -/

/-- The rein armed, before the line is driven. -/
def State.reinArmed (s : State) : State :=
  { s.setFlds 0 0 [(DEV_REINSTAT_STATE, 1), (DEV_REINSTAT_MARKS, 0)] with
    rein := { cycleAt := s.rein.cycleAt }, links := mmap {} (fun l => { l with readySeen := false, fireSeen := false }) s.links }

/-- An armed rein is in ARMED. -/
theorem State.state_reinArmed (s : State) : s.reinArmed.fld DEV_REINSTAT_STATE 0 = 1 :=
  s.fld_setFlds_cons (f := DEV_REINSTAT_STATE) (v := 1) (u := 0) (i := 0) (by decide)

/-- REIN_ARM from IDLE or FIRED. -/
theorem exec_reinArm {s : State} (h : Hits DEV_REINCTL_CMD 0 0 s) (hst : s.fld DEV_REINSTAT_STATE 0 = 0 ∨ s.fld DEV_REINSTAT_STATE 0 = 3) :
    exec .reinArm s = .next (s.reinArmed.emit (.pin "REIN" 0)) := by
  refine (State.regEvent_of_hits h _ _).trans ((if_pos (by simpa using hst)).trans ?_)
  exact congrArg ok (State.driveRein_holds (s := s.reinArmed) (by rw [s.state_reinArmed]; decide))

/-- What arming the rein changes. -/
theorem OnlyFields.reinArmed (s : State) : OnlyFields [(DEV_REINSTAT_STATE, 0, 0), (DEV_REINSTAT_MARKS, 0, 0)] s
    (s.setFlds 0 0 [(DEV_REINSTAT_STATE, 1), (DEV_REINSTAT_MARKS, 0)]) :=
  .setFlds s (by decide) (by simp only [List.forall_mem_cons]; decide +kernel)

/-! ### REIN_READY (R321, R324) -/

/-- The rein ready, before a master decides and the line is driven. -/
def State.reinReadied (s : State) : State := { s.setFld DEV_REINSTAT_STATE 0 0 2 with rein := { cycleAt := s.rein.cycleAt } }

/-- A ready rein is in READY. -/
theorem State.state_reinReadied (s : State) : s.reinReadied.fld DEV_REINSTAT_STATE 0 = 2 := s.fld_setFld_same DEV_REINSTAT_STATE 0 0 2

/-- Readiness changes no other field. -/
theorem State.fld_reinReadied (s : State) {f : Fld} (u i : Nat) (h : f.idx % 1024 ≠ DEV_REINSTAT_STATE.idx % 1024) : s.reinReadied.fld f u i = s.fld f u i :=
  s.fld_setFld_idx u i 0 0 2 h

/-- Readiness leaves the role alone. -/
theorem State.reinRole_reinReadied (s : State) : s.reinReadied.reinRole = s.reinRole := by
  simp only [State.reinRole, s.fld_reinReadied (f := DEV_REINCTL_ROLE) 0 0 (by decide)]

/-- The role of each value of the register. -/
theorem State.reinRole_eq (s : State) : s.reinRole = if s.fld DEV_REINCTL_ROLE 0 = 3 then 0 else s.fld DEV_REINCTL_ROLE 0 := by
  simp [State.reinRole]

/-- A device that is no master chooses no release cycle. -/
theorem State.masterDecide_other {s : State} (h : s.reinRole ≠ 2) : s.masterDecide = s := by simp [State.masterDecide, h]

/-- A master in READY with its marks chooses its release cycle (R324). -/
theorem State.masterDecide_master {s : State} (hst : s.fld DEV_REINSTAT_STATE 0 = 2) (hr : s.reinRole = 2) (ha : s.rein.releaseAt = none)
    (hn : s.rein.released = false) (hm : s.fld DEV_REINEXP_COUNT 0 ≤ s.fld DEV_REINSTAT_MARKS 0) :
    s.masterDecide = { s with rein := { s.rein with releaseAt := some (s.coachCycles + s.fld DEV_REINLEAD_LEAD 0) } } := by
  simp [State.masterDecide, hst, hr, ha, hn, hm]

/-- REIN_READY from ARMED. -/
theorem exec_reinReady {s : State} (h : Hits DEV_REINCTL_CMD 0 0 s) (hst : s.fld DEV_REINSTAT_STATE 0 = 1) :
    exec .reinReady s = .next s.reinReadied.masterDecide.driveRein :=
  (State.regEvent_of_hits h _ _).trans (if_pos (by simpa using hst))

/-- REIN_READY of a member or relay: a relay holds the line low, a member lets it go. -/
theorem reinReady_other {s : State} (h : Hits DEV_REINCTL_CMD 0 0 s) (hst : s.fld DEV_REINSTAT_STATE 0 = 1) (hr : s.fld DEV_REINCTL_ROLE 0 ∈ [0, 1, 3]) :
    exec .reinReady s = .next (s.reinReadied.emit (.pin "REIN" (if s.fld DEV_REINCTL_ROLE 0 = 1 then 0 else 1))) := by
  have hrole : s.reinReadied.reinRole = if s.fld DEV_REINCTL_ROLE 0 = 1 then 1 else 0 := by
    rw [s.reinRole_reinReadied, s.reinRole_eq]
    simp only [List.mem_cons, List.not_mem_nil, or_false] at hr
    rcases hr with hr | hr | hr <;> rw [hr] <;> rfl
  have hne : s.reinReadied.reinRole ≠ 2 := by rw [hrole]; split <;> decide
  have hlow : (s.reinReadied.reinRole ≠ 0 ∧ s.reinReadied.rein.released = false) ↔ s.fld DEV_REINCTL_ROLE 0 = 1 := by
    rw [hrole]
    by_cases h1 : s.fld DEV_REINCTL_ROLE 0 = 1 <;> simp [h1, State.reinReadied]
  rw [exec_reinReady h hst, State.masterDecide_other hne, State.driveRein_ready s.state_reinReadied]
  simp only [hlow]

/-- REIN_READY of a master with its marks. -/
theorem reinReady_master {s : State} (h : Hits DEV_REINCTL_CMD 0 0 s) (hst : s.fld DEV_REINSTAT_STATE 0 = 1) (hr : s.fld DEV_REINCTL_ROLE 0 = 2)
    (hm : s.fld DEV_REINEXP_COUNT 0 ≤ s.fld DEV_REINSTAT_MARKS 0) : ∃ t, exec .reinReady s = .next t ∧ t.fld DEV_REINSTAT_STATE 0 = 2 ∧
      t.rein.releaseAt = some (s.coachCycles + s.fld DEV_REINLEAD_LEAD 0) := by
  have hrole : s.reinReadied.reinRole = 2 := by rw [s.reinRole_reinReadied, s.reinRole_eq, hr]; rfl
  have hmarks : s.reinReadied.fld DEV_REINEXP_COUNT 0 ≤ s.reinReadied.fld DEV_REINSTAT_MARKS 0 := by
    rwa [s.fld_reinReadied 0 0 (by decide), s.fld_reinReadied 0 0 (by decide)]
  have hd := State.masterDecide_master s.state_reinReadied hrole rfl rfl hmarks
  refine ⟨_, exec_reinReady h hst, ?_, ?_⟩ <;> rw [hd]
  · exact s.state_reinReadied
  · exact congrArg (fun x => some (s.coachCycles + x)) (s.fld_reinReadied (f := DEV_REINLEAD_LEAD) 0 0 (by decide))

/-! ### REIN_LINE_HIGH (R320) -/

/-- A sample of the line, before it is judged. -/
def State.reinSampled (s : State) (level : Bool) (n : Nat) : State := { s.setFlag DEV_REINSTAT_LINE 0 0 level with rein := { s.rein with highs := n } }

/-- A sample in READY short of the second high one in succession. -/
theorem exec_reinLineHigh_short {s : State} (hst : s.fld DEV_REINSTAT_STATE 0 = 2) {level : Bool} {n : Nat}
    (hn : n = if level then s.rein.highs + 1 else 0) (h2 : n < 2) : exec (.reinLineHigh level) s = .next (s.reinSampled level n) := by
  subst hn
  exact (if_neg (by simp [hst])).trans (if_neg (Nat.not_le.2 h2))

/-- The second high sample in succession fires. -/
theorem exec_reinLineHigh_fires {s : State} (hst : s.fld DEV_REINSTAT_STATE 0 = 2) (hh : 1 ≤ s.rein.highs) : exec (.reinLineHigh true) s =
    .next { (s.setFlag DEV_REINSTAT_LINE 0 0 true).setFld DEV_REINSTAT_STATE 0 0 3 with
      rein := { s.rein with highs := s.rein.highs + 1, cycleAt := some (s.coachCycles + 64) } } :=
  (if_neg (by simp [hst])).trans (if_pos (Nat.succ_le_succ hh))

/-- What a sample shows and leaves alone. -/
theorem State.reinSampled_shows (s : State) (level : Bool) (n : Nat) : (s.reinSampled level n).fld DEV_REINSTAT_LINE 0 = b2n level ∧
    (s.reinSampled level n).fld DEV_REINSTAT_STATE 0 = s.fld DEV_REINSTAT_STATE 0 :=
  ⟨(s.fld_setFld_same DEV_REINSTAT_LINE 0 0 _).trans (Nat.mod_eq_of_lt (b2n_lt level)), s.fld_setFld_idx 0 0 0 0 _ (by decide)⟩

/-- A sample writes one field. -/
theorem OnlyFields.reinLine (s : State) (L : List (Fld × Nat × Nat)) (h : (DEV_REINSTAT_LINE, 0, 0) ∈ L) (level : Bool) :
    OnlyFields L s (s.setFlag DEV_REINSTAT_LINE 0 0 level) := .setFld s _ (by decide +kernel) (by decide) h

/-! ### REIN_CYCLE (R309, R320, R381) -/

/-- What the registers show from a rein cycle on. -/
def State.reinZeroFlds (s : State) : List (Fld × Nat) :=
  [(DEV_LSCYC_CYC, 0), (DEV_LSADMIT_COUNT, 0), (DEV_REINSTAT_STATE, if s.fld DEV_REINSTAT_STATE 0 == 3 then 0 else s.fld DEV_REINSTAT_STATE 0),
    (DEV_LSSTAT_STATE, if s.fld DEV_LSSTAT_STATE 0 == 1 then 2 else s.fld DEV_LSSTAT_STATE 0)]

/-- Each of them reads what a rein cycle writes to it. -/
theorem State.fld_reinZeroFlds (s : State) {f : Fld} {v : Nat} (h : (f, v) ∈ s.reinZeroFlds) : (s.setFlds 0 0 s.reinZeroFlds).fld f 0 = v % 2 ^ f.w :=
  s.fld_setFlds_mem 0 0 (show [110, 114, 118, 107].Nodup by decide) h

/-- What a device is in its rein cycle before gated coaches restart: the counts at zero, the rein in IDLE, an armed lockstep running, and every rein work
order posted so far let go. -/
def State.reinZero (s : State) : State :=
  { s.setFlds 0 0 s.reinZeroFlds with
    rein := { s.rein with cycleAt := none }
    ctxs := mmap {} (fun c => { c with queues := mmap {} (fun q => { q with released := q.posted }) c.queues }) s.ctxs }

/-- A controller in the rein cycle. -/
def State.hbmZero (s : State) (n : Nat) (h : HbmS) : HbmS :=
  { h with slotBase := h.cyc, g := if s.fld DEV_LSSTAT_STATE 0 == 1 then reinSeed (s.fld DEV_LSSEED_SEED 0) n else h.g }

/-- Nothing changes but coaches that restart, the state they show, and what lockstep keeps of its waiting events and its links. -/
structure Restarts (s t : State) : Prop where
  eq : t = { s with fields := t.fields, coaches := t.coaches, lock := t.lock, links := t.links }
  fld : ∀ f u i, f.idx % 1024 ≠ COA_STATE_STATE.idx % 1024 → t.fld f u i = s.fld f u i

namespace Restarts

/-- No coach restarts. -/
theorem refl (s : State) : Restarts s s := ⟨rfl, fun _ _ _ _ => rfl⟩

/-- One after another. -/
theorem trans {s t u : State} (a : Restarts s t) (b : Restarts t u) : Restarts s u := by
  refine ⟨b.eq.trans ?_, fun f x i hf => (b.fld f x i hf).trans (a.fld f x i hf)⟩
  rw [a.eq]

/-- One for each element of a list. -/
theorem foldl {α : Type} {g : State → α → State} (h : ∀ t x, Restarts t (g t x)) (l : List α) (s : State) : Restarts s (l.foldl g s) := by
  induction l generalizing s with
  | nil => exact refl s
  | cons x l ih => exact (h s x).trans (ih _)

/-- A gated coach restarts (R575). -/
theorem ungate (s : State) (k : Nat) : Restarts s (s.ungate k) := by
  unfold State.ungate
  split
  · exact ⟨rfl, fun f u i hf => s.fld_setFld_idx u i k 0 _ hf⟩
  · exact refl s

/-- Every gated coach of a carriage restarts. -/
theorem ungateCar (s : State) (c : Nat) : Restarts s (s.ungateCar c) := foldl (fun t _ => ungate t _) _ s

end Restarts

/-- An armed lockstep starts: what waits stays, and no link has carried lockstep traffic (R315). -/
def State.lockStarted (s : State) : State :=
  { s with lock := { waiting := s.lock.waiting }, links := mmap {} (fun l => { l with carried := false }) s.links }

/-- A device in its rein cycle, before its controllers start their slots: with an armed lockstep every gated coach of a running carriage restarts (R309). -/
def State.reinStarted (s : State) : State :=
  if s.fld DEV_LSSTAT_STATE 0 == 1 then ((List.range 4).filter (fun c => s.carState c == 0)).foldl (fun t c => t.ungateCar c) s.reinZero.lockStarted
  else s.reinZero

/-- The start of an armed lockstep restarts coaches. -/
theorem Restarts.reinStarted (s : State) : Restarts s.reinZero s.reinStarted := by
  unfold State.reinStarted
  split
  · exact Restarts.trans (t := s.reinZero.lockStarted) ⟨rfl, fun _ _ _ _ => rfl⟩ (.foldl (fun t c => .ungateCar t c) _ _)
  · exact .refl _

/-- REIN_CYCLE of a rein cycle that is due. -/
theorem exec_reinCycle_due {s : State} {x : Nat} (h : s.rein.cycleAt = some x) :
    exec .reinCycle s = .next ((List.range 8).foldl (fun t n => t.updHbm n (s.hbmZero n)) s.reinStarted) := by
  change execReinCycle s = _
  unfold execReinCycle
  rw [h]
  rfl

/-- A controller after a change of one. -/
theorem State.hbmCtl_updHbm (s : State) (n m : Nat) (f : HbmS → HbmS) : (s.updHbm n f).hbmCtl m = if m = n then f (s.hbmCtl n) else s.hbmCtl m :=
  mget_mupd (α := HbmS) _ s.hbmc n f m

/-- Changes of controllers change nothing else. -/
theorem State.foldl_updHbm_eq (f : Nat → HbmS → HbmS) (l : List Nat) (s : State) :
    ∃ c, l.foldl (fun t n => t.updHbm n (f n)) s = { s with hbmc := c } := by
  induction l generalizing s with
  | nil => exact ⟨s.hbmc, rfl⟩
  | cons n l ih => exact ih (s.updHbm n (f n))

/-- Each of the first controllers after a change of every one of them. -/
theorem State.hbmCtl_foldl_updHbm (f : Nat → HbmS → HbmS) (s : State) (n m : Nat) :
    ((List.range n).foldl (fun t n => t.updHbm n (f n)) s).hbmCtl m = if m < n then f m (s.hbmCtl m) else s.hbmCtl m := by
  induction n with
  | zero => rfl
  | succ n ih =>
    rw [List.range_succ, List.foldl_append, List.foldl_cons, List.foldl_nil, State.hbmCtl_updHbm]
    by_cases hm : m = n
    · subst hm
      simp [ih]
    · simp [hm, ih, show m < n + 1 ↔ m < n by omega]

/-- What the registers of a rein cycle show. -/
theorem State.reinZero_shows (s : State) : s.reinZero.fld DEV_LSCYC_CYC 0 = 0 ∧ s.reinZero.fld DEV_LSADMIT_COUNT 0 = 0 ∧
    (s.fld DEV_REINSTAT_STATE 0 = 3 → s.reinZero.fld DEV_REINSTAT_STATE 0 = 0) ∧
    s.reinZero.fld DEV_LSSTAT_STATE 0 = (if s.fld DEV_LSSTAT_STATE 0 = 1 then 2 else s.fld DEV_LSSTAT_STATE 0) % 4 := by
  refine ⟨s.fld_reinZeroFlds (v := 0) ?_, s.fld_reinZeroFlds (v := 0) ?_, fun h3 => s.fld_reinZeroFlds (v := 0) ?_,
    s.fld_reinZeroFlds (f := DEV_LSSTAT_STATE) ?_⟩
  · simp [State.reinZeroFlds]
  · simp [State.reinZeroFlds]
  · simp [State.reinZeroFlds, h3]
  · simp [State.reinZeroFlds]

/-- REIN_CYCLE that is due: the counts start at zero, a fired rein is IDLE, and an armed lockstep runs from its seed. -/
theorem reinCycle_due {s : State} {x : Nat} (h : s.rein.cycleAt = some x) : ∃ t, exec .reinCycle s = .next t ∧ t.fld DEV_LSCYC_CYC 0 = 0 ∧
    t.fld DEV_LSADMIT_COUNT 0 = 0 ∧ t.rein = { s.rein with cycleAt := none } ∧ (s.fld DEV_REINSTAT_STATE 0 = 3 → t.fld DEV_REINSTAT_STATE 0 = 0) ∧
    t.fld DEV_LSSTAT_STATE 0 = (if s.fld DEV_LSSTAT_STATE 0 = 1 then 2 else s.fld DEV_LSSTAT_STATE 0) % 4 ∧
    (∀ n, t.hbmCtl n = if n < 8 then s.hbmZero n (s.hbmCtl n) else s.hbmCtl n) ∧ SameMemories s t := by
  obtain ⟨hcyc, hadm, hfired, hlock⟩ := s.reinZero_shows
  obtain ⟨c, hc⟩ := State.foldl_updHbm_eq s.hbmZero (List.range 8) s.reinStarted
  have hctl := State.hbmCtl_foldl_updHbm s.hbmZero s.reinStarted 8
  have hu := Restarts.reinStarted s
  have hf : ∀ f : Fld, f.idx % 1024 ≠ COA_STATE_STATE.idx % 1024 →
      ((List.range 8).foldl (fun t n => t.updHbm n (s.hbmZero n)) s.reinStarted).fld f 0 = s.reinZero.fld f 0 := fun f hf => by
    rw [hc]
    exact hu.fld f 0 0 hf
  have hold : ∀ n, s.reinStarted.hbmCtl n = s.hbmCtl n := fun n => by rw [hu.eq]; rfl
  refine ⟨_, exec_reinCycle_due h, (hf _ (by decide)).trans hcyc, (hf _ (by decide)).trans hadm, ?_, fun h3 => (hf _ (by decide)).trans (hfired h3),
    (hf _ (by decide)).trans hlock, fun n => by rw [hctl, hold], ?_⟩ <;> rw [hc, hu.eq]
  · rfl
  · exact ⟨rfl, rfl, rfl, rfl, rfl, rfl⟩

/-! ### REIN_TIMEOUT, REIN_DISARM and REIN_RELEASE (R319, R321, R324, R327, R563) -/

/-- The rein fails into TIMEDOUT or LATE: it shows that, sets EVENT and drives the line low. -/
theorem State.reinFail_shows (s : State) {st : Nat} (h : st = 4 ∨ st = 5) : (s.reinFail st).fld DEV_REINSTAT_STATE 0 = st ∧
    (s.reinFail st).fld DEV_REINSTAT_EVENT 0 = 1 ∧ (s.reinFail st).out.head? = some (.pin "REIN" 0) ∧ SameMemories s (s.reinFail st) := by
  have htraffic := Traffic.raise (s.setFlds 0 0 [(DEV_REINSTAT_STATE, st), (DEV_REINSTAT_EVENT, 1)]) none (s.fld DEV_LSCTL_PORT 0) (s.fld DEV_LSCTL_VEC 0)
  have hstate := (htraffic.fld DEV_REINSTAT_STATE 0 0 (by decide)).trans (s.fld_setFlds_cons (v := st) (by decide))
  have hevent := (htraffic.fld DEV_REINSTAT_EVENT 0 0 (by decide)).trans (State.fld_setFld_same _ DEV_REINSTAT_EVENT 0 0 1)
  have hmem : SameMemories s (s.setFlds 0 0 [(DEV_REINSTAT_STATE, st), (DEV_REINSTAT_EVENT, 1)]) := ⟨rfl, rfl, rfl, rfl, rfl, rfl⟩
  have hst : st % 2 ^ DEV_REINSTAT_STATE.w = st := by rcases h with rfl | rfl <;> rfl
  rw [hst] at hstate
  rw [State.reinFail, State.driveRein_holds (by rw [hstate]; rcases h with rfl | rfl <;> decide)]
  exact ⟨hstate, hevent, rfl, hmem.trans htraffic.sameMemories⟩

/-- REIN_TIMEOUT while the rein waits. -/
theorem exec_reinTimeout {s : State} (hst : s.fld DEV_REINSTAT_STATE 0 = 1 ∨ s.fld DEV_REINSTAT_STATE 0 = 2) (ht : s.fld DEV_REINTMO_TMO 0 ≠ 0) :
    exec .reinTimeout s = .next (s.reinFail 4) :=
  if_pos (by simpa using And.intro hst ht)

/-- The rein disarmed, before the line is driven: every rein work order posted so far is cancelled. -/
def State.reinDisarmed (s : State) : State :=
  { s.setFld DEV_REINSTAT_STATE 0 0 0 with
    rein := { cycleAt := s.rein.cycleAt }
    ctxs := mmap {} (fun c => { c with queues := mmap {} (fun q => { q with cancel := q.posted }) c.queues }) s.ctxs }

/-- A disarmed rein is in IDLE. -/
theorem State.state_reinDisarmed (s : State) : s.reinDisarmed.fld DEV_REINSTAT_STATE 0 = 0 := s.fld_setFld_same DEV_REINSTAT_STATE 0 0 0

/-- REIN_DISARM, from every state. -/
theorem exec_reinDisarm {s : State} (h : Hits DEV_REINCTL_CMD 0 0 s) : exec .reinDisarm s = .next (s.reinDisarmed.emit (.pin "REIN" 1)) :=
  (State.regEvent_of_hits h _ _).trans (congrArg ok (State.driveRein_idle s.state_reinDisarmed))

/-- REIN_RELEASE in READY at a release cycle lets the line go. -/
theorem exec_reinRelease {s : State} {x : Nat} (hst : s.fld DEV_REINSTAT_STATE 0 = 2) (hx : s.rein.releaseAt = some x) (hn : s.rein.released = false) :
    exec .reinRelease s = .next { s with rein := { s.rein with released := true }, out := .pin "REIN" 1 :: s.out } := by
  refine (if_pos (by simp [hst, hx, hn])).trans (congrArg ok ?_)
  rw [State.driveRein_ready (s := { s with rein := { s.rein with released := true } }) hst, if_neg (by simp)]
  rfl

/-- Settles O33: each command by the state it finds the rein in, and the rein cycle by whether lockstep is armed. -/
theorem theReinFiresTogether : Obligations.TheReinFiresTogether := by
  unfold Obligations.TheReinFiresTogether
  refine ⟨fun s h hst => ?_, fun s h hst hr => ?_, fun s h hst hr hm => reinReady_master h hst hr hm, fun s hst => ⟨fun hh => ?_, fun hh => ?_, ?_⟩,
    fun x s h => ?_, fun s h => ?_, fun s hst ht => ?_, fun s h => ?_, fun x s hst hx hn => exec_reinRelease hst hx hn⟩
  · exact ⟨_, exec_reinArm h hst, s.state_reinArmed, s.fld_setFlds_mem 0 0 (f := DEV_REINSTAT_MARKS) (v := 0) (by decide) (by simp), rfl, rfl,
      (OnlyFields.reinArmed s).beside rfl rfl rfl⟩
  · exact ⟨_, reinReady_other h hst hr, s.state_reinReadied, rfl, rfl,
      (OnlyFields.setFld s 2 (by decide +kernel) (by decide) List.mem_cons_self).beside rfl rfl rfl⟩
  · have hline : OnlyFields [(DEV_REINSTAT_STATE, 0, 0), (DEV_REINSTAT_LINE, 0, 0)] s ((s.setFlag DEV_REINSTAT_LINE 0 0 true).setFld DEV_REINSTAT_STATE 0 0 3) :=
      (OnlyFields.reinLine s _ (by simp) true).trans (.setFld _ 3 (by decide +kernel) (by decide) (by simp))
    exact ⟨_, exec_reinLineHigh_fires hst hh, State.fld_setFld_same _ DEV_REINSTAT_STATE 0 0 3,
      (State.fld_setFld_idx _ (g := DEV_REINSTAT_STATE) 0 0 0 0 3 (by decide)).trans (s.fld_setFld_same DEV_REINSTAT_LINE 0 0 1), rfl, hline.beside rfl rfl rfl⟩
  · have hn : 1 = if true then s.rein.highs + 1 else 0 := by simp [hh]
    exact ⟨_, exec_reinLineHigh_short hst hn (by decide), (s.reinSampled_shows true 1).2.trans hst, rfl,
      (OnlyFields.reinLine s _ List.mem_cons_self true).beside rfl rfl rfl⟩
  · obtain ⟨hline, hstate⟩ := s.reinSampled_shows false 0
    exact ⟨_, exec_reinLineHigh_short hst (n := 0) rfl (by decide), rfl, hline, hstate.trans hst⟩
  · obtain ⟨t, he, hcyc, hadm, hrein, hfired, hlock, hctl, hmem⟩ := reinCycle_due h
    refine ⟨t, he, hcyc, hadm, hrein, hfired, fun harm => ⟨?_, fun n hn => ?_⟩, fun hnot hlt => ⟨?_, fun n => ?_⟩, hmem⟩
    · simp [hlock, harm]
    · simp [hctl, hn, State.hbmZero, harm]
    · rw [hlock, if_neg hnot, Nat.mod_eq_of_lt hlt]
    · rw [hctl]
      split
      · simp [State.hbmZero, hnot]
      · rfl
  · change execReinCycle s = _
    unfold execReinCycle
    rw [h]
    rfl
  · exact ⟨_, exec_reinTimeout hst ht, s.reinFail_shows (.inl rfl)⟩
  · exact ⟨_, exec_reinDisarm h, s.state_reinDisarmed, rfl, rfl,
      (OnlyFields.setFld s 0 (by decide +kernel) (by decide) List.mem_cons_self).beside rfl rfl rfl⟩

end Sys2Proof.Machine
end

section
/-! SUPPORT. What the traffic between links and network leaves alone: packets admitted, lost, forwarded and taken in (R348, R352, R361, R459, R463 to R467, R648), and
what an abort of lockstep tells the host, the partners and the maintenance arbiter (R315, R633). -/

namespace Sys2Proof.Machine

/-- A link after a change of one. -/
theorem State.link_updLink (s : State) (l m : Nat) (f : LinkS → LinkS) : (s.updLink l f).link m = if m = l then f (s.link l) else s.link m :=
  mget_mupd (α := LinkS) _ s.links l f m

/-- The link just changed. -/
@[simp] theorem State.link_updLink_same (s : State) (l : Nat) (f : LinkS → LinkS) : (s.updLink l f).link l = f (s.link l) :=
  (s.link_updLink l l f).trans (if_pos rfl)

/-- Where no link changes. -/
theorem State.link_of_links {s t : State} (h : t.links = s.links) (l : Nat) : t.link l = s.link l := by rw [State.link, h, State.link]

/-- The fields that such traffic can change: counts of lost and stale packets and of vectors not sent, the pair's state, the log, what a link shows as it leaves
UP, lockstep's event, and the arbiter's counts. -/
def linkWorkFlds : List Fld :=
  [LNK_LOST_COUNT, NOC_STALECNT_COUNT, QUE_VECDROP_COUNT, CPL_STATE_STATE, CPL_STATE_REASON, CPL_STATE_EVENT, LOG_SEQ_NEXT, LOG_LASTGASP_CODE,
    LOG_LASTGASP_SOURCE, LOG_LASTGASP_VALID, LNK_STATE_STATE, DEV_REINLAT_VALID, DEV_LSSTAT_EVENT, REC_MNTSTAT_QUEUED,
    REC_MNTSTAT_RUNNING, REC_MNTSTAT_EVENT]

/-- A field that such traffic leaves alone. -/
abbrev OffLink (f : Fld) : Prop := f.idx % 1024 ∉ linkWorkFlds.map (·.idx % 1024)

/-- What such traffic keeps: the memories, every other field, and of each link its retry buffer and what it holds for a lockstep cycle. -/
structure LinkWork (s t : State) : Prop where
  memories : SameMemories s t
  fld : ∀ f u i, OffLink f → t.fld f u i = s.fld f u i
  held : ∀ l, (t.link l).held = (s.link l).held
  retry : ∀ l, (t.link l).retry = (s.link l).retry

namespace LinkWork

variable {s t u : State}

/-- No packet moves. -/
theorem refl (s : State) : LinkWork s s := ⟨⟨rfl, rfl, rfl, rfl, rfl, rfl⟩, fun _ _ _ _ => rfl, fun _ => rfl, fun _ => rfl⟩

/-- One after another. -/
theorem trans (a : LinkWork s t) (b : LinkWork t u) : LinkWork s u :=
  ⟨a.memories.trans b.memories, fun f x i hf => (b.fld f x i hf).trans (a.fld f x i hf), fun l => (b.held l).trans (a.held l),
    fun l => (b.retry l).trans (a.retry l)⟩

/-- One for each element of a list. -/
theorem foldl {α : Type} {g : State → α → State} (h : ∀ t x, LinkWork t (g t x)) (l : List α) (s : State) : LinkWork s (l.foldl g s) := by
  induction l generalizing s with
  | nil => exact refl s
  | cons x l ih => exact (h s x).trans (ih _)

/-- In one of two cases. -/
theorem ite {c : Prop} [Decidable c] (a : LinkWork s t) (b : LinkWork s u) : LinkWork s (if c then t else u) := by
  split
  · exact a
  · exact b

/-- One step, and another where a condition holds. -/
theorem andIf {c : Prop} [Decidable c] (a : LinkWork s t) (b : LinkWork t u) : LinkWork s (if c then u else t) := ite (a.trans b) a

/-- A change outside memories, fields and links. -/
theorem of_eq (h : t = { s with net := t.net, reports := t.reports, fab := t.fab, out := t.out, laneSt := t.laneSt, arb := t.arb, log := t.log }) : LinkWork s t := by
  have hlinks : t.links = s.links := by rw [h]
  have hfields : t.fields = s.fields := by rw [h]
  refine ⟨?_, fun f x i _ => by rw [State.fld, hfields, State.fld], fun l => by rw [State.link_of_links hlinks], fun l => by rw [State.link_of_links hlinks]⟩
  rw [h]
  exact ⟨rfl, rfl, rfl, rfl, rfl, rfl⟩

/-- Packets sent into the network. -/
theorem of_sent (a : Sent s t) : LinkWork s t := by
  refine of_eq ?_
  rw [show t = _ from a]

/-- A write of one of its fields. -/
theorem setFld (s : State) {g : Fld} (w j v : Nat) (hg : g ∈ linkWorkFlds) : LinkWork s (s.setFld g w j v) :=
  ⟨⟨rfl, rfl, rfl, rfl, rfl, rfl⟩, fun _ x i hf => s.fld_setFld_idx x i w j v (fun h => hf (h ▸ List.mem_map_of_mem (f := (·.idx % 1024)) hg)),
    fun _ => rfl, fun _ => rfl⟩

/-- A write of several of its fields. -/
theorem setFlds (s : State) (w j : Nat) {l : List (Fld × Nat)} (h : ∀ x ∈ l, x.1 ∈ linkWorkFlds) : LinkWork s (s.setFlds w j l) := by
  induction l generalizing s with
  | nil => exact refl s
  | cons x l ih =>
    obtain ⟨hx, hl⟩ := List.forall_mem_cons.1 h
    exact (setFld s w j x.2 hx).trans (ih _ hl)

/-- A change of a link that keeps its retry buffer and what it holds. -/
theorem updLink (s : State) (l : Nat) {f : LinkS → LinkS} (h : ∀ k, (f k).held = k.held ∧ (f k).retry = k.retry) : LinkWork s (s.updLink l f) := by
  refine ⟨⟨rfl, rfl, rfl, rfl, rfl, rfl⟩, fun _ _ _ _ => rfl, fun m => ?_, fun m => ?_⟩ <;> rw [State.link_updLink] <;> split
  · next hm => rw [hm, (h _).1]
  · rfl
  · next hm => rw [hm, (h _).2]
  · rfl

/-- A vector is raised (R548). -/
theorem raise (s : State) (ctx : Option Nat) (port vec : Nat) : LinkWork s (s.raise ctx port vec) := by
  unfold State.raise
  dsimp only
  exact ite (setFld s _ _ _ (by decide)) (ite (refl s) (of_eq rfl))

/-- A log entry is written (R626). -/
theorem logEntry (s : State) (code source : Nat) (ctx : Option Nat) (aux data : Nat) : LinkWork s (s.logEntry code source ctx aux data) := by
  have hseq : LinkWork s (s.wrapAdd LOG_SEQ_NEXT 0 0 1) := setFld s _ _ _ (by decide)
  unfold State.logEntry
  dsimp only
  refine ite (hseq.trans ((setFlds _ 0 0 ?_).trans (of_eq rfl))) (hseq.trans (of_eq rfl))
  simp only [List.forall_mem_cons]
  decide

/-- A gap in the mirror (R648). -/
theorem pairGap (s : State) (link mseq : Nat) : LinkWork s (s.pairGap link mseq) := by
  have hreason : ∀ t : State, LinkWork t (t.pairReason 5) := fun t => (setFlds t 0 0 (by simp only [List.forall_mem_cons]; decide)).trans (raise _ _ _ _)
  exact ite (((setFld s _ _ _ (by decide)).trans (hreason _)).trans (logEntry _ _ _ _ _ _)) (refl s)

/-- A packet is lost (R467). -/
theorem linkLose (s : State) (l : Nat) (o : LOut) : LinkWork s (s.linkLose l o) := by
  have hlost : LinkWork s (s.bumpLk LNK_LOST_COUNT l 1) := setFld s _ _ _ (by decide)
  exact ite hlost (ite (hlost.trans (of_sent (.inject _ _ _))) (ite (hlost.trans (pairGap _ l 0)) hlost))

/-- Waiting packets are admitted as the credits allow (R463). -/
theorem letThroughAux (l : Nat) (os : List LOut) (s : State) (blocked : List Nat) : LinkWork s (s.letThroughAux l os blocked) := by
  induction os generalizing s blocked with
  | nil => exact refl s
  | cons o os ih =>
    refine ite (.trans ?_ (ih _ _)) (.trans ?_ (ih _ _))
    · exact updLink s l fun _ => ⟨rfl, rfl⟩
    · exact updLink s l fun _ => ⟨rfl, rfl⟩

/-- What waits is admitted anew. -/
theorem letThrough (s : State) (l : Nat) : LinkWork s (s.letThrough l) := by
  refine .trans ?_ (letThroughAux l _ _ _)
  exact updLink s l fun _ => ⟨rfl, rfl⟩

/-- A packet is offered to a link. -/
theorem linkOffer (s : State) (l : Nat) (o : LOut) : LinkWork s (s.linkOffer l o) := by
  refine ite (.trans ?_ (letThrough _ l)) (linkLose s l o)
  exact updLink s l fun _ => ⟨rfl, rfl⟩


/-- Packets of the partner are taken in (R464). -/
theorem forwardIn (l fuel : Nat) (s : State) : LinkWork s (s.forwardIn l fuel) := by
  induction fuel generalizing s with
  | zero => exact refl s
  | succ fuel ih =>
    unfold State.forwardIn
    dsimp only
    split
    · exact refl s
    · next p _ =>
      have htaken : LinkWork s (s.updLink l fun k => { k with rxq := k.rxq.erase p, freed := mupd 0 k.freed p.vn (· + creditsOf p) }) :=
        updLink s l fun _ => ⟨rfl, rfl⟩
      have hsent : ∀ (t : State) (q : Packet), LinkWork t (t.niSend (linkNi l) p.rrse q) := fun t q => of_sent (.niSend t _ _ q)
      refine LinkWork.trans (htaken.trans (ite ?_ (ite ?_ ?_))) (ih _)
      · exact andIf (hsent _ _) (linkOffer _ l _)
      · exact .trans (setFld _ (g := NOC_STALECNT_COUNT) _ _ _ (by decide)) (linkOffer _ l _)
      · refine .trans (ite ?_ (refl _)) (hsent _ _)
        exact updLink _ l fun _ => ⟨rfl, rfl⟩

/-- A packet of the partner enters the network (R464, R465). -/
theorem linkPass (s : State) (l : Nat) (resp : Bool) (p : Packet) : LinkWork s (s.linkPass l resp p) := by
  refine ite (of_sent (.inject s _ _)) (.trans ?_ (forwardIn l 2000 _))
  exact updLink s l fun _ => ⟨rfl, rfl⟩

/-- The arbiter's counts are shown. -/
theorem showArb (s : State) : LinkWork s s.showArb := setFlds s 0 0 (by simp only [List.forall_mem_cons]; decide)

/-- A maintenance request is granted (R633). -/
theorem grant (s : State) (r : MReq) : LinkWork s (s.grant r) := by
  refine andIf (.trans ?_ (logEntry _ _ _ _ _ _)) (setFld _ _ _ _ (by decide))
  exact of_eq rfl

/-- Queued maintenance requests are granted. -/
theorem grantQueue (rs : List MReq) (s : State) (kept : List MReq) : LinkWork s (s.grantQueue kept rs) := by
  induction rs generalizing s kept with
  | nil => exact of_eq rfl
  | cons r rs ih => exact ite ((grant s r).trans (ih _ _)) (ih s _)

/-- The arbiter grants what it can. -/
theorem arbStep (s : State) : LinkWork s s.arbStep := ite ((grantQueue s.arb.queue s []).trans (showArb _)) (showArb s)

/-- Abort marks go out (R315). -/
theorem abortMarksOut (s : State) : LinkWork s s.abortMarksOut := foldl (fun _ _ => of_eq rfl) _ s

/-- A change of lockstep is an event (R315). -/
theorem lockEvent (s : State) : LinkWork s s.lockEvent :=
  (setFld s (g := DEV_LSSTAT_EVENT) 0 0 (b2n true) (by decide)).trans (raise _ none _ _)

end LinkWork

end Sys2Proof.Machine
end

section
/-! RESULTS. Links that retry, and packets that enter in their lockstep cycle (R312, R315, R462, R467; O37). -/

namespace Sys2Proof.Machine

/-! ### A link leaves UP (R467) -/

/-- A link that has left UP: nothing of it stays but the answers it owes and its marks. -/
def LinkS.left (k : LinkS) : LinkS :=
  { k with waiting := [], tx := [], starts := [], seqNext := 0, retry := [], resend := none, expect := 0, nakDue := false, lastNak := none,
           lent := [], freed := [], lastCnt := [], sent := 0, rx := [], rxq := [], ret := [], held := [], part := none,
           owed := k.owed ++ k.ret.filterMap (fun e => e.2.map (fun p => (e.1, p))) }

/-- Leaving UP clears the link; the packets it gives up are lost. -/
theorem LinkWork.leaveUp {s : State} {l : Nat} (h : s.linkUp l = true) : LinkWork (s.updLink l LinkS.left) (s.leaveUp l) := by
  unfold State.leaveUp
  rw [if_neg (by simp [h])]
  dsimp only
  refine .andIf (.andIf (.trans ?_ (.foldl (fun t o => .linkLose t l o) _ _)) (.pairGap _ l 0)) (.setFld _ _ _ _ (by decide))
  refine .trans (.trans ?_ (.foldl (fun _ _ => .of_eq rfl) (linkLanes s.couplerAside l) _)) (.setFld _ (g := LNK_STATE_STATE) _ _ 0 (by decide))
  exact .setFld (s.updLink l LinkS.left) (g := LNK_LOST_COUNT) _ _ _ (by decide)

/-- Traffic changes no link. -/
theorem Traffic.link {s t : State} (a : Traffic s t) (l : Nat) : t.link l = s.link l := State.link_of_links (by rw [a.eq]) l

/-- A link shows that it is DOWN, with a code and as an event. -/
def State.downShown (s : State) (l code : Nat) : State := ((s.setLk LNK_STATE_STATE l 0).setLk LNK_STATE_CODE l code).setLk LNK_EVENT_DOWN l 1

/-- What it shows. -/
theorem State.lkFld_downShown (s : State) (l code : Nat) : (s.downShown l code).lkFld LNK_STATE_STATE l = 0 ∧
    (s.downShown l code).lkFld LNK_STATE_CODE l = code % 2 ^ LNK_STATE_CODE.w ∧ (s.downShown l code).lkFld LNK_EVENT_DOWN l = 1 := by
  refine ⟨?_, ?_, State.fld_setFld_same _ _ _ _ 1⟩
  · exact (State.fld_setFld_idx _ _ _ _ _ _ (by decide)).trans ((State.fld_setFld_idx _ _ _ _ _ _ (by decide)).trans (s.fld_setFld_same _ _ _ 0))
  · exact (State.fld_setFld_idx _ _ _ _ _ _ (by decide)).trans (State.fld_setFld_same _ _ _ _ code)

/-- Going DOWN with a code that is an event raises its vector last (R453). -/
theorem Traffic.linkDown (s : State) (l : Nat) {code : Nat} (h0 : code ≠ 0) (h5 : code ≠ 5) : Traffic ((s.leaveUp l).downShown l code) (s.linkDown l code) := by
  unfold State.linkDown
  dsimp only
  rw [if_neg (by simp [h0, h5])]
  exact .raise _ none _ _

/-- A link that goes DOWN from UP with a code that is an event. -/
theorem State.linkDown_shows {s : State} {l code : Nat} (h : s.linkUp l = true) (h0 : code ≠ 0) (h5 : code ≠ 5) :
    (s.linkDown l code).lkFld LNK_STATE_STATE l = 0 ∧ (s.linkDown l code).lkFld LNK_STATE_CODE l = code % 2 ^ LNK_STATE_CODE.w ∧
      (s.linkDown l code).lkFld LNK_EVENT_DOWN l = 1 ∧ ((s.linkDown l code).link l).retry = [] ∧ SameMemories s (s.linkDown l code) := by
  have hleft := LinkWork.leaveUp h
  have hdown := Traffic.linkDown s l h0 h5
  obtain ⟨hstate, hcode, hevent⟩ := (s.leaveUp l).lkFld_downShown l code
  have hcleared : SameMemories s (s.updLink l LinkS.left) := ⟨rfl, rfl, rfl, rfl, rfl, rfl⟩
  have hshown : SameMemories (s.leaveUp l) ((s.leaveUp l).downShown l code) := ⟨rfl, rfl, rfl, rfl, rfl, rfl⟩
  refine ⟨(hdown.fld _ _ _ (by decide)).trans hstate, (hdown.fld _ _ _ (by decide)).trans hcode, (hdown.fld _ _ _ (by decide)).trans hevent, ?_,
    (hcleared.trans hleft.memories).trans (hshown.trans hdown.sameMemories)⟩
  calc ((s.linkDown l code).link l).retry = ((s.leaveUp l).link l).retry := congrArg LinkS.retry (hdown.link l)
    _ = ((s.updLink l LinkS.left).link l).retry := hleft.retry l
    _ = [] := by rw [State.link_updLink_same]; rfl

/-! ### LINK_RETRY_TIMEOUT (R462) -/

/-- LINK_RETRY_TIMEOUT of an awake UP link. -/
theorem exec_linkRetryTimeout {l : Fin 26} {s : State} (hup : s.linkUp l = true) (hs : s.linkSleeps l = false) :
    exec (.linkRetryTimeout l) s = .next (s.linkResend l) :=
  if_pos (by simp [hup, hs])

/-- A link that is not UP, or asleep, lets its timer pass. -/
theorem exec_linkRetryTimeout_idle {l : Fin 26} {s : State} (h : s.linkUp l = false ∨ s.linkSleeps l = true) : exec (.linkRetryTimeout l) s = .next s :=
  if_neg (by rcases h with h | h <;> simp [h])

/-- Nothing is resent where nothing waits, or where a resend began in this very cycle. -/
theorem State.linkResend_still {s : State} {l : Nat} (h : (s.link l).retry = [] ∨ (s.link l).resentAt = s.netCycles + 1) : s.linkResend l = s := by
  unfold State.linkResend
  dsimp only
  split
  · rfl
  · next hr => exact if_pos (by simpa [hr] using h)

/-- The oldest block is resent, or has been resent eight times. -/
theorem State.linkResend_waiting {s : State} {l : Nat} {b : RBlk} {r : List RBlk} (hr : (s.link l).retry = b :: r) (hn : (s.link l).resentAt ≠ s.netCycles + 1) :
    s.linkResend l = if 8 ≤ b.resends then s.linkDown l 4
      else (s.updLink l (fun k => { k with resend := some 0, resentAt := s.netCycles + 1 })).bumpLk LNK_RETRY_COUNT l 1 := by
  unfold State.linkResend
  dsimp only
  rw [hr]
  exact if_neg (by simpa using hn)

/-- A link's registers stand under a carriage. -/
theorem linkHome_lt (l : Fin 26) : (linkHome l).1 < 2048 := by
  have hl := l.isLt
  unfold linkHome
  split <;> simp only <;> omega

/-- A counted resend from the oldest block. -/
theorem linkResent_shows (l : Fin 26) (s : State) {t : State}
    (ht : t = (s.updLink l (fun k => { k with resend := some 0, resentAt := s.netCycles + 1 })).bumpLk LNK_RETRY_COUNT l 1) :
    (t.link l).resend = some 0 ∧ (t.link l).retry = (s.link l).retry ∧ (∀ j, j ≠ l.val → t.link j = s.link j) ∧
      t.lkFld LNK_RETRY_COUNT l = min (2 ^ LNK_RETRY_COUNT.w - 1) (s.lkFld LNK_RETRY_COUNT l + 1) ∧
      OnlyFields [(LNK_RETRY_COUNT, (linkHome l).1, (linkHome l).2)] { s with links := t.links } t := by
  have hlink : ∀ j, t.link j = (s.updLink l (fun k => { k with resend := some 0, resentAt := s.netCycles + 1 })).link j := fun j => by rw [ht]; rfl
  refine ⟨?_, ?_, fun j hj => (hlink j).trans ((s.link_updLink l j _).trans (if_neg hj)), ?_, ?_⟩
  · rw [hlink, State.link_updLink_same]
  · rw [hlink, State.link_updLink_same]
  · rw [ht]
    exact (State.fld_setFld_same _ _ _ _ _).trans (Nat.mod_eq_of_lt (Nat.lt_of_le_of_lt (Nat.min_le_left _ _) (by decide)))
  · rw [ht]
    exact .setFld _ _ (by decide +kernel) (linkHome_lt l) List.mem_cons_self

/-! ### LOCKSTEP_LINK_DELIVERY (R312, R315) -/

/-- A running lockstep that aborts shows the code. -/
theorem State.lockAbort_running {s : State} (h : s.lockRun = true) (code : Nat) : (s.lockAbort code).fld DEV_LSSTAT_STATE 0 = 3 ∧
    (s.lockAbort code).fld DEV_LSSTAT_CODE 0 = code % 2 ^ DEV_LSSTAT_CODE.w := by
  have h2 : s.fld DEV_LSSTAT_STATE 0 = 2 := by simpa [State.lockRun] using h
  unfold State.lockAbort
  dsimp only
  rw [if_neg (by simp [h2]), if_neg (by simp [h])]
  have htold := ((LinkWork.lockEvent (s.setFlds 0 0 [(DEV_LSSTAT_CODE, code), (DEV_LSEND_CYC, s.fld DEV_LSCYC_CYC 0), (DEV_LSSTAT_STATE, 3)])).trans
    (.ite (c := (code == 0xC) = true) (.refl _) (.abortMarksOut _))).trans (.arbStep _)
  exact ⟨(htold.fld DEV_LSSTAT_STATE 0 0 (by decide)).trans (State.fld_setFld_same _ DEV_LSSTAT_STATE 0 0 3),
    (htold.fld DEV_LSSTAT_CODE 0 0 (by decide)).trans (s.fld_setFlds_mem 0 0 (show [108, 111, 107].Nodup by decide) List.mem_cons_self)⟩

/-- Whether a packet that a link holds enters the network now: its cycle has come, or lockstep does not run. -/
def State.entersNow (s : State) (x : Nat × Bool × Packet) : Bool := decide (x.1 ≤ s.fld DEV_LSCYC_CYC 0) || !s.lockRun

/-- While lockstep runs a packet stays where its cycle is still to come. -/
theorem State.entersNow_running {s : State} (h : s.lockRun = true) (x : Nat × Bool × Packet) : (!s.entersNow x) = decide (s.fld DEV_LSCYC_CYC 0 < x.1) := by
  rw [State.entersNow, h, Bool.not_true, Bool.or_false, ← decide_not, decide_eq_decide, Nat.not_le]

/-- Whether a delivery is late: told so, or with a packet whose cycle has passed while lockstep runs. -/
def State.lateDelivery (s : State) (l : Nat) (late : Bool) : Bool :=
  late || (s.lockRun && ((s.link l).held.filter s.entersNow).any (fun x => decide (x.1 < s.fld DEV_LSCYC_CYC 0)))

/-- While lockstep runs a delivery is late when told so or when the cycle of a packet has passed. -/
theorem State.lateDelivery_iff {s : State} (h : s.lockRun = true) (l : Nat) (late : Bool) :
    s.lateDelivery l late = true ↔ late = true ∨ ∃ x ∈ (s.link l).held, x.1 < s.fld DEV_LSCYC_CYC 0 := by
  simp only [State.lateDelivery, h, State.entersNow, Bool.or_eq_true, Bool.and_eq_true, List.any_eq_true, List.mem_filter, decide_eq_true_eq, true_and,
    Bool.not_true, Bool.false_eq_true, or_false]
  refine or_congr_right (exists_congr fun x => ?_)
  exact ⟨fun ⟨⟨hm, _⟩, hx⟩ => ⟨hm, hx⟩, fun ⟨hm, hx⟩ => ⟨⟨hm, hx.le⟩, hx⟩⟩

/-- LOCKSTEP_LINK_DELIVERY: the packets whose cycle has come enter the network, after an abort where the delivery is late. -/
theorem lockstepLinkDelivery_enters (l : Fin 26) (late : Bool) (s : State) : ∃ t, exec (.lockstepLinkDelivery l late) s = .next t ∧
    (t.link l).held = (s.link l).held.filter (fun x => !s.entersNow x) ∧ SameMemories s t ∧
    ∀ f, OffLink f → t.fld f 0 = (if s.lateDelivery l late = true then s.lockAbort 7 else s).fld f 0 := by
  have habort : Traffic s (if s.lateDelivery l late = true then s.lockAbort 7 else s) := .lockAbortIf s _ 7
  generalize hu : (if s.lateDelivery l late = true then s.lockAbort 7 else s) = u at habort
  have hwork : ∀ (xs : List (Nat × Bool × Packet)) (v : State), LinkWork v (xs.foldl (fun t x => t.linkPass l x.2.1 x.2.2) v) :=
    .foldl fun t x => .linkPass t l x.2.1 x.2.2
  have hw := hwork ((s.link l).held.filter s.entersNow) (u.updLink l (fun k => { k with held := k.held.filter (fun x => !s.entersNow x) }))
  refine ⟨_, by rw [← hu]; rfl, ?_, habort.sameMemories.trans (SameMemories.trans ⟨rfl, rfl, rfl, rfl, rfl, rfl⟩ hw.memories), fun f hf => hw.fld f 0 0 hf⟩
  rw [hw.held, State.link_updLink_same, habort.link]

/-- Settles O37: a retry timeout by what waits and how often the oldest block was resent, a delivery by whether it is late. -/
theorem linksRetryAndDeliverInLockstep : Obligations.LinksRetryAndDeliverInLockstep := by
  unfold Obligations.LinksRetryAndDeliverInLockstep
  refine ⟨fun l b r s hup hs hr hn => ?_, fun l s h => ?_, fun l late s hrun => ?_, fun l s hoff => ?_⟩
  · refine ⟨_, exec_linkRetryTimeout hup hs, ?_⟩
    rw [State.linkResend_waiting hr hn]
    refine ⟨fun hlt => ?_, fun hge => ?_⟩
    · rw [if_neg (Nat.not_le.2 hlt), ← hr]
      exact linkResent_shows l s rfl
    · rw [if_pos hge]
      exact State.linkDown_shows hup (by decide) (by decide)
  · by_cases hidle : s.linkUp l = false ∨ s.linkSleeps l = true
    · exact exec_linkRetryTimeout_idle hidle
    · rw [not_or, Bool.not_eq_false, Bool.not_eq_true] at hidle
      obtain ⟨hup, hs⟩ := hidle
      rw [exec_linkRetryTimeout hup hs, State.linkResend_still (by simpa [hup, hs] using h)]
  · obtain ⟨t, he, hheld, hmem, hfld⟩ := lockstepLinkDelivery_enters l late s
    have hlate := State.lateDelivery_iff hrun l late
    refine ⟨t, he, ?_, fun h => ?_, fun hl hdue => ?_, hmem⟩
    · simp only [hheld, State.entersNow_running hrun]
    · rw [hfld _ (by decide), hfld _ (by decide), if_pos (hlate.2 h)]
      exact State.lockAbort_running hrun 7
    · rw [hfld _ (by decide), if_neg]
      · simpa [State.lockRun] using hrun
      · rw [hlate, hl]
        rintro (h | ⟨x, hx, hlt⟩)
        · cases h
        · exact absurd (hdue x hx) (Nat.not_le.2 hlt)
  · obtain ⟨t, he, hheld, hmem, -⟩ := lockstepLinkDelivery_enters l false s
    refine ⟨t, he, ?_, hmem⟩
    rw [hheld]
    simp [State.entersNow, hoff]

end Sys2Proof.Machine
end
